-- ==== Sys2Proof/Word.lean ====
section
/-! DEFINITION. The word types of the model and their plainest arithmetic: fixed-width words (R4, R6), saturating
counters, boolean fields, and total access to fixed-length vectors. -/

namespace Sys2Proof

/-- One byte. -/
abbrev U8 := BitVec 8
/-- A 16-bit word. -/
abbrev U16 := BitVec 16
/-- One window word (R4). -/
abbrev U32 := BitVec 32
/-- A 64-bit word: a Tide instant (R7, R37), a UTC second count, a credit amount. -/
abbrev U64 := BitVec 64
/-- The 96-bit signed accumulator word of R8 and R115. -/
abbrev Acc := BitVec 96

/-- A counter of `w` bits that stays at its largest value ("saturating" in every register table). -/
def satInc {w : Nat} (c : BitVec w) : BitVec w := if c = BitVec.allOnes w then c else c + 1

/-- Saturating addition of a natural number to a counter. -/
def satAdd {w : Nat} (c : BitVec w) (k : Nat) : BitVec w :=
  if 2 ^ w ≤ c.toNat + k then BitVec.allOnes w else BitVec.ofNat w (c.toNat + k)

/-- A natural number cut to the largest value of a `w`-bit field. -/
def satNat (w n : Nat) : BitVec w := if 2 ^ w ≤ n then BitVec.allOnes w else BitVec.ofNat w n

/-- One bit as a number. -/
def b2n (b : Bool) : Nat := if b then 1 else 0

/-- Apply `f` to element `i` of a vector and leave the others. -/
def vupd {α : Type} {n : Nat} (v : Vector α n) (i : Fin n) (f : α → α) : Vector α n := v.set i.val (f (v[i.val]'i.isLt)) i.isLt

/-- Element `i` of a vector. -/
def vget {α : Type} {n : Nat} (v : Vector α n) (i : Fin n) : α := v[i.val]'i.isLt

/-- Replace element `i` of a vector. -/
def vset {α : Type} {n : Nat} (v : Vector α n) (i : Fin n) (x : α) : Vector α n := v.set i.val x i.isLt

/-- Every element of a vector through `f`. -/
def vmap {α β : Type} {n : Nat} (v : Vector α n) (f : α → β) : Vector β n :=
  ⟨(v.toList.map f).toArray, by simp⟩

/-- The vector whose element `i` is `f i`. -/
def vgen {α : Type} (n : Nat) (f : Fin n → α) : Vector α n := ⟨((List.finRange n).map f).toArray, by simp⟩

/-- Every element through `f`, which also sees its index. -/
def vmapIdx {α β : Type} {n : Nat} (v : Vector α n) (f : Fin n → α → β) : Vector β n :=
  vgen n fun i => f i (vget v i)

end Sys2Proof
end

