-- ==== Sys2Proof/Syntax.lean ====
section
/-! DEFINITION. The commands of the block (spec/opcode_table.json) and the values they carry from outside: codes and
voltages measured, frames and records received, levels of pins. -/

namespace Sys2Proof

/-- What one uplink slot of the module link brings (R165, R170): the 10-bit symbols received in time, from the preamble on, each with its
first bit most significant. -/
structure UplinkSlot where
  symbols : List (BitVec 10)
deriving DecidableEq, Repr

/-- A die-to-die frame as it arrives (R69): direction, header, payload (an L-to-A frame has the first 12 bytes) and CRC; from the A die
whether it carries stream fields (R72), whether it is a frame sent again, and the tick offset of its input (R70); from the L die what
the Tide lane carried with it. -/
structure D2dFrame where
  a2l : Bool
  header : U8
  payload : Vector U8 14
  crc : U8
  stream : Bool
  again : Bool
  offset : Fin 16
  sync : BitVec 4
  tideByte : U8
  tideCrc : BitVec 4
deriving DecidableEq, Repr

/-- The ways to lose Tide (R59). -/
inductive TideLossCause where
  | crystal | pll | tideLane
deriving DecidableEq, Repr

/-- One pilot sample (R194): the low or the high sample of a period, how many of the six comparator thresholds the level
reaches, the SAR value in 10 mV, and with the sample that reads PP the levels of PP_SENSE and VDD_ANA in 0.1 mV (R203). -/
structure PilotReading where
  low : Bool
  comp : Fin 7
  sar : Int
  pp : Nat
  vdd : Nat
deriving DecidableEq, Repr

/-- The eight conversions of the two cable-temperature inputs of a connector, in µV (R205). -/
structure TempReading where
  first : Vector Nat 8
  second : Vector Nat 8
deriving DecidableEq, Repr

/-- What one port receives in a measurement window (R219): whether it erased a symbol, how many of its samples were not blanked, and the
energy of those samples in each of the 58 carrier groups. -/
structure PortSound where
  erased : Bool
  used : Nat
  energy : List Nat
deriving DecidableEq, Repr

/-- A decoded CM_MNBC_SOUND.IND (R219): its run, its measurement window, and what each port receives in it. -/
structure SoundReading where
  mac : BitVec 48
  runId : U64
  from_ : U64
  to_ : U64
  ports : Vector PortSound 16
deriving DecidableEq, Repr

/-- A cipher suite that a vehicle offers (R225): the two of ISO 15118-2, one that ISO 15118-20 mandates with its groups, any other. -/
inductive TlsSuite where
  | ecdheEcdsaAes128CbcSha256
  | ecdhEcdsaAes128CbcSha256
  | iso20
  | other
deriving DecidableEq, Repr

/-- Where the public-key operations of a handshake run (R226): on the signature engine, or in software on Sedge. -/
inductive TlsCurve where
  | p256
  | p384
  | software
deriving DecidableEq, Repr

/-- A request of the vehicle to its V2G stack (R227). -/
inductive V2gRequest where
  /-- SupportedAppProtocol: the protocols offered, each a code of VEH_V2G_STAT and its priority, 1 the highest -/
  | appProtocol (offers : List (Nat × Nat)) (dynamic : Bool)
  /-- an SDP request on UDP port 15118 -/
  | sdp
  /-- a TLS handshake of the given version (1 TLS 1.2, 2 TLS 1.3) with a cipher suite, on a curve, that the vehicle completes or not -/
  | tls (version : BitVec 2) (suite : TlsSuite) (curve : TlsCurve) (completes : Bool)
  | sessionSetup
  | serviceDiscovery
  /-- the identification chosen: external -/
  | payExternal
  /-- contract, with the certificate chain and the contract identifier -/
  | payContract (chain ident : List U8)
  | authorization
  /-- limits and targets: voltage 0.1 V, current 0.1 A (negative to discharge), power 100 W, state of charge -/
  | parameters (maxV maxI maxP targetV targetI : U16) (soc : U8)
  | cableCheck
  /-- the target voltage and current and the voltage the vehicle reports, 0.1 V -/
  | preCharge (targetV targetI presentV : U16)
  | powerStart
  | demand (maxV maxI maxP targetV targetI presentV : U16) (soc : U8)
  | powerStop
  | weldingDetection
  | sessionStop
  /-- a service this device does not support (R225) -/
  | unsupported
deriving DecidableEq, Repr

/-- One sample of a slot (R238): the ball of the node, signed, and the magnitudes of the rails IMD_INJ_P and IMD_INJ_N at that instant, in
mV. -/
structure ImdSample where
  ball : Int
  pos : Nat
  neg : Nat
deriving DecidableEq, Repr

/-- The samples of one slot (R238): 8 before its start and 100 in its injection. -/
structure ImdReading where
  offs : Vector ImdSample 8
  samples : Vector ImdSample 100
deriving DecidableEq, Repr

/-- What one channel reads in a test-pulse period (R265): the inputs that read low in the last 100 µs of their own supply's pulse, those
that read low during the other supply's pulse, and the supplies TP_A and TP_B found overloaded. -/
structure PulseView where
  lowOwn : U16
  lowOther : U16
  overA : Bool
  overB : Bool
deriving DecidableEq, Repr

/-- One test-pulse period (R265, R267): what each channel reads; whether each loop return shows its own pulse, a return shows the other
loop's pulse, and a loop source is in current limit. -/
structure TestPulse where
  dyke : PulseView
  hw : PulseView
  retA : Bool
  retB : Bool
  crossShort : Bool
  overload : Bool
deriving DecidableEq, Repr

/-- A switch channel: high-side or low-side (R288). -/
inductive SwitchChan where
  | hs (c : Fin 40)
  | ls (n : Fin 16)
deriving DecidableEq, Repr

/-- One measurement of a switch channel (R289): current in mA, output or drain voltage in 10 mV, whether the channel is in
current limit, and the duty of the economiser. -/
structure SwitchReading where
  current : U16
  voltage : U16
  limit : Bool
  duty : BitVec 10
deriving DecidableEq, Repr

/-- How the check of a line just written ends (R311): good at once, good after the second write, or failed. -/
inductive LineCheck where
  | first | second | failed
deriving DecidableEq, Repr

/-- What VBAT kept of the backup domain over a change of supply (R305): all of it, all but the limp map, nothing. -/
inductive BackupKept where
  | all | noMap | none
deriving DecidableEq, Repr

/-- A write request to the Peat store. -/
structure PeatWrite where
  /-- the first logical line named -/
  first : Nat
  /-- the bytes of each line -/
  lines : List (List U8)
deriving DecidableEq, Repr

/-- An inbound Causeway slot that carries a record (R441), or a training slot (R449). -/
structure CwySlot where
  training : Bool
  bytes : List U8
deriving DecidableEq, Repr

/-- The card technologies of R478. -/
inductive CardTech where
  | a | b | v
deriving DecidableEq, Repr

/-- A card as a poll resolves it (R481, R482): its UID in the order received, whether it offers ISO/IEC 14443-4, and its
technology data. -/
structure CardInfo where
  tech : CardTech
  uid : List U8
  iso4 : Bool
  data : List U8
deriving DecidableEq, Repr

/-- The amplitude and phase that a ping measures (R479), as the two quadrature components in ADC units. -/
structure NfcSample where
  i : BitVec 16
  q : BitVec 16
deriving DecidableEq, Repr

/-- What comes of a frame sent to a card (R487): its answer, no answer in time, or an answer in error. -/
inductive CardAnswer where
  | answer (bytes : List U8) | timeout | error
deriving DecidableEq, Repr

/-- The cores of RST_CAUSE. -/
inductive CoreId where
  | sedge | carr | dyke | modem (n : Fin 16)
deriving DecidableEq, Repr

/-- What the silicon answers within a boot stage: in stage 1 whether the PUF check value matches and the fraction of cells
corrected in 0.1 % (R384, R385); in stage 3 whether the safety configuration's check value matches in both channels (R273). -/
structure BootInfo where
  pufGood : Bool
  corrected : U8
  cfgGood : Bool
deriving DecidableEq, Repr

/-- A memory that a debug access names (R543): of a core, or LPDDR4X. -/
inductive MemSpace where
  | sedge | carr | dyke | creek | lpddr
deriving DecidableEq, Repr

/-- A debug access (R543): to a window word or words, a byte of a memory, or a line of the Peat store. -/
inductive DebugOp where
  | readWindow (a : U16)
  | writeWindow (a : U16) (words : List U32)
  | readMemory (space : MemSpace) (a : Nat)
  | writeMemory (space : MemSpace) (a : Nat) (v : U8)
  | readStore (line : Fin 65536)
  | writeStore (line : Fin 65536) (bytes : List U8)
deriving DecidableEq, Repr

/-- A frame of the host port as its edges carry it (R410, R411): the nibbles it completed, in the order sent, and in SINGLE mode the
rising edges after the last of them; in the data phase of a READ the nibbles only count. `lag` is the latency of a read of TID_NOW_LO. -/
structure HostFrame where
  nibbles : List (BitVec 4)
  extra : Fin 4
  lag : Fin 49
deriving DecidableEq, Repr


/-- The commands the block takes, one constructor for each row of spec/opcode_table.json. A row of the Sirik command
set carries the mailbox `m` that holds its request; its typed fields are read from that mailbox's request buffer. -/
inductive Instr where
  /-- SAMPLE_INSTANT (R88): At every multiple of 48,000 ticks each metrology channel forms its code and the metrology lanes read all 48 codes. -/
  | sampleInstant (codes : Vector (BitVec 24) 48)
  /-- METROLOGY_PUBLISH (R96): At t + 12,000 the metrology lanes publish corrected samples and energy increments for instant t. -/
  | metrologyPublish
  /-- ZC_SYNC_LOST (R123): A phase without a crossing for 60 ms moves to synthetic refresh timing. -/
  | zcSyncLost (k : Fin 6)
  /-- SEGMENT_BLOCK_END (R95): At the end of a DC or AC block the segment variable x is recomputed. -/
  | segmentBlockEnd (ac : Bool)
  /-- MODULATOR_FAULT (R91): A bitstream held or in overload for 1,024 modulator cycles faults the channel. -/
  | modulatorFault (c : Fin 48)
  /-- MODULATOR_FAULT_CLEAR (R91): A bitstream toggling again for 1,024 cycles clears the fault and starts settling. -/
  | modulatorFaultClear (c : Fin 48)
  /-- CHANNEL_SETTLED (R92): After 8 sample instants of +0 a channel publishes its first valid sample. -/
  | channelSettled (c : Fin 48)
  /-- SALTERN_APPLY (R115): At t + 24,000 Saltern applies the increments of instant t to every accumulator and register. -/
  | salternApply
  /-- BRINE_PUBLISH (R373): At t + 36,000 Brine debits each wallet session ledger by the rise of its cost due. -/
  | brinePublish
  /-- ENGINE_COMPLETE (R65): A fabric engine completes and its slack is measured, with a margin warning if low. -/
  | engineComplete (e : Fin 15) (t : U32)
  /-- ENGINE_OVERRUN (R67): An engine has not completed by its deadline; its result is discarded and the fault acts. -/
  | engineOverrun (e : Fin 15) (who : U16)
  /-- LAUNCHER_TAKE_ENTRY (R49): The launcher takes a ring entry and resolves it MALFORMED, DENIED, ORDER or LATE, or arms it. -/
  | launcherTakeEntry (r : Fin 1024)
  /-- ENTRY_FIRE (R52): At its time an armed entry is decided by collision, dependency and guard and fires or resolves. -/
  | entryFire (first : Bool) (second : Bool)
  /-- ADIE_RESULT (R71): The A die's result for an action arrives and the launcher writes status and passes the buffer on. -/
  | adieResult
  /-- PPS_EDGE (R43): An edge on PPS_IN is stamped and accepted or rejected by the window. -/
  | ppsEdge (falling : Bool)
  /-- PPS_LOST (R43): No edge accepted for 2 s sets pps_state LOST. -/
  | ppsLost
  /-- ALLOCATION_BOUNDARY (R131): At each allocation boundary the Sluice solver latches its inputs and starts its solve. -/
  | allocationBoundary
  /-- SLUICE_PUBLISH (R137): At B + 600,000 the solver publishes the map, setpoints and outcomes and enqueues the ring entries. -/
  | sluicePublish
  /-- MAX_DELAY_EXPIRED (R147): A candidate delayed longer than its maximum delay is refused with REFUSED_POLICY. -/
  | maxDelayExpired (n : Fin 16)
  /-- REASON_HOLD_EXPIRED (R150): A new Served reason that has held for reason_hold frames is reported. -/
  | reasonHoldExpired (n : Fin 16)
  /-- SURPLUS_RELEASE (R141): A node with surplus modules for 1,000 frames releases the excess as forced leaves. -/
  | surplusRelease (n : Fin 16)
  /-- LEAVE_WAIT_TIMEOUT (R140): A leave still waiting after 100 frames is cancelled. -/
  | leaveWaitTimeout (h : Fin 24)
  /-- PRECHARGE_DONE (R143): The node voltage within 10 V on 32 consecutive samples sets precharge_done. -/
  | prechargeDone (n : Fin 16)
  /-- PRECHARGE_TIMEOUT (R143): Precharge not done within 10 s stops the session with DEVICE_FAULT. -/
  | prechargeTimeout (n : Fin 16)
  /-- HANDOVER_VERIFY (R156): The VERIFY snapshot is checked and guard 0x0100 + m is set when the module is at zero current. -/
  | handoverVerify
  /-- HANDOVER_EVALUATE (R155): At each link-cycle instant the tracker evaluates stage conditions and moves hand-overs on. -/
  | handoverEvaluate
  /-- HANDOVER_TIMEOUT (R160): An OPEN, MATCH or CLOSE stage not confirmed within its timeout aborts the hand-over. -/
  | handoverTimeout (h : Fin 24)
  /-- MLK_CYCLE (R166): At each 60,000-tick cycle start the sequencer sends the downlink frame of every lane. -/
  | mlkCycle (readback : BitVec 8)
  /-- UPLINK_SLOT_END (R174): At the end of an uplink slot the telemetry is checked and the veto decided and driven. -/
  | uplinkSlotEnd (l : Fin 8) (p : Fin 12) (slot : UplinkSlot)
  /-- OC_TRIP (R176): A node overcurrent comparator trips, latches and stops the node's session. -/
  | ocTrip (n : Fin 16)
  /-- OC_RELEASE (R176): A node overcurrent comparator releases below 15/16 of its level. -/
  | ocRelease (n : Fin 16)
  /-- MODULE_STALE (R184): A module with no passing record for 3 cycles becomes stale. -/
  | moduleStale (m : Fin 96)
  /-- LANE_FAULT (R185): A lane with no passing slot for 25 cycles or 3 failed readbacks enters fault. -/
  | laneFault (l : Fin 8)
  /-- D2D_FRAME_RECEIVE (R70): A die-to-die frame is received and checked, with retransmission on CRC failure. -/
  | d2dFrameReceive (f : D2dFrame)
  /-- ADIE_PERMIT_TIMEOUT (R74): No valid Dyke permit word for 64 frames opens every low-side channel and the loop. -/
  | adiePermitTimeout
  /-- ADIE_RC_WATCHDOG (R74): The A-die RC watchdog opens the outputs 50 µs after the forwarded clock stops. -/
  | adieRcWatchdog
  /-- TIDE_LOSS (R59): Crystal, PLL or Tide-lane loss stops every launch and causes a hub safe stop. -/
  | tideLoss (cause : TideLossCause)
  /-- DYKE_TIDE_CHECK (R59): Dyke samples the counter every 100 µs and detects a stalled Tide. -/
  | dykeTideCheck (advance : U32)
  /-- BARRIER_OPEN (R58): A barrier is opened for the seven participants. -/
  | barrierOpen
  /-- BARRIER_ARRIVE (R58): A participant arrives at the open barrier. -/
  | barrierArrive (p : Fin 7)
  /-- BARRIER_RELEASE (R58): At b + 3,000 the participants are released, or the barrier fails. -/
  | barrierRelease (modems : U16)
  /-- PILOT_SAMPLE (R194): The A die samples CP, PP and the pilot comparators in a PWM period and classifies the raw state. -/
  | pilotSample (n : Fin 16) (x : PilotReading)
  /-- CP_STATE_CONFIRMED (R198): A raw state seen in debounce periods becomes the confirmed state and moves the phase. -/
  | cpStateConfirmed (n : Fin 16)
  /-- DIODE_FAILURE_CONFIRMED (R198): A diode failure is confirmed or cleared after debounce periods. -/
  | diodeFailureConfirmed (n : Fin 16)
  /-- CP_SENSE_FAULT (R197): Three consecutive SAR mismatches set cp_sense_fault. -/
  | cpSenseFault (n : Fin 16)
  /-- CP_SENSE_FAULT_CLEAR (R197): 100 periods without a mismatch clear cp_sense_fault. -/
  | cpSenseFaultClear (n : Fin 16)
  /-- PP_CLASS_CONFIRMED (R204): A PP class or open seen for debounce periods changes the PP result. -/
  | ppClassConfirmed (n : Fin 16)
  /-- CP_RESTART_END (R202): After the restart duration the previous duty is restored. -/
  | cpRestartEnd (n : Fin 16)
  /-- CABLE_TEMP_MEASURE (R206): Every 100 ms the cable temperatures are measured and the thermal cap updated. -/
  | cableTempMeasure (n : Fin 16) (x : TempReading) (ref : Nat)
  /-- LOCK_STALL_CONFIRMED (R207): A stall lasting 20 ms verifies or fails a lock move. -/
  | lockStallConfirmed (n : Fin 16)
  /-- LOCK_OFF_DELAY (R207): The lock channel is switched off 50 ms after the stall is confirmed. -/
  | lockOffDelay (n : Fin 16)
  /-- LOCK_TIMEOUT (R207): No stall by s + t_max fails the lock move. -/
  | lockTimeout (n : Fin 16)
  /-- LOCK_OPEN_LOAD (R207): Load current below 5 mA for 100 ms fails the lock move. -/
  | lockOpenLoad (n : Fin 16)
  /-- LOCK_RETRY (R207): A failed lock move is retried 1 s later. -/
  | lockRetry (n : Fin 16)
  /-- CM_SLAC_PARM_REQ (R217): A decoded CM_SLAC_PARM.REQ attaches a run to the modem. -/
  | cmSlacParmReq (n : Fin 16) (mac : BitVec 48) (runId : U64)
  /-- CM_START_ATTEN_CHAR_IND (R218): A decoded CM_START_ATTEN_CHAR.IND enqueues ARM_CAPTURE. -/
  | cmStartAttenCharInd (n : Fin 16) (mac : BitVec 48) (runId : U64) (sounds : U8)
  /-- CM_MNBC_SOUND_IND (R219): A decoded sound defines a measurement window measured on every armed modem. -/
  | cmMnbcSoundInd (n : Fin 16) (x : SoundReading)
  /-- SOUNDING_END (R221): A run's sounding ends and the run is decided. -/
  | soundingEnd (n : Fin 16) (mac : BitVec 48) (runId : U64)
  /-- CM_SLAC_MATCH_REQ (R222): A match request is answered by the winning modem only. -/
  | cmSlacMatchReq (n : Fin 16) (mac : BitVec 48) (runId : U64)
  /-- VEHICLE_JOINED (R222): The vehicle joins the modem's network and the phase moves to NEGOTIATING. -/
  | vehicleJoined (n : Fin 16)
  /-- SLAC_TIMER_EXPIRED (R222): t_init, t_sounds, t_match or t_join runs out and the attempt fails. -/
  | slacTimerExpired (n : Fin 16)
  /-- SLAC_RESTART_END (R222): After t_restart at duty 0 the duty returns to 50 for a new attempt. -/
  | slacRestartEnd (n : Fin 16)
  /-- VALIDATION_WINDOW_END (R223): The CM_VALIDATE window ends and the AMBIGUOUS run is accepted or failed. -/
  | validationWindowEnd (n : Fin 16) (announced : Option Nat)
  /-- ERASE_RATE_WINDOW (R216): Over one second more than 1 % erased symbols raises an interrupt. -/
  | eraseRateWindow (n : Fin 16) (gain : Fin 16) (gaps windows : List (List (BitVec 12))) (tail : List (BitVec 12))
  /-- MODEM_FAULT (R233): A modem faults, stops its connector's session and restarts. -/
  | modemFault (n : Fin 16)
  /-- V2G_REQUEST (R227): A V2G request from the vehicle is answered and drives the session phase. -/
  | v2gRequest (n : Fin 16) (q : V2gRequest)
  /-- V2G_SEQ_TIMEOUT (R228): No request within the sequence timeout ends the session with COMM_TIMEOUT. -/
  | v2gSeqTimeout (n : Fin 16)
  /-- V2G_LINK_LOSS (R228): The vehicle leaves the network or TCP closes early and the session ends. -/
  | v2gLinkLoss (n : Fin 16) (network : Bool)
  /-- IMD_RESULT (R241): At the end of a slot Dyke computes R_F and decides the alarms. -/
  | imdResult (n : Fin 16) (x : ImdReading)
  /-- BASELINE_LATE (R249): A baseline not done after 20 cycles raises an interrupt. -/
  | baselineLate (n : Fin 16)
  /-- IMD_STALE (R250): An active node without a valid measurement for 6 cycles is stale. -/
  | imdStale (n : Fin 16)
  /-- IMD_RAIL_FAULT (R250): A rail out of range for 2 cycles raises an interrupt. -/
  | imdRailFault (pos : U16) (neg : U16)
  /-- CABLE_CHECK_TIMEOUT (R247): U_test not reached in 5 s or no pass in 20 s fails the cable check. -/
  | cableCheckTimeout (n : Fin 16)
  /-- RCM_BLOCK_END (R252): At each 20 ms block Dyke forms I_rms and I_dc of a feeder and decides a trip. -/
  | rcmBlockEnd (f : Fin 2)
  /-- RCM_WARNING (R252): I_rms at or above warn_rms for 50 blocks sets the warning. -/
  | rcmWarning (f : Fin 2)
  /-- RCM_LOST (R254): Loss of the residual measurement for 10 blocks acts as a trip. -/
  | rcmLost (f : Fin 2)
  /-- RCM_TEST_END (R255): A residual-current test ends at its trip decision or duration. -/
  | rcmTestEnd
  /-- TEST_PULSE_PERIOD (R264): Every 10 ms the test pulses run and the channels compare their decisions. -/
  | testPulsePeriod (x : TestPulse)
  /-- PAIR_FAULT_CLEAR (R265): Ten periods without a failed check clear the pair fault. -/
  | pairFaultClear (k : Fin 8)
  /-- SAFETY_INPUT_OPEN (R265): A safety input low for 500 µs acts as the pair's function. -/
  | safetyInputOpen (k : Fin 16) (dyke : Bool) (hw : Bool)
  /-- ILK_FAULT (R267): The interlock loop fails its pulse or is open and a hub safe stop follows. -/
  | ilkFault (a : Bool) (b : Bool) (cross : Bool) (overload : Bool) (dyke : Bool) (hw : Bool)
  /-- DYKE_ALIVE_TIMEOUT (R261): No advance of Dyke's alive count for 100 µs clears the hardware permits. -/
  | dykeAliveTimeout
  /-- DISAGREE_TIMEOUT (R262): A trip not matched by the other channel within 20 ms is a disagreement. -/
  | disagreeTimeout
  /-- OV_TRIP (R275): A node input above V_ov for 100 µs trips IMMEDIATE. -/
  | ovTrip (n : Fin 16) (dyke : Bool) (hw : Bool)
  /-- PILOT_BACKUP (R276): 88 bad pilot periods make the hardware channel clear its permit bit. -/
  | pilotBackup (n : Fin 16)
  /-- RAMPED_STOP_TIMEOUT (R274): A RAMPED stop clears the permit at zero verification or 20 ms. -/
  | rampedStopTimeout (n : Fin 16)
  /-- CONTACTOR_CLOSE_TIMEOUT (R270): Coil current below pull-in 50 ms after turn-on counts the pair as not closed. -/
  | contactorCloseTimeout (n : Fin 16)
  /-- CONTACTOR_OPEN_CHECK (R270): An open not verified after 10 ms or 50 ms escalates. -/
  | contactorOpenCheck (n : Fin 16)
  /-- WELD_TEST_START (R272): t_drop after an opening a module is put in voltage mode for the welding test. -/
  | weldTestStart (n : Fin 16)
  /-- WELD_TEST_COMPARE (R272): 20 ms later the voltages are compared and the weld result decided. -/
  | weldTestCompare (n : Fin 16)
  /-- SAFE_RESET_PULSE (R279): A low pulse on SAFE_RESET_N is measured and arms reset when valid. -/
  | safeResetPulse (dyke : Nat) (hw : Nat)
  /-- RESET_ARM_EXPIRED (R279): An armed reset not acknowledged within 10 s disarms. -/
  | resetArmExpired
  /-- RECOVERY_WINDOW_EXPIRED (R281): A containment not safe within its recovery time escalates. -/
  | recoveryWindowExpired
  /-- SWITCH_MEASURE (R289): Every 100 µs each channel measures its load and updates wire heat and diagnostics. -/
  | switchMeasure (c : SwitchChan) (x : SwitchReading)
  /-- SWITCH_OVERTEMP (R296): A channel reaching 170 °C turns off. -/
  | switchOvertemp (c : SwitchChan)
  /-- SWITCH_THERMAL_RESTART (R296): A channel cooled to 140 °C turns on again. -/
  | switchThermalRestart (c : Fin 40)
  /-- VIN_SYS_RANGE (R290): VIN_SYS leaves or re-enters its range and the channels turn off or resume. -/
  | vinSysRange (v : U16)
  /-- COIL_PULL_END (R301): After t_pull the economiser enters the hold phase. -/
  | coilPullEnd (n : Fin 16)
  /-- COIL_RCOIL_LEARN (R301): 200 ms into hold r_coil is replaced by the measured value. -/
  | coilRcoilLearn (n : Fin 16) (x : SwitchReading)
  /-- PACKAGE_CURRENT_CHECK (R304): Every 1 ms the mean high-side current is checked and channels are shed. -/
  | packageCurrentCheck
  /-- LIMP_INPUT (R305): A debounced LIMP_IN change drives its mapped channels. -/
  | limpInput (j : Fin 8) (on : Bool)
  /-- BACKUP_CHANGEOVER (R565): The backup domain changes between VIN_SYS and VBAT. -/
  | backupChangeover (vbat : Bool) (kept : BackupKept)
  /-- PEAT_WRITE_REQUEST (R314): A requester asks to write lines and the request is checked whole. -/
  | peatWriteRequest (r : Fin 6) (q : PeatWrite)
  /-- ARBITER_DECISION (R333): At the last beat of a line the arbiter grants the next line. -/
  | arbiterDecision
  /-- LINE_WRITE_DONE (R311): A line's four beats and read-back check complete. -/
  | lineWriteDone (x : LineCheck)
  /-- BACKOFF_END (R334): A losing requester's back-off ends and its request is visible again. -/
  | backoffEnd (r : Fin 6)
  /-- REQUEST_WITHDRAW (R337): A requester withdraws its request before its first beat. -/
  | requestWithdraw (r : Fin 6)
  /-- REQUESTER_MASK (R338): A requester in reset is masked and its request dropped. -/
  | requesterMask (r : Fin 6) (on : Bool)
  /-- HOLD_WATCHDOG (R340): A grant not finished within 50 µs is revoked. -/
  | holdWatchdog
  /-- GAP_MOVE (R317): Every 16 writes or 1 s the wear leveller moves the gap. -/
  | gapMove
  /-- COUNTER_INCREMENT (R341): A monotonic counter is incremented by writing its next line. -/
  | counterIncrement (k : Fin 64) (r : Fin 6)
  /-- DELTA_EPOCH (R323): At the first sample instant of each second Carr writes a delta or checkpoint epoch. -/
  | deltaEpoch
  /-- POWER_FAIL_WARNING (R327): PFW_N or the VIN_SYS monitor latches a warning and the power-fail commit starts. -/
  | powerFailWarning (vin : Bool)
  /-- PF_COMMIT_DONE (R328): The power-fail commit seal is checked. -/
  | pfCommitDone
  /-- PF_COMMIT_LATE (R328): The commit not checked by W + 3,000,000 sets late. -/
  | pfCommitLate
  /-- QUIESCENT_COMMIT (R329): When every node is open and verified Carr writes a quiescent commit. -/
  | quiescentCommit
  /-- PF_HOLD_END (R329): 20 ms after the warning no further journal write is made. -/
  | pfHoldEnd
  /-- POWER_FAIL_CLEAR (R330): A warning clears after 100 ms, stopped sessions are closed and admission resumes. -/
  | powerFailClear
  /-- SIGN_ENGINE_COMPLETE (R405): A signature engine unit completes a request. -/
  | signEngineComplete (u : Fin 4) (ok : Bool)
  /-- SIGN_RETRY (R362): A failed signature is retried after 1 ms, then held unsigned. -/
  | signRetry
  /-- HELD_READINGS_FLUSH (R365): Held readings are enqueued once a queue can take them. -/
  | heldReadingsFlush
  /-- FULL_REQUEUE (R459): Saltern and Bittern enqueue a refused buffer again every 100 ms. -/
  | fullRequeue
  /-- TAMPER_SAMPLE (R366): Every 125 ms the backup domain samples the tamper inputs and stores events. -/
  | tamperSample (open_ : BitVec 4)
  /-- TAMPER_EVENT_MOVE (R367): Carr moves stored tamper events to the legal log. -/
  | tamperEventMove
  /-- AUTH_HOLD_EXPIRED (R368): A held authorisation not used within its hold time is discarded. -/
  | authHoldExpired (n : Fin 16)
  /-- REMASK (R392): Every 100 ms the key store re-masks every working register. -/
  | remask
  /-- RNG_RESEED (R394): The random generator is reseeded every 10 s or 2^20 requests. -/
  | rngReseed
  /-- RNG_HEALTH_FAIL (R394): A failed noise health test clears rng_ok. -/
  | rngHealthFail
  /-- PUF_RETRY (R385): A failed PUF check powers the block off 10 ms and tries again. -/
  | pufRetry (good : Bool) (corrected : U8)
  /-- CHALLENGE_EXPIRED (R402): An authorisation challenge expires after 60 s. -/
  | challengeExpired
  /-- TID_NOW_READ (R40): A read of TID_NOW_LO samples Tide and captures the high word. -/
  | tidNowRead (lag : Fin 49)
  /-- LO_CAPTURE_READ (R118): A read of a capturing _LO word copies the high word into _HI. -/
  | loCaptureRead (addr : U16)
  /-- HIC_CLAIM (R434): A single-word read of HIC_CLAIM claims the winning source of a pin. -/
  | hicClaim (p : Fin 4)
  /-- HIC_COMPLETE (R435): A write to HIC_COMPLETE completes a source or is refused as a fault. -/
  | hicComplete (p : Fin 4) (src : U32)
  /-- MBX_RING (R425): A ring on MBX_DOORBELL moves a mailbox to QUEUED, or replays a duplicate. -/
  | mbxRing (m : Fin 4)
  /-- MBX_CANCEL (R425): A cancel on MBX_DOORBELL ends a QUEUED request with CANCELLED. -/
  | mbxCancel (m : Fin 4)
  /-- MBX_ACKNOWLEDGE (R425): An acknowledge on MBX_DOORBELL returns a DONE mailbox to IDLE. -/
  | mbxAcknowledge (m : Fin 4)
  /-- RPL_STOP (R540): A write of 1 to RPL_CTRL stop ends replay or recording. -/
  | rplStop
  /-- REGISTER_WRITE (R415): A WRITE or WRITE_CRC frame is checked and committed whole at HP_CS_N rise. -/
  | registerWrite (addr : U16) (words : List U32) (crc : Option U8)
  /-- BAD_FRAME (R421): A host-port frame of the wrong length or opcode is discarded and counted. -/
  | badFrame (frame : HostFrame)
  /-- MBX_REQUEST_START (R426): Sedge starts a QUEUED request, checking length and reserved bits. -/
  | mbxRequestStart (m : Fin 4)
  /-- MBX_RESPONSE_DONE (R425): A request's response completes and the mailbox enters DONE. -/
  | mbxResponseDone (m : Fin 4)
  /-- SYS_GET_VERSION (R430): Returns the part, silicon step and command set version. -/
  | sysGetVersion (m : Fin 4)
  /-- SYS_ECHO (R430): Returns the request bytes. -/
  | sysEcho (m : Fin 4)
  /-- SYS_HP_STATUS (R430): Returns the host-port error and frame counts. -/
  | sysHpStatus (m : Fin 4)
  /-- SYS_HP_CLEAR (R430): Clears the host-port counts. -/
  | sysHpClear (m : Fin 4)
  /-- SYS_FABRIC_SLACK (R81): Returns an engine's deadline, slack and counts. -/
  | sysFabricSlack (m : Fin 4)
  /-- SYS_FABRIC_CLEAR (R81): Clears slack counts of one or all engines. -/
  | sysFabricClear (m : Fin 4)
  /-- SYS_D2D_STATUS (R81): Returns and clears the die-to-die link counts. -/
  | sysD2dStatus (m : Fin 4)
  /-- SYS_RESET (R516): Requests a reset of CORE, HUB or DEVICE scope. -/
  | sysReset (m : Fin 4)
  /-- SYS_GET_RESET (R516): Returns the RST block words. -/
  | sysGetReset (m : Fin 4)
  /-- TIDE_GET_TIME (R62): Returns Tide and the mapped time of day. -/
  | tideGetTime (m : Fin 4)
  /-- TIDE_SET_TRIM (R62): Sets the trim target with clamping. -/
  | tideSetTrim (m : Fin 4)
  /-- TIDE_PPS_CONFIG (R62): Configures PPS capture and discipline. -/
  | tidePpsConfig (m : Fin 4)
  /-- TIDE_SET_TOD (R45): Sets the time-of-day mapping anchor. -/
  | tideSetTod (m : Fin 4)
  /-- TIDE_SNAPSHOT (R62): Takes a snapshot into bank 1–3 and optionally exports it. -/
  | tideSnapshot (m : Fin 4)
  /-- TIDE_SUBMIT (R62): Enqueues a host ring entry. -/
  | tideSubmit (m : Fin 4)
  /-- TIDE_CANCEL (R53): Cancels matching entries of a host ring from instant c. -/
  | tideCancel (m : Fin 4)
  /-- TIDE_RING_STATUS (R62): Returns a ring's armed and waiting counts. -/
  | tideRingStatus (m : Fin 4)
  /-- TIDE_CLEAR_COUNTS (R62): Clears the Tide counters. -/
  | tideClearCounts (m : Fin 4)
  /-- MET_SEAL_OPEN (R104): Opens the calibration seal with an authorisation. -/
  | metSealOpen (m : Fin 4)
  /-- MET_SEAL_CLOSE (R104): Closes the calibration seal and discards staged tables. -/
  | metSealClose (m : Fin 4)
  /-- SEAL_TIMEOUT (R104): The seal closes by itself 3,600 s after opening. -/
  | sealTimeout
  /-- MET_GET_CONFIG (R108): Returns a channel's configuration and check values. -/
  | metGetConfig (m : Fin 4)
  /-- MET_SET_CONFIG (R108): Sets a channel's sensor, gain, scale and i_nom. -/
  | metSetConfig (m : Fin 4)
  /-- MET_LOAD_TABLE (R94): Validates and stages a correction table. -/
  | metLoadTable (m : Fin 4)
  /-- MET_ACTIVATE_TABLE (R108): Activates staged tables at one instant. -/
  | metActivateTable (m : Fin 4)
  /-- MET_READ_TABLE (R108): Returns an active or staged table. -/
  | metReadTable (m : Fin 4)
  /-- MET_SET_RAW (R97): Switches raw mode on or off for channels. -/
  | metSetRaw (m : Fin 4)
  /-- MET_CAL_MEASURE (R108): Sums a channel's samples over a count for calibration. -/
  | metCalMeasure (m : Fin 4)
  /-- MET_FP_EVAL (R102): Runs one binary32 operation on a channel's arithmetic unit. -/
  | metFpEval (m : Fin 4)
  /-- MET_CLEAR_COUNTS (R108): Clears clip counts of channels. -/
  | metClearCounts (m : Fin 4)
  /-- MET_SET_NOLOAD (R114): Sets a pair's start current and no-load power. -/
  | metSetNoload (m : Fin 4)
  /-- MET_SET_UREF (R130): Sets a pair's reference voltage. -/
  | metSetUref (m : Fin 4)
  /-- MET_PQ_CONFIG (R124): Sets a feeder's supply quality thresholds and queue. -/
  | metPqConfig (m : Fin 4)
  /-- MET_ENERGY_READ (R130): Returns a full 96-bit accumulator. -/
  | metEnergyRead (m : Fin 4)
  /-- MET_ENERGY_CLEAR_FLAGS (R130): Clears range flags and logs it. -/
  | metEnergyClearFlags (m : Fin 4)
  /-- MET_PQ_CLEAR_COUNTS (R130): Clears the supply quality event count. -/
  | metPqClearCounts (m : Fin 4)
  /-- SLU_SET_SITE (R163): Sets the site import and export limits and eta. -/
  | sluSetSite (m : Fin 4)
  /-- SLU_SET_CONNECTOR (R163): Sets a connector's weight, floor, cap, delay and refuse flag. -/
  | sluSetConnector (m : Fin 4)
  /-- SLU_SET_TUNING (R163): Sets move cost, margin, tolerances and control bits. -/
  | sluSetTuning (m : Fin 4)
  /-- SLU_GET_NODE (R163): Returns a node's status, power and modules. -/
  | sluGetNode (m : Fin 4)
  /-- SLU_GET_MAP (R163): Returns the module map and setpoints. -/
  | sluGetMap (m : Fin 4)
  /-- SLU_MODULE_SERVICE (R163): Takes a module out of service or returns it. -/
  | sluModuleService (m : Fin 4)
  /-- SLU_GET_HANDOVERS (R163): Returns the hand-over slots. -/
  | sluGetHandovers (m : Fin 4)
  /-- SLU_CLEAR_COUNTS (R163): Clears the Sluice counters. -/
  | sluClearCounts (m : Fin 4)
  /-- MLK_GET_LANE (R189): Returns a lane's status and counts. -/
  | mlkGetLane (m : Fin 4)
  /-- MLK_GET_TELEMETRY (R189): Returns a module's latest telemetry. -/
  | mlkGetTelemetry (m : Fin 4)
  /-- MLK_ENUMERATE (R186): Sends ENUMERATE and enrols answering positions. -/
  | mlkEnumerate (m : Fin 4)
  /-- MLK_GET_IDENTITY (R189): Returns a module's identity page. -/
  | mlkGetIdentity (m : Fin 4)
  /-- MLK_SET_ENROLLED (R186): Sets a lane's enrolled mask. -/
  | mlkSetEnrolled (m : Fin 4)
  /-- MLK_SET_OC (R189): Sets a node's overcurrent threshold. -/
  | mlkSetOc (m : Fin 4)
  /-- MLK_SET_VETO_MASK (R189): Sets the fault bits that veto. -/
  | mlkSetVetoMask (m : Fin 4)
  /-- MLK_IDENTIFY (R169): Broadcasts IDENTIFY for a module. -/
  | mlkIdentify (m : Fin 4)
  /-- MLK_RESET_LANE (R189): Resets a lane and clears its fault. -/
  | mlkResetLane (m : Fin 4)
  /-- MLK_CLEAR_COUNTS (R189): Clears lane counters. -/
  | mlkClearCounts (m : Fin 4)
  /-- VEH_GET_CONNECTOR (R212): Returns a connector's pilot, PP, temperature and lock state. -/
  | vehGetConnector (m : Fin 4)
  /-- VEH_SET_AVAILABILITY (R212): Makes a connector available or not and sets vent_ok. -/
  | vehSetAvailability (m : Fin 4)
  /-- VEH_SET_PILOT_CFG (R212): Sets the pilot debounce. -/
  | vehSetPilotCfg (m : Fin 4)
  /-- VEH_SET_PP_CLASS (R204): Sets the PP class table. -/
  | vehSetPpClass (m : Fin 4)
  /-- VEH_SET_DERATE (R206): Sets the thermal derating temperatures. -/
  | vehSetDerate (m : Fin 4)
  /-- VEH_SET_LOCK_CFG (R212): Sets a connector's lock channels and the lock timing. -/
  | vehSetLockCfg (m : Fin 4)
  /-- VEH_LOCK (R207): Locks or unlocks a connector's cable. -/
  | vehLock (m : Fin 4)
  /-- VEH_CP_RESTART (R202): Holds duty 0 for a time and restores the duty. -/
  | vehCpRestart (m : Fin 4)
  /-- VEH_CLEAR_COUNTS (R212): Clears pilot counts. -/
  | vehClearCounts (m : Fin 4)
  /-- V2G_SET_CONFIG (R235): Sets the V2G protocols and record queue. -/
  | v2gSetConfig (m : Fin 4)
  /-- V2G_SET_SECC (R235): Loads the server certificate chain and key slot. -/
  | v2gSetSecc (m : Fin 4)
  /-- V2G_GET_SESSION (R235): Returns a connector's V2G session state. -/
  | v2gGetSession (m : Fin 4)
  /-- V2G_CLEAR_COUNTS (R235): Clears V2G counts. -/
  | v2gClearCounts (m : Fin 4)
  /-- PLC_SET_MAC (R215): Sets the modem base address. -/
  | plcSetMac (m : Fin 4)
  /-- PLC_ENABLE (R234): Enables or disables modems. -/
  | plcEnable (m : Fin 4)
  /-- PLC_SET_SLAC (R234): Sets SLAC parameters and timers. -/
  | plcSetSlac (m : Fin 4)
  /-- PLC_SET_BLANK (R216): Sets blanking and transmit level. -/
  | plcSetBlank (m : Fin 4)
  /-- PLC_GET_STATUS (R234): Returns a modem's status and counts. -/
  | plcGetStatus (m : Fin 4)
  /-- PLC_GET_RUN (R234): Returns a modem's last SLAC run. -/
  | plcGetRun (m : Fin 4)
  /-- PLC_GET_PROFILE (R234): Returns a port's attenuation profile. -/
  | plcGetProfile (m : Fin 4)
  /-- PLC_CLEAR_COUNTS (R234): Clears modem counts. -/
  | plcClearCounts (m : Fin 4)
  /-- IMD_SET_CONFIG (R258): Sets the insulation period, network and thresholds. -/
  | imdSetConfig (m : Fin 4)
  /-- IMD_SET_FORCE (R258): Forces nodes active. -/
  | imdSetForce (m : Fin 4)
  /-- IMD_GET_NODE (R258): Returns a node's insulation measurement. -/
  | imdGetNode (m : Fin 4)
  /-- IMD_REBASELINE (R248): Restarts baselines on nodes. -/
  | imdRebaseline (m : Fin 4)
  /-- RCM_SET_CONFIG (R258): Sets a feeder's residual-current thresholds. -/
  | rcmSetConfig (m : Fin 4)
  /-- RCM_GET (R258): Returns a feeder's residual current and clears the largest value. -/
  | rcmGet (m : Fin 4)
  /-- RCM_TEST (R255): Starts a residual-current sensor test. -/
  | rcmTest (m : Fin 4)
  /-- IMD_CLEAR_COUNTS (R258): Clears insulation counts. -/
  | imdClearCounts (m : Fin 4)
  /-- SAF_GET_STATUS (R287): Returns the safety status words. -/
  | safGetStatus (m : Fin 4)
  /-- SAF_SET_CONFIG (R287): Loads the safety pair functions and timing in both channels. -/
  | safSetConfig (m : Fin 4)
  /-- SAF_RESET_ACK (R280): Clears lock-outs whose conditions hold. -/
  | safResetAck (m : Fin 4)
  /-- SAF_WELD_TEST (R272): Runs a welding test with a joined module. -/
  | safWeldTest (m : Fin 4)
  /-- SAF_GET_NODE (R287): Returns a node's safety state. -/
  | safGetNode (m : Fin 4)
  /-- SAF_GET_FAULTS (R287): Returns the last eight fault records. -/
  | safGetFaults (m : Fin 4)
  /-- SAF_CLEAR_COUNTS (R287): Clears safety counts. -/
  | safClearCounts (m : Fin 4)
  /-- LSW_SET_CHANNEL (R309): Sets a high-side channel's configuration. -/
  | lswSetChannel (m : Fin 4)
  /-- LSW_SWITCH (R309): Switches a high-side channel by a ring entry. -/
  | lswSwitch (m : Fin 4)
  /-- LSW_GET_CHANNEL (R309): Returns a channel's configuration, status and measurement. -/
  | lswGetChannel (m : Fin 4)
  /-- LSW_CLEAR_FAULT (R299): Clears a channel's latched short or tied faults. -/
  | lswClearFault (m : Fin 4)
  /-- LSW_SET_COIL (R300): Sets a node's economiser and supply channel. -/
  | lswSetCoil (m : Fin 4)
  /-- LSW_GET_COIL (R309): Returns a node's coil state. -/
  | lswGetCoil (m : Fin 4)
  /-- LSW_SET_LIMP (R305): Sets the limp-home map. -/
  | lswSetLimp (m : Fin 4)
  /-- LSW_LIMP_RELEASE (R306): Releases mapped channels from limp-home control. -/
  | lswLimpRelease (m : Fin 4)
  /-- LSW_CLEAR_COUNTS (R309): Clears switch counters. -/
  | lswClearCounts (m : Fin 4)
  /-- PEA_GET_STATUS (R346): Returns the Peat store status words. -/
  | peaGetStatus (m : Fin 4)
  /-- PEA_READ (R346): Reads logical lines. -/
  | peaRead (m : Fin 4) (errs : List U8)
  /-- PEA_FREEZE (R339): Sets or releases the write-port freeze. -/
  | peaFreeze (m : Fin 4)
  /-- PEA_SET_CONFIG (R346): Sets wait_limit and vin_mon. -/
  | peaSetConfig (m : Fin 4)
  /-- PEA_CTR_READ (R346): Returns a counter's value and state. -/
  | peaCtrRead (m : Fin 4)
  /-- PEA_CTR_INCREMENT (R346): Increments a host counter. -/
  | peaCtrIncrement (m : Fin 4)
  /-- PEA_ACK_ERROR (R316): Acknowledges an uncorrectable error with an authorisation. -/
  | peaAckError (m : Fin 4)
  /-- PEA_GET_RECOVERY (R346): Returns the last recovery outcome. -/
  | peaGetRecovery (m : Fin 4)
  /-- PEA_CLEAR_COUNTS (R346): Clears Peat store counters. -/
  | peaClearCounts (m : Fin 4)
  /-- SLT_LOAD_CALENDAR (R352): Loads a signed calendar as the passive calendar. -/
  | sltLoadCalendar (m : Fin 4)
  /-- SLT_GET_CALENDAR (R382): Returns and exports a calendar. -/
  | sltGetCalendar (m : Fin 4)
  /-- SLT_SET_LEGAL (R356): Loads a signed legal parameter message. -/
  | sltSetLegal (m : Fin 4)
  /-- SLT_AUTHORISE (R368): Gives or holds an authorisation decision for a connector. -/
  | sltAuthorise (m : Fin 4)
  /-- SLT_READ_REGISTERS (R382): Returns a scope's legal registers. -/
  | sltReadRegisters (m : Fin 4)
  /-- SLT_SIGN_READING (R382): Signs a REGISTER reading of a scope. -/
  | sltSignReading (m : Fin 4)
  /-- SLT_GET_TAMPER (R382): Returns the tamper state and record. -/
  | sltGetTamper (m : Fin 4)
  /-- SLT_CLEAR_FLAGS (R382): Clears unproven, tamper or wallet flags with an authorisation. -/
  | sltClearFlags (m : Fin 4)
  /-- SLT_SET_OUTPUT (R382): Sets the hold time and reading queue. -/
  | sltSetOutput (m : Fin 4)
  /-- SLT_SET_TAMPER (R382): Sets the enable mask of the auxiliary tamper inputs. -/
  | sltSetTamper (m : Fin 4)
  /-- BRI_TOPUP (R371): Accepts a signed top-up. -/
  | briTopup (m : Fin 4)
  /-- BRI_REFUND (R371): Accepts a signed refund. -/
  | briRefund (m : Fin 4)
  /-- BRI_GET_WALLET (R383): Returns a wallet's home record and group counter. -/
  | briGetWallet (m : Fin 4)
  /-- BRI_SET_CONFIG (R383): Sets the top-up key slot, t_stop and minimum reservation. -/
  | briSetConfig (m : Fin 4)
  /-- BRI_GET_LEDGER (R383): Returns a connector's session ledger. -/
  | briGetLedger (m : Fin 4)
  /-- BRI_AUDIT (R376): Returns the credit conservation sums. -/
  | briAudit (m : Fin 4)
  /-- BRI_BLOCK (R369): Blocks or unblocks a wallet. -/
  | briBlock (m : Fin 4)
  /-- KEY_GET_STATUS (R408): Returns the key store status words. -/
  | keyGetStatus (m : Fin 4)
  /-- KEY_UPDATE (R401): Applies a key-update message to a slot. -/
  | keyUpdate (m : Fin 4)
  /-- KEY_LOAD (R398): Loads a private key blob. -/
  | keyLoad (m : Fin 4)
  /-- KEY_UNLOAD (R408): Unloads a slot's blob. -/
  | keyUnload (m : Fin 4)
  /-- KEY_GET_PUBLIC (R408): Returns a public key. -/
  | keyGetPublic (m : Fin 4)
  /-- KEY_ATTEST (R403): Returns a signed identity statement. -/
  | keyAttest (m : Fin 4)
  /-- KEY_GET_CERT (R404): Returns the DeviceID certificate. -/
  | keyGetCert (m : Fin 4)
  /-- KEY_GET_CHALLENGE (R402): Issues an authorisation challenge. -/
  | keyGetChallenge (m : Fin 4)
  /-- KEY_RANDOM (R408): Returns random bytes. -/
  | keyRandom (m : Fin 4)
  /-- KEY_CLEAR_COUNTS (R408): Clears key store counters. -/
  | keyClearCounts (m : Fin 4)
  /-- CWY_RECORD_RECEIVE (R443): An inbound Causeway slot is checked and its record accepted or discarded. -/
  | cwyRecordReceive (slot : CwySlot)
  /-- CREDIT_FRAME_RECEIVE (R442): A credit frame updates acknowledgements and credit counts. -/
  | creditFrameReceive (f : List U8)
  /-- CWY_RECORD_SEND (R448): A record is taken from an outbound queue with credit and sent. -/
  | cwyRecordSend
  /-- ACK_TIMEOUT (R444): The ack timer expires and outstanding records are sent again. -/
  | ackTimeout
  /-- CLOCK_LOST (R440): No receive clock edge for 1 µs resets the link. -/
  | clockLost
  /-- LINK_UP (R449): Training completes and credits resynchronise. -/
  | linkUp
  /-- TRAINING_TIMEOUT (R449): Training not UP after 1 ms starts again. -/
  | trainingTimeout
  /-- GROUP_STALL (R448): A group with records and no credit for 10 ms is marked stalled. -/
  | groupStall (g : Fin 64)
  /-- QMG_ALLOC (R458): An agent allocates a free buffer. -/
  | qmgAlloc (agent : Fin 16) (g : Fin 64)
  /-- QMG_ENQUEUE (R459): An agent enqueues a buffer, with full and drop handling. -/
  | qmgEnqueue (agent : Fin 16) (q : Fin 32768) (u : Fin 131072)
  /-- QMG_DEQUEUE (R458): The consumer takes the head buffer of a queue. -/
  | qmgDequeue (agent : Fin 16) (q : Fin 32768)
  /-- QMG_FREE (R462): An agent frees a buffer, refused on wrong ownership. -/
  | qmgFree (agent : Fin 16) (u : Fin 131072)
  /-- CWY_SET_LINK (R467): Enables or disables the link and sets ack_timeout. -/
  | cwySetLink (m : Fin 4)
  /-- CWY_GET_STATUS (R467): Returns the CWY words. -/
  | cwyGetStatus (m : Fin 4)
  /-- CWY_RESET_LINK (R467): Resets the link and responds at UP. -/
  | cwyResetLink (m : Fin 4)
  /-- CWY_SET_GROUP (R467): Sets a group's buffer reservation. -/
  | cwySetGroup (m : Fin 4)
  /-- CWY_GET_GROUP (R467): Returns a group's credit state. -/
  | cwyGetGroup (m : Fin 4)
  /-- QMG_SET_QUEUE (R467): Configures a record queue's descriptor. -/
  | qmgSetQueue (m : Fin 4)
  /-- QMG_GET_QUEUE (R467): Returns a queue's descriptor and counts. -/
  | qmgGetQueue (m : Fin 4)
  /-- QMG_FLUSH (R467): Frees every buffer of a disabled queue. -/
  | qmgFlush (m : Fin 4)
  /-- QMG_GET_POOL (R467): Returns the pool words. -/
  | qmgGetPool (m : Fin 4)
  /-- QMG_SET_LOW_WATER (R467): Sets low_water. -/
  | qmgSetLowWater (m : Fin 4)
  /-- CWY_QMG_CLEAR (R467): Clears Causeway and queue manager counts. -/
  | cwyQmgClear (m : Fin 4)
  /-- EXTCOMIN_TOGGLE (R471): A port's EXTCOMIN toggles and a pending pass starts. -/
  | extcominToggle (p : Fin 8)
  /-- PANEL_PASS_END (R472): A transfer pass ends and waiting draws apply. -/
  | panelPassEnd (p : Fin 8)
  /-- PANEL_BIAS_FAULT (R468): A BIAS ball below 4.0 V for 10 ms faults its half. -/
  | panelBiasFault (half : Fin 2)
  /-- STRIP_REDRAW (R476): Carr redraws a legal strip on a change or each second. -/
  | stripRedraw (p : Fin 8)
  /-- NFC_PING (R479): A reader pings its field and starts a poll on detuning. -/
  | nfcPing (r : Fin 8) (i q : BitVec 16)
  /-- CARD_RESOLVED (R481): A poll resolves a card and a card record is sent. -/
  | cardResolved (r : Fin 8) (card : CardInfo)
  /-- PRESENCE_CHECK (R481): Every 200 ms the card presence is checked, with removal after 3 failures. -/
  | presenceCheck (r : Fin 8) (answered : Bool)
  /-- FIELD_RELEASE (R480): A field falls and a waiting reader of the group starts. -/
  | fieldRelease (r : Fin 8)
  /-- NFC_TX_FAULT (R485): A transmitter over-current turns a field off. -/
  | nfcTxFault (r : Fin 8)
  /-- PNL_SET_CONFIG (R486): Enables and configures a panel port. -/
  | pnlSetConfig (m : Fin 4)
  /-- PNL_LOAD_GAMMA (R473): Loads a port's gamma tables. -/
  | pnlLoadGamma (m : Fin 4)
  /-- PNL_DRAW (R474): Draws an image rectangle from HOST_DATA records. -/
  | pnlDraw (m : Fin 4)
  /-- PNL_FILL (R474): Fills a rectangle with one colour. -/
  | pnlFill (m : Fin 4)
  /-- PNL_FLUSH (R472): Requests a pass of dirty lines. -/
  | pnlFlush (m : Fin 4)
  /-- PNL_GET_STATUS (R486): Returns a port's status. -/
  | pnlGetStatus (m : Fin 4)
  /-- PNL_CLEAR_COUNTS (R486): Clears pass counts. -/
  | pnlClearCounts (m : Fin 4)
  /-- NFC_SET_CONFIG (R487): Enables and configures a reader. -/
  | nfcSetConfig (m : Fin 4)
  /-- NFC_POLL (R487): Polls a reader for a card. -/
  | nfcPoll (m : Fin 4)
  /-- NFC_TRANSCEIVE (R487): Exchanges a frame with the present card. -/
  | nfcTransceive (m : Fin 4) (x : CardAnswer)
  /-- NFC_RELEASE (R487): Deselects the card and returns to detection. -/
  | nfcRelease (m : Fin 4)
  /-- NFC_CLEAR_COUNTS (R487): Clears reader counts. -/
  | nfcClearCounts (m : Fin 4)
  /-- POWER_ON (R489): Supplies rise through their power-on levels and a DEVICE reset acts. -/
  | powerOn (pinHigh : Bool) (strap : U16)
  /-- BROWN_OUT (R489): A rail below its brown-out level for 2 µs causes a DEVICE reset. -/
  | brownOut
  /-- RESET_PIN (R489): RESET_N low for 1 µs causes a DEVICE reset. -/
  | resetPin
  /-- CLOCK_FAIL (R489): After the hub safe stop for loss of Tide a DEVICE reset acts. -/
  | clockFail (strap : U16)
  /-- WATCHDOG (R489): A core watchdog not serviced in time restarts the core. -/
  | watchdog (core : CoreId)
  /-- LOCK_UP (R489): A core found stopped by its detector is restarted. -/
  | lockUp (core : CoreId)
  /-- SEDGE_ABSENCE_TIMEOUT (R17): Sedge absent beyond 2.5 s causes a hub safe stop and a fatal error. -/
  | sedgeAbsenceTimeout
  /-- STOP_SEQUENCE_END (R495): 180 ms after the stop sequence starts outputs turn off and the reset is asserted. -/
  | stopSequenceEnd (strap : U16)
  /-- BOOT_STAGE_DONE (R496): A boot stage completes and the next begins. -/
  | bootStageDone (x : BootInfo)
  /-- READY_DECLARED (R496): At 1.6 s, or when stage 6 ends, ready is declared. -/
  | readyDeclared
  /-- IMAGE_DATA (R498): An IMAGE_DATA record or boot part delivers block bytes. -/
  | imageData
  /-- BLOCK_REQUEST_TIMEOUT (R498): A block not complete in 100 ms is requested again. -/
  | blockRequestTimeout
  /-- BOOT_RETRY (R497): In BOOT_FAIL the missing images are requested again every 1 s. -/
  | bootRetry
  /-- ACTIVATION_SWITCH (R505): An activation pause ends with the new image running. -/
  | activationSwitch (converts : Bool)
  /-- MODEM_DEFERRED_SWITCH (R506): A deferred modem switches when its connector enters an allowed phase. -/
  | modemDeferredSwitch (n : Fin 16)
  /-- TRIAL_WARN (R509): 60 s of trial time remain. -/
  | trialWarn
  /-- TRIAL_EXPIRED (R510): The trial time ends without commit and the image reverts. -/
  | trialExpired
  /-- UPD_GET_STATUS (R517): Returns the UPD words. -/
  | updGetStatus (m : Fin 4)
  /-- UPD_STAGE (R503): Fetches and checks an image into the standby slot. -/
  | updStage (m : Fin 4)
  /-- UPD_ACTIVATE (R505): Activates a staged image into trial. -/
  | updActivate (m : Fin 4)
  /-- UPD_COMMIT (R509): Commits a trial image and raises its counter. -/
  | updCommit (m : Fin 4)
  /-- UPD_REVERT (R510): Reverts a trial image. -/
  | updRevert (m : Fin 4)
  /-- UPD_DISCARD (R517): Discards a staged image. -/
  | updDiscard (m : Fin 4)
  /-- UPD_SET_CONFIG (R517): Sets the trial time and update queues. -/
  | updSetConfig (m : Fin 4)
  /-- UPD_GET_MANIFEST (R517): Returns manifest bytes of a slot. -/
  | updGetManifest (m : Fin 4)
  /-- UPD_BOOT_PART (R498): Delivers 512 bytes of an image in host-port boot. -/
  | updBootPart (m : Fin 4)
  /-- OPLOG_FLUSH (R523): Pending operational log bytes are sent within 10 ms. -/
  | oplogFlush
  /-- FATAL_ERROR (R531): A fatal error logs, stops every session and freezes the store. -/
  | fatalError
  /-- DUMP_START (R531): The dump engine starts when nodes are open or 180 ms have passed. -/
  | dumpStart
  /-- DUMP_COMPLETE (R531): The dump is written and becomes VALID. -/
  | dumpComplete
  /-- TRACE_OVERFLOW (R535): An overflowing trace buffer ends the recording. -/
  | traceOverflow
  /-- TRACE_IN (R538): A TRACE_IN record delivers trace items for replay. -/
  | traceIn
  /-- REPLAY_STARVED (R540): An item not accepted in time ends replay. -/
  | replayStarved
  /-- BTN_READ (R528): Reads log entries. -/
  | btnRead (m : Fin 4)
  /-- BTN_CLEAR (R529): Clears a log with an authorisation. -/
  | btnClear (m : Fin 4)
  /-- BTN_SET_CONFIG (R549): Sets the operational log queue. -/
  | btnSetConfig (m : Fin 4)
  /-- BTN_GET_STATUS (R549): Returns the BTN words. -/
  | btnGetStatus (m : Fin 4)
  /-- BTN_CLEAR_COUNTS (R549): Clears Bittern counters. -/
  | btnClearCounts (m : Fin 4)
  /-- DMP_GET_STATUS (R550): Returns the dump state and header. -/
  | dmpGetStatus (m : Fin 4)
  /-- DMP_EXPORT (R533): Exports the dump region as records. -/
  | dmpExport (m : Fin 4)
  /-- DMP_RELEASE (R533): Releases the dump. -/
  | dmpRelease (m : Fin 4)
  /-- DMP_TRIGGER (R530): Triggers a fatal error with an authorisation. -/
  | dmpTrigger (m : Fin 4)
  /-- REC_ARM (R535): Arms or disarms trace recording. -/
  | recArm (m : Fin 4)
  /-- RPL_ARM (R537): Arms replay and resets the device into replay mode. -/
  | rplArm (m : Fin 4)
  /-- RPL_GET_STATUS (R550): Returns the replay state. -/
  | rplGetStatus (m : Fin 4)
  /-- IDCODE (R541): JTAG instruction returning the IDCODE. -/
  | idcode
  /-- SAMPLE_PRELOAD (R541): JTAG boundary-scan sample and preload. -/
  | samplePreload (pins : List Bool)
  /-- EXTEST (R541): JTAG external test while held in reset. -/
  | extest (pins : List Bool)
  /-- DBG_CHALLENGE (R542): JTAG instruction returning a debug challenge. -/
  | dbgChallenge
  /-- DBG_RESPONSE (R542): JTAG response unlocking a debug scope and erasing keys. -/
  | dbgResponse (scope : U8) (signature : List U8)
  /-- DBG_CHALLENGE_EXPIRED (R542): A debug challenge expires after 60 s. -/
  | dbgChallengeExpired
  /-- DBG_ACCESS (R543): JTAG access to memories and the window in the granted scope. -/
  | dbgAccess (op : DebugOp)
  /-- DBG_STATUS_SCAN (R541): JTAG instruction returning the debug status. -/
  | dbgStatusScan
  /-- BYPASS (R541): JTAG bypass. -/
  | bypass
  /-- DEBUG_HALT (R545): A core is halted through debug. -/
  | debugHalt (core : CoreId)
  /-- DEBUG_STEP (R543): A halted core is stepped. -/
  | debugStep (core : CoreId)
  /-- DEBUG_RESUME (R545): A halted core resumes. -/
  | debugResume (core : CoreId)
  /-- DEBUG_RESET_REQUEST (R489): A debug reset request of HUB or CORE scope. -/
  | debugResetRequest (hub : Bool) (core : CoreId)
  /-- CORE_RESTART_COMPLETE (R491): A restarted core has reloaded, measured and started its image and runs again, ending its absence. -/
  | coreRestartComplete (core : CoreId) (bad : U16)
  /-- OVERVOLTAGE_RELEASE (R275): A node overvoltage comparator releases below 98 % of its level. -/
  | overvoltageRelease (n : Fin 16)
  /-- SAFETY_INPUT_CLOSE (R265): A safety input that counted as open reads closed again, ending the pair's acting state. -/
  | safetyInputClose (k : Fin 16)
  /-- READ_FRAME (R419): A host-port READ frame returns shadow words and counts the frame, setting WIN_ERR on a forbidden word. -/
  | readFrame (addr : U16) (count : Nat) (lag : Fin 49)
  /-- FALSE_WAKE_UP (R479): A poll started by a ping finds no card, counts a false wake-up, takes a new baseline and resumes detection. -/
  | falseWakeUp (r : Fin 8)
  /-- RESET_N_RELEASE (R564): RESET_N rises with supplies valid and the device leaves reset toward Tide 0 and boot. -/
  | resetNRelease (strap : U16)
  /-- STOP_SEQUENCE_START (R516): 1 ms after the SYS_RESET response, a CORE reset acts or the stop sequence of a HUB or DEVICE reset begins. -/
  | stopSequenceStart
  /-- RECEIVE_CLOCK_STABLE (R449): The Causeway receive clock has run 1,024 stable cycles and training moves on to alignment. -/
  | receiveClockStable
  /-- TRIAL_TIME_SAVE (R509): Every 10 s of powered trial time the update record saves the elapsed trial time. -/
  | trialTimeSave
deriving DecidableEq, Repr

end Sys2Proof
end

