-- ==== Sys2Proof/Config.lean ====
section
/-! DEFINITION. What the spec names and does not compute, and the values it leaves open: constants without a body, so
that nothing can be proved of their values. -/

namespace Sys2Proof

/-- Which of the free buffers the queue manager hands out at its n-th allocation (R458 names none), log entry 5. -/
opaque Config.allocPick : Nat → Nat

/-- The n-th random byte the device draws (R394), log entry 6. -/
opaque Config.random : Nat → U8

/-- Where in its partition the n-th record without a stated place is written (R313 states no layout), log entry 9. -/
opaque Config.storePlace : Nat → Nat

/-- Byte `i` of the n-th line written without a stated layout, log entry 9. -/
opaque Config.storeByte : Nat → Nat → U8

/-- Byte `i` of the directory, written at manufacture (R313 states no layout), log entry 9. -/
opaque Config.dirByte : Nat → U8

/-- Line `n` of the store holds a part of the PUF helper data of which no other copy is good (R384 puts the data in KEYSTORE and gives no
layout), log entry 177. -/
opaque Config.helperLine : Nat → Bool

/-- The unique device secret the silicon regenerates (R384); a value of the part, log entry 10. -/
opaque Config.uds : BitVec 256

/-- The fixed measurement of the boot ROM (R388); a value of the part, log entry 10. -/
opaque Config.hRom : BitVec 384

/-- Koanfa's firmware key in slot 3 at delivery (R395); a value of the part, log entry 10. -/
opaque Config.koanfaKey : BitVec 776

/-- The DeviceID certificate written at manufacture, at most 900 bytes (R404); a value of the part, log entry 10. -/
opaque Config.certificate : List U8

/-- Whether (infinity × 0) + quiet NaN raises the invalid flag in a fused multiply-add; IEEE 754 and R99 leave it open, log
entry 14. -/
opaque Config.fmaInvalidNan : Bool

/-- Which TCP port from 49,152 to 65,535 a stack names in its n-th SDP response (R225 gives the range), modulo 16,384, log entry 166. -/
opaque Config.tcpPort : Nat → Nat

/-- The mean energy of a sample in a carrier group, in squared receive codes at 0 dB gain, of a signal at the sounding level that
ISO 15118-3 assumes (R219 names the level and not its value), log entry 172. -/
opaque Config.soundingEnergy : Nat

/-- The sync pattern of the Tide lane (R69 gives its width and no value), log entry 165. -/
opaque Config.d2dSync : BitVec 4

/-- The 4-bit CRC of the Tide lane over its sync pattern and byte (R69 gives its width and no polynomial), log entry 165. -/
opaque Config.d2dCrc4 : U8 → BitVec 4

/-- A certificate chain parses and its leaf carries a public key (R235), log entry 4. -/
opaque Config.chainMatches : List U8 → List U8 → Bool

/-- A response carries the emergency-shutdown status, and not the stop-charging notification, for an end reason whose status
R229 does not name, log entry 23. -/
opaque Config.unstatedStopEmergency : Nat → Bool

/-- How many of its four beats a line has written when the n-th grant is revoked (R338, R340 name no number), modulo 4, log
entry 24. -/
opaque Config.beatsWritten : Nat → Nat

/-- The type of the records in which SLT_GET_CALENDAR exports a calendar; R382 states none, log entry 25. -/
opaque Config.calendarRecord : Nat

/-- The bitmap of one character of the legal strip, row by row, bit k the k-th pixel from the left; characters below 256 by their
code, 256 + d for hexadecimal digit d. R475 gives the cells and no font, log entry 27. -/
opaque Config.glyph : Nat → Nat → U8

/-- The time by which the guard times around a frame of a pass exceed their least values, in ticks (R470 gives least values only),
log entry 28. -/
opaque Config.passSlack : Nat

/-- The bytes of the core memories and register files in a dump (R532 sections 4 to 7), which the firmware makes: Tide of the dump,
section, offset; log entry 32. -/
opaque Config.coreByte : Nat → Nat → Nat → U8

/-- A byte of a core memory or of LPDDR4X as a debug access reads it (R543): memory, address, and how many accesses came before;
log entry 32. -/
opaque Config.memoryByte : Nat → Nat → Nat → U8

end Sys2Proof
end

