-- ==== Sys2Proof/Machine/Parts/Meter.lean ====
section
/-! DEFINITION. State of the metrology channels and pairs (04_metrology_inputs.md), of the energy accumulators, the
attribution of grid energy and the supply quality events (05_energy_quality.md). Defaults are reset values. -/

namespace Sys2Proof.Machine

/-- One entry of a correction table (R93) with the slopes Carr computes at load (R94). -/
structure Segment where
  iLo : U32 := 0 -- 04 R93 lower bound, binary32
  gain : U32 := 0 -- 04 R93 gain, binary32
  offset : U32 := 0 -- 04 R93 offset, binary32
  phase : U16 := 0 -- 04 R93 phase, signed
  flags : U8 := 0 -- 04 R93 flags, bit 0 valid
  rsvd : U8 := 0 -- 04 R93 reserved byte
  gs : U32 := 0 -- 04 R94 gain slope
  os : U32 := 0 -- 04 R94 offset slope
  ps : U32 := 0 -- 04 R94 phase slope
deriving DecidableEq, Repr

/-- The identity table of R105. -/
def identityTable : List Segment :=
  { gain := 0x3F800000, flags := 1 } :: List.replicate 15 {}

/-- The configuration of a channel (R106 MET_CH_CFG, R85). -/
structure ChanCfg where
  sensor : BitVec 3 := 0 -- 04 R84 sensor code
  gainSel : BitVec 3 := 0 -- 04 R83 gain select
  segSrc : Bool := false -- 04 R95 segment source
  integFc : BitVec 2 := 0 -- 04 R86 integrator corner
  raw : Bool := false -- 04 R97 raw mode
  scale : U32 := 0 -- 04 R85 scale, binary32
  iNom : U32 := 0 -- 04 R85 nominal current, binary32
deriving DecidableEq, Repr

/-- The sticky flags of R100 and the saturation flag of R101. -/
structure FpFlags where
  nx : Bool := false -- 04 R100 inexact
  uf : Bool := false -- 04 R100 underflow
  of : Bool := false -- 04 R100 overflow
  dz : Bool := false -- 04 R100 division by zero
  nv : Bool := false -- 04 R100 invalid
  sat : Bool := false -- 04 R101 conversion saturated
deriving DecidableEq, Repr

/-- One metrology channel. -/
structure Chan where
  cfg : ChanCfg := {} -- 04 R106 MET_CH_CFG, MET_CH_SCALE, i_nom
  pendingCfg : Option (ChanCfg × U64) := none -- 04 R108 configuration waiting for its stamp
  pendingRaw : Option (Bool × U64) := none -- 04 R97 raw mode change waiting for its stamp
  settleLeft : Nat := 8 -- 04 R92 sample instants left to settle
  settled : Bool := false -- 04 R92 MET_CH_STAT.settled
  clip : Bool := false -- 04 R90 MET_CH_STAT.clip
  clipCount : U16 := 0 -- 04 R90 MET_CH_STAT.clip_count
  modFault : Bool := false -- 04 R91 MET_CH_STAT.mod_fault
  flags : FpFlags := {} -- 04 R100 MET_CH_STAT flags
  segment : BitVec 4 := 0 -- 04 R106 MET_CH_STAT.segment
  active : List Segment := identityTable -- 04 R93 R105 active table
  staged : Option (List Segment) := none -- 04 R93 staged table
  before : Option (List Segment × U64) := none -- 04 R98 table that samples stamped up to that instant still use
  code : BitVec 24 := 0 -- 04 R88 code read at the last sample instant
  vPrev : U32 := 0 -- 04 R86 integrator input of the sample before
  w : U32 := 0 -- 04 R86 integrator state
  hist : List U32 := List.replicate 10 0 -- 04 R96 history H
  x : U32 := 0 -- 04 R95 segment variable
  xSum : U32 := 0 -- 04 R95 running sum of the block, own magnitude
  xValid : Bool := false -- 04 R95 every sample of the block so far is settled
  xOwn : U32 := 0 -- 04 R95 R113 own-magnitude variable of the last block
  value : U32 := 0 -- 04 R106 MET_CH_VALUE
  good : U32 := 0 -- 11 R272 value of the latest settled sample
deriving DecidableEq, Repr

/-- A running MET_CAL_MEASURE (R108). -/
structure CalMeasure where
  mbx : Fin 4 := 0 -- 04 R108 the mailbox that asked
  chan : Fin 48 := 0 -- 04 R108 channel measured
  left : Nat := 0 -- 04 R108 samples still to sum
  first : U64 := 0 -- 04 R108 first stamp
  sum : U64 := 0 -- 04 R108 sum of out, binary64
  sumSq : U64 := 0 -- 04 R108 sum of out squared, binary64
  sumVi : U64 := 0 -- 04 R108 sum of voltage times current, binary64
  sumCodes : U64 := 0 -- 04 R108 sum of codes, signed
  clipped : U32 := 0 -- 04 R108 clipped samples
deriving DecidableEq, Repr

/-- inv: met. Metrology as a whole. -/
structure Metrology where
  chans : Vector Chan 48 := Vector.replicate 48 {} -- 04 R82 the 48 channels
  running : Bool := false -- 04 R106 MET_STAT.running
  sealOpen : Bool := false -- 04 R104 MET_SEAL.open
  sealAt : U64 := 0 -- 04 R104 instant of opening
  tableCrc : U32 := 0 -- 04 R105 MET_TABLE_CRC
  stamp : U64 := 0 -- 04 R106 MET_SAMPLE
  latched : Option U64 := none -- 04 R88 R96 instant read by the lanes and not yet published
  lastSample : Option U64 := none -- 04 R88 last sample instant taken
  cal : Option CalMeasure := none -- 04 R108 running MET_CAL_MEASURE
deriving DecidableEq, Repr

/-- One energy pair (R109). -/
structure Pair where
  uRef : U32 := 0x447A0000 -- 05 R114 R128 MET_UREF(p); 230 V for pairs 16-21
  startCur : U32 := 0 -- 05 R114 R128 MET_START_CUR(p)
  nlPower : U32 := 0 -- 05 R114 R128 MET_NL_POWER(p)
  pendingNoload : Option (U32 × U32 × U64) := none -- 05 R130 no-load setting waiting for its stamp
  pendingUref : Option (U32 × U64) := none -- 05 R130 reference voltage waiting for its stamp
  noLoad : Bool := true -- 05 R113 MET_NOLOAD bit p
  pSum : U32 := 0 -- 05 R113 running sum of pw over the block
  pBlk : U32 := 0 -- 05 R113 P_blk of the last block
  inc : Acc := 0 -- 05 R110 increment published for the last instant
  clipped : Bool := false -- 05 R112 the last instant's sample of the pair was clipped
  faulted : Bool := false -- 05 R112 R121 the last instant's sample of the pair had mod_fault
  range : Bool := false -- 05 R128 MET_RANGE_FLAGS bit p
  unproven : Bool := false -- 05 R128 MET_UNPROVEN bit p
deriving DecidableEq, Repr

/-- One 96-bit accumulator with its legal flags (R112, R36). -/
structure Register where
  acc : Acc := 0 -- 05 R115 the accumulator, 2^-32 Wh
  range : Bool := false -- 05 R112 range flag
  unproven : Bool := false -- 05 R36 unproven flag
deriving DecidableEq, Repr

/-- Grid energy of one attribution frame (R119) not yet attributed. -/
structure AttrFrame where
  base : U64 := 0 -- 05 R119 boundary B at which the frame starts
  eImp : Acc := 0 -- 05 R119 E_imp(F)
  eExp : Acc := 0 -- 05 R119 E_exp(F)
  clipped : Bool := false -- 05 R121 a feeder sample of the frame was clipped
  faulted : Bool := false -- 05 R121 a feeder sample of the frame had mod_fault
  assigned : Nat := 0 -- 05 R120 A, modules assigned at B
  weights : List Nat := [] -- 05 R120 w_s for each connector, 0 when not eligible at B
deriving DecidableEq, Repr

/-- inv: acc. The accumulators of R115, the attribution frames, and the values captured by _LO reads (R118). -/
structure Energy where
  pairs : Vector Pair 22 := vgen 22 fun p => if p.val < 16 then {} else { uRef := 0x43660000 } -- 05 R109 the 22 pairs
  nodeDel : Vector Register 16 := Vector.replicate 16 {} -- 05 R115 node delivered
  nodeRec : Vector Register 16 := Vector.replicate 16 {} -- 05 R115 node received
  fdrImp : Vector Register 2 := Vector.replicate 2 {} -- 05 R115 feeder import
  fdrExp : Vector Register 2 := Vector.replicate 2 {} -- 05 R115 feeder export
  hubDel : Register := {} -- 05 R115 hub delivered
  hubRec : Register := {} -- 05 R115 hub received
  unattImp : Register := {} -- 05 R115 hub unattributed import
  unattExp : Register := {} -- 05 R115 hub unattributed export
  hubUnproven : Bool := false -- 05 R128 MET_UNPROVEN.hub
  attribUnproven : Bool := false -- 05 R128 MET_UNPROVEN.attrib
  eligible : BitVec 16 := 0 -- 05 R116 sessions eligible at the last sample instant
  published : Option U64 := none -- 05 R110 instant whose increments await Saltern
  applied : U64 := 0 -- 05 R130 last instant Saltern has applied
  priced : Option U64 := none -- 14 R373 instant whose costs await Brine
  frames : List AttrFrame := [] -- 05 R119 attribution frames not yet attributed, oldest first
  nodeDelHi : Vector U32 16 := Vector.replicate 16 0 -- 05 R118 MET_NODE_DEL_HI(n)
  nodeRecHi : Vector U32 16 := Vector.replicate 16 0 -- 05 R118 MET_NODE_REC_HI(n)
  fdrImpHi : Vector U32 2 := Vector.replicate 2 0 -- 05 R118 MET_FDR_IMP_HI(f)
  fdrExpHi : Vector U32 2 := Vector.replicate 2 0 -- 05 R118 MET_FDR_EXP_HI(f)
  hubHi : Vector U32 4 := Vector.replicate 4 0 -- 05 R118 _HI of MET_HUB_DEL, MET_HUB_REC, MET_UNATT_IMP, MET_UNATT_EXP
deriving DecidableEq, Repr

/-- An open supply quality event of one kind (R125, R127). -/
structure PqOpen where
  start : U64 := 0 -- 05 R125 refresh instant of the starting value
  duration : U32 := 0 -- 05 R125 half-cycles so far
  extreme : U32 := 0 -- 05 R125 extreme, binary32
  phase : Fin 3 := 0 -- 05 R127 phase of the extreme
  noSync : Bool := false -- 05 R123 a synthetic value lies in the event
  containsInt : Bool := false -- 05 R126 an interruption lies in the sag
  sag : U16 := 9000 -- 05 R130 threshold in force when the event opened
  swell : U16 := 11000 -- 05 R130 threshold in force when the event opened
  interruption : U16 := 500 -- 05 R130 threshold in force when the event opened
  hyst : U16 := 200 -- 05 R130 hysteresis in force when the event opened
deriving DecidableEq, Repr

/-- The stored settings of one feeder's supply quality (R130). -/
structure PqSet where
  enable : Bool := false -- 05 R128 MET_PQ_CFG.enable
  f60 : Bool := false -- 05 R128 MET_PQ_CFG.f60
  queue : U16 := 0xFFFF -- 05 R128 MET_PQ_CFG.queue
  sag : U16 := 9000 -- 05 R128 MET_PQ_THR sag
  swell : U16 := 11000 -- 05 R128 MET_PQ_THR swell
  interruption : U16 := 500 -- 05 R128 MET_PQ_THR interruption
  hyst : U16 := 200 -- 05 R128 MET_PQ_THR hysteresis
deriving DecidableEq, Repr

/-- The supply quality settings and events of one feeder. -/
structure PqFeeder where
  enable : Bool := false -- 05 R128 MET_PQ_CFG.enable
  f60 : Bool := false -- 05 R128 MET_PQ_CFG.f60
  queue : U16 := 0xFFFF -- 05 R128 MET_PQ_CFG.queue
  sag : U16 := 9000 -- 05 R128 MET_PQ_THR sag
  swell : U16 := 11000 -- 05 R128 MET_PQ_THR swell
  interruption : U16 := 500 -- 05 R128 MET_PQ_THR interruption
  hyst : U16 := 200 -- 05 R128 MET_PQ_THR hysteresis
  openSag : Option PqOpen := none -- 05 R125 MET_PQ_STAT.open, sag
  openSwell : Option PqOpen := none -- 05 R125 MET_PQ_STAT.open, swell
  openInt : Option PqOpen := none -- 05 R125 MET_PQ_STAT.open, interruption
  seq : U16 := 0 -- 05 R127 event sequence
  lastStart : U64 := 0 -- 05 R128 MET_PQ_LAST
  lastDur : U32 := 0 -- 05 R128 MET_PQ_LAST_DUR
  lastExt : U32 := 0 -- 05 R128 MET_PQ_LAST_EXT
  lastRefresh : U64 := 0 -- 05 R126 last refresh instant with values
  index : Nat := 0 -- 05 R125 index of the refresh instants decided next
  pending : Option (PqSet × U64) := none -- 05 R130 settings waiting for their stamp
deriving DecidableEq, Repr

/-- One refresh value of a phase (R122, R123, R125). -/
structure PqValue where
  index : Nat := 0 -- 05 R125 index of the refresh instant, even at a crossing
  at_ : U64 := 0 -- 05 R122 refresh instant
  volts : U32 := 0 -- 05 R122 Urms(1/2), binary32
  synthetic : Bool := false -- 05 R123 the instant is synthetic
deriving DecidableEq, Repr

/-- A refresh instant that is not yet computed (R122, R123). -/
structure PqDue where
  at_ : U64 := 0 -- 05 R122 refresh instant r
  period : U64 := 0 -- 05 R122 period P
  synthetic : Bool := false -- 05 R123 the instant is synthetic
  half : Bool := false -- 05 R122 the instant lies half a period after its crossing
deriving DecidableEq, Repr

/-- The half-cycle measurement of one phase (R46, R122, R123). -/
structure PqPhase where
  urms : U32 := 0 -- 05 R128 MET_URMS(k)
  noSync : Bool := false -- 05 R128 MET_PQ_STAT.no_sync bit k
  armed : Bool := false -- 02 R46 the voltage has been below -5 % since the previous crossing
  prevZc : U64 := 0 -- 05 R122 z_(j-1)
  haveTwo : Bool := false -- 05 R122 two crossings have been stamped
  lastV : U32 := 0 -- 02 R46 published sample before
  lastStamp : U64 := 0 -- 02 R46 its stamp
  hist : List (U64 × U32) := [] -- 05 R122 published samples of the voltage channel, newest first
  due : List PqDue := [] -- 05 R122 R123 refresh instants not yet computed
  lastRefresh : U64 := 0 -- 05 R123 last refresh instant
  next : Nat := 0 -- 05 R125 least index that the next value of the phase may have
  waiting : List PqValue := [] -- 05 R125 values whose index the feeder has not decided yet, oldest first
  level : Option PqValue := none -- 05 R125 the value that stands for the phase at the index decided last
deriving DecidableEq, Repr

/-- inv: pq. Supply quality. -/
structure Pq where
  feeders : Vector PqFeeder 2 := Vector.replicate 2 {} -- 05 R124 R125 the two feeders
  phases : Vector PqPhase 6 := Vector.replicate 6 {} -- 05 R122 the six phases
  count : U16 := 0 -- 05 R128 MET_PQ_STAT.count
deriving DecidableEq, Repr

end Sys2Proof.Machine
end

