-- ==== Sys2Proof/Machine/Parts/Power.lean ====
section
/-! DEFINITION. State of the sessions (01_architecture.md R18 to R20), of the Sluice allocation and its hand-overs
(06_sluice.md) and of the module link (07_module_link.md). Defaults are reset values. -/

namespace Sys2Proof.Machine

/-- The session phase of R18, by its code. -/
inductive Phase where
  | idle | connected | associating | negotiating | authorising | admission | cableCheck | precharge
  | charging | stopping | ended | faulted
deriving DecidableEq, Repr

/-- The 4-bit code of a phase (R18). -/
def Phase.code : Phase → Nat
  | .idle => 0 | .connected => 1 | .associating => 2 | .negotiating => 3 | .authorising => 4 | .admission => 5
  | .cableCheck => 6 | .precharge => 7 | .charging => 8 | .stopping => 9 | .ended => 10 | .faulted => 11

/-- The end reasons of R20. -/
inductive EndReason where
  | evStop | userStop | creditExhausted | pilotLoss | safety | powerFail | commTimeout | refused | operator | deviceFault
deriving DecidableEq, Repr

/-- The 8-bit code of an end reason (R20). -/
def EndReason.code : EndReason → U8
  | .evStop => 1 | .userStop => 2 | .creditExhausted => 3 | .pilotLoss => 4 | .safety => 5 | .powerFail => 6
  | .commTimeout => 7 | .refused => 8 | .operator => 9 | .deviceFault => 10

/-- What Sluice reports of a candidate (R146 to R150). -/
inductive SluOutcome where
  | none | served | delayed | refused
deriving DecidableEq, Repr

/-- What Sluice reports of a connector (R150): in force since the last boundary that changed it. -/
structure SluReport where
  number : U32 := 0 -- 06 R151 session number of the solve
  outcome : SluOutcome := .none -- 06 R161 SLU_NODE_STAT.outcome
  reason : U8 := 0 -- 06 R161 SLU_NODE_STAT.reason
  queuePos : U8 := 0 -- 06 R161 SLU_NODE_STAT.queue_pos
  modules : Nat := 0 -- 06 R161 SLU_NODE_STAT.modules
  held : Bool := false -- 06 R161 SLU_NODE_STAT.held
  allotted : Int := 0 -- 06 R161 SLU_NODE_POWER.allotted, 100 W
  served : Int := 0 -- 06 R151 P_s, 100 W
  demand : Int := 0 -- 06 R161 SLU_NODE_POWER.demand, 100 W
deriving DecidableEq, Repr

/-- inv: sess[n]. The session of one connector: its phase, stop cause and Sluice's view of it. -/
structure Session where
  phase : Phase := .idle -- 01 R18 06 R161 SLU_NODE_STAT.phase
  enteredAt : U64 := 0 -- 01 R18 instant of the last phase change
  energised : Bool := false -- 01 R21 the output has been energised in this session
  stopCause : Option EndReason := none -- 01 R20 the stop cause recorded so far
  stopFrame : U64 := 0 -- 01 R20 allocation frame of the first stop cause
  endReason : Option EndReason := none -- 01 R20 the end reason of the session
  refusedReason : U8 := 0 -- 01 R20 06 R149 reason code of a refusal
  authorised : Bool := false -- 01 R21 step 4 complete
  number : U32 := 0 -- 01 R19 session number, 0 none
  rep : SluReport := {} -- 06 R161 SLU_NODE_STAT, SLU_NODE_POWER: what is in force
  rawReason : U8 := 0 -- 06 R150 Served reason of the latest solve
  rawSince : Nat := 0 -- 06 R150 consecutive frames with that reason
  entry : U64 := 0 -- 06 R146 instant the candidate entered ADMISSION
  delayFrom : Option U64 := none -- 06 R147 boundary at which the candidate was first Delayed
  expired : Bool := false -- 06 R147 it has been Delayed longer than its maximum delay
  zeroVerified : Bool := false -- 06 R161 SLU_NODE_STAT.zero_verified
  prechargeDone : Bool := false -- 06 R161 SLU_NODE_STAT.precharge_done
  weight : U8 := 100 -- 06 R161 SLU_NODE_CFG.class_weight
  floor : BitVec 5 := 1 -- 06 R161 SLU_NODE_CFG.floor
  refuse : Bool := false -- 06 R161 SLU_NODE_CFG.refuse
  maxDelay : U16 := 300 -- 06 R161 SLU_NODE_CFG.max_delay
  hostCap : U16 := 6000 -- 06 R161 SLU_NODE_CAP.host_cap
  thermalCap : U16 := 0xFFFF -- 06 R161 SLU_NODE_CAP.thermal_cap
  surplusFrames : Nat := 0 -- 06 R141 consecutive frames with surplus modules
  release : Bool := false -- 06 R141 the surplus is to be released
  prechargeRun : Nat := 0 -- 06 R143 consecutive samples within 10 V
  served : Bool := false -- 06 R146 admitted
  admitNo : Nat := 0 -- 06 R152 order of admission
  exports : Bool := false -- 06 R153 direction in which its floor counts
  nodeI : Nat := 0 -- 06 R142 I_s in force, 0.01 A
  rampEnd : U64 := 0 -- 06 R133 end of the 3,000,000-tick ramp on the node
  stopTaken : Bool := false -- 06 R154 Sluice has taken the stop
  stopSnap : Option U64 := none -- 06 R155 instant of the stop's VERIFY snapshot
  stopTries : Nat := 0 -- 06 R160 VERIFY attempts of the stop that failed
deriving DecidableEq, Repr

/-- The stage of a hand-over (R155, SLU_HO stage). -/
inductive Stage where
  | wait | rampDown | verify | open | match_ | close | rampUp
deriving DecidableEq, Repr

/-- The 4-bit code of a stage (R161). -/
def Stage.code : Stage → Nat
  | .wait => 0 | .rampDown => 1 | .verify => 2 | .open => 3 | .match_ => 4 | .close => 5 | .rampUp => 6

/-- One hand-over in flight (R155). -/
structure HandOver where
  module : Fin 96 := 0 -- 06 R161 SLU_HO.module
  from_ : Option (Fin 16) := none -- 06 R161 SLU_HO.from
  to_ : Option (Fin 16) := none -- 06 R161 SLU_HO.to
  stage : Stage := .wait -- 06 R161 SLU_HO.stage
  retryUsed : Bool := false -- 06 R161 SLU_HO.retry_used
  decided : U64 := 0 -- 06 R163 boundary whose solve decided it
  begun : Option U64 := none -- 06 R155 H of RAMP_DOWN, or H' of RAMP_UP
  snapAt : U64 := 0 -- 06 R155 instant of its VERIFY snapshot
  acted : Option U64 := none -- 06 R155 fire time of the stage's entry
  waited : Nat := 0 -- 06 R140 boundaries at which its WAIT test failed
  matchRun : Nat := 0 -- 06 R155 consecutive evaluations that matched
  matchAt : U64 := 0 -- 06 R155 fire time of MATCH
  vetoAt : Bool := false -- 06 R160 the module awaited rearm when the stage began
deriving DecidableEq, Repr

/-- Sluice's record of one module. -/
structure SluModule where
  node : Option (Fin 16) := none -- 06 R157 node on which the module counts
  outOfService : Bool := false -- 06 R161 SLU_MAP.out_of_service
  leaveDue : Bool := false -- 06 R163 SLU_MODULE_SERVICE has ordered its leave
  setpoint : Int := 0 -- 06 R161 SLU_SETPT, 0.01 A
  setBefore : Int := 0 -- 06 R160 setpoint of the frame before
  zeroGuard : Bool := false -- 02 R51 guard 0x0100 + m
deriving DecidableEq, Repr

/-- One session's inputs as Sluice latched them at the boundary (R134). -/
structure SluInput where
  phase : Phase := .idle -- 06 R134 phase
  number : U32 := 0 -- 06 R151 session number
  served : Bool := false -- 06 R146 admitted and not ended
  admitNo : Nat := 0 -- 06 R152 order of admission
  exports : Bool := false -- 06 R153 direction in which its floor counts
  entry : U64 := 0 -- 06 R146 instant of entry into ADMISSION
  targetI : Int := 0 -- 06 R134 target current, 0.1 A signed
  targetV : Nat := 0 -- 06 R134 target voltage, 0.1 V
  maxI : Nat := 0 -- 06 R134 vehicle maximum current, 0.1 A
  maxV : Nat := 0 -- 06 R134 vehicle maximum voltage, 0.1 V
  maxP : Nat := 0 -- 06 R134 vehicle maximum power, 100 W
  rating : Nat := 0 -- 06 R134 cable rating, A
  presentV : Nat := 0 -- 06 R134 present voltage of the vehicle, 0.1 V
  testV : Nat := 0 -- 06 R143 test voltage of the insulation monitor, V
  nodeV : Nat := 0 -- 06 R134 node voltage, 2^-149 V
  nodeA : Int := 0 -- 06 R134 node current, 2^-149 A
  weight : Nat := 0 -- 06 R134 class weight
  floor : Nat := 0 -- 06 R134 floor
  hostCap : Nat := 0 -- 06 R134 host cap, 100 W
  thermalCap : Nat := 0xFFFF -- 06 R134 thermal cap, 0.1 A; 0xFFFF none
  policy : Bool := false -- 06 R147 a REFUSED_POLICY condition holds
  admissible : Bool := false -- 06 R144 no other unit withholds admission
  permit : Bool := false -- 06 R144 Dyke permits output
  insFault : Bool := false -- 06 R144 insulation fault
  frozen : Bool := false -- 06 R133 a 3,000,000-tick ramp, or a welding test, runs on the node
  stop : Bool := false -- 06 R154 its session is stopping
  release : Bool := false -- 06 R141 its surplus is to be released
  nodeI : Nat := 0 -- 06 R142 I_s in force, 0.01 A
deriving DecidableEq, Repr

/-- One module's inputs as Sluice latched them at the boundary (R134). -/
structure SluModIn where
  node : Option (Fin 16) := none -- 06 R157 node on which it counts
  dest : Option (Fin 16) := none -- 06 R138 destination of its hand-over
  flight : Option Stage := none -- 06 R138 stage of its hand-over
  rampFrom : Option U64 := none -- 06 R155 H' of its RAMP_UP
  pav : Nat := 0 -- 06 R135 available power, W; 0 when unavailable
  outV : Nat := 0 -- 06 R134 output voltage of its telemetry, 0.1 V
  outI : Int := 0 -- 06 R134 output current of its telemetry, 0.01 A
  out : Bool := false -- 06 R134 out of service
  open_ : Bool := false -- 06 R138 its telemetry shows all contacts open
  leaveDue : Bool := false -- 06 R139 a leave ordered by SLU_MODULE_SERVICE
  setpoint : Int := 0 -- 06 R133 setpoint in force, 0.01 A
deriving DecidableEq, Repr

/-- What the solver latched at a boundary (R131, R134). -/
structure SluLatch where
  boundary : U64 := 0 -- 06 R131 boundary B
  sessions : List SluInput := [] -- 06 R134 the 16 sessions
  modules : List SluModIn := [] -- 06 R134 the 96 modules
  siteImp : Nat := 0 -- 06 R134 import limit, W
  siteExp : Nat := 0 -- 06 R134 export limit, W
  eta : Nat := 960 -- 06 R134 efficiency, per mille
  moveCost : Nat := 0 -- 06 R134 move cost
  moveMargin : Nat := 0 -- 06 R134 move margin
  holdMoves : Bool := false -- 06 R161 hold_moves
  strictFifo : Bool := false -- 06 R161 strict_fifo
  frozen : Bool := false -- 06 R144 Sedge absent
deriving DecidableEq, Repr

/-- A published solve, in force from the next boundary (R131). -/
structure SluNext where
  reports : List SluReport := [] -- 06 R150 the 16 connectors
  refused : List (Nat × U8) := [] -- 06 R147 connectors refused, with their reasons
  setpoints : List Int := [] -- 06 R142 current setpoints, 0.01 A
  budgetDel : Nat := 0 -- 06 R137 delivery budget, 100 W
  budgetExp : Nat := 0 -- 06 R137 export budget, 100 W
  floorDel : Nat := 0 -- 06 R161 SLU_FLOOR_SUM.deliver
  floorExp : Nat := 0 -- 06 R161 SLU_FLOOR_SUM.export
  nodeI : List Nat := [] -- 06 R142 I_s of the 16 nodes, 0.01 A
  admitted : List (Fin 16 × Bool) := [] -- 06 R146 sessions admitted, with their direction
  turned : List (Fin 16 × Bool) := [] -- 06 R153 sessions whose floor counts in a new direction
  exceed : Bool := false -- 06 R152 the floors exceed a budget
deriving DecidableEq, Repr

/-- What SLU_SET_TUNING sets outside the solver (R163). -/
structure SluTune where
  reasonHold : U8 := 20 -- 06 R161 SLU_TUNE.reason_hold
  zcMod : U8 := 50 -- 06 R161 SLU_ZC_TOL.zc_mod
  zcNodeAbs : U8 := 10 -- 06 R161 SLU_ZC_TOL.zc_node_abs
  zcNodeRel : U8 := 20 -- 06 R161 SLU_ZC_TOL.zc_node_rel
  outcomeQueue : U16 := 0xFFFF -- 06 R161 SLU_CTRL.outcome_queue
deriving DecidableEq, Repr

/-- inv: slu. Sluice as a whole. -/
structure Sluice where
  modules : Vector SluModule 96 := Vector.replicate 96 {} -- 06 R157 the map and setpoints
  ho : Vector (Option HandOver) 24 := Vector.replicate 24 none -- 06 R155 the 24 hand-over slots
  latch : Option SluLatch := none -- 06 R131 inputs of the solve in progress
  lastInputs : Option SluLatch := none -- 06 R144 the last latch with Sedge present
  pendingTune : Option (SluTune × U64) := none -- 06 R163 settings that take effect at that H
  pendingService : List (Fin 96 × Bool × U64) := [] -- 06 R163 modules that leave or enter service at that H
  next : Option SluNext := none -- 06 R131 the published solve
  boundaryAt : Option U64 := none -- 06 R131 last allocation boundary
  evalAt : Option U64 := none -- 06 R155 last link-cycle instant evaluated
  verifiedAt : Option U64 := none -- 06 R156 snapshot instant checked last
  admissions : Nat := 0 -- 06 R152 admissions so far
  lastMap : List (Option (Fin 16)) := List.replicate 96 none -- 06 R157 map in force at the last boundary
  mapBytes : List U8 := List.replicate 96 0x10 -- 06 R161 SLU_MAP at that boundary
  holdMoves : Bool := false -- 06 R161 SLU_CTRL.hold_moves
  strictFifo : Bool := false -- 06 R161 SLU_CTRL.strict_fifo
  outcomeQueue : U16 := 0xFFFF -- 06 R161 SLU_CTRL.outcome_queue
  running : Bool := false -- 06 R161 SLU_STATUS.running
  frozen : Bool := false -- 06 R144 SLU_STATUS.inputs_frozen
  floorsExceed : Bool := false -- 06 R161 SLU_STATUS.floors_exceed_site
  inFlightPeak : BitVec 5 := 0 -- 06 R161 SLU_STATUS.in_flight_peak
  mapTide : U64 := 0 -- 06 R161 SLU_MAP_TIDE
  siteImp : U32 := 0 -- 06 R161 SLU_SITE_IMP
  siteExp : U32 := 0 -- 06 R161 SLU_SITE_EXP
  eta : BitVec 10 := 960 -- 06 R161 SLU_TUNE.eta
  reasonHold : U8 := 20 -- 06 R161 SLU_TUNE.reason_hold
  moveCost : U16 := 1000 -- 06 R161 SLU_MOVE.move_cost
  moveMargin : U16 := 2000 -- 06 R161 SLU_MOVE.move_margin
  zcMod : U8 := 50 -- 06 R161 SLU_ZC_TOL.zc_mod
  zcNodeAbs : U8 := 10 -- 06 R161 SLU_ZC_TOL.zc_node_abs
  zcNodeRel : U8 := 20 -- 06 R161 SLU_ZC_TOL.zc_node_rel
  budgetDel : U16 := 0 -- 06 R161 SLU_BUDGET.deliver
  budgetExp : U16 := 0 -- 06 R161 SLU_BUDGET.export
  floorDel : U16 := 0 -- 06 R161 SLU_FLOOR_SUM.deliver
  floorExp : U16 := 0 -- 06 R161 SLU_FLOOR_SUM.export
deriving DecidableEq, Repr

/-- inv: sluCnt. The Sluice counters (R161). -/
structure SluCounts where
  hoDone : U32 := 0 -- 06 R161 SLU_HO_DONE_CNT
  hoAbort : U32 := 0 -- 06 R161 SLU_HO_ABORT_CNT
  zcFail : U32 := 0 -- 06 R161 SLU_ZC_FAIL_CNT
  selFault : U32 := 0 -- 06 R161 SLU_SEL_FAULT_CNT
  admitted : U32 := 0 -- 06 R161 SLU_ADMIT_CNT
  delay : U32 := 0 -- 06 R161 SLU_DELAY_CNT
  refuse : U32 := 0 -- 06 R161 SLU_REFUSE_CNT
  noMove : U32 := 0 -- 06 R161 SLU_NOMOVE_CNT
deriving DecidableEq, Repr

/-- The selector command a module's downlink carries (R168). -/
inductive SelCmd where
  | none | openAll | close (contact : Fin 4)
deriving DecidableEq, Repr

/-- One module as its lane sees it. -/
structure MlkModule where
  record : List U8 := List.replicate 8 0 -- 07 R171 latest telemetry record
  stamp : U64 := 0 -- 07 R184 receive stamp of that record
  everOk : Bool := false -- 07 R184 a record has passed
  fresh : Bool := false -- 07 R187 MLK_FRESH: not stale
  identity : List U8 := [] -- 07 R172 identity page
  identityAt : U64 := 0 -- 07 R189 its receive stamp
  present_ : Int := 0 -- 07 R181 value sent now, 0.01 A or 0.1 V
  target : Int := 0 -- 07 R181 ramp target
  rampFrom : Int := 0 -- 07 R181 ramp start value
  rampSteps : Nat := 0 -- 07 R181 ramp length in steps
  rampStep : Nat := 0 -- 07 R181 steps sent; the ramp is complete when they equal its length
  voltMode : Bool := false -- 07 R168 voltage mode
  trackNode : Option (Fin 16) := none -- 07 R182 MATCH: node whose voltage the module follows
  sel : SelCmd := .none -- 07 R168 R182 selector command repeated in the downlink
  vetoed : Bool := false -- 07 R187 MLK_VETOED: awaiting rearm
  rearm : Bool := false -- 07 R178 the next downlink may carry rearm
  vetoFrame : Option U64 := none -- 07 R178 allocation frame of the last source 144 for the module
deriving DecidableEq, Repr

/-- One lane of the module link. -/
structure Lane where
  enable : Bool := false -- 07 R187 MLK_CTRL.lane_enable
  running : Bool := false -- 07 R187 MLK_STATUS.running
  fault : Bool := false -- 07 R187 MLK_STATUS.lane_fault
  selRefused : Bool := false -- 07 R183 a double closure blocks selector actions
  enrolled : BitVec 12 := 0 -- 07 R187 MLK_LANE_STAT.enrolled
  lastOk : BitVec 12 := 0 -- 07 R187 MLK_LANE_STAT.last_ok
  okNow : BitVec 12 := 0 -- 07 R187 slots of the running cycle that passed
  crcCnt : U32 := 0 -- 07 R187 MLK_CRC_CNT(l)
  vetoCnt : U32 := 0 -- 07 R187 MLK_VETO_CNT(l)
  missCnt : U32 := 0 -- 07 R187 MLK_MISS_CNT(l)
  dlErrCnt : U32 := 0 -- 07 R187 MLK_DL_ERR_CNT(l)
  noPass : Nat := 0 -- 07 R185 cycles without a passing slot
  readbackFails : Nat := 0 -- 07 R185 consecutive failed readbacks
  crcThisFrame : Nat := 0 -- 07 R184 MLK_CRC_CNT increments in the present allocation frame
  crcFrame : U64 := 0 -- 07 R184 that allocation frame
  contained : Bool := false -- 11 R281 L2 containment holds the lane's modules at 0 A
  resetUntil : Option U64 := none -- 07 R189 lane held in reset until
  sent : List (BitVec 10) := [] -- 07 R167 the 48 symbols of the downlink frame of the present cycle
  window : Option (Bool × Bool) := none -- 07 R175 the two bits driven in the last veto window of the present cycle
  ran : Bool := false -- 07 R166 the lane sent a downlink in the present cycle
  slots : List U8 := List.replicate 108 0 -- 20 R536 what a trace keeps of the slots of the present cycle
deriving DecidableEq, Repr

/-- A broadcast that waits for its cycle (R169). -/
structure Bcast where
  code : U8 -- 07 R167 bcast
  mask : BitVec 8 -- 07 R169 lanes named
  arg : U16 -- 07 R167 bcast_arg
deriving DecidableEq, Repr

/-- inv: mlk. The module link as a whole. -/
structure ModLink where
  modules : Vector MlkModule 96 := Vector.replicate 96 {} -- 07 R164 the 96 modules
  lanes : Vector Lane 8 := Vector.replicate 8 {} -- 07 R164 the 8 lanes
  cycle : U64 := 0 -- 07 R166 instant of the present cycle start
  vetoMask : BitVec 7 := 0x7F -- 07 R187 MLK_VETO_MASK
  lastVeto : BitVec 7 := 0x7F -- 07 R187 MLK_LAST_VETO.module
  lastVetoCrc : Bool := false -- 07 R187 MLK_LAST_VETO.crc
  lastVetoFault : Bool := false -- 07 R187 MLK_LAST_VETO.fault
  lastVetoOc : Bool := false -- 07 R187 MLK_LAST_VETO.oc
  lastVetoBits : U8 := 0 -- 07 R187 MLK_LAST_VETO.fault_bits
  lastVetoTick : U64 := 0 -- 07 R187 MLK_LAST_VETO_T
  ocThr : Vector U8 16 := Vector.replicate 16 192 -- 07 R187 MLK_OC_THR(n)
  ocTripped : Vector Bool 16 := Vector.replicate 16 false -- 07 R187 MLK_OC_STAT.tripped
  ocAt : Vector U64 16 := Vector.replicate 16 0 -- 07 R177 instant of the last trip
  ocRelAt : Vector U64 16 := Vector.replicate 16 0 -- 07 R174 instant of the last release
  ocLatched : Vector Bool 16 := Vector.replicate 16 false -- 07 R187 MLK_OC_STAT.latched
  bcasts : List Bcast := [] -- 07 R169 broadcasts waiting for their cycle
  enumBusy : Bool := false -- 07 R187 MLK_STATUS.enum_busy
  enumMbx : Option (Fin 4) := none -- 07 R186 mailbox that asked for the enumeration
  enumMask : BitVec 8 := 0 -- 07 R186 lanes being enumerated
  enumAt : Option U64 := none -- 07 R186 cycle whose downlink carries ENUMERATE
  enumOther : Vector (BitVec 12) 8 := Vector.replicate 8 0 -- 07 R189 positions that answered with another version
deriving DecidableEq, Repr

end Sys2Proof.Machine
end

