-- ==== Sys2Proof/Machine/Parts/Protect.lean ====
section
/-! DEFINITION. State of the insulation and residual-current monitors (10_insulation_earth.md), of the safety island
(11_safety.md) and of the load switches (12_load_switches.md). Defaults are reset values. -/

namespace Sys2Proof.Machine

/-- One injection slot for which Sedge has enqueued a DRIVE entry (R239, R240). -/
structure ImdSlot where
  start : U64 := 0 -- 10 R238 S(n, k)
  fired : Bool := false -- 10 R249 its DRIVE entry has resolved FIRED
deriving DecidableEq, Repr

/-- inv: imd[n]. Insulation monitoring of one node. -/
structure ImdNode where
  force : Bool := false -- 10 R256 IMD_CTRL.force
  baselining : Bool := false -- 10 R256 IMD_STATUS.baselining, IMD_NODE_STAT.state 1
  stale : Bool := false -- 10 R250 R256 IMD_NODE_STAT.state 3
  warn : Bool := false -- 10 R256 IMD_ALARM.warn
  fault : Bool := false -- 10 R256 IMD_ALARM.fault
  warnSeen : Bool := false -- 10 R256 IMD_LATCH.warn_seen
  faultSeen : Bool := false -- 10 R256 IMD_LATCH.fault_seen
  rF : BitVec 20 := 0xFFFFF -- 10 R256 IMD_R.r_f
  valid : Bool := false -- 10 R256 IMD_R.valid
  provisional : Bool := false -- 10 R256 IMD_R.provisional
  lowConf : Bool := false -- 10 R256 IMD_R.low_conf
  cN : U16 := 0 -- 10 R256 IMD_C.c_n
  measured : Bool := false -- 10 R256 IMD_C.measured
  cBefore : Option U16 := none -- 10 R248 measured C_n before the close
  connAdded : Bool := false -- 10 R248 a close has added c_conn since the last opening
  uTest : U16 := 0 -- 10 R247 U_test, V; 0 when no session
  cableCheck : BitVec 2 := 0 -- 10 R256 IMD_NODE_STAT.cable_check
  checkFrom : U64 := 0 -- 10 R247 instant the cable check began
  uRun : Nat := 0 -- 10 R247 consecutive samples within 2 % of U_test
  uAt : Option U64 := none -- 10 R247 instant at which 32 such samples had passed
  discards : U8 := 0 -- 10 R256 IMD_NODE_STAT.discards
  restarts : U8 := 0 -- 10 R256 IMD_NODE_STAT.restarts
  blFrom : U64 := 0 -- 10 R249 first event that started the baseline
  blAt : U64 := 0 -- 10 R248 last event that restarted it
  blLate : Bool := false -- 10 R249 not completed in 20 cycles
  blSlots : List (Bool × ImdReading) := [] -- 10 R242 slots collected: polarity and samples
  warnRun : Nat := 0 -- 10 R245 consecutive measurements below R_warn
  warnOkRun : Nat := 0 -- 10 R245 consecutive measurements at or above 1.2 R_warn
  faultOkRun : Nat := 0 -- 10 R245 consecutive measurements at or above 1.2 R_fault
  activeFrom : Option U64 := none -- 10 R250 instant since which the node is active
  baselined : Bool := false -- 10 R257 a baseline has completed
  lowTold : Bool := false -- 10 R257 low_conf has been reported and holds since
  driver : BitVec 2 := 0 -- 10 R239 injection driver: 0 VSS, 1 IMD_INJ_P, 2 IMD_INJ_N
  driverUntil : U64 := 0 -- 10 R239 end of the injection
  slots : List ImdSlot := [] -- 10 R240 slots enqueued whose result is not formed yet
  disturb : List (U64 × U64) := [] -- 10 R249 selector and contactor changes that ended since the last slot
  iOff : Int := 0 -- 10 R258 I_off of the last slot, nA
  lastAt : U64 := 0 -- 10 R258 Tide of the last published measurement
deriving DecidableEq, Repr

/-- inv: imdG. Insulation settings and counts that are one for the device. -/
structure ImdGlobal where
  period : BitVec 2 := 0 -- 10 R256 IMD_CTRL.period
  pendingPeriod : Option (BitVec 2 × U64) := none -- 10 R258 period that takes effect at an instant
  fed : U64 := 0 -- 10 R240 start of the last slot enqueued on ring 160
  rExt : BitVec 10 := 200 -- 10 R256 IMD_NET.r_ext
  cMod : BitVec 7 := 10 -- 10 R256 IMD_NET.c_mod
  cConn : U8 := 20 -- 10 R256 IMD_NET.c_conn
  warnThr : BitVec 11 := 500 -- 10 R256 IMD_THR.warn_thr
  faultThr : BitVec 9 := 100 -- 10 R256 IMD_THR.fault_thr
  discardCnt : U32 := 0 -- 10 R256 IMD_DISCARD_CNT
  railPos : U16 := 0 -- 10 R256 IMD_RAIL.pos
  railNeg : U16 := 0 -- 10 R256 IMD_RAIL.neg
  railBadAt : Option U64 := none -- 10 R250 start of the last cycle in which a rail was out of range
  railRun : Nat := 0 -- 10 R250 consecutive such cycles
deriving DecidableEq, Repr

/-- inv: rcm[f]. Residual-current monitoring of one feeder. -/
structure Rcm where
  tripRms : U16 := 300 -- 10 R256 IMD_RCM_THR.trip_rms
  warnRms : U16 := 150 -- 10 R256 IMD_RCM_THR.warn_rms
  tripDc : U16 := 60 -- 10 R256 IMD_RCM_DCTHR.trip_dc
  iRms : U16 := 0 -- 10 R256 IMD_RCM_VAL I_rms
  iDc : U16 := 0 -- 10 R256 IMD_RCM_VAL I_dc, signed
  maxRms : U16 := 0 -- 10 R258 largest I_rms since cleared
  trip : Bool := false -- 10 R256 IMD_RCM_STAT.trip
  warn : Bool := false -- 10 R256 IMD_RCM_STAT.warn
  lost : Bool := false -- 10 R256 IMD_RCM_STAT.lost
  testFail : Bool := false -- 10 R256 IMD_RCM_STAT.test_fail
  n : Nat := 0 -- 10 R252 samples of the running block
  sum : Int := 0 -- 10 R252 their sum, 2^-149 A
  sumSq : Nat := 0 -- 10 R252 sum of their squares, 2^-298 A^2
  clip : Bool := false -- 10 R252 a clipped sample in the running block
  lossNow : Bool := false -- 10 R254 the measurement was lost within the running block
  tripping : Bool := false -- 10 R252 the last block decided a trip
  dcRun : Nat := 0 -- 10 R252 consecutive blocks at or above trip_dc
  warnRun : Nat := 0 -- 10 R252 consecutive blocks at or above warn_rms
  lowRun : Nat := 0 -- 10 R252 consecutive blocks below 0.9 warn_rms
  lostRun : Nat := 0 -- 10 R254 consecutive blocks without measurement
deriving DecidableEq, Repr

/-- A running residual-current test (R255). -/
structure RcmTest where
  feeder : Fin 2 := 0 -- 10 R255 feeder tested
  channel : Fin 40 := 0 -- 10 R255 high-side channel of the test winding
  start : U64 := 0 -- 10 R255 instant the winding is switched on
  until_ : U64 := 0 -- 10 R255 end of the duration
  mbx : Fin 4 := 0 -- 10 R255 mailbox awaiting the response
  tripAt : Option U64 := none -- 10 R255 instant of a trip by I_rms
  off : Bool := false -- 10 R255 the winding has been switched off
deriving DecidableEq, Repr

/-- The contactor pair of one node and its permits. -/
structure SafNode where
  permitDyke : Bool := false -- 11 R285 SAF_PERMIT Dyke bit n
  permitHw : Bool := false -- 11 R285 SAF_PERMIT hardware bit n
  closed : Bool := false -- 11 R285 SAF_NODE_STAT.closed
  openVerified : Bool := true -- 11 R285 SAF_NODE_STAT.open_verified
  weld : BitVec 2 := 0 -- 11 R285 SAF_NODE_STAT.weld
  lockout : Bool := false -- 11 R285 SAF_LOCKOUT.node
  ovArmed : Bool := false -- 11 R285 SAF_NODE_STAT.ov_armed
  ovThr : U16 := 10500 -- 11 R285 SAF_OV_THR(n)
  overTemp : Bool := false -- 11 R277 the cable over-temperature trip is present
  ovTripped : Bool := false -- 11 R275 the overvoltage comparator is tripped
  backupActed : Bool := false -- 11 R269 the pilot backup of R276 has acted
  pilotBad : Nat := 0 -- 11 R276 consecutive bad pilot periods seen by the hardware channel
  closeAt : Option U64 := none -- 11 R270 turn-on of the pair awaiting confirmation
  openAt : Option U64 := none -- 11 R270 opening awaiting verification
  openLate : Bool := false -- 11 R270 not verified at 10 ms
  lastOpen : U64 := 0 -- 11 R272 last opening
  rampedAt : Option U64 := none -- 11 R274 RAMPED or normal stop in progress since
  rampedFor : Option EndReason := none -- 01 R26 11 R274 the reason with which a RAMPED mode opens the pair
  rampedLock : Option U8 := none -- 11 R274 cause whose node lock-out is set when the ramped stop opens the pair
  weldDue : Bool := false -- 11 R272 the pair has opened and its welding test has not ended
  weldNeed : Bool := false -- 11 R280 marked welded or weld-untested, SAF_WELD_TEST not passed since
  causes : List U8 := [] -- 11 R280 causes of the node lock-out, first one first
  underLoad : Bool := false -- 11 R272 last opening was under load
deriving DecidableEq, Repr

/-- A record of R284, the last eight of which SAF_GET_FAULTS returns. -/
structure FaultRec where
  tick : U64 := 0 -- 11 R284 decision Tide
  cause : U8 := 0 -- 11 R284 cause
  scope : BitVec 5 := 0 -- 11 R284 scope
  base : BitVec 2 := 0 -- 11 R284 base level
  applied : BitVec 2 := 0 -- 11 R284 applied level
  faults : BitVec 2 := 0 -- 11 R287 faults in the episode
deriving DecidableEq, Repr

/-- What a fault, a containment or a lock-out covers (R281). -/
inductive CScope where
  | node (n : Fin 16)
  | lane (l : Fin 8)
  | hub
deriving DecidableEq, Repr

/-- How a scope is opened (R274). -/
inductive OpenMode where
  | immediate | ramped | hubStop | heldOpen
deriving DecidableEq, Repr

/-- One open recovery window of the running episode (R281, R282). -/
structure Containment where
  cause : U8 := 0 -- 11 R281 cause of the fault
  scope : CScope := .hub -- 11 R281 scope of the applied level
  level : Nat := 0 -- 11 R281 applied level
  until_ : U64 := 0 -- 11 R281 end of the recovery window
deriving DecidableEq, Repr

/-- One dual-channel safety input pair (R265, R266). -/
structure SafPair where
  function : BitVec 2 := 0 -- 11 R285 SAF_PAIR_CFG.function
  nodes : U16 := 0 -- 11 R285 SAF_PAIR_CFG.nodes
  acting : Bool := false -- 11 R285 SAF_INPUTS.pair_open
  faultLatched : Bool := false -- 11 R285 SAF_INPUTS.pair_fault
  okPeriods : Nat := 0 -- 11 R265 test-pulse periods without a failed check
  diffSince : Option U64 := none -- 11 R265 instant the two inputs began to differ
deriving DecidableEq, Repr

/-- A running welding test (R272). -/
structure WeldTest where
  module : Fin 96 := 0 -- 11 R272 module used
  joining : Bool := false -- 11 R287 the module joins the node by a hand-over first
  start : U64 := 0 -- 11 R272 instant the module was put in voltage mode
  second : Bool := false -- 11 R272 repeated after an inconclusive result
  byCommand : Option (Fin 4) := none -- 11 R272 mailbox of SAF_WELD_TEST
deriving DecidableEq, Repr

/-- inv: saf. The safety island. -/
structure Safety where
  nodes : Vector SafNode 16 := Vector.replicate 16 {} -- 11 R260 the 16 nodes
  hubPermit : Bool := false -- 11 R285 SAF_STATUS.hub_permit
  ilkClosed : Bool := false -- 11 R285 SAF_STATUS.ilk_closed
  dykeAlive : Bool := false -- 11 R285 SAF_STATUS.dyke_alive
  agree : Bool := false -- 11 R285 SAF_STATUS.agree
  hubLockout : Bool := false -- 11 R285 SAF_STATUS.hub_lockout
  hubCauses : List U8 := [] -- 11 R280 causes of the hub lock-out, first one first
  laneLockout : BitVec 8 := 0 -- 11 R285 SAF_LOCKOUT.lane
  laneCauses : Vector (List U8) 8 := Vector.replicate 8 [] -- 11 R280 causes of each lane lock-out, first one first
  resetArmedUntil : Option U64 := none -- 11 R279 armed reset, until
  cfgOk : Bool := false -- 11 R285 SAF_STATUS.cfg_ok
  cfgCrc : U32 := 0 -- 11 R285 SAF_CFG_CRC
  inputClosed : BitVec 16 := 0 -- 11 R285 SAF_INPUTS.closed
  openSince : Vector (Option U64) 16 := Vector.replicate 16 none -- 11 R265 instant input i began to count as open
  pairs : Vector SafPair 8 := Vector.replicate 8 {} -- 11 R265 the eight pairs
  retA : Bool := false -- 11 R285 SAF_ILK.ret_a_ok
  retB : Bool := false -- 11 R285 SAF_ILK.ret_b_ok
  crossShort : Bool := false -- 11 R285 SAF_ILK.cross_short
  overload : Bool := false -- 11 R285 SAF_ILK.overload
  level : BitVec 2 := 0 -- 11 R285 SAF_EPISODE.level
  episodeFaults : BitVec 2 := 0 -- 11 R285 SAF_EPISODE.faults
  episodeLocks : Bool := false -- 11 R282 a fault of the episode locked out
  episodeSafety : Bool := false -- 11 R282 a fault of the episode is a safety function
  episodeScopes : List CScope := [] -- 11 R282 scopes of the faults of the episode, as they now stand
  windows : List Containment := [] -- 11 R281 open recovery windows
  hubWide : List U8 := [] -- 11 R282 causes contained at level L3 in the episode, which has no recovery time
  records : List FaultRec := [] -- 11 R284 last eight fault records, newest first
deriving DecidableEq, Repr

/-- inv: safX. More of the safety island: reset pulse, timing, counters, disagreement. -/
structure SafetyX where
  width : U16 := 0 -- 11 R285 SAF_RESET_STAT.width
  valid : Bool := false -- 11 R285 SAF_RESET_STAT.valid
  rejected : U8 := 0 -- 11 R285 SAF_RESET_STAT.rejected
  tTrip : U8 := 130 -- 11 R285 SAF_TIMING.t_trip
  ovMargin : U8 := 50 -- 11 R285 SAF_TIMING.ov_margin
  tDrop : U8 := 3 -- 11 R285 SAF_TIMING.t_drop
  lastTick : U64 := 0 -- 11 R285 SAF_LAST_FAULT_T
  last : FaultRec := {} -- 11 R285 SAF_LAST_FAULT
  loadOpenCnt : U32 := 0 -- 11 R285 SAF_LOAD_OPEN_CNT
  tpFaultCnt : U32 := 0 -- 11 R285 SAF_TP_FAULT_CNT
  weldTests : Vector (Option WeldTest) 16 := Vector.replicate 16 none -- 11 R272 running welding tests
  tripsOpen : List (Bool × Nat × U64) := [] -- 11 R262 trips of one channel not yet matched by the other
  pulseAt : Option U64 := none -- 11 R264 last test-pulse period
  decided : List (Bool × Nat × U64) := [] -- 11 R262 trips that Dyke (true) or the hardware channel (false) has decided, with the function and the instant
  published : List (Bool × Nat × U64) := [] -- 11 R262 those decisions as the channels published them at the last period start
deriving DecidableEq, Repr

/-- One high-side channel (R288 to R298). -/
structure HsChan where
  mode : BitVec 2 := 0 -- 12 R307 LSW_HS_CFG.mode
  curve : BitVec 3 := 0 -- 12 R307 LSW_HS_CFG.curve
  slew : BitVec 2 := 1 -- 12 R307 LSW_HS_CFG.slew
  otLatchEn : Bool := false -- 12 R307 LSW_HS_CFG.ot_latch
  openEn : Bool := false -- 12 R307 LSW_HS_CFG.open_en
  shedPrio : BitVec 2 := 3 -- 12 R307 LSW_HS_CFG.shed_prio
  cmdOn : Bool := false -- 12 R307 LSW_HS_STAT.cmd_on
  outOn : Bool := false -- 12 R307 LSW_HS_STAT.out_on
  limit : Bool := false -- 12 R307 LSW_HS_STAT.limit
  ocTrip : Bool := false -- 12 R307 LSW_HS_STAT.oc_trip
  ot : Bool := false -- 12 R307 LSW_HS_STAT.ot
  otLatched : Bool := false -- 12 R307 LSW_HS_STAT.ot_latched
  shortGnd : Bool := false -- 12 R307 LSW_HS_STAT.short_gnd
  shortVin : Bool := false -- 12 R307 LSW_HS_STAT.short_vin
  tied : Bool := false -- 12 R307 LSW_HS_STAT.tied
  openLoad : Bool := false -- 12 R307 LSW_HS_STAT.open_load
  shed : Bool := false -- 12 R307 LSW_HS_STAT.shed
  limp : Bool := false -- 12 R307 LSW_HS_STAT.limp
  duty : BitVec 10 := 1000 -- 12 R307 LSW_HS_STAT.duty
  pendingDuty : Option (BitVec 10 × U64) := none -- 12 R291 duty from the PWM period that starts at an instant
  heat : Nat := 0 -- 12 R294 wire heat H, in units of 1 / 11,520,000,000,000
  current : U16 := 0 -- 12 R307 LSW_HS_MEAS current, mA
  voltage : U16 := 0 -- 12 R307 LSW_HS_MEAS output voltage, 10 mV
  onAt : U64 := 0 -- 12 R293 instant of the last turn-on or turn-off
  firedAt : Option U64 := none -- 12 R298 fire tick of its last ON
  restarts : List U64 := [] -- 12 R296 instants of thermal restarts in the last 10 s
  measAt : U64 := 0 -- 12 R289 Tide stamp of the last measurement
  lastAct : U64 := 0 -- 12 R297 Tide stamp of the last protective action
deriving DecidableEq, Repr

/-- Diagnostic counters of one high-side channel (R298). -/
structure HsDiag where
  peakRun : Nat := 0 -- 12 R294 consecutive measurements at or above 1.6 A
  gndRun : Nat := 0 -- 12 R298 consecutive measurements toward short to ground
  vinRun : Nat := 0 -- 12 R298 consecutive measurements toward short to supply
  lowAt : Option U64 := none -- 12 R298 last measurement below 20 % of VIN_SYS while off
  openRun : Nat := 0 -- 12 R298 consecutive measurements toward open load
deriving DecidableEq, Repr

/-- One low-side channel and its economiser (R300 to R303). -/
structure LsChan where
  cmdOn : Bool := false -- 12 R307 LSW_LS_STAT.cmd_on
  conducting : Bool := false -- 12 R307 LSW_LS_STAT.conducting
  econ : BitVec 2 := 0 -- 12 R307 LSW_LS_STAT.econ
  headroom : Bool := false -- 12 R307 LSW_LS_STAT.headroom
  ocLatch : Bool := false -- 12 R307 LSW_LS_STAT.oc_latch
  otLatch : Bool := false -- 12 R307 LSW_LS_STAT.ot_latch
  coilOpen : Bool := false -- 12 R307 LSW_LS_STAT.coil_open
  stuck : Bool := false -- 12 R307 LSW_LS_STAT.stuck
  decaySlow : Bool := false -- 12 R307 LSW_LS_STAT.decay_slow
  duty : BitVec 10 := 0 -- 12 R307 LSW_LS_STAT.duty
  current : U16 := 0 -- 12 R307 LSW_LS_MEAS coil current, mA
  voltage : U16 := 0 -- 12 R307 LSW_LS_MEAS drain voltage, 10 mV
  iPull : U8 := 120 -- 12 R307 LSW_COIL.i_pull
  iPin : U8 := 100 -- 12 R307 LSW_COIL.i_pin
  iHold : U8 := 25 -- 12 R307 LSW_COIL.i_hold
  iDrop : U8 := 15 -- 12 R307 LSW_COIL.i_drop
  tPull : BitVec 7 := 60 -- 12 R307 LSW_COIL_T.t_pull
  supply : BitVec 6 := 0x3F -- 12 R307 LSW_COIL_T.supply
  rCoil : U16 := 160 -- 12 R307 LSW_COIL_T.r_coil
  waitOn : Bool := false -- 12 R301 Dyke holds the turn-on until the other node's pull phase ends
  lastClosed : U64 := 0 -- 12 R309 instant of the last confirmed closing
  turnOn : U64 := 0 -- 12 R301 instant of the last turn-on
  turnOff : U64 := 0 -- 12 R301 instant of the last turn-off
  learned : Bool := false -- 12 R301 r_coil learned since the last turn-on
  holdAt : U64 := 0 -- 12 R301 start of the hold phase
  learnV : Nat := 0 -- 12 R301 sum of VIN_SYS times duty over the 10 ms of the mean
  learnI : Nat := 0 -- 12 R301 sum of the coil current over those 10 ms
  fullRun : Nat := 0 -- 12 R302 consecutive measurements at full duty below i_hold in the hold phase
  openRun : Nat := 0 -- 12 R303 consecutive measurements toward coil open
  measAt : U64 := 0 -- 12 R289 Tide stamp of the last measurement
deriving DecidableEq, Repr

/-- inv: lsw. The switches as a whole. -/
structure Switches where
  hs : Vector HsChan 40 := Vector.replicate 40 {} -- 12 R288 high-side channels
  hsDiag : Vector HsDiag 40 := Vector.replicate 40 {} -- 12 R298 their diagnostic counters
  ls : Vector LsChan 16 := Vector.replicate 16 {} -- 12 R300 low-side channels
  vinOk : Bool := false -- 12 R307 LSW_STATUS.vin_ok
  vin : U16 := 0 -- 12 R307 LSW_VIN, 10 mV
  pkgWarn : Bool := false -- 12 R307 LSW_STATUS.pkg_warn
  shedding : Bool := false -- 12 R307 LSW_STATUS.shedding
  shedRun : Bool := false -- 12 R304 the mean has been above 12.0 A and not below 11.0 A since
  sum : U16 := 0 -- 12 R307 LSW_ISUM present sum, mA
  mean : U16 := 0 -- 12 R307 LSW_ISUM 1 s mean, mA
  window : List Nat := [] -- 12 R304 sums of the last 1,000 ms, newest first
  lastShed : Option U64 := none -- 12 R304 instant of the last shed
  pkgAt : Option U64 := none -- 12 R304 last check of the package current
  tripCnt : U32 := 0 -- 12 R307 LSW_TRIP_CNT
  shedCnt : U32 := 0 -- 12 R307 LSW_SHED_CNT
  limpMap : Vector (BitVec 4) 40 := Vector.replicate 40 0 -- 12 R307 LSW_LIMP_MAP: bits 2:0 input, bit 3 mapped
  limpInputs : U8 := 0 -- 12 R307 LSW_LIMP_STAT.inputs
  limpActive : Bool := true -- 12 R307 LSW_LIMP_STAT.active
  limpValid : Bool := false -- 12 R307 LSW_LIMP_STAT.map_valid
  limpCrc : U32 := 0 -- 12 R307 LSW_LIMP_CRC
deriving DecidableEq, Repr

end Sys2Proof.Machine
end

