-- ==== Sys2Proof/Machine/Parts/Store.lean ====
section
/-! DEFINITION. The addressed memories of the device as canonical sparse byte lists, and the state of the Peat store
(13_peat_store.md), of Saltern, Carr and Brine (14_billing.md) and of the key store (15_keys.md). -/

namespace Sys2Proof.Machine

/-- An addressed memory: the bytes that differ from 0, addresses strictly rising. An unlisted address reads as 0. -/
abbrev Memory := List Host.Cell

/-- One record of the key index (R395, R396). -/
structure KeySlot where
  usage : BitVec 4 := 0 -- 15 R396 R406 KEY_SLOT.usage
  curve : BitVec 2 := 0 -- 15 R396 R406 KEY_SLOT.curve
  bound : Bool := false -- 15 R396 R406 KEY_SLOT.bound, the policy
  gen : U32 := 0 -- 15 R396 R406 KEY_SLOT_GEN
  pub : List U8 := [] -- 15 R396 public key, 97 bytes
  digest : List U8 := [] -- 15 R396 SHA-256 of the blob of a private slot
deriving DecidableEq, Repr

/-- Big-endian bytes of a number. -/
def beBytes' : Nat → Nat → List U8
  | 0, _ => []
  | n + 1, v => BitVec.ofNat 8 (v / 256 ^ n) :: beBytes' n v

/-- What becomes of the device when the last line of a request has been checked. -/
inductive StoreAct where
  /-- nothing beyond the lines themselves -/
  | lines
  /-- a legal log entry, whose sequence is assigned at the grant (R519) -/
  | legalEntry
  /-- counter `k` reaches `v` (R341); a mailbox may await it (R346) -/
  | counter (k : Fin 64) (v : Nat) (mbx : Option (Fin 4))
  /-- the settings in force are the stored settings -/
  | settings
  /-- a seal of the LEGAL journal (R322): its kind, epoch and stamp -/
  | seal (kind : Nat) (epoch : U32) (stamp : U64)
  /-- the last line that a clear of the legal log blanks (R529) -/
  | clearDone
  /-- a record of the key index is written; the mailbox is answered with `payload` (R401); `op` of the message -/
  | keySlot (k : Fin 16) (rec_ : KeySlot) (op : U8) (mbx : Fin 4) (payload : List U8)
  /-- the update record is written (R504) -/
  | update
  /-- the legal configuration is written (R105, R356); a mailbox may await it with a payload -/
  | legal (mbx : Option (Fin 4 × List U8))
  /-- a command that answers once its line is checked -/
  | answer (mbx : Fin 4) (payload : List U8)
  /-- the home record that closes the ledger of connector `n` (R375) -/
  | ledger (n : Fin 16)
  /-- the lease mark of the operational sequence numbers (R525) -/
  | lease (mark : U64)
deriving DecidableEq, Repr

/-- A request of one Peat store requester (R314): consecutive lines and their bytes. -/
structure PeaRequest where
  first : Nat := 0 -- 13 R314 next logical line to write
  content : List (List U8) := [] -- 13 R314 the bytes of the lines still to write, 64 each
  act : StoreAct := .lines -- 13 R311 what follows the check of the last line
deriving DecidableEq, Repr

/-- inv: arb.reqs[r]. One requester of the write-port arbiter (R331 to R340). -/
structure Requester where
  queue : List PeaRequest := [] -- 13 R332 requests raised, oldest first
  losses : BitVec 4 := 0 -- 13 R344 PEA_REQ_STAT.losses
  k : BitVec 3 := 0 -- 13 R344 PEA_REQ_STAT.k
  backingOff : Bool := false -- 13 R344 PEA_REQ_STAT.backing_off
  forced : Bool := false -- 13 R344 PEA_ARB_STAT.forced
  masked : Bool := false -- 13 R344 PEA_ARB_STAT.masked
  exempt : Bool := false -- 13 R344 PEA_ARB_CFG.exempt
  forcedWins : U16 := 0 -- 13 R344 PEA_REQ_CNT.forced_wins
  withdrawals : U8 := 0 -- 13 R344 PEA_REQ_CNT.withdrawals
  revocations : U8 := 0 -- 13 R344 PEA_REQ_CNT.revocations
  rejected : Bool := false -- 13 R314 status of the last request: rejected
  revoked : Bool := false -- 13 R340 status of the last grant: revoked
deriving DecidableEq, Repr

/-- The store as delivered (R395): the line of counter 3 at value 1, in line
56,845 of the COUNTERS partition (R341), with its CRC-32C; every other line blank. -/
def deliveredLines : Memory :=
  [(3638080, 1), (3638084, 3), (3638136, 0xFE), (3638137, 0xFF), (3638138, 0xFF), (3638139, 0xFF)
  , (3638140, 19), (3638141, 175), (3638142, 94), (3638143, 226)]

/-- inv: pea. The Peat store: contents, wear, recovery, counters. -/
structure Peat where
  lines : Memory := deliveredLines -- 13 R310 15 R395 the 65,536 logical lines of 64 bytes, byte address 64 * line + offset
  badLines : List Nat := [] -- 13 R316 lines found with an uncorrectable error and not written since
  ready : Bool := false -- 13 R344 PEA_STATUS.ready
  gap : Nat := 65536 -- 13 R317 leveller position of the gap
  writesSinceGap : Nat := 0 -- 13 R317 line writes since the last gap move
  lastGap : U64 := 0 -- 13 R317 instant of the last gap move
  moves : Nat := 0 -- 13 R317 gap moves since manufacture, which give the mapping of the lines
  totalWrites : Nat := 0 -- 13 R318 line writes since manufacture, PEA_WEAR
  wearWarned : Bool := false -- 13 R318 source 395 has been raised
  buckets : List (Nat × Nat) := [] -- 13 R344 lines written in each of the last 3,600 s: second, lines; PEA_RATE
  eccCnt : U32 := 0 -- 13 R344 PEA_ECC_CNT
  eccTimes : List U64 := [] -- 13 R315 instants of the last 65 corrections, newest first
  ueCnt : U32 := 0 -- 13 R344 PEA_UE_CNT
  ueLine : U32 := 0xFFFFFFFF -- 13 R344 PEA_UE_LINE
  ue : Bool := false -- 13 R344 PEA_STATUS.ue
  rejectCnt : U32 := 0 -- 13 R344 PEA_REJECT_CNT
  settingsB : Bool := false -- 13 R344 PEA_STATUS.settings_area
  ctr : Vector U32 64 := (Vector.replicate 64 0).set 3 1 -- 13 R341 15 R395 value of each monotonic counter
  ctrExh : BitVec 64 := 0 -- 13 R344 PEA_CTR_EXH_LO/HI
  ctrWarn : BitVec 64 := 0 -- 13 R344 PEA_CTR_WARN_LO/HI
  epoch : U32 := 0 -- 13 R344 PEA_EPOCH
  planned : U32 := 0 -- 13 R323 number of the last epoch Carr has begun
  deltas : Nat := 0 -- 13 R323 delta epochs since the last checkpoint
  head : Nat := 0 -- 13 R325 write head of the journal ring, lines from 64
  prevSeal : U32 := 0 -- 13 R322 CRC of the last seal
  lastItems : List (U32 × Acc) := [] -- 13 R323 item values as the last epoch held them
  ledgerHead : Nat := 0 -- 13 R326 write head of the ledger ring, lines from 43,520
  outcome : BitVec 3 := 0 -- 13 R344 PEA_RECOVERY.outcome
  ledgerDiscard : Bool := false -- 13 R344 PEA_RECOVERY.ledger_discard
  discarded : U16 := 0 -- 13 R344 PEA_RECOVERY.discarded
  recStamp : U64 := 0 -- 13 R346 stamp of the last applied epoch
  recEpoch : U32 := 0 -- 13 R346 its number
  recRtc : U64 := 0 -- 13 R346 its clock time
  recKind : U8 := 0 -- 13 R346 its kind
  lastDelta : Option U64 := none -- 13 R323 stamp of the last delta or checkpoint
  writes : Nat := 0 -- 13 R320 free-layout lines written, the model's own counter of free values
deriving DecidableEq, Repr

/-- inv: arb. The write-port arbiter and its freeze. -/
structure Arbiter where
  reqs : Vector Requester 6 := Vector.replicate 6 {} -- 13 R331 the six requesters
  cur : Option (Fin 6) := none -- 13 R344 PEA_ARB_STAT.owner and busy: requester of the line in progress
  win : Option (Fin 6) := none -- 13 R332 winner of the last decision, its first beat not started
  park : Option (Fin 6) := none -- 13 R344 PEA_ARB_STAT.owner and parked: the parked owner
  waitLimit : BitVec 4 := 8 -- 13 R344 PEA_ARB_CFG.wait_limit
  frozen : Bool := false -- 13 R344 PEA_STATUS.frozen
  drained : Bool := false -- 13 R344 PEA_STATUS.drained
  byPowerFail : Bool := false -- 13 R339 the freeze in force is the power-fail freeze
  byDump : Bool := false -- 20 R531 the freeze in force is the dump freeze
  freezeMbx : Option (Fin 4) := none -- 13 R339 R346 mailbox awaiting the drain
  fresh : Option Bool := none -- 13 R336 R337 the line in progress found the port idle: by a decision (true) or as the parked owner; its first beat may not have started
  reads : List (Fin 4 × List U8) := [] -- 13 R315 reads that wait for the line in progress: mailbox, bit errors of the lines
deriving DecidableEq, Repr

/-- inv: pf. Power-fail handling (R327 to R330). -/
structure PowerFail where
  warn : Bool := false -- 13 R344 PEA_STATUS.pf_warn
  active : Bool := false -- 13 R344 PEA_STATUS.pf_active
  vinMon : Bool := true -- 13 R344 PEA_STATUS.vin_mon
  pin : Bool := false -- 13 R344 PEA_PF_STAT.pfw_pin
  vinLow : Bool := false -- 13 R344 PEA_PF_STAT.vin_low
  committed : Bool := false -- 13 R344 PEA_PF_STAT.committed
  late : Bool := false -- 13 R344 PEA_PF_STAT.late
  trailing : BitVec 5 := 0 -- 13 R344 PEA_PF_STAT.trailing
  quiescent : Bool := false -- 13 R344 PEA_PF_STAT.quiescent
  cleared : Bool := false -- 13 R344 PEA_PF_STAT.cleared
  at_ : U64 := 0 -- 13 R344 PEA_PF_TIDE: W
  time : U32 := 0 -- 13 R344 PEA_PF_TIME
  cut : Option U64 := none -- 13 R328 cut instant C whose state is still to be committed
  begun : Bool := false -- 13 R329 the power-fail commit has been requested
  sealedAt : Option U64 := none -- 13 R328 instant its seal was checked
  overdue : Bool := false -- 13 R329 20 ms have passed since W
deriving DecidableEq, Repr

/-- Delivered and received energy of one tariff (R349). -/
structure TariffReg where
  del : Acc := 0 -- 14 R349 delivered energy, 2^-32 Wh
  rec_ : Acc := 0 -- 14 R349 received energy, 2^-32 Wh
deriving DecidableEq, Repr

/-- inv: legal[n]. The legal items of one connector: its own registers and those of its open session (R348, R349). -/
structure LegalConn where
  number : U32 := 0 -- 14 R379 SLT_SESSION(n)
  del : Acc := 0 -- 05 R115 session delivered
  rec_ : Acc := 0 -- 05 R115 session received
  attImp : Acc := 0 -- 05 R115 session attributed import
  attExp : Acc := 0 -- 05 R115 session attributed export
  range : Bool := false -- 05 R112 range flag of the session registers
  unproven : Bool := false -- 05 R36 unproven flag of the session registers
  attUnproven : Bool := false -- 05 R121 unproven flag of the attributed registers
  attRange : Bool := false -- 05 R121 range flag of the attributed registers
  tariffs : Vector TariffReg 16 := Vector.replicate 16 {} -- 14 R349 session registers by tariff
  cDel : Nat := 0 -- 14 R373 C_del
  cRec : Nat := 0 -- 14 R373 C_rec
  token : List U8 := List.replicate 16 0 -- 14 R368 token
  mode : BitVec 3 := 0 -- 14 R368 authorisation mode of the session
  eligible : Bool := false -- 14 R357 an eligible sample in the running interval
  started : Bool := false -- 14 R361 SESSION_START reading taken
  ended : Bool := false -- 14 R361 SESSION_END reading taken
  connTariffs : Vector TariffReg 16 := Vector.replicate 16 {} -- 14 R349 connector registers by tariff
  connRange : Bool := false -- 14 R360 range flag of the connector registers
  connUnproven : Bool := false -- 14 R360 unproven flag of the connector registers
deriving DecidableEq, Repr

/-- One entry of a signed reading (R360). -/
structure ReadingEntry where
  id : U32 := 0 -- 14 R360 item identity
  value : U64 := 0 -- 14 R360 value
  flags : U8 := 0 -- 14 R360 flags
deriving DecidableEq, Repr

/-- One reading (R359): its header fields that are fixed when the values are, its entries, and its signature. -/
structure Reading where
  kind : U8 := 0 -- 14 R359 kind
  connector : U8 := 0xFF -- 14 R359 connector
  sequence : U32 := 0 -- 14 R359 sequence
  session : U32 := 0 -- 14 R359 session
  stamp : U64 := 0 -- 14 R359 stamp
  utc : U64 := 0 -- 14 R359 utc
  rtc : U64 := 0 -- 14 R359 rtc, filled when signed
  utcNew : U64 := 0 -- 14 R359 utc_new
  tariff : U8 := 0 -- 14 R359 tariff
  endReason : U8 := 0 -- 14 R359 end_reason
  flags : U8 := 0 -- 14 R359 flags
  timeSrc : U8 := 0 -- 14 R359 time_src
  calendar : U32 := 0 -- 14 R359 calendar
  check : U32 := 0 -- 14 R359 check
  entries : List ReadingEntry := [] -- 14 R359 entries
  signature : List U8 := [] -- 14 R360 signature, empty until signed
  failures : Nat := 0 -- 14 R362 failed signatures so far
  retryAt : Option U64 := none -- 14 R362 instant of the next retry
  noBuffer : Bool := false -- 14 R365 kept unsigned because no buffer remained
deriving DecidableEq, Repr

/-- A signed reading in the buffers that Saltern holds (R365). -/
structure HeldReading where
  sequence : U32 := 0 -- 14 R365 reading sequence number
  started : Bool := false -- 14 R362 a part has been enqueued
  bufs : List Nat := [] -- 14 R365 buffers of the parts not yet enqueued, as agent 9
deriving DecidableEq, Repr

/-- One boundary event Carr has planned (R355). -/
structure Boundary where
  time : U64 := 0 -- 14 R355 fire time
  mask : BitVec 3 := 0 -- 14 R355 mask
  tariff : BitVec 4 := 0 -- 14 R355 new tariff
  late : Bool := false -- 14 R355 boundary_late
  sent : Bool := false -- 14 R355 its entry has been enqueued
deriving DecidableEq, Repr

/-- What a boundary entry that fired leaves to do once the sample of its instant is applied (R350, R354, R357). -/
structure Closing where
  stamp : U64 := 0 -- 14 R350 fire instant
  interval : Bool := false -- 14 R357 the running interval closes
  activated : Bool := false -- 14 R354 a calendar has been activated
  late : Bool := false -- 14 R355 boundary_late
  split : Bool := false -- 14 R358 a clock adjustment
  oldTime : U64 := 0 -- 14 R358 old legal time, s
  newTime : U64 := 0 -- 14 R358 new legal time, s
deriving DecidableEq, Repr

/-- inv: slt. Saltern and Carr. -/
structure Saltern where
  running : Bool := false -- 14 R379 SLT_STATUS.running
  calActive : List U8 := [] -- 14 R351 active calendar, 1,456 bytes, empty for none
  calPassive : List U8 := [] -- 14 R351 passive calendar, empty for none
  timeSrc : BitVec 2 := 0 -- 14 R379 SLT_STATUS.time_src
  tamper : Bool := false -- 14 R379 SLT_STATUS.tamper
  tariff : BitVec 4 := 0 -- 14 R379 SLT_STATUS.tariff
  carrCheck : U32 := 0 -- 14 R379 SLT_CARR_CHECK
  readingSeq : U32 := 0 -- 14 R379 SLT_READING_SEQ
  sessionNext : U32 := 1 -- 14 R379 SLT_SESSION_NEXT
  interval : U8 := 15 -- 14 R379 SLT_INTERVAL_CFG.interval
  pendingInterval : Option U8 := none -- 14 R356 interval length from the end of the running interval
  clockLimit : U8 := 2 -- 14 R379 SLT_INTERVAL_CFG.clock_limit
  readingQueue : U16 := 0xFFFF -- 14 R379 SLT_INTERVAL_CFG.reading_queue
  intStart : U64 := 0 -- 14 R379 SLT_INT_START
  clockAdjCnt : U32 := 0 -- 14 R379 SLT_CLOCK_ADJ_CNT
  signFailures : BitVec 24 := 0 -- 14 R379 SLT_SIGN_STAT.failures
  hold : BitVec 10 := 60 -- 14 R379 SLT_OUTPUT.hold
  planned : List Boundary := [] -- 14 R355 boundaries planned
  oldTariff : BitVec 4 := 0 -- 14 R350 tariff before the last switch
  oldCal : List U8 := [] -- 14 R350 R354 active calendar before the last switch
  switchAt : Option U64 := none -- 14 R350 instant of the last switch: samples stamped up to it use the old values
  closing : Option Closing := none -- 14 R357 what waits for the sample of that instant to be applied
  signing : List Reading := [] -- 14 R362 readings waiting for the signature engine
  unsigned_ : List Reading := [] -- 14 R362 readings held unsigned
  held : List HeldReading := [] -- 14 R365 signed readings held in buffers, in sequence order
  heldLimit : Bool := false -- 14 R365 the held buffers have reached 8,192 and not since fallen below 7,168
  heldTryAt : U64 := 0 -- 17 R459 last time a buffer was refused with FULL
  hubTariffs : Vector TariffReg 16 := Vector.replicate 16 {} -- 14 R349 hub registers by tariff
deriving DecidableEq, Repr

/-- inv: auth[n]. The authorisation decision of one connector (R368). -/
structure AuthHold where
  state : BitVec 2 := 0 -- 14 R379 SLT_AUTH.state
  mode : BitVec 3 := 0 -- 14 R379 SLT_AUTH.mode
  until_ : U64 := 0 -- 14 R379 SLT_AUTH.remaining: instant the hold ends
  wallet : BitVec 12 := 0 -- 14 R379 SLT_AUTH.wallet
  requested : U64 := 0 -- 14 R382 requested reservation
  token : List U8 := [] -- 14 R368 token
  accept : Bool := false -- 14 R368 held decision is an acceptance
deriving DecidableEq, Repr

/-- inv: backup. The backup (VBAT) domain: real-time clock and tamper record (R366, R367). -/
structure Backup where
  rtc : U64 := 0 -- 14 R366 real-time clock, 1/32,768 s
  rtcValid : Bool := false -- 14 R347 the clock has been set and VBAT not lost since
  marker : Bool := false -- 14 R367 the domain's validity marker
  vbatLost : Bool := false -- 14 R379 SLT_TAMPER.vbat_lost
  enabled : BitVec 4 := 3 -- 14 R379 SLT_TAMPER.enabled
  open_ : BitVec 4 := 0 -- 14 R379 SLT_TAMPER.open
  lastSample : BitVec 4 := 0 -- 14 R366 state of the inputs at the last sample
  events : List (List U8) := [] -- 14 R366 stored tamper events, 8 bytes each
  overflow : U8 := 0 -- 14 R379 SLT_TAMPER.overflow
  logWait : Bool := false -- 14 R367 the VBAT_LOST entry awaits the first legal time
  onVbat : Bool := false -- 22 R565 the domain runs from VBAT
deriving DecidableEq, Repr

/-- One wallet's home record (R369). -/
structure Wallet where
  balance : U64 := 0 -- 14 R369 balance
  toppedUp : U64 := 0 -- 14 R369 topped_up
  refunded : U64 := 0 -- 14 R369 refunded
  spent : U64 := 0 -- 14 R369 spent
  ledgerSeq : U64 := 0 -- 14 R369 ledger_seq
  lastSeq : U32 := 0 -- 14 R369 last_seq
  state : U8 := 0 -- 14 R369 state: 0 UNUSED, 1 ACTIVE, 2 BLOCKED, 3 UNPROVEN
deriving DecidableEq, Repr

/-- One connector's session ledger (R372 to R375). -/
structure Ledger where
  wallet : BitVec 12 := 0 -- 14 R380 BRI_LEDGER_STAT.wallet
  state : BitVec 2 := 0 -- 14 R380 BRI_LEDGER_STAT.state
  uncoveredFlag : Bool := false -- 14 R380 BRI_LEDGER_STAT.uncovered
  balance : U64 := 0 -- 14 R380 BRI_LEDGER(n)
  reserved : U64 := 0 -- 14 R348 reserved credit
  debited : U64 := 0 -- 14 R348 debited
  uncovered : U64 := 0 -- 14 R348 uncovered
  returned : U64 := 0 -- 14 R348 returned
  due : U64 := 0 -- 14 R373 cost due already taken
  epochDebit : U64 := 0 -- 14 R377 net debit over the running epoch period
  hi : U32 := 0 -- 14 R380 BRI_LEDGER_HI(n)
deriving DecidableEq, Repr

/-- inv: bri. Brine. -/
structure Brine where
  running : Bool := false -- 14 R380 BRI_STATUS.running
  balanced : Bool := false -- 14 R380 BRI_STATUS.balanced
  wallets : List (Nat × Wallet) := [] -- 14 R369 wallets 0-4,095 by number, an unlisted one UNUSED and empty
  ledgers : Vector Ledger 16 := Vector.replicate 16 {} -- 14 R372 session ledgers
  spent : U64 := 0 -- 14 R380 BRI_SPENT
  topup : U64 := 0 -- 14 R380 BRI_TOPUP
  refund : U64 := 0 -- 14 R380 BRI_REFUND
  seq : U64 := 0 -- 14 R380 BRI_SEQ
  rejectCnt : U32 := 0 -- 14 R380 BRI_REJECT_CNT
  keySlot : BitVec 4 := 0 -- 14 R380 BRI_CFG.key_slot
  tStop : BitVec 6 := 5 -- 14 R380 BRI_CFG.t_stop
  minRes : U32 := 0 -- 14 R380 BRI_MIN_RES
  spentHi : U32 := 0 -- 14 R380 BRI_SPENT_HI
  topupHi : U32 := 0 -- 14 R380 BRI_TOPUP_HI
  refundHi : U32 := 0 -- 14 R380 BRI_REFUND_HI
  seqHi : U32 := 0 -- 14 R380 BRI_SEQ_HI
deriving DecidableEq, Repr

/-- A request of the signature engine (R405). -/
inductive EngineJob where
  /-- Carr signs the reading with this sequence number -/
  | reading (seq : U32)
  /-- an operation of the TLS handshake of a connector (R226) -/
  | tls (connector : Fin 16)
  /-- any other signature or verification -/
  | other
deriving DecidableEq, Repr

/-- The curve of a request of the signature engine (R64). -/
inductive EngineOp where
  | p256
  | p384
deriving DecidableEq, Repr

/-- What a unit of the signature engine works on: the request, its curve, and its acceptance instant (R64). -/
structure EngineWork where
  job : EngineJob := .other -- 15 R405 the request
  op : EngineOp := .p256 -- 03 R64 the operation
  at_ : U64 := 0 -- 03 R64 the acceptance instant a
deriving DecidableEq, Repr

/-- How the last request of a unit ended (R67). -/
inductive EngineEnd where
  | done
  | failed
  | overrun
deriving DecidableEq, Repr

/-- A working register of the key store: a secret held as two shares (R392). -/
structure Share where
  s1 : List U8 := [] -- 15 R392 s1 = key XOR m
  s2 : List U8 := [] -- 15 R392 s2 = m
deriving DecidableEq, Repr

/-- inv: key. The key store and its signature engine. -/
structure KeyStore where
  pufOk : Bool := false -- 15 R406 KEY_STATUS.puf_ok
  keysReady : Bool := false -- 15 R406 KEY_STATUS.keys_ready
  rngOk : Bool := false -- 15 R406 KEY_STATUS.rng_ok
  erased : Bool := false -- 15 R406 KEY_STATUS.erased
  claimed : Bool := false -- 15 R406 KEY_STATUS.slot0_claimed
  replay : Bool := false -- 15 R406 KEY_STATUS.replay
  switchWait : Bool := false -- 15 R406 KEY_STATUS.carr_switch_wait
  pufMargin : Bool := false -- 15 R406 KEY_STATUS.puf_margin
  attempts : BitVec 2 := 0 -- 15 R406 KEY_PUF.attempts
  corrected : U8 := 0 -- 15 R406 KEY_PUF.corrected
  tries : Nat := 0 -- 15 R385 attempts made at this start
  retryAt : Option U64 := none -- 15 R385 instant the PUF block was powered off for a retry
  serial : U64 := 0 -- 15 R406 KEY_SERIAL_LO/HI
  remaskCnt : U32 := 0 -- 15 R406 KEY_REMASK_CNT
  lastRemask : U64 := 0 -- 15 R392 instant of the last re-mask pass
  rejectCnt : U32 := 0 -- 15 R406 KEY_REJECT_CNT
  rngFailCnt : U32 := 0 -- 15 R406 KEY_RNG_FAIL_CNT
  started : Bool := false -- 21 R558 the key store has started: KEY_SLOT and KEY_SLOT_GEN show the index
  index : Vector KeySlot 16 := vgen 16 fun k =>
    if k.val = 3 then { usage := 4, curve := 2, gen := 1, pub := beBytes' 97 Config.koanfaKey.toNat } else {} -- 15 R396 the key index, kept in KEYSTORE
  shares : Vector Share 19 := Vector.replicate 19 {} -- 15 R392 working registers: CDI_0, CDI_3, CDI_4, DeviceID, alias, legal, replay, slots 4-15
  pubs : Vector (List U8) 4 := Vector.replicate 4 [] -- 15 R389 public keys of DeviceID, alias, legal, replay
  loaded : BitVec 16 := 0 -- 15 R406 KEY_SLOT.loaded
  challenge : Option (List U8 × U64) := none -- 15 R402 outstanding challenge and its expiry
  units : Vector (Option EngineWork) 4 := Vector.replicate 4 none -- 15 R405 R406 KEY_ENGINE.busy
  ends : Vector (Option EngineEnd) 4 := Vector.replicate 4 none -- 03 R67 status with which the last request of each unit ended
  queues : Vector (List (EngineJob × EngineOp)) 3 := Vector.replicate 3 [] -- 15 R405 R406 KEY_ENGINE queue0, queue1, queue2
  rngUses : Nat := 0 -- 15 R394 requests since the last reseed
  rngAt : U64 := 0 -- 15 R394 instant of the last reseed or of the last retry
  maskWait : BitVec 19 := 0 -- 15 R392 registers in use at the last pass, re-masked when their operations end
  messages : List (Fin 4) := [] -- 15 R401 mailboxes of the key-update messages taken, the first in progress
  draws : Nat := 0 -- 15 R394 random bytes drawn, the model's own counter of free values
  pufBurned : Bool := false -- 15 R386 the complement has been written into the PUF block
deriving DecidableEq, Repr

end Sys2Proof.Machine
end

