-- ==== Sys2Proof/Machine/Parts/Port.lean ====
section
/-! DEFINITION. State of the host port, the mailboxes and the interrupt concentrator (16_host_port.md), of Causeway and
the queue manager (17_causeway_queues.md) and of the panels and readers (18_panel_contactless.md). -/

namespace Sys2Proof.Machine

/-- The state of a mailbox (R425). -/
inductive MbxState where
  | idle | queued | busy | done
deriving DecidableEq, Repr

/-- The code of a mailbox state (R431). -/
def MbxState.code : MbxState → Nat
  | .idle => 0 | .queued => 1 | .busy => 2 | .done => 3

/-- inv: mbx[m]. One mailbox. -/
structure Mailbox where
  state : MbxState := .idle -- 16 R431 MBX_STAT.state
  replayed : Bool := false -- 16 R431 MBX_STAT.replayed
  ringErr : Bool := false -- 16 R431 MBX_STAT.ring_err
  tag : U16 := 0 -- 16 R431 MBX_STAT.tag
  req : Memory := [] -- 16 R422 request buffer, 1,024 bytes
  resp : Memory := [] -- 16 R422 response buffer, 1,024 bytes
  answered : Bool := false -- 16 R425 the response of the running request is written
  arrival : Nat := 0 -- 16 R426 place of the request in arrival order
  rungAt : U64 := 0 -- 20 R534 instant at which its ring reached the Tide domain
  lastReq : List U8 := [] -- 16 R427 request of the last DONE response
  lastValid : Bool := false -- 16 R427 that response is kept for a replay
deriving DecidableEq, Repr

/-- inv: hp. The host port. -/
structure HostPort where
  err : Bool := false -- 16 R431 WIN_ERR.err
  dir : Bool := false -- 16 R431 WIN_ERR.dir
  cause : BitVec 3 := 0 -- 16 R431 WIN_ERR.cause
  count : U8 := 0 -- 16 R431 WIN_ERR.count
  addr : U16 := 0 -- 16 R431 WIN_ERR.addr
  lastRead : List U32 := [] -- 16 R413 words returned by the last READ frame
  spiCount : U16 := 0 -- 16 R431 SPI_ERR.count
  spiCause : BitVec 3 := 0 -- 16 R431 SPI_ERR.cause
  scratch : U32 := 0 -- 16 R431 ID_SCRATCH
  committed : U32 := 0 -- 16 R430 write frames committed
  reads : U32 := 0 -- 16 R430 read frames
  winEvents : U32 := 0 -- 16 R430 window errors
  lastWinIrq : Option U64 := none -- 16 R438 instant of the last source 6
  lastSpiIrq : Option U64 := none -- 16 R438 instant of the last source 7
  arrivals : Nat := 0 -- 16 R426 requests rung so far
deriving DecidableEq, Repr

/-- One interrupt source of the concentrator (R432). -/
structure Source where
  enable : Bool := false -- 16 R437 HIC_EN
  pending : Bool := false -- 16 R437 HIC_PEND
  active : Bool := false -- 16 R437 HIC_ACTIVE
  prio : BitVec 4 := 0 -- 16 R437 HIC_PRIO.priority
  pin : BitVec 2 := 0 -- 16 R437 HIC_PRIO.pin
deriving DecidableEq, Repr

/-- One interrupt pin (R433 to R436). -/
structure HicPin where
  threshold : BitVec 4 := 0 -- 16 R437 HIC_THRESH
  stack : List (Nat × Nat) := [] -- 16 R434 claimed sources and their priorities, top first
  wasLow : Bool := false -- 16 R434 the pin has been low since its last claim
deriving DecidableEq, Repr

/-- inv: hic. The host interrupt concentrator. -/
structure Hic where
  sources : Vector Source 512 := Vector.replicate 512 {} -- 16 R432 sources 1-510; numbers 0 and 511 name none
  pins : Vector HicPin 4 := Vector.replicate 4 {} -- 16 R433 the four pins
  fault : Bool := false -- 16 R437 HIC_FAULT.fault
  faultPin : BitVec 2 := 0 -- 16 R437 HIC_FAULT.pin
  faultCause : Bool := false -- 16 R437 HIC_FAULT.cause
  faultWritten : BitVec 9 := 0 -- 16 R437 HIC_FAULT.written
  faultTop : BitVec 9 := 0 -- 16 R437 HIC_FAULT.top
  faultCnt : U32 := 0 -- 16 R437 HIC_FAULT_CNT
deriving DecidableEq, Repr

/-- The owner of a buffer (R460). -/
inductive Owner where
  | free
  | agent (a : Fin 16)
  | queue (q : Nat)
deriving DecidableEq, Repr

/-- One queue descriptor (R456). -/
structure Queue where
  enabled : Bool := false -- 17 R456 enabled
  dropOldest : Bool := false -- 17 R456 drop_oldest
  inbound : Bool := false -- 17 R456 direction: inbound record queue
  consumer : U8 := 0 -- 17 R457 consumer agent code, 0x10 any Sedge core
  limit : U16 := 0 -- 17 R457 depth limit, 0 disables
  group : U8 := 0xFF -- 17 R457 Causeway group, 0xFF none
  nextSeq : U16 := 0 -- 17 R457 next_seq
  seqSeen : Bool := false -- 17 R451 an inbound record has been accepted since the queue was enabled
  lost : Bool := false -- 17 R457 loss_pending
  bufs : List Nat := [] -- 17 R456 buffers, head first
  drops : U32 := 0 -- 17 R467 buffers dropped
  refused : U32 := 0 -- 17 R467 enqueues refused
  fullIrq : Option U64 := none -- 17 R459 instant of the last source 39 for this queue
deriving DecidableEq, Repr

/-- Why the queue manager refuses an operation (R458). -/
inductive QErr where
  | empty | ownership | disabled | full | denied
deriving DecidableEq, Repr

/-- What the queue manager answers to an operation of an agent (R458): done, a buffer, a refusal, or the overrun status (R67). -/
inductive QAnswer where
  | done
  | buffer (u : Nat)
  | refused (e : QErr)
  | overrun
deriving DecidableEq, Repr

/-- inv: qmg. The queue manager. -/
structure QueueManager where
  lastAccept : Option U64 := none -- 17 R458 instant at which the last operation of an agent was accepted
  answers : Vector (Option QAnswer) 16 := Vector.replicate 16 none -- 17 R458 03 R67 what each agent's last operation answered
  running : Bool := false -- 17 R465 QMG_STATUS.running
  fwCfg : Bool := false -- 17 R456 the firmware has configured queues 0-2,047
  owners : List (Nat × Owner) := [] -- 17 R460 owner of each buffer that is not free, by buffer number
  cntFree : Nat := 131072 -- 17 R463 F, QMG_FREE
  cntQueued : Nat := 0 -- 17 R463 Q, QMG_QUEUED
  cntHeld : Nat := 0 -- 17 R463 H, QMG_HELD
  picks : Nat := 0 -- 17 R458 allocations made, the model's own counter of free values
  lowRaised : Bool := false -- 17 R461 source 38 has been raised since the count was last above low_water + 1,024
  emptyIrq : Option U64 := none -- 17 R461 instant of the last source 43
  charged : List (Nat × Nat) := [] -- 17 R447 1 + group of each buffer charged to a group, by buffer number
  sram : Memory := [] -- 01 R10 8 MiB record SRAM: buffer b holds bytes 64 b to 64 b + 63
  queues : List (Nat × Queue) := [] -- 17 R456 queues 0-32,767 by number; an unlisted one is at its reset descriptor
  lowWater : BitVec 18 := 4096 -- 17 R465 QMG_LOW_WATER
  low : Bool := false -- 17 R465 QMG_STATUS.low
  conserveOk : Bool := false -- 17 R465 QMG_STATUS.conserve_ok
  fatal : Bool := false -- 17 R465 QMG_STATUS.fatal
  errBuffer : BitVec 17 := 0 -- 17 R465 QMG_OWN_ERR.buffer
  errAgent : BitVec 4 := 0 -- 17 R465 QMG_OWN_ERR.agent
  errOp : Bool := false -- 17 R465 QMG_OWN_ERR.op
  errCause : BitVec 2 := 0 -- 17 R465 QMG_OWN_ERR.cause
  ownErrCnt : U32 := 0 -- 17 R465 QMG_OWN_ERR_CNT
  fullCnt : U32 := 0 -- 17 R465 QMG_FULL_CNT
  dropCnt : U32 := 0 -- 17 R465 QMG_DROP_CNT
  emptyCnt : U32 := 0 -- 17 R465 QMG_EMPTY_CNT
deriving DecidableEq, Repr

/-- One Causeway credit group (R446). -/
structure CreditGroup where
  reservation : Nat := 0 -- 17 R461 buffers reserved
  granted : BitVec 10 := 0 -- 17 R446 C_g of the host-to-device direction
  received : BitVec 10 := 0 -- 17 R446 S_g of the host-to-device direction: records of the group received
  hostCredit : BitVec 10 := 0 -- 17 R446 C_g of the device-to-host direction, as the last credit frame gave it
  sent : BitVec 10 := 0 -- 17 R446 S_g of the device-to-host direction
  stallIrq : Option U64 := none -- 17 R448 instant of the last source 37 for this group
  stalled : Bool := false -- 17 R464 CWY_STALL
  waitSince : Option U64 := none -- 17 R448 records waiting without credit since
  sentCnt : U32 := 0 -- 17 R467 records sent
  recvCnt : U32 := 0 -- 17 R467 records accepted
deriving DecidableEq, Repr

/-- The state of the Causeway link (R449). -/
inductive LinkState where
  | disabled | training | up
deriving DecidableEq, Repr

/-- The code of a link state (R464). -/
def LinkState.code : LinkState → Nat
  | .disabled => 0 | .training => 1 | .up => 2

/-- inv: cwy. Causeway. -/
structure Causeway where
  enable : Bool := false -- 17 R464 CWY_CTRL.enable
  ackTimeout : BitVec 7 := 10 -- 17 R464 CWY_CTRL.ack_timeout
  state : LinkState := .disabled -- 17 R464 CWY_STATUS.state
  rxClkOk : Bool := false -- 17 R464 CWY_STATUS.rx_clk_ok
  txClkOk : Bool := false -- 17 R464 CWY_STATUS.tx_clk_ok
  aligning : Bool := false -- 17 R449 training has moved on to alignment
  txNext : U16 := 0 -- 17 R464 CWY_TX_SEQ next
  txAcked : U16 := 0xFFFF -- 17 R464 CWY_TX_SEQ last acknowledged
  rxNext : U16 := 0 -- 17 R464 CWY_RX_SEQ next expected
  rxAckSent : U16 := 0xFFFF -- 17 R464 CWY_RX_SEQ last ack sent
  outstanding : List (U16 × Nat) := [] -- 17 R444 records sent and not acknowledged, oldest first: link sequence, buffer
  resend : List Nat := [] -- 17 R450 buffers held by CWY_TX to be sent first after training
  lastGroupServed : BitVec 6 := 63 -- 17 R448 group served last
  lastQueueServed : Vector Nat 64 := Vector.replicate 64 0 -- 17 R448 queue of each group served last
  txRec : U32 := 0 -- 17 R464 CWY_TX_REC_CNT
  rxRec : U32 := 0 -- 17 R464 CWY_RX_REC_CNT
  crcRec : U16 := 0 -- 17 R464 CWY_CRC_CNT records
  crcCredit : U16 := 0 -- 17 R464 CWY_CRC_CNT credit frames
  retry : U32 := 0 -- 17 R464 CWY_RETRY_CNT
  resetCnt : U32 := 0 -- 17 R464 CWY_RESET_CNT
  lastCause : BitVec 4 := 0 -- 17 R464 CWY_LAST_RESET.cause
  lastGroup : BitVec 6 := 0 -- 17 R464 CWY_LAST_RESET.group
  dup : U16 := 0 -- 17 R464 CWY_DUP_CNT duplicates
  gaps : U16 := 0 -- 17 R464 CWY_DUP_CNT gaps
  badRec : U32 := 0 -- 17 R464 CWY_BAD_REC_CNT
  groups : Vector CreditGroup 64 := Vector.replicate 64 {} -- 17 R446 the 64 groups
deriving DecidableEq, Repr

/-- inv: cwyX. Timers and runs of the link that no register shows. -/
structure CausewayX where
  ackAt : U64 := 0 -- 17 R444 start of the ack timer
  trainingAt : U64 := 0 -- 17 R449 start of training
  crcRun : Nat := 0 -- 17 R450 consecutive failed frames
  creditRun : Nat := 0 -- 17 R450 consecutive failed credit frames
  ackExpiries : Nat := 0 -- 17 R444 consecutive ack timer expiries
  crcTimes : List U64 := [] -- 17 R466 instants of the last 17 CRC failures, newest first
  resetMbx : Option (Fin 4) := none -- 17 R467 mailbox awaiting UP
  slots : List (List U8) := [] -- 17 R441 R444 the slots with records sent last, in their order
deriving DecidableEq, Repr

/-- A draw or a strip update waiting for a pass to end (R472): pixel values from line `y`, column `x`. -/
structure Draw where
  x : Nat := 0 -- 18 R474 left edge
  y : Nat := 0 -- 18 R474 top line
  rows : List (List (BitVec 6)) := [] -- 18 R469 R473 pixel values of each line, in the bit order of a line
  flush : Bool := false -- 18 R472 the draw asks for a pass
  mbx : Option (Fin 4) := none -- 18 R486 mailbox awaiting the lines made dirty
deriving DecidableEq, Repr

/-- inv: pnl[p]. One panel port. -/
structure Panel where
  enable : Bool := false -- 18 R484 PNL_STATUS.enabled
  fault : Bool := false -- 18 R484 PNL_STATUS.pump_fault
  passUntil : Option U64 := none -- 18 R484 PNL_STATUS.pass: end of the running pass
  passFrom : U64 := 0 -- 18 R472 start of the running pass
  passPending : Bool := false -- 18 R472 a pass waits for EXTCOMIN
  dither : Bool := true -- 18 R484 PNL_CFG.dither
  passIrq : Bool := false -- 18 R484 PNL_CFG.pass_irq
  height : BitVec 6 := 40 -- 18 R484 PNL_CFG.height
  sck : BitVec 5 := 10 -- 18 R484 PNL_CFG.sck
  connector : BitVec 5 := 0x1F -- 18 R484 PNL_CFG.connector
  dirty : List Nat := [] -- 18 R472 dirty lines
  passLines : List Nat := [] -- 18 R472 lines of the running pass
  lastMs : U16 := 0 -- 18 R484 PNL_STAT.last_ms
  passCnt : U32 := 0 -- 18 R484 PNL_PASS_CNT
  gammaCrc : U32 := 0 -- 18 R484 PNL_GAMMA_CRC
  gamma : List U8 := [] -- 18 R473 gamma tables R, G, B; empty for linear
  extcomin : Bool := false -- 18 R471 level of EXTCOMIN
  extAt : U64 := 0 -- 18 R471 instant of the last toggle
  waiting : List Draw := [] -- 18 R474 draws waiting for the pass to end
  stripAt : U64 := 0 -- 18 R476 last redraw of the legal strip
  flushMbx : Option (Fin 4) := none -- 18 R486 mailbox of PNL_FLUSH awaiting the pass
deriving DecidableEq, Repr

/-- inv: nfc[r]. One contactless reader. -/
structure Reader where
  enable : Bool := false -- 18 R484 NFC_STATUS.enabled
  fault : Bool := false -- 18 R484 NFC_STATUS.fault
  field : Bool := false -- 18 R484 NFC_STATUS.field
  card : Bool := false -- 18 R484 NFC_STATUS.card
  techs : BitVec 3 := 7 -- 18 R484 NFC_CFG.techs
  maxRate : BitVec 2 := 3 -- 18 R484 NFC_CFG.max_rate
  txLevel : BitVec 3 := 4 -- 18 R484 NFC_CFG.tx_level
  fieldGroup : BitVec 3 := 0 -- 18 R484 NFC_CFG.field_group
  connector : BitVec 5 := 0x1F -- 18 R484 NFC_CFG.connector
  lpcdThr : BitVec 10 := 40 -- 18 R484 NFC_CFG.lpcd_thr
  queue : U16 := 0xFFFF -- 18 R487 card record queue
  base : NfcSample := { i := 0, q := 0 } -- 18 R479 R484 the baseline, whose amplitude NFC_LPCD.baseline shows
  lastD : BitVec 10 := 0 -- 18 R484 NFC_LPCD.last_d
  resolved : U16 := 0 -- 18 R484 NFC_CNT cards resolved
  falseWake : U16 := 0 -- 18 R484 NFC_CNT false wake-ups
  cardRec : List U8 := [] -- 18 R481 payload of the card record
  polling : Bool := false -- 18 R479 a poll is running
  pollMbx : Option (Fin 4) := none -- 18 R487 mailbox awaiting the poll
  waiting : Option U64 := none -- 18 R480 a poll waits for the group's field, since
  pinged : Option NfcSample := none -- 18 R479 what the ping measured that started the running poll
  pollAt : U64 := 0 -- 18 R481 start of the running poll's guard time
  radiated : Option U64 := none -- 18 R480 start of the last ping's field
  presenceFails : Nat := 0 -- 18 R481 failed presence checks
  lastPresence : U64 := 0 -- 18 R481 last presence check
  lastPing : Option U64 := none -- 18 R479 last ping
deriving DecidableEq, Repr

end Sys2Proof.Machine
end

