-- ==== Sys2Proof/Machine/Parts/System.lean ====
section
/-! DEFINITION. State of resets, boot and firmware update (19_reset_boot_update.md), of the event recorder, the fatal
dump, replay and debug (20_recorder_replay.md). Defaults are reset values. -/

namespace Sys2Proof.Machine

/-- The reset scopes of R489 and RST_CAUSE. -/
inductive Scope where
  | core | hub | device
deriving DecidableEq, Repr

/-- The code of a reset scope (R513). -/
def Scope.code : Scope → Nat
  | .core => 0 | .hub => 1 | .device => 2

/-- The device state of RST_STATUS (R513). -/
inductive RunState where
  | boot | ready | stopping | bootFail
deriving DecidableEq, Repr

/-- The code of a device state (R513). -/
def RunState.code : RunState → Nat
  | .boot => 0 | .ready => 1 | .stopping => 2 | .bootFail => 3

/-- A reset that has been requested and waits for its instant (R495, R516). -/
structure PendingReset where
  scope : Scope := .hub -- 19 R516 scope
  source : BitVec 3 := 5 -- 19 R489 source code
  core : BitVec 5 := 0 -- 19 R516 core of a CORE reset
  startAt : U64 := 0 -- 19 R516 start of the stop sequence, or instant of a core reset
  started : Bool := false -- 19 R495 the stop sequence runs
  command : U64 := 0 -- 19 R513 instant of the command
  sealed : Bool := false -- 19 R495 the shutdown epoch has been requested
  replay : Option U16 := none -- 20 R537 the boot that follows runs in replay mode, with this trace queue
deriving DecidableEq, Repr

/-- inv: rst. Resets and boot. -/
structure ResetUnit where
  inReset : Bool := true -- 19 R492 reset is asserted
  pinLow : Bool := false -- 19 R489 RESET_N is held low
  suppliesOk : Bool := false -- 19 R564 every monitored rail is above its power-on level
  state : RunState := .boot -- 19 R513 RST_STATUS.state
  stage : BitVec 3 := 0 -- 19 R513 RST_STATUS.stage
  bootLate : Bool := false -- 19 R513 RST_STATUS.boot_late
  sedge : Bool := false -- 19 R513 RST_STATUS.running Sedge
  carr : Bool := false -- 19 R513 RST_STATUS.running Carr
  dyke : Bool := false -- 19 R513 RST_STATUS.running Dyke
  creek : Bool := false -- 19 R513 RST_STATUS.running Creek
  causeSource : BitVec 3 := 0 -- 19 R513 RST_CAUSE.source
  causeScope : Scope := .core -- 19 R513 RST_CAUSE.scope
  causeCore : BitVec 5 := 0 -- 19 R513 RST_CAUSE.core
  hist : U8 := 0 -- 19 R513 RST_HIST.seen
  counts : Vector U16 8 := Vector.replicate 8 0 -- 19 R513 RST_CNT by source
  readyAt : U64 := 0 -- 19 R513 RST_READY
  bootMs : U32 := 0 -- 19 R513 RST_BOOT_MS
  bootFrom : U64 := 0 -- 19 R496 instant from which this boot is counted
  bootCmd : U64 := 0 -- 19 R513 instant of the command that led to this boot
  hubBoot : Bool := false -- 19 R496 the boot follows a reset of HUB scope
  choice : BitVec 4 := 0 -- 19 R513 RST_STRAP.choice
  strapFault : Bool := false -- 19 R513 RST_STRAP.strap_fault
  strapLoaded : Bool := false -- 21 R552 the strap-derived fields are loaded
  pending : Option PendingReset := none -- 19 R495 R516 reset on its way
  sedgeAbsent : Option U64 := none -- 01 R17 Sedge absent since
  admission : Bool := false -- 19 R496 admission allowed
deriving DecidableEq, Repr

/-- The manifest fields of one slot that the device keeps (R500). -/
structure Manifest where
  bytes : List U8 := [] -- 19 R500 the manifest
  sequence : Nat := 0 -- 19 R500 sequence
  epoch : U16 := 0 -- 19 R500 epoch
  resume : U16 := 0 -- 19 R500 resume
  settings : U16 := 0 -- 19 R500 settings
  compat : List (U16 × U16) := [] -- 19 R500 compat
  length : Nat := 0 -- 19 R500 length
  blocks : Nat := 0 -- 19 R500 N
  hash : List U8 := [] -- 19 R500 hash
deriving DecidableEq, Repr

/-- One image: its two slots and what runs (R499, R514). -/
structure Image where
  stateA : BitVec 3 := 0 -- 19 R514 UPD_IMG.state_a
  stateB : BitVec 3 := 0 -- 19 R514 UPD_IMG.state_b
  runB : Bool := false -- 19 R514 UPD_IMG.running
  manA : Manifest := {} -- 19 R499 manifest of slot A
  manB : Manifest := {} -- 19 R499 manifest of slot B
  epoch : U16 := 0 -- 19 R514 UPD_IMG.epoch
  sequence : BitVec 24 := 0 -- 19 R514 UPD_SEQ
  measured : List U8 := [] -- 15 R388 H_x of the running image
  check : U32 := 0 -- 14 R363 first 4 bytes of the SHA-256 of the running image
  checkA : U32 := 0 -- 14 R363 the same of the image of slot A
  checkB : U32 := 0 -- 14 R363 the same of the image of slot B
  manOk : Bool := false -- 19 R497 the manifest of the slot tried at this start verifies
  loaded : Bool := false -- 19 R496 its image has been loaded and matches
  fell : Bool := false -- 19 R497 the other slot has already been tried
  missing : Bool := false -- 19 R497 no bootable slot
deriving DecidableEq, Repr

/-- inv: updRec. The update record in the UPDATE partition (R504, R509). -/
structure UpdRecord where
  slots : Vector (BitVec 3 × BitVec 3 × Bool) 4 := Vector.replicate 4 (0, 0, false) -- 19 R497 R514 states of slots A and B, and whether B is the recorded active slot
  manifests : Vector (Manifest × Manifest) 4 := Vector.replicate 4 ({}, {}) -- 19 R517 manifests of slots A and B
  checks : Vector (U32 × U32) 4 := Vector.replicate 4 (0, 0) -- 14 R363 first 4 bytes of the SHA-256 of the images of slots A and B
  trialLeft : U32 := 0 -- 19 R509 trial time left as saved
  activating : Option (Fin 4) := none -- 19 R504 image recorded ACTIVATING
deriving DecidableEq, Repr

/-- A fetch of image blocks in progress (R498, R503). -/
structure Fetch where
  image : Fin 4 := 0 -- 19 R498 image
  slotB : Bool := false -- 19 R498 slot
  man : Bool := true -- 19 R499 the manifest's blocks are being fetched
  next : Nat := 0 -- 19 R498 slot block awaited
  upto : Nat := 0 -- 19 R498 end of the slot blocks requested
  total : Nat := 0 -- 19 R499 end of the slot blocks wanted, 0 while the manifest's length is not known
  block : List U8 := [] -- 19 R498 bytes of the present block so far
  data : List U8 := [] -- 19 R498 bytes of the manifest, then of the image, so far
  manifest : Manifest := {} -- 19 R503 the manifest once complete
  requestedAt : U64 := 0 -- 19 R498 instant of the last request
  tries : Nat := 0 -- 19 R498 repeats of the present request
  posted : Bool := false -- 19 R498 the request has been sent
  mbx : Option (Fin 4) := none -- 19 R517 mailbox of UPD_STAGE; none at boot
deriving DecidableEq, Repr

/-- An activation or a revert in its pause (R505, R510). -/
structure Pause where
  image : Fin 4 := 0 -- 19 R505 image
  start : U64 := 0 -- 19 R505 start of the pause
  settings : Bool := false -- 19 R511 a revert for incompatible settings
  reset : Bool := false -- 19 R510 a revert for a core restart of the trial image
  revert : Bool := false -- 19 R510 a revert
  begun : Bool := false -- 19 R504 the record is written and the pause runs
  modem : Option (Fin 16) := none -- 19 R505 modem in its pause
  mbx : Option (Fin 4) := none -- 19 R517 mailbox awaiting the response
deriving DecidableEq, Repr

/-- inv: upd. Firmware update. -/
structure Update where
  status : BitVec 4 := 0 -- 19 R514 UPD_STATUS.status
  image : BitVec 3 := 0 -- 19 R514 UPD_STATUS.image
  busy : Bool := false -- 19 R514 UPD_STATUS.busy
  progress : U8 := 0 -- 19 R514 UPD_STATUS.progress
  trial : BitVec 17 := 600 -- 19 R514 UPD_CFG.trial
  outQueue : U16 := 2048 -- 19 R514 UPD_QUEUES.out_queue
  inQueue : U16 := 2049 -- 19 R514 UPD_QUEUES.in_queue
  images : Vector Image 4 := Vector.replicate 4 {} -- 19 R514 Creek, Dyke, Carr, Sedge
  trialLeft : U32 := 0 -- 19 R514 UPD_TRIAL_LEFT
  trialImage : Option (Fin 4) := none -- 19 R509 image in TRIAL
  trialFrom : U64 := 0 -- 19 R509 instant up to which the trial time has been counted
  warned : Bool := false -- 19 R509 source 28 raised for this trial
  revertWait : Bool := false -- 19 R510 a revert waits for the connectors
  switched : U16 := 0 -- 19 R514 UPD_MODEMS.switched
  deferred : U16 := 0 -- 19 R514 UPD_MODEMS.deferred
  pauseMs : U16 := 0 -- 19 R514 UPD_PAUSE
  fetch : Option Fetch := none -- 19 R498 fetch in progress
  pause : Option Pause := none -- 19 R505 pause in progress
  activating : Option (Fin 4) := none -- 19 R504 image recorded ACTIVATING
  standby : List U8 := [] -- 19 R499 image in the LPDDR4X standby region
  commit : Option (Fin 4 × Fin 4) := none -- 19 R509 image being committed and the mailbox that awaits its counter
  lastRetry : U64 := 0 -- 19 R497 last request made in BOOT_FAIL
deriving DecidableEq, Repr

/-- Rate limit of one writer and code (R527). -/
structure LogRate where
  writer : U8 := 0 -- 20 R527 writer
  code : U16 := 0 -- 20 R527 event code
  second : U64 := 0 -- 20 R527 second of Tide counted
  formed : Nat := 0 -- 20 R527 entries formed in it
  suppressed : Bool := false -- 20 R527 entries suppressed since the last one formed
deriving DecidableEq, Repr

/-- inv: btn. Bittern and its two logs. -/
structure Bittern where
  running : Bool := false -- 20 R546 BTN_STATUS.running
  legalWrapped : Bool := false -- 20 R546 BTN_STATUS.legal_wrapped
  clearing : Bool := false -- 20 R546 BTN_STATUS.clearing
  legalNext : U64 := 0 -- 20 R546 BTN_LEGAL_NEXT
  legalFloor : U64 := 0 -- 20 R546 BTN_LEGAL_FLOOR
  opNext : U64 := 0 -- 20 R546 BTN_OP_NEXT
  opFloor : U64 := 0 -- 20 R529 floor of the operational log
  staged : List (List U8) := [] -- 20 R523 staged operational entries, oldest first
  ring : List (Nat × List U8) := [] -- 20 R523 R528 the staging ring by position, sequence mod 65,536
  sentBytes : Nat := 0 -- 20 R523 bytes of the oldest staged entry already sent
  held : Option (Nat × Nat) := none -- 20 R523 R459 buffer kept after FULL and the stream bytes in it
  heldAt : U64 := 0 -- 17 R459 instant of the refusal
  clearMbx : Option (Fin 4 × U64 × U64) := none -- 20 R549 mailbox that awaits a clear, sequence of LOG_CLEAR, entries cleared
  pendingSince : Option U64 := none -- 20 R523 instant since which bytes are pending
  opDrop : U32 := 0 -- 20 R546 BTN_OP_DROP_CNT
  opSuppress : U32 := 0 -- 20 R546 BTN_OP_SUPPRESS_CNT
  opQueue : U16 := 0xFFFF -- 20 R546 BTN_CFG.op_queue
  tornCnt : U32 := 0 -- 20 R546 BTN_TORN_CNT
  lease : U64 := 0 -- 20 R525 lease mark, as it stands in the SAFETY partition
  leaseAsked : Bool := false -- 20 R525 the next mark is being written
  unleased : List (List U8) := [] -- 20 R525 operational entries that wait for a sequence number, bytes 8-59, oldest first
  rates : List LogRate := [] -- 20 R527 entries formed by writer and code
  suppressIrq : Option U64 := none -- 20 R527 second of the last source 467
  legalWaiting : List (List U8) := [] -- 20 R519 legal entries that wait for their line, bytes 8-59, oldest first
  nextHi : U32 := 0 -- 20 R546 BTN_LEGAL_NEXT_HI
  floorHi : U32 := 0 -- 20 R546 BTN_LEGAL_FLOOR_HI
  opNextHi : U32 := 0 -- 20 R546 BTN_OP_NEXT_HI
deriving DecidableEq, Repr

/-- What the dump engine copied (R532). -/
structure DumpImage where
  window : List U32 := [] -- 20 R532 section 1
  queues : List (Nat × Queue) := [] -- 20 R532 section 2
  sram : Memory := [] -- 20 R532 section 3
  peat : Memory := [] -- 20 R532 section 8
  armed : List (List U8) := [] -- 20 R532 section 9
  staging : List (List U8) := [] -- 20 R532 section 10
  serial : U64 := 0 -- 20 R532 device
  tide : U64 := 0 -- 20 R532 tide
  rtc : U64 := 0 -- 20 R532 rtc
  seqs : List U32 := [] -- 20 R532 seqs
deriving DecidableEq, Repr

/-- A running DMP_EXPORT. -/
structure DumpExport where
  offset : Nat := 0 -- 20 R533 offset of the next record
  queue : U16 := 0 -- 20 R550 queue
  mbx : Fin 4 := 0 -- 20 R550 mailbox that awaits the end
  count : U32 := 0 -- 20 R550 records written
deriving DecidableEq, Repr

/-- inv: dmp. The fatal dump. -/
structure Dump where
  state : BitVec 2 := 0 -- 20 R547 DMP_STAT.state
  exported : Bool := false -- 20 R547 DMP_STAT.exported
  lost : U8 := 0 -- 20 R547 DMP_STAT.lost
  cause : U16 := 0 -- 20 R547 DMP_STAT.cause
  tide : U64 := 0 -- 20 R547 DMP_TIDE
  raised : List U16 := [] -- 20 R530 fatal errors found and not yet acted on
  fatalAt : Option U64 := none -- 20 R531 instant of a fatal error whose dump has not started
  started : U64 := 0 -- 20 R531 start of the dump
  exporting : Option DumpExport := none -- 20 R533 R550 DMP_EXPORT in progress
  image : DumpImage := {} -- 20 R532 the dump region
  fatal : Bool := false -- 20 R531 admission is off until the next reset
deriving DecidableEq, Repr

/-- inv: rpl. Recording and replay. -/
structure Replay where
  recArmed : Bool := false -- 20 R535 recording armed
  state : BitVec 3 := 0 -- 20 R547 RPL_STATUS.state
  cause : BitVec 3 := 0 -- 20 R547 RPL_STATUS.cause
  mode : Bool := false -- 20 R547 RPL_STATUS.replay_mode
  queue : U16 := 0xFFFF -- 20 R535 R537 trace queue
  items : U64 := 0 -- 20 R547 RPL_ITEMS
  lead : U32 := 0xFFFFFFFF -- 20 R547 RPL_LEAD
  diverge : U64 := 0 -- 20 R547 RPL_DIVERGE
  recent : List (U64 × Nat × List U8) := [] -- 20 R536 items that may still be preceded by one of an earlier stamp: stamp, class, bytes
  buffer : List U8 := [] -- 20 R535 trace bytes waiting for the queue
  input : List U8 := [] -- 20 R538 replay bytes not yet cut into items
  accepted : List (List U8) := [] -- 20 R538 items accepted and not yet consumed
  header : List U8 := [] -- 20 R536 HEADER of the trace
  real : Option Peat := none -- 20 R537 the real Peat store, frozen while its shadow is served
  based : Bool := false -- 20 R537 every BASE item has been delivered
  randoms : List U8 := [] -- 20 R537 bytes of RANDOM items not yet drawn
  results : List (List U8) := [] -- 20 R537 RESULT items not yet used
  startAt : U64 := 0 -- 20 R535 start of the recording
  own : List (U64 × List U8) := [] -- 20 R539 the device's own CHECK values, by boundary
  checks : List (U64 × List U8) := [] -- 20 R539 CHECK items consumed whose boundary has not come
  armQueue : U16 := 0xFFFF -- 20 R550 trace queue as REC_ARM set it
deriving DecidableEq, Repr

/-- inv: dbg. JTAG debug access. -/
structure Debug where
  scope : BitVec 2 := 0 -- 20 R547 DBG_STATUS.scope
  locked : Bool := false -- 20 R547 DBG_STATUS.port_locked
  haltSedge : Bool := false -- 20 R547 DBG_STATUS.halted Sedge
  haltCarr : Bool := false -- 20 R547 DBG_STATUS.halted Carr
  haltDyke : Bool := false -- 20 R547 DBG_STATUS.halted Dyke
  haltCreek : U16 := 0 -- 20 R547 DBG_STATUS.halted Creek modems
  haltWait : Bool := false -- 20 R545 a halt of Dyke waits for the outputs to be off
  viewAddr : U16 := 0 -- 20 R547 DBG_VIEW_ADDR
  unlocks : U16 := 0 -- 20 R547 DBG_UNLOCK_CNT unlocks
  failures : U16 := 0 -- 20 R547 DBG_UNLOCK_CNT failed responses
  failRun : Nat := 0 -- 20 R542 failed responses since the last DEVICE-scope reset
  challenge : Option (List U8 × U64) := none -- 20 R542 outstanding challenge and its expiry
  granting : Option (BitVec 2 × U64) := none -- 20 R542 scope that waits for its DEBUG_UNLOCK entry, and that entry's sequence
  ir : BitVec 5 := 1 -- 20 R541 JTAG instruction register
  tdo : List U8 := [] -- 20 R541 what the last scan returned
  boundary : List Bool := [] -- 20 R541 boundary-scan register
  pins : List Bool := [] -- 20 R541 levels EXTEST drives, empty when none
  written : List (Nat × Nat × U8) := [] -- 20 R543 bytes written into core memories and LPDDR4X
  accesses : Nat := 0 -- the model's: memory reads made, counts the free bytes (log entry 32)
  steps : Vector Nat 4 := Vector.replicate 4 0 -- 20 R543 instructions stepped in Sedge, Carr, Dyke, Creek
deriving DecidableEq, Repr

end Sys2Proof.Machine
end

