-- ==== Sys2Proof/Machine/Parts/Vehicle.lean ====
section
/-! DEFINITION. State of the control pilots, proximity, cable temperatures and locks (08_pilot.md), of the powerline
modems and of the V2G stacks (09_plc_association.md). Defaults are reset values. -/

namespace Sys2Proof.Machine

/-- The pilot states of R195 and VEH_CP_STAT. -/
inductive CpState where
  | a | b | c | d | e | f | invalid
deriving DecidableEq, Repr

/-- The 3-bit code of a pilot state (R210). -/
def CpState.code : CpState → Nat
  | .a => 0 | .b => 1 | .c => 2 | .d => 3 | .e => 4 | .f => 5 | .invalid => 6

/-- A lock move in progress (R207). -/
structure LockMove where
  lock : Bool := true -- 08 R207 true to lock, false to unlock
  start : U64 := 0 -- 08 R207 s, fire time of the ON entry
  stallSince : Option U64 := none -- 08 R207 instant the stall current was first seen
  verified : Bool := false -- 08 R207 the stall is confirmed
  offAt : Option U64 := none -- 08 R207 instant at which the channel is switched off
  second : Bool := false -- 08 R207 the second attempt
  tMin : U8 := 10 -- 08 R207 t_min in force at s, 10 ms
  tMax : U8 := 80 -- 08 R207 t_max in force at s, 10 ms
  stallThr : BitVec 12 := 150 -- 08 R207 stall_thr in force at s, 10 mA
  retryAt : Option U64 := none -- 08 R207 instant of the second attempt
  lowSince : Option U64 := none -- 08 R207 instant the current fell below 5 mA
  mbx : Option (Fin 4) := none -- 08 R212 mailbox awaiting the response
deriving DecidableEq, Repr

/-- inv: veh[n]. Pilot, proximity, temperature and lock of one connector. -/
structure Connector where
  raw : CpState := .invalid -- 08 R195 raw state of the last period
  rawAt : U64 := 0 -- 08 R198 sample instant that gave it
  rawRun : Nat := 0 -- 08 R198 consecutive periods with it
  state : CpState := .invalid -- 08 R210 VEH_CP_STAT.state
  diodeRun : Nat := 0 -- 08 R198 consecutive periods with a failed diode check
  diodeOkRun : Nat := 0 -- 08 R198 consecutive periods with a passed diode check
  diodeFail : Bool := false -- 08 R210 VEH_CP_STAT.diode_fail
  mismatchRun : Nat := 0 -- 08 R197 consecutive SAR mismatches
  matchRun : Nat := 0 -- 08 R197 consecutive periods without a mismatch
  senseFault : Bool := false -- 08 R210 VEH_CP_STAT.cp_sense_fault
  pilotLoss : Bool := false -- 08 R210 VEH_CP_STAT.pilot_loss
  duty : BitVec 10 := 0 -- 08 R210 VEH_CP_STAT.duty, in force
  dutySince : U64 := 0 -- 09 R222 period start from which the duty in force holds
  pendingDuty : Option (BitVec 10 × U64) := none -- 08 R193 duty from the period that starts at an instant
  ordered : BitVec 10 := 0 -- 08 R193 duty that Sedge ordered last
  high : U16 := 0 -- 08 R210 VEH_CP_LEVEL high, signed 10 mV
  low : U16 := 0 -- 08 R210 VEH_CP_LEVEL low, signed 10 mV
  invalidCnt : U16 := 0 -- 08 R210 VEH_CP_CNT INVALID periods
  diodeCnt : U16 := 0 -- 08 R210 VEH_CP_CNT diode failures
  highAt : Option U64 := none -- 08 R194 last high sample
  lowAt : Option U64 := none -- 08 R194 last low sample
  highBad : Bool := false -- 11 R276 the last high sample lay outside the B, C and D classes
  restartUntil : Option U64 := none -- 08 R202 end of a restart at duty 0
  available : Bool := false -- 08 R210 VEH_CTRL.available
  ventOk : Bool := false -- 08 R210 VEH_CTRL.vent_ok
  ppOhm : U16 := 0xFFFF -- 08 R210 VEH_PP.resistance
  ppClass : BitVec 3 := 0 -- 08 R210 VEH_PP.class
  ppValid : Bool := false -- 08 R210 VEH_PP.pp_valid
  ppRating : BitVec 10 := 0 -- 08 R210 VEH_PP.rating
  ppRaw : Option (Fin 8) := none -- 08 R204 class matched by the last reading, none for open
  ppRun : Nat := 0 -- 08 R204 consecutive readings with it
  ppAt : U64 := 0 -- 08 R204 last PP reading
  ppChange : Option U64 := none -- 08 R204 reading at which a valid class gave way to another
  temp0 : U16 := 0 -- 08 R210 VEH_TEMP input 2n, 0x8000 sensor fault
  temp1 : U16 := 0 -- 08 R210 VEH_TEMP input 2n+1
  thermalCap : U16 := 0xFFFF -- 08 R210 VEH_CAP.thermal_cap
  capFine : Nat := 0 -- 08 R206 the cap in 0.01 A while there is one
  oneSensor : Bool := false -- 08 R210 VEH_CAP.one_sensor
  tempAt : Option U64 := none -- 08 R206 last measurement
  lockCh : BitVec 6 := 0x3F -- 08 R210 VEH_LOCK.lock_ch
  unlockCh : BitVec 6 := 0x3F -- 08 R210 VEH_LOCK.unlock_ch
  lockState : BitVec 2 := 0 -- 08 R210 VEH_LOCK.lock_state
  lockFault : Bool := false -- 08 R210 VEH_LOCK.lock_fault
  unlockFailed : Bool := false -- 08 R207 an unlock move failed twice and none was verified since
  move : Option LockMove := none -- 08 R207 the move in progress
  toggles : Nat := 0 -- 09 R223 confirmed B-to-C and C-to-B changes so far
  starting : Bool := true -- 08 R209 the connector's phase and lock are not settled since the start
  unlockDue : Bool := false -- 08 R209 21 the lock is to be released once R208 holds
deriving DecidableEq, Repr

/-- One PP class (R204). -/
structure PpClass where
  centre : U16 := 0 -- 08 R204 VEH_PP_CLASS.centre
  rating : BitVec 10 := 0 -- 08 R204 VEH_PP_CLASS.rating
  valid : Bool := false -- 08 R204 VEH_PP_CLASS.valid
deriving DecidableEq, Repr

/-- inv: vehCfg. The vehicle settings that are one for the device. -/
structure VehCfg where
  debounce : BitVec 4 := 3 -- 08 R210 VEH_CP_CFG.debounce
  tStart : U8 := 100 -- 08 R210 VEH_DERATE.t_start
  tEnd : U8 := 120 -- 08 R210 VEH_DERATE.t_end
  lockMin : U8 := 10 -- 08 R210 VEH_LOCK_TIMING.t_min
  lockMax : U8 := 80 -- 08 R210 VEH_LOCK_TIMING.t_max
  stallThr : BitVec 12 := 150 -- 08 R210 VEH_LOCK_TIMING.stall_thr
  tStartOld : U8 := 100 -- 08 R212 t_start before the last change
  tEndOld : U8 := 120 -- 08 R212 t_end before the last change
  derateFrom : U64 := 0 -- 08 R212 instant of the last change of the two
  ppOld : List PpClass := [] -- 08 R212 PP classes before the last change
  ppFrom : U64 := 0 -- 08 R212 instant of the last change of the classes
  ppClasses : List PpClass := [⟨1500, 200, true⟩, ⟨680, 300, true⟩, ⟨220, 500, true⟩, ⟨100, 600, true⟩, {}, {}, {}, {}] -- 08 R204 VEH_PP_CLASS(k)
deriving DecidableEq, Repr

/-- The SLAC settings (PLC_CTRL, PLC_SLAC_CFG, PLC_SLAC_TIME). -/
structure SlacSet where
  xtalkAware : Bool := true -- 09 R231 PLC_CTRL.xtalk_aware
  validate : Bool := true -- 09 R231 PLC_CTRL.validate
  attenMax : U8 := 120 -- 09 R231 PLC_SLAC_CFG.atten_max
  margin : U8 := 12 -- 09 R231 PLC_SLAC_CFG.margin
  minSounds : BitVec 4 := 6 -- 09 R231 PLC_SLAC_CFG.min_sounds
  maxAttempts : BitVec 3 := 3 -- 09 R231 PLC_SLAC_CFG.max_attempts
  tInit : BitVec 6 := 20 -- 09 R231 PLC_SLAC_TIME.t_init
  tSounds : BitVec 6 := 30 -- 09 R231 PLC_SLAC_TIME.t_sounds
  tMatch : BitVec 5 := 10 -- 09 R231 PLC_SLAC_TIME.t_match
  tJoin : BitVec 5 := 12 -- 09 R231 PLC_SLAC_TIME.t_join
  tRestart : BitVec 10 := 20 -- 09 R231 PLC_SLAC_TIME.t_restart
deriving DecidableEq, Repr

/-- What identifies a SLAC run (R217); with the comparison off each modem has a run of its own. -/
structure RunKey where
  mac : BitVec 48 := 0 -- 09 R217 vehicle station address
  runId : U64 := 0 -- 09 R217 run identifier
  own : Option (Fin 16) := none -- 09 R221 the one modem that decides it, with crosstalk-aware mode off
deriving DecidableEq, Repr

/-- One measurement window of a run (R219). -/
structure SoundWindow where
  from_ : U64 := 0 -- 09 R219 t0
  to_ : U64 := 0 -- 09 R219 end of the last payload symbol
  decoder : Fin 16 := 0 -- 09 R219 lowest-numbered modem that decoded the frame
  discarded : Bool := false -- 09 R220 discarded on every port
  ports : List (Option (List Nat)) := [] -- 09 R219 group attenuations of each port, 0.5 dB; none where the port is discarded
deriving DecidableEq, Repr

/-- One SLAC run (R217 to R221). -/
structure SlacRun where
  key : RunKey := {} -- 09 R217 what identifies it
  set : SlacSet := {} -- 09 R234 the settings in force when it began
  heard : BitVec 16 := 0 -- 09 R217 modems attached to the run
  starter : Option (Fin 16) := none -- 09 R218 the decoding modem
  announced : Nat := 0 -- 09 R218 sounds announced
  decoded : Nat := 0 -- 09 R221 sounds the decoding modem has decoded
  capEnd : U64 := 0 -- 09 R218 end of the capture window
  windows : List SoundWindow := [] -- 09 R219 measurement windows
deriving DecidableEq, Repr

/-- A decided run as a modem reports it (R234). -/
structure RunReport where
  key : RunKey := {} -- 09 R234 vehicle address and run identifier
  heard : BitVec 16 := 0 -- 09 R221 modems attached to the run
  margin : U8 := 0xFF -- 09 R231 smallest margin over the contest set, 0.5 dB; 0xFF when the set is empty
  runner : BitVec 4 := 0 -- 09 R231 port that gave it
  decidedAt : U64 := 0 -- 09 R234 Tide of the decision
  decision : BitVec 3 := 0 -- 09 R234 decision
  winner : Fin 16 := 0 -- 09 R234 winner
  atten : List U8 := [] -- 09 R234 A_p of the 16 ports, 0.5 dB, 0xFF none
  windows : List U8 := [] -- 09 R234 windows per port
  profiles : List (List U8) := [] -- 09 R234 group attenuations per port
deriving DecidableEq, Repr

/-- inv: plc[n]. One powerline modem. -/
structure Modem where
  enable : Bool := false -- 09 R231 PLC_CTRL.enable
  running : Bool := false -- 09 R231 PLC_STATUS.running
  fault : Bool := false -- 09 R231 PLC_STATUS.fault
  slacState : BitVec 3 := 0 -- 09 R231 PLC_STAT.slac_state
  decision : BitVec 3 := 0 -- 09 R231 PLC_STAT.last_decision
  attempt : BitVec 3 := 0 -- 09 R231 PLC_STAT.attempt
  linkUp : Bool := false -- 09 R231 PLC_STAT.link_up
  rxGain : U8 := 0 -- 09 R231 PLC_STAT.rx_gain
  blankThr : BitVec 11 := 1600 -- 09 R231 PLC_BLANK_CFG.blank_thr
  blankExt : BitVec 6 := 8 -- 09 R231 PLC_BLANK_CFG.blank_ext
  blankMax : BitVec 9 := 307 -- 09 R231 PLC_BLANK_CFG.blank_max
  txLevel : BitVec 5 := 15 -- 09 R231 PLC_BLANK_CFG.tx_level
  blankLeft : Nat := 0 -- 09 R216 samples of the running extension still to blank
  rateAt : Option U64 := none -- 09 R216 end of the last one-second window
  blankCnt : U32 := 0 -- 09 R231 PLC_BLANK_CNT(n)
  eraseCnt : U32 := 0 -- 09 R231 PLC_ERASE_CNT(n)
  rejected : U16 := 0 -- 09 R231 PLC_XTALK_CNT.rejected
  ambiguous : U16 := 0 -- 09 R231 PLC_XTALK_CNT.ambiguous
  attenMean : U8 := 0xFF -- 09 R231 PLC_ATTEN.mean
  attenMargin : U8 := 0 -- 09 R231 PLC_ATTEN.margin
  runnerUp : BitVec 4 := 0 -- 09 R231 PLC_ATTEN.runner_up
  timerAt : U64 := 0 -- 09 R222 instant the running SLAC timer started
  heardParm : Bool := false -- 09 R222 CM_SLAC_PARM.REQ decoded in this attempt
  assoc : SlacSet := {} -- 09 R234 settings in force when the association began
  captures : List (U64 × U64) := [] -- 09 R218 armed capture windows
  run : Option (RunKey × SlacSet) := none -- 09 R221 the run this modem answers, with its settings
  edgeBase : List Nat := [] -- 09 R223 B-C changes of each connector when validation began
  nmk : List U8 := [] -- 09 R224 network membership key
  nid : List U8 := [] -- 09 R224 network identifier formed from it
  lastRun : Option RunReport := none -- 09 R234 last run, for PLC_GET_RUN
deriving DecidableEq, Repr

/-- inv: plcCfg. The powerline settings that are one for the device, and the runs in progress. -/
structure PlcCfg where
  set : SlacSet := {} -- 09 R231 PLC_CTRL, PLC_SLAC_CFG and PLC_SLAC_TIME as set
  macBase : BitVec 48 := 0 -- 09 R231 PLC_MAC_BASE
  runs : List SlacRun := [] -- 09 R217 runs in progress
  past : List SoundWindow := [] -- 09 R220 windows of decided runs that a later window may still overlap
deriving DecidableEq, Repr

/-- inv: v2gCfg. V2G settings. -/
structure V2gCfg where
  allowed : BitVec 4 := 0xF -- 09 R232 VEH_V2G_CFG.allowed
  external : Bool := true -- 09 R232 VEH_V2G_CFG.external
  contract : Bool := true -- 09 R232 VEH_V2G_CFG.contract
  seqTimeout : BitVec 6 := 60 -- 09 R232 VEH_V2G_CFG.seq_timeout
  queue : U16 := 0xFFFF -- 09 R232 VEH_V2G_QUEUE.queue
  chain : List U8 := [] -- 09 R235 server certificate chain
  keySlot : Option (Fin 16) := none -- 09 R235 key slot of the server key
deriving DecidableEq, Repr

/-- The status a V2G response carries (R229). -/
inductive V2gStatus where
  | normal | ongoing | failed | stop | emergency
deriving DecidableEq, Repr

/-- The isolation status that the V2G stack reports (R246). -/
inductive Isolation where
  | fault | warning | invalid | valid
deriving DecidableEq, Repr

/-- What a V2G response carries (R229). -/
structure V2gAnswer where
  status : V2gStatus := .normal -- 09 R229 status carried
  limits : Option (Nat × Nat) := none -- 09 R229 maximum power, 100 W, and maximum current, 0.01 A
  discharge : Option (Nat × Nat) := none -- 09 R229 maximum discharge power and current, in DC_BPT
  isolation : Isolation := .invalid -- 10 R246 isolation status of the node
  maxV : Nat := 0 -- 09 R229 maximum voltage, 0.1 V
  nodeV : Option U32 := none -- 09 R227 node voltage reported
deriving DecidableEq, Repr

/-- inv: v2g[n]. The V2G session of one connector. -/
structure V2gSession where
  protocol : BitVec 3 := 0 -- 09 R232 VEH_V2G_STAT.protocol
  tls : BitVec 2 := 0 -- 09 R232 VEH_V2G_STAT.tls
  ident : BitVec 2 := 0 -- 09 R232 VEH_V2G_STAT.ident
  dynamic : Bool := false -- 09 R232 VEH_V2G_STAT.dynamic
  ongoing : Bool := false -- 09 R232 VEH_V2G_STAT.ongoing
  soc : U8 := 0xFF -- 09 R232 VEH_V2G_STAT.soc
  timeouts : U16 := 0 -- 09 R232 VEH_V2G_CNT.timeouts
  tlsFail : U16 := 0 -- 09 R232 VEH_V2G_CNT.tls_fail
  maxV : U16 := 0 -- 09 R232 VEH_EV_LIMIT voltage, 0.1 V
  maxI : U16 := 0 -- 09 R232 VEH_EV_LIMIT current, 0.1 A
  maxP : U16 := 0 -- 09 R229 vehicle maximum power, 100 W
  targetV : U16 := 0 -- 09 R232 VEH_EV_TARGET voltage, 0.1 V
  targetI : U16 := 0 -- 09 R232 VEH_EV_TARGET current, signed 0.1 A
  presentV : U16 := 0 -- 06 R143 present voltage the vehicle reports, 0.1 V
  lastRequest : U64 := 0 -- 09 R228 instant of the last request
  isOpen : Bool := false -- 09 R228 a V2G session is open
  stopped : Bool := false -- 09 R228 SessionStop has been received
  port : U16 := 0 -- 09 R225 the TCP port named in the SDP response, 0 before it
  ports : Nat := 0 -- 09 R225 SDP responses given, the model's own counter of free values
  tlsWait : Option (BitVec 2 × Bool) := none -- 09 R226 a handshake on the signature engine: its version, and whether the vehicle completes it
  inForce : V2gCfg := {} -- 09 R235 the settings when the session reached NEGOTIATING
  answer : V2gAnswer := {} -- 09 R229 what the last response carried
deriving DecidableEq, Repr

end Sys2Proof.Machine
end

