-- ==== Sys2Proof/Machine/Parts/Settings.lean ====
section
/-! DEFINITION. The settings that the Peat store keeps and boot stage 6 applies (21_register_map.md R558; 13_peat_store.md R313).
Defaults are the reset values of the registers that show them. -/

namespace Sys2Proof.Machine

/-- inv: settings.slu. Stored settings of Sluice. -/
structure SluSet where
  siteImp : U32 := 0 -- 21 R558 SLU_SITE_IMP
  siteExp : U32 := 0 -- 21 R558 SLU_SITE_EXP
  eta : BitVec 10 := 960 -- 21 R558 SLU_TUNE.eta
  reasonHold : U8 := 20 -- 21 R558 SLU_TUNE.reason_hold
  moveCost : U16 := 1000 -- 21 R558 SLU_MOVE.move_cost
  moveMargin : U16 := 2000 -- 21 R558 SLU_MOVE.move_margin
  zcMod : U8 := 50 -- 21 R558 SLU_ZC_TOL.zc_mod
  zcNodeAbs : U8 := 10 -- 21 R558 SLU_ZC_TOL.zc_node_abs
  zcNodeRel : U8 := 20 -- 21 R558 SLU_ZC_TOL.zc_node_rel
  holdMoves : Bool := false -- 21 R558 SLU_CTRL.hold_moves
  strictFifo : Bool := false -- 21 R558 SLU_CTRL.strict_fifo
  outcomeQueue : U16 := 0xFFFF -- 21 R558 SLU_CTRL.outcome_queue
deriving DecidableEq, Repr

/-- inv: settings.conns[n]. Stored settings of one connector. -/
structure ConnSet where
  weight : U8 := 100 -- 21 R558 SLU_NODE_CFG.class_weight
  floor : BitVec 5 := 1 -- 21 R558 SLU_NODE_CFG.floor
  refuse : Bool := false -- 21 R558 SLU_NODE_CFG.refuse
  maxDelay : U16 := 300 -- 21 R558 SLU_NODE_CFG.max_delay
  hostCap : U16 := 6000 -- 21 R558 SLU_NODE_CAP.host_cap
  available : Bool := false -- 21 R558 VEH_CTRL.available
  ventOk : Bool := false -- 21 R558 VEH_CTRL.vent_ok
  lockCh : BitVec 6 := 0x3F -- 21 R558 VEH_LOCK.lock_ch
  unlockCh : BitVec 6 := 0x3F -- 21 R558 VEH_LOCK.unlock_ch
  plcEnable : Bool := false -- 21 R558 PLC_CTRL.enable
  blankThr : BitVec 11 := 1600 -- 21 R558 PLC_BLANK_CFG.blank_thr
  blankExt : BitVec 6 := 8 -- 21 R558 PLC_BLANK_CFG.blank_ext
  blankMax : BitVec 9 := 307 -- 21 R558 PLC_BLANK_CFG.blank_max
  txLevel : BitVec 5 := 15 -- 21 R558 PLC_BLANK_CFG.tx_level
  force : Bool := false -- 21 R558 IMD_CTRL.force
  ocThr : U8 := 192 -- 21 R558 MLK_OC_THR(n)
  iPull : U8 := 120 -- 21 R558 LSW_COIL.i_pull
  iPin : U8 := 100 -- 21 R558 LSW_COIL.i_pin
  iHold : U8 := 25 -- 21 R558 LSW_COIL.i_hold
  iDrop : U8 := 15 -- 21 R558 LSW_COIL.i_drop
  tPull : BitVec 7 := 60 -- 21 R558 LSW_COIL_T.t_pull
  supply : BitVec 6 := 0x3F -- 21 R558 LSW_COIL_T.supply
  rCoil : U16 := 160 -- 21 R558 LSW_COIL_T.r_coil
deriving DecidableEq, Repr

/-- inv: settings.hs[c]. Stored settings of one high-side channel. -/
structure HsSet where
  mode : BitVec 2 := 0 -- 21 R558 LSW_HS_CFG.mode
  curve : BitVec 3 := 0 -- 21 R558 LSW_HS_CFG.curve
  slew : BitVec 2 := 1 -- 21 R558 LSW_HS_CFG.slew
  otLatchEn : Bool := false -- 21 R558 LSW_HS_CFG.ot_latch
  openEn : Bool := false -- 21 R558 LSW_HS_CFG.open_en
  shedPrio : BitVec 2 := 3 -- 21 R558 LSW_HS_CFG.shed_prio
  limp : BitVec 4 := 0 -- 12 R305 LSW_LIMP_MAP
deriving DecidableEq, Repr

/-- inv: settings.panels[p]. Stored settings of one panel port. -/
structure PanelSet where
  enable : Bool := false -- 21 R558 PNL_STATUS.enabled
  dither : Bool := true -- 21 R558 PNL_CFG.dither
  passIrq : Bool := false -- 21 R558 PNL_CFG.pass_irq
  height : BitVec 6 := 40 -- 21 R558 PNL_CFG.height
  sck : BitVec 5 := 10 -- 21 R558 PNL_CFG.sck
  connector : BitVec 5 := 0x1F -- 21 R558 PNL_CFG.connector
deriving DecidableEq, Repr

/-- inv: settings.readers[r]. Stored settings of one contactless reader. -/
structure ReaderSet where
  enable : Bool := false -- 21 R558 NFC_STATUS.enabled
  techs : BitVec 3 := 7 -- 21 R558 NFC_CFG.techs
  maxRate : BitVec 2 := 3 -- 21 R558 NFC_CFG.max_rate
  txLevel : BitVec 3 := 4 -- 21 R558 NFC_CFG.tx_level
  fieldGroup : BitVec 3 := 0 -- 21 R558 NFC_CFG.field_group
  connector : BitVec 5 := 0x1F -- 21 R558 NFC_CFG.connector
  lpcdThr : BitVec 10 := 40 -- 21 R558 NFC_CFG.lpcd_thr
  queue : U16 := 0xFFFF -- 18 R487 card record queue
deriving DecidableEq, Repr

/-- inv: settings. The stored settings. -/
structure Settings where
  slu : SluSet := {} -- 21 R558 SLU
  conns : Vector ConnSet 16 := Vector.replicate 16 {} -- 21 R558 per connector
  lanes : Vector (Bool × BitVec 12) 8 := Vector.replicate 8 (false, 0) -- 21 R558 MLK_CTRL.lane_enable, enrolled
  vetoMask : BitVec 7 := 0x7F -- 21 R558 MLK_VETO_MASK
  veh : VehCfg := {} -- 21 R558 VEH hub-wide settings
  slac : SlacSet := {} -- 21 R558 PLC_CTRL, PLC_SLAC_CFG, PLC_SLAC_TIME
  macBase : BitVec 48 := 0 -- 21 R558 PLC_MAC_BASE
  v2g : V2gCfg := {} -- 21 R558 VEH_V2G_CFG, VEH_V2G_QUEUE
  imdPeriod : BitVec 2 := 0 -- 21 R558 IMD_CTRL.period
  rExt : BitVec 10 := 200 -- 21 R558 IMD_NET.r_ext
  cMod : BitVec 7 := 10 -- 21 R558 IMD_NET.c_mod
  cConn : U8 := 20 -- 21 R558 IMD_NET.c_conn
  warnThr : BitVec 11 := 500 -- 21 R558 IMD_THR.warn_thr
  faultThr : BitVec 9 := 100 -- 21 R558 IMD_THR.fault_thr
  rcm : Vector (U16 × U16 × U16) 2 := Vector.replicate 2 (300, 150, 60) -- 21 R558 IMD_RCM_THR, IMD_RCM_DCTHR
  pairs : Vector (BitVec 2 × BitVec 16) 8 := Vector.replicate 8 (0, 0) -- 21 R558 SAF pair functions and nodes
  tTrip : U8 := 130 -- 21 R558 SAF_TIMING.t_trip
  ovMargin : U8 := 50 -- 21 R558 SAF_TIMING.ov_margin
  tDrop : U8 := 3 -- 21 R558 SAF_TIMING.t_drop
  safSet : Bool := false -- 11 R286 a safety configuration has been stored
  hs : Vector HsSet 40 := Vector.replicate 40 {} -- 21 R558 LSW
  limpValid : Bool := false -- 12 R305 a limp-home map has been stored
  cwyEnable : Bool := false -- 21 R558 CWY_CTRL.enable
  ackTimeout : BitVec 7 := 10 -- 21 R558 CWY_CTRL.ack_timeout
  reservations : Vector Nat 64 := Vector.replicate 64 0 -- 17 R461 reservations of the credit groups
  queues : List (Nat × Queue) := [] -- 17 R467 queues set, without their contents
  lowWater : BitVec 18 := 4096 -- 21 R558 QMG_LOW_WATER
  panels : Vector PanelSet 8 := Vector.replicate 8 {} -- 21 R558 PNL
  readers : Vector ReaderSet 8 := Vector.replicate 8 {} -- 21 R558 NFC
  opQueue : U16 := 0xFFFF -- 21 R558 BTN_CFG.op_queue
  trial : BitVec 17 := 600 -- 21 R558 UPD_CFG.trial
  outQueue : U16 := 2048 -- 21 R558 UPD_QUEUES.out_queue
  inQueue : U16 := 2049 -- 21 R558 UPD_QUEUES.in_queue
  waitLimit : BitVec 4 := 8 -- 13 R346 PEA_ARB_CFG.wait_limit
  vinMon : Bool := true -- 13 R346 PEA_STATUS.vin_mon
  recArmed : Bool := false -- 20 R550 recording armed
  traceQueue : U16 := 0xFFFF -- 20 R550 trace queue
deriving DecidableEq, Repr

/-- inv: legalSet. The legal configuration in the LEGAL configuration area (R105, R313, R356). -/
structure LegalSet where
  chans : Vector ChanCfg 48 := Vector.replicate 48 {} -- 04 R105 channel configurations
  tables : Vector (List Segment) 48 := Vector.replicate 48 identityTable -- 04 R105 active tables
  pairs : Vector (U32 × U32 × U32) 22 := vgen 22 fun p => (if p.val < 16 then 0x447A0000 else 0x43660000, 0, 0) -- 05 R130 reference voltage, starting current and no-load power of each pair
  pq : Vector PqSet 2 := Vector.replicate 2 {} -- 05 R130 supply quality settings
  calActive : List U8 := [] -- 14 R351 active calendar
  calPassive : List U8 := [] -- 14 R351 passive calendar
  interval : U8 := 15 -- 14 R356 interval length
  pendingInterval : Option U8 := none -- 14 R356 interval length that follows
  clockLimit : U8 := 2 -- 14 R356 clock limit
  readingQueue : U16 := 0xFFFF -- 14 R379 reading queue
  hold : BitVec 10 := 60 -- 14 R368 hold time
  tamper : Bool := false -- 14 R367 tamper flag
  keySlot : BitVec 4 := 0 -- 14 R380 BRI_CFG.key_slot
  tStop : BitVec 6 := 5 -- 14 R380 BRI_CFG.t_stop
  minRes : U32 := 0 -- 14 R380 BRI_MIN_RES
deriving DecidableEq, Repr

end Sys2Proof.Machine
end

