-- ==== Sys2Proof/Machine/Parts/Time.lean ====
section
/-! DEFINITION. State of the Tide timebase, the launcher and its rings, the snapshot banks (02_tide.md), the fabric
slack monitors and the die-to-die link (03_fabric_crossings.md). Every field's default is its value at reset. -/

namespace Sys2Proof.Machine

/-- One ring entry, the layout of R47. -/
structure Entry where
  time : U64 := 0 -- 02 R47 bytes 0-7
  target : U16 := 0 -- 02 R47 bytes 8-9
  slot : U16 := 0 -- 02 R47 bytes 10-11
  action : U8 := 0 -- 02 R47 byte 12
  flags : U8 := 0 -- 02 R47 byte 13
  guard : U16 := 0 -- 02 R47 bytes 14-15
  payload : List U8 := [] -- 02 R47 bytes 16-47
  cq : U16 := 0 -- 02 R47 bytes 48-49
  status : U8 := 0 -- 02 R47 byte 50
  rsvd : U8 := 0 -- 02 R47 byte 51
  tag : U32 := 0 -- 02 R47 bytes 52-55
  resolveTick : U64 := 0 -- 02 R47 bytes 56-63
deriving DecidableEq, Repr

/-- Where a taken ring entry stands: armed, decided at its fire tick and waiting for the A die's result (R54, R71),
or resolved and kept only as the entry before its successor (R51, R53). -/
inductive ItemPhase where
  | armed
  | decided (status : U8)
  | done (status : U8)
deriving DecidableEq, Repr

/-- One entry the launcher has taken from a ring, with the buffer it occupies. -/
structure RingItem where
  buf : Nat := 0 -- 02 R47 the entry's buffer
  entry : Entry := {} -- 02 R47 the entry
  phase : ItemPhase := .armed -- 02 R49 R54 its phase
  cut : Option U64 := none -- 02 R53 time of a cancelled waiting entry directly before it
deriving DecidableEq, Repr

/-- One ring as the launcher holds it: the taken entries in ring order, the entry before the first of them, and the
notes that cancelled waiting entries leave for their successors (R53). -/
structure Ring where
  chain : List RingItem := [] -- 02 R49 entries taken, in ring order
  prev : Option (U64 × U8) := none -- 02 R49 R51 time and status of the entry before the first of the chain
  notes : List (Nat × U64) := [] -- 02 R53 buffer of a waiting entry and the time of the cancelled entry before it
  tailNote : Option U64 := none -- 02 R53 time of a cancelled entry after the last waiting entry
deriving DecidableEq, Repr

/-- inv: tide. The Tide counter, its trim, PPS capture, time of day and zero-crossing stamps. -/
structure Tide where
  now : U64 := 0 -- 02 R37 R38 the Tide counter
  running : Bool := false -- 02 R37 R60 pll_lock: the PLL is locked and Tide counts
  xtalOk : Bool := false -- 02 R60 TID_STATUS.xtal_ok
  ready : Bool := false -- 02 R38 R60 TID_STATUS.tide_ready: the launcher runs
  lost : Bool := false -- 02 R59 loss of Tide since the last restart
  nowHi : U32 := 0 -- 02 R40 TID_NOW_HI
  trim : U32 := 0 -- 02 R42 TID_TRIM, signed
  trimActual : U32 := 0 -- 02 R42 TID_TRIM_ACTUAL, signed
  trimClamped : Bool := false -- 02 R60 TID_STATUS.trim_clamped
  ppsEnable : Bool := false -- 02 R60 TID_PPS_CTRL.enable
  ppsFalling : Bool := false -- 02 R60 TID_PPS_CTRL.falling
  ppsDiscipline : Bool := false -- 02 R60 TID_PPS_CTRL.discipline
  ppsWindow : U16 := 500 -- 02 R60 TID_PPS_CTRL.window_ppm
  ppsState : BitVec 2 := 0 -- 02 R60 TID_STATUS.pps_state
  ppsLast : U64 := 0 -- 02 R60 TID_PPS_LAST
  ppsSeen : Bool := false -- 02 R43 an edge has been accepted since enabling
  ppsSince : U64 := 0 -- 02 R43 instant of enabling or of the last accepted edge
  ppsRecent : List U64 := [] -- 02 R62 stamps of the edges accepted within the last 10 s, newest first
  ppsAccepted : U16 := 0 -- 02 R60 TID_PPS_COUNT.accepted
  ppsRejected : U16 := 0 -- 02 R60 TID_PPS_COUNT.rejected
  ppsInterval : U32 := 0 -- 02 R60 TID_PPS_INTERVAL, signed
  todAnchor : U64 := 0 -- 02 R45 TID_TOD_TIDE
  todSec : U64 := 0 -- 02 R45 TID_TOD_SEC, 0 for no mapping
  zc : Vector U64 6 := Vector.replicate 6 0 -- 02 R46 TID_ZC(k)
  zcSeen : Vector Bool 6 := Vector.replicate 6 false -- 02 R46 R60 phase k has had a crossing
deriving DecidableEq, Repr

/-- inv: lau. The launcher: its rings and counters. -/
structure Launcher where
  rings : List (Nat × Ring) := [] -- 02 R47-R54 rings 0-1,023, by number; a ring not listed is empty
  armedPeak : BitVec 13 := 0 -- 02 R60 TID_LAUNCH_STAT.armed_peak
  lateCnt : U32 := 0 -- 02 R60 TID_LATE_CNT
  collCnt : U32 := 0 -- 02 R60 TID_COLL_CNT
  orderCnt : U32 := 0 -- 02 R60 TID_ORDER_CNT
  skipCnt : U32 := 0 -- 02 R60 TID_SKIP_CNT
  denyCnt : U32 := 0 -- 02 R60 TID_DENY_CNT
  cqDropCnt : U32 := 0 -- 02 R60 TID_CQ_DROP_CNT
  discRing : BitVec 10 := 0 -- 02 R60 TID_LAST_DISCARD.ring
  discTarget : U8 := 0 -- 02 R60 TID_LAST_DISCARD.target
  discStatus : U8 := 0 -- 02 R60 TID_LAST_DISCARD.status
  discTick : U64 := 0 -- 02 R60 TID_LAST_DISCARD_T
  lateLogSecond : U64 := 0 -- 02 R50 second in which late log entries were last counted
  lateLogs : Nat := 0 -- 02 R50 late log entries written in that second, at most 64
  exports : List (Fin 4 × Entry) := [] -- 02 R55 R62 snapshots whose bank a mailbox exports once it is readable
deriving DecidableEq, Repr

/-- The latched state of one module in a snapshot (R55). -/
structure SnapModule where
  record : List U8 := [] -- 02 R55 the telemetry record
  stamp : U64 := 0 -- 02 R55 its receive stamp
deriving DecidableEq, Repr

/-- One snapshot bank (R55, R56). -/
structure SnapBank where
  seq : U8 := 0 -- 02 R56 TID_SNAP_SEQ sequence number of the bank
  instant : U64 := 0 -- 02 R55 the snapshot instant
  samples : List (U32 × U64) := [] -- 02 R55 corrected sample and stamp of each of the 48 channels
  settled : List Bool := [] -- 06 R156 whether each of those samples was settled
  modules : List SnapModule := [] -- 02 R55 telemetry of each of the 96 modules
  pilots : List (U32 × U32) := [] -- 02 R55 CP and PP state of each of the 16 connectors
  highSide : List U32 := [] -- 02 R55 state of the 40 high-side channels
  lowSide : List U32 := [] -- 02 R55 state of the 16 low-side channels
deriving DecidableEq, Repr

/-- How a barrier let a participant go on (R58). -/
inductive BarrierResult where
  | released
  | barrierFailed
deriving DecidableEq, Repr

/-- inv: barrier. The one barrier that can be open (R58). -/
structure Barrier where
  isOpen : Bool := false -- 02 R60 TID_BARRIER_STAT.open
  at_ : U64 := 0 -- 02 R58 the instant b at which it was opened
  arrived : BitVec 7 := 0 -- 02 R60 TID_BARRIER_STAT.arrived
  fail : Bool := false -- 02 R60 TID_BARRIER_STAT.barrier_fail
  missing : BitVec 7 := 0 -- 02 R60 TID_BARRIER_STAT.missing
  result : Vector (Option BarrierResult) 7 := Vector.replicate 7 none -- 02 R58 status with which each participant was last released
deriving DecidableEq, Repr

/-- The slack figures of one engine or barrier participant (R65). -/
structure Slack where
  last : U32 := 0 -- 03 R65 last slack, ticks
  least : U32 := 0xFFFFFFFF -- 03 R65 least slack since clearing; all ones when nothing has completed since (DESIGN CHOICE, log entry 163)
  warnings : U32 := 0 -- 03 R65 R66 margin warnings
  overruns : U32 := 0 -- 03 R65 R67 overruns
  lastWarnIrq : Option U64 := none -- 03 R66 instant of the last source 16 for this engine
deriving DecidableEq, Repr

/-- inv: cross[k]. One crossing between timing domains (R76 to R79). -/
structure Crossing where
  receiver : Bool := false -- 03 R79 the receiver is released
  sender : Bool := false -- 03 R79 the sender is released
  copyValid : Bool := false -- 03 R78 R79 the Gray copies are valid
  toggle : Bool := false -- 03 R76 the sender's toggle
  ack : Bool := false -- 03 R76 the receiver's toggle
  waiting : List U32 := [] -- 03 R78 events that wait at the sender, oldest first
deriving DecidableEq, Repr

/-- inv: d2d. The die-to-die link (R68 to R74) and Dyke's watch on Tide (R59). -/
structure D2d where
  crcL2A : U32 := 0 -- 03 R81 CRC failures L die to A die
  crcA2L : U32 := 0 -- 03 R81 CRC failures A die to L die
  secondCopy : U32 := 0 -- 03 R81 actions fired from the second copy
  retrans : U32 := 0 -- 03 R81 retransmissions
  fault : Bool := false -- 03 R73 link in fault
  tideLaneOk : Bool := false -- 03 R69 R60 d2d_tide_ok: Tide lane valid
  lastL2A : Option U64 := none -- 03 R69 start of the last L-to-A frame received
  lastA2L : Option U64 := none -- 03 R69 start of the last A-to-L frame received
  runL2A : Nat := 0 -- 03 R73 consecutive failed frames, L to A
  runA2L : Nat := 0 -- 03 R73 consecutive failed frames, A to L
  resend : List (U64 × Nat) := [] -- 03 R72 A-to-L frames asked for again from the replay buffer: start, retransmissions asked for
  failsThisFrame : Nat := 0 -- 03 R73 CRC failures in the present allocation frame
  rateRaised : Bool := false -- 03 R73 source 18 raised in the present allocation frame
  frameOf : U64 := 0 -- 03 R73 allocation frame that failsThisFrame counts
  missedPermits : Nat := 0 -- 03 R74 consecutive frames without a valid Dyke permit word
  sent : List U8 := [] -- 03 R72 the latest valid L-to-A payload at the A die, its state fields
  payload : List U8 := [] -- 03 R72 20 R536 the latest valid A-to-L payload, its state fields, without the modulator bits
  payloadOf : U64 := 0 -- 03 R72 start of the frame that brought it
  inputAt : U64 := 0 -- 03 R70 stamp of the last A-die input: frame start and offset
  streamWait : List (U64 × List U8) := [] -- 03 R72 stream fields delivered and not yet readable, with their stamps
  streamRead : Option (U64 × List U8) := none -- 03 R72 the latest stream fields a unit may read
  dykeSlow : Nat := 0 -- 02 R59 consecutive Dyke samples with a slow counter
deriving DecidableEq, Repr

end Sys2Proof.Machine
end

