-- ==== Sys2Proof/Machine/State.lean ====
section
/-! DEFINITION. The state of the whole block: every unit's state, and the queue of commands that wait. -/

namespace Sys2Proof.Machine

/-- Why a step stops with a fault. -/
inductive Fault where
  /-- Raised by no command: the block names no access that stops it. Safe. -/
  | none_
deriving DecidableEq, Repr

/-- Why a command has no meaning. -/
inductive Refusal where
  /-- Raised by an arm of exec whose command has no meaning yet. Safe. -/
  | notModelled (mnemonic : String)
deriving DecidableEq, Repr

/-- inv: kept. What a reset keeps out of the registers until boot stage 1 puts it back (R490, R558). -/
structure Kept where
  acc : Energy := {} -- 05 R36 R112 flags of the energy registers
  legal : Vector LegalConn 16 := Vector.replicate 16 {} -- 14 R360 flags of the connector and session registers
  key : KeyStore := {} -- 19 R490 keys of a reset of HUB scope
  wallets : List Nat := [] -- 01 R36 wallets that are UNPROVEN
  dmp : Dump := {} -- 20 R533 the dump region, where LPDDR4X keeps it
  ue : Bool := false -- 13 R316 an uncorrectable error is not acknowledged
  ueLine : U32 := 0xFFFFFFFF -- 13 R316 its line
  ueCnt : U32 := 0 -- 13 R344 PEA_UE_CNT, kept in the legal log
deriving DecidableEq, Repr

/-- inv: prior. The units that a snapshot latches, as they stood when Tide last moved: what a latch of the present tick sees (R15,
R55). -/
structure Prior where
  met : Metrology := {} -- 01 R15 02 R55 the channels before the present tick
  mlk : ModLink := {} -- 01 R15 02 R55 the telemetry before the present tick
  veh : Vector Connector 16 := Vector.replicate 16 {} -- 01 R15 02 R55 the pilots before the present tick
  saf : Safety := {} -- 01 R15 02 R55 the low sides before the present tick
  lsw : Switches := {} -- 01 R15 02 R55 the switches before the present tick
deriving DecidableEq, Repr

/-- Everything the device holds, unit by unit. -/
structure Block where
  tide : Tide := {}
  lau : Launcher := {}
  snaps : Vector SnapBank 4 := Vector.replicate 4 {}
  barrier : Barrier := {}
  fab : Vector Slack 15 := Vector.replicate 15 {}
  d2d : D2d := {}
  cross : Vector Crossing 9 := Vector.replicate 9 {}
  met : Metrology := {}
  acc : Energy := {}
  pq : Pq := {}
  sess : Vector Session 16 := Vector.replicate 16 {}
  slu : Sluice := {}
  sluCnt : SluCounts := {}
  mlk : ModLink := {}
  veh : Vector Connector 16 := Vector.replicate 16 {}
  vehCfg : VehCfg := {}
  plc : Vector Modem 16 := Vector.replicate 16 {}
  plcCfg : PlcCfg := {}
  v2g : Vector V2gSession 16 := Vector.replicate 16 {}
  v2gCfg : V2gCfg := {}
  imd : Vector ImdNode 16 := Vector.replicate 16 {}
  imdG : ImdGlobal := {}
  rcm : Vector Rcm 2 := Vector.replicate 2 {}
  rcmTest : Option RcmTest := none
  saf : Safety := {}
  safX : SafetyX := {}
  lsw : Switches := {}
  pea : Peat := {}
  arb : Arbiter := {}
  pf : PowerFail := {}
  slt : Saltern := {}
  legal : Vector LegalConn 16 := Vector.replicate 16 {}
  auth : Vector AuthHold 16 := Vector.replicate 16 {}
  backup : Backup := {}
  bri : Brine := {}
  key : KeyStore := {}
  mbx : Vector Mailbox 4 := Vector.replicate 4 {}
  hp : HostPort := {}
  hic : Hic := {}
  qmg : QueueManager := {}
  cwy : Causeway := {}
  cwyX : CausewayX := {}
  pnl : Vector Panel 8 := Vector.replicate 8 {}
  frames : Memory := []
  nfc : Vector Reader 8 := Vector.replicate 8 {}
  rst : ResetUnit := {}
  upd : Update := {}
  btn : Bittern := {}
  dmp : Dump := {}
  rpl : Replay := {}
  dbg : Debug := {}
  settings : Settings := {}
  newSettings : Option Settings := none
  legalSet : LegalSet := {}
  updRec : UpdRecord := {}
  kept : Option Kept := none
  prior : Prior := {}
deriving DecidableEq, Repr

/-- The state of the block: what the device holds, and the commands that wait, first in, first out. -/
structure State where
  block : Block := {}
  pending : List Instr := []
deriving DecidableEq, Repr

/-- What a command answers. -/
abbrev Result := Host.Outcome State Fault Refusal

/-- The block right after reset. -/
def State.reset : State := {}

end Sys2Proof.Machine
end

