-- ==== Sys2Proof/Machine/Ops.lean ====
section
/-! DEFINITION. The named operations every meaning is built from: sparse maps and addressed memories in canonical form,
byte strings and bit fields, the cyclic redundancy checks the spec names, and the instants of Tide. -/

namespace Sys2Proof.Machine

/-! ### Sparse maps: keys strictly rising, no entry equal to the default -/

/-- The value of key `k`, `d` when it is not listed. -/
def sget {α : Type} (d : α) : List (Nat × α) → Nat → α
  | [], _ => d
  | (k', v) :: r, k => if k' = k then v else sget d r k

/-- Set key `k` to `v`, keeping the canonical form. -/
def sput {α : Type} [DecidableEq α] (d : α) : List (Nat × α) → Nat → α → List (Nat × α)
  | [], k, v => if v = d then [] else [(k, v)]
  | (k', v') :: r, k, v =>
    if k < k' then (if v = d then (k', v') :: r else (k, v) :: (k', v') :: r)
    else if k = k' then (if v = d then r else (k, v) :: r)
    else (k', v') :: sput d r k v

/-- Keys strictly rising above `lo`, no listed value equal to the default. -/
def swfFrom {α : Type} [DecidableEq α] (d : α) : Option Nat → List (Nat × α) → Bool
  | _, [] => true
  | lo, (k, v) :: r => (match lo with | none => true | some l => decide (l < k)) && decide (v ≠ d) && swfFrom d (some k) r

/-- The canonical form of a sparse map. -/
def swf {α : Type} [DecidableEq α] (d : α) (l : List (Nat × α)) : Bool := swfFrom d none l

/-- Apply `f` to the value of key `k`. -/
def supd {α : Type} [DecidableEq α] (d : α) (l : List (Nat × α)) (k : Nat) (f : α → α) : List (Nat × α) :=
  sput d l k (f (sget d l k))

/-! ### Addressed memories -/

/-- The canonical form of a memory (addresses strictly rising, no listed byte 0). -/
def Memory.wf (m : Memory) : Bool := swf (0 : U8) m

/-- The byte at address `a`; an unlisted address reads as 0. -/
def Memory.read (m : Memory) (a : Nat) : U8 := sget 0 m a

/-- Store one byte. -/
def Memory.write (m : Memory) (a : Nat) (v : U8) : Memory := sput 0 m a v

/-- `n` bytes from address `a` upward. -/
def Memory.readN (m : Memory) (a : Nat) : Nat → List U8
  | 0 => []
  | n + 1 => m.read a :: Memory.readN m (a + 1) n

/-- Store bytes from address `a` upward. -/
def Memory.writeN (m : Memory) (a : Nat) : List U8 → Memory
  | [] => m
  | b :: r => Memory.writeN (m.write a b) (a + 1) r

/-- Store `n` zero bytes from address `a` upward. -/
def Memory.zeroN (m : Memory) (a n : Nat) : Memory := m.writeN a (List.replicate n 0)

/-- A memory that holds the given bytes from address 0. -/
def Memory.ofBytes (l : List U8) : Memory := Memory.writeN [] 0 l

/-! ### Byte strings, little-endian (R6) -/

/-- The number that a little-endian byte string spells. -/
def leNat : List U8 → Nat
  | [] => 0
  | b :: r => b.toNat + 256 * leNat r

/-- The `n` low bytes of a number, least significant first. -/
def leBytes : Nat → Nat → List U8
  | 0, _ => []
  | n + 1, v => BitVec.ofNat 8 v :: leBytes n (v / 256)

/-- The 4 bytes of a word. -/
def b32 (w : U32) : List U8 := leBytes 4 w.toNat
/-- The 8 bytes of a 64-bit word. -/
def b64 (w : U64) : List U8 := leBytes 8 w.toNat
/-- The 2 bytes of a 16-bit word. -/
def b16 (w : U16) : List U8 := leBytes 2 w.toNat
/-- The bytes of a list of words. -/
def b32s (l : List U32) : List U8 := l.flatMap b32

/-- The number big-endian bytes spell (hashes, keys and signatures, R6). -/
def beNat (l : List U8) : Nat := leNat l.reverse
/-- The `n` low bytes of a number, most significant first. -/
def beBytes (n v : Nat) : List U8 := (leBytes n v).reverse

/-- A byte string of exactly `n` bytes: cut, or filled with zeros. -/
def padTo (n : Nat) (l : List U8) : List U8 := (l ++ List.replicate (n - l.length) 0).take n

/-- Zero bytes. -/
def zeros (n : Nat) : List U8 := List.replicate n 0

/-- `n` bytes of a string from offset `o`, zeros beyond its end. -/
def slice (l : List U8) (o n : Nat) : List U8 := padTo n (l.drop o)

/-- The byte at offset `o`, 0 beyond the end. -/
def byteAt (l : List U8) (o : Nat) : U8 := l.getD o 0

/-- The little-endian number in `n` bytes at offset `o`. -/
def natAt (l : List U8) (o n : Nat) : Nat := leNat (slice l o n)

/-- Replace the bytes from offset `o` by `x`, the length unchanged. -/
def splice (l : List U8) (o : Nat) (x : List U8) : List U8 :=
  (l.take o ++ x ++ l.drop (o + x.length)).take l.length

/-- A byte string cut into pieces of `n` bytes. -/
def chunksAux (n : Nat) : Nat → List U8 → List (List U8)
  | 0, _ => []
  | f + 1, l => if l.isEmpty then [] else l.take n :: chunksAux n f (l.drop n)

/-- A byte string cut into pieces of `n` bytes, the last one shorter when the length does not divide. -/
def chunks (n : Nat) (l : List U8) : List (List U8) := chunksAux n l.length l

/-! ### Bit fields -/

/-- The field of a word that starts at bit `lo` and is `w` bits wide, as a number. -/
def fieldOf (x : Nat) (lo w : Nat) : Nat := x / 2 ^ lo % 2 ^ w

/-- Bit `k` of a number. -/
def bitOf (x k : Nat) : Bool := x / 2 ^ k % 2 == 1

/-- A word from fields: each a value placed at its lowest bit. -/
def packFields : List (Nat × Nat) → Nat
  | [] => 0
  | (lo, v) :: r => v * 2 ^ lo + packFields r

/-- A 32-bit register from fields, each a value and its lowest bit. -/
def reg32 (l : List (Nat × Nat)) : U32 := BitVec.ofNat 32 (packFields l)

/-- The number whose bit `k` is the `k`-th flag. -/
def bitsNat : List Bool → Nat
  | [] => 0
  | b :: r => b2n b + 2 * bitsNat r

/-- A signed number cut to the range of a `w`-bit field. -/
def satInt (w : Nat) (x : Int) : BitVec w :=
  if (2 : Int) ^ (w - 1) ≤ x then BitVec.ofInt w ((2 : Int) ^ (w - 1) - 1)
  else if x < -((2 : Int) ^ (w - 1)) then BitVec.ofInt w (-((2 : Int) ^ (w - 1)))
  else BitVec.ofInt w x

/-- Low word of a 64-bit value. -/
def lo32 (x : U64) : U32 := x.setWidth 32
/-- High word of a 64-bit value. -/
def hi32 (x : U64) : U32 := (x >>> 32).setWidth 32

/-! ### Cyclic redundancy checks -/

/-- One step of a reflected CRC of 32 bits. -/
def crc32cBit (c : U32) : U32 := if c.getLsbD 0 then (c >>> 1) ^^^ 0x82F63B78 else c >>> 1

/-- Eight steps. -/
def crc32cByte (c : U32) (b : U8) : U32 :=
  let x := c ^^^ b.setWidth 32
  crc32cBit (crc32cBit (crc32cBit (crc32cBit (crc32cBit (crc32cBit (crc32cBit (crc32cBit x)))))))

/-- CRC-32C of a byte string (Castagnoli polynomial, reflected, initial value and final inversion all ones).
PRESUMED: the spec names the check and gives no parameters; log entry 3. -/
def crc32c (l : List U8) : U32 := ~~~(l.foldl crc32cByte 0xFFFFFFFF)

/-- One step of the CRC-16 of R442, most significant bit first. -/
def crc16Bit (c : U16) : U16 := if c.getLsbD 15 then (c <<< 1) ^^^ 0x1021 else c <<< 1

/-- CRC-16 of R442: x^16 + x^12 + x^5 + 1, initial value 0xFFFF. -/
def crc16 (l : List U8) : U16 :=
  l.foldl (fun (c : U16) (b : U8) =>
    let x : U16 := c ^^^ (b.setWidth 16 <<< 8)
    crc16Bit (crc16Bit (crc16Bit (crc16Bit (crc16Bit (crc16Bit (crc16Bit (crc16Bit x)))))))) 0xFFFF

/-- One step of the CRC-8 of R416. -/
def crc8Bit (c : U8) : U8 := if c.getLsbD 7 then (c <<< 1) ^^^ 0x07 else c <<< 1

/-- CRC-8 of R416: x^8 + x^2 + x + 1, initial value 0xFF, no reflection, no final inversion. -/
def crc8 (l : List U8) : U8 :=
  l.foldl (fun (c b : U8) =>
    let x := c ^^^ b
    crc8Bit (crc8Bit (crc8Bit (crc8Bit (crc8Bit (crc8Bit (crc8Bit (crc8Bit x)))))))) 0xFF

/-! ### Time -/

/-- Ticks of one second, one millisecond and one microsecond (R7, the table of ticks). -/
def tSec : Nat := 1500000000
/-- Ticks of one millisecond. -/
def tMs : Nat := 1500000
/-- Ticks of one microsecond. -/
def tUs : Nat := 1500
/-- Ticks of one allocation frame (R14). -/
def tFrame : Nat := 1500000
/-- Ticks of one metrology sample period (R14). -/
def tSample : Nat := 48000
/-- Ticks of one module-link cycle (R14). -/
def tCycle : Nat := 60000

/-- The present Tide instant. -/
def now (b : Block) : U64 := b.tide.now

/-- Ticks since instant `t`, 0 when it lies ahead. -/
def since (b : Block) (t : U64) : Nat := b.tide.now.toNat - t.toNat

/-- The instant `k` ticks ahead. -/
def ahead (b : Block) (k : Nat) : U64 := b.tide.now + BitVec.ofNat 64 k

/-- `n` ticks or more have passed since `t`. -/
def passed (b : Block) (t : U64) (n : Nat) : Bool := decide (n ≤ since b t)

/-- Tide moves to instant `t`; what stands then is what the latches of that tick see (R15). -/
def setNow (t : U64) (b : Block) : Block :=
  { b with tide := { b.tide with now := t }, prior := { met := b.met, mlk := b.mlk, veh := b.veh, saf := b.saf, lsw := b.lsw } }

/-- Tide has run on to instant `t`: a command of an event that the spec ties to an instant comes when that instant has come
(DESIGN CHOICE, log entry 17). Tide never runs back, and does not move while it is stopped. -/
def tideTo (t : Nat) (b : Block) : Block :=
  if b.tide.running = true ∧ b.tide.now.toNat < t then setNow (BitVec.ofNat 64 t) b else b

/-- The event due at instant `t`: Tide runs on to it, and `f` is its effect. Without Tide the instant does not come. -/
def atInstant (t : Nat) (f : Block → Block) (b : Block) : Block :=
  let b := tideTo t b
  if t ≤ b.tide.now.toNat then f b else b

/-- The event due `n` ticks after `t`. -/
def afterTicks (t : U64) (n : Nat) (f : Block → Block) (b : Block) : Block := atInstant (t.toNat + n) f b

/-- The first multiple of `p` at or after `x`. -/
def multipleFrom (p x : Nat) : Nat := (x + p - 1) / p * p

/-- The first multiple of `p` that lies at or after now and after `last`. -/
def nextMultiple (p : Nat) (last : Option U64) (b : Block) : Nat :=
  multipleFrom p (match last with | some t => max b.tide.now.toNat (t.toNat + 1) | none => b.tide.now.toNat)

/-- Apply `f` when the condition holds. -/
def onlyIf {α : Type} (c : Bool) (f : α → α) (x : α) : α := if c then f x else x

/-- Apply a numbered change for each element of a list, in order. -/
def forAll {α β : Type} (l : List β) (f : β → α → α) (x : α) : α := l.foldl (fun a b => f b a) x

end Sys2Proof.Machine
end

