-- ==== Sys2Proof/Machine/Crypto.lean ====
section
/-! DEFINITION. The digests, signatures and the cipher of the standards that R9 names: SHA-256 and SHA-384 of FIPS 180-4, HMAC of
FIPS 198-1, ECDSA of FIPS 186-5 on P-256 and P-384 with the nonce of RFC 6979, AES-256-GCM of FIPS 197 and SP 800-38D (00_scope.md R9;
15_keys.md). PRESUMED from those standards, log entry 4. -/

namespace Sys2Proof.Machine

/-! ### SHA-2 -/

/-- The first 80 primes. -/
def primes80 : List Nat :=
  [2, 3, 5, 7, 11, 13, 17, 19, 23, 29, 31, 37, 41, 43, 47, 53, 59, 61, 67, 71] ++
  [73, 79, 83, 89, 97, 101, 103, 107, 109, 113, 127, 131, 137, 139, 149, 151, 157, 163, 167, 173] ++
  [179, 181, 191, 193, 197, 199, 211, 223, 227, 229, 233, 239, 241, 251, 257, 263, 269, 271, 277, 281] ++
  [283, 293, 307, 311, 313, 317, 331, 337, 347, 349, 353, 359, 367, 373, 379, 383, 389, 397, 401, 409]
/-- The largest `r` with `r ^ e` at most `v`, found bit by bit from bit `n - 1`. -/
def rootBits (e v : Nat) : Nat → Nat → Nat
  | 0, r => r
  | n + 1, r => if (r + 2 ^ n) ^ e ≤ v then rootBits e v n (r + 2 ^ n) else rootBits e v n r
/-- The first `w` bits of the fractional part of the `e`-th root of `p`. -/
def rootFraction (w e p : Nat) : BitVec w := BitVec.ofNat w (rootBits e (p * 2 ^ (e * w)) (w + 5) 0)

/-- What tells the hash functions of FIPS 180-4 apart: words, rounds, the rotations of their four functions, the start value. -/
structure Sha2 (w : Nat) where
  rounds : Nat
  big0 : Nat × Nat × Nat
  big1 : Nat × Nat × Nat
  small0 : Nat × Nat × Nat
  small1 : Nat × Nat × Nat
  start : List (BitVec w)

/-- SHA-256. -/
def sha256Kind : Sha2 32 :=
  { rounds := 64, big0 := (2, 13, 22), big1 := (6, 11, 25), small0 := (7, 18, 3), small1 := (17, 19, 10)
    start := (primes80.take 8).map (rootFraction 32 2) }
/-- SHA-384. -/
def sha384Kind : Sha2 64 :=
  { rounds := 80, big0 := (28, 34, 39), big1 := (14, 18, 41), small0 := (1, 8, 7), small1 := (19, 61, 6)
    start := ((primes80.drop 8).take 8).map (rootFraction 64 2) }

/-- Three rotations. -/
def turn3 {w : Nat} (r : Nat × Nat × Nat) (x : BitVec w) : BitVec w := x.rotateRight r.1 ^^^ x.rotateRight r.2.1 ^^^ x.rotateRight r.2.2
/-- Two rotations and a shift. -/
def turn2 {w : Nat} (r : Nat × Nat × Nat) (x : BitVec w) : BitVec w := x.rotateRight r.1 ^^^ x.rotateRight r.2.1 ^^^ (x >>> r.2.2)
/-- The message schedule, the newest word first, after `n` words more. -/
def scheduleAux {w : Nat} (k : Sha2 w) : Nat → List (BitVec w) → List (BitVec w)
  | 0, l => l
  | n + 1, l =>
    scheduleAux k n ((turn2 k.small1 (l.getD 1 0) + l.getD 6 0 + turn2 k.small0 (l.getD 14 0) + l.getD 15 0) :: l)
/-- One round: the working variables a to h. -/
def shaRound {w : Nat} (k : Sha2 w) (v : List (BitVec w)) (x : BitVec w × BitVec w) : List (BitVec w) :=
  match v with
  | [a, b, c, d, e, f, g, h] =>
    let t := h + turn3 k.big1 e + ((e &&& f) ^^^ (~~~e &&& g)) + x.1 + x.2
    [t + turn3 k.big0 a + ((a &&& b) ^^^ (a &&& c) ^^^ (b &&& c)), a, b, c, d + t, e, f, g]
  | _ => v
/-- The round constants: fractions of the cube roots of the primes. -/
def shaConstants (w n : Nat) : List (BitVec w) := (primes80.take n).map (rootFraction w 3)
/-- One block of 16 words. -/
def shaBlock {w : Nat} (k : Sha2 w) (h block : List (BitVec w)) : List (BitVec w) :=
  let ws := (scheduleAux k (k.rounds - 16) block.reverse).reverse
  List.zipWith (· + ·) h (((shaConstants w k.rounds).zip ws).foldl (shaRound k) h)
/-- The big-endian words of a byte string, `n` of them. -/
def wordsBe (w : Nat) : Nat → List U8 → List (BitVec w)
  | 0, _ => []
  | n + 1, l => BitVec.ofNat w (beNat (l.take (w / 8))) :: wordsBe w n (l.drop (w / 8))
/-- The padded message: a one bit, zeros, and the length in bits in an eighth of a block. -/
def shaPad (w : Nat) (l : List U8) : List U8 :=
  let n := 2 * w
  l ++ [0x80] ++ zeros ((2 * n - 1 - n / 8 - l.length % n) % n) ++ beBytes (n / 8) (8 * l.length)
/-- The blocks in order. -/
def shaBlocks {w : Nat} (k : Sha2 w) : Nat → List U8 → List (BitVec w) → List (BitVec w)
  | 0, _, h => h
  | n + 1, l, h => shaBlocks k n (l.drop (2 * w)) (shaBlock k h (wordsBe w 16 (l.take (2 * w))))
/-- The hash value in bytes, before it is cut to its length. -/
def shaHash {w : Nat} (k : Sha2 w) (l : List U8) : List U8 :=
  let p := shaPad w l
  (shaBlocks k (p.length / (2 * w)) p k.start).flatMap fun x => beBytes (w / 8) x.toNat
/-- SHA-256 as 32 bytes. -/
@[irreducible] def sha256 (l : List U8) : List U8 := (shaHash sha256Kind l).take 32
/-- SHA-384 as 48 bytes. -/
@[irreducible] def sha384 (l : List U8) : List U8 := (shaHash sha384Kind l).take 48

/-! ### HMAC -/

/-- The key of HMAC exclusive-or a constant byte, `n` bytes to a block. -/
def hmacKey (hash : List U8 → List U8) (n : Nat) (key : List U8) (c : U8) : List U8 :=
  (padTo n (if n < key.length then hash key else key)).map (· ^^^ c)
/-- HMAC with a hash function of blocks of `n` bytes. -/
def hmac (hash : List U8 → List U8) (n : Nat) (key msg : List U8) : List U8 :=
  hash (hmacKey hash n key 0x5C ++ hash (hmacKey hash n key 0x36 ++ msg))
/-- HMAC-SHA-256. -/
def hmac256 (key msg : List U8) : List U8 := hmac sha256 64 key msg
/-- HMAC-SHA-384. -/
@[irreducible] def hmac384 (key msg : List U8) : List U8 := hmac sha384 128 key msg

/-! ### The curves -/

/-- A short Weierstrass curve y² = x³ - 3x + b over the integers modulo p, with a base point of order n. -/
structure Curve where
  p : Nat
  b : Nat
  gx : Nat
  gy : Nat
  n : Nat
  bytes : Nat

/-- P-256. -/
def curveP256 : Curve :=
  { p := 0xFFFFFFFF00000001000000000000000000000000FFFFFFFFFFFFFFFFFFFFFFFF
    b := 0x5AC635D8AA3A93E7B3EBBD55769886BC651D06B0CC53B0F63BCE3C3E27D2604B
    gx := 0x6B17D1F2E12C4247F8BCE6E563A440F277037D812DEB33A0F4A13945D898C296
    gy := 0x4FE342E2FE1A7F9B8EE7EB4A7C0F9E162BCE33576B315ECECBB6406837BF51F5
    n := 0xFFFFFFFF00000000FFFFFFFFFFFFFFFFBCE6FAADA7179E84F3B9CAC2FC632551, bytes := 32 }
/-- P-384. -/
def curveP384 : Curve :=
  { p := 0xFFFFFFFFFFFFFFFFFFFFFFFFFFFFFFFFFFFFFFFFFFFFFFFFFFFFFFFFFFFFFFFEFFFFFFFF0000000000000000FFFFFFFF
    b := 0xB3312FA7E23EE7E4988E056BE3F82D19181D9C6EFE8141120314088F5013875AC656398D8A2ED19D2A85C8EDD3EC2AEF
    gx := 0xAA87CA22BE8B05378EB1C71EF320AD746E1D3B628BA79B9859F741E082542A385502F25DBF55296C3A545E3872760AB7
    gy := 0x3617DE4A96262C6F5D9E98BF9292DC29F8F41DBD289A147CE9DA3113B5F0B8C00A60B1CE1D7E819D7A431D7C90EA0E5F
    n := 0xFFFFFFFFFFFFFFFFFFFFFFFFFFFFFFFFFFFFFFFFFFFFFFFFC7634D81F4372DDF581A0DB248B0A77AECEC196ACCC52973, bytes := 48 }
/-- The curve of a number: 1 P-256, 2 P-384. -/
def curveOf (c : Nat) : Curve := if c = 1 then curveP256 else curveP384

/-- `a ^ e` modulo `m`, over the `k` low bits of `e`. -/
def powMod (m : Nat) : Nat → Nat → Nat → Nat
  | 0, _, _ => 1 % m
  | k + 1, a, e => (if e % 2 = 1 then a else 1) * powMod m k (a * a % m) (e / 2) % m
/-- The inverse modulo a prime of at most 384 bits. -/
def invMod (m a : Nat) : Nat := powMod m 384 (a % m) (m - 2)
/-- `a - b` modulo `m`, of two residues. -/
def subMod (m a b : Nat) : Nat := (a + m - b) % m
/-- The third point on a line of slope `s` through two points, mirrored. -/
def chord (c : Curve) (s x y x' : Nat) : Nat × Nat :=
  let u := subMod c.p (subMod c.p (s * s % c.p) x) x'
  (u, subMod c.p (s * subMod c.p x u % c.p) y)
/-- The sum of two points; none is the point at infinity. -/
def addPoint (c : Curve) : Option (Nat × Nat) → Option (Nat × Nat) → Option (Nat × Nat)
  | none, q => q
  | p, none => p
  | some (x, y), some (u, v) =>
    if x = u then
      if (y + v) % c.p = 0 then none
      else some (chord c (subMod c.p (3 * x * x % c.p) 3 * invMod c.p (2 * y) % c.p) x y u)
    else some (chord c (subMod c.p v y * invMod c.p (subMod c.p u x) % c.p) x y u)
/-- A multiple of a point, over the `k` low bits of the factor. -/
def mulPoint (c : Curve) : Nat → Nat → Option (Nat × Nat) → Option (Nat × Nat)
  | 0, _, _ => none
  | k + 1, d, q => addPoint c (if d % 2 = 1 then q else none) (mulPoint c k (d / 2) (addPoint c q q))
/-- A multiple of the base point. -/
def mulBase (c : Curve) (d : Nat) : Option (Nat × Nat) := mulPoint c 384 d (some (c.gx, c.gy))
/-- The uncompressed form of a point (R387); zeros for the point at infinity, which no private scalar gives. -/
def pointBytes (c : Curve) : Option (Nat × Nat) → List U8
  | some (x, y) => [4] ++ beBytes c.bytes x ++ beBytes c.bytes y
  | none => zeros (2 * c.bytes + 1)
/-- The point that the uncompressed bytes give, when they are one of the curve (R400). -/
def pointOf (c : Curve) (l : List U8) : Option (Nat × Nat) :=
  let x := beNat (slice l 1 c.bytes)
  let y := beNat (slice l (1 + c.bytes) c.bytes)
  if l.length = 2 * c.bytes + 1 ∧ byteAt l 0 = 4 ∧ x < c.p ∧ y < c.p ∧ y * y % c.p = subMod c.p (x * x * x + c.b) (3 * x % c.p) then some (x, y) else none
/-- The bytes are a point of curve `c`. -/
@[irreducible] def onCurve (c : Nat) (l : List U8) : Bool := (pointOf (curveOf c) l).isSome
/-- The uncompressed public key of a scalar: 65 bytes for P-256, 97 for P-384. -/
@[irreducible] def pubBytes (c d : Nat) : List U8 := pointBytes (curveOf c) (mulBase (curveOf c) d)

/-! ### ECDSA -/

/-- The HMAC that goes with a curve. -/
def curveHmac (c : Curve) (key msg : List U8) : List U8 := if c.bytes = 32 then hmac256 key msg else hmac384 key msg
/-- The signature with nonce `k` of digest `h` under scalar `d`, when `k` gives one. -/
def signNonce (c : Curve) (d h k : Nat) : Option (Nat × Nat) :=
  if k = 0 ∨ c.n ≤ k then none
  else match mulBase c k with
    | none => none
    | some (x, _) =>
      let r := x % c.n
      let s := invMod c.n k * ((h + r * d) % c.n) % c.n
      if r = 0 ∨ s = 0 then none else some (r, s)
/-- The first nonce of the generator of RFC 6979 that gives a signature, within `f` candidates. -/
def nonceSign (c : Curve) (d h : Nat) : Nat → List U8 → List U8 → Option (Nat × Nat)
  | 0, _, _ => none
  | f + 1, key, v =>
    let v := curveHmac c key v
    match signNonce c d h (beNat v) with
    | some x => some x
    | none =>
      let key := curveHmac c key (v ++ [0])
      nonceSign c d h f key (curveHmac c key v)
/-- The ECDSA signature of a digest with the nonce of RFC 6979: r then s. The generator is asked 64 times at most; that all fail has
a probability below 2⁻²⁰⁰⁰. -/
@[irreducible] def ecdsaSign (curve d digest : Nat) : List U8 :=
  let c := curveOf curve
  let seed := beBytes c.bytes d ++ beBytes c.bytes (digest % c.n)
  let v := List.replicate c.bytes 1
  let key := curveHmac c (zeros c.bytes) (v ++ [0] ++ seed)
  let v := curveHmac c key v
  let key := curveHmac c key (v ++ [1] ++ seed)
  match nonceSign c d digest 64 key (curveHmac c key v) with
  | some (r, s) => beBytes c.bytes r ++ beBytes c.bytes s
  | none => zeros (2 * c.bytes)
/-- Verification of a signature, r then s, of a digest under an uncompressed public key. -/
@[irreducible] def ecdsaVerify (curve : Nat) (pub : List U8) (digest : Nat) (sig : List U8) : Bool :=
  let c := curveOf curve
  let r := beNat (slice sig 0 c.bytes)
  let s := beNat (slice sig c.bytes c.bytes)
  match pointOf c (pub.take (2 * c.bytes + 1)) with
  | none => false
  | some q =>
    if r = 0 ∨ s = 0 ∨ c.n ≤ r ∨ c.n ≤ s then false
    else
      let w := invMod c.n s
      match addPoint c (mulBase c (digest * w % c.n)) (mulPoint c 384 (r * w % c.n) (some q)) with
      | some (x, _) => x % c.n == r
      | none => false

/-! ### AES-256 -/

/-- A byte times x in the field of AES. -/
def timesX (a : U8) : U8 := (a <<< 1) ^^^ (if a.getLsbD 7 then 0x1B else 0)
/-- The product of two bytes in the field of AES, over `k` bits of the second. -/
def mulByte : Nat → U8 → U8 → U8
  | 0, _, _ => 0
  | k + 1, a, b => (if b.getLsbD 0 then a else 0) ^^^ mulByte k (timesX a) (b >>> 1)
/-- The inverse of a byte, its 254th power; 0 for 0. -/
def invByte (a : U8) : U8 := ((List.range 7).foldl (fun s _ => let q := mulByte 8 s.1 s.1; (q, mulByte 8 s.2 q)) (a, 1)).2
/-- The S-box. -/
def subByte (a : U8) : U8 :=
  let b := invByte a
  b ^^^ b.rotateLeft 1 ^^^ b.rotateLeft 2 ^^^ b.rotateLeft 3 ^^^ b.rotateLeft 4 ^^^ 0x63
/-- Two byte strings, exclusive or. -/
def xorBytes (a b : List U8) : List U8 := List.zipWith (· ^^^ ·) a b
/-- The key schedule of a 32-byte key, the newest word first, after `n` words more from word `i`. -/
def keyWords : Nat → Nat → U8 → List (List U8) → List (List U8)
  | 0, _, _, l => l
  | n + 1, i, rc, l =>
    let t := l.getD 0 []
    let t := if i % 8 = 0 then xorBytes ((t.drop 1 ++ t.take 1).map subByte) [rc, 0, 0, 0] else if i % 8 = 4 then t.map subByte else t
    keyWords n (i + 1) (if i % 8 = 0 then timesX rc else rc) (xorBytes (l.getD 7 []) t :: l)
/-- The 15 round keys of 16 bytes. -/
def roundKeys (key : List U8) : List (List U8) :=
  let ws := (keyWords 52 8 1 ((List.range 8).map fun k => slice key (4 * k) 4).reverse).reverse
  (List.range 15).map fun r => ((ws.drop (4 * r)).take 4).flatten
/-- SubBytes and ShiftRows of a state, column by column. -/
def subShift (s : List U8) : List U8 := (List.range 16).map fun k => subByte (s.getD ((k % 4 + 4 * ((k / 4 + k % 4) % 4))) 0)
/-- MixColumns of one column. -/
def mixColumn (s : List U8) (c : Nat) : List U8 :=
  (List.range 4).map fun r =>
    let x := fun k => s.getD (4 * c + (r + k) % 4) 0
    timesX (x 0) ^^^ (timesX (x 1) ^^^ x 1) ^^^ x 2 ^^^ x 3
/-- MixColumns. -/
def mixColumns (s : List U8) : List U8 := (List.range 4).flatMap (mixColumn s)
/-- AES-256 of one block. -/
def aesBlock (key block : List U8) : List U8 :=
  let ks := roundKeys key
  let s := (List.range 13).foldl (fun s r => xorBytes (mixColumns (subShift s)) (ks.getD (r + 1) [])) (xorBytes block (ks.getD 0 []))
  xorBytes (subShift s) (ks.getD 14 [])

/-! ### GCM -/

/-- The product in the field of GHASH, over `k` bits of the first factor from its most significant. -/
def mulHash : Nat → BitVec 128 → BitVec 128 → BitVec 128
  | 0, _, _ => 0
  | k + 1, x, v => (if x.getLsbD 127 then v else 0) ^^^ mulHash k (x <<< 1) ((v >>> 1) ^^^ (if v.getLsbD 0 then 0xE1#128 <<< 120 else 0))
/-- GHASH of whole blocks under `h`. -/
def ghashAux (h : BitVec 128) : Nat → List U8 → BitVec 128 → BitVec 128
  | 0, _, y => y
  | n + 1, l, y => ghashAux h n (l.drop 16) (mulHash 128 (y ^^^ BitVec.ofNat 128 (beNat (l.take 16))) h)
/-- Bytes filled to whole blocks with zeros. -/
def wholeBlocks (l : List U8) : List U8 := padTo ((l.length + 15) / 16 * 16) l
/-- Counter block `k` of a 96-bit nonce; block 1 makes the tag. -/
def counterBlock (nonce : List U8) (k : Nat) : List U8 := padTo 12 nonce ++ beBytes 4 k
/-- The cipher stream on a message. -/
def gcmCrypt (key nonce l : List U8) : List U8 :=
  xorBytes l ((List.range ((l.length + 15) / 16)).flatMap fun k => aesBlock key (counterBlock nonce (k + 2)))
/-- The tag of associated data and cipher text. -/
def gcmTag (key nonce aad ct : List U8) : List U8 :=
  let h := BitVec.ofNat 128 (beNat (aesBlock key (zeros 16)))
  let m := wholeBlocks aad ++ wholeBlocks ct ++ beBytes 8 (8 * aad.length) ++ beBytes 8 (8 * ct.length)
  xorBytes (beBytes 16 (ghashAux h (m.length / 16) m 0).toNat) (aesBlock key (counterBlock nonce 1))
/-- AES-256-GCM encryption (R397): cipher text, then the tag. -/
@[irreducible] def gcmSeal (key nonce aad plain : List U8) : List U8 :=
  let ct := gcmCrypt key nonce plain
  ct ++ gcmTag key nonce aad ct
/-- AES-256-GCM decryption (R398): nothing when the tag fails. -/
@[irreducible] def gcmOpen (key nonce aad ct tag : List U8) : Option (List U8) :=
  if gcmTag key nonce aad ct = tag then some (gcmCrypt key nonce ct) else none

end Sys2Proof.Machine
end

