-- ==== Sys2Proof/Machine/Interrupts.lean ====
section
/-! DEFINITION. The host interrupt concentrator (16_host_port.md, R432 to R438). -/

namespace Sys2Proof.Machine

/-- The running priority of a pin: the priority on top of its stack, 0 when the stack is empty (R432). -/
def HicPin.running (p : HicPin) : Nat := match p.stack with | [] => 0 | (_, pr) :: _ => pr

/-- Source state `x` is claimable on pin number `p` with state `pin` (R432). -/
def claimable (pin : HicPin) (p : Nat) (x : Source) : Bool :=
  x.pin.toNat == p && x.enable && x.pending && !x.active &&
    decide (max pin.threshold.toNat pin.running < x.prio.toNat)

/-- The better of two candidates (number, priority): the higher priority, then the one found first (R433). -/
def better (a : Option (Nat × Nat)) (n pr : Nat) : Option (Nat × Nat) :=
  match a with
  | none => some (n, pr)
  | some (n', pr') => if pr' < pr then some (n, pr) else some (n', pr')

/-- Search sources from number `n` on for the winner of a pin (R433). -/
def winnerAux (pin : HicPin) (p : Nat) : List Source → Nat → Option (Nat × Nat) → Option (Nat × Nat)
  | [], _, a => a
  | x :: r, n, a => winnerAux pin p r (n + 1) (if claimable pin p x && decide (1 ≤ n ∧ n ≤ 510) then better a n x.prio.toNat else a)

/-- The winner of pin `p`: its source number and priority (R433). -/
def hicWinner (h : Hic) (p : Fin 4) : Option (Nat × Nat) := winnerAux (vget h.pins p) p.val h.sources.toList 0 none

/-- HIRQ_N[p] is low (R432). -/
def hicAsserted (h : Hic) (p : Fin 4) : Bool := (hicWinner h p).isSome

/-- The level of ball HIRQ_N[p]: driven low while the pin is asserted; in reset it is not driven and its pull-up holds it high (R409). -/
def hirqN (inReset : Bool) (h : Hic) (p : Fin 4) : Bool := inReset || !hicAsserted h p

/-- Note on every pin whether it is low now (R434: "low at any time since the last claim"). -/
def hicNote (h : Hic) : Hic :=
  { h with pins := vmapIdx h.pins fun p x => { x with wasLow := x.wasLow || hicAsserted h p } }

/-- Change the concentrator, and follow the pins. -/
def hicChange (f : Hic → Hic) (b : Block) : Block := { b with hic := hicNote (f b.hic) }

/-- Set source `n` pending in the concentrator (R432), and note its pin low when that makes it claimable. -/
def hicPend (h : Hic) (n : Fin 512) : Hic :=
  let x := { vget h.sources n with pending := true }
  let h := { h with sources := vset h.sources n x }
  let p : Fin 4 := x.pin.toFin
  { h with pins := vupd h.pins p fun q => { q with wasLow := q.wasLow || claimable q p.val x } }

/-- An event raises interrupt source `n` (R432: pending is set whether or not the source is enabled). -/
def irq (n : Nat) (b : Block) : Block :=
  if h : 1 ≤ n ∧ n ≤ 510 then { b with hic := hicPend b.hic ⟨n, by omega⟩ } else b

/-- Raise several sources in order. -/
def irqs (l : List Nat) (b : Block) : Block := forAll l irq b

/-- `d` ticks have passed since the last raise, or there was none. -/
def mayRaise (b : Block) (last : Option U64) (d : Nat) : Bool :=
  match last with | none => true | some t => passed b t d

/-- The value HIC_CLAIM(p) shows (R434): the winner; without one, 511 when the pin has been low since the last claim,
else 0. -/
def hicClaimValue (h : Hic) (p : Fin 4) : Nat :=
  match hicWinner h p with
  | some (n, _) => n
  | none => if (vget h.pins p).wasLow then 511 else 0

/-- Claim source `n` on pin `p` (R434): pending cleared, active set, its priority pushed. -/
def hicClaimSource (p : Fin 4) (n : Fin 512) (h : Hic) : Hic :=
  let x := vget h.sources n
  { h with
    sources := vset h.sources n { x with pending := false, active := true }
    pins := vupd h.pins p fun q => { q with stack := (n.val, x.prio.toNat) :: q.stack, wasLow := false } }

/-- A claiming read of HIC_CLAIM(p) (R434). The values 0 and 511 claim nothing. -/
def hicClaim (p : Fin 4) (b : Block) : Block :=
  match hicWinner b.hic p with
  | some (n, _) => if h : n < 512 then hicChange (hicClaimSource p ⟨n, h⟩) b else b
  | none => b

/-- Record a refused completion in HIC_FAULT (R435). -/
def hicRefuse (p : Fin 4) (notActive : Bool) (n : Nat) (h : Hic) : Hic :=
  { h with
    fault := true, faultPin := BitVec.ofNat 2 p.val, faultCause := notActive, faultWritten := BitVec.ofNat 9 n
    faultTop := BitVec.ofNat 9 (match (vget h.pins p).stack with | [] => 0 | (t, _) :: _ => t)
    faultCnt := satInc h.faultCnt }

/-- Complete source `n`, which is on top of the stack of pin `p` (R435). -/
def hicPop (p : Fin 4) (n : Fin 512) (h : Hic) : Hic :=
  { h with
    sources := vupd h.sources n fun x => { x with active := false }
    pins := vupd h.pins p fun q => { q with stack := q.stack.tail } }

/-- A write of source number `n` to HIC_COMPLETE(p) (R435): completed when it is on top of the pin's stack, ignored for 0
and 511, refused with HIC_FAULT and source 1 otherwise. -/
def hicComplete (p : Fin 4) (n : Nat) (b : Block) : Block :=
  if n = 0 ∨ 511 ≤ n then b
  else if h : n < 512 then
    match (vget b.hic.pins p).stack with
    | (t, _) :: r =>
      if t = n then hicChange (hicPop p ⟨n, h⟩) b
      else irq 1 { b with hic := hicRefuse p (!(r.any fun e => e.1 == n)) n b.hic }
    | [] => irq 1 { b with hic := hicRefuse p true n b.hic }
  else b

/-! ### Register words of the HIC block (R437) -/

/-- Bit `k` of vector word `w` for a predicate on sources; numbers 0 and 511 read as 0. -/
def hicBits (h : Hic) (f : Source → Bool) (w : Nat) : U32 :=
  BitVec.ofNat 32 (bitsNat ((List.range 32).map fun k =>
    let n := 32 * w + k
    decide (1 ≤ n ∧ n ≤ 510) && (match h.sources.toList[n]? with | some x => f x | none => false)))

/-- Apply `f` to each source whose bit is set in `v`, word `w` of a bit vector. -/
def hicEach (w : Nat) (v : U32) (f : Source → Source) (h : Hic) : Hic :=
  { h with sources := vmapIdx h.sources fun n x =>
      if decide (n.val / 32 = w) && v.getLsbD (n.val % 32) && decide (1 ≤ n.val ∧ n.val ≤ 510) then f x else x }

/-- HIC_PRIO(w): byte k for source 4w + k. -/
def hicPrioWord (h : Hic) (w : Nat) : U32 :=
  BitVec.ofNat 32 (leNat ((List.range 4).map fun k =>
    let n := 4 * w + k
    match h.sources.toList[n]? with
    | some x => if 1 ≤ n ∧ n ≤ 510 then BitVec.ofNat 8 (packFields [(0, x.prio.toNat), (4, x.pin.toNat)]) else 0
    | none => 0))

/-- Write HIC_PRIO(w). -/
def hicSetPrio (w : Nat) (v : U32) (h : Hic) : Hic :=
  { h with sources := vmapIdx h.sources fun n x =>
      if n.val / 4 = w ∧ 1 ≤ n.val ∧ n.val ≤ 510 then
        { x with prio := BitVec.ofNat 4 (fieldOf v.toNat (8 * (n.val % 4)) 4)
                 pin := BitVec.ofNat 2 (fieldOf v.toNat (8 * (n.val % 4) + 4) 2) }
      else x }

/-- HIC_PIN(p) (R437). -/
def hicPinWord (h : Hic) (p : Fin 4) : U32 :=
  let q := vget h.pins p
  reg32 [(0, q.running), (4, q.stack.length), (8, b2n (hicAsserted h p)),
    (16, match q.stack with | [] => 0 | (t, _) :: _ => t)]

/-- The read value of word `a` of the HIC block (R437), without side effect. -/
def hicWord (h : Hic) (a : Nat) : U32 :=
  if a = 0x100 then
    reg32 ((4, b2n h.fault) :: (List.finRange 4).map fun p => (p.val, b2n (hicAsserted h p)))
  else if a = 0x101 then
    reg32 [(0, b2n h.fault), (1, h.faultPin.toNat), (3, b2n h.faultCause), (4, h.faultWritten.toNat), (13, h.faultTop.toNat)]
  else if a = 0x102 then h.faultCnt
  else if h1 : 0x104 ≤ a ∧ a ≤ 0x107 then hicPinWord h ⟨a - 0x104, by omega⟩
  else if h1 : 0x108 ≤ a ∧ a ≤ 0x10B then (vget h.pins ⟨a - 0x108, by omega⟩).threshold.setWidth 32
  else if h1 : 0x10C ≤ a ∧ a ≤ 0x10F then BitVec.ofNat 32 (hicClaimValue h ⟨a - 0x10C, by omega⟩)
  else if 0x120 ≤ a ∧ a ≤ 0x13F then hicBits h (·.enable) (a % 16)
  else if 0x140 ≤ a ∧ a ≤ 0x15F then hicBits h (·.pending) (a % 16)
  else if 0x160 ≤ a ∧ a ≤ 0x16F then hicBits h (·.active) (a % 16)
  else if 0x180 ≤ a ∧ a ≤ 0x1FF then hicPrioWord h (a - 0x180)
  else 0

/-- A write of `v` to word `a` of the HIC block (R437). -/
def hicWrite (a : Nat) (v : U32) (b : Block) : Block :=
  if a = 0x101 then
    if v.getLsbD 0 then { b with hic := { b.hic with fault := false, faultCnt := 0 } } else b
  else if h1 : 0x108 ≤ a ∧ a ≤ 0x10B then
    hicChange (fun h => { h with pins := vupd h.pins ⟨a - 0x108, by omega⟩ fun q => { q with threshold := v.setWidth 4 } }) b
  else if h1 : 0x110 ≤ a ∧ a ≤ 0x113 then hicComplete ⟨a - 0x110, by omega⟩ v.toNat b
  else if 0x120 ≤ a ∧ a ≤ 0x12F then hicChange (hicEach (a - 0x120) v fun x => { x with enable := true }) b
  else if 0x130 ≤ a ∧ a ≤ 0x13F then hicChange (hicEach (a - 0x130) v fun x => { x with enable := false }) b
  else if 0x140 ≤ a ∧ a ≤ 0x14F then hicChange (hicEach (a - 0x140) v fun x => { x with pending := true }) b
  else if 0x150 ≤ a ∧ a ≤ 0x15F then hicChange (hicEach (a - 0x150) v fun x => { x with pending := false }) b
  else if 0x180 ≤ a ∧ a ≤ 0x1FF then hicChange (hicSetPrio (a - 0x180) v) b
  else b

end Sys2Proof.Machine
end

