-- ==== Sys2Proof/Machine/Logs.lean ====
section
/-! DEFINITION. Forming entries of the two logs of Bittern (20_recorder_replay.md, R518 to R529). -/

namespace Sys2Proof.Machine

/-- Writers of log entries: agent codes of R460 and the codes of R518. Mailbox service runs on Sedge; which of its four
cores writes is not stated, core 0 stands for them (DESIGN CHOICE, log entry 7). -/
def wSedge : U8 := 0
/-- Carr. -/
def wCarr : U8 := 4
/-- Dyke. -/
def wDyke : U8 := 5
/-- The launcher. -/
def wLauncher : U8 := 7
/-- Saltern. -/
def wSaltern : U8 := 9
/-- Brine. -/
def wBrine : U8 := 10
/-- Metrology. -/
def wMetrology : U8 := 11
/-- Bittern. -/
def wBittern : U8 := 12
/-- The dump and replay agent. -/
def wDump : U8 := 15
/-- The key store. -/
def wKeys : U8 := 16
/-- The update agent. -/
def wUpdate : U8 := 18

/-- Bytes 8 to 59 of a log entry formed now (R518). -/
def logBody (code : U16) (writer flags : U8) (payload : List U8) (b : Block) : List U8 :=
  let ok := b.tide.ready
  b64 (if ok then now b else 0) ++ b64 b.backup.rtc ++ b16 code ++
    [writer, flags ||| BitVec.ofNat 8 (2 * b2n ok + 4 * b2n b.rpl.mode)] ++ padTo 32 payload

/-- A whole 64-byte entry: sequence, body, CRC-32C of bytes 0 to 59 (R518). -/
def logEntry (seq : U64) (body : List U8) : List U8 :=
  let l := b64 seq ++ padTo 52 body
  l ++ b32 (crc32c l)

/-- A legal event (R519): the entry waits for its line; its sequence is assigned when the write port grants the line. -/
def legalLog (code : U16) (writer : U8) (payload : List U8) (b : Block) : Block :=
  { b with
    btn := { b.btn with legalWaiting := b.btn.legalWaiting ++ [logBody code writer 1 payload b] }
    arb := { b.arb with reqs := vupd b.arb.reqs 2 fun r =>
      { r with queue := r.queue ++ [{ content := [[]], act := .legalEntry }] } } }

/-- The record of one writer and code in the second of Tide that runs now (R527). -/
def rateOf (l : List LogRate) (w : U8) (c : U16) (sec : U64) : LogRate :=
  match l.find? fun r => r.writer == w && r.code == c with
  | some r => if r.second = sec then r else { r with second := sec, formed := 0 }
  | none => { writer := w, code := c, second := sec }

/-- Replace that record. -/
def setRate (l : List LogRate) (r : LogRate) : List LogRate :=
  r :: l.filter fun x => !(x.writer == r.writer && x.code == r.code)

/-- The new lease mark is to be written to the SAFETY partition (R525), as a record whose place and layout are not stated (log entry
9). -/
def leaseWrite (mark : U64) (b : Block) : Block :=
  let n := b.pea.writes
  let l := (b64 mark ++ (List.range 52).map (Config.storeByte n)).take 60
  { b with
    pea := { b.pea with writes := n + 1 }
    arb := { b.arb with reqs := vupd b.arb.reqs 2 fun r =>
      { r with queue := r.queue ++ [{ first := 65472 + Config.storePlace n % 64, content := [l ++ b32 (crc32c l)], act := .lease mark }] } } }

/-- Entries at the head of the ring of which bytes are sent, or held in a buffer after FULL. -/
def begunEntries (t : Bittern) : Nat :=
  (t.sentBytes + (match t.held with | some h => h.2 | none => 0) + 63) / 64
/-- Stage one formed entry under the next sequence number, which is leased (R523); a full ring drops its
oldest staged entry with source 466. An entry of which bytes are on their way stays, so that the stream keeps its 64-byte cut
(DEDUCED from R524, log entry 31). -/
def stageLeased (body : List U8) (b : Block) : Block :=
  let t := b.btn
  let e := logEntry t.opNext body
  let full := decide (65536 ≤ t.staged.length)
  let t := { t with
    opNext := t.opNext + 1
    ring := sput [] t.ring (t.opNext.toNat % 65536) e
    staged := (if full then t.staged.eraseIdx (begunEntries t) else t.staged) ++ [e]
    opDrop := if full then satInc t.opDrop else t.opDrop
    pendingSince := match t.pendingSince with | some x => some x | none => some (now b) }
  onlyIf full (irq 466) { b with btn := t }
/-- Take up one formed entry (R525): the sequence equal to the lease mark is used once the mark plus 65,536 is written, and the entry waits
till then. -/
def stageOp (body : List U8) (b : Block) : Block :=
  if b.btn.opNext = b.btn.lease ∨ b.btn.unleased ≠ [] then
    let b' := { b with btn := { b.btn with unleased := b.btn.unleased ++ [body], leaseAsked := true } }
    if b.btn.leaseAsked then b' else leaseWrite (b.btn.lease + 65536) b'
  else stageLeased body b
/-- The lease mark has been written: the entries that waited are staged. -/
def leased (mark : U64) (b : Block) : Block :=
  forAll b.btn.unleased stageLeased { b with btn := { b.btn with lease := mark, leaseAsked := false, unleased := [] } }
/-- The mark was not written; the next entry asks for it again. -/
def leaseLost (b : Block) : Block := { b with btn := { b.btn with leaseAsked := false } }

/-- An operational event (R526) under the rate limit of R527. -/
def opLogAs (writer : U8) (code : U16) (payload : List U8) (b : Block) : Block :=
  let sec : U64 := BitVec.ofNat 64 ((now b).toNat / tSec)
  let r := rateOf b.btn.rates writer code sec
  if 64 ≤ r.formed then
    let raise := b.btn.suppressIrq != some sec
    onlyIf raise (irq 467) { b with btn := { b.btn with
      opSuppress := satInc b.btn.opSuppress
      suppressIrq := some sec
      rates := setRate b.btn.rates { r with suppressed := true } } }
  else
    stageOp (logBody code writer (if r.suppressed then 8 else 0) payload b)
      { b with btn := { b.btn with rates := setRate b.btn.rates { r with formed := r.formed + 1, suppressed := false } } }

/-- The operational entry of an event that raises interrupt source `src` and concerns part `index` (0xFFFF none): code
0x4000 + src, bytes 0-1 the index, bytes 8-15 the Tide of the event (R526). -/
def opEvent (writer : U8) (src : Nat) (index : Nat) (b : Block) : Block :=
  opLogAs writer (BitVec.ofNat 16 (0x4000 + src)) (leBytes 2 index ++ zeros 6 ++ b64 (now b)) b

/-- The event raises its source and writes the operational log. -/
def irqLog (writer : U8) (src index : Nat) (b : Block) : Block := opEvent writer src index (irq src b)

/-- The bytes of a trace item (R536): class, flags, payload length, stamp, payload. -/
def traceBytes (cls : Nat) (flags : U8) (stamp : U64) (payload : List U8) : List U8 :=
  [BitVec.ofNat 8 cls, flags] ++ leBytes 2 payload.length ++ b64 stamp ++ payload
/-- An item takes its place in stamp order, and among equal stamps in class order (R536). -/
def insertItem (x : U64 × Nat × List U8) : List (U64 × Nat × List U8) → List (U64 × Nat × List U8)
  | [] => [x]
  | y :: r => if x.1.toNat < y.1.toNat ∨ (x.1 = y.1 ∧ x.2.1 < y.2.1) then x :: y :: r else y :: insertItem x r
/-- One trace item of a running recording. Nothing is written while no recording runs. -/
def traceItem (cls : Nat) (flags : U8) (stamp : U64) (payload : List U8) (b : Block) : Block :=
  if b.rpl.state = 2 then
    { b with rpl := { b.rpl with
      recent := insertItem (stamp, cls, traceBytes cls flags stamp payload) b.rpl.recent
      items := b.rpl.items + 1 } }
  else b

/-- The payload of a SAFETY item (R536): the permit words of Dyke and of the hardware channel, and the safety inputs. -/
def safetyBytes (b : Block) : List U8 :=
  let ns := b.saf.nodes.toList
  leBytes 2 (bitsNat (ns.map (·.permitDyke))) ++ leBytes 2 (bitsNat (ns.map (·.permitHw))) ++ b16 b.saf.inputClosed
/-- A change of those words is an input of a running recording (R534, R536). -/
def safetyItem (old new : Block) : Block :=
  if old.rpl.state = 2 ∧ safetyBytes old ≠ safetyBytes new then traceItem 5 0 (now new) (safetyBytes new) new else new
/-- Run the effect of a command: the block changes, the queue of waiting commands does not. -/
def State.run (s : State) (f : Block → Block) : Result := .next { s with block := safetyItem s.block (f s.block) }
/-- Run a command that brings a value from outside the device: in replay mode the real inputs are ignored (R538). -/
def State.input (s : State) (f : Block → Block) : Result := s.run fun b => if b.rpl.mode then b else f b

/-- A fatal error has been found (R530); the device acts on it at FATAL_ERROR (R531). -/
def raiseFatal (cause : U16) (b : Block) : Block :=
  { b with dmp := { b.dmp with raised := b.dmp.raised ++ [cause] } }

end Sys2Proof.Machine
end

