-- ==== Sys2Proof/Machine/Queues.lean ====
section
/-! DEFINITION. The queue manager's four operations, buffers and ownership, and the records that pass through queues
(17_causeway_queues.md, R452 to R463). -/

namespace Sys2Proof.Machine


/-- Agent codes of R460. -/
def agLauncher : Fin 16 := 7
/-- Saltern. -/
def agSaltern : Fin 16 := 9
/-- The metrology and snapshot engine. -/
def agMet : Fin 16 := 11
/-- Bittern. -/
def agBittern : Fin 16 := 12
/-- The Causeway receiver. -/
def agRx : Fin 16 := 13
/-- The Causeway transmitter. -/
def agTx : Fin 16 := 14
/-- The dump and replay engine. -/
def agDump : Fin 16 := 15
/-- Sluice. -/
def agSluice : Fin 16 := 8
/-- Sedge; core 0 stands for the four (DESIGN CHOICE, log entry 7). -/
def agSedge : Fin 16 := 0

/-- The descriptor of a queue at reset. -/
def queue0 : Queue := {}

/-- Descriptor of queue `q`. The firmware configures queues 0-2,047 (R456); it enables them all without a depth limit of its
own (DESIGN CHOICE, log entry 11). -/
def qOf (b : Block) (q : Nat) : Queue :=
  let d := sget queue0 b.qmg.queues q
  if q < 2048 ∧ b.qmg.fwCfg then { d with enabled := true, limit := 0xFFFF } else d

/-- Replace the descriptor of queue `q`. -/
def setQ (q : Nat) (x : Queue) (b : Block) : Block :=
  let x := if q < 2048 then { x with enabled := false, limit := 0 } else x
  { b with qmg := { b.qmg with queues := sput queue0 b.qmg.queues q x } }

/-- Owner of buffer `u`. -/
def ownerOf (b : Block) (u : Nat) : Owner := sget .free b.qmg.owners u

/-- Give buffer `u` an owner. -/
def setOwner (u : Nat) (o : Owner) (b : Block) : Block :=
  { b with qmg := { b.qmg with owners := sput .free b.qmg.owners u o } }

/-- Bytes of buffer `u` in the record SRAM. -/
def bufBytes (b : Block) (u : Nat) : List U8 := Memory.readN b.qmg.sram (64 * u) 64

/-- Fill buffer `u`. -/
def setBuf (u : Nat) (l : List U8) (b : Block) : Block :=
  { b with qmg := { b.qmg with sram := Memory.writeN b.qmg.sram (64 * u) (padTo 64 l) } }

/-- Sum of the group reservations (R461). -/
def reservedSum (b : Block) : Nat := (b.cwy.groups.toList.map (·.reservation)).sum

/-- Buffers charged to group `g` (R447). -/
def chargedTo (b : Block) (g : Nat) : Nat := (b.qmg.charged.filter fun e => e.2 == g + 1).length

/-- Free buffers of the reservation of group `g` (R447). -/
def freeReserved (b : Block) (g : Fin 64) : Nat := (vget b.cwy.groups g).reservation - chargedTo b g.val

/-- Credit group `g`. -/
def groupOf (b : Block) (g : Fin 64) : CreditGroup := vget b.cwy.groups g

/-- Change credit group `g`. -/
def updGroup (g : Fin 64) (f : CreditGroup → CreditGroup) (b : Block) : Block :=
  { b with cwy := { b.cwy with groups := vupd b.cwy.groups g f } }

/-- Available outbound credit A_g (R446). -/
def creditOf (x : CreditGroup) : Nat := (x.hostCredit - x.sent).toNat

/-- A record queue that carries records out (R456). -/
def outbound (q : Nat) (d : Queue) : Bool := decide (2048 ≤ q) && !d.inbound

/-- Outbound queues of group `g` that hold records, ascending. -/
def waitingQueues (b : Block) (g : Nat) : List Nat :=
  (b.qmg.queues.filter fun e => outbound e.1 e.2 && e.2.group.toNat == g && !e.2.bufs.isEmpty).map (·.1)

/-- Follow whether a group waits without credit (R448); a group that does not wait is not stalled. -/
def noteWait (g : Fin 64) (b : Block) : Block :=
  let x := groupOf b g
  let waits := !(waitingQueues b g.val).isEmpty && creditOf x == 0
  updGroup g (fun x => { x with
    waitSince := if waits then (match x.waitSince with | some t => some t | none => some (now b)) else none
    stalled := x.stalled && waits }) b

/-- A link reset (R450): the link returns to step 1 of R449; records not acknowledged stay held by CWY_TX and are sent first
after training; source 33. -/
def linkReset (cause : Nat) (group : Nat) (b : Block) : Block :=
  irq 33 { b with
    cwy := { b.cwy with
      state := if b.cwy.enable then .training else .disabled, aligning := false
      lastCause := BitVec.ofNat 4 cause, lastGroup := BitVec.ofNat 6 group, resetCnt := satInc b.cwy.resetCnt
      resend := b.cwy.outstanding.map (·.2) ++ b.cwy.resend, outstanding := [] }
    cwyX := { b.cwyX with trainingAt := now b, crcRun := 0, creditRun := 0, ackExpiries := 0 } }

/-- A credit violation (R447): source 35 and a link reset with cause CREDIT. -/
def creditViolation (g : Nat) (b : Block) : Block := linkReset 6 g (irq 35 b)

/-- The check at a credit return (R447): the free reserved buffers and those charged make up the reservation, and the credit the host
may hold never exceeds it. -/
def creditCheck (g : Fin 64) (b : Block) : Block :=
  let x := groupOf b g
  if b.cwy.state = .up ∧ (x.reservation < chargedTo b g.val ∨ x.reservation < (x.granted - x.received).toNat) then creditViolation g.val b else b

/-- Free buffers that no reservation holds (R461, QMG_FREE_UNRES). -/
def freeUnreserved (b : Block) : Nat := b.qmg.cntFree - (reservedSum b - b.qmg.charged.length)

/-- The k-th free buffer, counted from candidate `c` upward. -/
def nthFree : List (Nat × Owner) → Nat → Nat → Nat
  | [], c, k => c + k
  | (u, _) :: r, c, k => if k < u - c then c + k else nthFree r (u + 1) (k - (u - c))

/-- The check after every operation (R463): F + Q + H = 131,072 and F is the length of the free list. A failed check is a
fatal error with source 41. -/
def conserve (b : Block) : Block :=
  let m := b.qmg
  if m.cntFree + m.cntQueued + m.cntHeld = 131072 ∧ m.cntFree = 131072 - m.owners.length then
    { b with qmg := { m with conserveOk := true } }
  else
    let d : Int := (m.cntFree + m.cntQueued + m.cntHeld : Nat) - 131072
    raiseFatal 1 (legalLog 0x0030 wBittern ([3] ++ zeros 7 ++ leBytes 12 (BitVec.ofInt 96 d).toNat)
      (irq 41 { b with qmg := { m with conserveOk := false, fatal := true } }))

/-- Follow the unreserved free count against low_water (R461): source 38 once below it, again only after the count has
been above low_water + 1,024. -/
def noteLow (b : Block) : Block :=
  let f := freeUnreserved b
  let low := decide (f < b.qmg.lowWater.toNat)
  let above := decide (b.qmg.lowWater.toNat + 1024 < f)
  let raise := low && !b.qmg.lowRaised
  onlyIf raise (irq 38) { b with qmg := { b.qmg with low := low, lowRaised := if above then false else b.qmg.lowRaised || low } }

/-- The queue manager works: it runs and no dump is copying its state (R531). -/
def qmgReady (b : Block) : Bool :=
  b.qmg.running && !(b.dmp.state == 1 && decide (b.tide.now.toNat < b.dmp.started.toNat + 37500000))

/-- A free buffer leaves the pool for an agent, its 64 bytes zero; `g` is the group charged (R458). -/
def takeFree (a : Fin 16) (g : Option (Fin 64)) (b : Block) : Block × Nat :=
  let u := nthFree b.qmg.owners 0 (Config.allocPick b.qmg.picks % b.qmg.cntFree)
  let b := setOwner u (.agent a) { b with qmg := { b.qmg with
    picks := b.qmg.picks + 1, cntFree := b.qmg.cntFree - 1, cntHeld := b.qmg.cntHeld + 1
    sram := Memory.zeroN b.qmg.sram (64 * u) 64
    charged := match g with | some g => sput 0 b.qmg.charged u (g.val + 1) | none => b.qmg.charged } }
  (conserve (noteLow b), u)

/-- The queue manager answers agent `a`. -/
def qTell (a : Fin 16) (x : QAnswer) (b : Block) : Block := { b with qmg := { b.qmg with answers := vset b.qmg.answers a (some x) } }

/-- ALLOC (R458, R461): from the group's reservation for the Causeway receiver, from the unreserved buffers for every other
agent. EMPTY is counted, with source 43 at most once per second. -/
def qAlloc (a : Fin 16) (g : Option (Fin 64)) (b : Block) : Block × Except QErr Nat :=
  let avail := match g with | some g => freeReserved b g | none => freeUnreserved b
  if !qmgReady b then (b, .error .denied)
  else if avail = 0 then
    let raise := mayRaise b b.qmg.emptyIrq tSec
    let b := { b with qmg := { b.qmg with
      emptyCnt := satInc b.qmg.emptyCnt, emptyIrq := if raise then some (now b) else b.qmg.emptyIrq } }
    (onlyIf raise (irq 43) b, .error .empty)
  else
    let r := takeFree a g b
    (r.1, .ok r.2)

/-- A buffer of group `g` has returned to the pool: C_g advances (R447). -/
def creditBack (g : Nat) (b : Block) : Block :=
  if h : g < 64 then creditCheck ⟨g, h⟩ (updGroup ⟨g, h⟩ (fun x => { x with granted := x.granted + 1 }) b) else b

/-- The group of queue `q` follows whether it waits for credit. -/
def noteQueue (q : Nat) (b : Block) : Block :=
  let d := qOf b q
  if h : outbound q d = true ∧ d.group.toNat < 64 then noteWait ⟨d.group.toNat, h.2⟩ b else b

/-- Buffer `u` becomes free; a charged one returns to its reservation (R458). -/
def release (u : Nat) (b : Block) : Block :=
  let c := sget 0 b.qmg.charged u
  let b := setOwner u .free { b with qmg := { b.qmg with
    cntFree := b.qmg.cntFree + 1, charged := sput 0 b.qmg.charged u 0 } }
  onlyIf (decide (c ≠ 0)) (creditBack (c - 1)) (noteLow b)

/-- Note an ownership refusal (R462): the error register, its count and source 40. -/
def ownRefuse (a : Fin 16) (u : Nat) (enq : Bool) (b : Block) : Block :=
  let cause : BitVec 2 := match ownerOf b u with | .free => 0 | .agent _ => 1 | .queue _ => 2
  irq 40 { b with qmg := { b.qmg with
    errBuffer := BitVec.ofNat 17 u, errAgent := BitVec.ofNat 4 a.val, errOp := enq, errCause := cause
    ownErrCnt := satInc b.qmg.ownErrCnt } }

/-- FREE (R458, R462). -/
def qFree (a : Fin 16) (u : Nat) (b : Block) : Block × Except QErr Unit :=
  if !qmgReady b then (b, .error .denied)
  else if ownerOf b u = .agent a then
    (conserve (release u { b with qmg := { b.qmg with cntHeld := b.qmg.cntHeld - 1 } }), .ok ())
  else (conserve (ownRefuse a u false b), .error .ownership)

/-- A cancelled entry after the last waiting one of ring `q` is the entry before buffer `u`, enqueued now (R53). -/
def ringNote (q u : Nat) (b : Block) : Block :=
  let g := sget {} b.lau.rings q
  match g.tailNote with
  | some t =>
    let l := sput {} b.lau.rings q { g with notes := g.notes ++ [(u, t)], tailNote := none }
    { b with lau := { b.lau with rings := l } }
  | none => b

/-- Put buffer `u` at the tail of queue `q`; an outbound record gets its queue number, sequence and loss flag (R458). -/
def enqueueTail (q u : Nat) (b : Block) : Block :=
  let d := qOf b q
  let out := outbound q d
  let l := bufBytes b u
  let l := if out then
      splice (splice (splice l 2 (leBytes 2 q)) 5 [if d.lost then byteAt l 5 ||| 2 else byteAt l 5]) 6 (b16 d.nextSeq)
    else l
  let b := onlyIf (decide (q < 1024)) (ringNote q u) (onlyIf out (setBuf u l) b)
  noteQueue q <| setQ q { d with bufs := d.bufs ++ [u], nextSeq := if out then d.nextSeq + 1 else d.nextSeq, lost := if out then false else d.lost }
    (setOwner u (.queue q) { b with qmg := { b.qmg with cntQueued := b.qmg.cntQueued + 1, cntHeld := b.qmg.cntHeld - 1 } })

/-- Drop the head of queue `q` under drop_oldest (R459). -/
def dropOldest (q : Nat) (b : Block) : Block :=
  let d := qOf b q
  match d.bufs with
  | [] => b
  | u :: r =>
    irq 42 (release u (setQ q { d with bufs := r, lost := true, drops := satInc d.drops }
      { b with qmg := { b.qmg with cntQueued := b.qmg.cntQueued - 1, dropCnt := satInc b.qmg.dropCnt } }))

/-- An enqueue refused with FULL (R459): counted, source 39 at most once per queue per second. -/
def fullRefuse (q : Nat) (b : Block) : Block :=
  let d := qOf b q
  let raise := mayRaise b d.fullIrq tSec
  onlyIf raise (irq 39) (setQ q { d with refused := satInc d.refused, fullIrq := if raise then some (now b) else d.fullIrq }
    { b with qmg := { b.qmg with fullCnt := satInc b.qmg.fullCnt } })

/-- Agent `a` may enqueue on queue `q` (R16, R48, R456): Sluice, Sedge and Carr on the rings of their owner class, Sedge for the host on
rings 576 to 1,023, Sirik firmware and the launcher (R54) on firmware-internal queues, the Causeway receiver on inbound record queues,
every unit on outbound ones. -/
def mayEnqueue (a : Fin 16) (q : Nat) (d : Queue) : Bool :=
  if q < 128 then a == agSluice
  else if q < 512 then decide (a.val < 4)
  else if q < 576 then a == 4
  else if q < 1024 then decide (a.val < 4)
  else if q < 2048 then decide (a.val ≤ 5) || a == agLauncher
  else !d.inbound || a == agRx

/-- ENQUEUE (R458, R459, R462). An agent that may not enqueue on the queue is refused with DENIED (DESIGN CHOICE, log entry 164). -/
def qEnqueue (a : Fin 16) (q u : Nat) (b : Block) : Block × Except QErr Unit :=
  let d := qOf b q
  if !qmgReady b then (b, .error .denied)
  else if ownerOf b u ≠ .agent a then (conserve (ownRefuse a u true b), .error .ownership)
  else if !mayEnqueue a q d then (b, .error .denied)
  else if !d.enabled || d.limit == 0 then (b, .error .disabled)
  else if d.bufs.length < d.limit.toNat then (conserve (enqueueTail q u b), .ok ())
  else if d.dropOldest then (conserve (enqueueTail q u (dropOldest q b)), .ok ())
  else (conserve (fullRefuse q b), .error .full)

/-- Agent `a` is the consumer of a queue; code 0x10 stands for any Sedge core (R457). Rings are consumed by the launcher,
firmware-internal queues by the firmware (R456). -/
def isConsumer (q : Nat) (d : Queue) (a : Fin 16) : Bool :=
  if q < 1024 then a == agLauncher
  else if q < 2048 then decide (a.val ≤ 6)
  else if d.inbound then (if d.consumer = 0x10 then decide (a.val ≤ 3) else d.consumer.toNat == a.val)
  else a == agTx

/-- DEQUEUE (R458). -/
def qDequeue (a : Fin 16) (q : Nat) (b : Block) : Block × Except QErr Nat :=
  let d := qOf b q
  if !qmgReady b || !isConsumer q d a then (b, .error .denied)
  else match d.bufs with
    | [] => (b, .error .empty)
    | u :: r =>
      (conserve <| noteQueue q (setQ q { d with bufs := r } (setOwner u (.agent a) { b with qmg := { b.qmg with
        cntQueued := b.qmg.cntQueued - 1, cntHeld := b.qmg.cntHeld + 1 } })), .ok u)

/-- Free every buffer of queue `q` (R467 QMG_FLUSH). -/
def qFlush (q : Nat) (b : Block) : Block :=
  let d := qOf b q
  conserve <| noteQueue q (forAll d.bufs (fun u x => release u { x with qmg := { x.qmg with cntQueued := x.qmg.cntQueued - 1 } })
    (setQ q { d with bufs := [] } b))

/-! ### Records (R452) -/

/-- A record as its producer writes it: type, length, flags and payload; queue and sequence are filled at the enqueue. -/
def mkRecord (type : Nat) (len : Nat) (flags : U8) (payload : List U8) : List U8 :=
  leBytes 2 type ++ [0, 0, BitVec.ofNat 8 len, flags, 0, 0] ++ padTo 56 payload

/-- Put a record on an outbound queue for agent `a`: allocate, fill, enqueue; a refused buffer is freed again. -/
def sendRecord (a : Fin 16) (q : Nat) (rec_ : List U8) (b : Block) : Block × Except QErr Unit :=
  match qAlloc a none b with
  | (b, .error e) => (b, .error e)
  | (b, .ok u) =>
    match qEnqueue a q u (setBuf u rec_ b) with
    | (b, .ok _) => (b, .ok ())
    | (b, .error e) => ((qFree a u b).1, .error e)

/-- Put records on a queue in order until one is refused; the answer tells whether all were taken. -/
def sendRecords (a : Fin 16) (q : Nat) : List (List U8) → Block → Block × Bool
  | [], b => (b, true)
  | r :: rs, b => match sendRecord a q r b with
    | (b, .ok _) => sendRecords a q rs b
    | (b, .error _) => (b, false)

/-- Send a record when a queue is set (0xFFFF none). -/
def sendTo (a : Fin 16) (q : U16) (rec_ : List U8) (b : Block) : Block :=
  if q = 0xFFFF then b else (sendRecord a q.toNat rec_ b).1

/-- A byte stream as records of one type: 56 payload bytes each, the more flag on all but the last. -/
def streamRecords (type : Nat) (l : List U8) : List (List U8) :=
  let cs := chunks 56 l
  (cs.zip (List.range cs.length)).map fun e =>
    mkRecord type e.1.length (if e.2 + 1 < cs.length then 1 else 0) e.1

/-- A queue number is a record queue, or 0xFFFF where the command allows none (status 0x0006 QUEUE_RANGE otherwise). -/
def queueOk (q : Nat) (noneOk : Bool) : Bool := decide (2048 ≤ q ∧ q ≤ 32767) || (noneOk && q == 0xFFFF)

/-- What R454 says of a HOST_DATA queue before a command consumes `n` records: 0 in order, else the status. -/
def hostDataCheck (b : Block) (q n : Nat) : Nat :=
  let us := (qOf b q).bufs
  if us.length < n then 0x0F0A
  else if (us.take n).any fun u => natAt (bufBytes b u) 0 2 != 0x0F01 then 0x0F09
  else 0

/-- The payload bytes of `n` records at the head of a queue, each cut to its length field. -/
def hostDataBytes (b : Block) (q n : Nat) : List U8 :=
  ((qOf b q).bufs.take n).flatMap fun u =>
    let l := bufBytes b u
    (l.drop 8).take (byteAt l 4).toNat

/-- Consume `n` records from the head of a queue (R454): dequeued and freed by its consumer. -/
def hostDataConsume (q : Nat) : Nat → Block → Block
  | 0, b => b
  | n + 1, b => match qDequeue agSedge q b with
    | (b, .ok u) => hostDataConsume q n (qFree agSedge u b).1
    | (b, .error _) => b

end Sys2Proof.Machine
end

