-- ==== Sys2Proof/Machine/Mailbox.lean ====
section
/-! DEFINITION. The mailboxes: doorbells, start, response and duplicate check (16_host_port.md, R422 to R428). -/

namespace Sys2Proof.Machine

/-- Replace mailbox `m`. -/
def setMbx (m : Fin 4) (x : Mailbox) (b : Block) : Block := { b with mbx := vset b.mbx m x }

/-- Mailbox `m`. -/
def mbxOf (b : Block) (m : Fin 4) : Mailbox := vget b.mbx m

/-- The opcode of the request in mailbox `m` (R423). -/
def reqOp (b : Block) (m : Fin 4) : Nat := leNat (Memory.readN (mbxOf b m).req 0 2)
/-- Its tag. -/
def reqTag (b : Block) (m : Fin 4) : U16 := BitVec.ofNat 16 (leNat (Memory.readN (mbxOf b m).req 2 2))
/-- Its length field: payload bytes. -/
def reqLen (b : Block) (m : Fin 4) : Nat := leNat (Memory.readN (mbxOf b m).req 4 2)
/-- The reserved half of header word 1. -/
def reqRsvd (b : Block) (m : Fin 4) : Nat := leNat (Memory.readN (mbxOf b m).req 6 2)

/-- Payload byte at offset `o` of the request. -/
def rB (b : Block) (m : Fin 4) (o : Nat) : U8 := (mbxOf b m).req.read (8 + o)
/-- `n` payload bytes from offset `o`. -/
def rBytes (b : Block) (m : Fin 4) (o n : Nat) : List U8 := Memory.readN (mbxOf b m).req (8 + o) n
/-- The little-endian number in `n` payload bytes from offset `o` (R6). -/
def rN (b : Block) (m : Fin 4) (o n : Nat) : Nat := leNat (rBytes b m o n)
/-- Bit `k` of the payload byte at offset `o`. -/
def rBit (b : Block) (m : Fin 4) (o k : Nat) : Bool := (rB b m o).getLsbD k
/-- A 16-bit payload field. -/
def r16 (b : Block) (m : Fin 4) (o : Nat) : U16 := BitVec.ofNat 16 (rN b m o 2)
/-- A 32-bit payload field. -/
def r32 (b : Block) (m : Fin 4) (o : Nat) : U32 := BitVec.ofNat 32 (rN b m o 4)
/-- A 64-bit payload field. -/
def r64 (b : Block) (m : Fin 4) (o : Nat) : U64 := BitVec.ofNat 64 (rN b m o 8)
/-- The payload bytes of the request. -/
def rAll (b : Block) (m : Fin 4) : List U8 := rBytes b m 0 (min (reqLen b m) 1016)

/-- The family of an opcode: its high byte (R429). -/
def familyOf (op : Nat) : Nat := op / 256
/-- A command that replay does not execute: of the keys family or of the replay and dump family (R537). -/
def answeredByTrace (op : Nat) : Bool := familyOf op == 0x0E || familyOf op == 0x14
/-- Write a response (R423): the request's opcode and tag, the status, the payload and its length; bytes that no field
defines read as 0 (R424). A recording keeps the responses that replay will need (RESULT items, R536). -/
def respond (m : Fin 4) (status : Nat) (payload : List U8) (b : Block) : Block :=
  let p := payload.take 1016
  let l := leBytes 2 (reqOp b m) ++ b16 (reqTag b m) ++ leBytes 2 status ++ leBytes 2 p.length ++ p
  onlyIf (answeredByTrace (reqOp b m)) (traceItem 16 0 (now b) (leBytes 2 (reqOp b m) ++ [0, 0] ++ l))
    (setMbx m { mbxOf b m with resp := Memory.ofBytes l, answered := true } b)

/-- A refusal: a status and no payload; the command changes nothing (R424, R428). -/
def refuse (m : Fin 4) (status : Nat) (b : Block) : Block := respond m status [] b

/-- Success with a payload. -/
def ok (m : Fin 4) (payload : List U8) (b : Block) : Block := respond m 0 payload b

/-- The operational entry of a command (R526): code 0x8000 + opcode, bytes 0-1 the status, byte 2 the mailbox, bytes 4-31
the request payload's first 28 bytes. -/
def cmdLog (m : Fin 4) (status : Nat) (b : Block) : Block :=
  opLogAs wSedge (BitVec.ofNat 16 (0x8000 + reqOp b m))
    (leBytes 2 status ++ [BitVec.ofNat 8 m.val, 0] ++ padTo 28 ((rAll b m).take 28)) b

/-- INTERNAL (R428): the command cannot be carried out, with its log entry (R526). -/
def internalFail (m : Fin 4) (b : Block) : Block :=
  refuse m 9 (opLogAs wSedge 0x4800 (leBytes 2 (reqOp b m) ++ [BitVec.ofNat 8 m.val, (reqTag b m).setWidth 8]) b)

/-- Mailbox `m` executes a request with opcode `op` that has no response yet. -/
def serving (b : Block) (m : Fin 4) (op : Nat) : Bool :=
  decide ((mbxOf b m).state = .busy) && !(mbxOf b m).answered && reqOp b m == op

/-- The cores a command needs besides Sedge (UNIT_ABSENT of R428). -/
inductive Need where
  | sedge | carr | dyke
deriving DecidableEq, Repr

/-- That core runs. -/
def coreRuns (b : Block) : Need → Bool
  | .sedge => b.rst.sedge
  | .carr => b.rst.carr
  | .dyke => b.rst.dyke

/-- What replay mode makes of a command of the two families that it does not execute: the RESULT item of the trace answers it
(R537); without one, a command of the keys family waits for its item, the two status commands are served, and every other one
of the replay and dump family returns REPLAY_MODE (R550). -/
def replayAnswer (m : Fin 4) (op : Nat) (f : Block → Block) (b : Block) : Block :=
  match b.rpl.results.find? fun l => natAt l 0 2 == op with
  | some l =>
    setMbx m { mbxOf b m with resp := Memory.ofBytes (l.drop 4), answered := true }
      { b with rpl := { b.rpl with results := b.rpl.results.erase l } }
  | none => if familyOf op = 0x0E then b else if op = 0x1401 ∨ op = 0x1407 then f b else refuse m 7 b
/-- The effect `f` of a command, when mailbox `m` executes a request with its opcode: a core that does not run answers
UNIT_ABSENT (R428). Without such a request nothing happens (DESIGN CHOICE, log entry 8). -/
def command (m : Fin 4) (op : Nat) (need : Need) (f : Block → Block) (b : Block) : Block :=
  if !serving b m op then b
  else if !coreRuns b need then refuse m 8 b
  else if b.rpl.mode && answeredByTrace op then replayAnswer m op f b
  else f b

/-- The first failed check of a list (status, holds), or success. -/
def firstFail : List (Nat × Bool) → Option Nat
  | [] => none
  | (st, okay) :: r => if okay then firstFail r else some st

/-- Refuse on the first failed check, else run. -/
def checked (m : Fin 4) (l : List (Nat × Bool)) (f : Block → Block) (b : Block) : Block :=
  match firstFail l with
  | some st => refuse m st b
  | none => f b

/-! ### Doorbell -/

/-- Mailbox `m` enters DONE (R425): source 2 + m. -/
def mbxDone (m : Fin 4) (b : Block) : Block :=
  irq (2 + m.val) (setMbx m { mbxOf b m with state := .done } b)

/-- The bytes of a request that the duplicate check compares: opcode, tag, length and payload (R427). -/
def reqImage (b : Block) (m : Fin 4) : List U8 :=
  Memory.readN (mbxOf b m).req 0 6 ++ rAll b m

/-- Ring (R425, R427): to QUEUED; straight to DONE with the response held when the request is a duplicate of the last one;
ignored with ring_err in QUEUED and BUSY. -/
def mbxRing (m : Fin 4) (b : Block) : Block :=
  let x := mbxOf b m
  match x.state with
  | .queued => setMbx m { x with ringErr := true } b
  | .busy => setMbx m { x with ringErr := true } b
  | _ =>
    let t := reqTag b m
    if t ≠ 0 ∧ x.lastValid ∧ x.lastReq = reqImage b m then
      mbxDone m (setMbx m { x with tag := t, replayed := true } b)
    else
      { setMbx m { x with state := .queued, tag := t, replayed := false, answered := false, arrival := b.hp.arrivals, rungAt := now b } b with
        hp := { b.hp with arrivals := b.hp.arrivals + 1 } }

/-- Cancel (R425): a QUEUED request ends in DONE with CANCELLED; it is never the object of the duplicate check (R427). -/
def mbxCancel (m : Fin 4) (b : Block) : Block :=
  let x := mbxOf b m
  if x.state = .queued then
    let b := refuse m 5 b
    mbxDone m (setMbx m { mbxOf b m with lastValid := false } b)
  else b

/-- Acknowledge (R425): DONE to IDLE. -/
def mbxAck (m : Fin 4) (b : Block) : Block :=
  let x := mbxOf b m
  if x.state = .done then setMbx m { x with state := .idle } b else b

/-- A write of MBX_DOORBELL(m): acknowledge, ring, cancel, in that order (R425). -/
def mbxDoorbell (m : Fin 4) (v : U32) (b : Block) : Block :=
  onlyIf (v.getLsbD 1) (mbxCancel m) (onlyIf (v.getLsbD 0) (mbxRing m) (onlyIf (v.getLsbD 2) (mbxAck m) b))

/-! ### Start and end of a request -/

/-- Some mailbox is BUSY with a request of family `f`. -/
def familyBusy (b : Block) (f : Nat) : Bool :=
  (List.finRange 4).any fun m => decide ((mbxOf b m).state = .busy) && familyOf (reqOp b m) == f

/-- Mailbox `m` holds a QUEUED request whose family is free. -/
def startable (b : Block) (m : Fin 4) : Bool :=
  decide ((mbxOf b m).state = .queued) && !familyBusy b (familyOf (reqOp b m))

/-- Sedge may start the request of mailbox `m` now: it runs, and no startable request arrived before (R426). -/
def mayStart (b : Block) (m : Fin 4) : Bool :=
  b.rst.sedge && startable b m &&
    (List.finRange 4).all fun k => !(startable b k && decide ((mbxOf b k).arrival < (mbxOf b m).arrival))

/-- The response of mailbox `m` is complete: DONE, and the request is kept for the duplicate check (R425, R427). -/
def mbxComplete (m : Fin 4) (b : Block) : Block :=
  let x := mbxOf b m
  if x.state = .busy ∧ x.answered then
    mbxDone m (setMbx m { x with lastReq := reqImage b m, lastValid := true } b)
  else b

end Sys2Proof.Machine
end

