-- ==== Sys2Proof/Machine/PeatOps.lean ====
section
/-! DEFINITION. Requests to the Peat store: partitions, the request check, twin-slot and counter lines
(13_peat_store.md, R313, R314, R320, R331, R341 to R343). -/

namespace Sys2Proof.Machine

/-- Requester numbers of R331. -/
def rqCarr : Fin 6 := 0
/-- Brine. -/
def rqBrine : Fin 6 := 1
/-- Bittern. -/
def rqBittern : Fin 6 := 2
/-- The key store. -/
def rqKeys : Fin 6 := 3
/-- Sedge settings. -/
def rqSedge : Fin 6 := 4
/-- The update agent. -/
def rqUpdate : Fin 6 := 5

/-- Requester `r` may write logical line `n` (R313, R331): counters only by their own operation. SETTINGS of either area are
Sedge's. -/
def mayWriteLine (r : Fin 6) (n : Nat) : Bool :=
  match r.val with
  | 0 => decide (64 ≤ n ∧ n ≤ 35327)
  | 1 => decide (35328 ≤ n ∧ n ≤ 47615)
  | 2 => decide (47616 ≤ n ∧ n ≤ 55807) || decide (65472 ≤ n ∧ n ≤ 65535)
  | 3 => decide (55808 ≤ n ∧ n ≤ 56831)
  | 4 => decide (57088 ≤ n ∧ n ≤ 65279)
  | _ => decide (65280 ≤ n ∧ n ≤ 65471)

/-- The requester a counter is bound to (R342). -/
def counterOwner (k : Fin 64) : Fin 6 :=
  if k.val ≤ 15 then rqKeys else if k.val ≤ 19 then rqUpdate else if k.val ≤ 23 then rqCarr
  else if k.val ≤ 55 then rqBrine else rqSedge

/-- The largest counter value, 2^24 - 1 (R341). -/
def ctrMax : Nat := 16777215
/-- The warning level of a counter, 2^24 - 2^16 (R343). -/
def ctrWarnAt : Nat := 16711680

/-- Add a request to a requester's queue. -/
def pushRequest (r : Fin 6) (q : PeaRequest) (b : Block) : Block :=
  { b with arb := { b.arb with reqs := vupd b.arb.reqs r fun x =>
      if x.masked then x else { x with queue := x.queue ++ [q], rejected := false } } }

/-- Reject a request whole (R314): counted, source 390, and the requester is told. -/
def rejectRequest (r : Fin 6) (b : Block) : Block :=
  irq 390 { b with
    pea := { b.pea with rejectCnt := satInc b.pea.rejectCnt }
    arb := { b.arb with reqs := vupd b.arb.reqs r fun x => { x with rejected := true } } }

/-- A line's 64 bytes from its first 60: the trailer is the CRC-32C of bytes 0 to 59 (R320). -/
def sealLine (l : List U8) : List U8 :=
  let x := padTo 60 l
  x ++ b32 (crc32c x)

/-- Requester `r` may write line `n` now (R313, R314): of the two settings areas the one that is not active is written only while settings
are migrated. -/
def lineOpen (b : Block) (r : Fin 6) (n : Nat) : Bool :=
  mayWriteLine r n && (r != rqSedge || b.newSettings.isSome || b.pea.settingsB == decide (61184 ≤ n))
/-- A write request (R314): 1 to 16 lines, every one of them within what the requester may write; checked whole. -/
def peatRequest (r : Fin 6) (first : Nat) (content : List (List U8)) (act : StoreAct) (b : Block) : Block :=
  let n := content.length
  if 1 ≤ n ∧ n ≤ 16 ∧ (List.range n).all (fun i => lineOpen b r (first + i)) then
    pushRequest r { first := first, content := content, act := act } b
  else rejectRequest r b

/-- Write consecutive lines as requests of at most 16 lines; `act` follows the last. -/
def peatWriteAux (r : Fin 6) (act : StoreAct) : Nat → Nat → List (List U8) → Block → Block
  | 0, _, _, b => b
  | f + 1, first, ls, b =>
    if ls.length ≤ 16 then peatRequest r first ls act b
    else peatWriteAux r act f (first + 16) (ls.drop 16) (peatRequest r first (ls.take 16) .lines b)

/-- Write consecutive lines from `first`. -/
def peatWrite (r : Fin 6) (first : Nat) (ls : List (List U8)) (act : StoreAct) (b : Block) : Block :=
  peatWriteAux r act (ls.length + 1) first ls b

/-- One line of a record whose place and layout the spec does not state (a free value, log entry 9), within the `size` lines
from `base`. -/
def peatFree (r : Fin 6) (base size : Nat) (act : StoreAct) (b : Block) : Block :=
  let n := b.pea.writes
  peatRequest r (base + Config.storePlace n % size) [sealLine ((List.range 60).map (Config.storeByte n))] act
    { b with pea := { b.pea with writes := n + 1 } }

/-- First line of the settings area that Sedge writes: the area of record, or the other one while a Sedge image with another
settings format is in trial (R511). -/
def settingsBase (b : Block) : Nat := if b.pea.settingsB == b.newSettings.isSome then 57088 else 61184
/-- Store the settings in force (R313); they are the stored settings once the line is checked. -/
def saveSettings (b : Block) : Block := peatFree rqSedge (settingsBase b) 4096 .settings b

/-- A record of the LEGAL configuration area (R313), written by Carr. -/
def saveLegalConfig (b : Block) : Block := peatFree rqCarr 32832 2496 (.legal none) b

/-- A record of the SAFETY partition (R313), written by Bittern for Dyke. -/
def saveSafety (b : Block) : Block := peatFree rqBittern 65472 64 .lines b

/-- A record of the KEYSTORE partition (R313). -/
def saveKeystore (b : Block) : Block := peatFree rqKeys 55808 1024 .lines b

/-- A record of the UPDATE partition (R313). -/
def saveUpdate (b : Block) : Block := peatFree rqUpdate 65280 192 .update b

/-! ### Monotonic counters -/

/-- The value a counter has once every increment already requested is done. -/
def ctrPlanned (b : Block) (k : Fin 64) : Nat :=
  ((vget b.arb.reqs (counterOwner k)).queue.foldl
    (fun v q => match q.act with | .counter k' v' _ => if k' = k then v' else v | _ => v) (vget b.pea.ctr k).toNat)

/-- The line that increments counter `k` to `v` (R341). -/
def ctrLine (k : Fin 64) (v : Nat) : List U8 :=
  sealLine (leBytes 4 v ++ [BitVec.ofNat 8 k.val] ++ zeros 51 ++ leBytes 4 (2 ^ 32 - 1 - v))

/-- Increment counter `k` for requester `r` (R341, R342): rejected when it is not bound to it, refused when exhausted. The
answer is the new value. -/
def ctrIncrement (r : Fin 6) (k : Fin 64) (mbx : Option (Fin 4)) (b : Block) : Block × Option Nat :=
  if r ≠ counterOwner k then (rejectRequest r b, none)
  else
    let v := ctrPlanned b k + 1
    if ctrMax < v then (b, none)
    else (pushRequest r { first := 56832 + 4 * k.val + v % 4, content := [ctrLine k v], act := .counter k v mbx } b, some v)

/-- Counter `k` has reached its end, counting the increments already requested (R343). -/
def ctrExhausted (b : Block) (k : Fin 64) : Bool := decide (ctrMax ≤ ctrPlanned b k)

end Sys2Proof.Machine
end

