-- ==== Sys2Proof/Machine/Keys.lean ====
section
/-! DEFINITION. Keys, identity and attestation (15_keys.md): derivation, working registers, the random generator, key slots
and messages, authorisation tokens, the identity statement, and the keys family. -/

namespace Sys2Proof.Machine

/-- The characters of a label as bytes. -/
def ascii (s : String) : List U8 := s.toList.map fun c => BitVec.ofNat 8 c.toNat

/-- KDF of R387. -/
def kdf (k : List U8) (label : String) (ctx : List U8) (n : Nat) : List U8 :=
  (hmac384 k (ascii label ++ [0] ++ ctx ++ beBytes 2 n)).take n

/-- The private scalar of a key pair named `n` derived from key `k` (R387). -/
def keyScalar (c : Nat) (k : List U8) (n : String) : Nat :=
  let t := kdf k "KP" (ascii n ++ [1]) 48 ++ (if c = 2 then kdf k "KP" (ascii n ++ [2]) 16 else [])
  beNat t % ((curveOf c).n - 1) + 1

/-- CDI_0 (R388): from UDS, the boot ROM's measurement and the debug policy of the strap. -/
def cdi0 (policy : Nat) : List U8 :=
  kdf (beBytes 32 Config.uds.toNat) "CDI0" (beBytes 48 Config.hRom.toNat ++ [BitVec.ofNat 8 policy]) 48

/-- CDI_x of image x (1 Creek, 2 Dyke, 3 Carr, 4 Sedge) with measurement `h` (R388). -/
def cdiOf (c0 : List U8) (x : Nat) (h : List U8) : List U8 := kdf c0 "CDI1" (BitVec.ofNat 8 x :: h) 48

/-- The debug policy of a strap choice (R494): 0 closed, 1 challenge, 2 open. -/
def debugPolicy (choice : Nat) : Nat :=
  if choice ≤ 7 then choice % 2 else if choice = 8 then 0 else if choice ≤ 12 then 1 else 2

/-! ### Random values (R394) -/

/-- Draw `n` random bytes: free values, and a RANDOM item of a running recording; in replay mode the bytes of RANDOM items (R537). -/
def draw (n : Nat) (b : Block) : Block × List U8 :=
  let l := if b.rpl.mode then padTo n b.rpl.randoms else (List.range n).map fun i => Config.random (b.key.draws + i)
  let b := { b with rpl := { b.rpl with randoms := b.rpl.randoms.drop n } }
  (traceItem 10 0 (now b) l { b with key := { b.key with draws := b.key.draws + n, rngUses := b.key.rngUses + 1 } }, l)

/-! ### Working registers (R392) -/

/-- The secret a working register holds. -/
def secretOf (b : Block) (i : Fin 19) : List U8 := let s := vget b.key.shares i; xorBytes s.s1 s.s2

/-- Put a secret into working register `i` as two shares with a fresh mask. -/
def putSecret (i : Fin 19) (k : List U8) (b : Block) : Block :=
  let r := draw k.length b
  { r.1 with key := { r.1.key with shares := vset r.1.key.shares i { s1 := xorBytes k r.2, s2 := r.2 } } }

/-- One register re-masked: a fresh mask xored into both shares. -/
def remaskReg (i : Fin 19) (b : Block) : Block :=
  let s := vget b.key.shares i
  if s.s1.isEmpty then b
  else
    let r := draw s.s1.length b
    { r.1 with key := { r.1.key with shares := vset r.1.key.shares i { s1 := xorBytes s.s1 r.2, s2 := xorBytes s.s2 r.2 } } }

/-- Register of the private key of slot `s` (4-15). -/
def slotReg (s : Fin 16) : Fin 19 := ⟨(7 + (s.val - 4)) % 19, Nat.mod_lt _ (by decide)⟩
/-- Register of the key that signs readings: the legal key, in replay mode the replay key (R360). -/
def readingReg (b : Block) : Fin 19 := if b.rpl.mode then 6 else 5
/-- The working register that a request of the signature engine uses. -/
def jobReg (b : Block) (j : EngineJob) : Option (Fin 19) :=
  match j with
  | .reading _ => some (readingReg b)
  | .tls n => (vget b.v2g n).inForce.keySlot.map slotReg
  | .other => none
/-- Some unit of the engine uses register `i`. -/
def regInUse (b : Block) (i : Fin 19) : Bool := b.key.units.toList.any fun u => match u with | some w => jobReg b w.job == some i | none => false

/-- A re-mask pass (R392): every register that no operation uses; the others wait for the end of theirs. The pass is counted. -/
def remaskAll (b : Block) : Block :=
  let used := (List.finRange 19).filter (regInUse b)
  let b := forAll ((List.finRange 19).filter fun i => !used.contains i) remaskReg b
  { b with key := { b.key with
    remaskCnt := satInc b.key.remaskCnt, lastRemask := now b, maskWait := BitVec.ofNat 19 (bitsNat ((List.finRange 19).map used.contains)) } }
/-- An operation has ended: the registers that waited for it are re-masked (R392). -/
def remaskFreed (b : Block) : Block :=
  let l := (List.finRange 19).filter fun i => b.key.maskWait.getLsbD i.val && !regInUse b i
  forAll l (fun i b => remaskReg i { b with key := { b.key with maskWait := b.key.maskWait &&& ~~~((1 : BitVec 19) <<< i.val) } }) b

/-- Clear every working register (R393). -/
def clearWorking (b : Block) : Block :=
  { b with key := { b.key with shares := Vector.replicate 19 {}, loaded := 0, challenge := none, maskWait := 0 } }

/-! ### Slots (R395, R396) -/

/-- Slot states of R406. -/
inductive SlotState where
  | empty | valid | torn | frozen
deriving DecidableEq, Repr

/-- The state of a slot: its generation against its counter (R396). An EMPTY slot too is TORN while its counter is ahead (R401). -/
def slotState (b : Block) (s : Fin 16) : SlotState :=
  let x := vget b.key.index s
  let c := (vget b.pea.ctr ⟨s.val, by omega⟩).toNat
  if x.gen.toNat < c then .torn
  else if x.usage = 0 then .empty
  else if ctrMax ≤ c then .frozen
  else .valid

/-- The slot may be used: VALID, or FROZEN, which remains usable (R396). -/
def slotUsable (b : Block) (s : Fin 16) : Bool :=
  match slotState b s with | .valid => true | .frozen => true | _ => false

/-- The key store can operate (KEYS_UNAVAILABLE otherwise, R385, R393). -/
def keysUp (b : Block) : Bool := b.key.keysReady && !b.key.erased

/-- Verify a signature with the public key of slot `s`, which must have usage `u` (R395): a slot of another usage fails as a
signature failure. -/
def verifySlot (b : Block) (s : Fin 16) (u : Nat) (msg sig : List U8) : Bool :=
  let x := vget b.key.index s
  keysUp b && slotUsable b s && x.usage.toNat == u &&
    ecdsaVerify x.curve.toNat x.pub (beNat (if x.curve = 2 then sha384 msg else sha256 msg)) sig

/-- Sign a message with the private key in working register `i` on curve `c` (R405); 64 or 96 bytes. -/
def signWith (b : Block) (c : Nat) (i : Fin 19) (msg : List U8) : List U8 :=
  ecdsaSign c (beNat (secretOf b i)) (beNat (if c = 2 then sha384 msg else sha256 msg))

/-- The wrap key of a slot (R389): from CDI_0, or from CDI_4 for a measurement-bound slot. -/
def wrapKey (b : Block) (s : Fin 16) (gen : U32) (usage : Nat) (bound : Bool) : List U8 :=
  kdf (secretOf b (if bound then 2 else 0)) "WRAP"
    ([BitVec.ofNat 8 s.val] ++ beBytes 4 gen.toNat ++ [BitVec.ofNat 8 usage]) 32

/-! ### Authorisation tokens (R402) -/

/-- The token fields agree: kind, version, opcode, device, challenge, digest of the payload before the token. -/
def tokenFieldsOk (b : Block) (op : Nat) (before tok : List U8) : Bool :=
  byteAt tok 0 == 4 && byteAt tok 1 == 1 && natAt tok 2 2 == op && natAt tok 4 8 == b.key.serial.toNat &&
    (match b.key.challenge with
     | some (c, e) => slice tok 12 8 == c && decide ((now b).toNat < e.toNat)
     | none => false) && slice tok 20 32 == sha256 before

/-- Carr verifies the token of `n` bytes at payload offset `o` (R402): one attempt, which consumes the challenge; a failure is
counted with source 446. -/
def authorise (m : Fin 4) (o n : Nat) (b : Block) : Block × Bool :=
  let tok := rBytes b m o n
  let good := n == 116 && tokenFieldsOk b (reqOp b m) (rBytes b m 0 o) tok &&
    verifySlot b 1 2 (tok.take 52) (slice tok 52 64)
  let b := { b with key := { b.key with challenge := none } }
  if good then (b, true)
  else (irq 446 { b with key := { b.key with rejectCnt := satInc b.key.rejectCnt } }, false)

/-! ### Key-update messages (R399 to R401) -/

/-- The usage fits the slot (R395). -/
def usageFits (usage slot : Nat) : Bool :=
  match usage with
  | 1 => slot == 0
  | 2 => slot == 1
  | 3 => slot == 2
  | 4 => slot == 3
  | 5 => decide (4 ≤ slot)
  | 6 => decide (4 ≤ slot)
  | _ => false

/-- The curve fits the usage (R395). -/
def curveFits (usage curve : Nat) : Bool :=
  match usage with
  | 1 => curve == 2
  | 2 => curve == 1
  | 3 => curve == 1
  | 4 => curve == 2
  | 5 => curve == 1
  | 6 => curve == 1 || curve == 2
  | _ => false

/-- Check 1 of R400: kind, version, op, slot, curve, usage and policy agree with R395 and R399, reserved bytes 0. -/
def keyFormatOk (l : List U8) : Bool :=
  let op := (byteAt l 2).toNat
  let slot := (byteAt l 3).toNat
  let curve := (byteAt l 4).toNat
  let usage := (byteAt l 5).toNat
  let policy := (byteAt l 6).toNat
  let keyZero := slice l 20 97 == zeros 97
  byteAt l 0 == 3 && byteAt l 1 == 1 && decide (slot ≤ 15) && byteAt l 7 == 0 && slice l 117 3 == zeros 3 &&
    (match op with
     | 1 => decide (1 ≤ usage ∧ usage ≤ 5) && usageFits usage slot && curveFits usage curve && policy == 0
     | 2 => usage == 6 && usageFits usage slot && curveFits usage curve && decide (policy ≤ 1) && keyZero
     | 3 => usage == 0 && curve == 0 && policy == 0 && decide (4 ≤ slot) && keyZero
     | _ => false)

/-- The message claims slot 0 (R399): SET_PUBLIC for slot 0 while it is EMPTY and counter 0 is at 0, signature bytes 0. -/
def isClaim (b : Block) (l : List U8) : Bool :=
  byteAt l 2 == 1 && byteAt l 3 == 0 && byteAt l 5 == 1 && slice l 120 96 == zeros 96 &&
    decide (slotState b 0 = .empty) && ctrPlanned b 0 == 0

/-- Slot number of a message. -/
def msgSlot (l : List U8) : Fin 16 := ⟨(byteAt l 3).toNat % 16, Nat.mod_lt _ (by decide)⟩

/-- A slot's counter. -/
def slotCtr (s : Fin 16) : Fin 64 := ⟨s.val, by omega⟩

/-- The checks of R400, in order; the first failing one gives the status. -/
def keyChecks (b : Block) (l : List U8) : List (Nat × Bool) :=
  let k := slotCtr (msgSlot l)
  [(0x0E01, keyFormatOk l),
   (0x0E02, natAt l 12 8 == b.key.serial.toNat),
   (0x0E03, isClaim b l || verifySlot b 0 1 (l.take 120) (slice l 120 96)),
   (0x0E04, !ctrExhausted b k),
   (0x0E05, natAt l 8 4 == ctrPlanned b k + 1),
   (0x0E06, byteAt l 2 != 1 || onCurve (byteAt l 4).toNat (slice l 20 (if byteAt l 4 == 1 then 65 else 97))),
   (0x0E07, byteAt l 2 != 2 || b.key.rngOk)]

/-- A blob (R397) for slot `s`: the private scalar `d` sealed under the slot's wrap key. -/
def makeBlob (b : Block) (s : Fin 16) (curve : Nat) (bound : Bool) (gen : U32) (nonce : List U8) (d : Nat) : List U8 :=
  let head := beBytes 4 0x4C4B4231 ++ [1, BitVec.ofNat 8 s.val, BitVec.ofNat 8 curve, 6, BitVec.ofNat 8 (b2n bound)] ++
    zeros 3 ++ beBytes 4 gen.toNat ++ beBytes 8 b.key.serial.toNat ++ nonce ++ padTo 97 (pubBytes curve d) ++ zeros 3
  head ++ gcmSeal (wrapKey b s gen 6 bound) nonce head (beBytes 48 d)

/-- The index record of an accepted message with generation `g`, and its answer's first 200 bytes (R401 steps 1 and 3). -/
def keyRecord (l : List U8) (g : Nat) (b : Block) : Block × KeySlot × List U8 :=
  let curve := (byteAt l 4).toNat
  let bound := (byteAt l 6).getLsbD 0
  let gen : U32 := BitVec.ofNat 32 g
  match (byteAt l 2).toNat with
  | 1 => (b, { usage := (byteAt l 5).setWidth 4, curve := BitVec.ofNat 2 curve, gen := gen, pub := slice l 20 97 }, zeros 200)
  | 2 =>
    let r := draw 64 b
    let d := beNat r.2 % ((curveOf curve).n - 1) + 1
    let n := draw 12 r.1
    let blob := makeBlob n.1 (msgSlot l) curve bound gen n.2 d
    (n.1, { usage := 6, curve := BitVec.ofNat 2 curve, bound := bound, gen := gen
            pub := padTo 97 (pubBytes curve d), digest := sha256 blob }, blob)
  | _ => (b, { gen := gen }, zeros 200)

/-- A key-update message is taken (R400, R401): refused on the first failing check with source 442; otherwise the counter is
incremented and the index record written; the answer follows when its line is checked. The second value says that it is in
progress. -/
def keyTake (m : Fin 4) (b : Block) : Block × Bool :=
  let l := rAll b m
  match firstFail (keyChecks b l) with
  | some st => (refuse m st (irq 442 { b with key := { b.key with rejectCnt := satInc b.key.rejectCnt } }), false)
  | none =>
    let s := msgSlot l
    let g := ctrPlanned b (slotCtr s) + 1
    let r := keyRecord l g b
    let b := (ctrIncrement rqKeys (slotCtr s) none r.1).1
    (peatFree rqKeys 55808 1024 (.keySlot s r.2.1 (byteAt l 2) m (r.2.2 ++ leBytes 4 g)) b, true)
/-- Take the waiting messages in their order, until one is in progress (R401: one at a time, in mailbox arrival order). -/
def keyTakeNext : List (Fin 4) → Block → Block
  | [], b => b
  | m :: r, b =>
    let t := keyTake m { b with key := { b.key with messages := m :: r } }
    if t.2 then t.1 else keyTakeNext r { t.1 with key := { t.1.key with messages := r } }
/-- The message in progress has ended: the next one is taken. -/
def keyNext (b : Block) : Block :=
  keyTakeNext b.key.messages.tail { b with key := { b.key with messages := b.key.messages.tail } }
/-- KEY_UPDATE (R400, R401). -/
def keyUpdate (m : Fin 4) (b : Block) : Block :=
  if b.key.messages = [] then keyTakeNext [m] b else { b with key := { b.key with messages := b.key.messages ++ [m] } }

/-- The index record of a key-update message has been written (R401 steps 3 and 4): a replaced or erased private slot loses its
loaded blob; legal log, source 441, answer. -/
def keyApplied (k : Fin 16) (x : KeySlot) (op : U8) (m : Fin 4) (payload : List U8) (b : Block) : Block :=
  let claim := k.val == 0 && decide ((vget b.key.index k).usage = 0) && x.gen == 1
  let b := { b with key := { b.key with
    index := vset b.key.index k x
    loaded := b.key.loaded &&& ~~~((1 : BitVec 16) <<< k.val)
    shares := if 4 ≤ k.val then vset b.key.shares (slotReg k) {} else b.key.shares
    claimed := b.key.claimed || claim } }
  let b := legalLog 0x60 wKeys ([if claim then 2 else 1, BitVec.ofNat 8 k.val, op, 0] ++ b32 x.gen) b
  keyNext (ok m payload (irq 441 b))

/-! ### Blobs (R397, R398) -/

/-- Slot number of request byte 0. -/
def reqSlot (b : Block) (m : Fin 4) : Fin 16 := ⟨(rB b m 0).toNat % 16, Nat.mod_lt _ (by decide)⟩

/-- What a blob's checks of R398 leave: the private scalar's 48 bytes. -/
def openBlob (b : Block) (s : Fin 16) (blob : List U8) : Option (List U8) :=
  let x := vget b.key.index s
  if sha256 blob = x.digest then
    gcmOpen (wrapKey b s x.gen x.usage.toNat x.bound) (slice blob 24 12) (blob.take 136) (slice blob 136 48) (slice blob 184 16)
  else none

/-- KEY_LOAD (R398). -/
def keyLoad (m : Fin 4) (b : Block) : Block :=
  let s := reqSlot b m
  checked m [(0x0E0B, decide ((rB b m 0).toNat ≤ 15)), (0x0E09, slotUsable b s && (vget b.key.index s).usage == 6)] (fun b =>
    match openBlob b s (rBytes b m 4 200) with
    | none => refuse m 0x0E09 b
    | some k => ok m [] (putSecret (slotReg s) k
        { b with key := { b.key with loaded := b.key.loaded ||| ((1 : BitVec 16) <<< s.val) } })) b

/-- KEY_UNLOAD (R408). -/
def keyUnload (m : Fin 4) (b : Block) : Block :=
  let s := reqSlot b m
  checked m [(0x0E0B, decide ((rB b m 0).toNat ≤ 15)), (0x0E08, b.key.loaded.getLsbD s.val)] (fun b =>
    ok m [] { b with key := { b.key with
      loaded := b.key.loaded &&& ~~~((1 : BitVec 16) <<< s.val), shares := vset b.key.shares (slotReg s) {} } }) b

/-- KEY_GET_PUBLIC (R408): slots 0-15, 0x20 DeviceID, 0x21 alias, 0x22 legal key, 0x23 replay key. -/
def keyGetPublic (m : Fin 4) (b : Block) : Block :=
  let id := (rB b m 0).toNat
  if id ≤ 15 then
    let x := vget b.key.index (reqSlot b m)
    checked m [(0x0E08, x.usage != 0)] (ok m ([x.curve.setWidth 8, 0, 0, 0] ++ padTo 97 x.pub)) b
  else if h : 0x20 ≤ id ∧ id ≤ 0x23 then
    ok m ([if id ≤ 0x21 then 2 else 1, 0, 0, 0] ++ padTo 97 (vget b.key.pubs ⟨id - 0x20, by omega⟩)) b
  else refuse m 0x0E0B b

/-! ### Identity statement (R403) -/

/-- Bytes 0 to 703 of the statement. -/
def statementBody (b : Block) (nonce : List U8) : List U8 :=
  [0x10, 1, 0x42, BitVec.ofNat 8 (packFields [(0, b2n b.rpl.mode), (1, b2n b.key.claimed), (2, b2n b.key.pufMargin)])] ++
    b64 b.key.serial ++ b64 (now b) ++ padTo 32 nonce ++ beBytes 48 Config.hRom.toNat ++
    (b.upd.images.toList.flatMap fun x => padTo 48 x.measured) ++
    [BitVec.ofNat 8 (bitsNat (b.upd.images.toList.map (·.runB))), b.rst.choice.setWidth 8, 0, 0] ++
    beBytes 4 b.slt.carrCheck.toNat ++ (b.key.pubs.toList.take 2).flatMap (padTo 97) ++ (b.key.pubs.toList.drop 2).flatMap (padTo 65) ++
    ((b.pea.ctr.toList.take 16).flatMap b32) ++ b.key.index.toList.map (fun x => x.usage.setWidth 8)

/-- The 800-byte statement, signed with DeviceID. -/
def statement (b : Block) (nonce : List U8) : List U8 :=
  let l := statementBody b nonce
  l ++ signWith b 2 3 l

/-! ### Register words (R406) -/

/-- KEY_STATUS. -/
def keyStatusWord (k : KeyStore) : U32 :=
  reg32 [(0, b2n k.pufOk), (1, b2n k.keysReady), (2, b2n k.rngOk), (3, b2n k.erased), (4, b2n k.claimed), (5, b2n k.replay),
    (6, b2n k.switchWait), (7, b2n k.pufMargin)]

/-- KEY_SLOT(s). -/
def keySlotWord (b : Block) (s : Fin 16) : U32 :=
  let x := vget b.key.index s
  if b.key.started then
    reg32 [(0, x.usage.toNat), (4, x.curve.toNat), (6, b2n x.bound),
      (8, match slotState b s with | .empty => 0 | .valid => 1 | .torn => 2 | .frozen => 3),
      (10, b2n (b.key.loaded.getLsbD s.val))]
  else 0

/-- The read value of word `a` of the KEY block. -/
def keyWord (b : Block) (a : Nat) : U32 :=
  let k := b.key
  if a = 0x980 then keyStatusWord k
  else if a = 0x981 then lo32 k.serial
  else if a = 0x982 then hi32 k.serial
  else if a = 0x983 then reg32 [(0, k.attempts.toNat), (8, k.corrected.toNat)]
  else if a = 0x984 then k.remaskCnt
  else if a = 0x985 then k.rejectCnt
  else if a = 0x986 then k.rngFailCnt
  else if a = 0x987 then
    reg32 ((0, bitsNat (k.units.toList.map (·.isSome))) ::
      (k.queues.toList.zip [8, 16, 24]).map fun e => (e.2, min e.1.length 255))
  else if h : 0x990 ≤ a ∧ a ≤ 0x99F then (if k.started then (vget k.index ⟨a - 0x990, by omega⟩).gen else 0)
  else if h : 0x9A0 ≤ a ∧ a ≤ 0x9AF then keySlotWord b ⟨a - 0x9A0, by omega⟩
  else 0

/-! ### Commands and events -/

/-- Run a keys command that needs the keys (R408). -/
def withKeys (m : Fin 4) (f : Block → Block) (b : Block) : Block := if keysUp b then f b else refuse m 0x0E0A b

/-- KEY_GET_CHALLENGE (R402, R408): a fresh challenge replaces the old one and expires after 60 s. -/
def keyGetChallenge (m : Fin 4) (b : Block) : Block :=
  if b.key.rngOk then
    let r := draw 8 b
    let e := ahead r.1 90000000000
    ok m (r.2 ++ b64 e) { r.1 with key := { r.1.key with challenge := some (r.2, e) } }
  else refuse m 0x0E07 b

/-- KEY_RANDOM (R408). -/
def keyRandom (m : Fin 4) (b : Block) : Block :=
  let n := rN b m 0 2
  checked m [(0x0E0B, decide (1 ≤ n ∧ n ≤ 256)), (0x0E07, b.key.rngOk)] (fun b => let r := draw n b; ok m r.2 r.1) b

/-- KEY_GET_STATUS (R408). -/
def execKeyGetStatus (m : Fin 4) (s : State) : Result :=
  s.run (command m 0x0E01 .sedge fun b => ok m (b32s ((List.range 8).map fun i => keyWord b (0x980 + i))) b)
/-- KEY_UPDATE (R401). -/
def execKeyUpdate (m : Fin 4) (s : State) : Result := s.run (command m 0x0E02 .sedge (withKeys m (keyUpdate m)))
/-- KEY_LOAD (R398). -/
def execKeyLoad (m : Fin 4) (s : State) : Result := s.run (command m 0x0E03 .sedge (withKeys m (keyLoad m)))
/-- KEY_UNLOAD (R408). -/
def execKeyUnload (m : Fin 4) (s : State) : Result := s.run (command m 0x0E04 .sedge (withKeys m (keyUnload m)))
/-- KEY_GET_PUBLIC (R408). -/
def execKeyGetPublic (m : Fin 4) (s : State) : Result := s.run (command m 0x0E05 .sedge (withKeys m (keyGetPublic m)))
/-- KEY_ATTEST (R403). -/
def execKeyAttest (m : Fin 4) (s : State) : Result :=
  s.run (command m 0x0E06 .sedge (withKeys m fun b => ok m (statement b (rBytes b m 0 32)) b))
/-- KEY_GET_CERT (R404). -/
def execKeyGetCert (m : Fin 4) (s : State) : Result :=
  s.run (command m 0x0E07 .sedge fun b =>
    ok m (let c := Config.certificate.take 900; leBytes 2 c.length ++ [0, 0] ++ c) b)
/-- KEY_GET_CHALLENGE (R402). -/
def execKeyGetChallenge (m : Fin 4) (s : State) : Result := s.run (command m 0x0E08 .sedge (withKeys m (keyGetChallenge m)))
/-- KEY_RANDOM (R408). -/
def execKeyRandom (m : Fin 4) (s : State) : Result := s.run (command m 0x0E09 .sedge (withKeys m (keyRandom m)))
/-- KEY_CLEAR_COUNTS (R408). -/
def execKeyClearCounts (m : Fin 4) (s : State) : Result :=
  s.run (command m 0x0E0A .sedge (withKeys m fun b =>
    ok m [] { b with key := { b.key with remaskCnt := 0, rejectCnt := 0, rngFailCnt := 0 } }))

/-- REMASK (R392): due 100 ms after the last pass, on Tide when it is ready, else on the key store's own timer, which the
sender of this command is. -/
def remaskDue (b : Block) : Block :=
  if !b.key.keysReady then b
  else if b.tide.ready then afterTicks b.key.lastRemask 150000000 remaskAll b
  else remaskAll b

/-- REMASK (R392). -/
def execRemask (s : State) : Result := s.run remaskDue

/-- RNG_RESEED (R394): every 10 s or after 2^20 requests; after a failed health test the retry falls every 1 s and, when it
passes, sets rng_ok again with source 440. -/
def rngReseed (b : Block) : Block :=
  let good := fun (b : Block) => onlyIf (!b.key.rngOk) (irq 440) { b with key := { b.key with rngOk := true, rngUses := 0, rngAt := now b } }
  if b.key.rngOk && decide (1048576 ≤ b.key.rngUses) then good b
  else afterTicks b.key.rngAt (if b.key.rngOk then 10 * tSec else tSec) good b

/-- RNG_RESEED (R394). -/
def execRngReseed (s : State) : Result := s.run rngReseed

/-- RNG_HEALTH_FAIL (R394): rng_ok to 0, counted, source 440. -/
def rngHealthFail (b : Block) : Block :=
  irq 440 { b with key := { b.key with rngOk := false, rngAt := now b, rngFailCnt := satInc b.key.rngFailCnt } }

/-- RNG_HEALTH_FAIL (R394). -/
def execRngHealthFail (s : State) : Result := s.input rngHealthFail

/-- CHALLENGE_EXPIRED (R402): 60 s after issue. -/
def challengeExpired (b : Block) : Block :=
  match b.key.challenge with
  | some (_, e) => atInstant e.toNat (fun b => { b with key := { b.key with challenge := none } }) b
  | none => b

/-- CHALLENGE_EXPIRED (R402). -/
def execChallengeExpired (s : State) : Result := s.run challengeExpired

/-! ### Start of the key store (R384 to R391) -/

/-- The keys of the Carr and Sedge layers from CDI_0 and the measurements (R389). -/
def deriveKeys (b : Block) : Block :=
  let c0 := cdi0 (debugPolicy b.rst.choice.toNat)
  let meas (i : Nat) : List U8 := match b.upd.images.toList[i]? with | some x => x.measured | none => []
  let c3 := cdiOf c0 3 (meas 2)
  let c4 := cdiOf c0 4 (meas 3)
  let dDev := keyScalar 2 c0 "DEVID"
  let dAli := keyScalar 2 c4 "ALIAS"
  let dLeg := keyScalar 1 c3 "LEGAL"
  let dRep := keyScalar 1 c3 "REPLAY"
  let b := putSecret 0 c0 (putSecret 1 c3 (putSecret 2 c4 b))
  let b := putSecret 3 (beBytes 48 dDev) (putSecret 4 (beBytes 48 dAli) b)
  let b := putSecret 5 (beBytes 32 dLeg) (putSecret 6 (beBytes 32 dRep) b)
  { b with key := { b.key with
    pubs := ⟨#[pubBytes 2 dDev, pubBytes 2 dAli, pubBytes 1 dLeg, pubBytes 1 dRep], by rfl⟩
    serial := BitVec.ofNat 64 (beNat ((sha256 (pubBytes 2 dDev)).take 8))
    keysReady := true, lastRemask := now b } }

/-- A successful regeneration (R384, R386, R391): the keys are derived, the complement is written into the PUF block, TORN slots
are reported. `corrected` is the corrected fraction in 0.1 %; above 10 % puf_margin is set with source 439 (R385). -/
def pufSuccess (corrected : U8) (b : Block) : Block :=
  let b := { b with key := { b.key with
    pufOk := true, attempts := BitVec.ofNat 2 (b.key.tries + 1), corrected := corrected
    pufBurned := true, started := true, retryAt := none, replay := b.rpl.mode
    claimed := (vget b.key.index 0).usage != 0 } }
  let b := deriveKeys b
  let b := onlyIf (decide (100 < corrected.toNat)) (fun x => irq 439 { x with key := { x.key with pufMargin := true } }) b
  forAll (List.finRange 16) (fun s x => onlyIf (decide (slotState x s = .torn)) (irq 443) x) b

/-- A failed check value (R385): power off for 10 ms and try again; after the third attempt the keys stay unavailable, with
source 438 and the legal log. -/
def pufFailure (final : Bool) (b : Block) : Block :=
  let n := b.key.tries + 1
  if n < 3 ∧ !final then { b with key := { b.key with tries := n, retryAt := some (now b) } }
  else
    legalLog 0x60 wKeys [3] (irq 438 { b with key := { b.key with
      tries := n, retryAt := none, pufOk := false, keysReady := false, attempts := 0, started := true } })

/-- The helper data is lost to an uncorrectable error (R385). -/
def helperLost (b : Block) : Bool := b.pea.badLines.any fun n => decide (55808 ≤ n ∧ n < 56832) && Config.helperLine n
/-- PUF_REGENERATE: one attempt of R384, with its outcome from the silicon; without helper data there is none. -/
def pufAttempt (good : Bool) (corrected : U8) (b : Block) : Block :=
  if helperLost b then pufFailure true b else if good then pufSuccess corrected b else pufFailure false b

/-- PUF_RETRY (R385). -/
def execPufRetry (good : Bool) (corrected : U8) (s : State) : Result :=
  s.run fun b => match b.key.retryAt with
    | some t => if b.tide.running then afterTicks t 15000000 (pufAttempt good corrected) b else pufAttempt good corrected b
    | none => b

end Sys2Proof.Machine
end

