-- ==== Sys2Proof/Machine/Coding.lean ====
section
/-! DEFINITION. The line code of the module link: 8b/10b with running disparity, and the frame of 48 symbols (07_module_link.md R165,
R167, R170). A symbol is a word of 10 bits whose most significant bit goes first on the line. -/

namespace Sys2Proof.Machine

/-- What one symbol of the line stands for: a byte, or one of the three control characters of R165. -/
inductive LineChar where
  | byte (d : U8)
  | k285 | k277 | k297
deriving DecidableEq, Repr

/-- The 6-bit blocks of the 5-bit values 0 to 31 at negative disparity. -/
def sixCodes : List Nat :=
  [0b100111, 0b011101, 0b101101, 0b110001, 0b110101, 0b101001, 0b011001, 0b111000,
   0b111001, 0b100101, 0b010101, 0b110100, 0b001101, 0b101100, 0b011100, 0b010111,
   0b011011, 0b100011, 0b010011, 0b110010, 0b001011, 0b101010, 0b011010, 0b111010,
   0b110011, 0b100110, 0b010110, 0b110110, 0b001110, 0b101110, 0b011110, 0b101011]
/-- The 4-bit blocks of the 3-bit values 0 to 7 at negative disparity. -/
def fourCodes : List Nat := [0b1011, 0b1001, 0b0101, 0b1100, 0b1101, 0b1010, 0b0110, 0b1110]
/-- The ones among the low `w` bits of `n`. -/
def onesIn (w n : Nat) : Nat := (List.range w).foldl (fun a i => a + (n / 2 ^ i) % 2) 0
/-- Disparity (true: positive) after a 6-bit block. -/
def after6 (rd : Bool) (c : Nat) : Bool :=
  if 3 < onesIn 6 c ∨ c = 0b000111 then true else if onesIn 6 c < 3 ∨ c = 0b111000 then false else rd
/-- Disparity after a 4-bit block. -/
def after4 (rd : Bool) (c : Nat) : Bool :=
  if 2 < onesIn 4 c ∨ c = 0b0011 then true else if onesIn 4 c < 2 ∨ c = 0b1100 then false else rd
/-- Disparity after a symbol. -/
def afterSymbol (rd : Bool) (s : BitVec 10) : Bool := after4 (after6 rd (s.toNat / 16)) (s.toNat % 16)
/-- The 6-bit block of `x` at disparity `rd`. -/
def sixBlock (rd : Bool) (x : Nat) : Nat :=
  let c := sixCodes.getD x 0
  if rd && (onesIn 6 c != 3 || x == 7) then 63 - c else c
/-- The alternate block of the 3-bit value 7 is taken after these 5-bit values. -/
def alternate7 (rd : Bool) (x : Nat) : Bool := if rd then x == 11 || x == 13 || x == 14 else x == 17 || x == 18 || x == 20
/-- The 4-bit block of `y` after the 5-bit value `x`, at disparity `rd`. -/
def fourBlock (rd : Bool) (x y : Nat) : Nat :=
  let c := if y == 7 && alternate7 rd x then 0b0111 else fourCodes.getD y 0
  if rd && (onesIn 4 c != 2 || y == 3) then 15 - c else c
/-- The symbol of a byte at disparity `rd`. -/
def byteSymbol (rd : Bool) (d : U8) : BitVec 10 :=
  let a := sixBlock rd (d.toNat % 32)
  BitVec.ofNat 10 (16 * a + fourBlock (after6 rd a) (d.toNat % 32) (d.toNat / 32))
/-- A control character, given at negative disparity. -/
def control (rd : Bool) (c : BitVec 10) : BitVec 10 := if rd then ~~~c else c
/-- K28.5 at negative disparity. -/
def comma : BitVec 10 := 0b0011111010
/-- The symbol of a character at disparity `rd`. -/
def LineChar.symbol (rd : Bool) : LineChar → BitVec 10
  | .byte d => byteSymbol rd d
  | .k285 => control rd comma
  | .k277 => control rd 0b1101101000
  | .k297 => control rd 0b1011101000

/-- Characters coded one after the other. -/
def codeLine : Bool → List LineChar → List (BitVec 10)
  | _, [] => []
  | rd, c :: r => let s := c.symbol rd; s :: codeLine (afterSymbol rd s) r
/-- The byte of a symbol at disparity `rd`; none is a code violation. -/
def symbolByte (rd : Bool) (s : BitVec 10) : Option U8 := (List.range 256).findSome? fun k =>
  if byteSymbol rd (BitVec.ofNat 8 k) = s then some (BitVec.ofNat 8 k) else none
/-- The bytes of symbols that follow disparity `rd`. -/
def decodeLine : Bool → List (BitVec 10) → List (Option U8)
  | _, [] => []
  | rd, s :: r => symbolByte rd s :: decodeLine (afterSymbol rd s) r

/-- The symbols of a downlink frame whose header, slots and CRC are `d` (R167). Each frame starts at negative disparity. -/
def codeFrame (d : List U8) : List (BitVec 10) := codeLine false ([.k285, .k285, .k277] ++ d.map LineChar.byte ++ [.k297])
/-- The symbols of an uplink slot whose data and CRC are `d` (R170). -/
def codeSlot (d : List U8) : List (BitVec 10) := codeLine false (.k285 :: d.map LineChar.byte)

end Sys2Proof.Machine
end

