-- ==== Sys2Proof/Machine/Launcher.lean ====
section
/-! DEFINITION. The launcher's own work (02_tide.md, R47 to R54, R578, R580): ring entries and their bytes, the checks at the
launcher, resolving and passing an entry on, and enqueuing entries on a ring. -/

namespace Sys2Proof.Machine

/-- Status codes of R54. -/
def stFired : U8 := 0
/-- LATE. -/
def stLate : U8 := 1
/-- ORDER. -/
def stOrder : U8 := 2
/-- SKIPPED. -/
def stSkipped : U8 := 3
/-- GUARD_FAIL. -/
def stGuardFail : U8 := 4
/-- COLLISION. -/
def stCollision : U8 := 5
/-- DENIED. -/
def stDenied : U8 := 6
/-- MALFORMED. -/
def stMalformed : U8 := 7
/-- CANCELLED. -/
def stCancelled : U8 := 8

/-- Target unit codes of R48. -/
def tgMlk : U16 := 1
/-- High-side switch channel. -/
def tgSwitch : U16 := 2
/-- Control-pilot generator. -/
def tgPilot : U16 := 3
/-- Insulation injection driver. -/
def tgInject : U16 := 4
/-- Snapshot engine. -/
def tgSnap : U16 := 5
/-- Powerline modem sampling. -/
def tgModem : U16 := 6
/-- Saltern boundary. -/
def tgSaltern : U16 := 7
/-- Metrology correction set. -/
def tgMet : U16 := 8
/-- Marker. -/
def tgMark : U16 := 9

/-- The entry in 64 bytes (R47). -/
def entryOf (l : List U8) : Entry where
  time := BitVec.ofNat 64 (natAt l 0 8)
  target := BitVec.ofNat 16 (natAt l 8 2)
  slot := BitVec.ofNat 16 (natAt l 10 2)
  action := byteAt l 12
  flags := byteAt l 13
  guard := BitVec.ofNat 16 (natAt l 14 2)
  payload := slice l 16 32
  cq := BitVec.ofNat 16 (natAt l 48 2)
  status := byteAt l 50
  rsvd := byteAt l 51
  tag := BitVec.ofNat 32 (natAt l 52 4)
  resolveTick := BitVec.ofNat 64 (natAt l 56 8)

/-- The 64 bytes of an entry (R47). -/
def entryBytes (e : Entry) : List U8 :=
  b64 e.time ++ b16 e.target ++ b16 e.slot ++ [e.action, e.flags] ++ b16 e.guard ++ padTo 32 e.payload ++ b16 e.cq ++
    [e.status, e.rsvd] ++ b32 e.tag ++ b64 e.resolveTick

/-- Flag bit 0 of R47. -/
def Entry.dependent (e : Entry) : Bool := e.flags.getLsbD 0
/-- Flag bit 1 of R47. -/
def Entry.guarded (e : Entry) : Bool := e.flags.getLsbD 1
/-- Flag bit 2 of R47. -/
def Entry.report (e : Entry) : Bool := e.flags.getLsbD 2

/-- Home node of module `m` (R3). -/
def homeNode (m : Nat) : Nat := m / 6

/-- Node `n` lies in the reach set of module `m` (R3). -/
def inReach (m n : Nat) : Bool :=
  let d := (n + 16 - homeNode m) % 16
  d == 0 || d == 1 || d == 4 || d == 8

/-- Payload bytes from offset `o` (of the 32) are zero. -/
def payloadZero (e : Entry) (o : Nat) : Bool := ((padTo 32 e.payload).drop o).all (· == 0)

/-- The little-endian number of `n` payload bytes from offset `o`. -/
def Entry.arg (e : Entry) (o n : Nat) : Nat := natAt e.payload o n

/-- The signed number in a 16-bit field. -/
def int16 (n : Nat) : Int := (BitVec.ofNat 16 n).toInt

/-- Position `i` of a LANE_SETPOINT payload lies within its limit (R180). -/
def laneValueOk (e : Entry) (i : Nat) : Bool :=
  let v := e.arg (2 * i) 2
  if bitOf (e.arg 26 2) i then decide (v ≤ 10000) else decide ((int16 v).natAbs ≤ 10000)

/-- A LANE_SETPOINT payload keeps the limits of R180. -/
def laneSetpointOk (e : Entry) : Bool :=
  (List.range 12).all (laneValueOk e) && decide (e.arg 24 2 < 4096) && decide (e.arg 26 2 < 4096) &&
    decide (e.arg 28 2 < 4096) && payloadZero e 30

/-- Allowed duties of R192. -/
def dutyOk (d : Nat) : Bool := d == 0 || d == 1000 || decide (30 ≤ d ∧ d ≤ 970)

/-- Target, action, slot and payload are defined by the target's chapter (R48, R98, R179, R193, R218, R239, R291, R355,
R579). -/
def actionOk (e : Entry) : Bool :=
  let s := e.slot.toNat
  let a := e.action.toNat
  match e.target.toNat with
  | 1 => decide (s < 96) && (match a with
      | 1 => s % 12 == 0 && laneSetpointOk e
      | 2 => payloadZero e 0
      | 3 => decide (e.arg 0 1 < 16) && inReach s (e.arg 0 1) && payloadZero e 1
      | 4 => decide (e.arg 0 1 < 16) && inReach s (e.arg 0 1) && payloadZero e 1
      | _ => false)
  | 2 => decide (s < 40) && (match a with
      | 1 => payloadZero e 0
      | 2 => payloadZero e 0
      | 3 => decide (e.arg 0 2 ≤ 1000) && payloadZero e 2
      | _ => false)
  | 3 => decide (s < 16) && a == 1 && dutyOk (e.arg 0 2) && payloadZero e 2
  | 4 => decide (s < 16) && a == 1 && (e.arg 0 1 == 1 || e.arg 0 1 == 2) && decide (e.arg 1 1 < 4) && payloadZero e 2
  | 5 => decide (s < 4) && a == 1 && payloadZero e 0
  | 6 => (decide (s < 16) || s == 0xFFFF) && a == 1 && payloadZero e 8
  | 7 => s == 0 && a == 1 && decide (e.arg 0 1 < 8) && decide (e.arg 1 1 < 16) && payloadZero e 2
  | 8 => decide (s < 48) && a == 1 && payloadZero e 0
  | 9 => a == 1
  | _ => false

/-- A guard condition number of R51. -/
def guardKnown (g : Nat) : Bool :=
  decide (0x100 ≤ g ∧ g ≤ 0x15F) || decide (0x200 ≤ g ∧ g ≤ 0x20F) || decide (0x300 ≤ g ∧ g ≤ 0x30F)

/-- Reserved and launcher-written parts are 0 (R47; ENTRY_MALFORMED of R62). -/
def entryClean (e : Entry) : Bool :=
  e.flags.toNat < 8 && e.rsvd == 0 && e.status == 0 && e.resolveTick == 0

/-- Step 1 of R49 does not find the entry malformed. -/
def entryFormed (e : Entry) : Bool :=
  actionOk e && entryClean e && (if e.guarded then guardKnown e.guard.toNat else e.guard == 0)

/-- The owner class of ring `r` may name the target and slot (R48, R56). -/
def entryAllowed (r : Nat) (e : Entry) : Bool :=
  match e.target.toNat with
  | 1 => decide (r < 128)
  | 2 => decide (128 ≤ r ∧ r < 512)
  | 3 => decide (128 ≤ r ∧ r < 512)
  | 4 => decide (128 ≤ r ∧ r < 512)
  | 5 => if e.slot = 0 then decide (r < 128) else true
  | 6 => decide (128 ≤ r ∧ r < 512)
  | 7 => decide (512 ≤ r ∧ r < 576)
  | 8 => decide (512 ≤ r ∧ r < 576)
  | _ => true

/-- The target is on the A die (R48). -/
def onAdie (e : Entry) : Bool := decide (2 ≤ e.target.toNat ∧ e.target.toNat ≤ 4)

/-- The arm lead of an entry (R49). -/
def armLead (e : Entry) : Nat := if onAdie e then 96 else 64

/-- Ring `r` as the launcher holds it. -/
def ringOf (b : Block) (r : Nat) : Ring := sget {} b.lau.rings r

/-- Replace ring `r`. -/
def setRing (r : Nat) (x : Ring) (b : Block) : Block := { b with lau := { b.lau with rings := sput {} b.lau.rings r x } }

/-- An item is armed. -/
def RingItem.isArmed (i : RingItem) : Bool := match i.phase with | .armed => true | _ => false

/-- Armed entries of one ring. -/
def Ring.armed (g : Ring) : Nat := (g.chain.filter RingItem.isArmed).length

/-- Armed entries of all rings (TID_LAUNCH_STAT.armed). -/
def armedCount (b : Block) : Nat := (b.lau.rings.map fun e => e.2.armed).sum

/-- The status code an item has, when it is decided. -/
def RingItem.code (i : RingItem) : Option U8 :=
  match i.phase with | .armed => none | .decided s => some s | .done s => some s

/-- Drop the resolved items at the front of a ring, keeping the last of them as the entry before (R51). -/
def trimChain : List RingItem → Option (U64 × U8) → List RingItem × Option (U64 × U8)
  | [], p => ([], p)
  | i :: r, p => match i.phase with
    | .done s => trimChain r (some (i.entry.time, s))
    | _ => (i :: r, p)

/-- Trim ring `r`. -/
def trimRing (r : Nat) (b : Block) : Block :=
  let g := ringOf b r
  let t := trimChain g.chain g.prev
  setRing r { g with chain := t.1, prev := t.2 } b

/-- Time of the entry before an entry that is being taken from ring `g` in buffer `u` (R49 step 3, R53). -/
def timeBefore (g : Ring) (u : Nat) : Option U64 :=
  match g.notes.find? fun n => n.1 == u with
  | some (_, t) => some t
  | none => match g.chain.getLast? with
    | some i => some i.entry.time
    | none => g.prev.map (·.1)

/-- Did the entry before position `k` of the chain fire (R51, R53)? -/
def beforeFired (g : Ring) (k : Nat) : Bool :=
  match g.chain[k]? with
  | none => false
  | some i =>
    if i.cut.isSome then false
    else if k = 0 then (match g.prev with | some (_, s) => s == stFired | none => false)
    else (match g.chain[k - 1]? with | some j => j.code == some stFired | none => false)

/-! ### Resolving -/

/-- A LATE resolution is logged, at most 64 times per second, with entry bytes 0 to 15, the ring and the status (R50, R526). -/
def lateLog (r : Nat) (e : Entry) (b : Block) : Block :=
  let sec : U64 := BitVec.ofNat 64 ((now b).toNat / tSec)
  let n := if b.lau.lateLogSecond = sec then b.lau.lateLogs else 0
  if n < 64 then
    opLogAs wLauncher 0x4008 ((entryBytes e).take 16 ++ leBytes 2 r ++ [stLate])
      { b with lau := { b.lau with lateLogSecond := sec, lateLogs := n + 1 } }
  else b

/-- Counters, the discard registers and the interrupts of an entry that is not executed (R50, R60, R61). -/
def countResolve (r : Nat) (e : Entry) (s : U8) (tick : U64) (b : Block) : Block :=
  if s = stFired then b
  else
    let l := b.lau
    let b := { b with lau := { l with
      discRing := BitVec.ofNat 10 r, discTarget := e.target.setWidth 8, discStatus := s, discTick := tick
      lateCnt := if s = stLate then satInc l.lateCnt else l.lateCnt
      collCnt := if s = stCollision then satInc l.collCnt else l.collCnt
      orderCnt := if s = stOrder then satInc l.orderCnt else l.orderCnt
      skipCnt := if s = stSkipped ∨ s = stGuardFail then satInc l.skipCnt else l.skipCnt
      denyCnt := if s = stDenied ∨ s = stMalformed then satInc l.denyCnt else l.denyCnt } }
    if s = stLate then lateLog r e (irq 8 b)
    else if s = stCancelled then b
    else irq 9 b

/-- The completion record of R578. -/
def completionRecord (r : Nat) (e : Entry) (s : U8) (tick : U64) : List U8 :=
  mkRecord 0x0206 34 0 (b64 e.time ++ b16 e.target ++ b16 e.slot ++ [e.action, e.flags] ++ b16 e.guard ++ b32 e.tag ++
    [s, 0, 0, 0] ++ b64 tick ++ leBytes 2 r)

/-- The launcher may enqueue on completion queue `q` (R54). A number from 32,768 to 65,534 names no queue; such an entry's buffer is
freed and counted like one whose queue could not take it (DESIGN CHOICE, log entry 162). -/
def cqAllowed (b : Block) (q : Nat) : Bool :=
  decide (1024 ≤ q ∧ q < 2048) || (decide (2048 ≤ q ∧ q ≤ 32767) && !(qOf b q).inbound)

/-- Free a buffer the completion queue could not take (R54). -/
def cqDrop (u : Nat) (b : Block) : Block :=
  (qFree agLauncher u { b with lau := { b.lau with cqDropCnt := satInc b.lau.cqDropCnt } }).1

/-- Pass the buffer of a resolved entry on (R54, R578). -/
def passOn (r : Nat) (i : RingItem) (s : U8) (tick : U64) (b : Block) : Block :=
  let e := i.entry
  let q := e.cq.toNat
  if (s = stFired ∧ !e.report) ∨ q = 0xFFFF then (qFree agLauncher i.buf b).1
  else if cqAllowed b q then
    let bytes := if q < 2048 then entryBytes { e with status := s, resolveTick := tick } else completionRecord r e s tick
    match qEnqueue agLauncher q i.buf (setBuf i.buf bytes b) with
    | (b, .ok _) => b
    | (b, .error _) => cqDrop i.buf b
  else cqDrop i.buf b

/-- An entry resolves: counted, and its buffer passed on (R54). -/
def resolveItem (r : Nat) (i : RingItem) (s : U8) (tick : U64) (b : Block) : Block :=
  passOn r i s tick (countResolve r i.entry s tick b)

/-- Replace item `k` of a chain. -/
def setItem (r k : Nat) (f : RingItem → RingItem) (b : Block) : Block :=
  let g := ringOf b r
  setRing r { g with chain := (g.chain.zip (List.range g.chain.length)).map fun e => if e.2 == k then f e.1 else e.1 } b

/-! ### Enqueuing -/

/-- Enqueue an entry on ring `r` for agent `a` (R47, R580); `false` when no buffer could be had or the ring took it not. -/
def submitEntry (a : Fin 16) (r : Nat) (e : Entry) (b : Block) : Block × Bool :=
  match qAlloc a none b with
  | (b, .error _) => (b, false)
  | (b, .ok u) =>
    match qEnqueue a r u (setBuf u (entryBytes e) b) with
    | (b, .ok _) => (b, true)
    | (b, .error _) => ((qFree a u b).1, false)

/-- Enqueue, whatever becomes of it. -/
def submit (a : Fin 16) (r : Nat) (e : Entry) (b : Block) : Block := (submitEntry a r e b).1

/-- An entry without report and completion queue: target, slot, action, payload, time. -/
def mkEntry (target : U16) (slot : Nat) (action : U8) (payload : List U8) (time : U64) : Entry :=
  { time := time, target := target, slot := BitVec.ofNat 16 slot, action := action, payload := payload, cq := 0xFFFF }

/-- Entries that wait in ring `r` and are not yet taken. -/
def ringWaiting (b : Block) (r : Nat) : List Nat := (qOf b r).bufs

/-- Time of the last entry of ring `r`, waiting, taken or resolved; 0 for an empty one. -/
def ringLast (b : Block) (r : Nat) : U64 :=
  match (ringWaiting b r).getLast? with
  | some u => (entryOf (bufBytes b u)).time
  | none => match (ringOf b r).chain.getLast? with
    | some i => i.entry.time
    | none => match (ringOf b r).prev with | some (t, _) => t | none => 0

/-- `t`, or the time of the last entry of ring `r` when that lies later: entries of one ring are in time order (R49). -/
def ringTime (b : Block) (r : Nat) (t : U64) : U64 := if t.toNat < (ringLast b r).toNat then ringLast b r else t

/-- Some entry of ring `r`, waiting or armed, satisfies `p`. -/
def ringHas (b : Block) (r : Nat) (p : Entry → Bool) : Bool :=
  ((ringOf b r).chain.any fun i => i.isArmed && p i.entry) || (ringWaiting b r).any fun u => p (entryOf (bufBytes b u))

/-- The first instant from `t` on for a new entry of ring `r`: in time order (R49), and no second action of one slot on one
tick (R52). -/
def ringFree (b : Block) (r : Nat) (target : U16) (slot : Nat) (t : U64) : U64 :=
  let t := ringTime b r t
  if ringHas b r (fun e => e.target == target && e.slot.toNat == slot && e.time == t) then t + 1 else t

/-- Empty the launcher and its rings: after a restart of Tide (R39) or a reset of HUB scope (R490). The buffers are freed with
every other buffer by the reset. -/
def clearRings (b : Block) : Block := { b with lau := { b.lau with rings := [] } }

/-! ### Cancelling (R53) -/

/-- An armed entry of ring `r` that matches and lies at `c + 96` or later. -/
def cancels (b : Block) (p : Entry → Bool) (e : Entry) : Bool := p e && decide ((now b).toNat + 96 ≤ e.time.toNat)
/-- Cancel the armed entries of ring `r` that match. -/
def cancelArmed (r : Nat) (p : Entry → Bool) (b : Block) : Block × Nat :=
  let g := ringOf b r
  let hit := fun (i : RingItem) => i.isArmed && cancels b p i.entry
  let c := g.chain.filter hit
  let b1 := setRing r { g with chain := g.chain.map fun i => if hit i then { i with phase := .done stCancelled } else i } b
  (trimRing r (forAll c (fun i x => resolveItem r i stCancelled (now b) x) b1), c.length)
/-- What a cancel leaves of the waiting entries of a ring: those kept, their notes, the time of a cancelled entry with none
after it yet, those cancelled. -/
structure WaitScan where
  kept : List Nat := []
  notes : List (Nat × U64) := []
  last : Option U64 := none
  gone : List Nat := []
/-- Look at one waiting buffer. -/
def waitScan (b : Block) (p : Entry → Bool) (g : Ring) (x : WaitScan) (u : Nat) : WaitScan :=
  let e := entryOf (bufBytes b u)
  if cancels b p e then { x with last := some e.time, gone := x.gone ++ [u] }
  else
    let old := g.notes.filter fun n => n.1 == u
    { x with kept := x.kept ++ [u], last := none, notes := x.notes ++ (match x.last with | some t => [(u, t)] | none => old) }
/-- Take a waiting buffer out of its ring for the launcher, and resolve it CANCELLED. -/
def cancelOne (r u : Nat) (b : Block) : Block :=
  let i : RingItem := { buf := u, entry := entryOf (bufBytes b u) }
  resolveItem r i stCancelled (now b) (setOwner u (.agent agLauncher)
    { b with qmg := { b.qmg with cntQueued := b.qmg.cntQueued - 1, cntHeld := b.qmg.cntHeld + 1 } })
/-- Cancel the matching entries of ring `r` at this instant (R53); the answer is their number. -/
def cancelEntries (r : Nat) (p : Entry → Bool) (b : Block) : Block × Nat :=
  let a := cancelArmed r p b
  let b := a.1
  let g := ringOf b r
  let x := (ringWaiting b r).foldl (waitScan b p g) {}
  let b := setQ r { qOf b r with bufs := x.kept } b
  let b := setRing r { g with notes := x.notes, tailNote := match g.tailNote with | some t => some t | none => x.last } b
  (forAll x.gone (cancelOne r) b, a.2 + x.gone.length)

end Sys2Proof.Machine
end

