-- ==== Sys2Proof/Machine/SalternOps.lean ====
section
/-! DEFINITION. What Saltern, Carr and Brine do for several commands (14_billing.md): legal time and the calendar, boundary
entries, readings and their way out, wallets and session ledgers, the opening and closing of a session's legal items. -/

namespace Sys2Proof.Machine

/-- A phase in which a session is open (R18): from CONNECTED to STOPPING. -/
def Phase.isOpen : Phase → Bool
  | .idle | .ended | .faulted => false
  | _ => true

/-! ### Energy and items (R117, R348) -/

/-- The exported value of an accumulator in mWh (R117). -/
def exportAcc (a : Acc) : U64 := BitVec.ofNat 64 (a.toNat * 1000 / 2 ^ 32)

/-- An item identity (R348). -/
def itemId (scope index tariff quantity : Nat) : U32 := BitVec.ofNat 32 (((scope * 256 + index) * 256 + tariff) * 256 + quantity)

/-- Flag bits of an entry: unproven, range (R360). -/
def itemFlags (unproven range : Bool) : U8 := BitVec.ofNat 8 (b2n unproven + 2 * b2n range)

/-- The entry of an energy item. -/
def energyEntry (id : U32) (a : Acc) (flags : U8) : ReadingEntry := { id := id, value := exportAcc a, flags := flags }

/-- Entries of the per-tariff registers other than 0 (R361). -/
def tariffEntries (scope index : Nat) (t : Vector TariffReg 16) (flags : U8) : List ReadingEntry :=
  (List.finRange 16).flatMap fun k =>
    let r := vget t k
    (if r.del = 0 then [] else [energyEntry (itemId scope index k.val 1) r.del flags]) ++
      (if r.rec_ = 0 then [] else [energyEntry (itemId scope index k.val 2) r.rec_ flags])

/-- Total of the delivered registers of all tariffs. -/
def delTotal (t : Vector TariffReg 16) : Acc := t.toList.foldl (fun a r => a + r.del) 0
/-- Total of the received registers of all tariffs. -/
def recTotal (t : Vector TariffReg 16) : Acc := t.toList.foldl (fun a r => a + r.rec_) 0

/-- The legal items of connector `n`. -/
def legalOf (b : Block) (n : Fin 16) : LegalConn := vget b.legal n
/-- Change them. -/
def updLegal (n : Fin 16) (f : LegalConn → LegalConn) (b : Block) : Block := { b with legal := vupd b.legal n f }
/-- Change Saltern. -/
def updSlt (f : Saltern → Saltern) (b : Block) : Block := { b with slt := f b.slt }

/-- Connector totals, delivered and received (R361). -/
def connTotals (b : Block) (n : Fin 16) : List ReadingEntry :=
  let c := legalOf b n
  let fl := itemFlags c.connUnproven c.connRange
  [energyEntry (itemId 2 n.val 0xFF 1) (delTotal c.connTariffs) fl, energyEntry (itemId 2 n.val 0xFF 2) (recTotal c.connTariffs) fl]

/-- The entry of an energy register with its own flags. -/
def regEntry (id : U32) (r : Register) : ReadingEntry := energyEntry id r.acc (itemFlags r.unproven r.range)

/-- Hub totals. -/
def hubTotals (b : Block) : List ReadingEntry := [regEntry (itemId 3 0 0xFF 1) b.acc.hubDel, regEntry (itemId 3 0 0xFF 2) b.acc.hubRec]

/-- Entries of a hub INTERVAL or REGISTER reading (R361). -/
def hubEntries (b : Block) : List ReadingEntry :=
  hubTotals b ++
    tariffEntries 3 0 b.slt.hubTariffs (itemFlags (b.acc.hubDel.unproven || b.acc.hubRec.unproven) (b.acc.hubDel.range || b.acc.hubRec.range)) ++
    (List.finRange 2).flatMap (fun f => [regEntry (itemId 4 f.val 0xFF 3) (vget b.acc.fdrImp f), regEntry (itemId 4 f.val 0xFF 4) (vget b.acc.fdrExp f)]) ++
    [regEntry (itemId 3 0 0xFF 7) b.acc.unattImp, regEntry (itemId 3 0 0xFF 8) b.acc.unattExp]

/-- Entries of a connector's INTERVAL or REGISTER reading. -/
def connEntries (b : Block) (n : Fin 16) : List ReadingEntry :=
  let c := legalOf b n
  connTotals b n ++ tariffEntries 2 n.val c.connTariffs (itemFlags c.connUnproven c.connRange)

/-- Cost due of a session (R373). -/
def costDue (c : LegalConn) : Nat := c.cDel / (1000 * 2 ^ 32)
/-- Export value of a session (R373). -/
def exportValue (c : LegalConn) : Nat := c.cRec / (1000 * 2 ^ 32)

/-- An entry of a plain number. -/
def plainEntry (id : U32) (v : Nat) : ReadingEntry := { id := id, value := BitVec.ofNat 64 v }

/-- Entries of a session that every session reading begins with: number and token. -/
def sessionHead (b : Block) (n : Fin 16) : List ReadingEntry :=
  let c := legalOf b n
  [plainEntry (itemId 5 n.val 0xFF 0x20) c.number.toNat,
    plainEntry (itemId 5 n.val 0xFF 0x30) (natAt c.token 0 8), plainEntry (itemId 5 n.val 0xFF 0x31) (natAt c.token 8 8)]

/-- The energy and cost entries of a session (R361). -/
def sessionEnergy (b : Block) (n : Fin 16) : List ReadingEntry :=
  let c := legalOf b n
  let fl := itemFlags c.unproven c.range
  let fa := itemFlags c.attUnproven c.attRange
  [energyEntry (itemId 5 n.val 0xFF 1) c.del fl, energyEntry (itemId 5 n.val 0xFF 2) c.rec_ fl] ++
    tariffEntries 5 n.val c.tariffs fl ++
    [energyEntry (itemId 5 n.val 0xFF 5) c.attImp fa, energyEntry (itemId 5 n.val 0xFF 6) c.attExp fa,
      { id := itemId 5 n.val 0xFF 0x14, value := BitVec.ofNat 64 (costDue c), flags := fl },
      { id := itemId 5 n.val 0xFF 0x15, value := BitVec.ofNat 64 (exportValue c), flags := fl }]

/-- The ledger of connector `n`. -/
def ledgerOf (b : Block) (n : Fin 16) : Ledger := vget b.bri.ledgers n
/-- Change it. -/
def updLedger (n : Fin 16) (f : Ledger → Ledger) (b : Block) : Block := { b with bri := { b.bri with ledgers := vupd b.bri.ledgers n f } }

/-- The credit entries of a wallet session (R361). -/
def creditEntries (b : Block) (n : Fin 16) : List ReadingEntry :=
  if (legalOf b n).mode = 3 then
    let l := ledgerOf b n
    [plainEntry (itemId 5 n.val 0xFF 0x10) l.reserved.toNat, plainEntry (itemId 5 n.val 0xFF 0x11) l.debited.toNat,
      plainEntry (itemId 5 n.val 0xFF 0x12) l.uncovered.toNat, plainEntry (itemId 5 n.val 0xFF 0x13) l.returned.toNat]
  else []

/-! ### Legal time (R347) -/

/-- The source of legal time now. -/
def timeSource (b : Block) : Nat := if b.tide.todSec ≠ 0 then 1 else if b.backup.rtcValid then 2 else 0

/-- Legal time at Tide instant `t`, in ticks of 1/1,500,000,000 s, under the mapping or the clock in force. -/
def legalTicks (b : Block) (t : U64) : Int :=
  if b.tide.todSec ≠ 0 then (b.tide.todSec.toNat * tSec : Nat) + ((t.toNat : Int) - b.tide.todAnchor.toNat)
  else ((b.backup.rtc.toNat * tSec / 32768 : Nat) : Int) + ((t.toNat : Int) - (now b).toNat)

/-- Legal time at `t` in UTC seconds, 0 without a source. -/
def legalSecs (b : Block) (t : U64) : Nat := if timeSource b = 0 then 0 else (legalTicks b t / tSec).toNat

/-- A byte of a calendar message. -/
def calB (c : List U8) (o : Nat) : Nat := (byteAt c o).toNat
/-- A number of a calendar message. -/
def calN (c : List U8) (o n : Nat) : Nat := natAt c o n

/-- The local offset of the active calendar in seconds, 0 without one (DEDUCED, log entry 12). -/
def localOffset (c : List U8) : Int := int16 (calN c 24 2) * 60

/-- Local time in seconds from a legal time. -/
def localSecs (c : List U8) (s : Nat) : Nat := ((s : Int) + localOffset c).toNat

/-- Year, month and day of a day number counted from 1970-01-01 (the civil calendar). -/
def civil (days : Nat) : Nat × Nat × Nat :=
  let z := days + 719468
  let era := z / 146097
  let doe := z % 146097
  let yoe := (doe - doe / 1460 + doe / 36524 - doe / 146096) / 365
  let doy := doe - (365 * yoe + yoe / 4 - yoe / 100)
  let mp := (5 * doy + 2) / 153
  let d := doy - (153 * mp + 2) / 5 + 1
  let m := if mp < 10 then mp + 3 else mp - 9
  (yoe + era * 400 + (if m ≤ 2 then 1 else 0), m, d)

/-- Day of the week of a day number, 0 for Monday. -/
def weekday (days : Nat) : Nat := (days + 3) % 7

/-- What is in force at a local time (R353). -/
structure InForce where
  season : Nat := 0
  week : Nat := 0
  day : Nat := 0
  special : Bool := false
  tariff : Nat := 0
deriving DecidableEq, Repr

/-- Offset of special day `k` in a calendar. -/
def specialAt (k : Nat) : Nat := 880 + 6 * k

/-- Special day `k` matches a date; with a year, or for every year. -/
def specialMatches (c : List U8) (y m d k : Nat) (withYear : Bool) : Bool :=
  let o := specialAt k
  calB c (o + 5) != 0 && calB c (o + 2) == m && calB c (o + 3) == d &&
    (if withYear then calN c o 2 == y && y != 0 else calN c o 2 == 0)

/-- The day profile of the special day that matches a date (R353 step 1). -/
def specialDay (c : List U8) (y m d : Nat) : Option Nat :=
  match (List.range 64).find? fun k => specialMatches c y m d k true with
  | some k => some (calB c (specialAt k + 4))
  | none => ((List.range 64).find? fun k => specialMatches c y m d k false).map fun k => calB c (specialAt k + 4)

/-- Season `k` is valid, with its start as a number that orders dates. -/
def seasonStart (c : List U8) (k : Nat) : Option Nat :=
  if calB c (32 + 4 * k + 3) ≠ 0 then some (calB c (32 + 4 * k) * 32 + calB c (32 + 4 * k + 1)) else none

/-- The valid season with the latest start not after `limit` (R353 step 2). -/
def latestSeason (c : List U8) (limit : Nat) : Option (Nat × Nat) :=
  (List.range 4).foldl (fun a k => match seasonStart c k with
    | some s => if s ≤ limit then (match a with | some (_, s') => if s' < s then some (k, s) else a | none => some (k, s)) else a
    | none => a) none

/-- The season in force on a date. -/
def seasonOf (c : List U8) (m d : Nat) : Nat :=
  match latestSeason c (m * 32 + d) with
  | some (k, _) => k
  | none => match latestSeason c (13 * 32) with | some (k, _) => k | none => 0

/-- The last valid point of a day profile at or before a minute (R353 step 3). -/
def profileTariff (c : List U8) (day minute : Nat) : Nat :=
  (List.range 12).foldl (fun a p =>
    let o := 112 + 48 * day + 4 * p
    if calB c (o + 3) ≠ 0 ∧ calN c o 2 ≤ minute then calB c (o + 2) else a) 0

/-- What a calendar puts in force at a local time (R353). -/
def inForce (c : List U8) (loc : Nat) : InForce :=
  let days := loc / 86400
  let ymd := civil days
  let s := seasonOf c ymd.2.1 ymd.2.2
  let w := calB c (32 + 4 * s + 2)
  match specialDay c ymd.1 ymd.2.1 ymd.2.2 with
  | some dp => { season := s, week := w, day := dp, special := true, tariff := profileTariff c dp (loc % 86400 / 60) }
  | none =>
    let dp := calB c (48 + 8 * w + weekday days)
    { season := s, week := w, day := dp, special := false, tariff := profileTariff c dp (loc % 86400 / 60) }

/-- What is in force at Tide instant `t`; T0 without legal time or calendar (R347). -/
def inForceAt (b : Block) (t : U64) : InForce :=
  if timeSource b = 0 ∨ b.slt.calActive = [] then {} else inForce b.slt.calActive (localSecs b.slt.calActive (legalSecs b t))

/-- Price of delivered energy in tariff `T` of calendar `c` (R351), 0 without a calendar. -/
def priceDel (c : List U8) (T : Nat) : Nat := calN c (1264 + 8 * T) 4
/-- Price of received energy. -/
def priceRec (c : List U8) (T : Nat) : Nat := calN c (1264 + 8 * T + 4) 4

/-- The sample stamped `t` still uses what was in force before the last switch (R350). -/
def beforeSwitch (b : Block) (t : U64) : Bool := match b.slt.switchAt with | some a => decide (t.toNat ≤ a.toNat) | none => false
/-- The tariff in force for the sample stamped `t` (R350). -/
def tariffAt (b : Block) (t : U64) : Nat := (if beforeSwitch b t then b.slt.oldTariff else b.slt.tariff).toNat
/-- The calendar in force for the sample stamped `t` (R350, R354). -/
def calendarAt (b : Block) (t : U64) : List U8 := if beforeSwitch b t then b.slt.oldCal else b.slt.calActive

/-! ### Boundary entries (R355) -/

/-- The first sample instant at or after Tide tick `x`. -/
def sampleAtOrAfter (x : Nat) : Nat := (x + tSample - 1) / tSample * tSample

/-- The first sample instant at which legal time has reached `e` seconds, not before `lo`. -/
def instantOf (b : Block) (e : Nat) (lo : Nat) : Nat :=
  let d : Int := (e * tSec : Nat) - legalTicks b (now b)
  sampleAtOrAfter (max lo (((now b).toNat : Int) + d).toNat)

/-- Local times strictly after `loc` at which something may change: the next interval end and the next point of the day
profile in force. -/
def nextLocal (c : List U8) (interval loc : Nat) : Nat :=
  let i := (loc / (interval * 60) + 1) * (interval * 60)
  if c = [] then i
  else
    let day := (inForce c loc).day
    let mid := loc / 86400 * 86400
    (List.range 12).foldl (fun a p =>
      let o := 112 + 48 * day + 4 * p
      let t := mid + calN c o 2 * 60
      if calB c (o + 3) ≠ 0 ∧ loc < t ∧ t < a then t else a) i

/-- The next boundary after a legal time: its legal seconds, mask and tariff. Points that change nothing are passed over; a passive
calendar whose activation legal time has passed is due at once (R354). -/
def nextBoundary (b : Block) (interval : Nat) : Nat → Nat → Option (Nat × Nat × Nat)
  | 0, _ => none
  | f + 1, s =>
    let c := b.slt.calActive
    let loc := localSecs c s
    let nl := nextLocal c interval loc
    let e := s + (nl - loc)
    let act := if b.slt.calPassive = [] then 0 else calN b.slt.calPassive 8 8
    if act ≠ 0 ∧ act ≤ s then
      let tar := (inForce b.slt.calPassive (localSecs b.slt.calPassive s)).tariff
      some (s, 4 + (if tar ≠ b.slt.tariff.toNat then 1 else 0), tar)
    else if act ≠ 0 ∧ act ≤ e then
      let tar := (inForce b.slt.calPassive (localSecs b.slt.calPassive act)).tariff
      some (act, (if act = e ∧ nl % (interval * 60) = 0 then 2 else 0) + 4 + (if tar ≠ b.slt.tariff.toNat then 1 else 0), tar)
    else
      let isInt := decide (nl % (interval * 60) = 0)
      let act := isInt && decide (act = 0) && decide (b.slt.calPassive ≠ [])
      let tar := if act then (inForce b.slt.calPassive (localSecs b.slt.calPassive e)).tariff else if c = [] then 0 else (inForce c nl).tariff
      let mask := (if tar ≠ b.slt.tariff.toNat then 1 else 0) + (if isInt then 2 else 0) + (if act then 4 else 0)
      if mask = 0 then nextBoundary b interval f e else some (e, mask, tar)

/-- Enqueue the entry of a planned boundary on Carr ring 512. -/
def enqueueBoundary (x : Boundary) (b : Block) : Block :=
  submit 4 512 (mkEntry tgSaltern 0 1 ([x.mask.setWidth 8, x.tariff.setWidth 8] ++ zeros 30) x.time) b
/-- Carr enqueues a planned boundary once it lies within 2 s, so at least 1 s ahead (R355; DESIGN CHOICE, log entry 34). -/
def feedBoundary (b : Block) : Block :=
  match b.slt.planned.find? fun x => !x.sent && decide (x.time.toNat ≤ (now b).toNat + 2 * tSec) with
  | none => b
  | some x => enqueueBoundary x (updSlt (fun s => { s with planned := s.planned.map fun y => if y = x then { y with sent := true } else y }) b)
/-- Carr plans the next boundary when none is planned, it runs and there is legal time. -/
def planBoundary (b : Block) : Block :=
  if b.slt.planned ≠ [] ∨ !b.rst.carr ∨ !b.slt.running ∨ timeSource b = 0 then b
  else
    match nextBoundary b (max b.slt.interval.toNat 1) 16 (legalSecs b (now b)) with
    | none => b
    | some (e, mask, tar) =>
      feedBoundary (updSlt (fun s => { s with planned :=
        [{ time := BitVec.ofNat 64 (instantOf b e ((now b).toNat + 96)), mask := BitVec.ofNat 3 mask, tariff := BitVec.ofNat 4 tar }] }) b)
/-- Plan anew: what was planned no longer holds. An entry already on the ring then finds nothing planned and has no effect
(DESIGN CHOICE, log entry 13). -/
def replan (b : Block) : Block := planBoundary (updSlt (fun s => { s with planned := [] }) b)
/-- A boundary whose entry did not fire is applied by a new entry, at the first sample instant at least 96 ticks on at which the ring
can take one in time order, and its readings are late (R355). -/
def boundaryLost (t : U64) (b : Block) : Block :=
  match b.slt.planned.find? fun x => x.sent && x.time == t with
  | none => b
  | some x =>
    let n : Boundary := { x with late := true, time := BitVec.ofNat 64 (sampleAtOrAfter (max ((now b).toNat + 96) (ringLast b 512).toNat)) }
    enqueueBoundary n (updSlt (fun s => { s with planned := s.planned.map fun y => if y = x then n else y }) b)

/-! ### Signature engine (R405) -/

/-- Unit `u` may serve a request of class `c`. -/
def unitServes (u : Fin 4) (c : Fin 3) : Bool := if u.val = 0 then decide (c.val < 2) else true

/-- Give an idle unit the first request of the lowest class it serves: the unit accepts it now. -/
def engineTake (u : Fin 4) (b : Block) : Block :=
  if (vget b.key.units u).isSome then b
  else
    match (List.finRange 3).find? fun c => unitServes u c && !(vget b.key.queues c).isEmpty with
    | none => b
    | some c => { b with key := { b.key with
        units := vset b.key.units u ((vget b.key.queues c).head?.map fun j => { job := j.1, op := j.2, at_ := now b })
        queues := vupd b.key.queues c List.tail } }

/-- Serve what the free units can take. -/
def engineDispatch (b : Block) : Block := forAll (List.finRange 4) engineTake b

/-- Put a request of class `c` on the engine. -/
def engineSubmit (c : Fin 3) (j : EngineJob) (op : EngineOp) (b : Block) : Block :=
  engineDispatch { b with key := { b.key with queues := vupd b.key.queues c fun l => l ++ [(j, op)] } }
/-- Ticks from the acceptance of an operation to its published end (R64, R405). -/
def EngineOp.ticks : EngineOp → Nat
  | .p256 => 1500000
  | .p384 => 6000000

/-! ### Readings (R359 to R362) -/

/-- The 60 header bytes before the check value, the check value, and the entries. -/
def readingBody (b : Block) (r : Reading) : List U8 :=
  [1, r.kind, r.connector, BitVec.ofNat 8 r.entries.length] ++ b64 b.key.serial ++ b32 r.sequence ++ b32 r.session ++
    b64 r.stamp ++ b64 r.utc ++ b64 r.rtc ++ b64 r.utcNew ++ [r.tariff, r.endReason, r.flags, r.timeSrc] ++ b32 r.calendar ++
    beBytes 4 r.check.toNat ++ r.entries.flatMap fun e => b32 e.id ++ b64 e.value ++ [e.flags, 0, 0, 0]

/-- The whole reading. -/
def readingBytes (b : Block) (r : Reading) : List U8 := readingBody b r ++ padTo 64 r.signature

/-- The records that carry a reading (R362). -/
def readingRecords (b : Block) (r : Reading) : List (List U8) :=
  let l := readingBytes b r
  let cs := chunks 48 l
  (cs.zip (List.range cs.length)).map fun e =>
    mkRecord 0x0C10 56 0 (b32 r.sequence ++ [BitVec.ofNat 8 e.2, BitVec.ofNat 8 cs.length] ++ leBytes 2 l.length ++ padTo 48 e.1)

/-- What is particular to one reading. -/
structure ReadingSpec where
  kind : U8
  connector : U8 := 0xFF
  session : U32 := 0
  stamp : U64 := 0
  entries : List ReadingEntry := []
  endReason : U8 := 0
  utc : Option Nat := none
  utcNew : Nat := 0
  /-- flags besides unproven, range, no_time, replay and tamper: deferred 8, split 32, boundary_late 64 -/
  extra : U8 := 0

/-- Take a reading: its values and number are fixed (R362), and it waits for the signature engine. -/
def takeReading (x : ReadingSpec) (b : Block) : Block :=
  let fl := x.entries.foldl (fun a e => a ||| e.flags) 0
  let seq := b.slt.readingSeq + 1
  let src := timeSource b
  let r : Reading := {
    kind := x.kind, connector := x.connector, sequence := seq, session := x.session, stamp := x.stamp
    utc := BitVec.ofNat 64 (match x.utc with | some u => u | none => legalSecs b x.stamp)
    utcNew := BitVec.ofNat 64 x.utcNew, tariff := BitVec.ofNat 8 (tariffAt b x.stamp), endReason := x.endReason
    flags := (fl &&& 3) ||| x.extra ||| BitVec.ofNat 8 (packFields [(2, b2n (src == 0)), (4, b2n b.rpl.mode), (7, b2n b.slt.tamper)])
    timeSrc := BitVec.ofNat 8 src, calendar := BitVec.ofNat 32 (calN b.slt.calActive 4 4), check := b.slt.carrCheck, entries := x.entries }
  engineSubmit 0 (.reading seq) .p256 (updSlt (fun s => { s with readingSeq := seq, signing := s.signing ++ [r] }) b)

/-- Buffers the held readings take. -/
def heldCount (s : Saltern) : Nat := (s.held.map fun h => h.bufs.length).sum

/-- Follow the held buffers against the limits of R365: source 425 when 8,192 is reached. -/
def noteHeld (b : Block) : Block :=
  let n := heldCount b.slt
  if 8192 ≤ n ∧ !b.slt.heldLimit then irq 425 (updSlt (fun s => { s with heldLimit := true }) b)
  else if n < 7168 then updSlt (fun s => { s with heldLimit := false }) b
  else b

/-- Enqueue the buffers of held readings on the reading queue, oldest first, until one is refused (R365). -/
def flushHeldAux (q : Nat) : Nat → Block → Block
  | 0, b => b
  | f + 1, b =>
    match b.slt.held with
    | [] => b
    | h :: r => match h.bufs with
      | [] => flushHeldAux q f (updSlt (fun s => { s with held := r }) b)
      | u :: us => match qEnqueue agSaltern q u b with
        | (b, .ok _) => flushHeldAux q f (updSlt (fun s => { s with held := { h with started := true, bufs := us } :: r }) b)
        | (b, .error _) => updSlt (fun s => { s with heldTryAt := now b }) b

/-- Send what is held, while a queue is set. -/
def flushHeld (b : Block) : Block :=
  if b.slt.readingQueue = 0xFFFF then noteHeld b
  else noteHeld (flushHeldAux b.slt.readingQueue.toNat (heldCount b.slt + b.slt.held.length + 1) b)

/-- Insert a reading into the held ones by sequence, never before one already begun. -/
def insertHeld (x : HeldReading) : List HeldReading → List HeldReading
  | [] => [x]
  | h :: r => if h.started || decide (h.sequence.toNat < x.sequence.toNat) then h :: insertHeld x r else x :: h :: r

/-- Buffers for the parts of a reading, or none and nothing taken. -/
def allocParts : List (List U8) → List Nat → Block → Block × Option (List Nat)
  | [], us, b => (b, some us)
  | p :: ps, us, b => match qAlloc agSaltern none b with
    | (b, .ok u) => allocParts ps (us ++ [u]) (setBuf u p b)
    | (b, .error _) => (forAll us (fun u x => (qFree agSaltern u x).1) b, none)

/-- A reading is held unsigned (R362, R365): source 421. -/
def holdUnsigned (r : Reading) (b : Block) : Block :=
  irq 421 (updSlt (fun s => { s with unsigned_ := s.unsigned_ ++ [{ r with failures := 0, retryAt := none }] }) b)

/-- A signed reading is sent on the reading queue as its parts (R362), through the buffers Saltern holds (R365). -/
def sendReading (r : Reading) (b : Block) : Block :=
  match allocParts (readingRecords b r) [] b with
  | (b, some us) => flushHeld (updSlt (fun s => { s with held := insertHeld { sequence := r.sequence, bufs := us } s.held }) b)
  | (b, none) => holdUnsigned { r with signature := [], noBuffer := true } b

/-- Carr signs every reading held unsigned again (R362). -/
def signHeldAgain (b : Block) : Block :=
  forAll b.slt.unsigned_ (fun r x => engineSubmit 0 (.reading r.sequence) .p256 (updSlt (fun s => { s with signing := s.signing ++ [{ r with noBuffer := false }] }) x))
    (updSlt (fun s => { s with unsigned_ := [] }) b)

/-! ### Wallets and ledgers (R369 to R377) -/

/-- The record of wallet `w`. -/
def walletOf (b : Block) (w : Nat) : Wallet := sget {} b.bri.wallets w
/-- Replace it. -/
def setWallet (w : Nat) (x : Wallet) (b : Block) : Block := { b with bri := { b.bri with wallets := sput {} b.bri.wallets w x } }

/-- The 56 payload bytes of a home record (R369). -/
def walletBytes (x : Wallet) : List U8 :=
  b64 x.balance ++ b64 x.toppedUp ++ b64 x.refunded ++ b64 x.spent ++ b64 x.ledgerSeq ++ b32 x.lastSeq ++ [x.state] ++ zeros 11

/-- The bytes of a line as the store will hold them once the requests already raised are written. -/
def lineNow (b : Block) (line : Nat) : List U8 :=
  let pend := b.arb.reqs.toList.flatMap fun r => r.queue.flatMap fun q => (q.content.zip (List.range q.content.length)).map fun e => (q.first + e.2, e.1)
  match (pend.filter fun e => e.1 == line).getLast? with
  | some (_, l) => l
  | none => Memory.readN b.pea.lines (64 * line) 64

/-- The line's check value agrees (R320). -/
def lineValid (l : List U8) : Bool := natAt l 60 4 == (crc32c (l.take 60)).toNat

/-- Generation `x` is newer than `y`, where 0 follows 0xFFFF_FFFF (R320). -/
def newerGen (x y : Nat) : Bool := decide (0 < (x + 2 ^ 32 - y) % 2 ^ 32 ∧ (x + 2 ^ 32 - y) % 2 ^ 32 < 2 ^ 31)

/-- Write a twin-slot record of one line (R320): into the slot that does not hold the newest valid version, generation one
higher. -/
def twinWrite (r : Fin 6) (line : Nat) (payload : List U8) (act : StoreAct) (b : Block) : Block :=
  let x := lineNow b line
  let y := lineNow b (line + 1)
  let gx := natAt x 56 4
  let gy := natAt y 56 4
  let firstNewest := lineValid x && (!lineValid y || !newerGen gy gx)
  let gen := if firstNewest then gx + 1 else if lineValid y then gy + 1 else 0
  peatRequest r (if firstNewest then line + 1 else line) [sealLine (padTo 56 payload ++ leBytes 4 gen)] act b

/-- Write the home record of wallet `w` with the present ledger sequence (R323, R369). -/
def saveWalletAs (act : StoreAct) (w : Nat) (b : Block) : Block :=
  let x := { walletOf b w with ledgerSeq := b.bri.seq }
  twinWrite rqBrine (35328 + 2 * w) (walletBytes x) act (setWallet w x b)
/-- The same for a change that nothing awaits. -/
def saveWallet (w : Nat) (b : Block) : Block := saveWalletAs .lines w b

/-- Wallet `w` is UNPROVEN (R36): it accepts no debit until SLT_CLEAR_FLAGS, over resets too. -/
def unproveWallet (w : Nat) (b : Block) : Block := saveWallet w (setWallet w { walletOf b w with state := 3 } b)

/-- A ledger event (R377): the next ledger sequence and its SELF line. -/
def selfLineAs (act : StoreAct) (event : Nat) (conn : Option (Fin 16)) (w : Option Nat) (amount ledgerAfter : U64) (session msgSeq : U32) (b : Block) : Block :=
  let seq := b.bri.seq + 1
  let body := [BitVec.ofNat 8 event, (match conn with | some n => BitVec.ofNat 8 n.val | none => 0xFF)] ++
    (match w with | some w => leBytes 2 w | none => [0xFF, 0xFF]) ++ b64 amount ++
    b64 (match w with | some w => (walletOf b w).balance | none => 0) ++ b64 ledgerAfter ++ b32 session ++ b32 msgSeq ++ b64 b.bri.spent
  let line := sealLine ([5, 0, 0, 0] ++ b64 seq ++ padTo 44 body ++ [1, 1, 0, 0])
  peatRequest rqBrine (43520 + b.pea.ledgerHead % 4096) [line] act
    { b with bri := { b.bri with seq := seq }, pea := { b.pea with ledgerHead := (b.pea.ledgerHead + 1) % 4096 } }
/-- A ledger event that nothing awaits. -/
def selfLine (event : Nat) (conn : Option (Fin 16)) (w : Option Nat) (amount ledgerAfter : U64) (session msgSeq : U32) (b : Block) : Block :=
  selfLineAs .lines event conn w amount ledgerAfter session msgSeq b

/-- The difference that the check of R376 requires to be 0. -/
def creditDifference (b : Block) : Int :=
  ((b.bri.wallets.map fun e => e.2.balance.toNat).sum + (b.bri.ledgers.toList.map fun l => l.balance.toNat).sum + b.bri.spent.toNat : Nat) -
    ((b.bri.topup.toNat : Int) - b.bri.refund.toNat)

/-- A legal CONSERVATION entry (R522). -/
def conservationLog (kind : Nat) (diff : Int) (b : Block) : Block :=
  legalLog 0x0030 (if kind = 1 then wSaltern else wBrine) ([BitVec.ofNat 8 kind] ++ zeros 7 ++ leBytes 12 (BitVec.ofInt 96 diff).toNat) b

/-- A transfer, checked (R376): made when the balance holds afterwards, else rejected whole as a fatal error. -/
def transfer (f : Block → Block) (b : Block) : Block × Bool :=
  let x := f b
  let d := creditDifference x
  if d = 0 then ({ x with bri := { x.bri with balanced := true } }, true)
  else (raiseFatal 3 (conservationLog 2 d (irq 432 { b with bri := { b.bri with balanced := false } })), false)

/-- The session number that connector `n` shows. -/
def sessNo (b : Block) (n : Fin 16) : U32 := (legalOf b n).number

/-- Some connector holds an open reservation of wallet `w` (R372). -/
def walletBusy (b : Block) (w : Nat) : Bool := b.bri.ledgers.toList.any fun l => l.state != 0 && l.wallet.toNat == w

/-- A reservation for connector `n` from wallet `w` (R372); the status, 0 on success, and the amount. -/
def reserve (n : Fin 16) (w : Nat) (requested : U64) (b : Block) : Block × Nat × U64 :=
  let x := walletOf b w
  if x.state ≠ 1 then (b, 0x0D06, 0)
  else if walletBusy b w then (b, 0x0D08, 0)
  else
    let r : U64 := if requested = 0 ∨ x.balance.toNat < requested.toNat then x.balance else requested
    if r = 0 ∨ r.toNat < b.bri.minRes.toNat then (b, 0x0D09, 0)
    else
      let t := transfer (fun b => updLedger n (fun l => { wallet := BitVec.ofNat 12 w, state := 1, balance := r, reserved := r, hi := l.hi })
        (setWallet w { x with balance := x.balance - r } b)) b
      if t.2 then (selfLine 2 (some n) (some w) r r (sessNo b n) 0 t.1, 0, r) else (t.1, 9, 0)

/-- Brine returns the remaining balance at the end of a wallet session (R375); the ledger is returning until the home record is
written. The SELF line of the debits still pending in the epoch period goes first. -/
def returnLedger (n : Fin 16) (b : Block) : Block :=
  let l := ledgerOf b n
  if l.state = 0 ∨ l.state = 3 then b
  else
    let w := l.wallet.toNat
    let b := onlyIf (decide (l.epochDebit ≠ 0)) (selfLine 5 (some n) (some w) l.epochDebit l.balance (sessNo b n) 0) b
    let x := walletOf b w
    let t := transfer (fun b => updLedger n (fun l => { l with state := 3, balance := 0, returned := l.balance, epochDebit := 0 })
      (setWallet w { x with balance := x.balance + l.balance, spent := x.spent + l.debited } b)) b
    if t.2 then saveWalletAs (.ledger n) w (selfLine 3 (some n) (some w) l.balance 0 (sessNo b n) 0 t.1) else t.1

/-! ### Opening and closing a session's items -/

/-- Step 5 of R21: the session on connector `n` gets its number, its registers open at 0, and the SESSION_START reading is
taken (R19, R349, R361). -/
def openItems (n : Fin 16) (b : Block) : Block :=
  let num := b.slt.sessionNext
  let b := updSlt (fun s => { s with sessionNext := s.sessionNext + 1 }) b
  let a := vget b.auth n
  let b := updLegal n (fun c => { connTariffs := c.connTariffs, connRange := c.connRange, connUnproven := c.connUnproven
                                  number := num, token := padTo 16 a.token, mode := a.mode, eligible := c.eligible, started := true }) b
  let b := { b with sess := vupd b.sess n fun s => { s with number := num } }
  takeReading { kind := 1, connector := BitVec.ofNat 8 n.val, session := num, stamp := b.acc.applied
                entries := sessionHead b n ++ connTotals b n } b

/-- Step 10 of R21 (R375, R361): Brine returns the balance, and the SESSION_END reading is taken. Only a session with a number
has items. While a power-fail warning is handled this is deferred (R27, R330). -/
def closeItems (n : Fin 16) (reason : U8) (extra : U8) (b : Block) : Block :=
  let c := legalOf b n
  if c.number = 0 ∨ c.ended ∨ b.pf.active then b
  else
    let b := updLegal n (fun c => { c with ended := true }) (returnLedger n b)
    takeReading { kind := 2, connector := BitVec.ofNat 8 n.val, session := c.number, stamp := b.acc.applied, endReason := reason, extra := extra
                  entries := sessionHead b n ++ sessionEnergy b n ++ creditEntries b n ++ connTotals b n } b

/-- After the SESSION_END reading of a connector has been signed its items cease (R349). -/
def dropItems (n : Fin 16) (session : U32) (b : Block) : Block :=
  let c := legalOf b n
  if c.number = session ∧ c.ended then
    updLegal n (fun c => { connTariffs := c.connTariffs, connRange := c.connRange, connUnproven := c.connUnproven, eligible := c.eligible }) b
  else b

end Sys2Proof.Machine
end

