-- ==== Sys2Proof/Machine/Journal.lean ====
section
/-! DEFINITION. The LEGAL journal: the items of an epoch, its lines and its seal, and the commits of a power failure
(13_peat_store.md R321 to R323, R328 to R330; 14_billing.md R348, R377). -/

namespace Sys2Proof.Machine

/-- A journal item: identity, value, unproven and range flags (R321, R348). -/
structure Item where
  id : U32
  value : Acc
  unproven : Bool := false
  range : Bool := false
deriving DecidableEq, Repr

/-- The item of an energy register. -/
def regItem (id : U32) (r : Register) : Item := { id := id, value := r.acc, unproven := r.unproven, range := r.range }
/-- The items of the 16 tariff registers of a scope. -/
def tariffItems (scope index : Nat) (t : Vector TariffReg 16) (u r : Bool) : List Item :=
  (List.finRange 16).flatMap fun k =>
    [{ id := itemId scope index k.val 1, value := (vget t k).del, unproven := u, range := r },
     { id := itemId scope index k.val 2, value := (vget t k).rec_, unproven := u, range := r }]
/-- An item of a plain number. -/
def plainItem (id : U32) (v : Nat) : Item := { id := id, value := BitVec.ofNat 96 v }
/-- The items of the session open on connector `n`; without one only its number, 0. -/
def sessionItems (b : Block) (n : Fin 16) : List Item :=
  let c := legalOf b n
  let l := ledgerOf b n
  let i := fun (q : Nat) => itemId 5 n.val 0xFF q
  plainItem (i 0x20) c.number.toNat ::
    (if c.number = 0 then []
     else
      [{ id := i 1, value := c.del, unproven := c.unproven, range := c.range }, { id := i 2, value := c.rec_, unproven := c.unproven, range := c.range }] ++
      tariffItems 5 n.val c.tariffs c.unproven c.range ++
      [{ id := i 5, value := c.attImp, unproven := c.attUnproven, range := c.attRange }, { id := i 6, value := c.attExp, unproven := c.attUnproven, range := c.attRange },
       plainItem (i 0x10) l.reserved.toNat, plainItem (i 0x11) l.debited.toNat, plainItem (i 0x12) l.uncovered.toNat, plainItem (i 0x13) l.returned.toNat,
       plainItem (i 0x14) (costDue c), plainItem (i 0x15) (exportValue c), plainItem (i 0x30) (natAt c.token 0 8), plainItem (i 0x31) (natAt c.token 8 8)])
/-- The items of a node and its connector. -/
def connItems (b : Block) (n : Fin 16) : List Item :=
  let c := legalOf b n
  [regItem (itemId 1 n.val 0xFF 1) (vget b.acc.nodeDel n), regItem (itemId 1 n.val 0xFF 2) (vget b.acc.nodeRec n),
   { id := itemId 2 n.val 0xFF 1, value := delTotal c.connTariffs, unproven := c.connUnproven, range := c.connRange },
   { id := itemId 2 n.val 0xFF 2, value := recTotal c.connTariffs, unproven := c.connUnproven, range := c.connRange }] ++
    tariffItems 2 n.val c.connTariffs c.connUnproven c.connRange ++ sessionItems b n
/-- The items of the hub, the feeders and Carr. -/
def hubItems (b : Block) : List Item :=
  let a := b.acc
  [regItem (itemId 3 0 0xFF 1) a.hubDel, regItem (itemId 3 0 0xFF 2) a.hubRec, regItem (itemId 3 0 0xFF 7) a.unattImp, regItem (itemId 3 0 0xFF 8) a.unattExp] ++
    tariffItems 3 0 b.slt.hubTariffs (a.hubDel.unproven || a.hubRec.unproven) (a.hubDel.range || a.hubRec.range) ++
    (List.finRange 2).flatMap (fun f => [regItem (itemId 4 f.val 0xFF 3) (vget a.fdrImp f), regItem (itemId 4 f.val 0xFF 4) (vget a.fdrExp f)]) ++
    [plainItem (itemId 0xF 0 0xFF 0x21) b.slt.sessionNext.toNat, plainItem (itemId 0xF 0 0xFF 0x22) b.slt.readingSeq.toNat,
     plainItem (itemId 0xF 0 0xFF 0x23) b.bri.seq.toNat, plainItem (itemId 0xF 0 0xFF 0x24) (if b.slt.calActive = [] then 0 else calN b.slt.calActive 4 4)]
/-- Every item of R348. -/
def allItems (b : Block) : List Item := hubItems b ++ (List.finRange 16).flatMap (connItems b)
/-- The items that changed since the previous epoch (R323). -/
def changedItems (b : Block) : List Item :=
  (allItems b).filter fun i => !(b.pea.lastItems.any fun e => e.1 == i.id && e.2 == i.value)

/-- The bytes of an item (R321). -/
def itemBytes (i : Item) : List U8 := b32 i.id ++ leBytes 12 i.value.toNat
/-- Cut items into groups of three. -/
def triples : Nat → List Item → List (List Item)
  | 0, _ => []
  | f + 1, l => if l = [] then [] else l.take 3 :: triples f (l.drop 3)
/-- One journal line (R321): type, count, index, epoch, 48 bytes of body. -/
def journalLine (type count index : Nat) (epoch : U32) (body : List U8) : List U8 :=
  sealLine ([BitVec.ofNat 8 type, BitVec.ofNat 8 count] ++ leBytes 2 index ++ b32 epoch ++ padTo 48 body ++ [0, 1, 0, 0])
/-- The lines of an epoch before its seal: the opening line of its kind, then its items; one ITEMS line at least. -/
def epochBody (kind : Nat) (epoch : U32) (items : List Item) : List (List U8) :=
  let lead := if kind = 1 then [4] else if kind = 2 then [3] else []
  let groups := triples (items.length + 1) items
  let groups := if groups = [] ∧ lead = [] then [[]] else groups
  let plan : List (Nat × List Item) := lead.map (fun t => (t, [])) ++ groups.map fun g => (1, g)
  (plan.zip (List.range plan.length)).map fun e => journalLine e.1.1 e.1.2.length e.2 epoch (e.1.2.flatMap itemBytes)
/-- The seal of an epoch (R322). -/
def sealOf (kind : Nat) (epoch : U32) (stamp rtc : U64) (items : List Item) (lines : List (List U8)) (prev : U32) : List U8 :=
  let flags := b2n (items.any (·.unproven)) + 2 * b2n (items.any (·.range))
  journalLine 2 0 lines.length epoch
    (b64 stamp ++ b64 rtc ++ leBytes 2 lines.length ++ [BitVec.ofNat 8 kind, BitVec.ofNat 8 flags] ++
      b32 (crc32c (lines.flatMap fun l => l.take 60)) ++ b32 prev)
/-- Write lines at the head of the journal ring, 32,768 lines from line 64. -/
def journalWrite (ls : List (List U8)) (act : StoreAct) (b : Block) : Block :=
  let h := b.pea.head
  let b' : Block := { b with pea := { b.pea with head := (h + ls.length) % 32768 } }
  if h + ls.length ≤ 32768 then peatWrite rqCarr (64 + h) ls act b'
  else peatWrite rqCarr 64 (ls.drop (32768 - h)) act (peatWrite rqCarr (64 + h) (ls.take (32768 - h)) .lines b')
/-- Carr writes an epoch of a kind with a stamp (R322, R323): a checkpoint holds every item, any other epoch the items that
changed. -/
def writeEpoch (kind : Nat) (stamp : U64) (b : Block) : Block :=
  let epoch := b.pea.planned + 1
  let every := allItems b
  let items := if kind = 1 then every else changedItems b
  let body := epochBody kind epoch items
  let last := sealOf kind epoch stamp b.backup.rtc items body b.pea.prevSeal
  journalWrite (body ++ [last]) (.seal kind epoch stamp)
    { b with pea := { b.pea with
      planned := epoch, prevSeal := BitVec.ofNat 32 (natAt last 60 4), lastItems := every.map fun i => (i.id, i.value) } }

/-- Brine's SELF lines of the debits that no line covers yet (R323, R377). -/
def debitLines (b : Block) : Block :=
  forAll (List.finRange 16) (fun n b =>
    let l := ledgerOf b n
    if l.epochDebit = 0 then b
    else
      updLedger n (fun l => { l with epochDebit := 0 })
        (selfLine 5 (some n) (some l.wallet.toNat) l.epochDebit l.balance (sessNo b n) 0 b)) b

/-- The power-fail commit (R328), kind 2: Brine's pending lines and the changed items, stamped with the cut instant. -/
def powerFailCommit (c : U64) (b : Block) : Block :=
  if b.rst.carr then writeEpoch 2 c (debitLines { b with pf := { b.pf with cut := none, begun := true } })
  else { b with pf := { b.pf with cut := none } }
/-- Brine has published the increments of instant `t`: the state of a cut instant at or before it is complete. -/
def cutComplete (t : U64) (b : Block) : Block :=
  match b.pf.cut with
  | some c => if c.toNat ≤ t.toNat then powerFailCommit c b else b
  | none => b
/-- The trailing commit at an allocation boundary (R329), kind 3: at most 16 for each warning. -/
def trailingCommit (b : Block) : Block :=
  let p := b.pf
  if p.active ∧ p.begun ∧ !p.quiescent ∧ !p.overdue ∧ p.trailing.toNat < 16 ∧ b.rst.carr then
    writeEpoch 3 b.acc.applied (debitLines { b with pf := { b.pf with trailing := p.trailing + 1 } })
  else b
/-- The shutdown epoch (R323, R495), kind 5: once every session has ended and every reading is signed. -/
def shutdownDue (b : Block) : Block :=
  match b.rst.pending with
  | none => b
  | some p =>
    if p.started ∧ !p.sealed ∧ b.rst.carr ∧ b.slt.signing = [] ∧ (List.finRange 16).all (fun n => !(vget b.sess n).phase.isOpen) then
      writeEpoch 5 b.acc.applied (debitLines { b with rst := { b.rst with pending := some { p with sealed := true } } })
    else b
/-- The quiescent commit (R329, R330), kind 4. -/
def quiescentCommit (b : Block) : Block :=
  if b.pf.quiescent ∨ !b.rst.carr then b
  else writeEpoch 4 b.acc.applied (debitLines { b with pf := { b.pf with quiescent := true } })

end Sys2Proof.Machine
end

