-- ==== Sys2Proof/Machine/Flags.lean ====
section
/-! DEFINITION. IEEE 754-2019 arithmetic in binary32 and binary64 as R99 fixes it, with the exception flags of R100 and the
conversion to fixed point of R101. -/

namespace Sys2Proof.Machine

/-- A binary format: precision in bits, exponent width. -/
structure FpFormat where
  p : Nat
  w : Nat

/-- binary32. -/
def f32 : FpFormat := ⟨24, 8⟩
/-- binary64. -/
def f64 : FpFormat := ⟨53, 11⟩

/-- Exponent of the lowest bit of a subnormal: -149 for binary32. -/
def FpFormat.qmin (f : FpFormat) : Int := 2 - (2 : Int) ^ (f.w - 1) - ((f.p : Int) - 1)
/-- The bits of infinity. -/
def FpFormat.infBits (f : FpFormat) : Nat := (2 ^ f.w - 1) * 2 ^ (f.p - 1)
/-- The weight of the sign bit. -/
def FpFormat.signBit (f : FpFormat) : Nat := 2 ^ (f.w + f.p - 1)
/-- The quiet NaN of every NaN result (R99). -/
def FpFormat.nan (f : FpFormat) : Nat := f.infBits + 2 ^ (f.p - 2)

/-- An operand: a NaN, an infinity, or a finite number of sign, magnitude and exponent. -/
inductive FpVal where
  | nan (signaling : Bool)
  | inf (neg : Bool)
  | fin (neg : Bool) (m : Nat) (e : Int)
deriving DecidableEq, Repr

/-- Decode bits. -/
def fpVal (f : FpFormat) (bits : Nat) : FpVal :=
  let neg := bits / f.signBit % 2 == 1
  let x := bits % f.signBit
  let ex := x / 2 ^ (f.p - 1)
  let fr := x % 2 ^ (f.p - 1)
  if x > f.infBits then .nan (fr < 2 ^ (f.p - 2))
  else if x = f.infBits then .inf neg
  else if ex = 0 then .fin neg fr f.qmin
  else .fin neg (fr + 2 ^ (f.p - 1)) (f.qmin + (ex - 1 : Nat))

/-- A result and the flags it raises. -/
abbrev FpRes := Nat × FpFlags

/-- The union of two sets of flags. -/
def FpFlags.or (a b : FpFlags) : FpFlags :=
  { nx := a.nx || b.nx, uf := a.uf || b.uf, of := a.of || b.of, dz := a.dz || b.dz, nv := a.nv || b.nv, sat := a.sat || b.sat }

/-- The invalid operation's result. -/
def fpInvalid (f : FpFormat) : FpRes := (f.nan, { nv := true })

/-- Sign bits. -/
def fpSign (f : FpFormat) (neg : Bool) : Nat := if neg then f.signBit else 0

/-- Bit length of a number. -/
def bitLen (n : Nat) : Nat := if n = 0 then 0 else Nat.log2 n + 1

/-- `m · 2^e` over `2^q`, to nearest, ties to even, and whether it is exact. -/
def roundAt (m : Nat) (e q : Int) : Nat × Bool :=
  if q ≤ e then (m * 2 ^ (e - q).toNat, true)
  else
    let k := (q - e).toNat
    let r := m / 2 ^ k
    let d := m % 2 ^ k
    let h := 2 ^ (k - 1)
    (if h < d ∨ (d = h ∧ r % 2 = 1) then r + 1 else r, d == 0)

/-- Round a finite value to the format (R99): nearest even, subnormals kept, tininess detected after rounding. -/
def fpRound (f : FpFormat) (neg : Bool) (m : Nat) (e : Int) : FpRes :=
  if m = 0 then (fpSign f neg, {})
  else
    let q := e + bitLen m - f.p
    let l := max q f.qmin
    let r := roundAt m e l
    let bits := (l - f.qmin).toNat * 2 ^ (f.p - 1) + r.1
    if f.infBits ≤ bits then (fpSign f neg + f.infBits, { of := true, nx := true })
    else
      let u := roundAt m e q
      let tiny := decide (q < f.qmin) && decide ((u.1 : Int) < 2 ^ (f.qmin - q + f.p - 1).toNat)
      (fpSign f neg + bits, { nx := !r.2, uf := tiny && !r.2 })

/-- A NaN result from operands of which one is a NaN (R99). -/
def fpNan (f : FpFormat) (l : List FpVal) : FpRes :=
  (f.nan, { nv := l.any fun v => match v with | .nan s => s | _ => false })

/-- A value is a NaN. -/
def FpVal.isNan : FpVal → Bool
  | .nan _ => true
  | _ => false

/-- The signed magnitude of `m · 2^e` over `2^q`, `q ≤ e`. -/
def alignTo (neg : Bool) (m : Nat) (e q : Int) : Int :=
  let x : Int := m * 2 ^ (e - q).toNat
  if neg then -x else x

/-- The rounded sum of two exact finite values; an exact zero sum of opposite operands is +0. -/
def sumExact (f : FpFormat) (n1 : Bool) (m1 : Nat) (e1 : Int) (n2 : Bool) (m2 : Nat) (e2 : Int) : FpRes :=
  let q := min e1 e2
  let s := alignTo n1 m1 e1 q + alignTo n2 m2 e2 q
  if s = 0 then (fpSign f (n1 && n2), {})
  else fpRound f (decide (s < 0)) s.natAbs q

/-- Addition. -/
def fpAdd (f : FpFormat) (a b : Nat) : FpRes :=
  match fpVal f a, fpVal f b with
  | .inf n1, .inf n2 => if n1 = n2 then (fpSign f n1 + f.infBits, {}) else fpInvalid f
  | .inf n1, .fin _ _ _ => (fpSign f n1 + f.infBits, {})
  | .fin _ _ _, .inf n2 => (fpSign f n2 + f.infBits, {})
  | .fin n1 m1 e1, .fin n2 m2 e2 => sumExact f n1 m1 e1 n2 m2 e2
  | x, y => fpNan f [x, y]

/-- The bits with the sign turned. -/
def fpNeg (f : FpFormat) (a : Nat) : Nat := if a / f.signBit % 2 = 1 then a - f.signBit else a + f.signBit
/-- The magnitude. -/
def fpAbs (f : FpFormat) (a : Nat) : Nat := a % f.signBit
/-- Subtraction. -/
def fpSub (f : FpFormat) (a b : Nat) : FpRes := fpAdd f a (fpNeg f b)

/-- Multiplication. -/
def fpMul (f : FpFormat) (a b : Nat) : FpRes :=
  match fpVal f a, fpVal f b with
  | .inf n1, .inf n2 => (fpSign f (n1 != n2) + f.infBits, {})
  | .inf n1, .fin n2 m2 _ => if m2 = 0 then fpInvalid f else (fpSign f (n1 != n2) + f.infBits, {})
  | .fin n1 m1 _, .inf n2 => if m1 = 0 then fpInvalid f else (fpSign f (n1 != n2) + f.infBits, {})
  | .fin n1 m1 e1, .fin n2 m2 e2 => fpRound f (n1 != n2) (m1 * m2) (e1 + e2)
  | x, y => fpNan f [x, y]

/-- The third operand joins an exact finite product. -/
def fmaFinish (f : FpFormat) (np : Bool) (mp : Nat) (ep : Int) (c : FpVal) : FpRes :=
  match c with
  | .nan _ => fpNan f [c]
  | .inf n => (fpSign f n + f.infBits, {})
  | .fin n m e => sumExact f np mp ep n m e

/-- The third operand joins an infinite product. -/
def fmaInf (f : FpFormat) (np : Bool) (c : FpVal) : FpRes :=
  match c with
  | .nan _ => fpNan f [c]
  | .inf n => if n = np then (fpSign f np + f.infBits, {}) else fpInvalid f
  | .fin _ _ _ => (fpSign f np + f.infBits, {})

/-- An infinity times zero: invalid; with a quiet NaN as third operand IEEE 754 leaves the flag open, and so does the spec (a
free value, log entry 14). -/
def fmaInvalid (f : FpFormat) (c : FpVal) : FpRes :=
  match c with
  | .nan false => (f.nan, { nv := Config.fmaInvalidNan })
  | _ => fpInvalid f

/-- Fused multiply-add: one rounding of a × b + c. -/
def fpFma (f : FpFormat) (a b c : Nat) : FpRes :=
  let z := fpVal f c
  match fpVal f a, fpVal f b with
  | .inf n1, .inf n2 => fmaInf f (n1 != n2) z
  | .inf n1, .fin n2 m2 _ => if m2 = 0 then fmaInvalid f z else fmaInf f (n1 != n2) z
  | .fin n1 m1 _, .inf n2 => if m1 = 0 then fmaInvalid f z else fmaInf f (n1 != n2) z
  | .fin n1 m1 e1, .fin n2 m2 e2 => fmaFinish f (n1 != n2) (m1 * m2) (e1 + e2) z
  | x, y => fpNan f [x, y, z]

/-- Division. -/
def fpDiv (f : FpFormat) (a b : Nat) : FpRes :=
  match fpVal f a, fpVal f b with
  | .inf _, .inf _ => fpInvalid f
  | .inf n1, .fin n2 _ _ => (fpSign f (n1 != n2) + f.infBits, {})
  | .fin n1 _ _, .inf n2 => (fpSign f (n1 != n2), {})
  | .fin n1 m1 e1, .fin n2 m2 e2 =>
    if m2 = 0 then (if m1 = 0 then fpInvalid f else (fpSign f (n1 != n2) + f.infBits, { dz := true }))
    else
      let k := 2 * f.p + 2
      let q := m1 * 2 ^ k / m2
      let r := m1 * 2 ^ k % m2
      fpRound f (n1 != n2) (2 * q + (if r = 0 then 0 else 1)) (e1 - e2 - k - 1)
  | x, y => fpNan f [x, y]

/-- Integer square root by bits, from bit `k` downward. -/
def sqrtBits (n : Nat) : Nat → Nat → Nat
  | 0, a => a
  | k + 1, a => let t := a + 2 ^ k; sqrtBits n k (if t * t ≤ n then t else a)

/-- Integer square root. -/
def isqrt (n : Nat) : Nat := sqrtBits n (bitLen n / 2 + 1) 0

/-- Square root. -/
def fpSqrt (f : FpFormat) (a : Nat) : FpRes :=
  match fpVal f a with
  | .nan s => fpNan f [.nan s]
  | .inf n => if n then fpInvalid f else (f.infBits, {})
  | .fin n m e =>
    if m = 0 then (fpSign f n, {})
    else if n then fpInvalid f
    else
      let k := 2 * f.p + 4
      let x := if (e - k) % 2 = 0 then m * 2 ^ k else m * 2 ^ (k + 1)
      let e' := if (e - k) % 2 = 0 then e - k else e - k - 1
      let s := isqrt x
      fpRound f false (2 * s + (if s * s = x then 0 else 1)) (e' / 2 - 1)

/-- Order of two finite values: -1, 0 or 1. -/
def cmpExact (n1 : Bool) (m1 : Nat) (e1 : Int) (n2 : Bool) (m2 : Nat) (e2 : Int) : Int :=
  let q := min e1 e2
  let d := alignTo n1 m1 e1 q - alignTo n2 m2 e2 q
  if d < 0 then -1 else if d = 0 then 0 else 1

/-- a < b on values that are no NaN; false with one. -/
def fpLt (f : FpFormat) (a b : Nat) : Bool :=
  match fpVal f a, fpVal f b with
  | .inf n1, .inf n2 => n1 && !n2
  | .inf n1, .fin _ _ _ => n1
  | .fin _ _ _, .inf n2 => !n2
  | .fin n1 m1 e1, .fin n2 m2 e2 => cmpExact n1 m1 e1 n2 m2 e2 == -1
  | _, _ => false

/-- a ≤ b on values that are no NaN; false with one. -/
def fpLe (f : FpFormat) (a b : Nat) : Bool :=
  !(fpVal f a).isNan && !(fpVal f b).isNan && !fpLt f b a

/-- An integer in the format. -/
def fpOfInt (f : FpFormat) (x : Int) : FpRes := fpRound f (decide (x < 0)) x.natAbs 0

/-- A binary32 value in binary64, exact. -/
def fpWiden (a : Nat) : FpRes :=
  match fpVal f32 a with
  | .nan s => fpNan f64 [.nan s]
  | .inf n => (fpSign f64 n + f64.infBits, {})
  | .fin n m e => fpRound f64 n m e

/-- Conversion of an energy in Wh to 2^-32 Wh in 96 bits (R101). -/
def fpToFixed (a : Nat) : Acc × FpFlags :=
  let top : Acc := BitVec.ofNat 96 (2 ^ 95 - 1)
  let bot : Acc := BitVec.ofNat 96 (2 ^ 95)
  match fpVal f32 a with
  | .nan _ => (0, { nv := true })
  | .inf n => (if n then bot else top, { nv := true, sat := true })
  | .fin n m e =>
    let r := roundAt m (e + 32) 0
    let v : Int := if n then -(r.1 : Int) else r.1
    if (2 : Int) ^ 95 ≤ v then (top, { nv := true, sat := true })
    else if v < -((2 : Int) ^ 95) then (bot, { nv := true, sat := true })
    else (BitVec.ofInt 96 v, { nx := !r.2 })

/-! ### Words -/

/-- A binary32 word from a result. -/
def w32 (r : FpRes) : U32 := BitVec.ofNat 32 r.1

/-- Sum of two binary32 words, flags dropped. -/
def addF (a b : U32) : U32 := w32 (fpAdd f32 a.toNat b.toNat)
/-- Difference. -/
def subF (a b : U32) : U32 := w32 (fpSub f32 a.toNat b.toNat)
/-- Product. -/
def mulF (a b : U32) : U32 := w32 (fpMul f32 a.toNat b.toNat)
/-- Magnitude. -/
def absF (a : U32) : U32 := BitVec.ofNat 32 (fpAbs f32 a.toNat)
/-- a < b. -/
def ltF (a b : U32) : Bool := fpLt f32 a.toNat b.toNat
/-- a ≤ b. -/
def leF (a b : U32) : Bool := fpLe f32 a.toNat b.toNat

/-- `floor(x · k)` of a finite binary32 value, 0 for a NaN and ± 2^140 for an infinity. -/
def scaleFloor (a : U32) (k : Nat) : Int :=
  match fpVal f32 a.toNat with
  | .nan _ => 0
  | .inf n => if n then -(2 ^ 140) else 2 ^ 140
  | .fin n m e =>
    let x : Int := if n then -((m * k : Nat) : Int) else ((m * k : Nat) : Int)
    if 0 ≤ e then x * 2 ^ e.toNat else x / 2 ^ (-e).toNat

/-- `x · k` of a finite binary32 value rounded to the nearest integer, ties to even. -/
def scaleRound (a : U32) (k : Nat) : Int :=
  match fpVal f32 a.toNat with
  | .nan _ => 0
  | .inf n => if n then -(2 ^ 140) else 2 ^ 140
  | .fin n m e =>
    let r := (roundAt (m * k) e 0).1
    if n then -(r : Int) else r

/-- The value times `2^149` exactly, for comparisons with integers: an integer for every finite binary32 value. -/
def exactF (a : U32) : Int :=
  match fpVal f32 a.toNat with
  | .nan _ => 0
  | .inf n => if n then -(2 ^ 400) else 2 ^ 400
  | .fin n m e => let x : Int := ((m * 2 ^ (e + 149).toNat : Nat) : Int); if n then -x else x

/-- `num / den` on the scale of `exactF`, multiplied out: compare `exactF a * den` with this. -/
def exactOf (num : Int) : Int := num * 2 ^ 149

/-- The binary32 magnitude is at most `num / den`. -/
def absLe (a : U32) (num den : Nat) : Bool := decide (((exactF a).natAbs : Int) * den ≤ exactOf num)
/-- The binary32 value is below `num / den`. -/
def below (a : U32) (num den : Nat) : Bool := decide (exactF a * den < exactOf num)
/-- The binary32 value is at least `num / den`. -/
def atLeast (a : U32) (num den : Nat) : Bool := decide (exactOf num ≤ exactF a * den)

end Sys2Proof.Machine
end

