-- ==== Sys2Proof/Machine/Insulate.lean ====
section
/-! DEFINITION. What other units do to the insulation monitor (10_insulation_earth.md R238 to R240, R247, R248): insulation
time, the DRIVE entries Sedge keeps enqueued, and the events that restart a baseline. -/

namespace Sys2Proof.Machine

/-- The insulation monitor of node `n`. -/
def imdOf (b : Block) (n : Fin 16) : ImdNode := vget b.imd n
/-- Change it. -/
def updImd (n : Fin 16) (f : ImdNode → ImdNode) (b : Block) : Block := { b with imd := vupd b.imd n f }
/-- Change the settings and counts of insulation. -/
def updImdG (f : ImdGlobal → ImdGlobal) (b : Block) : Block := { b with imdG := f b.imdG }

/-- The phases in which the pair may be closed (R23). -/
def Phase.mayClose : Phase → Bool
  | .cableCheck | .precharge | .charging | .stopping => true
  | _ => false

/-- Node `n` is active (R240). -/
def imdActive (b : Block) (n : Fin 16) : Bool :=
  (b.slu.modules.toList.any fun m => m.node == some n) || (vget b.sess n).phase.mayClose || (imdOf b n).force

/-! ### Insulation time (R238) -/

/-- Length of a cycle for a period code. -/
def cycleLen (p : Nat) : Nat := 750000000 * 2 ^ p
/-- Length of an injection. -/
def injLen (p : Nat) : Nat := 37500000 * 2 ^ p
/-- Length of the offset window. -/
def offLen (p : Nat) : Nat := 3000000 * 2 ^ p
/-- The period code in force at instant `t` (R258). -/
def periodAt (g : ImdGlobal) (t : Nat) : Nat :=
  match g.pendingPeriod with
  | some (q, s) => if s.toNat ≤ t then q.toNat else g.period.toNat
  | none => g.period.toNat
/-- The first slot of node `n` that starts after `x`, under period code `p`. -/
def slotAfter (p x : Nat) (n : Fin 16) : Nat :=
  let L := cycleLen p
  let o := n.val * (L / 16)
  if x < o then o else o + (x - o) / L * L + L
/-- The first slot of node `n` that starts after `x`, with the period in force at its start. -/
def nextSlot (g : ImdGlobal) (x : Nat) (n : Fin 16) : Nat :=
  let t := slotAfter g.period.toNat x n
  match g.pendingPeriod with
  | some (q, s) => if s.toNat ≤ t then slotAfter q.toNat (max x (s.toNat - 1)) n else t
  | none => t
/-- The polarity of the cycle that holds the slot start `t`, true for +1. -/
def polarity (p t : Nat) : Bool := t / cycleLen p / 2 % 2 == 0

/-- Each node's time of activity is noted as it begins and ends (R250). -/
def noteActive (b : Block) : Block :=
  { b with imd := vmapIdx b.imd fun n x => { x with activeFrom := if imdActive b n then (match x.activeFrom with | some t => some t | none => some (now b)) else none } }
/-- The earliest of the next slots of the active nodes. -/
def earliestSlot (b : Block) (x : Nat) : Option (Fin 16 × Nat) :=
  (List.finRange 16).foldl (fun a n =>
    if imdActive b n then
      let t := nextSlot b.imdG x n
      match a with
      | some (_, t') => if t < t' then some (n, t) else a
      | none => some (n, t)
    else a) none

/-- Enqueue the DRIVE entry of one slot on ring 160 (R239). -/
def driveEntry (n : Fin 16) (t : Nat) (b : Block) : Block :=
  let p := periodAt b.imdG t
  let r := submitEntry agSedge 160 (mkEntry tgInject n.val 1 ([if polarity p t then 1 else 2, BitVec.ofNat 8 p] ++ zeros 30) (BitVec.ofNat 64 t)) b
  updImdG (fun g => { g with fed := BitVec.ofNat 64 t })
    (onlyIf r.2 (updImd n fun x => { x with slots := x.slots ++ [{ start := BitVec.ofNat 64 t }] }) r.1)

/-- Enqueue slot after slot up to instant `h`. -/
def driveAux (h : Nat) : Nat → Block → Block
  | 0, b => b
  | f + 1, b => match earliestSlot b (max b.imdG.fed.toNat ((now b).toNat + 192)) with
    | none => b
    | some (n, t) => if t ≤ h then driveAux h f (driveEntry n t b) else b

/-- Sedge keeps the entries of the next 8 cycles enqueued (R240). Ring 160 is in time order (R49), so a node that becomes
active is driven from the first slot after those already enqueued (DEDUCED, log entry 19). -/
def driveFeed (b : Block) : Block :=
  let b := noteActive b
  if b.rst.sedge && b.tide.ready then driveAux ((now b).toNat + 8 * cycleLen b.imdG.period.toNat) 129 b else b

/-! ### Events that restart a baseline (R248) -/

/-- The baseline of node `n` restarts at its next slot after `t`; the slots collected are discarded. -/
def rebaseAt (t : U64) (n : Fin 16) (b : Block) : Block :=
  updImd n (fun x => { x with
    baselining := true, blAt := t, blSlots := [], restarts := satInc x.restarts
    blFrom := if x.baselining then x.blFrom else t
    blLate := x.blLate && x.baselining }) b
/-- It restarts at the next slot after now. -/
def rebase (n : Fin 16) (b : Block) : Block := rebaseAt (now b) n b

/-- A topology notice of Sluice (R158): a module joined or left node `n`. -/
def imdTopology (n : Fin 16) (joined : Bool) (b : Block) : Block :=
  let c := b.imdG.cMod.toNat
  driveFeed (rebase n (updImd n (fun x => { x with
    measured := false, cN := if joined then satAdd x.cN c else BitVec.ofNat 16 (x.cN.toNat - c) }) b))

/-- Entry into CABLE_CHECK, or the pair of node `n` confirmed closed: each adds c_conn. What was measured before the first of the two is
kept for the opening (log entry 20). -/
def imdClose (n : Fin 16) (b : Block) : Block :=
  let add := b.imdG.cConn.toNat * 10
  rebase n (updImd n (fun x => { x with
    cBefore := if x.connAdded then x.cBefore else if x.measured then some x.cN else none
    cN := satAdd x.cN add, measured := false, connAdded := true }) b)

/-- The pair of node `n` is confirmed open: the provisional value is the one measured before the close; with none it stays. -/
def imdOpen (n : Fin 16) (b : Block) : Block :=
  rebase n (updImd n (fun x => { x with
    cN := match x.cBefore with | some c => c | none => x.cN
    measured := x.measured && x.cBefore.isNone, cBefore := none, connAdded := false }) b)

/-- Entry into CABLE_CHECK (R247): U_test from the vehicle's maximum voltage, at most 1,000 V, and a baseline. -/
def imdCableCheck (n : Fin 16) (b : Block) : Block :=
  let u : U16 := BitVec.ofNat 16 (min 1000 ((vget b.v2g n).maxV.toNat / 10))
  driveFeed (imdClose n (updImd n (fun x => { x with uTest := u, cableCheck := 1, checkFrom := now b, uRun := 0, uAt := none }) b))

/-- The session on node `n` leaves the phases in which its pair may be closed: U_test ends with it, and a cable check that still runs; the
result of one that ended stays. -/
def imdSessionEnds (n : Fin 16) (b : Block) : Block :=
  noteActive (updImd n (fun x => { x with uTest := 0, cableCheck := if x.cableCheck = 1 then 0 else x.cableCheck, uAt := none, uRun := 0 }) b)

/-- A selector or contactor change of node `n` that began at `t` has ended (R249). -/
def imdDisturb (n : Fin 16) (t : U64) (b : Block) : Block := updImd n (fun x => { x with disturb := x.disturb ++ [(t, now b)] }) b

end Sys2Proof.Machine
end

