-- ==== Sys2Proof/Machine/Sessions.lean ====
section
/-! DEFINITION. Sessions and their protection: phases and stop causes (01_architecture.md R18 to R29), the output contactor
pairs, lock-outs and fault containment (11_safety.md R259 to R283), the supply channels (12_load_switches.md R300), and the
moves of the cable locks (08_pilot.md R207, R208). -/

namespace Sys2Proof.Machine

/-- The node of a connector with the same number. -/
def nodeOf (b : Block) (n : Fin 16) : SafNode := vget b.saf.nodes n
/-- Change the contactor state of node `n`. -/
def updNode (n : Fin 16) (f : SafNode → SafNode) (b : Block) : Block := { b with saf := { b.saf with nodes := vupd b.saf.nodes n f } }
/-- Change the safety island. -/
def updSaf (f : Safety → Safety) (b : Block) : Block := { b with saf := f b.saf }
/-- Change the safety island's second part. -/
def updSafX (f : SafetyX → SafetyX) (b : Block) : Block := { b with safX := f b.safX }
/-- The session of connector `n`. -/
def sessOf (b : Block) (n : Fin 16) : Session := vget b.sess n
/-- Change it. -/
def updSess (n : Fin 16) (f : Session → Session) (b : Block) : Block := { b with sess := vupd b.sess n f }
/-- The low-side channel of node `n`. -/
def lsOf (b : Block) (n : Fin 16) : LsChan := vget b.lsw.ls n
/-- Change it. -/
def updLs (n : Fin 16) (f : LsChan → LsChan) (b : Block) : Block := { b with lsw := { b.lsw with ls := vupd b.lsw.ls n f } }
/-- High-side channel `c`. -/
def hsOf (b : Block) (c : Fin 40) : HsChan := vget b.lsw.hs c
/-- Change it. -/
def updHs (c : Fin 40) (f : HsChan → HsChan) (b : Block) : Block := { b with lsw := { b.lsw with hs := vupd b.lsw.hs c f } }
/-- The pilot state of connector `n`. -/
def vehOf (b : Block) (n : Fin 16) : Connector := vget b.veh n
/-- Change it. -/
def updVeh (n : Fin 16) (f : Connector → Connector) (b : Block) : Block := { b with veh := vupd b.veh n f }

/-- The lane of a node (R281). -/
def laneOf (n : Fin 16) : Fin 8 := ⟨n.val / 2, by omega⟩
/-- The other node of the lane. -/
def otherNode (n : Fin 16) : Fin 16 := ⟨if n.val % 2 = 0 then n.val + 1 else n.val - 1, by split <;> omega⟩
/-- The two nodes of a lane. -/
def laneNodes (l : Fin 8) : List (Fin 16) := [⟨2 * l.val, by omega⟩, ⟨2 * l.val + 1, by omega⟩]
/-- The 16 nodes. -/
def allNodes : List (Fin 16) := List.finRange 16
/-- The lane of a module (R164). -/
def modLane (m : Fin 96) : Fin 8 := ⟨m.val / 12, by omega⟩

/-- The voltage channel of node `n`. -/
def voltChan (n : Fin 16) : Fin 48 := ⟨2 * n.val, by omega⟩
/-- The current channel of node `n`. -/
def currChan (n : Fin 16) : Fin 48 := ⟨2 * n.val + 1, by omega⟩
/-- A metrology channel. -/
def chanOf (b : Block) (c : Fin 48) : Chan := vget b.met.chans c

/-! ### Lock-outs and phases -/

/-- A lock-out covers node `n` (R278). -/
def lockedOut (b : Block) (n : Fin 16) : Bool :=
  b.saf.hubLockout || b.saf.laneLockout.getLsbD (laneOf n).val || (nodeOf b n).lockout

/-- The phase that connector `n` shows: FAULTED while a lock-out covers it (R18, R278). -/
def phaseOf (b : Block) (n : Fin 16) : Phase := if lockedOut b n then .faulted else (sessOf b n).phase

/-- A phase past ADMISSION in which a session runs. -/
def Phase.pastAdmission : Phase → Bool := Phase.mayClose

/-- IDLE or ENDED: the condition of many settings. -/
def quiet (b : Block) (n : Fin 16) : Bool := match phaseOf b n with | .idle => true | .ended => true | _ => false
/-- Every connector is in IDLE or ENDED. -/
def allQuiet (b : Block) : Bool := allNodes.all (quiet b)

/-- Precedence of the stop causes within one allocation frame (R20). -/
def EndReason.rank : EndReason → Nat
  | .safety => 4 | .powerFail => 3 | .pilotLoss => 2 | .deviceFault => 1 | _ => 0

/-- The allocation frame of an instant: the boundary that begins it (R14). -/
def frameOf (t : U64) : U64 := BitVec.ofNat 64 (t.toNat / tFrame * tFrame)

/-- Record a stop cause (R20): the first one, or one of higher precedence in the same allocation frame. -/
def noteCause (r : EndReason) (b : Block) (s : Session) : Session :=
  match s.stopCause with
  | none => { s with stopCause := some r, stopFrame := frameOf (now b) }
  | some o => if s.stopFrame = frameOf (now b) ∧ o.rank < r.rank then { s with stopCause := some r } else s

/-! ### The pair -/

/-- Both permit bits of node `n` are 1 (R260). -/
def bothPermits (b : Block) (n : Fin 16) : Bool := let x := vget b.saf.nodes n; x.permitDyke && x.permitHw

/-- Lead, in ticks, that Sedge and Sluice give an entry for which the spec names no instant (DESIGN CHOICE, log entry 15). -/
def fwLead : Nat := 192

/-- Switch high-side channel `c` through a ring entry (R291): ring, action, time. -/
def hsEntry (ring : Nat) (c : Nat) (action : U8) (t : U64) (b : Block) : Block :=
  submit agSedge ring (mkEntry tgSwitch c action (zeros 32) (ringFree b ring tgSwitch c t)) b

/-- Nodes fed by the same supply channel. -/
def sharers (b : Block) (n : Fin 16) : List (Fin 16) :=
  let s := (lsOf b n).supply
  if s = 0x3F then [n] else allNodes.filter fun k => (lsOf b k).supply == s

/-- Sedge turns the supply channel of node `n` on (R300). -/
def supplyOn (n : Fin 16) (b : Block) : Block :=
  let s := (lsOf b n).supply.toNat
  if h : s < 40 then (if (hsOf b ⟨s, h⟩).cmdOn then b else hsEntry 130 s 1 (ahead b fwLead) b) else b

/-- Sedge turns the supply channel off when neither of its nodes needs it (R300). -/
def supplyOff (n : Fin 16) (b : Block) : Block :=
  let s := (lsOf b n).supply.toNat
  if s < 40 ∧ (sharers b n).all (fun k => !(phaseOf b k).mayClose) then hsEntry 130 s 2 (ahead b fwLead) b else b

/-- Both channels of node `n` conduct: the pull phase starts (R301, R302). HEADROOM when VIN_SYS / r_coil < i_pull. -/
def coilStart (n : Fin 16) (b : Block) : Block :=
  let x := lsOf b n
  let s := x.supply.toNat
  let supply := if h : s < 40 then (hsOf b ⟨s, h⟩).outOn else false
  if x.cmdOn && !x.waitOn && bothPermits b n && supply && b.lsw.vinOk && !b.lsw.limpActive && x.econ == 0 && !x.ocLatch && !x.otLatch then
    let head := decide (b.lsw.vin.toNat * 10 < x.iPull.toNat * x.rCoil.toNat)
    onlyIf head (irq 328)
      (updNode n (fun y => { y with closeAt := some (now b), openVerified := false, openAt := none })
        (updLs n (fun y => { y with conducting := true, econ := 1, turnOn := now b, headroom := head, learned := false, duty := 1000 }) b))
  else b

/-- Another node of the supply channel is in its pull phase. -/
def pullBusy (b : Block) (n : Fin 16) : Bool :=
  (lsOf b n).supply != 0x3F && (sharers b n).any fun k => k != n && (lsOf b k).econ == 1

/-- Dyke commands low-side channel `n` on (R260), held while the other node on the supply channel pulls in (R301). -/
def lsOn (n : Fin 16) (b : Block) : Block :=
  coilStart n (updLs n (fun x => { x with cmdOn := true, waitOn := pullBusy b n }) b)

/-- The pull phase of node `n` has ended: the nodes of the same supply channel whose turn-on was held start (R301). -/
def coilRelease (n : Fin 16) (b : Block) : Block :=
  forAll (sharers b n) (fun k b =>
    if k = n ∨ !(lsOf b k).waitOn then b else coilStart k (updLs k (fun x => { x with waitOn := pullBusy b k }) b)) b

/-- The node current exceeds zc_node_abs in the latest published sample (R274). -/
def currentFlows (b : Block) (n : Fin 16) : Bool := !absLe (chanOf b (currChan n)).value b.slu.zcNodeAbs.toNat 10

/-- Low-side channel `n` turns off. An opening while current flows counts (R274): source 300. -/
def lsOff (n : Fin 16) (b : Block) : Block :=
  let x := lsOf b n
  if !x.cmdOn && x.econ == 0 then b
  else
    let b1 := updLs n (fun x => { x with cmdOn := false, waitOn := false, conducting := false, econ := 0, headroom := false, duty := 0, turnOff := now b }) b
    if x.econ = 0 then b1
    else
      let under := currentFlows b n
      let b1 := updNode n (fun y => { y with closed := false, openVerified := false, closeAt := none, openAt := some (now b), openLate := false
                                             lastOpen := now b, underLoad := under, weldDue := true }) b1
      onlyIf (x.econ == 1) (coilRelease n)
        (onlyIf under (fun b => irq 300 (updSafX (fun s => { s with loadOpenCnt := satInc s.loadOpenCnt }) b)) b1)

/-- The hardware channel's permit condition for node `n` (R269). -/
def hwCondition (b : Block) (n : Fin 16) : Bool :=
  let x := nodeOf b n
  b.tide.ready && b.saf.hubPermit && !lockedOut b n && !x.ovTripped && !x.backupActed

/-- Form the hardware permit word anew. A channel whose permit clears turns off (R260). -/
def reviewHw (b : Block) : Block :=
  forAll allNodes (fun n b =>
    let c := hwCondition b n
    onlyIf (!c) (lsOff n) (updNode n (fun x => { x with permitHw := c }) b)) b

/-- Dyke's permit bit clears and the low-side channel follows (R260). -/
def dykeClear (n : Fin 16) (b : Block) : Block := lsOff n (updNode n (fun x => { x with permitDyke := false }) b)

/-- The diode check has passed in each of the last debounce periods (R201). -/
def diodePassed (b : Block) (n : Fin 16) : Bool := decide (b.vehCfg.debounce.toNat ≤ (vehOf b n).diodeOkRun)

/-- Pilot loss under R200, whatever the phase. -/
def pilotBad (b : Block) (n : Fin 16) : Bool :=
  let v := vehOf b n
  (match v.state with | .a => true | .e => true | .f => v.restartUntil.isNone | .invalid => true | _ => false) ||
    v.diodeFail || v.senseFault || !v.ppValid

/-- Dyke's permit condition for node `n` at entry to CABLE_CHECK (R269). -/
def dykeCondition (b : Block) (n : Fin 16) : Bool :=
  let i := vget b.imd n
  let x := nodeOf b n
  b.tide.ready && b.rst.dyke && !lockedOut b n && b.saf.hubPermit && (phaseOf b n).mayClose && diodePassed b n && !pilotBad b n &&
    (vehOf b n).lockState == 1 && !i.fault && !i.stale && !x.ovTripped && !x.overTemp

/-- V_ov at entry to CABLE_CHECK, 0.1 V (R275). -/
def ovThreshold (b : Block) (n : Fin 16) : U16 :=
  let v := (vget b.v2g n).maxV.toNat
  BitVec.ofNat 16 (min 10500 (max (v + v * b.safX.ovMargin.toNat / 1000) (v + 100)))

/-- Dyke closes the pair of node `n` at entry to CABLE_CHECK: V_ov, its permit bit and the low-side channel (R269, R275). -/
def closePair (n : Fin 16) (b : Block) : Block :=
  let b := updNode n (fun x => { x with ovThr := ovThreshold b n, ovArmed := true }) b
  if dykeCondition b n then
    lsOn n (updNode n (fun x => { x with permitDyke := true }) (updSess n (fun s => { s with energised := true }) b))
  else b

/-! ### Locks -/

/-- The unlock conditions of R208. -/
def unlockSafe (b : Block) (n : Fin 16) : Bool :=
  (match phaseOf b n with | .idle => true | .connected => true | .ended => true | _ => false) && (nodeOf b n).openVerified &&
    (chanOf b (voltChan n)).settled && below (chanOf b (voltChan n)).value 60 1

/-- Start a lock move (R207) on ring 129; a move needs its channel. -/
def startMove (n : Fin 16) (lock : Bool) (mbx : Option (Fin 4)) (b : Block) : Block :=
  let v := vehOf b n
  let c := (if lock then v.lockCh else v.unlockCh).toNat
  if c < 40 then
    let t := ringFree b 129 tgSwitch c (ahead b fwLead)
    hsEntry 129 c 1 t (updVeh n (fun v => { v with lockState := 3, unlockDue := if lock then v.unlockDue else false
                                                   move := some { lock := lock, start := t, mbx := mbx, tMin := b.vehCfg.lockMin, tMax := b.vehCfg.lockMax, stallThr := b.vehCfg.stallThr } }) b)
  else b

/-- Release the lock once R208 holds (R209, step 10 of R21). -/
def unlockIfDue (n : Fin 16) (b : Block) : Block :=
  let v := vehOf b n
  if v.unlockDue && v.move.isNone && !v.unlockFailed && unlockSafe b n && b.rst.sedge && !b.pf.active then
    (if v.unlockCh.toNat < 40 then startMove n false none b else updVeh n (fun v => { v with unlockDue := false }) b)
  else b

/-- Sedge orders a duty on ring 128 (R193). -/
def setDuty (n : Fin 16) (d : Nat) (b : Block) : Block :=
  submit agSedge 128 (mkEntry tgPilot n.val 1 (leBytes 2 d ++ zeros 30) (ringFree b 128 tgPilot n.val (ahead b fwLead)))
    { b with veh := vupd b.veh n fun v => { v with ordered := BitVec.ofNat 10 d } }
/-- The duty that connector `n` is to have (R199, R202): 0 while it is unavailable, FAULTED or restarted; 1,000 in IDLE; 5 % once the
lock is verified. In ENDED it stays, unless it was 0. -/
def wantDuty (b : Block) (n : Fin 16) : Nat :=
  let v := vehOf b n
  if !v.available || lockedOut b n || v.restartUntil.isSome then 0
  else match phaseOf b n with
    | .idle => 1000
    | .connected => if v.lockState = 1 then 50 else 1000
    | .ended => if v.ordered = 0 then 1000 else v.ordered.toNat
    | _ => 50
/-- Sedge orders the duty of connector `n` when it is another than it ordered last. -/
def dutyReview (n : Fin 16) (b : Block) : Block :=
  if b.rst.sedge ∧ (vehOf b n).ordered.toNat ≠ wantDuty b n then setDuty n (wantDuty b n) b else b

/-! ### Phases -/

/-- The pair must be open outside the phases of R23: Dyke opens, V_ov returns to 1,050 V once no session is past ADMISSION. -/
def openOutside (n : Fin 16) (b : Block) : Block :=
  supplyOff n (imdSessionEnds n (dykeClear n (updNode n (fun x => { x with rampedAt := none }) b)))

/-- Change modem `n`. -/
def updPlc (n : Fin 16) (f : Modem → Modem) (b : Block) : Block := { b with plc := vupd b.plc n f }
/-- The modem forgets its association (R222, R224): no run, timer, attempt or key remains. -/
def Modem.forget (x : Modem) : Modem :=
  { x with slacState := 0, attempt := 0, heardParm := false, run := none, edgeBase := [], nmk := [], nid := [], linkUp := false }
/-- A run in progress belongs to the attempt of connector `n` (R222): modem `n` decodes its sounds, or it is attached to `n` and to no
other modem whose connector is in ASSOCIATING. -/
def ownRun (b : Block) (n : Fin 16) (r : SlacRun) : Bool :=
  r.starter == some n ||
    r.heard.getLsbD n.val && allNodes.all fun m => m == n || !r.heard.getLsbD m.val || phaseOf b m != .associating
/-- What the modem does as its connector enters a phase: leaving ASSOCIATING without a join abandons the run on every modem; at
IDLE the key is erased and a faulted modem runs again (R222, R224, R233). -/
def modemPhase (n : Fin 16) (p : Phase) (b : Block) : Block :=
  match p with
  | .idle => updPlc n (fun x => { x.forget with fault := false, running := x.enable && b.rst.creek }) b
  | .ended =>
    if (vget b.plc n).linkUp then b
    else if phaseOf b n = .associating then
      { updPlc n Modem.forget b with plcCfg := { b.plcCfg with runs := b.plcCfg.runs.filter fun r => !ownRun b n r } }
    else updPlc n Modem.forget b
  | _ => b

/-- Connector `n` enters a phase (R18, R23, R300). -/
def enterPhase (n : Fin 16) (p : Phase) (b : Block) : Block :=
  let b := updSess n (fun s => { s with phase := p, enteredAt := now b, entry := if p = .admission then now b else s.entry }) (modemPhase n p b)
  match p with
  | .cableCheck => closePair n (imdCableCheck n (supplyOn n b))
  | .precharge => b
  | .charging => b
  | .stopping => updNode n (fun x => { x with rampedAt := match x.rampedAt with | some t => some t | none => some (now b) }) b
  | _ => openOutside n b

/-- The session of connector `n` ends (R21 step 10): ENDED with its end reason, ledger and final reading, lock released. -/
def endSession (n : Fin 16) (b : Block) : Block :=
  let r := match (sessOf b n).stopCause with | some r => r | none => .deviceFault
  let b := updSess n (fun s => { s with endReason := some r, served := false, authorised := false }) b
  let b := enterPhase n .ended b
  closeItems n r.code 0 (updVeh n (fun v => { v with unlockDue := true }) b)

/-- A stopping session whose pair is open and verified, with its welding test done, ends (R21 steps 9 and 10). -/
def stopDone (n : Fin 16) (b : Block) : Block :=
  if (sessOf b n).phase = .stopping ∧ (nodeOf b n).openVerified ∧ !(nodeOf b n).weldDue then endSession n b else b

/-- Stop the session of connector `n` with a reason (R20, R21): STOPPING, or ENDED at once when its output was never
energised. -/
def stopSession (n : Fin 16) (r : EndReason) (b : Block) : Block :=
  let s := sessOf b n
  if s.phase.isOpen then
    let b := updSess n (noteCause r b) b
    if s.phase = .stopping then b
    else if s.energised then enterPhase n .stopping b
    else endSession n b
  else b

/-- Stop every session. -/
def stopAll (r : EndReason) (b : Block) : Block := forAll allNodes (fun n b => stopSession n r b) b

/-- Write the session's phase back to IDLE (R199): nothing of the ended session stays; a V2G session that is still open closes (R233).
-/
def toIdle (n : Fin 16) (b : Block) : Block :=
  let b := onlyIf (vget b.v2g n).isOpen (irq 214) (enterPhase n .idle b)
  let b := { b with auth := vupd b.auth n fun a => if a.state = 1 then a else {}, v2g := vupd b.v2g n fun v => { timeouts := v.timeouts, tlsFail := v.tlsFail, ports := v.ports } }
  updSess n (fun s => { weight := s.weight, floor := s.floor, refuse := s.refuse, maxDelay := s.maxDelay, hostCap := s.hostCap
                        thermalCap := s.thermalCap, enteredAt := s.enteredAt, rep := s.rep, rampEnd := s.rampEnd }) b

/-! ### Lock-outs -/

/-- Kind and index of a scope (R522 LOCKOUT). -/
def CScope.kind : CScope → Nat × Nat
  | .node n => (0, n.val) | .lane l => (1, l.val) | .hub => (2, 0)

/-- The scope field of SAF_LAST_FAULT (R285). -/
def CScope.code : CScope → BitVec 5
  | .node n => BitVec.ofNat 5 n.val | .lane l => BitVec.ofNat 5 l.val | .hub => 0x1F

/-- Nodes of a scope. -/
def CScope.nodes : CScope → List (Fin 16)
  | .node n => [n] | .lane l => laneNodes l | .hub => allNodes

/-- `a` lies inside `s`. -/
def CScope.covers (s : CScope) (a : CScope) : Bool := a.nodes.all fun n => s.nodes.contains n

/-- A legal LOCKOUT entry (R522): 1 set, 2 cleared. -/
def lockoutLog (what : U8) (s : CScope) (cause : U8) (b : Block) : Block :=
  legalLog 0x0040 wDyke [what, BitVec.ofNat 8 s.kind.1, BitVec.ofNat 8 s.kind.2, cause] b

/-- What follows for the connectors a lock-out covers: permits cleared, pair opened, duty 0 (R23, R202, R278). -/
def coverFaulted (n : Fin 16) (b : Block) : Block := dutyReview n (dykeClear n (updNode n (fun x => { x with permitHw := false }) b))

/-- Add a cause to those of a lock-out. -/
def addCause (c : U8) (l : List U8) : List U8 := if l.contains c then l else l ++ [c]

/-- A lock-out of exactly this scope holds. -/
def lockHeld (b : Block) : CScope → Bool
  | .node n => (nodeOf b n).lockout
  | .lane l => b.saf.laneLockout.getLsbD l.val
  | .hub => b.saf.hubLockout

/-- Set a lock-out (R278): registers, SAFETY partition, legal log, source 289. One that holds already takes the cause too. -/
def setLock (s : CScope) (cause : U8) (b : Block) : Block :=
  let held := lockHeld b s
  let b := match s with
    | .node n => updNode n (fun x => { x with lockout := true, causes := addCause cause x.causes }) b
    | .lane l => updSaf (fun x => { x with
        laneLockout := x.laneLockout ||| BitVec.ofNat 8 (2 ^ l.val), laneCauses := vupd x.laneCauses l (addCause cause) }) b
    | .hub => updSaf (fun x => { x with hubLockout := true, hubCauses := addCause cause x.hubCauses }) b
  if held then b else reviewHw (forAll s.nodes coverFaulted (saveSafety (lockoutLog 1 s cause (irq 289 b))))

/-! ### Opening and stopping by mode (R274) -/

/-- IMMEDIATE: both permit bits clear at once. -/
def openNow (n : Fin 16) (b : Block) : Block :=
  dykeClear n (updNode n (fun x => { x with permitHw := false, rampedAt := none, rampedFor := none }) b)

/-- A pilot-loss or safety function has opened the pair of node `n` at this tick while current still flowed: the session's end reason is
PILOT_LOSS or SAFETY, whatever stopped it before (R26). -/
def reasonUnderLoad (n : Fin 16) (r : EndReason) (b : Block) : Block :=
  let x := nodeOf b n
  let acts := (r == .safety || r == .pilotLoss) && x.underLoad && x.openAt == some (now b) && (sessOf b n).phase.isOpen
  let kept := (sessOf b n).stopCause == some .safety || (sessOf b n).stopCause == some .pilotLoss
  onlyIf (acts && !kept) (updSess n fun s => { s with stopCause := some r }) b
/-- Open the pair at once and stop the session. -/
def openStop (r : EndReason) (n : Fin 16) (b : Block) : Block := reasonUnderLoad n r (stopSession n r (openNow n b))

/-- A RAMPED or normal stop reaches its instant (R269, R274): Dyke's permit clears, and a node lock-out that waited for it is
set. -/
def rampedOpen (n : Fin 16) (b : Block) : Block :=
  let w := (nodeOf b n).rampedLock
  let r := (nodeOf b n).rampedFor
  let b := dykeClear n (updNode n (fun x => { x with rampedAt := none, rampedLock := none, rampedFor := none }) b)
  let b := match r with
    | some r => reasonUnderLoad n r b
    | none => b
  stopDone n (match w with
    | some c => setLock (.node n) c b
    | none => b)

/-- RAMPED: the session stops; the pair opens at zero verification or after 20 ms. A pair that is not closed opens at once. -/
def rampNode (n : Fin 16) (r : EndReason) (b : Block) : Block :=
  let b := stopSession n r b
  if (lsOf b n).cmdOn then
    updNode n (fun x => { x with rampedFor := (match x.rampedFor with | some o => some (if o.rank < r.rank then r else o) | none => some r), rampedAt := match x.rampedAt with | some t => some t | none => some (now b) }) b
  else rampedOpen n b

/-- The sequencer's side of a veto (R178): 0 A in current mode, any ramp ended. -/
def MlkModule.zero (x : MlkModule) : MlkModule :=
  { x with present_ := 0, target := 0, rampFrom := 0, rampSteps := 0, rampStep := 0, voltMode := false, trackNode := none }

/-- The modules of a lane go to 0 A and are held (R278, R281). -/
def laneZero (l : Fin 8) (b : Block) : Block :=
  { b with mlk := { b.mlk with
      lanes := vupd b.mlk.lanes l fun x => { x with contained := true }
      modules := vmapIdx b.mlk.modules fun m x =>
        if modLane m = l then x.zero else x } }

/-- Every session is stopped and every node opened (hub safe stop, R274): source 288. -/
def hubSafeStop (r : EndReason) (b : Block) : Block :=
  let b := irq 288 (updSaf (fun s => { s with hubPermit := false, ilkClosed := false }) b)
  let b := forAll allNodes (reasonUnderLoad · r ·) (stopAll r (forAll allNodes openNow b))
  { b with mlk := { b.mlk with bcasts := { code := 0x03, mask := 0xFF, arg := 0 } :: b.mlk.bcasts.filter fun q => q.code != 0x03 } }

/-- A module with a latched hold: its lane is contained or locked out (R278, R281). -/
def laneHeld (b : Block) (l : Fin 8) : Bool := (vget b.mlk.lanes l).contained || b.saf.laneLockout.getLsbD l.val

/-! ### Containment (R281 to R283) -/

/-- A fault as its chapter decides it. -/
structure FaultSpec where
  /-- code of R273, or 0x20 -/
  cause : U8
  scope : CScope
  mode : OpenMode
  base : Nat
  /-- it takes a lock-out of its scope -/
  lock : Bool
  reason : EndReason

/-- The fault is one of the safety functions of R273. -/
def FaultSpec.isSafety (f : FaultSpec) : Bool := f.cause != 0x20

/-- Recovery time of a level in ticks (R281). -/
def recoveryTime (level : Nat) : Nat := if level = 1 then 300000000 else 3000000000

/-- The scope of level `k` that contains a scope. -/
def widen (k : Nat) (s : CScope) : CScope :=
  match k, s with
  | 2, .node n => .lane (laneOf n)
  | 3, _ => .hub
  | _, s => s

/-- The scopes under containment: those of the open windows, and the hub for the causes contained at L3 (R281, R282). -/
def contained (b : Block) : List Containment := b.saf.windows ++ b.saf.hubWide.map fun c => { cause := c, scope := .hub, level := 3 }
/-- A fault that is a consequence of one already counted (R283). -/
def isConsequence (b : Block) (f : FaultSpec) (soft : Bool) : Bool :=
  (contained b).any fun w =>
    w.scope.covers f.scope && (soft || f.cause == 5 || f.cause == 9 || f.cause == 0x0A || (w.cause == f.cause && f.cause != 0x20)) ||
      (w.cause == f.cause && w.scope == f.scope && f.cause != 0x20)

/-- Record a fault (R285 SAF_LAST_FAULT, SAF_GET_FAULTS). -/
def recordFault (f : FaultSpec) (s : CScope) (applied : Nat) (b : Block) : Block :=
  let r : FaultRec := { tick := now b, cause := f.cause, scope := s.code, base := BitVec.ofNat 2 f.base
                        applied := BitVec.ofNat 2 applied, faults := b.saf.episodeFaults }
  updSafX (fun x => { x with lastTick := now b, last := r })
    (updSaf (fun x => { x with records := (r :: x.records).take 8 }) b)

/-- Open and stop one node by a mode. -/
def applyNode (mode : OpenMode) (r : EndReason) (n : Fin 16) (b : Block) : Block :=
  match mode with
  | .immediate => openStop r n b
  | .ramped => rampNode n r b
  | .hubStop => openStop r n b
  | .heldOpen => openNow n b

/-- Apply a fault at its own level and scope, with its lock-out. A lock-out of a RAMPED node waits for the opening. -/
def applyOwn (f : FaultSpec) (b : Block) : Block :=
  match f.mode with
  | .hubStop => onlyIf f.lock (setLock .hub f.cause) (hubSafeStop f.reason b)
  | mode =>
    let b := match f.scope with
      | .lane l => laneZero l b
      | _ => b
    match mode, f.scope, f.lock with
    | .ramped, .node n, true =>
      if (lsOf b n).cmdOn then rampNode n f.reason (updNode n (fun x => { x with rampedLock := some f.cause }) b)
      else setLock (.node n) f.cause (rampNode n f.reason b)
    | _, _, _ => onlyIf f.lock (setLock f.scope f.cause) (forAll f.scope.nodes (applyNode mode f.reason) b)

/-- Widen the episode to level 2 over a lane: sessions on both nodes stopped, RAMPED where the node has no mode of its own, the
modules brought to 0 A (R281, R282). -/
def applyLane (l : Fin 8) (r : EndReason) (lock : Bool) (cause : U8) (b : Block) : Block :=
  let b := laneZero l b
  let b := forAll (laneNodes l) (fun n b => if (lsOf b n).cmdOn && (nodeOf b n).rampedAt.isNone then rampNode n r b else stopSession n r b) b
  onlyIf lock (setLock (.lane l) cause) b

/-- Widen the episode to level 3: RAMPED on every node, or a hub safe stop. -/
def applyHub (hubStop : Bool) (r : EndReason) (lock : Bool) (cause : U8) (b : Block) : Block :=
  let b := if hubStop then hubSafeStop r b else forAll allNodes (fun n b => rampNode n r b) b
  onlyIf lock (setLock .hub cause) b

/-- Open a recovery window (R282); L3 has none and stays until the episode ends. -/
def openWindow (cause : U8) (s : CScope) (level : Nat) (b : Block) : Block :=
  updSaf (fun x => { x with
    hubWide := if level < 3 then x.hubWide else addCause cause x.hubWide
    windows := x.windows ++ (if level < 3 then [{ cause := cause, scope := s, level := level, until_ := ahead b (recoveryTime level) }] else [])
    level := if x.level.toNat < level then BitVec.ofNat 2 level else x.level }) b

/-- End reason of a widened scope (R282). -/
def episodeReason (b : Block) : EndReason := if b.saf.episodeSafety then .safety else .deviceFault

/-- Count a fault in the episode. -/
def countFault (f : FaultSpec) (b : Block) : Block :=
  updSaf (fun x => { x with
    episodeFaults := if x.episodeFaults.toNat < 3 then x.episodeFaults + 1 else x.episodeFaults
    episodeLocks := x.episodeLocks || f.lock, episodeSafety := x.episodeSafety || f.isSafety
    episodeScopes := x.episodeScopes ++ [f.scope] }) b

/-- The scopes of level `k` that contain each fault of the episode, each once. -/
def widenedScopes (b : Block) (k : Nat) : List CScope := (b.saf.episodeScopes.map (widen k)).eraseDups

/-- Apply a widened level over the episode's scopes. -/
def applyWidened (k : Nat) (hubStop : Bool) (cause : U8) (b : Block) : Block :=
  let r := episodeReason b
  let lock := b.saf.episodeLocks
  let b := irq 297 b
  if k = 2 then
    let l := widenedScopes b 2
    forAll l (fun s b => match s with
      | .lane l => openWindow cause s 2 (applyLane l r lock cause b)
      | _ => b) (updSaf (fun x => { x with windows := [], episodeScopes := l }) b)
  else openWindow cause .hub 3 (applyHub hubStop r lock cause (updSaf (fun x => { x with
    windows := [], hubWide := x.windows.foldl (fun l w => addCause w.cause l) x.hubWide, episodeScopes := [.hub] }) b))

/-- A fault is decided (R281 to R283). `soft` marks the faults that are only consequences inside a scope already contained. -/
def containAs (soft : Bool) (f : FaultSpec) (b : Block) : Block :=
  if isConsequence b f soft then applyOwn f (recordFault f f.scope f.base b)
  else
    let b := countFault f b
    let k := b.saf.episodeFaults.toNat
    if k = 1 then openWindow f.cause f.scope f.base (recordFault f f.scope f.base (applyOwn f b))
    else if k = 2 then
      let lvl := min 3 (max f.base b.saf.level.toNat + 1)
      let b := recordFault f (widen lvl f.scope) lvl (applyOwn f b)
      applyWidened lvl (decide (f.mode = .hubStop)) f.cause b
    else
      let b := recordFault f .hub 3 (applyOwn f b)
      applyWidened 3 true f.cause (updSaf (fun x => { x with episodeLocks := true }) b)

/-- A fault. -/
def contain (f : FaultSpec) (b : Block) : Block := containAs false f b

/-- A containment without a safety function (cause 0x20): the sessions of the scope stop with DEVICE_FAULT, RAMPED. -/
def deviceFault (s : CScope) (base : Nat) (b : Block) : Block :=
  contain { cause := 0x20, scope := s, mode := .ramped, base := base, lock := false, reason := .deviceFault } b

/-- An event whose chapter names level L1 and that is only a consequence inside a contained scope. -/
def softFault (s : CScope) (base : Nat) (b : Block) : Block :=
  containAs true { cause := 0x20, scope := s, mode := .ramped, base := base, lock := false, reason := .deviceFault } b

/-- Node `n` is open, verified and its welding test is done. -/
def nodeSafe (b : Block) (n : Fin 16) : Bool := (nodeOf b n).openVerified && !(nodeOf b n).weldDue

/-- The output current a module reports, 0.01 A, signed (R171 page 0 bytes 1-2). -/
def modCurrent (x : MlkModule) : Int := int16 (natAt x.record 1 2)

/-- A contained scope is safe (R281). -/
def scopeSafe (b : Block) : CScope → Bool
  | .node n => nodeSafe b n
  | .lane l => (laneNodes l).all (fun n => (nodeOf b n).openVerified) &&
      (List.finRange 96).all fun m => modLane m != l || decide ((modCurrent (vget b.mlk.modules m)).natAbs ≤ 50)
  | .hub => allNodes.all fun n => (nodeOf b n).openVerified

/-- A lane's containment without lock-out ends with the episode. -/
def freeLanes (b : Block) : Block := { b with mlk := { b.mlk with lanes := vmap b.mlk.lanes fun x => { x with contained := false } } }

/-- The causes of the hub-wide stops without lock-out have cleared (R274). -/
def hubCausesClear (b : Block) : Bool :=
  !b.saf.hubLockout && b.rst.sedge && b.rst.dyke && b.saf.cfgOk && b.tide.ready && b.saf.dykeAlive && b.saf.agree &&
    allNodes.all fun n => (nodeOf b n).openVerified

/-- End the episode when every window has closed and every scope is safe (R282). -/
def endEpisode (b : Block) : Block :=
  if b.saf.windows = [] ∧ b.saf.episodeScopes.all (scopeSafe b) ∧ !(b.saf.level == 3 && !(hubCausesClear b)) then
    freeLanes (updSaf (fun s => { s with hubWide := [], level := 0, episodeFaults := 0, episodeLocks := false, episodeSafety := false, episodeScopes := [] }) b)
  else b

/-- The hub permit is given (R274): the loops close and both status outputs go high. An L3 episode without lock-out ends too (R282). -/
def reviewHub (b : Block) : Block :=
  endEpisode (if !b.saf.hubPermit && hubCausesClear b then reviewHw (updSaf (fun s => { s with hubPermit := true, ilkClosed := true }) b) else b)

/-- Sedge admits sessions: READY, no power-fail handling, no fatal error, no store error, Carr runs, no pause of Dyke or Carr and
no revert that waits (R17, R496, R505, R510, R531). -/
def admissionOpen (b : Block) : Bool :=
  b.rst.admission && b.rst.sedge && b.rst.carr && !b.pf.warn && !b.pf.active && !b.dmp.fatal && !b.pea.ue && b.dmp.raised == [] &&
    !b.upd.revertWait && (match b.upd.pause with | some p => p.image != 1 && p.image != 2 | none => true)

end Sys2Proof.Machine
end

