-- ==== Sys2Proof/Machine/Metrology.lean ====
section
/-! DEFINITION. The metrology lanes (04_metrology_inputs.md): sampling, settling, modulator faults, the correction of R96, and
what is formed from the published samples: increments and no-load states (R110 to R113), zero crossings (R46) and
Urms(1/2) with its supply quality events (R122 to R127). -/

namespace Sys2Proof.Machine

/-! ### Channels -/

/-- Change channel `c`. -/
def updChan (c : Fin 48) (f : Chan → Chan) (b : Block) : Block := { b with met := { b.met with chans := vupd b.met.chans c f } }
/-- Change the metrology state. -/
def updMet (f : Metrology → Metrology) (b : Block) : Block := { b with met := f b.met }
/-- Channels 0-31 form the DC class (R82). -/
def isDc (c : Fin 48) : Bool := decide (c.val < 32)
/-- A feeder phase current channel. -/
def isPhaseCurrent (c : Fin 48) : Bool := decide (32 ≤ c.val ∧ c.val < 44 ∧ c.val % 2 = 1)
/-- A member of a pair. -/
def isPaired (c : Fin 48) : Bool := decide (c.val < 44)
/-- The current channel of a pair. -/
def isPairCurrent (c : Fin 48) : Bool := isPaired c && c.val % 2 == 1
/-- The pair of a paired channel (R109). -/
def pairNo (c : Fin 48) : Fin 22 := ⟨min (c.val / 2) 21, by omega⟩
/-- The voltage channel of pair `p`. -/
def pairVolt (p : Fin 22) : Fin 48 := ⟨2 * p.val, by omega⟩
/-- The current channel of pair `p`. -/
def pairCurr (p : Fin 22) : Fin 48 := ⟨2 * p.val + 1, by omega⟩
/-- Change pair `p`. -/
def updPair (p : Fin 22) (f : Pair → Pair) (b : Block) : Block := { b with acc := { b.acc with pairs := vupd b.acc.pairs p f } }
/-- Pair `p`. -/
def pairOf (b : Block) (p : Fin 22) : Pair := vget b.acc.pairs p
/-- The channel whose magnitude gives the segment variable of channel `c` (R95). -/
def segSource (c : Fin 48) (x : Chan) : Fin 48 := if isPaired c && !x.cfg.segSrc then pairCurr (pairNo c) else c
/-- Channel `c` forms its own magnitude: it is the source of a segment variable or the current channel of a pair (R95, R113). -/
def formsOwn (c : Fin 48) (x : Chan) : Bool := !isPaired c || isPairCurrent c || x.cfg.segSrc
/-- The channel takes part in sampling: it has a sensor and no modulator fault. -/
def Chan.live (x : Chan) : Bool := x.cfg.sensor != 0 && !x.modFault
/-- The flags whose change raises source 65 (R100). -/
def FpFlags.watched (f : FpFlags) : List Bool := [f.nv, f.dz, f.of, f.sat]
/-- A watched flag is set in `new` and was not in `old`. -/
def newlyRaised (old new : FpFlags) : Bool := (old.watched.zip new.watched).any fun e => e.2 && !e.1

/-- A channel leaves the settled state (R92, R95): +0 for 8 sample instants, and no segment variable. -/
def Chan.unsettle (x : Chan) : Chan := { x with settled := false, settleLeft := 8, x := 0, xOwn := 0, xValid := false, value := 0 }
/-- Channel `c` leaves the settled state; a voltage channel that takes its segment variable from it loses it too. -/
def unsettle (c : Fin 48) (b : Block) : Block :=
  let b := updChan c Chan.unsettle b
  if isPairCurrent c then
    updChan (pairVolt (pairNo c)) (fun v => if v.cfg.segSrc then v else { v with x := 0 }) b
  else b

/-! ### Tables (R93, R94) -/

/-- One entry of a table in bytes. -/
def segBytes (s : Segment) : List U8 := b32 s.iLo ++ b32 s.gain ++ b32 s.offset ++ b16 s.phase ++ [s.flags, s.rsvd]
/-- The 256 bytes of a table. -/
def tableBytes (t : List Segment) : List U8 := padTo 256 (t.flatMap segBytes)
/-- The check value of a table. -/
def tableCrc (t : List Segment) : U32 := crc32c (tableBytes t)
/-- One entry from bytes at offset `o`. -/
def segOf (l : List U8) (o : Nat) : Segment :=
  { iLo := BitVec.ofNat 32 (natAt l o 4), gain := BitVec.ofNat 32 (natAt l (o + 4) 4), offset := BitVec.ofNat 32 (natAt l (o + 8) 4)
    phase := BitVec.ofNat 16 (natAt l (o + 12) 2), flags := byteAt l (o + 14), rsvd := byteAt l (o + 15) }
/-- The entries of a table of 256 bytes. -/
def segsOf (l : List U8) : List Segment := (List.range 16).map fun k => segOf l (16 * k)
/-- An entry is valid. -/
def Segment.valid (s : Segment) : Bool := s.flags.getLsbD 0
/-- A binary32 value is finite. -/
def finite (a : U32) : Bool := a.toNat / 2 ^ 23 % 256 != 255
/-- An integer as binary32, exact below 2^24. -/
def intF (x : Int) : U32 := w32 (fpOfInt f32 x)
/-- Rules 3 to 7 of R94 for entry `k`, `prev` the entry before; the number of the first one that fails. -/
def segRule (b : Block) (c : Fin 48) (k : Nat) (prev : Option Segment) (s : Segment) : Option Nat :=
  let scale := (chanOf b c).cfg.scale
  if k = 0 ∧ !(s.valid && s.iLo == 0) then some 1
  else if s.valid && (match prev with | some p => !p.valid | none => false) then some 2
  else if s.valid ∧ !(finite s.iLo && decide (s.iLo.toNat < 2 ^ 31 ∨ s.iLo = 0x80000000) &&
      (match prev with | some p => ltF p.iLo s.iLo | none => true)) = true then some 3
  else if s.valid ∧ !(finite s.gain && atLeast s.gain 1 2 && leF s.gain 0x40000000) then some 4
  else if s.valid ∧ !(finite s.offset && decide ((exactF s.offset).natAbs * 10 ≤ 8388607 * (exactF scale).natAbs)) then some 5
  else if s.valid ∧ !(if isPhaseCurrent c then decide (s.phase.toInt.natAbs ≤ 768) else s.phase == 0) then some 6
  else if s.flags.toNat ≥ 2 ∨ s.rsvd ≠ 0 then some 7
  else none
/-- The first failing entry and rule of a table (R94). -/
def tableFault (b : Block) (c : Fin 48) (t : List Segment) : Option (Nat × Nat) :=
  (List.range 16).foldl (fun r k => match r with
    | some r => some r
    | none => match t[k]? with
      | none => none
      | some s => (segRule b c k (if k = 0 then none else t[k - 1]?) s).map fun n => (k, n)) none
/-- MET_TABLE_CRC: the check over the 48 active tables (R105). -/
def allTablesCrc (b : Block) : U32 := crc32c (b.met.chans.toList.flatMap fun c => tableBytes c.active)

/-! ### Arithmetic with flags -/

/-- A value in the making and the flags it has collected. -/
abbrev FpRun := U32 × FpFlags
/-- Keep a result and collect its flags. -/
def keep (f : FpFlags) (r : FpRes) : FpRun := (w32 r, f.or r.2)
/-- Sum. -/
def addR (f : FpFlags) (a b : U32) : FpRun := keep f (fpAdd f32 a.toNat b.toNat)
/-- Product. -/
def mulR (f : FpFlags) (a b : U32) : FpRun := keep f (fpMul f32 a.toNat b.toNat)
/-- Fused multiply-add. -/
def fmaR (f : FpFlags) (a b c : U32) : FpRun := keep f (fpFma f32 a.toNat b.toNat c.toNat)

/-- Difference. -/
def subR (f : FpFlags) (a b : U32) : FpRun := keep f (fpSub f32 a.toNat b.toNat)
/-- The slope between two values over the difference of two bounds, every step rounded, with the flags raised so far (R94). -/
def slope (f : FpFlags) (a c lo hi : U32) : FpRun :=
  let n := subR f c a
  let d := subR n.2 hi lo
  keep d.2 (fpDiv f32 n.1.toNat d.1.toNat)
/-- The slopes of an entry against the next one. -/
def entrySlopes (f : FpFlags) (s n : Segment) : Segment × FpFlags :=
  let g := slope f s.gain n.gain s.iLo n.iLo
  let o := slope g.2 s.offset n.offset s.iLo n.iLo
  let p := slope o.2 (intF s.phase.toInt) (intF n.phase.toInt) s.iLo n.iLo
  ({ s with gs := g.1, os := o.1, ps := p.1 }, p.2)
/-- A table with the slopes Carr computes at load, and the flags of that computation. -/
def withSlopes (f : FpFlags) : List Segment → List Segment × FpFlags
  | [] => ([], f)
  | s :: r =>
    let e := match r with
      | n :: _ => if s.valid && n.valid then entrySlopes f s n else ({ s with gs := 0, os := 0, ps := 0 }, f)
      | [] => ({ s with gs := 0, os := 0, ps := 0 }, f)
    let x := withSlopes e.2 r
    (e.1 :: x.1, x.2)

/-- A rational number rounded once to binary32 (exact products and constants). -/
def ratioF (num : Int) (den : Nat) : U32 :=
  let q := num.natAbs * 2 ^ 300 / den
  let r := num.natAbs * 2 ^ 300 % den
  w32 (fpRound f32 (decide (num < 0)) (2 * q + (if r = 0 then 0 else 1)) (-301))
/-- The exact product of a binary32 value and a ratio, rounded once. -/
def timesRatio (a : U32) (num den : Nat) : U32 := ratioF (exactF a * num) (den * 2 ^ 149)

/-- A_INT of an integrator corner (R86). -/
def aInt (fc : BitVec 2) : U32 :=
  match fc.toNat with | 0 => 0x3F7FFEAF | 1 => 0x3F7FFD5D | 2 => 0x3F7FF969 | _ => 0x3F7FF2D3
/-- HALF_T (R86). -/
def halfT : U32 := 0x378637BD
/-- SAMPLE_H (R110). -/
def sampleH : U32 := 0x3218B5BF
/-- 2^-5 (R95). -/
def twoM5 : U32 := 0x3D000000
/-- 1/625 (R95). -/
def inv625 : U32 := 0x3AD1B717
/-- The four coefficients for fraction m/256 (R96). -/
def lagrange (m : Nat) : U32 × U32 × U32 × U32 :=
  let u : Int := m
  (ratioF (-(u * (u - 256) * (u - 512))) (6 * 2 ^ 24), ratioF ((u + 256) * (u - 256) * (u - 512)) (2 * 2 ^ 24),
    ratioF (-((u + 256) * u * (u - 512))) (2 * 2 ^ 24), ratioF ((u + 256) * u * (u - 256)) (6 * 2 ^ 24))

/-! ### The correction of one sample (R96) -/

/-- Scaled and, on a ROGOWSKI channel, integrated value (R86). -/
def scaled (x : Chan) : Chan × U32 :=
  let r := intF x.code.toInt
  let v := mulR x.flags r x.cfg.scale
  if x.cfg.sensor = 4 then
    let s := addR v.2 v.1 x.vPrev
    let p := mulR s.2 (aInt x.cfg.integFc) x.w
    let w := fmaR p.2 s.1 halfT p.1
    ({ x with vPrev := v.1, w := w.1, flags := w.2 }, w.1)
  else ({ x with flags := v.2 }, v.1)
/-- The table that the sample stamped `t` uses (R98). -/
def tableFor (x : Chan) (t : U64) : List Segment :=
  match x.before with
  | some (old, a) => if t.toNat ≤ a.toNat then old else x.active
  | none => x.active
/-- The segment in use for variable `v`: the largest valid entry whose bound does not exceed it; 0 for a NaN. -/
def segmentOf (t : List Segment) (v : U32) : Nat :=
  (t.zip (List.range t.length)).foldl (fun k e => if e.1.valid && leF e.1.iLo v then e.2 else k) 0
/-- A NaN. -/
def isNanF (a : U32) : Bool := (fpVal f32 a.toNat).isNan
/-- The corrected value y of `u` and the delay q, with the channel's segment and flags. -/
def corrected (c : Fin 48) (t : U64) (x : Chan) (u : U32) : Chan × U32 × Int :=
  if x.cfg.raw then
    let y := fmaR x.flags u 0x3F800000 0
    ({ x with flags := y.2 }, y.1, 0)
  else
    let tab := tableFor x t
    let k := if isNanF x.x then 0 else segmentOf tab x.x
    let s := tab.getD k {}
    let d := if isNanF x.x then (0, x.flags) else keep x.flags (fpSub f32 x.x.toNat s.iLo.toNat)
    let g := fmaR d.2 d.1 s.gs s.gain
    let o := fmaR g.2 d.1 s.os s.offset
    let y := fmaR o.2 u g.1 o.1
    if isPhaseCurrent c then
      let q := fmaR y.2 d.1 s.ps (intF s.phase.toInt)
      ({ x with flags := q.2, segment := BitVec.ofNat 4 k }, y.1, max (-768) (min 768 (scaleRound q.1 1)))
    else ({ x with flags := y.2, segment := BitVec.ofNat 4 k }, y.1, 0)
/-- The history of an AC channel at index `k`. -/
def histAt (x : Chan) (k : Nat) : U32 := x.hist.getD k 0
/-- The delayed output of an AC channel. -/
def delayed (x : Chan) (y : U32) (q : Int) : Chan × U32 :=
  let x := { x with hist := (y :: x.hist).take 10 }
  let D := (1024 + q).toNat
  let n0 := D / 256
  let co := lagrange (D % 256)
  let a := mulR x.flags co.2.2.2 (histAt x (n0 + 2))
  let a := fmaR a.2 co.2.2.1 (histAt x (n0 + 1)) a.1
  let a := fmaR a.2 co.2.1 (histAt x n0) a.1
  let a := fmaR a.2 co.1 (histAt x (n0 - 1)) a.1
  ({ x with flags := a.2 }, a.1)
/-- Samples of a block (R95). -/
def blockLen (c : Fin 48) : Nat := if isDc c then 32 else 625
/-- Add the sample's own magnitude to the running block (R95). -/
def blockAdd (c : Fin 48) (t : U64) (x : Chan) (u : U32) : Chan :=
  if !formsOwn c x then { x with xValid := (t.toNat / tSample % blockLen c == 0 || x.xValid) && x.settled }
  else
    let first := t.toNat / tSample % blockLen c == 0
    let s0 := if first then 0 else x.xSum
    let s := if isDc c then addR x.flags s0 (absF u) else fmaR x.flags u u s0
    { x with xSum := s.1, flags := s.2, xValid := (first || x.xValid) && x.settled }
/-- Publish channel `c` for the sample stamped `t`. An unsettled channel publishes +0. -/
def publishChan (c : Fin 48) (t : U64) (x : Chan) : Chan :=
  if x.live then
    let a := scaled x
    let y := corrected c t a.1 a.2
    let o := if isDc c then (y.1, y.2.1) else delayed y.1 y.2.1 y.2.2
    let x := blockAdd c t o.1 a.2
    let x := { x with before := match x.before with | some (l, i) => if t.toNat < i.toNat then some (l, i) else none | none => none }
    if x.settled then { x with value := o.2, good := o.2 } else { x with value := 0, settleLeft := x.settleLeft - 1 }
  else { x with value := 0, settled := false, xValid := false }
/-- The code of the sample is at an end of the range (R90). -/
def codeClipped (code : BitVec 24) : Bool := decide (code.toInt.natAbs = 8388607)

/-! ### Sampling -/

/-- Take a configuration or raw-mode change whose stamp is reached (R97, R108). -/
def applyChanges (t : U64) (c : Fin 48) (b : Block) : Block :=
  let x := chanOf b c
  let b := match x.pendingCfg with
    | some (g, s) => if s.toNat ≤ t.toNat then
        let b := unsettle c (updChan c (fun x => { x with cfg := { g with raw := x.cfg.raw }, pendingCfg := none, vPrev := 0, w := 0, hist := List.replicate 10 0 }) b)
        if isPairCurrent c then
          let sc := timesRatio g.iNom 1 1000
          updPair (pairNo c) (fun p => { p with startCur := sc, nlPower := ratioF (exactF sc * exactF p.uRef) (2 * 2 ^ 298) }) b
        else b
      else b
    | none => b
  match x.pendingRaw with
  | some (r, s) => if s.toNat ≤ t.toNat then updChan c (fun x => { x with cfg := { x.cfg with raw := r }, pendingRaw := none }) b else b
  | none => b
/-- Take the pair settings whose stamp is reached (R130). -/
def applyPair (t : U64) (p : Fin 22) (b : Block) : Block :=
  updPair p (fun x =>
    let x := match x.pendingNoload with
      | some (c, w, s) => if s.toNat ≤ t.toNat then { x with startCur := c, nlPower := w, pendingNoload := none } else x
      | none => x
    match x.pendingUref with
    | some (u, s) => if s.toNat ≤ t.toNat then { x with uRef := u, pendingUref := none } else x
    | none => x) b
/-- Take the supply quality settings whose stamp is reached (R130). -/
def applyPq (t : U64) (f : Fin 2) (b : Block) : Block :=
  { b with pq := { b.pq with feeders := vupd b.pq.feeders f fun y =>
      match y.pending with
      | some (x, s) => if s.toNat ≤ t.toNat then
          { y with enable := x.enable, f60 := x.f60, queue := x.queue, sag := x.sag, swell := x.swell, interruption := x.interruption, hyst := x.hyst
                   pending := none } else y
      | none => y } }
/-- The session of connector `n` is eligible for energy (R116). -/
def eligibleNow (b : Block) (n : Fin 16) : Bool := (phaseOf b n).mayClose
/-- SAMPLE_INSTANT (R88, R90): the lanes read all codes at a sample instant. -/
def sampleNow (codes : Vector (BitVec 24) 48) (b : Block) : Block :=
    let t := now b
    let b := forAll (List.finRange 2) (applyPq t) b
    let b := forAll (List.finRange 22) (applyPair t) (forAll (List.finRange 48) (applyChanges t) b)
    let clips := (List.finRange 48).filter fun c => (chanOf b c).live && codeClipped (vget codes c)
    let b := updMet (fun m => { m with
      latched := some t, lastSample := some t
      chans := vmapIdx m.chans fun c x =>
        let x := { x with code := vget codes c }
        if x.live && codeClipped x.code then { x with clip := true, clipCount := satInc x.clipCount } else x }) b
    let b := { b with acc := { b.acc with eligible := BitVec.ofNat 16 (bitsNat (allNodes.map (eligibleNow b))) } }
    let mask := bitsNat (b.met.chans.toList.map (·.modFault))
    onlyIf (decide (clips ≠ [])) (irq 64)
      (traceItem 2 0 t (codes.toList.flatMap (fun c => leBytes 3 c.toNat) ++ leBytes 6 mask) b)

/-- A code within the range of R87: the 24-bit number below it is read as the lowest code. -/
def codeIn (c : BitVec 24) : BitVec 24 := if c = 0x800000 then 0x800001 else c
/-- SAMPLE_INSTANT: the next multiple of 48,000 ticks, while metrology runs. -/
def sampleInstant (codes : Vector (BitVec 24) 48) (b : Block) : Block :=
  if b.met.running then atInstant (nextMultiple tSample b.met.lastSample b) (sampleNow (vmap codes codeIn)) b else b

/-! ### Energy increments (R110 to R113) -/

/-- Pair `p` forms its power and increment from the values published for `t`. -/
def pairStep (t : U64) (p : Fin 22) (b : Block) : Block :=
  let v := chanOf b (pairVolt p)
  let i := chanOf b (pairCurr p)
  let x := pairOf b p
  let pw := mulR i.flags v.value i.value
  let first := t.toNat / tSample % blockLen (pairCurr p) == 0
  let s := addR pw.2 (if first then 0 else x.pSum) pw.1
  let wake := x.noLoad && decide (4 * exactF x.startCur ≤ ((exactF i.value).natAbs : Int))
  let idle := x.noLoad && !wake
  let e := mulR s.2 pw.1 sampleH
  let f := fpToFixed e.1.toNat
  let clipped := (v.live && codeClipped v.code) || (i.live && codeClipped i.code)
  let newRange := clipped && !x.range
  let b := updPair p (fun x => { x with
    pSum := s.1, noLoad := idle, inc := if idle then 0 else f.1, clipped := clipped, faulted := v.modFault || i.modFault
    range := x.range || clipped }) b
  let b := updChan (pairCurr p) (fun c => { c with flags := if idle then s.2 else e.2.or f.2 }) b
  onlyIf wake (irq 69) (onlyIf newRange (irq 72) b)

/-! ### Zero crossings (R46) -/

/-- The voltage channel of phase `k`. -/
def phaseChan (k : Fin 6) : Fin 48 := ⟨32 + 2 * k.val, by omega⟩
/-- The pair of phase `k`. -/
def phasePair (k : Fin 6) : Fin 22 := ⟨16 + k.val, by omega⟩
/-- Group delay of the AC class (R89). -/
def gAc : Nat := 587750
/-- Change the measurement of phase `k`. -/
def updPhase (k : Fin 6) (f : PqPhase → PqPhase) (b : Block) : Block := { b with pq := { b.pq with phases := vupd b.pq.phases k f } }
/-- The voltage lies below -5 % of the nominal peak. -/
def belowArm (v u : U32) : Bool := decide (exactF v < 0 ∧ exactF u * exactF u < 200 * (exactF v * exactF v))
/-- Interpolated instant of the crossing between two samples, the later one stamped `t` (signal time, rounded down). -/
def crossingAt (t : U64) (v0 v1 : U32) : U64 :=
  let a := (exactF v0).natAbs
  let d := (exactF v1 - exactF v0).toNat
  BitVec.ofNat 64 (t.toNat - tSample + tSample * a / d - gAc)
/-- Half of 1/f_nom in ticks (R123). -/
def halfNom (b : Block) (k : Fin 6) : Nat := if (vget b.pq.feeders ⟨k.val / 3, by omega⟩).f60 then 12500000 else 15000000
/-- The refresh instants of a crossing at `z` whose period is `pd` (R122). -/
def crossingDue (z pd : Nat) : List PqDue :=
  [{ at_ := BitVec.ofNat 64 z, period := BitVec.ofNat 64 pd }, { at_ := BitVec.ofNat 64 (z + pd / 2), period := BitVec.ofNat 64 pd, half := true }]
/-- Watch the voltage of phase `k` for a positive crossing. The first crossing ends synthetic timing (R123); no full period ends at
it, and its refresh instants take the nominal one (log entry 168). -/
def zeroCross (t : U64) (k : Fin 6) (b : Block) : Block :=
  let c := chanOf b (phaseChan k)
  let p := vget b.pq.phases k
  if !c.settled then updPhase k (fun p => { p with armed := false, lastStamp := 0, hist := [], waiting := [], level := none }) b
  else
    let v := c.value
    let bracket := p.lastStamp.toNat + tSample == t.toNat && decide (exactF p.lastV < 0) && decide (0 ≤ exactF v) && p.armed
    let z := crossingAt t p.lastV v
    let b := updPhase k (fun p => { p with
      armed := if bracket then false else p.armed || belowArm v (pairOf b (phasePair k)).uRef
      lastV := v, lastStamp := t, hist := ((t, v) :: p.hist).take 4096 }) b
    if bracket then
      let pd := if p.haveTwo && !p.noSync then z.toNat - p.prevZc.toNat else 2 * halfNom b k
      let b := { b with tide := { b.tide with zc := vset b.tide.zc k z, zcSeen := vset b.tide.zcSeen k true } }
      updPhase k (fun q => { q with prevZc := z, haveTwo := true, noSync := false, due := q.due ++ crossingDue z.toNat pd }) b
    else b

/-! ### Supply quality (R122 to R127) -/

/-- Change feeder `f`. -/
def updFeeder (f : Fin 2) (g : PqFeeder → PqFeeder) (b : Block) : Block := { b with pq := { b.pq with feeders := vupd b.pq.feeders f g } }
/-- The phases of a feeder. -/
def feederPhases (f : Fin 2) : List (Fin 6) := [⟨3 * f.val, by omega⟩, ⟨3 * f.val + 1, by omega⟩, ⟨3 * f.val + 2, by omega⟩]
/-- The feeder of a phase. -/
def phaseFeeder (k : Fin 6) : Fin 2 := ⟨k.val / 3, by omega⟩
/-- The voltage that stands for phase `k` at the index decided last; a phase without a value takes no part (log entry 168). -/
def urmsLevel (b : Block) (k : Fin 6) : Option PqValue := (vget b.pq.phases k).level
/-- Phase `k` lies below `pct` (0.01 %) of its reference voltage. -/
def urmsBelow (b : Block) (k : Fin 6) (pct : Nat) : Bool :=
  (urmsLevel b k).any fun v => decide (exactF v.volts * 10000 < exactF (pairOf b (phasePair k)).uRef * pct)
/-- Phase `k` lies above `pct`. -/
def urmsAbove (b : Block) (k : Fin 6) (pct : Nat) : Bool :=
  (urmsLevel b k).any fun v => decide (exactF (pairOf b (phasePair k)).uRef * pct < exactF v.volts * 10000)
/-- The three event kinds of R125. -/
inductive PqKind where
  | sag | swell | interruption
deriving DecidableEq, Repr
/-- The code of a kind (R127). -/
def PqKind.code : PqKind → U8
  | .sag => 1 | .swell => 2 | .interruption => 3
/-- The open event of a kind. -/
def PqKind.get (f : PqFeeder) : PqKind → Option PqOpen
  | .sag => f.openSag | .swell => f.openSwell | .interruption => f.openInt
/-- Replace it. -/
def PqKind.set (o : Option PqOpen) (f : PqFeeder) : PqKind → PqFeeder
  | .sag => { f with openSag := o } | .swell => { f with openSwell := o } | .interruption => { f with openInt := o }
/-- The refresh instant of the value that stands for phase `k`. -/
def levelAt (b : Block) (k : Fin 6) : U64 := match urmsLevel b k with | some v => v.at_ | none => 0
/-- The latest refresh instant among phases. -/
def latestR (b : Block) (ks : List (Fin 6)) : U64 := ks.foldl (fun a k => if a.toNat < (levelAt b k).toNat then levelAt b k else a) 0
/-- The earliest refresh instant among phases. -/
def earliestR (b : Block) (ks : List (Fin 6)) : U64 :=
  match ks with
  | [] => 0
  | k :: r => r.foldl (fun a k => if (levelAt b k).toNat < a.toNat then levelAt b k else a) (levelAt b k)
/-- The phases of feeder `f` that have a value. -/
def levelPhases (b : Block) (f : Fin 2) : List (Fin 6) := (feederPhases f).filter fun k => (urmsLevel b k).isSome
/-- The phases that make an event of a kind start, and the refresh instant of the value that starts it. -/
def pqStarts (b : Block) (f : Fin 2) (k : PqKind) : Option U64 :=
  let x := vget b.pq.feeders f
  let ks := feederPhases f
  match k with
  | .sag => let l := ks.filter fun p => urmsBelow b p x.sag.toNat; if l = [] then none else some (earliestR b l)
  | .swell => let l := ks.filter fun p => urmsAbove b p x.swell.toNat; if l = [] then none else some (earliestR b l)
  | .interruption =>
    let l := levelPhases b f
    if l ≠ [] ∧ (l.all fun p => urmsBelow b p x.interruption.toNat) = true then some (latestR b l) else none
/-- The refresh instant of the value that ends an open event, if it ends now. -/
def pqEnds (b : Block) (f : Fin 2) (k : PqKind) (o : PqOpen) : Option U64 :=
  let ks := feederPhases f
  match k with
  | .sag => if ks.all fun p => !urmsBelow b p (o.sag.toNat + o.hyst.toNat) then some (latestR b ks) else none
  | .swell => if ks.all fun p => !urmsAbove b p (o.swell.toNat - o.hyst.toNat) then some (latestR b ks) else none
  | .interruption => let l := (levelPhases b f).filter fun p => !urmsBelow b p (o.interruption.toNat + o.hyst.toNat)
                     if l = [] then none else some (earliestR b l)
/-- The extreme phase at this value: lowest, or highest for a swell. -/
def extremePhase (b : Block) (f : Fin 2) (k : PqKind) : Fin 3 × U32 :=
  let l := ((feederPhases f).zip [(0 : Fin 3), 1, 2]).filterMap fun e => (urmsLevel b e.1).map fun v => (e.2, v.volts)
  match l with
  | [] => (0, 0)
  | x :: r => r.foldl (fun a e => if (if k = .swell then ltF a.2 e.2 else ltF e.2 a.2) then e else a) x
/-- `x` in units of 0.01 % of `u`, to the nearest (the record of R127's example; halves go up, log entry 168). -/
def percentOf (x u : U32) : Nat := if exactF u = 0 then 0 else ((2 * exactF x * 10000 + exactF u) / (2 * exactF u)).toNat
/-- The record of a closed event (R127). -/
def pqRecord (b : Block) (f : Fin 2) (k : PqKind) (o : PqOpen) (end_ : U64) (flags : Nat) (seq : U16) : List U8 :=
  let u := (pairOf b ⟨16 + 3 * f.val + o.phase.val, by omega⟩).uRef
  b64 o.start ++ b64 end_ ++ b32 o.duration ++ b32 o.extreme ++ b16 (satNat 16 (percentOf o.extreme u)) ++
    [BitVec.ofNat 8 f.val, k.code, BitVec.ofNat 8 o.phase.val] ++ [BitVec.ofNat 8 (b2n o.noSync + 2 * b2n o.containsInt + flags)] ++ b16 seq
/-- Close an open event: its record to the log and the queue, source 71 (R127). `flags` holds truncated (4) and mod_fault (8). -/
def pqClose (f : Fin 2) (k : PqKind) (end_ : U64) (flags : Nat) (b : Block) : Block :=
  let x := vget b.pq.feeders f
  match k.get x with
  | none => b
  | some o =>
    let r := pqRecord b f k o end_ flags x.seq
    let b := updFeeder f (fun x => { PqKind.set none x k with seq := x.seq + 1, lastStart := o.start, lastDur := o.duration, lastExt := o.extreme }) b
    let b := { b with pq := { b.pq with count := satInc b.pq.count } }
    sendTo agMet x.queue (mkRecord 0x0311 32 0 r) (opLogAs wMetrology 0x4047 r (irq 71 b))
/-- The value that closes an event does not count in its duration (R125). -/
def pqDropLast (f : Fin 2) (k : PqKind) (b : Block) : Block :=
  updFeeder f (fun x => PqKind.set ((k.get x).map fun o => { o with duration := o.duration - 1 }) x k) b
/-- Close every open event of a feeder at its last valid refresh value (R126). -/
def pqTruncate (f : Fin 2) (flags : Nat) (b : Block) : Block :=
  forAll [PqKind.interruption, .sag, .swell] (fun k b => pqClose f k (vget b.pq.feeders f).lastRefresh (4 + flags) (pqDropLast f k b)) b
/-- One kind of event at one refresh value of a feeder (R125). -/
def pqKindStep (f : Fin 2) (synthetic : Bool) (k : PqKind) (b : Block) : Block :=
  let x := vget b.pq.feeders f
  let ext := extremePhase b f k
  match k.get x with
  | some o =>
    match pqEnds b f k o with
    | some e => pqClose f k e 0 b
    | none =>
      let worse := if k = .swell then ltF o.extreme ext.2 else ltF ext.2 o.extreme
      updFeeder f (fun x => PqKind.set (some { o with
        duration := satInc o.duration, noSync := o.noSync || synthetic
        containsInt := o.containsInt || (decide (k = .sag) && x.openInt.isSome)
        extreme := if worse then ext.2 else o.extreme, phase := if worse then ext.1 else o.phase }) x k) b
  | none =>
    match if x.enable then pqStarts b f k else none with
    | none => b
    | some s =>
      irq 70 (updFeeder f (fun x => PqKind.set (some {
        start := s, duration := 1, extreme := ext.2, phase := ext.1, noSync := synthetic
        containsInt := decide (k = .sag) && x.openInt.isSome
        sag := x.sag, swell := x.swell, interruption := x.interruption, hyst := x.hyst }) x k) b)
/-- Decide the events of a feeder at one refresh value (R125): interruption first, so that the sag around it shows it. -/
def pqDecide (f : Fin 2) (b : Block) : Block :=
  let ks := feederPhases f
  let syn := ks.any fun k => (urmsLevel b k).any (·.synthetic)
  let b := forAll [PqKind.interruption, .sag, .swell] (pqKindStep f syn) b
  updFeeder f (fun x => { x with lastRefresh := latestR b ks }) b
/-- The least index for which a phase of feeder `f` holds a value. -/
def pqNextIndex (b : Block) (f : Fin 2) : Option Nat :=
  ((feederPhases f).flatMap fun k => (vget b.pq.phases k).waiting.map (·.index)).min?
/-- Index `g` can be decided: every phase whose channel is settled has its value or is past it, or one phase is two ahead. -/
def pqReady (b : Block) (f : Fin 2) (g : Nat) : Bool :=
  let past := fun (k : Fin 6) (n : Nat) => (vget b.pq.phases k).waiting.any fun v => decide (n ≤ v.index)
  ((feederPhases f).any fun k => past k (g + 2)) || (feederPhases f).all fun k => !(chanOf b (phaseChan k)).settled || past k g
/-- The values of index `g` stand for their phases; a phase without one keeps the value before (R125). -/
def pqTake (g : Nat) (k : Fin 6) (b : Block) : Block :=
  updPhase k (fun p => { p with
    level := match p.waiting.find? (·.index == g) with | some v => some v | none => p.level
    waiting := p.waiting.filter fun v => decide (g < v.index) }) b
/-- Decide every index of feeder `f` that can be decided, in order. -/
def pqAdvance (f : Fin 2) : Nat → Block → Block
  | 0, b => b
  | n + 1, b =>
    match pqNextIndex b f with
    | none => b
    | some g =>
      if pqReady b f g then
        pqAdvance f n (pqDecide f (forAll (feederPhases f) (pqTake g) (updFeeder f (fun x => { x with index := g + 1 }) b)))
      else b
/-- Urms(1/2) over the window [r - P, r) of the samples held (R122). -/
def urmsValue (p : PqPhase) (r P : U64) : Option U32 :=
  let l := p.hist.filter fun e => decide (r.toNat ≤ e.1.toNat - gAc + P.toNat ∧ e.1.toNat - gAc < r.toNat)
  if l = [] then none
  else
    let s := l.reverse.foldl (fun a e => w32 (fpFma f32 e.2.toNat e.2.toNat a.toNat)) 0
    some (w32 (fpSqrt f32 (mulF s (ratioF 1 l.length)).toNat))
/-- The index of the next value of a phase (R125): even at a crossing, odd half a period after it; synthetic instants count on.
It is at least the index that the feeder decides next. -/
def pqIndex (b : Block) (k : Fin 6) (e : PqDue) : Nat :=
  let n := max (vget b.pq.phases k).next (vget b.pq.feeders (phaseFeeder k)).index
  if e.synthetic || n % 2 == b2n e.half then n else n + 1
/-- A refresh value of phase `k` is published (R122). -/
def urmsRefresh (k : Fin 6) (e : PqDue) (b : Block) : Block :=
  match urmsValue (vget b.pq.phases k) e.at_ e.period with
  | none => b
  | some v =>
    let n := pqIndex b k e
    pqAdvance (phaseFeeder k) 8 (updPhase k (fun p => { p with
      urms := v, lastRefresh := e.at_, next := n + 1, waiting := p.waiting ++ [{ index := n, at_ := e.at_, volts := v, synthetic := e.synthetic }] }) b)
/-- Synthetic refresh instants up to signal time `s` (R123). -/
def synthDue (half s : Nat) : Nat → U64 → List PqDue
  | 0, _ => []
  | n + 1, last =>
    let r := last.toNat + half
    if r ≤ s then { at_ := BitVec.ofNat 64 r, period := BitVec.ofNat 64 (2 * half), synthetic := true } :: synthDue half s n (BitVec.ofNat 64 r) else []
/-- Compute what has come due on phase `k` with the sample stamped `t`. -/
def urmsStep (t : U64) (k : Fin 6) (b : Block) : Block :=
  let c := chanOf b (phaseChan k)
  if !c.settled then b
  else
    let s := t.toNat + tSample - gAc
    let p := vget b.pq.phases k
    let base := if p.lastRefresh.toNat + 150000000 < s then BitVec.ofNat 64 (s - halfNom b k) else p.lastRefresh
    let due := p.due ++ (if p.noSync then synthDue (halfNom b k) s 16 base else [])
    let ready := due.filter fun e => decide (e.at_.toNat ≤ s)
    let b := updPhase k (fun p => { p with due := p.due.filter fun e => !decide (e.at_.toNat ≤ s) }) b
    forAll ready (urmsRefresh k) b
/-- ZC_SYNC_LOST (R123): no crossing of phase `k` for 60 ms. -/
def zcSyncLost (k : Fin 6) (b : Block) : Block :=
  let p := vget b.pq.phases k
  let lose := updPhase k (fun p => { p with noSync := true, haveTwo := false, due := [] })
  if p.noSync || !b.met.running then b
  else if vget b.tide.zcSeen k then afterTicks (vget b.tide.zc k) 90000000 lose b
  else lose b

/-! ### Publication -/

/-- The sums of a running MET_CAL_MEASURE (R108), in binary64 on Carr. -/
def calStep (t : U64) (b : Block) : Block :=
  match b.met.cal with
  | none => b
  | some m =>
    if t.toNat < m.first.toNat then b
    else
      let x := chanOf b m.chan
      if !x.settled then refuse m.mbx 0x030A (updMet (fun s => { s with cal := none }) b)
      else
        let o := (fpWiden x.value.toNat).1
        let v := if isPairCurrent m.chan then (fpWiden (chanOf b (pairVolt (pairNo m.chan))).value.toNat).1 else 0
        let add := fun (a : U64) (y : Nat) => BitVec.ofNat 64 (fpAdd f64 a.toNat y).1
        let m' := { m with
          left := m.left - 1, sum := add m.sum o, sumSq := add m.sumSq (fpMul f64 o o).1
          sumVi := if isPairCurrent m.chan then add m.sumVi (fpMul f64 v o).1 else m.sumVi
          sumCodes := m.sumCodes + BitVec.ofInt 64 x.code.toInt, clipped := if codeClipped x.code then satInc m.clipped else m.clipped }
        if m'.left = 0 then
          ok m.mbx (b64 m'.first ++ b64 m'.sum ++ b64 m'.sumSq ++ b64 m'.sumVi ++ b64 m'.sumCodes ++ b32 m'.clipped)
            (updMet (fun s => { s with cal := none }) b)
        else updMet (fun s => { s with cal := some m' }) b
/-- The voltage of node `n` lies within `num / den` V of `c / 10` V. -/
def voltNear (b : Block) (n : Fin 16) (c num den : Nat) : Bool :=
  let x := chanOf b (voltChan n)
  x.settled && decide (((exactF x.value * 10 - exactOf c).natAbs : Int) * den ≤ exactOf num * 10)

/-- Count the consecutive samples that hold U_test (R247) and the precharge voltage (R143) on node `n`. -/
def voltRuns (n : Fin 16) (b : Block) : Block :=
  let i := imdOf b n
  let b :=
    if i.cableCheck = 1 ∧ i.uAt = none then
      let r := if voltNear b n (i.uTest.toNat * 10) (2 * i.uTest.toNat) 100 then i.uRun + 1 else 0
      updImd n (fun x => { x with uRun := r, uAt := if 32 ≤ r then some (now b) else none }) b
    else b
  if (sessOf b n).phase = .precharge then
    let r := if voltNear b n (vget b.v2g n).presentV.toNat 10 1 then (sessOf b n).prechargeRun + 1 else 0
    updSess n (fun s => { s with prechargeRun := r }) b
  else b

/-- Feeder `f` of the residual channels: the published value joins the sums of its block (R252, R254). -/
def rcmAdd (f : Fin 2) (b : Block) : Block :=
  let x := chanOf b ⟨46 + f.val, by omega⟩
  let v := exactF x.value
  { b with rcm := vupd b.rcm f fun r => { r with
      n := r.n + 1, sum := r.sum + v, sumSq := r.sumSq + v.natAbs * v.natAbs
      clip := r.clip || (x.live && codeClipped x.code)
      lossNow := r.lossNow || !x.settled || x.modFault || x.cfg.sensor != 5 } }

/-- METROLOGY_PUBLISH (R88, R96, R110): at t + 12,000 the values and increments of instant t. -/
def publishNow (t : U64) (b : Block) : Block :=
  let old := b.met.chans
  let b := updMet (fun m => { m with chans := vmapIdx m.chans fun c x => publishChan c t x, stamp := t, latched := none }) b
  let b := forAll (List.finRange 22) (pairStep t) b
  let raised := (List.finRange 48).any fun c => newlyRaised (vget old c).flags (chanOf b c).flags
  let b := onlyIf raised (irq 65) b
  let b := forAll (List.finRange 6) (fun k b => urmsStep t k (zeroCross t k b)) b
  let b := forAll (List.finRange 2) rcmAdd (forAll allNodes voltRuns b)
  calStep t { b with acc := { b.acc with published := some t } }
/-- METROLOGY_PUBLISH (R96): 12,000 ticks after the instant latched. -/
def metrologyPublish (b : Block) : Block :=
  match b.met.latched with
  | none => b
  | some t => afterTicks t 12000 (publishNow t) b
/-- CHANNEL_SETTLED (R92): after 8 instants of +0; a pair enters NO_LOAD when its current channel settles (R113). -/
def channelSettled (c : Fin 48) (b : Block) : Block :=
  let x := chanOf b c
  if x.settled || !x.live || x.settleLeft != 0 || !b.met.running then b
  else
    let b := updChan c (fun x => { x with settled := true }) b
    if isPairCurrent c then
      let p := pairNo c
      onlyIf (!(pairOf b p).noLoad) (irq 69) (updPair p (fun x => { x with noLoad := true }) b)
    else b

/-! ### Segment blocks (R95, R113) -/

/-- The magnitude of a block from its sum. -/
def blockValue (c : Fin 48) (x : Chan) : FpRun :=
  if isDc c then mulR x.flags x.xSum twoM5
  else
    let m := mulR x.flags x.xSum inv625
    keep m.2 (fpSqrt f32 m.1.toNat)
/-- The own magnitude of channel `c` at the end of a block whose every sample was settled. -/
def ownMagnitude (c : Fin 48) (b : Block) : Block :=
  updChan c (fun x =>
    if x.settled && x.xValid && formsOwn c x then let v := blockValue c x; { x with xOwn := v.1, flags := v.2 } else x) b
/-- The segment variable of channel `c` for the next block. -/
def takeSegment (c : Fin 48) (b : Block) : Block :=
  let s := chanOf b (segSource c (chanOf b c))
  updChan c (fun x => if x.settled && x.xValid && s.settled && s.xValid then { x with x := s.xOwn } else x) b
/-- The pair's state at the end of a block (R113). -/
def pairBlock (p : Fin 22) (b : Block) : Block :=
  let i := chanOf b (pairCurr p)
  let x := pairOf b p
  let pb := mulR i.flags x.pSum (if isDc (pairCurr p) then twoM5 else inv625)
  let idle := ltF (absF pb.1) x.nlPower && ltF i.xOwn x.startCur
  let run := leF x.startCur i.xOwn
  let nl := if x.noLoad then !run else idle
  onlyIf (decide (nl ≠ x.noLoad)) (irq 69)
    (updChan (pairCurr p) (fun c => { c with flags := pb.2 }) (updPair p (fun x => { x with pBlk := pb.1, noLoad := nl }) b))
/-- SEGMENT_BLOCK_END (R95) of the DC or the AC class, after the block's last sample has been published. -/
def segmentBlockEnd (ac : Bool) (b : Block) : Block :=
  let len := if ac then 30000000 else 1536000
  if !b.met.running || b.met.lastSample.isNone || (b.met.stamp.toNat + tSample) % len != 0 then b
  else
    let cs := (List.finRange 48).filter fun c => isDc c != ac
    let ps := (List.finRange 22).filter fun p => isDc (pairCurr p) != ac
    let old := b.met.chans
    let b := forAll ps pairBlock (forAll cs takeSegment (forAll cs ownMagnitude b))
    onlyIf (cs.any fun c => newlyRaised (vget old c).flags (chanOf b c).flags) (irq 65) b

/-! ### Modulator faults (R91) -/

/-- The node of a node pair's channel. -/
def chanNode (c : Fin 48) : Option (Fin 16) := if h : c.val < 32 then some ⟨c.val / 2, by omega⟩ else none
/-- MODULATOR_FAULT (R91, R126), whatever the sensor. -/
def modulatorFault (c : Fin 48) (b : Block) : Block :=
  let x := chanOf b c
  if x.modFault then b
  else
    let b := irq 66 (unsettle c (updChan c (fun x => { x with modFault := true }) b))
    match chanNode c with
    | some n => onlyIf ((phaseOf b n).pastAdmission) (softFault (.node n) 1) b
    | none =>
      if h : 32 ≤ c.val ∧ c.val < 44 ∧ c.val % 2 = 0 then pqTruncate (phaseFeeder ⟨(c.val - 32) / 2, by omega⟩) 8 b else b
/-- MODULATOR_FAULT_CLEAR (R91, R92): the channel settles again. -/
def modulatorFaultClear (c : Fin 48) (b : Block) : Block :=
  if (chanOf b c).modFault then unsettle c (updChan c (fun x => { x with modFault := false }) b) else b

/-- SAMPLE_INSTANT (R88). -/
def execSampleInstant (codes : Vector (BitVec 24) 48) (s : State) : Result := s.input (sampleInstant codes)
/-- METROLOGY_PUBLISH (R96). -/
def execMetrologyPublish (s : State) : Result := s.run metrologyPublish
/-- ZC_SYNC_LOST (R123). -/
def execZcSyncLost (k : Fin 6) (s : State) : Result := s.run (zcSyncLost k)
/-- SEGMENT_BLOCK_END (R95). -/
def execSegmentBlockEnd (ac : Bool) (s : State) : Result := s.run (segmentBlockEnd ac)
/-- MODULATOR_FAULT (R91). -/
def execModulatorFault (c : Fin 48) (s : State) : Result := s.input (modulatorFault c)
/-- MODULATOR_FAULT_CLEAR (R91). -/
def execModulatorFaultClear (c : Fin 48) (s : State) : Result := s.input (modulatorFaultClear c)
/-- CHANNEL_SETTLED (R92). -/
def execChannelSettled (c : Fin 48) (s : State) : Result := s.run (channelSettled c)

end Sys2Proof.Machine
end

