-- ==== Sys2Proof/Machine/Energy.lean ====
section
/-! DEFINITION. Saltern and Brine at every sample instant (05_energy_quality.md R112, R115 to R121; 14_billing.md R349, R350,
R357, R358, R373, R374): accumulators, attribution of grid energy, tariff registers, costs, debits, interval closing. -/

namespace Sys2Proof.Machine

/-- An increment as a signed number of 2^-32 Wh. -/
def incOf (b : Block) (p : Fin 22) : Int := (pairOf b p).inc.toInt
/-- The pair of node `n`. -/
def nodePair (n : Fin 16) : Fin 22 := ⟨n.val, by omega⟩
/-- An amount of energy. -/
def amount (x : Int) : Acc := BitVec.ofNat 96 x.natAbs
/-- Add to an accumulator; a clipped sample sets the range flag (R112). -/
def Register.add (x : Int) (clipped faulted : Bool) (r : Register) : Register :=
  { acc := r.acc + amount x, range := r.range || (clipped && x != 0), unproven := r.unproven || faulted }

/-- The node accumulators take the increment of pair `n` by its sign (R111, R115). -/
def applyNodeEnergy (n : Fin 16) (b : Block) : Block :=
  let x := incOf b (nodePair n)
  let c := (pairOf b (nodePair n)).clipped
  if 0 < x then { b with acc := { b.acc with nodeDel := vupd b.acc.nodeDel n (Register.add x c false) } }
  else if x < 0 then { b with acc := { b.acc with nodeRec := vupd b.acc.nodeRec n (Register.add x c false) } }
  else b
/-- Pairs of a feeder. -/
def feederPairs (f : Fin 2) : List (Fin 22) := (feederPhases f).map phasePair
/-- A member of one of the feeder's pairs is in raw mode: its registers are suspended (R97). -/
def feederRaw (b : Block) (f : Fin 2) : Bool :=
  (feederPairs f).any fun p => (chanOf b (pairVolt p)).cfg.raw || (chanOf b (pairCurr p)).cfg.raw
/-- The net increment of a feeder over its three phases (R115), 0 while its registers are suspended. -/
def feederNet (b : Block) (f : Fin 2) : Int := if feederRaw b f then 0 else ((feederPairs f).map (incOf b)).sum
/-- A clipped phase sample that advances the feeder. -/
def feederClipped (b : Block) (f : Fin 2) : Bool := (feederPairs f).any fun p => (pairOf b p).clipped && (pairOf b p).inc != 0
/-- A phase of the feeder has a modulator fault. -/
def feederFaulted (b : Block) (f : Fin 2) : Bool := (feederPairs f).any fun p => (pairOf b p).faulted
/-- The feeder accumulators (R112, R115); a modulator fault leaves both unproven (R91). -/
def applyFeeder (f : Fin 2) (b : Block) : Block :=
  let x := feederNet b f
  let c := feederClipped b f
  let d := feederFaulted b f
  { b with acc := { b.acc with
    fdrImp := vupd b.acc.fdrImp f fun r => Register.add (if 0 < x then x else 0) c d r
    fdrExp := vupd b.acc.fdrExp f fun r => Register.add (if x < 0 then x else 0) c d r
    } }
/-- A register that pair `p` feeds is unproven: its node's or its feeder's accumulators, its session's or its connector's. -/
def pairUnproven (b : Block) (p : Fin 22) : Bool :=
  if h : p.val < 16 then
    let n : Fin 16 := ⟨p.val, h⟩
    let c := vget b.legal n
    (vget b.acc.nodeDel n).unproven || (vget b.acc.nodeRec n).unproven || c.unproven || c.connUnproven
  else
    let f : Fin 2 := ⟨(p.val - 16) / 3, by omega⟩
    (vget b.acc.fdrImp f).unproven || (vget b.acc.fdrExp f).unproven
/-- An attributed or unattributed register is unproven (R121). -/
def attribNow (b : Block) : Bool := b.acc.unattImp.unproven || b.acc.unattExp.unproven || b.legal.toList.any (·.attUnproven)
/-- The bits of MET_UNPROVEN (R128). -/
def unprovenBits (b : Block) : List Bool := b.acc.hubUnproven :: b.acc.attribUnproven :: b.acc.pairs.toList.map (·.unproven)
/-- MET_UNPROVEN follows the flags of the registers (R128); source 72 when a bit is first set over `old` (R129). -/
def noteUnproven (old b : Block) : Block :=
  let new := { b with acc := { b.acc with
    pairs := vmapIdx b.acc.pairs fun p x => { x with unproven := x.unproven || pairUnproven b p }
    hubUnproven := b.acc.hubUnproven || b.acc.hubDel.unproven || b.acc.hubRec.unproven, attribUnproven := b.acc.attribUnproven || attribNow b } }
  onlyIf (((unprovenBits old).zip (unprovenBits new)).any fun e => e.2 && !e.1) (irq 72) new
/-- Add to one tariff of a set of registers. -/
def addTariff (T : Nat) (x : Int) (t : Vector TariffReg 16) : Vector TariffReg 16 :=
  vmapIdx t fun k r => if k.val = T then (if 0 < x then { r with del := r.del + amount x } else { r with rec_ := r.rec_ + amount x }) else r
/-- The session on connector `n`, eligible at the sample, takes its node's increment in tariff `T` (R116, R349, R373). -/
def applySession (T : Nat) (cal : List U8) (n : Fin 16) (b : Block) : Block :=
  if !b.acc.eligible.getLsbD n.val then b
  else
    let b := updLegal n (fun c => { c with eligible := true }) b
    let x := incOf b (nodePair n)
    if x = 0 then b
    else
      let cl := (pairOf b (nodePair n)).clipped
      let b := updLegal n (fun c => { c with
        del := if 0 < x then c.del + amount x else c.del, rec_ := if x < 0 then c.rec_ + amount x else c.rec_
        range := c.range || cl, connRange := c.connRange || cl
        tariffs := addTariff T x c.tariffs, connTariffs := addTariff T x c.connTariffs
        cDel := if 0 < x then c.cDel + x.natAbs * priceDel cal T else c.cDel
        cRec := if x < 0 then c.cRec + x.natAbs * priceRec cal T else c.cRec }) b
      { b with
        slt := { b.slt with hubTariffs := addTariff T x b.slt.hubTariffs }
        acc := { b.acc with
          hubDel := if 0 < x then b.acc.hubDel.add x cl false else b.acc.hubDel
          hubRec := if x < 0 then b.acc.hubRec.add x cl false else b.acc.hubRec } }
/-- Increments of the sessions eligible at the sample. -/
def sessionIncs (b : Block) : List Int :=
  allNodes.map fun n => if b.acc.eligible.getLsbD n.val then incOf b (nodePair n) else 0
/-- The check of R31 and R349 over one sample: hub totals and hub tariff totals advance by the sums of the session
increments; the difference, 0 when it holds. -/
def energyDifference (old new : Block) : Int :=
  let pos := ((sessionIncs old).map fun x => max x 0).sum
  let neg := ((sessionIncs old).map fun x => max (-x) 0).sum
  let d := fun (f : Block → Acc) => (f new).toNat - (f old).toNat
  let e1 : Int := d (fun b => b.acc.hubDel.acc) - pos
  let e2 : Int := d (fun b => b.acc.hubRec.acc) - neg
  let e3 : Int := d (fun b => delTotal b.slt.hubTariffs) - pos
  let e4 : Int := d (fun b => recTotal b.slt.hubTariffs) - neg
  if e1 ≠ 0 then e1 else if e2 ≠ 0 then e2 else if e3 ≠ 0 then e3 else e4
/-- A failed check is a fatal error with source 423. -/
def energyCheck (old new : Block) : Block :=
  let d := energyDifference old new
  if d = 0 then new else raiseFatal 2 (conservationLog 1 d (irq 423 new))

/-! ### Attribution (R119 to R121) -/

/-- The attribution frame of boundary `B` as it stands now: modules assigned in the map in force and eligible sessions' modules
(R120). -/
def newFrame (b : Block) (B : U64) : AttrFrame :=
  let on := fun n => (b.slu.lastMap.filter fun x => x == some n).length
  { base := B, assigned := (b.slu.lastMap.filter Option.isSome).length
    weights := allNodes.map fun n => if eligibleNow b n then on n else 0 }
/-- Latch the frame that starts at boundary `B` unless it is held. -/
def latchFrame (B : U64) (b : Block) : Block :=
  if b.acc.frames.any fun f => f.base == B then b
  else { b with acc := { b.acc with frames := b.acc.frames ++ [newFrame b B] } }
/-- Attribute one direction of a frame over the sessions (R120). -/
def attShare (f : AttrFrame) (e : Acc) (n : Fin 16) : Nat := if f.assigned = 0 then 0 else e.toNat * f.weights.getD n.val 0 / f.assigned
/-- Sum of the shares. -/
def attSum (f : AttrFrame) (e : Acc) : Nat := (allNodes.map (attShare f e)).sum
/-- Attribute frame `f`: shares to the sessions, the remainders to the unattributed registers (R120, R121). -/
def attributeFrame (f : AttrFrame) (b : Block) : Block :=
  let b := forAll allNodes (fun n b =>
    if f.weights.getD n.val 0 = 0 then b
    else updLegal n (fun c => { c with
      attImp := c.attImp + BitVec.ofNat 96 (attShare f f.eImp n), attExp := c.attExp + BitVec.ofNat 96 (attShare f f.eExp n)
      attUnproven := c.attUnproven || f.faulted, attRange := c.attRange || f.clipped }) b) b
  let rest := fun (e : Acc) (r : Register) =>
    ({ acc := r.acc + BitVec.ofNat 96 (e.toNat - attSum f e), range := r.range || f.clipped, unproven := r.unproven || f.faulted } : Register)
  { b with acc := { b.acc with
    unattImp := rest f.eImp b.acc.unattImp, unattExp := rest f.eExp b.acc.unattExp } }
/-- Add the feeder increments of the sample stamped `t` to its frame; the last sample of the frame attributes it (R119). -/
def frameStep (t : U64) (b : Block) : Block :=
  let imp := ((List.finRange 2).map fun f => max (feederNet b f) 0).sum
  let exp := ((List.finRange 2).map fun f => max (-(feederNet b f)) 0).sum
  let cl := (List.finRange 2).any fun f => (feederPairs f).any fun p => (pairOf b p).clipped
  let fa := (List.finRange 2).any (feederFaulted b)
  if t.toNat < gAc then attributeFrame { eImp := amount imp, eExp := amount exp, clipped := cl, faulted := fa } b
  else
    let B := frameOf (t - BitVec.ofNat 64 gAc)
    let b := latchFrame B b
    let add := fun (f : AttrFrame) => if f.base = B then
        { f with eImp := f.eImp + amount imp, eExp := f.eExp + amount exp, clipped := f.clipped || cl, faulted := f.faulted || fa } else f
    let b := { b with acc := { b.acc with frames := b.acc.frames.map add } }
    let due := b.acc.frames.filter fun f => decide (f.base.toNat + tFrame ≤ t.toNat + tSample - gAc)
    forAll due attributeFrame { b with acc := { b.acc with frames := b.acc.frames.filter fun f => !decide (f.base.toNat + tFrame ≤ t.toNat + tSample - gAc) } }

/-! ### Closing an interval (R357, R358) -/

/-- The INTERVAL readings of the interval that closes with the sample stamped `t`. -/
def intervalReadings (x : Closing) (b : Block) : Block :=
  let extra : U8 := BitVec.ofNat 8 (32 * b2n x.split + 64 * b2n x.late)
  let utc := if x.split then some x.oldTime.toNat else none
  let b := takeReading { kind := 3, stamp := x.stamp, entries := hubEntries b, extra := extra, utc := utc } b
  forAll allNodes (fun n b =>
    if (legalOf b n).eligible then
      updLegal n (fun c => { c with eligible := false })
        (takeReading { kind := 3, connector := BitVec.ofNat 8 n.val, stamp := x.stamp, entries := connEntries b n, extra := extra, utc := utc } b)
    else b) b
/-- What waits for the sample stamped `t`, now applied: the interval closes, a CALENDAR or CLOCK reading follows. -/
def closeAt (t : U64) (b : Block) : Block :=
  match b.slt.closing with
  | none => b
  | some x =>
    if t.toNat < x.stamp.toNat then b
    else
      let x := { x with stamp := t }
      let b := updSlt (fun s => { s with closing := none }) b
      let b := if x.interval then irq 417 (updSlt (fun s => { s with intStart := t + BitVec.ofNat 64 tSample }) (intervalReadings x b)) else b
      let b := if x.split then takeReading { kind := 5, stamp := t, entries := hubTotals b, utc := some x.oldTime.toNat, utcNew := x.newTime.toNat } b else b
      if x.activated then
        takeReading { kind := 6, stamp := t, entries := hubTotals b ++ [plainEntry (itemId 0xF 0 0xFF 0x24) (calN b.slt.calActive 4 4)] } b
      else b
/-- What has been noted for the same or a later instant is joined into one closing. -/
def noteClosing (x : Closing) (b : Block) : Block :=
  updSlt (fun s => { s with closing := some (match s.closing with
    | none => x
    | some y => { stamp := x.stamp, interval := x.interval || y.interval, activated := x.activated || y.activated, late := x.late || y.late
                  split := x.split || y.split, oldTime := if x.split then x.oldTime else y.oldTime, newTime := if x.split then x.newTime else y.newTime }) }) b
/-- Switch the tariff for samples stamped after `a` (R350): source 416 when it changes. -/
def switchTariff (a : U64) (T : BitVec 4) (b : Block) : Block :=
  let change := decide (T ≠ b.slt.tariff)
  onlyIf change (irq 416) (updSlt (fun s => { s with
    oldTariff := if s.switchAt = some a then s.oldTariff else s.tariff, oldCal := if s.switchAt = some a then s.oldCal else s.calActive, switchAt := some a, tariff := T }) b)
/-- Legal time has changed from `old` seconds to the present sources (R358): a change by more than clock_limit splits the
interval at the first sample instant from now; boundaries are planned anew in any case. -/
def clockChanged (hadTime : Bool) (old : Int) (b : Block) : Block :=
  let new : Int := if timeSource b = 0 then 0 else legalTicks b (now b) / tSec
  if hadTime ∧ b.slt.running ∧ b.slt.clockLimit.toNat < (new - old).natAbs then
    let a := BitVec.ofNat 64 (sampleAtOrAfter (now b).toNat)
    let b := noteClosing { stamp := a, interval := true, split := true, oldTime := BitVec.ofInt 64 old, newTime := BitVec.ofInt 64 new } b
    let b := switchTariff a (BitVec.ofNat 4 (inForceAt b a).tariff) b
    let b := updSlt (fun s => { s with clockAdjCnt := satInc s.clockAdjCnt, timeSrc := BitVec.ofNat 2 (timeSource b) }) b
    replan (legalLog 0x0022 wCarr (leBytes 8 (BitVec.ofInt 64 old).toNat ++ leBytes 8 (BitVec.ofInt 64 new).toNat ++ [BitVec.ofNat 8 (timeSource b)]) (irq 419 b))
  else replan (updSlt (fun s => { s with timeSrc := BitVec.ofNat 2 (timeSource b) }) b)

/-! ### The rows -/

/-- The increments of the instant `t` reach every accumulator (R115, R349). -/
def applyNow (t : U64) (b : Block) : Block :=
  let T := tariffAt b t
  let cal := calendarAt b t
  let old := b
  let b := forAll (List.finRange 2) applyFeeder (forAll allNodes applyNodeEnergy b)
  let b := energyCheck old (forAll allNodes (applySession T cal) b)
  let b := frameStep t b
  let b := { b with acc := { b.acc with published := none, applied := t, priced := some t } }
  feedBoundary (closeAt t (noteUnproven old b))
/-- SALTERN_APPLY: 24,000 ticks after the published instant, while Saltern runs. -/
def salternApply (b : Block) : Block :=
  match b.acc.published with
  | none => b
  | some t => if b.slt.running then afterTicks t 24000 (applyNow t) b else b
/-- Cost of t_stop at the present power and price (R374), in credit, rounded up. -/
def stopCost (b : Block) (t : U64) (n : Fin 16) : Nat :=
  let x := incOf b (nodePair n)
  let c := x.toNat * priceDel (calendarAt b t) (tariffAt b t) * (3125 * b.bri.tStop.toNat)
  (c + 1000 * 2 ^ 32 - 1) / (1000 * 2 ^ 32)
/-- Move `x` credit from the ledger of connector `n` into spent. -/
def takeDebit (n : Fin 16) (x : U64) (b : Block) : Block :=
  let b := updLedger n (fun l => { l with balance := l.balance - x, debited := l.debited + x, epochDebit := l.epochDebit + x }) b
  { b with bri := { b.bri with spent := b.bri.spent + x } }
/-- Brine's debit for the session of connector `n` at the sample stamped `t` (R373, R374). -/
def debit (t : U64) (n : Fin 16) (b : Block) : Block :=
  let l := ledgerOf b n
  if l.state = 0 ∨ (legalOf b n).mode ≠ 3 then b
  else
    let due := costDue (legalOf b n)
    let rise := due - l.due.toNat
    let take := min rise l.balance.toNat
    let miss := rise - take
    let r := if take = 0 then (b, true) else transfer (takeDebit n (BitVec.ofNat 64 take)) b
    if !r.2 then r.1
    else
      let b := updLedger n (fun l => { l with due := BitVec.ofNat 64 due, uncovered := l.uncovered + BitVec.ofNat 64 miss, uncoveredFlag := l.uncoveredFlag || decide (0 < miss) }) r.1
      let b := onlyIf (decide (0 < miss)) (irq 433) b
      let l := ledgerOf b n
      if l.state = 1 ∧ l.balance.toNat < stopCost b t n then
        stopSession n .creditExhausted (irq 430 (updLedger n (fun l => { l with state := 2 }) b))
      else b
/-- BRINE_PUBLISH (R373): the debits of the applied instant. -/
def brinePublish (b : Block) : Block :=
  match b.acc.priced with
  | none => b
  | some t =>
    if b.bri.running then afterTicks t 36000 (fun b => cutComplete t (forAll allNodes (debit t) { b with acc := { b.acc with priced := none } })) b
    else b

/-! ### Registers (R117, R128) and their commands -/

/-- Register identities of MET_ENERGY_READ (R130). -/
def energyReg (b : Block) (id : Nat) : Option Register :=
  let e := b.acc
  if h : id < 16 then some (vget e.nodeDel ⟨id, h⟩)
  else if h : 16 ≤ id ∧ id < 32 then some (vget e.nodeRec ⟨id - 16, by omega⟩)
  else if h : 32 ≤ id ∧ id < 34 then some (vget e.fdrImp ⟨id - 32, by omega⟩)
  else if h : 34 ≤ id ∧ id < 36 then some (vget e.fdrExp ⟨id - 34, by omega⟩)
  else match id with
    | 0x24 => some e.hubDel | 0x25 => some e.hubRec | 0x26 => some e.unattImp | 0x27 => some e.unattExp | _ => none
/-- MET_ENERGY_READ (R130). -/
def metEnergyRead (m : Fin 4) (b : Block) : Block :=
  match energyReg b (rB b m 0).toNat with
  | none => refuse m 0x030E b
  | some r => ok m (leBytes 12 r.acc.toNat ++ [BitVec.ofNat 8 (b2n r.range + 2 * b2n r.unproven), 0, 0, 0] ++ b64 b.acc.applied) b

/-- SALTERN_APPLY (R115). -/
def execSalternApply (s : State) : Result := s.run salternApply
/-- BRINE_PUBLISH (R373). -/
def execBrinePublish (s : State) : Result := s.run brinePublish
/-- MET_ENERGY_READ (R130). -/
def execMetEnergyRead (m : Fin 4) (s : State) : Result := s.run (command m 0x0323 .carr (metEnergyRead m))

end Sys2Proof.Machine
end

