-- ==== Sys2Proof/Machine/Fit.lean ====
section
/-! DEFINITION. The fits of an insulation slot (10_insulation_earth.md R237, R241, R242), in fixed-point numbers of 64 fraction bits: the
response f(t), the golden-section search on log(R_F), and the joint fit of R_F and C_n (DESIGN CHOICE of the arithmetic, log entry 18). -/

namespace Sys2Proof.Machine

/-- 1 in the fixed-point numbers of the fits. -/
def fitOne : Nat := 2 ^ 64
/-- e^(-x) for x of 64 fraction bits: the series of x / 256, then eight squarings. -/
def expNeg (x : Nat) : Nat :=
  if 64 * fitOne ≤ x then 0
  else
    let y := x / 256
    let s := ((List.range 16).reverse).foldl (fun h k => fitOne - y * h / ((k + 1) * fitOne)) fitOne
    (List.range 8).foldl (fun e _ => e * e / fitOne) s
/-- R_S = R_M + r_ext in ohm, from r_ext in kΩ (R236). -/
def seriesOhm (rx : Nat) : Nat := 47000 + 1000 * rx
/-- exp(-t/τ) with τ = C_n R_S R_F / (R_S + R_F), for a time in ticks, C_n in pF and resistances in ohm (R237). -/
def decayAt (rs rf c t : Nat) : Nat := if c = 0 then 0 else expNeg (t * 2000 * (rs + rf) * fitOne / (3 * c * rs * rf))
/-- f(t) / (σU) of R237, per ohm. -/
def responseAt (rs rf c t : Nat) : Nat :=
  let late := fitOne / (rs + rf)
  late + (fitOne / rs - late) * decayAt rs rf c t / fitOne
/-- The rail in use at a sample, its magnitude in mV. -/
def railUsed (plus : Bool) (x : ImdSample) : Nat := if plus then x.pos else x.neg
/-- σ as a factor. -/
def sigma (plus : Bool) : Int := if plus then 1 else -1
/-- The time of sample j after the start of its slot, in ticks, for a period code (R238). -/
def sampleTime (p j : Nat) : Nat := (187500 + 375000 * j) * 2 ^ p
/-- y[j] - f(t[j]) of R241, times 800 R_M in the units of the samples. -/
def residual (p rs rf c : Nat) (d : Bool × ImdReading) (j : Nat) (x : ImdSample) : Int :=
  let off := (d.2.offs.toList.map (·.ball)).sum
  let u := (d.2.samples.toList.map (railUsed d.1)).sum
  100 * (8 * (sigma d.1 * railUsed d.1 x - x.ball) + off) * fitOne - sigma d.1 * 376000 * (u : Int) * responseAt rs rf c (sampleTime p j)
/-- The sum of squares that the fit minimises, over some slots. -/
def fitCost (p rx c : Nat) (l : List (Bool × ImdReading)) (rf : Nat) : Nat :=
  (l.map fun d => ((d.2.samples.toList.zip (List.range 100)).map fun e => (residual p (seriesOhm rx) rf c d e.2 e.1).natAbs ^ 2).sum).sum

/-- Golden-section search: the interval left after some steps. -/
def golden (f : Nat → Nat) : Nat → Nat → Nat → Nat × Nat
  | 0, lo, hi => (lo, hi)
  | k + 1, lo, hi =>
    let w := (hi - lo) * 618033988749895 / 1000000000000000
    let a := hi - w
    let b := lo + w
    if f a ≤ f b then golden f k lo b else golden f k a hi
/-- log(50 MΩ / 10 kΩ), 40 fraction bits. -/
def logSpan : Nat := 9364752949976
/-- R_F in ohm at a place of the search. -/
def ohmAt (x : Nat) : Nat := min 50000000 (10000 * fitOne / expNeg (x * 2 ^ 24))
/-- R_F with C_n fixed, in pF (R241): 19 steps bring 5,000 to 1 within 0.1 %. An end that the search never leaves is the best fit. -/
def fitOhm (p rx c : Nat) (l : List (Bool × ImdReading)) : Nat :=
  let r := golden (fun x => fitCost p rx c l (ohmAt x)) 19 0 logSpan
  if r.1 = 0 then 10000 else if r.2 = logSpan then 50000000 else ohmAt ((r.1 + r.2) / 2)
/-- R_F in ohm of one slot, with C_n in nF (R241). -/
def insFit (p rx c : Nat) (d : Bool × ImdReading) : Nat := fitOhm p rx (1000 * c) [d]
/-- R_F in ohm and C_n in nF of the slots of a baseline (R242): the golden section on C_n from 0 to 10 µF, with the best R_F of each. -/
def insFitBoth (p rx : Nat) (l : List (Bool × ImdReading)) : Nat × Nat :=
  let r := golden (fun c => fitCost p rx c l (fitOhm p rx c l)) 30 0 10000000
  let c := if r.1 = 0 then 0 else if r.2 = 10000000 then 10000000 else (r.1 + r.2) / 2
  (fitOhm p rx c l, (c + 500) / 1000)

end Sys2Proof.Machine
end

