-- ==== Sys2Proof/Machine/Insulation.lean ====
section
/-! DEFINITION. Insulation and residual-current monitoring (10_insulation_earth.md R241 to R258). -/

namespace Sys2Proof.Machine

/-- The residual-current state of feeder `f`. -/
def rcmOf (b : Block) (f : Fin 2) : Rcm := vget b.rcm f
/-- Change it. -/
def updRcm (f : Fin 2) (g : Rcm → Rcm) (b : Block) : Block := { b with rcm := vupd b.rcm f g }

/-- Node `n` baselines, is stale, is monitored or is inactive (R256 IMD_NODE_STAT.state). -/
def imdState (b : Block) (n : Fin 16) : Nat :=
  if !imdActive b n then 0 else if (imdOf b n).stale then 3 else if (imdOf b n).baselining then 1 else 2

/-- U_ins in V (R244). -/
def uIns (b : Block) (n : Fin 16) : Nat :=
  let u := (imdOf b n).uTest.toNat
  if (sessOf b n).phase.mayClose ∧ u ≠ 0 then u else 1000
/-- R_fault in ohm (R244). -/
def rFault (b : Block) (n : Fin 16) : Nat := b.imdG.faultThr.toNat * uIns b n
/-- R_warn in ohm. -/
def rWarn (b : Block) (n : Fin 16) : Nat := b.imdG.warnThr.toNat * uIns b n

/-- The period that has been waiting takes effect at its instant: the nodes are re-baselined from there (R248, R258). -/
def periodStep (b : Block) : Block :=
  match b.imdG.pendingPeriod with
  | some (q, s) =>
    if s.toNat ≤ (now b).toNat then
      forAll allNodes (rebaseAt s) (updImdG (fun g => { g with period := q, pendingPeriod := none }) b)
    else b
  | none => b

/-! ### Measurements (R241, R242) -/

/-- All samples of a slot. -/
def slotSamples (x : ImdReading) : List ImdSample := x.offs.toList ++ x.samples.toList
/-- A sample at or beyond 30 V. -/
def clipped30 (x : ImdReading) : Bool := (slotSamples x).any fun v => decide (30000 ≤ v.ball.natAbs)
/-- I_off in nA: the mean of -V / 47.0 kΩ over the offset samples; the fraction of 1 nA is cut (DESIGN CHOICE, log entry 21). -/
def offsetCurrent (x : ImdReading) : Int := Int.tdiv (-((x.offs.toList.map (·.ball)).sum * 1000)) (47 * 8)
/-- A rail of this magnitude lies outside 20 V to 28 V. -/
def railOut (v : Nat) : Bool := decide (v < 20000 ∨ 28000 < v)
/-- A rail lay outside its range at some sample of the slot. -/
def railBad (x : ImdReading) : Bool := (slotSamples x).any fun v => railOut v.pos || railOut v.neg

/-- Selector actions of node `n` that have fired and are not confirmed, by their fire times (R249). -/
def selectorsPending (b : Block) (n : Fin 16) : List U64 :=
  b.slu.ho.toList.filterMap fun h => match h with
    | some x => if (x.stage == .open && x.from_ == some n) || (x.stage == .close && x.to_ == some n) then x.acted else none
    | none => none
/-- The node's pair is changing state since these instants. -/
def pairPending (b : Block) (n : Fin 16) : List U64 := [(nodeOf b n).closeAt, (nodeOf b n).openAt].filterMap id
/-- The slot that started at `s` is discarded (R249). -/
def slotDiscarded (b : Block) (n : Fin 16) (s : ImdSlot) (x : ImdReading) : Bool :=
  let p := periodAt b.imdG s.start.toNat
  let e := s.start.toNat + injLen p
  let a := s.start.toNat - offLen p
  !s.fired || railBad x || (selectorsPending b n ++ pairPending b n).any (fun t => decide (t.toNat ≤ e)) ||
    (imdOf b n).disturb.any fun d => decide (d.1.toNat ≤ e ∧ a ≤ d.2.toNat)

/-- The insulation fault safety function (R246, R273). -/
def insulationFault (n : Fin 16) (b : Block) : Block :=
  contain { cause := 6, scope := .node n, mode := .ramped, base := 1, lock := true, reason := .safety } b

/-- The fault alarm of a valid measurement of `r` ohm (R245): set by one below R_fault, cleared by two at 1.2 R_fault. -/
def faultAlarm (n : Fin 16) (r : Nat) (b : Block) : Block :=
  let x := imdOf b n
  if r < rFault b n then
    let b1 := updImd n (fun x => { x with fault := true, faultSeen := true, faultOkRun := 0 }) b
    if x.fault then b1 else insulationFault n (irq 257 b1)
  else
    let run := if 12 * rFault b n ≤ 10 * r then x.faultOkRun + 1 else 0
    if x.fault ∧ 2 ≤ run then irq 257 (updImd n (fun x => { x with fault := false, faultOkRun := 0 }) b)
    else updImd n (fun x => { x with faultOkRun := run }) b

/-- A valid measurement joins the counts of the warning; where warnings are decided, two below R_warn set it and two at 1.2 R_warn clear
it. -/
def warnAlarm (n : Fin 16) (decided : Bool) (r : Nat) (b : Block) : Block :=
  let x := imdOf b n
  let lo := if r < rWarn b n then x.warnRun + 1 else 0
  let hi := if 12 * rWarn b n ≤ 10 * r then x.warnOkRun + 1 else 0
  let on := if !decided then x.warn else if x.warn then !decide (2 ≤ hi) else decide (2 ≤ lo)
  onlyIf (on != x.warn) (irq 256)
    (updImd n (fun x => { x with warn := on, warnSeen := x.warnSeen || on, warnRun := lo, warnOkRun := hi }) b)

/-- A cable check ends: 2 passed, 3 failed (R247). -/
def cableCheckEnd (n : Fin 16) (r : BitVec 2) (b : Block) : Block := irq 261 (updImd n (fun x => { x with cableCheck := r }) b)

/-- A valid measurement below R_fault fails a running cable check (R247), before the fault alarm ends the session. -/
def cableCheckFails (n : Fin 16) (r : Nat) (b : Block) : Block :=
  if (imdOf b n).cableCheck = 1 ∧ r < rFault b n then cableCheckEnd n 3 b else b
/-- A baseline completes without a fault: a running cable check passes (R247); the session moves to PRECHARGE (R18). -/
def cableCheckStep (n : Fin 16) (r : Nat) (done : Bool) (b : Block) : Block :=
  if (imdOf b n).cableCheck ≠ 1 then b
  else if done then
    let w := decide (r < rWarn b n) && !(imdOf b n).warn
    let b := onlyIf w (fun b => irq 256 (updImd n (fun x => { x with warn := true, warnSeen := true }) b)) b
    let b := cableCheckEnd n 2 b
    if (sessOf b n).phase = .cableCheck then enterPhase n .precharge b else b
  else b

/-- A valid measurement: the fit, its publication, the alarms (R241 to R247). -/
def imdMeasure (n : Fin 16) (s : ImdSlot) (x : ImdReading) (b : Block) : Block :=
  let i := imdOf b n
  let p := periodAt b.imdG s.start.toNat
  let rx := b.imdG.rExt.toNat
  let d := (polarity p s.start.toNat, x)
  let ready := i.baselining && decide (i.blAt.toNat < s.start.toNat) &&
    (i.cableCheck != 1 || (match i.uAt with | some u => decide (u.toNat < s.start.toNat) | none => false))
  let got := if ready then i.blSlots ++ [d] else i.blSlots
  let done := decide (4 ≤ got.length)
  let both := insFitBoth p rx got
  let c := if done then both.2 else i.cN.toNat
  let r0 := if done then both.1 else insFit p rx c d
  let below := clipped30 x || r0 == 10000
  let r := if below then 0 else r0
  let low := decide (100000 * 2 ^ p < c * (47 + rx))
  let b := updImd n (fun i => { i with
    rF := if below then 0 else if r0 = 50000000 then 0xFFFFF else BitVec.ofNat 20 (r0 / 1000)
    valid := true, cN := BitVec.ofNat 16 c, measured := if done then true else i.measured
    provisional := !(done || i.measured), lowConf := low, discards := 0, baselined := i.baselined || done
    lowTold := low && (i.lowTold || i.baselined || done), iOff := offsetCurrent x, lastAt := now b
    baselining := i.baselining && !done, blSlots := if done then [] else got
    restarts := if done then 0 else i.restarts }) b
  let decideWarn := done || !i.baselining || i.blLate
  let b := onlyIf done (fun b => irq 258 (updImd n (fun i => { i with blLate := false }) b)) b
  let b := onlyIf (low && !i.lowTold && (i.baselined || done)) (irq 263) b
  let b := onlyIf i.stale (fun b => irq 260 (updImd n (fun i => { i with stale := false }) b)) b
  let b := faultAlarm n r (cableCheckFails n r b)
  cableCheckStep n r done (warnAlarm n decideWarn r b)

/-- The rails as measured at the present instant or slot (R236, R250, R256): a rail out of its range in two consecutive cycles raises source
262. -/
def railSee (bad : Bool) (pos neg : Nat) (b : Block) : Block :=
  let g := b.imdG
  let L := cycleLen (periodAt g (now b).toNat)
  let k := (now b).toNat / L * L
  let run := match g.railBadAt with
    | some t => if t.toNat = k then g.railRun else if t.toNat + L = k then g.railRun + 1 else 1
    | none => 1
  let b := updImdG (fun g => { g with railPos := satNat 16 pos, railNeg := satNat 16 neg }) b
  if bad then onlyIf (decide (g.railBadAt ≠ some (BitVec.ofNat 64 k) ∧ run = 2)) (irq 262) (updImdG (fun g => { g with railBadAt := some (BitVec.ofNat 64 k), railRun := run }) b)
  else b
/-- The result of the slot that ends now (R241, R249). -/
def imdForm (n : Fin 16) (s : ImdSlot) (x : ImdReading) (b : Block) : Block :=
  let bad := slotDiscarded b n s x
  let last := x.samples[99]
  let b := updImd n (fun i => { i with slots := i.slots.tail, disturb := [] }) (periodStep b)
  let b := railSee (railBad x) last.pos last.neg b
  let b := if bad then
      updImdG (fun g => { g with discardCnt := satInc g.discardCnt })
        (updImd n (fun i => { i with valid := false, discards := satInc i.discards }) b)
    else imdMeasure n s x b
  driveFeed b

/-- IMD_RESULT (R241): 1 ms after the injection of the slot whose result is due. -/
def imdResult (n : Fin 16) (x : ImdReading) (b : Block) : Block :=
  match (imdOf b n).slots with
  | [] => b
  | s :: _ => atInstant (s.start.toNat + injLen (periodAt b.imdG s.start.toNat) + tMs) (imdForm n s x) b

/-- BASELINE_LATE (R249): 20 cycles after the first event. -/
def baselineLate (n : Fin 16) (b : Block) : Block :=
  let x := imdOf b n
  if x.baselining && !x.blLate then
    afterTicks x.blFrom (20 * cycleLen b.imdG.period.toNat) (fun b => irq 259 (updImd n (fun x => { x with blLate := true }) b)) b
  else b

/-- The end of the sixth whole cycle without a valid measurement since the cycle of the last one, or since the node became active. -/
def staleFrom (b : Block) (n : Fin 16) (t : U64) : Nat :=
  let L := cycleLen (periodAt b.imdG (now b).toNat)
  (max t.toNat (imdOf b n).lastAt.toNat / L + 7) * L
/-- Node `n` becomes stale. -/
def goStale (n : Fin 16) (b : Block) : Block :=
  let b := irq 260 (updImd n (fun x => { x with stale := true }) b)
  if (sessOf b n).phase.isOpen then softFault (.node n) 1 b else b
/-- IMD_STALE (R250): 6 consecutive cycles without a valid measurement. -/
def imdStale (n : Fin 16) (b : Block) : Block :=
  let b := noteActive b
  match (imdOf b n).activeFrom with
  | some t => if (imdOf b n).stale then b else atInstant (staleFrom b n t) (goStale n) b
  | none => b

/-- IMD_RAIL_FAULT (R250): the rails as measured in the present cycle; the second cycle running with one out of range raises source 262. -/
def imdRailFault (pos neg : U16) (b : Block) : Block := railSee (railOut pos.toNat || railOut neg.toNat) pos.toNat neg.toNat b

/-- CABLE_CHECK_TIMEOUT (R247): U_test not reached 5 s after entry, or no pass after 20 s. -/
def cableCheckTimeout (n : Fin 16) (b : Block) : Block :=
  let x := imdOf b n
  if x.cableCheck = 1 then
    afterTicks x.checkFrom ((if x.uAt.isNone then 5 else 20) * tSec) (fun b => stopSession n .deviceFault (cableCheckEnd n 3 b)) b
  else b

/-! ### Residual current (R252 to R255) -/

/-- A trip of feeder `f` (R253): latched, source 265, and a hub safe stop, which the trip of a test does not cause (R255). -/
def rcmTrip (f : Fin 2) (test : Bool) (b : Block) : Block :=
  let b := irq 265 (updRcm f (fun r => { r with trip := true }) b)
  if test then b
  else contain { cause := 7, scope := .hub, mode := .hubStop, base := 3, lock := true, reason := .safety } b
/-- A test of feeder `f` runs. -/
def rcmTesting (b : Block) (f : Fin 2) : Bool := match b.rcmTest with | some t => t.feeder == f | none => false

/-- Clear the sums of a block. -/
def Rcm.fresh (r : Rcm) : Rcm := { r with n := 0, sum := 0, sumSq := 0, clip := false, lossNow := false }

/-- The end of a block (R252), with its part of a loss of the measurement (R254). -/
def rcmBlock (f : Fin 2) (b : Block) : Block :=
  let r := rcmOf b f
  let rms := isqrt (r.sumSq * 1000000 / (r.n * 2 ^ 298))
  let dc := Int.tdiv (r.sum * 1000) (r.n * 2 ^ 149)
  let byRms := decide (r.n * r.tripRms.toNat ^ 2 * 2 ^ 298 ≤ r.sumSq * 1000000)
  let dcRun := if r.n * r.tripDc.toNat * 2 ^ 149 ≤ r.sum.natAbs * 1000 then r.dcRun + 1 else 0
  let trip := byRms || r.clip || decide (2 ≤ dcRun)
  let w := r.warnRms.toNat
  let high := decide (w ≠ 0 ∧ r.n * w ^ 2 * 2 ^ 298 ≤ r.sumSq * 1000000)
  let quiet := decide (r.sumSq * 100000000 < r.n * (9 * w) ^ 2 * 2 ^ 298)
  let b := updRcm f (fun r => { r.fresh with
    iRms := satNat 16 rms, iDc := satInt 16 dc, maxRms := satNat 16 (max r.maxRms.toNat (min rms 65535))
    lostRun := if r.lossNow then r.lostRun + 1 else 0, lost := r.lost && r.lossNow, tripping := trip, dcRun := dcRun
    warnRun := if high then r.warnRun + 1 else 0, lowRun := if quiet then r.lowRun + 1 else 0 }) b
  let b := onlyIf (r.lost && !r.lossNow) (irq 266) b
  let b := match b.rcmTest with
    | some t => if t.feeder = f ∧ byRms ∧ t.tripAt = none ∧ t.start.toNat ≤ (now b).toNat then { b with rcmTest := some { t with tripAt := some (now b) } } else b
    | none => b
  onlyIf (trip && !r.tripping) (rcmTrip f (rcmTesting b f)) b

/-- RCM_BLOCK_END: after the last sample of an AC block has been published. -/
def rcmBlockEnd (f : Fin 2) (b : Block) : Block :=
  let r := rcmOf b f
  if r.n = 0 ∨ (b.met.stamp.toNat + tSample) % 30000000 ≠ 0 then b else rcmBlock f b

/-- RCM_WARNING (R252): 50 blocks at or above warn_rms set it, 50 below 0.9 warn_rms clear it. -/
def rcmWarning (f : Fin 2) (b : Block) : Block :=
  let r := rcmOf b f
  if !r.warn && decide (50 ≤ r.warnRun) then irq 264 (updRcm f (fun r => { r with warn := true }) b)
  else if r.warn && decide (50 ≤ r.lowRun) then irq 264 (updRcm f (fun r => { r with warn := false }) b)
  else b

/-- RCM_LOST (R254): 10 blocks without the measurement act as a trip. -/
def rcmLost (f : Fin 2) (b : Block) : Block :=
  let r := rcmOf b f
  if !r.lost && decide (10 ≤ r.lostRun) then rcmTrip f false (irq 266 (updRcm f (fun r => { r with lost := true }) b)) else b

/-- A residual-current test ends (R255). -/
def rcmTestFinish (t : RcmTest) (b : Block) : Block :=
  let time := match t.tripAt with | some a => a.toNat - t.start.toNat | none => 0
  let good := t.tripAt.isSome && decide (time ≤ 450000000)
  let b := onlyIf (!t.off) (hsEntry 130 t.channel.val 2 (ahead b fwLead)) { b with rcmTest := none }
  let b := irq 267 (updRcm t.feeder (fun r => { r with testFail := !good, tripping := false }) b)
  let b := cmdLog t.mbx (if good then 0 else 0x0806) b
  if good then ok t.mbx ([1, 0, 0, 0] ++ leBytes 4 (time / tUs)) b else refuse t.mbx 0x0806 b

/-- The duration of a test is over: the winding goes off; the test has failed unless a trip may still be decided within 300 ms. -/
def rcmTestOff (t : RcmTest) (b : Block) : Block :=
  if t.start.toNat + 450000000 ≤ t.until_.toNat then rcmTestFinish t b
  else hsEntry 130 t.channel.val 2 (ahead b fwLead) { b with rcmTest := some { t with off := true } }
/-- RCM_TEST_END: at the trip decision; else after the duration, and then 300 ms after the winding was switched on. -/
def rcmTestEnd (b : Block) : Block :=
  match b.rcmTest with
  | none => b
  | some t =>
    if t.tripAt.isSome then rcmTestFinish t b
    else if t.off then atInstant (t.start.toNat + 450000000) (rcmTestFinish t) b
    else atInstant t.until_.toNat (rcmTestOff t) b

/-- The residual measurements and insulation allow admission on connector `n` (R246, R250, R254, R255). -/
def insulationAdmits (b : Block) (n : Fin 16) : Bool :=
  !(imdOf b n).fault && !(imdOf b n).stale && b.rcm.toList.all fun r => !r.lost && !r.testFail

/-! ### Registers (R256) -/

/-- The number whose bit `n` is a predicate of node `n`. -/
def nodeBits (f : Fin 16 → Bool) : Nat := bitsNat (allNodes.map f)
/-- IMD_R(n). -/
def imdRWord (x : ImdNode) : U32 := reg32 [(0, x.rF.toNat), (20, b2n x.valid), (21, b2n x.provisional), (22, b2n x.lowConf)]
/-- IMD_C(n). -/
def imdCWord (x : ImdNode) : U32 := reg32 [(0, x.cN.toNat), (16, b2n x.measured)]
/-- IMD_U(n). -/
def imdUWord (b : Block) (n : Fin 16) : U32 := reg32 [(0, uIns b n), (16, (imdOf b n).uTest.toNat)]
/-- IMD_NODE_STAT(n). -/
def imdStatWord (b : Block) (n : Fin 16) : U32 :=
  let x := imdOf b n
  reg32 [(0, imdState b n), (2, b2n x.warn), (3, b2n x.fault), (4, x.cableCheck.toNat), (8, x.discards.toNat), (16, x.restarts.toNat)]
/-- IMD_NET. -/
def imdNetWord (g : ImdGlobal) : U32 := reg32 [(0, g.rExt.toNat), (16, g.cMod.toNat), (24, g.cConn.toNat)]
/-- IMD_THR. -/
def imdThrWord (g : ImdGlobal) : U32 := reg32 [(0, g.warnThr.toNat), (16, g.faultThr.toNat)]
/-- IMD_RCM_STAT. -/
def rcmStatWord (b : Block) : U32 :=
  let f := fun (g : Rcm → Bool) => bitsNat (b.rcm.toList.map g)
  reg32 [(0, f (·.trip)), (2, f (·.warn)), (4, f (·.lost)), (6, b2n b.rcmTest.isSome), (7, f (·.testFail))]
/-- IMD_RCM_VAL(f). -/
def rcmValWord (r : Rcm) : U32 := reg32 [(0, r.iRms.toNat), (16, r.iDc.toNat)]

/-- The read value of word `a` of the IMD block. -/
def imdWord (b : Block) (a : Nat) : U32 :=
  if a = 0x700 then reg32 [(0, nodeBits fun n => (imdOf b n).force), (16, periodAt b.imdG (now b).toNat)]
  else if a = 0x701 then reg32 [(0, nodeBits (imdActive b)), (16, nodeBits fun n => (imdOf b n).baselining)]
  else if a = 0x702 then reg32 [(0, nodeBits fun n => (imdOf b n).warn), (16, nodeBits fun n => (imdOf b n).fault)]
  else if a = 0x703 then reg32 [(0, nodeBits fun n => (imdOf b n).warnSeen), (16, nodeBits fun n => (imdOf b n).faultSeen)]
  else if a = 0x704 then imdNetWord b.imdG
  else if a = 0x705 then imdThrWord b.imdG
  else if a = 0x706 then b.imdG.discardCnt
  else if a = 0x707 then reg32 [(0, b.imdG.railPos.toNat), (16, b.imdG.railNeg.toNat)]
  else if h : 0x710 ≤ a ∧ a ≤ 0x71F then imdRWord (imdOf b ⟨a - 0x710, by omega⟩)
  else if h : 0x720 ≤ a ∧ a ≤ 0x72F then imdCWord (imdOf b ⟨a - 0x720, by omega⟩)
  else if h : 0x730 ≤ a ∧ a ≤ 0x73F then imdUWord b ⟨a - 0x730, by omega⟩
  else if h : 0x740 ≤ a ∧ a ≤ 0x74F then imdStatWord b ⟨a - 0x740, by omega⟩
  else if h : 0x760 ≤ a ∧ a ≤ 0x761 then
    let r := rcmOf b ⟨a - 0x760, by omega⟩
    reg32 [(0, r.tripRms.toNat), (16, r.warnRms.toNat)]
  else if h : 0x762 ≤ a ∧ a ≤ 0x763 then (rcmOf b ⟨a - 0x762, by omega⟩).tripDc.setWidth 32
  else if h : 0x764 ≤ a ∧ a ≤ 0x765 then rcmValWord (rcmOf b ⟨a - 0x764, by omega⟩)
  else if a = 0x766 then rcmStatWord b
  else 0

/-- A write to word `a` of the IMD block: the two W1C registers. -/
def imdWrite (a : Nat) (v : U32) (b : Block) : Block :=
  if a = 0x703 then
    { b with imd := vmapIdx b.imd fun n x => { x with
        warnSeen := x.warnSeen && !v.getLsbD n.val, faultSeen := x.faultSeen && !v.getLsbD (16 + n.val) } }
  else if a = 0x766 then { b with rcm := vmapIdx b.rcm fun f r => { r with trip := r.trip && !v.getLsbD f.val } }
  else b

/-! ### Commands (R258) -/

/-- The node that byte 0 of a request names. -/
def reqNode (b : Block) (m : Fin 4) : Fin 16 := ⟨(rB b m 0).toNat % 16, Nat.mod_lt _ (by decide)⟩
/-- Its range check with status `st`. -/
def nodeCheck (st : Nat) (b : Block) (m : Fin 4) : Nat × Bool := (st, decide ((rB b m 0).toNat < 16))
/-- The feeder that byte 0 names. -/
def reqFeeder (b : Block) (m : Fin 4) : Fin 2 := ⟨(rB b m 0).toNat % 2, Nat.mod_lt _ (by decide)⟩
/-- Its range check. -/
def feederCheck (b : Block) (m : Fin 4) : Nat × Bool := (0x0804, decide ((rB b m 0).toNat < 2))
/-- The nodes of a 16-bit mask. -/
def nodesOf (mask : Nat) : List (Fin 16) := allNodes.filter fun n => bitOf mask n.val

/-- IMD_SET_CONFIG. -/
def imdSetConfig (m : Fin 4) (b : Block) : Block :=
  let p := rN b m 0 1
  let net := rN b m 4 4
  let thr := rN b m 8 4
  let rx := fieldOf net 0 10
  let cm := fieldOf net 16 7
  let wt := fieldOf thr 0 11
  let ft := fieldOf thr 16 9
  checked m [(0x0802, decide (p ≤ 3 ∧ 50 ≤ rx ∧ rx ≤ 1000 ∧ cm ≤ 100 ∧ 100 ≤ wt ∧ wt ≤ 2000 ∧ 100 ≤ ft ∧ ft ≤ 500 ∧ ft < wt)),
      (0x0803, allQuiet b)] (fun b =>
    let b := periodStep b
    let g := b.imdG
    let old := periodAt g (now b).toNat
    let s := multipleFrom 6000000000 ((now b).toNat + 8 * cycleLen old)
    let change := p != old
    let rChange := decide (rx ≠ g.rExt.toNat)
    let b := updImdG (fun g => { g with
      rExt := BitVec.ofNat 10 rx, cMod := BitVec.ofNat 7 cm, cConn := BitVec.ofNat 8 (fieldOf net 24 8)
      warnThr := BitVec.ofNat 11 wt, faultThr := BitVec.ofNat 9 ft
      pendingPeriod := if change then some (BitVec.ofNat 2 p, BitVec.ofNat 64 s) else none }) b
    let b := onlyIf rChange (forAll allNodes rebase) b
    cmdLog m 0 (ok m (b64 (if change then BitVec.ofNat 64 s else now b)) (saveSettings b))) b
/-- IMD_SET_FORCE. -/
def imdSetForce (m : Fin 4) (b : Block) : Block :=
  let mask := rN b m 0 2
  driveFeed (ok m [] (saveSettings { b with imd := vmapIdx b.imd fun n x => { x with force := bitOf mask n.val } }))
/-- IMD_GET_NODE. -/
def imdGetNode (m : Fin 4) (b : Block) : Block :=
  let n := reqNode b m
  let x := imdOf b n
  checked m [nodeCheck 0x0801 b m] (fun b =>
    ok m (b32s [imdStatWord b n, imdRWord x, imdCWord x, imdUWord b n] ++ b64 x.lastAt ++ b32 (BitVec.ofInt 32 x.iOff)) b) b
/-- IMD_REBASELINE. -/
def imdRebaseline (m : Fin 4) (b : Block) : Block := ok m [] (forAll (nodesOf (rN b m 0 2)) rebase b)
/-- RCM_SET_CONFIG. -/
def rcmSetConfig (m : Fin 4) (b : Block) : Block :=
  let tr := rN b m 4 2
  let wr := rN b m 6 2
  let dc := rN b m 8 2
  checked m [feederCheck b m, (0x0802, decide (30 ≤ tr ∧ tr ≤ 3000 ∧ wr < tr ∧ 6 ≤ dc ∧ dc ≤ 1000)), (0x0803, allQuiet b)] (fun b =>
    cmdLog m 0 (ok m [] (saveSettings (updRcm (reqFeeder b m) (fun r => { r with
      tripRms := BitVec.ofNat 16 tr, warnRms := BitVec.ofNat 16 wr, tripDc := BitVec.ofNat 16 dc }) b)))) b
/-- RCM_GET: the largest I_rms is cleared. -/
def rcmGet (m : Fin 4) (b : Block) : Block :=
  checked m [feederCheck b m] (fun b =>
    let f := reqFeeder b m
    let r := rcmOf b f
    ok m (b32 (rcmValWord r) ++ leBytes 4 r.maxRms.toNat ++ [BitVec.ofNat 8 (bitsNat [r.trip, r.warn, r.lost, r.testFail])])
      (updRcm f (fun r => { r with maxRms := 0 }) b)) b
/-- High-side channel `c` is a lock channel of some connector. -/
def isLockChan (b : Block) (c : Nat) : Bool := b.veh.toList.any fun v => v.lockCh.toNat == c || v.unlockCh.toNat == c
/-- High-side channel `c` supplies a contactor coil. -/
def isSupplyChan (b : Block) (c : Nat) : Bool := b.lsw.ls.toList.any fun x => x.supply.toNat == c
/-- RCM_TEST: the winding is switched on through ring 130; the response follows its end. -/
def rcmTestStart (m : Fin 4) (b : Block) : Block :=
  let c := (rB b m 1).toNat
  let d := rN b m 2 2
  checked m [feederCheck b m, (0x0805, decide (c < 40) && !isLockChan b c && !isSupplyChan b c),
      (0x0802, decide (100 ≤ d ∧ d ≤ 500)), (0x0803, allQuiet b)] (fun b =>
    let t := ahead b fwLead
    hsEntry 130 c 1 t { b with rcmTest := some {
      feeder := reqFeeder b m, channel := ⟨c % 40, Nat.mod_lt _ (by decide)⟩, start := t, until_ := t + BitVec.ofNat 64 (d * tMs), mbx := m } }) b
/-- IMD_CLEAR_COUNTS: the node counts of the mask and IMD_DISCARD_CNT. -/
def imdClearCounts (m : Fin 4) (b : Block) : Block :=
  ok m [] (forAll (nodesOf (rN b m 0 2)) (fun n => updImd n fun x => { x with discards := 0, restarts := 0 })
    (updImdG (fun g => { g with discardCnt := 0 }) b))

/-- IMD_RESULT (R241). -/
def execImdResult (n : Fin 16) (x : ImdReading) (s : State) : Result := s.input (imdResult n x)
/-- BASELINE_LATE (R249). -/
def execBaselineLate (n : Fin 16) (s : State) : Result := s.run (baselineLate n)
/-- IMD_STALE (R250). -/
def execImdStale (n : Fin 16) (s : State) : Result := s.run (imdStale n)
/-- IMD_RAIL_FAULT (R250). -/
def execImdRailFault (pos neg : U16) (s : State) : Result := s.input (imdRailFault pos neg)
/-- CABLE_CHECK_TIMEOUT (R247). -/
def execCableCheckTimeout (n : Fin 16) (s : State) : Result := s.run (cableCheckTimeout n)
/-- RCM_BLOCK_END (R252). -/
def execRcmBlockEnd (f : Fin 2) (s : State) : Result := s.run (rcmBlockEnd f)
/-- RCM_WARNING (R252). -/
def execRcmWarning (f : Fin 2) (s : State) : Result := s.run (rcmWarning f)
/-- RCM_LOST (R254). -/
def execRcmLost (f : Fin 2) (s : State) : Result := s.run (rcmLost f)
/-- RCM_TEST_END (R255). -/
def execRcmTestEnd (s : State) : Result := s.run rcmTestEnd
/-- IMD_SET_CONFIG (R258). -/
def execImdSetConfig (m : Fin 4) (s : State) : Result := s.run (command m 0x0801 .dyke (imdSetConfig m))
/-- IMD_SET_FORCE (R258). -/
def execImdSetForce (m : Fin 4) (s : State) : Result := s.run (command m 0x0802 .dyke (imdSetForce m))
/-- IMD_GET_NODE (R258). -/
def execImdGetNode (m : Fin 4) (s : State) : Result := s.run (command m 0x0803 .dyke (imdGetNode m))
/-- IMD_REBASELINE (R248). -/
def execImdRebaseline (m : Fin 4) (s : State) : Result := s.run (command m 0x0804 .dyke (imdRebaseline m))
/-- RCM_SET_CONFIG (R258). -/
def execRcmSetConfig (m : Fin 4) (s : State) : Result := s.run (command m 0x0805 .dyke (rcmSetConfig m))
/-- RCM_GET (R258). -/
def execRcmGet (m : Fin 4) (s : State) : Result := s.run (command m 0x0806 .dyke (rcmGet m))
/-- RCM_TEST (R255). -/
def execRcmTest (m : Fin 4) (s : State) : Result := s.run (command m 0x0807 .dyke (rcmTestStart m))
/-- IMD_CLEAR_COUNTS (R258). -/
def execImdClearCounts (m : Fin 4) (s : State) : Result := s.run (command m 0x0808 .dyke (imdClearCounts m))

end Sys2Proof.Machine
end

