-- ==== Sys2Proof/Machine/Switches.lean ====
section
/-! DEFINITION. The protected load switch channels (12_load_switches.md R288 to R309) and the changeover of the backup domain
(22_electrical.md R565). -/

namespace Sys2Proof.Machine

/-- Change the switches as a whole. -/
def updLsw (f : Switches → Switches) (b : Block) : Block := { b with lsw := f b.lsw }
/-- Change the diagnostic counters of high-side channel `c`. -/
def updDiag (c : Fin 40) (f : HsDiag → HsDiag) (b : Block) : Block := updLsw (fun w => { w with hsDiag := vupd w.hsDiag c f }) b
/-- The 40 high-side channels. -/
def allHs : List (Fin 40) := List.finRange 40

/-! ### What a high-side channel does -/

/-- I_n of a curve in mA (R294). -/
def curveIn (c : Nat) : Nat := [100, 200, 300, 400, 500, 600, 800, 800].getD c 800
/-- τ of a curve in s. -/
def curveTau (c : Nat) : Nat := [1, 1, 2, 2, 4, 4, 2, 8].getD c 8
/-- The unit of wire heat: H = 1. -/
def heatFull : Nat := 11520000000000
/-- The curve in force: 7 for a SUPPLY channel (R292). -/
def HsChan.curveNow (x : HsChan) : Nat := if x.mode = 2 then 7 else x.curve.toNat
/-- Wire heat after one measurement of `i` mA (R294). -/
def heatStep (h curve i : Nat) : Nat :=
  let n := curveIn curve
  let d : Int := ((i * i : Nat) - (n * n : Nat) : Int) * ((heatFull / 10000 / (n * n * curveTau curve) : Nat) : Int)
  ((h : Int) + d).toNat
/-- H is at or above 0.5 (R295). -/
def HsChan.hot (x : HsChan) : Bool := decide (heatFull ≤ 2 * x.heat)
/-- The channel is latched off. -/
def HsChan.latched (x : HsChan) : Bool := x.ocTrip || x.otLatched || x.shortGnd || x.shortVin || x.tied
/-- Slew time of a code in ticks (R293). -/
def slewTicks (c : BitVec 2) : Nat := [150000, 1500000, 15000000, 75000000].getD c.toNat 0
/-- Channel `c` is mapped to a LIMP_IN input (R305). -/
def mapped (b : Block) (c : Fin 40) : Bool := (vget b.lsw.limpMap c).getLsbD 3
/-- The LIMP_IN input of channel `c` commands on. -/
def limpInput (b : Block) (c : Fin 40) : Bool := b.lsw.limpInputs.getLsbD ((vget b.lsw.limpMap c).toNat % 8)

/-- Channel `c` is to conduct: commanded, or under limp-home control by its input (R306), and nothing holds it off (R290, R295,
R296, R298, R304, R306). -/
def hsWant (b : Block) (c : Fin 40) : Bool :=
  let x := hsOf b c
  (if x.limp then limpInput b c else x.cmdOn && (!b.lsw.limpActive || mapped b c)) &&
    b.lsw.vinOk && !x.latched && !x.shed && !x.ot

/-- The output of channel `c` follows what it is to do. A coil supply that comes on starts the coils that wait for it (R301). -/
def driveHs (c : Fin 40) (b : Block) : Block :=
  let on := hsWant b c
  if on = (hsOf b c).outOn then b
  else
    let b := updHs c (fun x => { x with outOn := on, onAt := now b, limit := x.limit && on }) b
    if on then forAll (allNodes.filter fun n => (lsOf b n).supply.toNat == c.val) (fun n b => coilStart n (updLs n (fun x => { x with waitOn := x.waitOn && pullBusy b n }) b)) b
    else b

/-- Every output follows. -/
def driveAll (b : Block) : Block := forAll allHs driveHs b

/-- The level of HS_OUT{c} (R291, R292): a PWM channel is high for its duty from each period start. -/
def hsOut (b : Block) (c : Fin 40) : Bool :=
  let x := hsOf b c
  let d := (match x.pendingDuty with | some (d, t) => if t.toNat ≤ (now b).toNat then d else x.duty | none => x.duty).toNat
  x.outOn && (x.mode != 1 || decide (((now b).toNat + 6000000 - c.val * 150000) % 6000000 < d * 6000))

/-- An ON of channel `c` that fired on this tick and whose result is still on its way. -/
def onNow (b : Block) (c : Fin 40) (i : RingItem) : Bool :=
  (match i.phase with | .decided s => s == stFired | _ => false) && i.entry.target == tgSwitch && i.entry.slot.toNat == c.val &&
    i.entry.action == 1 && i.entry.time == now b
/-- A protective action meets an ON launched for the same tick: the channel stays off and the ON resolves GUARD_FAIL (R297). -/
def failOn (c : Fin 40) (b : Block) : Block :=
  if b.lau.rings.any fun g => g.2.chain.any (onNow b c) then
    updHs c (fun x => { x with cmdOn := (vget b.prior.lsw.hs c).cmdOn, firedAt := (vget b.prior.lsw.hs c).firedAt })
      { b with lau := { b.lau with rings := b.lau.rings.map fun g =>
          (g.1, { g.2 with chain := g.2.chain.map fun i => if onNow b c i then { i with phase := .decided stGuardFail } else i }) } }
  else b

/-- A protective action on channel `c` (R297): its stamp, LSW_TRIP_CNT, its source, and the output follows. -/
def protectHs (c : Fin 40) (src : Nat) (f : HsChan → HsChan) (b : Block) : Block :=
  driveHs c (irq src (updHs c (fun x => { f x with lastAct := now b })
    (updLsw (fun w => { w with tripCnt := satInc w.tripCnt }) (failOn c b))))
/-- A protective action of this tick has acted on the channel. -/
def actedNow (b : Block) (x : HsChan) : Bool := decide (x.lastAct ≠ 0) && x.lastAct == now b
/-- The channel conducts, or was turned off on this tick. -/
def liveNow (b : Block) (x : HsChan) : Bool := x.outOn || decide (x.onAt ≠ 0) && x.onAt == now b

/-- ON may fire on channel `c` (R291, R295, R297, R304). -/
def hsMayOn (b : Block) (c : Fin 40) : Bool :=
  let x := hsOf b c
  !(x.latched || x.shed || x.hot || x.limp || decide (b.lsw.vin.toNat < 800) || decide (11000 < b.lsw.mean.toNat) ||
    actedNow b x)
/-- ON fires. -/
def hsTurnOn (c : Fin 40) (b : Block) : Block := driveHs c (updHs c (fun x => { x with cmdOn := true, firedAt := some (now b) }) b)
/-- OFF fires: the latched over-current and over-temperature faults and the shed flag clear; a fault of the same tick stays latched (R297).
-/
def hsTurnOff (c : Fin 40) (b : Block) : Block :=
  driveHs c (updHs c (fun x => { x with
    cmdOn := false, ocTrip := x.ocTrip && actedNow b x, otLatched := x.otLatched && actedNow b x, shed := false }) b)
/-- The duty of channel `c` now. -/
def hsDuty (b : Block) (x : HsChan) : BitVec 10 :=
  match x.pendingDuty with
  | some (d, t) => if t.toNat ≤ (now b).toNat then d else x.duty
  | none => x.duty
/-- Start of the next PWM period of channel `c` (R292). -/
def nextPwm (b : Block) (c : Fin 40) : Nat :=
  let o := c.val * 150000
  let t := (now b).toNat
  if t < o then o else o + ((t - o) / 6000000 + 1) * 6000000
/-- SET_DUTY fires: the duty from the next period. -/
def hsSetDuty (c : Fin 40) (d : Nat) (b : Block) : Block :=
  updHs c (fun x => { x with duty := hsDuty b x, pendingDuty := some (BitVec.ofNat 10 d, BitVec.ofNat 64 (nextPwm b c)) }) b

/-! ### Measurements of a high-side channel (R289, R294, R298) -/

/-- Over-current (R294, R295): wire heat at 1, or 1.6 A for 100 ms. -/
def hsOverCurrent (c : Fin 40) (x : SwitchReading) (b : Block) : Block :=
  let i := x.current.toNat
  let run := if 1600 ≤ i then (vget b.lsw.hsDiag c).peakRun + 1 else 0
  let b := updDiag c (fun d => { d with peakRun := run }) (updHs c (fun h => { h with heat := heatStep h.heat h.curveNow i }) b)
  let h := hsOf b c
  if liveNow b h && (decide (heatFull ≤ h.heat) || decide (1000 ≤ run)) then
    protectHs c 320 (fun h => { h with ocTrip := true }) (updDiag c (fun d => { d with peakRun := 0 }) b)
  else b

/-- Short to ground: on, in current limit, output below half of VIN_SYS for two measurements from the end of the slew. -/
def hsShortGnd (c : Fin 40) (x : SwitchReading) (b : Block) : Block :=
  let h := hsOf b c
  let hit := h.outOn && x.limit && decide (2 * x.voltage.toNat < b.lsw.vin.toNat) && passed b h.onAt (slewTicks h.slew)
  let run := if hit then (vget b.lsw.hsDiag c).gndRun + 1 else 0
  let b := updDiag c (fun d => { d with gndRun := run }) b
  if 2 ≤ run then protectHs c 322 (fun h => { h with shortGnd := true }) b else b

/-- Another channel than `c` turned on within the last 1 ms. -/
def turnedOn (b : Block) (c d : Fin 40) : Bool := d != c && (hsOf b d).outOn && !passed b (hsOf b d).onAt (tMs + 1)

/-- Short to supply: off for 20 ms, output above 60 % of VIN_SYS for 100 measurements, no other turn-on in the last 1 ms. -/
def hsShortVin (c : Fin 40) (x : SwitchReading) (b : Block) : Block :=
  let h := hsOf b c
  let hit := !h.outOn && passed b h.onAt (20 * tMs) && decide (6 * b.lsw.vin.toNat < 10 * x.voltage.toNat) && !(allHs.any (turnedOn b c))
  let run := if hit then (vget b.lsw.hsDiag c).vinRun + 1 else 0
  let b := updDiag c (fun d => { d with vinRun := run }) b
  if 100 ≤ run ∧ !h.shortVin then protectHs c 323 (fun h => { h with shortVin := true }) b else b

/-- Tied outputs: the output of an off channel rises from below 20 % to above 60 % of VIN_SYS within 1 ms of another's ON.
The off channel and every channel that turned on in that 1 ms latch. -/
def hsTied (c : Fin 40) (x : SwitchReading) (b : Block) : Block :=
  let h := hsOf b c
  let v := x.voltage.toNat
  let others := allHs.filter fun d => d != c && (match (hsOf b d).firedAt, (vget b.lsw.hsDiag c).lowAt with
    | some f, some t => !passed b f (tMs + 1) && decide (f.toNat ≤ t.toNat + 150000) | _, _ => false)
  let hit := !h.outOn && !h.tied && decide (6 * b.lsw.vin.toNat < 10 * v) && !others.isEmpty
  let b := updDiag c (fun d => { d with lowAt := if h.outOn then none else if 10 * v < 2 * b.lsw.vin.toNat then some (now b) else d.lowAt }) b
  if hit then forAll (c :: others) (fun d => protectHs d 324 fun y => { y with tied := true }) b else b

/-- Open load: open_en, on, after the slew, below 5 mA for 1,000 measurements; source 325 when it appears or ends. -/
def hsOpenLoad (c : Fin 40) (x : SwitchReading) (b : Block) : Block :=
  let h := hsOf b c
  let hit := h.openEn && h.mode != 2 && h.outOn && passed b h.onAt (slewTicks h.slew) && decide (x.current.toNat < 5)
  let run := if hit then (vget b.lsw.hsDiag c).openRun + 1 else 0
  let on := decide (1000 ≤ run)
  onlyIf (on != h.openLoad) (irq 325) (updHs c (fun h => { h with openLoad := on }) (updDiag c (fun d => { d with openRun := run }) b))

/-- The stall and the open load of a lock move on channel `c` (R207). -/
def lockMeasure (c : Fin 40) (x : SwitchReading) (n : Fin 16) (b : Block) : Block :=
  let v := vehOf b n
  match v.move with
  | none => b
  | some mv =>
    if (if mv.lock then v.lockCh else v.unlockCh).toNat = c.val ∧ mv.retryAt = none ∧ (hsOf b c).outOn then
      let h := hsOf b c
      let e := h.onAt.toNat + slewTicks h.slew
      let low := decide (x.current.toNat < 5)
      let stall := decide (mv.stallThr.toNat * 10 ≤ x.current.toNat)
      updVeh n (fun v => { v with move := some { mv with
        stallSince := if mv.verified then mv.stallSince else if stall then (match mv.stallSince with | some t => some t | none => some (now b)) else none
        lowSince := if (now b).toNat < e then none
          else if low then (if (now b).toNat < e + 150000 then some (BitVec.ofNat 64 e) else mv.lowSince) else none } }) b
    else b

/-- A measurement of high-side channel `c`. -/
def hsMeasure (c : Fin 40) (x : SwitchReading) (b : Block) : Block :=
  let b := updHs c (fun h => { h with current := x.current, voltage := x.voltage, limit := x.limit, measAt := now b }) b
  forAll allNodes (lockMeasure c x) (hsOpenLoad c x (hsTied c x (hsShortVin c x (hsShortGnd c x (hsOverCurrent c x b)))))

/-! ### Contactor coils (R270, R301 to R303) -/

/-- Row CONTACTOR of R273 on node `n`. -/
def contactorFault (n : Fin 16) (b : Block) : Block :=
  contain { cause := 0x0A, scope := .node n, mode := .immediate, base := 1, lock := true, reason := .safety } (irq 301 b)

/-- A protective action on low-side channel `n`: off, latched, source 329, row CONTACTOR. -/
def lsProtect (n : Fin 16) (f : LsChan → LsChan) (b : Block) : Block :=
  contactorFault n (lsOff n (irq 329 (updLs n f (updLsw (fun w => { w with tripCnt := satInc w.tripCnt }) b))))

/-- The pair of node `n` is confirmed closed: the coil current reaches pull-in (R270, R301). -/
def coilConfirm (n : Fin 16) (b : Block) : Block :=
  imdDisturb n (lsOf b n).turnOn (imdClose n (updLs n (fun x => { x with lastClosed := now b })
    (updNode n (fun x => { x with closed := true, closeAt := none }) b)))

/-- The pair of node `n` is open and verified (R270): V_ov returns to 1,050 V (R275), and what waits for the opening goes on. -/
def coilOpened (n : Fin 16) (b : Block) : Block :=
  let x := lsOf b n
  let b := updLs n (fun x => { x with stuck := false, decaySlow := x.decaySlow && passed b x.turnOff (10 * tMs) }) b
  let b := updNode n (fun y => { y with openVerified := true, openAt := none, openLate := false, ovThr := 10500, ovArmed := false }) b
  unlockIfDue n (reviewHub (stopDone n (imdDisturb n x.turnOff (imdOpen n b))))

/-- The 10 ms that end 200 ms into the hold phase, over which r_coil is learned (R301). -/
def learning (b : Block) (l : LsChan) : Bool := passed b l.holdAt (190 * tMs + 1) && !passed b l.holdAt (200 * tMs + 1)
/-- The coil while its channel is on: pull-in, drop-out, headroom in the hold phase, over-current. -/
def coilOnMeasure (n : Fin 16) (x : SwitchReading) (b : Block) : Block :=
  let l := lsOf b n
  let i := x.current.toNat
  if x.limit then lsProtect n (fun y => { y with ocLatch := true }) b
  else
    let b := if !(nodeOf b n).closed ∧ l.iPin.toNat * 10 ≤ i then coilConfirm n b else b
    if l.econ = 2 then
      if i < l.iDrop.toNat * 10 then contactorFault n b
      else
        let run := if x.duty = 1000 ∧ i < l.iHold.toNat * 10 then l.fullRun + 1 else 0
        let head := decide (50 ≤ run) && !l.headroom
        onlyIf head (irq 328) (updLs n (fun y => { y with
          fullRun := run, headroom := y.headroom || head, conducting := y.conducting || decide (i ≤ y.iHold.toNat * 10)
          learnV := if learning b y then y.learnV + b.lsw.vin.toNat * x.duty.toNat else y.learnV
          learnI := if learning b y then y.learnI + i else y.learnI }) b)
    else b

/-- The supply channel of node `n` is on. -/
def supplyIsOn (b : Block) (n : Fin 16) : Bool :=
  if h : (lsOf b n).supply.toNat < 40 then (hsOf b ⟨(lsOf b n).supply.toNat, h⟩).outOn else false

/-- The coil while its channel is off: open and verified, coil open. -/
def coilOffMeasure (n : Fin 16) (x : SwitchReading) (b : Block) : Block :=
  let l := lsOf b n
  let hit := supplyIsOn b n && decide (5 * x.voltage.toNat < b.lsw.vin.toNat)
  let run := if hit then l.openRun + 1 else 0
  let on := decide (100 ≤ run)
  let b := onlyIf (on && !l.coilOpen) (irq 329) (updLs n (fun y => { y with openRun := run, coilOpen := on }) b)
  if !(nodeOf b n).openVerified ∧ 2 * x.current.toNat < l.iHold.toNat then coilOpened n b else b

/-- A measurement of low-side channel `n`. -/
def lsMeasure (n : Fin 16) (x : SwitchReading) (b : Block) : Block :=
  let b := updLs n (fun l => { l with current := x.current, voltage := x.voltage, duty := x.duty, measAt := now b }) b
  if (lsOf b n).econ = 0 then coilOffMeasure n x b else coilOnMeasure n x b

/-- A measurement within the range of R289, 4.095 A. -/
def inRange (x : SwitchReading) : SwitchReading := { x with current := BitVec.ofNat 16 (min 4095 x.current.toNat) }
/-- SWITCH_MEASURE (R289): every 150,000 ticks. -/
def switchMeasure (c : SwitchChan) (x : SwitchReading) (b : Block) : Block :=
  match c with
  | .hs c => atInstant (nextMultiple 150000 (some (hsOf b c).measAt) b) (hsMeasure c (inRange x)) b
  | .ls n => atInstant (nextMultiple 150000 (some (lsOf b n).measAt) b) (lsMeasure n (inRange x)) b

/-- COIL_PULL_END (R301): the hold phase begins without conduction; a node that waited for the supply channel starts. -/
def coilPullEnd (n : Fin 16) (b : Block) : Block :=
  let l := lsOf b n
  if l.econ = 1 then
    afterTicks l.turnOn (l.tPull.toNat * tMs) (fun b =>
      coilRelease n (updLs n (fun x => { x with econ := 2, conducting := false, holdAt := now b, fullRun := 0, learnV := 0, learnI := 0 }) b)) b
  else b

/-- VIN_SYS × duty / I of the coil in 0.1 Ω, from the sums over the 10 ms of the mean, rounded to the nearest. -/
def learnedOhm (l : LsChan) : Nat := (l.learnV + 5 * l.learnI) / (10 * l.learnI)
/-- The sums with the measurement of this tick, where SWITCH_MEASURE has not brought it and the device measures. -/
def lastSample (x : SwitchReading) (b : Block) (l : LsChan) : LsChan :=
  if b.rpl.mode ∨ l.measAt = now b then l
  else { l with learnV := l.learnV + b.lsw.vin.toNat * x.duty.toNat, learnI := l.learnI + x.current.toNat }
/-- The coil's resistance as learned, when it is within the range of r_coil. -/
def learnRCoil (l : LsChan) : LsChan :=
  { l with learned := true, rCoil := if 20 ≤ learnedOhm l ∧ learnedOhm l ≤ 1000 then BitVec.ofNat 16 (learnedOhm l) else l.rCoil }
/-- COIL_RCOIL_LEARN (R301): 200 ms into the hold phase, once. -/
def coilLearn (n : Fin 16) (x : SwitchReading) (b : Block) : Block :=
  let l := lsOf b n
  if l.econ = 2 ∧ !l.learned then
    afterTicks l.holdAt (200 * tMs) (fun b => updLs n (fun l => learnRCoil (lastSample (inRange x) b l)) b) b
  else b

/-! ### Temperature, supply, package current -/

/-- SWITCH_OVERTEMP (R296, R303): a channel reaches 170 °C. -/
def switchOvertemp (c : SwitchChan) (b : Block) : Block :=
  match c with
  | .hs c => if (hsOf b c).ot then b else protectHs c 321 (fun x => { x with ot := true, otLatched := x.otLatched || x.otLatchEn }) b
  | .ls n => if (lsOf b n).otLatch then b else lsProtect n (fun x => { x with otLatch := true }) (irq 321 b)

/-- SWITCH_THERMAL_RESTART (R296): the sensor falls to 140 °C. The ninth restart within 10 s latches. -/
def thermalRestart (c : Fin 40) (b : Block) : Block :=
  let x := hsOf b c
  if !x.ot then b
  else
    let r := x.restarts.filter fun t => !passed b t (10 * tSec)
    if x.otLatched then updHs c (fun x => { x with ot := false }) b
    else if 8 ≤ r.length then updHs c (fun x => { x with ot := false, otLatched := true, restarts := r }) b
    else
      let b1 := driveHs c (updHs c (fun x => { x with ot := false }) b)
      updHs c (fun x => { x with restarts := if x.outOn then now b :: r else r }) b1

/-- VIN_SYS_RANGE (R290): VIN_SYS in 10 mV. Outside 8.0 V to 38.0 V every channel is off; within 8.5 V to 37.5 V the high-side
channels resume. -/
def vinRange (v : U16) (b : Block) : Block :=
  let t := v.toNat
  let b1 := updLsw (fun w => { w with vin := v }) b
  let okay := if t < 800 ∨ 3800 < t then false else if 850 ≤ t ∧ t ≤ 3750 then true else b.lsw.vinOk
  if okay = b.lsw.vinOk then b1
  else
    let b := driveAll (irq 332 (updLsw (fun w => { w with vinOk := okay }) b1))
    if okay then forAll allNodes (fun n b => coilStart n (updLs n (fun x => { x with conducting := x.conducting || x.econ == 1 }) b)) b else forAll allNodes (fun n => updLs n fun x => { x with conducting := false }) b

/-- The channel to shed next (R304): lowest priority first, then the highest current; not priority 0, SUPPLY or limp-home. -/
def shedNext (b : Block) : Option (Fin 40) :=
  allHs.foldl (fun a c =>
    let x := hsOf b c
    if x.outOn && x.shedPrio != 0 && x.mode != 2 && !x.limp then
      match a with
      | none => some c
      | some d =>
        let y := hsOf b d
        if y.shedPrio.toNat < x.shedPrio.toNat ∨ (y.shedPrio = x.shedPrio ∧ y.current.toNat < x.current.toNat) then some c else a
    else a) none

/-- Shed one channel: source 326, LSW_SHED_CNT. -/
def shedOne (b : Block) : Block :=
  match shedNext b with
  | none => b
  | some c => driveHs c (irq 326 (updHs c (fun x => { x with shed := true })
      (updLsw (fun w => { w with shedCnt := satInc w.shedCnt, lastShed := some (now b) }) b)))

/-- The check of the package current (R304): the mean over the last 1,000 ms. -/
def packageCheck (b : Block) : Block :=
  let sum := (b.lsw.hs.toList.map (·.current.toNat)).sum
  let win := (sum :: b.lsw.window).take 1000
  let mean := win.sum / 1000
  let warn := decide (11000 < mean)
  let run := if 12000 < mean then true else if mean < 11000 then false else b.lsw.shedRun
  let raise := warn && !b.lsw.pkgWarn
  let b := onlyIf raise (irq 327) (updLsw (fun w => { w with
    sum := satNat 16 sum, mean := satNat 16 mean, window := win, pkgWarn := warn, shedding := decide (12000 < mean), shedRun := run, pkgAt := some (now b) }) b)
  onlyIf (run && mayRaise b b.lsw.lastShed (100 * tMs)) shedOne b

/-! ### Limp-home (R305, R306) -/

/-- Limp-home becomes active: mapped channels follow their inputs, every other channel is off. -/
def limpEnter (b : Block) : Block :=
  if b.lsw.limpActive then b
  else
    let b := irq 330 (updLsw (fun w => { w with limpActive := true }) b)
    let b := { b with lsw := { b.lsw with hs := vmapIdx b.lsw.hs fun c x => { x with limp := x.limp || mapped b c } } }
    forAll allNodes lsOff (driveAll b)

/-- A channel under limp-home control is released: its present state is its commanded state. -/
def limpRelease (c : Fin 40) (b : Block) : Block :=
  if (hsOf b c).limp then driveHs c (irq 330 (updHs c (fun x => { x with limp := false, cmdOn := x.outOn }) b)) else b

/-- Sedge ends limp-home on every channel (R306, end of boot stage 6). -/
def limpEnd (b : Block) : Block := driveAll (updLsw (fun w => { w with limpActive := false }) (forAll allHs limpRelease b))

/-- LIMP_INPUT: a debounced change of LIMP_IN{j}. -/
def limpInputSet (j : Fin 8) (on : Bool) (b : Block) : Block :=
  driveAll (updLsw (fun w => { w with limpInputs := BitVec.ofNat 8 (bitsNat ((List.range 8).map fun k => if k = j.val then on else w.limpInputs.getLsbD k)) }) b)

/-- The bytes of the limp map: five words. -/
def limpBytes (w : Switches) : List U8 :=
  (List.range 20).map fun i =>
    BitVec.ofNat 8 (packFields [(0, (w.limpMap.toList.getD (2 * i) 0).toNat), (4, (w.limpMap.toList.getD (2 * i + 1) 0).toNat)])

/-- The limp map is lost (R305). -/
def limpMapLost (b : Block) : Block :=
  driveAll (irq 331 (updLsw (fun w => { w with
    limpMap := Vector.replicate 40 0, limpValid := false, limpCrc := 0, hs := vmap w.hs fun x => { x with limp := false } }) b))

/-- BACKUP_CHANGEOVER (R305, R565): the domain runs from VBAT below 8.5 V, from VIN_SYS above; with neither present everything
it holds is lost. A limp map whose CRC-32C fails is lost too. -/
def backupChangeover (vbat : Bool) (kept : BackupKept) (b : Block) : Block :=
  match kept with
  | .all => { b with backup := { b.backup with onVbat := vbat } }
  | .noMap => onlyIf b.lsw.limpValid limpMapLost { b with backup := { b.backup with onVbat := vbat } }
  | .none => limpMapLost { b with backup := { onVbat := vbat } }

/-! ### Registers (R307) -/

/-- The number whose bit `k` is a predicate of channel `lo + k`. -/
def hsBits (b : Block) (f : HsChan → Bool) (lo n : Nat) : Nat := bitsNat (((b.lsw.hs.toList.drop lo).take n).map f)
/-- The number whose bit `n` is a predicate of low-side channel `n`. -/
def lsBits (b : Block) (f : LsChan → Bool) : Nat := bitsNat (b.lsw.ls.toList.map f)
/-- LSW_HS_CFG(c). -/
def hsCfgWord (x : HsChan) : U32 :=
  reg32 [(0, x.mode.toNat), (2, x.curve.toNat), (5, x.slew.toNat), (7, b2n x.otLatchEn), (8, b2n x.openEn), (9, x.shedPrio.toNat)]
/-- LSW_HS_STAT(c). -/
def hsStatWord (b : Block) (x : HsChan) : U32 :=
  reg32 [(0, b2n x.cmdOn), (1, b2n x.outOn), (2, b2n x.limit), (3, b2n x.ocTrip), (4, b2n x.ot), (5, b2n x.otLatched), (6, b2n x.shortGnd),
    (7, b2n x.shortVin), (8, b2n x.tied), (9, b2n x.openLoad), (10, b2n x.shed), (11, b2n x.hot), (12, b2n x.limp), (16, (hsDuty b x).toNat),
    (26, (x.restarts.filter fun t => !passed b t (10 * tSec)).length)]
/-- LSW_HS_MEAS(c). -/
def hsMeasWord (x : HsChan) : U32 := reg32 [(0, x.current.toNat), (16, x.voltage.toNat)]
/-- LSW_LS_STAT(n). -/
def lsStatWord (b : Block) (n : Fin 16) : U32 :=
  let x := lsOf b n
  reg32 [(0, b2n (bothPermits b n)), (1, b2n x.cmdOn), (2, b2n x.conducting), (3, x.econ.toNat), (5, b2n x.headroom), (6, b2n (nodeOf b n).closed),
    (7, b2n x.ocLatch), (8, b2n x.otLatch), (9, b2n x.coilOpen), (10, b2n x.stuck), (11, b2n x.decaySlow), (16, x.duty.toNat)]
/-- LSW_LS_MEAS(n). -/
def lsMeasWord (x : LsChan) : U32 := reg32 [(0, x.current.toNat), (16, x.voltage.toNat)]
/-- LSW_COIL(n). -/
def coilWord (x : LsChan) : U32 := reg32 [(0, x.iPull.toNat), (8, x.iPin.toNat), (16, x.iHold.toNat), (24, x.iDrop.toNat)]
/-- LSW_COIL_T(n). -/
def coilTWord (x : LsChan) : U32 := reg32 [(0, x.tPull.toNat), (8, x.supply.toNat), (16, x.rCoil.toNat)]
/-- A low-side channel holds a latched fault. -/
def LsChan.latched (x : LsChan) : Bool := x.ocLatch || x.otLatch

/-- The read value of word `a` of the LSW block. -/
def lswWord (b : Block) (a : Nat) : U32 :=
  let w := b.lsw
  if a = 0x7C0 then reg32 [(0, b2n w.vinOk), (1, b2n w.pkgWarn), (2, b2n w.shedding)]
  else if a = 0x7C1 then w.vin.setWidth 32
  else if a = 0x7C2 then reg32 [(0, w.sum.toNat), (16, w.mean.toNat)]
  else if a = 0x7C3 then BitVec.ofNat 32 (hsBits b (·.outOn) 0 32)
  else if a = 0x7C4 then reg32 [(0, hsBits b (·.outOn) 32 8), (16, lsBits b (·.conducting))]
  else if a = 0x7C5 then BitVec.ofNat 32 (hsBits b (·.latched) 0 32)
  else if a = 0x7C6 then reg32 [(0, hsBits b (·.latched) 32 8), (16, lsBits b (·.latched))]
  else if a = 0x7C7 then reg32 [(0, w.limpInputs.toNat), (8, b2n w.limpActive), (9, b2n w.limpValid)]
  else if a = 0x7C8 then w.tripCnt
  else if a = 0x7C9 then w.shedCnt
  else if a = 0x7CA then w.limpCrc
  else if h : 0x7D0 ≤ a ∧ a ≤ 0x7F7 then hsCfgWord (hsOf b ⟨a - 0x7D0, by omega⟩)
  else if h : 0x800 ≤ a ∧ a ≤ 0x827 then hsStatWord b (hsOf b ⟨a - 0x800, by omega⟩)
  else if h : 0x830 ≤ a ∧ a ≤ 0x857 then hsMeasWord (hsOf b ⟨a - 0x830, by omega⟩)
  else if h : 0x860 ≤ a ∧ a ≤ 0x86F then lsStatWord b ⟨a - 0x860, by omega⟩
  else if h : 0x870 ≤ a ∧ a ≤ 0x87F then lsMeasWord (lsOf b ⟨a - 0x870, by omega⟩)
  else if h : 0x880 ≤ a ∧ a ≤ 0x88F then coilWord (lsOf b ⟨a - 0x880, by omega⟩)
  else if h : 0x890 ≤ a ∧ a ≤ 0x89F then coilTWord (lsOf b ⟨a - 0x890, by omega⟩)
  else if 0x8A0 ≤ a ∧ a ≤ 0x8A4 then BitVec.ofNat 32 (natAt (limpBytes w) (4 * (a - 0x8A0)) 4)
  else 0

/-! ### Commands (R309) -/

/-- The channel that byte 0 of a request names. -/
def reqHs (b : Block) (m : Fin 4) : Fin 40 := ⟨(rB b m 0).toNat % 40, Nat.mod_lt _ (by decide)⟩
/-- Its range check. -/
def hsCheck (b : Block) (m : Fin 4) : Nat × Bool := (0x0A01, decide ((rB b m 0).toNat < 40))
/-- A running residual-current test uses channel `c`. -/
def underTest (b : Block) (c : Fin 40) : Bool := match b.rcmTest with | some t => t.channel == c | none => false

/-- LSW_SET_CHANNEL. -/
def lswSetChannel (m : Fin 4) (b : Block) : Block :=
  let c := reqHs b m
  let w := rN b m 4 4
  let mode := fieldOf w 0 2
  let x := hsOf b c
  checked m [hsCheck b m, (0x0A02, decide (mode ≤ 2 ∧ fieldOf w 11 21 = 0)), (0x0A03, !x.outOn),
      (0x0A04, !mapped b c && !(mode == 2 && isLockChan b c.val) && !(mode != 2 && isSupplyChan b c.val))] (fun b =>
    cmdLog m 0 (ok m [] (saveSettings (updHs c (fun x => { x with
      mode := BitVec.ofNat 2 mode, curve := BitVec.ofNat 3 (fieldOf w 2 3), slew := BitVec.ofNat 2 (fieldOf w 5 2)
      otLatchEn := bitOf w 7, openEn := bitOf w 8, shedPrio := BitVec.ofNat 2 (fieldOf w 9 2) }) b)))) b

/-- Channel `c` locks the cable of a connector outside IDLE. -/
def lockInUse (b : Block) (c : Fin 40) : Bool :=
  allNodes.any fun n => ((vehOf b n).lockCh.toNat == c.val || (vehOf b n).unlockCh.toNat == c.val) && phaseOf b n != .idle

/-- LSW_SWITCH: an entry on ring 130 at the first instant at least 96 ticks ahead that keeps the ring in time order; with a
duty, SET_DUTY first and the switching 1 tick later. The answer follows the resolution. -/
def lswSwitch (m : Fin 4) (b : Block) : Block :=
  let c := reqHs b m
  let on := (rB b m 1).toNat
  let d := rN b m 2 2
  let x := hsOf b c
  checked m [hsCheck b m, (0x0A02, decide (on ≤ 1) && (d == 0xFFFF || (decide (d ≤ 1000) && x.mode == 1))),
      (0x0A04, x.mode != 2 && !lockInUse b c && !underTest b c)] (fun b =>
    let t := ringFree b 130 tgSwitch c.val (ahead b 96)
    let e := fun (a : U8) (p : List U8) (t : U64) (tag : U32) (rep : Bool) =>
      { mkEntry tgSwitch c.val a p t with tag := tag, flags := if rep then 4 else 0 }
    let r := if d = 0xFFFF then (b, true) else submitEntry agSedge 130 (e 3 (leBytes 2 d ++ zeros 30) t 0 false) b
    let t := if d = 0xFFFF then t else t + 1
    let r := if r.2 then submitEntry agSedge 130 (e (if on = 1 then 1 else 2) (zeros 32) t (BitVec.ofNat 32 (1 + m.val)) true) r.1 else r
    if r.2 then r.1 else internalFail m r.1) b

/-- LSW_GET_CHANNEL. -/
def lswGetChannel (m : Fin 4) (b : Block) : Block :=
  checked m [hsCheck b m] (fun b =>
    let x := hsOf b (reqHs b m)
    ok m (b32s [hsCfgWord x, hsStatWord b x, hsMeasWord x] ++ leBytes 2 (min 65535 (x.heat * 1000 / heatFull)) ++ zeros 2 ++ b64 x.lastAct) b) b

/-- The channels whose tied latch one clear removes: all that the same event named, which latched at the same instant. -/
def tiedWith (b : Block) (c : Fin 40) : List (Fin 40) :=
  allHs.filter fun d => d == c || ((hsOf b d).tied && (hsOf b d).lastAct == (hsOf b c).lastAct)

/-- LSW_CLEAR_FAULT (R299): short_gnd, short_vin and tied clear; short_vin only when the output of the off channel reads below
20 % of VIN_SYS. -/
def lswClearFault (m : Fin 4) (b : Block) : Block :=
  let c := reqHs b m
  let x := hsOf b c
  let persists := x.shortVin && !(!x.outOn && decide (10 * x.voltage.toNat < 2 * b.lsw.vin.toNat))
  checked m [hsCheck b m, (0x0A05, !persists)] (fun b =>
    let b := if x.tied then forAll (tiedWith b c) (fun d => updHs d fun y => { y with tied := false, cmdOn := false }) b else b
    let b := updHs c (fun y => { y with shortGnd := false, shortVin := false, cmdOn := y.cmdOn && !(x.shortGnd || x.shortVin || x.tied) }) b
    ok m (b32 (hsStatWord b (hsOf b c))) b) b

/-- The sharing limits of R300 hold between nodes `a` and `k` for i_pull and i_hold in 10 mA. -/
def shareOk (x y : LsChan) : Bool :=
  decide (x.iHold.toNat + y.iHold.toNat ≤ 80 ∧ x.iPull.toNat + y.iHold.toNat ≤ 300 ∧ y.iPull.toNat + x.iHold.toNat ≤ 300)

/-- LSW_SET_COIL. -/
def lswSetCoil (m : Fin 4) (b : Block) : Block :=
  let n := reqNode b m
  let k := otherNode n
  let w := rN b m 4 4
  let t := rN b m 8 4
  let pull := fieldOf w 0 8
  let pin := fieldOf w 8 8
  let hold := fieldOf w 16 8
  let drop := fieldOf w 24 8
  let tp := fieldOf t 0 7
  let sup := fieldOf t 8 6
  let rc := fieldOf t 16 16
  let x : LsChan := { lsOf b n with
    iPull := BitVec.ofNat 8 pull, iPin := BitVec.ofNat 8 pin, iHold := BitVec.ofNat 8 hold, iDrop := BitVec.ofNat 8 drop
    tPull := BitVec.ofNat 7 tp, supply := BitVec.ofNat 6 sup, rCoil := BitVec.ofNat 16 rc }
  let inMode := if h : sup < 40 then (hsOf b ⟨sup, h⟩).mode == 2 else sup == 0x3F
  let alone := allNodes.all fun j => j == n || j == k || (lsOf b j).supply.toNat != sup || sup == 0x3F
  let pairOk := (lsOf b k).supply.toNat != sup || sup == 0x3F || shareOk x (lsOf b k)
  checked m [nodeCheck 0x0A01 b m,
      (0x0A02, decide (20 ≤ pull ∧ pull ≤ 250 ∧ 20 ≤ pin ∧ pin ≤ pull ∧ 5 ≤ hold ∧ hold ≤ 80 ∧ hold < pin ∧ 3 ≤ drop ∧ drop + 5 ≤ hold ∧
        20 ≤ tp ∧ tp ≤ 80 ∧ 20 ≤ rc ∧ rc ≤ 1000 ∧ (sup < 40 ∨ sup = 0x3F) ∧ fieldOf t 7 1 = 0 ∧ fieldOf t 14 2 = 0)),
      (0x0A07, inMode && alone && pairOk), (0x0A08, quiet b n && quiet b k)] (fun b =>
    cmdLog m 0 (ok m [] (saveSettings (updLs n (fun _ => x) b)))) b

/-- LSW_GET_COIL. -/
def lswGetCoil (m : Fin 4) (b : Block) : Block :=
  let n := reqNode b m
  let x := lsOf b n
  checked m [nodeCheck 0x0A01 b m] (fun b =>
    ok m (b32s [lsStatWord b n, lsMeasWord x, coilWord x, coilTWord x] ++ b64 x.lastClosed) b) b

/-- LSW_SET_LIMP (R305). -/
def lswSetLimp (m : Fin 4) (b : Block) : Block :=
  let nib := fun (c : Fin 40) => BitVec.ofNat 4 (fieldOf (rB b m (c.val / 2)).toNat (4 * (c.val % 2)) 4)
  let chosen := allHs.filter fun c => (nib c).getLsbD 3
  let fits := chosen.all (fun c => (hsOf b c).mode != 2 && !isLockChan b c.val) &&
    decide ((chosen.map fun c => curveIn (hsOf b c).curveNow).sum ≤ 12000)
  checked m [(0x0A06, fits)] (fun b =>
    let b := { b with lsw := { b.lsw with
      hs := vmapIdx b.lsw.hs fun c x =>
        { x with limp := (nib c).getLsbD 3 && (x.limp || (b.lsw.limpActive && !mapped b c)) }
      limpMap := vgen 40 nib, limpValid := true } }
    let b := driveAll (updLsw (fun w => { w with limpCrc := crc32c (limpBytes w) }) b)
    cmdLog m 0 (ok m (b32 b.lsw.limpCrc) (saveSettings b))) b

/-- LSW_LIMP_RELEASE: mapped channels under limp-home control of the mask are released; the answer names them. -/
def lswLimpRelease (m : Fin 4) (b : Block) : Block :=
  let mask := rN b m 0 5
  let hit := allHs.filter fun c => bitOf mask c.val && (hsOf b c).limp
  let done := bitsNat (allHs.map fun c => hit.contains c)
  ok m (leBytes 5 done) (forAll hit limpRelease b)

/-- LSW_CLEAR_COUNTS. -/
def lswClearCounts (m : Fin 4) (b : Block) : Block := ok m [] (updLsw (fun w => { w with tripCnt := 0, shedCnt := 0 }) b)

/-- SWITCH_MEASURE (R289). -/
def execSwitchMeasure (c : SwitchChan) (x : SwitchReading) (s : State) : Result := s.input (switchMeasure c x)
/-- SWITCH_OVERTEMP (R296). -/
def execSwitchOvertemp (c : SwitchChan) (s : State) : Result := s.input (switchOvertemp c)
/-- SWITCH_THERMAL_RESTART (R296). -/
def execSwitchThermalRestart (c : Fin 40) (s : State) : Result := s.run (thermalRestart c)
/-- VIN_SYS_RANGE (R290). -/
def execVinSysRange (v : U16) (s : State) : Result := s.input (vinRange v)
/-- COIL_PULL_END (R301). -/
def execCoilPullEnd (n : Fin 16) (s : State) : Result := s.run (coilPullEnd n)
/-- COIL_RCOIL_LEARN (R301). -/
def execCoilRcoilLearn (n : Fin 16) (x : SwitchReading) (s : State) : Result := s.run (coilLearn n x)
/-- PACKAGE_CURRENT_CHECK (R304). -/
def execPackageCurrentCheck (s : State) : Result := s.run fun b => atInstant (nextMultiple tMs b.lsw.pkgAt b) packageCheck b
/-- LIMP_INPUT (R305). -/
def execLimpInput (j : Fin 8) (on : Bool) (s : State) : Result := s.input (limpInputSet j on)
/-- BACKUP_CHANGEOVER (R565). -/
def execBackupChangeover (vbat : Bool) (kept : BackupKept) (s : State) : Result := s.input (backupChangeover vbat kept)
/-- LSW_SET_CHANNEL (R309). -/
def execLswSetChannel (m : Fin 4) (s : State) : Result := s.run (command m 0x0A01 .sedge (lswSetChannel m))
/-- LSW_SWITCH (R309). -/
def execLswSwitch (m : Fin 4) (s : State) : Result := s.run (command m 0x0A02 .sedge (lswSwitch m))
/-- LSW_GET_CHANNEL (R309). -/
def execLswGetChannel (m : Fin 4) (s : State) : Result := s.run (command m 0x0A03 .sedge (lswGetChannel m))
/-- LSW_CLEAR_FAULT (R299). -/
def execLswClearFault (m : Fin 4) (s : State) : Result := s.run (command m 0x0A04 .sedge (lswClearFault m))
/-- LSW_SET_COIL (R300). -/
def execLswSetCoil (m : Fin 4) (s : State) : Result := s.run (command m 0x0A05 .dyke (lswSetCoil m))
/-- LSW_GET_COIL (R309). -/
def execLswGetCoil (m : Fin 4) (s : State) : Result := s.run (command m 0x0A06 .sedge (lswGetCoil m))
/-- LSW_SET_LIMP (R305). -/
def execLswSetLimp (m : Fin 4) (s : State) : Result := s.run (command m 0x0A07 .sedge (lswSetLimp m))
/-- LSW_LIMP_RELEASE (R306). -/
def execLswLimpRelease (m : Fin 4) (s : State) : Result := s.run (command m 0x0A08 .sedge (lswLimpRelease m))
/-- LSW_CLEAR_COUNTS (R309). -/
def execLswClearCounts (m : Fin 4) (s : State) : Result := s.run (command m 0x0A09 .sedge (lswClearCounts m))

end Sys2Proof.Machine
end

