-- ==== Sys2Proof/Machine/Safety.lean ====
section
/-! DEFINITION. The safety island: input pairs, interlock loop, disagreement, overvoltage, contactor supervision, the
deliberate reset and containment (11_safety.md R259 to R287). -/

namespace Sys2Proof.Machine

/-- The state of safety pair `k`. -/
def safPair (b : Block) (k : Fin 8) : SafPair := vget b.saf.pairs k
/-- Change it. -/
def updSafPair (k : Fin 8) (f : SafPair → SafPair) (b : Block) : Block := updSaf (fun x => { x with pairs := vupd x.pairs k f }) b
/-- The two inputs of a pair. -/
def pairInputs (k : Fin 8) : List (Fin 16) := [⟨2 * k.val, by omega⟩, ⟨2 * k.val + 1, by omega⟩]
/-- The pair of an input. -/
def inputPair (i : Fin 16) : Fin 8 := ⟨i.val / 2, by omega⟩
/-- Input `i` counts as open (R265). -/
def inputOpen (b : Block) (i : Fin 16) : Bool := (vget b.saf.openSince i).isSome

/-! ### Decisions of the two channels (R262) -/

/-- Both channels disagree (R262): a hub safe stop and a hub lock-out, source 296. -/
def disagree (b : Block) : Block :=
  contain { cause := 0x0D, scope := .hub, mode := .hubStop, base := 3, lock := true, reason := .safety }
    (irq 296 (updSaf (fun s => { s with agree := false }) b))

/-- Function numbers of the decisions that the channels compare: open pairs 0 to 7, the loop 8, overvoltage of node n 16 + n, faults of
pair k 40 + k. -/
def fnIlk : Nat := 8
/-- The function number of a pair fault. -/
def fnFault (k : Fin 8) : Nat := 40 + k.val

/-- Dyke's 4-bit alive count (R261): it advances every 50 µs while Dyke runs. -/
def aliveCount (b : Block) : BitVec 4 := BitVec.ofNat 4 (if b.rst.dyke then (now b).toNat / 75000 else 0)

/-- A channel's decision of a trip of function `f`, held while the trip is in force. -/
def noteDecision (chan : Bool) (f : Nat) (b : Block) : Block :=
  if b.safX.decided.any (fun t => t.1 == chan && t.2.1 == f) then b
  else updSafX (fun x => { x with decided := x.decided ++ [(chan, f, now b)] }) b
/-- The trip of function `f` is over in both channels. -/
def tripOver (f : Nat) (b : Block) : Block := updSafX (fun x => { x with decided := x.decided.filter fun t => t.2.1 != f }) b

/-- A trip of function `f` decided by Dyke, by the hardware channel, or by both: the function acts at the first decision of
either channel, and the other channel's is awaited for 20 ms (R262). -/
def tripDecide (f : Nat) (dyke hw : Bool) (act : Block → Block) (b : Block) : Block :=
  let b := onlyIf hw (noteDecision false f) (onlyIf dyke (noteDecision true f) b)
  match b.safX.tripsOpen.find? fun t => t.2.1 == f with
  | some (d, _, _) =>
    if (d && hw) || (!d && dyke) then updSafX (fun x => { x with tripsOpen := x.tripsOpen.filter fun t => t.2.1 != f }) b else b
  | none =>
    if !dyke && !hw then b
    else act (if dyke && hw then b else updSafX (fun x => { x with tripsOpen := x.tripsOpen ++ [(dyke, f, now b)] }) b)

/-- DISAGREE_TIMEOUT: a trip of one channel not matched within 20 ms. -/
def disagreeTimeout (b : Block) : Block :=
  match b.safX.tripsOpen with
  | [] => b
  | t :: _ => afterTicks t.2.2 30000000 (fun b => disagree (updSafX (fun x => { x with tripsOpen := x.tripsOpen.tail }) b)) b

/-- At a period start each channel publishes its decisions and compares them with the other's: one that the other has not decided
within 20 ms is a disagreement. -/
def compareDecisions (b : Block) : Block :=
  let b := updSafX (fun x => { x with published := x.decided }) b
  let old := fun (t : Bool × Nat × U64) => decide (30000000 ≤ since b t.2.2)
  if b.safX.tripsOpen.any old then disagree (updSafX (fun x => { x with tripsOpen := x.tripsOpen.filter fun t => !old t }) b) else b

/-! ### Balls (R263, R264, R267) -/

/-- Supply A or B (`second`) is in its test pulse at instant `t`. -/
def inPulse (second : Bool) (t : Nat) : Bool := decide ((t + if second then 7500000 else 0) % 15000000 < 300000)
/-- The level of TP_A or TP_B: low in its pulse, while tide_ready is 0 and in replay mode (R538). -/
def tpOut (second : Bool) (b : Block) : Bool := b.tide.ready && !b.rpl.mode && !inPulse second (now b).toNat
/-- ILK_OUT_A or ILK_OUT_B: driven while the hub permit holds, pulsed with the supply of the same letter. -/
def ilkOut (second : Bool) (b : Block) : Bool := b.saf.hubPermit && b.tide.ready && !b.rpl.mode && !inPulse second (now b).toNat
/-- SAFE_STAT_A, driven by Dyke, and SAFE_STAT_B, driven by the hardware channel (`second`): high while the hub permit holds. -/
def safeStat (second : Bool) (b : Block) : Bool := b.saf.hubPermit && !b.rpl.mode && (second || b.rst.dyke)
/-- The first instant from now on at which input `i` is not blanked: 300 µs from the start of its own supply's pulse (R265). -/
def unblanked (i : Fin 16) (b : Block) : Nat :=
  let t := (now b).toNat
  let d := (t + if i.val % 2 = 1 then 7500000 else 0) % 15000000
  if d < 450000 then t + (450000 - d) else t

/-! ### Safety pairs (R263 to R266) -/

/-- ZONE_STOP over several nodes is one fault (R273 "L1 per node"): decided on the lowest, applied to the others. -/
def zoneStop (ns : List (Fin 16)) (b : Block) : Block :=
  let f := fun (n : Fin 16) => ({ cause := 2, scope := .node n, mode := .immediate, base := 1, lock := true, reason := .safety } : FaultSpec)
  match ns with
  | [] => b
  | n :: r =>
    contain (f n) (forAll r (fun n b =>
      openWindow 2 (.node n) 1 (updSaf (fun x => { x with episodeScopes := x.episodeScopes ++ [.node n] }) (applyOwn (f n) b))) b)

/-- The function of pair `k` acts (R266, R273): source 290. -/
def pairActs (k : Fin 8) (b : Block) : Block :=
  let p := safPair b k
  if p.acting ∨ p.function = 0 then b
  else
    let b := irq 290 (updSafPair k (fun p => { p with acting := true }) b)
    if p.function = 1 then contain { cause := 1, scope := .hub, mode := .hubStop, base := 3, lock := true, reason := .safety } b
    else zoneStop (nodesOf p.nodes.toNat) b

/-- The inputs of pair `k` have begun or ceased to differ. -/
def pairDiffer (k : Fin 8) (b : Block) : Block :=
  let d := (inputOpen b ⟨2 * k.val, by omega⟩) != (inputOpen b ⟨2 * k.val + 1, by omega⟩)
  updSafPair k (fun p => { p with diffSince := if d then (match p.diffSince with | some t => some t | none => some (now b)) else none }) b

/-- SAFETY_INPUT_OPEN: input `i` counts as open, outside its blanking window; one open input of a used pair is enough. -/
def safetyInputOpen (i : Fin 16) (dyke hw : Bool) (b : Block) : Block :=
  let k := inputPair i
  if (safPair b k).function = 0 then b
  else
    atInstant (unblanked i b) (fun b =>
      let b := updSaf (fun x => { x with
        inputClosed := x.inputClosed &&& ~~~(BitVec.ofNat 16 (2 ^ i.val))
        openSince := vupd x.openSince i fun t => match t with | some t => some t | none => some (now b) }) b
      tripDecide k.val dyke hw (pairActs k) (pairDiffer k b)) b

/-- SAFETY_INPUT_CLOSE: input `i` reads closed; the pair stops acting when neither input is open and no fault is latched. -/
def safetyInputClose (i : Fin 16) (b : Block) : Block :=
  let k := inputPair i
  if (safPair b k).function = 0 then b
  else
    let b := updSaf (fun x => { x with
      inputClosed := x.inputClosed ||| BitVec.ofNat 16 (2 ^ i.val), openSince := vset x.openSince i none }) b
    let b := pairDiffer k b
    let open_ := (pairInputs k).any (inputOpen b)
    updSafPair k (fun p => { p with acting := p.acting && (open_ || p.faultLatched) }) (onlyIf (!open_) (tripOver k.val) b)

/-- The failed checks of pair `k` in one period as one channel reads them (R265): an input that does not read low at the end of its own
pulse, an input that reads low in the other pulse while its contact is closed, discrepancy, overloaded supplies. -/
def pairFails (b : Block) (x : PulseView) (k : Fin 8) : Nat :=
  let ins := pairInputs k
  (ins.filter fun i => !x.lowOwn.getLsbD i.val).length + (ins.filter fun i => x.lowOther.getLsbD i.val && b.saf.inputClosed.getLsbD i.val).length +
    b2n (match (safPair b k).diffSince with | some t => decide (30000000 < since b t) | none => false) + b2n x.overA + b2n x.overB

/-- The checks of pair `k` at the end of a period: a failure latches a pair fault (source 291), which acts as the function. -/
def pairCheck (x : TestPulse) (k : Fin 8) (b : Block) : Block :=
  let p := safPair b k
  if p.function = 0 then b
  else
    let d := pairFails b x.dyke k
    let h := pairFails b x.hw k
    if max d h = 0 then updSafPair k (fun p => { p with okPeriods := p.okPeriods + 1 }) b
    else
      let b := updSafX (fun x => { x with tpFaultCnt := satAdd x.tpFaultCnt (max d h) }) (updSafPair k (fun p => { p with okPeriods := 0, faultLatched := true }) b)
      tripDecide (fnFault k) (decide (0 < d)) (decide (0 < h)) (pairActs k) (onlyIf (!p.faultLatched) (irq 291) b)

/-- TEST_PULSE_PERIOD (R262, R264, R265, R267): the comparison of the channels and the checks of one period of 10 ms. -/
def testPulse (x : TestPulse) (b : Block) : Block :=
  if !b.tide.ready then b
  else
    atInstant (nextMultiple 15000000 b.safX.pulseAt b) (fun b =>
      let loop := x.retA && x.retB && !x.crossShort && !x.overload
      let b := updSafX (fun s => { s with pulseAt := some (now b) })
        (updSaf (fun s => { s with retA := x.retA, retB := x.retB, crossShort := x.crossShort, overload := x.overload }) b)
      compareDecisions (forAll (List.finRange 8) (pairCheck x) (onlyIf loop (tripOver fnIlk) b))) b

/-- PAIR_FAULT_CLEAR: ten periods without a failed check. -/
def pairFaultClear (k : Fin 8) (b : Block) : Block :=
  let p := safPair b k
  if p.faultLatched ∧ 10 ≤ p.okPeriods then
    updSafPair k (fun p => { p with faultLatched := false, acting := (pairInputs k).any (inputOpen b) }) (tripOver (fnFault k) b)
  else b

/-! ### Interlock loop, hardware channel, overvoltage -/

/-- ILK_FAULT (R267): what the readback shows, and a hub safe stop while the loops are driven. -/
def ilkFault (a b' cross overload dyke hw : Bool) (b : Block) : Block :=
  let b := updSaf (fun s => { s with retA := a, retB := b', crossShort := cross, overload := overload }) b
  tripDecide fnIlk dyke hw (fun b =>
    if b.saf.hubPermit then
      contain { cause := 3, scope := .hub, mode := .hubStop, base := 3, lock := true, reason := .safety } (irq 292 b)
    else b) b

/-- The update pause of Dyke runs (R505): the hardware channel extends its alive check over it. -/
def dykePaused (b : Block) : Bool :=
  match b.upd.pause with
  | some p => p.begun && decide (p.image = 1)
  | none => false
/-- DYKE_ALIVE_TIMEOUT (R261): the hardware channel clears its permit word; a hub safe stop with cause DISAGREE. -/
def dykeAliveTimeout (b : Block) : Block :=
  if !b.saf.dykeAlive || dykePaused b then b
  else
    let b := updSaf (fun s => { s with dykeAlive := false }) b
    disagree (forAll allNodes (fun n b => lsOff n (updNode n (fun x => { x with permitHw := false }) b)) b)

/-- OV_TRIP (R275): the comparator of node `n` trips, whatever the state of its channel. -/
def ovTrip (n : Fin 16) (dyke hw : Bool) (b : Block) : Block :=
  tripDecide (16 + n.val) dyke hw (fun b =>
    if (nodeOf b n).ovTripped then b
    else contain { cause := 4, scope := .node n, mode := .immediate, base := 1, lock := true, reason := .safety }
      (irq 293 (updNode n (fun x => { x with ovTripped := true }) b))) b

/-- The comparator level of node `n` in 1/1,024 of full scale (R275): V_ov through the scale of channel 2n, rounded up. -/
def ovLevel (b : Block) (n : Fin 16) : Nat :=
  let c := (chanOf b (voltChan n)).cfg
  let s := (exactF c.scale).toNat * 83886070
  if c.sensor = 0 ∨ s = 0 then 1024 else min 1024 (((nodeOf b n).ovThr.toNat * 2 ^ 149 * 1024 + s - 1) / s)
/-- The comparator releases below this level, in 1/51,200 of full scale. -/
def ovReleaseLevel (b : Block) (n : Fin 16) : Nat := 49 * ovLevel b n
/-- OVERVOLTAGE_RELEASE (R275). -/
def ovRelease (n : Fin 16) (b : Block) : Block := reviewHw (updNode n (fun x => { x with ovTripped := false }) (tripOver (16 + n.val) b))

/-- PILOT_BACKUP (R276): after 88 bad periods the hardware channel clears its bit; that is a disagreement. -/
def pilotBackup (n : Fin 16) (b : Block) : Block :=
  let x := nodeOf b n
  if x.permitHw ∧ x.closed ∧ 88 ≤ x.pilotBad then
    disagree (lsOff n (updNode n (fun x => { x with backupActed := true, permitHw := false }) b))
  else b

/-- RAMPED_STOP_TIMEOUT (R269, R274): zero verification, or 20 ms after the decision. -/
def rampedStop (n : Fin 16) (b : Block) : Block :=
  match (nodeOf b n).rampedAt with
  | none => b
  | some t => if (sessOf b n).zeroVerified then rampedOpen n b else afterTicks t 30000000 (rampedOpen n) b

/-- CONTACTOR_CLOSE_TIMEOUT (R270): not confirmed 50 ms after both channels turned on. -/
def closeTimeout (n : Fin 16) (b : Block) : Block :=
  match (nodeOf b n).closeAt with
  | none => b
  | some t => afterTicks t (50 * tMs) (fun b => contactorFault n (updNode n (fun x => { x with closeAt := none }) b)) b

/-- The supply channel of node `n` is turned off because its coil current has not fallen (R270, R303). A second node on the
channel loses its supply: containment at L2 on the lane. -/
def stuckSupply (n : Fin 16) (b : Block) : Block :=
  let s := (lsOf b n).supply.toNat
  if s < 40 then
    let b1 := hsEntry 130 s 2 (ahead b fwLead) b
    if (sharers b n).any (· != n) then deviceFault (.lane (laneOf n)) 2 b1 else b1
  else b

/-- CONTACTOR_OPEN_CHECK (R270, R303): 10 ms after turn-off the opening is late; 50 ms after it a hub safe stop. -/
def openCheck (n : Fin 16) (b : Block) : Block :=
  match (nodeOf b n).openAt with
  | none => b
  | some t =>
    if (nodeOf b n).openLate then
      afterTicks t (50 * tMs) (fun b =>
        contain { cause := 0x0A, scope := .hub, mode := .hubStop, base := 3, lock := true, reason := .safety }
          (irq 301 (updNode n (fun x => { x with openAt := none }) b))) b
    else
      afterTicks t (10 * tMs) (fun b =>
        stuckSupply n (irqs [329, 301] (updLs n (fun x => { x with stuck := true, decaySlow := true })
          (updNode n (fun x => { x with openLate := true }) b)))) b

/-! ### Deliberate reset (R279, R280) -/

/-- A pulse width in µs is within 0.2 s to 2 s. -/
def pulseValid (w : Nat) : Bool := decide (200000 ≤ w ∧ w ≤ 2000000)

/-- SAFE_RESET_PULSE (R279): the width in µs that Dyke and the hardware channel measured, low periods shorter than 1 ms left out. -/
def resetPulse (dyke hw : Nat) (b : Block) : Block :=
  if !b.tide.ready then b
  else
    let good := pulseValid dyke && pulseValid hw
    let b := updSafX (fun x => { x with width := satNat 16 (dyke / 1000), valid := good }) b
    if good then irq 298 (updSaf (fun s => { s with resetArmedUntil := some (ahead b (10 * tSec)) }) b)
    else if pulseValid dyke || pulseValid hw then disagree b
    else irqLog wDyke 299 0xFFFF (updSafX (fun x => { x with rejected := satInc x.rejected }) b)

/-- RESET_ARM_EXPIRED. -/
def armExpired (b : Block) : Block :=
  match b.saf.resetArmedUntil with
  | none => b
  | some t => atInstant t.toNat (updSaf fun s => { s with resetArmedUntil := none }) b

/-- The used pairs of a function whose mask meets `ns` are closed and free of faults. -/
def pairsClear (b : Block) (f : BitVec 2) (ns : List (Fin 16)) : Bool :=
  (List.finRange 8).all fun k =>
    let p := safPair b k
    p.function != f || (f == 2 && !(ns.any fun n => p.nodes.getLsbD n.val)) || (!p.acting && !p.faultLatched)

/-- The cause of a lock-out of scope `s` has cleared (R280 condition 3). -/
def causeClear (b : Block) (s : CScope) (c : U8) : Bool :=
  let ns := s.nodes
  match c.toNat with
  | 1 => pairsClear b 1 ns
  | 2 => pairsClear b 2 ns
  | 3 => b.saf.retA && b.saf.retB && !b.saf.crossShort && !b.saf.overload
  | 4 => ns.all fun n => !(nodeOf b n).ovTripped
  | 6 => ns.all fun n => !(imdOf b n).fault
  | 7 => b.rcm.toList.all fun r => !r.trip && !r.lost
  | 8 => ns.all fun n => !(nodeOf b n).overTemp
  | 0x0A => ns.all fun n => (nodeOf b n).openVerified
  | 0x0B => b.tide.ready
  | 0x0D => b.safX.tripsOpen == [] && b.saf.dykeAlive
  | 0x0E => b.saf.cfgOk
  | _ => true

/-- The causes recorded for a lock-out. -/
def lockCauses (b : Block) : CScope → List U8
  | .node n => (nodeOf b n).causes
  | .lane l => vget b.saf.laneCauses l
  | .hub => b.saf.hubCauses

/-- The lock-out of scope `s` may be cleared (R280 conditions 3 and 4). -/
def mayClear (b : Block) (s : CScope) : Bool := (lockCauses b s).all (causeClear b s) && s.nodes.all fun n => !(nodeOf b n).weldNeed

/-- A connector no lock-out covers any more leaves FAULTED: IDLE when the pilot shows A, else ENDED; its duty is restored. -/
def coverLifted (n : Fin 16) (b : Block) : Block :=
  if lockedOut b n then b
  else
    let p := (sessOf b n).phase
    let b := if p = .ended ∨ p = .idle then (if (vehOf b n).state = .a then toIdle n b else enterPhase n .ended b) else b
    unlockIfDue n (dutyReview n b)

/-- Clear one lock-out (R280): registers, SAFETY partition, legal log, source 289. -/
def clearLock (s : CScope) (b : Block) : Block :=
  let c := (lockCauses b s).headD 0
  let dis := (lockCauses b s).contains 0x0D
  let b := match s with
    | .node n => updLs n (fun x => { x with ocLatch := false, otLatch := false }) (updNode n (fun x => { x with lockout := false, causes := [] }) b)
    | .lane l => updSaf (fun x => { x with
        laneLockout := x.laneLockout &&& ~~~(BitVec.ofNat 8 (2 ^ l.val)), laneCauses := vset x.laneCauses l [] }) b
    | .hub => updSaf (fun x => { x with hubLockout := false, hubCauses := [], agree := x.agree || dis }) b
  let b := onlyIf dis (forAll allNodes fun n => updNode n fun x => { x with backupActed := false }) b
  let b := saveSafety (lockoutLog 2 s c (irq 289 b))
  reviewHw (reviewHub (forAll s.nodes coverLifted b))

/-- The lock-outs that a SAF_RESET_ACK names and that hold. -/
def namedLocks (b : Block) (nodes lanes : Nat) (hub : Bool) : List CScope :=
  (((nodesOf nodes).map CScope.node ++ ((List.finRange 8).filter fun l : Fin 8 => bitOf lanes l.val).map CScope.lane) ++ (if hub then [CScope.hub] else [])).filter (lockHeld b)

/-- SAF_RESET_ACK (R280). -/
def safResetAck (m : Fin 4) (b : Block) : Block :=
  let nm := rN b m 0 2
  let lm := rN b m 2 1
  let h := rN b m 3 1
  checked m [(0x0901, decide (h ≤ 1)), (0x0904, b.saf.resetArmedUntil.isSome)] (fun b =>
    let b := updSaf (fun s => { s with resetArmedUntil := none }) b
    if b.saf.windows ≠ [] then refuse m 0x0906 b
    else
      let ls := namedLocks b nm lm (h == 1)
      let good := ls.filter (mayClear b)
      let bad := ls.filter fun s => !mayClear b s
      if good.isEmpty ∧ !bad.isEmpty then refuse m 0x0905 b
      else
        let bitsOf := fun (l : List CScope) (k : Nat) => (l.filterMap fun s => if s.kind.1 = k then some (2 ^ s.kind.2) else none).sum
        let b := endEpisode (forAll good clearLock b)
        cmdLog m 0 (ok m (leBytes 2 (bitsOf good 0) ++ leBytes 1 (bitsOf good 1) ++ leBytes 1 (bitsOf good 2) ++ leBytes 2 (bitsOf bad 0)) b)) b

/-! ### Containment in time (R281, R282) -/

/-- A containment is not safe at the end of its recovery time: it escalates by one level. -/
def escalate (w : Containment) (b : Block) : Block :=
  let k := w.level + 1
  let s := widen k w.scope
  let r := episodeReason b
  let lock := b.saf.episodeLocks
  let b := irq 297 (updSaf (fun x => { x with episodeScopes := x.episodeScopes.filter (fun y => !s.covers y) ++ [s] }) b)
  match s with
  | .lane l => openWindow w.cause s k (applyLane l r lock w.cause b)
  | _ => openWindow w.cause .hub 3 (applyHub false r lock w.cause b)

/-- The window that closes first. -/
def firstWindow (b : Block) : Option Containment :=
  b.saf.windows.foldl (fun a w => match a with
    | none => some w
    | some v => if w.until_.toNat < v.until_.toNat then some w else a) none

/-- RECOVERY_WINDOW_EXPIRED: a window closes; its scope is safe, or it escalates. -/
def windowExpired (b : Block) : Block :=
  match firstWindow b with
  | none => b
  | some w => atInstant w.until_.toNat (fun b =>
      let b := updSaf (fun x => { x with windows := x.windows.erase w }) b
      if b.saf.level.toNat < 3 ∧ !scopeSafe b w.scope then escalate w b else endEpisode b) b

/-! ### Registers (R285) -/

/-- Whole ms until the last window closes. -/
def episodeRemaining (b : Block) : Nat :=
  let e := (b.saf.windows.map fun w => w.until_.toNat).foldl max 0
  min 65535 ((e - (now b).toNat + tMs - 1) / tMs)
/-- The cause that SAF_NODE_STAT shows: of the lock-out that covers node `n`. -/
def coverCause (b : Block) (n : Fin 16) : U8 :=
  if (nodeOf b n).lockout then (nodeOf b n).causes.headD 0
  else if b.saf.laneLockout.getLsbD (laneOf n).val then (vget b.saf.laneCauses (laneOf n)).headD 0
  else if b.saf.hubLockout then b.saf.hubCauses.headD 0 else 0
/-- SAF_NODE_STAT(n). -/
def nodeStatWord (b : Block) (n : Fin 16) : U32 :=
  let x := nodeOf b n
  reg32 [(0, b2n x.permitDyke), (1, b2n x.permitHw), (2, b2n x.closed), (3, b2n x.openVerified), (4, x.weld.toNat), (6, b2n (lockedOut b n)),
    (7, b2n x.ovArmed), (8, (coverCause b n).toNat)]
/-- SAF_PAIR_CFG(k). -/
def pairCfgWord (p : SafPair) : U32 := reg32 [(0, p.function.toNat), (16, p.nodes.toNat)]
/-- SAF_TIMING. -/
def safTimingWord (x : SafetyX) : U32 := reg32 [(0, x.tTrip.toNat), (8, x.ovMargin.toNat), (16, x.tDrop.toNat)]
/-- The number whose bit `k` is a predicate of pair `k`. -/
def pairBits (b : Block) (f : SafPair → Bool) : Nat := bitsNat (b.saf.pairs.toList.map f)

/-- The read value of word `a` of the SAF block. -/
def safWord (b : Block) (a : Nat) : U32 :=
  let s := b.saf
  let x := b.safX
  if a = 0x780 then reg32 [(0, b2n s.hubPermit), (1, b2n s.ilkClosed), (2, b2n s.dykeAlive), (3, b2n s.agree), (4, b2n s.hubLockout),
    (5, b2n s.resetArmedUntil.isSome), (6, b2n s.cfgOk)]
  else if a = 0x781 then reg32 [(0, nodeBits fun n => (nodeOf b n).permitDyke), (16, nodeBits fun n => (nodeOf b n).permitHw)]
  else if a = 0x782 then reg32 [(0, nodeBits fun n => (nodeOf b n).lockout), (16, s.laneLockout.toNat), (24, b2n s.hubLockout)]
  else if a = 0x783 then reg32 [(0, s.inputClosed.toNat), (16, pairBits b (·.acting)), (24, pairBits b (·.faultLatched))]
  else if a = 0x784 then reg32 [(0, b2n s.retA), (1, b2n s.retB), (2, b2n s.crossShort), (3, b2n s.overload)]
  else if a = 0x785 then reg32 [(0, s.level.toNat), (2, s.episodeFaults.toNat), (16, episodeRemaining b)]
  else if a = 0x786 then reg32 [(0, x.width.toNat), (16, b2n x.valid), (24, x.rejected.toNat)]
  else if a = 0x787 then safTimingWord x
  else if a = 0x788 then s.cfgCrc
  else if a = 0x789 then lo32 x.lastTick
  else if a = 0x78A then hi32 x.lastTick
  else if a = 0x78B then reg32 [(0, x.last.cause.toNat), (8, x.last.scope.toNat), (16, x.last.base.toNat), (18, x.last.applied.toNat)]
  else if a = 0x78C then x.loadOpenCnt
  else if a = 0x78D then x.tpFaultCnt
  else if h : 0x790 ≤ a ∧ a ≤ 0x797 then pairCfgWord (safPair b ⟨a - 0x790, by omega⟩)
  else if h : 0x7A0 ≤ a ∧ a ≤ 0x7AF then nodeStatWord b ⟨a - 0x7A0, by omega⟩
  else if h : 0x7B0 ≤ a ∧ a ≤ 0x7BF then (nodeOf b ⟨a - 0x7B0, by omega⟩).ovThr.setWidth 32
  else 0

/-! ### Commands (R287) -/

/-- The bytes of the safety configuration: the eight pair words and the timing word. -/
def safCfgBytes (b : Block) : List U8 := b32s ((List.finRange 8).map fun k => pairCfgWord (safPair b k)) ++ b32 (safTimingWord b.safX)

/-- SAF_GET_STATUS. -/
def safGetStatus (m : Fin 4) (b : Block) : Block := ok m (b32s ((List.range 16).map fun k => safWord b (0x780 + k))) b

/-- A pair set to UNUSED is no longer sampled (R266). -/
def pairUnused (k : Fin 8) (b : Block) : Block :=
  tripOver k.val (tripOver (fnFault k) (updSaf (fun s => { s with
    openSince := (pairInputs k).foldl (fun v i => vset v i none) s.openSince
    inputClosed := (pairInputs k).foldl (fun v i => v &&& ~~~(BitVec.ofNat 16 (2 ^ i.val))) s.inputClosed }) b))
/-- SAF_SET_CONFIG: loaded by both channels, checked, stored and written to the legal log; a pair whose new function or mask meets an
open input acts. -/
def safSetConfig (m : Fin 4) (b : Block) : Block :=
  let w := fun (k : Nat) => rN b m (4 * k) 4
  let t := w 8
  let good := (List.range 8).all (fun k => decide (fieldOf (w k) 0 2 ≤ 2 ∧ fieldOf (w k) 2 14 = 0)) &&
    decide (b.vehCfg.tEnd.toNat + 1 ≤ fieldOf t 0 8 ∧ fieldOf t 0 8 ≤ 170 ∧ 10 ≤ fieldOf t 8 8 ∧ fieldOf t 8 8 ≤ 100 ∧
      2 ≤ fieldOf t 16 8 ∧ fieldOf t 16 8 ≤ 10 ∧ fieldOf t 24 8 = 0)
  checked m [(0x0902, good), (0x0903, allQuiet b)] (fun b =>
    let b := updSaf (fun s => { s with pairs := vmapIdx s.pairs fun k p =>
      let f := BitVec.ofNat 2 (fieldOf (w k.val) 0 2)
      let q : SafPair := { function := f, nodes := BitVec.ofNat 16 (fieldOf (w k.val) 16 16) }
      if f = 0 then q else { p with function := q.function, nodes := q.nodes, acting := p.acting && p.function == f && p.nodes == q.nodes } }) b
    let b := forAll (List.finRange 8) (fun k b => if (safPair b k).function = 0 then pairUnused k b
      else if (pairInputs k).any (inputOpen b) || (safPair b k).faultLatched then pairActs k b else b) b
    let b := updSafX (fun x => { x with
      tTrip := BitVec.ofNat 8 (fieldOf t 0 8), ovMargin := BitVec.ofNat 8 (fieldOf t 8 8), tDrop := BitVec.ofNat 8 (fieldOf t 16 8) }) b
    let b := updSaf (fun s => { s with cfgOk := true, cfgCrc := crc32c (safCfgBytes b) }) b
    cmdLog m 0 (ok m (b32 b.saf.cfgCrc) (legalLog 0x0041 wDyke (b32 b.saf.cfgCrc) (saveSettings b)))) b

/-- SAF_GET_NODE. -/
def safGetNode (m : Fin 4) (b : Block) : Block :=
  let n := reqNode b m
  let x := nodeOf b n
  checked m [nodeCheck 0x0901 b m] (fun b =>
    ok m (b32s [nodeStatWord b n, x.ovThr.setWidth 32] ++ b64 x.lastOpen ++ [BitVec.ofNat 8 (b2n x.underLoad)]) b) b

/-- One record of SAF_GET_FAULTS. -/
def faultBytes (r : FaultRec) : List U8 :=
  b64 r.tick ++ [r.cause, r.scope.setWidth 8, r.base.setWidth 8, r.applied.setWidth 8, r.faults.setWidth 8, 0, 0, 0]

/-- SAF_GET_FAULTS: the last eight records, newest first. -/
def safGetFaults (m : Fin 4) (b : Block) : Block := ok m (padTo 128 (b.saf.records.flatMap faultBytes)) b

/-- SAF_CLEAR_COUNTS. -/
def safClearCounts (m : Fin 4) (b : Block) : Block :=
  ok m [] (updSafX (fun x => { x with loadOpenCnt := 0, tpFaultCnt := 0, rejected := 0 }) b)

/-- TEST_PULSE_PERIOD (R264). -/
def execTestPulsePeriod (x : TestPulse) (s : State) : Result := s.input (testPulse x)
/-- PAIR_FAULT_CLEAR (R265). -/
def execPairFaultClear (k : Fin 8) (s : State) : Result := s.run (pairFaultClear k)
/-- SAFETY_INPUT_OPEN (R265). -/
def execSafetyInputOpen (i : Fin 16) (dyke hw : Bool) (s : State) : Result := s.input (safetyInputOpen i dyke hw)
/-- SAFETY_INPUT_CLOSE (R265). -/
def execSafetyInputClose (i : Fin 16) (s : State) : Result := s.input (safetyInputClose i)
/-- ILK_FAULT (R267). -/
def execIlkFault (a b cross overload dyke hw : Bool) (s : State) : Result := s.input (ilkFault a b cross overload dyke hw)
/-- DYKE_ALIVE_TIMEOUT (R261). -/
def execDykeAliveTimeout (s : State) : Result := s.run dykeAliveTimeout
/-- DISAGREE_TIMEOUT (R262). -/
def execDisagreeTimeout (s : State) : Result := s.run disagreeTimeout
/-- OV_TRIP (R275). -/
def execOvTrip (n : Fin 16) (dyke hw : Bool) (s : State) : Result := s.input (ovTrip n dyke hw)
/-- OVERVOLTAGE_RELEASE (R275). -/
def execOvervoltageRelease (n : Fin 16) (s : State) : Result := s.input (ovRelease n)
/-- PILOT_BACKUP (R276). -/
def execPilotBackup (n : Fin 16) (s : State) : Result := s.input (pilotBackup n)
/-- RAMPED_STOP_TIMEOUT (R274). -/
def execRampedStopTimeout (n : Fin 16) (s : State) : Result := s.run (rampedStop n)
/-- CONTACTOR_CLOSE_TIMEOUT (R270). -/
def execContactorCloseTimeout (n : Fin 16) (s : State) : Result := s.run (closeTimeout n)
/-- CONTACTOR_OPEN_CHECK (R270). -/
def execContactorOpenCheck (n : Fin 16) (s : State) : Result := s.run (openCheck n)
/-- SAFE_RESET_PULSE (R279). -/
def execSafeResetPulse (dyke hw : Nat) (s : State) : Result := s.input (resetPulse dyke hw)
/-- RESET_ARM_EXPIRED (R279). -/
def execResetArmExpired (s : State) : Result := s.run armExpired
/-- RECOVERY_WINDOW_EXPIRED (R281). -/
def execRecoveryWindowExpired (s : State) : Result := s.run windowExpired
/-- SAF_GET_STATUS (R287). -/
def execSafGetStatus (m : Fin 4) (s : State) : Result := s.run (command m 0x0901 .dyke (safGetStatus m))
/-- SAF_SET_CONFIG (R287). -/
def execSafSetConfig (m : Fin 4) (s : State) : Result := s.run (command m 0x0902 .dyke (safSetConfig m))
/-- SAF_RESET_ACK (R280). -/
def execSafResetAck (m : Fin 4) (s : State) : Result := s.run (command m 0x0903 .dyke (safResetAck m))
/-- SAF_GET_NODE (R287). -/
def execSafGetNode (m : Fin 4) (s : State) : Result := s.run (command m 0x0905 .dyke (safGetNode m))
/-- SAF_GET_FAULTS (R287). -/
def execSafGetFaults (m : Fin 4) (s : State) : Result := s.run (command m 0x0906 .dyke (safGetFaults m))
/-- SAF_CLEAR_COUNTS (R287). -/
def execSafClearCounts (m : Fin 4) (s : State) : Result := s.run (command m 0x0907 .dyke (safClearCounts m))

end Sys2Proof.Machine
end

