-- ==== Sys2Proof/Machine/Pilot.lean ====
section
/-! DEFINITION. Control pilot, proximity, cable temperature and cable locks of the connectors (08_pilot.md R190 to R212). -/

namespace Sys2Proof.Machine

/-! ### Periods and duty (R192, R193) -/

/-- The first instant at or after `x` that is `o` past a multiple of the PWM period. -/
def gridAt (o x : Nat) : Nat := if x ≤ o then o else o + multipleFrom tMs (x - o)
/-- The first period start of connector `n` at or after `t`. -/
def periodStart (n : Fin 16) (t : Nat) : Nat := gridAt (n.val * 93750) t
/-- The duty in force at instant `t`. -/
def dutyAt (v : Connector) (t : Nat) : BitVec 10 :=
  match v.pendingDuty with
  | some (d, s) => if s.toNat ≤ t then d else v.duty
  | none => v.duty
/-- The period start from which that duty holds. -/
def dutyFrom (v : Connector) (t : Nat) : U64 :=
  match v.pendingDuty with
  | some (d, s) => if s.toNat ≤ t ∧ d ≠ v.duty then s else v.dutySince
  | none => v.dutySince
/-- A duty of 30 to 970 per mille gives PWM. -/
def isPwm (d : BitVec 10) : Bool := decide (30 ≤ d.toNat ∧ d.toNat ≤ 970)
/-- SET_DUTY fires at its time: the duty from the first period start at or after it (R193). -/
def pilotDuty (n : Fin 16) (d : Nat) (b : Block) : Block :=
  updVeh n (fun v => { v with
    duty := dutyAt v (now b).toNat, diodeRun := if dutyAt v (now b).toNat = v.duty then v.diodeRun else 0
    dutySince := dutyFrom v (now b).toNat, pendingDuty := some (BitVec.ofNat 10 d, BitVec.ofNat 64 (periodStart n (now b).toNat)) }) b
/-- A SET_DUTY entry was not executed: Sedge orders the duty anew. -/
def dutyLost (n : Fin 16) (b : Block) : Block :=
  dutyReview n (updVeh n (fun v => { v with ordered := match v.pendingDuty with | some (d, _) => d | none => v.duty }) b)
/-- A pending duty whose period has started is in force; a change clears the diode-failure count (R198). -/
def settleDuty (n : Fin 16) (b : Block) : Block :=
  let d := dutyAt (vehOf b n) (now b).toNat
  updVeh n (fun v => { v with
    duty := d, diodeRun := if d = v.duty then v.diodeRun else 0, dutySince := dutyFrom v (now b).toNat
    pendingDuty := match v.pendingDuty with | some (p, s) => if s.toNat ≤ (now b).toNat then none else some (p, s) | none => none }) b
/-- The last period start of connector `n` at or before `t`; its first one when none is. -/
def periodOf (n : Fin 16) (t : Nat) : Nat := n.val * 93750 + (t - n.val * 93750) / tMs * tMs
/-- CP_OUT of connector `n` at Tide `t`, from the duties known now (R190, R192): high commands +12 V. A PWM period rises at its start and
falls after duty × 1,500 ticks; duty 0 is low and 1,000 high throughout; low before the first period. -/
def cpOut (v : Connector) (n : Fin 16) (t : Nat) : Bool :=
  let p := periodOf n t
  let d := dutyAt v p
  decide (p ≤ t) && (d == 1000 || isPwm d && decide (t < p + d.toNat * 1500))

/-! ### Pilot loss and phases (R199, R200) -/

/-- The pilot-loss safety function (R200): source 193. -/
def pilotLost (n : Fin 16) (b : Block) : Block :=
  contain { cause := 5, scope := .node n, mode := .ramped, base := 1, lock := false, reason := .pilotLoss }
    (irq 193 (updVeh n (fun v => { v with pilotLoss := true }) b))
/-- A condition of R200 that holds as connector `n` enters CABLE_CHECK is pilot loss. -/
def pilotCheck (n : Fin 16) (b : Block) : Block := onlyIf (pilotBad b n && (phaseOf b n).mayClose) (pilotLost n) b
/-- A change of the pilot, proximity or sense state of connector `n`; in the energised phases a condition of R200 that appears is
the pilot-loss safety function. -/
def pilotEvent (n : Fin 16) (f : Connector → Connector) (b : Block) : Block :=
  let was := pilotBad b n
  let b := updVeh n f b
  onlyIf (!was) (pilotCheck n) b

/-- ENDED becomes IDLE at pilot state A, unless a failed unlock holds it (R199, R207). -/
def idleIfFree (n : Fin 16) (b : Block) : Block :=
  let v := vehOf b n
  if phaseOf b n = .ended ∧ v.state = .a ∧ !v.unlockFailed then unlockIfDue n (toIdle n b) else b

/-- IDLE becomes CONNECTED at state B with PP valid, no pilot fault and the lock unlocked and at rest (R199, R200, R209): the lock moves. -/
def connect (n : Fin 16) (b : Block) : Block :=
  let v := vehOf b n
  if phaseOf b n = .idle ∧ v.state = .b ∧ !pilotBad b n ∧ v.lockState = 2 ∧ v.move.isNone ∧ b.rst.sedge then startMove n true none (enterPhase n .connected b)
  else b

/-- CONNECTED becomes ASSOCIATING once the lock is verified and 5 % duty is in force (R18, R199); a pilot fault holds it (R200). -/
def associate (n : Fin 16) (b : Block) : Block :=
  let v := vehOf b n
  if phaseOf b n = .connected ∧ v.lockState = 1 ∧ v.duty = 50 ∧ !pilotBad b n then
    let b := enterPhase n .associating b
    { b with plc := vupd b.plc n fun x => { x with slacState := 1, attempt := 1, timerAt := v.dutySince, assoc := b.plcCfg.set, heardParm := false, run := none, linkUp := false } }
  else b

/-- The connector at a start (R209): at pilot state B, C or D without a session it is held in ENDED until state A; its lock is
brought to the unlocked state. -/
def settleStart (n : Fin 16) (b : Block) : Block :=
  let v := vehOf b n
  if !v.starting ∨ !b.rst.sedge then b
  else
    let due := updVeh n (fun v => { v with starting := false, unlockDue := true })
    match v.state with
    | .a => due b
    | .b | .c | .d => if phaseOf b n = .idle then due (enterPhase n .ended b) else due b
    | _ => b
/-- What waits for the state of connector `n` is looked at again. -/
def pilotReview (n : Fin 16) (b : Block) : Block := dutyReview n (associate n (connect n (idleIfFree n (unlockIfDue n (settleStart n b)))))

/-! ### Samples (R194 to R198, R203, R204) -/

/-- The raw state of a high level (R195): the comparators, the SAR value in 10 mV, and vent_ok. -/
def rawHigh (comp : Fin 7) (sar : Int) (vent : Bool) : CpState :=
  if 1350 < sar then .invalid
  else match comp.val with
  | 6 => .a
  | 5 => .b
  | 4 => .c
  | 3 => if vent then .d else .invalid
  | 2 => .e
  | _ => .invalid

/-- The six thresholds in 10 mV. -/
def cpThresholds : List Int := [-1050, -150, 150, 450, 750, 1050]
/-- How many thresholds a SAR value reaches. -/
def sarComp (v : Int) : Nat := (cpThresholds.filter fun t => decide (t ≤ v)).length
/-- The class of a comparator pattern: below -1.5 V is one class of a high sample; a sample at duty 0 has the classes F and not F. -/
def compClass (dutyZero : Bool) (k : Nat) : Nat := if dutyZero then min k 1 else max k 1
/-- The SAR value mismatches the comparators (R197): another class, and not within 0.25 V of a threshold. -/
def sarMismatch (dutyZero : Bool) (x : PilotReading) : Bool :=
  compClass dutyZero (sarComp x.sar) != compClass dutyZero x.comp.val && cpThresholds.all fun t => decide (25 < (x.sar - t).natAbs)

/-- R = R_PU × V / (VDD_ANA - V) with V twice the level of PP_SENSE, in ohm rounded down; none above 10,000 Ω (R203). -/
def ppResistance (pp vdd : Nat) : Option Nat :=
  if vdd ≤ 2 * pp then none
  else
    let r := 2000 * pp / (vdd - 2 * pp)
    if 10000 < r then none else some (max 50 r)
/-- The class that a resistance matches within ±8 % (R204). -/
def ppMatch (l : List PpClass) (r : Nat) : Option (Fin 8) :=
  (List.finRange 8).find? fun k =>
    let c := l.getD k.val {}
    c.valid && decide (92 * c.centre.toNat ≤ 100 * r ∧ 100 * r ≤ 108 * c.centre.toNat)
/-- The classes in force for the period that began at `p`: a change applies from the next period start (R212). -/
def ppClassesAt (g : VehCfg) (p : Nat) : List PpClass := if p < g.ppFrom.toNat then g.ppOld else g.ppClasses

/-- The PP reading of a period that began at `p`. A match of the class in force gives the rating that the table has for it. -/
def ppSample (n : Fin 16) (p : Nat) (x : PilotReading) (b : Block) : Block :=
  let r := ppResistance x.pp x.vdd
  let l := ppClassesAt b.vehCfg p
  let k := match r with | some r => ppMatch l r | none => none
  updVeh n (fun v => { v with
    ppRating := match k with | some k => if v.ppValid ∧ v.ppClass.toNat = k.val then (l.getD k.val {}).rating else v.ppRating | none => v.ppRating
    ppOhm := match r with | some r => satNat 16 r | none => 0xFFFF
    ppRun := if v.ppRaw = k then v.ppRun + 1 else 1, ppRaw := k, ppAt := now b }) b

/-- The raw state of a period and its mismatch count. -/
def rawSample (n : Fin 16) (raw : CpState) (mis : Bool) (b : Block) : Block :=
  updVeh n (fun v => { v with
    rawRun := if v.raw = raw then v.rawRun + 1 else 1, raw := raw, rawAt := now b
    invalidCnt := if raw = .invalid then satInc v.invalidCnt else v.invalidCnt
    mismatchRun := if mis then v.mismatchRun + 1 else 0, matchRun := if mis then 0 else v.matchRun + 1 }) b

/-- The diode check of a low sample (R196, R198). -/
def diodeSample (n : Fin 16) (good : Bool) (b : Block) : Block :=
  updVeh n (fun v => { v with
    diodeRun := if good then 0 else v.diodeRun + 1, diodeOkRun := if good then v.diodeOkRun + 1 else 0
    diodeCnt := if good then v.diodeCnt else satInc v.diodeCnt }) b

/-- A high sample (duty other than 0). -/
def pilotHigh (n : Fin 16) (x : PilotReading) (b : Block) : Block :=
  let v := vehOf b n
  let b := updVeh n (fun v => { v with highAt := some (now b), high := BitVec.ofInt 16 x.sar, highBad := !(decide (3 ≤ x.comp.val ∧ x.comp.val ≤ 5)) }) b
  let b := onlyIf (v.duty == 1000) (updNode n fun y => { y with pilotBad := 0 }) b
  pilotReview n (ppSample n ((now b).toNat - 30000) x (rawSample n (rawHigh x.comp x.sar v.ventOk) (sarMismatch false x) b))

/-- A low sample (duty other than 1,000); at duty 0 it is the period's only sample. -/
def pilotLow (n : Fin 16) (x : PilotReading) (b : Block) : Block :=
  let v := vehOf b n
  let good := x.comp == 0
  let b := diodeSample n good (updVeh n (fun v => { v with lowAt := some (now b), low := BitVec.ofInt 16 x.sar }) b)
  if v.duty = 0 then
    let b := updNode n (fun y => { y with pilotBad := 0 }) b
    pilotReview n (ppSample n ((now b).toNat - 30000) x (rawSample n (if good then .f else .invalid) (sarMismatch true x) b))
  else updNode n (fun y => { y with pilotBad := if v.highBad || !good then y.pilotBad + 1 else 0 }) b

/-- Offset of a sample within its period. -/
def sampleOffset (low : Bool) (d : BitVec 10) : Nat := (if low && isPwm d then d.toNat * 1500 else 0) + 30000
/-- Such a sample is taken in a period of duty `d`. -/
def sampleTaken (low : Bool) (d : BitVec 10) : Bool := if low then d != 1000 else d != 0
/-- The period starting at `p` still has a sample of the kind to come: none was taken in it, and its instant is not past. -/
def sampleOpen (b : Block) (n : Fin 16) (low : Bool) (p : Nat) : Bool :=
  let v := vehOf b n
  let d := dutyAt v p
  sampleTaken low d && decide ((now b).toNat ≤ p + sampleOffset low d) &&
    match (if low then v.lowAt else v.highAt) with | some t => decide (periodOf n t.toNat < p) | none => true
/-- The next sample of a kind, in the present period or one of the two after it. -/
def nextSample (b : Block) (n : Fin 16) (low : Bool) : Option Nat :=
  let p := periodOf n (now b).toNat
  ([p, p + tMs, p + 2 * tMs].find? (sampleOpen b n low)).map fun p => p + sampleOffset low (dutyAt (vehOf b n) p)

/-- PILOT_SAMPLE (R194): the next sample of its kind, under the duty of its period; a kind that the duty does not have is not taken. -/
def pilotSample (n : Fin 16) (x : PilotReading) (b : Block) : Block :=
  match nextSample b n x.low with
  | some t => atInstant t (fun b => (if x.low then pilotLow n x else pilotHigh n x) (settleDuty n b)) b
  | none => b

/-- CP_STATE_CONFIRMED (R198, R199): debounce periods with a new raw state, published 1 µs after the sample. -/
def cpConfirmed (n : Fin 16) (b : Block) : Block :=
  let v := vehOf b n
  if v.raw ≠ v.state ∧ b.vehCfg.debounce.toNat ≤ v.rawRun then
    afterTicks v.rawAt 1500 (fun b =>
      let t := match v.state, v.raw with | .b, .c => true | .c, .b => true | _, _ => false
      let b := pilotEvent n (fun v => { v with state := v.raw, toggles := if t then v.toggles + 1 else v.toggles }) (irq 192 b)
      let b := match (vehOf b n).state, phaseOf b n with
        | .b, .charging => stopSession n .evStop b
        | .a, p => if p.isOpen && !p.mayClose then stopSession n .pilotLoss b else b
        | _, _ => b
      pilotReview n b) b
  else b

/-- DIODE_FAILURE_CONFIRMED (R198): debounce failed checks confirm a failure and debounce passed ones clear it, published 1 µs after the
sample. -/
def diodeConfirmed (n : Fin 16) (b : Block) : Block :=
  let v := vehOf b n
  let t := match v.lowAt with | some t => t | none => 0
  if !v.diodeFail ∧ b.vehCfg.debounce.toNat ≤ v.diodeRun then
    afterTicks t 1500 (fun b => pilotEvent n (fun v => { v with diodeFail := true }) (irq 194 b)) b
  else if v.diodeFail ∧ b.vehCfg.debounce.toNat ≤ v.diodeOkRun then
    afterTicks t 1500 (fun b => pilotReview n (updVeh n (fun v => { v with diodeFail := false }) b)) b
  else b

/-- CP_SENSE_FAULT (R197): three consecutive mismatches. -/
def senseFault (n : Fin 16) (b : Block) : Block :=
  let v := vehOf b n
  if !v.senseFault ∧ 3 ≤ v.mismatchRun then pilotEvent n (fun v => { v with senseFault := true }) (irq 195 b) else b

/-- CP_SENSE_FAULT_CLEAR (R197): 100 periods without a mismatch. -/
def senseClear (n : Fin 16) (b : Block) : Block :=
  let v := vehOf b n
  if v.senseFault ∧ 100 ≤ v.matchRun then pilotReview n (updVeh n (fun v => { v with senseFault := false }) b) else b

/-- PP_CLASS_CONFIRMED (R204): debounce readings at one class, or at none. A change from one valid class to another clears
pp_valid for one period. -/
def ppConfirmed (n : Fin 16) (b : Block) : Block :=
  let v := vehOf b n
  if v.ppRun < b.vehCfg.debounce.toNat then b
  else match v.ppRaw with
    | none => if v.ppValid then pilotEvent n (fun v => { v with ppValid := false, ppChange := none }) (irq 196 b) else b
    | some k =>
      let c := (ppClassesAt b.vehCfg (v.ppAt.toNat - 30000)).getD k.val {}
      let set := fun (okay : Bool) (at_ : Option U64) (v : Connector) =>
        { v with ppValid := okay, ppClass := BitVec.ofNat 3 k.val, ppRating := c.rating, ppChange := at_ }
      if v.ppValid ∧ v.ppClass.toNat = k.val then b
      else if v.ppValid then pilotEvent n (set false (some v.ppAt)) (irq 196 b)
      else if v.ppChange = some v.ppAt then b
      else pilotReview n (pilotEvent n (set true none) (irq 196 b))

/-! ### Cable temperature (R205, R206, R277) -/

/-- The derating limits in force for connector `n`, in 0.1 °C: a change applies from the next period start. -/
def derateAt (g : VehCfg) (n : Fin 16) (t : Nat) : Int × Int :=
  let f := fun (c : U8) => ((c.toNat : Int) - 40) * 10
  if t < periodStart n g.derateFrom.toNat then (f g.tStartOld, f g.tEndOld) else (f g.tStart, f g.tEnd)
/-- The cap of R206 in 0.1 A from T in 0.1 °C and the rating in A; none for no cap. -/
def capOf (ipp : Nat) (lim : Int × Int) (t : Int) : Option Nat :=
  if t ≤ lim.1 then none else if lim.2 ≤ t then some 0 else some ((ipp * 10 * (lim.2 - t).toNat) / (lim.2 - lim.1).toNat)
/-- The cap in 0.01 A after one measurement cycle of 100 ms: it falls at once to the new cap, in 0.1 A, and rises by at most 10 % of I_pp
per second (R206). -/
def capStep (ipp : Nat) (old new : Option Nat) : Option Nat :=
  match old with
  | none => new.map (· * 10)
  | some o =>
    let r := o + ipp
    match new with
    | some k => some (min (k * 10) (if k * 10 ≤ o then k * 10 else r))
    | none => if ipp * 100 ≤ r then none else some r
/-- The register form of a cap in 0.01 A. -/
def capReg (c : Option Nat) : U16 := match c with | some k => BitVec.ofNat 16 (min (k / 10) 0xFFFE) | none => 0xFFFF

/-- R(t)/R_0 of a platinum sensor at t in 0.1 °C by the IEC 60751 coefficients, times 10^19 (R205). -/
def ptRatio (t : Int) : Int :=
  10000000000000000000 + 3908300000000000 * t - 57750000000 * t * t - (if t < 0 then 4183 * (t - 1000) * t * t * t else 0)
/-- The highest temperature of `[lo, lo + 2^k)` whose ratio is at most `r / q`, by halving. -/
def ptSearch (r q : Nat) : Nat → Int → Int
  | 0, lo => lo
  | k + 1, lo => let mid := lo + 2 ^ k; if ptRatio mid * (q : Int) ≤ (r : Int) * 10000000000000000000 then ptSearch r q k mid else ptSearch r q k lo
/-- One sensor (R205): the mean of its 8 conversions and the reference resistor's measurement, in µV. Above 1.2 V or below 0.3 V it is
faulted; else its temperature in 0.1 °C, rounded down, within -40 °C to 200 °C. -/
def sensorTemp (c : Vector Nat 8) (ref : Nat) : Option Int :=
  let s := c.toList.foldl (· + ·) 0
  if 1200000 * 8 < s ∨ s < 300000 * 8 then none else some (min 2000 (ptSearch s (8 * ref) 12 (-400)))

/-- The over-temperature trip (R277). -/
def overTempStep (n : Fin 16) (t : Int) (b : Block) : Block :=
  let trip := ((b.safX.tTrip.toNat : Int) - 40) * 10
  let x := nodeOf b n
  if trip ≤ t ∧ !x.overTemp then
    contain { cause := 8, scope := .node n, mode := .ramped, base := 1, lock := true, reason := .safety }
      (irq 295 (updNode n (fun x => { x with overTemp := true }) b))
  else if t < trip - 100 then updNode n (fun x => { x with overTemp := false }) b
  else b

/-- Both sensors are faulted (R206). -/
def bothFaulted (v : Connector) : Bool := v.temp0 == 0x8000 && v.temp1 == 0x8000

/-- The cap of R206 in 0.1 A with the higher temperature `t`; with one sensor faulted it is at most 50 % of I_pp. -/
def capWanted (g : VehCfg) (n : Fin 16) (at_ ipp : Nat) (one : Bool) (t : Int) : Option Nat :=
  let raw := capOf ipp (derateAt g n at_) t
  if one then some (match raw with | some k => min k (5 * ipp) | none => 5 * ipp) else raw
/-- One measurement of the two sensors of connector `n` in 0.1 °C; none for a sensor fault. -/
def cableTemp (n : Fin 16) (t0 t1 : Option Int) (b : Block) : Block :=
  let v := vehOf b n
  let r := fun (t : Option Int) => match t with | some x => BitVec.ofInt 16 x | none => (0x8000 : U16)
  let change := (v.temp0 == 0x8000) != t0.isNone || (v.temp1 == 0x8000) != t1.isNone
  let b := onlyIf change (irq 197) (updVeh n (fun v => { v with temp0 := r t0, temp1 := r t1, tempAt := some (now b) }) b)
  let hot := match t0, t1 with
    | some a, some c => some (max a c)
    | some a, none => some a
    | none, some c => some c
    | none, none => none
  match hot with
  | none => if (phaseOf b n).mayClose ∧ phaseOf b n ≠ .stopping then deviceFault (.node n) 1 b else b
  | some t =>
    let one := t0.isNone || t1.isNone
    let k := capStep v.ppRating.toNat (if v.thermalCap = 0xFFFF then none else some v.capFine)
      (capWanted b.vehCfg n (now b).toNat v.ppRating.toNat one t)
    let c := capReg k
    let told := c != v.thermalCap && (v.thermalCap == 0xFFFF || c == 0xFFFF || c == 0)
    let b := onlyIf told (irq 198) (updSess n (fun s => { s with thermalCap := c })
      (updVeh n (fun v => { v with thermalCap := c, capFine := k.getD 0, oneSensor := one }) b))
    overTempStep n t b

/-- CABLE_TEMP_MEASURE (R205): every 100 ms. -/
def cableTempMeasure (n : Fin 16) (x : TempReading) (ref : Nat) (b : Block) : Block :=
  let f := cableTemp n (sensorTemp x.first ref) (sensorTemp x.second ref)
  match (vehOf b n).tempAt with
  | some t => afterTicks t (100 * tMs) f b
  | none => f b

/-! ### Lock moves (R207) -/

/-- The channel of a move. -/
def moveChan (v : Connector) (mv : LockMove) : Nat := (if mv.lock then v.lockCh else v.unlockCh).toNat
/-- The channel of a move is switched off. -/
def moveOff (n : Fin 16) (mv : LockMove) (b : Block) : Block := hsEntry 129 (moveChan (vehOf b n) mv) 2 (ahead b fwLead) b
/-- An instant less the lead of an entry, so that an entry submitted then fires at it. -/
def leadBefore (t : U64) : Nat := t.toNat - fwLead

/-- The attempt fails (R207 steps 4 and 5): one retry 1 s later, then lock_fault. -/
def lockFail (n : Fin 16) (mv : LockMove) (b : Block) : Block :=
  let b := moveOff n mv b
  if mv.second then
    let b := irq 199 (updVeh n (fun v => { v with lockFault := true, lockState := 0, unlockFailed := v.unlockFailed || !mv.lock, move := none }) b)
    match mv.mbx with
    | some m => refuse m 0x0607 b
    | none => b
  else updVeh n (fun v => { v with move := some { mv with retryAt := some (ahead b tSec), stallSince := none, lowSince := none } }) b

/-- The move is verified (R207 step 3): the channel goes off 50 ms later. A verified lock in CONNECTED gets 5 % duty (R199). -/
def lockVerified (n : Fin 16) (mv : LockMove) (b : Block) : Block :=
  let st : BitVec 2 := if mv.lock then 1 else 2
  let b := updVeh n (fun v => { v with lockState := st, unlockFailed := v.unlockFailed && mv.lock, move := some { mv with verified := true, offAt := some (ahead b (50 * tMs)), mbx := none } }) b
  let b := match mv.mbx with
    | some m => ok m [st.setWidth 8] b
    | none => b
  pilotReview n b

/-- LOCK_STALL_CONFIRMED: a stall run of 20 ms. -/
def lockStall (n : Fin 16) (b : Block) : Block :=
  match (vehOf b n).move with
  | some mv =>
    match mv.stallSince with
    | some t =>
      if mv.verified ∨ mv.retryAt.isSome ∨ mv.start.toNat + mv.tMax.toNat * 15000000 < t.toNat then b
      else afterTicks t (20 * tMs) (fun b =>
        if t.toNat < mv.start.toNat + mv.tMin.toNat * 15000000 then lockFail n mv b else lockVerified n mv b) b
    | none => b
  | none => b

/-- LOCK_TIMEOUT: no stall seen by s + t_max. -/
def lockTimeout (n : Fin 16) (b : Block) : Block :=
  match (vehOf b n).move with
  | some mv =>
    let e := mv.start.toNat + mv.tMax.toNat * 15000000
    let seen : Bool := match mv.stallSince with | some t => decide (t.toNat ≤ e) | none => false
    if mv.verified ∨ mv.retryAt.isSome ∨ seen then b else atInstant e (lockFail n mv) b
  | none => b

/-- LOCK_OPEN_LOAD: below 5 mA for 100 ms from the end of the slew. -/
def lockOpenLoad (n : Fin 16) (b : Block) : Block :=
  match (vehOf b n).move with
  | some mv =>
    match mv.lowSince with
    | some t => if mv.verified ∨ mv.retryAt.isSome then b else afterTicks t (100 * tMs) (lockFail n mv) b
    | none => b
  | none => b

/-- LOCK_OFF_DELAY: the entry that switches the channel off 50 ms after the stall is confirmed goes out; the move has ended. -/
def lockOffDelay (n : Fin 16) (b : Block) : Block :=
  match (vehOf b n).move with
  | some mv =>
    match mv.offAt with
    | some t => atInstant (leadBefore t) (fun b => pilotReview n (updVeh n (fun v => { v with move := none }) (moveOff n mv b))) b
    | none => b
  | none => b

/-- LOCK_RETRY: 1 s after the failure the move starts again. -/
def lockRetry (n : Fin 16) (b : Block) : Block :=
  match (vehOf b n).move with
  | some mv =>
    match mv.retryAt with
    | some t => atInstant t.toNat (fun b =>
        let c := moveChan (vehOf b n) mv
        let s := ringFree b 129 tgSwitch c (ahead b fwLead)
        hsEntry 129 c 1 s (updVeh n (fun v => { v with move := some { mv with
          start := s, second := true, retryAt := none, tMin := b.vehCfg.lockMin, tMax := b.vehCfg.lockMax, stallThr := b.vehCfg.stallThr } }) b)) b
    | none => b
  | none => b

/-- The ON entry of a lock move on channel `c` was not executed: the attempt has failed. -/
def lockEntryLost (c : Nat) (b : Block) : Block :=
  forAll allNodes (fun n b => match (vehOf b n).move with
    | some mv => if moveChan (vehOf b n) mv = c ∧ !mv.verified ∧ mv.retryAt.isNone then lockFail n mv b else b
    | none => b) b

/-- CP_RESTART_END (R202): the entry that restores the duty goes out in time for the period that begins at the end of the restart. -/
def cpRestartEnd (n : Fin 16) (b : Block) : Block :=
  match (vehOf b n).restartUntil with
  | none => b
  | some t => atInstant (leadBefore t) (fun b => dutyReview n (updVeh n (fun v => { v with restartUntil := none }) b)) b

/-! ### Registers (R210) -/

/-- VEH_CP_STAT(n). -/
def cpStatWord (b : Block) (v : Connector) : U32 :=
  reg32 [(0, v.state.code), (3, b2n v.diodeFail), (4, b2n v.senseFault), (5, b2n v.pilotLoss), (16, (dutyAt v (now b).toNat).toNat)]
/-- VEH_CP_LEVEL(n). -/
def cpLevelWord (v : Connector) : U32 := reg32 [(0, v.high.toNat), (16, v.low.toNat)]
/-- VEH_PP(n). -/
def ppWord (v : Connector) : U32 := reg32 [(0, v.ppOhm.toNat), (16, v.ppClass.toNat), (19, b2n v.ppValid), (20, v.ppRating.toNat)]
/-- VEH_TEMP(n). -/
def tempWord (v : Connector) : U32 := reg32 [(0, v.temp0.toNat), (16, v.temp1.toNat)]
/-- VEH_LOCK(n). -/
def lockWord (v : Connector) : U32 := reg32 [(0, v.lockCh.toNat), (8, v.unlockCh.toNat), (16, v.lockState.toNat), (18, b2n v.lockFault)]
/-- VEH_CAP(n). -/
def capWord (v : Connector) : U32 := reg32 [(0, v.thermalCap.toNat), (16, b2n v.oneSensor)]
/-- VEH_LOCK_TIMING. -/
def lockTimingWord (g : VehCfg) : U32 := reg32 [(0, g.lockMin.toNat), (8, g.lockMax.toNat), (16, g.stallThr.toNat)]
/-- VEH_PP_CLASS(k). -/
def ppClassWord (c : PpClass) : U32 := reg32 [(0, c.centre.toNat), (16, c.rating.toNat), (26, b2n c.valid)]

/-- The read value of word `a` of the pilot registers. -/
def vehWord (b : Block) (a : Nat) : U32 :=
  let g := b.vehCfg
  if a = 0x580 then reg32 [(0, nodeBits fun n => (vehOf b n).available), (16, nodeBits fun n => (vehOf b n).ventOk)]
  else if a = 0x581 then g.debounce.setWidth 32
  else if a = 0x582 then reg32 [(0, g.tStart.toNat), (8, g.tEnd.toNat)]
  else if a = 0x583 then lockTimingWord g
  else if h : 0x590 ≤ a ∧ a ≤ 0x59F then cpStatWord b (vehOf b ⟨a - 0x590, by omega⟩)
  else if h : 0x5A0 ≤ a ∧ a ≤ 0x5AF then cpLevelWord (vehOf b ⟨a - 0x5A0, by omega⟩)
  else if h : 0x5B0 ≤ a ∧ a ≤ 0x5BF then ppWord (vehOf b ⟨a - 0x5B0, by omega⟩)
  else if h : 0x5C0 ≤ a ∧ a ≤ 0x5CF then tempWord (vehOf b ⟨a - 0x5C0, by omega⟩)
  else if h : 0x5D0 ≤ a ∧ a ≤ 0x5DF then lockWord (vehOf b ⟨a - 0x5D0, by omega⟩)
  else if h : 0x5E0 ≤ a ∧ a ≤ 0x5EF then capWord (vehOf b ⟨a - 0x5E0, by omega⟩)
  else if 0x5F0 ≤ a ∧ a ≤ 0x5F7 then ppClassWord (g.ppClasses.getD (a - 0x5F0) {})
  else if h : 0x600 ≤ a ∧ a ≤ 0x60F then
    let v := vehOf b ⟨a - 0x600, by omega⟩
    reg32 [(0, v.invalidCnt.toNat), (16, v.diodeCnt.toNat)]
  else 0

/-- A write to word `a` of the pilot registers: the two W1C flags. -/
def vehWrite (a : Nat) (v : U32) (b : Block) : Block :=
  if h : 0x590 ≤ a ∧ a ≤ 0x59F then updVeh ⟨a - 0x590, by omega⟩ (fun x => { x with pilotLoss := x.pilotLoss && !v.getLsbD 5 }) b
  else if h : 0x5D0 ≤ a ∧ a ≤ 0x5DF then updVeh ⟨a - 0x5D0, by omega⟩ (fun x => { x with lockFault := x.lockFault && !v.getLsbD 18 }) b
  else b

/-! ### Commands (R212) -/

/-- VEH_GET_CONNECTOR. -/
def vehGetConnector (m : Fin 4) (b : Block) : Block :=
  let v := vehOf b (reqNode b m)
  checked m [nodeCheck 0x0601 b m] (ok m (b32s [cpStatWord b v, cpLevelWord v, ppWord v, tempWord v, lockWord v, capWord v])) b

/-- The period start from which an entry enqueued now for connector `n` holds. -/
def dutyInstant (b : Block) (n : Fin 16) : U64 := BitVec.ofNat 64 (periodStart n (ringFree b 128 tgPilot n.val (ahead b fwLead)).toNat)

/-- VEH_SET_AVAILABILITY (R202, R300): unavailable stops a session past ADMISSION with OPERATOR first. -/
def vehSetAvailability (m : Fin 4) (b : Block) : Block :=
  let n := reqNode b m
  let av := rBit b m 1 0
  checked m [nodeCheck 0x0601 b m, (0x0604, !av || (lsOf b n).supply != 0x3F)] (fun b =>
    let b := onlyIf (!av && (sessOf b n).phase.mayClose) (stopSession n .operator) b
    let b := updVeh n (fun v => { v with available := av, ventOk := rBit b m 1 1, restartUntil := if av then v.restartUntil else none }) b
    ok m (b64 (dutyInstant b n)) (saveSettings (dutyReview n b))) b

/-- VEH_SET_PILOT_CFG. -/
def vehSetPilotCfg (m : Fin 4) (b : Block) : Block :=
  let d := rN b m 0 1
  checked m [(0x0602, decide (1 ≤ d ∧ d ≤ 15))] (fun b =>
    ok m [] (saveSettings { b with vehCfg := { b.vehCfg with debounce := BitVec.ofNat 4 d } })) b

/-- The class that word `k` of a request gives. -/
def reqPpClass (b : Block) (m : Fin 4) (k : Nat) : PpClass :=
  let w := rN b m (4 * k) 4
  { centre := BitVec.ofNat 16 (fieldOf w 0 16), rating := BitVec.ofNat 10 (fieldOf w 16 10), valid := bitOf w 26 }
/-- Two class windows overlap. -/
def ppOverlap (x y : PpClass) : Bool :=
  x.valid && y.valid && decide (92 * (max x.centre.toNat y.centre.toNat) ≤ 108 * (min x.centre.toNat y.centre.toNat))
/-- Some two windows of a table overlap. -/
def ppTableOverlaps : List PpClass → Bool
  | [] => false
  | x :: r => r.any (ppOverlap x) || ppTableOverlaps r

/-- VEH_SET_PP_CLASS (R204): from the next period start. -/
def vehSetPpClass (m : Fin 4) (b : Block) : Block :=
  let l := (List.range 8).map (reqPpClass b m)
  let good := l.all fun c => !c.valid || decide (90 ≤ c.centre.toNat ∧ c.centre.toNat ≤ 2000 ∧ 1 ≤ c.rating.toNat ∧ c.rating.toNat ≤ 600)
  checked m [(0x0602, good), (0x0603, !ppTableOverlaps l)] (fun b =>
    let g := b.vehCfg
    cmdLog m 0 (ok m [] (saveSettings { b with vehCfg := { g with
      ppOld := if g.ppFrom.toNat ≤ (now b).toNat then g.ppClasses else g.ppOld, ppClasses := l, ppFrom := now b } }))) b

/-- VEH_SET_DERATE (R206): from the next period start. -/
def vehSetDerate (m : Fin 4) (b : Block) : Block :=
  let s := rN b m 0 1
  let e := rN b m 1 1
  checked m [(0x0602, decide (60 ≤ s ∧ s < e ∧ e ≤ 160))] (fun b =>
    let g := b.vehCfg
    cmdLog m 0 (ok m [] (saveSettings { b with vehCfg := { g with
      tStartOld := g.tStart, tEndOld := g.tEnd, derateFrom := now b, tStart := BitVec.ofNat 8 s, tEnd := BitVec.ofNat 8 e } }))) b

/-- Channel `c` may serve the lock of connector `n` (R212). -/
def lockChanFree (b : Block) (n : Fin 16) (c : Nat) : Bool :=
  if h : c < 40 then
    (hsOf b ⟨c, h⟩).mode != 2 && !isSupplyChan b c &&
      allNodes.all fun k => k == n || ((vehOf b k).lockCh.toNat != c && (vehOf b k).unlockCh.toNat != c)
  else true

/-- VEH_SET_LOCK_CFG: the channels of one connector and the hub-wide timing. -/
def vehSetLockCfg (m : Fin 4) (b : Block) : Block :=
  let n := reqNode b m
  let l := rN b m 1 1
  let u := rN b m 2 1
  let w := rN b m 4 4
  let chanOk := fun (c : Nat) => decide (c < 40 ∨ c = 0x3F)
  checked m [nodeCheck 0x0601 b m,
      (0x0602, chanOk l && chanOk u && (l != u || l == 0x3F) && decide (fieldOf w 0 8 < fieldOf w 8 8 ∧ fieldOf w 28 4 = 0)),
      (0x0604, phaseOf b n == .idle && (vehOf b n).move.isNone), (0x0605, lockChanFree b n l && lockChanFree b n u)] (fun b =>
    let b := updVeh n (fun v => { v with lockCh := BitVec.ofNat 6 l, unlockCh := BitVec.ofNat 6 u }) b
    ok m [] (saveSettings { b with vehCfg := { b.vehCfg with
      lockMin := BitVec.ofNat 8 (fieldOf w 0 8), lockMax := BitVec.ofNat 8 (fieldOf w 8 8), stallThr := BitVec.ofNat 12 (fieldOf w 16 12) } })) b

/-- VEH_LOCK: the answer follows the move. -/
def vehLock (m : Fin 4) (b : Block) : Block :=
  let n := reqNode b m
  let lock := rN b m 1 1 == 1
  let v := vehOf b n
  checked m [nodeCheck 0x0601 b m, (0x0602, decide (rN b m 1 1 ≤ 1) && (if lock then v.lockCh else v.unlockCh) != 0x3F),
      (0x0604, v.move.isNone), (0x0606, lock || unlockSafe b n)] (startMove n lock (some m)) b

/-- VEH_CP_RESTART (R202). -/
def vehCpRestart (m : Fin 4) (b : Block) : Block :=
  let n := reqNode b m
  let d := rN b m 2 2
  let okPhase := match phaseOf b n with | .connected => true | .associating => true | .negotiating => true | _ => false
  checked m [nodeCheck 0x0601 b m, (0x0602, decide (100 ≤ d ∧ d ≤ 4000)), (0x0604, okPhase)] (fun b =>
    let p := dutyInstant b n
    ok m (b64 p) (dutyReview n (updVeh n (fun v => { v with restartUntil := some (p + BitVec.ofNat 64 (d * tMs)) }) b))) b

/-- VEH_CLEAR_COUNTS. -/
def vehClearCounts (m : Fin 4) (b : Block) : Block :=
  ok m [] (forAll (nodesOf (rN b m 0 2)) (fun n => updVeh n fun v => { v with invalidCnt := 0, diodeCnt := 0 }) b)

/-- PILOT_SAMPLE (R194). -/
def execPilotSample (n : Fin 16) (x : PilotReading) (s : State) : Result := s.input (pilotSample n x)
/-- CP_STATE_CONFIRMED (R198). -/
def execCpStateConfirmed (n : Fin 16) (s : State) : Result := s.run (cpConfirmed n)
/-- DIODE_FAILURE_CONFIRMED (R198). -/
def execDiodeFailureConfirmed (n : Fin 16) (s : State) : Result := s.run (diodeConfirmed n)
/-- CP_SENSE_FAULT (R197). -/
def execCpSenseFault (n : Fin 16) (s : State) : Result := s.run (senseFault n)
/-- CP_SENSE_FAULT_CLEAR (R197). -/
def execCpSenseFaultClear (n : Fin 16) (s : State) : Result := s.run (senseClear n)
/-- PP_CLASS_CONFIRMED (R204). -/
def execPpClassConfirmed (n : Fin 16) (s : State) : Result := s.run (ppConfirmed n)
/-- CABLE_TEMP_MEASURE (R206). -/
def execCableTempMeasure (n : Fin 16) (x : TempReading) (ref : Nat) (s : State) : Result := s.input (cableTempMeasure n x ref)
/-- LOCK_STALL_CONFIRMED (R207). -/
def execLockStallConfirmed (n : Fin 16) (s : State) : Result := s.input (lockStall n)
/-- LOCK_OFF_DELAY (R207). -/
def execLockOffDelay (n : Fin 16) (s : State) : Result := s.run (lockOffDelay n)
/-- LOCK_TIMEOUT (R207). -/
def execLockTimeout (n : Fin 16) (s : State) : Result := s.run (lockTimeout n)
/-- LOCK_OPEN_LOAD (R207). -/
def execLockOpenLoad (n : Fin 16) (s : State) : Result := s.input (lockOpenLoad n)
/-- LOCK_RETRY (R207). -/
def execLockRetry (n : Fin 16) (s : State) : Result := s.run (lockRetry n)
/-- CP_RESTART_END (R202). -/
def execCpRestartEnd (n : Fin 16) (s : State) : Result := s.run (cpRestartEnd n)
/-- VEH_GET_CONNECTOR (R212). -/
def execVehGetConnector (m : Fin 4) (s : State) : Result := s.run (command m 0x0601 .sedge (vehGetConnector m))
/-- VEH_SET_AVAILABILITY (R212). -/
def execVehSetAvailability (m : Fin 4) (s : State) : Result := s.run (command m 0x0602 .sedge (vehSetAvailability m))
/-- VEH_SET_PILOT_CFG (R212). -/
def execVehSetPilotCfg (m : Fin 4) (s : State) : Result := s.run (command m 0x0603 .sedge (vehSetPilotCfg m))
/-- VEH_SET_PP_CLASS (R204). -/
def execVehSetPpClass (m : Fin 4) (s : State) : Result := s.run (command m 0x0604 .sedge (vehSetPpClass m))
/-- VEH_SET_DERATE (R206). -/
def execVehSetDerate (m : Fin 4) (s : State) : Result := s.run (command m 0x0605 .sedge (vehSetDerate m))
/-- VEH_SET_LOCK_CFG (R212). -/
def execVehSetLockCfg (m : Fin 4) (s : State) : Result := s.run (command m 0x0606 .sedge (vehSetLockCfg m))
/-- VEH_LOCK (R207). -/
def execVehLock (m : Fin 4) (s : State) : Result := s.run (command m 0x0607 .sedge (vehLock m))
/-- VEH_CP_RESTART (R202). -/
def execVehCpRestart (m : Fin 4) (s : State) : Result := s.run (command m 0x0608 .sedge (vehCpRestart m))
/-- VEH_CLEAR_COUNTS (R212). -/
def execVehClearCounts (m : Fin 4) (s : State) : Result := s.run (command m 0x0609 .sedge (vehClearCounts m))

end Sys2Proof.Machine
end

