-- ==== Sys2Proof/Machine/ModuleLink.lean ====
section
/-! DEFINITION. The module link: downlink frames, uplink slots, the veto, overcurrent comparators, enumeration and lane faults
(07_module_link.md R164 to R189; the cycle itself is MLK_CYCLE in Fire.lean). -/

namespace Sys2Proof.Machine

/-- Module `m` as its lane sees it. -/
def mlkOf (b : Block) (m : Fin 96) : MlkModule := vget b.mlk.modules m
/-- Change it. -/
def updMlk (m : Fin 96) (f : MlkModule → MlkModule) (b : Block) : Block := { b with mlk := { b.mlk with modules := vupd b.mlk.modules m f } }
/-- Lane `l`. -/
def laneSt (b : Block) (l : Fin 8) : Lane := vget b.mlk.lanes l
/-- Change it. -/
def updLane (l : Fin 8) (f : Lane → Lane) (b : Block) : Block := { b with mlk := { b.mlk with lanes := vupd b.mlk.lanes l f } }
/-- Change the module link as a whole. -/
def updLink (f : ModLink → ModLink) (b : Block) : Block := { b with mlk := f b.mlk }
/-- The module at a position of a lane (R164). -/
def modAt (l : Fin 8) (p : Fin 12) : Fin 96 := ⟨12 * l.val + p.val, by omega⟩
/-- The position of a module on its lane. -/
def posOf (m : Fin 96) : Nat := m.val % 12
/-- The modules of a lane. -/
def laneModules (l : Fin 8) : List (Fin 96) := (List.finRange 12).map (modAt l)
/-- The eight lanes. -/
def allLanes : List (Fin 8) := List.finRange 8
/-- The node on which module `m` counts (R157). -/
def countsOn (b : Block) (m : Fin 96) : Option (Fin 16) := (vget b.slu.modules m).node
/-- A hand-over of module `m` is in flight. -/
def inFlight (b : Block) (m : Fin 96) : Bool := b.slu.ho.toList.any fun h => match h with | some x => x.module == m | none => false
/-- Module `m` is assigned or in flight. -/
def modBusy (b : Block) (m : Fin 96) : Bool := (countsOn b m).isSome || inFlight b m
/-- The lane is running: enabled and not held in turnaround. -/
def laneRuns (x : Lane) : Bool := x.enable && x.resetUntil.isNone

/-- The selector contact that joins a module to node `n` (R168). -/
def contactOf (m : Fin 96) (n : Fin 16) : Fin 4 :=
  let d := (n.val + 16 - homeNode m.val) % 16
  if d = 0 then 0 else if d = 1 then 1 else if d = 4 then 2 else 3
/-- The contacts byte nibble of a telemetry record: bit i for contact i closed (R171). -/
def contactsOf (x : MlkModule) : Nat := fieldOf (byteAt x.record 0).toNat 0 4
/-- Fault bits of the latest record. -/
def faultsOf (x : MlkModule) : U8 := byteAt x.record 6
/-- The latest record reports veto_seen. -/
def vetoSeen (x : MlkModule) : Bool := (byteAt x.record 0).getLsbD 5
/-- The output voltage of the latest record, 0.1 V. -/
def modVoltage (x : MlkModule) : Nat := natAt x.record 3 2
/-- The P_av of the latest record, W. -/
def modPav (x : MlkModule) : Nat := (byteAt x.record 5).toNat * 200
/-- The number of set bits of a nibble. -/
def nibbleCount (k : Nat) : Nat := (List.range 4).foldl (fun a i => a + b2n (bitOf k i)) 0
/-- The sel_cmd code of a command (R168). -/
def SelCmd.code : SelCmd → Nat
  | .none => 0
  | .openAll => 1
  | .close c => 2 + c.val

/-! ### The downlink (R167, R168, R181, R182) -/

/-- The latest published voltage of node `n` in 0.1 V for a module in MATCH: 0 when negative or not settled (R182). -/
def matchTarget (b : Block) (n : Fin 16) : Int :=
  let c := chanOf b (voltChan n)
  if c.settled then max 0 (min 10000 (scaleRound c.value 10)) else 0

/-- The present value of a module in the cycle that starts now. -/
def nextValue (b : Block) (x : MlkModule) : MlkModule :=
  if x.voltMode then { x with present_ := match x.trackNode with | some n => matchTarget b n | none => x.target }
  else if x.rampStep < x.rampSteps then
    let k := x.rampStep + 1
    { x with rampStep := k, present_ := x.rampFrom + Int.tdiv ((x.target - x.rampFrom) * (k : Int)) (x.rampSteps : Int) }
  else x

/-- A module of a lane in fault, or held at 0 A by containment, carries 0 A. -/
def heldZero (b : Block) (l : Fin 8) : Bool := (laneSt b l).fault || laneHeld b l

/-- What the slot of a module carries: whether it is voltage mode, and the value. 0 A in current mode in a lane fault (R185) and while
an OPEN is repeated (R182). -/
def MlkModule.carries (x : MlkModule) (fault : Bool) : Bool × Int := if fault ∨ x.sel = .openAll then (false, 0) else (x.voltMode, x.present_)

/-- One module at a cycle start: its value, and rearm when its last slot passed with veto_seen and its value is 0 A (R178). -/
def moduleCycle (b : Block) (m : Fin 96) (x : MlkModule) : MlkModule × Bool :=
  let l := modLane m
  let x := if heldZero b l then x.zero else nextValue b x
  let re := x.rearm && x.carries false == (false, 0) && !(laneSt b l).fault
  ({ x with rearm := false, vetoed := x.vetoed && !re }, re)

/-- A downlink slot: value and control (R167). The selector command repeats in every slot (R182). -/
def downSlot (x : MlkModule) (re : Bool) (fault : Bool) : List U8 :=
  let v := x.carries fault
  leBytes 2 (BitVec.ofInt 16 v.2).toNat ++ [BitVec.ofNat 8 (packFields [(0, b2n v.1), (1, x.sel.code), (4, b2n re)])]

/-- Header, slots and CRC-16 of the downlink of lane `l` (R167, R172). -/
def downFrame (l : Fin 8) (c : Nat) (bc : U8 × U16) (slots : List (List U8)) : List U8 :=
  let d := [BitVec.ofNat 8 (l.val + 8)] ++ leBytes 2 (c / tCycle) ++ [bc.1] ++ b16 bc.2 ++ slots.flatten
  d ++ b16 (crc16 d)

/-- A broadcast of ZERO_ALL acts on the sequencer as a veto does (R169, R178). -/
def bcastZero (bc : U8 × U16) (x : MlkModule) : MlkModule := if bc.1 = 0x03 then { x.zero with vetoed := true } else x

/-- The cycle of lane `l` that ends: which slots passed, and the run without a passing enrolled slot (R185, R187). -/
def laneEnd (x : Lane) : Lane :=
  if x.ran then
    { x with lastOk := x.okNow, okNow := 0
             noPass := if x.enrolled = 0 ∨ x.okNow &&& x.enrolled ≠ 0 then 0 else x.noPass + 1 }
  else x

/-- The next cycle start after now. -/
def nextCycle (b : Block) : Nat := multipleFrom tCycle ((now b).toNat + 1)
/-- The first cycle from `c` on in which every lane that `q` names runs; ZERO_ALL waits for none (R169). -/
def bcastFrom (b : Block) (c : Nat) (q : Bcast) : Nat :=
  if q.code = 0x03 then c
  else allLanes.foldl (fun a l =>
    if q.mask.getLsbD l.val && (laneSt b l).enable then max a (match (laneSt b l).resetUntil with | some t => t.toNat | none => 0) else a) c
/-- The cycle start at which a broadcast goes that joins the queue now. -/
def bcastStart (b : Block) (q : Bcast) : Nat := bcastFrom b (b.mlk.bcasts.foldl (fun c x => bcastFrom b c x + tCycle) (nextCycle b)) q
/-- A broadcast joins the queue. -/
def bcastAsk (q : Bcast) (b : Block) : Block := updLink (fun k => { k with bcasts := k.bcasts ++ [q] }) b
/-- The broadcast of the cycle that starts now. -/
def bcastNow (b : Block) : Option Bcast :=
  match b.mlk.bcasts with
  | q :: _ => if bcastFrom b (now b).toNat q ≤ (now b).toNat then some q else none
  | [] => none
/-- Code and argument of a broadcast in the frame of lane `l`. -/
def bcastFor (l : Fin 8) : Option Bcast → U8 × U16
  | some q => if q.mask.getLsbD l.val then (q.code, q.arg) else (0, 0)
  | none => (0, 0)

/-- Lane `l` starts a cycle: its downlink, and the readback of it. -/
def laneCycle (readback : BitVec 8) (q : Option Bcast) (l : Fin 8) (b : Block) : Block :=
  let c := (now b).toNat
  let x := laneEnd (laneSt b l)
  let x := match x.resetUntil with
    | some t => if t.toNat ≤ c then { x with resetUntil := none } else x
    | none => x
  let run := laneRuns x
  let b := onlyIf x.ran (traceItem 3 0 (BitVec.ofNat 64 (c - tCycle)) (BitVec.ofNat 8 l.val :: x.slots)) b
  let x := { x with slots := zeros 108, running := run, ran := run, window := none }
  let b := updLane l (fun _ => x) b
  if !run then b
  else
    let bc := bcastFor l q
    let ms := (laneModules l).map fun m =>
      let y := bcastZero bc (mlkOf b m)
      (m, moduleCycle b m y)
    let sent := downFrame l c bc (ms.map fun e => downSlot e.2.1 e.2.2 x.fault)
    let good := readback.getLsbD l.val
    let b := forAll ms (fun e => updMlk e.1 fun _ => e.2.1) b
    updLane l (fun x => { x with
      sent := codeFrame sent
      dlErrCnt := if good then x.dlErrCnt else satInc x.dlErrCnt
      readbackFails := if good then 0 else x.readbackFails + 1 }) b

/-- The enumeration ends with the cycle that carried ENUMERATE (R186): source 148, the answer, the settings. -/
def enumEnd (b : Block) : Block :=
  let k := b.mlk
  let resp := allLanes.flatMap fun l =>
    leBytes 2 (laneSt b l).enrolled.toNat ++ leBytes 2 (vget k.enumOther l).toNat ++ zeros 12
  let b1 := irq 148 (saveSettings (updLink (fun k => { k with enumBusy := false, enumMbx := none, enumAt := none, enumMask := 0 }) b))
  match k.enumMbx with
  | some m => ok m resp b1
  | none => b1

/-- A veto window with a veto, or a ZERO_ALL, is recorded; for an enrolled position it is counted, and reported once per module and
frame (R178, R187). -/
def vetoNoted (l : Fin 8) (p : Fin 12) (crcBad fault oc : Bool) (bits : U8) (tick : Nat) (b : Block) : Block :=
  let m := modAt l p
  let b := updLink (fun k => { k with
    lastVeto := BitVec.ofNat 7 m.val, lastVetoCrc := crcBad, lastVetoFault := fault, lastVetoOc := oc, lastVetoBits := bits
    lastVetoTick := BitVec.ofNat 64 tick }) b
  if (laneSt b l).enrolled.getLsbD p.val then
    onlyIf ((mlkOf b m).vetoFrame != some (frameOf (now b))) (irq 144) (updMlk m (fun x => { x with vetoFrame := some (frameOf (now b)) })
      (updLane l (fun y => { y with vetoCnt := satInc y.vetoCnt }) b))
  else b

/-- The broadcast has gone: an enumeration begins, with no identities yet (R189); a ZERO_ALL is noted for each position of the lanes that
run (R178). -/
def bcastGone (q : Bcast) (b : Block) : Block :=
  if q.code = 0x01 then
    updLink (fun k => { k with enumAt := some (now b), modules := vmap k.modules fun x => { x with identity := [], identityAt := 0 } }) b
  else if q.code = 0x03 then
    forAll allLanes (fun l b =>
      if (laneSt b l).ran then forAll (List.finRange 12) (fun p => vetoNoted l p false false false 0 (now b).toNat) b else b) b
  else b

/-- The cycle that starts now (R166): the sequencer sends the downlink of every lane; `readback` tells on which lanes the device read its
own frame back. -/
def linkCycle (readback : BitVec 8) (b : Block) : Block :=
  let b := onlyIf b.mlk.enumAt.isSome enumEnd b
  match bcastNow b with
  | none => forAll allLanes (laneCycle readback none) (updLink (fun k => { k with cycle := now b }) b)
  | some q => bcastGone q (forAll allLanes (laneCycle readback (some q)) (updLink (fun k => { k with cycle := now b, bcasts := k.bcasts.tail }) b))

/-! ### The uplink and the veto (R170 to R178, R184) -/

/-- The slot has its preamble, K28.5 of either disparity. -/
def slotPreamble (x : UplinkSlot) : Bool := match x.symbols with | s :: _ => s == comma || s == ~~~comma | [] => false
/-- The 10 data and CRC symbols decoded; the preamble gives the disparity before them. -/
def slotBytes (x : UplinkSlot) : List (Option U8) :=
  match x.symbols with
  | s :: r => decodeLine (afterSymbol (s == ~~~comma) s) (r.take 10)
  | [] => []
/-- Every symbol is there and a code. -/
def slotCoded (x : UplinkSlot) : Bool := (slotBytes x).length == 10 && (slotBytes x).all Option.isSome
/-- The 8 data bytes; a violation or a missing symbol reads as 0. -/
def slotData (x : UplinkSlot) : List U8 := (List.range 8).map fun k => ((slotBytes x).getD k none).getD 0
/-- The CRC received. -/
def slotCrc (x : UplinkSlot) : U16 := BitVec.ofNat 16 (natAt ((slotBytes x).map (·.getD 0)) 8 2)
/-- The slot passes R172: preamble, valid symbols, and the CRC over lane, position and data. -/
def slotPasses (l : Fin 8) (p : Fin 12) (x : UplinkSlot) : Bool :=
  slotPreamble x && slotCoded x && crc16 ([BitVec.ofNat 8 l.val, BitVec.ofNat 8 p.val] ++ slotData x) == slotCrc x

/-- The page of an uplink record. -/
def slotPage (x : UplinkSlot) : Nat := fieldOf (byteAt (slotData x) 0).toNat 6 2

/-- The comparator of node `n` at instant `t`, from the instants of its last trip and its last release. -/
def ocTrippedAt (b : Block) (n : Fin 16) (t : Nat) : Bool :=
  let trip := (vget b.mlk.ocAt n).toNat
  let rel := (vget b.mlk.ocRelAt n).toNat
  if trip ≤ t then vget b.mlk.ocTripped n || decide (trip ≤ rel ∧ t < rel) else decide (t < rel ∧ rel ≤ trip)
/-- The start of the last die-to-die frame whose state field has arrived at bit offset 121 of a slot whose window begins at `window`
(R70, R174): the frame arrives 24 ticks after its start, and the offset is 30 ticks before the window. -/
def stateFrame (window : Nat) : Nat := (window - 54) / 16 * 16
/-- Check 3 of R174: the node on which the module counts is tripped in the latest state field at offset 121. -/
def ocVeto (b : Block) (m : Fin 96) (window : Nat) : Bool :=
  match countsOn b m with
  | some n => ocTrippedAt b n (stateFrame window)
  | none => false

/-- The two bits of a veto window, in the order driven (R175). -/
def vetoBits (veto : Bool) : Bool × Bool := if veto then (false, true) else (true, false)

/-- The veto acts on the sequencer (R178). -/
def vetoActs (l : Fin 8) (p : Fin 12) (crcBad fault oc : Bool) (bits : U8) (window : Nat) (b : Block) : Block :=
  vetoNoted l p crcBad fault oc bits window (updMlk (modAt l p) (fun x => { x.zero with vetoed := true }) b)

/-- The counts of a slot that fails R172 (R184): a missing one, or a failed CRC, whose rate raises source 147. -/
def slotFails (l : Fin 8) (p : Fin 12) (preamble : Bool) (b : Block) : Block :=
  let x := laneSt b l
  if !x.enrolled.getLsbD p.val then b
  else if !preamble then updLane l (fun x => { x with missCnt := satInc x.missCnt }) b
  else
    let f := frameOf (now b)
    let k := if x.crcFrame = f then x.crcThisFrame + 1 else 1
    onlyIf (k == 17) (irq 147) (updLane l (fun x => { x with crcCnt := satInc x.crcCnt, crcFrame := f, crcThisFrame := k }) b)

/-- Two contacts closed (R183): selector actions of the lane are refused from then on, source 150, and L2 on the lane. -/
def doubleClose (l : Fin 8) (b : Block) : Block :=
  if (laneSt b l).selRefused then b
  else deviceFault (.lane l) 2 (irq 150 (updLane l (fun x => { x with selRefused := true }) b))

/-- The commanded contact state is the one reported: the repeat of the selector command ends (R182). -/
def selEnd (x : MlkModule) : MlkModule :=
  match x.sel with
  | .openAll => if contactsOf x = 0 then { x with sel := .none } else x
  | .close c => if contactsOf x = 2 ^ c.val then { x with sel := .none } else x
  | .none => x

/-- A passing page 0 record (R184): the module's latest telemetry; a stale enrolled module is fresh again (source 149). -/
def takeRecord (l : Fin 8) (p : Fin 12) (data : List U8) (passed : Bool) (b : Block) : Block :=
  let m := modAt l p
  let x := mlkOf b m
  let again := (laneSt b l).enrolled.getLsbD p.val && x.everOk && !x.fresh
  let b := onlyIf again (irq 149) (updMlk m (fun x =>
    let y := { x with record := data, stamp := now b, everOk := true, fresh := true }
    selEnd { y with rearm := passed && vetoSeen y, vetoed := y.vetoed || vetoSeen y }) b)
  onlyIf (decide (2 ≤ nibbleCount (contactsOf (mlkOf b m)))) (doubleClose l) b

/-- A passing page 1 record in the cycle of an enumeration (R186). -/
def takeIdentity (l : Fin 8) (p : Fin 12) (data : List U8) (b : Block) : Block :=
  let m := modAt l p
  let bit : BitVec 12 := BitVec.ofNat 12 (2 ^ p.val)
  let b := updMlk m (fun x => { x with identity := data, identityAt := now b }) b
  if byteAt data 6 = 1 then updLane l (fun x => { x with enrolled := x.enrolled ||| bit }) b
  else updLink (fun k => { k with enumOther := vupd k.enumOther l fun x => x ||| bit }) b

/-- The end of one uplink slot. -/
def uplinkEnd (l : Fin 8) (p : Fin 12) (x : UplinkSlot) (b : Block) : Block :=
  let m := modAt l p
  let w := (now b).toNat - 60
  let good := slotPasses l p x
  let page := slotPage x
  let data := slotData x
  let bits := if good && page == 0 then byteAt data 6 else 0
  let fault := (bits.toNat &&& b.mlk.vetoMask.toNat) != 0
  let oc := ocVeto b m w
  let veto := !good || fault || oc
  let enumNow := b.mlk.enumAt == some b.mlk.cycle && b.mlk.enumMask.getLsbD l.val
  let b := updLane l (fun y => { y with window := some (vetoBits veto) }) (if good then b else slotFails l p (slotPreamble x) b)
  let b := if good && page == 0 then takeRecord l p data (!veto) b
    else if good && page == 1 && enumNow then takeIdentity l p data b else b
  if veto then vetoActs l p (!good) fault oc bits w b
  else updLane l (fun y => { y with okNow := y.okNow ||| BitVec.ofNat 12 (2 ^ p.val) }) b

/-- What a trace keeps of a slot (R536): its data, and whether its CRC passed and its preamble was seen. -/
def slotTrace (l : Fin 8) (p : Fin 12) (x : UplinkSlot) : List U8 :=
  slotData x ++ [BitVec.ofNat 8 (bitsNat [slotPasses l p x, slotPreamble x])]

/-- UPLINK_SLOT_END (R170): slot `p` of the present cycle of a running lane. -/
def uplinkSlot (l : Fin 8) (p : Fin 12) (x : UplinkSlot) (b : Block) : Block :=
  if (laneSt b l).ran then
    atInstant (b.mlk.cycle.toNat + 18720 + 3720 * p.val)
      (fun b => uplinkEnd l p x (updLane l (fun y => { y with slots := splice y.slots (9 * p.val) (slotTrace l p x) }) b)) b
  else b

/-- OC_TRIP (R176): latched, source 145; a session past ADMISSION stops with DEVICE_FAULT at L1. -/
def ocTrip (n : Fin 16) (b : Block) : Block :=
  if vget b.mlk.ocTripped n then b
  else
    let b := irq 145 (updLink (fun k => { k with
      ocTripped := vset k.ocTripped n true, ocLatched := vset k.ocLatched n true, ocAt := vset k.ocAt n (now b) }) b)
    if (phaseOf b n).mayClose then softFault (.node n) 1 b else b

/-- OC_RELEASE. -/
def ocRelease (n : Fin 16) (b : Block) : Block :=
  if vget b.mlk.ocTripped n then updLink (fun k => { k with ocTripped := vset k.ocTripped n false, ocRelAt := vset k.ocRelAt n (now b) }) b
  else b

/-! ### The balls of a lane (R164, R166, R175) -/

/-- MLK_L{l}_DE at Tide `t` of the present cycle: high in the downlink frame and in the 12 veto windows of a lane that runs, but not in replay mode (R538). -/
def laneDrives (b : Block) (l : Fin 8) (t : Nat) : Bool :=
  let d := t - b.mlk.cycle.toNat
  (laneSt b l).ran && !b.rpl.mode && decide (b.mlk.cycle.toNat ≤ t) &&
    (decide (d < 14400) || decide (18660 ≤ d ∧ d < 59640 ∧ (d - 18660) % 3720 < 60))
/-- The bit that the device drives on lane `l` at Tide `t`; none while it does not drive, or before the slot's veto is decided. -/
def laneBit (b : Block) (l : Fin 8) (t : Nat) : Option Bool :=
  let d := t - b.mlk.cycle.toNat
  if !(laneDrives b l t) then none
  else if d < 14400 then ((laneSt b l).sent[d / 300]?).map fun s => s.getMsbD (d % 300 / 30)
  else (laneSt b l).window.map fun w => if (d - 18660) % 3720 < 30 then w.1 else w.2

/-- MODULE_STALE (R184): no passing page 0 record for 3 cycles. -/
def moduleStale (m : Fin 96) (b : Block) : Block :=
  let x := mlkOf b m
  if x.fresh then
    afterTicks x.stamp (3 * tCycle) (fun b =>
      onlyIf ((laneSt b (modLane m)).enrolled.getLsbD (posOf m)) (irq 149) (updMlk m (fun x => { x with fresh := false }) b)) b
  else b

/-- LANE_FAULT (R185): 25 cycles without a passing enrolled slot, or 3 failed readbacks: source 146, the modules out of service,
L2 (R17). -/
def laneFault (l : Fin 8) (b : Block) : Block :=
  let x := laneSt b l
  if !x.fault && ((x.enrolled != 0 && decide (25 ≤ x.noPass)) || decide (3 ≤ x.readbackFails)) then
    let b := irq 146 (updLane l (fun x => { x with fault := true }) b)
    let b := onlyIf ((laneModules l).any fun m => !(vget b.slu.modules m).outOfService) (irq 133)
      { b with slu := { b.slu with
          modules := vmapIdx b.slu.modules fun m y => if modLane m = l then { y with outOfService := true, leaveDue := false } else y } }
    deviceFault (.lane l) 2 b
  else b

/-! ### Ring actions (R179 to R183) -/

/-- The ramp length in steps (R180). -/
def rampLen (long : Bool) : Nat := if long then 50 else 25
/-- A lane setpoint takes one module (R180 to R182). -/
def setpointOne (v : Nat) (volt long : Bool) (x : MlkModule) : MlkModule :=
  if volt then { x with voltMode := true, trackNode := none, target := (v : Int), rampSteps := 0, rampStep := 0 }
  else
    let t := int16 v
    if x.voltMode then { x with voltMode := false, trackNode := none, present_ := 0, rampFrom := 0, target := t, rampSteps := rampLen long, rampStep := 0 }
    else if t = x.target then x
    else { x with rampFrom := x.present_, target := t, rampSteps := rampLen long, rampStep := 0 }
/-- LANE_SETPOINT fires (R180): every position without keep; the lane held by a containment takes none. -/
def mlkSetpoint (l : Fin 8) (e : Entry) (b : Block) : Block :=
  if heldZero b l then b
  else forAll (List.finRange 12) (fun p b =>
    if bitOf (e.arg 28 2) p.val then b
    else updMlk (modAt l p) (setpointOne (e.arg (2 * p.val) 2) (bitOf (e.arg 26 2) p.val) (bitOf (e.arg 24 2) p.val)) b) b
/-- The preconditions of a selector action or MATCH (R183). -/
def mlkMay (action : Nat) (m : Fin 96) (b : Block) : Bool :=
  let x := mlkOf b m
  !(laneSt b (modLane m)).selRefused && (action != 4 || (x.everOk && contactsOf x == 0 && x.sel != .openAll))
/-- OPEN fires (R182). -/
def mlkOpen (m : Fin 96) (b : Block) : Block := updMlk m (fun x => { x.zero with sel := .openAll }) b
/-- MATCH fires: the module follows the voltage of node `n`. -/
def mlkMatch (m : Fin 96) (n : Fin 16) (b : Block) : Block :=
  updMlk m (fun x => { x with voltMode := true, trackNode := some n, rampSteps := 0, rampStep := 0 }) b
/-- CLOSE fires. -/
def mlkClose (m : Fin 96) (n : Fin 16) (b : Block) : Block := updMlk m (fun x => { x with sel := .close (contactOf m n) }) b

/-! ### Registers (R187) -/

/-- MLK_LANE_STAT(l). -/
def laneStatWord (x : Lane) : U32 := reg32 [(0, x.enrolled.toNat), (16, x.lastOk.toNat)]
/-- The number whose bit `l` is a predicate of lane `l`. -/
def laneBits (b : Block) (f : Lane → Bool) : Nat := bitsNat (b.mlk.lanes.toList.map f)
/-- 32 modules' flags from module 32 w. -/
def modBits (b : Block) (f : MlkModule → Bool) (w : Nat) : U32 := BitVec.ofNat 32 (bitsNat (((b.mlk.modules.toList.drop (32 * w)).take 32).map f))
/-- MLK_CONTACTS(w). -/
def contactsWord (b : Block) (w : Nat) : U32 :=
  reg32 ((List.range 8).map fun k => (4 * k, match b.mlk.modules.toList[8 * w + k]? with | some x => contactsOf x | none => 0))

/-- The read value of word `a` of the MLK block. -/
def mlkWord (b : Block) (a : Nat) : U32 :=
  let k := b.mlk
  if a = 0x500 then BitVec.ofNat 32 (laneBits b (·.enable))
  else if a = 0x501 then reg32 [(0, laneBits b (·.running)), (8, laneBits b (·.fault)), (16, b2n k.enumBusy), (17, b2n (k.lanes.toList.any (·.selRefused)))]
  else if a = 0x502 then k.vetoMask.setWidth 32
  else if a = 0x503 then reg32 [(0, k.lastVeto.toNat), (8, b2n k.lastVetoCrc), (9, b2n k.lastVetoFault), (10, b2n k.lastVetoOc), (16, k.lastVetoBits.toNat)]
  else if a = 0x504 then lo32 k.lastVetoTick
  else if a = 0x505 then hi32 k.lastVetoTick
  else if a = 0x506 then reg32 [(0, bitsNat k.ocTripped.toList), (16, bitsNat k.ocLatched.toList)]
  else if h : 0x508 ≤ a ∧ a ≤ 0x50F then laneStatWord (laneSt b ⟨a - 0x508, by omega⟩)
  else if h : 0x510 ≤ a ∧ a ≤ 0x517 then (laneSt b ⟨a - 0x510, by omega⟩).crcCnt
  else if h : 0x518 ≤ a ∧ a ≤ 0x51F then (laneSt b ⟨a - 0x518, by omega⟩).vetoCnt
  else if h : 0x520 ≤ a ∧ a ≤ 0x527 then (laneSt b ⟨a - 0x520, by omega⟩).missCnt
  else if h : 0x528 ≤ a ∧ a ≤ 0x52F then (laneSt b ⟨a - 0x528, by omega⟩).dlErrCnt
  else if h : 0x530 ≤ a ∧ a ≤ 0x53F then (vget k.ocThr ⟨a - 0x530, by omega⟩).setWidth 32
  else if 0x540 ≤ a ∧ a ≤ 0x54B then contactsWord b (a - 0x540)
  else if 0x54C ≤ a ∧ a ≤ 0x54E then modBits b (·.fresh) (a - 0x54C)
  else if 0x54F ≤ a ∧ a ≤ 0x551 then modBits b (·.vetoed) (a - 0x54F)
  else 0

/-- A write to word `a` of the MLK block: lane_enable W1S, the latched trips W1C. -/
def mlkWrite (a : Nat) (v : U32) (b : Block) : Block :=
  if a = 0x500 then { b with mlk := { b.mlk with lanes := vmapIdx b.mlk.lanes fun l x => { x with enable := x.enable || v.getLsbD l.val } } }
  else if a = 0x506 then { b with mlk := { b.mlk with ocLatched := vmapIdx b.mlk.ocLatched fun n x => x && !v.getLsbD (16 + n.val) } }
  else b

/-! ### Commands (R189) -/

/-- The lane that byte 0 names. -/
def reqLane (b : Block) (m : Fin 4) : Fin 8 := ⟨(rB b m 0).toNat % 8, Nat.mod_lt _ (by decide)⟩
/-- Its range check. -/
def laneCheck (b : Block) (m : Fin 4) : Nat × Bool := (0x0501, decide ((rB b m 0).toNat < 8))
/-- The module that byte 0 names. -/
def reqModule (b : Block) (m : Fin 4) : Fin 96 := ⟨(rB b m 0).toNat % 96, Nat.mod_lt _ (by decide)⟩
/-- Its range check with a status. -/
def moduleCheck (st : Nat) (b : Block) (m : Fin 4) : Nat × Bool := (st, decide ((rB b m 0).toNat < 96))

/-- MLK_GET_LANE. -/
def mlkGetLane (m : Fin 4) (b : Block) : Block :=
  let x := laneSt b (reqLane b m)
  checked m [laneCheck b m] (ok m (b32s [laneStatWord x, x.crcCnt, x.vetoCnt, x.missCnt, x.dlErrCnt] ++ [BitVec.ofNat 8 (b2n x.fault)])) b

/-- MLK_GET_TELEMETRY. -/
def mlkGetTelemetry (m : Fin 4) (b : Block) : Block :=
  let x := mlkOf b (reqModule b m)
  let age := if x.everOk then min 255 (since b x.stamp / tCycle) else 255
  checked m [moduleCheck 0x0502 b m] (ok m (padTo 8 x.record ++ b64 x.stamp ++ [BitVec.ofNat 8 age, BitVec.ofNat 8 (bitsNat [!x.fresh, x.vetoed])])) b

/-- MLK_ENUMERATE (R186): the answer follows the cycle. -/
def mlkEnumerate (m : Fin 4) (b : Block) : Block :=
  let mask := rN b m 0 1
  checked m [(0x0506, !b.mlk.enumBusy)] (fun b =>
    let b := updLink (fun k => { k with
      enumBusy := true, enumMbx := some m, enumMask := BitVec.ofNat 8 mask, enumAt := none, enumOther := Vector.replicate 8 0 }) b
    if allLanes.any fun l => bitOf mask l.val && (laneSt b l).enable then
      bcastAsk { code := 0x01, mask := BitVec.ofNat 8 mask, arg := 0 } b
    else enumEnd b) b

/-- MLK_GET_IDENTITY. -/
def mlkGetIdentity (m : Fin 4) (b : Block) : Block :=
  let x := mlkOf b (reqModule b m)
  checked m [moduleCheck 0x0502 b m] (ok m (padTo 8 x.identity ++ b64 x.identityAt)) b

/-- MLK_SET_ENROLLED: no position is removed whose module is assigned or in flight. -/
def mlkSetEnrolled (m : Fin 4) (b : Block) : Block :=
  let l := reqLane b m
  let mask := rN b m 2 2
  let kept := (List.finRange 12).all fun p => bitOf mask p.val || !(laneSt b l).enrolled.getLsbD p.val || !modBusy b (modAt l p)
  checked m [laneCheck b m, (0x0501, decide (mask < 4096)), (0x0503, kept)] (fun b =>
    ok m (leBytes 2 mask) (saveSettings (updLane l (fun x => { x with enrolled := BitVec.ofNat 12 mask }) b))) b

/-- MLK_SET_OC. -/
def mlkSetOc (m : Fin 4) (b : Block) : Block :=
  let n := reqNode b m
  let t := rN b m 1 1
  checked m [nodeCheck 0x0504 b m, (0x0505, decide (64 ≤ t))] (fun b =>
    cmdLog m 0 (ok m (b64 (now b)) (saveSettings (updLink (fun k => { k with ocThr := vset k.ocThr n (BitVec.ofNat 8 t) }) b)))) b

/-- MLK_SET_VETO_MASK. -/
def mlkSetVetoMask (m : Fin 4) (b : Block) : Block :=
  let v := rN b m 0 1
  checked m [(0x0505, decide (v < 128))] (fun b =>
    cmdLog m 0 (ok m [] (saveSettings (updLink (fun k => { k with vetoMask := BitVec.ofNat 7 v }) b)))) b

/-- MLK_IDENTIFY: answered with the cycle start of the broadcast. -/
def mlkIdentify (m : Fin 4) (b : Block) : Block :=
  let x := reqModule b m
  let s := rN b m 1 1
  checked m [moduleCheck 0x0502 b m, (0x0505, decide (1 ≤ s))] (fun b =>
    let q : Bcast := { code := 0x02, mask := BitVec.ofNat 8 (2 ^ (modLane x).val), arg := BitVec.ofNat 16 (posOf x + 256 * s) }
    ok m (leBytes 8 (bcastStart b q)) (bcastAsk q b)) b

/-- MLK_RESET_LANE (R185, R189): 25 cycles in turnaround; the fault clears. -/
def mlkResetLane (m : Fin 4) (b : Block) : Block :=
  let l := reqLane b m
  checked m [laneCheck b m, (0x0503, (laneModules l).all fun x => !modBusy b x)] (fun b =>
    let t := nextCycle b + 25 * tCycle
    let dbl := (laneModules l).any fun x => decide (2 ≤ nibbleCount (contactsOf (mlkOf b x)))
    ok m (leBytes 8 t) (updLane l (fun x => { x with
      fault := false, selRefused := x.selRefused && dbl, resetUntil := some (BitVec.ofNat 64 t), running := false, ran := false
      noPass := 0, readbackFails := 0 }) b)) b

/-- MLK_CLEAR_COUNTS. -/
def mlkClearCounts (m : Fin 4) (b : Block) : Block :=
  let mask := rN b m 0 1
  ok m [] (forAll allLanes (fun l b =>
    if bitOf mask l.val then updLane l (fun x => { x with crcCnt := 0, vetoCnt := 0, missCnt := 0, dlErrCnt := 0 }) b else b) b)

/-- UPLINK_SLOT_END (R174). -/
def execUplinkSlotEnd (l : Fin 8) (p : Fin 12) (slot : UplinkSlot) (s : State) : Result := s.input (uplinkSlot l p slot)
/-- OC_TRIP (R176). -/
def execOcTrip (n : Fin 16) (s : State) : Result := s.input (ocTrip n)
/-- OC_RELEASE (R176). -/
def execOcRelease (n : Fin 16) (s : State) : Result := s.input (ocRelease n)
/-- MODULE_STALE (R184). -/
def execModuleStale (m : Fin 96) (s : State) : Result := s.run (moduleStale m)
/-- LANE_FAULT (R185). -/
def execLaneFault (l : Fin 8) (s : State) : Result := s.run (laneFault l)
/-- MLK_GET_LANE (R189). -/
def execMlkGetLane (m : Fin 4) (s : State) : Result := s.run (command m 0x0501 .sedge (mlkGetLane m))
/-- MLK_GET_TELEMETRY (R189). -/
def execMlkGetTelemetry (m : Fin 4) (s : State) : Result := s.run (command m 0x0502 .sedge (mlkGetTelemetry m))
/-- MLK_ENUMERATE (R186). -/
def execMlkEnumerate (m : Fin 4) (s : State) : Result := s.run (command m 0x0503 .sedge (mlkEnumerate m))
/-- MLK_GET_IDENTITY (R189). -/
def execMlkGetIdentity (m : Fin 4) (s : State) : Result := s.run (command m 0x0504 .sedge (mlkGetIdentity m))
/-- MLK_SET_ENROLLED (R186). -/
def execMlkSetEnrolled (m : Fin 4) (s : State) : Result := s.run (command m 0x0505 .sedge (mlkSetEnrolled m))
/-- MLK_SET_OC (R189). -/
def execMlkSetOc (m : Fin 4) (s : State) : Result := s.run (command m 0x0506 .sedge (mlkSetOc m))
/-- MLK_SET_VETO_MASK (R189). -/
def execMlkSetVetoMask (m : Fin 4) (s : State) : Result := s.run (command m 0x0507 .sedge (mlkSetVetoMask m))
/-- MLK_IDENTIFY (R169). -/
def execMlkIdentify (m : Fin 4) (s : State) : Result := s.run (command m 0x0508 .sedge (mlkIdentify m))
/-- MLK_RESET_LANE (R189). -/
def execMlkResetLane (m : Fin 4) (s : State) : Result := s.run (command m 0x0509 .sedge (mlkResetLane m))
/-- MLK_CLEAR_COUNTS (R189). -/
def execMlkClearCounts (m : Fin 4) (s : State) : Result := s.run (command m 0x050A .sedge (mlkClearCounts m))

end Sys2Proof.Machine
end

