-- ==== Sys2Proof/Machine/SluiceSolve.lean ====
section
/-! DEFINITION. The Sluice solver as a function of its latched inputs (06_sluice.md R135 to R149, R152, R153, R581): demands,
admission, budgets, the assignment, the waiting leaves, setpoints and reasons. -/

namespace Sys2Proof.Machine

/-- One volt on the scale on which node voltages are held here: 10 · 2^149, so that a binary32 voltage and a multiple of 0.1 V
are both whole numbers. -/
def oneVolt : Nat := 10 * 2 ^ 149
/-- The 16 connectors by number. -/
def sessIn (L : SluLatch) (n : Fin 16) : SluInput := L.sessions.getD n.val {}
/-- The 96 modules. -/
def modIn (L : SluLatch) (m : Fin 96) : SluModIn := L.modules.getD m.val {}
/-- The modules. -/
def allModules : List (Fin 96) := List.finRange 96

/-! ### Power and current limits (R135, R136) -/

/-- p(m, V) in W times `oneVolt`, for the available power `pav` W. -/
def modPower (pav v : Nat) : Nat :=
  if 150 * oneVolt ≤ v ∧ v ≤ 1000 * oneVolt then min (min pav 30000 * oneVolt) (100 * v) else 0
/-- p(m, V) in units of 100 W, rounded down. -/
def modUnits (pav v : Nat) : Nat := modPower pav v / (100 * oneVolt)
/-- I_lim(m, V) in 0.01 A. -/
def modILim (pav v : Nat) : Nat := if v = 0 then 0 else min 10000 (modPower pav v * 100 / v)
/-- Available power of a module for the solve: 0 when unavailable or out of service. -/
def SluModIn.usable (x : SluModIn) : Nat := if x.out then 0 else x.pav

/-- What a session asks for (R136), powers in 100 W, currents in 0.1 A, magnitudes only. -/
structure Demand where
  volt : Nat := 0
  iReq : Nat := 0
  dNom : Nat := 0
  d : Nat := 0
  floorP : Nat := 0
  exports : Bool := false

/-- V_s (R136). -/
def SluInput.volt (x : SluInput) : Nat :=
  if x.phase = .charging ∧ 150 * oneVolt ≤ x.nodeV * 10 then x.nodeV * 10 else x.targetV * 2 ^ 149
/-- F_s of a floor (R136). -/
def floorPower (f v : Nat) : Nat := f * min (30000 * oneVolt) (100 * v) / (100 * oneVolt)
/-- The quantities of R136. -/
def SluInput.demand (x : SluInput) : Demand :=
  let v := x.volt
  let iNom := min (min x.targetI.natAbs x.maxI) (min (x.rating * 10) 6000)
  let iReq := if x.thermalCap = 0xFFFF then iNom else min iNom x.thermalCap
  let cap := min (min x.maxP x.hostCap) 6000
  { volt := v, iReq := iReq, dNom := min (iNom * v / (1000 * oneVolt)) cap, d := min (iReq * v / (1000 * oneVolt)) cap
    floorP := floorPower x.floor v, exports := decide (x.targetI < 0) }

/-- The session is in one of the phases the solver serves. -/
def SluInput.live (x : SluInput) : Bool := match x.phase with | .admission | .cableCheck | .precharge | .charging => true | _ => false
/-- The session is eligible at the boundary (R116). -/
def SluInput.eligible (x : SluInput) : Bool := x.phase.mayClose
/-- The node may keep its modules (R139): its session is eligible, or admitted and waiting in ADMISSION. -/
def SluInput.holds (x : SluInput) : Bool := x.eligible || (x.served && x.phase == .admission)
/-- p(m, V_s) of module `m` for the session of node `n`, in 100 W; 0 beyond reach. -/
def unitsFor (L : SluLatch) (m : Fin 96) (n : Fin 16) : Nat :=
  if inReach m.val n.val then modUnits (modIn L m).usable (sessIn L n).volt else 0

/-! ### Floors that distinct modules can meet (R146, R152) -/

/-- All sublists. -/
def sublistsOf {α : Type} : List α → List (List α)
  | [] => [[]]
  | x :: r => let s := sublistsOf r; s ++ s.map (x :: ·)
/-- The floors of the sessions on these nodes can be met by distinct in-service, available modules within reach with p > 0: every
group of sessions has together at least as many usable modules as its floors add up to. -/
def floorsMeet (L : SluLatch) (ns : List (Fin 16)) : Bool :=
  (sublistsOf ns).all fun g =>
    decide ((g.map fun n => (sessIn L n).floor).sum ≤ (allModules.filter fun m => g.any fun n => decide (0 < unitsFor L m n)).length)

/-- The most recently admitted of these sessions (R152). -/
def latestAdmitted (L : SluLatch) : List (Fin 16) → Option (Fin 16)
  | [] => none
  | n :: r => match latestAdmitted L r with
    | some k => if (sessIn L n).admitNo < (sessIn L k).admitNo then some k else some n
    | none => some n
/-- Stop the most recently admitted sessions, one at a time, until the floors of the rest are meetable (R152): those kept and
those stopped. -/
def breach (L : SluLatch) : Nat → List (Fin 16) → List (Fin 16) × List (Fin 16)
  | 0, l => (l, [])
  | f + 1, l =>
    if floorsMeet L l then (l, [])
    else match latestAdmitted L l with
      | none => (l, [])
      | some n => let r := breach L f (l.filter (· != n)); (r.1, n :: r.2)

/-! ### Admission (R146, R147) -/

/-- The budgets in units of 100 W (R137): delivery, export. -/
def budgetOf (L : SluLatch) (exports : Bool) : Nat :=
  if exports then (if L.eta = 0 then 0 else L.siteExp * 1000 / L.eta / 100) else L.siteImp * L.eta / 1000 / 100

/-- `a` comes before `c` in the order of R146: class weight, instant of entry, number. -/
def candidateBefore (L : SluLatch) (a c : Fin 16) : Bool :=
  let x := sessIn L a
  let y := sessIn L c
  if x.weight ≠ y.weight then decide (y.weight < x.weight)
  else if x.entry ≠ y.entry then decide (x.entry.toNat < y.entry.toNat)
  else decide (a.val < c.val)
/-- Insert into an ordered list. -/
def insertBy {α : Type} (before : α → α → Bool) (x : α) : List α → List α
  | [] => [x]
  | y :: r => if before x y then x :: y :: r else y :: insertBy before x r
/-- The list in order. -/
def orderBy {α : Type} (before : α → α → Bool) (l : List α) : List α := l.foldr (insertBy before) []

/-- The first refusal of R147 that applies. -/
def refusalOf (L : SluLatch) (n : Fin 16) : Option U8 :=
  let x := sessIn L n
  let q := x.demand
  if x.policy then some 0x32
  else if (allModules.filter fun m => decide (0 < unitsFor L m n)).length < x.floor ∨ x.maxV < 1500 then some 0x30
  else if budgetOf L q.exports < q.floorP then some 0x31
  else none

/-- The admission logic of one boundary as it goes through the candidates. -/
structure Admit where
  served : List (Fin 16) := []
  admitted : List (Fin 16) := []
  delayed : List (Fin 16) := []
  refused : List (Fin 16 × U8) := []

/-- Sum of the floor powers of these sessions in one direction; a session counts in the direction in which its floor counts. -/
def floorSum (L : SluLatch) (exports : Bool) (ns : List (Fin 16)) : Nat :=
  (ns.map fun n => let q := (sessIn L n).demand; if q.exports = exports then q.floorP else 0).sum

/-- Test one candidate. -/
def admitOne (L : SluLatch) (a : Admit) (n : Fin 16) : Admit :=
  match refusalOf L n with
  | some c => { a with refused := a.refused ++ [(n, c)] }
  | none =>
    let x := sessIn L n
    let e := x.demand.exports
    let next := a.served ++ [n]
    if x.admissible && !L.frozen && !(L.strictFifo && a.delayed != []) && floorsMeet L next &&
        decide (floorSum L e next ≤ budgetOf L e) then
      { a with served := next, admitted := a.admitted ++ [n] }
    else { a with delayed := a.delayed ++ [n] }

/-- All candidates in the order of R146. -/
def admitAll (L : SluLatch) (served : List (Fin 16)) : Admit :=
  let c := allNodes.filter fun n => let x := sessIn L n; x.phase == .admission && !x.served
  (orderBy (candidateBefore L) c).foldl (admitOne L) { served := served }

/-! ### Budgets (R137, R152, R153) -/

/-- The value at position `n` of a list of 16 numbers. -/
def at16 (l : List Nat) (n : Fin 16) : Nat := l.getD n.val 0
/-- A list of 16 numbers. -/
def gen16 (f : Fin 16 → Nat) : List Nat := allNodes.map f

/-- Which served sessions take part in the budget of a direction: those whose floor counts there, and of those that changed
direction, each that the budget can still take (R153). `new` are the sessions admitted at this boundary. -/
def inBudget (L : SluLatch) (exports : Bool) (new served : List (Fin 16)) : List (Fin 16) :=
  let same := fun (n : Fin 16) => let x := sessIn L n; x.demand.exports == exports
  let stays := served.filter fun n => same n && (new.contains n || (sessIn L n).exports == exports)
  let turned := served.filter fun n => same n && !new.contains n && (sessIn L n).exports != exports
  turned.foldl (fun l n =>
    if floorSum L exports l + (sessIn L n).demand.floorP ≤ budgetOf L exports then l ++ [n] else l) stays

/-- One class of equal weight takes its share of what remains (R137 steps 2 and 3): the allotments and what remains. -/
def shareClass (L : SluLatch) (grp : List (Fin 16)) (g : List Nat) (rest : Nat) : List Nat × Nat :=
  let need := fun (n : Fin 16) => (sessIn L n).demand.d - at16 g n
  let total := (grp.map need).sum
  if total ≤ rest then (gen16 fun n => if grp.contains n then (sessIn L n).demand.d else at16 g n, rest - total)
  else (gen16 fun n => if grp.contains n then at16 g n + rest * need n / total else at16 g n, 0)

/-- The class weights, highest first. -/
def weightsDown (L : SluLatch) (ns : List (Fin 16)) : List Nat :=
  orderBy (fun x y => decide (y < x)) ((ns.map fun n => (sessIn L n).weight).eraseDups)

/-- The allotments of one direction, and whether the floors exceed its budget (R152). -/
def shareBudget (L : SluLatch) (exports : Bool) (ns : List (Fin 16)) (g : List Nat) : List Nat × Bool :=
  let bud := budgetOf L exports
  let base := floorSum L exports ns
  if bud < base then
    (gen16 fun n => if ns.contains n then (sessIn L n).demand.floorP * bud / base else at16 g n, true)
  else
    let first := fun (n : Fin 16) => let q := (sessIn L n).demand; min q.floorP q.d
    let g := gen16 fun n => if ns.contains n then first n else at16 g n
    let rest := bud - (ns.map first).sum
    let r := (weightsDown L ns).foldl (fun (a : List Nat × Nat) w =>
      shareClass L (ns.filter fun n => (sessIn L n).weight == w) a.1 a.2) (g, rest)
    (r.1, false)

/-! ### The assignment (R138, R139, R581) -/

/-- A map of the 96 modules. -/
abbrev Assignment := List (Option (Fin 16))
/-- Where a map puts module `m`. -/
def placeOf (x : Assignment) (m : Fin 96) : Option (Fin 16) := x.getD m.val none
/-- Put module `m` elsewhere. -/
def place (x : Assignment) (m : Fin 96) (n : Option (Fin 16)) : Assignment := x.set m.val n

/-- What the assignment phase works on. -/
structure Task where
  L : SluLatch
  served : List (Fin 16)
  /-- allotted powers, 100 W -/
  g : List Nat
  /-- nodes whose assignment stays: a stop, an insulation fault or a running long ramp -/
  fixedNode : List Bool

/-- The node's assignment is left alone. -/
def Task.still (t : Task) (n : Fin 16) : Bool := t.fixedNode.getD n.val false
/-- The present target of a module (R138). -/
def Task.present (t : Task) : Assignment :=
  allModules.map fun m => let x := modIn t.L m; if x.flight.isSome then x.dest else x.node
/-- In flight or stuck, or on a node left alone: the module stays where it is. -/
def Task.fixed (t : Task) (m : Fin 96) : Bool :=
  let x := modIn t.L m
  x.flight.isSome || (x.out && !x.open_) || (match x.node with | some n => t.still n | none => false)
/-- The module may take a new assignment (R135). -/
def Task.movable (t : Task) (m : Fin 96) : Bool := let x := modIn t.L m; !t.fixed m && !x.out && decide (0 < x.pav) && !x.leaveDue
/-- The floor of a served session's node, 0 for every other node. -/
def Task.floor (t : Task) (n : Fin 16) : Nat := if t.served.contains n then (sessIn t.L n).floor else 0
/-- The node may gain modules (R138, R144). -/
def Task.gains (t : Task) (n : Fin 16) : Bool :=
  let x := sessIn t.L n
  t.served.contains n && !t.still n && (x.phase == .admission || x.permit)
/-- Modules of node `n` with p > 0 in a map. -/
def Task.count (t : Task) (x : Assignment) (n : Fin 16) : Nat :=
  (allModules.filter fun m => placeOf x m == some n && decide (0 < unitsFor t.L m n)).length
/-- Modules of node `n` in a map. -/
def held (x : Assignment) (n : Fin 16) : Nat := (allModules.filter fun m => placeOf x m == some n).length

/-- The number of modules that is no surplus on node `n` (R141). -/
def surplusNeed (L : SluLatch) (n : Fin 16) : Nat :=
  let x := sessIn L n
  let lims := (allModules.filter fun m => (modIn L m).node == some n).map fun m => modILim (modIn L m).usable x.volt
  let lims := lims.filter (0 < ·)
  match lims with
  | [] => x.floor
  | a :: r => let least := r.foldl min a; max x.floor ((5 * x.nodeI + 4 * least - 1) / (4 * least))
/-- The modules counted on node `n` at the latch. -/
def countedOn (L : SluLatch) (n : Fin 16) : List (Fin 96) := allModules.filter fun m => (modIn L m).node == some n
/-- Node `n` held surplus modules at the latch (R141). -/
def hasSurplus (L : SluLatch) (n : Fin 16) : Bool := (sessIn L n).served && decide (surplusNeed L n < (countedOn L n).length)
/-- The modules of node `n` that are not on their way off it. -/
def stayingOn (L : SluLatch) (n : Fin 16) : List (Fin 96) :=
  (countedOn L n).filter fun m => match (modIn L m).flight with
    | none => true
    | some .rampUp => true
    | some .close => true
    | some _ => false
/-- Node `n` holds exactly its floor modules (R143). -/
def floorOnly (L : SluLatch) (n : Fin 16) : Bool := (sessIn L n).phase == .cableCheck || (sessIn L n).phase == .precharge
/-- The modules released: the excess of R141, or all beyond the floor in CABLE_CHECK and PRECHARGE (R143), highest number first. -/
def Task.released (t : Task) : List (Fin 96) :=
  t.served.flatMap fun n =>
    let stay := stayingOn t.L n
    let need := if floorOnly t.L n then (sessIn t.L n).floor else surplusNeed t.L n
    if (floorOnly t.L n || ((sessIn t.L n).release && hasSurplus t.L n)) && !t.still n then
      ((stay.filter fun m => !t.fixed m).reverse).take (stay.length - need)
    else []

/-- Forced leaves (R139): from a node that holds nothing, by order, or a release. -/
def Task.leaves (t : Task) : List (Fin 96) :=
  let rel := t.released
  allModules.filter fun m =>
    !t.fixed m && (match placeOf t.present m with
      | some n => (modIn t.L m).leaveDue || rel.contains m || !(sessIn t.L n).holds || ((sessIn t.L n).phase == .admission && !t.served.contains n)
      | none => false)

/-- The floors of R581 in progress: the map with the forced moves so far, and where each module is counted meanwhile. -/
structure Forced where
  map : Assignment
  at_ : Assignment

/-- Module `m` may be given to node `n` for its floor. -/
def Task.candidate (t : Task) (m : Fin 96) (n : Fin 16) : Bool := t.movable m && decide (0 < unitsFor t.L m n)
/-- A module on another node that holds more than its own floor may be taken from it. -/
def Task.spare (t : Task) (x : Assignment) (o : Fin 16) (m : Fin 96) : Bool :=
  let f := t.floor o
  f == 0 || (decide (f < held x o) && (unitsFor t.L m o == 0 || decide (f < t.count x o)))
/-- The next module for the floor of node `n` (R581 steps 3 and 4). -/
def Task.pick (t : Task) (x : Forced) (n : Fin 16) : Option (Fin 96) :=
  match allModules.find? fun m => (placeOf x.at_ m).isNone && t.candidate m n with
  | some m => some m
  | none => allModules.find? fun m => match placeOf x.at_ m with
    | some o => o != n && t.candidate m n && t.spare x.at_ o m
    | none => false
/-- Meet the floor of node `n`. -/
def Task.meet (t : Task) (n : Fin 16) : Nat → Forced → Forced
  | 0, x => x
  | f + 1, x =>
    if t.floor n ≤ t.count x.map n then x
    else match t.pick x n with
      | none => x
      | some m => t.meet n f { map := place x.map m (some n), at_ := place x.at_ m (some n) }
/-- All forced moves, before the move count. -/
def Task.forcedMap (t : Task) : Assignment :=
  let p := t.present
  let x : Forced := { map := t.leaves.foldl (fun x m => place x m none) p, at_ := p }
  ((t.served.filter t.gains).foldl (fun x n => t.meet n 24 x) x).map

/-- The modules that two maps place differently, ascending. -/
def movesOf (x y : Assignment) : List (Fin 96) := allModules.filter fun m => placeOf x m != placeOf y m

/-- One way to place the modules so far: how many moved, what each node has (capped at its allotment), how many modules with
p > 0 (capped at its floor), and the places, last one first. -/
structure Path where
  moves : Nat
  cover : List Nat
  count : List Nat
  rev : List (Option (Fin 16))

/-- The two ways have the same future. -/
def Path.same (x y : Path) : Bool := x.moves == y.moves && x.cover == y.cover && x.count == y.count
/-- Place one module. -/
def Task.extend (t : Task) (m : Fin 96) (keep : Option (Fin 16)) (x : Path) (o : Option (Fin 16)) : Path :=
  let mv := if o = keep then x.moves else x.moves + 1
  match o with
  | none => { x with moves := mv, rev := none :: x.rev }
  | some n =>
    let u := unitsFor t.L m n
    { moves := mv, rev := some n :: x.rev
      cover := x.cover.set n.val (min (at16 t.g n) (at16 x.cover n + u))
      count := x.count.set n.val (min (t.floor n) (at16 x.count n + (if u = 0 then 0 else 1))) }
/-- Of the ways with the same future only the first, the lexicographically smallest, is kept. -/
def dropSame : List Path → List Path → List Path
  | [], acc => acc.reverse
  | x :: r, acc => if acc.any (Path.same x) then dropSame r acc else dropSame r (x :: acc)
/-- `none` counts as 16. -/
def placeRank : Option (Fin 16) → Nat
  | some n => n.val
  | none => 16
/-- The places module `m` may take beyond the forced moves, ascending: where it is, and each node that may gain a module beyond its
floor. -/
def Task.options (t : Task) (keep present : Assignment) (m : Fin 96) : List (Option (Fin 16)) :=
  let here := placeOf keep m
  if t.L.holdMoves || !t.movable m || here != placeOf present m then [here]
  else
    let o := allNodes.filter fun n =>
      some n != here && t.gains n && (sessIn t.L n).phase == .charging && decide (0 < unitsFor t.L m n)
    orderBy (fun x y => decide (placeRank x < placeRank y)) (here :: o.map some)
/-- All ways within the move count, in lexicographic order. -/
def Task.search (t : Task) (keep present : Assignment) (limit : Nat) : List (Fin 96) → List Path → List Path
  | [], l => l
  | m :: r, l =>
    let l := l.flatMap fun x => ((t.options keep present m).map (t.extend m (placeOf keep m) x)).filter fun y => decide (y.moves ≤ limit)
    t.search keep present limit r (dropSame l [])
/-- J of a way (R138). -/
def Task.value (t : Task) (x : Path) : Int :=
  ((t.served.map fun n => (sessIn t.L n).weight * at16 x.cover n).sum : Nat) - ((t.L.moveCost * x.moves : Nat) : Int)
/-- The floors hold: every served session keeps at least what the forced moves give it, up to its floor. -/
def Task.floorsHold (t : Task) (keep : Assignment) (x : Path) : Bool :=
  t.served.all fun n => decide (min (t.floor n) (t.count keep n) ≤ at16 x.count n)
/-- The better of two ways: J, then fewer moves, then the first found. -/
def Task.best (t : Task) : List Path → Option Path → Option Path
  | [], a => a
  | x :: r, none => t.best r (some x)
  | x :: r, some y =>
    t.best r (if t.value y < t.value x ∨ (t.value y = t.value x ∧ x.moves < y.moves) then some x else some y)
/-- The way of a single map. -/
def Task.pathOf (t : Task) (keep : Assignment) : Path :=
  allModules.foldl (fun x m => t.extend m (placeOf keep m) x (placeOf keep m)) { moves := 0, cover := gen16 fun _ => 0, count := gen16 fun _ => 0, rev := [] }

/-- The map the solver adopts, and whether the margin kept X_keep (R139). `limit` is the move count. -/
def Task.solve (t : Task) (limit : Nat) : Assignment × Bool :=
  let p := t.present
  let forced := t.forcedMap
  let go := (movesOf p forced).take limit
  let keep := go.foldl (fun x m => place x m (placeOf forced m)) p
  let start : Path := { moves := 0, cover := gen16 fun _ => 0, count := gen16 fun _ => 0, rev := [] }
  let ways := (t.search keep p (limit - go.length) allModules [start]).filter (t.floorsHold keep)
  match t.best ways none with
  | none => (keep, true)
  | some x =>
    if t.value (t.pathOf keep) + t.L.moveMargin ≤ t.value x then (x.rev.reverse, false)
    else (keep, true)

/-! ### Setpoints (R140, R142) -/

/-- The allotted current of node `n` in 0.01 A: min(I_req, G_s / V_s). -/
def allottedI (L : SluLatch) (g : List Nat) (n : Fin 16) : Nat :=
  let q := (sessIn L n).demand
  if q.volt = 0 then 0 else min (q.iReq * 10) (at16 g n * 10000 * oneVolt / q.volt)

/-- Fill `total` evenly over modules with limits, each capped; the caps first, then equal shares, then one unit each to the
lowest-numbered modules. -/
def spread : Nat → Nat → List (Fin 96 × Nat) → List (Fin 96 × Nat)
  | 0, _, l => l.map fun e => (e.1, 0)
  | f + 1, total, l =>
    if l = [] then []
    else
      let share := total / l.length
      let capped := l.filter fun e => decide (e.2 ≤ share)
      if capped = [] then
        (l.zip (List.range l.length)).map fun e => (e.1.1, if e.2 < total % l.length then share + 1 else share)
      else capped ++ spread f (total - (capped.map (·.2)).sum) (l.filter fun e => !decide (e.2 ≤ share))
/-- The share of module `m`. -/
def shareOf (l : List (Fin 96 × Nat)) (m : Fin 96) : Nat := match l.find? fun e => e.1 == m with | some e => e.2 | none => 0

/-! ### Reasons (R148) -/

/-- P_s of a node current in 0.01 A, 100 W. -/
def powerOf (i v : Nat) : Nat := i * v / (10000 * oneVolt)
/-- The reason of a served session: `mods` assigned modules, `site` when R152 or R153 limits it. -/
def reasonOf (q : Demand) (g i mods : Nat) (site : Bool) : U8 :=
  if q.dNom ≤ powerOf i q.volt + 1 then 0x10
  else if site || decide (g < q.d) then 0x11
  else if q.d < q.dNom ∨ q.d ≤ mods * 300 then 0x13
  else 0x12

end Sys2Proof.Machine
end

