-- ==== Sys2Proof/Machine/HandOver.lean ====
section
/-! DEFINITION. Zero-current hand-over: slots, stages, verification, failures and stops (06_sluice.md R154 to R160), and the
guards of ring entries (02_tide.md R51). -/

namespace Sys2Proof.Machine

/-! ### Slots -/

/-- Change Sluice. -/
def updSlu (f : Sluice → Sluice) (b : Block) : Block := { b with slu := f b.slu }
/-- Sluice's record of module `m`. -/
def sluModOf (b : Block) (m : Fin 96) : SluModule := vget b.slu.modules m
/-- Change it. -/
def updSluMod (m : Fin 96) (f : SluModule → SluModule) (b : Block) : Block := updSlu (fun s => { s with modules := vupd s.modules m f }) b
/-- Hand-over slot `i`. -/
def hoOf (b : Block) (i : Fin 24) : Option HandOver := vget b.slu.ho i
/-- Replace it. -/
def setHo (i : Fin 24) (x : Option HandOver) (b : Block) : Block := updSlu (fun s => { s with ho := vset s.ho i x }) b
/-- Change the hand-over in a slot. -/
def updHo (i : Fin 24) (f : HandOver → HandOver) (b : Block) : Block := setHo i ((hoOf b i).map f) b
/-- The slots. -/
def allSlots : List (Fin 24) := List.finRange 24
/-- The slot of module `m`. -/
def slotOf (b : Block) (m : Fin 96) : Option (Fin 24) :=
  allSlots.find? fun i => match hoOf b i with | some x => x.module == m | none => false
/-- Hand-overs in flight. -/
def flightCount (b : Block) : Nat := (b.slu.ho.toList.filter Option.isSome).length
/-- The hand-over of module `m`. -/
def hoFor (b : Block) (m : Fin 96) : Option HandOver := match slotOf b m with | some i => hoOf b i | none => none
/-- Apply `f` to every hand-over in flight, slot by slot. -/
def eachHo (f : Fin 24 → HandOver → Block → Block) (b : Block) : Block :=
  forAll allSlots (fun i b => match hoOf b i with | some x => f i x b | none => b) b

/-- One link cycle later where an instant falls on an allocation boundary (R132). -/
def offBoundary (t : Nat) : Nat := if t % tFrame = 0 then t + tCycle else t
/-- Enqueue a hand-over entry on the module's ring (R132). -/
def hoEntry (m : Fin 96) (action : U8) (arg : Option (Fin 16)) (guard : U16) (t : Nat) (b : Block) : Block :=
  let p := match arg with | some n => BitVec.ofNat 8 n.val :: zeros 31 | none => zeros 32
  submit agSluice m.val { mkEntry tgMlk m.val action p (ringTime b m.val (BitVec.ofNat 64 t)) with
    flags := if guard = 0 then 0 else 2, guard := guard } b
/-- The OPEN entry of a hand-over. -/
def openEntry (m : Fin 96) (t : Nat) (b : Block) : Block := hoEntry m 2 none (BitVec.ofNat 16 (0x100 + m.val)) t b
/-- An open command without guard (R160). -/
def openCommand (m : Fin 96) (b : Block) : Block :=
  hoEntry m 2 none 0 (offBoundary (multipleFrom tCycle ((now b).toNat + fwLead))) b
/-- A snapshot into bank 0 at `s` (R132): one entry for all that share it; the instant at which it is made. -/
def snapshotAt (s : Nat) (b : Block) : Block × U64 :=
  let has := fun (t : U64) => ringHas b 104 fun e => e.time == t
  let t : U64 := BitVec.ofNat 64 s
  if has t then (b, t)
  else
    let t := ringTime b 104 t
    if has t then (b, t) else (submit agSluice 104 (mkEntry tgSnap 0 1 (zeros 32) t) b, t)

/-- A slot becomes free; entries that still wait for the module are withdrawn. -/
def hoEnd (i : Fin 24) (x : HandOver) (b : Block) : Block := setHo i none (cancelEntries x.module.val (fun _ => true) b).1
/-- The hand-over is complete. -/
def hoDone (i : Fin 24) (x : HandOver) (b : Block) : Block :=
  let b := hoEnd i x b
  { b with sluCnt := { b.sluCnt with hoDone := satInc b.sluCnt.hoDone } }
/-- The hand-over aborts (R160): counted, source 129. -/
def hoAbort (i : Fin 24) (x : HandOver) (b : Block) : Block :=
  let b := hoEnd i x b
  irq 129 { b with sluCnt := { b.sluCnt with hoAbort := satInc b.sluCnt.hoAbort } }
/-- Module `m` goes out of service: source 133. -/
def moduleOut (m : Fin 96) (b : Block) : Block :=
  if (sluModOf b m).outOfService then b else irq 133 (updSluMod m (fun x => { x with outOfService := true, leaveDue := false }) b)
/-- SELECTOR_FAULT (R160). -/
def selectorFault (i : Fin 24) (x : HandOver) (b : Block) : Block :=
  let b := hoAbort i x b
  moduleOut x.module (irq 131 { b with sluCnt := { b.sluCnt with selFault := satInc b.sluCnt.selFault } })
/-- ZC_FAIL (R160): out of service with setpoint 0, still on the old node, whose session stops. -/
def zcFail (i : Fin 24) (x : HandOver) (b : Block) : Block :=
  let b := hoAbort i x b
  let b := moduleOut x.module (irq 130 { b with sluCnt := { b.sluCnt with zcFail := satInc b.sluCnt.zcFail } })
  match countsOn b x.module with
  | some n => softFault (.node n) 1 b
  | none => b

/-! ### Beginning -/

/-- A new hand-over of module `m` decided at boundary `B`; without a free slot none begins. -/
def hoNew (m : Fin 96) (from_ to_ : Option (Fin 16)) (stage : Stage) (B : U64) (b : Block) : Block :=
  match allSlots.find? fun i => (hoOf b i).isNone with
  | none => b
  | some i =>
    let b := match to_ with | some n => updSess n (fun s => { s with zeroVerified := false }) b | none => b
    let b := setHo i (some { module := m, from_ := from_, to_ := to_, stage := stage, decided := B, vetoAt := (mlkOf b m).vetoed }) b
    updSlu (fun s => { s with inFlightPeak := if s.inFlightPeak.toNat < flightCount b then BitVec.ofNat 5 (flightCount b) else s.inFlightPeak }) b
/-- A leave passes its WAIT (R155): RAMP_DOWN begins at `H`; the VERIFY snapshot and the OPEN entry are enqueued. -/
def hoPass (i : Fin 24) (H : Nat) (b : Block) : Block :=
  match hoOf b i with
  | none => b
  | some x =>
    let r := snapshotAt (H + 4500000) b
    let b := updSluMod x.module (fun y => { y with zeroGuard := false }) r.1
    openEntry x.module (r.2.toNat + tCycle) (updHo i (fun x => { x with begun := some (BitVec.ofNat 64 H), snapAt := r.2 }) b)
/-- The MATCH entry (R155), not on a boundary. -/
def hoMatch (i : Fin 24) (t : Nat) (b : Block) : Block :=
  match hoOf b i with
  | none => b
  | some x => hoEntry x.module 3 x.to_ 0 (offBoundary t)
      (updHo i (fun x => { x with stage := .match_, acted := none, matchRun := 0, retryUsed := false, vetoAt := (mlkOf b x.module).vetoed }) b)
/-- The CLOSE entry, guarded 0x0200 + n. -/
def hoClose (i : Fin 24) (t : Nat) (b : Block) : Block :=
  match hoOf b i with
  | none => b
  | some x =>
    let g := match x.to_ with | some n => 0x200 + n.val | none => 0x200
    hoEntry x.module 4 x.to_ (BitVec.ofNat 16 g) (offBoundary t) (updHo i (fun x => { x with stage := .close, acted := none }) b)

/-! ### Guards (R51) -/

/-- The module's reported voltage lies within 5 V of the latest published voltage of node `n` (R155). -/
def voltageMatches (b : Block) (m : Fin 96) (n : Fin 16) : Bool :=
  decide (((exactF (chanOf b (voltChan n)).value * 10 - exactOf (modVoltage (mlkOf b m))).natAbs : Int) ≤ exactOf 50)

/-- The guard condition of an entry holds (R51). Guard 0x0200 + n is evaluated for the module in the entry's slot (R155), and false when
the slot names none (DESIGN CHOICE, log entry 162). Guard 0x0300 + n needs both permit bits (R260). -/
def guardHolds (b : Block) (e : Entry) : Bool :=
  let g := e.guard.toNat
  if h : 0x100 ≤ g ∧ g < 0x160 then (sluModOf b ⟨g - 0x100, by omega⟩).zeroGuard
  else if h : 0x200 ≤ g ∧ g < 0x210 then
    (if h2 : e.slot.toNat < 96 then voltageMatches b ⟨e.slot.toNat, h2⟩ ⟨g - 0x200, by omega⟩ else false)
  else if h : 0x300 ≤ g ∧ g < 0x310 then bothPermits b ⟨g - 0x300, by omega⟩
  else false

/-! ### Verification (R156) -/

/-- The bank's telemetry of module `m`. -/
def bankMod (k : SnapBank) (m : Fin 96) : SnapModule := k.modules.getD m.val {}
/-- The bank's sample of the current of node `n`. -/
def bankCurrent (k : SnapBank) (n : Fin 16) : U32 × U64 := k.samples.getD (2 * n.val + 1) (0, 0)
/-- The current that a telemetry record reports, 0.01 A. -/
def recCurrent (l : List U8) : Int := int16 (natAt l 1 2)
/-- The modules that remain on node `n` beside those leaving it. -/
def remaining (b : Block) (n : Fin 16) : List (Fin 96) :=
  allModules.filter fun m => countsOn b m == some n && (match hoFor b m with
    | some x => !(x.from_ == some n && (x.stage == .rampDown || x.stage == .verify || x.stage == .open))
    | none => true)
/-- The node current agrees with what the remaining modules report; with none, it is zero (R156 rule 4). -/
def currentAgrees (b : Block) (k : SnapBank) (n : Fin 16) (others : List (Fin 96)) : Bool :=
  let i := exactF (bankCurrent k n).1
  let one := exactOf 1
  let abs_ := (b.slu.zcNodeAbs.toNat : Int) * 100 * one
  if others = [] then decide ((i.natAbs : Int) * 1000 ≤ abs_)
  else
    let s := (others.map fun m => recCurrent (bankMod k m).record).sum
    decide (((i * 1000 - s * 10 * one).natAbs : Int) ≤ abs_ + b.slu.zcNodeRel.toNat * i.natAbs)
/-- Module `m` on node `n` passes VERIFY in bank `k`: its ramp ended at `e`, and `others` remain on the node. -/
def verifies (b : Block) (k : SnapBank) (m : Fin 96) (n : Fin 16) (e : Nat) (others : List (Fin 96)) : Bool :=
  let r := bankMod k m
  decide (e + 600000 ≤ r.stamp.toNat) && (byteAt r.record 6).toNat % 128 == 0 &&
    decide ((recCurrent r.record).natAbs ≤ b.slu.zcMod.toNat) &&
    k.settled.getD (2 * n.val + 1) false && decide (e + 1391500 ≤ (bankCurrent k n).2.toNat) && currentAgrees b k n others

/-- The VERIFY of one hand-over whose snapshot was taken at `s`. -/
def verifyOne (k : SnapBank) (i : Fin 24) (x : HandOver) (b : Block) : Block :=
  match x.begun, countsOn b x.module with
  | some h, some n =>
    if x.snapAt = k.instant ∧ (x.stage = .rampDown ∨ x.stage = .verify) then
      let good := verifies b k x.module n (h.toNat + 3000000) (remaining b n)
      updHo i (fun x => { x with stage := .verify }) (updSluMod x.module (fun y => { y with zeroGuard := good }) b)
    else b
  | _, _ => b
/-- The VERIFY of a stopping node: zero_verified when every module on it passes; a first failure is repeated once. -/
def verifyStop (k : SnapBank) (n : Fin 16) (b : Block) : Block :=
  let s := sessOf b n
  if s.stopSnap = some k.instant ∧ !s.zeroVerified then
    let on := allModules.filter fun m => countsOn b m == some n
    if on.all fun m => verifies b k m n s.rampEnd.toNat [] then
      let b := updSess n (fun s => { s with zeroVerified := true }) b
      if (nodeOf b n).rampedAt.isSome then rampedOpen n b else b
    else if s.stopTries = 0 then
      let r := snapshotAt (k.instant.toNat + tFrame) b
      updSess n (fun s => { s with stopTries := 1, stopSnap := some r.2 }) r.1
    else b
  else b
/-- HANDOVER_VERIFY (R155, R156): 30,000 ticks after a bank 0 snapshot. -/
def handoverVerify (b : Block) : Block :=
  let k := vget b.snaps 0
  if k.seq = 0 ∧ k.samples = [] ∨ b.slu.verifiedAt = some k.instant then b
  else afterTicks k.instant 30000 (fun b =>
    forAll allNodes (verifyStop k) (eachHo (verifyOne k) (updSlu (fun s => { s with verifiedAt := some k.instant }) b))) b

/-! ### How a hand-over entry resolved (R160) -/

/-- VERIFY and OPEN once more, 1,500,000 ticks after the last snapshot. -/
def verifyAgain (i : Fin 24) (x : HandOver) (b : Block) : Block :=
  let r := snapshotAt (x.snapAt.toNat + tFrame) b
  openEntry x.module (r.2.toNat + tCycle) (updHo i (fun x => { x with retryUsed := true, stage := .verify, snapAt := r.2 })
    (updSluMod x.module (fun y => { y with zeroGuard := false }) r.1))
/-- An OPEN entry has resolved with status `s` at `t`. -/
def openResolved (i : Fin 24) (x : HandOver) (s : U8) (t : U64) (b : Block) : Block :=
  if s = stFired then updHo i (fun x => { x with stage := .open, acted := some t, vetoAt := (mlkOf b x.module).vetoed }) b
  else if s = stCancelled then b
  else if x.retryUsed then (if s = stGuardFail then zcFail i x b else hoAbort i x b)
  else if s = stGuardFail then verifyAgain i x b
  else openEntry x.module (offBoundary (multipleFrom tCycle ((now b).toNat + fwLead))) (updHo i (fun x => { x with retryUsed := true }) b)
/-- A MATCH entry has resolved. -/
def matchResolved (i : Fin 24) (x : HandOver) (s : U8) (t : U64) (b : Block) : Block :=
  if s = stFired then updHo i (fun x => { x with acted := some t, matchAt := t }) b
  else if s = stCancelled then b else hoAbort i x b
/-- A CLOSE entry has resolved: from its firing the module counts on the new node (R157). -/
def closeResolved (i : Fin 24) (x : HandOver) (s : U8) (t : U64) (b : Block) : Block :=
  if s = stFired then updHo i (fun x => { x with acted := some t }) (updSluMod x.module (fun y => { y with node := x.to_ }) b)
  else if s = stCancelled then b
  else if x.retryUsed then hoAbort i x b
  else updHo i (fun x => { x with retryUsed := true, stage := .match_, acted := some x.matchAt, matchRun := 0 }) b
/-- Node `n` has another hand-over in RAMP_DOWN or RAMP_UP. -/
def rampsStill (b : Block) (n : Fin 16) : Bool :=
  b.slu.ho.toList.any fun h => match h with
    | some x => x.begun.isSome && match x.stage with
      | .wait => x.from_ == some n
      | .rampDown => x.from_ == some n
      | .rampUp => x.to_ == some n
      | _ => false
    | none => false
/-- The ramp of an aborted hand-over never began: its node is solved anew at the next boundary unless another one ramps there. -/
def rampDropped (n : Option (Fin 16)) (b : Block) : Block :=
  match n with
  | some n => if rampsStill b n then b else updSess n (fun s => { s with rampEnd := now b }) b
  | none => b
/-- The setpoints of lane `l` stay as they were before the frame that begins at `t` (R160). -/
def setpointsStay (l : Fin 8) (t : U64) (b : Block) : Block :=
  updSlu (fun s =>
    match s.next with
    | some x => if s.mapTide.toNat < t.toNat then
        { s with next := some { x with setpoints := allModules.map fun m => if modLane m = l then (vget s.modules m).setpoint else x.setpoints.getD m.val 0 } } else s
    | none => { s with modules := vmapIdx s.modules fun m y => if modLane m = l then { y with setpoint := y.setBefore } else y }) b
/-- A lane setpoint entry was LATE or collided (R160): the lane's setpoints stay as before, and the hand-overs of the lane whose ramp it
would have begun are aborted. -/
def laneLate (l : Fin 8) (t : U64) (b : Block) : Block :=
  eachHo (fun i x b =>
    if modLane x.module = l ∧ x.begun = some t ∧ (x.stage = .wait ∨ x.stage = .rampDown ∨ x.stage = .rampUp) then
      rampDropped (if x.stage = .rampUp then x.to_ else x.from_) (hoAbort i x b)
    else b) (setpointsStay l t b)
/-- Sluice learns how an entry of its rings resolved. -/
def sluResolved (r : Nat) (e : Entry) (s : U8) (t : U64) (b : Block) : Block :=
  if h : e.target = tgMlk ∧ e.slot.toNat < 96 ∧ r < 104 then
    let m : Fin 96 := ⟨e.slot.toNat, h.2.1⟩
    if e.action = 1 then (if s = stLate ∨ s = stCollision then laneLate (modLane m) e.time b else b)
    else match slotOf b m with
      | none => b
      | some i => match hoOf b i with
        | none => b
        | some x =>
          if e.action = 2 then (if x.stage = .wait ∨ x.stage = .rampDown ∨ x.stage = .verify then openResolved i x s t b else b)
          else if e.action = 3 then (if x.stage = .match_ then matchResolved i x s t b else b)
          else if x.stage = .close then closeResolved i x s t b else b
  else b

/-! ### The evaluation at link-cycle instants (R155, R157, R158) -/

/-- The telemetry of module `m` was received in the cycle before `c`. -/
def heardIn (b : Block) (m : Fin 96) (c : Nat) : Bool :=
  let x := mlkOf b m
  x.everOk && decide (c ≤ x.stamp.toNat + tCycle ∧ x.stamp.toNat < c)
/-- That telemetry shows all four contacts open. -/
def shownOpen (b : Block) (m : Fin 96) (c : Nat) : Bool := heardIn b m c && contactsOf (mlkOf b m) == 0
/-- Module `m` has left node `n` (R157, R158): on none, a topology notice, and an ordered leave takes it out of service. -/
def moduleLeft (m : Fin 96) (n : Fin 16) (since_ : Option U64) (b : Block) : Block :=
  let due := (sluModOf b m).leaveDue
  let b := imdTopology n false (updSluMod m (fun x => { x with node := none }) b)
  let b := match since_ with | some t => imdDisturb n t b | none => b
  onlyIf due (moduleOut m) b
/-- Contacts found open outside a hand-over's own opening or closing leave the module on none (R157, R268). -/
def followContacts (c : Nat) (m : Fin 96) (b : Block) : Block :=
  match countsOn b m with
  | none => b
  | some n =>
    if !shownOpen b m c then b
    else match slotOf b m with
      | none => moduleLeft m n none b
      | some i => match hoOf b i with
        | none => b
        | some x =>
          if x.stage = .open ∨ x.stage = .close then b
          else moduleLeft m n none (if x.stage = .rampUp then hoAbort i x b else hoEnd i x b)
/-- A veto acted on the module since the stage began. -/
def vetoedSince (b : Block) (x : HandOver) : Bool := (mlkOf b x.module).vetoed && !x.vetoAt
/-- The H' of a close confirmed at `c`: the boundary after it, and one frame on. -/
def rampUpAt (c : Nat) : Nat := multipleFrom tFrame (c + 1) + tFrame
/-- One hand-over at the link-cycle instant `c`. -/
def evaluateOne (c : Nat) (i : Fin 24) (x : HandOver) (b : Block) : Block :=
  let m := x.module
  match x.stage with
  | .wait => (match x.begun with | some h => if h.toNat ≤ c then updHo i (fun x => { x with stage := .rampDown }) b else b | none => b)
  | .rampDown => (match x.begun with | some h => if h.toNat + 3000000 ≤ c then updHo i (fun x => { x with stage := .verify }) b else b | none => b)
  | .verify => b
  | .open =>
    (match countsOn b m with
    | some n =>
      if shownOpen b m c then
        let b := moduleLeft m n x.acted b
        match x.to_ with
        | none => hoDone i x b
        | some _ => hoMatch i (c + tCycle) b
      else b
    | none => hoDone i x b)
  | .match_ =>
    (match x.to_, x.acted with
    | some n, some _ =>
      if vetoedSince b x then hoAbort i x b
      else
        let run := if heardIn b m c && voltageMatches b m n then x.matchRun + 1 else 0
        let b := updHo i (fun x => { x with matchRun := run }) b
        if 3 ≤ run then hoClose i (c + tCycle) b else b
    | _, _ => b)
  | .close =>
    (match x.to_, x.acted with
    | some n, some t =>
      if vetoedSince b x then openCommand m (hoAbort i x b)
      else if heardIn b m c && bitOf (contactsOf (mlkOf b m)) (contactOf m n).val then
        imdDisturb n t (imdTopology n true (updHo i (fun x => { x with
          stage := .rampUp, begun := some (BitVec.ofNat 64 (rampUpAt c)), retryUsed := false, vetoAt := (mlkOf b m).vetoed }) b))
      else b
    | _, _ => if vetoedSince b x then hoAbort i x b else b)
  | .rampUp =>
    if vetoedSince b x then hoAbort i x b
    else match x.begun with
      | some h => if h.toNat + 3000000 ≤ c then hoDone i x b else b
      | none => b

/-- The floor modules of node `n` have completed CLOSE (R146). -/
def floorComplete (b : Block) (n : Fin 16) : Bool :=
  let on := allModules.filter fun m => countsOn b m == some n && (match hoFor b m with | some x => x.stage == .rampUp | none => true)
  decide ((sessOf b n).floor.toNat ≤ on.length)
/-- An admitted session leaves ADMISSION for CABLE_CHECK. -/
def leaveAdmission (n : Fin 16) (b : Block) : Block :=
  let s := sessOf b n
  if s.phase = .admission ∧ s.served ∧ b.rst.sedge ∧ !lockedOut b n ∧ floorComplete b n then pilotCheck n (enterPhase n .cableCheck b) else b
/-- HANDOVER_EVALUATE (R155): at every link-cycle instant. -/
def handoverEvaluate (b : Block) : Block :=
  let c := nextMultiple tCycle b.slu.evalAt b
  atInstant c (fun b =>
    let b := updSlu (fun s => { s with evalAt := some (now b) }) b
    forAll allNodes leaveAdmission (eachHo (evaluateOne c) (forAll allModules (followContacts c) b))) b

/-- HANDOVER_TIMEOUT (R155, R160): OPEN 20 ms, MATCH 10 ms, CLOSE 20 ms after the entry fired. -/
def handoverTimeout (i : Fin 24) (b : Block) : Block :=
  match hoOf b i with
  | none => b
  | some x => match x.stage, x.acted with
    | .open, some t => afterTicks t 30000000 (selectorFault i x) b
    | .match_, some t => afterTicks t 15000000 (hoAbort i x) b
    | .close, some t => afterTicks t 30000000 (fun b => openCommand x.module (selectorFault i x b)) b
    | _, _ => b
/-- LEAVE_WAIT_TIMEOUT (R140): after 100 frames the leave is cancelled and the module stays. -/
def leaveWaitTimeout (i : Fin 24) (b : Block) : Block :=
  match hoOf b i with
  | none => b
  | some x => if x.stage = .wait ∧ x.begun = none ∧ 100 ≤ x.waited then hoEnd i x b else b

/-! ### Stops (R24, R159) -/

/-- A stop on node `n` meets one hand-over. -/
def stopMeets (n : Fin 16) (i : Fin 24) (x : HandOver) (b : Block) : Block :=
  let old := x.from_ == some n
  let new_ := x.to_ == some n
  if !old && !new_ then b
  else match x.stage with
    | .wait =>
      if x.begun.isSome then updHo i (fun x => { x with to_ := none }) b
      else if old then hoEnd i x b
      else updHo i (fun x => { x with to_ := none }) b
    | .rampDown => updHo i (fun x => { x with to_ := none }) b
    | .verify => updHo i (fun x => { x with to_ := none }) b
    | .open => updHo i (fun x => { x with to_ := none }) b
    | .match_ => hoEnd i x b
    | .close =>
      if !new_ then b
      else if x.acted.isSome then hoEnd i x b
      else hoEnd i x b
    | .rampUp => if new_ then hoEnd i x b else b
/-- A node without a session loses a hand-over only on its way to it: its own modules go on to where they are needed (R581). -/
def destinationGone (n : Fin 16) (i : Fin 24) (x : HandOver) (b : Block) : Block := if x.to_ = some n then stopMeets n i x b else b
/-- An insulation fault on node `n` meets a hand-over into or out of it (R144): it aborts as R160 has it, with an open command if CLOSE
has fired. One that has already left the node goes on. -/
def insulationMeets (n : Fin 16) (i : Fin 24) (x : HandOver) (b : Block) : Block :=
  if x.to_ = some n then
    (if x.stage = .close ∧ x.acted.isSome then openCommand x.module (hoAbort i x b) else hoAbort i x b)
  else if x.from_ = some n then (match x.stage with | .match_ => b | .close => b | .rampUp => b | _ => hoAbort i x b)
  else b
/-- The modules that a stopping node keeps until its welding test ends (R272): the lowest-numbered of those not already leaving, as
many as the floor. -/
def keptModules (b : Block) (n : Fin 16) : List (Fin 96) :=
  ((remaining b n).filter fun m => !(sluModOf b m).outOfService).take (sessOf b n).floor.toNat
/-- One module of the stopping node leaves with the stop: RAMP_DOWN at `H`. -/
def leaveWithStop (n : Fin 16) (B : U64) (H : Nat) (m : Fin 96) (b : Block) : Block :=
  let b := hoNew m (some n) none .wait B b
  match slotOf b m with
  | some i => hoPass i H b
  | none => b
/-- Sluice takes the stop of node `n` at boundary `B` (R154, R155): every module ramps down, one shared VERIFY, and all but the floor
modules leave. A node without modules is verified at once. -/
def takeStop (n : Fin 16) (B : U64) (b : Block) : Block :=
  let H := B.toNat + tFrame
  let b := eachHo (stopMeets n) b
  let on := allModules.filter fun m => countsOn b m == some n
  if on = [] then
    onlyIf (nodeOf b n).rampedAt.isSome (rampedOpen n) (updSess n (fun s => { s with stopTaken := true, zeroVerified := true }) b)
  else
    let kept := keptModules b n
    let go := (remaining b n).filter fun m => !kept.contains m && !(sluModOf b m).outOfService
    let r := snapshotAt (H + 4500000) b
    let b := updSess n (fun s => { s with stopTaken := true, zeroVerified := false, stopTries := 0, stopSnap := some r.2
                                          rampEnd := BitVec.ofNat 64 (H + 3000000) }) r.1
    forAll go (leaveWithStop n B H) b

end Sys2Proof.Machine
end

