-- ==== Sys2Proof/Machine/Tide.lean ====
section
/-! DEFINITION. Trim, PPS, time of day and the tide commands (02_tide.md R42 to R45, R53, R60, R62). -/

namespace Sys2Proof.Machine

/-- Change the Tide state. -/
def updTide (f : Tide → Tide) (b : Block) : Block := { b with tide := f b.tide }
/-- The trim limit, 200 ppm (R42). -/
def trimLimit : Int := 858993
/-- A value cut to the trim range. -/
def clampTrim (x : Int) : Int := max (-trimLimit) (min trimLimit x)
/-- trim_busy (R42). -/
def trimBusy (t : Tide) : Bool := t.trim != t.trimActual
/-- Set the trim target (R42); source 12 when that ends a movement. trim_clamped is W1C and stays set when a later value lies in range
(DESIGN CHOICE, log entry 162). -/
def setTrim (x : Int) (b : Block) : Block :=
  let v : U32 := BitVec.ofInt 32 (clampTrim x)
  let was := trimBusy b.tide
  let b := updTide (fun t => { t with trim := v, trimClamped := t.trimClamped || decide (clampTrim x ≠ x) }) b
  onlyIf (was && !trimBusy b.tide) (irq 12) b
/-- The PLL moves toward the target at an allocation boundary (R42). -/
def trimStep (b : Block) : Block :=
  if !trimBusy b.tide then b
  else
    let d := b.tide.trim.toInt - b.tide.trimActual.toInt
    let b := updTide (fun t => { t with trimActual := BitVec.ofInt 32 (t.trimActual.toInt + max (-4295) (min 4295 d)) }) b
    onlyIf (!trimBusy b.tide) (irq 12) b

/-! ### PPS (R43, R44) -/

/-- The acceptance window in ticks: 1,500 ticks a ppm; values outside 10 to 1,000 ppm count as 500 (R60). -/
def ppsWindow (t : Tide) : Nat := 1500 * (if 10 ≤ t.ppsWindow.toNat ∧ t.ppsWindow.toNat ≤ 1000 then t.ppsWindow.toNat else 500)
/-- The correction of one update (R44): the interval error over the interval in units of 2^-32, to the nearest unit, at most
4,295. -/
def ppsCorrection (err : Int) : Int :=
  let n := -err * 2 ^ 32
  max (-4295) (min 4295 ((2 * n + tSec) / (2 * tSec)))
/-- An edge is accepted: stamp, counts, source 10, and the discipline. -/
def ppsAccept (b : Block) : Block :=
  let t := b.tide
  let err : Int := (now b).toNat - t.ppsLast.toNat - (tSec : Int)
  let first := !t.ppsSeen
  let b := irq 10 (updTide (fun t => { t with
    ppsSeen := true, ppsState := 2, ppsLast := now b, ppsSince := now b
    ppsRecent := now b :: t.ppsRecent.filter fun x => decide (since b x ≤ 10 * tSec)
    ppsAccepted := satInc t.ppsAccepted
    ppsInterval := if first then t.ppsInterval else BitVec.ofInt 32 err }) b)
  if t.ppsDiscipline && !first && b.rst.sedge then setTrim (b.tide.trim.toInt + ppsCorrection err) b else b
/-- PPS_EDGE (R43): an edge of the given polarity. -/
def ppsEdge (falling : Bool) (b : Block) : Block :=
  let t := b.tide
  if !t.ppsEnable || !t.running || t.ppsFalling != falling then b
  else
    let d : Int := (now b).toNat - t.ppsLast.toNat - (tSec : Int)
    if !t.ppsSeen || decide (d.natAbs ≤ ppsWindow t) then ppsAccept b
    else updTide (fun t => { t with ppsRejected := satInc t.ppsRejected }) b
/-- PPS_LOST (R43): no edge accepted for 2 s. -/
def ppsLost (b : Block) : Block :=
  if b.tide.ppsEnable && b.tide.ppsState != 3 then
    afterTicks b.tide.ppsSince 3000000000 (fun b => irq 11 (updTide (fun t => { t with ppsState := 3 }) b)) b
  else b
/-- Set the PPS controls (R60); enabling waits for a first edge. -/
def setPps (enable falling discipline : Bool) (window : U16) (b : Block) : Block :=
  updTide (fun t => { t with
    ppsEnable := enable, ppsFalling := falling, ppsDiscipline := discipline, ppsWindow := window
    ppsState := if !enable then 0 else if t.ppsEnable then t.ppsState else 1
    ppsSeen := t.ppsSeen && t.ppsEnable && enable
    ppsSince := if enable && !t.ppsEnable then now b else t.ppsSince }) b

/-! ### Time of day (R45, R347) -/

/-- Carr sets the real-time clock from legal time when they differ by more than 1 s (R347). -/
def syncRtc (b : Block) : Block :=
  if b.tide.todSec = 0 ∨ !b.rst.carr then b
  else
    let want := (legalTicks b (now b) * 32768 / tSec).toNat
    if b.backup.rtcValid ∧ ((want : Int) - b.backup.rtc.toNat).natAbs ≤ 32768 then b
    else { b with backup := { b.backup with rtc := BitVec.ofNat 64 want, rtcValid := true } }
/-- Set the mapping (R45); the answer is how far the derived time of day moved, in ticks: 0 when there was no mapping before or
the new one is none (DESIGN CHOICE, log entry 162). -/
def setTod (anchor sec : U64) (b : Block) : Block × Int :=
  let t := b.tide
  let moved : Int := if t.todSec = 0 ∨ sec = 0 then 0
    else ((sec.toNat : Int) - t.todSec.toNat) * tSec - ((anchor.toNat : Int) - t.todAnchor.toNat)
  let had := timeSource b != 0
  let old : Int := if had then legalTicks b (now b) / tSec else 0
  let b := updTide (fun t => { t with todAnchor := anchor, todSec := sec }) b
  (syncRtc (clockChanged had old b), moved)

/-! ### Commands (R62) -/

/-- TIDE_GET_TIME. -/
def tideGetTime (m : Fin 4) (b : Block) : Block :=
  let t := b.tide
  let d : Int := (now b).toNat - (t.todAnchor.toNat : Int)
  if t.todSec = 0 then ok m (b64 (now b) ++ zeros 12) b
  else ok m (b64 (now b) ++ leBytes 8 ((t.todSec.toNat : Int) + d / tSec).toNat ++ leBytes 4 (d % tSec).toNat) b
/-- TIDE_SET_TRIM. -/
def tideSetTrim (m : Fin 4) (b : Block) : Block :=
  let x := (r32 b m 0).toInt
  respond m (if clampTrim x = x then 0 else 0x0201) (b32 (BitVec.ofInt 32 (clampTrim x))) (setTrim x b)
/-- TIDE_PPS_CONFIG. -/
def tidePpsConfig (m : Fin 4) (b : Block) : Block :=
  ok m [] (setPps (rBit b m 0 0) (rBit b m 0 1) (rBit b m 0 2) (r16 b m 2) b)
/-- The anchor is the stamp of an edge accepted within the last 10 s (R62). -/
def anchorIsEdge (b : Block) (a : U64) : Bool :=
  b.tide.ppsRecent.contains a && decide (since b a ≤ 10 * tSec)
/-- TIDE_SET_TOD. -/
def tideSetTod (m : Fin 4) (b : Block) : Block :=
  checked m [(0x0204, rBit b m 16 0 || anchorIsEdge b (r64 b m 0))] (fun b =>
    let r := setTod (r64 b m 0) (r64 b m 8) b
    ok m (leBytes 8 (BitVec.ofInt 64 r.2).toNat) r.1) b
/-- TIDE_SNAPSHOT: its entry goes on ring 131 with the mailbox as its tag; the response follows its resolution. -/
def tideSnapshot (m : Fin 4) (b : Block) : Block :=
  let t := r64 b m 8
  checked m [(0x0205, decide (1 ≤ rN b m 0 1 ∧ rN b m 0 1 ≤ 3)), (6, queueOk (rN b m 2 2) true),
      (0x0207, b.tide.ready), (0x0206, t == 0 || decide ((now b).toNat + 96 ≤ t.toNat))] (fun b =>
    let e := { mkEntry tgSnap (rN b m 0 1) 1 (zeros 32) (if t = 0 then ahead b fwLead else t) with tag := BitVec.ofNat 32 m.val }
    let r := submitEntry agSedge 131 e b
    if r.2 then r.1 else internalFail m r.1) b
/-- TIDE_SUBMIT. -/
def tideSubmit (m : Fin 4) (b : Block) : Block :=
  let r := rN b m 0 2
  let e := entryOf (rBytes b m 8 64)
  checked m [(0x0202, decide (576 ≤ r ∧ r ≤ 1023)), (0x0203, entryClean e), (0x0207, b.tide.ready)] (fun b =>
    let x := submitEntry agSedge r e b
    if x.2 then ok m (b64 (now b)) x.1 else internalFail m x.1) b
/-- TIDE_CANCEL. -/
def tideCancel (m : Fin 4) (b : Block) : Block :=
  let r := rN b m 0 2
  let tag := r32 b m 4
  let mask := r32 b m 8
  checked m [(0x0202, decide (576 ≤ r ∧ r ≤ 1023)), (0x0207, b.tide.ready)] (fun b =>
    let x := cancelEntries r (fun e => (e.tag &&& mask) == (tag &&& mask)) b
    ok m (b64 (now b) ++ leBytes 4 x.2) x.1) b
/-- TIDE_RING_STATUS. -/
def tideRingStatus (m : Fin 4) (b : Block) : Block :=
  let r := rN b m 0 2
  checked m [(0x0202, decide (r ≤ 1023))] (fun b =>
    let g := ringOf b r
    let nx := match g.chain.find? RingItem.isArmed with | some i => i.entry.time | none => 0
    ok m ([BitVec.ofNat 8 g.armed, 0] ++ leBytes 2 (ringWaiting b r).length ++ zeros 4 ++ b64 nx) b) b
/-- TIDE_CLEAR_COUNTS. -/
def tideClearCounts (m : Fin 4) (b : Block) : Block :=
  ok m [] { b with
    tide := { b.tide with ppsAccepted := 0, ppsRejected := 0 }
    lau := { b.lau with armedPeak := BitVec.ofNat 13 (armedCount b), lateCnt := 0, collCnt := 0, orderCnt := 0, skipCnt := 0, denyCnt := 0, cqDropCnt := 0 } }

/-- PPS_EDGE (R43). -/
def execPpsEdge (falling : Bool) (s : State) : Result := s.input (ppsEdge falling)
/-- PPS_LOST (R43). -/
def execPpsLost (s : State) : Result := s.run ppsLost
/-- TIDE_GET_TIME (R62). -/
def execTideGetTime (m : Fin 4) (s : State) : Result := s.run (command m 0x0201 .sedge (tideGetTime m))
/-- TIDE_SET_TRIM (R62). -/
def execTideSetTrim (m : Fin 4) (s : State) : Result := s.run (command m 0x0202 .sedge (tideSetTrim m))
/-- TIDE_PPS_CONFIG (R62). -/
def execTidePpsConfig (m : Fin 4) (s : State) : Result := s.run (command m 0x0203 .sedge (tidePpsConfig m))
/-- TIDE_SET_TOD (R45). -/
def execTideSetTod (m : Fin 4) (s : State) : Result := s.run (command m 0x0204 .sedge (tideSetTod m))
/-- TIDE_SNAPSHOT (R62). -/
def execTideSnapshot (m : Fin 4) (s : State) : Result := s.run (command m 0x0205 .sedge (tideSnapshot m))
/-- TIDE_SUBMIT (R62). -/
def execTideSubmit (m : Fin 4) (s : State) : Result := s.run (command m 0x0206 .sedge (tideSubmit m))
/-- TIDE_CANCEL (R53). -/
def execTideCancel (m : Fin 4) (s : State) : Result := s.run (command m 0x0207 .sedge (tideCancel m))
/-- TIDE_RING_STATUS (R62). -/
def execTideRingStatus (m : Fin 4) (s : State) : Result := s.run (command m 0x0208 .sedge (tideRingStatus m))
/-- TIDE_CLEAR_COUNTS (R62). -/
def execTideClearCounts (m : Fin 4) (s : State) : Result := s.run (command m 0x0209 .sedge (tideClearCounts m))

end Sys2Proof.Machine
end

