-- ==== Sys2Proof/Machine/Sluice.lean ====
section
/-! DEFINITION. The allocation frame of Sluice: latch, publication, effect, admission and outcomes, its registers and its commands
(06_sluice.md R131 to R134, R140 to R153, R161 to R163). -/

namespace Sys2Proof.Machine

/-! ### The latch (R134) -/

/-- A welding test runs on node `n`. -/
def weldRuns (b : Block) (n : Fin 16) : Bool := (vget b.safX.weldTests n).isSome
/-- A metrology channel of node `n` satisfies `p`. -/
def nodeChannel (b : Block) (n : Fin 16) (p : Chan → Bool) : Bool := p (chanOf b (voltChan n)) || p (chanOf b (currChan n))
/-- The node voltage, 2^-149 V; an unsettled or negative sample counts as 0. -/
def nodeVoltage (b : Block) (n : Fin 16) : Nat :=
  let u := chanOf b (voltChan n)
  if u.settled then (exactF u.value).toNat else 0
/-- A session's refusal conditions that the solver does not form itself (R147 row 1). -/
def policyRefuses (b : Block) (n : Fin 16) : Bool :=
  let s := sessOf b n
  s.refuse || b.met.sealOpen || b.slt.heldLimit || s.expired || nodeChannel b n fun c => c.cfg.sensor == 0
/-- No other unit withholds the session's admission; without keys Carr cannot sign and admits none (R385). -/
def unitsAdmit (b : Block) (n : Fin 16) : Bool :=
  admissionOpen b && keysUp b && insulationAdmits b n && !lockedOut b n && nodeSafe b n && !pilotBad b n && !bothFaulted (vehOf b n) &&
    !weldRuns b n && !nodeChannel b n Chan.modFault

/-- The node current, 2^-149 A; an unsettled sample counts as 0. -/
def nodeCurrent (b : Block) (n : Fin 16) : Int :=
  let i := chanOf b (currChan n)
  if i.settled then exactF i.value else 0
/-- The inputs of connector `n` at boundary `B`. -/
def latchSession (b : Block) (B : Nat) (n : Fin 16) : SluInput :=
  let s := sessOf b n
  let v := vget b.v2g n
  let p := vehOf b n
  { phase := phaseOf b n, number := s.number, served := s.served, admitNo := s.admitNo, exports := s.exports, entry := s.entry
    targetI := v.targetI.toInt, targetV := v.targetV.toNat, maxI := v.maxI.toNat, maxV := v.maxV.toNat, maxP := v.maxP.toNat
    rating := if p.ppValid then p.ppRating.toNat else 0, presentV := v.presentV.toNat, testV := (imdOf b n).uTest.toNat
    nodeV := nodeVoltage b n, nodeA := nodeCurrent b n, weight := s.weight.toNat, floor := s.floor.toNat, hostCap := s.hostCap.toNat
    thermalCap := s.thermalCap.toNat, policy := policyRefuses b n, admissible := unitsAdmit b n, permit := (nodeOf b n).permitDyke
    insFault := (imdOf b n).fault, frozen := decide (B < s.rampEnd.toNat) || weldRuns b n, stop := s.phase == .stopping
    release := s.release, nodeI := s.nodeI }
/-- While Sedge is absent the inputs keep their last values (R144); a session that has stopped meanwhile is seen to have stopped, and
a withheld permit and an insulation fault act as R144 has them. What Sluice keeps itself is no input. -/
def latchFrozen (b : Block) (B : Nat) (n : Fin 16) : SluInput :=
  let x := latchSession b B n
  match b.slu.lastInputs.bind fun L => L.sessions[n.val]? with
  | none => x
  | some o =>
    if !x.live then x
    else { o with phase := x.phase, permit := x.permit, insFault := x.insFault, frozen := x.frozen, stop := x.stop, nodeI := x.nodeI }
/-- Available power of module `m` for the solve at `B`: 0 when unavailable (R135). -/
def availablePower (b : Block) (B : Nat) (m : Fin 96) : Nat :=
  let k := mlkOf b m
  if k.everOk && decide (B ≤ k.stamp.toNat + 3 * tCycle) && faultsOf k == 0 then modPav k else 0
/-- Module `m` is out of service in the frame that the solve at the next boundary decides: an order waits for that frame (R163). -/
def outFor (b : Block) (m : Fin 96) : Bool :=
  match b.slu.pendingService.find? fun e => e.1 == m with
  | some e => !e.2.1
  | none => (sluModOf b m).outOfService
/-- The inputs of module `m` at boundary `B`. -/
def latchModule (b : Block) (B : Nat) (m : Fin 96) : SluModIn :=
  let x := sluModOf b m
  let h := hoFor b m
  { node := x.node, dest := match h with | some y => y.to_ | none => none, flight := h.map HandOver.stage
    rampFrom := match h with | some y => if y.stage = .rampUp then y.begun else none | none => none
    pav := availablePower b B m, outV := modVoltage (mlkOf b m), outI := recCurrent (mlkOf b m).record, out := outFor b m, open_ := contactsOf (mlkOf b m) == 0, leaveDue := x.leaveDue
    setpoint := x.setpoint }
/-- Its inputs while Sedge is absent: the telemetry keeps its last values (R144). -/
def latchModuleFrozen (b : Block) (B : Nat) (m : Fin 96) : SluModIn :=
  let x := latchModule b B m
  match b.slu.lastInputs.bind fun L => L.modules[m.val]? with
  | none => x
  | some o => { x with pav := o.pav, outV := o.outV, outI := o.outI, open_ := o.open_ }
/-- All inputs at boundary `B`. -/
def latchLive (b : Block) (B : U64) : SluLatch :=
  let s := b.slu
  { boundary := B
    sessions := allNodes.map (if b.rst.sedge then latchSession b B.toNat else latchFrozen b B.toNat)
    modules := allModules.map (if b.rst.sedge then latchModule b B.toNat else latchModuleFrozen b B.toNat)
    siteImp := s.siteImp.toNat, siteExp := s.siteExp.toNat, eta := s.eta.toNat, moveCost := s.moveCost.toNat
    moveMargin := s.moveMargin.toNat, holdMoves := s.holdMoves, strictFifo := s.strictFifo, frozen := !b.rst.sedge }
/-- The latch at boundary `B`: while Sedge is absent the site limits and the tuning keep their last values too. -/
def latchAll (b : Block) (B : U64) : SluLatch :=
  let L := latchLive b B
  match (if b.rst.sedge then none else b.slu.lastInputs) with
  | none => L
  | some o => { L with
      siteImp := o.siteImp, siteExp := o.siteExp, eta := o.eta, moveCost := o.moveCost, moveMargin := o.moveMargin, holdMoves := o.holdMoves
      strictFifo := o.strictFifo }
/-- Surplus modules over consecutive frames (R141). -/
def surplusStep (L : SluLatch) (n : Fin 16) (b : Block) : Block :=
  if hasSurplus L n then updSess n (fun s => { s with surplusFrames := s.surplusFrames + 1 }) b
  else updSess n (fun s => { s with surplusFrames := 0, release := false }) b
/-- The latch at boundary `B`; a solver that does not run latches nothing. -/
def latchStep (B : U64) (b : Block) : Block :=
  if b.slu.running then
    let L := latchAll b B
    let b := updSlu (fun s => { s with latch := some L, frozen := L.frozen, lastInputs := if L.frozen then s.lastInputs else some L }) b
    forAll allNodes (surplusStep L) b
  else b

/-! ### Outcomes (R150, R151) -/

/-- SLU_OUTCOME and the outcome record of node `n`, effective at `H`. -/
def outcomeChanged (H : U64) (n : Fin 16) (b : Block) : Block :=
  let s := sessOf b n
  let r := s.rep
  let o := match r.outcome with | .none => 0 | .served => 1 | .delayed => 2 | .refused => 3
  let two := fun (x : Int) => b16 (satInt 16 x)
  let p := b64 H ++ b32 s.number ++ [BitVec.ofNat 8 n.val, o, r.reason, r.queuePos] ++ two r.allotted ++ two r.served ++ two r.demand ++
    [BitVec.ofNat 8 r.modules, BitVec.ofNat 8 (phaseOf b n).code] ++ zeros 32
  sendTo agSluice b.slu.outcomeQueue (mkRecord 0x0410 56 0 p) (irq 128 b)
/-- Modules that count on node `n`. -/
def moduleCount (b : Block) (n : Fin 16) : Nat := (allModules.filter fun m => countsOn b m == some n).length
/-- Show a new report; a changed outcome, reason or queue position is told. -/
def showReport (H : U64) (n : Fin 16) (r : SluReport) (b : Block) : Block :=
  let o := (sessOf b n).rep
  let first := r.outcome == .delayed && (sessOf b n).delayFrom.isNone
  let b := updSess n (fun s => { s with rep := r, rawReason := r.reason, rawSince := 0, delayFrom := if first then some H else s.delayFrom }) b
  let b := if first then { b with sluCnt := { b.sluCnt with delay := satInc b.sluCnt.delay } } else b
  onlyIf (decide (o.outcome ≠ r.outcome ∨ o.reason ≠ r.reason ∨ o.queuePos ≠ r.queuePos)) (outcomeChanged H n) b
/-- What the solve found for node `n` holds from `H`. A changed Served reason is only noted (R150). -/
def applyReport (H : U64) (n : Fin 16) (r : SluReport) (b : Block) : Block :=
  let s := sessOf b n
  let k := moduleCount b n
  match s.phase with
  | .stopping | .ended | .faulted => updSess n (fun s => { s with rep := { s.rep with modules := k, held := r.held, allotted := 0, served := 0, demand := 0 } }) b
  | .admission | .cableCheck | .precharge | .charging =>
    if r.number ≠ s.number ∨ r.outcome = .none then updSess n (fun s => { s with rep := { s.rep with modules := k, held := r.held } }) b
    else if s.rep.outcome = .served ∧ r.outcome = .served ∧ s.rep.reason ≠ r.reason then
      updSess n (fun s => { s with
        rep := { r with modules := k, reason := s.rep.reason }
        rawReason := r.reason, rawSince := if s.rawReason = r.reason then s.rawSince + 1 else 0 }) b
    else showReport H n { r with modules := k } b
  | _ => showReport H n { modules := k, held := r.held } b

/-- An admission takes effect (R146). -/
def applyAdmission (x : SluNext) (a : Fin 16 × Bool) (b : Block) : Block :=
  let s := sessOf b a.1
  if s.phase = .admission ∧ (x.reports.getD a.1.val {}).number = s.number then
    let k := b.slu.admissions + 1
    let b := updSlu (fun s => { s with admissions := k }) (updSess a.1 (fun s => { s with served := true, admitNo := k, exports := a.2 }) b)
    { b with sluCnt := { b.sluCnt with admitted := satInc b.sluCnt.admitted } }
  else b
/-- A refusal takes effect (R147, R20). -/
def applyRefusal (x : SluNext) (a : Nat × U8) (b : Block) : Block :=
  if h : a.1 < 16 then
    let n : Fin 16 := ⟨a.1, h⟩
    let s := sessOf b n
    if s.phase = .admission ∧ !s.served ∧ (x.reports.getD n.val {}).number = s.number then
      let b := { b with sluCnt := { b.sluCnt with refuse := satInc b.sluCnt.refuse } }
      stopSession n .refused (updSess n (fun s => { s with refusedReason := a.2 }) b)
    else b
  else b
/-- The published solve takes effect at boundary `H` (R131). -/
def applyNext (H : U64) (x : SluNext) (b : Block) : Block :=
  let newly := x.exceed && !b.slu.floorsExceed
  let mods := vmapIdx b.slu.modules fun m y => { y with setpoint := x.setpoints.getD m.val 0, setBefore := y.setpoint }
  let b := updSlu (fun s => { s with
    next := none, floorsExceed := x.exceed, modules := mods
    budgetDel := satNat 16 x.budgetDel, budgetExp := satNat 16 x.budgetExp, floorDel := satNat 16 x.floorDel, floorExp := satNat 16 x.floorExp }) b
  let b := onlyIf newly (irq 132) b
  let b := forAll allNodes (fun n b => updSess n (fun s => { s with nodeI := at16 x.nodeI n }) b) b
  let b := forAll x.turned (fun a b => updSess a.1 (fun s => { s with exports := a.2 }) b) b
  let b := forAll x.admitted (applyAdmission x) b
  let b := forAll allNodes (fun n b => applyReport H n (x.reports.getD n.val {}) b) b
  forAll x.refused (applyRefusal x) b

/-! ### The boundary (R131) -/

/-- A module that R135 calls unavailable at `B`. -/
def unavailable (b : Block) (B : Nat) (m : Fin 96) : Bool := availablePower b B m == 0
/-- The byte of SLU_MAP of module `m`. -/
def mapByte (b : Block) (B : Nat) (m : Fin 96) : U8 :=
  let n := match countsOn b m with | some n => n.val | none => 16
  BitVec.ofNat 8 (n + 32 * b2n (inFlight b m) + 64 * b2n (sluModOf b m).outOfService + 128 * b2n (unavailable b B m))
/-- The bytes of SLU_SETPT. -/
def setpointBytes (b : Block) : List U8 := b.slu.modules.toList.flatMap fun x => b16 (satInt 16 x.setpoint)
/-- The bytes of the accumulators of R115, by their numbers. -/
def accumulatorBytes (b : Block) : List U8 :=
  (List.range 40).flatMap fun k => match energyReg b k with | some r => leBytes 12 r.acc.toNat | none => []
/-- The bytes of every Brine balance: the wallets by number, then the ledgers. -/
def balanceBytes (b : Block) : List U8 := (b.bri.wallets.flatMap fun w => b64 w.2.balance) ++ b.bri.ledgers.toList.flatMap fun l => b64 l.balance
/-- The three check values of a boundary (R536). -/
def checkBytes (b : Block) : List U8 := b32s [crc32c (b.slu.mapBytes ++ setpointBytes b), crc32c (accumulatorBytes b), crc32c (balanceBytes b)]
/-- The CHECK item of a boundary; in replay mode the values are kept to be compared (R536, R539). -/
def checkItem (B : U64) (b : Block) : Block :=
  if b.rpl.mode then { b with rpl := { b.rpl with own := (B, checkBytes b) :: b.rpl.own.take 63 } } else traceItem 14 0 B (checkBytes b) b
/-- The map in force at boundary `B` (R157). -/
def noteMap (B : U64) (b : Block) : Block :=
  updSlu (fun s => { s with
    lastMap := allModules.map (countsOn b), mapBytes := allModules.map (mapByte b B.toNat), mapTide := B, boundaryAt := some B }) b
/-- The settings whose H is `B` take effect (R163). -/
def applyTune (B : U64) (b : Block) : Block :=
  match b.slu.pendingTune with
  | some (x, h) => if h.toNat ≤ B.toNat then
      updSlu (fun s => { s with
        reasonHold := x.reasonHold, zcMod := x.zcMod, zcNodeAbs := x.zcNodeAbs, zcNodeRel := x.zcNodeRel, outcomeQueue := x.outcomeQueue
        pendingTune := none }) b
    else b
  | none => b
/-- A module leaves or returns to service (R163): source 133. -/
def serviceOne (e : Fin 96 × Bool × U64) (b : Block) : Block :=
  if e.2.1 then onlyIf (sluModOf b e.1).outOfService (irq 133) (updSluMod e.1 (fun y => { y with outOfService := false, leaveDue := false }) b)
  else moduleOut e.1 b
/-- The orders of SLU_MODULE_SERVICE whose H is `B` take effect. -/
def applyService (B : U64) (b : Block) : Block :=
  let due := b.slu.pendingService.filter fun e => decide (e.2.2.toNat ≤ B.toNat)
  forAll due serviceOne (updSlu (fun s => { s with pendingService := s.pendingService.filter fun e => !decide (e.2.2.toNat ≤ B.toNat) }) b)
/-- What happens at boundary `B`. -/
def boundaryAt (B : U64) (b : Block) : Block :=
  let b := applyService B (applyTune B b)
  let b := match b.slu.next with | some x => applyNext B x b | none => b
  trailingCommit (latchStep B (checkItem B (trimStep (latchFrame B (noteMap B b)))))
/-- ALLOCATION_BOUNDARY (R14, R131). -/
def allocationBoundary (b : Block) : Block :=
  let B := nextMultiple tFrame b.slu.boundaryAt b
  atInstant B (boundaryAt (BitVec.ofNat 64 B)) b

/-! ### The publication (R131) -/

/-- An insulation fault aborts the hand-overs of its node (R144); a stop is taken (R154); a session that ended without STOPPING meets its
hand-overs once (R159), and from then on only those still bound for its node. A module that joins for a welding test is left alone. -/
def takeStops (L : SluLatch) (b : Block) : Block :=
  forAll allNodes (fun n b =>
    let x := sessIn L n
    let b := if x.insFault && !weldRuns b n then eachHo (insulationMeets n) b else b
    if x.stop && !(sessOf b n).stopTaken && (sessOf b n).phase == .stopping then takeStop n L.boundary b
    else if x.live || weldRuns b n then b
    else if (sessOf b n).stopTaken then eachHo (destinationGone n) b
    else updSess n (fun s => { s with stopTaken := true }) (eachHo (stopMeets n) b)) b
/-- A new hand-over that the assignment asks for. -/
def beginMove (L : SluLatch) (x y : Assignment) (m : Fin 96) (b : Block) : Block :=
  if (slotOf b m).isSome then b
  else
    let from_ := placeOf x m
    let to_ := placeOf y m
    match from_ with
    | some _ => hoNew m from_ to_ .wait L.boundary b
    | none =>
      let b := hoNew m none to_ .match_ L.boundary b
      match slotOf b m with
      | some i => hoMatch i (L.boundary.toNat + tFrame + tCycle) b
      | none => b

/-- Modules that take part on node `n` from `H` on (R142): not leaving, not in MATCH or CLOSE, in service. -/
def participants (L : SluLatch) (H : Nat) (gone : List (Fin 96)) (n : Fin 16) : List (Fin 96) :=
  allModules.filter fun m =>
    let x := modIn L m
    x.node == some n && !x.out && !gone.contains m && (match x.flight with
      | none => true
      | some .wait => true
      | some .rampUp => (match x.rampFrom with | some h => decide (h.toNat ≤ H) | none => false)
      | some _ => false)
/-- The I_lim of module `m` at node `n` for voltage `v`. -/
def limitAt (L : SluLatch) (v : Nat) (m : Fin 96) : Nat := modILim (modIn L m).usable v

/-- The waiting leaves as they are gone through. -/
structure Waits where
  block : Block
  gone : List (Fin 96) := []
  held : List (Fin 16) := []
/-- One waiting leave (R140). -/
def waitOne (L : SluLatch) (g : List Nat) (H : Nat) (a : Waits) (m : Fin 96) : Waits :=
  match slotOf a.block m with
  | none => a
  | some i => match hoOf a.block i with
    | none => a
    | some x => match x.stage, x.begun, x.from_ with
      | .wait, none, some o =>
        let s := sessIn L o
        let stay : Waits := { a with block := updHo i (fun x => { x with waited := x.waited + 1 }) a.block, held := o :: a.held }
        let go : Waits := { a with
          block := updSess o (fun s => { s with rampEnd := BitVec.ofNat 64 (H + 3000000) }) (hoPass i H a.block), gone := m :: a.gone }
        if L.frozen || s.frozen || s.insFault || a.held.contains o then stay
        else if !s.eligible then go
        else
          let rest := (participants L H a.gone o).filter (· != m)
          if allottedI L g o ≤ (rest.map (limitAt L (s.nodeV * 10))).sum then go else stay
      | _, _, _ => a

/-- What one node's modules are told at `H`. -/
structure Drive where
  shares : List (Fin 96 × Nat) := []
  /-- the modules regulate to this voltage, 0.1 V -/
  volt : Option Nat := none
  /-- the setpoints stay as they are -/
  stays : Bool := false
  exports : Bool := false
/-- The node current, 0.01 A. -/
def Drive.total (d : Drive) : Nat := (d.shares.map (·.2)).sum
/-- The setpoint phase for node `n` (R133, R142 to R144). -/
def driveOf (L : SluLatch) (served : List (Fin 16)) (g : List Nat) (H : Nat) (gone : List (Fin 96)) (n : Fin 16) : Drive :=
  let x := sessIn L n
  if x.stop || !served.contains n || !x.eligible || !x.permit then {}
  else if x.frozen then { stays := true }
  else match x.phase with
    | .cableCheck => { volt := some (min 10000 (x.testV * 10)) }
    | .precharge => { volt := some (min 10000 x.presentV) }
    | _ =>
      let q := x.demand
      let l := (participants L H gone n).map fun m => (m, limitAt L q.volt m)
      { shares := spread 25 (min (allottedI L g n) (l.map (·.2)).sum) l, exports := q.exports }

/-- What one module is told at `H`: value, voltage mode, long ramp, keep. -/
structure Order where
  value : Int := 0
  volt : Bool := false
  long : Bool := false
  keep : Bool := false
/-- The drive of a node in a list of 16. -/
def driveAt (ds : List Drive) (n : Fin 16) : Drive := ds.getD n.val {}
/-- The order of module `m`. -/
def orderOf (b : Block) (L : SluLatch) (ds : List Drive) (H : Nat) (gone : List (Fin 96)) (m : Fin 96) : Order :=
  let x := modIn L m
  let h := hoFor b m
  let rampsUp := match x.flight, x.rampFrom with | some .rampUp, some t => decide (t.toNat < H) | some .rampUp, none => false | _, _ => true
  let busy := match h with
    | some y => (match y.stage with | .open => y.to_.isSome | .match_ => true | .close => true | _ => false)
    | none => false
  let test := match x.node with | some n => (match vget b.safX.weldTests n with | some t => t.module == m | none => false) | none => false
  let at_ := match h with | some y => (if y.stage = .rampUp then y.to_ else x.node) | none => x.node
  let long := match at_ with | some n => decide (H < (sessOf b n).rampEnd.toNat) | none => false
  match x.node with
  | none => { long := long, keep := busy || test }
  | some n =>
    let d := driveAt ds n
    if busy || test then { long := long, keep := true }
    else if d.stays then (if gone.contains m || !rampsUp then { long := long } else { value := x.setpoint, long := long, keep := true })
    else match d.volt with
      | some v => if (participants L H gone n).contains m then { value := v, volt := true, long := long } else { long := long }
      | none => { value := if d.exports then -(shareOf d.shares m : Int) else (shareOf d.shares m : Int), long := long }
/-- The setpoint of an order as SLU_SETPT shows it. -/
def Order.shown (o : Order) : Int := if o.volt then 0 else o.value
/-- The lane setpoint entry of lane `l` for `H` (R132, R180). -/
def laneEntry (os : List Order) (H : Nat) (l : Fin 8) (b : Block) : Block :=
  let o := fun (p : Nat) => os.getD (12 * l.val + p) {}
  let mask := fun (f : Order → Bool) => leBytes 2 (bitsNat ((List.range 12).map fun p => f (o p)))
  let p := (List.range 12).flatMap (fun p => b16 (BitVec.ofInt 16 (o p).value)) ++ mask Order.long ++ mask Order.volt ++ mask Order.keep ++ zeros 2
  submit agSluice (96 + l.val) (mkEntry tgMlk (12 * l.val) 1 p (BitVec.ofNat 64 H)) b

/-- The report of node `n` (R148 to R151). -/
def reportOf (L : SluLatch) (a : Admit) (g : List Nat) (ds : List Drive) (limited : List (Fin 16)) (n : Fin 16) : SluReport :=
  let x := sessIn L n
  let q := x.demand
  let sg := fun (k : Nat) => if q.exports then -(k : Int) else (k : Int)
  let base : SluReport := { number := x.number, held := x.insFault || (x.eligible && !x.permit), demand := if x.live then sg q.dNom else 0 }
  if a.served.contains n then
    let d := driveAt ds n
    let i := if d.stays then x.nodeI else d.total
    { base with outcome := .served, allotted := sg (at16 g n), served := sg (powerOf i q.volt)
                reason := reasonOf q (at16 g n) i (countedOn L n).length (limited.contains n) }
  else if a.delayed.contains n then
    { base with outcome := .delayed, reason := 0x20, queuePos := BitVec.ofNat 8 ((a.delayed.takeWhile (· != n)).length + 1) }
  else match a.refused.find? fun e => e.1 == n with
    | some e => { base with outcome := .refused, reason := e.2 }
    | none => base

/-- The solve of latch `L` is published (R131): floors, admission, budgets, assignment, leaves, setpoints. -/
def publishSolve (L : SluLatch) (b : Block) : Block :=
  let H := L.boundary.toNat + tFrame
  let b := onlyIf (!L.frozen) (takeStops L) (updSlu (fun s => { s with latch := none }) b)
  let br := breach L 16 (allNodes.filter fun n => (sessIn L n).served && (sessIn L n).live)
  let b := if br.2 = [] then b else irq 132 (forAll br.2 (fun n b => softFault (.node n) 1 b) b)
  let a := admitAll L br.1
  let del := inBudget L false a.admitted a.served
  let exp := inBudget L true a.admitted a.served
  let r1 := shareBudget L false del (gen16 fun _ => 0)
  let r2 := shareBudget L true exp r1.1
  let g := r2.1
  let limited := a.served.filter fun n => (r1.2 && del.contains n) || (r2.2 && exp.contains n) || !(del ++ exp).contains n
  let t : Task := { L := L, served := a.served, g := g, fixedNode := allNodes.map fun n => let x := sessIn L n; x.frozen || x.stop || x.insFault }
  let s := if L.frozen then (t.present, false) else t.solve (24 - flightCount b)
  let b := if s.2 then { b with sluCnt := { b.sluCnt with noMove := satInc b.sluCnt.noMove } } else b
  let b := forAll (movesOf t.present s.1) (beginMove L t.present s.1) b
  let w := allModules.foldl (waitOne L g H) { block := b }
  let ups := allModules.filter fun m => (modIn L m).rampFrom == some (BitVec.ofNat 64 H)
  let b := forAll ups (fun m b => match (modIn L m).dest with
    | some n => updSess n (fun s => { s with rampEnd := BitVec.ofNat 64 (H + 3000000) }) b
    | none => b) w.block
  let ds := allNodes.map (driveOf L a.served g H w.gone)
  let os := allModules.map (orderOf b L ds H w.gone)
  let b := forAll allLanes (laneEntry os H) b
  updSlu (fun s => { s with next := some {
    reports := allNodes.map (reportOf L a g ds limited)
    refused := a.refused.map fun e => (e.1.val, e.2)
    setpoints := os.map Order.shown
    budgetDel := budgetOf L false, budgetExp := budgetOf L true, floorDel := floorSum L false del, floorExp := floorSum L true exp
    nodeI := allNodes.map fun n => if (driveAt ds n).stays then (sessIn L n).nodeI else (driveAt ds n).total
    admitted := a.admitted.map fun n => (n, (sessIn L n).demand.exports)
    turned := (del.map fun n => (n, false)) ++ exp.map fun n => (n, true)
    exceed := r1.2 || r2.2 } }) b
/-- SLUICE_PUBLISH (R131): 600,000 ticks after the boundary. -/
def sluicePublish (b : Block) : Block :=
  match b.slu.latch with
  | none => b
  | some L => afterTicks L.boundary 600000 (publishSolve L) b

/-! ### Events of one node -/

/-- MAX_DELAY_EXPIRED (R147). -/
def maxDelayExpired (n : Fin 16) (b : Block) : Block :=
  let s := sessOf b n
  match s.delayFrom with
  | some t =>
    if s.phase = .admission ∧ !s.served ∧ s.maxDelay ≠ 0 then
      afterTicks t (s.maxDelay.toNat * tSec) (updSess n fun s => { s with expired := true }) b
    else b
  | none => b
/-- REASON_HOLD_EXPIRED (R150): the changed Served reason has held. -/
def reasonHoldExpired (n : Fin 16) (b : Block) : Block :=
  let s := sessOf b n
  if s.rep.outcome = .served ∧ s.rawReason ≠ s.rep.reason ∧ b.slu.reasonHold.toNat ≤ s.rawSince then
    outcomeChanged b.slu.mapTide n (updSess n (fun s => { s with rep := { s.rep with reason := s.rawReason }, rawSince := 0 }) b)
  else b
/-- SURPLUS_RELEASE (R141): surplus over 1,000 consecutive frames. -/
def surplusRelease (n : Fin 16) (b : Block) : Block :=
  if 1000 ≤ (sessOf b n).surplusFrames then updSess n (fun s => { s with release := true }) b else b
/-- PRECHARGE_DONE (R143): 32 consecutive samples; Sedge moves the session on. -/
def prechargeDone (n : Fin 16) (b : Block) : Block :=
  let s := sessOf b n
  if s.phase = .precharge ∧ 32 ≤ s.prechargeRun then
    onlyIf b.rst.sedge (enterPhase n .charging) (updSess n (fun s => { s with prechargeDone := true }) b)
  else b
/-- PRECHARGE_TIMEOUT (R143): 10 s. -/
def prechargeTimeout (n : Fin 16) (b : Block) : Block :=
  let s := sessOf b n
  if s.phase = .precharge ∧ !s.prechargeDone then afterTicks s.enteredAt 15000000000 (stopSession n .deviceFault) b else b

/-! ### Registers (R161) -/

/-- The code of an outcome. -/
def SluOutcome.code : SluOutcome → Nat
  | .none => 0 | .served => 1 | .delayed => 2 | .refused => 3
/-- A node, or 16 for none. -/
def nodeCode (x : Option (Fin 16)) : Nat := match x with | some n => n.val | none => 16
/-- SLU_NODE_STAT(n). -/
def sluNodeStat (b : Block) (n : Fin 16) : U32 :=
  let s := sessOf b n
  reg32 [(0, (phaseOf b n).code), (4, s.rep.outcome.code), (6, b2n s.zeroVerified), (7, b2n s.prechargeDone), (8, s.rep.reason.toNat),
    (16, s.rep.queuePos.toNat), (24, min 31 s.rep.modules), (29, b2n s.rep.held)]
/-- SLU_NODE_POWER(n). -/
def sluNodePower (b : Block) (n : Fin 16) : U32 :=
  let r := (sessOf b n).rep
  reg32 [(0, (satInt 16 r.allotted).toNat), (16, (satInt 16 r.demand).toNat)]
/-- SLU_HO(i). -/
def sluHoWord (x : Option HandOver) : U32 :=
  match x with
  | none => reg32 [(0, 0x7F), (8, 16), (16, 16), (24, 15)]
  | some h => reg32 [(0, h.module.val), (8, nodeCode h.from_), (16, nodeCode h.to_), (24, h.stage.code), (28, b2n h.retryUsed)]
/-- Two setpoints of SLU_SETPT(w). -/
def sluSetptWord (b : Block) (w : Nat) : U32 := BitVec.ofNat 32 (natAt (setpointBytes b) (4 * w) 4)
/-- SLU_ZC_TOL. -/
def zcTolWord (s : Sluice) : U32 := reg32 [(0, s.zcMod.toNat), (8, s.zcNodeAbs.toNat), (16, s.zcNodeRel.toNat)]
/-- The read value of word `a` of the SLU block. -/
def sluWord (b : Block) (a : Nat) : U32 :=
  let s := b.slu
  let c := b.sluCnt
  if a = 0x400 then reg32 [(0, b2n s.holdMoves), (1, b2n s.strictFifo), (16, s.outcomeQueue.toNat)]
  else if a = 0x401 then
    reg32 [(0, b2n s.running), (1, b2n s.frozen), (2, b2n s.floorsExceed), (8, flightCount b), (16, s.inFlightPeak.toNat)]
  else if a = 0x402 then lo32 s.mapTide
  else if a = 0x403 then hi32 s.mapTide
  else if a = 0x404 then s.siteImp
  else if a = 0x405 then s.siteExp
  else if a = 0x406 then reg32 [(0, s.eta.toNat), (16, s.reasonHold.toNat)]
  else if a = 0x407 then reg32 [(0, s.moveCost.toNat), (16, s.moveMargin.toNat)]
  else if a = 0x408 then zcTolWord s
  else if a = 0x409 then reg32 [(0, s.budgetDel.toNat), (16, s.budgetExp.toNat)]
  else if a = 0x40A then reg32 [(0, s.floorDel.toNat), (16, s.floorExp.toNat)]
  else if 0x410 ≤ a ∧ a ≤ 0x417 then
    [c.hoDone, c.hoAbort, c.zcFail, c.selFault, c.admitted, c.delay, c.refuse, c.noMove].getD (a - 0x410) 0
  else if h : 0x420 ≤ a ∧ a ≤ 0x42F then sluNodeStat b ⟨a - 0x420, by omega⟩
  else if h : 0x430 ≤ a ∧ a ≤ 0x43F then sluNodePower b ⟨a - 0x430, by omega⟩
  else if h : 0x440 ≤ a ∧ a ≤ 0x44F then
    let x := sessOf b ⟨a - 0x440, by omega⟩
    reg32 [(0, x.weight.toNat), (8, x.floor.toNat), (13, b2n x.refuse), (16, x.maxDelay.toNat)]
  else if h : 0x450 ≤ a ∧ a ≤ 0x45F then
    let x := sessOf b ⟨a - 0x450, by omega⟩
    reg32 [(0, x.hostCap.toNat), (16, x.thermalCap.toNat)]
  else if 0x460 ≤ a ∧ a ≤ 0x477 then BitVec.ofNat 32 (natAt s.mapBytes (4 * (a - 0x460)) 4)
  else if 0x478 ≤ a ∧ a ≤ 0x4A7 then sluSetptWord b (a - 0x478)
  else if h : 0x4A8 ≤ a ∧ a ≤ 0x4BF then sluHoWord (hoOf b ⟨a - 0x4A8, by omega⟩)
  else 0

/-- The tolerances of R161 lie within their ranges. -/
def zcTolOk (m a r : Nat) : Bool := decide (10 ≤ m ∧ m ≤ 200 ∧ 5 ≤ a ∧ a ≤ 50 ∧ 5 ≤ r ∧ r ≤ 50)
/-- No field of a write to word `a` is out of its range. -/
def sluFieldOk (a : Nat) (v : U32) : Bool :=
  if a = 0x408 then zcTolOk (fieldOf v.toNat 0 8) (fieldOf v.toNat 8 8) (fieldOf v.toNat 16 8) else true
/-- eta as written: the nearer limit when outside 900 to 1,000. -/
def etaOf (x : Nat) : BitVec 10 := BitVec.ofNat 10 (max 900 (min 1000 x))
/-- reason_hold as written: 0 as 1. -/
def reasonHoldOf (x : Nat) : U8 := BitVec.ofNat 8 (max 1 x)
/-- A write to word `a` of the SLU block. -/
def sluWrite (a : Nat) (v : U32) (b : Block) : Block :=
  let x := v.toNat
  if a = 0x400 then updSlu (fun s => { s with holdMoves := v.getLsbD 0, strictFifo := v.getLsbD 1, outcomeQueue := BitVec.ofNat 16 (x / 65536) }) b
  else if a = 0x404 then updSlu (fun s => { s with siteImp := v }) b
  else if a = 0x405 then updSlu (fun s => { s with siteExp := v }) b
  else if a = 0x406 then updSlu (fun s => { s with eta := etaOf (fieldOf x 0 10), reasonHold := reasonHoldOf (fieldOf x 16 8) }) b
  else if a = 0x408 then
    updSlu (fun s => { s with zcMod := BitVec.ofNat 8 x, zcNodeAbs := BitVec.ofNat 8 (x / 256), zcNodeRel := BitVec.ofNat 8 (x / 65536) }) b
  else b

/-! ### Commands (R163) -/

/-- The H of the first boundary after now. -/
def nextEffect (b : Block) : Nat := multipleFrom tFrame ((now b).toNat + 1) + tFrame
/-- SLU_SET_SITE. -/
def sluSetSite (m : Fin 4) (b : Block) : Block :=
  let e := rN b m 8 2
  checked m [(0x0402, decide (900 ≤ e ∧ e ≤ 1000))] (fun b =>
    let b := saveSettings (updSlu (fun s => { s with siteImp := r32 b m 0, siteExp := r32 b m 4, eta := BitVec.ofNat 10 e }) b)
    let L : SluLatch := { siteImp := b.slu.siteImp.toNat, siteExp := b.slu.siteExp.toNat, eta := e }
    let below := decide (budgetOf L false < b.slu.floorDel.toNat ∨ budgetOf L true < b.slu.floorExp.toNat)
    respond m (if below then 0x0403 else 0)
      (leBytes 8 (nextEffect b) ++ b16 (satNat 16 (budgetOf L false)) ++ b16 (satNat 16 (budgetOf L true))) b) b
/-- R146's test with connector `n` at floor `f`. -/
def raisedFloorFits (n : Fin 16) (f : BitVec 5) (b : Block) : Bool :=
  let L := latchAll (updSess n (fun s => { s with floor := f }) b) (now b)
  let served := allNodes.filter fun k => (sessIn L k).served && (sessIn L k).live
  let e := (sessIn L n).demand.exports
  floorsMeet L served && decide (floorSum L e served ≤ budgetOf L e)
/-- SLU_SET_CONNECTOR. -/
def sluSetConnector (m : Fin 4) (b : Block) : Block :=
  let n := reqNode b m
  let w := rN b m 1 1
  let f := rN b m 2 1
  let cap := rN b m 6 2
  let s := sessOf b n
  checked m [nodeCheck 0x0401 b m, (0x0402, decide (1 ≤ w ∧ 1 ≤ f ∧ f ≤ 24 ∧ 1 ≤ cap ∧ cap ≤ 6000)),
      (0x0404, !s.served || decide (f ≤ s.floor.toNat) || raisedFloorFits n (BitVec.ofNat 5 f) b)] (fun b =>
    ok m (leBytes 8 (nextEffect b)) (saveSettings (updSess n (fun s => { s with
      weight := BitVec.ofNat 8 w, floor := BitVec.ofNat 5 f, refuse := rBit b m 3 0, maxDelay := r16 b m 4, hostCap := BitVec.ofNat 16 cap }) b))) b
/-- SLU_SET_TUNING. What the solver latches takes effect with its next solve, the rest at its H. -/
def sluSetTuning (m : Fin 4) (b : Block) : Block :=
  let h := nextEffect b
  let x : SluTune := { reasonHold := reasonHoldOf (rN b m 4 1), zcMod := rB b m 5, zcNodeAbs := rB b m 6, zcNodeRel := rB b m 7, outcomeQueue := r16 b m 10 }
  checked m [(0x0402, zcTolOk (rN b m 5 1) (rN b m 6 1) (rN b m 7 1)), (6, queueOk (rN b m 10 2) true)] (fun b =>
    ok m (leBytes 8 h) (saveSettings (updSlu (fun s => { s with
      moveCost := r16 b m 0, moveMargin := r16 b m 2, holdMoves := rBit b m 8 0, strictFifo := rBit b m 8 1
      pendingTune := some (x, BitVec.ofNat 64 h) }) b))) b
/-- SLU_GET_NODE. -/
def sluGetNode (m : Fin 4) (b : Block) : Block :=
  let n := reqNode b m
  checked m [nodeCheck 0x0401 b m] (fun b =>
    let mask := bitsNat (allModules.map fun x => countsOn b x == some n)
    ok m (b32 (sluNodeStat b n) ++ b32 (sluNodePower b n) ++ b32 (sessOf b n).number ++ leBytes 12 mask ++ b64 (sessOf b n).entry) b) b
/-- SLU_GET_MAP. -/
def sluGetMap (m : Fin 4) (b : Block) : Block := ok m (b64 b.slu.mapTide ++ padTo 96 b.slu.mapBytes ++ setpointBytes b) b
/-- SLU_MODULE_SERVICE: an assigned module begins a forced leave in the next solve; any other order takes effect at H. -/
def sluModuleService (m : Fin 4) (b : Block) : Block :=
  let x := reqModule b m
  let v := rN b m 1 1
  checked m [moduleCheck 0x0405 b m, (0x0402, decide (v < 2)), (0x0406, !inFlight b x)] (fun b =>
    let h := nextEffect b
    let done := ok m (leBytes 8 h)
    if v = 0 ∧ (countsOn b x).isSome then done (updSluMod x (fun y => { y with leaveDue := true }) b)
    else done (updSlu (fun s => { s with
      pendingService := (s.pendingService.filter fun e => e.1 != x) ++ [(x, decide (v = 1), BitVec.ofNat 64 h)] }) b)) b
/-- SLU_GET_HANDOVERS. -/
def sluGetHandovers (m : Fin 4) (b : Block) : Block :=
  let l := b.slu.ho.toList
  ok m (b32s (l.map sluHoWord) ++ l.flatMap fun x => match x with | some h => b64 h.decided | none => zeros 8) b
/-- SLU_CLEAR_COUNTS. -/
def sluClearCounts (m : Fin 4) (b : Block) : Block :=
  ok m [] { updSlu (fun s => { s with inFlightPeak := BitVec.ofNat 5 (flightCount b) }) b with sluCnt := {} }

/-- ALLOCATION_BOUNDARY (R131). -/
def execAllocationBoundary (s : State) : Result := s.run allocationBoundary
/-- SLUICE_PUBLISH (R137). -/
def execSluicePublish (s : State) : Result := s.run sluicePublish
/-- MAX_DELAY_EXPIRED (R147). -/
def execMaxDelayExpired (n : Fin 16) (s : State) : Result := s.run (maxDelayExpired n)
/-- REASON_HOLD_EXPIRED (R150). -/
def execReasonHoldExpired (n : Fin 16) (s : State) : Result := s.run (reasonHoldExpired n)
/-- SURPLUS_RELEASE (R141). -/
def execSurplusRelease (n : Fin 16) (s : State) : Result := s.run (surplusRelease n)
/-- LEAVE_WAIT_TIMEOUT (R140). -/
def execLeaveWaitTimeout (i : Fin 24) (s : State) : Result := s.run (leaveWaitTimeout i)
/-- PRECHARGE_DONE (R143). -/
def execPrechargeDone (n : Fin 16) (s : State) : Result := s.run (prechargeDone n)
/-- PRECHARGE_TIMEOUT (R143). -/
def execPrechargeTimeout (n : Fin 16) (s : State) : Result := s.run (prechargeTimeout n)
/-- HANDOVER_VERIFY (R156). -/
def execHandoverVerify (s : State) : Result := s.run handoverVerify
/-- HANDOVER_EVALUATE (R155). -/
def execHandoverEvaluate (s : State) : Result := s.run handoverEvaluate
/-- HANDOVER_TIMEOUT (R160). -/
def execHandoverTimeout (i : Fin 24) (s : State) : Result := s.run (handoverTimeout i)
/-- SLU_SET_SITE (R163). -/
def execSluSetSite (m : Fin 4) (s : State) : Result := s.run (command m 0x0401 .sedge (sluSetSite m))
/-- SLU_SET_CONNECTOR (R163). -/
def execSluSetConnector (m : Fin 4) (s : State) : Result := s.run (command m 0x0402 .sedge (sluSetConnector m))
/-- SLU_SET_TUNING (R163). -/
def execSluSetTuning (m : Fin 4) (s : State) : Result := s.run (command m 0x0403 .sedge (sluSetTuning m))
/-- SLU_GET_NODE (R163). -/
def execSluGetNode (m : Fin 4) (s : State) : Result := s.run (command m 0x0404 .sedge (sluGetNode m))
/-- SLU_GET_MAP (R163). -/
def execSluGetMap (m : Fin 4) (s : State) : Result := s.run (command m 0x0405 .sedge (sluGetMap m))
/-- SLU_MODULE_SERVICE (R163). -/
def execSluModuleService (m : Fin 4) (s : State) : Result := s.run (command m 0x0406 .sedge (sluModuleService m))
/-- SLU_GET_HANDOVERS (R163). -/
def execSluGetHandovers (m : Fin 4) (s : State) : Result := s.run (command m 0x0407 .sedge (sluGetHandovers m))
/-- SLU_CLEAR_COUNTS (R163). -/
def execSluClearCounts (m : Fin 4) (s : State) : Result := s.run (command m 0x0408 .sedge (sluClearCounts m))

end Sys2Proof.Machine
end

