-- ==== Sys2Proof/Machine/Weld.lean ====
section
/-! DEFINITION. The welding test of an output contactor pair (11_safety.md R272, R287). -/

namespace Sys2Proof.Machine

/-- Replace the running welding test of node `n`. -/
def setWeld (n : Fin 16) (t : Option WeldTest) (b : Block) : Block := updSafX (fun x => { x with weldTests := vset x.weldTests n t }) b
/-- Module `m` can take a welding test: in service, available, its lane not held at 0 A. -/
def weldAble (b : Block) (m : Fin 96) : Bool :=
  !(sluModOf b m).outOfService && !heldZero b (modLane m) && decide (0 < availablePower b (now b).toNat m)
/-- The lowest-numbered module assigned to node `n` that can take the test; after a hub safe stop none can. -/
def weldModule (b : Block) (n : Fin 16) : Option (Fin 96) :=
  if b.saf.hubPermit then allModules.find? fun m => countsOn b m == some n && !inFlight b m && weldAble b m else none
/-- The module is put in voltage mode: 0 V when the connector side carries 200 V or more, else 400 V. -/
def weldBegin (n : Fin 16) (t : WeldTest) (b : Block) : Block :=
  let v := if atLeast (chanOf b (voltChan n)).good 200 1 then 0 else 4000
  setWeld n (some { t with joining := false, start := now b }) (updMlk t.module (setpointOne v true false) b)
/-- No module can be assigned: weld-untested. -/
def weldUntested (n : Fin 16) (b : Block) : Block :=
  stopDone n (updNode n (fun x => { x with weld := 0, weldNeed := true, weldDue := false }) b)
/-- The module of a test by command has joined the node; a join that failed ends the command with NO_MODULE. -/
def weldJoined (n : Fin 16) (t : WeldTest) (m : Fin 4) (b : Block) : Block :=
  let here := countsOn b t.module == some n
  match hoFor b t.module with
  | some x => if here && x.stage == .rampUp then weldBegin n t b else b
  | none => if here then weldBegin n t b else onlyIf (serving b m 0x0904) (refuse m 0x0908) (setWeld n none b)
/-- WELD_TEST_START (R272): t_drop after the opening, or once the module of SAF_WELD_TEST has joined. -/
def weldTestStart (n : Fin 16) (b : Block) : Block :=
  match vget b.safX.weldTests n with
  | some t => (match t.joining, t.byCommand with
    | true, some m => weldJoined n t m b
    | _, _ => b)
  | none =>
    if (nodeOf b n).weldDue then
      afterTicks (nodeOf b n).lastOpen (b.safX.tDrop.toNat * 15000000) (fun b =>
        match weldModule b n with
        | some m => weldBegin n { module := m } b
        | none => weldUntested n b) b
    else b

/-- What the comparison of a test shows. -/
inductive WeldSeen where
  | pass | welded | unclear
deriving DecidableEq, Repr
/-- The difference between the module's reported voltage and the latest settled sample of channel 2n, in 2^-149 units of 0.1 V. -/
def weldDifference (b : Block) (n : Fin 16) (m : Fin 96) : Nat :=
  (exactF (chanOf b (voltChan n)).good * 10 - exactOf (modVoltage (mlkOf b m))).natAbs
/-- The comparison: 100 V or more passes, below 50 V is welded. -/
def weldSees (b : Block) (n : Fin 16) (m : Fin 96) : WeldSeen :=
  let d : Int := weldDifference b n m
  if exactOf 1000 ≤ d then .pass
  else if d < exactOf 500 then .welded
  else .unclear
/-- The row WELD of R273. -/
def weldFault (n : Fin 16) (b : Block) : Block :=
  contain { cause := 9, scope := .node n, mode := .heldOpen, base := 1, lock := true, reason := .safety }
    (irq 294 (updNode n (fun x => { x with weld := 2, weldNeed := true }) b))
/-- The answer of SAF_WELD_TEST: result and voltage difference. -/
def weldAnswer (m : Fin 4) (result : U8) (d : Nat) (b : Block) : Block :=
  if serving b m 0x0904 then cmdLog m 0 (ok m ([result, 0, 0, 0] ++ leBytes 4 (d / 2 ^ 149)) b) else b
/-- The test of node `n` has ended; the module is put back to 0 A. -/
def weldEnd (n : Fin 16) (t : WeldTest) (welded : Bool) (b : Block) : Block :=
  let d := weldDifference b n t.module
  let b := setWeld n none (updMlk t.module MlkModule.zero b)
  let b := if welded then weldFault n b else updNode n (fun x => { x with weld := 1, weldNeed := x.weldNeed && t.byCommand.isNone }) b
  let b := updNode n (fun x => { x with weldDue := false }) b
  match t.byCommand with
  | some m => weldAnswer m (if welded then 2 else 1) d b
  | none => stopDone n b
/-- WELD_TEST_COMPARE (R272): 20 ms after the module was put in voltage mode. -/
def weldTestCompare (n : Fin 16) (b : Block) : Block :=
  match vget b.safX.weldTests n with
  | none => b
  | some t =>
    if t.joining then b
    else afterTicks t.start 30000000 (fun b =>
      match weldSees b n t.module with
      | .pass => weldEnd n t false b
      | .welded => weldEnd n t true b
      | .unclear =>
        if t.second then weldEnd n t true b
        else weldBegin n { t with second := true } (updNode n (fun x => { x with weld := 3 }) b)) b

/-- A module that could join node `n` for a test: in reach, unassigned. -/
def weldCandidate (b : Block) (n : Fin 16) : Option (Fin 96) :=
  allModules.find? fun m => inReach m.val n.val && (countsOn b m).isNone && !inFlight b m && weldAble b m
/-- The test of SAF_WELD_TEST with a module that has to join first. -/
def weldJoin (n : Fin 16) (x : Fin 96) (m : Fin 4) (b : Block) : Block :=
  let B := multipleFrom tFrame ((now b).toNat + 1)
  let b := hoNew x none (some n) .match_ (frameOf (now b)) b
  let b := match slotOf b x with | some i => hoMatch i (B + tCycle) b | none => b
  setWeld n (some { module := x, joining := true, byCommand := some m }) b
/-- SAF_WELD_TEST: the answer follows the test. -/
def safWeldTest (m : Fin 4) (b : Block) : Block :=
  let n := reqNode b m
  let p := (sessOf b n).phase
  let here := weldModule b n
  let other := if flightCount b < 24 then weldCandidate b n else none
  checked m [nodeCheck 0x0901 b m,
      (0x0907, (nodeOf b n).openVerified && !p.mayClose && p != .stopping && !weldRuns b n && !(nodeOf b n).weldDue),
      (0x0908, here.isSome || other.isSome)] (fun b =>
    match here, other with
    | some x, _ => weldBegin n { module := x, byCommand := some m } b
    | none, some x => weldJoin n x m b
    | none, none => b) b

/-- WELD_TEST_START (R272). -/
def execWeldTestStart (n : Fin 16) (s : State) : Result := s.run (weldTestStart n)
/-- WELD_TEST_COMPARE (R272). -/
def execWeldTestCompare (n : Fin 16) (s : State) : Result := s.run (weldTestCompare n)
/-- SAF_WELD_TEST (R272). -/
def execSafWeldTest (m : Fin 4) (s : State) : Result := s.run (command m 0x0904 .dyke (safWeldTest m))

end Sys2Proof.Machine
end

