-- ==== Sys2Proof/Machine/Association.lean ====
section
/-! DEFINITION. The powerline modems: SLAC runs, the cross-port comparison, association, and the powerline commands
(09_plc_association.md R213 to R224, R231, R233, R234). -/

namespace Sys2Proof.Machine

/-- Modem `n`. -/
def plcOf (b : Block) (n : Fin 16) : Modem := vget b.plc n
/-- Change the settings and runs. -/
def updPlcG (f : PlcCfg → PlcCfg) (b : Block) : Block := { b with plcCfg := f b.plcCfg }
/-- Bit `n` of a modem mask. -/
def modemBit (n : Fin 16) : BitVec 16 := BitVec.ofNat 16 (2 ^ n.val)
/-- Modem `n` is in the pause of a Creek activation (R505, R506). -/
def modemPaused (b : Block) (n : Fin 16) : Bool := match b.upd.pause with | some p => p.begun && p.modem == some n | none => false
/-- Modem `n` works: running, and Creek runs. -/
def modemWorks (b : Block) (n : Fin 16) : Bool := (plcOf b n).running && b.rst.creek && !modemPaused b n
/-- An item of the modem inputs of a trace (R536). -/
def creekItem (n : Fin 16) (kind : U8) (content : List U8) (b : Block) : Block :=
  traceItem 8 0 (now b) ([BitVec.ofNat 8 n.val, kind, 0, 0] ++ content) b
/-- The V2G session of connector `n`. -/
def v2gOf (b : Block) (n : Fin 16) : V2gSession := vget b.v2g n
/-- Change it. -/
def updV2g (n : Fin 16) (f : V2gSession → V2gSession) (b : Block) : Block := { b with v2g := vupd b.v2g n f }
/-- The V2G session closes: source 214 (R233). -/
def v2gClose (n : Fin 16) (b : Block) : Block :=
  if (v2gOf b n).isOpen then irq 214 (updV2g n (fun v => { v with isOpen := false, ongoing := false }) b) else b

/-! ### Addresses (R215) -/

/-- The station address of modem `n`: base + 2n. -/
def stationAddr (g : PlcCfg) (n : Fin 16) : BitVec 48 := g.macBase + BitVec.ofNat 48 (2 * n.val)
/-- The address of its IPv6 interface: base + 2n + 1. -/
def ifaceAddr (g : PlcCfg) (n : Fin 16) : BitVec 48 := stationAddr g n + 1
/-- The link-local address formed from it: fe80::/64 and the modified EUI-64. -/
def linkLocal (g : PlcCfg) (n : Fin 16) : List U8 :=
  let a := beBytes 6 (ifaceAddr g n).toNat
  [0xFE, 0x80] ++ zeros 6 ++ [byteAt a 0 ^^^ 2, byteAt a 1, byteAt a 2, 0xFF, 0xFE] ++ a.drop 3
/-- The network identifier of a membership key at security level 0 (R224): the first 52 bits of SHA-256 applied five times, then four
bits of level (HomePlug Green PHY, PRESUMED, log entry 172). -/
def networkId (nmk : List U8) : List U8 :=
  let h := (sha256 (sha256 (sha256 (sha256 (sha256 nmk))))).take 7
  h.take 6 ++ [byteAt h 6 >>> 4]

/-- The bytes of a run's identity. -/
def runBytes (mac : BitVec 48) (runId : U64) : List U8 := beBytes 6 mac.toNat ++ beBytes 8 runId.toNat

/-! ### Runs -/

/-- The run that a frame decoded by modem `n` belongs to. -/
def runFor (b : Block) (n : Fin 16) (mac : BitVec 48) (runId : U64) : Option SlacRun :=
  b.plcCfg.runs.find? fun r => r.key.mac == mac && r.key.runId == runId && (r.key.own.isNone || r.key.own == some n)
/-- Put a run in place of the one with its key. -/
def putRun (r : SlacRun) (b : Block) : Block :=
  updPlcG (fun c => { c with
    runs := if c.runs.any (fun x => x.key == r.key) then c.runs.map fun x => if x.key = r.key then r else x else c.runs ++ [r] }) b
/-- Remove a run. -/
def dropRun (k : RunKey) (b : Block) : Block := updPlcG (fun c => { c with runs := c.runs.filter fun x => x.key != k }) b
/-- The modem is matched to a run (R217). -/
def Modem.matched (x : Modem) : Bool := x.run.isSome
/-- Modem `n` is matched to another run than `k` and ignores this one (R217). -/
def ignoresRun (b : Block) (n : Fin 16) (k : RunKey) : Bool := match (plcOf b n).run with | some (q, _) => q != k | none => false

/-- CM_SLAC_PARM_REQ (R217). -/
def slacParmReq (n : Fin 16) (mac : BitVec 48) (runId : U64) (b : Block) : Block :=
  let b := creekItem n 1 (runBytes mac runId) b
  if !modemWorks b n || (plcOf b n).matched then b
  else
    let r := match runFor b n mac runId with
      | some r => r
      | none => { key := { mac := mac, runId := runId, own := if b.plcCfg.set.xtalkAware then none else some n }, set := b.plcCfg.set }
    let b := putRun { r with heard := r.heard ||| modemBit n } b
    if phaseOf b n = .associating ∧ (plcOf b n).slacState = 1 then updPlc n (fun x => { x with heardParm := true }) b else b

/-- CM_START_ATTEN_CHAR_IND (R218): the first modem that decodes it is the decoding modem; ARM_CAPTURE goes on ring 132. -/
def startAttenChar (n : Fin 16) (mac : BitVec 48) (runId : U64) (sounds : U8) (b : Block) : Block :=
  let b := creekItem n 1 (runBytes mac runId ++ [sounds]) b
  match runFor b n mac runId with
  | none => b
  | some r =>
    if r.starter.isSome || !modemWorks b n || ignoresRun b n r.key then b
    else
      let slot := if r.set.xtalkAware then 0xFFFF else n.val
      let t := ringTime b 132 (ahead b 96)
      let e : U64 := t + BitVec.ofNat 64 (r.set.tSounds.toNat * 30000000)
      let b := putRun { r with starter := some n, announced := sounds.toNat, capEnd := e } b
      let b := if phaseOf b n = .associating ∧ (plcOf b n).slacState = 1 then
          updPlc n (fun x => { x with slacState := 2, timerAt := t }) b else b
      submit agSedge 132 (mkEntry tgModem slot 1 (b64 e ++ zeros 24) t) b

/-- An ARM_CAPTURE entry fires at `t` (R218, R219). -/
def armCapture (e : Entry) (t : U64) (b : Block) : Block :=
  let w : U64 := BitVec.ofNat 64 (e.arg 0 8)
  forAll allNodes (fun n b =>
    if e.slot = 0xFFFF ∨ e.slot.toNat = n.val then
      updPlc n (fun x => { x with captures := (t, w) :: x.captures.filter fun c => decide (t.toNat < c.2.toNat) }) b
    else b) b
/-- An ARM_CAPTURE entry that lost a collision is enqueued again for the next tick for which it can be armed (R218). -/
def rearmCapture (e : Entry) (b : Block) : Block :=
  submit agSedge 132 { e with status := 0, resolveTick := 0, time := ringTime b 132 (ahead b 96) } b

/-- The ticks from `x` to `e` lie in the union of windows. -/
def covered (l : List (U64 × U64)) (e : Nat) : Nat → Nat → Bool
  | 0, _ => false
  | f + 1, x =>
    if e ≤ x then true
    else
      let y := l.foldl (fun a c => if c.1.toNat ≤ x ∧ a < c.2.toNat then c.2.toNat else a) x
      if y ≤ x then false else covered l e f y
/-- Modem `n` was armed throughout a window. -/
def armedFor (b : Block) (n : Fin 16) (w : SoundWindow) : Bool :=
  let l := (plcOf b n).captures
  covered l w.to_.toNat (l.length + 1) w.from_.toNat
/-- Two windows overlap by a tick or more. -/
def SoundWindow.meets (x y : SoundWindow) : Bool := decide (x.from_.toNat < y.to_.toNat ∧ y.from_.toNat < x.to_.toNat)
/-- Count `k` discarded windows on the decoding modem. -/
def countErase (n : Fin 16) (k : Nat) (b : Block) : Block := updPlc n (fun x => { x with eraseCnt := satAdd x.eraseCnt k }) b
/-- Windows discarded where they meet `w`. -/
def markMeeting (w : SoundWindow) (l : List SoundWindow) : List SoundWindow := l.map fun x => if x.meets w then { x with discarded := true } else x
/-- Discard the windows of every other run that a window meets (R220), those of runs decided meanwhile too. -/
def discardMeeting (k : RunKey) (w : SoundWindow) (b : Block) : Block :=
  let old := b.plcCfg.past.filter fun x => x.meets w && !x.discarded
  let b := forAll old (fun x b => countErase x.decoder 1 b) (updPlcG (fun c => { c with past := markMeeting w c.past }) b)
  forAll b.plcCfg.runs (fun r b =>
    if r.key = k then b
    else
      let hit := r.windows.filter fun x => x.meets w && !x.discarded
      if hit = [] then b
      else forAll hit (fun x b => countErase x.decoder 1 b)
        (putRun { r with windows := markMeeting w r.windows } b)) b
/-- A group attenuation in 0.5 dB (R219): the sounding level less the received one, corrected for the held gain in dB; rounded to the
nearest step, halves up, and at most 127.5 dB. The energy of the unblanked samples is scaled by their number. With
A = 10 log10 (S × 10^(gain/10) × used / energy), step k is reached when 10^((2k - 1)/40) is at most the ratio. -/
def groupAtten (gain used energy : Nat) : Nat :=
  ((List.range 255).filter fun k =>
    decide (10 ^ (2 * k + 1) * energy ^ 40 ≤ Config.soundingEnergy ^ 40 * 10 ^ (4 * gain) * used ^ 40)).length
/-- The 58 group attenuations of a port. -/
def portAtten (gain : Nat) (x : PortSound) : List Nat := (List.range 58).map fun g => groupAtten gain x.used (x.energy.getD g 0)
/-- The window of a frame that modem `n` decoded, on every port (R219), discarded as R220 states. -/
def soundWindow (b : Block) (n : Fin 16) (k : RunKey) (x : SoundReading) : SoundWindow :=
  let w : SoundWindow := { from_ := x.from_, to_ := x.to_, decoder := n }
  let clash := (b.plcCfg.runs.any fun o => o.key != k && o.windows.any w.meets) || b.plcCfg.past.any w.meets
  { w with
    discarded := clash || !armedFor b n w
    ports := allNodes.map fun p =>
      if armedFor b p w && !(vget x.ports p).erased then some (portAtten (plcOf b p).rxGain.toNat (vget x.ports p)) else none }
/-- The window of a new sound. -/
def newWindow (n : Fin 16) (r : SlacRun) (x : SoundReading) (b : Block) : Block :=
  let w := soundWindow b n r.key x
  let lost := (allNodes.filter fun p => armedFor b p w && (vget x.ports p).erased).length
  let b := countErase n (if w.discarded then 1 else lost) (discardMeeting r.key w b)
  putRun { r with windows := r.windows ++ [w]
                  decoded := if r.starter = some n then r.decoded + 1 else r.decoded } b
/-- The same frame decoded by another modem (R219): a lower-numbered one gives the window. -/
def sameWindow (n : Fin 16) (r : SlacRun) (w : SoundWindow) (x : SoundReading) (b : Block) : Block :=
  let w' := if n.val < w.decoder.val then (let y := soundWindow b n r.key x; { y with discarded := w.discarded || y.discarded }) else w
  putRun { r with windows := r.windows.map fun y => if y = w then w' else y
                  decoded := if r.starter = some n then r.decoded + 1 else r.decoded } b
/-- CM_MNBC_SOUND_IND (R219). -/
def soundInd (n : Fin 16) (x : SoundReading) (b : Block) : Block :=
  let b := creekItem n 2 (runBytes x.mac x.runId) b
  match runFor b n x.mac x.runId with
  | none => b
  | some r =>
    if r.starter.isNone || !modemWorks b n || ignoresRun b n r.key then b
    else match r.windows.find? fun w => decide (((w.from_.toNat : Int) - x.from_.toNat).natAbs ≤ 40) with
      | some w => sameWindow n r w x b
      | none => newWindow n r x b

/-! ### The decision (R220, R221) -/

/-- The windows of port `p` that are not discarded. -/
def SlacRun.portWindows (r : SlacRun) (p : Fin 16) : List (List Nat) :=
  r.windows.filterMap fun w => if w.discarded then none else w.ports.getD p.val none
/-- Number of them. -/
def SlacRun.count (r : SlacRun) (p : Fin 16) : Nat := (r.portWindows p).length
/-- A_p as a sum over groups and windows, and its divisor. -/
def SlacRun.mean (r : SlacRun) (p : Fin 16) : Nat × Nat := (((r.portWindows p).map List.sum).sum, 58 * r.count p)
/-- A_p lies below A_q. -/
def SlacRun.below (r : SlacRun) (p q : Fin 16) : Bool := decide ((r.mean p).1 * (r.mean q).2 < (r.mean q).1 * (r.mean p).2)
/-- The winner: lowest A_p among ports with enough windows, ties to the lower number. -/
def SlacRun.winner (r : SlacRun) : Option (Fin 16) :=
  (allNodes.filter fun p => decide (r.set.minSounds.toNat ≤ r.count p)).foldl (fun a p => match a with
    | none => some p
    | some q => if r.below p q then some p else some q) none
/-- The contest set for winner `w`. -/
def contestSet (b : Block) (w : Fin 16) : List (Fin 16) :=
  allNodes.filter fun p => p != w && (phaseOf b p == .connected || phaseOf b p == .associating)
/-- A_p − A_w < margin. -/
def SlacRun.close (r : SlacRun) (w p : Fin 16) : Bool :=
  let x := r.mean p
  let y := r.mean w
  decide ((x.1 : Int) * y.2 - y.1 * x.2 < r.set.margin.toNat * x.2 * y.2)
/-- The row of R221 that applies: decision code and winner. `s` is the decoding modem. -/
def SlacRun.judge (r : SlacRun) (b : Block) (s : Fin 16) : BitVec 3 × Fin 16 :=
  let few := fun (p : Fin 16) => decide (r.count p < r.set.minSounds.toNat)
  let far := fun (w : Fin 16) => decide (r.set.attenMax.toNat * (r.mean w).2 < (r.mean w).1)
  if few s then (4, s)
  else if !r.set.xtalkAware then (if far s then (4, s) else (1, s))
  else match r.winner with
    | none => (4, s)
    | some w =>
      if phaseOf b w ≠ .associating ∨ !r.heard.getLsbD w.val ∨ (plcOf b w).matched then (2, w)
      else if far w then (4, w)
      else if (contestSet b w).any fun p => few p || r.close w p then (3, w)
      else (1, w)
/-- A_p − A_w of port `p` over winner `w`, as numerator and denominator. -/
def SlacRun.marginOf (r : SlacRun) (w p : Fin 16) : Int × Nat :=
  let x := r.mean p
  let y := r.mean w
  ((x.1 : Int) * y.2 - y.1 * x.2, x.2 * y.2)
/-- The smallest margin over the ports of a set that have windows, and the port that gave it. -/
def SlacRun.bestMargin (r : SlacRun) (w : Fin 16) (l : List (Fin 16)) : Option ((Int × Nat) × Fin 16) :=
  (l.filter fun p => r.count p != 0).foldl (fun a p =>
    let m := r.marginOf w p
    match a with
    | none => some (m, p)
    | some (k, q) => if m.1 * k.2 < k.1 * m.2 then some (m, p) else some (k, q)) none
/-- The report of a decided run (R234), with what PLC_ATTEN shows of its margin (R231). -/
def SlacRun.report (r : SlacRun) (b : Block) (d : BitVec 3) (w : Fin 16) : RunReport :=
  let best := if r.set.xtalkAware then r.bestMargin w (contestSet b w) else none
  { key := r.key, heard := r.heard, decidedAt := now b, decision := d, winner := w
    margin := match best with | some (m, _) => BitVec.ofNat 8 (min 255 (m.1.toNat / m.2)) | none => 0xFF
    runner := match best with | some (_, p) => BitVec.ofNat 4 p.val | none => 0
    atten := allNodes.map fun p => let m := r.mean p; if m.2 = 0 then 0xFF else BitVec.ofNat 8 (m.1 / m.2)
    windows := allNodes.map fun p => BitVec.ofNat 8 (r.count p)
    profiles := allNodes.map fun p => if r.count p = 0 then []
      else (List.range 58).map fun g => BitVec.ofNat 8 (((r.portWindows p).map fun l => l.getD g 255).sum / r.count p) }

/-- The attempt of connector `n` fails (R222): a restart at duty 0, or the end of the session after max_attempts. -/
def failAttempt (n : Fin 16) (d : BitVec 3) (b : Block) : Block :=
  let x := plcOf b n
  if phaseOf b n ≠ .associating then b
  else
    let b := updPlc n (fun x => { x with decision := d, run := none, nmk := [], nid := [], edgeBase := [], heardParm := false, linkUp := false }) b
    if x.assoc.maxAttempts.toNat ≤ x.attempt.toNat then stopSession n .commTimeout (irq 209 b)
    else
      let e : U64 := dutyInstant b n + BitVec.ofNat 64 (x.assoc.tRestart.toNat * 150000000)
      dutyReview n (updVeh n (fun v => { v with restartUntil := some e }) (updPlc n (fun x => { x with slacState := 7, timerAt := e }) b))
/-- A decided run fails the attempt of modem `n`, unless the modem is matched to another run by then (R217). -/
def failRun (n : Fin 16) (k : RunKey) (d : BitVec 3) (b : Block) : Block := if ignoresRun b n k then b else failAttempt n d b
/-- Every attached modem but `w` stays silent: its XTALK count rises, source 210. -/
def silence (heard : BitVec 16) (w : Option (Fin 16)) (b : Block) : Block :=
  let l := allNodes.filter fun p => heard.getLsbD p.val && some p != w
  if l = [] then b else irq 210 (forAll l (fun p b => updPlc p (fun x => { x with rejected := satInc x.rejected }) b) b)
/-- A run is accepted on modem `w` (R221 row 5, R224): the other attached modems stay silent in crosstalk-aware mode. A key refused with
RNG_FAIL (R394) fails the attempt. -/
def acceptRun (w : Fin 16) (k : RunKey) (set : SlacSet) (rep : RunReport) (b : Block) : Block :=
  if !b.key.rngOk then failAttempt w 4 b else
  let d := draw 16 b
  let b := updPlc w (fun x => { x with
    slacState := 3, decision := 1, run := some (k, set), edgeBase := [], timerAt := now b, nmk := d.2, nid := networkId d.2
    attenMean := rep.atten.getD w.val 0xFF, attenMargin := rep.margin, runnerUp := rep.runner }) d.1
  if set.xtalkAware then silence rep.heard (some w) b else b
/-- The last run of every modem attached to it now shows that it was accepted. -/
def reportAccepted (k : RunKey) (b : Block) : Block :=
  { b with plc := vmap b.plc fun x => { x with lastRun := match x.lastRun with
      | some r => some (if r.key = k then { r with decision := 1 } else r)
      | none => none } }
/-- The decoding modem of a run that another modem answers awaits parameters again. -/
def releaseStarter (s w : Fin 16) (b : Block) : Block :=
  if s ≠ w ∧ (plcOf b s).slacState = 2 then updPlc s (fun x => { x with slacState := 1, heardParm := false, timerAt := now b }) b else b
/-- A run is over: its windows stay for a second, in which a later one may still overlap them. -/
def retireRun (r : SlacRun) (b : Block) : Block :=
  dropRun r.key (updPlcG (fun c => { c with
    past := (c.past ++ r.windows).filter fun w => decide ((now b).toNat < w.to_.toNat + tSec) }) b)
/-- The decision of a run takes effect. -/
def decideRun (r : SlacRun) (s : Fin 16) (b : Block) : Block :=
  let j := r.judge b s
  let w := j.2
  let rep := r.report b j.1 w
  let b := forAll (allNodes.filter fun p => r.heard.getLsbD p.val) (fun p b => updPlc p (fun x => { x with lastRun := some rep }) b) (retireRun r b)
  if j.1 = 1 then releaseStarter s w (acceptRun w r.key r.set rep b)
  else if j.1 = 2 then failRun s r.key 2 (silence r.heard none b)
  else if j.1 = 3 then
    let b := irq 211 (updPlc w (fun x => { x with ambiguous := satInc x.ambiguous, decision := 3 }) b)
    if r.set.validate then
      releaseStarter s w (updPlc w (fun x => { x with
        slacState := 6, run := some (r.key, r.set), timerAt := now b, edgeBase := allNodes.map fun p => (vehOf b p).toggles }) b)
    else releaseStarter s w (failAttempt w 3 b)
  else failRun s r.key 4 b
/-- With crosstalk-aware mode off a modem matched to another run ignores this one (R217). -/
def applyDecision (r : SlacRun) (s : Fin 16) (b : Block) : Block :=
  if !r.set.xtalkAware && ignoresRun b s r.key then retireRun r b else decideRun r s b
/-- SOUNDING_END (R221): every announced sound decoded, or the end of the capture window. -/
def soundingEnd (n : Fin 16) (mac : BitVec 48) (runId : U64) (b : Block) : Block :=
  match runFor b n mac runId with
  | none => b
  | some r => match r.starter with
    | none => b
    | some s => if r.announced ≤ r.decoded then applyDecision r s b else atInstant r.capEnd.toNat (applyDecision r s) b

/-- VALIDATION_WINDOW_END (R223): the toggles the vehicle announced, none when it declined. -/
def validationEnd (n : Fin 16) (announced : Option Nat) (b : Block) : Block :=
  let x := plcOf b n
  match x.run, x.lastRun with
  | some (k, set), some rep =>
    if x.slacState ≠ 6 then b
    else
      let seen := fun (p : Fin 16) => (vehOf b p).toggles - x.edgeBase.getD p.val 0
      if announced = some (seen n) ∧ (contestSet b n).all (fun p => seen p == 0) then reportAccepted k (acceptRun n k set rep b) else failAttempt n 3 b
  | _, _ => b

/-- CM_SLAC_MATCH_REQ (R222): answered only by the modem that answers the run. -/
def slacMatchReq (n : Fin 16) (mac : BitVec 48) (runId : U64) (b : Block) : Block :=
  let b := creekItem n 1 (runBytes mac runId) b
  let x := plcOf b n
  match x.run with
  | some (k, _) =>
    if modemWorks b n ∧ x.slacState = 3 ∧ k.mac = mac ∧ k.runId = runId then updPlc n (fun x => { x with slacState := 4, timerAt := now b }) b else b
  | none => b
/-- VEHICLE_JOINED (R222): the association is confirmed, NEGOTIATING. -/
def vehicleJoined (n : Fin 16) (b : Block) : Block :=
  let b := creekItem n 3 [1] b
  if modemWorks b n ∧ (plcOf b n).slacState = 4 ∧ phaseOf b n = .associating then
    let b := irq 208 (updPlc n (fun x => { x with slacState := 5, linkUp := true }) b)
    let b := { b with v2g := vupd b.v2g n fun v => { timeouts := v.timeouts, tlsFail := v.tlsFail, lastRequest := now b, inForce := b.v2gCfg } }
    enterPhase n .negotiating b
  else b
/-- SLAC_TIMER_EXPIRED (R222): t_init, t_match or t_join; t_sounds ends the sounding. -/
def slacTimerExpired (n : Fin 16) (b : Block) : Block :=
  let x := plcOf b n
  let s := match x.run with | some (_, s) => s | none => x.assoc
  let due := fun (secs : Nat) => afterTicks x.timerAt (secs * tSec) (failAttempt n 5) b
  if phaseOf b n ≠ .associating then b
  else if x.slacState = 1 ∧ !x.heardParm then due x.assoc.tInit.toNat
  else if x.slacState = 3 then due s.tMatch.toNat
  else if x.slacState = 4 then due s.tJoin.toNat
  else b
/-- SLAC_RESTART_END (R222): duty 50 again, a new attempt. -/
def slacRestartEnd (n : Fin 16) (b : Block) : Block :=
  let x := plcOf b n
  if x.slacState = 7 ∧ phaseOf b n = .associating then
    atInstant (leadBefore x.timerAt) (fun b =>
      dutyReview n (updVeh n (fun v => { v with restartUntil := none }) (updPlc n (fun x => { x with
        slacState := 1, attempt := x.attempt + 1, heardParm := false }) b))) b
  else b
/-! ### Blanking (R216) -/

/-- Samples after the blanker: the codes passed on, the samples of the running extension still to blank, and the blanked ones. -/
structure Blanked where
  codes : List (BitVec 12) := []
  left : Nat := 0
  blanked : Nat := 0
/-- One sample: one at or over the threshold is blanked and starts a new extension; one within an extension is blanked. -/
def blankStep (thr ext : Nat) (a : Blanked) (c : BitVec 12) : Blanked :=
  if thr ≤ c.toInt.natAbs then { codes := a.codes ++ [0], left := ext, blanked := a.blanked + 1 }
  else if 0 < a.left then { codes := a.codes ++ [0], left := a.left - 1, blanked := a.blanked + 1 }
  else { a with codes := a.codes ++ [c] }
/-- Consecutive receive samples of a modem, as codes after the receive gain (R213): the FFT window of one symbol, or samples between two
such windows. -/
structure ReceiveSpan where
  symbol : Bool
  codes : List (BitVec 12)
/-- The samples of a second as spans: before each FFT window those of its gap, after the last the tail. -/
def receiveSpans (gaps windows : List (List (BitVec 12))) (tail : List (BitVec 12)) : List ReceiveSpan :=
  ((gaps.zip windows).flatMap fun x => [⟨false, x.1⟩, ⟨true, x.2⟩]) ++ [⟨false, tail⟩]
/-- What a modem counts over receive spans: extension left, samples blanked, symbols received and erased. -/
structure RateCount where
  left : Nat := 0
  blanked : Nat := 0
  symbols : Nat := 0
  erased : Nat := 0
/-- One span: a symbol with more than blank_max blanked samples is erased. -/
def rateSpan (x : Modem) (a : RateCount) (s : ReceiveSpan) : RateCount :=
  let r := s.codes.foldl (blankStep x.blankThr.toNat x.blankExt.toNat) { left := a.left }
  { left := r.left, blanked := a.blanked + r.blanked, symbols := a.symbols + b2n s.symbol
    erased := a.erased + b2n (s.symbol && decide (x.blankMax.toNat < r.blanked)) }
/-- The second of modem `n` that ends now. `gain` is the receive gain that Creek has set, in steps of 2 dB (R213); an armed modem holds
its own (R219). -/
def rateEnd (n : Fin 16) (gain : Fin 16) (l : List ReceiveSpan) (b : Block) : Block :=
  let x := plcOf b n
  let r := l.foldl (rateSpan x) { left := x.blankLeft }
  let held := x.captures.any fun c => decide (c.1.toNat ≤ (now b).toNat ∧ (now b).toNat < c.2.toNat)
  onlyIf (decide (r.symbols < 100 * r.erased)) (irq 212) (updPlc n (fun x => { x with
    eraseCnt := satAdd x.eraseCnt r.erased, blankCnt := satAdd x.blankCnt r.blanked, blankLeft := r.left, rateAt := some (now b)
    rxGain := if held then x.rxGain else BitVec.ofNat 8 (2 * gain.val) }) b)
/-- ERASE_RATE_WINDOW (R216): a second of modem `n` ends; seconds do not overlap. -/
def eraseRateWindow (n : Fin 16) (gain : Fin 16) (l : List ReceiveSpan) (b : Block) : Block :=
  if !modemWorks b n then b
  else match (plcOf b n).rateAt with
    | some t => afterTicks t tSec (rateEnd n gain l) b
    | none => rateEnd n gain l b
/-- MODEM_FAULT (R233, R17): L1. -/
def modemFault (n : Fin 16) (b : Block) : Block :=
  if !(plcOf b n).running then b
  else
    let b := v2gClose n (irq 213 (updPlc n (fun x => { x with fault := true, running := false, linkUp := false }) b))
    if phaseOf b n = .idle then updPlc n (fun x => { x with fault := false, running := x.enable && b.rst.creek }) b
    else deviceFault (.node n) 1 b

/-! ### Registers (R231) -/

/-- The number whose bit `n` is a predicate of modem `n`. -/
def modemBits (b : Block) (f : Modem → Bool) : Nat := bitsNat (b.plc.toList.map f)
/-- PLC_SLAC_CFG. -/
def slacCfgWord (s : SlacSet) : U32 := reg32 [(0, s.attenMax.toNat), (8, s.margin.toNat), (16, s.minSounds.toNat), (20, s.maxAttempts.toNat)]
/-- PLC_SLAC_TIME. -/
def slacTimeWord (s : SlacSet) : U32 :=
  reg32 [(0, s.tInit.toNat), (6, s.tSounds.toNat), (12, s.tMatch.toNat), (17, s.tJoin.toNat), (22, s.tRestart.toNat)]
/-- PLC_BLANK_CFG(n). -/
def blankWord (x : Modem) : U32 := reg32 [(0, x.blankThr.toNat), (11, x.blankExt.toNat), (17, x.blankMax.toNat), (26, x.txLevel.toNat)]
/-- PLC_STAT(n). -/
def plcStatWord (x : Modem) : U32 :=
  reg32 [(0, x.slacState.toNat), (3, x.decision.toNat), (6, x.attempt.toNat), (9, b2n x.linkUp), (16, x.rxGain.toNat)]
/-- PLC_XTALK_CNT(n). -/
def xtalkWord (x : Modem) : U32 := reg32 [(0, x.rejected.toNat), (16, x.ambiguous.toNat)]
/-- PLC_ATTEN(n). -/
def attenWord (x : Modem) : U32 := reg32 [(0, x.attenMean.toNat), (8, x.attenMargin.toNat), (16, x.runnerUp.toNat)]
/-- The read value of word `a` of the PLC block. -/
def plcWord (b : Block) (a : Nat) : U32 :=
  let s := b.plcCfg.set
  if a = 0x680 then reg32 [(0, modemBits b (·.enable)), (16, b2n s.xtalkAware), (17, b2n s.validate)]
  else if a = 0x681 then reg32 [(0, modemBits b (·.running)), (16, modemBits b (·.fault))]
  else if a = 0x682 then slacCfgWord s
  else if a = 0x683 then slacTimeWord s
  else if h : 0x690 ≤ a ∧ a ≤ 0x69F then blankWord (plcOf b ⟨a - 0x690, by omega⟩)
  else if h : 0x6A0 ≤ a ∧ a ≤ 0x6AF then plcStatWord (plcOf b ⟨a - 0x6A0, by omega⟩)
  else if h : 0x6B0 ≤ a ∧ a ≤ 0x6BF then (plcOf b ⟨a - 0x6B0, by omega⟩).blankCnt
  else if h : 0x6C0 ≤ a ∧ a ≤ 0x6CF then (plcOf b ⟨a - 0x6C0, by omega⟩).eraseCnt
  else if h : 0x6D0 ≤ a ∧ a ≤ 0x6DF then xtalkWord (plcOf b ⟨a - 0x6D0, by omega⟩)
  else if h : 0x6E0 ≤ a ∧ a ≤ 0x6EF then attenWord (plcOf b ⟨a - 0x6E0, by omega⟩)
  else if a = 0x6F0 then BitVec.ofNat 32 b.plcCfg.macBase.toNat
  else if a = 0x6F1 then BitVec.ofNat 32 (b.plcCfg.macBase.toNat / 2 ^ 32)
  else 0

/-! ### Commands (R234) -/

/-- PLC_SET_MAC. -/
def plcSetMac (m : Fin 4) (b : Block) : Block :=
  let l := rBytes b m 0 6
  checked m [(0x0702, !(byteAt l 0).getLsbD 0 && decide ((byteAt l 5).toNat ≤ 0xE0) && modemBits b (·.enable) == 0)] (fun b =>
    ok m [] (saveSettings (updPlcG (fun c => { c with macBase := BitVec.ofNat 48 (beNat l) }) b))) b
/-- Disable modem `n`: the session of a connector past IDLE stops with OPERATOR first. -/
def modemDisable (n : Fin 16) (b : Block) : Block :=
  v2gClose n (updPlc n (fun x => { x with enable := false, running := false, linkUp := false })
    (onlyIf (phaseOf b n != .idle) (stopSession n .operator) b))
/-- PLC_ENABLE. -/
def plcEnable (m : Fin 4) (b : Block) : Block :=
  let mask := rN b m 0 2
  let on := rBit b m 2 0
  checked m [(0x0703, !on || b.plcCfg.macBase != 0)] (fun b =>
    let b := forAll (nodesOf mask) (fun n b =>
      if on then updPlc n (fun x => { x with enable := true, running := !x.fault && b.rst.creek }) b else modemDisable n b) b
    ok m (leBytes 2 (modemBits b (·.running))) (saveSettings b)) b
/-- The settings in the two words of PLC_SET_SLAC. -/
def slacSetOf (c t : Nat) (aware validate : Bool) : SlacSet :=
  { xtalkAware := aware, validate := validate, attenMax := BitVec.ofNat 8 c, margin := BitVec.ofNat 8 (c / 256)
    minSounds := BitVec.ofNat 4 (c / 65536), maxAttempts := BitVec.ofNat 3 (c / 2 ^ 20)
    tInit := BitVec.ofNat 6 t, tSounds := BitVec.ofNat 6 (t / 64), tMatch := BitVec.ofNat 5 (t / 2 ^ 12)
    tJoin := BitVec.ofNat 5 (t / 2 ^ 17), tRestart := BitVec.ofNat 10 (t / 2 ^ 22) }
/-- They lie within the ranges of R231. -/
def SlacSet.ok (s : SlacSet) : Bool :=
  decide (2 ≤ s.margin.toNat ∧ s.margin.toNat ≤ 40 ∧ 3 ≤ s.minSounds.toNat ∧ 1 ≤ s.maxAttempts.toNat ∧ 20 ≤ s.tInit.toNat ∧
    s.tInit.toNat ≤ 50 ∧ 10 ≤ s.tSounds.toNat ∧ s.tSounds.toNat ≤ 50 ∧ 1 ≤ s.tMatch.toNat ∧ s.tMatch.toNat ≤ 20 ∧
    1 ≤ s.tJoin.toNat ∧ s.tJoin.toNat ≤ 20 ∧ 1 ≤ s.tRestart.toNat ∧ s.tRestart.toNat ≤ 40)
/-- PLC_SET_SLAC. -/
def plcSetSlac (m : Fin 4) (b : Block) : Block :=
  let s := slacSetOf (rN b m 0 4) (rN b m 4 4) (rBit b m 8 0) (rBit b m 8 1)
  checked m [(0x0704, s.ok)] (fun b => cmdLog m 0 (ok m [] (saveSettings (updPlcG (fun c => { c with set := s }) b)))) b
/-- PLC_SET_BLANK. -/
def plcSetBlank (m : Fin 4) (b : Block) : Block :=
  let w := rN b m 4 4
  let thr := fieldOf w 0 11
  let most := fieldOf w 17 9
  let tx := fieldOf w 26 5
  checked m [(0x0705, decide (256 ≤ thr ∧ 1 ≤ most ∧ tx ≤ 20))] (fun b =>
    cmdLog m 0 (ok m [] (saveSettings (forAll (nodesOf (rN b m 0 2)) (fun n b => updPlc n (fun x => { x with
      blankThr := BitVec.ofNat 11 thr, blankExt := BitVec.ofNat 6 (w / 2 ^ 11), blankMax := BitVec.ofNat 9 most, txLevel := BitVec.ofNat 5 tx }) b) b)))) b
/-- PLC_GET_STATUS. -/
def plcGetStatus (m : Fin 4) (b : Block) : Block :=
  let x := plcOf b (reqNode b m)
  checked m [nodeCheck 0x0701 b m] (ok m (b32s [plcStatWord x, x.blankCnt, x.eraseCnt, xtalkWord x, attenWord x])) b
/-- PLC_GET_RUN. -/
def plcGetRun (m : Fin 4) (b : Block) : Block :=
  checked m [nodeCheck 0x0701 b m] (fun b =>
    match (plcOf b (reqNode b m)).lastRun with
    | none => refuse m 0x0706 b
    | some r =>
      ok m (beBytes 6 r.key.mac.toNat ++ [0, 0] ++ beBytes 8 r.key.runId.toNat ++ b64 r.decidedAt ++
        [r.decision.setWidth 8, BitVec.ofNat 8 r.winner.val] ++ padTo 16 r.atten ++ padTo 16 r.windows) b) b
/-- PLC_GET_PROFILE. -/
def plcGetProfile (m : Fin 4) (b : Block) : Block :=
  let p := rN b m 1 1
  checked m [nodeCheck 0x0701 b m, (0x0701, decide (p < 16))] (fun b =>
    match (plcOf b (reqNode b m)).lastRun with
    | none => refuse m 0x0706 b
    | some r => let l := r.profiles.getD p []; ok m (if l = [] then List.replicate 58 0xFF else padTo 58 l) b) b
/-- PLC_CLEAR_COUNTS. -/
def plcClearCounts (m : Fin 4) (b : Block) : Block :=
  ok m [] (forAll (nodesOf (rN b m 0 2)) (fun n b => updPlc n (fun x => { x with blankCnt := 0, eraseCnt := 0, rejected := 0, ambiguous := 0 }) b) b)

/-- CM_SLAC_PARM_REQ (R217). -/
def execCmSlacParmReq (n : Fin 16) (mac : BitVec 48) (runId : U64) (s : State) : Result := s.input (slacParmReq n mac runId)
/-- CM_START_ATTEN_CHAR_IND (R218). -/
def execCmStartAttenCharInd (n : Fin 16) (mac : BitVec 48) (runId : U64) (sounds : U8) (s : State) : Result :=
  s.input (startAttenChar n mac runId sounds)
/-- CM_MNBC_SOUND_IND (R219). -/
def execCmMnbcSoundInd (n : Fin 16) (x : SoundReading) (s : State) : Result := s.input (soundInd n x)
/-- SOUNDING_END (R221). -/
def execSoundingEnd (n : Fin 16) (mac : BitVec 48) (runId : U64) (s : State) : Result := s.run (soundingEnd n mac runId)
/-- CM_SLAC_MATCH_REQ (R222). -/
def execCmSlacMatchReq (n : Fin 16) (mac : BitVec 48) (runId : U64) (s : State) : Result := s.input (slacMatchReq n mac runId)
/-- VEHICLE_JOINED (R222). -/
def execVehicleJoined (n : Fin 16) (s : State) : Result := s.input (vehicleJoined n)
/-- SLAC_TIMER_EXPIRED (R222). -/
def execSlacTimerExpired (n : Fin 16) (s : State) : Result := s.run (slacTimerExpired n)
/-- SLAC_RESTART_END (R222). -/
def execSlacRestartEnd (n : Fin 16) (s : State) : Result := s.run (slacRestartEnd n)
/-- VALIDATION_WINDOW_END (R223). -/
def execValidationWindowEnd (n : Fin 16) (announced : Option Nat) (s : State) : Result := s.input (validationEnd n announced)
/-- ERASE_RATE_WINDOW (R216). -/
def execEraseRateWindow (n : Fin 16) (gain : Fin 16) (gaps windows : List (List (BitVec 12))) (tail : List (BitVec 12)) (s : State) : Result :=
  s.input (eraseRateWindow n gain (receiveSpans gaps windows tail))
/-- MODEM_FAULT (R233). -/
def execModemFault (n : Fin 16) (s : State) : Result := s.run (modemFault n)
/-- PLC_SET_MAC (R215). -/
def execPlcSetMac (m : Fin 4) (s : State) : Result := s.run (command m 0x0701 .sedge (plcSetMac m))
/-- PLC_ENABLE (R234). -/
def execPlcEnable (m : Fin 4) (s : State) : Result := s.run (command m 0x0702 .sedge (plcEnable m))
/-- PLC_SET_SLAC (R234). -/
def execPlcSetSlac (m : Fin 4) (s : State) : Result := s.run (command m 0x0703 .sedge (plcSetSlac m))
/-- PLC_SET_BLANK (R216). -/
def execPlcSetBlank (m : Fin 4) (s : State) : Result := s.run (command m 0x0704 .sedge (plcSetBlank m))
/-- PLC_GET_STATUS (R234). -/
def execPlcGetStatus (m : Fin 4) (s : State) : Result := s.run (command m 0x0705 .sedge (plcGetStatus m))
/-- PLC_GET_RUN (R234). -/
def execPlcGetRun (m : Fin 4) (s : State) : Result := s.run (command m 0x0706 .sedge (plcGetRun m))
/-- PLC_GET_PROFILE (R234). -/
def execPlcGetProfile (m : Fin 4) (s : State) : Result := s.run (command m 0x0707 .sedge (plcGetProfile m))
/-- PLC_CLEAR_COUNTS (R234). -/
def execPlcClearCounts (m : Fin 4) (s : State) : Result := s.run (command m 0x0708 .sedge (plcClearCounts m))

end Sys2Proof.Machine
end

