-- ==== Sys2Proof/Machine/Authorise.lean ====
section
/-! DEFINITION. Authorisation decisions and the step from AUTHORISING to ADMISSION (14_billing.md R368, R379, R382;
01_architecture.md R19, R21, R22). -/

namespace Sys2Proof.Machine

/-- The authorisation record of connector `n`. -/
def authOf (b : Block) (n : Fin 16) : AuthHold := vget b.auth n
/-- Change it. -/
def updAuth (n : Fin 16) (f : AuthHold → AuthHold) (b : Block) : Block := { b with auth := vupd b.auth n f }

/-- The session on connector `n` enters ADMISSION (R21 step 5): its number and registers. -/
def admitSession (n : Fin 16) (b : Block) : Block :=
  openItems n (enterPhase n .admission (updSess n (fun s => { s with authorised := true }) b))

/-- Use the decision recorded for connector `n`, whose session is in AUTHORISING: an acceptance leads to ADMISSION, with a
wallet's reservation (R368, R372); a rejection ends the session. A reservation that fails leaves the session waiting without
a decision. The status, 0 for success, and the credit reserved. -/
def useDecision (n : Fin 16) (b : Block) : Block × Nat × U64 :=
  let a := authOf b n
  if !a.accept then (stopSession n .operator (updAuth n (fun a => { a with state := 3 }) b), 0, 0)
  else
    let b' := admitSession n (updAuth n (fun a => { a with state := 2 }) b)
    if a.mode ≠ 3 then (b', 0, 0)
    else
      let r := reserve n a.wallet.toNat a.requested b'
      if r.2.1 = 0 then r else (updAuth n (fun a => { a with state := 0 }) (reserve n a.wallet.toNat a.requested b).1, r.2)

/-- A session reaches AUTHORISING: a held decision completes the step at once (R22). -/
def enterAuthorising (n : Fin 16) (b : Block) : Block :=
  let b := enterPhase n .authorising b
  if (authOf b n).state = 1 then (useDecision n b).1 else b

/-- AUTH_HOLD_EXPIRED (R22, R368): a held decision is discarded and logged. -/
def authHoldExpired (n : Fin 16) (b : Block) : Block :=
  let a := authOf b n
  if a.state = 1 then atInstant a.until_.toNat (fun b => irqLog wCarr 422 n.val (updAuth n (fun _ => {}) b)) b else b

/-- The decision in the request of SLT_AUTHORISE. -/
def requestDecision (b : Block) (m : Fin 4) : AuthHold :=
  { mode := BitVec.ofNat 3 (rN b m 2 1), wallet := BitVec.ofNat 12 (rN b m 4 2), requested := r64 b m 8, token := rBytes b m 16 16
    accept := rN b m 1 1 == 1 }
/-- The answer of SLT_AUTHORISE: the state of SLT_AUTH and the reserved credit. -/
def authAnswer (b : Block) (n : Fin 16) (credit : U64) : List U8 := (authOf b n).state.setWidth 8 :: zeros 7 ++ b64 credit

/-- SLT_AUTHORISE (R368, R382): in AUTHORISING the decision acts at once; before it, it is held. -/
def sltAuthorise (m : Fin 4) (b : Block) : Block :=
  let n := reqNode b m
  let verdict := rN b m 1 1
  let mode := rN b m 2 1
  let d := requestDecision b m
  checked m [nodeCheck 0x0C05 b m, (0x0C08, decide (1 ≤ verdict ∧ verdict ≤ 2 ∧ 1 ≤ mode ∧ mode ≤ 4)),
      (0x0D01, mode != 3 || decide (rN b m 4 2 ≤ 4095))] (fun b =>
    if phaseOf b n = .authorising then
      let r := useDecision n (updAuth n (fun _ => d) b)
      if r.2.1 = 0 then ok m (authAnswer r.1 n r.2.2) r.1 else refuse m r.2.1 r.1
    else
      let held : AuthHold := { d with state := 1, until_ := now b + BitVec.ofNat 64 (b.slt.hold.toNat * tSec) }
      let b := updAuth n (fun a => if b.slt.hold = 0 then a else held) b
      ok m (authAnswer b n 0) b) b

/-- SLT_AUTH(n) (R379). -/
def authWord (b : Block) (n : Fin 16) : U32 :=
  let a := authOf b n
  let left := if a.state = 1 then (a.until_.toNat - (now b).toNat + tSec - 1) / tSec else 0
  reg32 [(0, a.state.toNat), (2, a.mode.toNat), (8, left), (20, a.wallet.toNat)]

/-- AUTH_HOLD_EXPIRED (R368). -/
def execAuthHoldExpired (n : Fin 16) (s : State) : Result := s.run (authHoldExpired n)
/-- SLT_AUTHORISE (R368). -/
def execSltAuthorise (m : Fin 4) (s : State) : Result := s.run (command m 0x0C04 .carr (sltAuthorise m))

end Sys2Proof.Machine
end

