-- ==== Sys2Proof/Machine/SettingsOps.lean ====
section
/-! DEFINITION. The settings in force and their return at boot stage 6 (13_peat_store.md R313, 21_register_map.md R558). -/

namespace Sys2Proof.Machine

/-- What SLU_SET_TUNING set last, in effect or waiting for its H (06_sluice.md R163). -/
def tuneOf (s : Sluice) : SluTune :=
  match s.pendingTune with
  | some (x, _) => x
  | none => { reasonHold := s.reasonHold, zcMod := s.zcMod, zcNodeAbs := s.zcNodeAbs, zcNodeRel := s.zcNodeRel, outcomeQueue := s.outcomeQueue }
/-- Sluice's settings as they are kept. -/
def sluSetOf (s : Sluice) : SluSet :=
  let x := tuneOf s
  { siteImp := s.siteImp, siteExp := s.siteExp, eta := s.eta, reasonHold := x.reasonHold, moveCost := s.moveCost, moveMargin := s.moveMargin
    zcMod := x.zcMod, zcNodeAbs := x.zcNodeAbs, zcNodeRel := x.zcNodeRel, holdMoves := s.holdMoves, strictFifo := s.strictFifo
    outcomeQueue := x.outcomeQueue }
/-- The settings in force of connector `n`. -/
def connSetOf (b : Block) (n : Fin 16) : ConnSet :=
  let s := vget b.sess n
  let v := vget b.veh n
  let p := vget b.plc n
  let l := vget b.lsw.ls n
  { weight := s.weight, floor := s.floor, refuse := s.refuse, maxDelay := s.maxDelay, hostCap := s.hostCap
    available := v.available, ventOk := v.ventOk, lockCh := v.lockCh, unlockCh := v.unlockCh
    plcEnable := p.enable, blankThr := p.blankThr, blankExt := p.blankExt, blankMax := p.blankMax, txLevel := p.txLevel
    force := (vget b.imd n).force, ocThr := vget b.mlk.ocThr n
    iPull := l.iPull, iPin := l.iPin, iHold := l.iHold, iDrop := l.iDrop, tPull := l.tPull, supply := l.supply, rCoil := l.rCoil }
/-- The settings in force of high-side channel `c`. -/
def hsSetOf (b : Block) (c : Fin 40) : HsSet :=
  let x := vget b.lsw.hs c
  { mode := x.mode, curve := x.curve, slew := x.slew, otLatchEn := x.otLatchEn, openEn := x.openEn, shedPrio := x.shedPrio
    limp := vget b.lsw.limpMap c }
/-- The settings in force of a panel port. -/
def panelSetOf (p : Panel) : PanelSet :=
  { enable := p.enable, dither := p.dither, passIrq := p.passIrq, height := p.height, sck := p.sck, connector := p.connector }
/-- The settings in force of a reader. -/
def readerSetOf (r : Reader) : ReaderSet :=
  { enable := r.enable, techs := r.techs, maxRate := r.maxRate, txLevel := r.txLevel, fieldGroup := r.fieldGroup, connector := r.connector
    lpcdThr := r.lpcdThr, queue := r.queue }
/-- A queue as it is set, without contents and counts. -/
def queueSetOf (d : Queue) : Queue :=
  { enabled := d.enabled, dropOldest := d.dropOldest, inbound := d.inbound, consumer := d.consumer, limit := d.limit, group := d.group }
/-- All settings in force. -/
def settingsOf (b : Block) : Settings :=
  { slu := sluSetOf b.slu, conns := vgen 16 (connSetOf b), lanes := vmap b.mlk.lanes fun l => (l.enable, l.enrolled), vetoMask := b.mlk.vetoMask
    veh := b.vehCfg, slac := b.plcCfg.set, macBase := b.plcCfg.macBase, v2g := { b.v2gCfg with chain := [], keySlot := none }
    imdPeriod := (match b.imdG.pendingPeriod with | some (p, _) => p | none => b.imdG.period), rExt := b.imdG.rExt, cMod := b.imdG.cMod
    cConn := b.imdG.cConn, warnThr := b.imdG.warnThr, faultThr := b.imdG.faultThr
    rcm := vmap b.rcm fun r => (r.tripRms, r.warnRms, r.tripDc)
    pairs := vmap b.saf.pairs fun p => (p.function, p.nodes), tTrip := b.safX.tTrip, ovMargin := b.safX.ovMargin, tDrop := b.safX.tDrop
    safSet := b.settings.safSet || b.saf.cfgOk
    hs := vgen 40 (hsSetOf b), limpValid := b.lsw.limpValid, cwyEnable := b.cwy.enable, ackTimeout := b.cwy.ackTimeout
    reservations := vmap b.cwy.groups fun g => g.reservation
    queues := (b.qmg.queues.filter fun e => decide (2048 ≤ e.1)).map fun e => (e.1, queueSetOf e.2)
    lowWater := b.qmg.lowWater, panels := vmap b.pnl panelSetOf, readers := vmap b.nfc readerSetOf, opQueue := b.btn.opQueue
    trial := b.upd.trial, outQueue := b.upd.outQueue, inQueue := b.upd.inQueue, waitLimit := b.arb.waitLimit, vinMon := b.pf.vinMon
    recArmed := b.rpl.recArmed, traceQueue := b.rpl.armQueue }

/-- The stored settings of Sluice and the sessions return. -/
def applySlu (x : Settings) (b : Block) : Block :=
  let s := x.slu
  { b with
    slu := { b.slu with siteImp := s.siteImp, siteExp := s.siteExp, eta := s.eta, reasonHold := s.reasonHold, moveCost := s.moveCost
                        moveMargin := s.moveMargin, zcMod := s.zcMod, zcNodeAbs := s.zcNodeAbs, zcNodeRel := s.zcNodeRel
                        holdMoves := s.holdMoves, strictFifo := s.strictFifo, outcomeQueue := s.outcomeQueue }
    sess := vmapIdx b.sess fun n y =>
      let c := vget x.conns n
      { y with weight := c.weight, floor := c.floor, refuse := c.refuse, maxDelay := c.maxDelay, hostCap := c.hostCap }
    mlk := { b.mlk with
      vetoMask := x.vetoMask, ocThr := vmap x.conns fun c => c.ocThr
      lanes := vmapIdx b.mlk.lanes fun l y => { y with enable := (vget x.lanes l).1, running := (vget x.lanes l).1 && !y.fault, enrolled := (vget x.lanes l).2 } } }
/-- Those of the connectors, modems and V2G stacks. -/
def applyVeh (x : Settings) (b : Block) : Block :=
  { b with
    veh := vmapIdx b.veh fun n y =>
      let c := vget x.conns n
      { y with available := c.available, ventOk := c.ventOk, lockCh := c.lockCh, unlockCh := c.unlockCh }
    vehCfg := { x.veh with ppOld := x.veh.ppClasses, ppFrom := 0, tStartOld := x.veh.tStart, tEndOld := x.veh.tEnd, derateFrom := 0 }
    plc := vmapIdx b.plc fun n y =>
      let c := vget x.conns n
      { y with enable := c.plcEnable, running := c.plcEnable && b.rst.creek && !y.fault, blankThr := c.blankThr, blankExt := c.blankExt
               blankMax := c.blankMax, txLevel := c.txLevel }
    plcCfg := { b.plcCfg with set := x.slac, macBase := x.macBase }
    v2gCfg := { x.v2g with chain := b.v2gCfg.chain, keySlot := b.v2gCfg.keySlot } }
/-- Those of the insulation monitor, residual current and the switches. -/
def applyProtect (x : Settings) (b : Block) : Block :=
  { b with
    imd := vmapIdx b.imd fun n y => { y with force := (vget x.conns n).force }
    imdG := { b.imdG with period := x.imdPeriod, rExt := x.rExt, cMod := x.cMod, cConn := x.cConn, warnThr := x.warnThr, faultThr := x.faultThr }
    rcm := vmapIdx b.rcm fun f y => let r := vget x.rcm f; { y with tripRms := r.1, warnRms := r.2.1, tripDc := r.2.2 }
    lsw := { b.lsw with
      hs := vmapIdx b.lsw.hs fun c y =>
        let h := vget x.hs c
        { y with mode := h.mode, curve := h.curve, slew := h.slew, otLatchEn := h.otLatchEn, openEn := h.openEn, shedPrio := h.shedPrio }
      ls := vmapIdx b.lsw.ls fun n y =>
        let c := vget x.conns n
        { y with iPull := c.iPull, iPin := c.iPin, iHold := c.iHold, iDrop := c.iDrop, tPull := c.tPull, supply := c.supply, rCoil := c.rCoil } } }
/-- The safety configuration returns (R286): verified in both channels at boot stage 3. -/
def applySafety (x : Settings) (b : Block) : Block :=
  { b with
    saf := { b.saf with pairs := vmapIdx b.saf.pairs fun k p => { p with function := (vget x.pairs k).1, nodes := (vget x.pairs k).2 } }
    safX := { b.safX with tTrip := x.tTrip, ovMargin := x.ovMargin, tDrop := x.tDrop } }
/-- Those of Causeway, the queues, panels, readers, logs, update and store. -/
def applyPort (x : Settings) (b : Block) : Block :=
  { b with
    cwy := { b.cwy with enable := x.cwyEnable, ackTimeout := x.ackTimeout
                        groups := vmapIdx b.cwy.groups fun g y => { y with reservation := vget x.reservations g } }
    qmg := { b.qmg with
      lowWater := x.lowWater
      queues := x.queues.foldl (fun qs e =>
        let d := sget {} qs e.1
        sput {} qs e.1 { e.2 with bufs := d.bufs, nextSeq := d.nextSeq, seqSeen := d.seqSeen, lost := d.lost, drops := d.drops, refused := d.refused }) b.qmg.queues }
    pnl := vmapIdx b.pnl fun p y =>
      let c := vget x.panels p
      { y with enable := c.enable, dither := c.dither, passIrq := c.passIrq, height := c.height, sck := c.sck, connector := c.connector }
    nfc := vmapIdx b.nfc fun r y =>
      let c := vget x.readers r
      { y with enable := c.enable, techs := c.techs, maxRate := c.maxRate, txLevel := c.txLevel, fieldGroup := c.fieldGroup
               connector := c.connector, lpcdThr := c.lpcdThr, queue := c.queue }
    btn := { b.btn with opQueue := x.opQueue }
    upd := { b.upd with trial := x.trial, outQueue := x.outQueue, inQueue := x.inQueue }
    arb := { b.arb with waitLimit := x.waitLimit }
    pf := { b.pf with vinMon := x.vinMon }
    rpl := { b.rpl with recArmed := x.recArmed, armQueue := x.traceQueue, state := if x.recArmed && b.rpl.state == 0 then 1 else b.rpl.state } }
/-- The settings in force are now those of the area in use; they are the stored settings. -/
def noteSettings (b : Block) : Block :=
  match b.newSettings with
  | some _ => { b with newSettings := some (settingsOf b) }
  | none => { b with settings := settingsOf b }

/-! ### The legal configuration and the update record -/

/-- The configuration of a channel that is to be kept: one that waits for its instant counts as set. -/
def chanSetOf (x : Chan) : ChanCfg :=
  let g := match x.pendingCfg with | some (g, _) => g | none => x.cfg
  { g with raw := false }
/-- The settings of a pair that are to be kept. -/
def pairSetOf (p : Pair) : U32 × U32 × U32 :=
  let u := match p.pendingUref with | some (u, _) => u | none => p.uRef
  match p.pendingNoload with
  | some (sc, nl, _) => (u, sc, nl)
  | none => (u, p.startCur, p.nlPower)
/-- The supply quality settings of a feeder. -/
def pqSetOf (f : PqFeeder) : PqSet :=
  match f.pending with
  | some (x, _) => x
  | none => { enable := f.enable, f60 := f.f60, queue := f.queue, sag := f.sag, swell := f.swell, interruption := f.interruption, hyst := f.hyst }
/-- The legal configuration in force (R105, R356, R380). -/
def legalSetOf (b : Block) : LegalSet :=
  { chans := vmap b.met.chans chanSetOf, tables := vmap b.met.chans fun c => c.active, pairs := vmap b.acc.pairs pairSetOf
    pq := vmap b.pq.feeders pqSetOf, calActive := b.slt.calActive, calPassive := b.slt.calPassive, interval := b.slt.interval
    pendingInterval := b.slt.pendingInterval, clockLimit := b.slt.clockLimit, readingQueue := b.slt.readingQueue, hold := b.slt.hold
    tamper := b.slt.tamper, keySlot := b.bri.keySlot, tStop := b.bri.tStop, minRes := b.bri.minRes }
/-- The update record as it is to be written (R504). -/
def updRecordOf (b : Block) : UpdRecord :=
  let u := b.upd
  { slots := vmap u.images fun i => (i.stateA, i.stateB, i.runB), manifests := vmap u.images fun i => (i.manA, i.manB)
    checks := vmap u.images fun i => (i.checkA, i.checkB)
    trialLeft := u.trialLeft, activating := u.activating }
/-- The legal configuration returns (R105, R558): Saltern's and Brine's part at boot stage 1. -/
def applyBilling (x : LegalSet) (b : Block) : Block :=
  { b with
    slt := { b.slt with calActive := x.calActive, calPassive := x.calPassive, interval := x.interval, pendingInterval := x.pendingInterval
                        clockLimit := x.clockLimit, readingQueue := x.readingQueue, hold := x.hold, tamper := x.tamper }
    bri := { b.bri with keySlot := x.keySlot, tStop := x.tStop, minRes := x.minRes } }
/-- Metrology's part, restored before metrology starts (R92, R105). -/
def applyMetrology (x : LegalSet) (b : Block) : Block :=
  { b with
    met := { b.met with chans := vmapIdx b.met.chans fun c y => { y with cfg := vget x.chans c, active := vget x.tables c } }
    acc := { b.acc with pairs := vmapIdx b.acc.pairs fun p y =>
      let s := vget x.pairs p
      { y with uRef := s.1, startCur := s.2.1, nlPower := s.2.2 } }
    pq := { b.pq with feeders := vmapIdx b.pq.feeders fun f y =>
      let s := vget x.pq f
      { y with enable := s.enable, f60 := s.f60, queue := s.queue, sag := s.sag, swell := s.swell, interruption := s.interruption, hyst := s.hyst } } }

end Sys2Proof.Machine
end

