-- ==== Sys2Proof/Machine/V2g.lean ====
section
/-! DEFINITION. The V2G stacks: what a request of the vehicle does to the session, what the response carries, registers and
commands (09_plc_association.md R225 to R230, R232, R235). -/

namespace Sys2Proof.Machine

/-! ### Responses (R229) -/

/-- The status that an end reason gives a response. The table of R229 names no status for PILOT_LOSS and COMM_TIMEOUT; log
entry 23. -/
def stopStatus (r : EndReason) : V2gStatus :=
  match r with
  | .evStop | .userStop | .operator | .creditExhausted => .stop
  | .safety | .deviceFault | .powerFail => .emergency
  | .refused => .failed
  | .pilotLoss | .commTimeout => if Config.unstatedStopEmergency r.code.toNat then .emergency else .stop
/-- Why the session on connector `n` stops or has stopped. -/
def stopReason (b : Block) (n : Fin 16) : Option EndReason :=
  let s := sessOf b n
  match s.endReason with | some r => some r | none => s.stopCause
/-- The limits of the Sluice outcome in force: maximum power, 100 W, and maximum current, 0.01 A. -/
def servedLimits (b : Block) (n : Fin 16) : Nat × Nat := ((sessOf b n).rep.served.natAbs, (sessOf b n).nodeI)
/-- The isolation status of the node (R246). -/
def isolationOf (b : Block) (n : Fin 16) : Isolation :=
  let x := imdOf b n
  if x.fault then .fault else if x.warn then .warning else if x.baselining || x.stale then .invalid else .valid
/-- The session's direction is export, in DC_BPT (R229). -/
def discharges (b : Block) (n : Fin 16) : Bool := (v2gOf b n).protocol == 4 && decide ((sessOf b n).rep.served < 0)
/-- A response that carries the outcome of the current frame and the limits, with status `st` when nothing stops the session. In DC_BPT
P_s and I_s are the discharge limits while the session exports. -/
def outcomeAnswer (n : Fin 16) (st : V2gStatus) (volts : Bool) (b : Block) : V2gAnswer :=
  let v := if volts then some (chanOf b (voltChan n)).value else none
  let a : V2gAnswer := { status := st, maxV := min 10000 (v2gOf b n).maxV.toNat, nodeV := v }
  match stopReason b n with
  | some r => { a with status := stopStatus r, limits := some (0, 0) }
  | none =>
    if (sessOf b n).rep.outcome ≠ .served then a
    else if discharges b n then { a with limits := some (0, 0), discharge := some (servedLimits b n) }
    else { a with limits := some (servedLimits b n) }
/-- Send a response; it carries the node's isolation status (R246). -/
def sendAnswer (n : Fin 16) (a : V2gAnswer) (b : Block) : Block :=
  updV2g n (fun v => { v with answer := { a with isolation := isolationOf b n }, ongoing := a.status == .ongoing }) b

/-! ### Ends of the V2G session -/

/-- Send a response with the outcome; after a Refused one the stack closes the session (R229). -/
def sendOutcome (n : Fin 16) (st : V2gStatus) (volts : Bool) (b : Block) : Block :=
  let b := sendAnswer n (outcomeAnswer n st volts b) b
  onlyIf (stopReason b n == some .refused) (v2gClose n) b
/-- The stack serves connector `n` in a phase from NEGOTIATING to CHARGING. -/
def v2gPhase (p : Phase) : Bool := p.isOpen && !(p == .connected || p == .associating || p == .stopping)
/-- The stack's session is in progress in a phase before ENDED: up to CHARGING, and in STOPPING until SessionStop (R228). -/
def v2gLive (b : Block) (n : Fin 16) : Bool := v2gPhase (phaseOf b n) || (phaseOf b n == .stopping && !(v2gOf b n).stopped)
/-- The session ends under R228: COMM_TIMEOUT and source 215. -/
def v2gTimeout (n : Fin 16) (b : Block) : Block :=
  v2gClose n (stopSession n .commTimeout (irq 215 (updV2g n (fun v => { v with timeouts := satAdd v.timeouts 1 }) b)))
/-- A TLS handshake fails (R226). -/
def tlsFailure (n : Fin 16) (b : Block) : Block :=
  v2gClose n (stopSession n .commTimeout (irq 216 (updV2g n (fun v => { v with tlsFail := satAdd v.tlsFail 1, tlsWait := none }) b)))

/-! ### Requests (R225 to R227) -/

/-- Protocol `p` of VEH_V2G_STAT is enabled. -/
def protocolAllowed (c : V2gCfg) (p : Nat) : Bool := decide (1 ≤ p ∧ p ≤ 4) && c.allowed.getLsbD (p - 1)
/-- The enabled offer of highest priority (1 is the highest). -/
def chooseProtocol (c : V2gCfg) (offers : List (Nat × Nat)) : Option (Nat × Nat) :=
  (offers.filter fun o => protocolAllowed c o.1).foldl (fun best o => match best with
    | none => some o
    | some x => if o.2 < x.2 then some o else some x) none
/-- The protocol in use has the TLS it requires (R225): none for DIN SPEC 70121, TLS 1.2 or none for ISO 15118-2 and TLS 1.2 for a
contract under it, TLS 1.3 for ISO 15118-20. -/
def tlsMeets (v : V2gSession) (contract : Bool) : Bool :=
  if v.protocol.toNat = 2 then (if contract then v.tls == 1 else v.tls == 0 || v.tls == 1)
  else if 3 ≤ v.protocol.toNat then v.tls == 2 else v.tls == 0
/-- A TLS version with a cipher suite that a protocol of the table uses (R225). -/
def tlsOffered (c : V2gCfg) (version : BitVec 2) (suite : TlsSuite) : Bool :=
  if version = 1 then protocolAllowed c 2 && (suite == .ecdheEcdsaAes128CbcSha256 || suite == .ecdhEcdsaAes128CbcSha256)
  else version == 2 && suite == .iso20 && (protocolAllowed c 3 || protocolAllowed c 4)
/-- Answer without any other effect. -/
def v2gFail (n : Fin 16) (b : Block) : Block := sendAnswer n { status := .failed } b
/-- Answer with the normal status. -/
def v2gOk (n : Fin 16) (b : Block) : Block := sendAnswer n {} b
/-- The session is set up and in NEGOTIATING. -/
def v2gNegotiating (b : Block) (n : Fin 16) : Bool :=
  phaseOf b n == .negotiating && (v2gOf b n).isOpen

/-- SupportedAppProtocol (R226). -/
def reqAppProtocol (n : Fin 16) (offers : List (Nat × Nat)) (dynamic : Bool) (b : Block) : Block :=
  let v := v2gOf b n
  if phaseOf b n ≠ .negotiating then v2gFail n b
  else
    match chooseProtocol v.inForce offers with
    | none => v2gFail n b
    | some (p, _) =>
      let b := updV2g n (fun v => { v with protocol := BitVec.ofNat 3 p, dynamic := dynamic && decide (3 ≤ p) }) b
      if 3 ≤ p ∧ v.inForce.chain = [] then tlsFailure n b else v2gOk n b
/-- The handshake of connector `n` has ended, well or not. -/
def tlsEnds (n : Fin 16) (version : BitVec 2) (good : Bool) (b : Block) : Block :=
  if good then updV2g n (fun v => { v with tls := version, tlsWait := none }) b else tlsFailure n b
/-- The signature engine has ended the public-key operation of a handshake (R226). -/
def tlsStepDone (n : Fin 16) (good : Bool) (b : Block) : Block :=
  match (v2gOf b n).tlsWait with
  | some (version, completes) => if phaseOf b n = .negotiating then tlsEnds n version (good && completes) b else b
  | none => b
/-- The private key of the chain in force may be used: its slot is usable and its blob loaded (R396, R398). -/
def serverKeyUp (b : Block) (n : Fin 16) : Bool :=
  match (v2gOf b n).inForce.keySlot with
  | none => false
  | some s => keysUp b && slotUsable b s && (vget b.key.index s).usage == 6 && b.key.loaded.getLsbD s.val
/-- A TLS handshake (R225, R226); a key share is refused while the generator is not healthy (R394). Its operations on P-256 and P-384 run on the signature engine, as one request (DESIGN CHOICE, log
entry 166), those on other curves in software. -/
def reqTls (n : Fin 16) (version : BitVec 2) (suite : TlsSuite) (curve : TlsCurve) (completes : Bool) (b : Block) : Block :=
  let v := v2gOf b n
  if phaseOf b n ≠ .negotiating then v2gFail n b
  else if v.inForce.chain = [] ∨ !serverKeyUp b n ∨ !b.key.rngOk ∨ !tlsOffered v.inForce version suite then tlsFailure n b
  else
    let wait := updV2g n (fun v => { v with tlsWait := some (version, completes) })
    match curve with
    | .software => tlsEnds n version completes b
    | .p256 => engineSubmit 2 (.tls n) .p256 (wait b)
    | .p384 => engineSubmit 2 (.tls n) .p384 (wait b)
/-- SDP (R225): the stack names a TCP port from 49,152 to 65,535. -/
def reqSdp (n : Fin 16) (b : Block) : Block :=
  if v2gPhase (phaseOf b n) then
    updV2g n (fun v => { v with port := BitVec.ofNat 16 (49152 + Config.tcpPort v.ports % 16384), ports := v.ports + 1 }) b
  else b
/-- SessionSetup: source 214. -/
def reqSessionSetup (n : Fin 16) (b : Block) : Block :=
  let v := v2gOf b n
  if phaseOf b n ≠ .negotiating ∨ v.protocol = 0 ∨ !tlsMeets v false then v2gFail n b
  else v2gOk n (onlyIf (!v.isOpen) (irq 214) (updV2g n (fun v => { v with isOpen := true }) b))
/-- External identification chosen. -/
def reqExternal (n : Fin 16) (b : Block) : Block :=
  if v2gNegotiating b n && (v2gOf b n).inForce.external then v2gOk n (updV2g n (fun v => { v with ident := 1 }) b) else v2gFail n b
/-- Contract identification chosen (R230): the chain and the identifier as records on the queue set, source 217. -/
def reqContract (n : Fin 16) (chain ident : List U8) (b : Block) : Block :=
  let v := v2gOf b n
  if !v2gNegotiating b n || !v.inForce.contract || v.inForce.queue == 0xFFFF || decide (v.protocol.toNat < 2) then v2gFail n b
  else if !tlsMeets v true then (if v.inForce.chain = [] then tlsFailure n b else v2gFail n b)
  else
    let b := updV2g n (fun v => { v with ident := 2 }) b
    v2gOk n (irq 217 (sendRecords agSedge v.inForce.queue.toNat (streamRecords 0x0620 (chain ++ ident)) b).1)
/-- Authorization (R227): AUTHORISING; Ongoing until the decision. -/
def reqAuthorization (n : Fin 16) (b : Block) : Block :=
  let b := if v2gNegotiating b n && (v2gOf b n).ident != 0 then enterAuthorising n b else b
  match phaseOf b n with
  | .authorising => sendAnswer n { status := .ongoing } b
  | .idle | .connected | .associating | .negotiating | .faulted => v2gFail n b
  | _ => sendOutcome n .normal false b
/-- The stack passes limits and targets on (R227) from ADMISSION onward. -/
def v2gAdmitted (b : Block) (n : Fin 16) : Bool :=
  match phaseOf b n with
  | .admission | .cableCheck | .precharge | .charging | .stopping => true
  | _ => false
/-- The status of ChargeParameterDiscovery and CableCheck: Ongoing until ended. -/
def waitStatus (done : Bool) : V2gStatus := if done then .normal else .ongoing
/-- The vehicle's limits and targets are taken: already in NEGOTIATING and AUTHORISING, where they are gathered (R21 step 3, R227). -/
def v2gGathers (b : Block) (n : Fin 16) : Bool := v2gNegotiating b n || phaseOf b n == .authorising || v2gAdmitted b n
/-- ChargeParameterDiscovery: limits and targets; Ongoing while they are gathered and while Delayed, Finished with the limits once
Served, FAILED if Refused. -/
def reqParameters (n : Fin 16) (maxV maxI maxP targetV targetI : U16) (soc : U8) (b : Block) : Block :=
  if !v2gGathers b n then sendOutcome n .failed false b
  else
    let b := updV2g n (fun v => { v with maxV := maxV, maxI := maxI, maxP := maxP, targetV := targetV, targetI := targetI, soc := soc }) b
    sendOutcome n (waitStatus (v2gAdmitted b n && (sessOf b n).rep.outcome == .served)) false b
/-- CableCheck: Ongoing until the insulation test has passed, then PRECHARGE. -/
def reqCableCheck (n : Fin 16) (b : Block) : Block :=
  if !v2gAdmitted b n then sendOutcome n .failed false b
  else
    let done := (imdOf b n).cableCheck == 2
    let b := if done && phaseOf b n == .cableCheck then enterPhase n .precharge b else b
    sendOutcome n (waitStatus done) false b
/-- The session goes on to CHARGING once precharge is done (R143). -/
def prechargeOn (n : Fin 16) (b : Block) : Block :=
  if phaseOf b n = .precharge ∧ (sessOf b n).prechargeDone then enterPhase n .charging b else b
/-- PreCharge: the target and the vehicle's present voltage; the node voltage is answered. -/
def reqPreCharge (n : Fin 16) (targetV targetI presentV : U16) (b : Block) : Block :=
  if !v2gAdmitted b n then sendOutcome n .failed true b
  else
    let b := prechargeOn n (updV2g n (fun v => { v with targetV := targetV, targetI := targetI, presentV := presentV }) b)
    sendOutcome n .normal true b
/-- PowerDelivery start: Ongoing until precharge is done. -/
def reqPowerStart (n : Fin 16) (b : Block) : Block :=
  let b := prechargeOn n b
  if phaseOf b n = .precharge then sendOutcome n .ongoing false b
  else sendOutcome n (if phaseOf b n = .charging then .normal else .failed) false b
/-- CurrentDemand or DC_ChargeLoop: limits, targets and present voltage; the node voltage is answered. -/
def reqDemand (n : Fin 16) (maxV maxI maxP targetV targetI presentV : U16) (soc : U8) (b : Block) : Block :=
  let b := prechargeOn n b
  if phaseOf b n ≠ .charging then sendOutcome n .failed true b
  else
    let b := updV2g n (fun v => { v with maxV := maxV, maxI := maxI, maxP := maxP, targetV := targetV, targetI := targetI
                                         presentV := presentV, soc := soc }) b
    sendOutcome n .normal true b
/-- PowerDelivery stop: EV_STOP. -/
def reqPowerStop (n : Fin 16) (b : Block) : Block :=
  let b := if v2gPhase (phaseOf b n) then stopSession n .evStop b else b
  sendOutcome n .normal false b
/-- WeldingDetection: answered from the node voltage. -/
def reqWelding (n : Fin 16) (b : Block) : Block := sendOutcome n .normal true b
/-- SessionStop: the session closes. -/
def reqSessionStop (n : Fin 16) (b : Block) : Block :=
  v2gClose n (updV2g n (fun v => { v with stopped := true }) (reqPowerStop n b))

/-- The code of a request in a trace. -/
def v2gCode : V2gRequest → U8
  | .appProtocol _ _ => 0 | .tls _ _ _ _ => 1 | .sessionSetup => 2 | .serviceDiscovery => 3 | .payExternal => 4 | .payContract _ _ => 5
  | .authorization => 6 | .parameters _ _ _ _ _ _ => 7 | .cableCheck => 8 | .preCharge _ _ _ => 9 | .powerStart => 10
  | .demand _ _ _ _ _ _ _ => 11 | .powerStop => 12 | .weldingDetection => 13 | .sessionStop => 14 | .unsupported => 15
  | .sdp => 16

/-- What one request does. -/
def v2gServe (n : Fin 16) (b : Block) : V2gRequest → Block
  | .appProtocol offers dynamic => reqAppProtocol n offers dynamic b
  | .sdp => reqSdp n b
  | .tls version suite curve completes => reqTls n version suite curve completes b
  | .sessionSetup => reqSessionSetup n b
  | .serviceDiscovery => if v2gNegotiating b n then v2gOk n b else v2gFail n b
  | .payExternal => reqExternal n b
  | .payContract chain ident => reqContract n chain ident b
  | .authorization => reqAuthorization n b
  | .parameters maxV maxI maxP targetV targetI soc => reqParameters n maxV maxI maxP targetV targetI soc b
  | .cableCheck => reqCableCheck n b
  | .preCharge targetV targetI presentV => reqPreCharge n targetV targetI presentV b
  | .powerStart => reqPowerStart n b
  | .demand maxV maxI maxP targetV targetI presentV soc => reqDemand n maxV maxI maxP targetV targetI presentV soc b
  | .powerStop => reqPowerStop n b
  | .weldingDetection => reqWelding n b
  | .sessionStop => reqSessionStop n b
  | .unsupported => v2gFail n b

/-- The request reaches the stack: SDP on its UDP port, any other on the TCP port that the SDP response named (R225). -/
def v2gReaches (v : V2gSession) (q : V2gRequest) : Bool := q == .sdp || v.port != 0
/-- V2G_REQUEST: served while the vehicle is joined, Sedge runs and the session has not ended. -/
def v2gRequest (n : Fin 16) (q : V2gRequest) (b : Block) : Block :=
  let b := creekItem n 4 [v2gCode q] b
  if b.rst.sedge && (plcOf b n).linkUp && modemWorks b n && v2gReaches (v2gOf b n) q && (v2gPhase (phaseOf b n) || phaseOf b n == .stopping || (v2gOf b n).isOpen) then
    v2gServe n (updV2g n (fun v => { v with lastRequest := now b }) b) q
  else b

/-- V2G_SEQ_TIMEOUT (R228). -/
def v2gSeqTimeout (n : Fin 16) (b : Block) : Block :=
  let v := v2gOf b n
  if b.rst.sedge ∧ v2gLive b n then afterTicks v.lastRequest (v.inForce.seqTimeout.toNat * tSec) (v2gTimeout n) b else b

/-- V2G_LINK_LOSS (R228): the vehicle leaves the network, or the TCP connection closes before SessionStop. -/
def v2gLinkLoss (n : Fin 16) (network : Bool) (b : Block) : Block :=
  let b := creekItem n 3 [if network then 0 else 2] b
  if !(plcOf b n).linkUp then b
  else
    let b := onlyIf network (updPlc n (fun x => { x with linkUp := false })) b
    if !b.rst.sedge then b
    else if v2gLive b n || (network && phaseOf b n == .stopping) then v2gTimeout n b
    else v2gClose n b

/-! ### Registers (R232) -/

/-- VEH_V2G_STAT(n). -/
def v2gStatWord (v : V2gSession) : U32 :=
  reg32 [(0, v.protocol.toNat), (3, v.tls.toNat), (5, v.ident.toNat), (7, b2n v.dynamic), (8, b2n v.ongoing), (16, v.soc.toNat)]
/-- VEH_EV_LIMIT(n). -/
def evLimitWord (v : V2gSession) : U32 := reg32 [(0, v.maxV.toNat), (16, v.maxI.toNat)]
/-- VEH_EV_TARGET(n). -/
def evTargetWord (v : V2gSession) : U32 := reg32 [(0, v.targetV.toNat), (16, v.targetI.toNat)]
/-- VEH_V2G_CFG. -/
def v2gCfgWord (c : V2gCfg) : U32 := reg32 [(0, c.allowed.toNat), (4, b2n c.external), (5, b2n c.contract), (16, c.seqTimeout.toNat)]
/-- The read value of word `a` of the V2G words. -/
def v2gWord (b : Block) (a : Nat) : U32 :=
  if h : 0x620 ≤ a ∧ a ≤ 0x62F then v2gStatWord (v2gOf b ⟨a - 0x620, by omega⟩)
  else if h : 0x630 ≤ a ∧ a ≤ 0x63F then
    let v := v2gOf b ⟨a - 0x630, by omega⟩
    reg32 [(0, v.timeouts.toNat), (16, v.tlsFail.toNat)]
  else if h : 0x640 ≤ a ∧ a ≤ 0x64F then evLimitWord (v2gOf b ⟨a - 0x640, by omega⟩)
  else if h : 0x650 ≤ a ∧ a ≤ 0x65F then evTargetWord (v2gOf b ⟨a - 0x650, by omega⟩)
  else if a = 0x670 then v2gCfgWord b.v2gCfg
  else if a = 0x671 then b.v2gCfg.queue.setWidth 32
  else 0

/-! ### Commands (R235) -/

/-- V2G_SET_CONFIG. -/
def v2gSetConfig (m : Fin 4) (b : Block) : Block :=
  let w := rN b m 0 4
  let t := fieldOf w 16 6
  let q := rN b m 4 2
  checked m [(6, queueOk q true), (0x0610, decide (5 ≤ t ∧ t ≤ 60 ∧ fieldOf w 0 4 ≠ 0))] (fun b =>
    ok m [] (saveSettings { b with v2gCfg := { b.v2gCfg with
      allowed := BitVec.ofNat 4 w, external := bitOf w 4, contract := bitOf w 5, seqTimeout := BitVec.ofNat 6 t, queue := BitVec.ofNat 16 q } })) b
/-- V2G_SET_SECC: the chain in HOST_DATA records, and the slot of the wrapped server key. -/
def v2gSetSecc (m : Fin 4) (b : Block) : Block :=
  let q := rN b m 0 2
  let k := rN b m 2 2
  let slot : Fin 16 := ⟨rN b m 4 2 % 16, Nat.mod_lt _ (by decide)⟩
  let chain := hostDataBytes b q k
  let x := vget b.key.index slot
  checked m [(6, queueOk q false), (hostDataCheck b q k, hostDataCheck b q k == 0),
      (0x0611, decide (rN b m 4 2 < 16) && slotUsable b slot && x.usage == 6 && decide (chain ≠ []) && Config.chainMatches chain x.pub)] (fun b =>
    let b := hostDataConsume q k b
    ok m (leBytes 4 chain.length) { b with v2gCfg := { b.v2gCfg with chain := chain, keySlot := some slot } }) b
/-- V2G_GET_SESSION. -/
def v2gGetSession (m : Fin 4) (b : Block) : Block :=
  let v := v2gOf b (reqNode b m)
  checked m [nodeCheck 0x0601 b m] (ok m (b32s [v2gStatWord v, evLimitWord v, evTargetWord v, v.maxP.setWidth 32, (sessOf b (reqNode b m)).number])) b
/-- V2G_CLEAR_COUNTS. -/
def v2gClearCounts (m : Fin 4) (b : Block) : Block :=
  ok m [] (forAll (nodesOf (rN b m 0 2)) (fun n => updV2g n (fun v => { v with timeouts := 0, tlsFail := 0 })) b)

/-- V2G_REQUEST (R227). -/
def execV2gRequest (n : Fin 16) (q : V2gRequest) (s : State) : Result := s.input (v2gRequest n q)
/-- V2G_SEQ_TIMEOUT (R228). -/
def execV2gSeqTimeout (n : Fin 16) (s : State) : Result := s.run (v2gSeqTimeout n)
/-- V2G_LINK_LOSS (R228). -/
def execV2gLinkLoss (n : Fin 16) (network : Bool) (s : State) : Result := s.input (v2gLinkLoss n network)
/-- V2G_SET_CONFIG (R235). -/
def execV2gSetConfig (m : Fin 4) (s : State) : Result := s.run (command m 0x0610 .sedge (v2gSetConfig m))
/-- V2G_SET_SECC (R235). -/
def execV2gSetSecc (m : Fin 4) (s : State) : Result := s.run (command m 0x0611 .sedge (v2gSetSecc m))
/-- V2G_GET_SESSION (R235). -/
def execV2gGetSession (m : Fin 4) (s : State) : Result := s.run (command m 0x0612 .sedge (v2gGetSession m))
/-- V2G_CLEAR_COUNTS (R235). -/
def execV2gClearCounts (m : Fin 4) (s : State) : Result := s.run (command m 0x0613 .sedge (v2gClearCounts m))

end Sys2Proof.Machine
end

