-- ==== Sys2Proof/Machine/Peat.lean ====
section
/-! DEFINITION. The Peat store at work: the write port and its arbiter, line writes, uncorrectable errors, wear, counters, epochs
(13_peat_store.md R310 to R319, R331 to R343). -/

namespace Sys2Proof.Machine

/-! ### Requesters -/

/-- Change the store. -/
def updPea (f : Peat → Peat) (b : Block) : Block := { b with pea := f b.pea }
/-- Change the arbiter. -/
def updArb (f : Arbiter → Arbiter) (b : Block) : Block := { b with arb := f b.arb }
/-- Requester `r`. -/
def reqOf (b : Block) (r : Fin 6) : Requester := vget b.arb.reqs r
/-- Change it. -/
def updReq (r : Fin 6) (f : Requester → Requester) (b : Block) : Block := updArb (fun a => { a with reqs := vupd a.reqs r f }) b
/-- The six requesters. -/
def requesters : List (Fin 6) := List.finRange 6
/-- Lines requester `r` still has to write, the one in progress or won included. -/
def linesWaiting (b : Block) (r : Fin 6) : Nat := ((reqOf b r).queue.map fun q => q.content.length).sum
/-- Requester `r` has a line of its own beyond the one in progress or already won. -/
def asks (b : Block) (r : Fin 6) : Bool :=
  let mine := if b.arb.cur = some r ∨ b.arb.win = some r then 1 else 0
  decide (mine < linesWaiting b r)
/-- The freeze in force holds requester `r` (R339). -/
def frozenOut (b : Block) (r : Fin 6) : Bool := b.arb.frozen && !(reqOf b r).exempt
/-- The request of requester `r` is visible to the arbiter (R334, R338). -/
def visible (b : Block) (r : Fin 6) : Bool :=
  let x := reqOf b r
  asks b r && !x.masked && (!x.backingOff || x.forced)
/-- The requests present at a decision (R332, R339). -/
def present (b : Block) : List (Fin 6) := requesters.filter fun r => visible b r && !frozenOut b r
/-- The winner of a decision (R333): the forced requester of lowest number, else the lowest. -/
def winnerOf (b : Block) (l : List (Fin 6)) : Option (Fin 6) :=
  match l.find? fun r => (reqOf b r).forced with
  | some r => some r
  | none => l.head?

/-! ### Drain (R339) -/

/-- A line of a non-exempt requester is in progress or granted. -/
def drainOpen (b : Block) : Bool :=
  let held := fun (o : Option (Fin 6)) => match o with | some r => !(reqOf b r).exempt | none => false
  held b.arb.cur || held b.arb.win
/-- The freeze is drained: source 392, and the answer PEA_FREEZE awaits. -/
def drainCheck (b : Block) : Block :=
  if b.arb.frozen && !b.arb.drained && !drainOpen b then
    let b := irq 392 (updArb (fun a => { a with drained := true }) b)
    match b.arb.freezeMbx with
    | some m => ok m (b64 (now b)) (updArb (fun a => { a with freezeMbx := none }) b)
    | none => b
  else b
/-- Set the freeze with an exempt mask (R339). -/
def setFreeze (exempt : BitVec 6) (b : Block) : Block :=
  updArb (fun a => { a with
    frozen := true, drained := false
    reqs := vmapIdx a.reqs fun r x => { x with exempt := exempt.getLsbD r.val } }) b
/-- Lift the freeze. -/
def liftFreeze (b : Block) : Block :=
  updArb (fun a => { a with frozen := false, drained := false, byPowerFail := false, byDump := false
                            reqs := vmap a.reqs fun x => { x with exempt := false } }) b

/-! ### Decisions (R332 to R337) -/

/-- The consequences of one loss (R334, R335). -/
def loseDecision (limit : BitVec 4) (x : Requester) : Requester :=
  let j := min 15 (x.losses.toNat + 1)
  let f := decide (limit.toNat ≤ j)
  { x with losses := BitVec.ofNat 4 j, k := BitVec.ofNat 3 (min (j - 1) 6), backingOff := !f, forced := x.forced || f }
/-- The consequences of a grant. -/
def winDecision (x : Requester) : Requester :=
  { x with losses := 0, k := 0, backingOff := false, forced := false, forcedWins := if x.forced then satAdd x.forcedWins 1 else x.forcedWins }
/-- Requester `w` wins the decision among `l`. -/
def decideFor (w : Fin 6) (l : List (Fin 6)) (b : Block) : Block :=
  updArb (fun a => { a with
    reqs := vmapIdx a.reqs fun r x => if r = w then winDecision x else if l.contains r then loseDecision a.waitLimit x else x
    cur := if a.cur = none then some w else a.cur
    fresh := if a.cur = none then some true else a.fresh
    win := if a.cur = none then a.win else some w
    park := none }) b
/-- ARBITER_DECISION: at the last beat of a line, at the boundary after a request found the port idle, or at the start of a dead
beat. A parked owner that alone asks starts its line without a decision (R336). A shutdown epoch that is due is requested first. -/
def arbiterDecision (b : Block) : Block :=
  let b := shutdownDue b
  if b.arb.win.isSome then b
  else
    let l := present b
    match winnerOf b l with
    | none => b
    | some w =>
      if b.arb.cur = none ∧ b.arb.park = some w ∧ l = [w] then updArb (fun a => { a with cur := some w, park := none, fresh := some false }) b
      else decideFor w l b
/-- BACKOFF_END (R334). -/
def backoffEnd (r : Fin 6) (b : Block) : Block := updReq r (fun x => { x with backingOff := false }) b
/-- Drop the request of requester `r` whose first beat has not started: the next one when a line of an earlier one is in
progress. A legal entry goes with its request. -/
def dropRequest (r : Fin 6) (b : Block) : Block :=
  let i := if b.arb.cur = some r then 1 else 0
  let q := (reqOf b r).queue
  let entries := fun (l : List PeaRequest) => (l.filter fun x => x.act == .legalEntry).length
  let isEntry : Bool := match q[i]? with | some x => x.act == .legalEntry | none => false
  let b := onlyIf isEntry (fun (b : Block) => { b with btn := { b.btn with legalWaiting := b.btn.legalWaiting.eraseIdx (entries (q.take i)) } }) b
  updReq r (fun x => { x with queue := q.eraseIdx i, forced := false, backingOff := false, losses := 0, k := 0 }) b
/-- REQUEST_WITHDRAW (R337): before its first beat a requester withdraws; after winning, the next beat is dead. A requester whose line
found the port idle and has not begun withdraws that line. -/
def requestWithdraw (r : Fin 6) (b : Block) : Block :=
  if (reqOf b r).queue = [] then b
  else if b.arb.win = some r then
    updReq r (fun x => { x with withdrawals := satAdd x.withdrawals 1 }) (updArb (fun a => { a with win := none }) (dropRequest r b))
  else if b.arb.cur = some r ∧ b.arb.fresh.isSome then
    let b1 := dropRequest r (updArb (fun a => { a with cur := none, fresh := none, park := if a.fresh = some false then some r else none }) b)
    if b.arb.fresh = some true then updReq r (fun x => { x with withdrawals := satAdd x.withdrawals 1 }) b1 else b1
  else if b.arb.cur = some r ∧ (reqOf b r).queue.length < 2 then b
  else dropRequest r b

/-! ### Lines (R311, R315 to R318) -/

/-- The line requester `r` writes next and its bytes; a legal entry takes its sequence here (R519). -/
def nextLine (b : Block) (q : PeaRequest) : Nat × List U8 :=
  match q.act with
  | .legalEntry => (47616 + b.btn.legalNext.toNat % 8192, logEntry b.btn.legalNext (b.btn.legalWaiting.headD []))
  | _ => (q.first, padTo 64 (q.content.headD []))
/-- Physical lines of the array (R310). -/
def physicalLines : Nat := 65600
/-- PEA_WEAR: the mean of the writes of all physical lines. -/
def wearMean (p : Peat) : Nat := p.totalWrites / physicalLines
/-- The seconds of Tide so far. -/
def secondNow (b : Block) : Nat := (now b).toNat / tSec
/-- One physical line write is counted (R318): wear, the rate over 3,600 s, source 395 once. -/
def countWrite (b : Block) : Block :=
  let s := secondNow b
  let old := b.pea.buckets.filter fun e => decide (s < e.1 + 3600)
  let buckets := match old with
    | (t, n) :: r => if t = s then (t, n + 1) :: r else (s, 1) :: old
    | [] => [(s, 1)]
  let b := updPea (fun p => { p with totalWrites := p.totalWrites + 1, buckets := buckets }) b
  if !b.pea.wearWarned ∧ 5000000 ≤ wearMean b.pea then irq 395 (updPea (fun p => { p with wearWarned := true }) b) else b
/-- PEA_RATE: bytes per second over the last 3,600 s. -/
def writeRate (b : Block) : Nat :=
  let s := secondNow b
  ((b.pea.buckets.filter fun e => decide (s < e.1 + 3600)).map fun e => e.2).sum * 64 / 3600
/-- Store a line's bytes. -/
def storeLine (line : Nat) (l : List U8) (b : Block) : Block :=
  updPea (fun p => { p with lines := p.lines.writeN (64 * line) (padTo 64 l), badLines := p.badLines.filter fun x => x != line }) b
/-- The wallet whose home lines hold line `n` (R369). -/
def walletOfLine (n : Nat) : Option Nat := if 35328 ≤ n ∧ n ≤ 43519 then some ((n - 35328) / 2) else none
/-- The leveller position of logical line `n` (R317): the lines keep their cyclic order, and each move shifts them by one against the gap.
-/
def linePosition (p : Peat) (n : Nat) : Nat := (p.gap + 1 + (n + p.moves) % 65536) % 65537
/-- The bytes of logical line `n` as read: those of the directory (R313) are the part's. -/
def readLine (b : Block) (n : Nat) : List U8 :=
  if n < 64 then sealLine ((List.range 60).map fun i => Config.dirByte (60 * (n % 32) + i)) else Memory.readN b.pea.lines (64 * n) 64
/-- An uncorrectable error on a line (R316, R17): ue, its line and count, source 388, the legal log; every session stops; an
affected wallet becomes UNPROVEN (R369). -/
def uncorrectable (line : Nat) (b : Block) : Block :=
  let b := irq 388 (updPea (fun p => { p with
    ue := true, ueLine := BitVec.ofNat 32 line, ueCnt := satInc p.ueCnt, badLines := if p.badLines.contains line then p.badLines else line :: p.badLines }) b)
  let b := legalLog 0x0050 wBittern ([1, 0, 0, 0] ++ leBytes 4 line ++ b32 b.pea.ueCnt) b
  let b := match walletOfLine line with
    | some w => if (walletOf b w).state = 0 then b else unproveWallet w b
    | none => b
  stopAll .deviceFault b
/-- A revoked line is left torn (R338, R340): some of its beats are new. -/
def tearLine (r : Fin 6) (b : Block) : Block :=
  match (reqOf b r).queue with
  | [] => b
  | q :: _ =>
    let x := nextLine b q
    let k := Config.beatsWritten b.pea.writes % 4
    let old := Memory.readN b.pea.lines (64 * x.1) 64
    let b := updPea (fun p => { p with writes := p.writes + 1 }) b
    if k = 0 then b
    else
      let b := storeLine x.1 (x.2.take (16 * k) ++ old.drop (16 * k)) b
      updPea (fun p => { p with badLines := x.1 :: p.badLines }) b

/-! ### What follows a checked request -/

/-- A counter has been written (R341, R343): warning, exhaustion, the answer. -/
def counterDone (k : Fin 64) (v : Nat) (mbx : Option (Fin 4)) (b : Block) : Block :=
  let b := updPea (fun p => { p with ctr := vset p.ctr k (BitVec.ofNat 32 v) }) b
  let b :=
    if ctrWarnAt ≤ v ∧ !b.pea.ctrWarn.getLsbD k.val then
      irq 393 (updPea (fun p => { p with ctrWarn := p.ctrWarn ||| BitVec.ofNat 64 (2 ^ k.val) }) b)
    else b
  let b :=
    if ctrMax ≤ v ∧ !b.pea.ctrExh.getLsbD k.val then
      legalLog 0x0051 wBittern [BitVec.ofNat 8 k.val] (irq 394 (updPea (fun p => { p with ctrExh := p.ctrExh ||| BitVec.ofNat 64 (2 ^ k.val) }) b))
    else b
  match mbx with
  | some m => ok m (leBytes 4 v) b
  | none => b
/-- A TAMPER entry is in the legal log: the backup domain frees the stored event (R367). -/
def tamperLogged (body : List U8) (b : Block) : Block :=
  if natAt body 16 2 = 4 then { b with backup := { b.backup with events := b.backup.events.erase (slice body 20 8) } } else b
/-- A legal entry has been written (R519, R521): the next sequence; the entry 8,192 below it is gone, source 464 the first
time. -/
def legalWritten (b : Block) : Block :=
  let b := match b.btn.legalWaiting with | [] => b | l :: _ => tamperLogged l b
  let s := b.btn.legalNext
  let wraps := decide (b.btn.legalFloor.toNat + 8192 ≤ s.toNat)
  let first := wraps && !b.btn.legalWrapped
  onlyIf first (irq 464) { b with btn := { b.btn with
    legalNext := s + 1, legalWaiting := b.btn.legalWaiting.tail, legalWrapped := b.btn.legalWrapped || wraps
    legalFloor := if wraps then s - 8191 else b.btn.legalFloor } }
/-- A seal has been checked (R322, R328). -/
def sealChecked (kind : Nat) (epoch : U32) (b : Block) : Block :=
  let b := updPea (fun p => { p with epoch := epoch }) b
  if kind = 2 then { b with pf := { b.pf with sealedAt := some (now b) } } else b
/-- The ledger of connector `n` is closed once its balance is back in the wallet (R375). -/
def closeLedger (n : Fin 16) (b : Block) : Block := updLedger n (fun l => if l.state = 3 then { l with state := 0 } else l) b
/-- The act of a request whose last line has been checked. -/
def storeAct (a : StoreAct) (b : Block) : Block :=
  match a with
  | .lines => b
  | .legalEntry => legalWritten b
  | .counter k v mbx => counterDone k v mbx b
  | .settings => noteSettings b
  | .seal kind epoch _ => sealChecked kind epoch b
  | .clearDone => { b with btn := { b.btn with clearing := false } }
  | .keySlot k x op m payload => keyApplied k x op m payload b
  | .update => { b with updRec := updRecordOf b }
  | .legal (some (m, payload)) => ok m payload { b with legalSet := legalSetOf b }
  | .legal none => { b with legalSet := legalSetOf b }
  | .answer m payload => ok m payload b
  | .ledger n => closeLedger n b
  | .lease mark => leased mark b
/-- The mailbox that waits, if one does, is told that its command cannot be carried out. -/
def failTo (m : Option (Fin 4)) (b : Block) : Block := match m with | some m => internalFail m b | none => b
/-- The entry that was to be written first of those that wait is given up. -/
def dropWaiting (b : Block) : Block := { b with btn := { b.btn with legalWaiting := b.btn.legalWaiting.tail } }
/-- A request ends without being written: a command that awaits it cannot be carried out. -/
def storeFailed (a : StoreAct) (b : Block) : Block :=
  match a with
  | .counter _ _ m => failTo m b
  | .keySlot _ _ _ m _ => keyNext (internalFail m b)
  | .answer m _ => internalFail m b
  | .ledger n => closeLedger n b
  | .lease _ => leaseLost b
  | .legal x => failTo (x.map fun y => y.1) b
  | .legalEntry => dropWaiting b
  | .lines => b
  | .settings => b
  | .seal _ _ _ => b
  | .clearDone => b
  | .update => b
/-- A Peat store completion of the trace (R536). -/
def storeItem (r : Fin 6) (status : U8) (line : Nat) (b : Block) : Block :=
  traceItem 12 0 (now b) ([BitVec.ofNat 8 r.val, status, 0, 0] ++ leBytes 4 line) b
/-- Count a corrected read (R315): source 389 when more than 64 fall in one hour. -/
def countCorrection (b : Block) : Block :=
  let ts := (now b :: b.pea.eccTimes.filter fun t => decide ((now b).toNat < t.toNat + 3600 * tSec)).take 65
  let b := updPea (fun p => { p with eccCnt := satInc p.eccCnt, eccTimes := ts }) b
  if 64 < ts.length then irq 389 (updPea (fun p => { p with eccTimes := [] }) b) else b
/-- The lines of a PEA_READ are read (R315, R316): `errs` gives the bit errors of each line, 1 or 2 corrected, more not. -/
def readLines (m : Fin 4) (errs : List U8) (b : Block) : Block :=
  let first := rN b m 0 4
  let n := rN b m 4 1
  let range := List.range n
  let err := fun (i : Nat) => (errs.getD i 0).toNat
  match range.filter fun i => decide (3 ≤ err i) || b.pea.badLines.contains (first + i) with
  | i :: _ => internalFail m (uncorrectable (first + i) b)
  | [] =>
    let fixed := fun (i : Nat) => decide (1 ≤ err i ∧ err i ≤ 2)
    let b := forAll (range.filter fixed) (fun _ => countCorrection) b
    ok m (padTo 960 (range.flatMap fun i => readLine b (first + i)) ++ leBytes 2 (bitsNat (range.map fixed))) b
/-- The reads that waited for a line are read once its check is complete (R315). -/
def readsGo (b : Block) : Block :=
  forAll b.arb.reads (fun x b => if serving b x.1 0x0B02 then readLines x.1 x.2 b else b) (updArb (fun a => { a with reads := [] }) b)
/-- The port passes on after a line: to the winner of the last decision, or it parks on the owner (R332, R336); the reads that waited go
on (R315). -/
def portNext (r : Fin 6) (b : Block) : Block :=
  readsGo <| drainCheck (updArb (fun a => { a with cur := a.win, win := none, fresh := none, park := if a.win.isNone && !(vget a.reqs r).masked then some r else none }) b)
/-- LINE_WRITE_DONE (R311): the line is checked, and written a second time when the first check fails; its request goes on. -/
def lineDone (c : LineCheck) (b : Block) : Block :=
  match b.arb.cur with
  | none => b
  | some r =>
    match (reqOf b r).queue with
    | [] => portNext r b
    | q :: rest =>
      let x := nextLine b q
      let b := onlyIf (c != .first) countWrite b
      if c = .failed then
        portNext r (storeItem r 1 x.1 (storeFailed q.act (uncorrectable x.1 (countWrite (updReq r (fun y => { y with queue := rest }) b)))))
      else
        let b := updPea (fun p => { p with writesSinceGap := p.writesSinceGap + 1 }) (countWrite (storeLine x.1 x.2 b))
        if q.content.length ≤ 1 then
          portNext r (storeItem r 0 x.1 (storeAct q.act (updReq r (fun y => { y with queue := rest, revoked := false }) b)))
        else
          portNext r (updReq r (fun y => { y with queue := { q with first := q.first + 1, content := q.content.tail } :: rest }) b)
/-- REQUESTER_MASK (R338): the unit of requester `r` is in reset or powered down, or leaves reset. -/
def requesterMask (r : Fin 6) (on : Bool) (b : Block) : Block :=
  if !on then updReq r (fun x => { x with masked := false }) b
  else
    let owned := b.arb.cur = some r
    let b := onlyIf (decide owned) (tearLine r) b
    let b := if r = rqBittern then { b with btn := { b.btn with legalWaiting := [] } } else b
    let b := updReq r (fun x => { x with
      masked := true, queue := [], losses := 0, k := 0, backingOff := false, forced := false
      revocations := if b.arb.cur = some r then satAdd x.revocations 1 else x.revocations }) b
    let b := updArb (fun a => { a with win := if a.win = some r then none else a.win, park := if a.park = some r then none else a.park }) b
    if b.arb.cur = some r then readsGo <| drainCheck (updArb (fun a => { a with cur := a.win, win := none, fresh := none }) (irq 391 b)) else drainCheck b
/-- HOLD_WATCHDOG (R340): the owner loses the grant 50 µs after the decision; its line is torn and must be written again. -/
def holdWatchdog (b : Block) : Block :=
  match b.arb.cur with
  | none => b
  | some r =>
    let b := tearLine r b
    let b := irq 391 (updReq r (fun x => { x with revocations := satAdd x.revocations 1, revoked := true }) b)
    readsGo <| drainCheck (updArb (fun a => { a with cur := a.win, win := none, park := none, fresh := none }) b)
/-- PEAT_WRITE_REQUEST (R314). -/
def peatWriteRequest (r : Fin 6) (q : PeatWrite) (b : Block) : Block :=
  if (reqOf b r).masked then b else peatRequest r q.first (q.lines.map (padTo 64)) .lines b
/-- COUNTER_INCREMENT (R341, R342): requester `r` asks; one that is not bound to it is rejected, an exhausted counter refuses. -/
def counterIncrement (k : Fin 64) (r : Fin 6) (b : Block) : Block := if (reqOf b r).masked then b else (ctrIncrement r k none b).1
/-- GAP_MOVE (R317): every 16 line writes, or 1 s after the last move; one line is copied into the gap. -/
def gapMove (b : Block) : Block :=
  let move := fun (b : Block) => updPea (fun p => { p with
    gap := if p.gap = 0 then 65536 else p.gap - 1, moves := p.moves + 1, writesSinceGap := 0, lastGap := now b }) (countWrite b)
  if 16 ≤ b.pea.writesSinceGap then move b else afterTicks b.pea.lastGap tSec move b

/-! ### Epochs (R323) -/

/-- While the mapping gives legal time, Carr sets the real-time clock when the two differ by more than 1 s (R347). -/
def rtcFollow (b : Block) : Block :=
  if timeSource b ≠ 1 then b
  else
    let legal := legalTicks b (now b) * 32768 / tSec
    if 32768 < (legal - b.backup.rtc.toNat).natAbs then { b with backup := { b.backup with rtc := BitVec.ofInt 64 legal, rtcValid := true } } else b
/-- The delta or checkpoint epoch stamped `s`. -/
def deltaEpoch (s : Nat) (b : Block) : Block :=
  let b := rtcFollow (debitLines b)
  let check := decide (59 ≤ b.pea.deltas)
  writeEpoch (b2n check) (BitVec.ofNat 64 s) (updPea (fun p => { p with lastDelta := some (BitVec.ofNat 64 s), deltas := if check then 0 else p.deltas + 1 }) b)
/-- DELTA_EPOCH: the first sample instant of each second, written at 36,000 ticks after it, while Carr runs and no power failure
is handled. -/
def deltaEpochDue (b : Block) : Block :=
  if !b.rst.carr ∨ !b.pea.ready ∨ b.pf.active then b
  else
    let s := multipleFrom tSec (match b.pea.lastDelta with
      | some t => max ((now b).toNat - 36000) (t.toNat + 1)
      | none => (now b).toNat - 36000)
    atInstant (s + 36000) (deltaEpoch s) b

/-- PEAT_WRITE_REQUEST (R314). -/
def execPeatWriteRequest (r : Fin 6) (q : PeatWrite) (s : State) : Result := s.run (peatWriteRequest r q)
/-- ARBITER_DECISION (R333). -/
def execArbiterDecision (s : State) : Result := s.run arbiterDecision
/-- BACKOFF_END (R334). -/
def execBackoffEnd (r : Fin 6) (s : State) : Result := s.run (backoffEnd r)
/-- REQUEST_WITHDRAW (R337). -/
def execRequestWithdraw (r : Fin 6) (s : State) : Result := s.run (requestWithdraw r)
/-- REQUESTER_MASK (R338). -/
def execRequesterMask (r : Fin 6) (on : Bool) (s : State) : Result := s.run (requesterMask r on)
/-- HOLD_WATCHDOG (R340). -/
def execHoldWatchdog (s : State) : Result := s.run holdWatchdog
/-- GAP_MOVE (R317). -/
def execGapMove (s : State) : Result := s.run gapMove
/-- COUNTER_INCREMENT (R341). -/
def execCounterIncrement (k : Fin 64) (r : Fin 6) (s : State) : Result := s.run (counterIncrement k r)
/-- DELTA_EPOCH (R323). -/
def execDeltaEpoch (s : State) : Result := s.run deltaEpochDue

end Sys2Proof.Machine
end

