-- ==== Sys2Proof/Machine/PowerFail.lean ====
section
/-! DEFINITION. Power-fail warnings and their course, the registers and the commands of the Peat store
(13_peat_store.md R327 to R330, R344, R346). -/

namespace Sys2Proof.Machine

/-! ### The course of a warning -/

/-- Change power-fail handling. -/
def updPf (f : PowerFail → PowerFail) (b : Block) : Block := { b with pf := f b.pf }
/-- Change firmware update. -/
def updUpd (f : Update → Update) (b : Block) : Block := { b with upd := f b.upd }
/-- Image `i`. -/
def imageOf (b : Block) (i : Fin 4) : Image := vget b.upd.images i
/-- Change it. -/
def updImage (i : Fin 4) (f : Image → Image) (b : Block) : Block := updUpd (fun u => { u with images := vupd u.images i f }) b
/-- Set the state of one slot of an image. -/
def setSlot (i : Fin 4) (slotB : Bool) (st : BitVec 3) (b : Block) : Block :=
  updImage i (fun x => if slotB then { x with stateB := st } else { x with stateA := st }) b
/-- Staging ends without success (R503): slot NONE, STAGE_FAILED, source 24, the status to the command. -/
def stageFail (st : Nat) (b : Block) : Block :=
  match b.upd.fetch with
  | none => b
  | some f =>
    let b := setSlot f.image f.slotB 0 (updUpd (fun u => { u with
      fetch := none, status := 3, busy := false, image := BitVec.ofNat 3 (f.image.val + 1), standby := [] }) b)
    let b := irq 24 b
    match f.mbx with
    | some m => refuse m st b
    | none => b
/-- A pause is given up: the core that was to be switched runs its present image again. -/
def pauseAbort (p : Pause) (b : Block) : Block :=
  if !p.begun then b
  else match p.image.val with
    | 1 => reviewHub { b with rst := { b.rst with dyke := true } }
    | 2 => replan { b with rst := { b.rst with carr := true } }
    | 3 => driveFeed (forAll allNodes pilotReview { b with rst := { b.rst with sedge := true, sedgeAbsent := none } })
    | _ => b
/-- What a power-fail warning does to an update (R512): staging is abandoned; an activation not yet switched is refused. -/
def updatePowerFail (b : Block) : Block :=
  let b := if b.upd.status = 1 then stageFail 0x0B09 b else b
  match b.upd.pause with
  | none => b
  | some p =>
    let b := pauseAbort p (updUpd (fun u => { u with pause := none, busy := false, status := if p.revert then 5 else 2 }) b)
    match p.mbx with
    | some m => refuse m 0x0B09 b
    | none => b
/-- Every open session moves to STOPPING with POWER_FAIL (R27). -/
def powerFailStop (n : Fin 16) (b : Block) : Block :=
  let s := sessOf b n
  if s.phase.isOpen then
    let b := updSess n (noteCause .powerFail b) b
    if s.phase = .stopping then b else enterPhase n .stopping b
  else b
/-- The freeze of a power failure (R328, R339): Carr and Brine exempt. -/
def powerFailFreeze (b : Block) : Block := updArb (fun a => { a with byPowerFail := true, byDump := false }) (setFreeze 3 b)
/-- POWER_FAIL_WARNING (R327, R328) at W: by PFW_N, or by the monitor of VIN_SYS while vin_mon is set. Before Tide is ready it
only blocks admission. A second warning has no further effect. -/
def powerFailWarning (vin : Bool) (b : Block) : Block :=
  if vin && !b.pf.vinMon then b
  else
    let b := updPf (fun p => { p with warn := true, pin := p.pin || !vin, vinLow := p.vinLow || vin }) b
    let b := traceItem 13 0 (now b) ([1, 0] ++ b16 b.lsw.vin) b
    if b.pf.active ∨ !b.tide.ready then b
    else
      let w := now b
      let b := updPf (fun p => { p with
        active := true, at_ := w, committed := false, late := false, trailing := 0, quiescent := false, cleared := false, time := 0
        begun := false, sealedAt := none, overdue := false, cut := some (BitVec.ofNat 64 (sampleAtOrAfter (w.toNat + 1500))) }) b
      let b := { b with dmp := if b.dmp.state = 1 then { b.dmp with state := 3 } else b.dmp }
      let b := updatePowerFail (forAll (List.finRange 2) (fun f => pqTruncate f 0) (irq 384 b))
      drainCheck (powerFailFreeze (forAll allNodes powerFailStop b))
/-- PF_COMMIT_DONE (R328): the seal of kind 2 has been checked. -/
def pfCommitDone (b : Block) : Block :=
  match b.pf.sealedAt with
  | some t =>
    if b.pf.active ∧ !b.pf.committed then
      irq 385 (updPf (fun p => { p with committed := true, time := BitVec.ofNat 32 (min (2 ^ 32 - 1) (t.toNat - p.at_.toNat)) }) b)
    else b
  | none => b
/-- PF_COMMIT_LATE (R328): not checked by W + 3,000,000. -/
def pfCommitLate (b : Block) : Block :=
  if b.pf.active ∧ b.pf.sealedAt.isNone ∧ !b.pf.late then
    afterTicks b.pf.at_ 3000000 (fun b => irq 386 (updPf (fun p => { p with late := true }) b)) b
  else b
/-- QUIESCENT_COMMIT (R329): every node is open and verified. -/
def quiescentDue (b : Block) : Block :=
  if b.pf.active ∧ b.pf.begun ∧ !b.pf.overdue ∧ allNodes.all (fun n => (nodeOf b n).openVerified) then quiescentCommit b else b
/-- PF_HOLD_END (R329): 20 ms after W. -/
def pfHoldEnd (b : Block) : Block :=
  if b.pf.active ∧ !b.pf.overdue then afterTicks b.pf.at_ 30000000 (fun x => updPf (fun p => { p with overdue := true }) x) b else b
/-- A session that was stopped closes with its final reading deferred (R27, R330). -/
def closeDeferred (n : Fin 16) (b : Block) : Block :=
  let s := sessOf b n
  let r := match s.endReason with | some r => r | none => (match s.stopCause with | some r => r | none => .powerFail)
  let b := if s.phase = .stopping then
      updVeh n (fun v => { v with unlockDue := true })
        (enterPhase n .ended (updSess n (fun s => { s with endReason := some r, served := false, authorised := false }) b))
    else b
  closeItems n r.code 8 b
/-- POWER_FAIL_CLEAR (R330): the supplies have been sound for 100 ms: a quiescent commit if none was written, the stopped sessions
are closed, the freeze is lifted. -/
def powerFailCleared (b : Block) : Block :=
  let b := quiescentCommit b
  let b := updPf (fun p => { p with active := false, warn := false, pin := false, vinLow := false, cleared := true, cut := none }) b
  let b := traceItem 13 0 (now b) ([2, 0] ++ b16 b.lsw.vin) b
  let b := forAll allNodes closeDeferred b
  let b := if b.upd.activating.isSome ∧ b.upd.pause.isNone then saveUpdate (updUpd (fun u => { u with activating := none }) b) else b
  irq 387 (onlyIf b.arb.byPowerFail liftFreeze b)
/-- The row. -/
def powerFailClear (b : Block) : Block :=
  if b.pf.active then afterTicks b.pf.at_ 150000000 powerFailCleared b
  else updPf (fun p => { p with warn := false, pin := false, vinLow := false }) b

/-! ### Registers (R344) -/

/-- Bits of a predicate of the six requesters. -/
def reqBits (f : Fin 6 → Bool) : Nat := bitsNat (requesters.map f)
/-- PEA_ARB_STAT. -/
def arbStatWord (b : Block) : U32 :=
  let owner := match b.arb.cur with | some r => r.val | none => (match b.arb.park with | some r => r.val | none => 7)
  reg32 [(0, owner), (3, b2n (b.arb.cur.isNone && b.arb.park.isSome)), (4, b2n b.arb.cur.isSome), (8, reqBits (visible b)),
    (16, reqBits fun r => (reqOf b r).masked), (24, reqBits fun r => (reqOf b r).forced)]
/-- PEA_STATUS. -/
def peaStatusWord (b : Block) : U32 :=
  reg32 [(0, b2n b.pea.ready), (1, b2n b.pf.warn), (2, b2n b.pf.active), (3, b2n b.pea.ue), (4, b2n b.arb.frozen), (5, b2n b.arb.drained),
    (6, b2n b.pf.vinMon), (7, b2n b.pea.settingsB)]
/-- PEA_PF_STAT. -/
def pfStatWord (p : PowerFail) : U32 :=
  reg32 [(0, b2n p.pin), (1, b2n p.vinLow), (2, b2n p.committed), (3, b2n p.late), (4, p.trailing.toNat), (9, b2n p.quiescent), (10, b2n p.cleared)]
/-- PEA_RECOVERY. -/
def recoveryWord (p : Peat) : U32 := reg32 [(0, p.outcome.toNat), (3, b2n p.ledgerDiscard), (16, p.discarded.toNat)]
/-- PEA_REQ_STAT(r). -/
def reqStatWord (x : Requester) : U32 := reg32 [(0, x.losses.toNat), (4, x.k.toNat), (7, b2n x.backingOff)]
/-- PEA_REQ_CNT(r). -/
def reqCntWord (x : Requester) : U32 := reg32 [(0, x.forcedWins.toNat), (16, x.withdrawals.toNat), (24, x.revocations.toNat)]
/-- The read value of word `a` of the PEA block. -/
def peaWord (b : Block) (a : Nat) : U32 :=
  let p := b.pea
  if h : 0x8D0 ≤ a ∧ a ≤ 0x8D5 then reqStatWord (reqOf b ⟨a - 0x8D0, by omega⟩)
  else if h : 0x8D8 ≤ a ∧ a ≤ 0x8DD then reqCntWord (reqOf b ⟨a - 0x8D8, by omega⟩)
  else match a with
    | 0x8C0 => peaStatusWord b
    | 0x8C1 => arbStatWord b
    | 0x8C2 => reg32 [(0, b.arb.waitLimit.toNat), (8, reqBits fun r => (reqOf b r).exempt)]
    | 0x8C3 => pfStatWord b.pf
    | 0x8C4 => lo32 b.pf.at_
    | 0x8C5 => hi32 b.pf.at_
    | 0x8C6 => b.pf.time
    | 0x8C7 => p.epoch
    | 0x8C9 => BitVec.ofNat 32 (wearMean p)
    | 0x8CA => BitVec.ofNat 32 (writeRate b)
    | 0x8CB => p.eccCnt
    | 0x8CC => p.ueCnt
    | 0x8CD => p.ueLine
    | 0x8CE => p.rejectCnt
    | 0x8CF => recoveryWord p
    | 0x8E0 => lo32 p.ctrExh
    | 0x8E1 => hi32 p.ctrExh
    | 0x8E2 => lo32 p.ctrWarn
    | 0x8E3 => hi32 p.ctrWarn
    | _ => 0

/-! ### Commands (R346) -/

/-- Refused with PF_ACTIVE while a power failure is handled. -/
def pfCheck (b : Block) : Nat × Bool := (0x0B09, !b.pf.active)
/-- PEA_GET_STATUS. -/
def peaGetStatus (m : Fin 4) (b : Block) : Block := ok m ((List.range 16).flatMap fun k => b32 (peaWord b (0x8C0 + k))) b
/-- First and last line of the partition that holds a line (R313). -/
def partitionOf (n : Nat) : Nat × Nat :=
  if n ≤ 63 then (0, 63) else if n ≤ 32831 then (64, 32831) else if n ≤ 35327 then (32832, 35327)
  else if n ≤ 43519 then (35328, 43519) else if n ≤ 47615 then (43520, 47615) else if n ≤ 55807 then (47616, 55807)
  else if n ≤ 56831 then (55808, 56831) else if n ≤ 57087 then (56832, 57087) else if n ≤ 61183 then (57088, 61183)
  else if n ≤ 65279 then (61184, 65279) else if n ≤ 65471 then (65280, 65471) else (65472, 65535)
/-- The line in progress at the write port. -/
def lineInProgress (b : Block) : Option Nat :=
  match b.arb.cur with
  | some r => (match (reqOf b r).queue with | q :: _ => some (nextLine b q).1 | [] => none)
  | none => none
/-- PEA_READ (R314, R315, R316): `errs` gives the bit errors of each line read, 1 or 2 corrected, more not. A read of a line whose
write is in progress waits until that line is checked. -/
def peaRead (m : Fin 4) (errs : List U8) (b : Block) : Block :=
  let first := rN b m 0 4
  let n := rN b m 4 1
  let part := partitionOf first
  checked m [(0x0B01, decide (first ≤ 65535 ∧ 1 ≤ n ∧ n ≤ 15)), (0x0B02, !decide (55808 ≤ first ∧ first ≤ 56831)),
      (0x0B01, decide (first + n ≤ part.2 + 1))] (fun b =>
    let waits := match lineInProgress b with | some x => decide (first ≤ x ∧ x < first + n) | none => false
    if waits then updArb (fun a => { a with reads := (a.reads.filter fun x => x.1 != m) ++ [(m, errs)] }) b else readLines m errs b) b
/-- PEA_FREEZE (R339): answered when the port is drained. -/
def peaFreeze (m : Fin 4) (b : Block) : Block :=
  let on := rBit b m 0 0
  checked m [pfCheck b, (0x0B06, decide (rN b m 1 1 < 64)), (0x0B05, allQuiet b)] (fun b =>
    if on then drainCheck (updArb (fun a => { a with freezeMbx := some m, byDump := false }) (setFreeze (BitVec.ofNat 6 (rN b m 1 1)) b))
    else ok m (zeros 8) (if b.arb.byDump then b else liftFreeze b)) b
/-- PEA_SET_CONFIG. -/
def peaSetConfig (m : Fin 4) (b : Block) : Block :=
  let w := rN b m 0 1
  checked m [pfCheck b, (0x0B06, decide (1 ≤ w ∧ w ≤ 15))] (fun b =>
    cmdLog m 0 (ok m [] (saveSettings (updPf (fun p => { p with vinMon := rBit b m 1 0 }) (updArb (fun a => { a with waitLimit := BitVec.ofNat 4 w }) b))))) b
/-- Counter of request byte 0. -/
def reqCtr (b : Block) (m : Fin 4) : Fin 64 := ⟨rN b m 0 1 % 64, Nat.mod_lt _ (by decide)⟩
/-- PEA_CTR_READ. -/
def peaCtrRead (m : Fin 4) (b : Block) : Block :=
  let k := reqCtr b m
  checked m [pfCheck b, (0x0B03, decide (rN b m 0 1 < 64))] (fun b =>
    ok m (b32 (vget b.pea.ctr k) ++ [BitVec.ofNat 8 (b2n (b.pea.ctrWarn.getLsbD k.val) + 2 * b2n (b.pea.ctrExh.getLsbD k.val)), BitVec.ofNat 8 (counterOwner k).val]) b) b
/-- PEA_CTR_INCREMENT: answered when the line has been checked. -/
def peaCtrIncrement (m : Fin 4) (b : Block) : Block :=
  let k := reqCtr b m
  checked m [pfCheck b, (0x0B03, decide (56 ≤ rN b m 0 1 ∧ rN b m 0 1 < 64)), (0x0B04, !ctrExhausted b k)] (fun b =>
    (ctrIncrement rqSedge k (some m) b).1) b
/-- PEA_ACK_ERROR (R316). -/
def peaAckError (m : Fin 4) (b : Block) : Block :=
  checked m [pfCheck b, (0x0B08, b.pea.ue)] (fun b =>
    let a := authorise m 4 (rN b m 0 2) b
    if a.2 then
      let b := updPea (fun p => { p with ue := false }) a.1
      ok m (b32 b.pea.ueLine) (legalLog 0x0050 wBittern ([2, 0, 0, 0] ++ b32 b.pea.ueLine ++ b32 b.pea.ueCnt) b)
    else refuse m 0x0B07 a.1) b
/-- PEA_GET_RECOVERY. -/
def peaGetRecovery (m : Fin 4) (b : Block) : Block :=
  let p := b.pea
  checked m [pfCheck b] (ok m (b32 (recoveryWord p) ++ b64 p.recStamp ++ b32 p.recEpoch ++ b64 p.recRtc ++ [p.recKind])) b
/-- PEA_CLEAR_COUNTS. -/
def peaClearCounts (m : Fin 4) (b : Block) : Block :=
  checked m [pfCheck b] (fun b =>
    ok m [] (updArb (fun a => { a with reqs := vmap a.reqs fun x => { x with forcedWins := 0, withdrawals := 0, revocations := 0 } })
      (updPea (fun p => { p with eccCnt := 0, ueCnt := 0, rejectCnt := 0 }) b))) b

/-- POWER_FAIL_WARNING (R327). -/
def execPowerFailWarning (vin : Bool) (s : State) : Result := s.input (powerFailWarning vin)
/-- PF_COMMIT_DONE (R328). -/
def execPfCommitDone (s : State) : Result := s.run pfCommitDone
/-- PF_COMMIT_LATE (R328). -/
def execPfCommitLate (s : State) : Result := s.run pfCommitLate
/-- QUIESCENT_COMMIT (R329). -/
def execQuiescentCommit (s : State) : Result := s.run quiescentDue
/-- PF_HOLD_END (R329). -/
def execPfHoldEnd (s : State) : Result := s.run pfHoldEnd
/-- POWER_FAIL_CLEAR (R330). -/
def execPowerFailClear (s : State) : Result := s.input powerFailClear
/-- PEA_GET_STATUS (R346). -/
def execPeaGetStatus (m : Fin 4) (s : State) : Result := s.run (command m 0x0B01 .sedge (peaGetStatus m))
/-- PEA_READ (R346). -/
def execPeaRead (m : Fin 4) (errs : List U8) (s : State) : Result := s.run (command m 0x0B02 .sedge (peaRead m errs))
/-- PEA_FREEZE (R339). -/
def execPeaFreeze (m : Fin 4) (s : State) : Result := s.run (command m 0x0B03 .sedge (peaFreeze m))
/-- PEA_SET_CONFIG (R346). -/
def execPeaSetConfig (m : Fin 4) (s : State) : Result := s.run (command m 0x0B04 .sedge (peaSetConfig m))
/-- PEA_CTR_READ (R346). -/
def execPeaCtrRead (m : Fin 4) (s : State) : Result := s.run (command m 0x0B05 .sedge (peaCtrRead m))
/-- PEA_CTR_INCREMENT (R346). -/
def execPeaCtrIncrement (m : Fin 4) (s : State) : Result := s.run (command m 0x0B06 .sedge (peaCtrIncrement m))
/-- PEA_ACK_ERROR (R316). -/
def execPeaAckError (m : Fin 4) (s : State) : Result := s.run (command m 0x0B07 .carr (peaAckError m))
/-- PEA_GET_RECOVERY (R346). -/
def execPeaGetRecovery (m : Fin 4) (s : State) : Result := s.run (command m 0x0B08 .sedge (peaGetRecovery m))
/-- PEA_CLEAR_COUNTS (R346). -/
def execPeaClearCounts (m : Fin 4) (s : State) : Result := s.run (command m 0x0B09 .sedge (peaClearCounts m))

end Sys2Proof.Machine
end

