-- ==== Sys2Proof/Machine/Recovery.lean ====
section
/-! DEFINITION. What a start recovers from the Peat store: the LEGAL journal, the ledger ring, the counters and the legal log
(13_peat_store.md R324 to R326, R341; 20_recorder_replay.md R521, R525). -/

namespace Sys2Proof.Machine

/-! ### Lines -/

/-- The bytes of logical line `n` as stored. -/
def lineOf (m : Memory) (n : Nat) : List U8 := Memory.readN m (64 * n) 64
/-- A line of 64 zero bytes: never written. -/
def lineBlank (l : List U8) : Bool := l.all fun x => x == 0
/-- The lines of a range that hold a byte other than 0. -/
def listedLines (m : Memory) (lo hi : Nat) : List Nat :=
  ((m.filter fun c => decide (64 * lo ≤ c.1 ∧ c.1 < 64 * (hi + 1))).map fun c => c.1 / 64).eraseDups
/-- Line `i` of the journal ring. -/
def ringLine (m : Memory) (i : Nat) : List U8 := lineOf m (64 + i % 32768)

/-! ### Epochs (R324) -/

/-- An epoch found valid. -/
structure SealedEpoch where
  epoch : Nat := 0
  kind : Nat := 0
  stamp : Nat := 0
  rtc : Nat := 0
  items : List (U32 × Acc) := []
  next : Nat := 0
  crc : Nat := 0
  prev : Nat := 0
deriving DecidableEq, Repr

/-- The items of an ITEMS line. -/
def lineItems (l : List U8) : List (U32 × Acc) :=
  if byteAt l 0 = 1 then
    (List.range (min 3 (byteAt l 1).toNat)).map fun k => (BitVec.ofNat 32 (natAt l (8 + 16 * k) 4), BitVec.ofNat 96 (natAt l (12 + 16 * k) 12))
  else []
/-- Read an epoch from ring position `pos`: `k` lines read so far, their bytes 0 to 59 and their items. -/
def readEpochAux (m : Memory) (pos epoch : Nat) : Nat → Nat → List U8 → List (U32 × Acc) → Option SealedEpoch
  | 0, _, _, _ => none
  | f + 1, k, bytes, items =>
    let l := ringLine m (pos + k)
    if !lineValid l || natAt l 2 2 != k || natAt l 4 4 != epoch then none
    else if byteAt l 0 = 2 then
      if natAt l 24 2 = k ∧ natAt l 28 4 = (crc32c bytes).toNat then
        some { epoch := epoch, kind := (byteAt l 26).toNat, stamp := natAt l 8 8, rtc := natAt l 16 8, items := items
               next := (pos + k + 1) % 32768, crc := natAt l 60 4, prev := natAt l 32 4 }
      else none
    else if byteAt l 0 = 1 ∨ (k = 0 ∧ (byteAt l 0 = 3 ∨ byteAt l 0 = 4)) then
      readEpochAux m pos epoch f (k + 1) (bytes ++ l.take 60) (items ++ lineItems l)
    else none
/-- The valid epoch that begins at ring position `pos`. -/
def readEpoch (m : Memory) (pos : Nat) : Option SealedEpoch := readEpochAux m pos (natAt (ringLine m pos) 4 4) 1026 0 [] []
/-- Ring positions whose line has a type. -/
def typedLines (m : Memory) (t : U8) : List Nat :=
  (m.filter fun c => decide (4096 ≤ c.1 ∧ c.1 < 64 * 32832 ∧ c.1 % 64 = 0) && c.2 == t).map fun c => c.1 / 64 - 64
/-- Epoch number `x` is newer than `y`; numbers last longer than the device (R323). -/
def newestEpoch (l : List SealedEpoch) : Option SealedEpoch :=
  l.foldl (fun a e => match a with | some x => if x.epoch < e.epoch then some e else a | none => some e) none
/-- The newest valid checkpoint (R324 step 1). -/
def newestCheckpoint (m : Memory) : Option SealedEpoch :=
  newestEpoch ((typedLines m 4).filterMap fun p => match readEpoch m p with | some e => if e.kind = 1 then some e else none | none => none)
/-- Put items over older ones. -/
def overItems (old new : List (U32 × Acc)) : List (U32 × Acc) := (old.filter fun e => !(new.any fun x => x.1 == e.1)) ++ new
/-- Apply the epochs that follow (R324 steps 2 and 3): the items so far, the last epoch applied. -/
def followEpochs (m : Memory) : Nat → List (U32 × Acc) → SealedEpoch → List (U32 × Acc) × SealedEpoch
  | 0, items, e => (items, e)
  | f + 1, items, e =>
    match readEpoch m e.next with
    | some x => if x.epoch = e.epoch + 1 ∧ x.prev = e.crc then followEpochs m f (overItems items x.items) x else (items, e)
    | none => (items, e)
/-- A valid seal of an epoch beyond the first failing one lies in the ring (R325 outcome 4). -/
def newerBeyond (m : Memory) (e : Nat) : Bool :=
  (typedLines m 2).any fun p => lineValid (ringLine m p) && decide (e + 1 < natAt (ringLine m p) 4 4)
/-- A line of the ring that is invalid and lies before the head (R325 outcome 4): one written, more than an epoch's lines past the head. -/
def invalidBefore (m : Memory) (head : Nat) : Option Nat :=
  (listedLines m 64 32831).find? fun n => !lineValid (lineOf m n) && decide (1026 ≤ (n - 64 + 32768 - head % 32768) % 32768)
/-- The lines past the head begin with PF_BEGIN (R325 outcome 3). -/
def tornCommit (m : Memory) (e : SealedEpoch) : Bool :=
  let l := ringLine m e.next
  lineValid l && byteAt l 0 == 3 && natAt l 4 4 == e.epoch + 1
/-- The outcome of R325. -/
def recoveryOutcome (m : Memory) (e : SealedEpoch) : Nat :=
  if (invalidBefore m e.next).isSome || newerBeyond m e.epoch then 4
  else if tornCommit m e then 3
  else if e.kind = 4 ∨ e.kind = 5 then 0
  else if e.kind = 2 ∨ e.kind = 3 then 1
  else 2

/-! ### Items back into the registers -/

/-- Byte `k` of an item identity, 3 the scope. -/
def idByte (id : U32) (k : Nat) : Nat := id.toNat / 256 ^ k % 256
/-- Give a tariff register a value. -/
def putTariff (t q : Nat) (v : Acc) (x : Vector TariffReg 16) : Vector TariffReg 16 :=
  vmapIdx x fun k r => if k.val = t then (if q = 1 then { r with del := v } else { r with rec_ := v }) else r
/-- Give a register its accumulator. -/
def putAcc (v : Acc) (r : Register) : Register := { r with acc := v }
/-- An item of a session. -/
def putSessionItem (n : Fin 16) (t q : Nat) (v : Acc) (b : Block) : Block :=
  let w : U64 := v.setWidth 64
  if t ≠ 0xFF then updLegal n (fun c => { c with tariffs := putTariff t q v c.tariffs }) b
  else match q with
    | 0x01 => updLegal n (fun c => { c with del := v }) b
    | 0x02 => updLegal n (fun c => { c with rec_ := v }) b
    | 0x05 => updLegal n (fun c => { c with attImp := v }) b
    | 0x06 => updLegal n (fun c => { c with attExp := v }) b
    | 0x10 => updLedger n (fun l => { l with reserved := w }) b
    | 0x11 => updLedger n (fun l => { l with debited := w }) b
    | 0x12 => updLedger n (fun l => { l with uncovered := w, uncoveredFlag := w != 0 }) b
    | 0x13 => updLedger n (fun l => { l with returned := w }) b
    | 0x14 => updLegal n (fun c => { c with cDel := v.toNat * (1000 * 2 ^ 32) }) (updLedger n (fun l => { l with due := w }) b)
    | 0x15 => updLegal n (fun c => { c with cRec := v.toNat * (1000 * 2 ^ 32) }) b
    | 0x20 => updLegal n (fun c => { c with number := v.setWidth 32, started := v != 0 }) { b with sess := vupd b.sess n fun s => { s with number := v.setWidth 32 } }
    | 0x30 => updLegal n (fun c => { c with token := padTo 16 (b64 w ++ c.token.drop 8) }) b
    | 0x31 => updLegal n (fun c => { c with token := padTo 16 (c.token.take 8 ++ b64 w) }) b
    | _ => b
/-- One item of the journal returns (R324, R348). -/
def putItem (e : U32 × Acc) (b : Block) : Block :=
  let v := e.2
  let t := idByte e.1 1
  let q := idByte e.1 0
  let n : Fin 16 := ⟨idByte e.1 2 % 16, Nat.mod_lt _ (by decide)⟩
  let f : Fin 2 := ⟨idByte e.1 2 % 2, Nat.mod_lt _ (by decide)⟩
  match idByte e.1 3 with
  | 0x01 => if q = 1 then { b with acc := { b.acc with nodeDel := vupd b.acc.nodeDel n (putAcc v) } } else { b with acc := { b.acc with nodeRec := vupd b.acc.nodeRec n (putAcc v) } }
  | 0x02 => if t = 0xFF then b else updLegal n (fun c => { c with connTariffs := putTariff t q v c.connTariffs }) b
  | 0x03 =>
    if t ≠ 0xFF then updSlt (fun s => { s with hubTariffs := putTariff t q v s.hubTariffs }) b
    else { b with acc := match q with
      | 1 => { b.acc with hubDel := putAcc v b.acc.hubDel } | 2 => { b.acc with hubRec := putAcc v b.acc.hubRec }
      | 7 => { b.acc with unattImp := putAcc v b.acc.unattImp } | _ => { b.acc with unattExp := putAcc v b.acc.unattExp } }
  | 0x04 => if q = 3 then { b with acc := { b.acc with fdrImp := vupd b.acc.fdrImp f (putAcc v) } } else { b with acc := { b.acc with fdrExp := vupd b.acc.fdrExp f (putAcc v) } }
  | 0x05 => putSessionItem n t q v b
  | 0x0F => match q with
    | 0x21 => updSlt (fun s => { s with sessionNext := v.setWidth 32 }) b
    | 0x22 => updSlt (fun s => { s with readingSeq := v.setWidth 32 }) b
    | _ => b
  | _ => b
/-- An item of the last applied epoch is unproven (R325). -/
def flagItem (e : U32 × Acc) (b : Block) : Block :=
  let q := idByte e.1 0
  let n : Fin 16 := ⟨idByte e.1 2 % 16, Nat.mod_lt _ (by decide)⟩
  let f : Fin 2 := ⟨idByte e.1 2 % 2, Nat.mod_lt _ (by decide)⟩
  let fl := fun (r : Register) => { r with unproven := true }
  let a := b.acc
  match idByte e.1 3 with
  | 0x01 => { b with acc := { a with
      nodeDel := if q = 1 then vupd a.nodeDel n fl else a.nodeDel, nodeRec := if q = 1 then a.nodeRec else vupd a.nodeRec n fl } }
  | 0x02 => updLegal n (fun c => { c with connUnproven := true }) b
  | 0x03 =>
    if q = 7 ∨ q = 8 then { b with acc := { a with unattImp := if q = 7 then fl a.unattImp else a.unattImp, unattExp := if q = 8 then fl a.unattExp else a.unattExp } }
    else { b with acc := { a with hubDel := if q = 1 then fl a.hubDel else a.hubDel, hubRec := if q = 1 then a.hubRec else fl a.hubRec } }
  | 0x04 => { b with acc := { a with
      fdrImp := if q = 3 then vupd a.fdrImp f fl else a.fdrImp, fdrExp := if q = 3 then a.fdrExp else vupd a.fdrExp f fl } }
  | 0x05 => updLegal n (fun c => if q = 5 ∨ q = 6 then { c with attUnproven := true } else { c with unproven := true }) b
  | _ => b
/-- Every energy register is unproven (R325 outcome 3). -/
def flagAll (b : Block) : Block :=
  let fl := fun (r : Register) => { r with unproven := true }
  let a := b.acc
  { b with
    acc := { a with
      nodeDel := vmap a.nodeDel fl, nodeRec := vmap a.nodeRec fl, fdrImp := vmap a.fdrImp fl, fdrExp := vmap a.fdrExp fl
      hubDel := fl a.hubDel, hubRec := fl a.hubRec, unattImp := fl a.unattImp, unattExp := fl a.unattExp }
    legal := vmap b.legal fun c => { c with unproven := true, attUnproven := true, connUnproven := true } }
/-- An uncorrectable error found by recovery (R325 outcome 4, R316). -/
def recoveryError (line : Nat) (b : Block) : Block :=
  let b := irq 388 (updPea (fun p => { p with ue := true, ueLine := BitVec.ofNat 32 line, ueCnt := satInc p.ueCnt }) b)
  let b := legalLog 0x0050 wBittern ([1, 0, 0, 0] ++ leBytes 4 line ++ b32 b.pea.ueCnt) b
  forAll ((b.bri.wallets.filter fun e => e.2.state == 1 || e.2.state == 2).map (·.1)) unproveWallet b
/-- What an outcome flags (R325), with source 396 for outcomes 2 to 4. -/
def flagOutcome (o : Nat) (last : SealedEpoch) (b : Block) : Block :=
  if o < 2 then b
  else
    let old := b
    let b := if o = 3 then flagAll b else forAll last.items flagItem b
    irq 396 (onlyIf (o == 4) (recoveryError ((invalidBefore b.pea.lines last.next).getD (64 + last.next))) (noteUnproven old b))

/-! ### The ledger (R326) -/

/-- A SELF line (R377). -/
structure SelfEvent where
  seq : Nat := 0
  line : Nat := 0
  event : Nat := 0
  conn : Nat := 0
  wallet : Nat := 0
  amount : Nat := 0
  ledgerAfter : Nat := 0
  session : Nat := 0
  msgSeq : Nat := 0
deriving DecidableEq, Repr
/-- The valid SELF lines of the ledger ring. -/
def selfEvents (m : Memory) : List SelfEvent :=
  (listedLines m 43520 47615).filterMap fun n =>
    let l := lineOf m n
    if lineValid l ∧ byteAt l 0 = 5 then
      some { seq := natAt l 4 8, line := n - 43520, event := (byteAt l 12).toNat, conn := (byteAt l 13).toNat, wallet := natAt l 14 2
             amount := natAt l 16 8, ledgerAfter := natAt l 32 8, session := natAt l 40 4, msgSeq := natAt l 44 4 }
    else none
/-- Insert by sequence. -/
def insertEvent (x : SelfEvent) : List SelfEvent → List SelfEvent
  | [] => [x]
  | y :: r => if x.seq ≤ y.seq then x :: y :: r else y :: insertEvent x r
/-- The part of an ordered list before its first gap. -/
def untilGap : List SelfEvent → List SelfEvent
  | [] => []
  | x :: r => match r with
    | [] => [x]
    | y :: _ => if y.seq = x.seq + 1 then x :: untilGap r else [x]
/-- The home record in a line (R369). -/
def walletFrom (l : List U8) : Wallet :=
  { balance := BitVec.ofNat 64 (natAt l 0 8), toppedUp := BitVec.ofNat 64 (natAt l 8 8), refunded := BitVec.ofNat 64 (natAt l 16 8)
    spent := BitVec.ofNat 64 (natAt l 24 8), ledgerSeq := BitVec.ofNat 64 (natAt l 32 8), lastSeq := BitVec.ofNat 32 (natAt l 40 4), state := byteAt l 44 }
/-- The newest valid slot of a twin-slot record (R320). -/
def twinRead (m : Memory) (line : Nat) : Option (List U8) :=
  let x := lineOf m line
  let y := lineOf m (line + 1)
  if lineValid x ∧ (!lineValid y ∨ !newerGen (natAt y 56 4) (natAt x 56 4)) then some x
  else if lineValid y then some y else none
/-- The wallets by their home records. -/
def homeWallets (m : Memory) : List (Nat × Wallet) :=
  ((listedLines m 35328 43519).map fun n => (n - 35328) / 2).eraseDups.foldl (fun ws w => match twinRead m (35328 + 2 * w) with
    | some l => sput {} ws w (walletFrom l)
    | none => sput {} ws w { state := 3 }) []
/-- What was reserved for the session that event `e` belongs to: by its reservation line among `es`, else by the restored ledger. A
session whose reservation is discarded has none. -/
def reservedFor (es : List SelfEvent) (b : Block) (e : SelfEvent) : Option Nat :=
  let n : Fin 16 := ⟨e.conn % 16, Nat.mod_lt _ (by decide)⟩
  match es.find? fun x => x.event == 2 && x.conn == e.conn && x.session == e.session with
  | some x => some x.amount
  | none => if (legalOf b n).number.toNat = e.session ∧ (ledgerOf b n).reserved ≠ 0 then some (ledgerOf b n).reserved.toNat else none
/-- The wallet side of one ledger event (R326). A return brings back what its session did not spend; with its reservation
discarded nothing had left the wallet (DEDUCED from R32, log entry 177). -/
def replayWallet (es : List SelfEvent) (b : Block) (e : SelfEvent) (x : Wallet) : Wallet :=
  let v := BitVec.ofNat 64 e.amount
  let x := { x with ledgerSeq := BitVec.ofNat 64 e.seq }
  match e.event with
  | 1 => { x with balance := x.balance + v, toppedUp := x.toppedUp + v, lastSeq := BitVec.ofNat 32 e.msgSeq, state := if x.state = 0 then 1 else x.state }
  | 4 => { x with balance := x.balance - v, refunded := x.refunded + v, lastSeq := BitVec.ofNat 32 e.msgSeq }
  | 2 => { x with balance := x.balance - v }
  | 3 => match reservedFor es b e with
    | some r => { x with balance := x.balance + v, spent := x.spent + BitVec.ofNat 64 (r - e.amount) }
    | none => x
  | _ => x
/-- Apply an event to its wallet when it lies above the home record's sequence. -/
def replayEvent (es : List SelfEvent) (b : Block) (e : SelfEvent) (ws : List (Nat × Wallet)) : List (Nat × Wallet) :=
  let x := sget {} ws e.wallet
  if 4096 ≤ e.wallet ∨ e.seq ≤ x.ledgerSeq.toNat then ws else sput {} ws e.wallet (replayWallet es b e x)
/-- A debit or a reservation that prices energy the restored registers do not hold. -/
def priceless (limit : Nat) (e : SelfEvent) : Bool := (e.event == 2 || e.event == 5) && decide (limit < e.seq)
/-- The ledger of the open session on connector `n`: its last event's balance. -/
def recoverLedger (es : List SelfEvent) (n : Fin 16) (b : Block) : Block :=
  let c := legalOf b n
  let mine := es.filter fun e => e.conn == n.val && e.session == c.number.toNat && (e.event == 2 || e.event == 3 || e.event == 5)
  if c.number = 0 then updLedger n (fun _ => {}) b
  else match mine.getLast? with
    | some e =>
      if e.event = 3 then updLedger n (fun l => { l with
          state := 0, balance := 0, returned := BitVec.ofNat 64 e.amount, debited := BitVec.ofNat 64 (l.reserved.toNat - e.amount) }) b
      else updLegal n (fun c => { c with mode := 3 })
        (updLedger n (fun l => { l with wallet := BitVec.ofNat 12 e.wallet, state := 1, balance := BitVec.ofNat 64 e.ledgerAfter }) b)
    | none => b
/-- The totals of Brine from wallets and ledgers (R376). -/
def recoverTotals (b : Block) : Block :=
  let sum := fun (f : Wallet → U64) => BitVec.ofNat 64 (b.bri.wallets.map fun e => (f e.2).toNat).sum
  let open_ := (b.bri.ledgers.toList.filter fun l => l.state != 0).map fun l => l.debited.toNat
  { b with bri := { b.bri with topup := sum (·.toppedUp), refund := sum (·.refunded), spent := sum (·.spent) + BitVec.ofNat 64 open_.sum } }
/-- Recover wallets and ledgers against the restored LEGAL state, whose ledger sequence is `limit` (R326). -/
def recoverCredit (limit : Nat) (b : Block) : Block :=
  let m := b.pea.lines
  let ws := homeWallets m
  let found := (selfEvents m).foldl (fun l e => insertEvent e l) []
  let low := (ws.map fun e => e.2.ledgerSeq.toNat).foldl min (2 ^ 64)
  let run := untilGap (found.filter fun e => decide (low < e.seq) || ws.isEmpty)
  let gone := run.filter (priceless limit)
  let kept := run.filter fun e => !priceless limit e
  let top := found.foldl (fun a e => if a.seq ≤ e.seq then e else a) {}
  let usable := found.filter fun e => !priceless limit e
  let b := { b with bri := { b.bri with wallets := kept.foldl (fun ws e => replayEvent usable b e ws) ws, seq := BitVec.ofNat 64 (max top.seq limit) } }
  let b := updPea (fun p => { p with
    ledgerHead := if found.isEmpty then 0 else (top.line + 1) % 4096, discarded := BitVec.ofNat 16 (min 65535 gone.length), ledgerDiscard := !gone.isEmpty }) b
  let b := recoverTotals (forAll (List.finRange 16) (recoverLedger usable) b)
  let b := forAll gone (fun e => legalLog 0x0031 wBrine (leBytes 8 e.seq ++ leBytes 8 e.amount ++ leBytes 2 e.wallet)) b
  forAll (gone.map (·.wallet)).eraseDups saveWallet b

/-! ### Counters and logs -/

/-- The value of counter `k` in its lines (R341). -/
def counterFrom (m : Memory) (k : Fin 64) : Nat :=
  ((List.range 4).map fun j =>
    let l := lineOf m (56832 + 4 * k.val + j)
    let v := natAt l 0 4
    if lineValid l && (byteAt l 4).toNat == k.val && natAt l 56 4 == 2 ^ 32 - 1 - v && decide (v ≤ ctrMax) then v else 0).foldl max 0
/-- The counters and their warning and exhaustion bits. -/
def recoverCounters (b : Block) : Block :=
  let vals := (List.finRange 64).map (counterFrom b.pea.lines)
  updPea (fun p => { p with
    ctr := vgen 64 fun k => BitVec.ofNat 32 (counterFrom b.pea.lines k)
    ctrExh := BitVec.ofNat 64 (bitsNat (vals.map fun v => decide (ctrMax ≤ v))), ctrWarn := BitVec.ofNat 64 (bitsNat (vals.map fun v => decide (ctrWarnAt ≤ v))) }) b
/-- The valid legal entries: sequence and code. -/
def legalEntries (m : Memory) : List (Nat × Nat × Nat) :=
  (listedLines m 47616 55807).filterMap fun n =>
    let l := lineOf m n
    if lineValid l && natAt l 24 2 != 0 && natAt l 0 8 % 8192 == n - 47616 then some (natAt l 0 8, natAt l 24 2, natAt l 36 1) else none
/-- Blank a line: zeros and their check value (R529). -/
def blankLine : List U8 := sealLine []
/-- Bittern takes up its logs (R521, R525, R529): the last entry, a torn head, the floor; a clear cut short is completed. The flag
tells that a torn head was skipped. -/
def recoverLogs (b : Block) : Block × Bool :=
  let m := b.pea.lines
  let es := legalEntries m
  let next := match es with | [] => 0 | _ => (es.map fun e => e.1).foldl max 0 + 1
  let head := lineOf m (47616 + next % 8192)
  let torn := !lineValid head && !lineBlank head
  let clears := (es.filter fun e => e.2.1 == 1 && e.2.2 == 0).map fun e => e.1
  let floor := match clears with | [] => (es.map fun e => e.1).foldl min (match es with | [] => 0 | _ => next) | _ => clears.foldl max 0
  let stale := (es.filter fun e => decide (e.1 < floor)).map fun e => e.1
  let b := { b with btn := { b.btn with
    legalNext := BitVec.ofNat 64 (if torn then next + 1 else next), legalFloor := BitVec.ofNat 64 floor
    legalWrapped := clears.isEmpty && decide (0 < floor), tornCnt := if torn then satInc b.btn.tornCnt else b.btn.tornCnt
    clearing := !stale.isEmpty, opNext := b.btn.lease, opFloor := b.btn.lease } }
  let lines := stale.map fun s => 47616 + s % 8192
  let b := forAll lines (fun n => peatRequest rqBittern n [blankLine] (if lines.getLast? = some n then .clearDone else .lines)) b
  (b, torn)

/-! ### The whole recovery -/

/-- Where the journal stands after recovery: head, last epoch, chain. -/
def noteHead (o : Nat) (last : SealedEpoch) (items : List (U32 × Acc)) (b : Block) : Block :=
  updPea (fun p => { p with
    ready := true, outcome := BitVec.ofNat 3 o, head := last.next, planned := BitVec.ofNat 32 last.epoch, epoch := BitVec.ofNat 32 last.epoch
    prevSeal := BitVec.ofNat 32 last.crc, lastItems := items, deltas := 59, lastDelta := none, recStamp := BitVec.ofNat 64 last.stamp
    recEpoch := BitVec.ofNat 32 last.epoch, recRtc := BitVec.ofNat 64 last.rtc, recKind := BitVec.ofNat 8 last.kind }) b
/-- Recover the store (R324 to R326, R341, R521): the flag tells that a torn head of the legal log was skipped. A journal that was
never written recovers with outcome 0. -/
def recoverPeat (b : Block) : Block × Bool :=
  let m := b.pea.lines
  let b := recoverCounters b
  let b :=
    match newestCheckpoint m with
    | some c =>
      let r := followEpochs m 32768 c.items c
      let o := recoveryOutcome m r.2
      let limit := match r.1.find? fun e => e.1 == itemId 0xF 0 0xFF 0x23 with | some e => e.2.toNat | none => 0
      let b := recoverCredit limit (forAll r.1 putItem b)
      flagOutcome o r.2 (noteHead o r.2 r.1 b)
    | none =>
      let o := if typedLines m 2 = [] then 0 else 4
      flagOutcome o {} (noteHead o {} [] (recoverCredit 0 b))
  recoverLogs b

end Sys2Proof.Machine
end

