-- ==== Sys2Proof/Machine/Billing.lean ====
section
/-! DEFINITION. The signature engine, readings held and sent, tamper evidence, and the commands and registers of Saltern and
Brine (14_billing.md R351, R352, R356, R359 to R371, R376 to R383; 15_keys.md R405; 17_causeway_queues.md R459). -/

namespace Sys2Proof.Machine

/-! ### Signing (R360, R362, R405) -/

/-- Change Brine. -/
def updBri (f : Brine → Brine) (b : Block) : Block := { b with bri := f b.bri }
/-- Change the backup domain. -/
def updBackup (f : Backup → Backup) (b : Block) : Block := { b with backup := f b.backup }

/-- The reading, signed now: with the legal key, in replay mode with the replay key (R360). -/
def signReading (b : Block) (r : Reading) : Reading :=
  let r := { r with rtc := b.backup.rtc, retryAt := none }
  { r with signature := signWith b 1 (readingReg b) (readingBody b r) }

/-- A signature of reading `r` has been made: it is sent, and the items of a session end with it (R349, R362). -/
def readingSigned (r : Reading) (b : Block) : Block :=
  let b := sendReading (signReading b r) (updSlt (fun s => { s with signing := s.signing.filter fun x => x.sequence != r.sequence }) b)
  if r.kind = 2 then dropItems ⟨r.connector.toNat % 16, Nat.mod_lt _ (by decide)⟩ r.session b else b

/-- A signature of reading `r` has failed: it is tried again after 1 ms, twice, and then held unsigned (R362). -/
def readingFailed (r : Reading) (b : Block) : Block :=
  let b := updSlt (fun s => { s with signFailures := BitVec.ofNat 24 (min (2 ^ 24 - 1) (s.signFailures.toNat + 1)) }) b
  let rest := b.slt.signing.filter fun x => x.sequence != r.sequence
  if r.failures < 2 then
    let again := { r with failures := r.failures + 1, retryAt := some (now b + 1500000) }
    updSlt (fun s => { s with signing := s.signing.map fun x => if x.sequence = r.sequence then again else x }) b
  else holdUnsigned r (updSlt (fun s => { s with signing := rest }) b)

/-- The reading that waits with sequence number `q`. -/
def signingOf (b : Block) (q : U32) : Option Reading := b.slt.signing.find? fun r => r.sequence == q

/-- Unit `u` ends its request `j` with `x`. Without keys no signature can be made. -/
def unitEnds (u : Fin 4) (j : EngineJob) (x : EngineEnd) (b : Block) : Block :=
    let b := remaskFreed { b with key := { b.key with units := vset b.key.units u none, ends := vset b.key.ends u (some x) } }
    let b := engineDispatch b
    match j with
    | .other => b
    | .tls n => tlsStepDone n (x == .done) b
    | .reading q => match signingOf b q with
      | none => b
      | some r => if x == .done && keysUp b then readingSigned r b else readingFailed r b
/-- SIGN_ENGINE_COMPLETE: unit `u` ends its request, well or not (R405), at the publication instant of R64. -/
def signEngineComplete (u : Fin 4) (good : Bool) (b : Block) : Block :=
  match vget b.key.units u with
  | none => b
  | some w => afterTicks w.at_ w.op.ticks (unitEnds u w.job (if good then .done else .failed)) b

/-- The instant at which the next retry is due, the earliest that a reading waits for. -/
def nextRetry (l : List Reading) : Option U64 :=
  (l.filterMap (·.retryAt)).foldl (fun a t => match a with | none => some t | some x => some (if t.toNat < x.toNat then t else x)) none
/-- SIGN_RETRY (R362): 1 ms after its failure the reading that has waited longest for a retry goes to the engine again. -/
def signRetry (b : Block) : Block :=
  match nextRetry b.slt.signing with
  | none => b
  | some t => match b.slt.signing.find? fun r => r.retryAt == some t with
    | none => b
    | some r => atInstant t.toNat (fun b => engineSubmit 0 (.reading r.sequence) .p256
        (updSlt (fun s => { s with signing := s.signing.map fun x => if x.sequence = r.sequence then { x with retryAt := none } else x }) b)) b

/-- Buffers that the parts of a reading take (R359, R362). -/
def Reading.parts (r : Reading) : Nat := (128 + 16 * r.entries.length + 47) / 48
/-- A reading kept unsigned for want of buffers goes to the engine once they are free (R365). -/
def signWhenFree (b : Block) : Block :=
  match b.slt.unsigned_.find? (·.noBuffer) with
  | none => b
  | some r =>
    if keysUp b && qmgReady b && decide (r.parts ≤ freeUnreserved b) then
      let r' := { r with noBuffer := false }
      engineSubmit 0 (.reading r.sequence) .p256 (updSlt (fun s => { s with
        unsigned_ := s.unsigned_.filter fun x => x.sequence != r.sequence, signing := s.signing ++ [r'] }) b)
    else b
/-- HELD_READINGS_FLUSH (R365). -/
def heldReadingsFlush (b : Block) : Block := if b.slt.held = [] then b else flushHeld b

/-! ### Tamper evidence (R366, R367) -/

/-- The 8 bytes of an event. -/
def tamperEvent (rtc : U64) (input : Nat) (state : Bool) : List U8 :=
  leBytes 4 (rtc.toNat / 32768) ++ leBytes 2 (rtc.toNat % 32768) ++ [BitVec.ofNat 8 input, BitVec.ofNat 8 (b2n state)]
/-- Store an event: a full record overwrites entry 31 (R366). -/
def storeTamper (e : List U8) (x : Backup) : Backup :=
  if x.events.length < 32 then { x with events := x.events ++ [e] }
  else { x with events := x.events.take 31 ++ [e], overflow := satAdd x.overflow 1 }
/-- Input `i` has shown the same new state on two consecutive samples. -/
def newTamperState (x : Backup) (now_ : BitVec 4) (i : Nat) : Bool :=
  x.enabled.getLsbD i && (now_.getLsbD i == x.lastSample.getLsbD i) && (now_.getLsbD i != x.open_.getLsbD i)
/-- TAMPER_SAMPLE (R366): 4,096 cycles of the clock later the inputs are sampled; a 1 is an open contact. -/
def tamperSample (levels : BitVec 4) (b : Block) : Block :=
  updBackup (fun x =>
    let x := { x with rtc := x.rtc + 4096 }
    let news := (List.range 4).filter (newTamperState x levels)
    let x := news.foldl (fun x i => storeTamper (tamperEvent x.rtc i (levels.getLsbD i)) x) x
    { x with
      open_ := BitVec.ofNat 4 (bitsNat ((List.range 4).map fun i => if news.contains i then levels.getLsbD i else x.open_.getLsbD i))
      lastSample := levels }) b

/-- The tamper events in legal entries whose lines are not yet checked. -/
def tamperInFlight (b : Block) : List (List U8) :=
  (b.btn.legalWaiting.filter fun l => natAt l 16 2 == 4).map fun l => slice l 20 8
/-- The VBAT_LOST entry, with the first legal time available (R367). -/
def vbatLog (b : Block) : Block :=
  if b.rst.carr ∧ b.backup.logWait ∧ timeSource b ≠ 0 then
    legalLog 0x0003 wCarr (leBytes 8 (legalSecs b (now b)))
      (updBackup (fun x => { x with logWait := false }) b)
  else b
/-- TAMPER_EVENT_MOVE (R367): Carr writes every stored event to the legal log and sets the tamper flag. -/
def tamperMove (b : Block) : Block :=
  if !b.rst.carr then b
  else
    let b := vbatLog b
    let es := b.backup.events.filter fun e => !(tamperInFlight b).contains e
    if es = [] then b
    else irq 420 (saveLegalConfig (updSlt (fun s => { s with tamper := true }) (forAll es (fun e b => legalLog 0x0004 wCarr e (traceItem 11 0 (now b) e b)) b)))

/-! ### Calendar messages (R351, R352) -/

/-- Days of a month in a leap year. -/
def monthDays (m : Nat) : Nat := [31, 29, 31, 30, 31, 30, 31, 31, 30, 31, 30, 31].getD (m - 1) 0
/-- A date that exists in a leap year. -/
def dateExists (m d : Nat) : Bool := decide (1 ≤ m ∧ m ≤ 12 ∧ 1 ≤ d ∧ d ≤ monthDays m)
/-- Offset of point `p` of day profile `k`. -/
def pointAt (k p : Nat) : Nat := 112 + 48 * k + 4 * p
/-- Point `p` of day profile `k` is valid. -/
def pointValid (c : List U8) (k p : Nat) : Bool := calB c (pointAt k p + 3) != 0
/-- A day profile is valid when one of its points is (DEDUCED, log entry 96: the profile has no valid byte of its own). -/
def dayValid (c : List U8) (k : Nat) : Bool := decide (k < 16) && (List.range 12).any (pointValid c k)
/-- Week profile `w` is valid. -/
def weekValid (c : List U8) (w : Nat) : Bool := decide (w < 8) && calB c (48 + 8 * w + 7) != 0
/-- The valid seasons. -/
def validSeasons (c : List U8) : List Nat := (List.range 4).filter fun k => (seasonStart c k).isSome
/-- The valid special days. -/
def validSpecials (c : List U8) : List Nat := (List.range 64).filter fun k => calB c (specialAt k + 5) != 0
/-- Rule 2. -/
def seasonsOk (c : List U8) : Bool :=
  let ks := validSeasons c
  ks != [] && decide (ks.map (seasonStart c)).Nodup &&
    ks.all fun k => dateExists (calB c (32 + 4 * k)) (calB c (33 + 4 * k)) && weekValid c (calB c (34 + 4 * k))
/-- Rule 3. -/
def weeksOk (c : List U8) : Bool :=
  (List.range 8).all fun w => !weekValid c w || (List.range 7).all fun d => dayValid c (calB c (48 + 8 * w + d))
/-- Rule 4 for day profile `k`. -/
def dayOk (c : List U8) (k : Nat) : Bool :=
  !dayValid c k || (pointValid c k 0 && calN c (pointAt k 0) 2 == 0 &&
    (List.range 11).all fun p => !pointValid c k (p + 1) ||
      (pointValid c k p && decide (calN c (pointAt k p) 2 < calN c (pointAt k (p + 1)) 2 ∧ calN c (pointAt k (p + 1)) 2 ≤ 1439)))
/-- Rule 5. -/
def specialsOk (c : List U8) : Bool :=
  let ks := validSpecials c
  decide (ks.map fun k => slice c (specialAt k) 4).Nodup && ks.all fun k => dayValid c (calB c (specialAt k + 4))
/-- Rule 6. -/
def pricesOk (c : List U8) : Bool :=
  (List.range 16).all fun k => !dayValid c k || (List.range 12).all fun p => !pointValid c k p ||
    decide (calB c (pointAt k p + 2) < 16 ∧ priceDel c (calB c (pointAt k p + 2)) ≤ 1000000000 ∧ priceRec c (calB c (pointAt k p + 2)) ≤ 1000000000)
/-- Rule 7: the boundary is taken in the local time of the message's own offset (DEDUCED from R354, log entry 96: interval boundaries come from
the new calendar). Without legal time no instant lies ahead. -/
def activationOk (b : Block) (c : List U8) : Bool :=
  let act := calN c 8 8
  act == 0 || (timeSource b != 0 && decide (legalSecs b (now b) + 60 ≤ act) && localSecs c act % (b.slt.interval.toNat * 60) == 0)
/-- No wallet and no session ledger holds credit. -/
def noCredit (b : Block) : Bool := (b.bri.wallets.all fun e => e.2.balance == 0) && b.bri.ledgers.toList.all fun l => l.balance == 0
/-- Rule 8. -/
def currencyOk (b : Block) (c : List U8) : Bool := (b.slt.calActive != [] && slice c 26 3 == slice b.slt.calActive 26 3) || noCredit b
/-- Rule 9, with the kind, version, offset and exponent that R351 requires and no other rule tests (DEDUCED, log entry 96). -/
def calendarForm (c : List U8) : Bool :=
  let off := int16 (calN c 24 2)
  calB c 0 == 1 && calB c 1 == 1 && calN c 2 2 == 0 && calN c 29 3 == 0 && off % 15 == 0 && decide (off.natAbs ≤ 840) && decide (calB c 28 ≤ 3)
/-- The number of the first failing rule of R352, none when all hold. -/
def calendarRule (b : Block) (c : List U8) : Option Nat :=
  firstFail [(1, verifySlot b 2 3 (c.take 1392) (slice c 1392 64) && calN c 16 8 == b.key.serial.toNat && calN c 4 4 == ctrPlanned b 20 + 1),
    (2, seasonsOk c), (3, weeksOk c), (4, (List.range 16).all (dayOk c)), (5, specialsOk c), (6, pricesOk c), (7, activationOk b c),
    (8, currencyOk b c), (9, calendarForm c)]

/-- A calendar or legal parameter message is refused (R381): source 424. -/
def refuseLegal (m : Fin 4) (status : Nat) (payload : List U8) (b : Block) : Block := respond m status payload (irq 424 b)

/-- The legal configuration is stored; the mailbox is answered once its line is checked. -/
def saveLegalAnswer (m : Fin 4) (payload : List U8) (b : Block) : Block := peatFree rqCarr 32832 2496 (.legal (some (m, payload))) b

/-- SLT_LOAD_CALENDAR (R351, R352): the counter goes first, then the calendar becomes the passive one. -/
def sltLoadCalendar (m : Fin 4) (b : Block) : Block :=
  let q := rN b m 0 2
  checked m [(6, queueOk q false), (hostDataCheck b q 26, hostDataCheck b q 26 == 0)] (fun b =>
    let c := padTo 1456 (hostDataBytes b q 26)
    if ctrExhausted b 20 then refuseLegal m 0x0C04 [] b
    else match calendarRule b c with
      | some r => refuseLegal m 0x0C01 [BitVec.ofNat 8 r] b
      | none =>
        let b := (ctrIncrement rqCarr 20 none (hostDataConsume q 26 b)).1
        let b := legalLog 0x0020 wCarr ([1, 0, 0, 0] ++ slice c 4 12) b
        replan (saveLegalAnswer m (slice c 4 12) (updSlt (fun s => { s with calPassive := c }) b))) b

/-- SLT_GET_CALENDAR (R382): the calendar goes out as 26 records, whose type the spec does not state (log entry 25). -/
def sltGetCalendar (m : Fin 4) (b : Block) : Block :=
  let which := rN b m 0 1
  let q := rN b m 2 2
  let c := if which = 0 then b.slt.calActive else b.slt.calPassive
  checked m [(6, queueOk q false), (0x0C08, decide (which ≤ 1) && c != [])] (fun b =>
    let r := sendRecords agSaltern q ((chunks 56 c).map fun p => mkRecord Config.calendarRecord 56 0 p) b
    if r.2 then ok m (slice c 4 12) r.1 else refuse m 0x0F04 r.1) b

/-- Interval lengths of R356. -/
def intervalOk (x : Nat) : Bool := [1, 5, 10, 15, 30, 60].contains x

/-- SLT_SET_LEGAL (R356): refused on the first that fails of signature and device, counter, sequence, values. -/
def sltSetLegal (m : Fin 4) (b : Block) : Block :=
  let c := rBytes b m 0 80
  let good := verifySlot b 2 3 (c.take 16) (slice c 16 64) && calN c 8 8 == b.key.serial.toNat && calB c 0 == 2 && calB c 1 == 1
  match firstFail [(0x0C02, good), (0x0C04, !ctrExhausted b 21), (0x0C03, calN c 4 4 == ctrPlanned b 21 + 1),
      (0x0C08, intervalOk (calB c 2) && decide (1 ≤ calB c 3 ∧ calB c 3 ≤ 60))] with
  | some st => refuseLegal m st [] b
  | none =>
    let b := (ctrIncrement rqCarr 21 none b).1
    let b := legalLog 0x0021 wCarr ([byteAt c 2, byteAt c 3, 0, 0] ++ slice c 4 4) b
    let b := updSlt (fun s => { s with pendingInterval := some (byteAt c 2), clockLimit := byteAt c 3 }) b
    replan (saveLegalAnswer m (slice c 4 4) b)

/-! ### Registers and readings by command (R382) -/

/-- A scope of R348 with its index, its registers by tariff, its totals and its flags; none when it is not valid. A session scope
is valid while the session has items. -/
def scopeRegs (b : Block) (scope index : Nat) : Option (Vector TariffReg 16 × Acc × Acc × U8) :=
  let n : Fin 16 := ⟨index % 16, Nat.mod_lt _ (by decide)⟩
  let f : Fin 2 := ⟨index % 2, Nat.mod_lt _ (by decide)⟩
  let none_ : Vector TariffReg 16 := Vector.replicate 16 {}
  let two := fun (x y : Register) => itemFlags (x.unproven || y.unproven) (x.range || y.range)
  let c := legalOf b n
  if scope = 1 ∧ index < 16 then
    let x := vget b.acc.nodeDel n
    let y := vget b.acc.nodeRec n
    some (none_, x.acc, y.acc, two x y)
  else if scope = 2 ∧ index < 16 then some (c.connTariffs, delTotal c.connTariffs, recTotal c.connTariffs, itemFlags c.connUnproven c.connRange)
  else if scope = 3 ∧ index = 0 then some (b.slt.hubTariffs, b.acc.hubDel.acc, b.acc.hubRec.acc, two b.acc.hubDel b.acc.hubRec)
  else if scope = 4 ∧ index < 2 then
    let x := vget b.acc.fdrImp f
    let y := vget b.acc.fdrExp f
    some (none_, x.acc, y.acc, two x y)
  else if scope = 5 ∧ index < 16 ∧ c.number ≠ 0 then some (c.tariffs, c.del, c.rec_, itemFlags c.unproven c.range)
  else none

/-- SLT_READ_REGISTERS. -/
def sltReadRegisters (m : Fin 4) (b : Block) : Block :=
  match scopeRegs b (rN b m 0 1) (rN b m 1 1) with
  | none => refuse m 0x0C06 b
  | some (t, d, r, fl) => ok m (t.toList.flatMap (fun x => b64 (exportAcc x.del) ++ b64 (exportAcc x.rec_)) ++ b64 (exportAcc d) ++ b64 (exportAcc r) ++ [fl]) b

/-- SLT_SIGN_READING (R361, R362): readings held unsigned are signed again, and a REGISTER reading of the scope is taken. -/
def sltSignReading (m : Fin 4) (b : Block) : Block :=
  let scope := rN b m 0 1
  let index := rN b m 1 1
  let n : Fin 16 := ⟨index % 16, Nat.mod_lt _ (by decide)⟩
  let c := legalOf b n
  let good := (scope == 2 && decide (index < 16)) || (scope == 3 && index == 0) || (scope == 5 && decide (index < 16) && c.number != 0)
  checked m [(0x0C06, good)] (fun b =>
    let x : ReadingSpec :=
      if scope = 3 then { kind := 4, stamp := b.acc.applied, entries := hubEntries b }
      else if scope = 2 then { kind := 4, connector := BitVec.ofNat 8 index, stamp := b.acc.applied, entries := connEntries b n }
      else { kind := 4, connector := BitVec.ofNat 8 index, session := c.number, stamp := b.acc.applied
             entries := sessionHead b n ++ sessionEnergy b n ++ creditEntries b n }
    let b := takeReading x (signHeldAgain b)
    ok m (b32 b.slt.readingSeq) b) b

/-- SLT_TAMPER (R379). -/
def tamperWord (x : Backup) : U32 :=
  reg32 [(0, x.enabled.toNat), (4, x.open_.toNat), (8, b2n x.vbatLost), (14, x.events.length), (20, x.overflow.toNat)]
/-- SLT_GET_TAMPER. -/
def sltGetTamper (m : Fin 4) (b : Block) : Block := ok m (b32 (tamperWord b.backup) ++ padTo 256 b.backup.events.flatten) b

/-- Some legal item is unproven (SLT_STATUS). -/
def legalUnproven (b : Block) : Bool :=
  let u := fun (v : List Register) => v.any (·.unproven)
  let a := b.acc
  u a.nodeDel.toList || u a.nodeRec.toList || u a.fdrImp.toList || u a.fdrExp.toList || u [a.hubDel, a.hubRec, a.unattImp, a.unattExp] ||
    b.legal.toList.any fun c => c.unproven || c.attUnproven || c.connUnproven
/-- Clear every unproven flag of the legal items (R36). -/
def clearUnproven (b : Block) : Block :=
  let fl := fun (r : Register) => { r with unproven := false }
  let a := b.acc
  { b with
    acc := { a with
      nodeDel := vmap a.nodeDel fl, nodeRec := vmap a.nodeRec fl, fdrImp := vmap a.fdrImp fl, fdrExp := vmap a.fdrExp fl
      hubDel := fl a.hubDel, hubRec := fl a.hubRec, unattImp := fl a.unattImp, unattExp := fl a.unattExp
      pairs := vmap a.pairs fun x => { x with unproven := false }, hubUnproven := false, attribUnproven := false }
    legal := vmap b.legal fun c => { c with unproven := false, attUnproven := false, connUnproven := false } }
/-- An UNPROVEN wallet is cleared (R36, R369): ACTIVE again. -/
def clearWallet (w : Nat) (b : Block) : Block :=
  let x := walletOf b w
  if x.state = 3 then saveWallet w (setWallet w { x with state := 1 } b) else b
/-- SLT_CLEAR_FLAGS (R36, R382). -/
def sltClearFlags (m : Fin 4) (b : Block) : Block :=
  let fl := rN b m 0 1
  let w := rN b m 2 2
  let a := authorise m 8 (rN b m 4 2) b
  if !a.2 then refuse m 0x0C07 a.1
  else
    checked m [(0x0D01, !bitOf fl 2 || decide (w < 4096))] (fun b =>
      let b := onlyIf (bitOf fl 0) clearUnproven b
      let b := onlyIf (bitOf fl 1) (updSlt fun s => { s with tamper := false }) b
      let b := onlyIf (bitOf fl 2) (clearWallet w) b
      ok m [BitVec.ofNat 8 fl] (saveLegalConfig (legalLog 0x0012 wCarr (leBytes 2 0x0C08 ++ [0, 0] ++ leBytes 4 fl ++ leBytes 2 w) b))) a.1
/-- SLT_SET_OUTPUT (R365, R382): what is held goes out when a queue is set. -/
def sltSetOutput (m : Fin 4) (b : Block) : Block :=
  checked m [(0x0C08, decide (rN b m 0 2 ≤ 600)), (6, queueOk (rN b m 2 2) true)] (fun b =>
    ok m [] (flushHeld (saveLegalConfig (updSlt (fun s => { s with hold := BitVec.ofNat 10 (rN b m 0 2), readingQueue := r16 b m 2 }) b)))) b
/-- SLT_SET_TAMPER (R366): bit i of the mask is input i; cover and terminal stay enabled (DEDUCED from SLT_TAMPER.enabled, log entry 95). -/
def sltSetTamper (m : Fin 4) (b : Block) : Block :=
  ok m [] (updBackup (fun x => { x with enabled := BitVec.ofNat 4 (rN b m 0 1 / 4 % 4 * 4 + 3) }) b)

/-! ### Wallet messages (R370, R371) -/

/-- The counter of the group of wallet `w`. -/
def groupCtr (w : Nat) : Fin 64 := ⟨(24 + w / 128) % 64, Nat.mod_lt _ (by decide)⟩
/-- The largest balance. -/
def maxBalance : Nat := 1000000000000000
/-- The conditions of R371 for message `c` of the command with kind `kind`. A message of another kind or version counts as one
whose signature does not fit the command (DEDUCED, log entry 98). -/
def ledgerChecks (b : Block) (kind : Nat) (c : List U8) : List (Nat × Bool) :=
  let w := natAt c 2 2
  let x := walletOf b w
  let amt := natAt c 16 8
  let slot : Fin 16 := ⟨b.bri.keySlot.toNat % 16, Nat.mod_lt _ (by decide)⟩
  [(0x0D01, decide (w < 4096 ∧ natAt c 27 1 < 2)),
    (0x0D02, verifySlot b slot 5 (c.take 32) (slice c 32 64) && natAt c 4 8 == b.key.serial.toNat && natAt c 0 1 == kind && natAt c 1 1 == 1),
    (0x0D04, !ctrExhausted b (groupCtr w)),
    (0x0D03, natAt c 12 4 == ctrPlanned b (groupCtr w) + 1),
    (0x0D05, b.slt.calActive != [] && slice c 24 3 == slice b.slt.calActive 26 3),
    (0x0D06, x.state == 1 || x.state == 2 || (x.state == 0 && bitOf (natAt c 27 1) 0 && kind == 1)),
    (0x0D07, decide (1 ≤ amt ∧ amt ≤ maxBalance) && (if kind = 1 then decide (x.balance.toNat + amt ≤ maxBalance) else decide (amt ≤ x.balance.toNat)))]
/-- A wallet after an accepted message. -/
def walletAfter (kind : Nat) (amt : U64) (seq : U32) (x : Wallet) : Wallet :=
  if kind = 1 then { x with balance := x.balance + amt, toppedUp := x.toppedUp + amt, lastSeq := seq, state := if x.state = 0 then 1 else x.state }
  else { x with balance := x.balance - amt, refunded := x.refunded + amt, lastSeq := seq }
/-- The transfer of an accepted message. -/
def ledgerMove (kind w : Nat) (amt : U64) (seq : U32) (b : Block) : Block :=
  updBri (fun r => if kind = 1 then { r with topup := r.topup + amt } else { r with refund := r.refund + amt })
    (setWallet w (walletAfter kind amt seq (walletOf b w)) b)
/-- BRI_TOPUP and BRI_REFUND (R371): counter, SELF line, and the answer once that line is checked. -/
def ledgerMessage (kind : Nat) (m : Fin 4) (b : Block) : Block :=
  let c := rBytes b m 0 96
  match firstFail (ledgerChecks b kind c) with
  | some st => refuse m st (irq 431 (updBri (fun r => { r with rejectCnt := satInc r.rejectCnt }) b))
  | none =>
    let w := natAt c 2 2
    let amt : U64 := BitVec.ofNat 64 (natAt c 16 8)
    let seq : U32 := BitVec.ofNat 32 (natAt c 12 4)
    let t := transfer (ledgerMove kind w amt seq) b
    if !t.2 then internalFail m t.1
    else
      let b := (ctrIncrement rqBrine (groupCtr w) none t.1).1
      let b := irq (if kind = 1 then 428 else 429) b
      let b := selfLineAs (.answer m (b64 (walletOf b w).balance ++ b32 seq)) (if kind = 1 then 1 else 4) none (some w) amt 0 0 seq b
      if kind = 1 then saveWallet w b else b

/-- The wallet of a request, bytes 0-1. -/
def walletCheck (b : Block) (m : Fin 4) : Nat × Bool := (0x0D01, decide (rN b m 0 2 < 4096))
/-- BRI_GET_WALLET. -/
def briGetWallet (m : Fin 4) (b : Block) : Block :=
  let w := rN b m 0 2
  checked m [walletCheck b m] (ok m (walletBytes (walletOf b w) ++ b32 (vget b.pea.ctr (groupCtr w)))) b
/-- Some session ledger is open. -/
def ledgerOpen (b : Block) : Bool := b.bri.ledgers.toList.any fun l => l.state != 0
/-- BRI_CFG (R380). -/
def briCfgWord (r : Brine) : U32 := reg32 [(0, r.keySlot.toNat), (4, r.tStop.toNat)]
/-- BRI_SET_CONFIG (R383). A t_stop outside 1 to 50 is refused as RESERVED_SET: the family has no code for it (DESIGN CHOICE,
log entry 26). -/
def briSetConfig (m : Fin 4) (b : Block) : Block :=
  let w := rN b m 0 4
  let t := fieldOf w 4 6
  checked m [(3, decide (1 ≤ t ∧ t ≤ 50 ∧ w < 1024)), (0x0D0A, !ledgerOpen b)] (fun b =>
    let b := updBri (fun r => { r with keySlot := BitVec.ofNat 4 w, tStop := BitVec.ofNat 6 t, minRes := r32 b m 4 }) b
    ok m [] (saveLegalConfig (cmdLog m 0 b))) b
/-- BRI_LEDGER_STAT(n) (R380). -/
def ledgerStatWord (l : Ledger) : U32 := reg32 [(0, l.wallet.toNat), (12, l.state.toNat), (14, b2n l.uncoveredFlag)]
/-- BRI_GET_LEDGER. -/
def briGetLedger (m : Fin 4) (b : Block) : Block :=
  let l := ledgerOf b (reqNode b m)
  checked m [nodeCheck 0x0C05 b m] (ok m (b64 l.balance ++ b32 (ledgerStatWord l) ++ b64 l.debited ++ b64 l.uncovered)) b
/-- Sum of the balances of all wallets. -/
def walletSum (b : Block) : Nat := (b.bri.wallets.map fun e => e.2.balance.toNat).sum
/-- Sum of the open ledgers. -/
def ledgerSum (b : Block) : Nat := (b.bri.ledgers.toList.map fun l => l.balance.toNat).sum
/-- BRI_AUDIT (R376). -/
def briAudit (m : Fin 4) (b : Block) : Block :=
  ok m (leBytes 12 (walletSum b) ++ leBytes 12 (ledgerSum b) ++ leBytes 12 b.bri.spent.toNat ++ leBytes 12 b.bri.topup.toNat ++
    leBytes 12 b.bri.refund.toNat ++ [BitVec.ofNat 8 (b2n (decide (creditDifference b = 0)))]) b
/-- BRI_BLOCK (R369): between ACTIVE and BLOCKED. -/
def briBlock (m : Fin 4) (b : Block) : Block :=
  let w := rN b m 0 2
  let x := walletOf b w
  let st : U8 := if rN b m 2 1 = 1 then 2 else 1
  checked m [walletCheck b m, (3, decide (rN b m 2 1 ≤ 1)), (0x0D06, x.state == 1 || x.state == 2)] (fun b =>
    ok m [st] (onlyIf (x.state != st) (fun b => saveWallet w (setWallet w { x with state := st } b)) b)) b

/-! ### Window words (R379, R380) -/

/-- SLT_STATUS. -/
def sltStatusWord (b : Block) : U32 :=
  let s := b.slt
  let f := inForceAt b (now b)
  reg32 [(0, b2n s.running), (1, b2n (s.calActive != [])), (2, b2n (s.calPassive != [])), (3, timeSource b), (5, b2n s.tamper),
    (6, b2n (legalUnproven b)), (7, b2n (s.held != [])), (8, s.tariff.toNat), (12, f.season), (14, f.week), (17, f.day), (21, b2n f.special)]
/-- Words 0x0900 to 0x093F. -/
def sltWord (b : Block) (a : Nat) : U32 :=
  let s := b.slt
  let pas := calN s.calPassive 8 8
  if h : 0x910 ≤ a ∧ a < 0x920 then (legalOf b ⟨a - 0x910, by omega⟩).number
  else if h : 0x920 ≤ a ∧ a < 0x930 then authWord b ⟨a - 0x920, by omega⟩
  else match a with
    | 0x900 => sltStatusWord b
    | 0x901 => BitVec.ofNat 32 (calN s.calActive 4 4)
    | 0x902 => BitVec.ofNat 32 (calN s.calPassive 4 4 % 2 ^ 24)
    | 0x903 => BitVec.ofNat 32 pas
    | 0x904 => BitVec.ofNat 32 (pas / 2 ^ 32)
    | 0x905 => s.carrCheck
    | 0x906 => s.readingSeq
    | 0x907 => s.sessionNext
    | 0x908 => reg32 [(0, s.interval.toNat), (8, s.clockLimit.toNat), (16, s.readingQueue.toNat)]
    | 0x909 => lo32 s.intStart
    | 0x90A => hi32 s.intStart
    | 0x90B => s.clockAdjCnt
    | 0x90C => tamperWord b.backup
    | 0x90D => reg32 [(0, min 255 s.unsigned_.length), (8, s.signFailures.toNat)]
    | 0x930 => s.hold.setWidth 32
    | _ => 0
/-- BRI_STATUS. -/
def briStatusWord (b : Block) : U32 :=
  let n := fun (p : U8 → Bool) => (b.bri.wallets.filter fun e => p e.2.state).length
  reg32 [(0, b2n b.bri.running), (1, b2n b.bri.balanced), (2, b2n (decide (0 < n (· == 3)))), (16, n fun s => s == 1 || s == 2)]
/-- Words 0x0940 to 0x097F. -/
def briWord (b : Block) (a : Nat) : U32 :=
  let r := b.bri
  if h : 0x950 ≤ a ∧ a < 0x970 then
    let l := ledgerOf b ⟨(a - 0x950) / 2, by omega⟩
    if a % 2 = 0 then lo32 l.balance else l.hi
  else if h : 0x970 ≤ a ∧ a < 0x980 then ledgerStatWord (ledgerOf b ⟨a - 0x970, by omega⟩)
  else match a with
    | 0x940 => briStatusWord b
    | 0x941 => lo32 r.spent
    | 0x942 => r.spentHi
    | 0x943 => lo32 r.topup
    | 0x944 => r.topupHi
    | 0x945 => lo32 r.refund
    | 0x946 => r.refundHi
    | 0x947 => lo32 r.seq
    | 0x948 => r.seqHi
    | 0x949 => r.rejectCnt
    | 0x94A => briCfgWord r
    | 0x94B => r.minRes
    | _ => 0
/-- What the read of a _LO word captures (R118, R380). -/
def briCapture (a : Nat) (b : Block) : Block :=
  if h : 0x950 ≤ a ∧ a < 0x970 ∧ a % 2 = 0 then updLedger ⟨(a - 0x950) / 2, by omega⟩ (fun l => { l with hi := hi32 l.balance }) b
  else match a with
    | 0x941 => updBri (fun r => { r with spentHi := hi32 r.spent }) b
    | 0x943 => updBri (fun r => { r with topupHi := hi32 r.topup }) b
    | 0x945 => updBri (fun r => { r with refundHi := hi32 r.refund }) b
    | 0x947 => updBri (fun r => { r with seqHi := hi32 r.seq }) b
    | _ => b

/-- SIGN_ENGINE_COMPLETE (R405). -/
def execSignEngineComplete (u : Fin 4) (good : Bool) (s : State) : Result := s.run (signEngineComplete u good)
/-- SIGN_RETRY (R362). -/
def execSignRetry (s : State) : Result := s.run signRetry
/-- HELD_READINGS_FLUSH (R365). -/
def execHeldReadingsFlush (s : State) : Result := s.run heldReadingsFlush
/-- TAMPER_SAMPLE (R366). -/
def execTamperSample (levels : BitVec 4) (s : State) : Result := s.input (tamperSample levels)
/-- TAMPER_EVENT_MOVE (R367). -/
def execTamperEventMove (s : State) : Result := s.run tamperMove
/-- SLT_LOAD_CALENDAR (R352). -/
def execSltLoadCalendar (m : Fin 4) (s : State) : Result := s.run (command m 0x0C01 .carr (sltLoadCalendar m))
/-- SLT_GET_CALENDAR (R382). -/
def execSltGetCalendar (m : Fin 4) (s : State) : Result := s.run (command m 0x0C02 .carr (sltGetCalendar m))
/-- SLT_SET_LEGAL (R356). -/
def execSltSetLegal (m : Fin 4) (s : State) : Result := s.run (command m 0x0C03 .carr (sltSetLegal m))
/-- SLT_READ_REGISTERS (R382). -/
def execSltReadRegisters (m : Fin 4) (s : State) : Result := s.run (command m 0x0C05 .carr (sltReadRegisters m))
/-- SLT_SIGN_READING (R382). -/
def execSltSignReading (m : Fin 4) (s : State) : Result := s.run (command m 0x0C06 .carr (sltSignReading m))
/-- SLT_GET_TAMPER (R382). -/
def execSltGetTamper (m : Fin 4) (s : State) : Result := s.run (command m 0x0C07 .carr (sltGetTamper m))
/-- SLT_CLEAR_FLAGS (R382). -/
def execSltClearFlags (m : Fin 4) (s : State) : Result := s.run (command m 0x0C08 .carr (sltClearFlags m))
/-- SLT_SET_OUTPUT (R382). -/
def execSltSetOutput (m : Fin 4) (s : State) : Result := s.run (command m 0x0C09 .carr (sltSetOutput m))
/-- SLT_SET_TAMPER (R382). -/
def execSltSetTamper (m : Fin 4) (s : State) : Result := s.run (command m 0x0C0A .carr (sltSetTamper m))
/-- BRI_TOPUP (R371). -/
def execBriTopup (m : Fin 4) (s : State) : Result := s.run (command m 0x0D01 .carr (ledgerMessage 1 m))
/-- BRI_REFUND (R371). -/
def execBriRefund (m : Fin 4) (s : State) : Result := s.run (command m 0x0D02 .carr (ledgerMessage 2 m))
/-- BRI_GET_WALLET (R383). -/
def execBriGetWallet (m : Fin 4) (s : State) : Result := s.run (command m 0x0D03 .carr (briGetWallet m))
/-- BRI_SET_CONFIG (R383). -/
def execBriSetConfig (m : Fin 4) (s : State) : Result := s.run (command m 0x0D04 .carr (briSetConfig m))
/-- BRI_GET_LEDGER (R383). -/
def execBriGetLedger (m : Fin 4) (s : State) : Result := s.run (command m 0x0D05 .carr (briGetLedger m))
/-- BRI_AUDIT (R376). -/
def execBriAudit (m : Fin 4) (s : State) : Result := s.run (command m 0x0D06 .carr (briAudit m))
/-- BRI_BLOCK (R369). -/
def execBriBlock (m : Fin 4) (s : State) : Result := s.run (command m 0x0D07 .carr (briBlock m))

end Sys2Proof.Machine
end

