-- ==== Sys2Proof/Machine/HostPort.lean ====
section
/-! DEFINITION. The host port's error registers and counts, and the commands of the system family that concern the port
(16_host_port.md, R416 to R421, R430, R431, R438). -/

namespace Sys2Proof.Machine

/-- A window error (R419, R420, R431): the register, its counts, and source 6 at most once per ms (R438). -/
def winErr (write : Bool) (cause : Nat) (addr : Nat) (b : Block) : Block :=
  let raise := mayRaise b b.hp.lastWinIrq tMs
  onlyIf raise (irq 6) { b with hp := { b.hp with
    err := true, dir := write, cause := BitVec.ofNat 3 cause, addr := BitVec.ofNat 16 addr
    count := satInc b.hp.count, winEvents := satInc b.hp.winEvents
    lastWinIrq := if raise then some (now b) else b.hp.lastWinIrq } }

/-- A frame error (R421): counted with its cause, source 7 at most once per ms (R438). -/
def spiErr (cause : Nat) (b : Block) : Block :=
  let raise := mayRaise b b.hp.lastSpiIrq tMs
  onlyIf raise (irq 7) { b with hp := { b.hp with
    spiCount := satInc b.hp.spiCount, spiCause := BitVec.ofNat 3 cause
    lastSpiIrq := if raise then some (now b) else b.hp.lastSpiIrq } }

/-- WIN_ERR (R431). -/
def winErrWord (h : HostPort) : U32 :=
  reg32 [(0, b2n h.err), (1, b2n h.dir), (2, h.cause.toNat), (8, h.count.toNat), (16, h.addr.toNat)]

/-- SPI_ERR (R431). -/
def spiErrWord (h : HostPort) : U32 := reg32 [(0, h.spiCount.toNat), (16, h.spiCause.toNat)]

/-- MBX_STAT(m) (R431). -/
def mbxStatWord (x : Mailbox) : U32 :=
  reg32 [(0, x.state.code), (2, b2n x.replayed), (3, b2n x.ringErr), (16, x.tag.toNat)]

/-- MBX_SUMMARY (R431). -/
def mbxSummary (b : Block) : U32 := reg32 ((List.finRange 4).map fun m => (2 * m.val, (mbxOf b m).state.code))

/-- The bytes of a write frame that the CRC-8 trailer covers, in the order sent: most significant first (R411, R416). -/
def frameBytes (opcode : U8) (addr : U16) (words : List U32) : List U8 :=
  opcode :: (beBytes 2 addr.toNat ++ words.flatMap fun w => beBytes 4 w.toNat)

/-- SYS_GET_VERSION (R430). -/
def sysGetVersion (m : Fin 4) (b : Block) : Block := ok m (b32 0x4C4B3296 ++ [0x42, 3, 2]) b

/-- SYS_HP_STATUS (R430). -/
def sysHpStatus (m : Fin 4) (b : Block) : Block :=
  ok m (b32s [winErrWord b.hp, spiErrWord b.hp, b.hp.committed, b.hp.reads, b.hp.winEvents]) b

/-- SYS_HP_CLEAR (R430). -/
def sysHpClear (m : Fin 4) (b : Block) : Block :=
  ok m [] (cmdLog m 0 { b with hp := { b.hp with
    committed := 0, reads := 0, winEvents := 0, count := 0, spiCount := 0, spiCause := 0 } })

/-- MBX_RING (R425). -/
def execMbxRing (m : Fin 4) (s : State) : Result := s.run (mbxRing m)
/-- MBX_CANCEL (R425). -/
def execMbxCancel (m : Fin 4) (s : State) : Result := s.run (mbxCancel m)
/-- MBX_RESPONSE_DONE (R425). -/
def execMbxResponseDone (m : Fin 4) (s : State) : Result := s.run (mbxComplete m)
/-- SYS_GET_VERSION (R430). -/
def execSysGetVersion (m : Fin 4) (s : State) : Result := s.run (command m 0x0101 .sedge (sysGetVersion m))
/-- SYS_ECHO (R430). -/
def execSysEcho (m : Fin 4) (s : State) : Result := s.run (command m 0x0102 .sedge fun b => ok m (rAll b m) b)
/-- SYS_HP_STATUS (R430). -/
def execSysHpStatus (m : Fin 4) (s : State) : Result := s.run (command m 0x0103 .sedge (sysHpStatus m))
/-- SYS_HP_CLEAR (R430). -/
def execSysHpClear (m : Fin 4) (s : State) : Result := s.run (command m 0x0104 .sedge (sysHpClear m))

end Sys2Proof.Machine
end

