-- ==== Sys2Proof/Machine/Causeway.lean ====
section
/-! DEFINITION. Causeway: slots, credits, acknowledgement, training and link reset; the queue manager's own commands
(17_causeway_queues.md, R440 to R467). -/

namespace Sys2Proof.Machine

/-- A CRC failure for the rate of R466: source 34 when more than 16 fall within 1 ms. -/
def crcFailure (b : Block) : Block :=
  let l := (now b :: b.cwyX.crcTimes).take 17
  let many := match l[16]? with | some t => decide (since b t ≤ tMs) | none => false
  onlyIf many (irq 34) { b with cwyX := { b.cwyX with crcTimes := l } }

/-! ### Inbound records -/

/-- Group named by trailer byte 66. -/
def slotGroup (l : List U8) : Fin 64 := ⟨(byteAt l 66).toNat % 64, Nat.mod_lt _ (by decide)⟩

/-- The record checks of R453. -/
def recordOk (b : Block) (l : List U8) : Bool :=
  let q := natAt l 2 2
  let d := qOf b q
  decide (2048 ≤ q ∧ q ≤ 32767) && d.enabled && d.inbound && d.group == byteAt l 66 &&
    decide ((byteAt l 4).toNat ≤ 56) && decide ((byteAt l 5).toNat < 4)

/-- Release the buffer of a discarded inbound record. -/
def dropInbound (u : Nat) (b : Block) : Block := (qFree agRx u b).1

/-- Count a discarded record (R453, R459). -/
def badRecord (u : Nat) (b : Block) : Block :=
  dropInbound u { b with cwy := { b.cwy with badRec := satInc b.cwy.badRec } }

/-- Judge a record by its queue sequence (R451) and enqueue it. -/
def judgeRecord (g : Fin 64) (u : Nat) (l : List U8) (b : Block) : Block :=
  let q := natAt l 2 2
  let seq : U16 := BitVec.ofNat 16 (natAt l 6 2)
  let d := qOf b q
  let fits := !d.seqSeen || seq == d.nextSeq + 1
  let dup := !fits && decide ((d.nextSeq - seq).toNat < 32768)
  if dup then dropInbound u { b with cwy := { b.cwy with dup := satInc b.cwy.dup } }
  else
    let b := onlyIf (!fits) (fun x => irq 36 { x with cwy := { x.cwy with gaps := satInc x.cwy.gaps } }) b
    match qEnqueue agRx q u b with
    | (b, .ok _) =>
      updGroup g (fun x => { x with recvCnt := satInc x.recvCnt })
        (setQ q { qOf b q with nextSeq := seq, seqSeen := true } (traceItem 7 0 (now b) l b))
    | (b, .error _) => badRecord u b

/-- A record accepted in link order: charged to its group (R447), checked (R453), judged (R451). -/
def acceptRecord (l : List U8) (b : Block) : Block :=
  let g := slotGroup l
  if 64 ≤ (byteAt l 66).toNat ∨ freeReserved b g = 0 then creditViolation g.val b
  else
    let b := updGroup g (fun x => { x with received := x.received + 1 })
      { b with cwy := { b.cwy with rxNext := b.cwy.rxNext + 1, rxAckSent := b.cwy.rxNext, rxRec := satInc b.cwy.rxRec } }
    match qAlloc agRx (some g) b with
    | (b, .error _) => creditViolation g.val b
    | (b, .ok u) =>
      let b := setBuf u (l.take 64) b
      if recordOk b l then judgeRecord g u (l.take 64) b else badRecord u b

/-- An inbound slot of 72 bytes, or a training slot (R441, R443, R450 cause PEER). -/
def slotReceive (x : CwySlot) (b : Block) : Block :=
  if b.cwy.state ≠ .up then b
  else if x.training then linkReset 7 0 b
  else
    let l := padTo 72 x.bytes
    if natAt l 68 4 ≠ (crc32c (l.take 68)).toNat then
      let n := b.cwyX.crcRun + 1
      let b := crcFailure { b with
        cwy := { b.cwy with crcRec := satInc b.cwy.crcRec }, cwyX := { b.cwyX with crcRun := n } }
      onlyIf (decide (8 ≤ n)) (linkReset 3 0) b
    else
      let b := { b with cwyX := { b.cwyX with crcRun := 0 } }
      if natAt l 64 2 ≠ b.cwy.rxNext.toNat then b else acceptRecord l b

/-! ### Credit frames -/

/-- Free the buffers of acknowledged records, oldest first (R444). -/
def freeAcked (us : List Nat) (b : Block) : Block := forAll us (fun u x => (qFree agTx u x).1) b

/-- An ack field (R444): it covers the record it names and every earlier outstanding one. -/
def takeAck (a : U16) (b : Block) : Block :=
  match b.cwy.outstanding.findIdx? fun e => e.1 == a with
  | none => b
  | some i =>
    freeAcked ((b.cwy.outstanding.take (i + 1)).map (·.2)) { b with
      cwy := { b.cwy with outstanding := b.cwy.outstanding.drop (i + 1), txAcked := a }
      cwyX := { b.cwyX with ackAt := now b, ackExpiries := 0 } }

/-- One credit word (R442, R446, R447): a count above 512 or one that moves backwards is a credit violation. The answer tells
whether the frame goes on. -/
def takeCredit (w : Nat) (b : Block) : Block × Bool :=
  let g : Fin 64 := ⟨w / 1024 % 64, Nat.mod_lt _ (by decide)⟩
  let c : BitVec 10 := BitVec.ofNat 10 w
  let x := groupOf b g
  if 512 < (c - x.sent).toNat ∨ 512 ≤ (c - x.hostCredit).toNat ∧ c ≠ x.hostCredit then (creditViolation g.val b, false)
  else (noteWait g (updGroup g (fun x => { x with hostCredit := c }) b), true)

/-- The seven credit words in order. -/
def takeCredits : List Nat → Block → Block
  | [], b => b
  | w :: r, b => match takeCredit w b with
    | (b, true) => takeCredits r b
    | (b, false) => b

/-- A credit frame of 18 bytes (R442): ignored whole when its CRC fails. -/
def creditReceive (bytes : List U8) (b : Block) : Block :=
  let l := padTo 18 bytes
  if b.cwy.state ≠ .up then b
  else if natAt l 16 2 ≠ (crc16 (l.take 16)).toNat then
    let n := b.cwyX.creditRun + 1
    let b := crcFailure { b with
      cwy := { b.cwy with crcCredit := satInc b.cwy.crcCredit }, cwyX := { b.cwyX with creditRun := n } }
    onlyIf (decide (8 ≤ n)) (linkReset 4 0) b
  else
    takeCredits ((List.range 7).map fun i => natAt l (2 + 2 * i) 2)
      (takeAck (BitVec.ofNat 16 (natAt l 0 2)) { b with cwyX := { b.cwyX with creditRun := 0 } })

/-! ### Outbound records -/

/-- The first of an ascending list above `x`, else its first: the next in round-robin order (R448). -/
def roundRobin (x : Nat) (l : List Nat) : Option Nat :=
  match l.find? fun q => decide (x < q) with
  | some q => some q
  | none => l.head?

/-- The queue whose head is sent next: groups with records and credit round-robin, then their queues round-robin (R448). -/
def nextOutbound (b : Block) : Option (Fin 64 × Nat) :=
  let gs := (List.finRange 64).filter fun g => decide (0 < creditOf (groupOf b g)) && !(waitingQueues b g.val).isEmpty
  match roundRobin b.cwy.lastGroupServed.toNat (gs.map (·.val)) with
  | none => none
  | some n =>
    let g : Fin 64 := ⟨n % 64, Nat.mod_lt _ (by decide)⟩
    (roundRobin (vget b.cwy.lastQueueServed g) (waitingQueues b n)).map fun q => (g, q)

/-- The 72 bytes of the slot in which the device sends record `u` with link sequence `seq` (R441). -/
def cwySlot (b : Block) (seq : U16) (g : Fin 64) (u : Nat) : List U8 :=
  let l := bufBytes b u ++ b16 seq ++ [BitVec.ofNat 8 g.val, 0]
  l ++ b32 (crc32c l)
/-- The bytes of a slot that go on data lane `k`, in their order (R441); each least significant bit first. -/
def laneBytes (k : Fin 4) (l : List U8) : List U8 := (List.range 18).map fun i => byteAt l (4 * i + k.val)
/-- Frame marker of bit time `t` of a slot (R441, R449). -/
def frmHigh (record training : Bool) (t : Nat) : Bool := if training then decide (t < 72) else record && decide (t < 8)
/-- Credit frame `k` of the link's life (R442): the ack, the counts of groups (7k + i) mod 64, the CRC. -/
def creditFrame (b : Block) (k : Nat) : List U8 :=
  let word := fun (i : Nat) =>
    let g : Fin 64 := ⟨(7 * k + i) % 64, Nat.mod_lt _ (by decide)⟩
    leBytes 2 (g.val * 1024 + (groupOf b g).granted.toNat)
  let l := b16 b.cwy.rxAckSent ++ (List.range 7).flatMap word
  l ++ leBytes 2 (crc16 l).toNat
/-- The slots of outstanding records, each with its original sequence (R444). -/
def slotsSent (us : List (U16 × Nat)) (b : Block) : List (List U8) :=
  us.map fun e => cwySlot b e.1 ⟨(qOf b (natAt (bufBytes b e.2) 2 2)).group.toNat % 64, Nat.mod_lt _ (by decide)⟩ e.2

/-- First transmission of buffer `u` on group `g` (R443, R446). -/
def transmit (g : Fin 64) (u : Nat) (b : Block) : Block :=
  let first := b.cwy.outstanding.isEmpty
  let b := { b with
    cwy := { b.cwy with
      outstanding := b.cwy.outstanding ++ [(b.cwy.txNext, u)], txNext := b.cwy.txNext + 1, txRec := satInc b.cwy.txRec }
    cwyX := { b.cwyX with ackAt := if first then now b else b.cwyX.ackAt, slots := [cwySlot b b.cwy.txNext g u] } }
  noteWait g (updGroup g (fun x => { x with sent := x.sent + 1, sentCnt := satInc x.sentCnt }) b)

/-- Group of an outbound record's queue. -/
def groupOfBuf (b : Block) (u : Nat) : Fin 64 :=
  ⟨(qOf b (natAt (bufBytes b u) 2 2)).group.toNat % 64, Nat.mod_lt _ (by decide)⟩

/-- CWY_RECORD_SEND (R443, R448, R450): records kept over a link reset go first and consume the new credits; at most 256
records are outstanding. -/
def recordSend (b : Block) : Block :=
  if b.cwy.state ≠ .up ∨ 256 ≤ b.cwy.outstanding.length then b
  else match b.cwy.resend with
    | u :: r =>
      let g := groupOfBuf b u
      if creditOf (groupOf b g) = 0 then b else transmit g u { b with cwy := { b.cwy with resend := r } }
    | [] => match nextOutbound b with
      | none => b
      | some (g, q) => match qDequeue agTx q b with
        | (b, .error _) => b
        | (b, .ok u) => transmit g u { b with cwy := { b.cwy with
            lastGroupServed := BitVec.ofNat 6 g.val, lastQueueServed := vset b.cwy.lastQueueServed g q } }

/-- ACK_TIMEOUT (R444): outstanding records are sent again; the eighth expiry without an advance resets the link. -/
def ackTimeout (b : Block) : Block :=
  let n := b.cwy.outstanding.length
  if b.cwy.state = .up ∧ n ≠ 0 then
    afterTicks b.cwyX.ackAt (b.cwy.ackTimeout.toNat * tUs) (fun b =>
      let e := b.cwyX.ackExpiries + 1
      let b := { b with
        cwy := { b.cwy with retry := satAdd b.cwy.retry n }, cwyX := { b.cwyX with ackAt := now b, ackExpiries := e, slots := slotsSent b.cwy.outstanding b } }
      onlyIf (decide (8 ≤ e)) (linkReset 5 0) b) b
  else b

/-- GROUP_STALL (R448): records waiting without credit for 10 ms; source 37 at most once per group per second. -/
def groupStall (g : Fin 64) (b : Block) : Block :=
  match (groupOf b g).waitSince with
  | none => b
  | some t =>
    afterTicks t (10 * tMs) (fun b =>
      let raise := mayRaise b (groupOf b g).stallIrq tSec
      onlyIf raise (irq 37) (updGroup g (fun x => { x with
        stalled := true, stallIrq := if raise then some (now b) else x.stallIrq }) b)) b

/-! ### Training -/

/-- LINK_UP (R449 step 4): sequences restart, C_g resynchronises to the free reserved buffers, source 32; a waiting
CWY_RESET_LINK is answered with the Tide. -/
def linkUp (b : Block) : Block :=
  if b.cwy.state = .training ∧ b.cwy.aligning then
    let gs := vmapIdx b.cwy.groups fun g x => { x with
      granted := BitVec.ofNat 10 (freeReserved b g), received := 0, sent := 0, hostCredit := 0 }
    let b := { b with
      cwy := { b.cwy with state := .up, txNext := 0, txAcked := 0xFFFF, rxNext := 0, rxAckSent := 0xFFFF, groups := gs }
      cwyX := { b.cwyX with crcRun := 0, creditRun := 0, ackExpiries := 0, ackAt := now b } }
    let b := forAll (List.finRange 64) noteWait (irq 32 b)
    match b.cwyX.resetMbx with
    | some m => ok m (b64 (now b)) { b with cwyX := { b.cwyX with resetMbx := none } }
    | none => b
  else b

/-- TRAINING_TIMEOUT (R449): training not UP after 1 ms starts again and is counted; a waiting CWY_RESET_LINK fails with
TRAINING_FAILED 1 ms after the reset (R467). -/
def trainingTimeout (b : Block) : Block :=
  if b.cwy.state = .training ∨ b.cwyX.resetMbx.isSome then
    afterTicks b.cwyX.trainingAt tMs (fun b =>
      let b := match b.cwyX.resetMbx with
        | some m => refuse m 0x0F06 { b with cwyX := { b.cwyX with resetMbx := none } }
        | none => b
      if b.cwy.state ≠ .training then b
      else { b with cwy := { b.cwy with aligning := false, resetCnt := satInc b.cwy.resetCnt }, cwyX := { b.cwyX with trainingAt := now b } }) b
  else b

/-- RECEIVE_CLOCK_STABLE (R449): 1,024 stable cycles; training moves on to alignment. -/
def receiveClockStable (b : Block) : Block :=
  let b := { b with cwy := { b.cwy with rxClkOk := true } }
  if b.cwy.state = .training then { b with cwy := { b.cwy with aligning := true } } else b

/-- CLOCK_LOST (R440). -/
def clockLost (b : Block) : Block :=
  let b := { b with cwy := { b.cwy with rxClkOk := false } }
  if b.cwy.enable then linkReset 2 0 b else b

/-! ### Register words (R464, R465) -/

/-- The bits of CWY_STALL from group `g0`. -/
def stallBits (b : Block) (g0 : Nat) : U32 :=
  BitVec.ofNat 32 (bitsNat (((b.cwy.groups.toList.drop g0).take 32).map (·.stalled)))

/-- The read value of word `a` of the CWY block. -/
def cwyWord (b : Block) (a : Nat) : U32 :=
  let c := b.cwy
  if a = 0x9C0 then reg32 [(0, b2n c.enable), (8, c.ackTimeout.toNat)]
  else if a = 0x9C1 then
    reg32 [(0, c.state.code), (2, b2n c.rxClkOk), (3, b2n c.txClkOk), (4, min c.outstanding.length 256)]
  else if a = 0x9C2 then reg32 [(0, c.txNext.toNat), (16, c.txAcked.toNat)]
  else if a = 0x9C3 then reg32 [(0, c.rxNext.toNat), (16, c.rxAckSent.toNat)]
  else if a = 0x9C4 then c.txRec
  else if a = 0x9C5 then c.rxRec
  else if a = 0x9C6 then reg32 [(0, c.crcRec.toNat), (16, c.crcCredit.toNat)]
  else if a = 0x9C7 then c.retry
  else if a = 0x9C8 then c.resetCnt
  else if a = 0x9C9 then reg32 [(0, c.lastCause.toNat), (4, c.lastGroup.toNat)]
  else if a = 0x9CA then reg32 [(0, c.dup.toNat), (16, c.gaps.toNat)]
  else if a = 0x9CB then c.badRec
  else if a = 0x9CC then stallBits b 0
  else if a = 0x9CD then stallBits b 32
  else 0

/-- Buffers held by agent `a` (QMG_HELD_AGENT). -/
def heldBy (b : Block) (a : Nat) : Nat :=
  (b.qmg.owners.filter fun e => match e.2 with | .agent x => x.val == a | _ => false).length

/-- The read value of word `a` of the QMG block. -/
def qmgWord (b : Block) (a : Nat) : U32 :=
  let m := b.qmg
  if a = 0xA00 then reg32 [(0, b2n m.running), (1, b2n m.conserveOk), (2, b2n m.fatal), (3, b2n m.low)]
  else if a = 0xA01 then BitVec.ofNat 32 m.cntFree
  else if a = 0xA02 then BitVec.ofNat 32 m.cntQueued
  else if a = 0xA03 then BitVec.ofNat 32 m.cntHeld
  else if a = 0xA04 then BitVec.ofNat 32 (freeUnreserved b)
  else if a = 0xA05 then BitVec.ofNat 32 (reservedSum b)
  else if a = 0xA06 then reg32 [(0, m.errBuffer.toNat), (17, m.errAgent.toNat), (21, b2n m.errOp), (22, m.errCause.toNat)]
  else if a = 0xA07 then m.ownErrCnt
  else if a = 0xA08 then m.fullCnt
  else if a = 0xA09 then m.dropCnt
  else if a = 0xA0A then m.emptyCnt
  else if a = 0xA0B then m.lowWater.setWidth 32
  else if 0xA20 ≤ a ∧ a ≤ 0xA2F then BitVec.ofNat 32 (heldBy b (a - 0xA20))
  else 0

/-- The 16-byte descriptor of queue `q` (R457). -/
def descriptor (b : Block) (q : Nat) : List U8 :=
  let d := qOf b q
  let ptr (u : Option Nat) : Nat := match u with | some u => u + 131072 | none => 0
  leBytes 3 (ptr d.bufs.head?) ++
    [BitVec.ofNat 8 (packFields [(0, b2n (decide (q < 1024))), (1, b2n d.inbound), (2, b2n d.enabled), (3, b2n d.dropOldest),
      (4, b2n d.lost)])] ++
    leBytes 3 (ptr d.bufs.getLast?) ++ [d.consumer] ++ leBytes 2 d.bufs.length ++ b16 d.limit ++ [d.group, 0] ++ b16 d.nextSeq

/-! ### Commands (R467) -/

/-- CWY_SET_LINK. -/
def cwySetLink (m : Fin 4) (b : Block) : Block :=
  let t := (rB b m 2).toNat
  let en := rBit b m 0 0
  checked m [(0x0F02, decide (2 ≤ t ∧ t ≤ 100))] (fun b =>
    let was := b.cwy.enable
    let b := { b with cwy := { b.cwy with ackTimeout := BitVec.ofNat 7 t, enable := en } }
    let b := if en && !was then
        { b with cwy := { b.cwy with state := .training, txClkOk := true }, cwyX := { b.cwyX with trainingAt := now b } }
      else if !en && was then linkReset 1 0 b
      else b
    ok m [] (saveSettings b)) b

/-- CWY_RESET_LINK: the answer follows at UP or at the training timeout. -/
def cwyResetLink (m : Fin 4) (b : Block) : Block :=
  match b.cwyX.resetMbx with
  | some _ => b
  | none => linkReset 1 0 { b with cwyX := { b.cwyX with resetMbx := some m } }

/-- Group number of request byte `o`. -/
def reqGroup (b : Block) (m : Fin 4) (o : Nat) : Fin 64 := ⟨(rB b m o).toNat % 64, Nat.mod_lt _ (by decide)⟩

/-- CWY_SET_GROUP. -/
def cwySetGroup (m : Fin 4) (b : Block) : Block :=
  let g := reqGroup b m 0
  let r := rN b m 2 2
  let old := (groupOf b g).reservation
  checked m
    [(0x0F01, decide ((rB b m 0).toNat ≤ 63)), (0x0F02, decide (r ≤ 512)), (0x0F03, decide (b.cwy.state = .disabled)),
     (0x0F05, decide (reservedSum b - old + r ≤ 16384) && decide (r - old ≤ freeUnreserved b))] (fun b =>
    let b := saveSettings (noteLow (updGroup g (fun x => { x with reservation := r }) b))
    cmdLog m 0 (ok m (leBytes 4 (freeUnreserved b)) b)) b

/-- CWY_GET_GROUP. -/
def cwyGetGroup (m : Fin 4) (b : Block) : Block :=
  let g := reqGroup b m 0
  checked m [(0x0F01, decide ((rB b m 0).toNat ≤ 63))] (fun b =>
    let x := groupOf b g
    ok m (leBytes 2 x.reservation ++ leBytes 2 (freeReserved b g) ++ leBytes 2 (creditOf x) ++
      leBytes 2 (x.granted - x.received).toNat ++ b32 x.sentCnt ++ b32 x.recvCnt ++ [BitVec.ofNat 8 (b2n x.stalled)]) b) b

/-- QMG_SET_QUEUE: enabled, drop_oldest and limit at any time; direction, consumer and group only while the queue is empty and
disabled. Enabling sets next_seq to 0 and clears loss_pending. -/
def qmgSetQueue (m : Fin 4) (b : Block) : Block :=
  let q := rN b m 0 2
  let inb := rBit b m 2 1
  let en := rBit b m 2 2
  let dropO := rBit b m 2 3
  let cons := rB b m 3
  let grp := rB b m 4
  let limit := r16 b m 6
  let d := qOf b q
  let shape := d.inbound == inb && d.consumer == cons && d.group == grp
  checked m
    [(6, queueOk q false), (0x0F01, decide (grp.toNat ≤ 63)), (0x0F07, cons == if inb then 0x10 else 14),
     (0x0F04, shape || (d.bufs.isEmpty && !d.enabled))] (fun b =>
    let fresh := en && !d.enabled
    let b := setQ q { d with
      inbound := inb, enabled := en, dropOldest := dropO, consumer := cons, group := grp, limit := limit
      nextSeq := if fresh then 0 else d.nextSeq, lost := if fresh then false else d.lost
      seqSeen := if fresh then false else d.seqSeen } b
    cmdLog m 0 (ok m [] (saveSettings b))) b

/-- QMG_GET_QUEUE. -/
def qmgGetQueue (m : Fin 4) (b : Block) : Block :=
  let q := rN b m 0 2
  checked m [(6, queueOk q false)] (fun b =>
    ok m (descriptor b q ++ b32 (qOf b q).drops ++ b32 (qOf b q).refused) b) b

/-- QMG_FLUSH. -/
def qmgFlush (m : Fin 4) (b : Block) : Block :=
  let q := rN b m 0 2
  let n := (qOf b q).bufs.length
  checked m [(6, queueOk q false), (0x0F04, !(qOf b q).enabled)] (fun b =>
    cmdLog m 0 (ok m (leBytes 4 n) (qFlush q b))) b

/-- QMG_SET_LOW_WATER. -/
def qmgSetLowWater (m : Fin 4) (b : Block) : Block :=
  let v := rN b m 0 4
  checked m [(0x0F02, decide (v ≤ 131072))] (fun b =>
    ok m [] (saveSettings (noteLow { b with qmg := { b.qmg with lowWater := BitVec.ofNat 18 v } }))) b

/-- Clear the Causeway counts. -/
def cwyClear (b : Block) : Block :=
  { b with cwy := { b.cwy with
    txRec := 0, rxRec := 0, crcRec := 0, crcCredit := 0, retry := 0, resetCnt := 0, dup := 0, gaps := 0, badRec := 0
    groups := vmap b.cwy.groups fun x => { x with sentCnt := 0, recvCnt := 0 } } }

/-- Clear the queue manager's counts. -/
def qmgClear (b : Block) : Block :=
  { b with qmg := { b.qmg with
    ownErrCnt := 0, fullCnt := 0, dropCnt := 0, emptyCnt := 0
    queues := b.qmg.queues.filterMap fun e =>
      let d := { e.2 with drops := 0, refused := 0 }
      if d = queue0 then none else some (e.1, d) } }

/-- CWY_QMG_CLEAR. -/
def cwyQmgClear (m : Fin 4) (b : Block) : Block :=
  ok m [] (onlyIf (rBit b m 0 1) qmgClear (onlyIf (rBit b m 0 0) cwyClear b))

/-! ### Operations of an agent (R458, R64) -/

/-- The acceptance and the publication of an operation: one is accepted every 4 ticks, and its result is published 150 ticks later. The
row is the publication (DESIGN CHOICE, log entry 164). -/
def qAccept (b : Block) : Block :=
  let a := match b.qmg.lastAccept with
    | some t => max (t.toNat + 4) ((now b).toNat - 150)
    | none => (now b).toNat - 150
  let b := tideTo (a + 150) b
  { b with qmg := { b.qmg with lastAccept := some (BitVec.ofNat 64 a) } }
/-- ALLOC of an agent. -/
def qmgAlloc (a : Fin 16) (g : Fin 64) (b : Block) : Block :=
  let r := qAlloc a (if a = agRx then some g else none) b
  qTell a (match r.2 with | .ok u => .buffer u | .error e => .refused e) r.1
/-- ENQUEUE of an agent. -/
def qmgEnqueue (a : Fin 16) (q u : Nat) (b : Block) : Block :=
  let r := qEnqueue a q u b
  qTell a (match r.2 with | .ok _ => .done | .error e => .refused e) r.1
/-- DEQUEUE of an agent. -/
def qmgDequeue (a : Fin 16) (q : Nat) (b : Block) : Block :=
  let r := qDequeue a q b
  qTell a (match r.2 with | .ok u => .buffer u | .error e => .refused e) r.1
/-- FREE of an agent. -/
def qmgFree (a : Fin 16) (u : Nat) (b : Block) : Block :=
  let r := qFree a u b
  qTell a (match r.2 with | .ok _ => .done | .error e => .refused e) r.1

/-- CWY_RECORD_RECEIVE (R443). -/
def execCwyRecordReceive (slot : CwySlot) (s : State) : Result := s.run (slotReceive slot)
/-- CREDIT_FRAME_RECEIVE (R442). -/
def execCreditFrameReceive (f : List U8) (s : State) : Result := s.run (creditReceive f)
/-- CWY_RECORD_SEND (R448). -/
def execCwyRecordSend (s : State) : Result := s.run recordSend
/-- ACK_TIMEOUT (R444). -/
def execAckTimeout (s : State) : Result := s.run ackTimeout
/-- CLOCK_LOST (R440). -/
def execClockLost (s : State) : Result := s.run clockLost
/-- LINK_UP (R449). -/
def execLinkUp (s : State) : Result := s.run linkUp
/-- TRAINING_TIMEOUT (R449). -/
def execTrainingTimeout (s : State) : Result := s.run trainingTimeout
/-- RECEIVE_CLOCK_STABLE (R449). -/
def execReceiveClockStable (s : State) : Result := s.run receiveClockStable
/-- GROUP_STALL (R448). -/
def execGroupStall (g : Fin 64) (s : State) : Result := s.run (groupStall g)
/-- The Causeway receiver allocates from the reservation of group `g`, every other agent from the unreserved buffers. -/
def execQmgAlloc (agent : Fin 16) (g : Fin 64) (s : State) : Result := s.run fun b => (qmgAlloc agent g (qAccept b))
/-- QMG_ENQUEUE (R459). -/
def execQmgEnqueue (agent : Fin 16) (q : Fin 32768) (u : Fin 131072) (s : State) : Result :=
  s.run fun b => (qmgEnqueue agent q.val u.val (qAccept b))
/-- QMG_DEQUEUE (R458). -/
def execQmgDequeue (agent : Fin 16) (q : Fin 32768) (s : State) : Result := s.run fun b => (qmgDequeue agent q.val (qAccept b))
/-- QMG_FREE (R462). -/
def execQmgFree (agent : Fin 16) (u : Fin 131072) (s : State) : Result := s.run fun b => qmgFree agent u.val (qAccept b)
/-- CWY_SET_LINK (R467). -/
def execCwySetLink (m : Fin 4) (s : State) : Result := s.run (command m 0x0F01 .sedge (cwySetLink m))
/-- CWY_GET_STATUS (R467). -/
def execCwyGetStatus (m : Fin 4) (s : State) : Result :=
  s.run (command m 0x0F02 .sedge fun b => ok m (b32s ((List.range 16).map fun i => cwyWord b (0x9C0 + i))) b)
/-- CWY_RESET_LINK (R467). -/
def execCwyResetLink (m : Fin 4) (s : State) : Result := s.run (command m 0x0F03 .sedge (cwyResetLink m))
/-- CWY_SET_GROUP (R467). -/
def execCwySetGroup (m : Fin 4) (s : State) : Result := s.run (command m 0x0F04 .sedge (cwySetGroup m))
/-- CWY_GET_GROUP (R467). -/
def execCwyGetGroup (m : Fin 4) (s : State) : Result := s.run (command m 0x0F05 .sedge (cwyGetGroup m))
/-- QMG_SET_QUEUE (R467). -/
def execQmgSetQueue (m : Fin 4) (s : State) : Result := s.run (command m 0x0F06 .sedge (qmgSetQueue m))
/-- QMG_GET_QUEUE (R467). -/
def execQmgGetQueue (m : Fin 4) (s : State) : Result := s.run (command m 0x0F07 .sedge (qmgGetQueue m))
/-- QMG_FLUSH (R467). -/
def execQmgFlush (m : Fin 4) (s : State) : Result := s.run (command m 0x0F08 .sedge (qmgFlush m))
/-- QMG_GET_POOL (R467). -/
def execQmgGetPool (m : Fin 4) (s : State) : Result :=
  s.run (command m 0x0F09 .sedge fun b =>
    ok m (b32s ((List.range 16).map (fun i => qmgWord b (0xA00 + i)) ++ (List.range 16).map fun i => qmgWord b (0xA20 + i))) b)
/-- QMG_SET_LOW_WATER (R467). -/
def execQmgSetLowWater (m : Fin 4) (s : State) : Result := s.run (command m 0x0F0A .sedge (qmgSetLowWater m))
/-- CWY_QMG_CLEAR (R467). -/
def execCwyQmgClear (m : Fin 4) (s : State) : Result := s.run (command m 0x0F0B .sedge (cwyQmgClear m))

end Sys2Proof.Machine
end

