-- ==== Sys2Proof/Machine/Crossings.lean ====
section
/-! DEFINITION. The crossings between timing domains (03_fabric_crossings.md R76 to R79): their joint reset and release, the copies that
nothing reads while they are invalid, and the events that a sender counts until it may send them one toggle at a time. -/

namespace Sys2Proof.Machine

/-- The crossings of R77, in the order of its table. -/
inductive CrossId where
  | completion | tideSample | hostWrite | tideToDyke | permit | backupClock | causewayIn | causewayOut | lpddr
deriving DecidableEq, Repr

/-- The row of R77. -/
def CrossId.row : CrossId → Fin 9
  | .completion => 0 | .tideSample => 1 | .hostWrite => 2 | .tideToDyke => 3 | .permit => 4
  | .backupClock => 5 | .causewayIn => 6 | .causewayOut => 7 | .lpddr => 8
/-- One crossing. -/
def crossOf (b : Block) (k : CrossId) : Crossing := vget b.cross k.row
/-- Change one crossing. -/
def updCross (k : CrossId) (f : Crossing → Crossing) (b : Block) : Block := { b with cross := vupd b.cross k.row f }
/-- Both sides are released: the joint release of R79 is complete. -/
def Crossing.joined (c : Crossing) : Bool := c.receiver && c.sender
/-- Reset is asserted to both sides at once (R79 steps 1 to 3): the copies are invalid and the toggles equal, without an event; what waits
at the sender stays counted (R78). -/
def Crossing.reset (c : Crossing) : Crossing := { waiting := c.waiting }
/-- Step 4 of R79: the receiver is released first. -/
def Crossing.releaseReceiver (c : Crossing) : Crossing := { c with receiver := true }
/-- Step 4 of R79: the sender is released, and the copies are valid from then on. -/
def Crossing.releaseSender (c : Crossing) : Crossing := if c.receiver then { c with sender := true, copyValid := true } else c
/-- An event crosses: the sender turns its toggle, and the receiver acknowledges with its own (R76 item 3). -/
def Crossing.pass (c : Crossing) : Crossing := { c with toggle := !c.toggle, ack := !c.toggle }
/-- Reset every crossing. -/
def crossReset (b : Block) : Block := { b with cross := b.cross.map Crossing.reset }
/-- Release every receiver. -/
def crossReceivers (b : Block) : Block := { b with cross := b.cross.map Crossing.releaseReceiver }
/-- Release every sender. -/
def crossSenders (b : Block) : Block := { b with cross := b.cross.map Crossing.releaseSender }
/-- Send a value over a crossing: it acts when the two sides are joined, and is counted at the sender until then (R78). -/
def crossSend (k : CrossId) (v : U32) (act : U32 → Block → Block) (b : Block) : Block :=
  if (crossOf b k).joined then act v (updCross k Crossing.pass b) else updCross k (fun c => { c with waiting := c.waiting ++ [v] }) b
/-- Send what waits, one toggle at a time, in order (R78). -/
def crossDrain (k : CrossId) (act : U32 → Block → Block) (b : Block) : Block :=
  if (crossOf b k).joined then
    forAll (crossOf b k).waiting (fun v b => act v (updCross k Crossing.pass b)) (updCross k (fun c => { c with waiting := [] }) b)
  else b

end Sys2Proof.Machine
end

