-- ==== Sys2Proof/Machine/Panels.lean ====
section
/-! DEFINITION. Display panels and contactless readers (18_panel_contactless.md). -/

namespace Sys2Proof.Machine

/-- Panel port `p`. -/
def pnlOf (b : Block) (p : Fin 8) : Panel := vget b.pnl p
/-- Change it. -/
def updPnl (p : Fin 8) (f : Panel → Panel) (b : Block) : Block := { b with pnl := vupd b.pnl p f }
/-- Panel ports and readers by number. -/
def ports : List (Fin 8) := List.finRange 8

/-! ### The frame SRAM (R469, R473) -/

/-- Address of a line of port `p`. -/
def lineAddr (p : Fin 8) (line : Nat) : Nat := 131072 * p.val + 360 * line
/-- A line as a number whose bit k is bit k of the line. -/
def lineNat (b : Block) (p : Fin 8) (line : Nat) : Nat := leNat (Memory.readN b.frames (lineAddr p line) 360)
/-- Put a pixel value at column `x`: bits 6x to 6x + 5. -/
def setPixel (x : Nat) (v : BitVec 6) (l : Nat) : Nat := l - fieldOf l (6 * x) 6 * 2 ^ (6 * x) + v.toNat * 2 ^ (6 * x)
/-- Put a row of pixel values from column `x`. -/
def setRow : Nat → List (BitVec 6) → Nat → Nat
  | _, [], l => l
  | x, v :: vs, l => setRow (x + 1) vs (setPixel x v l)
/-- A subpixel level in a line's bit order, most significant bit first. -/
def levelBits (v : Nat) : Nat := v / 2 + 2 * (v % 2)
/-- A pixel value from its three levels, R first (R469). -/
def pixelOf (r g bl : Nat) : BitVec 6 := BitVec.ofNat 6 (levelBits r + 4 * levelBits g + 16 * levelBits bl)
/-- The dither thresholds of R473, row by row. -/
def ditherTable : List Nat := [0, 8, 2, 10, 12, 4, 14, 6, 3, 11, 1, 9, 15, 7, 13, 5]
/-- The threshold at a pixel. -/
def ditherAt (x y : Nat) : Nat := ditherTable.getD (4 * (y % 4) + x % 4) 0
/-- The level of gamma value `L` at a pixel (R473). -/
def levelOf (dither : Bool) (x y L : Nat) : Nat :=
  if dither then min 3 ((48 * L + 255 * ditherAt x y + 127) / 4080) else (3 * L + 127) / 255
/-- The gamma table of colour `c` at value `v` (R473): the identity until one is loaded. -/
def gammaOf (x : Panel) (c : Nat) (v : U8) : Nat := if x.gamma = [] then v.toNat else (byteAt x.gamma (256 * c + v.toNat)).toNat
/-- A source pixel converted (R473). -/
def convert (k : Panel) (x y : Nat) (r g bl : U8) : BitVec 6 :=
  pixelOf (levelOf k.dither x y (gammaOf k 0 r)) (levelOf k.dither x y (gammaOf k 1 g)) (levelOf k.dither x y (gammaOf k 2 bl))
/-- Write the rows of a draw: the changed lines are marked dirty (R472). The lines changed. -/
def writeRows (p : Fin 8) (x : Nat) : Nat → List (List (BitVec 6)) → Block → Block × Nat
  | _, [], b => (b, 0)
  | y, r :: rs, b =>
    let old := lineNat b p y
    let new := setRow x r old
    if new = old then writeRows p x (y + 1) rs b
    else
      let b := { b with frames := b.frames.writeN (lineAddr p y) (leBytes 360 new) }
      let t := writeRows p x (y + 1) rs (updPnl p (fun k => { k with dirty := if k.dirty.contains y then k.dirty else k.dirty ++ [y] }) b)
      (t.1, t.2 + 1)
/-- Apply a draw: a draw with flush set, or a strip update, asks for a pass (R472). -/
def applyDraw (p : Fin 8) (d : Draw) (b : Block) : Block :=
  let t := writeRows p d.x d.y d.rows b
  let b := onlyIf d.flush (updPnl p fun k => { k with passPending := true }) t.1
  match d.mbx with
  | none => b
  | some m => ok m (leBytes 2 t.2) b
/-- A draw acts at once, or waits while a pass runs (R472). -/
def draw' (p : Fin 8) (d : Draw) (b : Block) : Block :=
  if (pnlOf b p).passUntil.isSome then updPnl p (fun k => { k with waiting := k.waiting ++ [d] }) b else applyDraw p d b

/-! ### Passes (R470 to R472) -/

/-- Insert a line number into a rising list. -/
def insertLine (x : Nat) : List Nat → List Nat
  | [] => [x]
  | y :: r => if x ≤ y then x :: y :: r else y :: insertLine x r
/-- Lines in ascending order. -/
def sortLines (l : List Nat) : List Nat := l.foldr insertLine []
/-- Runs of consecutive lines in an ascending list. -/
def runCount : List Nat → Nat
  | [] => 0
  | [_] => 1
  | x :: y :: r => runCount (y :: r) + (if y = x + 1 then 0 else 1)
/-- Ticks of a pass over `lines` lines in `runs` frames at `sck` MHz (R470): the bits, and per frame the guard times. -/
def passTicks (lines runs sck : Nat) : Nat :=
  ((lines * 2896 + runs * 32) * 1500 + max sck 1 - 1) / max sck 1 + runs * (4 * 1500 + Config.passSlack) + (runs - 1) * 1500
/-- A pass starts at the toggle (R472). -/
def passStart (p : Fin 8) (b : Block) : Block :=
  let k := pnlOf b p
  let ls := sortLines k.dirty
  let b := updPnl p (fun k => { k with passPending := false, flushMbx := none }) b
  let b := if ls = [] then b else updPnl p (fun k => { k with
    passFrom := now b, passUntil := some (now b + BitVec.ofNat 64 (passTicks ls.length (runCount ls) k.sck.toNat)), passLines := ls, dirty := [] }) b
  match k.flushMbx with
  | none => b
  | some m => ok m (b64 (if ls = [] then 0 else now b)) b
/-- The instant of the next toggle of port `p` (R471). -/
def toggleAt (b : Block) (p : Fin 8) : Nat :=
  let off := 1562500 * p.val
  multipleFrom 12500000 (max (now b).toNat ((pnlOf b p).extAt.toNat + 1) - off) + off
/-- EXTCOMIN_TOGGLE (R471): a waiting pass starts on a port that runs. -/
def extcominToggle (p : Fin 8) (b : Block) : Block :=
  if !(pnlOf b p).enable || !b.tide.ready then updPnl p (fun k => { k with extcomin := false }) b
  else atInstant (toggleAt b p) (fun b =>
    let b := updPnl p (fun k => { k with extcomin := !k.extcomin, extAt := now b }) b
    let k := pnlOf b p
    if k.passPending && !k.fault && !k.passUntil.isSome then passStart p b else b) b
/-- The draws that waited for the pass are applied in order; what they leave dirty starts the next pass (R472). -/
def applyWaiting (p : Fin 8) (b : Block) : Block :=
  let ds := (pnlOf b p).waiting
  let b := forAll ds (applyDraw p) (updPnl p (fun k => { k with waiting := [] }) b)
  updPnl p (fun k => { k with passPending := k.passPending || k.dirty != [] }) b
/-- PANEL_PASS_END (R472). -/
def panelPassEnd (p : Fin 8) (b : Block) : Block :=
  match (pnlOf b p).passUntil with
  | none => b
  | some t => atInstant t.toNat (fun b =>
      let b := updPnl p (fun k => { k with
        passUntil := none, passLines := [], passCnt := satInc k.passCnt, lastMs := BitVec.ofNat 16 (min 65535 ((t.toNat - k.passFrom.toNat) / 150000)) }) b
      applyWaiting p (onlyIf (pnlOf b p).passIrq (irq 448) b)) b
/-- A running pass of a port that stops is broken off: its lines stay dirty, and the next pass sends them (R476). -/
def passBreak (p : Fin 8) (b : Block) : Block :=
  applyWaiting p (updPnl p (fun k => { k with
    passUntil := none, dirty := k.dirty ++ k.passLines.filter (fun l => !k.dirty.contains l), passLines := []
    passPending := k.passPending || k.passUntil.isSome }) b)
/-- PANEL_BIAS_FAULT (R468): the BIAS ball of a half has been below 4.0 V for 10 ms. -/
def panelBiasFault (half : Fin 2) (b : Block) : Block :=
  forAll (ports.filter fun p => p.val / 4 == half.val && (pnlOf b p).enable && !(pnlOf b p).fault) (fun p b =>
    let mb := (pnlOf b p).flushMbx
    let b := passBreak p (irq 449 (updPnl p (fun k => { k with fault := true, flushMbx := none }) b))
    match mb with | none => b | some m => refuse m 0x1003 b) b

/-- The level of ball PNL_EXTCOMIN{p} (R471): low while the port is disabled or Tide is not ready. -/
def extcominPin (b : Block) (p : Fin 8) : Bool := (pnlOf b p).enable && b.tide.ready && (pnlOf b p).extcomin
/-- The charge-pump cell of port `p` runs (R468). -/
def cellRuns (b : Block) (p : Fin 8) : Bool := (pnlOf b p).enable && !(pnlOf b p).fault
/-- A number in `n` bits, most significant bit first. -/
def msbBits (n v : Nat) : List Bool := (List.range n).map fun k => bitOf v (n - 1 - k)
/-- The bits of one frame of a pass (R470): the header with the first line, for each line its 2,880 bits and the next line number, and 16
zero bits. Numbers go most significant bit first (DEDUCED, log entry 178). -/
def frameBits (b : Block) (p : Fin 8) (ls : List Nat) : List Bool :=
  msbBits 6 0b100000 ++ msbBits 10 (ls.headD 0) ++
    ls.flatMap (fun y => (List.range 2880).map (bitOf (lineNat b p y)) ++ msbBits 6 0 ++ msbBits 10 (y + 1)) ++ msbBits 16 0
/-- An ascending list cut into its runs of consecutive lines. -/
def lineRuns : List Nat → List (List Nat)
  | [] => []
  | x :: r => match lineRuns r with
    | (y :: t) :: u => if y = x + 1 then (x :: y :: t) :: u else [x] :: (y :: t) :: u
    | u => [x] :: u
/-- The frames that the running pass of port `p` sends (R470); its lines are locked while it runs. -/
def passFrames (b : Block) (p : Fin 8) : List (List Bool) := (lineRuns (pnlOf b p).passLines).map (frameBits b p)

/-! ### The legal strip (R475, R476) -/

/-- Cell codes of a text. -/
def cellsOf (s : String) : List Nat := s.toList.map Char.toNat
/-- Decimal digits of a number, at least `n`. -/
def decimalAux : Nat → Nat → List Nat → List Nat
  | 0, _, l => l
  | f + 1, v, l => if v < 10 then (48 + v) :: l else decimalAux f (v / 10) ((48 + v % 10) :: l)
/-- The digits of a number, without leading zeros. -/
def decimal (v : Nat) : List Nat := decimalAux 20 v []
/-- Cells padded with blanks, or cut, to `n`; texts stand at the left of their cells (DESIGN CHOICE, log entry 27). -/
def cellPad (n : Nat) (l : List Nat) : List Nat := (l ++ List.replicate n 32).take n
/-- "C " and the check value, most significant nibble first. -/
def checkCells (w : U32) : List Nat := cellsOf "C " ++ (List.range 8).map fun k => 256 + w.toNat / 16 ^ (7 - k) % 16
/-- Energy in kWh with three decimals. -/
def energyCells (e : Acc) : List Nat :=
  let wh := (exportAcc e).toNat / 1000
  decimal (wh / 1000) ++ [46, 48 + wh / 100 % 10, 48 + wh / 10 % 10, 48 + wh % 10] ++ cellsOf " kWh"
/-- "T" and the tariff, two digits. -/
def tariffCells (t : Nat) : List Nat := [84, 48 + t / 10 % 10, 48 + t % 10]
/-- The message of a reason code and queue position (R475). -/
def reasonCells (reason pos : Nat) : List Nat :=
  match reason with
  | 0x00 => cellsOf "READY"
  | 0x10 => cellsOf "CHARGING"
  | 0x11 => cellsOf "CHARGING - LIMITED BY SITE"
  | 0x12 => cellsOf "CHARGING - LIMITED BY MODULES"
  | 0x13 => cellsOf "CHARGING - LIMITED BY CABLE TEMPERATURE"
  | 0x20 => cellsOf "WAITING - POSITION " ++ decimal pos
  | 0x30 => cellsOf "REFUSED - NO POWER AVAILABLE"
  | 0x31 => cellsOf "REFUSED - SITE LIMIT"
  | 0x32 => cellsOf "REFUSED"
  | _ => []
/-- The connector that a 5-bit setting assigns. -/
def assigned (c : BitVec 5) : Option (Fin 16) := if h : c.toNat < 16 then some ⟨c.toNat, h⟩ else none
/-- The message of connector `n`. -/
def messageCells (b : Block) (n : Fin 16) : List Nat :=
  let r := (sessOf b n).rep
  if phaseOf b n = .faulted then cellsOf "OUT OF SERVICE" else reasonCells r.reason.toNat r.queuePos.toNat
/-- The two text rows of port `p`'s strip (R475). -/
def stripText (b : Block) (p : Fin 8) : List Nat × List Nat :=
  let head := cellPad 12 (checkCells b.slt.carrCheck)
  let tar := cellPad 4 (tariffCells b.slt.tariff.toNat)
  let x := if b.slt.tamper then 88 else 32
  match assigned (pnlOf b p).connector with
  | none => (cellPad 60 (head ++ List.replicate 16 32 ++ tar ++ [32, x]), cellPad 60 (cellsOf "HUB"))
  | some n =>
    let c := legalOf b n
    (cellPad 60 (head ++ cellPad 15 (energyCells c.del) ++ [32] ++ tar ++ [if c.unproven then 85 else 32, x]), cellPad 60 (messageCells b n))
/-- Black on white: the pixels of row `y` of a cell. -/
def cellPixels (c y : Nat) : List (BitVec 6) := (List.range 8).map fun k => if c ≠ 32 ∧ (Config.glyph c y).getLsbD k then 0 else 0x3F
/-- The 32 pixel rows of the strip. -/
def stripRows (b : Block) (p : Fin 8) : List (List (BitVec 6)) :=
  let t := stripText b p
  (List.range 32).map fun y => (if y < 16 then t.1 else t.2).flatMap fun c => cellPixels c (y % 16)
/-- Rows of the panel. -/
def panelRows (k : Panel) : Nat := 8 * k.height.toNat
/-- Carr redraws the strip of port `p` (R476); source 450 on a faulted port, whose strip content is kept. -/
def redrawStrip (p : Fin 8) (b : Block) : Block :=
  if !b.rst.carr then b
  else
    let k := pnlOf b p
    let b := draw' p { x := 0, y := panelRows k - 32, rows := stripRows b p, flush := true } (updPnl p (fun k => { k with stripAt := now b }) b)
    onlyIf k.fault (irq 450) b

/-! ### Panel commands (R486) -/

/-- PNL_RANGE: port 0-7. -/
def portCheck (b : Block) (m : Fin 4) : Nat × Bool := (0x1001, decide (rN b m 0 1 < 8))
/-- The port of a request. -/
def reqPort (b : Block) (m : Fin 4) : Fin 8 := ⟨rN b m 0 1 % 8, Nat.mod_lt _ (by decide)⟩
/-- PORT_FAULT: the port runs. -/
def portRuns (b : Block) (m : Fin 4) : Nat × Bool := (0x1003, (pnlOf b (reqPort b m)).enable && !(pnlOf b (reqPort b m)).fault)
/-- PNL_CFG(p) (R484). -/
def pnlCfgWord (k : Panel) : U32 := reg32 [(0, b2n k.dither), (1, b2n k.passIrq), (2, k.height.toNat), (8, k.sck.toNat), (13, k.connector.toNat)]
/-- PNL_STAT(p). -/
def pnlStatWord (k : Panel) : U32 := reg32 [(0, k.dirty.length), (16, k.lastMs.toNat)]
/-- A 5-bit connector setting is 0-15 or none. -/
def connectorOk (c : Nat) : Bool := decide (c < 16) || c == 31
/-- A PNL_CFG word is in range. -/
def pnlCfgOk (w : Nat) : Bool := decide (8 ≤ fieldOf w 2 6 ∧ fieldOf w 2 6 ≤ 40 ∧ 1 ≤ fieldOf w 8 5 ∧ fieldOf w 8 5 ≤ 20) && connectorOk (fieldOf w 13 5)
/-- The enable bit of PNL_SET_CONFIG: enabling clears a fault (R468); disabling ends the running pass, whose lines stay dirty, and
holds EXTCOMIN low (R471). -/
def pnlEnable (p : Fin 8) (on : Bool) (b : Block) : Block :=
  if on then updPnl p (fun k => { k with enable := true, fault := false }) b
  else passBreak p (updPnl p (fun k => { k with enable := false, extcomin := false }) b)
/-- PNL_SET_CONFIG. -/
def pnlSetConfig (m : Fin 4) (b : Block) : Block :=
  let p := reqPort b m
  let w := rN b m 4 4
  checked m [portCheck b m, (0x1001, pnlCfgOk w)] (fun b =>
    let old := pnlOf b p
    let b := updPnl p (fun k => { k with
      dither := bitOf w 0, passIrq := bitOf w 1, height := BitVec.ofNat 6 (fieldOf w 2 6), sck := BitVec.ofNat 5 (fieldOf w 8 5)
      connector := BitVec.ofNat 5 (fieldOf w 13 5) }) b
    let b := pnlEnable p (rBit b m 1 0) b
    let k := pnlOf b p
    saveSettings (ok m [] (onlyIf (k.height != old.height || k.connector != old.connector) (redrawStrip p) b))) b
/-- PNL_LOAD_GAMMA (R473). -/
def pnlLoadGamma (m : Fin 4) (b : Block) : Block :=
  let g := rBytes b m 4 768
  checked m [portCheck b m] (fun b => ok m (b32 (crc32c g)) (updPnl (reqPort b m) (fun k => { k with gamma := g, gammaCrc := crc32c g }) b)) b
/-- The rectangle checks of R474, for a rectangle at (x, y) of w by h. -/
def rectChecks (k : Panel) (x y w h : Nat) : List (Nat × Bool) :=
  let H := panelRows k
  [(0x1001, decide (x + w ≤ 480)), (0x1002, !decide (0 < h ∧ y < H ∧ H - 32 < y + h)), (0x1001, decide (y + h ≤ H - 32))]
/-- PNL_DRAW. -/
def pnlDraw (m : Fin 4) (b : Block) : Block :=
  let p := reqPort b m
  let k := pnlOf b p
  let q := rN b m 2 2
  let x := rN b m 4 2
  let y := rN b m 6 2
  let w := rN b m 8 2
  let h := rN b m 10 2
  let n := (w * h * 3 + 55) / 56
  checked m ([portCheck b m] ++ rectChecks k x y w h ++ [portRuns b m, (6, queueOk q false), (hostDataCheck b q n, hostDataCheck b q n == 0)]) (fun b =>
    let px := padTo (3 * w * h) (hostDataBytes b q n)
    let rows := (List.range h).map fun j => (List.range w).map fun i =>
      let o := 3 * (w * j + i)
      convert k (x + i) (y + j) (byteAt px o) (byteAt px (o + 1)) (byteAt px (o + 2))
    draw' p { x := x, y := y, rows := rows, flush := rBit b m 1 0, mbx := some m } (hostDataConsume q n b)) b
/-- PNL_FILL. -/
def pnlFill (m : Fin 4) (b : Block) : Block :=
  let p := reqPort b m
  let k := pnlOf b p
  let x := rN b m 6 2
  let y := rN b m 8 2
  let w := rN b m 10 2
  let h := rN b m 12 2
  checked m ([portCheck b m] ++ rectChecks k x y w h ++ [portRuns b m]) (fun b =>
    let rows := (List.range h).map fun j => (List.range w).map fun i => convert k (x + i) (y + j) (rB b m 2) (rB b m 3) (rB b m 4)
    draw' p { x := x, y := y, rows := rows, flush := rBit b m 1 0, mbx := some m } b) b
/-- PNL_FLUSH (R472): the answer comes when the pass begins, at once with 0 on a port without dirty lines. -/
def pnlFlush (m : Fin 4) (b : Block) : Block :=
  let p := reqPort b m
  checked m [portCheck b m, portRuns b m] (fun b =>
    if (pnlOf b p).dirty = [] then ok m (b64 0) b else updPnl p (fun k => { k with passPending := true, flushMbx := some m }) b) b
/-- PNL_GET_STATUS. -/
def pnlGetStatus (m : Fin 4) (b : Block) : Block :=
  let k := pnlOf b (reqPort b m)
  checked m [portCheck b m] (ok m (b32s [pnlCfgWord k, pnlStatWord k, k.passCnt])) b
/-- The ports or readers of a mask. -/
def maskPorts (b : Block) (m : Fin 4) : List (Fin 8) := ports.filter fun p => bitOf (rN b m 0 1) p.val
/-- PNL_CLEAR_COUNTS. -/
def pnlClearCounts (m : Fin 4) (b : Block) : Block := ok m [] (forAll (maskPorts b m) (fun p => updPnl p fun k => { k with passCnt := 0 }) b)

/-- Words 0x0A80 to 0x0ABF (R484). -/
def pnlWord (b : Block) (a : Nat) : U32 :=
  let at' := fun (o : Nat) => pnlOf b ⟨(a - o) % 8, Nat.mod_lt _ (by decide)⟩
  if a = 0xA80 then
    reg32 [(0, bitsNat (b.pnl.toList.map fun k => k.enable && !k.fault)), (8, bitsNat (b.pnl.toList.map (·.fault))),
      (16, bitsNat (b.pnl.toList.map fun k => k.passUntil.isSome))]
  else if 0xA88 ≤ a ∧ a < 0xA90 then pnlCfgWord (at' 0xA88)
  else if 0xA90 ≤ a ∧ a < 0xA98 then pnlStatWord (at' 0xA90)
  else if 0xA98 ≤ a ∧ a < 0xAA0 then (at' 0xA98).passCnt
  else if 0xAA0 ≤ a ∧ a < 0xAA8 then (at' 0xAA0).gammaCrc
  else 0

/-! ### Readers (R477 to R483) -/

/-- Reader `r`. -/
def nfcOf (b : Block) (r : Fin 8) : Reader := vget b.nfc r
/-- Change it. -/
def updNfc (r : Fin 8) (f : Reader → Reader) (b : Block) : Block := { b with nfc := vupd b.nfc r f }
/-- Another reader of the group of reader `r` has its field on (R480). -/
def groupBusy (b : Block) (r : Fin 8) : Bool :=
  ports.any fun k =>
    let x := nfcOf b k
    k != r && (x.field || (match x.radiated with | some t => !passed b t 45000 | none => false)) && x.fieldGroup == (nfcOf b r).fieldGroup
/-- Start a poll, or wait for the group's field (R480, R481). -/
def pollStart (r : Fin 8) (b : Block) : Block :=
  if groupBusy b r then updNfc r (fun x => { x with waiting := some (x.waiting.getD (now b)) }) b
  else updNfc r (fun x => { x with polling := true, field := true, waiting := none, pollAt := now b }) b
/-- Reader `r` is in detection. -/
def detecting (x : Reader) : Bool := x.enable && !x.fault && !x.field && !x.polling && !x.waiting.isSome
/-- The amplitude of a measurement. -/
def pingAmplitude (x : NfcSample) : Nat := isqrt ((x.i.toInt * x.i.toInt + x.q.toInt * x.q.toInt).toNat)
/-- The detuning (R479): the distance of a measurement from the baseline in 1/1,024 of the baseline's amplitude, at most what its field
holds; from a baseline of 0, which the spec does not treat, the most (DESIGN CHOICE, log entry 178). -/
def detuning (base x : NfcSample) : BitVec 10 :=
  let di := x.i.toInt - base.i.toInt
  let dq := x.q.toInt - base.q.toInt
  let e := (base.i.toInt * base.i.toInt + base.q.toInt * base.q.toInt).toNat
  if e = 0 then 1023 else BitVec.ofNat 10 (min 1023 (isqrt (1048576 * (di * di + dq * dq).toNat / e)))
/-- A component of the baseline a sixteenth of the way nearer the measurement, rounded toward the old value (log entry 29). -/
def nearer (old new : BitVec 16) : BitVec 16 := BitVec.ofInt 16 (old.toInt + (new.toInt - old.toInt).tdiv 16)
/-- The baseline a sixteenth of the way nearer the measurement (R479). -/
def moveBaseline (base x : NfcSample) : NfcSample := { i := nearer base.i x.i, q := nearer base.q x.q }
/-- The instant of the next ping of reader `r` (R479). -/
def pingAt (b : Block) (r : Fin 8) : Nat :=
  let off := 46875000 * r.val
  let lo := match (nfcOf b r).lastPing with | some t => max (now b).toNat (t.toNat + 1) | none => (now b).toNat
  multipleFrom 375000000 (lo - off) + off
/-- NFC_PING (R479): skipped while the group's field is on; a detuning of at least lpcd_thr starts a poll. -/
def nfcPing (r : Fin 8) (s : NfcSample) (b : Block) : Block :=
  if !detecting (nfcOf b r) then b
  else atInstant (pingAt b r) (fun b =>
    let b := updNfc r (fun x => { x with lastPing := some (now b) }) b
    if groupBusy b r then b
    else
      let d := detuning (nfcOf b r).base s
      let b := updNfc r (fun x => { x with lastD := d, radiated := some (now b) }) b
      if (nfcOf b r).lpcdThr ≤ d then pollStart r (updNfc r (fun x => { x with pinged := some s }) b)
      else updNfc r (fun x => { x with base := moveBaseline x.base s }) b) b
/-- The code of a technology (R482). -/
def techCode : CardTech → Nat
  | .a => 1 | .b => 2 | .v => 3
/-- The reader searches for the technology, and the UID has a length it has (R478, R482). -/
def cardFits (x : Reader) (c : CardInfo) : Bool :=
  x.techs.getLsbD (techCode c.tech - 1) &&
    (match c.tech with | .a => [4, 7, 10].contains c.uid.length | .b => c.uid.length == 4 | .v => c.uid.length == 8)
/-- The identifier is random (R483). -/
def uidRandom (c : CardInfo) : Bool :=
  match c.tech with | .a => c.uid.length == 4 && byteAt c.uid 0 == 8 | .b => true | .v => false
/-- Bytes 8 to 55 of a card record (R482). -/
def cardBytes (r : Fin 8) (conn : BitVec 5) (c : CardInfo) : List U8 :=
  padTo 48 ([BitVec.ofNat 8 r.val, (match assigned conn with | some n => BitVec.ofNat 8 n.val | none => 0xFF), BitVec.ofNat 8 (techCode c.tech),
    BitVec.ofNat 8 (b2n (uidRandom c) + 4 * b2n (c.iso4 && c.tech != .v)), BitVec.ofNat 8 c.uid.length, 0, 0, 0] ++ padTo 10 c.uid ++ padTo 4 c.data)
/-- Send a card or removal record (R482, R485): source `src`, or 459 when the queue refuses it. -/
def sendCard (r : Fin 8) (src : Nat) (payload : List U8) (b : Block) : Block :=
  let q := (nfcOf b r).queue
  if q = 0xFFFF then b
  else match sendRecord agSedge q.toNat (mkRecord 0x1110 56 0 payload) b with
    | (b, .ok _) => irq src b
    | (b, .error _) => irq 459 b
/-- Answer the mailbox that waits for the poll of reader `r`. -/
def pollAnswer (r : Fin 8) (found : Bool) (payload : List U8) (b : Block) : Block :=
  match (nfcOf b r).pollMbx with
  | none => b
  | some m => ok m ([BitVec.ofNat 8 (b2n found), 0, 0, 0] ++ padTo 56 payload) (updNfc r (fun x => { x with pollMbx := none }) b)
/-- Guard time before the search of a poll (R481), 5 ms. -/
def guardTime : Nat := 7500000
/-- CARD_RESOLVED (R481), after the guard time. -/
def cardResolved (r : Fin 8) (c : CardInfo) (b : Block) : Block :=
  let x := nfcOf b r
  if !(x.polling && cardFits x c) then b
  else afterTicks x.pollAt guardTime (fun b =>
    let rec_ := b64 (now b) ++ cardBytes r x.connector c
    let b := traceItem 9 0 (now b) ([BitVec.ofNat 8 r.val, 0, 0, 0] ++ c.uid ++ c.data) b
    let b := updNfc r (fun x => { x with polling := false, card := true, cardRec := rec_, presenceFails := 0, lastPresence := now b, pinged := none
                                         resolved := satAdd x.resolved 1 }) b
    pollAnswer r true rec_ (sendCard r 456 rec_ b)) b
/-- The field of reader `r` falls; its card is gone, and the copy of the identifier with it (R483). -/
def fieldOff (r : Fin 8) (b : Block) : Block :=
  updNfc r (fun x => { x with field := false, card := false, polling := false, cardRec := [], presenceFails := 0, pinged := none }) b
/-- FALSE_WAKE_UP (R479): the poll finds no card. -/
def falseWakeUp (r : Fin 8) (b : Block) : Block :=
  let x := nfcOf b r
  if !x.polling then b
  else afterTicks x.pollAt guardTime (fun b =>
    let b := updNfc r (fun x => { x with falseWake := satAdd x.falseWake 1, base := x.pinged.getD x.base }) b
    pollAnswer r false [] (fieldOff r b)) b
/-- PRESENCE_CHECK (R481): every 200 ms; the third consecutive failure removes the card. -/
def presenceCheck (r : Fin 8) (answered : Bool) (b : Block) : Block :=
  let x := nfcOf b r
  if !x.card then b
  else afterTicks x.lastPresence 300000000 (fun b =>
    let b := traceItem 9 0 (now b) [BitVec.ofNat 8 r.val, 0, 0, 0, BitVec.ofNat 8 (b2n answered)] (updNfc r (fun x => { x with lastPresence := now b }) b)
    if answered then updNfc r (fun x => { x with presenceFails := 0 }) b
    else if x.presenceFails < 2 then updNfc r (fun x => { x with presenceFails := x.presenceFails + 1 }) b
    else
      let gone := b64 (now b) ++ (x.cardRec.drop 8).take 3 ++ [byteAt x.cardRec 11 ||| 2] ++ x.cardRec.drop 12
      fieldOff r (sendCard r 457 gone b)) b
/-- The reader of the group of `r` whose poll has waited longest. -/
def firstWaiting (b : Block) (g : BitVec 3) : Option (Fin 8) :=
  ports.foldl (fun a k =>
    let x := nfcOf b k
    match x.waiting with
    | some t => if x.fieldGroup = g then (match a with
        | some j => (match (nfcOf b j).waiting with | some u => if t.toNat < u.toNat then some k else a | none => some k)
        | none => some k) else a
    | none => a) none
/-- FIELD_RELEASE (R480): the field of reader `r` has fallen; the first reader of its group that waits starts its poll. -/
def fieldRelease (r : Fin 8) (b : Block) : Block :=
  if (nfcOf b r).field then b
  else match firstWaiting b (nfcOf b r).fieldGroup with
    | none => b
    | some k => pollStart k b
/-- NFC_TX_FAULT (R485): over-current turns the field off. -/
def nfcTxFault (r : Fin 8) (b : Block) : Block :=
  if !(nfcOf b r).field then b
  else
    let mb := (nfcOf b r).pollMbx
    let b := irq 458 (updNfc r (fun x => { x with fault := true, pollMbx := none }) (fieldOff r b))
    match mb with | none => b | some m => refuse m 0x1105 b

/-! ### Contactless commands (R487) -/

/-- READER_RANGE: reader 0-7. -/
def readerCheck (b : Block) (m : Fin 4) : Nat × Bool := (0x1101, decide (rN b m 0 1 < 8))
/-- READER_FAULT; a disabled reader has not started, NOT_READY (DESIGN CHOICE, log entry 30). -/
def readerUp (b : Block) (m : Fin 4) : List (Nat × Bool) :=
  [(4, (nfcOf b (reqPort b m)).enable), (0x1105, !(nfcOf b (reqPort b m)).fault)]
/-- NFC_CFG(r) (R484). -/
def nfcCfgWord (x : Reader) : U32 :=
  reg32 [(0, x.techs.toNat), (3, x.maxRate.toNat), (5, x.txLevel.toNat), (8, x.fieldGroup.toNat), (11, x.connector.toNat), (16, x.lpcdThr.toNat)]
/-- NFC_SET_CONFIG: enabling clears a transmitter fault (DESIGN CHOICE, log entry 30); disabling drops the field. -/
def nfcSetConfig (m : Fin 4) (b : Block) : Block :=
  let r := reqPort b m
  let w := rN b m 4 4
  checked m [readerCheck b m, (6, queueOk (rN b m 2 2) true), (0x1101, connectorOk (fieldOf w 11 5) && decide (4 ≤ fieldOf w 16 10))] (fun b =>
    let b := updNfc r (fun x => { x with
      techs := BitVec.ofNat 3 w, maxRate := BitVec.ofNat 2 (fieldOf w 3 2), txLevel := BitVec.ofNat 3 (fieldOf w 5 3)
      fieldGroup := BitVec.ofNat 3 (fieldOf w 8 3), connector := BitVec.ofNat 5 (fieldOf w 11 5), lpcdThr := BitVec.ofNat 10 (fieldOf w 16 10)
      queue := r16 b m 2 }) b
    let b := if rBit b m 1 0 then updNfc r (fun x => { x with enable := true, fault := false }) b
      else updNfc r (fun x => { x with enable := false, waiting := none }) (fieldOff r b)
    saveSettings (ok m [] b)) b
/-- NFC_POLL: a card present answers at once. -/
def nfcPoll (m : Fin 4) (b : Block) : Block :=
  let r := reqPort b m
  checked m (readerCheck b m :: readerUp b m) (fun b =>
    let x := nfcOf b r
    let b := updNfc r (fun x => { x with pollMbx := some m }) b
    if x.card then pollAnswer r true x.cardRec b
    else if x.polling || x.waiting.isSome then b
    else pollStart r b) b
/-- NFC_TRANSCEIVE: what the card answers comes with the command. -/
def nfcTransceive (m : Fin 4) (a : CardAnswer) (b : Block) : Block :=
  let r := reqPort b m
  let n := rN b m 2 2
  let t := rN b m 4 2
  checked m ([readerCheck b m, (0x1101, decide (1 ≤ n ∧ n ≤ 1000 ∧ 1 ≤ t ∧ t ≤ 5000))] ++ readerUp b m ++ [(0x1102, (nfcOf b r).card)]) (fun b =>
    match a with
    | .answer l =>
      let l := l.take 1012
      ok m (leBytes 2 l.length ++ [0, 0] ++ l) (traceItem 9 0 (now b) ([BitVec.ofNat 8 r.val, 0, 0, 0] ++ l) b)
    | .timeout => refuse m 0x1103 b
    | .error => refuse m 0x1104 b) b
/-- NFC_RELEASE. -/
def nfcRelease (m : Fin 4) (b : Block) : Block :=
  checked m [readerCheck b m, (0x1102, (nfcOf b (reqPort b m)).card)] (fun b => ok m [] (fieldOff (reqPort b m) b)) b
/-- NFC_CLEAR_COUNTS. -/
def nfcClearCounts (m : Fin 4) (b : Block) : Block :=
  ok m [] (forAll (maskPorts b m) (fun r => updNfc r fun x => { x with resolved := 0, falseWake := 0 }) b)

/-- Words 0x0AC0 to 0x0AFF (R484). -/
def nfcWord (b : Block) (a : Nat) : U32 :=
  let at' := fun (o : Nat) => nfcOf b ⟨(a - o) % 8, Nat.mod_lt _ (by decide)⟩
  let bits := fun (f : Reader → Bool) => bitsNat (b.nfc.toList.map f)
  if a = 0xAC0 then reg32 [(0, bits (·.enable)), (8, bits (·.field)), (16, bits (·.card)), (24, bits (·.fault))]
  else if 0xAC8 ≤ a ∧ a < 0xAD0 then nfcCfgWord (at' 0xAC8)
  else if 0xAD0 ≤ a ∧ a < 0xAD8 then reg32 [(0, pingAmplitude (at' 0xAD0).base), (16, (at' 0xAD0).lastD.toNat)]
  else if 0xAD8 ≤ a ∧ a < 0xAE0 then reg32 [(0, (at' 0xAD8).resolved.toNat), (16, (at' 0xAD8).falseWake.toNat)]
  else 0

/-- EXTCOMIN_TOGGLE (R471). -/
def execExtcominToggle (p : Fin 8) (s : State) : Result := s.run (extcominToggle p)
/-- PANEL_PASS_END (R472). -/
def execPanelPassEnd (p : Fin 8) (s : State) : Result := s.run (panelPassEnd p)
/-- PANEL_BIAS_FAULT (R468). -/
def execPanelBiasFault (half : Fin 2) (s : State) : Result := s.input (panelBiasFault half)
/-- STRIP_REDRAW (R476). -/
def execStripRedraw (p : Fin 8) (s : State) : Result := s.run (redrawStrip p)
/-- PNL_SET_CONFIG (R486). -/
def execPnlSetConfig (m : Fin 4) (s : State) : Result := s.run (command m 0x1001 .sedge (pnlSetConfig m))
/-- PNL_LOAD_GAMMA (R473). -/
def execPnlLoadGamma (m : Fin 4) (s : State) : Result := s.run (command m 0x1002 .sedge (pnlLoadGamma m))
/-- PNL_DRAW (R474). -/
def execPnlDraw (m : Fin 4) (s : State) : Result := s.run (command m 0x1003 .sedge (pnlDraw m))
/-- PNL_FILL (R474). -/
def execPnlFill (m : Fin 4) (s : State) : Result := s.run (command m 0x1004 .sedge (pnlFill m))
/-- PNL_FLUSH (R472). -/
def execPnlFlush (m : Fin 4) (s : State) : Result := s.run (command m 0x1005 .sedge (pnlFlush m))
/-- PNL_GET_STATUS (R486). -/
def execPnlGetStatus (m : Fin 4) (s : State) : Result := s.run (command m 0x1006 .sedge (pnlGetStatus m))
/-- PNL_CLEAR_COUNTS (R486). -/
def execPnlClearCounts (m : Fin 4) (s : State) : Result := s.run (command m 0x1007 .sedge (pnlClearCounts m))
/-- NFC_PING (R479). -/
def execNfcPing (r : Fin 8) (i q : BitVec 16) (s : State) : Result := s.input (nfcPing r ⟨i, q⟩)
/-- CARD_RESOLVED (R481). -/
def execCardResolved (r : Fin 8) (card : CardInfo) (s : State) : Result := s.input (cardResolved r card)
/-- PRESENCE_CHECK (R481). -/
def execPresenceCheck (r : Fin 8) (answered : Bool) (s : State) : Result := s.input (presenceCheck r answered)
/-- FIELD_RELEASE (R480). -/
def execFieldRelease (r : Fin 8) (s : State) : Result := s.run (fieldRelease r)
/-- NFC_TX_FAULT (R485). -/
def execNfcTxFault (r : Fin 8) (s : State) : Result := s.input (nfcTxFault r)
/-- FALSE_WAKE_UP (R479). -/
def execFalseWakeUp (r : Fin 8) (s : State) : Result := s.input (falseWakeUp r)
/-- NFC_SET_CONFIG (R487). -/
def execNfcSetConfig (m : Fin 4) (s : State) : Result := s.run (command m 0x1101 .sedge (nfcSetConfig m))
/-- NFC_POLL (R487). -/
def execNfcPoll (m : Fin 4) (s : State) : Result := s.run (command m 0x1102 .sedge (nfcPoll m))
/-- NFC_TRANSCEIVE (R487). -/
def execNfcTransceive (m : Fin 4) (x : CardAnswer) (s : State) : Result := s.run (command m 0x1103 .sedge (nfcTransceive m x))
/-- NFC_RELEASE (R487). -/
def execNfcRelease (m : Fin 4) (s : State) : Result := s.run (command m 0x1104 .sedge (nfcRelease m))
/-- NFC_CLEAR_COUNTS (R487). -/
def execNfcClearCounts (m : Fin 4) (s : State) : Result := s.run (command m 0x1105 .sedge (nfcClearCounts m))

end Sys2Proof.Machine
end

