-- ==== Sys2Proof/Machine/Fabric.lean ====
section
/-! DEFINITION. Fabric engines and their deadlines, barriers, the die-to-die link and loss of Tide (03_fabric_crossings.md R64 to
R74, R81; 02_tide.md R58, R59; 01_architecture.md R17; 11_safety.md R284). -/

namespace Sys2Proof.Machine

/-! ### Loss of a unit (R17) -/

/-- Change the reset unit. -/
def updRst (f : ResetUnit → ResetUnit) (b : Block) : Block := { b with rst := f b.rst }
/-- Change the die-to-die link. -/
def updD2d (f : D2d → D2d) (b : Block) : Block := { b with d2d := f b.d2d }
/-- Sedge is lost: absent from now on. -/
def loseSedge (b : Block) : Block := if b.rst.sedge then updRst (fun r => { r with sedge := false, sedgeAbsent := some (now b) }) b else b
/-- Carr is lost: all sessions stop with DEVICE_FAULT, L3; its store requester is masked (R338). -/
def loseCarr (b : Block) : Block :=
  if b.rst.carr then deviceFault .hub 3 (requesterMask rqCarr true (updRst (fun r => { r with carr := false }) b)) else b
/-- Modem `n` is lost (R17, R233). -/
def loseModem (n : Fin 16) (b : Block) : Block := modemFault n b

/-- Loss of Tide (R17, R59, R284): every launch stops, a hub safe stop with hub lock-out, and Carr commits the last published
registers as on a power-fail warning. -/
def loseTide (b : Block) : Block :=
  if b.tide.lost then b
  else
    let b := updTide (fun t => { t with lost := true, ready := false }) b
    let b := contain { cause := 0x0B, scope := .hub, mode := .hubStop, base := 3, lock := true, reason := .safety } b
    powerFailCommit b.acc.applied b

/-- The ways of R59 that the Tide domain or the link reports. -/
def tideLoss (c : TideLossCause) (b : Block) : Block :=
  let b := loseTide b
  match c with
  | .crystal => updTide (fun t => { t with xtalOk := false, running := false }) b
  | .pll => updTide (fun t => { t with running := false }) b
  | .tideLane => updD2d (fun d => { d with tideLaneOk := false }) b

/-- DYKE_TIDE_CHECK (R59): two consecutive samples in which the counter has advanced by less than half of 150,000. Nothing reads a copy of
Tide that is invalid (R78). -/
def dykeTideCheck (advance : U32) (b : Block) : Block :=
  if !(crossOf b .tideToDyke).copyValid then b else
  let k := if advance.toNat < 75000 then b.d2d.dykeSlow + 1 else 0
  let b := updD2d (fun d => { d with dykeSlow := k }) b
  if 2 ≤ k ∧ b.rst.dyke then loseTide b else b

/-- The A die opens every low-side channel and the interlock loop on its own (R74); limp-home becomes active with it (R306). -/
def adieOpen (b : Block) : Block := limpEnter (forAll allNodes lsOff (updSaf (fun s => { s with ilkClosed := false }) b))
/-- ADIE_PERMIT_TIMEOUT: 64 consecutive frames without a valid Dyke permit word. -/
def adiePermitTimeout (b : Block) : Block := adieOpen (updD2d (fun d => { d with missedPermits := 64 }) b)

/-! ### Slack (R64 to R67) -/

/-- The deadline of an engine in ticks (R64); of the barrier for a core (R65). -/
def deadlineOf (e : Fin 15) : Nat :=
  match e.val with
  | 0 => 12000 | 1 => 600000 | 2 => 12000 | 3 => 12000 | 4 => 150 | 5 => 1500000 | 6 => 6000000 | 7 => 600 | _ => 3000
/-- Change the slack figures of an engine. -/
def updSlack (e : Fin 15) (f : Slack → Slack) (b : Block) : Block := { b with fab := vupd b.fab e f }
/-- Source 16 at most once per engine and second of Tide (R66). -/
def slackWarning (e : Fin 15) (b : Block) : Block :=
  let x := vget b.fab e
  let due := match x.lastWarnIrq with | some t => decide (t.toNat + tSec ≤ (now b).toNat) | none => true
  let b := updSlack e (fun x => { x with warnings := satInc x.warnings }) b
  if due then irq 16 (updSlack e (fun x => { x with lastWarnIrq := some (now b) }) b) else b
/-- An engine completes `c` ticks after its input instant (R65, R66). The least slack reads 0xFFFFFFFF until a completion is measured
(DESIGN CHOICE, log entry 163). -/
def slackMeasure (e : Fin 15) (c : Nat) (b : Block) : Block :=
  let d := deadlineOf e
  let s := d - c
  let b := updSlack e (fun x => { x with last := BitVec.ofNat 32 s, least := BitVec.ofNat 32 (min x.least.toNat s) }) b
  if 5 * s < d then slackWarning e b else b

/-- Flag what `x` would have advanced over `b` as unproven (R36, R67). -/
def flagAdvanced (b x : Block) : Block :=
  let fl := fun (r y : Register) => if r.acc = y.acc then r else { r with unproven := true }
  let fv := fun {k : Nat} (v w : Vector Register k) => vmapIdx v fun i r => fl r (vget w i)
  let a := b.acc
  let y := x.acc
  { b with
    acc := { a with
      nodeDel := fv a.nodeDel y.nodeDel, nodeRec := fv a.nodeRec y.nodeRec, fdrImp := fv a.fdrImp y.fdrImp, fdrExp := fv a.fdrExp y.fdrExp
      hubDel := fl a.hubDel y.hubDel, hubRec := fl a.hubRec y.hubRec, unattImp := fl a.unattImp y.unattImp, unattExp := fl a.unattExp y.unattExp
      pairs := vmapIdx a.pairs fun p r => if (vget y.pairs p).inc = 0 then r else { r with unproven := true }
      frames := a.frames.map fun f => if y.frames.any fun g => g.base == f.base && g.eImp == f.eImp && g.eExp == f.eExp then f else { f with faulted := true } }
    legal := vmapIdx b.legal fun n c =>
      let d := vget x.legal n
      { c with unproven := c.unproven || c.del != d.del || c.rec_ != d.rec_, attUnproven := c.attUnproven || c.attImp != d.attImp || c.attExp != d.attExp
               connUnproven := c.connUnproven || c.connTariffs != d.connTariffs } }
/-- Metrology lanes (R67): no sample is published for the instant. -/
def overrunMetrology (b : Block) : Block :=
  let b := match b.met.latched with
    | none => b
    | some t => closeAt t (noteUnproven b (flagAdvanced { b with met := { b.met with latched := none } } (applyNow t (publishNow t b))))
  deviceFault .hub 3 b
/-- Saltern: no increment is applied for the instant. -/
def overrunSaltern (b : Block) : Block :=
  let b := match b.acc.published with
    | none => b
    | some t => closeAt t (noteUnproven b (flagAdvanced { b with acc := { b.acc with published := none } } (applyNow t b)))
  deviceFault .hub 3 b
/-- Brine: no transfer is made for the instant; the wallet sessions that would have moved credit stop (R67). -/
def overrunBrine (b : Block) : Block :=
  match b.acc.priced with
  | none => b
  | some _ =>
    let mine := allNodes.filter fun n => decide ((ledgerOf b n).state ≠ 0) && (legalOf b n).mode == 3 && decide ((ledgerOf b n).due.toNat < costDue (legalOf b n))
    let b := { b with acc := { b.acc with priced := none } }
    forAll mine (fun n b => deviceFault (.node n) 1 (updLedger n (fun l => { l with due := BitVec.ofNat 64 (costDue (legalOf b n)) }) b)) b
/-- A unit whose request engine `e` serves: 5 the P-256 operations, 6 the P-384 ones, 7 the digests of either. -/
def unitOfEngine (e : Nat) (w : EngineWork) : Bool := if e = 5 then w.op == .p256 else if e = 6 then w.op == .p384 else true
/-- Unit `u` has a request of engine `e`. -/
def unitHas (b : Block) (e : Nat) (u : Fin 4) : Bool := match vget b.key.units u with | some w => unitOfEngine e w | none => false
/-- The signature engine: the request of unit `u`, or else of the lowest unit that has one of this engine, fails with the overrun status;
L1 for a session reading, L3 otherwise. -/
def overrunSignature (e : Nat) (u : Fin 4) (b : Block) : Block :=
  match if unitHas b e u then some u else (List.finRange 4).find? (unitHas b e) with
  | none => deviceFault .hub 3 b
  | some u => match vget b.key.units u with
    | none => deviceFault .hub 3 b
    | some w =>
      let r := match w.job with | .reading q => signingOf b q | _ => none
      let b := unitEnds u w.job .overrun b
      match r with
      | some r => if h : r.connector.toNat < 16 then deviceFault (.node ⟨r.connector.toNat, h⟩) 1 b else deviceFault .hub 3 b
      | none => deviceFault .hub 3 b
/-- The consequence of an overrun (R67); `who` names the modems that did not reach the common sequencer, the agent whose operation the queue
manager did not perform, or the unit of the signature engine. The hub safe stop and lock-out of
Dyke carry the cause DISAGREE and its source (DESIGN CHOICE, log entry 163). -/
def overrunActs (e : Fin 15) (who : U16) (b : Block) : Block :=
  match e.val with
  | 0 => overrunMetrology b
  | 1 => deviceFault .hub 3 { b with slu := { b.slu with latch := none } }
  | 2 => overrunSaltern b
  | 3 => overrunBrine b
  | 4 => deviceFault .hub 3 (qTell ⟨who.toNat % 16, Nat.mod_lt _ (by decide)⟩ .overrun b)
  | 5 => overrunSignature 5 ⟨who.toNat % 4, Nat.mod_lt _ (by decide)⟩ b
  | 6 => overrunSignature 6 ⟨who.toNat % 4, Nat.mod_lt _ (by decide)⟩ b
  | 7 => overrunSignature 7 ⟨who.toNat % 4, Nat.mod_lt _ (by decide)⟩ b
  | 12 => loseCarr b
  | 13 => disagree b
  | 14 => forAll ((nodesOf who.toNat).filter fun n => !modemPaused b n) loseModem b
  | _ => loseSedge b
/-- ENGINE_OVERRUN (R67): counted, source 17, the operational log, and the consequence. The last and the least slack stay as they were:
an engine that has not completed has no completion time (DESIGN CHOICE, log entry 163). -/
def engineOverrun (e : Fin 15) (who : U16) (b : Block) : Block :=
  overrunActs e who (irqLog wSedge 17 e.val (updSlack e (fun x => { x with overruns := satInc x.overruns }) b))
/-- ENGINE_COMPLETE: past its deadline the engine has overrun. -/
def engineComplete (e : Fin 15) (c : Nat) (b : Block) : Block := if deadlineOf e < c then engineOverrun e 0 b else slackMeasure e c b

/-! ### Barriers (R58) -/

/-- Change the barrier. -/
def updBarrier (f : Barrier → Barrier) (b : Block) : Block := { b with barrier := f b.barrier }
/-- The slack monitor of a barrier participant. -/
def partEngine (p : Fin 7) : Fin 15 := ⟨8 + p.val, by omega⟩
/-- BARRIER_OPEN: only one is open at a time. -/
def barrierOpen (b : Block) : Block :=
  if b.barrier.isOpen then b else updBarrier (fun x => { x with isOpen := true, at_ := now b, arrived := 0 }) b
/-- BARRIER_ARRIVE. -/
def barrierArrive (p : Fin 7) (b : Block) : Block :=
  let c := (now b).toNat - b.barrier.at_.toNat
  if !b.barrier.isOpen || b.barrier.arrived.getLsbD p.val || decide (3000 < c) then b
  else slackMeasure (partEngine p) c (updBarrier (fun x => { x with arrived := x.arrived ||| (1#7 <<< p.val) }) b)
/-- The barrier ends at b + 3,000: those that arrived are released, with BARRIER_FAILED when one is missing (source 13, R61); each
participant missing is charged with an overrun. -/
def barrierEnd (modems : U16) (b : Block) : Block :=
  let miss := ~~~b.barrier.arrived
  let b := onlyIf (miss != 0) (irq 13) (updBarrier (fun x => { x with
    isOpen := false, fail := x.fail || miss != 0, missing := if miss = 0 then x.missing else miss
    result := Vector.ofFn fun p => if miss.getLsbD p.val then none else some (if miss = 0 then .released else .barrierFailed) }) b)
  forAll ((List.finRange 7).filter fun p => miss.getLsbD p.val) (fun p => engineOverrun (partEngine p) modems) b
/-- BARRIER_RELEASE. -/
def barrierRelease (modems : U16) (b : Block) : Block :=
  if b.barrier.isOpen then afterTicks b.barrier.at_ 3000 (barrierEnd modems) b else b

/-! ### The die-to-die link (R69 to R73) -/

/-- A link fault (R73): source 19, and loss of the Tide lane under R59. -/
def linkFault (b : Block) : Block := if b.d2d.fault then b else tideLoss .tideLane (irq 19 (updD2d (fun d => { d with fault := true }) b))
/-- A CRC failure is counted against the present allocation frame: source 18 at the 17th. -/
def linkCrcFailure (b : Block) : Block :=
  let f := frameOf (now b)
  let d := b.d2d
  let n := (if d.frameOf = f then d.failsThisFrame else 0) + 1
  let told := d.rateRaised && decide (d.frameOf = f)
  let b := updD2d (fun d => { d with frameOf := f, failsThisFrame := n, rateRaised := told || decide (16 < n) }) b
  if 16 < n ∧ !told then irq 18 b else b
/-- The start of the next frame of a direction: frames start on multiples of 16 and are received 24 ticks later (R69, R70). -/
def nextFrame (last : Option U64) (b : Block) : Nat :=
  multipleFrom 16 (match last with | some t => max ((now b).toNat - 24) (t.toNat + 1) | none => (now b).toNat - 24)
/-- The bytes of a frame that its CRC covers: the header and 112 payload bits, or 96 to the A die (R69). -/
def d2dCovered (x : D2dFrame) : List U8 := x.header :: (if x.a2l then x.payload.toList else x.payload.toList.take 12)
/-- The CRC of R69 fits. -/
def d2dCrcOk (x : D2dFrame) : Bool := crc8 (d2dCovered x) == x.crc
/-- The Tide lane passes its check against the A die's count of a frame that starts at `f` (R69): sync pattern, byte (f div 16) mod 8 of
f, and CRC. -/
def d2dTideOk (x : D2dFrame) (f : Nat) : Bool :=
  x.sync == Config.d2dSync && x.tideByte.toNat == f / 256 ^ (f / 16 % 8) % 256 && x.tideCrc == Config.d2dCrc4 x.tideByte
/-- Stream fields become readable 192 ticks after their stamp (R72). -/
def streamSettle (b : Block) : Block :=
  let ripe := fun (e : U64 × List U8) => passed b e.1 192
  updD2d (fun d => { d with
    streamWait := d.streamWait.filter fun e => !ripe e
    streamRead := match (d.streamWait.filter ripe).getLast? with | some e => some e | none => d.streamRead }) b
/-- A valid A-to-L frame that started at `f`: its state fields are in force unless a later frame's are, its input has the stamp f + offset
(R70), its stream fields keep their stamp (R72). -/
def a2lValid (f : U64) (x : D2dFrame) (b : Block) : Block :=
  let p := x.payload.toList
  let b := if b.d2d.payload = p then b else traceItem 4 0 f p b
  streamSettle (updD2d (fun d =>
    let newer := decide (d.payloadOf.toNat ≤ f.toNat)
    { d with
      runA2L := 0, inputAt := f + BitVec.ofNat 64 x.offset.val
      payload := if newer then p else d.payload, payloadOf := if newer then f else d.payloadOf
      streamWait := if x.stream then d.streamWait ++ [(f, p)] else d.streamWait }) b)
/-- An A-to-L frame failed: counted; it is asked for again at most twice, `tries` times so far (R72); a stream frame that fails once more,
or the 64th failure in a row, is a link fault (R73). -/
def a2lFailed (f : U64) (tries : Nat) (stream : Bool) (b : Block) : Block :=
  let b := linkCrcFailure (updD2d (fun d => { d with crcA2L := satInc d.crcA2L, runA2L := d.runA2L + 1 }) b)
  let b := if tries < 2 then updD2d (fun d => { d with resend := d.resend ++ [(f, tries + 1)], retrans := satInc d.retrans }) b else b
  if (stream && decide (2 ≤ tries)) || decide (64 ≤ b.d2d.runA2L) then linkFault b else b
/-- The A-to-L frame that starts at `f` arrives for the first time. -/
def frameA2l (f : U64) (x : D2dFrame) (b : Block) : Block :=
  let b := updD2d (fun d => { d with lastA2L := some f }) b
  if d2dCrcOk x then a2lValid f x b else a2lFailed f 0 x.stream b
/-- The oldest frame asked for again arrives from the replay buffer: the k-th retransmission 64 ticks after the one before, so that the
stream fields are delivered by f + 180 (R72; DEDUCED, log entry 165). -/
def frameAgain (x : D2dFrame) (b : Block) : Block :=
  match b.d2d.resend with
  | [] => b
  | (f, k) :: r => afterTicks f (24 + 64 * k) (fun b =>
      let b := updD2d (fun d => { d with resend := r }) b
      if d2dCrcOk x then a2lValid f x b else a2lFailed f k x.stream b) b
/-- The L-to-A frame that starts at `f` arrives: it carries the Dyke permit word (R72, R74), and the Tide lane its byte of Tide. -/
def frameL2a (f : U64) (x : D2dFrame) (b : Block) : Block :=
  let b := updD2d (fun d => { d with lastL2A := some f }) b
  let b :=
    if d2dCrcOk x then updD2d (fun d => { d with runL2A := 0, missedPermits := 0, sent := x.payload.toList.take 12 }) b
    else
      let b := linkCrcFailure (updD2d (fun d => { d with crcL2A := satInc d.crcL2A, runL2A := d.runL2A + 1, missedPermits := d.missedPermits + 1 }) b)
      let b := if b.d2d.missedPermits = 64 then adiePermitTimeout b else b
      if 64 ≤ b.d2d.runL2A then linkFault b else b
  if d2dTideOk x f.toNat then b else linkFault b
/-- D2D_FRAME_RECEIVE: the frame is received and checked 24 ticks after its start (R70). Without Tide no frame is sent. -/
def d2dFrame (x : D2dFrame) (b : Block) : Block :=
  if !b.tide.running then b
  else if x.a2l && x.again then frameAgain x b
  else
    let f := nextFrame (if x.a2l then b.d2d.lastA2L else b.d2d.lastL2A) b
    atInstant (f + 24) (if x.a2l then frameA2l (BitVec.ofNat 64 f) x else frameL2a (BitVec.ofNat 64 f) x) b

/-! ### Commands (R81) -/

/-- ENGINE_RANGE. -/
def engineCheck (b : Block) (m : Fin 4) (all : Bool) : Nat × Bool := (0x0140, decide (rN b m 0 1 < 15) || (all && rN b m 0 1 == 255))
/-- SYS_FABRIC_SLACK. -/
def sysFabricSlack (m : Fin 4) (b : Block) : Block :=
  let e : Fin 15 := ⟨rN b m 0 1 % 15, Nat.mod_lt _ (by decide)⟩
  let x := vget b.fab e
  checked m [engineCheck b m false] (ok m (leBytes 4 (deadlineOf e) ++ b32s [x.last, x.least, x.warnings, x.overruns])) b
/-- SYS_FABRIC_CLEAR: the counts, and the least slack since clearing, which then reads 0xFFFFFFFF (log entry 163). -/
def sysFabricClear (m : Fin 4) (b : Block) : Block :=
  let e := rN b m 0 1
  checked m [engineCheck b m true] (fun b =>
    ok m [] { b with fab := vmapIdx b.fab fun k x => if e = 255 ∨ k.val = e then { x with least := 0xFFFFFFFF, warnings := 0, overruns := 0 } else x }) b
/-- SYS_D2D_STATUS: the counts are cleared by the read. -/
def sysD2dStatus (m : Fin 4) (b : Block) : Block :=
  let d := b.d2d
  ok m (b32s [d.crcL2A, d.crcA2L, d.secondCopy, d.retrans] ++ [BitVec.ofNat 8 (b2n d.fault + 2 * b2n d.tideLaneOk)])
    (updD2d (fun d => { d with crcL2A := 0, crcA2L := 0, secondCopy := 0, retrans := 0 }) b)

/-- ENGINE_COMPLETE (R65). -/
def execEngineComplete (e : Fin 15) (t : U32) (s : State) : Result := s.run (engineComplete e t.toNat)
/-- ENGINE_OVERRUN (R67). -/
def execEngineOverrun (e : Fin 15) (who : U16) (s : State) : Result := s.run (engineOverrun e who)
/-- TIDE_LOSS (R59). -/
def execTideLoss (cause : TideLossCause) (s : State) : Result := s.run (tideLoss cause)
/-- DYKE_TIDE_CHECK (R59). -/
def execDykeTideCheck (advance : U32) (s : State) : Result := s.run (dykeTideCheck advance)
/-- ADIE_PERMIT_TIMEOUT (R74). -/
def execAdiePermitTimeout (s : State) : Result := s.run adiePermitTimeout
/-- ADIE_RC_WATCHDOG (R74). -/
def execAdieRcWatchdog (s : State) : Result := s.run adieOpen
/-- BARRIER_OPEN (R58). -/
def execBarrierOpen (s : State) : Result := s.run barrierOpen
/-- BARRIER_ARRIVE (R58). -/
def execBarrierArrive (p : Fin 7) (s : State) : Result := s.run (barrierArrive p)
/-- BARRIER_RELEASE (R58). -/
def execBarrierRelease (modems : U16) (s : State) : Result := s.run (barrierRelease modems)
/-- D2D_FRAME_RECEIVE (R70). -/
def execD2dFrameReceive (f : D2dFrame) (s : State) : Result := s.run (d2dFrame f)
/-- SYS_FABRIC_SLACK (R81). -/
def execSysFabricSlack (m : Fin 4) (s : State) : Result := s.run (command m 0x0140 .sedge (sysFabricSlack m))
/-- SYS_FABRIC_CLEAR (R81). -/
def execSysFabricClear (m : Fin 4) (s : State) : Result := s.run (command m 0x0141 .sedge (sysFabricClear m))
/-- SYS_D2D_STATUS (R81). -/
def execSysD2dStatus (m : Fin 4) (s : State) : Result := s.run (command m 0x0142 .sedge (sysD2dStatus m))

end Sys2Proof.Machine
end

