-- ==== Sys2Proof/Machine/Reset.lean ====
section
/-! DEFINITION. Resets: what each scope leaves, release, the stop sequence, core restarts, and the RST block
(19_reset_boot_update.md R488 to R495, R513, R516; 21_register_map.md R558; 22_electrical.md R564). -/

namespace Sys2Proof.Machine

/-! ### What a reset leaves (R490, R558) -/

/-- What a reset keeps out of the registers; a DEVICE reset clears the keys (R393), and `memory` tells that LPDDR4X keeps the dump
(R533). -/
def keptOf (device memory : Bool) (b : Block) : Kept :=
  let k : Kept := match b.kept with
    | some k => k
    | none => { acc := b.acc, legal := b.legal, key := b.key, dmp := b.dmp, ue := b.pea.ue, ueLine := b.pea.ueLine, ueCnt := b.pea.ueCnt
                wallets := (b.bri.wallets.filter fun e => e.2.state == 3).map (·.1) }
  { k with key := if device then {} else k.key, dmp := if memory then k.dmp else {} }
/-- The store's contents and its wear stay; its registers return at recovery (R490, R558). -/
def keptStore (p : Peat) : Peat :=
  { lines := p.lines, badLines := p.badLines, gap := p.gap, moves := p.moves, writesSinceGap := p.writesSinceGap, totalWrites := p.totalWrites
    wearWarned := p.wearWarned, settingsB := p.settingsB, writes := p.writes }
/-- The lock-outs with their causes and the marks that bar their clearing stay (R278, R280). -/
def keptLocks (s : Safety) : Safety :=
  { nodes := vmap s.nodes fun n => { lockout := n.lockout, causes := n.causes, weldNeed := n.weldNeed, weld := if n.weldNeed then n.weld else 0 }
    hubLockout := s.hubLockout, hubCauses := s.hubCauses, laneLockout := s.laneLockout, laneCauses := s.laneCauses }
/-- The limp map of the backup domain, the debounced inputs and the supply they hang on (R305). -/
def keptLimp (w : Switches) : Switches :=
  { limpMap := w.limpMap, limpValid := w.limpValid, limpCrc := w.limpCrc, limpInputs := w.limpInputs, vin := w.vin, vinOk := w.vinOk }
/-- Readings that are not signed yet: those at the engine join those held (R362, R495); `deferred` marks them. -/
def unsignedReadings (deferred : Bool) (s : Saltern) : List Reading :=
  s.unsigned_ ++ s.signing.map fun r => { r with flags := if deferred then r.flags ||| 8 else r.flags, failures := 0, retryAt := none }
/-- The block while a reset of HUB or DEVICE scope is asserted: every register at its reset value, but for what R490 and R558
keep. -/
def resetBlock (device memory : Bool) (b : Block) : Block :=
  { kept := some (keptOf device memory b)
    tide := if device then {} else { now := b.tide.now, running := b.tide.running, xtalOk := b.tide.xtalOk, lost := b.tide.lost }
    d2d := if device then {} else b.d2d
    cross := b.cross.map Crossing.reset
    saf := keptLocks b.saf
    lsw := keptLimp b.lsw
    pea := if device then (match b.rpl.real with | some p => keptStore p | none => keptStore b.pea) else keptStore b.pea
    slt := { unsigned_ := unsignedReadings b.rst.pending.isSome b.slt }
    backup := b.backup
    key := { index := b.key.index, draws := b.key.draws }
    qmg := { picks := b.qmg.picks }
    hp := { arrivals := b.hp.arrivals }
    rst := { pinLow := b.rst.pinLow, suppliesOk := b.rst.suppliesOk, counts := b.rst.counts
             choice := if device then 0 else b.rst.choice, strapFault := !device && b.rst.strapFault, strapLoaded := !device && b.rst.strapLoaded }
    btn := { lease := b.btn.lease }
    rpl := if device then {} else { mode := b.rpl.mode, state := if b.rpl.mode then 4 else 0, queue := b.rpl.queue, real := b.rpl.real }
    dbg := { scope := b.dbg.scope, locked := !device && b.dbg.locked, failRun := if device then 0 else b.dbg.failRun, ir := b.dbg.ir, tdo := b.dbg.tdo
             boundary := b.dbg.boundary, written := if memory then b.dbg.written else [], steps := b.dbg.steps }
    settings := b.settings, newSettings := b.newSettings, legalSet := b.legalSet, updRec := b.updRec }
/-- Limp-home is active in every reset (R306); replay holds every channel off (R538). -/
def limpStart (b : Block) : Block := if b.rpl.mode then b else limpEnter { b with lsw := { b.lsw with limpActive := false } }
/-- Source `src` of R489 has acted: RST_CAUSE, RST_HIST, RST_CNT. -/
def noteCauseOf (src : BitVec 3) (scope : Scope) (core : Nat) (b : Block) : Block :=
  updRst (fun r => { r with
    causeSource := src, causeScope := scope, causeCore := BitVec.ofNat 5 core, hist := r.hist ||| (1#8 <<< src.toNat)
    counts := vupd r.counts src.toFin satInc }) b
/-- A reset of HUB or DEVICE scope is asserted. Open supply quality events close (R126). The line in progress at the store is left torn. -/
def assertReset (device memory : Bool) (src : BitVec 3) (b : Block) : Block :=
  let b := forAll (List.finRange 2) (fun f => pqTruncate f 0) b
  let b := match b.arb.cur with | some r => tearLine r b | none => b
  limpStart (noteCauseOf src (if device then .device else .hub) 0 (resetBlock device memory b))

/-! ### Release and strap (R492 to R494) -/

/-- The strap allows replay (R494). -/
def strapReplay (c : Nat) : Bool := decide (8 ≤ c)
/-- The strap boots through the host port (R494). -/
def strapHostPort (c : Nat) : Bool := decide (4 ≤ c ∧ c ≤ 7) || c == 11 || c == 12 || c == 14 || c == 15
/-- The strap selects SINGLE mode of the host port (R494). -/
def strapSingle (c : Nat) : Bool := c == 2 || c == 3 || c == 6 || c == 7 || c == 10 || c == 12 || c == 15
/-- The strap is measured (R493): `mv` millivolts, 16 bands of 100 mV; above 1.6 V strap_fault, source 22, choice 0. -/
def strapMeasure (mv : U16) (b : Block) : Block :=
  if 1600 < mv.toNat then irq 22 (updRst (fun r => { r with strapFault := true, choice := 0, strapLoaded := true }) b)
  else updRst (fun r => { r with strapFault := false, choice := BitVec.ofNat 4 (min 15 (mv.toNat / 100)), strapLoaded := true }) b
/-- The queues and the link of boot (R498): 2,048 outbound and 2,049 inbound in group 0, with a reservation of 256; in replay mode
the queue that RPL_ARM names too (R538). -/
def bootPort (b : Block) : Block :=
  let l := sput queue0 b.qmg.queues 2048 { enabled := true, group := 0, consumer := 14, limit := 0xFFFF }
  let l := sput queue0 l 2049 { enabled := true, inbound := true, group := 0, consumer := 0x10, limit := 0xFFFF }
  let l := if b.rpl.mode then sput queue0 l b.rpl.queue.toNat { enabled := true, inbound := true, group := 0, consumer := 15, limit := 0xFFFF } else l
  let b := { b with
    qmg := { b.qmg with running := true, fwCfg := true, conserveOk := true, queues := l }
    cwy := { b.cwy with enable := true, groups := vupd b.cwy.groups 0 fun g => { g with reservation := 256 } } }
  linkReset 8 0 b
/-- A recording that the settings arm starts at Tide 0 (R535); a replay begins at Tide 0 (R537). -/
def traceStart (b : Block) : Block :=
  if b.rpl.mode then irq 485 (bootPort { b with rpl := { b.rpl with state := 3 } })
  else if b.settings.recArmed then irq 483 { b with rpl := { b.rpl with state := 2, queue := b.settings.traceQueue, recArmed := true, armQueue := b.settings.traceQueue } }
  else b
/-- What debug holds as a reset is released: CONTROL under policy 2, else no scope (R542, R547); EXTEST is over (R541). -/
def debugRelease (b : Block) : Block :=
  { b with dbg := { b.dbg with scope := if debugPolicy b.rst.choice.toNat = 2 then 2 else 0, pins := [] } }
/-- The device leaves a reset of DEVICE scope: Tide 0, the strap, the die-to-die link, the receivers of the crossings (R79, R493, R496). -/
def releaseDevice (mv : U16) (b : Block) : Block :=
  if b.rst.pinLow || !b.rst.suppliesOk || !b.rst.inReset then b
  else
    let b := updTide (fun t => { t with now := 0, running := true, xtalOk := true, lost := false }) b
    let b := strapMeasure mv (updD2d (fun d => { d with tideLaneOk := true }) (updRst (fun r => { r with inReset := false, hubBoot := false, bootFrom := 0, bootCmd := 0 }) b))
    traceStart (debugRelease (crossReceivers b))
/-- The device leaves a reset of HUB scope; boot counts from the start of the stop sequence (R496). -/
def releaseHub (start command : U64) (b : Block) : Block :=
  debugRelease (crossReceivers (updRst (fun r => { r with inReset := false, hubBoot := true, bootFrom := start, bootCmd := command }) b))

/-- POWER_ON (R489, R564): every monitored rail has risen; with RESET_N high the device goes on to Tide 0. -/
def powerOn (pinHigh : Bool) (mv : U16) (b : Block) : Block :=
  releaseDevice mv (assertReset true false 0 (updRst (fun r => { r with suppliesOk := true, pinLow := !pinHigh }) b))
/-- BROWN_OUT: the device holds itself in reset until the rails have risen again. -/
def brownOut (b : Block) : Block := assertReset true false 1 (updRst (fun r => { r with suppliesOk := false }) b)
/-- RESET_PIN: RESET_N is low. -/
def resetPin (b : Block) : Block := assertReset true false 2 (updRst (fun r => { r with pinLow := true }) b)
/-- RESET_N_RELEASE. -/
def resetNRelease (mv : U16) (b : Block) : Block := releaseDevice mv (updRst (fun r => { r with pinLow := false }) b)
/-- CLOCK_FAIL: Tide is lost and the hub safe stop of R284 has acted. -/
def clockFail (mv : U16) (b : Block) : Block := if b.tide.lost then releaseDevice mv (assertReset true false 3 b) else b

/-! ### Core restarts (R490, R491) -/

/-- The number of a core in RST_CAUSE (R513). -/
def coreNumber : CoreId → Nat
  | .sedge => 0 | .carr => 1 | .dyke => 2 | .modem n => 16 + n.val
/-- The core of a number. -/
def coreOf (k : Nat) : Option CoreId :=
  if k = 0 then some .sedge else if k = 1 then some .carr else if k = 2 then some .dyke
  else if h : 16 ≤ k ∧ k < 32 then some (.modem ⟨k - 16, by omega⟩) else none
/-- A core is halted by debug (R545). -/
def coreHalted (b : Block) : CoreId → Bool
  | .sedge => b.dbg.haltSedge | .carr => b.dbg.haltCarr | .dyke => b.dbg.haltDyke | .modem n => b.dbg.haltCreek.getLsbD n.val
/-- A core runs. -/
def coreUp (b : Block) : CoreId → Bool
  | .sedge => b.rst.sedge | .carr => b.rst.carr | .dyke => b.rst.dyke | .modem n => (plcOf b n).running
/-- Every buffer that agent `a` holds is freed (R490). -/
def freeAgent (a : Fin 16) (b : Block) : Block :=
  forAll (b.qmg.owners.filterMap fun e => match e.2 with | .agent x => if x = a then some e.1 else none | _ => none)
    (fun u x => (qFree a u x).1) b
/-- A request in BUSY ends with UNIT_ABSENT as Sedge restarts (R490). -/
def dropBusy (m : Fin 4) (b : Block) : Block := if (mbxOf b m).state = .busy then mbxComplete m (refuse m 8 b) else b
/-- Dyke stops: the hardware channel sees no alive count (R261, R491). -/
def loseDyke (b : Block) : Block := dykeAliveTimeout (updRst (fun r => { r with dyke := false }) b)
/-- A core stops for its restart. -/
def coreStop (c : CoreId) (b : Block) : Block :=
  match c with
  | .sedge => forAll [0, 1, 2, 3] freeAgent (forAll (List.finRange 4) dropBusy (requesterMask rqSedge true (loseSedge b)))
  | .carr => freeAgent 4 (loseCarr b)
  | .dyke => freeAgent 5 (loseDyke b)
  | .modem n => loseModem n b
/-- A reset of CORE scope (R491): source 20. -/
def coreRestart (src : BitVec 3) (c : CoreId) (b : Block) : Block := coreStop c (irq 20 (noteCauseOf src .core (coreNumber c) b))
/-- WATCHDOG and LOCK_UP: a core that runs is restarted; the watchdog of a halted core is suspended (R545). -/
def coreFails (src : BitVec 3) (c : CoreId) (b : Block) : Block :=
  if !coreUp b c || (src == 4 && coreHalted b c) then b else coreRestart src c b

/-- SEDGE_ABSENCE_TIMEOUT (R17, R530): 2.5 s without Sedge: hub safe stop without lock-out, and a fatal error. -/
def sedgeAbsence (b : Block) : Block :=
  match b.rst.sedgeAbsent with
  | none => b
  | some t => afterTicks t 3750000000 (fun b =>
      let b := updRst (fun r => { r with sedgeAbsent := none }) b
      raiseFatal 4 (contain { cause := 0x0C, scope := .hub, mode := .hubStop, base := 3, lock := false, reason := .deviceFault } b)) b

/-! ### The stop sequence (R495, R516) -/

/-- Length of the stop sequence in ticks: 180 ms. -/
def stopTicks : Nat := 270000000
/-- Every connector is in IDLE, ENDED or FAULTED (R505, R516). -/
def allSettled (b : Block) : Bool :=
  allNodes.all fun n => match phaseOf b n with | .idle => true | .ended => true | .faulted => true | _ => false
/-- The stop sequence starts: every session stops with OPERATOR, admission stops. -/
def stopStart (p : PendingReset) (b : Block) : Block :=
  let b := updRst (fun r => { r with pending := some { p with started := true, startAt := now b }, state := .stopping, admission := false }) b
  shutdownDue (stopAll .operator b)
/-- STOP_SEQUENCE_START: 1 ms after the response a reset of CORE scope acts, or the stop sequence begins. -/
def stopSequenceStart (b : Block) : Block :=
  match b.rst.pending with
  | none => b
  | some p =>
    if p.started then b
    else atInstant p.startAt.toNat (fun b =>
      match p.scope with
      | .core =>
        let b := updRst (fun r => { r with pending := none }) b
        (match coreOf p.core.toNat with | some c => coreRestart p.source c b | none => b)
      | _ => stopStart p b) b
/-- A node still closed at the end of the sequence counts as an opening under load (R26, R495). -/
def forcedOpen (n : Fin 16) (b : Block) : Block :=
  if (nodeOf b n).closed then openNow n (irq 300 (updSafX (fun x => { x with loadOpenCnt := satInc x.loadOpenCnt }) b)) else b
/-- The replay boot that follows RPL_ARM (R537): the real store is set aside, frozen; its shadow is empty until BASE items fill
it. -/
def enterReplay (q : U16) (b : Block) : Block :=
  { b with rpl := { b.rpl with mode := true, queue := q, real := some b.pea }, pea := { lines := [], writes := b.pea.writes } }
/-- STOP_SEQUENCE_END: 180 ms after its start every switch and interlock source is off, and the reset is asserted. -/
def stopSequenceEnd (mv : U16) (b : Block) : Block :=
  match b.rst.pending with
  | none => b
  | some p =>
    if !p.started then b
    else afterTicks p.startAt stopTicks (fun b =>
      let b := forAll allNodes forcedOpen b
      match p.scope with
      | .hub => releaseHub p.startAt p.command (assertReset false true p.source b)
      | _ =>
        let b := assertReset true true p.source b
        releaseDevice mv (match p.replay with | some q => enterReplay q b | none => b)) b

/-! ### Registers (R513) -/

/-- RST_STATUS. -/
def rstStatusWord (r : ResetUnit) : U32 :=
  reg32 [(0, r.state.code), (2, r.stage.toNat), (5, b2n r.bootLate), (6, b2n r.sedge), (7, b2n r.carr), (8, b2n r.dyke), (9, b2n r.creek)]
/-- RST_STRAP. -/
def strapWord (r : ResetUnit) : U32 :=
  let c := r.choice.toNat
  if r.strapLoaded then
    reg32 [(0, c), (4, b2n r.strapFault), (5, b2n (strapHostPort c)), (6, b2n (strapSingle c)), (7, b2n (strapReplay c)), (8, debugPolicy c)]
  else 0
/-- RST_CNT(w). -/
def rstCntWord (r : ResetUnit) (w : Nat) : U32 :=
  let l := r.counts.toList
  reg32 [(0, (l.getD (2 * w) 0).toNat), (16, (l.getD (2 * w + 1) 0).toNat)]
/-- The read value of word `a` of the RST block. -/
def rstWord (b : Block) (a : Nat) : U32 :=
  let r := b.rst
  match a with
  | 0x40 => rstStatusWord r
  | 0x41 => reg32 [(0, r.causeSource.toNat), (3, r.causeScope.code), (5, r.causeCore.toNat)]
  | 0x42 => r.hist.setWidth 32
  | 0x43 => strapWord r
  | 0x44 => rstCntWord r 0
  | 0x45 => rstCntWord r 1
  | 0x46 => rstCntWord r 2
  | 0x47 => rstCntWord r 3
  | 0x48 => lo32 r.readyAt
  | 0x49 => hi32 r.readyAt
  | 0x4A => r.bootMs
  | _ => 0
/-- A write of word `a` of the RST block: RST_HIST is cleared by writing ones. -/
def rstWrite (a : Nat) (v : U32) (b : Block) : Block :=
  if a = 0x42 then updRst (fun r => { r with hist := r.hist &&& ~~~(v.setWidth 8) }) b else b

/-! ### Commands (R516) -/

/-- The scope of a request byte. -/
def reqScope (k : Nat) : Scope := if k = 0 then .core else if k = 1 then .hub else .device
/-- SYS_RESET: it responds first, with the instant at which the reset acts. A reset already requested stands. -/
def sysReset (m : Fin 4) (b : Block) : Block :=
  let k := rN b m 0 1
  let c := rN b m 1 1
  let slow := k == 0 && (c == 1 || c == 2)
  checked m [(0x0110, decide (k ≤ 2) && (k != 0 || (coreOf c).isSome)), (0x0111, !slow || allSettled b), (0x0112, b.upd.pause.isNone)] (fun b =>
    let p : PendingReset := match b.rst.pending with
      | some p => p
      | none => { scope := reqScope k, source := 5, core := BitVec.ofNat 5 c, startAt := ahead b tMs, command := now b }
    let acts := if p.scope = .core then p.startAt else p.startAt + BitVec.ofNat 64 stopTicks
    ok m (b64 acts) (updRst (fun r => { r with pending := some p }) b)) b
/-- SYS_GET_RESET. -/
def sysGetReset (m : Fin 4) (b : Block) : Block := ok m ((List.range 16).flatMap fun k => b32 (rstWord b (0x40 + k))) b

/-- POWER_ON (R489). -/
def execPowerOn (pinHigh : Bool) (strap : U16) (s : State) : Result := s.run (powerOn pinHigh strap)
/-- BROWN_OUT (R489). -/
def execBrownOut (s : State) : Result := s.run brownOut
/-- RESET_PIN (R489). -/
def execResetPin (s : State) : Result := s.run resetPin
/-- RESET_N_RELEASE (R564). -/
def execResetNRelease (strap : U16) (s : State) : Result := s.run (resetNRelease strap)
/-- CLOCK_FAIL (R489). -/
def execClockFail (strap : U16) (s : State) : Result := s.run (clockFail strap)
/-- WATCHDOG (R489). -/
def execWatchdog (core : CoreId) (s : State) : Result := s.run (coreFails 4 core)
/-- LOCK_UP (R489). -/
def execLockUp (core : CoreId) (s : State) : Result := s.run (coreFails 7 core)
/-- SEDGE_ABSENCE_TIMEOUT (R17). -/
def execSedgeAbsenceTimeout (s : State) : Result := s.run sedgeAbsence
/-- STOP_SEQUENCE_START (R516). -/
def execStopSequenceStart (s : State) : Result := s.run stopSequenceStart
/-- STOP_SEQUENCE_END (R495). -/
def execStopSequenceEnd (strap : U16) (s : State) : Result := s.run (stopSequenceEnd strap)
/-- SYS_RESET (R516). -/
def execSysReset (m : Fin 4) (s : State) : Result := s.run (command m 0x0110 .sedge (sysReset m))
/-- SYS_GET_RESET (R516). -/
def execSysGetReset (m : Fin 4) (s : State) : Result := s.run (command m 0x0111 .sedge (sysGetReset m))

end Sys2Proof.Machine
end

