-- ==== Sys2Proof/Machine/Trace.lean ====
section
/-! DEFINITION. The ends of a recording and of a replay, and the items that open a trace (20_recorder_replay.md R535 to R540). -/

namespace Sys2Proof.Machine

/-- Change recording and replay. -/
def updRpl (f : Replay → Replay) (b : Block) : Block := { b with rpl := f b.rpl }
/-- Items stamped at or before `t` join the byte stream, in their order (R536). -/
def settleItems (t : Nat) (b : Block) : Block :=
  let go := b.rpl.recent.takeWhile fun x => decide (x.1.toNat ≤ t)
  updRpl (fun r => { r with buffer := r.buffer ++ go.flatMap (fun x => x.2.2), recent := r.recent.drop go.length }) b
/-- A running recording ends (R535): the END item, the last of the stream, and source 484. -/
def recordEnd (cause : BitVec 3) (b : Block) : Block :=
  if b.rpl.state = 2 then
    let b := settleItems (2 ^ 64) b
    let b := settleItems (2 ^ 64) (traceItem 15 0 (now b) (cause.setWidth 8 :: (zeros 7 ++ b64 b.rpl.items)) b)
    irq 484 (updRpl (fun r => { r with state := 4, cause := cause }) b)
  else b
/-- A running replay ends (R540): source 486, and 487 for a divergence. The device stays in replay mode. -/
def replayEnd (cause : BitVec 3) (b : Block) : Block :=
  if b.rpl.state = 3 then
    onlyIf (cause == 4) (irq 487) (irq 486 (updRpl (fun r => { r with state := 4, cause := cause }) b))
  else b

/-- The manifest of the slot of image `i` that runs, or that is tried. -/
def runManifest (b : Block) (i : Fin 4) : Manifest := let x := imageOf b i; if x.runB then x.manB else x.manA
/-- The manifest of the slot recorded active in the update record. -/
def recordedManifest (b : Block) (i : Fin 4) : Manifest :=
  let m := vget b.updRec.manifests i
  if (vget b.updRec.slots i).2.2 then m.2 else m.1
/-- The serial number of R391 under a debug policy. -/
def serialFor (policy : Nat) : Nat := beNat ((sha256 (pubBytes 2 (keyScalar 2 (cdi0 policy) "DEVID"))).take 8)
/-- The payload of the HEADER item (R536), with the images recorded active. -/
def headerPayload (b : Block) : List U8 :=
  let ms := (List.finRange 4).map (recordedManifest b)
  leBytes 4 0x4E564731 ++ [1, b.rst.choice.setWidth 8, 0, 0] ++ leBytes 8 (serialFor (debugPolicy b.rst.choice.toNat)) ++
    (ms.flatMap fun m => leBytes 4 m.sequence) ++ ms.flatMap fun m => padTo 48 m.hash
/-- The logical lines that BASE items carry: every line but KEYSTORE. -/
def baseLines : List Nat := List.range 55808 ++ (List.range (65536 - 56832)).map (56832 + ·)
/-- The BASE item of one line: bit 0 of the flags tells that the line is not valid. -/
def baseItem (n : Nat) (b : Block) : Block :=
  let l := Memory.readN b.pea.lines (64 * n) 64
  traceItem 1 (if lineValid l then 0 else 1) 0 (leBytes 4 n ++ l) b
/-- A recording opens with its HEADER and every line of the store as it stands before recovery. -/
def traceHead (b : Block) : Block :=
  if b.rpl.state = 2 ∧ b.rpl.recent.all (fun x => x.2.1 != 0) then forAll baseLines baseItem (traceItem 0 0 0 (headerPayload b) b) else b

end Sys2Proof.Machine
end

