-- ==== Sys2Proof/Machine/Images.lean ====
section
/-! DEFINITION. Images: manifests, compatibility, the requests for blocks and the blocks that arrive, and what a loaded image makes
of the key layers (19_reset_boot_update.md R498 to R503; 15_keys.md R388 to R390). -/

namespace Sys2Proof.Machine

/-! ### Manifests (R499 to R502) -/

/-- Maximum size of an image in bytes (R499). -/
def imageMax (i : Fin 4) : Nat :=
  match i.val with | 0 => 262144 | 1 => 458752 | 2 => 458752 | _ => 33554432
/-- Blocks of an image of `n` bytes. -/
def blocksOf (n : Nat) : Nat := (n + 4095) / 4096
/-- Bytes of a manifest with `n` block check values, and the slot blocks it takes. -/
def manifestBytes (n : Nat) : Nat := 192 + 4 * n
/-- The manifest in bytes (R500). -/
def manifestOf (l : List U8) : Manifest :=
  let n := natAt l 40 4
  { bytes := l.take (manifestBytes n), sequence := natAt l 8 4, epoch := BitVec.ofNat 16 (natAt l 12 2), resume := BitVec.ofNat 16 (natAt l 14 2)
    settings := BitVec.ofNat 16 (natAt l 16 2)
    compat := (List.range 4).map fun k => (BitVec.ofNat 16 (natAt l (20 + 4 * k) 2), BitVec.ofNat 16 (natAt l (22 + 4 * k) 2))
    length := natAt l 36 4, blocks := n, hash := slice l 48 48 }
/-- Format of the first 96 bytes (R500): magic, version, image, step, reserved bytes and the fields with a fixed range. -/
def manifestFormat (i : Fin 4) (l : List U8) : Bool :=
  natAt l 0 4 == 0x4C4B4D31 && byteAt l 4 == 1 && (byteAt l 5).toNat == i.val + 1 && byteAt l 6 == 0x42 && byteAt l 7 == 0 &&
    decide (1 ≤ natAt l 8 4 ∧ natAt l 8 4 ≤ 16777215) && slice l 18 2 == zeros 2 && slice l 44 4 == zeros 4 &&
    natAt l (20 + 4 * i.val) 4 == 0 && (i == 3 || natAt l 14 4 == 0) && natAt l 40 4 == blocksOf (natAt l 36 4)
/-- Check 1 of R503 on the first block: 0, or the status. -/
def formatCheck (i : Fin 4) (l : List U8) : Nat :=
  if !manifestFormat i l then 0x1310 else if imageMax i < natAt l 36 4 then 0x130E else 0
/-- The counter of image `i` (R501): counter 15 + x for image x. -/
def imageCtr (i : Fin 4) : Fin 64 := ⟨16 + i.val, by omega⟩
/-- The signature verifies with the key of slot 3 (R500). The boot ROM does so without the derived keys. -/
def manifestSigned (b : Block) (boot : Bool) (m : Manifest) : Bool :=
  let body := m.bytes.take (96 + 4 * m.blocks)
  let sig := slice m.bytes (96 + 4 * m.blocks) 96
  if boot then
    let x := vget b.key.index 3
    x.usage.toNat == 4 && ecdsaVerify 2 x.pub (beNat (sha384 body)) sig
  else verifySlot b 3 4 body sig
/-- The epoch of `n` lies within what `m` accepts for image `j`. -/
def epochFits (m : Manifest) (j : Fin 4) (n : Manifest) : Bool :=
  match m.compat[j.val]? with
  | some (lo, hi) => decide (lo.toNat ≤ n.epoch.toNat ∧ n.epoch.toNat ≤ hi.toNat)
  | none => false
/-- A set of images is compatible (R502); an image that is absent takes no part. -/
def compatible (s : Fin 4 → Option Manifest) : Bool :=
  (List.finRange 4).all fun i => (List.finRange 4).all fun j =>
    i == j || (match s i, s j with | some m, some n => epochFits m j n | _, _ => true)

/-! ### Requests (R498) -/

/-- Change the fetch in progress. -/
def updFetch (f : Fetch → Fetch) (b : Block) : Block := updUpd (fun u => { u with fetch := u.fetch.map f }) b
/-- Blocks of boot come over the host port. -/
def hostBoot (b : Block) : Bool :=
  strapHostPort b.rst.choice.toNat && (match b.upd.fetch with | some f => f.mbx.isNone | none => false)
/-- The 16 bytes of a request (R498). -/
def requestBytes (f : Fetch) (t : U64) : List U8 :=
  [BitVec.ofNat 8 (f.image.val + 1), BitVec.ofNat 8 (b2n f.slotB)] ++ leBytes 2 (f.upto - f.next) ++ leBytes 4 f.next ++ b64 t
/-- The boot ROM posts a request that waits, once mailbox 0 is IDLE: a response with opcode 0x13F0, source 2. -/
def bootPost (b : Block) : Block :=
  match b.upd.fetch with
  | none => b
  | some f =>
    if hostBoot b ∧ !f.posted ∧ (mbxOf b 0).state = .idle then
      let l := requestBytes f (now b)
      let b := setMbx 0 { mbxOf b 0 with
        state := .done, tag := 0, replayed := false, resp := Memory.ofBytes (leBytes 2 0x13F0 ++ zeros 4 ++ leBytes 2 l.length ++ l) } b
      irq 2 (updFetch (fun f => { f with posted := true, requestedAt := now b }) b)
    else b
/-- Request the slot blocks from `next` on, 16 at most; of a manifest of unknown length one. -/
def requestBlocks (b : Block) : Block :=
  match b.upd.fetch with
  | none => b
  | some f =>
    let upto := if f.total = 0 then f.next + 1 else min f.total (f.next + 16)
    let f := { f with upto := upto, block := [], posted := false, requestedAt := now b }
    let b := updUpd (fun u => { u with fetch := some f }) b
    if hostBoot b then bootPost b
    else
      let b := (sendRecord agSedge b.upd.outQueue.toNat (mkRecord 0x1301 16 0 (requestBytes f (now b))) b).1
      updFetch (fun f => { f with posted := true }) b
/-- Begin to fetch a slot: its manifest first, or the image whose manifest is known. -/
def beginFetch (f : Fetch) (b : Block) : Block := requestBlocks (updUpd (fun u => { u with fetch := some f }) b)

/-! ### A loaded image -/

/-- First 4 bytes of the SHA-256 of an image (R363). -/
def imageCheck (l : List U8) : U32 := BitVec.ofNat 32 (beNat ((sha256 l).take 4))
/-- The key layer of an image follows its measurement (R389, R390): Carr gives the legal and the replay key, Sedge the alias key;
a new measurement of Sedge erases the loaded measurement-bound blobs. -/
def deriveLayer (i : Fin 4) (b : Block) : Block :=
  if !keysUp b then b
  else
    let h := (imageOf b i).measured
    let c0 := secretOf b 0
    match i.val with
    | 2 =>
      let c := cdiOf c0 3 h
      if secretOf b 1 = c then b
      else
        let dL := keyScalar 1 c "LEGAL"
        let dR := keyScalar 1 c "REPLAY"
        let b := putSecret 1 c (putSecret 5 (beBytes 32 dL) (putSecret 6 (beBytes 32 dR) b))
        { b with key := { b.key with pubs := vset (vset b.key.pubs 2 (pubBytes 1 dL)) 3 (pubBytes 1 dR) } }
    | 3 =>
      let c := cdiOf c0 4 h
      if secretOf b 2 = c then b
      else
        let dA := keyScalar 2 c "ALIAS"
        let b := putSecret 2 c (putSecret 4 (beBytes 48 dA) b)
        let bound := (List.finRange 16).filter fun s => decide (4 ≤ s.val) && (vget b.key.index s).bound
        forAll bound (fun s b => { b with key := { b.key with
            loaded := b.key.loaded &&& ~~~((1 : BitVec 16) <<< s.val), shares := vset b.key.shares (slotReg s) {} } })
          { b with key := { b.key with pubs := vset b.key.pubs 1 (pubBytes 2 dA) } }
    | _ => b
/-- Image `i` runs from its slot: UPD_IMG, UPD_SEQ, its measurement and check value. -/
def noteRunning (i : Fin 4) (b : Block) : Block :=
  let m := runManifest b i
  let b := updImage i (fun x => { x with
    epoch := m.epoch, sequence := BitVec.ofNat 24 m.sequence, measured := m.hash, check := if x.runB then x.checkB else x.checkA }) b
  let b := deriveLayer i b
  if i = 2 then updSlt (fun s => { s with carrCheck := (imageOf b 2).check }) b else b

end Sys2Proof.Machine
end

