-- ==== Sys2Proof/Machine/Fetching.lean ====
section
/-! DEFINITION. The fetch of an image: choosing the slots of a start, the blocks as they arrive, the checks of staging, time-outs and
retries (19_reset_boot_update.md R497, R498, R501 to R503, R517). -/

namespace Sys2Proof.Machine

/-! ### Choosing the slots of a start (R497) -/

/-- The boot ROM or Sedge still loads images. -/
def booting (b : Block) : Bool :=
  !b.rst.inReset && (b.rst.state == .boot || b.rst.state == .bootFail) && decide (1 ≤ b.rst.stage.toNat ∧ b.rst.stage.toNat ≤ 5)
/-- The image that the stage now running loads (R496): Dyke in stage 3, Carr in 4, Creek in 5, Sedge in 6. -/
def stageImage (stage : Nat) : Option (Fin 4) :=
  match stage with | 2 => some 1 | 3 => some 2 | 4 => some 0 | 5 => some 3 | _ => none
/-- What boot fetches next: the manifest of an image (true), or the image of the stage. -/
def bootWork (b : Block) : Option (Fin 4 × Bool) :=
  if !booting b then none
  else match (List.finRange 4).find? fun i => !(imageOf b i).manOk && !(imageOf b i).missing with
    | some i => some (i, true)
    | none => match stageImage b.rst.stage.toNat with
      | some i => if (imageOf b i).manOk && !(imageOf b i).loaded && !(imageOf b i).missing then some (i, false) else none
      | none => none
/-- Fetch an image whose manifest is `m`: slot blocks M to M + N - 1. -/
def imageFetch (i : Fin 4) (slotB : Bool) (m : Manifest) (mbx : Option (Fin 4)) : Fetch :=
  let k := blocksOf (manifestBytes m.blocks)
  { image := i, slotB := slotB, man := false, next := k, total := k + m.blocks, manifest := m, mbx := mbx }
/-- Go on with boot. -/
def bootNext (b : Block) : Block :=
  if b.upd.fetch.isSome then b
  else match bootWork b with
    | some (i, true) => beginFetch { image := i, slotB := (imageOf b i).runB } b
    | some (i, false) => beginFetch (imageFetch i (imageOf b i).runB (runManifest b i) none) b
    | none => b
/-- Image `i` has no bootable slot: Creek's modems stay disabled; for another image BOOT_FAIL. -/
def imageMissing (i : Fin 4) (b : Block) : Block :=
  let b := updImage i (fun x => { x with missing := true, manOk := false, loaded := false, runB := (vget b.updRec.slots i).2.2 }) b
  if i = 0 then b else updUpd (fun u => { u with lastRetry := now b }) (updRst (fun r => { r with state := .bootFail }) b)
/-- The slot tried for image `i` is not bootable: the other one is tried, once. -/
def slotFail (i : Fin 4) (b : Block) : Block :=
  let b := updUpd (fun u => { u with fetch := none }) b
  if (imageOf b i).fell then bootNext (imageMissing i b)
  else bootNext (updImage i (fun x => { x with fell := true, runB := !x.runB, manOk := false, loaded := false }) b)
/-- The manifests chosen, once each is known or its image is missing. -/
def chosenSet (b : Block) (i : Fin 4) : Option Manifest := if (imageOf b i).manOk then some (runManifest b i) else none
/-- A set that breaks R502: an image in TRIAL falls back; else Creek is left out if that helps, else the device stays in
BOOT_FAIL. -/
def chooseSet (b : Block) : Block :=
  if (List.finRange 4).any (fun i => !(imageOf b i).manOk && !(imageOf b i).missing) || compatible (chosenSet b) then b
  else match b.upd.trialImage with
    | some t =>
      if !(imageOf b t).fell then slotFail t b
      else forAll [1, 2, 3] imageMissing b
    | none =>
      if compatible (fun i => if i = 0 then none else chosenSet b i) then imageMissing 0 b else forAll [1, 2, 3] imageMissing b

/-! ### Staging and loading (R503) -/

/-- The set that would run with the manifest `m` of image `i`. -/
def stagedSet (b : Block) (i : Fin 4) (m : Manifest) (j : Fin 4) : Option Manifest :=
  if j = i then some m else if (imageOf b j).loaded then some (runManifest b j) else none
/-- Checks 2 to 4 of R503. -/
def stagingChecks (i : Fin 4) (m : Manifest) (b : Block) : List (Nat × Bool) :=
  [(0x1304, manifestSigned b false m), (0x1307, !ctrExhausted b (imageCtr i)),
   (0x1306, decide ((vget b.pea.ctr (imageCtr i)).toNat < m.sequence)), (0x1308, compatible (stagedSet b i m))]
/-- The manifest of a slot is bootable (R497): signature, and a sequence not below the counter. -/
def manifestBoots (i : Fin 4) (m : Manifest) (b : Block) : Bool :=
  manifestSigned b true m && decide ((vget b.pea.ctr (imageCtr i)).toNat ≤ m.sequence)
/-- Keep the manifest of a slot. -/
def noteManifest (i : Fin 4) (slotB : Bool) (m : Manifest) (b : Block) : Block :=
  updImage i (fun x => if slotB then { x with manB := m } else { x with manA := m }) b
/-- A fetch cannot go on: staging fails with a status; at boot the slot is not bootable. -/
def fetchFail (st : Nat) (b : Block) : Block :=
  match b.upd.fetch with
  | none => b
  | some f => if f.mbx.isSome then stageFail st b else slotFail f.image b
/-- Slot `slotB` of image `i` is staged (R503): source 23, the answer. -/
def staged (f : Fetch) (b : Block) : Block :=
  let l := f.data.take f.manifest.length
  let b := updImage f.image (fun x => if f.slotB then { x with checkB := imageCheck l } else { x with checkA := imageCheck l }) b
  let b := setSlot f.image f.slotB 1 (updUpd (fun u => { u with
    fetch := none, status := 2, busy := false, progress := 100, standby := l }) b)
  let b := irq 23 b
  match f.mbx with
  | some m => ok m (leBytes 4 f.manifest.sequence ++ b16 f.manifest.epoch ++ [BitVec.ofNat 8 (b2n f.slotB)]) b
  | none => b
/-- An image has been loaded at boot and matches its hash (R497): the slot is recorded when it is not the one that was recorded
active, with its status. -/
def loaded (f : Fetch) (b : Block) : Block :=
  let i := f.image
  let l := f.data.take f.manifest.length
  let x := imageOf b i
  let b := updImage i (fun x => let y := { x with loaded := true }; if f.slotB then { y with checkB := imageCheck l } else { y with checkA := imageCheck l }) b
  let b := updUpd (fun u => { u with fetch := none }) b
  let reverted := decide (b.upd.activating = some i)
  let run := if f.slotB then x.stateB else x.stateA
  let b :=
    if x.fell then
      let b := updUpd (fun u => { u with
        status := if reverted then 9 else 10, image := BitVec.ofNat 3 (i.val + 1), activating := if reverted then none else u.activating
        trialImage := if u.trialImage = some i then none else u.trialImage, trialLeft := if u.trialImage = some i then 0 else u.trialLeft }) b
      onlyIf reverted (irq 27) (saveUpdate (setSlot i f.slotB 2 (setSlot i (!f.slotB) 0 b)))
    else if run = 0 then saveUpdate (setSlot i f.slotB 2 b)
    else b
  let b := noteRunning i b
  let differs := b.rpl.mode && slice b.rpl.header (32 + 48 * i.val) 48 != padTo 48 f.manifest.hash
  bootNext (onlyIf differs (replayEnd 6) b)
/-- Every block of an image has arrived: its SHA-384 is compared. -/
def imageDone (f : Fetch) (b : Block) : Block :=
  if sha384 (f.data.take f.manifest.length) = f.manifest.hash then (if f.mbx.isSome then staged f b else loaded f b)
  else fetchFail 0x1305 b
/-- A manifest has arrived whole. -/
def manifestDone (f : Fetch) (b : Block) : Block :=
  let i := f.image
  let m := manifestOf f.data
  if f.mbx.isSome then
    match firstFail (stagingChecks i m b) with
    | some st => fetchFail st b
    | none =>
      let g := imageFetch i f.slotB m f.mbx
      let b := noteManifest i f.slotB m b
      if m.blocks = 0 then imageDone g b else beginFetch g b
  else if manifestBoots i m b then
    bootNext (chooseSet (updUpd (fun u => { u with fetch := none }) (updImage i (fun x => { x with manOk := true }) (noteManifest i f.slotB m b))))
  else slotFail i b

/-! ### Blocks -/

/-- Percent of the slot's blocks that have arrived. -/
def fetchProgress (f : Fetch) : Nat :=
  let n := if f.man then f.total + natAt f.data 40 4 else f.total
  if n = 0 then 0 else min 100 (f.next * 100 / n)
/-- A block is complete: the fetch goes on behind it. -/
def blockTaken (f : Fetch) (b : Block) : Block :=
  let b := updUpd (fun u => { u with fetch := some f, progress := BitVec.ofNat 8 (fetchProgress f) }) b
  if f.next = f.total then (if f.man then manifestDone f b else imageDone f b)
  else if f.next = f.upto then requestBlocks b
  else b
/-- Block `f.next` is complete with its 4,096 bytes. -/
def blockDone (f : Fetch) (block : List U8) (b : Block) : Block :=
  let g := { f with data := f.data ++ block, block := [], next := f.next + 1, tries := 0 }
  if f.man then
    if f.total = 0 then
      let st := formatCheck f.image block
      if st ≠ 0 then fetchFail st b else blockTaken { g with total := blocksOf (manifestBytes (natAt block 40 4)) } b
    else blockTaken g b
  else
    let k := f.next - blocksOf (manifestBytes f.manifest.blocks)
    if natAt f.manifest.bytes (96 + 4 * k) 4 = (crc32c block).toNat then blockTaken g b else fetchFail 0x1303 b
/-- Part `part` of a block, in parts of `size` bytes; a part out of its order is ignored. -/
def takePart (image slot block part size : Nat) (data : List U8) (b : Block) : Block :=
  match b.upd.fetch with
  | none => b
  | some f =>
    if image = f.image.val + 1 ∧ slot = b2n f.slotB ∧ block = f.next ∧ f.posted ∧ f.block.length = part * size then
      let l := (f.block ++ padTo size data).take 4096
      if l.length = 4096 then blockDone f l b else updFetch (fun f => { f with block := l }) b
    else b
/-- The host does not hold a slot or a block. -/
def partAbsent (image slot : Nat) (b : Block) : Block :=
  match b.upd.fetch with
  | none => b
  | some f => if image = f.image.val + 1 ∧ slot = b2n f.slotB then fetchFail 0x130D b else b
/-- One IMAGE_DATA record (R498). -/
def takeImageRecord (l : List U8) (b : Block) : Block :=
  let p := l.drop 8
  let image := (byteAt p 0).toNat
  let slot := (byteAt p 1).toNat
  if natAt l 0 2 ≠ 0x1302 ∨ hostBoot b then b
  else if natAt p 2 2 = 0xFFFF then partAbsent image slot b
  else takePart image slot (natAt p 4 4) (natAt p 2 2) 48 (slice p 8 48) b
/-- IMAGE_DATA: the oldest record of the update inbound queue is taken. -/
def imageData (b : Block) : Block :=
  match qDequeue agSedge b.upd.inQueue.toNat b with
  | (b, .error _) => b
  | (b, .ok u) =>
    let l := bufBytes b u
    takeImageRecord l (qFree agSedge u b).1
/-- BLOCK_REQUEST_TIMEOUT: 100 ms after the request it is made again, up to 3 times; then the slot is absent or staging
fails. -/
def blockTimeout (b : Block) : Block :=
  match b.upd.fetch with
  | none => b
  | some f =>
    if f.posted then
      afterTicks f.requestedAt 150000000 (fun b =>
        if f.tries < 3 then requestBlocks (updFetch (fun f => { f with tries := f.tries + 1 }) b) else fetchFail 0x130D b) b
    else b
/-- BOOT_RETRY: in BOOT_FAIL the missing images are requested again every 1 s. -/
def bootRetry (b : Block) : Block :=
  if b.rst.state = .bootFail ∧ booting b then
    afterTicks b.upd.lastRetry tSec (fun b =>
      bootNext (updUpd (fun u => { u with
        lastRetry := now b, images := vmapIdx u.images fun i x => if x.missing then { x with missing := false, fell := decide (u.activating = some i) } else x }) b)) b
  else b

/-! ### Host-port boot (R498, R517) -/

/-- The boot ROM serves mailbox 0. -/
def bootRom (b : Block) : Bool := booting b && strapHostPort b.rst.choice.toNat
/-- UPD_BOOT_PART: served by the boot ROM alone. -/
def updBootPart (m : Fin 4) (b : Block) : Block :=
  if !serving b m 0x13F0 then b
  else if m = 0 ∧ bootRom b then
    let image := rN b m 0 1
    let slot := rN b m 1 1
    checked m [(0x1301, decide (1 ≤ image ∧ image ≤ 4 ∧ slot ≤ 1))] (fun b =>
      takePart image slot (rN b m 4 4) (rN b m 2 1) 512 (rBytes b m 8 512) (ok m [] b)) b
  else refuse m 1 b
/-- Acknowledging mailbox 0 lets a waiting request of the boot ROM be posted. -/
def mbxAcknowledge (m : Fin 4) (b : Block) : Block := bootPost (mbxAck m b)
/-- A write of MBX_DOORBELL(m) (R425), with what follows for the boot ROM. -/
def doorbellWrite (m : Fin 4) (v : U32) (b : Block) : Block := bootPost (mbxDoorbell m v b)

/-- IMAGE_DATA (R498). -/
def execImageData (s : State) : Result := s.run imageData
/-- BLOCK_REQUEST_TIMEOUT (R498). -/
def execBlockRequestTimeout (s : State) : Result := s.run blockTimeout
/-- BOOT_RETRY (R497). -/
def execBootRetry (s : State) : Result := s.run bootRetry
/-- UPD_BOOT_PART (R498). -/
def execUpdBootPart (m : Fin 4) (s : State) : Result := s.run (updBootPart m)
/-- MBX_ACKNOWLEDGE (R425). -/
def execMbxAcknowledge (m : Fin 4) (s : State) : Result := s.run (mbxAcknowledge m)

end Sys2Proof.Machine
end

