-- ==== Sys2Proof/Machine/Boot.lean ====
section
/-! DEFINITION. The boot stages and ready (19_reset_boot_update.md R496, R497; 01_architecture.md R27; 21_register_map.md R558). -/

namespace Sys2Proof.Machine

/-! ### Stage 1: the store, the keys, Tide ready -/

/-- The flags that a register keeps over a reset. -/
def flagsFrom (old new : Register) : Register := { new with range := old.range, unproven := old.unproven }
/-- The flags of every energy register return (R36, R112). -/
def accFlags (k a : Energy) : Energy :=
  { a with
    nodeDel := vmapIdx a.nodeDel fun n r => flagsFrom (vget k.nodeDel n) r, nodeRec := vmapIdx a.nodeRec fun n r => flagsFrom (vget k.nodeRec n) r
    fdrImp := vmapIdx a.fdrImp fun f r => flagsFrom (vget k.fdrImp f) r, fdrExp := vmapIdx a.fdrExp fun f r => flagsFrom (vget k.fdrExp f) r
    hubDel := flagsFrom k.hubDel a.hubDel, hubRec := flagsFrom k.hubRec a.hubRec
    unattImp := flagsFrom k.unattImp a.unattImp, unattExp := flagsFrom k.unattExp a.unattExp
    pairs := vmapIdx a.pairs fun p x => { x with range := (vget k.pairs p).range, unproven := (vget k.pairs p).unproven }
    hubUnproven := k.hubUnproven, attribUnproven := k.attribUnproven }
/-- Those of a connector and its session. -/
def connFlags (k c : LegalConn) : LegalConn :=
  { c with range := k.range, unproven := k.unproven, attUnproven := k.attUnproven, attRange := k.attRange, connRange := k.connRange, connUnproven := k.connUnproven }
/-- The dump region as a reset leaves it (R533): a dump that was being written is INCOMPLETE, and admission is free again. -/
def dumpFrom (d : Dump) : Dump := { d with state := if d.state = 1 then 3 else d.state, raised := [], fatalAt := none, fatal := false }
/-- The keys that a reset of HUB scope left in place (R393). -/
def keysFrom (k now_ : KeyStore) : KeyStore :=
  { k with remaskCnt := 0, rejectCnt := 0, rngFailCnt := 0, challenge := none, messages := [], maskWait := 0, units := Vector.replicate 4 none, queues := Vector.replicate 3 []
           index := now_.index, draws := now_.draws }
/-- What the reset kept returns. -/
def restoreKept (b : Block) : Block :=
  match b.kept with
  | none => b
  | some k =>
    { b with
      acc := accFlags k.acc b.acc, legal := vmapIdx b.legal fun n c => connFlags (vget k.legal n) c, dmp := dumpFrom k.dmp
      pea := { b.pea with ue := k.ue, ueLine := k.ueLine, ueCnt := k.ueCnt }, key := if b.rst.hubBoot then keysFrom k.key b.key else b.key, kept := none }
/-- State of the slot recorded active. -/
def recordedState (x : BitVec 3 × BitVec 3 × Bool) : BitVec 3 := if x.2.2 then x.2.1 else x.1
/-- A staged copy is lost (R512): slot NONE. -/
def unstaged (s : BitVec 3) : BitVec 3 := if s = 1 then 0 else s
/-- One image by the update record. An image recorded ACTIVATING runs its other slot, and no second one (R497). -/
def imageFrom (r : UpdRecord) (i : Fin 4) (x : Image) : Image :=
  let s := vget r.slots i
  let m := vget r.manifests i
  let c := vget r.checks i
  { x with stateA := unstaged s.1, stateB := unstaged s.2.1, runB := s.2.2, manA := m.1, manB := m.2, checkA := c.1, checkB := c.2
           fell := decide (r.activating = some i) }
/-- The update record returns (R509, R512): a trial continues, its time counting on from Tide 0 or from the assertion of a HUB reset. -/
def restoreUpdate (b : Block) : Block :=
  let r := b.updRec
  let t := (List.finRange 4).find? fun i => recordedState (vget r.slots i) == 3
  updUpd (fun u => { u with
    images := vmapIdx u.images (imageFrom r), activating := r.activating, trialImage := t, trialLeft := if t.isSome then r.trialLeft else 0
    trialFrom := if b.rst.hubBoot then b.rst.bootFrom + BitVec.ofNat 64 stopTicks else 0, warned := decide (r.trialLeft.toNat ≤ 60), status := if t.isSome then 5 else 0
    image := match t with | some i => BitVec.ofNat 3 (i.val + 1) | none => 0 }) b
/-- Recovery of the store and what hangs on it; Tide is ready (R324, R496): the START entry of R522. Metrology starts with
tide_ready (R92); its configuration and tables return from the recovered LEGAL partition just before it (R105; log entry 167). -/
def stageStore (b : Block) : Block :=
  let held := match b.kept with | some k => k.wallets | none => []
  let r := recoverPeat (restoreKept b)
  let b := forAll held unproveWallet (restoreUpdate (applyMetrology r.1.legalSet (applyBilling r.1.legalSet r.1)))
  let b := updMet (fun x => { x with running := true, tableCrc := allTablesCrc b }) b
  let b := { b with btn := { b.btn with running := true }, key := { b.key with rngOk := true, rngAt := now b } }
  let b := updTide (fun t => { t with ready := true }) (crossDrain .hostWrite (fun v => setTrim v.toInt) (crossSenders b))
  let b := if b.rpl.mode then { b with key := { b.key with serial := BitVec.ofNat 64 (natAt b.rpl.header 8 8) } } else b
  let b := legalLog 0x0002 wBittern
    [b.rst.causeSource.setWidth 8, BitVec.ofNat 8 b.rst.causeScope.code, b.pea.outcome.setWidth 8, BitVec.ofNat 8 (b2n r.2)] b
  if b.rpl.mode then b else bootPort b
/-- Stage 1 (R384, R496): at a DEVICE boot the key store regenerates the root secret first; a failed attempt that is tried again
keeps the stage open. In replay the store waits for its BASE items (R537). -/
def stageOne (x : BootInfo) (b : Block) : Block × Bool :=
  let b := traceHead b
  let b := if b.rst.hubBoot ∨ b.key.started ∨ b.key.retryAt.isSome then b else pufAttempt x.pufGood x.corrected b
  if b.key.retryAt.isSome ∨ (b.rpl.mode ∧ !b.rpl.based) then (b, false) else (stageStore b, true)

/-! ### Stages 3 to 6 -/

/-- The settings that boot applies: those of the new area while a Sedge image that converted them is in trial (R511). -/
def bootSettings (b : Block) : Settings :=
  match b.newSettings with
  | some x => if b.upd.trialImage = some 3 then x else b.settings
  | none => b.settings
/-- Dyke runs (R496): the safety configuration is checked in both channels; a wrong value is cause CONFIG of R273. -/
def stageDyke (x : BootInfo) (b : Block) : Block :=
  let b := updRst (fun r => { r with dyke := true }) (applySafety (bootSettings b) b)
  let b := updSaf (fun s => { s with dykeAlive := true, agree := true, cfgOk := x.cfgGood, cfgCrc := crc32c (safCfgBytes b) }) b
  if x.cfgGood then reviewHub b
  else contain { cause := 0x0E, scope := .hub, mode := .heldOpen, base := 3, lock := true, reason := .safety } b
/-- End reason of a session that was open at the cut (R17, R27, R495). -/
def cutReason (b : Block) : EndReason :=
  match b.rst.causeSource.toNat with
  | 3 => .safety | 5 => .operator | 6 => .operator | _ => .powerFail
/-- Its SESSION_END reading was taken before the cut and is not signed yet. -/
def endTaken (b : Block) (n : Fin 16) : Bool :=
  b.slt.unsigned_.any fun r => r.kind == 2 && r.session == (legalOf b n).number
/-- A session that was open at the cut is closed from its committed values (R27): Brine returns its balance, the reading carries
the stamp of the last epoch and the deferred flag, the connector is in ENDED until state A. -/
def closeCut (n : Fin 16) (b : Block) : Block :=
  let c := legalOf b n
  if c.number = 0 then b
  else
    let r := cutReason b
    let b := updSess n (fun s => { s with endReason := some r, number := c.number }) (enterPhase n .ended b)
    let b := updVeh n (fun v => { v with starting := false, unlockDue := true }) b
    let taken := endTaken b n
    let b := updLegal n (fun c => { c with ended := true }) (returnLedger n b)
    if taken then b
    else
      takeReading { kind := 2, connector := BitVec.ofNat 8 n.val, session := c.number, stamp := b.pea.recStamp, endReason := r.code, extra := 8
                    utc := some (if b.backup.rtcValid then b.pea.recRtc.toNat / 32768 else 0)
                    entries := sessionHead b n ++ sessionEnergy b n ++ creditEntries b n ++ connTotals b n } b
/-- VBAT has been lost when the marker of the backup domain is absent (R367). -/
def backupStart (b : Block) : Block :=
  if b.backup.marker then updBackup (fun x => { x with vbatLost := false }) b
  else irq 420 (saveLegalConfig (updSlt (fun s => { s with tamper := true })
    (updBackup (fun x => { x with vbatLost := true, marker := true, logWait := true, rtcValid := false, events := [], overflow := 0 }) b)))
/-- Carr runs (R496): tamper evidence, the sessions open at the cut, the held readings, and the
tariff in force. -/
def stageCarr (b : Block) : Block :=
  let b := requesterMask rqCarr false (updRst (fun r => { r with carr := true }) b)
  let b := backupStart b
  let b := { b with bri := { b.bri with running := true, balanced := true } }
  let b := tamperMove (updSlt (fun s => { s with running := true, timeSrc := BitVec.ofNat 2 (timeSource b), intStart := BitVec.ofNat 64 (sampleAtOrAfter (now b).toNat) }) b)
  let b := updSlt (fun s => { s with tariff := BitVec.ofNat 4 (inForceAt b (now b)).tariff }) b
  replan (signHeldAgain (forAll allNodes closeCut b))
/-- Creek is loaded on every modem, or its modems stay disabled. -/
def stageCreek (b : Block) : Block := updRst (fun r => { r with creek := (imageOf b 0).loaded }) b
/-- Sedge runs and applies the stored settings; Causeway takes its own by one link reset; limp-home ends (R306, R496, R558). -/
def stageSedge (b : Block) : Block :=
  let x := bootSettings b
  let b := { b with newSettings := if b.upd.trialImage = some 3 then b.newSettings else none }
  let b := updRst (fun r => { r with sedge := true, sedgeAbsent := none }) b
  let b := requesterMask rqUpdate false (requesterMask rqSedge false b)
  let b := linkReset 8 0 (applyPort x (applyProtect x (applyVeh x (applySlu x b))))
  let b := if b.rpl.mode then b else limpEnd b
  driveFeed (forAll allNodes pilotReview (reviewHub { b with slu := { b.slu with running := true } }))

/-! ### The row -/

/-- Ready is declared (R496): stage 7, admission, RST_READY, RST_BOOT_MS, source 21. -/
def declareReady (b : Block) : Block :=
  irq 21 (updRst (fun r => { r with
    stage := 7, state := .ready, admission := true, readyAt := now b, bootMs := BitVec.ofNat 32 (((now b).toNat - r.bootCmd.toNat) / tMs) }) b)
/-- Length of boot in ticks: 1,600 ms. -/
def bootTicks : Nat := 2400000000
/-- Stage 6 has ended; when it ends late, ready is declared at once. -/
def stageSix (b : Block) : Block :=
  if bootTicks < since b b.rst.bootFrom then declareReady (updRst (fun r => { r with bootLate := true }) b) else b
/-- The images that a stage needs are there. -/
def stageReady (b : Block) : Bool :=
  b.upd.fetch.isNone &&
    match b.rst.stage.toNat with
    | 1 => (List.finRange 4).all fun i => (imageOf b i).manOk || (i == 0 && (imageOf b i).missing)
    | 4 => (imageOf b 0).loaded || (imageOf b 0).missing
    | s => (match stageImage s with | some i => (imageOf b i).loaded | none => false)
/-- The work that ends a stage after the first. -/
def stageWork (x : BootInfo) (b : Block) : Block :=
  match b.rst.stage.toNat with
  | 2 => stageDyke x b
  | 3 => stageCarr b
  | 4 => stageCreek b
  | 5 => stageSedge b
  | _ => b
/-- The next stage has been reached. -/
def stageUp (b : Block) : Block := updRst (fun r => { r with stage := r.stage + 1, state := .boot }) b
/-- BOOT_STAGE_DONE: the stage that runs completes and the next begins. -/
def bootStageDone (x : BootInfo) (b : Block) : Block :=
  if b.rst.inReset ∨ !(b.rst.state == .boot || b.rst.state == .bootFail) ∨ 6 ≤ b.rst.stage.toNat then b
  else if b.rst.stage = 0 then
    let r := stageOne x b
    if r.2 then bootNext (stageUp r.1) else r.1
  else if stageReady b then
    let b := stageUp (stageWork x b)
    if b.rst.stage = 6 then stageSix b else bootNext b
  else b
/-- READY_DECLARED: 2,400,000,000 ticks after Tide 0 or after the start of the stop sequence. -/
def readyDeclared (b : Block) : Block :=
  if b.rst.stage = 6 ∧ b.rst.state = .boot then afterTicks b.rst.bootFrom bootTicks declareReady b else b

/-- BOOT_STAGE_DONE (R496). -/
def execBootStageDone (x : BootInfo) (s : State) : Result := s.run (bootStageDone x)
/-- READY_DECLARED (R496). -/
def execReadyDeclared (s : State) : Result := s.run readyDeclared

end Sys2Proof.Machine
end

