-- ==== Sys2Proof/Machine/Update.lean ====
section
/-! DEFINITION. Firmware update in service: staging, activation, trial, commit and revert, the UPD block, and the end of a core's restart
(19_reset_boot_update.md R503 to R512, R514, R517, R491). -/

namespace Sys2Proof.Machine

/-! ### Pauses (R505, R506) -/

/-- Manifest of the slot of image `i` that does not run. -/
def otherManifest (b : Block) (i : Fin 4) : Manifest := let x := imageOf b i; if x.runB then x.manA else x.manB
/-- State of the slot that does not run. -/
def otherState (b : Block) (i : Fin 4) : BitVec 3 := let x := imageOf b i; if x.runB then x.stateA else x.stateB
/-- A switch of image `i` to its other slot is live: the sessions go on (R505). -/
def liveSwitch (b : Block) (i : Fin 4) : Bool := i == 0 || (i == 3 && (otherManifest b i).resume == (runManifest b i).resume)
/-- The phases in which a modem may be switched (R506). -/
def modemMaySwitch (b : Block) (n : Fin 16) : Bool :=
  match phaseOf b n with | .idle => true | .connected => true | .charging => true | .ended => true | .faulted => true | _ => false
/-- Modem `n` is neither switched nor deferred. -/
def modemWaits (b : Block) (n : Fin 16) : Bool := !b.upd.switched.getLsbD n.val && !b.upd.deferred.getLsbD n.val
/-- Creek goes on to its next modem in ascending number; one in another phase is deferred. -/
def modemNext (b : Block) : Block :=
  let step := fun (b : Block) (n : Fin 16) =>
    match b.upd.pause with
    | some p =>
      if p.modem.isSome ∨ !modemWaits b n then b
      else if modemMaySwitch b n then updUpd (fun u => { u with pause := some { p with modem := some n, start := now b } }) b
      else updUpd (fun u => { u with deferred := u.deferred ||| BitVec.ofNat 16 (2 ^ n.val) }) b
    | none => b
  allNodes.foldl step b
/-- Dyke's pause: both permit words and SAFE_STAT clear, lock-outs stay. -/
def dykePause (b : Block) : Block :=
  let b := updSaf (fun s => { s with hubPermit := false, ilkClosed := false }) b
  updRst (fun r => { r with dyke := false }) (forAll allNodes (fun n b => dykeClear n (updNode n (fun x => { x with permitHw := false }) b)) b)
/-- Carr's pause: it writes a quiescent epoch first. -/
def carrPause (b : Block) : Block :=
  updRst (fun r => { r with carr := false }) (writeEpoch 4 b.acc.applied (debitLines b))
/-- Sedge's pause: the write port is frozen but for requester 4, and Sedge is absent. -/
def sedgePause (b : Block) : Block := drainCheck (setFreeze 16 (loseSedge b))
/-- What begins with the pause of image `i`. -/
def pauseOf (i : Fin 4) (b : Block) : Block :=
  match i.val with
  | 0 => modemNext (updUpd (fun u => { u with switched := 0, deferred := 0 }) b)
  | 1 => dykePause b
  | 2 => carrPause b
  | _ => sedgePause b
/-- A pause that waits begins: that of an activation once its record is written (R504). -/
def pauseStart (b : Block) : Block :=
  match b.upd.pause with
  | none => b
  | some p =>
    if p.begun ∨ (!p.revert ∧ b.updRec.activating ≠ some p.image) then b
    else pauseOf p.image (updUpd (fun u => { u with pause := some { p with begun := true, start := now b } }) b)
/-- The length of a pause in ms. -/
def pauseLength (b : Block) (p : Pause) : Nat := since b p.start / tMs

/-! ### Switches (R504, R508, R510, R511) -/

/-- The cores run again after a switch of image `i`. -/
def resumeOf (i : Fin 4) (b : Block) : Block :=
  match i.val with
  | 1 => reviewHub (updSaf (fun s => { s with dykeAlive := true }) (updRst (fun r => { r with dyke := true }) b))
  | 2 => replan (updRst (fun r => { r with carr := true }) b)
  | 3 => driveFeed (forAll allNodes pilotReview (liftFreeze (updRst (fun r => { r with sedge := true, sedgeAbsent := none }) b)))
  | _ => b
/-- The CARR_IMAGE entry and the strips after a switch of Carr (R508). -/
def carrSwitched (what : U8) (old : U32) (b : Block) : Block :=
  let x := imageOf b 2
  let b := legalLog 0x0070 wUpdate ([what, 0, 0, 0] ++ beBytes 4 old.toNat ++ beBytes 4 x.check.toNat ++ leBytes 4 x.sequence.toNat) b
  forAll (List.finRange 8) (fun p b => onlyIf (pnlOf b p).enable (redrawStrip p) b) b
/-- Image `i` runs from its other slot; its key layer follows, source 445 (R390). -/
def swapSlot (what : U8) (i : Fin 4) (b : Block) : Block :=
  let old := (imageOf b i).check
  let b := irq 445 (noteRunning i (updImage i (fun x => { x with runB := !x.runB, loaded := true }) b))
  let b := resumeOf i b
  if i = 2 then carrSwitched what old { b with key := { b.key with switchWait := false } } else b
/-- The Sedge image to be run keeps its settings in another format (R511). -/
def formatDiffers (b : Block) (i : Fin 4) : Bool := i == 3 && (otherManifest b i).settings != (runManifest b i).settings
/-- The new image has converted the settings into the other area. -/
def migrate (b : Block) : Block :=
  peatFree rqSedge (if b.pea.settingsB then 57088 else 61184) 4096 .lines { b with newSettings := some b.settings }
/-- The settings of the area of record are in force again. -/
def oldSettings (b : Block) : Block :=
  match b.newSettings with
  | none => b
  | some _ =>
    let x := b.settings
    applyPort x (applyProtect x (applyVeh x (applySlu x (applySafety x { b with newSettings := none }))))
/-- Answer a mailbox that waits for a switch. -/
def answerSwitch (mbx : Option (Fin 4)) (payload : List U8) (b : Block) : Block :=
  match mbx with | some m => ok m payload b | none => b
/-- An activation has switched (R504): TRIAL, source 25, the operational log, the answer. -/
def activated (p : Pause) (b : Block) : Block :=
  let i := p.image
  let ms := pauseLength b p
  let old := (imageOf b i).runB
  let b := onlyIf (formatDiffers b i) migrate b
  let b := setSlot i old 4 (setSlot i (!old) 3 b)
  let b := updUpd (fun u => { u with
    pause := none, activating := none, status := 5, busy := false, progress := 100, image := BitVec.ofNat 3 (i.val + 1), trialImage := some i
    trialLeft := u.trial.setWidth 32, trialFrom := now b, warned := false, pauseMs := BitVec.ofNat 16 ms, standby := [] }) b
  answerSwitch p.mbx (b64 (now b) ++ leBytes 4 ms) (irqLog wUpdate 25 0xFFFF (saveUpdate (swapSlot 1 i b)))
/-- The status of a revert (R510). -/
def revertStatus (p : Pause) : BitVec 4 := if p.settings then 7 else if p.reset then 9 else 8
/-- A revert is complete (R510): the previous slot runs, the trial slot is NONE, source 27. -/
def reverted (p : Pause) (b : Block) : Block :=
  let i := p.image
  let trial := (imageOf b i).runB
  let b := setSlot i trial 0 (setSlot i (!trial) 2 b)
  let b := updUpd (fun u => { u with
    pause := none, activating := none, status := revertStatus p, busy := false, image := BitVec.ofNat 3 (i.val + 1), trialImage := none, trialLeft := 0
    revertWait := false, pauseMs := BitVec.ofNat 16 (pauseLength b p) }) b
  answerSwitch p.mbx (b64 (now b)) (irq 27 (saveUpdate (swapSlot 2 i (onlyIf (i == 3) oldSettings b))))
/-- The new Sedge image cannot convert the settings (R511): the previous slot runs again at once. -/
def settingsReverted (p : Pause) (b : Block) : Block :=
  let i := p.image
  let ms := pauseLength b p
  let run := (imageOf b i).runB
  let b := setSlot i (!run) 0 b
  let b := updUpd (fun u => { u with
    pause := none, activating := none, status := 7, busy := false, image := BitVec.ofNat 3 (i.val + 1), pauseMs := BitVec.ofNat 16 ms, standby := [] }) b
  answerSwitch p.mbx (b64 (now b) ++ leBytes 4 ms) (irqLog wUpdate 27 0xFFFF (saveUpdate (resumeOf i b)))
/-- Modem `n` runs the other Creek image; with the last one the activation or the revert ends. -/
def modemSwitched (p : Pause) (n : Fin 16) (b : Block) : Block :=
  let b := updUpd (fun u => { u with
    pauseMs := BitVec.ofNat 16 (pauseLength b p), switched := u.switched ||| BitVec.ofNat 16 (2 ^ n.val), deferred := u.deferred &&& ~~~(BitVec.ofNat 16 (2 ^ n.val)) }) b
  let k := (allNodes.filter fun k => b.upd.switched.getLsbD k.val).length
  let b := updUpd (fun u => { u with progress := BitVec.ofNat 8 (k * 100 / 16), pause := some { p with modem := none } }) b
  if k = 16 then (if p.revert then reverted p b else activated p b) else modemNext b
/-- The lines that must be written before Carr is switched are written. -/
def mayEndPause (b : Block) (i : Fin 4) : Bool := i != 2 || (reqOf b rqCarr).queue == []
/-- ACTIVATION_SWITCH: the pause ends with the new image running; for Creek that of one modem. -/
def activationSwitch (converts : Bool) (b : Block) : Block :=
  match b.upd.pause with
  | none => b
  | some p =>
    if !p.begun ∨ !mayEndPause b p.image then b
    else if p.image = 0 then (match p.modem with | some n => modemSwitched p n b | none => modemNext b)
    else if p.revert then reverted p b
    else if formatDiffers b p.image && !converts then settingsReverted p b
    else activated p b
/-- MODEM_DEFERRED_SWITCH: the pause of a deferred modem begins when its connector has entered a phase that allows it; ACTIVATION_SWITCH ends
it. -/
def modemDeferredSwitch (n : Fin 16) (b : Block) : Block :=
  match b.upd.pause with
  | none => b
  | some p =>
    if p.begun ∧ p.image = 0 ∧ p.modem.isNone ∧ b.upd.deferred.getLsbD n.val ∧ modemMaySwitch b n then updUpd (fun u => { u with pause := some { p with modem := some n, start := now b } }) b else b

/-! ### The trial (R509, R510) -/

/-- Trial time left in s. -/
def trialLeftNow (b : Block) : Nat := if b.upd.trialImage.isSome then b.upd.trialLeft.toNat - since b b.upd.trialFrom / tSec else 0
/-- Begin the pause of a revert of image `i`. -/
def beginRevert (p : Pause) (b : Block) : Block := pauseStart (updUpd (fun u => { u with pause := some { p with revert := true }, busy := true }) b)
/-- A switch of image `i` must wait for the connectors (R505, R510). -/
def mustWait (b : Block) (i : Fin 4) : Bool := !liveSwitch b i && !allSettled b
/-- The trial time has ended without commit: the image reverts, or waits for the connectors while admission is stopped. -/
def trialOver (t : Fin 4) (b : Block) : Block :=
  if mustWait b t then updUpd (fun u => { u with revertWait := true }) b
  else beginRevert { image := t } (updUpd (fun u => { u with revertWait := false }) b)
/-- TRIAL_EXPIRED. A revert that waits begins once every connector is in IDLE, ENDED or FAULTED. -/
def trialExpired (b : Block) : Block :=
  match b.upd.trialImage with
  | none => b
  | some t =>
    if b.upd.pause.isSome ∨ b.upd.commit.isSome then b
    else if b.upd.revertWait then trialOver t b
    else afterTicks b.upd.trialFrom (b.upd.trialLeft.toNat * tSec) (trialOver t) b
/-- TRIAL_WARN: 60 s of trial time remain: source 28. -/
def trialWarn (b : Block) : Block :=
  if b.upd.trialImage.isSome ∧ !b.upd.warned then
    afterTicks b.upd.trialFrom ((b.upd.trialLeft.toNat - 60) * tSec) (fun b => irq 28 (updUpd (fun u => { u with warned := true }) b)) b
  else b
/-- TRIAL_TIME_SAVE: every 10 s the update record keeps the trial time. -/
def trialTimeSave (b : Block) : Block :=
  if b.upd.trialImage.isSome ∧ 10 ≤ b.upd.trialLeft.toNat then
    afterTicks b.upd.trialFrom (10 * tSec) (fun b =>
      saveUpdate (updUpd (fun u => { u with trialLeft := u.trialLeft - 10, trialFrom := u.trialFrom + BitVec.ofNat 64 (10 * tSec) }) b)) b
  else b
/-- A commit is complete (R509): ACTIVE and OBSOLETE, source 26; settings of another format are now those of record (R511). -/
def committed (i m : Fin 4) (b : Block) : Block :=
  let run := (imageOf b i).runB
  let b := setSlot i (!run) 5 (setSlot i run 2 b)
  let b := updUpd (fun u => { u with commit := none, status := 6, image := BitVec.ofNat 3 (i.val + 1), trialImage := none, trialLeft := 0, revertWait := false }) b
  let b := match b.newSettings with
    | some x => if i = 3 then updPea (fun p => { p with settingsB := !p.settingsB }) { b with settings := x, newSettings := none } else b
    | none => b
  ok m (b32 (vget b.pea.ctr (imageCtr i))) (irq 26 (saveUpdate b))
/-- The counter of a commit is raised by one increment at a time, each checked before the next (R509). -/
def commitStep (b : Block) : Block :=
  match b.upd.commit with
  | none => b
  | some (i, m) =>
    if (reqOf b rqUpdate).queue.any (fun q => match q.act with | .counter k _ _ => k == imageCtr i | _ => false) then b
    else if (vget b.pea.ctr (imageCtr i)).toNat < (runManifest b i).sequence then
      let r := ctrIncrement rqUpdate (imageCtr i) none b
      (match r.2 with
       | some _ => r.1
       | none => internalFail m (updUpd (fun u => { u with commit := none }) b))
    else committed i m b
/-- LINE_WRITE_DONE, with what waits for a line of the update agent. -/
def lineWriteDone (c : LineCheck) (b : Block) : Block := commitStep (pauseStart (lineDone c b))

/-! ### Registers (R514) -/

/-- UPD_IMG(i). -/
def updImgWord (x : Image) : U32 := reg32 [(0, x.stateA.toNat), (3, x.stateB.toNat), (6, b2n x.runB), (8, x.epoch.toNat)]
/-- The read value of word `a` of the UPD block. -/
def updWord (b : Block) (a : Nat) : U32 :=
  let u := b.upd
  if h : 0x84 ≤ a ∧ a ≤ 0x87 then updImgWord (imageOf b ⟨a - 0x84, by omega⟩)
  else if h : 0x88 ≤ a ∧ a ≤ 0x8B then (imageOf b ⟨a - 0x88, by omega⟩).sequence.setWidth 32
  else match a with
    | 0x80 => reg32 [(0, u.status.toNat), (4, u.image.toNat), (7, b2n u.busy), (8, u.progress.toNat)]
    | 0x81 => u.trial.setWidth 32
    | 0x82 => reg32 [(0, u.outQueue.toNat), (16, u.inQueue.toNat)]
    | 0x8C => BitVec.ofNat 32 (trialLeftNow b)
    | 0x8D => reg32 [(0, u.switched.toNat), (16, u.deferred.toNat)]
    | 0x8E => u.pauseMs.setWidth 32
    | _ => 0

/-! ### Commands (R517) -/

/-- The image of request byte 0, 1 to 4. -/
def reqImageNo (b : Block) (m : Fin 4) : Fin 4 := ⟨(rN b m 0 1 - 1) % 4, Nat.mod_lt _ (by decide)⟩
/-- IMAGE_RANGE. -/
def imageRange (b : Block) (m : Fin 4) : Nat × Bool := (0x1301, decide (1 ≤ rN b m 0 1 ∧ rN b m 0 1 ≤ 4))
/-- Staging, an activation, a revert or a commit is under way. -/
def updIdle (b : Block) : Bool := b.upd.fetch.isNone && b.upd.pause.isNone && b.upd.commit.isNone
/-- Some slot of image `i` is in state `s`. -/
def slotIn (b : Block) (s : BitVec 3) (i : Fin 4) : Bool := (imageOf b i).stateA == s || (imageOf b i).stateB == s
/-- No image is staged. -/
def noneStaged (b : Block) : Bool := (List.finRange 4).all fun i => !slotIn b 1 i
/-- UPD_GET_STATUS. -/
def updGetStatus (m : Fin 4) (b : Block) : Block := ok m ((List.range 16).flatMap fun k => b32 (updWord b (0x80 + k))) b
/-- UPD_STAGE: fetches the slot that does not run; answered at its end. -/
def updStage (m : Fin 4) (b : Block) : Block :=
  let i := reqImageNo b m
  checked m [pfCheck b, imageRange b m, (0x1302, updIdle b && noneStaged b && b.upd.trialImage.isNone)] (fun b =>
    beginFetch { image := i, slotB := !(imageOf b i).runB, mbx := some m }
      (updUpd (fun u => { u with status := 1, busy := true, progress := 0, image := BitVec.ofNat 3 (i.val + 1) }) b)) b
/-- The conditions of R505 hold for a switch of image `i`, but for held readings. -/
def switchAllowed (b : Block) (i : Fin 4) : Bool := !mustWait b i
/-- UPD_ACTIVATE (R504, R505): the record is written ACTIVATING, then the pause begins; answered after the switch. -/
def updActivate (m : Fin 4) (b : Block) : Block :=
  let i := reqImageNo b m
  let earlier := (List.finRange 4).filter fun j => decide (j.val < i.val)
  let held := i == 2 && b.slt.unsigned_ != []
  let go := firstFail [pfCheck b, imageRange b m, (0x1309, earlier.all fun j => !slotIn b 1 j && !slotIn b 3 j),
    (0x1302, updIdle b && b.upd.trialImage.isNone), (0x130B, otherState b i == 1), (0x130A, switchAllowed b i), (0x130F, !held)]
  match go with
  | some st => refuse m st (if st = 0x130F then { b with key := { b.key with switchWait := true } } else b)
  | none =>
    saveUpdate (updUpd (fun u => { u with
      status := 4, busy := true, progress := 0, image := BitVec.ofNat 3 (i.val + 1), activating := some i
      pause := some { image := i, start := now b, mbx := some m } }) b)
/-- UPD_COMMIT (R509). -/
def updCommit (m : Fin 4) (b : Block) : Block :=
  let i := reqImageNo b m
  checked m [pfCheck b, imageRange b m, (0x1302, updIdle b), (0x130C, decide (b.upd.trialImage = some i))] (fun b =>
    commitStep (updUpd (fun u => { u with commit := some (i, m) }) b)) b
/-- UPD_REVERT (R510). -/
def updRevert (m : Fin 4) (b : Block) : Block :=
  let i := reqImageNo b m
  checked m [pfCheck b, imageRange b m, (0x1302, updIdle b), (0x130C, decide (b.upd.trialImage = some i)), (0x130A, switchAllowed b i),
      (0x130F, !(i == 2 && b.slt.unsigned_ != []))] (fun b => beginRevert { image := i, mbx := some m } b) b
/-- UPD_DISCARD. -/
def updDiscard (m : Fin 4) (b : Block) : Block :=
  let i := reqImageNo b m
  checked m [pfCheck b, imageRange b m, (0x1302, updIdle b), (0x130B, otherState b i == 1)] (fun b =>
    ok m [] (setSlot i (!(imageOf b i).runB) 0 (updUpd (fun u => { u with status := 0, image := BitVec.ofNat 3 (i.val + 1), standby := [] }) b))) b
/-- UPD_SET_CONFIG. -/
def updSetConfig (m : Fin 4) (b : Block) : Block :=
  let t := rN b m 0 4
  checked m [pfCheck b, (3, decide (60 ≤ t ∧ t ≤ 86400)), (6, queueOk (rN b m 4 2) false && queueOk (rN b m 6 2) false)] (fun b =>
    saveSettings (ok m [] (updUpd (fun u => { u with trial := BitVec.ofNat 17 t, outQueue := r16 b m 4, inQueue := r16 b m 6 }) b))) b
/-- UPD_GET_MANIFEST. -/
def updGetManifest (m : Fin 4) (b : Block) : Block :=
  let x := imageOf b (reqImageNo b m)
  checked m [pfCheck b, (0x1301, decide (1 ≤ rN b m 0 1 ∧ rN b m 0 1 ≤ 4 ∧ rN b m 1 1 ≤ 1))] (fun b =>
    ok m (padTo 96 (if rN b m 1 1 = 1 then x.manB else x.manA).bytes) b) b

/-! ### Core restarts complete (R491) -/

/-- The image that a core runs. -/
def coreImage : CoreId → Fin 4
  | .sedge => 3 | .carr => 2 | .dyke => 1 | .modem _ => 0
/-- The core runs again; `bad` are the connectors whose V2G state did not resume. -/
def coreAgain (c : CoreId) (bad : U16) (b : Block) : Block :=
  match c with
  | .sedge =>
    let b := requesterMask rqSedge false (updRst (fun r => { r with sedge := true, sedgeAbsent := none }) b)
    driveFeed <| forAll allNodes pilotReview (reviewHub (forAll ((nodesOf bad.toNat).filter fun n => (sessOf b n).phase.isOpen) (fun n b => deviceFault (.node n) 1 b) b))
  | .carr => replan (requesterMask rqCarr false (updRst (fun r => { r with carr := true }) b))
  | .dyke => reviewHub (updSaf (fun s => { s with dykeAlive := true }) (updRst (fun r => { r with dyke := true }) b))
  | .modem n => if phaseOf b n = .idle then updPlc n (fun x => { x with fault := false, running := x.enable && b.rst.creek }) b else b
/-- CORE_RESTART_COMPLETE: the image is reloaded, measured and runs. A core whose image is in trial reverts (R510). -/
def coreRestartComplete (c : CoreId) (bad : U16) (b : Block) : Block :=
  let i := coreImage c
  if coreUp b c ∨ b.rst.inReset ∨ !(imageOf b i).loaded ∨ coreHalted b c then b
  else
    let b := coreAgain c bad b
    if b.upd.trialImage = some i ∧ b.upd.pause.isNone then
      (match c with
       | .modem _ => beginRevert { image := i, reset := true } b
       | _ => reverted { image := i, reset := true, revert := true, begun := true, start := now b } b)
    else b

/-- ACTIVATION_SWITCH (R505). -/
def execActivationSwitch (converts : Bool) (s : State) : Result := s.run (activationSwitch converts)
/-- MODEM_DEFERRED_SWITCH (R506). -/
def execModemDeferredSwitch (n : Fin 16) (s : State) : Result := s.run (modemDeferredSwitch n)
/-- TRIAL_WARN (R509). -/
def execTrialWarn (s : State) : Result := s.run trialWarn
/-- TRIAL_EXPIRED (R510). -/
def execTrialExpired (s : State) : Result := s.run trialExpired
/-- TRIAL_TIME_SAVE (R509). -/
def execTrialTimeSave (s : State) : Result := s.run trialTimeSave
/-- UPD_GET_STATUS (R517). -/
def execUpdGetStatus (m : Fin 4) (s : State) : Result := s.run (command m 0x1301 .sedge (updGetStatus m))
/-- UPD_STAGE (R503). -/
def execUpdStage (m : Fin 4) (s : State) : Result := s.run (command m 0x1302 .sedge (updStage m))
/-- UPD_ACTIVATE (R505). -/
def execUpdActivate (m : Fin 4) (s : State) : Result := s.run (command m 0x1303 .sedge (updActivate m))
/-- UPD_COMMIT (R509). -/
def execUpdCommit (m : Fin 4) (s : State) : Result := s.run (command m 0x1304 .sedge (updCommit m))
/-- UPD_REVERT (R510). -/
def execUpdRevert (m : Fin 4) (s : State) : Result := s.run (command m 0x1305 .sedge (updRevert m))
/-- UPD_DISCARD (R517). -/
def execUpdDiscard (m : Fin 4) (s : State) : Result := s.run (command m 0x1306 .sedge (updDiscard m))
/-- UPD_SET_CONFIG (R517). -/
def execUpdSetConfig (m : Fin 4) (s : State) : Result := s.run (command m 0x1307 .sedge (updSetConfig m))
/-- UPD_GET_MANIFEST (R517). -/
def execUpdGetManifest (m : Fin 4) (s : State) : Result := s.run (command m 0x1308 .sedge (updGetManifest m))
/-- CORE_RESTART_COMPLETE (R491). -/
def execCoreRestartComplete (core : CoreId) (bad : U16) (s : State) : Result := s.run (coreRestartComplete core bad)

end Sys2Proof.Machine
end

