-- ==== Sys2Proof/Machine/MetCommands.lean ====
section
/-! DEFINITION. The metrology commands (04_metrology_inputs.md R84, R93, R94, R97, R98, R104, R108; 05_energy_quality.md R114,
R124, R130). -/

namespace Sys2Proof.Machine

/-- The channel a request names, in payload byte 0. -/
def reqChan (b : Block) (m : Fin 4) : Fin 48 := ⟨(rB b m 0).toNat % 48, Nat.mod_lt _ (by decide)⟩
/-- CHANNEL_RANGE: a channel 0-47. -/
def chanOk (b : Block) (m : Fin 4) : Nat × Bool := (0x0304, decide ((rB b m 0).toNat < 48))
/-- CHANNEL_RANGE: mask bits 48-63 clear. -/
def maskOk (b : Block) (m : Fin 4) : Nat × Bool := (0x0304, decide (rN b m 0 8 < 2 ^ 48))
/-- Channels of the mask in payload bytes 0-7. -/
def maskChans (b : Block) (m : Fin 4) : List (Fin 48) := (List.finRange 48).filter fun c => bitOf (rN b m 0 8) c.val
/-- SEAL_CLOSED: the seal is open (R104). -/
def sealOk (b : Block) : Nat × Bool := (0x0301, b.met.sealOpen)
/-- The first sample instant at least 96 ticks after service. -/
def nextStamp (b : Block) : U64 := BitVec.ofNat 64 (sampleAtOrAfter ((now b).toNat + 96))

/-! ### The seal (R104) -/

/-- The channels in raw mode. -/
def rawMask (b : Block) : Nat := bitsNat (b.met.chans.toList.map (·.cfg.raw))
/-- Staged tables held. -/
def stagedCount (b : Block) : Nat := (b.met.chans.toList.filter (·.staged.isSome)).length
/-- Close the seal: `how` 2 by command, 3 by timeout. Staged tables go, activations are cancelled, raw mode ends. -/
def sealClose (how : U8) (b : Block) : Block :=
  let b := irq 68 (legalLog 0x0010 wCarr ([how] ++ zeros 7 ++ leBytes 8 (rawMask b)) b)
  let b := (cancelEntries 513 (fun _ => true) b).1
  updMet (fun x => { x with sealOpen := false, chans := vmap x.chans fun c =>
    { c with staged := none, pendingRaw := none, cfg := { c.cfg with raw := false } } }) b
/-- MET_SEAL_OPEN (R104, R108). On a seal that is open it opens anew: 3,600 s from now, the entry and source 68 (DESIGN CHOICE,
log entry 167). -/
def metSealOpen (m : Fin 4) (b : Block) : Block :=
  let a := authorise m 4 (rN b m 0 2) b
  if !a.2 then refuse m 0x0302 a.1
  else
    checked m [(0x0303, allQuiet a.1)] (fun b =>
      ok m (b64 (now b)) (irq 68 (legalLog 0x0010 wCarr [1] (updMet (fun x => { x with sealOpen := true, sealAt := now b }) b)))) a.1
/-- MET_SEAL_CLOSE. -/
def metSealClose (m : Fin 4) (b : Block) : Block :=
  if b.met.sealOpen then ok m (leBytes 4 (stagedCount b)) (sealClose 2 b) else ok m (zeros 4) b
/-- SEAL_TIMEOUT (R104): 3,600 s after opening. -/
def sealTimeout (b : Block) : Block := if b.met.sealOpen then afterTicks b.met.sealAt (3600 * tSec) (sealClose 3) b else b

/-! ### Configuration (R84, R85, R108) -/

/-- MET_CH_CFG (R106). -/
def chCfgWord (c : ChanCfg) : U32 :=
  reg32 [(0, c.sensor.toNat), (3, c.gainSel.toNat), (6, b2n c.segSrc), (7, c.integFc.toNat), (9, b2n c.raw)]
/-- The sensor code is allowed on the channel (R84). -/
def sensorFits (c : Fin 48) (s : Nat) : Bool :=
  let volt := isPaired c && c.val % 2 == 0
  let acCurrent := isPhaseCurrent c || c.val == 44 || c.val == 45
  match s with
  | 0 => true
  | 1 => volt
  | 2 => isPairCurrent c || c.val == 44 || c.val == 45
  | 3 => acCurrent
  | 4 => acCurrent
  | 5 => true
  | _ => false
/-- A positive normal binary32 value of at most `top`. -/
def positiveNormal (a top : U32) : Bool := decide (2 ^ 23 ≤ a.toNat) && finite a && decide (a.toNat < 2 ^ 31) && leF a top
/-- MET_GET_CONFIG. -/
def metGetConfig (m : Fin 4) (b : Block) : Block :=
  checked m [chanOk b m] (fun b =>
    let x := chanOf b (reqChan b m)
    ok m (b32s [chCfgWord x.cfg, x.cfg.scale, x.cfg.iNom, tableCrc x.active, match x.staged with | some t => tableCrc t | none => 0]) b) b
/-- MET_SET_CONFIG: a scale that is no positive normal value up to 10^6, a gain above 5 and a raw bit are refused as SENSOR_CLASS
(DEDUCED: the family has no other code for them; log entry 16). -/
def metSetConfig (m : Fin 4) (b : Block) : Block :=
  let c := reqChan b m
  let w := rN b m 4 4
  let sensor := fieldOf w 0 3
  let iNom := r32 b m 12
  checked m [sealOk b, chanOk b m,
      (0x0305, sensorFits c sensor && (sensor == 4 || fieldOf w 7 2 == 0) && decide (fieldOf w 3 3 ≤ 5) && !bitOf w 9 && decide (w < 1024) &&
        positiveNormal (r32 b m 8) 0x49742400 && (finite iNom && decide (iNom.toNat < 2 ^ 31)))] (fun b =>
    let g : ChanCfg := { sensor := BitVec.ofNat 3 sensor, gainSel := BitVec.ofNat 3 (fieldOf w 3 3), segSrc := bitOf w 6
                         integFc := BitVec.ofNat 2 (fieldOf w 7 2), scale := r32 b m 8, iNom := iNom }
    let s := nextStamp b
    ok m (b64 s) (saveLegalConfig (updChan c (fun x => { x with pendingCfg := some (g, s) }) b))) b

/-! ### Tables (R93, R94, R98) -/

/-- Bits of a flag set as MET_FP_EVAL returns them. -/
def flagByte (f : FpFlags) : U8 := BitVec.ofNat 8 (bitsNat [f.nx, f.uf, f.of, f.dz, f.nv, f.sat])

/-- MET_LOAD_TABLE. The load-time flags follow the check value in response byte 4, in the order of MET_FP_EVAL (R94; R108 lists no
place for them: DESIGN CHOICE, log entry 167). -/
def metLoadTable (m : Fin 4) (b : Block) : Block :=
  let c := reqChan b m
  let t := segsOf (rBytes b m 4 256)
  let x := withSlopes {} t
  checked m [sealOk b, chanOk b m] (fun b =>
    match tableFault b c t with
    | some (e, r) => respond m 0x0306 [BitVec.ofNat 8 e, BitVec.ofNat 8 r] b
    | none => ok m (b32 (tableCrc t) ++ [flagByte x.2]) (updChan c (fun y => { y with staged := some x.1 }) b)) b
/-- Both members of every pair are in a mask together. -/
def pairsWhole (mask : Nat) : Bool := (List.range 22).all fun p => bitOf mask (2 * p) == bitOf mask (2 * p + 1)
/-- MET_ACTIVATE_TABLE: one entry per channel on ring 513; the response follows the last of them. The mailbox is in the tag. -/
def metActivateTable (m : Fin 4) (b : Block) : Block :=
  let mask := rN b m 0 8
  let t := r64 b m 8
  let a := if t = 0 then nextStamp b else t
  let cs := maskChans b m
  checked m [sealOk b, maskOk b m, (0x0307, pairsWhole mask), (0x0308, cs.all fun c => (chanOf b c).staged.isSome),
      (0x0309, a.toNat % tSample == 0 && decide ((now b).toNat + 96 ≤ a.toNat))] (fun b =>
    if cs = [] then ok m (b64 0 ++ b64 a) b
    else
      let r := cs.foldl (fun (x : Block × Bool) c =>
        let y := submitEntry 4 513 { mkEntry tgMet c.val 1 (zeros 32) a with tag := BitVec.ofNat 32 (16 + m.val) } x.1
        (y.1, x.2 && y.2)) (b, true)
      if r.2 then r.1 else internalFail m (cancelEntries 513 (fun e => e.tag == BitVec.ofNat 32 (16 + m.val)) r.1).1) b
/-- MET_READ_TABLE. A set byte above 1 answers OP_RANGE (DESIGN CHOICE, log entry 167: R108 names no status for it). -/
def metReadTable (m : Fin 4) (b : Block) : Block :=
  let x := chanOf b (reqChan b m)
  checked m [chanOk b m, (0x030B, decide ((rB b m 1).toNat < 2)), (0x0308, rB b m 1 == 0 || x.staged.isSome)] (fun b =>
    let t := if rB b m 1 = 0 then x.active else x.staged.getD []
    ok m (tableBytes t ++ b32 (tableCrc t)) b) b
/-- MET_SET_RAW (R97). -/
def metSetRaw (m : Fin 4) (b : Block) : Block :=
  checked m [sealOk b, maskOk b m] (fun b =>
    let s := nextStamp b
    ok m (b64 s) (forAll (maskChans b m) (fun c b => updChan c (fun x => { x with pendingRaw := some (rBit b m 8 0, s) }) b) b)) b

/-! ### Measurement and arithmetic -/

/-- MET_CAL_MEASURE: responds after its last sample. -/
def metCalMeasure (m : Fin 4) (b : Block) : Block :=
  let n := rN b m 4 4
  let t := r64 b m 8
  let a := if t = 0 then BitVec.ofNat 64 (((now b).toNat / tSample + 1) * tSample) else t
  checked m [chanOk b m, (0x030B, decide (1 ≤ n ∧ n ≤ 1048576)),
      (0x0309, t == 0 || (t.toNat % tSample == 0 && decide ((now b).toNat + 96 ≤ t.toNat)))] (fun b =>
    updMet (fun x => { x with cal := some { mbx := m, chan := reqChan b m, left := n, first := a } }) b) b
/-- MET_FP_EVAL (R102, R108). -/
def metFpEval (m : Fin 4) (b : Block) : Block :=
  let x := rN b m 4 4
  let y := rN b m 8 4
  let z := rN b m 12 4
  let out := fun (r : FpRes) => b32 (w32 r) ++ zeros 12 ++ [flagByte r.2]
  checked m [chanOk b m, (0x030B, decide ((rB b m 1).toNat ≤ 3))] (fun b =>
    ok m (match (rB b m 1).toNat with
      | 0 => out (fpAdd f32 x y)
      | 1 => out (fpMul f32 x y)
      | 2 => out (fpFma f32 x y z)
      | _ => let r := fpToFixed x; zeros 4 ++ leBytes 12 r.1.toNat ++ [flagByte r.2]) b) b
/-- MET_CLEAR_COUNTS. -/
def metClearCounts (m : Fin 4) (b : Block) : Block :=
  checked m [maskOk b m] (fun b => ok m [] (forAll (maskChans b m) (fun c b => updChan c (fun x => { x with clipCount := 0 }) b) b)) b

/-! ### Pairs and supply quality (R114, R124, R130) -/

/-- The pair a request names. -/
def reqPair (b : Block) (m : Fin 4) : Fin 22 := ⟨(rB b m 0).toNat % 22, Nat.mod_lt _ (by decide)⟩
/-- A finite binary32 value from +0 up to a limit. -/
def withinF (a top : U32) : Bool := finite a && decide (a.toNat < 2 ^ 31) && leF a top
/-- MET_SET_NOLOAD. -/
def metSetNoload (m : Fin 4) (b : Block) : Block :=
  let p := reqPair b m
  let x := pairOf b p
  let sc := r32 b m 4
  let nl := r32 b m 8
  let iNom := (chanOf b (pairCurr p)).cfg.iNom
  checked m [sealOk b, (0x030C, decide ((rB b m 0).toNat < 22) && withinF sc (timesRatio iNom 1 100) &&
      withinF nl (ratioF (exactF sc * exactF x.uRef) (2 ^ 298)))] (fun b =>
    let s := nextStamp b
    ok m (b64 s) (saveLegalConfig (updPair p (fun x => { x with pendingNoload := some (sc, nl, s) }) b))) b
/-- MET_SET_UREF. -/
def metSetUref (m : Fin 4) (b : Block) : Block :=
  let p := reqPair b m
  let u := r32 b m 4
  checked m [sealOk b, (0x030C, decide ((rB b m 0).toNat < 22) && positiveNormal u 0x44960000)] (fun b =>
    let s := nextStamp b
    ok m (b64 s) (saveLegalConfig (updPair p (fun x => { x with pendingUref := some (u, s) }) b))) b
/-- The thresholds of R124 are in range. -/
def pqThresholdsOk (sag swell int hyst : Nat) : Bool :=
  decide (5000 ≤ sag ∧ sag ≤ 9900 ∧ 10100 ≤ swell ∧ swell ≤ 15000 ∧ 100 ≤ int ∧ int ≤ 2000 ∧ 100 ≤ hyst ∧ hyst ≤ 1000 ∧
    int + hyst < sag ∧ sag + hyst < swell)
/-- MET_PQ_CONFIG. -/
def metPqConfig (m : Fin 4) (b : Block) : Block :=
  let f : Fin 2 := ⟨(rB b m 0).toNat % 2, Nat.mod_lt _ (by decide)⟩
  checked m [(0x030D, decide ((rB b m 0).toNat < 2) && pqThresholdsOk (rN b m 4 2) (rN b m 6 2) (rN b m 8 2) (rN b m 10 2)),
      (6, queueOk (rN b m 2 2) true)] (fun b =>
    let x : PqSet := { enable := rBit b m 1 0, f60 := rBit b m 1 1, queue := r16 b m 2
                       sag := r16 b m 4, swell := r16 b m 6, interruption := r16 b m 8, hyst := r16 b m 10 }
    ok m [] (saveLegalConfig (updFeeder f (fun y => { y with pending := some (x, nextStamp b) }) b))) b
/-- MET_ENERGY_CLEAR_FLAGS: the bits of MET_RANGE_FLAGS in the mask; the range flags of registers have no command that clears
them. -/
def metEnergyClearFlags (m : Fin 4) (b : Block) : Block :=
  let mask := rN b m 0 4
  let on := fun p => bitOf mask p
  checked m [sealOk b, (0x030C, decide (mask < 2 ^ 22))] (fun b =>
    let b := { b with acc := { b.acc with
      pairs := vmapIdx b.acc.pairs fun p x => if on p.val then { x with range := false } else x } }
    ok m [] (legalLog 0x0012 wCarr (leBytes 2 0x0324 ++ [0, 0] ++ leBytes 4 mask) b)) b
/-- MET_PQ_CLEAR_COUNTS. -/
def metPqClearCounts (m : Fin 4) (b : Block) : Block := ok m [] { b with pq := { b.pq with count := 0 } }

/-- MET_SEAL_OPEN (R104). -/
def execMetSealOpen (m : Fin 4) (s : State) : Result := s.run (command m 0x0301 .carr (metSealOpen m))
/-- MET_SEAL_CLOSE (R104). -/
def execMetSealClose (m : Fin 4) (s : State) : Result := s.run (command m 0x0302 .carr (metSealClose m))
/-- SEAL_TIMEOUT (R104). -/
def execSealTimeout (s : State) : Result := s.run sealTimeout
/-- MET_GET_CONFIG (R108). -/
def execMetGetConfig (m : Fin 4) (s : State) : Result := s.run (command m 0x0303 .carr (metGetConfig m))
/-- MET_SET_CONFIG (R108). -/
def execMetSetConfig (m : Fin 4) (s : State) : Result := s.run (command m 0x0304 .carr (metSetConfig m))
/-- MET_LOAD_TABLE (R94). -/
def execMetLoadTable (m : Fin 4) (s : State) : Result := s.run (command m 0x0305 .carr (metLoadTable m))
/-- MET_ACTIVATE_TABLE (R108). -/
def execMetActivateTable (m : Fin 4) (s : State) : Result := s.run (command m 0x0306 .carr (metActivateTable m))
/-- MET_READ_TABLE (R108). -/
def execMetReadTable (m : Fin 4) (s : State) : Result := s.run (command m 0x0307 .carr (metReadTable m))
/-- MET_SET_RAW (R97). -/
def execMetSetRaw (m : Fin 4) (s : State) : Result := s.run (command m 0x0308 .carr (metSetRaw m))
/-- MET_CAL_MEASURE (R108). -/
def execMetCalMeasure (m : Fin 4) (s : State) : Result := s.run (command m 0x0309 .carr (metCalMeasure m))
/-- MET_FP_EVAL (R102). -/
def execMetFpEval (m : Fin 4) (s : State) : Result := s.run (command m 0x030A .carr (metFpEval m))
/-- MET_CLEAR_COUNTS (R108). -/
def execMetClearCounts (m : Fin 4) (s : State) : Result := s.run (command m 0x030B .carr (metClearCounts m))
/-- MET_SET_NOLOAD (R114). -/
def execMetSetNoload (m : Fin 4) (s : State) : Result := s.run (command m 0x0320 .carr (metSetNoload m))
/-- MET_SET_UREF (R130). -/
def execMetSetUref (m : Fin 4) (s : State) : Result := s.run (command m 0x0321 .carr (metSetUref m))
/-- MET_PQ_CONFIG (R124). -/
def execMetPqConfig (m : Fin 4) (s : State) : Result := s.run (command m 0x0322 .carr (metPqConfig m))
/-- MET_ENERGY_CLEAR_FLAGS (R130). -/
def execMetEnergyClearFlags (m : Fin 4) (s : State) : Result := s.run (command m 0x0324 .carr (metEnergyClearFlags m))
/-- MET_PQ_CLEAR_COUNTS (R130). -/
def execMetPqClearCounts (m : Fin 4) (s : State) : Result := s.run (command m 0x0325 .carr (metPqClearCounts m))

end Sys2Proof.Machine
end

