-- ==== Sys2Proof/Machine/Words.lean ====
section
/-! DEFINITION. What every word of the window reads as: regions (16_host_port.md R418, R551), the words of the blocks ID, MBX, TID, MET,
BTN and DBG, and the view without side effects (16_host_port.md R431; 02_tide.md R60; 04_metrology_inputs.md R106; 05_energy_quality.md
R128; 20_recorder_replay.md R544, R546, R547). -/

namespace Sys2Proof.Machine

/-! ### Regions (R418) -/

/-- The mailbox whose buffer holds word `a`. -/
def bufferOf (a : Nat) : Option (Fin 4) := if h : 0x2000 ≤ a ∧ a < 0x2400 then some ⟨(a - 0x2000) / 256, by omega⟩ else none
/-- The cause with which word `a` is forbidden: 1 OUTSIDE, 2 MBX_STATE, or none. -/
def forbiddenBy (b : Block) (a : Nat) : Option Nat :=
  if a < 0xB80 then none
  else match bufferOf a with
    | some m => (match (mbxOf b m).state with | .queued => some 2 | .busy => some 2 | _ => none)
    | none => some 1

/-! ### ID and MBX (R431) -/

/-- Words 0x0000 to 0x003F. -/
def idWord (b : Block) (a : Nat) : U32 :=
  match a with
  | 0 => 0x4C4B3296
  | 1 => 0x42
  | 2 => 0x302
  | 3 => BitVec.ofNat 32 (b2n (b.rst.strapLoaded && strapSingle b.rst.choice.toNat))
  | 8 => winErrWord b.hp
  | 9 => spiErrWord b.hp
  | 0xA => b.hp.scratch
  | _ => 0
/-- Words 0x00C0 to 0x00FF. -/
def mbxWord (b : Block) (a : Nat) : U32 :=
  if h : 0xC0 ≤ a ∧ a ≤ 0xC3 then mbxStatWord (mbxOf b ⟨a - 0xC0, by omega⟩) else if a = 0xC8 then mbxSummary b else 0

/-! ### TID (R60) -/

/-- Phase `k` has a crossing within the last 60 ms. -/
def zcValid (b : Block) (k : Fin 6) : Bool := vget b.tide.zcSeen k && decide (since b (vget b.tide.zc k) ≤ 60 * tMs)
/-- TID_STATUS. -/
def tidStatusWord (b : Block) : U32 :=
  let t := b.tide
  reg32 [(0, b2n t.running), (1, b2n t.xtalOk), (2, b2n t.ready), (3, b2n (trimBusy t)), (4, b2n t.trimClamped), (5, t.ppsState.toNat),
    (7, b2n b.d2d.tideLaneOk)]
/-- TID_BARRIER_STAT. -/
def barrierWord (x : Barrier) : U32 := reg32 [(0, b2n x.isOpen), (1, x.arrived.toNat), (8, b2n x.fail), (9, x.missing.toNat)]
/-- Words 0x0200 to 0x027F; TID_NOW_LO as of this instant. -/
def tidWord (b : Block) (a : Nat) : U32 :=
  let t := b.tide
  let l := b.lau
  if h : 0x220 ≤ a ∧ a ≤ 0x22B then
    let z := vget t.zc ⟨(a - 0x220) / 2, by omega⟩
    if a % 2 = 0 then lo32 z else hi32 z
  else match a with
    | 0x200 => lo32 t.now
    | 0x201 => t.nowHi
    | 0x202 => tidStatusWord b
    | 0x203 => t.trim
    | 0x204 => t.trimActual
    | 0x205 => reg32 [(0, b2n t.ppsEnable), (1, b2n t.ppsFalling), (2, b2n t.ppsDiscipline), (16, t.ppsWindow.toNat)]
    | 0x206 => lo32 t.ppsLast
    | 0x207 => hi32 t.ppsLast
    | 0x208 => reg32 [(0, t.ppsAccepted.toNat), (16, t.ppsRejected.toNat)]
    | 0x209 => t.ppsInterval
    | 0x20A => reg32 [(0, armedCount b), (16, l.armedPeak.toNat)]
    | 0x20B => l.lateCnt
    | 0x20C => l.collCnt
    | 0x20D => l.orderCnt
    | 0x20E => l.skipCnt
    | 0x20F => l.denyCnt
    | 0x210 => reg32 [(0, l.discRing.toNat), (16, l.discTarget.toNat), (24, l.discStatus.toNat)]
    | 0x211 => lo32 l.discTick
    | 0x212 => hi32 l.discTick
    | 0x213 => reg32 ((List.finRange 4).map fun k => (8 * k.val, (vget b.snaps k).seq.toNat))
    | 0x214 => l.cqDropCnt
    | 0x215 => barrierWord b.barrier
    | 0x22C => BitVec.ofNat 32 (bitsNat ((List.finRange 6).map (zcValid b)))
    | 0x230 => lo32 t.todAnchor
    | 0x231 => hi32 t.todAnchor
    | 0x232 => lo32 t.todSec
    | 0x233 => hi32 t.todSec
    | _ => 0
/-- A write of word `a` of the TID block: TID_TRIM, which crosses to the Tide domain (R77, R78), TID_PPS_CTRL and the two W1C fields
(R553). -/
def tidWrite (a : Nat) (v : U32) (b : Block) : Block :=
  if a = 0x202 then updTide (fun t => { t with trimClamped := t.trimClamped && !v.getLsbD 4 }) b
  else if a = 0x203 then crossSend .hostWrite v (fun v => setTrim v.toInt) b
  else if a = 0x205 then setPps (v.getLsbD 0) (v.getLsbD 1) (v.getLsbD 2) (BitVec.ofNat 16 (v.toNat / 65536)) b
  else if a = 0x215 then { b with barrier := { b.barrier with fail := b.barrier.fail && !v.getLsbD 8 } }
  else b

/-! ### MET (R106, R128) -/

/-- MET_CH_STAT(c). -/
def chStatWord (c : Chan) : U32 :=
  let f := c.flags
  reg32 [(0, b2n c.settled), (1, b2n c.clip), (2, b2n c.modFault), (3, b2n f.nx), (4, b2n f.uf), (5, b2n f.of), (6, b2n f.dz), (7, b2n f.nv),
    (8, b2n f.sat), (9, b2n c.staged.isSome), (11, c.segment.toNat), (16, c.clipCount.toNat)]
/-- MET_SEAL: the seconds left are rounded down. -/
def sealWord (b : Block) : U32 :=
  if b.met.sealOpen then reg32 [(0, 1), (16, (3600 * tSec - since b b.met.sealAt) / tSec)] else 0
/-- MET_STAT. -/
def metStatWord (b : Block) : U32 :=
  let any := fun (p : Chan → Bool) => b2n (b.met.chans.toList.any p)
  reg32 [(0, b2n b.met.running), (1, any (·.clip)), (2, any (·.modFault)), (3, any fun c => c.flags.watched.any id), (4, any (·.staged.isSome))]
/-- The energy register that the pair of words of address `a` shows, and its captured high word (R118). -/
def energyPair (b : Block) (a : Nat) : Option (Register × U32) :=
  let e := b.acc
  if h : 0x348 ≤ a ∧ a < 0x368 then
    let n : Fin 16 := ⟨(a - 0x348) / 2, by omega⟩
    some (vget e.nodeDel n, vget e.nodeDelHi n)
  else if h : 0x368 ≤ a ∧ a < 0x388 then
    let n : Fin 16 := ⟨(a - 0x368) / 2, by omega⟩
    some (vget e.nodeRec n, vget e.nodeRecHi n)
  else if h : 0x388 ≤ a ∧ a < 0x38C then
    let f : Fin 2 := ⟨(a - 0x388) / 2, by omega⟩
    some (vget e.fdrImp f, vget e.fdrImpHi f)
  else if h : 0x38C ≤ a ∧ a < 0x390 then
    let f : Fin 2 := ⟨(a - 0x38C) / 2, by omega⟩
    some (vget e.fdrExp f, vget e.fdrExpHi f)
  else match (a - 0x390) / 2 with
    | 0 => if 0x390 ≤ a then some (e.hubDel, vget e.hubHi 0) else none
    | 1 => some (e.hubRec, vget e.hubHi 1)
    | 2 => some (e.unattImp, vget e.hubHi 2)
    | 3 => some (e.unattExp, vget e.hubHi 3)
    | _ => none
/-- What the read of a _LO word captures (R118). -/
def energyCapture (a : Nat) (b : Block) : Block :=
  match energyPair b a with
  | none => b
  | some (r, _) =>
    let v := hi32 (exportAcc r.acc)
    let e := b.acc
    if h : 0x348 ≤ a ∧ a < 0x368 then { b with acc := { e with nodeDelHi := vset e.nodeDelHi ⟨(a - 0x348) / 2, by omega⟩ v } }
    else if h : 0x368 ≤ a ∧ a < 0x388 then { b with acc := { e with nodeRecHi := vset e.nodeRecHi ⟨(a - 0x368) / 2, by omega⟩ v } }
    else if h : 0x388 ≤ a ∧ a < 0x38C then { b with acc := { e with fdrImpHi := vset e.fdrImpHi ⟨(a - 0x388) / 2, by omega⟩ v } }
    else if h : 0x38C ≤ a ∧ a < 0x390 then { b with acc := { e with fdrExpHi := vset e.fdrExpHi ⟨(a - 0x38C) / 2, by omega⟩ v } }
    else if h : 0x390 ≤ a ∧ a < 0x398 then { b with acc := { e with hubHi := vset e.hubHi ⟨(a - 0x390) / 2, by omega⟩ v } }
    else b
/-- MET_PQ_STAT. -/
def pqStatWord (b : Block) : U32 :=
  let opens := fun (f : Fin 2) =>
    let x := vget b.pq.feeders f
    bitsNat [x.openSag.isSome, x.openSwell.isSome, x.openInt.isSome]
  reg32 [(0, opens 0), (3, opens 1), (6, bitsNat (b.pq.phases.toList.map (·.noSync))), (16, b.pq.count.toNat)]
/-- Words 0x03E2 to 0x03E7: MET_PQ_CFG and MET_PQ_THR. -/
def pqCfgWord (x : PqFeeder) (k : Nat) : U32 :=
  match k with
  | 0 => reg32 [(0, b2n x.enable), (1, b2n x.f60), (16, x.queue.toNat)]
  | 1 => reg32 [(0, x.sag.toNat), (16, x.swell.toNat)]
  | _ => reg32 [(0, x.interruption.toNat), (16, x.hyst.toNat)]
/-- The four words of MET_PQ_LAST. -/
def pqLastWord (x : PqFeeder) (k : Nat) : U32 :=
  match k with
  | 0 => lo32 x.lastStart | 1 => hi32 x.lastStart | 2 => x.lastDur | _ => x.lastExt
/-- Words 0x0280 to 0x0347. -/
def metChanWord (b : Block) (a : Nat) : U32 :=
  let ch := fun (k : Nat) => vget b.met.chans ⟨k % 48, Nat.mod_lt _ (by decide)⟩
  if a < 0x2B0 then chCfgWord (ch (a - 0x280)).cfg
  else if a < 0x2E0 then (ch (a - 0x2B0)).cfg.scale
  else if a < 0x310 then chStatWord (ch (a - 0x2E0))
  else if a < 0x340 then (ch (a - 0x310)).value
  else match a with
    | 0x340 => sealWord b
    | 0x341 => metStatWord b
    | 0x342 => b.met.tableCrc
    | 0x343 => lo32 b.met.stamp
    | 0x344 => hi32 b.met.stamp
    | _ => 0
/-- Words 0x0348 to 0x03FF. -/
def metEnergyWord (b : Block) (a : Nat) : U32 :=
  let pr := fun (k : Nat) => vget b.acc.pairs ⟨k % 22, Nat.mod_lt _ (by decide)⟩
  let fd := fun (k : Nat) => vget b.pq.feeders ⟨k % 2, Nat.mod_lt _ (by decide)⟩
  let bits := fun (p : Pair → Bool) => bitsNat (b.acc.pairs.toList.map p)
  if a < 0x398 then
    match energyPair b a with
    | some (r, hi) => if a % 2 = 0 then lo32 (exportAcc r.acc) else hi
    | none => 0
  else if a = 0x398 then BitVec.ofNat 32 (bits (·.noLoad))
  else if a = 0x399 then BitVec.ofNat 32 (bits (·.range))
  else if a = 0x39A then reg32 [(0, bits (·.unproven)), (22, b2n b.acc.hubUnproven), (23, b2n b.acc.attribUnproven)]
  else if 0x3A0 ≤ a ∧ a < 0x3B6 then (pr (a - 0x3A0)).nlPower
  else if 0x3B6 ≤ a ∧ a < 0x3CC then (pr (a - 0x3B6)).startCur
  else if 0x3CC ≤ a ∧ a < 0x3E2 then (pr (a - 0x3CC)).uRef
  else if 0x3E2 ≤ a ∧ a < 0x3E8 then pqCfgWord (fd (a - 0x3E2)) ((a - 0x3E2) / 2)
  else if a = 0x3E8 then pqStatWord b
  else if h : 0x3E9 ≤ a ∧ a < 0x3EF then (vget b.pq.phases ⟨a - 0x3E9, by omega⟩).urms
  else if 0x3F1 ≤ a ∧ a < 0x3F9 then pqLastWord (fd ((a - 0x3F1) / 4)) ((a - 0x3F1) % 4)
  else 0
/-- A write of a word of the MET block: the W1C fields of MET_CH_STAT(c). -/
def metWrite (a : Nat) (v : U32) (b : Block) : Block :=
  if h : 0x2E0 ≤ a ∧ a < 0x310 then
    updChan ⟨a - 0x2E0, by omega⟩ (fun c =>
      let f := c.flags
      { c with clip := c.clip && !v.getLsbD 1
               flags := { nx := f.nx && !v.getLsbD 3, uf := f.uf && !v.getLsbD 4, of := f.of && !v.getLsbD 5, dz := f.dz && !v.getLsbD 6
                          nv := f.nv && !v.getLsbD 7, sat := f.sat && !v.getLsbD 8 } }) b
  else b

/-! ### BTN and DBG (R546, R547) -/

/-- The Causeway link is UP. -/
def linkIsUp (b : Block) : Bool := decide (b.cwy.state = .up)
/-- Words 0x0B00 to 0x0B3F. -/
def btnWord (b : Block) (a : Nat) : U32 :=
  let t := b.btn
  match a with
  | 0xB00 => reg32 [(0, b2n t.running), (1, b2n t.legalWrapped), (2, b2n (t.opQueue != 0xFFFF && linkIsUp b)), (3, b2n t.clearing)]
  | 0xB01 => lo32 t.legalNext
  | 0xB02 => t.nextHi
  | 0xB03 => lo32 t.legalFloor
  | 0xB04 => t.floorHi
  | 0xB05 => lo32 t.opNext
  | 0xB06 => t.opNextHi
  | 0xB07 => BitVec.ofNat 32 t.staged.length
  | 0xB08 => t.opDrop
  | 0xB09 => t.opSuppress
  | 0xB0A => t.opQueue.setWidth 32
  | 0xB0B => t.tornCnt
  | _ => 0
/-- What the read of a _LO word captures (R546). -/
def btnCapture (a : Nat) (b : Block) : Block :=
  match a with
  | 0xB01 => { b with btn := { b.btn with nextHi := hi32 b.btn.legalNext } }
  | 0xB03 => { b with btn := { b.btn with floorHi := hi32 b.btn.legalFloor } }
  | 0xB05 => { b with btn := { b.btn with opNextHi := hi32 b.btn.opNext } }
  | _ => b
/-- DBG_STATUS. -/
def dbgStatusWord (b : Block) : U32 :=
  let d := b.dbg
  reg32 [(0, if b.rst.strapLoaded then debugPolicy b.rst.choice.toNat else 0), (2, d.scope.toNat), (4, b2n d.locked), (5, b2n d.haltSedge),
    (6, b2n d.haltCarr), (7, b2n d.haltDyke), (8, b2n (d.haltCreek != 0))]
/-- DMP_STAT. -/
def dmpStatWord (d : Dump) : U32 := reg32 [(0, d.state.toNat), (2, b2n d.exported), (8, d.lost.toNat), (16, d.cause.toNat)]
/-- RPL_STATUS. -/
def rplStatusWord (r : Replay) : U32 := reg32 [(0, r.state.toNat), (3, r.cause.toNat), (6, b2n r.mode)]
/-- Words 0x0B40 to 0x0B7F, but for DBG_VIEW_DATA. -/
def dbgWord (b : Block) (a : Nat) : U32 :=
  match a with
  | 0xB40 => dbgStatusWord b
  | 0xB41 => b.dbg.viewAddr.setWidth 32
  | 0xB43 => reg32 [(0, b.dbg.unlocks.toNat), (16, b.dbg.failures.toNat)]
  | 0xB48 => dmpStatWord b.dmp
  | 0xB49 => lo32 b.dmp.tide
  | 0xB4A => hi32 b.dmp.tide
  | 0xB50 => rplStatusWord b.rpl
  | 0xB52 => lo32 b.rpl.items
  | 0xB53 => hi32 b.rpl.items
  | 0xB54 => b.rpl.lead
  | 0xB55 => lo32 b.rpl.diverge
  | 0xB56 => hi32 b.rpl.diverge
  | _ => 0

/-! ### The whole window -/

/-- The read value of a word of the blocks, 0x0000 to 0x0B7F, without DBG_VIEW_DATA (R551). -/
def blockWord (b : Block) (a : Nat) : U32 :=
  if a < 0x040 then idWord b a
  else if a < 0x080 then rstWord b a
  else if a < 0x0C0 then updWord b a
  else if a < 0x100 then mbxWord b a
  else if a < 0x200 then hicWord b.hic a
  else if a < 0x280 then tidWord b a
  else if a < 0x348 then metChanWord b a
  else if a < 0x400 then metEnergyWord b a
  else if a < 0x500 then sluWord b a
  else if a < 0x580 then mlkWord b a
  else if a < 0x620 then vehWord b a
  else if a < 0x680 then v2gWord b a
  else if a < 0x700 then plcWord b a
  else if a < 0x780 then imdWord b a
  else if a < 0x7C0 then safWord b a
  else if a < 0x8C0 then lswWord b a
  else if a < 0x900 then peaWord b a
  else if a < 0x940 then sltWord b a
  else if a < 0x980 then briWord b a
  else if a < 0x9C0 then keyWord b a
  else if a < 0xA00 then cwyWord b a
  else if a < 0xA80 then qmgWord b a
  else if a < 0xAC0 then pnlWord b a
  else if a < 0xB00 then nfcWord b a
  else if a < 0xB40 then btnWord b a
  else dbgWord b a
/-- The word of a response buffer (R422). -/
def bufferWord (b : Block) (m : Fin 4) (a : Nat) : U32 := BitVec.ofNat 32 (leNat (Memory.readN (mbxOf b m).resp (4 * ((a - 0x2000) % 256)) 4))
/-- Word `a` as the shadow array holds it, but for DBG_VIEW_DATA. -/
def plainWord (b : Block) (a : Nat) : U32 :=
  match bufferOf a with
  | some m => bufferWord b m a
  | none => if a < 0xB80 then blockWord b a else 0
/-- Word `a` through the view (R544): no side effect; a forbidden word and DBG_VIEW_DATA read 0. -/
def viewWord (b : Block) (a : Nat) : U32 := if (forbiddenBy b a).isSome then 0 else plainWord b a
/-- Word `a` of the shadow array (R413); DBG_VIEW_DATA reads its tabled 0 while reset is asserted (R552). -/
def windowWord (b : Block) (a : Nat) : U32 :=
  if a = 0xB42 then (if b.rst.inReset then 0 else viewWord b b.dbg.viewAddr.toNat) else plainWord b a

end Sys2Proof.Machine
end

