-- ==== Sys2Proof/Machine/Recorder.lean ====
section
/-! DEFINITION. Bittern at work: the operational stream, buffers refused with FULL, reading and clearing the logs, the recorder commands
(20_recorder_replay.md R519 to R529, R549; 17_causeway_queues.md R459). -/

namespace Sys2Proof.Machine

/-- Change Bittern. -/
def updBtn (f : Bittern → Bittern) (b : Block) : Block := { b with btn := f b.btn }

/-! ### The operational stream (R523) -/

/-- The bytes of the stream not yet enqueued or held. -/
def pendingBytes (t : Bittern) : List U8 := (t.staged.flatten).drop (t.sentBytes + (match t.held with | some h => h.2 | none => 0))
/-- `n` bytes of the stream have been enqueued: an entry leaves the ring with its last byte. -/
def streamSent (n : Nat) (t : Bittern) : Bittern :=
  let k := t.sentBytes + n
  { t with staged := t.staged.drop (k / 64), sentBytes := k % 64 }
/-- Enqueue a filled buffer that carries `n` bytes of the stream; one refused with FULL is kept (R459), any other is freed. -/
def sendHeld (u n : Nat) (b : Block) : Block × Bool :=
  match qEnqueue agBittern b.btn.opQueue.toNat u b with
  | (b, .ok _) => (updBtn (fun t => { streamSent n t with held := none }) b, true)
  | (b, .error .full) => (updBtn (fun t => { t with held := some (u, n), heldAt := now b }) b, false)
  | (b, .error _) => ((qFree agBittern u (updBtn (fun t => { t with held := none }) b)).1, false)
/-- Send the next 1 to 56 bytes of the stream as one OPLOG record. -/
def sendNext (b : Block) : Block × Bool :=
  let l := (pendingBytes b.btn).take 56
  if l = [] then (b, false)
  else match qAlloc agBittern none b with
    | (b, .error _) => (b, false)
    | (b, .ok u) => sendHeld u l.length (setBuf u (mkRecord 0x1210 l.length 0 l) b)
/-- Send until nothing is pending or a record cannot go. -/
def sendAll : Nat → Block → Block
  | 0, b => b
  | f + 1, b => match sendNext b with
    | (b, true) => sendAll f b
    | (b, false) => b
/-- Bytes stay pending since the last flush that left some. -/
def notePending (b : Block) : Block :=
  updBtn (fun t => { t with pendingSince := if t.staged = [] then none else match t.pendingSince with | some x => some x | none => some (now b) }) b
/-- OPLOG_FLUSH: the pending bytes are sent, while a queue is set and no buffer is kept. -/
def oplogFlush (b : Block) : Block :=
  if b.btn.opQueue = 0xFFFF ∨ b.btn.held.isSome then b
  else notePending (sendAll (64 * b.btn.staged.length + 1) (updBtn (fun t => { t with pendingSince := none }) b))
/-- Bittern enqueues its kept buffer again (R459). -/
def heldAgain (b : Block) : Block :=
  match b.btn.held with
  | none => b
  | some (u, n) => if b.btn.opQueue = 0xFFFF then b else onlyIf ((sendHeld u n b).2) oplogFlush (sendHeld u n b).1
/-- The instant of the next try of a buffer kept after FULL: 100 ms after its refusal. -/
def retryAt (t : U64) : Nat := t.toNat + 100 * tMs
/-- Saltern's kept readings are due. -/
def salternDue (b : Block) : Option Nat := if b.slt.held = [] then none else some (retryAt b.slt.heldTryAt)
/-- Bittern's kept buffer is due. -/
def bitternDue (b : Block) : Option Nat := b.btn.held.map fun _ => retryAt b.btn.heldAt
/-- The due instant has come. -/
def isDue (b : Block) (t : Option Nat) : Bool := match t with | some x => decide (x ≤ b.tide.now.toNat) | none => false
/-- FULL_REQUEUE: the kept buffer that is due first, and any other due by then. -/
def fullRequeue (b : Block) : Block :=
  match (salternDue b).toList ++ (bitternDue b).toList with
  | [] => b
  | t :: r => atInstant (r.foldl min t) (fun b =>
      let s := isDue b (salternDue b)
      let w := isDue b (bitternDue b)
      onlyIf w heldAgain (onlyIf s flushHeld b)) b

/-! ### Reading (R528) -/

/-- The line of the entry with sequence `s`. -/
def legalLineOf (s : Nat) : Nat := 47616 + s % 8192
/-- What a read of the legal log returns for sequence `s`: the line as stored, an entry below the floor as a blank line (R521). -/
def legalRead (b : Block) (s : Nat) : List U8 :=
  let l := Memory.readN b.pea.lines (64 * legalLineOf s) 64
  if natAt l 0 8 < b.btn.legalFloor.toNat then blankLine else l
/-- What a read of the operational log returns: the staging ring at the position of `s`. -/
def opRead (b : Block) (s : Nat) : List U8 :=
  let l := padTo 64 (sget [] b.btn.ring (s % 65536))
  if natAt l 0 8 < b.btn.opFloor.toNat then blankLine else l
/-- A line that is being written is returned once its write is checked (R315). -/
def legalWaits (b : Block) (s n : Nat) : Bool :=
  match lineInProgress b with
  | some x => (List.range n).any fun i => legalLineOf (s + i) == x
  | none => false
/-- BTN_READ. -/
def btnRead (m : Fin 4) (b : Block) : Block :=
  let log := rN b m 0 1
  let s := rN b m 8 8
  let n := rN b m 16 1
  checked m [(0x1201, decide (log ≤ 1 ∧ 1 ≤ n ∧ n ≤ 15))] (fun b =>
    if log = 0 then
      (if legalWaits b s n then b
       else ok m (b64 b.btn.legalFloor ++ b64 b.btn.legalNext ++ (List.range n).flatMap fun i => legalRead b ((s + i) % 2 ^ 64)) b)
    else ok m (b64 b.btn.opFloor ++ b64 b.btn.opNext ++ (List.range n).flatMap fun i => opRead b ((s + i) % 2 ^ 64)) b) b

/-! ### Clearing (R529) -/

/-- Payload of a LOG_CLEAR entry (R522). -/
def clearPayload (count : Nat) (log : U8) (challenge : List U8) : List U8 := leBytes 8 count ++ [log] ++ zeros 7 ++ challenge
/-- The operational log is cleared: its ring is discarded but for the entry whose bytes are on their way, and LOG_CLEAR is the next
entry and the floor. -/
def clearOp (m : Fin 4) (challenge : List U8) (b : Block) : Block :=
  let f := b.btn.opNext
  let count := f.toNat - b.btn.opFloor.toNat
  let b := updBtn (fun t => { t with staged := t.staged.take (begunEntries t), unleased := [], ring := [], opFloor := f }) b
  let b := stageOp (logBody 1 wBittern 0 (clearPayload count 1 challenge) b) b
  ok m (b64 f ++ leBytes 8 count) (irq 465 b)
/-- The legal log is to be cleared: LOG_CLEAR is requested, with the sequence it will take. -/
def clearLegal (m : Fin 4) (challenge : List U8) (b : Block) : Block :=
  let f := b.btn.legalNext + BitVec.ofNat 64 b.btn.legalWaiting.length
  let count := f.toNat - b.btn.legalFloor.toNat
  let b := updBtn (fun t => { t with clearing := true, clearMbx := some (m, f, BitVec.ofNat 64 count) }) b
  legalLog 1 wBittern (clearPayload count 0 challenge) b
/-- BTN_CLEAR. -/
def btnClear (m : Fin 4) (b : Block) : Block :=
  let log := rN b m 0 1
  checked m [(0x1201, decide (log ≤ 1)), (0x1203, !b.btn.clearing)] (fun b =>
    let a := authorise m 4 (rN b m 2 2) b
    let challenge := rBytes b m 16 8
    if !a.2 then refuse m 0x1202 a.1 else if log = 1 then clearOp m challenge a.1 else clearLegal m challenge a.1) b
/-- Lines of the legal log that hold a sequence below `f` and that no entry waiting now will replace. -/
def staleLines (b : Block) (f : Nat) : List Nat :=
  let coming := (List.range b.btn.legalWaiting.length).map fun i => legalLineOf (f + 1 + i)
  ((legalEntries b.pea.lines).filter fun e => decide (e.1 < f)).map (fun e => legalLineOf e.1) |>.filter fun n => !coming.contains n
/-- Blank the lines in order; `clearing` ends with the last. -/
def blankLines (ls : List Nat) (b : Block) : Block :=
  forAll ls (fun n => peatRequest rqBittern n [blankLine] (if ls.getLast? = some n then .clearDone else .lines)) b
/-- A clear goes on once its LOG_CLEAR entry is written: the floor, the blanking, source 465, the answer. A clear whose entry has been
dropped is answered INTERNAL. -/
def clearStep (b : Block) : Block :=
  match b.btn.clearMbx with
  | none => b
  | some (m, f, count) =>
    if f.toNat < b.btn.legalNext.toNat then
      let ls := staleLines b f.toNat
      let b := updBtn (fun t => { t with clearMbx := none, legalFloor := f, legalWrapped := false, clearing := !ls.isEmpty }) b
      ok m (b64 f ++ b64 count) (irq 465 (blankLines ls b))
    else if b.btn.legalNext.toNat + b.btn.legalWaiting.length ≤ f.toNat then
      internalFail m (updBtn (fun t => { t with clearMbx := none, clearing := false }) b)
    else b
/-- A debug scope is granted once its DEBUG_UNLOCK entry is written (R542): the working registers are cleared, `erased` set (R393),
sources 444 and 488. -/
def grantStep (b : Block) : Block :=
  match b.dbg.granting with
  | none => b
  | some (scope, seq) =>
    if seq.toNat < b.btn.legalNext.toNat then
      let b := { b with dbg := { b.dbg with granting := none, scope := scope, unlocks := satInc b.dbg.unlocks } }
      irq 488 (irq 444 (clearWorking { b with key := { b.key with erased := true } }))
    else b
/-- The core that feeds the line in progress is halted: it gives no more data, and keeps the grant until the hold watchdog revokes it
(R545). -/
def feederHalted (b : Block) : Bool :=
  match b.arb.cur with
  | some r => (r == rqCarr && b.dbg.haltCarr) || ((r == rqSedge || r == rqUpdate) && b.dbg.haltSedge)
  | none => false
/-- LINE_WRITE_DONE with all that follows it. -/
def lineWritten (c : LineCheck) (b : Block) : Block := if feederHalted b then b else grantStep (clearStep (lineWriteDone c b))

/-! ### Settings, status, counts -/

/-- BTN_SET_CONFIG. -/
def btnSetConfig (m : Fin 4) (b : Block) : Block :=
  checked m [(6, queueOk (rN b m 0 2) true)] (fun b => ok m [] (saveSettings (updBtn (fun t => { t with opQueue := r16 b m 0 }) b))) b
/-- BTN_GET_STATUS. -/
def btnGetStatus (m : Fin 4) (b : Block) : Block := ok m (b32s ((List.range 16).map fun i => btnWord b (0xB00 + i))) b
/-- BTN_CLEAR_COUNTS. -/
def btnClearCounts (m : Fin 4) (b : Block) : Block := ok m [] (updBtn (fun t => { t with opDrop := 0, opSuppress := 0, tornCnt := 0 }) b)

/-- LINE_WRITE_DONE (R311). -/
def execLineWriteDone (x : LineCheck) (s : State) : Result := s.input (lineWritten x)
/-- OPLOG_FLUSH (R523). -/
def execOplogFlush (s : State) : Result := s.run oplogFlush
/-- FULL_REQUEUE (R459). -/
def execFullRequeue (s : State) : Result := s.run fullRequeue
/-- BTN_READ (R528). -/
def execBtnRead (m : Fin 4) (s : State) : Result := s.run (command m 0x1201 .sedge (btnRead m))
/-- BTN_CLEAR (R529). -/
def execBtnClear (m : Fin 4) (s : State) : Result := s.run (command m 0x1202 .carr (btnClear m))
/-- BTN_SET_CONFIG (R549). -/
def execBtnSetConfig (m : Fin 4) (s : State) : Result := s.run (command m 0x1203 .sedge (btnSetConfig m))
/-- BTN_GET_STATUS (R549). -/
def execBtnGetStatus (m : Fin 4) (s : State) : Result := s.run (command m 0x1204 .sedge (btnGetStatus m))
/-- BTN_CLEAR_COUNTS (R549). -/
def execBtnClearCounts (m : Fin 4) (s : State) : Result := s.run (command m 0x1205 .sedge (btnClearCounts m))

end Sys2Proof.Machine
end

