-- ==== Sys2Proof/Machine/Requests.lean ====
section
/-! DEFINITION. Starting a request: the opcodes of command set 3.2 with the shape of each request payload, and the checks of R424
(16_host_port.md R423 to R429; the command tables of every chapter). -/

namespace Sys2Proof.Machine

/-- What follows the last field of a request payload. -/
inductive ReqTail where
  /-- nothing: the last field ends the payload -/
  | none
  /-- a token of as many bytes as the 2-byte length field at `lenAt` says, from `start` -/
  | sized (lenAt start : Nat)
  /-- any number of bytes from `start` -/
  | free (start : Nat)
deriving DecidableEq, Repr

/-- A field of a request payload: offset, bytes, and the mask of its defined bits. -/
structure ReqField where
  off : Nat
  size : Nat
  mask : Nat

/-- The shape of a request payload. -/
structure ReqShape where
  fields : List ReqField := []
  tail : ReqTail := .none

/-- Fields of which every bit is defined: offset and bytes. -/
def whole (l : List (Nat × Nat)) : List ReqField := l.map fun e => { off := e.1, size := e.2, mask := 256 ^ e.2 - 1 }
/-- A field with a mask of defined bits. -/
def bits (off size mask : Nat) : ReqField := { off := off, size := size, mask := mask }
/-- A request whose every field is whole. -/
def plainReq (l : List (Nat × Nat)) : Option ReqShape := some { fields := whole l }
/-- Whole fields and fields with masks. -/
def maskedReq (l : List (Nat × Nat)) (m : List ReqField) : Option ReqShape := some { fields := whole l ++ m }
/-- A request that ends with an authorisation token (R402). -/
def authReq (l : List (Nat × Nat)) (m : List ReqField) (lenAt start : Nat) : Option ReqShape :=
  some { fields := whole (l ++ [(lenAt, 2)]) ++ m, tail := .sized lenAt start }

/-- System family and tide family (R64 to R81, R430, R516, R62). -/
def shape12 (op : Nat) : Option ReqShape :=
  match op with
  | 0x0101 => plainReq []
  | 0x0102 => some { tail := .free 0 }
  | 0x0103 => plainReq []
  | 0x0104 => plainReq []
  | 0x0110 => plainReq [(0, 1), (1, 1)]
  | 0x0111 => plainReq []
  | 0x0140 => plainReq [(0, 1)]
  | 0x0141 => plainReq [(0, 1)]
  | 0x0142 => plainReq []
  | 0x0201 => plainReq []
  | 0x0202 => plainReq [(0, 4)]
  | 0x0203 => maskedReq [(2, 2)] [bits 0 1 7]
  | 0x0204 => maskedReq [(0, 8), (8, 8)] [bits 16 1 1]
  | 0x0205 => plainReq [(0, 1), (2, 2), (8, 8)]
  | 0x0206 => plainReq [(0, 2), (8, 64)]
  | 0x0207 => plainReq [(0, 2), (4, 4), (8, 4)]
  | 0x0208 => plainReq [(0, 2)]
  | 0x0209 => plainReq []
  | _ => none
/-- Metrology family (R108, R130). -/
def shape3 (op : Nat) : Option ReqShape :=
  match op with
  | 0x0301 => authReq [] [] 0 4
  | 0x0302 => plainReq []
  | 0x0303 => plainReq [(0, 1)]
  | 0x0304 => maskedReq [(0, 1), (8, 4), (12, 4)] [bits 4 4 0x3FF]
  | 0x0305 => plainReq [(0, 1), (4, 256)]
  | 0x0306 => plainReq [(0, 8), (8, 8)]
  | 0x0307 => plainReq [(0, 1), (1, 1)]
  | 0x0308 => maskedReq [(0, 8)] [bits 8 1 1]
  | 0x0309 => plainReq [(0, 1), (4, 4), (8, 8)]
  | 0x030A => plainReq [(0, 1), (1, 1), (4, 4), (8, 4), (12, 4)]
  | 0x030B => plainReq [(0, 8)]
  | 0x0320 => plainReq [(0, 1), (4, 4), (8, 4)]
  | 0x0321 => plainReq [(0, 1), (4, 4)]
  | 0x0322 => maskedReq [(0, 1), (2, 2), (4, 2), (6, 2), (8, 2), (10, 2)] [bits 1 1 3]
  | 0x0323 => plainReq [(0, 1)]
  | 0x0324 => plainReq [(0, 4)]
  | 0x0325 => plainReq []
  | _ => none
/-- Sluice and module link families (R163, R189). -/
def shape45 (op : Nat) : Option ReqShape :=
  match op with
  | 0x0401 => plainReq [(0, 4), (4, 4), (8, 2)]
  | 0x0402 => maskedReq [(0, 1), (1, 1), (2, 1), (4, 2), (6, 2)] [bits 3 1 1]
  | 0x0403 => maskedReq [(0, 2), (2, 2), (4, 1), (5, 1), (6, 1), (7, 1), (10, 2)] [bits 8 1 3]
  | 0x0404 => plainReq [(0, 1)]
  | 0x0405 => plainReq []
  | 0x0406 => plainReq [(0, 1), (1, 1)]
  | 0x0407 => plainReq []
  | 0x0408 => plainReq []
  | 0x0501 => plainReq [(0, 1)]
  | 0x0502 => plainReq [(0, 1)]
  | 0x0503 => plainReq [(0, 1)]
  | 0x0504 => plainReq [(0, 1)]
  | 0x0505 => plainReq [(0, 1), (2, 2)]
  | 0x0506 => plainReq [(0, 1), (1, 1)]
  | 0x0507 => plainReq [(0, 1)]
  | 0x0508 => plainReq [(0, 1), (1, 1)]
  | 0x0509 => plainReq [(0, 1)]
  | 0x050A => plainReq [(0, 1)]
  | _ => none
/-- Vehicle, V2G and powerline families (R212, R235, R237). -/
def shape67 (op : Nat) : Option ReqShape :=
  match op with
  | 0x0601 => plainReq [(0, 1)]
  | 0x0602 => maskedReq [(0, 1)] [bits 1 1 3]
  | 0x0603 => plainReq [(0, 1)]
  | 0x0604 => maskedReq [] ((List.range 8).map fun k => bits (4 * k) 4 0x07FFFFFF)
  | 0x0605 => plainReq [(0, 1), (1, 1)]
  | 0x0606 => maskedReq [(0, 1), (1, 1), (2, 1)] [bits 4 4 0x0FFFFFFF]
  | 0x0607 => plainReq [(0, 1), (1, 1)]
  | 0x0608 => plainReq [(0, 1), (2, 2)]
  | 0x0609 => plainReq [(0, 2)]
  | 0x0610 => maskedReq [(4, 2)] [bits 0 4 0x003F003F]
  | 0x0611 => plainReq [(0, 2), (2, 2), (4, 2)]
  | 0x0612 => plainReq [(0, 1)]
  | 0x0613 => plainReq [(0, 2)]
  | 0x0701 => plainReq [(0, 6)]
  | 0x0702 => maskedReq [(0, 2)] [bits 2 1 1]
  | 0x0703 => maskedReq [(4, 4)] [bits 0 4 0x007FFFFF, bits 8 1 3]
  | 0x0704 => maskedReq [(0, 2)] [bits 4 4 0x7FFFFFFF]
  | 0x0705 => plainReq [(0, 1)]
  | 0x0706 => plainReq [(0, 1)]
  | 0x0707 => plainReq [(0, 1), (1, 1)]
  | 0x0708 => plainReq [(0, 2)]
  | _ => none
/-- Insulation, safety and switches families (R258, R290, R309). -/
def shape8A (op : Nat) : Option ReqShape :=
  match op with
  | 0x0801 => maskedReq [(0, 1)] [bits 4 4 0xFF7F03FF, bits 8 4 0x01FF07FF]
  | 0x0802 => plainReq [(0, 2)]
  | 0x0803 => plainReq [(0, 1)]
  | 0x0804 => plainReq [(0, 2)]
  | 0x0805 => maskedReq [(0, 1), (4, 4)] [bits 8 4 0x0000FFFF]
  | 0x0806 => plainReq [(0, 1)]
  | 0x0807 => plainReq [(0, 1), (1, 1), (2, 2)]
  | 0x0808 => plainReq [(0, 2)]
  | 0x0901 => plainReq []
  | 0x0902 => maskedReq [] (((List.range 8).map fun k => bits (4 * k) 4 0xFFFF0003) ++ [bits 32 4 0x00FFFFFF])
  | 0x0903 => maskedReq [(0, 2), (2, 1)] [bits 3 1 1]
  | 0x0904 => plainReq [(0, 1)]
  | 0x0905 => plainReq [(0, 1)]
  | 0x0906 => plainReq []
  | 0x0907 => plainReq []
  | 0x0A01 => maskedReq [(0, 1)] [bits 4 4 0x000007FF]
  | 0x0A02 => plainReq [(0, 1), (1, 1), (2, 2)]
  | 0x0A03 => plainReq [(0, 1)]
  | 0x0A04 => plainReq [(0, 1)]
  | 0x0A05 => maskedReq [(0, 1), (4, 4)] [bits 8 4 0xFFFF3F7F]
  | 0x0A06 => plainReq [(0, 1)]
  | 0x0A07 => plainReq [(0, 20)]
  | 0x0A08 => plainReq [(0, 5)]
  | 0x0A09 => plainReq []
  | _ => none
/-- Peat store, Saltern, Brine and keys families (R346, R382, R383, R409). -/
def shapeBE (op : Nat) : Option ReqShape :=
  match op with
  | 0x0B01 => plainReq []
  | 0x0B02 => plainReq [(0, 4), (4, 1)]
  | 0x0B03 => maskedReq [(1, 1)] [bits 0 1 1]
  | 0x0B04 => maskedReq [(0, 1)] [bits 1 1 1]
  | 0x0B05 => plainReq [(0, 1)]
  | 0x0B06 => plainReq [(0, 1)]
  | 0x0B07 => authReq [] [] 0 4
  | 0x0B08 => plainReq []
  | 0x0B09 => plainReq []
  | 0x0C01 => plainReq [(0, 2)]
  | 0x0C02 => plainReq [(0, 1), (2, 2)]
  | 0x0C03 => plainReq [(0, 80)]
  | 0x0C04 => plainReq [(0, 1), (1, 1), (2, 1), (4, 2), (8, 8), (16, 16)]
  | 0x0C05 => plainReq [(0, 1), (1, 1)]
  | 0x0C06 => plainReq [(0, 1), (1, 1)]
  | 0x0C07 => plainReq []
  | 0x0C08 => authReq [(2, 2)] [bits 0 1 7] 4 8
  | 0x0C09 => plainReq [(0, 2), (2, 2)]
  | 0x0C0A => maskedReq [] [bits 0 1 0x0C]
  | 0x0D01 => plainReq [(0, 96)]
  | 0x0D02 => plainReq [(0, 96)]
  | 0x0D03 => plainReq [(0, 2)]
  | 0x0D04 => maskedReq [(4, 4)] [bits 0 4 0x000003FF]
  | 0x0D05 => plainReq [(0, 1)]
  | 0x0D06 => plainReq []
  | 0x0D07 => plainReq [(0, 2), (2, 1)]
  | 0x0E01 => plainReq []
  | 0x0E02 => plainReq [(0, 216)]
  | 0x0E03 => plainReq [(0, 1), (4, 200)]
  | 0x0E04 => plainReq [(0, 1)]
  | 0x0E05 => plainReq [(0, 1)]
  | 0x0E06 => plainReq [(0, 32)]
  | 0x0E07 => plainReq []
  | 0x0E08 => plainReq []
  | 0x0E09 => plainReq [(0, 2)]
  | 0x0E0A => plainReq []
  | _ => none
/-- Causeway and queues, panels, contactless, recorder, update, replay and dump families (R467, R484 to R487, R517, R549, R550). -/
def shapeF14 (op : Nat) : Option ReqShape :=
  match op with
  | 0x0F01 => maskedReq [(2, 1)] [bits 0 1 1]
  | 0x0F02 => plainReq []
  | 0x0F03 => plainReq []
  | 0x0F04 => plainReq [(0, 1), (2, 2)]
  | 0x0F05 => plainReq [(0, 1)]
  | 0x0F06 => maskedReq [(0, 2), (3, 1), (4, 1), (6, 2)] [bits 2 1 0x0E]
  | 0x0F07 => plainReq [(0, 2)]
  | 0x0F08 => plainReq [(0, 2)]
  | 0x0F09 => plainReq []
  | 0x0F0A => plainReq [(0, 4)]
  | 0x0F0B => maskedReq [] [bits 0 1 3]
  | 0x1001 => maskedReq [(0, 1)] [bits 1 1 1, bits 4 4 0x0003FFFF]
  | 0x1002 => plainReq [(0, 1), (4, 768)]
  | 0x1003 => maskedReq [(0, 1), (2, 2), (4, 2), (6, 2), (8, 2), (10, 2)] [bits 1 1 1]
  | 0x1004 => maskedReq [(0, 1), (2, 3), (6, 2), (8, 2), (10, 2), (12, 2)] [bits 1 1 1]
  | 0x1005 => plainReq [(0, 1)]
  | 0x1006 => plainReq [(0, 1)]
  | 0x1007 => plainReq [(0, 1)]
  | 0x1101 => maskedReq [(0, 1), (2, 2)] [bits 1 1 1, bits 4 4 0x03FFFFFF]
  | 0x1102 => plainReq [(0, 1)]
  | 0x1103 => some { fields := whole [(0, 1), (2, 2), (4, 2)], tail := .sized 2 8 }
  | 0x1104 => plainReq [(0, 1)]
  | 0x1105 => plainReq [(0, 1)]
  | 0x1201 => plainReq [(0, 1), (8, 8), (16, 1)]
  | 0x1202 => authReq [(0, 1)] [] 2 4
  | 0x1203 => plainReq [(0, 2)]
  | 0x1204 => plainReq []
  | 0x1205 => plainReq []
  | 0x1301 => plainReq []
  | 0x1302 => plainReq [(0, 1)]
  | 0x1303 => plainReq [(0, 1)]
  | 0x1304 => plainReq [(0, 1)]
  | 0x1305 => plainReq [(0, 1)]
  | 0x1306 => plainReq [(0, 1)]
  | 0x1307 => plainReq [(0, 4), (4, 2), (6, 2)]
  | 0x1308 => plainReq [(0, 1), (1, 1)]
  | 0x1401 => plainReq []
  | 0x1402 => plainReq [(0, 2)]
  | 0x1403 => plainReq []
  | 0x1404 => authReq [] [] 0 4
  | 0x1405 => maskedReq [(2, 2)] [bits 0 1 1]
  | 0x1406 => authReq [(0, 2)] [] 2 4
  | 0x1407 => plainReq []
  | _ => none
/-- The shape of a request of command set 3.2 (R429); an opcode without one is unknown. -/
def reqShape (op : Nat) : Option ReqShape :=
  match familyOf op with
  | 1 => shape12 op | 2 => shape12 op | 3 => shape3 op | 4 => shape45 op | 5 => shape45 op | 6 => shape67 op | 7 => shape67 op
  | 8 => shape8A op | 9 => shape8A op | 10 => shape8A op | 11 => shapeBE op | 12 => shapeBE op | 13 => shapeBE op | 14 => shapeBE op
  | _ => shapeF14 op
/-- UPD_BOOT_PART, which the boot ROM alone knows (R517). -/
def bootPartShape : ReqShape := { fields := whole [(0, 1), (1, 1), (2, 1), (4, 4), (8, 512)] }

/-! ### The checks of R424 -/

/-- The end of the last field. -/
def fieldsEnd (s : ReqShape) : Nat := (s.fields.map fun f => f.off + f.size).foldl max 0
/-- The length is the defined one. -/
def lengthOk (s : ReqShape) (b : Block) (m : Fin 4) : Bool :=
  let n := reqLen b m
  decide (n ≤ 1016) && match s.tail with
    | .none => n == fieldsEnd s
    | .sized lenAt start => n == start + rN b m lenAt 2
    | .free start => decide (start ≤ n)
/-- The mask of defined bits of payload byte `o`. -/
def byteMask (s : ReqShape) (o : Nat) : Nat :=
  match s.tail with
  | .sized _ start => if start ≤ o then 255 else (s.fields.map fun f => if f.off ≤ o ∧ o < f.off + f.size then f.mask / 256 ^ (o - f.off) % 256 else 0).sum
  | .free start => if start ≤ o then 255 else 0
  | .none => (s.fields.map fun f => if f.off ≤ o ∧ o < f.off + f.size then f.mask / 256 ^ (o - f.off) % 256 else 0).sum
/-- Reserved header bits, payload bytes and payload bits are 0. -/
def reservedOk (s : ReqShape) (b : Block) (m : Fin 4) : Bool :=
  reqRsvd b m == 0 && (List.range (min 1016 (reqLen b m))).all fun o => (rB b m o &&& ~~~(BitVec.ofNat 8 (byteMask s o))) == 0
/-- The request of mailbox `m` begins (R424 to R426): BUSY; refused at once on an unknown opcode, its length or reserved bits. -/
def beginRequest (s : Option ReqShape) (m : Fin 4) (b : Block) : Block :=
  let b := setMbx m { mbxOf b m with state := .busy, answered := false } b
  match s with
  | none => refuse m 1 b
  | some s => if !lengthOk s b m then refuse m 2 b else if !reservedOk s b m then refuse m 3 b else b
/-- The instant at which firmware acts on what reached the Tide domain at `t` (R534): the first sample instant at least 3,000 ticks later. -/
def presentedAt (t : U64) : Nat := multipleFrom tSample (t.toNat + 3000)
/-- MBX_REQUEST_START: Sedge starts a request (R426); in a boot over the host port the boot ROM serves mailbox 0 (R498, R517). -/
def requestStart (m : Fin 4) (b : Block) : Block :=
  if mayStart b m then atInstant (presentedAt (mbxOf b m).rungAt) (beginRequest (reqShape (reqOp b m)) m) b
  else if m = 0 ∧ bootRom b ∧ (mbxOf b m).state = .queued then
    beginRequest (if reqOp b m = 0x13F0 then some bootPartShape else none) m b
  else b

/-- MBX_REQUEST_START (R426). -/
def execMbxRequestStart (m : Fin 4) (s : State) : Result := s.run (requestStart m)

end Sys2Proof.Machine
end

