-- ==== Sys2Proof/Machine/Window.lean ====
section
/-! DEFINITION. Frames of the host port: reads with their side effects, writes checked and committed whole, frames of a wrong length
(16_host_port.md R411 to R421, R434, R435; 21_register_map.md R553 to R555; 20_recorder_replay.md R538). -/

namespace Sys2Proof.Machine

/-! ### Reads (R413, R414, R419) -/

/-- The instant that a read of TID_NOW_LO samples: Tide less a latency of 0 to 48 ticks (R40). -/
def sampledTide (lag : Fin 49) (b : Block) : U64 := BitVec.ofNat 64 ((now b).toNat - lag.val)
/-- What a READ returns for a word that is not forbidden. -/
def readWord (lag : Fin 49) (b : Block) (a : Nat) : U32 := if a = 0x200 then lo32 (sampledTide lag b) else windowWord b a
/-- The side effect of a word whose 8 nibbles were all clocked (R555), but for the claim. -/
def readEffect (lag : Fin 49) (a : Nat) (b : Block) : Block :=
  if a = 0x200 then updTide (fun t => { t with nowHi := hi32 (sampledTide lag b) }) b
  else if 0x348 ≤ a ∧ a < 0x398 ∧ a % 2 = 0 then energyCapture a b
  else if 0x940 ≤ a ∧ a < 0x980 then briCapture a b
  else if 0xB00 ≤ a ∧ a < 0xB40 then btnCapture a b
  else b
/-- The words of a READ from address `a`: after the first forbidden word every word is 0 (R419). -/
def readWords (lag : Fin 49) : Nat → Nat → Block → Block × List U32
  | 0, _, b => (b, [])
  | n + 1, a, b =>
    match forbiddenBy b a with
    | some cause => (winErr false cause a b, List.replicate (n + 1) 0)
    | none =>
      let v := readWord lag b a
      let r := readWords lag n (a + 1) (readEffect lag a b)
      (r.1, v :: r.2)
/-- A READ frame of `count` whole words: returned, and the frame counted. While reset is asserted every word holds its reset value
(R558), so nothing but the answer comes of it. -/
def readFrame (addr : U16) (count : Nat) (lag : Fin 49) (b : Block) : Block :=
  if count = 0 then b
  else
    let r := readWords lag count addr.toNat b
    if b.rst.inReset then { b with hp := { b.hp with lastRead := r.2 } }
    else { r.1 with hp := { r.1.hp with lastRead := r.2, reads := satInc r.1.hp.reads } }
/-- The pin whose HIC_CLAIM a word is. -/
def claimPin (a : Nat) : Option (Fin 4) := if h : 0x10C ≤ a ∧ a ≤ 0x10F then some ⟨a - 0x10C, by omega⟩ else none
/-- A HOST item of the trace (R536). -/
def hostItem (kind : U8) (a : Nat) (words : List U32) (b : Block) : Block :=
  traceItem 6 0 (now b) ([kind, 0] ++ leBytes 2 a ++ leBytes 2 (max 1 words.length) ++ [0, 0] ++ b32s words) b
/-- Words whose read has an effect beyond the port are inputs of a recording; only claims are (R536). A READ whose data phase is
exactly one word, that word a HIC_CLAIM, claims (R434). -/
def wholeRead (addr : U16) (count : Nat) (lag : Fin 49) (b : Block) : Block :=
  let b1 := readFrame addr count lag b
  match claimPin addr.toNat with
  | some p => if count = 1 then hostItem 2 addr.toNat [] (hicClaim p b1) else b1
  | none => b1
/-- The _LO words whose read captures (R555), TID_NOW_LO apart. -/
def captures (a : Nat) : Bool :=
  (decide (0x348 ≤ a ∧ a < 0x398) && a % 2 == 0) || a == 0x941 || a == 0x943 || a == 0x945 || a == 0x947 ||
    (decide (0x950 ≤ a ∧ a < 0x970) && a % 2 == 0) || a == 0xB01 || a == 0xB03 || a == 0xB05
/-- A single-word read of a capturing _LO word. -/
def captureRead (addr : U16) (b : Block) : Block := if captures addr.toNat then wholeRead addr 1 0 b else b

/-! ### Writes (R415 to R420) -/

/-- The protected registers (R554). -/
def isProtected (a : Nat) : Bool := a == 0x203 || a == 0x404 || a == 0x405 || a == 0x406 || a == 0x408
/-- The chapter of the word takes the value: HIC_COMPLETE(p) bits 31:9 (R435), SLU_ZC_TOL. -/
def fieldTaken (a : Nat) (v : U32) : Bool :=
  if 0x110 ≤ a ∧ a ≤ 0x113 then decide (v.toNat < 512) else if 0x400 ≤ a ∧ a < 0x500 then sluFieldOk a v else true
/-- The words of a frame with their addresses. -/
def addressed (a : Nat) : List U32 → List (Nat × U32)
  | [] => []
  | v :: r => (a, v) :: addressed (a + 1) r
/-- A word lies in the DBG block. -/
def inDbg (a : Nat) : Bool := decide (0xB40 ≤ a ∧ a < 0xB80)
/-- The first reason for which a frame is rejected, with its address (R420): OUTSIDE, MBX_STATE, PROTECTED, FIELD, LENGTH. A real
frame in replay mode may name only words of the DBG block (R538). -/
def frameFault (b : Block) (real crc : Bool) (l : List (Nat × U32)) : Option (Nat × Nat) :=
  let first := fun (c : Nat) (p : Nat × U32 → Bool) => (l.find? p).map fun e => (c, e.1)
  (first 1 fun e => forbiddenBy b e.1 == some 1 || (real && b.rpl.mode && !inDbg e.1)).or
    ((first 2 fun e => forbiddenBy b e.1 == some 2).or
      ((first 3 fun e => !crc && isProtected e.1).or
        ((first 4 fun e => !fieldTaken e.1 e.2).or
          (if 256 < l.length then l.head?.map fun e => (5, e.1 + 256) else none))))
/-- A write of 1 to stop in RPL_CTRL ends replay or a recording with cause 1 (R540). -/
def rplStop (b : Block) : Block := if b.rpl.mode then replayEnd 1 b else recordEnd 1 b
/-- A word of mailbox `m`'s request buffer. -/
def requestWrite (m : Fin 4) (a : Nat) (v : U32) (b : Block) : Block :=
  setMbx m { mbxOf b m with req := (mbxOf b m).req.writeN (4 * ((a - 0x2000) % 256)) (b32 v) } b
/-- A write of one word of the blocks ID to MBX control. -/
def writeLow (a : Nat) (v : U32) (b : Block) : Block :=
  if a = 8 then { b with hp := { b.hp with err := b.hp.err && !v.getLsbD 0 } }
  else if a = 0xA then { b with hp := { b.hp with scratch := v } }
  else if 0x40 ≤ a ∧ a < 0x80 then rstWrite a v b
  else if h : 0xC0 ≤ a ∧ a ≤ 0xC3 then
    let m : Fin 4 := ⟨a - 0xC0, by omega⟩
    setMbx m { mbxOf b m with ringErr := (mbxOf b m).ringErr && !v.getLsbD 3 } b
  else if h : 0xC4 ≤ a ∧ a ≤ 0xC7 then doorbellWrite ⟨a - 0xC4, by omega⟩ v b
  else b
/-- A write of one word (R553); every other word keeps its value. -/
def writeWord (a : Nat) (v : U32) (b : Block) : Block :=
  match bufferOf a with
  | some m => requestWrite m a v b
  | none =>
    if a < 0x100 then writeLow a v b
    else if a < 0x200 then hicWrite a v b
    else if a < 0x280 then tidWrite a v b
    else if a < 0x400 then metWrite a v b
    else if a < 0x500 then sluWrite a v b
    else if a < 0x580 then mlkWrite a v b
    else if a < 0x620 then vehWrite a v b
    else if 0x700 ≤ a ∧ a < 0x780 then imdWrite a v b
    else if a = 0xB41 then { b with dbg := { b.dbg with viewAddr := v.setWidth 16 } }
    else if a = 0xB51 then onlyIf (v.getLsbD 0) rplStop b
    else b
/-- All the words of a frame take effect, in ascending address order (R415). -/
def commitWords (l : List (Nat × U32)) (b : Block) : Block := forAll l (fun e b => writeWord e.1 e.2 b) b
/-- A frame that passed the checks of R416 is judged by those of R417 and R420, then committed whole. -/
def writeFrame (real crc : Bool) (a : Nat) (words : List U32) (b : Block) : Block :=
  let l := addressed a words
  match frameFault b real crc l with
  | some (cause, at_) => winErr true cause at_ b
  | none =>
    let b := hostItem 1 a words { b with hp := { b.hp with committed := satInc b.hp.committed } }
    commitWords l b
/-- REGISTER_WRITE: a WRITE frame, or a WRITE_CRC frame with its trailer, as HP_CS_N rises (R411, R416, R421). While reset is asserted
nothing is written. -/
def registerWrite (addr : U16) (words : List U32) (crc : Option U8) (b : Block) : Block :=
  if b.rst.inReset then b
  else match crc with
    | none => if words = [] then spiErr 4 b else writeFrame true false addr.toNat words b
    | some c =>
      if words = [] then spiErr 5 b
      else if crc8 (frameBytes 0x32 addr words) ≠ c then spiErr 6 b
      else writeFrame true true addr.toNat words b
/-- HIC_COMPLETE: a WRITE of one word to HIC_COMPLETE(p). -/
def completeWrite (p : Fin 4) (v : U32) (b : Block) : Block := registerWrite (BitVec.ofNat 16 (0x110 + p.val)) [v] none b
/-- RPL_STOP: a WRITE of 1 to RPL_CTRL. -/
def stopWrite (b : Block) : Block := registerWrite 0xB51 [1] none b

/-! ### Frames by their edges (R410, R411, R416, R421) -/

/-- The port works in SINGLE mode (R410, R494). -/
def hpSingle (b : Block) : Bool := b.rst.strapLoaded && strapSingle b.rst.choice.toNat
/-- A number sent most significant nibble first. -/
def nibblesNat (l : List (BitVec 4)) : Nat := l.foldl (fun n x => 16 * n + x.toNat) 0
/-- The whole words of a data phase. -/
def wordsOf : Nat → List (BitVec 4) → List U32
  | 0, _ => []
  | k + 1, l => BitVec.ofNat 32 (nibblesNat (l.take 8)) :: wordsOf k (l.drop 8)
/-- What the edges of a frame make of it. -/
inductive FrameCase where
  /-- a READ of `count` whole words that ends on a word -/
  | read (addr : U16) (count : Nat)
  /-- a READ that ends inside a word (cause 3) -/
  | readPartial (addr : U16) (count : Nat)
  /-- a WRITE, or a WRITE_CRC with its trailer, of whole words -/
  | write (addr : U16) (words : List U32) (crc : Option U8)
  /-- a frame that has no effect but its count, with its cause -/
  | bad (cause : Nat)
deriving DecidableEq, Repr
/-- The case of a frame; only SINGLE mode counts edges inside a nibble. -/
def frameCase (single : Bool) (f : HostFrame) : FrameCase :=
  let addr : U16 := BitVec.ofNat 16 (nibblesNat ((f.nibbles.drop 2).take 4))
  let data := f.nibbles.drop 6
  let bits := 4 * data.length + (if single then f.extra.val else 0)
  if f.nibbles.length < 6 then .bad 1
  else match nibblesNat (f.nibbles.take 2) with
    | 0x0B => if bits % 32 = 0 then .read addr (bits / 32) else .readPartial addr (bits / 32)
    | 0x02 => if bits % 32 = 0 ∧ bits ≠ 0 then .write addr (wordsOf (bits / 32) data) none else .bad 4
    | 0x32 =>
      if bits % 32 = 8 ∧ 40 ≤ bits then .write addr (wordsOf (bits / 32) data) (some (BitVec.ofNat 8 (nibblesNat (data.drop (data.length - 2))))) else .bad 5
    | _ => .bad 2
/-- A nibble of the words of the last READ as the device drives it in the data phase (R411): nibble `i`, from the falling edge after
edge 6 + `i` on. -/
def drivenNibble (b : Block) (i : Nat) : BitVec 4 :=
  match b.hp.lastRead[i / 8]? with | some w => BitVec.ofNat 4 (w.toNat / 16 ^ (7 - i % 8)) | none => 0
/-- BAD_FRAME (R421): a frame by its edges. One that does not fit is counted with its cause; a READ that ends inside a word leaves the
words before it read, and never claims. -/
def badFrame (f : HostFrame) (b : Block) : Block :=
  if b.rst.inReset then b
  else match frameCase (hpSingle b) f with
  | .read a n => wholeRead a n f.lag b
  | .readPartial a n => spiErr 3 (readFrame a n f.lag b)
  | .write a ws c => registerWrite a ws c b
  | .bad c => spiErr c b

/-- READ_FRAME (R419). -/
def execReadFrame (addr : U16) (count : Nat) (lag : Fin 49) (s : State) : Result := s.run (wholeRead addr count lag)
/-- TID_NOW_READ (R40). -/
def execTidNowRead (lag : Fin 49) (s : State) : Result := s.run (wholeRead 0x200 1 lag)
/-- LO_CAPTURE_READ (R118). -/
def execLoCaptureRead (addr : U16) (s : State) : Result := s.run (captureRead addr)
/-- HIC_CLAIM (R434). -/
def execHicClaim (p : Fin 4) (s : State) : Result := s.run (wholeRead (BitVec.ofNat 16 (0x10C + p.val)) 1 0)
/-- REGISTER_WRITE (R415). -/
def execRegisterWrite (addr : U16) (words : List U32) (crc : Option U8) (s : State) : Result := s.run (registerWrite addr words crc)
/-- HIC_COMPLETE (R435). -/
def execHicComplete (p : Fin 4) (src : U32) (s : State) : Result := s.run (completeWrite p src)
/-- RPL_STOP (R540). -/
def execRplStop (s : State) : Result := s.run stopWrite
/-- BAD_FRAME (R421). -/
def execBadFrame (frame : HostFrame) (s : State) : Result := s.run (badFrame frame)

end Sys2Proof.Machine
end

