-- ==== Sys2Proof/Machine/Replay.lean ====
section
/-! DEFINITION. Recording and replay: the trace queue, TRACE_IN records, presenting the items of a trace, the commands
(20_recorder_replay.md R534 to R540, R550). -/

namespace Sys2Proof.Machine

/-! ### The trace of a recording (R535) -/

/-- Write the next TRACE record of at most 56 bytes; a refused one waits. -/
def traceSend (b : Block) : Block × Bool :=
  let l := b.rpl.buffer.take 56
  match sendRecord agDump b.rpl.queue.toNat (mkRecord 0x1410 l.length 0 l) b with
  | (b, .ok _) => (updRpl (fun r => { r with buffer := r.buffer.drop 56 }) b, true)
  | (b, .error _) => (b, false)
/-- Write records until the buffer is empty or a record is refused. -/
def traceAux : Nat → Block → Block
  | 0, b => b
  | f + 1, b => if b.rpl.buffer = [] then b else match traceSend b with
    | (b, true) => traceAux f b
    | (b, false) => b
/-- The trace goes out while the link is up. Items wait 100 ms for those of an earlier stamp, and in boot stage 0 for the HEADER and the BASE
items (R536; log entry 180). -/
def traceFlush (b : Block) : Block :=
  let b := if b.rpl.state = 2 ∧ b.rst.stage ≠ 0 then settleItems ((now b).toNat - 150000000) b else b
  if b.rpl.mode ∨ !linkIsUp b then b else traceAux (b.rpl.buffer.length / 56 + 1) b
/-- Size of the trace buffer, 16 MiB. -/
def traceBufferSize : Nat := 16777216
/-- TRACE_OVERFLOW: a buffer that cannot hold what waits ends the recording with cause 5. -/
def traceOverflow (b : Block) : Block :=
  let b := traceFlush b
  if traceBufferSize ≤ b.rpl.buffer.length + (b.rpl.recent.map fun x => x.2.2.length).sum then recordEnd 5 b else b

/-! ### Items of a trace (R536) -/

/-- The first whole item of a byte stream and what follows it. -/
def cutItem (l : List U8) : Option (List U8 × List U8) :=
  let n := 12 + natAt l 2 2
  if l.length < 12 ∨ l.length < n then none else some (l.take n, l.drop n)
/-- Class of an item. -/
def itemClass (i : List U8) : Nat := (byteAt i 0).toNat
/-- Stamp of an item. -/
def itemStamp (i : List U8) : U64 := BitVec.ofNat 64 (natAt i 4 8)
/-- Payload of an item. -/
def itemBody (i : List U8) : List U8 := i.drop 12

/-- A BASE item fills its line of the shadow store; the last line that BASE items carry completes it. -/
def baseAccept (i : List U8) (b : Block) : Block :=
  let n := natAt (itemBody i) 0 4
  let b := if n < 65536 then { b with pea := { b.pea with lines := Memory.writeN b.pea.lines (64 * n) (padTo 64 (slice i 16 64)) } } else b
  if n = 65535 then updRpl (fun r => { r with based := true }) b else b
/-- The lead of an accepted item in µs; the least is kept (R547). -/
def noteLead (stamp : U64) (b : Block) : Block :=
  let d := (stamp.toNat - (now b).toNat) / 1500
  updRpl (fun r => { r with lead := BitVec.ofNat 32 (min r.lead.toNat d) }) b
/-- Accept one item (R538): HEADER and BASE, which precede Tide 0, carry no lead; any other must come 1,500,000 ticks before its
stamp, or replay ends for want of it. -/
def itemAccept (i : List U8) (b : Block) : Block :=
  let b := updRpl (fun r => { r with items := r.items + 1 }) b
  match itemClass i with
  | 0 => updRpl (fun r => { r with header := itemBody i }) b
  | 1 => baseAccept i b
  | c =>
    if (itemStamp i).toNat < (now b).toNat + 1500000 then replayEnd 3 b
    else
      let b := noteLead (itemStamp i) (updRpl (fun r => { r with based := true }) b)
      if c = 10 then updRpl (fun r => { r with randoms := r.randoms ++ itemBody i }) b
      else updRpl (fun r => { r with accepted := r.accepted ++ [i] }) b
/-- Cut and accept whole items while replay runs. -/
def acceptAux : Nat → Block → Block
  | 0, b => b
  | f + 1, b => if b.rpl.state ≠ 3 then b else match cutItem b.rpl.input with
    | none => b
    | some (i, rest) => acceptAux f (itemAccept i (updRpl (fun r => { r with input := rest }) b))

/-! ### Presenting items at their stamps -/

/-- MET: modulator faults as the mask has them, then the codes. -/
def presentMet (p : List U8) (b : Block) : Block :=
  let mask := natAt p 144 6
  let b := forAll (List.finRange 48) (fun c b => if bitOf mask c.val then modulatorFault c b else modulatorFaultClear c b) b
  sampleInstant (Vector.ofFn fun c => BitVec.ofNat 24 (natAt p (3 * c.val) 3)) b
/-- One uplink slot of an MLK item: 8 data bytes and a status. -/
def slotFrom (l : Fin 8) (p : Fin 12) (x : List U8) : UplinkSlot :=
  let c := crc16 ([BitVec.ofNat 8 l.val, BitVec.ofNat 8 p.val] ++ padTo 8 x)
  let s := codeSlot (padTo 8 x ++ b16 (if (byteAt x 8).getLsbD 0 then c else ~~~c))
  { symbols := if (byteAt x 8).getLsbD 1 then s else s.tail }
/-- MLK: the 12 slots of a lane. -/
def presentMlk (p : List U8) (b : Block) : Block :=
  let l : Fin 8 := ⟨natAt p 0 1 % 8, Nat.mod_lt _ (by decide)⟩
  forAll (List.finRange 12) (fun k b => uplinkSlot l k (slotFrom l k (slice p (1 + 9 * k.val) 9)) b) b
/-- SAFETY: the permit words and the safety inputs. -/
def presentSafety (p : List U8) (b : Block) : Block :=
  let b := forAll allNodes (fun n => updNode n fun x => { x with permitDyke := bitOf (natAt p 0 2) n.val, permitHw := bitOf (natAt p 2 2) n.val }) b
  forAll allNodes (fun i b =>
    let closed := bitOf (natAt p 4 2) i.val
    if closed = b.saf.inputClosed.getLsbD i.val then b else if closed then safetyInputClose i b else safetyInputOpen i true true b) b
/-- HOST: a write frame or a claim. -/
def presentHost (p : List U8) (b : Block) : Block :=
  let a := natAt p 2 2
  if natAt p 0 1 = 1 then
    let words := (List.range (natAt p 4 2)).map fun k => BitVec.ofNat 32 (natAt p (8 + 4 * k) 4)
    commitWords (addressed a words) { b with hp := { b.hp with committed := satInc b.hp.committed } }
  else match claimPin a with
    | some q => hicClaim q b
    | none => b
/-- CWY_IN: the record as the receiver accepted it, charged to the group of its queue. -/
def presentRecord (l : List U8) (b : Block) : Block :=
  let g := (qOf b (natAt l 2 2)).group
  let g : Fin 64 := ⟨g.toNat % 64, Nat.mod_lt _ (by decide)⟩
  match qAlloc agRx (some g) b with
  | (b, .ok u) => judgeRecord g u (padTo 64 l) (setBuf u l b)
  | (b, .error _) => b
/-- BACKUP: a record of the backup domain, or the value of its clock. -/
def presentBackup (p : List U8) (b : Block) : Block :=
  tamperMove (updBackup (fun x => { x with events := x.events ++ [padTo 8 p] }) b)
/-- POWER: the warning of a power failure, or its end. -/
def presentPower (p : List U8) (b : Block) : Block :=
  let b := { b with lsw := { b.lsw with vin := BitVec.ofNat 16 (natAt p 2 2) } }
  let b := onlyIf ((byteAt p 0).getLsbD 0) (powerFailWarning false) b
  onlyIf ((byteAt p 0).getLsbD 1) powerFailCleared b
/-- The effect of an item at its stamp. The contents of ADIE, CREEK and NFC items have no layout in the spec (log entry 35). -/
def itemPresent (i : List U8) (b : Block) : Block :=
  let p := itemBody i
  match itemClass i with
  | 2 => presentMet p b
  | 3 => presentMlk p b
  | 4 => { b with d2d := { b.d2d with payload := p } }
  | 5 => presentSafety p b
  | 6 => presentHost p b
  | 7 => presentRecord p b
  | 11 => presentBackup p b
  | 12 => lineWritten (if byteAt p 1 = 0 then .first else .failed) b
  | 13 => presentPower p b
  | 14 => updRpl (fun r => { r with checks := r.checks ++ [(itemStamp i, padTo 12 p)] }) b
  | 15 => replayEnd 2 b
  | 16 => updRpl (fun r => { r with results := r.results ++ [p] }) b
  | _ => b
/-- Compare the CHECK items whose boundary has come (R539): a mismatch ends replay with cause 4. -/
def checkCompare (b : Block) : Block :=
  let own := fun (t : U64) => b.rpl.own.find? fun e => e.1 == t
  match b.rpl.checks.find? fun c => match own c.1 with | some e => e.2 != c.2 | none => false with
  | some c => replayEnd 4 (updRpl (fun r => { r with diverge := c.1, checks := r.checks.filter fun x => x != c }) b)
  | none => updRpl (fun r => { r with checks := r.checks.filter fun c => (own c.1).isNone }) b
/-- Present the items that are due, in order. -/
def presentAux : Nat → Block → Block
  | 0, b => b
  | f + 1, b => if b.rpl.state ≠ 3 then b else match b.rpl.accepted with
    | [] => b
    | i :: r => if (itemStamp i).toNat ≤ (now b).toNat then presentAux f (itemPresent i (updRpl (fun x => { x with accepted := r }) b)) else b
/-- What of the trace is due now. -/
def presentDue (b : Block) : Block := if b.rpl.state = 3 then checkCompare (presentAux b.rpl.accepted.length b) else b
/-- TRACE_IN: the oldest record of the trace queue is taken; its bytes join the stream, whole items are accepted. -/
def traceIn (b : Block) : Block :=
  if b.rpl.state ≠ 3 then b
  else match qDequeue agDump b.rpl.queue.toNat b with
    | (b, .error _) => b
    | (b, .ok u) =>
      let l := bufBytes b u
      let b := (qFree agDump u b).1
      let b := if natAt l 0 2 = 0x1411 then updRpl (fun r => { r with input := r.input ++ slice l 8 (min 56 (natAt l 4 1)) }) b else b
      presentDue (acceptAux b.rpl.input.length b)
/-- REPLAY_STARVED: the next item has not been accepted. -/
def replayStarved (b : Block) : Block := if b.rpl.accepted = [] then replayEnd 3 b else b

/-! ### Commands (R550) -/

/-- REC_ARM: the setting is stored; a disarm ends a running recording with cause 1. -/
def recArm (m : Fin 4) (b : Block) : Block :=
  let arm := rBit b m 0 0
  checked m [(6, queueOk (rN b m 2 2) (!arm))] (fun b =>
    let b := updRpl (fun r => { r with recArmed := arm, armQueue := r16 b m 2 }) b
    let b := if arm then updRpl (fun r => { r with state := if r.state = 0 then 1 else r.state }) b
      else recordEnd 1 (updRpl (fun r => { r with state := if r.state = 1 then 0 else r.state }) b)
    ok m [] (saveSettings b)) b
/-- RPL_ARM (R537): a reset of DEVICE scope follows, into replay mode. The response carries the instant at which it acts. -/
def rplArm (m : Fin 4) (b : Block) : Block :=
  let q := rN b m 0 2
  checked m [(0x1402, strapReplay b.rst.choice.toNat), (6, queueOk q false), (0x1403, allSettled b), (0x0112, b.upd.pause.isNone)] (fun b =>
    let a := authorise m 4 (rN b m 2 2) b
    if !a.2 then refuse m 0x1404 a.1
    else
      let b := legalLog 0x0081 wDump (b64 (now b)) a.1
      let p : PendingReset := match b.rst.pending with
        | some p => { p with scope := .device, replay := some (BitVec.ofNat 16 q) }
        | none => { scope := .device, source := 5, startAt := ahead b tMs, command := now b, replay := some (BitVec.ofNat 16 q) }
      ok m (b64 (p.startAt + BitVec.ofNat 64 stopTicks)) (updRst (fun r => { r with pending := some p }) b)) b
/-- RPL_GET_STATUS. -/
def rplGetStatus (m : Fin 4) (b : Block) : Block :=
  ok m (b32 (rplStatusWord b.rpl) ++ b64 b.rpl.items ++ b32 b.rpl.lead ++ b64 b.rpl.diverge) b

/-- TRACE_OVERFLOW (R535). -/
def execTraceOverflow (s : State) : Result := s.run traceOverflow
/-- TRACE_IN (R538). -/
def execTraceIn (s : State) : Result := s.run traceIn
/-- REPLAY_STARVED (R540). -/
def execReplayStarved (s : State) : Result := s.run replayStarved
/-- REC_ARM (R535). -/
def execRecArm (m : Fin 4) (s : State) : Result := s.run (command m 0x1405 .sedge (recArm m))
/-- RPL_ARM (R537). -/
def execRplArm (m : Fin 4) (s : State) : Result := s.run (command m 0x1406 .carr (rplArm m))
/-- RPL_GET_STATUS (R550). -/
def execRplGetStatus (m : Fin 4) (s : State) : Result := s.run (command m 0x1407 .sedge (rplGetStatus m))

end Sys2Proof.Machine
end

