-- ==== Sys2Proof/Machine/Debug.lean ====
section
/-! DEFINITION. The JTAG port and debug access (20_recorder_replay.md R541 to R545). -/

namespace Sys2Proof.Machine

/-- Change the debug unit. -/
def updDbg (f : Debug → Debug) (b : Block) : Block := { b with dbg := f b.dbg }
/-- An instruction is loaded and its scan returns `out`. EXTEST no longer drives unless it is the instruction. -/
def scan (ir : Nat) (out : List U8) (b : Block) : Block :=
  updDbg (fun d => { d with ir := BitVec.ofNat 5 ir, tdo := out, pins := if ir = 3 then d.pins else [] }) b
/-- BYPASS, also for a code that is not available (DEDUCED, log entry 36): the single bit of the bypass register captures 0. -/
def bypassScan (b : Block) : Block := scan 0x1F [0] b
/-- An instruction that is available under `c`. -/
def availableIf (c : Bool) (f : Block → Block) (b : Block) : Block := if c then f b else bypassScan b
/-- Levels packed into bytes, the first in bit 0. -/
def bitBytes (l : List Bool) : List U8 := leBytes ((l.length + 7) / 8) (bitsNat l)
/-- The debug policy in force (R542). -/
def policyNow (b : Block) : Nat := debugPolicy b.rst.choice.toNat
/-- The scope granted now covers CONTROL. -/
def hasControl (b : Block) : Bool := b.dbg.scope == 2
/-- The scope granted now covers OBSERVE. -/
def hasObserve (b : Block) : Bool := b.dbg.scope == 1 || b.dbg.scope == 2

/-! ### Boundary scan (R541) -/

/-- The IDCODE. -/
def idcodeValue : U32 := 0x13296A6B
/-- SAMPLE/PRELOAD: the levels at the balls are captured. -/
def samplePreload (l : List Bool) (b : Block) : Block := scan 2 (bitBytes l) (updDbg (fun d => { d with boundary := l }) b)
/-- EXTEST: the balls are driven, in scope CONTROL while RESET_N holds the device in reset. -/
def extest (l : List Bool) (b : Block) : Block :=
  availableIf (hasControl b && b.rst.inReset && b.rst.pinLow)
    (fun b => scan 3 (bitBytes b.dbg.boundary) (updDbg (fun d => { d with boundary := l, pins := l }) b)) b

/-! ### Unlock (R542) -/

/-- Unlocking is possible: policy 1, the port not locked. -/
def unlockable (b : Block) : Bool := b.rst.strapLoaded && policyNow b == 1 && !b.dbg.locked
/-- DBG_CHALLENGE. -/
def dbgChallenge (b : Block) : Block :=
  availableIf (unlockable b) (fun b =>
    let r := draw 32 b
    let b := updDbg (fun d => { d with challenge := some (r.2, ahead r.1 90000000000) }) r.1
    scan 0x10 (r.2 ++ b64 b.key.serial) b) b
/-- DBG_CHALLENGE_EXPIRED: 60 s after its issue. -/
def challengeLapse (b : Block) : Block :=
  match b.dbg.challenge with
  | none => b
  | some (_, t) => atInstant t.toNat (updDbg fun d => { d with challenge := none }) b
/-- A failed response: source 489; the third locks the port. -/
def responseFail (b : Block) : Block :=
  irq 489 (updDbg (fun d => { d with failures := satInc d.failures, failRun := d.failRun + 1, locked := d.locked || decide (3 ≤ d.failRun + 1) }) b)
/-- A valid response: DEBUG_UNLOCK goes to the legal log, and the scope is granted once it is written. -/
def responseGood (scope : U8) (b : Block) : Block :=
  let seq := b.btn.legalNext + BitVec.ofNat 64 b.btn.legalWaiting.length
  legalLog 0x0080 wSedge [scope, BitVec.ofNat 8 (policyNow b)] (updDbg (fun d => { d with granting := some (scope.setWidth 2, seq) }) b)
/-- DBG_RESPONSE: the signature of slot 1 over challenge, serial and scope. -/
def dbgResponse (scope : U8) (sig : List U8) (b : Block) : Block :=
  availableIf (unlockable b) (fun b =>
    let good := match b.dbg.challenge with
      | some (c, t) => decide ((now b).toNat < t.toNat) && (scope == 1 || scope == 2) && verifySlot b 1 2 (c ++ b64 b.key.serial ++ [scope]) sig
      | none => false
    let b := scan 0x11 [] (updDbg (fun d => { d with challenge := none }) b)
    if good then responseGood scope b else responseFail b) b

/-! ### Access (R543, R544) -/

/-- Number of a memory. -/
def spaceCode : MemSpace → Nat
  | .sedge => 0 | .carr => 1 | .dyke => 2 | .creek => 3 | .lpddr => 4
/-- A memory has an address; the spec gives the size of Sedge's, Carr's and Dyke's memory. -/
def inSpace : MemSpace → Nat → Bool
  | .sedge, a => decide (a < 2097152) | .carr, a => decide (a < 524288) | .dyke, a => decide (a < 524288) | .creek, _ => true | .lpddr, _ => true
/-- A byte of a memory: what a debug access wrote there, else a free byte (log entry 32). -/
def memoryByte (b : Block) (x : MemSpace) (a : Nat) : U8 :=
  match b.dbg.written.find? fun w => w.1 == spaceCode x && w.2.1 == a with
  | some w => w.2.2
  | none => Config.memoryByte (spaceCode x) a b.dbg.accesses
/-- A line lies in KEYSTORE. -/
def inKeystore (n : Nat) : Bool := decide (55808 ≤ n ∧ n < 56832)
/-- The memory may be written in scope CONTROL; Carr's and Dyke's only under policy 2. -/
def spaceWritable (b : Block) : MemSpace → Bool
  | .carr => policyNow b == 2 | .dyke => policyNow b == 2 | _ => true
/-- One access of a scope that covers it; any other returns zeros and changes nothing. -/
def accessDo (op : DebugOp) (b : Block) : Block :=
  let out := fun l => scan 0x12 l
  match op with
  | .readWindow a => out (b32 (viewWord b a.toNat)) b
  | .writeWindow a words => if hasControl b && !b.rst.inReset && words != [] then out [] (writeFrame false true a.toNat words b) else out [] b
  | .readMemory x a =>
    if inSpace x a then out [memoryByte b x a] (updDbg (fun d => { d with accesses := d.accesses + 1 }) b) else out [0] b
  | .writeMemory x a v =>
    if hasControl b && spaceWritable b x && inSpace x a then
      out [] (updDbg (fun d => { d with written := (spaceCode x, a, v) :: d.written.filter fun w => !(w.1 == spaceCode x && w.2.1 == a) }) b)
    else out [] b
  | .readStore n => out (if inKeystore n.val then zeros 64 else Memory.readN b.pea.lines (64 * n.val) 64) b
  | .writeStore n l =>
    if hasControl b && policyNow b == 2 then
      out [] { b with pea := { b.pea with lines := Memory.writeN b.pea.lines (64 * n.val) (padTo 64 l) } }
    else out [] b
/-- DBG_ACCESS: in scope OBSERVE or CONTROL. -/
def dbgAccess (op : DebugOp) (b : Block) : Block := availableIf (hasObserve b) (accessDo op) b
/-- DBG_STATUS: always. -/
def dbgStatusScan (b : Block) : Block := scan 0x13 (b32 (dbgStatusWord b)) b

/-! ### Halt, step, resume, reset (R543, R545) -/

/-- Mark a core halted or not. -/
def setHalt (c : CoreId) (on : Bool) (d : Debug) : Debug :=
  match c with
  | .sedge => { d with haltSedge := on }
  | .carr => { d with haltCarr := on }
  | .dyke => { d with haltDyke := on }
  | .modem n => { d with haltCreek := if on then d.haltCreek ||| BitVec.ofNat 16 (2 ^ n.val) else d.haltCreek &&& ~~~(BitVec.ofNat 16 (2 ^ n.val)) }
/-- What the loss of a halted core brings (R17). A halted Carr keeps what it holds at the store. -/
def haltEffect (c : CoreId) (b : Block) : Block :=
  match c with
  | .sedge => loseSedge b
  | .carr => deviceFault .hub 3 (updRst (fun r => { r with carr := false }) b)
  | .dyke => loseDyke b
  | .modem n => updPlc n (fun x => { x with running := false }) (loseModem n b)
/-- The core halts: source 490. -/
def haltNow (c : CoreId) (b : Block) : Block := haltEffect c (irq 490 (updDbg (setHalt c true) b))
/-- Every low-side channel and interlock source is off. -/
def outputsOff (b : Block) : Bool := !b.saf.ilkClosed && allNodes.all fun n => !(lsOf b n).conducting
/-- A requested halt of Dyke acts once the outputs are off. -/
def haltStep (b : Block) : Block :=
  if b.dbg.haltWait && outputsOff b then haltNow .dyke (updDbg (fun d => { d with haltWait := false }) b) else b
/-- A halt request to Dyke: a hub safe stop without lock-out comes first while a low-side channel conducts or the hub permit
holds. -/
def haltDyke (b : Block) : Block :=
  let b := if b.saf.hubPermit || !outputsOff b then
      contain { cause := 0x20, scope := .hub, mode := .hubStop, base := 3, lock := false, reason := .deviceFault } b
    else b
  haltStep (updDbg (fun d => { d with haltWait := true }) b)
/-- DEBUG_HALT: in scope CONTROL, of a core that runs. -/
def debugHalt (c : CoreId) (b : Block) : Block :=
  if !hasControl b || !coreUp b c || coreHalted b c || b.rst.inReset then b
  else if c = .dyke then haltDyke b else haltNow c b
/-- The place of a core among the step counts. -/
def stepIndex : CoreId → Fin 4
  | .sedge => 0 | .carr => 1 | .dyke => 2 | .modem _ => 3
/-- DEBUG_STEP: a halted core executes one instruction of its program, which the spec does not give. -/
def debugStep (c : CoreId) (b : Block) : Block :=
  if hasControl b && coreHalted b c then updDbg (fun d => { d with steps := vupd d.steps (stepIndex c) (· + 1) }) b else b
/-- DEBUG_RESUME: source 491. -/
def debugResume (c : CoreId) (b : Block) : Block :=
  if hasControl b && coreHalted b c && !b.rst.inReset then irq 491 (coreAgain c 0 (updDbg (setHalt c false) b)) else b
/-- DEBUG_RESET_REQUEST (R489): of HUB scope, whose stop sequence starts at the request, or of CORE scope. -/
def debugReset (hub : Bool) (c : CoreId) (b : Block) : Block :=
  if !hasControl b || b.rst.inReset then b
  else if hub then
    (match b.rst.pending with
     | some _ => b
     | none => stopStart { scope := .hub, source := 6, startAt := now b, command := now b } b)
  else coreRestart 6 c (updDbg (setHalt c false) b)

/-- IDCODE (R541). -/
def execIdcode (s : State) : Result := s.run (scan 1 (b32 idcodeValue))
/-- SAMPLE_PRELOAD (R541). -/
def execSamplePreload (pins : List Bool) (s : State) : Result := s.run (samplePreload pins)
/-- EXTEST (R541). -/
def execExtest (pins : List Bool) (s : State) : Result := s.run (extest pins)
/-- DBG_CHALLENGE (R542). -/
def execDbgChallenge (s : State) : Result := s.run dbgChallenge
/-- DBG_RESPONSE (R542). -/
def execDbgResponse (scope : U8) (signature : List U8) (s : State) : Result := s.run (dbgResponse scope signature)
/-- DBG_CHALLENGE_EXPIRED (R542). -/
def execDbgChallengeExpired (s : State) : Result := s.run challengeLapse
/-- DBG_ACCESS (R543). -/
def execDbgAccess (op : DebugOp) (s : State) : Result := s.run (dbgAccess op)
/-- DBG_STATUS_SCAN (R541). -/
def execDbgStatusScan (s : State) : Result := s.run dbgStatusScan
/-- BYPASS (R541). -/
def execBypass (s : State) : Result := s.run bypassScan
/-- DEBUG_HALT (R545). -/
def execDebugHalt (core : CoreId) (s : State) : Result := s.run (debugHalt core)
/-- DEBUG_STEP (R543). -/
def execDebugStep (core : CoreId) (s : State) : Result := s.run (debugStep core)
/-- DEBUG_RESUME (R545). -/
def execDebugResume (core : CoreId) (s : State) : Result := s.run (debugResume core)
/-- DEBUG_RESET_REQUEST (R489). -/
def execDebugResetRequest (hub : Bool) (core : CoreId) (s : State) : Result := s.run (debugReset hub core)

end Sys2Proof.Machine
end

