-- ==== Sys2Proof/Machine/Dump.lean ====
section
/-! DEFINITION. Fatal errors and the dump: what the device does, the region, its export, and the commands (20_recorder_replay.md R530 to
R533, R550). -/

namespace Sys2Proof.Machine

/-- Change the dump state. -/
def updDmp (f : Dump → Dump) (b : Block) : Block := { b with dmp := f b.dmp }

/-! ### A fatal error (R531) -/

/-- A dump is held, being written, or to be written: a further fatal error writes none. -/
def dumpHeld (d : Dump) : Bool := d.state != 0 || d.fatalAt.isSome
/-- The freeze of the dump (R339): Carr, Brine and Bittern exempt; a power-fail freeze stands. -/
def dumpFreeze (b : Block) : Block :=
  if b.arb.byPowerFail then b else drainCheck (updArb (fun a => { a with byDump := true }) (setFreeze 7 b))
/-- What the header keeps of the error (R532). -/
def fatalNote (cause : U16) (b : Block) : Block :=
  updDmp (fun d => { d with
    fatalAt := some (now b), cause := cause, tide := now b
    image := { serial := b.key.serial, tide := now b, rtc := b.backup.rtc, seqs := b.upd.images.toList.map fun i => i.sequence.setWidth 32 } }) b
/-- The device acts on a fatal error: its log entry, source 480, every session stops with DEVICE_FAULT at L3, no admission until the
next reset; then the dump, or source 482 when one is held. -/
def fatalAct (cause : U16) (b : Block) : Block :=
  let b := irq 480 (legalLog 0x0082 wDump (b16 cause) b)
  let b := deviceFault .hub 3 (updDmp (fun d => { d with fatal := true }) b)
  if dumpHeld b.dmp then irq 482 (updDmp (fun d => { d with lost := satInc d.lost }) b)
  else fatalNote cause (dumpFreeze b)
/-- FATAL_ERROR: the oldest fatal error found. -/
def fatalError (b : Block) : Block :=
  match b.dmp.raised with
  | [] => b
  | c :: r => fatalAct c (updDmp (fun d => { d with raised := r }) b)

/-! ### Writing the dump -/

/-- The entries armed in the launcher, by ring. -/
def armedEntries (b : Block) : List (List U8) :=
  b.lau.rings.flatMap fun e => (e.2.chain.filter RingItem.isArmed).map fun i => entryBytes i.entry
/-- The store without its KEYSTORE partition. -/
def dumpedStore (m : Memory) : Memory := m.filter fun e => !decide (64 * 55808 ≤ e.1 ∧ e.1 < 64 * 56832)
/-- The dump engine copies what it writes: the window, the queues, the record SRAM, the store, the armed entries, the staging ring. -/
def takeDump (b : Block) : Block :=
  updDmp (fun d => { d with image := { d.image with
    window := (List.range 0x2400).map (windowWord b), queues := b.qmg.queues, sram := b.qmg.sram, peat := dumpedStore b.pea.lines
    armed := armedEntries b, staging := (List.range 65536).map fun k => padTo 64 (sget [] b.btn.ring k) } }) b
/-- The dump may start before its 180 ms: every node is open and verified. -/
def allOpen (b : Block) : Bool := allNodes.all fun n => (nodeOf b n).openVerified
/-- The core that starts the dump runs: Sedge, or Dyke when Sedge is lost. -/
def dumpCore (b : Block) : Bool := if b.dmp.cause = 4 then b.rst.dyke else b.rst.sedge
/-- The dump begins. -/
def dumpBegin (b : Block) : Block :=
  let b := takeDump b
  updDmp (fun d => { d with state := 1, exported := false, fatalAt := none, started := now b }) b
/-- DUMP_START: once every node is open and verified, or 270,000,000 ticks after the error. -/
def dumpStart (b : Block) : Block :=
  match b.dmp.fatalAt with
  | none => b
  | some t => if !dumpCore b then b else if allOpen b then dumpBegin b else afterTicks t 270000000 dumpBegin b
/-- DUMP_COMPLETE: VALID, source 481; the dump freeze ends. -/
def dumpComplete (b : Block) : Block :=
  if b.dmp.state = 1 then
    let b := irq 481 (updDmp (fun d => { d with state := 2 }) b)
    onlyIf b.arb.byDump liftFreeze b
  else b

/-! ### The region (R532) -/

/-- The sections: number, offset and length. -/
def dumpSections : List (Nat × Nat × Nat) :=
  [ (1, 4096, 36864), (2, 40960, 524288), (3, 565248, 8388608), (4, 8953856, 2097152), (5, 11051008, 24576), (6, 11075584, 524288)
  , (7, 11599872, 524288), (8, 12124160, 4128768), (9, 16252928, 262144), (10, 16515072, 4194304) ]
/-- End of the last section. -/
def dumpEnd : Nat := 20709376
/-- A buffer in a descriptor: its number and the valid bit (R457). -/
def bufferField (o : Option Nat) : List U8 := match o with | some u => leBytes 3 (u + 2 ^ 17) | none => zeros 3
/-- The 16-byte descriptor of queue `q` (R457). -/
def descriptorBytes (q : Nat) (d : Queue) : List U8 :=
  bufferField d.bufs.head? ++ [BitVec.ofNat 8 (bitsNat [decide (q < 1024), d.inbound, d.enabled, d.dropOldest, d.lost])] ++
    bufferField d.bufs.getLast? ++ [d.consumer] ++ leBytes 2 d.bufs.length ++ b16 d.limit ++
    [if q < 2048 then 0xFF else BitVec.ofNat 8 d.group.toNat, 0] ++ b16 d.nextSeq
/-- The logical line of the `k`-th line of section 8. -/
def dumpedLine (k : Nat) : Nat := if k < 55808 then k else k + 1024
/-- Byte `o` of section `s`. The core memories are what the firmware left there (log entry 32). -/
def sectionByte (d : Dump) (s o : Nat) : U8 :=
  let x := d.image
  match s with
  | 1 => byteAt (b32 (x.window.getD (o / 4) 0)) (o % 4)
  | 2 => byteAt (descriptorBytes (o / 16) (sget queue0 x.queues (o / 16))) (o % 16)
  | 3 => x.sram.read o
  | 8 => x.peat.read (64 * dumpedLine (o / 64) + o % 64)
  | 9 => byteAt (x.armed.getD (o / 64) []) (o % 64)
  | 10 => byteAt (x.staging.getD (o / 64) []) (o % 64)
  | _ => Config.coreByte d.tide.toNat s o
/-- The check value of a section. -/
def sectionCrc (d : Dump) (s n : Nat) : U32 := crc32c ((List.range n).map (sectionByte d s))
/-- An entry of the table: the sizes given sum to 16 with one byte for the section (DEDUCED, log entry 33). -/
def tableEntry (d : Dump) (e : Nat × Nat × Nat) : List U8 :=
  [BitVec.ofNat 8 e.1] ++ leBytes 4 e.2.1 ++ leBytes 4 e.2.2 ++ b32 (sectionCrc d e.1 e.2.2) ++ zeros 3
/-- Header bytes 0 to 223. -/
def headerBody (d : Dump) : List U8 :=
  let x := d.image
  leBytes 4 0x4C4B4450 ++ [1, 10] ++ b16 d.cause ++ b64 x.serial ++ b64 x.tide ++ b64 x.rtc ++ b32s ((x.seqs ++ [0, 0, 0, 0]).take 4) ++
    [d.state.setWidth 8] ++ zeros 15 ++ dumpSections.flatMap (tableEntry d)
/-- Header bytes 0 to 227; an EMPTY region and one being written show none. -/
def dumpHeader (d : Dump) : List U8 :=
  if d.state.toNat < 2 then zeros 228
  else
    let l := headerBody d
    l ++ b32 (crc32c l)
/-- Byte `o` of the region. -/
def regionByte (d : Dump) (header : List U8) (o : Nat) : U8 :=
  if o < 4096 then byteAt header o
  else match dumpSections.find? fun e => decide (e.2.1 ≤ o ∧ o < e.2.1 + e.2.2) with
    | some e => sectionByte d e.1 (o - e.2.1)
    | none => 0

/-! ### Export (R533) -/

/-- The DUMP record at offset `o`. -/
def dumpRecord (d : Dump) (header : List U8) (o : Nat) : List U8 :=
  let n := min 56 (dumpEnd - o)
  mkRecord 0x1401 n 0 ((List.range n).map fun k => regionByte d header (o + k))
/-- Write records until one is refused; at the end the command is answered. -/
def exportAux (header : List U8) : Nat → Block → Block
  | 0, b => b
  | f + 1, b =>
    match b.dmp.exporting with
    | none => b
    | some x =>
      if dumpEnd ≤ x.offset then
        ok x.mbx (b32 x.count) (updDmp (fun d => { d with exporting := none, exported := true }) b)
      else match sendRecord agDump x.queue.toNat (dumpRecord b.dmp header x.offset) b with
        | (b, .ok _) => exportAux header f (updDmp (fun d => { d with exporting := some { x with offset := x.offset + 56, count := x.count + 1 } }) b)
        | (b, .error _) => b
/-- The export goes on (R533); a record refused is written again later. -/
def exportStep (b : Block) : Block := if b.dmp.exporting.isSome then exportAux (dumpHeader b.dmp) (dumpEnd / 56 + 2) b else b

/-! ### Commands (R550) -/

/-- A dump is being written or exported. -/
def dumpBusy (d : Dump) : Bool := d.state == 1 || d.exporting.isSome
/-- DMP_GET_STATUS. -/
def dmpGetStatus (m : Fin 4) (b : Block) : Block := ok m (b32 (dmpStatWord b.dmp) ++ b64 b.dmp.tide ++ dumpHeader b.dmp) b
/-- DMP_EXPORT. -/
def dmpExport (m : Fin 4) (b : Block) : Block :=
  if b.dmp.exporting.isSome && (match b.dmp.exporting with | some x => x.mbx == m | none => false) then b
  else
    checked m [(6, queueOk (rN b m 0 2) false), (0x1401, b.dmp.state != 0), (0x1405, !dumpBusy b.dmp)] (fun b =>
      exportStep (updDmp (fun d => { d with exporting := some { queue := r16 b m 0, mbx := m } }) b)) b
/-- DMP_RELEASE. -/
def dmpRelease (m : Fin 4) (b : Block) : Block :=
  checked m [(0x1401, b.dmp.state != 0), (0x1405, !dumpBusy b.dmp)] (fun b =>
    ok m [] (updDmp (fun d => { d with state := 0, exported := false, image := {} }) b)) b
/-- DMP_TRIGGER. -/
def dmpTrigger (m : Fin 4) (b : Block) : Block :=
  let a := authorise m 4 (rN b m 0 2) b
  if a.2 then ok m [] (raiseFatal 5 a.1) else refuse m 0x1404 a.1

/-- FATAL_ERROR (R531). -/
def execFatalError (s : State) : Result := s.run fatalError
/-- DUMP_START (R531). -/
def execDumpStart (s : State) : Result := s.run dumpStart
/-- DUMP_COMPLETE (R531). -/
def execDumpComplete (s : State) : Result := s.run dumpComplete
/-- DMP_GET_STATUS (R550). -/
def execDmpGetStatus (m : Fin 4) (s : State) : Result := s.run (command m 0x1401 .sedge (dmpGetStatus m))
/-- DMP_EXPORT (R533). -/
def execDmpExport (m : Fin 4) (s : State) : Result := s.run (command m 0x1402 .sedge (dmpExport m))
/-- DMP_RELEASE (R533). -/
def execDmpRelease (m : Fin 4) (s : State) : Result := s.run (command m 0x1403 .sedge (dmpRelease m))
/-- DMP_TRIGGER (R530). -/
def execDmpTrigger (m : Fin 4) (s : State) : Result := s.run (command m 0x1404 .carr (dmpTrigger m))

end Sys2Proof.Machine
end

