-- ==== Sys2Proof/Machine/Fire.lean ====
section
/-! DEFINITION. Ring entries at the launcher and at their fire tick (02_tide.md R49 to R56, R579; 03_fabric_crossings.md R71), the cycle of the
module link that takes them (07_module_link.md R166), with
the effect of each action on its target unit. -/

namespace Sys2Proof.Machine

/-! ### Snapshots (R55, R56, R455) -/

/-- The device as the latches of the present tick see it (R15): nothing published, received or launched at this tick. -/
def latchView (b : Block) : Block :=
  { b with met := b.prior.met, mlk := b.prior.mlk, veh := b.prior.veh, saf := b.prior.saf, lsw := b.prior.lsw }
/-- What a snapshot of the device `b` latches at `t`: samples, telemetry, pilots and switches (R55). -/
def snapLatch (b : Block) (t : U64) (seq : U8) : SnapBank where
  seq := seq
  instant := t
  samples := b.met.chans.toList.map fun c => (c.value, b.met.stamp)
  settled := b.met.chans.toList.map (·.settled)
  modules := b.mlk.modules.toList.map fun m => { record := if m.everOk then m.record else [], stamp := m.stamp }
  pilots := b.veh.toList.map fun v => (cpStatWord b v, ppWord v)
  highSide := b.lsw.hs.toList.map (hsStatWord b)
  lowSide := allNodes.map (lsStatWord b)
/-- A snapshot into bank `k` of the state `b0`. -/
def snapshotTake (k : Fin 4) (t : U64) (b0 b : Block) : Block := { b with snaps := vupd b.snaps k fun s => snapLatch (latchView b0) t (s.seq + 1) }
/-- Age of a module's telemetry in link cycles, saturating; 255 for a module never heard. -/
def snapAge (k : SnapBank) (x : SnapModule) : U8 :=
  if x.record = [] then 255 else BitVec.ofNat 8 (min 255 ((k.instant.toNat - x.stamp.toNat) / tCycle))
/-- The 48 data bytes of each of the 29 parts of an export. -/
def snapParts (i : Fin 4) (k : SnapBank) : List (List U8) :=
  let stamp := match k.samples with | x :: _ => x.2 | [] => 0
  [b64 k.instant ++ [BitVec.ofNat 8 i.val, k.seq] ++ b64 stamp] ++ chunks 48 (k.samples.flatMap fun x => b32 x.1) ++
    chunks 48 (k.modules.flatMap fun x => padTo 8 x.record) ++ chunks 48 (k.modules.map (snapAge k)) ++
    [k.pilots.flatMap fun x => [x.1.setWidth 8, BitVec.ofNat 8 (x.2.toNat / 65536)]] ++ chunks 48 ((k.highSide ++ k.lowSide).flatMap b32)
/-- The SNAPSHOT records of a bank. -/
def snapRecords (i : Fin 4) (k : SnapBank) : List (List U8) :=
  let ps := snapParts i k
  (ps.zip (List.range ps.length)).map fun e => mkRecord 0x0205 56 0 ([BitVec.ofNat 8 e.2, 29] ++ zeros 6 ++ padTo 48 e.1)
/-- TIDE_SNAPSHOT of mailbox `m` answers once its entry has resolved (R62); an export waits until the bank is readable (R55). -/
def snapshotAnswer (m : Fin 4) (e : Entry) (s : U8) (b : Block) : Block :=
  if s = stFired then
    let i : Fin 4 := ⟨e.slot.toNat % 4, Nat.mod_lt _ (by decide)⟩
    let q := rN b m 2 2
    if q = 0xFFFF then ok m (b64 e.time ++ [(vget b.snaps i).seq]) b
    else { b with lau := { b.lau with exports := b.lau.exports ++ [(m, e)] } }
  else respond m 0x0208 [s] b

/-- The bank of a snapshot is readable (R55, R57): its records go to the queue that mailbox `m` named, and the mailbox answers. -/
def snapExport (x : Fin 4 × Entry) (b : Block) : Block :=
  let i : Fin 4 := ⟨x.2.slot.toNat % 4, Nat.mod_lt _ (by decide)⟩
  let k := vget b.snaps i
  let r := sendRecords agMet (rN b x.1 2 2) (snapRecords i k) b
  if r.2 then ok x.1 (b64 k.instant ++ [k.seq]) r.1 else refuse x.1 0x0F04 r.1
/-- Ticks from a snapshot until its bank is readable (R57). -/
def snapReadable : Nat := 1500
/-- The exports whose bank is readable now. -/
def snapExports (b : Block) : Block :=
  let due := fun (x : Fin 4 × Entry) => passed b x.2.time snapReadable
  forAll (b.lau.exports.filter due) snapExport { b with lau := { b.lau with exports := b.lau.exports.filter fun x => !due x } }

/-! ### Correction tables (R98) -/

/-- ACTIVATE fires at `a`: the staged table becomes the active one. -/
def tableActivate (c : Fin 48) (a : U64) (b : Block) : Block :=
  let x := chanOf b c
  match x.staged with
  | none => b
  | some t =>
    let b := updChan c (fun x => { x with before := some (x.active, a), active := t, staged := none }) b
    let b := { b with met := { b.met with tableCrc := allTablesCrc b } }
    saveLegalConfig (irq 67 (legalLog 0x0011 wCarr ([BitVec.ofNat 8 c.val, 0, 0, 0] ++ b32 (tableCrc x.active) ++ b32 (tableCrc t) ++ zeros 4 ++ b64 a) b))
/-- Channels whose table was switched at `a`. -/
def switchedAt (b : Block) (a : U64) : Nat :=
  bitsNat (b.met.chans.toList.map fun x => match x.before with | some (_, t) => t == a | none => false)
/-- MET_ACTIVATE_TABLE answers once the last of its entries has resolved (R108). -/
def activateAnswer (m : Fin 4) (e : Entry) (b : Block) : Block :=
  let mine := fun (x : Entry) => x.tag == e.tag
  if ringHas b 513 mine then b else ok m (leBytes 8 (Nat.land (switchedAt b e.time) (rN b m 0 8)) ++ b64 e.time) b

/-! ### Saltern's boundaries (R354 to R357) -/

/-- BOUNDARY fires at `a`: tariff, calendar, interval length; the closing waits for the sample of that instant. An entry that no
longer is planned has no effect (log entry 13). -/
def boundaryFire (a : U64) (b : Block) : Block :=
  match b.slt.planned.find? fun x => x.sent && x.time == a with
  | none => b
  | some x =>
    let act := x.mask.getLsbD 2 && b.slt.calPassive != []
    let ends := x.mask.getLsbD 1 || act
    let c := b.slt.calPassive
    let b := if x.mask.getLsbD 0 || act then switchTariff a (if x.mask.getLsbD 0 then x.tariff else b.slt.tariff) b else b
    let b := if act then
        saveLegalConfig (irq 418 (legalLog 0x0020 wCarr ([2, 0, 0, 0] ++ slice c 4 12)
          (updSlt (fun s => { s with calActive := c, calPassive := [] }) b)))
      else b
    let b := if ends then noteClosing { stamp := a, interval := true, activated := act, late := x.late } b else b
    let b := if ends then updSlt (fun s => { s with interval := s.pendingInterval.getD s.interval, pendingInterval := none }) b else b
    replan b

/-! ### Insulation drive (R239) -/

/-- Another node's driver is connected to a rail at the present instant. -/
def otherDriver (b : Block) (n : Fin 16) : Bool :=
  allNodes.any fun k => k != n && (imdOf b k).driver != 0 && decide ((now b).toNat < (imdOf b k).driverUntil.toNat)
/-- The A die's three conditions for DRIVE. -/
def driveMay (b : Block) (n : Fin 16) (e : Entry) : Bool :=
  let p := periodAt b.imdG e.time.toNat
  let L := cycleLen p
  let o := n.val * (L / 16)
  decide (o ≤ e.time.toNat) && (e.time.toNat - o) % L == 0 && e.arg 0 1 == (if polarity p e.time.toNat then 1 else 2) && !otherDriver b n
/-- DRIVE fires: the driver is on its rail for the injection length; the slot has its current. -/
def driveFire (n : Fin 16) (e : Entry) (b : Block) : Block :=
  updImd n (fun x => { x with
    driver := BitVec.ofNat 2 (e.arg 0 1), driverUntil := e.time + BitVec.ofNat 64 (injLen (periodAt b.imdG e.time.toNat))
    slots := x.slots.map fun y => if y.start = e.time then { y with fired := true } else y }) b

/-! ### Deciding and firing -/

/-- The node in payload byte `o`. -/
def Entry.nodeArg (e : Entry) (o : Nat) : Fin 16 := ⟨e.arg o 1 % 16, Nat.mod_lt _ (by decide)⟩
/-- The slot as one of `n` instances. -/
def Entry.slotOf (e : Entry) (n : Nat) (h : 0 < n) : Fin n := ⟨e.slot.toNat % n, Nat.mod_lt _ h⟩
/-- The entry's module. -/
def Entry.module (e : Entry) : Fin 96 := e.slotOf 96 (by decide)
/-- The entry's high-side channel. -/
def Entry.switch (e : Entry) : Fin 40 := e.slotOf 40 (by decide)
/-- The entry's node or connector. -/
def Entry.node (e : Entry) : Fin 16 := e.slotOf 16 (by decide)
/-- The preconditions that a target adds to the guard; when they fail the entry resolves GUARD_FAIL (R183, R239, R291). -/
def targetMay (b : Block) (e : Entry) : Bool :=
  match e.target.toNat with
  | 1 => e.action == 1 || mlkMay e.action.toNat e.module b
  | 2 => if e.action = 1 then hsMayOn b e.switch else if e.action = 3 then (hsOf b e.switch).mode == 1 else true
  | 4 => driveMay b e.node e
  | _ => true
/-- The effect of an action that fires; `b0` is the state that the latches of the tick see (R15). -/
def targetFire (b0 : Block) (e : Entry) (b : Block) : Block :=
  match e.target.toNat with
  | 1 =>
    if e.action = 1 then mlkSetpoint (modLane e.module) e b
    else if e.action = 2 then mlkOpen e.module b
    else if e.action = 3 then mlkMatch e.module (e.nodeArg 0) b
    else mlkClose e.module (e.nodeArg 0) b
  | 2 =>
    if e.action = 1 then hsTurnOn e.switch b
    else if e.action = 2 then hsTurnOff e.switch b
    else hsSetDuty e.switch (e.arg 0 2) b
  | 3 => pilotDuty e.node (e.arg 0 2) b
  | 4 => driveFire e.node e b
  | 5 => snapshotTake (e.slotOf 4 (by decide)) e.time b0 b
  | 6 => armCapture e e.time b
  | 7 => boundaryFire e.time b
  | 8 => tableActivate (e.slotOf 48 (by decide)) e.time b
  | _ => b

/-- The writer of ring `r` learns how its entry resolved. -/
def resolvedHook (r : Nat) (e : Entry) (s : U8) (t : U64) (b : Block) : Block :=
  if r < 128 then sluResolved r e s t b
  else if r = 128 then (if s = stFired then b else dutyLost e.node b)
  else if r = 129 then (if e.action = 1 ∧ s ≠ stFired then lockEntryLost e.slot.toNat b else b)
  else if r = 130 then
    (if h : 1 ≤ e.tag.toNat ∧ e.tag.toNat ≤ 4 then ok ⟨e.tag.toNat - 1, by omega⟩ (b64 e.time ++ [s]) b else b)
  else if r = 131 then (if h : e.tag.toNat < 4 then snapshotAnswer ⟨e.tag.toNat, h⟩ e s b else b)
  else if r = 132 then (if s = stCollision then rearmCapture e b else b)
  else if r = 160 then driveFeed b
  else if r = 512 then (if s = stFired ∨ s = stCollision ∨ s = stCancelled then b else boundaryLost e.time b)
  else if r = 513 then
    (if h : 16 ≤ e.tag.toNat ∧ e.tag.toNat < 20 then activateAnswer ⟨e.tag.toNat - 16, by omega⟩ e b else b)
  else b
/-- An entry resolves: it is counted, its buffer passed on (R54), and its writer learns of it. -/
def entryResolve (r : Nat) (i : RingItem) (s : U8) (t : U64) (b : Block) : Block := resolvedHook r i.entry s t (resolveItem r i s t b)

/-- The item is kept only as the entry before its successor. -/
def RingItem.isDone (i : RingItem) : Bool := match i.phase with | .done _ => true | _ => false
/-- The item of ring `r` that holds buffer `u`, with its place. -/
def itemAt (b : Block) (r u : Nat) : Option (Nat × RingItem) :=
  let l := (ringOf b r).chain
  match (l.zip (List.range l.length)).find? fun x => x.1.buf == u && !x.1.isDone with
  | some x => some (x.2, x.1)
  | none => none
/-- Items of all rings in ascending ring number, and in ring order. -/
def ringItems (b : Block) (p : RingItem → Bool) : List (Nat × RingItem) :=
  b.lau.rings.flatMap fun g => (g.2.chain.filter p).map fun i => (g.1, i)
/-- The least time of some items. -/
def leastTime (l : List (Nat × RingItem)) : Option U64 :=
  l.foldl (fun a i => match a with | some t => some (if i.2.entry.time.toNat < t.toNat then i.2.entry.time else t) | none => some i.2.entry.time) none
/-- Item `i` of ring `r` names the target and slot of an item before it in `due` (R52). -/
def loses (due : List (Nat × RingItem)) (u : Nat) : Bool :=
  let i := due.find? fun x => x.2.buf == u
  let before := due.takeWhile fun x => x.2.buf != u
  match i with
  | some x => before.any fun y => y.2.entry.target == x.2.entry.target && y.2.entry.slot == x.2.entry.slot
  | none => false
/-- How an armed entry resolves at its time (R51, R52, R71): a lost A-die action is LATE, collision is decided first, then the
dependency, then the guard and the target's own conditions. -/
def decideEntry (b0 : Block) (lost loser : Bool) (r k : Nat) (e : Entry) (b : Block) : U8 :=
  if lost && onAdie e then stLate
  else if loser then stCollision
  else if e.dependent && !beforeFired (ringOf b r) k then stSkipped
  else if (e.guarded && !guardHolds b0 e) || !(targetMay b0 e && targetMay b e) then stGuardFail
  else stFired
/-- One due entry is decided and, when it fires, acts. An entry for the A die waits for that die's result (R54). -/
def fireOne (b0 : Block) (lost second : Bool) (due : List (Nat × RingItem)) (x : Nat × RingItem) (b : Block) : Block :=
  match itemAt b x.1 x.2.buf with
  | none => b
  | some (k, i) =>
    if !i.isArmed then b
    else
      let e := i.entry
      let s := decideEntry b0 lost (loses due i.buf) x.1 k e b
      let b := setItem x.1 k (fun i => { i with phase := if onAdie e then .decided s else .done s }) b
      let b := if s = stFired ∧ onAdie e ∧ second then { b with d2d := { b.d2d with secondCopy := satInc b.d2d.secondCopy } } else b
      let b := if s = stFired then targetFire b0 e b else b
      if onAdie e then b else entryResolve x.1 i s e.time b
/-- Every entry due at `t` (R52). `first` and `second` tell whether the die-to-die frames that carried the two copies of the actions
of `t` arrived with a valid CRC (R71). -/
def fireDue (due : List (Nat × RingItem)) (first second : Bool) (b : Block) : Block :=
  forAll (due.map (·.1)) trimRing (forAll due (fireOne b (!first && !second) (!first && second) due) b)
/-- The entries of instant `t`, of every ring. -/
def fireAt (t : U64) (first second : Bool) (b : Block) : Block := fireDue (ringItems b fun i => i.isArmed && i.entry.time == t) first second b
/-- The launcher works (R38, R59). -/
def launcherRuns (b : Block) : Bool := b.tide.running && b.tide.ready && !b.tide.lost
/-- ENTRY_FIRE: the next armed instant. -/
def entryFire (first second : Bool) (b : Block) : Block :=
  match leastTime (ringItems b RingItem.isArmed) with
  | none => b
  | some t => if launcherRuns b then atInstant t.toNat (fireAt t first second) b else b

/-- Sluice's entries of the present instant, the only ones that may name the module link (R48), come before the downlink frame of that
instant, in which they act (R181). -/
def fireLink (b : Block) : Block :=
  if launcherRuns b then fireDue ((ringItems b fun i => i.isArmed && i.entry.time == now b).filter fun x => decide (x.1 < 128)) true true b else b
/-- MLK_CYCLE (R166): at every multiple of 60,000 the sequencer starts the cycle of every lane. -/
def mlkCycle (readback : BitVec 8) (b : Block) : Block :=
  atInstant (nextMultiple tCycle (some b.mlk.cycle) b) (fun b => linkCycle readback (fireLink b)) b

/-- An item waits for the A die's result. -/
def RingItem.isDecided (i : RingItem) : Bool := match i.phase with | .decided _ => true | _ => false
/-- The launcher writes the status of one decided entry and passes its buffer on. -/
def adieOne (x : Nat × RingItem) (b : Block) : Block :=
  match itemAt b x.1 x.2.buf with
  | some (k, { buf := u, entry := e, phase := .decided s, cut := c }) =>
    entryResolve x.1 { buf := u, entry := e, phase := .done s, cut := c } s e.time (setItem x.1 k (fun i => { i with phase := .done s }) b)
  | _ => b
/-- ADIE_RESULT (R71): the results of one frame, which starts at or after the fire tick and arrives 24 ticks later (R70). -/
def adieResult (b : Block) : Block :=
  match leastTime (ringItems b RingItem.isDecided) with
  | none => b
  | some t =>
    let f := multipleFrom 16 t.toNat
    atInstant (f + 24) (fun b =>
      let l := ringItems b fun i => i.isDecided && decide (i.entry.time.toNat ≤ f)
      forAll (l.map (·.1)) trimRing (forAll l adieOne b)) b

/-! ### Taking an entry (R49) -/

/-- How an entry resolves when the launcher takes it; none when it is armed. -/
def takeDecide (r : Nat) (before : Option U64) (e : Entry) (b : Block) : Option U8 :=
  if !entryFormed e then some stMalformed
  else if !entryAllowed r e then some stDenied
  else if (match before with | some t => decide (e.time.toNat < t.toNat) | none => false) then some stOrder
  else if e.time.toNat < (now b).toNat + armLead e then some stLate
  else none
/-- The launcher takes the entry in buffer `u` of ring `r`. -/
def takeItem (r u : Nat) (b : Block) : Block :=
  let g := ringOf b r
  let e := entryOf (bufBytes b u)
  let note := g.notes.find? fun n => n.1 == u
  let i : RingItem := { buf := u, entry := e, cut := note.map (·.2) }
  let s := takeDecide r (timeBefore g u) e b
  let i := match s with | some s => { i with phase := .done s } | none => i
  let b := setRing r { g with chain := g.chain ++ [i], notes := g.notes.filter fun n => n.1 != u } b
  match s with
  | some s => trimRing r (entryResolve r i s (now b) b)
  | none => { b with lau := { b.lau with armedPeak := if b.lau.armedPeak.toNat < armedCount b then BitVec.ofNat 13 (armedCount b) else b.lau.armedPeak } }
/-- LAUNCHER_TAKE_ENTRY: the next entry of ring `r`, unless 8 entries of the ring or 4,096 in all are armed (R50). -/
def takeEntry (r : Nat) (b : Block) : Block :=
  if !launcherRuns b ∨ 8 ≤ (ringOf b r).armed ∨ 4096 ≤ armedCount b then b
  else match qDequeue agLauncher r b with
    | (b, .ok u) => takeItem r u b
    | (b, .error _) => b

/-- LAUNCHER_TAKE_ENTRY (R49). -/
def execLauncherTakeEntry (r : Fin 1024) (s : State) : Result := s.run (takeEntry r.val)
/-- MLK_CYCLE (R166). -/
def execMlkCycle (readback : BitVec 8) (s : State) : Result := s.run (mlkCycle readback)
/-- ENTRY_FIRE (R52). -/
def execEntryFire (first second : Bool) (s : State) : Result := s.run (entryFire first second)
/-- ADIE_RESULT (R71). -/
def execAdieResult (s : State) : Result := s.run adieResult

end Sys2Proof.Machine
end

