-- ==== Sys2Proof/Machine/Dispatch.lean ====
section
/-! DEFINITION. The dispatcher: one arm for each command, one meaning for each arm. -/

namespace Sys2Proof.Machine

/-- The meaning of a command, on everything but the queue of waiting commands. -/
def exec (i : Instr) (s : State) : Host.Outcome State Fault Refusal :=
  match i with
  | .sampleInstant codes => Sys2Proof.Machine.execSampleInstant codes s
  | .metrologyPublish => Sys2Proof.Machine.execMetrologyPublish s
  | .zcSyncLost k => Sys2Proof.Machine.execZcSyncLost k s
  | .segmentBlockEnd ac => Sys2Proof.Machine.execSegmentBlockEnd ac s
  | .modulatorFault c => Sys2Proof.Machine.execModulatorFault c s
  | .modulatorFaultClear c => Sys2Proof.Machine.execModulatorFaultClear c s
  | .channelSettled c => Sys2Proof.Machine.execChannelSettled c s
  | .salternApply => Sys2Proof.Machine.execSalternApply s
  | .brinePublish => Sys2Proof.Machine.execBrinePublish s
  | .engineComplete e t => Sys2Proof.Machine.execEngineComplete e t s
  | .engineOverrun e who => Sys2Proof.Machine.execEngineOverrun e who s
  | .launcherTakeEntry r => Sys2Proof.Machine.execLauncherTakeEntry r s
  | .entryFire first second => Sys2Proof.Machine.execEntryFire first second s
  | .adieResult => Sys2Proof.Machine.execAdieResult s
  | .ppsEdge falling => Sys2Proof.Machine.execPpsEdge falling s
  | .ppsLost => Sys2Proof.Machine.execPpsLost s
  | .allocationBoundary => Sys2Proof.Machine.execAllocationBoundary s
  | .sluicePublish => Sys2Proof.Machine.execSluicePublish s
  | .maxDelayExpired n => Sys2Proof.Machine.execMaxDelayExpired n s
  | .reasonHoldExpired n => Sys2Proof.Machine.execReasonHoldExpired n s
  | .surplusRelease n => Sys2Proof.Machine.execSurplusRelease n s
  | .leaveWaitTimeout h => Sys2Proof.Machine.execLeaveWaitTimeout h s
  | .prechargeDone n => Sys2Proof.Machine.execPrechargeDone n s
  | .prechargeTimeout n => Sys2Proof.Machine.execPrechargeTimeout n s
  | .handoverVerify => Sys2Proof.Machine.execHandoverVerify s
  | .handoverEvaluate => Sys2Proof.Machine.execHandoverEvaluate s
  | .handoverTimeout h => Sys2Proof.Machine.execHandoverTimeout h s
  | .mlkCycle readback => Sys2Proof.Machine.execMlkCycle readback s
  | .uplinkSlotEnd l p slot => Sys2Proof.Machine.execUplinkSlotEnd l p slot s
  | .ocTrip n => Sys2Proof.Machine.execOcTrip n s
  | .ocRelease n => Sys2Proof.Machine.execOcRelease n s
  | .moduleStale m => Sys2Proof.Machine.execModuleStale m s
  | .laneFault l => Sys2Proof.Machine.execLaneFault l s
  | .d2dFrameReceive f => Sys2Proof.Machine.execD2dFrameReceive f s
  | .adiePermitTimeout => Sys2Proof.Machine.execAdiePermitTimeout s
  | .adieRcWatchdog => Sys2Proof.Machine.execAdieRcWatchdog s
  | .tideLoss cause => Sys2Proof.Machine.execTideLoss cause s
  | .dykeTideCheck advance => Sys2Proof.Machine.execDykeTideCheck advance s
  | .barrierOpen => Sys2Proof.Machine.execBarrierOpen s
  | .barrierArrive p => Sys2Proof.Machine.execBarrierArrive p s
  | .barrierRelease modems => Sys2Proof.Machine.execBarrierRelease modems s
  | .pilotSample n x => Sys2Proof.Machine.execPilotSample n x s
  | .cpStateConfirmed n => Sys2Proof.Machine.execCpStateConfirmed n s
  | .diodeFailureConfirmed n => Sys2Proof.Machine.execDiodeFailureConfirmed n s
  | .cpSenseFault n => Sys2Proof.Machine.execCpSenseFault n s
  | .cpSenseFaultClear n => Sys2Proof.Machine.execCpSenseFaultClear n s
  | .ppClassConfirmed n => Sys2Proof.Machine.execPpClassConfirmed n s
  | .cpRestartEnd n => Sys2Proof.Machine.execCpRestartEnd n s
  | .cableTempMeasure n x ref => Sys2Proof.Machine.execCableTempMeasure n x ref s
  | .lockStallConfirmed n => Sys2Proof.Machine.execLockStallConfirmed n s
  | .lockOffDelay n => Sys2Proof.Machine.execLockOffDelay n s
  | .lockTimeout n => Sys2Proof.Machine.execLockTimeout n s
  | .lockOpenLoad n => Sys2Proof.Machine.execLockOpenLoad n s
  | .lockRetry n => Sys2Proof.Machine.execLockRetry n s
  | .cmSlacParmReq n mac runId => Sys2Proof.Machine.execCmSlacParmReq n mac runId s
  | .cmStartAttenCharInd n mac runId sounds => Sys2Proof.Machine.execCmStartAttenCharInd n mac runId sounds s
  | .cmMnbcSoundInd n x => Sys2Proof.Machine.execCmMnbcSoundInd n x s
  | .soundingEnd n mac runId => Sys2Proof.Machine.execSoundingEnd n mac runId s
  | .cmSlacMatchReq n mac runId => Sys2Proof.Machine.execCmSlacMatchReq n mac runId s
  | .vehicleJoined n => Sys2Proof.Machine.execVehicleJoined n s
  | .slacTimerExpired n => Sys2Proof.Machine.execSlacTimerExpired n s
  | .slacRestartEnd n => Sys2Proof.Machine.execSlacRestartEnd n s
  | .validationWindowEnd n announced => Sys2Proof.Machine.execValidationWindowEnd n announced s
  | .eraseRateWindow n gain gaps windows tail => Sys2Proof.Machine.execEraseRateWindow n gain gaps windows tail s
  | .modemFault n => Sys2Proof.Machine.execModemFault n s
  | .v2gRequest n q => Sys2Proof.Machine.execV2gRequest n q s
  | .v2gSeqTimeout n => Sys2Proof.Machine.execV2gSeqTimeout n s
  | .v2gLinkLoss n network => Sys2Proof.Machine.execV2gLinkLoss n network s
  | .imdResult n x => Sys2Proof.Machine.execImdResult n x s
  | .baselineLate n => Sys2Proof.Machine.execBaselineLate n s
  | .imdStale n => Sys2Proof.Machine.execImdStale n s
  | .imdRailFault pos neg => Sys2Proof.Machine.execImdRailFault pos neg s
  | .cableCheckTimeout n => Sys2Proof.Machine.execCableCheckTimeout n s
  | .rcmBlockEnd f => Sys2Proof.Machine.execRcmBlockEnd f s
  | .rcmWarning f => Sys2Proof.Machine.execRcmWarning f s
  | .rcmLost f => Sys2Proof.Machine.execRcmLost f s
  | .rcmTestEnd => Sys2Proof.Machine.execRcmTestEnd s
  | .testPulsePeriod x => Sys2Proof.Machine.execTestPulsePeriod x s
  | .pairFaultClear k => Sys2Proof.Machine.execPairFaultClear k s
  | .safetyInputOpen k dyke hw => Sys2Proof.Machine.execSafetyInputOpen k dyke hw s
  | .ilkFault a b cross overload dyke hw => Sys2Proof.Machine.execIlkFault a b cross overload dyke hw s
  | .dykeAliveTimeout => Sys2Proof.Machine.execDykeAliveTimeout s
  | .disagreeTimeout => Sys2Proof.Machine.execDisagreeTimeout s
  | .ovTrip n dyke hw => Sys2Proof.Machine.execOvTrip n dyke hw s
  | .pilotBackup n => Sys2Proof.Machine.execPilotBackup n s
  | .rampedStopTimeout n => Sys2Proof.Machine.execRampedStopTimeout n s
  | .contactorCloseTimeout n => Sys2Proof.Machine.execContactorCloseTimeout n s
  | .contactorOpenCheck n => Sys2Proof.Machine.execContactorOpenCheck n s
  | .weldTestStart n => Sys2Proof.Machine.execWeldTestStart n s
  | .weldTestCompare n => Sys2Proof.Machine.execWeldTestCompare n s
  | .safeResetPulse dyke hw => Sys2Proof.Machine.execSafeResetPulse dyke hw s
  | .resetArmExpired => Sys2Proof.Machine.execResetArmExpired s
  | .recoveryWindowExpired => Sys2Proof.Machine.execRecoveryWindowExpired s
  | .switchMeasure c x => Sys2Proof.Machine.execSwitchMeasure c x s
  | .switchOvertemp c => Sys2Proof.Machine.execSwitchOvertemp c s
  | .switchThermalRestart c => Sys2Proof.Machine.execSwitchThermalRestart c s
  | .vinSysRange v => Sys2Proof.Machine.execVinSysRange v s
  | .coilPullEnd n => Sys2Proof.Machine.execCoilPullEnd n s
  | .coilRcoilLearn n x => Sys2Proof.Machine.execCoilRcoilLearn n x s
  | .packageCurrentCheck => Sys2Proof.Machine.execPackageCurrentCheck s
  | .limpInput j on => Sys2Proof.Machine.execLimpInput j on s
  | .backupChangeover vbat kept => Sys2Proof.Machine.execBackupChangeover vbat kept s
  | .peatWriteRequest r q => Sys2Proof.Machine.execPeatWriteRequest r q s
  | .arbiterDecision => Sys2Proof.Machine.execArbiterDecision s
  | .lineWriteDone x => Sys2Proof.Machine.execLineWriteDone x s
  | .backoffEnd r => Sys2Proof.Machine.execBackoffEnd r s
  | .requestWithdraw r => Sys2Proof.Machine.execRequestWithdraw r s
  | .requesterMask r on => Sys2Proof.Machine.execRequesterMask r on s
  | .holdWatchdog => Sys2Proof.Machine.execHoldWatchdog s
  | .gapMove => Sys2Proof.Machine.execGapMove s
  | .counterIncrement k r => Sys2Proof.Machine.execCounterIncrement k r s
  | .deltaEpoch => Sys2Proof.Machine.execDeltaEpoch s
  | .powerFailWarning vin => Sys2Proof.Machine.execPowerFailWarning vin s
  | .pfCommitDone => Sys2Proof.Machine.execPfCommitDone s
  | .pfCommitLate => Sys2Proof.Machine.execPfCommitLate s
  | .quiescentCommit => Sys2Proof.Machine.execQuiescentCommit s
  | .pfHoldEnd => Sys2Proof.Machine.execPfHoldEnd s
  | .powerFailClear => Sys2Proof.Machine.execPowerFailClear s
  | .signEngineComplete u ok => Sys2Proof.Machine.execSignEngineComplete u ok s
  | .signRetry => Sys2Proof.Machine.execSignRetry s
  | .heldReadingsFlush => Sys2Proof.Machine.execHeldReadingsFlush s
  | .fullRequeue => Sys2Proof.Machine.execFullRequeue s
  | .tamperSample open_ => Sys2Proof.Machine.execTamperSample open_ s
  | .tamperEventMove => Sys2Proof.Machine.execTamperEventMove s
  | .authHoldExpired n => Sys2Proof.Machine.execAuthHoldExpired n s
  | .remask => Sys2Proof.Machine.execRemask s
  | .rngReseed => Sys2Proof.Machine.execRngReseed s
  | .rngHealthFail => Sys2Proof.Machine.execRngHealthFail s
  | .pufRetry good corrected => Sys2Proof.Machine.execPufRetry good corrected s
  | .challengeExpired => Sys2Proof.Machine.execChallengeExpired s
  | .tidNowRead lag => Sys2Proof.Machine.execTidNowRead lag s
  | .loCaptureRead addr => Sys2Proof.Machine.execLoCaptureRead addr s
  | .hicClaim p => Sys2Proof.Machine.execHicClaim p s
  | .hicComplete p src => Sys2Proof.Machine.execHicComplete p src s
  | .mbxRing m => Sys2Proof.Machine.execMbxRing m s
  | .mbxCancel m => Sys2Proof.Machine.execMbxCancel m s
  | .mbxAcknowledge m => Sys2Proof.Machine.execMbxAcknowledge m s
  | .rplStop => Sys2Proof.Machine.execRplStop s
  | .registerWrite addr words crc => Sys2Proof.Machine.execRegisterWrite addr words crc s
  | .badFrame frame => Sys2Proof.Machine.execBadFrame frame s
  | .mbxRequestStart m => Sys2Proof.Machine.execMbxRequestStart m s
  | .mbxResponseDone m => Sys2Proof.Machine.execMbxResponseDone m s
  | .sysGetVersion m => Sys2Proof.Machine.execSysGetVersion m s
  | .sysEcho m => Sys2Proof.Machine.execSysEcho m s
  | .sysHpStatus m => Sys2Proof.Machine.execSysHpStatus m s
  | .sysHpClear m => Sys2Proof.Machine.execSysHpClear m s
  | .sysFabricSlack m => Sys2Proof.Machine.execSysFabricSlack m s
  | .sysFabricClear m => Sys2Proof.Machine.execSysFabricClear m s
  | .sysD2dStatus m => Sys2Proof.Machine.execSysD2dStatus m s
  | .sysReset m => Sys2Proof.Machine.execSysReset m s
  | .sysGetReset m => Sys2Proof.Machine.execSysGetReset m s
  | .tideGetTime m => Sys2Proof.Machine.execTideGetTime m s
  | .tideSetTrim m => Sys2Proof.Machine.execTideSetTrim m s
  | .tidePpsConfig m => Sys2Proof.Machine.execTidePpsConfig m s
  | .tideSetTod m => Sys2Proof.Machine.execTideSetTod m s
  | .tideSnapshot m => Sys2Proof.Machine.execTideSnapshot m s
  | .tideSubmit m => Sys2Proof.Machine.execTideSubmit m s
  | .tideCancel m => Sys2Proof.Machine.execTideCancel m s
  | .tideRingStatus m => Sys2Proof.Machine.execTideRingStatus m s
  | .tideClearCounts m => Sys2Proof.Machine.execTideClearCounts m s
  | .metSealOpen m => Sys2Proof.Machine.execMetSealOpen m s
  | .metSealClose m => Sys2Proof.Machine.execMetSealClose m s
  | .sealTimeout => Sys2Proof.Machine.execSealTimeout s
  | .metGetConfig m => Sys2Proof.Machine.execMetGetConfig m s
  | .metSetConfig m => Sys2Proof.Machine.execMetSetConfig m s
  | .metLoadTable m => Sys2Proof.Machine.execMetLoadTable m s
  | .metActivateTable m => Sys2Proof.Machine.execMetActivateTable m s
  | .metReadTable m => Sys2Proof.Machine.execMetReadTable m s
  | .metSetRaw m => Sys2Proof.Machine.execMetSetRaw m s
  | .metCalMeasure m => Sys2Proof.Machine.execMetCalMeasure m s
  | .metFpEval m => Sys2Proof.Machine.execMetFpEval m s
  | .metClearCounts m => Sys2Proof.Machine.execMetClearCounts m s
  | .metSetNoload m => Sys2Proof.Machine.execMetSetNoload m s
  | .metSetUref m => Sys2Proof.Machine.execMetSetUref m s
  | .metPqConfig m => Sys2Proof.Machine.execMetPqConfig m s
  | .metEnergyRead m => Sys2Proof.Machine.execMetEnergyRead m s
  | .metEnergyClearFlags m => Sys2Proof.Machine.execMetEnergyClearFlags m s
  | .metPqClearCounts m => Sys2Proof.Machine.execMetPqClearCounts m s
  | .sluSetSite m => Sys2Proof.Machine.execSluSetSite m s
  | .sluSetConnector m => Sys2Proof.Machine.execSluSetConnector m s
  | .sluSetTuning m => Sys2Proof.Machine.execSluSetTuning m s
  | .sluGetNode m => Sys2Proof.Machine.execSluGetNode m s
  | .sluGetMap m => Sys2Proof.Machine.execSluGetMap m s
  | .sluModuleService m => Sys2Proof.Machine.execSluModuleService m s
  | .sluGetHandovers m => Sys2Proof.Machine.execSluGetHandovers m s
  | .sluClearCounts m => Sys2Proof.Machine.execSluClearCounts m s
  | .mlkGetLane m => Sys2Proof.Machine.execMlkGetLane m s
  | .mlkGetTelemetry m => Sys2Proof.Machine.execMlkGetTelemetry m s
  | .mlkEnumerate m => Sys2Proof.Machine.execMlkEnumerate m s
  | .mlkGetIdentity m => Sys2Proof.Machine.execMlkGetIdentity m s
  | .mlkSetEnrolled m => Sys2Proof.Machine.execMlkSetEnrolled m s
  | .mlkSetOc m => Sys2Proof.Machine.execMlkSetOc m s
  | .mlkSetVetoMask m => Sys2Proof.Machine.execMlkSetVetoMask m s
  | .mlkIdentify m => Sys2Proof.Machine.execMlkIdentify m s
  | .mlkResetLane m => Sys2Proof.Machine.execMlkResetLane m s
  | .mlkClearCounts m => Sys2Proof.Machine.execMlkClearCounts m s
  | .vehGetConnector m => Sys2Proof.Machine.execVehGetConnector m s
  | .vehSetAvailability m => Sys2Proof.Machine.execVehSetAvailability m s
  | .vehSetPilotCfg m => Sys2Proof.Machine.execVehSetPilotCfg m s
  | .vehSetPpClass m => Sys2Proof.Machine.execVehSetPpClass m s
  | .vehSetDerate m => Sys2Proof.Machine.execVehSetDerate m s
  | .vehSetLockCfg m => Sys2Proof.Machine.execVehSetLockCfg m s
  | .vehLock m => Sys2Proof.Machine.execVehLock m s
  | .vehCpRestart m => Sys2Proof.Machine.execVehCpRestart m s
  | .vehClearCounts m => Sys2Proof.Machine.execVehClearCounts m s
  | .v2gSetConfig m => Sys2Proof.Machine.execV2gSetConfig m s
  | .v2gSetSecc m => Sys2Proof.Machine.execV2gSetSecc m s
  | .v2gGetSession m => Sys2Proof.Machine.execV2gGetSession m s
  | .v2gClearCounts m => Sys2Proof.Machine.execV2gClearCounts m s
  | .plcSetMac m => Sys2Proof.Machine.execPlcSetMac m s
  | .plcEnable m => Sys2Proof.Machine.execPlcEnable m s
  | .plcSetSlac m => Sys2Proof.Machine.execPlcSetSlac m s
  | .plcSetBlank m => Sys2Proof.Machine.execPlcSetBlank m s
  | .plcGetStatus m => Sys2Proof.Machine.execPlcGetStatus m s
  | .plcGetRun m => Sys2Proof.Machine.execPlcGetRun m s
  | .plcGetProfile m => Sys2Proof.Machine.execPlcGetProfile m s
  | .plcClearCounts m => Sys2Proof.Machine.execPlcClearCounts m s
  | .imdSetConfig m => Sys2Proof.Machine.execImdSetConfig m s
  | .imdSetForce m => Sys2Proof.Machine.execImdSetForce m s
  | .imdGetNode m => Sys2Proof.Machine.execImdGetNode m s
  | .imdRebaseline m => Sys2Proof.Machine.execImdRebaseline m s
  | .rcmSetConfig m => Sys2Proof.Machine.execRcmSetConfig m s
  | .rcmGet m => Sys2Proof.Machine.execRcmGet m s
  | .rcmTest m => Sys2Proof.Machine.execRcmTest m s
  | .imdClearCounts m => Sys2Proof.Machine.execImdClearCounts m s
  | .safGetStatus m => Sys2Proof.Machine.execSafGetStatus m s
  | .safSetConfig m => Sys2Proof.Machine.execSafSetConfig m s
  | .safResetAck m => Sys2Proof.Machine.execSafResetAck m s
  | .safWeldTest m => Sys2Proof.Machine.execSafWeldTest m s
  | .safGetNode m => Sys2Proof.Machine.execSafGetNode m s
  | .safGetFaults m => Sys2Proof.Machine.execSafGetFaults m s
  | .safClearCounts m => Sys2Proof.Machine.execSafClearCounts m s
  | .lswSetChannel m => Sys2Proof.Machine.execLswSetChannel m s
  | .lswSwitch m => Sys2Proof.Machine.execLswSwitch m s
  | .lswGetChannel m => Sys2Proof.Machine.execLswGetChannel m s
  | .lswClearFault m => Sys2Proof.Machine.execLswClearFault m s
  | .lswSetCoil m => Sys2Proof.Machine.execLswSetCoil m s
  | .lswGetCoil m => Sys2Proof.Machine.execLswGetCoil m s
  | .lswSetLimp m => Sys2Proof.Machine.execLswSetLimp m s
  | .lswLimpRelease m => Sys2Proof.Machine.execLswLimpRelease m s
  | .lswClearCounts m => Sys2Proof.Machine.execLswClearCounts m s
  | .peaGetStatus m => Sys2Proof.Machine.execPeaGetStatus m s
  | .peaRead m errs => Sys2Proof.Machine.execPeaRead m errs s
  | .peaFreeze m => Sys2Proof.Machine.execPeaFreeze m s
  | .peaSetConfig m => Sys2Proof.Machine.execPeaSetConfig m s
  | .peaCtrRead m => Sys2Proof.Machine.execPeaCtrRead m s
  | .peaCtrIncrement m => Sys2Proof.Machine.execPeaCtrIncrement m s
  | .peaAckError m => Sys2Proof.Machine.execPeaAckError m s
  | .peaGetRecovery m => Sys2Proof.Machine.execPeaGetRecovery m s
  | .peaClearCounts m => Sys2Proof.Machine.execPeaClearCounts m s
  | .sltLoadCalendar m => Sys2Proof.Machine.execSltLoadCalendar m s
  | .sltGetCalendar m => Sys2Proof.Machine.execSltGetCalendar m s
  | .sltSetLegal m => Sys2Proof.Machine.execSltSetLegal m s
  | .sltAuthorise m => Sys2Proof.Machine.execSltAuthorise m s
  | .sltReadRegisters m => Sys2Proof.Machine.execSltReadRegisters m s
  | .sltSignReading m => Sys2Proof.Machine.execSltSignReading m s
  | .sltGetTamper m => Sys2Proof.Machine.execSltGetTamper m s
  | .sltClearFlags m => Sys2Proof.Machine.execSltClearFlags m s
  | .sltSetOutput m => Sys2Proof.Machine.execSltSetOutput m s
  | .sltSetTamper m => Sys2Proof.Machine.execSltSetTamper m s
  | .briTopup m => Sys2Proof.Machine.execBriTopup m s
  | .briRefund m => Sys2Proof.Machine.execBriRefund m s
  | .briGetWallet m => Sys2Proof.Machine.execBriGetWallet m s
  | .briSetConfig m => Sys2Proof.Machine.execBriSetConfig m s
  | .briGetLedger m => Sys2Proof.Machine.execBriGetLedger m s
  | .briAudit m => Sys2Proof.Machine.execBriAudit m s
  | .briBlock m => Sys2Proof.Machine.execBriBlock m s
  | .keyGetStatus m => Sys2Proof.Machine.execKeyGetStatus m s
  | .keyUpdate m => Sys2Proof.Machine.execKeyUpdate m s
  | .keyLoad m => Sys2Proof.Machine.execKeyLoad m s
  | .keyUnload m => Sys2Proof.Machine.execKeyUnload m s
  | .keyGetPublic m => Sys2Proof.Machine.execKeyGetPublic m s
  | .keyAttest m => Sys2Proof.Machine.execKeyAttest m s
  | .keyGetCert m => Sys2Proof.Machine.execKeyGetCert m s
  | .keyGetChallenge m => Sys2Proof.Machine.execKeyGetChallenge m s
  | .keyRandom m => Sys2Proof.Machine.execKeyRandom m s
  | .keyClearCounts m => Sys2Proof.Machine.execKeyClearCounts m s
  | .cwyRecordReceive slot => Sys2Proof.Machine.execCwyRecordReceive slot s
  | .creditFrameReceive f => Sys2Proof.Machine.execCreditFrameReceive f s
  | .cwyRecordSend => Sys2Proof.Machine.execCwyRecordSend s
  | .ackTimeout => Sys2Proof.Machine.execAckTimeout s
  | .clockLost => Sys2Proof.Machine.execClockLost s
  | .linkUp => Sys2Proof.Machine.execLinkUp s
  | .trainingTimeout => Sys2Proof.Machine.execTrainingTimeout s
  | .groupStall g => Sys2Proof.Machine.execGroupStall g s
  | .qmgAlloc agent g => Sys2Proof.Machine.execQmgAlloc agent g s
  | .qmgEnqueue agent q u => Sys2Proof.Machine.execQmgEnqueue agent q u s
  | .qmgDequeue agent q => Sys2Proof.Machine.execQmgDequeue agent q s
  | .qmgFree agent u => Sys2Proof.Machine.execQmgFree agent u s
  | .cwySetLink m => Sys2Proof.Machine.execCwySetLink m s
  | .cwyGetStatus m => Sys2Proof.Machine.execCwyGetStatus m s
  | .cwyResetLink m => Sys2Proof.Machine.execCwyResetLink m s
  | .cwySetGroup m => Sys2Proof.Machine.execCwySetGroup m s
  | .cwyGetGroup m => Sys2Proof.Machine.execCwyGetGroup m s
  | .qmgSetQueue m => Sys2Proof.Machine.execQmgSetQueue m s
  | .qmgGetQueue m => Sys2Proof.Machine.execQmgGetQueue m s
  | .qmgFlush m => Sys2Proof.Machine.execQmgFlush m s
  | .qmgGetPool m => Sys2Proof.Machine.execQmgGetPool m s
  | .qmgSetLowWater m => Sys2Proof.Machine.execQmgSetLowWater m s
  | .cwyQmgClear m => Sys2Proof.Machine.execCwyQmgClear m s
  | .extcominToggle p => Sys2Proof.Machine.execExtcominToggle p s
  | .panelPassEnd p => Sys2Proof.Machine.execPanelPassEnd p s
  | .panelBiasFault half => Sys2Proof.Machine.execPanelBiasFault half s
  | .stripRedraw p => Sys2Proof.Machine.execStripRedraw p s
  | .nfcPing r si sq => Sys2Proof.Machine.execNfcPing r si sq s
  | .cardResolved r card => Sys2Proof.Machine.execCardResolved r card s
  | .presenceCheck r answered => Sys2Proof.Machine.execPresenceCheck r answered s
  | .fieldRelease r => Sys2Proof.Machine.execFieldRelease r s
  | .nfcTxFault r => Sys2Proof.Machine.execNfcTxFault r s
  | .pnlSetConfig m => Sys2Proof.Machine.execPnlSetConfig m s
  | .pnlLoadGamma m => Sys2Proof.Machine.execPnlLoadGamma m s
  | .pnlDraw m => Sys2Proof.Machine.execPnlDraw m s
  | .pnlFill m => Sys2Proof.Machine.execPnlFill m s
  | .pnlFlush m => Sys2Proof.Machine.execPnlFlush m s
  | .pnlGetStatus m => Sys2Proof.Machine.execPnlGetStatus m s
  | .pnlClearCounts m => Sys2Proof.Machine.execPnlClearCounts m s
  | .nfcSetConfig m => Sys2Proof.Machine.execNfcSetConfig m s
  | .nfcPoll m => Sys2Proof.Machine.execNfcPoll m s
  | .nfcTransceive m x => Sys2Proof.Machine.execNfcTransceive m x s
  | .nfcRelease m => Sys2Proof.Machine.execNfcRelease m s
  | .nfcClearCounts m => Sys2Proof.Machine.execNfcClearCounts m s
  | .powerOn pinHigh strap => Sys2Proof.Machine.execPowerOn pinHigh strap s
  | .brownOut => Sys2Proof.Machine.execBrownOut s
  | .resetPin => Sys2Proof.Machine.execResetPin s
  | .clockFail strap => Sys2Proof.Machine.execClockFail strap s
  | .watchdog core => Sys2Proof.Machine.execWatchdog core s
  | .lockUp core => Sys2Proof.Machine.execLockUp core s
  | .sedgeAbsenceTimeout => Sys2Proof.Machine.execSedgeAbsenceTimeout s
  | .stopSequenceEnd strap => Sys2Proof.Machine.execStopSequenceEnd strap s
  | .bootStageDone x => Sys2Proof.Machine.execBootStageDone x s
  | .readyDeclared => Sys2Proof.Machine.execReadyDeclared s
  | .imageData => Sys2Proof.Machine.execImageData s
  | .blockRequestTimeout => Sys2Proof.Machine.execBlockRequestTimeout s
  | .bootRetry => Sys2Proof.Machine.execBootRetry s
  | .activationSwitch converts => Sys2Proof.Machine.execActivationSwitch converts s
  | .modemDeferredSwitch n => Sys2Proof.Machine.execModemDeferredSwitch n s
  | .trialWarn => Sys2Proof.Machine.execTrialWarn s
  | .trialExpired => Sys2Proof.Machine.execTrialExpired s
  | .updGetStatus m => Sys2Proof.Machine.execUpdGetStatus m s
  | .updStage m => Sys2Proof.Machine.execUpdStage m s
  | .updActivate m => Sys2Proof.Machine.execUpdActivate m s
  | .updCommit m => Sys2Proof.Machine.execUpdCommit m s
  | .updRevert m => Sys2Proof.Machine.execUpdRevert m s
  | .updDiscard m => Sys2Proof.Machine.execUpdDiscard m s
  | .updSetConfig m => Sys2Proof.Machine.execUpdSetConfig m s
  | .updGetManifest m => Sys2Proof.Machine.execUpdGetManifest m s
  | .updBootPart m => Sys2Proof.Machine.execUpdBootPart m s
  | .oplogFlush => Sys2Proof.Machine.execOplogFlush s
  | .fatalError => Sys2Proof.Machine.execFatalError s
  | .dumpStart => Sys2Proof.Machine.execDumpStart s
  | .dumpComplete => Sys2Proof.Machine.execDumpComplete s
  | .traceOverflow => Sys2Proof.Machine.execTraceOverflow s
  | .traceIn => Sys2Proof.Machine.execTraceIn s
  | .replayStarved => Sys2Proof.Machine.execReplayStarved s
  | .btnRead m => Sys2Proof.Machine.execBtnRead m s
  | .btnClear m => Sys2Proof.Machine.execBtnClear m s
  | .btnSetConfig m => Sys2Proof.Machine.execBtnSetConfig m s
  | .btnGetStatus m => Sys2Proof.Machine.execBtnGetStatus m s
  | .btnClearCounts m => Sys2Proof.Machine.execBtnClearCounts m s
  | .dmpGetStatus m => Sys2Proof.Machine.execDmpGetStatus m s
  | .dmpExport m => Sys2Proof.Machine.execDmpExport m s
  | .dmpRelease m => Sys2Proof.Machine.execDmpRelease m s
  | .dmpTrigger m => Sys2Proof.Machine.execDmpTrigger m s
  | .recArm m => Sys2Proof.Machine.execRecArm m s
  | .rplArm m => Sys2Proof.Machine.execRplArm m s
  | .rplGetStatus m => Sys2Proof.Machine.execRplGetStatus m s
  | .idcode => Sys2Proof.Machine.execIdcode s
  | .samplePreload pins => Sys2Proof.Machine.execSamplePreload pins s
  | .extest pins => Sys2Proof.Machine.execExtest pins s
  | .dbgChallenge => Sys2Proof.Machine.execDbgChallenge s
  | .dbgResponse scope signature => Sys2Proof.Machine.execDbgResponse scope signature s
  | .dbgChallengeExpired => Sys2Proof.Machine.execDbgChallengeExpired s
  | .dbgAccess op => Sys2Proof.Machine.execDbgAccess op s
  | .dbgStatusScan => Sys2Proof.Machine.execDbgStatusScan s
  | .bypass => Sys2Proof.Machine.execBypass s
  | .debugHalt core => Sys2Proof.Machine.execDebugHalt core s
  | .debugStep core => Sys2Proof.Machine.execDebugStep core s
  | .debugResume core => Sys2Proof.Machine.execDebugResume core s
  | .debugResetRequest hub core => Sys2Proof.Machine.execDebugResetRequest hub core s
  | .coreRestartComplete core bad => Sys2Proof.Machine.execCoreRestartComplete core bad s
  | .overvoltageRelease n => Sys2Proof.Machine.execOvervoltageRelease n s
  | .safetyInputClose k => Sys2Proof.Machine.execSafetyInputClose k s
  | .readFrame addr count lag => Sys2Proof.Machine.execReadFrame addr count lag s
  | .falseWakeUp r => Sys2Proof.Machine.execFalseWakeUp r s
  | .resetNRelease strap => Sys2Proof.Machine.execResetNRelease strap s
  | .stopSequenceStart => Sys2Proof.Machine.execStopSequenceStart s
  | .receiveClockStable => Sys2Proof.Machine.execReceiveClockStable s
  | .trialTimeSave => Sys2Proof.Machine.execTrialTimeSave s

end Sys2Proof.Machine
end

