-- ==== Sys2Proof/Machine/Tick.lean ====
section
/-! DEFINITION. What happens when no command waits: one tick of Tide, and the work that goes on by itself (DESIGN CHOICE, log entry 1). -/

namespace Sys2Proof.Machine

/-- Tide counts while its PLL runs it (R37). -/
def countTide (b : Block) : Block := if b.tide.running then setNow (b.tide.now + 1) b else b
/-- A revert that waits for the sessions begins once it may (R510). -/
def waitingRevert (b : Block) : Block :=
  match b.upd.trialImage with
  | some t => if b.upd.revertWait then trialOver t b else b
  | none => b
/-- Work that no command of the table starts: a waiting period of insulation time that takes effect (R258),
the export of a snapshot whose bank has become readable (R55), the shutdown epoch once it is due (R495), a revert and a halt of Dyke that wait, the
VBAT_LOST entry with the first legal time (R367), readings kept for want of buffers (R365), the export of a dump (R533), the trace of a recording (R535) and the items of a replay at their stamps (R538). -/
def backgroundWork (b : Block) : Block := presentDue (traceFlush (exportStep (haltStep (waitingRevert (shutdownDue (snapExports (periodStep (signWhenFree (vbatLog b)))))))))
/-- One tick. -/
def tick (b : Block) : Block := backgroundWork (countTide b)
/-- The step of an empty queue. -/
def idle (s : State) : Result := s.run tick

end Sys2Proof.Machine
end

