-- ==== Sys2Proof/Safety.lean ====
section
/-! DEFINITION. What counts as a safe run, and the words the statements are made of: a request that is being executed, the answer it
gets, and the canonical form of the device's memories. -/

namespace Sys2Proof

open Machine

/-- A step goes on to a next state. -/
def StepsOn (s : State) : Prop := ∃ t, step s = .next t
/-- A predicate of states that every step keeps. -/
def KeptByStep (P : State → Prop) : Prop := ∀ s t, P s → step s = .next t → P t
/-- The state after `k` steps, when none stops. -/
def stepsTo (k : Nat) (s t : State) : Prop := Host.Core.run core k s = .next t

/-- Mailbox `m` executes a request with opcode `op` that waits for its response, the core that serves it runs, and replay does not
answer it from the trace (R425, R428, R537). -/
abbrev Asked (s : State) (m : Fin 4) (op : Nat) (need : Need) : Prop :=
  serving s.block m op = true ∧ coreRuns s.block need = true ∧ (s.block.rpl.mode && answeredByTrace op) = false

/-- Mailbox `m`, whose request stands in `s`, holds in `t` the complete response of R423: opcode, tag, status, payload length and
payload, each header field 2 bytes little-endian, and zeros beyond. -/
abbrev Answered (s t : State) (m : Fin 4) (status : Nat) (p : List U8) : Prop :=
  (mbxOf t.block m).answered = true ∧
    (mbxOf t.block m).resp = Memory.ofBytes (leBytes 2 (reqOp s.block m) ++ b16 (reqTag s.block m) ++ leBytes 2 status ++ leBytes 2 p.length ++ p)

/-- Interrupt source `n` is pending (R432). -/
abbrev Raised (b : Block) (n : Fin 512) : Prop := (vget b.hic.sources n).pending = true

/-- The units of the block, by the names of their fields. -/
inductive Part where
  | tide | lau | snaps | barrier | fab | d2d | cross | met | acc | pq | sess | slu | sluCnt | mlk | veh | vehCfg | plc | plcCfg
  | v2g | v2gCfg | imd | imdG | rcm | rcmTest | saf | safX | lsw | pea | arb | pf | slt | legal | auth | backup | bri
  | key | mbx | hp | hic | qmg | cwy | cwyX | pnl | frames | nfc | rst | upd | btn | dmp | rpl | dbg | settings
  | newSettings | legalSet | updRec | kept | prior
deriving DecidableEq, Repr

/-- Every unit. -/
def Part.all : List Part := [.tide, .lau, .snaps, .barrier, .fab, .d2d, .cross, .met, .acc, .pq, .sess, .slu, .sluCnt, .mlk, .veh, .vehCfg, .plc, .plcCfg, .v2g, .v2gCfg, .imd, .imdG, .rcm, .rcmTest, .saf, .safX, .lsw, .pea] ++ [.arb, .pf, .slt, .legal, .auth, .backup, .bri, .key, .mbx, .hp, .hic, .qmg, .cwy, .cwyX, .pnl, .frames, .nfc, .rst, .upd, .btn, .dmp, .rpl, .dbg, .settings, .newSettings, .legalSet, .updRec, .kept, .prior]

/-- Every unit but those listed. -/
def Part.but (l : List Part) : List Part := Part.all.filter fun p => !l.contains p

/-- Unit `p` holds the same in two blocks. -/
def Part.Same : Part → Block → Block → Prop
  | .tide, b, c => c.tide = b.tide
  | .lau, b, c => c.lau = b.lau
  | .snaps, b, c => c.snaps = b.snaps
  | .barrier, b, c => c.barrier = b.barrier
  | .fab, b, c => c.fab = b.fab
  | .d2d, b, c => c.d2d = b.d2d
  | .cross, b, c => c.cross = b.cross
  | .met, b, c => c.met = b.met
  | .acc, b, c => c.acc = b.acc
  | .pq, b, c => c.pq = b.pq
  | .sess, b, c => c.sess = b.sess
  | .slu, b, c => c.slu = b.slu
  | .sluCnt, b, c => c.sluCnt = b.sluCnt
  | .mlk, b, c => c.mlk = b.mlk
  | .veh, b, c => c.veh = b.veh
  | .vehCfg, b, c => c.vehCfg = b.vehCfg
  | .plc, b, c => c.plc = b.plc
  | .plcCfg, b, c => c.plcCfg = b.plcCfg
  | .v2g, b, c => c.v2g = b.v2g
  | .v2gCfg, b, c => c.v2gCfg = b.v2gCfg
  | .imd, b, c => c.imd = b.imd
  | .imdG, b, c => c.imdG = b.imdG
  | .rcm, b, c => c.rcm = b.rcm
  | .rcmTest, b, c => c.rcmTest = b.rcmTest
  | .saf, b, c => c.saf = b.saf
  | .safX, b, c => c.safX = b.safX
  | .lsw, b, c => c.lsw = b.lsw
  | .pea, b, c => c.pea = b.pea
  | .arb, b, c => c.arb = b.arb
  | .pf, b, c => c.pf = b.pf
  | .slt, b, c => c.slt = b.slt
  | .legal, b, c => c.legal = b.legal
  | .auth, b, c => c.auth = b.auth
  | .backup, b, c => c.backup = b.backup
  | .bri, b, c => c.bri = b.bri
  | .key, b, c => c.key = b.key
  | .mbx, b, c => c.mbx = b.mbx
  | .hp, b, c => c.hp = b.hp
  | .hic, b, c => c.hic = b.hic
  | .qmg, b, c => c.qmg = b.qmg
  | .cwy, b, c => c.cwy = b.cwy
  | .cwyX, b, c => c.cwyX = b.cwyX
  | .pnl, b, c => c.pnl = b.pnl
  | .frames, b, c => c.frames = b.frames
  | .nfc, b, c => c.nfc = b.nfc
  | .rst, b, c => c.rst = b.rst
  | .upd, b, c => c.upd = b.upd
  | .btn, b, c => c.btn = b.btn
  | .dmp, b, c => c.dmp = b.dmp
  | .rpl, b, c => c.rpl = b.rpl
  | .dbg, b, c => c.dbg = b.dbg
  | .settings, b, c => c.settings = b.settings
  | .newSettings, b, c => c.newSettings = b.newSettings
  | .legalSet, b, c => c.legalSet = b.legalSet
  | .updRec, b, c => c.updRec = b.updRec
  | .kept, b, c => c.kept = b.kept
  | .prior, b, c => c.prior = b.prior

/-- From `b` to `c`, no unit but those listed changes. -/
def Block.Only (l : List Part) (b c : Block) : Prop := ∀ p, p ∉ l → p.Same b c

/-- From `s` to `t`, the queue of waiting commands stays, and no unit of the block but those listed changes. -/
def Only (l : List Part) (s t : State) : Prop := t.pending = s.pending ∧ Block.Only l s.block t.block

/-- Every addressed memory of the device has its canonical form: the store (also the device's own while a replay has another in its
place), the record SRAM, the panel frames, and the request and response buffers. -/
structure MemoriesCanonical (s : State) : Prop where
  lines : s.block.pea.lines.wf = true
  real : ∀ p, s.block.rpl.real = some p → p.lines.wf = true
  sram : s.block.qmg.sram.wf = true
  frames : s.block.frames.wf = true
  requests : ∀ m, (mbxOf s.block m).req.wf = true
  responses : ∀ m, (mbxOf s.block m).resp.wf = true

/-- The Reset column of chapter 21: first word, last word, value (R552). -/
def resetWords : List (Nat × Nat × Nat) :=
  [(0, 0, 1279996566), (1, 1, 66), (2, 2, 770), (8, 8, 0), (9, 9, 0), (10, 10, 0), (64, 64, 0), (65, 65, 0), (66, 66, 0),
    (68, 71, 0), (72, 73, 0), (74, 74, 0), (128, 128, 0), (129, 129, 600), (130, 130, 134285312), (132, 135, 0), (136, 139, 0),
    (140, 142, 0), (192, 195, 0), (196, 199, 0), (200, 200, 0), (256, 256, 0), (257, 257, 0), (258, 258, 0), (260, 263, 0),
    (264, 267, 0), (268, 271, 0), (272, 275, 0), (288, 303, 0), (304, 319, 0), (320, 335, 0), (336, 351, 0), (352, 367, 0),
    (384, 511, 0), (512, 513, 0), (514, 514, 0), (515, 515, 0), (516, 516, 0), (517, 517, 32768000), (518, 519, 0), (520, 522, 0),
    (523, 527, 0), (528, 528, 0), (529, 530, 0), (531, 532, 0), (533, 533, 0), (544, 555, 0), (556, 556, 0), (560, 563, 0),
    (640, 687, 0), (688, 735, 0), (736, 783, 0), (784, 831, 0), (832, 834, 0), (835, 836, 0)] ++
  [(840, 871, 0), (872, 903, 0), (904, 907, 0), (908, 911, 0), (912, 919, 0), (920, 920, 4194303), (921, 922, 0), (928, 949, 0),
    (950, 971, 0), (972, 987, 1148846080), (988, 993, 1130758144), (994, 995, 4294901760), (996, 997, 720905000),
    (998, 999, 13107700), (1000, 1000, 0), (1001, 1006, 0), (1009, 1016, 0), (1024, 1024, 4294901760), (1025, 1025, 0),
    (1026, 1027, 0), (1028, 1029, 0), (1030, 1030, 1311680), (1031, 1031, 131073000), (1032, 1032, 1313330), (1033, 1034, 0),
    (1040, 1047, 0), (1056, 1071, 0), (1072, 1087, 0), (1088, 1103, 19661156), (1104, 1119, 4294907760), (1120, 1143, 269488144),
    (1144, 1191, 0), (1192, 1215, 252711039), (1280, 1280, 0), (1281, 1281, 0), (1282, 1283, 127), (1284, 1285, 0), (1286, 1286, 0),
    (1288, 1295, 0), (1296, 1327, 0), (1328, 1343, 192), (1344, 1355, 0), (1356, 1361, 0), (1408, 1408, 0), (1409, 1409, 3),
    (1410, 1410, 30820), (1411, 1411, 9850890), (1424, 1439, 6), (1440, 1455, 0), (1456, 1471, 65535), (1472, 1487, 0),
    (1488, 1503, 16191), (1504, 1519, 65535), (1524, 1527, 0), (1536, 1551, 0)] ++
  [(1568, 1583, 16711680), (1584, 1631, 0), (1648, 1648, 3932223), (1649, 1649, 65535), (1664, 1664, 196608), (1665, 1665, 0),
    (1666, 1666, 3542136), (1667, 1667, 85501844), (1680, 1695, 1046890048), (1696, 1759, 0), (1760, 1775, 255), (1776, 1777, 0),
    (1792, 1794, 0), (1795, 1795, 0), (1796, 1796, 336199880), (1797, 1797, 6554100), (1798, 1799, 0), (1808, 1823, 1048575),
    (1824, 1839, 0), (1840, 1855, 1000), (1856, 1871, 0), (1888, 1889, 9830700), (1890, 1891, 60), (1892, 1893, 0), (1894, 1894, 0),
    (1920, 1926, 0), (1927, 1927, 209538), (1928, 1928, 0), (1929, 1930, 0), (1931, 1933, 0), (1936, 1943, 0), (1952, 1967, 8),
    (1968, 1983, 10500), (1984, 1990, 0), (1991, 1991, 256), (1992, 1994, 0), (2000, 2039, 1568), (2048, 2087, 65536000),
    (2096, 2135, 0), (2144, 2175, 0), (2176, 2191, 253322360), (2192, 2207, 10501948), (2208, 2212, 0), (2240, 2240, 64),
    (2241, 2241, 7), (2242, 2242, 8), (2243, 2243, 0), (2244, 2245, 0), (2246, 2247, 0), (2249, 2252, 0), (2253, 2253, 4294967295),
    (2254, 2255, 0), (2256, 2261, 0), (2264, 2269, 0), (2272, 2275, 0)] ++
  [(2304, 2306, 0), (2307, 2308, 0), (2309, 2310, 0), (2311, 2311, 1), (2312, 2312, 4294902287), (2313, 2314, 0), (2315, 2315, 0),
    (2316, 2316, 3), (2317, 2317, 0), (2320, 2351, 0), (2352, 2352, 60), (2368, 2368, 0), (2369, 2376, 0), (2377, 2377, 0),
    (2378, 2378, 80), (2379, 2379, 0), (2384, 2415, 0), (2416, 2431, 0), (2432, 2432, 0), (2433, 2434, 0), (2435, 2439, 0),
    (2448, 2463, 0), (2464, 2479, 0), (2496, 2496, 2560), (2497, 2497, 0), (2498, 2499, 4294901760), (2500, 2507, 0),
    (2508, 2509, 0), (2560, 2560, 0), (2561, 2561, 131072), (2562, 2563, 0), (2564, 2564, 131072), (2565, 2570, 0),
    (2571, 2571, 4096), (2592, 2607, 0), (2688, 2688, 0), (2696, 2703, 256673), (2704, 2727, 0), (2752, 2752, 0),
    (2760, 2767, 2685087), (2768, 2783, 0), (2816, 2816, 0), (2817, 2822, 0), (2823, 2825, 0), (2826, 2826, 65535), (2827, 2827, 0),
    (2881, 2881, 0), (2882, 2883, 0), (2888, 2888, 0), (2889, 2890, 0), (2896, 2896, 0), (2897, 2897, 0), (2898, 2899, 0),
    (2900, 2900, 4294967295), (2901, 2902, 0)]

end Sys2Proof
end

