-- ==== Sys2Proof/Certificates/Slice0/Obligations.lean ====
section
/-! DEFINITION. The statements for the provers. Each says what one rule, or one family of commands, does to the device; every clause about a
command says that the command completes, which units it may change, and what it makes of them. -/

open Sys2Proof Sys2Proof.Machine

/-- For every command and every state whose queue begins with it, the step is the effect of that command on the state with the rest of the queue. The queue is the form of the model, which takes commands first in, first out. -/
def Obligations.StepRunsFrontCommand : Prop :=
  ∀ (c : Instr) (r : List Instr) (s : State), s.pending = c :: r → step s = exec c { s with pending := r }

/-- Whatever the command and the state, when its effect goes on to a next state the queue of waiting commands there is the one that was there before. The queue is the form of the model. -/
def Obligations.CommandsLeaveTheQueue : Prop :=
  ∀ (c : Instr) (s t : State), exec c s = .next t → t.pending = s.pending

/-- No command of the table stops the device: for every command and every state, exec answers a next state. The device turns away what it cannot do by an answer, a count or an interrupt. -/
def Obligations.EveryCommandGoesOn : Prop :=
  ∀ (c : Instr) (s : State), ∃ t, exec c s = .next t

/-- On an empty queue the step answers a next state whose queue is empty and whose block is what the background work makes of the block with Tide counted on; that count adds one to Tide when it runs, leaves it when it does not, and changes nothing else of the Tide unit. That the step of an empty queue is one tick with this work is the choice of the model (log entry 1); R37 has the counter advance by one each tick of the PLL. -/
def Obligations.IdleStep : Prop :=
  ∀ s : State, s.pending = [] → ∃ t, step s = .next t ∧ t.pending = [] ∧ t.block = safetyItem s.block (backgroundWork (countTide s.block)) ∧
    (countTide s.block).tide = { s.block.tide with now := if s.block.tide.running then s.block.tide.now + 1 else s.block.tide.now }

/-- In State.reset each word of the register window, as the shadow array holds it, has the value of the Reset column of chapter 21: the words of every register listed there, and 0 at every other word below 0xB80. DBG_VIEW_DATA is read through the view and is left aside. -/
def Obligations.ResetWindowWords : Prop :=
  (∀ r ∈ Sys2Proof.resetWords, ∀ k ∈ List.range (r.2.1 + 1 - r.1), (plainWord State.reset.block (r.1 + k)).toNat = r.2.2) ∧
  (∀ a ∈ List.range 0xB80, (∀ r ∈ Sys2Proof.resetWords, ¬ (r.1 ≤ a ∧ a ≤ r.2.1)) → plainWord State.reset.block a = 0)

/-- State.reset has an empty queue, the reset asserted, Tide at 0 and not running, every mailbox IDLE, and the store, the record SRAM, the panel frames and the mailbox buffers in canonical form. What an unwritten byte reads is the choice of the model, log entry 148. -/
def Obligations.ResetHoldsNothing : Prop :=
  State.reset.pending = [] ∧ MemoriesCanonical State.reset ∧ State.reset.block.rst.inReset = true ∧ State.reset.block.tide.now = 0 ∧
    State.reset.block.tide.running = false ∧ ∀ m, (mbxOf State.reset.block m).state = .idle

/-- From every state whose frame memory lists its addresses strictly rising and no zero byte, every step that goes on leads to a state whose frame memory has that form too. The form is the choice of the model, log entry 148; R471 gives the frames. -/
def Obligations.FrameMemoryStaysCanonical : Prop :=
  KeptByStep fun s => s.block.frames.wf = true

/-- From every state whose record SRAM lists its addresses strictly rising and no zero byte, every step that goes on leads to a state whose record SRAM has that form too. The form is the choice of the model, log entry 148; R457 gives the buffers. -/
def Obligations.RecordMemoryStaysCanonical : Prop :=
  KeptByStep fun s => s.block.qmg.sram.wf = true

/-- From every state whose eight mailbox buffers list their addresses strictly rising and no zero byte, every step that goes on leads to a state whose buffers have that form too. The form is the choice of the model, log entry 148; R422 gives the buffers. -/
def Obligations.MailboxBuffersStayCanonical : Prop :=
  KeptByStep fun s => ∀ m, (mbxOf s.block m).req.wf = true ∧ (mbxOf s.block m).resp.wf = true

/-- Under the conditions of its clause each command answers a next state, the queue stays, only the units listed there change, and what follows holds. SAMPLE_INSTANT, outside replay, with metrology running and Tide at the next sample instant: the 48 codes and the instant are latched. METROLOGY_PUBLISH of the latched instant t, Tide at or past t + 12,000: t is the published instant. SALTERN_APPLY, Saltern running, past t + 24,000: no instant is published, t is applied and waits for Brine. BRINE_PUBLISH, Brine running, past t + 36,000: the debits of all nodes at t, then the cut that t completes. ZC_SYNC_LOST on a phase with real timing, 90,000,000 ticks after its last crossing, or at once where it had none: the phase has no sync and no refresh due; the others keep theirs. SEGMENT_BLOCK_END at the end of a block of its kind: each settled channel of the kind that forms its own magnitude has the value of the block, and the channels of the other kind keep theirs. The constructors of Instr whose completion it states: sampleInstant, metrologyPublish, salternApply, brinePublish, zcSyncLost, segmentBlockEnd. -/
def Obligations.MetrologyInstants : Prop :=
  (∀ (s : State) (codes : Vector (BitVec 24) 48),
      s.block.rpl.mode = false →
      s.block.met.running = true →
      nextMultiple tSample s.block.met.lastSample s.block = (now s.block).toNat →
      ∃ t, exec (.sampleInstant codes) s = .next t ∧ Only [.tide, .met, .acc, .pq, .hic, .rpl, .prior] s t ∧
        t.block.met.latched = some (now s.block) ∧
        t.block.met.lastSample = some (now s.block) ∧
        (∀ c, (chanOf t.block c).code = vget codes c)) ∧
  (∀ (s : State) (i : U64),
      s.block.met.latched = some i →
      i.toNat + 12000 ≤ (now s.block).toNat →
      ∃ t, exec .metrologyPublish s = .next t ∧ Only [.tide, .lau, .met, .acc, .pq, .sess, .imd, .rcm, .pea, .arb, .mbx, .hic, .qmg, .cwy, .cwyX, .btn, .dmp, .rpl, .prior] s t ∧
        t.block.acc.published = some i) ∧
  (∀ (s : State) (i : U64),
      s.block.acc.published = some i →
      s.block.slt.running = true →
      i.toNat + 24000 ≤ (now s.block).toNat →
      ∃ t, exec .salternApply s = .next t ∧ Only [.tide, .lau, .acc, .arb, .slt, .legal, .key, .hic, .qmg, .cwy, .cwyX, .btn, .dmp, .rpl, .prior] s t ∧
        t.block.acc.published = none ∧
        t.block.acc.applied = i ∧
        t.block.acc.priced = some i) ∧
  (∀ (s : State) (i : U64),
      s.block.acc.priced = some i →
      s.block.bri.running = true →
      i.toNat + 36000 ≤ (now s.block).toNat →
      ∃ t, exec .brinePublish s = .next t ∧ Only [.tide, .lau, .acc, .sess, .veh, .plc, .plcCfg, .imd, .imdG, .saf, .safX, .lsw, .pea, .arb, .pf, .slt, .legal, .bri, .key, .hic, .qmg, .cwy, .cwyX, .btn, .dmp, .rpl, .prior] s t ∧
        t.block = safetyItem s.block (cutComplete i (forAll allNodes (debit i) { s.block with acc := { s.block.acc with priced := none } }))) ∧
  (∀ (s : State) (k : Fin 6),
      (vget s.block.pq.phases k).noSync = false →
      s.block.met.running = true →
      vget s.block.tide.zcSeen k = true →
      (vget s.block.tide.zc k).toNat + 90000000 ≤ (now s.block).toNat →
      ∃ t, exec (.zcSyncLost k) s = .next t ∧ Only [.tide, .pq, .rpl, .prior] s t ∧
        (vget t.block.pq.phases k).noSync = true ∧
        (vget t.block.pq.phases k).haveTwo = false ∧
        (vget t.block.pq.phases k).due = [] ∧
        (∀ j, j ≠ k → vget t.block.pq.phases j = vget s.block.pq.phases j)) ∧
  (∀ (s : State) (ac : Bool),
      s.block.met.running = true →
      s.block.met.lastSample.isSome = true →
      ((s.block.met.stamp.toNat + tSample) % (if ac then 30000000 else 1536000) = 0) →
      ∃ t, exec (.segmentBlockEnd ac) s = .next t ∧ Only [.met, .acc, .hic, .rpl] s t ∧
        (∀ c, isDc c ≠ ac → (chanOf s.block c).settled = true → (chanOf s.block c).xValid = true → formsOwn c (chanOf s.block c) = true → (chanOf t.block c).xOwn = (blockValue c (chanOf s.block c)).1) ∧
        (∀ c, isDc c = ac → (chanOf t.block c).x = (chanOf s.block c).x))

/-- Under the conditions of its clause each command answers a next state, the queue stays, only the units listed there change, and what follows holds. MODULATOR_FAULT on a channel without a fault, outside replay: the channel has mod_fault, is not settled, has 8 instants to settle and X +0; its end, MODULATOR_FAULT_CLEAR, leaves it without mod_fault, not settled, with 8 instants to settle. Both leave every other channel as it is, but for the voltage channel of a pair whose current channel it is. A clear without a fault changes nothing. CHANNEL_SETTLED on a live channel that has no instant left, metrology running: the channel is settled, the others stay; the pair of a settled current channel is in no-load, source 69 is raised when it was not, and the other pairs stay. The constructors of Instr whose completion it states: modulatorFault, modulatorFaultClear, channelSettled. -/
def Obligations.ModulatorsAndSettling : Prop :=
  (∀ (s : State) (c : Fin 48),
      s.block.rpl.mode = false →
      (chanOf s.block c).modFault = false →
      ∃ t, exec (.modulatorFault c) s = .next t ∧ Only [.lau, .met, .pq, .sess, .mlk, .veh, .plc, .plcCfg, .imd, .imdG, .saf, .safX, .lsw, .pea, .arb, .slt, .legal, .bri, .key, .hic, .qmg, .cwy, .cwyX, .btn, .dmp, .rpl] s t ∧
        (chanOf t.block c).modFault = true ∧
        (chanOf t.block c).settled = false ∧
        (chanOf t.block c).settleLeft = 8 ∧
        (chanOf t.block c).x = 0 ∧
        (∀ d, d ≠ c → (isPairCurrent c = true → d ≠ pairVolt (pairNo c)) → chanOf t.block d = chanOf s.block d)) ∧
  (∀ (s : State) (c : Fin 48),
      s.block.rpl.mode = false →
      (chanOf s.block c).modFault = true →
      ∃ t, exec (.modulatorFaultClear c) s = .next t ∧ Only [.met, .rpl] s t ∧
        (chanOf t.block c).modFault = false ∧
        (chanOf t.block c).settled = false ∧
        (chanOf t.block c).settleLeft = 8 ∧
        (∀ d, d ≠ c → (isPairCurrent c = true → d ≠ pairVolt (pairNo c)) → chanOf t.block d = chanOf s.block d)) ∧
  (∀ (s : State) (c : Fin 48),
      s.block.rpl.mode = false →
      (chanOf s.block c).modFault = false →
      ∃ t, exec (.modulatorFaultClear c) s = .next t ∧ Only [.met, .rpl] s t ∧
        t.block = safetyItem s.block (s.block)) ∧
  (∀ (s : State) (c : Fin 48),
      (chanOf s.block c).settled = false →
      (chanOf s.block c).live = true →
      (chanOf s.block c).settleLeft = 0 →
      s.block.met.running = true →
      ∃ t, exec (.channelSettled c) s = .next t ∧ Only [.met, .acc, .hic, .rpl] s t ∧
        (chanOf t.block c).settled = true ∧
        (∀ d, d ≠ c → chanOf t.block d = chanOf s.block d) ∧
        (isPairCurrent c = true → (pairOf t.block (pairNo c)).noLoad = true) ∧
        ((isPairCurrent c = true ∧ (pairOf s.block (pairNo c)).noLoad = false) → Raised t.block 69) ∧
        (∀ p, p ≠ pairNo c → pairOf t.block p = pairOf s.block p))

/-- Under the conditions of its clause each command answers a next state, the queue stays, only the units listed there change, and what follows holds. ENGINE_COMPLETE within the deadline: the last slack of that engine is the deadline less the ticks taken, the least is the lesser of it and the least before. ENGINE_OVERRUN: the overruns of that engine count up. Both leave the slack of the other engines. LAUNCHER_TAKE_ENTRY, with the launcher running, a place in the ring and an entry at its queue: the entry is taken from the queue and judged or armed. ENTRY_FIRE at or past the least time armed: the entries of that time fire, the first and second copies of a redundant action arriving as the operands say. ADIE_RESULT at or past 24 ticks after the frame boundary that follows the least time sent: every entry sent by that boundary is resolved, and its ring passes on what is done. The constructors of Instr whose completion it states: engineComplete, engineOverrun, launcherTakeEntry, entryFire, adieResult. -/
def Obligations.EnginesAndLauncher : Prop :=
  (∀ (s : State) (e : Fin 15) (c : U32),
      c.toNat ≤ deadlineOf e →
      ∃ t, exec (.engineComplete e c) s = .next t ∧ Only (Part.but [.snaps, .barrier, .d2d, .cross, .sluCnt, .vehCfg, .v2gCfg, .rcmTest, .pf, .auth, .backup, .hp, .pnl, .frames, .nfc, .upd, .dbg, .settings, .newSettings, .legalSet, .updRec, .kept, .prior]) s t ∧
        (vget t.block.fab e).last = BitVec.ofNat 32 (deadlineOf e - c.toNat) ∧
        (vget t.block.fab e).least = BitVec.ofNat 32 (min (vget s.block.fab e).least.toNat (deadlineOf e - c.toNat)) ∧
        (∀ d, d ≠ e → vget t.block.fab d = vget s.block.fab d)) ∧
  (∀ (s : State) (e : Fin 15) (who : U16),
      ∃ t, exec (.engineOverrun e who) s = .next t ∧ Only (Part.but [.snaps, .barrier, .d2d, .cross, .sluCnt, .vehCfg, .v2gCfg, .rcmTest, .pf, .auth, .backup, .hp, .pnl, .frames, .nfc, .upd, .dbg, .settings, .newSettings, .legalSet, .updRec, .kept, .prior]) s t ∧
        (vget t.block.fab e).overruns = satInc (vget s.block.fab e).overruns ∧
        (∀ d, d ≠ e → vget t.block.fab d = vget s.block.fab d)) ∧
  (∀ (s : State) (r : Fin 1024) (u : Nat),
      launcherRuns s.block = true →
      (ringOf s.block r.val).armed < 8 →
      armedCount s.block < 4096 →
      (qDequeue agLauncher r.val s.block).2 = .ok u →
      ∃ t, exec (.launcherTakeEntry r) s = .next t ∧ Only [.lau, .sess, .slu, .sluCnt, .mlk, .veh, .plc, .plcCfg, .imd, .imdG, .saf, .safX, .lsw, .pea, .arb, .slt, .legal, .bri, .key, .mbx, .hic, .qmg, .cwy, .cwyX, .btn, .dmp, .rpl] s t ∧
        t.block = safetyItem s.block (takeItem r.val u (qDequeue agLauncher r.val s.block).1)) ∧
  (∀ (s : State) (first second : Bool) (i : U64),
      leastTime (ringItems s.block RingItem.isArmed) = some i →
      launcherRuns s.block = true →
      i.toNat ≤ (now s.block).toNat →
      ∃ t, exec (.entryFire first second) s = .next t ∧ Only (Part.but [.barrier, .fab, .cross, .acc, .pq, .vehCfg, .v2g, .v2gCfg, .rcm, .rcmTest, .pf, .auth, .backup, .hp, .pnl, .frames, .nfc, .rst, .upd, .dbg, .settings, .newSettings, .legalSet, .updRec, .kept]) s t ∧
        t.block = safetyItem s.block (fireAt i first second s.block)) ∧
  (∀ (s : State) (i : U64),
      leastTime (ringItems s.block RingItem.isDecided) = some i →
      multipleFrom 16 i.toNat + 24 ≤ (now s.block).toNat →
      ∃ t, exec .adieResult s = .next t ∧ Only (Part.but [.snaps, .barrier, .fab, .d2d, .cross, .met, .acc, .pq, .vehCfg, .v2g, .v2gCfg, .rcm, .rcmTest, .pf, .auth, .backup, .hp, .pnl, .frames, .nfc, .rst, .upd, .dbg, .settings, .newSettings, .legalSet, .updRec, .kept]) s t ∧
        (t.block = safetyItem s.block (forAll ((ringItems s.block fun x => x.isDecided && decide (x.entry.time.toNat ≤ multipleFrom 16 i.toNat)).map (·.1)) trimRing (forAll (ringItems s.block fun x => x.isDecided && decide (x.entry.time.toNat ≤ multipleFrom 16 i.toNat)) adieOne s.block))))

/-- Under the conditions of its clause each command answers a next state, the queue stays, only the units listed there change, and what follows holds. An edge of the configured polarity, outside replay, while capture is enabled, Tide runs and the edge does not discipline: when it is the first, or as far from one second after the last as the window allows, it is accepted: pps_state is LOCKED, the edge stamped now, the accepted count one up, the rejected one unchanged, source 10 raised. Further off: the rejected count is one up and nothing else of the Tide unit changes. PPS_LOST, capture enabled and not LOST, 3,000,000,000 ticks after the last accepted edge or the enable: pps_state is LOST and nothing else of the Tide unit changes; source 11 is raised. The constructors of Instr whose completion it states: ppsEdge, ppsLost. -/
def Obligations.PpsEdges : Prop :=
  (∀ (s : State) (falling : Bool),
      s.block.rpl.mode = false →
      s.block.tide.ppsEnable = true →
      s.block.tide.running = true →
      s.block.tide.ppsFalling = falling →
      s.block.tide.ppsDiscipline = false →
      (s.block.tide.ppsSeen = false ∨ ((((now s.block).toNat : Int) - s.block.tide.ppsLast.toNat - (tSec : Int)).natAbs ≤ ppsWindow s.block.tide)) →
      ∃ t, exec (.ppsEdge falling) s = .next t ∧ Only [.tide, .hic, .rpl] s t ∧
        t.block.tide.ppsSeen = true ∧
        t.block.tide.ppsState = 2 ∧
        t.block.tide.ppsLast = now s.block ∧
        t.block.tide.ppsAccepted = satInc s.block.tide.ppsAccepted ∧
        t.block.tide.ppsRejected = s.block.tide.ppsRejected ∧
        Raised t.block 10) ∧
  (∀ (s : State) (falling : Bool),
      s.block.rpl.mode = false →
      s.block.tide.ppsEnable = true →
      s.block.tide.running = true →
      s.block.tide.ppsFalling = falling →
      s.block.tide.ppsSeen = true →
      ppsWindow s.block.tide < (((now s.block).toNat : Int) - s.block.tide.ppsLast.toNat - (tSec : Int)).natAbs →
      ∃ t, exec (.ppsEdge falling) s = .next t ∧ Only [.tide, .hic, .rpl] s t ∧
        t.block.tide = { s.block.tide with ppsRejected := satInc s.block.tide.ppsRejected }) ∧
  (∀ (s : State),
      s.block.tide.ppsEnable = true →
      s.block.tide.ppsState ≠ 3 →
      s.block.tide.ppsSince.toNat + 3000000000 ≤ (now s.block).toNat →
      ∃ t, exec .ppsLost s = .next t ∧ Only [.tide, .hic, .rpl, .prior] s t ∧
        t.block.tide = { s.block.tide with ppsState := 3 } ∧
        Raised t.block 11)

/-- Under the conditions of its clause each command answers a next state, the queue stays, only the units listed there change, and what follows holds. A frame from the A die with a right CRC ends the run of failures, and its payload stands unless that of a later frame stands already; with a wrong one the failure is counted and the frame asked for again; a frame sent again that is good ends its wait. A frame to the A die with a right CRC clears the missed permit words and stands at the A die; its Tide lane, when it is bad, makes a link fault and loses Tide; with a wrong CRC the failure and a missed permit word are counted. ADIE_PERMIT_TIMEOUT and ADIE_RC_WATCHDOG leave the interlock loop open and limp-home active, the first with 64 missed words. TIDE_LOSS leaves Tide lost, and the crystal, the PLL or the Tide lane as its cause says. DYKE_TIDE_CHECK: a count of 75,000 or more clears the run; the second slow one in a row while Dyke runs loses Tide; before the crossing is valid nothing changes. BARRIER_OPEN opens a barrier now with nobody there. BARRIER_ARRIVE of a participant not yet there, within 3,000 ticks: it has arrived, and its last slack is what is left. BARRIER_RELEASE 3,000 ticks after the opening: with all there, all are released and the RST and safety units stay; else the barrier is failed, the missing ones are named and those there have BARRIER_FAILED. The constructors of Instr whose completion it states: d2dFrameReceive, adiePermitTimeout, adieRcWatchdog, tideLoss, dykeTideCheck, barrierOpen, barrierArrive, barrierRelease. -/
def Obligations.FabricAndLink : Prop :=
  (∀ (s : State) (f : D2dFrame),
      f.a2l = true →
      f.again = false →
      s.block.tide.running = true →
      d2dCrcOk f = true →
      nextFrame s.block.d2d.lastA2L s.block + 24 < 2 ^ 64 →
      ∃ t, exec (.d2dFrameReceive f) s = .next t ∧ Only [.tide, .lau, .d2d, .sess, .mlk, .veh, .plc, .plcCfg, .imd, .imdG, .saf, .safX, .lsw, .pea, .arb, .pf, .slt, .legal, .bri, .key, .hic, .qmg, .cwy, .cwyX, .btn, .dmp, .rpl, .prior] s t ∧
        t.block.d2d.runA2L = 0 ∧
        (t.block.d2d.payload = if s.block.d2d.payloadOf.toNat ≤ nextFrame s.block.d2d.lastA2L s.block then f.payload.toList else s.block.d2d.payload) ∧
        t.block.d2d.inputAt = BitVec.ofNat 64 (nextFrame s.block.d2d.lastA2L s.block) + BitVec.ofNat 64 f.offset.val ∧
        t.block.d2d.crcA2L = s.block.d2d.crcA2L ∧
        t.block.d2d.retrans = s.block.d2d.retrans ∧
        t.block.d2d.fault = s.block.d2d.fault) ∧
  (∀ (s : State) (f : D2dFrame),
      f.a2l = true →
      f.again = false →
      s.block.tide.running = true →
      d2dCrcOk f = false →
      nextFrame s.block.d2d.lastA2L s.block + 24 < 2 ^ 64 →
      ∃ t, exec (.d2dFrameReceive f) s = .next t ∧ Only [.tide, .lau, .d2d, .sess, .mlk, .veh, .plc, .plcCfg, .imd, .imdG, .saf, .safX, .lsw, .pea, .arb, .pf, .slt, .legal, .bri, .key, .hic, .qmg, .cwy, .cwyX, .btn, .dmp, .rpl, .prior] s t ∧
        t.block.d2d.runA2L = s.block.d2d.runA2L + 1 ∧
        t.block.d2d.payload = s.block.d2d.payload ∧
        t.block.d2d.crcA2L = satInc s.block.d2d.crcA2L ∧
        t.block.d2d.retrans = satInc s.block.d2d.retrans ∧
        t.block.d2d.resend = s.block.d2d.resend ++ [(BitVec.ofNat 64 (nextFrame s.block.d2d.lastA2L s.block), 1)]) ∧
  (∀ (s : State) (f : D2dFrame) (i : U64) (k : Nat) (r : List (U64 × Nat)),
      f.a2l = true →
      f.again = true →
      s.block.tide.running = true →
      d2dCrcOk f = true →
      s.block.d2d.resend = (i, k) :: r →
      i.toNat + (24 + 64 * k) < 2 ^ 64 →
      ∃ t, exec (.d2dFrameReceive f) s = .next t ∧ Only [.tide, .lau, .d2d, .sess, .mlk, .veh, .plc, .plcCfg, .imd, .imdG, .saf, .safX, .lsw, .pea, .arb, .pf, .slt, .legal, .bri, .key, .hic, .qmg, .cwy, .cwyX, .btn, .dmp, .rpl, .prior] s t ∧
        t.block.d2d.resend = r ∧
        t.block.d2d.runA2L = 0 ∧
        (t.block.d2d.payload = if s.block.d2d.payloadOf.toNat ≤ i.toNat then f.payload.toList else s.block.d2d.payload) ∧
        t.block.d2d.crcA2L = s.block.d2d.crcA2L ∧
        t.block.d2d.retrans = s.block.d2d.retrans) ∧
  (∀ (s : State) (f : D2dFrame),
      f.a2l = false →
      s.block.tide.running = true →
      d2dCrcOk f = true →
      nextFrame s.block.d2d.lastL2A s.block + 24 < 2 ^ 64 →
      ∃ t, exec (.d2dFrameReceive f) s = .next t ∧ Only [.tide, .lau, .d2d, .sess, .mlk, .veh, .plc, .plcCfg, .imd, .imdG, .saf, .safX, .lsw, .pea, .arb, .pf, .slt, .legal, .bri, .key, .hic, .qmg, .cwy, .cwyX, .btn, .dmp, .rpl, .prior] s t ∧
        t.block.d2d.runL2A = 0 ∧
        t.block.d2d.missedPermits = 0 ∧
        t.block.d2d.sent = f.payload.toList.take 12 ∧
        t.block.d2d.crcL2A = s.block.d2d.crcL2A ∧
        (d2dTideOk f (nextFrame s.block.d2d.lastL2A s.block) = true → t.block.d2d.fault = s.block.d2d.fault ∧ t.block.tide.lost = s.block.tide.lost) ∧
        (d2dTideOk f (nextFrame s.block.d2d.lastL2A s.block) = false → s.block.d2d.fault = false → t.block.d2d.fault = true ∧ t.block.d2d.tideLaneOk = false ∧ t.block.tide.lost = true)) ∧
  (∀ (s : State) (f : D2dFrame),
      f.a2l = false →
      s.block.tide.running = true →
      d2dCrcOk f = false →
      nextFrame s.block.d2d.lastL2A s.block + 24 < 2 ^ 64 →
      ∃ t, exec (.d2dFrameReceive f) s = .next t ∧ Only [.tide, .lau, .d2d, .sess, .mlk, .veh, .plc, .plcCfg, .imd, .imdG, .saf, .safX, .lsw, .pea, .arb, .pf, .slt, .legal, .bri, .key, .hic, .qmg, .cwy, .cwyX, .btn, .dmp, .rpl, .prior] s t ∧
        t.block.d2d.runL2A = s.block.d2d.runL2A + 1 ∧
        t.block.d2d.crcL2A = satInc s.block.d2d.crcL2A ∧
        t.block.d2d.missedPermits = s.block.d2d.missedPermits + 1 ∧
        t.block.d2d.sent = s.block.d2d.sent) ∧
  (∀ (s : State),
      ∃ t, exec .adiePermitTimeout s = .next t ∧ Only [.d2d, .saf, .safX, .lsw, .hic, .rpl] s t ∧
        t.block.saf.ilkClosed = false ∧
        t.block.d2d.missedPermits = 64 ∧
        t.block.lsw.limpActive = true) ∧
  (∀ (s : State),
      ∃ t, exec .adieRcWatchdog s = .next t ∧ Only [.saf, .safX, .lsw, .hic, .rpl] s t ∧
        t.block.saf.ilkClosed = false ∧
        t.block.lsw.limpActive = true) ∧
  (∀ (s : State) (cause : TideLossCause),
      ∃ t, exec (.tideLoss cause) s = .next t ∧ Only [.tide, .lau, .d2d, .sess, .mlk, .veh, .plc, .plcCfg, .imd, .imdG, .saf, .safX, .lsw, .pea, .arb, .pf, .slt, .legal, .bri, .key, .hic, .qmg, .cwy, .cwyX, .btn, .dmp, .rpl] s t ∧
        t.block.tide.lost = true ∧
        (cause = .crystal → t.block.tide.xtalOk = false ∧ t.block.tide.running = false) ∧
        (cause = .pll → t.block.tide.running = false) ∧
        (cause = .tideLane → t.block.d2d.tideLaneOk = false)) ∧
  (∀ (s : State) (advance : U32),
      (crossOf s.block .tideToDyke).copyValid = true →
      75000 ≤ advance.toNat →
      ∃ t, exec (.dykeTideCheck advance) s = .next t ∧ Only [.tide, .lau, .d2d, .sess, .mlk, .veh, .plc, .plcCfg, .imd, .imdG, .saf, .safX, .lsw, .pea, .arb, .pf, .slt, .legal, .bri, .key, .hic, .qmg, .cwy, .cwyX, .btn, .dmp, .rpl] s t ∧
        t.block.d2d = { s.block.d2d with dykeSlow := 0 } ∧
        t.block.tide = s.block.tide) ∧
  (∀ (s : State) (advance : U32),
      (crossOf s.block .tideToDyke).copyValid = false →
      ∃ t, exec (.dykeTideCheck advance) s = .next t ∧ Only [.tide, .lau, .d2d, .sess, .mlk, .veh, .plc, .plcCfg, .imd, .imdG, .saf, .safX, .lsw, .pea, .arb, .pf, .slt, .legal, .bri, .key, .hic, .qmg, .cwy, .cwyX, .btn, .dmp, .rpl] s t ∧
        t.block = safetyItem s.block (s.block)) ∧
  (∀ (s : State) (advance : U32),
      (crossOf s.block .tideToDyke).copyValid = true →
      advance.toNat < 75000 →
      1 ≤ s.block.d2d.dykeSlow →
      s.block.rst.dyke = true →
      ∃ t, exec (.dykeTideCheck advance) s = .next t ∧ Only [.tide, .lau, .d2d, .sess, .mlk, .veh, .plc, .plcCfg, .imd, .imdG, .saf, .safX, .lsw, .pea, .arb, .pf, .slt, .legal, .bri, .key, .hic, .qmg, .cwy, .cwyX, .btn, .dmp, .rpl] s t ∧
        t.block.tide.lost = true ∧
        t.block.d2d.dykeSlow = s.block.d2d.dykeSlow + 1) ∧
  (∀ (s : State),
      s.block.barrier.isOpen = false →
      ∃ t, exec .barrierOpen s = .next t ∧ Only [.barrier, .rpl] s t ∧
        t.block.barrier = { s.block.barrier with isOpen := true, at_ := now s.block, arrived := 0 }) ∧
  (∀ (s : State) (p : Fin 7),
      s.block.barrier.isOpen = true →
      s.block.barrier.arrived.getLsbD p.val = false →
      (now s.block).toNat ≤ s.block.barrier.at_.toNat + 3000 →
      ∃ t, exec (.barrierArrive p) s = .next t ∧ Only [.barrier, .fab, .hic, .rpl] s t ∧
        t.block.barrier = { s.block.barrier with arrived := s.block.barrier.arrived ||| (1#7 <<< p.val) } ∧
        (vget t.block.fab (partEngine p)).last = BitVec.ofNat 32 (3000 - ((now s.block).toNat - s.block.barrier.at_.toNat))) ∧
  (∀ (s : State) (modems : U16),
      s.block.barrier.isOpen = true →
      s.block.barrier.arrived = 127#7 →
      s.block.barrier.at_.toNat + 3000 ≤ (now s.block).toNat →
      ∃ t, exec (.barrierRelease modems) s = .next t ∧ Only (Part.but [.snaps, .d2d, .cross, .sluCnt, .vehCfg, .v2gCfg, .rcmTest, .pf, .auth, .backup, .hp, .pnl, .frames, .nfc, .upd, .dbg, .settings, .newSettings, .legalSet, .updRec, .kept]) s t ∧
        t.block.barrier = { s.block.barrier with isOpen := false, result := Vector.replicate 7 (some .released) } ∧
        t.block.rst = s.block.rst ∧
        t.block.saf = s.block.saf) ∧
  (∀ (s : State) (modems : U16),
      s.block.barrier.isOpen = true →
      s.block.barrier.arrived ≠ 127#7 →
      s.block.barrier.at_.toNat + 3000 ≤ (now s.block).toNat →
      ∃ t, exec (.barrierRelease modems) s = .next t ∧ Only (Part.but [.snaps, .d2d, .cross, .sluCnt, .vehCfg, .v2gCfg, .rcmTest, .pf, .auth, .backup, .hp, .pnl, .frames, .nfc, .upd, .dbg, .settings, .newSettings, .legalSet, .updRec, .kept]) s t ∧
        (t.block.barrier = { s.block.barrier with isOpen := false, fail := true, missing := ~~~s.block.barrier.arrived, result := Vector.ofFn fun p => if s.block.barrier.arrived.getLsbD p.val then some .barrierFailed else none }))

/-- Under the conditions of its clause each command answers a next state, the queue stays, only the units listed there change, and what follows holds. MBX_RING in IDLE or DONE, no duplicate: the mailbox is QUEUED with the tag of the request and the next arrival number, replayed clear, the response as it was; in QUEUED or BUSY it only sets ring_err; a duplicate with a tag, in DONE, leaves the response, with its tag and replayed set. MBX_CANCEL in QUEUED: DONE with status 5 and no payload, and no object of the duplicate check. MBX_ACKNOWLEDGE in DONE, no boot fetch going on: IDLE. MBX_REQUEST_START of the request that Sedge may start, Tide running: BUSY without an answer when its length and reserved bits are right, status 1 when its opcode is none. MBX_RESPONSE_DONE in BUSY with the response complete: DONE, and the request is kept for the duplicate check. But for the rings that count an arrival, no other mailbox changes. The constructors of Instr whose completion it states: mbxRing, mbxCancel, mbxAcknowledge, mbxRequestStart, mbxResponseDone. -/
def Obligations.MailboxProtocol : Prop :=
  (∀ (s : State) (m : Fin 4),
      ((mbxOf s.block m).state = .idle ∨ (mbxOf s.block m).state = .done) →
      (reqTag s.block m = 0 ∨ (mbxOf s.block m).lastValid = false ∨ (mbxOf s.block m).lastReq ≠ reqImage s.block m) →
      ∃ t, exec (.mbxRing m) s = .next t ∧ Only [.mbx, .hp, .hic, .rpl] s t ∧
        (mbxOf t.block m).state = .queued ∧
        (mbxOf t.block m).tag = reqTag s.block m ∧
        (mbxOf t.block m).replayed = false ∧
        (mbxOf t.block m).arrival = s.block.hp.arrivals ∧
        t.block.hp.arrivals = s.block.hp.arrivals + 1 ∧
        (mbxOf t.block m).resp = (mbxOf s.block m).resp ∧
        (∀ k, k ≠ m → mbxOf t.block k = mbxOf s.block k)) ∧
  (∀ (s : State) (m : Fin 4),
      ((mbxOf s.block m).state = .queued ∨ (mbxOf s.block m).state = .busy) →
      ∃ t, exec (.mbxRing m) s = .next t ∧ Only [.mbx, .hp, .hic, .rpl] s t ∧
        mbxOf t.block m = { mbxOf s.block m with ringErr := true } ∧
        t.block.hp = s.block.hp) ∧
  (∀ (s : State) (m : Fin 4),
      (mbxOf s.block m).state = .done →
      reqTag s.block m ≠ 0 →
      (mbxOf s.block m).lastValid = true →
      (mbxOf s.block m).lastReq = reqImage s.block m →
      ∃ t, exec (.mbxRing m) s = .next t ∧ Only [.mbx, .hp, .hic, .rpl] s t ∧
        mbxOf t.block m = { mbxOf s.block m with tag := reqTag s.block m, replayed := true, state := .done } ∧
        t.block.hp = s.block.hp) ∧
  (∀ (s : State) (m : Fin 4),
      (mbxOf s.block m).state = .queued →
      ∃ t, exec (.mbxCancel m) s = .next t ∧ Only [.mbx, .hic, .rpl] s t ∧
        (mbxOf t.block m).state = .done ∧
        (mbxOf t.block m).lastValid = false ∧
        Answered s t m 5 []) ∧
  (∀ (s : State) (m : Fin 4),
      (mbxOf s.block m).state = .done →
      s.block.upd.fetch = none →
      ∃ t, exec (.mbxAcknowledge m) s = .next t ∧ Only [.mbx, .hic, .upd, .rpl] s t ∧
        mbxOf t.block m = { mbxOf s.block m with state := .idle } ∧
        (∀ k, k ≠ m → mbxOf t.block k = mbxOf s.block k)) ∧
  (∀ (s : State) (m : Fin 4),
      mayStart s.block m = true →
      s.block.tide.running = true →
      presentedAt (mbxOf s.block m).rungAt < 2 ^ 64 →
      (((reqShape (reqOp s.block m)).any fun x => lengthOk x s.block m && reservedOk x s.block m) = true) →
      ∃ t, exec (.mbxRequestStart m) s = .next t ∧ Only [.tide, .mbx, .rpl, .prior] s t ∧
        mbxOf t.block m = { mbxOf s.block m with state := .busy, answered := false } ∧
        (∀ k, k ≠ m → mbxOf t.block k = mbxOf s.block k)) ∧
  (∀ (s : State) (m : Fin 4),
      mayStart s.block m = true →
      s.block.tide.running = true →
      presentedAt (mbxOf s.block m).rungAt < 2 ^ 64 →
      (reqShape (reqOp s.block m)).isNone = true →
      ∃ t, exec (.mbxRequestStart m) s = .next t ∧ Only [.tide, .mbx, .rpl, .prior] s t ∧
        Answered s t m 1 [] ∧
        (mbxOf t.block m).state = .busy) ∧
  (∀ (s : State) (m : Fin 4),
      (mbxOf s.block m).state = .busy →
      (mbxOf s.block m).answered = true →
      ∃ t, exec (.mbxResponseDone m) s = .next t ∧ Only [.mbx, .hic, .rpl] s t ∧
        mbxOf t.block m = { mbxOf s.block m with lastReq := reqImage s.block m, lastValid := true, state := .done } ∧
        (∀ k, k ≠ m → mbxOf t.block k = mbxOf s.block k))

/-- For each opcode the guard of a mailbox command is one operation: without a BUSY request of that opcode that waits for its response nothing changes (log entry 8); with one, while the core that executes it does not run, the response is status 8 without payload; in replay mode, where the trace has no response, a command of family 0x14 other than 0x1401 and 0x1407 answers status 7; else the effect of the command happens. A command with checks has its effect when all hold, and otherwise answers the status of the first that fails, without payload and without another effect. -/
def Obligations.CommandsTurnedAway : Prop :=
  ∀ (m : Fin 4) (op : Nat) (need : Need) (f : Block → Block) (s : State),
    (serving s.block m op = false → command m op need f s.block = s.block) ∧
    (serving s.block m op = true → coreRuns s.block need = false → command m op need f s.block = refuse m 8 s.block) ∧
    (serving s.block m op = true → coreRuns s.block need = true → s.block.rpl.mode = true → s.block.rpl.results.find? (fun l => natAt l 0 2 == op) = none →
      familyOf op = 0x14 → op ≠ 0x1401 → op ≠ 0x1407 → command m op need f s.block = refuse m 7 s.block) ∧
    (Asked s m op need → command m op need f s.block = f s.block) ∧
    (∀ l : List (Nat × Bool), (∀ c ∈ l, c.2 = true) → checked m l f s.block = f s.block) ∧
    (∀ (l : List (Nat × Bool)) (st : Nat) (r : List (Nat × Bool)), (∀ c ∈ l, c.2 = true) → checked m (l ++ (st, false) :: r) f s.block = refuse m st s.block)

/-- Under the conditions of its clause each command answers a next state, the queue stays, only the units listed there change, and what follows holds. Each command executes a request of its opcode while Sedge runs. SYS_GET_VERSION returns 4C4B3296 and the bytes 42, 3, 2; SYS_ECHO the payload; SYS_HP_STATUS the five words of the host port; SYS_HP_CLEAR sets the counts of the host port to 0 and leaves its scratch and its arrivals; SYS_FABRIC_SLACK returns deadline, last and least slack, warnings and overruns of one of the 15 engines; SYS_FABRIC_CLEAR of an engine or of all (255) sets the least slack to all ones and warnings and overruns to 0 there, and any other number answers 0x0140; SYS_D2D_STATUS returns the four counts with the fault and Tide lane bits and sets the counts to 0; SYS_RESET of a core that may be reset, of the device or of the hub, outside a pause: the reset is pending for 1 ms later, unless one is pending already, and the instant at which it acts is answered; a scope above 2 answers 0x0110; SYS_GET_RESET returns the 16 words from 0x040. The constructors of Instr whose completion it states: sysGetVersion, sysEcho, sysHpStatus, sysHpClear, sysFabricSlack, sysFabricClear, sysD2dStatus, sysReset, sysGetReset. -/
def Obligations.SystemCommands : Prop :=
  (∀ (s : State) (m : Fin 4),
      Asked s m 0x0101 .sedge →
      ∃ t, exec (.sysGetVersion m) s = .next t ∧ Only [.mbx, .rpl] s t ∧
        Answered s t m 0 (b32 0x4C4B3296 ++ [0x42, 3, 2])) ∧
  (∀ (s : State) (m : Fin 4),
      Asked s m 0x0102 .sedge →
      ∃ t, exec (.sysEcho m) s = .next t ∧ Only [.mbx, .rpl] s t ∧
        Answered s t m 0 (rAll s.block m)) ∧
  (∀ (s : State) (m : Fin 4),
      Asked s m 0x0103 .sedge →
      ∃ t, exec (.sysHpStatus m) s = .next t ∧ Only [.mbx, .rpl] s t ∧
        Answered s t m 0 (b32s [winErrWord s.block.hp, spiErrWord s.block.hp, s.block.hp.committed, s.block.hp.reads, s.block.hp.winEvents])) ∧
  (∀ (s : State) (m : Fin 4),
      Asked s m 0x0104 .sedge →
      ∃ t, exec (.sysHpClear m) s = .next t ∧ Only [.pea, .arb, .mbx, .hp, .hic, .btn, .rpl] s t ∧
        Answered s t m 0 ([]) ∧
        t.block.hp.committed = 0 ∧
        t.block.hp.reads = 0 ∧
        t.block.hp.winEvents = 0 ∧
        t.block.hp.count = 0 ∧
        t.block.hp.spiCount = 0 ∧
        t.block.hp.spiCause = 0 ∧
        t.block.hp.scratch = s.block.hp.scratch ∧
        t.block.hp.arrivals = s.block.hp.arrivals) ∧
  (∀ (s : State) (m : Fin 4) (e : Fin 15),
      Asked s m 0x0140 .sedge →
      e.val = rN s.block m 0 1 →
      ∃ t, exec (.sysFabricSlack m) s = .next t ∧ Only [.mbx, .rpl] s t ∧
        Answered s t m 0 (leBytes 4 (deadlineOf e) ++ b32s [(vget s.block.fab e).last, (vget s.block.fab e).least, (vget s.block.fab e).warnings, (vget s.block.fab e).overruns]) ∧
        t.block.fab = s.block.fab) ∧
  (∀ (s : State) (m : Fin 4),
      Asked s m 0x0141 .sedge →
      (rN s.block m 0 1 < 15 ∨ rN s.block m 0 1 = 255) →
      ∃ t, exec (.sysFabricClear m) s = .next t ∧ Only [.fab, .mbx, .rpl] s t ∧
        Answered s t m 0 ([]) ∧
        (∀ k, vget t.block.fab k = if rN s.block m 0 1 = 255 ∨ k.val = rN s.block m 0 1 then { vget s.block.fab k with least := 0xFFFFFFFF, warnings := 0, overruns := 0 } else vget s.block.fab k)) ∧
  (∀ (s : State) (m : Fin 4),
      Asked s m 0x0141 .sedge →
      (¬ (rN s.block m 0 1 < 15 ∨ rN s.block m 0 1 = 255)) →
      ∃ t, exec (.sysFabricClear m) s = .next t ∧ Only [.fab, .mbx, .rpl] s t ∧
        Answered s t m 0x0140 ([]) ∧
        t.block.fab = s.block.fab) ∧
  (∀ (s : State) (m : Fin 4),
      Asked s m 0x0142 .sedge →
      ∃ t, exec (.sysD2dStatus m) s = .next t ∧ Only [.d2d, .mbx, .rpl] s t ∧
        Answered s t m 0 (b32s [s.block.d2d.crcL2A, s.block.d2d.crcA2L, s.block.d2d.secondCopy, s.block.d2d.retrans] ++ [BitVec.ofNat 8 (b2n s.block.d2d.fault + 2 * b2n s.block.d2d.tideLaneOk)]) ∧
        t.block.d2d = { s.block.d2d with crcL2A := 0, crcA2L := 0, secondCopy := 0, retrans := 0 }) ∧
  (∀ (s : State) (m : Fin 4),
      Asked s m 0x0110 .sedge →
      rN s.block m 0 1 ≤ 2 →
      (rN s.block m 0 1 = 0 → (coreOf (rN s.block m 1 1)).isSome = true) →
      (rN s.block m 0 1 = 0 → (rN s.block m 1 1 = 1 ∨ rN s.block m 1 1 = 2) → allSettled s.block = true) →
      s.block.upd.pause.isNone = true →
      s.block.rst.pending = none →
      ∃ t, exec (.sysReset m) s = .next t ∧ Only [.mbx, .rst, .rpl] s t ∧
        (Answered s t m 0 (b64 (if reqScope (rN s.block m 0 1) = .core then ahead s.block tMs else ahead s.block tMs + BitVec.ofNat 64 stopTicks))) ∧
        t.block.rst.pending = some { scope := reqScope (rN s.block m 0 1), source := 5, core := BitVec.ofNat 5 (rN s.block m 1 1), startAt := ahead s.block tMs, command := now s.block }) ∧
  (∀ (s : State) (m : Fin 4) (x : PendingReset),
      Asked s m 0x0110 .sedge →
      rN s.block m 0 1 ≤ 2 →
      (rN s.block m 0 1 = 0 → (coreOf (rN s.block m 1 1)).isSome = true) →
      (rN s.block m 0 1 = 0 → (rN s.block m 1 1 = 1 ∨ rN s.block m 1 1 = 2) → allSettled s.block = true) →
      s.block.upd.pause.isNone = true →
      s.block.rst.pending = some x →
      ∃ t, exec (.sysReset m) s = .next t ∧ Only [.mbx, .rst, .rpl] s t ∧
        (Answered s t m 0 (b64 (if x.scope = .core then x.startAt else x.startAt + BitVec.ofNat 64 stopTicks))) ∧
        t.block.rst = s.block.rst) ∧
  (∀ (s : State) (m : Fin 4),
      Asked s m 0x0110 .sedge →
      2 < rN s.block m 0 1 →
      ∃ t, exec (.sysReset m) s = .next t ∧ Only [.mbx, .rst, .rpl] s t ∧
        Answered s t m 0x0110 ([]) ∧
        t.block.rst = s.block.rst) ∧
  (∀ (s : State) (m : Fin 4),
      Asked s m 0x0111 .sedge →
      ∃ t, exec (.sysGetReset m) s = .next t ∧ Only [.mbx, .rpl] s t ∧
        (Answered s t m 0 ((List.range 16).flatMap fun k => b32 (rstWord s.block (0x40 + k)))))

/-- Under the conditions of its clause each command answers a next state, the queue stays, only the units listed there change, and what follows holds. Each command executes a request of its opcode while Sedge runs. TIDE_GET_TIME returns Tide and the time of day mapped to it, zeros without a mapping. TIDE_SET_TRIM sets the clamped target and answers it, with 0x0201 when it was clamped. TIDE_PPS_CONFIG configures capture. TIDE_SET_TOD, forced or on an edge accepted, sets the anchor and its seconds and answers by how much the mapping moves; on no such edge it answers 0x0204. TIDE_SNAPSHOT of a bank 1 to 3, to a queue or none, once Tide is ready, at the instant given or 192 ticks ahead of now: the entry goes on ring 131; another bank answers 0x0205, an instant less than 96 ticks ahead 0x0206. TIDE_SUBMIT on a ring 576 to 1023, once Tide is ready: the entry of the payload, when it is clean, goes on that ring, and Tide is answered; another ring answers 0x0202. TIDE_CANCEL there: the entries whose tag matches under the mask are cancelled, and Tide and their number answered. TIDE_RING_STATUS returns the armed and waiting counts and the next instant of a ring, 0x0202 above 1023. TIDE_CLEAR_COUNTS sets the counts of edges and of the launcher to 0 and the peak to what is armed. The constructors of Instr whose completion it states: tideGetTime, tideSetTrim, tidePpsConfig, tideSetTod, tideSnapshot, tideSubmit, tideCancel, tideRingStatus, tideClearCounts. -/
def Obligations.TideCommands : Prop :=
  (∀ (s : State) (m : Fin 4),
      Asked s m 0x0201 .sedge →
      s.block.tide.todSec ≠ 0 →
      ∃ t, exec (.tideGetTime m) s = .next t ∧ Only [.mbx, .rpl] s t ∧
        Answered s t m 0 (b64 (now s.block) ++ leBytes 8 ((s.block.tide.todSec.toNat : Int) + ((now s.block).toNat - (s.block.tide.todAnchor.toNat : Int)) / tSec).toNat ++ leBytes 4 (((now s.block).toNat - (s.block.tide.todAnchor.toNat : Int)) % tSec).toNat) ∧
        t.block.tide = s.block.tide) ∧
  (∀ (s : State) (m : Fin 4),
      Asked s m 0x0201 .sedge →
      s.block.tide.todSec = 0 →
      ∃ t, exec (.tideGetTime m) s = .next t ∧ Only [.mbx, .rpl] s t ∧
        Answered s t m 0 (b64 (now s.block) ++ zeros 12) ∧
        t.block.tide = s.block.tide) ∧
  (∀ (s : State) (m : Fin 4),
      Asked s m 0x0202 .sedge →
      ∃ t, exec (.tideSetTrim m) s = .next t ∧ Only [.tide, .mbx, .hic, .rpl] s t ∧
        (Answered s t m (if clampTrim (r32 s.block m 0).toInt = (r32 s.block m 0).toInt then 0 else 0x0201) (b32 (BitVec.ofInt 32 (clampTrim (r32 s.block m 0).toInt)))) ∧
        t.block.tide.trim = BitVec.ofInt 32 (clampTrim (r32 s.block m 0).toInt)) ∧
  (∀ (s : State) (m : Fin 4),
      Asked s m 0x0203 .sedge →
      ∃ t, exec (.tidePpsConfig m) s = .next t ∧ Only [.tide, .mbx, .rpl] s t ∧
        Answered s t m 0 ([]) ∧
        t.block.tide = (setPps (rBit s.block m 0 0) (rBit s.block m 0 1) (rBit s.block m 0 2) (r16 s.block m 2) s.block).tide ∧
        t.block.tide.ppsEnable = rBit s.block m 0 0 ∧
        t.block.tide.ppsFalling = rBit s.block m 0 1 ∧
        t.block.tide.ppsDiscipline = rBit s.block m 0 2) ∧
  (∀ (s : State) (m : Fin 4),
      Asked s m 0x0204 .sedge →
      (rBit s.block m 16 0 = true ∨ anchorIsEdge s.block (r64 s.block m 0) = true) →
      ∃ t, exec (.tideSetTod m) s = .next t ∧ Only [.tide, .lau, .arb, .slt, .backup, .mbx, .hic, .qmg, .cwy, .cwyX, .btn, .dmp, .rpl] s t ∧
        Answered s t m 0 (leBytes 8 (BitVec.ofInt 64 (setTod (r64 s.block m 0) (r64 s.block m 8) s.block).2).toNat) ∧
        t.block.tide.todSec = r64 s.block m 8 ∧
        t.block.tide.todAnchor = r64 s.block m 0) ∧
  (∀ (s : State) (m : Fin 4),
      Asked s m 0x0204 .sedge →
      rBit s.block m 16 0 = false →
      anchorIsEdge s.block (r64 s.block m 0) = false →
      ∃ t, exec (.tideSetTod m) s = .next t ∧ Only [.tide, .lau, .arb, .slt, .backup, .mbx, .hic, .qmg, .cwy, .cwyX, .btn, .dmp, .rpl] s t ∧
        Answered s t m 0x0204 ([]) ∧
        t.block.tide = s.block.tide) ∧
  (∀ (s : State) (m : Fin 4),
      Asked s m 0x0205 .sedge →
      (¬ (1 ≤ rN s.block m 0 1 ∧ rN s.block m 0 1 ≤ 3)) →
      ∃ t, exec (.tideSnapshot m) s = .next t ∧ Only [.lau, .pea, .arb, .mbx, .hic, .qmg, .cwy, .cwyX, .btn, .dmp, .rpl] s t ∧
        Answered s t m 0x0205 ([]) ∧
        t.block.lau = s.block.lau ∧
        t.block.qmg = s.block.qmg) ∧
  (∀ (s : State) (m : Fin 4) (e : Entry),
      Asked s m 0x0205 .sedge →
      1 ≤ rN s.block m 0 1 →
      rN s.block m 0 1 ≤ 3 →
      queueOk (rN s.block m 2 2) true = true →
      s.block.tide.ready = true →
      (r64 s.block m 8 = 0 ∨ (now s.block).toNat + 96 ≤ (r64 s.block m 8).toNat) →
      (e = { mkEntry tgSnap (rN s.block m 0 1) 1 (zeros 32) (if r64 s.block m 8 = 0 then ahead s.block fwLead else r64 s.block m 8) with tag := BitVec.ofNat 32 m.val }) →
      ∃ t, exec (.tideSnapshot m) s = .next t ∧ Only [.lau, .pea, .arb, .mbx, .hic, .qmg, .cwy, .cwyX, .btn, .dmp, .rpl] s t ∧
        (t.block = safetyItem s.block (if (submitEntry agSedge 131 e s.block).2 then (submitEntry agSedge 131 e s.block).1 else internalFail m (submitEntry agSedge 131 e s.block).1))) ∧
  (∀ (s : State) (m : Fin 4),
      Asked s m 0x0205 .sedge →
      1 ≤ rN s.block m 0 1 →
      rN s.block m 0 1 ≤ 3 →
      queueOk (rN s.block m 2 2) true = true →
      s.block.tide.ready = true →
      r64 s.block m 8 ≠ 0 →
      (r64 s.block m 8).toNat < (now s.block).toNat + 96 →
      ∃ t, exec (.tideSnapshot m) s = .next t ∧ Only [.lau, .pea, .arb, .mbx, .hic, .qmg, .cwy, .cwyX, .btn, .dmp, .rpl] s t ∧
        Answered s t m 0x0206 ([]) ∧
        t.block.lau = s.block.lau ∧
        t.block.qmg = s.block.qmg) ∧
  (∀ (s : State) (m : Fin 4) (e : Entry),
      Asked s m 0x0206 .sedge →
      576 ≤ rN s.block m 0 2 →
      rN s.block m 0 2 ≤ 1023 →
      e = entryOf (rBytes s.block m 8 64) →
      entryClean e = true →
      s.block.tide.ready = true →
      ∃ t, exec (.tideSubmit m) s = .next t ∧ Only [.lau, .pea, .arb, .mbx, .hic, .qmg, .cwy, .cwyX, .btn, .dmp, .rpl] s t ∧
        (t.block = safetyItem s.block (if (submitEntry agSedge (rN s.block m 0 2) e s.block).2 then ok m (b64 (now s.block)) (submitEntry agSedge (rN s.block m 0 2) e s.block).1 else internalFail m (submitEntry agSedge (rN s.block m 0 2) e s.block).1))) ∧
  (∀ (s : State) (m : Fin 4),
      Asked s m 0x0206 .sedge →
      (rN s.block m 0 2 < 576 ∨ 1023 < rN s.block m 0 2) →
      ∃ t, exec (.tideSubmit m) s = .next t ∧ Only [.lau, .pea, .arb, .mbx, .hic, .qmg, .cwy, .cwyX, .btn, .dmp, .rpl] s t ∧
        Answered s t m 0x0202 ([]) ∧
        t.block.lau = s.block.lau ∧
        t.block.qmg = s.block.qmg) ∧
  (∀ (s : State) (m : Fin 4),
      Asked s m 0x0207 .sedge →
      576 ≤ rN s.block m 0 2 →
      rN s.block m 0 2 ≤ 1023 →
      s.block.tide.ready = true →
      ∃ t, exec (.tideCancel m) s = .next t ∧ Only [.lau, .pea, .arb, .mbx, .hic, .qmg, .cwy, .cwyX, .btn, .dmp, .rpl] s t ∧
        (t.block = safetyItem s.block (ok m (b64 (now s.block) ++ leBytes 4 (cancelEntries (rN s.block m 0 2) (fun e => (e.tag &&& r32 s.block m 8) == (r32 s.block m 4 &&& r32 s.block m 8)) s.block).2) (cancelEntries (rN s.block m 0 2) (fun e => (e.tag &&& r32 s.block m 8) == (r32 s.block m 4 &&& r32 s.block m 8)) s.block).1))) ∧
  (∀ (s : State) (m : Fin 4),
      Asked s m 0x0208 .sedge →
      rN s.block m 0 2 ≤ 1023 →
      ∃ t, exec (.tideRingStatus m) s = .next t ∧ Only [.mbx, .rpl] s t ∧
        (Answered s t m 0 ([BitVec.ofNat 8 (ringOf s.block (rN s.block m 0 2)).armed, 0] ++ leBytes 2 (ringWaiting s.block (rN s.block m 0 2)).length ++ zeros 4 ++ b64 (match (ringOf s.block (rN s.block m 0 2)).chain.find? RingItem.isArmed with | some i => i.entry.time | none => 0))) ∧
        t.block.lau = s.block.lau) ∧
  (∀ (s : State) (m : Fin 4),
      Asked s m 0x0208 .sedge →
      1023 < rN s.block m 0 2 →
      ∃ t, exec (.tideRingStatus m) s = .next t ∧ Only [.mbx, .rpl] s t ∧
        Answered s t m 0x0202 ([]) ∧
        t.block.lau = s.block.lau) ∧
  (∀ (s : State) (m : Fin 4),
      Asked s m 0x0209 .sedge →
      ∃ t, exec (.tideClearCounts m) s = .next t ∧ Only [.tide, .lau, .mbx, .rpl] s t ∧
        Answered s t m 0 ([]) ∧
        t.block.tide = { s.block.tide with ppsAccepted := 0, ppsRejected := 0 } ∧
        t.block.lau = { s.block.lau with armedPeak := BitVec.ofNat 13 (armedCount s.block), lateCnt := 0, collCnt := 0, orderCnt := 0, skipCnt := 0, denyCnt := 0, cqDropCnt := 0 })

/-- Under the conditions of its clause each command answers a next state, the queue stays, only the units listed there change, and what follows holds. MET_SEAL_OPEN, Carr running: without a good authorisation it answers 0x0302, with one 0x0303 while some node is not quiet, and metrology stays; with one and every node quiet the seal is open from now, the instant is answered and source 68 raised. MET_SEAL_CLOSE of an open seal answers how many staged tables it discards and leaves the seal closed, no table staged, no raw mode waiting and none in force; of a closed one it answers 0 and metrology stays. SEAL_TIMEOUT, Tide 3,600 s past the opening, leaves an open seal closed in that same way. The constructors of Instr whose completion it states: metSealOpen, metSealClose, sealTimeout. -/
def Obligations.SealCommands : Prop :=
  (∀ (s : State) (m : Fin 4),
      Asked s m 0x0301 .carr →
      allQuiet s.block = true →
      ∃ t, exec (.metSealOpen m) s = .next t ∧ Only [.met, .arb, .key, .mbx, .hic, .btn, .rpl] s t ∧
        ((authorise m 4 (rN s.block m 0 2) s.block).2 = true → t.block.met = { s.block.met with sealOpen := true, sealAt := now s.block }) ∧
        ((authorise m 4 (rN s.block m 0 2) s.block).2 = true → Answered s t m 0 (b64 (now s.block)) ∧ Raised t.block 68) ∧
        ((authorise m 4 (rN s.block m 0 2) s.block).2 = false → t.block.met = s.block.met ∧ Answered s t m 0x0302 [])) ∧
  (∀ (s : State) (m : Fin 4),
      Asked s m 0x0301 .carr →
      allQuiet s.block = false →
      ∃ t, exec (.metSealOpen m) s = .next t ∧ Only [.met, .arb, .key, .mbx, .hic, .btn, .rpl] s t ∧
        t.block.met = s.block.met ∧
        ((authorise m 4 (rN s.block m 0 2) s.block).2 = true → Answered s t m 0x0303 []) ∧
        ((authorise m 4 (rN s.block m 0 2) s.block).2 = false → Answered s t m 0x0302 [])) ∧
  (∀ (s : State) (m : Fin 4),
      Asked s m 0x0302 .carr →
      s.block.met.sealOpen = true →
      ∃ t, exec (.metSealClose m) s = .next t ∧ Only [.lau, .met, .pea, .arb, .mbx, .hic, .qmg, .cwy, .cwyX, .btn, .dmp, .rpl] s t ∧
        Answered s t m 0 (leBytes 4 (stagedCount s.block)) ∧
        t.block.met.sealOpen = false ∧
        (∀ c, (chanOf t.block c).staged = none ∧ (chanOf t.block c).pendingRaw = none ∧ (chanOf t.block c).cfg.raw = false)) ∧
  (∀ (s : State) (m : Fin 4),
      Asked s m 0x0302 .carr →
      s.block.met.sealOpen = false →
      ∃ t, exec (.metSealClose m) s = .next t ∧ Only [.lau, .met, .pea, .arb, .mbx, .hic, .qmg, .cwy, .cwyX, .btn, .dmp, .rpl] s t ∧
        Answered s t m 0 (zeros 4) ∧
        t.block.met = s.block.met) ∧
  (∀ (s : State),
      s.block.met.sealOpen = true →
      s.block.met.sealAt.toNat + 3600 * tSec ≤ (now s.block).toNat →
      ∃ t, exec .sealTimeout s = .next t ∧ Only [.tide, .lau, .met, .pea, .arb, .hic, .qmg, .cwy, .cwyX, .btn, .dmp, .rpl, .prior] s t ∧
        t.block.met.sealOpen = false ∧
        (∀ c, (chanOf t.block c).staged = none ∧ (chanOf t.block c).pendingRaw = none ∧ (chanOf t.block c).cfg.raw = false))

/-- Under the conditions of its clause each command answers a next state, the queue stays, only the units listed there change, and what follows holds. Each command executes a request of its opcode while Carr runs; the setting ones need the open seal. MET_GET_CONFIG returns the configuration of a channel and the check values of its tables. MET_SET_CONFIG with a sensor that fits the channel and every field in its range leaves the new configuration waiting for the next stamp and answers that stamp; a sensor that does not fit, raw mode or a scale that is no positive normal value up to its limit answers 0x0305; with the seal closed it answers the status of the seal. MET_LOAD_TABLE of a sound table stages it with its slopes and answers its check value and the flags of their arithmetic; of a faulty one it answers 0x0306 with the entry and the rule. MET_ACTIVATE_TABLE of whole pairs with tables staged submits one entry for each channel at the instant given, or at the next stamp, or cancels them all when one is not taken; of no channel it answers the instant; with a table missing it answers 0x0308. MET_READ_TABLE returns the active table and its check value, 0x0308 for a staged one that is not there. MET_SET_RAW leaves the raw mode waiting for the next stamp on the channels named and answers that stamp. Other channels keep what they hold. The constructors of Instr whose completion it states: metGetConfig, metSetConfig, metLoadTable, metActivateTable, metReadTable, metSetRaw. -/
def Obligations.MetrologyConfiguration : Prop :=
  (∀ (s : State) (m : Fin 4),
      Asked s m 0x0303 .carr →
      (chanOk s.block m).2 = true →
      ∃ t, exec (.metGetConfig m) s = .next t ∧ Only [.mbx, .rpl] s t ∧
        (Answered s t m 0 (b32s [chCfgWord (chanOf s.block (reqChan s.block m)).cfg, (chanOf s.block (reqChan s.block m)).cfg.scale, (chanOf s.block (reqChan s.block m)).cfg.iNom, tableCrc (chanOf s.block (reqChan s.block m)).active, match (chanOf s.block (reqChan s.block m)).staged with | some i => tableCrc i | none => 0])) ∧
        t.block.met = s.block.met) ∧
  (∀ (s : State) (m : Fin 4),
      Asked s m 0x0304 .carr →
      (sealOk s.block).2 = true →
      (chanOk s.block m).2 = true →
      sensorFits (reqChan s.block m) (fieldOf (rN s.block m 4 4) 0 3) = true →
      (fieldOf (rN s.block m 4 4) 0 3 = 4 ∨ fieldOf (rN s.block m 4 4) 7 2 = 0) →
      fieldOf (rN s.block m 4 4) 3 3 ≤ 5 →
      bitOf (rN s.block m 4 4) 9 = false →
      rN s.block m 4 4 < 1024 →
      positiveNormal (r32 s.block m 8) 0x49742400 = true →
      finite (r32 s.block m 12) = true →
      (r32 s.block m 12).toNat < 2 ^ 31 →
      ∃ t, exec (.metSetConfig m) s = .next t ∧ Only [.met, .pea, .arb, .mbx, .hic, .rpl] s t ∧
        Answered s t m 0 (b64 (nextStamp s.block)) ∧
        (chanOf t.block (reqChan s.block m)).pendingCfg = some ({ sensor := BitVec.ofNat 3 (fieldOf (rN s.block m 4 4) 0 3), gainSel := BitVec.ofNat 3 (fieldOf (rN s.block m 4 4) 3 3), segSrc := bitOf (rN s.block m 4 4) 6, integFc := BitVec.ofNat 2 (fieldOf (rN s.block m 4 4) 7 2), scale := r32 s.block m 8, iNom := r32 s.block m 12 }, nextStamp s.block) ∧
        (∀ c, c ≠ reqChan s.block m → chanOf t.block c = chanOf s.block c)) ∧
  (∀ (s : State) (m : Fin 4),
      Asked s m 0x0304 .carr →
      (sealOk s.block).2 = true →
      (chanOk s.block m).2 = true →
      (sensorFits (reqChan s.block m) (fieldOf (rN s.block m 4 4) 0 3) = false ∨ bitOf (rN s.block m 4 4) 9 = true ∨ positiveNormal (r32 s.block m 8) 0x49742400 = false) →
      ∃ t, exec (.metSetConfig m) s = .next t ∧ Only [.met, .pea, .arb, .mbx, .hic, .rpl] s t ∧
        Answered s t m 0x0305 ([]) ∧
        t.block.met = s.block.met) ∧
  (∀ (s : State) (m : Fin 4),
      Asked s m 0x0304 .carr →
      s.block.met.sealOpen = false →
      ∃ t, exec (.metSetConfig m) s = .next t ∧ Only [.met, .pea, .arb, .mbx, .hic, .rpl] s t ∧
        Answered s t m (sealOk s.block).1 ([]) ∧
        t.block.met = s.block.met) ∧
  (∀ (s : State) (m : Fin 4),
      Asked s m 0x0305 .carr →
      (sealOk s.block).2 = true →
      (chanOk s.block m).2 = true →
      tableFault s.block (reqChan s.block m) (segsOf (rBytes s.block m 4 256)) = none →
      ∃ t, exec (.metLoadTable m) s = .next t ∧ Only [.met, .mbx, .rpl] s t ∧
        Answered s t m 0 (b32 (tableCrc (segsOf (rBytes s.block m 4 256))) ++ [flagByte (withSlopes {} (segsOf (rBytes s.block m 4 256))).2]) ∧
        (chanOf t.block (reqChan s.block m)).staged = some (withSlopes {} (segsOf (rBytes s.block m 4 256))).1 ∧
        (∀ c, c ≠ reqChan s.block m → chanOf t.block c = chanOf s.block c)) ∧
  (∀ (s : State) (m : Fin 4) (e r : Nat),
      Asked s m 0x0305 .carr →
      (sealOk s.block).2 = true →
      (chanOk s.block m).2 = true →
      tableFault s.block (reqChan s.block m) (segsOf (rBytes s.block m 4 256)) = some (e, r) →
      ∃ t, exec (.metLoadTable m) s = .next t ∧ Only [.met, .mbx, .rpl] s t ∧
        Answered s t m 0x0306 ([BitVec.ofNat 8 e, BitVec.ofNat 8 r]) ∧
        t.block.met = s.block.met) ∧
  (∀ (s : State) (m : Fin 4),
      Asked s m 0x0306 .carr →
      (sealOk s.block).2 = true →
      (maskOk s.block m).2 = true →
      maskChans s.block m = [] →
      pairsWhole (rN s.block m 0 8) = true →
      r64 s.block m 8 = 0 →
      (nextStamp s.block).toNat % tSample = 0 →
      (now s.block).toNat + 96 ≤ (nextStamp s.block).toNat →
      ∃ t, exec (.metActivateTable m) s = .next t ∧ Only [.lau, .pea, .arb, .mbx, .hic, .qmg, .cwy, .cwyX, .btn, .dmp, .rpl] s t ∧
        Answered s t m 0 (b64 0 ++ b64 (nextStamp s.block)) ∧
        t.block.met = s.block.met ∧
        t.block.lau = s.block.lau) ∧
  (∀ (s : State) (m : Fin 4),
      Asked s m 0x0306 .carr →
      (sealOk s.block).2 = true →
      (maskOk s.block m).2 = true →
      maskChans s.block m ≠ [] →
      pairsWhole (rN s.block m 0 8) = true →
      (∀ c ∈ maskChans s.block m, (chanOf s.block c).staged.isSome = true) →
      ((if r64 s.block m 8 = 0 then nextStamp s.block else r64 s.block m 8).toNat % tSample = 0) →
      ((now s.block).toNat + 96 ≤ (if r64 s.block m 8 = 0 then nextStamp s.block else r64 s.block m 8).toNat) →
      ∃ t, exec (.metActivateTable m) s = .next t ∧ Only [.lau, .pea, .arb, .mbx, .hic, .qmg, .cwy, .cwyX, .btn, .dmp, .rpl] s t ∧
        (t.block = safetyItem s.block (let a := if r64 s.block m 8 = 0 then nextStamp s.block else r64 s.block m 8; let r := (maskChans s.block m).foldl (fun (x : Block × Bool) c => ((submitEntry 4 513 { mkEntry tgMet c.val 1 (zeros 32) a with tag := BitVec.ofNat 32 (16 + m.val) } x.1).1, x.2 && (submitEntry 4 513 { mkEntry tgMet c.val 1 (zeros 32) a with tag := BitVec.ofNat 32 (16 + m.val) } x.1).2)) (s.block, true); if r.2 then r.1 else internalFail m (cancelEntries 513 (fun e => e.tag == BitVec.ofNat 32 (16 + m.val)) r.1).1))) ∧
  (∀ (s : State) (m : Fin 4) (c : Fin 48),
      Asked s m 0x0306 .carr →
      (sealOk s.block).2 = true →
      (maskOk s.block m).2 = true →
      pairsWhole (rN s.block m 0 8) = true →
      (chanOf s.block c).staged = none →
      c ∈ maskChans s.block m →
      ∃ t, exec (.metActivateTable m) s = .next t ∧ Only [.lau, .pea, .arb, .mbx, .hic, .qmg, .cwy, .cwyX, .btn, .dmp, .rpl] s t ∧
        Answered s t m 0x0308 ([]) ∧
        t.block.met = s.block.met ∧
        t.block.lau = s.block.lau) ∧
  (∀ (s : State) (m : Fin 4),
      Asked s m 0x0307 .carr →
      (chanOk s.block m).2 = true →
      rB s.block m 1 = 0 →
      ∃ t, exec (.metReadTable m) s = .next t ∧ Only [.mbx, .rpl] s t ∧
        Answered s t m 0 (tableBytes (chanOf s.block (reqChan s.block m)).active ++ b32 (tableCrc (chanOf s.block (reqChan s.block m)).active)) ∧
        t.block.met = s.block.met) ∧
  (∀ (s : State) (m : Fin 4),
      Asked s m 0x0307 .carr →
      (chanOk s.block m).2 = true →
      rB s.block m 1 = 1 →
      (chanOf s.block (reqChan s.block m)).staged = none →
      ∃ t, exec (.metReadTable m) s = .next t ∧ Only [.mbx, .rpl] s t ∧
        Answered s t m 0x0308 ([]) ∧
        t.block.met = s.block.met) ∧
  (∀ (s : State) (m : Fin 4),
      Asked s m 0x0308 .carr →
      (sealOk s.block).2 = true →
      (maskOk s.block m).2 = true →
      ∃ t, exec (.metSetRaw m) s = .next t ∧ Only [.met, .mbx, .rpl] s t ∧
        Answered s t m 0 (b64 (nextStamp s.block)) ∧
        (∀ c, chanOf t.block c = if c ∈ maskChans s.block m then { chanOf s.block c with pendingRaw := some (rBit s.block m 8 0, nextStamp s.block) } else chanOf s.block c))

/-- Under the conditions of its clause each command answers a next state, the queue stays, only the units listed there change, and what follows holds. Each command executes a request of its opcode while Carr runs. MET_CAL_MEASURE of 1 to 1,048,576 samples, from the instant given or the next sample instant: the run is set up, and the response waits; of none it answers 0x030B. MET_FP_EVAL returns the sum, the product, the fused product-sum or the fixed-point conversion with its flags; another operation answers 0x030B. MET_CLEAR_COUNTS sets the clip counts of the channels named to 0. MET_SET_NOLOAD and MET_SET_UREF, under the open seal and in range, leave their values waiting for the next stamp of that pair and answer it; with the seal closed the first answers its status, out of range the second answers 0x030C. MET_PQ_CONFIG with sound thresholds and a queue or none leaves the settings of the feeder waiting for the next stamp. MET_ENERGY_READ returns a register with its range and unproven flags and the last instant applied, 0x030E where there is none. MET_ENERGY_CLEAR_FLAGS, under the open seal, clears the range flags of the pairs named and changes no sum. MET_PQ_CLEAR_COUNTS sets the event count to 0 and changes nothing else of power quality. The constructors of Instr whose completion it states: metCalMeasure, metFpEval, metClearCounts, metSetNoload, metSetUref, metPqConfig, metEnergyRead, metEnergyClearFlags, metPqClearCounts. -/
def Obligations.MetrologyCommands : Prop :=
  (∀ (s : State) (m : Fin 4),
      Asked s m 0x0309 .carr →
      (chanOk s.block m).2 = true →
      1 ≤ rN s.block m 4 4 →
      rN s.block m 4 4 ≤ 1048576 →
      (r64 s.block m 8 = 0 ∨ ((r64 s.block m 8).toNat % tSample = 0 ∧ (now s.block).toNat + 96 ≤ (r64 s.block m 8).toNat)) →
      ∃ t, exec (.metCalMeasure m) s = .next t ∧ Only [.met, .mbx, .rpl] s t ∧
        (t.block.met.cal = some { mbx := m, chan := reqChan s.block m, left := rN s.block m 4 4, first := if r64 s.block m 8 = 0 then BitVec.ofNat 64 (((now s.block).toNat / tSample + 1) * tSample) else r64 s.block m 8 }) ∧
        t.block.met.chans = s.block.met.chans ∧
        (mbxOf t.block m).answered = false) ∧
  (∀ (s : State) (m : Fin 4),
      Asked s m 0x0309 .carr →
      (chanOk s.block m).2 = true →
      rN s.block m 4 4 = 0 →
      ∃ t, exec (.metCalMeasure m) s = .next t ∧ Only [.met, .mbx, .rpl] s t ∧
        Answered s t m 0x030B ([]) ∧
        t.block.met = s.block.met) ∧
  (∀ (s : State) (m : Fin 4),
      Asked s m 0x030A .carr →
      (chanOk s.block m).2 = true →
      rB s.block m 1 = 0 →
      ∃ t, exec (.metFpEval m) s = .next t ∧ Only [.mbx, .rpl] s t ∧
        Answered s t m 0 (b32 (w32 (fpAdd f32 (rN s.block m 4 4) (rN s.block m 8 4))) ++ zeros 12 ++ [flagByte (fpAdd f32 (rN s.block m 4 4) (rN s.block m 8 4)).2]) ∧
        t.block.met = s.block.met) ∧
  (∀ (s : State) (m : Fin 4),
      Asked s m 0x030A .carr →
      (chanOk s.block m).2 = true →
      rB s.block m 1 = 1 →
      ∃ t, exec (.metFpEval m) s = .next t ∧ Only [.mbx, .rpl] s t ∧
        Answered s t m 0 (b32 (w32 (fpMul f32 (rN s.block m 4 4) (rN s.block m 8 4))) ++ zeros 12 ++ [flagByte (fpMul f32 (rN s.block m 4 4) (rN s.block m 8 4)).2]) ∧
        t.block.met = s.block.met) ∧
  (∀ (s : State) (m : Fin 4),
      Asked s m 0x030A .carr →
      (chanOk s.block m).2 = true →
      rB s.block m 1 = 2 →
      ∃ t, exec (.metFpEval m) s = .next t ∧ Only [.mbx, .rpl] s t ∧
        Answered s t m 0 (b32 (w32 (fpFma f32 (rN s.block m 4 4) (rN s.block m 8 4) (rN s.block m 12 4))) ++ zeros 12 ++ [flagByte (fpFma f32 (rN s.block m 4 4) (rN s.block m 8 4) (rN s.block m 12 4)).2]) ∧
        t.block.met = s.block.met) ∧
  (∀ (s : State) (m : Fin 4),
      Asked s m 0x030A .carr →
      (chanOk s.block m).2 = true →
      rB s.block m 1 = 3 →
      ∃ t, exec (.metFpEval m) s = .next t ∧ Only [.mbx, .rpl] s t ∧
        Answered s t m 0 (zeros 4 ++ leBytes 12 (fpToFixed (rN s.block m 4 4)).1.toNat ++ [flagByte (fpToFixed (rN s.block m 4 4)).2]) ∧
        t.block.met = s.block.met) ∧
  (∀ (s : State) (m : Fin 4),
      Asked s m 0x030A .carr →
      (chanOk s.block m).2 = true →
      3 < (rB s.block m 1).toNat →
      ∃ t, exec (.metFpEval m) s = .next t ∧ Only [.mbx, .rpl] s t ∧
        Answered s t m 0x030B ([]) ∧
        t.block.met = s.block.met) ∧
  (∀ (s : State) (m : Fin 4),
      Asked s m 0x030B .carr →
      (maskOk s.block m).2 = true →
      ∃ t, exec (.metClearCounts m) s = .next t ∧ Only [.met, .mbx, .rpl] s t ∧
        Answered s t m 0 ([]) ∧
        (∀ c, chanOf t.block c = if c ∈ maskChans s.block m then { chanOf s.block c with clipCount := 0 } else chanOf s.block c)) ∧
  (∀ (s : State) (m : Fin 4),
      Asked s m 0x0320 .carr →
      s.block.met.sealOpen = false →
      ∃ t, exec (.metSetNoload m) s = .next t ∧ Only [.acc, .pea, .arb, .mbx, .hic, .rpl] s t ∧
        Answered s t m (sealOk s.block).1 ([]) ∧
        t.block.acc.pairs = s.block.acc.pairs) ∧
  (∀ (s : State) (m : Fin 4),
      Asked s m 0x0320 .carr →
      (sealOk s.block).2 = true →
      (rB s.block m 0).toNat < 22 →
      withinF (r32 s.block m 4) (timesRatio (chanOf s.block (pairCurr (reqPair s.block m))).cfg.iNom 1 100) = true →
      withinF (r32 s.block m 8) (ratioF (exactF (r32 s.block m 4) * exactF (pairOf s.block (reqPair s.block m)).uRef) (2 ^ 298)) = true →
      ∃ t, exec (.metSetNoload m) s = .next t ∧ Only [.acc, .pea, .arb, .mbx, .hic, .rpl] s t ∧
        Answered s t m 0 (b64 (nextStamp s.block)) ∧
        (pairOf t.block (reqPair s.block m)).pendingNoload = some (r32 s.block m 4, r32 s.block m 8, nextStamp s.block) ∧
        (∀ p, p ≠ reqPair s.block m → pairOf t.block p = pairOf s.block p)) ∧
  (∀ (s : State) (m : Fin 4),
      Asked s m 0x0321 .carr →
      (sealOk s.block).2 = true →
      (rB s.block m 0).toNat < 22 →
      positiveNormal (r32 s.block m 4) 0x44960000 = true →
      ∃ t, exec (.metSetUref m) s = .next t ∧ Only [.acc, .pea, .arb, .mbx, .hic, .rpl] s t ∧
        Answered s t m 0 (b64 (nextStamp s.block)) ∧
        (pairOf t.block (reqPair s.block m)).pendingUref = some (r32 s.block m 4, nextStamp s.block) ∧
        (∀ p, p ≠ reqPair s.block m → pairOf t.block p = pairOf s.block p)) ∧
  (∀ (s : State) (m : Fin 4),
      Asked s m 0x0321 .carr →
      (sealOk s.block).2 = true →
      (22 ≤ (rB s.block m 0).toNat ∨ positiveNormal (r32 s.block m 4) 0x44960000 = false) →
      ∃ t, exec (.metSetUref m) s = .next t ∧ Only [.acc, .pea, .arb, .mbx, .hic, .rpl] s t ∧
        Answered s t m 0x030C ([]) ∧
        t.block.acc.pairs = s.block.acc.pairs) ∧
  (∀ (s : State) (m : Fin 4) (f : Fin 2),
      Asked s m 0x0322 .carr →
      (rB s.block m 0).toNat = f.val →
      pqThresholdsOk (rN s.block m 4 2) (rN s.block m 6 2) (rN s.block m 8 2) (rN s.block m 10 2) = true →
      queueOk (rN s.block m 2 2) true = true →
      ∃ t, exec (.metPqConfig m) s = .next t ∧ Only [.pq, .pea, .arb, .mbx, .hic, .rpl] s t ∧
        Answered s t m 0 ([]) ∧
        (vget t.block.pq.feeders f).pending = some ({ enable := rBit s.block m 1 0, f60 := rBit s.block m 1 1, queue := r16 s.block m 2, sag := r16 s.block m 4, swell := r16 s.block m 6, interruption := r16 s.block m 8, hyst := r16 s.block m 10 }, nextStamp s.block) ∧
        (∀ g, g ≠ f → vget t.block.pq.feeders g = vget s.block.pq.feeders g)) ∧
  (∀ (s : State) (m : Fin 4) (r : Register),
      Asked s m 0x0323 .carr →
      energyReg s.block (rB s.block m 0).toNat = some r →
      ∃ t, exec (.metEnergyRead m) s = .next t ∧ Only [.mbx, .rpl] s t ∧
        Answered s t m 0 (leBytes 12 r.acc.toNat ++ [BitVec.ofNat 8 (b2n r.range + 2 * b2n r.unproven), 0, 0, 0] ++ b64 s.block.acc.applied) ∧
        t.block.acc = s.block.acc) ∧
  (∀ (s : State) (m : Fin 4),
      Asked s m 0x0323 .carr →
      energyReg s.block (rB s.block m 0).toNat = none →
      ∃ t, exec (.metEnergyRead m) s = .next t ∧ Only [.mbx, .rpl] s t ∧
        Answered s t m 0x030E ([]) ∧
        t.block.acc = s.block.acc) ∧
  (∀ (s : State) (m : Fin 4),
      Asked s m 0x0324 .carr →
      (sealOk s.block).2 = true →
      rN s.block m 0 4 < 2 ^ 22 →
      ∃ t, exec (.metEnergyClearFlags m) s = .next t ∧ Only [.acc, .arb, .mbx, .btn, .rpl] s t ∧
        (∀ p, vget t.block.acc.pairs p = if bitOf (rN s.block m 0 4) p.val = true then { vget s.block.acc.pairs p with range := false } else vget s.block.acc.pairs p)) ∧
  (∀ (s : State) (m : Fin 4),
      Asked s m 0x0325 .carr →
      ∃ t, exec (.metPqClearCounts m) s = .next t ∧ Only [.pq, .mbx, .rpl] s t ∧
        Answered s t m 0 ([]) ∧
        t.block.pq = { s.block.pq with count := 0 })

/-- Under the conditions of its clause each command answers a next state, the queue stays, only the units listed there change, and what follows holds. ALLOCATION_BOUNDARY with Tide at the next boundary: what was published is applied and the next inputs are latched, as the boundary operation does. SLUICE_PUBLISH of the inputs latched at a boundary, Tide 600,000 ticks past it: they are solved and published. MAX_DELAY_EXPIRED of a candidate in ADMISSION that is not served and has a limit, past that limit: it is expired, and no session has anything else changed. REASON_HOLD_EXPIRED of a Served session whose other reason has stood for the hold: that reason is reported, its count begins again, source 128 is raised and the other sessions stay. SURPLUS_RELEASE after 1,000 frames of surplus: the release is asked for. LEAVE_WAIT_TIMEOUT of a leave that waits and has not begun, after 100 frames: its slot is free. PRECHARGE_DONE after 32 samples, Sedge running: the session is CHARGING from now, its precharge done, the others stay. PRECHARGE_TIMEOUT 15,000,000,000 ticks after the precharge began: the session is stopped with DEVICE_FAULT. The constructors of Instr whose completion it states: allocationBoundary, sluicePublish, maxDelayExpired, reasonHoldExpired, surplusRelease, leaveWaitTimeout, prechargeDone, prechargeTimeout. -/
def Obligations.SluiceInstants : Prop :=
  (∀ (s : State),
      nextMultiple tFrame s.block.slu.boundaryAt s.block = (now s.block).toNat →
      ∃ t, exec .allocationBoundary s = .next t ∧ Only (Part.but [.snaps, .barrier, .fab, .d2d, .cross, .met, .pq, .mlk, .vehCfg, .v2g, .v2gCfg, .rcm, .rcmTest, .auth, .backup, .mbx, .hp, .pnl, .frames, .nfc, .rst, .upd, .dbg, .settings, .newSettings, .legalSet, .updRec, .kept]) s t ∧
        t.block = safetyItem s.block (boundaryAt (BitVec.ofNat 64 (now s.block).toNat) s.block)) ∧
  (∀ (s : State) (L : SluLatch),
      s.block.slu.latch = some L →
      L.boundary.toNat + 600000 ≤ (now s.block).toNat →
      ∃ t, exec .sluicePublish s = .next t ∧ Only [.tide, .lau, .sess, .slu, .sluCnt, .mlk, .veh, .plc, .plcCfg, .imd, .imdG, .saf, .safX, .lsw, .pea, .arb, .slt, .legal, .bri, .key, .hic, .qmg, .cwy, .cwyX, .btn, .dmp, .rpl, .prior] s t ∧
        t.block = safetyItem s.block (publishSolve L s.block)) ∧
  (∀ (s : State) (n : Fin 16) (i : U64),
      (sessOf s.block n).delayFrom = some i →
      (sessOf s.block n).phase = .admission →
      (sessOf s.block n).served = false →
      (sessOf s.block n).maxDelay ≠ 0 →
      i.toNat + (sessOf s.block n).maxDelay.toNat * tSec ≤ (now s.block).toNat →
      ∃ t, exec (.maxDelayExpired n) s = .next t ∧ Only [.tide, .sess, .rpl, .prior] s t ∧
        (t.block.sess = vupd s.block.sess n fun x => { x with expired := true })) ∧
  (∀ (s : State) (n : Fin 16),
      (sessOf s.block n).rep.outcome = .served →
      (sessOf s.block n).rawReason ≠ (sessOf s.block n).rep.reason →
      s.block.slu.reasonHold.toNat ≤ (sessOf s.block n).rawSince →
      ∃ t, exec (.reasonHoldExpired n) s = .next t ∧ Only [.lau, .sess, .arb, .hic, .qmg, .cwy, .cwyX, .btn, .dmp, .rpl] s t ∧
        (sessOf t.block n).rep.reason = (sessOf s.block n).rawReason ∧
        (sessOf t.block n).rawSince = 0 ∧
        Raised t.block 128 ∧
        (∀ k, k ≠ n → sessOf t.block k = sessOf s.block k)) ∧
  (∀ (s : State) (n : Fin 16),
      1000 ≤ (sessOf s.block n).surplusFrames →
      ∃ t, exec (.surplusRelease n) s = .next t ∧ Only [.sess, .rpl] s t ∧
        (t.block.sess = vupd s.block.sess n fun x => { x with release := true })) ∧
  (∀ (s : State) (h : Fin 24) (x : HandOver),
      hoOf s.block h = some x →
      x.stage = .wait →
      x.begun = none →
      100 ≤ x.waited →
      ∃ t, exec (.leaveWaitTimeout h) s = .next t ∧ Only [.lau, .slu, .pea, .arb, .hic, .qmg, .cwy, .cwyX, .btn, .dmp, .rpl] s t ∧
        hoOf t.block h = none) ∧
  (∀ (s : State) (n : Fin 16),
      (sessOf s.block n).phase = .precharge →
      32 ≤ (sessOf s.block n).prechargeRun →
      s.block.rst.sedge = true →
      ∃ t, exec (.prechargeDone n) s = .next t ∧ Only [.lau, .sess, .plc, .plcCfg, .imd, .imdG, .saf, .safX, .lsw, .arb, .hic, .qmg, .cwy, .cwyX, .btn, .dmp, .rpl] s t ∧
        (sessOf t.block n).phase = .charging ∧
        (sessOf t.block n).prechargeDone = true ∧
        (sessOf t.block n).enteredAt = now s.block ∧
        (∀ k, k ≠ n → sessOf t.block k = sessOf s.block k)) ∧
  (∀ (s : State) (n : Fin 16),
      (sessOf s.block n).phase = .precharge →
      (sessOf s.block n).prechargeDone = false →
      (sessOf s.block n).enteredAt.toNat + 15000000000 ≤ (now s.block).toNat →
      ∃ t, exec (.prechargeTimeout n) s = .next t ∧ Only [.tide, .lau, .sess, .veh, .plc, .plcCfg, .imd, .imdG, .saf, .safX, .lsw, .pea, .arb, .slt, .legal, .bri, .key, .hic, .qmg, .cwy, .cwyX, .btn, .dmp, .rpl, .prior] s t ∧
        t.block = safetyItem s.block (stopSession n .deviceFault s.block))

/-- Under the conditions of its clause each command answers a next state, the queue stays, only the units listed there change, and what follows holds. HANDOVER_VERIFY of a snapshot in bank 0 not judged yet, Tide 30,000 ticks past it: that snapshot is judged. HANDOVER_EVALUATE with Tide at the next cycle instant: the cycle is marked, the contacts of all modules followed, every hand-over evaluated and every session in ADMISSION asked to leave it, in that order. HANDOVER_TIMEOUT of a stage that acted: 30,000,000 ticks after an OPEN it is a selector fault, 15,000,000 after a MATCH the hand-over aborts, 30,000,000 after a CLOSE it is a selector fault and the module is commanded open. The constructors of Instr whose completion it states: handoverVerify, handoverEvaluate, handoverTimeout. -/
def Obligations.HandOverInstants : Prop :=
  (∀ (s : State),
      (vget s.block.snaps 0).seq ≠ 0 →
      s.block.slu.verifiedAt ≠ some (vget s.block.snaps 0).instant →
      (vget s.block.snaps 0).instant.toNat + 30000 ≤ (now s.block).toNat →
      ∃ t, exec .handoverVerify s = .next t ∧ Only [.tide, .lau, .sess, .slu, .veh, .plc, .plcCfg, .imd, .imdG, .saf, .safX, .lsw, .pea, .arb, .slt, .legal, .bri, .key, .hic, .qmg, .cwy, .cwyX, .btn, .dmp, .rpl, .prior] s t ∧
        t.block.slu.verifiedAt = some (vget s.block.snaps 0).instant) ∧
  (∀ (s : State),
      nextMultiple tCycle s.block.slu.evalAt s.block = (now s.block).toNat →
      ∃ t, exec .handoverEvaluate s = .next t ∧ Only [.tide, .lau, .sess, .slu, .sluCnt, .mlk, .veh, .plc, .plcCfg, .imd, .imdG, .saf, .safX, .lsw, .pea, .arb, .slt, .legal, .bri, .key, .hic, .qmg, .cwy, .cwyX, .btn, .dmp, .rpl, .prior] s t ∧
        (t.block = safetyItem s.block (forAll allNodes leaveAdmission (eachHo (evaluateOne (now s.block).toNat) (forAll allModules (followContacts (now s.block).toNat) (updSlu (fun x => { x with evalAt := some (now s.block) }) s.block)))))) ∧
  (∀ (s : State) (h : Fin 24) (x : HandOver) (i : U64),
      hoOf s.block h = some x →
      x.stage = .open →
      x.acted = some i →
      i.toNat + 30000000 ≤ (now s.block).toNat →
      ∃ t, exec (.handoverTimeout h) s = .next t ∧ Only [.tide, .lau, .slu, .sluCnt, .pea, .arb, .hic, .qmg, .cwy, .cwyX, .btn, .dmp, .rpl, .prior] s t ∧
        t.block = safetyItem s.block (selectorFault h x s.block)) ∧
  (∀ (s : State) (h : Fin 24) (x : HandOver) (i : U64),
      hoOf s.block h = some x →
      x.stage = .match_ →
      x.acted = some i →
      i.toNat + 15000000 ≤ (now s.block).toNat →
      ∃ t, exec (.handoverTimeout h) s = .next t ∧ Only [.tide, .lau, .slu, .sluCnt, .pea, .arb, .hic, .qmg, .cwy, .cwyX, .btn, .dmp, .rpl, .prior] s t ∧
        t.block = safetyItem s.block (hoAbort h x s.block)) ∧
  (∀ (s : State) (h : Fin 24) (x : HandOver) (i : U64),
      hoOf s.block h = some x →
      x.stage = .close →
      x.acted = some i →
      i.toNat + 30000000 ≤ (now s.block).toNat →
      ∃ t, exec (.handoverTimeout h) s = .next t ∧ Only [.tide, .lau, .slu, .sluCnt, .pea, .arb, .hic, .qmg, .cwy, .cwyX, .btn, .dmp, .rpl, .prior] s t ∧
        t.block = safetyItem s.block (openCommand x.module (selectorFault h x s.block)))

/-- Under the conditions of its clause each command answers a next state, the queue stays, only the units listed there change, and what follows holds. Each command executes a request of its opcode while Sedge runs. SLU_SET_SITE with an efficiency of 900 to 1,000 sets the site limits and it, and answers the boundary at which it takes effect with the two budgets, 0x0403 when a budget is below the floors promised; other efficiencies answer 0x0402. SLU_SET_CONNECTOR in range, the session not served or its floor not raised beyond what fits: weight, floor, refuse, longest delay and host cap of that connector, and no other session changes; weight 0 answers 0x0402. SLU_SET_TUNING with tolerances in range and a queue or none: cost, margin and the two mode bits at once, the rest waiting for the boundary answered. SLU_GET_NODE, SLU_GET_MAP and SLU_GET_HANDOVERS return the words, the map and setpoints, and the hand-overs that the allocation holds. SLU_MODULE_SERVICE of a module not in flight: a return, and a removal of one that counts on no node, wait for the boundary answered; one that counts on a node is due to leave; a module in flight answers 0x0406. SLU_CLEAR_COUNTS sets the counters to 0 and the peak to the hand-overs in flight. The constructors of Instr whose completion it states: sluSetSite, sluSetConnector, sluSetTuning, sluGetNode, sluGetMap, sluModuleService, sluGetHandovers, sluClearCounts. -/
def Obligations.SluiceCommands : Prop :=
  (∀ (s : State) (m : Fin 4) (L : SluLatch),
      Asked s m 0x0401 .sedge →
      900 ≤ rN s.block m 8 2 →
      rN s.block m 8 2 ≤ 1000 →
      L = { siteImp := (r32 s.block m 0).toNat, siteExp := (r32 s.block m 4).toNat, eta := rN s.block m 8 2 } →
      ∃ t, exec (.sluSetSite m) s = .next t ∧ Only [.slu, .pea, .arb, .mbx, .hic, .rpl] s t ∧
        (Answered s t m (if budgetOf L false < s.block.slu.floorDel.toNat ∨ budgetOf L true < s.block.slu.floorExp.toNat then 0x0403 else 0) (leBytes 8 (nextEffect s.block) ++ b16 (satNat 16 (budgetOf L false)) ++ b16 (satNat 16 (budgetOf L true)))) ∧
        t.block.slu.siteImp = r32 s.block m 0 ∧
        t.block.slu.siteExp = r32 s.block m 4 ∧
        t.block.slu.eta = BitVec.ofNat 10 (rN s.block m 8 2) ∧
        t.block.slu.modules = s.block.slu.modules) ∧
  (∀ (s : State) (m : Fin 4),
      Asked s m 0x0401 .sedge →
      (rN s.block m 8 2 < 900 ∨ 1000 < rN s.block m 8 2) →
      ∃ t, exec (.sluSetSite m) s = .next t ∧ Only [.slu, .pea, .arb, .mbx, .hic, .rpl] s t ∧
        Answered s t m 0x0402 ([]) ∧
        t.block.slu = s.block.slu) ∧
  (∀ (s : State) (m : Fin 4),
      Asked s m 0x0402 .sedge →
      (nodeCheck 0x0401 s.block m).2 = true →
      1 ≤ rN s.block m 1 1 →
      1 ≤ rN s.block m 2 1 →
      rN s.block m 2 1 ≤ 24 →
      1 ≤ rN s.block m 6 2 →
      rN s.block m 6 2 ≤ 6000 →
      ((sessOf s.block (reqNode s.block m)).served = false ∨ rN s.block m 2 1 ≤ (sessOf s.block (reqNode s.block m)).floor.toNat ∨ raisedFloorFits (reqNode s.block m) (BitVec.ofNat 5 (rN s.block m 2 1)) s.block = true) →
      ∃ t, exec (.sluSetConnector m) s = .next t ∧ Only [.sess, .pea, .arb, .mbx, .hic, .rpl] s t ∧
        Answered s t m 0 (leBytes 8 (nextEffect s.block)) ∧
        (sessOf t.block (reqNode s.block m)).weight = BitVec.ofNat 8 (rN s.block m 1 1) ∧
        (sessOf t.block (reqNode s.block m)).floor = BitVec.ofNat 5 (rN s.block m 2 1) ∧
        (sessOf t.block (reqNode s.block m)).refuse = rBit s.block m 3 0 ∧
        (sessOf t.block (reqNode s.block m)).maxDelay = r16 s.block m 4 ∧
        (sessOf t.block (reqNode s.block m)).hostCap = BitVec.ofNat 16 (rN s.block m 6 2) ∧
        (∀ k, k ≠ reqNode s.block m → sessOf t.block k = sessOf s.block k)) ∧
  (∀ (s : State) (m : Fin 4),
      Asked s m 0x0402 .sedge →
      (nodeCheck 0x0401 s.block m).2 = true →
      rN s.block m 1 1 = 0 →
      ∃ t, exec (.sluSetConnector m) s = .next t ∧ Only [.sess, .pea, .arb, .mbx, .hic, .rpl] s t ∧
        Answered s t m 0x0402 ([]) ∧
        t.block.sess = s.block.sess) ∧
  (∀ (s : State) (m : Fin 4),
      Asked s m 0x0403 .sedge →
      zcTolOk (rN s.block m 5 1) (rN s.block m 6 1) (rN s.block m 7 1) = true →
      queueOk (rN s.block m 10 2) true = true →
      ∃ t, exec (.sluSetTuning m) s = .next t ∧ Only [.slu, .pea, .arb, .mbx, .hic, .rpl] s t ∧
        Answered s t m 0 (leBytes 8 (nextEffect s.block)) ∧
        t.block.slu.moveCost = r16 s.block m 0 ∧
        t.block.slu.moveMargin = r16 s.block m 2 ∧
        t.block.slu.pendingTune = some ({ reasonHold := reasonHoldOf (rN s.block m 4 1), zcMod := rB s.block m 5, zcNodeAbs := rB s.block m 6, zcNodeRel := rB s.block m 7, outcomeQueue := r16 s.block m 10 }, BitVec.ofNat 64 (nextEffect s.block)) ∧
        t.block.slu.holdMoves = rBit s.block m 8 0 ∧
        t.block.slu.strictFifo = rBit s.block m 8 1 ∧
        t.block.slu.ho = s.block.slu.ho) ∧
  (∀ (s : State) (m : Fin 4),
      Asked s m 0x0404 .sedge →
      (nodeCheck 0x0401 s.block m).2 = true →
      ∃ t, exec (.sluGetNode m) s = .next t ∧ Only [.mbx, .rpl] s t ∧
        (Answered s t m 0 (b32 (sluNodeStat s.block (reqNode s.block m)) ++ b32 (sluNodePower s.block (reqNode s.block m)) ++ b32 (sessOf s.block (reqNode s.block m)).number ++ leBytes 12 (bitsNat (allModules.map fun x => countsOn s.block x == some (reqNode s.block m))) ++ b64 (sessOf s.block (reqNode s.block m)).entry))) ∧
  (∀ (s : State) (m : Fin 4),
      Asked s m 0x0405 .sedge →
      ∃ t, exec (.sluGetMap m) s = .next t ∧ Only [.mbx, .rpl] s t ∧
        Answered s t m 0 (b64 s.block.slu.mapTide ++ padTo 96 s.block.slu.mapBytes ++ setpointBytes s.block)) ∧
  (∀ (s : State) (m : Fin 4),
      Asked s m 0x0406 .sedge →
      (moduleCheck 0x0405 s.block m).2 = true →
      (rN s.block m 1 1 = 1 ∨ (rN s.block m 1 1 = 0 ∧ countsOn s.block (reqModule s.block m) = none)) →
      inFlight s.block (reqModule s.block m) = false →
      ∃ t, exec (.sluModuleService m) s = .next t ∧ Only [.slu, .mbx, .rpl] s t ∧
        Answered s t m 0 (leBytes 8 (nextEffect s.block)) ∧
        (t.block.slu = { s.block.slu with pendingService := (s.block.slu.pendingService.filter fun e => e.1 != reqModule s.block m) ++ [(reqModule s.block m, decide (rN s.block m 1 1 = 1), BitVec.ofNat 64 (nextEffect s.block))] })) ∧
  (∀ (s : State) (m : Fin 4),
      Asked s m 0x0406 .sedge →
      (moduleCheck 0x0405 s.block m).2 = true →
      rN s.block m 1 1 = 0 →
      inFlight s.block (reqModule s.block m) = false →
      (countsOn s.block (reqModule s.block m)).isSome = true →
      ∃ t, exec (.sluModuleService m) s = .next t ∧ Only [.slu, .mbx, .rpl] s t ∧
        Answered s t m 0 (leBytes 8 (nextEffect s.block)) ∧
        (sluModOf t.block (reqModule s.block m)).leaveDue = true ∧
        (∀ k, k ≠ reqModule s.block m → sluModOf t.block k = sluModOf s.block k) ∧
        t.block.slu.pendingService = s.block.slu.pendingService) ∧
  (∀ (s : State) (m : Fin 4),
      Asked s m 0x0406 .sedge →
      (moduleCheck 0x0405 s.block m).2 = true →
      rN s.block m 1 1 < 2 →
      inFlight s.block (reqModule s.block m) = true →
      ∃ t, exec (.sluModuleService m) s = .next t ∧ Only [.slu, .mbx, .rpl] s t ∧
        Answered s t m 0x0406 ([]) ∧
        t.block.slu = s.block.slu) ∧
  (∀ (s : State) (m : Fin 4),
      Asked s m 0x0407 .sedge →
      ∃ t, exec (.sluGetHandovers m) s = .next t ∧ Only [.mbx, .rpl] s t ∧
        (Answered s t m 0 (b32s (s.block.slu.ho.toList.map sluHoWord) ++ s.block.slu.ho.toList.flatMap fun x => match x with | some h => b64 h.decided | none => zeros 8))) ∧
  (∀ (s : State) (m : Fin 4),
      Asked s m 0x0408 .sedge →
      ∃ t, exec (.sluClearCounts m) s = .next t ∧ Only [.slu, .sluCnt, .mbx, .rpl] s t ∧
        Answered s t m 0 ([]) ∧
        t.block.sluCnt = {} ∧
        t.block.slu = { s.block.slu with inFlightPeak := BitVec.ofNat 5 (flightCount s.block) })

/-- Under the conditions of its clause each command answers a next state, the queue stays, only the units listed there change, and what follows holds. Each command executes a request of its opcode while Sedge runs, of a lane, module or node that exists. MLK_GET_LANE returns the five words of a lane and its fault; MLK_GET_TELEMETRY returns the record of a module, its stamp, its age in cycles (at most 255, and 255 when it never passed a slot), stale and veto; MLK_GET_IDENTITY its identity page and stamp. MLK_ENUMERATE with none going on: with an enabled lane named, the broadcast waits and the response with it; with none it ends at once; while one goes on it answers 0x0506. MLK_SET_ENROLLED of 12 positions, none of the removed ones busy: that mask on that lane alone, and it is returned; above 12 bits it answers 0x0501. MLK_SET_OC of 64 or more: the threshold of that node, and the instant is answered; below it 0x0505. MLK_SET_VETO_MASK of 7 bits sets the mask. MLK_IDENTIFY for at least 1 s queues the broadcast and answers the cycle in which it goes; for 0 it answers 0x0505. MLK_RESET_LANE of a lane with no busy module: its fault and its count of cycles without a slot are cleared, it is held for 25 cycles from the next one, and the end is answered. MLK_CLEAR_COUNTS sets the four counts of the lanes named to 0. The constructors of Instr whose completion it states: mlkGetLane, mlkGetTelemetry, mlkEnumerate, mlkGetIdentity, mlkSetEnrolled, mlkSetOc, mlkSetVetoMask, mlkIdentify, mlkResetLane, mlkClearCounts. -/
def Obligations.ModuleLinkCommands : Prop :=
  (∀ (s : State) (m : Fin 4),
      Asked s m 0x0501 .sedge →
      (laneCheck s.block m).2 = true →
      ∃ t, exec (.mlkGetLane m) s = .next t ∧ Only [.mbx, .rpl] s t ∧
        Answered s t m 0 (b32s [laneStatWord (laneSt s.block (reqLane s.block m)), (laneSt s.block (reqLane s.block m)).crcCnt, (laneSt s.block (reqLane s.block m)).vetoCnt, (laneSt s.block (reqLane s.block m)).missCnt, (laneSt s.block (reqLane s.block m)).dlErrCnt] ++ [BitVec.ofNat 8 (b2n (laneSt s.block (reqLane s.block m)).fault)])) ∧
  (∀ (s : State) (m : Fin 4),
      Asked s m 0x0502 .sedge →
      (moduleCheck 0x0502 s.block m).2 = true →
      ∃ t, exec (.mlkGetTelemetry m) s = .next t ∧ Only [.mbx, .rpl] s t ∧
        (Answered s t m 0 (padTo 8 (mlkOf s.block (reqModule s.block m)).record ++ b64 (mlkOf s.block (reqModule s.block m)).stamp ++ [BitVec.ofNat 8 (if (mlkOf s.block (reqModule s.block m)).everOk then min 255 (since s.block (mlkOf s.block (reqModule s.block m)).stamp / tCycle) else 255), BitVec.ofNat 8 (bitsNat [!(mlkOf s.block (reqModule s.block m)).fresh, (mlkOf s.block (reqModule s.block m)).vetoed])]))) ∧
  (∀ (s : State) (m : Fin 4),
      Asked s m 0x0503 .sedge →
      s.block.mlk.enumBusy = false →
      ((allLanes.any fun l => bitOf (rN s.block m 0 1) l.val && (laneSt s.block l).enable) = true) →
      ∃ t, exec (.mlkEnumerate m) s = .next t ∧ Only [.mlk, .pea, .arb, .mbx, .hic, .rpl] s t ∧
        t.block.mlk.enumBusy = true ∧
        t.block.mlk.enumMbx = some m ∧
        t.block.mlk.enumMask = BitVec.ofNat 8 (rN s.block m 0 1) ∧
        (mbxOf t.block m).answered = false ∧
        t.block.mlk.enumAt = none ∧
        t.block.mlk.bcasts = s.block.mlk.bcasts ++ [{ code := 0x01, mask := BitVec.ofNat 8 (rN s.block m 0 1), arg := 0 }] ∧
        t.block.mlk.lanes = s.block.mlk.lanes) ∧
  (∀ (s : State) (m : Fin 4),
      Asked s m 0x0503 .sedge →
      s.block.mlk.enumBusy = false →
      ((allLanes.any fun l => bitOf (rN s.block m 0 1) l.val && (laneSt s.block l).enable) = false) →
      ∃ t, exec (.mlkEnumerate m) s = .next t ∧ Only [.mlk, .pea, .arb, .mbx, .hic, .rpl] s t ∧
        (t.block = safetyItem s.block (enumEnd (updLink (fun k => { k with enumBusy := true, enumMbx := some m, enumMask := BitVec.ofNat 8 (rN s.block m 0 1), enumAt := none, enumOther := Vector.replicate 8 0 }) s.block)))) ∧
  (∀ (s : State) (m : Fin 4),
      Asked s m 0x0503 .sedge →
      s.block.mlk.enumBusy = true →
      ∃ t, exec (.mlkEnumerate m) s = .next t ∧ Only [.mlk, .pea, .arb, .mbx, .hic, .rpl] s t ∧
        Answered s t m 0x0506 ([]) ∧
        t.block.mlk = s.block.mlk) ∧
  (∀ (s : State) (m : Fin 4),
      Asked s m 0x0504 .sedge →
      (moduleCheck 0x0502 s.block m).2 = true →
      ∃ t, exec (.mlkGetIdentity m) s = .next t ∧ Only [.mbx, .rpl] s t ∧
        Answered s t m 0 (padTo 8 (mlkOf s.block (reqModule s.block m)).identity ++ b64 (mlkOf s.block (reqModule s.block m)).identityAt)) ∧
  (∀ (s : State) (m : Fin 4),
      Asked s m 0x0505 .sedge →
      (laneCheck s.block m).2 = true →
      rN s.block m 2 2 < 4096 →
      (∀ p : Fin 12, bitOf (rN s.block m 2 2) p.val = true ∨ (laneSt s.block (reqLane s.block m)).enrolled.getLsbD p.val = false ∨ modBusy s.block (modAt (reqLane s.block m) p) = false) →
      ∃ t, exec (.mlkSetEnrolled m) s = .next t ∧ Only [.mlk, .pea, .arb, .mbx, .hic, .rpl] s t ∧
        Answered s t m 0 (leBytes 2 (rN s.block m 2 2)) ∧
        (laneSt t.block (reqLane s.block m)).enrolled = BitVec.ofNat 12 (rN s.block m 2 2) ∧
        (∀ l, l ≠ reqLane s.block m → laneSt t.block l = laneSt s.block l)) ∧
  (∀ (s : State) (m : Fin 4),
      Asked s m 0x0505 .sedge →
      (laneCheck s.block m).2 = true →
      4096 ≤ rN s.block m 2 2 →
      ∃ t, exec (.mlkSetEnrolled m) s = .next t ∧ Only [.mlk, .pea, .arb, .mbx, .hic, .rpl] s t ∧
        Answered s t m 0x0501 ([]) ∧
        t.block.mlk = s.block.mlk) ∧
  (∀ (s : State) (m : Fin 4),
      Asked s m 0x0506 .sedge →
      (nodeCheck 0x0504 s.block m).2 = true →
      64 ≤ rN s.block m 1 1 →
      ∃ t, exec (.mlkSetOc m) s = .next t ∧ Only [.mlk, .pea, .arb, .mbx, .hic, .btn, .rpl] s t ∧
        Answered s t m 0 (b64 (now s.block)) ∧
        t.block.mlk = { s.block.mlk with ocThr := vset s.block.mlk.ocThr (reqNode s.block m) (BitVec.ofNat 8 (rN s.block m 1 1)) }) ∧
  (∀ (s : State) (m : Fin 4),
      Asked s m 0x0506 .sedge →
      (nodeCheck 0x0504 s.block m).2 = true →
      rN s.block m 1 1 < 64 →
      ∃ t, exec (.mlkSetOc m) s = .next t ∧ Only [.mlk, .pea, .arb, .mbx, .hic, .btn, .rpl] s t ∧
        Answered s t m 0x0505 ([]) ∧
        t.block.mlk = s.block.mlk) ∧
  (∀ (s : State) (m : Fin 4),
      Asked s m 0x0507 .sedge →
      rN s.block m 0 1 < 128 →
      ∃ t, exec (.mlkSetVetoMask m) s = .next t ∧ Only [.mlk, .pea, .arb, .mbx, .hic, .btn, .rpl] s t ∧
        Answered s t m 0 ([]) ∧
        t.block.mlk = { s.block.mlk with vetoMask := BitVec.ofNat 7 (rN s.block m 0 1) }) ∧
  (∀ (s : State) (m : Fin 4) (q : Bcast),
      Asked s m 0x0508 .sedge →
      (moduleCheck 0x0502 s.block m).2 = true →
      1 ≤ rN s.block m 1 1 →
      q = { code := 0x02, mask := BitVec.ofNat 8 (2 ^ (modLane (reqModule s.block m)).val), arg := BitVec.ofNat 16 (posOf (reqModule s.block m) + 256 * rN s.block m 1 1) } →
      ∃ t, exec (.mlkIdentify m) s = .next t ∧ Only [.mlk, .mbx, .rpl] s t ∧
        Answered s t m 0 (leBytes 8 (bcastStart s.block q)) ∧
        t.block.mlk = { s.block.mlk with bcasts := s.block.mlk.bcasts ++ [q] }) ∧
  (∀ (s : State) (m : Fin 4),
      Asked s m 0x0508 .sedge →
      (moduleCheck 0x0502 s.block m).2 = true →
      rN s.block m 1 1 = 0 →
      ∃ t, exec (.mlkIdentify m) s = .next t ∧ Only [.mlk, .mbx, .rpl] s t ∧
        Answered s t m 0x0505 ([]) ∧
        t.block.mlk = s.block.mlk) ∧
  (∀ (s : State) (m : Fin 4),
      Asked s m 0x0509 .sedge →
      (laneCheck s.block m).2 = true →
      (((laneModules (reqLane s.block m)).all fun x => !modBusy s.block x) = true) →
      ∃ t, exec (.mlkResetLane m) s = .next t ∧ Only [.mlk, .mbx, .rpl] s t ∧
        Answered s t m 0 (leBytes 8 (nextCycle s.block + 25 * tCycle)) ∧
        (laneSt t.block (reqLane s.block m)).fault = false ∧
        (laneSt t.block (reqLane s.block m)).resetUntil = some (BitVec.ofNat 64 (nextCycle s.block + 25 * tCycle)) ∧
        (laneSt t.block (reqLane s.block m)).noPass = 0 ∧
        (∀ l, l ≠ reqLane s.block m → laneSt t.block l = laneSt s.block l)) ∧
  (∀ (s : State) (m : Fin 4),
      Asked s m 0x050A .sedge →
      ∃ t, exec (.mlkClearCounts m) s = .next t ∧ Only [.mlk, .mbx, .rpl] s t ∧
        Answered s t m 0 ([]) ∧
        (∀ l, laneSt t.block l = if bitOf (rN s.block m 0 1) l.val then { laneSt s.block l with crcCnt := 0, vetoCnt := 0, missCnt := 0, dlErrCnt := 0 } else laneSt s.block l))

/-- Under the conditions of its clause each command answers a next state, the queue stays, only the units listed there change, and what follows holds. MLK_CYCLE with Tide at the next cycle instant: the entries due for the link act, then every lane has its cycle. UPLINK_SLOT_END, outside replay, of a lane that ran in this cycle, Tide at or past the end of the slot: the slot is put into the trace image of the lane and judged. OC_TRIP, outside replay, on a comparator not tripped: on a node whose pair may not close, it is tripped and latched at now, source 145 is raised and no session changes; on one that may close, it is a device fault of that node after the same. OC_RELEASE of a tripped comparator ends the trip, keeps the latch and notes now. A trip of a tripped one and a release of one that is not change nothing. MODULE_STALE 3 cycles after the last record of a fresh module: it is stale, and no other changes. LANE_FAULT of a lane not in fault, with 25 cycles without a passing slot while something is enrolled or 3 failed readbacks: the lane is in fault, source 146 is raised, all its modules are out of service, with source 133 when one was not, and it is a device fault of level 2; of a lane in fault, or without such a count, the link, the allocation and the safety unit stay. The constructors of Instr whose completion it states: mlkCycle, uplinkSlotEnd, ocTrip, ocRelease, moduleStale, laneFault. -/
def Obligations.ModuleLinkInstants : Prop :=
  (∀ (s : State) (readback : BitVec 8),
      nextMultiple tCycle (some s.block.mlk.cycle) s.block = (now s.block).toNat →
      ∃ t, exec (.mlkCycle readback) s = .next t ∧ Only (Part.but [.barrier, .fab, .cross, .acc, .pq, .vehCfg, .v2g, .v2gCfg, .rcm, .rcmTest, .pf, .auth, .backup, .hp, .pnl, .frames, .nfc, .rst, .upd, .dbg, .settings, .newSettings, .legalSet, .updRec, .kept]) s t ∧
        t.block = safetyItem s.block (linkCycle readback (fireLink s.block))) ∧
  (∀ (s : State) (l : Fin 8) (p : Fin 12) (slot : UplinkSlot),
      s.block.rpl.mode = false →
      (laneSt s.block l).ran = true →
      s.block.mlk.cycle.toNat + 18720 + 3720 * p.val ≤ (now s.block).toNat →
      ∃ t, exec (.uplinkSlotEnd l p slot) s = .next t ∧ Only [.tide, .lau, .sess, .mlk, .veh, .plc, .plcCfg, .imd, .imdG, .saf, .safX, .lsw, .pea, .arb, .slt, .legal, .bri, .key, .hic, .qmg, .cwy, .cwyX, .btn, .dmp, .rpl, .prior] s t ∧
        (t.block = safetyItem s.block (uplinkEnd l p slot (updLane l (fun x => { x with slots := splice x.slots (9 * p.val) (slotTrace l p slot) }) s.block)))) ∧
  (∀ (s : State) (n : Fin 16),
      s.block.rpl.mode = false →
      vget s.block.mlk.ocTripped n = false →
      (phaseOf s.block n).mayClose = false →
      ∃ t, exec (.ocTrip n) s = .next t ∧ Only [.lau, .sess, .mlk, .veh, .plc, .plcCfg, .imd, .imdG, .saf, .safX, .lsw, .pea, .arb, .slt, .legal, .bri, .key, .hic, .qmg, .cwy, .cwyX, .btn, .dmp, .rpl] s t ∧
        vget t.block.mlk.ocTripped n = true ∧
        vget t.block.mlk.ocLatched n = true ∧
        vget t.block.mlk.ocAt n = now s.block ∧
        Raised t.block 145 ∧
        t.block.sess = s.block.sess) ∧
  (∀ (s : State) (n : Fin 16),
      s.block.rpl.mode = false →
      vget s.block.mlk.ocTripped n = false →
      (phaseOf s.block n).mayClose = true →
      ∃ t, exec (.ocTrip n) s = .next t ∧ Only [.lau, .sess, .mlk, .veh, .plc, .plcCfg, .imd, .imdG, .saf, .safX, .lsw, .pea, .arb, .slt, .legal, .bri, .key, .hic, .qmg, .cwy, .cwyX, .btn, .dmp, .rpl] s t ∧
        (t.block = safetyItem s.block (softFault (.node n) 1 (irq 145 (updLink (fun x => { x with ocTripped := vset x.ocTripped n true, ocLatched := vset x.ocLatched n true, ocAt := vset x.ocAt n (now s.block) }) s.block))))) ∧
  (∀ (s : State) (n : Fin 16),
      s.block.rpl.mode = false →
      vget s.block.mlk.ocTripped n = true →
      ∃ t, exec (.ocTrip n) s = .next t ∧ Only [.lau, .sess, .mlk, .veh, .plc, .plcCfg, .imd, .imdG, .saf, .safX, .lsw, .pea, .arb, .slt, .legal, .bri, .key, .hic, .qmg, .cwy, .cwyX, .btn, .dmp, .rpl] s t ∧
        t.block = safetyItem s.block (s.block)) ∧
  (∀ (s : State) (n : Fin 16),
      s.block.rpl.mode = false →
      vget s.block.mlk.ocTripped n = true →
      ∃ t, exec (.ocRelease n) s = .next t ∧ Only [.mlk, .rpl] s t ∧
        t.block.mlk = { s.block.mlk with ocTripped := vset s.block.mlk.ocTripped n false, ocRelAt := vset s.block.mlk.ocRelAt n (now s.block) }) ∧
  (∀ (s : State) (n : Fin 16),
      s.block.rpl.mode = false →
      vget s.block.mlk.ocTripped n = false →
      ∃ t, exec (.ocRelease n) s = .next t ∧ Only [.mlk, .rpl] s t ∧
        t.block = safetyItem s.block (s.block)) ∧
  (∀ (s : State) (k : Fin 96),
      (mlkOf s.block k).fresh = true →
      (mlkOf s.block k).stamp.toNat + 3 * tCycle ≤ (now s.block).toNat →
      ∃ t, exec (.moduleStale k) s = .next t ∧ Only [.tide, .mlk, .hic, .rpl, .prior] s t ∧
        mlkOf t.block k = { mlkOf s.block k with fresh := false } ∧
        (∀ j, j ≠ k → mlkOf t.block j = mlkOf s.block j)) ∧
  (∀ (s : State) (l : Fin 8),
      (laneSt s.block l).fault = false →
      (((laneSt s.block l).enrolled ≠ 0 ∧ 25 ≤ (laneSt s.block l).noPass) ∨ 3 ≤ (laneSt s.block l).readbackFails) →
      ∃ t, exec (.laneFault l) s = .next t ∧ Only [.lau, .sess, .slu, .mlk, .veh, .plc, .plcCfg, .imd, .imdG, .saf, .safX, .lsw, .pea, .arb, .slt, .legal, .bri, .key, .hic, .qmg, .cwy, .cwyX, .btn, .dmp, .rpl] s t ∧
        (t.block = safetyItem s.block (deviceFault (.lane l) 2 (let b := irq 146 (updLane l (fun x => { x with fault := true }) s.block); onlyIf ((laneModules l).any fun k => !(sluModOf b k).outOfService) (irq 133) { b with slu := { b.slu with modules := vmapIdx b.slu.modules fun k y => if modLane k = l then { y with outOfService := true, leaveDue := false } else y } })))) ∧
  (∀ (s : State) (l : Fin 8),
      ((laneSt s.block l).fault = true ∨ (((laneSt s.block l).enrolled = 0 ∨ (laneSt s.block l).noPass < 25) ∧ (laneSt s.block l).readbackFails < 3)) →
      ∃ t, exec (.laneFault l) s = .next t ∧ Only [.lau, .sess, .slu, .mlk, .veh, .plc, .plcCfg, .imd, .imdG, .saf, .safX, .lsw, .pea, .arb, .slt, .legal, .bri, .key, .hic, .qmg, .cwy, .cwyX, .btn, .dmp, .rpl] s t ∧
        t.block.mlk = s.block.mlk ∧
        t.block.slu = s.block.slu ∧
        t.block.saf = s.block.saf)

/-- Under the conditions of its clause each command answers a next state, the queue stays, only the units listed there change, and what follows holds. PILOT_SAMPLE, outside replay, with Tide at the next sample of its row: the duty is settled and the high or low sample taken, at now; where the row has no sample in this period or the next two nothing changes. CP_STATE_CONFIRMED of a raw state that differs and has held for the debounce, 1,500 ticks past its sample: it is the state, and the toggles count a change between B and C. DIODE_FAILURE_CONFIRMED, CP_SENSE_FAULT after 3 mismatches and PP_CLASS_CONFIRMED without a class: the condition is set, as the pilot event of it says, and while the pair may not close nothing else of the connectors changes and sources 194, 195 and 196 are raised; the diode failure and the sense fault are cleared after the debounce and after 100 matches. A class held for the debounce is taken with its rating when none was valid and this sample did not make the change; a class other than the valid one first makes it not valid, at its sample; before the debounce nothing changes. CP_RESTART_END, once the lead before its end has come: the restart is over and the duty reviewed. CABLE_TEMP_MEASURE, outside replay, 100 ms after the last or when there was none: the two temperatures are judged as measured. The constructors of Instr whose completion it states: pilotSample, cpStateConfirmed, diodeFailureConfirmed, cpSenseFault, cpSenseFaultClear, ppClassConfirmed, cpRestartEnd, cableTempMeasure. -/
def Obligations.PilotInstants : Prop :=
  (∀ (s : State) (n : Fin 16) (x : PilotReading),
      s.block.rpl.mode = false →
      nextSample s.block n x.low = some (now s.block).toNat →
      ∃ t, exec (.pilotSample n x) s = .next t ∧ Only [.tide, .lau, .sess, .veh, .plc, .plcCfg, .v2g, .imd, .imdG, .saf, .safX, .lsw, .arb, .auth, .hic, .qmg, .cwy, .cwyX, .btn, .dmp, .rpl, .prior] s t ∧
        (t.block = safetyItem s.block ((if x.low then pilotLow n x else pilotHigh n x) (settleDuty n s.block))) ∧
        (x.low = false → (vehOf t.block n).highAt = some (now s.block)) ∧
        (x.low = true → (vehOf t.block n).lowAt = some (now s.block))) ∧
  (∀ (s : State) (n : Fin 16) (x : PilotReading),
      s.block.rpl.mode = false →
      nextSample s.block n x.low = none →
      ∃ t, exec (.pilotSample n x) s = .next t ∧ Only [.tide, .lau, .sess, .veh, .plc, .plcCfg, .v2g, .imd, .imdG, .saf, .safX, .lsw, .arb, .auth, .hic, .qmg, .cwy, .cwyX, .btn, .dmp, .rpl, .prior] s t ∧
        t.block = safetyItem s.block (s.block)) ∧
  (∀ (s : State) (n : Fin 16),
      (vehOf s.block n).raw ≠ (vehOf s.block n).state →
      s.block.vehCfg.debounce.toNat ≤ (vehOf s.block n).rawRun →
      (vehOf s.block n).rawAt.toNat + 1500 ≤ (now s.block).toNat →
      ∃ t, exec (.cpStateConfirmed n) s = .next t ∧ Only [.tide, .lau, .sess, .mlk, .veh, .plc, .plcCfg, .v2g, .imd, .imdG, .saf, .safX, .lsw, .pea, .arb, .slt, .legal, .auth, .bri, .key, .hic, .qmg, .cwy, .cwyX, .btn, .dmp, .rpl, .prior] s t ∧
        (vehOf t.block n).state = (vehOf s.block n).raw ∧
        ((vehOf t.block n).toggles = if ((vehOf s.block n).state = .b ∧ (vehOf s.block n).raw = .c) ∨ ((vehOf s.block n).state = .c ∧ (vehOf s.block n).raw = .b) then (vehOf s.block n).toggles + 1 else (vehOf s.block n).toggles)) ∧
  (∀ (s : State) (n : Fin 16),
      (vehOf s.block n).state = .b →
      (vehOf s.block n).raw = .c →
      s.block.vehCfg.debounce.toNat ≤ (vehOf s.block n).rawRun →
      (vehOf s.block n).rawAt.toNat + 1500 ≤ (now s.block).toNat →
      (phaseOf s.block n).mayClose = false →
      ∃ t, exec (.cpStateConfirmed n) s = .next t ∧ Only [.tide, .lau, .sess, .mlk, .veh, .plc, .plcCfg, .v2g, .imd, .imdG, .saf, .safX, .lsw, .pea, .arb, .slt, .legal, .auth, .bri, .key, .hic, .qmg, .cwy, .cwyX, .btn, .dmp, .rpl, .prior] s t ∧
        (t.block = safetyItem s.block (pilotReview n (updVeh n (fun x => { x with state := .c, toggles := x.toggles + 1 }) (irq 192 s.block))))) ∧
  (∀ (s : State) (n : Fin 16),
      ((vehOf s.block n).state = (vehOf s.block n).raw ∨ (vehOf s.block n).rawRun < s.block.vehCfg.debounce.toNat) →
      ∃ t, exec (.cpStateConfirmed n) s = .next t ∧ Only [.tide, .lau, .sess, .mlk, .veh, .plc, .plcCfg, .v2g, .imd, .imdG, .saf, .safX, .lsw, .pea, .arb, .slt, .legal, .auth, .bri, .key, .hic, .qmg, .cwy, .cwyX, .btn, .dmp, .rpl, .prior] s t ∧
        t.block.veh = s.block.veh ∧
        t.block.sess = s.block.sess ∧
        t.block.hic = s.block.hic) ∧
  (∀ (s : State) (n : Fin 16) (i : U64),
      (vehOf s.block n).diodeFail = false →
      s.block.vehCfg.debounce.toNat ≤ (vehOf s.block n).diodeRun →
      (vehOf s.block n).lowAt = some i →
      i.toNat + 1500 ≤ (now s.block).toNat →
      ∃ t, exec (.diodeFailureConfirmed n) s = .next t ∧ Only [.tide, .lau, .sess, .mlk, .veh, .plc, .plcCfg, .v2g, .imd, .imdG, .saf, .safX, .lsw, .pea, .arb, .slt, .legal, .auth, .bri, .key, .hic, .qmg, .cwy, .cwyX, .btn, .dmp, .rpl, .prior] s t ∧
        (t.block = safetyItem s.block (pilotEvent n (fun x => { x with diodeFail := true }) (irq 194 s.block))) ∧
        ((phaseOf s.block n).mayClose = false → t.block.veh = vupd s.block.veh n fun x => { x with diodeFail := true }) ∧
        ((phaseOf s.block n).mayClose = false → Raised t.block 194)) ∧
  (∀ (s : State) (n : Fin 16) (i : U64),
      (vehOf s.block n).diodeFail = true →
      s.block.vehCfg.debounce.toNat ≤ (vehOf s.block n).diodeOkRun →
      (vehOf s.block n).lowAt = some i →
      i.toNat + 1500 ≤ (now s.block).toNat →
      ∃ t, exec (.diodeFailureConfirmed n) s = .next t ∧ Only [.tide, .lau, .sess, .mlk, .veh, .plc, .plcCfg, .v2g, .imd, .imdG, .saf, .safX, .lsw, .pea, .arb, .slt, .legal, .auth, .bri, .key, .hic, .qmg, .cwy, .cwyX, .btn, .dmp, .rpl, .prior] s t ∧
        (t.block = safetyItem s.block (pilotReview n (updVeh n (fun x => { x with diodeFail := false }) s.block))) ∧
        (vehOf t.block n).diodeFail = false) ∧
  (∀ (s : State) (n : Fin 16),
      (vehOf s.block n).senseFault = false →
      3 ≤ (vehOf s.block n).mismatchRun →
      ∃ t, exec (.cpSenseFault n) s = .next t ∧ Only [.lau, .sess, .mlk, .veh, .plc, .plcCfg, .imd, .imdG, .saf, .safX, .lsw, .pea, .arb, .slt, .legal, .bri, .key, .hic, .qmg, .cwy, .cwyX, .btn, .dmp, .rpl] s t ∧
        (t.block = safetyItem s.block (pilotEvent n (fun x => { x with senseFault := true }) (irq 195 s.block))) ∧
        ((phaseOf s.block n).mayClose = false → t.block.veh = vupd s.block.veh n fun x => { x with senseFault := true }) ∧
        ((phaseOf s.block n).mayClose = false → Raised t.block 195)) ∧
  (∀ (s : State) (n : Fin 16),
      (vehOf s.block n).senseFault = true →
      100 ≤ (vehOf s.block n).matchRun →
      ∃ t, exec (.cpSenseFaultClear n) s = .next t ∧ Only [.lau, .sess, .veh, .plc, .plcCfg, .v2g, .imd, .imdG, .saf, .safX, .lsw, .arb, .auth, .hic, .qmg, .cwy, .cwyX, .btn, .dmp, .rpl] s t ∧
        (t.block = safetyItem s.block (pilotReview n (updVeh n (fun x => { x with senseFault := false }) s.block))) ∧
        (vehOf t.block n).senseFault = false) ∧
  (∀ (s : State) (n : Fin 16),
      s.block.vehCfg.debounce.toNat ≤ (vehOf s.block n).ppRun →
      (vehOf s.block n).ppRaw = none →
      (vehOf s.block n).ppValid = true →
      ∃ t, exec (.ppClassConfirmed n) s = .next t ∧ Only [.lau, .sess, .mlk, .veh, .plc, .plcCfg, .v2g, .imd, .imdG, .saf, .safX, .lsw, .pea, .arb, .slt, .legal, .auth, .bri, .key, .hic, .qmg, .cwy, .cwyX, .btn, .dmp, .rpl] s t ∧
        (t.block = safetyItem s.block (pilotEvent n (fun x => { x with ppValid := false, ppChange := none }) (irq 196 s.block))) ∧
        ((phaseOf s.block n).mayClose = false → t.block.veh = vupd s.block.veh n fun x => { x with ppValid := false, ppChange := none }) ∧
        ((phaseOf s.block n).mayClose = false → Raised t.block 196)) ∧
  (∀ (s : State) (n : Fin 16) (k : Fin 8),
      s.block.vehCfg.debounce.toNat ≤ (vehOf s.block n).ppRun →
      (vehOf s.block n).ppRaw = some k →
      (vehOf s.block n).ppValid = false →
      (vehOf s.block n).ppChange ≠ some (vehOf s.block n).ppAt →
      ∃ t, exec (.ppClassConfirmed n) s = .next t ∧ Only [.lau, .sess, .mlk, .veh, .plc, .plcCfg, .v2g, .imd, .imdG, .saf, .safX, .lsw, .pea, .arb, .slt, .legal, .auth, .bri, .key, .hic, .qmg, .cwy, .cwyX, .btn, .dmp, .rpl] s t ∧
        (vehOf t.block n).ppValid = true ∧
        (vehOf t.block n).ppClass = BitVec.ofNat 3 k.val ∧
        (vehOf t.block n).ppRating = ((ppClassesAt s.block.vehCfg ((vehOf s.block n).ppAt.toNat - 30000)).getD k.val {}).rating) ∧
  (∀ (s : State) (n : Fin 16) (k : Fin 8),
      s.block.vehCfg.debounce.toNat ≤ (vehOf s.block n).ppRun →
      (vehOf s.block n).ppRaw = some k →
      (vehOf s.block n).ppValid = true →
      (vehOf s.block n).ppClass.toNat ≠ k.val →
      ∃ t, exec (.ppClassConfirmed n) s = .next t ∧ Only [.lau, .sess, .mlk, .veh, .plc, .plcCfg, .v2g, .imd, .imdG, .saf, .safX, .lsw, .pea, .arb, .slt, .legal, .auth, .bri, .key, .hic, .qmg, .cwy, .cwyX, .btn, .dmp, .rpl] s t ∧
        (vehOf t.block n).ppValid = false ∧
        (vehOf t.block n).ppChange = some (vehOf s.block n).ppAt) ∧
  (∀ (s : State) (n : Fin 16),
      (vehOf s.block n).ppRun < s.block.vehCfg.debounce.toNat →
      ∃ t, exec (.ppClassConfirmed n) s = .next t ∧ Only [.lau, .sess, .mlk, .veh, .plc, .plcCfg, .v2g, .imd, .imdG, .saf, .safX, .lsw, .pea, .arb, .slt, .legal, .auth, .bri, .key, .hic, .qmg, .cwy, .cwyX, .btn, .dmp, .rpl] s t ∧
        t.block = safetyItem s.block (s.block)) ∧
  (∀ (s : State) (n : Fin 16) (i : U64),
      (vehOf s.block n).restartUntil = some i →
      leadBefore i ≤ (now s.block).toNat →
      ∃ t, exec (.cpRestartEnd n) s = .next t ∧ Only [.tide, .lau, .veh, .arb, .hic, .qmg, .cwy, .cwyX, .btn, .dmp, .rpl, .prior] s t ∧
        (t.block = safetyItem s.block (dutyReview n (updVeh n (fun x => { x with restartUntil := none }) s.block))) ∧
        (vehOf t.block n).restartUntil = none) ∧
  (∀ (s : State) (n : Fin 16) (x : TempReading) (ref : Nat) (i : U64),
      s.block.rpl.mode = false →
      (vehOf s.block n).tempAt = some i →
      i.toNat + 100 * tMs ≤ (now s.block).toNat →
      ∃ t, exec (.cableTempMeasure n x ref) s = .next t ∧ Only [.tide, .lau, .sess, .mlk, .veh, .plc, .plcCfg, .imd, .imdG, .saf, .safX, .lsw, .pea, .arb, .slt, .legal, .bri, .key, .hic, .qmg, .cwy, .cwyX, .btn, .dmp, .rpl, .prior] s t ∧
        t.block = safetyItem s.block (cableTemp n (sensorTemp x.first ref) (sensorTemp x.second ref) s.block)) ∧
  (∀ (s : State) (n : Fin 16) (x : TempReading) (ref : Nat),
      s.block.rpl.mode = false →
      (vehOf s.block n).tempAt = none →
      ∃ t, exec (.cableTempMeasure n x ref) s = .next t ∧ Only [.tide, .lau, .sess, .mlk, .veh, .plc, .plcCfg, .imd, .imdG, .saf, .safX, .lsw, .pea, .arb, .slt, .legal, .bri, .key, .hic, .qmg, .cwy, .cwyX, .btn, .dmp, .rpl, .prior] s t ∧
        t.block = safetyItem s.block (cableTemp n (sensorTemp x.first ref) (sensorTemp x.second ref) s.block))

/-- Under the conditions of its clause each command answers a next state, the queue stays, only the units listed there change, and what follows holds. On a connector with a move that is neither verified nor waits for its retry. LOCK_STALL_CONFIRMED, outside replay, of a stall of 20 ms that began no later than the longest time: begun at or after the least time, the move is verified; before it, the move fails. LOCK_TIMEOUT past the longest time with no stall, and LOCK_OPEN_LOAD, outside replay, after 100 ms of a low load current, fail the move. LOCK_OFF_DELAY, once the lead before the switch-off has come: the channel is switched off, the move is over and the pilot reviewed. LOCK_RETRY at its instant: the same move as a second one, with the settings now in force, its switching entered on the ring; no other connector changes, and without a move no connector does. The constructors of Instr whose completion it states: lockStallConfirmed, lockOffDelay, lockTimeout, lockOpenLoad, lockRetry. -/
def Obligations.LockInstants : Prop :=
  (∀ (s : State) (n : Fin 16) (v : LockMove) (i : U64),
      s.block.rpl.mode = false →
      (vehOf s.block n).move = some v →
      v.stallSince = some i →
      v.verified = false →
      v.retryAt = none →
      i.toNat ≤ v.start.toNat + v.tMax.toNat * 15000000 →
      v.start.toNat + v.tMin.toNat * 15000000 ≤ i.toNat →
      i.toNat + 20 * tMs ≤ (now s.block).toNat →
      ∃ t, exec (.lockStallConfirmed n) s = .next t ∧ Only [.tide, .lau, .sess, .veh, .plc, .plcCfg, .v2g, .imd, .imdG, .saf, .safX, .lsw, .arb, .auth, .mbx, .hic, .qmg, .cwy, .cwyX, .btn, .dmp, .rpl, .prior] s t ∧
        t.block = safetyItem s.block (lockVerified n v s.block)) ∧
  (∀ (s : State) (n : Fin 16) (v : LockMove) (i : U64),
      s.block.rpl.mode = false →
      (vehOf s.block n).move = some v →
      v.stallSince = some i →
      v.verified = false →
      v.retryAt = none →
      i.toNat ≤ v.start.toNat + v.tMax.toNat * 15000000 →
      i.toNat < v.start.toNat + v.tMin.toNat * 15000000 →
      i.toNat + 20 * tMs ≤ (now s.block).toNat →
      ∃ t, exec (.lockStallConfirmed n) s = .next t ∧ Only [.tide, .lau, .sess, .veh, .plc, .plcCfg, .v2g, .imd, .imdG, .saf, .safX, .lsw, .arb, .auth, .mbx, .hic, .qmg, .cwy, .cwyX, .btn, .dmp, .rpl, .prior] s t ∧
        t.block = safetyItem s.block (lockFail n v s.block)) ∧
  (∀ (s : State) (n : Fin 16) (v : LockMove) (i : U64),
      (vehOf s.block n).move = some v →
      v.offAt = some i →
      leadBefore i ≤ (now s.block).toNat →
      ∃ t, exec (.lockOffDelay n) s = .next t ∧ Only [.tide, .lau, .sess, .veh, .plc, .plcCfg, .v2g, .imd, .imdG, .saf, .safX, .lsw, .arb, .auth, .hic, .qmg, .cwy, .cwyX, .btn, .dmp, .rpl, .prior] s t ∧
        (t.block = safetyItem s.block (pilotReview n (updVeh n (fun x => { x with move := none }) (moveOff n v s.block))))) ∧
  (∀ (s : State) (n : Fin 16) (v : LockMove),
      (vehOf s.block n).move = some v →
      v.verified = false →
      v.retryAt = none →
      v.stallSince = none →
      v.start.toNat + v.tMax.toNat * 15000000 ≤ (now s.block).toNat →
      ∃ t, exec (.lockTimeout n) s = .next t ∧ Only [.tide, .lau, .veh, .arb, .mbx, .hic, .qmg, .cwy, .cwyX, .btn, .dmp, .rpl, .prior] s t ∧
        t.block = safetyItem s.block (lockFail n v s.block)) ∧
  (∀ (s : State) (n : Fin 16) (v : LockMove) (i : U64),
      s.block.rpl.mode = false →
      (vehOf s.block n).move = some v →
      v.lowSince = some i →
      v.verified = false →
      v.retryAt = none →
      i.toNat + 100 * tMs ≤ (now s.block).toNat →
      ∃ t, exec (.lockOpenLoad n) s = .next t ∧ Only [.tide, .lau, .veh, .arb, .mbx, .hic, .qmg, .cwy, .cwyX, .btn, .dmp, .rpl, .prior] s t ∧
        t.block = safetyItem s.block (lockFail n v s.block)) ∧
  (∀ (s : State) (n : Fin 16) (v : LockMove) (i : U64),
      (vehOf s.block n).move = some v →
      v.retryAt = some i →
      i.toNat ≤ (now s.block).toNat →
      ∃ t, exec (.lockRetry n) s = .next t ∧ Only [.tide, .lau, .veh, .arb, .hic, .qmg, .cwy, .cwyX, .btn, .dmp, .rpl, .prior] s t ∧
        (vehOf t.block n).move = some { v with start := ringFree s.block 129 tgSwitch (moveChan (vehOf s.block n) v) (ahead s.block fwLead), second := true, retryAt := none, tMin := s.block.vehCfg.lockMin, tMax := s.block.vehCfg.lockMax, stallThr := s.block.vehCfg.stallThr } ∧
        (∀ k, k ≠ n → vehOf t.block k = vehOf s.block k)) ∧
  (∀ (s : State) (n : Fin 16),
      (vehOf s.block n).move = none →
      ∃ t, exec (.lockRetry n) s = .next t ∧ Only [.tide, .lau, .veh, .arb, .hic, .qmg, .cwy, .cwyX, .btn, .dmp, .rpl, .prior] s t ∧
        t.block.veh = s.block.veh ∧
        t.block.qmg = s.block.qmg)

/-- Under the conditions of its clause each command answers a next state, the queue stays, only the units listed there change, and what follows holds. Each command executes a request of its opcode while Sedge runs, of a connector that exists. VEH_GET_CONNECTOR returns six words. VEH_SET_AVAILABILITY of a connector, or away from one without a supply, sets its two bits and is answered; making one without a supply available answers 0x0604. VEH_SET_PILOT_CFG of 1 to 15 sets the debounce, else 0x0602. VEH_SET_PP_CLASS of eight classes in range that do not overlap sets the table from now. VEH_SET_DERATE of 60 or more, start below end, end at most 160, sets both from now; a start below 60 answers 0x0602. VEH_SET_LOCK_CFG of two free channels, the least time below the longest, the connector IDLE and no move going on, sets the channels, the times and the stall threshold. VEH_LOCK of a connector with the channel, no move going on, begins the lock move; the unlock move needs the unlock to be safe, else 0x0606; without a lock channel it answers 0x0602. VEH_CP_RESTART of 100 to 4,000 ms in CONNECTED, ASSOCIATING or NEGOTIATING holds duty 0 for that time from the next period, whose start is answered; below 100 it answers 0x0602. VEH_CLEAR_COUNTS sets the two pilot counts of the connectors named to 0. The constructors of Instr whose completion it states: vehGetConnector, vehSetAvailability, vehSetPilotCfg, vehSetPpClass, vehSetDerate, vehSetLockCfg, vehLock, vehCpRestart, vehClearCounts. -/
def Obligations.ConnectorCommands : Prop :=
  (∀ (s : State) (m : Fin 4),
      Asked s m 0x0601 .sedge →
      (nodeCheck 0x0601 s.block m).2 = true →
      ∃ t, exec (.vehGetConnector m) s = .next t ∧ Only [.mbx, .rpl] s t ∧
        Answered s t m 0 (b32s [cpStatWord s.block (vehOf s.block (reqNode s.block m)), cpLevelWord (vehOf s.block (reqNode s.block m)), ppWord (vehOf s.block (reqNode s.block m)), tempWord (vehOf s.block (reqNode s.block m)), lockWord (vehOf s.block (reqNode s.block m)), capWord (vehOf s.block (reqNode s.block m))])) ∧
  (∀ (s : State) (m : Fin 4),
      Asked s m 0x0602 .sedge →
      (nodeCheck 0x0601 s.block m).2 = true →
      (rBit s.block m 1 0 = true → (lsOf s.block (reqNode s.block m)).supply ≠ 0x3F) →
      ∃ t, exec (.vehSetAvailability m) s = .next t ∧ Only [.lau, .sess, .veh, .plc, .plcCfg, .imd, .imdG, .saf, .safX, .lsw, .pea, .arb, .slt, .legal, .bri, .key, .mbx, .hic, .qmg, .cwy, .cwyX, .btn, .dmp, .rpl] s t ∧
        (vehOf t.block (reqNode s.block m)).available = rBit s.block m 1 0 ∧
        (vehOf t.block (reqNode s.block m)).ventOk = rBit s.block m 1 1 ∧
        (mbxOf t.block m).answered = true) ∧
  (∀ (s : State) (m : Fin 4),
      Asked s m 0x0602 .sedge →
      (nodeCheck 0x0601 s.block m).2 = true →
      rBit s.block m 1 0 = true →
      (lsOf s.block (reqNode s.block m)).supply = 0x3F →
      ∃ t, exec (.vehSetAvailability m) s = .next t ∧ Only [.lau, .sess, .veh, .plc, .plcCfg, .imd, .imdG, .saf, .safX, .lsw, .pea, .arb, .slt, .legal, .bri, .key, .mbx, .hic, .qmg, .cwy, .cwyX, .btn, .dmp, .rpl] s t ∧
        Answered s t m 0x0604 ([]) ∧
        t.block.veh = s.block.veh) ∧
  (∀ (s : State) (m : Fin 4),
      Asked s m 0x0603 .sedge →
      1 ≤ rN s.block m 0 1 →
      rN s.block m 0 1 ≤ 15 →
      ∃ t, exec (.vehSetPilotCfg m) s = .next t ∧ Only [.vehCfg, .pea, .arb, .mbx, .hic, .rpl] s t ∧
        Answered s t m 0 ([]) ∧
        t.block.vehCfg = { s.block.vehCfg with debounce := BitVec.ofNat 4 (rN s.block m 0 1) }) ∧
  (∀ (s : State) (m : Fin 4),
      Asked s m 0x0603 .sedge →
      (rN s.block m 0 1 = 0 ∨ 15 < rN s.block m 0 1) →
      ∃ t, exec (.vehSetPilotCfg m) s = .next t ∧ Only [.vehCfg, .pea, .arb, .mbx, .hic, .rpl] s t ∧
        Answered s t m 0x0602 ([]) ∧
        t.block.vehCfg = s.block.vehCfg) ∧
  (∀ (s : State) (m : Fin 4),
      Asked s m 0x0604 .sedge →
      (((List.range 8).map (reqPpClass s.block m)).all (fun c => !c.valid || decide (90 ≤ c.centre.toNat ∧ c.centre.toNat ≤ 2000 ∧ 1 ≤ c.rating.toNat ∧ c.rating.toNat ≤ 600)) = true) →
      ppTableOverlaps ((List.range 8).map (reqPpClass s.block m)) = false →
      ∃ t, exec (.vehSetPpClass m) s = .next t ∧ Only [.vehCfg, .pea, .arb, .mbx, .hic, .btn, .rpl] s t ∧
        Answered s t m 0 ([]) ∧
        t.block.vehCfg.ppClasses = (List.range 8).map (reqPpClass s.block m) ∧
        t.block.vehCfg.ppFrom = now s.block) ∧
  (∀ (s : State) (m : Fin 4),
      Asked s m 0x0605 .sedge →
      60 ≤ rN s.block m 0 1 →
      rN s.block m 0 1 < rN s.block m 1 1 →
      rN s.block m 1 1 ≤ 160 →
      ∃ t, exec (.vehSetDerate m) s = .next t ∧ Only [.vehCfg, .pea, .arb, .mbx, .hic, .btn, .rpl] s t ∧
        Answered s t m 0 ([]) ∧
        t.block.vehCfg.tStart = BitVec.ofNat 8 (rN s.block m 0 1) ∧
        t.block.vehCfg.tEnd = BitVec.ofNat 8 (rN s.block m 1 1) ∧
        t.block.vehCfg.derateFrom = now s.block ∧
        t.block.vehCfg.debounce = s.block.vehCfg.debounce) ∧
  (∀ (s : State) (m : Fin 4),
      Asked s m 0x0605 .sedge →
      rN s.block m 0 1 < 60 →
      ∃ t, exec (.vehSetDerate m) s = .next t ∧ Only [.vehCfg, .pea, .arb, .mbx, .hic, .btn, .rpl] s t ∧
        Answered s t m 0x0602 ([]) ∧
        t.block.vehCfg = s.block.vehCfg) ∧
  (∀ (s : State) (m : Fin 4),
      Asked s m 0x0606 .sedge →
      (nodeCheck 0x0601 s.block m).2 = true →
      rN s.block m 1 1 < 40 →
      rN s.block m 2 1 < 40 →
      rN s.block m 1 1 ≠ rN s.block m 2 1 →
      fieldOf (rN s.block m 4 4) 0 8 < fieldOf (rN s.block m 4 4) 8 8 →
      fieldOf (rN s.block m 4 4) 28 4 = 0 →
      phaseOf s.block (reqNode s.block m) = .idle →
      (vehOf s.block (reqNode s.block m)).move = none →
      lockChanFree s.block (reqNode s.block m) (rN s.block m 1 1) = true →
      lockChanFree s.block (reqNode s.block m) (rN s.block m 2 1) = true →
      ∃ t, exec (.vehSetLockCfg m) s = .next t ∧ Only [.veh, .vehCfg, .pea, .arb, .mbx, .hic, .rpl] s t ∧
        Answered s t m 0 ([]) ∧
        (vehOf t.block (reqNode s.block m)).lockCh = BitVec.ofNat 6 (rN s.block m 1 1) ∧
        (vehOf t.block (reqNode s.block m)).unlockCh = BitVec.ofNat 6 (rN s.block m 2 1) ∧
        t.block.vehCfg.lockMin = BitVec.ofNat 8 (fieldOf (rN s.block m 4 4) 0 8) ∧
        t.block.vehCfg.lockMax = BitVec.ofNat 8 (fieldOf (rN s.block m 4 4) 8 8) ∧
        t.block.vehCfg.stallThr = BitVec.ofNat 12 (fieldOf (rN s.block m 4 4) 16 12)) ∧
  (∀ (s : State) (m : Fin 4),
      Asked s m 0x0607 .sedge →
      (nodeCheck 0x0601 s.block m).2 = true →
      rN s.block m 1 1 = 1 →
      (vehOf s.block (reqNode s.block m)).lockCh ≠ 0x3F →
      (vehOf s.block (reqNode s.block m)).move = none →
      ∃ t, exec (.vehLock m) s = .next t ∧ Only [.lau, .veh, .arb, .mbx, .hic, .qmg, .cwy, .cwyX, .btn, .dmp, .rpl] s t ∧
        t.block = safetyItem s.block (startMove (reqNode s.block m) true (some m) s.block)) ∧
  (∀ (s : State) (m : Fin 4),
      Asked s m 0x0607 .sedge →
      (nodeCheck 0x0601 s.block m).2 = true →
      rN s.block m 1 1 = 0 →
      (vehOf s.block (reqNode s.block m)).unlockCh ≠ 0x3F →
      (vehOf s.block (reqNode s.block m)).move = none →
      unlockSafe s.block (reqNode s.block m) = true →
      ∃ t, exec (.vehLock m) s = .next t ∧ Only [.lau, .veh, .arb, .mbx, .hic, .qmg, .cwy, .cwyX, .btn, .dmp, .rpl] s t ∧
        t.block = safetyItem s.block (startMove (reqNode s.block m) false (some m) s.block)) ∧
  (∀ (s : State) (m : Fin 4),
      Asked s m 0x0607 .sedge →
      (nodeCheck 0x0601 s.block m).2 = true →
      rN s.block m 1 1 = 0 →
      (vehOf s.block (reqNode s.block m)).unlockCh ≠ 0x3F →
      (vehOf s.block (reqNode s.block m)).move = none →
      unlockSafe s.block (reqNode s.block m) = false →
      ∃ t, exec (.vehLock m) s = .next t ∧ Only [.lau, .veh, .arb, .mbx, .hic, .qmg, .cwy, .cwyX, .btn, .dmp, .rpl] s t ∧
        Answered s t m 0x0606 ([]) ∧
        t.block.veh = s.block.veh) ∧
  (∀ (s : State) (m : Fin 4),
      Asked s m 0x0607 .sedge →
      (nodeCheck 0x0601 s.block m).2 = true →
      rN s.block m 1 1 = 1 →
      (vehOf s.block (reqNode s.block m)).lockCh = 0x3F →
      ∃ t, exec (.vehLock m) s = .next t ∧ Only [.lau, .veh, .arb, .mbx, .hic, .qmg, .cwy, .cwyX, .btn, .dmp, .rpl] s t ∧
        Answered s t m 0x0602 ([]) ∧
        t.block.veh = s.block.veh) ∧
  (∀ (s : State) (m : Fin 4),
      Asked s m 0x0608 .sedge →
      (nodeCheck 0x0601 s.block m).2 = true →
      100 ≤ rN s.block m 2 2 →
      rN s.block m 2 2 ≤ 4000 →
      (phaseOf s.block (reqNode s.block m) = .connected ∨ phaseOf s.block (reqNode s.block m) = .associating ∨ phaseOf s.block (reqNode s.block m) = .negotiating) →
      ∃ t, exec (.vehCpRestart m) s = .next t ∧ Only [.lau, .veh, .arb, .mbx, .hic, .qmg, .cwy, .cwyX, .btn, .dmp, .rpl] s t ∧
        Answered s t m 0 (b64 (dutyInstant s.block (reqNode s.block m))) ∧
        (vehOf t.block (reqNode s.block m)).restartUntil = some (dutyInstant s.block (reqNode s.block m) + BitVec.ofNat 64 (rN s.block m 2 2 * tMs))) ∧
  (∀ (s : State) (m : Fin 4),
      Asked s m 0x0608 .sedge →
      (nodeCheck 0x0601 s.block m).2 = true →
      rN s.block m 2 2 < 100 →
      ∃ t, exec (.vehCpRestart m) s = .next t ∧ Only [.lau, .veh, .arb, .mbx, .hic, .qmg, .cwy, .cwyX, .btn, .dmp, .rpl] s t ∧
        Answered s t m 0x0602 ([]) ∧
        t.block.veh = s.block.veh) ∧
  (∀ (s : State) (m : Fin 4),
      Asked s m 0x0609 .sedge →
      ∃ t, exec (.vehClearCounts m) s = .next t ∧ Only [.veh, .mbx, .rpl] s t ∧
        Answered s t m 0 ([]) ∧
        (∀ k, vehOf t.block k = if bitOf (rN s.block m 0 2) k.val then { vehOf s.block k with invalidCnt := 0, diodeCnt := 0 } else vehOf s.block k))

/-- Under the conditions of its clause each command answers a next state, the queue stays, only the units listed there change, and what follows holds. All outside replay, each frame first noted for the trace of its modem. CM_SLAC_PARM.REQ at a working modem that is not matched: the run, known or new, has been heard by it, and a connector in its first state has heard the parameters; at another modem nothing else. CM_START_ATTEN_CHAR.IND of no known run: nothing else; of a run without a starter, at a working modem not matched to another run: that modem is its starter, its sounds and its end are set from the time given to the capture, a connector in its first state goes to the second, and ARM_CAPTURE is submitted on ring 132 with the slot and the payload of the rule. CM_MNBC_SOUND.IND of a run with a starter at such a modem: a new window is measured when none begins within 40 ticks of it, else it joins that window; of no known run nothing else. SOUNDING_END of a run with a starter, all sounds decoded or its end reached: the decision is applied; of no known run nothing changes. CM_SLAC_MATCH.REQ of its own run at a working modem in state 3: state 4 from now, and no other modem changes. VEHICLE_JOINED at a working modem in state 4 of an ASSOCIATING connector: the phase is NEGOTIATING, with the last request now and the V2G configuration in force taken. The constructors of Instr whose completion it states: cmSlacParmReq, cmStartAttenCharInd, cmMnbcSoundInd, soundingEnd, cmSlacMatchReq, vehicleJoined. -/
def Obligations.AssociationFrames : Prop :=
  (∀ (s : State) (n : Fin 16) (hw : BitVec 48) (rid : U64) (r : SlacRun),
      s.block.rpl.mode = false →
      modemWorks s.block n = true →
      (plcOf s.block n).matched = false →
      (r = (match runFor s.block n hw rid with | some y => y | none => { key := { mac := hw, runId := rid, own := if s.block.plcCfg.set.xtalkAware then none else some n }, set := s.block.plcCfg.set })) →
      ∃ t, exec (.cmSlacParmReq n hw rid) s = .next t ∧ Only [.plc, .plcCfg, .rpl] s t ∧
        (t.block = safetyItem s.block (let b := putRun { r with heard := r.heard ||| modemBit n } (creekItem n 1 (runBytes hw rid) s.block); if phaseOf s.block n = .associating ∧ (plcOf s.block n).slacState = 1 then updPlc n (fun x => { x with heardParm := true }) b else b))) ∧
  (∀ (s : State) (n : Fin 16) (hw : BitVec 48) (rid : U64),
      s.block.rpl.mode = false →
      (modemWorks s.block n = false ∨ (plcOf s.block n).matched = true) →
      ∃ t, exec (.cmSlacParmReq n hw rid) s = .next t ∧ Only [.plc, .plcCfg, .rpl] s t ∧
        t.block = safetyItem s.block ((creekItem n 1 (runBytes hw rid) s.block))) ∧
  (∀ (s : State) (n : Fin 16) (mac : BitVec 48) (runId : U64) (sounds : U8),
      s.block.rpl.mode = false →
      runFor s.block n mac runId = none →
      ∃ t, exec (.cmStartAttenCharInd n mac runId sounds) s = .next t ∧ Only [.lau, .plc, .plcCfg, .arb, .hic, .qmg, .cwy, .cwyX, .btn, .dmp, .rpl] s t ∧
        t.block = safetyItem s.block ((creekItem n 1 (runBytes mac runId ++ [sounds]) s.block))) ∧
  (∀ (s : State) (n : Fin 16) (mac : BitVec 48) (runId : U64) (sounds : U8) (r : SlacRun),
      s.block.rpl.mode = false →
      runFor s.block n mac runId = some r →
      r.starter = none →
      modemWorks s.block n = true →
      ignoresRun s.block n r.key = false →
      ∃ t, exec (.cmStartAttenCharInd n mac runId sounds) s = .next t ∧ Only [.lau, .plc, .plcCfg, .arb, .hic, .qmg, .cwy, .cwyX, .btn, .dmp, .rpl] s t ∧
        (t.block = safetyItem s.block (let t := ringTime s.block 132 (ahead s.block 96); let e : U64 := t + BitVec.ofNat 64 (r.set.tSounds.toNat * 30000000); let b := putRun { r with starter := some n, announced := sounds.toNat, capEnd := e } (creekItem n 1 (runBytes mac runId ++ [sounds]) s.block); submit agSedge 132 (mkEntry tgModem (if r.set.xtalkAware then 0xFFFF else n.val) 1 (b64 e ++ zeros 24) t) (if phaseOf s.block n = .associating ∧ (plcOf s.block n).slacState = 1 then updPlc n (fun x => { x with slacState := 2, timerAt := t }) b else b)))) ∧
  (∀ (s : State) (n : Fin 16) (x : SoundReading) (r : SlacRun),
      s.block.rpl.mode = false →
      runFor s.block n x.mac x.runId = some r →
      r.starter.isSome = true →
      modemWorks s.block n = true →
      ignoresRun s.block n r.key = false →
      (r.windows.find? (fun w => decide (((w.from_.toNat : Int) - x.from_.toNat).natAbs ≤ 40)) = none) →
      ∃ t, exec (.cmMnbcSoundInd n x) s = .next t ∧ Only [.plc, .plcCfg, .rpl] s t ∧
        t.block = safetyItem s.block (newWindow n r x (creekItem n 2 (runBytes x.mac x.runId) s.block))) ∧
  (∀ (s : State) (n : Fin 16) (x : SoundReading) (r : SlacRun) (w : SoundWindow),
      s.block.rpl.mode = false →
      runFor s.block n x.mac x.runId = some r →
      r.starter.isSome = true →
      modemWorks s.block n = true →
      ignoresRun s.block n r.key = false →
      (r.windows.find? (fun y => decide (((y.from_.toNat : Int) - x.from_.toNat).natAbs ≤ 40)) = some w) →
      ∃ t, exec (.cmMnbcSoundInd n x) s = .next t ∧ Only [.plc, .plcCfg, .rpl] s t ∧
        t.block = safetyItem s.block (sameWindow n r w x (creekItem n 2 (runBytes x.mac x.runId) s.block))) ∧
  (∀ (s : State) (n : Fin 16) (x : SoundReading),
      s.block.rpl.mode = false →
      runFor s.block n x.mac x.runId = none →
      ∃ t, exec (.cmMnbcSoundInd n x) s = .next t ∧ Only [.plc, .plcCfg, .rpl] s t ∧
        t.block = safetyItem s.block ((creekItem n 2 (runBytes x.mac x.runId) s.block))) ∧
  (∀ (s : State) (n : Fin 16) (mac : BitVec 48) (runId : U64) (r : SlacRun) (q : Fin 16),
      runFor s.block n mac runId = some r →
      r.starter = some q →
      (r.announced ≤ r.decoded ∨ r.capEnd.toNat ≤ (now s.block).toNat) →
      ∃ t, exec (.soundingEnd n mac runId) s = .next t ∧ Only [.tide, .lau, .sess, .veh, .plc, .plcCfg, .imd, .imdG, .saf, .safX, .lsw, .pea, .arb, .slt, .legal, .bri, .key, .hic, .qmg, .cwy, .cwyX, .btn, .dmp, .rpl, .prior] s t ∧
        t.block = safetyItem s.block (applyDecision r q s.block)) ∧
  (∀ (s : State) (n : Fin 16) (mac : BitVec 48) (runId : U64),
      runFor s.block n mac runId = none →
      ∃ t, exec (.soundingEnd n mac runId) s = .next t ∧ Only [.tide, .lau, .sess, .veh, .plc, .plcCfg, .imd, .imdG, .saf, .safX, .lsw, .pea, .arb, .slt, .legal, .bri, .key, .hic, .qmg, .cwy, .cwyX, .btn, .dmp, .rpl, .prior] s t ∧
        t.block = safetyItem s.block (s.block)) ∧
  (∀ (s : State) (n : Fin 16) (mac : BitVec 48) (runId : U64) (k : RunKey) (q : SlacSet),
      s.block.rpl.mode = false →
      (plcOf s.block n).run = some (k, q) →
      modemWorks s.block n = true →
      (plcOf s.block n).slacState = 3 →
      k.mac = mac →
      k.runId = runId →
      ∃ t, exec (.cmSlacMatchReq n mac runId) s = .next t ∧ Only [.plc, .rpl] s t ∧
        (t.block.plc = vupd s.block.plc n fun x => { x with slacState := 4, timerAt := now s.block })) ∧
  (∀ (s : State) (n : Fin 16),
      s.block.rpl.mode = false →
      modemWorks s.block n = true →
      (plcOf s.block n).slacState = 4 →
      phaseOf s.block n = .associating →
      ∃ t, exec (.vehicleJoined n) s = .next t ∧ Only [.lau, .sess, .plc, .plcCfg, .v2g, .imd, .imdG, .saf, .safX, .lsw, .arb, .hic, .qmg, .cwy, .cwyX, .btn, .dmp, .rpl] s t ∧
        phaseOf t.block n = .negotiating ∧
        (vget t.block.v2g n).lastRequest = now s.block ∧
        (vget t.block.v2g n).inForce = s.block.v2gCfg)

/-- Under the conditions of its clause each command answers a next state, the queue stays, only the units listed there change, and what follows holds. SLAC_TIMER_EXPIRED in ASSOCIATING, past t_init in state 1 without parameters, past t_match in state 3 or t_join in state 4: the attempt fails with decision 5; outside ASSOCIATING no modem, session or Tide changes. SLAC_RESTART_END in state 7 once the lead before its end has come: state 1, one attempt more, nothing heard, the restart over; no other modem changes. VALIDATION_WINDOW_END, outside replay, in state 6: with the toggles announced seen here and none at the contest, the run is accepted and reported so; else the attempt fails with decision 3. ERASE_RATE_WINDOW, outside replay, at a working modem a second after the last or at its first: the spans of the window are counted, as the rate operation does; it ends now, source 212 is raised when more than one symbol in a hundred was erased, and without a capture the gain is the one given; at another modem nothing changes. MODEM_FAULT, outside replay, of a running modem: on an idle connector it is over at once, the link down, its V2G session closed, source 213 raised and no session changed; on another, after the same closing, it is a device fault of that node; of one not running nothing changes. The constructors of Instr whose completion it states: slacTimerExpired, slacRestartEnd, validationWindowEnd, eraseRateWindow, modemFault. -/
def Obligations.AssociationTimers : Prop :=
  (∀ (s : State) (n : Fin 16),
      phaseOf s.block n = .associating →
      (plcOf s.block n).slacState = 1 →
      (plcOf s.block n).heardParm = false →
      (plcOf s.block n).timerAt.toNat + (plcOf s.block n).assoc.tInit.toNat * tSec ≤ (now s.block).toNat →
      ∃ t, exec (.slacTimerExpired n) s = .next t ∧ Only [.tide, .lau, .sess, .veh, .plc, .plcCfg, .imd, .imdG, .saf, .safX, .lsw, .pea, .arb, .slt, .legal, .bri, .key, .hic, .qmg, .cwy, .cwyX, .btn, .dmp, .rpl, .prior] s t ∧
        t.block = safetyItem s.block (failAttempt n 5 s.block)) ∧
  (∀ (s : State) (n : Fin 16) (k : RunKey) (q : SlacSet),
      phaseOf s.block n = .associating →
      (plcOf s.block n).run = some (k, q) →
      (((plcOf s.block n).slacState = 3 ∧ (plcOf s.block n).timerAt.toNat + q.tMatch.toNat * tSec ≤ (now s.block).toNat) ∨ ((plcOf s.block n).slacState = 4 ∧ (plcOf s.block n).timerAt.toNat + q.tJoin.toNat * tSec ≤ (now s.block).toNat)) →
      ∃ t, exec (.slacTimerExpired n) s = .next t ∧ Only [.tide, .lau, .sess, .veh, .plc, .plcCfg, .imd, .imdG, .saf, .safX, .lsw, .pea, .arb, .slt, .legal, .bri, .key, .hic, .qmg, .cwy, .cwyX, .btn, .dmp, .rpl, .prior] s t ∧
        t.block = safetyItem s.block (failAttempt n 5 s.block)) ∧
  (∀ (s : State) (n : Fin 16),
      phaseOf s.block n ≠ .associating →
      ∃ t, exec (.slacTimerExpired n) s = .next t ∧ Only [.tide, .lau, .sess, .veh, .plc, .plcCfg, .imd, .imdG, .saf, .safX, .lsw, .pea, .arb, .slt, .legal, .bri, .key, .hic, .qmg, .cwy, .cwyX, .btn, .dmp, .rpl, .prior] s t ∧
        t.block.plc = s.block.plc ∧
        t.block.sess = s.block.sess ∧
        t.block.tide = s.block.tide) ∧
  (∀ (s : State) (n : Fin 16),
      (plcOf s.block n).slacState = 7 →
      phaseOf s.block n = .associating →
      leadBefore (plcOf s.block n).timerAt ≤ (now s.block).toNat →
      ∃ t, exec (.slacRestartEnd n) s = .next t ∧ Only [.tide, .lau, .veh, .plc, .arb, .hic, .qmg, .cwy, .cwyX, .btn, .dmp, .rpl, .prior] s t ∧
        (plcOf t.block n).slacState = 1 ∧
        (plcOf t.block n).attempt = (plcOf s.block n).attempt + 1 ∧
        (vehOf t.block n).restartUntil = none ∧
        (plcOf t.block n).heardParm = false ∧
        (∀ k, k ≠ n → plcOf t.block k = plcOf s.block k)) ∧
  (∀ (s : State) (n : Fin 16) (announced : Option Nat) (k : RunKey) (q : SlacSet) (r : RunReport),
      s.block.rpl.mode = false →
      (plcOf s.block n).run = some (k, q) →
      (plcOf s.block n).lastRun = some r →
      (plcOf s.block n).slacState = 6 →
      (announced ≠ some ((vehOf s.block n).toggles - (plcOf s.block n).edgeBase.getD n.val 0) ∨ (contestSet s.block n).any (fun p => (vehOf s.block p).toggles - (plcOf s.block n).edgeBase.getD p.val 0 != 0) = true) →
      ∃ t, exec (.validationWindowEnd n announced) s = .next t ∧ Only [.lau, .sess, .veh, .plc, .plcCfg, .imd, .imdG, .saf, .safX, .lsw, .pea, .arb, .slt, .legal, .bri, .key, .hic, .qmg, .cwy, .cwyX, .btn, .dmp, .rpl] s t ∧
        t.block = safetyItem s.block (failAttempt n 3 s.block)) ∧
  (∀ (s : State) (n : Fin 16) (announced : Option Nat) (k : RunKey) (q : SlacSet) (r : RunReport),
      s.block.rpl.mode = false →
      (plcOf s.block n).run = some (k, q) →
      (plcOf s.block n).lastRun = some r →
      (plcOf s.block n).slacState = 6 →
      announced = some ((vehOf s.block n).toggles - (plcOf s.block n).edgeBase.getD n.val 0) →
      ((contestSet s.block n).all (fun p => (vehOf s.block p).toggles - (plcOf s.block n).edgeBase.getD p.val 0 == 0) = true) →
      ∃ t, exec (.validationWindowEnd n announced) s = .next t ∧ Only [.lau, .sess, .veh, .plc, .plcCfg, .imd, .imdG, .saf, .safX, .lsw, .pea, .arb, .slt, .legal, .bri, .key, .hic, .qmg, .cwy, .cwyX, .btn, .dmp, .rpl] s t ∧
        t.block = safetyItem s.block (reportAccepted k (acceptRun n k q r s.block))) ∧
  (∀ (s : State) (n : Fin 16) (gain : Fin 16) (gaps windows : List (List (BitVec 12))) (tail : List (BitVec 12)) (i : U64),
      s.block.rpl.mode = false →
      modemWorks s.block n = true →
      (plcOf s.block n).rateAt = some i →
      i.toNat + tSec ≤ (now s.block).toNat →
      ∃ t, exec (.eraseRateWindow n gain gaps windows tail) s = .next t ∧ Only [.tide, .plc, .hic, .rpl, .prior] s t ∧
        t.block = safetyItem s.block (rateEnd n gain (receiveSpans gaps windows tail) s.block) ∧
        (plcOf t.block n).rateAt = some (now s.block) ∧
        (((receiveSpans gaps windows tail).foldl (rateSpan (plcOf s.block n)) { left := (plcOf s.block n).blankLeft }).symbols < 100 * ((receiveSpans gaps windows tail).foldl (rateSpan (plcOf s.block n)) { left := (plcOf s.block n).blankLeft }).erased → Raised t.block 212) ∧
        ((plcOf s.block n).captures = [] → (plcOf t.block n).rxGain = BitVec.ofNat 8 (2 * gain.val))) ∧
  (∀ (s : State) (n : Fin 16) (gain : Fin 16) (gaps windows : List (List (BitVec 12))) (tail : List (BitVec 12)),
      s.block.rpl.mode = false →
      modemWorks s.block n = true →
      (plcOf s.block n).rateAt = none →
      ∃ t, exec (.eraseRateWindow n gain gaps windows tail) s = .next t ∧ Only [.tide, .plc, .hic, .rpl, .prior] s t ∧
        t.block = safetyItem s.block (rateEnd n gain (receiveSpans gaps windows tail) s.block)) ∧
  (∀ (s : State) (n : Fin 16) (gain : Fin 16) (gaps windows : List (List (BitVec 12))) (tail : List (BitVec 12)),
      s.block.rpl.mode = false →
      modemWorks s.block n = false →
      ∃ t, exec (.eraseRateWindow n gain gaps windows tail) s = .next t ∧ Only [.tide, .plc, .hic, .rpl, .prior] s t ∧
        t.block = safetyItem s.block (s.block)) ∧
  (∀ (s : State) (n : Fin 16),
      s.block.rpl.mode = false →
      (plcOf s.block n).running = true →
      phaseOf s.block n = .idle →
      ∃ t, exec (.modemFault n) s = .next t ∧ Only [.lau, .sess, .mlk, .veh, .plc, .plcCfg, .v2g, .imd, .imdG, .saf, .safX, .lsw, .pea, .arb, .slt, .legal, .bri, .key, .hic, .qmg, .cwy, .cwyX, .btn, .dmp, .rpl] s t ∧
        (t.block.plc = vupd s.block.plc n fun x => { x with fault := false, running := x.enable && s.block.rst.creek, linkUp := false }) ∧
        (v2gOf t.block n).isOpen = false ∧
        Raised t.block 213 ∧
        t.block.sess = s.block.sess) ∧
  (∀ (s : State) (n : Fin 16),
      s.block.rpl.mode = false →
      (plcOf s.block n).running = true →
      phaseOf s.block n ≠ .idle →
      ∃ t, exec (.modemFault n) s = .next t ∧ Only [.lau, .sess, .mlk, .veh, .plc, .plcCfg, .v2g, .imd, .imdG, .saf, .safX, .lsw, .pea, .arb, .slt, .legal, .bri, .key, .hic, .qmg, .cwy, .cwyX, .btn, .dmp, .rpl] s t ∧
        (t.block = safetyItem s.block (deviceFault (.node n) 1 (v2gClose n (irq 213 (updPlc n (fun x => { x with fault := true, running := false, linkUp := false }) s.block)))))) ∧
  (∀ (s : State) (n : Fin 16),
      s.block.rpl.mode = false →
      (plcOf s.block n).running = false →
      ∃ t, exec (.modemFault n) s = .next t ∧ Only [.lau, .sess, .mlk, .veh, .plc, .plcCfg, .v2g, .imd, .imdG, .saf, .safX, .lsw, .pea, .arb, .slt, .legal, .bri, .key, .hic, .qmg, .cwy, .cwyX, .btn, .dmp, .rpl] s t ∧
        t.block = safetyItem s.block (s.block))

/-- Under the conditions of its clause each command answers a next state, the queue stays, only the units listed there change, and what follows holds. V2G_REQUEST, outside replay and noted for the trace: with Sedge running, the link up, the modem working, the session reached and a phase of the protocol, STOPPING or an open session, the request is stamped and served by the stack; without Sedge, link, modem or reach, nothing else. V2G_SEQ_TIMEOUT of a live session, Sedge running, past its timeout after the last request: the session ends as timed out. V2G_LINK_LOSS, outside replay and noted, with the link up and Sedge running: of a live session, or of the network while STOPPING, the session ends as timed out, else it is closed; the loss of the network first clears the link; with the link down nothing else. The constructors of Instr whose completion it states: v2gRequest, v2gSeqTimeout, v2gLinkLoss. -/
def Obligations.V2gEvents : Prop :=
  (∀ (s : State) (n : Fin 16) (q : V2gRequest),
      s.block.rpl.mode = false →
      s.block.rst.sedge = true →
      (plcOf s.block n).linkUp = true →
      modemWorks s.block n = true →
      v2gReaches (v2gOf s.block n) q = true →
      (v2gPhase (phaseOf s.block n) = true ∨ phaseOf s.block n = .stopping ∨ (v2gOf s.block n).isOpen = true) →
      ∃ t, exec (.v2gRequest n q) s = .next t ∧ Only [.lau, .sess, .veh, .plc, .plcCfg, .v2g, .imd, .imdG, .saf, .safX, .lsw, .pea, .arb, .slt, .legal, .auth, .bri, .key, .hic, .qmg, .cwy, .cwyX, .btn, .dmp, .rpl] s t ∧
        (t.block = safetyItem s.block (v2gServe n (updV2g n (fun v => { v with lastRequest := now s.block }) (creekItem n 4 ([v2gCode q]) s.block)) q))) ∧
  (∀ (s : State) (n : Fin 16) (q : V2gRequest),
      s.block.rpl.mode = false →
      (s.block.rst.sedge = false ∨ (plcOf s.block n).linkUp = false ∨ modemWorks s.block n = false ∨ v2gReaches (v2gOf s.block n) q = false) →
      ∃ t, exec (.v2gRequest n q) s = .next t ∧ Only [.lau, .sess, .veh, .plc, .plcCfg, .v2g, .imd, .imdG, .saf, .safX, .lsw, .pea, .arb, .slt, .legal, .auth, .bri, .key, .hic, .qmg, .cwy, .cwyX, .btn, .dmp, .rpl] s t ∧
        t.block = safetyItem s.block ((creekItem n 4 ([v2gCode q]) s.block))) ∧
  (∀ (s : State) (n : Fin 16),
      s.block.rst.sedge = true →
      v2gLive s.block n = true →
      (v2gOf s.block n).lastRequest.toNat + (v2gOf s.block n).inForce.seqTimeout.toNat * tSec ≤ (now s.block).toNat →
      ∃ t, exec (.v2gSeqTimeout n) s = .next t ∧ Only [.tide, .lau, .sess, .veh, .plc, .plcCfg, .v2g, .imd, .imdG, .saf, .safX, .lsw, .pea, .arb, .slt, .legal, .bri, .key, .hic, .qmg, .cwy, .cwyX, .btn, .dmp, .rpl, .prior] s t ∧
        t.block = safetyItem s.block (v2gTimeout n s.block)) ∧
  (∀ (s : State) (n : Fin 16) (network : Bool),
      s.block.rpl.mode = false →
      (plcOf s.block n).linkUp = true →
      s.block.rst.sedge = true →
      (v2gLive s.block n = true ∨ (network = true ∧ phaseOf s.block n = .stopping)) →
      ∃ t, exec (.v2gLinkLoss n network) s = .next t ∧ Only [.lau, .sess, .veh, .plc, .plcCfg, .v2g, .imd, .imdG, .saf, .safX, .lsw, .pea, .arb, .slt, .legal, .bri, .key, .hic, .qmg, .cwy, .cwyX, .btn, .dmp, .rpl] s t ∧
        (t.block = safetyItem s.block (v2gTimeout n (onlyIf network (updPlc n (fun x => { x with linkUp := false })) (creekItem n 3 ([if network then 0 else 2]) s.block))))) ∧
  (∀ (s : State) (n : Fin 16) (network : Bool),
      s.block.rpl.mode = false →
      (plcOf s.block n).linkUp = true →
      s.block.rst.sedge = true →
      v2gLive s.block n = false →
      (network = false ∨ phaseOf s.block n ≠ .stopping) →
      ∃ t, exec (.v2gLinkLoss n network) s = .next t ∧ Only [.lau, .sess, .veh, .plc, .plcCfg, .v2g, .imd, .imdG, .saf, .safX, .lsw, .pea, .arb, .slt, .legal, .bri, .key, .hic, .qmg, .cwy, .cwyX, .btn, .dmp, .rpl] s t ∧
        (t.block = safetyItem s.block (v2gClose n (onlyIf network (updPlc n (fun x => { x with linkUp := false })) (creekItem n 3 ([if network then 0 else 2]) s.block))))) ∧
  (∀ (s : State) (n : Fin 16) (network : Bool),
      s.block.rpl.mode = false →
      (plcOf s.block n).linkUp = false →
      ∃ t, exec (.v2gLinkLoss n network) s = .next t ∧ Only [.lau, .sess, .veh, .plc, .plcCfg, .v2g, .imd, .imdG, .saf, .safX, .lsw, .pea, .arb, .slt, .legal, .bri, .key, .hic, .qmg, .cwy, .cwyX, .btn, .dmp, .rpl] s t ∧
        (t.block = safetyItem s.block ((creekItem n 3 ([if network then 0 else 2]) s.block))))

/-- Under the conditions of its clause each command answers a next state, the queue stays, only the units listed there change, and what follows holds. Each command executes a request of its opcode while Sedge runs. PLC_SET_MAC of no group address, last octet at most 0xE0, no modem enabled: the base; a group address answers 0x0702. PLC_ENABLE on, with a base: the modems named are enabled, and run unless in fault or without Creek; without a base 0x0703; off, they are disabled in turn and those that run answered. PLC_SET_SLAC in range sets the values. PLC_SET_BLANK in range sets threshold, extension, longest time and level of the modems named. PLC_GET_STATUS returns five words, PLC_GET_RUN the last run, PLC_GET_PROFILE one of its 16 profiles or 0xFF bytes; without a run the two answer 0x0706. PLC_CLEAR_COUNTS sets the four counts of the modems named to 0. V2G_SET_CONFIG with a queue or none, a timeout of 5 to 60 and a protocol sets the values. V2G_SET_SECC from no host queue answers status 6 and takes nothing; from a queue with data, of a usable key slot for it, it takes the chain and the slot when the chain matches the key. V2G_GET_SESSION returns five words. V2G_CLEAR_COUNTS sets the two counts of the connectors named to 0. The constructors of Instr whose completion it states: plcSetMac, plcEnable, plcSetSlac, plcSetBlank, plcGetStatus, plcGetRun, plcGetProfile, plcClearCounts, v2gSetConfig, v2gSetSecc, v2gGetSession, v2gClearCounts. -/
def Obligations.ModemCommands : Prop :=
  (∀ (s : State) (m : Fin 4),
      Asked s m 0x0701 .sedge →
      (byteAt (rBytes s.block m 0 6) 0).getLsbD 0 = false →
      (byteAt (rBytes s.block m 0 6) 5).toNat ≤ 0xE0 →
      modemBits s.block (·.enable) = 0 →
      ∃ t, exec (.plcSetMac m) s = .next t ∧ Only [.plcCfg, .pea, .arb, .mbx, .hic, .rpl] s t ∧
        Answered s t m 0 ([]) ∧
        t.block.plcCfg = { s.block.plcCfg with macBase := BitVec.ofNat 48 (beNat (rBytes s.block m 0 6)) }) ∧
  (∀ (s : State) (m : Fin 4),
      Asked s m 0x0701 .sedge →
      (byteAt (rBytes s.block m 0 6) 0).getLsbD 0 = true →
      ∃ t, exec (.plcSetMac m) s = .next t ∧ Only [.plcCfg, .pea, .arb, .mbx, .hic, .rpl] s t ∧
        Answered s t m 0x0702 ([]) ∧
        t.block.plcCfg = s.block.plcCfg) ∧
  (∀ (s : State) (m : Fin 4),
      Asked s m 0x0702 .sedge →
      rBit s.block m 2 0 = true →
      s.block.plcCfg.macBase ≠ 0 →
      ∃ t, exec (.plcEnable m) s = .next t ∧ Only [.lau, .sess, .veh, .plc, .plcCfg, .v2g, .imd, .imdG, .saf, .safX, .lsw, .pea, .arb, .slt, .legal, .bri, .key, .mbx, .hic, .qmg, .cwy, .cwyX, .btn, .dmp, .rpl] s t ∧
        (∀ k, plcOf t.block k = if bitOf (rN s.block m 0 2) k.val then { plcOf s.block k with enable := true, running := !(plcOf s.block k).fault && s.block.rst.creek } else plcOf s.block k)) ∧
  (∀ (s : State) (m : Fin 4),
      Asked s m 0x0702 .sedge →
      rBit s.block m 2 0 = false →
      ∃ t, exec (.plcEnable m) s = .next t ∧ Only [.lau, .sess, .veh, .plc, .plcCfg, .v2g, .imd, .imdG, .saf, .safX, .lsw, .pea, .arb, .slt, .legal, .bri, .key, .mbx, .hic, .qmg, .cwy, .cwyX, .btn, .dmp, .rpl] s t ∧
        t.block = safetyItem s.block (let b := forAll (nodesOf (rN s.block m 0 2)) modemDisable s.block; ok m (leBytes 2 (modemBits b (·.running))) (saveSettings b))) ∧
  (∀ (s : State) (m : Fin 4),
      Asked s m 0x0702 .sedge →
      rBit s.block m 2 0 = true →
      s.block.plcCfg.macBase = 0 →
      ∃ t, exec (.plcEnable m) s = .next t ∧ Only [.lau, .sess, .veh, .plc, .plcCfg, .v2g, .imd, .imdG, .saf, .safX, .lsw, .pea, .arb, .slt, .legal, .bri, .key, .mbx, .hic, .qmg, .cwy, .cwyX, .btn, .dmp, .rpl] s t ∧
        Answered s t m 0x0703 ([]) ∧
        t.block.plc = s.block.plc) ∧
  (∀ (s : State) (m : Fin 4),
      Asked s m 0x0703 .sedge →
      (slacSetOf (rN s.block m 0 4) (rN s.block m 4 4) (rBit s.block m 8 0) (rBit s.block m 8 1)).ok = true →
      ∃ t, exec (.plcSetSlac m) s = .next t ∧ Only [.plcCfg, .pea, .arb, .mbx, .hic, .btn, .rpl] s t ∧
        Answered s t m 0 ([]) ∧
        t.block.plcCfg = { s.block.plcCfg with set := slacSetOf (rN s.block m 0 4) (rN s.block m 4 4) (rBit s.block m 8 0) (rBit s.block m 8 1) }) ∧
  (∀ (s : State) (m : Fin 4),
      Asked s m 0x0704 .sedge →
      256 ≤ fieldOf (rN s.block m 4 4) 0 11 →
      1 ≤ fieldOf (rN s.block m 4 4) 17 9 →
      fieldOf (rN s.block m 4 4) 26 5 ≤ 20 →
      ∃ t, exec (.plcSetBlank m) s = .next t ∧ Only [.plc, .pea, .arb, .mbx, .hic, .btn, .rpl] s t ∧
        Answered s t m 0 ([]) ∧
        (∀ k, plcOf t.block k = if bitOf (rN s.block m 0 2) k.val then { plcOf s.block k with blankThr := BitVec.ofNat 11 (fieldOf (rN s.block m 4 4) 0 11), blankExt := BitVec.ofNat 6 (rN s.block m 4 4 / 2 ^ 11), blankMax := BitVec.ofNat 9 (fieldOf (rN s.block m 4 4) 17 9), txLevel := BitVec.ofNat 5 (fieldOf (rN s.block m 4 4) 26 5) } else plcOf s.block k)) ∧
  (∀ (s : State) (m : Fin 4),
      Asked s m 0x0705 .sedge →
      (nodeCheck 0x0701 s.block m).2 = true →
      ∃ t, exec (.plcGetStatus m) s = .next t ∧ Only [.mbx, .rpl] s t ∧
        Answered s t m 0 (b32s [plcStatWord (plcOf s.block (reqNode s.block m)), (plcOf s.block (reqNode s.block m)).blankCnt, (plcOf s.block (reqNode s.block m)).eraseCnt, xtalkWord (plcOf s.block (reqNode s.block m)), attenWord (plcOf s.block (reqNode s.block m))])) ∧
  (∀ (s : State) (m : Fin 4) (r : RunReport),
      Asked s m 0x0706 .sedge →
      (nodeCheck 0x0701 s.block m).2 = true →
      (plcOf s.block (reqNode s.block m)).lastRun = some r →
      ∃ t, exec (.plcGetRun m) s = .next t ∧ Only [.mbx, .rpl] s t ∧
        Answered s t m 0 (beBytes 6 r.key.mac.toNat ++ [0, 0] ++ beBytes 8 r.key.runId.toNat ++ b64 r.decidedAt ++ [r.decision.setWidth 8, BitVec.ofNat 8 r.winner.val] ++ padTo 16 r.atten ++ padTo 16 r.windows)) ∧
  (∀ (s : State) (m : Fin 4),
      Asked s m 0x0706 .sedge →
      (nodeCheck 0x0701 s.block m).2 = true →
      (plcOf s.block (reqNode s.block m)).lastRun = none →
      ∃ t, exec (.plcGetRun m) s = .next t ∧ Only [.mbx, .rpl] s t ∧
        Answered s t m 0x0706 ([])) ∧
  (∀ (s : State) (m : Fin 4) (r : RunReport),
      Asked s m 0x0707 .sedge →
      (nodeCheck 0x0701 s.block m).2 = true →
      rN s.block m 1 1 < 16 →
      (plcOf s.block (reqNode s.block m)).lastRun = some r →
      r.profiles.getD (rN s.block m 1 1) [] = [] →
      ∃ t, exec (.plcGetProfile m) s = .next t ∧ Only [.mbx, .rpl] s t ∧
        Answered s t m 0 (List.replicate 58 0xFF)) ∧
  (∀ (s : State) (m : Fin 4) (r : RunReport),
      Asked s m 0x0707 .sedge →
      (nodeCheck 0x0701 s.block m).2 = true →
      rN s.block m 1 1 < 16 →
      (plcOf s.block (reqNode s.block m)).lastRun = some r →
      r.profiles.getD (rN s.block m 1 1) [] ≠ [] →
      ∃ t, exec (.plcGetProfile m) s = .next t ∧ Only [.mbx, .rpl] s t ∧
        Answered s t m 0 (padTo 58 (r.profiles.getD (rN s.block m 1 1) []))) ∧
  (∀ (s : State) (m : Fin 4),
      Asked s m 0x0707 .sedge →
      (nodeCheck 0x0701 s.block m).2 = true →
      rN s.block m 1 1 < 16 →
      (plcOf s.block (reqNode s.block m)).lastRun = none →
      ∃ t, exec (.plcGetProfile m) s = .next t ∧ Only [.mbx, .rpl] s t ∧
        Answered s t m 0x0706 ([])) ∧
  (∀ (s : State) (m : Fin 4),
      Asked s m 0x0708 .sedge →
      ∃ t, exec (.plcClearCounts m) s = .next t ∧ Only [.plc, .mbx, .rpl] s t ∧
        Answered s t m 0 ([]) ∧
        (∀ k, plcOf t.block k = if bitOf (rN s.block m 0 2) k.val then { plcOf s.block k with blankCnt := 0, eraseCnt := 0, rejected := 0, ambiguous := 0 } else plcOf s.block k)) ∧
  (∀ (s : State) (m : Fin 4),
      Asked s m 0x0610 .sedge →
      queueOk (rN s.block m 4 2) true = true →
      5 ≤ fieldOf (rN s.block m 0 4) 16 6 →
      fieldOf (rN s.block m 0 4) 16 6 ≤ 60 →
      fieldOf (rN s.block m 0 4) 0 4 ≠ 0 →
      ∃ t, exec (.v2gSetConfig m) s = .next t ∧ Only [.v2gCfg, .pea, .arb, .mbx, .hic, .rpl] s t ∧
        Answered s t m 0 ([]) ∧
        t.block.v2gCfg = { s.block.v2gCfg with allowed := BitVec.ofNat 4 (rN s.block m 0 4), external := bitOf (rN s.block m 0 4) 4, contract := bitOf (rN s.block m 0 4) 5, seqTimeout := BitVec.ofNat 6 (fieldOf (rN s.block m 0 4) 16 6), queue := BitVec.ofNat 16 (rN s.block m 4 2) }) ∧
  (∀ (s : State) (m : Fin 4),
      Asked s m 0x0611 .sedge →
      queueOk (rN s.block m 0 2) false = false →
      ∃ t, exec (.v2gSetSecc m) s = .next t ∧ Only [.v2gCfg, .arb, .mbx, .hic, .qmg, .cwy, .cwyX, .btn, .dmp, .rpl] s t ∧
        Answered s t m 6 ([]) ∧
        t.block.v2gCfg = s.block.v2gCfg ∧
        t.block.qmg = s.block.qmg) ∧
  (∀ (s : State) (m : Fin 4) (k : Fin 16),
      Asked s m 0x0611 .sedge →
      queueOk (rN s.block m 0 2) false = true →
      hostDataCheck s.block (rN s.block m 0 2) (rN s.block m 2 2) = 0 →
      rN s.block m 4 2 = k.val →
      slotUsable s.block k = true →
      (vget s.block.key.index k).usage = 6 →
      hostDataBytes s.block (rN s.block m 0 2) (rN s.block m 2 2) ≠ [] →
      ∃ t, exec (.v2gSetSecc m) s = .next t ∧ Only [.v2gCfg, .arb, .mbx, .hic, .qmg, .cwy, .cwyX, .btn, .dmp, .rpl] s t ∧
        (Config.chainMatches (hostDataBytes s.block (rN s.block m 0 2) (rN s.block m 2 2)) (vget s.block.key.index k).pub = true → t.block.v2gCfg = { s.block.v2gCfg with chain := hostDataBytes s.block (rN s.block m 0 2) (rN s.block m 2 2), keySlot := some k })) ∧
  (∀ (s : State) (m : Fin 4),
      Asked s m 0x0612 .sedge →
      (nodeCheck 0x0601 s.block m).2 = true →
      ∃ t, exec (.v2gGetSession m) s = .next t ∧ Only [.mbx, .rpl] s t ∧
        Answered s t m 0 (b32s [v2gStatWord (v2gOf s.block (reqNode s.block m)), evLimitWord (v2gOf s.block (reqNode s.block m)), evTargetWord (v2gOf s.block (reqNode s.block m)), (v2gOf s.block (reqNode s.block m)).maxP.setWidth 32, (sessOf s.block (reqNode s.block m)).number])) ∧
  (∀ (s : State) (m : Fin 4),
      Asked s m 0x0613 .sedge →
      ∃ t, exec (.v2gClearCounts m) s = .next t ∧ Only [.v2g, .mbx, .rpl] s t ∧
        Answered s t m 0 ([]) ∧
        (∀ k, v2gOf t.block k = if bitOf (rN s.block m 0 2) k.val then { v2gOf s.block k with timeouts := 0, tlsFail := 0 } else v2gOf s.block k))

/-- Under the conditions of its clause each command answers a next state, the queue stays, only the units listed there change, and what follows holds. IMD_RESULT, outside replay, of the first slot waiting, once its result is due: discarded, the value is invalid, the discards of the node and of the device count up, no disturbance is left and the alarms stay; else the period and the rails are looked at, the measurement is taken and slots are fed again, in that order; with no slot waiting nothing changes. BASELINE_LATE 20 cycles after the start of a baseline not told late: it is late, no other node changes and source 259 is raised; else no node and no source changes. IMD_STALE, the activity noted, of a node active for so long without a measurement and not stale: it goes stale; while its session is not open the node is stale and source 260 raised; of an inactive node only the activity is noted. IMD_RAIL_FAULT, outside replay: the rails read as given and no node changes; out of 20,000 to 28,000 mV in the cycle after the first such one, source 262 is raised; in it no source changes. CABLE_CHECK_TIMEOUT of a running check, 20 s after its beginning, or 5 s without the voltage: it has failed and the session stops with DEVICE_FAULT; with the session not open nothing else of the nodes changes and source 261 is raised; without a running check no node and no session changes. The constructors of Instr whose completion it states: imdResult, baselineLate, imdStale, imdRailFault, cableCheckTimeout. -/
def Obligations.InsulationInstants : Prop :=
  (∀ (s : State) (n : Fin 16) (x : ImdReading) (k : ImdSlot) (l : List ImdSlot),
      s.block.rpl.mode = false →
      (imdOf s.block n).slots = k :: l →
      k.start.toNat + injLen (periodAt s.block.imdG k.start.toNat) + tMs ≤ (now s.block).toNat →
      slotDiscarded s.block n k x = true →
      ∃ t, exec (.imdResult n x) s = .next t ∧ Only [.tide, .lau, .sess, .mlk, .veh, .plc, .plcCfg, .imd, .imdG, .saf, .safX, .lsw, .pea, .arb, .slt, .legal, .bri, .key, .hic, .qmg, .cwy, .cwyX, .btn, .dmp, .rpl, .prior] s t ∧
        (imdOf t.block n).valid = false ∧
        (imdOf t.block n).discards = satInc (imdOf s.block n).discards ∧
        (imdOf t.block n).disturb = [] ∧
        (imdOf t.block n).warn = (imdOf s.block n).warn ∧
        (imdOf t.block n).fault = (imdOf s.block n).fault ∧
        t.block.imdG.discardCnt = satInc s.block.imdG.discardCnt) ∧
  (∀ (s : State) (n : Fin 16) (x : ImdReading) (k : ImdSlot) (l : List ImdSlot),
      s.block.rpl.mode = false →
      (imdOf s.block n).slots = k :: l →
      k.start.toNat + injLen (periodAt s.block.imdG k.start.toNat) + tMs ≤ (now s.block).toNat →
      slotDiscarded s.block n k x = false →
      ∃ t, exec (.imdResult n x) s = .next t ∧ Only [.tide, .lau, .sess, .mlk, .veh, .plc, .plcCfg, .imd, .imdG, .saf, .safX, .lsw, .pea, .arb, .slt, .legal, .bri, .key, .hic, .qmg, .cwy, .cwyX, .btn, .dmp, .rpl, .prior] s t ∧
        (t.block = safetyItem s.block (driveFeed (imdMeasure n k x (railSee (railBad x) x.samples[99].pos x.samples[99].neg (updImd n (fun i => { i with slots := i.slots.tail, disturb := [] }) (periodStep s.block))))))) ∧
  (∀ (s : State) (n : Fin 16) (x : ImdReading),
      s.block.rpl.mode = false →
      (imdOf s.block n).slots = [] →
      ∃ t, exec (.imdResult n x) s = .next t ∧ Only [.tide, .lau, .sess, .mlk, .veh, .plc, .plcCfg, .imd, .imdG, .saf, .safX, .lsw, .pea, .arb, .slt, .legal, .bri, .key, .hic, .qmg, .cwy, .cwyX, .btn, .dmp, .rpl, .prior] s t ∧
        t.block = safetyItem s.block (s.block)) ∧
  (∀ (s : State) (n : Fin 16),
      (imdOf s.block n).baselining = true →
      (imdOf s.block n).blLate = false →
      (imdOf s.block n).blFrom.toNat + 20 * cycleLen s.block.imdG.period.toNat ≤ (now s.block).toNat →
      ∃ t, exec (.baselineLate n) s = .next t ∧ Only [.tide, .imd, .hic, .rpl, .prior] s t ∧
        (t.block.imd = vupd s.block.imd n fun x => { x with blLate := true }) ∧
        Raised t.block 259) ∧
  (∀ (s : State) (n : Fin 16),
      ((imdOf s.block n).baselining = false ∨ (imdOf s.block n).blLate = true) →
      ∃ t, exec (.baselineLate n) s = .next t ∧ Only [.tide, .imd, .hic, .rpl, .prior] s t ∧
        t.block.imd = s.block.imd ∧
        t.block.hic = s.block.hic) ∧
  (∀ (s : State) (n : Fin 16) (i : U64),
      (imdOf (noteActive s.block) n).activeFrom = some i →
      (imdOf s.block n).stale = false →
      staleFrom (noteActive s.block) n i ≤ (now s.block).toNat →
      ∃ t, exec (.imdStale n) s = .next t ∧ Only [.tide, .lau, .sess, .mlk, .veh, .plc, .plcCfg, .imd, .imdG, .saf, .safX, .lsw, .pea, .arb, .slt, .legal, .bri, .key, .hic, .qmg, .cwy, .cwyX, .btn, .dmp, .rpl, .prior] s t ∧
        t.block = safetyItem s.block (goStale n (noteActive s.block)) ∧
        ((sessOf s.block n).phase.isOpen = false → (imdOf t.block n).stale = true ∧ Raised t.block 260)) ∧
  (∀ (s : State) (n : Fin 16),
      imdActive s.block n = false →
      ∃ t, exec (.imdStale n) s = .next t ∧ Only [.tide, .lau, .sess, .mlk, .veh, .plc, .plcCfg, .imd, .imdG, .saf, .safX, .lsw, .pea, .arb, .slt, .legal, .bri, .key, .hic, .qmg, .cwy, .cwyX, .btn, .dmp, .rpl, .prior] s t ∧
        t.block = safetyItem s.block (noteActive s.block)) ∧
  (∀ (s : State) (pos neg : U16) (k : Nat),
      s.block.rpl.mode = false →
      (pos.toNat < 20000 ∨ 28000 < pos.toNat ∨ neg.toNat < 20000 ∨ 28000 < neg.toNat) →
      k = (now s.block).toNat / cycleLen (periodAt s.block.imdG (now s.block).toNat) * cycleLen (periodAt s.block.imdG (now s.block).toNat) →
      ∃ t, exec (.imdRailFault pos neg) s = .next t ∧ Only [.imdG, .hic, .rpl] s t ∧
        t.block.imdG.railPos = pos ∧
        t.block.imdG.railNeg = neg ∧
        t.block.imdG.railBadAt = some (BitVec.ofNat 64 k) ∧
        (∀ p, s.block.imdG.railBadAt = some p → p.toNat + cycleLen (periodAt s.block.imdG (now s.block).toNat) = k → s.block.imdG.railRun = 1 → s.block.imdG.railBadAt ≠ some (BitVec.ofNat 64 k) → Raised t.block 262) ∧
        t.block.imd = s.block.imd) ∧
  (∀ (s : State) (pos neg : U16),
      s.block.rpl.mode = false →
      20000 ≤ pos.toNat →
      pos.toNat ≤ 28000 →
      20000 ≤ neg.toNat →
      neg.toNat ≤ 28000 →
      ∃ t, exec (.imdRailFault pos neg) s = .next t ∧ Only [.imdG, .hic, .rpl] s t ∧
        t.block.imdG = { s.block.imdG with railPos := pos, railNeg := neg } ∧
        t.block.hic = s.block.hic) ∧
  (∀ (s : State) (n : Fin 16),
      (imdOf s.block n).cableCheck = 1 →
      ((imdOf s.block n).checkFrom.toNat + (if (imdOf s.block n).uAt.isNone then 5 else 20) * tSec ≤ (now s.block).toNat) →
      ∃ t, exec (.cableCheckTimeout n) s = .next t ∧ Only [.tide, .lau, .sess, .veh, .plc, .plcCfg, .imd, .imdG, .saf, .safX, .lsw, .pea, .arb, .slt, .legal, .bri, .key, .hic, .qmg, .cwy, .cwyX, .btn, .dmp, .rpl, .prior] s t ∧
        t.block = safetyItem s.block (stopSession n .deviceFault (cableCheckEnd n 3 s.block)) ∧
        ((phaseOf s.block n).isOpen = false → t.block.imd = vupd s.block.imd n fun x => { x with cableCheck := 3 }) ∧
        ((phaseOf s.block n).isOpen = false → Raised t.block 261)) ∧
  (∀ (s : State) (n : Fin 16),
      (imdOf s.block n).cableCheck ≠ 1 →
      ∃ t, exec (.cableCheckTimeout n) s = .next t ∧ Only [.tide, .lau, .sess, .veh, .plc, .plcCfg, .imd, .imdG, .saf, .safX, .lsw, .pea, .arb, .slt, .legal, .bri, .key, .hic, .qmg, .cwy, .cwyX, .btn, .dmp, .rpl, .prior] s t ∧
        t.block.imd = s.block.imd ∧
        t.block.sess = s.block.sess)

/-- Under the conditions of its clause each command answers a next state, the queue stays, only the units listed there change, and what follows holds. RCM_BLOCK_END at the end of an AC block with samples: the feeder reads the root mean square and the mean of its samples in mA, each limited to its field, and keeps the largest; it stays lost only when this block lost samples too, which are counted in a row; its sums begin again, and the other feeder stays; with no sample, or at no block end, feeders and safety unit stay. RCM_WARNING: 50 blocks high set the warning, 50 low clear it, nothing else of the feeders changes, and source 264 is raised. RCM_LOST after 10 blocks with lost samples in a row: the feeder is lost and tripped, sources 265 and 266 are raised; else no feeder and no source changes. RCM_TEST_END: a trip within 450,000,000 ticks ends the test, passed, with source 267 and the time in microseconds answered; a later trip, or none by then with the winding off, ends it, failed, with source 267 and 0x0806; at the end of its duration before that, the winding is switched off; without a test nothing changes. The constructors of Instr whose completion it states: rcmBlockEnd, rcmWarning, rcmLost, rcmTestEnd. -/
def Obligations.ResidualInstants : Prop :=
  (∀ (s : State) (f : Fin 2),
      (rcmOf s.block f).n ≠ 0 →
      (s.block.met.stamp.toNat + tSample) % 30000000 = 0 →
      ∃ t, exec (.rcmBlockEnd f) s = .next t ∧ Only [.lau, .sess, .mlk, .veh, .plc, .plcCfg, .imd, .imdG, .rcm, .rcmTest, .saf, .safX, .lsw, .pea, .arb, .slt, .legal, .bri, .key, .hic, .qmg, .cwy, .cwyX, .btn, .dmp, .rpl] s t ∧
        (rcmOf t.block f).iRms = satNat 16 (isqrt ((rcmOf s.block f).sumSq * 1000000 / ((rcmOf s.block f).n * 2 ^ 298))) ∧
        (rcmOf t.block f).iDc = satInt 16 (Int.tdiv ((rcmOf s.block f).sum * 1000) ((rcmOf s.block f).n * 2 ^ 149)) ∧
        (rcmOf t.block f).maxRms = satNat 16 (max (rcmOf s.block f).maxRms.toNat (min (isqrt ((rcmOf s.block f).sumSq * 1000000 / ((rcmOf s.block f).n * 2 ^ 298))) 65535)) ∧
        (rcmOf t.block f).lost = ((rcmOf s.block f).lost && (rcmOf s.block f).lossNow) ∧
        ((rcmOf t.block f).lostRun = if (rcmOf s.block f).lossNow then (rcmOf s.block f).lostRun + 1 else 0) ∧
        (rcmOf t.block f).n = 0 ∧
        (rcmOf t.block f).sum = 0 ∧
        (rcmOf t.block f).sumSq = 0 ∧
        (∀ k, k ≠ f → rcmOf t.block k = rcmOf s.block k)) ∧
  (∀ (s : State) (f : Fin 2),
      ((rcmOf s.block f).n = 0 ∨ (s.block.met.stamp.toNat + tSample) % 30000000 ≠ 0) →
      ∃ t, exec (.rcmBlockEnd f) s = .next t ∧ Only [.lau, .sess, .mlk, .veh, .plc, .plcCfg, .imd, .imdG, .rcm, .rcmTest, .saf, .safX, .lsw, .pea, .arb, .slt, .legal, .bri, .key, .hic, .qmg, .cwy, .cwyX, .btn, .dmp, .rpl] s t ∧
        t.block.rcm = s.block.rcm ∧
        t.block.saf = s.block.saf) ∧
  (∀ (s : State) (f : Fin 2),
      (rcmOf s.block f).warn = false →
      50 ≤ (rcmOf s.block f).warnRun →
      ∃ t, exec (.rcmWarning f) s = .next t ∧ Only [.rcm, .hic, .rpl] s t ∧
        (t.block.rcm = vupd s.block.rcm f fun r => { r with warn := true }) ∧
        Raised t.block 264) ∧
  (∀ (s : State) (f : Fin 2),
      (rcmOf s.block f).warn = true →
      50 ≤ (rcmOf s.block f).lowRun →
      ∃ t, exec (.rcmWarning f) s = .next t ∧ Only [.rcm, .hic, .rpl] s t ∧
        (t.block.rcm = vupd s.block.rcm f fun r => { r with warn := false }) ∧
        Raised t.block 264) ∧
  (∀ (s : State) (f : Fin 2),
      (rcmOf s.block f).lost = false →
      10 ≤ (rcmOf s.block f).lostRun →
      ∃ t, exec (.rcmLost f) s = .next t ∧ Only [.lau, .sess, .mlk, .veh, .plc, .plcCfg, .imd, .imdG, .rcm, .saf, .safX, .lsw, .pea, .arb, .slt, .legal, .bri, .key, .hic, .qmg, .cwy, .cwyX, .btn, .dmp, .rpl] s t ∧
        (t.block.rcm = vupd s.block.rcm f fun r => { r with lost := true, trip := true }) ∧
        Raised t.block 265 ∧
        Raised t.block 266) ∧
  (∀ (s : State) (f : Fin 2),
      ((rcmOf s.block f).lost = true ∨ (rcmOf s.block f).lostRun < 10) →
      ∃ t, exec (.rcmLost f) s = .next t ∧ Only [.lau, .sess, .mlk, .veh, .plc, .plcCfg, .imd, .imdG, .rcm, .saf, .safX, .lsw, .pea, .arb, .slt, .legal, .bri, .key, .hic, .qmg, .cwy, .cwyX, .btn, .dmp, .rpl] s t ∧
        t.block.rcm = s.block.rcm ∧
        t.block.hic = s.block.hic) ∧
  (∀ (s : State) (x : RcmTest) (i : U64),
      s.block.rcmTest = some x →
      x.tripAt = some i →
      i.toNat - x.start.toNat ≤ 450000000 →
      (mbxOf s.block x.mbx).state = .busy →
      ∃ t, exec .rcmTestEnd s = .next t ∧ Only [.tide, .lau, .rcm, .rcmTest, .pea, .arb, .mbx, .hic, .qmg, .cwy, .cwyX, .btn, .dmp, .rpl, .prior] s t ∧
        t.block.rcmTest = none ∧
        (t.block.rcm = vupd s.block.rcm x.feeder fun r => { r with testFail := false, tripping := false }) ∧
        Raised t.block 267 ∧
        Answered s t x.mbx 0 ([1, 0, 0, 0] ++ leBytes 4 ((i.toNat - x.start.toNat) / tUs))) ∧
  (∀ (s : State) (x : RcmTest) (i : U64),
      s.block.rcmTest = some x →
      x.tripAt = some i →
      450000000 < i.toNat - x.start.toNat →
      (mbxOf s.block x.mbx).state = .busy →
      ∃ t, exec .rcmTestEnd s = .next t ∧ Only [.tide, .lau, .rcm, .rcmTest, .pea, .arb, .mbx, .hic, .qmg, .cwy, .cwyX, .btn, .dmp, .rpl, .prior] s t ∧
        t.block.rcmTest = none ∧
        (t.block.rcm = vupd s.block.rcm x.feeder fun r => { r with testFail := true, tripping := false }) ∧
        Raised t.block 267 ∧
        Answered s t x.mbx 0x0806 []) ∧
  (∀ (s : State) (x : RcmTest),
      s.block.rcmTest = some x →
      x.tripAt = none →
      x.off = true →
      x.start.toNat + 450000000 ≤ (now s.block).toNat →
      (mbxOf s.block x.mbx).state = .busy →
      ∃ t, exec .rcmTestEnd s = .next t ∧ Only [.tide, .lau, .rcm, .rcmTest, .pea, .arb, .mbx, .hic, .qmg, .cwy, .cwyX, .btn, .dmp, .rpl, .prior] s t ∧
        t.block.rcmTest = none ∧
        (t.block.rcm = vupd s.block.rcm x.feeder fun r => { r with testFail := true, tripping := false }) ∧
        Raised t.block 267 ∧
        Answered s t x.mbx 0x0806 []) ∧
  (∀ (s : State) (x : RcmTest),
      s.block.rcmTest = some x →
      x.tripAt = none →
      x.off = false →
      x.until_.toNat ≤ (now s.block).toNat →
      ∃ t, exec .rcmTestEnd s = .next t ∧ Only [.tide, .lau, .rcm, .rcmTest, .pea, .arb, .mbx, .hic, .qmg, .cwy, .cwyX, .btn, .dmp, .rpl, .prior] s t ∧
        t.block = safetyItem s.block (rcmTestOff x s.block)) ∧
  (∀ (s : State),
      s.block.rcmTest = none →
      ∃ t, exec .rcmTestEnd s = .next t ∧ Only [.tide, .lau, .rcm, .rcmTest, .pea, .arb, .mbx, .hic, .qmg, .cwy, .cwyX, .btn, .dmp, .rpl, .prior] s t ∧
        t.block = safetyItem s.block (s.block))

/-- Under the conditions of its clause each command answers a next state, the queue stays, only the units listed there change, and what follows holds. Each command executes a request of its opcode while Dyke runs. IMD_SET_CONFIG in range with every connector quiet: network values and thresholds; a period other than the one in force waits for the multiple of 4 s that follows 8 cycles, which is answered, else none waits and now is answered; a period above 3 answers 0x0802, a connector in use 0x0803, and the nodes and the settings stay. IMD_SET_FORCE sets the force of all nodes. IMD_GET_NODE returns the words of a node. IMD_REBASELINE: the nodes named baseline again from nothing with a restart counted, the others stay. RCM_SET_CONFIG in range with every connector quiet sets the three values of the feeder and nothing else of the feeders; feeder 2 or above answers 0x0804. RCM_GET returns a feeder and sets its largest value to 0. RCM_TEST of a free channel for 100 to 500 ms with every connector quiet sets up the test 192 ticks ahead; a channel of 40 or above answers 0x0805 and submits nothing. IMD_CLEAR_COUNTS sets the two counts of the nodes named and the discards of the device to 0. The constructors of Instr whose completion it states: imdSetConfig, imdSetForce, imdGetNode, imdRebaseline, rcmSetConfig, rcmGet, rcmTest, imdClearCounts. -/
def Obligations.InsulationCommands : Prop :=
  (∀ (s : State) (m : Fin 4) (q : Nat),
      Asked s m 0x0801 .dyke →
      rN s.block m 0 1 ≤ 3 →
      50 ≤ fieldOf (rN s.block m 4 4) 0 10 →
      fieldOf (rN s.block m 4 4) 0 10 ≤ 1000 →
      fieldOf (rN s.block m 4 4) 16 7 ≤ 100 →
      100 ≤ fieldOf (rN s.block m 8 4) 0 11 →
      fieldOf (rN s.block m 8 4) 0 11 ≤ 2000 →
      100 ≤ fieldOf (rN s.block m 8 4) 16 9 →
      fieldOf (rN s.block m 8 4) 16 9 ≤ 500 →
      fieldOf (rN s.block m 8 4) 16 9 < fieldOf (rN s.block m 8 4) 0 11 →
      allQuiet s.block = true →
      q = periodAt (periodStep s.block).imdG (now s.block).toNat →
      ∃ t, exec (.imdSetConfig m) s = .next t ∧ Only [.imd, .imdG, .pea, .arb, .mbx, .hic, .btn, .rpl] s t ∧
        (Answered s t m 0 (b64 (if rN s.block m 0 1 ≠ q then BitVec.ofNat 64 (multipleFrom 6000000000 ((now s.block).toNat + 8 * cycleLen q)) else now s.block))) ∧
        t.block.imdG.rExt = BitVec.ofNat 10 (fieldOf (rN s.block m 4 4) 0 10) ∧
        t.block.imdG.cMod = BitVec.ofNat 7 (fieldOf (rN s.block m 4 4) 16 7) ∧
        t.block.imdG.cConn = BitVec.ofNat 8 (fieldOf (rN s.block m 4 4) 24 8) ∧
        t.block.imdG.warnThr = BitVec.ofNat 11 (fieldOf (rN s.block m 8 4) 0 11) ∧
        t.block.imdG.faultThr = BitVec.ofNat 9 (fieldOf (rN s.block m 8 4) 16 9) ∧
        (t.block.imdG.pendingPeriod = if rN s.block m 0 1 ≠ q then some (BitVec.ofNat 2 (rN s.block m 0 1), BitVec.ofNat 64 (multipleFrom 6000000000 ((now s.block).toNat + 8 * cycleLen q))) else none)) ∧
  (∀ (s : State) (m : Fin 4),
      Asked s m 0x0801 .dyke →
      3 < rN s.block m 0 1 →
      ∃ t, exec (.imdSetConfig m) s = .next t ∧ Only [.imd, .imdG, .pea, .arb, .mbx, .hic, .btn, .rpl] s t ∧
        Answered s t m 0x0802 ([]) ∧
        t.block.imdG = s.block.imdG ∧
        t.block.imd = s.block.imd) ∧
  (∀ (s : State) (m : Fin 4),
      Asked s m 0x0801 .dyke →
      rN s.block m 0 1 ≤ 3 →
      50 ≤ fieldOf (rN s.block m 4 4) 0 10 →
      fieldOf (rN s.block m 4 4) 0 10 ≤ 1000 →
      fieldOf (rN s.block m 4 4) 16 7 ≤ 100 →
      100 ≤ fieldOf (rN s.block m 8 4) 0 11 →
      fieldOf (rN s.block m 8 4) 0 11 ≤ 2000 →
      100 ≤ fieldOf (rN s.block m 8 4) 16 9 →
      fieldOf (rN s.block m 8 4) 16 9 ≤ 500 →
      fieldOf (rN s.block m 8 4) 16 9 < fieldOf (rN s.block m 8 4) 0 11 →
      allQuiet s.block = false →
      ∃ t, exec (.imdSetConfig m) s = .next t ∧ Only [.imd, .imdG, .pea, .arb, .mbx, .hic, .btn, .rpl] s t ∧
        Answered s t m 0x0803 ([]) ∧
        t.block.imdG = s.block.imdG ∧
        t.block.imd = s.block.imd) ∧
  (∀ (s : State) (m : Fin 4),
      Asked s m 0x0802 .dyke →
      ∃ t, exec (.imdSetForce m) s = .next t ∧ Only [.lau, .imd, .imdG, .pea, .arb, .mbx, .hic, .qmg, .cwy, .cwyX, .btn, .dmp, .rpl] s t ∧
        Answered s t m 0 ([]) ∧
        (∀ n, (imdOf t.block n).force = bitOf (rN s.block m 0 2) n.val)) ∧
  (∀ (s : State) (m : Fin 4),
      Asked s m 0x0803 .dyke →
      (nodeCheck 0x0801 s.block m).2 = true →
      ∃ t, exec (.imdGetNode m) s = .next t ∧ Only [.mbx, .rpl] s t ∧
        Answered s t m 0 (b32s [imdStatWord s.block (reqNode s.block m), imdRWord (imdOf s.block (reqNode s.block m)), imdCWord (imdOf s.block (reqNode s.block m)), imdUWord s.block (reqNode s.block m)] ++ b64 (imdOf s.block (reqNode s.block m)).lastAt ++ b32 (BitVec.ofInt 32 (imdOf s.block (reqNode s.block m)).iOff))) ∧
  (∀ (s : State) (m : Fin 4),
      Asked s m 0x0804 .dyke →
      ∃ t, exec (.imdRebaseline m) s = .next t ∧ Only [.imd, .mbx, .rpl] s t ∧
        Answered s t m 0 ([]) ∧
        (∀ n, if bitOf (rN s.block m 0 2) n.val then (imdOf t.block n).baselining = true ∧ (imdOf t.block n).blSlots = [] ∧ (imdOf t.block n).restarts = satInc (imdOf s.block n).restarts else imdOf t.block n = imdOf s.block n)) ∧
  (∀ (s : State) (m : Fin 4),
      Asked s m 0x0805 .dyke →
      (rB s.block m 0).toNat < 2 →
      30 ≤ rN s.block m 4 2 →
      rN s.block m 4 2 ≤ 3000 →
      rN s.block m 6 2 < rN s.block m 4 2 →
      6 ≤ rN s.block m 8 2 →
      rN s.block m 8 2 ≤ 1000 →
      allQuiet s.block = true →
      ∃ t, exec (.rcmSetConfig m) s = .next t ∧ Only [.rcm, .pea, .arb, .mbx, .hic, .btn, .rpl] s t ∧
        Answered s t m 0 ([]) ∧
        (t.block.rcm = vupd s.block.rcm (reqFeeder s.block m) fun r => { r with tripRms := BitVec.ofNat 16 (rN s.block m 4 2), warnRms := BitVec.ofNat 16 (rN s.block m 6 2), tripDc := BitVec.ofNat 16 (rN s.block m 8 2) })) ∧
  (∀ (s : State) (m : Fin 4),
      Asked s m 0x0805 .dyke →
      2 ≤ (rB s.block m 0).toNat →
      ∃ t, exec (.rcmSetConfig m) s = .next t ∧ Only [.rcm, .pea, .arb, .mbx, .hic, .btn, .rpl] s t ∧
        Answered s t m 0x0804 ([]) ∧
        t.block.rcm = s.block.rcm) ∧
  (∀ (s : State) (m : Fin 4),
      Asked s m 0x0806 .dyke →
      (rB s.block m 0).toNat < 2 →
      ∃ t, exec (.rcmGet m) s = .next t ∧ Only [.rcm, .mbx, .rpl] s t ∧
        Answered s t m 0 (b32 (rcmValWord (rcmOf s.block (reqFeeder s.block m))) ++ leBytes 4 (rcmOf s.block (reqFeeder s.block m)).maxRms.toNat ++ [BitVec.ofNat 8 (bitsNat [(rcmOf s.block (reqFeeder s.block m)).trip, (rcmOf s.block (reqFeeder s.block m)).warn, (rcmOf s.block (reqFeeder s.block m)).lost, (rcmOf s.block (reqFeeder s.block m)).testFail])]) ∧
        (t.block.rcm = vupd s.block.rcm (reqFeeder s.block m) fun r => { r with maxRms := 0 })) ∧
  (∀ (s : State) (m : Fin 4) (c : Fin 40),
      Asked s m 0x0807 .dyke →
      (rB s.block m 0).toNat < 2 →
      (rB s.block m 1).toNat = c.val →
      isLockChan s.block c.val = false →
      isSupplyChan s.block c.val = false →
      100 ≤ rN s.block m 2 2 →
      rN s.block m 2 2 ≤ 500 →
      allQuiet s.block = true →
      ∃ t, exec (.rcmTest m) s = .next t ∧ Only [.lau, .rcmTest, .arb, .mbx, .hic, .qmg, .cwy, .cwyX, .btn, .dmp, .rpl] s t ∧
        t.block.rcmTest = some { feeder := reqFeeder s.block m, channel := c, start := ahead s.block fwLead, until_ := ahead s.block fwLead + BitVec.ofNat 64 (rN s.block m 2 2 * tMs), mbx := m }) ∧
  (∀ (s : State) (m : Fin 4),
      Asked s m 0x0807 .dyke →
      (rB s.block m 0).toNat < 2 →
      40 ≤ (rB s.block m 1).toNat →
      ∃ t, exec (.rcmTest m) s = .next t ∧ Only [.lau, .rcmTest, .arb, .mbx, .hic, .qmg, .cwy, .cwyX, .btn, .dmp, .rpl] s t ∧
        Answered s t m 0x0805 ([]) ∧
        t.block.rcmTest = s.block.rcmTest ∧
        t.block.qmg = s.block.qmg) ∧
  (∀ (s : State) (m : Fin 4),
      Asked s m 0x0808 .dyke →
      ∃ t, exec (.imdClearCounts m) s = .next t ∧ Only [.imd, .imdG, .mbx, .rpl] s t ∧
        Answered s t m 0 ([]) ∧
        (∀ n, imdOf t.block n = if bitOf (rN s.block m 0 2) n.val then { imdOf s.block n with discards := 0, restarts := 0 } else imdOf s.block n) ∧
        t.block.imdG = { s.block.imdG with discardCnt := 0 })

/-- Under the conditions of its clause each command answers a next state, the queue stays, only the units listed there change, and what follows holds. TEST_PULSE_PERIOD, outside replay, Tide ready and at the next 10 ms: the loop and the time are noted, a good loop ends its trip, every pair is checked on the pulses as both channels saw them, and the decisions of the channels are published and compared, in that order; with no pair in use and no trip open, the loop is all that changes in the safety unit and the decisions stand published; before Tide is ready nothing changes. PAIR_FAULT_CLEAR of a latched pair with 10 good periods: the latch is cleared, the pair acts as its inputs are, the others stay; else the safety unit stays. SAFETY_INPUT_OPEN of an unused pair changes nothing of the safety units; of a used one, outside replay and its blanking: the input is not closed, open since its first such instant, and the pair acts as the channels that decide say. SAFETY_INPUT_CLOSE of a used pair: the input is closed and not open, and no session changes. ILK_FAULT: the loop is noted as given, and with the hub permit a trip of both channels, or the first of one, is source 292 and a hub stop of cause 3; without the permit nothing else of the safety unit changes. The constructors of Instr whose completion it states: testPulsePeriod, pairFaultClear, safetyInputOpen, safetyInputClose, ilkFault. -/
def Obligations.SafetyInputs : Prop :=
  (∀ (s : State) (x : TestPulse),
      s.block.rpl.mode = false →
      s.block.tide.ready = true →
      nextMultiple 15000000 s.block.safX.pulseAt s.block = (now s.block).toNat →
      ∃ t, exec (.testPulsePeriod x) s = .next t ∧ Only [.tide, .lau, .sess, .mlk, .veh, .plc, .plcCfg, .imd, .imdG, .saf, .safX, .lsw, .pea, .arb, .slt, .legal, .bri, .key, .hic, .qmg, .cwy, .cwyX, .btn, .dmp, .rpl, .prior] s t ∧
        (t.block = safetyItem s.block (compareDecisions (forAll (List.finRange 8) (pairCheck x) (onlyIf (x.retA && x.retB && !x.crossShort && !x.overload) (tripOver fnIlk) (updSafX (fun y => { y with pulseAt := some (now s.block) }) (updSaf (fun y => { y with retA := x.retA, retB := x.retB, crossShort := x.crossShort, overload := x.overload }) s.block))))))) ∧
  (∀ (s : State) (x : TestPulse),
      s.block.rpl.mode = false →
      s.block.tide.ready = true →
      nextMultiple 15000000 s.block.safX.pulseAt s.block = (now s.block).toNat →
      (∀ k, (safPair s.block k).function = 0) →
      s.block.safX.tripsOpen = [] →
      ∃ t, exec (.testPulsePeriod x) s = .next t ∧ Only [.tide, .lau, .sess, .mlk, .veh, .plc, .plcCfg, .imd, .imdG, .saf, .safX, .lsw, .pea, .arb, .slt, .legal, .bri, .key, .hic, .qmg, .cwy, .cwyX, .btn, .dmp, .rpl, .prior] s t ∧
        t.block.safX.pulseAt = some (now s.block) ∧
        t.block.safX.tripsOpen = [] ∧
        t.block.safX.published = t.block.safX.decided ∧
        t.block.saf = { s.block.saf with retA := x.retA, retB := x.retB, crossShort := x.crossShort, overload := x.overload }) ∧
  (∀ (s : State) (x : TestPulse),
      s.block.rpl.mode = false →
      s.block.tide.ready = false →
      ∃ t, exec (.testPulsePeriod x) s = .next t ∧ Only [.tide, .lau, .sess, .mlk, .veh, .plc, .plcCfg, .imd, .imdG, .saf, .safX, .lsw, .pea, .arb, .slt, .legal, .bri, .key, .hic, .qmg, .cwy, .cwyX, .btn, .dmp, .rpl, .prior] s t ∧
        t.block = safetyItem s.block (s.block)) ∧
  (∀ (s : State) (k : Fin 8),
      (safPair s.block k).faultLatched = true →
      10 ≤ (safPair s.block k).okPeriods →
      ∃ t, exec (.pairFaultClear k) s = .next t ∧ Only [.saf, .safX, .rpl] s t ∧
        (safPair t.block k).faultLatched = false ∧
        (safPair t.block k).acting = (pairInputs k).any (inputOpen s.block) ∧
        (∀ j, j ≠ k → safPair t.block j = safPair s.block j)) ∧
  (∀ (s : State) (k : Fin 8),
      ((safPair s.block k).faultLatched = false ∨ (safPair s.block k).okPeriods < 10) →
      ∃ t, exec (.pairFaultClear k) s = .next t ∧ Only [.saf, .safX, .rpl] s t ∧
        t.block.saf = s.block.saf) ∧
  (∀ (s : State) (i : Fin 16) (dyke hw : Bool),
      s.block.rpl.mode = false →
      (safPair s.block (inputPair i)).function = 0 →
      ∃ t, exec (.safetyInputOpen i dyke hw) s = .next t ∧ Only [.tide, .lau, .sess, .mlk, .veh, .plc, .plcCfg, .imd, .imdG, .saf, .safX, .lsw, .pea, .arb, .slt, .legal, .bri, .key, .hic, .qmg, .cwy, .cwyX, .btn, .dmp, .rpl, .prior] s t ∧
        t.block.saf = s.block.saf ∧
        t.block.safX = s.block.safX) ∧
  (∀ (s : State) (i : Fin 16) (dyke hw : Bool),
      s.block.rpl.mode = false →
      (safPair s.block (inputPair i)).function ≠ 0 →
      unblanked i s.block = (now s.block).toNat →
      ∃ t, exec (.safetyInputOpen i dyke hw) s = .next t ∧ Only [.tide, .lau, .sess, .mlk, .veh, .plc, .plcCfg, .imd, .imdG, .saf, .safX, .lsw, .pea, .arb, .slt, .legal, .bri, .key, .hic, .qmg, .cwy, .cwyX, .btn, .dmp, .rpl, .prior] s t ∧
        (t.block = safetyItem s.block (tripDecide (inputPair i).val dyke hw (pairActs (inputPair i)) (pairDiffer (inputPair i) (updSaf (fun x => { x with inputClosed := x.inputClosed &&& ~~~(BitVec.ofNat 16 (2 ^ i.val)), openSince := vupd x.openSince i fun t => match t with | some t => some t | none => some (now s.block) }) s.block)))) ∧
        t.block.saf.inputClosed = s.block.saf.inputClosed &&& ~~~(BitVec.ofNat 16 (2 ^ i.val)) ∧
        (vget t.block.saf.openSince i).isSome = true) ∧
  (∀ (s : State) (i : Fin 16),
      s.block.rpl.mode = false →
      (safPair s.block (inputPair i)).function ≠ 0 →
      ∃ t, exec (.safetyInputClose i) s = .next t ∧ Only [.saf, .safX, .rpl] s t ∧
        t.block.saf.inputClosed = s.block.saf.inputClosed ||| BitVec.ofNat 16 (2 ^ i.val) ∧
        vget t.block.saf.openSince i = none ∧
        t.block.sess = s.block.sess) ∧
  (∀ (s : State) (a c cross ovl dyke hw : Bool),
      s.block.rpl.mode = false →
      ∃ t, exec (.ilkFault a c cross ovl dyke hw) s = .next t ∧ Only [.lau, .sess, .mlk, .veh, .plc, .plcCfg, .imd, .imdG, .saf, .safX, .lsw, .pea, .arb, .slt, .legal, .bri, .key, .hic, .qmg, .cwy, .cwyX, .btn, .dmp, .rpl] s t ∧
        (t.block = safetyItem s.block (tripDecide fnIlk dyke hw (fun b => if b.saf.hubPermit then contain { cause := 3, scope := .hub, mode := .hubStop, base := 3, lock := true, reason := .safety } (irq 292 b) else b) (updSaf (fun x => { x with retA := a, retB := c, crossShort := cross, overload := ovl }) s.block))) ∧
        t.block.saf.retA = a ∧
        t.block.saf.retB = c ∧
        t.block.saf.crossShort = cross ∧
        t.block.saf.overload = ovl) ∧
  (∀ (s : State) (a c cross ovl dyke hw : Bool),
      s.block.rpl.mode = false →
      s.block.saf.hubPermit = false →
      ∃ t, exec (.ilkFault a c cross ovl dyke hw) s = .next t ∧ Only [.lau, .sess, .mlk, .veh, .plc, .plcCfg, .imd, .imdG, .saf, .safX, .lsw, .pea, .arb, .slt, .legal, .bri, .key, .hic, .qmg, .cwy, .cwyX, .btn, .dmp, .rpl] s t ∧
        t.block.saf = { s.block.saf with retA := a, retB := c, crossShort := cross, overload := ovl })

/-- Under the conditions of its clause each command answers a next state, the queue stays, only the units listed there change, and what follows holds. DYKE_ALIVE_TIMEOUT: alive and not paused, Dyke is not alive, every hardware permit is withdrawn and every pair turned off, and the channels disagree; else neither the safety unit nor a session changes. DISAGREE_TIMEOUT 30,000,000 ticks after the oldest trip of one channel: that trip is dropped, agree clears, source 296 is raised and the hub stops with cause 13; without one the safety units stay. OV_TRIP, outside replay: the channels that decide trip node and cause 4 with source 293; the first decision, when no trip of it stands, leaves the node tripped; no decision changes nothing. OVERVOLTAGE_RELEASE, outside replay: the node is not tripped, and each hardware permit is as its condition is then. PILOT_BACKUP, outside replay, of a closed pair with the hardware permit and 88 bad periods: the pair is turned off, the permit withdrawn, the backup has acted and the channels disagree; else neither the safety unit nor a session changes. SAFE_RESET_PULSE, outside replay, Tide ready: valid in both channels it arms the reset for 10 s and raises source 298; in neither it is counted with source 299; in one alone the channels disagree. RESET_ARM_EXPIRED at its instant disarms it and changes nothing else of the safety unit. The constructors of Instr whose completion it states: dykeAliveTimeout, disagreeTimeout, ovTrip, overvoltageRelease, pilotBackup, safeResetPulse, resetArmExpired. -/
def Obligations.SafetyChannels : Prop :=
  (∀ (s : State),
      (s.block.saf.dykeAlive = false ∨ dykePaused s.block = true) →
      ∃ t, exec .dykeAliveTimeout s = .next t ∧ Only [.lau, .sess, .mlk, .veh, .plc, .plcCfg, .imd, .imdG, .saf, .safX, .lsw, .pea, .arb, .slt, .legal, .bri, .key, .hic, .qmg, .cwy, .cwyX, .btn, .dmp, .rpl] s t ∧
        t.block.saf = s.block.saf ∧
        t.block.sess = s.block.sess) ∧
  (∀ (s : State),
      s.block.saf.dykeAlive = true →
      dykePaused s.block = false →
      ∃ t, exec .dykeAliveTimeout s = .next t ∧ Only [.lau, .sess, .mlk, .veh, .plc, .plcCfg, .imd, .imdG, .saf, .safX, .lsw, .pea, .arb, .slt, .legal, .bri, .key, .hic, .qmg, .cwy, .cwyX, .btn, .dmp, .rpl] s t ∧
        (t.block = safetyItem s.block (disagree (forAll allNodes (fun n b => lsOff n (updNode n (fun x => { x with permitHw := false }) b)) (updSaf (fun x => { x with dykeAlive := false }) s.block))))) ∧
  (∀ (s : State) (d : Bool) (f : Nat) (i : U64) (l : List (Bool × Nat × U64)),
      s.block.safX.tripsOpen = (d, f, i) :: l →
      i.toNat + 30000000 ≤ (now s.block).toNat →
      ∃ t, exec .disagreeTimeout s = .next t ∧ Only [.tide, .lau, .sess, .mlk, .veh, .plc, .plcCfg, .imd, .imdG, .saf, .safX, .lsw, .pea, .arb, .slt, .legal, .bri, .key, .hic, .qmg, .cwy, .cwyX, .btn, .dmp, .rpl, .prior] s t ∧
        (t.block = safetyItem s.block (contain { cause := 0x0D, scope := .hub, mode := .hubStop, base := 3, lock := true, reason := .safety } (irq 296 (updSaf (fun x => { x with agree := false }) (updSafX (fun x => { x with tripsOpen := l }) s.block)))))) ∧
  (∀ (s : State),
      s.block.safX.tripsOpen = [] →
      ∃ t, exec .disagreeTimeout s = .next t ∧ Only [.tide, .lau, .sess, .mlk, .veh, .plc, .plcCfg, .imd, .imdG, .saf, .safX, .lsw, .pea, .arb, .slt, .legal, .bri, .key, .hic, .qmg, .cwy, .cwyX, .btn, .dmp, .rpl, .prior] s t ∧
        t.block.saf = s.block.saf ∧
        t.block.safX = s.block.safX) ∧
  (∀ (s : State) (n : Fin 16) (dyke hw : Bool),
      s.block.rpl.mode = false →
      ∃ t, exec (.ovTrip n dyke hw) s = .next t ∧ Only [.lau, .sess, .mlk, .veh, .plc, .plcCfg, .imd, .imdG, .saf, .safX, .lsw, .pea, .arb, .slt, .legal, .bri, .key, .hic, .qmg, .cwy, .cwyX, .btn, .dmp, .rpl] s t ∧
        (t.block = safetyItem s.block (tripDecide (16 + n.val) dyke hw (fun b => if (nodeOf b n).ovTripped then b else contain { cause := 4, scope := .node n, mode := .immediate, base := 1, lock := true, reason := .safety } (irq 293 (updNode n (fun x => { x with ovTripped := true }) b))) s.block)) ∧
        ((dyke = true ∨ hw = true) → s.block.safX.tripsOpen.find? (fun t => t.2.1 == 16 + n.val) = none → (nodeOf t.block n).ovTripped = true)) ∧
  (∀ (s : State) (n : Fin 16) (dyke hw : Bool),
      s.block.rpl.mode = false →
      dyke = false →
      hw = false →
      (s.block.safX.tripsOpen.find? (fun t => t.2.1 == 16 + n.val) = none) →
      ∃ t, exec (.ovTrip n dyke hw) s = .next t ∧ Only [.lau, .sess, .mlk, .veh, .plc, .plcCfg, .imd, .imdG, .saf, .safX, .lsw, .pea, .arb, .slt, .legal, .bri, .key, .hic, .qmg, .cwy, .cwyX, .btn, .dmp, .rpl] s t ∧
        t.block.saf = s.block.saf ∧
        t.block.sess = s.block.sess) ∧
  (∀ (s : State) (n : Fin 16),
      s.block.rpl.mode = false →
      ∃ t, exec (.overvoltageRelease n) s = .next t ∧ Only [.saf, .safX, .lsw, .hic, .rpl] s t ∧
        (nodeOf t.block n).ovTripped = false ∧
        (∀ k, (nodeOf t.block k).permitHw = hwCondition (updNode n (fun x => { x with ovTripped := false }) (tripOver (16 + n.val) s.block)) k)) ∧
  (∀ (s : State) (n : Fin 16),
      s.block.rpl.mode = false →
      (nodeOf s.block n).permitHw = true →
      (nodeOf s.block n).closed = true →
      88 ≤ (nodeOf s.block n).pilotBad →
      ∃ t, exec (.pilotBackup n) s = .next t ∧ Only [.lau, .sess, .mlk, .veh, .plc, .plcCfg, .imd, .imdG, .saf, .safX, .lsw, .pea, .arb, .slt, .legal, .bri, .key, .hic, .qmg, .cwy, .cwyX, .btn, .dmp, .rpl] s t ∧
        (t.block = safetyItem s.block (disagree (lsOff n (updNode n (fun x => { x with backupActed := true, permitHw := false }) s.block))))) ∧
  (∀ (s : State) (n : Fin 16),
      s.block.rpl.mode = false →
      ((nodeOf s.block n).permitHw = false ∨ (nodeOf s.block n).closed = false ∨ (nodeOf s.block n).pilotBad < 88) →
      ∃ t, exec (.pilotBackup n) s = .next t ∧ Only [.lau, .sess, .mlk, .veh, .plc, .plcCfg, .imd, .imdG, .saf, .safX, .lsw, .pea, .arb, .slt, .legal, .bri, .key, .hic, .qmg, .cwy, .cwyX, .btn, .dmp, .rpl] s t ∧
        t.block.saf = s.block.saf ∧
        t.block.sess = s.block.sess) ∧
  (∀ (s : State) (dyke hw : Nat),
      s.block.rpl.mode = false →
      s.block.tide.ready = true →
      pulseValid dyke = true →
      pulseValid hw = true →
      ∃ t, exec (.safeResetPulse dyke hw) s = .next t ∧ Only [.lau, .sess, .mlk, .veh, .plc, .plcCfg, .imd, .imdG, .saf, .safX, .lsw, .pea, .arb, .slt, .legal, .bri, .key, .hic, .qmg, .cwy, .cwyX, .btn, .dmp, .rpl] s t ∧
        t.block.safX = { s.block.safX with width := satNat 16 (dyke / 1000), valid := true } ∧
        t.block.saf = { s.block.saf with resetArmedUntil := some (ahead s.block (10 * tSec)) } ∧
        Raised t.block 298) ∧
  (∀ (s : State) (dyke hw : Nat),
      s.block.rpl.mode = false →
      s.block.tide.ready = true →
      pulseValid dyke = false →
      pulseValid hw = false →
      ∃ t, exec (.safeResetPulse dyke hw) s = .next t ∧ Only [.lau, .sess, .mlk, .veh, .plc, .plcCfg, .imd, .imdG, .saf, .safX, .lsw, .pea, .arb, .slt, .legal, .bri, .key, .hic, .qmg, .cwy, .cwyX, .btn, .dmp, .rpl] s t ∧
        t.block.safX = { s.block.safX with width := satNat 16 (dyke / 1000), valid := false, rejected := satInc s.block.safX.rejected } ∧
        t.block.saf = s.block.saf ∧
        Raised t.block 299) ∧
  (∀ (s : State) (dyke hw : Nat),
      s.block.rpl.mode = false →
      s.block.tide.ready = true →
      pulseValid dyke ≠ pulseValid hw →
      ∃ t, exec (.safeResetPulse dyke hw) s = .next t ∧ Only [.lau, .sess, .mlk, .veh, .plc, .plcCfg, .imd, .imdG, .saf, .safX, .lsw, .pea, .arb, .slt, .legal, .bri, .key, .hic, .qmg, .cwy, .cwyX, .btn, .dmp, .rpl] s t ∧
        (t.block = safetyItem s.block (disagree (updSafX (fun x => { x with width := satNat 16 (dyke / 1000), valid := false }) s.block)))) ∧
  (∀ (s : State) (i : U64),
      s.block.saf.resetArmedUntil = some i →
      i.toNat ≤ (now s.block).toNat →
      ∃ t, exec .resetArmExpired s = .next t ∧ Only [.tide, .saf, .rpl, .prior] s t ∧
        t.block.saf = { s.block.saf with resetArmedUntil := none })

/-- Under the conditions of its clause each command answers a next state, the queue stays, only the units listed there change, and what follows holds. RAMPED_STOP_TIMEOUT of a ramped stop, zero verified or 30,000,000 ticks after its beginning: the pair opens as such a stop says; without one neither safety unit nor session changes. CONTACTOR_CLOSE_TIMEOUT 50 ms after a turn-on not confirmed: source 301 and an immediate containment of the node with cause 10; with none awaited nothing of the two units changes. CONTACTOR_OPEN_CHECK: 10 ms after an opening not verified, of a pair without a supply channel of its own, the opening is late, the supply stuck and its decay slow, sources 301 and 329 are raised and no session changes; 50 ms after one already late, source 301 and a hub stop with cause 10. WELD_TEST_START with no test running: t_drop after the opening of a pair that is due one, it begins on the module found for it, or, with none found, the pair needs one and its stop is done; of a pair not due one the units stay. WELD_TEST_COMPARE 30,000,000 ticks after the start of a test that joins no module: it passes, finds a weld, or, when unclear, begins a second time and at the second counts as a weld. RECOVERY_WINDOW_EXPIRED of the first window to end: below level 3 with a scope that is not safe it escalates, else the episode may end; with no window neither safety unit nor session changes. The constructors of Instr whose completion it states: rampedStopTimeout, contactorCloseTimeout, contactorOpenCheck, weldTestStart, weldTestCompare, recoveryWindowExpired. -/
def Obligations.ContactorInstants : Prop :=
  (∀ (s : State) (n : Fin 16),
      (nodeOf s.block n).rampedAt = none →
      ∃ t, exec (.rampedStopTimeout n) s = .next t ∧ Only [.tide, .lau, .sess, .veh, .plc, .plcCfg, .imd, .imdG, .saf, .safX, .lsw, .pea, .arb, .slt, .legal, .bri, .key, .hic, .qmg, .cwy, .cwyX, .btn, .dmp, .rpl, .prior] s t ∧
        t.block.saf = s.block.saf ∧
        t.block.sess = s.block.sess) ∧
  (∀ (s : State) (n : Fin 16) (i : U64),
      (nodeOf s.block n).rampedAt = some i →
      ((sessOf s.block n).zeroVerified = true ∨ i.toNat + 30000000 ≤ (now s.block).toNat) →
      ∃ t, exec (.rampedStopTimeout n) s = .next t ∧ Only [.tide, .lau, .sess, .veh, .plc, .plcCfg, .imd, .imdG, .saf, .safX, .lsw, .pea, .arb, .slt, .legal, .bri, .key, .hic, .qmg, .cwy, .cwyX, .btn, .dmp, .rpl, .prior] s t ∧
        t.block = safetyItem s.block (rampedOpen n s.block)) ∧
  (∀ (s : State) (n : Fin 16) (i : U64),
      (nodeOf s.block n).closeAt = some i →
      i.toNat + 50 * tMs ≤ (now s.block).toNat →
      ∃ t, exec (.contactorCloseTimeout n) s = .next t ∧ Only [.tide, .lau, .sess, .mlk, .veh, .plc, .plcCfg, .imd, .imdG, .saf, .safX, .lsw, .pea, .arb, .slt, .legal, .bri, .key, .hic, .qmg, .cwy, .cwyX, .btn, .dmp, .rpl, .prior] s t ∧
        (t.block = safetyItem s.block (contain { cause := 0x0A, scope := .node n, mode := .immediate, base := 1, lock := true, reason := .safety } (irq 301 (updNode n (fun x => { x with closeAt := none }) s.block))))) ∧
  (∀ (s : State) (n : Fin 16),
      (nodeOf s.block n).closeAt = none →
      ∃ t, exec (.contactorCloseTimeout n) s = .next t ∧ Only [.tide, .lau, .sess, .mlk, .veh, .plc, .plcCfg, .imd, .imdG, .saf, .safX, .lsw, .pea, .arb, .slt, .legal, .bri, .key, .hic, .qmg, .cwy, .cwyX, .btn, .dmp, .rpl, .prior] s t ∧
        t.block.saf = s.block.saf ∧
        t.block.hic = s.block.hic) ∧
  (∀ (s : State) (n : Fin 16) (i : U64),
      (nodeOf s.block n).openAt = some i →
      (nodeOf s.block n).openLate = true →
      i.toNat + 50 * tMs ≤ (now s.block).toNat →
      ∃ t, exec (.contactorOpenCheck n) s = .next t ∧ Only [.tide, .lau, .sess, .mlk, .veh, .plc, .plcCfg, .imd, .imdG, .saf, .safX, .lsw, .pea, .arb, .slt, .legal, .bri, .key, .hic, .qmg, .cwy, .cwyX, .btn, .dmp, .rpl, .prior] s t ∧
        (t.block = safetyItem s.block (contain { cause := 0x0A, scope := .hub, mode := .hubStop, base := 3, lock := true, reason := .safety } (irq 301 (updNode n (fun x => { x with openAt := none }) s.block))))) ∧
  (∀ (s : State) (n : Fin 16) (i : U64),
      (nodeOf s.block n).openAt = some i →
      (nodeOf s.block n).openLate = false →
      i.toNat + 10 * tMs ≤ (now s.block).toNat →
      40 ≤ (lsOf s.block n).supply.toNat →
      ∃ t, exec (.contactorOpenCheck n) s = .next t ∧ Only [.tide, .lau, .sess, .mlk, .veh, .plc, .plcCfg, .imd, .imdG, .saf, .safX, .lsw, .pea, .arb, .slt, .legal, .bri, .key, .hic, .qmg, .cwy, .cwyX, .btn, .dmp, .rpl, .prior] s t ∧
        (nodeOf t.block n).openLate = true ∧
        (lsOf t.block n).stuck = true ∧
        (lsOf t.block n).decaySlow = true ∧
        Raised t.block 301 ∧
        Raised t.block 329 ∧
        t.block.sess = s.block.sess) ∧
  (∀ (s : State) (n : Fin 16),
      vget s.block.safX.weldTests n = none →
      (nodeOf s.block n).weldDue = true →
      (nodeOf s.block n).lastOpen.toNat + s.block.safX.tDrop.toNat * 15000000 ≤ (now s.block).toNat →
      weldModule s.block n = none →
      ∃ t, exec (.weldTestStart n) s = .next t ∧ Only [.tide, .lau, .sess, .mlk, .veh, .plc, .plcCfg, .imd, .imdG, .saf, .safX, .lsw, .pea, .arb, .slt, .legal, .bri, .key, .mbx, .hic, .qmg, .cwy, .cwyX, .btn, .dmp, .rpl, .prior] s t ∧
        (t.block = safetyItem s.block (stopDone n (updNode n (fun x => { x with weld := 0, weldNeed := true, weldDue := false }) s.block)))) ∧
  (∀ (s : State) (n : Fin 16) (k : Fin 96),
      vget s.block.safX.weldTests n = none →
      (nodeOf s.block n).weldDue = true →
      (nodeOf s.block n).lastOpen.toNat + s.block.safX.tDrop.toNat * 15000000 ≤ (now s.block).toNat →
      weldModule s.block n = some k →
      ∃ t, exec (.weldTestStart n) s = .next t ∧ Only [.tide, .lau, .sess, .mlk, .veh, .plc, .plcCfg, .imd, .imdG, .saf, .safX, .lsw, .pea, .arb, .slt, .legal, .bri, .key, .mbx, .hic, .qmg, .cwy, .cwyX, .btn, .dmp, .rpl, .prior] s t ∧
        t.block = safetyItem s.block (weldBegin n { module := k } s.block)) ∧
  (∀ (s : State) (n : Fin 16),
      vget s.block.safX.weldTests n = none →
      (nodeOf s.block n).weldDue = false →
      ∃ t, exec (.weldTestStart n) s = .next t ∧ Only [.tide, .lau, .sess, .mlk, .veh, .plc, .plcCfg, .imd, .imdG, .saf, .safX, .lsw, .pea, .arb, .slt, .legal, .bri, .key, .mbx, .hic, .qmg, .cwy, .cwyX, .btn, .dmp, .rpl, .prior] s t ∧
        t.block.saf = s.block.saf ∧
        t.block.safX = s.block.safX ∧
        t.block.mlk = s.block.mlk) ∧
  (∀ (s : State) (n : Fin 16) (w : WeldTest),
      vget s.block.safX.weldTests n = some w →
      w.joining = false →
      w.start.toNat + 30000000 ≤ (now s.block).toNat →
      weldSees s.block n w.module = .pass →
      ∃ t, exec (.weldTestCompare n) s = .next t ∧ Only [.tide, .lau, .sess, .mlk, .veh, .plc, .plcCfg, .imd, .imdG, .saf, .safX, .lsw, .pea, .arb, .slt, .legal, .bri, .key, .mbx, .hic, .qmg, .cwy, .cwyX, .btn, .dmp, .rpl, .prior] s t ∧
        t.block = safetyItem s.block (weldEnd n w false s.block)) ∧
  (∀ (s : State) (n : Fin 16) (w : WeldTest),
      vget s.block.safX.weldTests n = some w →
      w.joining = false →
      w.start.toNat + 30000000 ≤ (now s.block).toNat →
      weldSees s.block n w.module = .welded →
      ∃ t, exec (.weldTestCompare n) s = .next t ∧ Only [.tide, .lau, .sess, .mlk, .veh, .plc, .plcCfg, .imd, .imdG, .saf, .safX, .lsw, .pea, .arb, .slt, .legal, .bri, .key, .mbx, .hic, .qmg, .cwy, .cwyX, .btn, .dmp, .rpl, .prior] s t ∧
        t.block = safetyItem s.block (weldEnd n w true s.block)) ∧
  (∀ (s : State) (n : Fin 16) (w : WeldTest),
      vget s.block.safX.weldTests n = some w →
      w.joining = false →
      w.start.toNat + 30000000 ≤ (now s.block).toNat →
      weldSees s.block n w.module = .unclear →
      ∃ t, exec (.weldTestCompare n) s = .next t ∧ Only [.tide, .lau, .sess, .mlk, .veh, .plc, .plcCfg, .imd, .imdG, .saf, .safX, .lsw, .pea, .arb, .slt, .legal, .bri, .key, .mbx, .hic, .qmg, .cwy, .cwyX, .btn, .dmp, .rpl, .prior] s t ∧
        (t.block = safetyItem s.block (if w.second then weldEnd n w true s.block else weldBegin n { w with second := true } (updNode n (fun x => { x with weld := 3 }) s.block)))) ∧
  (∀ (s : State) (w : Containment),
      firstWindow s.block = some w →
      w.until_.toNat ≤ (now s.block).toNat →
      (s.block.saf.level = 3 ∨ scopeSafe s.block w.scope = true) →
      ∃ t, exec .recoveryWindowExpired s = .next t ∧ Only [.tide, .lau, .sess, .mlk, .veh, .plc, .plcCfg, .imd, .imdG, .saf, .safX, .lsw, .pea, .arb, .slt, .legal, .bri, .key, .hic, .qmg, .cwy, .cwyX, .btn, .dmp, .rpl, .prior] s t ∧
        (t.block = safetyItem s.block (endEpisode (updSaf (fun x => { x with windows := x.windows.erase w }) s.block)))) ∧
  (∀ (s : State) (w : Containment),
      firstWindow s.block = some w →
      w.until_.toNat ≤ (now s.block).toNat →
      s.block.saf.level.toNat < 3 →
      scopeSafe s.block w.scope = false →
      ∃ t, exec .recoveryWindowExpired s = .next t ∧ Only [.tide, .lau, .sess, .mlk, .veh, .plc, .plcCfg, .imd, .imdG, .saf, .safX, .lsw, .pea, .arb, .slt, .legal, .bri, .key, .hic, .qmg, .cwy, .cwyX, .btn, .dmp, .rpl, .prior] s t ∧
        (t.block = safetyItem s.block (escalate w (updSaf (fun x => { x with windows := x.windows.erase w }) s.block)))) ∧
  (∀ (s : State),
      firstWindow s.block = none →
      ∃ t, exec .recoveryWindowExpired s = .next t ∧ Only [.tide, .lau, .sess, .mlk, .veh, .plc, .plcCfg, .imd, .imdG, .saf, .safX, .lsw, .pea, .arb, .slt, .legal, .bri, .key, .hic, .qmg, .cwy, .cwyX, .btn, .dmp, .rpl, .prior] s t ∧
        t.block.saf = s.block.saf ∧
        t.block.sess = s.block.sess)

/-- Under the conditions of its clause each command answers a next state, the queue stays, only the units listed there change, and what follows holds. Each command executes a request of its opcode while Dyke runs. SAF_GET_STATUS returns the 16 words of the block, SAF_GET_NODE those of a node, SAF_GET_FAULTS the last eight records. SAF_SET_CONFIG in range with every connector quiet sets the three times and margins, and function and nodes of every pair, and the configuration is held; a trip temperature above 170 answers 0x0902. SAF_RESET_ACK without an armed reset answers 0x0904 and changes nothing of the safety unit; an armed one is used up: with a recovery window open it answers 0x0906, with named lock-outs of which none may clear 0x0905, and nothing else of that unit changes; else every named lock-out that may clear is cleared, the episode may end, and the scopes cleared and those not are answered. SAF_WELD_TEST of an open node with no test running or due, in no phase whose pair may close and not STOPPING: the test begins on the module found for it, or, with none there and a hand-over free, joins a candidate; of a node not verified open it answers 0x0907 and begins nothing. SAF_CLEAR_COUNTS sets three counts to 0 and changes nothing else of its unit. The constructors of Instr whose completion it states: safGetStatus, safSetConfig, safResetAck, safWeldTest, safGetNode, safGetFaults, safClearCounts. -/
def Obligations.SafetyCommands : Prop :=
  (∀ (s : State) (m : Fin 4),
      Asked s m 0x0901 .dyke →
      ∃ t, exec (.safGetStatus m) s = .next t ∧ Only [.mbx, .rpl] s t ∧
        (Answered s t m 0 (b32s ((List.range 16).map fun k => safWord s.block (0x780 + k))))) ∧
  (∀ (s : State) (m : Fin 4),
      Asked s m 0x0902 .dyke →
      (((List.range 8).all fun k => decide (fieldOf (rN s.block m (4 * k) 4) 0 2 ≤ 2 ∧ fieldOf (rN s.block m (4 * k) 4) 2 14 = 0)) = true) →
      s.block.vehCfg.tEnd.toNat + 1 ≤ fieldOf (rN s.block m 32 4) 0 8 →
      fieldOf (rN s.block m 32 4) 0 8 ≤ 170 →
      10 ≤ fieldOf (rN s.block m 32 4) 8 8 →
      fieldOf (rN s.block m 32 4) 8 8 ≤ 100 →
      2 ≤ fieldOf (rN s.block m 32 4) 16 8 →
      fieldOf (rN s.block m 32 4) 16 8 ≤ 10 →
      fieldOf (rN s.block m 32 4) 24 8 = 0 →
      allQuiet s.block = true →
      ∃ t, exec (.safSetConfig m) s = .next t ∧ Only [.lau, .sess, .mlk, .veh, .plc, .plcCfg, .imd, .imdG, .saf, .safX, .lsw, .pea, .arb, .slt, .legal, .bri, .key, .mbx, .hic, .qmg, .cwy, .cwyX, .btn, .dmp, .rpl] s t ∧
        t.block.safX.tTrip = BitVec.ofNat 8 (fieldOf (rN s.block m 32 4) 0 8) ∧
        t.block.safX.ovMargin = BitVec.ofNat 8 (fieldOf (rN s.block m 32 4) 8 8) ∧
        t.block.safX.tDrop = BitVec.ofNat 8 (fieldOf (rN s.block m 32 4) 16 8) ∧
        (∀ k, (safPair t.block k).function = BitVec.ofNat 2 (fieldOf (rN s.block m (4 * k.val) 4) 0 2) ∧ (safPair t.block k).nodes = BitVec.ofNat 16 (fieldOf (rN s.block m (4 * k.val) 4) 16 16)) ∧
        t.block.saf.cfgOk = true) ∧
  (∀ (s : State) (m : Fin 4),
      Asked s m 0x0902 .dyke →
      170 < fieldOf (rN s.block m 32 4) 0 8 →
      ∃ t, exec (.safSetConfig m) s = .next t ∧ Only [.lau, .sess, .mlk, .veh, .plc, .plcCfg, .imd, .imdG, .saf, .safX, .lsw, .pea, .arb, .slt, .legal, .bri, .key, .mbx, .hic, .qmg, .cwy, .cwyX, .btn, .dmp, .rpl] s t ∧
        Answered s t m 0x0902 ([]) ∧
        t.block.saf = s.block.saf ∧
        t.block.safX = s.block.safX) ∧
  (∀ (s : State) (m : Fin 4),
      Asked s m 0x0903 .dyke →
      rN s.block m 3 1 ≤ 1 →
      s.block.saf.resetArmedUntil = none →
      ∃ t, exec (.safResetAck m) s = .next t ∧ Only [.lau, .sess, .mlk, .veh, .plc, .plcCfg, .v2g, .imd, .imdG, .saf, .safX, .lsw, .pea, .arb, .auth, .mbx, .hic, .qmg, .cwy, .cwyX, .btn, .dmp, .rpl] s t ∧
        Answered s t m 0x0904 ([]) ∧
        t.block.saf = s.block.saf) ∧
  (∀ (s : State) (m : Fin 4),
      Asked s m 0x0903 .dyke →
      rN s.block m 3 1 ≤ 1 →
      s.block.saf.resetArmedUntil.isSome = true →
      s.block.saf.windows ≠ [] →
      ∃ t, exec (.safResetAck m) s = .next t ∧ Only [.lau, .sess, .mlk, .veh, .plc, .plcCfg, .v2g, .imd, .imdG, .saf, .safX, .lsw, .pea, .arb, .auth, .mbx, .hic, .qmg, .cwy, .cwyX, .btn, .dmp, .rpl] s t ∧
        Answered s t m 0x0906 ([]) ∧
        t.block.saf = { s.block.saf with resetArmedUntil := none }) ∧
  (∀ (s : State) (m : Fin 4) (l : List CScope),
      Asked s m 0x0903 .dyke →
      rN s.block m 3 1 ≤ 1 →
      s.block.saf.resetArmedUntil.isSome = true →
      s.block.saf.windows = [] →
      l = namedLocks s.block (rN s.block m 0 2) (rN s.block m 2 1) (rN s.block m 3 1 == 1) →
      l ≠ [] →
      (∀ x ∈ l, mayClear (updSaf (fun x => { x with resetArmedUntil := none }) s.block) x = false) →
      ∃ t, exec (.safResetAck m) s = .next t ∧ Only [.lau, .sess, .mlk, .veh, .plc, .plcCfg, .v2g, .imd, .imdG, .saf, .safX, .lsw, .pea, .arb, .auth, .mbx, .hic, .qmg, .cwy, .cwyX, .btn, .dmp, .rpl] s t ∧
        Answered s t m 0x0905 ([]) ∧
        t.block.saf = { s.block.saf with resetArmedUntil := none }) ∧
  (∀ (s : State) (m : Fin 4) (g d : List CScope),
      Asked s m 0x0903 .dyke →
      rN s.block m 3 1 ≤ 1 →
      s.block.saf.resetArmedUntil.isSome = true →
      s.block.saf.windows = [] →
      (g = (namedLocks s.block (rN s.block m 0 2) (rN s.block m 2 1) (rN s.block m 3 1 == 1)).filter (mayClear (updSaf (fun x => { x with resetArmedUntil := none }) s.block))) →
      (d = (namedLocks s.block (rN s.block m 0 2) (rN s.block m 2 1) (rN s.block m 3 1 == 1)).filter (fun x => !mayClear (updSaf (fun x => { x with resetArmedUntil := none }) s.block) x)) →
      (g ≠ [] ∨ d = []) →
      ∃ t, exec (.safResetAck m) s = .next t ∧ Only [.lau, .sess, .mlk, .veh, .plc, .plcCfg, .v2g, .imd, .imdG, .saf, .safX, .lsw, .pea, .arb, .auth, .mbx, .hic, .qmg, .cwy, .cwyX, .btn, .dmp, .rpl] s t ∧
        (t.block = safetyItem s.block (let bits := fun (l : List CScope) (k : Nat) => (l.filterMap fun x => if x.kind.1 = k then some (2 ^ x.kind.2) else none).sum; cmdLog m 0 (ok m (leBytes 2 (bits g 0) ++ leBytes 1 (bits g 1) ++ leBytes 1 (bits g 2) ++ leBytes 2 (bits d 0)) (endEpisode (forAll g clearLock (updSaf (fun x => { x with resetArmedUntil := none }) s.block))))))) ∧
  (∀ (s : State) (m : Fin 4) (x : Fin 96),
      Asked s m 0x0904 .dyke →
      (nodeCheck 0x0901 s.block m).2 = true →
      (nodeOf s.block (reqNode s.block m)).openVerified = true →
      (phaseOf s.block (reqNode s.block m)).mayClose = false →
      phaseOf s.block (reqNode s.block m) ≠ .stopping →
      weldRuns s.block (reqNode s.block m) = false →
      (nodeOf s.block (reqNode s.block m)).weldDue = false →
      weldModule s.block (reqNode s.block m) = some x →
      ∃ t, exec (.safWeldTest m) s = .next t ∧ Only [.lau, .sess, .slu, .mlk, .safX, .arb, .mbx, .hic, .qmg, .cwy, .cwyX, .btn, .dmp, .rpl] s t ∧
        t.block = safetyItem s.block (weldBegin (reqNode s.block m) { module := x, byCommand := some m } s.block)) ∧
  (∀ (s : State) (m : Fin 4) (x : Fin 96),
      Asked s m 0x0904 .dyke →
      (nodeCheck 0x0901 s.block m).2 = true →
      (nodeOf s.block (reqNode s.block m)).openVerified = true →
      (phaseOf s.block (reqNode s.block m)).mayClose = false →
      phaseOf s.block (reqNode s.block m) ≠ .stopping →
      weldRuns s.block (reqNode s.block m) = false →
      (nodeOf s.block (reqNode s.block m)).weldDue = false →
      weldModule s.block (reqNode s.block m) = none →
      flightCount s.block < 24 →
      weldCandidate s.block (reqNode s.block m) = some x →
      ∃ t, exec (.safWeldTest m) s = .next t ∧ Only [.lau, .sess, .slu, .mlk, .safX, .arb, .mbx, .hic, .qmg, .cwy, .cwyX, .btn, .dmp, .rpl] s t ∧
        t.block = safetyItem s.block (weldJoin (reqNode s.block m) x m s.block)) ∧
  (∀ (s : State) (m : Fin 4),
      Asked s m 0x0904 .dyke →
      (nodeCheck 0x0901 s.block m).2 = true →
      (nodeOf s.block (reqNode s.block m)).openVerified = false →
      ∃ t, exec (.safWeldTest m) s = .next t ∧ Only [.lau, .sess, .slu, .mlk, .safX, .arb, .mbx, .hic, .qmg, .cwy, .cwyX, .btn, .dmp, .rpl] s t ∧
        Answered s t m 0x0907 ([]) ∧
        t.block.safX = s.block.safX ∧
        t.block.mlk = s.block.mlk) ∧
  (∀ (s : State) (m : Fin 4),
      Asked s m 0x0905 .dyke →
      (nodeCheck 0x0901 s.block m).2 = true →
      ∃ t, exec (.safGetNode m) s = .next t ∧ Only [.mbx, .rpl] s t ∧
        Answered s t m 0 (b32s [nodeStatWord s.block (reqNode s.block m), (nodeOf s.block (reqNode s.block m)).ovThr.setWidth 32] ++ b64 (nodeOf s.block (reqNode s.block m)).lastOpen ++ [BitVec.ofNat 8 (b2n (nodeOf s.block (reqNode s.block m)).underLoad)])) ∧
  (∀ (s : State) (m : Fin 4),
      Asked s m 0x0906 .dyke →
      ∃ t, exec (.safGetFaults m) s = .next t ∧ Only [.mbx, .rpl] s t ∧
        Answered s t m 0 (padTo 128 (s.block.saf.records.flatMap faultBytes))) ∧
  (∀ (s : State) (m : Fin 4),
      Asked s m 0x0907 .dyke →
      ∃ t, exec (.safClearCounts m) s = .next t ∧ Only [.safX, .mbx, .rpl] s t ∧
        Answered s t m 0 ([]) ∧
        t.block.safX = { s.block.safX with loadOpenCnt := 0, tpFaultCnt := 0, rejected := 0 })

/-- Under the conditions of its clause each command answers a next state, the queue stays, only the units listed there change, and what follows holds. SWITCH_MEASURE, outside replay, with Tide at the next 100 us of the channel or coil: the reading, its current kept within 12 bits, is taken in. SWITCH_OVERTEMP of a channel not over temperature: it is, latched when that is enabled or was, acted now, a trip is counted and source 321 raised; of a coil not latched: it is latched, with source 321 and the protection of a coil; of one that is already, nothing changes. SWITCH_THERMAL_RESTART: a latched channel only loses its over-temperature; one with fewer than 8 restarts in 10 s may drive again, counted when it does; with 8 it latches and stays as it was. VIN_SYS_RANGE notes the voltage; out of 800 to 3,800 while in range, or back within 850 to 3,750, it changes the range, raises source 332 and drives every channel, and the coils conduct or not as said; else nothing else of the unit changes. COIL_PULL_END after t_pull: the coil is in hold from now and does not conduct. COIL_RCOIL_LEARN 200 ms into hold, not learned: learned, the resistance taken when within 20 to 1,000. PACKAGE_CURRENT_CHECK at the next ms: sum, window, mean, warning, shedding and its run as the limits 11,000 and 12,000 say, source 327 at a new warning, and no channel changed below 11,000. LIMP_INPUT sets that input alone. BACKUP_CHANGEOVER that keeps all, or loses a map not in force: only the supply in use changes; that keeps nothing, or loses a map in force: the map is cleared, no channel is in limp and source 331 raised. The constructors of Instr whose completion it states: switchMeasure, switchOvertemp, switchThermalRestart, vinSysRange, coilPullEnd, coilRcoilLearn, packageCurrentCheck, limpInput, backupChangeover. -/
def Obligations.SwitchInstants : Prop :=
  (∀ (s : State) (c : Fin 40) (x : SwitchReading),
      s.block.rpl.mode = false →
      nextMultiple 150000 (some (hsOf s.block c).measAt) s.block = (now s.block).toNat →
      ∃ t, exec (.switchMeasure (.hs c) x) s = .next t ∧ Only [.tide, .lau, .sess, .mlk, .veh, .plc, .plcCfg, .imd, .imdG, .saf, .safX, .lsw, .pea, .arb, .slt, .legal, .bri, .key, .hic, .qmg, .cwy, .cwyX, .btn, .dmp, .rpl, .prior] s t ∧
        t.block = safetyItem s.block (hsMeasure c (inRange x) s.block)) ∧
  (∀ (s : State) (n : Fin 16) (x : SwitchReading),
      s.block.rpl.mode = false →
      nextMultiple 150000 (some (lsOf s.block n).measAt) s.block = (now s.block).toNat →
      ∃ t, exec (.switchMeasure (.ls n) x) s = .next t ∧ Only [.tide, .lau, .sess, .mlk, .veh, .plc, .plcCfg, .imd, .imdG, .saf, .safX, .lsw, .pea, .arb, .slt, .legal, .bri, .key, .hic, .qmg, .cwy, .cwyX, .btn, .dmp, .rpl, .prior] s t ∧
        t.block = safetyItem s.block (lsMeasure n (inRange x) s.block)) ∧
  (∀ (s : State) (c : Fin 40),
      s.block.rpl.mode = false →
      (hsOf s.block c).ot = false →
      ∃ t, exec (.switchOvertemp (.hs c)) s = .next t ∧ Only [.lau, .sess, .mlk, .veh, .plc, .plcCfg, .imd, .imdG, .saf, .safX, .lsw, .pea, .arb, .slt, .legal, .bri, .key, .hic, .qmg, .cwy, .cwyX, .btn, .dmp, .rpl] s t ∧
        (hsOf t.block c).ot = true ∧
        (hsOf t.block c).otLatched = ((hsOf s.block c).otLatched || (hsOf s.block c).otLatchEn) ∧
        (hsOf t.block c).lastAct = now s.block ∧
        t.block.lsw.tripCnt = satInc s.block.lsw.tripCnt ∧
        Raised t.block 321) ∧
  (∀ (s : State) (c : Fin 40),
      s.block.rpl.mode = false →
      (hsOf s.block c).ot = true →
      ∃ t, exec (.switchOvertemp (.hs c)) s = .next t ∧ Only [.lau, .sess, .mlk, .veh, .plc, .plcCfg, .imd, .imdG, .saf, .safX, .lsw, .pea, .arb, .slt, .legal, .bri, .key, .hic, .qmg, .cwy, .cwyX, .btn, .dmp, .rpl] s t ∧
        t.block.lsw = s.block.lsw ∧
        t.block.hic = s.block.hic) ∧
  (∀ (s : State) (n : Fin 16),
      s.block.rpl.mode = false →
      (lsOf s.block n).otLatch = false →
      ∃ t, exec (.switchOvertemp (.ls n)) s = .next t ∧ Only [.lau, .sess, .mlk, .veh, .plc, .plcCfg, .imd, .imdG, .saf, .safX, .lsw, .pea, .arb, .slt, .legal, .bri, .key, .hic, .qmg, .cwy, .cwyX, .btn, .dmp, .rpl] s t ∧
        (t.block = safetyItem s.block (lsProtect n (fun x => { x with otLatch := true }) (irq 321 s.block)))) ∧
  (∀ (s : State) (n : Fin 16),
      s.block.rpl.mode = false →
      (lsOf s.block n).otLatch = true →
      ∃ t, exec (.switchOvertemp (.ls n)) s = .next t ∧ Only [.lau, .sess, .mlk, .veh, .plc, .plcCfg, .imd, .imdG, .saf, .safX, .lsw, .pea, .arb, .slt, .legal, .bri, .key, .hic, .qmg, .cwy, .cwyX, .btn, .dmp, .rpl] s t ∧
        t.block = safetyItem s.block (s.block)) ∧
  (∀ (s : State) (c : Fin 40),
      (hsOf s.block c).ot = false →
      ∃ t, exec (.switchThermalRestart c) s = .next t ∧ Only [.saf, .lsw, .hic, .rpl] s t ∧
        t.block = safetyItem s.block (s.block)) ∧
  (∀ (s : State) (c : Fin 40),
      (hsOf s.block c).ot = true →
      (hsOf s.block c).otLatched = true →
      ∃ t, exec (.switchThermalRestart c) s = .next t ∧ Only [.saf, .lsw, .hic, .rpl] s t ∧
        (t.block.lsw = { s.block.lsw with hs := vupd s.block.lsw.hs c fun x => { x with ot := false } })) ∧
  (∀ (s : State) (c : Fin 40),
      (hsOf s.block c).ot = true →
      (hsOf s.block c).otLatched = false →
      (((hsOf s.block c).restarts.filter fun i => !passed s.block i (10 * tSec)).length < 8) →
      ∃ t, exec (.switchThermalRestart c) s = .next t ∧ Only [.saf, .lsw, .hic, .rpl] s t ∧
        (hsOf t.block c).ot = false ∧
        ((hsOf t.block c).restarts = if (hsOf t.block c).outOn then now s.block :: ((hsOf s.block c).restarts.filter fun i => !passed s.block i (10 * tSec)) else (hsOf s.block c).restarts.filter fun i => !passed s.block i (10 * tSec))) ∧
  (∀ (s : State) (c : Fin 40),
      (hsOf s.block c).ot = true →
      (hsOf s.block c).otLatched = false →
      (8 ≤ ((hsOf s.block c).restarts.filter fun i => !passed s.block i (10 * tSec)).length) →
      ∃ t, exec (.switchThermalRestart c) s = .next t ∧ Only [.saf, .lsw, .hic, .rpl] s t ∧
        (hsOf t.block c).ot = false ∧
        (hsOf t.block c).otLatched = true ∧
        (hsOf t.block c).outOn = (hsOf s.block c).outOn) ∧
  (∀ (s : State) (v : U16),
      s.block.rpl.mode = false →
      (v.toNat < 800 ∨ 3800 < v.toNat) →
      s.block.lsw.vinOk = true →
      ∃ t, exec (.vinSysRange v) s = .next t ∧ Only [.saf, .lsw, .hic, .rpl] s t ∧
        (t.block = safetyItem s.block (forAll allNodes (fun n => updLs n fun x => { x with conducting := false }) (driveAll (irq 332 (updLsw (fun w => { w with vinOk := false }) (updLsw (fun w => { w with vin := v }) s.block)))))) ∧
        t.block.lsw.vin = v ∧
        t.block.lsw.vinOk = false ∧
        Raised t.block 332) ∧
  (∀ (s : State) (v : U16),
      s.block.rpl.mode = false →
      850 ≤ v.toNat →
      v.toNat ≤ 3750 →
      s.block.lsw.vinOk = false →
      ∃ t, exec (.vinSysRange v) s = .next t ∧ Only [.saf, .lsw, .hic, .rpl] s t ∧
        (t.block = safetyItem s.block (forAll allNodes (fun n b => coilStart n (updLs n (fun x => { x with conducting := x.conducting || x.econ == 1 }) b)) (driveAll (irq 332 (updLsw (fun w => { w with vinOk := true }) (updLsw (fun w => { w with vin := v }) s.block)))))) ∧
        t.block.lsw.vin = v ∧
        t.block.lsw.vinOk = true ∧
        Raised t.block 332) ∧
  (∀ (s : State) (v : U16),
      s.block.rpl.mode = false →
      ((800 ≤ v.toNat ∧ v.toNat < 850) ∨ (3750 < v.toNat ∧ v.toNat ≤ 3800) ∨ (850 ≤ v.toNat ∧ v.toNat ≤ 3750 ∧ s.block.lsw.vinOk = true) ∨ ((v.toNat < 800 ∨ 3800 < v.toNat) ∧ s.block.lsw.vinOk = false)) →
      ∃ t, exec (.vinSysRange v) s = .next t ∧ Only [.saf, .lsw, .hic, .rpl] s t ∧
        t.block.lsw = { s.block.lsw with vin := v } ∧
        t.block.hic = s.block.hic) ∧
  (∀ (s : State) (n : Fin 16),
      (lsOf s.block n).econ = 1 →
      (lsOf s.block n).turnOn.toNat + (lsOf s.block n).tPull.toNat * tMs ≤ (now s.block).toNat →
      ∃ t, exec (.coilPullEnd n) s = .next t ∧ Only [.tide, .saf, .lsw, .hic, .rpl, .prior] s t ∧
        (lsOf t.block n).econ = 2 ∧
        (lsOf t.block n).conducting = false ∧
        (lsOf t.block n).holdAt = now s.block ∧
        (lsOf t.block n).fullRun = 0) ∧
  (∀ (s : State) (n : Fin 16),
      (lsOf s.block n).econ ≠ 1 →
      ∃ t, exec (.coilPullEnd n) s = .next t ∧ Only [.tide, .saf, .lsw, .hic, .rpl, .prior] s t ∧
        t.block.lsw = s.block.lsw ∧
        t.block.saf = s.block.saf) ∧
  (∀ (s : State) (n : Fin 16) (x : SwitchReading),
      (lsOf s.block n).econ = 2 →
      (lsOf s.block n).learned = false →
      (lsOf s.block n).holdAt.toNat + 200 * tMs ≤ (now s.block).toNat →
      ∃ t, exec (.coilRcoilLearn n x) s = .next t ∧ Only [.tide, .lsw, .rpl, .prior] s t ∧
        (t.block.lsw = { s.block.lsw with ls := vupd s.block.lsw.ls n fun l => learnRCoil (lastSample (inRange x) s.block l) })) ∧
  (∀ (s : State) (n : Fin 16) (x : SwitchReading),
      ((lsOf s.block n).econ ≠ 2 ∨ (lsOf s.block n).learned = true) →
      ∃ t, exec (.coilRcoilLearn n x) s = .next t ∧ Only [.tide, .lsw, .rpl, .prior] s t ∧
        t.block = safetyItem s.block (s.block)) ∧
  (∀ (s : State) (x y : Nat),
      nextMultiple tMs s.block.lsw.pkgAt s.block = (now s.block).toNat →
      x = (s.block.lsw.hs.toList.map (·.current.toNat)).sum →
      y = ((x :: s.block.lsw.window).take 1000).sum / 1000 →
      ∃ t, exec .packageCurrentCheck s = .next t ∧ Only [.tide, .saf, .lsw, .hic, .rpl, .prior] s t ∧
        t.block.lsw.sum = satNat 16 x ∧
        t.block.lsw.mean = satNat 16 y ∧
        t.block.lsw.window = (x :: s.block.lsw.window).take 1000 ∧
        t.block.lsw.pkgWarn = decide (11000 < y) ∧
        t.block.lsw.shedding = decide (12000 < y) ∧
        (t.block.lsw.shedRun = if 12000 < y then true else if y < 11000 then false else s.block.lsw.shedRun) ∧
        t.block.lsw.pkgAt = some (now s.block) ∧
        (y < 11000 → t.block.lsw.hs = s.block.lsw.hs) ∧
        ((11000 < y ∧ s.block.lsw.pkgWarn = false) → Raised t.block 327)) ∧
  (∀ (s : State) (j : Fin 8) (on : Bool),
      s.block.rpl.mode = false →
      ∃ t, exec (.limpInput j on) s = .next t ∧ Only [.saf, .lsw, .hic, .rpl] s t ∧
        t.block.lsw.limpInputs.getLsbD j.val = on ∧
        (∀ k : Fin 8, k ≠ j → t.block.lsw.limpInputs.getLsbD k.val = s.block.lsw.limpInputs.getLsbD k.val)) ∧
  (∀ (s : State) (vbat : Bool) (kept : BackupKept),
      s.block.rpl.mode = false →
      (kept = .all ∨ (kept = .noMap ∧ s.block.lsw.limpValid = false)) →
      ∃ t, exec (.backupChangeover vbat kept) s = .next t ∧ Only [.saf, .lsw, .backup, .hic, .rpl] s t ∧
        t.block.backup = { s.block.backup with onVbat := vbat } ∧
        t.block.lsw = s.block.lsw) ∧
  (∀ (s : State) (vbat : Bool) (kept : BackupKept),
      s.block.rpl.mode = false →
      (kept = .none ∨ (kept = .noMap ∧ s.block.lsw.limpValid = true)) →
      ∃ t, exec (.backupChangeover vbat kept) s = .next t ∧ Only [.saf, .lsw, .backup, .hic, .rpl] s t ∧
        (t.block.backup = if kept = .none then { onVbat := vbat } else { s.block.backup with onVbat := vbat }) ∧
        t.block.lsw.limpValid = false ∧
        t.block.lsw.limpMap = Vector.replicate 40 0 ∧
        (∀ c, (hsOf t.block c).limp = false) ∧
        Raised t.block 331)

/-- Under the conditions of its clause each command answers a next state, the queue stays, only the units listed there change, and what follows holds. Each command executes a request of its opcode while the core it needs runs: Dyke for LSW_SET_COIL, else Sedge. LSW_SET_CHANNEL in range of a channel that is off, not mapped, and neither a lock channel made a supply nor a supply channel made something else: its modes, and it is answered; channel 40 or above answers 0x0A01. LSW_SWITCH of a channel that may be switched, with a duty only in the mode for it: the duty entry first when there is one, then the switching entry, on ring 130 from the first instant free of its slot 96 ticks ahead, and the response waits for it; an action above 1 answers 0x0A02 and enqueues nothing. LSW_GET_CHANNEL and LSW_GET_COIL return words. LSW_CLEAR_FAULT: the short flags are cleared, a channel that had one, or a tie, is commanded off, and no channel outside the tie changes; while the short persists it answers 0x0A05. LSW_SET_COIL within its limits, no supply named, both coils of the pair quiet, sets that coil. LSW_SET_LIMP whose channels are no supply or lock and draw at most 12,000 together: the map stands with its CRC. LSW_LIMP_RELEASE: no channel named is in limp, and those released are answered. LSW_CLEAR_COUNTS sets two counts to 0 and changes nothing else of the unit. The constructors of Instr whose completion it states: lswSetChannel, lswSwitch, lswGetChannel, lswClearFault, lswSetCoil, lswGetCoil, lswSetLimp, lswLimpRelease, lswClearCounts. -/
def Obligations.SwitchCommands : Prop :=
  (∀ (s : State) (m : Fin 4),
      Asked s m 0x0A01 .sedge →
      (rB s.block m 0).toNat < 40 →
      fieldOf (rN s.block m 4 4) 0 2 ≤ 2 →
      fieldOf (rN s.block m 4 4) 11 21 = 0 →
      (hsOf s.block (reqHs s.block m)).outOn = false →
      mapped s.block (reqHs s.block m) = false →
      ((if fieldOf (rN s.block m 4 4) 0 2 = 2 then isLockChan s.block (reqHs s.block m).val else isSupplyChan s.block (reqHs s.block m).val) = false) →
      ∃ t, exec (.lswSetChannel m) s = .next t ∧ Only [.lsw, .pea, .arb, .mbx, .hic, .btn, .rpl] s t ∧
        Answered s t m 0 ([]) ∧
        (hsOf t.block (reqHs s.block m)) = { (hsOf s.block (reqHs s.block m)) with mode := BitVec.ofNat 2 (fieldOf (rN s.block m 4 4) 0 2), curve := BitVec.ofNat 3 (fieldOf (rN s.block m 4 4) 2 3), slew := BitVec.ofNat 2 (fieldOf (rN s.block m 4 4) 5 2), otLatchEn := bitOf (rN s.block m 4 4) 7, openEn := bitOf (rN s.block m 4 4) 8, shedPrio := BitVec.ofNat 2 (fieldOf (rN s.block m 4 4) 9 2) }) ∧
  (∀ (s : State) (m : Fin 4),
      Asked s m 0x0A01 .sedge →
      40 ≤ (rB s.block m 0).toNat →
      ∃ t, exec (.lswSetChannel m) s = .next t ∧ Only [.lsw, .pea, .arb, .mbx, .hic, .btn, .rpl] s t ∧
        Answered s t m 0x0A01 ([]) ∧
        t.block.lsw = s.block.lsw) ∧
  (∀ (s : State) (m : Fin 4),
      Asked s m 0x0A02 .sedge →
      (rB s.block m 0).toNat < 40 →
      (rB s.block m 1).toNat ≤ 1 →
      (rN s.block m 2 2 = 0xFFFF ∨ (rN s.block m 2 2 ≤ 1000 ∧ (hsOf s.block (reqHs s.block m)).mode = 1)) →
      (hsOf s.block (reqHs s.block m)).mode ≠ 2 →
      lockInUse s.block (reqHs s.block m) = false →
      underTest s.block (reqHs s.block m) = false →
      ∃ t, exec (.lswSwitch m) s = .next t ∧ Only [.lau, .pea, .arb, .mbx, .hic, .qmg, .cwy, .cwyX, .btn, .dmp, .rpl] s t ∧
        (t.block = safetyItem s.block (let t := ringFree s.block 130 tgSwitch (reqHs s.block m).val (ahead s.block 96); let d := rN s.block m 2 2; let e := fun (a : U8) (l : List U8) (t : U64) (g : U32) (k : U8) => { mkEntry tgSwitch (reqHs s.block m).val a l t with tag := g, flags := k }; let r := if d = 0xFFFF then (s.block, true) else submitEntry agSedge 130 (e 3 (leBytes 2 d ++ zeros 30) t 0 0) s.block; let r := if r.2 then submitEntry agSedge 130 (e (if (rB s.block m 1).toNat = 1 then 1 else 2) (zeros 32) (if d = 0xFFFF then t else t + 1) (BitVec.ofNat 32 (1 + m.val)) 4) r.1 else r; if r.2 then r.1 else internalFail m r.1))) ∧
  (∀ (s : State) (m : Fin 4),
      Asked s m 0x0A02 .sedge →
      (rB s.block m 0).toNat < 40 →
      1 < (rB s.block m 1).toNat →
      ∃ t, exec (.lswSwitch m) s = .next t ∧ Only [.lau, .pea, .arb, .mbx, .hic, .qmg, .cwy, .cwyX, .btn, .dmp, .rpl] s t ∧
        Answered s t m 0x0A02 ([]) ∧
        t.block.lsw = s.block.lsw ∧
        t.block.qmg = s.block.qmg) ∧
  (∀ (s : State) (m : Fin 4),
      Asked s m 0x0A03 .sedge →
      (rB s.block m 0).toNat < 40 →
      ∃ t, exec (.lswGetChannel m) s = .next t ∧ Only [.mbx, .rpl] s t ∧
        Answered s t m 0 (b32s [hsCfgWord (hsOf s.block (reqHs s.block m)), hsStatWord s.block (hsOf s.block (reqHs s.block m)), hsMeasWord (hsOf s.block (reqHs s.block m))] ++ leBytes 2 (min 65535 ((hsOf s.block (reqHs s.block m)).heat * 1000 / heatFull)) ++ zeros 2 ++ b64 (hsOf s.block (reqHs s.block m)).lastAct)) ∧
  (∀ (s : State) (m : Fin 4),
      Asked s m 0x0A04 .sedge →
      (rB s.block m 0).toNat < 40 →
      (hsOf s.block (reqHs s.block m)).tied = false →
      ((hsOf s.block (reqHs s.block m)).shortVin = false ∨ ((hsOf s.block (reqHs s.block m)).outOn = false ∧ 10 * (hsOf s.block (reqHs s.block m)).voltage.toNat < 2 * s.block.lsw.vin.toNat)) →
      ∃ t, exec (.lswClearFault m) s = .next t ∧ Only [.lsw, .mbx, .rpl] s t ∧
        (hsOf t.block (reqHs s.block m)).shortGnd = false ∧
        (hsOf t.block (reqHs s.block m)).shortVin = false ∧
        (hsOf t.block (reqHs s.block m)).cmdOn = ((hsOf s.block (reqHs s.block m)).cmdOn && !((hsOf s.block (reqHs s.block m)).shortGnd || (hsOf s.block (reqHs s.block m)).shortVin)) ∧
        (∀ d, d ≠ reqHs s.block m → hsOf t.block d = hsOf s.block d)) ∧
  (∀ (s : State) (m : Fin 4),
      Asked s m 0x0A04 .sedge →
      (rB s.block m 0).toNat < 40 →
      (hsOf s.block (reqHs s.block m)).tied = true →
      ((hsOf s.block (reqHs s.block m)).shortVin = false ∨ ((hsOf s.block (reqHs s.block m)).outOn = false ∧ 10 * (hsOf s.block (reqHs s.block m)).voltage.toNat < 2 * s.block.lsw.vin.toNat)) →
      ∃ t, exec (.lswClearFault m) s = .next t ∧ Only [.lsw, .mbx, .rpl] s t ∧
        (hsOf t.block (reqHs s.block m)).shortGnd = false ∧
        (hsOf t.block (reqHs s.block m)).shortVin = false ∧
        (hsOf t.block (reqHs s.block m)).cmdOn = false ∧
        (∀ d, d ≠ reqHs s.block m → d ∉ tiedWith s.block (reqHs s.block m) → hsOf t.block d = hsOf s.block d)) ∧
  (∀ (s : State) (m : Fin 4),
      Asked s m 0x0A04 .sedge →
      (rB s.block m 0).toNat < 40 →
      (hsOf s.block (reqHs s.block m)).shortVin = true →
      (hsOf s.block (reqHs s.block m)).outOn = true →
      ∃ t, exec (.lswClearFault m) s = .next t ∧ Only [.lsw, .mbx, .rpl] s t ∧
        Answered s t m 0x0A05 ([]) ∧
        t.block.lsw = s.block.lsw) ∧
  (∀ (s : State) (m : Fin 4),
      Asked s m 0x0A05 .dyke →
      (nodeCheck 0x0A01 s.block m).2 = true →
      20 ≤ fieldOf (rN s.block m 4 4) 0 8 →
      fieldOf (rN s.block m 4 4) 0 8 ≤ 250 →
      20 ≤ fieldOf (rN s.block m 4 4) 8 8 →
      fieldOf (rN s.block m 4 4) 8 8 ≤ fieldOf (rN s.block m 4 4) 0 8 →
      5 ≤ fieldOf (rN s.block m 4 4) 16 8 →
      fieldOf (rN s.block m 4 4) 16 8 ≤ 80 →
      fieldOf (rN s.block m 4 4) 16 8 < fieldOf (rN s.block m 4 4) 8 8 →
      3 ≤ fieldOf (rN s.block m 4 4) 24 8 →
      fieldOf (rN s.block m 4 4) 24 8 + 5 ≤ fieldOf (rN s.block m 4 4) 16 8 →
      20 ≤ fieldOf (rN s.block m 8 4) 0 7 →
      fieldOf (rN s.block m 8 4) 0 7 ≤ 80 →
      20 ≤ fieldOf (rN s.block m 8 4) 16 16 →
      fieldOf (rN s.block m 8 4) 16 16 ≤ 1000 →
      fieldOf (rN s.block m 8 4) 8 6 = 0x3F →
      fieldOf (rN s.block m 8 4) 7 1 = 0 →
      fieldOf (rN s.block m 8 4) 14 2 = 0 →
      quiet s.block (reqNode s.block m) = true →
      quiet s.block (otherNode (reqNode s.block m)) = true →
      ∃ t, exec (.lswSetCoil m) s = .next t ∧ Only [.lsw, .pea, .arb, .mbx, .hic, .btn, .rpl] s t ∧
        Answered s t m 0 ([]) ∧
        lsOf t.block (reqNode s.block m) = { lsOf s.block (reqNode s.block m) with iPull := BitVec.ofNat 8 (fieldOf (rN s.block m 4 4) 0 8), iPin := BitVec.ofNat 8 (fieldOf (rN s.block m 4 4) 8 8), iHold := BitVec.ofNat 8 (fieldOf (rN s.block m 4 4) 16 8), iDrop := BitVec.ofNat 8 (fieldOf (rN s.block m 4 4) 24 8), tPull := BitVec.ofNat 7 (fieldOf (rN s.block m 8 4) 0 7), supply := 0x3F, rCoil := BitVec.ofNat 16 (fieldOf (rN s.block m 8 4) 16 16) }) ∧
  (∀ (s : State) (m : Fin 4),
      Asked s m 0x0A06 .sedge →
      (nodeCheck 0x0A01 s.block m).2 = true →
      ∃ t, exec (.lswGetCoil m) s = .next t ∧ Only [.mbx, .rpl] s t ∧
        Answered s t m 0 (b32s [lsStatWord s.block (reqNode s.block m), lsMeasWord (lsOf s.block (reqNode s.block m)), coilWord (lsOf s.block (reqNode s.block m)), coilTWord (lsOf s.block (reqNode s.block m))] ++ b64 (lsOf s.block (reqNode s.block m)).lastClosed)) ∧
  (∀ (s : State) (m : Fin 4),
      Asked s m 0x0A07 .sedge →
      (∀ c : Fin 40, (BitVec.ofNat 4 (fieldOf (rB s.block m (c.val / 2)).toNat (4 * (c.val % 2)) 4)).getLsbD 3 = true → (hsOf s.block c).mode ≠ 2 ∧ isLockChan s.block c.val = false) →
      (((allHs.filter fun c => (BitVec.ofNat 4 (fieldOf (rB s.block m (c.val / 2)).toNat (4 * (c.val % 2)) 4)).getLsbD 3).map fun c => curveIn (hsOf s.block c).curveNow).sum ≤ 12000) →
      ∃ t, exec (.lswSetLimp m) s = .next t ∧ Only [.saf, .lsw, .pea, .arb, .mbx, .hic, .btn, .rpl] s t ∧
        t.block.lsw.limpValid = true ∧
        (∀ c, vget t.block.lsw.limpMap c = BitVec.ofNat 4 (fieldOf (rB s.block m (c.val / 2)).toNat (4 * (c.val % 2)) 4)) ∧
        t.block.lsw.limpCrc = crc32c (limpBytes t.block.lsw)) ∧
  (∀ (s : State) (m : Fin 4),
      Asked s m 0x0A08 .sedge →
      ∃ t, exec (.lswLimpRelease m) s = .next t ∧ Only [.saf, .lsw, .mbx, .hic, .rpl] s t ∧
        (Answered s t m 0 (leBytes 5 (bitsNat (allHs.map fun c => bitOf (rN s.block m 0 5) c.val && (hsOf s.block c).limp)))) ∧
        (∀ c, bitOf (rN s.block m 0 5) c.val = true → (hsOf t.block c).limp = false)) ∧
  (∀ (s : State) (m : Fin 4),
      Asked s m 0x0A09 .sedge →
      ∃ t, exec (.lswClearCounts m) s = .next t ∧ Only [.lsw, .mbx, .rpl] s t ∧
        Answered s t m 0 ([]) ∧
        t.block.lsw = { s.block.lsw with tripCnt := 0, shedCnt := 0 })

/-- ARBITER_DECISION in a state with no sealed shutdown pending and no winner waiting answers a next state with the queue kept: where some present requester is forced, the forced one of lowest number, and where none is forced, the present one of lowest number, owns the grant when the port is free, and is the waiting winner, the owner staying, when a line is in progress. The constructors of Instr whose completion it states: arbiterDecision. -/
def Obligations.ArbiterWinner : Prop :=
  (∀ (s : State) (w : Fin 6),
      s.block.rst.pending = none →
      s.block.arb.win = none →
      w ∈ present s.block →
      (reqOf s.block w).forced = true →
      (∀ r ∈ present s.block, (reqOf s.block r).forced = true → w ≤ r) →
      ∃ t, exec .arbiterDecision s = .next t ∧ Only [.pea, .arb, .bri, .hic, .rst, .rpl] s t ∧
        (if s.block.arb.cur = none then t.block.arb.cur = some w ∧ t.block.arb.win = none else t.block.arb.win = some w ∧ t.block.arb.cur = s.block.arb.cur)) ∧
  (∀ (s : State) (w : Fin 6),
      s.block.rst.pending = none →
      s.block.arb.win = none →
      w ∈ present s.block →
      (∀ r ∈ present s.block, (reqOf s.block r).forced = false) →
      (∀ r ∈ present s.block, w ≤ r) →
      ∃ t, exec .arbiterDecision s = .next t ∧ Only [.pea, .arb, .bri, .hic, .rst, .rpl] s t ∧
        (if s.block.arb.cur = none then t.block.arb.cur = some w ∧ t.block.arb.win = none else t.block.arb.win = some w ∧ t.block.arb.cur = s.block.arb.cur))

/-- Under the conditions of its clause each command answers a next state, the queue stays, only the units listed there change, and what follows holds. PEAT_WRITE_REQUEST of 1 to 16 lines that its requester may write is queued, the others stay; with no line, more than 16, or a line it may not write it is rejected, counted, source 390; a masked requester queues nothing. LINE_WRITE_DONE, outside replay: with the feeder halted the store stays; else the line, its checks and what waited for them, and with nothing in progress or waiting the store stays. BACKOFF_END ends one back-off. REQUEST_WITHDRAW by the waiting winner: no winner waits, its request is gone and counted; by the owner in the last line of its request, begun, nothing; by others the withdrawal. REQUESTER_MASK on: masked, its requests gone; of the owner also a revocation and source 391; off: unmasked. HOLD_WATCHDOG: the winner waiting takes the port, the owner has one more revocation, source 391; with no owner nothing. GAP_MOVE after 16 writes or a second: the gap one line down, lines as they were; before, with Tide stopped, nothing. COUNTER_INCREMENT by its owner below its end is queued; by others rejected with source 390; masked, nothing; at its end the exhausted action. DELTA_EPOCH at its instant; while Carr is down, the store not ready or in a power fail, nothing. The constructors of Instr whose completion it states: peatWriteRequest, lineWriteDone, backoffEnd, requestWithdraw, requesterMask, holdWatchdog, gapMove, counterIncrement, deltaEpoch. -/
def Obligations.StoreInstants : Prop :=
  (∀ (s : State) (r : Fin 6) (q : PeatWrite),
      (reqOf s.block r).masked = false →
      1 ≤ q.lines.length →
      q.lines.length ≤ 16 →
      (∀ i, i < q.lines.length → lineOpen s.block r (q.first + i) = true) →
      ∃ t, exec (.peatWriteRequest r q) s = .next t ∧ Only [.pea, .arb, .hic, .rpl] s t ∧
        reqOf t.block r = { reqOf s.block r with queue := (reqOf s.block r).queue ++ [{ first := q.first, content := q.lines.map (padTo 64), act := .lines }], rejected := false } ∧
        (∀ k, k ≠ r → reqOf t.block k = reqOf s.block k) ∧
        t.block.pea = s.block.pea) ∧
  (∀ (s : State) (r : Fin 6) (q : PeatWrite),
      (reqOf s.block r).masked = false →
      (q.lines.length = 0 ∨ 16 < q.lines.length ∨ ∃ i, i < q.lines.length ∧ lineOpen s.block r (q.first + i) = false) →
      ∃ t, exec (.peatWriteRequest r q) s = .next t ∧ Only [.pea, .arb, .hic, .rpl] s t ∧
        reqOf t.block r = { reqOf s.block r with rejected := true } ∧
        t.block.pea = { s.block.pea with rejectCnt := satInc s.block.pea.rejectCnt } ∧
        Raised t.block 390) ∧
  (∀ (s : State) (r : Fin 6) (q : PeatWrite),
      (reqOf s.block r).masked = true →
      ∃ t, exec (.peatWriteRequest r q) s = .next t ∧ Only [.pea, .arb, .hic, .rpl] s t ∧
        t.block.arb = s.block.arb ∧
        t.block.pea = s.block.pea) ∧
  (∀ (s : State) (x : LineCheck),
      s.block.rpl.mode = false →
      feederHalted s.block = true →
      ∃ t, exec (.lineWriteDone x) s = .next t ∧ Only (Part.but [.tide, .snaps, .barrier, .fab, .d2d, .cross, .met, .acc, .pq, .slu, .sluCnt, .mlk, .vehCfg, .v2g, .v2gCfg, .rcm, .rcmTest, .auth, .hp, .pnl, .frames, .nfc, .kept, .prior]) s t ∧
        t.block.arb = s.block.arb ∧
        t.block.pea = s.block.pea) ∧
  (∀ (s : State) (x : LineCheck),
      s.block.rpl.mode = false →
      feederHalted s.block = false →
      ∃ t, exec (.lineWriteDone x) s = .next t ∧ Only (Part.but [.tide, .snaps, .barrier, .fab, .d2d, .cross, .met, .acc, .pq, .slu, .sluCnt, .mlk, .vehCfg, .v2g, .v2gCfg, .rcm, .rcmTest, .auth, .hp, .pnl, .frames, .nfc, .kept, .prior]) s t ∧
        t.block = safetyItem s.block (grantStep (clearStep (lineWriteDone x s.block)))) ∧
  (∀ (s : State) (x : LineCheck),
      s.block.rpl.mode = false →
      feederHalted s.block = false →
      s.block.arb.cur = none →
      s.block.upd.commit = none →
      s.block.upd.pause = none →
      s.block.btn.clearMbx = none →
      s.block.dbg.granting = none →
      ∃ t, exec (.lineWriteDone x) s = .next t ∧ Only (Part.but [.tide, .snaps, .barrier, .fab, .d2d, .cross, .met, .acc, .pq, .slu, .sluCnt, .mlk, .vehCfg, .v2g, .v2gCfg, .rcm, .rcmTest, .auth, .hp, .pnl, .frames, .nfc, .kept, .prior]) s t ∧
        t.block.pea = s.block.pea ∧
        t.block.arb = s.block.arb) ∧
  (∀ (s : State) (r : Fin 6),
      ∃ t, exec (.backoffEnd r) s = .next t ∧ Only [.arb, .rpl] s t ∧
        (t.block.arb = { s.block.arb with reqs := vupd s.block.arb.reqs r fun x => { x with backingOff := false } })) ∧
  (∀ (s : State) (r : Fin 6),
      (reqOf s.block r).queue ≠ [] →
      s.block.arb.win = some r →
      s.block.arb.cur ≠ some r →
      ∃ t, exec (.requestWithdraw r) s = .next t ∧ Only [.arb, .btn, .rpl] s t ∧
        t.block.arb.win = none ∧
        (reqOf t.block r).queue = (reqOf s.block r).queue.tail ∧
        (reqOf t.block r).withdrawals = satAdd (reqOf s.block r).withdrawals 1 ∧
        (reqOf t.block r).losses = 0 ∧
        (reqOf t.block r).forced = false) ∧
  (∀ (s : State) (r : Fin 6),
      (reqOf s.block r).queue = [] →
      ∃ t, exec (.requestWithdraw r) s = .next t ∧ Only [.arb, .btn, .rpl] s t ∧
        t.block.arb = s.block.arb) ∧
  (∀ (s : State) (r : Fin 6),
      (reqOf s.block r).queue ≠ [] →
      s.block.arb.win ≠ some r →
      ∃ t, exec (.requestWithdraw r) s = .next t ∧ Only [.arb, .btn, .rpl] s t ∧
        t.block = safetyItem s.block (requestWithdraw r s.block)) ∧
  (∀ (s : State) (r : Fin 6),
      (reqOf s.block r).queue.length = 1 →
      s.block.arb.win ≠ some r →
      s.block.arb.cur = some r →
      s.block.arb.fresh = none →
      ∃ t, exec (.requestWithdraw r) s = .next t ∧ Only [.arb, .btn, .rpl] s t ∧
        t.block.arb = s.block.arb) ∧
  (∀ (s : State) (r : Fin 6) (on : Bool),
      on = true →
      s.block.arb.cur = none →
      s.block.arb.win = none →
      r ≠ rqBittern →
      s.block.arb.frozen = false →
      ∃ t, exec (.requesterMask r on) s = .next t ∧ Only [.lau, .sess, .veh, .plc, .plcCfg, .imd, .imdG, .saf, .safX, .lsw, .pea, .arb, .slt, .legal, .bri, .key, .mbx, .hic, .qmg, .cwy, .cwyX, .btn, .dmp, .rpl] s t ∧
        (reqOf t.block r).masked = true ∧
        (reqOf t.block r).queue = [] ∧
        (reqOf t.block r).losses = 0 ∧
        (reqOf t.block r).backingOff = false ∧
        (t.block.arb.park = if s.block.arb.park = some r then none else s.block.arb.park) ∧
        t.block.pea = s.block.pea) ∧
  (∀ (s : State) (r : Fin 6) (on : Bool),
      on = true →
      s.block.arb.cur = some r →
      r ≠ rqBittern →
      (reqOf s.block r).queue = [] →
      ∃ t, exec (.requesterMask r on) s = .next t ∧ Only [.lau, .sess, .veh, .plc, .plcCfg, .imd, .imdG, .saf, .safX, .lsw, .pea, .arb, .slt, .legal, .bri, .key, .mbx, .hic, .qmg, .cwy, .cwyX, .btn, .dmp, .rpl] s t ∧
        (reqOf t.block r).masked = true ∧
        (reqOf t.block r).revocations = satAdd (reqOf s.block r).revocations 1 ∧
        t.block.arb.win = none ∧
        Raised t.block 391) ∧
  (∀ (s : State) (r : Fin 6) (on : Bool),
      on = false →
      ∃ t, exec (.requesterMask r on) s = .next t ∧ Only [.lau, .sess, .veh, .plc, .plcCfg, .imd, .imdG, .saf, .safX, .lsw, .pea, .arb, .slt, .legal, .bri, .key, .mbx, .hic, .qmg, .cwy, .cwyX, .btn, .dmp, .rpl] s t ∧
        (t.block.arb = { s.block.arb with reqs := vupd s.block.arb.reqs r fun x => { x with masked := false } })) ∧
  (∀ (s : State) (r : Fin 6),
      s.block.arb.cur = some r →
      (reqOf s.block r).queue = [] →
      s.block.arb.frozen = false →
      ∃ t, exec .holdWatchdog s = .next t ∧ Only [.lau, .sess, .veh, .plc, .plcCfg, .imd, .imdG, .saf, .safX, .lsw, .pea, .arb, .slt, .legal, .bri, .key, .mbx, .hic, .qmg, .cwy, .cwyX, .btn, .dmp, .rpl] s t ∧
        t.block.arb.cur = s.block.arb.win ∧
        t.block.arb.win = none ∧
        t.block.arb.park = none ∧
        (reqOf t.block r).revocations = satAdd (reqOf s.block r).revocations 1 ∧
        (reqOf t.block r).revoked = true ∧
        Raised t.block 391) ∧
  (∀ (s : State),
      s.block.arb.cur = none →
      ∃ t, exec .holdWatchdog s = .next t ∧ Only [.lau, .sess, .veh, .plc, .plcCfg, .imd, .imdG, .saf, .safX, .lsw, .pea, .arb, .slt, .legal, .bri, .key, .mbx, .hic, .qmg, .cwy, .cwyX, .btn, .dmp, .rpl] s t ∧
        t.block.arb = s.block.arb ∧
        t.block.pea = s.block.pea) ∧
  (∀ (s : State),
      (16 ≤ s.block.pea.writesSinceGap ∨ s.block.pea.lastGap.toNat + tSec ≤ (now s.block).toNat) →
      ∃ t, exec .gapMove s = .next t ∧ Only [.tide, .pea, .hic, .rpl, .prior] s t ∧
        (t.block.pea.gap = if s.block.pea.gap = 0 then 65536 else s.block.pea.gap - 1) ∧
        t.block.pea.moves = s.block.pea.moves + 1 ∧
        t.block.pea.writesSinceGap = 0 ∧
        t.block.pea.lastGap = now s.block ∧
        t.block.pea.totalWrites = s.block.pea.totalWrites + 1 ∧
        t.block.pea.lines = s.block.pea.lines) ∧
  (∀ (s : State) (k : Fin 64) (r : Fin 6),
      (reqOf s.block r).masked = false →
      r = counterOwner k →
      ctrPlanned s.block k < ctrMax →
      ∃ t, exec (.counterIncrement k r) s = .next t ∧ Only [.pea, .arb, .hic, .rpl] s t ∧
        (reqOf t.block r).queue = (reqOf s.block r).queue ++ [{ first := 56832 + 4 * k.val + (ctrPlanned s.block k + 1) % 4, content := [ctrLine k (ctrPlanned s.block k + 1)], act := .counter k (ctrPlanned s.block k + 1) none }] ∧
        t.block.pea = s.block.pea) ∧
  (∀ (s : State) (k : Fin 64) (r : Fin 6),
      (reqOf s.block r).masked = false →
      r ≠ counterOwner k →
      ∃ t, exec (.counterIncrement k r) s = .next t ∧ Only [.pea, .arb, .hic, .rpl] s t ∧
        (reqOf t.block r).rejected = true ∧
        (reqOf t.block r).queue = (reqOf s.block r).queue ∧
        Raised t.block 390) ∧
  (∀ (s : State),
      s.block.pea.writesSinceGap < 16 →
      (now (tideTo (s.block.pea.lastGap.toNat + tSec) s.block)).toNat < s.block.pea.lastGap.toNat + tSec →
      ∃ t, exec .gapMove s = .next t ∧ Only [.tide, .pea, .hic, .rpl, .prior] s t ∧
        t.block.pea = s.block.pea) ∧
  (∀ (s : State) (k : Fin 64) (r : Fin 6),
      (reqOf s.block r).masked = true →
      ∃ t, exec (.counterIncrement k r) s = .next t ∧ Only [.pea, .arb, .hic, .rpl] s t ∧
        t.block.arb = s.block.arb ∧
        t.block.pea = s.block.pea) ∧
  (∀ (s : State) (k : Fin 64) (r : Fin 6),
      (reqOf s.block r).masked = false →
      r = counterOwner k →
      ctrMax ≤ ctrPlanned s.block k →
      ∃ t, exec (.counterIncrement k r) s = .next t ∧ Only [.pea, .arb, .hic, .rpl] s t ∧
        t.block = safetyItem s.block ((ctrIncrement r k none s.block).1)) ∧
  (∀ (s : State),
      (s.block.rst.carr = false ∨ s.block.pea.ready = false ∨ s.block.pf.active = true) →
      ∃ t, exec .deltaEpoch s = .next t ∧ Only [.tide, .pea, .arb, .backup, .bri, .hic, .rpl, .prior] s t ∧
        t.block.pea = s.block.pea ∧
        t.block.arb = s.block.arb) ∧
  (∀ (s : State) (i : U64),
      s.block.rst.carr = true →
      s.block.pea.ready = true →
      s.block.pf.active = false →
      s.block.pea.lastDelta = some i →
      multipleFrom tSec (max ((now s.block).toNat - 36000) (i.toNat + 1)) + 36000 ≤ (now s.block).toNat →
      ∃ t, exec .deltaEpoch s = .next t ∧ Only [.tide, .pea, .arb, .backup, .bri, .hic, .rpl, .prior] s t ∧
        t.block = safetyItem s.block (deltaEpoch (multipleFrom tSec (max ((now s.block).toNat - 36000) (i.toNat + 1))) s.block))

/-- Under the conditions of its clause each command answers a next state, the queue stays, only the units listed there change, and what follows holds. POWER_FAIL_WARNING, outside replay: one of VIN with the monitor off changes neither the power-fail unit nor a session; while active, or before Tide is ready, it sets only the latch of its source; else it makes the power fail active at its instant, neither committed nor late, and what follows from it: the store frozen and source 384. PF_COMMIT_DONE of a sealed commit, once: committed, its time, source 385; not sealed, nothing. PF_COMMIT_LATE at 2 ms without a seal: late, source 386. QUIESCENT_COMMIT, begun and not overdue, every pair verified open: the epoch of kind 4; not active, not begun or overdue: nothing. PF_HOLD_END at 20 ms: overdue. POWER_FAIL_CLEAR, outside replay: when not active it clears the latches alone; at 100 ms it ends the power fail with its latches cleared and source 387. The constructors of Instr whose completion it states: powerFailWarning, pfCommitDone, pfCommitLate, quiescentCommit, pfHoldEnd, powerFailClear. -/
def Obligations.PowerFailInstants : Prop :=
  (∀ (s : State) (vin : Bool),
      s.block.rpl.mode = false →
      vin = true →
      s.block.pf.vinMon = false →
      ∃ t, exec (.powerFailWarning vin) s = .next t ∧ Only [.lau, .pq, .sess, .mlk, .veh, .plc, .plcCfg, .v2g, .imd, .imdG, .saf, .safX, .lsw, .pea, .arb, .pf, .slt, .auth, .mbx, .hic, .qmg, .cwy, .cwyX, .rst, .upd, .btn, .dmp, .rpl] s t ∧
        t.block.pf = s.block.pf ∧
        t.block.sess = s.block.sess) ∧
  (∀ (s : State) (vin : Bool),
      s.block.rpl.mode = false →
      vin = false →
      s.block.pf.active = true →
      ∃ t, exec (.powerFailWarning vin) s = .next t ∧ Only [.lau, .pq, .sess, .mlk, .veh, .plc, .plcCfg, .v2g, .imd, .imdG, .saf, .safX, .lsw, .pea, .arb, .pf, .slt, .auth, .mbx, .hic, .qmg, .cwy, .cwyX, .rst, .upd, .btn, .dmp, .rpl] s t ∧
        t.block.pf = { s.block.pf with warn := true, pin := true } ∧
        t.block.sess = s.block.sess) ∧
  (∀ (s : State) (vin : Bool),
      s.block.rpl.mode = false →
      vin = false →
      s.block.pf.active = false →
      s.block.tide.ready = true →
      ∃ t, exec (.powerFailWarning vin) s = .next t ∧ Only [.lau, .pq, .sess, .mlk, .veh, .plc, .plcCfg, .v2g, .imd, .imdG, .saf, .safX, .lsw, .pea, .arb, .pf, .slt, .auth, .mbx, .hic, .qmg, .cwy, .cwyX, .rst, .upd, .btn, .dmp, .rpl] s t ∧
        t.block.pf.active = true ∧
        t.block.pf.at_ = now s.block ∧
        t.block.pf.pin = true ∧
        t.block.pf.committed = false ∧
        t.block.pf.late = false ∧
        t.block.arb.frozen = true ∧
        Raised t.block 384) ∧
  (∀ (s : State) (i : U64),
      s.block.pf.sealedAt = some i →
      s.block.pf.active = true →
      s.block.pf.committed = false →
      ∃ t, exec .pfCommitDone s = .next t ∧ Only [.pf, .hic, .rpl] s t ∧
        t.block.pf = { s.block.pf with committed := true, time := BitVec.ofNat 32 (min (2 ^ 32 - 1) (i.toNat - s.block.pf.at_.toNat)) } ∧
        Raised t.block 385) ∧
  (∀ (s : State) (vin : Bool),
      s.block.rpl.mode = false →
      (vin = false ∨ s.block.pf.vinMon = true) →
      (s.block.pf.active = true ∨ s.block.tide.ready = false) →
      ∃ t, exec (.powerFailWarning vin) s = .next t ∧ Only [.lau, .pq, .sess, .mlk, .veh, .plc, .plcCfg, .v2g, .imd, .imdG, .saf, .safX, .lsw, .pea, .arb, .pf, .slt, .auth, .mbx, .hic, .qmg, .cwy, .cwyX, .rst, .upd, .btn, .dmp, .rpl] s t ∧
        t.block.pf = { s.block.pf with warn := true, pin := s.block.pf.pin || !vin, vinLow := s.block.pf.vinLow || vin } ∧
        t.block.sess = s.block.sess) ∧
  (∀ (s : State) (vin : Bool),
      s.block.rpl.mode = false →
      (vin = false ∨ s.block.pf.vinMon = true) →
      s.block.pf.active = false →
      s.block.tide.ready = true →
      ∃ t, exec (.powerFailWarning vin) s = .next t ∧ Only [.lau, .pq, .sess, .mlk, .veh, .plc, .plcCfg, .v2g, .imd, .imdG, .saf, .safX, .lsw, .pea, .arb, .pf, .slt, .auth, .mbx, .hic, .qmg, .cwy, .cwyX, .rst, .upd, .btn, .dmp, .rpl] s t ∧
        t.block = safetyItem s.block (powerFailWarning vin s.block) ∧
        t.block.pf.active = true ∧
        t.block.pf.warn = true) ∧
  (∀ (s : State),
      s.block.pf.sealedAt = none →
      ∃ t, exec .pfCommitDone s = .next t ∧ Only [.pf, .hic, .rpl] s t ∧
        t.block.pf = s.block.pf ∧
        t.block.hic = s.block.hic) ∧
  (∀ (s : State),
      s.block.pf.active = true →
      s.block.pf.sealedAt = none →
      s.block.pf.late = false →
      s.block.pf.at_.toNat + 3000000 ≤ (now s.block).toNat →
      ∃ t, exec .pfCommitLate s = .next t ∧ Only [.tide, .pf, .hic, .rpl, .prior] s t ∧
        t.block.pf = { s.block.pf with late := true } ∧
        Raised t.block 386) ∧
  (∀ (s : State),
      s.block.pf.active = true →
      s.block.pf.begun = true →
      s.block.pf.overdue = false →
      s.block.pf.quiescent = false →
      s.block.rst.carr = true →
      (∀ n, (nodeOf s.block n).openVerified = true) →
      ∃ t, exec .quiescentCommit s = .next t ∧ Only [.pea, .arb, .pf, .bri, .hic, .rpl] s t ∧
        t.block = safetyItem s.block (writeEpoch 4 s.block.acc.applied (debitLines { s.block with pf := { s.block.pf with quiescent := true } })) ∧
        t.block.pf.quiescent = true) ∧
  (∀ (s : State),
      (s.block.pf.active = false ∨ s.block.pf.begun = false ∨ s.block.pf.overdue = true) →
      ∃ t, exec .quiescentCommit s = .next t ∧ Only [.pea, .arb, .pf, .bri, .hic, .rpl] s t ∧
        t.block.pf = s.block.pf ∧
        t.block.arb = s.block.arb) ∧
  (∀ (s : State),
      s.block.pf.active = true →
      s.block.pf.overdue = false →
      s.block.pf.at_.toNat + 30000000 ≤ (now s.block).toNat →
      ∃ t, exec .pfHoldEnd s = .next t ∧ Only [.tide, .pf, .rpl, .prior] s t ∧
        t.block.pf = { s.block.pf with overdue := true }) ∧
  (∀ (s : State),
      s.block.rpl.mode = false →
      s.block.pf.active = false →
      ∃ t, exec .powerFailClear s = .next t ∧ Only [.tide, .lau, .sess, .veh, .plc, .plcCfg, .imd, .imdG, .saf, .safX, .lsw, .pea, .arb, .pf, .slt, .legal, .bri, .key, .hic, .qmg, .cwy, .cwyX, .upd, .btn, .dmp, .rpl, .prior] s t ∧
        t.block.pf = { s.block.pf with warn := false, pin := false, vinLow := false }) ∧
  (∀ (s : State),
      s.block.rpl.mode = false →
      s.block.pf.active = true →
      s.block.pf.at_.toNat + 150000000 ≤ (now s.block).toNat →
      ∃ t, exec .powerFailClear s = .next t ∧ Only [.tide, .lau, .sess, .veh, .plc, .plcCfg, .imd, .imdG, .saf, .safX, .lsw, .pea, .arb, .pf, .slt, .legal, .bri, .key, .hic, .qmg, .cwy, .cwyX, .upd, .btn, .dmp, .rpl, .prior] s t ∧
        t.block = safetyItem s.block (powerFailCleared s.block) ∧
        t.block.pf.active = false ∧
        t.block.pf.warn = false ∧
        t.block.pf.cleared = true ∧
        Raised t.block 387)

/-- Under the conditions of its clause each command answers a next state, the queue stays, only the units listed there change, and what follows holds. Each command executes a request of its opcode while Sedge runs. PEA_GET_STATUS returns the 16 words of the block. PEA_READ of one good line with no line in progress returns its 64 bytes; in the key lines it answers 0x0B02. PEA_FREEZE outside a power fail with Carr quiet freezes with the exempt mask, drained as the port is, or lifts the freeze and answers 8 zero bytes. PEA_SET_CONFIG outside a power fail sets the wait limit of 1 to 15 and the monitor; above 15 it answers 0x0B06 and sets nothing. PEA_CTR_READ outside a power fail returns counter, warnings and owner. PEA_CTR_INCREMENT outside a power fail queues an increment of a counter 56 to 63 that is not exhausted; below 56 it answers 0x0B03. PEA_ACK_ERROR outside a power fail clears the error under an authorisation and else answers 0x0B07; without an error it answers 0x0B08. PEA_GET_RECOVERY returns state, and 0x0B09 in a power fail. PEA_CLEAR_COUNTS outside a power fail clears three counts and those of each requester. The constructors of Instr whose completion it states: peaGetStatus, peaRead, peaFreeze, peaSetConfig, peaCtrRead, peaCtrIncrement, peaAckError, peaGetRecovery, peaClearCounts. -/
def Obligations.StoreCommands : Prop :=
  (∀ (s : State) (m : Fin 4),
      Asked s m 0x0B01 .sedge →
      ∃ t, exec (.peaGetStatus m) s = .next t ∧ Only [.mbx, .rpl] s t ∧
        (Answered s t m 0 ((List.range 16).flatMap fun k => b32 (peaWord s.block (0x8C0 + k))))) ∧
  (∀ (s : State) (m : Fin 4) (errs : List U8),
      Asked s m 0x0B02 .sedge →
      rN s.block m 0 4 = 64 →
      rN s.block m 4 1 = 1 →
      s.block.arb.cur = none →
      errs = [0] →
      (64 : Nat) ∉ s.block.pea.badLines →
      ∃ t, exec (.peaRead m errs) s = .next t ∧ Only [.lau, .sess, .veh, .plc, .plcCfg, .imd, .imdG, .saf, .safX, .lsw, .pea, .arb, .slt, .legal, .bri, .key, .mbx, .hic, .qmg, .cwy, .cwyX, .btn, .dmp, .rpl] s t ∧
        Answered s t m 0 (padTo 960 (Memory.readN s.block.pea.lines (64 * 64) 64) ++ [0, 0]) ∧
        t.block.pea = s.block.pea) ∧
  (∀ (s : State) (m : Fin 4) (errs : List U8),
      Asked s m 0x0B02 .sedge →
      55808 ≤ rN s.block m 0 4 →
      rN s.block m 0 4 ≤ 56831 →
      1 ≤ rN s.block m 4 1 →
      rN s.block m 4 1 ≤ 15 →
      ∃ t, exec (.peaRead m errs) s = .next t ∧ Only [.lau, .sess, .veh, .plc, .plcCfg, .imd, .imdG, .saf, .safX, .lsw, .pea, .arb, .slt, .legal, .bri, .key, .mbx, .hic, .qmg, .cwy, .cwyX, .btn, .dmp, .rpl] s t ∧
        Answered s t m 0x0B02 ([]) ∧
        t.block.pea = s.block.pea) ∧
  (∀ (s : State) (m : Fin 4),
      Asked s m 0x0B03 .sedge →
      s.block.pf.active = false →
      rBit s.block m 0 0 = true →
      rN s.block m 1 1 < 64 →
      allQuiet s.block = true →
      ∃ t, exec (.peaFreeze m) s = .next t ∧ Only [.arb, .mbx, .hic, .rpl] s t ∧
        t.block.arb.frozen = true ∧
        (∀ r, (reqOf t.block r).exempt = bitOf (rN s.block m 1 1) r.val) ∧
        t.block.arb.drained = !drainOpen (setFreeze (BitVec.ofNat 6 (rN s.block m 1 1)) s.block)) ∧
  (∀ (s : State) (m : Fin 4),
      Asked s m 0x0B03 .sedge →
      s.block.pf.active = false →
      rBit s.block m 0 0 = false →
      rN s.block m 1 1 < 64 →
      allQuiet s.block = true →
      s.block.arb.byDump = false →
      ∃ t, exec (.peaFreeze m) s = .next t ∧ Only [.arb, .mbx, .hic, .rpl] s t ∧
        Answered s t m 0 (zeros 8) ∧
        t.block.arb = (liftFreeze s.block).arb ∧
        t.block.arb.frozen = false) ∧
  (∀ (s : State) (m : Fin 4),
      Asked s m 0x0B04 .sedge →
      s.block.pf.active = false →
      1 ≤ rN s.block m 0 1 →
      rN s.block m 0 1 ≤ 15 →
      ∃ t, exec (.peaSetConfig m) s = .next t ∧ Only [.pea, .arb, .pf, .mbx, .hic, .btn, .rpl] s t ∧
        Answered s t m 0 ([]) ∧
        t.block.arb.waitLimit = BitVec.ofNat 4 (rN s.block m 0 1) ∧
        t.block.pf = { s.block.pf with vinMon := rBit s.block m 1 0 }) ∧
  (∀ (s : State) (m : Fin 4),
      Asked s m 0x0B04 .sedge →
      s.block.pf.active = false →
      15 < rN s.block m 0 1 →
      ∃ t, exec (.peaSetConfig m) s = .next t ∧ Only [.pea, .arb, .pf, .mbx, .hic, .btn, .rpl] s t ∧
        Answered s t m 0x0B06 ([]) ∧
        t.block.arb = s.block.arb ∧
        t.block.pf = s.block.pf) ∧
  (∀ (s : State) (m : Fin 4),
      Asked s m 0x0B05 .sedge →
      s.block.pf.active = false →
      rN s.block m 0 1 < 64 →
      ∃ t, exec (.peaCtrRead m) s = .next t ∧ Only [.mbx, .rpl] s t ∧
        Answered s t m 0 (b32 (vget s.block.pea.ctr (reqCtr s.block m)) ++ [BitVec.ofNat 8 (b2n (s.block.pea.ctrWarn.getLsbD (reqCtr s.block m).val) + 2 * b2n (s.block.pea.ctrExh.getLsbD (reqCtr s.block m).val)), BitVec.ofNat 8 (counterOwner (reqCtr s.block m)).val])) ∧
  (∀ (s : State) (m : Fin 4),
      Asked s m 0x0B06 .sedge →
      s.block.pf.active = false →
      56 ≤ rN s.block m 0 1 →
      rN s.block m 0 1 < 64 →
      ctrExhausted s.block (reqCtr s.block m) = false →
      (reqOf s.block rqSedge).masked = false →
      ∃ t, exec (.peaCtrIncrement m) s = .next t ∧ Only [.pea, .arb, .mbx, .hic, .rpl] s t ∧
        (reqOf t.block rqSedge).queue = (reqOf s.block rqSedge).queue ++ [{ first := 56832 + 4 * (reqCtr s.block m).val + (ctrPlanned s.block (reqCtr s.block m) + 1) % 4, content := [ctrLine (reqCtr s.block m) (ctrPlanned s.block (reqCtr s.block m) + 1)], act := .counter (reqCtr s.block m) (ctrPlanned s.block (reqCtr s.block m) + 1) (some m) }]) ∧
  (∀ (s : State) (m : Fin 4),
      Asked s m 0x0B06 .sedge →
      s.block.pf.active = false →
      rN s.block m 0 1 < 56 →
      ∃ t, exec (.peaCtrIncrement m) s = .next t ∧ Only [.pea, .arb, .mbx, .hic, .rpl] s t ∧
        Answered s t m 0x0B03 ([]) ∧
        t.block.arb = s.block.arb) ∧
  (∀ (s : State) (m : Fin 4),
      Asked s m 0x0B07 .carr →
      s.block.pf.active = false →
      s.block.pea.ue = true →
      s.block.btn.clearMbx = none →
      ∃ t, exec (.peaAckError m) s = .next t ∧ Only [.pea, .arb, .key, .mbx, .hic, .btn, .rpl] s t ∧
        (if (authorise m 4 (rN s.block m 0 2) s.block).2 = true then t.block.pea = { s.block.pea with ue := false } ∧ Answered s t m 0 (b32 s.block.pea.ueLine) else t.block.pea = s.block.pea ∧ Answered s t m 0x0B07 [])) ∧
  (∀ (s : State) (m : Fin 4),
      Asked s m 0x0B07 .carr →
      s.block.pf.active = false →
      s.block.pea.ue = false →
      ∃ t, exec (.peaAckError m) s = .next t ∧ Only [.pea, .arb, .key, .mbx, .hic, .btn, .rpl] s t ∧
        Answered s t m 0x0B08 ([]) ∧
        t.block.pea = s.block.pea) ∧
  (∀ (s : State) (m : Fin 4),
      Asked s m 0x0B08 .sedge →
      s.block.pf.active = false →
      ∃ t, exec (.peaGetRecovery m) s = .next t ∧ Only [.mbx, .rpl] s t ∧
        Answered s t m 0 (b32 (recoveryWord s.block.pea) ++ b64 s.block.pea.recStamp ++ b32 s.block.pea.recEpoch ++ b64 s.block.pea.recRtc ++ [s.block.pea.recKind])) ∧
  (∀ (s : State) (m : Fin 4),
      Asked s m 0x0B08 .sedge →
      s.block.pf.active = true →
      ∃ t, exec (.peaGetRecovery m) s = .next t ∧ Only [.mbx, .rpl] s t ∧
        Answered s t m 0x0B09 ([])) ∧
  (∀ (s : State) (m : Fin 4),
      Asked s m 0x0B09 .sedge →
      s.block.pf.active = false →
      ∃ t, exec (.peaClearCounts m) s = .next t ∧ Only [.pea, .arb, .mbx, .rpl] s t ∧
        Answered s t m 0 ([]) ∧
        t.block.pea = { s.block.pea with eccCnt := 0, ueCnt := 0, rejectCnt := 0 } ∧
        (∀ r, reqOf t.block r = { reqOf s.block r with forcedWins := 0, withdrawals := 0, revocations := 0 }))

/-- Under the conditions of its clause each command answers a next state, the queue stays, only the units listed there change, and what follows holds. SIGN_ENGINE_COMPLETE on a unit with no work changes neither keys nor readings; with work, once the ticks of its operation have passed: the unit is free, its end noted, the next work taken and the job ended, so that a reading that failed fewer than twice waits again for 1 ms, counted, and one that failed twice before leaves the signing list, is held unsigned, and source 421 is raised. SIGN_RETRY of the earliest retry at its instant: no retry is left for that reading and it is submitted again; with no retry nothing changes. HELD_READINGS_FLUSH sends the held readings, with none nothing changes. FULL_REQUEUE: with nothing held nothing changes; with readings alone held, at their instant, they are sent; else what is due is. TAMPER_SAMPLE, outside replay: the clock is 4,096 on and the levels are noted; without a new state nothing else changes, an input with a new state takes it as its open state. TAMPER_EVENT_MOVE: with Carr down nothing changes; with events not in flight and no clock-lost record waiting, each goes to the legal log, the tamper flag is set, source 420 is raised; with none, nothing. AUTH_HOLD_EXPIRED of a held authorisation at its instant: it is cleared, source 422; one not held changes nothing. The constructors of Instr whose completion it states: signEngineComplete, signRetry, heldReadingsFlush, fullRequeue, tamperSample, tamperEventMove, authHoldExpired. -/
def Obligations.BillingInstants : Prop :=
  (∀ (s : State) (u : Fin 4) (good : Bool),
      vget s.block.key.units u = none →
      ∃ t, exec (.signEngineComplete u good) s = .next t ∧ Only [.tide, .lau, .sess, .veh, .plc, .plcCfg, .v2g, .imd, .imdG, .saf, .safX, .lsw, .pea, .arb, .slt, .legal, .bri, .key, .hic, .qmg, .cwy, .cwyX, .btn, .dmp, .rpl, .prior] s t ∧
        t.block.key = s.block.key ∧
        t.block.slt = s.block.slt) ∧
  (∀ (s : State) (u : Fin 4) (good : Bool) (w : EngineWork),
      vget s.block.key.units u = some w →
      w.at_.toNat + w.op.ticks ≤ (now s.block).toNat →
      ∃ t, exec (.signEngineComplete u good) s = .next t ∧ Only [.tide, .lau, .sess, .veh, .plc, .plcCfg, .v2g, .imd, .imdG, .saf, .safX, .lsw, .pea, .arb, .slt, .legal, .bri, .key, .hic, .qmg, .cwy, .cwyX, .btn, .dmp, .rpl, .prior] s t ∧
        (t.block = safetyItem s.block (unitEnds u w.job (if good then .done else .failed) s.block))) ∧
  (∀ (s : State) (u : Fin 4) (good : Bool) (w : EngineWork) (q : U32) (r : Reading),
      vget s.block.key.units u = some w →
      w.job = .reading q →
      signingOf s.block q = some r →
      good = false →
      r.failures < 2 →
      w.at_.toNat + w.op.ticks ≤ (now s.block).toNat →
      ∃ t, exec (.signEngineComplete u good) s = .next t ∧ Only [.tide, .lau, .sess, .veh, .plc, .plcCfg, .v2g, .imd, .imdG, .saf, .safX, .lsw, .pea, .arb, .slt, .legal, .bri, .key, .hic, .qmg, .cwy, .cwyX, .btn, .dmp, .rpl, .prior] s t ∧
        (t.block.slt.signing = s.block.slt.signing.map fun x => if x.sequence = r.sequence then { r with failures := r.failures + 1, retryAt := some (now s.block + 1500000) } else x) ∧
        t.block.slt.signFailures = BitVec.ofNat 24 (min (2 ^ 24 - 1) (s.block.slt.signFailures.toNat + 1))) ∧
  (∀ (s : State) (u : Fin 4) (good : Bool) (w : EngineWork) (q : U32) (r : Reading),
      vget s.block.key.units u = some w →
      w.job = .reading q →
      signingOf s.block q = some r →
      good = false →
      2 ≤ r.failures →
      w.at_.toNat + w.op.ticks ≤ (now s.block).toNat →
      ∃ t, exec (.signEngineComplete u good) s = .next t ∧ Only [.tide, .lau, .sess, .veh, .plc, .plcCfg, .v2g, .imd, .imdG, .saf, .safX, .lsw, .pea, .arb, .slt, .legal, .bri, .key, .hic, .qmg, .cwy, .cwyX, .btn, .dmp, .rpl, .prior] s t ∧
        (t.block.slt.signing = s.block.slt.signing.filter fun x => x.sequence != r.sequence) ∧
        t.block.slt.unsigned_ = s.block.slt.unsigned_ ++ [{ r with failures := 0, retryAt := none }] ∧
        Raised t.block 421) ∧
  (∀ (s : State) (r : Reading) (i : U64),
      nextRetry s.block.slt.signing = some i →
      (s.block.slt.signing.find? (fun y => y.retryAt == some i) = some r) →
      i.toNat ≤ (now s.block).toNat →
      ∃ t, exec .signRetry s = .next t ∧ Only [.tide, .slt, .key, .rpl, .prior] s t ∧
        (t.block.slt.signing = s.block.slt.signing.map fun x => if x.sequence = r.sequence then { x with retryAt := none } else x) ∧
        (t.block = safetyItem s.block (engineSubmit 0 (.reading r.sequence) .p256 (updSlt (fun x => { x with signing := x.signing.map fun x => if x.sequence = r.sequence then { x with retryAt := none } else x }) s.block)))) ∧
  (∀ (s : State),
      nextRetry s.block.slt.signing = none →
      ∃ t, exec .signRetry s = .next t ∧ Only [.tide, .slt, .key, .rpl, .prior] s t ∧
        t.block.slt = s.block.slt ∧
        t.block.key = s.block.key) ∧
  (∀ (s : State),
      s.block.slt.held = [] →
      ∃ t, exec .heldReadingsFlush s = .next t ∧ Only [.lau, .arb, .slt, .hic, .qmg, .cwy, .cwyX, .btn, .dmp, .rpl] s t ∧
        t.block.slt = s.block.slt ∧
        t.block.qmg = s.block.qmg) ∧
  (∀ (s : State),
      s.block.slt.held ≠ [] →
      ∃ t, exec .heldReadingsFlush s = .next t ∧ Only [.lau, .arb, .slt, .hic, .qmg, .cwy, .cwyX, .btn, .dmp, .rpl] s t ∧
        t.block = safetyItem s.block (flushHeld s.block)) ∧
  (∀ (s : State),
      s.block.slt.held = [] →
      s.block.btn.held = none →
      ∃ t, exec .fullRequeue s = .next t ∧ Only [.tide, .lau, .arb, .slt, .hic, .qmg, .cwy, .cwyX, .btn, .dmp, .rpl, .prior] s t ∧
        t.block.slt = s.block.slt ∧
        t.block.btn = s.block.btn ∧
        t.block.qmg = s.block.qmg) ∧
  (∀ (s : State),
      s.block.slt.held ≠ [] →
      retryAt s.block.slt.heldTryAt ≤ (now s.block).toNat →
      s.block.btn.held = none →
      ∃ t, exec .fullRequeue s = .next t ∧ Only [.tide, .lau, .arb, .slt, .hic, .qmg, .cwy, .cwyX, .btn, .dmp, .rpl, .prior] s t ∧
        t.block = safetyItem s.block (flushHeld s.block)) ∧
  (∀ (s : State) (levels : BitVec 4),
      s.block.rpl.mode = false →
      (∀ i ∈ List.range 4, newTamperState { s.block.backup with rtc := s.block.backup.rtc + 4096 } levels i = false) →
      ∃ t, exec (.tamperSample levels) s = .next t ∧ Only [.backup, .rpl] s t ∧
        t.block.backup = { s.block.backup with rtc := s.block.backup.rtc + 4096, lastSample := levels }) ∧
  (∀ (s : State) (levels : BitVec 4) (i : Fin 4),
      s.block.rpl.mode = false →
      newTamperState { s.block.backup with rtc := s.block.backup.rtc + 4096 } levels i.val = true →
      ∃ t, exec (.tamperSample levels) s = .next t ∧ Only [.backup, .rpl] s t ∧
        t.block.backup.rtc = s.block.backup.rtc + 4096 ∧
        t.block.backup.open_.getLsbD i.val = levels.getLsbD i.val ∧
        t.block.backup.lastSample = levels) ∧
  (∀ (s : State),
      s.block.rst.carr = false →
      ∃ t, exec .tamperEventMove s = .next t ∧ Only [.pea, .arb, .slt, .backup, .hic, .btn, .rpl] s t ∧
        t.block.backup = s.block.backup ∧
        t.block.btn = s.block.btn) ∧
  (∀ (s : State),
      s.block.rst.carr = true →
      s.block.backup.logWait = false →
      ((s.block.backup.events.filter fun e => !(tamperInFlight s.block).contains e) ≠ []) →
      ∃ t, exec .tamperEventMove s = .next t ∧ Only [.pea, .arb, .slt, .backup, .hic, .btn, .rpl] s t ∧
        t.block.slt = { s.block.slt with tamper := true } ∧
        Raised t.block 420 ∧
        (t.block.btn.legalWaiting.length = s.block.btn.legalWaiting.length + (s.block.backup.events.filter fun e => !(tamperInFlight s.block).contains e).length)) ∧
  (∀ (s : State),
      s.block.rst.carr = true →
      s.block.backup.logWait = false →
      ((s.block.backup.events.filter fun e => !(tamperInFlight s.block).contains e) = []) →
      ∃ t, exec .tamperEventMove s = .next t ∧ Only [.pea, .arb, .slt, .backup, .hic, .btn, .rpl] s t ∧
        t.block.slt = s.block.slt ∧
        t.block.btn = s.block.btn) ∧
  (∀ (s : State),
      s.block.rst.carr = true →
      ∃ t, exec .tamperEventMove s = .next t ∧ Only [.pea, .arb, .slt, .backup, .hic, .btn, .rpl] s t ∧
        t.block = safetyItem s.block (tamperMove s.block)) ∧
  (∀ (s : State),
      (s.block.slt.held ≠ [] ∨ s.block.btn.held ≠ none) →
      ∃ t, exec .fullRequeue s = .next t ∧ Only [.tide, .lau, .arb, .slt, .hic, .qmg, .cwy, .cwyX, .btn, .dmp, .rpl, .prior] s t ∧
        t.block = safetyItem s.block (fullRequeue s.block)) ∧
  (∀ (s : State) (n : Fin 16),
      (authOf s.block n).state = 1 →
      (authOf s.block n).until_.toNat ≤ (now s.block).toNat →
      ∃ t, exec (.authHoldExpired n) s = .next t ∧ Only [.tide, .pea, .arb, .auth, .hic, .btn, .rpl, .prior] s t ∧
        t.block.auth = vset s.block.auth n {} ∧
        Raised t.block 422) ∧
  (∀ (s : State) (n : Fin 16),
      (authOf s.block n).state ≠ 1 →
      ∃ t, exec (.authHoldExpired n) s = .next t ∧ Only [.tide, .pea, .arb, .auth, .hic, .btn, .rpl, .prior] s t ∧
        t.block.auth = s.block.auth ∧
        t.block.hic = s.block.hic)

/-- Under the conditions of its clause each command answers a next state, the queue stays, only the units listed there change, and what follows holds. Each command executes a request of its opcode while Carr runs. SLT_LOAD_CALENDAR of 26 records in a host queue, counter 20 not exhausted: the first rule of a calendar that fails is answered with 0x0C01, nothing loaded, source 424; when none fails it is the passive calendar; a queue not allowed answers 6. SLT_GET_CALENDAR of an active calendar to a queue: its records are sent and its identity answered, or 0x0F04; which above 1 answers 0x0C08. SLT_SET_LEGAL for this unit, with the next counter value and values in range: with a bad signature 0x0C02 and no change, else the interval waits and the clock limit is set. SLT_AUTHORISE with verdict 1 to 2, mode 1 to 4, wallet to 4,095 and a hold above 0: outside authorising the decision is held for the hold time; in authorising it is used; verdict 0 or above 2 answers 0x0C08. SLT_READ_REGISTERS of a scope returns its registers, of none 0x0C06. SLT_SIGN_READING of the hub takes the next reading number and none is left unsigned; a connector above 15 answers 0x0C06. SLT_GET_TAMPER returns state. SLT_CLEAR_FLAGS: unauthorised 0x0C07; authorised, without the wallet bit, the tamper flag falls when named. SLT_SET_OUTPUT with hold to 600 and no queue sets both; above 600 it answers 0x0C08. SLT_SET_TAMPER sets the enables of inputs 2 and 3, those of 0 and 1 stay set. The constructors of Instr whose completion it states: sltLoadCalendar, sltGetCalendar, sltSetLegal, sltAuthorise, sltReadRegisters, sltSignReading, sltGetTamper, sltClearFlags, sltSetOutput, sltSetTamper. -/
def Obligations.BillingCommands : Prop :=
  (∀ (s : State) (m : Fin 4),
      Asked s m 0x0C01 .carr →
      queueOk (rN s.block m 0 2) false = true →
      hostDataCheck s.block (rN s.block m 0 2) 26 = 0 →
      ctrExhausted s.block 20 = false →
      ∃ t, exec (.sltLoadCalendar m) s = .next t ∧ Only [.lau, .pea, .arb, .slt, .mbx, .hic, .qmg, .cwy, .cwyX, .btn, .dmp, .rpl] s t ∧
        (∀ k, calendarRule s.block (padTo 1456 (hostDataBytes s.block (rN s.block m 0 2) 26)) = some k → Answered s t m 0x0C01 [BitVec.ofNat 8 k] ∧ t.block.slt = s.block.slt ∧ Raised t.block 424) ∧
        (calendarRule s.block (padTo 1456 (hostDataBytes s.block (rN s.block m 0 2) 26)) = none → t.block.slt.calPassive = padTo 1456 (hostDataBytes s.block (rN s.block m 0 2) 26))) ∧
  (∀ (s : State) (m : Fin 4),
      Asked s m 0x0C01 .carr →
      queueOk (rN s.block m 0 2) false = false →
      ∃ t, exec (.sltLoadCalendar m) s = .next t ∧ Only [.lau, .pea, .arb, .slt, .mbx, .hic, .qmg, .cwy, .cwyX, .btn, .dmp, .rpl] s t ∧
        Answered s t m 6 ([]) ∧
        t.block.slt = s.block.slt) ∧
  (∀ (s : State) (m : Fin 4),
      Asked s m 0x0C02 .carr →
      queueOk (rN s.block m 2 2) false = true →
      rN s.block m 0 1 = 0 →
      s.block.slt.calActive ≠ [] →
      ∃ t, exec (.sltGetCalendar m) s = .next t ∧ Only [.lau, .arb, .mbx, .hic, .qmg, .cwy, .cwyX, .btn, .dmp, .rpl] s t ∧
        (if (sendRecords agSaltern (rN s.block m 2 2) ((chunks 56 s.block.slt.calActive).map fun p => mkRecord Config.calendarRecord 56 0 p) s.block).2 then Answered s t m 0 (slice s.block.slt.calActive 4 12) else Answered s t m 0x0F04 []) ∧
        t.block.slt = s.block.slt) ∧
  (∀ (s : State) (m : Fin 4),
      Asked s m 0x0C02 .carr →
      queueOk (rN s.block m 2 2) false = true →
      1 < rN s.block m 0 1 →
      ∃ t, exec (.sltGetCalendar m) s = .next t ∧ Only [.lau, .arb, .mbx, .hic, .qmg, .cwy, .cwyX, .btn, .dmp, .rpl] s t ∧
        Answered s t m 0x0C08 ([]) ∧
        t.block.qmg = s.block.qmg) ∧
  (∀ (s : State) (m : Fin 4),
      Asked s m 0x0C03 .carr →
      calN (rBytes s.block m 0 80) 8 8 = s.block.key.serial.toNat →
      rB s.block m 0 = 2 →
      rB s.block m 1 = 1 →
      ctrExhausted s.block 21 = false →
      calN (rBytes s.block m 0 80) 4 4 = ctrPlanned s.block 21 + 1 →
      intervalOk (calB (rBytes s.block m 0 80) 2) = true →
      1 ≤ (rB s.block m 3).toNat →
      (rB s.block m 3).toNat ≤ 60 →
      ∃ t, exec (.sltSetLegal m) s = .next t ∧ Only [.lau, .pea, .arb, .slt, .mbx, .hic, .qmg, .cwy, .cwyX, .btn, .dmp, .rpl] s t ∧
        (verifySlot s.block 2 3 ((rBytes s.block m 0 80).take 16) (slice (rBytes s.block m 0 80) 16 64) = false → Answered s t m 0x0C02 [] ∧ t.block.slt = s.block.slt) ∧
        (verifySlot s.block 2 3 ((rBytes s.block m 0 80).take 16) (slice (rBytes s.block m 0 80) 16 64) = true → t.block.slt.pendingInterval = some (rB s.block m 2) ∧ t.block.slt.clockLimit = rB s.block m 3)) ∧
  (∀ (s : State) (m : Fin 4),
      Asked s m 0x0C04 .carr →
      (nodeCheck 0x0C05 s.block m).2 = true →
      1 ≤ rN s.block m 1 1 →
      rN s.block m 1 1 ≤ 2 →
      1 ≤ rN s.block m 2 1 →
      rN s.block m 2 1 ≤ 4 →
      rN s.block m 4 2 ≤ 4095 →
      phaseOf s.block (reqNode s.block m) ≠ .authorising →
      s.block.slt.hold ≠ 0 →
      ∃ t, exec (.sltAuthorise m) s = .next t ∧ Only [.lau, .sess, .veh, .plc, .plcCfg, .imd, .imdG, .saf, .safX, .lsw, .pea, .arb, .slt, .legal, .auth, .bri, .key, .mbx, .hic, .qmg, .cwy, .cwyX, .btn, .dmp, .rpl] s t ∧
        Answered s t m 0 ([1, 0, 0, 0, 0, 0, 0, 0, 0, 0, 0, 0, 0, 0, 0, 0]) ∧
        authOf t.block (reqNode s.block m) = { requestDecision s.block m with state := 1, until_ := now s.block + BitVec.ofNat 64 (s.block.slt.hold.toNat * tSec) }) ∧
  (∀ (s : State) (m : Fin 4),
      Asked s m 0x0C04 .carr →
      (nodeCheck 0x0C05 s.block m).2 = true →
      (rN s.block m 1 1 = 0 ∨ 2 < rN s.block m 1 1) →
      ∃ t, exec (.sltAuthorise m) s = .next t ∧ Only [.lau, .sess, .veh, .plc, .plcCfg, .imd, .imdG, .saf, .safX, .lsw, .pea, .arb, .slt, .legal, .auth, .bri, .key, .mbx, .hic, .qmg, .cwy, .cwyX, .btn, .dmp, .rpl] s t ∧
        Answered s t m 0x0C08 ([]) ∧
        t.block.auth = s.block.auth) ∧
  (∀ (s : State) (m : Fin 4),
      Asked s m 0x0C04 .carr →
      (nodeCheck 0x0C05 s.block m).2 = true →
      1 ≤ rN s.block m 1 1 →
      rN s.block m 1 1 ≤ 2 →
      1 ≤ rN s.block m 2 1 →
      rN s.block m 2 1 ≤ 4 →
      rN s.block m 4 2 ≤ 4095 →
      phaseOf s.block (reqNode s.block m) = .authorising →
      ∃ t, exec (.sltAuthorise m) s = .next t ∧ Only [.lau, .sess, .veh, .plc, .plcCfg, .imd, .imdG, .saf, .safX, .lsw, .pea, .arb, .slt, .legal, .auth, .bri, .key, .mbx, .hic, .qmg, .cwy, .cwyX, .btn, .dmp, .rpl] s t ∧
        t.block = safetyItem s.block (sltAuthorise m s.block)) ∧
  (∀ (s : State) (m : Fin 4) (v : Vector TariffReg 16) (d r : Acc) (fl : U8),
      Asked s m 0x0C05 .carr →
      scopeRegs s.block (rN s.block m 0 1) (rN s.block m 1 1) = some (v, d, r, fl) →
      ∃ t, exec (.sltReadRegisters m) s = .next t ∧ Only [.mbx, .rpl] s t ∧
        (Answered s t m 0 (v.toList.flatMap (fun (x : TariffReg) => b64 (exportAcc x.del) ++ b64 (exportAcc x.rec_)) ++ b64 (exportAcc d) ++ b64 (exportAcc r) ++ [fl]))) ∧
  (∀ (s : State) (m : Fin 4),
      Asked s m 0x0C05 .carr →
      scopeRegs s.block (rN s.block m 0 1) (rN s.block m 1 1) = none →
      ∃ t, exec (.sltReadRegisters m) s = .next t ∧ Only [.mbx, .rpl] s t ∧
        Answered s t m 0x0C06 ([])) ∧
  (∀ (s : State) (m : Fin 4),
      Asked s m 0x0C06 .carr →
      rN s.block m 0 1 = 3 →
      rN s.block m 1 1 = 0 →
      ∃ t, exec (.sltSignReading m) s = .next t ∧ Only [.slt, .key, .mbx, .rpl] s t ∧
        Answered s t m 0 (b32 (s.block.slt.readingSeq + 1)) ∧
        t.block.slt.readingSeq = s.block.slt.readingSeq + 1 ∧
        t.block.slt.unsigned_ = []) ∧
  (∀ (s : State) (m : Fin 4),
      Asked s m 0x0C06 .carr →
      rN s.block m 0 1 = 2 →
      16 ≤ rN s.block m 1 1 →
      ∃ t, exec (.sltSignReading m) s = .next t ∧ Only [.slt, .key, .mbx, .rpl] s t ∧
        Answered s t m 0x0C06 ([]) ∧
        t.block.slt = s.block.slt ∧
        t.block.key = s.block.key) ∧
  (∀ (s : State) (m : Fin 4),
      Asked s m 0x0C07 .carr →
      ∃ t, exec (.sltGetTamper m) s = .next t ∧ Only [.mbx, .rpl] s t ∧
        Answered s t m 0 (b32 (tamperWord s.block.backup) ++ padTo 256 s.block.backup.events.flatten)) ∧
  (∀ (s : State) (m : Fin 4),
      Asked s m 0x0C08 .carr →
      ∃ t, exec (.sltClearFlags m) s = .next t ∧ Only [.acc, .pea, .arb, .slt, .legal, .bri, .key, .mbx, .hic, .btn, .rpl] s t ∧
        ((authorise m 8 (rN s.block m 4 2) s.block).2 = false → Answered s t m 0x0C07 [] ∧ t.block.slt = s.block.slt) ∧
        ((authorise m 8 (rN s.block m 4 2) s.block).2 = true → bitOf (rN s.block m 0 1) 2 = false → t.block.slt.tamper = (s.block.slt.tamper && !bitOf (rN s.block m 0 1) 1) ∧ t.block.bri = s.block.bri ∧ Answered s t m 0 [BitVec.ofNat 8 (rN s.block m 0 1)])) ∧
  (∀ (s : State) (m : Fin 4),
      Asked s m 0x0C09 .carr →
      rN s.block m 0 2 ≤ 600 →
      rN s.block m 2 2 = 0xFFFF →
      ∃ t, exec (.sltSetOutput m) s = .next t ∧ Only [.lau, .pea, .arb, .slt, .mbx, .hic, .qmg, .cwy, .cwyX, .btn, .dmp, .rpl] s t ∧
        Answered s t m 0 ([]) ∧
        t.block.slt.hold = BitVec.ofNat 10 (rN s.block m 0 2) ∧
        t.block.slt.readingQueue = 0xFFFF) ∧
  (∀ (s : State) (m : Fin 4),
      Asked s m 0x0C09 .carr →
      600 < rN s.block m 0 2 →
      ∃ t, exec (.sltSetOutput m) s = .next t ∧ Only [.lau, .pea, .arb, .slt, .mbx, .hic, .qmg, .cwy, .cwyX, .btn, .dmp, .rpl] s t ∧
        Answered s t m 0x0C08 ([]) ∧
        t.block.slt = s.block.slt) ∧
  (∀ (s : State) (m : Fin 4),
      Asked s m 0x0C0A .carr →
      ∃ t, exec (.sltSetTamper m) s = .next t ∧ Only [.backup, .mbx, .rpl] s t ∧
        Answered s t m 0 ([]) ∧
        t.block.backup = { s.block.backup with enabled := BitVec.ofNat 4 (rN s.block m 0 1 / 4 % 4 * 4 + 3) })

/-- Under the conditions of its clause each command answers a next state, the queue stays, only the units listed there change, and what follows holds. Each command executes a request of its opcode while Carr runs. BRI_TOPUP and BRI_REFUND: the first check of a message that fails is the status, the message is counted rejected and source 431 raised; when every check holds and the books balance after it, the balance of the wallet and the sum of top-ups or refunds move by the amount and source 428 or 429 is raised. BRI_GET_WALLET below 4,096 returns the wallet and its counter, from 4,096 on 0x0D01. BRI_SET_CONFIG with a stop time of 1 to 50, no reserved bit and no ledger open sets three values and answers; a stop time of 0 or above 50 answers 3. BRI_GET_LEDGER of a connector of the device returns its ledger. BRI_AUDIT returns the sums and whether the books balance. BRI_BLOCK of a wallet in use: it is blocked or active as named, with the same balance; of one not in use it answers 0x0D06. The constructors of Instr whose completion it states: briTopup, briRefund, briGetWallet, briSetConfig, briGetLedger, briAudit, briBlock. -/
def Obligations.LedgerCommands : Prop :=
  (∀ (s : State) (m : Fin 4),
      Asked s m 0x0D01 .carr →
      ∃ t, exec (.briTopup m) s = .next t ∧ Only [.pea, .arb, .bri, .mbx, .hic, .btn, .dmp, .rpl] s t ∧
        (∀ k, firstFail (ledgerChecks s.block 1 (rBytes s.block m 0 96)) = some k → Answered s t m k [] ∧ t.block.bri = { s.block.bri with rejectCnt := satInc s.block.bri.rejectCnt } ∧ Raised t.block 431) ∧
        (firstFail (ledgerChecks s.block 1 (rBytes s.block m 0 96)) = none → (transfer (ledgerMove 1 (natAt (rBytes s.block m 0 96) 2 2) (BitVec.ofNat 64 (natAt (rBytes s.block m 0 96) 16 8)) (BitVec.ofNat 32 (natAt (rBytes s.block m 0 96) 12 4))) s.block).2 = true → (walletOf t.block (natAt (rBytes s.block m 0 96) 2 2)).balance = (walletOf s.block (natAt (rBytes s.block m 0 96) 2 2)).balance + BitVec.ofNat 64 (natAt (rBytes s.block m 0 96) 16 8) ∧ t.block.bri.topup = s.block.bri.topup + BitVec.ofNat 64 (natAt (rBytes s.block m 0 96) 16 8) ∧ Raised t.block 428)) ∧
  (∀ (s : State) (m : Fin 4),
      Asked s m 0x0D02 .carr →
      ∃ t, exec (.briRefund m) s = .next t ∧ Only [.pea, .arb, .bri, .mbx, .hic, .btn, .dmp, .rpl] s t ∧
        (∀ k, firstFail (ledgerChecks s.block 2 (rBytes s.block m 0 96)) = some k → Answered s t m k [] ∧ t.block.bri = { s.block.bri with rejectCnt := satInc s.block.bri.rejectCnt } ∧ Raised t.block 431) ∧
        (firstFail (ledgerChecks s.block 2 (rBytes s.block m 0 96)) = none → (transfer (ledgerMove 2 (natAt (rBytes s.block m 0 96) 2 2) (BitVec.ofNat 64 (natAt (rBytes s.block m 0 96) 16 8)) (BitVec.ofNat 32 (natAt (rBytes s.block m 0 96) 12 4))) s.block).2 = true → (walletOf t.block (natAt (rBytes s.block m 0 96) 2 2)).balance = (walletOf s.block (natAt (rBytes s.block m 0 96) 2 2)).balance - BitVec.ofNat 64 (natAt (rBytes s.block m 0 96) 16 8) ∧ t.block.bri.refund = s.block.bri.refund + BitVec.ofNat 64 (natAt (rBytes s.block m 0 96) 16 8) ∧ Raised t.block 429)) ∧
  (∀ (s : State) (m : Fin 4),
      Asked s m 0x0D03 .carr →
      rN s.block m 0 2 < 4096 →
      ∃ t, exec (.briGetWallet m) s = .next t ∧ Only [.mbx, .rpl] s t ∧
        Answered s t m 0 (walletBytes (walletOf s.block (rN s.block m 0 2)) ++ b32 (vget s.block.pea.ctr (groupCtr (rN s.block m 0 2))))) ∧
  (∀ (s : State) (m : Fin 4),
      Asked s m 0x0D03 .carr →
      4096 ≤ rN s.block m 0 2 →
      ∃ t, exec (.briGetWallet m) s = .next t ∧ Only [.mbx, .rpl] s t ∧
        Answered s t m 0x0D01 ([])) ∧
  (∀ (s : State) (m : Fin 4),
      Asked s m 0x0D04 .carr →
      1 ≤ fieldOf (rN s.block m 0 4) 4 6 →
      fieldOf (rN s.block m 0 4) 4 6 ≤ 50 →
      rN s.block m 0 4 < 1024 →
      ledgerOpen s.block = false →
      ∃ t, exec (.briSetConfig m) s = .next t ∧ Only [.pea, .arb, .bri, .mbx, .hic, .btn, .rpl] s t ∧
        Answered s t m 0 ([]) ∧
        t.block.bri = { s.block.bri with keySlot := BitVec.ofNat 4 (rN s.block m 0 4), tStop := BitVec.ofNat 6 (fieldOf (rN s.block m 0 4) 4 6), minRes := r32 s.block m 4 }) ∧
  (∀ (s : State) (m : Fin 4),
      Asked s m 0x0D04 .carr →
      (fieldOf (rN s.block m 0 4) 4 6 = 0 ∨ 50 < fieldOf (rN s.block m 0 4) 4 6) →
      ∃ t, exec (.briSetConfig m) s = .next t ∧ Only [.pea, .arb, .bri, .mbx, .hic, .btn, .rpl] s t ∧
        Answered s t m 3 ([]) ∧
        t.block.bri = s.block.bri) ∧
  (∀ (s : State) (m : Fin 4),
      Asked s m 0x0D05 .carr →
      (nodeCheck 0x0C05 s.block m).2 = true →
      ∃ t, exec (.briGetLedger m) s = .next t ∧ Only [.mbx, .rpl] s t ∧
        Answered s t m 0 (b64 (ledgerOf s.block (reqNode s.block m)).balance ++ b32 (ledgerStatWord (ledgerOf s.block (reqNode s.block m))) ++ b64 (ledgerOf s.block (reqNode s.block m)).debited ++ b64 (ledgerOf s.block (reqNode s.block m)).uncovered)) ∧
  (∀ (s : State) (m : Fin 4),
      Asked s m 0x0D06 .carr →
      ∃ t, exec (.briAudit m) s = .next t ∧ Only [.mbx, .rpl] s t ∧
        Answered s t m 0 (leBytes 12 (walletSum s.block) ++ leBytes 12 (ledgerSum s.block) ++ leBytes 12 s.block.bri.spent.toNat ++ leBytes 12 s.block.bri.topup.toNat ++ leBytes 12 s.block.bri.refund.toNat ++ [BitVec.ofNat 8 (b2n (decide (creditDifference s.block = 0)))])) ∧
  (∀ (s : State) (m : Fin 4),
      Asked s m 0x0D07 .carr →
      rN s.block m 0 2 < 4096 →
      rN s.block m 2 1 ≤ 1 →
      ((walletOf s.block (rN s.block m 0 2)).state = 1 ∨ (walletOf s.block (rN s.block m 0 2)).state = 2) →
      ∃ t, exec (.briBlock m) s = .next t ∧ Only [.pea, .arb, .bri, .mbx, .hic, .rpl] s t ∧
        (Answered s t m 0 ([if rN s.block m 2 1 = 1 then 2 else 1])) ∧
        ((walletOf t.block (rN s.block m 0 2)).state = if rN s.block m 2 1 = 1 then 2 else 1) ∧
        (walletOf t.block (rN s.block m 0 2)).balance = (walletOf s.block (rN s.block m 0 2)).balance) ∧
  (∀ (s : State) (m : Fin 4),
      Asked s m 0x0D07 .carr →
      rN s.block m 0 2 < 4096 →
      rN s.block m 2 1 ≤ 1 →
      (walletOf s.block (rN s.block m 0 2)).state = 0 →
      ∃ t, exec (.briBlock m) s = .next t ∧ Only [.pea, .arb, .bri, .mbx, .hic, .rpl] s t ∧
        Answered s t m 0x0D06 ([]) ∧
        t.block.bri = s.block.bri)

/-- Under the conditions of its clause each command answers a next state, the queue stays, only the units listed there change, and what follows holds. REMASK with keys, 100 ms on or before Tide: counted, its instant noted, loaded slots and index unchanged; without keys nothing. RNG_RESEED after 1,048,576 uses, 10 s, or 1 s after a health failure: reseeded, after a failure with source 440. RNG_HEALTH_FAIL, outside replay: not ok, counted, source 440. PUF_RETRY waiting: a good one gives keys; a failed one with fewer than 2 tries waits again; the third, or lost helper data, ends without keys, source 438; with none waiting nothing. CHALLENGE_EXPIRED: the challenge is gone; with none nothing. Each command executes a request of its opcode while Sedge runs, all but KEY_GET_STATUS and KEY_GET_CERT with keys up. KEY_UPDATE with none before it: the first failing check is answered, counted, source 442; with none failing it is taken and the index waits for the store; with one before it, it waits; without keys 0x0E0A. KEY_LOAD of a usable slot of usage 6: loaded when its blob opens, else 0x0E09; a slot above 15 0x0E0B. KEY_UNLOAD of a loaded slot: not loaded, its shares gone. KEY_GET_PUBLIC of a used slot or of 0x22 returns the key. KEY_ATTEST returns the signed statement, KEY_GET_CERT the certificate. KEY_GET_CHALLENGE and KEY_RANDOM of 1 to 256 bytes return drawn bytes and count them while the generator is ok; a challenge else answers 0x0E07. KEY_CLEAR_COUNTS sets three counts to 0. The constructors of Instr whose completion it states: remask, rngReseed, rngHealthFail, pufRetry, challengeExpired, keyGetStatus, keyUpdate, keyLoad, keyUnload, keyGetPublic, keyAttest, keyGetCert, keyGetChallenge, keyRandom, keyClearCounts. -/
def Obligations.KeyStore : Prop :=
  (∀ (s : State),
      s.block.key.keysReady = true →
      s.block.tide.ready = true →
      s.block.key.lastRemask.toNat + 150000000 ≤ (now s.block).toNat →
      ∃ t, exec .remask s = .next t ∧ Only [.tide, .key, .rpl, .prior] s t ∧
        t.block.key.remaskCnt = satInc s.block.key.remaskCnt ∧
        t.block.key.lastRemask = now s.block ∧
        t.block.key.loaded = s.block.key.loaded ∧
        t.block.key.index = s.block.key.index) ∧
  (∀ (s : State),
      s.block.key.keysReady = true →
      s.block.tide.ready = false →
      ∃ t, exec .remask s = .next t ∧ Only [.tide, .key, .rpl, .prior] s t ∧
        t.block.key.remaskCnt = satInc s.block.key.remaskCnt ∧
        t.block.key.lastRemask = now s.block ∧
        t.block.key.loaded = s.block.key.loaded ∧
        t.block.key.index = s.block.key.index) ∧
  (∀ (s : State),
      s.block.key.keysReady = false →
      ∃ t, exec .remask s = .next t ∧ Only [.tide, .key, .rpl, .prior] s t ∧
        t.block.key = s.block.key) ∧
  (∀ (s : State),
      s.block.key.rngOk = true →
      1048576 ≤ s.block.key.rngUses →
      ∃ t, exec .rngReseed s = .next t ∧ Only [.tide, .key, .hic, .rpl, .prior] s t ∧
        t.block.key = { s.block.key with rngUses := 0, rngAt := now s.block } ∧
        t.block.hic = s.block.hic) ∧
  (∀ (s : State),
      s.block.key.rngOk = false →
      s.block.key.rngAt.toNat + tSec ≤ (now s.block).toNat →
      ∃ t, exec .rngReseed s = .next t ∧ Only [.tide, .key, .hic, .rpl, .prior] s t ∧
        t.block.key = { s.block.key with rngOk := true, rngUses := 0, rngAt := now s.block } ∧
        Raised t.block 440) ∧
  (∀ (s : State),
      s.block.key.rngOk = true →
      s.block.key.rngUses < 1048576 →
      s.block.key.rngAt.toNat + 10 * tSec ≤ (now s.block).toNat →
      ∃ t, exec .rngReseed s = .next t ∧ Only [.tide, .key, .hic, .rpl, .prior] s t ∧
        t.block.key = { s.block.key with rngUses := 0, rngAt := now s.block } ∧
        t.block.hic = s.block.hic) ∧
  (∀ (s : State),
      s.block.rpl.mode = false →
      ∃ t, exec .rngHealthFail s = .next t ∧ Only [.key, .hic, .rpl] s t ∧
        t.block.key = { s.block.key with rngOk := false, rngAt := now s.block, rngFailCnt := satInc s.block.key.rngFailCnt } ∧
        Raised t.block 440) ∧
  (∀ (s : State) (good : Bool) (corrected : U8) (i : U64),
      s.block.key.retryAt = some i →
      s.block.tide.running = false →
      good = false →
      helperLost s.block = false →
      s.block.key.tries < 2 →
      ∃ t, exec (.pufRetry good corrected) s = .next t ∧ Only [.tide, .arb, .key, .hic, .btn, .rpl, .prior] s t ∧
        t.block.key = { s.block.key with tries := s.block.key.tries + 1, retryAt := some (now s.block) }) ∧
  (∀ (s : State) (good : Bool) (corrected : U8) (i : U64),
      s.block.key.retryAt = some i →
      s.block.tide.running = false →
      (good = false ∨ helperLost s.block = true) →
      (2 ≤ s.block.key.tries ∨ helperLost s.block = true) →
      ∃ t, exec (.pufRetry good corrected) s = .next t ∧ Only [.tide, .arb, .key, .hic, .btn, .rpl, .prior] s t ∧
        t.block.key = { s.block.key with tries := s.block.key.tries + 1, retryAt := none, pufOk := false, keysReady := false, attempts := 0, started := true } ∧
        Raised t.block 438) ∧
  (∀ (s : State) (good : Bool) (corrected : U8) (i : U64),
      s.block.key.retryAt = some i →
      s.block.tide.running = false →
      good = true →
      helperLost s.block = false →
      ∃ t, exec (.pufRetry good corrected) s = .next t ∧ Only [.tide, .arb, .key, .hic, .btn, .rpl, .prior] s t ∧
        t.block.key.pufOk = true ∧
        t.block.key.keysReady = true ∧
        t.block.key.started = true ∧
        t.block.key.corrected = corrected ∧
        t.block.key.attempts = BitVec.ofNat 2 (s.block.key.tries + 1) ∧
        t.block.key.retryAt = none ∧
        t.block.key.index = s.block.key.index) ∧
  (∀ (s : State) (good : Bool) (corrected : U8) (i : U64),
      s.block.key.retryAt = some i →
      s.block.tide.running = true →
      i.toNat + 15000000 ≤ (now s.block).toNat →
      ∃ t, exec (.pufRetry good corrected) s = .next t ∧ Only [.tide, .arb, .key, .hic, .btn, .rpl, .prior] s t ∧
        t.block = safetyItem s.block (pufAttempt good corrected s.block)) ∧
  (∀ (s : State) (good : Bool) (corrected : U8),
      s.block.key.retryAt = none →
      ∃ t, exec (.pufRetry good corrected) s = .next t ∧ Only [.tide, .arb, .key, .hic, .btn, .rpl, .prior] s t ∧
        t.block.key = s.block.key ∧
        t.block.arb = s.block.arb) ∧
  (∀ (s : State) (l : List U8) (i : U64),
      s.block.key.challenge = some (l, i) →
      i.toNat ≤ (now s.block).toNat →
      ∃ t, exec .challengeExpired s = .next t ∧ Only [.tide, .key, .rpl, .prior] s t ∧
        t.block.key = { s.block.key with challenge := none }) ∧
  (∀ (s : State),
      s.block.key.challenge = none →
      ∃ t, exec .challengeExpired s = .next t ∧ Only [.tide, .key, .rpl, .prior] s t ∧
        t.block.key = s.block.key) ∧
  (∀ (s : State) (m : Fin 4),
      Asked s m 0x0E01 .sedge →
      ∃ t, exec (.keyGetStatus m) s = .next t ∧ Only [.mbx, .rpl] s t ∧
        (Answered s t m 0 (b32s ((List.range 8).map fun i => keyWord s.block (0x980 + i))))) ∧
  (∀ (s : State) (m : Fin 4),
      Asked s m 0x0E02 .sedge →
      keysUp s.block = true →
      s.block.key.messages = [] →
      ∃ t, exec (.keyUpdate m) s = .next t ∧ Only [.pea, .arb, .key, .mbx, .hic, .rpl] s t ∧
        (∀ k, firstFail (keyChecks s.block (rAll s.block m)) = some k → Answered s t m k [] ∧ t.block.key = { s.block.key with rejectCnt := satInc s.block.key.rejectCnt } ∧ t.block.pea = s.block.pea ∧ Raised t.block 442) ∧
        (firstFail (keyChecks s.block (rAll s.block m)) = none → t.block.key.index = s.block.key.index ∧ t.block.key.rejectCnt = s.block.key.rejectCnt ∧ t.block = safetyItem s.block ((keyTake m { s.block with key := { s.block.key with messages := [m] } }).1))) ∧
  (∀ (s : State) (m : Fin 4),
      Asked s m 0x0E02 .sedge →
      keysUp s.block = true →
      s.block.key.messages ≠ [] →
      ∃ t, exec (.keyUpdate m) s = .next t ∧ Only [.pea, .arb, .key, .mbx, .hic, .rpl] s t ∧
        t.block.key = { s.block.key with messages := s.block.key.messages ++ [m] } ∧
        t.block.hic = s.block.hic) ∧
  (∀ (s : State) (m : Fin 4),
      Asked s m 0x0E02 .sedge →
      keysUp s.block = false →
      ∃ t, exec (.keyUpdate m) s = .next t ∧ Only [.pea, .arb, .key, .mbx, .hic, .rpl] s t ∧
        Answered s t m 0x0E0A ([]) ∧
        t.block.key = s.block.key) ∧
  (∀ (s : State) (m : Fin 4),
      Asked s m 0x0E03 .sedge →
      keysUp s.block = true →
      (rB s.block m 0).toNat ≤ 15 →
      slotUsable s.block (reqSlot s.block m) = true →
      (vget s.block.key.index (reqSlot s.block m)).usage = 6 →
      ∃ t, exec (.keyLoad m) s = .next t ∧ Only [.key, .mbx, .rpl] s t ∧
        (∀ k, openBlob s.block (reqSlot s.block m) (rBytes s.block m 4 200) = some k → Answered s t m 0 [] ∧ t.block.key.loaded = s.block.key.loaded ||| ((1 : BitVec 16) <<< (reqSlot s.block m).val)) ∧
        (openBlob s.block (reqSlot s.block m) (rBytes s.block m 4 200) = none → Answered s t m 0x0E09 [] ∧ t.block.key = s.block.key)) ∧
  (∀ (s : State) (m : Fin 4),
      Asked s m 0x0E03 .sedge →
      keysUp s.block = true →
      15 < (rB s.block m 0).toNat →
      ∃ t, exec (.keyLoad m) s = .next t ∧ Only [.key, .mbx, .rpl] s t ∧
        Answered s t m 0x0E0B ([]) ∧
        t.block.key = s.block.key) ∧
  (∀ (s : State) (m : Fin 4),
      Asked s m 0x0E04 .sedge →
      keysUp s.block = true →
      (rB s.block m 0).toNat ≤ 15 →
      s.block.key.loaded.getLsbD (reqSlot s.block m).val = true →
      ∃ t, exec (.keyUnload m) s = .next t ∧ Only [.key, .mbx, .rpl] s t ∧
        Answered s t m 0 ([]) ∧
        t.block.key = { s.block.key with loaded := s.block.key.loaded &&& ~~~((1 : BitVec 16) <<< (reqSlot s.block m).val), shares := vset s.block.key.shares (slotReg (reqSlot s.block m)) {} }) ∧
  (∀ (s : State) (m : Fin 4),
      Asked s m 0x0E05 .sedge →
      keysUp s.block = true →
      (rB s.block m 0).toNat ≤ 15 →
      (vget s.block.key.index (reqSlot s.block m)).usage ≠ 0 →
      ∃ t, exec (.keyGetPublic m) s = .next t ∧ Only [.mbx, .rpl] s t ∧
        Answered s t m 0 ([(vget s.block.key.index (reqSlot s.block m)).curve.setWidth 8, 0, 0, 0] ++ padTo 97 (vget s.block.key.index (reqSlot s.block m)).pub)) ∧
  (∀ (s : State) (m : Fin 4),
      Asked s m 0x0E05 .sedge →
      keysUp s.block = true →
      (rB s.block m 0).toNat = 0x22 →
      ∃ t, exec (.keyGetPublic m) s = .next t ∧ Only [.mbx, .rpl] s t ∧
        Answered s t m 0 ([1, 0, 0, 0] ++ padTo 97 (vget s.block.key.pubs 2))) ∧
  (∀ (s : State) (m : Fin 4),
      Asked s m 0x0E06 .sedge →
      keysUp s.block = true →
      ∃ t, exec (.keyAttest m) s = .next t ∧ Only [.mbx, .rpl] s t ∧
        Answered s t m 0 (statementBody s.block (rBytes s.block m 0 32) ++ signWith s.block 2 3 (statementBody s.block (rBytes s.block m 0 32)))) ∧
  (∀ (s : State) (m : Fin 4),
      Asked s m 0x0E07 .sedge →
      ∃ t, exec (.keyGetCert m) s = .next t ∧ Only [.mbx, .rpl] s t ∧
        Answered s t m 0 (leBytes 2 (Config.certificate.take 900).length ++ [0, 0] ++ Config.certificate.take 900)) ∧
  (∀ (s : State) (m : Fin 4),
      Asked s m 0x0E08 .sedge →
      keysUp s.block = true →
      s.block.key.rngOk = true →
      ∃ t, exec (.keyGetChallenge m) s = .next t ∧ Only [.key, .mbx, .rpl] s t ∧
        Answered s t m 0 ((draw 8 s.block).2 ++ b64 (ahead s.block 90000000000)) ∧
        t.block.key.challenge = some ((draw 8 s.block).2, ahead s.block 90000000000) ∧
        t.block.key.draws = s.block.key.draws + 8) ∧
  (∀ (s : State) (m : Fin 4),
      Asked s m 0x0E08 .sedge →
      keysUp s.block = true →
      s.block.key.rngOk = false →
      ∃ t, exec (.keyGetChallenge m) s = .next t ∧ Only [.key, .mbx, .rpl] s t ∧
        Answered s t m 0x0E07 ([]) ∧
        t.block.key = s.block.key) ∧
  (∀ (s : State) (m : Fin 4),
      Asked s m 0x0E09 .sedge →
      keysUp s.block = true →
      1 ≤ rN s.block m 0 2 →
      rN s.block m 0 2 ≤ 256 →
      s.block.key.rngOk = true →
      ∃ t, exec (.keyRandom m) s = .next t ∧ Only [.key, .mbx, .rpl] s t ∧
        Answered s t m 0 ((draw (rN s.block m 0 2) s.block).2) ∧
        t.block.key.draws = s.block.key.draws + rN s.block m 0 2) ∧
  (∀ (s : State) (m : Fin 4),
      Asked s m 0x0E0A .sedge →
      keysUp s.block = true →
      ∃ t, exec (.keyClearCounts m) s = .next t ∧ Only [.key, .mbx, .rpl] s t ∧
        Answered s t m 0 ([]) ∧
        t.block.key = { s.block.key with remaskCnt := 0, rejectCnt := 0, rngFailCnt := 0 })

/-- A WRITE frame that names a protected word, whose words all lie in allowed regions, is rejected whole: the window error records a write, cause 3 (PROTECTED) and the lowest protected address, the count rises, no frame is counted committed, and nothing but the port and its interrupt source changes. The words that are protected are the five of R554. The constructors of Instr whose completion it states: registerWrite. -/
def Obligations.ProtectedWords : Prop :=
  (∀ (s : State) (addr : U16) (words : List U32) (a : Nat),
      s.block.rpl.mode = false →
      s.block.rst.inReset = false →
      (∀ e ∈ addressed addr.toNat words, forbiddenBy s.block e.1 = none) →
      (((addressed addr.toNat words).find? fun e => isProtected e.1).map (·.1) = some a) →
      ∃ t, exec (.registerWrite addr words none) s = .next t ∧ Only [.tide, .barrier, .cross, .met, .slu, .mlk, .veh, .imd, .rcm, .mbx, .hp, .hic, .rst, .upd, .rpl, .dbg] s t ∧
        Only [.hp, .hic, .rpl] s t ∧
        t.block.hp.err = true ∧
        t.block.hp.dir = true ∧
        t.block.hp.cause = 3 ∧
        t.block.hp.addr = BitVec.ofNat 16 a ∧
        t.block.hp.count = satInc s.block.hp.count ∧
        t.block.hp.committed = s.block.hp.committed)

/-- Under the conditions of its clause each command answers a next state, the queue stays, only the units listed there change, and what follows holds. Out of reset unless said. READ_FRAME does what a whole read does; of words without a claim it returns the words as they stand, of one word below 0x200 that word, with Tide unchanged; of no word it does nothing. TID_NOW_READ returns the low word of Tide at the edge and captures the high one. LO_CAPTURE_READ of a low word that captures returns it; of another it does nothing. HIC_CLAIM with a winner: the source is not pending, is active and on the stack of its pin, and the word of the pin is returned; with none the interrupts stay. HIC_COMPLETE, outside replay, of the source on top of the stack: not active, off the stack, no fault; on an empty stack: the fault with its cause and source, counted, source 1. RPL_STOP, outside replay, is the write of 1 to RPL_CTRL and counts as committed. REGISTER_WRITE in reset does nothing; without words it counts in SPI_ERR with cause 4 or 5; with a wrong CRC with cause 6 and commits nothing; else the whole frame is written; of the debug view, outside replay, it sets its address. BAD_FRAME in reset does nothing; of fewer than six nibbles it counts with cause 1; a frame of no form counts with its cause and returns no new word; a frame that is a whole read, a write or a partial read is that, the last with cause 3. The constructors of Instr whose completion it states: readFrame, tidNowRead, loCaptureRead, hicClaim, hicComplete, rplStop, registerWrite, badFrame. -/
def Obligations.HostPort : Prop :=
  (∀ (s : State) (addr : U16) (count : Nat) (lag : Fin 49),
      s.block.rst.inReset = false →
      claimPin addr.toNat = none →
      count ≠ 0 →
      ∃ t, exec (.readFrame addr count lag) s = .next t ∧ Only [.tide, .acc, .bri, .hp, .hic, .btn, .rpl] s t ∧
        t.block.hp.lastRead = (readWords lag count addr.toNat s.block).2) ∧
  (∀ (s : State) (addr : U16) (count : Nat) (lag : Fin 49),
      s.block.rst.inReset = false →
      claimPin addr.toNat = none →
      count = 1 →
      addr.toNat < 0x200 →
      ∃ t, exec (.readFrame addr count lag) s = .next t ∧ Only [.tide, .acc, .bri, .hp, .hic, .btn, .rpl] s t ∧
        t.block.hp.lastRead = [windowWord s.block addr.toNat] ∧
        t.block.hp.reads = satInc s.block.hp.reads ∧
        t.block.tide = s.block.tide) ∧
  (∀ (s : State) (addr : U16) (count : Nat) (lag : Fin 49),
      count = 0 →
      ∃ t, exec (.readFrame addr count lag) s = .next t ∧ Only [.tide, .acc, .bri, .hp, .hic, .btn, .rpl] s t ∧
        t.block.hp = s.block.hp ∧
        t.block.hic = s.block.hic) ∧
  (∀ (s : State) (lag : Fin 49),
      s.block.rst.inReset = false →
      ∃ t, exec (.tidNowRead lag) s = .next t ∧ Only [.tide, .acc, .bri, .hp, .hic, .btn, .rpl] s t ∧
        t.block.hp.lastRead = [lo32 (BitVec.ofNat 64 ((now s.block).toNat - lag.val))] ∧
        t.block.tide = { s.block.tide with nowHi := hi32 (BitVec.ofNat 64 ((now s.block).toNat - lag.val)) }) ∧
  (∀ (s : State) (addr : U16) (count : Nat) (lag : Fin 49),
      ∃ t, exec (.readFrame addr count lag) s = .next t ∧ Only [.tide, .acc, .bri, .hp, .hic, .btn, .rpl] s t ∧
        t.block = safetyItem s.block (wholeRead addr count lag s.block)) ∧
  (∀ (s : State) (addr : U16),
      s.block.rst.inReset = false →
      captures addr.toNat = true →
      ∃ t, exec (.loCaptureRead addr) s = .next t ∧ Only [.tide, .acc, .bri, .hp, .hic, .btn, .rpl] s t ∧
        t.block.hp.lastRead = [windowWord s.block addr.toNat] ∧
        t.block.hp.reads = satInc s.block.hp.reads) ∧
  (∀ (s : State) (addr : U16),
      captures addr.toNat = false →
      ∃ t, exec (.loCaptureRead addr) s = .next t ∧ Only [.tide, .acc, .bri, .hp, .hic, .btn, .rpl] s t ∧
        t.block.hp = s.block.hp ∧
        t.block.acc = s.block.acc) ∧
  (∀ (s : State) (p : Fin 4) (n : Fin 512) (k : Nat),
      s.block.rst.inReset = false →
      hicWinner s.block.hic p = some (n.val, k) →
      ∃ t, exec (.hicClaim p) s = .next t ∧ Only [.tide, .acc, .bri, .hp, .hic, .btn, .rpl] s t ∧
        (vget t.block.hic.sources n).pending = false ∧
        (vget t.block.hic.sources n).active = true ∧
        (vget t.block.hic.pins p).stack = (n.val, (vget s.block.hic.sources n).prio.toNat) :: (vget s.block.hic.pins p).stack ∧
        t.block.hp.lastRead = [windowWord s.block (0x10C + p.val)]) ∧
  (∀ (s : State) (p : Fin 4),
      s.block.rst.inReset = false →
      hicWinner s.block.hic p = none →
      ∃ t, exec (.hicClaim p) s = .next t ∧ Only [.tide, .acc, .bri, .hp, .hic, .btn, .rpl] s t ∧
        t.block.hic = s.block.hic) ∧
  (∀ (s : State) (p : Fin 4) (src : U32) (n : Fin 512) (k : Nat) (l : List (Nat × Nat)),
      s.block.rpl.mode = false →
      s.block.rst.inReset = false →
      src = BitVec.ofNat 32 n.val →
      1 ≤ n.val →
      n.val ≤ 510 →
      (vget s.block.hic.pins p).stack = (n.val, k) :: l →
      ∃ t, exec (.hicComplete p src) s = .next t ∧ Only [.tide, .barrier, .cross, .met, .slu, .mlk, .veh, .imd, .rcm, .mbx, .hp, .hic, .rst, .upd, .rpl, .dbg] s t ∧
        (vget t.block.hic.sources n).active = false ∧
        (vget t.block.hic.pins p).stack = l ∧
        t.block.hic.fault = s.block.hic.fault) ∧
  (∀ (s : State) (p : Fin 4) (src : U32) (n : Fin 512),
      s.block.rpl.mode = false →
      s.block.rst.inReset = false →
      src = BitVec.ofNat 32 n.val →
      1 ≤ n.val →
      n.val ≤ 510 →
      (vget s.block.hic.pins p).stack = [] →
      ∃ t, exec (.hicComplete p src) s = .next t ∧ Only [.tide, .barrier, .cross, .met, .slu, .mlk, .veh, .imd, .rcm, .mbx, .hp, .hic, .rst, .upd, .rpl, .dbg] s t ∧
        t.block.hic.fault = true ∧
        t.block.hic.faultCause = true ∧
        t.block.hic.faultWritten = BitVec.ofNat 9 n.val ∧
        t.block.hic.faultTop = 0 ∧
        t.block.hic.faultCnt = satInc s.block.hic.faultCnt ∧
        Raised t.block 1) ∧
  (∀ (s : State),
      s.block.rpl.mode = false →
      s.block.rst.inReset = false →
      ∃ t, exec .rplStop s = .next t ∧ Only [.tide, .barrier, .cross, .met, .slu, .mlk, .veh, .imd, .rcm, .mbx, .hp, .hic, .rst, .upd, .rpl, .dbg] s t ∧
        t.block = safetyItem s.block (registerWrite 0xB51 [1] none s.block) ∧
        t.block.hp.committed = satInc s.block.hp.committed) ∧
  (∀ (s : State) (addr : U16) (words : List U32) (crc : Option U8),
      s.block.rst.inReset = true →
      ∃ t, exec (.registerWrite addr words crc) s = .next t ∧ Only [.tide, .barrier, .cross, .met, .slu, .mlk, .veh, .imd, .rcm, .mbx, .hp, .hic, .rst, .upd, .rpl, .dbg] s t ∧
        t.block.hp = s.block.hp ∧
        t.block.hic = s.block.hic) ∧
  (∀ (s : State) (addr : U16) (words : List U32) (crc : Option U8) (c : U8),
      s.block.rst.inReset = false →
      crc = some c →
      words ≠ [] →
      crc8 (frameBytes 0x32 addr words) ≠ c →
      ∃ t, exec (.registerWrite addr words crc) s = .next t ∧ Only [.tide, .barrier, .cross, .met, .slu, .mlk, .veh, .imd, .rcm, .mbx, .hp, .hic, .rst, .upd, .rpl, .dbg] s t ∧
        t.block.hp.spiCause = 6 ∧
        t.block.hp.spiCount = satInc s.block.hp.spiCount ∧
        t.block.hp.committed = s.block.hp.committed ∧
        Only [.hp, .hic, .rpl] s t) ∧
  (∀ (s : State) (addr : U16) (words : List U32) (crc : Option U8),
      s.block.rpl.mode = false →
      s.block.rst.inReset = false →
      crc = none →
      addr = 0xB41 →
      words.length = 1 →
      ∃ t, exec (.registerWrite addr words crc) s = .next t ∧ Only [.tide, .barrier, .cross, .met, .slu, .mlk, .veh, .imd, .rcm, .mbx, .hp, .hic, .rst, .upd, .rpl, .dbg] s t ∧
        t.block.dbg = { s.block.dbg with viewAddr := (words.headD 0).setWidth 16 } ∧
        t.block.hp.committed = satInc s.block.hp.committed) ∧
  (∀ (s : State) (addr : U16) (words : List U32) (crc : Option U8),
      s.block.rst.inReset = false →
      words = [] →
      ∃ t, exec (.registerWrite addr words crc) s = .next t ∧ Only [.tide, .barrier, .cross, .met, .slu, .mlk, .veh, .imd, .rcm, .mbx, .hp, .hic, .rst, .upd, .rpl, .dbg] s t ∧
        (t.block.hp.spiCause = if crc = none then 4 else 5) ∧
        t.block.hp.spiCount = satInc s.block.hp.spiCount ∧
        t.block.hp.committed = s.block.hp.committed) ∧
  (∀ (s : State) (addr : U16) (words : List U32) (crc : Option U8),
      s.block.rst.inReset = false →
      words ≠ [] →
      (∀ c, crc = some c → crc8 (frameBytes 0x32 addr words) = c) →
      ∃ t, exec (.registerWrite addr words crc) s = .next t ∧ Only [.tide, .barrier, .cross, .met, .slu, .mlk, .veh, .imd, .rcm, .mbx, .hp, .hic, .rst, .upd, .rpl, .dbg] s t ∧
        t.block = safetyItem s.block (writeFrame true crc.isSome addr.toNat words s.block)) ∧
  (∀ (s : State) (x : HostFrame),
      s.block.rst.inReset = true →
      ∃ t, exec (.badFrame x) s = .next t ∧ Only [.tide, .barrier, .cross, .met, .acc, .slu, .mlk, .veh, .imd, .rcm, .bri, .mbx, .hp, .hic, .rst, .upd, .btn, .rpl, .dbg] s t ∧
        t.block.hp = s.block.hp ∧
        t.block.hic = s.block.hic) ∧
  (∀ (s : State) (x : HostFrame),
      s.block.rst.inReset = false →
      x.nibbles.length < 6 →
      ∃ t, exec (.badFrame x) s = .next t ∧ Only [.tide, .barrier, .cross, .met, .acc, .slu, .mlk, .veh, .imd, .rcm, .bri, .mbx, .hp, .hic, .rst, .upd, .btn, .rpl, .dbg] s t ∧
        t.block.hp.spiCause = 1 ∧
        t.block.hp.spiCount = satInc s.block.hp.spiCount ∧
        t.block.hp.err = s.block.hp.err ∧
        t.block.hp.lastRead = s.block.hp.lastRead) ∧
  (∀ (s : State) (x : HostFrame) (c : Nat),
      s.block.rst.inReset = false →
      frameCase (hpSingle s.block) x = .bad c →
      ∃ t, exec (.badFrame x) s = .next t ∧ Only [.tide, .barrier, .cross, .met, .acc, .slu, .mlk, .veh, .imd, .rcm, .bri, .mbx, .hp, .hic, .rst, .upd, .btn, .rpl, .dbg] s t ∧
        t.block.hp.spiCause = BitVec.ofNat 3 c ∧
        t.block.hp.spiCount = satInc s.block.hp.spiCount ∧
        t.block.hp.err = s.block.hp.err ∧
        t.block.hp.lastRead = s.block.hp.lastRead) ∧
  (∀ (s : State) (x : HostFrame) (a : U16) (n : Nat),
      s.block.rst.inReset = false →
      frameCase (hpSingle s.block) x = .read a n →
      ∃ t, exec (.badFrame x) s = .next t ∧ Only [.tide, .barrier, .cross, .met, .acc, .slu, .mlk, .veh, .imd, .rcm, .bri, .mbx, .hp, .hic, .rst, .upd, .btn, .rpl, .dbg] s t ∧
        t.block = safetyItem s.block (wholeRead a n x.lag s.block)) ∧
  (∀ (s : State) (x : HostFrame) (a : U16) (n : Nat),
      s.block.rst.inReset = false →
      frameCase (hpSingle s.block) x = .readPartial a n →
      ∃ t, exec (.badFrame x) s = .next t ∧ Only [.tide, .barrier, .cross, .met, .acc, .slu, .mlk, .veh, .imd, .rcm, .bri, .mbx, .hp, .hic, .rst, .upd, .btn, .rpl, .dbg] s t ∧
        t.block = safetyItem s.block (spiErr 3 (readFrame a n x.lag s.block)) ∧
        t.block.hp.spiCause = 3) ∧
  (∀ (s : State) (x : HostFrame) (a : U16) (ws : List U32) (c : Option U8),
      s.block.rst.inReset = false →
      frameCase (hpSingle s.block) x = .write a ws c →
      ∃ t, exec (.badFrame x) s = .next t ∧ Only [.tide, .barrier, .cross, .met, .acc, .slu, .mlk, .veh, .imd, .rcm, .bri, .mbx, .hp, .hic, .rst, .upd, .btn, .rpl, .dbg] s t ∧
        t.block = safetyItem s.block (registerWrite a ws c s.block))

/-- Under the conditions of its clause each command answers a next state, the queue stays, only the units listed there change, and what follows holds. A reset of the link names its cause, keeps nothing outstanding, is counted, raises source 33. CWY_RECORD_RECEIVE down: nothing; up: a training slot resets with cause 7; a slot of wrong CRC is counted, the eighth in a row resets with cause 3; one out of sequence is discarded; one in sequence is accepted, with no buffer left a reset with cause 6 and source 35. CREDIT_FRAME_RECEIVE down: nothing; of wrong CRC counted, the eighth in a row resets with cause 4; a good one gives its acknowledgement and credits. CWY_RECORD_SEND down, with 256 outstanding, or with none to send: nothing; of a record to resend whose group has credit: it is outstanding, numbered, counted. ACK_TIMEOUT at its time: what is outstanding is sent again, the eighth expiry resets with cause 5; down or with none outstanding nothing. CLOCK_LOST enabled resets with cause 2, disabled only notes it. RECEIVE_CLOCK_STABLE notes it and begins alignment in training. LINK_UP aligned in training: up, numbers from 0, credits anew, source 32, the waiting mailbox answered; else nothing. TRAINING_TIMEOUT in training after 1 ms: begun again, counted; not in training, none waiting, nothing. GROUP_STALL after 10 ms of waiting: stalled, the others not, source 37 when it may be raised; one that does not wait changes nothing. The constructors of Instr whose completion it states: cwyRecordReceive, creditFrameReceive, cwyRecordSend, ackTimeout, clockLost, receiveClockStable, linkUp, trainingTimeout, groupStall. -/
def Obligations.CausewayInstants : Prop :=
  (∀ (s : State) (x : CwySlot),
      s.block.cwy.state ≠ .up →
      ∃ t, exec (.cwyRecordReceive x) s = .next t ∧ Only [.lau, .arb, .hic, .qmg, .cwy, .cwyX, .btn, .dmp, .rpl] s t ∧
        t.block.cwy = s.block.cwy ∧
        t.block.qmg = s.block.qmg) ∧
  (∀ (s : State) (x : CwySlot),
      s.block.cwy.state = .up →
      x.training = true →
      ∃ t, exec (.cwyRecordReceive x) s = .next t ∧ Only [.lau, .arb, .hic, .qmg, .cwy, .cwyX, .btn, .dmp, .rpl] s t ∧
        (t.block.cwy.state = (if s.block.cwy.enable = true then LinkState.training else LinkState.disabled)) ∧
        t.block.cwy.lastCause = 7 ∧
        t.block.cwy.outstanding = [] ∧
        t.block.cwy.resetCnt = satInc s.block.cwy.resetCnt ∧
        Raised t.block 33) ∧
  (∀ (s : State) (x : CwySlot),
      s.block.cwy.state = .up →
      x.training = false →
      natAt (padTo 72 x.bytes) 68 4 ≠ (crc32c ((padTo 72 x.bytes).take 68)).toNat →
      s.block.cwyX.crcRun < 7 →
      ∃ t, exec (.cwyRecordReceive x) s = .next t ∧ Only [.lau, .arb, .hic, .qmg, .cwy, .cwyX, .btn, .dmp, .rpl] s t ∧
        t.block.cwy = { s.block.cwy with crcRec := satInc s.block.cwy.crcRec } ∧
        t.block.cwyX.crcRun = s.block.cwyX.crcRun + 1 ∧
        t.block.qmg = s.block.qmg) ∧
  (∀ (s : State) (x : CwySlot),
      s.block.cwy.state = .up →
      x.training = false →
      natAt (padTo 72 x.bytes) 68 4 = (crc32c ((padTo 72 x.bytes).take 68)).toNat →
      natAt (padTo 72 x.bytes) 64 2 ≠ s.block.cwy.rxNext.toNat →
      ∃ t, exec (.cwyRecordReceive x) s = .next t ∧ Only [.lau, .arb, .hic, .qmg, .cwy, .cwyX, .btn, .dmp, .rpl] s t ∧
        t.block.cwy = s.block.cwy ∧
        t.block.cwyX = { s.block.cwyX with crcRun := 0 } ∧
        t.block.qmg = s.block.qmg) ∧
  (∀ (s : State) (x : CwySlot),
      s.block.cwy.state = .up →
      x.training = false →
      natAt (padTo 72 x.bytes) 68 4 = (crc32c ((padTo 72 x.bytes).take 68)).toNat →
      natAt (padTo 72 x.bytes) 64 2 = s.block.cwy.rxNext.toNat →
      freeReserved s.block (slotGroup (padTo 72 x.bytes)) = 0 →
      ∃ t, exec (.cwyRecordReceive x) s = .next t ∧ Only [.lau, .arb, .hic, .qmg, .cwy, .cwyX, .btn, .dmp, .rpl] s t ∧
        (t.block.cwy.state = (if s.block.cwy.enable = true then LinkState.training else LinkState.disabled)) ∧
        t.block.cwy.lastCause = 6 ∧
        t.block.cwy.outstanding = [] ∧
        t.block.cwy.resetCnt = satInc s.block.cwy.resetCnt ∧
        Raised t.block 33 ∧
        Raised t.block 35) ∧
  (∀ (s : State) (l : List U8),
      s.block.cwy.state ≠ .up →
      ∃ t, exec (.creditFrameReceive l) s = .next t ∧ Only [.arb, .hic, .qmg, .cwy, .cwyX, .btn, .dmp, .rpl] s t ∧
        t.block.cwy = s.block.cwy ∧
        t.block.qmg = s.block.qmg) ∧
  (∀ (s : State) (l : List U8),
      s.block.cwy.state = .up →
      natAt (padTo 18 l) 16 2 ≠ (crc16 ((padTo 18 l).take 16)).toNat →
      s.block.cwyX.creditRun < 7 →
      ∃ t, exec (.creditFrameReceive l) s = .next t ∧ Only [.arb, .hic, .qmg, .cwy, .cwyX, .btn, .dmp, .rpl] s t ∧
        t.block.cwy = { s.block.cwy with crcCredit := satInc s.block.cwy.crcCredit } ∧
        t.block.cwyX.creditRun = s.block.cwyX.creditRun + 1) ∧
  (∀ (s : State),
      (s.block.cwy.state ≠ .up ∨ 256 ≤ s.block.cwy.outstanding.length) →
      ∃ t, exec .cwyRecordSend s = .next t ∧ Only [.arb, .hic, .qmg, .cwy, .cwyX, .btn, .dmp, .rpl] s t ∧
        t.block.cwy = s.block.cwy ∧
        t.block.qmg = s.block.qmg) ∧
  (∀ (s : State) (u : Nat) (l : List Nat),
      s.block.cwy.state = .up →
      s.block.cwy.outstanding.length < 256 →
      s.block.cwy.resend = u :: l →
      creditOf (groupOf s.block (groupOfBuf s.block u)) ≠ 0 →
      ∃ t, exec .cwyRecordSend s = .next t ∧ Only [.arb, .hic, .qmg, .cwy, .cwyX, .btn, .dmp, .rpl] s t ∧
        t.block.cwy.outstanding = s.block.cwy.outstanding ++ [(s.block.cwy.txNext, u)] ∧
        t.block.cwy.txNext = s.block.cwy.txNext + 1 ∧
        t.block.cwy.resend = l ∧
        (groupOf t.block (groupOfBuf s.block u)).sent = (groupOf s.block (groupOfBuf s.block u)).sent + 1 ∧
        t.block.cwy.txRec = satInc s.block.cwy.txRec) ∧
  (∀ (s : State),
      s.block.cwy.state = .up →
      s.block.cwy.outstanding ≠ [] →
      s.block.cwyX.ackAt.toNat + s.block.cwy.ackTimeout.toNat * tUs ≤ (now s.block).toNat →
      s.block.cwyX.ackExpiries < 7 →
      ∃ t, exec .ackTimeout s = .next t ∧ Only [.tide, .hic, .cwy, .cwyX, .rpl, .prior] s t ∧
        t.block.cwy = { s.block.cwy with retry := satAdd s.block.cwy.retry s.block.cwy.outstanding.length } ∧
        t.block.cwyX = { s.block.cwyX with ackAt := now s.block, ackExpiries := s.block.cwyX.ackExpiries + 1, slots := slotsSent s.block.cwy.outstanding s.block }) ∧
  (∀ (s : State),
      s.block.cwy.state = .up →
      s.block.cwy.outstanding ≠ [] →
      s.block.cwyX.ackAt.toNat + s.block.cwy.ackTimeout.toNat * tUs ≤ (now s.block).toNat →
      7 ≤ s.block.cwyX.ackExpiries →
      ∃ t, exec .ackTimeout s = .next t ∧ Only [.tide, .hic, .cwy, .cwyX, .rpl, .prior] s t ∧
        (t.block.cwy.state = (if s.block.cwy.enable = true then LinkState.training else LinkState.disabled)) ∧
        t.block.cwy.lastCause = 5 ∧
        t.block.cwy.outstanding = [] ∧
        t.block.cwy.resetCnt = satInc s.block.cwy.resetCnt ∧
        Raised t.block 33 ∧
        t.block.cwy.resend = s.block.cwy.outstanding.map (·.2) ++ s.block.cwy.resend) ∧
  (∀ (s : State),
      (s.block.cwy.state ≠ .up ∨ s.block.cwy.outstanding = []) →
      ∃ t, exec .ackTimeout s = .next t ∧ Only [.tide, .hic, .cwy, .cwyX, .rpl, .prior] s t ∧
        t.block.cwy = s.block.cwy ∧
        t.block.cwyX = s.block.cwyX) ∧
  (∀ (s : State),
      s.block.cwy.enable = true →
      ∃ t, exec .clockLost s = .next t ∧ Only [.hic, .cwy, .cwyX, .rpl] s t ∧
        (t.block.cwy.state = (if s.block.cwy.enable = true then LinkState.training else LinkState.disabled)) ∧
        t.block.cwy.lastCause = 2 ∧
        t.block.cwy.outstanding = [] ∧
        t.block.cwy.resetCnt = satInc s.block.cwy.resetCnt ∧
        Raised t.block 33 ∧
        t.block.cwy.rxClkOk = false) ∧
  (∀ (s : State),
      s.block.cwy.enable = false →
      ∃ t, exec .clockLost s = .next t ∧ Only [.hic, .cwy, .cwyX, .rpl] s t ∧
        t.block.cwy = { s.block.cwy with rxClkOk := false } ∧
        t.block.hic = s.block.hic) ∧
  (∀ (s : State),
      ∃ t, exec .receiveClockStable s = .next t ∧ Only [.cwy, .rpl] s t ∧
        t.block.cwy = { s.block.cwy with rxClkOk := true, aligning := s.block.cwy.aligning || s.block.cwy.state = .training }) ∧
  (∀ (s : State),
      s.block.cwy.state = .training →
      s.block.cwy.aligning = true →
      s.block.cwyX.resetMbx = none →
      ∃ t, exec .linkUp s = .next t ∧ Only [.mbx, .hic, .cwy, .cwyX, .rpl] s t ∧
        t.block.cwy.state = .up ∧
        t.block.cwy.txNext = 0 ∧
        t.block.cwy.rxNext = 0 ∧
        t.block.cwy.txAcked = 0xFFFF ∧
        (∀ g, (groupOf t.block g).granted = BitVec.ofNat 10 (freeReserved s.block g) ∧ (groupOf t.block g).received = 0 ∧ (groupOf t.block g).sent = 0 ∧ (groupOf t.block g).hostCredit = 0) ∧
        Raised t.block 32) ∧
  (∀ (s : State) (m : Fin 4),
      s.block.cwy.state = .training →
      s.block.cwy.aligning = true →
      s.block.cwyX.resetMbx = some m →
      ∃ t, exec .linkUp s = .next t ∧ Only [.mbx, .hic, .cwy, .cwyX, .rpl] s t ∧
        t.block.cwy.state = .up ∧
        t.block.cwyX.resetMbx = none ∧
        Answered s t m 0 (b64 (now s.block))) ∧
  (∀ (s : State),
      s.block.cwy.state = .training →
      s.block.cwyX.trainingAt.toNat + tMs ≤ (now s.block).toNat →
      s.block.cwyX.resetMbx = none →
      ∃ t, exec .trainingTimeout s = .next t ∧ Only [.tide, .mbx, .cwy, .cwyX, .rpl, .prior] s t ∧
        t.block.cwy = { s.block.cwy with aligning := false, resetCnt := satInc s.block.cwy.resetCnt } ∧
        t.block.cwyX = { s.block.cwyX with trainingAt := now s.block }) ∧
  (∀ (s : State),
      s.block.cwy.state ≠ .training →
      s.block.cwyX.resetMbx = none →
      ∃ t, exec .trainingTimeout s = .next t ∧ Only [.tide, .mbx, .cwy, .cwyX, .rpl, .prior] s t ∧
        t.block.cwy = s.block.cwy ∧
        t.block.cwyX = s.block.cwyX) ∧
  (∀ (s : State),
      (s.block.cwy.state = .training ∨ s.block.cwyX.resetMbx ≠ none) →
      ∃ t, exec .trainingTimeout s = .next t ∧ Only [.tide, .mbx, .cwy, .cwyX, .rpl, .prior] s t ∧
        t.block = safetyItem s.block (trainingTimeout s.block)) ∧
  (∀ (s : State),
      (s.block.cwy.state ≠ .training ∨ s.block.cwy.aligning = false) →
      ∃ t, exec .linkUp s = .next t ∧ Only [.mbx, .hic, .cwy, .cwyX, .rpl] s t ∧
        t.block.cwy = s.block.cwy ∧
        t.block.cwyX = s.block.cwyX) ∧
  (∀ (s : State) (x : CwySlot),
      s.block.cwy.state = .up →
      x.training = false →
      natAt (padTo 72 x.bytes) 68 4 = (crc32c ((padTo 72 x.bytes).take 68)).toNat →
      natAt (padTo 72 x.bytes) 64 2 = s.block.cwy.rxNext.toNat →
      ∃ t, exec (.cwyRecordReceive x) s = .next t ∧ Only [.lau, .arb, .hic, .qmg, .cwy, .cwyX, .btn, .dmp, .rpl] s t ∧
        t.block = safetyItem s.block (acceptRecord (padTo 72 x.bytes) { s.block with cwyX := { s.block.cwyX with crcRun := 0 } })) ∧
  (∀ (s : State) (x : CwySlot),
      s.block.cwy.state = .up →
      x.training = false →
      natAt (padTo 72 x.bytes) 68 4 ≠ (crc32c ((padTo 72 x.bytes).take 68)).toNat →
      7 ≤ s.block.cwyX.crcRun →
      ∃ t, exec (.cwyRecordReceive x) s = .next t ∧ Only [.lau, .arb, .hic, .qmg, .cwy, .cwyX, .btn, .dmp, .rpl] s t ∧
        (t.block.cwy.state = (if s.block.cwy.enable = true then LinkState.training else LinkState.disabled)) ∧
        t.block.cwy.lastCause = 3 ∧
        t.block.cwy.outstanding = [] ∧
        t.block.cwy.resetCnt = satInc s.block.cwy.resetCnt ∧
        Raised t.block 33) ∧
  (∀ (s : State) (l : List U8),
      s.block.cwy.state = .up →
      natAt (padTo 18 l) 16 2 ≠ (crc16 ((padTo 18 l).take 16)).toNat →
      7 ≤ s.block.cwyX.creditRun →
      ∃ t, exec (.creditFrameReceive l) s = .next t ∧ Only [.arb, .hic, .qmg, .cwy, .cwyX, .btn, .dmp, .rpl] s t ∧
        (t.block.cwy.state = (if s.block.cwy.enable = true then LinkState.training else LinkState.disabled)) ∧
        t.block.cwy.lastCause = 4 ∧
        t.block.cwy.outstanding = [] ∧
        t.block.cwy.resetCnt = satInc s.block.cwy.resetCnt ∧
        Raised t.block 33) ∧
  (∀ (s : State) (l : List U8),
      s.block.cwy.state = .up →
      natAt (padTo 18 l) 16 2 = (crc16 ((padTo 18 l).take 16)).toNat →
      ∃ t, exec (.creditFrameReceive l) s = .next t ∧ Only [.arb, .hic, .qmg, .cwy, .cwyX, .btn, .dmp, .rpl] s t ∧
        (t.block = safetyItem s.block (takeCredits ((List.range 7).map fun i => natAt (padTo 18 l) (2 + 2 * i) 2) (takeAck (BitVec.ofNat 16 (natAt (padTo 18 l) 0 2)) { s.block with cwyX := { s.block.cwyX with creditRun := 0 } })))) ∧
  (∀ (s : State),
      s.block.cwy.state = .up →
      s.block.cwy.outstanding.length < 256 →
      s.block.cwy.resend = [] →
      nextOutbound s.block = none →
      ∃ t, exec .cwyRecordSend s = .next t ∧ Only [.arb, .hic, .qmg, .cwy, .cwyX, .btn, .dmp, .rpl] s t ∧
        t.block.cwy = s.block.cwy ∧
        t.block.qmg = s.block.qmg) ∧
  (∀ (s : State),
      s.block.cwy.state = .up →
      ∃ t, exec .cwyRecordSend s = .next t ∧ Only [.arb, .hic, .qmg, .cwy, .cwyX, .btn, .dmp, .rpl] s t ∧
        t.block = safetyItem s.block (recordSend s.block)) ∧
  (∀ (s : State) (g : Fin 64) (i : U64),
      (groupOf s.block g).waitSince = some i →
      i.toNat + 10 * tMs ≤ (now s.block).toNat →
      ∃ t, exec (.groupStall g) s = .next t ∧ Only [.tide, .hic, .cwy, .rpl, .prior] s t ∧
        (groupOf t.block g).stalled = true ∧
        (mayRaise s.block (groupOf s.block g).stallIrq tSec = true → Raised t.block 37) ∧
        (∀ k, k ≠ g → groupOf t.block k = groupOf s.block k)) ∧
  (∀ (s : State) (g : Fin 64),
      (groupOf s.block g).waitSince = none →
      ∃ t, exec (.groupStall g) s = .next t ∧ Only [.tide, .hic, .cwy, .rpl, .prior] s t ∧
        t.block.cwy = s.block.cwy ∧
        t.block.hic = s.block.hic)

/-- Under the conditions of its clause each command answers a next state, the queue stays, only the units listed there change, and what follows holds. Each takes place at the next acceptance instant and is answered to its agent. QMG_ALLOC by an agent other than the receiver with a buffer left: one buffer is the agent's, free one less, held one more; with none left it is refused as empty and counted. QMG_ENQUEUE of a buffer not held: refused, owners as they were, the error recorded, source 40; by an agent that may not enqueue there: denied; to an enabled queue below its limit: the buffer at the tail, queued one more, held one less; to a full one that drops nothing: refused and counted, the queue as it was. QMG_DEQUEUE by the consumer: the head is the agent's, the rest stays; of an empty queue refused; by another denied. QMG_FREE with the link down: of a buffer held and charged to none, it is free; of one not held, refused with source 40. While the unit is not ready each is denied. Denied, nothing of the unit but the answer and the acceptance instant changes. The constructors of Instr whose completion it states: qmgAlloc, qmgEnqueue, qmgDequeue, qmgFree. -/
def Obligations.QueueOperations : Prop :=
  (∀ (s : State) (a : Fin 16) (g : Fin 64),
      qmgReady (qAccept s.block) = false →
      ∃ t, exec (.qmgAlloc a g) s = .next t ∧ Only [.tide, .arb, .hic, .qmg, .btn, .dmp, .rpl, .prior] s t ∧
        t.block.qmg = { (qAccept s.block).qmg with answers := vset s.block.qmg.answers a (some (.refused .denied)) }) ∧
  (∀ (s : State) (a : Fin 16) (g : Fin 64),
      qmgReady (qAccept s.block) = true →
      a ≠ agRx →
      freeUnreserved s.block = 0 →
      ∃ t, exec (.qmgAlloc a g) s = .next t ∧ Only [.tide, .arb, .hic, .qmg, .btn, .dmp, .rpl, .prior] s t ∧
        t.block.qmg.answers = vset s.block.qmg.answers a (some (.refused .empty)) ∧
        t.block.qmg.emptyCnt = satInc s.block.qmg.emptyCnt ∧
        t.block.qmg.owners = s.block.qmg.owners ∧
        t.block.qmg.cntFree = s.block.qmg.cntFree) ∧
  (∀ (s : State) (a : Fin 16) (g : Fin 64),
      qmgReady (qAccept s.block) = true →
      a ≠ agRx →
      freeUnreserved s.block ≠ 0 →
      ∃ t, exec (.qmgAlloc a g) s = .next t ∧ Only [.tide, .arb, .hic, .qmg, .btn, .dmp, .rpl, .prior] s t ∧
        t.block.qmg.cntFree = s.block.qmg.cntFree - 1 ∧
        t.block.qmg.cntHeld = s.block.qmg.cntHeld + 1 ∧
        t.block.qmg.cntQueued = s.block.qmg.cntQueued ∧
        (∃ u, t.block.qmg.owners = sput .free s.block.qmg.owners u (.agent a) ∧ t.block.qmg.answers = vset s.block.qmg.answers a (some (.buffer u)))) ∧
  (∀ (s : State) (a : Fin 16) (q : Fin 32768) (u : Fin 131072),
      qmgReady (qAccept s.block) = true →
      ownerOf s.block u.val ≠ .agent a →
      ∃ t, exec (.qmgEnqueue a q u) s = .next t ∧ Only [.tide, .lau, .arb, .hic, .qmg, .cwy, .cwyX, .btn, .dmp, .rpl, .prior] s t ∧
        t.block.qmg.answers = vset s.block.qmg.answers a (some (.refused .ownership)) ∧
        t.block.qmg.owners = s.block.qmg.owners ∧
        t.block.qmg.errBuffer = BitVec.ofNat 17 u.val ∧
        t.block.qmg.errAgent = BitVec.ofNat 4 a.val ∧
        t.block.qmg.errOp = true ∧
        t.block.qmg.ownErrCnt = satInc s.block.qmg.ownErrCnt ∧
        Raised t.block 40) ∧
  (∀ (s : State) (a : Fin 16) (q : Fin 32768) (u : Fin 131072),
      qmgReady (qAccept s.block) = true →
      mayEnqueue a q.val (qOf s.block q.val) = true →
      ownerOf s.block u.val = .agent a →
      (qOf s.block q.val).enabled = true →
      (qOf s.block q.val).bufs.length < (qOf s.block q.val).limit.toNat →
      ∃ t, exec (.qmgEnqueue a q u) s = .next t ∧ Only [.tide, .lau, .arb, .hic, .qmg, .cwy, .cwyX, .btn, .dmp, .rpl, .prior] s t ∧
        t.block.qmg.answers = vset s.block.qmg.answers a (some (.done)) ∧
        (qOf t.block q.val).bufs = (qOf s.block q.val).bufs ++ [u.val] ∧
        ownerOf t.block u.val = .queue q.val ∧
        t.block.qmg.cntQueued = s.block.qmg.cntQueued + 1 ∧
        t.block.qmg.cntHeld = s.block.qmg.cntHeld - 1) ∧
  (∀ (s : State) (a : Fin 16) (q : Fin 32768) (u : Fin 131072),
      qmgReady (qAccept s.block) = true →
      mayEnqueue a q.val (qOf s.block q.val) = true →
      ownerOf s.block u.val = .agent a →
      (qOf s.block q.val).enabled = true →
      (qOf s.block q.val).limit ≠ 0 →
      (qOf s.block q.val).limit.toNat ≤ (qOf s.block q.val).bufs.length →
      (qOf s.block q.val).dropOldest = false →
      ∃ t, exec (.qmgEnqueue a q u) s = .next t ∧ Only [.tide, .lau, .arb, .hic, .qmg, .cwy, .cwyX, .btn, .dmp, .rpl, .prior] s t ∧
        t.block.qmg.answers = vset s.block.qmg.answers a (some (.refused .full)) ∧
        (qOf t.block q.val).bufs = (qOf s.block q.val).bufs ∧
        t.block.qmg.owners = s.block.qmg.owners ∧
        (qOf t.block q.val).refused = satInc (qOf s.block q.val).refused ∧
        t.block.qmg.fullCnt = satInc s.block.qmg.fullCnt) ∧
  (∀ (s : State) (a : Fin 16) (q : Fin 32768) (u : Nat) (l : List Nat),
      qmgReady (qAccept s.block) = true →
      isConsumer q.val (qOf s.block q.val) a = true →
      (qOf s.block q.val).bufs = u :: l →
      ∃ t, exec (.qmgDequeue a q) s = .next t ∧ Only [.tide, .arb, .hic, .qmg, .cwy, .btn, .dmp, .rpl, .prior] s t ∧
        t.block.qmg.answers = vset s.block.qmg.answers a (some (.buffer u)) ∧
        ownerOf t.block u = .agent a ∧
        (qOf t.block q.val).bufs = l ∧
        t.block.qmg.cntQueued = s.block.qmg.cntQueued - 1 ∧
        t.block.qmg.cntHeld = s.block.qmg.cntHeld + 1) ∧
  (∀ (s : State) (a : Fin 16) (q : Fin 32768),
      isConsumer q.val (qOf s.block q.val) a = false →
      ∃ t, exec (.qmgDequeue a q) s = .next t ∧ Only [.tide, .arb, .hic, .qmg, .cwy, .btn, .dmp, .rpl, .prior] s t ∧
        t.block.qmg = { (qAccept s.block).qmg with answers := vset s.block.qmg.answers a (some (.refused .denied)) }) ∧
  (∀ (s : State) (a : Fin 16) (u : Fin 131072),
      qmgReady (qAccept s.block) = true →
      ownerOf s.block u.val ≠ .agent a →
      s.block.cwy.state ≠ .up →
      ∃ t, exec (.qmgFree a u) s = .next t ∧ Only [.tide, .arb, .hic, .qmg, .cwy, .cwyX, .btn, .dmp, .rpl, .prior] s t ∧
        t.block.qmg.answers = vset s.block.qmg.answers a (some (.refused .ownership)) ∧
        t.block.qmg.owners = s.block.qmg.owners ∧
        t.block.qmg.errBuffer = BitVec.ofNat 17 u.val ∧
        t.block.qmg.errOp = false ∧
        t.block.qmg.ownErrCnt = satInc s.block.qmg.ownErrCnt ∧
        Raised t.block 40) ∧
  (∀ (s : State) (a : Fin 16) (u : Fin 131072),
      qmgReady (qAccept s.block) = true →
      ownerOf s.block u.val = .agent a →
      s.block.cwy.state ≠ .up →
      sget 0 s.block.qmg.charged u.val = 0 →
      ∃ t, exec (.qmgFree a u) s = .next t ∧ Only [.tide, .arb, .hic, .qmg, .cwy, .cwyX, .btn, .dmp, .rpl, .prior] s t ∧
        t.block.qmg.answers = vset s.block.qmg.answers a (some (.done)) ∧
        t.block.qmg.owners = sput .free s.block.qmg.owners u.val .free ∧
        t.block.qmg.cntFree = s.block.qmg.cntFree + 1 ∧
        t.block.qmg.cntHeld = s.block.qmg.cntHeld - 1) ∧
  (∀ (s : State) (a : Fin 16) (g : Fin 64),
      ∃ t, exec (.qmgAlloc a g) s = .next t ∧ Only [.tide, .arb, .hic, .qmg, .btn, .dmp, .rpl, .prior] s t ∧
        t.block = safetyItem s.block (qmgAlloc a g (qAccept s.block))) ∧
  (∀ (s : State) (a : Fin 16) (q : Fin 32768) (u : Fin 131072),
      ∃ t, exec (.qmgEnqueue a q u) s = .next t ∧ Only [.tide, .lau, .arb, .hic, .qmg, .cwy, .cwyX, .btn, .dmp, .rpl, .prior] s t ∧
        t.block = safetyItem s.block (qmgEnqueue a q.val u.val (qAccept s.block))) ∧
  (∀ (s : State) (a : Fin 16) (q : Fin 32768),
      ∃ t, exec (.qmgDequeue a q) s = .next t ∧ Only [.tide, .arb, .hic, .qmg, .cwy, .btn, .dmp, .rpl, .prior] s t ∧
        t.block = safetyItem s.block (qmgDequeue a q.val (qAccept s.block))) ∧
  (∀ (s : State) (a : Fin 16) (u : Fin 131072),
      ∃ t, exec (.qmgFree a u) s = .next t ∧ Only [.tide, .arb, .hic, .qmg, .cwy, .cwyX, .btn, .dmp, .rpl, .prior] s t ∧
        t.block = safetyItem s.block (qmgFree a u.val (qAccept s.block))) ∧
  (∀ (s : State) (a : Fin 16) (q : Fin 32768) (u : Fin 131072),
      qmgReady (qAccept s.block) = false →
      ∃ t, exec (.qmgEnqueue a q u) s = .next t ∧ Only [.tide, .lau, .arb, .hic, .qmg, .cwy, .cwyX, .btn, .dmp, .rpl, .prior] s t ∧
        t.block.qmg = { (qAccept s.block).qmg with answers := vset s.block.qmg.answers a (some (.refused .denied)) }) ∧
  (∀ (s : State) (a : Fin 16) (u : Fin 131072),
      qmgReady (qAccept s.block) = false →
      ∃ t, exec (.qmgFree a u) s = .next t ∧ Only [.tide, .arb, .hic, .qmg, .cwy, .cwyX, .btn, .dmp, .rpl, .prior] s t ∧
        t.block.qmg = { (qAccept s.block).qmg with answers := vset s.block.qmg.answers a (some (.refused .denied)) }) ∧
  (∀ (s : State) (a : Fin 16) (q : Fin 32768),
      qmgReady (qAccept s.block) = true →
      isConsumer q.val (qOf s.block q.val) a = true →
      (qOf s.block q.val).bufs = [] →
      ∃ t, exec (.qmgDequeue a q) s = .next t ∧ Only [.tide, .arb, .hic, .qmg, .cwy, .btn, .dmp, .rpl, .prior] s t ∧
        t.block.qmg.answers = vset s.block.qmg.answers a (some (.refused .empty)) ∧
        t.block.qmg.queues = s.block.qmg.queues) ∧
  (∀ (s : State) (a : Fin 16) (q : Fin 32768) (u : Fin 131072),
      qmgReady (qAccept s.block) = true →
      mayEnqueue a q.val (qOf s.block q.val) = false →
      ownerOf s.block u.val = .agent a →
      ∃ t, exec (.qmgEnqueue a q u) s = .next t ∧ Only [.tide, .lau, .arb, .hic, .qmg, .cwy, .cwyX, .btn, .dmp, .rpl, .prior] s t ∧
        t.block.qmg = { (qAccept s.block).qmg with answers := vset s.block.qmg.answers a (some (.refused .denied)) })

/-- Under the conditions of its clause each command answers a next state, the queue stays, only the units listed there change, and what follows holds. Each command executes a request of its opcode while Sedge runs. CWY_SET_LINK with a timeout of 2 to 100 starts a disabled link in training or stops an enabled one with cause 1; out of range it answers 0x0F02. CWY_GET_STATUS, CWY_GET_GROUP of a group, QMG_GET_QUEUE of a record queue and QMG_GET_POOL return state. CWY_RESET_LINK with no mailbox waiting: a reset with cause 1, counted, source 33, the mailbox waits; with one waiting the link stays. CWY_SET_GROUP with the link disabled and the pool sufficient: the reservation; group 64 or above answers 0x0F01. QMG_SET_QUEUE of an empty disabled record queue to inbound and enabled for the host: its descriptor; of another queue it answers 6. QMG_FLUSH of an enabled queue answers 0x0F04 and empties nothing, of a disabled one it answers the number of its buffers. QMG_SET_LOW_WATER to 131,072 sets the mark and compares, above it answers 0x0F02. CWY_QMG_CLEAR of the link alone: its counts 0, what is outstanding and the queue manager as they were. The constructors of Instr whose completion it states: cwySetLink, cwyGetStatus, cwyResetLink, cwySetGroup, cwyGetGroup, qmgSetQueue, qmgGetQueue, qmgFlush, qmgGetPool, qmgSetLowWater, cwyQmgClear. -/
def Obligations.CausewayCommands : Prop :=
  (∀ (s : State) (m : Fin 4),
      Asked s m 0x0F01 .sedge →
      2 ≤ (rB s.block m 2).toNat →
      (rB s.block m 2).toNat ≤ 100 →
      rBit s.block m 0 0 = true →
      s.block.cwy.enable = false →
      ∃ t, exec (.cwySetLink m) s = .next t ∧ Only [.pea, .arb, .mbx, .hic, .cwy, .cwyX, .rpl] s t ∧
        Answered s t m 0 ([]) ∧
        t.block.cwy.ackTimeout = BitVec.ofNat 7 (rB s.block m 2).toNat ∧
        t.block.cwy.enable = true ∧
        t.block.cwy.state = .training ∧
        t.block.cwyX.trainingAt = now s.block) ∧
  (∀ (s : State) (m : Fin 4),
      Asked s m 0x0F01 .sedge →
      2 ≤ (rB s.block m 2).toNat →
      (rB s.block m 2).toNat ≤ 100 →
      rBit s.block m 0 0 = false →
      s.block.cwy.enable = true →
      ∃ t, exec (.cwySetLink m) s = .next t ∧ Only [.pea, .arb, .mbx, .hic, .cwy, .cwyX, .rpl] s t ∧
        Answered s t m 0 ([]) ∧
        t.block.cwy.enable = false ∧
        t.block.cwy.state = .disabled ∧
        t.block.cwy.lastCause = 1) ∧
  (∀ (s : State) (m : Fin 4),
      Asked s m 0x0F01 .sedge →
      ((rB s.block m 2).toNat < 2 ∨ 100 < (rB s.block m 2).toNat) →
      ∃ t, exec (.cwySetLink m) s = .next t ∧ Only [.pea, .arb, .mbx, .hic, .cwy, .cwyX, .rpl] s t ∧
        Answered s t m 0x0F02 ([]) ∧
        t.block.cwy = s.block.cwy) ∧
  (∀ (s : State) (m : Fin 4),
      Asked s m 0x0F02 .sedge →
      ∃ t, exec (.cwyGetStatus m) s = .next t ∧ Only [.mbx, .rpl] s t ∧
        (Answered s t m 0 (b32s ((List.range 16).map fun i => cwyWord s.block (0x9C0 + i))))) ∧
  (∀ (s : State) (m : Fin 4),
      Asked s m 0x0F03 .sedge →
      s.block.cwyX.resetMbx = none →
      ∃ t, exec (.cwyResetLink m) s = .next t ∧ Only [.mbx, .hic, .cwy, .cwyX, .rpl] s t ∧
        t.block.cwyX.resetMbx = some m ∧
        t.block.cwy.lastCause = 1 ∧
        t.block.cwy.resetCnt = satInc s.block.cwy.resetCnt ∧
        Raised t.block 33) ∧
  (∀ (s : State) (m : Fin 4),
      Asked s m 0x0F03 .sedge →
      s.block.cwyX.resetMbx ≠ none →
      ∃ t, exec (.cwyResetLink m) s = .next t ∧ Only [.mbx, .hic, .cwy, .cwyX, .rpl] s t ∧
        t.block.cwy = s.block.cwy ∧
        t.block.cwyX = s.block.cwyX) ∧
  (∀ (s : State) (m : Fin 4),
      Asked s m 0x0F04 .sedge →
      (rB s.block m 0).toNat ≤ 63 →
      rN s.block m 2 2 ≤ 512 →
      s.block.cwy.state = .disabled →
      reservedSum s.block - (groupOf s.block (reqGroup s.block m 0)).reservation + rN s.block m 2 2 ≤ 16384 →
      rN s.block m 2 2 - (groupOf s.block (reqGroup s.block m 0)).reservation ≤ freeUnreserved s.block →
      ∃ t, exec (.cwySetGroup m) s = .next t ∧ Only [.pea, .arb, .mbx, .hic, .qmg, .cwy, .btn, .rpl] s t ∧
        (groupOf t.block (reqGroup s.block m 0)).reservation = rN s.block m 2 2) ∧
  (∀ (s : State) (m : Fin 4),
      Asked s m 0x0F04 .sedge →
      64 ≤ (rB s.block m 0).toNat →
      ∃ t, exec (.cwySetGroup m) s = .next t ∧ Only [.pea, .arb, .mbx, .hic, .qmg, .cwy, .btn, .rpl] s t ∧
        Answered s t m 0x0F01 ([]) ∧
        t.block.cwy = s.block.cwy) ∧
  (∀ (s : State) (m : Fin 4),
      Asked s m 0x0F05 .sedge →
      (rB s.block m 0).toNat ≤ 63 →
      ∃ t, exec (.cwyGetGroup m) s = .next t ∧ Only [.mbx, .rpl] s t ∧
        Answered s t m 0 (leBytes 2 (groupOf s.block (reqGroup s.block m 0)).reservation ++ leBytes 2 (freeReserved s.block (reqGroup s.block m 0)) ++ leBytes 2 (creditOf (groupOf s.block (reqGroup s.block m 0))) ++ leBytes 2 ((groupOf s.block (reqGroup s.block m 0)).granted - (groupOf s.block (reqGroup s.block m 0)).received).toNat ++ b32 (groupOf s.block (reqGroup s.block m 0)).sentCnt ++ b32 (groupOf s.block (reqGroup s.block m 0)).recvCnt ++ [BitVec.ofNat 8 (b2n (groupOf s.block (reqGroup s.block m 0)).stalled)])) ∧
  (∀ (s : State) (m : Fin 4),
      Asked s m 0x0F06 .sedge →
      queueOk (rN s.block m 0 2) false = true →
      (rB s.block m 4).toNat ≤ 63 →
      rBit s.block m 2 1 = true →
      rBit s.block m 2 2 = true →
      rB s.block m 3 = 0x10 →
      (qOf s.block (rN s.block m 0 2)).bufs = [] →
      (qOf s.block (rN s.block m 0 2)).enabled = false →
      ∃ t, exec (.qmgSetQueue m) s = .next t ∧ Only [.pea, .arb, .mbx, .hic, .qmg, .btn, .rpl] s t ∧
        Answered s t m 0 ([]) ∧
        (qOf t.block (rN s.block m 0 2)).enabled = true ∧
        (qOf t.block (rN s.block m 0 2)).inbound = true ∧
        (qOf t.block (rN s.block m 0 2)).consumer = 0x10 ∧
        (qOf t.block (rN s.block m 0 2)).group = rB s.block m 4 ∧
        (qOf t.block (rN s.block m 0 2)).limit = r16 s.block m 6 ∧
        (qOf t.block (rN s.block m 0 2)).nextSeq = 0) ∧
  (∀ (s : State) (m : Fin 4),
      Asked s m 0x0F06 .sedge →
      queueOk (rN s.block m 0 2) false = false →
      ∃ t, exec (.qmgSetQueue m) s = .next t ∧ Only [.pea, .arb, .mbx, .hic, .qmg, .btn, .rpl] s t ∧
        Answered s t m 6 ([]) ∧
        t.block.qmg = s.block.qmg) ∧
  (∀ (s : State) (m : Fin 4),
      Asked s m 0x0F07 .sedge →
      queueOk (rN s.block m 0 2) false = true →
      ∃ t, exec (.qmgGetQueue m) s = .next t ∧ Only [.mbx, .rpl] s t ∧
        Answered s t m 0 (descriptor s.block (rN s.block m 0 2) ++ b32 (qOf s.block (rN s.block m 0 2)).drops ++ b32 (qOf s.block (rN s.block m 0 2)).refused)) ∧
  (∀ (s : State) (m : Fin 4),
      Asked s m 0x0F08 .sedge →
      queueOk (rN s.block m 0 2) false = true →
      (qOf s.block (rN s.block m 0 2)).enabled = true →
      ∃ t, exec (.qmgFlush m) s = .next t ∧ Only [.pea, .arb, .mbx, .hic, .qmg, .cwy, .cwyX, .btn, .dmp, .rpl] s t ∧
        Answered s t m 0x0F04 ([]) ∧
        t.block.qmg.queues = s.block.qmg.queues) ∧
  (∀ (s : State) (m : Fin 4),
      Asked s m 0x0F08 .sedge →
      queueOk (rN s.block m 0 2) false = true →
      (qOf s.block (rN s.block m 0 2)).enabled = false →
      ∃ t, exec (.qmgFlush m) s = .next t ∧ Only [.pea, .arb, .mbx, .hic, .qmg, .cwy, .cwyX, .btn, .dmp, .rpl] s t ∧
        Answered s t m 0 (leBytes 4 (qOf s.block (rN s.block m 0 2)).bufs.length)) ∧
  (∀ (s : State) (m : Fin 4),
      Asked s m 0x0F09 .sedge →
      ∃ t, exec (.qmgGetPool m) s = .next t ∧ Only [.mbx, .rpl] s t ∧
        (Answered s t m 0 (b32s ((List.range 16).map (fun i => qmgWord s.block (0xA00 + i)) ++ (List.range 16).map fun i => qmgWord s.block (0xA20 + i))))) ∧
  (∀ (s : State) (m : Fin 4),
      Asked s m 0x0F0A .sedge →
      rN s.block m 0 4 ≤ 131072 →
      ∃ t, exec (.qmgSetLowWater m) s = .next t ∧ Only [.pea, .arb, .mbx, .hic, .qmg, .rpl] s t ∧
        Answered s t m 0 ([]) ∧
        t.block.qmg.lowWater = BitVec.ofNat 18 (rN s.block m 0 4) ∧
        t.block.qmg.low = decide (freeUnreserved s.block < (BitVec.ofNat 18 (rN s.block m 0 4)).toNat)) ∧
  (∀ (s : State) (m : Fin 4),
      Asked s m 0x0F0A .sedge →
      131072 < rN s.block m 0 4 →
      ∃ t, exec (.qmgSetLowWater m) s = .next t ∧ Only [.pea, .arb, .mbx, .hic, .qmg, .rpl] s t ∧
        Answered s t m 0x0F02 ([]) ∧
        t.block.qmg = s.block.qmg) ∧
  (∀ (s : State) (m : Fin 4),
      Asked s m 0x0F0B .sedge →
      rBit s.block m 0 0 = true →
      rBit s.block m 0 1 = false →
      ∃ t, exec (.cwyQmgClear m) s = .next t ∧ Only [.mbx, .qmg, .cwy, .rpl] s t ∧
        Answered s t m 0 ([]) ∧
        t.block.cwy.txRec = 0 ∧
        t.block.cwy.rxRec = 0 ∧
        t.block.cwy.resetCnt = 0 ∧
        t.block.cwy.outstanding = s.block.cwy.outstanding ∧
        t.block.qmg = s.block.qmg)

/-- Under the conditions of its clause each command answers a next state, the queue stays, only the units listed there change, and what follows holds. EXTCOMIN_TOGGLE of a port not enabled or before Tide: low; enabled at its instant: toggled. PANEL_PASS_END: the pass is over and counted, source 448 when asked; with none nothing. PANEL_BIAS_FAULT, outside replay, faults the enabled ports of its half, the frames staying when no drawing waits. STRIP_REDRAW draws the strip; with Carr down nothing. NFC_PING, outside replay, of a reader that detects, at its instant: in a busy group only noted; below the threshold the base moves; at it the poll begins with the sample kept, the other readers as they were; of another reader nothing. CARD_RESOLVED of a fitting card in a poll after the guard time: recorded, counted; else nothing. PRESENCE_CHECK counts failures, the third removes card and field. FIELD_RELEASE starts the poll first waiting, with a field or none nothing. NFC_TX_FAULT: fault, no field, source 458. FALSE_WAKE_UP: counted, no field, the base the sample of the ping. The commands serve requests for a port below 8. PNL_DRAW of one pixel and PNL_FILL within columns and rows draw, out of them they answer 0x1001 or 0x1002 and draw nothing. PNL_FLUSH answers at once without dirty lines, else waits. PNL_SET_CONFIG with height and connector as they are, PNL_LOAD_GAMMA, NFC_SET_CONFIG to enabled set values. PNL_GET_STATUS returns state. NFC_POLL answers the card, begins a poll or waits for it. NFC_TRANSCEIVE answers as the card does. NFC_RELEASE ends the field, without a card 0x1102. The CLEAR_COUNTS clear the counts of the ports named. The constructors of Instr whose completion it states: extcominToggle, panelPassEnd, panelBiasFault, stripRedraw, nfcPing, cardResolved, presenceCheck, fieldRelease, nfcTxFault, falseWakeUp, pnlSetConfig, pnlLoadGamma, pnlDraw, pnlFill, pnlFlush, pnlGetStatus, pnlClearCounts, nfcSetConfig, nfcPoll, nfcTransceive, nfcRelease, nfcClearCounts. -/
def Obligations.PanelsAndReaders : Prop :=
  (∀ (s : State) (p : Fin 8),
      ((pnlOf s.block p).enable = false ∨ s.block.tide.ready = false) →
      ∃ t, exec (.extcominToggle p) s = .next t ∧ Only [.tide, .mbx, .pnl, .rpl, .prior] s t ∧
        (t.block.pnl = vupd s.block.pnl p fun x => { x with extcomin := false })) ∧
  (∀ (s : State) (p : Fin 8),
      (pnlOf s.block p).enable = true →
      s.block.tide.ready = true →
      toggleAt s.block p ≤ (now s.block).toNat →
      (pnlOf s.block p).passPending = false →
      ∃ t, exec (.extcominToggle p) s = .next t ∧ Only [.tide, .mbx, .pnl, .rpl, .prior] s t ∧
        (t.block.pnl = vupd s.block.pnl p fun x => { x with extcomin := !x.extcomin, extAt := now s.block })) ∧
  (∀ (s : State) (p : Fin 8) (i : U64),
      (pnlOf s.block p).passUntil = some i →
      i.toNat ≤ (now s.block).toNat →
      (pnlOf s.block p).waiting = [] →
      ∃ t, exec (.panelPassEnd p) s = .next t ∧ Only [.tide, .mbx, .hic, .pnl, .frames, .rpl, .prior] s t ∧
        (pnlOf t.block p).passUntil = none ∧
        (pnlOf t.block p).passLines = [] ∧
        (pnlOf t.block p).passCnt = satInc (pnlOf s.block p).passCnt ∧
        ((pnlOf s.block p).passIrq = true → Raised t.block 448)) ∧
  (∀ (s : State) (p : Fin 8),
      (pnlOf s.block p).passUntil = none →
      ∃ t, exec (.panelPassEnd p) s = .next t ∧ Only [.tide, .mbx, .hic, .pnl, .frames, .rpl, .prior] s t ∧
        t.block.pnl = s.block.pnl ∧
        t.block.frames = s.block.frames) ∧
  (∀ (s : State) (half : Fin 2),
      s.block.rpl.mode = false →
      ∃ t, exec (.panelBiasFault half) s = .next t ∧ Only [.mbx, .hic, .pnl, .frames, .rpl] s t ∧
        (∀ p : Fin 8, (pnlOf t.block p).fault = ((pnlOf s.block p).fault || ((pnlOf s.block p).enable && p.val / 4 == half.val))) ∧
        ((∀ p : Fin 8, (pnlOf s.block p).waiting = []) → t.block.frames = s.block.frames)) ∧
  (∀ (s : State) (half : Fin 2),
      s.block.rpl.mode = false →
      ∃ t, exec (.panelBiasFault half) s = .next t ∧ Only [.mbx, .hic, .pnl, .frames, .rpl] s t ∧
        t.block = safetyItem s.block (panelBiasFault half s.block)) ∧
  (∀ (s : State) (p : Fin 8),
      ∃ t, exec (.panelPassEnd p) s = .next t ∧ Only [.tide, .mbx, .hic, .pnl, .frames, .rpl, .prior] s t ∧
        t.block = safetyItem s.block (panelPassEnd p s.block)) ∧
  (∀ (s : State) (p : Fin 8),
      ∃ t, exec (.extcominToggle p) s = .next t ∧ Only [.tide, .mbx, .pnl, .rpl, .prior] s t ∧
        t.block = safetyItem s.block (extcominToggle p s.block)) ∧
  (∀ (s : State) (p : Fin 8),
      s.block.rst.carr = true →
      (pnlOf s.block p).fault = true →
      ∃ t, exec (.stripRedraw p) s = .next t ∧ Only [.mbx, .hic, .pnl, .frames, .rpl] s t ∧
        t.block = safetyItem s.block (redrawStrip p s.block)) ∧
  (∀ (s : State) (p : Fin 8),
      s.block.rst.carr = true →
      (pnlOf s.block p).fault = false →
      ∃ t, exec (.stripRedraw p) s = .next t ∧ Only [.mbx, .hic, .pnl, .frames, .rpl] s t ∧
        (t.block = safetyItem s.block (draw' p { x := 0, y := panelRows (pnlOf s.block p) - 32, rows := stripRows s.block p, flush := true } (updPnl p (fun k => { k with stripAt := now s.block }) s.block)))) ∧
  (∀ (s : State) (p : Fin 8),
      s.block.rst.carr = false →
      ∃ t, exec (.stripRedraw p) s = .next t ∧ Only [.mbx, .hic, .pnl, .frames, .rpl] s t ∧
        t.block.pnl = s.block.pnl ∧
        t.block.frames = s.block.frames) ∧
  (∀ (s : State) (r : Fin 8) (i q : BitVec 16),
      s.block.rpl.mode = false →
      detecting (nfcOf s.block r) = true →
      pingAt s.block r ≤ (now s.block).toNat →
      groupBusy s.block r = true →
      ∃ t, exec (.nfcPing r i q) s = .next t ∧ Only [.tide, .nfc, .rpl, .prior] s t ∧
        (t.block.nfc = vupd s.block.nfc r fun y => { y with lastPing := some (now s.block) })) ∧
  (∀ (s : State) (r : Fin 8) (i q : BitVec 16),
      s.block.rpl.mode = false →
      detecting (nfcOf s.block r) = true →
      pingAt s.block r ≤ (now s.block).toNat →
      groupBusy s.block r = false →
      detuning (nfcOf s.block r).base ⟨i, q⟩ < (nfcOf s.block r).lpcdThr →
      ∃ t, exec (.nfcPing r i q) s = .next t ∧ Only [.tide, .nfc, .rpl, .prior] s t ∧
        (t.block.nfc = vupd s.block.nfc r fun y => { y with lastPing := some (now s.block), lastD := detuning y.base ⟨i, q⟩, radiated := some (now s.block), base := moveBaseline y.base ⟨i, q⟩ })) ∧
  (∀ (s : State) (r : Fin 8) (i q : BitVec 16),
      s.block.rpl.mode = false →
      detecting (nfcOf s.block r) = true →
      pingAt s.block r ≤ (now s.block).toNat →
      groupBusy s.block r = false →
      (nfcOf s.block r).lpcdThr ≤ detuning (nfcOf s.block r).base ⟨i, q⟩ →
      ∃ t, exec (.nfcPing r i q) s = .next t ∧ Only [.tide, .nfc, .rpl, .prior] s t ∧
        (nfcOf t.block r).polling = true ∧
        (nfcOf t.block r).field = true ∧
        (nfcOf t.block r).pinged = some ⟨i, q⟩ ∧
        (nfcOf t.block r).pollAt = now s.block ∧
        (nfcOf t.block r).lastD = detuning (nfcOf s.block r).base ⟨i, q⟩ ∧
        (∀ k, k ≠ r → nfcOf t.block k = nfcOf s.block k)) ∧
  (∀ (s : State) (r : Fin 8) (i q : BitVec 16),
      detecting (nfcOf s.block r) = false →
      ∃ t, exec (.nfcPing r i q) s = .next t ∧ Only [.tide, .nfc, .rpl, .prior] s t ∧
        t.block.nfc = s.block.nfc) ∧
  (∀ (s : State) (r : Fin 8) (c : CardInfo),
      ((nfcOf s.block r).polling = false ∨ cardFits (nfcOf s.block r) c = false) →
      ∃ t, exec (.cardResolved r c) s = .next t ∧ Only [.tide, .lau, .arb, .mbx, .hic, .qmg, .cwy, .cwyX, .nfc, .btn, .dmp, .rpl, .prior] s t ∧
        t.block.nfc = s.block.nfc) ∧
  (∀ (s : State) (r : Fin 8) (c : CardInfo),
      s.block.rpl.mode = false →
      (nfcOf s.block r).polling = true →
      cardFits (nfcOf s.block r) c = true →
      (nfcOf s.block r).pollAt.toNat + guardTime ≤ (now s.block).toNat →
      ∃ t, exec (.cardResolved r c) s = .next t ∧ Only [.tide, .lau, .arb, .mbx, .hic, .qmg, .cwy, .cwyX, .nfc, .btn, .dmp, .rpl, .prior] s t ∧
        (nfcOf t.block r).card = true ∧
        (nfcOf t.block r).polling = false ∧
        (nfcOf t.block r).cardRec = b64 (now s.block) ++ cardBytes r (nfcOf s.block r).connector c ∧
        (nfcOf t.block r).resolved = satAdd (nfcOf s.block r).resolved 1 ∧
        (nfcOf t.block r).presenceFails = 0) ∧
  (∀ (s : State) (r : Fin 8) (answered : Bool),
      (nfcOf s.block r).card = false →
      ∃ t, exec (.presenceCheck r answered) s = .next t ∧ Only [.tide, .lau, .arb, .hic, .qmg, .cwy, .cwyX, .nfc, .btn, .dmp, .rpl, .prior] s t ∧
        t.block.nfc = s.block.nfc) ∧
  (∀ (s : State) (r : Fin 8) (answered : Bool),
      s.block.rpl.mode = false →
      (nfcOf s.block r).card = true →
      (nfcOf s.block r).lastPresence.toNat + 300000000 ≤ (now s.block).toNat →
      (answered = true ∨ (nfcOf s.block r).presenceFails < 2) →
      ∃ t, exec (.presenceCheck r answered) s = .next t ∧ Only [.tide, .lau, .arb, .hic, .qmg, .cwy, .cwyX, .nfc, .btn, .dmp, .rpl, .prior] s t ∧
        ((nfcOf t.block r).presenceFails = if answered = true then 0 else (nfcOf s.block r).presenceFails + 1) ∧
        (nfcOf t.block r).card = true ∧
        (nfcOf t.block r).lastPresence = now s.block) ∧
  (∀ (s : State) (r : Fin 8) (answered : Bool),
      s.block.rpl.mode = false →
      (nfcOf s.block r).card = true →
      (nfcOf s.block r).lastPresence.toNat + 300000000 ≤ (now s.block).toNat →
      answered = false →
      2 ≤ (nfcOf s.block r).presenceFails →
      ∃ t, exec (.presenceCheck r answered) s = .next t ∧ Only [.tide, .lau, .arb, .hic, .qmg, .cwy, .cwyX, .nfc, .btn, .dmp, .rpl, .prior] s t ∧
        (nfcOf t.block r).card = false ∧
        (nfcOf t.block r).field = false) ∧
  (∀ (s : State) (r : Fin 8),
      (nfcOf s.block r).field = true →
      ∃ t, exec (.fieldRelease r) s = .next t ∧ Only [.nfc, .rpl] s t ∧
        t.block.nfc = s.block.nfc) ∧
  (∀ (s : State) (r : Fin 8) (k : Fin 8),
      (nfcOf s.block r).field = false →
      firstWaiting s.block (nfcOf s.block r).fieldGroup = some k →
      ∃ t, exec (.fieldRelease r) s = .next t ∧ Only [.nfc, .rpl] s t ∧
        t.block = safetyItem s.block (pollStart k s.block)) ∧
  (∀ (s : State) (r : Fin 8),
      s.block.rpl.mode = false →
      (nfcOf s.block r).field = true →
      ∃ t, exec (.nfcTxFault r) s = .next t ∧ Only [.mbx, .hic, .nfc, .rpl] s t ∧
        (nfcOf t.block r).fault = true ∧
        (nfcOf t.block r).field = false ∧
        (nfcOf t.block r).card = false ∧
        (nfcOf t.block r).pollMbx = none ∧
        Raised t.block 458) ∧
  (∀ (s : State) (r : Fin 8),
      (nfcOf s.block r).field = false →
      ∃ t, exec (.nfcTxFault r) s = .next t ∧ Only [.mbx, .hic, .nfc, .rpl] s t ∧
        t.block.nfc = s.block.nfc) ∧
  (∀ (s : State) (r : Fin 8),
      (nfcOf s.block r).polling = false →
      ∃ t, exec (.falseWakeUp r) s = .next t ∧ Only [.tide, .mbx, .nfc, .rpl, .prior] s t ∧
        t.block.nfc = s.block.nfc) ∧
  (∀ (s : State) (r : Fin 8),
      firstWaiting s.block (nfcOf s.block r).fieldGroup = none →
      ∃ t, exec (.fieldRelease r) s = .next t ∧ Only [.nfc, .rpl] s t ∧
        t.block.nfc = s.block.nfc) ∧
  (∀ (s : State) (r : Fin 8),
      s.block.rpl.mode = false →
      (nfcOf s.block r).polling = true →
      (nfcOf s.block r).pollAt.toNat + guardTime ≤ (now s.block).toNat →
      ∃ t, exec (.falseWakeUp r) s = .next t ∧ Only [.tide, .mbx, .nfc, .rpl, .prior] s t ∧
        (nfcOf t.block r).polling = false ∧
        (nfcOf t.block r).falseWake = satAdd (nfcOf s.block r).falseWake 1 ∧
        (nfcOf t.block r).field = false ∧
        (nfcOf t.block r).base = (nfcOf s.block r).pinged.getD (nfcOf s.block r).base) ∧
  (∀ (s : State) (m : Fin 4),
      Asked s m 0x1001 .sedge →
      rN s.block m 0 1 < 8 →
      pnlCfgOk (rN s.block m 4 4) = true →
      BitVec.ofNat 6 (fieldOf (rN s.block m 4 4) 2 6) = (pnlOf s.block (reqPort s.block m)).height →
      BitVec.ofNat 5 (fieldOf (rN s.block m 4 4) 13 5) = (pnlOf s.block (reqPort s.block m)).connector →
      ∃ t, exec (.pnlSetConfig m) s = .next t ∧ Only [.pea, .arb, .mbx, .hic, .pnl, .frames, .rpl] s t ∧
        Answered s t m 0 ([]) ∧
        (pnlOf t.block (reqPort s.block m)).dither = bitOf (rN s.block m 4 4) 0 ∧
        (pnlOf t.block (reqPort s.block m)).passIrq = bitOf (rN s.block m 4 4) 1 ∧
        (pnlOf t.block (reqPort s.block m)).sck = BitVec.ofNat 5 (fieldOf (rN s.block m 4 4) 8 5) ∧
        (pnlOf t.block (reqPort s.block m)).enable = rBit s.block m 1 0) ∧
  (∀ (s : State) (m : Fin 4),
      Asked s m 0x1002 .sedge →
      rN s.block m 0 1 < 8 →
      ∃ t, exec (.pnlLoadGamma m) s = .next t ∧ Only [.mbx, .pnl, .rpl] s t ∧
        Answered s t m 0 (b32 (crc32c (rBytes s.block m 4 768))) ∧
        (t.block.pnl = vupd s.block.pnl (reqPort s.block m) fun x => { x with gamma := rBytes s.block m 4 768, gammaCrc := crc32c (rBytes s.block m 4 768) })) ∧
  (∀ (s : State) (m : Fin 4),
      Asked s m 0x1003 .sedge →
      rN s.block m 0 1 < 8 →
      (480 < rN s.block m 4 2 + rN s.block m 8 2 ∨ panelRows (pnlOf s.block (reqPort s.block m)) - 32 < rN s.block m 6 2 + rN s.block m 10 2) →
      ∃ t, exec (.pnlDraw m) s = .next t ∧ Only [.arb, .mbx, .hic, .qmg, .cwy, .cwyX, .pnl, .frames, .btn, .dmp, .rpl] s t ∧
        t.block.pnl = s.block.pnl ∧
        t.block.frames = s.block.frames ∧
        t.block.qmg = s.block.qmg ∧
        (Answered s t m 0x1001 [] ∨ Answered s t m 0x1002 [])) ∧
  (∀ (s : State) (m : Fin 4),
      Asked s m 0x1003 .sedge →
      rN s.block m 0 1 < 8 →
      rN s.block m 4 2 = 0 →
      rN s.block m 6 2 = 0 →
      rN s.block m 8 2 = 1 →
      rN s.block m 10 2 = 1 →
      33 ≤ panelRows (pnlOf s.block (reqPort s.block m)) →
      (pnlOf s.block (reqPort s.block m)).enable = true →
      (pnlOf s.block (reqPort s.block m)).fault = false →
      queueOk (rN s.block m 2 2) false = true →
      hostDataCheck s.block (rN s.block m 2 2) 1 = 0 →
      ∃ t, exec (.pnlDraw m) s = .next t ∧ Only [.arb, .mbx, .hic, .qmg, .cwy, .cwyX, .pnl, .frames, .btn, .dmp, .rpl] s t ∧
        t.block = safetyItem s.block (draw' (reqPort s.block m) { x := 0, y := 0, rows := [[convert (pnlOf s.block (reqPort s.block m)) 0 0 (byteAt (padTo 3 (hostDataBytes s.block (rN s.block m 2 2) 1)) 0) (byteAt (padTo 3 (hostDataBytes s.block (rN s.block m 2 2) 1)) 1) (byteAt (padTo 3 (hostDataBytes s.block (rN s.block m 2 2) 1)) 2)]], flush := rBit s.block m 1 0, mbx := some m } (hostDataConsume (rN s.block m 2 2) 1 s.block))) ∧
  (∀ (s : State) (m : Fin 4),
      Asked s m 0x1004 .sedge →
      rN s.block m 0 1 < 8 →
      (480 < rN s.block m 6 2 + rN s.block m 10 2 ∨ panelRows (pnlOf s.block (reqPort s.block m)) - 32 < rN s.block m 8 2 + rN s.block m 12 2) →
      ∃ t, exec (.pnlFill m) s = .next t ∧ Only [.mbx, .pnl, .frames, .rpl] s t ∧
        t.block.pnl = s.block.pnl ∧
        t.block.frames = s.block.frames ∧
        (Answered s t m 0x1001 [] ∨ Answered s t m 0x1002 [])) ∧
  (∀ (s : State) (m : Fin 4),
      Asked s m 0x1004 .sedge →
      rN s.block m 0 1 < 8 →
      rN s.block m 6 2 + rN s.block m 10 2 ≤ 480 →
      rN s.block m 8 2 + rN s.block m 12 2 ≤ panelRows (pnlOf s.block (reqPort s.block m)) - 32 →
      (pnlOf s.block (reqPort s.block m)).enable = true →
      (pnlOf s.block (reqPort s.block m)).fault = false →
      ∃ t, exec (.pnlFill m) s = .next t ∧ Only [.mbx, .pnl, .frames, .rpl] s t ∧
        (t.block = safetyItem s.block (draw' (reqPort s.block m) { x := rN s.block m 6 2, y := rN s.block m 8 2, rows := (List.range (rN s.block m 12 2)).map fun j => (List.range (rN s.block m 10 2)).map fun i => convert (pnlOf s.block (reqPort s.block m)) (rN s.block m 6 2 + i) (rN s.block m 8 2 + j) (rB s.block m 2) (rB s.block m 3) (rB s.block m 4), flush := rBit s.block m 1 0, mbx := some m } s.block))) ∧
  (∀ (s : State) (m : Fin 4),
      Asked s m 0x1005 .sedge →
      rN s.block m 0 1 < 8 →
      (pnlOf s.block (reqPort s.block m)).enable = true →
      (pnlOf s.block (reqPort s.block m)).fault = false →
      (pnlOf s.block (reqPort s.block m)).dirty = [] →
      ∃ t, exec (.pnlFlush m) s = .next t ∧ Only [.mbx, .pnl, .rpl] s t ∧
        Answered s t m 0 (b64 0) ∧
        t.block.pnl = s.block.pnl) ∧
  (∀ (s : State) (m : Fin 4),
      Asked s m 0x1005 .sedge →
      rN s.block m 0 1 < 8 →
      (pnlOf s.block (reqPort s.block m)).enable = true →
      (pnlOf s.block (reqPort s.block m)).fault = false →
      (pnlOf s.block (reqPort s.block m)).dirty ≠ [] →
      ∃ t, exec (.pnlFlush m) s = .next t ∧ Only [.mbx, .pnl, .rpl] s t ∧
        (t.block.pnl = vupd s.block.pnl (reqPort s.block m) fun x => { x with passPending := true, flushMbx := some m })) ∧
  (∀ (s : State) (m : Fin 4),
      Asked s m 0x1006 .sedge →
      rN s.block m 0 1 < 8 →
      ∃ t, exec (.pnlGetStatus m) s = .next t ∧ Only [.mbx, .rpl] s t ∧
        Answered s t m 0 (b32s [pnlCfgWord (pnlOf s.block (reqPort s.block m)), pnlStatWord (pnlOf s.block (reqPort s.block m)), (pnlOf s.block (reqPort s.block m)).passCnt])) ∧
  (∀ (s : State) (m : Fin 4),
      Asked s m 0x1007 .sedge →
      ∃ t, exec (.pnlClearCounts m) s = .next t ∧ Only [.mbx, .pnl, .rpl] s t ∧
        Answered s t m 0 ([]) ∧
        (∀ p, p ∈ maskPorts s.block m → (pnlOf t.block p).passCnt = 0)) ∧
  (∀ (s : State) (m : Fin 4),
      Asked s m 0x1101 .sedge →
      rN s.block m 0 1 < 8 →
      queueOk (rN s.block m 2 2) true = true →
      connectorOk (fieldOf (rN s.block m 4 4) 11 5) = true →
      4 ≤ fieldOf (rN s.block m 4 4) 16 10 →
      rBit s.block m 1 0 = true →
      ∃ t, exec (.nfcSetConfig m) s = .next t ∧ Only [.pea, .arb, .mbx, .hic, .nfc, .rpl] s t ∧
        Answered s t m 0 ([]) ∧
        (nfcOf t.block (reqPort s.block m)).techs = BitVec.ofNat 3 (rN s.block m 4 4) ∧
        (nfcOf t.block (reqPort s.block m)).fieldGroup = BitVec.ofNat 3 (fieldOf (rN s.block m 4 4) 8 3) ∧
        (nfcOf t.block (reqPort s.block m)).lpcdThr = BitVec.ofNat 10 (fieldOf (rN s.block m 4 4) 16 10) ∧
        (nfcOf t.block (reqPort s.block m)).queue = r16 s.block m 2 ∧
        (nfcOf t.block (reqPort s.block m)).enable = true ∧
        (nfcOf t.block (reqPort s.block m)).fault = false) ∧
  (∀ (s : State) (m : Fin 4),
      Asked s m 0x1102 .sedge →
      rN s.block m 0 1 < 8 →
      (nfcOf s.block (reqPort s.block m)).enable = true →
      (nfcOf s.block (reqPort s.block m)).fault = false →
      (nfcOf s.block (reqPort s.block m)).card = true →
      ∃ t, exec (.nfcPoll m) s = .next t ∧ Only [.mbx, .nfc, .rpl] s t ∧
        Answered s t m 0 ([1, 0, 0, 0] ++ padTo 56 (nfcOf s.block (reqPort s.block m)).cardRec) ∧
        (nfcOf t.block (reqPort s.block m)).pollMbx = none) ∧
  (∀ (s : State) (m : Fin 4),
      Asked s m 0x1102 .sedge →
      rN s.block m 0 1 < 8 →
      (nfcOf s.block (reqPort s.block m)).enable = true →
      (nfcOf s.block (reqPort s.block m)).fault = false →
      (nfcOf s.block (reqPort s.block m)).card = false →
      (nfcOf s.block (reqPort s.block m)).polling = false →
      (nfcOf s.block (reqPort s.block m)).waiting = none →
      ∃ t, exec (.nfcPoll m) s = .next t ∧ Only [.mbx, .nfc, .rpl] s t ∧
        (t.block = safetyItem s.block (pollStart (reqPort s.block m) (updNfc (reqPort s.block m) (fun x => { x with pollMbx := some m }) s.block)))) ∧
  (∀ (s : State) (m : Fin 4),
      Asked s m 0x1102 .sedge →
      rN s.block m 0 1 < 8 →
      (nfcOf s.block (reqPort s.block m)).enable = true →
      (nfcOf s.block (reqPort s.block m)).fault = false →
      (nfcOf s.block (reqPort s.block m)).card = false →
      ((nfcOf s.block (reqPort s.block m)).polling = true ∨ (nfcOf s.block (reqPort s.block m)).waiting ≠ none) →
      ∃ t, exec (.nfcPoll m) s = .next t ∧ Only [.mbx, .nfc, .rpl] s t ∧
        (t.block.nfc = vupd s.block.nfc (reqPort s.block m) fun x => { x with pollMbx := some m })) ∧
  (∀ (s : State) (m : Fin 4) (x : CardAnswer),
      Asked s m 0x1103 .sedge →
      rN s.block m 0 1 < 8 →
      (nfcOf s.block (reqPort s.block m)).enable = true →
      (nfcOf s.block (reqPort s.block m)).fault = false →
      (nfcOf s.block (reqPort s.block m)).card = true →
      1 ≤ rN s.block m 2 2 →
      rN s.block m 2 2 ≤ 1000 →
      1 ≤ rN s.block m 4 2 →
      rN s.block m 4 2 ≤ 5000 →
      ∃ t, exec (.nfcTransceive m x) s = .next t ∧ Only [.mbx, .rpl] s t ∧
        t.block.nfc = s.block.nfc ∧
        (∀ l, x = .answer l → Answered s t m 0 (leBytes 2 (l.take 1012).length ++ [0, 0] ++ l.take 1012)) ∧
        (x = .timeout → Answered s t m 0x1103 []) ∧
        (x = .error → Answered s t m 0x1104 [])) ∧
  (∀ (s : State) (m : Fin 4),
      Asked s m 0x1104 .sedge →
      rN s.block m 0 1 < 8 →
      (nfcOf s.block (reqPort s.block m)).card = true →
      ∃ t, exec (.nfcRelease m) s = .next t ∧ Only [.mbx, .nfc, .rpl] s t ∧
        Answered s t m 0 ([]) ∧
        (nfcOf t.block (reqPort s.block m)).field = false ∧
        (nfcOf t.block (reqPort s.block m)).card = false) ∧
  (∀ (s : State) (m : Fin 4),
      Asked s m 0x1104 .sedge →
      rN s.block m 0 1 < 8 →
      (nfcOf s.block (reqPort s.block m)).card = false →
      ∃ t, exec (.nfcRelease m) s = .next t ∧ Only [.mbx, .nfc, .rpl] s t ∧
        Answered s t m 0x1102 ([]) ∧
        t.block.nfc = s.block.nfc) ∧
  (∀ (s : State) (m : Fin 4),
      Asked s m 0x1105 .sedge →
      ∃ t, exec (.nfcClearCounts m) s = .next t ∧ Only [.mbx, .nfc, .rpl] s t ∧
        Answered s t m 0 ([]) ∧
        (∀ r, r ∈ maskPorts s.block m → (nfcOf t.block r).resolved = 0 ∧ (nfcOf t.block r).falseWake = 0))

/-- Under the conditions of its clause each command answers a next state, the queue stays, only the units listed there change, and what follows holds. POWER_ON, BROWN_OUT, RESET_PIN and CLOCK_FAIL of a lost clock: in reset as pin and supplies say, the cause and its count noted, backup domain and key index kept; released, Tide runs from 0. CLOCK_FAIL with the clock there: nothing. RESET_N_RELEASE releases; in reset with the supplies good Tide runs from 0 and a strap to 1,600 mV is taken; without supplies only the pin is noted. WATCHDOG and LOCK_UP restart a core that is up, the watchdog not a halted one. SEDGE_ABSENCE_TIMEOUT of an absent Sedge is a fatal error and a hub safe stop. STOP_SEQUENCE_START of a pending reset at its instant starts the stops or, of a core, its restart; STOP_SEQUENCE_END of one started, at its end, resets; a hub reset keeps Tide. CORE_RESTART_COMPLETE brings back a core that is down, loaded and not halted, outside reset. BOOT_STAGE_DONE does the work of its stage; with its images not ready, in reset, or from stage 6 on, nothing. READY_DECLARED at stage 6 in boot, 1.6 s from its start: ready, admission open, source 21; else nothing. IMAGE_DATA takes a record of the queue, with none nothing. BLOCK_REQUEST_TIMEOUT of a request posted: up to three repeats, then the fetch fails; with none nothing. BOOT_RETRY in BOOT_FAIL of a boot tries again; not in BOOT_FAIL nothing. The constructors of Instr whose completion it states: powerOn, brownOut, resetPin, resetNRelease, clockFail, watchdog, lockUp, sedgeAbsenceTimeout, stopSequenceStart, stopSequenceEnd, coreRestartComplete, bootStageDone, readyDeclared, imageData, blockRequestTimeout, bootRetry. -/
def Obligations.ResetsAndBoot : Prop :=
  (∀ (s : State) (high : Bool) (mv : U16),
      ∃ t, exec (.powerOn high mv) s = .next t ∧ t.pending = s.pending ∧
        t.block.rst.inReset = !high ∧
        t.block.rst.pinLow = !high ∧
        t.block.rst.suppliesOk = true ∧
        t.block.rst.causeSource = 0 ∧
        t.block.rst.causeScope = .device ∧
        vget t.block.rst.counts 0 = satInc (vget s.block.rst.counts 0) ∧
        t.block.backup = s.block.backup ∧
        t.block.key.index = s.block.key.index ∧
        (high = true → t.block.tide.now = 0 ∧ t.block.tide.running = true)) ∧
  (∀ (s : State),
      ∃ t, exec .brownOut s = .next t ∧ t.pending = s.pending ∧
        t.block.rst.inReset = true ∧
        t.block.rst.suppliesOk = false ∧
        t.block.rst.causeSource = 1 ∧
        t.block.rst.causeScope = .device ∧
        vget t.block.rst.counts 1 = satInc (vget s.block.rst.counts 1) ∧
        t.block.backup = s.block.backup ∧
        t.block.key.index = s.block.key.index) ∧
  (∀ (s : State),
      ∃ t, exec .resetPin s = .next t ∧ t.pending = s.pending ∧
        t.block.rst.inReset = true ∧
        t.block.rst.pinLow = true ∧
        t.block.rst.causeSource = 2 ∧
        t.block.rst.causeScope = .device ∧
        vget t.block.rst.counts 2 = satInc (vget s.block.rst.counts 2) ∧
        t.block.backup = s.block.backup ∧
        t.block.key.index = s.block.key.index) ∧
  (∀ (s : State) (mv : U16),
      s.block.rst.suppliesOk = true →
      s.block.rst.inReset = true →
      mv.toNat ≤ 1600 →
      ∃ t, exec (.resetNRelease mv) s = .next t ∧ Only [.tide, .d2d, .cross, .hic, .qmg, .cwy, .cwyX, .rst, .rpl, .dbg] s t ∧
        t.block.rst.inReset = false ∧
        t.block.rst.pinLow = false ∧
        t.block.rst.choice = BitVec.ofNat 4 (min 15 (mv.toNat / 100)) ∧
        t.block.rst.strapFault = false ∧
        t.block.tide.now = 0 ∧
        t.block.tide.running = true) ∧
  (∀ (s : State) (mv : U16),
      s.block.rst.suppliesOk = false →
      ∃ t, exec (.resetNRelease mv) s = .next t ∧ Only [.tide, .d2d, .cross, .hic, .qmg, .cwy, .cwyX, .rst, .rpl, .dbg] s t ∧
        t.block.rst = { s.block.rst with pinLow := false } ∧
        t.block.tide = s.block.tide) ∧
  (∀ (s : State) (mv : U16),
      ∃ t, exec (.resetNRelease mv) s = .next t ∧ Only [.tide, .d2d, .cross, .hic, .qmg, .cwy, .cwyX, .rst, .rpl, .dbg] s t ∧
        t.block = safetyItem s.block (resetNRelease mv s.block)) ∧
  (∀ (s : State) (mv : U16),
      s.block.tide.lost = true →
      ∃ t, exec (.clockFail mv) s = .next t ∧ t.pending = s.pending ∧
        t.block.rst.inReset = (s.block.rst.pinLow || !s.block.rst.suppliesOk) ∧
        t.block.rst.causeSource = 3 ∧
        t.block.rst.causeScope = .device ∧
        vget t.block.rst.counts 3 = satInc (vget s.block.rst.counts 3) ∧
        t.block.backup = s.block.backup ∧
        t.block.key.index = s.block.key.index) ∧
  (∀ (s : State) (mv : U16),
      s.block.tide.lost = false →
      ∃ t, exec (.clockFail mv) s = .next t ∧ t.pending = s.pending ∧
        t.block.rst = s.block.rst ∧
        t.block.tide = s.block.tide) ∧
  (∀ (s : State) (c : CoreId),
      coreUp s.block c = true →
      coreHalted s.block c = false →
      ∃ t, exec (.watchdog c) s = .next t ∧ Only [.lau, .sess, .mlk, .veh, .plc, .plcCfg, .v2g, .imd, .imdG, .saf, .safX, .lsw, .pea, .arb, .slt, .legal, .bri, .key, .mbx, .hic, .qmg, .cwy, .cwyX, .rst, .btn, .dmp, .rpl] s t ∧
        t.block = safetyItem s.block (coreRestart 4 c s.block)) ∧
  (∀ (s : State) (c : CoreId),
      (coreUp s.block c = false ∨ coreHalted s.block c = true) →
      ∃ t, exec (.watchdog c) s = .next t ∧ Only [.lau, .sess, .mlk, .veh, .plc, .plcCfg, .v2g, .imd, .imdG, .saf, .safX, .lsw, .pea, .arb, .slt, .legal, .bri, .key, .mbx, .hic, .qmg, .cwy, .cwyX, .rst, .btn, .dmp, .rpl] s t ∧
        t.block.rst = s.block.rst ∧
        t.block.upd = s.block.upd) ∧
  (∀ (s : State) (c : CoreId),
      coreUp s.block c = true →
      ∃ t, exec (.lockUp c) s = .next t ∧ Only [.lau, .sess, .mlk, .veh, .plc, .plcCfg, .v2g, .imd, .imdG, .saf, .safX, .lsw, .pea, .arb, .slt, .legal, .bri, .key, .mbx, .hic, .qmg, .cwy, .cwyX, .rst, .btn, .dmp, .rpl] s t ∧
        t.block = safetyItem s.block (coreRestart 7 c s.block)) ∧
  (∀ (s : State) (c : CoreId),
      coreUp s.block c = false →
      ∃ t, exec (.lockUp c) s = .next t ∧ Only [.lau, .sess, .mlk, .veh, .plc, .plcCfg, .v2g, .imd, .imdG, .saf, .safX, .lsw, .pea, .arb, .slt, .legal, .bri, .key, .mbx, .hic, .qmg, .cwy, .cwyX, .rst, .btn, .dmp, .rpl] s t ∧
        t.block.rst = s.block.rst ∧
        t.block.upd = s.block.upd) ∧
  (∀ (s : State),
      s.block.rst.sedgeAbsent = none →
      ∃ t, exec .sedgeAbsenceTimeout s = .next t ∧ Only [.tide, .lau, .sess, .mlk, .veh, .plc, .plcCfg, .imd, .imdG, .saf, .safX, .lsw, .pea, .arb, .slt, .legal, .bri, .key, .hic, .qmg, .cwy, .cwyX, .rst, .btn, .dmp, .rpl, .prior] s t ∧
        t.block.rst = s.block.rst ∧
        t.block.upd = s.block.upd ∧
        t.block.dmp = s.block.dmp) ∧
  (∀ (s : State) (i : U64),
      s.block.rst.sedgeAbsent = some i →
      i.toNat + 3750000000 ≤ (now s.block).toNat →
      ∃ t, exec .sedgeAbsenceTimeout s = .next t ∧ Only [.tide, .lau, .sess, .mlk, .veh, .plc, .plcCfg, .imd, .imdG, .saf, .safX, .lsw, .pea, .arb, .slt, .legal, .bri, .key, .hic, .qmg, .cwy, .cwyX, .rst, .btn, .dmp, .rpl, .prior] s t ∧
        (t.block = safetyItem s.block (raiseFatal 4 (contain { cause := 0x0C, scope := .hub, mode := .hubStop, base := 3, lock := false, reason := .deviceFault } (updRst (fun x => { x with sedgeAbsent := none }) s.block))))) ∧
  (∀ (s : State) (p : PendingReset),
      s.block.rst.pending = some p →
      p.started = false →
      p.scope ≠ .core →
      p.startAt.toNat ≤ (now s.block).toNat →
      ∃ t, exec .stopSequenceStart s = .next t ∧ Only (Part.but [.snaps, .barrier, .fab, .d2d, .cross, .met, .acc, .pq, .slu, .sluCnt, .vehCfg, .v2gCfg, .rcm, .rcmTest, .pf, .auth, .backup, .hp, .pnl, .frames, .nfc, .upd, .dbg, .settings, .newSettings, .legalSet, .updRec, .kept]) s t ∧
        t.block = safetyItem s.block (stopStart p s.block)) ∧
  (∀ (s : State) (p : PendingReset) (c : CoreId),
      s.block.rst.pending = some p →
      p.started = false →
      p.scope = .core →
      coreOf p.core.toNat = some c →
      p.startAt.toNat ≤ (now s.block).toNat →
      ∃ t, exec .stopSequenceStart s = .next t ∧ Only (Part.but [.snaps, .barrier, .fab, .d2d, .cross, .met, .acc, .pq, .slu, .sluCnt, .vehCfg, .v2gCfg, .rcm, .rcmTest, .pf, .auth, .backup, .hp, .pnl, .frames, .nfc, .upd, .dbg, .settings, .newSettings, .legalSet, .updRec, .kept]) s t ∧
        (t.block = safetyItem s.block (coreRestart p.source c (updRst (fun x => { x with pending := none }) s.block)))) ∧
  (∀ (s : State) (p : PendingReset),
      s.block.rst.pending = some p →
      p.started = true →
      ∃ t, exec .stopSequenceStart s = .next t ∧ Only (Part.but [.snaps, .barrier, .fab, .d2d, .cross, .met, .acc, .pq, .slu, .sluCnt, .vehCfg, .v2gCfg, .rcm, .rcmTest, .pf, .auth, .backup, .hp, .pnl, .frames, .nfc, .upd, .dbg, .settings, .newSettings, .legalSet, .updRec, .kept]) s t ∧
        t.block.rst = s.block.rst ∧
        t.block.upd = s.block.upd) ∧
  (∀ (s : State) (mv : U16) (p : PendingReset),
      s.block.rst.pending = some p →
      p.started = true →
      p.startAt.toNat + stopTicks ≤ (now s.block).toNat →
      ∃ t, exec (.stopSequenceEnd mv) s = .next t ∧ t.pending = s.pending ∧
        t.block = safetyItem s.block (stopSequenceEnd mv s.block)) ∧
  (∀ (s : State),
      s.block.rst.pending = none →
      ∃ t, exec .stopSequenceStart s = .next t ∧ Only (Part.but [.snaps, .barrier, .fab, .d2d, .cross, .met, .acc, .pq, .slu, .sluCnt, .vehCfg, .v2gCfg, .rcm, .rcmTest, .pf, .auth, .backup, .hp, .pnl, .frames, .nfc, .upd, .dbg, .settings, .newSettings, .legalSet, .updRec, .kept]) s t ∧
        t.block.rst = s.block.rst ∧
        t.block.upd = s.block.upd) ∧
  (∀ (s : State) (mv : U16) (p : PendingReset),
      s.block.rst.pending = some p →
      p.started = true →
      p.scope = .hub →
      p.startAt.toNat + stopTicks ≤ (now s.block).toNat →
      ∃ t, exec (.stopSequenceEnd mv) s = .next t ∧ t.pending = s.pending ∧
        t.block.rst.inReset = false ∧
        t.block.rst.hubBoot = true ∧
        t.block.rst.bootFrom = p.startAt ∧
        t.block.rst.bootCmd = p.command ∧
        t.block.rst.causeSource = p.source ∧
        t.block.rst.causeScope = .hub ∧
        t.block.tide.now = s.block.tide.now) ∧
  (∀ (s : State) (mv : U16),
      s.block.rst.pending = none →
      ∃ t, exec (.stopSequenceEnd mv) s = .next t ∧ t.pending = s.pending ∧
        t.block.rst = s.block.rst ∧
        t.block.upd = s.block.upd) ∧
  (∀ (s : State) (c : CoreId) (bad : U16),
      (coreUp s.block c = true ∨ s.block.rst.inReset = true) →
      ∃ t, exec (.coreRestartComplete c bad) s = .next t ∧ Only (Part.but [.tide, .snaps, .barrier, .fab, .d2d, .cross, .met, .acc, .pq, .sluCnt, .rcmTest, .backup, .hp, .dbg, .settings, .legalSet, .updRec, .kept, .prior]) s t ∧
        t.block.rst = s.block.rst ∧
        t.block.upd = s.block.upd) ∧
  (∀ (s : State) (c : CoreId) (bad : U16),
      coreUp s.block c = false →
      s.block.rst.inReset = false →
      (imageOf s.block (coreImage c)).loaded = true →
      coreHalted s.block c = false →
      s.block.upd.trialImage = none →
      ∃ t, exec (.coreRestartComplete c bad) s = .next t ∧ Only (Part.but [.tide, .snaps, .barrier, .fab, .d2d, .cross, .met, .acc, .pq, .sluCnt, .rcmTest, .backup, .hp, .dbg, .settings, .legalSet, .updRec, .kept, .prior]) s t ∧
        t.block = safetyItem s.block (coreAgain c bad s.block)) ∧
  (∀ (s : State) (c : CoreId) (bad : U16),
      ((imageOf s.block (coreImage c)).loaded = false ∨ coreHalted s.block c = true) →
      ∃ t, exec (.coreRestartComplete c bad) s = .next t ∧ Only (Part.but [.tide, .snaps, .barrier, .fab, .d2d, .cross, .met, .acc, .pq, .sluCnt, .rcmTest, .backup, .hp, .dbg, .settings, .legalSet, .updRec, .kept, .prior]) s t ∧
        t.block.rst = s.block.rst ∧
        t.block.upd = s.block.upd) ∧
  (∀ (s : State) (c : CoreId) (bad : U16),
      ∃ t, exec (.coreRestartComplete c bad) s = .next t ∧ Only (Part.but [.tide, .snaps, .barrier, .fab, .d2d, .cross, .met, .acc, .pq, .sluCnt, .rcmTest, .backup, .hp, .dbg, .settings, .legalSet, .updRec, .kept, .prior]) s t ∧
        t.block = safetyItem s.block (coreRestartComplete c bad s.block)) ∧
  (∀ (s : State) (x : BootInfo),
      (s.block.rst.inReset = true ∨ 6 ≤ s.block.rst.stage.toNat) →
      ∃ t, exec (.bootStageDone x) s = .next t ∧ Only (Part.but [.snaps, .barrier, .fab, .d2d, .sluCnt, .rcmTest, .hp, .frames, .dbg, .settings, .legalSet, .updRec, .prior]) s t ∧
        t.block.rst = s.block.rst ∧
        t.block.upd = s.block.upd) ∧
  (∀ (s : State) (x : BootInfo),
      s.block.rst.inReset = false →
      s.block.rst.state = .boot →
      1 ≤ s.block.rst.stage.toNat →
      s.block.rst.stage.toNat ≤ 4 →
      stageReady s.block = true →
      ∃ t, exec (.bootStageDone x) s = .next t ∧ Only (Part.but [.snaps, .barrier, .fab, .d2d, .sluCnt, .rcmTest, .hp, .frames, .dbg, .settings, .legalSet, .updRec, .prior]) s t ∧
        t.block = safetyItem s.block (bootNext (stageUp (stageWork x s.block)))) ∧
  (∀ (s : State) (x : BootInfo),
      s.block.rst.inReset = false →
      s.block.rst.state = .boot →
      1 ≤ s.block.rst.stage.toNat →
      s.block.rst.stage.toNat ≤ 5 →
      stageReady s.block = false →
      ∃ t, exec (.bootStageDone x) s = .next t ∧ Only (Part.but [.snaps, .barrier, .fab, .d2d, .sluCnt, .rcmTest, .hp, .frames, .dbg, .settings, .legalSet, .updRec, .prior]) s t ∧
        t.block.rst = s.block.rst ∧
        t.block.upd = s.block.upd) ∧
  (∀ (s : State) (x : BootInfo),
      ∃ t, exec (.bootStageDone x) s = .next t ∧ Only (Part.but [.snaps, .barrier, .fab, .d2d, .sluCnt, .rcmTest, .hp, .frames, .dbg, .settings, .legalSet, .updRec, .prior]) s t ∧
        t.block = safetyItem s.block (bootStageDone x s.block)) ∧
  (∀ (s : State),
      (s.block.rst.stage ≠ 6 ∨ s.block.rst.state ≠ .boot) →
      ∃ t, exec .readyDeclared s = .next t ∧ Only [.tide, .hic, .rst, .rpl, .prior] s t ∧
        t.block.rst = s.block.rst ∧
        t.block.upd = s.block.upd) ∧
  (∀ (s : State),
      s.block.rst.stage = 6 →
      s.block.rst.state = .boot →
      s.block.rst.bootFrom.toNat + bootTicks ≤ (now s.block).toNat →
      ∃ t, exec .readyDeclared s = .next t ∧ Only [.tide, .hic, .rst, .rpl, .prior] s t ∧
        t.block.rst = { s.block.rst with stage := 7, state := .ready, admission := true, readyAt := now s.block, bootMs := BitVec.ofNat 32 (((now s.block).toNat - s.block.rst.bootCmd.toNat) / tMs) } ∧
        Raised t.block 21) ∧
  (∀ (s : State) (e : QErr),
      (qDequeue agSedge s.block.upd.inQueue.toNat s.block).2 = .error e →
      ∃ t, exec .imageData s = .next t ∧ Only [.lau, .pea, .arb, .slt, .key, .mbx, .hic, .qmg, .cwy, .cwyX, .rst, .upd, .btn, .dmp, .rpl] s t ∧
        t.block.upd = s.block.upd ∧
        t.block.rst = s.block.rst) ∧
  (∀ (s : State) (u : Nat),
      (qDequeue agSedge s.block.upd.inQueue.toNat s.block).2 = .ok u →
      ∃ t, exec .imageData s = .next t ∧ Only [.lau, .pea, .arb, .slt, .key, .mbx, .hic, .qmg, .cwy, .cwyX, .rst, .upd, .btn, .dmp, .rpl] s t ∧
        t.block = safetyItem s.block (takeImageRecord (bufBytes (qDequeue agSedge s.block.upd.inQueue.toNat s.block).1 u) (qFree agSedge u (qDequeue agSedge s.block.upd.inQueue.toNat s.block).1).1)) ∧
  (∀ (s : State) (f : Fetch),
      s.block.upd.fetch = some f →
      f.posted = true →
      f.requestedAt.toNat + 150000000 ≤ (now s.block).toNat →
      f.tries < 3 →
      ∃ t, exec .blockRequestTimeout s = .next t ∧ Only [.tide, .lau, .arb, .mbx, .hic, .qmg, .cwy, .cwyX, .rst, .upd, .btn, .dmp, .rpl, .prior] s t ∧
        (t.block = safetyItem s.block (requestBlocks (updFetch (fun y => { y with tries := y.tries + 1 }) s.block)))) ∧
  (∀ (s : State) (f : Fetch),
      s.block.upd.fetch = some f →
      f.posted = true →
      f.requestedAt.toNat + 150000000 ≤ (now s.block).toNat →
      3 ≤ f.tries →
      ∃ t, exec .blockRequestTimeout s = .next t ∧ Only [.tide, .lau, .arb, .mbx, .hic, .qmg, .cwy, .cwyX, .rst, .upd, .btn, .dmp, .rpl, .prior] s t ∧
        t.block = safetyItem s.block (fetchFail 0x130D s.block)) ∧
  (∀ (s : State) (f : Fetch),
      s.block.upd.fetch = some f →
      f.posted = false →
      ∃ t, exec .blockRequestTimeout s = .next t ∧ Only [.tide, .lau, .arb, .mbx, .hic, .qmg, .cwy, .cwyX, .rst, .upd, .btn, .dmp, .rpl, .prior] s t ∧
        t.block.rst = s.block.rst ∧
        t.block.upd = s.block.upd) ∧
  (∀ (s : State),
      s.block.upd.fetch = none →
      ∃ t, exec .blockRequestTimeout s = .next t ∧ Only [.tide, .lau, .arb, .mbx, .hic, .qmg, .cwy, .cwyX, .rst, .upd, .btn, .dmp, .rpl, .prior] s t ∧
        t.block.rst = s.block.rst ∧
        t.block.upd = s.block.upd) ∧
  (∀ (s : State),
      s.block.rst.state ≠ .bootFail →
      ∃ t, exec .bootRetry s = .next t ∧ Only [.tide, .lau, .arb, .mbx, .hic, .qmg, .cwy, .cwyX, .upd, .btn, .dmp, .rpl, .prior] s t ∧
        t.block.rst = s.block.rst ∧
        t.block.upd = s.block.upd) ∧
  (∀ (s : State),
      s.block.rst.state = .bootFail →
      booting s.block = true →
      s.block.upd.lastRetry.toNat + tSec ≤ (now s.block).toNat →
      ∃ t, exec .bootRetry s = .next t ∧ Only [.tide, .lau, .arb, .mbx, .hic, .qmg, .cwy, .cwyX, .upd, .btn, .dmp, .rpl, .prior] s t ∧
        (t.block = safetyItem s.block (bootNext (updUpd (fun u => { u with lastRetry := now s.block, images := vmapIdx u.images fun i x => if x.missing then { x with missing := false, fell := decide (u.activating = some i) } else x }) s.block))))

/-- Under the conditions of its clause each command answers a next state, the queue stays, only the units listed there change, and what follows holds. ACTIVATION_SWITCH with no pause, one not begun, or one that may not end: nothing; else the switch, the return of the previous image, or the next modem. MODEM_DEFERRED_SWITCH of a deferred modem that may switch, with the pause of image 0 begun and none under way: its switch begins now; with no pause, or of another modem, nothing. TRIAL_WARN once, 60 s before the end: warned, source 28. TRIAL_EXPIRED at the end of the trial, or waiting to revert: the revert begins or waits; with no trial, a pause or a commit nothing. TRIAL_TIME_SAVE each 10 s: 10 s less left. Each command executes a request of its opcode while Sedge runs; those from UPD_STAGE on outside a power fail. UPD_GET_STATUS returns 16 words. UPD_STAGE while idle, none staged, no trial, begins the fetch of the slot not run; image 0 or above 4 answers 0x1301. UPD_ACTIVATE of a staged image that may switch: it is recorded and the pause starts; image 3 with readings unsigned answers 0x130F and the switch waits; while not idle 0x1302. UPD_COMMIT and UPD_REVERT of the image in trial act, UPD_COMMIT of another answers 0x130C. UPD_DISCARD of a staged image drops it, of another answers 0x130B. UPD_SET_CONFIG with a trial of 60 to 86,400 s and two queues sets them, else answers 3. UPD_GET_MANIFEST returns the manifest of a slot. UPD_BOOT_PART is taken from mailbox 0 by the boot ROM alone, else it answers 1. The constructors of Instr whose completion it states: activationSwitch, modemDeferredSwitch, trialWarn, trialTimeSave, trialExpired, updGetStatus, updStage, updActivate, updCommit, updRevert, updDiscard, updSetConfig, updGetManifest, updBootPart. -/
def Obligations.Updates : Prop :=
  (∀ (s : State) (conv : Bool),
      s.block.upd.pause = none →
      ∃ t, exec (.activationSwitch conv) s = .next t ∧ Only (Part.but [.tide, .snaps, .barrier, .fab, .d2d, .cross, .met, .acc, .pq, .sluCnt, .rcmTest, .legal, .backup, .bri, .hp, .dbg, .settings, .legalSet, .updRec, .kept, .prior]) s t ∧
        t.block.rst = s.block.rst ∧
        t.block.upd = s.block.upd) ∧
  (∀ (s : State) (conv : Bool) (p : Pause),
      s.block.upd.pause = some p →
      p.begun = true →
      mayEndPause s.block p.image = true →
      p.image ≠ 0 →
      p.revert = false →
      formatDiffers s.block p.image = false →
      ∃ t, exec (.activationSwitch conv) s = .next t ∧ Only (Part.but [.tide, .snaps, .barrier, .fab, .d2d, .cross, .met, .acc, .pq, .sluCnt, .rcmTest, .legal, .backup, .bri, .hp, .dbg, .settings, .legalSet, .updRec, .kept, .prior]) s t ∧
        t.block = safetyItem s.block (activated p s.block)) ∧
  (∀ (s : State) (conv : Bool) (p : Pause),
      s.block.upd.pause = some p →
      p.begun = true →
      mayEndPause s.block p.image = true →
      p.image ≠ 0 →
      p.revert = true →
      ∃ t, exec (.activationSwitch conv) s = .next t ∧ Only (Part.but [.tide, .snaps, .barrier, .fab, .d2d, .cross, .met, .acc, .pq, .sluCnt, .rcmTest, .legal, .backup, .bri, .hp, .dbg, .settings, .legalSet, .updRec, .kept, .prior]) s t ∧
        t.block = safetyItem s.block (reverted p s.block)) ∧
  (∀ (s : State) (conv : Bool) (p : Pause),
      s.block.upd.pause = some p →
      p.begun = true →
      mayEndPause s.block p.image = true →
      ∃ t, exec (.activationSwitch conv) s = .next t ∧ Only (Part.but [.tide, .snaps, .barrier, .fab, .d2d, .cross, .met, .acc, .pq, .sluCnt, .rcmTest, .legal, .backup, .bri, .hp, .dbg, .settings, .legalSet, .updRec, .kept, .prior]) s t ∧
        t.block = safetyItem s.block (activationSwitch conv s.block)) ∧
  (∀ (s : State) (conv : Bool) (p : Pause),
      s.block.upd.pause = some p →
      (p.begun = false ∨ mayEndPause s.block p.image = false) →
      ∃ t, exec (.activationSwitch conv) s = .next t ∧ Only (Part.but [.tide, .snaps, .barrier, .fab, .d2d, .cross, .met, .acc, .pq, .sluCnt, .rcmTest, .legal, .backup, .bri, .hp, .dbg, .settings, .legalSet, .updRec, .kept, .prior]) s t ∧
        t.block.rst = s.block.rst ∧
        t.block.upd = s.block.upd) ∧
  (∀ (s : State) (n : Fin 16) (p : Pause),
      s.block.upd.pause = some p →
      p.begun = true →
      p.image = 0 →
      p.modem = none →
      s.block.upd.deferred.getLsbD n.val = true →
      modemMaySwitch s.block n = true →
      ∃ t, exec (.modemDeferredSwitch n) s = .next t ∧ Only [.upd, .rpl] s t ∧
        t.block.upd = { s.block.upd with pause := some { p with modem := some n, start := now s.block } } ∧
        t.block.rst = s.block.rst) ∧
  (∀ (s : State) (n : Fin 16),
      (s.block.upd.deferred.getLsbD n.val = false ∨ modemMaySwitch s.block n = false) →
      ∃ t, exec (.modemDeferredSwitch n) s = .next t ∧ Only [.upd, .rpl] s t ∧
        t.block.rst = s.block.rst ∧
        t.block.upd = s.block.upd) ∧
  (∀ (s : State) (n : Fin 16),
      s.block.upd.pause = none →
      ∃ t, exec (.modemDeferredSwitch n) s = .next t ∧ Only [.upd, .rpl] s t ∧
        t.block.rst = s.block.rst ∧
        t.block.upd = s.block.upd) ∧
  (∀ (s : State),
      s.block.upd.trialImage.isSome = true →
      s.block.upd.warned = false →
      s.block.upd.trialFrom.toNat + (s.block.upd.trialLeft.toNat - 60) * tSec ≤ (now s.block).toNat →
      ∃ t, exec .trialWarn s = .next t ∧ Only [.tide, .hic, .upd, .rpl, .prior] s t ∧
        t.block.upd = { s.block.upd with warned := true } ∧
        Raised t.block 28) ∧
  (∀ (s : State),
      (s.block.upd.trialImage.isSome = false ∨ s.block.upd.warned = true) →
      ∃ t, exec .trialWarn s = .next t ∧ Only [.tide, .hic, .upd, .rpl, .prior] s t ∧
        t.block.rst = s.block.rst ∧
        t.block.upd = s.block.upd) ∧
  (∀ (s : State),
      (s.block.upd.trialImage.isSome = false ∨ s.block.upd.trialLeft.toNat < 10) →
      ∃ t, exec .trialTimeSave s = .next t ∧ Only [.tide, .pea, .arb, .hic, .upd, .rpl, .prior] s t ∧
        t.block.rst = s.block.rst ∧
        t.block.upd = s.block.upd) ∧
  (∀ (s : State) (k : Fin 4),
      s.block.upd.trialImage = some k →
      s.block.upd.pause = none →
      s.block.upd.commit = none →
      s.block.upd.revertWait = true →
      ∃ t, exec .trialExpired s = .next t ∧ Only [.tide, .saf, .safX, .lsw, .pea, .arb, .bri, .mbx, .hic, .rst, .upd, .rpl, .prior] s t ∧
        t.block = safetyItem s.block (trialOver k s.block)) ∧
  (∀ (s : State),
      (s.block.upd.pause ≠ none ∨ s.block.upd.commit ≠ none) →
      ∃ t, exec .trialExpired s = .next t ∧ Only [.tide, .saf, .safX, .lsw, .pea, .arb, .bri, .mbx, .hic, .rst, .upd, .rpl, .prior] s t ∧
        t.block.rst = s.block.rst ∧
        t.block.upd = s.block.upd) ∧
  (∀ (s : State) (k : Fin 4),
      s.block.upd.trialImage = some k →
      s.block.upd.pause = none →
      s.block.upd.commit = none →
      s.block.upd.revertWait = false →
      s.block.upd.trialFrom.toNat + s.block.upd.trialLeft.toNat * tSec ≤ (now s.block).toNat →
      ∃ t, exec .trialExpired s = .next t ∧ Only [.tide, .saf, .safX, .lsw, .pea, .arb, .bri, .mbx, .hic, .rst, .upd, .rpl, .prior] s t ∧
        t.block = safetyItem s.block (trialOver k s.block)) ∧
  (∀ (s : State),
      s.block.upd.trialImage = none →
      ∃ t, exec .trialExpired s = .next t ∧ Only [.tide, .saf, .safX, .lsw, .pea, .arb, .bri, .mbx, .hic, .rst, .upd, .rpl, .prior] s t ∧
        t.block.rst = s.block.rst ∧
        t.block.upd = s.block.upd) ∧
  (∀ (s : State),
      s.block.upd.trialImage.isSome = true →
      10 ≤ s.block.upd.trialLeft.toNat →
      s.block.upd.trialFrom.toNat + 10 * tSec ≤ (now s.block).toNat →
      ∃ t, exec .trialTimeSave s = .next t ∧ Only [.tide, .pea, .arb, .hic, .upd, .rpl, .prior] s t ∧
        t.block.upd = { s.block.upd with trialLeft := s.block.upd.trialLeft - 10, trialFrom := s.block.upd.trialFrom + BitVec.ofNat 64 (10 * tSec) }) ∧
  (∀ (s : State) (m : Fin 4),
      Asked s m 0x1301 .sedge →
      ∃ t, exec (.updGetStatus m) s = .next t ∧ Only [.mbx, .rpl] s t ∧
        (Answered s t m 0 ((List.range 16).flatMap fun k => b32 (updWord s.block (0x80 + k))))) ∧
  (∀ (s : State) (m : Fin 4),
      Asked s m 0x1302 .sedge →
      s.block.pf.active = false →
      1 ≤ rN s.block m 0 1 →
      rN s.block m 0 1 ≤ 4 →
      updIdle s.block = true →
      noneStaged s.block = true →
      s.block.upd.trialImage = none →
      ∃ t, exec (.updStage m) s = .next t ∧ Only [.lau, .arb, .mbx, .hic, .qmg, .cwy, .cwyX, .upd, .btn, .dmp, .rpl] s t ∧
        (t.block = safetyItem s.block (beginFetch { image := (reqImageNo s.block m), slotB := !(imageOf s.block (reqImageNo s.block m)).runB, mbx := some m } (updUpd (fun u => { u with status := 1, busy := true, progress := 0, image := BitVec.ofNat 3 ((reqImageNo s.block m).val + 1) }) s.block)))) ∧
  (∀ (s : State) (m : Fin 4),
      Asked s m 0x1302 .sedge →
      s.block.pf.active = false →
      (rN s.block m 0 1 = 0 ∨ 4 < rN s.block m 0 1) →
      ∃ t, exec (.updStage m) s = .next t ∧ Only [.lau, .arb, .mbx, .hic, .qmg, .cwy, .cwyX, .upd, .btn, .dmp, .rpl] s t ∧
        Answered s t m 0x1301 ([]) ∧
        t.block.upd = s.block.upd) ∧
  (∀ (s : State) (m : Fin 4),
      Asked s m 0x1303 .sedge →
      s.block.pf.active = false →
      1 ≤ rN s.block m 0 1 →
      rN s.block m 0 1 ≤ 4 →
      ((((List.finRange 4).filter fun j => decide (j.val < (reqImageNo s.block m).val)).all fun j => !slotIn s.block 1 j && !slotIn s.block 3 j) = true) →
      updIdle s.block = true →
      s.block.upd.trialImage = none →
      otherState s.block (reqImageNo s.block m) = 1 →
      switchAllowed s.block (reqImageNo s.block m) = true →
      ((reqImageNo s.block m) = 2 → s.block.slt.unsigned_ = []) →
      ∃ t, exec (.updActivate m) s = .next t ∧ Only [.pea, .arb, .key, .mbx, .hic, .upd, .rpl] s t ∧
        t.block.upd.status = 4 ∧
        t.block.upd.busy = true ∧
        t.block.upd.activating = some (reqImageNo s.block m) ∧
        t.block.upd.pause = some { image := (reqImageNo s.block m), start := now s.block, mbx := some m } ∧
        t.block.upd.images = s.block.upd.images) ∧
  (∀ (s : State) (m : Fin 4),
      Asked s m 0x1303 .sedge →
      s.block.pf.active = false →
      1 ≤ rN s.block m 0 1 →
      rN s.block m 0 1 ≤ 4 →
      (reqImageNo s.block m) = 0 →
      updIdle s.block = false →
      ∃ t, exec (.updActivate m) s = .next t ∧ Only [.pea, .arb, .key, .mbx, .hic, .upd, .rpl] s t ∧
        Answered s t m 0x1302 ([]) ∧
        t.block.upd = s.block.upd) ∧
  (∀ (s : State) (m : Fin 4),
      Asked s m 0x1304 .sedge →
      s.block.pf.active = false →
      1 ≤ rN s.block m 0 1 →
      rN s.block m 0 1 ≤ 4 →
      updIdle s.block = true →
      s.block.upd.trialImage = some (reqImageNo s.block m) →
      ∃ t, exec (.updCommit m) s = .next t ∧ Only [.pea, .arb, .mbx, .hic, .upd, .btn, .rpl, .settings, .newSettings] s t ∧
        (t.block = safetyItem s.block (commitStep (updUpd (fun u => { u with commit := some ((reqImageNo s.block m), m) }) s.block)))) ∧
  (∀ (s : State) (m : Fin 4),
      Asked s m 0x1304 .sedge →
      s.block.pf.active = false →
      1 ≤ rN s.block m 0 1 →
      rN s.block m 0 1 ≤ 4 →
      updIdle s.block = true →
      s.block.upd.trialImage ≠ some (reqImageNo s.block m) →
      ∃ t, exec (.updCommit m) s = .next t ∧ Only [.pea, .arb, .mbx, .hic, .upd, .btn, .rpl, .settings, .newSettings] s t ∧
        Answered s t m 0x130C ([]) ∧
        t.block.upd = s.block.upd) ∧
  (∀ (s : State) (m : Fin 4),
      Asked s m 0x1305 .sedge →
      s.block.pf.active = false →
      1 ≤ rN s.block m 0 1 →
      rN s.block m 0 1 ≤ 4 →
      updIdle s.block = true →
      s.block.upd.trialImage = some (reqImageNo s.block m) →
      switchAllowed s.block (reqImageNo s.block m) = true →
      ((reqImageNo s.block m) = 2 → s.block.slt.unsigned_ = []) →
      ∃ t, exec (.updRevert m) s = .next t ∧ Only [.saf, .safX, .lsw, .pea, .arb, .bri, .mbx, .hic, .rst, .upd, .rpl] s t ∧
        t.block = safetyItem s.block (beginRevert { image := (reqImageNo s.block m), mbx := some m } s.block)) ∧
  (∀ (s : State) (m : Fin 4),
      Asked s m 0x1306 .sedge →
      s.block.pf.active = false →
      1 ≤ rN s.block m 0 1 →
      rN s.block m 0 1 ≤ 4 →
      updIdle s.block = true →
      otherState s.block (reqImageNo s.block m) = 1 →
      ∃ t, exec (.updDiscard m) s = .next t ∧ Only [.mbx, .upd, .rpl] s t ∧
        Answered s t m 0 ([]) ∧
        t.block.upd.status = 0 ∧
        t.block.upd.standby = [] ∧
        otherState t.block (reqImageNo s.block m) = 0) ∧
  (∀ (s : State) (m : Fin 4),
      Asked s m 0x1306 .sedge →
      s.block.pf.active = false →
      1 ≤ rN s.block m 0 1 →
      rN s.block m 0 1 ≤ 4 →
      updIdle s.block = true →
      otherState s.block (reqImageNo s.block m) ≠ 1 →
      ∃ t, exec (.updDiscard m) s = .next t ∧ Only [.mbx, .upd, .rpl] s t ∧
        Answered s t m 0x130B ([]) ∧
        t.block.upd = s.block.upd) ∧
  (∀ (s : State) (m : Fin 4),
      Asked s m 0x1307 .sedge →
      s.block.pf.active = false →
      60 ≤ rN s.block m 0 4 →
      rN s.block m 0 4 ≤ 86400 →
      queueOk (rN s.block m 4 2) false = true →
      queueOk (rN s.block m 6 2) false = true →
      ∃ t, exec (.updSetConfig m) s = .next t ∧ Only [.pea, .arb, .mbx, .hic, .upd, .rpl] s t ∧
        Answered s t m 0 ([]) ∧
        t.block.upd = { s.block.upd with trial := BitVec.ofNat 17 (rN s.block m 0 4), outQueue := r16 s.block m 4, inQueue := r16 s.block m 6 }) ∧
  (∀ (s : State) (m : Fin 4),
      Asked s m 0x1307 .sedge →
      s.block.pf.active = false →
      (rN s.block m 0 4 < 60 ∨ 86400 < rN s.block m 0 4) →
      ∃ t, exec (.updSetConfig m) s = .next t ∧ Only [.pea, .arb, .mbx, .hic, .upd, .rpl] s t ∧
        Answered s t m 3 ([]) ∧
        t.block.upd = s.block.upd) ∧
  (∀ (s : State) (m : Fin 4),
      Asked s m 0x1308 .sedge →
      s.block.pf.active = false →
      1 ≤ rN s.block m 0 1 →
      rN s.block m 0 1 ≤ 4 →
      rN s.block m 1 1 = 0 →
      ∃ t, exec (.updGetManifest m) s = .next t ∧ Only [.mbx, .rpl] s t ∧
        Answered s t m 0 (padTo 96 (imageOf s.block (reqImageNo s.block m)).manA.bytes)) ∧
  (∀ (s : State) (m : Fin 4),
      Asked s m 0x1308 .sedge →
      s.block.pf.active = false →
      1 ≤ rN s.block m 0 1 →
      rN s.block m 0 1 ≤ 4 →
      rN s.block m 1 1 = 1 →
      ∃ t, exec (.updGetManifest m) s = .next t ∧ Only [.mbx, .rpl] s t ∧
        Answered s t m 0 (padTo 96 (imageOf s.block (reqImageNo s.block m)).manB.bytes)) ∧
  (∀ (s : State) (m : Fin 4),
      Asked s m 0x1303 .sedge →
      s.block.pf.active = false →
      1 ≤ rN s.block m 0 1 →
      rN s.block m 0 1 ≤ 4 →
      ((((List.finRange 4).filter fun j => decide (j.val < (reqImageNo s.block m).val)).all fun j => !slotIn s.block 1 j && !slotIn s.block 3 j) = true) →
      updIdle s.block = true →
      s.block.upd.trialImage = none →
      otherState s.block (reqImageNo s.block m) = 1 →
      switchAllowed s.block (reqImageNo s.block m) = true →
      (reqImageNo s.block m) = 2 →
      s.block.slt.unsigned_ ≠ [] →
      ∃ t, exec (.updActivate m) s = .next t ∧ Only [.pea, .arb, .key, .mbx, .hic, .upd, .rpl] s t ∧
        Answered s t m 0x130F ([]) ∧
        t.block.upd = s.block.upd ∧
        t.block.key = { s.block.key with switchWait := true }) ∧
  (∀ (s : State) (m : Fin 4),
      serving s.block m 0x13F0 = true →
      (m ≠ 0 ∨ bootRom s.block = false) →
      ∃ t, exec (.updBootPart m) s = .next t ∧ Only [.lau, .pea, .arb, .slt, .key, .mbx, .hic, .qmg, .cwy, .cwyX, .rst, .upd, .btn, .dmp, .rpl] s t ∧
        t.block.upd = s.block.upd ∧
        Answered s t m 1 []) ∧
  (∀ (s : State) (m : Fin 4),
      serving s.block m 0x13F0 = true →
      m = 0 →
      bootRom s.block = true →
      1 ≤ rN s.block m 0 1 →
      rN s.block m 0 1 ≤ 4 →
      rN s.block m 1 1 ≤ 1 →
      ∃ t, exec (.updBootPart m) s = .next t ∧ Only [.lau, .pea, .arb, .slt, .key, .mbx, .hic, .qmg, .cwy, .cwyX, .rst, .upd, .btn, .dmp, .rpl] s t ∧
        t.block = safetyItem s.block (takePart (rN s.block m 0 1) (rN s.block m 1 1) (rN s.block m 4 4) (rN s.block m 2 1) 512 (rBytes s.block m 8 512) (ok m [] s.block)))

/-- Under the conditions of its clause each command answers a next state, the queue stays, only the units listed there change, and what follows holds. OPLOG_FLUSH sends what is staged to the queue; with no queue, or a buffer held, nothing. FATAL_ERROR acts on the first error found, with none nothing. DUMP_START of a fatal error, when all pairs are open or 180 ms after it, begins the dump; with none, or its core down, nothing. DUMP_COMPLETE of a dump in progress: it is held, source 481, its freeze lifted; else nothing. Each command executes a request of its opcode while its core runs: Carr for BTN_CLEAR and DMP_TRIGGER, else Sedge. BTN_READ of 1 to 15 entries returns the floor, the next sequence and the entries, of the legal log when none of them still waits; another log answers 0x1201. BTN_CLEAR while none is under way: unauthorised 0x1202 and no change, authorised the clear of the log named; while one is 0x1203. BTN_SET_CONFIG of a queue or none sets it, of another answers 6. BTN_GET_STATUS and DMP_GET_STATUS return state. BTN_CLEAR_COUNTS sets three counts to 0. DMP_EXPORT of a held dump to a record queue begins the export, with no dump 0x1401, while the dump is busy for another 0x1405. DMP_RELEASE of a dump not busy drops it, with none it answers 0x1401. DMP_TRIGGER authorised: error 5 is raised, else 0x1404. The constructors of Instr whose completion it states: oplogFlush, fatalError, dumpStart, dumpComplete, btnRead, btnClear, btnSetConfig, btnGetStatus, btnClearCounts, dmpGetStatus, dmpExport, dmpRelease, dmpTrigger. -/
def Obligations.LogsAndDumps : Prop :=
  (∀ (s : State),
      (s.block.btn.opQueue = 0xFFFF ∨ s.block.btn.held.isSome = true) →
      ∃ t, exec .oplogFlush s = .next t ∧ Only [.lau, .arb, .hic, .qmg, .cwy, .cwyX, .btn, .dmp, .rpl] s t ∧
        t.block.btn = s.block.btn ∧
        t.block.qmg = s.block.qmg) ∧
  (∀ (s : State),
      s.block.btn.opQueue ≠ 0xFFFF →
      s.block.btn.held = none →
      ∃ t, exec .oplogFlush s = .next t ∧ Only [.lau, .arb, .hic, .qmg, .cwy, .cwyX, .btn, .dmp, .rpl] s t ∧
        (t.block = safetyItem s.block (notePending (sendAll (64 * s.block.btn.staged.length + 1) (updBtn (fun x => { x with pendingSince := none }) s.block))))) ∧
  (∀ (s : State) (c : U16) (l : List U16),
      s.block.dmp.raised = c :: l →
      ∃ t, exec .fatalError s = .next t ∧ Only [.tide, .lau, .sess, .mlk, .veh, .plc, .plcCfg, .imd, .imdG, .saf, .safX, .lsw, .pea, .arb, .slt, .legal, .bri, .key, .mbx, .hic, .qmg, .cwy, .cwyX, .btn, .dmp, .rpl] s t ∧
        (t.block = safetyItem s.block (fatalAct c (updDmp (fun d => { d with raised := l }) s.block)))) ∧
  (∀ (s : State),
      s.block.dmp.raised = [] →
      ∃ t, exec .fatalError s = .next t ∧ Only [.tide, .lau, .sess, .mlk, .veh, .plc, .plcCfg, .imd, .imdG, .saf, .safX, .lsw, .pea, .arb, .slt, .legal, .bri, .key, .mbx, .hic, .qmg, .cwy, .cwyX, .btn, .dmp, .rpl] s t ∧
        t.block.dmp = s.block.dmp ∧
        t.block.sess = s.block.sess) ∧
  (∀ (s : State) (i : U64),
      s.block.dmp.fatalAt = some i →
      dumpCore s.block = true →
      (allOpen s.block = true ∨ i.toNat + 270000000 ≤ (now s.block).toNat) →
      ∃ t, exec .dumpStart s = .next t ∧ Only [.tide, .dmp, .rpl, .prior] s t ∧
        t.block = safetyItem s.block (dumpBegin s.block)) ∧
  (∀ (s : State),
      s.block.dmp.fatalAt = none →
      ∃ t, exec .dumpStart s = .next t ∧ Only [.tide, .dmp, .rpl, .prior] s t ∧
        t.block.dmp = s.block.dmp ∧
        t.block.arb = s.block.arb) ∧
  (∀ (s : State),
      dumpCore s.block = false →
      ∃ t, exec .dumpStart s = .next t ∧ Only [.tide, .dmp, .rpl, .prior] s t ∧
        t.block.dmp = s.block.dmp ∧
        t.block.arb = s.block.arb) ∧
  (∀ (s : State),
      s.block.dmp.state = 1 →
      ∃ t, exec .dumpComplete s = .next t ∧ Only [.arb, .hic, .dmp, .rpl] s t ∧
        t.block.dmp = { s.block.dmp with state := 2 } ∧
        Raised t.block 481 ∧
        (t.block.arb = if s.block.arb.byDump = true then (liftFreeze s.block).arb else s.block.arb)) ∧
  (∀ (s : State),
      s.block.dmp.state ≠ 1 →
      ∃ t, exec .dumpComplete s = .next t ∧ Only [.arb, .hic, .dmp, .rpl] s t ∧
        t.block.dmp = s.block.dmp ∧
        t.block.hic = s.block.hic) ∧
  (∀ (s : State) (m : Fin 4),
      Asked s m 0x1201 .sedge →
      rN s.block m 0 1 = 1 →
      1 ≤ rN s.block m 16 1 →
      rN s.block m 16 1 ≤ 15 →
      ∃ t, exec (.btnRead m) s = .next t ∧ Only [.mbx, .rpl] s t ∧
        (Answered s t m 0 (b64 s.block.btn.opFloor ++ b64 s.block.btn.opNext ++ (List.range (rN s.block m 16 1)).flatMap fun i => opRead s.block ((rN s.block m 8 8 + i) % 2 ^ 64)))) ∧
  (∀ (s : State) (m : Fin 4),
      Asked s m 0x1201 .sedge →
      rN s.block m 0 1 = 0 →
      1 ≤ rN s.block m 16 1 →
      rN s.block m 16 1 ≤ 15 →
      legalWaits s.block (rN s.block m 8 8) (rN s.block m 16 1) = false →
      ∃ t, exec (.btnRead m) s = .next t ∧ Only [.mbx, .rpl] s t ∧
        (Answered s t m 0 (b64 s.block.btn.legalFloor ++ b64 s.block.btn.legalNext ++ (List.range (rN s.block m 16 1)).flatMap fun i => legalRead s.block ((rN s.block m 8 8 + i) % 2 ^ 64)))) ∧
  (∀ (s : State) (m : Fin 4),
      Asked s m 0x1201 .sedge →
      1 < rN s.block m 0 1 →
      ∃ t, exec (.btnRead m) s = .next t ∧ Only [.mbx, .rpl] s t ∧
        Answered s t m 0x1201 ([])) ∧
  (∀ (s : State) (m : Fin 4),
      Asked s m 0x1202 .carr →
      rN s.block m 0 1 ≤ 1 →
      s.block.btn.clearing = false →
      ∃ t, exec (.btnClear m) s = .next t ∧ Only [.pea, .arb, .key, .mbx, .hic, .btn, .rpl] s t ∧
        ((authorise m 4 (rN s.block m 2 2) s.block).2 = false → Answered s t m 0x1202 [] ∧ t.block.btn = s.block.btn) ∧
        ((authorise m 4 (rN s.block m 2 2) s.block).2 = true → rN s.block m 0 1 = 1 → t.block = safetyItem s.block (clearOp m (rBytes s.block m 16 8) (authorise m 4 (rN s.block m 2 2) s.block).1)) ∧
        ((authorise m 4 (rN s.block m 2 2) s.block).2 = true → rN s.block m 0 1 = 0 → t.block = safetyItem s.block (clearLegal m (rBytes s.block m 16 8) (authorise m 4 (rN s.block m 2 2) s.block).1))) ∧
  (∀ (s : State) (m : Fin 4),
      Asked s m 0x1202 .carr →
      rN s.block m 0 1 ≤ 1 →
      s.block.btn.clearing = true →
      ∃ t, exec (.btnClear m) s = .next t ∧ Only [.pea, .arb, .key, .mbx, .hic, .btn, .rpl] s t ∧
        Answered s t m 0x1203 ([]) ∧
        t.block.btn = s.block.btn) ∧
  (∀ (s : State) (m : Fin 4),
      Asked s m 0x1203 .sedge →
      queueOk (rN s.block m 0 2) true = true →
      ∃ t, exec (.btnSetConfig m) s = .next t ∧ Only [.pea, .arb, .mbx, .hic, .btn, .rpl] s t ∧
        Answered s t m 0 ([]) ∧
        t.block.btn = { s.block.btn with opQueue := r16 s.block m 0 }) ∧
  (∀ (s : State) (m : Fin 4),
      Asked s m 0x1203 .sedge →
      queueOk (rN s.block m 0 2) true = false →
      ∃ t, exec (.btnSetConfig m) s = .next t ∧ Only [.pea, .arb, .mbx, .hic, .btn, .rpl] s t ∧
        Answered s t m 6 ([]) ∧
        t.block.btn = s.block.btn) ∧
  (∀ (s : State) (m : Fin 4),
      Asked s m 0x1204 .sedge →
      ∃ t, exec (.btnGetStatus m) s = .next t ∧ Only [.mbx, .rpl] s t ∧
        (Answered s t m 0 (b32s ((List.range 16).map fun i => btnWord s.block (0xB00 + i))))) ∧
  (∀ (s : State) (m : Fin 4),
      Asked s m 0x1205 .sedge →
      ∃ t, exec (.btnClearCounts m) s = .next t ∧ Only [.mbx, .btn, .rpl] s t ∧
        Answered s t m 0 ([]) ∧
        t.block.btn = { s.block.btn with opDrop := 0, opSuppress := 0, tornCnt := 0 }) ∧
  (∀ (s : State) (m : Fin 4),
      Asked s m 0x1401 .sedge →
      ∃ t, exec (.dmpGetStatus m) s = .next t ∧ Only [.mbx, .rpl] s t ∧
        Answered s t m 0 (b32 (dmpStatWord s.block.dmp) ++ b64 s.block.dmp.tide ++ dumpHeader s.block.dmp)) ∧
  (∀ (s : State) (m : Fin 4),
      Asked s m 0x1402 .sedge →
      s.block.dmp.exporting = none →
      queueOk (rN s.block m 0 2) false = true →
      s.block.dmp.state = 2 →
      ∃ t, exec (.dmpExport m) s = .next t ∧ Only [.lau, .arb, .mbx, .hic, .qmg, .cwy, .cwyX, .btn, .dmp, .rpl] s t ∧
        (t.block = safetyItem s.block (exportStep (updDmp (fun d => { d with exporting := some { queue := r16 s.block m 0, mbx := m } }) s.block)))) ∧
  (∀ (s : State) (m : Fin 4),
      Asked s m 0x1402 .sedge →
      s.block.dmp.exporting = none →
      queueOk (rN s.block m 0 2) false = true →
      s.block.dmp.state = 0 →
      ∃ t, exec (.dmpExport m) s = .next t ∧ Only [.lau, .arb, .mbx, .hic, .qmg, .cwy, .cwyX, .btn, .dmp, .rpl] s t ∧
        Answered s t m 0x1401 ([]) ∧
        t.block.dmp = s.block.dmp) ∧
  (∀ (s : State) (m : Fin 4),
      Asked s m 0x1402 .sedge →
      queueOk (rN s.block m 0 2) false = true →
      s.block.dmp.state ≠ 0 →
      dumpBusy s.block.dmp = true →
      (∀ x, s.block.dmp.exporting = some x → x.mbx ≠ m) →
      ∃ t, exec (.dmpExport m) s = .next t ∧ Only [.lau, .arb, .mbx, .hic, .qmg, .cwy, .cwyX, .btn, .dmp, .rpl] s t ∧
        Answered s t m 0x1405 ([]) ∧
        t.block.dmp = s.block.dmp) ∧
  (∀ (s : State) (m : Fin 4),
      Asked s m 0x1403 .sedge →
      s.block.dmp.state = 0 →
      ∃ t, exec (.dmpRelease m) s = .next t ∧ Only [.mbx, .dmp, .rpl] s t ∧
        Answered s t m 0x1401 ([]) ∧
        t.block.dmp = s.block.dmp) ∧
  (∀ (s : State) (m : Fin 4),
      Asked s m 0x1403 .sedge →
      s.block.dmp.state ≠ 0 →
      dumpBusy s.block.dmp = false →
      ∃ t, exec (.dmpRelease m) s = .next t ∧ Only [.mbx, .dmp, .rpl] s t ∧
        Answered s t m 0 ([]) ∧
        t.block.dmp = { s.block.dmp with state := 0, exported := false, image := {} }) ∧
  (∀ (s : State) (m : Fin 4),
      Asked s m 0x1404 .carr →
      ∃ t, exec (.dmpTrigger m) s = .next t ∧ Only [.key, .mbx, .hic, .dmp, .rpl] s t ∧
        (if (authorise m 4 (rN s.block m 0 2) s.block).2 then t.block.dmp = { s.block.dmp with raised := s.block.dmp.raised ++ [5] } ∧ Answered s t m 0 [] else t.block.dmp = s.block.dmp ∧ Answered s t m 0x1404 []))

/-- Under the conditions of its clause each command answers a next state, the queue stays, only the units listed there change, and what follows holds. TRACE_OVERFLOW: what can be sent is; a buffer that stays full ends a recording with cause 5 and source 484. TRACE_IN in replay takes what the queue holds; not in replay, or with none, the replay stays. REPLAY_STARVED with nothing accepted ends a replay with cause 3 and source 486, else nothing. REC_ARM, Sedge running, to a record queue arms, or disarms; another queue answers 6. RPL_ARM, Carr running, with the strap, all settled and no pause: unauthorised 0x1404; authorised with no reset pending, a reset of the device in 1 ms that enters replay; without the strap 0x1402. RPL_GET_STATUS returns state. IDCODE, SAMPLE_PRELOAD, BYPASS and DBG_STATUS_SCAN return what their instruction selects; EXTEST with control, in reset with the pin low, drives the pins. DBG_CHALLENGE while unlockable: 32 bytes and the serial, for 60 s. DBG_RESPONSE while unlockable uses the challenge up, and is good only in time with a right signature of scope 1 or 2. DBG_CHALLENGE_EXPIRED ends it, with none nothing. DBG_ACCESS with scope does its access, a window read returns the word. DEBUG_HALT with control halts a core that is up; DEBUG_STEP steps and DEBUG_RESUME resumes a halted one, source 491; DEBUG_RESET_REQUEST with control, outside reset, resets the core, or the hub when none is pending; without control none changes debug or reset state. The constructors of Instr whose completion it states: traceOverflow, traceIn, replayStarved, recArm, rplArm, rplGetStatus, idcode, samplePreload, extest, dbgChallenge, dbgResponse, dbgChallengeExpired, dbgAccess, dbgStatusScan, bypass, debugHalt, debugStep, debugResetRequest, debugResume. -/
def Obligations.TraceAndDebug : Prop :=
  (∀ (s : State),
      ∃ t, exec .traceOverflow s = .next t ∧ Only [.lau, .arb, .hic, .qmg, .cwy, .cwyX, .btn, .dmp, .rpl] s t ∧
        (traceBufferSize ≤ (traceFlush s.block).rpl.buffer.length → (traceFlush s.block).rpl.state = 2 → t.block.rpl.state = 4 ∧ t.block.rpl.cause = 5 ∧ Raised t.block 484) ∧
        ((traceFlush s.block).rpl.buffer.length + ((traceFlush s.block).rpl.recent.map fun x => x.2.2.length).sum < traceBufferSize → t.block = safetyItem s.block (traceFlush s.block))) ∧
  (∀ (s : State),
      s.block.rpl.state ≠ 3 →
      ∃ t, exec .traceIn s = .next t ∧ Only (Part.but [.snaps, .fab, .sluCnt, .vehCfg, .v2gCfg, .rcmTest, .pnl, .frames, .nfc, .kept]) s t ∧
        t.block.rpl = s.block.rpl ∧
        t.block.qmg = s.block.qmg) ∧
  (∀ (s : State) (e : QErr),
      s.block.rpl.state = 3 →
      (qDequeue agDump s.block.rpl.queue.toNat s.block).2 = .error e →
      ∃ t, exec .traceIn s = .next t ∧ Only (Part.but [.snaps, .fab, .sluCnt, .vehCfg, .v2gCfg, .rcmTest, .pnl, .frames, .nfc, .kept]) s t ∧
        t.block.rpl = s.block.rpl) ∧
  (∀ (s : State),
      s.block.rpl.accepted = [] →
      s.block.rpl.state = 3 →
      ∃ t, exec .replayStarved s = .next t ∧ Only [.hic, .rpl] s t ∧
        t.block.rpl = { s.block.rpl with state := 4, cause := 3 } ∧
        Raised t.block 486) ∧
  (∀ (s : State) (u : Nat),
      s.block.rpl.state = 3 →
      (qDequeue agDump s.block.rpl.queue.toNat s.block).2 = .ok u →
      ∃ t, exec .traceIn s = .next t ∧ Only (Part.but [.snaps, .fab, .sluCnt, .vehCfg, .v2gCfg, .rcmTest, .pnl, .frames, .nfc, .kept]) s t ∧
        t.block = safetyItem s.block (traceIn s.block)) ∧
  (∀ (s : State),
      s.block.rpl.accepted = [] →
      ∃ t, exec .replayStarved s = .next t ∧ Only [.hic, .rpl] s t ∧
        t.block = safetyItem s.block (replayEnd 3 s.block)) ∧
  (∀ (s : State),
      s.block.rpl.accepted ≠ [] →
      ∃ t, exec .replayStarved s = .next t ∧ Only [.hic, .rpl] s t ∧
        t.block.rpl = s.block.rpl ∧
        t.block.hic = s.block.hic) ∧
  (∀ (s : State) (m : Fin 4),
      Asked s m 0x1405 .sedge →
      rBit s.block m 0 0 = true →
      queueOk (rN s.block m 2 2) false = true →
      ∃ t, exec (.recArm m) s = .next t ∧ Only [.pea, .arb, .mbx, .hic, .rpl] s t ∧
        t.block.rpl.recArmed = true ∧
        t.block.rpl.armQueue = r16 s.block m 2 ∧
        (t.block.rpl.state = if s.block.rpl.state = 0 then 1 else s.block.rpl.state)) ∧
  (∀ (s : State) (m : Fin 4),
      Asked s m 0x1405 .sedge →
      rBit s.block m 0 0 = false →
      queueOk (rN s.block m 2 2) true = true →
      ∃ t, exec (.recArm m) s = .next t ∧ Only [.pea, .arb, .mbx, .hic, .rpl] s t ∧
        t.block.rpl.recArmed = false ∧
        t.block.rpl.armQueue = r16 s.block m 2) ∧
  (∀ (s : State) (m : Fin 4),
      Asked s m 0x1405 .sedge →
      rBit s.block m 0 0 = true →
      queueOk (rN s.block m 2 2) false = false →
      ∃ t, exec (.recArm m) s = .next t ∧ Only [.pea, .arb, .mbx, .hic, .rpl] s t ∧
        Answered s t m 6 ([]) ∧
        t.block.rpl.recArmed = s.block.rpl.recArmed ∧
        t.block.rpl.armQueue = s.block.rpl.armQueue) ∧
  (∀ (s : State) (m : Fin 4),
      Asked s m 0x1406 .carr →
      strapReplay s.block.rst.choice.toNat = true →
      queueOk (rN s.block m 0 2) false = true →
      allSettled s.block = true →
      s.block.upd.pause = none →
      ∃ t, exec (.rplArm m) s = .next t ∧ Only [.arb, .key, .mbx, .hic, .rst, .btn, .rpl] s t ∧
        ((authorise m 4 (rN s.block m 2 2) s.block).2 = false → Answered s t m 0x1404 [] ∧ t.block.rst = s.block.rst) ∧
        ((authorise m 4 (rN s.block m 2 2) s.block).2 = true → s.block.rst.pending = none → t.block.rst.pending = some { scope := .device, source := 5, startAt := ahead s.block tMs, command := now s.block, replay := some (BitVec.ofNat 16 (rN s.block m 0 2)) } ∧ Answered s t m 0 (b64 (ahead s.block tMs + BitVec.ofNat 64 stopTicks)))) ∧
  (∀ (s : State) (m : Fin 4),
      Asked s m 0x1406 .carr →
      strapReplay s.block.rst.choice.toNat = false →
      ∃ t, exec (.rplArm m) s = .next t ∧ Only [.arb, .key, .mbx, .hic, .rst, .btn, .rpl] s t ∧
        Answered s t m 0x1402 ([]) ∧
        t.block.rst = s.block.rst) ∧
  (∀ (s : State) (m : Fin 4),
      Asked s m 0x1407 .sedge →
      ∃ t, exec (.rplGetStatus m) s = .next t ∧ Only [.mbx, .rpl] s t ∧
        Answered s t m 0 (b32 (rplStatusWord s.block.rpl) ++ b64 s.block.rpl.items ++ b32 s.block.rpl.lead ++ b64 s.block.rpl.diverge)) ∧
  (∀ (s : State),
      ∃ t, exec .idcode s = .next t ∧ Only [.rpl, .dbg] s t ∧
        t.block.dbg.ir = 1 ∧
        t.block.dbg.tdo = [0x6B, 0x6A, 0x29, 0x13]) ∧
  (∀ (s : State) (l : List Bool),
      ∃ t, exec (.samplePreload l) s = .next t ∧ Only [.rpl, .dbg] s t ∧
        t.block.dbg = { s.block.dbg with ir := 2, boundary := l, tdo := bitBytes l, pins := [] }) ∧
  (∀ (s : State) (l : List Bool),
      hasControl s.block = true →
      s.block.rst.inReset = true →
      s.block.rst.pinLow = true →
      ∃ t, exec (.extest l) s = .next t ∧ Only [.rpl, .dbg] s t ∧
        t.block.dbg.ir = 3 ∧
        t.block.dbg.boundary = l ∧
        t.block.dbg.pins = l ∧
        t.block.dbg.tdo = bitBytes s.block.dbg.boundary) ∧
  (∀ (s : State) (l : List Bool),
      ∃ t, exec (.extest l) s = .next t ∧ Only [.rpl, .dbg] s t ∧
        t.block = safetyItem s.block (extest l s.block)) ∧
  (∀ (s : State),
      ∃ t, exec .dbgChallenge s = .next t ∧ Only [.key, .rpl, .dbg] s t ∧
        t.block = safetyItem s.block (dbgChallenge s.block)) ∧
  (∀ (s : State) (scope : U8) (sig : List U8),
      ∃ t, exec (.dbgResponse scope sig) s = .next t ∧ Only [.arb, .hic, .btn, .rpl, .dbg] s t ∧
        t.block = safetyItem s.block (dbgResponse scope sig s.block)) ∧
  (∀ (s : State),
      s.block.dbg.challenge = none →
      ∃ t, exec .dbgChallengeExpired s = .next t ∧ Only [.tide, .rpl, .dbg, .prior] s t ∧
        t.block.dbg = s.block.dbg) ∧
  (∀ (s : State) (o : DebugOp),
      ∃ t, exec (.dbgAccess o) s = .next t ∧ Only [.tide, .barrier, .cross, .met, .slu, .mlk, .veh, .imd, .rcm, .pea, .mbx, .hp, .hic, .rst, .upd, .rpl, .dbg] s t ∧
        t.block = safetyItem s.block (dbgAccess o s.block)) ∧
  (∀ (s : State),
      unlockable s.block = true →
      ∃ t, exec .dbgChallenge s = .next t ∧ Only [.key, .rpl, .dbg] s t ∧
        t.block.dbg.ir = 0x10 ∧
        t.block.dbg.challenge = some ((draw 32 s.block).2, ahead s.block 90000000000) ∧
        t.block.dbg.tdo = (draw 32 s.block).2 ++ b64 s.block.key.serial) ∧
  (∀ (s : State) (scope : U8) (sig : List U8),
      unlockable s.block = true →
      s.block.dbg.challenge = none →
      ∃ t, exec (.dbgResponse scope sig) s = .next t ∧ Only [.arb, .hic, .btn, .rpl, .dbg] s t ∧
        (t.block = safetyItem s.block (responseFail (scan 0x11 [] (updDbg (fun d => { d with challenge := none }) s.block)))) ∧
        t.block.dbg.challenge = none) ∧
  (∀ (s : State) (scope : U8) (sig : List U8) (c : List U8) (i : U64),
      unlockable s.block = true →
      s.block.dbg.challenge = some (c, i) →
      (now s.block).toNat < i.toNat →
      (scope = 1 ∨ scope = 2) →
      ∃ t, exec (.dbgResponse scope sig) s = .next t ∧ Only [.arb, .hic, .btn, .rpl, .dbg] s t ∧
        (t.block = safetyItem s.block (if verifySlot s.block 1 2 (c ++ b64 s.block.key.serial ++ [scope]) sig then responseGood scope (scan 0x11 [] (updDbg (fun d => { d with challenge := none }) s.block)) else responseFail (scan 0x11 [] (updDbg (fun d => { d with challenge := none }) s.block))))) ∧
  (∀ (s : State) (c : List U8) (i : U64),
      s.block.dbg.challenge = some (c, i) →
      i.toNat ≤ (now s.block).toNat →
      ∃ t, exec .dbgChallengeExpired s = .next t ∧ Only [.tide, .rpl, .dbg, .prior] s t ∧
        t.block.dbg = { s.block.dbg with challenge := none }) ∧
  (∀ (s : State) (o : DebugOp),
      hasObserve s.block = true →
      ∃ t, exec (.dbgAccess o) s = .next t ∧ Only [.tide, .barrier, .cross, .met, .slu, .mlk, .veh, .imd, .rcm, .pea, .mbx, .hp, .hic, .rst, .upd, .rpl, .dbg] s t ∧
        t.block = safetyItem s.block (accessDo o s.block)) ∧
  (∀ (s : State) (o : DebugOp) (a : U16),
      hasObserve s.block = true →
      o = .readWindow a →
      ∃ t, exec (.dbgAccess o) s = .next t ∧ Only [.tide, .barrier, .cross, .met, .slu, .mlk, .veh, .imd, .rcm, .pea, .mbx, .hp, .hic, .rst, .upd, .rpl, .dbg] s t ∧
        Only [.dbg, .rpl] s t ∧
        t.block.dbg.tdo = b32 (viewWord s.block a.toNat) ∧
        t.block.dbg.accesses = s.block.dbg.accesses) ∧
  (∀ (s : State),
      ∃ t, exec .dbgStatusScan s = .next t ∧ Only [.rpl, .dbg] s t ∧
        t.block.dbg.ir = 0x13 ∧
        t.block.dbg.tdo = b32 (dbgStatusWord s.block)) ∧
  (∀ (s : State),
      ∃ t, exec .bypass s = .next t ∧ Only [.rpl, .dbg] s t ∧
        t.block.dbg.ir = 0x1F ∧
        t.block.dbg.tdo = [0]) ∧
  (∀ (s : State) (c : CoreId),
      hasControl s.block = true →
      coreUp s.block c = true →
      coreHalted s.block c = false →
      s.block.rst.inReset = false →
      c ≠ .dyke →
      ∃ t, exec (.debugHalt c) s = .next t ∧ Only [.lau, .sess, .mlk, .veh, .plc, .plcCfg, .v2g, .imd, .imdG, .saf, .safX, .lsw, .pea, .arb, .slt, .legal, .bri, .key, .hic, .qmg, .cwy, .cwyX, .rst, .btn, .dmp, .rpl, .dbg] s t ∧
        t.block = safetyItem s.block (haltNow c s.block) ∧
        coreHalted t.block c = true) ∧
  (∀ (s : State) (c : CoreId),
      hasControl s.block = true →
      coreUp s.block c = true →
      coreHalted s.block c = false →
      s.block.rst.inReset = false →
      c = .dyke →
      ∃ t, exec (.debugHalt c) s = .next t ∧ Only [.lau, .sess, .mlk, .veh, .plc, .plcCfg, .v2g, .imd, .imdG, .saf, .safX, .lsw, .pea, .arb, .slt, .legal, .bri, .key, .hic, .qmg, .cwy, .cwyX, .rst, .btn, .dmp, .rpl, .dbg] s t ∧
        t.block = safetyItem s.block (haltDyke s.block)) ∧
  (∀ (s : State) (c : CoreId),
      (coreUp s.block c = false ∨ coreHalted s.block c = true ∨ s.block.rst.inReset = true) →
      ∃ t, exec (.debugHalt c) s = .next t ∧ Only [.lau, .sess, .mlk, .veh, .plc, .plcCfg, .v2g, .imd, .imdG, .saf, .safX, .lsw, .pea, .arb, .slt, .legal, .bri, .key, .hic, .qmg, .cwy, .cwyX, .rst, .btn, .dmp, .rpl, .dbg] s t ∧
        t.block.dbg = s.block.dbg ∧
        t.block.rst = s.block.rst) ∧
  (∀ (s : State) (c : CoreId),
      (hasControl s.block = false ∨ coreHalted s.block c = false) →
      ∃ t, exec (.debugStep c) s = .next t ∧ Only [.rpl, .dbg] s t ∧
        t.block.dbg = s.block.dbg ∧
        t.block.rst = s.block.rst) ∧
  (∀ (s : State) (hub : Bool) (c : CoreId),
      (hasControl s.block = false ∨ s.block.rst.inReset = true) →
      ∃ t, exec (.debugResetRequest hub c) s = .next t ∧ Only [.lau, .sess, .mlk, .veh, .plc, .plcCfg, .v2g, .imd, .imdG, .saf, .safX, .lsw, .pea, .arb, .slt, .legal, .bri, .key, .mbx, .hic, .qmg, .cwy, .cwyX, .rst, .btn, .dmp, .rpl, .dbg] s t ∧
        t.block.dbg = s.block.dbg ∧
        t.block.rst = s.block.rst) ∧
  (∀ (s : State) (hub : Bool) (c : CoreId),
      hub = true →
      s.block.rst.pending ≠ none →
      ∃ t, exec (.debugResetRequest hub c) s = .next t ∧ Only [.lau, .sess, .mlk, .veh, .plc, .plcCfg, .v2g, .imd, .imdG, .saf, .safX, .lsw, .pea, .arb, .slt, .legal, .bri, .key, .mbx, .hic, .qmg, .cwy, .cwyX, .rst, .btn, .dmp, .rpl, .dbg] s t ∧
        t.block.dbg = s.block.dbg ∧
        t.block.rst = s.block.rst) ∧
  (∀ (s : State) (c : CoreId),
      hasControl s.block = false →
      ∃ t, exec (.debugHalt c) s = .next t ∧ Only [.lau, .sess, .mlk, .veh, .plc, .plcCfg, .v2g, .imd, .imdG, .saf, .safX, .lsw, .pea, .arb, .slt, .legal, .bri, .key, .hic, .qmg, .cwy, .cwyX, .rst, .btn, .dmp, .rpl, .dbg] s t ∧
        t.block.dbg = s.block.dbg ∧
        t.block.rst = s.block.rst) ∧
  (∀ (s : State) (c : CoreId),
      hasControl s.block = true →
      coreHalted s.block c = true →
      ∃ t, exec (.debugStep c) s = .next t ∧ Only [.rpl, .dbg] s t ∧
        t.block.dbg = { s.block.dbg with steps := vupd s.block.dbg.steps (stepIndex c) (· + 1) }) ∧
  (∀ (s : State) (c : CoreId),
      hasControl s.block = true →
      coreHalted s.block c = true →
      s.block.rst.inReset = false →
      ∃ t, exec (.debugResume c) s = .next t ∧ Only (Part.but [.tide, .snaps, .barrier, .fab, .d2d, .cross, .met, .acc, .pq, .slu, .sluCnt, .vehCfg, .v2gCfg, .rcm, .rcmTest, .pf, .backup, .hp, .pnl, .frames, .nfc, .upd, .settings, .newSettings, .legalSet, .updRec, .kept, .prior]) s t ∧
        coreHalted t.block c = false ∧
        Raised t.block 491) ∧
  (∀ (s : State) (c : CoreId),
      (coreHalted s.block c = false ∨ hasControl s.block = false ∨ s.block.rst.inReset = true) →
      ∃ t, exec (.debugResume c) s = .next t ∧ Only (Part.but [.tide, .snaps, .barrier, .fab, .d2d, .cross, .met, .acc, .pq, .slu, .sluCnt, .vehCfg, .v2gCfg, .rcm, .rcmTest, .pf, .backup, .hp, .pnl, .frames, .nfc, .upd, .settings, .newSettings, .legalSet, .updRec, .kept, .prior]) s t ∧
        t.block.dbg = s.block.dbg ∧
        t.block.rst = s.block.rst) ∧
  (∀ (s : State) (hub : Bool) (c : CoreId),
      hasControl s.block = true →
      s.block.rst.inReset = false →
      hub = true →
      s.block.rst.pending = none →
      ∃ t, exec (.debugResetRequest hub c) s = .next t ∧ Only [.lau, .sess, .mlk, .veh, .plc, .plcCfg, .v2g, .imd, .imdG, .saf, .safX, .lsw, .pea, .arb, .slt, .legal, .bri, .key, .mbx, .hic, .qmg, .cwy, .cwyX, .rst, .btn, .dmp, .rpl, .dbg] s t ∧
        t.block = safetyItem s.block (stopStart { scope := .hub, source := 6, startAt := now s.block, command := now s.block } s.block)) ∧
  (∀ (s : State) (hub : Bool) (c : CoreId),
      hasControl s.block = true →
      s.block.rst.inReset = false →
      hub = false →
      ∃ t, exec (.debugResetRequest hub c) s = .next t ∧ Only [.lau, .sess, .mlk, .veh, .plc, .plcCfg, .v2g, .imd, .imdG, .saf, .safX, .lsw, .pea, .arb, .slt, .legal, .bri, .key, .mbx, .hic, .qmg, .cwy, .cwyX, .rst, .btn, .dmp, .rpl, .dbg] s t ∧
        t.block = safetyItem s.block (coreRestart 6 c (updDbg (setHalt c false) s.block)))
end

