-- ==== Sys2Proof/Laws/Frame.lean ====
section
/-! SUPPORT. The calculus of frames: how "no unit but those listed changes" passes through updates, choices and repetition. -/

namespace Sys2Proof

open Machine

theorem Block.Only.refl (l : List Part) (b : Block) : Block.Only l b b := by
  intro p _; cases p <;> rfl

theorem Block.Only.trans {l : List Part} {b c d : Block} (h : Block.Only l b c) (k : Block.Only l c d) : Block.Only l b d := by
  intro p hp
  have := h p hp
  have := k p hp
  cases p <;> simp_all [Part.Same]

theorem Block.Only.mono {l k : List Part} {b c : Block} (h : Block.Only l b c) (hs : ∀ p ∈ l, p ∈ k) : Block.Only k b c :=
  fun p hp => h p fun hl => hp (hs p hl)

/-! One lemma for each unit, or group of units, that some operation writes at once: writing listed units keeps the frame. -/

theorem Block.Only.set_tide {l : List Part} {b c : Block} (h : Block.Only l b c) (x : Tide) (h0 : Part.tide ∈ l) :
    Block.Only l b { c with tide := x } := by
  intro p hp; cases p <;> first | exact absurd h0 hp | exact h _ hp

theorem Block.Only.set_lau {l : List Part} {b c : Block} (h : Block.Only l b c) (x : Launcher) (h0 : Part.lau ∈ l) :
    Block.Only l b { c with lau := x } := by
  intro p hp; cases p <;> first | exact absurd h0 hp | exact h _ hp

theorem Block.Only.set_snaps {l : List Part} {b c : Block} (h : Block.Only l b c) (x : Vector SnapBank 4) (h0 : Part.snaps ∈ l) :
    Block.Only l b { c with snaps := x } := by
  intro p hp; cases p <;> first | exact absurd h0 hp | exact h _ hp

theorem Block.Only.set_barrier {l : List Part} {b c : Block} (h : Block.Only l b c) (x : Barrier) (h0 : Part.barrier ∈ l) :
    Block.Only l b { c with barrier := x } := by
  intro p hp; cases p <;> first | exact absurd h0 hp | exact h _ hp

theorem Block.Only.set_fab {l : List Part} {b c : Block} (h : Block.Only l b c) (x : Vector Slack 15) (h0 : Part.fab ∈ l) :
    Block.Only l b { c with fab := x } := by
  intro p hp; cases p <;> first | exact absurd h0 hp | exact h _ hp

theorem Block.Only.set_d2d {l : List Part} {b c : Block} (h : Block.Only l b c) (x : D2d) (h0 : Part.d2d ∈ l) :
    Block.Only l b { c with d2d := x } := by
  intro p hp; cases p <;> first | exact absurd h0 hp | exact h _ hp

theorem Block.Only.set_cross {l : List Part} {b c : Block} (h : Block.Only l b c) (x : Vector Crossing 9) (h0 : Part.cross ∈ l) :
    Block.Only l b { c with cross := x } := by
  intro p hp; cases p <;> first | exact absurd h0 hp | exact h _ hp

theorem Block.Only.set_met {l : List Part} {b c : Block} (h : Block.Only l b c) (x : Metrology) (h0 : Part.met ∈ l) :
    Block.Only l b { c with met := x } := by
  intro p hp; cases p <;> first | exact absurd h0 hp | exact h _ hp

theorem Block.Only.set_acc {l : List Part} {b c : Block} (h : Block.Only l b c) (x : Energy) (h0 : Part.acc ∈ l) :
    Block.Only l b { c with acc := x } := by
  intro p hp; cases p <;> first | exact absurd h0 hp | exact h _ hp

theorem Block.Only.set_pq {l : List Part} {b c : Block} (h : Block.Only l b c) (x : Pq) (h0 : Part.pq ∈ l) :
    Block.Only l b { c with pq := x } := by
  intro p hp; cases p <;> first | exact absurd h0 hp | exact h _ hp

theorem Block.Only.set_sess {l : List Part} {b c : Block} (h : Block.Only l b c) (x : Vector Session 16) (h0 : Part.sess ∈ l) :
    Block.Only l b { c with sess := x } := by
  intro p hp; cases p <;> first | exact absurd h0 hp | exact h _ hp

theorem Block.Only.set_slu {l : List Part} {b c : Block} (h : Block.Only l b c) (x : Sluice) (h0 : Part.slu ∈ l) :
    Block.Only l b { c with slu := x } := by
  intro p hp; cases p <;> first | exact absurd h0 hp | exact h _ hp

theorem Block.Only.set_sluCnt {l : List Part} {b c : Block} (h : Block.Only l b c) (x : SluCounts) (h0 : Part.sluCnt ∈ l) :
    Block.Only l b { c with sluCnt := x } := by
  intro p hp; cases p <;> first | exact absurd h0 hp | exact h _ hp

theorem Block.Only.set_mlk {l : List Part} {b c : Block} (h : Block.Only l b c) (x : ModLink) (h0 : Part.mlk ∈ l) :
    Block.Only l b { c with mlk := x } := by
  intro p hp; cases p <;> first | exact absurd h0 hp | exact h _ hp

theorem Block.Only.set_veh {l : List Part} {b c : Block} (h : Block.Only l b c) (x : Vector Connector 16) (h0 : Part.veh ∈ l) :
    Block.Only l b { c with veh := x } := by
  intro p hp; cases p <;> first | exact absurd h0 hp | exact h _ hp

theorem Block.Only.set_vehCfg {l : List Part} {b c : Block} (h : Block.Only l b c) (x : VehCfg) (h0 : Part.vehCfg ∈ l) :
    Block.Only l b { c with vehCfg := x } := by
  intro p hp; cases p <;> first | exact absurd h0 hp | exact h _ hp

theorem Block.Only.set_plc {l : List Part} {b c : Block} (h : Block.Only l b c) (x : Vector Modem 16) (h0 : Part.plc ∈ l) :
    Block.Only l b { c with plc := x } := by
  intro p hp; cases p <;> first | exact absurd h0 hp | exact h _ hp

theorem Block.Only.set_plcCfg {l : List Part} {b c : Block} (h : Block.Only l b c) (x : PlcCfg) (h0 : Part.plcCfg ∈ l) :
    Block.Only l b { c with plcCfg := x } := by
  intro p hp; cases p <;> first | exact absurd h0 hp | exact h _ hp

theorem Block.Only.set_v2g {l : List Part} {b c : Block} (h : Block.Only l b c) (x : Vector V2gSession 16) (h0 : Part.v2g ∈ l) :
    Block.Only l b { c with v2g := x } := by
  intro p hp; cases p <;> first | exact absurd h0 hp | exact h _ hp

theorem Block.Only.set_v2gCfg {l : List Part} {b c : Block} (h : Block.Only l b c) (x : V2gCfg) (h0 : Part.v2gCfg ∈ l) :
    Block.Only l b { c with v2gCfg := x } := by
  intro p hp; cases p <;> first | exact absurd h0 hp | exact h _ hp

theorem Block.Only.set_imd {l : List Part} {b c : Block} (h : Block.Only l b c) (x : Vector ImdNode 16) (h0 : Part.imd ∈ l) :
    Block.Only l b { c with imd := x } := by
  intro p hp; cases p <;> first | exact absurd h0 hp | exact h _ hp

theorem Block.Only.set_imdG {l : List Part} {b c : Block} (h : Block.Only l b c) (x : ImdGlobal) (h0 : Part.imdG ∈ l) :
    Block.Only l b { c with imdG := x } := by
  intro p hp; cases p <;> first | exact absurd h0 hp | exact h _ hp

theorem Block.Only.set_rcm {l : List Part} {b c : Block} (h : Block.Only l b c) (x : Vector Rcm 2) (h0 : Part.rcm ∈ l) :
    Block.Only l b { c with rcm := x } := by
  intro p hp; cases p <;> first | exact absurd h0 hp | exact h _ hp

theorem Block.Only.set_rcmTest {l : List Part} {b c : Block} (h : Block.Only l b c) (x : Option RcmTest) (h0 : Part.rcmTest ∈ l) :
    Block.Only l b { c with rcmTest := x } := by
  intro p hp; cases p <;> first | exact absurd h0 hp | exact h _ hp

theorem Block.Only.set_saf {l : List Part} {b c : Block} (h : Block.Only l b c) (x : Safety) (h0 : Part.saf ∈ l) :
    Block.Only l b { c with saf := x } := by
  intro p hp; cases p <;> first | exact absurd h0 hp | exact h _ hp

theorem Block.Only.set_safX {l : List Part} {b c : Block} (h : Block.Only l b c) (x : SafetyX) (h0 : Part.safX ∈ l) :
    Block.Only l b { c with safX := x } := by
  intro p hp; cases p <;> first | exact absurd h0 hp | exact h _ hp

theorem Block.Only.set_lsw {l : List Part} {b c : Block} (h : Block.Only l b c) (x : Switches) (h0 : Part.lsw ∈ l) :
    Block.Only l b { c with lsw := x } := by
  intro p hp; cases p <;> first | exact absurd h0 hp | exact h _ hp

theorem Block.Only.set_pea {l : List Part} {b c : Block} (h : Block.Only l b c) (x : Peat) (h0 : Part.pea ∈ l) :
    Block.Only l b { c with pea := x } := by
  intro p hp; cases p <;> first | exact absurd h0 hp | exact h _ hp

theorem Block.Only.set_arb {l : List Part} {b c : Block} (h : Block.Only l b c) (x : Arbiter) (h0 : Part.arb ∈ l) :
    Block.Only l b { c with arb := x } := by
  intro p hp; cases p <;> first | exact absurd h0 hp | exact h _ hp

theorem Block.Only.set_pf {l : List Part} {b c : Block} (h : Block.Only l b c) (x : PowerFail) (h0 : Part.pf ∈ l) :
    Block.Only l b { c with pf := x } := by
  intro p hp; cases p <;> first | exact absurd h0 hp | exact h _ hp

theorem Block.Only.set_slt {l : List Part} {b c : Block} (h : Block.Only l b c) (x : Saltern) (h0 : Part.slt ∈ l) :
    Block.Only l b { c with slt := x } := by
  intro p hp; cases p <;> first | exact absurd h0 hp | exact h _ hp

theorem Block.Only.set_legal {l : List Part} {b c : Block} (h : Block.Only l b c) (x : Vector LegalConn 16) (h0 : Part.legal ∈ l) :
    Block.Only l b { c with legal := x } := by
  intro p hp; cases p <;> first | exact absurd h0 hp | exact h _ hp

theorem Block.Only.set_auth {l : List Part} {b c : Block} (h : Block.Only l b c) (x : Vector AuthHold 16) (h0 : Part.auth ∈ l) :
    Block.Only l b { c with auth := x } := by
  intro p hp; cases p <;> first | exact absurd h0 hp | exact h _ hp

theorem Block.Only.set_backup {l : List Part} {b c : Block} (h : Block.Only l b c) (x : Backup) (h0 : Part.backup ∈ l) :
    Block.Only l b { c with backup := x } := by
  intro p hp; cases p <;> first | exact absurd h0 hp | exact h _ hp

theorem Block.Only.set_bri {l : List Part} {b c : Block} (h : Block.Only l b c) (x : Brine) (h0 : Part.bri ∈ l) :
    Block.Only l b { c with bri := x } := by
  intro p hp; cases p <;> first | exact absurd h0 hp | exact h _ hp

theorem Block.Only.set_key {l : List Part} {b c : Block} (h : Block.Only l b c) (x : KeyStore) (h0 : Part.key ∈ l) :
    Block.Only l b { c with key := x } := by
  intro p hp; cases p <;> first | exact absurd h0 hp | exact h _ hp

theorem Block.Only.set_mbx {l : List Part} {b c : Block} (h : Block.Only l b c) (x : Vector Mailbox 4) (h0 : Part.mbx ∈ l) :
    Block.Only l b { c with mbx := x } := by
  intro p hp; cases p <;> first | exact absurd h0 hp | exact h _ hp

theorem Block.Only.set_hp {l : List Part} {b c : Block} (h : Block.Only l b c) (x : HostPort) (h0 : Part.hp ∈ l) :
    Block.Only l b { c with hp := x } := by
  intro p hp; cases p <;> first | exact absurd h0 hp | exact h _ hp

theorem Block.Only.set_hic {l : List Part} {b c : Block} (h : Block.Only l b c) (x : Hic) (h0 : Part.hic ∈ l) :
    Block.Only l b { c with hic := x } := by
  intro p hp; cases p <;> first | exact absurd h0 hp | exact h _ hp

theorem Block.Only.set_qmg {l : List Part} {b c : Block} (h : Block.Only l b c) (x : QueueManager) (h0 : Part.qmg ∈ l) :
    Block.Only l b { c with qmg := x } := by
  intro p hp; cases p <;> first | exact absurd h0 hp | exact h _ hp

theorem Block.Only.set_cwy {l : List Part} {b c : Block} (h : Block.Only l b c) (x : Causeway) (h0 : Part.cwy ∈ l) :
    Block.Only l b { c with cwy := x } := by
  intro p hp; cases p <;> first | exact absurd h0 hp | exact h _ hp

theorem Block.Only.set_cwyX {l : List Part} {b c : Block} (h : Block.Only l b c) (x : CausewayX) (h0 : Part.cwyX ∈ l) :
    Block.Only l b { c with cwyX := x } := by
  intro p hp; cases p <;> first | exact absurd h0 hp | exact h _ hp

theorem Block.Only.set_pnl {l : List Part} {b c : Block} (h : Block.Only l b c) (x : Vector Panel 8) (h0 : Part.pnl ∈ l) :
    Block.Only l b { c with pnl := x } := by
  intro p hp; cases p <;> first | exact absurd h0 hp | exact h _ hp

theorem Block.Only.set_frames {l : List Part} {b c : Block} (h : Block.Only l b c) (x : Memory) (h0 : Part.frames ∈ l) :
    Block.Only l b { c with frames := x } := by
  intro p hp; cases p <;> first | exact absurd h0 hp | exact h _ hp

theorem Block.Only.set_nfc {l : List Part} {b c : Block} (h : Block.Only l b c) (x : Vector Reader 8) (h0 : Part.nfc ∈ l) :
    Block.Only l b { c with nfc := x } := by
  intro p hp; cases p <;> first | exact absurd h0 hp | exact h _ hp

theorem Block.Only.set_rst {l : List Part} {b c : Block} (h : Block.Only l b c) (x : ResetUnit) (h0 : Part.rst ∈ l) :
    Block.Only l b { c with rst := x } := by
  intro p hp; cases p <;> first | exact absurd h0 hp | exact h _ hp

theorem Block.Only.set_upd {l : List Part} {b c : Block} (h : Block.Only l b c) (x : Update) (h0 : Part.upd ∈ l) :
    Block.Only l b { c with upd := x } := by
  intro p hp; cases p <;> first | exact absurd h0 hp | exact h _ hp

theorem Block.Only.set_btn {l : List Part} {b c : Block} (h : Block.Only l b c) (x : Bittern) (h0 : Part.btn ∈ l) :
    Block.Only l b { c with btn := x } := by
  intro p hp; cases p <;> first | exact absurd h0 hp | exact h _ hp

theorem Block.Only.set_dmp {l : List Part} {b c : Block} (h : Block.Only l b c) (x : Dump) (h0 : Part.dmp ∈ l) :
    Block.Only l b { c with dmp := x } := by
  intro p hp; cases p <;> first | exact absurd h0 hp | exact h _ hp

theorem Block.Only.set_rpl {l : List Part} {b c : Block} (h : Block.Only l b c) (x : Replay) (h0 : Part.rpl ∈ l) :
    Block.Only l b { c with rpl := x } := by
  intro p hp; cases p <;> first | exact absurd h0 hp | exact h _ hp

theorem Block.Only.set_dbg {l : List Part} {b c : Block} (h : Block.Only l b c) (x : Debug) (h0 : Part.dbg ∈ l) :
    Block.Only l b { c with dbg := x } := by
  intro p hp; cases p <;> first | exact absurd h0 hp | exact h _ hp

theorem Block.Only.set_settings {l : List Part} {b c : Block} (h : Block.Only l b c) (x : Settings) (h0 : Part.settings ∈ l) :
    Block.Only l b { c with settings := x } := by
  intro p hp; cases p <;> first | exact absurd h0 hp | exact h _ hp

theorem Block.Only.set_newSettings {l : List Part} {b c : Block} (h : Block.Only l b c) (x : Option Settings) (h0 : Part.newSettings ∈ l) :
    Block.Only l b { c with newSettings := x } := by
  intro p hp; cases p <;> first | exact absurd h0 hp | exact h _ hp

theorem Block.Only.set_legalSet {l : List Part} {b c : Block} (h : Block.Only l b c) (x : LegalSet) (h0 : Part.legalSet ∈ l) :
    Block.Only l b { c with legalSet := x } := by
  intro p hp; cases p <;> first | exact absurd h0 hp | exact h _ hp

theorem Block.Only.set_updRec {l : List Part} {b c : Block} (h : Block.Only l b c) (x : UpdRecord) (h0 : Part.updRec ∈ l) :
    Block.Only l b { c with updRec := x } := by
  intro p hp; cases p <;> first | exact absurd h0 hp | exact h _ hp

theorem Block.Only.set_kept {l : List Part} {b c : Block} (h : Block.Only l b c) (x : Option Kept) (h0 : Part.kept ∈ l) :
    Block.Only l b { c with kept := x } := by
  intro p hp; cases p <;> first | exact absurd h0 hp | exact h _ hp

theorem Block.Only.set_prior {l : List Part} {b c : Block} (h : Block.Only l b c) (x : Prior) (h0 : Part.prior ∈ l) :
    Block.Only l b { c with prior := x } := by
  intro p hp; cases p <;> first | exact absurd h0 hp | exact h _ hp

theorem Block.Only.set_arb_btn {l : List Part} {b c : Block} (h : Block.Only l b c) (x0 : Arbiter) (x1 : Bittern) (h0 : Part.arb ∈ l) (h1 : Part.btn ∈ l) :
    Block.Only l b { c with arb := x0, btn := x1 } := by
  intro p hp; cases p <;> first | exact absurd h0 hp | exact absurd h1 hp | exact h _ hp

theorem Block.Only.set_arb_pea {l : List Part} {b c : Block} (h : Block.Only l b c) (x0 : Arbiter) (x1 : Peat) (h0 : Part.arb ∈ l) (h1 : Part.pea ∈ l) :
    Block.Only l b { c with arb := x0, pea := x1 } := by
  intro p hp; cases p <;> first | exact absurd h0 hp | exact absurd h1 hp | exact h _ hp

theorem Block.Only.set_acc_slt {l : List Part} {b c : Block} (h : Block.Only l b c) (x0 : Energy) (x1 : Saltern) (h0 : Part.acc ∈ l) (h1 : Part.slt ∈ l) :
    Block.Only l b { c with acc := x0, slt := x1 } := by
  intro p hp; cases p <;> first | exact absurd h0 hp | exact absurd h1 hp | exact h _ hp

theorem Block.Only.set_dmp_key {l : List Part} {b c : Block} (h : Block.Only l b c) (x0 : Dump) (x1 : KeyStore) (h0 : Part.dmp ∈ l) (h1 : Part.key ∈ l) :
    Block.Only l b { c with dmp := x0, key := x1 } := by
  intro p hp; cases p <;> first | exact absurd h0 hp | exact absurd h1 hp | exact h _ hp

theorem Block.Only.set_cwy_qmg {l : List Part} {b c : Block} (h : Block.Only l b c) (x0 : Causeway) (x1 : QueueManager) (h0 : Part.cwy ∈ l) (h1 : Part.qmg ∈ l) :
    Block.Only l b { c with cwy := x0, qmg := x1 } := by
  intro p hp; cases p <;> first | exact absurd h0 hp | exact absurd h1 hp | exact h _ hp

theorem Block.Only.set_pea_rpl {l : List Part} {b c : Block} (h : Block.Only l b c) (x0 : Peat) (x1 : Replay) (h0 : Part.pea ∈ l) (h1 : Part.rpl ∈ l) :
    Block.Only l b { c with pea := x0, rpl := x1 } := by
  intro p hp; cases p <;> first | exact absurd h0 hp | exact absurd h1 hp | exact h _ hp

theorem Block.Only.set_auth_v2g {l : List Part} {b c : Block} (h : Block.Only l b c) (x0 : Vector AuthHold 16) (x1 : Vector V2gSession 16) (h0 : Part.auth ∈ l) (h1 : Part.v2g ∈ l) :
    Block.Only l b { c with auth := x0, v2g := x1 } := by
  intro p hp; cases p <;> first | exact absurd h0 hp | exact absurd h1 hp | exact h _ hp

theorem Block.Only.set_newSettings_settings {l : List Part} {b c : Block} (h : Block.Only l b c) (x0 : Option Settings) (x1 : Settings) (h0 : Part.newSettings ∈ l) (h1 : Part.settings ∈ l) :
    Block.Only l b { c with newSettings := x0, settings := x1 } := by
  intro p hp; cases p <;> first | exact absurd h0 hp | exact absurd h1 hp | exact h _ hp

theorem Block.Only.set_acc_legal {l : List Part} {b c : Block} (h : Block.Only l b c) (x0 : Energy) (x1 : Vector LegalConn 16) (h0 : Part.acc ∈ l) (h1 : Part.legal ∈ l) :
    Block.Only l b { c with acc := x0, legal := x1 } := by
  intro p hp; cases p <;> first | exact absurd h0 hp | exact absurd h1 hp | exact h _ hp

theorem Block.Only.set_lau_tide {l : List Part} {b c : Block} (h : Block.Only l b c) (x0 : Launcher) (x1 : Tide) (h0 : Part.lau ∈ l) (h1 : Part.tide ∈ l) :
    Block.Only l b { c with lau := x0, tide := x1 } := by
  intro p hp; cases p <;> first | exact absurd h0 hp | exact absurd h1 hp | exact h _ hp

theorem Block.Only.set_acc_dmp_kept_key_legal_pea {l : List Part} {b c : Block} (h : Block.Only l b c) (x0 : Energy) (x1 : Dump) (x2 : Option Kept) (x3 : KeyStore) (x4 : Vector LegalConn 16) (x5 : Peat) (h0 : Part.acc ∈ l) (h1 : Part.dmp ∈ l) (h2 : Part.kept ∈ l) (h3 : Part.key ∈ l) (h4 : Part.legal ∈ l) (h5 : Part.pea ∈ l) :
    Block.Only l b { c with acc := x0, dmp := x1, kept := x2, key := x3, legal := x4, pea := x5 } := by
  intro p hp; cases p <;> first | exact absurd h0 hp | exact absurd h1 hp | exact absurd h2 hp | exact absurd h3 hp | exact absurd h4 hp | exact absurd h5 hp | exact h _ hp

theorem Block.Only.set_btn_key {l : List Part} {b c : Block} (h : Block.Only l b c) (x0 : Bittern) (x1 : KeyStore) (h0 : Part.btn ∈ l) (h1 : Part.key ∈ l) :
    Block.Only l b { c with btn := x0, key := x1 } := by
  intro p hp; cases p <;> first | exact absurd h0 hp | exact absurd h1 hp | exact h _ hp

theorem Block.Only.set_bri_met {l : List Part} {b c : Block} (h : Block.Only l b c) (x0 : Brine) (x1 : Metrology) (h0 : Part.bri ∈ l) (h1 : Part.met ∈ l) :
    Block.Only l b { c with bri := x0, met := x1 } := by
  intro p hp; cases p <;> first | exact absurd h0 hp | exact absurd h1 hp | exact h _ hp

theorem Block.Only.set_mlk_sess_slu {l : List Part} {b c : Block} (h : Block.Only l b c) (x0 : ModLink) (x1 : Vector Session 16) (x2 : Sluice) (h0 : Part.mlk ∈ l) (h1 : Part.sess ∈ l) (h2 : Part.slu ∈ l) :
    Block.Only l b { c with mlk := x0, sess := x1, slu := x2 } := by
  intro p hp; cases p <;> first | exact absurd h0 hp | exact absurd h1 hp | exact absurd h2 hp | exact h _ hp

theorem Block.Only.set_plc_plcCfg_v2gCfg_veh_vehCfg {l : List Part} {b c : Block} (h : Block.Only l b c) (x0 : Vector Modem 16) (x1 : PlcCfg) (x2 : V2gCfg) (x3 : Vector Connector 16) (x4 : VehCfg) (h0 : Part.plc ∈ l) (h1 : Part.plcCfg ∈ l) (h2 : Part.v2gCfg ∈ l) (h3 : Part.veh ∈ l) (h4 : Part.vehCfg ∈ l) :
    Block.Only l b { c with plc := x0, plcCfg := x1, v2gCfg := x2, veh := x3, vehCfg := x4 } := by
  intro p hp; cases p <;> first | exact absurd h0 hp | exact absurd h1 hp | exact absurd h2 hp | exact absurd h3 hp | exact absurd h4 hp | exact h _ hp

theorem Block.Only.set_imd_imdG_lsw_rcm {l : List Part} {b c : Block} (h : Block.Only l b c) (x0 : Vector ImdNode 16) (x1 : ImdGlobal) (x2 : Switches) (x3 : Vector Rcm 2) (h0 : Part.imd ∈ l) (h1 : Part.imdG ∈ l) (h2 : Part.lsw ∈ l) (h3 : Part.rcm ∈ l) :
    Block.Only l b { c with imd := x0, imdG := x1, lsw := x2, rcm := x3 } := by
  intro p hp; cases p <;> first | exact absurd h0 hp | exact absurd h1 hp | exact absurd h2 hp | exact absurd h3 hp | exact h _ hp

theorem Block.Only.set_saf_safX {l : List Part} {b c : Block} (h : Block.Only l b c) (x0 : Safety) (x1 : SafetyX) (h0 : Part.saf ∈ l) (h1 : Part.safX ∈ l) :
    Block.Only l b { c with saf := x0, safX := x1 } := by
  intro p hp; cases p <;> first | exact absurd h0 hp | exact absurd h1 hp | exact h _ hp

theorem Block.Only.set_arb_btn_cwy_nfc_pf_pnl_qmg_rpl_upd {l : List Part} {b c : Block} (h : Block.Only l b c) (x0 : Arbiter) (x1 : Bittern) (x2 : Causeway) (x3 : Vector Reader 8) (x4 : PowerFail) (x5 : Vector Panel 8) (x6 : QueueManager) (x7 : Replay) (x8 : Update) (h0 : Part.arb ∈ l) (h1 : Part.btn ∈ l) (h2 : Part.cwy ∈ l) (h3 : Part.nfc ∈ l) (h4 : Part.pf ∈ l) (h5 : Part.pnl ∈ l) (h6 : Part.qmg ∈ l) (h7 : Part.rpl ∈ l) (h8 : Part.upd ∈ l) :
    Block.Only l b { c with arb := x0, btn := x1, cwy := x2, nfc := x3, pf := x4, pnl := x5, qmg := x6, rpl := x7, upd := x8 } := by
  intro p hp; cases p <;> first | exact absurd h0 hp | exact absurd h1 hp | exact absurd h2 hp | exact absurd h3 hp | exact absurd h4 hp | exact absurd h5 hp | exact absurd h6 hp | exact absurd h7 hp | exact absurd h8 hp | exact h _ hp

theorem Block.Only.set_bri_slt {l : List Part} {b c : Block} (h : Block.Only l b c) (x0 : Brine) (x1 : Saltern) (h0 : Part.bri ∈ l) (h1 : Part.slt ∈ l) :
    Block.Only l b { c with bri := x0, slt := x1 } := by
  intro p hp; cases p <;> first | exact absurd h0 hp | exact absurd h1 hp | exact h _ hp

theorem Block.Only.set_acc_met_pq {l : List Part} {b c : Block} (h : Block.Only l b c) (x0 : Energy) (x1 : Metrology) (x2 : Pq) (h0 : Part.acc ∈ l) (h1 : Part.met ∈ l) (h2 : Part.pq ∈ l) :
    Block.Only l b { c with acc := x0, met := x1, pq := x2 } := by
  intro p hp; cases p <;> first | exact absurd h0 hp | exact absurd h1 hp | exact absurd h2 hp | exact h _ hp

theorem Block.Only.set_bri_pea {l : List Part} {b c : Block} (h : Block.Only l b c) (x0 : Brine) (x1 : Peat) (h0 : Part.bri ∈ l) (h1 : Part.pea ∈ l) :
    Block.Only l b { c with bri := x0, pea := x1 } := by
  intro p hp; cases p <;> first | exact absurd h0 hp | exact absurd h1 hp | exact h _ hp

theorem Block.Only.set_cwy_cwyX {l : List Part} {b c : Block} (h : Block.Only l b c) (x0 : Causeway) (x1 : CausewayX) (h0 : Part.cwy ∈ l) (h1 : Part.cwyX ∈ l) :
    Block.Only l b { c with cwy := x0, cwyX := x1 } := by
  intro p hp; cases p <;> first | exact absurd h0 hp | exact absurd h1 hp | exact h _ hp

theorem Block.Only.set_lsw_met_mlk_saf_veh {l : List Part} {b c : Block} (h : Block.Only l b c) (x0 : Switches) (x1 : Metrology) (x2 : ModLink) (x3 : Safety) (x4 : Vector Connector 16) (h0 : Part.lsw ∈ l) (h1 : Part.met ∈ l) (h2 : Part.mlk ∈ l) (h3 : Part.saf ∈ l) (h4 : Part.veh ∈ l) :
    Block.Only l b { c with lsw := x0, met := x1, mlk := x2, saf := x3, veh := x4 } := by
  intro p hp; cases p <;> first | exact absurd h0 hp | exact absurd h1 hp | exact absurd h2 hp | exact absurd h3 hp | exact absurd h4 hp | exact h _ hp

theorem Block.Only.set_prior_tide {l : List Part} {b c : Block} (h : Block.Only l b c) (x0 : Prior) (x1 : Tide) (h0 : Part.prior ∈ l) (h1 : Part.tide ∈ l) :
    Block.Only l b { c with prior := x0, tide := x1 } := by
  intro p hp; cases p <;> first | exact absurd h0 hp | exact absurd h1 hp | exact h _ hp

/-- One more operation with a known frame. -/
theorem Block.Only.step {l k : List Part} {b c d : Block} (h : Block.Only k c d) (hs : k ⊆ l) (hc : Block.Only l b c) : Block.Only l b d :=
  hc.trans (h.mono hs)

theorem Block.Only.onlyIf {l : List Part} {b c : Block} {f : Block → Block} (x : Bool)
    (hf : ∀ d, Block.Only l b d → Block.Only l b (f d)) (h : Block.Only l b c) : Block.Only l b (onlyIf x f c) := by
  unfold Machine.onlyIf; split
  · exact hf _ h
  · exact h

theorem Block.Only.foldl {l : List Part} {b : Block} {β : Type} {f : Block → β → Block}
    (hf : ∀ x d, Block.Only l b d → Block.Only l b (f d x)) (xs : List β) : ∀ {c : Block}, Block.Only l b c → Block.Only l b (xs.foldl f c) := by
  induction xs with
  | nil => intro c h; exact h
  | cons x xs ih => intro c h; exact ih (hf x c h)

theorem Block.Only.forAll {l : List Part} {b c : Block} {β : Type} {f : β → Block → Block}
    (hf : ∀ x d, Block.Only l b d → Block.Only l b (f x d)) (xs : List β) (h : Block.Only l b c) : Block.Only l b (forAll xs f c) :=
  Block.Only.foldl (f := fun a b => f b a) hf xs h

theorem Block.Only.ite {l : List Part} {b c d : Block} (p : Prop) [Decidable p] (hc : Block.Only l b c) (hd : Block.Only l b d) :
    Block.Only l b (if p then c else d) := by
  split
  · exact hc
  · exact hd

theorem Block.Only.dite {l : List Part} {b : Block} (p : Prop) [Decidable p] {c : p → Block} {d : ¬p → Block}
    (hc : ∀ h, Block.Only l b (c h)) (hd : ∀ h, Block.Only l b (d h)) : Block.Only l b (if h : p then c h else d h) := by
  split
  · exact hc _
  · exact hd _

theorem Block.Only.iteFst {l : List Part} {b : Block} {α : Type} {c d : Block × α} (p : Prop) [Decidable p] (hc : Block.Only l b c.1) (hd : Block.Only l b d.1) :
    Block.Only l b (if p then c else d).1 := by
  split
  · exact hc
  · exact hd

theorem Block.Only.diteFst {l : List Part} {b : Block} {α : Type} (p : Prop) [Decidable p] {c : p → Block × α} {d : ¬p → Block × α}
    (hc : ∀ h, Block.Only l b (c h).1) (hd : ∀ h, Block.Only l b (d h).1) : Block.Only l b (if h : p then c h else d h).1 := by
  split
  · exact hc _
  · exact hd _

theorem Block.Only.ofPair {l : List Part} {b x : Block} {α : Type} {y : α} {v : Block × α} (h : v = (x, y)) (hv : Block.Only l b v.1) : Block.Only l b x := by
  subst h; exact hv

theorem Block.Only.viaVar {l : List Part} {b d : Block} (x : Block) (hx : Block.Only l b x) (h : Block.Only l b x → Block.Only l b d) : Block.Only l b d := h hx

theorem Block.Only.viaPair {l : List Part} {b d : Block} {α : Type} (x : Block × α) (hx : Block.Only l b x.1) (h : Block.Only l b x.1 → Block.Only l b d) : Block.Only l b d := h hx

/-! ### Shared operations -/

namespace Machine

theorem traceItem_frame (cls : Nat) (flags : U8) (stamp : U64) (payload : List U8) (b : Block) :
    Block.Only [.rpl] b (traceItem cls flags stamp payload b) := by
  unfold traceItem
  refine Block.Only.ite _ ?_ (Block.Only.refl _ _)
  exact (Block.Only.refl _ _).set_rpl _ (by decide)

theorem safetyItem_frame (old new : Block) : Block.Only [.rpl] new (safetyItem old new) := by
  unfold safetyItem
  exact Block.Only.ite _ (traceItem_frame _ _ _ _ _) (Block.Only.refl _ _)

theorem setMbx_frame (m : Fin 4) (x : Mailbox) (b : Block) : Block.Only [.mbx] b (setMbx m x b) := by
  unfold setMbx
  exact (Block.Only.refl _ _).set_mbx _ (by decide)

theorem respond_frame (m : Fin 4) (status : Nat) (p : List U8) (b : Block) : Block.Only [.mbx, .rpl] b (respond m status p b) := by
  unfold respond
  refine Block.Only.onlyIf _ (fun _ h => ?_) ((setMbx_frame _ _ _).mono (by decide))
  exact Block.Only.step (traceItem_frame _ _ _ _ _) (by decide) h

theorem refuse_frame (m : Fin 4) (status : Nat) (b : Block) : Block.Only [.mbx, .rpl] b (refuse m status b) := respond_frame _ _ _ _

theorem ok_frame (m : Fin 4) (p : List U8) (b : Block) : Block.Only [.mbx, .rpl] b (ok m p b) := respond_frame _ _ _ _

theorem replayAnswer_frame {l : List Part} {b c : Block} {f : Block → Block} {m : Fin 4} {op : Nat} (hm : Part.mbx ∈ l) (hr : Part.rpl ∈ l)
    (hf : ∀ d, Block.Only l b d → Block.Only l b (f d)) (h : Block.Only l b c) : Block.Only l b (replayAnswer m op f c) := by
  have hk : [Part.mbx, Part.rpl] ⊆ l := by simp [hm, hr]
  unfold replayAnswer
  split
  · refine Block.Only.step ((setMbx_frame _ _ _).mono (k := [.mbx, .rpl]) (by decide)) hk ?_
    exact h.set_rpl _ hr
  · refine Block.Only.ite _ h (Block.Only.ite _ (hf _ h) (Block.Only.step (refuse_frame _ _ _) hk h))

end Machine

/-- A command keeps what its effect and an answer keep. -/
theorem Block.Only.command {l : List Part} {b c : Block} {f : Block → Block} {m : Fin 4} {op : Nat} {need : Need} (hm : Part.mbx ∈ l)
    (hr : Part.rpl ∈ l) (hf : ∀ d, Block.Only l b d → Block.Only l b (f d)) (h : Block.Only l b c) : Block.Only l b (command m op need f c) := by
  have hk : [Part.mbx, Part.rpl] ⊆ l := by simp [hm, hr]
  unfold Machine.command
  exact Block.Only.ite _ h (Block.Only.ite _ (Block.Only.step (refuse_frame _ _ _) hk h)
    (Block.Only.ite _ (replayAnswer_frame hm hr hf h) (hf _ h)))

/-- A checked effect keeps what the effect and an answer keep. -/
theorem Block.Only.checked {l : List Part} {b c : Block} {f : Block → Block} {m : Fin 4} {xs : List (Nat × Bool)} (hm : Part.mbx ∈ l)
    (hr : Part.rpl ∈ l) (hf : ∀ d, Block.Only l b d → Block.Only l b (f d)) (h : Block.Only l b c) : Block.Only l b (checked m xs f c) := by
  have hk : [Part.mbx, Part.rpl] ⊆ l := by simp [hm, hr]
  unfold Machine.checked
  split
  · exact Block.Only.step (refuse_frame _ _ _) hk h
  · exact hf _ h

namespace Machine

theorem setNow_frame (t : U64) (b : Block) : Block.Only [.tide, .prior] b (setNow t b) :=
  (Block.Only.refl _ _).set_prior_tide _ _ (by decide) (by decide)

theorem tideTo_frame (t : Nat) (b : Block) : Block.Only [.tide, .prior] b (tideTo t b) := by
  unfold tideTo
  exact Block.Only.ite _ (setNow_frame _ _) (Block.Only.refl _ _)

end Machine

/-- An event at its instant keeps what its effect keeps, but for Tide and what the latches of the instant see. -/
theorem Block.Only.atInstant {l : List Part} {b c : Block} {f : Block → Block} {t : Nat} (ht : Part.tide ∈ l) (hp : Part.prior ∈ l)
    (hf : ∀ d, Block.Only l b d → Block.Only l b (f d)) (h : Block.Only l b c) : Block.Only l b (atInstant t f c) := by
  have hk : [Part.tide, Part.prior] ⊆ l := by simp [ht, hp]
  unfold Machine.atInstant
  exact Block.Only.ite _ (hf _ (Block.Only.step (tideTo_frame _ _) hk h)) (Block.Only.step (tideTo_frame _ _) hk h)

theorem Block.Only.afterTicks {l : List Part} {b c : Block} {f : Block → Block} {t : U64} {n : Nat} (ht : Part.tide ∈ l) (hp : Part.prior ∈ l)
    (hf : ∀ d, Block.Only l b d → Block.Only l b (f d)) (h : Block.Only l b c) : Block.Only l b (afterTicks t n f c) :=
  Block.Only.atInstant ht hp hf h

namespace Machine

/-- A command's step keeps the queue, and what its effect keeps but for the trace. -/
theorem run_frame {l : List Part} {f : Block → Block} {s t : State} (hr : Part.rpl ∈ l) (hf : Block.Only l s.block (f s.block))
    (h : s.run f = .next t) : Only l s t := by
  simp only [State.run, Host.Outcome.next.injEq] at h
  subst h
  exact ⟨rfl, Block.Only.step (safetyItem_frame _ _) (by simp [hr]) hf⟩

theorem input_frame {l : List Part} {f : Block → Block} {s t : State} (hr : Part.rpl ∈ l) (hf : Block.Only l s.block (f s.block))
    (h : s.input f = .next t) : Only l s t := by
  refine run_frame hr ?_ h
  split
  · exact Block.Only.refl _ _
  · exact hf

end Machine

theorem Block.Only.withKeys {l : List Part} {b c : Block} {f : Block → Block} {m : Fin 4} (hm : Part.mbx ∈ l) (hr : Part.rpl ∈ l)
    (hf : ∀ d, Block.Only l b d → Block.Only l b (f d)) (h : Block.Only l b c) : Block.Only l b (withKeys m f c) := by
  unfold Machine.withKeys
  exact Block.Only.ite _ (hf _ h) (Block.Only.step (refuse_frame _ _ _) (by simp [hm, hr]) h)

theorem Block.Only.availableIf {l : List Part} {b c : Block} {f : Block → Block} {x : Bool} (hm : Part.dbg ∈ l)
    (hf : ∀ d, Block.Only l b d → Block.Only l b (f d)) (h : Block.Only l b c) (hb : ∀ d, Block.Only [.dbg] d (bypassScan d)) : Block.Only l b (availableIf x f c) := by
  unfold Machine.availableIf
  exact Block.Only.ite _ (hf _ h) (Block.Only.step (hb _) (by simp [hm]) h)

theorem Block.Only.eachHo {l : List Part} {b c : Block} {f : Fin 24 → HandOver → Block → Block}
    (hf : ∀ i x d, Block.Only l b d → Block.Only l b (f i x d)) (h : Block.Only l b c) : Block.Only l b (eachHo f c) := by
  unfold Machine.eachHo
  refine Block.Only.forAll (fun _ _ _ => ?_) _ h
  split
  · exact hf _ _ _ (by assumption)
  · assumption

end Sys2Proof
end

