-- ==== Sys2Proof/Laws/FrameInterrupts.lean ====
section
/-! SUPPORT. Frames of the operations of Machine/Interrupts.lean: the units each of them may change. -/

namespace Sys2Proof.Machine

theorem hicChange_frame (f : Hic → Hic) (b : Block) :
    Block.Only [.hic] b (hicChange f b) := by
  unfold hicChange
  with_reducible
    refine .set_hic ?_ _ (by decide)
    exact .refl _ _

theorem irq_frame (n : Nat) (b : Block) :
    Block.Only [.hic] b (irq n b) := by
  unfold irq
  with_reducible
    refine .dite _ (fun _ => ?_) (fun _ => ?_)
    refine .set_hic ?_ _ (by decide)
    exact .refl _ _
    exact .refl _ _

theorem irqs_frame (l : List Nat) (b : Block) :
    Block.Only [.hic] b (irqs l b) := by
  unfold irqs
  with_reducible
    refine .forAll (fun _ _ _ => ?_) _ ?_
    refine .step (irq_frame ..) (by decide) ?_
    assumption
    exact .refl _ _

theorem hicClaim_frame (p : Fin 4) (b : Block) :
    Block.Only [.hic] b (hicClaim p b) := by
  unfold hicClaim
  with_reducible
    split
    refine .dite _ (fun _ => ?_) (fun _ => ?_)
    refine .step (hicChange_frame ..) (by decide) ?_
    exact .refl _ _
    exact .refl _ _
    exact .refl _ _

theorem hicComplete_frame (p : Fin 4) (n : Nat) (b : Block) :
    Block.Only [.hic] b (hicComplete p n b) := by
  unfold hicComplete
  with_reducible
    refine .ite _ ?_ ?_
    exact .refl _ _
    refine .dite _ (fun _ => ?_) (fun _ => ?_)
    split
    refine .ite _ ?_ ?_
    refine .step (hicChange_frame ..) (by decide) ?_
    exact .refl _ _
    refine .step (irq_frame ..) (by decide) ?_
    refine .set_hic ?_ _ (by decide)
    exact .refl _ _
    refine .step (irq_frame ..) (by decide) ?_
    refine .set_hic ?_ _ (by decide)
    exact .refl _ _
    exact .refl _ _

theorem hicWrite_frame (a : Nat) (v : U32) (b : Block) :
    Block.Only [.hic] b (hicWrite a v b) := by
  unfold hicWrite
  with_reducible
    try lift_lets
    intro xx
    clear_value xx
    refine .ite _ ?_ ?_
    refine .ite _ ?_ ?_
    refine .set_hic ?_ _ (by decide)
    exact .refl _ _
    exact .refl _ _
    refine .dite _ (fun _ => ?_) (fun _ => ?_)
    refine .step (hicChange_frame ..) (by decide) ?_
    exact .refl _ _
    refine .dite _ (fun _ => ?_) (fun _ => ?_)
    refine .step (hicComplete_frame ..) (by decide) ?_
    exact .refl _ _
    refine .ite _ ?_ ?_
    refine .step (hicChange_frame ..) (by decide) ?_
    exact .refl _ _
    refine .ite _ ?_ ?_
    refine .step (hicChange_frame ..) (by decide) ?_
    exact .refl _ _
    refine .ite _ ?_ ?_
    refine .step (hicChange_frame ..) (by decide) ?_
    exact .refl _ _
    refine .ite _ ?_ ?_
    refine .step (hicChange_frame ..) (by decide) ?_
    exact .refl _ _
    refine .ite _ ?_ ?_
    refine .step (hicChange_frame ..) (by decide) ?_
    exact .refl _ _
    exact .refl _ _

end Sys2Proof.Machine
end

