-- ==== Sys2Proof/Laws/FrameLogs.lean ====
section
/-! SUPPORT. Frames of the operations of Machine/Logs.lean: the units each of them may change. -/

namespace Sys2Proof.Machine

theorem legalLog_frame (code : U16) (writer : U8) (payload : List U8) (b : Block) :
    Block.Only [.arb, .btn] b (legalLog code writer payload b) := by
  unfold legalLog
  with_reducible
    try lift_lets
    intro xx
    clear_value xx
    try lift_lets
    intro xx
    clear_value xx
    refine .set_arb_btn ?_ _ _ (by decide) (by decide)
    exact .refl _ _

theorem leaseWrite_frame (mark : U64) (b : Block) :
    Block.Only [.arb, .pea] b (leaseWrite mark b) := by
  unfold leaseWrite
  with_reducible
    try lift_lets
    intro xx
    clear_value xx
    try lift_lets
    intro xx
    clear_value xx
    try lift_lets
    intro xx
    clear_value xx
    try lift_lets
    intro xx
    clear_value xx
    refine .set_arb_pea ?_ _ _ (by decide) (by decide)
    exact .refl _ _

theorem stageLeased_frame (body : List U8) (b : Block) :
    Block.Only [.btn, .hic] b (stageLeased body b) := by
  unfold stageLeased
  with_reducible
    try lift_lets
    intro xx
    clear_value xx
    try lift_lets
    intro xx
    clear_value xx
    try lift_lets
    intro xx
    clear_value xx
    try lift_lets
    intro xx
    clear_value xx
    refine .onlyIf _ (fun _ _ => ?_) ?_
    refine .step (irq_frame ..) (by decide) ?_
    assumption
    refine .set_btn ?_ _ (by decide)
    exact .refl _ _

theorem stageOp_frame (body : List U8) (b : Block) :
    Block.Only [.arb, .btn, .hic, .pea] b (stageOp body b) := by
  unfold stageOp
  with_reducible
    try lift_lets
    intro xx
    clear_value xx
    try lift_lets
    intro xx
    refine Block.Only.viaVar xx ?_ (fun _ => ?_) <;> [simp only [xx]; clear_value xx]
    refine .set_btn ?_ _ (by decide)
    exact .refl _ _
    refine .ite _ ?_ ?_
    refine .ite _ ?_ ?_
    assumption
    refine .step (leaseWrite_frame ..) (by decide) ?_
    assumption
    refine .step (stageLeased_frame ..) (by decide) ?_
    exact .refl _ _

theorem leased_frame (mark : U64) (b : Block) :
    Block.Only [.btn, .hic] b (leased mark b) := by
  unfold leased
  with_reducible
    try lift_lets
    intro xx
    clear_value xx
    refine .forAll (fun _ _ _ => ?_) _ ?_
    refine .step (stageLeased_frame ..) (by decide) ?_
    assumption
    refine .set_btn ?_ _ (by decide)
    exact .refl _ _

theorem leaseLost_frame (b : Block) :
    Block.Only [.btn] b (leaseLost b) := by
  unfold leaseLost
  with_reducible
    try lift_lets
    intro xx
    clear_value xx
    refine .set_btn ?_ _ (by decide)
    exact .refl _ _

theorem opLogAs_frame (writer : U8) (code : U16) (payload : List U8) (b : Block) :
    Block.Only [.arb, .btn, .hic, .pea] b (opLogAs writer code payload b) := by
  unfold opLogAs
  with_reducible
    try lift_lets
    intro xx
    clear_value xx
    try lift_lets
    intro xx
    clear_value xx
    try lift_lets
    intro xx
    clear_value xx
    try lift_lets
    intro xx
    clear_value xx
    refine .ite _ ?_ ?_
    refine .onlyIf _ (fun _ _ => ?_) ?_
    refine .step (irq_frame ..) (by decide) ?_
    assumption
    refine .set_btn ?_ _ (by decide)
    exact .refl _ _
    refine .step (stageOp_frame ..) (by decide) ?_
    refine .set_btn ?_ _ (by decide)
    exact .refl _ _

theorem opEvent_frame (writer : U8) (src : Nat) (index : Nat) (b : Block) :
    Block.Only [.arb, .btn, .hic, .pea] b (opEvent writer src index b) := by
  unfold opEvent
  with_reducible
    refine .step (opLogAs_frame ..) (by decide) ?_
    exact .refl _ _

theorem irqLog_frame (writer : U8) (src index : Nat) (b : Block) :
    Block.Only [.arb, .btn, .hic, .pea] b (irqLog writer src index b) := by
  unfold irqLog
  with_reducible
    refine .step (opEvent_frame ..) (by decide) ?_
    refine .step (irq_frame ..) (by decide) ?_
    exact .refl _ _

theorem raiseFatal_frame (cause : U16) (b : Block) :
    Block.Only [.dmp] b (raiseFatal cause b) := by
  unfold raiseFatal
  with_reducible
    try lift_lets
    intro xx
    clear_value xx
    refine .set_dmp ?_ _ (by decide)
    exact .refl _ _

end Sys2Proof.Machine
end

