-- ==== Sys2Proof/Laws/FrameQueues.lean ====
section
/-! SUPPORT. Frames of the operations of Machine/Queues.lean: the units each of them may change. -/

namespace Sys2Proof.Machine

theorem setQ_frame (q : Nat) (x : Queue) (b : Block) :
    Block.Only [.qmg] b (setQ q x b) := by
  unfold setQ
  with_reducible
    try lift_lets
    intro xx
    clear_value xx
    try lift_lets
    intro xx
    clear_value xx
    refine .set_qmg ?_ _ (by decide)
    exact .refl _ _

theorem setOwner_frame (u : Nat) (o : Owner) (b : Block) :
    Block.Only [.qmg] b (setOwner u o b) := by
  unfold setOwner
  with_reducible
    try lift_lets
    intro xx
    clear_value xx
    refine .set_qmg ?_ _ (by decide)
    exact .refl _ _

theorem setBuf_frame (u : Nat) (l : List U8) (b : Block) :
    Block.Only [.qmg] b (setBuf u l b) := by
  unfold setBuf
  with_reducible
    try lift_lets
    intro xx
    clear_value xx
    refine .set_qmg ?_ _ (by decide)
    exact .refl _ _

theorem updGroup_frame (g : Fin 64) (f : CreditGroup → CreditGroup) (b : Block) :
    Block.Only [.cwy] b (updGroup g f b) := by
  unfold updGroup
  with_reducible
    try lift_lets
    intro xx
    clear_value xx
    refine .set_cwy ?_ _ (by decide)
    exact .refl _ _

theorem noteWait_frame (g : Fin 64) (b : Block) :
    Block.Only [.cwy] b (noteWait g b) := by
  unfold noteWait
  with_reducible
    try lift_lets
    intro xx
    clear_value xx
    try lift_lets
    intro xx
    clear_value xx
    refine .step (updGroup_frame ..) (by decide) ?_
    exact .refl _ _

theorem linkReset_frame (cause : Nat) (group : Nat) (b : Block) :
    Block.Only [.cwy, .cwyX, .hic] b (linkReset cause group b) := by
  unfold linkReset
  with_reducible
    try lift_lets
    intro xx
    clear_value xx
    try lift_lets
    intro xx
    clear_value xx
    refine .step (irq_frame ..) (by decide) ?_
    refine .set_cwy_cwyX ?_ _ _ (by decide) (by decide)
    exact .refl _ _

theorem creditViolation_frame (g : Nat) (b : Block) :
    Block.Only [.cwy, .cwyX, .hic] b (creditViolation g b) := by
  unfold creditViolation
  with_reducible
    refine .step (linkReset_frame ..) (by decide) ?_
    refine .step (irq_frame ..) (by decide) ?_
    exact .refl _ _

theorem creditCheck_frame (g : Fin 64) (b : Block) :
    Block.Only [.cwy, .cwyX, .hic] b (creditCheck g b) := by
  unfold creditCheck
  with_reducible
    try lift_lets
    intro xx
    clear_value xx
    refine .ite _ ?_ ?_
    refine .step (creditViolation_frame ..) (by decide) ?_
    exact .refl _ _
    exact .refl _ _

theorem conserve_frame (b : Block) :
    Block.Only [.arb, .btn, .dmp, .hic, .qmg] b (conserve b) := by
  unfold conserve
  with_reducible
    try lift_lets
    intro xx
    clear_value xx
    try lift_lets
    intro xx
    clear_value xx
    refine .ite _ ?_ ?_
    refine .set_qmg ?_ _ (by decide)
    exact .refl _ _
    refine .step (raiseFatal_frame ..) (by decide) ?_
    refine .step (legalLog_frame ..) (by decide) ?_
    refine .step (irq_frame ..) (by decide) ?_
    refine .set_qmg ?_ _ (by decide)
    exact .refl _ _

theorem noteLow_frame (b : Block) :
    Block.Only [.hic, .qmg] b (noteLow b) := by
  unfold noteLow
  with_reducible
    try lift_lets
    intro xx
    clear_value xx
    try lift_lets
    intro xx
    clear_value xx
    try lift_lets
    intro xx
    clear_value xx
    try lift_lets
    intro xx
    clear_value xx
    try lift_lets
    intro xx
    clear_value xx
    refine .onlyIf _ (fun _ _ => ?_) ?_
    refine .step (irq_frame ..) (by decide) ?_
    assumption
    refine .set_qmg ?_ _ (by decide)
    exact .refl _ _

theorem takeFree_frame (a : Fin 16) (g : Option (Fin 64)) (b : Block) :
    Block.Only [.arb, .btn, .dmp, .hic, .qmg] b (takeFree a g b).1 := by
  unfold takeFree
  with_reducible
    try lift_lets
    intro xx
    clear_value xx
    try lift_lets
    intro xx
    clear_value xx
    try lift_lets
    intro xx
    refine Block.Only.viaVar xx ?_ (fun _ => ?_) <;> [simp only [xx]; clear_value xx]
    refine .step (setOwner_frame ..) (by decide) ?_
    refine .set_qmg ?_ _ (by decide)
    exact .refl _ _
    refine .step (conserve_frame ..) (by decide) ?_
    refine .step (noteLow_frame ..) (by decide) ?_
    assumption

theorem qTell_frame (a : Fin 16) (x : QAnswer) (b : Block) :
    Block.Only [.qmg] b (qTell a x b) := by
  unfold qTell
  with_reducible
    try lift_lets
    intro xx
    clear_value xx
    refine .set_qmg ?_ _ (by decide)
    exact .refl _ _

theorem qAlloc_frame (a : Fin 16) (g : Option (Fin 64)) (b : Block) :
    Block.Only [.arb, .btn, .dmp, .hic, .qmg] b (qAlloc a g b).1 := by
  unfold qAlloc
  with_reducible
    refine .iteFst _ ?_ ?_
    exact .refl _ _
    try lift_lets
    intro xx
    clear_value xx
    try lift_lets
    intro xx
    clear_value xx
    try lift_lets
    intro xx
    refine Block.Only.viaVar xx ?_ (fun _ => ?_) <;> [simp only [xx]; clear_value xx]
    refine .set_qmg ?_ _ (by decide)
    exact .refl _ _
    refine .iteFst _ ?_ ?_
    refine .onlyIf _ (fun _ _ => ?_) ?_
    refine .step (irq_frame ..) (by decide) ?_
    assumption
    assumption
    refine .step (takeFree_frame ..) (by decide) ?_
    exact .refl _ _

theorem creditBack_frame (g : Nat) (b : Block) :
    Block.Only [.cwy, .cwyX, .hic] b (creditBack g b) := by
  unfold creditBack
  with_reducible
    refine .dite _ (fun _ => ?_) (fun _ => ?_)
    refine .step (creditCheck_frame ..) (by decide) ?_
    refine .step (updGroup_frame ..) (by decide) ?_
    exact .refl _ _
    exact .refl _ _

theorem noteQueue_frame (q : Nat) (b : Block) :
    Block.Only [.cwy] b (noteQueue q b) := by
  unfold noteQueue
  with_reducible
    refine .dite _ (fun _ => ?_) (fun _ => ?_)
    refine .step (noteWait_frame ..) (by decide) ?_
    exact .refl _ _
    exact .refl _ _

theorem release_frame (u : Nat) (b : Block) :
    Block.Only [.cwy, .cwyX, .hic, .qmg] b (release u b) := by
  unfold release
  with_reducible
    try lift_lets
    intro xx
    clear_value xx
    try lift_lets
    intro xx
    clear_value xx
    try lift_lets
    intro xx
    refine Block.Only.viaVar xx ?_ (fun _ => ?_) <;> [simp only [xx]; clear_value xx]
    refine .step (setOwner_frame ..) (by decide) ?_
    refine .set_qmg ?_ _ (by decide)
    exact .refl _ _
    refine .onlyIf _ (fun _ _ => ?_) ?_
    refine .step (creditBack_frame ..) (by decide) ?_
    assumption
    refine .step (noteLow_frame ..) (by decide) ?_
    assumption

theorem ownRefuse_frame (a : Fin 16) (u : Nat) (enq : Bool) (b : Block) :
    Block.Only [.hic, .qmg] b (ownRefuse a u enq b) := by
  unfold ownRefuse
  with_reducible
    try lift_lets
    intro xx
    clear_value xx
    try lift_lets
    intro xx
    clear_value xx
    refine .step (irq_frame ..) (by decide) ?_
    refine .set_qmg ?_ _ (by decide)
    exact .refl _ _

theorem qFree_frame (a : Fin 16) (u : Nat) (b : Block) :
    Block.Only [.arb, .btn, .cwy, .cwyX, .dmp, .hic, .qmg] b (qFree a u b).1 := by
  unfold qFree
  with_reducible
    try lift_lets
    intro xx
    clear_value xx
    refine .iteFst _ ?_ ?_
    exact .refl _ _
    refine .iteFst _ ?_ ?_
    refine .step (conserve_frame ..) (by decide) ?_
    refine .step (release_frame ..) (by decide) ?_
    refine .set_qmg ?_ _ (by decide)
    exact .refl _ _
    refine .step (conserve_frame ..) (by decide) ?_
    refine .step (ownRefuse_frame ..) (by decide) ?_
    exact .refl _ _

theorem ringNote_frame (q u : Nat) (b : Block) :
    Block.Only [.lau] b (ringNote q u b) := by
  unfold ringNote
  with_reducible
    try lift_lets
    intro xx
    clear_value xx
    try lift_lets
    intro xx
    clear_value xx
    split
    try lift_lets
    intro xx
    clear_value xx
    refine .set_lau ?_ _ (by decide)
    exact .refl _ _
    exact .refl _ _

theorem enqueueTail_frame (q u : Nat) (b : Block) :
    Block.Only [.cwy, .lau, .qmg] b (enqueueTail q u b) := by
  unfold enqueueTail
  with_reducible
    try lift_lets
    intro xx
    clear_value xx
    try lift_lets
    intro xx
    clear_value xx
    try lift_lets
    intro xx
    clear_value xx
    try lift_lets
    intro xx
    clear_value xx
    try lift_lets
    intro xx
    refine Block.Only.viaVar xx ?_ (fun _ => ?_) <;> [simp only [xx]; clear_value xx]
    refine .onlyIf _ (fun _ _ => ?_) ?_
    refine .step (ringNote_frame ..) (by decide) ?_
    assumption
    refine .onlyIf _ (fun _ _ => ?_) ?_
    refine .step (setBuf_frame ..) (by decide) ?_
    assumption
    exact .refl _ _
    refine .step (noteQueue_frame ..) (by decide) ?_
    refine .step (setQ_frame ..) (by decide) ?_
    refine .step (setOwner_frame ..) (by decide) ?_
    refine .set_qmg ?_ _ (by decide)
    assumption

theorem dropOldest_frame (q : Nat) (b : Block) :
    Block.Only [.cwy, .cwyX, .hic, .qmg] b (dropOldest q b) := by
  unfold dropOldest
  with_reducible
    try lift_lets
    intro xx
    clear_value xx
    try lift_lets
    intro xx
    clear_value xx
    split
    exact .refl _ _
    refine .step (irq_frame ..) (by decide) ?_
    refine .step (release_frame ..) (by decide) ?_
    refine .step (setQ_frame ..) (by decide) ?_
    refine .set_qmg ?_ _ (by decide)
    exact .refl _ _

theorem fullRefuse_frame (q : Nat) (b : Block) :
    Block.Only [.hic, .qmg] b (fullRefuse q b) := by
  unfold fullRefuse
  with_reducible
    try lift_lets
    intro xx
    clear_value xx
    try lift_lets
    intro xx
    clear_value xx
    try lift_lets
    intro xx
    clear_value xx
    refine .onlyIf _ (fun _ _ => ?_) ?_
    refine .step (irq_frame ..) (by decide) ?_
    assumption
    refine .step (setQ_frame ..) (by decide) ?_
    refine .set_qmg ?_ _ (by decide)
    exact .refl _ _

theorem qEnqueue_frame (a : Fin 16) (q u : Nat) (b : Block) :
    Block.Only [.arb, .btn, .cwy, .cwyX, .dmp, .hic, .lau, .qmg] b (qEnqueue a q u b).1 := by
  unfold qEnqueue
  with_reducible
    try lift_lets
    intro xx
    clear_value xx
    refine .iteFst _ ?_ ?_
    exact .refl _ _
    refine .iteFst _ ?_ ?_
    refine .step (conserve_frame ..) (by decide) ?_
    refine .step (ownRefuse_frame ..) (by decide) ?_
    exact .refl _ _
    refine .iteFst _ ?_ ?_
    exact .refl _ _
    refine .iteFst _ ?_ ?_
    exact .refl _ _
    refine .iteFst _ ?_ ?_
    refine .step (conserve_frame ..) (by decide) ?_
    refine .step (enqueueTail_frame ..) (by decide) ?_
    exact .refl _ _
    refine .iteFst _ ?_ ?_
    refine .step (conserve_frame ..) (by decide) ?_
    refine .step (enqueueTail_frame ..) (by decide) ?_
    refine .step (dropOldest_frame ..) (by decide) ?_
    exact .refl _ _
    refine .step (conserve_frame ..) (by decide) ?_
    refine .step (fullRefuse_frame ..) (by decide) ?_
    exact .refl _ _

theorem qDequeue_frame (a : Fin 16) (q : Nat) (b : Block) :
    Block.Only [.arb, .btn, .cwy, .dmp, .hic, .qmg] b (qDequeue a q b).1 := by
  unfold qDequeue
  with_reducible
    try lift_lets
    intro xx
    clear_value xx
    try lift_lets
    intro xx
    clear_value xx
    refine .iteFst _ ?_ ?_
    exact .refl _ _
    split
    exact .refl _ _
    refine .step (conserve_frame ..) (by decide) ?_
    refine .step (noteQueue_frame ..) (by decide) ?_
    refine .step (setQ_frame ..) (by decide) ?_
    refine .step (setOwner_frame ..) (by decide) ?_
    refine .set_qmg ?_ _ (by decide)
    exact .refl _ _

theorem qFlush_frame (q : Nat) (b : Block) :
    Block.Only [.arb, .btn, .cwy, .cwyX, .dmp, .hic, .qmg] b (qFlush q b) := by
  unfold qFlush
  with_reducible
    try lift_lets
    intro xx
    clear_value xx
    refine .step (conserve_frame ..) (by decide) ?_
    refine .step (noteQueue_frame ..) (by decide) ?_
    refine .forAll (fun _ _ _ => ?_) _ ?_
    try lift_lets
    intro xx
    clear_value xx
    refine .step (release_frame ..) (by decide) ?_
    refine .set_qmg ?_ _ (by decide)
    assumption
    refine .step (setQ_frame ..) (by decide) ?_
    exact .refl _ _

theorem sendRecord_frame (a : Fin 16) (q : Nat) (rec_ : List U8) (b : Block) :
    Block.Only [.arb, .btn, .cwy, .cwyX, .dmp, .hic, .lau, .qmg] b (sendRecord a q rec_ b).1 := by
  unfold sendRecord
  with_reducible
    split
    refine .ofPair (by assumption) ?_
    refine .step (qAlloc_frame ..) (by decide) ?_
    exact .refl _ _
    split
    refine .ofPair (by assumption) ?_
    refine .step (qEnqueue_frame ..) (by decide) ?_
    refine .step (setBuf_frame ..) (by decide) ?_
    refine .ofPair (by assumption) ?_
    refine .step (qAlloc_frame ..) (by decide) ?_
    exact .refl _ _
    refine .step (qFree_frame ..) (by decide) ?_
    refine .ofPair (by assumption) ?_
    refine .step (qEnqueue_frame ..) (by decide) ?_
    refine .step (setBuf_frame ..) (by decide) ?_
    refine .ofPair (by assumption) ?_
    refine .step (qAlloc_frame ..) (by decide) ?_
    exact .refl _ _

theorem sendRecords_frame (a : Fin 16) (q : Nat) (y0 : List (List U8)) (y1 : Block) :
    Block.Only [.arb, .btn, .cwy, .cwyX, .dmp, .hic, .lau, .qmg] y1 (sendRecords a q y0 y1).1 := by
  fun_induction sendRecords a q y0 y1
  with_reducible
    exact .refl _ _
    refine .trans ?_ (by assumption)
    refine .ofPair (by assumption) ?_
    refine .step (sendRecord_frame ..) (by decide) ?_
    exact .refl _ _
    refine .ofPair (by assumption) ?_
    refine .step (sendRecord_frame ..) (by decide) ?_
    exact .refl _ _

theorem sendTo_frame (a : Fin 16) (q : U16) (rec_ : List U8) (b : Block) :
    Block.Only [.arb, .btn, .cwy, .cwyX, .dmp, .hic, .lau, .qmg] b (sendTo a q rec_ b) := by
  unfold sendTo
  with_reducible
    refine .ite _ ?_ ?_
    exact .refl _ _
    refine .step (sendRecord_frame ..) (by decide) ?_
    exact .refl _ _

theorem hostDataConsume_frame (q : Nat) (y0 : Nat) (y1 : Block) :
    Block.Only [.arb, .btn, .cwy, .cwyX, .dmp, .hic, .qmg] y1 (hostDataConsume q y0 y1) := by
  fun_induction hostDataConsume q y0 y1
  with_reducible
    exact .refl _ _
    refine .trans ?_ (by assumption)
    refine .step (qFree_frame ..) (by decide) ?_
    refine .ofPair (by assumption) ?_
    refine .step (qDequeue_frame ..) (by decide) ?_
    exact .refl _ _
    refine .ofPair (by assumption) ?_
    refine .step (qDequeue_frame ..) (by decide) ?_
    exact .refl _ _

end Sys2Proof.Machine
end

