-- ==== Sys2Proof/Laws/FrameMailbox.lean ====
section
/-! SUPPORT. Frames of the operations of Machine/Mailbox.lean: the units each of them may change. -/

namespace Sys2Proof.Machine

theorem cmdLog_frame (m : Fin 4) (status : Nat) (b : Block) :
    Block.Only [.arb, .btn, .hic, .pea] b (cmdLog m status b) := by
  unfold cmdLog
  with_reducible
    refine .step (opLogAs_frame ..) (by decide) ?_
    exact .refl _ _

theorem internalFail_frame (m : Fin 4) (b : Block) :
    Block.Only [.arb, .btn, .hic, .mbx, .pea, .rpl] b (internalFail m b) := by
  unfold internalFail
  with_reducible
    refine .step (refuse_frame ..) (by decide) ?_
    refine .step (opLogAs_frame ..) (by decide) ?_
    exact .refl _ _

theorem mbxDone_frame (m : Fin 4) (b : Block) :
    Block.Only [.hic, .mbx] b (mbxDone m b) := by
  unfold mbxDone
  with_reducible
    try lift_lets
    intro xx
    clear_value xx
    refine .step (irq_frame ..) (by decide) ?_
    refine .step (setMbx_frame ..) (by decide) ?_
    exact .refl _ _

theorem mbxRing_frame (m : Fin 4) (b : Block) :
    Block.Only [.hic, .hp, .mbx] b (mbxRing m b) := by
  unfold mbxRing
  with_reducible
    try lift_lets
    intro xx
    clear_value xx
    try lift_lets
    intro xx
    clear_value xx
    try lift_lets
    intro xx
    refine Block.Only.viaVar xx ?_ (fun _ => ?_) <;> [simp only [xx]; clear_value xx]
    refine .step (setMbx_frame ..) (by decide) ?_
    exact .refl _ _
    split
    refine .step (setMbx_frame ..) (by decide) ?_
    exact .refl _ _
    refine .step (setMbx_frame ..) (by decide) ?_
    exact .refl _ _
    refine .ite _ ?_ ?_
    refine .step (mbxDone_frame ..) (by decide) ?_
    refine .step (setMbx_frame ..) (by decide) ?_
    exact .refl _ _
    refine .set_hp ?_ _ (by decide)
    assumption

theorem mbxCancel_frame (m : Fin 4) (b : Block) :
    Block.Only [.hic, .mbx, .rpl] b (mbxCancel m b) := by
  unfold mbxCancel
  with_reducible
    try lift_lets
    intro xx
    clear_value xx
    try lift_lets
    intro xx
    refine Block.Only.viaVar xx ?_ (fun _ => ?_) <;> [simp only [xx]; clear_value xx]
    refine .step (refuse_frame ..) (by decide) ?_
    exact .refl _ _
    refine .ite _ ?_ ?_
    refine .step (mbxDone_frame ..) (by decide) ?_
    refine .step (setMbx_frame ..) (by decide) ?_
    assumption
    exact .refl _ _

theorem mbxAck_frame (m : Fin 4) (b : Block) :
    Block.Only [.mbx] b (mbxAck m b) := by
  unfold mbxAck
  with_reducible
    try lift_lets
    intro xx
    clear_value xx
    refine .ite _ ?_ ?_
    refine .step (setMbx_frame ..) (by decide) ?_
    exact .refl _ _
    exact .refl _ _

theorem mbxDoorbell_frame (m : Fin 4) (v : U32) (b : Block) :
    Block.Only [.hic, .hp, .mbx, .rpl] b (mbxDoorbell m v b) := by
  unfold mbxDoorbell
  with_reducible
    refine .onlyIf _ (fun _ _ => ?_) ?_
    refine .step (mbxCancel_frame ..) (by decide) ?_
    assumption
    refine .onlyIf _ (fun _ _ => ?_) ?_
    refine .step (mbxRing_frame ..) (by decide) ?_
    assumption
    refine .onlyIf _ (fun _ _ => ?_) ?_
    refine .step (mbxAck_frame ..) (by decide) ?_
    assumption
    exact .refl _ _

theorem mbxComplete_frame (m : Fin 4) (b : Block) :
    Block.Only [.hic, .mbx] b (mbxComplete m b) := by
  unfold mbxComplete
  with_reducible
    try lift_lets
    intro xx
    clear_value xx
    refine .ite _ ?_ ?_
    refine .step (mbxDone_frame ..) (by decide) ?_
    refine .step (setMbx_frame ..) (by decide) ?_
    exact .refl _ _
    exact .refl _ _

end Sys2Proof.Machine
end

