-- ==== Sys2Proof/Laws/FramePeatOps.lean ====
section
/-! SUPPORT. Frames of the operations of Machine/PeatOps.lean: the units each of them may change. -/

namespace Sys2Proof.Machine

theorem pushRequest_frame (r : Fin 6) (q : PeaRequest) (b : Block) :
    Block.Only [.arb] b (pushRequest r q b) := by
  unfold pushRequest
  with_reducible
    try lift_lets
    intro xx
    clear_value xx
    refine .set_arb ?_ _ (by decide)
    exact .refl _ _

theorem rejectRequest_frame (r : Fin 6) (b : Block) :
    Block.Only [.arb, .hic, .pea] b (rejectRequest r b) := by
  unfold rejectRequest
  with_reducible
    try lift_lets
    intro xx
    clear_value xx
    try lift_lets
    intro xx
    clear_value xx
    refine .step (irq_frame ..) (by decide) ?_
    refine .set_arb_pea ?_ _ _ (by decide) (by decide)
    exact .refl _ _

theorem peatRequest_frame (r : Fin 6) (first : Nat) (content : List (List U8)) (act : StoreAct) (b : Block) :
    Block.Only [.arb, .hic, .pea] b (peatRequest r first content act b) := by
  unfold peatRequest
  with_reducible
    try lift_lets
    intro xx
    clear_value xx
    refine .ite _ ?_ ?_
    refine .step (pushRequest_frame ..) (by decide) ?_
    exact .refl _ _
    refine .step (rejectRequest_frame ..) (by decide) ?_
    exact .refl _ _

theorem peatWriteAux_frame (r : Fin 6) (act : StoreAct) (y0 : Nat) (y1 : Nat) (y2 : List (List U8)) (y3 : Block) :
    Block.Only [.arb, .hic, .pea] y3 (peatWriteAux r act y0 y1 y2 y3) := by
  fun_induction peatWriteAux r act y0 y1 y2 y3
  with_reducible
    exact .refl _ _
    refine .step (peatRequest_frame ..) (by decide) ?_
    exact .refl _ _
    refine .trans ?_ (by assumption)
    refine .step (peatRequest_frame ..) (by decide) ?_
    exact .refl _ _

theorem peatWrite_frame (r : Fin 6) (first : Nat) (ls : List (List U8)) (act : StoreAct) (b : Block) :
    Block.Only [.arb, .hic, .pea] b (peatWrite r first ls act b) := by
  unfold peatWrite
  with_reducible
    refine .step (peatWriteAux_frame ..) (by decide) ?_
    exact .refl _ _

theorem peatFree_frame (r : Fin 6) (base size : Nat) (act : StoreAct) (b : Block) :
    Block.Only [.arb, .hic, .pea] b (peatFree r base size act b) := by
  unfold peatFree
  with_reducible
    try lift_lets
    intro xx
    clear_value xx
    try lift_lets
    intro xx
    clear_value xx
    refine .step (peatRequest_frame ..) (by decide) ?_
    refine .set_pea ?_ _ (by decide)
    exact .refl _ _

theorem saveSettings_frame (b : Block) :
    Block.Only [.arb, .hic, .pea] b (saveSettings b) := by
  unfold saveSettings
  with_reducible
    refine .step (peatFree_frame ..) (by decide) ?_
    exact .refl _ _

theorem saveLegalConfig_frame (b : Block) :
    Block.Only [.arb, .hic, .pea] b (saveLegalConfig b) := by
  unfold saveLegalConfig
  with_reducible
    refine .step (peatFree_frame ..) (by decide) ?_
    exact .refl _ _

theorem saveSafety_frame (b : Block) :
    Block.Only [.arb, .hic, .pea] b (saveSafety b) := by
  unfold saveSafety
  with_reducible
    refine .step (peatFree_frame ..) (by decide) ?_
    exact .refl _ _

theorem saveKeystore_frame (b : Block) :
    Block.Only [.arb, .hic, .pea] b (saveKeystore b) := by
  unfold saveKeystore
  with_reducible
    refine .step (peatFree_frame ..) (by decide) ?_
    exact .refl _ _

theorem saveUpdate_frame (b : Block) :
    Block.Only [.arb, .hic, .pea] b (saveUpdate b) := by
  unfold saveUpdate
  with_reducible
    refine .step (peatFree_frame ..) (by decide) ?_
    exact .refl _ _

theorem ctrIncrement_frame (r : Fin 6) (k : Fin 64) (mbx : Option (Fin 4)) (b : Block) :
    Block.Only [.arb, .hic, .pea] b (ctrIncrement r k mbx b).1 := by
  unfold ctrIncrement
  with_reducible
    try lift_lets
    intro xx
    clear_value xx
    refine .iteFst _ ?_ ?_
    refine .step (rejectRequest_frame ..) (by decide) ?_
    exact .refl _ _
    refine .iteFst _ ?_ ?_
    exact .refl _ _
    refine .step (pushRequest_frame ..) (by decide) ?_
    exact .refl _ _

end Sys2Proof.Machine
end

