-- ==== Sys2Proof/Laws/FrameKeys.lean ====
section
/-! SUPPORT. Frames of the operations of Machine/Keys.lean: the units each of them may change. -/

namespace Sys2Proof.Machine

theorem draw_frame (n : Nat) (b : Block) :
    Block.Only [.key, .rpl] b (draw n b).1 := by
  unfold draw
  with_reducible
    try lift_lets
    intro xx
    clear_value xx
    try lift_lets
    intro xx
    clear_value xx
    try lift_lets
    intro xx
    refine Block.Only.viaVar xx ?_ (fun _ => ?_) <;> [simp only [xx]; clear_value xx]
    refine .set_rpl ?_ _ (by decide)
    exact .refl _ _
    refine .step (traceItem_frame ..) (by decide) ?_
    refine .set_key ?_ _ (by decide)
    assumption

theorem putSecret_frame (i : Fin 19) (k : List U8) (b : Block) :
    Block.Only [.key, .rpl] b (putSecret i k b) := by
  unfold putSecret
  with_reducible
    try lift_lets
    intro xx
    refine Block.Only.viaPair xx ?_ (fun _ => ?_) <;> [simp only [xx]; clear_value xx]
    refine .step (draw_frame ..) (by decide) ?_
    exact .refl _ _
    refine .set_key ?_ _ (by decide)
    assumption

theorem remaskReg_frame (i : Fin 19) (b : Block) :
    Block.Only [.key, .rpl] b (remaskReg i b) := by
  unfold remaskReg
  with_reducible
    try lift_lets
    intro xx
    clear_value xx
    try lift_lets
    intro xx
    refine Block.Only.viaPair xx ?_ (fun _ => ?_) <;> [simp only [xx]; clear_value xx]
    refine .step (draw_frame ..) (by decide) ?_
    exact .refl _ _
    refine .ite _ ?_ ?_
    exact .refl _ _
    refine .set_key ?_ _ (by decide)
    assumption

theorem remaskAll_frame (b : Block) :
    Block.Only [.key, .rpl] b (remaskAll b) := by
  unfold remaskAll
  with_reducible
    try lift_lets
    intro xx
    clear_value xx
    try lift_lets
    intro xx
    refine Block.Only.viaVar xx ?_ (fun _ => ?_) <;> [simp only [xx]; clear_value xx]
    refine .forAll (fun _ _ _ => ?_) _ ?_
    refine .step (remaskReg_frame ..) (by decide) ?_
    assumption
    exact .refl _ _
    refine .set_key ?_ _ (by decide)
    assumption

theorem remaskFreed_frame (b : Block) :
    Block.Only [.key, .rpl] b (remaskFreed b) := by
  unfold remaskFreed
  with_reducible
    try lift_lets
    intro xx
    clear_value xx
    refine .forAll (fun _ _ _ => ?_) _ ?_
    try lift_lets
    intro xx
    clear_value xx
    refine .step (remaskReg_frame ..) (by decide) ?_
    refine .set_key ?_ _ (by decide)
    assumption
    exact .refl _ _

theorem clearWorking_frame (b : Block) :
    Block.Only [.key] b (clearWorking b) := by
  unfold clearWorking
  with_reducible
    try lift_lets
    intro xx
    clear_value xx
    refine .set_key ?_ _ (by decide)
    exact .refl _ _

theorem authorise_frame (m : Fin 4) (o n : Nat) (b : Block) :
    Block.Only [.hic, .key] b (authorise m o n b).1 := by
  unfold authorise
  with_reducible
    try lift_lets
    intro xx
    clear_value xx
    try lift_lets
    intro xx
    clear_value xx
    try lift_lets
    intro xx
    clear_value xx
    try lift_lets
    intro xx
    refine Block.Only.viaVar xx ?_ (fun _ => ?_) <;> [simp only [xx]; clear_value xx]
    refine .set_key ?_ _ (by decide)
    exact .refl _ _
    refine .iteFst _ ?_ ?_
    assumption
    refine .step (irq_frame ..) (by decide) ?_
    refine .set_key ?_ _ (by decide)
    assumption

theorem keyRecord_frame (l : List U8) (g : Nat) (b : Block) :
    Block.Only [.key, .rpl] b (keyRecord l g b).1 := by
  unfold keyRecord
  with_reducible
    try lift_lets
    intro xx
    clear_value xx
    try lift_lets
    intro xx
    clear_value xx
    try lift_lets
    intro xx
    clear_value xx
    try lift_lets
    intro xx
    refine Block.Only.viaPair xx ?_ (fun _ => ?_) <;> [simp only [xx]; clear_value xx]
    refine .step (draw_frame ..) (by decide) ?_
    exact .refl _ _
    split
    exact .refl _ _
    refine .step (draw_frame ..) (by decide) ?_
    assumption
    exact .refl _ _

theorem keyTake_frame (m : Fin 4) (b : Block) :
    Block.Only [.arb, .hic, .key, .mbx, .pea, .rpl] b (keyTake m b).1 := by
  unfold keyTake
  with_reducible
    try lift_lets
    intro xx
    clear_value xx
    try lift_lets
    intro xx
    clear_value xx
    try lift_lets
    intro xx
    clear_value xx
    try lift_lets
    intro xx
    clear_value xx
    try lift_lets
    intro xx
    refine Block.Only.viaPair xx ?_ (fun _ => ?_) <;> [simp only [xx]; clear_value xx]
    refine .step (keyRecord_frame ..) (by decide) ?_
    exact .refl _ _
    split
    refine .step (refuse_frame ..) (by decide) ?_
    refine .step (irq_frame ..) (by decide) ?_
    refine .set_key ?_ _ (by decide)
    exact .refl _ _
    refine .step (peatFree_frame ..) (by decide) ?_
    refine .step (ctrIncrement_frame ..) (by decide) ?_
    assumption

theorem keyTakeNext_frame  (y0 : List (Fin 4)) (y1 : Block) :
    Block.Only [.arb, .hic, .key, .mbx, .pea, .rpl] y1 (keyTakeNext y0 y1) := by
  induction y0 generalizing y1 with
  | nil => exact .refl _ _
  | cons m r ih =>
    unfold keyTakeNext
    exact .ite _ (.step (keyTake_frame _ _) (by decide) (.set_key (.refl _ _) _ (by decide)))
      (.trans (.set_key (.step (keyTake_frame _ _) (by decide) (.set_key (.refl _ _) _ (by decide))) _ (by decide)) (ih _))

theorem keyNext_frame (b : Block) :
    Block.Only [.arb, .hic, .key, .mbx, .pea, .rpl] b (keyNext b) := by
  unfold keyNext
  with_reducible
    try lift_lets
    intro xx
    clear_value xx
    refine .step (keyTakeNext_frame ..) (by decide) ?_
    refine .set_key ?_ _ (by decide)
    exact .refl _ _

theorem keyUpdate_frame (m : Fin 4) (b : Block) :
    Block.Only [.arb, .hic, .key, .mbx, .pea, .rpl] b (keyUpdate m b) := by
  unfold keyUpdate
  with_reducible
    try lift_lets
    intro xx
    clear_value xx
    refine .ite _ ?_ ?_
    refine .step (keyTakeNext_frame ..) (by decide) ?_
    exact .refl _ _
    refine .set_key ?_ _ (by decide)
    exact .refl _ _

theorem keyApplied_frame (k : Fin 16) (x : KeySlot) (op : U8) (m : Fin 4) (payload : List U8) (b : Block) :
    Block.Only [.arb, .btn, .hic, .key, .mbx, .pea, .rpl] b (keyApplied k x op m payload b) := by
  unfold keyApplied
  with_reducible
    try lift_lets
    intro xx
    clear_value xx
    try lift_lets
    intro xx
    clear_value xx
    try lift_lets
    intro xx
    refine Block.Only.viaVar xx ?_ (fun _ => ?_) <;> [simp only [xx]; clear_value xx]
    refine .set_key ?_ _ (by decide)
    exact .refl _ _
    refine .step (keyNext_frame ..) (by decide) ?_
    refine .step (ok_frame ..) (by decide) ?_
    refine .step (irq_frame ..) (by decide) ?_
    refine .step (legalLog_frame ..) (by decide) ?_
    assumption

theorem keyLoad_frame (m : Fin 4) (b : Block) :
    Block.Only [.key, .mbx, .rpl] b (keyLoad m b) := by
  unfold keyLoad
  with_reducible
    try lift_lets
    intro xx
    clear_value xx
    refine .checked (by decide) (by decide) (fun _ _ => ?_) ?_
    try lift_lets
    intro xx
    clear_value xx
    split
    refine .step (refuse_frame ..) (by decide) ?_
    assumption
    refine .step (ok_frame ..) (by decide) ?_
    refine .step (putSecret_frame ..) (by decide) ?_
    refine .set_key ?_ _ (by decide)
    assumption
    exact .refl _ _

theorem keyUnload_frame (m : Fin 4) (b : Block) :
    Block.Only [.key, .mbx, .rpl] b (keyUnload m b) := by
  unfold keyUnload
  with_reducible
    try lift_lets
    intro xx
    clear_value xx
    refine .checked (by decide) (by decide) (fun _ _ => ?_) ?_
    try lift_lets
    intro xx
    clear_value xx
    refine .step (ok_frame ..) (by decide) ?_
    refine .set_key ?_ _ (by decide)
    assumption
    exact .refl _ _

theorem keyGetPublic_frame (m : Fin 4) (b : Block) :
    Block.Only [.mbx, .rpl] b (keyGetPublic m b) := by
  unfold keyGetPublic
  with_reducible
    refine .ite _ ?_ ?_
    try lift_lets
    intro xx
    clear_value xx
    refine .checked (by decide) (by decide) (fun _ _ => ?_) ?_
    refine .step (ok_frame ..) (by decide) ?_
    assumption
    exact .refl _ _
    refine .dite _ (fun _ => ?_) (fun _ => ?_)
    refine .step (ok_frame ..) (by decide) ?_
    exact .refl _ _
    refine .step (refuse_frame ..) (by decide) ?_
    exact .refl _ _

theorem keyGetChallenge_frame (m : Fin 4) (b : Block) :
    Block.Only [.key, .mbx, .rpl] b (keyGetChallenge m b) := by
  unfold keyGetChallenge
  with_reducible
    try lift_lets
    intro xx
    refine Block.Only.viaPair xx ?_ (fun _ => ?_) <;> [simp only [xx]; clear_value xx]
    refine .step (draw_frame ..) (by decide) ?_
    exact .refl _ _
    refine .ite _ ?_ ?_
    refine .step (ok_frame ..) (by decide) ?_
    refine .set_key ?_ _ (by decide)
    assumption
    refine .step (refuse_frame ..) (by decide) ?_
    exact .refl _ _

theorem keyRandom_frame (m : Fin 4) (b : Block) :
    Block.Only [.key, .mbx, .rpl] b (keyRandom m b) := by
  unfold keyRandom
  with_reducible
    try lift_lets
    intro xx
    clear_value xx
    refine .checked (by decide) (by decide) (fun _ _ => ?_) ?_
    try lift_lets
    intro xx
    refine Block.Only.viaPair xx ?_ (fun _ => ?_) <;> [simp only [xx]; clear_value xx]
    refine .step (draw_frame ..) (by decide) ?_
    assumption
    refine .step (ok_frame ..) (by decide) ?_
    assumption
    exact .refl _ _

theorem remaskDue_frame (b : Block) :
    Block.Only [.key, .prior, .rpl, .tide] b (remaskDue b) := by
  unfold remaskDue
  with_reducible
    refine .ite _ ?_ ?_
    exact .refl _ _
    refine .ite _ ?_ ?_
    refine .afterTicks (by decide) (by decide) (fun _ _ => ?_) ?_
    refine .step (remaskAll_frame ..) (by decide) ?_
    assumption
    exact .refl _ _
    refine .step (remaskAll_frame ..) (by decide) ?_
    exact .refl _ _

theorem rngReseed_frame (b : Block) :
    Block.Only [.hic, .key, .prior, .tide] b (rngReseed b) := by
  unfold rngReseed
  with_reducible
    try lift_lets
    intro (xx : _ → _)
    refine .ite _ ?_ ?_
    refine .onlyIf _ (fun _ _ => ?_) ?_
    refine .step (irq_frame ..) (by decide) ?_
    assumption
    refine .set_key ?_ _ (by decide)
    exact .refl _ _
    refine .afterTicks (by decide) (by decide) (fun _ _ => ?_) ?_
    refine .onlyIf _ (fun _ _ => ?_) ?_
    refine .step (irq_frame ..) (by decide) ?_
    assumption
    refine .set_key ?_ _ (by decide)
    assumption
    exact .refl _ _

theorem rngHealthFail_frame (b : Block) :
    Block.Only [.hic, .key] b (rngHealthFail b) := by
  unfold rngHealthFail
  with_reducible
    try lift_lets
    intro xx
    clear_value xx
    refine .step (irq_frame ..) (by decide) ?_
    refine .set_key ?_ _ (by decide)
    exact .refl _ _

theorem challengeExpired_frame (b : Block) :
    Block.Only [.key, .prior, .tide] b (challengeExpired b) := by
  unfold challengeExpired
  with_reducible
    split
    refine .atInstant (by decide) (by decide) (fun _ _ => ?_) ?_
    try lift_lets
    intro xx
    clear_value xx
    refine .set_key ?_ _ (by decide)
    assumption
    exact .refl _ _
    exact .refl _ _

theorem deriveKeys_frame (b : Block) :
    Block.Only [.key, .rpl] b (deriveKeys b) := by
  unfold deriveKeys
  exact .set_key (.step (putSecret_frame _ _ _) (by decide) <| .step (putSecret_frame _ _ _) (by decide) <| .step (putSecret_frame _ _ _) (by decide) <| .step (putSecret_frame _ _ _) (by decide) <| .step (putSecret_frame _ _ _) (by decide) <| .step (putSecret_frame _ _ _) (by decide) <| .step (putSecret_frame _ _ _) (by decide) <| .refl _ _) _ (by decide)

theorem pufSuccess_frame (corrected : U8) (b : Block) :
    Block.Only [.hic, .key, .rpl] b (pufSuccess corrected b) := by
  unfold pufSuccess
  with_reducible
    try lift_lets
    intro xx
    clear_value xx
    try lift_lets
    intro xx
    refine Block.Only.viaVar xx ?_ (fun _ => ?_) <;> [simp only [xx]; clear_value xx]
    refine .set_key ?_ _ (by decide)
    exact .refl _ _
    refine .forAll (fun _ _ _ => ?_) _ ?_
    refine .onlyIf _ (fun _ _ => ?_) ?_
    refine .step (irq_frame ..) (by decide) ?_
    assumption
    assumption
    refine .onlyIf _ (fun _ _ => ?_) ?_
    try lift_lets
    intro xx
    clear_value xx
    refine .step (irq_frame ..) (by decide) ?_
    refine .set_key ?_ _ (by decide)
    assumption
    refine .step (deriveKeys_frame ..) (by decide) ?_
    assumption

theorem pufFailure_frame (final : Bool) (b : Block) :
    Block.Only [.arb, .btn, .hic, .key] b (pufFailure final b) := by
  unfold pufFailure
  with_reducible
    try lift_lets
    intro xx
    clear_value xx
    try lift_lets
    intro xx
    clear_value xx
    refine .ite _ ?_ ?_
    refine .set_key ?_ _ (by decide)
    exact .refl _ _
    refine .step (legalLog_frame ..) (by decide) ?_
    refine .step (irq_frame ..) (by decide) ?_
    refine .set_key ?_ _ (by decide)
    exact .refl _ _

theorem pufAttempt_frame (good : Bool) (corrected : U8) (b : Block) :
    Block.Only [.arb, .btn, .hic, .key, .rpl] b (pufAttempt good corrected b) := by
  unfold pufAttempt
  with_reducible
    refine .ite _ ?_ ?_
    refine .step (pufFailure_frame ..) (by decide) ?_
    exact .refl _ _
    refine .ite _ ?_ ?_
    refine .step (pufSuccess_frame ..) (by decide) ?_
    exact .refl _ _
    refine .step (pufFailure_frame ..) (by decide) ?_
    exact .refl _ _

end Sys2Proof.Machine
end

