-- ==== Sys2Proof/Laws/FrameLauncher.lean ====
section
/-! SUPPORT. Frames of the operations of Machine/Launcher.lean: the units each of them may change. -/

namespace Sys2Proof.Machine

theorem setRing_frame (r : Nat) (x : Ring) (b : Block) :
    Block.Only [.lau] b (setRing r x b) := by
  unfold setRing
  with_reducible
    try lift_lets
    intro xx
    clear_value xx
    refine .set_lau ?_ _ (by decide)
    exact .refl _ _

theorem trimRing_frame (r : Nat) (b : Block) :
    Block.Only [.lau] b (trimRing r b) := by
  unfold trimRing
  with_reducible
    try lift_lets
    intro xx
    clear_value xx
    try lift_lets
    intro xx
    clear_value xx
    refine .step (setRing_frame ..) (by decide) ?_
    exact .refl _ _

theorem lateLog_frame (r : Nat) (e : Entry) (b : Block) :
    Block.Only [.arb, .btn, .hic, .lau, .pea] b (lateLog r e b) := by
  unfold lateLog
  with_reducible
    try lift_lets
    intro xx
    clear_value xx
    try lift_lets
    intro xx
    clear_value xx
    try lift_lets
    intro xx
    clear_value xx
    refine .ite _ ?_ ?_
    refine .step (opLogAs_frame ..) (by decide) ?_
    refine .set_lau ?_ _ (by decide)
    exact .refl _ _
    exact .refl _ _

theorem countResolve_frame (r : Nat) (e : Entry) (s : U8) (tick : U64) (b : Block) :
    Block.Only [.arb, .btn, .hic, .lau, .pea] b (countResolve r e s tick b) := by
  unfold countResolve
  with_reducible
    try lift_lets
    intro xx
    clear_value xx
    try lift_lets
    intro xx
    refine Block.Only.viaVar xx ?_ (fun _ => ?_) <;> [simp only [xx]; clear_value xx]
    refine .set_lau ?_ _ (by decide)
    exact .refl _ _
    refine .ite _ ?_ ?_
    exact .refl _ _
    refine .ite _ ?_ ?_
    refine .step (lateLog_frame ..) (by decide) ?_
    refine .step (irq_frame ..) (by decide) ?_
    assumption
    refine .ite _ ?_ ?_
    assumption
    refine .step (irq_frame ..) (by decide) ?_
    assumption

theorem cqDrop_frame (u : Nat) (b : Block) :
    Block.Only [.arb, .btn, .cwy, .cwyX, .dmp, .hic, .lau, .qmg] b (cqDrop u b) := by
  unfold cqDrop
  with_reducible
    try lift_lets
    intro xx
    clear_value xx
    refine .step (qFree_frame ..) (by decide) ?_
    refine .set_lau ?_ _ (by decide)
    exact .refl _ _

theorem passOn_frame (r : Nat) (i : RingItem) (s : U8) (tick : U64) (b : Block) :
    Block.Only [.arb, .btn, .cwy, .cwyX, .dmp, .hic, .lau, .qmg] b (passOn r i s tick b) := by
  unfold passOn
  with_reducible
    try lift_lets
    intro xx
    clear_value xx
    try lift_lets
    intro xx
    clear_value xx
    try lift_lets
    intro xx
    clear_value xx
    refine .ite _ ?_ ?_
    refine .step (qFree_frame ..) (by decide) ?_
    exact .refl _ _
    refine .ite _ ?_ ?_
    split
    refine .ofPair (by assumption) ?_
    refine .step (qEnqueue_frame ..) (by decide) ?_
    refine .step (setBuf_frame ..) (by decide) ?_
    exact .refl _ _
    refine .step (cqDrop_frame ..) (by decide) ?_
    refine .ofPair (by assumption) ?_
    refine .step (qEnqueue_frame ..) (by decide) ?_
    refine .step (setBuf_frame ..) (by decide) ?_
    exact .refl _ _
    refine .step (cqDrop_frame ..) (by decide) ?_
    exact .refl _ _

theorem resolveItem_frame (r : Nat) (i : RingItem) (s : U8) (tick : U64) (b : Block) :
    Block.Only [.arb, .btn, .cwy, .cwyX, .dmp, .hic, .lau, .pea, .qmg] b (resolveItem r i s tick b) := by
  unfold resolveItem
  with_reducible
    refine .step (passOn_frame ..) (by decide) ?_
    refine .step (countResolve_frame ..) (by decide) ?_
    exact .refl _ _

theorem setItem_frame (r k : Nat) (f : RingItem → RingItem) (b : Block) :
    Block.Only [.lau] b (setItem r k f b) := by
  unfold setItem
  with_reducible
    try lift_lets
    intro xx
    clear_value xx
    refine .step (setRing_frame ..) (by decide) ?_
    exact .refl _ _

theorem submitEntry_frame (a : Fin 16) (r : Nat) (e : Entry) (b : Block) :
    Block.Only [.arb, .btn, .cwy, .cwyX, .dmp, .hic, .lau, .qmg] b (submitEntry a r e b).1 := by
  unfold submitEntry
  with_reducible
    split
    refine .ofPair (by assumption) ?_
    refine .step (qAlloc_frame ..) (by decide) ?_
    exact .refl _ _
    split
    refine .ofPair (by assumption) ?_
    refine .step (qEnqueue_frame ..) (by decide) ?_
    refine .step (setBuf_frame ..) (by decide) ?_
    refine .ofPair (by assumption) ?_
    refine .step (qAlloc_frame ..) (by decide) ?_
    exact .refl _ _
    refine .step (qFree_frame ..) (by decide) ?_
    refine .ofPair (by assumption) ?_
    refine .step (qEnqueue_frame ..) (by decide) ?_
    refine .step (setBuf_frame ..) (by decide) ?_
    refine .ofPair (by assumption) ?_
    refine .step (qAlloc_frame ..) (by decide) ?_
    exact .refl _ _

theorem submit_frame (a : Fin 16) (r : Nat) (e : Entry) (b : Block) :
    Block.Only [.arb, .btn, .cwy, .cwyX, .dmp, .hic, .lau, .qmg] b (submit a r e b) := by
  unfold submit
  with_reducible
    refine .step (submitEntry_frame ..) (by decide) ?_
    exact .refl _ _

theorem clearRings_frame (b : Block) :
    Block.Only [.lau] b (clearRings b) := by
  unfold clearRings
  with_reducible
    try lift_lets
    intro xx
    clear_value xx
    refine .set_lau ?_ _ (by decide)
    exact .refl _ _

theorem cancelArmed_frame (r : Nat) (p : Entry → Bool) (b : Block) :
    Block.Only [.arb, .btn, .cwy, .cwyX, .dmp, .hic, .lau, .pea, .qmg] b (cancelArmed r p b).1 := by
  unfold cancelArmed
  with_reducible
    try lift_lets
    intro xx
    clear_value xx
    try lift_lets
    intro (xx : _ → _)
    try lift_lets
    intro xx
    clear_value xx
    try lift_lets
    intro xx
    refine Block.Only.viaVar xx ?_ (fun _ => ?_) <;> [simp only [xx]; clear_value xx]
    refine .step (setRing_frame ..) (by decide) ?_
    exact .refl _ _
    refine .step (trimRing_frame ..) (by decide) ?_
    refine .forAll (fun _ _ _ => ?_) _ ?_
    refine .step (resolveItem_frame ..) (by decide) ?_
    assumption
    assumption

theorem cancelOne_frame (r u : Nat) (b : Block) :
    Block.Only [.arb, .btn, .cwy, .cwyX, .dmp, .hic, .lau, .pea, .qmg] b (cancelOne r u b) := by
  unfold cancelOne
  with_reducible
    try lift_lets
    intro xx
    clear_value xx
    try lift_lets
    intro xx
    clear_value xx
    refine .step (resolveItem_frame ..) (by decide) ?_
    refine .step (setOwner_frame ..) (by decide) ?_
    refine .set_qmg ?_ _ (by decide)
    exact .refl _ _

theorem cancelEntries_frame (r : Nat) (p : Entry → Bool) (b : Block) :
    Block.Only [.arb, .btn, .cwy, .cwyX, .dmp, .hic, .lau, .pea, .qmg] b (cancelEntries r p b).1 := by
  unfold cancelEntries
  with_reducible
    try lift_lets
    intro xx
    refine Block.Only.viaPair xx ?_ (fun _ => ?_) <;> [simp only [xx]; clear_value xx]
    refine .step (cancelArmed_frame ..) (by decide) ?_
    exact .refl _ _
    refine .forAll (fun _ _ _ => ?_) _ ?_
    refine .step (cancelOne_frame ..) (by decide) ?_
    assumption
    refine .step (setRing_frame ..) (by decide) ?_
    refine .step (setQ_frame ..) (by decide) ?_
    assumption

end Sys2Proof.Machine
end

