-- ==== Sys2Proof/Laws/FrameSalternOps.lean ====
section
/-! SUPPORT. Frames of the operations of Machine/SalternOps.lean: the units each of them may change. -/

namespace Sys2Proof.Machine

theorem updLegal_frame (n : Fin 16) (f : LegalConn → LegalConn) (b : Block) :
    Block.Only [.legal] b (updLegal n f b) := by
  unfold updLegal
  with_reducible
    refine .set_legal ?_ _ (by decide)
    exact .refl _ _

theorem updSlt_frame (f : Saltern → Saltern) (b : Block) :
    Block.Only [.slt] b (updSlt f b) := by
  unfold updSlt
  with_reducible
    refine .set_slt ?_ _ (by decide)
    exact .refl _ _

theorem updLedger_frame (n : Fin 16) (f : Ledger → Ledger) (b : Block) :
    Block.Only [.bri] b (updLedger n f b) := by
  unfold updLedger
  with_reducible
    try lift_lets
    intro xx
    clear_value xx
    refine .set_bri ?_ _ (by decide)
    exact .refl _ _

theorem enqueueBoundary_frame (x : Boundary) (b : Block) :
    Block.Only [.arb, .btn, .cwy, .cwyX, .dmp, .hic, .lau, .qmg] b (enqueueBoundary x b) := by
  unfold enqueueBoundary
  with_reducible
    refine .step (submit_frame ..) (by decide) ?_
    exact .refl _ _

theorem feedBoundary_frame (b : Block) :
    Block.Only [.arb, .btn, .cwy, .cwyX, .dmp, .hic, .lau, .qmg, .slt] b (feedBoundary b) := by
  unfold feedBoundary
  with_reducible
    split
    exact .refl _ _
    refine .step (enqueueBoundary_frame ..) (by decide) ?_
    refine .step (updSlt_frame ..) (by decide) ?_
    exact .refl _ _

theorem planBoundary_frame (b : Block) :
    Block.Only [.arb, .btn, .cwy, .cwyX, .dmp, .hic, .lau, .qmg, .slt] b (planBoundary b) := by
  unfold planBoundary
  with_reducible
    refine .ite _ ?_ ?_
    exact .refl _ _
    split
    exact .refl _ _
    refine .step (feedBoundary_frame ..) (by decide) ?_
    refine .step (updSlt_frame ..) (by decide) ?_
    exact .refl _ _

theorem replan_frame (b : Block) :
    Block.Only [.arb, .btn, .cwy, .cwyX, .dmp, .hic, .lau, .qmg, .slt] b (replan b) := by
  unfold replan
  with_reducible
    refine .step (planBoundary_frame ..) (by decide) ?_
    refine .step (updSlt_frame ..) (by decide) ?_
    exact .refl _ _

theorem boundaryLost_frame (t : U64) (b : Block) :
    Block.Only [.arb, .btn, .cwy, .cwyX, .dmp, .hic, .lau, .qmg, .slt] b (boundaryLost t b) := by
  unfold boundaryLost
  with_reducible
    split
    exact .refl _ _
    try lift_lets
    intro xx
    clear_value xx
    refine .step (enqueueBoundary_frame ..) (by decide) ?_
    refine .step (updSlt_frame ..) (by decide) ?_
    exact .refl _ _

theorem engineTake_frame (u : Fin 4) (b : Block) :
    Block.Only [.key] b (engineTake u b) := by
  unfold engineTake
  with_reducible
    try lift_lets
    intro xx
    clear_value xx
    refine .ite _ ?_ ?_
    exact .refl _ _
    split
    exact .refl _ _
    refine .set_key ?_ _ (by decide)
    exact .refl _ _

theorem engineDispatch_frame (b : Block) :
    Block.Only [.key] b (engineDispatch b) := by
  unfold engineDispatch
  with_reducible
    refine .forAll (fun _ _ _ => ?_) _ ?_
    refine .step (engineTake_frame ..) (by decide) ?_
    assumption
    exact .refl _ _

theorem engineSubmit_frame (c : Fin 3) (j : EngineJob) (op : EngineOp) (b : Block) :
    Block.Only [.key] b (engineSubmit c j op b) := by
  unfold engineSubmit
  with_reducible
    try lift_lets
    intro xx
    clear_value xx
    refine .step (engineDispatch_frame ..) (by decide) ?_
    refine .set_key ?_ _ (by decide)
    exact .refl _ _

theorem takeReading_frame (x : ReadingSpec) (b : Block) :
    Block.Only [.key, .slt] b (takeReading x b) := by
  unfold takeReading
  with_reducible
    try lift_lets
    intro xx
    clear_value xx
    try lift_lets
    intro xx
    clear_value xx
    try lift_lets
    intro xx
    clear_value xx
    try lift_lets
    intro xx
    clear_value xx
    refine .step (engineSubmit_frame ..) (by decide) ?_
    refine .step (updSlt_frame ..) (by decide) ?_
    exact .refl _ _

theorem noteHeld_frame (b : Block) :
    Block.Only [.hic, .slt] b (noteHeld b) := by
  unfold noteHeld
  with_reducible
    try lift_lets
    intro xx
    clear_value xx
    refine .ite _ ?_ ?_
    refine .step (irq_frame ..) (by decide) ?_
    refine .step (updSlt_frame ..) (by decide) ?_
    exact .refl _ _
    refine .ite _ ?_ ?_
    refine .step (updSlt_frame ..) (by decide) ?_
    exact .refl _ _
    exact .refl _ _

theorem flushHeldAux_frame (q : Nat) (y0 : Nat) (y1 : Block) :
    Block.Only [.arb, .btn, .cwy, .cwyX, .dmp, .hic, .lau, .qmg, .slt] y1 (flushHeldAux q y0 y1) := by
  fun_induction flushHeldAux q y0 y1
  with_reducible
    exact .refl _ _
    exact .refl _ _
    refine .trans ?_ (by assumption)
    refine .step (updSlt_frame ..) (by decide) ?_
    exact .refl _ _
    refine .trans ?_ (by assumption)
    refine .step (updSlt_frame ..) (by decide) ?_
    refine .ofPair (by assumption) ?_
    refine .step (qEnqueue_frame ..) (by decide) ?_
    exact .refl _ _
    refine .step (updSlt_frame ..) (by decide) ?_
    refine .ofPair (by assumption) ?_
    refine .step (qEnqueue_frame ..) (by decide) ?_
    exact .refl _ _

theorem flushHeld_frame (b : Block) :
    Block.Only [.arb, .btn, .cwy, .cwyX, .dmp, .hic, .lau, .qmg, .slt] b (flushHeld b) := by
  unfold flushHeld
  with_reducible
    refine .ite _ ?_ ?_
    refine .step (noteHeld_frame ..) (by decide) ?_
    exact .refl _ _
    refine .step (noteHeld_frame ..) (by decide) ?_
    refine .step (flushHeldAux_frame ..) (by decide) ?_
    exact .refl _ _

theorem allocParts_frame  (y0 : List (List U8)) (y1 : List Nat) (y2 : Block) :
    Block.Only [.arb, .btn, .cwy, .cwyX, .dmp, .hic, .qmg] y2 (allocParts y0 y1 y2).1 := by
  fun_induction allocParts y0 y1 y2
  with_reducible
    exact .refl _ _
    refine .trans ?_ (by assumption)
    refine .step (setBuf_frame ..) (by decide) ?_
    refine .ofPair (by assumption) ?_
    refine .step (qAlloc_frame ..) (by decide) ?_
    exact .refl _ _
    refine .forAll (fun _ _ _ => ?_) _ ?_
    refine .step (qFree_frame ..) (by decide) ?_
    assumption
    refine .ofPair (by assumption) ?_
    refine .step (qAlloc_frame ..) (by decide) ?_
    exact .refl _ _

theorem holdUnsigned_frame (r : Reading) (b : Block) :
    Block.Only [.hic, .slt] b (holdUnsigned r b) := by
  unfold holdUnsigned
  with_reducible
    refine .step (irq_frame ..) (by decide) ?_
    refine .step (updSlt_frame ..) (by decide) ?_
    exact .refl _ _

theorem sendReading_frame (r : Reading) (b : Block) :
    Block.Only [.arb, .btn, .cwy, .cwyX, .dmp, .hic, .lau, .qmg, .slt] b (sendReading r b) := by
  unfold sendReading
  with_reducible
    split
    refine .step (flushHeld_frame ..) (by decide) ?_
    refine .step (updSlt_frame ..) (by decide) ?_
    refine .ofPair (by assumption) ?_
    refine .step (allocParts_frame ..) (by decide) ?_
    exact .refl _ _
    refine .step (holdUnsigned_frame ..) (by decide) ?_
    refine .ofPair (by assumption) ?_
    refine .step (allocParts_frame ..) (by decide) ?_
    exact .refl _ _

theorem signHeldAgain_frame (b : Block) :
    Block.Only [.key, .slt] b (signHeldAgain b) := by
  unfold signHeldAgain
  with_reducible
    refine .forAll (fun _ _ _ => ?_) _ ?_
    refine .step (engineSubmit_frame ..) (by decide) ?_
    refine .step (updSlt_frame ..) (by decide) ?_
    assumption
    refine .step (updSlt_frame ..) (by decide) ?_
    exact .refl _ _

theorem setWallet_frame (w : Nat) (x : Wallet) (b : Block) :
    Block.Only [.bri] b (setWallet w x b) := by
  unfold setWallet
  with_reducible
    try lift_lets
    intro xx
    clear_value xx
    refine .set_bri ?_ _ (by decide)
    exact .refl _ _

theorem twinWrite_frame (r : Fin 6) (line : Nat) (payload : List U8) (act : StoreAct) (b : Block) :
    Block.Only [.arb, .hic, .pea] b (twinWrite r line payload act b) := by
  unfold twinWrite
  with_reducible
    try lift_lets
    intro xx
    clear_value xx
    try lift_lets
    intro xx
    clear_value xx
    try lift_lets
    intro xx
    clear_value xx
    try lift_lets
    intro xx
    clear_value xx
    try lift_lets
    intro xx
    clear_value xx
    try lift_lets
    intro xx
    clear_value xx
    refine .step (peatRequest_frame ..) (by decide) ?_
    exact .refl _ _

theorem saveWalletAs_frame (act : StoreAct) (w : Nat) (b : Block) :
    Block.Only [.arb, .bri, .hic, .pea] b (saveWalletAs act w b) := by
  unfold saveWalletAs
  with_reducible
    try lift_lets
    intro xx
    clear_value xx
    try lift_lets
    intro xx
    clear_value xx
    refine .step (twinWrite_frame ..) (by decide) ?_
    refine .step (setWallet_frame ..) (by decide) ?_
    exact .refl _ _

theorem saveWallet_frame (w : Nat) (b : Block) :
    Block.Only [.arb, .bri, .hic, .pea] b (saveWallet w b) := by
  unfold saveWallet
  with_reducible
    refine .step (saveWalletAs_frame ..) (by decide) ?_
    exact .refl _ _

theorem unproveWallet_frame (w : Nat) (b : Block) :
    Block.Only [.arb, .bri, .hic, .pea] b (unproveWallet w b) := by
  unfold unproveWallet
  with_reducible
    try lift_lets
    intro xx
    clear_value xx
    refine .step (saveWallet_frame ..) (by decide) ?_
    refine .step (setWallet_frame ..) (by decide) ?_
    exact .refl _ _

theorem selfLineAs_frame (act : StoreAct) (event : Nat) (conn : Option (Fin 16)) (w : Option Nat) (amount ledgerAfter : U64) (session msgSeq : U32) (b : Block) :
    Block.Only [.arb, .bri, .hic, .pea] b (selfLineAs act event conn w amount ledgerAfter session msgSeq b) := by
  unfold selfLineAs
  with_reducible
    try lift_lets
    intro xx
    clear_value xx
    try lift_lets
    intro xx
    clear_value xx
    try lift_lets
    intro xx
    clear_value xx
    try lift_lets
    intro xx
    clear_value xx
    try lift_lets
    intro xx
    clear_value xx
    refine .step (peatRequest_frame ..) (by decide) ?_
    refine .set_bri_pea ?_ _ _ (by decide) (by decide)
    exact .refl _ _

theorem selfLine_frame (event : Nat) (conn : Option (Fin 16)) (w : Option Nat) (amount ledgerAfter : U64) (session msgSeq : U32) (b : Block) :
    Block.Only [.arb, .bri, .hic, .pea] b (selfLine event conn w amount ledgerAfter session msgSeq b) := by
  unfold selfLine
  with_reducible
    refine .step (selfLineAs_frame ..) (by decide) ?_
    exact .refl _ _

theorem conservationLog_frame (kind : Nat) (diff : Int) (b : Block) :
    Block.Only [.arb, .btn] b (conservationLog kind diff b) := by
  unfold conservationLog
  with_reducible
    refine .step (legalLog_frame ..) (by decide) ?_
    exact .refl _ _

theorem transfer_frame {l : List Part} {b c : Block} {f : Block → Block} (hs : [Part.arb, .bri, .btn, .dmp, .hic] ⊆ l)
    (hf : ∀ d, Block.Only l b d → Block.Only l b (f d)) (h : Block.Only l b c) : Block.Only l b (transfer f c).1 := by
  have h1 : Block.Only [.arb, .bri, .btn, .dmp, .hic] c (raiseFatal 3 (conservationLog 2 (creditDifference (f c)) (irq 432 { c with bri := { c.bri with balanced := false } }))) := by
    refine Block.Only.step (raiseFatal_frame _ _) (by decide) (Block.Only.step (conservationLog_frame _ _ _) (by decide) (Block.Only.step (irq_frame _ _) (by decide) ?_))
    intro p hp; cases p <;> first | rfl | exact absurd (by decide) hp
  have hb : Part.bri ∈ l := hs (by decide)
  unfold transfer
  dsimp only
  split
  · have := hf _ h
    intro p hp
    have := this p hp
    cases p <;> first | exact this | exact absurd hb hp
  · exact h1.step hs h

theorem reserve_frame (n : Fin 16) (w : Nat) (requested : U64) (b : Block) :
    Block.Only [.arb, .bri, .btn, .dmp, .hic, .pea] b (reserve n w requested b).1 := by
  unfold reserve
  with_reducible
    try lift_lets
    intro xx
    clear_value xx
    try lift_lets
    intro xx
    clear_value xx
    try lift_lets
    intro xx
    refine Block.Only.viaPair xx ?_ (fun _ => ?_) <;> [simp only [xx]; clear_value xx]
    refine transfer_frame (by decide) (fun _ _ => ?_) ?_
    refine .step (updLedger_frame ..) (by decide) ?_
    refine .step (setWallet_frame ..) (by decide) ?_
    assumption
    exact .refl _ _
    refine .iteFst _ ?_ ?_
    exact .refl _ _
    refine .iteFst _ ?_ ?_
    exact .refl _ _
    refine .iteFst _ ?_ ?_
    exact .refl _ _
    refine .iteFst _ ?_ ?_
    refine .step (selfLine_frame ..) (by decide) ?_
    assumption
    assumption

theorem returnLedger_frame (n : Fin 16) (b : Block) :
    Block.Only [.arb, .bri, .btn, .dmp, .hic, .pea] b (returnLedger n b) := by
  unfold returnLedger
  with_reducible
    try lift_lets
    intro xx
    clear_value xx
    try lift_lets
    intro xx
    clear_value xx
    try lift_lets
    intro xx
    refine Block.Only.viaVar xx ?_ (fun _ => ?_) <;> [simp only [xx]; clear_value xx]
    refine .onlyIf _ (fun _ _ => ?_) ?_
    refine .step (selfLine_frame ..) (by decide) ?_
    assumption
    exact .refl _ _
    refine .ite _ ?_ ?_
    exact .refl _ _
    refine .ite _ ?_ ?_
    refine .step (saveWalletAs_frame ..) (by decide) ?_
    refine .step (selfLine_frame ..) (by decide) ?_
    refine transfer_frame (by decide) (fun _ _ => ?_) ?_
    refine .step (updLedger_frame ..) (by decide) ?_
    refine .step (setWallet_frame ..) (by decide) ?_
    assumption
    assumption
    refine transfer_frame (by decide) (fun _ _ => ?_) ?_
    refine .step (updLedger_frame ..) (by decide) ?_
    refine .step (setWallet_frame ..) (by decide) ?_
    assumption
    assumption

theorem openItems_frame (n : Fin 16) (b : Block) :
    Block.Only [.key, .legal, .sess, .slt] b (openItems n b) := by
  unfold openItems
  with_reducible
    try lift_lets
    intro xx
    clear_value xx
    try lift_lets
    intro xx
    refine Block.Only.viaVar xx ?_ (fun _ => ?_) <;> [simp only [xx]; clear_value xx]
    refine .step (updSlt_frame ..) (by decide) ?_
    exact .refl _ _
    refine .step (takeReading_frame ..) (by decide) ?_
    refine .set_sess ?_ _ (by decide)
    refine .step (updLegal_frame ..) (by decide) ?_
    assumption

theorem closeItems_frame (n : Fin 16) (reason : U8) (extra : U8) (b : Block) :
    Block.Only [.arb, .bri, .btn, .dmp, .hic, .key, .legal, .pea, .slt] b (closeItems n reason extra b) := by
  unfold closeItems
  with_reducible
    try lift_lets
    intro xx
    clear_value xx
    try lift_lets
    intro xx
    refine Block.Only.viaVar xx ?_ (fun _ => ?_) <;> [simp only [xx]; clear_value xx]
    refine .step (updLegal_frame ..) (by decide) ?_
    refine .step (returnLedger_frame ..) (by decide) ?_
    exact .refl _ _
    refine .ite _ ?_ ?_
    exact .refl _ _
    refine .step (takeReading_frame ..) (by decide) ?_
    assumption

theorem dropItems_frame (n : Fin 16) (session : U32) (b : Block) :
    Block.Only [.legal] b (dropItems n session b) := by
  unfold dropItems
  with_reducible
    try lift_lets
    intro xx
    clear_value xx
    refine .ite _ ?_ ?_
    refine .step (updLegal_frame ..) (by decide) ?_
    exact .refl _ _
    exact .refl _ _

end Sys2Proof.Machine
end

