-- ==== Sys2Proof/Laws/FrameJournal.lean ====
section
/-! SUPPORT. Frames of the operations of Machine/Journal.lean: the units each of them may change. -/

namespace Sys2Proof.Machine

theorem journalWrite_frame (ls : List (List U8)) (act : StoreAct) (b : Block) :
    Block.Only [.arb, .hic, .pea] b (journalWrite ls act b) := by
  unfold journalWrite
  with_reducible
    try lift_lets
    intro xx
    clear_value xx
    try lift_lets
    intro xx
    clear_value xx
    try lift_lets
    intro xx
    refine Block.Only.viaVar xx ?_ (fun _ => ?_) <;> [simp only [xx]; clear_value xx]
    refine .set_pea ?_ _ (by decide)
    exact .refl _ _
    refine .ite _ ?_ ?_
    refine .step (peatWrite_frame ..) (by decide) ?_
    assumption
    refine .step (peatWrite_frame ..) (by decide) ?_
    refine .step (peatWrite_frame ..) (by decide) ?_
    assumption

theorem writeEpoch_frame (kind : Nat) (stamp : U64) (b : Block) :
    Block.Only [.arb, .hic, .pea] b (writeEpoch kind stamp b) := by
  unfold writeEpoch
  with_reducible
    try lift_lets
    intro xx
    clear_value xx
    try lift_lets
    intro xx
    clear_value xx
    try lift_lets
    intro xx
    clear_value xx
    try lift_lets
    intro xx
    clear_value xx
    try lift_lets
    intro xx
    clear_value xx
    try lift_lets
    intro xx
    clear_value xx
    refine .step (journalWrite_frame ..) (by decide) ?_
    refine .set_pea ?_ _ (by decide)
    exact .refl _ _

theorem debitLines_frame (b : Block) :
    Block.Only [.arb, .bri, .hic, .pea] b (debitLines b) := by
  unfold debitLines
  with_reducible
    refine .forAll (fun _ _ _ => ?_) _ ?_
    try lift_lets
    intro xx
    clear_value xx
    refine .ite _ ?_ ?_
    assumption
    refine .step (updLedger_frame ..) (by decide) ?_
    refine .step (selfLine_frame ..) (by decide) ?_
    assumption
    exact .refl _ _

theorem powerFailCommit_frame (c : U64) (b : Block) :
    Block.Only [.arb, .bri, .hic, .pea, .pf] b (powerFailCommit c b) := by
  unfold powerFailCommit
  with_reducible
    try lift_lets
    intro xx
    clear_value xx
    refine .ite _ ?_ ?_
    refine .step (writeEpoch_frame ..) (by decide) ?_
    refine .step (debitLines_frame ..) (by decide) ?_
    refine .set_pf ?_ _ (by decide)
    exact .refl _ _
    refine .set_pf ?_ _ (by decide)
    exact .refl _ _

theorem cutComplete_frame (t : U64) (b : Block) :
    Block.Only [.arb, .bri, .hic, .pea, .pf] b (cutComplete t b) := by
  unfold cutComplete
  with_reducible
    split
    refine .ite _ ?_ ?_
    refine .step (powerFailCommit_frame ..) (by decide) ?_
    exact .refl _ _
    exact .refl _ _
    exact .refl _ _

theorem trailingCommit_frame (b : Block) :
    Block.Only [.arb, .bri, .hic, .pea, .pf] b (trailingCommit b) := by
  unfold trailingCommit
  with_reducible
    try lift_lets
    intro xx
    clear_value xx
    refine .ite _ ?_ ?_
    refine .step (writeEpoch_frame ..) (by decide) ?_
    refine .step (debitLines_frame ..) (by decide) ?_
    refine .set_pf ?_ _ (by decide)
    exact .refl _ _
    exact .refl _ _

theorem shutdownDue_frame (b : Block) :
    Block.Only [.arb, .bri, .hic, .pea, .rst] b (shutdownDue b) := by
  unfold shutdownDue
  with_reducible
    try lift_lets
    intro xx
    clear_value xx
    split
    exact .refl _ _
    refine .ite _ ?_ ?_
    refine .step (writeEpoch_frame ..) (by decide) ?_
    refine .step (debitLines_frame ..) (by decide) ?_
    refine .set_rst ?_ _ (by decide)
    exact .refl _ _
    exact .refl _ _

theorem quiescentCommit_frame (b : Block) :
    Block.Only [.arb, .bri, .hic, .pea, .pf] b (quiescentCommit b) := by
  unfold quiescentCommit
  with_reducible
    try lift_lets
    intro xx
    clear_value xx
    refine .ite _ ?_ ?_
    exact .refl _ _
    refine .step (writeEpoch_frame ..) (by decide) ?_
    refine .step (debitLines_frame ..) (by decide) ?_
    refine .set_pf ?_ _ (by decide)
    exact .refl _ _

end Sys2Proof.Machine
end

