-- ==== Sys2Proof/Laws/FrameInsulate.lean ====
section
/-! SUPPORT. Frames of the operations of Machine/Insulate.lean: the units each of them may change. -/

namespace Sys2Proof.Machine

theorem updImd_frame (n : Fin 16) (f : ImdNode → ImdNode) (b : Block) :
    Block.Only [.imd] b (updImd n f b) := by
  unfold updImd
  with_reducible
    refine .set_imd ?_ _ (by decide)
    exact .refl _ _

theorem updImdG_frame (f : ImdGlobal → ImdGlobal) (b : Block) :
    Block.Only [.imdG] b (updImdG f b) := by
  unfold updImdG
  with_reducible
    refine .set_imdG ?_ _ (by decide)
    exact .refl _ _

theorem noteActive_frame (b : Block) :
    Block.Only [.imd] b (noteActive b) := by
  unfold noteActive
  with_reducible
    refine .set_imd ?_ _ (by decide)
    exact .refl _ _

theorem driveEntry_frame (n : Fin 16) (t : Nat) (b : Block) :
    Block.Only [.arb, .btn, .cwy, .cwyX, .dmp, .hic, .imd, .imdG, .lau, .qmg] b (driveEntry n t b) := by
  unfold driveEntry
  with_reducible
    try lift_lets
    intro xx
    clear_value xx
    try lift_lets
    intro xx
    refine Block.Only.viaPair xx ?_ (fun _ => ?_) <;> [simp only [xx]; clear_value xx]
    refine .step (submitEntry_frame ..) (by decide) ?_
    exact .refl _ _
    refine .step (updImdG_frame ..) (by decide) ?_
    refine .onlyIf _ (fun _ _ => ?_) ?_
    refine .step (updImd_frame ..) (by decide) ?_
    assumption
    assumption

theorem driveAux_frame (h : Nat) (y0 : Nat) (y1 : Block) :
    Block.Only [.arb, .btn, .cwy, .cwyX, .dmp, .hic, .imd, .imdG, .lau, .qmg] y1 (driveAux h y0 y1) := by
  fun_induction driveAux h y0 y1
  with_reducible
    exact .refl _ _
    exact .refl _ _
    refine .trans ?_ (by assumption)
    refine .step (driveEntry_frame ..) (by decide) ?_
    exact .refl _ _
    exact .refl _ _

theorem driveFeed_frame (b : Block) :
    Block.Only [.arb, .btn, .cwy, .cwyX, .dmp, .hic, .imd, .imdG, .lau, .qmg] b (driveFeed b) := by
  unfold driveFeed
  with_reducible
    try lift_lets
    intro xx
    refine Block.Only.viaVar xx ?_ (fun _ => ?_) <;> [simp only [xx]; clear_value xx]
    refine .step (noteActive_frame ..) (by decide) ?_
    exact .refl _ _
    refine .ite _ ?_ ?_
    refine .step (driveAux_frame ..) (by decide) ?_
    assumption
    assumption

theorem rebaseAt_frame (t : U64) (n : Fin 16) (b : Block) :
    Block.Only [.imd] b (rebaseAt t n b) := by
  unfold rebaseAt
  with_reducible
    refine .step (updImd_frame ..) (by decide) ?_
    exact .refl _ _

theorem rebase_frame (n : Fin 16) (b : Block) :
    Block.Only [.imd] b (rebase n b) := by
  unfold rebase
  with_reducible
    refine .step (rebaseAt_frame ..) (by decide) ?_
    exact .refl _ _

theorem imdTopology_frame (n : Fin 16) (joined : Bool) (b : Block) :
    Block.Only [.arb, .btn, .cwy, .cwyX, .dmp, .hic, .imd, .imdG, .lau, .qmg] b (imdTopology n joined b) := by
  unfold imdTopology
  with_reducible
    try lift_lets
    intro xx
    clear_value xx
    refine .step (driveFeed_frame ..) (by decide) ?_
    refine .step (rebase_frame ..) (by decide) ?_
    refine .step (updImd_frame ..) (by decide) ?_
    exact .refl _ _

theorem imdClose_frame (n : Fin 16) (b : Block) :
    Block.Only [.imd] b (imdClose n b) := by
  unfold imdClose
  with_reducible
    try lift_lets
    intro xx
    clear_value xx
    refine .step (rebase_frame ..) (by decide) ?_
    refine .step (updImd_frame ..) (by decide) ?_
    exact .refl _ _

theorem imdOpen_frame (n : Fin 16) (b : Block) :
    Block.Only [.imd] b (imdOpen n b) := by
  unfold imdOpen
  with_reducible
    refine .step (rebase_frame ..) (by decide) ?_
    refine .step (updImd_frame ..) (by decide) ?_
    exact .refl _ _

theorem imdCableCheck_frame (n : Fin 16) (b : Block) :
    Block.Only [.arb, .btn, .cwy, .cwyX, .dmp, .hic, .imd, .imdG, .lau, .qmg] b (imdCableCheck n b) := by
  unfold imdCableCheck
  with_reducible
    try lift_lets
    intro xx
    clear_value xx
    refine .step (driveFeed_frame ..) (by decide) ?_
    refine .step (imdClose_frame ..) (by decide) ?_
    refine .step (updImd_frame ..) (by decide) ?_
    exact .refl _ _

theorem imdSessionEnds_frame (n : Fin 16) (b : Block) :
    Block.Only [.imd] b (imdSessionEnds n b) := by
  unfold imdSessionEnds
  with_reducible
    refine .step (noteActive_frame ..) (by decide) ?_
    refine .step (updImd_frame ..) (by decide) ?_
    exact .refl _ _

theorem imdDisturb_frame (n : Fin 16) (t : U64) (b : Block) :
    Block.Only [.imd] b (imdDisturb n t b) := by
  unfold imdDisturb
  with_reducible
    refine .step (updImd_frame ..) (by decide) ?_
    exact .refl _ _

end Sys2Proof.Machine
end

