-- ==== Sys2Proof/Laws/FrameSessions.lean ====
section
/-! SUPPORT. Frames of the operations of Machine/Sessions.lean: the units each of them may change. -/

namespace Sys2Proof.Machine

theorem updNode_frame (n : Fin 16) (f : SafNode → SafNode) (b : Block) :
    Block.Only [.saf] b (updNode n f b) := by
  unfold updNode
  with_reducible
    try lift_lets
    intro xx
    clear_value xx
    refine .set_saf ?_ _ (by decide)
    exact .refl _ _

theorem updSaf_frame (f : Safety → Safety) (b : Block) :
    Block.Only [.saf] b (updSaf f b) := by
  unfold updSaf
  with_reducible
    refine .set_saf ?_ _ (by decide)
    exact .refl _ _

theorem updSafX_frame (f : SafetyX → SafetyX) (b : Block) :
    Block.Only [.safX] b (updSafX f b) := by
  unfold updSafX
  with_reducible
    refine .set_safX ?_ _ (by decide)
    exact .refl _ _

theorem updSess_frame (n : Fin 16) (f : Session → Session) (b : Block) :
    Block.Only [.sess] b (updSess n f b) := by
  unfold updSess
  with_reducible
    refine .set_sess ?_ _ (by decide)
    exact .refl _ _

theorem updLs_frame (n : Fin 16) (f : LsChan → LsChan) (b : Block) :
    Block.Only [.lsw] b (updLs n f b) := by
  unfold updLs
  with_reducible
    try lift_lets
    intro xx
    clear_value xx
    refine .set_lsw ?_ _ (by decide)
    exact .refl _ _

theorem updHs_frame (c : Fin 40) (f : HsChan → HsChan) (b : Block) :
    Block.Only [.lsw] b (updHs c f b) := by
  unfold updHs
  with_reducible
    try lift_lets
    intro xx
    clear_value xx
    refine .set_lsw ?_ _ (by decide)
    exact .refl _ _

theorem updVeh_frame (n : Fin 16) (f : Connector → Connector) (b : Block) :
    Block.Only [.veh] b (updVeh n f b) := by
  unfold updVeh
  with_reducible
    refine .set_veh ?_ _ (by decide)
    exact .refl _ _

theorem hsEntry_frame (ring : Nat) (c : Nat) (action : U8) (t : U64) (b : Block) :
    Block.Only [.arb, .btn, .cwy, .cwyX, .dmp, .hic, .lau, .qmg] b (hsEntry ring c action t b) := by
  unfold hsEntry
  with_reducible
    refine .step (submit_frame ..) (by decide) ?_
    exact .refl _ _

theorem supplyOn_frame (n : Fin 16) (b : Block) :
    Block.Only [.arb, .btn, .cwy, .cwyX, .dmp, .hic, .lau, .qmg] b (supplyOn n b) := by
  unfold supplyOn
  with_reducible
    try lift_lets
    intro xx
    clear_value xx
    refine .dite _ (fun _ => ?_) (fun _ => ?_)
    refine .ite _ ?_ ?_
    exact .refl _ _
    refine .step (hsEntry_frame ..) (by decide) ?_
    exact .refl _ _
    exact .refl _ _

theorem supplyOff_frame (n : Fin 16) (b : Block) :
    Block.Only [.arb, .btn, .cwy, .cwyX, .dmp, .hic, .lau, .qmg] b (supplyOff n b) := by
  unfold supplyOff
  with_reducible
    try lift_lets
    intro xx
    clear_value xx
    refine .ite _ ?_ ?_
    refine .step (hsEntry_frame ..) (by decide) ?_
    exact .refl _ _
    exact .refl _ _

theorem coilStart_frame (n : Fin 16) (b : Block) :
    Block.Only [.hic, .lsw, .saf] b (coilStart n b) := by
  unfold coilStart
  with_reducible
    try lift_lets
    intro xx
    clear_value xx
    try lift_lets
    intro xx
    clear_value xx
    try lift_lets
    intro xx
    clear_value xx
    try lift_lets
    intro xx
    clear_value xx
    refine .ite _ ?_ ?_
    refine .onlyIf _ (fun _ _ => ?_) ?_
    refine .step (irq_frame ..) (by decide) ?_
    assumption
    refine .step (updNode_frame ..) (by decide) ?_
    refine .step (updLs_frame ..) (by decide) ?_
    exact .refl _ _
    exact .refl _ _

theorem lsOn_frame (n : Fin 16) (b : Block) :
    Block.Only [.hic, .lsw, .saf] b (lsOn n b) := by
  unfold lsOn
  with_reducible
    refine .step (coilStart_frame ..) (by decide) ?_
    refine .step (updLs_frame ..) (by decide) ?_
    exact .refl _ _

theorem coilRelease_frame (n : Fin 16) (b : Block) :
    Block.Only [.hic, .lsw, .saf] b (coilRelease n b) := by
  unfold coilRelease
  with_reducible
    refine .forAll (fun _ _ _ => ?_) _ ?_
    refine .ite _ ?_ ?_
    assumption
    refine .step (coilStart_frame ..) (by decide) ?_
    refine .step (updLs_frame ..) (by decide) ?_
    assumption
    exact .refl _ _

theorem lsOff_frame (n : Fin 16) (b : Block) :
    Block.Only [.hic, .lsw, .saf, .safX] b (lsOff n b) := by
  unfold lsOff
  with_reducible
    try lift_lets
    intro xx
    clear_value xx
    try lift_lets
    intro xx
    refine Block.Only.viaVar xx ?_ (fun _ => ?_) <;> [simp only [xx]; clear_value xx]
    refine .step (updLs_frame ..) (by decide) ?_
    exact .refl _ _
    refine .ite _ ?_ ?_
    exact .refl _ _
    refine .ite _ ?_ ?_
    assumption
    refine .onlyIf _ (fun _ _ => ?_) ?_
    refine .step (coilRelease_frame ..) (by decide) ?_
    assumption
    refine .onlyIf _ (fun _ _ => ?_) ?_
    refine .step (irq_frame ..) (by decide) ?_
    refine .step (updSafX_frame ..) (by decide) ?_
    assumption
    refine .step (updNode_frame ..) (by decide) ?_
    assumption

theorem reviewHw_frame (b : Block) :
    Block.Only [.hic, .lsw, .saf, .safX] b (reviewHw b) := by
  unfold reviewHw
  with_reducible
    refine .forAll (fun _ _ _ => ?_) _ ?_
    try lift_lets
    intro xx
    clear_value xx
    refine .onlyIf _ (fun _ _ => ?_) ?_
    refine .step (lsOff_frame ..) (by decide) ?_
    assumption
    refine .step (updNode_frame ..) (by decide) ?_
    assumption
    exact .refl _ _

theorem dykeClear_frame (n : Fin 16) (b : Block) :
    Block.Only [.hic, .lsw, .saf, .safX] b (dykeClear n b) := by
  unfold dykeClear
  with_reducible
    refine .step (lsOff_frame ..) (by decide) ?_
    refine .step (updNode_frame ..) (by decide) ?_
    exact .refl _ _

theorem closePair_frame (n : Fin 16) (b : Block) :
    Block.Only [.hic, .lsw, .saf, .sess] b (closePair n b) := by
  unfold closePair
  with_reducible
    try lift_lets
    intro xx
    refine Block.Only.viaVar xx ?_ (fun _ => ?_) <;> [simp only [xx]; clear_value xx]
    refine .step (updNode_frame ..) (by decide) ?_
    exact .refl _ _
    refine .ite _ ?_ ?_
    refine .step (lsOn_frame ..) (by decide) ?_
    refine .step (updNode_frame ..) (by decide) ?_
    refine .step (updSess_frame ..) (by decide) ?_
    assumption
    assumption

theorem startMove_frame (n : Fin 16) (lock : Bool) (mbx : Option (Fin 4)) (b : Block) :
    Block.Only [.arb, .btn, .cwy, .cwyX, .dmp, .hic, .lau, .qmg, .veh] b (startMove n lock mbx b) := by
  unfold startMove
  with_reducible
    try lift_lets
    intro xx
    clear_value xx
    try lift_lets
    intro xx
    clear_value xx
    try lift_lets
    intro xx
    clear_value xx
    refine .ite _ ?_ ?_
    refine .step (hsEntry_frame ..) (by decide) ?_
    refine .step (updVeh_frame ..) (by decide) ?_
    exact .refl _ _
    exact .refl _ _

theorem unlockIfDue_frame (n : Fin 16) (b : Block) :
    Block.Only [.arb, .btn, .cwy, .cwyX, .dmp, .hic, .lau, .qmg, .veh] b (unlockIfDue n b) := by
  unfold unlockIfDue
  with_reducible
    try lift_lets
    intro xx
    clear_value xx
    refine .ite _ ?_ ?_
    refine .ite _ ?_ ?_
    refine .step (startMove_frame ..) (by decide) ?_
    exact .refl _ _
    refine .step (updVeh_frame ..) (by decide) ?_
    exact .refl _ _
    exact .refl _ _

theorem setDuty_frame (n : Fin 16) (d : Nat) (b : Block) :
    Block.Only [.arb, .btn, .cwy, .cwyX, .dmp, .hic, .lau, .qmg, .veh] b (setDuty n d b) := by
  unfold setDuty
  with_reducible
    refine .step (submit_frame ..) (by decide) ?_
    refine .set_veh ?_ _ (by decide)
    exact .refl _ _

theorem dutyReview_frame (n : Fin 16) (b : Block) :
    Block.Only [.arb, .btn, .cwy, .cwyX, .dmp, .hic, .lau, .qmg, .veh] b (dutyReview n b) := by
  unfold dutyReview
  with_reducible
    refine .ite _ ?_ ?_
    refine .step (setDuty_frame ..) (by decide) ?_
    exact .refl _ _
    exact .refl _ _

theorem openOutside_frame (n : Fin 16) (b : Block) :
    Block.Only [.arb, .btn, .cwy, .cwyX, .dmp, .hic, .imd, .lau, .lsw, .qmg, .saf, .safX] b (openOutside n b) := by
  unfold openOutside
  with_reducible
    refine .step (supplyOff_frame ..) (by decide) ?_
    refine .step (imdSessionEnds_frame ..) (by decide) ?_
    refine .step (dykeClear_frame ..) (by decide) ?_
    refine .step (updNode_frame ..) (by decide) ?_
    exact .refl _ _

theorem updPlc_frame (n : Fin 16) (f : Modem → Modem) (b : Block) :
    Block.Only [.plc] b (updPlc n f b) := by
  unfold updPlc
  with_reducible
    refine .set_plc ?_ _ (by decide)
    exact .refl _ _

theorem modemPhase_frame (n : Fin 16) (p : Phase) (b : Block) :
    Block.Only [.plc, .plcCfg] b (modemPhase n p b) := by
  unfold modemPhase
  with_reducible
    try lift_lets
    intro xx
    refine Block.Only.viaVar xx ?_ (fun _ => ?_) <;> [simp only [xx]; clear_value xx]
    refine .step (updPlc_frame ..) (by decide) ?_
    exact .refl _ _
    split
    refine .step (updPlc_frame ..) (by decide) ?_
    exact .refl _ _
    refine .ite _ ?_ ?_
    exact .refl _ _
    refine .ite _ ?_ ?_
    refine .set_plcCfg ?_ _ (by decide)
    assumption
    refine .step (updPlc_frame ..) (by decide) ?_
    exact .refl _ _
    exact .refl _ _

theorem enterPhase_frame (n : Fin 16) (p : Phase) (b : Block) :
    Block.Only [.arb, .btn, .cwy, .cwyX, .dmp, .hic, .imd, .imdG, .lau, .lsw, .plc, .plcCfg, .qmg, .saf, .safX, .sess] b (enterPhase n p b) := by
  unfold enterPhase
  with_reducible
    try lift_lets
    intro xx
    refine Block.Only.viaVar xx ?_ (fun _ => ?_) <;> [simp only [xx]; clear_value xx]
    refine .step (updSess_frame ..) (by decide) ?_
    refine .step (modemPhase_frame ..) (by decide) ?_
    exact .refl _ _
    split
    refine .step (closePair_frame ..) (by decide) ?_
    refine .step (imdCableCheck_frame ..) (by decide) ?_
    refine .step (supplyOn_frame ..) (by decide) ?_
    assumption
    assumption
    assumption
    refine .step (updNode_frame ..) (by decide) ?_
    assumption
    refine .step (openOutside_frame ..) (by decide) ?_
    assumption

theorem endSession_frame (n : Fin 16) (b : Block) :
    Block.Only [.arb, .bri, .btn, .cwy, .cwyX, .dmp, .hic, .imd, .imdG, .key, .lau, .legal, .lsw, .pea, .plc, .plcCfg, .qmg, .saf, .safX, .sess, .slt, .veh] b (endSession n b) := by
  unfold endSession
  with_reducible
    try lift_lets
    intro xx
    clear_value xx
    try lift_lets
    intro xx
    refine Block.Only.viaVar xx ?_ (fun _ => ?_) <;> [simp only [xx]; clear_value xx]
    refine .step (updSess_frame ..) (by decide) ?_
    exact .refl _ _
    refine .step (closeItems_frame ..) (by decide) ?_
    refine .step (updVeh_frame ..) (by decide) ?_
    refine .step (enterPhase_frame ..) (by decide) ?_
    assumption

theorem stopDone_frame (n : Fin 16) (b : Block) :
    Block.Only [.arb, .bri, .btn, .cwy, .cwyX, .dmp, .hic, .imd, .imdG, .key, .lau, .legal, .lsw, .pea, .plc, .plcCfg, .qmg, .saf, .safX, .sess, .slt, .veh] b (stopDone n b) := by
  unfold stopDone
  with_reducible
    refine .ite _ ?_ ?_
    refine .step (endSession_frame ..) (by decide) ?_
    exact .refl _ _
    exact .refl _ _

theorem stopSession_frame (n : Fin 16) (r : EndReason) (b : Block) :
    Block.Only [.arb, .bri, .btn, .cwy, .cwyX, .dmp, .hic, .imd, .imdG, .key, .lau, .legal, .lsw, .pea, .plc, .plcCfg, .qmg, .saf, .safX, .sess, .slt, .veh] b (stopSession n r b) := by
  unfold stopSession
  with_reducible
    try lift_lets
    intro xx
    clear_value xx
    try lift_lets
    intro xx
    refine Block.Only.viaVar xx ?_ (fun _ => ?_) <;> [simp only [xx]; clear_value xx]
    refine .step (updSess_frame ..) (by decide) ?_
    exact .refl _ _
    refine .ite _ ?_ ?_
    refine .ite _ ?_ ?_
    assumption
    refine .ite _ ?_ ?_
    refine .step (enterPhase_frame ..) (by decide) ?_
    assumption
    refine .step (endSession_frame ..) (by decide) ?_
    assumption
    exact .refl _ _

theorem stopAll_frame (r : EndReason) (b : Block) :
    Block.Only [.arb, .bri, .btn, .cwy, .cwyX, .dmp, .hic, .imd, .imdG, .key, .lau, .legal, .lsw, .pea, .plc, .plcCfg, .qmg, .saf, .safX, .sess, .slt, .veh] b (stopAll r b) := by
  unfold stopAll
  with_reducible
    refine .forAll (fun _ _ _ => ?_) _ ?_
    refine .step (stopSession_frame ..) (by decide) ?_
    assumption
    exact .refl _ _

theorem toIdle_frame (n : Fin 16) (b : Block) :
    Block.Only [.arb, .auth, .btn, .cwy, .cwyX, .dmp, .hic, .imd, .imdG, .lau, .lsw, .plc, .plcCfg, .qmg, .saf, .safX, .sess, .v2g] b (toIdle n b) := by
  unfold toIdle
  with_reducible
    try lift_lets
    intro xx
    refine Block.Only.viaVar xx ?_ (fun _ => ?_) <;> [simp only [xx]; clear_value xx]
    refine .onlyIf _ (fun _ _ => ?_) ?_
    refine .step (irq_frame ..) (by decide) ?_
    assumption
    refine .step (enterPhase_frame ..) (by decide) ?_
    exact .refl _ _
    refine .step (updSess_frame ..) (by decide) ?_
    refine .set_auth_v2g ?_ _ _ (by decide) (by decide)
    assumption

theorem lockoutLog_frame (what : U8) (s : CScope) (cause : U8) (b : Block) :
    Block.Only [.arb, .btn] b (lockoutLog what s cause b) := by
  unfold lockoutLog
  with_reducible
    refine .step (legalLog_frame ..) (by decide) ?_
    exact .refl _ _

theorem coverFaulted_frame (n : Fin 16) (b : Block) :
    Block.Only [.arb, .btn, .cwy, .cwyX, .dmp, .hic, .lau, .lsw, .qmg, .saf, .safX, .veh] b (coverFaulted n b) := by
  unfold coverFaulted
  with_reducible
    refine .step (dutyReview_frame ..) (by decide) ?_
    refine .step (dykeClear_frame ..) (by decide) ?_
    refine .step (updNode_frame ..) (by decide) ?_
    exact .refl _ _

theorem setLock_frame (s : CScope) (cause : U8) (b : Block) :
    Block.Only [.arb, .btn, .cwy, .cwyX, .dmp, .hic, .lau, .lsw, .pea, .qmg, .saf, .safX, .veh] b (setLock s cause b) := by
  unfold setLock
  with_reducible
    try lift_lets
    intro xx
    clear_value xx
    try lift_lets
    intro xx
    refine Block.Only.viaVar xx ?_ (fun _ => ?_) <;> [simp only [xx]; clear_value xx]
    split
    refine .step (updNode_frame ..) (by decide) ?_
    exact .refl _ _
    refine .step (updSaf_frame ..) (by decide) ?_
    exact .refl _ _
    refine .step (updSaf_frame ..) (by decide) ?_
    exact .refl _ _
    refine .ite _ ?_ ?_
    assumption
    refine .step (reviewHw_frame ..) (by decide) ?_
    refine .forAll (fun _ _ _ => ?_) _ ?_
    refine .step (coverFaulted_frame ..) (by decide) ?_
    assumption
    refine .step (saveSafety_frame ..) (by decide) ?_
    refine .step (lockoutLog_frame ..) (by decide) ?_
    refine .step (irq_frame ..) (by decide) ?_
    assumption

theorem openNow_frame (n : Fin 16) (b : Block) :
    Block.Only [.hic, .lsw, .saf, .safX] b (openNow n b) := by
  unfold openNow
  with_reducible
    refine .step (dykeClear_frame ..) (by decide) ?_
    refine .step (updNode_frame ..) (by decide) ?_
    exact .refl _ _

theorem reasonUnderLoad_frame (n : Fin 16) (r : EndReason) (b : Block) :
    Block.Only [.sess] b (reasonUnderLoad n r b) := by
  unfold reasonUnderLoad
  with_reducible
    try lift_lets
    intro xx
    clear_value xx
    try lift_lets
    intro xx
    clear_value xx
    try lift_lets
    intro xx
    clear_value xx
    refine .onlyIf _ (fun _ _ => ?_) ?_
    refine .step (updSess_frame ..) (by decide) ?_
    assumption
    exact .refl _ _

theorem openStop_frame (r : EndReason) (n : Fin 16) (b : Block) :
    Block.Only [.arb, .bri, .btn, .cwy, .cwyX, .dmp, .hic, .imd, .imdG, .key, .lau, .legal, .lsw, .pea, .plc, .plcCfg, .qmg, .saf, .safX, .sess, .slt, .veh] b (openStop r n b) := by
  unfold openStop
  with_reducible
    refine .step (reasonUnderLoad_frame ..) (by decide) ?_
    refine .step (stopSession_frame ..) (by decide) ?_
    refine .step (openNow_frame ..) (by decide) ?_
    exact .refl _ _

theorem rampedOpen_frame (n : Fin 16) (b : Block) :
    Block.Only [.arb, .bri, .btn, .cwy, .cwyX, .dmp, .hic, .imd, .imdG, .key, .lau, .legal, .lsw, .pea, .plc, .plcCfg, .qmg, .saf, .safX, .sess, .slt, .veh] b (rampedOpen n b) := by
  unfold rampedOpen
  with_reducible
    try lift_lets
    intro xx
    clear_value xx
    try lift_lets
    intro xx
    clear_value xx
    try lift_lets
    intro xx
    refine Block.Only.viaVar xx ?_ (fun _ => ?_) <;> [simp only [xx]; clear_value xx]
    refine .step (dykeClear_frame ..) (by decide) ?_
    refine .step (updNode_frame ..) (by decide) ?_
    exact .refl _ _
    refine .step (stopDone_frame ..) (by decide) ?_
    split
    refine .step (setLock_frame ..) (by decide) ?_
    split
    refine .step (reasonUnderLoad_frame ..) (by decide) ?_
    assumption
    assumption
    split
    refine .step (reasonUnderLoad_frame ..) (by decide) ?_
    assumption
    assumption

theorem rampNode_frame (n : Fin 16) (r : EndReason) (b : Block) :
    Block.Only [.arb, .bri, .btn, .cwy, .cwyX, .dmp, .hic, .imd, .imdG, .key, .lau, .legal, .lsw, .pea, .plc, .plcCfg, .qmg, .saf, .safX, .sess, .slt, .veh] b (rampNode n r b) := by
  unfold rampNode
  with_reducible
    try lift_lets
    intro xx
    refine Block.Only.viaVar xx ?_ (fun _ => ?_) <;> [simp only [xx]; clear_value xx]
    refine .step (stopSession_frame ..) (by decide) ?_
    exact .refl _ _
    refine .ite _ ?_ ?_
    refine .step (updNode_frame ..) (by decide) ?_
    assumption
    refine .step (rampedOpen_frame ..) (by decide) ?_
    assumption

theorem laneZero_frame (l : Fin 8) (b : Block) :
    Block.Only [.mlk] b (laneZero l b) := by
  unfold laneZero
  with_reducible
    try lift_lets
    intro xx
    clear_value xx
    refine .set_mlk ?_ _ (by decide)
    exact .refl _ _

theorem hubSafeStop_frame (r : EndReason) (b : Block) :
    Block.Only [.arb, .bri, .btn, .cwy, .cwyX, .dmp, .hic, .imd, .imdG, .key, .lau, .legal, .lsw, .mlk, .pea, .plc, .plcCfg, .qmg, .saf, .safX, .sess, .slt, .veh] b (hubSafeStop r b) := by
  unfold hubSafeStop
  with_reducible
    try lift_lets
    intro xx
    refine Block.Only.viaVar xx ?_ (fun _ => ?_) <;> [simp only [xx]; clear_value xx]
    refine .step (irq_frame ..) (by decide) ?_
    refine .step (updSaf_frame ..) (by decide) ?_
    exact .refl _ _
    refine .set_mlk ?_ _ (by decide)
    refine .forAll (fun _ _ _ => ?_) _ ?_
    refine .step (reasonUnderLoad_frame ..) (by decide) ?_
    assumption
    refine .step (stopAll_frame ..) (by decide) ?_
    refine .forAll (fun _ _ _ => ?_) _ ?_
    refine .step (openNow_frame ..) (by decide) ?_
    assumption
    assumption

theorem recordFault_frame (f : FaultSpec) (s : CScope) (applied : Nat) (b : Block) :
    Block.Only [.saf, .safX] b (recordFault f s applied b) := by
  unfold recordFault
  with_reducible
    try lift_lets
    intro xx
    clear_value xx
    refine .step (updSafX_frame ..) (by decide) ?_
    refine .step (updSaf_frame ..) (by decide) ?_
    exact .refl _ _

theorem applyNode_frame (mode : OpenMode) (r : EndReason) (n : Fin 16) (b : Block) :
    Block.Only [.arb, .bri, .btn, .cwy, .cwyX, .dmp, .hic, .imd, .imdG, .key, .lau, .legal, .lsw, .pea, .plc, .plcCfg, .qmg, .saf, .safX, .sess, .slt, .veh] b (applyNode mode r n b) := by
  unfold applyNode
  with_reducible
    split
    refine .step (openStop_frame ..) (by decide) ?_
    exact .refl _ _
    refine .step (rampNode_frame ..) (by decide) ?_
    exact .refl _ _
    refine .step (openStop_frame ..) (by decide) ?_
    exact .refl _ _
    refine .step (openNow_frame ..) (by decide) ?_
    exact .refl _ _

theorem applyOwn_frame (f : FaultSpec) (b : Block) :
    Block.Only [.arb, .bri, .btn, .cwy, .cwyX, .dmp, .hic, .imd, .imdG, .key, .lau, .legal, .lsw, .mlk, .pea, .plc, .plcCfg, .qmg, .saf, .safX, .sess, .slt, .veh] b (applyOwn f b) := by
  unfold applyOwn
  with_reducible
    try lift_lets
    intro xx
    refine Block.Only.viaVar xx ?_ (fun _ => ?_) <;> [simp only [xx]; clear_value xx]
    split
    refine .step (laneZero_frame ..) (by decide) ?_
    exact .refl _ _
    exact .refl _ _
    split
    refine .onlyIf _ (fun _ _ => ?_) ?_
    refine .step (setLock_frame ..) (by decide) ?_
    assumption
    refine .step (hubSafeStop_frame ..) (by decide) ?_
    exact .refl _ _
    split
    refine .ite _ ?_ ?_
    refine .step (rampNode_frame ..) (by decide) ?_
    refine .step (updNode_frame ..) (by decide) ?_
    assumption
    refine .step (setLock_frame ..) (by decide) ?_
    refine .step (rampNode_frame ..) (by decide) ?_
    assumption
    refine .onlyIf _ (fun _ _ => ?_) ?_
    refine .step (setLock_frame ..) (by decide) ?_
    assumption
    refine .forAll (fun _ _ _ => ?_) _ ?_
    refine .step (applyNode_frame ..) (by decide) ?_
    assumption
    assumption

theorem applyLane_frame (l : Fin 8) (r : EndReason) (lock : Bool) (cause : U8) (b : Block) :
    Block.Only [.arb, .bri, .btn, .cwy, .cwyX, .dmp, .hic, .imd, .imdG, .key, .lau, .legal, .lsw, .mlk, .pea, .plc, .plcCfg, .qmg, .saf, .safX, .sess, .slt, .veh] b (applyLane l r lock cause b) := by
  unfold applyLane
  with_reducible
    try lift_lets
    intro xx
    refine Block.Only.viaVar xx ?_ (fun _ => ?_) <;> [simp only [xx]; clear_value xx]
    refine .step (laneZero_frame ..) (by decide) ?_
    exact .refl _ _
    refine .onlyIf _ (fun _ _ => ?_) ?_
    refine .step (setLock_frame ..) (by decide) ?_
    assumption
    refine .forAll (fun _ _ _ => ?_) _ ?_
    refine .ite _ ?_ ?_
    refine .step (rampNode_frame ..) (by decide) ?_
    assumption
    refine .step (stopSession_frame ..) (by decide) ?_
    assumption
    assumption

theorem applyHub_frame (hubStop : Bool) (r : EndReason) (lock : Bool) (cause : U8) (b : Block) :
    Block.Only [.arb, .bri, .btn, .cwy, .cwyX, .dmp, .hic, .imd, .imdG, .key, .lau, .legal, .lsw, .mlk, .pea, .plc, .plcCfg, .qmg, .saf, .safX, .sess, .slt, .veh] b (applyHub hubStop r lock cause b) := by
  unfold applyHub
  with_reducible
    try lift_lets
    intro xx
    refine Block.Only.viaVar xx ?_ (fun _ => ?_) <;> [simp only [xx]; clear_value xx]
    refine .ite _ ?_ ?_
    refine .step (hubSafeStop_frame ..) (by decide) ?_
    exact .refl _ _
    refine .forAll (fun _ _ _ => ?_) _ ?_
    refine .step (rampNode_frame ..) (by decide) ?_
    assumption
    exact .refl _ _
    refine .onlyIf _ (fun _ _ => ?_) ?_
    refine .step (setLock_frame ..) (by decide) ?_
    assumption
    assumption

theorem openWindow_frame (cause : U8) (s : CScope) (level : Nat) (b : Block) :
    Block.Only [.saf] b (openWindow cause s level b) := by
  unfold openWindow
  with_reducible
    refine .step (updSaf_frame ..) (by decide) ?_
    exact .refl _ _

theorem countFault_frame (f : FaultSpec) (b : Block) :
    Block.Only [.saf] b (countFault f b) := by
  unfold countFault
  with_reducible
    refine .step (updSaf_frame ..) (by decide) ?_
    exact .refl _ _

theorem applyWidened_frame (k : Nat) (hubStop : Bool) (cause : U8) (b : Block) :
    Block.Only [.arb, .bri, .btn, .cwy, .cwyX, .dmp, .hic, .imd, .imdG, .key, .lau, .legal, .lsw, .mlk, .pea, .plc, .plcCfg, .qmg, .saf, .safX, .sess, .slt, .veh] b (applyWidened k hubStop cause b) := by
  unfold applyWidened
  with_reducible
    try lift_lets
    intro xx
    clear_value xx
    try lift_lets
    intro xx
    clear_value xx
    try lift_lets
    intro xx
    refine Block.Only.viaVar xx ?_ (fun _ => ?_) <;> [simp only [xx]; clear_value xx]
    refine .step (irq_frame ..) (by decide) ?_
    exact .refl _ _
    refine .ite _ ?_ ?_
    refine .forAll (fun _ _ _ => ?_) _ ?_
    split
    refine .step (openWindow_frame ..) (by decide) ?_
    refine .step (applyLane_frame ..) (by decide) ?_
    assumption
    assumption
    refine .step (updSaf_frame ..) (by decide) ?_
    assumption
    refine .step (openWindow_frame ..) (by decide) ?_
    refine .step (applyHub_frame ..) (by decide) ?_
    refine .step (updSaf_frame ..) (by decide) ?_
    assumption

theorem containAs_frame (soft : Bool) (f : FaultSpec) (b : Block) :
    Block.Only [.arb, .bri, .btn, .cwy, .cwyX, .dmp, .hic, .imd, .imdG, .key, .lau, .legal, .lsw, .mlk, .pea, .plc, .plcCfg, .qmg, .saf, .safX, .sess, .slt, .veh] b (containAs soft f b) := by
  unfold containAs
  with_reducible
    try lift_lets
    intro xx
    refine Block.Only.viaVar xx ?_ (fun _ => ?_) <;> [simp only [xx]; clear_value xx]
    refine .step (countFault_frame ..) (by decide) ?_
    exact .refl _ _
    refine .ite _ ?_ ?_
    refine .step (applyOwn_frame ..) (by decide) ?_
    refine .step (recordFault_frame ..) (by decide) ?_
    exact .refl _ _
    refine .ite _ ?_ ?_
    refine .step (openWindow_frame ..) (by decide) ?_
    refine .step (recordFault_frame ..) (by decide) ?_
    refine .step (applyOwn_frame ..) (by decide) ?_
    assumption
    refine .ite _ ?_ ?_
    refine .step (applyWidened_frame ..) (by decide) ?_
    refine .step (recordFault_frame ..) (by decide) ?_
    refine .step (applyOwn_frame ..) (by decide) ?_
    assumption
    refine .step (applyWidened_frame ..) (by decide) ?_
    refine .step (updSaf_frame ..) (by decide) ?_
    refine .step (recordFault_frame ..) (by decide) ?_
    refine .step (applyOwn_frame ..) (by decide) ?_
    assumption

theorem contain_frame (f : FaultSpec) (b : Block) :
    Block.Only [.arb, .bri, .btn, .cwy, .cwyX, .dmp, .hic, .imd, .imdG, .key, .lau, .legal, .lsw, .mlk, .pea, .plc, .plcCfg, .qmg, .saf, .safX, .sess, .slt, .veh] b (contain f b) := by
  unfold contain
  with_reducible
    refine .step (containAs_frame ..) (by decide) ?_
    exact .refl _ _

theorem deviceFault_frame (s : CScope) (base : Nat) (b : Block) :
    Block.Only [.arb, .bri, .btn, .cwy, .cwyX, .dmp, .hic, .imd, .imdG, .key, .lau, .legal, .lsw, .mlk, .pea, .plc, .plcCfg, .qmg, .saf, .safX, .sess, .slt, .veh] b (deviceFault s base b) := by
  unfold deviceFault
  with_reducible
    refine .step (contain_frame ..) (by decide) ?_
    exact .refl _ _

theorem softFault_frame (s : CScope) (base : Nat) (b : Block) :
    Block.Only [.arb, .bri, .btn, .cwy, .cwyX, .dmp, .hic, .imd, .imdG, .key, .lau, .legal, .lsw, .mlk, .pea, .plc, .plcCfg, .qmg, .saf, .safX, .sess, .slt, .veh] b (softFault s base b) := by
  unfold softFault
  with_reducible
    refine .step (containAs_frame ..) (by decide) ?_
    exact .refl _ _

theorem freeLanes_frame (b : Block) :
    Block.Only [.mlk] b (freeLanes b) := by
  unfold freeLanes
  with_reducible
    try lift_lets
    intro xx
    clear_value xx
    refine .set_mlk ?_ _ (by decide)
    exact .refl _ _

theorem endEpisode_frame (b : Block) :
    Block.Only [.mlk, .saf] b (endEpisode b) := by
  unfold endEpisode
  with_reducible
    refine .ite _ ?_ ?_
    refine .step (freeLanes_frame ..) (by decide) ?_
    refine .step (updSaf_frame ..) (by decide) ?_
    exact .refl _ _
    exact .refl _ _

theorem reviewHub_frame (b : Block) :
    Block.Only [.hic, .lsw, .mlk, .saf, .safX] b (reviewHub b) := by
  unfold reviewHub
  with_reducible
    refine .step (endEpisode_frame ..) (by decide) ?_
    refine .ite _ ?_ ?_
    refine .step (reviewHw_frame ..) (by decide) ?_
    refine .step (updSaf_frame ..) (by decide) ?_
    exact .refl _ _
    exact .refl _ _

end Sys2Proof.Machine
end

