-- ==== Sys2Proof/Laws/FrameMetrology.lean ====
section
/-! SUPPORT. Frames of the operations of Machine/Metrology.lean: the units each of them may change. -/

namespace Sys2Proof.Machine

theorem updChan_frame (c : Fin 48) (f : Chan → Chan) (b : Block) :
    Block.Only [.met] b (updChan c f b) := by
  unfold updChan
  with_reducible
    try lift_lets
    intro xx
    clear_value xx
    refine .set_met ?_ _ (by decide)
    exact .refl _ _

theorem updMet_frame (f : Metrology → Metrology) (b : Block) :
    Block.Only [.met] b (updMet f b) := by
  unfold updMet
  with_reducible
    refine .set_met ?_ _ (by decide)
    exact .refl _ _

theorem updPair_frame (p : Fin 22) (f : Pair → Pair) (b : Block) :
    Block.Only [.acc] b (updPair p f b) := by
  unfold updPair
  with_reducible
    try lift_lets
    intro xx
    clear_value xx
    refine .set_acc ?_ _ (by decide)
    exact .refl _ _

theorem unsettle_frame (c : Fin 48) (b : Block) :
    Block.Only [.met] b (unsettle c b) := by
  unfold unsettle
  with_reducible
    try lift_lets
    intro xx
    refine Block.Only.viaVar xx ?_ (fun _ => ?_) <;> [simp only [xx]; clear_value xx]
    refine .step (updChan_frame ..) (by decide) ?_
    exact .refl _ _
    refine .ite _ ?_ ?_
    refine .step (updChan_frame ..) (by decide) ?_
    assumption
    assumption

theorem applyChanges_frame (t : U64) (c : Fin 48) (b : Block) :
    Block.Only [.acc, .met] b (applyChanges t c b) := by
  unfold applyChanges
  with_reducible
    try lift_lets
    intro xx
    clear_value xx
    try lift_lets
    intro xx
    refine Block.Only.viaVar xx ?_ (fun _ => ?_) <;> [simp only [xx]; clear_value xx]
    split
    refine .ite _ ?_ ?_
    refine .ite _ ?_ ?_
    refine .step (updPair_frame ..) (by decide) ?_
    refine .step (unsettle_frame ..) (by decide) ?_
    refine .step (updChan_frame ..) (by decide) ?_
    exact .refl _ _
    refine .step (unsettle_frame ..) (by decide) ?_
    refine .step (updChan_frame ..) (by decide) ?_
    exact .refl _ _
    exact .refl _ _
    exact .refl _ _
    split
    refine .ite _ ?_ ?_
    refine .step (updChan_frame ..) (by decide) ?_
    assumption
    assumption
    assumption

theorem applyPair_frame (t : U64) (p : Fin 22) (b : Block) :
    Block.Only [.acc] b (applyPair t p b) := by
  unfold applyPair
  with_reducible
    refine .step (updPair_frame ..) (by decide) ?_
    exact .refl _ _

theorem applyPq_frame (t : U64) (f : Fin 2) (b : Block) :
    Block.Only [.pq] b (applyPq t f b) := by
  unfold applyPq
  with_reducible
    try lift_lets
    intro xx
    clear_value xx
    refine .set_pq ?_ _ (by decide)
    exact .refl _ _

theorem sampleNow_frame (codes : Vector (BitVec 24) 48) (b : Block) :
    Block.Only [.acc, .hic, .met, .pq, .rpl] b (sampleNow codes b) := by
  unfold sampleNow
  with_reducible
    try lift_lets
    intro xx
    clear_value xx
    try lift_lets
    intro xx
    refine Block.Only.viaVar xx ?_ (fun _ => ?_) <;> [simp only [xx]; clear_value xx]
    refine .forAll (fun _ _ _ => ?_) _ ?_
    refine .step (applyPq_frame ..) (by decide) ?_
    assumption
    exact .refl _ _
    refine .onlyIf _ (fun _ _ => ?_) ?_
    refine .step (irq_frame ..) (by decide) ?_
    assumption
    refine .step (traceItem_frame ..) (by decide) ?_
    refine .set_acc ?_ _ (by decide)
    refine .step (updMet_frame ..) (by decide) ?_
    refine .forAll (fun _ _ _ => ?_) _ ?_
    refine .step (applyPair_frame ..) (by decide) ?_
    assumption
    refine .forAll (fun _ _ _ => ?_) _ ?_
    refine .step (applyChanges_frame ..) (by decide) ?_
    assumption
    assumption

theorem sampleInstant_frame (codes : Vector (BitVec 24) 48) (b : Block) :
    Block.Only [.acc, .hic, .met, .pq, .prior, .rpl, .tide] b (sampleInstant codes b) := by
  unfold sampleInstant
  with_reducible
    refine .ite _ ?_ ?_
    refine .atInstant (by decide) (by decide) (fun _ _ => ?_) ?_
    refine .step (sampleNow_frame ..) (by decide) ?_
    assumption
    exact .refl _ _
    exact .refl _ _

theorem pairStep_frame (t : U64) (p : Fin 22) (b : Block) :
    Block.Only [.acc, .hic, .met] b (pairStep t p b) := by
  unfold pairStep
  with_reducible
    try lift_lets
    intro xx
    clear_value xx
    try lift_lets
    intro xx
    clear_value xx
    try lift_lets
    intro xx
    clear_value xx
    try lift_lets
    intro xx
    clear_value xx
    try lift_lets
    intro xx
    clear_value xx
    try lift_lets
    intro xx
    clear_value xx
    try lift_lets
    intro xx
    clear_value xx
    try lift_lets
    intro xx
    clear_value xx
    try lift_lets
    intro xx
    clear_value xx
    try lift_lets
    intro xx
    clear_value xx
    try lift_lets
    intro xx
    clear_value xx
    try lift_lets
    intro xx
    clear_value xx
    try lift_lets
    intro xx
    refine Block.Only.viaVar xx ?_ (fun _ => ?_) <;> [simp only [xx]; clear_value xx]
    refine .step (updPair_frame ..) (by decide) ?_
    exact .refl _ _
    refine .onlyIf _ (fun _ _ => ?_) ?_
    refine .step (irq_frame ..) (by decide) ?_
    assumption
    refine .onlyIf _ (fun _ _ => ?_) ?_
    refine .step (irq_frame ..) (by decide) ?_
    assumption
    refine .step (updChan_frame ..) (by decide) ?_
    assumption

theorem updPhase_frame (k : Fin 6) (f : PqPhase → PqPhase) (b : Block) :
    Block.Only [.pq] b (updPhase k f b) := by
  unfold updPhase
  with_reducible
    try lift_lets
    intro xx
    clear_value xx
    refine .set_pq ?_ _ (by decide)
    exact .refl _ _

theorem zeroCross_frame (t : U64) (k : Fin 6) (b : Block) :
    Block.Only [.pq, .tide] b (zeroCross t k b) := by
  unfold zeroCross
  with_reducible
    try lift_lets
    intro xx
    clear_value xx
    try lift_lets
    intro xx
    clear_value xx
    try lift_lets
    intro xx
    clear_value xx
    try lift_lets
    intro xx
    clear_value xx
    try lift_lets
    intro xx
    clear_value xx
    try lift_lets
    intro xx
    refine Block.Only.viaVar xx ?_ (fun _ => ?_) <;> [simp only [xx]; clear_value xx]
    refine .step (updPhase_frame ..) (by decide) ?_
    exact .refl _ _
    refine .ite _ ?_ ?_
    refine .step (updPhase_frame ..) (by decide) ?_
    exact .refl _ _
    refine .ite _ ?_ ?_
    refine .step (updPhase_frame ..) (by decide) ?_
    refine .set_tide ?_ _ (by decide)
    assumption
    assumption

theorem updFeeder_frame (f : Fin 2) (g : PqFeeder → PqFeeder) (b : Block) :
    Block.Only [.pq] b (updFeeder f g b) := by
  unfold updFeeder
  with_reducible
    try lift_lets
    intro xx
    clear_value xx
    refine .set_pq ?_ _ (by decide)
    exact .refl _ _

theorem pqClose_frame (f : Fin 2) (k : PqKind) (end_ : U64) (flags : Nat) (b : Block) :
    Block.Only [.arb, .btn, .cwy, .cwyX, .dmp, .hic, .lau, .pea, .pq, .qmg] b (pqClose f k end_ flags b) := by
  unfold pqClose
  with_reducible
    try lift_lets
    intro xx
    clear_value xx
    split
    exact .refl _ _
    try lift_lets
    intro xx
    clear_value xx
    try lift_lets
    intro xx
    refine Block.Only.viaVar xx ?_ (fun _ => ?_) <;> [simp only [xx]; clear_value xx]
    refine .step (updFeeder_frame ..) (by decide) ?_
    exact .refl _ _
    refine .step (sendTo_frame ..) (by decide) ?_
    refine .step (opLogAs_frame ..) (by decide) ?_
    refine .step (irq_frame ..) (by decide) ?_
    refine .set_pq ?_ _ (by decide)
    assumption

theorem pqDropLast_frame (f : Fin 2) (k : PqKind) (b : Block) :
    Block.Only [.pq] b (pqDropLast f k b) := by
  unfold pqDropLast
  with_reducible
    refine .step (updFeeder_frame ..) (by decide) ?_
    exact .refl _ _

theorem pqTruncate_frame (f : Fin 2) (flags : Nat) (b : Block) :
    Block.Only [.arb, .btn, .cwy, .cwyX, .dmp, .hic, .lau, .pea, .pq, .qmg] b (pqTruncate f flags b) := by
  unfold pqTruncate
  with_reducible
    refine .forAll (fun _ _ _ => ?_) _ ?_
    refine .step (pqClose_frame ..) (by decide) ?_
    refine .step (pqDropLast_frame ..) (by decide) ?_
    assumption
    exact .refl _ _

theorem pqKindStep_frame (f : Fin 2) (synthetic : Bool) (k : PqKind) (b : Block) :
    Block.Only [.arb, .btn, .cwy, .cwyX, .dmp, .hic, .lau, .pea, .pq, .qmg] b (pqKindStep f synthetic k b) := by
  unfold pqKindStep
  with_reducible
    try lift_lets
    intro xx
    clear_value xx
    try lift_lets
    intro xx
    clear_value xx
    split
    try lift_lets
    intro xx
    clear_value xx
    split
    refine .step (pqClose_frame ..) (by decide) ?_
    exact .refl _ _
    refine .step (updFeeder_frame ..) (by decide) ?_
    exact .refl _ _
    split
    exact .refl _ _
    refine .step (irq_frame ..) (by decide) ?_
    refine .step (updFeeder_frame ..) (by decide) ?_
    exact .refl _ _

theorem pqDecide_frame (f : Fin 2) (b : Block) :
    Block.Only [.arb, .btn, .cwy, .cwyX, .dmp, .hic, .lau, .pea, .pq, .qmg] b (pqDecide f b) := by
  unfold pqDecide
  with_reducible
    try lift_lets
    intro xx
    clear_value xx
    try lift_lets
    intro xx
    clear_value xx
    try lift_lets
    intro xx
    refine Block.Only.viaVar xx ?_ (fun _ => ?_) <;> [simp only [xx]; clear_value xx]
    refine .forAll (fun _ _ _ => ?_) _ ?_
    refine .step (pqKindStep_frame ..) (by decide) ?_
    assumption
    exact .refl _ _
    refine .step (updFeeder_frame ..) (by decide) ?_
    assumption

theorem pqTake_frame (g : Nat) (k : Fin 6) (b : Block) :
    Block.Only [.pq] b (pqTake g k b) := by
  unfold pqTake
  with_reducible
    refine .step (updPhase_frame ..) (by decide) ?_
    exact .refl _ _

theorem pqAdvance_frame (f : Fin 2) (y0 : Nat) (y1 : Block) :
    Block.Only [.arb, .btn, .cwy, .cwyX, .dmp, .hic, .lau, .pea, .pq, .qmg] y1 (pqAdvance f y0 y1) := by
  fun_induction pqAdvance f y0 y1
  with_reducible
    exact .refl _ _
    exact .refl _ _
    refine .trans ?_ (by assumption)
    refine .step (pqDecide_frame ..) (by decide) ?_
    refine .forAll (fun _ _ _ => ?_) _ ?_
    refine .step (pqTake_frame ..) (by decide) ?_
    assumption
    refine .step (updFeeder_frame ..) (by decide) ?_
    exact .refl _ _
    exact .refl _ _

theorem urmsRefresh_frame (k : Fin 6) (e : PqDue) (b : Block) :
    Block.Only [.arb, .btn, .cwy, .cwyX, .dmp, .hic, .lau, .pea, .pq, .qmg] b (urmsRefresh k e b) := by
  unfold urmsRefresh
  with_reducible
    try lift_lets
    intro xx
    clear_value xx
    split
    exact .refl _ _
    refine .step (pqAdvance_frame ..) (by decide) ?_
    refine .step (updPhase_frame ..) (by decide) ?_
    exact .refl _ _

theorem urmsStep_frame (t : U64) (k : Fin 6) (b : Block) :
    Block.Only [.arb, .btn, .cwy, .cwyX, .dmp, .hic, .lau, .pea, .pq, .qmg] b (urmsStep t k b) := by
  unfold urmsStep
  with_reducible
    try lift_lets
    intro xx
    clear_value xx
    try lift_lets
    intro xx
    clear_value xx
    try lift_lets
    intro xx
    clear_value xx
    try lift_lets
    intro xx
    clear_value xx
    try lift_lets
    intro xx
    clear_value xx
    try lift_lets
    intro xx
    clear_value xx
    try lift_lets
    intro xx
    refine Block.Only.viaVar xx ?_ (fun _ => ?_) <;> [simp only [xx]; clear_value xx]
    refine .step (updPhase_frame ..) (by decide) ?_
    exact .refl _ _
    refine .ite _ ?_ ?_
    exact .refl _ _
    refine .forAll (fun _ _ _ => ?_) _ ?_
    refine .step (urmsRefresh_frame ..) (by decide) ?_
    assumption
    assumption

theorem zcSyncLost_frame (k : Fin 6) (b : Block) :
    Block.Only [.pq, .prior, .tide] b (zcSyncLost k b) := by
  unfold zcSyncLost
  with_reducible
    try lift_lets
    intro xx
    clear_value xx
    try lift_lets
    intro (xx : _ → _)
    refine .ite _ ?_ ?_
    exact .refl _ _
    refine .ite _ ?_ ?_
    refine .afterTicks (by decide) (by decide) (fun _ _ => ?_) ?_
    refine .step (updPhase_frame ..) (by decide) ?_
    assumption
    exact .refl _ _
    refine .step (updPhase_frame ..) (by decide) ?_
    exact .refl _ _

theorem calStep_frame (t : U64) (b : Block) :
    Block.Only [.mbx, .met, .rpl] b (calStep t b) := by
  unfold calStep
  with_reducible
    try lift_lets
    intro (xx : _ → _)
    split
    exact .refl _ _
    try lift_lets
    intro xx
    clear_value xx
    try lift_lets
    intro xx
    clear_value xx
    try lift_lets
    intro xx
    clear_value xx
    refine .ite _ ?_ ?_
    exact .refl _ _
    refine .ite _ ?_ ?_
    refine .step (refuse_frame ..) (by decide) ?_
    refine .step (updMet_frame ..) (by decide) ?_
    exact .refl _ _
    refine .ite _ ?_ ?_
    refine .step (ok_frame ..) (by decide) ?_
    refine .step (updMet_frame ..) (by decide) ?_
    exact .refl _ _
    refine .step (updMet_frame ..) (by decide) ?_
    exact .refl _ _

theorem voltRuns_frame (n : Fin 16) (b : Block) :
    Block.Only [.imd, .sess] b (voltRuns n b) := by
  unfold voltRuns
  with_reducible
    try lift_lets
    intro xx
    clear_value xx
    try lift_lets
    intro xx
    clear_value xx
    try lift_lets
    intro xx
    refine Block.Only.viaVar xx ?_ (fun _ => ?_) <;> [simp only [xx]; clear_value xx]
    refine .ite _ ?_ ?_
    refine .step (updImd_frame ..) (by decide) ?_
    exact .refl _ _
    exact .refl _ _
    refine .ite _ ?_ ?_
    refine .step (updSess_frame ..) (by decide) ?_
    assumption
    assumption

theorem rcmAdd_frame (f : Fin 2) (b : Block) :
    Block.Only [.rcm] b (rcmAdd f b) := by
  unfold rcmAdd
  with_reducible
    try lift_lets
    intro xx
    clear_value xx
    try lift_lets
    intro xx
    clear_value xx
    refine .set_rcm ?_ _ (by decide)
    exact .refl _ _

theorem publishNow_frame (t : U64) (b : Block) :
    Block.Only [.acc, .arb, .btn, .cwy, .cwyX, .dmp, .hic, .imd, .lau, .mbx, .met, .pea, .pq, .qmg, .rcm, .rpl, .sess, .tide] b (publishNow t b) := by
  unfold publishNow
  with_reducible
    try lift_lets
    intro xx
    clear_value xx
    try lift_lets
    intro xx
    refine Block.Only.viaVar xx ?_ (fun _ => ?_) <;> [simp only [xx]; clear_value xx]
    refine .step (updMet_frame ..) (by decide) ?_
    exact .refl _ _
    refine .step (calStep_frame ..) (by decide) ?_
    refine .set_acc ?_ _ (by decide)
    refine .forAll (fun _ _ _ => ?_) _ ?_
    refine .step (rcmAdd_frame ..) (by decide) ?_
    assumption
    refine .forAll (fun _ _ _ => ?_) _ ?_
    refine .step (voltRuns_frame ..) (by decide) ?_
    assumption
    refine .forAll (fun _ _ _ => ?_) _ ?_
    refine .step (urmsStep_frame ..) (by decide) ?_
    refine .step (zeroCross_frame ..) (by decide) ?_
    assumption
    refine .onlyIf _ (fun _ _ => ?_) ?_
    refine .step (irq_frame ..) (by decide) ?_
    assumption
    refine .forAll (fun _ _ _ => ?_) _ ?_
    refine .step (pairStep_frame ..) (by decide) ?_
    assumption
    assumption

theorem metrologyPublish_frame (b : Block) :
    Block.Only [.acc, .arb, .btn, .cwy, .cwyX, .dmp, .hic, .imd, .lau, .mbx, .met, .pea, .pq, .prior, .qmg, .rcm, .rpl, .sess, .tide] b (metrologyPublish b) := by
  unfold metrologyPublish
  with_reducible
    split
    exact .refl _ _
    refine .afterTicks (by decide) (by decide) (fun _ _ => ?_) ?_
    refine .step (publishNow_frame ..) (by decide) ?_
    assumption
    exact .refl _ _

theorem channelSettled_frame (c : Fin 48) (b : Block) :
    Block.Only [.acc, .hic, .met] b (channelSettled c b) := by
  unfold channelSettled
  with_reducible
    try lift_lets
    intro xx
    clear_value xx
    try lift_lets
    intro xx
    refine Block.Only.viaVar xx ?_ (fun _ => ?_) <;> [simp only [xx]; clear_value xx]
    refine .step (updChan_frame ..) (by decide) ?_
    exact .refl _ _
    refine .ite _ ?_ ?_
    exact .refl _ _
    refine .ite _ ?_ ?_
    refine .onlyIf _ (fun _ _ => ?_) ?_
    refine .step (irq_frame ..) (by decide) ?_
    assumption
    refine .step (updPair_frame ..) (by decide) ?_
    assumption
    assumption

theorem ownMagnitude_frame (c : Fin 48) (b : Block) :
    Block.Only [.met] b (ownMagnitude c b) := by
  unfold ownMagnitude
  with_reducible
    refine .step (updChan_frame ..) (by decide) ?_
    exact .refl _ _

theorem takeSegment_frame (c : Fin 48) (b : Block) :
    Block.Only [.met] b (takeSegment c b) := by
  unfold takeSegment
  with_reducible
    try lift_lets
    intro xx
    clear_value xx
    refine .step (updChan_frame ..) (by decide) ?_
    exact .refl _ _

theorem pairBlock_frame (p : Fin 22) (b : Block) :
    Block.Only [.acc, .hic, .met] b (pairBlock p b) := by
  unfold pairBlock
  with_reducible
    try lift_lets
    intro xx
    clear_value xx
    try lift_lets
    intro xx
    clear_value xx
    try lift_lets
    intro xx
    clear_value xx
    try lift_lets
    intro xx
    clear_value xx
    try lift_lets
    intro xx
    clear_value xx
    try lift_lets
    intro xx
    clear_value xx
    refine .onlyIf _ (fun _ _ => ?_) ?_
    refine .step (irq_frame ..) (by decide) ?_
    assumption
    refine .step (updChan_frame ..) (by decide) ?_
    refine .step (updPair_frame ..) (by decide) ?_
    exact .refl _ _

theorem segmentBlockEnd_frame (ac : Bool) (b : Block) :
    Block.Only [.acc, .hic, .met] b (segmentBlockEnd ac b) := by
  unfold segmentBlockEnd
  with_reducible
    try lift_lets
    intro xx
    clear_value xx
    try lift_lets
    intro xx
    clear_value xx
    try lift_lets
    intro xx
    clear_value xx
    try lift_lets
    intro xx
    clear_value xx
    try lift_lets
    intro xx
    refine Block.Only.viaVar xx ?_ (fun _ => ?_) <;> [simp only [xx]; clear_value xx]
    refine .forAll (fun _ _ _ => ?_) _ ?_
    refine .step (pairBlock_frame ..) (by decide) ?_
    assumption
    refine .forAll (fun _ _ _ => ?_) _ ?_
    refine .step (takeSegment_frame ..) (by decide) ?_
    assumption
    refine .forAll (fun _ _ _ => ?_) _ ?_
    refine .step (ownMagnitude_frame ..) (by decide) ?_
    assumption
    exact .refl _ _
    refine .ite _ ?_ ?_
    exact .refl _ _
    refine .onlyIf _ (fun _ _ => ?_) ?_
    refine .step (irq_frame ..) (by decide) ?_
    assumption
    assumption

theorem modulatorFault_frame (c : Fin 48) (b : Block) :
    Block.Only (Part.but [.tide, .snaps, .barrier, .fab, .d2d, .cross, .acc, .slu, .sluCnt, .vehCfg, .v2g, .v2gCfg, .rcm, .rcmTest, .pf, .auth, .backup, .mbx, .hp, .pnl, .frames, .nfc, .rst, .upd, .rpl, .dbg, .settings, .newSettings, .legalSet, .updRec, .kept, .prior]) b (modulatorFault c b) := by
  unfold modulatorFault
  with_reducible
    try lift_lets
    intro xx
    clear_value xx
    try lift_lets
    intro xx
    refine Block.Only.viaVar xx ?_ (fun _ => ?_) <;> [simp only [xx]; clear_value xx]
    refine .step (irq_frame ..) (by decide) ?_
    refine .step (unsettle_frame ..) (by decide) ?_
    refine .step (updChan_frame ..) (by decide) ?_
    exact .refl _ _
    refine .ite _ ?_ ?_
    exact .refl _ _
    split
    refine .onlyIf _ (fun _ _ => ?_) ?_
    refine .step (softFault_frame ..) (by decide) ?_
    assumption
    assumption
    refine .dite _ (fun _ => ?_) (fun _ => ?_)
    refine .step (pqTruncate_frame ..) (by decide) ?_
    assumption
    assumption

theorem modulatorFaultClear_frame (c : Fin 48) (b : Block) :
    Block.Only [.met] b (modulatorFaultClear c b) := by
  unfold modulatorFaultClear
  with_reducible
    refine .ite _ ?_ ?_
    refine .step (unsettle_frame ..) (by decide) ?_
    refine .step (updChan_frame ..) (by decide) ?_
    exact .refl _ _
    exact .refl _ _

end Sys2Proof.Machine
end

