-- ==== Sys2Proof/Laws/FrameEnergy.lean ====
section
/-! SUPPORT. Frames of the operations of Machine/Energy.lean: the units each of them may change. -/

namespace Sys2Proof.Machine

theorem applyNodeEnergy_frame (n : Fin 16) (b : Block) :
    Block.Only [.acc] b (applyNodeEnergy n b) := by
  unfold applyNodeEnergy
  with_reducible
    try lift_lets
    intro xx
    clear_value xx
    try lift_lets
    intro xx
    clear_value xx
    try lift_lets
    intro xx
    clear_value xx
    refine .ite _ ?_ ?_
    refine .set_acc ?_ _ (by decide)
    exact .refl _ _
    refine .ite _ ?_ ?_
    refine .set_acc ?_ _ (by decide)
    exact .refl _ _
    exact .refl _ _

theorem applyFeeder_frame (f : Fin 2) (b : Block) :
    Block.Only [.acc] b (applyFeeder f b) := by
  unfold applyFeeder
  with_reducible
    try lift_lets
    intro xx
    clear_value xx
    try lift_lets
    intro xx
    clear_value xx
    try lift_lets
    intro xx
    clear_value xx
    try lift_lets
    intro xx
    clear_value xx
    refine .set_acc ?_ _ (by decide)
    exact .refl _ _

theorem noteUnproven_frame (old b : Block) :
    Block.Only [.acc, .hic] b (noteUnproven old b) := by
  unfold noteUnproven
  with_reducible
    try lift_lets
    intro xx
    clear_value xx
    try lift_lets
    intro xx
    refine Block.Only.viaVar xx ?_ (fun _ => ?_) <;> [simp only [xx]; clear_value xx]
    refine .set_acc ?_ _ (by decide)
    exact .refl _ _
    refine .onlyIf _ (fun _ _ => ?_) ?_
    refine .step (irq_frame ..) (by decide) ?_
    assumption
    assumption

theorem applySession_frame (T : Nat) (cal : List U8) (n : Fin 16) (b : Block) :
    Block.Only [.acc, .legal, .slt] b (applySession T cal n b) := by
  unfold applySession
  with_reducible
    try lift_lets
    intro xx
    refine Block.Only.viaVar xx ?_ (fun _ => ?_) <;> [simp only [xx]; clear_value xx]
    refine .step (updLegal_frame ..) (by decide) ?_
    exact .refl _ _
    refine .ite _ ?_ ?_
    exact .refl _ _
    refine .ite _ ?_ ?_
    assumption
    refine .set_acc_slt ?_ _ _ (by decide) (by decide)
    refine .step (updLegal_frame ..) (by decide) ?_
    assumption

theorem energyCheck_frame (old new : Block) :
    Block.Only [.arb, .btn, .dmp, .hic] new (energyCheck old new) := by
  unfold energyCheck
  with_reducible
    try lift_lets
    intro xx
    clear_value xx
    refine .ite _ ?_ ?_
    exact .refl _ _
    refine .step (raiseFatal_frame ..) (by decide) ?_
    refine .step (conservationLog_frame ..) (by decide) ?_
    refine .step (irq_frame ..) (by decide) ?_
    exact .refl _ _

theorem latchFrame_frame (B : U64) (b : Block) :
    Block.Only [.acc] b (latchFrame B b) := by
  unfold latchFrame
  with_reducible
    try lift_lets
    intro xx
    clear_value xx
    refine .ite _ ?_ ?_
    exact .refl _ _
    refine .set_acc ?_ _ (by decide)
    exact .refl _ _

theorem attributeFrame_frame (f : AttrFrame) (b : Block) :
    Block.Only [.acc, .legal] b (attributeFrame f b) := by
  unfold attributeFrame
  with_reducible
    try lift_lets
    intro xx
    refine Block.Only.viaVar xx ?_ (fun _ => ?_) <;> [simp only [xx]; clear_value xx]
    refine .forAll (fun _ _ _ => ?_) _ ?_
    refine .ite _ ?_ ?_
    assumption
    refine .step (updLegal_frame ..) (by decide) ?_
    assumption
    exact .refl _ _
    refine .set_acc ?_ _ (by decide)
    assumption

theorem frameStep_frame (t : U64) (b : Block) :
    Block.Only [.acc, .legal] b (frameStep t b) := by
  unfold frameStep
  with_reducible
    try lift_lets
    intro xx
    clear_value xx
    try lift_lets
    intro xx
    clear_value xx
    try lift_lets
    intro xx
    clear_value xx
    try lift_lets
    intro xx
    clear_value xx
    try lift_lets
    intro xx
    clear_value xx
    try lift_lets
    intro xx
    refine Block.Only.viaVar xx ?_ (fun _ => ?_) <;> [simp only [xx]; clear_value xx]
    refine .step (latchFrame_frame ..) (by decide) ?_
    exact .refl _ _
    refine .ite _ ?_ ?_
    refine .step (attributeFrame_frame ..) (by decide) ?_
    exact .refl _ _
    refine .forAll (fun _ _ _ => ?_) _ ?_
    refine .step (attributeFrame_frame ..) (by decide) ?_
    assumption
    refine .set_acc ?_ _ (by decide)
    refine .set_acc ?_ _ (by decide)
    assumption

theorem intervalReadings_frame (x : Closing) (b : Block) :
    Block.Only [.key, .legal, .slt] b (intervalReadings x b) := by
  unfold intervalReadings
  with_reducible
    try lift_lets
    intro xx
    clear_value xx
    try lift_lets
    intro xx
    clear_value xx
    try lift_lets
    intro xx
    refine Block.Only.viaVar xx ?_ (fun _ => ?_) <;> [simp only [xx]; clear_value xx]
    refine .step (takeReading_frame ..) (by decide) ?_
    exact .refl _ _
    refine .forAll (fun _ _ _ => ?_) _ ?_
    refine .ite _ ?_ ?_
    refine .step (updLegal_frame ..) (by decide) ?_
    refine .step (takeReading_frame ..) (by decide) ?_
    assumption
    assumption
    assumption

theorem closeAt_frame (t : U64) (b : Block) :
    Block.Only [.hic, .key, .legal, .slt] b (closeAt t b) := by
  unfold closeAt
  with_reducible
    try lift_lets
    intro xx
    refine Block.Only.viaVar xx ?_ (fun _ => ?_) <;> [simp only [xx]; clear_value xx]
    refine .step (updSlt_frame ..) (by decide) ?_
    exact .refl _ _
    split
    exact .refl _ _
    try lift_lets
    intro xx
    clear_value xx
    try lift_lets
    intro xx
    refine Block.Only.viaVar xx ?_ (fun _ => ?_) <;> [simp only [xx]; clear_value xx]
    refine .ite _ ?_ ?_
    refine .step (irq_frame ..) (by decide) ?_
    refine .step (updSlt_frame ..) (by decide) ?_
    refine .step (intervalReadings_frame ..) (by decide) ?_
    assumption
    assumption
    refine .ite _ ?_ ?_
    exact .refl _ _
    refine .ite _ ?_ ?_
    refine .step (takeReading_frame ..) (by decide) ?_
    refine .ite _ ?_ ?_
    refine .step (takeReading_frame ..) (by decide) ?_
    assumption
    assumption
    refine .ite _ ?_ ?_
    refine .step (takeReading_frame ..) (by decide) ?_
    assumption
    assumption

theorem noteClosing_frame (x : Closing) (b : Block) :
    Block.Only [.slt] b (noteClosing x b) := by
  unfold noteClosing
  with_reducible
    refine .step (updSlt_frame ..) (by decide) ?_
    exact .refl _ _

theorem switchTariff_frame (a : U64) (T : BitVec 4) (b : Block) :
    Block.Only [.hic, .slt] b (switchTariff a T b) := by
  unfold switchTariff
  with_reducible
    try lift_lets
    intro xx
    clear_value xx
    refine .onlyIf _ (fun _ _ => ?_) ?_
    refine .step (irq_frame ..) (by decide) ?_
    assumption
    refine .step (updSlt_frame ..) (by decide) ?_
    exact .refl _ _

theorem clockChanged_frame (hadTime : Bool) (old : Int) (b : Block) :
    Block.Only [.arb, .btn, .cwy, .cwyX, .dmp, .hic, .lau, .qmg, .slt] b (clockChanged hadTime old b) := by
  unfold clockChanged
  with_reducible
    try lift_lets
    intro xx
    clear_value xx
    try lift_lets
    intro xx
    clear_value xx
    try lift_lets
    intro xx
    refine Block.Only.viaVar xx ?_ (fun _ => ?_) <;> [simp only [xx]; clear_value xx]
    refine .step (noteClosing_frame ..) (by decide) ?_
    exact .refl _ _
    refine .ite _ ?_ ?_
    refine .step (replan_frame ..) (by decide) ?_
    refine .step (legalLog_frame ..) (by decide) ?_
    refine .step (irq_frame ..) (by decide) ?_
    refine .step (updSlt_frame ..) (by decide) ?_
    refine .step (switchTariff_frame ..) (by decide) ?_
    assumption
    refine .step (replan_frame ..) (by decide) ?_
    refine .step (updSlt_frame ..) (by decide) ?_
    exact .refl _ _

theorem applyNow_frame (t : U64) (b : Block) :
    Block.Only [.acc, .arb, .btn, .cwy, .cwyX, .dmp, .hic, .key, .lau, .legal, .qmg, .slt] b (applyNow t b) := by
  unfold applyNow
  with_reducible
    try lift_lets
    intro xx
    clear_value xx
    try lift_lets
    intro xx
    clear_value xx
    try lift_lets
    intro xx
    refine Block.Only.viaVar xx ?_ (fun _ => ?_) <;> [simp only [xx]; clear_value xx]
    exact .refl _ _
    refine .step (feedBoundary_frame ..) (by decide) ?_
    refine .step (closeAt_frame ..) (by decide) ?_
    refine .step (noteUnproven_frame ..) (by decide) ?_
    refine .set_acc ?_ _ (by decide)
    refine .step (frameStep_frame ..) (by decide) ?_
    refine .step (energyCheck_frame ..) (by decide) ?_
    refine .forAll (fun _ _ _ => ?_) _ ?_
    refine .step (applySession_frame ..) (by decide) ?_
    assumption
    refine .forAll (fun _ _ _ => ?_) _ ?_
    refine .step (applyFeeder_frame ..) (by decide) ?_
    assumption
    refine .forAll (fun _ _ _ => ?_) _ ?_
    refine .step (applyNodeEnergy_frame ..) (by decide) ?_
    assumption
    exact .refl _ _

theorem salternApply_frame (b : Block) :
    Block.Only [.acc, .arb, .btn, .cwy, .cwyX, .dmp, .hic, .key, .lau, .legal, .prior, .qmg, .slt, .tide] b (salternApply b) := by
  unfold salternApply
  with_reducible
    split
    exact .refl _ _
    refine .ite _ ?_ ?_
    refine .afterTicks (by decide) (by decide) (fun _ _ => ?_) ?_
    refine .step (applyNow_frame ..) (by decide) ?_
    assumption
    exact .refl _ _
    exact .refl _ _

theorem takeDebit_frame (n : Fin 16) (x : U64) (b : Block) :
    Block.Only [.bri] b (takeDebit n x b) := by
  unfold takeDebit
  with_reducible
    try lift_lets
    intro xx
    refine Block.Only.viaVar xx ?_ (fun _ => ?_) <;> [simp only [xx]; clear_value xx]
    refine .step (updLedger_frame ..) (by decide) ?_
    exact .refl _ _
    refine .set_bri ?_ _ (by decide)
    assumption

theorem debit_frame (t : U64) (n : Fin 16) (b : Block) :
    Block.Only [.arb, .bri, .btn, .cwy, .cwyX, .dmp, .hic, .imd, .imdG, .key, .lau, .legal, .lsw, .pea, .plc, .plcCfg, .qmg, .saf, .safX, .sess, .slt, .veh] b (debit t n b) := by
  unfold debit
  with_reducible
    try lift_lets
    intro xx
    clear_value xx
    try lift_lets
    intro xx
    clear_value xx
    try lift_lets
    intro xx
    clear_value xx
    try lift_lets
    intro xx
    clear_value xx
    try lift_lets
    intro xx
    clear_value xx
    try lift_lets
    intro xx
    refine Block.Only.viaPair xx ?_ (fun _ => ?_) <;> [simp only [xx]; clear_value xx]
    refine .iteFst _ ?_ ?_
    exact .refl _ _
    refine transfer_frame (by decide) (fun _ _ => ?_) ?_
    refine .step (takeDebit_frame ..) (by decide) ?_
    assumption
    exact .refl _ _
    refine .ite _ ?_ ?_
    exact .refl _ _
    refine .ite _ ?_ ?_
    assumption
    refine .ite _ ?_ ?_
    refine .step (stopSession_frame ..) (by decide) ?_
    refine .step (irq_frame ..) (by decide) ?_
    refine .step (updLedger_frame ..) (by decide) ?_
    refine .onlyIf _ (fun _ _ => ?_) ?_
    refine .step (irq_frame ..) (by decide) ?_
    assumption
    refine .step (updLedger_frame ..) (by decide) ?_
    assumption
    refine .onlyIf _ (fun _ _ => ?_) ?_
    refine .step (irq_frame ..) (by decide) ?_
    assumption
    refine .step (updLedger_frame ..) (by decide) ?_
    assumption

theorem brinePublish_frame (b : Block) :
    Block.Only (Part.but [.snaps, .barrier, .fab, .d2d, .cross, .met, .pq, .slu, .sluCnt, .mlk, .vehCfg, .v2g, .v2gCfg, .rcm, .rcmTest, .auth, .backup, .mbx, .hp, .pnl, .frames, .nfc, .rst, .upd, .rpl, .dbg, .settings, .newSettings, .legalSet, .updRec, .kept]) b (brinePublish b) := by
  unfold brinePublish
  with_reducible
    split
    exact .refl _ _
    refine .ite _ ?_ ?_
    refine .afterTicks (by decide) (by decide) (fun _ _ => ?_) ?_
    try lift_lets
    intro xx
    clear_value xx
    refine .step (cutComplete_frame ..) (by decide) ?_
    refine .forAll (fun _ _ _ => ?_) _ ?_
    refine .step (debit_frame ..) (by decide) ?_
    assumption
    refine .set_acc ?_ _ (by decide)
    assumption
    exact .refl _ _
    exact .refl _ _

theorem metEnergyRead_frame (m : Fin 4) (b : Block) :
    Block.Only [.mbx, .rpl] b (metEnergyRead m b) := by
  unfold metEnergyRead
  with_reducible
    split
    refine .step (refuse_frame ..) (by decide) ?_
    exact .refl _ _
    refine .step (ok_frame ..) (by decide) ?_
    exact .refl _ _

end Sys2Proof.Machine
end

