-- ==== Sys2Proof/Laws/FrameInsulation.lean ====
section
/-! SUPPORT. Frames of the operations of Machine/Insulation.lean: the units each of them may change. -/

namespace Sys2Proof.Machine

theorem updRcm_frame (f : Fin 2) (g : Rcm → Rcm) (b : Block) :
    Block.Only [.rcm] b (updRcm f g b) := by
  unfold updRcm
  with_reducible
    refine .set_rcm ?_ _ (by decide)
    exact .refl _ _

theorem periodStep_frame (b : Block) :
    Block.Only [.imd, .imdG] b (periodStep b) := by
  unfold periodStep
  with_reducible
    split
    refine .ite _ ?_ ?_
    refine .forAll (fun _ _ _ => ?_) _ ?_
    refine .step (rebaseAt_frame ..) (by decide) ?_
    assumption
    refine .step (updImdG_frame ..) (by decide) ?_
    exact .refl _ _
    exact .refl _ _
    exact .refl _ _

theorem insulationFault_frame (n : Fin 16) (b : Block) :
    Block.Only [.arb, .bri, .btn, .cwy, .cwyX, .dmp, .hic, .imd, .imdG, .key, .lau, .legal, .lsw, .mlk, .pea, .plc, .plcCfg, .qmg, .saf, .safX, .sess, .slt, .veh] b (insulationFault n b) := by
  unfold insulationFault
  with_reducible
    refine .step (contain_frame ..) (by decide) ?_
    exact .refl _ _

theorem faultAlarm_frame (n : Fin 16) (r : Nat) (b : Block) :
    Block.Only [.arb, .bri, .btn, .cwy, .cwyX, .dmp, .hic, .imd, .imdG, .key, .lau, .legal, .lsw, .mlk, .pea, .plc, .plcCfg, .qmg, .saf, .safX, .sess, .slt, .veh] b (faultAlarm n r b) := by
  unfold faultAlarm
  with_reducible
    try lift_lets
    intro xx
    clear_value xx
    try lift_lets
    intro xx
    refine Block.Only.viaVar xx ?_ (fun _ => ?_) <;> [simp only [xx]; clear_value xx]
    refine .step (updImd_frame ..) (by decide) ?_
    exact .refl _ _
    refine .ite _ ?_ ?_
    refine .ite _ ?_ ?_
    assumption
    refine .step (insulationFault_frame ..) (by decide) ?_
    refine .step (irq_frame ..) (by decide) ?_
    assumption
    refine .ite _ ?_ ?_
    refine .step (irq_frame ..) (by decide) ?_
    refine .step (updImd_frame ..) (by decide) ?_
    exact .refl _ _
    refine .step (updImd_frame ..) (by decide) ?_
    exact .refl _ _

theorem warnAlarm_frame (n : Fin 16) (decided : Bool) (r : Nat) (b : Block) :
    Block.Only [.hic, .imd] b (warnAlarm n decided r b) := by
  unfold warnAlarm
  with_reducible
    try lift_lets
    intro xx
    clear_value xx
    try lift_lets
    intro xx
    clear_value xx
    try lift_lets
    intro xx
    clear_value xx
    try lift_lets
    intro xx
    clear_value xx
    refine .onlyIf _ (fun _ _ => ?_) ?_
    refine .step (irq_frame ..) (by decide) ?_
    assumption
    refine .step (updImd_frame ..) (by decide) ?_
    exact .refl _ _

theorem cableCheckEnd_frame (n : Fin 16) (r : BitVec 2) (b : Block) :
    Block.Only [.hic, .imd] b (cableCheckEnd n r b) := by
  unfold cableCheckEnd
  with_reducible
    refine .step (irq_frame ..) (by decide) ?_
    refine .step (updImd_frame ..) (by decide) ?_
    exact .refl _ _

theorem cableCheckFails_frame (n : Fin 16) (r : Nat) (b : Block) :
    Block.Only [.hic, .imd] b (cableCheckFails n r b) := by
  unfold cableCheckFails
  with_reducible
    refine .ite _ ?_ ?_
    refine .step (cableCheckEnd_frame ..) (by decide) ?_
    exact .refl _ _
    exact .refl _ _

theorem cableCheckStep_frame (n : Fin 16) (r : Nat) (done : Bool) (b : Block) :
    Block.Only [.arb, .btn, .cwy, .cwyX, .dmp, .hic, .imd, .imdG, .lau, .lsw, .plc, .plcCfg, .qmg, .saf, .safX, .sess] b (cableCheckStep n r done b) := by
  unfold cableCheckStep
  with_reducible
    try lift_lets
    intro xx
    clear_value xx
    try lift_lets
    intro xx
    refine Block.Only.viaVar xx ?_ (fun _ => ?_) <;> [simp only [xx]; clear_value xx]
    refine .onlyIf _ (fun _ _ => ?_) ?_
    refine .step (irq_frame ..) (by decide) ?_
    refine .step (updImd_frame ..) (by decide) ?_
    assumption
    exact .refl _ _
    refine .ite _ ?_ ?_
    exact .refl _ _
    refine .ite _ ?_ ?_
    refine .ite _ ?_ ?_
    refine .step (enterPhase_frame ..) (by decide) ?_
    refine .step (cableCheckEnd_frame ..) (by decide) ?_
    assumption
    refine .step (cableCheckEnd_frame ..) (by decide) ?_
    assumption
    exact .refl _ _

theorem imdMeasure_frame (n : Fin 16) (s : ImdSlot) (x : ImdReading) (b : Block) :
    Block.Only [.arb, .bri, .btn, .cwy, .cwyX, .dmp, .hic, .imd, .imdG, .key, .lau, .legal, .lsw, .mlk, .pea, .plc, .plcCfg, .qmg, .saf, .safX, .sess, .slt, .veh] b (imdMeasure n s x b) := by
  unfold imdMeasure
  with_reducible
    try lift_lets
    intro xx
    clear_value xx
    try lift_lets
    intro xx
    clear_value xx
    try lift_lets
    intro xx
    clear_value xx
    try lift_lets
    intro xx
    clear_value xx
    try lift_lets
    intro xx
    clear_value xx
    try lift_lets
    intro xx
    clear_value xx
    try lift_lets
    intro xx
    clear_value xx
    try lift_lets
    intro xx
    clear_value xx
    try lift_lets
    intro xx
    clear_value xx
    try lift_lets
    intro xx
    clear_value xx
    try lift_lets
    intro xx
    clear_value xx
    try lift_lets
    intro xx
    clear_value xx
    try lift_lets
    intro xx
    clear_value xx
    try lift_lets
    intro xx
    refine Block.Only.viaVar xx ?_ (fun _ => ?_) <;> [simp only [xx]; clear_value xx]
    refine .step (updImd_frame ..) (by decide) ?_
    exact .refl _ _
    refine .step (cableCheckStep_frame ..) (by decide) ?_
    refine .step (warnAlarm_frame ..) (by decide) ?_
    refine .step (faultAlarm_frame ..) (by decide) ?_
    refine .step (cableCheckFails_frame ..) (by decide) ?_
    refine .onlyIf _ (fun _ _ => ?_) ?_
    refine .step (irq_frame ..) (by decide) ?_
    refine .step (updImd_frame ..) (by decide) ?_
    assumption
    refine .onlyIf _ (fun _ _ => ?_) ?_
    refine .step (irq_frame ..) (by decide) ?_
    assumption
    refine .onlyIf _ (fun _ _ => ?_) ?_
    refine .step (irq_frame ..) (by decide) ?_
    refine .step (updImd_frame ..) (by decide) ?_
    assumption
    assumption

theorem railSee_frame (bad : Bool) (pos neg : Nat) (b : Block) :
    Block.Only [.hic, .imdG] b (railSee bad pos neg b) := by
  unfold railSee
  with_reducible
    refine .ite _ ?_ ?_
    refine .onlyIf _ (fun _ _ => ?_) ?_
    refine .step (irq_frame ..) (by decide) ?_
    assumption
    refine .step (updImdG_frame ..) (by decide) ?_
    refine .step (updImdG_frame ..) (by decide) ?_
    exact .refl _ _
    refine .step (updImdG_frame ..) (by decide) ?_
    exact .refl _ _

theorem imdForm_frame (n : Fin 16) (s : ImdSlot) (x : ImdReading) (b : Block) :
    Block.Only [.arb, .bri, .btn, .cwy, .cwyX, .dmp, .hic, .imd, .imdG, .key, .lau, .legal, .lsw, .mlk, .pea, .plc, .plcCfg, .qmg, .saf, .safX, .sess, .slt, .veh] b (imdForm n s x b) := by
  unfold imdForm
  with_reducible
    try lift_lets
    intro xx
    clear_value xx
    try lift_lets
    intro xx
    clear_value xx
    try lift_lets
    intro xx
    refine Block.Only.viaVar xx ?_ (fun _ => ?_) <;> [simp only [xx]; clear_value xx]
    refine .step (updImd_frame ..) (by decide) ?_
    refine .step (periodStep_frame ..) (by decide) ?_
    exact .refl _ _
    refine .step (driveFeed_frame ..) (by decide) ?_
    refine .ite _ ?_ ?_
    refine .step (updImdG_frame ..) (by decide) ?_
    refine .step (updImd_frame ..) (by decide) ?_
    refine .step (railSee_frame ..) (by decide) ?_
    assumption
    refine .step (imdMeasure_frame ..) (by decide) ?_
    refine .step (railSee_frame ..) (by decide) ?_
    assumption

theorem imdResult_frame (n : Fin 16) (x : ImdReading) (b : Block) :
    Block.Only (Part.but [.snaps, .barrier, .fab, .d2d, .cross, .met, .acc, .pq, .slu, .sluCnt, .vehCfg, .v2g, .v2gCfg, .rcm, .rcmTest, .pf, .auth, .backup, .mbx, .hp, .pnl, .frames, .nfc, .rst, .upd, .rpl, .dbg, .settings, .newSettings, .legalSet, .updRec, .kept]) b (imdResult n x b) := by
  unfold imdResult
  with_reducible
    split
    exact .refl _ _
    refine .atInstant (by decide) (by decide) (fun _ _ => ?_) ?_
    refine .step (imdForm_frame ..) (by decide) ?_
    assumption
    exact .refl _ _

theorem baselineLate_frame (n : Fin 16) (b : Block) :
    Block.Only [.hic, .imd, .prior, .tide] b (baselineLate n b) := by
  unfold baselineLate
  with_reducible
    try lift_lets
    intro xx
    clear_value xx
    refine .ite _ ?_ ?_
    refine .afterTicks (by decide) (by decide) (fun _ _ => ?_) ?_
    refine .step (irq_frame ..) (by decide) ?_
    refine .step (updImd_frame ..) (by decide) ?_
    assumption
    exact .refl _ _
    exact .refl _ _

theorem goStale_frame (n : Fin 16) (b : Block) :
    Block.Only [.arb, .bri, .btn, .cwy, .cwyX, .dmp, .hic, .imd, .imdG, .key, .lau, .legal, .lsw, .mlk, .pea, .plc, .plcCfg, .qmg, .saf, .safX, .sess, .slt, .veh] b (goStale n b) := by
  unfold goStale
  with_reducible
    try lift_lets
    intro xx
    refine Block.Only.viaVar xx ?_ (fun _ => ?_) <;> [simp only [xx]; clear_value xx]
    refine .step (irq_frame ..) (by decide) ?_
    refine .step (updImd_frame ..) (by decide) ?_
    exact .refl _ _
    refine .ite _ ?_ ?_
    refine .step (softFault_frame ..) (by decide) ?_
    assumption
    assumption

theorem imdStale_frame (n : Fin 16) (b : Block) :
    Block.Only (Part.but [.snaps, .barrier, .fab, .d2d, .cross, .met, .acc, .pq, .slu, .sluCnt, .vehCfg, .v2g, .v2gCfg, .rcm, .rcmTest, .pf, .auth, .backup, .mbx, .hp, .pnl, .frames, .nfc, .rst, .upd, .rpl, .dbg, .settings, .newSettings, .legalSet, .updRec, .kept]) b (imdStale n b) := by
  unfold imdStale
  with_reducible
    try lift_lets
    intro xx
    refine Block.Only.viaVar xx ?_ (fun _ => ?_) <;> [simp only [xx]; clear_value xx]
    refine .step (noteActive_frame ..) (by decide) ?_
    exact .refl _ _
    split
    refine .ite _ ?_ ?_
    assumption
    refine .atInstant (by decide) (by decide) (fun _ _ => ?_) ?_
    refine .step (goStale_frame ..) (by decide) ?_
    assumption
    assumption
    assumption

theorem imdRailFault_frame (pos neg : U16) (b : Block) :
    Block.Only [.hic, .imdG] b (imdRailFault pos neg b) := by
  unfold imdRailFault
  with_reducible
    refine .step (railSee_frame ..) (by decide) ?_
    exact .refl _ _

theorem cableCheckTimeout_frame (n : Fin 16) (b : Block) :
    Block.Only [.arb, .bri, .btn, .cwy, .cwyX, .dmp, .hic, .imd, .imdG, .key, .lau, .legal, .lsw, .pea, .plc, .plcCfg, .prior, .qmg, .saf, .safX, .sess, .slt, .tide, .veh] b (cableCheckTimeout n b) := by
  unfold cableCheckTimeout
  with_reducible
    try lift_lets
    intro xx
    clear_value xx
    refine .ite _ ?_ ?_
    refine .afterTicks (by decide) (by decide) (fun _ _ => ?_) ?_
    refine .step (stopSession_frame ..) (by decide) ?_
    refine .step (cableCheckEnd_frame ..) (by decide) ?_
    assumption
    exact .refl _ _
    exact .refl _ _

theorem rcmTrip_frame (f : Fin 2) (test : Bool) (b : Block) :
    Block.Only [.arb, .bri, .btn, .cwy, .cwyX, .dmp, .hic, .imd, .imdG, .key, .lau, .legal, .lsw, .mlk, .pea, .plc, .plcCfg, .qmg, .rcm, .saf, .safX, .sess, .slt, .veh] b (rcmTrip f test b) := by
  unfold rcmTrip
  with_reducible
    try lift_lets
    intro xx
    refine Block.Only.viaVar xx ?_ (fun _ => ?_) <;> [simp only [xx]; clear_value xx]
    refine .step (irq_frame ..) (by decide) ?_
    refine .step (updRcm_frame ..) (by decide) ?_
    exact .refl _ _
    refine .ite _ ?_ ?_
    assumption
    refine .step (contain_frame ..) (by decide) ?_
    assumption

theorem rcmBlock_frame (f : Fin 2) (b : Block) :
    Block.Only (Part.but [.tide, .snaps, .barrier, .fab, .d2d, .cross, .met, .acc, .pq, .slu, .sluCnt, .vehCfg, .v2g, .v2gCfg, .pf, .auth, .backup, .mbx, .hp, .pnl, .frames, .nfc, .rst, .upd, .rpl, .dbg, .settings, .newSettings, .legalSet, .updRec, .kept, .prior]) b (rcmBlock f b) := by
  unfold rcmBlock
  with_reducible
    try lift_lets
    intro xx
    clear_value xx
    try lift_lets
    intro xx
    clear_value xx
    try lift_lets
    intro xx
    clear_value xx
    try lift_lets
    intro xx
    clear_value xx
    try lift_lets
    intro xx
    clear_value xx
    try lift_lets
    intro xx
    clear_value xx
    try lift_lets
    intro xx
    clear_value xx
    try lift_lets
    intro xx
    clear_value xx
    try lift_lets
    intro xx
    clear_value xx
    try lift_lets
    intro xx
    refine Block.Only.viaVar xx ?_ (fun _ => ?_) <;> [simp only [xx]; clear_value xx]
    refine .step (updRcm_frame ..) (by decide) ?_
    exact .refl _ _
    refine .onlyIf _ (fun _ _ => ?_) ?_
    refine .step (rcmTrip_frame ..) (by decide) ?_
    assumption
    split
    refine .ite _ ?_ ?_
    refine .set_rcmTest ?_ _ (by decide)
    refine .onlyIf _ (fun _ _ => ?_) ?_
    refine .step (irq_frame ..) (by decide) ?_
    assumption
    assumption
    refine .onlyIf _ (fun _ _ => ?_) ?_
    refine .step (irq_frame ..) (by decide) ?_
    assumption
    assumption
    refine .onlyIf _ (fun _ _ => ?_) ?_
    refine .step (irq_frame ..) (by decide) ?_
    assumption
    assumption

theorem rcmBlockEnd_frame (f : Fin 2) (b : Block) :
    Block.Only (Part.but [.tide, .snaps, .barrier, .fab, .d2d, .cross, .met, .acc, .pq, .slu, .sluCnt, .vehCfg, .v2g, .v2gCfg, .pf, .auth, .backup, .mbx, .hp, .pnl, .frames, .nfc, .rst, .upd, .rpl, .dbg, .settings, .newSettings, .legalSet, .updRec, .kept, .prior]) b (rcmBlockEnd f b) := by
  unfold rcmBlockEnd
  with_reducible
    try lift_lets
    intro xx
    clear_value xx
    refine .ite _ ?_ ?_
    exact .refl _ _
    refine .step (rcmBlock_frame ..) (by decide) ?_
    exact .refl _ _

theorem rcmWarning_frame (f : Fin 2) (b : Block) :
    Block.Only [.hic, .rcm] b (rcmWarning f b) := by
  unfold rcmWarning
  with_reducible
    try lift_lets
    intro xx
    clear_value xx
    refine .ite _ ?_ ?_
    refine .step (irq_frame ..) (by decide) ?_
    refine .step (updRcm_frame ..) (by decide) ?_
    exact .refl _ _
    refine .ite _ ?_ ?_
    refine .step (irq_frame ..) (by decide) ?_
    refine .step (updRcm_frame ..) (by decide) ?_
    exact .refl _ _
    exact .refl _ _

theorem rcmLost_frame (f : Fin 2) (b : Block) :
    Block.Only [.arb, .bri, .btn, .cwy, .cwyX, .dmp, .hic, .imd, .imdG, .key, .lau, .legal, .lsw, .mlk, .pea, .plc, .plcCfg, .qmg, .rcm, .saf, .safX, .sess, .slt, .veh] b (rcmLost f b) := by
  unfold rcmLost
  with_reducible
    try lift_lets
    intro xx
    clear_value xx
    refine .ite _ ?_ ?_
    refine .step (rcmTrip_frame ..) (by decide) ?_
    refine .step (irq_frame ..) (by decide) ?_
    refine .step (updRcm_frame ..) (by decide) ?_
    exact .refl _ _
    exact .refl _ _

theorem rcmTestFinish_frame (t : RcmTest) (b : Block) :
    Block.Only [.arb, .btn, .cwy, .cwyX, .dmp, .hic, .lau, .mbx, .pea, .qmg, .rcm, .rcmTest, .rpl] b (rcmTestFinish t b) := by
  unfold rcmTestFinish
  with_reducible
    try lift_lets
    intro xx
    clear_value xx
    try lift_lets
    intro xx
    clear_value xx
    try lift_lets
    intro xx
    refine Block.Only.viaVar xx ?_ (fun _ => ?_) <;> [simp only [xx]; clear_value xx]
    refine .onlyIf _ (fun _ _ => ?_) ?_
    refine .step (hsEntry_frame ..) (by decide) ?_
    assumption
    refine .set_rcmTest ?_ _ (by decide)
    exact .refl _ _
    refine .ite _ ?_ ?_
    refine .step (ok_frame ..) (by decide) ?_
    refine .step (cmdLog_frame ..) (by decide) ?_
    refine .step (irq_frame ..) (by decide) ?_
    refine .step (updRcm_frame ..) (by decide) ?_
    assumption
    refine .step (refuse_frame ..) (by decide) ?_
    refine .step (cmdLog_frame ..) (by decide) ?_
    refine .step (irq_frame ..) (by decide) ?_
    refine .step (updRcm_frame ..) (by decide) ?_
    assumption

theorem rcmTestOff_frame (t : RcmTest) (b : Block) :
    Block.Only [.arb, .btn, .cwy, .cwyX, .dmp, .hic, .lau, .mbx, .pea, .qmg, .rcm, .rcmTest, .rpl] b (rcmTestOff t b) := by
  unfold rcmTestOff
  with_reducible
    refine .ite _ ?_ ?_
    refine .step (rcmTestFinish_frame ..) (by decide) ?_
    exact .refl _ _
    refine .step (hsEntry_frame ..) (by decide) ?_
    refine .set_rcmTest ?_ _ (by decide)
    exact .refl _ _

theorem rcmTestEnd_frame (b : Block) :
    Block.Only [.arb, .btn, .cwy, .cwyX, .dmp, .hic, .lau, .mbx, .pea, .prior, .qmg, .rcm, .rcmTest, .rpl, .tide] b (rcmTestEnd b) := by
  unfold rcmTestEnd
  with_reducible
    split
    exact .refl _ _
    refine .ite _ ?_ ?_
    refine .step (rcmTestFinish_frame ..) (by decide) ?_
    exact .refl _ _
    refine .ite _ ?_ ?_
    refine .atInstant (by decide) (by decide) (fun _ _ => ?_) ?_
    refine .step (rcmTestFinish_frame ..) (by decide) ?_
    assumption
    exact .refl _ _
    refine .atInstant (by decide) (by decide) (fun _ _ => ?_) ?_
    refine .step (rcmTestOff_frame ..) (by decide) ?_
    assumption
    exact .refl _ _

theorem imdWrite_frame (a : Nat) (v : U32) (b : Block) :
    Block.Only [.imd, .rcm] b (imdWrite a v b) := by
  unfold imdWrite
  with_reducible
    refine .ite _ ?_ ?_
    refine .set_imd ?_ _ (by decide)
    exact .refl _ _
    refine .ite _ ?_ ?_
    refine .set_rcm ?_ _ (by decide)
    exact .refl _ _
    exact .refl _ _

theorem imdSetConfig_frame (m : Fin 4) (b : Block) :
    Block.Only [.arb, .btn, .hic, .imd, .imdG, .mbx, .pea, .rpl] b (imdSetConfig m b) := by
  unfold imdSetConfig
  with_reducible
    try lift_lets
    intro xx
    clear_value xx
    try lift_lets
    intro xx
    clear_value xx
    try lift_lets
    intro xx
    clear_value xx
    try lift_lets
    intro xx
    clear_value xx
    try lift_lets
    intro xx
    clear_value xx
    try lift_lets
    intro xx
    clear_value xx
    try lift_lets
    intro xx
    clear_value xx
    refine .checked (by decide) (by decide) (fun _ _ => ?_) ?_
    try lift_lets
    intro xx
    refine Block.Only.viaVar xx ?_ (fun _ => ?_) <;> [simp only [xx]; clear_value xx]
    refine .step (periodStep_frame ..) (by decide) ?_
    assumption
    refine .step (cmdLog_frame ..) (by decide) ?_
    refine .step (ok_frame ..) (by decide) ?_
    refine .step (saveSettings_frame ..) (by decide) ?_
    refine .onlyIf _ (fun _ _ => ?_) ?_
    refine .forAll (fun _ _ _ => ?_) _ ?_
    refine .step (rebase_frame ..) (by decide) ?_
    assumption
    assumption
    refine .step (updImdG_frame ..) (by decide) ?_
    assumption
    exact .refl _ _

theorem imdSetForce_frame (m : Fin 4) (b : Block) :
    Block.Only [.arb, .btn, .cwy, .cwyX, .dmp, .hic, .imd, .imdG, .lau, .mbx, .pea, .qmg, .rpl] b (imdSetForce m b) := by
  unfold imdSetForce
  with_reducible
    try lift_lets
    intro xx
    clear_value xx
    refine .step (driveFeed_frame ..) (by decide) ?_
    refine .step (ok_frame ..) (by decide) ?_
    refine .step (saveSettings_frame ..) (by decide) ?_
    refine .set_imd ?_ _ (by decide)
    exact .refl _ _

theorem imdGetNode_frame (m : Fin 4) (b : Block) :
    Block.Only [.mbx, .rpl] b (imdGetNode m b) := by
  unfold imdGetNode
  with_reducible
    try lift_lets
    intro xx
    clear_value xx
    try lift_lets
    intro xx
    clear_value xx
    refine .checked (by decide) (by decide) (fun _ _ => ?_) ?_
    refine .step (ok_frame ..) (by decide) ?_
    assumption
    exact .refl _ _

theorem imdRebaseline_frame (m : Fin 4) (b : Block) :
    Block.Only [.imd, .mbx, .rpl] b (imdRebaseline m b) := by
  unfold imdRebaseline
  with_reducible
    refine .step (ok_frame ..) (by decide) ?_
    refine .forAll (fun _ _ _ => ?_) _ ?_
    refine .step (rebase_frame ..) (by decide) ?_
    assumption
    exact .refl _ _

theorem rcmSetConfig_frame (m : Fin 4) (b : Block) :
    Block.Only [.arb, .btn, .hic, .mbx, .pea, .rcm, .rpl] b (rcmSetConfig m b) := by
  unfold rcmSetConfig
  with_reducible
    try lift_lets
    intro xx
    clear_value xx
    try lift_lets
    intro xx
    clear_value xx
    try lift_lets
    intro xx
    clear_value xx
    refine .checked (by decide) (by decide) (fun _ _ => ?_) ?_
    refine .step (cmdLog_frame ..) (by decide) ?_
    refine .step (ok_frame ..) (by decide) ?_
    refine .step (saveSettings_frame ..) (by decide) ?_
    refine .step (updRcm_frame ..) (by decide) ?_
    assumption
    exact .refl _ _

theorem rcmGet_frame (m : Fin 4) (b : Block) :
    Block.Only [.mbx, .rcm, .rpl] b (rcmGet m b) := by
  unfold rcmGet
  with_reducible
    refine .checked (by decide) (by decide) (fun _ _ => ?_) ?_
    try lift_lets
    intro xx
    clear_value xx
    try lift_lets
    intro xx
    clear_value xx
    refine .step (ok_frame ..) (by decide) ?_
    refine .step (updRcm_frame ..) (by decide) ?_
    assumption
    exact .refl _ _

theorem rcmTestStart_frame (m : Fin 4) (b : Block) :
    Block.Only [.arb, .btn, .cwy, .cwyX, .dmp, .hic, .lau, .mbx, .qmg, .rcmTest, .rpl] b (rcmTestStart m b) := by
  unfold rcmTestStart
  with_reducible
    refine .checked (by decide) (by decide) (fun _ _ => ?_) ?_
    try lift_lets
    intro xx
    clear_value xx
    refine .step (hsEntry_frame ..) (by decide) ?_
    refine .set_rcmTest ?_ _ (by decide)
    assumption
    exact .refl _ _

theorem imdClearCounts_frame (m : Fin 4) (b : Block) :
    Block.Only [.imd, .imdG, .mbx, .rpl] b (imdClearCounts m b) := by
  unfold imdClearCounts
  with_reducible
    refine .step (ok_frame ..) (by decide) ?_
    refine .forAll (fun _ _ _ => ?_) _ ?_
    refine .step (updImd_frame ..) (by decide) ?_
    assumption
    refine .step (updImdG_frame ..) (by decide) ?_
    exact .refl _ _

end Sys2Proof.Machine
end

