-- ==== Sys2Proof/Laws/FrameSwitches.lean ====
section
/-! SUPPORT. Frames of the operations of Machine/Switches.lean: the units each of them may change. -/

namespace Sys2Proof.Machine

theorem updLsw_frame (f : Switches → Switches) (b : Block) :
    Block.Only [.lsw] b (updLsw f b) := by
  unfold updLsw
  with_reducible
    refine .set_lsw ?_ _ (by decide)
    exact .refl _ _

theorem updDiag_frame (c : Fin 40) (f : HsDiag → HsDiag) (b : Block) :
    Block.Only [.lsw] b (updDiag c f b) := by
  unfold updDiag
  with_reducible
    refine .step (updLsw_frame ..) (by decide) ?_
    exact .refl _ _

theorem driveHs_frame (c : Fin 40) (b : Block) :
    Block.Only [.hic, .lsw, .saf] b (driveHs c b) := by
  unfold driveHs
  with_reducible
    try lift_lets
    intro xx
    clear_value xx
    try lift_lets
    intro xx
    refine Block.Only.viaVar xx ?_ (fun _ => ?_) <;> [simp only [xx]; clear_value xx]
    refine .step (updHs_frame ..) (by decide) ?_
    exact .refl _ _
    refine .ite _ ?_ ?_
    exact .refl _ _
    refine .ite _ ?_ ?_
    refine .forAll (fun _ _ _ => ?_) _ ?_
    refine .step (coilStart_frame ..) (by decide) ?_
    refine .step (updLs_frame ..) (by decide) ?_
    assumption
    assumption
    assumption

theorem driveAll_frame (b : Block) :
    Block.Only [.hic, .lsw, .saf] b (driveAll b) := by
  unfold driveAll
  with_reducible
    refine .forAll (fun _ _ _ => ?_) _ ?_
    refine .step (driveHs_frame ..) (by decide) ?_
    assumption
    exact .refl _ _

theorem failOn_frame (c : Fin 40) (b : Block) :
    Block.Only [.lau, .lsw] b (failOn c b) := by
  unfold failOn
  with_reducible
    try lift_lets
    intro xx
    clear_value xx
    refine .ite _ ?_ ?_
    refine .step (updHs_frame ..) (by decide) ?_
    refine .set_lau ?_ _ (by decide)
    exact .refl _ _
    exact .refl _ _

theorem protectHs_frame (c : Fin 40) (src : Nat) (f : HsChan → HsChan) (b : Block) :
    Block.Only [.hic, .lau, .lsw, .saf] b (protectHs c src f b) := by
  unfold protectHs
  with_reducible
    refine .step (driveHs_frame ..) (by decide) ?_
    refine .step (irq_frame ..) (by decide) ?_
    refine .step (updHs_frame ..) (by decide) ?_
    refine .step (updLsw_frame ..) (by decide) ?_
    refine .step (failOn_frame ..) (by decide) ?_
    exact .refl _ _

theorem hsTurnOn_frame (c : Fin 40) (b : Block) :
    Block.Only [.hic, .lsw, .saf] b (hsTurnOn c b) := by
  unfold hsTurnOn
  with_reducible
    refine .step (driveHs_frame ..) (by decide) ?_
    refine .step (updHs_frame ..) (by decide) ?_
    exact .refl _ _

theorem hsTurnOff_frame (c : Fin 40) (b : Block) :
    Block.Only [.hic, .lsw, .saf] b (hsTurnOff c b) := by
  unfold hsTurnOff
  with_reducible
    refine .step (driveHs_frame ..) (by decide) ?_
    refine .step (updHs_frame ..) (by decide) ?_
    exact .refl _ _

theorem hsSetDuty_frame (c : Fin 40) (d : Nat) (b : Block) :
    Block.Only [.lsw] b (hsSetDuty c d b) := by
  unfold hsSetDuty
  with_reducible
    refine .step (updHs_frame ..) (by decide) ?_
    exact .refl _ _

theorem hsOverCurrent_frame (c : Fin 40) (x : SwitchReading) (b : Block) :
    Block.Only [.hic, .lau, .lsw, .saf] b (hsOverCurrent c x b) := by
  unfold hsOverCurrent
  with_reducible
    try lift_lets
    intro xx
    clear_value xx
    try lift_lets
    intro xx
    clear_value xx
    try lift_lets
    intro xx
    refine Block.Only.viaVar xx ?_ (fun _ => ?_) <;> [simp only [xx]; clear_value xx]
    refine .step (updDiag_frame ..) (by decide) ?_
    refine .step (updHs_frame ..) (by decide) ?_
    exact .refl _ _
    refine .ite _ ?_ ?_
    refine .step (protectHs_frame ..) (by decide) ?_
    refine .step (updDiag_frame ..) (by decide) ?_
    assumption
    assumption

theorem hsShortGnd_frame (c : Fin 40) (x : SwitchReading) (b : Block) :
    Block.Only [.hic, .lau, .lsw, .saf] b (hsShortGnd c x b) := by
  unfold hsShortGnd
  with_reducible
    try lift_lets
    intro xx
    clear_value xx
    try lift_lets
    intro xx
    clear_value xx
    try lift_lets
    intro xx
    clear_value xx
    try lift_lets
    intro xx
    refine Block.Only.viaVar xx ?_ (fun _ => ?_) <;> [simp only [xx]; clear_value xx]
    refine .step (updDiag_frame ..) (by decide) ?_
    exact .refl _ _
    refine .ite _ ?_ ?_
    refine .step (protectHs_frame ..) (by decide) ?_
    assumption
    assumption

theorem hsShortVin_frame (c : Fin 40) (x : SwitchReading) (b : Block) :
    Block.Only [.hic, .lau, .lsw, .saf] b (hsShortVin c x b) := by
  unfold hsShortVin
  with_reducible
    try lift_lets
    intro xx
    clear_value xx
    try lift_lets
    intro xx
    clear_value xx
    try lift_lets
    intro xx
    clear_value xx
    try lift_lets
    intro xx
    refine Block.Only.viaVar xx ?_ (fun _ => ?_) <;> [simp only [xx]; clear_value xx]
    refine .step (updDiag_frame ..) (by decide) ?_
    exact .refl _ _
    refine .ite _ ?_ ?_
    refine .step (protectHs_frame ..) (by decide) ?_
    assumption
    assumption

theorem hsTied_frame (c : Fin 40) (x : SwitchReading) (b : Block) :
    Block.Only [.hic, .lau, .lsw, .saf] b (hsTied c x b) := by
  unfold hsTied
  with_reducible
    try lift_lets
    intro xx
    clear_value xx
    try lift_lets
    intro xx
    clear_value xx
    try lift_lets
    intro xx
    clear_value xx
    try lift_lets
    intro xx
    clear_value xx
    try lift_lets
    intro xx
    refine Block.Only.viaVar xx ?_ (fun _ => ?_) <;> [simp only [xx]; clear_value xx]
    refine .step (updDiag_frame ..) (by decide) ?_
    exact .refl _ _
    refine .ite _ ?_ ?_
    refine .forAll (fun _ _ _ => ?_) _ ?_
    refine .step (protectHs_frame ..) (by decide) ?_
    assumption
    assumption
    assumption

theorem hsOpenLoad_frame (c : Fin 40) (x : SwitchReading) (b : Block) :
    Block.Only [.hic, .lsw] b (hsOpenLoad c x b) := by
  unfold hsOpenLoad
  with_reducible
    try lift_lets
    intro xx
    clear_value xx
    try lift_lets
    intro xx
    clear_value xx
    try lift_lets
    intro xx
    clear_value xx
    try lift_lets
    intro xx
    clear_value xx
    refine .onlyIf _ (fun _ _ => ?_) ?_
    refine .step (irq_frame ..) (by decide) ?_
    assumption
    refine .step (updHs_frame ..) (by decide) ?_
    refine .step (updDiag_frame ..) (by decide) ?_
    exact .refl _ _

theorem lockMeasure_frame (c : Fin 40) (x : SwitchReading) (n : Fin 16) (b : Block) :
    Block.Only [.veh] b (lockMeasure c x n b) := by
  unfold lockMeasure
  with_reducible
    try lift_lets
    intro xx
    clear_value xx
    try lift_lets
    intro xx
    clear_value xx
    try lift_lets
    intro xx
    clear_value xx
    try lift_lets
    intro xx
    clear_value xx
    split
    exact .refl _ _
    try lift_lets
    intro xx
    clear_value xx
    refine .ite _ ?_ ?_
    refine .step (updVeh_frame ..) (by decide) ?_
    exact .refl _ _
    exact .refl _ _

theorem hsMeasure_frame (c : Fin 40) (x : SwitchReading) (b : Block) :
    Block.Only [.hic, .lau, .lsw, .saf, .veh] b (hsMeasure c x b) := by
  unfold hsMeasure
  with_reducible
    try lift_lets
    intro xx
    refine Block.Only.viaVar xx ?_ (fun _ => ?_) <;> [simp only [xx]; clear_value xx]
    refine .step (updHs_frame ..) (by decide) ?_
    exact .refl _ _
    refine .forAll (fun _ _ _ => ?_) _ ?_
    refine .step (lockMeasure_frame ..) (by decide) ?_
    assumption
    refine .step (hsOpenLoad_frame ..) (by decide) ?_
    refine .step (hsTied_frame ..) (by decide) ?_
    refine .step (hsShortVin_frame ..) (by decide) ?_
    refine .step (hsShortGnd_frame ..) (by decide) ?_
    refine .step (hsOverCurrent_frame ..) (by decide) ?_
    assumption

theorem contactorFault_frame (n : Fin 16) (b : Block) :
    Block.Only [.arb, .bri, .btn, .cwy, .cwyX, .dmp, .hic, .imd, .imdG, .key, .lau, .legal, .lsw, .mlk, .pea, .plc, .plcCfg, .qmg, .saf, .safX, .sess, .slt, .veh] b (contactorFault n b) := by
  unfold contactorFault
  with_reducible
    refine .step (contain_frame ..) (by decide) ?_
    refine .step (irq_frame ..) (by decide) ?_
    exact .refl _ _

theorem lsProtect_frame (n : Fin 16) (f : LsChan → LsChan) (b : Block) :
    Block.Only [.arb, .bri, .btn, .cwy, .cwyX, .dmp, .hic, .imd, .imdG, .key, .lau, .legal, .lsw, .mlk, .pea, .plc, .plcCfg, .qmg, .saf, .safX, .sess, .slt, .veh] b (lsProtect n f b) := by
  unfold lsProtect
  with_reducible
    refine .step (contactorFault_frame ..) (by decide) ?_
    refine .step (lsOff_frame ..) (by decide) ?_
    refine .step (irq_frame ..) (by decide) ?_
    refine .step (updLs_frame ..) (by decide) ?_
    refine .step (updLsw_frame ..) (by decide) ?_
    exact .refl _ _

theorem coilConfirm_frame (n : Fin 16) (b : Block) :
    Block.Only [.imd, .lsw, .saf] b (coilConfirm n b) := by
  unfold coilConfirm
  with_reducible
    refine .step (imdDisturb_frame ..) (by decide) ?_
    refine .step (imdClose_frame ..) (by decide) ?_
    refine .step (updLs_frame ..) (by decide) ?_
    refine .step (updNode_frame ..) (by decide) ?_
    exact .refl _ _

theorem coilOpened_frame (n : Fin 16) (b : Block) :
    Block.Only [.arb, .bri, .btn, .cwy, .cwyX, .dmp, .hic, .imd, .imdG, .key, .lau, .legal, .lsw, .mlk, .pea, .plc, .plcCfg, .qmg, .saf, .safX, .sess, .slt, .veh] b (coilOpened n b) := by
  unfold coilOpened
  with_reducible
    try lift_lets
    intro xx
    clear_value xx
    try lift_lets
    intro xx
    refine Block.Only.viaVar xx ?_ (fun _ => ?_) <;> [simp only [xx]; clear_value xx]
    refine .step (updLs_frame ..) (by decide) ?_
    exact .refl _ _
    refine .step (unlockIfDue_frame ..) (by decide) ?_
    refine .step (reviewHub_frame ..) (by decide) ?_
    refine .step (stopDone_frame ..) (by decide) ?_
    refine .step (imdDisturb_frame ..) (by decide) ?_
    refine .step (imdOpen_frame ..) (by decide) ?_
    refine .step (updNode_frame ..) (by decide) ?_
    assumption

theorem coilOnMeasure_frame (n : Fin 16) (x : SwitchReading) (b : Block) :
    Block.Only [.arb, .bri, .btn, .cwy, .cwyX, .dmp, .hic, .imd, .imdG, .key, .lau, .legal, .lsw, .mlk, .pea, .plc, .plcCfg, .qmg, .saf, .safX, .sess, .slt, .veh] b (coilOnMeasure n x b) := by
  unfold coilOnMeasure
  with_reducible
    try lift_lets
    intro xx
    clear_value xx
    try lift_lets
    intro xx
    clear_value xx
    try lift_lets
    intro xx
    refine Block.Only.viaVar xx ?_ (fun _ => ?_) <;> [simp only [xx]; clear_value xx]
    refine .ite _ ?_ ?_
    refine .step (coilConfirm_frame ..) (by decide) ?_
    exact .refl _ _
    exact .refl _ _
    refine .ite _ ?_ ?_
    refine .step (lsProtect_frame ..) (by decide) ?_
    exact .refl _ _
    refine .ite _ ?_ ?_
    refine .ite _ ?_ ?_
    refine .step (contactorFault_frame ..) (by decide) ?_
    assumption
    refine .onlyIf _ (fun _ _ => ?_) ?_
    refine .step (irq_frame ..) (by decide) ?_
    assumption
    refine .step (updLs_frame ..) (by decide) ?_
    assumption
    assumption

theorem coilOffMeasure_frame (n : Fin 16) (x : SwitchReading) (b : Block) :
    Block.Only [.arb, .bri, .btn, .cwy, .cwyX, .dmp, .hic, .imd, .imdG, .key, .lau, .legal, .lsw, .mlk, .pea, .plc, .plcCfg, .qmg, .saf, .safX, .sess, .slt, .veh] b (coilOffMeasure n x b) := by
  unfold coilOffMeasure
  with_reducible
    try lift_lets
    intro xx
    clear_value xx
    try lift_lets
    intro xx
    clear_value xx
    try lift_lets
    intro xx
    clear_value xx
    try lift_lets
    intro xx
    clear_value xx
    try lift_lets
    intro xx
    refine Block.Only.viaVar xx ?_ (fun _ => ?_) <;> [simp only [xx]; clear_value xx]
    refine .onlyIf _ (fun _ _ => ?_) ?_
    refine .step (irq_frame ..) (by decide) ?_
    assumption
    refine .step (updLs_frame ..) (by decide) ?_
    exact .refl _ _
    refine .ite _ ?_ ?_
    refine .step (coilOpened_frame ..) (by decide) ?_
    assumption
    assumption

theorem lsMeasure_frame (n : Fin 16) (x : SwitchReading) (b : Block) :
    Block.Only [.arb, .bri, .btn, .cwy, .cwyX, .dmp, .hic, .imd, .imdG, .key, .lau, .legal, .lsw, .mlk, .pea, .plc, .plcCfg, .qmg, .saf, .safX, .sess, .slt, .veh] b (lsMeasure n x b) := by
  unfold lsMeasure
  with_reducible
    try lift_lets
    intro xx
    refine Block.Only.viaVar xx ?_ (fun _ => ?_) <;> [simp only [xx]; clear_value xx]
    refine .step (updLs_frame ..) (by decide) ?_
    exact .refl _ _
    refine .ite _ ?_ ?_
    refine .step (coilOffMeasure_frame ..) (by decide) ?_
    assumption
    refine .step (coilOnMeasure_frame ..) (by decide) ?_
    assumption

theorem switchMeasure_frame (c : SwitchChan) (x : SwitchReading) (b : Block) :
    Block.Only (Part.but [.snaps, .barrier, .fab, .d2d, .cross, .met, .acc, .pq, .slu, .sluCnt, .vehCfg, .v2g, .v2gCfg, .rcm, .rcmTest, .pf, .auth, .backup, .mbx, .hp, .pnl, .frames, .nfc, .rst, .upd, .rpl, .dbg, .settings, .newSettings, .legalSet, .updRec, .kept]) b (switchMeasure c x b) := by
  unfold switchMeasure
  with_reducible
    split
    refine .atInstant (by decide) (by decide) (fun _ _ => ?_) ?_
    refine .step (hsMeasure_frame ..) (by decide) ?_
    assumption
    exact .refl _ _
    refine .atInstant (by decide) (by decide) (fun _ _ => ?_) ?_
    refine .step (lsMeasure_frame ..) (by decide) ?_
    assumption
    exact .refl _ _

theorem coilPullEnd_frame (n : Fin 16) (b : Block) :
    Block.Only [.hic, .lsw, .prior, .saf, .tide] b (coilPullEnd n b) := by
  unfold coilPullEnd
  with_reducible
    try lift_lets
    intro xx
    clear_value xx
    refine .ite _ ?_ ?_
    refine .afterTicks (by decide) (by decide) (fun _ _ => ?_) ?_
    refine .step (coilRelease_frame ..) (by decide) ?_
    refine .step (updLs_frame ..) (by decide) ?_
    assumption
    exact .refl _ _
    exact .refl _ _

theorem coilLearn_frame (n : Fin 16) (x : SwitchReading) (b : Block) :
    Block.Only [.lsw, .prior, .tide] b (coilLearn n x b) := by
  unfold coilLearn
  with_reducible
    try lift_lets
    intro xx
    clear_value xx
    refine .ite _ ?_ ?_
    refine .afterTicks (by decide) (by decide) (fun _ _ => ?_) ?_
    refine .step (updLs_frame ..) (by decide) ?_
    assumption
    exact .refl _ _
    exact .refl _ _

theorem switchOvertemp_frame (c : SwitchChan) (b : Block) :
    Block.Only [.arb, .bri, .btn, .cwy, .cwyX, .dmp, .hic, .imd, .imdG, .key, .lau, .legal, .lsw, .mlk, .pea, .plc, .plcCfg, .qmg, .saf, .safX, .sess, .slt, .veh] b (switchOvertemp c b) := by
  unfold switchOvertemp
  with_reducible
    split
    refine .ite _ ?_ ?_
    exact .refl _ _
    refine .step (protectHs_frame ..) (by decide) ?_
    exact .refl _ _
    refine .ite _ ?_ ?_
    exact .refl _ _
    refine .step (lsProtect_frame ..) (by decide) ?_
    refine .step (irq_frame ..) (by decide) ?_
    exact .refl _ _

theorem thermalRestart_frame (c : Fin 40) (b : Block) :
    Block.Only [.hic, .lsw, .saf] b (thermalRestart c b) := by
  unfold thermalRestart
  with_reducible
    try lift_lets
    intro xx
    clear_value xx
    try lift_lets
    intro xx
    clear_value xx
    try lift_lets
    intro xx
    refine Block.Only.viaVar xx ?_ (fun _ => ?_) <;> [simp only [xx]; clear_value xx]
    refine .step (driveHs_frame ..) (by decide) ?_
    refine .step (updHs_frame ..) (by decide) ?_
    exact .refl _ _
    refine .ite _ ?_ ?_
    exact .refl _ _
    refine .ite _ ?_ ?_
    refine .step (updHs_frame ..) (by decide) ?_
    exact .refl _ _
    refine .ite _ ?_ ?_
    refine .step (updHs_frame ..) (by decide) ?_
    exact .refl _ _
    refine .step (updHs_frame ..) (by decide) ?_
    assumption

theorem vinRange_frame (v : U16) (b : Block) :
    Block.Only [.hic, .lsw, .saf] b (vinRange v b) := by
  unfold vinRange
  with_reducible
    try lift_lets
    intro xx
    clear_value xx
    try lift_lets
    intro xx
    refine Block.Only.viaVar xx ?_ (fun _ => ?_) <;> [simp only [xx]; clear_value xx]
    refine .step (updLsw_frame ..) (by decide) ?_
    exact .refl _ _
    refine .ite _ ?_ ?_
    assumption
    refine .ite _ ?_ ?_
    refine .forAll (fun _ _ _ => ?_) _ ?_
    refine .step (coilStart_frame ..) (by decide) ?_
    refine .step (updLs_frame ..) (by decide) ?_
    assumption
    refine .step (driveAll_frame ..) (by decide) ?_
    refine .step (irq_frame ..) (by decide) ?_
    refine .step (updLsw_frame ..) (by decide) ?_
    assumption
    refine .forAll (fun _ _ _ => ?_) _ ?_
    refine .step (updLs_frame ..) (by decide) ?_
    assumption
    refine .step (driveAll_frame ..) (by decide) ?_
    refine .step (irq_frame ..) (by decide) ?_
    refine .step (updLsw_frame ..) (by decide) ?_
    assumption

theorem shedOne_frame (b : Block) :
    Block.Only [.hic, .lsw, .saf] b (shedOne b) := by
  unfold shedOne
  with_reducible
    split
    exact .refl _ _
    refine .step (driveHs_frame ..) (by decide) ?_
    refine .step (irq_frame ..) (by decide) ?_
    refine .step (updHs_frame ..) (by decide) ?_
    refine .step (updLsw_frame ..) (by decide) ?_
    exact .refl _ _

theorem packageCheck_frame (b : Block) :
    Block.Only [.hic, .lsw, .saf] b (packageCheck b) := by
  unfold packageCheck
  with_reducible
    try lift_lets
    intro xx
    clear_value xx
    try lift_lets
    intro xx
    clear_value xx
    try lift_lets
    intro xx
    clear_value xx
    try lift_lets
    intro xx
    clear_value xx
    try lift_lets
    intro xx
    clear_value xx
    try lift_lets
    intro xx
    clear_value xx
    try lift_lets
    intro xx
    refine Block.Only.viaVar xx ?_ (fun _ => ?_) <;> [simp only [xx]; clear_value xx]
    refine .onlyIf _ (fun _ _ => ?_) ?_
    refine .step (irq_frame ..) (by decide) ?_
    assumption
    refine .step (updLsw_frame ..) (by decide) ?_
    exact .refl _ _
    refine .onlyIf _ (fun _ _ => ?_) ?_
    refine .step (shedOne_frame ..) (by decide) ?_
    assumption
    assumption

theorem limpEnter_frame (b : Block) :
    Block.Only [.hic, .lsw, .saf, .safX] b (limpEnter b) := by
  unfold limpEnter
  with_reducible
    try lift_lets
    intro xx
    refine Block.Only.viaVar xx ?_ (fun _ => ?_) <;> [simp only [xx]; clear_value xx]
    refine .step (irq_frame ..) (by decide) ?_
    refine .step (updLsw_frame ..) (by decide) ?_
    exact .refl _ _
    refine .ite _ ?_ ?_
    exact .refl _ _
    refine .forAll (fun _ _ _ => ?_) _ ?_
    refine .step (lsOff_frame ..) (by decide) ?_
    assumption
    refine .step (driveAll_frame ..) (by decide) ?_
    refine .set_lsw ?_ _ (by decide)
    assumption

theorem limpRelease_frame (c : Fin 40) (b : Block) :
    Block.Only [.hic, .lsw, .saf] b (limpRelease c b) := by
  unfold limpRelease
  with_reducible
    refine .ite _ ?_ ?_
    refine .step (driveHs_frame ..) (by decide) ?_
    refine .step (irq_frame ..) (by decide) ?_
    refine .step (updHs_frame ..) (by decide) ?_
    exact .refl _ _
    exact .refl _ _

theorem limpEnd_frame (b : Block) :
    Block.Only [.hic, .lsw, .saf] b (limpEnd b) := by
  unfold limpEnd
  with_reducible
    refine .step (driveAll_frame ..) (by decide) ?_
    refine .step (updLsw_frame ..) (by decide) ?_
    refine .forAll (fun _ _ _ => ?_) _ ?_
    refine .step (limpRelease_frame ..) (by decide) ?_
    assumption
    exact .refl _ _

theorem limpInputSet_frame (j : Fin 8) (on : Bool) (b : Block) :
    Block.Only [.hic, .lsw, .saf] b (limpInputSet j on b) := by
  unfold limpInputSet
  with_reducible
    refine .step (driveAll_frame ..) (by decide) ?_
    refine .step (updLsw_frame ..) (by decide) ?_
    exact .refl _ _

theorem limpMapLost_frame (b : Block) :
    Block.Only [.hic, .lsw, .saf] b (limpMapLost b) := by
  unfold limpMapLost
  with_reducible
    refine .step (driveAll_frame ..) (by decide) ?_
    refine .step (irq_frame ..) (by decide) ?_
    refine .step (updLsw_frame ..) (by decide) ?_
    exact .refl _ _

theorem backupChangeover_frame (vbat : Bool) (kept : BackupKept) (b : Block) :
    Block.Only [.backup, .hic, .lsw, .saf] b (backupChangeover vbat kept b) := by
  unfold backupChangeover
  with_reducible
    try lift_lets
    intro xx
    clear_value xx
    split
    refine .set_backup ?_ _ (by decide)
    exact .refl _ _
    refine .onlyIf _ (fun _ _ => ?_) ?_
    refine .step (limpMapLost_frame ..) (by decide) ?_
    assumption
    refine .set_backup ?_ _ (by decide)
    exact .refl _ _
    refine .step (limpMapLost_frame ..) (by decide) ?_
    refine .set_backup ?_ _ (by decide)
    exact .refl _ _

theorem lswSetChannel_frame (m : Fin 4) (b : Block) :
    Block.Only [.arb, .btn, .hic, .lsw, .mbx, .pea, .rpl] b (lswSetChannel m b) := by
  unfold lswSetChannel
  with_reducible
    try lift_lets
    intro xx
    clear_value xx
    try lift_lets
    intro xx
    clear_value xx
    try lift_lets
    intro xx
    clear_value xx
    try lift_lets
    intro xx
    clear_value xx
    refine .checked (by decide) (by decide) (fun _ _ => ?_) ?_
    refine .step (cmdLog_frame ..) (by decide) ?_
    refine .step (ok_frame ..) (by decide) ?_
    refine .step (saveSettings_frame ..) (by decide) ?_
    refine .step (updHs_frame ..) (by decide) ?_
    assumption
    exact .refl _ _

theorem lswSwitch_frame (m : Fin 4) (b : Block) :
    Block.Only [.arb, .btn, .cwy, .cwyX, .dmp, .hic, .lau, .mbx, .pea, .qmg, .rpl] b (lswSwitch m b) := by
  unfold lswSwitch
  with_reducible
    try lift_lets
    intro xx
    clear_value xx
    try lift_lets
    intro xx
    clear_value xx
    try lift_lets
    intro xx
    clear_value xx
    try lift_lets
    intro xx
    clear_value xx
    try lift_lets
    intro (xx : _ → _)
    refine .checked (by decide) (by decide) (fun _ _ => ?_) ?_
    try lift_lets
    intro xx
    clear_value xx
    try lift_lets
    intro xx
    refine Block.Only.viaPair xx ?_ (fun _ => ?_) <;> [simp only [xx]; clear_value xx]
    refine .iteFst _ ?_ ?_
    assumption
    refine .step (submitEntry_frame ..) (by decide) ?_
    assumption
    refine .ite _ ?_ ?_
    refine .iteFst _ ?_ ?_
    refine .step (submitEntry_frame ..) (by decide) ?_
    assumption
    assumption
    refine .step (internalFail_frame ..) (by decide) ?_
    refine .iteFst _ ?_ ?_
    refine .step (submitEntry_frame ..) (by decide) ?_
    assumption
    assumption
    exact .refl _ _

theorem lswGetChannel_frame (m : Fin 4) (b : Block) :
    Block.Only [.mbx, .rpl] b (lswGetChannel m b) := by
  unfold lswGetChannel
  with_reducible
    refine .checked (by decide) (by decide) (fun _ _ => ?_) ?_
    try lift_lets
    intro xx
    clear_value xx
    refine .step (ok_frame ..) (by decide) ?_
    assumption
    exact .refl _ _

theorem lswClearFault_frame (m : Fin 4) (b : Block) :
    Block.Only [.lsw, .mbx, .rpl] b (lswClearFault m b) := by
  unfold lswClearFault
  with_reducible
    try lift_lets
    intro xx
    clear_value xx
    try lift_lets
    intro xx
    clear_value xx
    try lift_lets
    intro xx
    clear_value xx
    refine .checked (by decide) (by decide) (fun _ _ => ?_) ?_
    try lift_lets
    intro xx
    refine Block.Only.viaVar xx ?_ (fun _ => ?_) <;> [simp only [xx]; clear_value xx]
    refine .ite _ ?_ ?_
    refine .forAll (fun _ _ _ => ?_) _ ?_
    refine .step (updHs_frame ..) (by decide) ?_
    assumption
    assumption
    assumption
    refine .step (ok_frame ..) (by decide) ?_
    refine .step (updHs_frame ..) (by decide) ?_
    assumption
    exact .refl _ _

theorem lswSetCoil_frame (m : Fin 4) (b : Block) :
    Block.Only [.arb, .btn, .hic, .lsw, .mbx, .pea, .rpl] b (lswSetCoil m b) := by
  unfold lswSetCoil
  with_reducible
    try lift_lets
    intro xx
    clear_value xx
    try lift_lets
    intro xx
    clear_value xx
    try lift_lets
    intro xx
    clear_value xx
    try lift_lets
    intro xx
    clear_value xx
    try lift_lets
    intro xx
    clear_value xx
    try lift_lets
    intro xx
    clear_value xx
    try lift_lets
    intro xx
    clear_value xx
    try lift_lets
    intro xx
    clear_value xx
    try lift_lets
    intro xx
    clear_value xx
    try lift_lets
    intro xx
    clear_value xx
    try lift_lets
    intro xx
    clear_value xx
    try lift_lets
    intro xx
    clear_value xx
    try lift_lets
    intro xx
    clear_value xx
    try lift_lets
    intro xx
    clear_value xx
    try lift_lets
    intro xx
    clear_value xx
    try lift_lets
    intro xx
    clear_value xx
    refine .checked (by decide) (by decide) (fun _ _ => ?_) ?_
    refine .step (cmdLog_frame ..) (by decide) ?_
    refine .step (ok_frame ..) (by decide) ?_
    refine .step (saveSettings_frame ..) (by decide) ?_
    refine .step (updLs_frame ..) (by decide) ?_
    assumption
    exact .refl _ _

theorem lswGetCoil_frame (m : Fin 4) (b : Block) :
    Block.Only [.mbx, .rpl] b (lswGetCoil m b) := by
  unfold lswGetCoil
  with_reducible
    try lift_lets
    intro xx
    clear_value xx
    try lift_lets
    intro xx
    clear_value xx
    refine .checked (by decide) (by decide) (fun _ _ => ?_) ?_
    refine .step (ok_frame ..) (by decide) ?_
    assumption
    exact .refl _ _

theorem lswSetLimp_frame (m : Fin 4) (b : Block) :
    Block.Only [.arb, .btn, .hic, .lsw, .mbx, .pea, .rpl, .saf] b (lswSetLimp m b) := by
  unfold lswSetLimp
  with_reducible
    try lift_lets
    intro (xx : _ → _)
    try lift_lets
    intro xx
    clear_value xx
    try lift_lets
    intro xx
    clear_value xx
    refine .checked (by decide) (by decide) (fun _ _ => ?_) ?_
    try lift_lets
    intro xx
    clear_value xx
    try lift_lets
    intro xx
    refine Block.Only.viaVar xx ?_ (fun _ => ?_) <;> [simp only [xx]; clear_value xx]
    refine .set_lsw ?_ _ (by decide)
    assumption
    refine .step (cmdLog_frame ..) (by decide) ?_
    refine .step (ok_frame ..) (by decide) ?_
    refine .step (saveSettings_frame ..) (by decide) ?_
    refine .step (driveAll_frame ..) (by decide) ?_
    refine .step (updLsw_frame ..) (by decide) ?_
    assumption
    exact .refl _ _

theorem lswLimpRelease_frame (m : Fin 4) (b : Block) :
    Block.Only [.hic, .lsw, .mbx, .rpl, .saf] b (lswLimpRelease m b) := by
  unfold lswLimpRelease
  with_reducible
    try lift_lets
    intro xx
    clear_value xx
    try lift_lets
    intro xx
    clear_value xx
    try lift_lets
    intro xx
    clear_value xx
    refine .step (ok_frame ..) (by decide) ?_
    refine .forAll (fun _ _ _ => ?_) _ ?_
    refine .step (limpRelease_frame ..) (by decide) ?_
    assumption
    exact .refl _ _

theorem lswClearCounts_frame (m : Fin 4) (b : Block) :
    Block.Only [.lsw, .mbx, .rpl] b (lswClearCounts m b) := by
  unfold lswClearCounts
  with_reducible
    refine .step (ok_frame ..) (by decide) ?_
    refine .step (updLsw_frame ..) (by decide) ?_
    exact .refl _ _

end Sys2Proof.Machine
end

