-- ==== Sys2Proof/Laws/FrameSafety.lean ====
section
/-! SUPPORT. Frames of the operations of Machine/Safety.lean: the units each of them may change. -/

namespace Sys2Proof.Machine

theorem updSafPair_frame (k : Fin 8) (f : SafPair → SafPair) (b : Block) :
    Block.Only [.saf] b (updSafPair k f b) := by
  unfold updSafPair
  with_reducible
    refine .step (updSaf_frame ..) (by decide) ?_
    exact .refl _ _

theorem disagree_frame (b : Block) :
    Block.Only [.arb, .bri, .btn, .cwy, .cwyX, .dmp, .hic, .imd, .imdG, .key, .lau, .legal, .lsw, .mlk, .pea, .plc, .plcCfg, .qmg, .saf, .safX, .sess, .slt, .veh] b (disagree b) := by
  unfold disagree
  with_reducible
    refine .step (contain_frame ..) (by decide) ?_
    refine .step (irq_frame ..) (by decide) ?_
    refine .step (updSaf_frame ..) (by decide) ?_
    exact .refl _ _

theorem noteDecision_frame (chan : Bool) (f : Nat) (b : Block) :
    Block.Only [.safX] b (noteDecision chan f b) := by
  unfold noteDecision
  with_reducible
    refine .ite _ ?_ ?_
    exact .refl _ _
    refine .step (updSafX_frame ..) (by decide) ?_
    exact .refl _ _

theorem tripOver_frame (f : Nat) (b : Block) :
    Block.Only [.safX] b (tripOver f b) := by
  unfold tripOver
  with_reducible
    refine .step (updSafX_frame ..) (by decide) ?_
    exact .refl _ _

theorem tripDecide_frame {l : List Part} {b c : Block} {k : Nat} {dyke hw : Bool} {act : Block → Block} (hs : Part.safX ∈ l)
    (hf : ∀ d, Block.Only l b d → Block.Only l b (act d)) (h : Block.Only l b c) : Block.Only l b (tripDecide k dyke hw act c) := by
  have hl : [Part.safX] ⊆ l := by simp [hs]
  have hn : Block.Only l b (onlyIf hw (noteDecision false k) (onlyIf dyke (noteDecision true k) c)) :=
    .onlyIf _ (fun _ h => .step (noteDecision_frame _ _ _) hl h) (.onlyIf _ (fun _ h => .step (noteDecision_frame _ _ _) hl h) h)
  unfold tripDecide
  dsimp only
  split
  · exact .ite _ (.step (updSafX_frame _ _) hl hn) hn
  · exact .ite _ hn (hf _ (.ite _ hn (.step (updSafX_frame _ _) hl hn)))

theorem disagreeTimeout_frame (b : Block) :
    Block.Only (Part.but [.snaps, .barrier, .fab, .d2d, .cross, .met, .acc, .pq, .slu, .sluCnt, .vehCfg, .v2g, .v2gCfg, .rcm, .rcmTest, .pf, .auth, .backup, .mbx, .hp, .pnl, .frames, .nfc, .rst, .upd, .rpl, .dbg, .settings, .newSettings, .legalSet, .updRec, .kept]) b (disagreeTimeout b) := by
  unfold disagreeTimeout
  with_reducible
    split
    exact .refl _ _
    refine .afterTicks (by decide) (by decide) (fun _ _ => ?_) ?_
    refine .step (disagree_frame ..) (by decide) ?_
    refine .step (updSafX_frame ..) (by decide) ?_
    assumption
    exact .refl _ _

theorem compareDecisions_frame (b : Block) :
    Block.Only [.arb, .bri, .btn, .cwy, .cwyX, .dmp, .hic, .imd, .imdG, .key, .lau, .legal, .lsw, .mlk, .pea, .plc, .plcCfg, .qmg, .saf, .safX, .sess, .slt, .veh] b (compareDecisions b) := by
  unfold compareDecisions
  with_reducible
    try lift_lets
    intro xx
    refine Block.Only.viaVar xx ?_ (fun _ => ?_) <;> [simp only [xx]; clear_value xx]
    refine .step (updSafX_frame ..) (by decide) ?_
    exact .refl _ _
    refine .ite _ ?_ ?_
    refine .step (disagree_frame ..) (by decide) ?_
    refine .step (updSafX_frame ..) (by decide) ?_
    assumption
    assumption

theorem zoneStop_frame (ns : List (Fin 16)) (b : Block) :
    Block.Only [.arb, .bri, .btn, .cwy, .cwyX, .dmp, .hic, .imd, .imdG, .key, .lau, .legal, .lsw, .mlk, .pea, .plc, .plcCfg, .qmg, .saf, .safX, .sess, .slt, .veh] b (zoneStop ns b) := by
  unfold zoneStop
  with_reducible
    try lift_lets
    intro (xx : _ → _)
    split
    exact .refl _ _
    refine .step (contain_frame ..) (by decide) ?_
    refine .forAll (fun _ _ _ => ?_) _ ?_
    refine .step (openWindow_frame ..) (by decide) ?_
    refine .step (updSaf_frame ..) (by decide) ?_
    refine .step (applyOwn_frame ..) (by decide) ?_
    assumption
    exact .refl _ _

theorem pairActs_frame (k : Fin 8) (b : Block) :
    Block.Only [.arb, .bri, .btn, .cwy, .cwyX, .dmp, .hic, .imd, .imdG, .key, .lau, .legal, .lsw, .mlk, .pea, .plc, .plcCfg, .qmg, .saf, .safX, .sess, .slt, .veh] b (pairActs k b) := by
  unfold pairActs
  with_reducible
    try lift_lets
    intro xx
    clear_value xx
    try lift_lets
    intro xx
    refine Block.Only.viaVar xx ?_ (fun _ => ?_) <;> [simp only [xx]; clear_value xx]
    refine .step (irq_frame ..) (by decide) ?_
    refine .step (updSafPair_frame ..) (by decide) ?_
    exact .refl _ _
    refine .ite _ ?_ ?_
    exact .refl _ _
    refine .ite _ ?_ ?_
    refine .step (contain_frame ..) (by decide) ?_
    assumption
    refine .step (zoneStop_frame ..) (by decide) ?_
    assumption

theorem pairDiffer_frame (k : Fin 8) (b : Block) :
    Block.Only [.saf] b (pairDiffer k b) := by
  unfold pairDiffer
  with_reducible
    try lift_lets
    intro xx
    clear_value xx
    refine .step (updSafPair_frame ..) (by decide) ?_
    exact .refl _ _

theorem safetyInputOpen_frame (i : Fin 16) (dyke hw : Bool) (b : Block) :
    Block.Only (Part.but [.snaps, .barrier, .fab, .d2d, .cross, .met, .acc, .pq, .slu, .sluCnt, .vehCfg, .v2g, .v2gCfg, .rcm, .rcmTest, .pf, .auth, .backup, .mbx, .hp, .pnl, .frames, .nfc, .rst, .upd, .rpl, .dbg, .settings, .newSettings, .legalSet, .updRec, .kept]) b (safetyInputOpen i dyke hw b) := by
  unfold safetyInputOpen
  with_reducible
    try lift_lets
    intro xx
    clear_value xx
    refine .ite _ ?_ ?_
    exact .refl _ _
    refine .atInstant (by decide) (by decide) (fun _ _ => ?_) ?_
    try lift_lets
    intro xx
    refine Block.Only.viaVar xx ?_ (fun _ => ?_) <;> [simp only [xx]; clear_value xx]
    refine .step (updSaf_frame ..) (by decide) ?_
    assumption
    refine tripDecide_frame (by decide) (fun _ _ => ?_) ?_
    refine .step (pairActs_frame ..) (by decide) ?_
    assumption
    refine .step (pairDiffer_frame ..) (by decide) ?_
    assumption
    exact .refl _ _

theorem safetyInputClose_frame (i : Fin 16) (b : Block) :
    Block.Only [.saf, .safX] b (safetyInputClose i b) := by
  unfold safetyInputClose
  with_reducible
    try lift_lets
    intro xx
    clear_value xx
    try lift_lets
    intro xx
    refine Block.Only.viaVar xx ?_ (fun _ => ?_) <;> [simp only [xx]; clear_value xx]
    refine .step (updSaf_frame ..) (by decide) ?_
    exact .refl _ _
    refine .ite _ ?_ ?_
    exact .refl _ _
    refine .step (updSafPair_frame ..) (by decide) ?_
    refine .onlyIf _ (fun _ _ => ?_) ?_
    refine .step (tripOver_frame ..) (by decide) ?_
    assumption
    refine .step (pairDiffer_frame ..) (by decide) ?_
    assumption

theorem pairCheck_frame (x : TestPulse) (k : Fin 8) (b : Block) :
    Block.Only [.arb, .bri, .btn, .cwy, .cwyX, .dmp, .hic, .imd, .imdG, .key, .lau, .legal, .lsw, .mlk, .pea, .plc, .plcCfg, .qmg, .saf, .safX, .sess, .slt, .veh] b (pairCheck x k b) := by
  unfold pairCheck
  with_reducible
    try lift_lets
    intro xx
    clear_value xx
    try lift_lets
    intro xx
    clear_value xx
    try lift_lets
    intro xx
    clear_value xx
    try lift_lets
    intro xx
    refine Block.Only.viaVar xx ?_ (fun _ => ?_) <;> [simp only [xx]; clear_value xx]
    refine .step (updSafX_frame ..) (by decide) ?_
    refine .step (updSafPair_frame ..) (by decide) ?_
    exact .refl _ _
    refine .ite _ ?_ ?_
    exact .refl _ _
    refine .ite _ ?_ ?_
    refine .step (updSafPair_frame ..) (by decide) ?_
    exact .refl _ _
    refine tripDecide_frame (by decide) (fun _ _ => ?_) ?_
    refine .step (pairActs_frame ..) (by decide) ?_
    assumption
    refine .onlyIf _ (fun _ _ => ?_) ?_
    refine .step (irq_frame ..) (by decide) ?_
    assumption
    assumption

theorem testPulse_frame (x : TestPulse) (b : Block) :
    Block.Only (Part.but [.snaps, .barrier, .fab, .d2d, .cross, .met, .acc, .pq, .slu, .sluCnt, .vehCfg, .v2g, .v2gCfg, .rcm, .rcmTest, .pf, .auth, .backup, .mbx, .hp, .pnl, .frames, .nfc, .rst, .upd, .rpl, .dbg, .settings, .newSettings, .legalSet, .updRec, .kept]) b (testPulse x b) := by
  unfold testPulse
  with_reducible
    try lift_lets
    intro xx
    clear_value xx
    refine .ite _ ?_ ?_
    exact .refl _ _
    refine .atInstant (by decide) (by decide) (fun _ _ => ?_) ?_
    try lift_lets
    intro xx
    refine Block.Only.viaVar xx ?_ (fun _ => ?_) <;> [simp only [xx]; clear_value xx]
    refine .step (updSafX_frame ..) (by decide) ?_
    refine .step (updSaf_frame ..) (by decide) ?_
    assumption
    refine .step (compareDecisions_frame ..) (by decide) ?_
    refine .forAll (fun _ _ _ => ?_) _ ?_
    refine .step (pairCheck_frame ..) (by decide) ?_
    assumption
    refine .onlyIf _ (fun _ _ => ?_) ?_
    refine .step (tripOver_frame ..) (by decide) ?_
    assumption
    assumption
    exact .refl _ _

theorem pairFaultClear_frame (k : Fin 8) (b : Block) :
    Block.Only [.saf, .safX] b (pairFaultClear k b) := by
  unfold pairFaultClear
  with_reducible
    try lift_lets
    intro xx
    clear_value xx
    refine .ite _ ?_ ?_
    refine .step (updSafPair_frame ..) (by decide) ?_
    refine .step (tripOver_frame ..) (by decide) ?_
    exact .refl _ _
    exact .refl _ _

theorem ilkFault_frame (a b' cross overload dyke hw : Bool) (b : Block) :
    Block.Only [.arb, .bri, .btn, .cwy, .cwyX, .dmp, .hic, .imd, .imdG, .key, .lau, .legal, .lsw, .mlk, .pea, .plc, .plcCfg, .qmg, .saf, .safX, .sess, .slt, .veh] b (ilkFault a b' cross overload dyke hw b) := by
  unfold ilkFault
  with_reducible
    try lift_lets
    intro xx
    refine Block.Only.viaVar xx ?_ (fun _ => ?_) <;> [simp only [xx]; clear_value xx]
    refine .step (updSaf_frame ..) (by decide) ?_
    exact .refl _ _
    refine tripDecide_frame (by decide) (fun _ _ => ?_) ?_
    refine .ite _ ?_ ?_
    refine .step (contain_frame ..) (by decide) ?_
    refine .step (irq_frame ..) (by decide) ?_
    assumption
    assumption
    assumption

theorem dykeAliveTimeout_frame (b : Block) :
    Block.Only [.arb, .bri, .btn, .cwy, .cwyX, .dmp, .hic, .imd, .imdG, .key, .lau, .legal, .lsw, .mlk, .pea, .plc, .plcCfg, .qmg, .saf, .safX, .sess, .slt, .veh] b (dykeAliveTimeout b) := by
  unfold dykeAliveTimeout
  with_reducible
    try lift_lets
    intro xx
    refine Block.Only.viaVar xx ?_ (fun _ => ?_) <;> [simp only [xx]; clear_value xx]
    refine .step (updSaf_frame ..) (by decide) ?_
    exact .refl _ _
    refine .ite _ ?_ ?_
    exact .refl _ _
    refine .step (disagree_frame ..) (by decide) ?_
    refine .forAll (fun _ _ _ => ?_) _ ?_
    refine .step (lsOff_frame ..) (by decide) ?_
    refine .step (updNode_frame ..) (by decide) ?_
    assumption
    assumption

theorem ovTrip_frame (n : Fin 16) (dyke hw : Bool) (b : Block) :
    Block.Only [.arb, .bri, .btn, .cwy, .cwyX, .dmp, .hic, .imd, .imdG, .key, .lau, .legal, .lsw, .mlk, .pea, .plc, .plcCfg, .qmg, .saf, .safX, .sess, .slt, .veh] b (ovTrip n dyke hw b) := by
  unfold ovTrip
  with_reducible
    refine tripDecide_frame (by decide) (fun _ _ => ?_) ?_
    refine .ite _ ?_ ?_
    assumption
    refine .step (contain_frame ..) (by decide) ?_
    refine .step (irq_frame ..) (by decide) ?_
    refine .step (updNode_frame ..) (by decide) ?_
    assumption
    exact .refl _ _

theorem ovRelease_frame (n : Fin 16) (b : Block) :
    Block.Only [.hic, .lsw, .saf, .safX] b (ovRelease n b) := by
  unfold ovRelease
  with_reducible
    refine .step (reviewHw_frame ..) (by decide) ?_
    refine .step (updNode_frame ..) (by decide) ?_
    refine .step (tripOver_frame ..) (by decide) ?_
    exact .refl _ _

theorem pilotBackup_frame (n : Fin 16) (b : Block) :
    Block.Only [.arb, .bri, .btn, .cwy, .cwyX, .dmp, .hic, .imd, .imdG, .key, .lau, .legal, .lsw, .mlk, .pea, .plc, .plcCfg, .qmg, .saf, .safX, .sess, .slt, .veh] b (pilotBackup n b) := by
  unfold pilotBackup
  with_reducible
    try lift_lets
    intro xx
    clear_value xx
    refine .ite _ ?_ ?_
    refine .step (disagree_frame ..) (by decide) ?_
    refine .step (lsOff_frame ..) (by decide) ?_
    refine .step (updNode_frame ..) (by decide) ?_
    exact .refl _ _
    exact .refl _ _

theorem rampedStop_frame (n : Fin 16) (b : Block) :
    Block.Only [.arb, .bri, .btn, .cwy, .cwyX, .dmp, .hic, .imd, .imdG, .key, .lau, .legal, .lsw, .pea, .plc, .plcCfg, .prior, .qmg, .saf, .safX, .sess, .slt, .tide, .veh] b (rampedStop n b) := by
  unfold rampedStop
  with_reducible
    split
    exact .refl _ _
    refine .ite _ ?_ ?_
    refine .step (rampedOpen_frame ..) (by decide) ?_
    exact .refl _ _
    refine .afterTicks (by decide) (by decide) (fun _ _ => ?_) ?_
    refine .step (rampedOpen_frame ..) (by decide) ?_
    assumption
    exact .refl _ _

theorem closeTimeout_frame (n : Fin 16) (b : Block) :
    Block.Only (Part.but [.snaps, .barrier, .fab, .d2d, .cross, .met, .acc, .pq, .slu, .sluCnt, .vehCfg, .v2g, .v2gCfg, .rcm, .rcmTest, .pf, .auth, .backup, .mbx, .hp, .pnl, .frames, .nfc, .rst, .upd, .rpl, .dbg, .settings, .newSettings, .legalSet, .updRec, .kept]) b (closeTimeout n b) := by
  unfold closeTimeout
  with_reducible
    split
    exact .refl _ _
    refine .afterTicks (by decide) (by decide) (fun _ _ => ?_) ?_
    refine .step (contactorFault_frame ..) (by decide) ?_
    refine .step (updNode_frame ..) (by decide) ?_
    assumption
    exact .refl _ _

theorem stuckSupply_frame (n : Fin 16) (b : Block) :
    Block.Only [.arb, .bri, .btn, .cwy, .cwyX, .dmp, .hic, .imd, .imdG, .key, .lau, .legal, .lsw, .mlk, .pea, .plc, .plcCfg, .qmg, .saf, .safX, .sess, .slt, .veh] b (stuckSupply n b) := by
  unfold stuckSupply
  with_reducible
    try lift_lets
    intro xx
    clear_value xx
    try lift_lets
    intro xx
    refine Block.Only.viaVar xx ?_ (fun _ => ?_) <;> [simp only [xx]; clear_value xx]
    refine .step (hsEntry_frame ..) (by decide) ?_
    exact .refl _ _
    refine .ite _ ?_ ?_
    refine .ite _ ?_ ?_
    refine .step (deviceFault_frame ..) (by decide) ?_
    assumption
    assumption
    exact .refl _ _

theorem openCheck_frame (n : Fin 16) (b : Block) :
    Block.Only (Part.but [.snaps, .barrier, .fab, .d2d, .cross, .met, .acc, .pq, .slu, .sluCnt, .vehCfg, .v2g, .v2gCfg, .rcm, .rcmTest, .pf, .auth, .backup, .mbx, .hp, .pnl, .frames, .nfc, .rst, .upd, .rpl, .dbg, .settings, .newSettings, .legalSet, .updRec, .kept]) b (openCheck n b) := by
  unfold openCheck
  with_reducible
    split
    exact .refl _ _
    refine .ite _ ?_ ?_
    refine .afterTicks (by decide) (by decide) (fun _ _ => ?_) ?_
    refine .step (contain_frame ..) (by decide) ?_
    refine .step (irq_frame ..) (by decide) ?_
    refine .step (updNode_frame ..) (by decide) ?_
    assumption
    exact .refl _ _
    refine .afterTicks (by decide) (by decide) (fun _ _ => ?_) ?_
    refine .step (stuckSupply_frame ..) (by decide) ?_
    refine .step (irqs_frame ..) (by decide) ?_
    refine .step (updLs_frame ..) (by decide) ?_
    refine .step (updNode_frame ..) (by decide) ?_
    assumption
    exact .refl _ _

theorem resetPulse_frame (dyke hw : Nat) (b : Block) :
    Block.Only [.arb, .bri, .btn, .cwy, .cwyX, .dmp, .hic, .imd, .imdG, .key, .lau, .legal, .lsw, .mlk, .pea, .plc, .plcCfg, .qmg, .saf, .safX, .sess, .slt, .veh] b (resetPulse dyke hw b) := by
  unfold resetPulse
  with_reducible
    try lift_lets
    intro xx
    clear_value xx
    try lift_lets
    intro xx
    refine Block.Only.viaVar xx ?_ (fun _ => ?_) <;> [simp only [xx]; clear_value xx]
    refine .step (updSafX_frame ..) (by decide) ?_
    exact .refl _ _
    refine .ite _ ?_ ?_
    exact .refl _ _
    refine .ite _ ?_ ?_
    refine .step (irq_frame ..) (by decide) ?_
    refine .step (updSaf_frame ..) (by decide) ?_
    assumption
    refine .ite _ ?_ ?_
    refine .step (disagree_frame ..) (by decide) ?_
    assumption
    refine .step (irqLog_frame ..) (by decide) ?_
    refine .step (updSafX_frame ..) (by decide) ?_
    assumption

theorem armExpired_frame (b : Block) :
    Block.Only [.prior, .saf, .tide] b (armExpired b) := by
  unfold armExpired
  with_reducible
    split
    exact .refl _ _
    refine .atInstant (by decide) (by decide) (fun _ _ => ?_) ?_
    refine .step (updSaf_frame ..) (by decide) ?_
    assumption
    exact .refl _ _

theorem coverLifted_frame (n : Fin 16) (b : Block) :
    Block.Only [.arb, .auth, .btn, .cwy, .cwyX, .dmp, .hic, .imd, .imdG, .lau, .lsw, .plc, .plcCfg, .qmg, .saf, .safX, .sess, .v2g, .veh] b (coverLifted n b) := by
  unfold coverLifted
  with_reducible
    try lift_lets
    intro xx
    clear_value xx
    try lift_lets
    intro xx
    refine Block.Only.viaVar xx ?_ (fun _ => ?_) <;> [simp only [xx]; clear_value xx]
    refine .ite _ ?_ ?_
    refine .ite _ ?_ ?_
    refine .step (toIdle_frame ..) (by decide) ?_
    exact .refl _ _
    refine .step (enterPhase_frame ..) (by decide) ?_
    exact .refl _ _
    exact .refl _ _
    refine .ite _ ?_ ?_
    exact .refl _ _
    refine .step (unlockIfDue_frame ..) (by decide) ?_
    refine .step (dutyReview_frame ..) (by decide) ?_
    assumption

theorem clearLock_frame (s : CScope) (b : Block) :
    Block.Only [.arb, .auth, .btn, .cwy, .cwyX, .dmp, .hic, .imd, .imdG, .lau, .lsw, .mlk, .pea, .plc, .plcCfg, .qmg, .saf, .safX, .sess, .v2g, .veh] b (clearLock s b) := by
  unfold clearLock
  with_reducible
    try lift_lets
    intro xx
    clear_value xx
    try lift_lets
    intro xx
    clear_value xx
    try lift_lets
    intro xx
    refine Block.Only.viaVar xx ?_ (fun _ => ?_) <;> [simp only [xx]; clear_value xx]
    split
    refine .step (updLs_frame ..) (by decide) ?_
    refine .step (updNode_frame ..) (by decide) ?_
    exact .refl _ _
    refine .step (updSaf_frame ..) (by decide) ?_
    exact .refl _ _
    refine .step (updSaf_frame ..) (by decide) ?_
    exact .refl _ _
    refine .step (reviewHw_frame ..) (by decide) ?_
    refine .step (reviewHub_frame ..) (by decide) ?_
    refine .forAll (fun _ _ _ => ?_) _ ?_
    refine .step (coverLifted_frame ..) (by decide) ?_
    assumption
    refine .step (saveSafety_frame ..) (by decide) ?_
    refine .step (lockoutLog_frame ..) (by decide) ?_
    refine .step (irq_frame ..) (by decide) ?_
    refine .onlyIf _ (fun _ _ => ?_) ?_
    refine .forAll (fun _ _ _ => ?_) _ ?_
    refine .step (updNode_frame ..) (by decide) ?_
    assumption
    assumption
    assumption

theorem safResetAck_frame (m : Fin 4) (b : Block) :
    Block.Only [.arb, .auth, .btn, .cwy, .cwyX, .dmp, .hic, .imd, .imdG, .lau, .lsw, .mbx, .mlk, .pea, .plc, .plcCfg, .qmg, .rpl, .saf, .safX, .sess, .v2g, .veh] b (safResetAck m b) := by
  unfold safResetAck
  with_reducible
    try lift_lets
    intro xx
    clear_value xx
    try lift_lets
    intro xx
    clear_value xx
    try lift_lets
    intro xx
    clear_value xx
    try lift_lets
    intro (xx : _ → _)
    refine .checked (by decide) (by decide) (fun _ _ => ?_) ?_
    try lift_lets
    intro xx
    refine Block.Only.viaVar xx ?_ (fun _ => ?_) <;> [simp only [xx]; clear_value xx]
    refine .step (updSaf_frame ..) (by decide) ?_
    assumption
    refine .ite _ ?_ ?_
    refine .step (refuse_frame ..) (by decide) ?_
    assumption
    refine .ite _ ?_ ?_
    refine .step (refuse_frame ..) (by decide) ?_
    assumption
    refine .step (cmdLog_frame ..) (by decide) ?_
    refine .step (ok_frame ..) (by decide) ?_
    refine .step (endEpisode_frame ..) (by decide) ?_
    refine .forAll (fun _ _ _ => ?_) _ ?_
    refine .step (clearLock_frame ..) (by decide) ?_
    assumption
    assumption
    exact .refl _ _

theorem escalate_frame (w : Containment) (b : Block) :
    Block.Only [.arb, .bri, .btn, .cwy, .cwyX, .dmp, .hic, .imd, .imdG, .key, .lau, .legal, .lsw, .mlk, .pea, .plc, .plcCfg, .qmg, .saf, .safX, .sess, .slt, .veh] b (escalate w b) := by
  unfold escalate
  with_reducible
    try lift_lets
    intro xx
    clear_value xx
    try lift_lets
    intro xx
    clear_value xx
    try lift_lets
    intro xx
    clear_value xx
    try lift_lets
    intro xx
    clear_value xx
    try lift_lets
    intro xx
    refine Block.Only.viaVar xx ?_ (fun _ => ?_) <;> [simp only [xx]; clear_value xx]
    refine .step (irq_frame ..) (by decide) ?_
    refine .step (updSaf_frame ..) (by decide) ?_
    exact .refl _ _
    split
    refine .step (openWindow_frame ..) (by decide) ?_
    refine .step (applyLane_frame ..) (by decide) ?_
    assumption
    refine .step (openWindow_frame ..) (by decide) ?_
    refine .step (applyHub_frame ..) (by decide) ?_
    assumption

theorem windowExpired_frame (b : Block) :
    Block.Only (Part.but [.snaps, .barrier, .fab, .d2d, .cross, .met, .acc, .pq, .slu, .sluCnt, .vehCfg, .v2g, .v2gCfg, .rcm, .rcmTest, .pf, .auth, .backup, .mbx, .hp, .pnl, .frames, .nfc, .rst, .upd, .rpl, .dbg, .settings, .newSettings, .legalSet, .updRec, .kept]) b (windowExpired b) := by
  unfold windowExpired
  with_reducible
    split
    exact .refl _ _
    refine .atInstant (by decide) (by decide) (fun _ _ => ?_) ?_
    try lift_lets
    intro xx
    refine Block.Only.viaVar xx ?_ (fun _ => ?_) <;> [simp only [xx]; clear_value xx]
    refine .step (updSaf_frame ..) (by decide) ?_
    assumption
    refine .ite _ ?_ ?_
    refine .step (escalate_frame ..) (by decide) ?_
    assumption
    refine .step (endEpisode_frame ..) (by decide) ?_
    assumption
    exact .refl _ _

theorem safGetStatus_frame (m : Fin 4) (b : Block) :
    Block.Only [.mbx, .rpl] b (safGetStatus m b) := by
  unfold safGetStatus
  with_reducible
    refine .step (ok_frame ..) (by decide) ?_
    exact .refl _ _

theorem pairUnused_frame (k : Fin 8) (b : Block) :
    Block.Only [.saf, .safX] b (pairUnused k b) := by
  unfold pairUnused
  with_reducible
    refine .step (tripOver_frame ..) (by decide) ?_
    refine .step (tripOver_frame ..) (by decide) ?_
    refine .step (updSaf_frame ..) (by decide) ?_
    exact .refl _ _

theorem safSetConfig_frame (m : Fin 4) (b : Block) :
    Block.Only (Part.but [.tide, .snaps, .barrier, .fab, .d2d, .cross, .met, .acc, .pq, .slu, .sluCnt, .vehCfg, .v2g, .v2gCfg, .rcm, .rcmTest, .pf, .auth, .backup, .hp, .pnl, .frames, .nfc, .rst, .upd, .dbg, .settings, .newSettings, .legalSet, .updRec, .kept, .prior]) b (safSetConfig m b) := by
  unfold safSetConfig
  with_reducible
    try lift_lets
    intro (xx : _ → _)
    try lift_lets
    intro xx
    clear_value xx
    try lift_lets
    intro xx
    clear_value xx
    refine .checked (by decide) (by decide) (fun _ _ => ?_) ?_
    try lift_lets
    intro xx
    refine Block.Only.viaVar xx ?_ (fun _ => ?_) <;> [simp only [xx]; clear_value xx]
    refine .step (updSaf_frame ..) (by decide) ?_
    assumption
    refine .step (cmdLog_frame ..) (by decide) ?_
    refine .step (ok_frame ..) (by decide) ?_
    refine .step (legalLog_frame ..) (by decide) ?_
    refine .step (saveSettings_frame ..) (by decide) ?_
    refine .step (updSaf_frame ..) (by decide) ?_
    refine .step (updSafX_frame ..) (by decide) ?_
    refine .forAll (fun _ _ _ => ?_) _ ?_
    refine .ite _ ?_ ?_
    refine .step (pairUnused_frame ..) (by decide) ?_
    assumption
    refine .ite _ ?_ ?_
    refine .step (pairActs_frame ..) (by decide) ?_
    assumption
    assumption
    assumption
    exact .refl _ _

theorem safGetNode_frame (m : Fin 4) (b : Block) :
    Block.Only [.mbx, .rpl] b (safGetNode m b) := by
  unfold safGetNode
  with_reducible
    try lift_lets
    intro xx
    clear_value xx
    try lift_lets
    intro xx
    clear_value xx
    refine .checked (by decide) (by decide) (fun _ _ => ?_) ?_
    refine .step (ok_frame ..) (by decide) ?_
    assumption
    exact .refl _ _

theorem safGetFaults_frame (m : Fin 4) (b : Block) :
    Block.Only [.mbx, .rpl] b (safGetFaults m b) := by
  unfold safGetFaults
  with_reducible
    refine .step (ok_frame ..) (by decide) ?_
    exact .refl _ _

theorem safClearCounts_frame (m : Fin 4) (b : Block) :
    Block.Only [.mbx, .rpl, .safX] b (safClearCounts m b) := by
  unfold safClearCounts
  with_reducible
    refine .step (ok_frame ..) (by decide) ?_
    refine .step (updSafX_frame ..) (by decide) ?_
    exact .refl _ _

end Sys2Proof.Machine
end

