-- ==== Sys2Proof/Laws/FramePilot.lean ====
section
/-! SUPPORT. Frames of the operations of Machine/Pilot.lean: the units each of them may change. -/

namespace Sys2Proof.Machine

theorem pilotDuty_frame (n : Fin 16) (d : Nat) (b : Block) :
    Block.Only [.veh] b (pilotDuty n d b) := by
  unfold pilotDuty
  with_reducible
    refine .step (updVeh_frame ..) (by decide) ?_
    exact .refl _ _

theorem dutyLost_frame (n : Fin 16) (b : Block) :
    Block.Only [.arb, .btn, .cwy, .cwyX, .dmp, .hic, .lau, .qmg, .veh] b (dutyLost n b) := by
  unfold dutyLost
  with_reducible
    refine .step (dutyReview_frame ..) (by decide) ?_
    refine .step (updVeh_frame ..) (by decide) ?_
    exact .refl _ _

theorem settleDuty_frame (n : Fin 16) (b : Block) :
    Block.Only [.veh] b (settleDuty n b) := by
  unfold settleDuty
  with_reducible
    try lift_lets
    intro xx
    clear_value xx
    refine .step (updVeh_frame ..) (by decide) ?_
    exact .refl _ _

theorem pilotLost_frame (n : Fin 16) (b : Block) :
    Block.Only [.arb, .bri, .btn, .cwy, .cwyX, .dmp, .hic, .imd, .imdG, .key, .lau, .legal, .lsw, .mlk, .pea, .plc, .plcCfg, .qmg, .saf, .safX, .sess, .slt, .veh] b (pilotLost n b) := by
  unfold pilotLost
  with_reducible
    refine .step (contain_frame ..) (by decide) ?_
    refine .step (irq_frame ..) (by decide) ?_
    refine .step (updVeh_frame ..) (by decide) ?_
    exact .refl _ _

theorem pilotCheck_frame (n : Fin 16) (b : Block) :
    Block.Only [.arb, .bri, .btn, .cwy, .cwyX, .dmp, .hic, .imd, .imdG, .key, .lau, .legal, .lsw, .mlk, .pea, .plc, .plcCfg, .qmg, .saf, .safX, .sess, .slt, .veh] b (pilotCheck n b) := by
  unfold pilotCheck
  with_reducible
    refine .onlyIf _ (fun _ _ => ?_) ?_
    refine .step (pilotLost_frame ..) (by decide) ?_
    assumption
    exact .refl _ _

theorem pilotEvent_frame (n : Fin 16) (f : Connector → Connector) (b : Block) :
    Block.Only [.arb, .bri, .btn, .cwy, .cwyX, .dmp, .hic, .imd, .imdG, .key, .lau, .legal, .lsw, .mlk, .pea, .plc, .plcCfg, .qmg, .saf, .safX, .sess, .slt, .veh] b (pilotEvent n f b) := by
  unfold pilotEvent
  with_reducible
    try lift_lets
    intro xx
    clear_value xx
    try lift_lets
    intro xx
    refine Block.Only.viaVar xx ?_ (fun _ => ?_) <;> [simp only [xx]; clear_value xx]
    refine .step (updVeh_frame ..) (by decide) ?_
    exact .refl _ _
    refine .onlyIf _ (fun _ _ => ?_) ?_
    refine .step (pilotCheck_frame ..) (by decide) ?_
    assumption
    assumption

theorem idleIfFree_frame (n : Fin 16) (b : Block) :
    Block.Only [.arb, .auth, .btn, .cwy, .cwyX, .dmp, .hic, .imd, .imdG, .lau, .lsw, .plc, .plcCfg, .qmg, .saf, .safX, .sess, .v2g, .veh] b (idleIfFree n b) := by
  unfold idleIfFree
  with_reducible
    try lift_lets
    intro xx
    clear_value xx
    refine .ite _ ?_ ?_
    refine .step (unlockIfDue_frame ..) (by decide) ?_
    refine .step (toIdle_frame ..) (by decide) ?_
    exact .refl _ _
    exact .refl _ _

theorem connect_frame (n : Fin 16) (b : Block) :
    Block.Only [.arb, .btn, .cwy, .cwyX, .dmp, .hic, .imd, .imdG, .lau, .lsw, .plc, .plcCfg, .qmg, .saf, .safX, .sess, .veh] b (connect n b) := by
  unfold connect
  with_reducible
    try lift_lets
    intro xx
    clear_value xx
    refine .ite _ ?_ ?_
    refine .step (startMove_frame ..) (by decide) ?_
    refine .step (enterPhase_frame ..) (by decide) ?_
    exact .refl _ _
    exact .refl _ _

theorem associate_frame (n : Fin 16) (b : Block) :
    Block.Only [.arb, .btn, .cwy, .cwyX, .dmp, .hic, .imd, .imdG, .lau, .lsw, .plc, .plcCfg, .qmg, .saf, .safX, .sess] b (associate n b) := by
  unfold associate
  with_reducible
    try lift_lets
    intro xx
    clear_value xx
    try lift_lets
    intro xx
    refine Block.Only.viaVar xx ?_ (fun _ => ?_) <;> [simp only [xx]; clear_value xx]
    refine .step (enterPhase_frame ..) (by decide) ?_
    exact .refl _ _
    refine .ite _ ?_ ?_
    refine .set_plc ?_ _ (by decide)
    assumption
    exact .refl _ _

theorem settleStart_frame (n : Fin 16) (b : Block) :
    Block.Only [.arb, .btn, .cwy, .cwyX, .dmp, .hic, .imd, .imdG, .lau, .lsw, .plc, .plcCfg, .qmg, .saf, .safX, .sess, .veh] b (settleStart n b) := by
  unfold settleStart
  with_reducible
    try lift_lets
    intro xx
    clear_value xx
    try lift_lets
    intro (xx : _ → _)
    refine .ite _ ?_ ?_
    exact .refl _ _
    split
    refine .step (updVeh_frame ..) (by decide) ?_
    exact .refl _ _
    refine .ite _ ?_ ?_
    refine .step (updVeh_frame ..) (by decide) ?_
    refine .step (enterPhase_frame ..) (by decide) ?_
    exact .refl _ _
    refine .step (updVeh_frame ..) (by decide) ?_
    exact .refl _ _
    refine .ite _ ?_ ?_
    refine .step (updVeh_frame ..) (by decide) ?_
    refine .step (enterPhase_frame ..) (by decide) ?_
    exact .refl _ _
    refine .step (updVeh_frame ..) (by decide) ?_
    exact .refl _ _
    refine .ite _ ?_ ?_
    refine .step (updVeh_frame ..) (by decide) ?_
    refine .step (enterPhase_frame ..) (by decide) ?_
    exact .refl _ _
    refine .step (updVeh_frame ..) (by decide) ?_
    exact .refl _ _
    exact .refl _ _

theorem pilotReview_frame (n : Fin 16) (b : Block) :
    Block.Only [.arb, .auth, .btn, .cwy, .cwyX, .dmp, .hic, .imd, .imdG, .lau, .lsw, .plc, .plcCfg, .qmg, .saf, .safX, .sess, .v2g, .veh] b (pilotReview n b) := by
  unfold pilotReview
  with_reducible
    refine .step (dutyReview_frame ..) (by decide) ?_
    refine .step (associate_frame ..) (by decide) ?_
    refine .step (connect_frame ..) (by decide) ?_
    refine .step (idleIfFree_frame ..) (by decide) ?_
    refine .step (unlockIfDue_frame ..) (by decide) ?_
    refine .step (settleStart_frame ..) (by decide) ?_
    exact .refl _ _

theorem ppSample_frame (n : Fin 16) (p : Nat) (x : PilotReading) (b : Block) :
    Block.Only [.veh] b (ppSample n p x b) := by
  unfold ppSample
  with_reducible
    refine .step (updVeh_frame ..) (by decide) ?_
    exact .refl _ _

theorem rawSample_frame (n : Fin 16) (raw : CpState) (mis : Bool) (b : Block) :
    Block.Only [.veh] b (rawSample n raw mis b) := by
  unfold rawSample
  with_reducible
    refine .step (updVeh_frame ..) (by decide) ?_
    exact .refl _ _

theorem diodeSample_frame (n : Fin 16) (good : Bool) (b : Block) :
    Block.Only [.veh] b (diodeSample n good b) := by
  unfold diodeSample
  with_reducible
    refine .step (updVeh_frame ..) (by decide) ?_
    exact .refl _ _

theorem pilotHigh_frame (n : Fin 16) (x : PilotReading) (b : Block) :
    Block.Only [.arb, .auth, .btn, .cwy, .cwyX, .dmp, .hic, .imd, .imdG, .lau, .lsw, .plc, .plcCfg, .qmg, .saf, .safX, .sess, .v2g, .veh] b (pilotHigh n x b) := by
  unfold pilotHigh
  with_reducible
    try lift_lets
    intro xx
    clear_value xx
    try lift_lets
    intro xx
    refine Block.Only.viaVar xx ?_ (fun _ => ?_) <;> [simp only [xx]; clear_value xx]
    refine .step (updVeh_frame ..) (by decide) ?_
    exact .refl _ _
    refine .step (pilotReview_frame ..) (by decide) ?_
    refine .step (ppSample_frame ..) (by decide) ?_
    refine .step (rawSample_frame ..) (by decide) ?_
    refine .onlyIf _ (fun _ _ => ?_) ?_
    refine .step (updNode_frame ..) (by decide) ?_
    assumption
    assumption

theorem pilotLow_frame (n : Fin 16) (x : PilotReading) (b : Block) :
    Block.Only [.arb, .auth, .btn, .cwy, .cwyX, .dmp, .hic, .imd, .imdG, .lau, .lsw, .plc, .plcCfg, .qmg, .saf, .safX, .sess, .v2g, .veh] b (pilotLow n x b) := by
  unfold pilotLow
  with_reducible
    try lift_lets
    intro xx
    clear_value xx
    try lift_lets
    intro xx
    clear_value xx
    try lift_lets
    intro xx
    refine Block.Only.viaVar xx ?_ (fun _ => ?_) <;> [simp only [xx]; clear_value xx]
    refine .step (diodeSample_frame ..) (by decide) ?_
    refine .step (updVeh_frame ..) (by decide) ?_
    exact .refl _ _
    refine .ite _ ?_ ?_
    refine .step (pilotReview_frame ..) (by decide) ?_
    refine .step (ppSample_frame ..) (by decide) ?_
    refine .step (rawSample_frame ..) (by decide) ?_
    refine .step (updNode_frame ..) (by decide) ?_
    assumption
    refine .step (updNode_frame ..) (by decide) ?_
    assumption

theorem pilotSample_frame (n : Fin 16) (x : PilotReading) (b : Block) :
    Block.Only [.arb, .auth, .btn, .cwy, .cwyX, .dmp, .hic, .imd, .imdG, .lau, .lsw, .plc, .plcCfg, .prior, .qmg, .saf, .safX, .sess, .tide, .v2g, .veh] b (pilotSample n x b) := by
  unfold pilotSample
  with_reducible
    split
    refine .atInstant (by decide) (by decide) (fun _ _ => ?_) ?_
    split
    refine .step (pilotLow_frame ..) (by decide) ?_
    refine .step (settleDuty_frame ..) (by decide) ?_
    assumption
    refine .step (pilotHigh_frame ..) (by decide) ?_
    refine .step (settleDuty_frame ..) (by decide) ?_
    assumption
    exact .refl _ _
    exact .refl _ _

theorem cpConfirmed_frame (n : Fin 16) (b : Block) :
    Block.Only (Part.but [.snaps, .barrier, .fab, .d2d, .cross, .met, .acc, .pq, .slu, .sluCnt, .vehCfg, .v2gCfg, .rcm, .rcmTest, .pf, .backup, .mbx, .hp, .pnl, .frames, .nfc, .rst, .upd, .rpl, .dbg, .settings, .newSettings, .legalSet, .updRec, .kept]) b (cpConfirmed n b) := by
  unfold cpConfirmed
  with_reducible
    try lift_lets
    intro xx
    clear_value xx
    try lift_lets
    intro xx
    clear_value xx
    refine .ite _ ?_ ?_
    refine .afterTicks (by decide) (by decide) (fun _ _ => ?_) ?_
    try lift_lets
    intro xx
    refine Block.Only.viaVar xx ?_ (fun _ => ?_) <;> [simp only [xx]; clear_value xx]
    refine .step (pilotEvent_frame ..) (by decide) ?_
    refine .step (irq_frame ..) (by decide) ?_
    assumption
    refine .step (pilotReview_frame ..) (by decide) ?_
    split
    refine .step (stopSession_frame ..) (by decide) ?_
    assumption
    refine .ite _ ?_ ?_
    refine .step (stopSession_frame ..) (by decide) ?_
    assumption
    assumption
    assumption
    exact .refl _ _
    exact .refl _ _

theorem diodeConfirmed_frame (n : Fin 16) (b : Block) :
    Block.Only (Part.but [.snaps, .barrier, .fab, .d2d, .cross, .met, .acc, .pq, .slu, .sluCnt, .vehCfg, .v2gCfg, .rcm, .rcmTest, .pf, .backup, .mbx, .hp, .pnl, .frames, .nfc, .rst, .upd, .rpl, .dbg, .settings, .newSettings, .legalSet, .updRec, .kept]) b (diodeConfirmed n b) := by
  unfold diodeConfirmed
  with_reducible
    try lift_lets
    intro xx
    clear_value xx
    try lift_lets
    intro xx
    clear_value xx
    refine .ite _ ?_ ?_
    refine .afterTicks (by decide) (by decide) (fun _ _ => ?_) ?_
    refine .step (pilotEvent_frame ..) (by decide) ?_
    refine .step (irq_frame ..) (by decide) ?_
    assumption
    exact .refl _ _
    refine .ite _ ?_ ?_
    refine .afterTicks (by decide) (by decide) (fun _ _ => ?_) ?_
    refine .step (pilotReview_frame ..) (by decide) ?_
    refine .step (updVeh_frame ..) (by decide) ?_
    assumption
    exact .refl _ _
    exact .refl _ _

theorem senseFault_frame (n : Fin 16) (b : Block) :
    Block.Only [.arb, .bri, .btn, .cwy, .cwyX, .dmp, .hic, .imd, .imdG, .key, .lau, .legal, .lsw, .mlk, .pea, .plc, .plcCfg, .qmg, .saf, .safX, .sess, .slt, .veh] b (senseFault n b) := by
  unfold senseFault
  exact .ite _ (.step (pilotEvent_frame _ _ _) (by decide) <| .step (irq_frame _ _) (by decide) <| .refl _ _) (.refl _ _)

theorem senseClear_frame (n : Fin 16) (b : Block) :
    Block.Only [.arb, .auth, .btn, .cwy, .cwyX, .dmp, .hic, .imd, .imdG, .lau, .lsw, .plc, .plcCfg, .qmg, .saf, .safX, .sess, .v2g, .veh] b (senseClear n b) := by
  unfold senseClear
  with_reducible
    try lift_lets
    intro xx
    clear_value xx
    refine .ite _ ?_ ?_
    refine .step (pilotReview_frame ..) (by decide) ?_
    refine .step (updVeh_frame ..) (by decide) ?_
    exact .refl _ _
    exact .refl _ _

theorem ppConfirmed_frame (n : Fin 16) (b : Block) :
    Block.Only (Part.but [.tide, .snaps, .barrier, .fab, .d2d, .cross, .met, .acc, .pq, .slu, .sluCnt, .vehCfg, .v2gCfg, .rcm, .rcmTest, .pf, .backup, .mbx, .hp, .pnl, .frames, .nfc, .rst, .upd, .rpl, .dbg, .settings, .newSettings, .legalSet, .updRec, .kept, .prior]) b (ppConfirmed n b) := by
  unfold ppConfirmed
  with_reducible
    try lift_lets
    intro xx
    clear_value xx
    refine .ite _ ?_ ?_
    exact .refl _ _
    split
    refine .ite _ ?_ ?_
    refine .step (pilotEvent_frame ..) (by decide) ?_
    refine .step (irq_frame ..) (by decide) ?_
    exact .refl _ _
    exact .refl _ _
    try lift_lets
    intro xx
    clear_value xx
    try lift_lets
    intro (xx : _ → _)
    refine .ite _ ?_ ?_
    exact .refl _ _
    refine .ite _ ?_ ?_
    refine .step (pilotEvent_frame ..) (by decide) ?_
    refine .step (irq_frame ..) (by decide) ?_
    exact .refl _ _
    refine .ite _ ?_ ?_
    exact .refl _ _
    refine .step (pilotReview_frame ..) (by decide) ?_
    refine .step (pilotEvent_frame ..) (by decide) ?_
    refine .step (irq_frame ..) (by decide) ?_
    exact .refl _ _

theorem overTempStep_frame (n : Fin 16) (t : Int) (b : Block) :
    Block.Only [.arb, .bri, .btn, .cwy, .cwyX, .dmp, .hic, .imd, .imdG, .key, .lau, .legal, .lsw, .mlk, .pea, .plc, .plcCfg, .qmg, .saf, .safX, .sess, .slt, .veh] b (overTempStep n t b) := by
  unfold overTempStep
  with_reducible
    try lift_lets
    intro xx
    clear_value xx
    try lift_lets
    intro xx
    clear_value xx
    refine .ite _ ?_ ?_
    refine .step (contain_frame ..) (by decide) ?_
    refine .step (irq_frame ..) (by decide) ?_
    refine .step (updNode_frame ..) (by decide) ?_
    exact .refl _ _
    refine .ite _ ?_ ?_
    refine .step (updNode_frame ..) (by decide) ?_
    exact .refl _ _
    exact .refl _ _

theorem cableTemp_frame (n : Fin 16) (t0 t1 : Option Int) (b : Block) :
    Block.Only [.arb, .bri, .btn, .cwy, .cwyX, .dmp, .hic, .imd, .imdG, .key, .lau, .legal, .lsw, .mlk, .pea, .plc, .plcCfg, .qmg, .saf, .safX, .sess, .slt, .veh] b (cableTemp n t0 t1 b) := by
  unfold cableTemp
  with_reducible
    try lift_lets
    intro xx
    clear_value xx
    try lift_lets
    intro (xx : _ → _)
    try lift_lets
    intro xx
    clear_value xx
    try lift_lets
    intro xx
    refine Block.Only.viaVar xx ?_ (fun _ => ?_) <;> [simp only [xx]; clear_value xx]
    refine .onlyIf _ (fun _ _ => ?_) ?_
    refine .step (irq_frame ..) (by decide) ?_
    assumption
    refine .step (updVeh_frame ..) (by decide) ?_
    exact .refl _ _
    split
    refine .ite _ ?_ ?_
    refine .step (deviceFault_frame ..) (by decide) ?_
    assumption
    assumption
    try lift_lets
    intro xx
    clear_value xx
    try lift_lets
    intro xx
    clear_value xx
    try lift_lets
    intro xx
    clear_value xx
    try lift_lets
    intro xx
    refine Block.Only.viaVar xx ?_ (fun _ => ?_) <;> [simp only [xx]; clear_value xx]
    refine .onlyIf _ (fun _ _ => ?_) ?_
    refine .step (irq_frame ..) (by decide) ?_
    assumption
    refine .step (updSess_frame ..) (by decide) ?_
    refine .step (updVeh_frame ..) (by decide) ?_
    assumption
    refine .step (overTempStep_frame ..) (by decide) ?_
    assumption

theorem cableTempMeasure_frame (n : Fin 16) (x : TempReading) (ref : Nat) (b : Block) :
    Block.Only (Part.but [.snaps, .barrier, .fab, .d2d, .cross, .met, .acc, .pq, .slu, .sluCnt, .vehCfg, .v2g, .v2gCfg, .rcm, .rcmTest, .pf, .auth, .backup, .mbx, .hp, .pnl, .frames, .nfc, .rst, .upd, .rpl, .dbg, .settings, .newSettings, .legalSet, .updRec, .kept]) b (cableTempMeasure n x ref b) := by
  unfold cableTempMeasure
  with_reducible
    try lift_lets
    intro (xx : _ → _)
    split
    refine .afterTicks (by decide) (by decide) (fun _ _ => ?_) ?_
    refine .step (cableTemp_frame ..) (by decide) ?_
    assumption
    exact .refl _ _
    refine .step (cableTemp_frame ..) (by decide) ?_
    exact .refl _ _

theorem moveOff_frame (n : Fin 16) (mv : LockMove) (b : Block) :
    Block.Only [.arb, .btn, .cwy, .cwyX, .dmp, .hic, .lau, .qmg] b (moveOff n mv b) := by
  unfold moveOff
  with_reducible
    refine .step (hsEntry_frame ..) (by decide) ?_
    exact .refl _ _

theorem lockFail_frame (n : Fin 16) (mv : LockMove) (b : Block) :
    Block.Only [.arb, .btn, .cwy, .cwyX, .dmp, .hic, .lau, .mbx, .qmg, .rpl, .veh] b (lockFail n mv b) := by
  unfold lockFail
  with_reducible
    try lift_lets
    intro xx
    refine Block.Only.viaVar xx ?_ (fun _ => ?_) <;> [simp only [xx]; clear_value xx]
    refine .step (moveOff_frame ..) (by decide) ?_
    exact .refl _ _
    refine .ite _ ?_ ?_
    split
    refine .step (refuse_frame ..) (by decide) ?_
    refine .step (irq_frame ..) (by decide) ?_
    refine .step (updVeh_frame ..) (by decide) ?_
    assumption
    refine .step (irq_frame ..) (by decide) ?_
    refine .step (updVeh_frame ..) (by decide) ?_
    assumption
    refine .step (updVeh_frame ..) (by decide) ?_
    assumption

theorem lockVerified_frame (n : Fin 16) (mv : LockMove) (b : Block) :
    Block.Only [.arb, .auth, .btn, .cwy, .cwyX, .dmp, .hic, .imd, .imdG, .lau, .lsw, .mbx, .plc, .plcCfg, .qmg, .rpl, .saf, .safX, .sess, .v2g, .veh] b (lockVerified n mv b) := by
  unfold lockVerified
  with_reducible
    try lift_lets
    intro xx
    clear_value xx
    try lift_lets
    intro xx
    refine Block.Only.viaVar xx ?_ (fun _ => ?_) <;> [simp only [xx]; clear_value xx]
    refine .step (updVeh_frame ..) (by decide) ?_
    exact .refl _ _
    refine .step (pilotReview_frame ..) (by decide) ?_
    split
    refine .step (ok_frame ..) (by decide) ?_
    assumption
    assumption

theorem lockStall_frame (n : Fin 16) (b : Block) :
    Block.Only [.arb, .auth, .btn, .cwy, .cwyX, .dmp, .hic, .imd, .imdG, .lau, .lsw, .mbx, .plc, .plcCfg, .prior, .qmg, .rpl, .saf, .safX, .sess, .tide, .v2g, .veh] b (lockStall n b) := by
  unfold lockStall
  with_reducible
    split
    split
    refine .ite _ ?_ ?_
    exact .refl _ _
    refine .afterTicks (by decide) (by decide) (fun _ _ => ?_) ?_
    refine .ite _ ?_ ?_
    refine .step (lockFail_frame ..) (by decide) ?_
    assumption
    refine .step (lockVerified_frame ..) (by decide) ?_
    assumption
    exact .refl _ _
    exact .refl _ _
    exact .refl _ _

theorem lockTimeout_frame (n : Fin 16) (b : Block) :
    Block.Only [.arb, .btn, .cwy, .cwyX, .dmp, .hic, .lau, .mbx, .prior, .qmg, .rpl, .tide, .veh] b (lockTimeout n b) := by
  unfold lockTimeout
  with_reducible
    split
    try lift_lets
    intro xx
    clear_value xx
    try lift_lets
    intro xx
    clear_value xx
    refine .ite _ ?_ ?_
    exact .refl _ _
    refine .atInstant (by decide) (by decide) (fun _ _ => ?_) ?_
    refine .step (lockFail_frame ..) (by decide) ?_
    assumption
    exact .refl _ _
    exact .refl _ _

theorem lockOpenLoad_frame (n : Fin 16) (b : Block) :
    Block.Only [.arb, .btn, .cwy, .cwyX, .dmp, .hic, .lau, .mbx, .prior, .qmg, .rpl, .tide, .veh] b (lockOpenLoad n b) := by
  unfold lockOpenLoad
  with_reducible
    split
    split
    refine .ite _ ?_ ?_
    exact .refl _ _
    refine .afterTicks (by decide) (by decide) (fun _ _ => ?_) ?_
    refine .step (lockFail_frame ..) (by decide) ?_
    assumption
    exact .refl _ _
    exact .refl _ _
    exact .refl _ _

theorem lockOffDelay_frame (n : Fin 16) (b : Block) :
    Block.Only [.arb, .auth, .btn, .cwy, .cwyX, .dmp, .hic, .imd, .imdG, .lau, .lsw, .plc, .plcCfg, .prior, .qmg, .saf, .safX, .sess, .tide, .v2g, .veh] b (lockOffDelay n b) := by
  unfold lockOffDelay
  with_reducible
    split
    split
    refine .atInstant (by decide) (by decide) (fun _ _ => ?_) ?_
    refine .step (pilotReview_frame ..) (by decide) ?_
    refine .step (updVeh_frame ..) (by decide) ?_
    refine .step (moveOff_frame ..) (by decide) ?_
    assumption
    exact .refl _ _
    exact .refl _ _
    exact .refl _ _

theorem lockRetry_frame (n : Fin 16) (b : Block) :
    Block.Only [.arb, .btn, .cwy, .cwyX, .dmp, .hic, .lau, .prior, .qmg, .tide, .veh] b (lockRetry n b) := by
  unfold lockRetry
  with_reducible
    split
    split
    refine .atInstant (by decide) (by decide) (fun _ _ => ?_) ?_
    try lift_lets
    intro xx
    clear_value xx
    try lift_lets
    intro xx
    clear_value xx
    refine .step (hsEntry_frame ..) (by decide) ?_
    refine .step (updVeh_frame ..) (by decide) ?_
    assumption
    exact .refl _ _
    exact .refl _ _
    exact .refl _ _

theorem lockEntryLost_frame (c : Nat) (b : Block) :
    Block.Only [.arb, .btn, .cwy, .cwyX, .dmp, .hic, .lau, .mbx, .qmg, .rpl, .veh] b (lockEntryLost c b) := by
  unfold lockEntryLost
  with_reducible
    refine .forAll (fun _ _ _ => ?_) _ ?_
    split
    refine .ite _ ?_ ?_
    refine .step (lockFail_frame ..) (by decide) ?_
    assumption
    assumption
    assumption
    exact .refl _ _

theorem cpRestartEnd_frame (n : Fin 16) (b : Block) :
    Block.Only [.arb, .btn, .cwy, .cwyX, .dmp, .hic, .lau, .prior, .qmg, .tide, .veh] b (cpRestartEnd n b) := by
  unfold cpRestartEnd
  with_reducible
    split
    exact .refl _ _
    refine .atInstant (by decide) (by decide) (fun _ _ => ?_) ?_
    refine .step (dutyReview_frame ..) (by decide) ?_
    refine .step (updVeh_frame ..) (by decide) ?_
    assumption
    exact .refl _ _

theorem vehWrite_frame (a : Nat) (v : U32) (b : Block) :
    Block.Only [.veh] b (vehWrite a v b) := by
  unfold vehWrite
  with_reducible
    refine .dite _ (fun _ => ?_) (fun _ => ?_)
    refine .step (updVeh_frame ..) (by decide) ?_
    exact .refl _ _
    refine .dite _ (fun _ => ?_) (fun _ => ?_)
    refine .step (updVeh_frame ..) (by decide) ?_
    exact .refl _ _
    exact .refl _ _

theorem vehGetConnector_frame (m : Fin 4) (b : Block) :
    Block.Only [.mbx, .rpl] b (vehGetConnector m b) := by
  unfold vehGetConnector
  with_reducible
    try lift_lets
    intro xx
    clear_value xx
    refine .checked (by decide) (by decide) (fun _ _ => ?_) ?_
    refine .step (ok_frame ..) (by decide) ?_
    assumption
    exact .refl _ _

theorem vehSetAvailability_frame (m : Fin 4) (b : Block) :
    Block.Only [.arb, .bri, .btn, .cwy, .cwyX, .dmp, .hic, .imd, .imdG, .key, .lau, .legal, .lsw, .mbx, .pea, .plc, .plcCfg, .qmg, .rpl, .saf, .safX, .sess, .slt, .veh] b (vehSetAvailability m b) := by
  unfold vehSetAvailability
  with_reducible
    try lift_lets
    intro xx
    clear_value xx
    try lift_lets
    intro xx
    clear_value xx
    refine .checked (by decide) (by decide) (fun _ _ => ?_) ?_
    try lift_lets
    intro xx
    refine Block.Only.viaVar xx ?_ (fun _ => ?_) <;> [simp only [xx]; clear_value xx]
    refine .onlyIf _ (fun _ _ => ?_) ?_
    refine .step (stopSession_frame ..) (by decide) ?_
    assumption
    assumption
    refine .step (ok_frame ..) (by decide) ?_
    refine .step (saveSettings_frame ..) (by decide) ?_
    refine .step (dutyReview_frame ..) (by decide) ?_
    refine .step (updVeh_frame ..) (by decide) ?_
    assumption
    exact .refl _ _

theorem vehSetPilotCfg_frame (m : Fin 4) (b : Block) :
    Block.Only [.arb, .hic, .mbx, .pea, .rpl, .vehCfg] b (vehSetPilotCfg m b) := by
  unfold vehSetPilotCfg
  with_reducible
    try lift_lets
    intro xx
    clear_value xx
    refine .checked (by decide) (by decide) (fun _ _ => ?_) ?_
    try lift_lets
    intro xx
    clear_value xx
    refine .step (ok_frame ..) (by decide) ?_
    refine .step (saveSettings_frame ..) (by decide) ?_
    refine .set_vehCfg ?_ _ (by decide)
    assumption
    exact .refl _ _

theorem vehSetPpClass_frame (m : Fin 4) (b : Block) :
    Block.Only [.arb, .btn, .hic, .mbx, .pea, .rpl, .vehCfg] b (vehSetPpClass m b) := by
  unfold vehSetPpClass
  with_reducible
    try lift_lets
    intro xx
    clear_value xx
    try lift_lets
    intro xx
    clear_value xx
    refine .checked (by decide) (by decide) (fun _ _ => ?_) ?_
    try lift_lets
    intro xx
    clear_value xx
    refine .step (cmdLog_frame ..) (by decide) ?_
    refine .step (ok_frame ..) (by decide) ?_
    refine .step (saveSettings_frame ..) (by decide) ?_
    refine .set_vehCfg ?_ _ (by decide)
    assumption
    exact .refl _ _

theorem vehSetDerate_frame (m : Fin 4) (b : Block) :
    Block.Only [.arb, .btn, .hic, .mbx, .pea, .rpl, .vehCfg] b (vehSetDerate m b) := by
  unfold vehSetDerate
  with_reducible
    try lift_lets
    intro xx
    clear_value xx
    try lift_lets
    intro xx
    clear_value xx
    refine .checked (by decide) (by decide) (fun _ _ => ?_) ?_
    try lift_lets
    intro xx
    clear_value xx
    refine .step (cmdLog_frame ..) (by decide) ?_
    refine .step (ok_frame ..) (by decide) ?_
    refine .step (saveSettings_frame ..) (by decide) ?_
    refine .set_vehCfg ?_ _ (by decide)
    assumption
    exact .refl _ _

theorem vehSetLockCfg_frame (m : Fin 4) (b : Block) :
    Block.Only [.arb, .hic, .mbx, .pea, .rpl, .veh, .vehCfg] b (vehSetLockCfg m b) := by
  unfold vehSetLockCfg
  with_reducible
    try lift_lets
    intro xx
    clear_value xx
    try lift_lets
    intro xx
    clear_value xx
    try lift_lets
    intro xx
    clear_value xx
    try lift_lets
    intro xx
    clear_value xx
    try lift_lets
    intro (xx : _ → _)
    refine .checked (by decide) (by decide) (fun _ _ => ?_) ?_
    try lift_lets
    intro xx
    refine Block.Only.viaVar xx ?_ (fun _ => ?_) <;> [simp only [xx]; clear_value xx]
    refine .step (updVeh_frame ..) (by decide) ?_
    assumption
    refine .step (ok_frame ..) (by decide) ?_
    refine .step (saveSettings_frame ..) (by decide) ?_
    refine .set_vehCfg ?_ _ (by decide)
    assumption
    exact .refl _ _

theorem vehLock_frame (m : Fin 4) (b : Block) :
    Block.Only [.arb, .btn, .cwy, .cwyX, .dmp, .hic, .lau, .mbx, .qmg, .rpl, .veh] b (vehLock m b) := by
  unfold vehLock
  with_reducible
    try lift_lets
    intro xx
    clear_value xx
    try lift_lets
    intro xx
    clear_value xx
    try lift_lets
    intro xx
    clear_value xx
    refine .checked (by decide) (by decide) (fun _ _ => ?_) ?_
    refine .step (startMove_frame ..) (by decide) ?_
    assumption
    exact .refl _ _

theorem vehCpRestart_frame (m : Fin 4) (b : Block) :
    Block.Only [.arb, .btn, .cwy, .cwyX, .dmp, .hic, .lau, .mbx, .qmg, .rpl, .veh] b (vehCpRestart m b) := by
  unfold vehCpRestart
  with_reducible
    try lift_lets
    intro xx
    clear_value xx
    try lift_lets
    intro xx
    clear_value xx
    try lift_lets
    intro xx
    clear_value xx
    refine .checked (by decide) (by decide) (fun _ _ => ?_) ?_
    try lift_lets
    intro xx
    clear_value xx
    refine .step (ok_frame ..) (by decide) ?_
    refine .step (dutyReview_frame ..) (by decide) ?_
    refine .step (updVeh_frame ..) (by decide) ?_
    assumption
    exact .refl _ _

theorem vehClearCounts_frame (m : Fin 4) (b : Block) :
    Block.Only [.mbx, .rpl, .veh] b (vehClearCounts m b) := by
  unfold vehClearCounts
  with_reducible
    refine .step (ok_frame ..) (by decide) ?_
    refine .forAll (fun _ _ _ => ?_) _ ?_
    refine .step (updVeh_frame ..) (by decide) ?_
    assumption
    exact .refl _ _

end Sys2Proof.Machine
end

