-- ==== Sys2Proof/Laws/FrameModuleLink.lean ====
section
/-! SUPPORT. Frames of the operations of Machine/ModuleLink.lean: the units each of them may change. -/

namespace Sys2Proof.Machine

theorem updMlk_frame (m : Fin 96) (f : MlkModule → MlkModule) (b : Block) :
    Block.Only [.mlk] b (updMlk m f b) := by
  unfold updMlk
  with_reducible
    try lift_lets
    intro xx
    clear_value xx
    refine .set_mlk ?_ _ (by decide)
    exact .refl _ _

theorem updLane_frame (l : Fin 8) (f : Lane → Lane) (b : Block) :
    Block.Only [.mlk] b (updLane l f b) := by
  unfold updLane
  with_reducible
    try lift_lets
    intro xx
    clear_value xx
    refine .set_mlk ?_ _ (by decide)
    exact .refl _ _

theorem updLink_frame (f : ModLink → ModLink) (b : Block) :
    Block.Only [.mlk] b (updLink f b) := by
  unfold updLink
  with_reducible
    refine .set_mlk ?_ _ (by decide)
    exact .refl _ _

theorem bcastAsk_frame (q : Bcast) (b : Block) :
    Block.Only [.mlk] b (bcastAsk q b) := by
  unfold bcastAsk
  with_reducible
    refine .step (updLink_frame ..) (by decide) ?_
    exact .refl _ _

theorem laneCycle_frame (readback : BitVec 8) (q : Option Bcast) (l : Fin 8) (b : Block) :
    Block.Only [.mlk, .rpl] b (laneCycle readback q l b) := by
  unfold laneCycle
  with_reducible
    try lift_lets
    intro xx
    clear_value xx
    try lift_lets
    intro xx
    clear_value xx
    try lift_lets
    intro xx
    clear_value xx
    try lift_lets
    intro xx
    clear_value xx
    try lift_lets
    intro xx
    refine Block.Only.viaVar xx ?_ (fun _ => ?_) <;> [simp only [xx]; clear_value xx]
    refine .onlyIf _ (fun _ _ => ?_) ?_
    refine .step (traceItem_frame ..) (by decide) ?_
    assumption
    exact .refl _ _
    refine .ite _ ?_ ?_
    refine .step (updLane_frame ..) (by decide) ?_
    assumption
    refine .step (updLane_frame ..) (by decide) ?_
    refine .forAll (fun _ _ _ => ?_) _ ?_
    refine .step (updMlk_frame ..) (by decide) ?_
    assumption
    refine .step (updLane_frame ..) (by decide) ?_
    assumption

theorem enumEnd_frame (b : Block) :
    Block.Only [.arb, .hic, .mbx, .mlk, .pea, .rpl] b (enumEnd b) := by
  unfold enumEnd
  with_reducible
    try lift_lets
    intro xx
    clear_value xx
    try lift_lets
    intro xx
    clear_value xx
    try lift_lets
    intro xx
    refine Block.Only.viaVar xx ?_ (fun _ => ?_) <;> [simp only [xx]; clear_value xx]
    refine .step (irq_frame ..) (by decide) ?_
    refine .step (saveSettings_frame ..) (by decide) ?_
    refine .step (updLink_frame ..) (by decide) ?_
    exact .refl _ _
    split
    refine .step (ok_frame ..) (by decide) ?_
    assumption
    assumption

theorem vetoNoted_frame (l : Fin 8) (p : Fin 12) (crcBad fault oc : Bool) (bits : U8) (tick : Nat) (b : Block) :
    Block.Only [.hic, .mlk] b (vetoNoted l p crcBad fault oc bits tick b) := by
  unfold vetoNoted
  with_reducible
    try lift_lets
    intro xx
    clear_value xx
    try lift_lets
    intro xx
    refine Block.Only.viaVar xx ?_ (fun _ => ?_) <;> [simp only [xx]; clear_value xx]
    refine .step (updLink_frame ..) (by decide) ?_
    exact .refl _ _
    refine .ite _ ?_ ?_
    refine .onlyIf _ (fun _ _ => ?_) ?_
    refine .step (irq_frame ..) (by decide) ?_
    assumption
    refine .step (updMlk_frame ..) (by decide) ?_
    refine .step (updLane_frame ..) (by decide) ?_
    assumption
    assumption

theorem bcastGone_frame (q : Bcast) (b : Block) :
    Block.Only [.hic, .mlk] b (bcastGone q b) := by
  unfold bcastGone
  with_reducible
    refine .ite _ ?_ ?_
    refine .step (updLink_frame ..) (by decide) ?_
    exact .refl _ _
    refine .ite _ ?_ ?_
    refine .forAll (fun _ _ _ => ?_) _ ?_
    refine .ite _ ?_ ?_
    refine .forAll (fun _ _ _ => ?_) _ ?_
    refine .step (vetoNoted_frame ..) (by decide) ?_
    assumption
    assumption
    assumption
    exact .refl _ _
    exact .refl _ _

theorem linkCycle_frame (readback : BitVec 8) (b : Block) :
    Block.Only [.arb, .hic, .mbx, .mlk, .pea, .rpl] b (linkCycle readback b) := by
  unfold linkCycle
  with_reducible
    try lift_lets
    intro xx
    refine Block.Only.viaVar xx ?_ (fun _ => ?_) <;> [simp only [xx]; clear_value xx]
    refine .onlyIf _ (fun _ _ => ?_) ?_
    refine .step (enumEnd_frame ..) (by decide) ?_
    assumption
    exact .refl _ _
    split
    refine .forAll (fun _ _ _ => ?_) _ ?_
    refine .step (laneCycle_frame ..) (by decide) ?_
    assumption
    refine .step (updLink_frame ..) (by decide) ?_
    assumption
    refine .step (bcastGone_frame ..) (by decide) ?_
    refine .forAll (fun _ _ _ => ?_) _ ?_
    refine .step (laneCycle_frame ..) (by decide) ?_
    assumption
    refine .step (updLink_frame ..) (by decide) ?_
    assumption

theorem vetoActs_frame (l : Fin 8) (p : Fin 12) (crcBad fault oc : Bool) (bits : U8) (window : Nat) (b : Block) :
    Block.Only [.hic, .mlk] b (vetoActs l p crcBad fault oc bits window b) := by
  unfold vetoActs
  with_reducible
    refine .step (vetoNoted_frame ..) (by decide) ?_
    refine .step (updMlk_frame ..) (by decide) ?_
    exact .refl _ _

theorem slotFails_frame (l : Fin 8) (p : Fin 12) (preamble : Bool) (b : Block) :
    Block.Only [.hic, .mlk] b (slotFails l p preamble b) := by
  unfold slotFails
  with_reducible
    try lift_lets
    intro xx
    clear_value xx
    try lift_lets
    intro xx
    clear_value xx
    try lift_lets
    intro xx
    clear_value xx
    refine .ite _ ?_ ?_
    exact .refl _ _
    refine .ite _ ?_ ?_
    refine .step (updLane_frame ..) (by decide) ?_
    exact .refl _ _
    refine .onlyIf _ (fun _ _ => ?_) ?_
    refine .step (irq_frame ..) (by decide) ?_
    assumption
    refine .step (updLane_frame ..) (by decide) ?_
    exact .refl _ _

theorem doubleClose_frame (l : Fin 8) (b : Block) :
    Block.Only [.arb, .bri, .btn, .cwy, .cwyX, .dmp, .hic, .imd, .imdG, .key, .lau, .legal, .lsw, .mlk, .pea, .plc, .plcCfg, .qmg, .saf, .safX, .sess, .slt, .veh] b (doubleClose l b) := by
  unfold doubleClose
  with_reducible
    refine .ite _ ?_ ?_
    exact .refl _ _
    refine .step (deviceFault_frame ..) (by decide) ?_
    refine .step (irq_frame ..) (by decide) ?_
    refine .step (updLane_frame ..) (by decide) ?_
    exact .refl _ _

theorem takeRecord_frame (l : Fin 8) (p : Fin 12) (data : List U8) (passed : Bool) (b : Block) :
    Block.Only [.arb, .bri, .btn, .cwy, .cwyX, .dmp, .hic, .imd, .imdG, .key, .lau, .legal, .lsw, .mlk, .pea, .plc, .plcCfg, .qmg, .saf, .safX, .sess, .slt, .veh] b (takeRecord l p data passed b) := by
  unfold takeRecord
  with_reducible
    try lift_lets
    intro xx
    clear_value xx
    try lift_lets
    intro xx
    clear_value xx
    try lift_lets
    intro xx
    clear_value xx
    try lift_lets
    intro xx
    refine Block.Only.viaVar xx ?_ (fun _ => ?_) <;> [simp only [xx]; clear_value xx]
    refine .onlyIf _ (fun _ _ => ?_) ?_
    refine .step (irq_frame ..) (by decide) ?_
    assumption
    refine .step (updMlk_frame ..) (by decide) ?_
    exact .refl _ _
    refine .onlyIf _ (fun _ _ => ?_) ?_
    refine .step (doubleClose_frame ..) (by decide) ?_
    assumption
    assumption

theorem takeIdentity_frame (l : Fin 8) (p : Fin 12) (data : List U8) (b : Block) :
    Block.Only [.mlk] b (takeIdentity l p data b) := by
  unfold takeIdentity
  with_reducible
    try lift_lets
    intro xx
    clear_value xx
    try lift_lets
    intro xx
    clear_value xx
    try lift_lets
    intro xx
    refine Block.Only.viaVar xx ?_ (fun _ => ?_) <;> [simp only [xx]; clear_value xx]
    refine .step (updMlk_frame ..) (by decide) ?_
    exact .refl _ _
    refine .ite _ ?_ ?_
    refine .step (updLane_frame ..) (by decide) ?_
    assumption
    refine .step (updLink_frame ..) (by decide) ?_
    assumption

theorem uplinkEnd_frame (l : Fin 8) (p : Fin 12) (x : UplinkSlot) (b : Block) :
    Block.Only [.arb, .bri, .btn, .cwy, .cwyX, .dmp, .hic, .imd, .imdG, .key, .lau, .legal, .lsw, .mlk, .pea, .plc, .plcCfg, .qmg, .saf, .safX, .sess, .slt, .veh] b (uplinkEnd l p x b) := by
  unfold uplinkEnd
  with_reducible
    try lift_lets
    intro xx
    clear_value xx
    try lift_lets
    intro xx
    clear_value xx
    try lift_lets
    intro xx
    clear_value xx
    try lift_lets
    intro xx
    clear_value xx
    try lift_lets
    intro xx
    clear_value xx
    try lift_lets
    intro xx
    clear_value xx
    try lift_lets
    intro xx
    clear_value xx
    try lift_lets
    intro xx
    clear_value xx
    try lift_lets
    intro xx
    clear_value xx
    try lift_lets
    intro xx
    clear_value xx
    try lift_lets
    intro xx
    refine Block.Only.viaVar xx ?_ (fun _ => ?_) <;> [simp only [xx]; clear_value xx]
    refine .step (updLane_frame ..) (by decide) ?_
    refine .ite _ ?_ ?_
    exact .refl _ _
    refine .step (slotFails_frame ..) (by decide) ?_
    exact .refl _ _
    refine .ite _ ?_ ?_
    refine .step (vetoActs_frame ..) (by decide) ?_
    refine .ite _ ?_ ?_
    refine .step (takeRecord_frame ..) (by decide) ?_
    assumption
    refine .ite _ ?_ ?_
    refine .step (takeIdentity_frame ..) (by decide) ?_
    assumption
    assumption
    refine .step (updLane_frame ..) (by decide) ?_
    refine .ite _ ?_ ?_
    refine .step (takeRecord_frame ..) (by decide) ?_
    assumption
    refine .ite _ ?_ ?_
    refine .step (takeIdentity_frame ..) (by decide) ?_
    assumption
    assumption

theorem uplinkSlot_frame (l : Fin 8) (p : Fin 12) (x : UplinkSlot) (b : Block) :
    Block.Only (Part.but [.snaps, .barrier, .fab, .d2d, .cross, .met, .acc, .pq, .slu, .sluCnt, .vehCfg, .v2g, .v2gCfg, .rcm, .rcmTest, .pf, .auth, .backup, .mbx, .hp, .pnl, .frames, .nfc, .rst, .upd, .rpl, .dbg, .settings, .newSettings, .legalSet, .updRec, .kept]) b (uplinkSlot l p x b) := by
  unfold uplinkSlot
  with_reducible
    refine .ite _ ?_ ?_
    refine .atInstant (by decide) (by decide) (fun _ _ => ?_) ?_
    refine .step (uplinkEnd_frame ..) (by decide) ?_
    refine .step (updLane_frame ..) (by decide) ?_
    assumption
    exact .refl _ _
    exact .refl _ _

theorem ocTrip_frame (n : Fin 16) (b : Block) :
    Block.Only [.arb, .bri, .btn, .cwy, .cwyX, .dmp, .hic, .imd, .imdG, .key, .lau, .legal, .lsw, .mlk, .pea, .plc, .plcCfg, .qmg, .saf, .safX, .sess, .slt, .veh] b (ocTrip n b) := by
  unfold ocTrip
  with_reducible
    try lift_lets
    intro xx
    refine Block.Only.viaVar xx ?_ (fun _ => ?_) <;> [simp only [xx]; clear_value xx]
    refine .step (irq_frame ..) (by decide) ?_
    refine .step (updLink_frame ..) (by decide) ?_
    exact .refl _ _
    refine .ite _ ?_ ?_
    exact .refl _ _
    refine .ite _ ?_ ?_
    refine .step (softFault_frame ..) (by decide) ?_
    assumption
    assumption

theorem ocRelease_frame (n : Fin 16) (b : Block) :
    Block.Only [.mlk] b (ocRelease n b) := by
  unfold ocRelease
  with_reducible
    refine .ite _ ?_ ?_
    refine .step (updLink_frame ..) (by decide) ?_
    exact .refl _ _
    exact .refl _ _

theorem moduleStale_frame (m : Fin 96) (b : Block) :
    Block.Only [.hic, .mlk, .prior, .tide] b (moduleStale m b) := by
  unfold moduleStale
  with_reducible
    try lift_lets
    intro xx
    clear_value xx
    refine .ite _ ?_ ?_
    refine .afterTicks (by decide) (by decide) (fun _ _ => ?_) ?_
    refine .onlyIf _ (fun _ _ => ?_) ?_
    refine .step (irq_frame ..) (by decide) ?_
    assumption
    refine .step (updMlk_frame ..) (by decide) ?_
    assumption
    exact .refl _ _
    exact .refl _ _

theorem laneFault_frame (l : Fin 8) (b : Block) :
    Block.Only [.arb, .bri, .btn, .cwy, .cwyX, .dmp, .hic, .imd, .imdG, .key, .lau, .legal, .lsw, .mlk, .pea, .plc, .plcCfg, .qmg, .saf, .safX, .sess, .slt, .slu, .veh] b (laneFault l b) := by
  unfold laneFault
  with_reducible
    try lift_lets
    intro xx
    clear_value xx
    try lift_lets
    intro xx
    refine Block.Only.viaVar xx ?_ (fun _ => ?_) <;> [simp only [xx]; clear_value xx]
    refine .step (irq_frame ..) (by decide) ?_
    refine .step (updLane_frame ..) (by decide) ?_
    exact .refl _ _
    refine .ite _ ?_ ?_
    refine .step (deviceFault_frame ..) (by decide) ?_
    refine .onlyIf _ (fun _ _ => ?_) ?_
    refine .step (irq_frame ..) (by decide) ?_
    assumption
    refine .set_slu ?_ _ (by decide)
    assumption
    exact .refl _ _

theorem mlkSetpoint_frame (l : Fin 8) (e : Entry) (b : Block) :
    Block.Only [.mlk] b (mlkSetpoint l e b) := by
  unfold mlkSetpoint
  with_reducible
    refine .ite _ ?_ ?_
    exact .refl _ _
    refine .forAll (fun _ _ _ => ?_) _ ?_
    refine .ite _ ?_ ?_
    assumption
    refine .step (updMlk_frame ..) (by decide) ?_
    assumption
    exact .refl _ _

theorem mlkOpen_frame (m : Fin 96) (b : Block) :
    Block.Only [.mlk] b (mlkOpen m b) := by
  unfold mlkOpen
  with_reducible
    refine .step (updMlk_frame ..) (by decide) ?_
    exact .refl _ _

theorem mlkMatch_frame (m : Fin 96) (n : Fin 16) (b : Block) :
    Block.Only [.mlk] b (mlkMatch m n b) := by
  unfold mlkMatch
  with_reducible
    refine .step (updMlk_frame ..) (by decide) ?_
    exact .refl _ _

theorem mlkClose_frame (m : Fin 96) (n : Fin 16) (b : Block) :
    Block.Only [.mlk] b (mlkClose m n b) := by
  unfold mlkClose
  with_reducible
    refine .step (updMlk_frame ..) (by decide) ?_
    exact .refl _ _

theorem mlkWrite_frame (a : Nat) (v : U32) (b : Block) :
    Block.Only [.mlk] b (mlkWrite a v b) := by
  unfold mlkWrite
  with_reducible
    try lift_lets
    intro xx
    clear_value xx
    refine .ite _ ?_ ?_
    refine .set_mlk ?_ _ (by decide)
    exact .refl _ _
    refine .ite _ ?_ ?_
    refine .set_mlk ?_ _ (by decide)
    exact .refl _ _
    exact .refl _ _

theorem mlkGetLane_frame (m : Fin 4) (b : Block) :
    Block.Only [.mbx, .rpl] b (mlkGetLane m b) := by
  unfold mlkGetLane
  with_reducible
    try lift_lets
    intro xx
    clear_value xx
    refine .checked (by decide) (by decide) (fun _ _ => ?_) ?_
    refine .step (ok_frame ..) (by decide) ?_
    assumption
    exact .refl _ _

theorem mlkGetTelemetry_frame (m : Fin 4) (b : Block) :
    Block.Only [.mbx, .rpl] b (mlkGetTelemetry m b) := by
  unfold mlkGetTelemetry
  with_reducible
    try lift_lets
    intro xx
    clear_value xx
    try lift_lets
    intro xx
    clear_value xx
    refine .checked (by decide) (by decide) (fun _ _ => ?_) ?_
    refine .step (ok_frame ..) (by decide) ?_
    assumption
    exact .refl _ _

theorem mlkEnumerate_frame (m : Fin 4) (b : Block) :
    Block.Only [.arb, .hic, .mbx, .mlk, .pea, .rpl] b (mlkEnumerate m b) := by
  unfold mlkEnumerate
  with_reducible
    try lift_lets
    intro xx
    clear_value xx
    refine .checked (by decide) (by decide) (fun _ _ => ?_) ?_
    try lift_lets
    intro xx
    refine Block.Only.viaVar xx ?_ (fun _ => ?_) <;> [simp only [xx]; clear_value xx]
    refine .step (updLink_frame ..) (by decide) ?_
    assumption
    refine .ite _ ?_ ?_
    refine .step (bcastAsk_frame ..) (by decide) ?_
    assumption
    refine .step (enumEnd_frame ..) (by decide) ?_
    assumption
    exact .refl _ _

theorem mlkGetIdentity_frame (m : Fin 4) (b : Block) :
    Block.Only [.mbx, .rpl] b (mlkGetIdentity m b) := by
  unfold mlkGetIdentity
  with_reducible
    try lift_lets
    intro xx
    clear_value xx
    refine .checked (by decide) (by decide) (fun _ _ => ?_) ?_
    refine .step (ok_frame ..) (by decide) ?_
    assumption
    exact .refl _ _

theorem mlkSetEnrolled_frame (m : Fin 4) (b : Block) :
    Block.Only [.arb, .hic, .mbx, .mlk, .pea, .rpl] b (mlkSetEnrolled m b) := by
  unfold mlkSetEnrolled
  with_reducible
    try lift_lets
    intro xx
    clear_value xx
    try lift_lets
    intro xx
    clear_value xx
    try lift_lets
    intro xx
    clear_value xx
    refine .checked (by decide) (by decide) (fun _ _ => ?_) ?_
    refine .step (ok_frame ..) (by decide) ?_
    refine .step (saveSettings_frame ..) (by decide) ?_
    refine .step (updLane_frame ..) (by decide) ?_
    assumption
    exact .refl _ _

theorem mlkSetOc_frame (m : Fin 4) (b : Block) :
    Block.Only [.arb, .btn, .hic, .mbx, .mlk, .pea, .rpl] b (mlkSetOc m b) := by
  unfold mlkSetOc
  with_reducible
    try lift_lets
    intro xx
    clear_value xx
    try lift_lets
    intro xx
    clear_value xx
    refine .checked (by decide) (by decide) (fun _ _ => ?_) ?_
    refine .step (cmdLog_frame ..) (by decide) ?_
    refine .step (ok_frame ..) (by decide) ?_
    refine .step (saveSettings_frame ..) (by decide) ?_
    refine .step (updLink_frame ..) (by decide) ?_
    assumption
    exact .refl _ _

theorem mlkSetVetoMask_frame (m : Fin 4) (b : Block) :
    Block.Only [.arb, .btn, .hic, .mbx, .mlk, .pea, .rpl] b (mlkSetVetoMask m b) := by
  unfold mlkSetVetoMask
  with_reducible
    try lift_lets
    intro xx
    clear_value xx
    refine .checked (by decide) (by decide) (fun _ _ => ?_) ?_
    refine .step (cmdLog_frame ..) (by decide) ?_
    refine .step (ok_frame ..) (by decide) ?_
    refine .step (saveSettings_frame ..) (by decide) ?_
    refine .step (updLink_frame ..) (by decide) ?_
    assumption
    exact .refl _ _

theorem mlkIdentify_frame (m : Fin 4) (b : Block) :
    Block.Only [.mbx, .mlk, .rpl] b (mlkIdentify m b) := by
  unfold mlkIdentify
  with_reducible
    try lift_lets
    intro xx
    clear_value xx
    try lift_lets
    intro xx
    clear_value xx
    try lift_lets
    intro xx
    clear_value xx
    refine .checked (by decide) (by decide) (fun _ _ => ?_) ?_
    refine .step (ok_frame ..) (by decide) ?_
    refine .step (bcastAsk_frame ..) (by decide) ?_
    assumption
    exact .refl _ _

theorem mlkResetLane_frame (m : Fin 4) (b : Block) :
    Block.Only [.mbx, .mlk, .rpl] b (mlkResetLane m b) := by
  unfold mlkResetLane
  with_reducible
    try lift_lets
    intro xx
    clear_value xx
    refine .checked (by decide) (by decide) (fun _ _ => ?_) ?_
    try lift_lets
    intro xx
    clear_value xx
    try lift_lets
    intro xx
    clear_value xx
    refine .step (ok_frame ..) (by decide) ?_
    refine .step (updLane_frame ..) (by decide) ?_
    assumption
    exact .refl _ _

theorem mlkClearCounts_frame (m : Fin 4) (b : Block) :
    Block.Only [.mbx, .mlk, .rpl] b (mlkClearCounts m b) := by
  unfold mlkClearCounts
  with_reducible
    try lift_lets
    intro xx
    clear_value xx
    refine .step (ok_frame ..) (by decide) ?_
    refine .forAll (fun _ _ _ => ?_) _ ?_
    refine .ite _ ?_ ?_
    refine .step (updLane_frame ..) (by decide) ?_
    assumption
    assumption
    exact .refl _ _

end Sys2Proof.Machine
end

