-- ==== Sys2Proof/Laws/FrameHandOver.lean ====
section
/-! SUPPORT. Frames of the operations of Machine/HandOver.lean: the units each of them may change. -/

namespace Sys2Proof.Machine

theorem updSlu_frame (f : Sluice → Sluice) (b : Block) :
    Block.Only [.slu] b (updSlu f b) := by
  unfold updSlu
  with_reducible
    refine .set_slu ?_ _ (by decide)
    exact .refl _ _

theorem updSluMod_frame (m : Fin 96) (f : SluModule → SluModule) (b : Block) :
    Block.Only [.slu] b (updSluMod m f b) := by
  unfold updSluMod
  with_reducible
    refine .step (updSlu_frame ..) (by decide) ?_
    exact .refl _ _

theorem setHo_frame (i : Fin 24) (x : Option HandOver) (b : Block) :
    Block.Only [.slu] b (setHo i x b) := by
  unfold setHo
  with_reducible
    refine .step (updSlu_frame ..) (by decide) ?_
    exact .refl _ _

theorem updHo_frame (i : Fin 24) (f : HandOver → HandOver) (b : Block) :
    Block.Only [.slu] b (updHo i f b) := by
  unfold updHo
  with_reducible
    refine .step (setHo_frame ..) (by decide) ?_
    exact .refl _ _

theorem hoEntry_frame (m : Fin 96) (action : U8) (arg : Option (Fin 16)) (guard : U16) (t : Nat) (b : Block) :
    Block.Only [.arb, .btn, .cwy, .cwyX, .dmp, .hic, .lau, .qmg] b (hoEntry m action arg guard t b) := by
  unfold hoEntry
  with_reducible
    try lift_lets
    intro xx
    clear_value xx
    try lift_lets
    intro xx
    clear_value xx
    refine .step (submit_frame ..) (by decide) ?_
    exact .refl _ _

theorem openEntry_frame (m : Fin 96) (t : Nat) (b : Block) :
    Block.Only [.arb, .btn, .cwy, .cwyX, .dmp, .hic, .lau, .qmg] b (openEntry m t b) := by
  unfold openEntry
  with_reducible
    refine .step (hoEntry_frame ..) (by decide) ?_
    exact .refl _ _

theorem openCommand_frame (m : Fin 96) (b : Block) :
    Block.Only [.arb, .btn, .cwy, .cwyX, .dmp, .hic, .lau, .qmg] b (openCommand m b) := by
  unfold openCommand
  with_reducible
    refine .step (hoEntry_frame ..) (by decide) ?_
    exact .refl _ _

theorem snapshotAt_frame (s : Nat) (b : Block) :
    Block.Only [.arb, .btn, .cwy, .cwyX, .dmp, .hic, .lau, .qmg] b (snapshotAt s b).1 := by
  unfold snapshotAt
  with_reducible
    try lift_lets
    intro (xx : _ → _)
    try lift_lets
    intro xx
    clear_value xx
    try lift_lets
    intro xx
    clear_value xx
    refine .iteFst _ ?_ ?_
    exact .refl _ _
    refine .iteFst _ ?_ ?_
    exact .refl _ _
    refine .step (submit_frame ..) (by decide) ?_
    exact .refl _ _

theorem hoEnd_frame (i : Fin 24) (x : HandOver) (b : Block) :
    Block.Only [.arb, .btn, .cwy, .cwyX, .dmp, .hic, .lau, .pea, .qmg, .slu] b (hoEnd i x b) := by
  unfold hoEnd
  with_reducible
    refine .step (setHo_frame ..) (by decide) ?_
    refine .step (cancelEntries_frame ..) (by decide) ?_
    exact .refl _ _

theorem hoDone_frame (i : Fin 24) (x : HandOver) (b : Block) :
    Block.Only [.arb, .btn, .cwy, .cwyX, .dmp, .hic, .lau, .pea, .qmg, .slu, .sluCnt] b (hoDone i x b) := by
  unfold hoDone
  exact .set_sluCnt (.step (hoEnd_frame _ _ _) (by decide) <| .refl _ _) _ (by decide)

theorem hoAbort_frame (i : Fin 24) (x : HandOver) (b : Block) :
    Block.Only [.arb, .btn, .cwy, .cwyX, .dmp, .hic, .lau, .pea, .qmg, .slu, .sluCnt] b (hoAbort i x b) := by
  unfold hoAbort
  exact .step (irq_frame _ _) (by decide) <| .set_sluCnt (.step (hoEnd_frame _ _ _) (by decide) <| .refl _ _) _ (by decide)

theorem moduleOut_frame (m : Fin 96) (b : Block) :
    Block.Only [.hic, .slu] b (moduleOut m b) := by
  unfold moduleOut
  with_reducible
    refine .ite _ ?_ ?_
    exact .refl _ _
    refine .step (irq_frame ..) (by decide) ?_
    refine .step (updSluMod_frame ..) (by decide) ?_
    exact .refl _ _

theorem selectorFault_frame (i : Fin 24) (x : HandOver) (b : Block) :
    Block.Only [.arb, .btn, .cwy, .cwyX, .dmp, .hic, .lau, .pea, .qmg, .slu, .sluCnt] b (selectorFault i x b) := by
  unfold selectorFault
  with_reducible
    try lift_lets
    intro xx
    refine Block.Only.viaVar xx ?_ (fun _ => ?_) <;> [simp only [xx]; clear_value xx]
    refine .step (hoAbort_frame ..) (by decide) ?_
    exact .refl _ _
    refine .step (moduleOut_frame ..) (by decide) ?_
    refine .step (irq_frame ..) (by decide) ?_
    refine .set_sluCnt ?_ _ (by decide)
    assumption

theorem zcFail_frame (i : Fin 24) (x : HandOver) (b : Block) :
    Block.Only (Part.but [.tide, .snaps, .barrier, .fab, .d2d, .cross, .met, .acc, .pq, .vehCfg, .v2g, .v2gCfg, .rcm, .rcmTest, .pf, .auth, .backup, .mbx, .hp, .pnl, .frames, .nfc, .rst, .upd, .rpl, .dbg, .settings, .newSettings, .legalSet, .updRec, .kept, .prior]) b (zcFail i x b) := by
  have h : Block.Only (Part.but [.tide, .snaps, .barrier, .fab, .d2d, .cross, .met, .acc, .pq, .vehCfg, .v2g, .v2gCfg, .rcm, .rcmTest, .pf, .auth, .backup, .mbx, .hp, .pnl, .frames, .nfc, .rst, .upd, .rpl, .dbg, .settings, .newSettings, .legalSet, .updRec, .kept, .prior]) b
      (moduleOut x.module (irq 130 { hoAbort i x b with sluCnt := { (hoAbort i x b).sluCnt with zcFail := satInc (hoAbort i x b).sluCnt.zcFail } })) :=
    .step (moduleOut_frame _ _) (by decide) <| .step (irq_frame _ _) (by decide) <| .set_sluCnt (.step (hoAbort_frame _ _ _) (by decide) <| .refl _ _) _ (by decide)
  unfold zcFail
  dsimp only
  split
  · exact .step (softFault_frame _ _ _) (by decide) h
  · exact h

theorem hoNew_frame (m : Fin 96) (from_ to_ : Option (Fin 16)) (stage : Stage) (B : U64) (b : Block) :
    Block.Only [.sess, .slu] b (hoNew m from_ to_ stage B b) := by
  unfold hoNew
  with_reducible
    try lift_lets
    intro xx
    refine Block.Only.viaVar xx ?_ (fun _ => ?_) <;> [simp only [xx]; clear_value xx]
    split
    refine .step (updSess_frame ..) (by decide) ?_
    exact .refl _ _
    exact .refl _ _
    split
    exact .refl _ _
    try lift_lets
    intro xx
    refine Block.Only.viaVar xx ?_ (fun _ => ?_) <;> [simp only [xx]; clear_value xx]
    refine .step (setHo_frame ..) (by decide) ?_
    assumption
    refine .step (updSlu_frame ..) (by decide) ?_
    assumption

theorem hoPass_frame (i : Fin 24) (H : Nat) (b : Block) :
    Block.Only [.arb, .btn, .cwy, .cwyX, .dmp, .hic, .lau, .qmg, .slu] b (hoPass i H b) := by
  unfold hoPass
  with_reducible
    try lift_lets
    intro xx
    refine Block.Only.viaPair xx ?_ (fun _ => ?_) <;> [simp only [xx]; clear_value xx]
    refine .step (snapshotAt_frame ..) (by decide) ?_
    exact .refl _ _
    split
    exact .refl _ _
    try lift_lets
    intro xx
    refine Block.Only.viaVar xx ?_ (fun _ => ?_) <;> [simp only [xx]; clear_value xx]
    refine .step (updSluMod_frame ..) (by decide) ?_
    assumption
    refine .step (openEntry_frame ..) (by decide) ?_
    refine .step (updHo_frame ..) (by decide) ?_
    assumption

theorem hoMatch_frame (i : Fin 24) (t : Nat) (b : Block) :
    Block.Only [.arb, .btn, .cwy, .cwyX, .dmp, .hic, .lau, .qmg, .slu] b (hoMatch i t b) := by
  unfold hoMatch
  with_reducible
    split
    exact .refl _ _
    refine .step (hoEntry_frame ..) (by decide) ?_
    refine .step (updHo_frame ..) (by decide) ?_
    exact .refl _ _

theorem hoClose_frame (i : Fin 24) (t : Nat) (b : Block) :
    Block.Only [.arb, .btn, .cwy, .cwyX, .dmp, .hic, .lau, .qmg, .slu] b (hoClose i t b) := by
  unfold hoClose
  with_reducible
    split
    exact .refl _ _
    try lift_lets
    intro xx
    clear_value xx
    refine .step (hoEntry_frame ..) (by decide) ?_
    refine .step (updHo_frame ..) (by decide) ?_
    exact .refl _ _

theorem verifyOne_frame (k : SnapBank) (i : Fin 24) (x : HandOver) (b : Block) :
    Block.Only [.slu] b (verifyOne k i x b) := by
  unfold verifyOne
  with_reducible
    split
    try lift_lets
    intro xx
    clear_value xx
    refine .ite _ ?_ ?_
    refine .step (updHo_frame ..) (by decide) ?_
    refine .step (updSluMod_frame ..) (by decide) ?_
    exact .refl _ _
    exact .refl _ _
    exact .refl _ _

theorem verifyStop_frame (k : SnapBank) (n : Fin 16) (b : Block) :
    Block.Only [.arb, .bri, .btn, .cwy, .cwyX, .dmp, .hic, .imd, .imdG, .key, .lau, .legal, .lsw, .pea, .plc, .plcCfg, .qmg, .saf, .safX, .sess, .slt, .veh] b (verifyStop k n b) := by
  unfold verifyStop
  with_reducible
    try lift_lets
    intro xx
    clear_value xx
    try lift_lets
    intro xx
    clear_value xx
    try lift_lets
    intro xx
    refine Block.Only.viaVar xx ?_ (fun _ => ?_) <;> [simp only [xx]; clear_value xx]
    refine .step (updSess_frame ..) (by decide) ?_
    exact .refl _ _
    refine .ite _ ?_ ?_
    refine .ite _ ?_ ?_
    refine .ite _ ?_ ?_
    refine .step (rampedOpen_frame ..) (by decide) ?_
    assumption
    assumption
    refine .ite _ ?_ ?_
    refine .step (updSess_frame ..) (by decide) ?_
    refine .step (snapshotAt_frame ..) (by decide) ?_
    exact .refl _ _
    exact .refl _ _
    exact .refl _ _

theorem handoverVerify_frame (b : Block) :
    Block.Only (Part.but [.snaps, .barrier, .fab, .d2d, .cross, .met, .acc, .pq, .sluCnt, .mlk, .vehCfg, .v2g, .v2gCfg, .rcm, .rcmTest, .pf, .auth, .backup, .mbx, .hp, .pnl, .frames, .nfc, .rst, .upd, .rpl, .dbg, .settings, .newSettings, .legalSet, .updRec, .kept]) b (handoverVerify b) := by
  unfold handoverVerify
  with_reducible
    try lift_lets
    intro xx
    clear_value xx
    refine .ite _ ?_ ?_
    exact .refl _ _
    refine .afterTicks (by decide) (by decide) (fun _ _ => ?_) ?_
    refine .forAll (fun _ _ _ => ?_) _ ?_
    refine .step (verifyStop_frame ..) (by decide) ?_
    assumption
    refine .eachHo (fun _ _ _ _ => ?_) ?_
    refine .step (verifyOne_frame ..) (by decide) ?_
    assumption
    refine .step (updSlu_frame ..) (by decide) ?_
    assumption
    exact .refl _ _

theorem verifyAgain_frame (i : Fin 24) (x : HandOver) (b : Block) :
    Block.Only [.arb, .btn, .cwy, .cwyX, .dmp, .hic, .lau, .qmg, .slu] b (verifyAgain i x b) := by
  unfold verifyAgain
  with_reducible
    try lift_lets
    intro xx
    refine Block.Only.viaPair xx ?_ (fun _ => ?_) <;> [simp only [xx]; clear_value xx]
    refine .step (snapshotAt_frame ..) (by decide) ?_
    exact .refl _ _
    refine .step (openEntry_frame ..) (by decide) ?_
    refine .step (updHo_frame ..) (by decide) ?_
    refine .step (updSluMod_frame ..) (by decide) ?_
    assumption

theorem openResolved_frame (i : Fin 24) (x : HandOver) (s : U8) (t : U64) (b : Block) :
    Block.Only (Part.but [.tide, .snaps, .barrier, .fab, .d2d, .cross, .met, .acc, .pq, .vehCfg, .v2g, .v2gCfg, .rcm, .rcmTest, .pf, .auth, .backup, .mbx, .hp, .pnl, .frames, .nfc, .rst, .upd, .rpl, .dbg, .settings, .newSettings, .legalSet, .updRec, .kept, .prior]) b (openResolved i x s t b) := by
  unfold openResolved
  with_reducible
    refine .ite _ ?_ ?_
    refine .step (updHo_frame ..) (by decide) ?_
    exact .refl _ _
    refine .ite _ ?_ ?_
    exact .refl _ _
    refine .ite _ ?_ ?_
    refine .ite _ ?_ ?_
    refine .step (zcFail_frame ..) (by decide) ?_
    exact .refl _ _
    refine .step (hoAbort_frame ..) (by decide) ?_
    exact .refl _ _
    refine .ite _ ?_ ?_
    refine .step (verifyAgain_frame ..) (by decide) ?_
    exact .refl _ _
    refine .step (openEntry_frame ..) (by decide) ?_
    refine .step (updHo_frame ..) (by decide) ?_
    exact .refl _ _

theorem matchResolved_frame (i : Fin 24) (x : HandOver) (s : U8) (t : U64) (b : Block) :
    Block.Only [.arb, .btn, .cwy, .cwyX, .dmp, .hic, .lau, .pea, .qmg, .slu, .sluCnt] b (matchResolved i x s t b) := by
  unfold matchResolved
  with_reducible
    refine .ite _ ?_ ?_
    refine .step (updHo_frame ..) (by decide) ?_
    exact .refl _ _
    refine .ite _ ?_ ?_
    exact .refl _ _
    refine .step (hoAbort_frame ..) (by decide) ?_
    exact .refl _ _

theorem closeResolved_frame (i : Fin 24) (x : HandOver) (s : U8) (t : U64) (b : Block) :
    Block.Only [.arb, .btn, .cwy, .cwyX, .dmp, .hic, .lau, .pea, .qmg, .slu, .sluCnt] b (closeResolved i x s t b) := by
  unfold closeResolved
  with_reducible
    refine .ite _ ?_ ?_
    refine .step (updHo_frame ..) (by decide) ?_
    refine .step (updSluMod_frame ..) (by decide) ?_
    exact .refl _ _
    refine .ite _ ?_ ?_
    exact .refl _ _
    refine .ite _ ?_ ?_
    refine .step (hoAbort_frame ..) (by decide) ?_
    exact .refl _ _
    refine .step (updHo_frame ..) (by decide) ?_
    exact .refl _ _

theorem rampDropped_frame (n : Option (Fin 16)) (b : Block) :
    Block.Only [.sess] b (rampDropped n b) := by
  unfold rampDropped
  with_reducible
    split
    refine .ite _ ?_ ?_
    exact .refl _ _
    refine .step (updSess_frame ..) (by decide) ?_
    exact .refl _ _
    exact .refl _ _

theorem setpointsStay_frame (l : Fin 8) (t : U64) (b : Block) :
    Block.Only [.slu] b (setpointsStay l t b) := by
  unfold setpointsStay
  with_reducible
    refine .step (updSlu_frame ..) (by decide) ?_
    exact .refl _ _

theorem laneLate_frame (l : Fin 8) (t : U64) (b : Block) :
    Block.Only [.arb, .btn, .cwy, .cwyX, .dmp, .hic, .lau, .pea, .qmg, .sess, .slu, .sluCnt] b (laneLate l t b) := by
  unfold laneLate
  with_reducible
    refine .eachHo (fun _ _ _ _ => ?_) ?_
    refine .ite _ ?_ ?_
    refine .step (rampDropped_frame ..) (by decide) ?_
    refine .step (hoAbort_frame ..) (by decide) ?_
    assumption
    assumption
    refine .step (setpointsStay_frame ..) (by decide) ?_
    exact .refl _ _

theorem sluResolved_frame (r : Nat) (e : Entry) (s : U8) (t : U64) (b : Block) :
    Block.Only (Part.but [.tide, .snaps, .barrier, .fab, .d2d, .cross, .met, .acc, .pq, .vehCfg, .v2g, .v2gCfg, .rcm, .rcmTest, .pf, .auth, .backup, .mbx, .hp, .pnl, .frames, .nfc, .rst, .upd, .rpl, .dbg, .settings, .newSettings, .legalSet, .updRec, .kept, .prior]) b (sluResolved r e s t b) := by
  unfold sluResolved
  with_reducible
    refine .dite _ (fun _ => ?_) (fun _ => ?_)
    try lift_lets
    intro xx
    clear_value xx
    refine .ite _ ?_ ?_
    refine .ite _ ?_ ?_
    refine .step (laneLate_frame ..) (by decide) ?_
    exact .refl _ _
    exact .refl _ _
    split
    exact .refl _ _
    split
    exact .refl _ _
    refine .ite _ ?_ ?_
    refine .ite _ ?_ ?_
    refine .step (openResolved_frame ..) (by decide) ?_
    exact .refl _ _
    exact .refl _ _
    refine .ite _ ?_ ?_
    refine .ite _ ?_ ?_
    refine .step (matchResolved_frame ..) (by decide) ?_
    exact .refl _ _
    exact .refl _ _
    refine .ite _ ?_ ?_
    refine .step (closeResolved_frame ..) (by decide) ?_
    exact .refl _ _
    exact .refl _ _
    exact .refl _ _

theorem moduleLeft_frame (m : Fin 96) (n : Fin 16) (since_ : Option U64) (b : Block) :
    Block.Only [.arb, .btn, .cwy, .cwyX, .dmp, .hic, .imd, .imdG, .lau, .qmg, .slu] b (moduleLeft m n since_ b) := by
  unfold moduleLeft
  with_reducible
    try lift_lets
    intro xx
    clear_value xx
    try lift_lets
    intro xx
    refine Block.Only.viaVar xx ?_ (fun _ => ?_) <;> [simp only [xx]; clear_value xx]
    refine .step (imdTopology_frame ..) (by decide) ?_
    refine .step (updSluMod_frame ..) (by decide) ?_
    exact .refl _ _
    refine .onlyIf _ (fun _ _ => ?_) ?_
    refine .step (moduleOut_frame ..) (by decide) ?_
    assumption
    split
    refine .step (imdDisturb_frame ..) (by decide) ?_
    assumption
    assumption

theorem followContacts_frame (c : Nat) (m : Fin 96) (b : Block) :
    Block.Only [.arb, .btn, .cwy, .cwyX, .dmp, .hic, .imd, .imdG, .lau, .pea, .qmg, .slu, .sluCnt] b (followContacts c m b) := by
  unfold followContacts
  with_reducible
    split
    exact .refl _ _
    refine .ite _ ?_ ?_
    exact .refl _ _
    split
    refine .step (moduleLeft_frame ..) (by decide) ?_
    exact .refl _ _
    split
    exact .refl _ _
    refine .ite _ ?_ ?_
    exact .refl _ _
    refine .step (moduleLeft_frame ..) (by decide) ?_
    refine .ite _ ?_ ?_
    refine .step (hoAbort_frame ..) (by decide) ?_
    exact .refl _ _
    refine .step (hoEnd_frame ..) (by decide) ?_
    exact .refl _ _

theorem evaluateOne_frame (c : Nat) (i : Fin 24) (x : HandOver) (b : Block) :
    Block.Only [.arb, .btn, .cwy, .cwyX, .dmp, .hic, .imd, .imdG, .lau, .pea, .qmg, .slu, .sluCnt] b (evaluateOne c i x b) := by
  unfold evaluateOne
  with_reducible
    try lift_lets
    intro xx
    clear_value xx
    split
    split
    refine .ite _ ?_ ?_
    refine .step (updHo_frame ..) (by decide) ?_
    exact .refl _ _
    exact .refl _ _
    exact .refl _ _
    split
    refine .ite _ ?_ ?_
    refine .step (updHo_frame ..) (by decide) ?_
    exact .refl _ _
    exact .refl _ _
    exact .refl _ _
    exact .refl _ _
    split
    try lift_lets
    intro xx
    refine Block.Only.viaVar xx ?_ (fun _ => ?_) <;> [simp only [xx]; clear_value xx]
    refine .step (moduleLeft_frame ..) (by decide) ?_
    exact .refl _ _
    refine .ite _ ?_ ?_
    split
    refine .step (hoDone_frame ..) (by decide) ?_
    assumption
    refine .step (hoMatch_frame ..) (by decide) ?_
    assumption
    exact .refl _ _
    refine .step (hoDone_frame ..) (by decide) ?_
    exact .refl _ _
    split
    dsimp (zetaDelta := true) only
    split
    refine .step (hoAbort_frame ..) (by decide) ?_
    exact .refl _ _
    exact .refl _ _
    dsimp (zetaDelta := true) only
    split
    refine .ite _ ?_ ?_
    refine .step (hoClose_frame ..) (by decide) ?_
    refine .step (updHo_frame ..) (by decide) ?_
    exact .refl _ _
    refine .step (updHo_frame ..) (by decide) ?_
    exact .refl _ _
    exact .refl _ _
    split
    refine .ite _ ?_ ?_
    refine .step (openCommand_frame ..) (by decide) ?_
    refine .step (hoAbort_frame ..) (by decide) ?_
    exact .refl _ _
    refine .ite _ ?_ ?_
    refine .step (imdDisturb_frame ..) (by decide) ?_
    refine .step (imdTopology_frame ..) (by decide) ?_
    refine .step (updHo_frame ..) (by decide) ?_
    exact .refl _ _
    exact .refl _ _
    refine .ite _ ?_ ?_
    refine .step (hoAbort_frame ..) (by decide) ?_
    exact .refl _ _
    exact .refl _ _
    refine .ite _ ?_ ?_
    refine .step (hoAbort_frame ..) (by decide) ?_
    exact .refl _ _
    split
    refine .ite _ ?_ ?_
    refine .step (hoDone_frame ..) (by decide) ?_
    exact .refl _ _
    exact .refl _ _
    exact .refl _ _

theorem leaveAdmission_frame (n : Fin 16) (b : Block) :
    Block.Only [.arb, .bri, .btn, .cwy, .cwyX, .dmp, .hic, .imd, .imdG, .key, .lau, .legal, .lsw, .mlk, .pea, .plc, .plcCfg, .qmg, .saf, .safX, .sess, .slt, .veh] b (leaveAdmission n b) := by
  unfold leaveAdmission
  with_reducible
    try lift_lets
    intro xx
    clear_value xx
    refine .ite _ ?_ ?_
    refine .step (pilotCheck_frame ..) (by decide) ?_
    refine .step (enterPhase_frame ..) (by decide) ?_
    exact .refl _ _
    exact .refl _ _

theorem handoverEvaluate_frame (b : Block) :
    Block.Only (Part.but [.snaps, .barrier, .fab, .d2d, .cross, .met, .acc, .pq, .vehCfg, .v2g, .v2gCfg, .rcm, .rcmTest, .pf, .auth, .backup, .mbx, .hp, .pnl, .frames, .nfc, .rst, .upd, .rpl, .dbg, .settings, .newSettings, .legalSet, .updRec, .kept]) b (handoverEvaluate b) := by
  unfold handoverEvaluate
  with_reducible
    try lift_lets
    intro xx
    clear_value xx
    refine .atInstant (by decide) (by decide) (fun _ _ => ?_) ?_
    try lift_lets
    intro xx
    refine Block.Only.viaVar xx ?_ (fun _ => ?_) <;> [simp only [xx]; clear_value xx]
    refine .step (updSlu_frame ..) (by decide) ?_
    assumption
    refine .forAll (fun _ _ _ => ?_) _ ?_
    refine .step (leaveAdmission_frame ..) (by decide) ?_
    assumption
    refine .eachHo (fun _ _ _ _ => ?_) ?_
    refine .step (evaluateOne_frame ..) (by decide) ?_
    assumption
    refine .forAll (fun _ _ _ => ?_) _ ?_
    refine .step (followContacts_frame ..) (by decide) ?_
    assumption
    assumption
    exact .refl _ _

theorem handoverTimeout_frame (i : Fin 24) (b : Block) :
    Block.Only [.arb, .btn, .cwy, .cwyX, .dmp, .hic, .lau, .pea, .prior, .qmg, .slu, .sluCnt, .tide] b (handoverTimeout i b) := by
  unfold handoverTimeout
  with_reducible
    split
    exact .refl _ _
    split
    refine .afterTicks (by decide) (by decide) (fun _ _ => ?_) ?_
    refine .step (selectorFault_frame ..) (by decide) ?_
    assumption
    exact .refl _ _
    refine .afterTicks (by decide) (by decide) (fun _ _ => ?_) ?_
    refine .step (hoAbort_frame ..) (by decide) ?_
    assumption
    exact .refl _ _
    refine .afterTicks (by decide) (by decide) (fun _ _ => ?_) ?_
    refine .step (openCommand_frame ..) (by decide) ?_
    refine .step (selectorFault_frame ..) (by decide) ?_
    assumption
    exact .refl _ _
    exact .refl _ _

theorem leaveWaitTimeout_frame (i : Fin 24) (b : Block) :
    Block.Only [.arb, .btn, .cwy, .cwyX, .dmp, .hic, .lau, .pea, .qmg, .slu] b (leaveWaitTimeout i b) := by
  unfold leaveWaitTimeout
  with_reducible
    split
    exact .refl _ _
    refine .ite _ ?_ ?_
    refine .step (hoEnd_frame ..) (by decide) ?_
    exact .refl _ _
    exact .refl _ _

theorem stopMeets_frame (n : Fin 16) (i : Fin 24) (x : HandOver) (b : Block) :
    Block.Only [.arb, .btn, .cwy, .cwyX, .dmp, .hic, .lau, .pea, .qmg, .slu] b (stopMeets n i x b) := by
  unfold stopMeets
  with_reducible
    try lift_lets
    intro xx
    clear_value xx
    try lift_lets
    intro xx
    clear_value xx
    refine .ite _ ?_ ?_
    exact .refl _ _
    split
    refine .ite _ ?_ ?_
    refine .step (updHo_frame ..) (by decide) ?_
    exact .refl _ _
    refine .ite _ ?_ ?_
    refine .step (hoEnd_frame ..) (by decide) ?_
    exact .refl _ _
    refine .step (updHo_frame ..) (by decide) ?_
    exact .refl _ _
    refine .step (updHo_frame ..) (by decide) ?_
    exact .refl _ _
    refine .step (updHo_frame ..) (by decide) ?_
    exact .refl _ _
    refine .step (updHo_frame ..) (by decide) ?_
    exact .refl _ _
    refine .step (hoEnd_frame ..) (by decide) ?_
    exact .refl _ _
    refine .ite _ ?_ ?_
    exact .refl _ _
    refine .ite _ ?_ ?_
    refine .step (hoEnd_frame ..) (by decide) ?_
    exact .refl _ _
    refine .step (hoEnd_frame ..) (by decide) ?_
    exact .refl _ _
    refine .ite _ ?_ ?_
    refine .step (hoEnd_frame ..) (by decide) ?_
    exact .refl _ _
    exact .refl _ _

theorem destinationGone_frame (n : Fin 16) (i : Fin 24) (x : HandOver) (b : Block) :
    Block.Only [.arb, .btn, .cwy, .cwyX, .dmp, .hic, .lau, .pea, .qmg, .slu] b (destinationGone n i x b) := by
  unfold destinationGone
  with_reducible
    refine .ite _ ?_ ?_
    refine .step (stopMeets_frame ..) (by decide) ?_
    exact .refl _ _
    exact .refl _ _

theorem insulationMeets_frame (n : Fin 16) (i : Fin 24) (x : HandOver) (b : Block) :
    Block.Only [.arb, .btn, .cwy, .cwyX, .dmp, .hic, .lau, .pea, .qmg, .slu, .sluCnt] b (insulationMeets n i x b) := by
  unfold insulationMeets
  with_reducible
    refine .ite _ ?_ ?_
    refine .ite _ ?_ ?_
    refine .step (openCommand_frame ..) (by decide) ?_
    refine .step (hoAbort_frame ..) (by decide) ?_
    exact .refl _ _
    refine .step (hoAbort_frame ..) (by decide) ?_
    exact .refl _ _
    refine .ite _ ?_ ?_
    split
    exact .refl _ _
    exact .refl _ _
    exact .refl _ _
    refine .step (hoAbort_frame ..) (by decide) ?_
    exact .refl _ _
    exact .refl _ _

theorem leaveWithStop_frame (n : Fin 16) (B : U64) (H : Nat) (m : Fin 96) (b : Block) :
    Block.Only [.arb, .btn, .cwy, .cwyX, .dmp, .hic, .lau, .qmg, .sess, .slu] b (leaveWithStop n B H m b) := by
  unfold leaveWithStop
  with_reducible
    try lift_lets
    intro xx
    refine Block.Only.viaVar xx ?_ (fun _ => ?_) <;> [simp only [xx]; clear_value xx]
    refine .step (hoNew_frame ..) (by decide) ?_
    exact .refl _ _
    split
    refine .step (hoPass_frame ..) (by decide) ?_
    assumption
    assumption

theorem takeStop_frame (n : Fin 16) (B : U64) (b : Block) :
    Block.Only [.arb, .bri, .btn, .cwy, .cwyX, .dmp, .hic, .imd, .imdG, .key, .lau, .legal, .lsw, .pea, .plc, .plcCfg, .qmg, .saf, .safX, .sess, .slt, .slu, .veh] b (takeStop n B b) := by
  unfold takeStop
  with_reducible
    try lift_lets
    intro xx
    clear_value xx
    try lift_lets
    intro xx
    refine Block.Only.viaVar xx ?_ (fun _ => ?_) <;> [simp only [xx]; clear_value xx]
    refine .eachHo (fun _ _ _ _ => ?_) ?_
    refine .step (stopMeets_frame ..) (by decide) ?_
    assumption
    exact .refl _ _
    refine .ite _ ?_ ?_
    refine .onlyIf _ (fun _ _ => ?_) ?_
    refine .step (rampedOpen_frame ..) (by decide) ?_
    assumption
    refine .step (updSess_frame ..) (by decide) ?_
    assumption
    refine .forAll (fun _ _ _ => ?_) _ ?_
    refine .step (leaveWithStop_frame ..) (by decide) ?_
    assumption
    refine .step (updSess_frame ..) (by decide) ?_
    refine .step (snapshotAt_frame ..) (by decide) ?_
    assumption

end Sys2Proof.Machine
end

