-- ==== Sys2Proof/Laws/FrameTide.lean ====
section
/-! SUPPORT. Frames of the operations of Machine/Tide.lean: the units each of them may change. -/

namespace Sys2Proof.Machine

theorem updTide_frame (f : Tide → Tide) (b : Block) :
    Block.Only [.tide] b (updTide f b) := by
  unfold updTide
  with_reducible
    refine .set_tide ?_ _ (by decide)
    exact .refl _ _

theorem setTrim_frame (x : Int) (b : Block) :
    Block.Only [.hic, .tide] b (setTrim x b) := by
  unfold setTrim
  with_reducible
    try lift_lets
    intro xx
    clear_value xx
    try lift_lets
    intro xx
    clear_value xx
    try lift_lets
    intro xx
    refine Block.Only.viaVar xx ?_ (fun _ => ?_) <;> [simp only [xx]; clear_value xx]
    refine .step (updTide_frame ..) (by decide) ?_
    exact .refl _ _
    refine .onlyIf _ (fun _ _ => ?_) ?_
    refine .step (irq_frame ..) (by decide) ?_
    assumption
    assumption

theorem trimStep_frame (b : Block) :
    Block.Only [.hic, .tide] b (trimStep b) := by
  unfold trimStep
  with_reducible
    try lift_lets
    intro xx
    clear_value xx
    try lift_lets
    intro xx
    refine Block.Only.viaVar xx ?_ (fun _ => ?_) <;> [simp only [xx]; clear_value xx]
    refine .step (updTide_frame ..) (by decide) ?_
    exact .refl _ _
    refine .ite _ ?_ ?_
    exact .refl _ _
    refine .onlyIf _ (fun _ _ => ?_) ?_
    refine .step (irq_frame ..) (by decide) ?_
    assumption
    assumption

theorem ppsAccept_frame (b : Block) :
    Block.Only [.hic, .tide] b (ppsAccept b) := by
  unfold ppsAccept
  with_reducible
    try lift_lets
    intro xx
    clear_value xx
    try lift_lets
    intro xx
    clear_value xx
    try lift_lets
    intro xx
    clear_value xx
    try lift_lets
    intro xx
    refine Block.Only.viaVar xx ?_ (fun _ => ?_) <;> [simp only [xx]; clear_value xx]
    refine .step (irq_frame ..) (by decide) ?_
    refine .step (updTide_frame ..) (by decide) ?_
    exact .refl _ _
    refine .ite _ ?_ ?_
    refine .step (setTrim_frame ..) (by decide) ?_
    assumption
    assumption

theorem ppsEdge_frame (falling : Bool) (b : Block) :
    Block.Only [.hic, .tide] b (ppsEdge falling b) := by
  unfold ppsEdge
  with_reducible
    try lift_lets
    intro xx
    clear_value xx
    try lift_lets
    intro xx
    clear_value xx
    refine .ite _ ?_ ?_
    exact .refl _ _
    refine .ite _ ?_ ?_
    refine .step (ppsAccept_frame ..) (by decide) ?_
    exact .refl _ _
    refine .step (updTide_frame ..) (by decide) ?_
    exact .refl _ _

theorem ppsLost_frame (b : Block) :
    Block.Only [.hic, .prior, .tide] b (ppsLost b) := by
  unfold ppsLost
  with_reducible
    refine .ite _ ?_ ?_
    refine .afterTicks (by decide) (by decide) (fun _ _ => ?_) ?_
    refine .step (irq_frame ..) (by decide) ?_
    refine .step (updTide_frame ..) (by decide) ?_
    assumption
    exact .refl _ _
    exact .refl _ _

theorem setPps_frame (enable falling discipline : Bool) (window : U16) (b : Block) :
    Block.Only [.tide] b (setPps enable falling discipline window b) := by
  unfold setPps
  with_reducible
    refine .step (updTide_frame ..) (by decide) ?_
    exact .refl _ _

theorem syncRtc_frame (b : Block) :
    Block.Only [.backup] b (syncRtc b) := by
  unfold syncRtc
  with_reducible
    try lift_lets
    intro xx
    clear_value xx
    try lift_lets
    intro xx
    clear_value xx
    refine .ite _ ?_ ?_
    exact .refl _ _
    refine .ite _ ?_ ?_
    exact .refl _ _
    refine .set_backup ?_ _ (by decide)
    exact .refl _ _

theorem setTod_frame (anchor sec : U64) (b : Block) :
    Block.Only [.arb, .backup, .btn, .cwy, .cwyX, .dmp, .hic, .lau, .qmg, .slt, .tide] b (setTod anchor sec b).1 := by
  unfold setTod
  with_reducible
    try lift_lets
    intro xx
    clear_value xx
    try lift_lets
    intro xx
    clear_value xx
    try lift_lets
    intro xx
    clear_value xx
    try lift_lets
    intro xx
    clear_value xx
    try lift_lets
    intro xx
    refine Block.Only.viaVar xx ?_ (fun _ => ?_) <;> [simp only [xx]; clear_value xx]
    refine .step (updTide_frame ..) (by decide) ?_
    exact .refl _ _
    refine .step (syncRtc_frame ..) (by decide) ?_
    refine .step (clockChanged_frame ..) (by decide) ?_
    assumption

theorem tideGetTime_frame (m : Fin 4) (b : Block) :
    Block.Only [.mbx, .rpl] b (tideGetTime m b) := by
  unfold tideGetTime
  with_reducible
    try lift_lets
    intro xx
    clear_value xx
    try lift_lets
    intro xx
    clear_value xx
    refine .ite _ ?_ ?_
    refine .step (ok_frame ..) (by decide) ?_
    exact .refl _ _
    refine .step (ok_frame ..) (by decide) ?_
    exact .refl _ _

theorem tideSetTrim_frame (m : Fin 4) (b : Block) :
    Block.Only [.hic, .mbx, .rpl, .tide] b (tideSetTrim m b) := by
  unfold tideSetTrim
  with_reducible
    try lift_lets
    intro xx
    clear_value xx
    refine .step (respond_frame ..) (by decide) ?_
    refine .step (setTrim_frame ..) (by decide) ?_
    exact .refl _ _

theorem tidePpsConfig_frame (m : Fin 4) (b : Block) :
    Block.Only [.mbx, .rpl, .tide] b (tidePpsConfig m b) := by
  unfold tidePpsConfig
  with_reducible
    refine .step (ok_frame ..) (by decide) ?_
    refine .step (setPps_frame ..) (by decide) ?_
    exact .refl _ _

theorem tideSetTod_frame (m : Fin 4) (b : Block) :
    Block.Only [.arb, .backup, .btn, .cwy, .cwyX, .dmp, .hic, .lau, .mbx, .qmg, .rpl, .slt, .tide] b (tideSetTod m b) := by
  unfold tideSetTod
  with_reducible
    refine .checked (by decide) (by decide) (fun _ _ => ?_) ?_
    try lift_lets
    intro xx
    refine Block.Only.viaPair xx ?_ (fun _ => ?_) <;> [simp only [xx]; clear_value xx]
    refine .step (setTod_frame ..) (by decide) ?_
    assumption
    refine .step (ok_frame ..) (by decide) ?_
    assumption
    exact .refl _ _

theorem tideSnapshot_frame (m : Fin 4) (b : Block) :
    Block.Only [.arb, .btn, .cwy, .cwyX, .dmp, .hic, .lau, .mbx, .pea, .qmg, .rpl] b (tideSnapshot m b) := by
  unfold tideSnapshot
  with_reducible
    try lift_lets
    intro xx
    clear_value xx
    refine .checked (by decide) (by decide) (fun _ _ => ?_) ?_
    try lift_lets
    intro xx
    clear_value xx
    try lift_lets
    intro xx
    clear_value xx
    try lift_lets
    intro xx
    refine Block.Only.viaPair xx ?_ (fun _ => ?_) <;> [simp only [xx]; clear_value xx]
    refine .step (submitEntry_frame ..) (by decide) ?_
    assumption
    refine .ite _ ?_ ?_
    assumption
    refine .step (internalFail_frame ..) (by decide) ?_
    assumption
    exact .refl _ _

theorem tideSubmit_frame (m : Fin 4) (b : Block) :
    Block.Only [.arb, .btn, .cwy, .cwyX, .dmp, .hic, .lau, .mbx, .pea, .qmg, .rpl] b (tideSubmit m b) := by
  unfold tideSubmit
  with_reducible
    try lift_lets
    intro xx
    clear_value xx
    try lift_lets
    intro xx
    clear_value xx
    refine .checked (by decide) (by decide) (fun _ _ => ?_) ?_
    try lift_lets
    intro xx
    refine Block.Only.viaPair xx ?_ (fun _ => ?_) <;> [simp only [xx]; clear_value xx]
    refine .step (submitEntry_frame ..) (by decide) ?_
    assumption
    refine .ite _ ?_ ?_
    refine .step (ok_frame ..) (by decide) ?_
    assumption
    refine .step (internalFail_frame ..) (by decide) ?_
    assumption
    exact .refl _ _

theorem tideCancel_frame (m : Fin 4) (b : Block) :
    Block.Only [.arb, .btn, .cwy, .cwyX, .dmp, .hic, .lau, .mbx, .pea, .qmg, .rpl] b (tideCancel m b) := by
  unfold tideCancel
  with_reducible
    try lift_lets
    intro xx
    clear_value xx
    try lift_lets
    intro xx
    clear_value xx
    try lift_lets
    intro xx
    clear_value xx
    refine .checked (by decide) (by decide) (fun _ _ => ?_) ?_
    try lift_lets
    intro xx
    refine Block.Only.viaPair xx ?_ (fun _ => ?_) <;> [simp only [xx]; clear_value xx]
    refine .step (cancelEntries_frame ..) (by decide) ?_
    assumption
    refine .step (ok_frame ..) (by decide) ?_
    assumption
    exact .refl _ _

theorem tideRingStatus_frame (m : Fin 4) (b : Block) :
    Block.Only [.mbx, .rpl] b (tideRingStatus m b) := by
  unfold tideRingStatus
  with_reducible
    try lift_lets
    intro xx
    clear_value xx
    refine .checked (by decide) (by decide) (fun _ _ => ?_) ?_
    try lift_lets
    intro xx
    clear_value xx
    try lift_lets
    intro xx
    clear_value xx
    refine .step (ok_frame ..) (by decide) ?_
    assumption
    exact .refl _ _

theorem tideClearCounts_frame (m : Fin 4) (b : Block) :
    Block.Only [.lau, .mbx, .rpl, .tide] b (tideClearCounts m b) := by
  unfold tideClearCounts
  with_reducible
    try lift_lets
    intro xx
    clear_value xx
    try lift_lets
    intro xx
    clear_value xx
    refine .step (ok_frame ..) (by decide) ?_
    refine .set_lau_tide ?_ _ _ (by decide) (by decide)
    exact .refl _ _

end Sys2Proof.Machine
end

