-- ==== Sys2Proof/Laws/FrameSluice.lean ====
section
/-! SUPPORT. Frames of the operations of Machine/Sluice.lean: the units each of them may change. -/

namespace Sys2Proof.Machine

theorem surplusStep_frame (L : SluLatch) (n : Fin 16) (b : Block) :
    Block.Only [.sess] b (surplusStep L n b) := by
  unfold surplusStep
  with_reducible
    refine .ite _ ?_ ?_
    refine .step (updSess_frame ..) (by decide) ?_
    exact .refl _ _
    refine .step (updSess_frame ..) (by decide) ?_
    exact .refl _ _

theorem latchStep_frame (B : U64) (b : Block) :
    Block.Only [.sess, .slu] b (latchStep B b) := by
  unfold latchStep
  with_reducible
    try lift_lets
    intro xx
    clear_value xx
    try lift_lets
    intro xx
    refine Block.Only.viaVar xx ?_ (fun _ => ?_) <;> [simp only [xx]; clear_value xx]
    refine .step (updSlu_frame ..) (by decide) ?_
    exact .refl _ _
    refine .ite _ ?_ ?_
    refine .forAll (fun _ _ _ => ?_) _ ?_
    refine .step (surplusStep_frame ..) (by decide) ?_
    assumption
    assumption
    exact .refl _ _

theorem outcomeChanged_frame (H : U64) (n : Fin 16) (b : Block) :
    Block.Only [.arb, .btn, .cwy, .cwyX, .dmp, .hic, .lau, .qmg] b (outcomeChanged H n b) := by
  unfold outcomeChanged
  with_reducible
    try lift_lets
    intro xx
    clear_value xx
    try lift_lets
    intro xx
    clear_value xx
    try lift_lets
    intro xx
    clear_value xx
    try lift_lets
    intro (xx : _ → _)
    try lift_lets
    intro xx
    clear_value xx
    refine .step (sendTo_frame ..) (by decide) ?_
    refine .step (irq_frame ..) (by decide) ?_
    exact .refl _ _

theorem showReport_frame (H : U64) (n : Fin 16) (r : SluReport) (b : Block) :
    Block.Only [.arb, .btn, .cwy, .cwyX, .dmp, .hic, .lau, .qmg, .sess, .sluCnt] b (showReport H n r b) := by
  unfold showReport
  with_reducible
    try lift_lets
    intro xx
    clear_value xx
    try lift_lets
    intro xx
    clear_value xx
    try lift_lets
    intro xx
    refine Block.Only.viaVar xx ?_ (fun _ => ?_) <;> [simp only [xx]; clear_value xx]
    refine .step (updSess_frame ..) (by decide) ?_
    exact .refl _ _
    refine .onlyIf _ (fun _ _ => ?_) ?_
    refine .step (outcomeChanged_frame ..) (by decide) ?_
    assumption
    refine .ite _ ?_ ?_
    refine .set_sluCnt ?_ _ (by decide)
    assumption
    assumption

theorem applyReport_frame (H : U64) (n : Fin 16) (r : SluReport) (b : Block) :
    Block.Only [.arb, .btn, .cwy, .cwyX, .dmp, .hic, .lau, .qmg, .sess, .sluCnt] b (applyReport H n r b) := by
  unfold applyReport
  with_reducible
    try lift_lets
    intro xx
    clear_value xx
    try lift_lets
    intro xx
    clear_value xx
    split
    refine .step (updSess_frame ..) (by decide) ?_
    exact .refl _ _
    refine .step (updSess_frame ..) (by decide) ?_
    exact .refl _ _
    refine .step (updSess_frame ..) (by decide) ?_
    exact .refl _ _
    refine .ite _ ?_ ?_
    refine .step (updSess_frame ..) (by decide) ?_
    exact .refl _ _
    refine .ite _ ?_ ?_
    refine .step (updSess_frame ..) (by decide) ?_
    exact .refl _ _
    refine .step (showReport_frame ..) (by decide) ?_
    exact .refl _ _
    refine .ite _ ?_ ?_
    refine .step (updSess_frame ..) (by decide) ?_
    exact .refl _ _
    refine .ite _ ?_ ?_
    refine .step (updSess_frame ..) (by decide) ?_
    exact .refl _ _
    refine .step (showReport_frame ..) (by decide) ?_
    exact .refl _ _
    refine .ite _ ?_ ?_
    refine .step (updSess_frame ..) (by decide) ?_
    exact .refl _ _
    refine .ite _ ?_ ?_
    refine .step (updSess_frame ..) (by decide) ?_
    exact .refl _ _
    refine .step (showReport_frame ..) (by decide) ?_
    exact .refl _ _
    refine .ite _ ?_ ?_
    refine .step (updSess_frame ..) (by decide) ?_
    exact .refl _ _
    refine .ite _ ?_ ?_
    refine .step (updSess_frame ..) (by decide) ?_
    exact .refl _ _
    refine .step (showReport_frame ..) (by decide) ?_
    exact .refl _ _
    refine .step (showReport_frame ..) (by decide) ?_
    exact .refl _ _

theorem applyAdmission_frame (x : SluNext) (a : Fin 16 × Bool) (b : Block) :
    Block.Only [.sess, .slu, .sluCnt] b (applyAdmission x a b) := by
  unfold applyAdmission
  with_reducible
    try lift_lets
    intro xx
    clear_value xx
    try lift_lets
    intro xx
    clear_value xx
    try lift_lets
    intro xx
    refine Block.Only.viaVar xx ?_ (fun _ => ?_) <;> [simp only [xx]; clear_value xx]
    refine .step (updSlu_frame ..) (by decide) ?_
    refine .step (updSess_frame ..) (by decide) ?_
    exact .refl _ _
    refine .ite _ ?_ ?_
    refine .set_sluCnt ?_ _ (by decide)
    assumption
    exact .refl _ _

theorem applyRefusal_frame (x : SluNext) (a : Nat × U8) (b : Block) :
    Block.Only [.arb, .bri, .btn, .cwy, .cwyX, .dmp, .hic, .imd, .imdG, .key, .lau, .legal, .lsw, .pea, .plc, .plcCfg, .qmg, .saf, .safX, .sess, .slt, .sluCnt, .veh] b (applyRefusal x a b) := by
  unfold applyRefusal
  with_reducible
    try lift_lets
    intro xx
    clear_value xx
    try lift_lets
    intro xx
    refine Block.Only.viaVar xx ?_ (fun _ => ?_) <;> [simp only [xx]; clear_value xx]
    refine .set_sluCnt ?_ _ (by decide)
    exact .refl _ _
    refine .dite _ (fun _ => ?_) (fun _ => ?_)
    try lift_lets
    intro xx
    clear_value xx
    try lift_lets
    intro xx
    clear_value xx
    refine .ite _ ?_ ?_
    refine .step (stopSession_frame ..) (by decide) ?_
    refine .step (updSess_frame ..) (by decide) ?_
    assumption
    exact .refl _ _
    exact .refl _ _

theorem applyNext_frame (H : U64) (x : SluNext) (b : Block) :
    Block.Only [.arb, .bri, .btn, .cwy, .cwyX, .dmp, .hic, .imd, .imdG, .key, .lau, .legal, .lsw, .pea, .plc, .plcCfg, .qmg, .saf, .safX, .sess, .slt, .slu, .sluCnt, .veh] b (applyNext H x b) := by
  unfold applyNext
  with_reducible
    try lift_lets
    intro xx
    clear_value xx
    try lift_lets
    intro xx
    clear_value xx
    try lift_lets
    intro xx
    refine Block.Only.viaVar xx ?_ (fun _ => ?_) <;> [simp only [xx]; clear_value xx]
    refine .step (updSlu_frame ..) (by decide) ?_
    exact .refl _ _
    refine .forAll (fun _ _ _ => ?_) _ ?_
    refine .step (applyRefusal_frame ..) (by decide) ?_
    assumption
    refine .forAll (fun _ _ _ => ?_) _ ?_
    refine .step (applyReport_frame ..) (by decide) ?_
    assumption
    refine .forAll (fun _ _ _ => ?_) _ ?_
    refine .step (applyAdmission_frame ..) (by decide) ?_
    assumption
    refine .forAll (fun _ _ _ => ?_) _ ?_
    refine .step (updSess_frame ..) (by decide) ?_
    assumption
    refine .forAll (fun _ _ _ => ?_) _ ?_
    refine .step (updSess_frame ..) (by decide) ?_
    assumption
    refine .onlyIf _ (fun _ _ => ?_) ?_
    refine .step (irq_frame ..) (by decide) ?_
    assumption
    assumption

theorem checkItem_frame (B : U64) (b : Block) :
    Block.Only [.rpl] b (checkItem B b) := by
  unfold checkItem
  with_reducible
    try lift_lets
    intro xx
    clear_value xx
    refine .ite _ ?_ ?_
    refine .set_rpl ?_ _ (by decide)
    exact .refl _ _
    refine .step (traceItem_frame ..) (by decide) ?_
    exact .refl _ _

theorem noteMap_frame (B : U64) (b : Block) :
    Block.Only [.slu] b (noteMap B b) := by
  unfold noteMap
  with_reducible
    refine .step (updSlu_frame ..) (by decide) ?_
    exact .refl _ _

theorem applyTune_frame (B : U64) (b : Block) :
    Block.Only [.slu] b (applyTune B b) := by
  unfold applyTune
  with_reducible
    split
    refine .ite _ ?_ ?_
    refine .step (updSlu_frame ..) (by decide) ?_
    exact .refl _ _
    exact .refl _ _
    exact .refl _ _

theorem serviceOne_frame (e : Fin 96 × Bool × U64) (b : Block) :
    Block.Only [.hic, .slu] b (serviceOne e b) := by
  unfold serviceOne
  with_reducible
    refine .ite _ ?_ ?_
    refine .onlyIf _ (fun _ _ => ?_) ?_
    refine .step (irq_frame ..) (by decide) ?_
    assumption
    refine .step (updSluMod_frame ..) (by decide) ?_
    exact .refl _ _
    refine .step (moduleOut_frame ..) (by decide) ?_
    exact .refl _ _

theorem applyService_frame (B : U64) (b : Block) :
    Block.Only [.hic, .slu] b (applyService B b) := by
  unfold applyService
  with_reducible
    try lift_lets
    intro xx
    clear_value xx
    refine .forAll (fun _ _ _ => ?_) _ ?_
    refine .step (serviceOne_frame ..) (by decide) ?_
    assumption
    refine .step (updSlu_frame ..) (by decide) ?_
    exact .refl _ _

theorem boundaryAt_frame (B : U64) (b : Block) :
    Block.Only (Part.but [.snaps, .barrier, .fab, .d2d, .cross, .met, .pq, .mlk, .vehCfg, .v2g, .v2gCfg, .rcm, .rcmTest, .auth, .backup, .mbx, .hp, .pnl, .frames, .nfc, .rst, .upd, .dbg, .settings, .newSettings, .legalSet, .updRec, .kept, .prior]) b (boundaryAt B b) := by
  unfold boundaryAt
  with_reducible
    try lift_lets
    intro xx
    refine Block.Only.viaVar xx ?_ (fun _ => ?_) <;> [simp only [xx]; clear_value xx]
    refine .step (applyService_frame ..) (by decide) ?_
    refine .step (applyTune_frame ..) (by decide) ?_
    exact .refl _ _
    refine .step (trailingCommit_frame ..) (by decide) ?_
    refine .step (latchStep_frame ..) (by decide) ?_
    refine .step (checkItem_frame ..) (by decide) ?_
    refine .step (trimStep_frame ..) (by decide) ?_
    refine .step (latchFrame_frame ..) (by decide) ?_
    refine .step (noteMap_frame ..) (by decide) ?_
    split
    refine .step (applyNext_frame ..) (by decide) ?_
    assumption
    assumption

theorem allocationBoundary_frame (b : Block) :
    Block.Only (Part.but [.snaps, .barrier, .fab, .d2d, .cross, .met, .pq, .mlk, .vehCfg, .v2g, .v2gCfg, .rcm, .rcmTest, .auth, .backup, .mbx, .hp, .pnl, .frames, .nfc, .rst, .upd, .dbg, .settings, .newSettings, .legalSet, .updRec, .kept]) b (allocationBoundary b) := by
  unfold allocationBoundary
  with_reducible
    try lift_lets
    intro xx
    clear_value xx
    refine .atInstant (by decide) (by decide) (fun _ _ => ?_) ?_
    refine .step (boundaryAt_frame ..) (by decide) ?_
    assumption
    exact .refl _ _

theorem takeStops_frame (L : SluLatch) (b : Block) :
    Block.Only [.arb, .bri, .btn, .cwy, .cwyX, .dmp, .hic, .imd, .imdG, .key, .lau, .legal, .lsw, .pea, .plc, .plcCfg, .qmg, .saf, .safX, .sess, .slt, .slu, .sluCnt, .veh] b (takeStops L b) := by
  unfold takeStops
  with_reducible
    refine .forAll (fun _ _ _ => ?_) _ ?_
    try lift_lets
    intro xx
    clear_value xx
    try lift_lets
    intro xx
    refine Block.Only.viaVar xx ?_ (fun _ => ?_) <;> [simp only [xx]; clear_value xx]
    refine .ite _ ?_ ?_
    refine .eachHo (fun _ _ _ _ => ?_) ?_
    refine .step (insulationMeets_frame ..) (by decide) ?_
    assumption
    assumption
    assumption
    refine .ite _ ?_ ?_
    refine .step (takeStop_frame ..) (by decide) ?_
    assumption
    refine .ite _ ?_ ?_
    assumption
    refine .ite _ ?_ ?_
    refine .eachHo (fun _ _ _ _ => ?_) ?_
    refine .step (destinationGone_frame ..) (by decide) ?_
    assumption
    assumption
    refine .step (updSess_frame ..) (by decide) ?_
    refine .eachHo (fun _ _ _ _ => ?_) ?_
    refine .step (stopMeets_frame ..) (by decide) ?_
    assumption
    assumption
    exact .refl _ _

theorem beginMove_frame (L : SluLatch) (x y : Assignment) (m : Fin 96) (b : Block) :
    Block.Only [.arb, .btn, .cwy, .cwyX, .dmp, .hic, .lau, .qmg, .sess, .slu] b (beginMove L x y m b) := by
  unfold beginMove
  with_reducible
    try lift_lets
    intro xx
    clear_value xx
    try lift_lets
    intro xx
    clear_value xx
    try lift_lets
    intro xx
    refine Block.Only.viaVar xx ?_ (fun _ => ?_) <;> [simp only [xx]; clear_value xx]
    refine .step (hoNew_frame ..) (by decide) ?_
    exact .refl _ _
    refine .ite _ ?_ ?_
    exact .refl _ _
    split
    refine .step (hoNew_frame ..) (by decide) ?_
    exact .refl _ _
    split
    refine .step (hoMatch_frame ..) (by decide) ?_
    assumption
    assumption

theorem laneEntry_frame (os : List Order) (H : Nat) (l : Fin 8) (b : Block) :
    Block.Only [.arb, .btn, .cwy, .cwyX, .dmp, .hic, .lau, .qmg] b (laneEntry os H l b) := by
  unfold laneEntry
  with_reducible
    try lift_lets
    intro (xx : _ → _)
    try lift_lets
    intro (xx : _ → _)
    try lift_lets
    intro xx
    clear_value xx
    refine .step (submit_frame ..) (by decide) ?_
    exact .refl _ _

theorem publishSolve_frame (L : SluLatch) (b : Block) :
    Block.Only (Part.but [.tide, .snaps, .barrier, .fab, .d2d, .cross, .met, .acc, .pq, .vehCfg, .v2g, .v2gCfg, .rcm, .rcmTest, .pf, .auth, .backup, .mbx, .hp, .pnl, .frames, .nfc, .rst, .upd, .rpl, .dbg, .settings, .newSettings, .legalSet, .updRec, .kept, .prior]) b (publishSolve L b) := by
  have hw : ∀ (a : Waits) (m : Fin 96) (g : List Nat) (H : Nat), Block.Only (Part.but [.tide, .snaps, .barrier, .fab, .d2d, .cross, .met, .acc, .pq, .vehCfg, .v2g, .v2gCfg, .rcm, .rcmTest, .pf, .auth, .backup, .mbx, .hp, .pnl, .frames, .nfc, .rst, .upd, .rpl, .dbg, .settings, .newSettings, .legalSet, .updRec, .kept, .prior]) b a.block → Block.Only (Part.but [.tide, .snaps, .barrier, .fab, .d2d, .cross, .met, .acc, .pq, .vehCfg, .v2g, .v2gCfg, .rcm, .rcmTest, .pf, .auth, .backup, .mbx, .hp, .pnl, .frames, .nfc, .rst, .upd, .rpl, .dbg, .settings, .newSettings, .legalSet, .updRec, .kept, .prior]) b (waitOne L g H a m).block := by
    intro a m g H h
    unfold waitOne
    split
    · exact h
    split
    · exact h
    split
    · have hs : Block.Only (Part.but [.tide, .snaps, .barrier, .fab, .d2d, .cross, .met, .acc, .pq, .vehCfg, .v2g, .v2gCfg, .rcm, .rcmTest, .pf, .auth, .backup, .mbx, .hp, .pnl, .frames, .nfc, .rst, .upd, .rpl, .dbg, .settings, .newSettings, .legalSet, .updRec, .kept, .prior]) b (updHo ‹Fin 24› (fun x => { x with waited := x.waited + 1 }) a.block) := .step (updHo_frame _ _ _) (by decide) h
      have hg : ∀ o, Block.Only (Part.but [.tide, .snaps, .barrier, .fab, .d2d, .cross, .met, .acc, .pq, .vehCfg, .v2g, .v2gCfg, .rcm, .rcmTest, .pf, .auth, .backup, .mbx, .hp, .pnl, .frames, .nfc, .rst, .upd, .rpl, .dbg, .settings, .newSettings, .legalSet, .updRec, .kept, .prior]) b (updSess o (fun s => { s with rampEnd := BitVec.ofNat 64 (H + 3000000) }) (hoPass ‹Fin 24› H a.block)) :=
        fun o => .step (updSess_frame _ _ _) (by decide) (.step (hoPass_frame _ _ _) (by decide) h)
      dsimp only
      split
      · exact hs
      · split
        · exact hg _
        · split
          · exact hg _
          · exact hs
    · exact h
  have hf : ∀ (l : List (Fin 96)) (a : Waits) (g : List Nat) (H : Nat), Block.Only (Part.but [.tide, .snaps, .barrier, .fab, .d2d, .cross, .met, .acc, .pq, .vehCfg, .v2g, .v2gCfg, .rcm, .rcmTest, .pf, .auth, .backup, .mbx, .hp, .pnl, .frames, .nfc, .rst, .upd, .rpl, .dbg, .settings, .newSettings, .legalSet, .updRec, .kept, .prior]) b a.block → Block.Only (Part.but [.tide, .snaps, .barrier, .fab, .d2d, .cross, .met, .acc, .pq, .vehCfg, .v2g, .v2gCfg, .rcm, .rcmTest, .pf, .auth, .backup, .mbx, .hp, .pnl, .frames, .nfc, .rst, .upd, .rpl, .dbg, .settings, .newSettings, .legalSet, .updRec, .kept, .prior]) b (l.foldl (waitOne L g H) a).block := by
    intro l
    induction l with
    | nil => intro a g H h; exact h
    | cons m l ih => intro a g H h; exact ih _ _ _ (hw _ _ _ _ h)
  unfold publishSolve
  refine .step (updSlu_frame _ _) (by decide) ?_
  refine .forAll (fun _ _ h => .step (laneEntry_frame _ _ _ _) (by decide) h) _ ?_
  refine .forAll (fun _ _ h => ?_) _ ?_
  · split
    · exact .step (updSess_frame _ _ _) (by decide) h
    · exact h
  refine hf _ _ _ _ ?_
  refine .forAll (fun _ _ h => .step (beginMove_frame _ _ _ _ _) (by decide) h) _ ?_
  refine .ite _ (.set_sluCnt ?_ _ (by decide)) ?_
  all_goals
    refine .ite _ ?_ (.step (irq_frame _ _) (by decide) (.forAll (fun _ _ h => .step (softFault_frame _ _ _) (by decide) h) _ ?_))
  all_goals
    exact .onlyIf _ (fun _ h => .step (takeStops_frame _ _) (by decide) h) (.step (updSlu_frame _ _) (by decide) (.refl _ _))

theorem sluicePublish_frame (b : Block) :
    Block.Only (Part.but [.snaps, .barrier, .fab, .d2d, .cross, .met, .acc, .pq, .vehCfg, .v2g, .v2gCfg, .rcm, .rcmTest, .pf, .auth, .backup, .mbx, .hp, .pnl, .frames, .nfc, .rst, .upd, .rpl, .dbg, .settings, .newSettings, .legalSet, .updRec, .kept]) b (sluicePublish b) := by
  unfold sluicePublish
  with_reducible
    split
    exact .refl _ _
    refine .afterTicks (by decide) (by decide) (fun _ _ => ?_) ?_
    refine .step (publishSolve_frame ..) (by decide) ?_
    assumption
    exact .refl _ _

theorem maxDelayExpired_frame (n : Fin 16) (b : Block) :
    Block.Only [.prior, .sess, .tide] b (maxDelayExpired n b) := by
  unfold maxDelayExpired
  with_reducible
    try lift_lets
    intro xx
    clear_value xx
    split
    refine .ite _ ?_ ?_
    refine .afterTicks (by decide) (by decide) (fun _ _ => ?_) ?_
    refine .step (updSess_frame ..) (by decide) ?_
    assumption
    exact .refl _ _
    exact .refl _ _
    exact .refl _ _

theorem reasonHoldExpired_frame (n : Fin 16) (b : Block) :
    Block.Only [.arb, .btn, .cwy, .cwyX, .dmp, .hic, .lau, .qmg, .sess] b (reasonHoldExpired n b) := by
  unfold reasonHoldExpired
  with_reducible
    try lift_lets
    intro xx
    clear_value xx
    refine .ite _ ?_ ?_
    refine .step (outcomeChanged_frame ..) (by decide) ?_
    refine .step (updSess_frame ..) (by decide) ?_
    exact .refl _ _
    exact .refl _ _

theorem surplusRelease_frame (n : Fin 16) (b : Block) :
    Block.Only [.sess] b (surplusRelease n b) := by
  unfold surplusRelease
  with_reducible
    refine .ite _ ?_ ?_
    refine .step (updSess_frame ..) (by decide) ?_
    exact .refl _ _
    exact .refl _ _

theorem prechargeDone_frame (n : Fin 16) (b : Block) :
    Block.Only [.arb, .btn, .cwy, .cwyX, .dmp, .hic, .imd, .imdG, .lau, .lsw, .plc, .plcCfg, .qmg, .saf, .safX, .sess] b (prechargeDone n b) := by
  unfold prechargeDone
  exact .ite _ (.onlyIf _ (fun _ h => .step (enterPhase_frame _ _ _) (by decide) h) (.step (updSess_frame _ _ _) (by decide) <| .refl _ _)) (.refl _ _)

theorem prechargeTimeout_frame (n : Fin 16) (b : Block) :
    Block.Only [.arb, .bri, .btn, .cwy, .cwyX, .dmp, .hic, .imd, .imdG, .key, .lau, .legal, .lsw, .pea, .plc, .plcCfg, .prior, .qmg, .saf, .safX, .sess, .slt, .tide, .veh] b (prechargeTimeout n b) := by
  unfold prechargeTimeout
  with_reducible
    try lift_lets
    intro xx
    clear_value xx
    refine .ite _ ?_ ?_
    refine .afterTicks (by decide) (by decide) (fun _ _ => ?_) ?_
    refine .step (stopSession_frame ..) (by decide) ?_
    assumption
    exact .refl _ _
    exact .refl _ _

theorem sluWrite_frame (a : Nat) (v : U32) (b : Block) :
    Block.Only [.slu] b (sluWrite a v b) := by
  unfold sluWrite
  with_reducible
    try lift_lets
    intro xx
    clear_value xx
    refine .ite _ ?_ ?_
    refine .step (updSlu_frame ..) (by decide) ?_
    exact .refl _ _
    refine .ite _ ?_ ?_
    refine .step (updSlu_frame ..) (by decide) ?_
    exact .refl _ _
    refine .ite _ ?_ ?_
    refine .step (updSlu_frame ..) (by decide) ?_
    exact .refl _ _
    refine .ite _ ?_ ?_
    refine .step (updSlu_frame ..) (by decide) ?_
    exact .refl _ _
    refine .ite _ ?_ ?_
    refine .step (updSlu_frame ..) (by decide) ?_
    exact .refl _ _
    exact .refl _ _

theorem sluSetSite_frame (m : Fin 4) (b : Block) :
    Block.Only [.arb, .hic, .mbx, .pea, .rpl, .slu] b (sluSetSite m b) := by
  unfold sluSetSite
  with_reducible
    try lift_lets
    intro xx
    clear_value xx
    refine .checked (by decide) (by decide) (fun _ _ => ?_) ?_
    try lift_lets
    intro xx
    refine Block.Only.viaVar xx ?_ (fun _ => ?_) <;> [simp only [xx]; clear_value xx]
    refine .step (saveSettings_frame ..) (by decide) ?_
    refine .step (updSlu_frame ..) (by decide) ?_
    assumption
    refine .step (respond_frame ..) (by decide) ?_
    assumption
    exact .refl _ _

theorem sluSetConnector_frame (m : Fin 4) (b : Block) :
    Block.Only [.arb, .hic, .mbx, .pea, .rpl, .sess] b (sluSetConnector m b) := by
  unfold sluSetConnector
  with_reducible
    try lift_lets
    intro xx
    clear_value xx
    try lift_lets
    intro xx
    clear_value xx
    try lift_lets
    intro xx
    clear_value xx
    try lift_lets
    intro xx
    clear_value xx
    try lift_lets
    intro xx
    clear_value xx
    refine .checked (by decide) (by decide) (fun _ _ => ?_) ?_
    refine .step (ok_frame ..) (by decide) ?_
    refine .step (saveSettings_frame ..) (by decide) ?_
    refine .step (updSess_frame ..) (by decide) ?_
    assumption
    exact .refl _ _

theorem sluSetTuning_frame (m : Fin 4) (b : Block) :
    Block.Only [.arb, .hic, .mbx, .pea, .rpl, .slu] b (sluSetTuning m b) := by
  unfold sluSetTuning
  with_reducible
    try lift_lets
    intro xx
    clear_value xx
    try lift_lets
    intro xx
    clear_value xx
    refine .checked (by decide) (by decide) (fun _ _ => ?_) ?_
    refine .step (ok_frame ..) (by decide) ?_
    refine .step (saveSettings_frame ..) (by decide) ?_
    refine .step (updSlu_frame ..) (by decide) ?_
    assumption
    exact .refl _ _

theorem sluGetNode_frame (m : Fin 4) (b : Block) :
    Block.Only [.mbx, .rpl] b (sluGetNode m b) := by
  unfold sluGetNode
  with_reducible
    try lift_lets
    intro xx
    clear_value xx
    refine .checked (by decide) (by decide) (fun _ _ => ?_) ?_
    try lift_lets
    intro xx
    clear_value xx
    refine .step (ok_frame ..) (by decide) ?_
    assumption
    exact .refl _ _

theorem sluGetMap_frame (m : Fin 4) (b : Block) :
    Block.Only [.mbx, .rpl] b (sluGetMap m b) := by
  unfold sluGetMap
  with_reducible
    refine .step (ok_frame ..) (by decide) ?_
    exact .refl _ _

theorem sluModuleService_frame (m : Fin 4) (b : Block) :
    Block.Only [.mbx, .rpl, .slu] b (sluModuleService m b) := by
  unfold sluModuleService
  with_reducible
    try lift_lets
    intro xx
    clear_value xx
    try lift_lets
    intro xx
    clear_value xx
    refine .checked (by decide) (by decide) (fun _ _ => ?_) ?_
    try lift_lets
    intro xx
    clear_value xx
    try lift_lets
    intro (xx : _ → _)
    refine .ite _ ?_ ?_
    refine .step (ok_frame ..) (by decide) ?_
    refine .step (updSluMod_frame ..) (by decide) ?_
    assumption
    refine .step (ok_frame ..) (by decide) ?_
    refine .step (updSlu_frame ..) (by decide) ?_
    assumption
    exact .refl _ _

theorem sluGetHandovers_frame (m : Fin 4) (b : Block) :
    Block.Only [.mbx, .rpl] b (sluGetHandovers m b) := by
  unfold sluGetHandovers
  with_reducible
    try lift_lets
    intro xx
    clear_value xx
    refine .step (ok_frame ..) (by decide) ?_
    exact .refl _ _

theorem sluClearCounts_frame (m : Fin 4) (b : Block) :
    Block.Only [.mbx, .rpl, .slu, .sluCnt] b (sluClearCounts m b) := by
  unfold sluClearCounts
  with_reducible
    try lift_lets
    intro xx
    refine Block.Only.viaVar xx ?_ (fun _ => ?_) <;> [simp only [xx]; clear_value xx]
    refine .step (updSlu_frame ..) (by decide) ?_
    exact .refl _ _
    refine .step (ok_frame ..) (by decide) ?_
    refine .set_sluCnt ?_ _ (by decide)
    assumption

end Sys2Proof.Machine
end

