-- ==== Sys2Proof/Laws/FrameWeld.lean ====
section
/-! SUPPORT. Frames of the operations of Machine/Weld.lean: the units each of them may change. -/

namespace Sys2Proof.Machine

theorem setWeld_frame (n : Fin 16) (t : Option WeldTest) (b : Block) :
    Block.Only [.safX] b (setWeld n t b) := by
  unfold setWeld
  with_reducible
    refine .step (updSafX_frame ..) (by decide) ?_
    exact .refl _ _

theorem weldBegin_frame (n : Fin 16) (t : WeldTest) (b : Block) :
    Block.Only [.mlk, .safX] b (weldBegin n t b) := by
  unfold weldBegin
  with_reducible
    try lift_lets
    intro xx
    clear_value xx
    refine .step (setWeld_frame ..) (by decide) ?_
    refine .step (updMlk_frame ..) (by decide) ?_
    exact .refl _ _

theorem weldUntested_frame (n : Fin 16) (b : Block) :
    Block.Only [.arb, .bri, .btn, .cwy, .cwyX, .dmp, .hic, .imd, .imdG, .key, .lau, .legal, .lsw, .pea, .plc, .plcCfg, .qmg, .saf, .safX, .sess, .slt, .veh] b (weldUntested n b) := by
  unfold weldUntested
  with_reducible
    refine .step (stopDone_frame ..) (by decide) ?_
    refine .step (updNode_frame ..) (by decide) ?_
    exact .refl _ _

theorem weldJoined_frame (n : Fin 16) (t : WeldTest) (m : Fin 4) (b : Block) :
    Block.Only [.mbx, .mlk, .rpl, .safX] b (weldJoined n t m b) := by
  unfold weldJoined
  with_reducible
    try lift_lets
    intro xx
    clear_value xx
    split
    refine .ite _ ?_ ?_
    refine .step (weldBegin_frame ..) (by decide) ?_
    exact .refl _ _
    exact .refl _ _
    refine .ite _ ?_ ?_
    refine .step (weldBegin_frame ..) (by decide) ?_
    exact .refl _ _
    refine .onlyIf _ (fun _ _ => ?_) ?_
    refine .step (refuse_frame ..) (by decide) ?_
    assumption
    refine .step (setWeld_frame ..) (by decide) ?_
    exact .refl _ _

theorem weldTestStart_frame (n : Fin 16) (b : Block) :
    Block.Only (Part.but [.snaps, .barrier, .fab, .d2d, .cross, .met, .acc, .pq, .slu, .sluCnt, .vehCfg, .v2g, .v2gCfg, .rcm, .rcmTest, .pf, .auth, .backup, .hp, .pnl, .frames, .nfc, .rst, .upd, .dbg, .settings, .newSettings, .legalSet, .updRec, .kept]) b (weldTestStart n b) := by
  unfold weldTestStart
  with_reducible
    split
    split
    refine .step (weldJoined_frame ..) (by decide) ?_
    exact .refl _ _
    exact .refl _ _
    refine .ite _ ?_ ?_
    refine .afterTicks (by decide) (by decide) (fun _ _ => ?_) ?_
    split
    refine .step (weldBegin_frame ..) (by decide) ?_
    assumption
    refine .step (weldUntested_frame ..) (by decide) ?_
    assumption
    exact .refl _ _
    exact .refl _ _

theorem weldFault_frame (n : Fin 16) (b : Block) :
    Block.Only [.arb, .bri, .btn, .cwy, .cwyX, .dmp, .hic, .imd, .imdG, .key, .lau, .legal, .lsw, .mlk, .pea, .plc, .plcCfg, .qmg, .saf, .safX, .sess, .slt, .veh] b (weldFault n b) := by
  unfold weldFault
  with_reducible
    refine .step (contain_frame ..) (by decide) ?_
    refine .step (irq_frame ..) (by decide) ?_
    refine .step (updNode_frame ..) (by decide) ?_
    exact .refl _ _

theorem weldAnswer_frame (m : Fin 4) (result : U8) (d : Nat) (b : Block) :
    Block.Only [.arb, .btn, .hic, .mbx, .pea, .rpl] b (weldAnswer m result d b) := by
  unfold weldAnswer
  with_reducible
    refine .ite _ ?_ ?_
    refine .step (cmdLog_frame ..) (by decide) ?_
    refine .step (ok_frame ..) (by decide) ?_
    exact .refl _ _
    exact .refl _ _

theorem weldEnd_frame (n : Fin 16) (t : WeldTest) (welded : Bool) (b : Block) :
    Block.Only (Part.but [.tide, .snaps, .barrier, .fab, .d2d, .cross, .met, .acc, .pq, .slu, .sluCnt, .vehCfg, .v2g, .v2gCfg, .rcm, .rcmTest, .pf, .auth, .backup, .hp, .pnl, .frames, .nfc, .rst, .upd, .dbg, .settings, .newSettings, .legalSet, .updRec, .kept, .prior]) b (weldEnd n t welded b) := by
  unfold weldEnd
  with_reducible
    try lift_lets
    intro xx
    clear_value xx
    try lift_lets
    intro xx
    refine Block.Only.viaVar xx ?_ (fun _ => ?_) <;> [simp only [xx]; clear_value xx]
    refine .step (setWeld_frame ..) (by decide) ?_
    refine .step (updMlk_frame ..) (by decide) ?_
    exact .refl _ _
    split
    refine .step (weldAnswer_frame ..) (by decide) ?_
    refine .step (updNode_frame ..) (by decide) ?_
    refine .ite _ ?_ ?_
    refine .step (weldFault_frame ..) (by decide) ?_
    assumption
    refine .step (updNode_frame ..) (by decide) ?_
    assumption
    refine .step (stopDone_frame ..) (by decide) ?_
    refine .step (updNode_frame ..) (by decide) ?_
    refine .ite _ ?_ ?_
    refine .step (weldFault_frame ..) (by decide) ?_
    assumption
    refine .step (updNode_frame ..) (by decide) ?_
    assumption

theorem weldTestCompare_frame (n : Fin 16) (b : Block) :
    Block.Only (Part.but [.snaps, .barrier, .fab, .d2d, .cross, .met, .acc, .pq, .slu, .sluCnt, .vehCfg, .v2g, .v2gCfg, .rcm, .rcmTest, .pf, .auth, .backup, .hp, .pnl, .frames, .nfc, .rst, .upd, .dbg, .settings, .newSettings, .legalSet, .updRec, .kept]) b (weldTestCompare n b) := by
  unfold weldTestCompare
  with_reducible
    split
    exact .refl _ _
    refine .ite _ ?_ ?_
    exact .refl _ _
    refine .afterTicks (by decide) (by decide) (fun _ _ => ?_) ?_
    split
    refine .step (weldEnd_frame ..) (by decide) ?_
    assumption
    refine .step (weldEnd_frame ..) (by decide) ?_
    assumption
    refine .ite _ ?_ ?_
    refine .step (weldEnd_frame ..) (by decide) ?_
    assumption
    refine .step (weldBegin_frame ..) (by decide) ?_
    refine .step (updNode_frame ..) (by decide) ?_
    assumption
    exact .refl _ _

theorem weldJoin_frame (n : Fin 16) (x : Fin 96) (m : Fin 4) (b : Block) :
    Block.Only [.arb, .btn, .cwy, .cwyX, .dmp, .hic, .lau, .qmg, .safX, .sess, .slu] b (weldJoin n x m b) := by
  unfold weldJoin
  with_reducible
    try lift_lets
    intro xx
    clear_value xx
    try lift_lets
    intro xx
    refine Block.Only.viaVar xx ?_ (fun _ => ?_) <;> [simp only [xx]; clear_value xx]
    refine .step (hoNew_frame ..) (by decide) ?_
    exact .refl _ _
    refine .step (setWeld_frame ..) (by decide) ?_
    split
    refine .step (hoMatch_frame ..) (by decide) ?_
    assumption
    assumption

theorem safWeldTest_frame (m : Fin 4) (b : Block) :
    Block.Only [.arb, .btn, .cwy, .cwyX, .dmp, .hic, .lau, .mbx, .mlk, .qmg, .rpl, .safX, .sess, .slu] b (safWeldTest m b) := by
  unfold safWeldTest
  with_reducible
    try lift_lets
    intro xx
    clear_value xx
    try lift_lets
    intro xx
    clear_value xx
    try lift_lets
    intro xx
    clear_value xx
    try lift_lets
    intro xx
    clear_value xx
    refine .checked (by decide) (by decide) (fun _ _ => ?_) ?_
    split
    refine .step (weldBegin_frame ..) (by decide) ?_
    assumption
    refine .step (weldJoin_frame ..) (by decide) ?_
    assumption
    assumption
    exact .refl _ _

end Sys2Proof.Machine
end

