-- ==== Sys2Proof/Laws/FrameAssociation.lean ====
section
/-! SUPPORT. Frames of the operations of Machine/Association.lean: the units each of them may change. -/

namespace Sys2Proof.Machine

theorem updPlcG_frame (f : PlcCfg → PlcCfg) (b : Block) :
    Block.Only [.plcCfg] b (updPlcG f b) := by
  unfold updPlcG
  with_reducible
    refine .set_plcCfg ?_ _ (by decide)
    exact .refl _ _

theorem creekItem_frame (n : Fin 16) (kind : U8) (content : List U8) (b : Block) :
    Block.Only [.rpl] b (creekItem n kind content b) := by
  unfold creekItem
  with_reducible
    refine .step (traceItem_frame ..) (by decide) ?_
    exact .refl _ _

theorem updV2g_frame (n : Fin 16) (f : V2gSession → V2gSession) (b : Block) :
    Block.Only [.v2g] b (updV2g n f b) := by
  unfold updV2g
  with_reducible
    refine .set_v2g ?_ _ (by decide)
    exact .refl _ _

theorem v2gClose_frame (n : Fin 16) (b : Block) :
    Block.Only [.hic, .v2g] b (v2gClose n b) := by
  unfold v2gClose
  with_reducible
    refine .ite _ ?_ ?_
    refine .step (irq_frame ..) (by decide) ?_
    refine .step (updV2g_frame ..) (by decide) ?_
    exact .refl _ _
    exact .refl _ _

theorem putRun_frame (r : SlacRun) (b : Block) :
    Block.Only [.plcCfg] b (putRun r b) := by
  unfold putRun
  with_reducible
    refine .step (updPlcG_frame ..) (by decide) ?_
    exact .refl _ _

theorem dropRun_frame (k : RunKey) (b : Block) :
    Block.Only [.plcCfg] b (dropRun k b) := by
  unfold dropRun
  with_reducible
    refine .step (updPlcG_frame ..) (by decide) ?_
    exact .refl _ _

theorem slacParmReq_frame (n : Fin 16) (mac : BitVec 48) (runId : U64) (b : Block) :
    Block.Only [.plc, .plcCfg, .rpl] b (slacParmReq n mac runId b) := by
  unfold slacParmReq
  with_reducible
    try lift_lets
    intro xx
    refine Block.Only.viaVar xx ?_ (fun _ => ?_) <;> [simp only [xx]; clear_value xx]
    refine .step (creekItem_frame ..) (by decide) ?_
    exact .refl _ _
    refine .ite _ ?_ ?_
    assumption
    refine .ite _ ?_ ?_
    refine .step (updPlc_frame ..) (by decide) ?_
    refine .step (putRun_frame ..) (by decide) ?_
    assumption
    refine .step (putRun_frame ..) (by decide) ?_
    assumption

theorem startAttenChar_frame (n : Fin 16) (mac : BitVec 48) (runId : U64) (sounds : U8) (b : Block) :
    Block.Only [.arb, .btn, .cwy, .cwyX, .dmp, .hic, .lau, .plc, .plcCfg, .qmg, .rpl] b (startAttenChar n mac runId sounds b) := by
  unfold startAttenChar
  with_reducible
    try lift_lets
    intro xx
    refine Block.Only.viaVar xx ?_ (fun _ => ?_) <;> [simp only [xx]; clear_value xx]
    refine .step (creekItem_frame ..) (by decide) ?_
    exact .refl _ _
    split
    assumption
    try lift_lets
    intro xx
    clear_value xx
    try lift_lets
    intro xx
    clear_value xx
    try lift_lets
    intro xx
    refine Block.Only.viaVar xx ?_ (fun _ => ?_) <;> [simp only [xx]; clear_value xx]
    refine .step (putRun_frame ..) (by decide) ?_
    assumption
    refine .ite _ ?_ ?_
    assumption
    refine .step (submit_frame ..) (by decide) ?_
    refine .ite _ ?_ ?_
    refine .step (updPlc_frame ..) (by decide) ?_
    assumption
    assumption

theorem armCapture_frame (e : Entry) (t : U64) (b : Block) :
    Block.Only [.plc] b (armCapture e t b) := by
  unfold armCapture
  with_reducible
    try lift_lets
    intro xx
    clear_value xx
    refine .forAll (fun _ _ _ => ?_) _ ?_
    refine .ite _ ?_ ?_
    refine .step (updPlc_frame ..) (by decide) ?_
    assumption
    assumption
    exact .refl _ _

theorem rearmCapture_frame (e : Entry) (b : Block) :
    Block.Only [.arb, .btn, .cwy, .cwyX, .dmp, .hic, .lau, .qmg] b (rearmCapture e b) := by
  unfold rearmCapture
  with_reducible
    refine .step (submit_frame ..) (by decide) ?_
    exact .refl _ _

theorem countErase_frame (n : Fin 16) (k : Nat) (b : Block) :
    Block.Only [.plc] b (countErase n k b) := by
  unfold countErase
  with_reducible
    refine .step (updPlc_frame ..) (by decide) ?_
    exact .refl _ _

theorem discardMeeting_frame (k : RunKey) (w : SoundWindow) (b : Block) :
    Block.Only [.plc, .plcCfg] b (discardMeeting k w b) := by
  unfold discardMeeting
  with_reducible
    try lift_lets
    intro xx
    clear_value xx
    try lift_lets
    intro xx
    refine Block.Only.viaVar xx ?_ (fun _ => ?_) <;> [simp only [xx]; clear_value xx]
    refine .forAll (fun _ _ _ => ?_) _ ?_
    refine .step (countErase_frame ..) (by decide) ?_
    assumption
    refine .step (updPlcG_frame ..) (by decide) ?_
    exact .refl _ _
    refine .forAll (fun _ _ _ => ?_) _ ?_
    refine .ite _ ?_ ?_
    assumption
    refine .ite _ ?_ ?_
    assumption
    refine .forAll (fun _ _ _ => ?_) _ ?_
    refine .step (countErase_frame ..) (by decide) ?_
    assumption
    refine .step (putRun_frame ..) (by decide) ?_
    assumption
    assumption

theorem newWindow_frame (n : Fin 16) (r : SlacRun) (x : SoundReading) (b : Block) :
    Block.Only [.plc, .plcCfg] b (newWindow n r x b) := by
  unfold newWindow
  with_reducible
    try lift_lets
    intro xx
    clear_value xx
    try lift_lets
    intro xx
    clear_value xx
    try lift_lets
    intro xx
    refine Block.Only.viaVar xx ?_ (fun _ => ?_) <;> [simp only [xx]; clear_value xx]
    refine .step (countErase_frame ..) (by decide) ?_
    refine .step (discardMeeting_frame ..) (by decide) ?_
    exact .refl _ _
    refine .step (putRun_frame ..) (by decide) ?_
    assumption

theorem sameWindow_frame (n : Fin 16) (r : SlacRun) (w : SoundWindow) (x : SoundReading) (b : Block) :
    Block.Only [.plcCfg] b (sameWindow n r w x b) := by
  unfold sameWindow
  with_reducible
    try lift_lets
    intro xx
    clear_value xx
    try lift_lets
    intro xx
    clear_value xx
    refine .step (putRun_frame ..) (by decide) ?_
    exact .refl _ _

theorem soundInd_frame (n : Fin 16) (x : SoundReading) (b : Block) :
    Block.Only [.plc, .plcCfg, .rpl] b (soundInd n x b) := by
  unfold soundInd
  with_reducible
    try lift_lets
    intro xx
    refine Block.Only.viaVar xx ?_ (fun _ => ?_) <;> [simp only [xx]; clear_value xx]
    refine .step (creekItem_frame ..) (by decide) ?_
    exact .refl _ _
    split
    assumption
    refine .ite _ ?_ ?_
    assumption
    split
    refine .step (sameWindow_frame ..) (by decide) ?_
    assumption
    refine .step (newWindow_frame ..) (by decide) ?_
    assumption

theorem failAttempt_frame (n : Fin 16) (d : BitVec 3) (b : Block) :
    Block.Only [.arb, .bri, .btn, .cwy, .cwyX, .dmp, .hic, .imd, .imdG, .key, .lau, .legal, .lsw, .pea, .plc, .plcCfg, .qmg, .saf, .safX, .sess, .slt, .veh] b (failAttempt n d b) := by
  unfold failAttempt
  with_reducible
    try lift_lets
    intro xx
    clear_value xx
    try lift_lets
    intro xx
    refine Block.Only.viaVar xx ?_ (fun _ => ?_) <;> [simp only [xx]; clear_value xx]
    refine .step (updPlc_frame ..) (by decide) ?_
    exact .refl _ _
    refine .ite _ ?_ ?_
    exact .refl _ _
    refine .ite _ ?_ ?_
    refine .step (stopSession_frame ..) (by decide) ?_
    refine .step (irq_frame ..) (by decide) ?_
    assumption
    refine .step (dutyReview_frame ..) (by decide) ?_
    refine .step (updVeh_frame ..) (by decide) ?_
    refine .step (updPlc_frame ..) (by decide) ?_
    assumption

theorem failRun_frame (n : Fin 16) (k : RunKey) (d : BitVec 3) (b : Block) :
    Block.Only [.arb, .bri, .btn, .cwy, .cwyX, .dmp, .hic, .imd, .imdG, .key, .lau, .legal, .lsw, .pea, .plc, .plcCfg, .qmg, .saf, .safX, .sess, .slt, .veh] b (failRun n k d b) := by
  unfold failRun
  with_reducible
    refine .ite _ ?_ ?_
    exact .refl _ _
    refine .step (failAttempt_frame ..) (by decide) ?_
    exact .refl _ _

theorem silence_frame (heard : BitVec 16) (w : Option (Fin 16)) (b : Block) :
    Block.Only [.hic, .plc] b (silence heard w b) := by
  unfold silence
  with_reducible
    try lift_lets
    intro xx
    clear_value xx
    refine .ite _ ?_ ?_
    exact .refl _ _
    refine .step (irq_frame ..) (by decide) ?_
    refine .forAll (fun _ _ _ => ?_) _ ?_
    refine .step (updPlc_frame ..) (by decide) ?_
    assumption
    exact .refl _ _

theorem acceptRun_frame (w : Fin 16) (k : RunKey) (set : SlacSet) (rep : RunReport) (b : Block) :
    Block.Only [.arb, .bri, .btn, .cwy, .cwyX, .dmp, .hic, .imd, .imdG, .key, .lau, .legal, .lsw, .pea, .plc, .plcCfg, .qmg, .rpl, .saf, .safX, .sess, .slt, .veh] b (acceptRun w k set rep b) := by
  unfold acceptRun
  with_reducible
    try lift_lets
    intro xx
    refine Block.Only.viaPair xx ?_ (fun _ => ?_) <;> [simp only [xx]; clear_value xx]
    refine .step (draw_frame ..) (by decide) ?_
    exact .refl _ _
    refine .ite _ ?_ ?_
    refine .step (failAttempt_frame ..) (by decide) ?_
    exact .refl _ _
    refine .ite _ ?_ ?_
    refine .step (silence_frame ..) (by decide) ?_
    refine .step (updPlc_frame ..) (by decide) ?_
    assumption
    refine .step (updPlc_frame ..) (by decide) ?_
    assumption

theorem reportAccepted_frame (k : RunKey) (b : Block) :
    Block.Only [.plc] b (reportAccepted k b) := by
  unfold reportAccepted
  with_reducible
    refine .set_plc ?_ _ (by decide)
    exact .refl _ _

theorem releaseStarter_frame (s w : Fin 16) (b : Block) :
    Block.Only [.plc] b (releaseStarter s w b) := by
  unfold releaseStarter
  with_reducible
    refine .ite _ ?_ ?_
    refine .step (updPlc_frame ..) (by decide) ?_
    exact .refl _ _
    exact .refl _ _

theorem retireRun_frame (r : SlacRun) (b : Block) :
    Block.Only [.plcCfg] b (retireRun r b) := by
  unfold retireRun
  with_reducible
    refine .step (dropRun_frame ..) (by decide) ?_
    refine .step (updPlcG_frame ..) (by decide) ?_
    exact .refl _ _

theorem decideRun_frame (r : SlacRun) (s : Fin 16) (b : Block) :
    Block.Only [.arb, .bri, .btn, .cwy, .cwyX, .dmp, .hic, .imd, .imdG, .key, .lau, .legal, .lsw, .pea, .plc, .plcCfg, .qmg, .rpl, .saf, .safX, .sess, .slt, .veh] b (decideRun r s b) := by
  unfold decideRun
  with_reducible
    try lift_lets
    intro xx
    clear_value xx
    try lift_lets
    intro xx
    clear_value xx
    try lift_lets
    intro xx
    clear_value xx
    try lift_lets
    intro xx
    refine Block.Only.viaVar xx ?_ (fun _ => ?_) <;> [simp only [xx]; clear_value xx]
    refine .forAll (fun _ _ _ => ?_) _ ?_
    refine .step (updPlc_frame ..) (by decide) ?_
    assumption
    refine .step (retireRun_frame ..) (by decide) ?_
    exact .refl _ _
    refine .ite _ ?_ ?_
    refine .step (releaseStarter_frame ..) (by decide) ?_
    refine .step (acceptRun_frame ..) (by decide) ?_
    assumption
    refine .ite _ ?_ ?_
    refine .step (failRun_frame ..) (by decide) ?_
    refine .step (silence_frame ..) (by decide) ?_
    assumption
    refine .ite _ ?_ ?_
    refine .ite _ ?_ ?_
    refine .step (releaseStarter_frame ..) (by decide) ?_
    refine .step (updPlc_frame ..) (by decide) ?_
    refine .step (irq_frame ..) (by decide) ?_
    refine .step (updPlc_frame ..) (by decide) ?_
    assumption
    refine .step (releaseStarter_frame ..) (by decide) ?_
    refine .step (failAttempt_frame ..) (by decide) ?_
    refine .step (irq_frame ..) (by decide) ?_
    refine .step (updPlc_frame ..) (by decide) ?_
    assumption
    refine .step (failRun_frame ..) (by decide) ?_
    assumption

theorem applyDecision_frame (r : SlacRun) (s : Fin 16) (b : Block) :
    Block.Only [.arb, .bri, .btn, .cwy, .cwyX, .dmp, .hic, .imd, .imdG, .key, .lau, .legal, .lsw, .pea, .plc, .plcCfg, .qmg, .rpl, .saf, .safX, .sess, .slt, .veh] b (applyDecision r s b) := by
  unfold applyDecision
  with_reducible
    refine .ite _ ?_ ?_
    refine .step (retireRun_frame ..) (by decide) ?_
    exact .refl _ _
    refine .step (decideRun_frame ..) (by decide) ?_
    exact .refl _ _

theorem soundingEnd_frame (n : Fin 16) (mac : BitVec 48) (runId : U64) (b : Block) :
    Block.Only (Part.but [.snaps, .barrier, .fab, .d2d, .cross, .met, .acc, .pq, .slu, .sluCnt, .mlk, .vehCfg, .v2g, .v2gCfg, .rcm, .rcmTest, .pf, .auth, .backup, .mbx, .hp, .pnl, .frames, .nfc, .rst, .upd, .dbg, .settings, .newSettings, .legalSet, .updRec, .kept]) b (soundingEnd n mac runId b) := by
  unfold soundingEnd
  with_reducible
    split
    exact .refl _ _
    split
    exact .refl _ _
    refine .ite _ ?_ ?_
    refine .step (applyDecision_frame ..) (by decide) ?_
    exact .refl _ _
    refine .atInstant (by decide) (by decide) (fun _ _ => ?_) ?_
    refine .step (applyDecision_frame ..) (by decide) ?_
    assumption
    exact .refl _ _

theorem validationEnd_frame (n : Fin 16) (announced : Option Nat) (b : Block) :
    Block.Only [.arb, .bri, .btn, .cwy, .cwyX, .dmp, .hic, .imd, .imdG, .key, .lau, .legal, .lsw, .pea, .plc, .plcCfg, .qmg, .rpl, .saf, .safX, .sess, .slt, .veh] b (validationEnd n announced b) := by
  unfold validationEnd
  with_reducible
    try lift_lets
    intro xx
    clear_value xx
    try lift_lets
    intro (xx : _ → _)
    split
    refine .ite _ ?_ ?_
    exact .refl _ _
    refine .ite _ ?_ ?_
    refine .step (reportAccepted_frame ..) (by decide) ?_
    refine .step (acceptRun_frame ..) (by decide) ?_
    exact .refl _ _
    refine .step (failAttempt_frame ..) (by decide) ?_
    exact .refl _ _
    exact .refl _ _

theorem slacMatchReq_frame (n : Fin 16) (mac : BitVec 48) (runId : U64) (b : Block) :
    Block.Only [.plc, .rpl] b (slacMatchReq n mac runId b) := by
  unfold slacMatchReq
  with_reducible
    try lift_lets
    intro xx
    refine Block.Only.viaVar xx ?_ (fun _ => ?_) <;> [simp only [xx]; clear_value xx]
    refine .step (creekItem_frame ..) (by decide) ?_
    exact .refl _ _
    split
    refine .ite _ ?_ ?_
    refine .step (updPlc_frame ..) (by decide) ?_
    assumption
    assumption
    assumption

theorem vehicleJoined_frame (n : Fin 16) (b : Block) :
    Block.Only [.arb, .btn, .cwy, .cwyX, .dmp, .hic, .imd, .imdG, .lau, .lsw, .plc, .plcCfg, .qmg, .rpl, .saf, .safX, .sess, .v2g] b (vehicleJoined n b) := by
  unfold vehicleJoined
  with_reducible
    try lift_lets
    intro xx
    refine Block.Only.viaVar xx ?_ (fun _ => ?_) <;> [simp only [xx]; clear_value xx]
    refine .step (creekItem_frame ..) (by decide) ?_
    exact .refl _ _
    refine .ite _ ?_ ?_
    refine .step (enterPhase_frame ..) (by decide) ?_
    refine .set_v2g ?_ _ (by decide)
    refine .step (irq_frame ..) (by decide) ?_
    refine .step (updPlc_frame ..) (by decide) ?_
    assumption
    assumption

theorem slacTimerExpired_frame (n : Fin 16) (b : Block) :
    Block.Only [.arb, .bri, .btn, .cwy, .cwyX, .dmp, .hic, .imd, .imdG, .key, .lau, .legal, .lsw, .pea, .plc, .plcCfg, .prior, .qmg, .saf, .safX, .sess, .slt, .tide, .veh] b (slacTimerExpired n b) := by
  unfold slacTimerExpired
  with_reducible
    try lift_lets
    intro xx
    clear_value xx
    try lift_lets
    intro xx
    clear_value xx
    try lift_lets
    intro (xx : _ → _)
    refine .ite _ ?_ ?_
    exact .refl _ _
    refine .ite _ ?_ ?_
    refine .afterTicks (by decide) (by decide) (fun _ _ => ?_) ?_
    refine .step (failAttempt_frame ..) (by decide) ?_
    assumption
    exact .refl _ _
    refine .ite _ ?_ ?_
    refine .afterTicks (by decide) (by decide) (fun _ _ => ?_) ?_
    refine .step (failAttempt_frame ..) (by decide) ?_
    assumption
    exact .refl _ _
    refine .ite _ ?_ ?_
    refine .afterTicks (by decide) (by decide) (fun _ _ => ?_) ?_
    refine .step (failAttempt_frame ..) (by decide) ?_
    assumption
    exact .refl _ _
    exact .refl _ _

theorem slacRestartEnd_frame (n : Fin 16) (b : Block) :
    Block.Only [.arb, .btn, .cwy, .cwyX, .dmp, .hic, .lau, .plc, .prior, .qmg, .tide, .veh] b (slacRestartEnd n b) := by
  unfold slacRestartEnd
  with_reducible
    try lift_lets
    intro xx
    clear_value xx
    refine .ite _ ?_ ?_
    refine .atInstant (by decide) (by decide) (fun _ _ => ?_) ?_
    refine .step (dutyReview_frame ..) (by decide) ?_
    refine .step (updVeh_frame ..) (by decide) ?_
    refine .step (updPlc_frame ..) (by decide) ?_
    assumption
    exact .refl _ _
    exact .refl _ _

theorem rateEnd_frame (n : Fin 16) (gain : Fin 16) (l : List ReceiveSpan) (b : Block) :
    Block.Only [.hic, .plc] b (rateEnd n gain l b) := by
  unfold rateEnd
  with_reducible
    try lift_lets
    intro xx
    clear_value xx
    try lift_lets
    intro xx
    clear_value xx
    try lift_lets
    intro xx
    clear_value xx
    refine .onlyIf _ (fun _ _ => ?_) ?_
    refine .step (irq_frame ..) (by decide) ?_
    assumption
    refine .step (updPlc_frame ..) (by decide) ?_
    exact .refl _ _

theorem eraseRateWindow_frame (n : Fin 16) (gain : Fin 16) (l : List ReceiveSpan) (b : Block) :
    Block.Only [.hic, .plc, .prior, .tide] b (eraseRateWindow n gain l b) := by
  unfold eraseRateWindow
  with_reducible
    refine .ite _ ?_ ?_
    exact .refl _ _
    split
    refine .afterTicks (by decide) (by decide) (fun _ _ => ?_) ?_
    refine .step (rateEnd_frame ..) (by decide) ?_
    assumption
    exact .refl _ _
    refine .step (rateEnd_frame ..) (by decide) ?_
    exact .refl _ _

theorem modemFault_frame (n : Fin 16) (b : Block) :
    Block.Only [.arb, .bri, .btn, .cwy, .cwyX, .dmp, .hic, .imd, .imdG, .key, .lau, .legal, .lsw, .mlk, .pea, .plc, .plcCfg, .qmg, .saf, .safX, .sess, .slt, .v2g, .veh] b (modemFault n b) := by
  unfold modemFault
  with_reducible
    try lift_lets
    intro xx
    refine Block.Only.viaVar xx ?_ (fun _ => ?_) <;> [simp only [xx]; clear_value xx]
    refine .step (v2gClose_frame ..) (by decide) ?_
    refine .step (irq_frame ..) (by decide) ?_
    refine .step (updPlc_frame ..) (by decide) ?_
    exact .refl _ _
    refine .ite _ ?_ ?_
    exact .refl _ _
    refine .ite _ ?_ ?_
    refine .step (updPlc_frame ..) (by decide) ?_
    assumption
    refine .step (deviceFault_frame ..) (by decide) ?_
    assumption

theorem plcSetMac_frame (m : Fin 4) (b : Block) :
    Block.Only [.arb, .hic, .mbx, .pea, .plcCfg, .rpl] b (plcSetMac m b) := by
  unfold plcSetMac
  with_reducible
    try lift_lets
    intro xx
    clear_value xx
    refine .checked (by decide) (by decide) (fun _ _ => ?_) ?_
    refine .step (ok_frame ..) (by decide) ?_
    refine .step (saveSettings_frame ..) (by decide) ?_
    refine .step (updPlcG_frame ..) (by decide) ?_
    assumption
    exact .refl _ _

theorem modemDisable_frame (n : Fin 16) (b : Block) :
    Block.Only [.arb, .bri, .btn, .cwy, .cwyX, .dmp, .hic, .imd, .imdG, .key, .lau, .legal, .lsw, .pea, .plc, .plcCfg, .qmg, .saf, .safX, .sess, .slt, .v2g, .veh] b (modemDisable n b) := by
  unfold modemDisable
  with_reducible
    refine .step (v2gClose_frame ..) (by decide) ?_
    refine .step (updPlc_frame ..) (by decide) ?_
    refine .onlyIf _ (fun _ _ => ?_) ?_
    refine .step (stopSession_frame ..) (by decide) ?_
    assumption
    exact .refl _ _

theorem plcEnable_frame (m : Fin 4) (b : Block) :
    Block.Only (Part.but [.tide, .snaps, .barrier, .fab, .d2d, .cross, .met, .acc, .pq, .slu, .sluCnt, .mlk, .vehCfg, .v2gCfg, .rcm, .rcmTest, .pf, .auth, .backup, .hp, .pnl, .frames, .nfc, .rst, .upd, .dbg, .settings, .newSettings, .legalSet, .updRec, .kept, .prior]) b (plcEnable m b) := by
  unfold plcEnable
  with_reducible
    try lift_lets
    intro xx
    clear_value xx
    try lift_lets
    intro xx
    clear_value xx
    refine .checked (by decide) (by decide) (fun _ _ => ?_) ?_
    try lift_lets
    intro xx
    refine Block.Only.viaVar xx ?_ (fun _ => ?_) <;> [simp only [xx]; clear_value xx]
    refine .forAll (fun _ _ _ => ?_) _ ?_
    refine .ite _ ?_ ?_
    refine .step (updPlc_frame ..) (by decide) ?_
    assumption
    refine .step (modemDisable_frame ..) (by decide) ?_
    assumption
    assumption
    refine .step (ok_frame ..) (by decide) ?_
    refine .step (saveSettings_frame ..) (by decide) ?_
    assumption
    exact .refl _ _

theorem plcSetSlac_frame (m : Fin 4) (b : Block) :
    Block.Only [.arb, .btn, .hic, .mbx, .pea, .plcCfg, .rpl] b (plcSetSlac m b) := by
  unfold plcSetSlac
  with_reducible
    try lift_lets
    intro xx
    clear_value xx
    refine .checked (by decide) (by decide) (fun _ _ => ?_) ?_
    refine .step (cmdLog_frame ..) (by decide) ?_
    refine .step (ok_frame ..) (by decide) ?_
    refine .step (saveSettings_frame ..) (by decide) ?_
    refine .step (updPlcG_frame ..) (by decide) ?_
    assumption
    exact .refl _ _

theorem plcSetBlank_frame (m : Fin 4) (b : Block) :
    Block.Only [.arb, .btn, .hic, .mbx, .pea, .plc, .rpl] b (plcSetBlank m b) := by
  unfold plcSetBlank
  with_reducible
    try lift_lets
    intro xx
    clear_value xx
    try lift_lets
    intro xx
    clear_value xx
    try lift_lets
    intro xx
    clear_value xx
    try lift_lets
    intro xx
    clear_value xx
    refine .checked (by decide) (by decide) (fun _ _ => ?_) ?_
    refine .step (cmdLog_frame ..) (by decide) ?_
    refine .step (ok_frame ..) (by decide) ?_
    refine .step (saveSettings_frame ..) (by decide) ?_
    refine .forAll (fun _ _ _ => ?_) _ ?_
    refine .step (updPlc_frame ..) (by decide) ?_
    assumption
    assumption
    exact .refl _ _

theorem plcGetStatus_frame (m : Fin 4) (b : Block) :
    Block.Only [.mbx, .rpl] b (plcGetStatus m b) := by
  unfold plcGetStatus
  with_reducible
    try lift_lets
    intro xx
    clear_value xx
    refine .checked (by decide) (by decide) (fun _ _ => ?_) ?_
    refine .step (ok_frame ..) (by decide) ?_
    assumption
    exact .refl _ _

theorem plcGetRun_frame (m : Fin 4) (b : Block) :
    Block.Only [.mbx, .rpl] b (plcGetRun m b) := by
  unfold plcGetRun
  with_reducible
    refine .checked (by decide) (by decide) (fun _ _ => ?_) ?_
    split
    refine .step (refuse_frame ..) (by decide) ?_
    assumption
    refine .step (ok_frame ..) (by decide) ?_
    assumption
    exact .refl _ _

theorem plcGetProfile_frame (m : Fin 4) (b : Block) :
    Block.Only [.mbx, .rpl] b (plcGetProfile m b) := by
  unfold plcGetProfile
  with_reducible
    try lift_lets
    intro xx
    clear_value xx
    refine .checked (by decide) (by decide) (fun _ _ => ?_) ?_
    split
    refine .step (refuse_frame ..) (by decide) ?_
    assumption
    try lift_lets
    intro xx
    clear_value xx
    refine .step (ok_frame ..) (by decide) ?_
    assumption
    exact .refl _ _

theorem plcClearCounts_frame (m : Fin 4) (b : Block) :
    Block.Only [.mbx, .plc, .rpl] b (plcClearCounts m b) := by
  unfold plcClearCounts
  with_reducible
    refine .step (ok_frame ..) (by decide) ?_
    refine .forAll (fun _ _ _ => ?_) _ ?_
    refine .step (updPlc_frame ..) (by decide) ?_
    assumption
    exact .refl _ _

end Sys2Proof.Machine
end

