-- ==== Sys2Proof/Laws/FrameAuthorise.lean ====
section
/-! SUPPORT. Frames of the operations of Machine/Authorise.lean: the units each of them may change. -/

namespace Sys2Proof.Machine

theorem updAuth_frame (n : Fin 16) (f : AuthHold → AuthHold) (b : Block) :
    Block.Only [.auth] b (updAuth n f b) := by
  unfold updAuth
  with_reducible
    refine .set_auth ?_ _ (by decide)
    exact .refl _ _

theorem admitSession_frame (n : Fin 16) (b : Block) :
    Block.Only [.arb, .btn, .cwy, .cwyX, .dmp, .hic, .imd, .imdG, .key, .lau, .legal, .lsw, .plc, .plcCfg, .qmg, .saf, .safX, .sess, .slt] b (admitSession n b) := by
  unfold admitSession
  with_reducible
    refine .step (openItems_frame ..) (by decide) ?_
    refine .step (enterPhase_frame ..) (by decide) ?_
    refine .step (updSess_frame ..) (by decide) ?_
    exact .refl _ _

theorem useDecision_frame (n : Fin 16) (b : Block) :
    Block.Only [.arb, .auth, .bri, .btn, .cwy, .cwyX, .dmp, .hic, .imd, .imdG, .key, .lau, .legal, .lsw, .pea, .plc, .plcCfg, .qmg, .saf, .safX, .sess, .slt, .veh] b (useDecision n b).1 := by
  unfold useDecision
  with_reducible
    try lift_lets
    intro xx
    clear_value xx
    try lift_lets
    intro xx
    refine Block.Only.viaVar xx ?_ (fun _ => ?_) <;> [simp only [xx]; clear_value xx]
    refine .step (admitSession_frame ..) (by decide) ?_
    refine .step (updAuth_frame ..) (by decide) ?_
    exact .refl _ _
    refine .iteFst _ ?_ ?_
    refine .step (stopSession_frame ..) (by decide) ?_
    refine .step (updAuth_frame ..) (by decide) ?_
    exact .refl _ _
    refine .iteFst _ ?_ ?_
    assumption
    refine .iteFst _ ?_ ?_
    refine .step (reserve_frame ..) (by decide) ?_
    assumption
    refine .step (updAuth_frame ..) (by decide) ?_
    refine .step (reserve_frame ..) (by decide) ?_
    exact .refl _ _

theorem enterAuthorising_frame (n : Fin 16) (b : Block) :
    Block.Only [.arb, .auth, .bri, .btn, .cwy, .cwyX, .dmp, .hic, .imd, .imdG, .key, .lau, .legal, .lsw, .pea, .plc, .plcCfg, .qmg, .saf, .safX, .sess, .slt, .veh] b (enterAuthorising n b) := by
  unfold enterAuthorising
  with_reducible
    try lift_lets
    intro xx
    refine Block.Only.viaVar xx ?_ (fun _ => ?_) <;> [simp only [xx]; clear_value xx]
    refine .step (enterPhase_frame ..) (by decide) ?_
    exact .refl _ _
    refine .ite _ ?_ ?_
    refine .step (useDecision_frame ..) (by decide) ?_
    assumption
    assumption

theorem authHoldExpired_frame (n : Fin 16) (b : Block) :
    Block.Only [.arb, .auth, .btn, .hic, .pea, .prior, .tide] b (authHoldExpired n b) := by
  unfold authHoldExpired
  with_reducible
    try lift_lets
    intro xx
    clear_value xx
    refine .ite _ ?_ ?_
    refine .atInstant (by decide) (by decide) (fun _ _ => ?_) ?_
    refine .step (irqLog_frame ..) (by decide) ?_
    refine .step (updAuth_frame ..) (by decide) ?_
    assumption
    exact .refl _ _
    exact .refl _ _

theorem sltAuthorise_frame (m : Fin 4) (b : Block) :
    Block.Only (Part.but [.tide, .snaps, .barrier, .fab, .d2d, .cross, .met, .acc, .pq, .slu, .sluCnt, .mlk, .vehCfg, .v2g, .v2gCfg, .rcm, .rcmTest, .pf, .backup, .hp, .pnl, .frames, .nfc, .rst, .upd, .dbg, .settings, .newSettings, .legalSet, .updRec, .kept, .prior]) b (sltAuthorise m b) := by
  unfold sltAuthorise
  with_reducible
    try lift_lets
    intro xx
    clear_value xx
    try lift_lets
    intro xx
    clear_value xx
    try lift_lets
    intro xx
    clear_value xx
    try lift_lets
    intro xx
    clear_value xx
    refine .checked (by decide) (by decide) (fun _ _ => ?_) ?_
    try lift_lets
    intro xx
    refine Block.Only.viaPair xx ?_ (fun _ => ?_) <;> [simp only [xx]; clear_value xx]
    refine .step (useDecision_frame ..) (by decide) ?_
    refine .step (updAuth_frame ..) (by decide) ?_
    assumption
    refine .ite _ ?_ ?_
    refine .ite _ ?_ ?_
    refine .step (ok_frame ..) (by decide) ?_
    assumption
    refine .step (refuse_frame ..) (by decide) ?_
    assumption
    refine .step (ok_frame ..) (by decide) ?_
    refine .step (updAuth_frame ..) (by decide) ?_
    assumption
    exact .refl _ _

end Sys2Proof.Machine
end

