-- ==== Sys2Proof/Laws/FrameSettingsOps.lean ====
section
/-! SUPPORT. Frames of the operations of Machine/SettingsOps.lean: the units each of them may change. -/

namespace Sys2Proof.Machine

theorem applySlu_frame (x : Settings) (b : Block) :
    Block.Only [.mlk, .sess, .slu] b (applySlu x b) := by
  unfold applySlu
  with_reducible
    try lift_lets
    intro xx
    clear_value xx
    try lift_lets
    intro xx
    clear_value xx
    try lift_lets
    intro xx
    clear_value xx
    refine .set_mlk_sess_slu ?_ _ _ _ (by decide) (by decide) (by decide)
    exact .refl _ _

theorem applyVeh_frame (x : Settings) (b : Block) :
    Block.Only [.plc, .plcCfg, .v2gCfg, .veh, .vehCfg] b (applyVeh x b) := by
  unfold applyVeh
  with_reducible
    try lift_lets
    intro xx
    clear_value xx
    try lift_lets
    intro xx
    clear_value xx
    try lift_lets
    intro xx
    clear_value xx
    refine .set_plc_plcCfg_v2gCfg_veh_vehCfg ?_ _ _ _ _ _ (by decide) (by decide) (by decide) (by decide) (by decide)
    exact .refl _ _

theorem applyProtect_frame (x : Settings) (b : Block) :
    Block.Only [.imd, .imdG, .lsw, .rcm] b (applyProtect x b) := by
  unfold applyProtect
  with_reducible
    try lift_lets
    intro xx
    clear_value xx
    try lift_lets
    intro xx
    clear_value xx
    refine .set_imd_imdG_lsw_rcm ?_ _ _ _ _ (by decide) (by decide) (by decide) (by decide)
    exact .refl _ _

theorem applySafety_frame (x : Settings) (b : Block) :
    Block.Only [.saf, .safX] b (applySafety x b) := by
  unfold applySafety
  with_reducible
    try lift_lets
    intro xx
    clear_value xx
    try lift_lets
    intro xx
    clear_value xx
    refine .set_saf_safX ?_ _ _ (by decide) (by decide)
    exact .refl _ _

theorem applyPort_frame (x : Settings) (b : Block) :
    Block.Only [.arb, .btn, .cwy, .nfc, .pf, .pnl, .qmg, .rpl, .upd] b (applyPort x b) := by
  unfold applyPort
  with_reducible
    try lift_lets
    intro xx
    clear_value xx
    try lift_lets
    intro xx
    clear_value xx
    try lift_lets
    intro xx
    clear_value xx
    try lift_lets
    intro xx
    clear_value xx
    try lift_lets
    intro xx
    clear_value xx
    try lift_lets
    intro xx
    clear_value xx
    try lift_lets
    intro xx
    clear_value xx
    refine .set_arb_btn_cwy_nfc_pf_pnl_qmg_rpl_upd ?_ _ _ _ _ _ _ _ _ _ (by decide) (by decide) (by decide) (by decide) (by decide) (by decide) (by decide) (by decide) (by decide)
    exact .refl _ _

theorem noteSettings_frame (b : Block) :
    Block.Only [.newSettings, .settings] b (noteSettings b) := by
  unfold noteSettings
  with_reducible
    split
    refine .set_newSettings ?_ _ (by decide)
    exact .refl _ _
    refine .set_settings ?_ _ (by decide)
    exact .refl _ _

theorem applyBilling_frame (x : LegalSet) (b : Block) :
    Block.Only [.bri, .slt] b (applyBilling x b) := by
  unfold applyBilling
  with_reducible
    try lift_lets
    intro xx
    clear_value xx
    try lift_lets
    intro xx
    clear_value xx
    refine .set_bri_slt ?_ _ _ (by decide) (by decide)
    exact .refl _ _

theorem applyMetrology_frame (x : LegalSet) (b : Block) :
    Block.Only [.acc, .met, .pq] b (applyMetrology x b) := by
  unfold applyMetrology
  with_reducible
    try lift_lets
    intro xx
    clear_value xx
    try lift_lets
    intro xx
    clear_value xx
    try lift_lets
    intro xx
    clear_value xx
    refine .set_acc_met_pq ?_ _ _ _ (by decide) (by decide) (by decide)
    exact .refl _ _

end Sys2Proof.Machine
end

