-- ==== Sys2Proof/Laws/FrameV2g.lean ====
section
/-! SUPPORT. Frames of the operations of Machine/V2g.lean: the units each of them may change. -/

namespace Sys2Proof.Machine

theorem sendAnswer_frame (n : Fin 16) (a : V2gAnswer) (b : Block) :
    Block.Only [.v2g] b (sendAnswer n a b) := by
  unfold sendAnswer
  with_reducible
    refine .step (updV2g_frame ..) (by decide) ?_
    exact .refl _ _

theorem sendOutcome_frame (n : Fin 16) (st : V2gStatus) (volts : Bool) (b : Block) :
    Block.Only [.hic, .v2g] b (sendOutcome n st volts b) := by
  unfold sendOutcome
  with_reducible
    try lift_lets
    intro xx
    refine Block.Only.viaVar xx ?_ (fun _ => ?_) <;> [simp only [xx]; clear_value xx]
    refine .step (sendAnswer_frame ..) (by decide) ?_
    exact .refl _ _
    refine .onlyIf _ (fun _ _ => ?_) ?_
    refine .step (v2gClose_frame ..) (by decide) ?_
    assumption
    assumption

theorem v2gTimeout_frame (n : Fin 16) (b : Block) :
    Block.Only [.arb, .bri, .btn, .cwy, .cwyX, .dmp, .hic, .imd, .imdG, .key, .lau, .legal, .lsw, .pea, .plc, .plcCfg, .qmg, .saf, .safX, .sess, .slt, .v2g, .veh] b (v2gTimeout n b) := by
  unfold v2gTimeout
  with_reducible
    refine .step (v2gClose_frame ..) (by decide) ?_
    refine .step (stopSession_frame ..) (by decide) ?_
    refine .step (irq_frame ..) (by decide) ?_
    refine .step (updV2g_frame ..) (by decide) ?_
    exact .refl _ _

theorem tlsFailure_frame (n : Fin 16) (b : Block) :
    Block.Only [.arb, .bri, .btn, .cwy, .cwyX, .dmp, .hic, .imd, .imdG, .key, .lau, .legal, .lsw, .pea, .plc, .plcCfg, .qmg, .saf, .safX, .sess, .slt, .v2g, .veh] b (tlsFailure n b) := by
  unfold tlsFailure
  with_reducible
    refine .step (v2gClose_frame ..) (by decide) ?_
    refine .step (stopSession_frame ..) (by decide) ?_
    refine .step (irq_frame ..) (by decide) ?_
    refine .step (updV2g_frame ..) (by decide) ?_
    exact .refl _ _

theorem v2gFail_frame (n : Fin 16) (b : Block) :
    Block.Only [.v2g] b (v2gFail n b) := by
  unfold v2gFail
  with_reducible
    refine .step (sendAnswer_frame ..) (by decide) ?_
    exact .refl _ _

theorem v2gOk_frame (n : Fin 16) (b : Block) :
    Block.Only [.v2g] b (v2gOk n b) := by
  unfold v2gOk
  with_reducible
    refine .step (sendAnswer_frame ..) (by decide) ?_
    exact .refl _ _

theorem reqAppProtocol_frame (n : Fin 16) (offers : List (Nat × Nat)) (dynamic : Bool) (b : Block) :
    Block.Only [.arb, .bri, .btn, .cwy, .cwyX, .dmp, .hic, .imd, .imdG, .key, .lau, .legal, .lsw, .pea, .plc, .plcCfg, .qmg, .saf, .safX, .sess, .slt, .v2g, .veh] b (reqAppProtocol n offers dynamic b) := by
  unfold reqAppProtocol
  with_reducible
    try lift_lets
    intro xx
    clear_value xx
    refine .ite _ ?_ ?_
    refine .step (v2gFail_frame ..) (by decide) ?_
    exact .refl _ _
    dsimp (zetaDelta := true) only
    split
    refine .step (v2gFail_frame ..) (by decide) ?_
    exact .refl _ _
    refine .ite _ ?_ ?_
    refine .step (tlsFailure_frame ..) (by decide) ?_
    refine .step (updV2g_frame ..) (by decide) ?_
    exact .refl _ _
    refine .step (v2gOk_frame ..) (by decide) ?_
    refine .step (updV2g_frame ..) (by decide) ?_
    exact .refl _ _

theorem tlsEnds_frame (n : Fin 16) (version : BitVec 2) (good : Bool) (b : Block) :
    Block.Only [.arb, .bri, .btn, .cwy, .cwyX, .dmp, .hic, .imd, .imdG, .key, .lau, .legal, .lsw, .pea, .plc, .plcCfg, .qmg, .saf, .safX, .sess, .slt, .v2g, .veh] b (tlsEnds n version good b) := by
  unfold tlsEnds
  with_reducible
    refine .ite _ ?_ ?_
    refine .step (updV2g_frame ..) (by decide) ?_
    exact .refl _ _
    refine .step (tlsFailure_frame ..) (by decide) ?_
    exact .refl _ _

theorem tlsStepDone_frame (n : Fin 16) (good : Bool) (b : Block) :
    Block.Only [.arb, .bri, .btn, .cwy, .cwyX, .dmp, .hic, .imd, .imdG, .key, .lau, .legal, .lsw, .pea, .plc, .plcCfg, .qmg, .saf, .safX, .sess, .slt, .v2g, .veh] b (tlsStepDone n good b) := by
  unfold tlsStepDone
  with_reducible
    split
    refine .ite _ ?_ ?_
    refine .step (tlsEnds_frame ..) (by decide) ?_
    exact .refl _ _
    exact .refl _ _
    exact .refl _ _

theorem reqTls_frame (n : Fin 16) (version : BitVec 2) (suite : TlsSuite) (curve : TlsCurve) (completes : Bool) (b : Block) :
    Block.Only [.arb, .bri, .btn, .cwy, .cwyX, .dmp, .hic, .imd, .imdG, .key, .lau, .legal, .lsw, .pea, .plc, .plcCfg, .qmg, .saf, .safX, .sess, .slt, .v2g, .veh] b (reqTls n version suite curve completes b) := by
  unfold reqTls
  with_reducible
    try lift_lets
    intro xx
    clear_value xx
    try lift_lets
    intro (xx : _ → _)
    refine .ite _ ?_ ?_
    refine .step (v2gFail_frame ..) (by decide) ?_
    exact .refl _ _
    refine .ite _ ?_ ?_
    refine .step (tlsFailure_frame ..) (by decide) ?_
    exact .refl _ _
    split
    refine .step (tlsEnds_frame ..) (by decide) ?_
    exact .refl _ _
    refine .step (engineSubmit_frame ..) (by decide) ?_
    refine .step (updV2g_frame ..) (by decide) ?_
    exact .refl _ _
    refine .step (engineSubmit_frame ..) (by decide) ?_
    refine .step (updV2g_frame ..) (by decide) ?_
    exact .refl _ _

theorem reqSdp_frame (n : Fin 16) (b : Block) :
    Block.Only [.v2g] b (reqSdp n b) := by
  unfold reqSdp
  with_reducible
    refine .ite _ ?_ ?_
    refine .step (updV2g_frame ..) (by decide) ?_
    exact .refl _ _
    exact .refl _ _

theorem reqSessionSetup_frame (n : Fin 16) (b : Block) :
    Block.Only [.hic, .v2g] b (reqSessionSetup n b) := by
  unfold reqSessionSetup
  with_reducible
    try lift_lets
    intro xx
    clear_value xx
    refine .ite _ ?_ ?_
    refine .step (v2gFail_frame ..) (by decide) ?_
    exact .refl _ _
    refine .step (v2gOk_frame ..) (by decide) ?_
    refine .onlyIf _ (fun _ _ => ?_) ?_
    refine .step (irq_frame ..) (by decide) ?_
    assumption
    refine .step (updV2g_frame ..) (by decide) ?_
    exact .refl _ _

theorem reqExternal_frame (n : Fin 16) (b : Block) :
    Block.Only [.v2g] b (reqExternal n b) := by
  unfold reqExternal
  with_reducible
    refine .ite _ ?_ ?_
    refine .step (v2gOk_frame ..) (by decide) ?_
    refine .step (updV2g_frame ..) (by decide) ?_
    exact .refl _ _
    refine .step (v2gFail_frame ..) (by decide) ?_
    exact .refl _ _

theorem reqContract_frame (n : Fin 16) (chain ident : List U8) (b : Block) :
    Block.Only [.arb, .bri, .btn, .cwy, .cwyX, .dmp, .hic, .imd, .imdG, .key, .lau, .legal, .lsw, .pea, .plc, .plcCfg, .qmg, .saf, .safX, .sess, .slt, .v2g, .veh] b (reqContract n chain ident b) := by
  unfold reqContract
  with_reducible
    try lift_lets
    intro xx
    clear_value xx
    try lift_lets
    intro xx
    refine Block.Only.viaVar xx ?_ (fun _ => ?_) <;> [simp only [xx]; clear_value xx]
    refine .step (updV2g_frame ..) (by decide) ?_
    exact .refl _ _
    refine .ite _ ?_ ?_
    refine .step (v2gFail_frame ..) (by decide) ?_
    exact .refl _ _
    refine .ite _ ?_ ?_
    refine .ite _ ?_ ?_
    refine .step (tlsFailure_frame ..) (by decide) ?_
    exact .refl _ _
    refine .step (v2gFail_frame ..) (by decide) ?_
    exact .refl _ _
    refine .step (v2gOk_frame ..) (by decide) ?_
    refine .step (irq_frame ..) (by decide) ?_
    refine .step (sendRecords_frame ..) (by decide) ?_
    assumption

theorem reqAuthorization_frame (n : Fin 16) (b : Block) :
    Block.Only [.arb, .auth, .bri, .btn, .cwy, .cwyX, .dmp, .hic, .imd, .imdG, .key, .lau, .legal, .lsw, .pea, .plc, .plcCfg, .qmg, .saf, .safX, .sess, .slt, .v2g, .veh] b (reqAuthorization n b) := by
  unfold reqAuthorization
  with_reducible
    try lift_lets
    intro xx
    refine Block.Only.viaVar xx ?_ (fun _ => ?_) <;> [simp only [xx]; clear_value xx]
    refine .ite _ ?_ ?_
    refine .step (enterAuthorising_frame ..) (by decide) ?_
    exact .refl _ _
    exact .refl _ _
    split
    refine .step (sendAnswer_frame ..) (by decide) ?_
    assumption
    refine .step (v2gFail_frame ..) (by decide) ?_
    assumption
    refine .step (v2gFail_frame ..) (by decide) ?_
    assumption
    refine .step (v2gFail_frame ..) (by decide) ?_
    assumption
    refine .step (v2gFail_frame ..) (by decide) ?_
    assumption
    refine .step (v2gFail_frame ..) (by decide) ?_
    assumption
    refine .step (sendOutcome_frame ..) (by decide) ?_
    assumption

theorem reqParameters_frame (n : Fin 16) (maxV maxI maxP targetV targetI : U16) (soc : U8) (b : Block) :
    Block.Only [.hic, .v2g] b (reqParameters n maxV maxI maxP targetV targetI soc b) := by
  unfold reqParameters
  with_reducible
    try lift_lets
    intro xx
    refine Block.Only.viaVar xx ?_ (fun _ => ?_) <;> [simp only [xx]; clear_value xx]
    refine .step (updV2g_frame ..) (by decide) ?_
    exact .refl _ _
    refine .ite _ ?_ ?_
    refine .step (sendOutcome_frame ..) (by decide) ?_
    exact .refl _ _
    refine .step (sendOutcome_frame ..) (by decide) ?_
    assumption

theorem reqCableCheck_frame (n : Fin 16) (b : Block) :
    Block.Only [.arb, .btn, .cwy, .cwyX, .dmp, .hic, .imd, .imdG, .lau, .lsw, .plc, .plcCfg, .qmg, .saf, .safX, .sess, .v2g] b (reqCableCheck n b) := by
  unfold reqCableCheck
  with_reducible
    try lift_lets
    intro xx
    clear_value xx
    try lift_lets
    intro xx
    refine Block.Only.viaVar xx ?_ (fun _ => ?_) <;> [simp only [xx]; clear_value xx]
    refine .ite _ ?_ ?_
    refine .step (enterPhase_frame ..) (by decide) ?_
    exact .refl _ _
    exact .refl _ _
    refine .ite _ ?_ ?_
    refine .step (sendOutcome_frame ..) (by decide) ?_
    exact .refl _ _
    refine .step (sendOutcome_frame ..) (by decide) ?_
    assumption

theorem prechargeOn_frame (n : Fin 16) (b : Block) :
    Block.Only [.arb, .btn, .cwy, .cwyX, .dmp, .hic, .imd, .imdG, .lau, .lsw, .plc, .plcCfg, .qmg, .saf, .safX, .sess] b (prechargeOn n b) := by
  unfold prechargeOn
  with_reducible
    refine .ite _ ?_ ?_
    refine .step (enterPhase_frame ..) (by decide) ?_
    exact .refl _ _
    exact .refl _ _

theorem reqPreCharge_frame (n : Fin 16) (targetV targetI presentV : U16) (b : Block) :
    Block.Only [.arb, .btn, .cwy, .cwyX, .dmp, .hic, .imd, .imdG, .lau, .lsw, .plc, .plcCfg, .qmg, .saf, .safX, .sess, .v2g] b (reqPreCharge n targetV targetI presentV b) := by
  unfold reqPreCharge
  with_reducible
    try lift_lets
    intro xx
    refine Block.Only.viaVar xx ?_ (fun _ => ?_) <;> [simp only [xx]; clear_value xx]
    refine .step (prechargeOn_frame ..) (by decide) ?_
    refine .step (updV2g_frame ..) (by decide) ?_
    exact .refl _ _
    refine .ite _ ?_ ?_
    refine .step (sendOutcome_frame ..) (by decide) ?_
    exact .refl _ _
    refine .step (sendOutcome_frame ..) (by decide) ?_
    assumption

theorem reqPowerStart_frame (n : Fin 16) (b : Block) :
    Block.Only [.arb, .btn, .cwy, .cwyX, .dmp, .hic, .imd, .imdG, .lau, .lsw, .plc, .plcCfg, .qmg, .saf, .safX, .sess, .v2g] b (reqPowerStart n b) := by
  unfold reqPowerStart
  with_reducible
    try lift_lets
    intro xx
    refine Block.Only.viaVar xx ?_ (fun _ => ?_) <;> [simp only [xx]; clear_value xx]
    refine .step (prechargeOn_frame ..) (by decide) ?_
    exact .refl _ _
    refine .ite _ ?_ ?_
    refine .step (sendOutcome_frame ..) (by decide) ?_
    assumption
    refine .step (sendOutcome_frame ..) (by decide) ?_
    assumption

theorem reqDemand_frame (n : Fin 16) (maxV maxI maxP targetV targetI presentV : U16) (soc : U8) (b : Block) :
    Block.Only [.arb, .btn, .cwy, .cwyX, .dmp, .hic, .imd, .imdG, .lau, .lsw, .plc, .plcCfg, .qmg, .saf, .safX, .sess, .v2g] b (reqDemand n maxV maxI maxP targetV targetI presentV soc b) := by
  unfold reqDemand
  with_reducible
    try lift_lets
    intro xx
    refine Block.Only.viaVar xx ?_ (fun _ => ?_) <;> [simp only [xx]; clear_value xx]
    refine .step (prechargeOn_frame ..) (by decide) ?_
    exact .refl _ _
    refine .ite _ ?_ ?_
    refine .step (sendOutcome_frame ..) (by decide) ?_
    assumption
    refine .step (sendOutcome_frame ..) (by decide) ?_
    refine .step (updV2g_frame ..) (by decide) ?_
    assumption

theorem reqPowerStop_frame (n : Fin 16) (b : Block) :
    Block.Only [.arb, .bri, .btn, .cwy, .cwyX, .dmp, .hic, .imd, .imdG, .key, .lau, .legal, .lsw, .pea, .plc, .plcCfg, .qmg, .saf, .safX, .sess, .slt, .v2g, .veh] b (reqPowerStop n b) := by
  unfold reqPowerStop
  with_reducible
    try lift_lets
    intro xx
    refine Block.Only.viaVar xx ?_ (fun _ => ?_) <;> [simp only [xx]; clear_value xx]
    refine .ite _ ?_ ?_
    refine .step (stopSession_frame ..) (by decide) ?_
    exact .refl _ _
    exact .refl _ _
    refine .step (sendOutcome_frame ..) (by decide) ?_
    assumption

theorem reqWelding_frame (n : Fin 16) (b : Block) :
    Block.Only [.hic, .v2g] b (reqWelding n b) := by
  unfold reqWelding
  with_reducible
    refine .step (sendOutcome_frame ..) (by decide) ?_
    exact .refl _ _

theorem reqSessionStop_frame (n : Fin 16) (b : Block) :
    Block.Only [.arb, .bri, .btn, .cwy, .cwyX, .dmp, .hic, .imd, .imdG, .key, .lau, .legal, .lsw, .pea, .plc, .plcCfg, .qmg, .saf, .safX, .sess, .slt, .v2g, .veh] b (reqSessionStop n b) := by
  unfold reqSessionStop
  with_reducible
    refine .step (v2gClose_frame ..) (by decide) ?_
    refine .step (updV2g_frame ..) (by decide) ?_
    refine .step (reqPowerStop_frame ..) (by decide) ?_
    exact .refl _ _

theorem v2gServe_frame (n : Fin 16) (b : Block) (y0 : V2gRequest) :
    Block.Only [.arb, .auth, .bri, .btn, .cwy, .cwyX, .dmp, .hic, .imd, .imdG, .key, .lau, .legal, .lsw, .pea, .plc, .plcCfg, .qmg, .saf, .safX, .sess, .slt, .v2g, .veh] b (v2gServe n b y0) := by
  unfold v2gServe
  with_reducible
    split
    refine .step (reqAppProtocol_frame ..) (by decide) ?_
    exact .refl _ _
    refine .step (reqSdp_frame ..) (by decide) ?_
    exact .refl _ _
    refine .step (reqTls_frame ..) (by decide) ?_
    exact .refl _ _
    refine .step (reqSessionSetup_frame ..) (by decide) ?_
    exact .refl _ _
    refine .ite _ ?_ ?_
    refine .step (v2gOk_frame ..) (by decide) ?_
    exact .refl _ _
    refine .step (v2gFail_frame ..) (by decide) ?_
    exact .refl _ _
    refine .step (reqExternal_frame ..) (by decide) ?_
    exact .refl _ _
    refine .step (reqContract_frame ..) (by decide) ?_
    exact .refl _ _
    refine .step (reqAuthorization_frame ..) (by decide) ?_
    exact .refl _ _
    refine .step (reqParameters_frame ..) (by decide) ?_
    exact .refl _ _
    refine .step (reqCableCheck_frame ..) (by decide) ?_
    exact .refl _ _
    refine .step (reqPreCharge_frame ..) (by decide) ?_
    exact .refl _ _
    refine .step (reqPowerStart_frame ..) (by decide) ?_
    exact .refl _ _
    refine .step (reqDemand_frame ..) (by decide) ?_
    exact .refl _ _
    refine .step (reqPowerStop_frame ..) (by decide) ?_
    exact .refl _ _
    refine .step (reqWelding_frame ..) (by decide) ?_
    exact .refl _ _
    refine .step (reqSessionStop_frame ..) (by decide) ?_
    exact .refl _ _
    refine .step (v2gFail_frame ..) (by decide) ?_
    exact .refl _ _

theorem v2gRequest_frame (n : Fin 16) (q : V2gRequest) (b : Block) :
    Block.Only (Part.but [.tide, .snaps, .barrier, .fab, .d2d, .cross, .met, .acc, .pq, .slu, .sluCnt, .mlk, .vehCfg, .v2gCfg, .rcm, .rcmTest, .pf, .backup, .mbx, .hp, .pnl, .frames, .nfc, .rst, .upd, .dbg, .settings, .newSettings, .legalSet, .updRec, .kept, .prior]) b (v2gRequest n q b) := by
  unfold v2gRequest
  with_reducible
    try lift_lets
    intro xx
    refine Block.Only.viaVar xx ?_ (fun _ => ?_) <;> [simp only [xx]; clear_value xx]
    refine .step (creekItem_frame ..) (by decide) ?_
    exact .refl _ _
    refine .ite _ ?_ ?_
    refine .step (v2gServe_frame ..) (by decide) ?_
    refine .step (updV2g_frame ..) (by decide) ?_
    assumption
    assumption

theorem v2gSeqTimeout_frame (n : Fin 16) (b : Block) :
    Block.Only (Part.but [.snaps, .barrier, .fab, .d2d, .cross, .met, .acc, .pq, .slu, .sluCnt, .mlk, .vehCfg, .v2gCfg, .rcm, .rcmTest, .pf, .auth, .backup, .mbx, .hp, .pnl, .frames, .nfc, .rst, .upd, .rpl, .dbg, .settings, .newSettings, .legalSet, .updRec, .kept]) b (v2gSeqTimeout n b) := by
  unfold v2gSeqTimeout
  with_reducible
    try lift_lets
    intro xx
    clear_value xx
    refine .ite _ ?_ ?_
    refine .afterTicks (by decide) (by decide) (fun _ _ => ?_) ?_
    refine .step (v2gTimeout_frame ..) (by decide) ?_
    assumption
    exact .refl _ _
    exact .refl _ _

theorem v2gLinkLoss_frame (n : Fin 16) (network : Bool) (b : Block) :
    Block.Only [.arb, .bri, .btn, .cwy, .cwyX, .dmp, .hic, .imd, .imdG, .key, .lau, .legal, .lsw, .pea, .plc, .plcCfg, .qmg, .rpl, .saf, .safX, .sess, .slt, .v2g, .veh] b (v2gLinkLoss n network b) := by
  unfold v2gLinkLoss
  with_reducible
    try lift_lets
    intro xx
    refine Block.Only.viaVar xx ?_ (fun _ => ?_) <;> [simp only [xx]; clear_value xx]
    refine .step (creekItem_frame ..) (by decide) ?_
    exact .refl _ _
    refine .ite _ ?_ ?_
    assumption
    refine .ite _ ?_ ?_
    refine .onlyIf _ (fun _ _ => ?_) ?_
    refine .step (updPlc_frame ..) (by decide) ?_
    assumption
    assumption
    refine .ite _ ?_ ?_
    refine .step (v2gTimeout_frame ..) (by decide) ?_
    refine .onlyIf _ (fun _ _ => ?_) ?_
    refine .step (updPlc_frame ..) (by decide) ?_
    assumption
    assumption
    refine .step (v2gClose_frame ..) (by decide) ?_
    refine .onlyIf _ (fun _ _ => ?_) ?_
    refine .step (updPlc_frame ..) (by decide) ?_
    assumption
    assumption

theorem v2gSetConfig_frame (m : Fin 4) (b : Block) :
    Block.Only [.arb, .hic, .mbx, .pea, .rpl, .v2gCfg] b (v2gSetConfig m b) := by
  unfold v2gSetConfig
  with_reducible
    try lift_lets
    intro xx
    clear_value xx
    try lift_lets
    intro xx
    clear_value xx
    try lift_lets
    intro xx
    clear_value xx
    refine .checked (by decide) (by decide) (fun _ _ => ?_) ?_
    try lift_lets
    intro xx
    clear_value xx
    refine .step (ok_frame ..) (by decide) ?_
    refine .step (saveSettings_frame ..) (by decide) ?_
    refine .set_v2gCfg ?_ _ (by decide)
    assumption
    exact .refl _ _

theorem v2gSetSecc_frame (m : Fin 4) (b : Block) :
    Block.Only [.arb, .btn, .cwy, .cwyX, .dmp, .hic, .mbx, .qmg, .rpl, .v2gCfg] b (v2gSetSecc m b) := by
  unfold v2gSetSecc
  with_reducible
    try lift_lets
    intro xx
    clear_value xx
    try lift_lets
    intro xx
    clear_value xx
    try lift_lets
    intro xx
    clear_value xx
    try lift_lets
    intro xx
    clear_value xx
    try lift_lets
    intro xx
    clear_value xx
    refine .checked (by decide) (by decide) (fun _ _ => ?_) ?_
    try lift_lets
    intro xx
    refine Block.Only.viaVar xx ?_ (fun _ => ?_) <;> [simp only [xx]; clear_value xx]
    refine .step (hostDataConsume_frame ..) (by decide) ?_
    assumption
    refine .step (ok_frame ..) (by decide) ?_
    refine .set_v2gCfg ?_ _ (by decide)
    assumption
    exact .refl _ _

theorem v2gGetSession_frame (m : Fin 4) (b : Block) :
    Block.Only [.mbx, .rpl] b (v2gGetSession m b) := by
  unfold v2gGetSession
  with_reducible
    try lift_lets
    intro xx
    clear_value xx
    refine .checked (by decide) (by decide) (fun _ _ => ?_) ?_
    refine .step (ok_frame ..) (by decide) ?_
    assumption
    exact .refl _ _

theorem v2gClearCounts_frame (m : Fin 4) (b : Block) :
    Block.Only [.mbx, .rpl, .v2g] b (v2gClearCounts m b) := by
  unfold v2gClearCounts
  with_reducible
    refine .step (ok_frame ..) (by decide) ?_
    refine .forAll (fun _ _ _ => ?_) _ ?_
    refine .step (updV2g_frame ..) (by decide) ?_
    assumption
    exact .refl _ _

end Sys2Proof.Machine
end

