-- ==== Sys2Proof/Laws/FramePeat.lean ====
section
/-! SUPPORT. Frames of the operations of Machine/Peat.lean: the units each of them may change. -/

namespace Sys2Proof.Machine

theorem updPea_frame (f : Peat → Peat) (b : Block) :
    Block.Only [.pea] b (updPea f b) := by
  unfold updPea
  with_reducible
    refine .set_pea ?_ _ (by decide)
    exact .refl _ _

theorem updArb_frame (f : Arbiter → Arbiter) (b : Block) :
    Block.Only [.arb] b (updArb f b) := by
  unfold updArb
  with_reducible
    refine .set_arb ?_ _ (by decide)
    exact .refl _ _

theorem updReq_frame (r : Fin 6) (f : Requester → Requester) (b : Block) :
    Block.Only [.arb] b (updReq r f b) := by
  unfold updReq
  with_reducible
    refine .step (updArb_frame ..) (by decide) ?_
    exact .refl _ _

theorem drainCheck_frame (b : Block) :
    Block.Only [.arb, .hic, .mbx, .rpl] b (drainCheck b) := by
  unfold drainCheck
  with_reducible
    try lift_lets
    intro xx
    refine Block.Only.viaVar xx ?_ (fun _ => ?_) <;> [simp only [xx]; clear_value xx]
    refine .step (irq_frame ..) (by decide) ?_
    refine .step (updArb_frame ..) (by decide) ?_
    exact .refl _ _
    refine .ite _ ?_ ?_
    split
    refine .step (ok_frame ..) (by decide) ?_
    refine .step (updArb_frame ..) (by decide) ?_
    assumption
    assumption
    exact .refl _ _

theorem setFreeze_frame (exempt : BitVec 6) (b : Block) :
    Block.Only [.arb] b (setFreeze exempt b) := by
  unfold setFreeze
  with_reducible
    refine .step (updArb_frame ..) (by decide) ?_
    exact .refl _ _

theorem liftFreeze_frame (b : Block) :
    Block.Only [.arb] b (liftFreeze b) := by
  unfold liftFreeze
  with_reducible
    refine .step (updArb_frame ..) (by decide) ?_
    exact .refl _ _

theorem decideFor_frame (w : Fin 6) (l : List (Fin 6)) (b : Block) :
    Block.Only [.arb] b (decideFor w l b) := by
  unfold decideFor
  with_reducible
    refine .step (updArb_frame ..) (by decide) ?_
    exact .refl _ _

theorem arbiterDecision_frame (b : Block) :
    Block.Only [.arb, .bri, .hic, .pea, .rst] b (arbiterDecision b) := by
  unfold arbiterDecision
  with_reducible
    try lift_lets
    intro xx
    refine Block.Only.viaVar xx ?_ (fun _ => ?_) <;> [simp only [xx]; clear_value xx]
    refine .step (shutdownDue_frame ..) (by decide) ?_
    exact .refl _ _
    refine .ite _ ?_ ?_
    assumption
    split
    assumption
    refine .ite _ ?_ ?_
    refine .step (updArb_frame ..) (by decide) ?_
    assumption
    refine .step (decideFor_frame ..) (by decide) ?_
    assumption

theorem backoffEnd_frame (r : Fin 6) (b : Block) :
    Block.Only [.arb] b (backoffEnd r b) := by
  unfold backoffEnd
  with_reducible
    refine .step (updReq_frame ..) (by decide) ?_
    exact .refl _ _

theorem dropRequest_frame (r : Fin 6) (b : Block) :
    Block.Only [.arb, .btn] b (dropRequest r b) := by
  unfold dropRequest
  with_reducible
    try lift_lets
    intro xx
    clear_value xx
    try lift_lets
    intro xx
    clear_value xx
    try lift_lets
    intro (xx : _ → _)
    try lift_lets
    intro xx
    clear_value xx
    try lift_lets
    intro xx
    refine Block.Only.viaVar xx ?_ (fun _ => ?_) <;> [simp only [xx]; clear_value xx]
    refine .onlyIf _ (fun _ _ => ?_) ?_
    refine .set_btn ?_ _ (by decide)
    assumption
    exact .refl _ _
    refine .step (updReq_frame ..) (by decide) ?_
    assumption

theorem requestWithdraw_frame (r : Fin 6) (b : Block) :
    Block.Only [.arb, .btn] b (requestWithdraw r b) := by
  unfold requestWithdraw
  with_reducible
    try lift_lets
    intro xx
    refine Block.Only.viaVar xx ?_ (fun _ => ?_) <;> [simp only [xx]; clear_value xx]
    refine .step (dropRequest_frame ..) (by decide) ?_
    refine .step (updArb_frame ..) (by decide) ?_
    exact .refl _ _
    refine .ite _ ?_ ?_
    exact .refl _ _
    refine .ite _ ?_ ?_
    refine .step (updReq_frame ..) (by decide) ?_
    refine .step (updArb_frame ..) (by decide) ?_
    refine .step (dropRequest_frame ..) (by decide) ?_
    exact .refl _ _
    refine .ite _ ?_ ?_
    refine .ite _ ?_ ?_
    refine .step (updReq_frame ..) (by decide) ?_
    assumption
    assumption
    refine .ite _ ?_ ?_
    exact .refl _ _
    refine .step (dropRequest_frame ..) (by decide) ?_
    exact .refl _ _

theorem countWrite_frame (b : Block) :
    Block.Only [.hic, .pea] b (countWrite b) := by
  unfold countWrite
  with_reducible
    try lift_lets
    intro xx
    clear_value xx
    try lift_lets
    intro xx
    clear_value xx
    try lift_lets
    intro xx
    clear_value xx
    try lift_lets
    intro xx
    refine Block.Only.viaVar xx ?_ (fun _ => ?_) <;> [simp only [xx]; clear_value xx]
    refine .step (updPea_frame ..) (by decide) ?_
    exact .refl _ _
    refine .ite _ ?_ ?_
    refine .step (irq_frame ..) (by decide) ?_
    refine .step (updPea_frame ..) (by decide) ?_
    assumption
    assumption

theorem storeLine_frame (line : Nat) (l : List U8) (b : Block) :
    Block.Only [.pea] b (storeLine line l b) := by
  unfold storeLine
  with_reducible
    refine .step (updPea_frame ..) (by decide) ?_
    exact .refl _ _

theorem uncorrectable_frame (line : Nat) (b : Block) :
    Block.Only [.arb, .bri, .btn, .cwy, .cwyX, .dmp, .hic, .imd, .imdG, .key, .lau, .legal, .lsw, .pea, .plc, .plcCfg, .qmg, .saf, .safX, .sess, .slt, .veh] b (uncorrectable line b) := by
  unfold uncorrectable
  with_reducible
    try lift_lets
    intro xx
    refine Block.Only.viaVar xx ?_ (fun _ => ?_) <;> [simp only [xx]; clear_value xx]
    refine .step (irq_frame ..) (by decide) ?_
    refine .step (updPea_frame ..) (by decide) ?_
    exact .refl _ _
    refine .step (stopAll_frame ..) (by decide) ?_
    split
    refine .ite _ ?_ ?_
    refine .step (legalLog_frame ..) (by decide) ?_
    assumption
    refine .step (unproveWallet_frame ..) (by decide) ?_
    refine .step (legalLog_frame ..) (by decide) ?_
    assumption
    refine .step (legalLog_frame ..) (by decide) ?_
    assumption

theorem tearLine_frame (r : Fin 6) (b : Block) :
    Block.Only [.pea] b (tearLine r b) := by
  unfold tearLine
  with_reducible
    try lift_lets
    intro xx
    clear_value xx
    try lift_lets
    intro xx
    refine Block.Only.viaVar xx ?_ (fun _ => ?_) <;> [simp only [xx]; clear_value xx]
    refine .step (updPea_frame ..) (by decide) ?_
    exact .refl _ _
    split
    dsimp (zetaDelta := true) only
    split
    exact .refl _ _
    assumption
    dsimp (zetaDelta := true) only
    split
    exact .refl _ _
    refine .step (updPea_frame ..) (by decide) ?_
    refine .step (storeLine_frame ..) (by decide) ?_
    assumption

theorem counterDone_frame (k : Fin 64) (v : Nat) (mbx : Option (Fin 4)) (b : Block) :
    Block.Only [.arb, .btn, .hic, .mbx, .pea, .rpl] b (counterDone k v mbx b) := by
  unfold counterDone
  with_reducible
    try lift_lets
    intro xx
    refine Block.Only.viaVar xx ?_ (fun _ => ?_) <;> [simp only [xx]; clear_value xx]
    refine .step (updPea_frame ..) (by decide) ?_
    exact .refl _ _
    split
    refine .step (ok_frame ..) (by decide) ?_
    refine .ite _ ?_ ?_
    refine .step (legalLog_frame ..) (by decide) ?_
    refine .step (irq_frame ..) (by decide) ?_
    refine .step (updPea_frame ..) (by decide) ?_
    refine .ite _ ?_ ?_
    refine .step (irq_frame ..) (by decide) ?_
    refine .step (updPea_frame ..) (by decide) ?_
    assumption
    assumption
    refine .ite _ ?_ ?_
    refine .step (irq_frame ..) (by decide) ?_
    refine .step (updPea_frame ..) (by decide) ?_
    assumption
    assumption
    refine .ite _ ?_ ?_
    refine .step (legalLog_frame ..) (by decide) ?_
    refine .step (irq_frame ..) (by decide) ?_
    refine .step (updPea_frame ..) (by decide) ?_
    refine .ite _ ?_ ?_
    refine .step (irq_frame ..) (by decide) ?_
    refine .step (updPea_frame ..) (by decide) ?_
    assumption
    assumption
    refine .ite _ ?_ ?_
    refine .step (irq_frame ..) (by decide) ?_
    refine .step (updPea_frame ..) (by decide) ?_
    assumption
    assumption

theorem tamperLogged_frame (body : List U8) (b : Block) :
    Block.Only [.backup] b (tamperLogged body b) := by
  unfold tamperLogged
  with_reducible
    try lift_lets
    intro xx
    clear_value xx
    refine .ite _ ?_ ?_
    refine .set_backup ?_ _ (by decide)
    exact .refl _ _
    exact .refl _ _

theorem legalWritten_frame (b : Block) :
    Block.Only [.backup, .btn, .hic] b (legalWritten b) := by
  unfold legalWritten
  with_reducible
    refine .onlyIf _ (fun _ _ => ?_) ?_
    refine .step (irq_frame ..) (by decide) ?_
    assumption
    try lift_lets
    intro xx
    clear_value xx
    refine .set_btn ?_ _ (by decide)
    split
    exact .refl _ _
    refine .step (tamperLogged_frame ..) (by decide) ?_
    exact .refl _ _

theorem sealChecked_frame (kind : Nat) (epoch : U32) (b : Block) :
    Block.Only [.pea, .pf] b (sealChecked kind epoch b) := by
  unfold sealChecked
  with_reducible
    try lift_lets
    intro xx
    refine Block.Only.viaVar xx ?_ (fun _ => ?_) <;> [simp only [xx]; clear_value xx]
    refine .step (updPea_frame ..) (by decide) ?_
    exact .refl _ _
    refine .ite _ ?_ ?_
    refine .set_pf ?_ _ (by decide)
    assumption
    assumption

theorem closeLedger_frame (n : Fin 16) (b : Block) :
    Block.Only [.bri] b (closeLedger n b) := by
  unfold closeLedger
  with_reducible
    refine .step (updLedger_frame ..) (by decide) ?_
    exact .refl _ _

theorem storeAct_frame (a : StoreAct) (b : Block) :
    Block.Only [.arb, .backup, .bri, .btn, .hic, .key, .legalSet, .mbx, .newSettings, .pea, .pf, .rpl, .settings, .updRec] b (storeAct a b) := by
  unfold storeAct
  with_reducible
    try lift_lets
    intro xx
    clear_value xx
    split
    exact .refl _ _
    refine .step (legalWritten_frame ..) (by decide) ?_
    exact .refl _ _
    refine .step (counterDone_frame ..) (by decide) ?_
    exact .refl _ _
    refine .step (noteSettings_frame ..) (by decide) ?_
    exact .refl _ _
    refine .step (sealChecked_frame ..) (by decide) ?_
    exact .refl _ _
    refine .set_btn ?_ _ (by decide)
    exact .refl _ _
    refine .step (keyApplied_frame ..) (by decide) ?_
    exact .refl _ _
    refine .set_updRec ?_ _ (by decide)
    exact .refl _ _
    refine .step (ok_frame ..) (by decide) ?_
    refine .set_legalSet ?_ _ (by decide)
    exact .refl _ _
    refine .set_legalSet ?_ _ (by decide)
    exact .refl _ _
    refine .step (ok_frame ..) (by decide) ?_
    exact .refl _ _
    refine .step (closeLedger_frame ..) (by decide) ?_
    exact .refl _ _
    refine .step (leased_frame ..) (by decide) ?_
    exact .refl _ _

theorem failTo_frame (m : Option (Fin 4)) (b : Block) :
    Block.Only [.arb, .btn, .hic, .mbx, .pea, .rpl] b (failTo m b) := by
  unfold failTo
  with_reducible
    split
    refine .step (internalFail_frame ..) (by decide) ?_
    exact .refl _ _
    exact .refl _ _

theorem dropWaiting_frame (b : Block) :
    Block.Only [.btn] b (dropWaiting b) := by
  unfold dropWaiting
  with_reducible
    try lift_lets
    intro xx
    clear_value xx
    refine .set_btn ?_ _ (by decide)
    exact .refl _ _

theorem storeFailed_frame (a : StoreAct) (b : Block) :
    Block.Only [.arb, .bri, .btn, .hic, .key, .mbx, .pea, .rpl] b (storeFailed a b) := by
  unfold storeFailed
  with_reducible
    split
    refine .step (failTo_frame ..) (by decide) ?_
    exact .refl _ _
    refine .step (keyNext_frame ..) (by decide) ?_
    refine .step (internalFail_frame ..) (by decide) ?_
    exact .refl _ _
    refine .step (internalFail_frame ..) (by decide) ?_
    exact .refl _ _
    refine .step (closeLedger_frame ..) (by decide) ?_
    exact .refl _ _
    refine .step (leaseLost_frame ..) (by decide) ?_
    exact .refl _ _
    refine .step (failTo_frame ..) (by decide) ?_
    exact .refl _ _
    refine .step (dropWaiting_frame ..) (by decide) ?_
    exact .refl _ _
    exact .refl _ _
    exact .refl _ _
    exact .refl _ _
    exact .refl _ _
    exact .refl _ _

theorem storeItem_frame (r : Fin 6) (status : U8) (line : Nat) (b : Block) :
    Block.Only [.rpl] b (storeItem r status line b) := by
  unfold storeItem
  with_reducible
    refine .step (traceItem_frame ..) (by decide) ?_
    exact .refl _ _

theorem countCorrection_frame (b : Block) :
    Block.Only [.hic, .pea] b (countCorrection b) := by
  unfold countCorrection
  with_reducible
    try lift_lets
    intro xx
    clear_value xx
    try lift_lets
    intro xx
    refine Block.Only.viaVar xx ?_ (fun _ => ?_) <;> [simp only [xx]; clear_value xx]
    refine .step (updPea_frame ..) (by decide) ?_
    exact .refl _ _
    refine .ite _ ?_ ?_
    refine .step (irq_frame ..) (by decide) ?_
    refine .step (updPea_frame ..) (by decide) ?_
    assumption
    assumption

theorem readLines_frame (m : Fin 4) (errs : List U8) (b : Block) :
    Block.Only [.arb, .bri, .btn, .cwy, .cwyX, .dmp, .hic, .imd, .imdG, .key, .lau, .legal, .lsw, .mbx, .pea, .plc, .plcCfg, .qmg, .rpl, .saf, .safX, .sess, .slt, .veh] b (readLines m errs b) := by
  unfold readLines
  with_reducible
    try lift_lets
    intro xx
    clear_value xx
    try lift_lets
    intro xx
    clear_value xx
    try lift_lets
    intro xx
    clear_value xx
    try lift_lets
    intro (xx : _ → _)
    try lift_lets
    intro (xx : _ → _)
    try lift_lets
    intro xx
    refine Block.Only.viaVar xx ?_ (fun _ => ?_) <;> [simp only [xx]; clear_value xx]
    refine .forAll (fun _ _ _ => ?_) _ ?_
    refine .step (countCorrection_frame ..) (by decide) ?_
    assumption
    exact .refl _ _
    split
    refine .step (internalFail_frame ..) (by decide) ?_
    refine .step (uncorrectable_frame ..) (by decide) ?_
    exact .refl _ _
    refine .step (ok_frame ..) (by decide) ?_
    assumption

theorem readsGo_frame (b : Block) :
    Block.Only [.arb, .bri, .btn, .cwy, .cwyX, .dmp, .hic, .imd, .imdG, .key, .lau, .legal, .lsw, .mbx, .pea, .plc, .plcCfg, .qmg, .rpl, .saf, .safX, .sess, .slt, .veh] b (readsGo b) := by
  unfold readsGo
  with_reducible
    refine .forAll (fun _ _ _ => ?_) _ ?_
    refine .ite _ ?_ ?_
    refine .step (readLines_frame ..) (by decide) ?_
    assumption
    assumption
    refine .step (updArb_frame ..) (by decide) ?_
    exact .refl _ _

theorem portNext_frame (r : Fin 6) (b : Block) :
    Block.Only [.arb, .bri, .btn, .cwy, .cwyX, .dmp, .hic, .imd, .imdG, .key, .lau, .legal, .lsw, .mbx, .pea, .plc, .plcCfg, .qmg, .rpl, .saf, .safX, .sess, .slt, .veh] b (portNext r b) := by
  unfold portNext
  with_reducible
    refine .step (readsGo_frame ..) (by decide) ?_
    refine .step (drainCheck_frame ..) (by decide) ?_
    refine .step (updArb_frame ..) (by decide) ?_
    exact .refl _ _

theorem lineDone_frame (c : LineCheck) (b : Block) :
    Block.Only (Part.but [.tide, .snaps, .barrier, .fab, .d2d, .cross, .met, .acc, .pq, .slu, .sluCnt, .mlk, .vehCfg, .v2g, .v2gCfg, .rcm, .rcmTest, .auth, .hp, .pnl, .frames, .nfc, .rst, .upd, .dbg, .kept, .prior]) b (lineDone c b) := by
  unfold lineDone
  with_reducible
    try lift_lets
    intro xx
    refine Block.Only.viaVar xx ?_ (fun _ => ?_) <;> [simp only [xx]; clear_value xx]
    refine .onlyIf _ (fun _ _ => ?_) ?_
    refine .step (countWrite_frame ..) (by decide) ?_
    assumption
    exact .refl _ _
    split
    exact .refl _ _
    split
    dsimp (zetaDelta := true) only
    split
    refine .step (portNext_frame ..) (by decide) ?_
    exact .refl _ _
    refine .step (portNext_frame ..) (by decide) ?_
    refine .step (storeItem_frame ..) (by decide) ?_
    refine .step (storeFailed_frame ..) (by decide) ?_
    refine .step (uncorrectable_frame ..) (by decide) ?_
    refine .step (countWrite_frame ..) (by decide) ?_
    refine .step (updReq_frame ..) (by decide) ?_
    assumption
    dsimp (zetaDelta := true) only
    split
    refine .step (portNext_frame ..) (by decide) ?_
    exact .refl _ _
    refine .ite _ ?_ ?_
    refine .step (portNext_frame ..) (by decide) ?_
    refine .step (storeItem_frame ..) (by decide) ?_
    refine .step (storeAct_frame ..) (by decide) ?_
    refine .step (updReq_frame ..) (by decide) ?_
    refine .step (updPea_frame ..) (by decide) ?_
    refine .step (countWrite_frame ..) (by decide) ?_
    refine .step (storeLine_frame ..) (by decide) ?_
    assumption
    refine .step (portNext_frame ..) (by decide) ?_
    refine .step (updReq_frame ..) (by decide) ?_
    refine .step (updPea_frame ..) (by decide) ?_
    refine .step (countWrite_frame ..) (by decide) ?_
    refine .step (storeLine_frame ..) (by decide) ?_
    assumption

theorem requesterMask_frame (r : Fin 6) (on : Bool) (b : Block) :
    Block.Only [.arb, .bri, .btn, .cwy, .cwyX, .dmp, .hic, .imd, .imdG, .key, .lau, .legal, .lsw, .mbx, .pea, .plc, .plcCfg, .qmg, .rpl, .saf, .safX, .sess, .slt, .veh] b (requesterMask r on b) := by
  unfold requesterMask
  with_reducible
    refine .ite _ ?_ ?_
    refine .step (updReq_frame ..) (by decide) ?_
    exact .refl _ _
    refine .ite _ ?_ ?_
    refine .step (readsGo_frame ..) (by decide) ?_
    refine .step (drainCheck_frame ..) (by decide) ?_
    refine .step (updArb_frame ..) (by decide) ?_
    refine .step (irq_frame ..) (by decide) ?_
    refine .step (updArb_frame ..) (by decide) ?_
    refine .step (updReq_frame ..) (by decide) ?_
    try lift_lets
    intro xx
    clear_value xx
    refine .ite _ ?_ ?_
    refine .set_btn ?_ _ (by decide)
    refine .onlyIf _ (fun _ _ => ?_) ?_
    refine .step (tearLine_frame ..) (by decide) ?_
    assumption
    exact .refl _ _
    refine .onlyIf _ (fun _ _ => ?_) ?_
    refine .step (tearLine_frame ..) (by decide) ?_
    assumption
    exact .refl _ _
    refine .step (drainCheck_frame ..) (by decide) ?_
    refine .step (updArb_frame ..) (by decide) ?_
    refine .step (updReq_frame ..) (by decide) ?_
    try lift_lets
    intro xx
    clear_value xx
    refine .ite _ ?_ ?_
    refine .set_btn ?_ _ (by decide)
    refine .onlyIf _ (fun _ _ => ?_) ?_
    refine .step (tearLine_frame ..) (by decide) ?_
    assumption
    exact .refl _ _
    refine .onlyIf _ (fun _ _ => ?_) ?_
    refine .step (tearLine_frame ..) (by decide) ?_
    assumption
    exact .refl _ _

theorem holdWatchdog_frame (b : Block) :
    Block.Only [.arb, .bri, .btn, .cwy, .cwyX, .dmp, .hic, .imd, .imdG, .key, .lau, .legal, .lsw, .mbx, .pea, .plc, .plcCfg, .qmg, .rpl, .saf, .safX, .sess, .slt, .veh] b (holdWatchdog b) := by
  unfold holdWatchdog
  with_reducible
    split
    exact .refl _ _
    try lift_lets
    intro xx
    refine Block.Only.viaVar xx ?_ (fun _ => ?_) <;> [simp only [xx]; clear_value xx]
    refine .step (tearLine_frame ..) (by decide) ?_
    exact .refl _ _
    refine .step (readsGo_frame ..) (by decide) ?_
    refine .step (drainCheck_frame ..) (by decide) ?_
    refine .step (updArb_frame ..) (by decide) ?_
    refine .step (irq_frame ..) (by decide) ?_
    refine .step (updReq_frame ..) (by decide) ?_
    assumption

theorem peatWriteRequest_frame (r : Fin 6) (q : PeatWrite) (b : Block) :
    Block.Only [.arb, .hic, .pea] b (peatWriteRequest r q b) := by
  unfold peatWriteRequest
  with_reducible
    refine .ite _ ?_ ?_
    exact .refl _ _
    refine .step (peatRequest_frame ..) (by decide) ?_
    exact .refl _ _

theorem counterIncrement_frame (k : Fin 64) (r : Fin 6) (b : Block) :
    Block.Only [.arb, .hic, .pea] b (counterIncrement k r b) := by
  unfold counterIncrement
  with_reducible
    refine .ite _ ?_ ?_
    exact .refl _ _
    refine .step (ctrIncrement_frame ..) (by decide) ?_
    exact .refl _ _

theorem gapMove_frame (b : Block) :
    Block.Only [.hic, .pea, .prior, .tide] b (gapMove b) := by
  unfold gapMove
  with_reducible
    try lift_lets
    intro (xx : _ → _)
    refine .ite _ ?_ ?_
    refine .step (updPea_frame ..) (by decide) ?_
    refine .step (countWrite_frame ..) (by decide) ?_
    exact .refl _ _
    refine .afterTicks (by decide) (by decide) (fun _ _ => ?_) ?_
    refine .step (updPea_frame ..) (by decide) ?_
    refine .step (countWrite_frame ..) (by decide) ?_
    assumption
    exact .refl _ _

theorem rtcFollow_frame (b : Block) :
    Block.Only [.backup] b (rtcFollow b) := by
  unfold rtcFollow
  with_reducible
    try lift_lets
    intro xx
    clear_value xx
    try lift_lets
    intro xx
    clear_value xx
    refine .ite _ ?_ ?_
    exact .refl _ _
    refine .ite _ ?_ ?_
    refine .set_backup ?_ _ (by decide)
    exact .refl _ _
    exact .refl _ _

theorem deltaEpoch_frame (s : Nat) (b : Block) :
    Block.Only [.arb, .backup, .bri, .hic, .pea] b (deltaEpoch s b) := by
  unfold deltaEpoch
  with_reducible
    try lift_lets
    intro xx
    refine Block.Only.viaVar xx ?_ (fun _ => ?_) <;> [simp only [xx]; clear_value xx]
    refine .step (rtcFollow_frame ..) (by decide) ?_
    refine .step (debitLines_frame ..) (by decide) ?_
    exact .refl _ _
    refine .step (writeEpoch_frame ..) (by decide) ?_
    refine .step (updPea_frame ..) (by decide) ?_
    assumption

theorem deltaEpochDue_frame (b : Block) :
    Block.Only [.arb, .backup, .bri, .hic, .pea, .prior, .tide] b (deltaEpochDue b) := by
  unfold deltaEpochDue
  with_reducible
    try lift_lets
    intro xx
    clear_value xx
    refine .ite _ ?_ ?_
    exact .refl _ _
    refine .atInstant (by decide) (by decide) (fun _ _ => ?_) ?_
    refine .step (deltaEpoch_frame ..) (by decide) ?_
    assumption
    exact .refl _ _

end Sys2Proof.Machine
end

