-- ==== Sys2Proof/Laws/FramePowerFail.lean ====
section
/-! SUPPORT. Frames of the operations of Machine/PowerFail.lean: the units each of them may change. -/

namespace Sys2Proof.Machine

theorem updPf_frame (f : PowerFail → PowerFail) (b : Block) :
    Block.Only [.pf] b (updPf f b) := by
  unfold updPf
  with_reducible
    refine .set_pf ?_ _ (by decide)
    exact .refl _ _

theorem updUpd_frame (f : Update → Update) (b : Block) :
    Block.Only [.upd] b (updUpd f b) := by
  unfold updUpd
  with_reducible
    refine .set_upd ?_ _ (by decide)
    exact .refl _ _

theorem updImage_frame (i : Fin 4) (f : Image → Image) (b : Block) :
    Block.Only [.upd] b (updImage i f b) := by
  unfold updImage
  with_reducible
    refine .step (updUpd_frame ..) (by decide) ?_
    exact .refl _ _

theorem setSlot_frame (i : Fin 4) (slotB : Bool) (st : BitVec 3) (b : Block) :
    Block.Only [.upd] b (setSlot i slotB st b) := by
  unfold setSlot
  with_reducible
    refine .step (updImage_frame ..) (by decide) ?_
    exact .refl _ _

theorem stageFail_frame (st : Nat) (b : Block) :
    Block.Only [.hic, .mbx, .rpl, .upd] b (stageFail st b) := by
  unfold stageFail
  with_reducible
    split
    exact .refl _ _
    try lift_lets
    intro xx
    refine Block.Only.viaVar xx ?_ (fun _ => ?_) <;> [simp only [xx]; clear_value xx]
    refine .step (setSlot_frame ..) (by decide) ?_
    refine .step (updUpd_frame ..) (by decide) ?_
    exact .refl _ _
    split
    refine .step (refuse_frame ..) (by decide) ?_
    refine .step (irq_frame ..) (by decide) ?_
    assumption
    refine .step (irq_frame ..) (by decide) ?_
    assumption

theorem pauseAbort_frame (p : Pause) (b : Block) :
    Block.Only [.arb, .auth, .btn, .cwy, .cwyX, .dmp, .hic, .imd, .imdG, .lau, .lsw, .mlk, .plc, .plcCfg, .qmg, .rst, .saf, .safX, .sess, .slt, .v2g, .veh] b (pauseAbort p b) := by
  unfold pauseAbort
  with_reducible
    try lift_lets
    intro xx
    clear_value xx
    refine .ite _ ?_ ?_
    exact .refl _ _
    split
    refine .step (reviewHub_frame ..) (by decide) ?_
    refine .set_rst ?_ _ (by decide)
    exact .refl _ _
    refine .step (replan_frame ..) (by decide) ?_
    refine .set_rst ?_ _ (by decide)
    exact .refl _ _
    refine .step (driveFeed_frame ..) (by decide) ?_
    refine .forAll (fun _ _ _ => ?_) _ ?_
    refine .step (pilotReview_frame ..) (by decide) ?_
    assumption
    refine .set_rst ?_ _ (by decide)
    exact .refl _ _
    exact .refl _ _

theorem updatePowerFail_frame (b : Block) :
    Block.Only (Part.but [.tide, .snaps, .barrier, .fab, .d2d, .cross, .met, .acc, .pq, .slu, .sluCnt, .vehCfg, .v2gCfg, .rcm, .rcmTest, .pea, .pf, .legal, .backup, .bri, .key, .hp, .pnl, .frames, .nfc, .dbg, .settings, .newSettings, .legalSet, .updRec, .kept, .prior]) b (updatePowerFail b) := by
  unfold updatePowerFail
  with_reducible
    try lift_lets
    intro xx
    refine Block.Only.viaVar xx ?_ (fun _ => ?_) <;> [simp only [xx]; clear_value xx]
    refine .ite _ ?_ ?_
    refine .step (stageFail_frame ..) (by decide) ?_
    exact .refl _ _
    exact .refl _ _
    split
    assumption
    try lift_lets
    intro xx
    refine Block.Only.viaVar xx ?_ (fun _ => ?_) <;> [simp only [xx]; clear_value xx]
    refine .step (pauseAbort_frame ..) (by decide) ?_
    refine .step (updUpd_frame ..) (by decide) ?_
    assumption
    split
    refine .step (refuse_frame ..) (by decide) ?_
    assumption
    assumption

theorem powerFailStop_frame (n : Fin 16) (b : Block) :
    Block.Only [.arb, .btn, .cwy, .cwyX, .dmp, .hic, .imd, .imdG, .lau, .lsw, .plc, .plcCfg, .qmg, .saf, .safX, .sess] b (powerFailStop n b) := by
  unfold powerFailStop
  with_reducible
    try lift_lets
    intro xx
    clear_value xx
    try lift_lets
    intro xx
    refine Block.Only.viaVar xx ?_ (fun _ => ?_) <;> [simp only [xx]; clear_value xx]
    refine .step (updSess_frame ..) (by decide) ?_
    exact .refl _ _
    refine .ite _ ?_ ?_
    refine .ite _ ?_ ?_
    assumption
    refine .step (enterPhase_frame ..) (by decide) ?_
    assumption
    exact .refl _ _

theorem powerFailFreeze_frame (b : Block) :
    Block.Only [.arb] b (powerFailFreeze b) := by
  unfold powerFailFreeze
  with_reducible
    refine .step (updArb_frame ..) (by decide) ?_
    refine .step (setFreeze_frame ..) (by decide) ?_
    exact .refl _ _

theorem powerFailWarning_frame (vin : Bool) (b : Block) :
    Block.Only (Part.but [.tide, .snaps, .barrier, .fab, .d2d, .cross, .met, .acc, .slu, .sluCnt, .vehCfg, .v2gCfg, .rcm, .rcmTest, .legal, .backup, .bri, .key, .hp, .pnl, .frames, .nfc, .dbg, .settings, .newSettings, .legalSet, .updRec, .kept, .prior]) b (powerFailWarning vin b) := by
  unfold powerFailWarning
  with_reducible
    try lift_lets
    intro xx
    refine Block.Only.viaVar xx ?_ (fun _ => ?_) <;> [simp only [xx]; clear_value xx]
    refine .step (updPf_frame ..) (by decide) ?_
    exact .refl _ _
    refine .ite _ ?_ ?_
    exact .refl _ _
    refine .ite _ ?_ ?_
    refine .step (traceItem_frame ..) (by decide) ?_
    assumption
    refine .step (drainCheck_frame ..) (by decide) ?_
    refine .step (powerFailFreeze_frame ..) (by decide) ?_
    refine .forAll (fun _ _ _ => ?_) _ ?_
    refine .step (powerFailStop_frame ..) (by decide) ?_
    assumption
    refine .step (updatePowerFail_frame ..) (by decide) ?_
    refine .forAll (fun _ _ _ => ?_) _ ?_
    refine .step (pqTruncate_frame ..) (by decide) ?_
    assumption
    refine .step (irq_frame ..) (by decide) ?_
    refine .set_dmp ?_ _ (by decide)
    refine .step (updPf_frame ..) (by decide) ?_
    refine .step (traceItem_frame ..) (by decide) ?_
    assumption

theorem pfCommitDone_frame (b : Block) :
    Block.Only [.hic, .pf] b (pfCommitDone b) := by
  unfold pfCommitDone
  with_reducible
    split
    refine .ite _ ?_ ?_
    refine .step (irq_frame ..) (by decide) ?_
    refine .step (updPf_frame ..) (by decide) ?_
    exact .refl _ _
    exact .refl _ _
    exact .refl _ _

theorem pfCommitLate_frame (b : Block) :
    Block.Only [.hic, .pf, .prior, .tide] b (pfCommitLate b) := by
  unfold pfCommitLate
  with_reducible
    refine .ite _ ?_ ?_
    refine .afterTicks (by decide) (by decide) (fun _ _ => ?_) ?_
    refine .step (irq_frame ..) (by decide) ?_
    refine .step (updPf_frame ..) (by decide) ?_
    assumption
    exact .refl _ _
    exact .refl _ _

theorem quiescentDue_frame (b : Block) :
    Block.Only [.arb, .bri, .hic, .pea, .pf] b (quiescentDue b) := by
  unfold quiescentDue
  with_reducible
    refine .ite _ ?_ ?_
    refine .step (quiescentCommit_frame ..) (by decide) ?_
    exact .refl _ _
    exact .refl _ _

theorem pfHoldEnd_frame (b : Block) :
    Block.Only [.pf, .prior, .tide] b (pfHoldEnd b) := by
  unfold pfHoldEnd
  with_reducible
    refine .ite _ ?_ ?_
    refine .afterTicks (by decide) (by decide) (fun _ _ => ?_) ?_
    refine .step (updPf_frame ..) (by decide) ?_
    assumption
    exact .refl _ _
    exact .refl _ _

theorem closeDeferred_frame (n : Fin 16) (b : Block) :
    Block.Only [.arb, .bri, .btn, .cwy, .cwyX, .dmp, .hic, .imd, .imdG, .key, .lau, .legal, .lsw, .pea, .plc, .plcCfg, .qmg, .saf, .safX, .sess, .slt, .veh] b (closeDeferred n b) := by
  unfold closeDeferred
  with_reducible
    try lift_lets
    intro xx
    clear_value xx
    try lift_lets
    intro xx
    clear_value xx
    try lift_lets
    intro xx
    refine Block.Only.viaVar xx ?_ (fun _ => ?_) <;> [simp only [xx]; clear_value xx]
    refine .ite _ ?_ ?_
    refine .step (updVeh_frame ..) (by decide) ?_
    refine .step (enterPhase_frame ..) (by decide) ?_
    refine .step (updSess_frame ..) (by decide) ?_
    exact .refl _ _
    exact .refl _ _
    refine .step (closeItems_frame ..) (by decide) ?_
    assumption

theorem powerFailCleared_frame (b : Block) :
    Block.Only (Part.but [.tide, .snaps, .barrier, .fab, .d2d, .cross, .met, .acc, .pq, .slu, .sluCnt, .mlk, .vehCfg, .v2g, .v2gCfg, .rcm, .rcmTest, .auth, .backup, .mbx, .hp, .pnl, .frames, .nfc, .rst, .dbg, .settings, .newSettings, .legalSet, .updRec, .kept, .prior]) b (powerFailCleared b) := by
  unfold powerFailCleared
  with_reducible
    try lift_lets
    intro xx
    refine Block.Only.viaVar xx ?_ (fun _ => ?_) <;> [simp only [xx]; clear_value xx]
    refine .step (quiescentCommit_frame ..) (by decide) ?_
    exact .refl _ _
    refine .step (irq_frame ..) (by decide) ?_
    refine .onlyIf _ (fun _ _ => ?_) ?_
    refine .step (liftFreeze_frame ..) (by decide) ?_
    assumption
    refine .ite _ ?_ ?_
    refine .step (saveUpdate_frame ..) (by decide) ?_
    refine .step (updUpd_frame ..) (by decide) ?_
    refine .forAll (fun _ _ _ => ?_) _ ?_
    refine .step (closeDeferred_frame ..) (by decide) ?_
    assumption
    refine .step (traceItem_frame ..) (by decide) ?_
    refine .step (updPf_frame ..) (by decide) ?_
    assumption
    refine .forAll (fun _ _ _ => ?_) _ ?_
    refine .step (closeDeferred_frame ..) (by decide) ?_
    assumption
    refine .step (traceItem_frame ..) (by decide) ?_
    refine .step (updPf_frame ..) (by decide) ?_
    assumption

theorem powerFailClear_frame (b : Block) :
    Block.Only (Part.but [.snaps, .barrier, .fab, .d2d, .cross, .met, .acc, .pq, .slu, .sluCnt, .mlk, .vehCfg, .v2g, .v2gCfg, .rcm, .rcmTest, .auth, .backup, .mbx, .hp, .pnl, .frames, .nfc, .rst, .dbg, .settings, .newSettings, .legalSet, .updRec, .kept]) b (powerFailClear b) := by
  unfold powerFailClear
  with_reducible
    refine .ite _ ?_ ?_
    refine .afterTicks (by decide) (by decide) (fun _ _ => ?_) ?_
    refine .step (powerFailCleared_frame ..) (by decide) ?_
    assumption
    exact .refl _ _
    refine .step (updPf_frame ..) (by decide) ?_
    exact .refl _ _

theorem peaGetStatus_frame (m : Fin 4) (b : Block) :
    Block.Only [.mbx, .rpl] b (peaGetStatus m b) := by
  unfold peaGetStatus
  with_reducible
    refine .step (ok_frame ..) (by decide) ?_
    exact .refl _ _

theorem peaRead_frame (m : Fin 4) (errs : List U8) (b : Block) :
    Block.Only [.arb, .bri, .btn, .cwy, .cwyX, .dmp, .hic, .imd, .imdG, .key, .lau, .legal, .lsw, .mbx, .pea, .plc, .plcCfg, .qmg, .rpl, .saf, .safX, .sess, .slt, .veh] b (peaRead m errs b) := by
  unfold peaRead
  with_reducible
    try lift_lets
    intro xx
    clear_value xx
    try lift_lets
    intro xx
    clear_value xx
    try lift_lets
    intro xx
    clear_value xx
    refine .checked (by decide) (by decide) (fun _ _ => ?_) ?_
    try lift_lets
    intro xx
    clear_value xx
    refine .ite _ ?_ ?_
    refine .step (updArb_frame ..) (by decide) ?_
    assumption
    refine .step (readLines_frame ..) (by decide) ?_
    assumption
    exact .refl _ _

theorem peaFreeze_frame (m : Fin 4) (b : Block) :
    Block.Only [.arb, .hic, .mbx, .rpl] b (peaFreeze m b) := by
  unfold peaFreeze
  with_reducible
    try lift_lets
    intro xx
    clear_value xx
    refine .checked (by decide) (by decide) (fun _ _ => ?_) ?_
    refine .ite _ ?_ ?_
    refine .step (drainCheck_frame ..) (by decide) ?_
    refine .step (updArb_frame ..) (by decide) ?_
    refine .step (setFreeze_frame ..) (by decide) ?_
    assumption
    refine .step (ok_frame ..) (by decide) ?_
    refine .ite _ ?_ ?_
    assumption
    refine .step (liftFreeze_frame ..) (by decide) ?_
    assumption
    exact .refl _ _

theorem peaSetConfig_frame (m : Fin 4) (b : Block) :
    Block.Only [.arb, .btn, .hic, .mbx, .pea, .pf, .rpl] b (peaSetConfig m b) := by
  unfold peaSetConfig
  with_reducible
    try lift_lets
    intro xx
    clear_value xx
    refine .checked (by decide) (by decide) (fun _ _ => ?_) ?_
    refine .step (cmdLog_frame ..) (by decide) ?_
    refine .step (ok_frame ..) (by decide) ?_
    refine .step (saveSettings_frame ..) (by decide) ?_
    refine .step (updPf_frame ..) (by decide) ?_
    refine .step (updArb_frame ..) (by decide) ?_
    assumption
    exact .refl _ _

theorem peaCtrRead_frame (m : Fin 4) (b : Block) :
    Block.Only [.mbx, .rpl] b (peaCtrRead m b) := by
  unfold peaCtrRead
  with_reducible
    try lift_lets
    intro xx
    clear_value xx
    refine .checked (by decide) (by decide) (fun _ _ => ?_) ?_
    refine .step (ok_frame ..) (by decide) ?_
    assumption
    exact .refl _ _

theorem peaCtrIncrement_frame (m : Fin 4) (b : Block) :
    Block.Only [.arb, .hic, .mbx, .pea, .rpl] b (peaCtrIncrement m b) := by
  unfold peaCtrIncrement
  with_reducible
    try lift_lets
    intro xx
    clear_value xx
    refine .checked (by decide) (by decide) (fun _ _ => ?_) ?_
    refine .step (ctrIncrement_frame ..) (by decide) ?_
    assumption
    exact .refl _ _

theorem peaAckError_frame (m : Fin 4) (b : Block) :
    Block.Only [.arb, .btn, .hic, .key, .mbx, .pea, .rpl] b (peaAckError m b) := by
  unfold peaAckError
  with_reducible
    refine .checked (by decide) (by decide) (fun _ _ => ?_) ?_
    try lift_lets
    intro xx
    refine Block.Only.viaPair xx ?_ (fun _ => ?_) <;> [simp only [xx]; clear_value xx]
    refine .step (authorise_frame ..) (by decide) ?_
    assumption
    refine .ite _ ?_ ?_
    refine .step (ok_frame ..) (by decide) ?_
    refine .step (legalLog_frame ..) (by decide) ?_
    refine .step (updPea_frame ..) (by decide) ?_
    assumption
    refine .step (refuse_frame ..) (by decide) ?_
    assumption
    exact .refl _ _

theorem peaGetRecovery_frame (m : Fin 4) (b : Block) :
    Block.Only [.mbx, .rpl] b (peaGetRecovery m b) := by
  unfold peaGetRecovery
  with_reducible
    try lift_lets
    intro xx
    clear_value xx
    refine .checked (by decide) (by decide) (fun _ _ => ?_) ?_
    refine .step (ok_frame ..) (by decide) ?_
    assumption
    exact .refl _ _

theorem peaClearCounts_frame (m : Fin 4) (b : Block) :
    Block.Only [.arb, .mbx, .pea, .rpl] b (peaClearCounts m b) := by
  unfold peaClearCounts
  with_reducible
    refine .checked (by decide) (by decide) (fun _ _ => ?_) ?_
    refine .step (ok_frame ..) (by decide) ?_
    refine .step (updArb_frame ..) (by decide) ?_
    refine .step (updPea_frame ..) (by decide) ?_
    assumption
    exact .refl _ _

end Sys2Proof.Machine
end

