-- ==== Sys2Proof/Laws/FrameRecovery.lean ====
section
/-! SUPPORT. Frames of the operations of Machine/Recovery.lean: the units each of them may change. -/

namespace Sys2Proof.Machine

theorem putSessionItem_frame (n : Fin 16) (t q : Nat) (v : Acc) (b : Block) :
    Block.Only [.bri, .legal, .sess] b (putSessionItem n t q v b) := by
  unfold putSessionItem
  with_reducible
    try lift_lets
    intro xx
    clear_value xx
    refine .ite _ ?_ ?_
    refine .step (updLegal_frame ..) (by decide) ?_
    exact .refl _ _
    split
    refine .step (updLegal_frame ..) (by decide) ?_
    exact .refl _ _
    refine .step (updLegal_frame ..) (by decide) ?_
    exact .refl _ _
    refine .step (updLegal_frame ..) (by decide) ?_
    exact .refl _ _
    refine .step (updLegal_frame ..) (by decide) ?_
    exact .refl _ _
    refine .step (updLedger_frame ..) (by decide) ?_
    exact .refl _ _
    refine .step (updLedger_frame ..) (by decide) ?_
    exact .refl _ _
    refine .step (updLedger_frame ..) (by decide) ?_
    exact .refl _ _
    refine .step (updLedger_frame ..) (by decide) ?_
    exact .refl _ _
    refine .step (updLegal_frame ..) (by decide) ?_
    refine .step (updLedger_frame ..) (by decide) ?_
    exact .refl _ _
    refine .step (updLegal_frame ..) (by decide) ?_
    exact .refl _ _
    refine .step (updLegal_frame ..) (by decide) ?_
    refine .set_sess ?_ _ (by decide)
    exact .refl _ _
    refine .step (updLegal_frame ..) (by decide) ?_
    exact .refl _ _
    refine .step (updLegal_frame ..) (by decide) ?_
    exact .refl _ _
    exact .refl _ _

theorem putItem_frame (e : U32 × Acc) (b : Block) :
    Block.Only [.acc, .bri, .legal, .sess, .slt] b (putItem e b) := by
  unfold putItem
  with_reducible
    try lift_lets
    intro xx
    clear_value xx
    try lift_lets
    intro xx
    clear_value xx
    try lift_lets
    intro xx
    clear_value xx
    try lift_lets
    intro xx
    clear_value xx
    try lift_lets
    intro xx
    clear_value xx
    try lift_lets
    intro xx
    clear_value xx
    split
    refine .ite _ ?_ ?_
    refine .set_acc ?_ _ (by decide)
    exact .refl _ _
    refine .set_acc ?_ _ (by decide)
    exact .refl _ _
    refine .ite _ ?_ ?_
    exact .refl _ _
    refine .step (updLegal_frame ..) (by decide) ?_
    exact .refl _ _
    refine .ite _ ?_ ?_
    refine .step (updSlt_frame ..) (by decide) ?_
    exact .refl _ _
    refine .set_acc ?_ _ (by decide)
    exact .refl _ _
    refine .ite _ ?_ ?_
    refine .set_acc ?_ _ (by decide)
    exact .refl _ _
    refine .set_acc ?_ _ (by decide)
    exact .refl _ _
    refine .step (putSessionItem_frame ..) (by decide) ?_
    exact .refl _ _
    split
    refine .step (updSlt_frame ..) (by decide) ?_
    exact .refl _ _
    refine .step (updSlt_frame ..) (by decide) ?_
    exact .refl _ _
    exact .refl _ _
    exact .refl _ _

theorem flagItem_frame (e : U32 × Acc) (b : Block) :
    Block.Only [.acc, .legal] b (flagItem e b) := by
  unfold flagItem
  with_reducible
    try lift_lets
    intro xx
    clear_value xx
    try lift_lets
    intro xx
    clear_value xx
    try lift_lets
    intro xx
    clear_value xx
    try lift_lets
    intro (xx : _ → _)
    try lift_lets
    intro xx
    clear_value xx
    split
    refine .set_acc ?_ _ (by decide)
    exact .refl _ _
    refine .step (updLegal_frame ..) (by decide) ?_
    exact .refl _ _
    refine .ite _ ?_ ?_
    refine .set_acc ?_ _ (by decide)
    exact .refl _ _
    refine .set_acc ?_ _ (by decide)
    exact .refl _ _
    refine .set_acc ?_ _ (by decide)
    exact .refl _ _
    refine .step (updLegal_frame ..) (by decide) ?_
    exact .refl _ _
    exact .refl _ _

theorem flagAll_frame (b : Block) :
    Block.Only [.acc, .legal] b (flagAll b) := by
  unfold flagAll
  with_reducible
    try lift_lets
    intro (xx : _ → _)
    try lift_lets
    intro xx
    clear_value xx
    refine .set_acc_legal ?_ _ _ (by decide) (by decide)
    exact .refl _ _

theorem recoveryError_frame (line : Nat) (b : Block) :
    Block.Only [.arb, .bri, .btn, .hic, .pea] b (recoveryError line b) := by
  unfold recoveryError
  with_reducible
    try lift_lets
    intro xx
    refine Block.Only.viaVar xx ?_ (fun _ => ?_) <;> [simp only [xx]; clear_value xx]
    refine .step (irq_frame ..) (by decide) ?_
    refine .step (updPea_frame ..) (by decide) ?_
    exact .refl _ _
    refine .forAll (fun _ _ _ => ?_) _ ?_
    refine .step (unproveWallet_frame ..) (by decide) ?_
    assumption
    refine .step (legalLog_frame ..) (by decide) ?_
    assumption

theorem flagOutcome_frame (o : Nat) (last : SealedEpoch) (b : Block) :
    Block.Only [.acc, .arb, .bri, .btn, .hic, .legal, .pea] b (flagOutcome o last b) := by
  unfold flagOutcome
  with_reducible
    try lift_lets
    intro xx
    refine Block.Only.viaVar xx ?_ (fun _ => ?_) <;> [simp only [xx]; clear_value xx]
    exact .refl _ _
    refine .ite _ ?_ ?_
    exact .refl _ _
    refine .step (irq_frame ..) (by decide) ?_
    refine .onlyIf _ (fun _ _ => ?_) ?_
    refine .step (recoveryError_frame ..) (by decide) ?_
    assumption
    refine .step (noteUnproven_frame ..) (by decide) ?_
    refine .ite _ ?_ ?_
    refine .step (flagAll_frame ..) (by decide) ?_
    exact .refl _ _
    refine .forAll (fun _ _ _ => ?_) _ ?_
    refine .step (flagItem_frame ..) (by decide) ?_
    assumption
    exact .refl _ _

theorem recoverLedger_frame (es : List SelfEvent) (n : Fin 16) (b : Block) :
    Block.Only [.bri, .legal] b (recoverLedger es n b) := by
  unfold recoverLedger
  with_reducible
    try lift_lets
    intro xx
    clear_value xx
    try lift_lets
    intro xx
    clear_value xx
    refine .ite _ ?_ ?_
    refine .step (updLedger_frame ..) (by decide) ?_
    exact .refl _ _
    split
    refine .ite _ ?_ ?_
    refine .step (updLedger_frame ..) (by decide) ?_
    exact .refl _ _
    refine .step (updLegal_frame ..) (by decide) ?_
    refine .step (updLedger_frame ..) (by decide) ?_
    exact .refl _ _
    exact .refl _ _

theorem recoverTotals_frame (b : Block) :
    Block.Only [.bri] b (recoverTotals b) := by
  unfold recoverTotals
  with_reducible
    try lift_lets
    intro (xx : _ → _)
    try lift_lets
    intro xx
    clear_value xx
    try lift_lets
    intro xx
    clear_value xx
    refine .set_bri ?_ _ (by decide)
    exact .refl _ _

theorem recoverCredit_frame (limit : Nat) (b : Block) :
    Block.Only [.arb, .bri, .btn, .hic, .legal, .pea] b (recoverCredit limit b) := by
  unfold recoverCredit
  with_reducible
    try lift_lets
    intro xx
    clear_value xx
    try lift_lets
    intro xx
    clear_value xx
    try lift_lets
    intro xx
    clear_value xx
    try lift_lets
    intro xx
    clear_value xx
    try lift_lets
    intro xx
    clear_value xx
    try lift_lets
    intro xx
    clear_value xx
    try lift_lets
    intro xx
    clear_value xx
    try lift_lets
    intro xx
    clear_value xx
    try lift_lets
    intro xx
    clear_value xx
    try lift_lets
    intro xx
    clear_value xx
    try lift_lets
    intro xx
    refine Block.Only.viaVar xx ?_ (fun _ => ?_) <;> [simp only [xx]; clear_value xx]
    refine .set_bri ?_ _ (by decide)
    exact .refl _ _
    refine .forAll (fun _ _ _ => ?_) _ ?_
    refine .step (saveWallet_frame ..) (by decide) ?_
    assumption
    refine .forAll (fun _ _ _ => ?_) _ ?_
    refine .step (legalLog_frame ..) (by decide) ?_
    assumption
    refine .step (recoverTotals_frame ..) (by decide) ?_
    refine .forAll (fun _ _ _ => ?_) _ ?_
    refine .step (recoverLedger_frame ..) (by decide) ?_
    assumption
    refine .step (updPea_frame ..) (by decide) ?_
    assumption

theorem recoverCounters_frame (b : Block) :
    Block.Only [.pea] b (recoverCounters b) := by
  unfold recoverCounters
  with_reducible
    try lift_lets
    intro xx
    clear_value xx
    refine .step (updPea_frame ..) (by decide) ?_
    exact .refl _ _

theorem recoverLogs_frame (b : Block) :
    Block.Only [.arb, .btn, .hic, .pea] b (recoverLogs b).1 := by
  unfold recoverLogs
  with_reducible
    try lift_lets
    intro xx
    clear_value xx
    try lift_lets
    intro xx
    clear_value xx
    try lift_lets
    intro xx
    clear_value xx
    try lift_lets
    intro xx
    clear_value xx
    try lift_lets
    intro xx
    clear_value xx
    try lift_lets
    intro xx
    clear_value xx
    try lift_lets
    intro xx
    clear_value xx
    try lift_lets
    intro xx
    clear_value xx
    try lift_lets
    intro xx
    clear_value xx
    try lift_lets
    intro xx
    refine Block.Only.viaVar xx ?_ (fun _ => ?_) <;> [simp only [xx]; clear_value xx]
    refine .set_btn ?_ _ (by decide)
    exact .refl _ _
    refine .forAll (fun _ _ _ => ?_) _ ?_
    refine .step (peatRequest_frame ..) (by decide) ?_
    assumption
    assumption

theorem noteHead_frame (o : Nat) (last : SealedEpoch) (items : List (U32 × Acc)) (b : Block) :
    Block.Only [.pea] b (noteHead o last items b) := by
  unfold noteHead
  with_reducible
    refine .step (updPea_frame ..) (by decide) ?_
    exact .refl _ _

theorem recoverPeat_frame (b : Block) :
    Block.Only [.acc, .arb, .bri, .btn, .hic, .legal, .pea, .sess, .slt] b (recoverPeat b).1 := by
  unfold recoverPeat
  with_reducible
    try lift_lets
    intro xx
    clear_value xx
    try lift_lets
    intro xx
    refine Block.Only.viaVar xx ?_ (fun _ => ?_) <;> [simp only [xx]; clear_value xx]
    refine .step (recoverCounters_frame ..) (by decide) ?_
    exact .refl _ _
    refine .step (recoverLogs_frame ..) (by decide) ?_
    split
    try lift_lets
    intro xx
    clear_value xx
    try lift_lets
    intro xx
    clear_value xx
    try lift_lets
    intro xx
    clear_value xx
    try lift_lets
    intro xx
    refine Block.Only.viaVar xx ?_ (fun _ => ?_) <;> [simp only [xx]; clear_value xx]
    refine .step (recoverCredit_frame ..) (by decide) ?_
    refine .forAll (fun _ _ _ => ?_) _ ?_
    refine .step (putItem_frame ..) (by decide) ?_
    assumption
    assumption
    refine .step (flagOutcome_frame ..) (by decide) ?_
    refine .step (noteHead_frame ..) (by decide) ?_
    assumption
    refine .step (flagOutcome_frame ..) (by decide) ?_
    refine .step (noteHead_frame ..) (by decide) ?_
    refine .step (recoverCredit_frame ..) (by decide) ?_
    assumption

end Sys2Proof.Machine
end

