-- ==== Sys2Proof/Laws/FrameBilling.lean ====
section
/-! SUPPORT. Frames of the operations of Machine/Billing.lean: the units each of them may change. -/

namespace Sys2Proof.Machine

theorem updBri_frame (f : Brine → Brine) (b : Block) :
    Block.Only [.bri] b (updBri f b) := by
  unfold updBri
  with_reducible
    refine .set_bri ?_ _ (by decide)
    exact .refl _ _

theorem updBackup_frame (f : Backup → Backup) (b : Block) :
    Block.Only [.backup] b (updBackup f b) := by
  unfold updBackup
  with_reducible
    refine .set_backup ?_ _ (by decide)
    exact .refl _ _

theorem readingSigned_frame (r : Reading) (b : Block) :
    Block.Only [.arb, .btn, .cwy, .cwyX, .dmp, .hic, .lau, .legal, .qmg, .slt] b (readingSigned r b) := by
  unfold readingSigned
  with_reducible
    try lift_lets
    intro xx
    refine Block.Only.viaVar xx ?_ (fun _ => ?_) <;> [simp only [xx]; clear_value xx]
    refine .step (sendReading_frame ..) (by decide) ?_
    refine .step (updSlt_frame ..) (by decide) ?_
    exact .refl _ _
    refine .ite _ ?_ ?_
    refine .step (dropItems_frame ..) (by decide) ?_
    assumption
    assumption

theorem readingFailed_frame (r : Reading) (b : Block) :
    Block.Only [.hic, .slt] b (readingFailed r b) := by
  unfold readingFailed
  with_reducible
    try lift_lets
    intro xx
    refine Block.Only.viaVar xx ?_ (fun _ => ?_) <;> [simp only [xx]; clear_value xx]
    refine .step (updSlt_frame ..) (by decide) ?_
    exact .refl _ _
    refine .ite _ ?_ ?_
    refine .step (updSlt_frame ..) (by decide) ?_
    assumption
    refine .step (holdUnsigned_frame ..) (by decide) ?_
    refine .step (updSlt_frame ..) (by decide) ?_
    assumption

theorem unitEnds_frame (u : Fin 4) (j : EngineJob) (x : EngineEnd) (b : Block) :
    Block.Only [.arb, .bri, .btn, .cwy, .cwyX, .dmp, .hic, .imd, .imdG, .key, .lau, .legal, .lsw, .pea, .plc, .plcCfg, .qmg, .rpl, .saf, .safX, .sess, .slt, .v2g, .veh] b (unitEnds u j x b) := by
  unfold unitEnds
  with_reducible
    try lift_lets
    intro xx
    clear_value xx
    try lift_lets
    intro xx
    refine Block.Only.viaVar xx ?_ (fun _ => ?_) <;> [simp only [xx]; clear_value xx]
    refine .step (remaskFreed_frame ..) (by decide) ?_
    refine .set_key ?_ _ (by decide)
    exact .refl _ _
    split
    refine .step (engineDispatch_frame ..) (by decide) ?_
    assumption
    refine .step (tlsStepDone_frame ..) (by decide) ?_
    refine .step (engineDispatch_frame ..) (by decide) ?_
    assumption
    split
    refine .step (engineDispatch_frame ..) (by decide) ?_
    assumption
    refine .ite _ ?_ ?_
    refine .step (readingSigned_frame ..) (by decide) ?_
    refine .step (engineDispatch_frame ..) (by decide) ?_
    assumption
    refine .step (readingFailed_frame ..) (by decide) ?_
    refine .step (engineDispatch_frame ..) (by decide) ?_
    assumption

theorem signEngineComplete_frame (u : Fin 4) (good : Bool) (b : Block) :
    Block.Only (Part.but [.snaps, .barrier, .fab, .d2d, .cross, .met, .acc, .pq, .slu, .sluCnt, .mlk, .vehCfg, .v2gCfg, .rcm, .rcmTest, .pf, .auth, .backup, .mbx, .hp, .pnl, .frames, .nfc, .rst, .upd, .dbg, .settings, .newSettings, .legalSet, .updRec, .kept]) b (signEngineComplete u good b) := by
  unfold signEngineComplete
  with_reducible
    split
    exact .refl _ _
    refine .afterTicks (by decide) (by decide) (fun _ _ => ?_) ?_
    refine .step (unitEnds_frame ..) (by decide) ?_
    assumption
    exact .refl _ _

theorem signRetry_frame (b : Block) :
    Block.Only [.key, .prior, .slt, .tide] b (signRetry b) := by
  unfold signRetry
  with_reducible
    split
    exact .refl _ _
    split
    exact .refl _ _
    refine .atInstant (by decide) (by decide) (fun _ _ => ?_) ?_
    refine .step (engineSubmit_frame ..) (by decide) ?_
    refine .step (updSlt_frame ..) (by decide) ?_
    assumption
    exact .refl _ _

theorem signWhenFree_frame (b : Block) :
    Block.Only [.key, .slt] b (signWhenFree b) := by
  unfold signWhenFree
  with_reducible
    split
    exact .refl _ _
    try lift_lets
    intro xx
    clear_value xx
    refine .ite _ ?_ ?_
    refine .step (engineSubmit_frame ..) (by decide) ?_
    refine .step (updSlt_frame ..) (by decide) ?_
    exact .refl _ _
    exact .refl _ _

theorem heldReadingsFlush_frame (b : Block) :
    Block.Only [.arb, .btn, .cwy, .cwyX, .dmp, .hic, .lau, .qmg, .slt] b (heldReadingsFlush b) := by
  unfold heldReadingsFlush
  with_reducible
    refine .ite _ ?_ ?_
    exact .refl _ _
    refine .step (flushHeld_frame ..) (by decide) ?_
    exact .refl _ _

theorem tamperSample_frame (levels : BitVec 4) (b : Block) :
    Block.Only [.backup] b (tamperSample levels b) := by
  unfold tamperSample
  with_reducible
    refine .step (updBackup_frame ..) (by decide) ?_
    exact .refl _ _

theorem vbatLog_frame (b : Block) :
    Block.Only [.arb, .backup, .btn] b (vbatLog b) := by
  unfold vbatLog
  with_reducible
    refine .ite _ ?_ ?_
    refine .step (legalLog_frame ..) (by decide) ?_
    refine .step (updBackup_frame ..) (by decide) ?_
    exact .refl _ _
    exact .refl _ _

theorem tamperMove_frame (b : Block) :
    Block.Only [.arb, .backup, .btn, .hic, .pea, .rpl, .slt] b (tamperMove b) := by
  unfold tamperMove
  with_reducible
    try lift_lets
    intro xx
    refine Block.Only.viaVar xx ?_ (fun _ => ?_) <;> [simp only [xx]; clear_value xx]
    refine .step (vbatLog_frame ..) (by decide) ?_
    exact .refl _ _
    refine .ite _ ?_ ?_
    exact .refl _ _
    refine .ite _ ?_ ?_
    assumption
    refine .step (irq_frame ..) (by decide) ?_
    refine .step (saveLegalConfig_frame ..) (by decide) ?_
    refine .step (updSlt_frame ..) (by decide) ?_
    refine .forAll (fun _ _ _ => ?_) _ ?_
    refine .step (legalLog_frame ..) (by decide) ?_
    refine .step (traceItem_frame ..) (by decide) ?_
    assumption
    assumption

theorem refuseLegal_frame (m : Fin 4) (status : Nat) (payload : List U8) (b : Block) :
    Block.Only [.hic, .mbx, .rpl] b (refuseLegal m status payload b) := by
  unfold refuseLegal
  with_reducible
    refine .step (respond_frame ..) (by decide) ?_
    refine .step (irq_frame ..) (by decide) ?_
    exact .refl _ _

theorem saveLegalAnswer_frame (m : Fin 4) (payload : List U8) (b : Block) :
    Block.Only [.arb, .hic, .pea] b (saveLegalAnswer m payload b) := by
  unfold saveLegalAnswer
  with_reducible
    refine .step (peatFree_frame ..) (by decide) ?_
    exact .refl _ _

theorem sltLoadCalendar_frame (m : Fin 4) (b : Block) :
    Block.Only [.arb, .btn, .cwy, .cwyX, .dmp, .hic, .lau, .mbx, .pea, .qmg, .rpl, .slt] b (sltLoadCalendar m b) := by
  unfold sltLoadCalendar
  with_reducible
    try lift_lets
    intro xx
    clear_value xx
    refine .checked (by decide) (by decide) (fun _ _ => ?_) ?_
    try lift_lets
    intro xx
    clear_value xx
    try lift_lets
    intro xx
    refine Block.Only.viaVar xx ?_ (fun _ => ?_) <;> [simp only [xx]; clear_value xx]
    refine .step (ctrIncrement_frame ..) (by decide) ?_
    refine .step (hostDataConsume_frame ..) (by decide) ?_
    assumption
    refine .ite _ ?_ ?_
    refine .step (refuseLegal_frame ..) (by decide) ?_
    assumption
    split
    refine .step (refuseLegal_frame ..) (by decide) ?_
    assumption
    refine .step (replan_frame ..) (by decide) ?_
    refine .step (saveLegalAnswer_frame ..) (by decide) ?_
    refine .step (updSlt_frame ..) (by decide) ?_
    refine .step (legalLog_frame ..) (by decide) ?_
    assumption
    exact .refl _ _

theorem sltGetCalendar_frame (m : Fin 4) (b : Block) :
    Block.Only [.arb, .btn, .cwy, .cwyX, .dmp, .hic, .lau, .mbx, .qmg, .rpl] b (sltGetCalendar m b) := by
  unfold sltGetCalendar
  with_reducible
    try lift_lets
    intro xx
    clear_value xx
    try lift_lets
    intro xx
    clear_value xx
    try lift_lets
    intro xx
    clear_value xx
    refine .checked (by decide) (by decide) (fun _ _ => ?_) ?_
    try lift_lets
    intro xx
    refine Block.Only.viaPair xx ?_ (fun _ => ?_) <;> [simp only [xx]; clear_value xx]
    refine .step (sendRecords_frame ..) (by decide) ?_
    assumption
    refine .ite _ ?_ ?_
    refine .step (ok_frame ..) (by decide) ?_
    assumption
    refine .step (refuse_frame ..) (by decide) ?_
    assumption
    exact .refl _ _

theorem sltSetLegal_frame (m : Fin 4) (b : Block) :
    Block.Only [.arb, .btn, .cwy, .cwyX, .dmp, .hic, .lau, .mbx, .pea, .qmg, .rpl, .slt] b (sltSetLegal m b) := by
  unfold sltSetLegal
  with_reducible
    try lift_lets
    intro xx
    clear_value xx
    try lift_lets
    intro xx
    clear_value xx
    try lift_lets
    intro xx
    refine Block.Only.viaVar xx ?_ (fun _ => ?_) <;> [simp only [xx]; clear_value xx]
    refine .step (ctrIncrement_frame ..) (by decide) ?_
    exact .refl _ _
    split
    refine .step (refuseLegal_frame ..) (by decide) ?_
    exact .refl _ _
    refine .step (replan_frame ..) (by decide) ?_
    refine .step (saveLegalAnswer_frame ..) (by decide) ?_
    refine .step (updSlt_frame ..) (by decide) ?_
    refine .step (legalLog_frame ..) (by decide) ?_
    assumption

theorem sltReadRegisters_frame (m : Fin 4) (b : Block) :
    Block.Only [.mbx, .rpl] b (sltReadRegisters m b) := by
  unfold sltReadRegisters
  with_reducible
    split
    refine .step (refuse_frame ..) (by decide) ?_
    exact .refl _ _
    refine .step (ok_frame ..) (by decide) ?_
    exact .refl _ _

theorem sltSignReading_frame (m : Fin 4) (b : Block) :
    Block.Only [.key, .mbx, .rpl, .slt] b (sltSignReading m b) := by
  unfold sltSignReading
  with_reducible
    try lift_lets
    intro xx
    clear_value xx
    refine .checked (by decide) (by decide) (fun _ _ => ?_) ?_
    try lift_lets
    intro xx
    clear_value xx
    try lift_lets
    intro xx
    refine Block.Only.viaVar xx ?_ (fun _ => ?_) <;> [simp only [xx]; clear_value xx]
    refine .step (takeReading_frame ..) (by decide) ?_
    refine .step (signHeldAgain_frame ..) (by decide) ?_
    assumption
    refine .step (ok_frame ..) (by decide) ?_
    assumption
    exact .refl _ _

theorem sltGetTamper_frame (m : Fin 4) (b : Block) :
    Block.Only [.mbx, .rpl] b (sltGetTamper m b) := by
  unfold sltGetTamper
  with_reducible
    refine .step (ok_frame ..) (by decide) ?_
    exact .refl _ _

theorem clearUnproven_frame (b : Block) :
    Block.Only [.acc, .legal] b (clearUnproven b) := by
  unfold clearUnproven
  with_reducible
    try lift_lets
    intro (xx : _ → _)
    try lift_lets
    intro xx
    clear_value xx
    refine .set_acc_legal ?_ _ _ (by decide) (by decide)
    exact .refl _ _

theorem clearWallet_frame (w : Nat) (b : Block) :
    Block.Only [.arb, .bri, .hic, .pea] b (clearWallet w b) := by
  unfold clearWallet
  with_reducible
    try lift_lets
    intro xx
    clear_value xx
    refine .ite _ ?_ ?_
    refine .step (saveWallet_frame ..) (by decide) ?_
    refine .step (setWallet_frame ..) (by decide) ?_
    exact .refl _ _
    exact .refl _ _

theorem sltClearFlags_frame (m : Fin 4) (b : Block) :
    Block.Only [.acc, .arb, .bri, .btn, .hic, .key, .legal, .mbx, .pea, .rpl, .slt] b (sltClearFlags m b) := by
  unfold sltClearFlags
  with_reducible
    try lift_lets
    intro xx
    clear_value xx
    try lift_lets
    intro xx
    clear_value xx
    try lift_lets
    intro xx
    refine Block.Only.viaPair xx ?_ (fun _ => ?_) <;> [simp only [xx]; clear_value xx]
    refine .step (authorise_frame ..) (by decide) ?_
    exact .refl _ _
    refine .ite _ ?_ ?_
    refine .step (refuse_frame ..) (by decide) ?_
    assumption
    refine .checked (by decide) (by decide) (fun _ _ => ?_) ?_
    try lift_lets
    intro xx
    refine Block.Only.viaVar xx ?_ (fun _ => ?_) <;> [simp only [xx]; clear_value xx]
    refine .onlyIf _ (fun _ _ => ?_) ?_
    refine .step (clearUnproven_frame ..) (by decide) ?_
    assumption
    assumption
    refine .step (ok_frame ..) (by decide) ?_
    refine .step (saveLegalConfig_frame ..) (by decide) ?_
    refine .step (legalLog_frame ..) (by decide) ?_
    refine .onlyIf _ (fun _ _ => ?_) ?_
    refine .step (clearWallet_frame ..) (by decide) ?_
    assumption
    refine .onlyIf _ (fun _ _ => ?_) ?_
    refine .step (updSlt_frame ..) (by decide) ?_
    assumption
    assumption
    assumption

theorem sltSetOutput_frame (m : Fin 4) (b : Block) :
    Block.Only [.arb, .btn, .cwy, .cwyX, .dmp, .hic, .lau, .mbx, .pea, .qmg, .rpl, .slt] b (sltSetOutput m b) := by
  unfold sltSetOutput
  with_reducible
    refine .checked (by decide) (by decide) (fun _ _ => ?_) ?_
    refine .step (ok_frame ..) (by decide) ?_
    refine .step (flushHeld_frame ..) (by decide) ?_
    refine .step (saveLegalConfig_frame ..) (by decide) ?_
    refine .step (updSlt_frame ..) (by decide) ?_
    assumption
    exact .refl _ _

theorem sltSetTamper_frame (m : Fin 4) (b : Block) :
    Block.Only [.backup, .mbx, .rpl] b (sltSetTamper m b) := by
  unfold sltSetTamper
  with_reducible
    refine .step (ok_frame ..) (by decide) ?_
    refine .step (updBackup_frame ..) (by decide) ?_
    exact .refl _ _

theorem ledgerMove_frame (kind w : Nat) (amt : U64) (seq : U32) (b : Block) :
    Block.Only [.bri] b (ledgerMove kind w amt seq b) := by
  unfold ledgerMove
  with_reducible
    refine .step (updBri_frame ..) (by decide) ?_
    refine .step (setWallet_frame ..) (by decide) ?_
    exact .refl _ _

theorem ledgerMessage_frame (kind : Nat) (m : Fin 4) (b : Block) :
    Block.Only [.arb, .bri, .btn, .dmp, .hic, .mbx, .pea, .rpl] b (ledgerMessage kind m b) := by
  unfold ledgerMessage
  with_reducible
    try lift_lets
    intro xx
    clear_value xx
    try lift_lets
    intro xx
    clear_value xx
    try lift_lets
    intro xx
    clear_value xx
    try lift_lets
    intro xx
    clear_value xx
    try lift_lets
    intro xx
    refine Block.Only.viaPair xx ?_ (fun _ => ?_) <;> [simp only [xx]; clear_value xx]
    refine transfer_frame (by decide) (fun _ _ => ?_) ?_
    refine .step (ledgerMove_frame ..) (by decide) ?_
    assumption
    exact .refl _ _
    split
    refine .step (refuse_frame ..) (by decide) ?_
    refine .step (irq_frame ..) (by decide) ?_
    refine .step (updBri_frame ..) (by decide) ?_
    exact .refl _ _
    refine .ite _ ?_ ?_
    refine .step (internalFail_frame ..) (by decide) ?_
    assumption
    refine .ite _ ?_ ?_
    refine .step (saveWallet_frame ..) (by decide) ?_
    refine .step (selfLineAs_frame ..) (by decide) ?_
    refine .step (irq_frame ..) (by decide) ?_
    refine .step (ctrIncrement_frame ..) (by decide) ?_
    assumption
    refine .step (selfLineAs_frame ..) (by decide) ?_
    refine .step (irq_frame ..) (by decide) ?_
    refine .step (ctrIncrement_frame ..) (by decide) ?_
    assumption

theorem briGetWallet_frame (m : Fin 4) (b : Block) :
    Block.Only [.mbx, .rpl] b (briGetWallet m b) := by
  unfold briGetWallet
  with_reducible
    try lift_lets
    intro xx
    clear_value xx
    refine .checked (by decide) (by decide) (fun _ _ => ?_) ?_
    refine .step (ok_frame ..) (by decide) ?_
    assumption
    exact .refl _ _

theorem briSetConfig_frame (m : Fin 4) (b : Block) :
    Block.Only [.arb, .bri, .btn, .hic, .mbx, .pea, .rpl] b (briSetConfig m b) := by
  unfold briSetConfig
  with_reducible
    try lift_lets
    intro xx
    clear_value xx
    try lift_lets
    intro xx
    clear_value xx
    refine .checked (by decide) (by decide) (fun _ _ => ?_) ?_
    try lift_lets
    intro xx
    refine Block.Only.viaVar xx ?_ (fun _ => ?_) <;> [simp only [xx]; clear_value xx]
    refine .step (updBri_frame ..) (by decide) ?_
    assumption
    refine .step (ok_frame ..) (by decide) ?_
    refine .step (saveLegalConfig_frame ..) (by decide) ?_
    refine .step (cmdLog_frame ..) (by decide) ?_
    assumption
    exact .refl _ _

theorem briGetLedger_frame (m : Fin 4) (b : Block) :
    Block.Only [.mbx, .rpl] b (briGetLedger m b) := by
  unfold briGetLedger
  with_reducible
    try lift_lets
    intro xx
    clear_value xx
    refine .checked (by decide) (by decide) (fun _ _ => ?_) ?_
    refine .step (ok_frame ..) (by decide) ?_
    assumption
    exact .refl _ _

theorem briAudit_frame (m : Fin 4) (b : Block) :
    Block.Only [.mbx, .rpl] b (briAudit m b) := by
  unfold briAudit
  with_reducible
    refine .step (ok_frame ..) (by decide) ?_
    exact .refl _ _

theorem briBlock_frame (m : Fin 4) (b : Block) :
    Block.Only [.arb, .bri, .hic, .mbx, .pea, .rpl] b (briBlock m b) := by
  unfold briBlock
  with_reducible
    try lift_lets
    intro xx
    clear_value xx
    try lift_lets
    intro xx
    clear_value xx
    try lift_lets
    intro xx
    clear_value xx
    refine .checked (by decide) (by decide) (fun _ _ => ?_) ?_
    refine .step (ok_frame ..) (by decide) ?_
    refine .onlyIf _ (fun _ _ => ?_) ?_
    refine .step (saveWallet_frame ..) (by decide) ?_
    refine .step (setWallet_frame ..) (by decide) ?_
    assumption
    assumption
    exact .refl _ _

theorem briCapture_frame (a : Nat) (b : Block) :
    Block.Only [.bri] b (briCapture a b) := by
  unfold briCapture
  with_reducible
    refine .dite _ (fun _ => ?_) (fun _ => ?_)
    refine .step (updLedger_frame ..) (by decide) ?_
    exact .refl _ _
    split
    refine .step (updBri_frame ..) (by decide) ?_
    exact .refl _ _
    refine .step (updBri_frame ..) (by decide) ?_
    exact .refl _ _
    refine .step (updBri_frame ..) (by decide) ?_
    exact .refl _ _
    refine .step (updBri_frame ..) (by decide) ?_
    exact .refl _ _
    exact .refl _ _

end Sys2Proof.Machine
end

