-- ==== Sys2Proof/Laws/FrameHostPort.lean ====
section
/-! SUPPORT. Frames of the operations of Machine/HostPort.lean: the units each of them may change. -/

namespace Sys2Proof.Machine

theorem winErr_frame (write : Bool) (cause : Nat) (addr : Nat) (b : Block) :
    Block.Only [.hic, .hp] b (winErr write cause addr b) := by
  unfold winErr
  with_reducible
    try lift_lets
    intro xx
    clear_value xx
    try lift_lets
    intro xx
    clear_value xx
    refine .onlyIf _ (fun _ _ => ?_) ?_
    refine .step (irq_frame ..) (by decide) ?_
    assumption
    refine .set_hp ?_ _ (by decide)
    exact .refl _ _

theorem spiErr_frame (cause : Nat) (b : Block) :
    Block.Only [.hic, .hp] b (spiErr cause b) := by
  unfold spiErr
  with_reducible
    try lift_lets
    intro xx
    clear_value xx
    try lift_lets
    intro xx
    clear_value xx
    refine .onlyIf _ (fun _ _ => ?_) ?_
    refine .step (irq_frame ..) (by decide) ?_
    assumption
    refine .set_hp ?_ _ (by decide)
    exact .refl _ _

theorem sysGetVersion_frame (m : Fin 4) (b : Block) :
    Block.Only [.mbx, .rpl] b (sysGetVersion m b) := by
  unfold sysGetVersion
  with_reducible
    refine .step (ok_frame ..) (by decide) ?_
    exact .refl _ _

theorem sysHpStatus_frame (m : Fin 4) (b : Block) :
    Block.Only [.mbx, .rpl] b (sysHpStatus m b) := by
  unfold sysHpStatus
  with_reducible
    refine .step (ok_frame ..) (by decide) ?_
    exact .refl _ _

theorem sysHpClear_frame (m : Fin 4) (b : Block) :
    Block.Only [.arb, .btn, .hic, .hp, .mbx, .pea, .rpl] b (sysHpClear m b) := by
  unfold sysHpClear
  with_reducible
    try lift_lets
    intro xx
    clear_value xx
    refine .step (ok_frame ..) (by decide) ?_
    refine .step (cmdLog_frame ..) (by decide) ?_
    refine .set_hp ?_ _ (by decide)
    exact .refl _ _

end Sys2Proof.Machine
end

