-- ==== Sys2Proof/Laws/FrameCauseway.lean ====
section
/-! SUPPORT. Frames of the operations of Machine/Causeway.lean: the units each of them may change. -/

namespace Sys2Proof.Machine

theorem crcFailure_frame (b : Block) :
    Block.Only [.cwyX, .hic] b (crcFailure b) := by
  unfold crcFailure
  with_reducible
    try lift_lets
    intro xx
    clear_value xx
    try lift_lets
    intro xx
    clear_value xx
    try lift_lets
    intro xx
    clear_value xx
    refine .onlyIf _ (fun _ _ => ?_) ?_
    refine .step (irq_frame ..) (by decide) ?_
    assumption
    refine .set_cwyX ?_ _ (by decide)
    exact .refl _ _

theorem dropInbound_frame (u : Nat) (b : Block) :
    Block.Only [.arb, .btn, .cwy, .cwyX, .dmp, .hic, .qmg] b (dropInbound u b) := by
  unfold dropInbound
  with_reducible
    refine .step (qFree_frame ..) (by decide) ?_
    exact .refl _ _

theorem badRecord_frame (u : Nat) (b : Block) :
    Block.Only [.arb, .btn, .cwy, .cwyX, .dmp, .hic, .qmg] b (badRecord u b) := by
  unfold badRecord
  with_reducible
    try lift_lets
    intro xx
    clear_value xx
    refine .step (dropInbound_frame ..) (by decide) ?_
    refine .set_cwy ?_ _ (by decide)
    exact .refl _ _

theorem judgeRecord_frame (g : Fin 64) (u : Nat) (l : List U8) (b : Block) :
    Block.Only [.arb, .btn, .cwy, .cwyX, .dmp, .hic, .lau, .qmg, .rpl] b (judgeRecord g u l b) := by
  unfold judgeRecord
  with_reducible
    try lift_lets
    intro xx
    clear_value xx
    try lift_lets
    intro xx
    clear_value xx
    try lift_lets
    intro xx
    clear_value xx
    try lift_lets
    intro xx
    clear_value xx
    try lift_lets
    intro xx
    clear_value xx
    try lift_lets
    intro xx
    clear_value xx
    try lift_lets
    intro xx
    refine Block.Only.viaVar xx ?_ (fun _ => ?_) <;> [simp only [xx]; clear_value xx]
    refine .onlyIf _ (fun _ _ => ?_) ?_
    refine .step (irq_frame ..) (by decide) ?_
    refine .set_cwy ?_ _ (by decide)
    assumption
    exact .refl _ _
    refine .ite _ ?_ ?_
    refine .step (dropInbound_frame ..) (by decide) ?_
    refine .set_cwy ?_ _ (by decide)
    exact .refl _ _
    dsimp (zetaDelta := true) only
    split
    refine .step (updGroup_frame ..) (by decide) ?_
    refine .step (setQ_frame ..) (by decide) ?_
    refine .step (traceItem_frame ..) (by decide) ?_
    refine .ofPair (by assumption) ?_
    refine .step (qEnqueue_frame ..) (by decide) ?_
    assumption
    refine .step (badRecord_frame ..) (by decide) ?_
    refine .ofPair (by assumption) ?_
    refine .step (qEnqueue_frame ..) (by decide) ?_
    assumption

theorem acceptRecord_frame (l : List U8) (b : Block) :
    Block.Only [.arb, .btn, .cwy, .cwyX, .dmp, .hic, .lau, .qmg, .rpl] b (acceptRecord l b) := by
  unfold acceptRecord
  with_reducible
    try lift_lets
    intro xx
    clear_value xx
    try lift_lets
    intro xx
    clear_value xx
    try lift_lets
    intro xx
    refine Block.Only.viaVar xx ?_ (fun _ => ?_) <;> [simp only [xx]; clear_value xx]
    refine .step (updGroup_frame ..) (by decide) ?_
    refine .set_cwy ?_ _ (by decide)
    exact .refl _ _
    refine .ite _ ?_ ?_
    refine .step (creditViolation_frame ..) (by decide) ?_
    exact .refl _ _
    split
    refine .step (creditViolation_frame ..) (by decide) ?_
    refine .ofPair (by assumption) ?_
    refine .step (qAlloc_frame ..) (by decide) ?_
    assumption
    try lift_lets
    intro xx
    refine Block.Only.viaVar xx ?_ (fun _ => ?_) <;> [simp only [xx]; clear_value xx]
    refine .step (setBuf_frame ..) (by decide) ?_
    refine .ofPair (by assumption) ?_
    refine .step (qAlloc_frame ..) (by decide) ?_
    assumption
    refine .ite _ ?_ ?_
    refine .step (judgeRecord_frame ..) (by decide) ?_
    assumption
    refine .step (badRecord_frame ..) (by decide) ?_
    assumption

theorem slotReceive_frame (x : CwySlot) (b : Block) :
    Block.Only [.arb, .btn, .cwy, .cwyX, .dmp, .hic, .lau, .qmg, .rpl] b (slotReceive x b) := by
  unfold slotReceive
  with_reducible
    try lift_lets
    intro xx
    clear_value xx
    try lift_lets
    intro xx
    clear_value xx
    try lift_lets
    intro xx
    clear_value xx
    try lift_lets
    intro xx
    clear_value xx
    try lift_lets
    intro xx
    refine Block.Only.viaVar xx ?_ (fun _ => ?_) <;> [simp only [xx]; clear_value xx]
    refine .step (crcFailure_frame ..) (by decide) ?_
    refine .set_cwy_cwyX ?_ _ _ (by decide) (by decide)
    exact .refl _ _
    refine .ite _ ?_ ?_
    exact .refl _ _
    refine .ite _ ?_ ?_
    refine .step (linkReset_frame ..) (by decide) ?_
    exact .refl _ _
    refine .ite _ ?_ ?_
    refine .onlyIf _ (fun _ _ => ?_) ?_
    refine .step (linkReset_frame ..) (by decide) ?_
    assumption
    assumption
    refine .ite _ ?_ ?_
    refine .set_cwy_cwyX ?_ _ _ (by decide) (by decide)
    exact .refl _ _
    refine .step (acceptRecord_frame ..) (by decide) ?_
    refine .set_cwy_cwyX ?_ _ _ (by decide) (by decide)
    exact .refl _ _

theorem freeAcked_frame (us : List Nat) (b : Block) :
    Block.Only [.arb, .btn, .cwy, .cwyX, .dmp, .hic, .qmg] b (freeAcked us b) := by
  unfold freeAcked
  with_reducible
    refine .forAll (fun _ _ _ => ?_) _ ?_
    refine .step (qFree_frame ..) (by decide) ?_
    assumption
    exact .refl _ _

theorem takeAck_frame (a : U16) (b : Block) :
    Block.Only [.arb, .btn, .cwy, .cwyX, .dmp, .hic, .qmg] b (takeAck a b) := by
  unfold takeAck
  with_reducible
    try lift_lets
    intro xx
    clear_value xx
    try lift_lets
    intro xx
    clear_value xx
    split
    exact .refl _ _
    refine .step (freeAcked_frame ..) (by decide) ?_
    refine .set_cwy_cwyX ?_ _ _ (by decide) (by decide)
    exact .refl _ _

theorem takeCredit_frame (w : Nat) (b : Block) :
    Block.Only [.cwy, .cwyX, .hic] b (takeCredit w b).1 := by
  unfold takeCredit
  with_reducible
    try lift_lets
    intro xx
    clear_value xx
    try lift_lets
    intro xx
    clear_value xx
    try lift_lets
    intro xx
    clear_value xx
    refine .iteFst _ ?_ ?_
    refine .step (creditViolation_frame ..) (by decide) ?_
    exact .refl _ _
    refine .step (noteWait_frame ..) (by decide) ?_
    refine .step (updGroup_frame ..) (by decide) ?_
    exact .refl _ _

theorem takeCredits_frame  (y0 : List Nat) (y1 : Block) :
    Block.Only [.cwy, .cwyX, .hic] y1 (takeCredits y0 y1) := by
  fun_induction takeCredits y0 y1
  with_reducible
    exact .refl _ _
    refine .trans ?_ (by assumption)
    refine .ofPair (by assumption) ?_
    refine .step (takeCredit_frame ..) (by decide) ?_
    exact .refl _ _
    refine .ofPair (by assumption) ?_
    refine .step (takeCredit_frame ..) (by decide) ?_
    exact .refl _ _

theorem creditReceive_frame (bytes : List U8) (b : Block) :
    Block.Only [.arb, .btn, .cwy, .cwyX, .dmp, .hic, .qmg] b (creditReceive bytes b) := by
  unfold creditReceive
  with_reducible
    try lift_lets
    intro xx
    clear_value xx
    try lift_lets
    intro xx
    clear_value xx
    try lift_lets
    intro xx
    clear_value xx
    try lift_lets
    intro xx
    clear_value xx
    try lift_lets
    intro xx
    refine Block.Only.viaVar xx ?_ (fun _ => ?_) <;> [simp only [xx]; clear_value xx]
    refine .step (crcFailure_frame ..) (by decide) ?_
    refine .set_cwy_cwyX ?_ _ _ (by decide) (by decide)
    exact .refl _ _
    refine .ite _ ?_ ?_
    exact .refl _ _
    refine .ite _ ?_ ?_
    refine .onlyIf _ (fun _ _ => ?_) ?_
    refine .step (linkReset_frame ..) (by decide) ?_
    assumption
    assumption
    refine .step (takeCredits_frame ..) (by decide) ?_
    refine .step (takeAck_frame ..) (by decide) ?_
    refine .set_cwy_cwyX ?_ _ _ (by decide) (by decide)
    exact .refl _ _

theorem transmit_frame (g : Fin 64) (u : Nat) (b : Block) :
    Block.Only [.cwy, .cwyX] b (transmit g u b) := by
  unfold transmit
  with_reducible
    try lift_lets
    intro xx
    clear_value xx
    try lift_lets
    intro xx
    clear_value xx
    try lift_lets
    intro xx
    clear_value xx
    try lift_lets
    intro xx
    refine Block.Only.viaVar xx ?_ (fun _ => ?_) <;> [simp only [xx]; clear_value xx]
    refine .set_cwy_cwyX ?_ _ _ (by decide) (by decide)
    exact .refl _ _
    refine .step (noteWait_frame ..) (by decide) ?_
    refine .step (updGroup_frame ..) (by decide) ?_
    assumption

theorem recordSend_frame (b : Block) :
    Block.Only [.arb, .btn, .cwy, .cwyX, .dmp, .hic, .qmg] b (recordSend b) := by
  unfold recordSend
  with_reducible
    try lift_lets
    intro xx
    clear_value xx
    refine .ite _ ?_ ?_
    exact .refl _ _
    split
    dsimp (zetaDelta := true) only
    split
    refine .ite _ ?_ ?_
    exact .refl _ _
    refine .step (transmit_frame ..) (by decide) ?_
    refine .set_cwy ?_ _ (by decide)
    exact .refl _ _
    exact .refl _ _
    dsimp (zetaDelta := true) only
    split
    refine .ite _ ?_ ?_
    exact .refl _ _
    refine .step (transmit_frame ..) (by decide) ?_
    refine .set_cwy ?_ _ (by decide)
    exact .refl _ _
    split
    refine .ofPair (by assumption) ?_
    refine .step (qDequeue_frame ..) (by decide) ?_
    exact .refl _ _
    refine .step (transmit_frame ..) (by decide) ?_
    refine .set_cwy ?_ _ (by decide)
    refine .ofPair (by assumption) ?_
    refine .step (qDequeue_frame ..) (by decide) ?_
    exact .refl _ _

theorem ackTimeout_frame (b : Block) :
    Block.Only [.cwy, .cwyX, .hic, .prior, .tide] b (ackTimeout b) := by
  unfold ackTimeout
  with_reducible
    try lift_lets
    intro xx
    clear_value xx
    refine .ite _ ?_ ?_
    refine .afterTicks (by decide) (by decide) (fun _ _ => ?_) ?_
    try lift_lets
    intro xx
    clear_value xx
    try lift_lets
    intro xx
    clear_value xx
    try lift_lets
    intro xx
    clear_value xx
    try lift_lets
    intro xx
    refine Block.Only.viaVar xx ?_ (fun _ => ?_) <;> [simp only [xx]; clear_value xx]
    refine .set_cwy_cwyX ?_ _ _ (by decide) (by decide)
    assumption
    refine .onlyIf _ (fun _ _ => ?_) ?_
    refine .step (linkReset_frame ..) (by decide) ?_
    assumption
    assumption
    exact .refl _ _
    exact .refl _ _

theorem groupStall_frame (g : Fin 64) (b : Block) :
    Block.Only [.cwy, .hic, .prior, .tide] b (groupStall g b) := by
  unfold groupStall
  with_reducible
    split
    exact .refl _ _
    refine .afterTicks (by decide) (by decide) (fun _ _ => ?_) ?_
    try lift_lets
    intro xx
    clear_value xx
    refine .onlyIf _ (fun _ _ => ?_) ?_
    refine .step (irq_frame ..) (by decide) ?_
    assumption
    refine .step (updGroup_frame ..) (by decide) ?_
    assumption
    exact .refl _ _

theorem linkUp_frame (b : Block) :
    Block.Only [.cwy, .cwyX, .hic, .mbx, .rpl] b (linkUp b) := by
  unfold linkUp
  with_reducible
    try lift_lets
    intro xx
    clear_value xx
    try lift_lets
    intro xx
    clear_value xx
    try lift_lets
    intro xx
    clear_value xx
    try lift_lets
    intro xx
    refine Block.Only.viaVar xx ?_ (fun _ => ?_) <;> [simp only [xx]; clear_value xx]
    refine .set_cwy_cwyX ?_ _ _ (by decide) (by decide)
    exact .refl _ _
    refine .ite _ ?_ ?_
    split
    refine .step (ok_frame ..) (by decide) ?_
    refine .set_cwy_cwyX ?_ _ _ (by decide) (by decide)
    refine .forAll (fun _ _ _ => ?_) _ ?_
    refine .step (noteWait_frame ..) (by decide) ?_
    assumption
    refine .step (irq_frame ..) (by decide) ?_
    assumption
    refine .forAll (fun _ _ _ => ?_) _ ?_
    refine .step (noteWait_frame ..) (by decide) ?_
    assumption
    refine .step (irq_frame ..) (by decide) ?_
    assumption
    exact .refl _ _

theorem trainingTimeout_frame (b : Block) :
    Block.Only [.cwy, .cwyX, .mbx, .prior, .rpl, .tide] b (trainingTimeout b) := by
  unfold trainingTimeout
  with_reducible
    refine .ite _ ?_ ?_
    refine .afterTicks (by decide) (by decide) (fun _ _ => ?_) ?_
    refine .ite _ ?_ ?_
    try lift_lets
    intro xx
    clear_value xx
    split
    refine .step (refuse_frame ..) (by decide) ?_
    refine .set_cwy_cwyX ?_ _ _ (by decide) (by decide)
    assumption
    assumption
    try lift_lets
    intro xx
    clear_value xx
    try lift_lets
    intro xx
    clear_value xx
    try lift_lets
    intro xx
    clear_value xx
    refine .set_cwy_cwyX ?_ _ _ (by decide) (by decide)
    split
    refine .step (refuse_frame ..) (by decide) ?_
    refine .set_cwy_cwyX ?_ _ _ (by decide) (by decide)
    assumption
    assumption
    exact .refl _ _
    exact .refl _ _

theorem receiveClockStable_frame (b : Block) :
    Block.Only [.cwy] b (receiveClockStable b) := by
  unfold receiveClockStable
  with_reducible
    refine .ite _ ?_ ?_
    try lift_lets
    intro xx
    clear_value xx
    try lift_lets
    intro xx
    clear_value xx
    refine .set_cwy ?_ _ (by decide)
    refine .set_cwy ?_ _ (by decide)
    exact .refl _ _
    try lift_lets
    intro xx
    clear_value xx
    refine .set_cwy ?_ _ (by decide)
    refine .set_cwy ?_ _ (by decide)
    exact .refl _ _

theorem clockLost_frame (b : Block) :
    Block.Only [.cwy, .cwyX, .hic] b (clockLost b) := by
  unfold clockLost
  with_reducible
    try lift_lets
    intro xx
    clear_value xx
    try lift_lets
    intro xx
    refine Block.Only.viaVar xx ?_ (fun _ => ?_) <;> [simp only [xx]; clear_value xx]
    refine .set_cwy ?_ _ (by decide)
    exact .refl _ _
    refine .ite _ ?_ ?_
    refine .step (linkReset_frame ..) (by decide) ?_
    assumption
    assumption

theorem cwySetLink_frame (m : Fin 4) (b : Block) :
    Block.Only [.arb, .cwy, .cwyX, .hic, .mbx, .pea, .rpl] b (cwySetLink m b) := by
  unfold cwySetLink
  with_reducible
    try lift_lets
    intro xx
    clear_value xx
    try lift_lets
    intro xx
    clear_value xx
    refine .checked (by decide) (by decide) (fun _ _ => ?_) ?_
    try lift_lets
    intro xx
    clear_value xx
    try lift_lets
    intro xx
    clear_value xx
    try lift_lets
    intro xx
    refine Block.Only.viaVar xx ?_ (fun _ => ?_) <;> [simp only [xx]; clear_value xx]
    refine .set_cwy_cwyX ?_ _ _ (by decide) (by decide)
    assumption
    refine .step (ok_frame ..) (by decide) ?_
    refine .step (saveSettings_frame ..) (by decide) ?_
    refine .ite _ ?_ ?_
    refine .set_cwy_cwyX ?_ _ _ (by decide) (by decide)
    assumption
    refine .ite _ ?_ ?_
    refine .step (linkReset_frame ..) (by decide) ?_
    assumption
    assumption
    exact .refl _ _

theorem cwyResetLink_frame (m : Fin 4) (b : Block) :
    Block.Only [.cwy, .cwyX, .hic] b (cwyResetLink m b) := by
  unfold cwyResetLink
  with_reducible
    try lift_lets
    intro xx
    clear_value xx
    split
    exact .refl _ _
    refine .step (linkReset_frame ..) (by decide) ?_
    refine .set_cwyX ?_ _ (by decide)
    exact .refl _ _

theorem cwySetGroup_frame (m : Fin 4) (b : Block) :
    Block.Only [.arb, .btn, .cwy, .hic, .mbx, .pea, .qmg, .rpl] b (cwySetGroup m b) := by
  unfold cwySetGroup
  with_reducible
    try lift_lets
    intro xx
    clear_value xx
    try lift_lets
    intro xx
    clear_value xx
    try lift_lets
    intro xx
    clear_value xx
    refine .checked (by decide) (by decide) (fun _ _ => ?_) ?_
    try lift_lets
    intro xx
    refine Block.Only.viaVar xx ?_ (fun _ => ?_) <;> [simp only [xx]; clear_value xx]
    refine .step (saveSettings_frame ..) (by decide) ?_
    refine .step (noteLow_frame ..) (by decide) ?_
    refine .step (updGroup_frame ..) (by decide) ?_
    assumption
    refine .step (cmdLog_frame ..) (by decide) ?_
    refine .step (ok_frame ..) (by decide) ?_
    assumption
    exact .refl _ _

theorem cwyGetGroup_frame (m : Fin 4) (b : Block) :
    Block.Only [.mbx, .rpl] b (cwyGetGroup m b) := by
  unfold cwyGetGroup
  with_reducible
    try lift_lets
    intro xx
    clear_value xx
    refine .checked (by decide) (by decide) (fun _ _ => ?_) ?_
    try lift_lets
    intro xx
    clear_value xx
    refine .step (ok_frame ..) (by decide) ?_
    assumption
    exact .refl _ _

theorem qmgSetQueue_frame (m : Fin 4) (b : Block) :
    Block.Only [.arb, .btn, .hic, .mbx, .pea, .qmg, .rpl] b (qmgSetQueue m b) := by
  unfold qmgSetQueue
  with_reducible
    try lift_lets
    intro xx
    clear_value xx
    try lift_lets
    intro xx
    clear_value xx
    try lift_lets
    intro xx
    clear_value xx
    try lift_lets
    intro xx
    clear_value xx
    try lift_lets
    intro xx
    clear_value xx
    try lift_lets
    intro xx
    clear_value xx
    try lift_lets
    intro xx
    clear_value xx
    try lift_lets
    intro xx
    clear_value xx
    try lift_lets
    intro xx
    clear_value xx
    try lift_lets
    intro xx
    clear_value xx
    refine .checked (by decide) (by decide) (fun _ _ => ?_) ?_
    try lift_lets
    intro xx
    refine Block.Only.viaVar xx ?_ (fun _ => ?_) <;> [simp only [xx]; clear_value xx]
    refine .step (setQ_frame ..) (by decide) ?_
    assumption
    refine .step (cmdLog_frame ..) (by decide) ?_
    refine .step (ok_frame ..) (by decide) ?_
    refine .step (saveSettings_frame ..) (by decide) ?_
    assumption
    exact .refl _ _

theorem qmgGetQueue_frame (m : Fin 4) (b : Block) :
    Block.Only [.mbx, .rpl] b (qmgGetQueue m b) := by
  unfold qmgGetQueue
  with_reducible
    try lift_lets
    intro xx
    clear_value xx
    refine .checked (by decide) (by decide) (fun _ _ => ?_) ?_
    refine .step (ok_frame ..) (by decide) ?_
    assumption
    exact .refl _ _

theorem qmgFlush_frame (m : Fin 4) (b : Block) :
    Block.Only [.arb, .btn, .cwy, .cwyX, .dmp, .hic, .mbx, .pea, .qmg, .rpl] b (qmgFlush m b) := by
  unfold qmgFlush
  with_reducible
    try lift_lets
    intro xx
    clear_value xx
    try lift_lets
    intro xx
    clear_value xx
    refine .checked (by decide) (by decide) (fun _ _ => ?_) ?_
    refine .step (cmdLog_frame ..) (by decide) ?_
    refine .step (ok_frame ..) (by decide) ?_
    refine .step (qFlush_frame ..) (by decide) ?_
    assumption
    exact .refl _ _

theorem qmgSetLowWater_frame (m : Fin 4) (b : Block) :
    Block.Only [.arb, .hic, .mbx, .pea, .qmg, .rpl] b (qmgSetLowWater m b) := by
  unfold qmgSetLowWater
  with_reducible
    try lift_lets
    intro xx
    clear_value xx
    refine .checked (by decide) (by decide) (fun _ _ => ?_) ?_
    try lift_lets
    intro xx
    clear_value xx
    refine .step (ok_frame ..) (by decide) ?_
    refine .step (saveSettings_frame ..) (by decide) ?_
    refine .step (noteLow_frame ..) (by decide) ?_
    refine .set_qmg ?_ _ (by decide)
    assumption
    exact .refl _ _

theorem cwyClear_frame (b : Block) :
    Block.Only [.cwy] b (cwyClear b) := by
  unfold cwyClear
  with_reducible
    try lift_lets
    intro xx
    clear_value xx
    refine .set_cwy ?_ _ (by decide)
    exact .refl _ _

theorem qmgClear_frame (b : Block) :
    Block.Only [.qmg] b (qmgClear b) := by
  unfold qmgClear
  with_reducible
    try lift_lets
    intro xx
    clear_value xx
    refine .set_qmg ?_ _ (by decide)
    exact .refl _ _

theorem cwyQmgClear_frame (m : Fin 4) (b : Block) :
    Block.Only [.cwy, .mbx, .qmg, .rpl] b (cwyQmgClear m b) := by
  unfold cwyQmgClear
  with_reducible
    refine .step (ok_frame ..) (by decide) ?_
    refine .onlyIf _ (fun _ _ => ?_) ?_
    refine .step (qmgClear_frame ..) (by decide) ?_
    assumption
    refine .onlyIf _ (fun _ _ => ?_) ?_
    refine .step (cwyClear_frame ..) (by decide) ?_
    assumption
    exact .refl _ _

theorem qAccept_frame (b : Block) :
    Block.Only [.prior, .qmg, .tide] b (qAccept b) := by
  unfold qAccept
  with_reducible
    try lift_lets
    intro xx
    clear_value xx
    try lift_lets
    intro xx
    refine Block.Only.viaVar xx ?_ (fun _ => ?_) <;> [simp only [xx]; clear_value xx]
    refine .step (tideTo_frame ..) (by decide) ?_
    exact .refl _ _
    refine .set_qmg ?_ _ (by decide)
    assumption

theorem qmgAlloc_frame (a : Fin 16) (g : Fin 64) (b : Block) :
    Block.Only [.arb, .btn, .dmp, .hic, .qmg] b (qmgAlloc a g b) := by
  unfold qmgAlloc
  with_reducible
    try lift_lets
    intro xx
    refine Block.Only.viaPair xx ?_ (fun _ => ?_) <;> [simp only [xx]; clear_value xx]
    refine .step (qAlloc_frame ..) (by decide) ?_
    exact .refl _ _
    refine .step (qTell_frame ..) (by decide) ?_
    assumption

theorem qmgEnqueue_frame (a : Fin 16) (q u : Nat) (b : Block) :
    Block.Only [.arb, .btn, .cwy, .cwyX, .dmp, .hic, .lau, .qmg] b (qmgEnqueue a q u b) := by
  unfold qmgEnqueue
  with_reducible
    try lift_lets
    intro xx
    refine Block.Only.viaPair xx ?_ (fun _ => ?_) <;> [simp only [xx]; clear_value xx]
    refine .step (qEnqueue_frame ..) (by decide) ?_
    exact .refl _ _
    refine .step (qTell_frame ..) (by decide) ?_
    assumption

theorem qmgDequeue_frame (a : Fin 16) (q : Nat) (b : Block) :
    Block.Only [.arb, .btn, .cwy, .dmp, .hic, .qmg] b (qmgDequeue a q b) := by
  unfold qmgDequeue
  with_reducible
    try lift_lets
    intro xx
    refine Block.Only.viaPair xx ?_ (fun _ => ?_) <;> [simp only [xx]; clear_value xx]
    refine .step (qDequeue_frame ..) (by decide) ?_
    exact .refl _ _
    refine .step (qTell_frame ..) (by decide) ?_
    assumption

theorem qmgFree_frame (a : Fin 16) (u : Nat) (b : Block) :
    Block.Only [.arb, .btn, .cwy, .cwyX, .dmp, .hic, .qmg] b (qmgFree a u b) := by
  unfold qmgFree
  with_reducible
    try lift_lets
    intro xx
    refine Block.Only.viaPair xx ?_ (fun _ => ?_) <;> [simp only [xx]; clear_value xx]
    refine .step (qFree_frame ..) (by decide) ?_
    exact .refl _ _
    refine .step (qTell_frame ..) (by decide) ?_
    assumption

end Sys2Proof.Machine
end

