-- ==== Sys2Proof/Laws/FrameCrossings.lean ====
section
/-! SUPPORT. Frames of the operations of Machine/Crossings.lean: the units each of them may change. -/

namespace Sys2Proof.Machine

theorem updCross_frame (k : CrossId) (f : Crossing → Crossing) (b : Block) :
    Block.Only [.cross] b (updCross k f b) := by
  unfold updCross
  with_reducible
    refine .set_cross ?_ _ (by decide)
    exact .refl _ _

theorem crossReset_frame (b : Block) :
    Block.Only [.cross] b (crossReset b) := by
  unfold crossReset
  with_reducible
    refine .set_cross ?_ _ (by decide)
    exact .refl _ _

theorem crossReceivers_frame (b : Block) :
    Block.Only [.cross] b (crossReceivers b) := by
  unfold crossReceivers
  with_reducible
    refine .set_cross ?_ _ (by decide)
    exact .refl _ _

theorem crossSenders_frame (b : Block) :
    Block.Only [.cross] b (crossSenders b) := by
  unfold crossSenders
  with_reducible
    refine .set_cross ?_ _ (by decide)
    exact .refl _ _

theorem crossSend_frame {l : List Part} {b c : Block} {k : CrossId} {v : U32} {act : U32 → Block → Block} (hs : Part.cross ∈ l)
    (hf : ∀ v d, Block.Only l b d → Block.Only l b (act v d)) (h : Block.Only l b c) : Block.Only l b (crossSend k v act c) :=
  .ite _ (hf _ _ (.step (updCross_frame _ _ _) (by simp [hs]) h)) (.step (updCross_frame _ _ _) (by simp [hs]) h)

theorem crossDrain_frame {l : List Part} {b c : Block} {k : CrossId} {act : U32 → Block → Block} (hs : Part.cross ∈ l)
    (hf : ∀ v d, Block.Only l b d → Block.Only l b (act v d)) (h : Block.Only l b c) : Block.Only l b (crossDrain k act c) :=
  .ite _ (.forAll (fun _ _ h => hf _ _ (.step (updCross_frame _ _ _) (by simp [hs]) h)) _ (.step (updCross_frame _ _ _) (by simp [hs]) h)) h

end Sys2Proof.Machine
end

