-- ==== Sys2Proof/Laws/FramePanels.lean ====
section
/-! SUPPORT. Frames of the operations of Machine/Panels.lean: the units each of them may change. -/

namespace Sys2Proof.Machine

theorem updPnl_frame (p : Fin 8) (f : Panel → Panel) (b : Block) :
    Block.Only [.pnl] b (updPnl p f b) := by
  unfold updPnl
  with_reducible
    refine .set_pnl ?_ _ (by decide)
    exact .refl _ _

theorem writeRows_frame (p : Fin 8) (x : Nat) (y0 : Nat) (y1 : List (List (BitVec 6))) (y2 : Block) :
    Block.Only [.frames, .pnl] y2 (writeRows p x y0 y1 y2).1 := by
  fun_induction writeRows p x y0 y1 y2
  with_reducible
    exact .refl _ _
    assumption
    refine .trans ?_ (by assumption)
    refine .step (updPnl_frame ..) (by decide) ?_
    dsimp (zetaDelta := true) only
    refine .set_frames ?_ _ (by decide)
    exact .refl _ _

theorem applyDraw_frame (p : Fin 8) (d : Draw) (b : Block) :
    Block.Only [.frames, .mbx, .pnl, .rpl] b (applyDraw p d b) := by
  unfold applyDraw
  with_reducible
    try lift_lets
    intro xx
    refine Block.Only.viaPair xx ?_ (fun _ => ?_) <;> [simp only [xx]; clear_value xx]
    refine .step (writeRows_frame ..) (by decide) ?_
    exact .refl _ _
    split
    refine .onlyIf _ (fun _ _ => ?_) ?_
    refine .step (updPnl_frame ..) (by decide) ?_
    assumption
    assumption
    refine .step (ok_frame ..) (by decide) ?_
    refine .onlyIf _ (fun _ _ => ?_) ?_
    refine .step (updPnl_frame ..) (by decide) ?_
    assumption
    assumption

theorem draw'_frame (p : Fin 8) (d : Draw) (b : Block) :
    Block.Only [.frames, .mbx, .pnl, .rpl] b (draw' p d b) := by
  unfold draw'
  with_reducible
    refine .ite _ ?_ ?_
    refine .step (updPnl_frame ..) (by decide) ?_
    exact .refl _ _
    refine .step (applyDraw_frame ..) (by decide) ?_
    exact .refl _ _

theorem passStart_frame (p : Fin 8) (b : Block) :
    Block.Only [.mbx, .pnl, .rpl] b (passStart p b) := by
  unfold passStart
  with_reducible
    try lift_lets
    intro xx
    clear_value xx
    try lift_lets
    intro xx
    clear_value xx
    try lift_lets
    intro xx
    refine Block.Only.viaVar xx ?_ (fun _ => ?_) <;> [simp only [xx]; clear_value xx]
    refine .step (updPnl_frame ..) (by decide) ?_
    exact .refl _ _
    split
    refine .ite _ ?_ ?_
    assumption
    refine .step (updPnl_frame ..) (by decide) ?_
    assumption
    refine .step (ok_frame ..) (by decide) ?_
    refine .ite _ ?_ ?_
    assumption
    refine .step (updPnl_frame ..) (by decide) ?_
    assumption

theorem extcominToggle_frame (p : Fin 8) (b : Block) :
    Block.Only [.mbx, .pnl, .prior, .rpl, .tide] b (extcominToggle p b) := by
  unfold extcominToggle
  with_reducible
    refine .ite _ ?_ ?_
    refine .step (updPnl_frame ..) (by decide) ?_
    exact .refl _ _
    refine .atInstant (by decide) (by decide) (fun _ _ => ?_) ?_
    try lift_lets
    intro xx
    refine Block.Only.viaVar xx ?_ (fun _ => ?_) <;> [simp only [xx]; clear_value xx]
    refine .step (updPnl_frame ..) (by decide) ?_
    assumption
    refine .ite _ ?_ ?_
    refine .step (passStart_frame ..) (by decide) ?_
    assumption
    assumption
    exact .refl _ _

theorem applyWaiting_frame (p : Fin 8) (b : Block) :
    Block.Only [.frames, .mbx, .pnl, .rpl] b (applyWaiting p b) := by
  unfold applyWaiting
  with_reducible
    try lift_lets
    intro xx
    clear_value xx
    try lift_lets
    intro xx
    refine Block.Only.viaVar xx ?_ (fun _ => ?_) <;> [simp only [xx]; clear_value xx]
    refine .forAll (fun _ _ _ => ?_) _ ?_
    refine .step (applyDraw_frame ..) (by decide) ?_
    assumption
    refine .step (updPnl_frame ..) (by decide) ?_
    exact .refl _ _
    refine .step (updPnl_frame ..) (by decide) ?_
    assumption

theorem panelPassEnd_frame (p : Fin 8) (b : Block) :
    Block.Only [.frames, .hic, .mbx, .pnl, .prior, .rpl, .tide] b (panelPassEnd p b) := by
  unfold panelPassEnd
  with_reducible
    split
    exact .refl _ _
    refine .atInstant (by decide) (by decide) (fun _ _ => ?_) ?_
    try lift_lets
    intro xx
    refine Block.Only.viaVar xx ?_ (fun _ => ?_) <;> [simp only [xx]; clear_value xx]
    refine .step (updPnl_frame ..) (by decide) ?_
    assumption
    refine .step (applyWaiting_frame ..) (by decide) ?_
    refine .onlyIf _ (fun _ _ => ?_) ?_
    refine .step (irq_frame ..) (by decide) ?_
    assumption
    assumption
    exact .refl _ _

theorem passBreak_frame (p : Fin 8) (b : Block) :
    Block.Only [.frames, .mbx, .pnl, .rpl] b (passBreak p b) := by
  unfold passBreak
  with_reducible
    refine .step (applyWaiting_frame ..) (by decide) ?_
    refine .step (updPnl_frame ..) (by decide) ?_
    exact .refl _ _

theorem panelBiasFault_frame (half : Fin 2) (b : Block) :
    Block.Only [.frames, .hic, .mbx, .pnl, .rpl] b (panelBiasFault half b) := by
  unfold panelBiasFault
  with_reducible
    refine .forAll (fun _ _ _ => ?_) _ ?_
    try lift_lets
    intro xx
    clear_value xx
    try lift_lets
    intro xx
    refine Block.Only.viaVar xx ?_ (fun _ => ?_) <;> [simp only [xx]; clear_value xx]
    refine .step (passBreak_frame ..) (by decide) ?_
    refine .step (irq_frame ..) (by decide) ?_
    refine .step (updPnl_frame ..) (by decide) ?_
    assumption
    split
    assumption
    refine .step (refuse_frame ..) (by decide) ?_
    assumption
    exact .refl _ _

theorem redrawStrip_frame (p : Fin 8) (b : Block) :
    Block.Only [.frames, .hic, .mbx, .pnl, .rpl] b (redrawStrip p b) := by
  unfold redrawStrip
  with_reducible
    try lift_lets
    intro xx
    clear_value xx
    try lift_lets
    intro xx
    refine Block.Only.viaVar xx ?_ (fun _ => ?_) <;> [simp only [xx]; clear_value xx]
    refine .step (draw'_frame ..) (by decide) ?_
    refine .step (updPnl_frame ..) (by decide) ?_
    exact .refl _ _
    refine .ite _ ?_ ?_
    exact .refl _ _
    refine .onlyIf _ (fun _ _ => ?_) ?_
    refine .step (irq_frame ..) (by decide) ?_
    assumption
    assumption

theorem pnlEnable_frame (p : Fin 8) (on : Bool) (b : Block) :
    Block.Only [.frames, .mbx, .pnl, .rpl] b (pnlEnable p on b) := by
  unfold pnlEnable
  with_reducible
    refine .ite _ ?_ ?_
    refine .step (updPnl_frame ..) (by decide) ?_
    exact .refl _ _
    refine .step (passBreak_frame ..) (by decide) ?_
    refine .step (updPnl_frame ..) (by decide) ?_
    exact .refl _ _

theorem pnlSetConfig_frame (m : Fin 4) (b : Block) :
    Block.Only [.arb, .frames, .hic, .mbx, .pea, .pnl, .rpl] b (pnlSetConfig m b) := by
  unfold pnlSetConfig
  with_reducible
    try lift_lets
    intro xx
    clear_value xx
    try lift_lets
    intro xx
    clear_value xx
    refine .checked (by decide) (by decide) (fun _ _ => ?_) ?_
    try lift_lets
    intro xx
    clear_value xx
    try lift_lets
    intro xx
    refine Block.Only.viaVar xx ?_ (fun _ => ?_) <;> [simp only [xx]; clear_value xx]
    refine .step (updPnl_frame ..) (by decide) ?_
    assumption
    refine .step (saveSettings_frame ..) (by decide) ?_
    refine .step (ok_frame ..) (by decide) ?_
    refine .onlyIf _ (fun _ _ => ?_) ?_
    refine .step (redrawStrip_frame ..) (by decide) ?_
    assumption
    refine .step (pnlEnable_frame ..) (by decide) ?_
    assumption
    exact .refl _ _

theorem pnlLoadGamma_frame (m : Fin 4) (b : Block) :
    Block.Only [.mbx, .pnl, .rpl] b (pnlLoadGamma m b) := by
  unfold pnlLoadGamma
  with_reducible
    try lift_lets
    intro xx
    clear_value xx
    refine .checked (by decide) (by decide) (fun _ _ => ?_) ?_
    refine .step (ok_frame ..) (by decide) ?_
    refine .step (updPnl_frame ..) (by decide) ?_
    assumption
    exact .refl _ _

theorem pnlDraw_frame (m : Fin 4) (b : Block) :
    Block.Only [.arb, .btn, .cwy, .cwyX, .dmp, .frames, .hic, .mbx, .pnl, .qmg, .rpl] b (pnlDraw m b) := by
  unfold pnlDraw
  with_reducible
    try lift_lets
    intro xx
    clear_value xx
    try lift_lets
    intro xx
    clear_value xx
    try lift_lets
    intro xx
    clear_value xx
    try lift_lets
    intro xx
    clear_value xx
    try lift_lets
    intro xx
    clear_value xx
    try lift_lets
    intro xx
    clear_value xx
    try lift_lets
    intro xx
    clear_value xx
    try lift_lets
    intro xx
    clear_value xx
    refine .checked (by decide) (by decide) (fun _ _ => ?_) ?_
    try lift_lets
    intro xx
    clear_value xx
    try lift_lets
    intro xx
    clear_value xx
    refine .step (draw'_frame ..) (by decide) ?_
    refine .step (hostDataConsume_frame ..) (by decide) ?_
    assumption
    exact .refl _ _

theorem pnlFill_frame (m : Fin 4) (b : Block) :
    Block.Only [.frames, .mbx, .pnl, .rpl] b (pnlFill m b) := by
  unfold pnlFill
  with_reducible
    try lift_lets
    intro xx
    clear_value xx
    try lift_lets
    intro xx
    clear_value xx
    try lift_lets
    intro xx
    clear_value xx
    try lift_lets
    intro xx
    clear_value xx
    try lift_lets
    intro xx
    clear_value xx
    try lift_lets
    intro xx
    clear_value xx
    refine .checked (by decide) (by decide) (fun _ _ => ?_) ?_
    try lift_lets
    intro xx
    clear_value xx
    refine .step (draw'_frame ..) (by decide) ?_
    assumption
    exact .refl _ _

theorem pnlFlush_frame (m : Fin 4) (b : Block) :
    Block.Only [.mbx, .pnl, .rpl] b (pnlFlush m b) := by
  unfold pnlFlush
  with_reducible
    try lift_lets
    intro xx
    clear_value xx
    refine .checked (by decide) (by decide) (fun _ _ => ?_) ?_
    refine .ite _ ?_ ?_
    refine .step (ok_frame ..) (by decide) ?_
    assumption
    refine .step (updPnl_frame ..) (by decide) ?_
    assumption
    exact .refl _ _

theorem pnlGetStatus_frame (m : Fin 4) (b : Block) :
    Block.Only [.mbx, .rpl] b (pnlGetStatus m b) := by
  unfold pnlGetStatus
  with_reducible
    try lift_lets
    intro xx
    clear_value xx
    refine .checked (by decide) (by decide) (fun _ _ => ?_) ?_
    refine .step (ok_frame ..) (by decide) ?_
    assumption
    exact .refl _ _

theorem pnlClearCounts_frame (m : Fin 4) (b : Block) :
    Block.Only [.mbx, .pnl, .rpl] b (pnlClearCounts m b) := by
  unfold pnlClearCounts
  with_reducible
    refine .step (ok_frame ..) (by decide) ?_
    refine .forAll (fun _ _ _ => ?_) _ ?_
    refine .step (updPnl_frame ..) (by decide) ?_
    assumption
    exact .refl _ _

theorem updNfc_frame (r : Fin 8) (f : Reader → Reader) (b : Block) :
    Block.Only [.nfc] b (updNfc r f b) := by
  unfold updNfc
  with_reducible
    refine .set_nfc ?_ _ (by decide)
    exact .refl _ _

theorem pollStart_frame (r : Fin 8) (b : Block) :
    Block.Only [.nfc] b (pollStart r b) := by
  unfold pollStart
  with_reducible
    refine .ite _ ?_ ?_
    refine .step (updNfc_frame ..) (by decide) ?_
    exact .refl _ _
    refine .step (updNfc_frame ..) (by decide) ?_
    exact .refl _ _

theorem nfcPing_frame (r : Fin 8) (s : NfcSample) (b : Block) :
    Block.Only [.nfc, .prior, .tide] b (nfcPing r s b) := by
  unfold nfcPing
  with_reducible
    refine .ite _ ?_ ?_
    exact .refl _ _
    refine .atInstant (by decide) (by decide) (fun _ _ => ?_) ?_
    try lift_lets
    intro xx
    refine Block.Only.viaVar xx ?_ (fun _ => ?_) <;> [simp only [xx]; clear_value xx]
    refine .step (updNfc_frame ..) (by decide) ?_
    assumption
    refine .ite _ ?_ ?_
    assumption
    refine .ite _ ?_ ?_
    refine .step (pollStart_frame ..) (by decide) ?_
    refine .step (updNfc_frame ..) (by decide) ?_
    refine .step (updNfc_frame ..) (by decide) ?_
    assumption
    refine .step (updNfc_frame ..) (by decide) ?_
    refine .step (updNfc_frame ..) (by decide) ?_
    assumption
    exact .refl _ _

theorem sendCard_frame (r : Fin 8) (src : Nat) (payload : List U8) (b : Block) :
    Block.Only [.arb, .btn, .cwy, .cwyX, .dmp, .hic, .lau, .qmg] b (sendCard r src payload b) := by
  unfold sendCard
  with_reducible
    try lift_lets
    intro xx
    clear_value xx
    refine .ite _ ?_ ?_
    exact .refl _ _
    split
    refine .step (irq_frame ..) (by decide) ?_
    refine .ofPair (by assumption) ?_
    refine .step (sendRecord_frame ..) (by decide) ?_
    exact .refl _ _
    refine .step (irq_frame ..) (by decide) ?_
    refine .ofPair (by assumption) ?_
    refine .step (sendRecord_frame ..) (by decide) ?_
    exact .refl _ _

theorem pollAnswer_frame (r : Fin 8) (found : Bool) (payload : List U8) (b : Block) :
    Block.Only [.mbx, .nfc, .rpl] b (pollAnswer r found payload b) := by
  unfold pollAnswer
  with_reducible
    split
    exact .refl _ _
    refine .step (ok_frame ..) (by decide) ?_
    refine .step (updNfc_frame ..) (by decide) ?_
    exact .refl _ _

theorem cardResolved_frame (r : Fin 8) (c : CardInfo) (b : Block) :
    Block.Only [.arb, .btn, .cwy, .cwyX, .dmp, .hic, .lau, .mbx, .nfc, .prior, .qmg, .rpl, .tide] b (cardResolved r c b) := by
  unfold cardResolved
  with_reducible
    try lift_lets
    intro xx
    clear_value xx
    refine .ite _ ?_ ?_
    exact .refl _ _
    refine .afterTicks (by decide) (by decide) (fun _ _ => ?_) ?_
    try lift_lets
    intro xx
    clear_value xx
    try lift_lets
    intro xx
    refine Block.Only.viaVar xx ?_ (fun _ => ?_) <;> [simp only [xx]; clear_value xx]
    refine .step (traceItem_frame ..) (by decide) ?_
    assumption
    refine .step (pollAnswer_frame ..) (by decide) ?_
    refine .step (sendCard_frame ..) (by decide) ?_
    refine .step (updNfc_frame ..) (by decide) ?_
    assumption
    exact .refl _ _

theorem fieldOff_frame (r : Fin 8) (b : Block) :
    Block.Only [.nfc] b (fieldOff r b) := by
  unfold fieldOff
  with_reducible
    refine .step (updNfc_frame ..) (by decide) ?_
    exact .refl _ _

theorem falseWakeUp_frame (r : Fin 8) (b : Block) :
    Block.Only [.mbx, .nfc, .prior, .rpl, .tide] b (falseWakeUp r b) := by
  unfold falseWakeUp
  with_reducible
    try lift_lets
    intro xx
    clear_value xx
    refine .ite _ ?_ ?_
    exact .refl _ _
    refine .afterTicks (by decide) (by decide) (fun _ _ => ?_) ?_
    try lift_lets
    intro xx
    refine Block.Only.viaVar xx ?_ (fun _ => ?_) <;> [simp only [xx]; clear_value xx]
    refine .step (updNfc_frame ..) (by decide) ?_
    assumption
    refine .step (pollAnswer_frame ..) (by decide) ?_
    refine .step (fieldOff_frame ..) (by decide) ?_
    assumption
    exact .refl _ _

theorem presenceCheck_frame (r : Fin 8) (answered : Bool) (b : Block) :
    Block.Only [.arb, .btn, .cwy, .cwyX, .dmp, .hic, .lau, .nfc, .prior, .qmg, .rpl, .tide] b (presenceCheck r answered b) := by
  unfold presenceCheck
  with_reducible
    try lift_lets
    intro xx
    clear_value xx
    refine .ite _ ?_ ?_
    exact .refl _ _
    refine .afterTicks (by decide) (by decide) (fun _ _ => ?_) ?_
    try lift_lets
    intro xx
    refine Block.Only.viaVar xx ?_ (fun _ => ?_) <;> [simp only [xx]; clear_value xx]
    refine .step (traceItem_frame ..) (by decide) ?_
    refine .step (updNfc_frame ..) (by decide) ?_
    assumption
    refine .ite _ ?_ ?_
    refine .step (updNfc_frame ..) (by decide) ?_
    assumption
    refine .ite _ ?_ ?_
    refine .step (updNfc_frame ..) (by decide) ?_
    assumption
    refine .step (fieldOff_frame ..) (by decide) ?_
    refine .step (sendCard_frame ..) (by decide) ?_
    assumption
    exact .refl _ _

theorem fieldRelease_frame (r : Fin 8) (b : Block) :
    Block.Only [.nfc] b (fieldRelease r b) := by
  unfold fieldRelease
  with_reducible
    refine .ite _ ?_ ?_
    exact .refl _ _
    split
    exact .refl _ _
    refine .step (pollStart_frame ..) (by decide) ?_
    exact .refl _ _

theorem nfcTxFault_frame (r : Fin 8) (b : Block) :
    Block.Only [.hic, .mbx, .nfc, .rpl] b (nfcTxFault r b) := by
  unfold nfcTxFault
  with_reducible
    try lift_lets
    intro xx
    clear_value xx
    try lift_lets
    intro xx
    refine Block.Only.viaVar xx ?_ (fun _ => ?_) <;> [simp only [xx]; clear_value xx]
    refine .step (irq_frame ..) (by decide) ?_
    refine .step (updNfc_frame ..) (by decide) ?_
    refine .step (fieldOff_frame ..) (by decide) ?_
    exact .refl _ _
    refine .ite _ ?_ ?_
    exact .refl _ _
    split
    assumption
    refine .step (refuse_frame ..) (by decide) ?_
    assumption

theorem nfcSetConfig_frame (m : Fin 4) (b : Block) :
    Block.Only [.arb, .hic, .mbx, .nfc, .pea, .rpl] b (nfcSetConfig m b) := by
  unfold nfcSetConfig
  with_reducible
    try lift_lets
    intro xx
    clear_value xx
    try lift_lets
    intro xx
    clear_value xx
    refine .checked (by decide) (by decide) (fun _ _ => ?_) ?_
    try lift_lets
    intro xx
    refine Block.Only.viaVar xx ?_ (fun _ => ?_) <;> [simp only [xx]; clear_value xx]
    refine .step (updNfc_frame ..) (by decide) ?_
    assumption
    refine .step (saveSettings_frame ..) (by decide) ?_
    refine .step (ok_frame ..) (by decide) ?_
    refine .ite _ ?_ ?_
    refine .step (updNfc_frame ..) (by decide) ?_
    assumption
    refine .step (updNfc_frame ..) (by decide) ?_
    refine .step (fieldOff_frame ..) (by decide) ?_
    assumption
    exact .refl _ _

theorem nfcPoll_frame (m : Fin 4) (b : Block) :
    Block.Only [.mbx, .nfc, .rpl] b (nfcPoll m b) := by
  unfold nfcPoll
  with_reducible
    try lift_lets
    intro xx
    clear_value xx
    refine .checked (by decide) (by decide) (fun _ _ => ?_) ?_
    try lift_lets
    intro xx
    clear_value xx
    try lift_lets
    intro xx
    refine Block.Only.viaVar xx ?_ (fun _ => ?_) <;> [simp only [xx]; clear_value xx]
    refine .step (updNfc_frame ..) (by decide) ?_
    assumption
    refine .ite _ ?_ ?_
    refine .step (pollAnswer_frame ..) (by decide) ?_
    assumption
    refine .ite _ ?_ ?_
    assumption
    refine .step (pollStart_frame ..) (by decide) ?_
    assumption
    exact .refl _ _

theorem nfcTransceive_frame (m : Fin 4) (a : CardAnswer) (b : Block) :
    Block.Only [.mbx, .rpl] b (nfcTransceive m a b) := by
  unfold nfcTransceive
  with_reducible
    try lift_lets
    intro xx
    clear_value xx
    try lift_lets
    intro xx
    clear_value xx
    try lift_lets
    intro xx
    clear_value xx
    refine .checked (by decide) (by decide) (fun _ _ => ?_) ?_
    split
    try lift_lets
    intro xx
    clear_value xx
    refine .step (ok_frame ..) (by decide) ?_
    refine .step (traceItem_frame ..) (by decide) ?_
    assumption
    refine .step (refuse_frame ..) (by decide) ?_
    assumption
    refine .step (refuse_frame ..) (by decide) ?_
    assumption
    exact .refl _ _

theorem nfcRelease_frame (m : Fin 4) (b : Block) :
    Block.Only [.mbx, .nfc, .rpl] b (nfcRelease m b) := by
  unfold nfcRelease
  with_reducible
    refine .checked (by decide) (by decide) (fun _ _ => ?_) ?_
    refine .step (ok_frame ..) (by decide) ?_
    refine .step (fieldOff_frame ..) (by decide) ?_
    assumption
    exact .refl _ _

theorem nfcClearCounts_frame (m : Fin 4) (b : Block) :
    Block.Only [.mbx, .nfc, .rpl] b (nfcClearCounts m b) := by
  unfold nfcClearCounts
  with_reducible
    refine .step (ok_frame ..) (by decide) ?_
    refine .forAll (fun _ _ _ => ?_) _ ?_
    refine .step (updNfc_frame ..) (by decide) ?_
    assumption
    exact .refl _ _

end Sys2Proof.Machine
end

