-- ==== Sys2Proof/Laws/FrameFabric.lean ====
section
/-! SUPPORT. Frames of the operations of Machine/Fabric.lean: the units each of them may change. -/

namespace Sys2Proof.Machine

theorem updRst_frame (f : ResetUnit → ResetUnit) (b : Block) :
    Block.Only [.rst] b (updRst f b) := by
  unfold updRst
  with_reducible
    refine .set_rst ?_ _ (by decide)
    exact .refl _ _

theorem updD2d_frame (f : D2d → D2d) (b : Block) :
    Block.Only [.d2d] b (updD2d f b) := by
  unfold updD2d
  with_reducible
    refine .set_d2d ?_ _ (by decide)
    exact .refl _ _

theorem loseSedge_frame (b : Block) :
    Block.Only [.rst] b (loseSedge b) := by
  unfold loseSedge
  with_reducible
    refine .ite _ ?_ ?_
    refine .step (updRst_frame ..) (by decide) ?_
    exact .refl _ _
    exact .refl _ _

theorem loseCarr_frame (b : Block) :
    Block.Only (Part.but [.tide, .snaps, .barrier, .fab, .d2d, .cross, .met, .acc, .pq, .slu, .sluCnt, .vehCfg, .v2g, .v2gCfg, .rcm, .rcmTest, .pf, .auth, .backup, .hp, .pnl, .frames, .nfc, .upd, .dbg, .settings, .newSettings, .legalSet, .updRec, .kept, .prior]) b (loseCarr b) := by
  unfold loseCarr
  with_reducible
    refine .ite _ ?_ ?_
    refine .step (deviceFault_frame ..) (by decide) ?_
    refine .step (requesterMask_frame ..) (by decide) ?_
    refine .step (updRst_frame ..) (by decide) ?_
    exact .refl _ _
    exact .refl _ _

theorem loseModem_frame (n : Fin 16) (b : Block) :
    Block.Only [.arb, .bri, .btn, .cwy, .cwyX, .dmp, .hic, .imd, .imdG, .key, .lau, .legal, .lsw, .mlk, .pea, .plc, .plcCfg, .qmg, .saf, .safX, .sess, .slt, .v2g, .veh] b (loseModem n b) := by
  unfold loseModem
  with_reducible
    refine .step (modemFault_frame ..) (by decide) ?_
    exact .refl _ _

theorem loseTide_frame (b : Block) :
    Block.Only (Part.but [.snaps, .barrier, .fab, .d2d, .cross, .met, .acc, .pq, .slu, .sluCnt, .vehCfg, .v2g, .v2gCfg, .rcm, .rcmTest, .auth, .backup, .mbx, .hp, .pnl, .frames, .nfc, .rst, .upd, .rpl, .dbg, .settings, .newSettings, .legalSet, .updRec, .kept, .prior]) b (loseTide b) := by
  unfold loseTide
  with_reducible
    try lift_lets
    intro xx
    refine Block.Only.viaVar xx ?_ (fun _ => ?_) <;> [simp only [xx]; clear_value xx]
    refine .step (updTide_frame ..) (by decide) ?_
    exact .refl _ _
    refine .ite _ ?_ ?_
    exact .refl _ _
    refine .step (powerFailCommit_frame ..) (by decide) ?_
    refine .step (contain_frame ..) (by decide) ?_
    assumption

theorem tideLoss_frame (c : TideLossCause) (b : Block) :
    Block.Only (Part.but [.snaps, .barrier, .fab, .cross, .met, .acc, .pq, .slu, .sluCnt, .vehCfg, .v2g, .v2gCfg, .rcm, .rcmTest, .auth, .backup, .mbx, .hp, .pnl, .frames, .nfc, .rst, .upd, .rpl, .dbg, .settings, .newSettings, .legalSet, .updRec, .kept, .prior]) b (tideLoss c b) := by
  unfold tideLoss
  with_reducible
    try lift_lets
    intro xx
    refine Block.Only.viaVar xx ?_ (fun _ => ?_) <;> [simp only [xx]; clear_value xx]
    refine .step (loseTide_frame ..) (by decide) ?_
    exact .refl _ _
    split
    refine .step (updTide_frame ..) (by decide) ?_
    assumption
    refine .step (updTide_frame ..) (by decide) ?_
    assumption
    refine .step (updD2d_frame ..) (by decide) ?_
    assumption

theorem dykeTideCheck_frame (advance : U32) (b : Block) :
    Block.Only (Part.but [.snaps, .barrier, .fab, .cross, .met, .acc, .pq, .slu, .sluCnt, .vehCfg, .v2g, .v2gCfg, .rcm, .rcmTest, .auth, .backup, .mbx, .hp, .pnl, .frames, .nfc, .rst, .upd, .rpl, .dbg, .settings, .newSettings, .legalSet, .updRec, .kept, .prior]) b (dykeTideCheck advance b) := by
  unfold dykeTideCheck
  with_reducible
    try lift_lets
    intro xx
    clear_value xx
    try lift_lets
    intro xx
    refine Block.Only.viaVar xx ?_ (fun _ => ?_) <;> [simp only [xx]; clear_value xx]
    refine .step (updD2d_frame ..) (by decide) ?_
    exact .refl _ _
    refine .ite _ ?_ ?_
    exact .refl _ _
    refine .ite _ ?_ ?_
    refine .step (loseTide_frame ..) (by decide) ?_
    assumption
    assumption

theorem adieOpen_frame (b : Block) :
    Block.Only [.hic, .lsw, .saf, .safX] b (adieOpen b) := by
  unfold adieOpen
  with_reducible
    refine .step (limpEnter_frame ..) (by decide) ?_
    refine .forAll (fun _ _ _ => ?_) _ ?_
    refine .step (lsOff_frame ..) (by decide) ?_
    assumption
    refine .step (updSaf_frame ..) (by decide) ?_
    exact .refl _ _

theorem adiePermitTimeout_frame (b : Block) :
    Block.Only [.d2d, .hic, .lsw, .saf, .safX] b (adiePermitTimeout b) := by
  unfold adiePermitTimeout
  with_reducible
    refine .step (adieOpen_frame ..) (by decide) ?_
    refine .step (updD2d_frame ..) (by decide) ?_
    exact .refl _ _

theorem updSlack_frame (e : Fin 15) (f : Slack → Slack) (b : Block) :
    Block.Only [.fab] b (updSlack e f b) := by
  unfold updSlack
  with_reducible
    refine .set_fab ?_ _ (by decide)
    exact .refl _ _

theorem slackWarning_frame (e : Fin 15) (b : Block) :
    Block.Only [.fab, .hic] b (slackWarning e b) := by
  unfold slackWarning
  with_reducible
    try lift_lets
    intro xx
    clear_value xx
    try lift_lets
    intro xx
    clear_value xx
    try lift_lets
    intro xx
    refine Block.Only.viaVar xx ?_ (fun _ => ?_) <;> [simp only [xx]; clear_value xx]
    refine .step (updSlack_frame ..) (by decide) ?_
    exact .refl _ _
    refine .ite _ ?_ ?_
    refine .step (irq_frame ..) (by decide) ?_
    refine .step (updSlack_frame ..) (by decide) ?_
    assumption
    assumption

theorem slackMeasure_frame (e : Fin 15) (c : Nat) (b : Block) :
    Block.Only [.fab, .hic] b (slackMeasure e c b) := by
  unfold slackMeasure
  with_reducible
    try lift_lets
    intro xx
    clear_value xx
    try lift_lets
    intro xx
    clear_value xx
    try lift_lets
    intro xx
    refine Block.Only.viaVar xx ?_ (fun _ => ?_) <;> [simp only [xx]; clear_value xx]
    refine .step (updSlack_frame ..) (by decide) ?_
    exact .refl _ _
    refine .ite _ ?_ ?_
    refine .step (slackWarning_frame ..) (by decide) ?_
    assumption
    assumption

theorem flagAdvanced_frame (b x : Block) :
    Block.Only [.acc, .legal] b (flagAdvanced b x) := by
  unfold flagAdvanced
  exact .set_acc_legal (.refl _ _) _ _ (by decide) (by decide)

theorem overrunMetrology_frame (b : Block) :
    Block.Only (Part.but [.snaps, .barrier, .fab, .d2d, .cross, .slu, .sluCnt, .vehCfg, .v2g, .v2gCfg, .rcmTest, .pf, .auth, .backup, .hp, .pnl, .frames, .nfc, .rst, .upd, .dbg, .settings, .newSettings, .legalSet, .updRec, .kept, .prior]) b (overrunMetrology b) := by
  unfold overrunMetrology
  with_reducible
    try lift_lets
    intro xx
    clear_value xx
    try lift_lets
    intro xx
    refine Block.Only.viaVar xx ?_ (fun _ => ?_) <;> [simp only [xx]; clear_value xx]
    split
    exact .refl _ _
    refine .step (closeAt_frame ..) (by decide) ?_
    refine .step (noteUnproven_frame ..) (by decide) ?_
    refine .step (flagAdvanced_frame ..) (by decide) ?_
    refine .set_met ?_ _ (by decide)
    exact .refl _ _
    refine .step (deviceFault_frame ..) (by decide) ?_
    assumption

theorem overrunSaltern_frame (b : Block) :
    Block.Only [.acc, .arb, .bri, .btn, .cwy, .cwyX, .dmp, .hic, .imd, .imdG, .key, .lau, .legal, .lsw, .mlk, .pea, .plc, .plcCfg, .qmg, .saf, .safX, .sess, .slt, .veh] b (overrunSaltern b) := by
  unfold overrunSaltern
  with_reducible
    try lift_lets
    intro xx
    clear_value xx
    try lift_lets
    intro xx
    refine Block.Only.viaVar xx ?_ (fun _ => ?_) <;> [simp only [xx]; clear_value xx]
    split
    exact .refl _ _
    refine .step (closeAt_frame ..) (by decide) ?_
    refine .step (noteUnproven_frame ..) (by decide) ?_
    refine .step (flagAdvanced_frame ..) (by decide) ?_
    refine .set_acc ?_ _ (by decide)
    exact .refl _ _
    refine .step (deviceFault_frame ..) (by decide) ?_
    assumption

theorem overrunBrine_frame (b : Block) :
    Block.Only [.acc, .arb, .bri, .btn, .cwy, .cwyX, .dmp, .hic, .imd, .imdG, .key, .lau, .legal, .lsw, .mlk, .pea, .plc, .plcCfg, .qmg, .saf, .safX, .sess, .slt, .veh] b (overrunBrine b) := by
  unfold overrunBrine
  with_reducible
    try lift_lets
    intro xx
    clear_value xx
    try lift_lets
    intro xx
    clear_value xx
    try lift_lets
    intro xx
    refine Block.Only.viaVar xx ?_ (fun _ => ?_) <;> [simp only [xx]; clear_value xx]
    refine .set_acc ?_ _ (by decide)
    exact .refl _ _
    split
    exact .refl _ _
    refine .forAll (fun _ _ _ => ?_) _ ?_
    refine .step (deviceFault_frame ..) (by decide) ?_
    refine .step (updLedger_frame ..) (by decide) ?_
    assumption
    assumption

theorem overrunSignature_frame (e : Nat) (u : Fin 4) (b : Block) :
    Block.Only (Part.but [.tide, .snaps, .barrier, .fab, .d2d, .cross, .met, .acc, .pq, .slu, .sluCnt, .vehCfg, .v2gCfg, .rcm, .rcmTest, .pf, .auth, .backup, .mbx, .hp, .pnl, .frames, .nfc, .rst, .upd, .dbg, .settings, .newSettings, .legalSet, .updRec, .kept, .prior]) b (overrunSignature e u b) := by
  unfold overrunSignature
  with_reducible
    split
    refine .step (deviceFault_frame ..) (by decide) ?_
    exact .refl _ _
    split
    refine .step (deviceFault_frame ..) (by decide) ?_
    exact .refl _ _
    try lift_lets
    intro xx
    clear_value xx
    try lift_lets
    intro xx
    refine Block.Only.viaVar xx ?_ (fun _ => ?_) <;> [simp only [xx]; clear_value xx]
    refine .step (unitEnds_frame ..) (by decide) ?_
    exact .refl _ _
    split
    refine .dite _ (fun _ => ?_) (fun _ => ?_)
    refine .step (deviceFault_frame ..) (by decide) ?_
    assumption
    refine .step (deviceFault_frame ..) (by decide) ?_
    assumption
    refine .step (deviceFault_frame ..) (by decide) ?_
    assumption

theorem overrunActs_frame (e : Fin 15) (who : U16) (b : Block) :
    Block.Only (Part.but [.snaps, .barrier, .fab, .d2d, .cross, .sluCnt, .vehCfg, .v2gCfg, .rcmTest, .pf, .auth, .backup, .hp, .pnl, .frames, .nfc, .upd, .dbg, .settings, .newSettings, .legalSet, .updRec, .kept, .prior]) b (overrunActs e who b) := by
  unfold overrunActs
  with_reducible
    try lift_lets
    intro xx
    clear_value xx
    split
    refine .step (overrunMetrology_frame ..) (by decide) ?_
    exact .refl _ _
    refine .step (deviceFault_frame ..) (by decide) ?_
    refine .set_slu ?_ _ (by decide)
    exact .refl _ _
    refine .step (overrunSaltern_frame ..) (by decide) ?_
    exact .refl _ _
    refine .step (overrunBrine_frame ..) (by decide) ?_
    exact .refl _ _
    refine .step (deviceFault_frame ..) (by decide) ?_
    refine .step (qTell_frame ..) (by decide) ?_
    exact .refl _ _
    refine .step (overrunSignature_frame ..) (by decide) ?_
    exact .refl _ _
    refine .step (overrunSignature_frame ..) (by decide) ?_
    exact .refl _ _
    refine .step (overrunSignature_frame ..) (by decide) ?_
    exact .refl _ _
    refine .step (loseCarr_frame ..) (by decide) ?_
    exact .refl _ _
    refine .step (disagree_frame ..) (by decide) ?_
    exact .refl _ _
    refine .forAll (fun _ _ _ => ?_) _ ?_
    refine .step (loseModem_frame ..) (by decide) ?_
    assumption
    exact .refl _ _
    refine .step (loseSedge_frame ..) (by decide) ?_
    exact .refl _ _

theorem engineOverrun_frame (e : Fin 15) (who : U16) (b : Block) :
    Block.Only (Part.but [.snaps, .barrier, .d2d, .cross, .sluCnt, .vehCfg, .v2gCfg, .rcmTest, .pf, .auth, .backup, .hp, .pnl, .frames, .nfc, .upd, .dbg, .settings, .newSettings, .legalSet, .updRec, .kept, .prior]) b (engineOverrun e who b) := by
  unfold engineOverrun
  with_reducible
    refine .step (overrunActs_frame ..) (by decide) ?_
    refine .step (irqLog_frame ..) (by decide) ?_
    refine .step (updSlack_frame ..) (by decide) ?_
    exact .refl _ _

theorem engineComplete_frame (e : Fin 15) (c : Nat) (b : Block) :
    Block.Only (Part.but [.snaps, .barrier, .d2d, .cross, .sluCnt, .vehCfg, .v2gCfg, .rcmTest, .pf, .auth, .backup, .hp, .pnl, .frames, .nfc, .upd, .dbg, .settings, .newSettings, .legalSet, .updRec, .kept, .prior]) b (engineComplete e c b) := by
  unfold engineComplete
  with_reducible
    refine .ite _ ?_ ?_
    refine .step (engineOverrun_frame ..) (by decide) ?_
    exact .refl _ _
    refine .step (slackMeasure_frame ..) (by decide) ?_
    exact .refl _ _

theorem updBarrier_frame (f : Barrier → Barrier) (b : Block) :
    Block.Only [.barrier] b (updBarrier f b) := by
  unfold updBarrier
  with_reducible
    refine .set_barrier ?_ _ (by decide)
    exact .refl _ _

theorem barrierOpen_frame (b : Block) :
    Block.Only [.barrier] b (barrierOpen b) := by
  unfold barrierOpen
  with_reducible
    refine .ite _ ?_ ?_
    exact .refl _ _
    refine .step (updBarrier_frame ..) (by decide) ?_
    exact .refl _ _

theorem barrierArrive_frame (p : Fin 7) (b : Block) :
    Block.Only [.barrier, .fab, .hic] b (barrierArrive p b) := by
  unfold barrierArrive
  with_reducible
    try lift_lets
    intro xx
    clear_value xx
    refine .ite _ ?_ ?_
    exact .refl _ _
    refine .step (slackMeasure_frame ..) (by decide) ?_
    refine .step (updBarrier_frame ..) (by decide) ?_
    exact .refl _ _

theorem barrierEnd_frame (modems : U16) (b : Block) :
    Block.Only (Part.but [.snaps, .d2d, .cross, .sluCnt, .vehCfg, .v2gCfg, .rcmTest, .pf, .auth, .backup, .hp, .pnl, .frames, .nfc, .upd, .dbg, .settings, .newSettings, .legalSet, .updRec, .kept, .prior]) b (barrierEnd modems b) := by
  unfold barrierEnd
  with_reducible
    try lift_lets
    intro xx
    clear_value xx
    try lift_lets
    intro xx
    refine Block.Only.viaVar xx ?_ (fun _ => ?_) <;> [simp only [xx]; clear_value xx]
    refine .onlyIf _ (fun _ _ => ?_) ?_
    refine .step (irq_frame ..) (by decide) ?_
    assumption
    refine .step (updBarrier_frame ..) (by decide) ?_
    exact .refl _ _
    refine .forAll (fun _ _ _ => ?_) _ ?_
    refine .step (engineOverrun_frame ..) (by decide) ?_
    assumption
    assumption

theorem barrierRelease_frame (modems : U16) (b : Block) :
    Block.Only (Part.but [.snaps, .d2d, .cross, .sluCnt, .vehCfg, .v2gCfg, .rcmTest, .pf, .auth, .backup, .hp, .pnl, .frames, .nfc, .upd, .dbg, .settings, .newSettings, .legalSet, .updRec, .kept]) b (barrierRelease modems b) := by
  unfold barrierRelease
  with_reducible
    refine .ite _ ?_ ?_
    refine .afterTicks (by decide) (by decide) (fun _ _ => ?_) ?_
    refine .step (barrierEnd_frame ..) (by decide) ?_
    assumption
    exact .refl _ _
    exact .refl _ _

theorem linkFault_frame (b : Block) :
    Block.Only (Part.but [.snaps, .barrier, .fab, .cross, .met, .acc, .pq, .slu, .sluCnt, .vehCfg, .v2g, .v2gCfg, .rcm, .rcmTest, .auth, .backup, .mbx, .hp, .pnl, .frames, .nfc, .rst, .upd, .rpl, .dbg, .settings, .newSettings, .legalSet, .updRec, .kept, .prior]) b (linkFault b) := by
  unfold linkFault
  with_reducible
    refine .ite _ ?_ ?_
    exact .refl _ _
    refine .step (tideLoss_frame ..) (by decide) ?_
    refine .step (irq_frame ..) (by decide) ?_
    refine .step (updD2d_frame ..) (by decide) ?_
    exact .refl _ _

theorem linkCrcFailure_frame (b : Block) :
    Block.Only [.d2d, .hic] b (linkCrcFailure b) := by
  unfold linkCrcFailure
  with_reducible
    try lift_lets
    intro xx
    clear_value xx
    try lift_lets
    intro xx
    clear_value xx
    try lift_lets
    intro xx
    clear_value xx
    try lift_lets
    intro xx
    clear_value xx
    try lift_lets
    intro xx
    refine Block.Only.viaVar xx ?_ (fun _ => ?_) <;> [simp only [xx]; clear_value xx]
    refine .step (updD2d_frame ..) (by decide) ?_
    exact .refl _ _
    refine .ite _ ?_ ?_
    refine .step (irq_frame ..) (by decide) ?_
    assumption
    assumption

theorem streamSettle_frame (b : Block) :
    Block.Only [.d2d] b (streamSettle b) := by
  unfold streamSettle
  with_reducible
    try lift_lets
    intro (xx : _ → _)
    refine .step (updD2d_frame ..) (by decide) ?_
    exact .refl _ _

theorem a2lValid_frame (f : U64) (x : D2dFrame) (b : Block) :
    Block.Only [.d2d, .rpl] b (a2lValid f x b) := by
  unfold a2lValid
  with_reducible
    try lift_lets
    intro xx
    clear_value xx
    try lift_lets
    intro xx
    refine Block.Only.viaVar xx ?_ (fun _ => ?_) <;> [simp only [xx]; clear_value xx]
    refine .ite _ ?_ ?_
    exact .refl _ _
    refine .step (traceItem_frame ..) (by decide) ?_
    exact .refl _ _
    refine .step (streamSettle_frame ..) (by decide) ?_
    refine .step (updD2d_frame ..) (by decide) ?_
    assumption

theorem a2lFailed_frame (f : U64) (tries : Nat) (stream : Bool) (b : Block) :
    Block.Only (Part.but [.snaps, .barrier, .fab, .cross, .met, .acc, .pq, .slu, .sluCnt, .vehCfg, .v2g, .v2gCfg, .rcm, .rcmTest, .auth, .backup, .mbx, .hp, .pnl, .frames, .nfc, .rst, .upd, .rpl, .dbg, .settings, .newSettings, .legalSet, .updRec, .kept, .prior]) b (a2lFailed f tries stream b) := by
  unfold a2lFailed
  with_reducible
    try lift_lets
    intro xx
    refine Block.Only.viaVar xx ?_ (fun _ => ?_) <;> [simp only [xx]; clear_value xx]
    refine .step (linkCrcFailure_frame ..) (by decide) ?_
    refine .step (updD2d_frame ..) (by decide) ?_
    exact .refl _ _
    refine .ite _ ?_ ?_
    refine .step (linkFault_frame ..) (by decide) ?_
    refine .ite _ ?_ ?_
    refine .step (updD2d_frame ..) (by decide) ?_
    assumption
    assumption
    refine .ite _ ?_ ?_
    refine .step (updD2d_frame ..) (by decide) ?_
    assumption
    assumption

theorem frameA2l_frame (f : U64) (x : D2dFrame) (b : Block) :
    Block.Only (Part.but [.snaps, .barrier, .fab, .cross, .met, .acc, .pq, .slu, .sluCnt, .vehCfg, .v2g, .v2gCfg, .rcm, .rcmTest, .auth, .backup, .mbx, .hp, .pnl, .frames, .nfc, .rst, .upd, .dbg, .settings, .newSettings, .legalSet, .updRec, .kept, .prior]) b (frameA2l f x b) := by
  unfold frameA2l
  with_reducible
    try lift_lets
    intro xx
    refine Block.Only.viaVar xx ?_ (fun _ => ?_) <;> [simp only [xx]; clear_value xx]
    refine .step (updD2d_frame ..) (by decide) ?_
    exact .refl _ _
    refine .ite _ ?_ ?_
    refine .step (a2lValid_frame ..) (by decide) ?_
    assumption
    refine .step (a2lFailed_frame ..) (by decide) ?_
    assumption

theorem frameAgain_frame (x : D2dFrame) (b : Block) :
    Block.Only (Part.but [.snaps, .barrier, .fab, .cross, .met, .acc, .pq, .slu, .sluCnt, .vehCfg, .v2g, .v2gCfg, .rcm, .rcmTest, .auth, .backup, .mbx, .hp, .pnl, .frames, .nfc, .rst, .upd, .dbg, .settings, .newSettings, .legalSet, .updRec, .kept]) b (frameAgain x b) := by
  unfold frameAgain
  with_reducible
    split
    exact .refl _ _
    refine .afterTicks (by decide) (by decide) (fun _ _ => ?_) ?_
    try lift_lets
    intro xx
    refine Block.Only.viaVar xx ?_ (fun _ => ?_) <;> [simp only [xx]; clear_value xx]
    refine .step (updD2d_frame ..) (by decide) ?_
    assumption
    refine .ite _ ?_ ?_
    refine .step (a2lValid_frame ..) (by decide) ?_
    assumption
    refine .step (a2lFailed_frame ..) (by decide) ?_
    assumption
    exact .refl _ _

theorem frameL2a_frame (f : U64) (x : D2dFrame) (b : Block) :
    Block.Only (Part.but [.snaps, .barrier, .fab, .cross, .met, .acc, .pq, .slu, .sluCnt, .vehCfg, .v2g, .v2gCfg, .rcm, .rcmTest, .auth, .backup, .mbx, .hp, .pnl, .frames, .nfc, .rst, .upd, .rpl, .dbg, .settings, .newSettings, .legalSet, .updRec, .kept, .prior]) b (frameL2a f x b) := by
  unfold frameL2a
  with_reducible
    try lift_lets
    intro xx
    refine Block.Only.viaVar xx ?_ (fun _ => ?_) <;> [simp only [xx]; clear_value xx]
    refine .step (updD2d_frame ..) (by decide) ?_
    exact .refl _ _
    refine .ite _ ?_ ?_
    refine .ite _ ?_ ?_
    refine .step (updD2d_frame ..) (by decide) ?_
    assumption
    refine .ite _ ?_ ?_
    refine .step (linkFault_frame ..) (by decide) ?_
    refine .ite _ ?_ ?_
    refine .step (adiePermitTimeout_frame ..) (by decide) ?_
    refine .step (linkCrcFailure_frame ..) (by decide) ?_
    refine .step (updD2d_frame ..) (by decide) ?_
    assumption
    refine .step (linkCrcFailure_frame ..) (by decide) ?_
    refine .step (updD2d_frame ..) (by decide) ?_
    assumption
    refine .ite _ ?_ ?_
    refine .step (adiePermitTimeout_frame ..) (by decide) ?_
    refine .step (linkCrcFailure_frame ..) (by decide) ?_
    refine .step (updD2d_frame ..) (by decide) ?_
    assumption
    refine .step (linkCrcFailure_frame ..) (by decide) ?_
    refine .step (updD2d_frame ..) (by decide) ?_
    assumption
    refine .step (linkFault_frame ..) (by decide) ?_
    refine .ite _ ?_ ?_
    refine .step (updD2d_frame ..) (by decide) ?_
    assumption
    refine .ite _ ?_ ?_
    refine .step (linkFault_frame ..) (by decide) ?_
    refine .ite _ ?_ ?_
    refine .step (adiePermitTimeout_frame ..) (by decide) ?_
    refine .step (linkCrcFailure_frame ..) (by decide) ?_
    refine .step (updD2d_frame ..) (by decide) ?_
    assumption
    refine .step (linkCrcFailure_frame ..) (by decide) ?_
    refine .step (updD2d_frame ..) (by decide) ?_
    assumption
    refine .ite _ ?_ ?_
    refine .step (adiePermitTimeout_frame ..) (by decide) ?_
    refine .step (linkCrcFailure_frame ..) (by decide) ?_
    refine .step (updD2d_frame ..) (by decide) ?_
    assumption
    refine .step (linkCrcFailure_frame ..) (by decide) ?_
    refine .step (updD2d_frame ..) (by decide) ?_
    assumption

theorem d2dFrame_frame (x : D2dFrame) (b : Block) :
    Block.Only (Part.but [.snaps, .barrier, .fab, .cross, .met, .acc, .pq, .slu, .sluCnt, .vehCfg, .v2g, .v2gCfg, .rcm, .rcmTest, .auth, .backup, .mbx, .hp, .pnl, .frames, .nfc, .rst, .upd, .dbg, .settings, .newSettings, .legalSet, .updRec, .kept]) b (d2dFrame x b) := by
  unfold d2dFrame
  with_reducible
    try lift_lets
    intro xx
    clear_value xx
    refine .ite _ ?_ ?_
    exact .refl _ _
    refine .ite _ ?_ ?_
    refine .step (frameAgain_frame ..) (by decide) ?_
    exact .refl _ _
    refine .atInstant (by decide) (by decide) (fun _ _ => ?_) ?_
    split
    refine .step (frameA2l_frame ..) (by decide) ?_
    assumption
    refine .step (frameL2a_frame ..) (by decide) ?_
    assumption
    exact .refl _ _

theorem sysFabricSlack_frame (m : Fin 4) (b : Block) :
    Block.Only [.mbx, .rpl] b (sysFabricSlack m b) := by
  unfold sysFabricSlack
  with_reducible
    try lift_lets
    intro xx
    clear_value xx
    try lift_lets
    intro xx
    clear_value xx
    refine .checked (by decide) (by decide) (fun _ _ => ?_) ?_
    refine .step (ok_frame ..) (by decide) ?_
    assumption
    exact .refl _ _

theorem sysFabricClear_frame (m : Fin 4) (b : Block) :
    Block.Only [.fab, .mbx, .rpl] b (sysFabricClear m b) := by
  unfold sysFabricClear
  with_reducible
    try lift_lets
    intro xx
    clear_value xx
    refine .checked (by decide) (by decide) (fun _ _ => ?_) ?_
    refine .step (ok_frame ..) (by decide) ?_
    refine .set_fab ?_ _ (by decide)
    assumption
    exact .refl _ _

theorem sysD2dStatus_frame (m : Fin 4) (b : Block) :
    Block.Only [.d2d, .mbx, .rpl] b (sysD2dStatus m b) := by
  unfold sysD2dStatus
  with_reducible
    try lift_lets
    intro xx
    clear_value xx
    refine .step (ok_frame ..) (by decide) ?_
    refine .step (updD2d_frame ..) (by decide) ?_
    exact .refl _ _

end Sys2Proof.Machine
end

