-- ==== Sys2Proof/Laws/FrameReset.lean ====
section
/-! SUPPORT. Frames of the operations of Machine/Reset.lean: the units each of them may change. -/

namespace Sys2Proof.Machine

theorem resetBlock_frame (device memory : Bool) (b : Block) :
    Block.Only (Part.but []) b (resetBlock device memory b) := by
  intro p hp
  exact absurd (by cases p <;> decide) hp

theorem limpStart_frame (b : Block) :
    Block.Only [.hic, .lsw, .saf, .safX] b (limpStart b) := by
  unfold limpStart
  with_reducible
    try lift_lets
    intro xx
    clear_value xx
    refine .ite _ ?_ ?_
    exact .refl _ _
    refine .step (limpEnter_frame ..) (by decide) ?_
    refine .set_lsw ?_ _ (by decide)
    exact .refl _ _

theorem noteCauseOf_frame (src : BitVec 3) (scope : Scope) (core : Nat) (b : Block) :
    Block.Only [.rst] b (noteCauseOf src scope core b) := by
  unfold noteCauseOf
  with_reducible
    refine .step (updRst_frame ..) (by decide) ?_
    exact .refl _ _

theorem assertReset_frame (device memory : Bool) (src : BitVec 3) (b : Block) :
    Block.Only (Part.but []) b (assertReset device memory src b) := by
  unfold assertReset
  with_reducible
    try lift_lets
    intro xx
    refine Block.Only.viaVar xx ?_ (fun _ => ?_) <;> [simp only [xx]; clear_value xx]
    refine .forAll (fun _ _ _ => ?_) _ ?_
    refine .step (pqTruncate_frame ..) (by decide) ?_
    assumption
    exact .refl _ _
    refine .step (limpStart_frame ..) (by decide) ?_
    refine .step (noteCauseOf_frame ..) (by decide) ?_
    refine .step (resetBlock_frame ..) (by decide) ?_
    split
    refine .step (tearLine_frame ..) (by decide) ?_
    assumption
    assumption

theorem strapMeasure_frame (mv : U16) (b : Block) :
    Block.Only [.hic, .rst] b (strapMeasure mv b) := by
  unfold strapMeasure
  with_reducible
    refine .ite _ ?_ ?_
    refine .step (irq_frame ..) (by decide) ?_
    refine .step (updRst_frame ..) (by decide) ?_
    exact .refl _ _
    refine .step (updRst_frame ..) (by decide) ?_
    exact .refl _ _

theorem bootPort_frame (b : Block) :
    Block.Only [.cwy, .cwyX, .hic, .qmg] b (bootPort b) := by
  unfold bootPort
  with_reducible
    try lift_lets
    intro xx
    clear_value xx
    try lift_lets
    intro xx
    clear_value xx
    try lift_lets
    intro xx
    clear_value xx
    try lift_lets
    intro xx
    clear_value xx
    try lift_lets
    intro xx
    clear_value xx
    try lift_lets
    intro xx
    refine Block.Only.viaVar xx ?_ (fun _ => ?_) <;> [simp only [xx]; clear_value xx]
    refine .set_cwy_qmg ?_ _ _ (by decide) (by decide)
    exact .refl _ _
    refine .step (linkReset_frame ..) (by decide) ?_
    assumption

theorem traceStart_frame (b : Block) :
    Block.Only [.cwy, .cwyX, .hic, .qmg, .rpl] b (traceStart b) := by
  unfold traceStart
  with_reducible
    try lift_lets
    intro xx
    clear_value xx
    refine .ite _ ?_ ?_
    refine .step (irq_frame ..) (by decide) ?_
    refine .step (bootPort_frame ..) (by decide) ?_
    refine .set_rpl ?_ _ (by decide)
    exact .refl _ _
    refine .ite _ ?_ ?_
    refine .step (irq_frame ..) (by decide) ?_
    refine .set_rpl ?_ _ (by decide)
    exact .refl _ _
    exact .refl _ _

theorem debugRelease_frame (b : Block) :
    Block.Only [.dbg] b (debugRelease b) := by
  unfold debugRelease
  with_reducible
    try lift_lets
    intro xx
    clear_value xx
    refine .set_dbg ?_ _ (by decide)
    exact .refl _ _

theorem releaseDevice_frame (mv : U16) (b : Block) :
    Block.Only [.cross, .cwy, .cwyX, .d2d, .dbg, .hic, .qmg, .rpl, .rst, .tide] b (releaseDevice mv b) := by
  unfold releaseDevice
  with_reducible
    try lift_lets
    intro xx
    refine Block.Only.viaVar xx ?_ (fun _ => ?_) <;> [simp only [xx]; clear_value xx]
    refine .step (updTide_frame ..) (by decide) ?_
    exact .refl _ _
    refine .ite _ ?_ ?_
    exact .refl _ _
    refine .step (traceStart_frame ..) (by decide) ?_
    refine .step (debugRelease_frame ..) (by decide) ?_
    refine .step (crossReceivers_frame ..) (by decide) ?_
    refine .step (strapMeasure_frame ..) (by decide) ?_
    refine .step (updD2d_frame ..) (by decide) ?_
    refine .step (updRst_frame ..) (by decide) ?_
    assumption

theorem releaseHub_frame (start command : U64) (b : Block) :
    Block.Only [.cross, .dbg, .mbx, .rpl, .rst] b (releaseHub start command b) := by
  unfold releaseHub
  with_reducible
    refine .step (debugRelease_frame ..) (by decide) ?_
    refine .step (crossReceivers_frame ..) (by decide) ?_
    refine .step (updRst_frame ..) (by decide) ?_
    exact .refl _ _

theorem powerOn_frame (pinHigh : Bool) (mv : U16) (b : Block) :
    Block.Only (Part.but []) b (powerOn pinHigh mv b) := by
  unfold powerOn
  with_reducible
    refine .step (releaseDevice_frame ..) (by decide) ?_
    refine .step (assertReset_frame ..) (by decide) ?_
    refine .step (updRst_frame ..) (by decide) ?_
    exact .refl _ _

theorem brownOut_frame (b : Block) :
    Block.Only (Part.but []) b (brownOut b) := by
  unfold brownOut
  with_reducible
    refine .step (assertReset_frame ..) (by decide) ?_
    refine .step (updRst_frame ..) (by decide) ?_
    exact .refl _ _

theorem resetPin_frame (b : Block) :
    Block.Only (Part.but []) b (resetPin b) := by
  unfold resetPin
  with_reducible
    refine .step (assertReset_frame ..) (by decide) ?_
    refine .step (updRst_frame ..) (by decide) ?_
    exact .refl _ _

theorem resetNRelease_frame (mv : U16) (b : Block) :
    Block.Only [.cross, .cwy, .cwyX, .d2d, .dbg, .hic, .qmg, .rpl, .rst, .tide] b (resetNRelease mv b) := by
  unfold resetNRelease
  with_reducible
    refine .step (releaseDevice_frame ..) (by decide) ?_
    refine .step (updRst_frame ..) (by decide) ?_
    exact .refl _ _

theorem clockFail_frame (mv : U16) (b : Block) :
    Block.Only (Part.but []) b (clockFail mv b) := by
  unfold clockFail
  with_reducible
    refine .ite _ ?_ ?_
    refine .step (releaseDevice_frame ..) (by decide) ?_
    refine .step (assertReset_frame ..) (by decide) ?_
    exact .refl _ _
    exact .refl _ _

theorem freeAgent_frame (a : Fin 16) (b : Block) :
    Block.Only [.arb, .btn, .cwy, .cwyX, .dmp, .hic, .qmg] b (freeAgent a b) := by
  unfold freeAgent
  with_reducible
    refine .forAll (fun _ _ _ => ?_) _ ?_
    refine .step (qFree_frame ..) (by decide) ?_
    assumption
    exact .refl _ _

theorem dropBusy_frame (m : Fin 4) (b : Block) :
    Block.Only [.hic, .mbx, .rpl] b (dropBusy m b) := by
  unfold dropBusy
  with_reducible
    refine .ite _ ?_ ?_
    refine .step (mbxComplete_frame ..) (by decide) ?_
    refine .step (refuse_frame ..) (by decide) ?_
    exact .refl _ _
    exact .refl _ _

theorem loseDyke_frame (b : Block) :
    Block.Only [.arb, .bri, .btn, .cwy, .cwyX, .dmp, .hic, .imd, .imdG, .key, .lau, .legal, .lsw, .mlk, .pea, .plc, .plcCfg, .qmg, .rst, .saf, .safX, .sess, .slt, .veh] b (loseDyke b) := by
  unfold loseDyke
  with_reducible
    refine .step (dykeAliveTimeout_frame ..) (by decide) ?_
    refine .step (updRst_frame ..) (by decide) ?_
    exact .refl _ _

theorem coreStop_frame (c : CoreId) (b : Block) :
    Block.Only (Part.but [.tide, .snaps, .barrier, .fab, .d2d, .cross, .met, .acc, .pq, .slu, .sluCnt, .vehCfg, .v2gCfg, .rcm, .rcmTest, .pf, .auth, .backup, .hp, .pnl, .frames, .nfc, .upd, .dbg, .settings, .newSettings, .legalSet, .updRec, .kept, .prior]) b (coreStop c b) := by
  unfold coreStop
  with_reducible
    split
    refine .forAll (fun _ _ _ => ?_) _ ?_
    refine .step (freeAgent_frame ..) (by decide) ?_
    assumption
    refine .forAll (fun _ _ _ => ?_) _ ?_
    refine .step (dropBusy_frame ..) (by decide) ?_
    assumption
    refine .step (requesterMask_frame ..) (by decide) ?_
    refine .step (loseSedge_frame ..) (by decide) ?_
    exact .refl _ _
    refine .step (freeAgent_frame ..) (by decide) ?_
    refine .step (loseCarr_frame ..) (by decide) ?_
    exact .refl _ _
    refine .step (freeAgent_frame ..) (by decide) ?_
    refine .step (loseDyke_frame ..) (by decide) ?_
    exact .refl _ _
    refine .step (loseModem_frame ..) (by decide) ?_
    exact .refl _ _

theorem coreRestart_frame (src : BitVec 3) (c : CoreId) (b : Block) :
    Block.Only (Part.but [.tide, .snaps, .barrier, .fab, .d2d, .cross, .met, .acc, .pq, .slu, .sluCnt, .vehCfg, .v2gCfg, .rcm, .rcmTest, .pf, .auth, .backup, .hp, .pnl, .frames, .nfc, .upd, .dbg, .settings, .newSettings, .legalSet, .updRec, .kept, .prior]) b (coreRestart src c b) := by
  unfold coreRestart
  with_reducible
    refine .step (coreStop_frame ..) (by decide) ?_
    refine .step (irq_frame ..) (by decide) ?_
    refine .step (noteCauseOf_frame ..) (by decide) ?_
    exact .refl _ _

theorem coreFails_frame (src : BitVec 3) (c : CoreId) (b : Block) :
    Block.Only (Part.but [.tide, .snaps, .barrier, .fab, .d2d, .cross, .met, .acc, .pq, .slu, .sluCnt, .vehCfg, .v2gCfg, .rcm, .rcmTest, .pf, .auth, .backup, .hp, .pnl, .frames, .nfc, .upd, .dbg, .settings, .newSettings, .legalSet, .updRec, .kept, .prior]) b (coreFails src c b) := by
  unfold coreFails
  with_reducible
    refine .ite _ ?_ ?_
    exact .refl _ _
    refine .step (coreRestart_frame ..) (by decide) ?_
    exact .refl _ _

theorem sedgeAbsence_frame (b : Block) :
    Block.Only (Part.but [.snaps, .barrier, .fab, .d2d, .cross, .met, .acc, .pq, .slu, .sluCnt, .vehCfg, .v2g, .v2gCfg, .rcm, .rcmTest, .pf, .auth, .backup, .mbx, .hp, .pnl, .frames, .nfc, .upd, .rpl, .dbg, .settings, .newSettings, .legalSet, .updRec, .kept]) b (sedgeAbsence b) := by
  unfold sedgeAbsence
  with_reducible
    split
    exact .refl _ _
    refine .afterTicks (by decide) (by decide) (fun _ _ => ?_) ?_
    try lift_lets
    intro xx
    refine Block.Only.viaVar xx ?_ (fun _ => ?_) <;> [simp only [xx]; clear_value xx]
    refine .step (updRst_frame ..) (by decide) ?_
    assumption
    refine .step (raiseFatal_frame ..) (by decide) ?_
    refine .step (contain_frame ..) (by decide) ?_
    assumption
    exact .refl _ _

theorem stopStart_frame (p : PendingReset) (b : Block) :
    Block.Only [.arb, .bri, .btn, .cwy, .cwyX, .dmp, .hic, .imd, .imdG, .key, .lau, .legal, .lsw, .pea, .plc, .plcCfg, .qmg, .rst, .saf, .safX, .sess, .slt, .veh] b (stopStart p b) := by
  unfold stopStart
  with_reducible
    try lift_lets
    intro xx
    refine Block.Only.viaVar xx ?_ (fun _ => ?_) <;> [simp only [xx]; clear_value xx]
    refine .step (updRst_frame ..) (by decide) ?_
    exact .refl _ _
    refine .step (shutdownDue_frame ..) (by decide) ?_
    refine .step (stopAll_frame ..) (by decide) ?_
    assumption

theorem stopSequenceStart_frame (b : Block) :
    Block.Only (Part.but [.snaps, .barrier, .fab, .d2d, .cross, .met, .acc, .pq, .slu, .sluCnt, .vehCfg, .v2gCfg, .rcm, .rcmTest, .pf, .auth, .backup, .hp, .pnl, .frames, .nfc, .upd, .dbg, .settings, .newSettings, .legalSet, .updRec, .kept]) b (stopSequenceStart b) := by
  unfold stopSequenceStart
  with_reducible
    split
    exact .refl _ _
    refine .ite _ ?_ ?_
    exact .refl _ _
    refine .atInstant (by decide) (by decide) (fun _ _ => ?_) ?_
    try lift_lets
    intro xx
    refine Block.Only.viaVar xx ?_ (fun _ => ?_) <;> [simp only [xx]; clear_value xx]
    refine .step (updRst_frame ..) (by decide) ?_
    assumption
    split
    split
    refine .step (coreRestart_frame ..) (by decide) ?_
    assumption
    assumption
    refine .step (stopStart_frame ..) (by decide) ?_
    assumption
    exact .refl _ _

theorem forcedOpen_frame (n : Fin 16) (b : Block) :
    Block.Only [.hic, .lsw, .saf, .safX] b (forcedOpen n b) := by
  unfold forcedOpen
  with_reducible
    refine .ite _ ?_ ?_
    refine .step (openNow_frame ..) (by decide) ?_
    refine .step (irq_frame ..) (by decide) ?_
    refine .step (updSafX_frame ..) (by decide) ?_
    exact .refl _ _
    exact .refl _ _

theorem enterReplay_frame (q : U16) (b : Block) :
    Block.Only [.pea, .rpl] b (enterReplay q b) := by
  unfold enterReplay
  with_reducible
    try lift_lets
    intro xx
    clear_value xx
    refine .set_pea_rpl ?_ _ _ (by decide) (by decide)
    exact .refl _ _

theorem stopSequenceEnd_frame (mv : U16) (b : Block) :
    Block.Only (Part.but []) b (stopSequenceEnd mv b) := by
  unfold stopSequenceEnd
  with_reducible
    split
    exact .refl _ _
    refine .ite _ ?_ ?_
    exact .refl _ _
    refine .afterTicks (by decide) (by decide) (fun _ _ => ?_) ?_
    try lift_lets
    intro xx
    refine Block.Only.viaVar xx ?_ (fun _ => ?_) <;> [simp only [xx]; clear_value xx]
    refine .forAll (fun _ _ _ => ?_) _ ?_
    refine .step (forcedOpen_frame ..) (by decide) ?_
    assumption
    assumption
    split
    refine .step (releaseHub_frame ..) (by decide) ?_
    refine .step (assertReset_frame ..) (by decide) ?_
    assumption
    refine .step (releaseDevice_frame ..) (by decide) ?_
    split
    refine .step (enterReplay_frame ..) (by decide) ?_
    refine .step (assertReset_frame ..) (by decide) ?_
    assumption
    refine .step (assertReset_frame ..) (by decide) ?_
    assumption
    exact .refl _ _

theorem rstWrite_frame (a : Nat) (v : U32) (b : Block) :
    Block.Only [.rst] b (rstWrite a v b) := by
  unfold rstWrite
  with_reducible
    refine .ite _ ?_ ?_
    refine .step (updRst_frame ..) (by decide) ?_
    exact .refl _ _
    exact .refl _ _

theorem sysReset_frame (m : Fin 4) (b : Block) :
    Block.Only [.mbx, .rpl, .rst] b (sysReset m b) := by
  unfold sysReset
  with_reducible
    try lift_lets
    intro xx
    clear_value xx
    try lift_lets
    intro xx
    clear_value xx
    try lift_lets
    intro xx
    clear_value xx
    refine .checked (by decide) (by decide) (fun _ _ => ?_) ?_
    try lift_lets
    intro xx
    clear_value xx
    try lift_lets
    intro xx
    clear_value xx
    refine .step (ok_frame ..) (by decide) ?_
    refine .step (updRst_frame ..) (by decide) ?_
    assumption
    exact .refl _ _

theorem sysGetReset_frame (m : Fin 4) (b : Block) :
    Block.Only [.mbx, .rpl] b (sysGetReset m b) := by
  unfold sysGetReset
  with_reducible
    refine .step (ok_frame ..) (by decide) ?_
    exact .refl _ _

end Sys2Proof.Machine
end

