-- ==== Sys2Proof/Laws/FrameTrace.lean ====
section
/-! SUPPORT. Frames of the operations of Machine/Trace.lean: the units each of them may change. -/

namespace Sys2Proof.Machine

theorem updRpl_frame (f : Replay → Replay) (b : Block) :
    Block.Only [.rpl] b (updRpl f b) := by
  unfold updRpl
  with_reducible
    refine .set_rpl ?_ _ (by decide)
    exact .refl _ _

theorem settleItems_frame (t : Nat) (b : Block) :
    Block.Only [.rpl] b (settleItems t b) := by
  unfold settleItems
  with_reducible
    try lift_lets
    intro xx
    clear_value xx
    refine .step (updRpl_frame ..) (by decide) ?_
    exact .refl _ _

theorem recordEnd_frame (cause : BitVec 3) (b : Block) :
    Block.Only [.hic, .rpl] b (recordEnd cause b) := by
  unfold recordEnd
  with_reducible
    try lift_lets
    intro xx
    refine Block.Only.viaVar xx ?_ (fun _ => ?_) <;> [simp only [xx]; clear_value xx]
    refine .step (settleItems_frame ..) (by decide) ?_
    exact .refl _ _
    refine .ite _ ?_ ?_
    refine .step (irq_frame ..) (by decide) ?_
    refine .step (updRpl_frame ..) (by decide) ?_
    refine .step (settleItems_frame ..) (by decide) ?_
    refine .step (traceItem_frame ..) (by decide) ?_
    assumption
    exact .refl _ _

theorem replayEnd_frame (cause : BitVec 3) (b : Block) :
    Block.Only [.hic, .rpl] b (replayEnd cause b) := by
  unfold replayEnd
  with_reducible
    refine .ite _ ?_ ?_
    refine .onlyIf _ (fun _ _ => ?_) ?_
    refine .step (irq_frame ..) (by decide) ?_
    assumption
    refine .step (irq_frame ..) (by decide) ?_
    refine .step (updRpl_frame ..) (by decide) ?_
    exact .refl _ _
    exact .refl _ _

theorem baseItem_frame (n : Nat) (b : Block) :
    Block.Only [.rpl] b (baseItem n b) := by
  unfold baseItem
  with_reducible
    try lift_lets
    intro xx
    clear_value xx
    refine .step (traceItem_frame ..) (by decide) ?_
    exact .refl _ _

theorem traceHead_frame (b : Block) :
    Block.Only [.rpl] b (traceHead b) := by
  unfold traceHead
  with_reducible
    refine .ite _ ?_ ?_
    refine .forAll (fun _ _ _ => ?_) _ ?_
    refine .step (baseItem_frame ..) (by decide) ?_
    assumption
    refine .step (traceItem_frame ..) (by decide) ?_
    exact .refl _ _
    exact .refl _ _

end Sys2Proof.Machine
end

