-- ==== Sys2Proof/Laws/FrameImages.lean ====
section
/-! SUPPORT. Frames of the operations of Machine/Images.lean: the units each of them may change. -/

namespace Sys2Proof.Machine

theorem updFetch_frame (f : Fetch → Fetch) (b : Block) :
    Block.Only [.upd] b (updFetch f b) := by
  unfold updFetch
  with_reducible
    refine .step (updUpd_frame ..) (by decide) ?_
    exact .refl _ _

theorem bootPost_frame (b : Block) :
    Block.Only [.hic, .mbx, .upd] b (bootPost b) := by
  unfold bootPost
  with_reducible
    try lift_lets
    intro xx
    clear_value xx
    split
    exact .refl _ _
    try lift_lets
    intro xx
    clear_value xx
    try lift_lets
    intro xx
    refine Block.Only.viaVar xx ?_ (fun _ => ?_) <;> [simp only [xx]; clear_value xx]
    refine .step (setMbx_frame ..) (by decide) ?_
    exact .refl _ _
    refine .ite _ ?_ ?_
    refine .step (irq_frame ..) (by decide) ?_
    refine .step (updFetch_frame ..) (by decide) ?_
    assumption
    exact .refl _ _

theorem requestBlocks_frame (b : Block) :
    Block.Only [.arb, .btn, .cwy, .cwyX, .dmp, .hic, .lau, .mbx, .qmg, .upd] b (requestBlocks b) := by
  unfold requestBlocks
  with_reducible
    split
    exact .refl _ _
    try lift_lets
    intro xx
    clear_value xx
    try lift_lets
    intro xx
    clear_value xx
    try lift_lets
    intro xx
    refine Block.Only.viaVar xx ?_ (fun _ => ?_) <;> [simp only [xx]; clear_value xx]
    refine .step (updUpd_frame ..) (by decide) ?_
    exact .refl _ _
    refine .ite _ ?_ ?_
    refine .step (bootPost_frame ..) (by decide) ?_
    assumption
    refine .step (updFetch_frame ..) (by decide) ?_
    refine .step (sendRecord_frame ..) (by decide) ?_
    assumption

theorem beginFetch_frame (f : Fetch) (b : Block) :
    Block.Only [.arb, .btn, .cwy, .cwyX, .dmp, .hic, .lau, .mbx, .qmg, .upd] b (beginFetch f b) := by
  unfold beginFetch
  with_reducible
    refine .step (requestBlocks_frame ..) (by decide) ?_
    refine .step (updUpd_frame ..) (by decide) ?_
    exact .refl _ _

theorem deriveLayer_frame (i : Fin 4) (b : Block) :
    Block.Only [.key, .rpl] b (deriveLayer i b) := by
  unfold deriveLayer
  with_reducible
    try lift_lets
    intro xx
    clear_value xx
    try lift_lets
    intro xx
    clear_value xx
    try lift_lets
    intro xx
    clear_value xx
    try lift_lets
    intro xx
    clear_value xx
    try lift_lets
    intro xx
    clear_value xx
    try lift_lets
    intro xx
    refine Block.Only.viaVar xx ?_ (fun _ => ?_) <;> [simp only [xx]; clear_value xx]
    refine .step (putSecret_frame ..) (by decide) ?_
    refine .step (putSecret_frame ..) (by decide) ?_
    refine .step (putSecret_frame ..) (by decide) ?_
    exact .refl _ _
    refine .ite _ ?_ ?_
    exact .refl _ _
    split
    refine .ite _ ?_ ?_
    exact .refl _ _
    refine .set_key ?_ _ (by decide)
    assumption
    refine .ite _ ?_ ?_
    exact .refl _ _
    refine .forAll (fun _ _ _ => ?_) _ ?_
    try lift_lets
    intro xx
    clear_value xx
    refine .set_key ?_ _ (by decide)
    assumption
    refine .set_key ?_ _ (by decide)
    refine .step (putSecret_frame ..) (by decide) ?_
    refine .step (putSecret_frame ..) (by decide) ?_
    exact .refl _ _
    exact .refl _ _

theorem noteRunning_frame (i : Fin 4) (b : Block) :
    Block.Only [.key, .rpl, .slt, .upd] b (noteRunning i b) := by
  unfold noteRunning
  with_reducible
    try lift_lets
    intro xx
    clear_value xx
    try lift_lets
    intro xx
    refine Block.Only.viaVar xx ?_ (fun _ => ?_) <;> [simp only [xx]; clear_value xx]
    refine .step (updImage_frame ..) (by decide) ?_
    exact .refl _ _
    refine .ite _ ?_ ?_
    refine .step (updSlt_frame ..) (by decide) ?_
    refine .step (deriveLayer_frame ..) (by decide) ?_
    assumption
    refine .step (deriveLayer_frame ..) (by decide) ?_
    assumption

end Sys2Proof.Machine
end

