-- ==== Sys2Proof/Laws/FrameFetching.lean ====
section
/-! SUPPORT. Frames of the operations of Machine/Fetching.lean: the units each of them may change. -/

namespace Sys2Proof.Machine

theorem bootNext_frame (b : Block) :
    Block.Only [.arb, .btn, .cwy, .cwyX, .dmp, .hic, .lau, .mbx, .qmg, .upd] b (bootNext b) := by
  unfold bootNext
  with_reducible
    refine .ite _ ?_ ?_
    exact .refl _ _
    split
    refine .step (beginFetch_frame ..) (by decide) ?_
    exact .refl _ _
    refine .step (beginFetch_frame ..) (by decide) ?_
    exact .refl _ _
    exact .refl _ _

theorem imageMissing_frame (i : Fin 4) (b : Block) :
    Block.Only [.rst, .upd] b (imageMissing i b) := by
  unfold imageMissing
  with_reducible
    try lift_lets
    intro xx
    refine Block.Only.viaVar xx ?_ (fun _ => ?_) <;> [simp only [xx]; clear_value xx]
    refine .step (updImage_frame ..) (by decide) ?_
    exact .refl _ _
    refine .ite _ ?_ ?_
    assumption
    refine .step (updUpd_frame ..) (by decide) ?_
    refine .step (updRst_frame ..) (by decide) ?_
    assumption

theorem slotFail_frame (i : Fin 4) (b : Block) :
    Block.Only [.arb, .btn, .cwy, .cwyX, .dmp, .hic, .lau, .mbx, .qmg, .rst, .upd] b (slotFail i b) := by
  unfold slotFail
  with_reducible
    try lift_lets
    intro xx
    refine Block.Only.viaVar xx ?_ (fun _ => ?_) <;> [simp only [xx]; clear_value xx]
    refine .step (updUpd_frame ..) (by decide) ?_
    exact .refl _ _
    refine .ite _ ?_ ?_
    refine .step (bootNext_frame ..) (by decide) ?_
    refine .step (imageMissing_frame ..) (by decide) ?_
    assumption
    refine .step (bootNext_frame ..) (by decide) ?_
    refine .step (updImage_frame ..) (by decide) ?_
    assumption

theorem chooseSet_frame (b : Block) :
    Block.Only [.arb, .btn, .cwy, .cwyX, .dmp, .hic, .lau, .mbx, .qmg, .rst, .upd] b (chooseSet b) := by
  unfold chooseSet
  with_reducible
    refine .ite _ ?_ ?_
    exact .refl _ _
    split
    refine .ite _ ?_ ?_
    refine .step (slotFail_frame ..) (by decide) ?_
    exact .refl _ _
    refine .forAll (fun _ _ _ => ?_) _ ?_
    refine .step (imageMissing_frame ..) (by decide) ?_
    assumption
    exact .refl _ _
    refine .ite _ ?_ ?_
    refine .step (imageMissing_frame ..) (by decide) ?_
    exact .refl _ _
    refine .forAll (fun _ _ _ => ?_) _ ?_
    refine .step (imageMissing_frame ..) (by decide) ?_
    assumption
    exact .refl _ _

theorem noteManifest_frame (i : Fin 4) (slotB : Bool) (m : Manifest) (b : Block) :
    Block.Only [.upd] b (noteManifest i slotB m b) := by
  unfold noteManifest
  with_reducible
    refine .step (updImage_frame ..) (by decide) ?_
    exact .refl _ _

theorem fetchFail_frame (st : Nat) (b : Block) :
    Block.Only [.arb, .btn, .cwy, .cwyX, .dmp, .hic, .lau, .mbx, .qmg, .rpl, .rst, .upd] b (fetchFail st b) := by
  unfold fetchFail
  with_reducible
    split
    exact .refl _ _
    refine .ite _ ?_ ?_
    refine .step (stageFail_frame ..) (by decide) ?_
    exact .refl _ _
    refine .step (slotFail_frame ..) (by decide) ?_
    exact .refl _ _

theorem staged_frame (f : Fetch) (b : Block) :
    Block.Only [.hic, .mbx, .rpl, .upd] b (staged f b) := by
  unfold staged
  with_reducible
    try lift_lets
    intro xx
    clear_value xx
    try lift_lets
    intro xx
    refine Block.Only.viaVar xx ?_ (fun _ => ?_) <;> [simp only [xx]; clear_value xx]
    refine .step (updImage_frame ..) (by decide) ?_
    exact .refl _ _
    split
    refine .step (ok_frame ..) (by decide) ?_
    refine .step (irq_frame ..) (by decide) ?_
    refine .step (setSlot_frame ..) (by decide) ?_
    refine .step (updUpd_frame ..) (by decide) ?_
    assumption
    refine .step (irq_frame ..) (by decide) ?_
    refine .step (setSlot_frame ..) (by decide) ?_
    refine .step (updUpd_frame ..) (by decide) ?_
    assumption

theorem loaded_frame (f : Fetch) (b : Block) :
    Block.Only [.arb, .btn, .cwy, .cwyX, .dmp, .hic, .key, .lau, .mbx, .pea, .qmg, .rpl, .slt, .upd] b (loaded f b) := by
  unfold loaded
  refine .step (bootNext_frame _) (by decide) ?_
  refine .onlyIf _ (fun _ h => .step (replayEnd_frame _ _) (by decide) h) ?_
  refine .step (noteRunning_frame _ _) (by decide) ?_
  refine .ite _ ?_ (.ite _ ?_ ?_)
  · refine .onlyIf _ (fun _ h => .step (irq_frame _ _) (by decide) h) ?_
    exact .step (saveUpdate_frame _) (by decide) <| .step (setSlot_frame _ _ _ _) (by decide) <| .step (setSlot_frame _ _ _ _) (by decide) <| .step (updUpd_frame _ _) (by decide) <| .step (updUpd_frame _ _) (by decide) <| .step (updImage_frame _ _ _) (by decide) <| .refl _ _
  · exact .step (saveUpdate_frame _) (by decide) <| .step (setSlot_frame _ _ _ _) (by decide) <| .step (updUpd_frame _ _) (by decide) <| .step (updImage_frame _ _ _) (by decide) <| .refl _ _
  · exact .step (updUpd_frame _ _) (by decide) <| .step (updImage_frame _ _ _) (by decide) <| .refl _ _

theorem imageDone_frame (f : Fetch) (b : Block) :
    Block.Only [.arb, .btn, .cwy, .cwyX, .dmp, .hic, .key, .lau, .mbx, .pea, .qmg, .rpl, .rst, .slt, .upd] b (imageDone f b) := by
  unfold imageDone
  with_reducible
    refine .ite _ ?_ ?_
    refine .ite _ ?_ ?_
    refine .step (staged_frame ..) (by decide) ?_
    exact .refl _ _
    refine .step (loaded_frame ..) (by decide) ?_
    exact .refl _ _
    refine .step (fetchFail_frame ..) (by decide) ?_
    exact .refl _ _

theorem manifestDone_frame (f : Fetch) (b : Block) :
    Block.Only [.arb, .btn, .cwy, .cwyX, .dmp, .hic, .key, .lau, .mbx, .pea, .qmg, .rpl, .rst, .slt, .upd] b (manifestDone f b) := by
  unfold manifestDone
  with_reducible
    try lift_lets
    intro xx
    clear_value xx
    try lift_lets
    intro xx
    clear_value xx
    try lift_lets
    intro xx
    clear_value xx
    try lift_lets
    intro xx
    refine Block.Only.viaVar xx ?_ (fun _ => ?_) <;> [simp only [xx]; clear_value xx]
    refine .step (noteManifest_frame ..) (by decide) ?_
    exact .refl _ _
    refine .ite _ ?_ ?_
    split
    refine .step (fetchFail_frame ..) (by decide) ?_
    exact .refl _ _
    refine .ite _ ?_ ?_
    refine .step (imageDone_frame ..) (by decide) ?_
    assumption
    refine .step (beginFetch_frame ..) (by decide) ?_
    assumption
    refine .ite _ ?_ ?_
    refine .step (bootNext_frame ..) (by decide) ?_
    refine .step (chooseSet_frame ..) (by decide) ?_
    refine .step (updUpd_frame ..) (by decide) ?_
    refine .step (updImage_frame ..) (by decide) ?_
    refine .step (noteManifest_frame ..) (by decide) ?_
    exact .refl _ _
    refine .step (slotFail_frame ..) (by decide) ?_
    exact .refl _ _

theorem blockTaken_frame (f : Fetch) (b : Block) :
    Block.Only [.arb, .btn, .cwy, .cwyX, .dmp, .hic, .key, .lau, .mbx, .pea, .qmg, .rpl, .rst, .slt, .upd] b (blockTaken f b) := by
  unfold blockTaken
  with_reducible
    try lift_lets
    intro xx
    refine Block.Only.viaVar xx ?_ (fun _ => ?_) <;> [simp only [xx]; clear_value xx]
    refine .step (updUpd_frame ..) (by decide) ?_
    exact .refl _ _
    refine .ite _ ?_ ?_
    refine .ite _ ?_ ?_
    refine .step (manifestDone_frame ..) (by decide) ?_
    assumption
    refine .step (imageDone_frame ..) (by decide) ?_
    assumption
    refine .ite _ ?_ ?_
    refine .step (requestBlocks_frame ..) (by decide) ?_
    assumption
    assumption

theorem blockDone_frame (f : Fetch) (block : List U8) (b : Block) :
    Block.Only [.arb, .btn, .cwy, .cwyX, .dmp, .hic, .key, .lau, .mbx, .pea, .qmg, .rpl, .rst, .slt, .upd] b (blockDone f block b) := by
  unfold blockDone
  with_reducible
    try lift_lets
    intro xx
    clear_value xx
    try lift_lets
    intro xx
    clear_value xx
    try lift_lets
    intro xx
    clear_value xx
    refine .ite _ ?_ ?_
    refine .ite _ ?_ ?_
    refine .ite _ ?_ ?_
    refine .step (fetchFail_frame ..) (by decide) ?_
    exact .refl _ _
    refine .step (blockTaken_frame ..) (by decide) ?_
    exact .refl _ _
    refine .step (blockTaken_frame ..) (by decide) ?_
    exact .refl _ _
    refine .ite _ ?_ ?_
    refine .step (blockTaken_frame ..) (by decide) ?_
    exact .refl _ _
    refine .step (fetchFail_frame ..) (by decide) ?_
    exact .refl _ _

theorem takePart_frame (image slot block part size : Nat) (data : List U8) (b : Block) :
    Block.Only [.arb, .btn, .cwy, .cwyX, .dmp, .hic, .key, .lau, .mbx, .pea, .qmg, .rpl, .rst, .slt, .upd] b (takePart image slot block part size data b) := by
  unfold takePart
  with_reducible
    split
    exact .refl _ _
    try lift_lets
    intro xx
    clear_value xx
    refine .ite _ ?_ ?_
    refine .ite _ ?_ ?_
    refine .step (blockDone_frame ..) (by decide) ?_
    exact .refl _ _
    refine .step (updFetch_frame ..) (by decide) ?_
    exact .refl _ _
    exact .refl _ _

theorem partAbsent_frame (image slot : Nat) (b : Block) :
    Block.Only [.arb, .btn, .cwy, .cwyX, .dmp, .hic, .lau, .mbx, .qmg, .rpl, .rst, .upd] b (partAbsent image slot b) := by
  unfold partAbsent
  with_reducible
    split
    exact .refl _ _
    refine .ite _ ?_ ?_
    refine .step (fetchFail_frame ..) (by decide) ?_
    exact .refl _ _
    exact .refl _ _

theorem takeImageRecord_frame (l : List U8) (b : Block) :
    Block.Only [.arb, .btn, .cwy, .cwyX, .dmp, .hic, .key, .lau, .mbx, .pea, .qmg, .rpl, .rst, .slt, .upd] b (takeImageRecord l b) := by
  unfold takeImageRecord
  with_reducible
    try lift_lets
    intro xx
    clear_value xx
    try lift_lets
    intro xx
    clear_value xx
    try lift_lets
    intro xx
    clear_value xx
    refine .ite _ ?_ ?_
    exact .refl _ _
    refine .ite _ ?_ ?_
    refine .step (partAbsent_frame ..) (by decide) ?_
    exact .refl _ _
    refine .step (takePart_frame ..) (by decide) ?_
    exact .refl _ _

theorem imageData_frame (b : Block) :
    Block.Only [.arb, .btn, .cwy, .cwyX, .dmp, .hic, .key, .lau, .mbx, .pea, .qmg, .rpl, .rst, .slt, .upd] b (imageData b) := by
  unfold imageData
  with_reducible
    split
    refine .ofPair (by assumption) ?_
    refine .step (qDequeue_frame ..) (by decide) ?_
    exact .refl _ _
    try lift_lets
    intro xx
    clear_value xx
    refine .step (takeImageRecord_frame ..) (by decide) ?_
    refine .step (qFree_frame ..) (by decide) ?_
    refine .ofPair (by assumption) ?_
    refine .step (qDequeue_frame ..) (by decide) ?_
    exact .refl _ _

theorem blockTimeout_frame (b : Block) :
    Block.Only [.arb, .btn, .cwy, .cwyX, .dmp, .hic, .lau, .mbx, .prior, .qmg, .rpl, .rst, .tide, .upd] b (blockTimeout b) := by
  unfold blockTimeout
  with_reducible
    split
    exact .refl _ _
    refine .ite _ ?_ ?_
    refine .afterTicks (by decide) (by decide) (fun _ _ => ?_) ?_
    refine .ite _ ?_ ?_
    refine .step (requestBlocks_frame ..) (by decide) ?_
    refine .step (updFetch_frame ..) (by decide) ?_
    assumption
    refine .step (fetchFail_frame ..) (by decide) ?_
    assumption
    exact .refl _ _
    exact .refl _ _

theorem bootRetry_frame (b : Block) :
    Block.Only [.arb, .btn, .cwy, .cwyX, .dmp, .hic, .lau, .mbx, .prior, .qmg, .tide, .upd] b (bootRetry b) := by
  unfold bootRetry
  with_reducible
    refine .ite _ ?_ ?_
    refine .afterTicks (by decide) (by decide) (fun _ _ => ?_) ?_
    refine .step (bootNext_frame ..) (by decide) ?_
    refine .step (updUpd_frame ..) (by decide) ?_
    assumption
    exact .refl _ _
    exact .refl _ _

theorem updBootPart_frame (m : Fin 4) (b : Block) :
    Block.Only [.arb, .btn, .cwy, .cwyX, .dmp, .hic, .key, .lau, .mbx, .pea, .qmg, .rpl, .rst, .slt, .upd] b (updBootPart m b) := by
  unfold updBootPart
  with_reducible
    try lift_lets
    intro xx
    clear_value xx
    try lift_lets
    intro xx
    clear_value xx
    refine .ite _ ?_ ?_
    exact .refl _ _
    refine .ite _ ?_ ?_
    refine .checked (by decide) (by decide) (fun _ _ => ?_) ?_
    refine .step (takePart_frame ..) (by decide) ?_
    refine .step (ok_frame ..) (by decide) ?_
    assumption
    exact .refl _ _
    refine .step (refuse_frame ..) (by decide) ?_
    exact .refl _ _

theorem mbxAcknowledge_frame (m : Fin 4) (b : Block) :
    Block.Only [.hic, .mbx, .upd] b (mbxAcknowledge m b) := by
  unfold mbxAcknowledge
  with_reducible
    refine .step (bootPost_frame ..) (by decide) ?_
    refine .step (mbxAck_frame ..) (by decide) ?_
    exact .refl _ _

theorem doorbellWrite_frame (m : Fin 4) (v : U32) (b : Block) :
    Block.Only [.hic, .hp, .mbx, .rpl, .upd] b (doorbellWrite m v b) := by
  unfold doorbellWrite
  with_reducible
    refine .step (bootPost_frame ..) (by decide) ?_
    refine .step (mbxDoorbell_frame ..) (by decide) ?_
    exact .refl _ _

end Sys2Proof.Machine
end

