-- ==== Sys2Proof/Laws/FrameBoot.lean ====
section
/-! SUPPORT. Frames of the operations of Machine/Boot.lean: the units each of them may change. -/

namespace Sys2Proof.Machine

theorem restoreKept_frame (b : Block) :
    Block.Only [.acc, .dmp, .kept, .key, .legal, .pea] b (restoreKept b) := by
  unfold restoreKept
  with_reducible
    try lift_lets
    intro xx
    clear_value xx
    split
    exact .refl _ _
    refine .set_acc_dmp_kept_key_legal_pea ?_ _ _ _ _ _ _ (by decide) (by decide) (by decide) (by decide) (by decide) (by decide)
    exact .refl _ _

theorem restoreUpdate_frame (b : Block) :
    Block.Only [.upd] b (restoreUpdate b) := by
  unfold restoreUpdate
  with_reducible
    try lift_lets
    intro xx
    clear_value xx
    try lift_lets
    intro xx
    clear_value xx
    refine .step (updUpd_frame ..) (by decide) ?_
    exact .refl _ _

theorem stageStore_frame (b : Block) :
    Block.Only [.acc, .arb, .bri, .btn, .cross, .cwy, .cwyX, .dmp, .hic, .kept, .key, .legal, .met, .pea, .pq, .qmg, .sess, .slt, .tide, .upd] b (stageStore b) := by
  unfold stageStore
  with_reducible
    try lift_lets
    intro xx
    clear_value xx
    try lift_lets
    intro xx
    refine Block.Only.viaPair xx ?_ (fun _ => ?_) <;> [simp only [xx]; clear_value xx]
    refine .step (recoverPeat_frame ..) (by decide) ?_
    refine .step (restoreKept_frame ..) (by decide) ?_
    exact .refl _ _
    refine .ite _ ?_ ?_
    refine .step (legalLog_frame ..) (by decide) ?_
    refine .ite _ ?_ ?_
    refine .set_btn_key ?_ _ _ (by decide) (by decide)
    refine .step (updTide_frame ..) (by decide) ?_
    refine crossDrain_frame (by decide) (fun _ _ _ => ?_) ?_
    refine .step (setTrim_frame ..) (by decide) ?_
    assumption
    refine .step (crossSenders_frame ..) (by decide) ?_
    refine .set_btn_key ?_ _ _ (by decide) (by decide)
    refine .step (updMet_frame ..) (by decide) ?_
    refine .forAll (fun _ _ _ => ?_) _ ?_
    refine .step (unproveWallet_frame ..) (by decide) ?_
    assumption
    refine .step (restoreUpdate_frame ..) (by decide) ?_
    refine .step (applyMetrology_frame ..) (by decide) ?_
    refine .step (applyBilling_frame ..) (by decide) ?_
    assumption
    refine .step (updTide_frame ..) (by decide) ?_
    refine crossDrain_frame (by decide) (fun _ _ _ => ?_) ?_
    refine .step (setTrim_frame ..) (by decide) ?_
    assumption
    refine .step (crossSenders_frame ..) (by decide) ?_
    refine .set_btn_key ?_ _ _ (by decide) (by decide)
    refine .step (updMet_frame ..) (by decide) ?_
    refine .forAll (fun _ _ _ => ?_) _ ?_
    refine .step (unproveWallet_frame ..) (by decide) ?_
    assumption
    refine .step (restoreUpdate_frame ..) (by decide) ?_
    refine .step (applyMetrology_frame ..) (by decide) ?_
    refine .step (applyBilling_frame ..) (by decide) ?_
    assumption
    refine .step (bootPort_frame ..) (by decide) ?_
    refine .step (legalLog_frame ..) (by decide) ?_
    refine .ite _ ?_ ?_
    refine .set_btn_key ?_ _ _ (by decide) (by decide)
    refine .step (updTide_frame ..) (by decide) ?_
    refine crossDrain_frame (by decide) (fun _ _ _ => ?_) ?_
    refine .step (setTrim_frame ..) (by decide) ?_
    assumption
    refine .step (crossSenders_frame ..) (by decide) ?_
    refine .set_btn_key ?_ _ _ (by decide) (by decide)
    refine .step (updMet_frame ..) (by decide) ?_
    refine .forAll (fun _ _ _ => ?_) _ ?_
    refine .step (unproveWallet_frame ..) (by decide) ?_
    assumption
    refine .step (restoreUpdate_frame ..) (by decide) ?_
    refine .step (applyMetrology_frame ..) (by decide) ?_
    refine .step (applyBilling_frame ..) (by decide) ?_
    assumption
    refine .step (updTide_frame ..) (by decide) ?_
    refine crossDrain_frame (by decide) (fun _ _ _ => ?_) ?_
    refine .step (setTrim_frame ..) (by decide) ?_
    assumption
    refine .step (crossSenders_frame ..) (by decide) ?_
    refine .set_btn_key ?_ _ _ (by decide) (by decide)
    refine .step (updMet_frame ..) (by decide) ?_
    refine .forAll (fun _ _ _ => ?_) _ ?_
    refine .step (unproveWallet_frame ..) (by decide) ?_
    assumption
    refine .step (restoreUpdate_frame ..) (by decide) ?_
    refine .step (applyMetrology_frame ..) (by decide) ?_
    refine .step (applyBilling_frame ..) (by decide) ?_
    assumption

theorem stageOne_frame (x : BootInfo) (b : Block) :
    Block.Only [.acc, .arb, .bri, .btn, .cross, .cwy, .cwyX, .dmp, .hic, .kept, .key, .legal, .met, .pea, .pq, .qmg, .rpl, .sess, .slt, .tide, .upd] b (stageOne x b).1 := by
  unfold stageOne
  with_reducible
    try lift_lets
    intro xx
    refine Block.Only.viaVar xx ?_ (fun _ => ?_) <;> [simp only [xx]; clear_value xx]
    refine .step (traceHead_frame ..) (by decide) ?_
    exact .refl _ _
    refine .iteFst _ ?_ ?_
    refine .ite _ ?_ ?_
    assumption
    refine .step (pufAttempt_frame ..) (by decide) ?_
    assumption
    refine .step (stageStore_frame ..) (by decide) ?_
    refine .ite _ ?_ ?_
    assumption
    refine .step (pufAttempt_frame ..) (by decide) ?_
    assumption

theorem stageDyke_frame (x : BootInfo) (b : Block) :
    Block.Only [.arb, .bri, .btn, .cwy, .cwyX, .dmp, .hic, .imd, .imdG, .key, .lau, .legal, .lsw, .mlk, .pea, .plc, .plcCfg, .qmg, .rst, .saf, .safX, .sess, .slt, .veh] b (stageDyke x b) := by
  unfold stageDyke
  with_reducible
    try lift_lets
    intro xx
    refine Block.Only.viaVar xx ?_ (fun _ => ?_) <;> [simp only [xx]; clear_value xx]
    refine .step (updRst_frame ..) (by decide) ?_
    refine .step (applySafety_frame ..) (by decide) ?_
    exact .refl _ _
    refine .ite _ ?_ ?_
    refine .step (reviewHub_frame ..) (by decide) ?_
    refine .step (updSaf_frame ..) (by decide) ?_
    assumption
    refine .step (contain_frame ..) (by decide) ?_
    refine .step (updSaf_frame ..) (by decide) ?_
    assumption

theorem closeCut_frame (n : Fin 16) (b : Block) :
    Block.Only [.arb, .bri, .btn, .cwy, .cwyX, .dmp, .hic, .imd, .imdG, .key, .lau, .legal, .lsw, .pea, .plc, .plcCfg, .qmg, .saf, .safX, .sess, .slt, .veh] b (closeCut n b) := by
  unfold closeCut
  with_reducible
    try lift_lets
    intro xx
    clear_value xx
    try lift_lets
    intro xx
    clear_value xx
    try lift_lets
    intro xx
    refine Block.Only.viaVar xx ?_ (fun _ => ?_) <;> [simp only [xx]; clear_value xx]
    refine .step (updSess_frame ..) (by decide) ?_
    refine .step (enterPhase_frame ..) (by decide) ?_
    exact .refl _ _
    refine .ite _ ?_ ?_
    exact .refl _ _
    refine .ite _ ?_ ?_
    refine .step (updLegal_frame ..) (by decide) ?_
    refine .step (returnLedger_frame ..) (by decide) ?_
    refine .step (updVeh_frame ..) (by decide) ?_
    assumption
    refine .step (takeReading_frame ..) (by decide) ?_
    refine .step (updLegal_frame ..) (by decide) ?_
    refine .step (returnLedger_frame ..) (by decide) ?_
    refine .step (updVeh_frame ..) (by decide) ?_
    assumption

theorem backupStart_frame (b : Block) :
    Block.Only [.arb, .backup, .hic, .pea, .slt] b (backupStart b) := by
  unfold backupStart
  with_reducible
    refine .ite _ ?_ ?_
    refine .step (updBackup_frame ..) (by decide) ?_
    exact .refl _ _
    refine .step (irq_frame ..) (by decide) ?_
    refine .step (saveLegalConfig_frame ..) (by decide) ?_
    refine .step (updSlt_frame ..) (by decide) ?_
    refine .step (updBackup_frame ..) (by decide) ?_
    exact .refl _ _

theorem stageCarr_frame (b : Block) :
    Block.Only (Part.but [.tide, .snaps, .barrier, .fab, .d2d, .cross, .met, .acc, .pq, .slu, .sluCnt, .mlk, .vehCfg, .v2g, .v2gCfg, .rcm, .rcmTest, .pf, .auth, .hp, .pnl, .frames, .nfc, .upd, .dbg, .settings, .newSettings, .legalSet, .updRec, .kept, .prior]) b (stageCarr b) := by
  unfold stageCarr
  with_reducible
    try lift_lets
    intro xx
    refine Block.Only.viaVar xx ?_ (fun _ => ?_) <;> [simp only [xx]; clear_value xx]
    refine .step (requesterMask_frame ..) (by decide) ?_
    refine .step (updRst_frame ..) (by decide) ?_
    exact .refl _ _
    refine .step (replan_frame ..) (by decide) ?_
    refine .step (signHeldAgain_frame ..) (by decide) ?_
    refine .forAll (fun _ _ _ => ?_) _ ?_
    refine .step (closeCut_frame ..) (by decide) ?_
    assumption
    refine .step (updSlt_frame ..) (by decide) ?_
    refine .step (tamperMove_frame ..) (by decide) ?_
    refine .step (updSlt_frame ..) (by decide) ?_
    refine .set_bri ?_ _ (by decide)
    refine .step (backupStart_frame ..) (by decide) ?_
    assumption

theorem stageCreek_frame (b : Block) :
    Block.Only [.rst] b (stageCreek b) := by
  unfold stageCreek
  with_reducible
    refine .step (updRst_frame ..) (by decide) ?_
    exact .refl _ _

theorem stageSedge_frame (b : Block) :
    Block.Only (Part.but [.tide, .snaps, .barrier, .fab, .d2d, .cross, .met, .acc, .pq, .sluCnt, .rcmTest, .backup, .hp, .frames, .dbg, .settings, .legalSet, .updRec, .kept, .prior]) b (stageSedge b) := by
  unfold stageSedge
  with_reducible
    try lift_lets
    intro xx
    clear_value xx
    try lift_lets
    intro xx
    refine Block.Only.viaVar xx ?_ (fun _ => ?_) <;> [simp only [xx]; clear_value xx]
    refine .set_newSettings ?_ _ (by decide)
    exact .refl _ _
    refine .step (driveFeed_frame ..) (by decide) ?_
    refine .forAll (fun _ _ _ => ?_) _ ?_
    refine .step (pilotReview_frame ..) (by decide) ?_
    assumption
    refine .step (reviewHub_frame ..) (by decide) ?_
    refine .set_slu ?_ _ (by decide)
    refine .ite _ ?_ ?_
    refine .step (linkReset_frame ..) (by decide) ?_
    refine .step (applyPort_frame ..) (by decide) ?_
    refine .step (applyProtect_frame ..) (by decide) ?_
    refine .step (applyVeh_frame ..) (by decide) ?_
    refine .step (applySlu_frame ..) (by decide) ?_
    refine .step (requesterMask_frame ..) (by decide) ?_
    refine .step (requesterMask_frame ..) (by decide) ?_
    refine .step (updRst_frame ..) (by decide) ?_
    assumption
    refine .step (limpEnd_frame ..) (by decide) ?_
    refine .step (linkReset_frame ..) (by decide) ?_
    refine .step (applyPort_frame ..) (by decide) ?_
    refine .step (applyProtect_frame ..) (by decide) ?_
    refine .step (applyVeh_frame ..) (by decide) ?_
    refine .step (applySlu_frame ..) (by decide) ?_
    refine .step (requesterMask_frame ..) (by decide) ?_
    refine .step (requesterMask_frame ..) (by decide) ?_
    refine .step (updRst_frame ..) (by decide) ?_
    assumption

theorem declareReady_frame (b : Block) :
    Block.Only [.hic, .rst] b (declareReady b) := by
  unfold declareReady
  with_reducible
    refine .step (irq_frame ..) (by decide) ?_
    refine .step (updRst_frame ..) (by decide) ?_
    exact .refl _ _

theorem stageSix_frame (b : Block) :
    Block.Only [.hic, .rst] b (stageSix b) := by
  unfold stageSix
  with_reducible
    refine .ite _ ?_ ?_
    refine .step (declareReady_frame ..) (by decide) ?_
    refine .step (updRst_frame ..) (by decide) ?_
    exact .refl _ _
    exact .refl _ _

theorem stageWork_frame (x : BootInfo) (b : Block) :
    Block.Only (Part.but [.tide, .snaps, .barrier, .fab, .d2d, .cross, .met, .acc, .pq, .sluCnt, .rcmTest, .hp, .frames, .dbg, .settings, .legalSet, .updRec, .kept, .prior]) b (stageWork x b) := by
  unfold stageWork
  with_reducible
    split
    refine .step (stageDyke_frame ..) (by decide) ?_
    exact .refl _ _
    refine .step (stageCarr_frame ..) (by decide) ?_
    exact .refl _ _
    refine .step (stageCreek_frame ..) (by decide) ?_
    exact .refl _ _
    refine .step (stageSedge_frame ..) (by decide) ?_
    exact .refl _ _
    exact .refl _ _

theorem stageUp_frame (b : Block) :
    Block.Only [.rst] b (stageUp b) := by
  unfold stageUp
  with_reducible
    refine .step (updRst_frame ..) (by decide) ?_
    exact .refl _ _

theorem bootStageDone_frame (x : BootInfo) (b : Block) :
    Block.Only (Part.but [.snaps, .barrier, .fab, .d2d, .sluCnt, .rcmTest, .hp, .frames, .dbg, .settings, .legalSet, .updRec, .prior]) b (bootStageDone x b) := by
  unfold bootStageDone
  with_reducible
    try lift_lets
    intro xx
    refine Block.Only.viaPair xx ?_ (fun _ => ?_) <;> [simp only [xx]; clear_value xx]
    refine .step (stageOne_frame ..) (by decide) ?_
    exact .refl _ _
    refine .ite _ ?_ ?_
    exact .refl _ _
    refine .ite _ ?_ ?_
    refine .ite _ ?_ ?_
    refine .step (bootNext_frame ..) (by decide) ?_
    refine .step (stageUp_frame ..) (by decide) ?_
    assumption
    assumption
    refine .ite _ ?_ ?_
    refine .ite _ ?_ ?_
    refine .step (stageSix_frame ..) (by decide) ?_
    refine .step (stageUp_frame ..) (by decide) ?_
    refine .step (stageWork_frame ..) (by decide) ?_
    exact .refl _ _
    refine .step (bootNext_frame ..) (by decide) ?_
    refine .step (stageUp_frame ..) (by decide) ?_
    refine .step (stageWork_frame ..) (by decide) ?_
    exact .refl _ _
    exact .refl _ _

theorem readyDeclared_frame (b : Block) :
    Block.Only [.hic, .prior, .rst, .tide] b (readyDeclared b) := by
  unfold readyDeclared
  with_reducible
    refine .ite _ ?_ ?_
    refine .afterTicks (by decide) (by decide) (fun _ _ => ?_) ?_
    refine .step (declareReady_frame ..) (by decide) ?_
    assumption
    exact .refl _ _
    exact .refl _ _

end Sys2Proof.Machine
end

