-- ==== Sys2Proof/Laws/FrameUpdate.lean ====
section
/-! SUPPORT. Frames of the operations of Machine/Update.lean: the units each of them may change. -/

namespace Sys2Proof.Machine

theorem modemNext_frame (b : Block) :
    Block.Only [.upd] b (modemNext b) := by
  unfold modemNext
  with_reducible
    try lift_lets
    intro (xx : _ → _)
    refine .foldl (fun _ _ _ => ?_) _ ?_
    dsimp (zetaDelta := true) only
    split
    refine .ite _ ?_ ?_
    assumption
    refine .ite _ ?_ ?_
    refine .step (updUpd_frame ..) (by decide) ?_
    assumption
    refine .step (updUpd_frame ..) (by decide) ?_
    assumption
    assumption
    exact .refl _ _

theorem dykePause_frame (b : Block) :
    Block.Only [.hic, .lsw, .rst, .saf, .safX] b (dykePause b) := by
  unfold dykePause
  with_reducible
    try lift_lets
    intro xx
    refine Block.Only.viaVar xx ?_ (fun _ => ?_) <;> [simp only [xx]; clear_value xx]
    refine .step (updSaf_frame ..) (by decide) ?_
    exact .refl _ _
    refine .step (updRst_frame ..) (by decide) ?_
    refine .forAll (fun _ _ _ => ?_) _ ?_
    refine .step (dykeClear_frame ..) (by decide) ?_
    refine .step (updNode_frame ..) (by decide) ?_
    assumption
    assumption

theorem carrPause_frame (b : Block) :
    Block.Only [.arb, .bri, .hic, .pea, .rst] b (carrPause b) := by
  unfold carrPause
  with_reducible
    refine .step (updRst_frame ..) (by decide) ?_
    refine .step (writeEpoch_frame ..) (by decide) ?_
    refine .step (debitLines_frame ..) (by decide) ?_
    exact .refl _ _

theorem sedgePause_frame (b : Block) :
    Block.Only [.arb, .hic, .mbx, .rpl, .rst] b (sedgePause b) := by
  unfold sedgePause
  with_reducible
    refine .step (drainCheck_frame ..) (by decide) ?_
    refine .step (setFreeze_frame ..) (by decide) ?_
    refine .step (loseSedge_frame ..) (by decide) ?_
    exact .refl _ _

theorem pauseOf_frame (i : Fin 4) (b : Block) :
    Block.Only [.arb, .bri, .hic, .lsw, .mbx, .pea, .rpl, .rst, .saf, .safX, .upd] b (pauseOf i b) := by
  unfold pauseOf
  with_reducible
    split
    refine .step (modemNext_frame ..) (by decide) ?_
    refine .step (updUpd_frame ..) (by decide) ?_
    exact .refl _ _
    refine .step (dykePause_frame ..) (by decide) ?_
    exact .refl _ _
    refine .step (carrPause_frame ..) (by decide) ?_
    exact .refl _ _
    refine .step (sedgePause_frame ..) (by decide) ?_
    exact .refl _ _

theorem pauseStart_frame (b : Block) :
    Block.Only [.arb, .bri, .hic, .lsw, .mbx, .pea, .rpl, .rst, .saf, .safX, .upd] b (pauseStart b) := by
  unfold pauseStart
  with_reducible
    split
    exact .refl _ _
    refine .ite _ ?_ ?_
    exact .refl _ _
    refine .step (pauseOf_frame ..) (by decide) ?_
    refine .step (updUpd_frame ..) (by decide) ?_
    exact .refl _ _

theorem resumeOf_frame (i : Fin 4) (b : Block) :
    Block.Only [.arb, .auth, .btn, .cwy, .cwyX, .dmp, .hic, .imd, .imdG, .lau, .lsw, .mlk, .plc, .plcCfg, .qmg, .rst, .saf, .safX, .sess, .slt, .v2g, .veh] b (resumeOf i b) := by
  unfold resumeOf
  with_reducible
    split
    refine .step (reviewHub_frame ..) (by decide) ?_
    refine .step (updSaf_frame ..) (by decide) ?_
    refine .step (updRst_frame ..) (by decide) ?_
    exact .refl _ _
    refine .step (replan_frame ..) (by decide) ?_
    refine .step (updRst_frame ..) (by decide) ?_
    exact .refl _ _
    refine .step (driveFeed_frame ..) (by decide) ?_
    refine .forAll (fun _ _ _ => ?_) _ ?_
    refine .step (pilotReview_frame ..) (by decide) ?_
    assumption
    refine .step (liftFreeze_frame ..) (by decide) ?_
    refine .step (updRst_frame ..) (by decide) ?_
    exact .refl _ _
    exact .refl _ _

theorem carrSwitched_frame (what : U8) (old : U32) (b : Block) :
    Block.Only [.arb, .btn, .frames, .hic, .mbx, .pnl, .rpl] b (carrSwitched what old b) := by
  unfold carrSwitched
  with_reducible
    try lift_lets
    intro xx
    clear_value xx
    try lift_lets
    intro xx
    refine Block.Only.viaVar xx ?_ (fun _ => ?_) <;> [simp only [xx]; clear_value xx]
    refine .step (legalLog_frame ..) (by decide) ?_
    exact .refl _ _
    refine .forAll (fun _ _ _ => ?_) _ ?_
    refine .onlyIf _ (fun _ _ => ?_) ?_
    refine .step (redrawStrip_frame ..) (by decide) ?_
    assumption
    assumption
    assumption

theorem swapSlot_frame (what : U8) (i : Fin 4) (b : Block) :
    Block.Only (Part.but [.tide, .snaps, .barrier, .fab, .d2d, .cross, .met, .acc, .pq, .slu, .sluCnt, .vehCfg, .v2gCfg, .rcm, .rcmTest, .pea, .pf, .legal, .backup, .bri, .hp, .nfc, .dbg, .settings, .newSettings, .legalSet, .updRec, .kept, .prior]) b (swapSlot what i b) := by
  unfold swapSlot
  with_reducible
    try lift_lets
    intro xx
    clear_value xx
    try lift_lets
    intro xx
    refine Block.Only.viaVar xx ?_ (fun _ => ?_) <;> [simp only [xx]; clear_value xx]
    refine .step (irq_frame ..) (by decide) ?_
    refine .step (noteRunning_frame ..) (by decide) ?_
    refine .step (updImage_frame ..) (by decide) ?_
    exact .refl _ _
    refine .ite _ ?_ ?_
    refine .step (carrSwitched_frame ..) (by decide) ?_
    refine .set_key ?_ _ (by decide)
    refine .step (resumeOf_frame ..) (by decide) ?_
    assumption
    refine .step (resumeOf_frame ..) (by decide) ?_
    assumption

theorem migrate_frame (b : Block) :
    Block.Only [.arb, .hic, .newSettings, .pea] b (migrate b) := by
  unfold migrate
  with_reducible
    refine .step (peatFree_frame ..) (by decide) ?_
    refine .set_newSettings ?_ _ (by decide)
    exact .refl _ _

theorem oldSettings_frame (b : Block) :
    Block.Only [.arb, .btn, .cwy, .imd, .imdG, .lsw, .mlk, .newSettings, .nfc, .pf, .plc, .plcCfg, .pnl, .qmg, .rcm, .rpl, .saf, .safX, .sess, .slu, .upd, .v2gCfg, .veh, .vehCfg] b (oldSettings b) := by
  unfold oldSettings
  with_reducible
    try lift_lets
    intro xx
    clear_value xx
    split
    exact .refl _ _
    refine .step (applyPort_frame ..) (by decide) ?_
    refine .step (applyProtect_frame ..) (by decide) ?_
    refine .step (applyVeh_frame ..) (by decide) ?_
    refine .step (applySlu_frame ..) (by decide) ?_
    refine .step (applySafety_frame ..) (by decide) ?_
    refine .set_newSettings ?_ _ (by decide)
    exact .refl _ _

theorem answerSwitch_frame (mbx : Option (Fin 4)) (payload : List U8) (b : Block) :
    Block.Only [.mbx, .rpl] b (answerSwitch mbx payload b) := by
  unfold answerSwitch
  with_reducible
    split
    refine .step (ok_frame ..) (by decide) ?_
    exact .refl _ _
    exact .refl _ _

theorem activated_frame (p : Pause) (b : Block) :
    Block.Only (Part.but [.tide, .snaps, .barrier, .fab, .d2d, .cross, .met, .acc, .pq, .slu, .sluCnt, .vehCfg, .v2gCfg, .rcm, .rcmTest, .pf, .legal, .backup, .bri, .hp, .nfc, .dbg, .settings, .legalSet, .updRec, .kept, .prior]) b (activated p b) := by
  unfold activated
  with_reducible
    try lift_lets
    intro xx
    clear_value xx
    try lift_lets
    intro xx
    clear_value xx
    try lift_lets
    intro xx
    clear_value xx
    try lift_lets
    intro xx
    refine Block.Only.viaVar xx ?_ (fun _ => ?_) <;> [simp only [xx]; clear_value xx]
    refine .onlyIf _ (fun _ _ => ?_) ?_
    refine .step (migrate_frame ..) (by decide) ?_
    assumption
    exact .refl _ _
    refine .step (answerSwitch_frame ..) (by decide) ?_
    refine .step (irqLog_frame ..) (by decide) ?_
    refine .step (saveUpdate_frame ..) (by decide) ?_
    refine .step (swapSlot_frame ..) (by decide) ?_
    refine .step (updUpd_frame ..) (by decide) ?_
    refine .step (setSlot_frame ..) (by decide) ?_
    refine .step (setSlot_frame ..) (by decide) ?_
    assumption

theorem reverted_frame (p : Pause) (b : Block) :
    Block.Only (Part.but [.tide, .snaps, .barrier, .fab, .d2d, .cross, .met, .acc, .pq, .sluCnt, .rcmTest, .legal, .backup, .bri, .hp, .dbg, .settings, .legalSet, .updRec, .kept, .prior]) b (reverted p b) := by
  unfold reverted
  with_reducible
    try lift_lets
    intro xx
    clear_value xx
    try lift_lets
    intro xx
    clear_value xx
    try lift_lets
    intro xx
    refine Block.Only.viaVar xx ?_ (fun _ => ?_) <;> [simp only [xx]; clear_value xx]
    refine .step (setSlot_frame ..) (by decide) ?_
    refine .step (setSlot_frame ..) (by decide) ?_
    exact .refl _ _
    refine .step (answerSwitch_frame ..) (by decide) ?_
    refine .step (irq_frame ..) (by decide) ?_
    refine .step (saveUpdate_frame ..) (by decide) ?_
    refine .step (swapSlot_frame ..) (by decide) ?_
    refine .onlyIf _ (fun _ _ => ?_) ?_
    refine .step (oldSettings_frame ..) (by decide) ?_
    assumption
    refine .step (updUpd_frame ..) (by decide) ?_
    assumption

theorem settingsReverted_frame (p : Pause) (b : Block) :
    Block.Only (Part.but [.tide, .snaps, .barrier, .fab, .d2d, .cross, .met, .acc, .pq, .slu, .sluCnt, .vehCfg, .v2gCfg, .rcm, .rcmTest, .pf, .legal, .backup, .bri, .key, .hp, .pnl, .frames, .nfc, .dbg, .settings, .newSettings, .legalSet, .updRec, .kept, .prior]) b (settingsReverted p b) := by
  unfold settingsReverted
  with_reducible
    try lift_lets
    intro xx
    clear_value xx
    try lift_lets
    intro xx
    clear_value xx
    try lift_lets
    intro xx
    clear_value xx
    try lift_lets
    intro xx
    refine Block.Only.viaVar xx ?_ (fun _ => ?_) <;> [simp only [xx]; clear_value xx]
    refine .step (setSlot_frame ..) (by decide) ?_
    exact .refl _ _
    refine .step (answerSwitch_frame ..) (by decide) ?_
    refine .step (irqLog_frame ..) (by decide) ?_
    refine .step (saveUpdate_frame ..) (by decide) ?_
    refine .step (resumeOf_frame ..) (by decide) ?_
    refine .step (updUpd_frame ..) (by decide) ?_
    assumption

theorem modemSwitched_frame (p : Pause) (n : Fin 16) (b : Block) :
    Block.Only (Part.but [.tide, .snaps, .barrier, .fab, .d2d, .cross, .met, .acc, .pq, .sluCnt, .rcmTest, .legal, .backup, .bri, .hp, .dbg, .settings, .legalSet, .updRec, .kept, .prior]) b (modemSwitched p n b) := by
  unfold modemSwitched
  with_reducible
    try lift_lets
    intro xx
    refine Block.Only.viaVar xx ?_ (fun _ => ?_) <;> [simp only [xx]; clear_value xx]
    refine .step (updUpd_frame ..) (by decide) ?_
    exact .refl _ _
    refine .ite _ ?_ ?_
    refine .ite _ ?_ ?_
    refine .step (reverted_frame ..) (by decide) ?_
    refine .step (updUpd_frame ..) (by decide) ?_
    assumption
    refine .step (activated_frame ..) (by decide) ?_
    refine .step (updUpd_frame ..) (by decide) ?_
    assumption
    refine .step (modemNext_frame ..) (by decide) ?_
    refine .step (updUpd_frame ..) (by decide) ?_
    assumption

theorem activationSwitch_frame (converts : Bool) (b : Block) :
    Block.Only (Part.but [.tide, .snaps, .barrier, .fab, .d2d, .cross, .met, .acc, .pq, .sluCnt, .rcmTest, .legal, .backup, .bri, .hp, .dbg, .settings, .legalSet, .updRec, .kept, .prior]) b (activationSwitch converts b) := by
  unfold activationSwitch
  with_reducible
    split
    exact .refl _ _
    refine .ite _ ?_ ?_
    exact .refl _ _
    refine .ite _ ?_ ?_
    split
    refine .step (modemSwitched_frame ..) (by decide) ?_
    exact .refl _ _
    refine .step (modemNext_frame ..) (by decide) ?_
    exact .refl _ _
    refine .ite _ ?_ ?_
    refine .step (reverted_frame ..) (by decide) ?_
    exact .refl _ _
    refine .ite _ ?_ ?_
    refine .step (settingsReverted_frame ..) (by decide) ?_
    exact .refl _ _
    refine .step (activated_frame ..) (by decide) ?_
    exact .refl _ _

theorem modemDeferredSwitch_frame (n : Fin 16) (b : Block) :
    Block.Only [.upd] b (modemDeferredSwitch n b) := by
  unfold modemDeferredSwitch
  with_reducible
    split
    exact .refl _ _
    refine .ite _ ?_ ?_
    refine .step (updUpd_frame ..) (by decide) ?_
    exact .refl _ _
    exact .refl _ _

theorem beginRevert_frame (p : Pause) (b : Block) :
    Block.Only [.arb, .bri, .hic, .lsw, .mbx, .pea, .rpl, .rst, .saf, .safX, .upd] b (beginRevert p b) := by
  unfold beginRevert
  with_reducible
    refine .step (pauseStart_frame ..) (by decide) ?_
    refine .step (updUpd_frame ..) (by decide) ?_
    exact .refl _ _

theorem trialOver_frame (t : Fin 4) (b : Block) :
    Block.Only [.arb, .bri, .hic, .lsw, .mbx, .pea, .rpl, .rst, .saf, .safX, .upd] b (trialOver t b) := by
  unfold trialOver
  with_reducible
    refine .ite _ ?_ ?_
    refine .step (updUpd_frame ..) (by decide) ?_
    exact .refl _ _
    refine .step (beginRevert_frame ..) (by decide) ?_
    refine .step (updUpd_frame ..) (by decide) ?_
    exact .refl _ _

theorem trialExpired_frame (b : Block) :
    Block.Only [.arb, .bri, .hic, .lsw, .mbx, .pea, .prior, .rpl, .rst, .saf, .safX, .tide, .upd] b (trialExpired b) := by
  unfold trialExpired
  with_reducible
    split
    exact .refl _ _
    refine .ite _ ?_ ?_
    exact .refl _ _
    refine .ite _ ?_ ?_
    refine .step (trialOver_frame ..) (by decide) ?_
    exact .refl _ _
    refine .afterTicks (by decide) (by decide) (fun _ _ => ?_) ?_
    refine .step (trialOver_frame ..) (by decide) ?_
    assumption
    exact .refl _ _

theorem trialWarn_frame (b : Block) :
    Block.Only [.hic, .prior, .tide, .upd] b (trialWarn b) := by
  unfold trialWarn
  with_reducible
    refine .ite _ ?_ ?_
    refine .afterTicks (by decide) (by decide) (fun _ _ => ?_) ?_
    refine .step (irq_frame ..) (by decide) ?_
    refine .step (updUpd_frame ..) (by decide) ?_
    assumption
    exact .refl _ _
    exact .refl _ _

theorem trialTimeSave_frame (b : Block) :
    Block.Only [.arb, .hic, .pea, .prior, .tide, .upd] b (trialTimeSave b) := by
  unfold trialTimeSave
  with_reducible
    refine .ite _ ?_ ?_
    refine .afterTicks (by decide) (by decide) (fun _ _ => ?_) ?_
    refine .step (saveUpdate_frame ..) (by decide) ?_
    refine .step (updUpd_frame ..) (by decide) ?_
    assumption
    exact .refl _ _
    exact .refl _ _

theorem committed_frame (i m : Fin 4) (b : Block) :
    Block.Only [.arb, .hic, .mbx, .newSettings, .pea, .rpl, .settings, .upd] b (committed i m b) := by
  unfold committed
  with_reducible
    try lift_lets
    intro xx
    clear_value xx
    try lift_lets
    intro xx
    refine Block.Only.viaVar xx ?_ (fun _ => ?_) <;> [simp only [xx]; clear_value xx]
    refine .step (setSlot_frame ..) (by decide) ?_
    refine .step (setSlot_frame ..) (by decide) ?_
    exact .refl _ _
    refine .step (ok_frame ..) (by decide) ?_
    refine .step (irq_frame ..) (by decide) ?_
    refine .step (saveUpdate_frame ..) (by decide) ?_
    split
    refine .ite _ ?_ ?_
    refine .step (updPea_frame ..) (by decide) ?_
    refine .set_newSettings_settings ?_ _ _ (by decide) (by decide)
    refine .step (updUpd_frame ..) (by decide) ?_
    assumption
    refine .step (updUpd_frame ..) (by decide) ?_
    assumption
    refine .step (updUpd_frame ..) (by decide) ?_
    assumption

theorem commitStep_frame (b : Block) :
    Block.Only [.arb, .btn, .hic, .mbx, .newSettings, .pea, .rpl, .settings, .upd] b (commitStep b) := by
  unfold commitStep
  with_reducible
    split
    exact .refl _ _
    try lift_lets
    intro xx
    refine Block.Only.viaPair xx ?_ (fun _ => ?_) <;> [simp only [xx]; clear_value xx]
    refine .step (ctrIncrement_frame ..) (by decide) ?_
    exact .refl _ _
    refine .ite _ ?_ ?_
    exact .refl _ _
    refine .ite _ ?_ ?_
    split
    assumption
    refine .step (internalFail_frame ..) (by decide) ?_
    refine .step (updUpd_frame ..) (by decide) ?_
    exact .refl _ _
    refine .step (committed_frame ..) (by decide) ?_
    exact .refl _ _

theorem lineWriteDone_frame (c : LineCheck) (b : Block) :
    Block.Only (Part.but [.tide, .snaps, .barrier, .fab, .d2d, .cross, .met, .acc, .pq, .slu, .sluCnt, .mlk, .vehCfg, .v2g, .v2gCfg, .rcm, .rcmTest, .auth, .hp, .pnl, .frames, .nfc, .dbg, .kept, .prior]) b (lineWriteDone c b) := by
  unfold lineWriteDone
  with_reducible
    refine .step (commitStep_frame ..) (by decide) ?_
    refine .step (pauseStart_frame ..) (by decide) ?_
    refine .step (lineDone_frame ..) (by decide) ?_
    exact .refl _ _

theorem updGetStatus_frame (m : Fin 4) (b : Block) :
    Block.Only [.mbx, .rpl] b (updGetStatus m b) := by
  unfold updGetStatus
  with_reducible
    refine .step (ok_frame ..) (by decide) ?_
    exact .refl _ _

theorem updStage_frame (m : Fin 4) (b : Block) :
    Block.Only [.arb, .btn, .cwy, .cwyX, .dmp, .hic, .lau, .mbx, .qmg, .rpl, .upd] b (updStage m b) := by
  unfold updStage
  with_reducible
    try lift_lets
    intro xx
    clear_value xx
    refine .checked (by decide) (by decide) (fun _ _ => ?_) ?_
    refine .step (beginFetch_frame ..) (by decide) ?_
    refine .step (updUpd_frame ..) (by decide) ?_
    assumption
    exact .refl _ _

theorem updActivate_frame (m : Fin 4) (b : Block) :
    Block.Only [.arb, .hic, .key, .mbx, .pea, .rpl, .upd] b (updActivate m b) := by
  unfold updActivate
  with_reducible
    try lift_lets
    intro xx
    clear_value xx
    try lift_lets
    intro xx
    clear_value xx
    try lift_lets
    intro xx
    clear_value xx
    try lift_lets
    intro xx
    clear_value xx
    try lift_lets
    intro xx
    clear_value xx
    split
    refine .step (refuse_frame ..) (by decide) ?_
    refine .ite _ ?_ ?_
    refine .set_key ?_ _ (by decide)
    exact .refl _ _
    exact .refl _ _
    refine .step (saveUpdate_frame ..) (by decide) ?_
    refine .step (updUpd_frame ..) (by decide) ?_
    exact .refl _ _

theorem updCommit_frame (m : Fin 4) (b : Block) :
    Block.Only [.arb, .btn, .hic, .mbx, .newSettings, .pea, .rpl, .settings, .upd] b (updCommit m b) := by
  unfold updCommit
  with_reducible
    try lift_lets
    intro xx
    clear_value xx
    refine .checked (by decide) (by decide) (fun _ _ => ?_) ?_
    refine .step (commitStep_frame ..) (by decide) ?_
    refine .step (updUpd_frame ..) (by decide) ?_
    assumption
    exact .refl _ _

theorem updRevert_frame (m : Fin 4) (b : Block) :
    Block.Only [.arb, .bri, .hic, .lsw, .mbx, .pea, .rpl, .rst, .saf, .safX, .upd] b (updRevert m b) := by
  unfold updRevert
  with_reducible
    try lift_lets
    intro xx
    clear_value xx
    refine .checked (by decide) (by decide) (fun _ _ => ?_) ?_
    refine .step (beginRevert_frame ..) (by decide) ?_
    assumption
    exact .refl _ _

theorem updDiscard_frame (m : Fin 4) (b : Block) :
    Block.Only [.mbx, .rpl, .upd] b (updDiscard m b) := by
  unfold updDiscard
  with_reducible
    try lift_lets
    intro xx
    clear_value xx
    refine .checked (by decide) (by decide) (fun _ _ => ?_) ?_
    refine .step (ok_frame ..) (by decide) ?_
    refine .step (setSlot_frame ..) (by decide) ?_
    refine .step (updUpd_frame ..) (by decide) ?_
    assumption
    exact .refl _ _

theorem updSetConfig_frame (m : Fin 4) (b : Block) :
    Block.Only [.arb, .hic, .mbx, .pea, .rpl, .upd] b (updSetConfig m b) := by
  unfold updSetConfig
  with_reducible
    try lift_lets
    intro xx
    clear_value xx
    refine .checked (by decide) (by decide) (fun _ _ => ?_) ?_
    refine .step (saveSettings_frame ..) (by decide) ?_
    refine .step (ok_frame ..) (by decide) ?_
    refine .step (updUpd_frame ..) (by decide) ?_
    assumption
    exact .refl _ _

theorem updGetManifest_frame (m : Fin 4) (b : Block) :
    Block.Only [.mbx, .rpl] b (updGetManifest m b) := by
  unfold updGetManifest
  with_reducible
    try lift_lets
    intro xx
    clear_value xx
    refine .checked (by decide) (by decide) (fun _ _ => ?_) ?_
    refine .step (ok_frame ..) (by decide) ?_
    assumption
    exact .refl _ _

theorem coreAgain_frame (c : CoreId) (bad : U16) (b : Block) :
    Block.Only (Part.but [.tide, .snaps, .barrier, .fab, .d2d, .cross, .met, .acc, .pq, .slu, .sluCnt, .vehCfg, .v2gCfg, .rcm, .rcmTest, .pf, .backup, .hp, .pnl, .frames, .nfc, .upd, .dbg, .settings, .newSettings, .legalSet, .updRec, .kept, .prior]) b (coreAgain c bad b) := by
  unfold coreAgain
  with_reducible
    try lift_lets
    intro xx
    refine Block.Only.viaVar xx ?_ (fun _ => ?_) <;> [simp only [xx]; clear_value xx]
    refine .step (requesterMask_frame ..) (by decide) ?_
    refine .step (updRst_frame ..) (by decide) ?_
    exact .refl _ _
    split
    refine .step (driveFeed_frame ..) (by decide) ?_
    refine .forAll (fun _ _ _ => ?_) _ ?_
    refine .step (pilotReview_frame ..) (by decide) ?_
    assumption
    refine .step (reviewHub_frame ..) (by decide) ?_
    refine .forAll (fun _ _ _ => ?_) _ ?_
    refine .step (deviceFault_frame ..) (by decide) ?_
    assumption
    assumption
    refine .step (replan_frame ..) (by decide) ?_
    refine .step (requesterMask_frame ..) (by decide) ?_
    refine .step (updRst_frame ..) (by decide) ?_
    exact .refl _ _
    refine .step (reviewHub_frame ..) (by decide) ?_
    refine .step (updSaf_frame ..) (by decide) ?_
    refine .step (updRst_frame ..) (by decide) ?_
    exact .refl _ _
    refine .ite _ ?_ ?_
    refine .step (updPlc_frame ..) (by decide) ?_
    exact .refl _ _
    exact .refl _ _

theorem coreRestartComplete_frame (c : CoreId) (bad : U16) (b : Block) :
    Block.Only (Part.but [.tide, .snaps, .barrier, .fab, .d2d, .cross, .met, .acc, .pq, .sluCnt, .rcmTest, .backup, .hp, .dbg, .settings, .legalSet, .updRec, .kept, .prior]) b (coreRestartComplete c bad b) := by
  unfold coreRestartComplete
  with_reducible
    try lift_lets
    intro xx
    clear_value xx
    try lift_lets
    intro xx
    refine Block.Only.viaVar xx ?_ (fun _ => ?_) <;> [simp only [xx]; clear_value xx]
    refine .step (coreAgain_frame ..) (by decide) ?_
    exact .refl _ _
    refine .ite _ ?_ ?_
    exact .refl _ _
    refine .ite _ ?_ ?_
    split
    refine .step (beginRevert_frame ..) (by decide) ?_
    assumption
    refine .step (reverted_frame ..) (by decide) ?_
    assumption
    assumption

end Sys2Proof.Machine
end

