-- ==== Sys2Proof/Laws/FrameMetCommands.lean ====
section
/-! SUPPORT. Frames of the operations of Machine/MetCommands.lean: the units each of them may change. -/

namespace Sys2Proof.Machine

theorem sealClose_frame (how : U8) (b : Block) :
    Block.Only [.arb, .btn, .cwy, .cwyX, .dmp, .hic, .lau, .met, .pea, .qmg] b (sealClose how b) := by
  unfold sealClose
  with_reducible
    try lift_lets
    intro xx
    refine Block.Only.viaVar xx ?_ (fun _ => ?_) <;> [simp only [xx]; clear_value xx]
    refine .step (irq_frame ..) (by decide) ?_
    refine .step (legalLog_frame ..) (by decide) ?_
    exact .refl _ _
    refine .step (updMet_frame ..) (by decide) ?_
    refine .step (cancelEntries_frame ..) (by decide) ?_
    assumption

theorem metSealOpen_frame (m : Fin 4) (b : Block) :
    Block.Only [.arb, .btn, .hic, .key, .mbx, .met, .rpl] b (metSealOpen m b) := by
  unfold metSealOpen
  with_reducible
    try lift_lets
    intro xx
    refine Block.Only.viaPair xx ?_ (fun _ => ?_) <;> [simp only [xx]; clear_value xx]
    refine .step (authorise_frame ..) (by decide) ?_
    exact .refl _ _
    refine .ite _ ?_ ?_
    refine .step (refuse_frame ..) (by decide) ?_
    assumption
    refine .checked (by decide) (by decide) (fun _ _ => ?_) ?_
    refine .step (ok_frame ..) (by decide) ?_
    refine .step (irq_frame ..) (by decide) ?_
    refine .step (legalLog_frame ..) (by decide) ?_
    refine .step (updMet_frame ..) (by decide) ?_
    assumption
    assumption

theorem metSealClose_frame (m : Fin 4) (b : Block) :
    Block.Only [.arb, .btn, .cwy, .cwyX, .dmp, .hic, .lau, .mbx, .met, .pea, .qmg, .rpl] b (metSealClose m b) := by
  unfold metSealClose
  with_reducible
    refine .ite _ ?_ ?_
    refine .step (ok_frame ..) (by decide) ?_
    refine .step (sealClose_frame ..) (by decide) ?_
    exact .refl _ _
    refine .step (ok_frame ..) (by decide) ?_
    exact .refl _ _

theorem sealTimeout_frame (b : Block) :
    Block.Only [.arb, .btn, .cwy, .cwyX, .dmp, .hic, .lau, .met, .pea, .prior, .qmg, .tide] b (sealTimeout b) := by
  unfold sealTimeout
  with_reducible
    refine .ite _ ?_ ?_
    refine .afterTicks (by decide) (by decide) (fun _ _ => ?_) ?_
    refine .step (sealClose_frame ..) (by decide) ?_
    assumption
    exact .refl _ _
    exact .refl _ _

theorem metGetConfig_frame (m : Fin 4) (b : Block) :
    Block.Only [.mbx, .rpl] b (metGetConfig m b) := by
  unfold metGetConfig
  with_reducible
    refine .checked (by decide) (by decide) (fun _ _ => ?_) ?_
    try lift_lets
    intro xx
    clear_value xx
    refine .step (ok_frame ..) (by decide) ?_
    assumption
    exact .refl _ _

theorem metSetConfig_frame (m : Fin 4) (b : Block) :
    Block.Only [.arb, .hic, .mbx, .met, .pea, .rpl] b (metSetConfig m b) := by
  unfold metSetConfig
  with_reducible
    try lift_lets
    intro xx
    clear_value xx
    try lift_lets
    intro xx
    clear_value xx
    try lift_lets
    intro xx
    clear_value xx
    try lift_lets
    intro xx
    clear_value xx
    refine .checked (by decide) (by decide) (fun _ _ => ?_) ?_
    try lift_lets
    intro xx
    clear_value xx
    try lift_lets
    intro xx
    clear_value xx
    refine .step (ok_frame ..) (by decide) ?_
    refine .step (saveLegalConfig_frame ..) (by decide) ?_
    refine .step (updChan_frame ..) (by decide) ?_
    assumption
    exact .refl _ _

theorem metLoadTable_frame (m : Fin 4) (b : Block) :
    Block.Only [.mbx, .met, .rpl] b (metLoadTable m b) := by
  unfold metLoadTable
  with_reducible
    try lift_lets
    intro xx
    clear_value xx
    try lift_lets
    intro xx
    clear_value xx
    try lift_lets
    intro xx
    clear_value xx
    refine .checked (by decide) (by decide) (fun _ _ => ?_) ?_
    split
    refine .step (respond_frame ..) (by decide) ?_
    assumption
    refine .step (ok_frame ..) (by decide) ?_
    refine .step (updChan_frame ..) (by decide) ?_
    assumption
    exact .refl _ _

theorem metActivateTable_frame (m : Fin 4) (b : Block) :
    Block.Only [.arb, .btn, .cwy, .cwyX, .dmp, .hic, .lau, .mbx, .pea, .qmg, .rpl] b (metActivateTable m b) := by
  have hfold : ∀ (cs : List (Fin 48)) (f : Fin 48 → Entry) (l : List Part) (x : Block × Bool), ([.arb, .btn, .cwy, .cwyX, .dmp, .hic, .lau, .qmg] : List Part) ⊆ l → Block.Only l b x.1 →
      Block.Only l b (cs.foldl (fun (x : Block × Bool) c => ((submitEntry 4 513 (f c) x.1).1, x.2 && (submitEntry 4 513 (f c) x.1).2)) x).1 := by
    intro cs f l
    induction cs with
    | nil => intro x _ h; exact h
    | cons c cs ih => intro x hs h; exact ih _ hs (.step (submitEntry_frame _ _ _ _) hs h)
  unfold metActivateTable
  refine .checked (by decide) (by decide) (fun d hd => ?_) (.refl _ _)
  refine .ite _ (.step (ok_frame _ _ _) (by decide) hd) (.ite _ ?_ (.step (internalFail_frame _ _) (by decide) (.step (cancelEntries_frame _ _ _) (by decide) ?_)))
  · exact hfold _ _ _ _ (by decide) hd
  · exact hfold _ _ _ _ (by decide) hd

theorem metReadTable_frame (m : Fin 4) (b : Block) :
    Block.Only [.mbx, .rpl] b (metReadTable m b) := by
  unfold metReadTable
  with_reducible
    try lift_lets
    intro xx
    clear_value xx
    refine .checked (by decide) (by decide) (fun _ _ => ?_) ?_
    try lift_lets
    intro xx
    clear_value xx
    refine .step (ok_frame ..) (by decide) ?_
    assumption
    exact .refl _ _

theorem metSetRaw_frame (m : Fin 4) (b : Block) :
    Block.Only [.mbx, .met, .rpl] b (metSetRaw m b) := by
  unfold metSetRaw
  with_reducible
    refine .checked (by decide) (by decide) (fun _ _ => ?_) ?_
    try lift_lets
    intro xx
    clear_value xx
    refine .step (ok_frame ..) (by decide) ?_
    refine .forAll (fun _ _ _ => ?_) _ ?_
    refine .step (updChan_frame ..) (by decide) ?_
    assumption
    assumption
    exact .refl _ _

theorem metCalMeasure_frame (m : Fin 4) (b : Block) :
    Block.Only [.mbx, .met, .rpl] b (metCalMeasure m b) := by
  unfold metCalMeasure
  with_reducible
    try lift_lets
    intro xx
    clear_value xx
    try lift_lets
    intro xx
    clear_value xx
    try lift_lets
    intro xx
    clear_value xx
    refine .checked (by decide) (by decide) (fun _ _ => ?_) ?_
    refine .step (updMet_frame ..) (by decide) ?_
    assumption
    exact .refl _ _

theorem metFpEval_frame (m : Fin 4) (b : Block) :
    Block.Only [.mbx, .rpl] b (metFpEval m b) := by
  unfold metFpEval
  with_reducible
    try lift_lets
    intro xx
    clear_value xx
    try lift_lets
    intro xx
    clear_value xx
    try lift_lets
    intro xx
    clear_value xx
    try lift_lets
    intro (xx : _ → _)
    try lift_lets
    intro xx
    clear_value xx
    refine .checked (by decide) (by decide) (fun _ _ => ?_) ?_
    refine .step (ok_frame ..) (by decide) ?_
    assumption
    exact .refl _ _

theorem metClearCounts_frame (m : Fin 4) (b : Block) :
    Block.Only [.mbx, .met, .rpl] b (metClearCounts m b) := by
  unfold metClearCounts
  with_reducible
    refine .checked (by decide) (by decide) (fun _ _ => ?_) ?_
    refine .step (ok_frame ..) (by decide) ?_
    refine .forAll (fun _ _ _ => ?_) _ ?_
    refine .step (updChan_frame ..) (by decide) ?_
    assumption
    assumption
    exact .refl _ _

theorem metSetNoload_frame (m : Fin 4) (b : Block) :
    Block.Only [.acc, .arb, .hic, .mbx, .pea, .rpl] b (metSetNoload m b) := by
  unfold metSetNoload
  with_reducible
    try lift_lets
    intro xx
    clear_value xx
    try lift_lets
    intro xx
    clear_value xx
    try lift_lets
    intro xx
    clear_value xx
    try lift_lets
    intro xx
    clear_value xx
    try lift_lets
    intro xx
    clear_value xx
    refine .checked (by decide) (by decide) (fun _ _ => ?_) ?_
    try lift_lets
    intro xx
    clear_value xx
    refine .step (ok_frame ..) (by decide) ?_
    refine .step (saveLegalConfig_frame ..) (by decide) ?_
    refine .step (updPair_frame ..) (by decide) ?_
    assumption
    exact .refl _ _

theorem metSetUref_frame (m : Fin 4) (b : Block) :
    Block.Only [.acc, .arb, .hic, .mbx, .pea, .rpl] b (metSetUref m b) := by
  unfold metSetUref
  with_reducible
    try lift_lets
    intro xx
    clear_value xx
    try lift_lets
    intro xx
    clear_value xx
    refine .checked (by decide) (by decide) (fun _ _ => ?_) ?_
    try lift_lets
    intro xx
    clear_value xx
    refine .step (ok_frame ..) (by decide) ?_
    refine .step (saveLegalConfig_frame ..) (by decide) ?_
    refine .step (updPair_frame ..) (by decide) ?_
    assumption
    exact .refl _ _

theorem metPqConfig_frame (m : Fin 4) (b : Block) :
    Block.Only [.arb, .hic, .mbx, .pea, .pq, .rpl] b (metPqConfig m b) := by
  unfold metPqConfig
  with_reducible
    try lift_lets
    intro xx
    clear_value xx
    refine .checked (by decide) (by decide) (fun _ _ => ?_) ?_
    try lift_lets
    intro xx
    clear_value xx
    refine .step (ok_frame ..) (by decide) ?_
    refine .step (saveLegalConfig_frame ..) (by decide) ?_
    refine .step (updFeeder_frame ..) (by decide) ?_
    assumption
    exact .refl _ _

theorem metEnergyClearFlags_frame (m : Fin 4) (b : Block) :
    Block.Only [.acc, .arb, .btn, .mbx, .rpl] b (metEnergyClearFlags m b) := by
  unfold metEnergyClearFlags
  with_reducible
    try lift_lets
    intro xx
    clear_value xx
    try lift_lets
    intro (xx : _ → _)
    refine .checked (by decide) (by decide) (fun _ _ => ?_) ?_
    try lift_lets
    intro xx
    clear_value xx
    try lift_lets
    intro xx
    refine Block.Only.viaVar xx ?_ (fun _ => ?_) <;> [simp only [xx]; clear_value xx]
    refine .set_acc ?_ _ (by decide)
    assumption
    refine .step (ok_frame ..) (by decide) ?_
    refine .step (legalLog_frame ..) (by decide) ?_
    assumption
    exact .refl _ _

theorem metPqClearCounts_frame (m : Fin 4) (b : Block) :
    Block.Only [.mbx, .pq, .rpl] b (metPqClearCounts m b) := by
  unfold metPqClearCounts
  with_reducible
    try lift_lets
    intro xx
    clear_value xx
    refine .step (ok_frame ..) (by decide) ?_
    refine .set_pq ?_ _ (by decide)
    exact .refl _ _

end Sys2Proof.Machine
end

