-- ==== Sys2Proof/Laws/FrameWords.lean ====
section
/-! SUPPORT. Frames of the operations of Machine/Words.lean: the units each of them may change. -/

namespace Sys2Proof.Machine

theorem tidWrite_frame (a : Nat) (v : U32) (b : Block) :
    Block.Only [.barrier, .cross, .hic, .tide] b (tidWrite a v b) := by
  unfold tidWrite
  with_reducible
    try lift_lets
    intro xx
    clear_value xx
    refine .ite _ ?_ ?_
    refine .step (updTide_frame ..) (by decide) ?_
    exact .refl _ _
    refine .ite _ ?_ ?_
    refine crossSend_frame (by decide) (fun _ _ _ => ?_) ?_
    refine .step (setTrim_frame ..) (by decide) ?_
    assumption
    exact .refl _ _
    refine .ite _ ?_ ?_
    refine .step (setPps_frame ..) (by decide) ?_
    exact .refl _ _
    refine .ite _ ?_ ?_
    refine .set_barrier ?_ _ (by decide)
    exact .refl _ _
    exact .refl _ _

theorem energyCapture_frame (a : Nat) (b : Block) :
    Block.Only [.acc] b (energyCapture a b) := by
  unfold energyCapture
  with_reducible
    try lift_lets
    intro xx
    clear_value xx
    split
    dsimp (zetaDelta := true) only
    split
    exact .refl _ _
    refine .set_acc ?_ _ (by decide)
    exact .refl _ _
    split
    dsimp (zetaDelta := true) only
    split
    exact .refl _ _
    refine .set_acc ?_ _ (by decide)
    exact .refl _ _
    split
    dsimp (zetaDelta := true) only
    split
    exact .refl _ _
    refine .set_acc ?_ _ (by decide)
    exact .refl _ _
    split
    dsimp (zetaDelta := true) only
    split
    exact .refl _ _
    refine .set_acc ?_ _ (by decide)
    exact .refl _ _
    split
    dsimp (zetaDelta := true) only
    split
    exact .refl _ _
    refine .set_acc ?_ _ (by decide)
    exact .refl _ _
    dsimp (zetaDelta := true) only
    split
    exact .refl _ _
    exact .refl _ _

theorem metWrite_frame (a : Nat) (v : U32) (b : Block) :
    Block.Only [.met] b (metWrite a v b) := by
  unfold metWrite
  with_reducible
    refine .dite _ (fun _ => ?_) (fun _ => ?_)
    refine .step (updChan_frame ..) (by decide) ?_
    exact .refl _ _
    exact .refl _ _

theorem btnCapture_frame (a : Nat) (b : Block) :
    Block.Only [.btn] b (btnCapture a b) := by
  unfold btnCapture
  with_reducible
    try lift_lets
    intro xx
    clear_value xx
    split
    refine .set_btn ?_ _ (by decide)
    exact .refl _ _
    refine .set_btn ?_ _ (by decide)
    exact .refl _ _
    refine .set_btn ?_ _ (by decide)
    exact .refl _ _
    exact .refl _ _

end Sys2Proof.Machine
end

