-- ==== Sys2Proof/Laws/FrameRecorder.lean ====
section
/-! SUPPORT. Frames of the operations of Machine/Recorder.lean: the units each of them may change. -/

namespace Sys2Proof.Machine

theorem updBtn_frame (f : Bittern → Bittern) (b : Block) :
    Block.Only [.btn] b (updBtn f b) := by
  unfold updBtn
  with_reducible
    refine .set_btn ?_ _ (by decide)
    exact .refl _ _

theorem sendHeld_frame (u n : Nat) (b : Block) :
    Block.Only [.arb, .btn, .cwy, .cwyX, .dmp, .hic, .lau, .qmg] b (sendHeld u n b).1 := by
  unfold sendHeld
  with_reducible
    split
    refine .step (updBtn_frame ..) (by decide) ?_
    refine .ofPair (by assumption) ?_
    refine .step (qEnqueue_frame ..) (by decide) ?_
    exact .refl _ _
    refine .step (updBtn_frame ..) (by decide) ?_
    refine .ofPair (by assumption) ?_
    refine .step (qEnqueue_frame ..) (by decide) ?_
    exact .refl _ _
    refine .step (qFree_frame ..) (by decide) ?_
    refine .step (updBtn_frame ..) (by decide) ?_
    refine .ofPair (by assumption) ?_
    refine .step (qEnqueue_frame ..) (by decide) ?_
    exact .refl _ _

theorem sendNext_frame (b : Block) :
    Block.Only [.arb, .btn, .cwy, .cwyX, .dmp, .hic, .lau, .qmg] b (sendNext b).1 := by
  unfold sendNext
  with_reducible
    try lift_lets
    intro xx
    clear_value xx
    refine .iteFst _ ?_ ?_
    exact .refl _ _
    split
    refine .ofPair (by assumption) ?_
    refine .step (qAlloc_frame ..) (by decide) ?_
    exact .refl _ _
    refine .step (sendHeld_frame ..) (by decide) ?_
    refine .step (setBuf_frame ..) (by decide) ?_
    refine .ofPair (by assumption) ?_
    refine .step (qAlloc_frame ..) (by decide) ?_
    exact .refl _ _

theorem sendAll_frame  (y0 : Nat) (y1 : Block) :
    Block.Only [.arb, .btn, .cwy, .cwyX, .dmp, .hic, .lau, .qmg] y1 (sendAll y0 y1) := by
  fun_induction sendAll y0 y1
  with_reducible
    exact .refl _ _
    refine .trans ?_ (by assumption)
    refine .ofPair (by assumption) ?_
    refine .step (sendNext_frame ..) (by decide) ?_
    exact .refl _ _
    refine .ofPair (by assumption) ?_
    refine .step (sendNext_frame ..) (by decide) ?_
    exact .refl _ _

theorem notePending_frame (b : Block) :
    Block.Only [.btn] b (notePending b) := by
  unfold notePending
  with_reducible
    refine .step (updBtn_frame ..) (by decide) ?_
    exact .refl _ _

theorem oplogFlush_frame (b : Block) :
    Block.Only [.arb, .btn, .cwy, .cwyX, .dmp, .hic, .lau, .qmg] b (oplogFlush b) := by
  unfold oplogFlush
  with_reducible
    refine .ite _ ?_ ?_
    exact .refl _ _
    refine .step (notePending_frame ..) (by decide) ?_
    refine .step (sendAll_frame ..) (by decide) ?_
    refine .step (updBtn_frame ..) (by decide) ?_
    exact .refl _ _

theorem heldAgain_frame (b : Block) :
    Block.Only [.arb, .btn, .cwy, .cwyX, .dmp, .hic, .lau, .qmg] b (heldAgain b) := by
  unfold heldAgain
  with_reducible
    split
    exact .refl _ _
    refine .ite _ ?_ ?_
    exact .refl _ _
    refine .onlyIf _ (fun _ _ => ?_) ?_
    refine .step (oplogFlush_frame ..) (by decide) ?_
    assumption
    refine .step (sendHeld_frame ..) (by decide) ?_
    exact .refl _ _

theorem fullRequeue_frame (b : Block) :
    Block.Only [.arb, .btn, .cwy, .cwyX, .dmp, .hic, .lau, .prior, .qmg, .slt, .tide] b (fullRequeue b) := by
  unfold fullRequeue
  with_reducible
    split
    exact .refl _ _
    refine .atInstant (by decide) (by decide) (fun _ _ => ?_) ?_
    try lift_lets
    intro xx
    clear_value xx
    try lift_lets
    intro xx
    clear_value xx
    refine .onlyIf _ (fun _ _ => ?_) ?_
    refine .step (heldAgain_frame ..) (by decide) ?_
    assumption
    refine .onlyIf _ (fun _ _ => ?_) ?_
    refine .step (flushHeld_frame ..) (by decide) ?_
    assumption
    assumption
    exact .refl _ _

theorem btnRead_frame (m : Fin 4) (b : Block) :
    Block.Only [.mbx, .rpl] b (btnRead m b) := by
  unfold btnRead
  with_reducible
    try lift_lets
    intro xx
    clear_value xx
    try lift_lets
    intro xx
    clear_value xx
    try lift_lets
    intro xx
    clear_value xx
    refine .checked (by decide) (by decide) (fun _ _ => ?_) ?_
    refine .ite _ ?_ ?_
    refine .ite _ ?_ ?_
    assumption
    refine .step (ok_frame ..) (by decide) ?_
    assumption
    refine .step (ok_frame ..) (by decide) ?_
    assumption
    exact .refl _ _

theorem clearOp_frame (m : Fin 4) (challenge : List U8) (b : Block) :
    Block.Only [.arb, .btn, .hic, .mbx, .pea, .rpl] b (clearOp m challenge b) := by
  unfold clearOp
  with_reducible
    try lift_lets
    intro xx
    clear_value xx
    try lift_lets
    intro xx
    clear_value xx
    try lift_lets
    intro xx
    refine Block.Only.viaVar xx ?_ (fun _ => ?_) <;> [simp only [xx]; clear_value xx]
    refine .step (updBtn_frame ..) (by decide) ?_
    exact .refl _ _
    refine .step (ok_frame ..) (by decide) ?_
    refine .step (irq_frame ..) (by decide) ?_
    refine .step (stageOp_frame ..) (by decide) ?_
    assumption

theorem clearLegal_frame (m : Fin 4) (challenge : List U8) (b : Block) :
    Block.Only [.arb, .btn] b (clearLegal m challenge b) := by
  unfold clearLegal
  with_reducible
    try lift_lets
    intro xx
    clear_value xx
    try lift_lets
    intro xx
    clear_value xx
    try lift_lets
    intro xx
    refine Block.Only.viaVar xx ?_ (fun _ => ?_) <;> [simp only [xx]; clear_value xx]
    refine .step (updBtn_frame ..) (by decide) ?_
    exact .refl _ _
    refine .step (legalLog_frame ..) (by decide) ?_
    assumption

theorem btnClear_frame (m : Fin 4) (b : Block) :
    Block.Only [.arb, .btn, .hic, .key, .mbx, .pea, .rpl] b (btnClear m b) := by
  unfold btnClear
  with_reducible
    try lift_lets
    intro xx
    clear_value xx
    refine .checked (by decide) (by decide) (fun _ _ => ?_) ?_
    try lift_lets
    intro xx
    refine Block.Only.viaPair xx ?_ (fun _ => ?_) <;> [simp only [xx]; clear_value xx]
    refine .step (authorise_frame ..) (by decide) ?_
    assumption
    refine .ite _ ?_ ?_
    refine .step (refuse_frame ..) (by decide) ?_
    assumption
    refine .ite _ ?_ ?_
    refine .step (clearOp_frame ..) (by decide) ?_
    assumption
    refine .step (clearLegal_frame ..) (by decide) ?_
    assumption
    exact .refl _ _

theorem blankLines_frame (ls : List Nat) (b : Block) :
    Block.Only [.arb, .hic, .pea] b (blankLines ls b) := by
  unfold blankLines
  with_reducible
    refine .forAll (fun _ _ _ => ?_) _ ?_
    refine .step (peatRequest_frame ..) (by decide) ?_
    assumption
    exact .refl _ _

theorem clearStep_frame (b : Block) :
    Block.Only [.arb, .btn, .hic, .mbx, .pea, .rpl] b (clearStep b) := by
  unfold clearStep
  with_reducible
    split
    exact .refl _ _
    try lift_lets
    intro xx
    clear_value xx
    try lift_lets
    intro xx
    refine Block.Only.viaVar xx ?_ (fun _ => ?_) <;> [simp only [xx]; clear_value xx]
    refine .step (updBtn_frame ..) (by decide) ?_
    exact .refl _ _
    refine .ite _ ?_ ?_
    refine .step (ok_frame ..) (by decide) ?_
    refine .step (irq_frame ..) (by decide) ?_
    refine .step (blankLines_frame ..) (by decide) ?_
    assumption
    refine .ite _ ?_ ?_
    refine .step (internalFail_frame ..) (by decide) ?_
    refine .step (updBtn_frame ..) (by decide) ?_
    exact .refl _ _
    exact .refl _ _

theorem grantStep_frame (b : Block) :
    Block.Only [.dbg, .hic, .key] b (grantStep b) := by
  unfold grantStep
  split
  · exact .refl _ _
  · refine .ite _ (.step (irq_frame _ _) (by decide) <| .step (irq_frame _ _) (by decide) <| .step (clearWorking_frame _) (by decide) <| ?_) (.refl _ _)
    exact .set_key (.set_dbg (.refl _ _) _ (by decide)) _ (by decide)

theorem lineWritten_frame (c : LineCheck) (b : Block) :
    Block.Only (Part.but [.tide, .snaps, .barrier, .fab, .d2d, .cross, .met, .acc, .pq, .slu, .sluCnt, .mlk, .vehCfg, .v2g, .v2gCfg, .rcm, .rcmTest, .auth, .hp, .pnl, .frames, .nfc, .kept, .prior]) b (lineWritten c b) := by
  unfold lineWritten
  with_reducible
    refine .ite _ ?_ ?_
    exact .refl _ _
    refine .step (grantStep_frame ..) (by decide) ?_
    refine .step (clearStep_frame ..) (by decide) ?_
    refine .step (lineWriteDone_frame ..) (by decide) ?_
    exact .refl _ _

theorem btnSetConfig_frame (m : Fin 4) (b : Block) :
    Block.Only [.arb, .btn, .hic, .mbx, .pea, .rpl] b (btnSetConfig m b) := by
  unfold btnSetConfig
  with_reducible
    refine .checked (by decide) (by decide) (fun _ _ => ?_) ?_
    refine .step (ok_frame ..) (by decide) ?_
    refine .step (saveSettings_frame ..) (by decide) ?_
    refine .step (updBtn_frame ..) (by decide) ?_
    assumption
    exact .refl _ _

theorem btnGetStatus_frame (m : Fin 4) (b : Block) :
    Block.Only [.mbx, .rpl] b (btnGetStatus m b) := by
  unfold btnGetStatus
  with_reducible
    refine .step (ok_frame ..) (by decide) ?_
    exact .refl _ _

theorem btnClearCounts_frame (m : Fin 4) (b : Block) :
    Block.Only [.btn, .mbx, .rpl] b (btnClearCounts m b) := by
  unfold btnClearCounts
  with_reducible
    refine .step (ok_frame ..) (by decide) ?_
    refine .step (updBtn_frame ..) (by decide) ?_
    exact .refl _ _

end Sys2Proof.Machine
end

