-- ==== Sys2Proof/Laws/FrameRequests.lean ====
section
/-! SUPPORT. Frames of the operations of Machine/Requests.lean: the units each of them may change. -/

namespace Sys2Proof.Machine

theorem beginRequest_frame (s : Option ReqShape) (m : Fin 4) (b : Block) :
    Block.Only [.mbx, .rpl] b (beginRequest s m b) := by
  unfold beginRequest
  with_reducible
    try lift_lets
    intro xx
    clear_value xx
    try lift_lets
    intro xx
    refine Block.Only.viaVar xx ?_ (fun _ => ?_) <;> [simp only [xx]; clear_value xx]
    refine .step (setMbx_frame ..) (by decide) ?_
    exact .refl _ _
    split
    refine .step (refuse_frame ..) (by decide) ?_
    assumption
    refine .ite _ ?_ ?_
    refine .step (refuse_frame ..) (by decide) ?_
    assumption
    refine .ite _ ?_ ?_
    refine .step (refuse_frame ..) (by decide) ?_
    assumption
    assumption

theorem requestStart_frame (m : Fin 4) (b : Block) :
    Block.Only [.mbx, .prior, .rpl, .tide] b (requestStart m b) := by
  unfold requestStart
  with_reducible
    refine .ite _ ?_ ?_
    refine .atInstant (by decide) (by decide) (fun _ _ => ?_) ?_
    refine .step (beginRequest_frame ..) (by decide) ?_
    assumption
    exact .refl _ _
    refine .ite _ ?_ ?_
    refine .step (beginRequest_frame ..) (by decide) ?_
    exact .refl _ _
    exact .refl _ _

end Sys2Proof.Machine
end

