-- ==== Sys2Proof/Laws/FrameWindow.lean ====
section
/-! SUPPORT. Frames of the operations of Machine/Window.lean: the units each of them may change. -/

namespace Sys2Proof.Machine

theorem readEffect_frame (lag : Fin 49) (a : Nat) (b : Block) :
    Block.Only [.acc, .bri, .btn, .tide] b (readEffect lag a b) := by
  unfold readEffect
  with_reducible
    refine .ite _ ?_ ?_
    refine .step (updTide_frame ..) (by decide) ?_
    exact .refl _ _
    refine .ite _ ?_ ?_
    refine .step (energyCapture_frame ..) (by decide) ?_
    exact .refl _ _
    refine .ite _ ?_ ?_
    refine .step (briCapture_frame ..) (by decide) ?_
    exact .refl _ _
    refine .ite _ ?_ ?_
    refine .step (btnCapture_frame ..) (by decide) ?_
    exact .refl _ _
    exact .refl _ _

theorem readWords_frame (lag : Fin 49) (y0 : Nat) (y1 : Nat) (y2 : Block) :
    Block.Only [.acc, .bri, .btn, .hic, .hp, .tide] y2 (readWords lag y0 y1 y2).1 := by
  fun_induction readWords lag y0 y1 y2
  with_reducible
    exact .refl _ _
    refine .step (winErr_frame ..) (by decide) ?_
    exact .refl _ _
    refine .trans ?_ (by assumption)
    refine .step (readEffect_frame ..) (by decide) ?_
    exact .refl _ _

theorem readFrame_frame (addr : U16) (count : Nat) (lag : Fin 49) (b : Block) :
    Block.Only [.acc, .bri, .btn, .hic, .hp, .tide] b (readFrame addr count lag b) := by
  unfold readFrame
  with_reducible
    try lift_lets
    intro xx
    refine Block.Only.viaPair xx ?_ (fun _ => ?_) <;> [simp only [xx]; clear_value xx]
    refine .step (readWords_frame ..) (by decide) ?_
    exact .refl _ _
    refine .ite _ ?_ ?_
    exact .refl _ _
    refine .ite _ ?_ ?_
    refine .set_hp ?_ _ (by decide)
    exact .refl _ _
    refine .set_hp ?_ _ (by decide)
    assumption

theorem hostItem_frame (kind : U8) (a : Nat) (words : List U32) (b : Block) :
    Block.Only [.rpl] b (hostItem kind a words b) := by
  unfold hostItem
  with_reducible
    refine .step (traceItem_frame ..) (by decide) ?_
    exact .refl _ _

theorem wholeRead_frame (addr : U16) (count : Nat) (lag : Fin 49) (b : Block) :
    Block.Only [.acc, .bri, .btn, .hic, .hp, .rpl, .tide] b (wholeRead addr count lag b) := by
  unfold wholeRead
  with_reducible
    try lift_lets
    intro xx
    refine Block.Only.viaVar xx ?_ (fun _ => ?_) <;> [simp only [xx]; clear_value xx]
    refine .step (readFrame_frame ..) (by decide) ?_
    exact .refl _ _
    split
    refine .ite _ ?_ ?_
    refine .step (hostItem_frame ..) (by decide) ?_
    refine .step (hicClaim_frame ..) (by decide) ?_
    assumption
    assumption
    assumption

theorem captureRead_frame (addr : U16) (b : Block) :
    Block.Only [.acc, .bri, .btn, .hic, .hp, .rpl, .tide] b (captureRead addr b) := by
  unfold captureRead
  with_reducible
    refine .ite _ ?_ ?_
    refine .step (wholeRead_frame ..) (by decide) ?_
    exact .refl _ _
    exact .refl _ _

theorem rplStop_frame (b : Block) :
    Block.Only [.hic, .rpl] b (rplStop b) := by
  unfold rplStop
  with_reducible
    refine .ite _ ?_ ?_
    refine .step (replayEnd_frame ..) (by decide) ?_
    exact .refl _ _
    refine .step (recordEnd_frame ..) (by decide) ?_
    exact .refl _ _

theorem requestWrite_frame (m : Fin 4) (a : Nat) (v : U32) (b : Block) :
    Block.Only [.mbx] b (requestWrite m a v b) := by
  unfold requestWrite
  with_reducible
    try lift_lets
    intro xx
    clear_value xx
    refine .step (setMbx_frame ..) (by decide) ?_
    exact .refl _ _

theorem writeLow_frame (a : Nat) (v : U32) (b : Block) :
    Block.Only [.hic, .hp, .mbx, .rpl, .rst, .upd] b (writeLow a v b) := by
  unfold writeLow
  with_reducible
    try lift_lets
    intro xx
    clear_value xx
    refine .ite _ ?_ ?_
    refine .set_hp ?_ _ (by decide)
    exact .refl _ _
    refine .ite _ ?_ ?_
    refine .set_hp ?_ _ (by decide)
    exact .refl _ _
    refine .ite _ ?_ ?_
    refine .step (rstWrite_frame ..) (by decide) ?_
    exact .refl _ _
    refine .dite _ (fun _ => ?_) (fun _ => ?_)
    try lift_lets
    intro xx
    clear_value xx
    try lift_lets
    intro xx
    clear_value xx
    refine .step (setMbx_frame ..) (by decide) ?_
    exact .refl _ _
    refine .dite _ (fun _ => ?_) (fun _ => ?_)
    refine .step (doorbellWrite_frame ..) (by decide) ?_
    exact .refl _ _
    exact .refl _ _

theorem writeWord_frame (a : Nat) (v : U32) (b : Block) :
    Block.Only [.barrier, .cross, .dbg, .hic, .hp, .imd, .mbx, .met, .mlk, .rcm, .rpl, .rst, .slu, .tide, .upd, .veh] b (writeWord a v b) := by
  unfold writeWord
  with_reducible
    try lift_lets
    intro xx
    clear_value xx
    split
    refine .step (requestWrite_frame ..) (by decide) ?_
    exact .refl _ _
    refine .ite _ ?_ ?_
    refine .step (writeLow_frame ..) (by decide) ?_
    exact .refl _ _
    refine .ite _ ?_ ?_
    refine .step (hicWrite_frame ..) (by decide) ?_
    exact .refl _ _
    refine .ite _ ?_ ?_
    refine .step (tidWrite_frame ..) (by decide) ?_
    exact .refl _ _
    refine .ite _ ?_ ?_
    refine .step (metWrite_frame ..) (by decide) ?_
    exact .refl _ _
    refine .ite _ ?_ ?_
    refine .step (sluWrite_frame ..) (by decide) ?_
    exact .refl _ _
    refine .ite _ ?_ ?_
    refine .step (mlkWrite_frame ..) (by decide) ?_
    exact .refl _ _
    refine .ite _ ?_ ?_
    refine .step (vehWrite_frame ..) (by decide) ?_
    exact .refl _ _
    refine .ite _ ?_ ?_
    refine .step (imdWrite_frame ..) (by decide) ?_
    exact .refl _ _
    refine .ite _ ?_ ?_
    refine .set_dbg ?_ _ (by decide)
    exact .refl _ _
    refine .ite _ ?_ ?_
    refine .onlyIf _ (fun _ _ => ?_) ?_
    refine .step (rplStop_frame ..) (by decide) ?_
    assumption
    exact .refl _ _
    exact .refl _ _

theorem commitWords_frame (l : List (Nat × U32)) (b : Block) :
    Block.Only [.barrier, .cross, .dbg, .hic, .hp, .imd, .mbx, .met, .mlk, .rcm, .rpl, .rst, .slu, .tide, .upd, .veh] b (commitWords l b) := by
  unfold commitWords
  with_reducible
    refine .forAll (fun _ _ _ => ?_) _ ?_
    refine .step (writeWord_frame ..) (by decide) ?_
    assumption
    exact .refl _ _

theorem writeFrame_frame (real crc : Bool) (a : Nat) (words : List U32) (b : Block) :
    Block.Only [.barrier, .cross, .dbg, .hic, .hp, .imd, .mbx, .met, .mlk, .rcm, .rpl, .rst, .slu, .tide, .upd, .veh] b (writeFrame real crc a words b) := by
  unfold writeFrame
  with_reducible
    try lift_lets
    intro xx
    clear_value xx
    try lift_lets
    intro xx
    clear_value xx
    try lift_lets
    intro xx
    refine Block.Only.viaVar xx ?_ (fun _ => ?_) <;> [simp only [xx]; clear_value xx]
    refine .step (hostItem_frame ..) (by decide) ?_
    refine .set_hp ?_ _ (by decide)
    exact .refl _ _
    split
    refine .step (winErr_frame ..) (by decide) ?_
    exact .refl _ _
    refine .step (commitWords_frame ..) (by decide) ?_
    assumption

theorem registerWrite_frame (addr : U16) (words : List U32) (crc : Option U8) (b : Block) :
    Block.Only [.barrier, .cross, .dbg, .hic, .hp, .imd, .mbx, .met, .mlk, .rcm, .rpl, .rst, .slu, .tide, .upd, .veh] b (registerWrite addr words crc b) := by
  unfold registerWrite
  with_reducible
    refine .ite _ ?_ ?_
    exact .refl _ _
    split
    refine .ite _ ?_ ?_
    refine .step (spiErr_frame ..) (by decide) ?_
    exact .refl _ _
    refine .step (writeFrame_frame ..) (by decide) ?_
    exact .refl _ _
    refine .ite _ ?_ ?_
    refine .step (spiErr_frame ..) (by decide) ?_
    exact .refl _ _
    refine .ite _ ?_ ?_
    refine .step (spiErr_frame ..) (by decide) ?_
    exact .refl _ _
    refine .step (writeFrame_frame ..) (by decide) ?_
    exact .refl _ _

theorem completeWrite_frame (p : Fin 4) (v : U32) (b : Block) :
    Block.Only [.barrier, .cross, .dbg, .hic, .hp, .imd, .mbx, .met, .mlk, .rcm, .rpl, .rst, .slu, .tide, .upd, .veh] b (completeWrite p v b) := by
  unfold completeWrite
  with_reducible
    refine .step (registerWrite_frame ..) (by decide) ?_
    exact .refl _ _

theorem stopWrite_frame (b : Block) :
    Block.Only [.barrier, .cross, .dbg, .hic, .hp, .imd, .mbx, .met, .mlk, .rcm, .rpl, .rst, .slu, .tide, .upd, .veh] b (stopWrite b) := by
  unfold stopWrite
  with_reducible
    refine .step (registerWrite_frame ..) (by decide) ?_
    exact .refl _ _

theorem badFrame_frame (f : HostFrame) (b : Block) :
    Block.Only [.acc, .barrier, .bri, .btn, .cross, .dbg, .hic, .hp, .imd, .mbx, .met, .mlk, .rcm, .rpl, .rst, .slu, .tide, .upd, .veh] b (badFrame f b) := by
  unfold badFrame
  with_reducible
    refine .ite _ ?_ ?_
    exact .refl _ _
    split
    refine .step (wholeRead_frame ..) (by decide) ?_
    exact .refl _ _
    refine .step (spiErr_frame ..) (by decide) ?_
    refine .step (readFrame_frame ..) (by decide) ?_
    exact .refl _ _
    refine .step (registerWrite_frame ..) (by decide) ?_
    exact .refl _ _
    refine .step (spiErr_frame ..) (by decide) ?_
    exact .refl _ _

end Sys2Proof.Machine
end

