-- ==== Sys2Proof/Laws/FrameReplay.lean ====
section
/-! SUPPORT. Frames of the operations of Machine/Replay.lean: the units each of them may change. -/

namespace Sys2Proof.Machine

theorem traceSend_frame (b : Block) :
    Block.Only [.arb, .btn, .cwy, .cwyX, .dmp, .hic, .lau, .qmg, .rpl] b (traceSend b).1 := by
  unfold traceSend
  with_reducible
    try lift_lets
    intro xx
    clear_value xx
    split
    refine .step (updRpl_frame ..) (by decide) ?_
    refine .ofPair (by assumption) ?_
    refine .step (sendRecord_frame ..) (by decide) ?_
    exact .refl _ _
    refine .ofPair (by assumption) ?_
    refine .step (sendRecord_frame ..) (by decide) ?_
    exact .refl _ _

theorem traceAux_frame  (y0 : Nat) (y1 : Block) :
    Block.Only [.arb, .btn, .cwy, .cwyX, .dmp, .hic, .lau, .qmg, .rpl] y1 (traceAux y0 y1) := by
  fun_induction traceAux y0 y1
  with_reducible
    exact .refl _ _
    exact .refl _ _
    refine .trans ?_ (by assumption)
    refine .ofPair (by assumption) ?_
    refine .step (traceSend_frame ..) (by decide) ?_
    exact .refl _ _
    refine .ofPair (by assumption) ?_
    refine .step (traceSend_frame ..) (by decide) ?_
    exact .refl _ _

theorem traceFlush_frame (b : Block) :
    Block.Only [.arb, .btn, .cwy, .cwyX, .dmp, .hic, .lau, .qmg, .rpl] b (traceFlush b) := by
  unfold traceFlush
  with_reducible
    try lift_lets
    intro xx
    refine Block.Only.viaVar xx ?_ (fun _ => ?_) <;> [simp only [xx]; clear_value xx]
    refine .ite _ ?_ ?_
    refine .step (settleItems_frame ..) (by decide) ?_
    exact .refl _ _
    exact .refl _ _
    refine .ite _ ?_ ?_
    assumption
    refine .step (traceAux_frame ..) (by decide) ?_
    assumption

theorem traceOverflow_frame (b : Block) :
    Block.Only [.arb, .btn, .cwy, .cwyX, .dmp, .hic, .lau, .qmg, .rpl] b (traceOverflow b) := by
  unfold traceOverflow
  with_reducible
    try lift_lets
    intro xx
    refine Block.Only.viaVar xx ?_ (fun _ => ?_) <;> [simp only [xx]; clear_value xx]
    refine .step (traceFlush_frame ..) (by decide) ?_
    exact .refl _ _
    refine .ite _ ?_ ?_
    refine .step (recordEnd_frame ..) (by decide) ?_
    assumption
    assumption

theorem baseAccept_frame (i : List U8) (b : Block) :
    Block.Only [.pea, .rpl] b (baseAccept i b) := by
  unfold baseAccept
  with_reducible
    try lift_lets
    intro xx
    clear_value xx
    try lift_lets
    intro xx
    clear_value xx
    try lift_lets
    intro xx
    refine Block.Only.viaVar xx ?_ (fun _ => ?_) <;> [simp only [xx]; clear_value xx]
    refine .ite _ ?_ ?_
    refine .set_pea ?_ _ (by decide)
    exact .refl _ _
    exact .refl _ _
    refine .ite _ ?_ ?_
    refine .step (updRpl_frame ..) (by decide) ?_
    assumption
    assumption

theorem noteLead_frame (stamp : U64) (b : Block) :
    Block.Only [.rpl] b (noteLead stamp b) := by
  unfold noteLead
  with_reducible
    try lift_lets
    intro xx
    clear_value xx
    refine .step (updRpl_frame ..) (by decide) ?_
    exact .refl _ _

theorem itemAccept_frame (i : List U8) (b : Block) :
    Block.Only [.hic, .pea, .rpl] b (itemAccept i b) := by
  unfold itemAccept
  with_reducible
    try lift_lets
    intro xx
    refine Block.Only.viaVar xx ?_ (fun _ => ?_) <;> [simp only [xx]; clear_value xx]
    refine .step (updRpl_frame ..) (by decide) ?_
    exact .refl _ _
    split
    refine .step (updRpl_frame ..) (by decide) ?_
    assumption
    refine .step (baseAccept_frame ..) (by decide) ?_
    assumption
    refine .ite _ ?_ ?_
    refine .step (replayEnd_frame ..) (by decide) ?_
    assumption
    refine .ite _ ?_ ?_
    refine .step (updRpl_frame ..) (by decide) ?_
    refine .step (noteLead_frame ..) (by decide) ?_
    refine .step (updRpl_frame ..) (by decide) ?_
    assumption
    refine .step (updRpl_frame ..) (by decide) ?_
    refine .step (noteLead_frame ..) (by decide) ?_
    refine .step (updRpl_frame ..) (by decide) ?_
    assumption

theorem acceptAux_frame  (y0 : Nat) (y1 : Block) :
    Block.Only [.hic, .pea, .rpl] y1 (acceptAux y0 y1) := by
  fun_induction acceptAux y0 y1
  with_reducible
    exact .refl _ _
    exact .refl _ _
    exact .refl _ _
    refine .trans ?_ (by assumption)
    refine .step (itemAccept_frame ..) (by decide) ?_
    refine .step (updRpl_frame ..) (by decide) ?_
    exact .refl _ _

theorem presentMet_frame (p : List U8) (b : Block) :
    Block.Only (Part.but [.snaps, .barrier, .fab, .d2d, .cross, .slu, .sluCnt, .vehCfg, .v2g, .v2gCfg, .rcm, .rcmTest, .pf, .auth, .backup, .mbx, .hp, .pnl, .frames, .nfc, .rst, .upd, .dbg, .settings, .newSettings, .legalSet, .updRec, .kept]) b (presentMet p b) := by
  unfold presentMet
  with_reducible
    try lift_lets
    intro xx
    clear_value xx
    try lift_lets
    intro xx
    refine Block.Only.viaVar xx ?_ (fun _ => ?_) <;> [simp only [xx]; clear_value xx]
    refine .forAll (fun _ _ _ => ?_) _ ?_
    refine .ite _ ?_ ?_
    refine .step (modulatorFault_frame ..) (by decide) ?_
    assumption
    refine .step (modulatorFaultClear_frame ..) (by decide) ?_
    assumption
    exact .refl _ _
    refine .step (sampleInstant_frame ..) (by decide) ?_
    assumption

theorem presentMlk_frame (p : List U8) (b : Block) :
    Block.Only (Part.but [.snaps, .barrier, .fab, .d2d, .cross, .met, .acc, .pq, .slu, .sluCnt, .vehCfg, .v2g, .v2gCfg, .rcm, .rcmTest, .pf, .auth, .backup, .mbx, .hp, .pnl, .frames, .nfc, .rst, .upd, .rpl, .dbg, .settings, .newSettings, .legalSet, .updRec, .kept]) b (presentMlk p b) := by
  unfold presentMlk
  with_reducible
    try lift_lets
    intro xx
    clear_value xx
    refine .forAll (fun _ _ _ => ?_) _ ?_
    refine .step (uplinkSlot_frame ..) (by decide) ?_
    assumption
    exact .refl _ _

theorem presentSafety_frame (p : List U8) (b : Block) :
    Block.Only (Part.but [.snaps, .barrier, .fab, .d2d, .cross, .met, .acc, .pq, .slu, .sluCnt, .vehCfg, .v2g, .v2gCfg, .rcm, .rcmTest, .pf, .auth, .backup, .mbx, .hp, .pnl, .frames, .nfc, .rst, .upd, .rpl, .dbg, .settings, .newSettings, .legalSet, .updRec, .kept]) b (presentSafety p b) := by
  unfold presentSafety
  with_reducible
    try lift_lets
    intro xx
    refine Block.Only.viaVar xx ?_ (fun _ => ?_) <;> [simp only [xx]; clear_value xx]
    refine .forAll (fun _ _ _ => ?_) _ ?_
    refine .step (updNode_frame ..) (by decide) ?_
    assumption
    exact .refl _ _
    refine .forAll (fun _ _ _ => ?_) _ ?_
    refine .ite _ ?_ ?_
    assumption
    refine .ite _ ?_ ?_
    refine .step (safetyInputClose_frame ..) (by decide) ?_
    assumption
    refine .step (safetyInputOpen_frame ..) (by decide) ?_
    assumption
    assumption

theorem presentHost_frame (p : List U8) (b : Block) :
    Block.Only [.barrier, .cross, .dbg, .hic, .hp, .imd, .mbx, .met, .mlk, .rcm, .rpl, .rst, .slu, .tide, .upd, .veh] b (presentHost p b) := by
  unfold presentHost
  with_reducible
    try lift_lets
    intro xx
    clear_value xx
    try lift_lets
    intro xx
    clear_value xx
    try lift_lets
    intro xx
    clear_value xx
    refine .ite _ ?_ ?_
    refine .step (commitWords_frame ..) (by decide) ?_
    refine .set_hp ?_ _ (by decide)
    exact .refl _ _
    split
    refine .step (hicClaim_frame ..) (by decide) ?_
    exact .refl _ _
    exact .refl _ _

theorem presentRecord_frame (l : List U8) (b : Block) :
    Block.Only [.arb, .btn, .cwy, .cwyX, .dmp, .hic, .lau, .qmg, .rpl] b (presentRecord l b) := by
  unfold presentRecord
  with_reducible
    dsimp (zetaDelta := true) only
    split
    refine .step (judgeRecord_frame ..) (by decide) ?_
    refine .step (setBuf_frame ..) (by decide) ?_
    refine .ofPair (by assumption) ?_
    refine .step (qAlloc_frame ..) (by decide) ?_
    exact .refl _ _
    refine .ofPair (by assumption) ?_
    refine .step (qAlloc_frame ..) (by decide) ?_
    exact .refl _ _

theorem presentBackup_frame (p : List U8) (b : Block) :
    Block.Only [.arb, .backup, .btn, .hic, .pea, .rpl, .slt] b (presentBackup p b) := by
  unfold presentBackup
  with_reducible
    refine .step (tamperMove_frame ..) (by decide) ?_
    refine .step (updBackup_frame ..) (by decide) ?_
    exact .refl _ _

theorem presentPower_frame (p : List U8) (b : Block) :
    Block.Only (Part.but [.tide, .snaps, .barrier, .fab, .d2d, .cross, .met, .acc, .slu, .sluCnt, .vehCfg, .v2gCfg, .rcm, .rcmTest, .backup, .hp, .pnl, .frames, .nfc, .dbg, .settings, .newSettings, .legalSet, .updRec, .kept, .prior]) b (presentPower p b) := by
  unfold presentPower
  with_reducible
    try lift_lets
    intro xx
    clear_value xx
    try lift_lets
    intro xx
    refine Block.Only.viaVar xx ?_ (fun _ => ?_) <;> [simp only [xx]; clear_value xx]
    refine .set_lsw ?_ _ (by decide)
    exact .refl _ _
    refine .onlyIf _ (fun _ _ => ?_) ?_
    refine .step (powerFailCleared_frame ..) (by decide) ?_
    assumption
    refine .onlyIf _ (fun _ _ => ?_) ?_
    refine .step (powerFailWarning_frame ..) (by decide) ?_
    assumption
    assumption

theorem itemPresent_frame (i : List U8) (b : Block) :
    Block.Only (Part.but [.snaps, .fab, .sluCnt, .vehCfg, .v2gCfg, .rcmTest, .pnl, .frames, .nfc, .kept]) b (itemPresent i b) := by
  unfold itemPresent
  with_reducible
    try lift_lets
    intro xx
    clear_value xx
    try lift_lets
    intro xx
    clear_value xx
    split
    refine .step (presentMet_frame ..) (by decide) ?_
    exact .refl _ _
    refine .step (presentMlk_frame ..) (by decide) ?_
    exact .refl _ _
    refine .set_d2d ?_ _ (by decide)
    exact .refl _ _
    refine .step (presentSafety_frame ..) (by decide) ?_
    exact .refl _ _
    refine .step (presentHost_frame ..) (by decide) ?_
    exact .refl _ _
    refine .step (presentRecord_frame ..) (by decide) ?_
    exact .refl _ _
    refine .step (presentBackup_frame ..) (by decide) ?_
    exact .refl _ _
    refine .step (lineWritten_frame ..) (by decide) ?_
    exact .refl _ _
    refine .step (presentPower_frame ..) (by decide) ?_
    exact .refl _ _
    refine .step (updRpl_frame ..) (by decide) ?_
    exact .refl _ _
    refine .step (replayEnd_frame ..) (by decide) ?_
    exact .refl _ _
    refine .step (updRpl_frame ..) (by decide) ?_
    exact .refl _ _
    exact .refl _ _

theorem checkCompare_frame (b : Block) :
    Block.Only [.hic, .rpl] b (checkCompare b) := by
  unfold checkCompare
  with_reducible
    try lift_lets
    intro (xx : _ → _)
    split
    refine .step (replayEnd_frame ..) (by decide) ?_
    refine .step (updRpl_frame ..) (by decide) ?_
    exact .refl _ _
    refine .step (updRpl_frame ..) (by decide) ?_
    exact .refl _ _

theorem presentAux_frame  (y0 : Nat) (y1 : Block) :
    Block.Only (Part.but [.snaps, .fab, .sluCnt, .vehCfg, .v2gCfg, .rcmTest, .pnl, .frames, .nfc, .kept]) y1 (presentAux y0 y1) := by
  fun_induction presentAux y0 y1
  with_reducible
    exact .refl _ _
    exact .refl _ _
    exact .refl _ _
    refine .trans ?_ (by assumption)
    refine .step (itemPresent_frame ..) (by decide) ?_
    refine .step (updRpl_frame ..) (by decide) ?_
    exact .refl _ _
    exact .refl _ _

theorem presentDue_frame (b : Block) :
    Block.Only (Part.but [.snaps, .fab, .sluCnt, .vehCfg, .v2gCfg, .rcmTest, .pnl, .frames, .nfc, .kept]) b (presentDue b) := by
  unfold presentDue
  with_reducible
    refine .ite _ ?_ ?_
    refine .step (checkCompare_frame ..) (by decide) ?_
    refine .step (presentAux_frame ..) (by decide) ?_
    exact .refl _ _
    exact .refl _ _

theorem traceIn_frame (b : Block) :
    Block.Only (Part.but [.snaps, .fab, .sluCnt, .vehCfg, .v2gCfg, .rcmTest, .pnl, .frames, .nfc, .kept]) b (traceIn b) := by
  unfold traceIn
  with_reducible
    refine .ite _ ?_ ?_
    exact .refl _ _
    split
    refine .ofPair (by assumption) ?_
    refine .step (qDequeue_frame ..) (by decide) ?_
    exact .refl _ _
    try lift_lets
    intro xx
    clear_value xx
    try lift_lets
    intro xx
    refine Block.Only.viaVar xx ?_ (fun _ => ?_) <;> [simp only [xx]; clear_value xx]
    refine .step (qFree_frame ..) (by decide) ?_
    refine .ofPair (by assumption) ?_
    refine .step (qDequeue_frame ..) (by decide) ?_
    exact .refl _ _
    refine .step (presentDue_frame ..) (by decide) ?_
    refine .step (acceptAux_frame ..) (by decide) ?_
    refine .ite _ ?_ ?_
    refine .step (updRpl_frame ..) (by decide) ?_
    assumption
    assumption

theorem replayStarved_frame (b : Block) :
    Block.Only [.hic, .rpl] b (replayStarved b) := by
  unfold replayStarved
  with_reducible
    refine .ite _ ?_ ?_
    refine .step (replayEnd_frame ..) (by decide) ?_
    exact .refl _ _
    exact .refl _ _

theorem recArm_frame (m : Fin 4) (b : Block) :
    Block.Only [.arb, .hic, .mbx, .pea, .rpl] b (recArm m b) := by
  unfold recArm
  with_reducible
    try lift_lets
    intro xx
    clear_value xx
    refine .checked (by decide) (by decide) (fun _ _ => ?_) ?_
    try lift_lets
    intro xx
    refine Block.Only.viaVar xx ?_ (fun _ => ?_) <;> [simp only [xx]; clear_value xx]
    refine .step (updRpl_frame ..) (by decide) ?_
    assumption
    refine .step (ok_frame ..) (by decide) ?_
    refine .step (saveSettings_frame ..) (by decide) ?_
    refine .ite _ ?_ ?_
    refine .step (updRpl_frame ..) (by decide) ?_
    assumption
    refine .step (recordEnd_frame ..) (by decide) ?_
    refine .step (updRpl_frame ..) (by decide) ?_
    assumption
    exact .refl _ _

theorem rplArm_frame (m : Fin 4) (b : Block) :
    Block.Only [.arb, .btn, .hic, .key, .mbx, .rpl, .rst] b (rplArm m b) := by
  unfold rplArm
  with_reducible
    try lift_lets
    intro xx
    clear_value xx
    refine .checked (by decide) (by decide) (fun _ _ => ?_) ?_
    try lift_lets
    intro xx
    refine Block.Only.viaPair xx ?_ (fun _ => ?_) <;> [simp only [xx]; clear_value xx]
    refine .step (authorise_frame ..) (by decide) ?_
    assumption
    refine .ite _ ?_ ?_
    refine .step (refuse_frame ..) (by decide) ?_
    assumption
    refine .step (ok_frame ..) (by decide) ?_
    refine .step (updRst_frame ..) (by decide) ?_
    refine .step (legalLog_frame ..) (by decide) ?_
    assumption
    exact .refl _ _

theorem rplGetStatus_frame (m : Fin 4) (b : Block) :
    Block.Only [.mbx, .rpl] b (rplGetStatus m b) := by
  unfold rplGetStatus
  with_reducible
    refine .step (ok_frame ..) (by decide) ?_
    exact .refl _ _

end Sys2Proof.Machine
end

