-- ==== Sys2Proof/Laws/FrameDebug.lean ====
section
/-! SUPPORT. Frames of the operations of Machine/Debug.lean: the units each of them may change. -/

namespace Sys2Proof.Machine

theorem updDbg_frame (f : Debug → Debug) (b : Block) :
    Block.Only [.dbg] b (updDbg f b) := by
  unfold updDbg
  with_reducible
    refine .set_dbg ?_ _ (by decide)
    exact .refl _ _

theorem scan_frame (ir : Nat) (out : List U8) (b : Block) :
    Block.Only [.dbg] b (scan ir out b) := by
  unfold scan
  with_reducible
    refine .step (updDbg_frame ..) (by decide) ?_
    exact .refl _ _

theorem bypassScan_frame (b : Block) :
    Block.Only [.dbg] b (bypassScan b) := by
  unfold bypassScan
  with_reducible
    refine .step (scan_frame ..) (by decide) ?_
    exact .refl _ _

theorem samplePreload_frame (l : List Bool) (b : Block) :
    Block.Only [.dbg] b (samplePreload l b) := by
  unfold samplePreload
  with_reducible
    refine .step (scan_frame ..) (by decide) ?_
    refine .step (updDbg_frame ..) (by decide) ?_
    exact .refl _ _

theorem extest_frame (l : List Bool) (b : Block) :
    Block.Only [.dbg] b (extest l b) := by
  unfold extest
  with_reducible
    refine .availableIf (by decide) (fun _ _ => ?_) ?_ (fun _ => bypassScan_frame _)
    refine .step (scan_frame ..) (by decide) ?_
    refine .step (updDbg_frame ..) (by decide) ?_
    assumption
    exact .refl _ _

theorem dbgChallenge_frame (b : Block) :
    Block.Only [.dbg, .key, .rpl] b (dbgChallenge b) := by
  unfold dbgChallenge
  with_reducible
    refine .availableIf (by decide) (fun _ _ => ?_) ?_ (fun _ => bypassScan_frame _)
    try lift_lets
    intro xx
    refine Block.Only.viaPair xx ?_ (fun _ => ?_) <;> [simp only [xx]; clear_value xx]
    refine .step (draw_frame ..) (by decide) ?_
    assumption
    refine .step (scan_frame ..) (by decide) ?_
    refine .step (updDbg_frame ..) (by decide) ?_
    assumption
    exact .refl _ _

theorem challengeLapse_frame (b : Block) :
    Block.Only [.dbg, .prior, .tide] b (challengeLapse b) := by
  unfold challengeLapse
  with_reducible
    split
    exact .refl _ _
    refine .atInstant (by decide) (by decide) (fun _ _ => ?_) ?_
    refine .step (updDbg_frame ..) (by decide) ?_
    assumption
    exact .refl _ _

theorem responseFail_frame (b : Block) :
    Block.Only [.dbg, .hic] b (responseFail b) := by
  unfold responseFail
  with_reducible
    refine .step (irq_frame ..) (by decide) ?_
    refine .step (updDbg_frame ..) (by decide) ?_
    exact .refl _ _

theorem responseGood_frame (scope : U8) (b : Block) :
    Block.Only [.arb, .btn, .dbg] b (responseGood scope b) := by
  unfold responseGood
  with_reducible
    try lift_lets
    intro xx
    clear_value xx
    refine .step (legalLog_frame ..) (by decide) ?_
    refine .step (updDbg_frame ..) (by decide) ?_
    exact .refl _ _

theorem dbgResponse_frame (scope : U8) (sig : List U8) (b : Block) :
    Block.Only [.arb, .btn, .dbg, .hic] b (dbgResponse scope sig b) := by
  unfold dbgResponse
  with_reducible
    refine .availableIf (by decide) (fun _ _ => ?_) ?_ (fun _ => bypassScan_frame _)
    try lift_lets
    intro xx
    clear_value xx
    try lift_lets
    intro xx
    refine Block.Only.viaVar xx ?_ (fun _ => ?_) <;> [simp only [xx]; clear_value xx]
    refine .step (scan_frame ..) (by decide) ?_
    refine .step (updDbg_frame ..) (by decide) ?_
    assumption
    refine .ite _ ?_ ?_
    refine .step (responseGood_frame ..) (by decide) ?_
    assumption
    refine .step (responseFail_frame ..) (by decide) ?_
    assumption
    exact .refl _ _

theorem accessDo_frame (op : DebugOp) (b : Block) :
    Block.Only [.barrier, .cross, .dbg, .hic, .hp, .imd, .mbx, .met, .mlk, .pea, .rcm, .rpl, .rst, .slu, .tide, .upd, .veh] b (accessDo op b) := by
  unfold accessDo
  with_reducible
    try lift_lets
    intro (xx : _ → _)
    try lift_lets
    intro xx
    clear_value xx
    split
    refine .step (scan_frame ..) (by decide) ?_
    exact .refl _ _
    refine .ite _ ?_ ?_
    refine .step (scan_frame ..) (by decide) ?_
    refine .step (writeFrame_frame ..) (by decide) ?_
    exact .refl _ _
    refine .step (scan_frame ..) (by decide) ?_
    exact .refl _ _
    refine .ite _ ?_ ?_
    refine .step (scan_frame ..) (by decide) ?_
    refine .step (updDbg_frame ..) (by decide) ?_
    exact .refl _ _
    refine .step (scan_frame ..) (by decide) ?_
    exact .refl _ _
    refine .ite _ ?_ ?_
    refine .step (scan_frame ..) (by decide) ?_
    refine .step (updDbg_frame ..) (by decide) ?_
    exact .refl _ _
    refine .step (scan_frame ..) (by decide) ?_
    exact .refl _ _
    refine .step (scan_frame ..) (by decide) ?_
    exact .refl _ _
    refine .ite _ ?_ ?_
    refine .step (scan_frame ..) (by decide) ?_
    refine .set_pea ?_ _ (by decide)
    exact .refl _ _
    refine .step (scan_frame ..) (by decide) ?_
    exact .refl _ _

theorem dbgAccess_frame (op : DebugOp) (b : Block) :
    Block.Only [.barrier, .cross, .dbg, .hic, .hp, .imd, .mbx, .met, .mlk, .pea, .rcm, .rpl, .rst, .slu, .tide, .upd, .veh] b (dbgAccess op b) := by
  unfold dbgAccess
  with_reducible
    refine .availableIf (by decide) (fun _ _ => ?_) ?_ (fun _ => bypassScan_frame _)
    refine .step (accessDo_frame ..) (by decide) ?_
    assumption
    exact .refl _ _

theorem dbgStatusScan_frame (b : Block) :
    Block.Only [.dbg] b (dbgStatusScan b) := by
  unfold dbgStatusScan
  with_reducible
    refine .step (scan_frame ..) (by decide) ?_
    exact .refl _ _

theorem haltEffect_frame (c : CoreId) (b : Block) :
    Block.Only (Part.but [.tide, .snaps, .barrier, .fab, .d2d, .cross, .met, .acc, .pq, .slu, .sluCnt, .vehCfg, .v2gCfg, .rcm, .rcmTest, .pf, .auth, .backup, .mbx, .hp, .pnl, .frames, .nfc, .upd, .rpl, .dbg, .settings, .newSettings, .legalSet, .updRec, .kept, .prior]) b (haltEffect c b) := by
  unfold haltEffect
  with_reducible
    split
    refine .step (loseSedge_frame ..) (by decide) ?_
    exact .refl _ _
    refine .step (deviceFault_frame ..) (by decide) ?_
    refine .step (updRst_frame ..) (by decide) ?_
    exact .refl _ _
    refine .step (loseDyke_frame ..) (by decide) ?_
    exact .refl _ _
    refine .step (updPlc_frame ..) (by decide) ?_
    refine .step (loseModem_frame ..) (by decide) ?_
    exact .refl _ _

theorem haltNow_frame (c : CoreId) (b : Block) :
    Block.Only (Part.but [.tide, .snaps, .barrier, .fab, .d2d, .cross, .met, .acc, .pq, .slu, .sluCnt, .vehCfg, .v2gCfg, .rcm, .rcmTest, .pf, .auth, .backup, .mbx, .hp, .pnl, .frames, .nfc, .upd, .rpl, .settings, .newSettings, .legalSet, .updRec, .kept, .prior]) b (haltNow c b) := by
  unfold haltNow
  with_reducible
    refine .step (haltEffect_frame ..) (by decide) ?_
    refine .step (irq_frame ..) (by decide) ?_
    refine .step (updDbg_frame ..) (by decide) ?_
    exact .refl _ _

theorem haltStep_frame (b : Block) :
    Block.Only (Part.but [.tide, .snaps, .barrier, .fab, .d2d, .cross, .met, .acc, .pq, .slu, .sluCnt, .vehCfg, .v2gCfg, .rcm, .rcmTest, .pf, .auth, .backup, .mbx, .hp, .pnl, .frames, .nfc, .upd, .rpl, .settings, .newSettings, .legalSet, .updRec, .kept, .prior]) b (haltStep b) := by
  unfold haltStep
  with_reducible
    refine .ite _ ?_ ?_
    refine .step (haltNow_frame ..) (by decide) ?_
    refine .step (updDbg_frame ..) (by decide) ?_
    exact .refl _ _
    exact .refl _ _

theorem haltDyke_frame (b : Block) :
    Block.Only (Part.but [.tide, .snaps, .barrier, .fab, .d2d, .cross, .met, .acc, .pq, .slu, .sluCnt, .vehCfg, .v2gCfg, .rcm, .rcmTest, .pf, .auth, .backup, .mbx, .hp, .pnl, .frames, .nfc, .upd, .rpl, .settings, .newSettings, .legalSet, .updRec, .kept, .prior]) b (haltDyke b) := by
  unfold haltDyke
  with_reducible
    try lift_lets
    intro xx
    refine Block.Only.viaVar xx ?_ (fun _ => ?_) <;> [simp only [xx]; clear_value xx]
    refine .ite _ ?_ ?_
    refine .step (contain_frame ..) (by decide) ?_
    exact .refl _ _
    exact .refl _ _
    refine .step (haltStep_frame ..) (by decide) ?_
    refine .step (updDbg_frame ..) (by decide) ?_
    assumption

theorem debugHalt_frame (c : CoreId) (b : Block) :
    Block.Only (Part.but [.tide, .snaps, .barrier, .fab, .d2d, .cross, .met, .acc, .pq, .slu, .sluCnt, .vehCfg, .v2gCfg, .rcm, .rcmTest, .pf, .auth, .backup, .mbx, .hp, .pnl, .frames, .nfc, .upd, .rpl, .settings, .newSettings, .legalSet, .updRec, .kept, .prior]) b (debugHalt c b) := by
  unfold debugHalt
  with_reducible
    refine .ite _ ?_ ?_
    exact .refl _ _
    refine .ite _ ?_ ?_
    refine .step (haltDyke_frame ..) (by decide) ?_
    exact .refl _ _
    refine .step (haltNow_frame ..) (by decide) ?_
    exact .refl _ _

theorem debugStep_frame (c : CoreId) (b : Block) :
    Block.Only [.dbg] b (debugStep c b) := by
  unfold debugStep
  with_reducible
    refine .ite _ ?_ ?_
    refine .step (updDbg_frame ..) (by decide) ?_
    exact .refl _ _
    exact .refl _ _

theorem debugResume_frame (c : CoreId) (b : Block) :
    Block.Only (Part.but [.tide, .snaps, .barrier, .fab, .d2d, .cross, .met, .acc, .pq, .slu, .sluCnt, .vehCfg, .v2gCfg, .rcm, .rcmTest, .pf, .backup, .hp, .pnl, .frames, .nfc, .upd, .settings, .newSettings, .legalSet, .updRec, .kept, .prior]) b (debugResume c b) := by
  unfold debugResume
  with_reducible
    refine .ite _ ?_ ?_
    refine .step (irq_frame ..) (by decide) ?_
    refine .step (coreAgain_frame ..) (by decide) ?_
    refine .step (updDbg_frame ..) (by decide) ?_
    exact .refl _ _
    exact .refl _ _

theorem debugReset_frame (hub : Bool) (c : CoreId) (b : Block) :
    Block.Only (Part.but [.tide, .snaps, .barrier, .fab, .d2d, .cross, .met, .acc, .pq, .slu, .sluCnt, .vehCfg, .v2gCfg, .rcm, .rcmTest, .pf, .auth, .backup, .hp, .pnl, .frames, .nfc, .upd, .settings, .newSettings, .legalSet, .updRec, .kept, .prior]) b (debugReset hub c b) := by
  unfold debugReset
  with_reducible
    refine .ite _ ?_ ?_
    exact .refl _ _
    refine .ite _ ?_ ?_
    split
    exact .refl _ _
    refine .step (stopStart_frame ..) (by decide) ?_
    exact .refl _ _
    refine .step (coreRestart_frame ..) (by decide) ?_
    refine .step (updDbg_frame ..) (by decide) ?_
    exact .refl _ _

end Sys2Proof.Machine
end

