-- ==== Sys2Proof/Laws/FrameDump.lean ====
section
/-! SUPPORT. Frames of the operations of Machine/Dump.lean: the units each of them may change. -/

namespace Sys2Proof.Machine

theorem updDmp_frame (f : Dump → Dump) (b : Block) :
    Block.Only [.dmp] b (updDmp f b) := by
  unfold updDmp
  with_reducible
    refine .set_dmp ?_ _ (by decide)
    exact .refl _ _

theorem dumpFreeze_frame (b : Block) :
    Block.Only [.arb, .hic, .mbx, .rpl] b (dumpFreeze b) := by
  unfold dumpFreeze
  with_reducible
    refine .ite _ ?_ ?_
    exact .refl _ _
    refine .step (drainCheck_frame ..) (by decide) ?_
    refine .step (updArb_frame ..) (by decide) ?_
    refine .step (setFreeze_frame ..) (by decide) ?_
    exact .refl _ _

theorem fatalNote_frame (cause : U16) (b : Block) :
    Block.Only [.dmp, .tide] b (fatalNote cause b) := by
  unfold fatalNote
  with_reducible
    refine .step (updDmp_frame ..) (by decide) ?_
    exact .refl _ _

theorem fatalAct_frame (cause : U16) (b : Block) :
    Block.Only (Part.but [.snaps, .barrier, .fab, .d2d, .cross, .met, .acc, .pq, .slu, .sluCnt, .vehCfg, .v2g, .v2gCfg, .rcm, .rcmTest, .pf, .auth, .backup, .hp, .pnl, .frames, .nfc, .rst, .upd, .dbg, .settings, .newSettings, .legalSet, .updRec, .kept, .prior]) b (fatalAct cause b) := by
  unfold fatalAct
  with_reducible
    try lift_lets
    intro xx
    refine Block.Only.viaVar xx ?_ (fun _ => ?_) <;> [simp only [xx]; clear_value xx]
    refine .step (irq_frame ..) (by decide) ?_
    refine .step (legalLog_frame ..) (by decide) ?_
    exact .refl _ _
    refine .ite _ ?_ ?_
    refine .step (irq_frame ..) (by decide) ?_
    refine .step (updDmp_frame ..) (by decide) ?_
    refine .step (deviceFault_frame ..) (by decide) ?_
    refine .step (updDmp_frame ..) (by decide) ?_
    assumption
    refine .step (fatalNote_frame ..) (by decide) ?_
    refine .step (dumpFreeze_frame ..) (by decide) ?_
    refine .step (deviceFault_frame ..) (by decide) ?_
    refine .step (updDmp_frame ..) (by decide) ?_
    assumption

theorem fatalError_frame (b : Block) :
    Block.Only (Part.but [.snaps, .barrier, .fab, .d2d, .cross, .met, .acc, .pq, .slu, .sluCnt, .vehCfg, .v2g, .v2gCfg, .rcm, .rcmTest, .pf, .auth, .backup, .hp, .pnl, .frames, .nfc, .rst, .upd, .dbg, .settings, .newSettings, .legalSet, .updRec, .kept, .prior]) b (fatalError b) := by
  unfold fatalError
  with_reducible
    split
    exact .refl _ _
    refine .step (fatalAct_frame ..) (by decide) ?_
    refine .step (updDmp_frame ..) (by decide) ?_
    exact .refl _ _

theorem takeDump_frame (b : Block) :
    Block.Only [.dmp] b (takeDump b) := by
  unfold takeDump
  with_reducible
    refine .step (updDmp_frame ..) (by decide) ?_
    exact .refl _ _

theorem dumpBegin_frame (b : Block) :
    Block.Only [.dmp] b (dumpBegin b) := by
  unfold dumpBegin
  with_reducible
    try lift_lets
    intro xx
    refine Block.Only.viaVar xx ?_ (fun _ => ?_) <;> [simp only [xx]; clear_value xx]
    refine .step (takeDump_frame ..) (by decide) ?_
    exact .refl _ _
    refine .step (updDmp_frame ..) (by decide) ?_
    assumption

theorem dumpStart_frame (b : Block) :
    Block.Only [.dmp, .prior, .tide] b (dumpStart b) := by
  unfold dumpStart
  with_reducible
    split
    exact .refl _ _
    refine .ite _ ?_ ?_
    exact .refl _ _
    refine .ite _ ?_ ?_
    refine .step (dumpBegin_frame ..) (by decide) ?_
    exact .refl _ _
    refine .afterTicks (by decide) (by decide) (fun _ _ => ?_) ?_
    refine .step (dumpBegin_frame ..) (by decide) ?_
    assumption
    exact .refl _ _

theorem dumpComplete_frame (b : Block) :
    Block.Only [.arb, .dmp, .hic] b (dumpComplete b) := by
  unfold dumpComplete
  with_reducible
    try lift_lets
    intro xx
    refine Block.Only.viaVar xx ?_ (fun _ => ?_) <;> [simp only [xx]; clear_value xx]
    refine .step (irq_frame ..) (by decide) ?_
    refine .step (updDmp_frame ..) (by decide) ?_
    exact .refl _ _
    refine .ite _ ?_ ?_
    refine .onlyIf _ (fun _ _ => ?_) ?_
    refine .step (liftFreeze_frame ..) (by decide) ?_
    assumption
    assumption
    exact .refl _ _

theorem exportAux_frame (header : List U8) (y0 : Nat) (y1 : Block) :
    Block.Only [.arb, .btn, .cwy, .cwyX, .dmp, .hic, .lau, .mbx, .qmg, .rpl] y1 (exportAux header y0 y1) := by
  fun_induction exportAux header y0 y1
  with_reducible
    exact .refl _ _
    exact .refl _ _
    refine .step (ok_frame ..) (by decide) ?_
    refine .step (updDmp_frame ..) (by decide) ?_
    exact .refl _ _
    refine .trans ?_ (by assumption)
    refine .step (updDmp_frame ..) (by decide) ?_
    refine .ofPair (by assumption) ?_
    refine .step (sendRecord_frame ..) (by decide) ?_
    exact .refl _ _
    refine .ofPair (by assumption) ?_
    refine .step (sendRecord_frame ..) (by decide) ?_
    exact .refl _ _

theorem exportStep_frame (b : Block) :
    Block.Only [.arb, .btn, .cwy, .cwyX, .dmp, .hic, .lau, .mbx, .qmg, .rpl] b (exportStep b) := by
  unfold exportStep
  with_reducible
    refine .ite _ ?_ ?_
    refine .step (exportAux_frame ..) (by decide) ?_
    exact .refl _ _
    exact .refl _ _

theorem dmpGetStatus_frame (m : Fin 4) (b : Block) :
    Block.Only [.mbx, .rpl] b (dmpGetStatus m b) := by
  unfold dmpGetStatus
  with_reducible
    refine .step (ok_frame ..) (by decide) ?_
    exact .refl _ _

theorem dmpExport_frame (m : Fin 4) (b : Block) :
    Block.Only [.arb, .btn, .cwy, .cwyX, .dmp, .hic, .lau, .mbx, .qmg, .rpl] b (dmpExport m b) := by
  unfold dmpExport
  with_reducible
    refine .ite _ ?_ ?_
    exact .refl _ _
    refine .checked (by decide) (by decide) (fun _ _ => ?_) ?_
    refine .step (exportStep_frame ..) (by decide) ?_
    refine .step (updDmp_frame ..) (by decide) ?_
    assumption
    exact .refl _ _

theorem dmpRelease_frame (m : Fin 4) (b : Block) :
    Block.Only [.dmp, .mbx, .rpl] b (dmpRelease m b) := by
  unfold dmpRelease
  with_reducible
    refine .checked (by decide) (by decide) (fun _ _ => ?_) ?_
    refine .step (ok_frame ..) (by decide) ?_
    refine .step (updDmp_frame ..) (by decide) ?_
    assumption
    exact .refl _ _

theorem dmpTrigger_frame (m : Fin 4) (b : Block) :
    Block.Only [.dmp, .hic, .key, .mbx, .rpl] b (dmpTrigger m b) := by
  unfold dmpTrigger
  with_reducible
    try lift_lets
    intro xx
    refine Block.Only.viaPair xx ?_ (fun _ => ?_) <;> [simp only [xx]; clear_value xx]
    refine .step (authorise_frame ..) (by decide) ?_
    exact .refl _ _
    refine .ite _ ?_ ?_
    refine .step (ok_frame ..) (by decide) ?_
    refine .step (raiseFatal_frame ..) (by decide) ?_
    assumption
    refine .step (refuse_frame ..) (by decide) ?_
    assumption

end Sys2Proof.Machine
end

