-- ==== Sys2Proof/Laws/FrameFire.lean ====
section
/-! SUPPORT. Frames of the operations of Machine/Fire.lean: the units each of them may change. -/

namespace Sys2Proof.Machine

theorem latchView_frame (b : Block) :
    Block.Only [.lsw, .met, .mlk, .saf, .veh] b (latchView b) := by
  unfold latchView
  with_reducible
    refine .set_lsw_met_mlk_saf_veh ?_ _ _ _ _ _ (by decide) (by decide) (by decide) (by decide) (by decide)
    exact .refl _ _

theorem snapshotTake_frame (k : Fin 4) (t : U64) (b0 b : Block) :
    Block.Only [.lsw, .met, .mlk, .saf, .snaps, .veh] b (snapshotTake k t b0 b) := by
  unfold snapshotTake
  with_reducible
    refine .set_snaps ?_ _ (by decide)
    exact .refl _ _

theorem snapshotAnswer_frame (m : Fin 4) (e : Entry) (s : U8) (b : Block) :
    Block.Only [.lau, .mbx, .rpl] b (snapshotAnswer m e s b) := by
  unfold snapshotAnswer
  with_reducible
    try lift_lets
    intro xx
    clear_value xx
    try lift_lets
    intro xx
    clear_value xx
    try lift_lets
    intro xx
    clear_value xx
    refine .ite _ ?_ ?_
    refine .ite _ ?_ ?_
    refine .step (ok_frame ..) (by decide) ?_
    exact .refl _ _
    refine .set_lau ?_ _ (by decide)
    exact .refl _ _
    refine .step (respond_frame ..) (by decide) ?_
    exact .refl _ _

theorem snapExport_frame (x : Fin 4 × Entry) (b : Block) :
    Block.Only [.arb, .btn, .cwy, .cwyX, .dmp, .hic, .lau, .mbx, .qmg, .rpl] b (snapExport x b) := by
  unfold snapExport
  with_reducible
    try lift_lets
    intro xx
    clear_value xx
    try lift_lets
    intro xx
    clear_value xx
    try lift_lets
    intro xx
    refine Block.Only.viaPair xx ?_ (fun _ => ?_) <;> [simp only [xx]; clear_value xx]
    refine .step (sendRecords_frame ..) (by decide) ?_
    exact .refl _ _
    refine .ite _ ?_ ?_
    refine .step (ok_frame ..) (by decide) ?_
    assumption
    refine .step (refuse_frame ..) (by decide) ?_
    assumption

theorem snapExports_frame (b : Block) :
    Block.Only [.arb, .btn, .cwy, .cwyX, .dmp, .hic, .lau, .mbx, .qmg, .rpl] b (snapExports b) := by
  unfold snapExports
  with_reducible
    try lift_lets
    intro (xx : _ → _)
    try lift_lets
    intro xx
    clear_value xx
    refine .forAll (fun _ _ _ => ?_) _ ?_
    refine .step (snapExport_frame ..) (by decide) ?_
    assumption
    refine .set_lau ?_ _ (by decide)
    exact .refl _ _

theorem tableActivate_frame (c : Fin 48) (a : U64) (b : Block) :
    Block.Only [.arb, .btn, .hic, .met, .pea] b (tableActivate c a b) := by
  unfold tableActivate
  with_reducible
    try lift_lets
    intro xx
    clear_value xx
    split
    exact .refl _ _
    try lift_lets
    intro xx
    refine Block.Only.viaVar xx ?_ (fun _ => ?_) <;> [simp only [xx]; clear_value xx]
    refine .step (updChan_frame ..) (by decide) ?_
    exact .refl _ _
    refine .step (saveLegalConfig_frame ..) (by decide) ?_
    refine .step (irq_frame ..) (by decide) ?_
    refine .step (legalLog_frame ..) (by decide) ?_
    refine .set_met ?_ _ (by decide)
    assumption

theorem activateAnswer_frame (m : Fin 4) (e : Entry) (b : Block) :
    Block.Only [.mbx, .rpl] b (activateAnswer m e b) := by
  unfold activateAnswer
  with_reducible
    try lift_lets
    intro (xx : _ → _)
    refine .ite _ ?_ ?_
    exact .refl _ _
    refine .step (ok_frame ..) (by decide) ?_
    exact .refl _ _

theorem boundaryFire_frame (a : U64) (b : Block) :
    Block.Only [.arb, .btn, .cwy, .cwyX, .dmp, .hic, .lau, .pea, .qmg, .slt] b (boundaryFire a b) := by
  unfold boundaryFire
  with_reducible
    try lift_lets
    intro xx
    clear_value xx
    split
    exact .refl _ _
    try lift_lets
    intro xx
    clear_value xx
    try lift_lets
    intro xx
    clear_value xx
    try lift_lets
    intro xx
    refine Block.Only.viaVar xx ?_ (fun _ => ?_) <;> [simp only [xx]; clear_value xx]
    refine .ite _ ?_ ?_
    refine .step (switchTariff_frame ..) (by decide) ?_
    exact .refl _ _
    exact .refl _ _
    refine .step (replan_frame ..) (by decide) ?_
    refine .ite _ ?_ ?_
    refine .step (updSlt_frame ..) (by decide) ?_
    refine .ite _ ?_ ?_
    refine .step (noteClosing_frame ..) (by decide) ?_
    refine .ite _ ?_ ?_
    refine .step (saveLegalConfig_frame ..) (by decide) ?_
    refine .step (irq_frame ..) (by decide) ?_
    refine .step (legalLog_frame ..) (by decide) ?_
    refine .step (updSlt_frame ..) (by decide) ?_
    assumption
    assumption
    refine .ite _ ?_ ?_
    refine .step (saveLegalConfig_frame ..) (by decide) ?_
    refine .step (irq_frame ..) (by decide) ?_
    refine .step (legalLog_frame ..) (by decide) ?_
    refine .step (updSlt_frame ..) (by decide) ?_
    assumption
    assumption
    refine .ite _ ?_ ?_
    refine .step (noteClosing_frame ..) (by decide) ?_
    refine .ite _ ?_ ?_
    refine .step (saveLegalConfig_frame ..) (by decide) ?_
    refine .step (irq_frame ..) (by decide) ?_
    refine .step (legalLog_frame ..) (by decide) ?_
    refine .step (updSlt_frame ..) (by decide) ?_
    assumption
    assumption
    refine .ite _ ?_ ?_
    refine .step (saveLegalConfig_frame ..) (by decide) ?_
    refine .step (irq_frame ..) (by decide) ?_
    refine .step (legalLog_frame ..) (by decide) ?_
    refine .step (updSlt_frame ..) (by decide) ?_
    assumption
    assumption

theorem driveFire_frame (n : Fin 16) (e : Entry) (b : Block) :
    Block.Only [.imd] b (driveFire n e b) := by
  unfold driveFire
  with_reducible
    refine .step (updImd_frame ..) (by decide) ?_
    exact .refl _ _

theorem targetFire_frame (b0 : Block) (e : Entry) (b : Block) :
    Block.Only [.arb, .btn, .cwy, .cwyX, .dmp, .hic, .imd, .lau, .lsw, .met, .mlk, .pea, .plc, .qmg, .saf, .slt, .snaps, .veh] b (targetFire b0 e b) := by
  unfold targetFire
  with_reducible
    split
    refine .ite _ ?_ ?_
    refine .step (mlkSetpoint_frame ..) (by decide) ?_
    exact .refl _ _
    refine .ite _ ?_ ?_
    refine .step (mlkOpen_frame ..) (by decide) ?_
    exact .refl _ _
    refine .ite _ ?_ ?_
    refine .step (mlkMatch_frame ..) (by decide) ?_
    exact .refl _ _
    refine .step (mlkClose_frame ..) (by decide) ?_
    exact .refl _ _
    refine .ite _ ?_ ?_
    refine .step (hsTurnOn_frame ..) (by decide) ?_
    exact .refl _ _
    refine .ite _ ?_ ?_
    refine .step (hsTurnOff_frame ..) (by decide) ?_
    exact .refl _ _
    refine .step (hsSetDuty_frame ..) (by decide) ?_
    exact .refl _ _
    refine .step (pilotDuty_frame ..) (by decide) ?_
    exact .refl _ _
    refine .step (driveFire_frame ..) (by decide) ?_
    exact .refl _ _
    refine .step (snapshotTake_frame ..) (by decide) ?_
    exact .refl _ _
    refine .step (armCapture_frame ..) (by decide) ?_
    exact .refl _ _
    refine .step (boundaryFire_frame ..) (by decide) ?_
    exact .refl _ _
    refine .step (tableActivate_frame ..) (by decide) ?_
    exact .refl _ _
    exact .refl _ _

theorem resolvedHook_frame (r : Nat) (e : Entry) (s : U8) (t : U64) (b : Block) :
    Block.Only (Part.but [.tide, .snaps, .barrier, .fab, .d2d, .cross, .met, .acc, .pq, .vehCfg, .v2g, .v2gCfg, .rcm, .rcmTest, .pf, .auth, .backup, .hp, .pnl, .frames, .nfc, .rst, .upd, .dbg, .settings, .newSettings, .legalSet, .updRec, .kept, .prior]) b (resolvedHook r e s t b) := by
  unfold resolvedHook
  with_reducible
    refine .ite _ ?_ ?_
    refine .step (sluResolved_frame ..) (by decide) ?_
    exact .refl _ _
    refine .ite _ ?_ ?_
    refine .ite _ ?_ ?_
    exact .refl _ _
    refine .step (dutyLost_frame ..) (by decide) ?_
    exact .refl _ _
    refine .ite _ ?_ ?_
    refine .ite _ ?_ ?_
    refine .step (lockEntryLost_frame ..) (by decide) ?_
    exact .refl _ _
    exact .refl _ _
    refine .ite _ ?_ ?_
    refine .dite _ (fun _ => ?_) (fun _ => ?_)
    refine .step (ok_frame ..) (by decide) ?_
    exact .refl _ _
    exact .refl _ _
    refine .ite _ ?_ ?_
    refine .dite _ (fun _ => ?_) (fun _ => ?_)
    refine .step (snapshotAnswer_frame ..) (by decide) ?_
    exact .refl _ _
    exact .refl _ _
    refine .ite _ ?_ ?_
    refine .ite _ ?_ ?_
    refine .step (rearmCapture_frame ..) (by decide) ?_
    exact .refl _ _
    exact .refl _ _
    refine .ite _ ?_ ?_
    refine .step (driveFeed_frame ..) (by decide) ?_
    exact .refl _ _
    refine .ite _ ?_ ?_
    refine .ite _ ?_ ?_
    exact .refl _ _
    refine .step (boundaryLost_frame ..) (by decide) ?_
    exact .refl _ _
    refine .ite _ ?_ ?_
    refine .dite _ (fun _ => ?_) (fun _ => ?_)
    refine .step (activateAnswer_frame ..) (by decide) ?_
    exact .refl _ _
    exact .refl _ _
    exact .refl _ _

theorem entryResolve_frame (r : Nat) (i : RingItem) (s : U8) (t : U64) (b : Block) :
    Block.Only (Part.but [.tide, .snaps, .barrier, .fab, .d2d, .cross, .met, .acc, .pq, .vehCfg, .v2g, .v2gCfg, .rcm, .rcmTest, .pf, .auth, .backup, .hp, .pnl, .frames, .nfc, .rst, .upd, .dbg, .settings, .newSettings, .legalSet, .updRec, .kept, .prior]) b (entryResolve r i s t b) := by
  unfold entryResolve
  with_reducible
    refine .step (resolvedHook_frame ..) (by decide) ?_
    refine .step (resolveItem_frame ..) (by decide) ?_
    exact .refl _ _

theorem fireOne_frame (b0 : Block) (lost second : Bool) (due : List (Nat × RingItem)) (x : Nat × RingItem) (b : Block) :
    Block.Only (Part.but [.tide, .barrier, .fab, .cross, .acc, .pq, .vehCfg, .v2g, .v2gCfg, .rcm, .rcmTest, .pf, .auth, .backup, .hp, .pnl, .frames, .nfc, .rst, .upd, .dbg, .settings, .newSettings, .legalSet, .updRec, .kept, .prior]) b (fireOne b0 lost second due x b) := by
  unfold fireOne
  with_reducible
    split
    exact .refl _ _
    try lift_lets
    intro xx
    clear_value xx
    try lift_lets
    intro xx
    clear_value xx
    try lift_lets
    intro xx
    refine Block.Only.viaVar xx ?_ (fun _ => ?_) <;> [simp only [xx]; clear_value xx]
    refine .step (setItem_frame ..) (by decide) ?_
    exact .refl _ _
    refine .ite _ ?_ ?_
    exact .refl _ _
    refine .ite _ ?_ ?_
    refine .ite _ ?_ ?_
    refine .step (targetFire_frame ..) (by decide) ?_
    refine .ite _ ?_ ?_
    refine .set_d2d ?_ _ (by decide)
    assumption
    assumption
    refine .ite _ ?_ ?_
    refine .set_d2d ?_ _ (by decide)
    assumption
    assumption
    refine .step (entryResolve_frame ..) (by decide) ?_
    refine .ite _ ?_ ?_
    refine .step (targetFire_frame ..) (by decide) ?_
    refine .ite _ ?_ ?_
    refine .set_d2d ?_ _ (by decide)
    assumption
    assumption
    refine .ite _ ?_ ?_
    refine .set_d2d ?_ _ (by decide)
    assumption
    assumption

theorem fireDue_frame (due : List (Nat × RingItem)) (first second : Bool) (b : Block) :
    Block.Only (Part.but [.tide, .barrier, .fab, .cross, .acc, .pq, .vehCfg, .v2g, .v2gCfg, .rcm, .rcmTest, .pf, .auth, .backup, .hp, .pnl, .frames, .nfc, .rst, .upd, .dbg, .settings, .newSettings, .legalSet, .updRec, .kept, .prior]) b (fireDue due first second b) := by
  unfold fireDue
  with_reducible
    refine .forAll (fun _ _ _ => ?_) _ ?_
    refine .step (trimRing_frame ..) (by decide) ?_
    assumption
    refine .forAll (fun _ _ _ => ?_) _ ?_
    refine .step (fireOne_frame ..) (by decide) ?_
    assumption
    exact .refl _ _

theorem fireAt_frame (t : U64) (first second : Bool) (b : Block) :
    Block.Only (Part.but [.tide, .barrier, .fab, .cross, .acc, .pq, .vehCfg, .v2g, .v2gCfg, .rcm, .rcmTest, .pf, .auth, .backup, .hp, .pnl, .frames, .nfc, .rst, .upd, .dbg, .settings, .newSettings, .legalSet, .updRec, .kept, .prior]) b (fireAt t first second b) := by
  unfold fireAt
  with_reducible
    refine .step (fireDue_frame ..) (by decide) ?_
    exact .refl _ _

theorem entryFire_frame (first second : Bool) (b : Block) :
    Block.Only (Part.but [.barrier, .fab, .cross, .acc, .pq, .vehCfg, .v2g, .v2gCfg, .rcm, .rcmTest, .pf, .auth, .backup, .hp, .pnl, .frames, .nfc, .rst, .upd, .dbg, .settings, .newSettings, .legalSet, .updRec, .kept]) b (entryFire first second b) := by
  unfold entryFire
  with_reducible
    split
    exact .refl _ _
    refine .ite _ ?_ ?_
    refine .atInstant (by decide) (by decide) (fun _ _ => ?_) ?_
    refine .step (fireAt_frame ..) (by decide) ?_
    assumption
    exact .refl _ _
    exact .refl _ _

theorem fireLink_frame (b : Block) :
    Block.Only (Part.but [.tide, .barrier, .fab, .cross, .acc, .pq, .vehCfg, .v2g, .v2gCfg, .rcm, .rcmTest, .pf, .auth, .backup, .hp, .pnl, .frames, .nfc, .rst, .upd, .dbg, .settings, .newSettings, .legalSet, .updRec, .kept, .prior]) b (fireLink b) := by
  unfold fireLink
  with_reducible
    refine .ite _ ?_ ?_
    refine .step (fireDue_frame ..) (by decide) ?_
    exact .refl _ _
    exact .refl _ _

theorem mlkCycle_frame (readback : BitVec 8) (b : Block) :
    Block.Only (Part.but [.barrier, .fab, .cross, .acc, .pq, .vehCfg, .v2g, .v2gCfg, .rcm, .rcmTest, .pf, .auth, .backup, .hp, .pnl, .frames, .nfc, .rst, .upd, .dbg, .settings, .newSettings, .legalSet, .updRec, .kept]) b (mlkCycle readback b) := by
  unfold mlkCycle
  with_reducible
    refine .atInstant (by decide) (by decide) (fun _ _ => ?_) ?_
    refine .step (linkCycle_frame ..) (by decide) ?_
    refine .step (fireLink_frame ..) (by decide) ?_
    assumption
    exact .refl _ _

theorem adieOne_frame (x : Nat × RingItem) (b : Block) :
    Block.Only (Part.but [.tide, .snaps, .barrier, .fab, .d2d, .cross, .met, .acc, .pq, .vehCfg, .v2g, .v2gCfg, .rcm, .rcmTest, .pf, .auth, .backup, .hp, .pnl, .frames, .nfc, .rst, .upd, .dbg, .settings, .newSettings, .legalSet, .updRec, .kept, .prior]) b (adieOne x b) := by
  unfold adieOne
  with_reducible
    split
    refine .step (entryResolve_frame ..) (by decide) ?_
    refine .step (setItem_frame ..) (by decide) ?_
    exact .refl _ _
    exact .refl _ _

theorem adieResult_frame (b : Block) :
    Block.Only (Part.but [.snaps, .barrier, .fab, .d2d, .cross, .met, .acc, .pq, .vehCfg, .v2g, .v2gCfg, .rcm, .rcmTest, .pf, .auth, .backup, .hp, .pnl, .frames, .nfc, .rst, .upd, .dbg, .settings, .newSettings, .legalSet, .updRec, .kept]) b (adieResult b) := by
  unfold adieResult
  with_reducible
    split
    exact .refl _ _
    try lift_lets
    intro xx
    clear_value xx
    refine .atInstant (by decide) (by decide) (fun _ _ => ?_) ?_
    try lift_lets
    intro xx
    clear_value xx
    refine .forAll (fun _ _ _ => ?_) _ ?_
    refine .step (trimRing_frame ..) (by decide) ?_
    assumption
    refine .forAll (fun _ _ _ => ?_) _ ?_
    refine .step (adieOne_frame ..) (by decide) ?_
    assumption
    assumption
    exact .refl _ _

theorem takeItem_frame (r u : Nat) (b : Block) :
    Block.Only (Part.but [.tide, .snaps, .barrier, .fab, .d2d, .cross, .met, .acc, .pq, .vehCfg, .v2g, .v2gCfg, .rcm, .rcmTest, .pf, .auth, .backup, .hp, .pnl, .frames, .nfc, .rst, .upd, .dbg, .settings, .newSettings, .legalSet, .updRec, .kept, .prior]) b (takeItem r u b) := by
  unfold takeItem
  with_reducible
    try lift_lets
    intro xx
    clear_value xx
    try lift_lets
    intro xx
    clear_value xx
    try lift_lets
    intro xx
    clear_value xx
    try lift_lets
    intro xx
    clear_value xx
    try lift_lets
    intro xx
    clear_value xx
    try lift_lets
    intro xx
    clear_value xx
    try lift_lets
    intro xx
    refine Block.Only.viaVar xx ?_ (fun _ => ?_) <;> [simp only [xx]; clear_value xx]
    refine .step (setRing_frame ..) (by decide) ?_
    exact .refl _ _
    split
    refine .step (trimRing_frame ..) (by decide) ?_
    refine .step (entryResolve_frame ..) (by decide) ?_
    assumption
    refine .set_lau ?_ _ (by decide)
    assumption

theorem takeEntry_frame (r : Nat) (b : Block) :
    Block.Only (Part.but [.tide, .snaps, .barrier, .fab, .d2d, .cross, .met, .acc, .pq, .vehCfg, .v2g, .v2gCfg, .rcm, .rcmTest, .pf, .auth, .backup, .hp, .pnl, .frames, .nfc, .rst, .upd, .dbg, .settings, .newSettings, .legalSet, .updRec, .kept, .prior]) b (takeEntry r b) := by
  unfold takeEntry
  with_reducible
    refine .ite _ ?_ ?_
    exact .refl _ _
    split
    refine .step (takeItem_frame ..) (by decide) ?_
    refine .ofPair (by assumption) ?_
    refine .step (qDequeue_frame ..) (by decide) ?_
    exact .refl _ _
    refine .ofPair (by assumption) ?_
    refine .step (qDequeue_frame ..) (by decide) ?_
    exact .refl _ _

end Sys2Proof.Machine
end

