-- ==== Sys2Proof/Laws/FrameTick.lean ====
section
/-! SUPPORT. Frames of the operations of Machine/Tick.lean: the units each of them may change. -/

namespace Sys2Proof.Machine

theorem countTide_frame (b : Block) :
    Block.Only [.prior, .tide] b (countTide b) := by
  unfold countTide
  with_reducible
    refine .ite _ ?_ ?_
    refine .step (setNow_frame ..) (by decide) ?_
    exact .refl _ _
    exact .refl _ _

theorem waitingRevert_frame (b : Block) :
    Block.Only [.arb, .bri, .hic, .lsw, .mbx, .pea, .rpl, .rst, .saf, .safX, .upd] b (waitingRevert b) := by
  unfold waitingRevert
  with_reducible
    split
    refine .ite _ ?_ ?_
    refine .step (trialOver_frame ..) (by decide) ?_
    exact .refl _ _
    exact .refl _ _
    exact .refl _ _

theorem backgroundWork_frame (b : Block) :
    Block.Only (Part.but [.snaps, .fab, .sluCnt, .vehCfg, .v2gCfg, .rcmTest, .pnl, .frames, .nfc, .kept]) b (backgroundWork b) := by
  unfold backgroundWork
  with_reducible
    refine .step (presentDue_frame ..) (by decide) ?_
    refine .step (traceFlush_frame ..) (by decide) ?_
    refine .step (exportStep_frame ..) (by decide) ?_
    refine .step (haltStep_frame ..) (by decide) ?_
    refine .step (waitingRevert_frame ..) (by decide) ?_
    refine .step (shutdownDue_frame ..) (by decide) ?_
    refine .step (snapExports_frame ..) (by decide) ?_
    refine .step (periodStep_frame ..) (by decide) ?_
    refine .step (signWhenFree_frame ..) (by decide) ?_
    refine .step (vbatLog_frame ..) (by decide) ?_
    exact .refl _ _

theorem tick_frame (b : Block) :
    Block.Only (Part.but [.snaps, .fab, .sluCnt, .vehCfg, .v2gCfg, .rcmTest, .pnl, .frames, .nfc, .kept]) b (tick b) := by
  unfold tick
  with_reducible
    refine .step (backgroundWork_frame ..) (by decide) ?_
    refine .step (countTide_frame ..) (by decide) ?_
    exact .refl _ _

end Sys2Proof.Machine
end

