-- ==== Sys2Proof/Laws/FrameRows.lean ====
section
/-! SUPPORT. Frames of the commands: the queue, and every unit but those listed, stay as they are. -/

namespace Sys2Proof.Machine

/-! ### Association -/

theorem execCmSlacParmReq_frame (n : Fin 16) (mac : BitVec 48) (runId : U64) {s t : State} (h : execCmSlacParmReq n mac runId s = .next t) :
    Only [.plc, .plcCfg, .rpl] s t := by
  refine input_frame (by decide) ?_ h
  with_reducible
    refine .step (slacParmReq_frame ..) (by decide) ?_
    exact .refl _ _

theorem execCmStartAttenCharInd_frame (n : Fin 16) (mac : BitVec 48) (runId : U64) (sounds : U8) {s t : State} (h : execCmStartAttenCharInd n mac runId sounds s = .next t) :
    Only [.lau, .plc, .plcCfg, .arb, .hic, .qmg, .cwy, .cwyX, .btn, .dmp, .rpl] s t := by
  refine input_frame (by decide) ?_ h
  with_reducible
    refine .step (startAttenChar_frame ..) (by decide) ?_
    exact .refl _ _

theorem execCmMnbcSoundInd_frame (n : Fin 16) (x : SoundReading) {s t : State} (h : execCmMnbcSoundInd n x s = .next t) :
    Only [.plc, .plcCfg, .rpl] s t := by
  refine input_frame (by decide) ?_ h
  with_reducible
    refine .step (soundInd_frame ..) (by decide) ?_
    exact .refl _ _

theorem execSoundingEnd_frame (n : Fin 16) (mac : BitVec 48) (runId : U64) {s t : State} (h : execSoundingEnd n mac runId s = .next t) :
    Only [.tide, .lau, .sess, .veh, .plc, .plcCfg, .imd, .imdG, .saf, .safX, .lsw, .pea, .arb, .slt, .legal, .bri, .key, .hic, .qmg, .cwy, .cwyX, .btn, .dmp, .rpl, .prior] s t := by
  refine run_frame (by decide) ?_ h
  with_reducible
    refine .step (soundingEnd_frame ..) (by decide) ?_
    exact .refl _ _

theorem execCmSlacMatchReq_frame (n : Fin 16) (mac : BitVec 48) (runId : U64) {s t : State} (h : execCmSlacMatchReq n mac runId s = .next t) :
    Only [.plc, .rpl] s t := by
  refine input_frame (by decide) ?_ h
  with_reducible
    refine .step (slacMatchReq_frame ..) (by decide) ?_
    exact .refl _ _

theorem execVehicleJoined_frame (n : Fin 16) {s t : State} (h : execVehicleJoined n s = .next t) :
    Only [.lau, .sess, .plc, .plcCfg, .v2g, .imd, .imdG, .saf, .safX, .lsw, .arb, .hic, .qmg, .cwy, .cwyX, .btn, .dmp, .rpl] s t := by
  refine input_frame (by decide) ?_ h
  with_reducible
    refine .step (vehicleJoined_frame ..) (by decide) ?_
    exact .refl _ _

theorem execSlacTimerExpired_frame (n : Fin 16) {s t : State} (h : execSlacTimerExpired n s = .next t) :
    Only [.tide, .lau, .sess, .veh, .plc, .plcCfg, .imd, .imdG, .saf, .safX, .lsw, .pea, .arb, .slt, .legal, .bri, .key, .hic, .qmg, .cwy, .cwyX, .btn, .dmp, .rpl, .prior] s t := by
  refine run_frame (by decide) ?_ h
  with_reducible
    refine .step (slacTimerExpired_frame ..) (by decide) ?_
    exact .refl _ _

theorem execSlacRestartEnd_frame (n : Fin 16) {s t : State} (h : execSlacRestartEnd n s = .next t) :
    Only [.tide, .lau, .veh, .plc, .arb, .hic, .qmg, .cwy, .cwyX, .btn, .dmp, .rpl, .prior] s t := by
  refine run_frame (by decide) ?_ h
  with_reducible
    refine .step (slacRestartEnd_frame ..) (by decide) ?_
    exact .refl _ _

theorem execValidationWindowEnd_frame (n : Fin 16) (announced : Option Nat) {s t : State} (h : execValidationWindowEnd n announced s = .next t) :
    Only [.lau, .sess, .veh, .plc, .plcCfg, .imd, .imdG, .saf, .safX, .lsw, .pea, .arb, .slt, .legal, .bri, .key, .hic, .qmg, .cwy, .cwyX, .btn, .dmp, .rpl] s t := by
  refine input_frame (by decide) ?_ h
  with_reducible
    refine .step (validationEnd_frame ..) (by decide) ?_
    exact .refl _ _

theorem execEraseRateWindow_frame (n : Fin 16) (gain : Fin 16) (gaps windows : List (List (BitVec 12))) (tail : List (BitVec 12)) {s t : State} (h : execEraseRateWindow n gain gaps windows tail s = .next t) :
    Only [.tide, .plc, .hic, .rpl, .prior] s t := by
  refine input_frame (by decide) ?_ h
  with_reducible
    refine .step (eraseRateWindow_frame ..) (by decide) ?_
    exact .refl _ _

theorem execModemFault_frame (n : Fin 16) {s t : State} (h : execModemFault n s = .next t) :
    Only [.lau, .sess, .mlk, .veh, .plc, .plcCfg, .v2g, .imd, .imdG, .saf, .safX, .lsw, .pea, .arb, .slt, .legal, .bri, .key, .hic, .qmg, .cwy, .cwyX, .btn, .dmp, .rpl] s t := by
  refine run_frame (by decide) ?_ h
  with_reducible
    refine .step (modemFault_frame ..) (by decide) ?_
    exact .refl _ _

theorem execPlcSetMac_frame (m : Fin 4) {s t : State} (h : execPlcSetMac m s = .next t) :
    Only [.plcCfg, .pea, .arb, .mbx, .hic, .rpl] s t := by
  refine run_frame (by decide) ?_ h
  with_reducible
    refine .command (by decide) (by decide) (fun _ _ => ?_) ?_
    refine .step (plcSetMac_frame ..) (by decide) ?_
    assumption
    exact .refl _ _

theorem execPlcEnable_frame (m : Fin 4) {s t : State} (h : execPlcEnable m s = .next t) :
    Only [.lau, .sess, .veh, .plc, .plcCfg, .v2g, .imd, .imdG, .saf, .safX, .lsw, .pea, .arb, .slt, .legal, .bri, .key, .mbx, .hic, .qmg, .cwy, .cwyX, .btn, .dmp, .rpl] s t := by
  refine run_frame (by decide) ?_ h
  with_reducible
    refine .command (by decide) (by decide) (fun _ _ => ?_) ?_
    refine .step (plcEnable_frame ..) (by decide) ?_
    assumption
    exact .refl _ _

theorem execPlcSetSlac_frame (m : Fin 4) {s t : State} (h : execPlcSetSlac m s = .next t) :
    Only [.plcCfg, .pea, .arb, .mbx, .hic, .btn, .rpl] s t := by
  refine run_frame (by decide) ?_ h
  with_reducible
    refine .command (by decide) (by decide) (fun _ _ => ?_) ?_
    refine .step (plcSetSlac_frame ..) (by decide) ?_
    assumption
    exact .refl _ _

theorem execPlcSetBlank_frame (m : Fin 4) {s t : State} (h : execPlcSetBlank m s = .next t) :
    Only [.plc, .pea, .arb, .mbx, .hic, .btn, .rpl] s t := by
  refine run_frame (by decide) ?_ h
  with_reducible
    refine .command (by decide) (by decide) (fun _ _ => ?_) ?_
    refine .step (plcSetBlank_frame ..) (by decide) ?_
    assumption
    exact .refl _ _

theorem execPlcGetStatus_frame (m : Fin 4) {s t : State} (h : execPlcGetStatus m s = .next t) :
    Only [.mbx, .rpl] s t := by
  refine run_frame (by decide) ?_ h
  with_reducible
    refine .command (by decide) (by decide) (fun _ _ => ?_) ?_
    refine .step (plcGetStatus_frame ..) (by decide) ?_
    assumption
    exact .refl _ _

theorem execPlcGetRun_frame (m : Fin 4) {s t : State} (h : execPlcGetRun m s = .next t) :
    Only [.mbx, .rpl] s t := by
  refine run_frame (by decide) ?_ h
  with_reducible
    refine .command (by decide) (by decide) (fun _ _ => ?_) ?_
    refine .step (plcGetRun_frame ..) (by decide) ?_
    assumption
    exact .refl _ _

theorem execPlcGetProfile_frame (m : Fin 4) {s t : State} (h : execPlcGetProfile m s = .next t) :
    Only [.mbx, .rpl] s t := by
  refine run_frame (by decide) ?_ h
  with_reducible
    refine .command (by decide) (by decide) (fun _ _ => ?_) ?_
    refine .step (plcGetProfile_frame ..) (by decide) ?_
    assumption
    exact .refl _ _

theorem execPlcClearCounts_frame (m : Fin 4) {s t : State} (h : execPlcClearCounts m s = .next t) :
    Only [.plc, .mbx, .rpl] s t := by
  refine run_frame (by decide) ?_ h
  with_reducible
    refine .command (by decide) (by decide) (fun _ _ => ?_) ?_
    refine .step (plcClearCounts_frame ..) (by decide) ?_
    assumption
    exact .refl _ _

/-! ### Authorise -/

theorem execAuthHoldExpired_frame (n : Fin 16) {s t : State} (h : execAuthHoldExpired n s = .next t) :
    Only [.tide, .pea, .arb, .auth, .hic, .btn, .rpl, .prior] s t := by
  refine run_frame (by decide) ?_ h
  with_reducible
    refine .step (authHoldExpired_frame ..) (by decide) ?_
    exact .refl _ _

theorem execSltAuthorise_frame (m : Fin 4) {s t : State} (h : execSltAuthorise m s = .next t) :
    Only [.lau, .sess, .veh, .plc, .plcCfg, .imd, .imdG, .saf, .safX, .lsw, .pea, .arb, .slt, .legal, .auth, .bri, .key, .mbx, .hic, .qmg, .cwy, .cwyX, .btn, .dmp, .rpl] s t := by
  refine run_frame (by decide) ?_ h
  with_reducible
    refine .command (by decide) (by decide) (fun _ _ => ?_) ?_
    refine .step (sltAuthorise_frame ..) (by decide) ?_
    assumption
    exact .refl _ _

/-! ### Billing -/

theorem execSignEngineComplete_frame (u : Fin 4) (good : Bool) {s t : State} (h : execSignEngineComplete u good s = .next t) :
    Only [.tide, .lau, .sess, .veh, .plc, .plcCfg, .v2g, .imd, .imdG, .saf, .safX, .lsw, .pea, .arb, .slt, .legal, .bri, .key, .hic, .qmg, .cwy, .cwyX, .btn, .dmp, .rpl, .prior] s t := by
  refine run_frame (by decide) ?_ h
  with_reducible
    refine .step (signEngineComplete_frame ..) (by decide) ?_
    exact .refl _ _

theorem execSignRetry_frame {s t : State} (h : execSignRetry s = .next t) :
    Only [.tide, .slt, .key, .rpl, .prior] s t := by
  refine run_frame (by decide) ?_ h
  with_reducible
    refine .step (signRetry_frame ..) (by decide) ?_
    exact .refl _ _

theorem execHeldReadingsFlush_frame {s t : State} (h : execHeldReadingsFlush s = .next t) :
    Only [.lau, .arb, .slt, .hic, .qmg, .cwy, .cwyX, .btn, .dmp, .rpl] s t := by
  refine run_frame (by decide) ?_ h
  with_reducible
    refine .step (heldReadingsFlush_frame ..) (by decide) ?_
    exact .refl _ _

theorem execTamperSample_frame (levels : BitVec 4) {s t : State} (h : execTamperSample levels s = .next t) :
    Only [.backup, .rpl] s t := by
  refine input_frame (by decide) ?_ h
  with_reducible
    refine .step (tamperSample_frame ..) (by decide) ?_
    exact .refl _ _

theorem execTamperEventMove_frame {s t : State} (h : execTamperEventMove s = .next t) :
    Only [.pea, .arb, .slt, .backup, .hic, .btn, .rpl] s t := by
  refine run_frame (by decide) ?_ h
  with_reducible
    refine .step (tamperMove_frame ..) (by decide) ?_
    exact .refl _ _

theorem execSltLoadCalendar_frame (m : Fin 4) {s t : State} (h : execSltLoadCalendar m s = .next t) :
    Only [.lau, .pea, .arb, .slt, .mbx, .hic, .qmg, .cwy, .cwyX, .btn, .dmp, .rpl] s t := by
  refine run_frame (by decide) ?_ h
  with_reducible
    refine .command (by decide) (by decide) (fun _ _ => ?_) ?_
    refine .step (sltLoadCalendar_frame ..) (by decide) ?_
    assumption
    exact .refl _ _

theorem execSltGetCalendar_frame (m : Fin 4) {s t : State} (h : execSltGetCalendar m s = .next t) :
    Only [.lau, .arb, .mbx, .hic, .qmg, .cwy, .cwyX, .btn, .dmp, .rpl] s t := by
  refine run_frame (by decide) ?_ h
  with_reducible
    refine .command (by decide) (by decide) (fun _ _ => ?_) ?_
    refine .step (sltGetCalendar_frame ..) (by decide) ?_
    assumption
    exact .refl _ _

theorem execSltSetLegal_frame (m : Fin 4) {s t : State} (h : execSltSetLegal m s = .next t) :
    Only [.lau, .pea, .arb, .slt, .mbx, .hic, .qmg, .cwy, .cwyX, .btn, .dmp, .rpl] s t := by
  refine run_frame (by decide) ?_ h
  with_reducible
    refine .command (by decide) (by decide) (fun _ _ => ?_) ?_
    refine .step (sltSetLegal_frame ..) (by decide) ?_
    assumption
    exact .refl _ _

theorem execSltReadRegisters_frame (m : Fin 4) {s t : State} (h : execSltReadRegisters m s = .next t) :
    Only [.mbx, .rpl] s t := by
  refine run_frame (by decide) ?_ h
  with_reducible
    refine .command (by decide) (by decide) (fun _ _ => ?_) ?_
    refine .step (sltReadRegisters_frame ..) (by decide) ?_
    assumption
    exact .refl _ _

theorem execSltSignReading_frame (m : Fin 4) {s t : State} (h : execSltSignReading m s = .next t) :
    Only [.slt, .key, .mbx, .rpl] s t := by
  refine run_frame (by decide) ?_ h
  with_reducible
    refine .command (by decide) (by decide) (fun _ _ => ?_) ?_
    refine .step (sltSignReading_frame ..) (by decide) ?_
    assumption
    exact .refl _ _

theorem execSltGetTamper_frame (m : Fin 4) {s t : State} (h : execSltGetTamper m s = .next t) :
    Only [.mbx, .rpl] s t := by
  refine run_frame (by decide) ?_ h
  with_reducible
    refine .command (by decide) (by decide) (fun _ _ => ?_) ?_
    refine .step (sltGetTamper_frame ..) (by decide) ?_
    assumption
    exact .refl _ _

theorem execSltClearFlags_frame (m : Fin 4) {s t : State} (h : execSltClearFlags m s = .next t) :
    Only [.acc, .pea, .arb, .slt, .legal, .bri, .key, .mbx, .hic, .btn, .rpl] s t := by
  refine run_frame (by decide) ?_ h
  with_reducible
    refine .command (by decide) (by decide) (fun _ _ => ?_) ?_
    refine .step (sltClearFlags_frame ..) (by decide) ?_
    assumption
    exact .refl _ _

theorem execSltSetOutput_frame (m : Fin 4) {s t : State} (h : execSltSetOutput m s = .next t) :
    Only [.lau, .pea, .arb, .slt, .mbx, .hic, .qmg, .cwy, .cwyX, .btn, .dmp, .rpl] s t := by
  refine run_frame (by decide) ?_ h
  with_reducible
    refine .command (by decide) (by decide) (fun _ _ => ?_) ?_
    refine .step (sltSetOutput_frame ..) (by decide) ?_
    assumption
    exact .refl _ _

theorem execSltSetTamper_frame (m : Fin 4) {s t : State} (h : execSltSetTamper m s = .next t) :
    Only [.backup, .mbx, .rpl] s t := by
  refine run_frame (by decide) ?_ h
  with_reducible
    refine .command (by decide) (by decide) (fun _ _ => ?_) ?_
    refine .step (sltSetTamper_frame ..) (by decide) ?_
    assumption
    exact .refl _ _

theorem execBriTopup_frame (m : Fin 4) {s t : State} (h : execBriTopup m s = .next t) :
    Only [.pea, .arb, .bri, .mbx, .hic, .btn, .dmp, .rpl] s t := by
  refine run_frame (by decide) ?_ h
  with_reducible
    refine .command (by decide) (by decide) (fun _ _ => ?_) ?_
    refine .step (ledgerMessage_frame ..) (by decide) ?_
    assumption
    exact .refl _ _

theorem execBriRefund_frame (m : Fin 4) {s t : State} (h : execBriRefund m s = .next t) :
    Only [.pea, .arb, .bri, .mbx, .hic, .btn, .dmp, .rpl] s t := by
  refine run_frame (by decide) ?_ h
  with_reducible
    refine .command (by decide) (by decide) (fun _ _ => ?_) ?_
    refine .step (ledgerMessage_frame ..) (by decide) ?_
    assumption
    exact .refl _ _

theorem execBriGetWallet_frame (m : Fin 4) {s t : State} (h : execBriGetWallet m s = .next t) :
    Only [.mbx, .rpl] s t := by
  refine run_frame (by decide) ?_ h
  with_reducible
    refine .command (by decide) (by decide) (fun _ _ => ?_) ?_
    refine .step (briGetWallet_frame ..) (by decide) ?_
    assumption
    exact .refl _ _

theorem execBriSetConfig_frame (m : Fin 4) {s t : State} (h : execBriSetConfig m s = .next t) :
    Only [.pea, .arb, .bri, .mbx, .hic, .btn, .rpl] s t := by
  refine run_frame (by decide) ?_ h
  with_reducible
    refine .command (by decide) (by decide) (fun _ _ => ?_) ?_
    refine .step (briSetConfig_frame ..) (by decide) ?_
    assumption
    exact .refl _ _

theorem execBriGetLedger_frame (m : Fin 4) {s t : State} (h : execBriGetLedger m s = .next t) :
    Only [.mbx, .rpl] s t := by
  refine run_frame (by decide) ?_ h
  with_reducible
    refine .command (by decide) (by decide) (fun _ _ => ?_) ?_
    refine .step (briGetLedger_frame ..) (by decide) ?_
    assumption
    exact .refl _ _

theorem execBriAudit_frame (m : Fin 4) {s t : State} (h : execBriAudit m s = .next t) :
    Only [.mbx, .rpl] s t := by
  refine run_frame (by decide) ?_ h
  with_reducible
    refine .command (by decide) (by decide) (fun _ _ => ?_) ?_
    refine .step (briAudit_frame ..) (by decide) ?_
    assumption
    exact .refl _ _

theorem execBriBlock_frame (m : Fin 4) {s t : State} (h : execBriBlock m s = .next t) :
    Only [.pea, .arb, .bri, .mbx, .hic, .rpl] s t := by
  refine run_frame (by decide) ?_ h
  with_reducible
    refine .command (by decide) (by decide) (fun _ _ => ?_) ?_
    refine .step (briBlock_frame ..) (by decide) ?_
    assumption
    exact .refl _ _

/-! ### Boot -/

theorem execBootStageDone_frame (x : BootInfo) {s t : State} (h : execBootStageDone x s = .next t) :
    Only (Part.but [.snaps, .barrier, .fab, .d2d, .sluCnt, .rcmTest, .hp, .frames, .dbg, .settings, .legalSet, .updRec, .prior]) s t := by
  refine run_frame (by decide) ?_ h
  with_reducible
    refine .step (bootStageDone_frame ..) (by decide) ?_
    exact .refl _ _

theorem execReadyDeclared_frame {s t : State} (h : execReadyDeclared s = .next t) :
    Only [.tide, .hic, .rst, .rpl, .prior] s t := by
  refine run_frame (by decide) ?_ h
  with_reducible
    refine .step (readyDeclared_frame ..) (by decide) ?_
    exact .refl _ _

/-! ### Causeway -/

theorem execCwyRecordReceive_frame (slot : CwySlot) {s t : State} (h : execCwyRecordReceive slot s = .next t) :
    Only [.lau, .arb, .hic, .qmg, .cwy, .cwyX, .btn, .dmp, .rpl] s t := by
  refine run_frame (by decide) ?_ h
  with_reducible
    refine .step (slotReceive_frame ..) (by decide) ?_
    exact .refl _ _

theorem execCreditFrameReceive_frame (f : List U8) {s t : State} (h : execCreditFrameReceive f s = .next t) :
    Only [.arb, .hic, .qmg, .cwy, .cwyX, .btn, .dmp, .rpl] s t := by
  refine run_frame (by decide) ?_ h
  with_reducible
    refine .step (creditReceive_frame ..) (by decide) ?_
    exact .refl _ _

theorem execCwyRecordSend_frame {s t : State} (h : execCwyRecordSend s = .next t) :
    Only [.arb, .hic, .qmg, .cwy, .cwyX, .btn, .dmp, .rpl] s t := by
  refine run_frame (by decide) ?_ h
  with_reducible
    refine .step (recordSend_frame ..) (by decide) ?_
    exact .refl _ _

theorem execAckTimeout_frame {s t : State} (h : execAckTimeout s = .next t) :
    Only [.tide, .hic, .cwy, .cwyX, .rpl, .prior] s t := by
  refine run_frame (by decide) ?_ h
  with_reducible
    refine .step (ackTimeout_frame ..) (by decide) ?_
    exact .refl _ _

theorem execClockLost_frame {s t : State} (h : execClockLost s = .next t) :
    Only [.hic, .cwy, .cwyX, .rpl] s t := by
  refine run_frame (by decide) ?_ h
  with_reducible
    refine .step (clockLost_frame ..) (by decide) ?_
    exact .refl _ _

theorem execLinkUp_frame {s t : State} (h : execLinkUp s = .next t) :
    Only [.mbx, .hic, .cwy, .cwyX, .rpl] s t := by
  refine run_frame (by decide) ?_ h
  with_reducible
    refine .step (linkUp_frame ..) (by decide) ?_
    exact .refl _ _

theorem execTrainingTimeout_frame {s t : State} (h : execTrainingTimeout s = .next t) :
    Only [.tide, .mbx, .cwy, .cwyX, .rpl, .prior] s t := by
  refine run_frame (by decide) ?_ h
  with_reducible
    refine .step (trainingTimeout_frame ..) (by decide) ?_
    exact .refl _ _

theorem execReceiveClockStable_frame {s t : State} (h : execReceiveClockStable s = .next t) :
    Only [.cwy, .rpl] s t := by
  refine run_frame (by decide) ?_ h
  with_reducible
    refine .step (receiveClockStable_frame ..) (by decide) ?_
    exact .refl _ _

theorem execGroupStall_frame (g : Fin 64) {s t : State} (h : execGroupStall g s = .next t) :
    Only [.tide, .hic, .cwy, .rpl, .prior] s t := by
  refine run_frame (by decide) ?_ h
  with_reducible
    refine .step (groupStall_frame ..) (by decide) ?_
    exact .refl _ _

theorem execQmgAlloc_frame (agent : Fin 16) (g : Fin 64) {s t : State} (h : execQmgAlloc agent g s = .next t) :
    Only [.tide, .arb, .hic, .qmg, .btn, .dmp, .rpl, .prior] s t := by
  refine run_frame (by decide) ?_ h
  with_reducible
    refine .step (qmgAlloc_frame ..) (by decide) ?_
    refine .step (qAccept_frame ..) (by decide) ?_
    exact .refl _ _

theorem execQmgEnqueue_frame (agent : Fin 16) (q : Fin 32768) (u : Fin 131072) {s t : State} (h : execQmgEnqueue agent q u s = .next t) :
    Only [.tide, .lau, .arb, .hic, .qmg, .cwy, .cwyX, .btn, .dmp, .rpl, .prior] s t := by
  refine run_frame (by decide) ?_ h
  with_reducible
    refine .step (qmgEnqueue_frame ..) (by decide) ?_
    refine .step (qAccept_frame ..) (by decide) ?_
    exact .refl _ _

theorem execQmgDequeue_frame (agent : Fin 16) (q : Fin 32768) {s t : State} (h : execQmgDequeue agent q s = .next t) :
    Only [.tide, .arb, .hic, .qmg, .cwy, .btn, .dmp, .rpl, .prior] s t := by
  refine run_frame (by decide) ?_ h
  with_reducible
    refine .step (qmgDequeue_frame ..) (by decide) ?_
    refine .step (qAccept_frame ..) (by decide) ?_
    exact .refl _ _

theorem execQmgFree_frame (agent : Fin 16) (u : Fin 131072) {s t : State} (h : execQmgFree agent u s = .next t) :
    Only [.tide, .arb, .hic, .qmg, .cwy, .cwyX, .btn, .dmp, .rpl, .prior] s t := by
  refine run_frame (by decide) ?_ h
  with_reducible
    refine .step (qmgFree_frame ..) (by decide) ?_
    refine .step (qAccept_frame ..) (by decide) ?_
    exact .refl _ _

theorem execCwySetLink_frame (m : Fin 4) {s t : State} (h : execCwySetLink m s = .next t) :
    Only [.pea, .arb, .mbx, .hic, .cwy, .cwyX, .rpl] s t := by
  refine run_frame (by decide) ?_ h
  with_reducible
    refine .command (by decide) (by decide) (fun _ _ => ?_) ?_
    refine .step (cwySetLink_frame ..) (by decide) ?_
    assumption
    exact .refl _ _

theorem execCwyGetStatus_frame (m : Fin 4) {s t : State} (h : execCwyGetStatus m s = .next t) :
    Only [.mbx, .rpl] s t := by
  refine run_frame (by decide) ?_ h
  with_reducible
    refine .command (by decide) (by decide) (fun _ _ => ?_) ?_
    refine .step (ok_frame ..) (by decide) ?_
    assumption
    exact .refl _ _

theorem execCwyResetLink_frame (m : Fin 4) {s t : State} (h : execCwyResetLink m s = .next t) :
    Only [.mbx, .hic, .cwy, .cwyX, .rpl] s t := by
  refine run_frame (by decide) ?_ h
  with_reducible
    refine .command (by decide) (by decide) (fun _ _ => ?_) ?_
    refine .step (cwyResetLink_frame ..) (by decide) ?_
    assumption
    exact .refl _ _

theorem execCwySetGroup_frame (m : Fin 4) {s t : State} (h : execCwySetGroup m s = .next t) :
    Only [.pea, .arb, .mbx, .hic, .qmg, .cwy, .btn, .rpl] s t := by
  refine run_frame (by decide) ?_ h
  with_reducible
    refine .command (by decide) (by decide) (fun _ _ => ?_) ?_
    refine .step (cwySetGroup_frame ..) (by decide) ?_
    assumption
    exact .refl _ _

theorem execCwyGetGroup_frame (m : Fin 4) {s t : State} (h : execCwyGetGroup m s = .next t) :
    Only [.mbx, .rpl] s t := by
  refine run_frame (by decide) ?_ h
  with_reducible
    refine .command (by decide) (by decide) (fun _ _ => ?_) ?_
    refine .step (cwyGetGroup_frame ..) (by decide) ?_
    assumption
    exact .refl _ _

theorem execQmgSetQueue_frame (m : Fin 4) {s t : State} (h : execQmgSetQueue m s = .next t) :
    Only [.pea, .arb, .mbx, .hic, .qmg, .btn, .rpl] s t := by
  refine run_frame (by decide) ?_ h
  with_reducible
    refine .command (by decide) (by decide) (fun _ _ => ?_) ?_
    refine .step (qmgSetQueue_frame ..) (by decide) ?_
    assumption
    exact .refl _ _

theorem execQmgGetQueue_frame (m : Fin 4) {s t : State} (h : execQmgGetQueue m s = .next t) :
    Only [.mbx, .rpl] s t := by
  refine run_frame (by decide) ?_ h
  with_reducible
    refine .command (by decide) (by decide) (fun _ _ => ?_) ?_
    refine .step (qmgGetQueue_frame ..) (by decide) ?_
    assumption
    exact .refl _ _

theorem execQmgFlush_frame (m : Fin 4) {s t : State} (h : execQmgFlush m s = .next t) :
    Only [.pea, .arb, .mbx, .hic, .qmg, .cwy, .cwyX, .btn, .dmp, .rpl] s t := by
  refine run_frame (by decide) ?_ h
  with_reducible
    refine .command (by decide) (by decide) (fun _ _ => ?_) ?_
    refine .step (qmgFlush_frame ..) (by decide) ?_
    assumption
    exact .refl _ _

theorem execQmgGetPool_frame (m : Fin 4) {s t : State} (h : execQmgGetPool m s = .next t) :
    Only [.mbx, .rpl] s t := by
  refine run_frame (by decide) ?_ h
  with_reducible
    refine .command (by decide) (by decide) (fun _ _ => ?_) ?_
    refine .step (ok_frame ..) (by decide) ?_
    assumption
    exact .refl _ _

theorem execQmgSetLowWater_frame (m : Fin 4) {s t : State} (h : execQmgSetLowWater m s = .next t) :
    Only [.pea, .arb, .mbx, .hic, .qmg, .rpl] s t := by
  refine run_frame (by decide) ?_ h
  with_reducible
    refine .command (by decide) (by decide) (fun _ _ => ?_) ?_
    refine .step (qmgSetLowWater_frame ..) (by decide) ?_
    assumption
    exact .refl _ _

theorem execCwyQmgClear_frame (m : Fin 4) {s t : State} (h : execCwyQmgClear m s = .next t) :
    Only [.mbx, .qmg, .cwy, .rpl] s t := by
  refine run_frame (by decide) ?_ h
  with_reducible
    refine .command (by decide) (by decide) (fun _ _ => ?_) ?_
    refine .step (cwyQmgClear_frame ..) (by decide) ?_
    assumption
    exact .refl _ _

/-! ### Debug -/

theorem execIdcode_frame {s t : State} (h : execIdcode s = .next t) :
    Only [.rpl, .dbg] s t := by
  refine run_frame (by decide) ?_ h
  with_reducible
    refine .step (scan_frame ..) (by decide) ?_
    exact .refl _ _

theorem execSamplePreload_frame (pins : List Bool) {s t : State} (h : execSamplePreload pins s = .next t) :
    Only [.rpl, .dbg] s t := by
  refine run_frame (by decide) ?_ h
  with_reducible
    refine .step (samplePreload_frame ..) (by decide) ?_
    exact .refl _ _

theorem execExtest_frame (pins : List Bool) {s t : State} (h : execExtest pins s = .next t) :
    Only [.rpl, .dbg] s t := by
  refine run_frame (by decide) ?_ h
  with_reducible
    refine .step (extest_frame ..) (by decide) ?_
    exact .refl _ _

theorem execDbgChallenge_frame {s t : State} (h : execDbgChallenge s = .next t) :
    Only [.key, .rpl, .dbg] s t := by
  refine run_frame (by decide) ?_ h
  with_reducible
    refine .step (dbgChallenge_frame ..) (by decide) ?_
    exact .refl _ _

theorem execDbgResponse_frame (scope : U8) (signature : List U8) {s t : State} (h : execDbgResponse scope signature s = .next t) :
    Only [.arb, .hic, .btn, .rpl, .dbg] s t := by
  refine run_frame (by decide) ?_ h
  with_reducible
    refine .step (dbgResponse_frame ..) (by decide) ?_
    exact .refl _ _

theorem execDbgChallengeExpired_frame {s t : State} (h : execDbgChallengeExpired s = .next t) :
    Only [.tide, .rpl, .dbg, .prior] s t := by
  refine run_frame (by decide) ?_ h
  with_reducible
    refine .step (challengeLapse_frame ..) (by decide) ?_
    exact .refl _ _

theorem execDbgAccess_frame (op : DebugOp) {s t : State} (h : execDbgAccess op s = .next t) :
    Only [.tide, .barrier, .cross, .met, .slu, .mlk, .veh, .imd, .rcm, .pea, .mbx, .hp, .hic, .rst, .upd, .rpl, .dbg] s t := by
  refine run_frame (by decide) ?_ h
  with_reducible
    refine .step (dbgAccess_frame ..) (by decide) ?_
    exact .refl _ _

theorem execDbgStatusScan_frame {s t : State} (h : execDbgStatusScan s = .next t) :
    Only [.rpl, .dbg] s t := by
  refine run_frame (by decide) ?_ h
  with_reducible
    refine .step (dbgStatusScan_frame ..) (by decide) ?_
    exact .refl _ _

theorem execBypass_frame {s t : State} (h : execBypass s = .next t) :
    Only [.rpl, .dbg] s t := by
  refine run_frame (by decide) ?_ h
  with_reducible
    refine .step (bypassScan_frame ..) (by decide) ?_
    exact .refl _ _

theorem execDebugHalt_frame (core : CoreId) {s t : State} (h : execDebugHalt core s = .next t) :
    Only [.lau, .sess, .mlk, .veh, .plc, .plcCfg, .v2g, .imd, .imdG, .saf, .safX, .lsw, .pea, .arb, .slt, .legal, .bri, .key, .hic, .qmg, .cwy, .cwyX, .rst, .btn, .dmp, .rpl, .dbg] s t := by
  refine run_frame (by decide) ?_ h
  with_reducible
    refine .step (debugHalt_frame ..) (by decide) ?_
    exact .refl _ _

theorem execDebugStep_frame (core : CoreId) {s t : State} (h : execDebugStep core s = .next t) :
    Only [.rpl, .dbg] s t := by
  refine run_frame (by decide) ?_ h
  with_reducible
    refine .step (debugStep_frame ..) (by decide) ?_
    exact .refl _ _

theorem execDebugResume_frame (core : CoreId) {s t : State} (h : execDebugResume core s = .next t) :
    Only (Part.but [.tide, .snaps, .barrier, .fab, .d2d, .cross, .met, .acc, .pq, .slu, .sluCnt, .vehCfg, .v2gCfg, .rcm, .rcmTest, .pf, .backup, .hp, .pnl, .frames, .nfc, .upd, .settings, .newSettings, .legalSet, .updRec, .kept, .prior]) s t := by
  refine run_frame (by decide) ?_ h
  with_reducible
    refine .step (debugResume_frame ..) (by decide) ?_
    exact .refl _ _

theorem execDebugResetRequest_frame (hub : Bool) (core : CoreId) {s t : State} (h : execDebugResetRequest hub core s = .next t) :
    Only [.lau, .sess, .mlk, .veh, .plc, .plcCfg, .v2g, .imd, .imdG, .saf, .safX, .lsw, .pea, .arb, .slt, .legal, .bri, .key, .mbx, .hic, .qmg, .cwy, .cwyX, .rst, .btn, .dmp, .rpl, .dbg] s t := by
  refine run_frame (by decide) ?_ h
  with_reducible
    refine .step (debugReset_frame ..) (by decide) ?_
    exact .refl _ _

/-! ### Dump -/

theorem execFatalError_frame {s t : State} (h : execFatalError s = .next t) :
    Only [.tide, .lau, .sess, .mlk, .veh, .plc, .plcCfg, .imd, .imdG, .saf, .safX, .lsw, .pea, .arb, .slt, .legal, .bri, .key, .mbx, .hic, .qmg, .cwy, .cwyX, .btn, .dmp, .rpl] s t := by
  refine run_frame (by decide) ?_ h
  with_reducible
    refine .step (fatalError_frame ..) (by decide) ?_
    exact .refl _ _

theorem execDumpStart_frame {s t : State} (h : execDumpStart s = .next t) :
    Only [.tide, .dmp, .rpl, .prior] s t := by
  refine run_frame (by decide) ?_ h
  with_reducible
    refine .step (dumpStart_frame ..) (by decide) ?_
    exact .refl _ _

theorem execDumpComplete_frame {s t : State} (h : execDumpComplete s = .next t) :
    Only [.arb, .hic, .dmp, .rpl] s t := by
  refine run_frame (by decide) ?_ h
  with_reducible
    refine .step (dumpComplete_frame ..) (by decide) ?_
    exact .refl _ _

theorem execDmpGetStatus_frame (m : Fin 4) {s t : State} (h : execDmpGetStatus m s = .next t) :
    Only [.mbx, .rpl] s t := by
  refine run_frame (by decide) ?_ h
  with_reducible
    refine .command (by decide) (by decide) (fun _ _ => ?_) ?_
    refine .step (dmpGetStatus_frame ..) (by decide) ?_
    assumption
    exact .refl _ _

theorem execDmpExport_frame (m : Fin 4) {s t : State} (h : execDmpExport m s = .next t) :
    Only [.lau, .arb, .mbx, .hic, .qmg, .cwy, .cwyX, .btn, .dmp, .rpl] s t := by
  refine run_frame (by decide) ?_ h
  with_reducible
    refine .command (by decide) (by decide) (fun _ _ => ?_) ?_
    refine .step (dmpExport_frame ..) (by decide) ?_
    assumption
    exact .refl _ _

theorem execDmpRelease_frame (m : Fin 4) {s t : State} (h : execDmpRelease m s = .next t) :
    Only [.mbx, .dmp, .rpl] s t := by
  refine run_frame (by decide) ?_ h
  with_reducible
    refine .command (by decide) (by decide) (fun _ _ => ?_) ?_
    refine .step (dmpRelease_frame ..) (by decide) ?_
    assumption
    exact .refl _ _

theorem execDmpTrigger_frame (m : Fin 4) {s t : State} (h : execDmpTrigger m s = .next t) :
    Only [.key, .mbx, .hic, .dmp, .rpl] s t := by
  refine run_frame (by decide) ?_ h
  with_reducible
    refine .command (by decide) (by decide) (fun _ _ => ?_) ?_
    refine .step (dmpTrigger_frame ..) (by decide) ?_
    assumption
    exact .refl _ _

/-! ### Energy -/

theorem execSalternApply_frame {s t : State} (h : execSalternApply s = .next t) :
    Only [.tide, .lau, .acc, .arb, .slt, .legal, .key, .hic, .qmg, .cwy, .cwyX, .btn, .dmp, .rpl, .prior] s t := by
  refine run_frame (by decide) ?_ h
  with_reducible
    refine .step (salternApply_frame ..) (by decide) ?_
    exact .refl _ _

theorem execBrinePublish_frame {s t : State} (h : execBrinePublish s = .next t) :
    Only [.tide, .lau, .acc, .sess, .veh, .plc, .plcCfg, .imd, .imdG, .saf, .safX, .lsw, .pea, .arb, .pf, .slt, .legal, .bri, .key, .hic, .qmg, .cwy, .cwyX, .btn, .dmp, .rpl, .prior] s t := by
  refine run_frame (by decide) ?_ h
  with_reducible
    refine .step (brinePublish_frame ..) (by decide) ?_
    exact .refl _ _

theorem execMetEnergyRead_frame (m : Fin 4) {s t : State} (h : execMetEnergyRead m s = .next t) :
    Only [.mbx, .rpl] s t := by
  refine run_frame (by decide) ?_ h
  with_reducible
    refine .command (by decide) (by decide) (fun _ _ => ?_) ?_
    refine .step (metEnergyRead_frame ..) (by decide) ?_
    assumption
    exact .refl _ _

/-! ### Fabric -/

theorem execEngineComplete_frame (e : Fin 15) (c : U32) {s t : State} (h : execEngineComplete e c s = .next t) :
    Only (Part.but [.snaps, .barrier, .d2d, .cross, .sluCnt, .vehCfg, .v2gCfg, .rcmTest, .pf, .auth, .backup, .hp, .pnl, .frames, .nfc, .upd, .dbg, .settings, .newSettings, .legalSet, .updRec, .kept, .prior]) s t := by
  refine run_frame (by decide) ?_ h
  with_reducible
    refine .step (engineComplete_frame ..) (by decide) ?_
    exact .refl _ _

theorem execEngineOverrun_frame (e : Fin 15) (who : U16) {s t : State} (h : execEngineOverrun e who s = .next t) :
    Only (Part.but [.snaps, .barrier, .d2d, .cross, .sluCnt, .vehCfg, .v2gCfg, .rcmTest, .pf, .auth, .backup, .hp, .pnl, .frames, .nfc, .upd, .dbg, .settings, .newSettings, .legalSet, .updRec, .kept, .prior]) s t := by
  refine run_frame (by decide) ?_ h
  with_reducible
    refine .step (engineOverrun_frame ..) (by decide) ?_
    exact .refl _ _

theorem execTideLoss_frame (cause : TideLossCause) {s t : State} (h : execTideLoss cause s = .next t) :
    Only [.tide, .lau, .d2d, .sess, .mlk, .veh, .plc, .plcCfg, .imd, .imdG, .saf, .safX, .lsw, .pea, .arb, .pf, .slt, .legal, .bri, .key, .hic, .qmg, .cwy, .cwyX, .btn, .dmp, .rpl] s t := by
  refine run_frame (by decide) ?_ h
  with_reducible
    refine .step (tideLoss_frame ..) (by decide) ?_
    exact .refl _ _

theorem execDykeTideCheck_frame (advance : U32) {s t : State} (h : execDykeTideCheck advance s = .next t) :
    Only [.tide, .lau, .d2d, .sess, .mlk, .veh, .plc, .plcCfg, .imd, .imdG, .saf, .safX, .lsw, .pea, .arb, .pf, .slt, .legal, .bri, .key, .hic, .qmg, .cwy, .cwyX, .btn, .dmp, .rpl] s t := by
  refine run_frame (by decide) ?_ h
  with_reducible
    refine .step (dykeTideCheck_frame ..) (by decide) ?_
    exact .refl _ _

theorem execAdiePermitTimeout_frame {s t : State} (h : execAdiePermitTimeout s = .next t) :
    Only [.d2d, .saf, .safX, .lsw, .hic, .rpl] s t := by
  refine run_frame (by decide) ?_ h
  with_reducible
    refine .step (adiePermitTimeout_frame ..) (by decide) ?_
    exact .refl _ _

theorem execAdieRcWatchdog_frame {s t : State} (h : execAdieRcWatchdog s = .next t) :
    Only [.saf, .safX, .lsw, .hic, .rpl] s t := by
  refine run_frame (by decide) ?_ h
  with_reducible
    refine .step (adieOpen_frame ..) (by decide) ?_
    exact .refl _ _

theorem execBarrierOpen_frame {s t : State} (h : execBarrierOpen s = .next t) :
    Only [.barrier, .rpl] s t := by
  refine run_frame (by decide) ?_ h
  with_reducible
    refine .step (barrierOpen_frame ..) (by decide) ?_
    exact .refl _ _

theorem execBarrierArrive_frame (p : Fin 7) {s t : State} (h : execBarrierArrive p s = .next t) :
    Only [.barrier, .fab, .hic, .rpl] s t := by
  refine run_frame (by decide) ?_ h
  with_reducible
    refine .step (barrierArrive_frame ..) (by decide) ?_
    exact .refl _ _

theorem execBarrierRelease_frame (modems : U16) {s t : State} (h : execBarrierRelease modems s = .next t) :
    Only (Part.but [.snaps, .d2d, .cross, .sluCnt, .vehCfg, .v2gCfg, .rcmTest, .pf, .auth, .backup, .hp, .pnl, .frames, .nfc, .upd, .dbg, .settings, .newSettings, .legalSet, .updRec, .kept]) s t := by
  refine run_frame (by decide) ?_ h
  with_reducible
    refine .step (barrierRelease_frame ..) (by decide) ?_
    exact .refl _ _

theorem execD2dFrameReceive_frame (f : D2dFrame) {s t : State} (h : execD2dFrameReceive f s = .next t) :
    Only [.tide, .lau, .d2d, .sess, .mlk, .veh, .plc, .plcCfg, .imd, .imdG, .saf, .safX, .lsw, .pea, .arb, .pf, .slt, .legal, .bri, .key, .hic, .qmg, .cwy, .cwyX, .btn, .dmp, .rpl, .prior] s t := by
  refine run_frame (by decide) ?_ h
  with_reducible
    refine .step (d2dFrame_frame ..) (by decide) ?_
    exact .refl _ _

theorem execSysFabricSlack_frame (m : Fin 4) {s t : State} (h : execSysFabricSlack m s = .next t) :
    Only [.mbx, .rpl] s t := by
  refine run_frame (by decide) ?_ h
  with_reducible
    refine .command (by decide) (by decide) (fun _ _ => ?_) ?_
    refine .step (sysFabricSlack_frame ..) (by decide) ?_
    assumption
    exact .refl _ _

theorem execSysFabricClear_frame (m : Fin 4) {s t : State} (h : execSysFabricClear m s = .next t) :
    Only [.fab, .mbx, .rpl] s t := by
  refine run_frame (by decide) ?_ h
  with_reducible
    refine .command (by decide) (by decide) (fun _ _ => ?_) ?_
    refine .step (sysFabricClear_frame ..) (by decide) ?_
    assumption
    exact .refl _ _

theorem execSysD2dStatus_frame (m : Fin 4) {s t : State} (h : execSysD2dStatus m s = .next t) :
    Only [.d2d, .mbx, .rpl] s t := by
  refine run_frame (by decide) ?_ h
  with_reducible
    refine .command (by decide) (by decide) (fun _ _ => ?_) ?_
    refine .step (sysD2dStatus_frame ..) (by decide) ?_
    assumption
    exact .refl _ _

/-! ### Fetching -/

theorem execImageData_frame {s t : State} (h : execImageData s = .next t) :
    Only [.lau, .pea, .arb, .slt, .key, .mbx, .hic, .qmg, .cwy, .cwyX, .rst, .upd, .btn, .dmp, .rpl] s t := by
  refine run_frame (by decide) ?_ h
  with_reducible
    refine .step (imageData_frame ..) (by decide) ?_
    exact .refl _ _

theorem execBlockRequestTimeout_frame {s t : State} (h : execBlockRequestTimeout s = .next t) :
    Only [.tide, .lau, .arb, .mbx, .hic, .qmg, .cwy, .cwyX, .rst, .upd, .btn, .dmp, .rpl, .prior] s t := by
  refine run_frame (by decide) ?_ h
  with_reducible
    refine .step (blockTimeout_frame ..) (by decide) ?_
    exact .refl _ _

theorem execBootRetry_frame {s t : State} (h : execBootRetry s = .next t) :
    Only [.tide, .lau, .arb, .mbx, .hic, .qmg, .cwy, .cwyX, .upd, .btn, .dmp, .rpl, .prior] s t := by
  refine run_frame (by decide) ?_ h
  with_reducible
    refine .step (bootRetry_frame ..) (by decide) ?_
    exact .refl _ _

theorem execUpdBootPart_frame (m : Fin 4) {s t : State} (h : execUpdBootPart m s = .next t) :
    Only [.lau, .pea, .arb, .slt, .key, .mbx, .hic, .qmg, .cwy, .cwyX, .rst, .upd, .btn, .dmp, .rpl] s t := by
  refine run_frame (by decide) ?_ h
  with_reducible
    refine .step (updBootPart_frame ..) (by decide) ?_
    exact .refl _ _

theorem execMbxAcknowledge_frame (m : Fin 4) {s t : State} (h : execMbxAcknowledge m s = .next t) :
    Only [.mbx, .hic, .upd, .rpl] s t := by
  refine run_frame (by decide) ?_ h
  with_reducible
    refine .step (mbxAcknowledge_frame ..) (by decide) ?_
    exact .refl _ _

/-! ### Fire -/

theorem execLauncherTakeEntry_frame (r : Fin 1024) {s t : State} (h : execLauncherTakeEntry r s = .next t) :
    Only [.lau, .sess, .slu, .sluCnt, .mlk, .veh, .plc, .plcCfg, .imd, .imdG, .saf, .safX, .lsw, .pea, .arb, .slt, .legal, .bri, .key, .mbx, .hic, .qmg, .cwy, .cwyX, .btn, .dmp, .rpl] s t := by
  refine run_frame (by decide) ?_ h
  with_reducible
    refine .step (takeEntry_frame ..) (by decide) ?_
    exact .refl _ _

theorem execMlkCycle_frame (readback : BitVec 8) {s t : State} (h : execMlkCycle readback s = .next t) :
    Only (Part.but [.barrier, .fab, .cross, .acc, .pq, .vehCfg, .v2g, .v2gCfg, .rcm, .rcmTest, .pf, .auth, .backup, .hp, .pnl, .frames, .nfc, .rst, .upd, .dbg, .settings, .newSettings, .legalSet, .updRec, .kept]) s t := by
  refine run_frame (by decide) ?_ h
  with_reducible
    refine .step (mlkCycle_frame ..) (by decide) ?_
    exact .refl _ _

theorem execEntryFire_frame (first second : Bool) {s t : State} (h : execEntryFire first second s = .next t) :
    Only (Part.but [.barrier, .fab, .cross, .acc, .pq, .vehCfg, .v2g, .v2gCfg, .rcm, .rcmTest, .pf, .auth, .backup, .hp, .pnl, .frames, .nfc, .rst, .upd, .dbg, .settings, .newSettings, .legalSet, .updRec, .kept]) s t := by
  refine run_frame (by decide) ?_ h
  with_reducible
    refine .step (entryFire_frame ..) (by decide) ?_
    exact .refl _ _

theorem execAdieResult_frame {s t : State} (h : execAdieResult s = .next t) :
    Only (Part.but [.snaps, .barrier, .fab, .d2d, .cross, .met, .acc, .pq, .vehCfg, .v2g, .v2gCfg, .rcm, .rcmTest, .pf, .auth, .backup, .hp, .pnl, .frames, .nfc, .rst, .upd, .dbg, .settings, .newSettings, .legalSet, .updRec, .kept]) s t := by
  refine run_frame (by decide) ?_ h
  with_reducible
    refine .step (adieResult_frame ..) (by decide) ?_
    exact .refl _ _

/-! ### HostPort -/

theorem execMbxRing_frame (m : Fin 4) {s t : State} (h : execMbxRing m s = .next t) :
    Only [.mbx, .hp, .hic, .rpl] s t := by
  refine run_frame (by decide) ?_ h
  with_reducible
    refine .step (mbxRing_frame ..) (by decide) ?_
    exact .refl _ _

theorem execMbxCancel_frame (m : Fin 4) {s t : State} (h : execMbxCancel m s = .next t) :
    Only [.mbx, .hic, .rpl] s t := by
  refine run_frame (by decide) ?_ h
  with_reducible
    refine .step (mbxCancel_frame ..) (by decide) ?_
    exact .refl _ _

theorem execMbxResponseDone_frame (m : Fin 4) {s t : State} (h : execMbxResponseDone m s = .next t) :
    Only [.mbx, .hic, .rpl] s t := by
  refine run_frame (by decide) ?_ h
  with_reducible
    refine .step (mbxComplete_frame ..) (by decide) ?_
    exact .refl _ _

theorem execSysGetVersion_frame (m : Fin 4) {s t : State} (h : execSysGetVersion m s = .next t) :
    Only [.mbx, .rpl] s t := by
  refine run_frame (by decide) ?_ h
  with_reducible
    refine .command (by decide) (by decide) (fun _ _ => ?_) ?_
    refine .step (sysGetVersion_frame ..) (by decide) ?_
    assumption
    exact .refl _ _

theorem execSysEcho_frame (m : Fin 4) {s t : State} (h : execSysEcho m s = .next t) :
    Only [.mbx, .rpl] s t := by
  refine run_frame (by decide) ?_ h
  with_reducible
    refine .command (by decide) (by decide) (fun _ _ => ?_) ?_
    refine .step (ok_frame ..) (by decide) ?_
    assumption
    exact .refl _ _

theorem execSysHpStatus_frame (m : Fin 4) {s t : State} (h : execSysHpStatus m s = .next t) :
    Only [.mbx, .rpl] s t := by
  refine run_frame (by decide) ?_ h
  with_reducible
    refine .command (by decide) (by decide) (fun _ _ => ?_) ?_
    refine .step (sysHpStatus_frame ..) (by decide) ?_
    assumption
    exact .refl _ _

theorem execSysHpClear_frame (m : Fin 4) {s t : State} (h : execSysHpClear m s = .next t) :
    Only [.pea, .arb, .mbx, .hp, .hic, .btn, .rpl] s t := by
  refine run_frame (by decide) ?_ h
  with_reducible
    refine .command (by decide) (by decide) (fun _ _ => ?_) ?_
    refine .step (sysHpClear_frame ..) (by decide) ?_
    assumption
    exact .refl _ _

/-! ### Insulation -/

theorem execImdResult_frame (n : Fin 16) (x : ImdReading) {s t : State} (h : execImdResult n x s = .next t) :
    Only [.tide, .lau, .sess, .mlk, .veh, .plc, .plcCfg, .imd, .imdG, .saf, .safX, .lsw, .pea, .arb, .slt, .legal, .bri, .key, .hic, .qmg, .cwy, .cwyX, .btn, .dmp, .rpl, .prior] s t := by
  refine input_frame (by decide) ?_ h
  with_reducible
    refine .step (imdResult_frame ..) (by decide) ?_
    exact .refl _ _

theorem execBaselineLate_frame (n : Fin 16) {s t : State} (h : execBaselineLate n s = .next t) :
    Only [.tide, .imd, .hic, .rpl, .prior] s t := by
  refine run_frame (by decide) ?_ h
  with_reducible
    refine .step (baselineLate_frame ..) (by decide) ?_
    exact .refl _ _

theorem execImdStale_frame (n : Fin 16) {s t : State} (h : execImdStale n s = .next t) :
    Only [.tide, .lau, .sess, .mlk, .veh, .plc, .plcCfg, .imd, .imdG, .saf, .safX, .lsw, .pea, .arb, .slt, .legal, .bri, .key, .hic, .qmg, .cwy, .cwyX, .btn, .dmp, .rpl, .prior] s t := by
  refine run_frame (by decide) ?_ h
  with_reducible
    refine .step (imdStale_frame ..) (by decide) ?_
    exact .refl _ _

theorem execImdRailFault_frame (pos neg : U16) {s t : State} (h : execImdRailFault pos neg s = .next t) :
    Only [.imdG, .hic, .rpl] s t := by
  refine input_frame (by decide) ?_ h
  with_reducible
    refine .step (imdRailFault_frame ..) (by decide) ?_
    exact .refl _ _

theorem execCableCheckTimeout_frame (n : Fin 16) {s t : State} (h : execCableCheckTimeout n s = .next t) :
    Only [.tide, .lau, .sess, .veh, .plc, .plcCfg, .imd, .imdG, .saf, .safX, .lsw, .pea, .arb, .slt, .legal, .bri, .key, .hic, .qmg, .cwy, .cwyX, .btn, .dmp, .rpl, .prior] s t := by
  refine run_frame (by decide) ?_ h
  with_reducible
    refine .step (cableCheckTimeout_frame ..) (by decide) ?_
    exact .refl _ _

theorem execRcmBlockEnd_frame (f : Fin 2) {s t : State} (h : execRcmBlockEnd f s = .next t) :
    Only [.lau, .sess, .mlk, .veh, .plc, .plcCfg, .imd, .imdG, .rcm, .rcmTest, .saf, .safX, .lsw, .pea, .arb, .slt, .legal, .bri, .key, .hic, .qmg, .cwy, .cwyX, .btn, .dmp, .rpl] s t := by
  refine run_frame (by decide) ?_ h
  with_reducible
    refine .step (rcmBlockEnd_frame ..) (by decide) ?_
    exact .refl _ _

theorem execRcmWarning_frame (f : Fin 2) {s t : State} (h : execRcmWarning f s = .next t) :
    Only [.rcm, .hic, .rpl] s t := by
  refine run_frame (by decide) ?_ h
  with_reducible
    refine .step (rcmWarning_frame ..) (by decide) ?_
    exact .refl _ _

theorem execRcmLost_frame (f : Fin 2) {s t : State} (h : execRcmLost f s = .next t) :
    Only [.lau, .sess, .mlk, .veh, .plc, .plcCfg, .imd, .imdG, .rcm, .saf, .safX, .lsw, .pea, .arb, .slt, .legal, .bri, .key, .hic, .qmg, .cwy, .cwyX, .btn, .dmp, .rpl] s t := by
  refine run_frame (by decide) ?_ h
  with_reducible
    refine .step (rcmLost_frame ..) (by decide) ?_
    exact .refl _ _

theorem execRcmTestEnd_frame {s t : State} (h : execRcmTestEnd s = .next t) :
    Only [.tide, .lau, .rcm, .rcmTest, .pea, .arb, .mbx, .hic, .qmg, .cwy, .cwyX, .btn, .dmp, .rpl, .prior] s t := by
  refine run_frame (by decide) ?_ h
  with_reducible
    refine .step (rcmTestEnd_frame ..) (by decide) ?_
    exact .refl _ _

theorem execImdSetConfig_frame (m : Fin 4) {s t : State} (h : execImdSetConfig m s = .next t) :
    Only [.imd, .imdG, .pea, .arb, .mbx, .hic, .btn, .rpl] s t := by
  refine run_frame (by decide) ?_ h
  with_reducible
    refine .command (by decide) (by decide) (fun _ _ => ?_) ?_
    refine .step (imdSetConfig_frame ..) (by decide) ?_
    assumption
    exact .refl _ _

theorem execImdSetForce_frame (m : Fin 4) {s t : State} (h : execImdSetForce m s = .next t) :
    Only [.lau, .imd, .imdG, .pea, .arb, .mbx, .hic, .qmg, .cwy, .cwyX, .btn, .dmp, .rpl] s t := by
  refine run_frame (by decide) ?_ h
  with_reducible
    refine .command (by decide) (by decide) (fun _ _ => ?_) ?_
    refine .step (imdSetForce_frame ..) (by decide) ?_
    assumption
    exact .refl _ _

theorem execImdGetNode_frame (m : Fin 4) {s t : State} (h : execImdGetNode m s = .next t) :
    Only [.mbx, .rpl] s t := by
  refine run_frame (by decide) ?_ h
  with_reducible
    refine .command (by decide) (by decide) (fun _ _ => ?_) ?_
    refine .step (imdGetNode_frame ..) (by decide) ?_
    assumption
    exact .refl _ _

theorem execImdRebaseline_frame (m : Fin 4) {s t : State} (h : execImdRebaseline m s = .next t) :
    Only [.imd, .mbx, .rpl] s t := by
  refine run_frame (by decide) ?_ h
  with_reducible
    refine .command (by decide) (by decide) (fun _ _ => ?_) ?_
    refine .step (imdRebaseline_frame ..) (by decide) ?_
    assumption
    exact .refl _ _

theorem execRcmSetConfig_frame (m : Fin 4) {s t : State} (h : execRcmSetConfig m s = .next t) :
    Only [.rcm, .pea, .arb, .mbx, .hic, .btn, .rpl] s t := by
  refine run_frame (by decide) ?_ h
  with_reducible
    refine .command (by decide) (by decide) (fun _ _ => ?_) ?_
    refine .step (rcmSetConfig_frame ..) (by decide) ?_
    assumption
    exact .refl _ _

theorem execRcmGet_frame (m : Fin 4) {s t : State} (h : execRcmGet m s = .next t) :
    Only [.rcm, .mbx, .rpl] s t := by
  refine run_frame (by decide) ?_ h
  with_reducible
    refine .command (by decide) (by decide) (fun _ _ => ?_) ?_
    refine .step (rcmGet_frame ..) (by decide) ?_
    assumption
    exact .refl _ _

theorem execRcmTest_frame (m : Fin 4) {s t : State} (h : execRcmTest m s = .next t) :
    Only [.lau, .rcmTest, .arb, .mbx, .hic, .qmg, .cwy, .cwyX, .btn, .dmp, .rpl] s t := by
  refine run_frame (by decide) ?_ h
  with_reducible
    refine .command (by decide) (by decide) (fun _ _ => ?_) ?_
    refine .step (rcmTestStart_frame ..) (by decide) ?_
    assumption
    exact .refl _ _

theorem execImdClearCounts_frame (m : Fin 4) {s t : State} (h : execImdClearCounts m s = .next t) :
    Only [.imd, .imdG, .mbx, .rpl] s t := by
  refine run_frame (by decide) ?_ h
  with_reducible
    refine .command (by decide) (by decide) (fun _ _ => ?_) ?_
    refine .step (imdClearCounts_frame ..) (by decide) ?_
    assumption
    exact .refl _ _

/-! ### Keys -/

theorem execKeyGetStatus_frame (m : Fin 4) {s t : State} (h : execKeyGetStatus m s = .next t) :
    Only [.mbx, .rpl] s t := by
  refine run_frame (by decide) ?_ h
  with_reducible
    refine .command (by decide) (by decide) (fun _ _ => ?_) ?_
    refine .step (ok_frame ..) (by decide) ?_
    assumption
    exact .refl _ _

theorem execKeyUpdate_frame (m : Fin 4) {s t : State} (h : execKeyUpdate m s = .next t) :
    Only [.pea, .arb, .key, .mbx, .hic, .rpl] s t := by
  refine run_frame (by decide) ?_ h
  with_reducible
    refine .command (by decide) (by decide) (fun _ _ => ?_) ?_
    refine .withKeys (by decide) (by decide) (fun _ _ => ?_) ?_
    refine .step (keyUpdate_frame ..) (by decide) ?_
    assumption
    assumption
    exact .refl _ _

theorem execKeyLoad_frame (m : Fin 4) {s t : State} (h : execKeyLoad m s = .next t) :
    Only [.key, .mbx, .rpl] s t := by
  refine run_frame (by decide) ?_ h
  with_reducible
    refine .command (by decide) (by decide) (fun _ _ => ?_) ?_
    refine .withKeys (by decide) (by decide) (fun _ _ => ?_) ?_
    refine .step (keyLoad_frame ..) (by decide) ?_
    assumption
    assumption
    exact .refl _ _

theorem execKeyUnload_frame (m : Fin 4) {s t : State} (h : execKeyUnload m s = .next t) :
    Only [.key, .mbx, .rpl] s t := by
  refine run_frame (by decide) ?_ h
  with_reducible
    refine .command (by decide) (by decide) (fun _ _ => ?_) ?_
    refine .withKeys (by decide) (by decide) (fun _ _ => ?_) ?_
    refine .step (keyUnload_frame ..) (by decide) ?_
    assumption
    assumption
    exact .refl _ _

theorem execKeyGetPublic_frame (m : Fin 4) {s t : State} (h : execKeyGetPublic m s = .next t) :
    Only [.mbx, .rpl] s t := by
  refine run_frame (by decide) ?_ h
  with_reducible
    refine .command (by decide) (by decide) (fun _ _ => ?_) ?_
    refine .withKeys (by decide) (by decide) (fun _ _ => ?_) ?_
    refine .step (keyGetPublic_frame ..) (by decide) ?_
    assumption
    assumption
    exact .refl _ _

theorem execKeyAttest_frame (m : Fin 4) {s t : State} (h : execKeyAttest m s = .next t) :
    Only [.mbx, .rpl] s t := by
  refine run_frame (by decide) ?_ h
  with_reducible
    refine .command (by decide) (by decide) (fun _ _ => ?_) ?_
    refine .withKeys (by decide) (by decide) (fun _ _ => ?_) ?_
    refine .step (ok_frame ..) (by decide) ?_
    assumption
    assumption
    exact .refl _ _

theorem execKeyGetCert_frame (m : Fin 4) {s t : State} (h : execKeyGetCert m s = .next t) :
    Only [.mbx, .rpl] s t := by
  refine run_frame (by decide) ?_ h
  with_reducible
    try lift_lets
    intro xx
    clear_value xx
    refine .command (by decide) (by decide) (fun _ _ => ?_) ?_
    refine .step (ok_frame ..) (by decide) ?_
    assumption
    exact .refl _ _

theorem execKeyGetChallenge_frame (m : Fin 4) {s t : State} (h : execKeyGetChallenge m s = .next t) :
    Only [.key, .mbx, .rpl] s t := by
  refine run_frame (by decide) ?_ h
  with_reducible
    refine .command (by decide) (by decide) (fun _ _ => ?_) ?_
    refine .withKeys (by decide) (by decide) (fun _ _ => ?_) ?_
    refine .step (keyGetChallenge_frame ..) (by decide) ?_
    assumption
    assumption
    exact .refl _ _

theorem execKeyRandom_frame (m : Fin 4) {s t : State} (h : execKeyRandom m s = .next t) :
    Only [.key, .mbx, .rpl] s t := by
  refine run_frame (by decide) ?_ h
  with_reducible
    refine .command (by decide) (by decide) (fun _ _ => ?_) ?_
    refine .withKeys (by decide) (by decide) (fun _ _ => ?_) ?_
    refine .step (keyRandom_frame ..) (by decide) ?_
    assumption
    assumption
    exact .refl _ _

theorem execKeyClearCounts_frame (m : Fin 4) {s t : State} (h : execKeyClearCounts m s = .next t) :
    Only [.key, .mbx, .rpl] s t := by
  refine run_frame (by decide) ?_ h
  with_reducible
    refine .command (by decide) (by decide) (fun _ _ => ?_) ?_
    refine .withKeys (by decide) (by decide) (fun _ _ => ?_) ?_
    try lift_lets
    intro xx
    clear_value xx
    refine .step (ok_frame ..) (by decide) ?_
    refine .set_key ?_ _ (by decide)
    assumption
    assumption
    exact .refl _ _

theorem execRemask_frame {s t : State} (h : execRemask s = .next t) :
    Only [.tide, .key, .rpl, .prior] s t := by
  refine run_frame (by decide) ?_ h
  with_reducible
    refine .step (remaskDue_frame ..) (by decide) ?_
    exact .refl _ _

theorem execRngReseed_frame {s t : State} (h : execRngReseed s = .next t) :
    Only [.tide, .key, .hic, .rpl, .prior] s t := by
  refine run_frame (by decide) ?_ h
  with_reducible
    refine .step (rngReseed_frame ..) (by decide) ?_
    exact .refl _ _

theorem execRngHealthFail_frame {s t : State} (h : execRngHealthFail s = .next t) :
    Only [.key, .hic, .rpl] s t := by
  refine input_frame (by decide) ?_ h
  with_reducible
    refine .step (rngHealthFail_frame ..) (by decide) ?_
    exact .refl _ _

theorem execChallengeExpired_frame {s t : State} (h : execChallengeExpired s = .next t) :
    Only [.tide, .key, .rpl, .prior] s t := by
  refine run_frame (by decide) ?_ h
  with_reducible
    refine .step (challengeExpired_frame ..) (by decide) ?_
    exact .refl _ _

theorem execPufRetry_frame (good : Bool) (corrected : U8) {s t : State} (h : execPufRetry good corrected s = .next t) :
    Only [.tide, .arb, .key, .hic, .btn, .rpl, .prior] s t := by
  refine run_frame (by decide) ?_ h
  with_reducible
    split
    refine .ite _ ?_ ?_
    refine .afterTicks (by decide) (by decide) (fun _ _ => ?_) ?_
    refine .step (pufAttempt_frame ..) (by decide) ?_
    assumption
    exact .refl _ _
    refine .step (pufAttempt_frame ..) (by decide) ?_
    exact .refl _ _
    exact .refl _ _

/-! ### MetCommands -/

theorem execMetSealOpen_frame (m : Fin 4) {s t : State} (h : execMetSealOpen m s = .next t) :
    Only [.met, .arb, .key, .mbx, .hic, .btn, .rpl] s t := by
  refine run_frame (by decide) ?_ h
  with_reducible
    refine .command (by decide) (by decide) (fun _ _ => ?_) ?_
    refine .step (metSealOpen_frame ..) (by decide) ?_
    assumption
    exact .refl _ _

theorem execMetSealClose_frame (m : Fin 4) {s t : State} (h : execMetSealClose m s = .next t) :
    Only [.lau, .met, .pea, .arb, .mbx, .hic, .qmg, .cwy, .cwyX, .btn, .dmp, .rpl] s t := by
  refine run_frame (by decide) ?_ h
  with_reducible
    refine .command (by decide) (by decide) (fun _ _ => ?_) ?_
    refine .step (metSealClose_frame ..) (by decide) ?_
    assumption
    exact .refl _ _

theorem execSealTimeout_frame {s t : State} (h : execSealTimeout s = .next t) :
    Only [.tide, .lau, .met, .pea, .arb, .hic, .qmg, .cwy, .cwyX, .btn, .dmp, .rpl, .prior] s t := by
  refine run_frame (by decide) ?_ h
  with_reducible
    refine .step (sealTimeout_frame ..) (by decide) ?_
    exact .refl _ _

theorem execMetGetConfig_frame (m : Fin 4) {s t : State} (h : execMetGetConfig m s = .next t) :
    Only [.mbx, .rpl] s t := by
  refine run_frame (by decide) ?_ h
  with_reducible
    refine .command (by decide) (by decide) (fun _ _ => ?_) ?_
    refine .step (metGetConfig_frame ..) (by decide) ?_
    assumption
    exact .refl _ _

theorem execMetSetConfig_frame (m : Fin 4) {s t : State} (h : execMetSetConfig m s = .next t) :
    Only [.met, .pea, .arb, .mbx, .hic, .rpl] s t := by
  refine run_frame (by decide) ?_ h
  with_reducible
    refine .command (by decide) (by decide) (fun _ _ => ?_) ?_
    refine .step (metSetConfig_frame ..) (by decide) ?_
    assumption
    exact .refl _ _

theorem execMetLoadTable_frame (m : Fin 4) {s t : State} (h : execMetLoadTable m s = .next t) :
    Only [.met, .mbx, .rpl] s t := by
  refine run_frame (by decide) ?_ h
  with_reducible
    refine .command (by decide) (by decide) (fun _ _ => ?_) ?_
    refine .step (metLoadTable_frame ..) (by decide) ?_
    assumption
    exact .refl _ _

theorem execMetActivateTable_frame (m : Fin 4) {s t : State} (h : execMetActivateTable m s = .next t) :
    Only [.lau, .pea, .arb, .mbx, .hic, .qmg, .cwy, .cwyX, .btn, .dmp, .rpl] s t := by
  refine run_frame (by decide) ?_ h
  with_reducible
    refine .command (by decide) (by decide) (fun _ _ => ?_) ?_
    refine .step (metActivateTable_frame ..) (by decide) ?_
    assumption
    exact .refl _ _

theorem execMetReadTable_frame (m : Fin 4) {s t : State} (h : execMetReadTable m s = .next t) :
    Only [.mbx, .rpl] s t := by
  refine run_frame (by decide) ?_ h
  with_reducible
    refine .command (by decide) (by decide) (fun _ _ => ?_) ?_
    refine .step (metReadTable_frame ..) (by decide) ?_
    assumption
    exact .refl _ _

theorem execMetSetRaw_frame (m : Fin 4) {s t : State} (h : execMetSetRaw m s = .next t) :
    Only [.met, .mbx, .rpl] s t := by
  refine run_frame (by decide) ?_ h
  with_reducible
    refine .command (by decide) (by decide) (fun _ _ => ?_) ?_
    refine .step (metSetRaw_frame ..) (by decide) ?_
    assumption
    exact .refl _ _

theorem execMetCalMeasure_frame (m : Fin 4) {s t : State} (h : execMetCalMeasure m s = .next t) :
    Only [.met, .mbx, .rpl] s t := by
  refine run_frame (by decide) ?_ h
  with_reducible
    refine .command (by decide) (by decide) (fun _ _ => ?_) ?_
    refine .step (metCalMeasure_frame ..) (by decide) ?_
    assumption
    exact .refl _ _

theorem execMetFpEval_frame (m : Fin 4) {s t : State} (h : execMetFpEval m s = .next t) :
    Only [.mbx, .rpl] s t := by
  refine run_frame (by decide) ?_ h
  with_reducible
    refine .command (by decide) (by decide) (fun _ _ => ?_) ?_
    refine .step (metFpEval_frame ..) (by decide) ?_
    assumption
    exact .refl _ _

theorem execMetClearCounts_frame (m : Fin 4) {s t : State} (h : execMetClearCounts m s = .next t) :
    Only [.met, .mbx, .rpl] s t := by
  refine run_frame (by decide) ?_ h
  with_reducible
    refine .command (by decide) (by decide) (fun _ _ => ?_) ?_
    refine .step (metClearCounts_frame ..) (by decide) ?_
    assumption
    exact .refl _ _

theorem execMetSetNoload_frame (m : Fin 4) {s t : State} (h : execMetSetNoload m s = .next t) :
    Only [.acc, .pea, .arb, .mbx, .hic, .rpl] s t := by
  refine run_frame (by decide) ?_ h
  with_reducible
    refine .command (by decide) (by decide) (fun _ _ => ?_) ?_
    refine .step (metSetNoload_frame ..) (by decide) ?_
    assumption
    exact .refl _ _

theorem execMetSetUref_frame (m : Fin 4) {s t : State} (h : execMetSetUref m s = .next t) :
    Only [.acc, .pea, .arb, .mbx, .hic, .rpl] s t := by
  refine run_frame (by decide) ?_ h
  with_reducible
    refine .command (by decide) (by decide) (fun _ _ => ?_) ?_
    refine .step (metSetUref_frame ..) (by decide) ?_
    assumption
    exact .refl _ _

theorem execMetPqConfig_frame (m : Fin 4) {s t : State} (h : execMetPqConfig m s = .next t) :
    Only [.pq, .pea, .arb, .mbx, .hic, .rpl] s t := by
  refine run_frame (by decide) ?_ h
  with_reducible
    refine .command (by decide) (by decide) (fun _ _ => ?_) ?_
    refine .step (metPqConfig_frame ..) (by decide) ?_
    assumption
    exact .refl _ _

theorem execMetEnergyClearFlags_frame (m : Fin 4) {s t : State} (h : execMetEnergyClearFlags m s = .next t) :
    Only [.acc, .arb, .mbx, .btn, .rpl] s t := by
  refine run_frame (by decide) ?_ h
  with_reducible
    refine .command (by decide) (by decide) (fun _ _ => ?_) ?_
    refine .step (metEnergyClearFlags_frame ..) (by decide) ?_
    assumption
    exact .refl _ _

theorem execMetPqClearCounts_frame (m : Fin 4) {s t : State} (h : execMetPqClearCounts m s = .next t) :
    Only [.pq, .mbx, .rpl] s t := by
  refine run_frame (by decide) ?_ h
  with_reducible
    refine .command (by decide) (by decide) (fun _ _ => ?_) ?_
    refine .step (metPqClearCounts_frame ..) (by decide) ?_
    assumption
    exact .refl _ _

/-! ### Metrology -/

theorem execSampleInstant_frame (codes : Vector (BitVec 24) 48) {s t : State} (h : execSampleInstant codes s = .next t) :
    Only [.tide, .met, .acc, .pq, .hic, .rpl, .prior] s t := by
  refine input_frame (by decide) ?_ h
  with_reducible
    refine .step (sampleInstant_frame ..) (by decide) ?_
    exact .refl _ _

theorem execMetrologyPublish_frame {s t : State} (h : execMetrologyPublish s = .next t) :
    Only [.tide, .lau, .met, .acc, .pq, .sess, .imd, .rcm, .pea, .arb, .mbx, .hic, .qmg, .cwy, .cwyX, .btn, .dmp, .rpl, .prior] s t := by
  refine run_frame (by decide) ?_ h
  with_reducible
    refine .step (metrologyPublish_frame ..) (by decide) ?_
    exact .refl _ _

theorem execZcSyncLost_frame (k : Fin 6) {s t : State} (h : execZcSyncLost k s = .next t) :
    Only [.tide, .pq, .rpl, .prior] s t := by
  refine run_frame (by decide) ?_ h
  with_reducible
    refine .step (zcSyncLost_frame ..) (by decide) ?_
    exact .refl _ _

theorem execSegmentBlockEnd_frame (ac : Bool) {s t : State} (h : execSegmentBlockEnd ac s = .next t) :
    Only [.met, .acc, .hic, .rpl] s t := by
  refine run_frame (by decide) ?_ h
  with_reducible
    refine .step (segmentBlockEnd_frame ..) (by decide) ?_
    exact .refl _ _

theorem execModulatorFault_frame (c : Fin 48) {s t : State} (h : execModulatorFault c s = .next t) :
    Only [.lau, .met, .pq, .sess, .mlk, .veh, .plc, .plcCfg, .imd, .imdG, .saf, .safX, .lsw, .pea, .arb, .slt, .legal, .bri, .key, .hic, .qmg, .cwy, .cwyX, .btn, .dmp, .rpl] s t := by
  refine input_frame (by decide) ?_ h
  with_reducible
    refine .step (modulatorFault_frame ..) (by decide) ?_
    exact .refl _ _

theorem execModulatorFaultClear_frame (c : Fin 48) {s t : State} (h : execModulatorFaultClear c s = .next t) :
    Only [.met, .rpl] s t := by
  refine input_frame (by decide) ?_ h
  with_reducible
    refine .step (modulatorFaultClear_frame ..) (by decide) ?_
    exact .refl _ _

theorem execChannelSettled_frame (c : Fin 48) {s t : State} (h : execChannelSettled c s = .next t) :
    Only [.met, .acc, .hic, .rpl] s t := by
  refine run_frame (by decide) ?_ h
  with_reducible
    refine .step (channelSettled_frame ..) (by decide) ?_
    exact .refl _ _

/-! ### ModuleLink -/

theorem execUplinkSlotEnd_frame (l : Fin 8) (p : Fin 12) (slot : UplinkSlot) {s t : State} (h : execUplinkSlotEnd l p slot s = .next t) :
    Only [.tide, .lau, .sess, .mlk, .veh, .plc, .plcCfg, .imd, .imdG, .saf, .safX, .lsw, .pea, .arb, .slt, .legal, .bri, .key, .hic, .qmg, .cwy, .cwyX, .btn, .dmp, .rpl, .prior] s t := by
  refine input_frame (by decide) ?_ h
  with_reducible
    refine .step (uplinkSlot_frame ..) (by decide) ?_
    exact .refl _ _

theorem execOcTrip_frame (n : Fin 16) {s t : State} (h : execOcTrip n s = .next t) :
    Only [.lau, .sess, .mlk, .veh, .plc, .plcCfg, .imd, .imdG, .saf, .safX, .lsw, .pea, .arb, .slt, .legal, .bri, .key, .hic, .qmg, .cwy, .cwyX, .btn, .dmp, .rpl] s t := by
  refine input_frame (by decide) ?_ h
  with_reducible
    refine .step (ocTrip_frame ..) (by decide) ?_
    exact .refl _ _

theorem execOcRelease_frame (n : Fin 16) {s t : State} (h : execOcRelease n s = .next t) :
    Only [.mlk, .rpl] s t := by
  refine input_frame (by decide) ?_ h
  with_reducible
    refine .step (ocRelease_frame ..) (by decide) ?_
    exact .refl _ _

theorem execModuleStale_frame (m : Fin 96) {s t : State} (h : execModuleStale m s = .next t) :
    Only [.tide, .mlk, .hic, .rpl, .prior] s t := by
  refine run_frame (by decide) ?_ h
  with_reducible
    refine .step (moduleStale_frame ..) (by decide) ?_
    exact .refl _ _

theorem execLaneFault_frame (l : Fin 8) {s t : State} (h : execLaneFault l s = .next t) :
    Only [.lau, .sess, .slu, .mlk, .veh, .plc, .plcCfg, .imd, .imdG, .saf, .safX, .lsw, .pea, .arb, .slt, .legal, .bri, .key, .hic, .qmg, .cwy, .cwyX, .btn, .dmp, .rpl] s t := by
  refine run_frame (by decide) ?_ h
  with_reducible
    refine .step (laneFault_frame ..) (by decide) ?_
    exact .refl _ _

theorem execMlkGetLane_frame (m : Fin 4) {s t : State} (h : execMlkGetLane m s = .next t) :
    Only [.mbx, .rpl] s t := by
  refine run_frame (by decide) ?_ h
  with_reducible
    refine .command (by decide) (by decide) (fun _ _ => ?_) ?_
    refine .step (mlkGetLane_frame ..) (by decide) ?_
    assumption
    exact .refl _ _

theorem execMlkGetTelemetry_frame (m : Fin 4) {s t : State} (h : execMlkGetTelemetry m s = .next t) :
    Only [.mbx, .rpl] s t := by
  refine run_frame (by decide) ?_ h
  with_reducible
    refine .command (by decide) (by decide) (fun _ _ => ?_) ?_
    refine .step (mlkGetTelemetry_frame ..) (by decide) ?_
    assumption
    exact .refl _ _

theorem execMlkEnumerate_frame (m : Fin 4) {s t : State} (h : execMlkEnumerate m s = .next t) :
    Only [.mlk, .pea, .arb, .mbx, .hic, .rpl] s t := by
  refine run_frame (by decide) ?_ h
  with_reducible
    refine .command (by decide) (by decide) (fun _ _ => ?_) ?_
    refine .step (mlkEnumerate_frame ..) (by decide) ?_
    assumption
    exact .refl _ _

theorem execMlkGetIdentity_frame (m : Fin 4) {s t : State} (h : execMlkGetIdentity m s = .next t) :
    Only [.mbx, .rpl] s t := by
  refine run_frame (by decide) ?_ h
  with_reducible
    refine .command (by decide) (by decide) (fun _ _ => ?_) ?_
    refine .step (mlkGetIdentity_frame ..) (by decide) ?_
    assumption
    exact .refl _ _

theorem execMlkSetEnrolled_frame (m : Fin 4) {s t : State} (h : execMlkSetEnrolled m s = .next t) :
    Only [.mlk, .pea, .arb, .mbx, .hic, .rpl] s t := by
  refine run_frame (by decide) ?_ h
  with_reducible
    refine .command (by decide) (by decide) (fun _ _ => ?_) ?_
    refine .step (mlkSetEnrolled_frame ..) (by decide) ?_
    assumption
    exact .refl _ _

theorem execMlkSetOc_frame (m : Fin 4) {s t : State} (h : execMlkSetOc m s = .next t) :
    Only [.mlk, .pea, .arb, .mbx, .hic, .btn, .rpl] s t := by
  refine run_frame (by decide) ?_ h
  with_reducible
    refine .command (by decide) (by decide) (fun _ _ => ?_) ?_
    refine .step (mlkSetOc_frame ..) (by decide) ?_
    assumption
    exact .refl _ _

theorem execMlkSetVetoMask_frame (m : Fin 4) {s t : State} (h : execMlkSetVetoMask m s = .next t) :
    Only [.mlk, .pea, .arb, .mbx, .hic, .btn, .rpl] s t := by
  refine run_frame (by decide) ?_ h
  with_reducible
    refine .command (by decide) (by decide) (fun _ _ => ?_) ?_
    refine .step (mlkSetVetoMask_frame ..) (by decide) ?_
    assumption
    exact .refl _ _

theorem execMlkIdentify_frame (m : Fin 4) {s t : State} (h : execMlkIdentify m s = .next t) :
    Only [.mlk, .mbx, .rpl] s t := by
  refine run_frame (by decide) ?_ h
  with_reducible
    refine .command (by decide) (by decide) (fun _ _ => ?_) ?_
    refine .step (mlkIdentify_frame ..) (by decide) ?_
    assumption
    exact .refl _ _

theorem execMlkResetLane_frame (m : Fin 4) {s t : State} (h : execMlkResetLane m s = .next t) :
    Only [.mlk, .mbx, .rpl] s t := by
  refine run_frame (by decide) ?_ h
  with_reducible
    refine .command (by decide) (by decide) (fun _ _ => ?_) ?_
    refine .step (mlkResetLane_frame ..) (by decide) ?_
    assumption
    exact .refl _ _

theorem execMlkClearCounts_frame (m : Fin 4) {s t : State} (h : execMlkClearCounts m s = .next t) :
    Only [.mlk, .mbx, .rpl] s t := by
  refine run_frame (by decide) ?_ h
  with_reducible
    refine .command (by decide) (by decide) (fun _ _ => ?_) ?_
    refine .step (mlkClearCounts_frame ..) (by decide) ?_
    assumption
    exact .refl _ _

/-! ### Panels -/

theorem execExtcominToggle_frame (p : Fin 8) {s t : State} (h : execExtcominToggle p s = .next t) :
    Only [.tide, .mbx, .pnl, .rpl, .prior] s t := by
  refine run_frame (by decide) ?_ h
  with_reducible
    refine .step (extcominToggle_frame ..) (by decide) ?_
    exact .refl _ _

theorem execPanelPassEnd_frame (p : Fin 8) {s t : State} (h : execPanelPassEnd p s = .next t) :
    Only [.tide, .mbx, .hic, .pnl, .frames, .rpl, .prior] s t := by
  refine run_frame (by decide) ?_ h
  with_reducible
    refine .step (panelPassEnd_frame ..) (by decide) ?_
    exact .refl _ _

theorem execPanelBiasFault_frame (half : Fin 2) {s t : State} (h : execPanelBiasFault half s = .next t) :
    Only [.mbx, .hic, .pnl, .frames, .rpl] s t := by
  refine input_frame (by decide) ?_ h
  with_reducible
    refine .step (panelBiasFault_frame ..) (by decide) ?_
    exact .refl _ _

theorem execStripRedraw_frame (p : Fin 8) {s t : State} (h : execStripRedraw p s = .next t) :
    Only [.mbx, .hic, .pnl, .frames, .rpl] s t := by
  refine run_frame (by decide) ?_ h
  with_reducible
    refine .step (redrawStrip_frame ..) (by decide) ?_
    exact .refl _ _

theorem execPnlSetConfig_frame (m : Fin 4) {s t : State} (h : execPnlSetConfig m s = .next t) :
    Only [.pea, .arb, .mbx, .hic, .pnl, .frames, .rpl] s t := by
  refine run_frame (by decide) ?_ h
  with_reducible
    refine .command (by decide) (by decide) (fun _ _ => ?_) ?_
    refine .step (pnlSetConfig_frame ..) (by decide) ?_
    assumption
    exact .refl _ _

theorem execPnlLoadGamma_frame (m : Fin 4) {s t : State} (h : execPnlLoadGamma m s = .next t) :
    Only [.mbx, .pnl, .rpl] s t := by
  refine run_frame (by decide) ?_ h
  with_reducible
    refine .command (by decide) (by decide) (fun _ _ => ?_) ?_
    refine .step (pnlLoadGamma_frame ..) (by decide) ?_
    assumption
    exact .refl _ _

theorem execPnlDraw_frame (m : Fin 4) {s t : State} (h : execPnlDraw m s = .next t) :
    Only [.arb, .mbx, .hic, .qmg, .cwy, .cwyX, .pnl, .frames, .btn, .dmp, .rpl] s t := by
  refine run_frame (by decide) ?_ h
  with_reducible
    refine .command (by decide) (by decide) (fun _ _ => ?_) ?_
    refine .step (pnlDraw_frame ..) (by decide) ?_
    assumption
    exact .refl _ _

theorem execPnlFill_frame (m : Fin 4) {s t : State} (h : execPnlFill m s = .next t) :
    Only [.mbx, .pnl, .frames, .rpl] s t := by
  refine run_frame (by decide) ?_ h
  with_reducible
    refine .command (by decide) (by decide) (fun _ _ => ?_) ?_
    refine .step (pnlFill_frame ..) (by decide) ?_
    assumption
    exact .refl _ _

theorem execPnlFlush_frame (m : Fin 4) {s t : State} (h : execPnlFlush m s = .next t) :
    Only [.mbx, .pnl, .rpl] s t := by
  refine run_frame (by decide) ?_ h
  with_reducible
    refine .command (by decide) (by decide) (fun _ _ => ?_) ?_
    refine .step (pnlFlush_frame ..) (by decide) ?_
    assumption
    exact .refl _ _

theorem execPnlGetStatus_frame (m : Fin 4) {s t : State} (h : execPnlGetStatus m s = .next t) :
    Only [.mbx, .rpl] s t := by
  refine run_frame (by decide) ?_ h
  with_reducible
    refine .command (by decide) (by decide) (fun _ _ => ?_) ?_
    refine .step (pnlGetStatus_frame ..) (by decide) ?_
    assumption
    exact .refl _ _

theorem execPnlClearCounts_frame (m : Fin 4) {s t : State} (h : execPnlClearCounts m s = .next t) :
    Only [.mbx, .pnl, .rpl] s t := by
  refine run_frame (by decide) ?_ h
  with_reducible
    refine .command (by decide) (by decide) (fun _ _ => ?_) ?_
    refine .step (pnlClearCounts_frame ..) (by decide) ?_
    assumption
    exact .refl _ _

theorem execNfcPing_frame (r : Fin 8) (i q : BitVec 16) {s t : State} (h : execNfcPing r i q s = .next t) :
    Only [.tide, .nfc, .rpl, .prior] s t := by
  refine input_frame (by decide) ?_ h
  with_reducible
    refine .step (nfcPing_frame ..) (by decide) ?_
    exact .refl _ _

theorem execCardResolved_frame (r : Fin 8) (card : CardInfo) {s t : State} (h : execCardResolved r card s = .next t) :
    Only [.tide, .lau, .arb, .mbx, .hic, .qmg, .cwy, .cwyX, .nfc, .btn, .dmp, .rpl, .prior] s t := by
  refine input_frame (by decide) ?_ h
  with_reducible
    refine .step (cardResolved_frame ..) (by decide) ?_
    exact .refl _ _

theorem execPresenceCheck_frame (r : Fin 8) (answered : Bool) {s t : State} (h : execPresenceCheck r answered s = .next t) :
    Only [.tide, .lau, .arb, .hic, .qmg, .cwy, .cwyX, .nfc, .btn, .dmp, .rpl, .prior] s t := by
  refine input_frame (by decide) ?_ h
  with_reducible
    refine .step (presenceCheck_frame ..) (by decide) ?_
    exact .refl _ _

theorem execFieldRelease_frame (r : Fin 8) {s t : State} (h : execFieldRelease r s = .next t) :
    Only [.nfc, .rpl] s t := by
  refine run_frame (by decide) ?_ h
  with_reducible
    refine .step (fieldRelease_frame ..) (by decide) ?_
    exact .refl _ _

theorem execNfcTxFault_frame (r : Fin 8) {s t : State} (h : execNfcTxFault r s = .next t) :
    Only [.mbx, .hic, .nfc, .rpl] s t := by
  refine input_frame (by decide) ?_ h
  with_reducible
    refine .step (nfcTxFault_frame ..) (by decide) ?_
    exact .refl _ _

theorem execFalseWakeUp_frame (r : Fin 8) {s t : State} (h : execFalseWakeUp r s = .next t) :
    Only [.tide, .mbx, .nfc, .rpl, .prior] s t := by
  refine input_frame (by decide) ?_ h
  with_reducible
    refine .step (falseWakeUp_frame ..) (by decide) ?_
    exact .refl _ _

theorem execNfcSetConfig_frame (m : Fin 4) {s t : State} (h : execNfcSetConfig m s = .next t) :
    Only [.pea, .arb, .mbx, .hic, .nfc, .rpl] s t := by
  refine run_frame (by decide) ?_ h
  with_reducible
    refine .command (by decide) (by decide) (fun _ _ => ?_) ?_
    refine .step (nfcSetConfig_frame ..) (by decide) ?_
    assumption
    exact .refl _ _

theorem execNfcPoll_frame (m : Fin 4) {s t : State} (h : execNfcPoll m s = .next t) :
    Only [.mbx, .nfc, .rpl] s t := by
  refine run_frame (by decide) ?_ h
  with_reducible
    refine .command (by decide) (by decide) (fun _ _ => ?_) ?_
    refine .step (nfcPoll_frame ..) (by decide) ?_
    assumption
    exact .refl _ _

theorem execNfcTransceive_frame (m : Fin 4) (x : CardAnswer) {s t : State} (h : execNfcTransceive m x s = .next t) :
    Only [.mbx, .rpl] s t := by
  refine run_frame (by decide) ?_ h
  with_reducible
    refine .command (by decide) (by decide) (fun _ _ => ?_) ?_
    refine .step (nfcTransceive_frame ..) (by decide) ?_
    assumption
    exact .refl _ _

theorem execNfcRelease_frame (m : Fin 4) {s t : State} (h : execNfcRelease m s = .next t) :
    Only [.mbx, .nfc, .rpl] s t := by
  refine run_frame (by decide) ?_ h
  with_reducible
    refine .command (by decide) (by decide) (fun _ _ => ?_) ?_
    refine .step (nfcRelease_frame ..) (by decide) ?_
    assumption
    exact .refl _ _

theorem execNfcClearCounts_frame (m : Fin 4) {s t : State} (h : execNfcClearCounts m s = .next t) :
    Only [.mbx, .nfc, .rpl] s t := by
  refine run_frame (by decide) ?_ h
  with_reducible
    refine .command (by decide) (by decide) (fun _ _ => ?_) ?_
    refine .step (nfcClearCounts_frame ..) (by decide) ?_
    assumption
    exact .refl _ _

/-! ### Peat -/

theorem execPeatWriteRequest_frame (r : Fin 6) (q : PeatWrite) {s t : State} (h : execPeatWriteRequest r q s = .next t) :
    Only [.pea, .arb, .hic, .rpl] s t := by
  refine run_frame (by decide) ?_ h
  with_reducible
    refine .step (peatWriteRequest_frame ..) (by decide) ?_
    exact .refl _ _

theorem execArbiterDecision_frame {s t : State} (h : execArbiterDecision s = .next t) :
    Only [.pea, .arb, .bri, .hic, .rst, .rpl] s t := by
  refine run_frame (by decide) ?_ h
  with_reducible
    refine .step (arbiterDecision_frame ..) (by decide) ?_
    exact .refl _ _

theorem execBackoffEnd_frame (r : Fin 6) {s t : State} (h : execBackoffEnd r s = .next t) :
    Only [.arb, .rpl] s t := by
  refine run_frame (by decide) ?_ h
  with_reducible
    refine .step (backoffEnd_frame ..) (by decide) ?_
    exact .refl _ _

theorem execRequestWithdraw_frame (r : Fin 6) {s t : State} (h : execRequestWithdraw r s = .next t) :
    Only [.arb, .btn, .rpl] s t := by
  refine run_frame (by decide) ?_ h
  with_reducible
    refine .step (requestWithdraw_frame ..) (by decide) ?_
    exact .refl _ _

theorem execRequesterMask_frame (r : Fin 6) (on : Bool) {s t : State} (h : execRequesterMask r on s = .next t) :
    Only [.lau, .sess, .veh, .plc, .plcCfg, .imd, .imdG, .saf, .safX, .lsw, .pea, .arb, .slt, .legal, .bri, .key, .mbx, .hic, .qmg, .cwy, .cwyX, .btn, .dmp, .rpl] s t := by
  refine run_frame (by decide) ?_ h
  with_reducible
    refine .step (requesterMask_frame ..) (by decide) ?_
    exact .refl _ _

theorem execHoldWatchdog_frame {s t : State} (h : execHoldWatchdog s = .next t) :
    Only [.lau, .sess, .veh, .plc, .plcCfg, .imd, .imdG, .saf, .safX, .lsw, .pea, .arb, .slt, .legal, .bri, .key, .mbx, .hic, .qmg, .cwy, .cwyX, .btn, .dmp, .rpl] s t := by
  refine run_frame (by decide) ?_ h
  with_reducible
    refine .step (holdWatchdog_frame ..) (by decide) ?_
    exact .refl _ _

theorem execGapMove_frame {s t : State} (h : execGapMove s = .next t) :
    Only [.tide, .pea, .hic, .rpl, .prior] s t := by
  refine run_frame (by decide) ?_ h
  with_reducible
    refine .step (gapMove_frame ..) (by decide) ?_
    exact .refl _ _

theorem execCounterIncrement_frame (k : Fin 64) (r : Fin 6) {s t : State} (h : execCounterIncrement k r s = .next t) :
    Only [.pea, .arb, .hic, .rpl] s t := by
  refine run_frame (by decide) ?_ h
  with_reducible
    refine .step (counterIncrement_frame ..) (by decide) ?_
    exact .refl _ _

theorem execDeltaEpoch_frame {s t : State} (h : execDeltaEpoch s = .next t) :
    Only [.tide, .pea, .arb, .backup, .bri, .hic, .rpl, .prior] s t := by
  refine run_frame (by decide) ?_ h
  with_reducible
    refine .step (deltaEpochDue_frame ..) (by decide) ?_
    exact .refl _ _

/-! ### Pilot -/

theorem execPilotSample_frame (n : Fin 16) (x : PilotReading) {s t : State} (h : execPilotSample n x s = .next t) :
    Only [.tide, .lau, .sess, .veh, .plc, .plcCfg, .v2g, .imd, .imdG, .saf, .safX, .lsw, .arb, .auth, .hic, .qmg, .cwy, .cwyX, .btn, .dmp, .rpl, .prior] s t := by
  refine input_frame (by decide) ?_ h
  with_reducible
    refine .step (pilotSample_frame ..) (by decide) ?_
    exact .refl _ _

theorem execCpStateConfirmed_frame (n : Fin 16) {s t : State} (h : execCpStateConfirmed n s = .next t) :
    Only [.tide, .lau, .sess, .mlk, .veh, .plc, .plcCfg, .v2g, .imd, .imdG, .saf, .safX, .lsw, .pea, .arb, .slt, .legal, .auth, .bri, .key, .hic, .qmg, .cwy, .cwyX, .btn, .dmp, .rpl, .prior] s t := by
  refine run_frame (by decide) ?_ h
  with_reducible
    refine .step (cpConfirmed_frame ..) (by decide) ?_
    exact .refl _ _

theorem execDiodeFailureConfirmed_frame (n : Fin 16) {s t : State} (h : execDiodeFailureConfirmed n s = .next t) :
    Only [.tide, .lau, .sess, .mlk, .veh, .plc, .plcCfg, .v2g, .imd, .imdG, .saf, .safX, .lsw, .pea, .arb, .slt, .legal, .auth, .bri, .key, .hic, .qmg, .cwy, .cwyX, .btn, .dmp, .rpl, .prior] s t := by
  refine run_frame (by decide) ?_ h
  with_reducible
    refine .step (diodeConfirmed_frame ..) (by decide) ?_
    exact .refl _ _

theorem execCpSenseFault_frame (n : Fin 16) {s t : State} (h : execCpSenseFault n s = .next t) :
    Only [.lau, .sess, .mlk, .veh, .plc, .plcCfg, .imd, .imdG, .saf, .safX, .lsw, .pea, .arb, .slt, .legal, .bri, .key, .hic, .qmg, .cwy, .cwyX, .btn, .dmp, .rpl] s t := by
  refine run_frame (by decide) ?_ h
  with_reducible
    refine .step (senseFault_frame ..) (by decide) ?_
    exact .refl _ _

theorem execCpSenseFaultClear_frame (n : Fin 16) {s t : State} (h : execCpSenseFaultClear n s = .next t) :
    Only [.lau, .sess, .veh, .plc, .plcCfg, .v2g, .imd, .imdG, .saf, .safX, .lsw, .arb, .auth, .hic, .qmg, .cwy, .cwyX, .btn, .dmp, .rpl] s t := by
  refine run_frame (by decide) ?_ h
  with_reducible
    refine .step (senseClear_frame ..) (by decide) ?_
    exact .refl _ _

theorem execPpClassConfirmed_frame (n : Fin 16) {s t : State} (h : execPpClassConfirmed n s = .next t) :
    Only [.lau, .sess, .mlk, .veh, .plc, .plcCfg, .v2g, .imd, .imdG, .saf, .safX, .lsw, .pea, .arb, .slt, .legal, .auth, .bri, .key, .hic, .qmg, .cwy, .cwyX, .btn, .dmp, .rpl] s t := by
  refine run_frame (by decide) ?_ h
  with_reducible
    refine .step (ppConfirmed_frame ..) (by decide) ?_
    exact .refl _ _

theorem execCableTempMeasure_frame (n : Fin 16) (x : TempReading) (ref : Nat) {s t : State} (h : execCableTempMeasure n x ref s = .next t) :
    Only [.tide, .lau, .sess, .mlk, .veh, .plc, .plcCfg, .imd, .imdG, .saf, .safX, .lsw, .pea, .arb, .slt, .legal, .bri, .key, .hic, .qmg, .cwy, .cwyX, .btn, .dmp, .rpl, .prior] s t := by
  refine input_frame (by decide) ?_ h
  with_reducible
    refine .step (cableTempMeasure_frame ..) (by decide) ?_
    exact .refl _ _

theorem execLockStallConfirmed_frame (n : Fin 16) {s t : State} (h : execLockStallConfirmed n s = .next t) :
    Only [.tide, .lau, .sess, .veh, .plc, .plcCfg, .v2g, .imd, .imdG, .saf, .safX, .lsw, .arb, .auth, .mbx, .hic, .qmg, .cwy, .cwyX, .btn, .dmp, .rpl, .prior] s t := by
  refine input_frame (by decide) ?_ h
  with_reducible
    refine .step (lockStall_frame ..) (by decide) ?_
    exact .refl _ _

theorem execLockOffDelay_frame (n : Fin 16) {s t : State} (h : execLockOffDelay n s = .next t) :
    Only [.tide, .lau, .sess, .veh, .plc, .plcCfg, .v2g, .imd, .imdG, .saf, .safX, .lsw, .arb, .auth, .hic, .qmg, .cwy, .cwyX, .btn, .dmp, .rpl, .prior] s t := by
  refine run_frame (by decide) ?_ h
  with_reducible
    refine .step (lockOffDelay_frame ..) (by decide) ?_
    exact .refl _ _

theorem execLockTimeout_frame (n : Fin 16) {s t : State} (h : execLockTimeout n s = .next t) :
    Only [.tide, .lau, .veh, .arb, .mbx, .hic, .qmg, .cwy, .cwyX, .btn, .dmp, .rpl, .prior] s t := by
  refine run_frame (by decide) ?_ h
  with_reducible
    refine .step (lockTimeout_frame ..) (by decide) ?_
    exact .refl _ _

theorem execLockOpenLoad_frame (n : Fin 16) {s t : State} (h : execLockOpenLoad n s = .next t) :
    Only [.tide, .lau, .veh, .arb, .mbx, .hic, .qmg, .cwy, .cwyX, .btn, .dmp, .rpl, .prior] s t := by
  refine input_frame (by decide) ?_ h
  with_reducible
    refine .step (lockOpenLoad_frame ..) (by decide) ?_
    exact .refl _ _

theorem execLockRetry_frame (n : Fin 16) {s t : State} (h : execLockRetry n s = .next t) :
    Only [.tide, .lau, .veh, .arb, .hic, .qmg, .cwy, .cwyX, .btn, .dmp, .rpl, .prior] s t := by
  refine run_frame (by decide) ?_ h
  with_reducible
    refine .step (lockRetry_frame ..) (by decide) ?_
    exact .refl _ _

theorem execCpRestartEnd_frame (n : Fin 16) {s t : State} (h : execCpRestartEnd n s = .next t) :
    Only [.tide, .lau, .veh, .arb, .hic, .qmg, .cwy, .cwyX, .btn, .dmp, .rpl, .prior] s t := by
  refine run_frame (by decide) ?_ h
  with_reducible
    refine .step (cpRestartEnd_frame ..) (by decide) ?_
    exact .refl _ _

theorem execVehGetConnector_frame (m : Fin 4) {s t : State} (h : execVehGetConnector m s = .next t) :
    Only [.mbx, .rpl] s t := by
  refine run_frame (by decide) ?_ h
  with_reducible
    refine .command (by decide) (by decide) (fun _ _ => ?_) ?_
    refine .step (vehGetConnector_frame ..) (by decide) ?_
    assumption
    exact .refl _ _

theorem execVehSetAvailability_frame (m : Fin 4) {s t : State} (h : execVehSetAvailability m s = .next t) :
    Only [.lau, .sess, .veh, .plc, .plcCfg, .imd, .imdG, .saf, .safX, .lsw, .pea, .arb, .slt, .legal, .bri, .key, .mbx, .hic, .qmg, .cwy, .cwyX, .btn, .dmp, .rpl] s t := by
  refine run_frame (by decide) ?_ h
  with_reducible
    refine .command (by decide) (by decide) (fun _ _ => ?_) ?_
    refine .step (vehSetAvailability_frame ..) (by decide) ?_
    assumption
    exact .refl _ _

theorem execVehSetPilotCfg_frame (m : Fin 4) {s t : State} (h : execVehSetPilotCfg m s = .next t) :
    Only [.vehCfg, .pea, .arb, .mbx, .hic, .rpl] s t := by
  refine run_frame (by decide) ?_ h
  with_reducible
    refine .command (by decide) (by decide) (fun _ _ => ?_) ?_
    refine .step (vehSetPilotCfg_frame ..) (by decide) ?_
    assumption
    exact .refl _ _

theorem execVehSetPpClass_frame (m : Fin 4) {s t : State} (h : execVehSetPpClass m s = .next t) :
    Only [.vehCfg, .pea, .arb, .mbx, .hic, .btn, .rpl] s t := by
  refine run_frame (by decide) ?_ h
  with_reducible
    refine .command (by decide) (by decide) (fun _ _ => ?_) ?_
    refine .step (vehSetPpClass_frame ..) (by decide) ?_
    assumption
    exact .refl _ _

theorem execVehSetDerate_frame (m : Fin 4) {s t : State} (h : execVehSetDerate m s = .next t) :
    Only [.vehCfg, .pea, .arb, .mbx, .hic, .btn, .rpl] s t := by
  refine run_frame (by decide) ?_ h
  with_reducible
    refine .command (by decide) (by decide) (fun _ _ => ?_) ?_
    refine .step (vehSetDerate_frame ..) (by decide) ?_
    assumption
    exact .refl _ _

theorem execVehSetLockCfg_frame (m : Fin 4) {s t : State} (h : execVehSetLockCfg m s = .next t) :
    Only [.veh, .vehCfg, .pea, .arb, .mbx, .hic, .rpl] s t := by
  refine run_frame (by decide) ?_ h
  with_reducible
    refine .command (by decide) (by decide) (fun _ _ => ?_) ?_
    refine .step (vehSetLockCfg_frame ..) (by decide) ?_
    assumption
    exact .refl _ _

theorem execVehLock_frame (m : Fin 4) {s t : State} (h : execVehLock m s = .next t) :
    Only [.lau, .veh, .arb, .mbx, .hic, .qmg, .cwy, .cwyX, .btn, .dmp, .rpl] s t := by
  refine run_frame (by decide) ?_ h
  with_reducible
    refine .command (by decide) (by decide) (fun _ _ => ?_) ?_
    refine .step (vehLock_frame ..) (by decide) ?_
    assumption
    exact .refl _ _

theorem execVehCpRestart_frame (m : Fin 4) {s t : State} (h : execVehCpRestart m s = .next t) :
    Only [.lau, .veh, .arb, .mbx, .hic, .qmg, .cwy, .cwyX, .btn, .dmp, .rpl] s t := by
  refine run_frame (by decide) ?_ h
  with_reducible
    refine .command (by decide) (by decide) (fun _ _ => ?_) ?_
    refine .step (vehCpRestart_frame ..) (by decide) ?_
    assumption
    exact .refl _ _

theorem execVehClearCounts_frame (m : Fin 4) {s t : State} (h : execVehClearCounts m s = .next t) :
    Only [.veh, .mbx, .rpl] s t := by
  refine run_frame (by decide) ?_ h
  with_reducible
    refine .command (by decide) (by decide) (fun _ _ => ?_) ?_
    refine .step (vehClearCounts_frame ..) (by decide) ?_
    assumption
    exact .refl _ _

/-! ### PowerFail -/

theorem execPowerFailWarning_frame (vin : Bool) {s t : State} (h : execPowerFailWarning vin s = .next t) :
    Only [.lau, .pq, .sess, .mlk, .veh, .plc, .plcCfg, .v2g, .imd, .imdG, .saf, .safX, .lsw, .pea, .arb, .pf, .slt, .auth, .mbx, .hic, .qmg, .cwy, .cwyX, .rst, .upd, .btn, .dmp, .rpl] s t := by
  refine input_frame (by decide) ?_ h
  with_reducible
    refine .step (powerFailWarning_frame ..) (by decide) ?_
    exact .refl _ _

theorem execPfCommitDone_frame {s t : State} (h : execPfCommitDone s = .next t) :
    Only [.pf, .hic, .rpl] s t := by
  refine run_frame (by decide) ?_ h
  with_reducible
    refine .step (pfCommitDone_frame ..) (by decide) ?_
    exact .refl _ _

theorem execPfCommitLate_frame {s t : State} (h : execPfCommitLate s = .next t) :
    Only [.tide, .pf, .hic, .rpl, .prior] s t := by
  refine run_frame (by decide) ?_ h
  with_reducible
    refine .step (pfCommitLate_frame ..) (by decide) ?_
    exact .refl _ _

theorem execQuiescentCommit_frame {s t : State} (h : execQuiescentCommit s = .next t) :
    Only [.pea, .arb, .pf, .bri, .hic, .rpl] s t := by
  refine run_frame (by decide) ?_ h
  with_reducible
    refine .step (quiescentDue_frame ..) (by decide) ?_
    exact .refl _ _

theorem execPfHoldEnd_frame {s t : State} (h : execPfHoldEnd s = .next t) :
    Only [.tide, .pf, .rpl, .prior] s t := by
  refine run_frame (by decide) ?_ h
  with_reducible
    refine .step (pfHoldEnd_frame ..) (by decide) ?_
    exact .refl _ _

theorem execPowerFailClear_frame {s t : State} (h : execPowerFailClear s = .next t) :
    Only [.tide, .lau, .sess, .veh, .plc, .plcCfg, .imd, .imdG, .saf, .safX, .lsw, .pea, .arb, .pf, .slt, .legal, .bri, .key, .hic, .qmg, .cwy, .cwyX, .upd, .btn, .dmp, .rpl, .prior] s t := by
  refine input_frame (by decide) ?_ h
  with_reducible
    refine .step (powerFailClear_frame ..) (by decide) ?_
    exact .refl _ _

theorem execPeaGetStatus_frame (m : Fin 4) {s t : State} (h : execPeaGetStatus m s = .next t) :
    Only [.mbx, .rpl] s t := by
  refine run_frame (by decide) ?_ h
  with_reducible
    refine .command (by decide) (by decide) (fun _ _ => ?_) ?_
    refine .step (peaGetStatus_frame ..) (by decide) ?_
    assumption
    exact .refl _ _

theorem execPeaRead_frame (m : Fin 4) (errs : List U8) {s t : State} (h : execPeaRead m errs s = .next t) :
    Only [.lau, .sess, .veh, .plc, .plcCfg, .imd, .imdG, .saf, .safX, .lsw, .pea, .arb, .slt, .legal, .bri, .key, .mbx, .hic, .qmg, .cwy, .cwyX, .btn, .dmp, .rpl] s t := by
  refine run_frame (by decide) ?_ h
  with_reducible
    refine .command (by decide) (by decide) (fun _ _ => ?_) ?_
    refine .step (peaRead_frame ..) (by decide) ?_
    assumption
    exact .refl _ _

theorem execPeaFreeze_frame (m : Fin 4) {s t : State} (h : execPeaFreeze m s = .next t) :
    Only [.arb, .mbx, .hic, .rpl] s t := by
  refine run_frame (by decide) ?_ h
  with_reducible
    refine .command (by decide) (by decide) (fun _ _ => ?_) ?_
    refine .step (peaFreeze_frame ..) (by decide) ?_
    assumption
    exact .refl _ _

theorem execPeaSetConfig_frame (m : Fin 4) {s t : State} (h : execPeaSetConfig m s = .next t) :
    Only [.pea, .arb, .pf, .mbx, .hic, .btn, .rpl] s t := by
  refine run_frame (by decide) ?_ h
  with_reducible
    refine .command (by decide) (by decide) (fun _ _ => ?_) ?_
    refine .step (peaSetConfig_frame ..) (by decide) ?_
    assumption
    exact .refl _ _

theorem execPeaCtrRead_frame (m : Fin 4) {s t : State} (h : execPeaCtrRead m s = .next t) :
    Only [.mbx, .rpl] s t := by
  refine run_frame (by decide) ?_ h
  with_reducible
    refine .command (by decide) (by decide) (fun _ _ => ?_) ?_
    refine .step (peaCtrRead_frame ..) (by decide) ?_
    assumption
    exact .refl _ _

theorem execPeaCtrIncrement_frame (m : Fin 4) {s t : State} (h : execPeaCtrIncrement m s = .next t) :
    Only [.pea, .arb, .mbx, .hic, .rpl] s t := by
  refine run_frame (by decide) ?_ h
  with_reducible
    refine .command (by decide) (by decide) (fun _ _ => ?_) ?_
    refine .step (peaCtrIncrement_frame ..) (by decide) ?_
    assumption
    exact .refl _ _

theorem execPeaAckError_frame (m : Fin 4) {s t : State} (h : execPeaAckError m s = .next t) :
    Only [.pea, .arb, .key, .mbx, .hic, .btn, .rpl] s t := by
  refine run_frame (by decide) ?_ h
  with_reducible
    refine .command (by decide) (by decide) (fun _ _ => ?_) ?_
    refine .step (peaAckError_frame ..) (by decide) ?_
    assumption
    exact .refl _ _

theorem execPeaGetRecovery_frame (m : Fin 4) {s t : State} (h : execPeaGetRecovery m s = .next t) :
    Only [.mbx, .rpl] s t := by
  refine run_frame (by decide) ?_ h
  with_reducible
    refine .command (by decide) (by decide) (fun _ _ => ?_) ?_
    refine .step (peaGetRecovery_frame ..) (by decide) ?_
    assumption
    exact .refl _ _

theorem execPeaClearCounts_frame (m : Fin 4) {s t : State} (h : execPeaClearCounts m s = .next t) :
    Only [.pea, .arb, .mbx, .rpl] s t := by
  refine run_frame (by decide) ?_ h
  with_reducible
    refine .command (by decide) (by decide) (fun _ _ => ?_) ?_
    refine .step (peaClearCounts_frame ..) (by decide) ?_
    assumption
    exact .refl _ _

/-! ### Recorder -/

theorem execLineWriteDone_frame (x : LineCheck) {s t : State} (h : execLineWriteDone x s = .next t) :
    Only (Part.but [.tide, .snaps, .barrier, .fab, .d2d, .cross, .met, .acc, .pq, .slu, .sluCnt, .mlk, .vehCfg, .v2g, .v2gCfg, .rcm, .rcmTest, .auth, .hp, .pnl, .frames, .nfc, .kept, .prior]) s t := by
  refine input_frame (by decide) ?_ h
  with_reducible
    refine .step (lineWritten_frame ..) (by decide) ?_
    exact .refl _ _

theorem execOplogFlush_frame {s t : State} (h : execOplogFlush s = .next t) :
    Only [.lau, .arb, .hic, .qmg, .cwy, .cwyX, .btn, .dmp, .rpl] s t := by
  refine run_frame (by decide) ?_ h
  with_reducible
    refine .step (oplogFlush_frame ..) (by decide) ?_
    exact .refl _ _

theorem execFullRequeue_frame {s t : State} (h : execFullRequeue s = .next t) :
    Only [.tide, .lau, .arb, .slt, .hic, .qmg, .cwy, .cwyX, .btn, .dmp, .rpl, .prior] s t := by
  refine run_frame (by decide) ?_ h
  with_reducible
    refine .step (fullRequeue_frame ..) (by decide) ?_
    exact .refl _ _

theorem execBtnRead_frame (m : Fin 4) {s t : State} (h : execBtnRead m s = .next t) :
    Only [.mbx, .rpl] s t := by
  refine run_frame (by decide) ?_ h
  with_reducible
    refine .command (by decide) (by decide) (fun _ _ => ?_) ?_
    refine .step (btnRead_frame ..) (by decide) ?_
    assumption
    exact .refl _ _

theorem execBtnClear_frame (m : Fin 4) {s t : State} (h : execBtnClear m s = .next t) :
    Only [.pea, .arb, .key, .mbx, .hic, .btn, .rpl] s t := by
  refine run_frame (by decide) ?_ h
  with_reducible
    refine .command (by decide) (by decide) (fun _ _ => ?_) ?_
    refine .step (btnClear_frame ..) (by decide) ?_
    assumption
    exact .refl _ _

theorem execBtnSetConfig_frame (m : Fin 4) {s t : State} (h : execBtnSetConfig m s = .next t) :
    Only [.pea, .arb, .mbx, .hic, .btn, .rpl] s t := by
  refine run_frame (by decide) ?_ h
  with_reducible
    refine .command (by decide) (by decide) (fun _ _ => ?_) ?_
    refine .step (btnSetConfig_frame ..) (by decide) ?_
    assumption
    exact .refl _ _

theorem execBtnGetStatus_frame (m : Fin 4) {s t : State} (h : execBtnGetStatus m s = .next t) :
    Only [.mbx, .rpl] s t := by
  refine run_frame (by decide) ?_ h
  with_reducible
    refine .command (by decide) (by decide) (fun _ _ => ?_) ?_
    refine .step (btnGetStatus_frame ..) (by decide) ?_
    assumption
    exact .refl _ _

theorem execBtnClearCounts_frame (m : Fin 4) {s t : State} (h : execBtnClearCounts m s = .next t) :
    Only [.mbx, .btn, .rpl] s t := by
  refine run_frame (by decide) ?_ h
  with_reducible
    refine .command (by decide) (by decide) (fun _ _ => ?_) ?_
    refine .step (btnClearCounts_frame ..) (by decide) ?_
    assumption
    exact .refl _ _

/-! ### Replay -/

theorem execTraceOverflow_frame {s t : State} (h : execTraceOverflow s = .next t) :
    Only [.lau, .arb, .hic, .qmg, .cwy, .cwyX, .btn, .dmp, .rpl] s t := by
  refine run_frame (by decide) ?_ h
  with_reducible
    refine .step (traceOverflow_frame ..) (by decide) ?_
    exact .refl _ _

theorem execTraceIn_frame {s t : State} (h : execTraceIn s = .next t) :
    Only (Part.but [.snaps, .fab, .sluCnt, .vehCfg, .v2gCfg, .rcmTest, .pnl, .frames, .nfc, .kept]) s t := by
  refine run_frame (by decide) ?_ h
  with_reducible
    refine .step (traceIn_frame ..) (by decide) ?_
    exact .refl _ _

theorem execReplayStarved_frame {s t : State} (h : execReplayStarved s = .next t) :
    Only [.hic, .rpl] s t := by
  refine run_frame (by decide) ?_ h
  with_reducible
    refine .step (replayStarved_frame ..) (by decide) ?_
    exact .refl _ _

theorem execRecArm_frame (m : Fin 4) {s t : State} (h : execRecArm m s = .next t) :
    Only [.pea, .arb, .mbx, .hic, .rpl] s t := by
  refine run_frame (by decide) ?_ h
  with_reducible
    refine .command (by decide) (by decide) (fun _ _ => ?_) ?_
    refine .step (recArm_frame ..) (by decide) ?_
    assumption
    exact .refl _ _

theorem execRplArm_frame (m : Fin 4) {s t : State} (h : execRplArm m s = .next t) :
    Only [.arb, .key, .mbx, .hic, .rst, .btn, .rpl] s t := by
  refine run_frame (by decide) ?_ h
  with_reducible
    refine .command (by decide) (by decide) (fun _ _ => ?_) ?_
    refine .step (rplArm_frame ..) (by decide) ?_
    assumption
    exact .refl _ _

theorem execRplGetStatus_frame (m : Fin 4) {s t : State} (h : execRplGetStatus m s = .next t) :
    Only [.mbx, .rpl] s t := by
  refine run_frame (by decide) ?_ h
  with_reducible
    refine .command (by decide) (by decide) (fun _ _ => ?_) ?_
    refine .step (rplGetStatus_frame ..) (by decide) ?_
    assumption
    exact .refl _ _

/-! ### Requests -/

theorem execMbxRequestStart_frame (m : Fin 4) {s t : State} (h : execMbxRequestStart m s = .next t) :
    Only [.tide, .mbx, .rpl, .prior] s t := by
  refine run_frame (by decide) ?_ h
  with_reducible
    refine .step (requestStart_frame ..) (by decide) ?_
    exact .refl _ _

/-! ### Reset -/

theorem execPowerOn_frame (pinHigh : Bool) (strap : U16) {s t : State} (h : execPowerOn pinHigh strap s = .next t) :
    Only (Part.but []) s t := by
  refine run_frame (by decide) ?_ h
  with_reducible
    refine .step (powerOn_frame ..) (by decide) ?_
    exact .refl _ _

theorem execBrownOut_frame {s t : State} (h : execBrownOut s = .next t) :
    Only (Part.but []) s t := by
  refine run_frame (by decide) ?_ h
  with_reducible
    refine .step (brownOut_frame ..) (by decide) ?_
    exact .refl _ _

theorem execResetPin_frame {s t : State} (h : execResetPin s = .next t) :
    Only (Part.but []) s t := by
  refine run_frame (by decide) ?_ h
  with_reducible
    refine .step (resetPin_frame ..) (by decide) ?_
    exact .refl _ _

theorem execResetNRelease_frame (strap : U16) {s t : State} (h : execResetNRelease strap s = .next t) :
    Only [.tide, .d2d, .cross, .hic, .qmg, .cwy, .cwyX, .rst, .rpl, .dbg] s t := by
  refine run_frame (by decide) ?_ h
  with_reducible
    refine .step (resetNRelease_frame ..) (by decide) ?_
    exact .refl _ _

theorem execClockFail_frame (strap : U16) {s t : State} (h : execClockFail strap s = .next t) :
    Only (Part.but []) s t := by
  refine run_frame (by decide) ?_ h
  with_reducible
    refine .step (clockFail_frame ..) (by decide) ?_
    exact .refl _ _

theorem execWatchdog_frame (core : CoreId) {s t : State} (h : execWatchdog core s = .next t) :
    Only [.lau, .sess, .mlk, .veh, .plc, .plcCfg, .v2g, .imd, .imdG, .saf, .safX, .lsw, .pea, .arb, .slt, .legal, .bri, .key, .mbx, .hic, .qmg, .cwy, .cwyX, .rst, .btn, .dmp, .rpl] s t := by
  refine run_frame (by decide) ?_ h
  with_reducible
    refine .step (coreFails_frame ..) (by decide) ?_
    exact .refl _ _

theorem execLockUp_frame (core : CoreId) {s t : State} (h : execLockUp core s = .next t) :
    Only [.lau, .sess, .mlk, .veh, .plc, .plcCfg, .v2g, .imd, .imdG, .saf, .safX, .lsw, .pea, .arb, .slt, .legal, .bri, .key, .mbx, .hic, .qmg, .cwy, .cwyX, .rst, .btn, .dmp, .rpl] s t := by
  refine run_frame (by decide) ?_ h
  with_reducible
    refine .step (coreFails_frame ..) (by decide) ?_
    exact .refl _ _

theorem execSedgeAbsenceTimeout_frame {s t : State} (h : execSedgeAbsenceTimeout s = .next t) :
    Only [.tide, .lau, .sess, .mlk, .veh, .plc, .plcCfg, .imd, .imdG, .saf, .safX, .lsw, .pea, .arb, .slt, .legal, .bri, .key, .hic, .qmg, .cwy, .cwyX, .rst, .btn, .dmp, .rpl, .prior] s t := by
  refine run_frame (by decide) ?_ h
  with_reducible
    refine .step (sedgeAbsence_frame ..) (by decide) ?_
    exact .refl _ _

theorem execStopSequenceStart_frame {s t : State} (h : execStopSequenceStart s = .next t) :
    Only (Part.but [.snaps, .barrier, .fab, .d2d, .cross, .met, .acc, .pq, .slu, .sluCnt, .vehCfg, .v2gCfg, .rcm, .rcmTest, .pf, .auth, .backup, .hp, .pnl, .frames, .nfc, .upd, .dbg, .settings, .newSettings, .legalSet, .updRec, .kept]) s t := by
  refine run_frame (by decide) ?_ h
  with_reducible
    refine .step (stopSequenceStart_frame ..) (by decide) ?_
    exact .refl _ _

theorem execStopSequenceEnd_frame (strap : U16) {s t : State} (h : execStopSequenceEnd strap s = .next t) :
    Only (Part.but []) s t := by
  refine run_frame (by decide) ?_ h
  with_reducible
    refine .step (stopSequenceEnd_frame ..) (by decide) ?_
    exact .refl _ _

theorem execSysReset_frame (m : Fin 4) {s t : State} (h : execSysReset m s = .next t) :
    Only [.mbx, .rst, .rpl] s t := by
  refine run_frame (by decide) ?_ h
  with_reducible
    refine .command (by decide) (by decide) (fun _ _ => ?_) ?_
    refine .step (sysReset_frame ..) (by decide) ?_
    assumption
    exact .refl _ _

theorem execSysGetReset_frame (m : Fin 4) {s t : State} (h : execSysGetReset m s = .next t) :
    Only [.mbx, .rpl] s t := by
  refine run_frame (by decide) ?_ h
  with_reducible
    refine .command (by decide) (by decide) (fun _ _ => ?_) ?_
    refine .step (sysGetReset_frame ..) (by decide) ?_
    assumption
    exact .refl _ _

/-! ### Safety -/

theorem execTestPulsePeriod_frame (x : TestPulse) {s t : State} (h : execTestPulsePeriod x s = .next t) :
    Only [.tide, .lau, .sess, .mlk, .veh, .plc, .plcCfg, .imd, .imdG, .saf, .safX, .lsw, .pea, .arb, .slt, .legal, .bri, .key, .hic, .qmg, .cwy, .cwyX, .btn, .dmp, .rpl, .prior] s t := by
  refine input_frame (by decide) ?_ h
  with_reducible
    refine .step (testPulse_frame ..) (by decide) ?_
    exact .refl _ _

theorem execPairFaultClear_frame (k : Fin 8) {s t : State} (h : execPairFaultClear k s = .next t) :
    Only [.saf, .safX, .rpl] s t := by
  refine run_frame (by decide) ?_ h
  with_reducible
    refine .step (pairFaultClear_frame ..) (by decide) ?_
    exact .refl _ _

theorem execSafetyInputOpen_frame (i : Fin 16) (dyke hw : Bool) {s t : State} (h : execSafetyInputOpen i dyke hw s = .next t) :
    Only [.tide, .lau, .sess, .mlk, .veh, .plc, .plcCfg, .imd, .imdG, .saf, .safX, .lsw, .pea, .arb, .slt, .legal, .bri, .key, .hic, .qmg, .cwy, .cwyX, .btn, .dmp, .rpl, .prior] s t := by
  refine input_frame (by decide) ?_ h
  with_reducible
    refine .step (safetyInputOpen_frame ..) (by decide) ?_
    exact .refl _ _

theorem execSafetyInputClose_frame (i : Fin 16) {s t : State} (h : execSafetyInputClose i s = .next t) :
    Only [.saf, .safX, .rpl] s t := by
  refine input_frame (by decide) ?_ h
  with_reducible
    refine .step (safetyInputClose_frame ..) (by decide) ?_
    exact .refl _ _

theorem execIlkFault_frame (a b cross overload dyke hw : Bool) {s t : State} (h : execIlkFault a b cross overload dyke hw s = .next t) :
    Only [.lau, .sess, .mlk, .veh, .plc, .plcCfg, .imd, .imdG, .saf, .safX, .lsw, .pea, .arb, .slt, .legal, .bri, .key, .hic, .qmg, .cwy, .cwyX, .btn, .dmp, .rpl] s t := by
  refine input_frame (by decide) ?_ h
  with_reducible
    refine .step (ilkFault_frame ..) (by decide) ?_
    exact .refl _ _

theorem execDykeAliveTimeout_frame {s t : State} (h : execDykeAliveTimeout s = .next t) :
    Only [.lau, .sess, .mlk, .veh, .plc, .plcCfg, .imd, .imdG, .saf, .safX, .lsw, .pea, .arb, .slt, .legal, .bri, .key, .hic, .qmg, .cwy, .cwyX, .btn, .dmp, .rpl] s t := by
  refine run_frame (by decide) ?_ h
  with_reducible
    refine .step (dykeAliveTimeout_frame ..) (by decide) ?_
    exact .refl _ _

theorem execDisagreeTimeout_frame {s t : State} (h : execDisagreeTimeout s = .next t) :
    Only [.tide, .lau, .sess, .mlk, .veh, .plc, .plcCfg, .imd, .imdG, .saf, .safX, .lsw, .pea, .arb, .slt, .legal, .bri, .key, .hic, .qmg, .cwy, .cwyX, .btn, .dmp, .rpl, .prior] s t := by
  refine run_frame (by decide) ?_ h
  with_reducible
    refine .step (disagreeTimeout_frame ..) (by decide) ?_
    exact .refl _ _

theorem execOvTrip_frame (n : Fin 16) (dyke hw : Bool) {s t : State} (h : execOvTrip n dyke hw s = .next t) :
    Only [.lau, .sess, .mlk, .veh, .plc, .plcCfg, .imd, .imdG, .saf, .safX, .lsw, .pea, .arb, .slt, .legal, .bri, .key, .hic, .qmg, .cwy, .cwyX, .btn, .dmp, .rpl] s t := by
  refine input_frame (by decide) ?_ h
  with_reducible
    refine .step (ovTrip_frame ..) (by decide) ?_
    exact .refl _ _

theorem execOvervoltageRelease_frame (n : Fin 16) {s t : State} (h : execOvervoltageRelease n s = .next t) :
    Only [.saf, .safX, .lsw, .hic, .rpl] s t := by
  refine input_frame (by decide) ?_ h
  with_reducible
    refine .step (ovRelease_frame ..) (by decide) ?_
    exact .refl _ _

theorem execPilotBackup_frame (n : Fin 16) {s t : State} (h : execPilotBackup n s = .next t) :
    Only [.lau, .sess, .mlk, .veh, .plc, .plcCfg, .imd, .imdG, .saf, .safX, .lsw, .pea, .arb, .slt, .legal, .bri, .key, .hic, .qmg, .cwy, .cwyX, .btn, .dmp, .rpl] s t := by
  refine input_frame (by decide) ?_ h
  with_reducible
    refine .step (pilotBackup_frame ..) (by decide) ?_
    exact .refl _ _

theorem execRampedStopTimeout_frame (n : Fin 16) {s t : State} (h : execRampedStopTimeout n s = .next t) :
    Only [.tide, .lau, .sess, .veh, .plc, .plcCfg, .imd, .imdG, .saf, .safX, .lsw, .pea, .arb, .slt, .legal, .bri, .key, .hic, .qmg, .cwy, .cwyX, .btn, .dmp, .rpl, .prior] s t := by
  refine run_frame (by decide) ?_ h
  with_reducible
    refine .step (rampedStop_frame ..) (by decide) ?_
    exact .refl _ _

theorem execContactorCloseTimeout_frame (n : Fin 16) {s t : State} (h : execContactorCloseTimeout n s = .next t) :
    Only [.tide, .lau, .sess, .mlk, .veh, .plc, .plcCfg, .imd, .imdG, .saf, .safX, .lsw, .pea, .arb, .slt, .legal, .bri, .key, .hic, .qmg, .cwy, .cwyX, .btn, .dmp, .rpl, .prior] s t := by
  refine run_frame (by decide) ?_ h
  with_reducible
    refine .step (closeTimeout_frame ..) (by decide) ?_
    exact .refl _ _

theorem execContactorOpenCheck_frame (n : Fin 16) {s t : State} (h : execContactorOpenCheck n s = .next t) :
    Only [.tide, .lau, .sess, .mlk, .veh, .plc, .plcCfg, .imd, .imdG, .saf, .safX, .lsw, .pea, .arb, .slt, .legal, .bri, .key, .hic, .qmg, .cwy, .cwyX, .btn, .dmp, .rpl, .prior] s t := by
  refine run_frame (by decide) ?_ h
  with_reducible
    refine .step (openCheck_frame ..) (by decide) ?_
    exact .refl _ _

theorem execSafeResetPulse_frame (dyke hw : Nat) {s t : State} (h : execSafeResetPulse dyke hw s = .next t) :
    Only [.lau, .sess, .mlk, .veh, .plc, .plcCfg, .imd, .imdG, .saf, .safX, .lsw, .pea, .arb, .slt, .legal, .bri, .key, .hic, .qmg, .cwy, .cwyX, .btn, .dmp, .rpl] s t := by
  refine input_frame (by decide) ?_ h
  with_reducible
    refine .step (resetPulse_frame ..) (by decide) ?_
    exact .refl _ _

theorem execResetArmExpired_frame {s t : State} (h : execResetArmExpired s = .next t) :
    Only [.tide, .saf, .rpl, .prior] s t := by
  refine run_frame (by decide) ?_ h
  with_reducible
    refine .step (armExpired_frame ..) (by decide) ?_
    exact .refl _ _

theorem execRecoveryWindowExpired_frame {s t : State} (h : execRecoveryWindowExpired s = .next t) :
    Only [.tide, .lau, .sess, .mlk, .veh, .plc, .plcCfg, .imd, .imdG, .saf, .safX, .lsw, .pea, .arb, .slt, .legal, .bri, .key, .hic, .qmg, .cwy, .cwyX, .btn, .dmp, .rpl, .prior] s t := by
  refine run_frame (by decide) ?_ h
  with_reducible
    refine .step (windowExpired_frame ..) (by decide) ?_
    exact .refl _ _

theorem execSafGetStatus_frame (m : Fin 4) {s t : State} (h : execSafGetStatus m s = .next t) :
    Only [.mbx, .rpl] s t := by
  refine run_frame (by decide) ?_ h
  with_reducible
    refine .command (by decide) (by decide) (fun _ _ => ?_) ?_
    refine .step (safGetStatus_frame ..) (by decide) ?_
    assumption
    exact .refl _ _

theorem execSafSetConfig_frame (m : Fin 4) {s t : State} (h : execSafSetConfig m s = .next t) :
    Only [.lau, .sess, .mlk, .veh, .plc, .plcCfg, .imd, .imdG, .saf, .safX, .lsw, .pea, .arb, .slt, .legal, .bri, .key, .mbx, .hic, .qmg, .cwy, .cwyX, .btn, .dmp, .rpl] s t := by
  refine run_frame (by decide) ?_ h
  with_reducible
    refine .command (by decide) (by decide) (fun _ _ => ?_) ?_
    refine .step (safSetConfig_frame ..) (by decide) ?_
    assumption
    exact .refl _ _

theorem execSafResetAck_frame (m : Fin 4) {s t : State} (h : execSafResetAck m s = .next t) :
    Only [.lau, .sess, .mlk, .veh, .plc, .plcCfg, .v2g, .imd, .imdG, .saf, .safX, .lsw, .pea, .arb, .auth, .mbx, .hic, .qmg, .cwy, .cwyX, .btn, .dmp, .rpl] s t := by
  refine run_frame (by decide) ?_ h
  with_reducible
    refine .command (by decide) (by decide) (fun _ _ => ?_) ?_
    refine .step (safResetAck_frame ..) (by decide) ?_
    assumption
    exact .refl _ _

theorem execSafGetNode_frame (m : Fin 4) {s t : State} (h : execSafGetNode m s = .next t) :
    Only [.mbx, .rpl] s t := by
  refine run_frame (by decide) ?_ h
  with_reducible
    refine .command (by decide) (by decide) (fun _ _ => ?_) ?_
    refine .step (safGetNode_frame ..) (by decide) ?_
    assumption
    exact .refl _ _

theorem execSafGetFaults_frame (m : Fin 4) {s t : State} (h : execSafGetFaults m s = .next t) :
    Only [.mbx, .rpl] s t := by
  refine run_frame (by decide) ?_ h
  with_reducible
    refine .command (by decide) (by decide) (fun _ _ => ?_) ?_
    refine .step (safGetFaults_frame ..) (by decide) ?_
    assumption
    exact .refl _ _

theorem execSafClearCounts_frame (m : Fin 4) {s t : State} (h : execSafClearCounts m s = .next t) :
    Only [.safX, .mbx, .rpl] s t := by
  refine run_frame (by decide) ?_ h
  with_reducible
    refine .command (by decide) (by decide) (fun _ _ => ?_) ?_
    refine .step (safClearCounts_frame ..) (by decide) ?_
    assumption
    exact .refl _ _

/-! ### Sluice -/

theorem execAllocationBoundary_frame {s t : State} (h : execAllocationBoundary s = .next t) :
    Only (Part.but [.snaps, .barrier, .fab, .d2d, .cross, .met, .pq, .mlk, .vehCfg, .v2g, .v2gCfg, .rcm, .rcmTest, .auth, .backup, .mbx, .hp, .pnl, .frames, .nfc, .rst, .upd, .dbg, .settings, .newSettings, .legalSet, .updRec, .kept]) s t := by
  refine run_frame (by decide) ?_ h
  with_reducible
    refine .step (allocationBoundary_frame ..) (by decide) ?_
    exact .refl _ _

theorem execSluicePublish_frame {s t : State} (h : execSluicePublish s = .next t) :
    Only [.tide, .lau, .sess, .slu, .sluCnt, .mlk, .veh, .plc, .plcCfg, .imd, .imdG, .saf, .safX, .lsw, .pea, .arb, .slt, .legal, .bri, .key, .hic, .qmg, .cwy, .cwyX, .btn, .dmp, .rpl, .prior] s t := by
  refine run_frame (by decide) ?_ h
  with_reducible
    refine .step (sluicePublish_frame ..) (by decide) ?_
    exact .refl _ _

theorem execMaxDelayExpired_frame (n : Fin 16) {s t : State} (h : execMaxDelayExpired n s = .next t) :
    Only [.tide, .sess, .rpl, .prior] s t := by
  refine run_frame (by decide) ?_ h
  with_reducible
    refine .step (maxDelayExpired_frame ..) (by decide) ?_
    exact .refl _ _

theorem execReasonHoldExpired_frame (n : Fin 16) {s t : State} (h : execReasonHoldExpired n s = .next t) :
    Only [.lau, .sess, .arb, .hic, .qmg, .cwy, .cwyX, .btn, .dmp, .rpl] s t := by
  refine run_frame (by decide) ?_ h
  with_reducible
    refine .step (reasonHoldExpired_frame ..) (by decide) ?_
    exact .refl _ _

theorem execSurplusRelease_frame (n : Fin 16) {s t : State} (h : execSurplusRelease n s = .next t) :
    Only [.sess, .rpl] s t := by
  refine run_frame (by decide) ?_ h
  with_reducible
    refine .step (surplusRelease_frame ..) (by decide) ?_
    exact .refl _ _

theorem execLeaveWaitTimeout_frame (i : Fin 24) {s t : State} (h : execLeaveWaitTimeout i s = .next t) :
    Only [.lau, .slu, .pea, .arb, .hic, .qmg, .cwy, .cwyX, .btn, .dmp, .rpl] s t := by
  refine run_frame (by decide) ?_ h
  with_reducible
    refine .step (leaveWaitTimeout_frame ..) (by decide) ?_
    exact .refl _ _

theorem execPrechargeDone_frame (n : Fin 16) {s t : State} (h : execPrechargeDone n s = .next t) :
    Only [.lau, .sess, .plc, .plcCfg, .imd, .imdG, .saf, .safX, .lsw, .arb, .hic, .qmg, .cwy, .cwyX, .btn, .dmp, .rpl] s t := by
  refine run_frame (by decide) ?_ h
  with_reducible
    refine .step (prechargeDone_frame ..) (by decide) ?_
    exact .refl _ _

theorem execPrechargeTimeout_frame (n : Fin 16) {s t : State} (h : execPrechargeTimeout n s = .next t) :
    Only [.tide, .lau, .sess, .veh, .plc, .plcCfg, .imd, .imdG, .saf, .safX, .lsw, .pea, .arb, .slt, .legal, .bri, .key, .hic, .qmg, .cwy, .cwyX, .btn, .dmp, .rpl, .prior] s t := by
  refine run_frame (by decide) ?_ h
  with_reducible
    refine .step (prechargeTimeout_frame ..) (by decide) ?_
    exact .refl _ _

theorem execHandoverVerify_frame {s t : State} (h : execHandoverVerify s = .next t) :
    Only [.tide, .lau, .sess, .slu, .veh, .plc, .plcCfg, .imd, .imdG, .saf, .safX, .lsw, .pea, .arb, .slt, .legal, .bri, .key, .hic, .qmg, .cwy, .cwyX, .btn, .dmp, .rpl, .prior] s t := by
  refine run_frame (by decide) ?_ h
  with_reducible
    refine .step (handoverVerify_frame ..) (by decide) ?_
    exact .refl _ _

theorem execHandoverEvaluate_frame {s t : State} (h : execHandoverEvaluate s = .next t) :
    Only [.tide, .lau, .sess, .slu, .sluCnt, .mlk, .veh, .plc, .plcCfg, .imd, .imdG, .saf, .safX, .lsw, .pea, .arb, .slt, .legal, .bri, .key, .hic, .qmg, .cwy, .cwyX, .btn, .dmp, .rpl, .prior] s t := by
  refine run_frame (by decide) ?_ h
  with_reducible
    refine .step (handoverEvaluate_frame ..) (by decide) ?_
    exact .refl _ _

theorem execHandoverTimeout_frame (i : Fin 24) {s t : State} (h : execHandoverTimeout i s = .next t) :
    Only [.tide, .lau, .slu, .sluCnt, .pea, .arb, .hic, .qmg, .cwy, .cwyX, .btn, .dmp, .rpl, .prior] s t := by
  refine run_frame (by decide) ?_ h
  with_reducible
    refine .step (handoverTimeout_frame ..) (by decide) ?_
    exact .refl _ _

theorem execSluSetSite_frame (m : Fin 4) {s t : State} (h : execSluSetSite m s = .next t) :
    Only [.slu, .pea, .arb, .mbx, .hic, .rpl] s t := by
  refine run_frame (by decide) ?_ h
  with_reducible
    refine .command (by decide) (by decide) (fun _ _ => ?_) ?_
    refine .step (sluSetSite_frame ..) (by decide) ?_
    assumption
    exact .refl _ _

theorem execSluSetConnector_frame (m : Fin 4) {s t : State} (h : execSluSetConnector m s = .next t) :
    Only [.sess, .pea, .arb, .mbx, .hic, .rpl] s t := by
  refine run_frame (by decide) ?_ h
  with_reducible
    refine .command (by decide) (by decide) (fun _ _ => ?_) ?_
    refine .step (sluSetConnector_frame ..) (by decide) ?_
    assumption
    exact .refl _ _

theorem execSluSetTuning_frame (m : Fin 4) {s t : State} (h : execSluSetTuning m s = .next t) :
    Only [.slu, .pea, .arb, .mbx, .hic, .rpl] s t := by
  refine run_frame (by decide) ?_ h
  with_reducible
    refine .command (by decide) (by decide) (fun _ _ => ?_) ?_
    refine .step (sluSetTuning_frame ..) (by decide) ?_
    assumption
    exact .refl _ _

theorem execSluGetNode_frame (m : Fin 4) {s t : State} (h : execSluGetNode m s = .next t) :
    Only [.mbx, .rpl] s t := by
  refine run_frame (by decide) ?_ h
  with_reducible
    refine .command (by decide) (by decide) (fun _ _ => ?_) ?_
    refine .step (sluGetNode_frame ..) (by decide) ?_
    assumption
    exact .refl _ _

theorem execSluGetMap_frame (m : Fin 4) {s t : State} (h : execSluGetMap m s = .next t) :
    Only [.mbx, .rpl] s t := by
  refine run_frame (by decide) ?_ h
  with_reducible
    refine .command (by decide) (by decide) (fun _ _ => ?_) ?_
    refine .step (sluGetMap_frame ..) (by decide) ?_
    assumption
    exact .refl _ _

theorem execSluModuleService_frame (m : Fin 4) {s t : State} (h : execSluModuleService m s = .next t) :
    Only [.slu, .mbx, .rpl] s t := by
  refine run_frame (by decide) ?_ h
  with_reducible
    refine .command (by decide) (by decide) (fun _ _ => ?_) ?_
    refine .step (sluModuleService_frame ..) (by decide) ?_
    assumption
    exact .refl _ _

theorem execSluGetHandovers_frame (m : Fin 4) {s t : State} (h : execSluGetHandovers m s = .next t) :
    Only [.mbx, .rpl] s t := by
  refine run_frame (by decide) ?_ h
  with_reducible
    refine .command (by decide) (by decide) (fun _ _ => ?_) ?_
    refine .step (sluGetHandovers_frame ..) (by decide) ?_
    assumption
    exact .refl _ _

theorem execSluClearCounts_frame (m : Fin 4) {s t : State} (h : execSluClearCounts m s = .next t) :
    Only [.slu, .sluCnt, .mbx, .rpl] s t := by
  refine run_frame (by decide) ?_ h
  with_reducible
    refine .command (by decide) (by decide) (fun _ _ => ?_) ?_
    refine .step (sluClearCounts_frame ..) (by decide) ?_
    assumption
    exact .refl _ _

/-! ### Switches -/

theorem execSwitchMeasure_frame (c : SwitchChan) (x : SwitchReading) {s t : State} (h : execSwitchMeasure c x s = .next t) :
    Only [.tide, .lau, .sess, .mlk, .veh, .plc, .plcCfg, .imd, .imdG, .saf, .safX, .lsw, .pea, .arb, .slt, .legal, .bri, .key, .hic, .qmg, .cwy, .cwyX, .btn, .dmp, .rpl, .prior] s t := by
  refine input_frame (by decide) ?_ h
  with_reducible
    refine .step (switchMeasure_frame ..) (by decide) ?_
    exact .refl _ _

theorem execSwitchOvertemp_frame (c : SwitchChan) {s t : State} (h : execSwitchOvertemp c s = .next t) :
    Only [.lau, .sess, .mlk, .veh, .plc, .plcCfg, .imd, .imdG, .saf, .safX, .lsw, .pea, .arb, .slt, .legal, .bri, .key, .hic, .qmg, .cwy, .cwyX, .btn, .dmp, .rpl] s t := by
  refine input_frame (by decide) ?_ h
  with_reducible
    refine .step (switchOvertemp_frame ..) (by decide) ?_
    exact .refl _ _

theorem execSwitchThermalRestart_frame (c : Fin 40) {s t : State} (h : execSwitchThermalRestart c s = .next t) :
    Only [.saf, .lsw, .hic, .rpl] s t := by
  refine run_frame (by decide) ?_ h
  with_reducible
    refine .step (thermalRestart_frame ..) (by decide) ?_
    exact .refl _ _

theorem execVinSysRange_frame (v : U16) {s t : State} (h : execVinSysRange v s = .next t) :
    Only [.saf, .lsw, .hic, .rpl] s t := by
  refine input_frame (by decide) ?_ h
  with_reducible
    refine .step (vinRange_frame ..) (by decide) ?_
    exact .refl _ _

theorem execCoilPullEnd_frame (n : Fin 16) {s t : State} (h : execCoilPullEnd n s = .next t) :
    Only [.tide, .saf, .lsw, .hic, .rpl, .prior] s t := by
  refine run_frame (by decide) ?_ h
  with_reducible
    refine .step (coilPullEnd_frame ..) (by decide) ?_
    exact .refl _ _

theorem execCoilRcoilLearn_frame (n : Fin 16) (x : SwitchReading) {s t : State} (h : execCoilRcoilLearn n x s = .next t) :
    Only [.tide, .lsw, .rpl, .prior] s t := by
  refine run_frame (by decide) ?_ h
  with_reducible
    refine .step (coilLearn_frame ..) (by decide) ?_
    exact .refl _ _

theorem execPackageCurrentCheck_frame {s t : State} (h : execPackageCurrentCheck s = .next t) :
    Only [.tide, .saf, .lsw, .hic, .rpl, .prior] s t := by
  refine run_frame (by decide) ?_ h
  with_reducible
    refine .atInstant (by decide) (by decide) (fun _ _ => ?_) ?_
    refine .step (packageCheck_frame ..) (by decide) ?_
    assumption
    exact .refl _ _

theorem execLimpInput_frame (j : Fin 8) (on : Bool) {s t : State} (h : execLimpInput j on s = .next t) :
    Only [.saf, .lsw, .hic, .rpl] s t := by
  refine input_frame (by decide) ?_ h
  with_reducible
    refine .step (limpInputSet_frame ..) (by decide) ?_
    exact .refl _ _

theorem execBackupChangeover_frame (vbat : Bool) (kept : BackupKept) {s t : State} (h : execBackupChangeover vbat kept s = .next t) :
    Only [.saf, .lsw, .backup, .hic, .rpl] s t := by
  refine input_frame (by decide) ?_ h
  with_reducible
    refine .step (backupChangeover_frame ..) (by decide) ?_
    exact .refl _ _

theorem execLswSetChannel_frame (m : Fin 4) {s t : State} (h : execLswSetChannel m s = .next t) :
    Only [.lsw, .pea, .arb, .mbx, .hic, .btn, .rpl] s t := by
  refine run_frame (by decide) ?_ h
  with_reducible
    refine .command (by decide) (by decide) (fun _ _ => ?_) ?_
    refine .step (lswSetChannel_frame ..) (by decide) ?_
    assumption
    exact .refl _ _

theorem execLswSwitch_frame (m : Fin 4) {s t : State} (h : execLswSwitch m s = .next t) :
    Only [.lau, .pea, .arb, .mbx, .hic, .qmg, .cwy, .cwyX, .btn, .dmp, .rpl] s t := by
  refine run_frame (by decide) ?_ h
  with_reducible
    refine .command (by decide) (by decide) (fun _ _ => ?_) ?_
    refine .step (lswSwitch_frame ..) (by decide) ?_
    assumption
    exact .refl _ _

theorem execLswGetChannel_frame (m : Fin 4) {s t : State} (h : execLswGetChannel m s = .next t) :
    Only [.mbx, .rpl] s t := by
  refine run_frame (by decide) ?_ h
  with_reducible
    refine .command (by decide) (by decide) (fun _ _ => ?_) ?_
    refine .step (lswGetChannel_frame ..) (by decide) ?_
    assumption
    exact .refl _ _

theorem execLswClearFault_frame (m : Fin 4) {s t : State} (h : execLswClearFault m s = .next t) :
    Only [.lsw, .mbx, .rpl] s t := by
  refine run_frame (by decide) ?_ h
  with_reducible
    refine .command (by decide) (by decide) (fun _ _ => ?_) ?_
    refine .step (lswClearFault_frame ..) (by decide) ?_
    assumption
    exact .refl _ _

theorem execLswSetCoil_frame (m : Fin 4) {s t : State} (h : execLswSetCoil m s = .next t) :
    Only [.lsw, .pea, .arb, .mbx, .hic, .btn, .rpl] s t := by
  refine run_frame (by decide) ?_ h
  with_reducible
    refine .command (by decide) (by decide) (fun _ _ => ?_) ?_
    refine .step (lswSetCoil_frame ..) (by decide) ?_
    assumption
    exact .refl _ _

theorem execLswGetCoil_frame (m : Fin 4) {s t : State} (h : execLswGetCoil m s = .next t) :
    Only [.mbx, .rpl] s t := by
  refine run_frame (by decide) ?_ h
  with_reducible
    refine .command (by decide) (by decide) (fun _ _ => ?_) ?_
    refine .step (lswGetCoil_frame ..) (by decide) ?_
    assumption
    exact .refl _ _

theorem execLswSetLimp_frame (m : Fin 4) {s t : State} (h : execLswSetLimp m s = .next t) :
    Only [.saf, .lsw, .pea, .arb, .mbx, .hic, .btn, .rpl] s t := by
  refine run_frame (by decide) ?_ h
  with_reducible
    refine .command (by decide) (by decide) (fun _ _ => ?_) ?_
    refine .step (lswSetLimp_frame ..) (by decide) ?_
    assumption
    exact .refl _ _

theorem execLswLimpRelease_frame (m : Fin 4) {s t : State} (h : execLswLimpRelease m s = .next t) :
    Only [.saf, .lsw, .mbx, .hic, .rpl] s t := by
  refine run_frame (by decide) ?_ h
  with_reducible
    refine .command (by decide) (by decide) (fun _ _ => ?_) ?_
    refine .step (lswLimpRelease_frame ..) (by decide) ?_
    assumption
    exact .refl _ _

theorem execLswClearCounts_frame (m : Fin 4) {s t : State} (h : execLswClearCounts m s = .next t) :
    Only [.lsw, .mbx, .rpl] s t := by
  refine run_frame (by decide) ?_ h
  with_reducible
    refine .command (by decide) (by decide) (fun _ _ => ?_) ?_
    refine .step (lswClearCounts_frame ..) (by decide) ?_
    assumption
    exact .refl _ _

/-! ### Tide -/

theorem execPpsEdge_frame (falling : Bool) {s t : State} (h : execPpsEdge falling s = .next t) :
    Only [.tide, .hic, .rpl] s t := by
  refine input_frame (by decide) ?_ h
  with_reducible
    refine .step (ppsEdge_frame ..) (by decide) ?_
    exact .refl _ _

theorem execPpsLost_frame {s t : State} (h : execPpsLost s = .next t) :
    Only [.tide, .hic, .rpl, .prior] s t := by
  refine run_frame (by decide) ?_ h
  with_reducible
    refine .step (ppsLost_frame ..) (by decide) ?_
    exact .refl _ _

theorem execTideGetTime_frame (m : Fin 4) {s t : State} (h : execTideGetTime m s = .next t) :
    Only [.mbx, .rpl] s t := by
  refine run_frame (by decide) ?_ h
  with_reducible
    refine .command (by decide) (by decide) (fun _ _ => ?_) ?_
    refine .step (tideGetTime_frame ..) (by decide) ?_
    assumption
    exact .refl _ _

theorem execTideSetTrim_frame (m : Fin 4) {s t : State} (h : execTideSetTrim m s = .next t) :
    Only [.tide, .mbx, .hic, .rpl] s t := by
  refine run_frame (by decide) ?_ h
  with_reducible
    refine .command (by decide) (by decide) (fun _ _ => ?_) ?_
    refine .step (tideSetTrim_frame ..) (by decide) ?_
    assumption
    exact .refl _ _

theorem execTidePpsConfig_frame (m : Fin 4) {s t : State} (h : execTidePpsConfig m s = .next t) :
    Only [.tide, .mbx, .rpl] s t := by
  refine run_frame (by decide) ?_ h
  with_reducible
    refine .command (by decide) (by decide) (fun _ _ => ?_) ?_
    refine .step (tidePpsConfig_frame ..) (by decide) ?_
    assumption
    exact .refl _ _

theorem execTideSetTod_frame (m : Fin 4) {s t : State} (h : execTideSetTod m s = .next t) :
    Only [.tide, .lau, .arb, .slt, .backup, .mbx, .hic, .qmg, .cwy, .cwyX, .btn, .dmp, .rpl] s t := by
  refine run_frame (by decide) ?_ h
  with_reducible
    refine .command (by decide) (by decide) (fun _ _ => ?_) ?_
    refine .step (tideSetTod_frame ..) (by decide) ?_
    assumption
    exact .refl _ _

theorem execTideSnapshot_frame (m : Fin 4) {s t : State} (h : execTideSnapshot m s = .next t) :
    Only [.lau, .pea, .arb, .mbx, .hic, .qmg, .cwy, .cwyX, .btn, .dmp, .rpl] s t := by
  refine run_frame (by decide) ?_ h
  with_reducible
    refine .command (by decide) (by decide) (fun _ _ => ?_) ?_
    refine .step (tideSnapshot_frame ..) (by decide) ?_
    assumption
    exact .refl _ _

theorem execTideSubmit_frame (m : Fin 4) {s t : State} (h : execTideSubmit m s = .next t) :
    Only [.lau, .pea, .arb, .mbx, .hic, .qmg, .cwy, .cwyX, .btn, .dmp, .rpl] s t := by
  refine run_frame (by decide) ?_ h
  with_reducible
    refine .command (by decide) (by decide) (fun _ _ => ?_) ?_
    refine .step (tideSubmit_frame ..) (by decide) ?_
    assumption
    exact .refl _ _

theorem execTideCancel_frame (m : Fin 4) {s t : State} (h : execTideCancel m s = .next t) :
    Only [.lau, .pea, .arb, .mbx, .hic, .qmg, .cwy, .cwyX, .btn, .dmp, .rpl] s t := by
  refine run_frame (by decide) ?_ h
  with_reducible
    refine .command (by decide) (by decide) (fun _ _ => ?_) ?_
    refine .step (tideCancel_frame ..) (by decide) ?_
    assumption
    exact .refl _ _

theorem execTideRingStatus_frame (m : Fin 4) {s t : State} (h : execTideRingStatus m s = .next t) :
    Only [.mbx, .rpl] s t := by
  refine run_frame (by decide) ?_ h
  with_reducible
    refine .command (by decide) (by decide) (fun _ _ => ?_) ?_
    refine .step (tideRingStatus_frame ..) (by decide) ?_
    assumption
    exact .refl _ _

theorem execTideClearCounts_frame (m : Fin 4) {s t : State} (h : execTideClearCounts m s = .next t) :
    Only [.tide, .lau, .mbx, .rpl] s t := by
  refine run_frame (by decide) ?_ h
  with_reducible
    refine .command (by decide) (by decide) (fun _ _ => ?_) ?_
    refine .step (tideClearCounts_frame ..) (by decide) ?_
    assumption
    exact .refl _ _

/-! ### Update -/

theorem execActivationSwitch_frame (converts : Bool) {s t : State} (h : execActivationSwitch converts s = .next t) :
    Only (Part.but [.tide, .snaps, .barrier, .fab, .d2d, .cross, .met, .acc, .pq, .sluCnt, .rcmTest, .legal, .backup, .bri, .hp, .dbg, .settings, .legalSet, .updRec, .kept, .prior]) s t := by
  refine run_frame (by decide) ?_ h
  with_reducible
    refine .step (activationSwitch_frame ..) (by decide) ?_
    exact .refl _ _

theorem execModemDeferredSwitch_frame (n : Fin 16) {s t : State} (h : execModemDeferredSwitch n s = .next t) :
    Only [.upd, .rpl] s t := by
  refine run_frame (by decide) ?_ h
  with_reducible
    refine .step (modemDeferredSwitch_frame ..) (by decide) ?_
    exact .refl _ _

theorem execTrialWarn_frame {s t : State} (h : execTrialWarn s = .next t) :
    Only [.tide, .hic, .upd, .rpl, .prior] s t := by
  refine run_frame (by decide) ?_ h
  with_reducible
    refine .step (trialWarn_frame ..) (by decide) ?_
    exact .refl _ _

theorem execTrialExpired_frame {s t : State} (h : execTrialExpired s = .next t) :
    Only [.tide, .saf, .safX, .lsw, .pea, .arb, .bri, .mbx, .hic, .rst, .upd, .rpl, .prior] s t := by
  refine run_frame (by decide) ?_ h
  with_reducible
    refine .step (trialExpired_frame ..) (by decide) ?_
    exact .refl _ _

theorem execTrialTimeSave_frame {s t : State} (h : execTrialTimeSave s = .next t) :
    Only [.tide, .pea, .arb, .hic, .upd, .rpl, .prior] s t := by
  refine run_frame (by decide) ?_ h
  with_reducible
    refine .step (trialTimeSave_frame ..) (by decide) ?_
    exact .refl _ _

theorem execUpdGetStatus_frame (m : Fin 4) {s t : State} (h : execUpdGetStatus m s = .next t) :
    Only [.mbx, .rpl] s t := by
  refine run_frame (by decide) ?_ h
  with_reducible
    refine .command (by decide) (by decide) (fun _ _ => ?_) ?_
    refine .step (updGetStatus_frame ..) (by decide) ?_
    assumption
    exact .refl _ _

theorem execUpdStage_frame (m : Fin 4) {s t : State} (h : execUpdStage m s = .next t) :
    Only [.lau, .arb, .mbx, .hic, .qmg, .cwy, .cwyX, .upd, .btn, .dmp, .rpl] s t := by
  refine run_frame (by decide) ?_ h
  with_reducible
    refine .command (by decide) (by decide) (fun _ _ => ?_) ?_
    refine .step (updStage_frame ..) (by decide) ?_
    assumption
    exact .refl _ _

theorem execUpdActivate_frame (m : Fin 4) {s t : State} (h : execUpdActivate m s = .next t) :
    Only [.pea, .arb, .key, .mbx, .hic, .upd, .rpl] s t := by
  refine run_frame (by decide) ?_ h
  with_reducible
    refine .command (by decide) (by decide) (fun _ _ => ?_) ?_
    refine .step (updActivate_frame ..) (by decide) ?_
    assumption
    exact .refl _ _

theorem execUpdCommit_frame (m : Fin 4) {s t : State} (h : execUpdCommit m s = .next t) :
    Only [.pea, .arb, .mbx, .hic, .upd, .btn, .rpl, .settings, .newSettings] s t := by
  refine run_frame (by decide) ?_ h
  with_reducible
    refine .command (by decide) (by decide) (fun _ _ => ?_) ?_
    refine .step (updCommit_frame ..) (by decide) ?_
    assumption
    exact .refl _ _

theorem execUpdRevert_frame (m : Fin 4) {s t : State} (h : execUpdRevert m s = .next t) :
    Only [.saf, .safX, .lsw, .pea, .arb, .bri, .mbx, .hic, .rst, .upd, .rpl] s t := by
  refine run_frame (by decide) ?_ h
  with_reducible
    refine .command (by decide) (by decide) (fun _ _ => ?_) ?_
    refine .step (updRevert_frame ..) (by decide) ?_
    assumption
    exact .refl _ _

theorem execUpdDiscard_frame (m : Fin 4) {s t : State} (h : execUpdDiscard m s = .next t) :
    Only [.mbx, .upd, .rpl] s t := by
  refine run_frame (by decide) ?_ h
  with_reducible
    refine .command (by decide) (by decide) (fun _ _ => ?_) ?_
    refine .step (updDiscard_frame ..) (by decide) ?_
    assumption
    exact .refl _ _

theorem execUpdSetConfig_frame (m : Fin 4) {s t : State} (h : execUpdSetConfig m s = .next t) :
    Only [.pea, .arb, .mbx, .hic, .upd, .rpl] s t := by
  refine run_frame (by decide) ?_ h
  with_reducible
    refine .command (by decide) (by decide) (fun _ _ => ?_) ?_
    refine .step (updSetConfig_frame ..) (by decide) ?_
    assumption
    exact .refl _ _

theorem execUpdGetManifest_frame (m : Fin 4) {s t : State} (h : execUpdGetManifest m s = .next t) :
    Only [.mbx, .rpl] s t := by
  refine run_frame (by decide) ?_ h
  with_reducible
    refine .command (by decide) (by decide) (fun _ _ => ?_) ?_
    refine .step (updGetManifest_frame ..) (by decide) ?_
    assumption
    exact .refl _ _

theorem execCoreRestartComplete_frame (core : CoreId) (bad : U16) {s t : State} (h : execCoreRestartComplete core bad s = .next t) :
    Only (Part.but [.tide, .snaps, .barrier, .fab, .d2d, .cross, .met, .acc, .pq, .sluCnt, .rcmTest, .backup, .hp, .dbg, .settings, .legalSet, .updRec, .kept, .prior]) s t := by
  refine run_frame (by decide) ?_ h
  with_reducible
    refine .step (coreRestartComplete_frame ..) (by decide) ?_
    exact .refl _ _

/-! ### V2g -/

theorem execV2gRequest_frame (n : Fin 16) (q : V2gRequest) {s t : State} (h : execV2gRequest n q s = .next t) :
    Only [.lau, .sess, .veh, .plc, .plcCfg, .v2g, .imd, .imdG, .saf, .safX, .lsw, .pea, .arb, .slt, .legal, .auth, .bri, .key, .hic, .qmg, .cwy, .cwyX, .btn, .dmp, .rpl] s t := by
  refine input_frame (by decide) ?_ h
  with_reducible
    refine .step (v2gRequest_frame ..) (by decide) ?_
    exact .refl _ _

theorem execV2gSeqTimeout_frame (n : Fin 16) {s t : State} (h : execV2gSeqTimeout n s = .next t) :
    Only [.tide, .lau, .sess, .veh, .plc, .plcCfg, .v2g, .imd, .imdG, .saf, .safX, .lsw, .pea, .arb, .slt, .legal, .bri, .key, .hic, .qmg, .cwy, .cwyX, .btn, .dmp, .rpl, .prior] s t := by
  refine run_frame (by decide) ?_ h
  with_reducible
    refine .step (v2gSeqTimeout_frame ..) (by decide) ?_
    exact .refl _ _

theorem execV2gLinkLoss_frame (n : Fin 16) (network : Bool) {s t : State} (h : execV2gLinkLoss n network s = .next t) :
    Only [.lau, .sess, .veh, .plc, .plcCfg, .v2g, .imd, .imdG, .saf, .safX, .lsw, .pea, .arb, .slt, .legal, .bri, .key, .hic, .qmg, .cwy, .cwyX, .btn, .dmp, .rpl] s t := by
  refine input_frame (by decide) ?_ h
  with_reducible
    refine .step (v2gLinkLoss_frame ..) (by decide) ?_
    exact .refl _ _

theorem execV2gSetConfig_frame (m : Fin 4) {s t : State} (h : execV2gSetConfig m s = .next t) :
    Only [.v2gCfg, .pea, .arb, .mbx, .hic, .rpl] s t := by
  refine run_frame (by decide) ?_ h
  with_reducible
    refine .command (by decide) (by decide) (fun _ _ => ?_) ?_
    refine .step (v2gSetConfig_frame ..) (by decide) ?_
    assumption
    exact .refl _ _

theorem execV2gSetSecc_frame (m : Fin 4) {s t : State} (h : execV2gSetSecc m s = .next t) :
    Only [.v2gCfg, .arb, .mbx, .hic, .qmg, .cwy, .cwyX, .btn, .dmp, .rpl] s t := by
  refine run_frame (by decide) ?_ h
  with_reducible
    refine .command (by decide) (by decide) (fun _ _ => ?_) ?_
    refine .step (v2gSetSecc_frame ..) (by decide) ?_
    assumption
    exact .refl _ _

theorem execV2gGetSession_frame (m : Fin 4) {s t : State} (h : execV2gGetSession m s = .next t) :
    Only [.mbx, .rpl] s t := by
  refine run_frame (by decide) ?_ h
  with_reducible
    refine .command (by decide) (by decide) (fun _ _ => ?_) ?_
    refine .step (v2gGetSession_frame ..) (by decide) ?_
    assumption
    exact .refl _ _

theorem execV2gClearCounts_frame (m : Fin 4) {s t : State} (h : execV2gClearCounts m s = .next t) :
    Only [.v2g, .mbx, .rpl] s t := by
  refine run_frame (by decide) ?_ h
  with_reducible
    refine .command (by decide) (by decide) (fun _ _ => ?_) ?_
    refine .step (v2gClearCounts_frame ..) (by decide) ?_
    assumption
    exact .refl _ _

/-! ### Weld -/

theorem execWeldTestStart_frame (n : Fin 16) {s t : State} (h : execWeldTestStart n s = .next t) :
    Only [.tide, .lau, .sess, .mlk, .veh, .plc, .plcCfg, .imd, .imdG, .saf, .safX, .lsw, .pea, .arb, .slt, .legal, .bri, .key, .mbx, .hic, .qmg, .cwy, .cwyX, .btn, .dmp, .rpl, .prior] s t := by
  refine run_frame (by decide) ?_ h
  with_reducible
    refine .step (weldTestStart_frame ..) (by decide) ?_
    exact .refl _ _

theorem execWeldTestCompare_frame (n : Fin 16) {s t : State} (h : execWeldTestCompare n s = .next t) :
    Only [.tide, .lau, .sess, .mlk, .veh, .plc, .plcCfg, .imd, .imdG, .saf, .safX, .lsw, .pea, .arb, .slt, .legal, .bri, .key, .mbx, .hic, .qmg, .cwy, .cwyX, .btn, .dmp, .rpl, .prior] s t := by
  refine run_frame (by decide) ?_ h
  with_reducible
    refine .step (weldTestCompare_frame ..) (by decide) ?_
    exact .refl _ _

theorem execSafWeldTest_frame (m : Fin 4) {s t : State} (h : execSafWeldTest m s = .next t) :
    Only [.lau, .sess, .slu, .mlk, .safX, .arb, .mbx, .hic, .qmg, .cwy, .cwyX, .btn, .dmp, .rpl] s t := by
  refine run_frame (by decide) ?_ h
  with_reducible
    refine .command (by decide) (by decide) (fun _ _ => ?_) ?_
    refine .step (safWeldTest_frame ..) (by decide) ?_
    assumption
    exact .refl _ _

/-! ### Window -/

theorem execReadFrame_frame (addr : U16) (count : Nat) (lag : Fin 49) {s t : State} (h : execReadFrame addr count lag s = .next t) :
    Only [.tide, .acc, .bri, .hp, .hic, .btn, .rpl] s t := by
  refine run_frame (by decide) ?_ h
  with_reducible
    refine .step (wholeRead_frame ..) (by decide) ?_
    exact .refl _ _

theorem execTidNowRead_frame (lag : Fin 49) {s t : State} (h : execTidNowRead lag s = .next t) :
    Only [.tide, .acc, .bri, .hp, .hic, .btn, .rpl] s t := by
  refine run_frame (by decide) ?_ h
  with_reducible
    refine .step (wholeRead_frame ..) (by decide) ?_
    exact .refl _ _

theorem execLoCaptureRead_frame (addr : U16) {s t : State} (h : execLoCaptureRead addr s = .next t) :
    Only [.tide, .acc, .bri, .hp, .hic, .btn, .rpl] s t := by
  refine run_frame (by decide) ?_ h
  with_reducible
    refine .step (captureRead_frame ..) (by decide) ?_
    exact .refl _ _

theorem execHicClaim_frame (p : Fin 4) {s t : State} (h : execHicClaim p s = .next t) :
    Only [.tide, .acc, .bri, .hp, .hic, .btn, .rpl] s t := by
  refine run_frame (by decide) ?_ h
  with_reducible
    refine .step (wholeRead_frame ..) (by decide) ?_
    exact .refl _ _

theorem execRegisterWrite_frame (addr : U16) (words : List U32) (crc : Option U8) {s t : State} (h : execRegisterWrite addr words crc s = .next t) :
    Only [.tide, .barrier, .cross, .met, .slu, .mlk, .veh, .imd, .rcm, .mbx, .hp, .hic, .rst, .upd, .rpl, .dbg] s t := by
  refine run_frame (by decide) ?_ h
  with_reducible
    refine .step (registerWrite_frame ..) (by decide) ?_
    exact .refl _ _

theorem execHicComplete_frame (p : Fin 4) (src : U32) {s t : State} (h : execHicComplete p src s = .next t) :
    Only [.tide, .barrier, .cross, .met, .slu, .mlk, .veh, .imd, .rcm, .mbx, .hp, .hic, .rst, .upd, .rpl, .dbg] s t := by
  refine run_frame (by decide) ?_ h
  with_reducible
    refine .step (completeWrite_frame ..) (by decide) ?_
    exact .refl _ _

theorem execRplStop_frame {s t : State} (h : execRplStop s = .next t) :
    Only [.tide, .barrier, .cross, .met, .slu, .mlk, .veh, .imd, .rcm, .mbx, .hp, .hic, .rst, .upd, .rpl, .dbg] s t := by
  refine run_frame (by decide) ?_ h
  with_reducible
    refine .step (stopWrite_frame ..) (by decide) ?_
    exact .refl _ _

theorem execBadFrame_frame (frame : HostFrame) {s t : State} (h : execBadFrame frame s = .next t) :
    Only [.tide, .barrier, .cross, .met, .acc, .slu, .mlk, .veh, .imd, .rcm, .bri, .mbx, .hp, .hic, .rst, .upd, .btn, .rpl, .dbg] s t := by
  refine run_frame (by decide) ?_ h
  with_reducible
    refine .step (badFrame_frame ..) (by decide) ?_
    exact .refl _ _

end Sys2Proof.Machine
end

