-- ==== Sys2Proof/Laws/Memory.lean ====
section
/-! SUPPORT. The laws of the sparse maps and of the addressed memories: what a read answers after a write, and that every
operation keeps the canonical form. -/

namespace Sys2Proof.Machine

variable {α : Type} [DecidableEq α] {d : α}

/-- The bound below the first key may be lowered. -/
theorem swfFrom_weaken {l : List (Nat × α)} {lo lo' : Nat} (h : swfFrom d (some lo) l = true) (hl : lo' ≤ lo) :
    swfFrom d (some lo') l = true := by
  cases l with
  | nil => rfl
  | cons e r =>
    simp only [swfFrom, Bool.and_eq_true, decide_eq_true_eq] at h ⊢
    exact ⟨⟨Nat.lt_of_le_of_lt hl h.1.1, h.1.2⟩, h.2⟩

/-- Without a bound nothing is asked of the first key. -/
theorem swfFrom_none {l : List (Nat × α)} {lo : Nat} (h : swfFrom d (some lo) l = true) : swfFrom d none l = true := by
  cases l with
  | nil => rfl
  | cons e r =>
    simp only [swfFrom, Bool.and_eq_true, decide_eq_true_eq] at h ⊢
    exact ⟨⟨trivial, h.1.2⟩, h.2⟩

/-- A key at or below the bound is not listed. -/
theorem sget_below {l : List (Nat × α)} {lo k : Nat} (h : swfFrom d (some lo) l = true) (hk : k ≤ lo) : sget d l k = d := by
  induction l generalizing lo with
  | nil => rfl
  | cons e r ih =>
    simp only [swfFrom, Bool.and_eq_true, decide_eq_true_eq] at h
    have hne : e.1 ≠ k := by omega
    simp only [sget, if_neg hne]
    exact ih h.2 (by omega)

/-- Setting a key above the bound keeps the canonical form under that bound. -/
theorem swfFrom_sput {l : List (Nat × α)} {lo : Option Nat} {k : Nat} (v : α) (h : swfFrom d lo l = true)
    (hk : ∀ x, lo = some x → x < k) : swfFrom d lo (sput d l k v) = true := by
  induction l generalizing lo with
  | nil =>
    by_cases hv : v = d
    · simp [sput, hv, swfFrom]
    · cases lo <;> simp_all [sput, swfFrom]
  | cons e r ih =>
    obtain ⟨k', v'⟩ := e
    simp only [swfFrom, Bool.and_eq_true, decide_eq_true_eq] at h
    obtain ⟨⟨hlo, hv'⟩, hr⟩ := h
    simp only [sput]
    split
    · next hlt =>
      split
      · simp [swfFrom, hlo, hv', hr]
      · next hv => cases lo <;> simp_all [swfFrom]
    · split
      · next heq =>
        subst heq
        split
        · cases lo with
          | none => exact swfFrom_none hr
          | some x => exact swfFrom_weaken hr (Nat.le_of_lt (hk x rfl))
        · next hv => simp [swfFrom, hlo, hv, hr]
      · next h1 h2 =>
        have := ih hr (lo := some k') (by intro x hx; cases hx; omega)
        simp [swfFrom, hlo, hv', this]

/-- Setting a key keeps the canonical form of a sparse map. -/
theorem swf_sput {l : List (Nat × α)} (k : Nat) (v : α) (h : swf d l = true) : swf d (sput d l k v) = true :=
  swfFrom_sput v h (by simp)

/-- The key that was set answers the value. -/
theorem sget_sput_self {l : List (Nat × α)} {lo : Option Nat} (k : Nat) (v : α) (h : swfFrom d lo l = true) :
    sget d (sput d l k v) k = v := by
  induction l generalizing lo with
  | nil => by_cases hv : v = d <;> simp [sput, sget, hv]
  | cons e r ih =>
    obtain ⟨k', v'⟩ := e
    simp only [swfFrom, Bool.and_eq_true, decide_eq_true_eq] at h
    simp only [sput]
    split
    · next hlt =>
      split
      · next hv =>
        have hne : k' ≠ k := by omega
        simp only [sget, if_neg hne, hv]
        exact sget_below h.2 (Nat.le_of_lt hlt)
      · simp [sget]
    · split
      · next heq =>
        subst heq
        split
        · next hv => rw [hv]; exact sget_below h.2 (Nat.le_refl k)
        · simp [sget]
      · next h1 h2 =>
        simp only [sget, if_neg (Ne.symm h2)]
        exact ih h.2

/-- Any other key answers what it answered before. -/
theorem sget_sput_other (l : List (Nat × α)) {k j : Nat} (v : α) (hj : j ≠ k) : sget d (sput d l k v) j = sget d l j := by
  induction l with
  | nil => by_cases hv : v = d <;> simp [sput, sget, hv, Ne.symm hj]
  | cons e r ih =>
    obtain ⟨k', v'⟩ := e
    simp only [sput]
    split
    · split <;> simp [sget, Ne.symm hj]
    · split
      · next heq => subst heq; split <;> simp [sget, Ne.symm hj]
      · simp [sget, ih]

/-- Applying a function at a key keeps the canonical form. -/
theorem swf_supd {l : List (Nat × α)} (k : Nat) (f : α → α) (h : swf d l = true) : swf d (supd d l k f) = true :=
  swf_sput k _ h

/-! ### Addressed memories -/

/-- A store of one byte keeps the canonical form. -/
theorem Memory.wf_write {m : Memory} (a : Nat) (v : U8) (h : m.wf = true) : (m.write a v).wf = true := swf_sput a v h

/-- Reading the byte just stored answers it. -/
theorem Memory.read_write_self {m : Memory} (a : Nat) (v : U8) (h : m.wf = true) : (m.write a v).read a = v :=
  sget_sput_self a v h

/-- A store of one byte leaves every other address alone. -/
theorem Memory.read_write_other (m : Memory) {a j : Nat} (v : U8) (hj : j ≠ a) : (m.write a v).read j = m.read j :=
  sget_sput_other m v hj

/-- A store of bytes keeps the canonical form. -/
theorem Memory.wf_writeN {m : Memory} (a : Nat) (l : List U8) (h : m.wf = true) : (m.writeN a l).wf = true := by
  induction l generalizing m a with
  | nil => exact h
  | cons b r ih => exact ih _ (Memory.wf_write a b h)

/-- A store of bytes leaves every address outside them alone. -/
theorem Memory.read_writeN_other (m : Memory) {a j : Nat} (l : List U8) (hj : j < a ∨ a + l.length ≤ j) :
    (m.writeN a l).read j = m.read j := by
  induction l generalizing m a with
  | nil => rfl
  | cons b r ih =>
    simp only [List.length_cons] at hj
    exact (ih (m.write a b) (by omega)).trans (Memory.read_write_other m b (by omega))

/-- The bytes just stored are read back. -/
theorem Memory.read_writeN {m : Memory} (a : Nat) (l : List U8) (i : Nat) (hi : i < l.length) (h : m.wf = true) :
    (m.writeN a l).read (a + i) = l[i] := by
  induction l generalizing m a i with
  | nil => exact absurd hi (Nat.not_lt_zero i)
  | cons b r ih =>
    cases i with
    | zero =>
      exact (Memory.read_writeN_other (m.write a b) r (by omega)).trans (Memory.read_write_self a b h)
    | succ i =>
      have := ih (a + 1) i (Nat.lt_of_succ_lt_succ hi) (Memory.wf_write a b h)
      simpa [Memory.writeN, Nat.add_assoc, Nat.add_comm 1 i] using this

/-- Storing zero bytes keeps the canonical form. -/
theorem Memory.wf_zeroN {m : Memory} (a n : Nat) (h : m.wf = true) : (m.zeroN a n).wf = true := Memory.wf_writeN a _ h

/-- A memory made of bytes has the canonical form. -/
theorem Memory.wf_ofBytes (l : List U8) : (Memory.ofBytes l).wf = true := Memory.wf_writeN 0 l rfl

end Sys2Proof.Machine
end

