-- ==== Sys2Proof/Laws/State.lean ====
section
/-! SUPPORT. What the named updates of one unit leave of the block: one lemma per update and unit. -/

namespace Sys2Proof.Machine

@[simp] theorem updPlcG_tide (f : PlcCfg → PlcCfg) (b : Block) : (updPlcG f b).tide = b.tide := rfl
@[simp] theorem updPlcG_lau (f : PlcCfg → PlcCfg) (b : Block) : (updPlcG f b).lau = b.lau := rfl
@[simp] theorem updPlcG_snaps (f : PlcCfg → PlcCfg) (b : Block) : (updPlcG f b).snaps = b.snaps := rfl
@[simp] theorem updPlcG_barrier (f : PlcCfg → PlcCfg) (b : Block) : (updPlcG f b).barrier = b.barrier := rfl
@[simp] theorem updPlcG_fab (f : PlcCfg → PlcCfg) (b : Block) : (updPlcG f b).fab = b.fab := rfl
@[simp] theorem updPlcG_d2d (f : PlcCfg → PlcCfg) (b : Block) : (updPlcG f b).d2d = b.d2d := rfl
@[simp] theorem updPlcG_cross (f : PlcCfg → PlcCfg) (b : Block) : (updPlcG f b).cross = b.cross := rfl
@[simp] theorem updPlcG_met (f : PlcCfg → PlcCfg) (b : Block) : (updPlcG f b).met = b.met := rfl
@[simp] theorem updPlcG_acc (f : PlcCfg → PlcCfg) (b : Block) : (updPlcG f b).acc = b.acc := rfl
@[simp] theorem updPlcG_pq (f : PlcCfg → PlcCfg) (b : Block) : (updPlcG f b).pq = b.pq := rfl
@[simp] theorem updPlcG_sess (f : PlcCfg → PlcCfg) (b : Block) : (updPlcG f b).sess = b.sess := rfl
@[simp] theorem updPlcG_slu (f : PlcCfg → PlcCfg) (b : Block) : (updPlcG f b).slu = b.slu := rfl
@[simp] theorem updPlcG_sluCnt (f : PlcCfg → PlcCfg) (b : Block) : (updPlcG f b).sluCnt = b.sluCnt := rfl
@[simp] theorem updPlcG_mlk (f : PlcCfg → PlcCfg) (b : Block) : (updPlcG f b).mlk = b.mlk := rfl
@[simp] theorem updPlcG_veh (f : PlcCfg → PlcCfg) (b : Block) : (updPlcG f b).veh = b.veh := rfl
@[simp] theorem updPlcG_vehCfg (f : PlcCfg → PlcCfg) (b : Block) : (updPlcG f b).vehCfg = b.vehCfg := rfl
@[simp] theorem updPlcG_plc (f : PlcCfg → PlcCfg) (b : Block) : (updPlcG f b).plc = b.plc := rfl
@[simp] theorem updPlcG_v2g (f : PlcCfg → PlcCfg) (b : Block) : (updPlcG f b).v2g = b.v2g := rfl
@[simp] theorem updPlcG_v2gCfg (f : PlcCfg → PlcCfg) (b : Block) : (updPlcG f b).v2gCfg = b.v2gCfg := rfl
@[simp] theorem updPlcG_imd (f : PlcCfg → PlcCfg) (b : Block) : (updPlcG f b).imd = b.imd := rfl
@[simp] theorem updPlcG_imdG (f : PlcCfg → PlcCfg) (b : Block) : (updPlcG f b).imdG = b.imdG := rfl
@[simp] theorem updPlcG_rcm (f : PlcCfg → PlcCfg) (b : Block) : (updPlcG f b).rcm = b.rcm := rfl
@[simp] theorem updPlcG_rcmTest (f : PlcCfg → PlcCfg) (b : Block) : (updPlcG f b).rcmTest = b.rcmTest := rfl
@[simp] theorem updPlcG_saf (f : PlcCfg → PlcCfg) (b : Block) : (updPlcG f b).saf = b.saf := rfl
@[simp] theorem updPlcG_safX (f : PlcCfg → PlcCfg) (b : Block) : (updPlcG f b).safX = b.safX := rfl
@[simp] theorem updPlcG_lsw (f : PlcCfg → PlcCfg) (b : Block) : (updPlcG f b).lsw = b.lsw := rfl
@[simp] theorem updPlcG_pea (f : PlcCfg → PlcCfg) (b : Block) : (updPlcG f b).pea = b.pea := rfl
@[simp] theorem updPlcG_arb (f : PlcCfg → PlcCfg) (b : Block) : (updPlcG f b).arb = b.arb := rfl
@[simp] theorem updPlcG_pf (f : PlcCfg → PlcCfg) (b : Block) : (updPlcG f b).pf = b.pf := rfl
@[simp] theorem updPlcG_slt (f : PlcCfg → PlcCfg) (b : Block) : (updPlcG f b).slt = b.slt := rfl
@[simp] theorem updPlcG_legal (f : PlcCfg → PlcCfg) (b : Block) : (updPlcG f b).legal = b.legal := rfl
@[simp] theorem updPlcG_auth (f : PlcCfg → PlcCfg) (b : Block) : (updPlcG f b).auth = b.auth := rfl
@[simp] theorem updPlcG_backup (f : PlcCfg → PlcCfg) (b : Block) : (updPlcG f b).backup = b.backup := rfl
@[simp] theorem updPlcG_bri (f : PlcCfg → PlcCfg) (b : Block) : (updPlcG f b).bri = b.bri := rfl
@[simp] theorem updPlcG_key (f : PlcCfg → PlcCfg) (b : Block) : (updPlcG f b).key = b.key := rfl
@[simp] theorem updPlcG_mbx (f : PlcCfg → PlcCfg) (b : Block) : (updPlcG f b).mbx = b.mbx := rfl
@[simp] theorem updPlcG_hp (f : PlcCfg → PlcCfg) (b : Block) : (updPlcG f b).hp = b.hp := rfl
@[simp] theorem updPlcG_hic (f : PlcCfg → PlcCfg) (b : Block) : (updPlcG f b).hic = b.hic := rfl
@[simp] theorem updPlcG_qmg (f : PlcCfg → PlcCfg) (b : Block) : (updPlcG f b).qmg = b.qmg := rfl
@[simp] theorem updPlcG_cwy (f : PlcCfg → PlcCfg) (b : Block) : (updPlcG f b).cwy = b.cwy := rfl
@[simp] theorem updPlcG_cwyX (f : PlcCfg → PlcCfg) (b : Block) : (updPlcG f b).cwyX = b.cwyX := rfl
@[simp] theorem updPlcG_pnl (f : PlcCfg → PlcCfg) (b : Block) : (updPlcG f b).pnl = b.pnl := rfl
@[simp] theorem updPlcG_frames (f : PlcCfg → PlcCfg) (b : Block) : (updPlcG f b).frames = b.frames := rfl
@[simp] theorem updPlcG_nfc (f : PlcCfg → PlcCfg) (b : Block) : (updPlcG f b).nfc = b.nfc := rfl
@[simp] theorem updPlcG_rst (f : PlcCfg → PlcCfg) (b : Block) : (updPlcG f b).rst = b.rst := rfl
@[simp] theorem updPlcG_upd (f : PlcCfg → PlcCfg) (b : Block) : (updPlcG f b).upd = b.upd := rfl
@[simp] theorem updPlcG_btn (f : PlcCfg → PlcCfg) (b : Block) : (updPlcG f b).btn = b.btn := rfl
@[simp] theorem updPlcG_dmp (f : PlcCfg → PlcCfg) (b : Block) : (updPlcG f b).dmp = b.dmp := rfl
@[simp] theorem updPlcG_rpl (f : PlcCfg → PlcCfg) (b : Block) : (updPlcG f b).rpl = b.rpl := rfl
@[simp] theorem updPlcG_dbg (f : PlcCfg → PlcCfg) (b : Block) : (updPlcG f b).dbg = b.dbg := rfl
@[simp] theorem updPlcG_settings (f : PlcCfg → PlcCfg) (b : Block) : (updPlcG f b).settings = b.settings := rfl
@[simp] theorem updPlcG_newSettings (f : PlcCfg → PlcCfg) (b : Block) : (updPlcG f b).newSettings = b.newSettings := rfl
@[simp] theorem updPlcG_legalSet (f : PlcCfg → PlcCfg) (b : Block) : (updPlcG f b).legalSet = b.legalSet := rfl
@[simp] theorem updPlcG_updRec (f : PlcCfg → PlcCfg) (b : Block) : (updPlcG f b).updRec = b.updRec := rfl
@[simp] theorem updPlcG_kept (f : PlcCfg → PlcCfg) (b : Block) : (updPlcG f b).kept = b.kept := rfl
@[simp] theorem updPlcG_prior (f : PlcCfg → PlcCfg) (b : Block) : (updPlcG f b).prior = b.prior := rfl
@[simp] theorem updPlcG_plcCfg (f : PlcCfg → PlcCfg) (b : Block) : (updPlcG f b).plcCfg = f b.plcCfg := rfl
@[simp] theorem updV2g_tide (n : Fin 16) (f : V2gSession → V2gSession) (b : Block) : (updV2g n f b).tide = b.tide := rfl
@[simp] theorem updV2g_lau (n : Fin 16) (f : V2gSession → V2gSession) (b : Block) : (updV2g n f b).lau = b.lau := rfl
@[simp] theorem updV2g_snaps (n : Fin 16) (f : V2gSession → V2gSession) (b : Block) : (updV2g n f b).snaps = b.snaps := rfl
@[simp] theorem updV2g_barrier (n : Fin 16) (f : V2gSession → V2gSession) (b : Block) : (updV2g n f b).barrier = b.barrier := rfl
@[simp] theorem updV2g_fab (n : Fin 16) (f : V2gSession → V2gSession) (b : Block) : (updV2g n f b).fab = b.fab := rfl
@[simp] theorem updV2g_d2d (n : Fin 16) (f : V2gSession → V2gSession) (b : Block) : (updV2g n f b).d2d = b.d2d := rfl
@[simp] theorem updV2g_cross (n : Fin 16) (f : V2gSession → V2gSession) (b : Block) : (updV2g n f b).cross = b.cross := rfl
@[simp] theorem updV2g_met (n : Fin 16) (f : V2gSession → V2gSession) (b : Block) : (updV2g n f b).met = b.met := rfl
@[simp] theorem updV2g_acc (n : Fin 16) (f : V2gSession → V2gSession) (b : Block) : (updV2g n f b).acc = b.acc := rfl
@[simp] theorem updV2g_pq (n : Fin 16) (f : V2gSession → V2gSession) (b : Block) : (updV2g n f b).pq = b.pq := rfl
@[simp] theorem updV2g_sess (n : Fin 16) (f : V2gSession → V2gSession) (b : Block) : (updV2g n f b).sess = b.sess := rfl
@[simp] theorem updV2g_slu (n : Fin 16) (f : V2gSession → V2gSession) (b : Block) : (updV2g n f b).slu = b.slu := rfl
@[simp] theorem updV2g_sluCnt (n : Fin 16) (f : V2gSession → V2gSession) (b : Block) : (updV2g n f b).sluCnt = b.sluCnt := rfl
@[simp] theorem updV2g_mlk (n : Fin 16) (f : V2gSession → V2gSession) (b : Block) : (updV2g n f b).mlk = b.mlk := rfl
@[simp] theorem updV2g_veh (n : Fin 16) (f : V2gSession → V2gSession) (b : Block) : (updV2g n f b).veh = b.veh := rfl
@[simp] theorem updV2g_vehCfg (n : Fin 16) (f : V2gSession → V2gSession) (b : Block) : (updV2g n f b).vehCfg = b.vehCfg := rfl
@[simp] theorem updV2g_plc (n : Fin 16) (f : V2gSession → V2gSession) (b : Block) : (updV2g n f b).plc = b.plc := rfl
@[simp] theorem updV2g_plcCfg (n : Fin 16) (f : V2gSession → V2gSession) (b : Block) : (updV2g n f b).plcCfg = b.plcCfg := rfl
@[simp] theorem updV2g_v2gCfg (n : Fin 16) (f : V2gSession → V2gSession) (b : Block) : (updV2g n f b).v2gCfg = b.v2gCfg := rfl
@[simp] theorem updV2g_imd (n : Fin 16) (f : V2gSession → V2gSession) (b : Block) : (updV2g n f b).imd = b.imd := rfl
@[simp] theorem updV2g_imdG (n : Fin 16) (f : V2gSession → V2gSession) (b : Block) : (updV2g n f b).imdG = b.imdG := rfl
@[simp] theorem updV2g_rcm (n : Fin 16) (f : V2gSession → V2gSession) (b : Block) : (updV2g n f b).rcm = b.rcm := rfl
@[simp] theorem updV2g_rcmTest (n : Fin 16) (f : V2gSession → V2gSession) (b : Block) : (updV2g n f b).rcmTest = b.rcmTest := rfl
@[simp] theorem updV2g_saf (n : Fin 16) (f : V2gSession → V2gSession) (b : Block) : (updV2g n f b).saf = b.saf := rfl
@[simp] theorem updV2g_safX (n : Fin 16) (f : V2gSession → V2gSession) (b : Block) : (updV2g n f b).safX = b.safX := rfl
@[simp] theorem updV2g_lsw (n : Fin 16) (f : V2gSession → V2gSession) (b : Block) : (updV2g n f b).lsw = b.lsw := rfl
@[simp] theorem updV2g_pea (n : Fin 16) (f : V2gSession → V2gSession) (b : Block) : (updV2g n f b).pea = b.pea := rfl
@[simp] theorem updV2g_arb (n : Fin 16) (f : V2gSession → V2gSession) (b : Block) : (updV2g n f b).arb = b.arb := rfl
@[simp] theorem updV2g_pf (n : Fin 16) (f : V2gSession → V2gSession) (b : Block) : (updV2g n f b).pf = b.pf := rfl
@[simp] theorem updV2g_slt (n : Fin 16) (f : V2gSession → V2gSession) (b : Block) : (updV2g n f b).slt = b.slt := rfl
@[simp] theorem updV2g_legal (n : Fin 16) (f : V2gSession → V2gSession) (b : Block) : (updV2g n f b).legal = b.legal := rfl
@[simp] theorem updV2g_auth (n : Fin 16) (f : V2gSession → V2gSession) (b : Block) : (updV2g n f b).auth = b.auth := rfl
@[simp] theorem updV2g_backup (n : Fin 16) (f : V2gSession → V2gSession) (b : Block) : (updV2g n f b).backup = b.backup := rfl
@[simp] theorem updV2g_bri (n : Fin 16) (f : V2gSession → V2gSession) (b : Block) : (updV2g n f b).bri = b.bri := rfl
@[simp] theorem updV2g_key (n : Fin 16) (f : V2gSession → V2gSession) (b : Block) : (updV2g n f b).key = b.key := rfl
@[simp] theorem updV2g_mbx (n : Fin 16) (f : V2gSession → V2gSession) (b : Block) : (updV2g n f b).mbx = b.mbx := rfl
@[simp] theorem updV2g_hp (n : Fin 16) (f : V2gSession → V2gSession) (b : Block) : (updV2g n f b).hp = b.hp := rfl
@[simp] theorem updV2g_hic (n : Fin 16) (f : V2gSession → V2gSession) (b : Block) : (updV2g n f b).hic = b.hic := rfl
@[simp] theorem updV2g_qmg (n : Fin 16) (f : V2gSession → V2gSession) (b : Block) : (updV2g n f b).qmg = b.qmg := rfl
@[simp] theorem updV2g_cwy (n : Fin 16) (f : V2gSession → V2gSession) (b : Block) : (updV2g n f b).cwy = b.cwy := rfl
@[simp] theorem updV2g_cwyX (n : Fin 16) (f : V2gSession → V2gSession) (b : Block) : (updV2g n f b).cwyX = b.cwyX := rfl
@[simp] theorem updV2g_pnl (n : Fin 16) (f : V2gSession → V2gSession) (b : Block) : (updV2g n f b).pnl = b.pnl := rfl
@[simp] theorem updV2g_frames (n : Fin 16) (f : V2gSession → V2gSession) (b : Block) : (updV2g n f b).frames = b.frames := rfl
@[simp] theorem updV2g_nfc (n : Fin 16) (f : V2gSession → V2gSession) (b : Block) : (updV2g n f b).nfc = b.nfc := rfl
@[simp] theorem updV2g_rst (n : Fin 16) (f : V2gSession → V2gSession) (b : Block) : (updV2g n f b).rst = b.rst := rfl
@[simp] theorem updV2g_upd (n : Fin 16) (f : V2gSession → V2gSession) (b : Block) : (updV2g n f b).upd = b.upd := rfl
@[simp] theorem updV2g_btn (n : Fin 16) (f : V2gSession → V2gSession) (b : Block) : (updV2g n f b).btn = b.btn := rfl
@[simp] theorem updV2g_dmp (n : Fin 16) (f : V2gSession → V2gSession) (b : Block) : (updV2g n f b).dmp = b.dmp := rfl
@[simp] theorem updV2g_rpl (n : Fin 16) (f : V2gSession → V2gSession) (b : Block) : (updV2g n f b).rpl = b.rpl := rfl
@[simp] theorem updV2g_dbg (n : Fin 16) (f : V2gSession → V2gSession) (b : Block) : (updV2g n f b).dbg = b.dbg := rfl
@[simp] theorem updV2g_settings (n : Fin 16) (f : V2gSession → V2gSession) (b : Block) : (updV2g n f b).settings = b.settings := rfl
@[simp] theorem updV2g_newSettings (n : Fin 16) (f : V2gSession → V2gSession) (b : Block) : (updV2g n f b).newSettings = b.newSettings := rfl
@[simp] theorem updV2g_legalSet (n : Fin 16) (f : V2gSession → V2gSession) (b : Block) : (updV2g n f b).legalSet = b.legalSet := rfl
@[simp] theorem updV2g_updRec (n : Fin 16) (f : V2gSession → V2gSession) (b : Block) : (updV2g n f b).updRec = b.updRec := rfl
@[simp] theorem updV2g_kept (n : Fin 16) (f : V2gSession → V2gSession) (b : Block) : (updV2g n f b).kept = b.kept := rfl
@[simp] theorem updV2g_prior (n : Fin 16) (f : V2gSession → V2gSession) (b : Block) : (updV2g n f b).prior = b.prior := rfl
@[simp] theorem updV2g_v2g (n : Fin 16) (f : V2gSession → V2gSession) (b : Block) : (updV2g n f b).v2g = vupd b.v2g n f := rfl
@[simp] theorem updAuth_tide (n : Fin 16) (f : AuthHold → AuthHold) (b : Block) : (updAuth n f b).tide = b.tide := rfl
@[simp] theorem updAuth_lau (n : Fin 16) (f : AuthHold → AuthHold) (b : Block) : (updAuth n f b).lau = b.lau := rfl
@[simp] theorem updAuth_snaps (n : Fin 16) (f : AuthHold → AuthHold) (b : Block) : (updAuth n f b).snaps = b.snaps := rfl
@[simp] theorem updAuth_barrier (n : Fin 16) (f : AuthHold → AuthHold) (b : Block) : (updAuth n f b).barrier = b.barrier := rfl
@[simp] theorem updAuth_fab (n : Fin 16) (f : AuthHold → AuthHold) (b : Block) : (updAuth n f b).fab = b.fab := rfl
@[simp] theorem updAuth_d2d (n : Fin 16) (f : AuthHold → AuthHold) (b : Block) : (updAuth n f b).d2d = b.d2d := rfl
@[simp] theorem updAuth_cross (n : Fin 16) (f : AuthHold → AuthHold) (b : Block) : (updAuth n f b).cross = b.cross := rfl
@[simp] theorem updAuth_met (n : Fin 16) (f : AuthHold → AuthHold) (b : Block) : (updAuth n f b).met = b.met := rfl
@[simp] theorem updAuth_acc (n : Fin 16) (f : AuthHold → AuthHold) (b : Block) : (updAuth n f b).acc = b.acc := rfl
@[simp] theorem updAuth_pq (n : Fin 16) (f : AuthHold → AuthHold) (b : Block) : (updAuth n f b).pq = b.pq := rfl
@[simp] theorem updAuth_sess (n : Fin 16) (f : AuthHold → AuthHold) (b : Block) : (updAuth n f b).sess = b.sess := rfl
@[simp] theorem updAuth_slu (n : Fin 16) (f : AuthHold → AuthHold) (b : Block) : (updAuth n f b).slu = b.slu := rfl
@[simp] theorem updAuth_sluCnt (n : Fin 16) (f : AuthHold → AuthHold) (b : Block) : (updAuth n f b).sluCnt = b.sluCnt := rfl
@[simp] theorem updAuth_mlk (n : Fin 16) (f : AuthHold → AuthHold) (b : Block) : (updAuth n f b).mlk = b.mlk := rfl
@[simp] theorem updAuth_veh (n : Fin 16) (f : AuthHold → AuthHold) (b : Block) : (updAuth n f b).veh = b.veh := rfl
@[simp] theorem updAuth_vehCfg (n : Fin 16) (f : AuthHold → AuthHold) (b : Block) : (updAuth n f b).vehCfg = b.vehCfg := rfl
@[simp] theorem updAuth_plc (n : Fin 16) (f : AuthHold → AuthHold) (b : Block) : (updAuth n f b).plc = b.plc := rfl
@[simp] theorem updAuth_plcCfg (n : Fin 16) (f : AuthHold → AuthHold) (b : Block) : (updAuth n f b).plcCfg = b.plcCfg := rfl
@[simp] theorem updAuth_v2g (n : Fin 16) (f : AuthHold → AuthHold) (b : Block) : (updAuth n f b).v2g = b.v2g := rfl
@[simp] theorem updAuth_v2gCfg (n : Fin 16) (f : AuthHold → AuthHold) (b : Block) : (updAuth n f b).v2gCfg = b.v2gCfg := rfl
@[simp] theorem updAuth_imd (n : Fin 16) (f : AuthHold → AuthHold) (b : Block) : (updAuth n f b).imd = b.imd := rfl
@[simp] theorem updAuth_imdG (n : Fin 16) (f : AuthHold → AuthHold) (b : Block) : (updAuth n f b).imdG = b.imdG := rfl
@[simp] theorem updAuth_rcm (n : Fin 16) (f : AuthHold → AuthHold) (b : Block) : (updAuth n f b).rcm = b.rcm := rfl
@[simp] theorem updAuth_rcmTest (n : Fin 16) (f : AuthHold → AuthHold) (b : Block) : (updAuth n f b).rcmTest = b.rcmTest := rfl
@[simp] theorem updAuth_saf (n : Fin 16) (f : AuthHold → AuthHold) (b : Block) : (updAuth n f b).saf = b.saf := rfl
@[simp] theorem updAuth_safX (n : Fin 16) (f : AuthHold → AuthHold) (b : Block) : (updAuth n f b).safX = b.safX := rfl
@[simp] theorem updAuth_lsw (n : Fin 16) (f : AuthHold → AuthHold) (b : Block) : (updAuth n f b).lsw = b.lsw := rfl
@[simp] theorem updAuth_pea (n : Fin 16) (f : AuthHold → AuthHold) (b : Block) : (updAuth n f b).pea = b.pea := rfl
@[simp] theorem updAuth_arb (n : Fin 16) (f : AuthHold → AuthHold) (b : Block) : (updAuth n f b).arb = b.arb := rfl
@[simp] theorem updAuth_pf (n : Fin 16) (f : AuthHold → AuthHold) (b : Block) : (updAuth n f b).pf = b.pf := rfl
@[simp] theorem updAuth_slt (n : Fin 16) (f : AuthHold → AuthHold) (b : Block) : (updAuth n f b).slt = b.slt := rfl
@[simp] theorem updAuth_legal (n : Fin 16) (f : AuthHold → AuthHold) (b : Block) : (updAuth n f b).legal = b.legal := rfl
@[simp] theorem updAuth_backup (n : Fin 16) (f : AuthHold → AuthHold) (b : Block) : (updAuth n f b).backup = b.backup := rfl
@[simp] theorem updAuth_bri (n : Fin 16) (f : AuthHold → AuthHold) (b : Block) : (updAuth n f b).bri = b.bri := rfl
@[simp] theorem updAuth_key (n : Fin 16) (f : AuthHold → AuthHold) (b : Block) : (updAuth n f b).key = b.key := rfl
@[simp] theorem updAuth_mbx (n : Fin 16) (f : AuthHold → AuthHold) (b : Block) : (updAuth n f b).mbx = b.mbx := rfl
@[simp] theorem updAuth_hp (n : Fin 16) (f : AuthHold → AuthHold) (b : Block) : (updAuth n f b).hp = b.hp := rfl
@[simp] theorem updAuth_hic (n : Fin 16) (f : AuthHold → AuthHold) (b : Block) : (updAuth n f b).hic = b.hic := rfl
@[simp] theorem updAuth_qmg (n : Fin 16) (f : AuthHold → AuthHold) (b : Block) : (updAuth n f b).qmg = b.qmg := rfl
@[simp] theorem updAuth_cwy (n : Fin 16) (f : AuthHold → AuthHold) (b : Block) : (updAuth n f b).cwy = b.cwy := rfl
@[simp] theorem updAuth_cwyX (n : Fin 16) (f : AuthHold → AuthHold) (b : Block) : (updAuth n f b).cwyX = b.cwyX := rfl
@[simp] theorem updAuth_pnl (n : Fin 16) (f : AuthHold → AuthHold) (b : Block) : (updAuth n f b).pnl = b.pnl := rfl
@[simp] theorem updAuth_frames (n : Fin 16) (f : AuthHold → AuthHold) (b : Block) : (updAuth n f b).frames = b.frames := rfl
@[simp] theorem updAuth_nfc (n : Fin 16) (f : AuthHold → AuthHold) (b : Block) : (updAuth n f b).nfc = b.nfc := rfl
@[simp] theorem updAuth_rst (n : Fin 16) (f : AuthHold → AuthHold) (b : Block) : (updAuth n f b).rst = b.rst := rfl
@[simp] theorem updAuth_upd (n : Fin 16) (f : AuthHold → AuthHold) (b : Block) : (updAuth n f b).upd = b.upd := rfl
@[simp] theorem updAuth_btn (n : Fin 16) (f : AuthHold → AuthHold) (b : Block) : (updAuth n f b).btn = b.btn := rfl
@[simp] theorem updAuth_dmp (n : Fin 16) (f : AuthHold → AuthHold) (b : Block) : (updAuth n f b).dmp = b.dmp := rfl
@[simp] theorem updAuth_rpl (n : Fin 16) (f : AuthHold → AuthHold) (b : Block) : (updAuth n f b).rpl = b.rpl := rfl
@[simp] theorem updAuth_dbg (n : Fin 16) (f : AuthHold → AuthHold) (b : Block) : (updAuth n f b).dbg = b.dbg := rfl
@[simp] theorem updAuth_settings (n : Fin 16) (f : AuthHold → AuthHold) (b : Block) : (updAuth n f b).settings = b.settings := rfl
@[simp] theorem updAuth_newSettings (n : Fin 16) (f : AuthHold → AuthHold) (b : Block) : (updAuth n f b).newSettings = b.newSettings := rfl
@[simp] theorem updAuth_legalSet (n : Fin 16) (f : AuthHold → AuthHold) (b : Block) : (updAuth n f b).legalSet = b.legalSet := rfl
@[simp] theorem updAuth_updRec (n : Fin 16) (f : AuthHold → AuthHold) (b : Block) : (updAuth n f b).updRec = b.updRec := rfl
@[simp] theorem updAuth_kept (n : Fin 16) (f : AuthHold → AuthHold) (b : Block) : (updAuth n f b).kept = b.kept := rfl
@[simp] theorem updAuth_prior (n : Fin 16) (f : AuthHold → AuthHold) (b : Block) : (updAuth n f b).prior = b.prior := rfl
@[simp] theorem updAuth_auth (n : Fin 16) (f : AuthHold → AuthHold) (b : Block) : (updAuth n f b).auth = vupd b.auth n f := rfl
@[simp] theorem updBri_tide (f : Brine → Brine) (b : Block) : (updBri f b).tide = b.tide := rfl
@[simp] theorem updBri_lau (f : Brine → Brine) (b : Block) : (updBri f b).lau = b.lau := rfl
@[simp] theorem updBri_snaps (f : Brine → Brine) (b : Block) : (updBri f b).snaps = b.snaps := rfl
@[simp] theorem updBri_barrier (f : Brine → Brine) (b : Block) : (updBri f b).barrier = b.barrier := rfl
@[simp] theorem updBri_fab (f : Brine → Brine) (b : Block) : (updBri f b).fab = b.fab := rfl
@[simp] theorem updBri_d2d (f : Brine → Brine) (b : Block) : (updBri f b).d2d = b.d2d := rfl
@[simp] theorem updBri_cross (f : Brine → Brine) (b : Block) : (updBri f b).cross = b.cross := rfl
@[simp] theorem updBri_met (f : Brine → Brine) (b : Block) : (updBri f b).met = b.met := rfl
@[simp] theorem updBri_acc (f : Brine → Brine) (b : Block) : (updBri f b).acc = b.acc := rfl
@[simp] theorem updBri_pq (f : Brine → Brine) (b : Block) : (updBri f b).pq = b.pq := rfl
@[simp] theorem updBri_sess (f : Brine → Brine) (b : Block) : (updBri f b).sess = b.sess := rfl
@[simp] theorem updBri_slu (f : Brine → Brine) (b : Block) : (updBri f b).slu = b.slu := rfl
@[simp] theorem updBri_sluCnt (f : Brine → Brine) (b : Block) : (updBri f b).sluCnt = b.sluCnt := rfl
@[simp] theorem updBri_mlk (f : Brine → Brine) (b : Block) : (updBri f b).mlk = b.mlk := rfl
@[simp] theorem updBri_veh (f : Brine → Brine) (b : Block) : (updBri f b).veh = b.veh := rfl
@[simp] theorem updBri_vehCfg (f : Brine → Brine) (b : Block) : (updBri f b).vehCfg = b.vehCfg := rfl
@[simp] theorem updBri_plc (f : Brine → Brine) (b : Block) : (updBri f b).plc = b.plc := rfl
@[simp] theorem updBri_plcCfg (f : Brine → Brine) (b : Block) : (updBri f b).plcCfg = b.plcCfg := rfl
@[simp] theorem updBri_v2g (f : Brine → Brine) (b : Block) : (updBri f b).v2g = b.v2g := rfl
@[simp] theorem updBri_v2gCfg (f : Brine → Brine) (b : Block) : (updBri f b).v2gCfg = b.v2gCfg := rfl
@[simp] theorem updBri_imd (f : Brine → Brine) (b : Block) : (updBri f b).imd = b.imd := rfl
@[simp] theorem updBri_imdG (f : Brine → Brine) (b : Block) : (updBri f b).imdG = b.imdG := rfl
@[simp] theorem updBri_rcm (f : Brine → Brine) (b : Block) : (updBri f b).rcm = b.rcm := rfl
@[simp] theorem updBri_rcmTest (f : Brine → Brine) (b : Block) : (updBri f b).rcmTest = b.rcmTest := rfl
@[simp] theorem updBri_saf (f : Brine → Brine) (b : Block) : (updBri f b).saf = b.saf := rfl
@[simp] theorem updBri_safX (f : Brine → Brine) (b : Block) : (updBri f b).safX = b.safX := rfl
@[simp] theorem updBri_lsw (f : Brine → Brine) (b : Block) : (updBri f b).lsw = b.lsw := rfl
@[simp] theorem updBri_pea (f : Brine → Brine) (b : Block) : (updBri f b).pea = b.pea := rfl
@[simp] theorem updBri_arb (f : Brine → Brine) (b : Block) : (updBri f b).arb = b.arb := rfl
@[simp] theorem updBri_pf (f : Brine → Brine) (b : Block) : (updBri f b).pf = b.pf := rfl
@[simp] theorem updBri_slt (f : Brine → Brine) (b : Block) : (updBri f b).slt = b.slt := rfl
@[simp] theorem updBri_legal (f : Brine → Brine) (b : Block) : (updBri f b).legal = b.legal := rfl
@[simp] theorem updBri_auth (f : Brine → Brine) (b : Block) : (updBri f b).auth = b.auth := rfl
@[simp] theorem updBri_backup (f : Brine → Brine) (b : Block) : (updBri f b).backup = b.backup := rfl
@[simp] theorem updBri_key (f : Brine → Brine) (b : Block) : (updBri f b).key = b.key := rfl
@[simp] theorem updBri_mbx (f : Brine → Brine) (b : Block) : (updBri f b).mbx = b.mbx := rfl
@[simp] theorem updBri_hp (f : Brine → Brine) (b : Block) : (updBri f b).hp = b.hp := rfl
@[simp] theorem updBri_hic (f : Brine → Brine) (b : Block) : (updBri f b).hic = b.hic := rfl
@[simp] theorem updBri_qmg (f : Brine → Brine) (b : Block) : (updBri f b).qmg = b.qmg := rfl
@[simp] theorem updBri_cwy (f : Brine → Brine) (b : Block) : (updBri f b).cwy = b.cwy := rfl
@[simp] theorem updBri_cwyX (f : Brine → Brine) (b : Block) : (updBri f b).cwyX = b.cwyX := rfl
@[simp] theorem updBri_pnl (f : Brine → Brine) (b : Block) : (updBri f b).pnl = b.pnl := rfl
@[simp] theorem updBri_frames (f : Brine → Brine) (b : Block) : (updBri f b).frames = b.frames := rfl
@[simp] theorem updBri_nfc (f : Brine → Brine) (b : Block) : (updBri f b).nfc = b.nfc := rfl
@[simp] theorem updBri_rst (f : Brine → Brine) (b : Block) : (updBri f b).rst = b.rst := rfl
@[simp] theorem updBri_upd (f : Brine → Brine) (b : Block) : (updBri f b).upd = b.upd := rfl
@[simp] theorem updBri_btn (f : Brine → Brine) (b : Block) : (updBri f b).btn = b.btn := rfl
@[simp] theorem updBri_dmp (f : Brine → Brine) (b : Block) : (updBri f b).dmp = b.dmp := rfl
@[simp] theorem updBri_rpl (f : Brine → Brine) (b : Block) : (updBri f b).rpl = b.rpl := rfl
@[simp] theorem updBri_dbg (f : Brine → Brine) (b : Block) : (updBri f b).dbg = b.dbg := rfl
@[simp] theorem updBri_settings (f : Brine → Brine) (b : Block) : (updBri f b).settings = b.settings := rfl
@[simp] theorem updBri_newSettings (f : Brine → Brine) (b : Block) : (updBri f b).newSettings = b.newSettings := rfl
@[simp] theorem updBri_legalSet (f : Brine → Brine) (b : Block) : (updBri f b).legalSet = b.legalSet := rfl
@[simp] theorem updBri_updRec (f : Brine → Brine) (b : Block) : (updBri f b).updRec = b.updRec := rfl
@[simp] theorem updBri_kept (f : Brine → Brine) (b : Block) : (updBri f b).kept = b.kept := rfl
@[simp] theorem updBri_prior (f : Brine → Brine) (b : Block) : (updBri f b).prior = b.prior := rfl
@[simp] theorem updBri_bri (f : Brine → Brine) (b : Block) : (updBri f b).bri = f b.bri := rfl
@[simp] theorem updBackup_tide (f : Backup → Backup) (b : Block) : (updBackup f b).tide = b.tide := rfl
@[simp] theorem updBackup_lau (f : Backup → Backup) (b : Block) : (updBackup f b).lau = b.lau := rfl
@[simp] theorem updBackup_snaps (f : Backup → Backup) (b : Block) : (updBackup f b).snaps = b.snaps := rfl
@[simp] theorem updBackup_barrier (f : Backup → Backup) (b : Block) : (updBackup f b).barrier = b.barrier := rfl
@[simp] theorem updBackup_fab (f : Backup → Backup) (b : Block) : (updBackup f b).fab = b.fab := rfl
@[simp] theorem updBackup_d2d (f : Backup → Backup) (b : Block) : (updBackup f b).d2d = b.d2d := rfl
@[simp] theorem updBackup_cross (f : Backup → Backup) (b : Block) : (updBackup f b).cross = b.cross := rfl
@[simp] theorem updBackup_met (f : Backup → Backup) (b : Block) : (updBackup f b).met = b.met := rfl
@[simp] theorem updBackup_acc (f : Backup → Backup) (b : Block) : (updBackup f b).acc = b.acc := rfl
@[simp] theorem updBackup_pq (f : Backup → Backup) (b : Block) : (updBackup f b).pq = b.pq := rfl
@[simp] theorem updBackup_sess (f : Backup → Backup) (b : Block) : (updBackup f b).sess = b.sess := rfl
@[simp] theorem updBackup_slu (f : Backup → Backup) (b : Block) : (updBackup f b).slu = b.slu := rfl
@[simp] theorem updBackup_sluCnt (f : Backup → Backup) (b : Block) : (updBackup f b).sluCnt = b.sluCnt := rfl
@[simp] theorem updBackup_mlk (f : Backup → Backup) (b : Block) : (updBackup f b).mlk = b.mlk := rfl
@[simp] theorem updBackup_veh (f : Backup → Backup) (b : Block) : (updBackup f b).veh = b.veh := rfl
@[simp] theorem updBackup_vehCfg (f : Backup → Backup) (b : Block) : (updBackup f b).vehCfg = b.vehCfg := rfl
@[simp] theorem updBackup_plc (f : Backup → Backup) (b : Block) : (updBackup f b).plc = b.plc := rfl
@[simp] theorem updBackup_plcCfg (f : Backup → Backup) (b : Block) : (updBackup f b).plcCfg = b.plcCfg := rfl
@[simp] theorem updBackup_v2g (f : Backup → Backup) (b : Block) : (updBackup f b).v2g = b.v2g := rfl
@[simp] theorem updBackup_v2gCfg (f : Backup → Backup) (b : Block) : (updBackup f b).v2gCfg = b.v2gCfg := rfl
@[simp] theorem updBackup_imd (f : Backup → Backup) (b : Block) : (updBackup f b).imd = b.imd := rfl
@[simp] theorem updBackup_imdG (f : Backup → Backup) (b : Block) : (updBackup f b).imdG = b.imdG := rfl
@[simp] theorem updBackup_rcm (f : Backup → Backup) (b : Block) : (updBackup f b).rcm = b.rcm := rfl
@[simp] theorem updBackup_rcmTest (f : Backup → Backup) (b : Block) : (updBackup f b).rcmTest = b.rcmTest := rfl
@[simp] theorem updBackup_saf (f : Backup → Backup) (b : Block) : (updBackup f b).saf = b.saf := rfl
@[simp] theorem updBackup_safX (f : Backup → Backup) (b : Block) : (updBackup f b).safX = b.safX := rfl
@[simp] theorem updBackup_lsw (f : Backup → Backup) (b : Block) : (updBackup f b).lsw = b.lsw := rfl
@[simp] theorem updBackup_pea (f : Backup → Backup) (b : Block) : (updBackup f b).pea = b.pea := rfl
@[simp] theorem updBackup_arb (f : Backup → Backup) (b : Block) : (updBackup f b).arb = b.arb := rfl
@[simp] theorem updBackup_pf (f : Backup → Backup) (b : Block) : (updBackup f b).pf = b.pf := rfl
@[simp] theorem updBackup_slt (f : Backup → Backup) (b : Block) : (updBackup f b).slt = b.slt := rfl
@[simp] theorem updBackup_legal (f : Backup → Backup) (b : Block) : (updBackup f b).legal = b.legal := rfl
@[simp] theorem updBackup_auth (f : Backup → Backup) (b : Block) : (updBackup f b).auth = b.auth := rfl
@[simp] theorem updBackup_bri (f : Backup → Backup) (b : Block) : (updBackup f b).bri = b.bri := rfl
@[simp] theorem updBackup_key (f : Backup → Backup) (b : Block) : (updBackup f b).key = b.key := rfl
@[simp] theorem updBackup_mbx (f : Backup → Backup) (b : Block) : (updBackup f b).mbx = b.mbx := rfl
@[simp] theorem updBackup_hp (f : Backup → Backup) (b : Block) : (updBackup f b).hp = b.hp := rfl
@[simp] theorem updBackup_hic (f : Backup → Backup) (b : Block) : (updBackup f b).hic = b.hic := rfl
@[simp] theorem updBackup_qmg (f : Backup → Backup) (b : Block) : (updBackup f b).qmg = b.qmg := rfl
@[simp] theorem updBackup_cwy (f : Backup → Backup) (b : Block) : (updBackup f b).cwy = b.cwy := rfl
@[simp] theorem updBackup_cwyX (f : Backup → Backup) (b : Block) : (updBackup f b).cwyX = b.cwyX := rfl
@[simp] theorem updBackup_pnl (f : Backup → Backup) (b : Block) : (updBackup f b).pnl = b.pnl := rfl
@[simp] theorem updBackup_frames (f : Backup → Backup) (b : Block) : (updBackup f b).frames = b.frames := rfl
@[simp] theorem updBackup_nfc (f : Backup → Backup) (b : Block) : (updBackup f b).nfc = b.nfc := rfl
@[simp] theorem updBackup_rst (f : Backup → Backup) (b : Block) : (updBackup f b).rst = b.rst := rfl
@[simp] theorem updBackup_upd (f : Backup → Backup) (b : Block) : (updBackup f b).upd = b.upd := rfl
@[simp] theorem updBackup_btn (f : Backup → Backup) (b : Block) : (updBackup f b).btn = b.btn := rfl
@[simp] theorem updBackup_dmp (f : Backup → Backup) (b : Block) : (updBackup f b).dmp = b.dmp := rfl
@[simp] theorem updBackup_rpl (f : Backup → Backup) (b : Block) : (updBackup f b).rpl = b.rpl := rfl
@[simp] theorem updBackup_dbg (f : Backup → Backup) (b : Block) : (updBackup f b).dbg = b.dbg := rfl
@[simp] theorem updBackup_settings (f : Backup → Backup) (b : Block) : (updBackup f b).settings = b.settings := rfl
@[simp] theorem updBackup_newSettings (f : Backup → Backup) (b : Block) : (updBackup f b).newSettings = b.newSettings := rfl
@[simp] theorem updBackup_legalSet (f : Backup → Backup) (b : Block) : (updBackup f b).legalSet = b.legalSet := rfl
@[simp] theorem updBackup_updRec (f : Backup → Backup) (b : Block) : (updBackup f b).updRec = b.updRec := rfl
@[simp] theorem updBackup_kept (f : Backup → Backup) (b : Block) : (updBackup f b).kept = b.kept := rfl
@[simp] theorem updBackup_prior (f : Backup → Backup) (b : Block) : (updBackup f b).prior = b.prior := rfl
@[simp] theorem updBackup_backup (f : Backup → Backup) (b : Block) : (updBackup f b).backup = f b.backup := rfl
@[simp] theorem updCross_tide (k : CrossId) (f : Crossing → Crossing) (b : Block) : (updCross k f b).tide = b.tide := rfl
@[simp] theorem updCross_lau (k : CrossId) (f : Crossing → Crossing) (b : Block) : (updCross k f b).lau = b.lau := rfl
@[simp] theorem updCross_snaps (k : CrossId) (f : Crossing → Crossing) (b : Block) : (updCross k f b).snaps = b.snaps := rfl
@[simp] theorem updCross_barrier (k : CrossId) (f : Crossing → Crossing) (b : Block) : (updCross k f b).barrier = b.barrier := rfl
@[simp] theorem updCross_fab (k : CrossId) (f : Crossing → Crossing) (b : Block) : (updCross k f b).fab = b.fab := rfl
@[simp] theorem updCross_d2d (k : CrossId) (f : Crossing → Crossing) (b : Block) : (updCross k f b).d2d = b.d2d := rfl
@[simp] theorem updCross_met (k : CrossId) (f : Crossing → Crossing) (b : Block) : (updCross k f b).met = b.met := rfl
@[simp] theorem updCross_acc (k : CrossId) (f : Crossing → Crossing) (b : Block) : (updCross k f b).acc = b.acc := rfl
@[simp] theorem updCross_pq (k : CrossId) (f : Crossing → Crossing) (b : Block) : (updCross k f b).pq = b.pq := rfl
@[simp] theorem updCross_sess (k : CrossId) (f : Crossing → Crossing) (b : Block) : (updCross k f b).sess = b.sess := rfl
@[simp] theorem updCross_slu (k : CrossId) (f : Crossing → Crossing) (b : Block) : (updCross k f b).slu = b.slu := rfl
@[simp] theorem updCross_sluCnt (k : CrossId) (f : Crossing → Crossing) (b : Block) : (updCross k f b).sluCnt = b.sluCnt := rfl
@[simp] theorem updCross_mlk (k : CrossId) (f : Crossing → Crossing) (b : Block) : (updCross k f b).mlk = b.mlk := rfl
@[simp] theorem updCross_veh (k : CrossId) (f : Crossing → Crossing) (b : Block) : (updCross k f b).veh = b.veh := rfl
@[simp] theorem updCross_vehCfg (k : CrossId) (f : Crossing → Crossing) (b : Block) : (updCross k f b).vehCfg = b.vehCfg := rfl
@[simp] theorem updCross_plc (k : CrossId) (f : Crossing → Crossing) (b : Block) : (updCross k f b).plc = b.plc := rfl
@[simp] theorem updCross_plcCfg (k : CrossId) (f : Crossing → Crossing) (b : Block) : (updCross k f b).plcCfg = b.plcCfg := rfl
@[simp] theorem updCross_v2g (k : CrossId) (f : Crossing → Crossing) (b : Block) : (updCross k f b).v2g = b.v2g := rfl
@[simp] theorem updCross_v2gCfg (k : CrossId) (f : Crossing → Crossing) (b : Block) : (updCross k f b).v2gCfg = b.v2gCfg := rfl
@[simp] theorem updCross_imd (k : CrossId) (f : Crossing → Crossing) (b : Block) : (updCross k f b).imd = b.imd := rfl
@[simp] theorem updCross_imdG (k : CrossId) (f : Crossing → Crossing) (b : Block) : (updCross k f b).imdG = b.imdG := rfl
@[simp] theorem updCross_rcm (k : CrossId) (f : Crossing → Crossing) (b : Block) : (updCross k f b).rcm = b.rcm := rfl
@[simp] theorem updCross_rcmTest (k : CrossId) (f : Crossing → Crossing) (b : Block) : (updCross k f b).rcmTest = b.rcmTest := rfl
@[simp] theorem updCross_saf (k : CrossId) (f : Crossing → Crossing) (b : Block) : (updCross k f b).saf = b.saf := rfl
@[simp] theorem updCross_safX (k : CrossId) (f : Crossing → Crossing) (b : Block) : (updCross k f b).safX = b.safX := rfl
@[simp] theorem updCross_lsw (k : CrossId) (f : Crossing → Crossing) (b : Block) : (updCross k f b).lsw = b.lsw := rfl
@[simp] theorem updCross_pea (k : CrossId) (f : Crossing → Crossing) (b : Block) : (updCross k f b).pea = b.pea := rfl
@[simp] theorem updCross_arb (k : CrossId) (f : Crossing → Crossing) (b : Block) : (updCross k f b).arb = b.arb := rfl
@[simp] theorem updCross_pf (k : CrossId) (f : Crossing → Crossing) (b : Block) : (updCross k f b).pf = b.pf := rfl
@[simp] theorem updCross_slt (k : CrossId) (f : Crossing → Crossing) (b : Block) : (updCross k f b).slt = b.slt := rfl
@[simp] theorem updCross_legal (k : CrossId) (f : Crossing → Crossing) (b : Block) : (updCross k f b).legal = b.legal := rfl
@[simp] theorem updCross_auth (k : CrossId) (f : Crossing → Crossing) (b : Block) : (updCross k f b).auth = b.auth := rfl
@[simp] theorem updCross_backup (k : CrossId) (f : Crossing → Crossing) (b : Block) : (updCross k f b).backup = b.backup := rfl
@[simp] theorem updCross_bri (k : CrossId) (f : Crossing → Crossing) (b : Block) : (updCross k f b).bri = b.bri := rfl
@[simp] theorem updCross_key (k : CrossId) (f : Crossing → Crossing) (b : Block) : (updCross k f b).key = b.key := rfl
@[simp] theorem updCross_mbx (k : CrossId) (f : Crossing → Crossing) (b : Block) : (updCross k f b).mbx = b.mbx := rfl
@[simp] theorem updCross_hp (k : CrossId) (f : Crossing → Crossing) (b : Block) : (updCross k f b).hp = b.hp := rfl
@[simp] theorem updCross_hic (k : CrossId) (f : Crossing → Crossing) (b : Block) : (updCross k f b).hic = b.hic := rfl
@[simp] theorem updCross_qmg (k : CrossId) (f : Crossing → Crossing) (b : Block) : (updCross k f b).qmg = b.qmg := rfl
@[simp] theorem updCross_cwy (k : CrossId) (f : Crossing → Crossing) (b : Block) : (updCross k f b).cwy = b.cwy := rfl
@[simp] theorem updCross_cwyX (k : CrossId) (f : Crossing → Crossing) (b : Block) : (updCross k f b).cwyX = b.cwyX := rfl
@[simp] theorem updCross_pnl (k : CrossId) (f : Crossing → Crossing) (b : Block) : (updCross k f b).pnl = b.pnl := rfl
@[simp] theorem updCross_frames (k : CrossId) (f : Crossing → Crossing) (b : Block) : (updCross k f b).frames = b.frames := rfl
@[simp] theorem updCross_nfc (k : CrossId) (f : Crossing → Crossing) (b : Block) : (updCross k f b).nfc = b.nfc := rfl
@[simp] theorem updCross_rst (k : CrossId) (f : Crossing → Crossing) (b : Block) : (updCross k f b).rst = b.rst := rfl
@[simp] theorem updCross_upd (k : CrossId) (f : Crossing → Crossing) (b : Block) : (updCross k f b).upd = b.upd := rfl
@[simp] theorem updCross_btn (k : CrossId) (f : Crossing → Crossing) (b : Block) : (updCross k f b).btn = b.btn := rfl
@[simp] theorem updCross_dmp (k : CrossId) (f : Crossing → Crossing) (b : Block) : (updCross k f b).dmp = b.dmp := rfl
@[simp] theorem updCross_rpl (k : CrossId) (f : Crossing → Crossing) (b : Block) : (updCross k f b).rpl = b.rpl := rfl
@[simp] theorem updCross_dbg (k : CrossId) (f : Crossing → Crossing) (b : Block) : (updCross k f b).dbg = b.dbg := rfl
@[simp] theorem updCross_settings (k : CrossId) (f : Crossing → Crossing) (b : Block) : (updCross k f b).settings = b.settings := rfl
@[simp] theorem updCross_newSettings (k : CrossId) (f : Crossing → Crossing) (b : Block) : (updCross k f b).newSettings = b.newSettings := rfl
@[simp] theorem updCross_legalSet (k : CrossId) (f : Crossing → Crossing) (b : Block) : (updCross k f b).legalSet = b.legalSet := rfl
@[simp] theorem updCross_updRec (k : CrossId) (f : Crossing → Crossing) (b : Block) : (updCross k f b).updRec = b.updRec := rfl
@[simp] theorem updCross_kept (k : CrossId) (f : Crossing → Crossing) (b : Block) : (updCross k f b).kept = b.kept := rfl
@[simp] theorem updCross_prior (k : CrossId) (f : Crossing → Crossing) (b : Block) : (updCross k f b).prior = b.prior := rfl
@[simp] theorem updCross_cross (k : CrossId) (f : Crossing → Crossing) (b : Block) : (updCross k f b).cross = vupd b.cross k.row f := rfl
@[simp] theorem updDbg_tide (f : Debug → Debug) (b : Block) : (updDbg f b).tide = b.tide := rfl
@[simp] theorem updDbg_lau (f : Debug → Debug) (b : Block) : (updDbg f b).lau = b.lau := rfl
@[simp] theorem updDbg_snaps (f : Debug → Debug) (b : Block) : (updDbg f b).snaps = b.snaps := rfl
@[simp] theorem updDbg_barrier (f : Debug → Debug) (b : Block) : (updDbg f b).barrier = b.barrier := rfl
@[simp] theorem updDbg_fab (f : Debug → Debug) (b : Block) : (updDbg f b).fab = b.fab := rfl
@[simp] theorem updDbg_d2d (f : Debug → Debug) (b : Block) : (updDbg f b).d2d = b.d2d := rfl
@[simp] theorem updDbg_cross (f : Debug → Debug) (b : Block) : (updDbg f b).cross = b.cross := rfl
@[simp] theorem updDbg_met (f : Debug → Debug) (b : Block) : (updDbg f b).met = b.met := rfl
@[simp] theorem updDbg_acc (f : Debug → Debug) (b : Block) : (updDbg f b).acc = b.acc := rfl
@[simp] theorem updDbg_pq (f : Debug → Debug) (b : Block) : (updDbg f b).pq = b.pq := rfl
@[simp] theorem updDbg_sess (f : Debug → Debug) (b : Block) : (updDbg f b).sess = b.sess := rfl
@[simp] theorem updDbg_slu (f : Debug → Debug) (b : Block) : (updDbg f b).slu = b.slu := rfl
@[simp] theorem updDbg_sluCnt (f : Debug → Debug) (b : Block) : (updDbg f b).sluCnt = b.sluCnt := rfl
@[simp] theorem updDbg_mlk (f : Debug → Debug) (b : Block) : (updDbg f b).mlk = b.mlk := rfl
@[simp] theorem updDbg_veh (f : Debug → Debug) (b : Block) : (updDbg f b).veh = b.veh := rfl
@[simp] theorem updDbg_vehCfg (f : Debug → Debug) (b : Block) : (updDbg f b).vehCfg = b.vehCfg := rfl
@[simp] theorem updDbg_plc (f : Debug → Debug) (b : Block) : (updDbg f b).plc = b.plc := rfl
@[simp] theorem updDbg_plcCfg (f : Debug → Debug) (b : Block) : (updDbg f b).plcCfg = b.plcCfg := rfl
@[simp] theorem updDbg_v2g (f : Debug → Debug) (b : Block) : (updDbg f b).v2g = b.v2g := rfl
@[simp] theorem updDbg_v2gCfg (f : Debug → Debug) (b : Block) : (updDbg f b).v2gCfg = b.v2gCfg := rfl
@[simp] theorem updDbg_imd (f : Debug → Debug) (b : Block) : (updDbg f b).imd = b.imd := rfl
@[simp] theorem updDbg_imdG (f : Debug → Debug) (b : Block) : (updDbg f b).imdG = b.imdG := rfl
@[simp] theorem updDbg_rcm (f : Debug → Debug) (b : Block) : (updDbg f b).rcm = b.rcm := rfl
@[simp] theorem updDbg_rcmTest (f : Debug → Debug) (b : Block) : (updDbg f b).rcmTest = b.rcmTest := rfl
@[simp] theorem updDbg_saf (f : Debug → Debug) (b : Block) : (updDbg f b).saf = b.saf := rfl
@[simp] theorem updDbg_safX (f : Debug → Debug) (b : Block) : (updDbg f b).safX = b.safX := rfl
@[simp] theorem updDbg_lsw (f : Debug → Debug) (b : Block) : (updDbg f b).lsw = b.lsw := rfl
@[simp] theorem updDbg_pea (f : Debug → Debug) (b : Block) : (updDbg f b).pea = b.pea := rfl
@[simp] theorem updDbg_arb (f : Debug → Debug) (b : Block) : (updDbg f b).arb = b.arb := rfl
@[simp] theorem updDbg_pf (f : Debug → Debug) (b : Block) : (updDbg f b).pf = b.pf := rfl
@[simp] theorem updDbg_slt (f : Debug → Debug) (b : Block) : (updDbg f b).slt = b.slt := rfl
@[simp] theorem updDbg_legal (f : Debug → Debug) (b : Block) : (updDbg f b).legal = b.legal := rfl
@[simp] theorem updDbg_auth (f : Debug → Debug) (b : Block) : (updDbg f b).auth = b.auth := rfl
@[simp] theorem updDbg_backup (f : Debug → Debug) (b : Block) : (updDbg f b).backup = b.backup := rfl
@[simp] theorem updDbg_bri (f : Debug → Debug) (b : Block) : (updDbg f b).bri = b.bri := rfl
@[simp] theorem updDbg_key (f : Debug → Debug) (b : Block) : (updDbg f b).key = b.key := rfl
@[simp] theorem updDbg_mbx (f : Debug → Debug) (b : Block) : (updDbg f b).mbx = b.mbx := rfl
@[simp] theorem updDbg_hp (f : Debug → Debug) (b : Block) : (updDbg f b).hp = b.hp := rfl
@[simp] theorem updDbg_hic (f : Debug → Debug) (b : Block) : (updDbg f b).hic = b.hic := rfl
@[simp] theorem updDbg_qmg (f : Debug → Debug) (b : Block) : (updDbg f b).qmg = b.qmg := rfl
@[simp] theorem updDbg_cwy (f : Debug → Debug) (b : Block) : (updDbg f b).cwy = b.cwy := rfl
@[simp] theorem updDbg_cwyX (f : Debug → Debug) (b : Block) : (updDbg f b).cwyX = b.cwyX := rfl
@[simp] theorem updDbg_pnl (f : Debug → Debug) (b : Block) : (updDbg f b).pnl = b.pnl := rfl
@[simp] theorem updDbg_frames (f : Debug → Debug) (b : Block) : (updDbg f b).frames = b.frames := rfl
@[simp] theorem updDbg_nfc (f : Debug → Debug) (b : Block) : (updDbg f b).nfc = b.nfc := rfl
@[simp] theorem updDbg_rst (f : Debug → Debug) (b : Block) : (updDbg f b).rst = b.rst := rfl
@[simp] theorem updDbg_upd (f : Debug → Debug) (b : Block) : (updDbg f b).upd = b.upd := rfl
@[simp] theorem updDbg_btn (f : Debug → Debug) (b : Block) : (updDbg f b).btn = b.btn := rfl
@[simp] theorem updDbg_dmp (f : Debug → Debug) (b : Block) : (updDbg f b).dmp = b.dmp := rfl
@[simp] theorem updDbg_rpl (f : Debug → Debug) (b : Block) : (updDbg f b).rpl = b.rpl := rfl
@[simp] theorem updDbg_settings (f : Debug → Debug) (b : Block) : (updDbg f b).settings = b.settings := rfl
@[simp] theorem updDbg_newSettings (f : Debug → Debug) (b : Block) : (updDbg f b).newSettings = b.newSettings := rfl
@[simp] theorem updDbg_legalSet (f : Debug → Debug) (b : Block) : (updDbg f b).legalSet = b.legalSet := rfl
@[simp] theorem updDbg_updRec (f : Debug → Debug) (b : Block) : (updDbg f b).updRec = b.updRec := rfl
@[simp] theorem updDbg_kept (f : Debug → Debug) (b : Block) : (updDbg f b).kept = b.kept := rfl
@[simp] theorem updDbg_prior (f : Debug → Debug) (b : Block) : (updDbg f b).prior = b.prior := rfl
@[simp] theorem updDbg_dbg (f : Debug → Debug) (b : Block) : (updDbg f b).dbg = f b.dbg := rfl
@[simp] theorem updDmp_tide (f : Dump → Dump) (b : Block) : (updDmp f b).tide = b.tide := rfl
@[simp] theorem updDmp_lau (f : Dump → Dump) (b : Block) : (updDmp f b).lau = b.lau := rfl
@[simp] theorem updDmp_snaps (f : Dump → Dump) (b : Block) : (updDmp f b).snaps = b.snaps := rfl
@[simp] theorem updDmp_barrier (f : Dump → Dump) (b : Block) : (updDmp f b).barrier = b.barrier := rfl
@[simp] theorem updDmp_fab (f : Dump → Dump) (b : Block) : (updDmp f b).fab = b.fab := rfl
@[simp] theorem updDmp_d2d (f : Dump → Dump) (b : Block) : (updDmp f b).d2d = b.d2d := rfl
@[simp] theorem updDmp_cross (f : Dump → Dump) (b : Block) : (updDmp f b).cross = b.cross := rfl
@[simp] theorem updDmp_met (f : Dump → Dump) (b : Block) : (updDmp f b).met = b.met := rfl
@[simp] theorem updDmp_acc (f : Dump → Dump) (b : Block) : (updDmp f b).acc = b.acc := rfl
@[simp] theorem updDmp_pq (f : Dump → Dump) (b : Block) : (updDmp f b).pq = b.pq := rfl
@[simp] theorem updDmp_sess (f : Dump → Dump) (b : Block) : (updDmp f b).sess = b.sess := rfl
@[simp] theorem updDmp_slu (f : Dump → Dump) (b : Block) : (updDmp f b).slu = b.slu := rfl
@[simp] theorem updDmp_sluCnt (f : Dump → Dump) (b : Block) : (updDmp f b).sluCnt = b.sluCnt := rfl
@[simp] theorem updDmp_mlk (f : Dump → Dump) (b : Block) : (updDmp f b).mlk = b.mlk := rfl
@[simp] theorem updDmp_veh (f : Dump → Dump) (b : Block) : (updDmp f b).veh = b.veh := rfl
@[simp] theorem updDmp_vehCfg (f : Dump → Dump) (b : Block) : (updDmp f b).vehCfg = b.vehCfg := rfl
@[simp] theorem updDmp_plc (f : Dump → Dump) (b : Block) : (updDmp f b).plc = b.plc := rfl
@[simp] theorem updDmp_plcCfg (f : Dump → Dump) (b : Block) : (updDmp f b).plcCfg = b.plcCfg := rfl
@[simp] theorem updDmp_v2g (f : Dump → Dump) (b : Block) : (updDmp f b).v2g = b.v2g := rfl
@[simp] theorem updDmp_v2gCfg (f : Dump → Dump) (b : Block) : (updDmp f b).v2gCfg = b.v2gCfg := rfl
@[simp] theorem updDmp_imd (f : Dump → Dump) (b : Block) : (updDmp f b).imd = b.imd := rfl
@[simp] theorem updDmp_imdG (f : Dump → Dump) (b : Block) : (updDmp f b).imdG = b.imdG := rfl
@[simp] theorem updDmp_rcm (f : Dump → Dump) (b : Block) : (updDmp f b).rcm = b.rcm := rfl
@[simp] theorem updDmp_rcmTest (f : Dump → Dump) (b : Block) : (updDmp f b).rcmTest = b.rcmTest := rfl
@[simp] theorem updDmp_saf (f : Dump → Dump) (b : Block) : (updDmp f b).saf = b.saf := rfl
@[simp] theorem updDmp_safX (f : Dump → Dump) (b : Block) : (updDmp f b).safX = b.safX := rfl
@[simp] theorem updDmp_lsw (f : Dump → Dump) (b : Block) : (updDmp f b).lsw = b.lsw := rfl
@[simp] theorem updDmp_pea (f : Dump → Dump) (b : Block) : (updDmp f b).pea = b.pea := rfl
@[simp] theorem updDmp_arb (f : Dump → Dump) (b : Block) : (updDmp f b).arb = b.arb := rfl
@[simp] theorem updDmp_pf (f : Dump → Dump) (b : Block) : (updDmp f b).pf = b.pf := rfl
@[simp] theorem updDmp_slt (f : Dump → Dump) (b : Block) : (updDmp f b).slt = b.slt := rfl
@[simp] theorem updDmp_legal (f : Dump → Dump) (b : Block) : (updDmp f b).legal = b.legal := rfl
@[simp] theorem updDmp_auth (f : Dump → Dump) (b : Block) : (updDmp f b).auth = b.auth := rfl
@[simp] theorem updDmp_backup (f : Dump → Dump) (b : Block) : (updDmp f b).backup = b.backup := rfl
@[simp] theorem updDmp_bri (f : Dump → Dump) (b : Block) : (updDmp f b).bri = b.bri := rfl
@[simp] theorem updDmp_key (f : Dump → Dump) (b : Block) : (updDmp f b).key = b.key := rfl
@[simp] theorem updDmp_mbx (f : Dump → Dump) (b : Block) : (updDmp f b).mbx = b.mbx := rfl
@[simp] theorem updDmp_hp (f : Dump → Dump) (b : Block) : (updDmp f b).hp = b.hp := rfl
@[simp] theorem updDmp_hic (f : Dump → Dump) (b : Block) : (updDmp f b).hic = b.hic := rfl
@[simp] theorem updDmp_qmg (f : Dump → Dump) (b : Block) : (updDmp f b).qmg = b.qmg := rfl
@[simp] theorem updDmp_cwy (f : Dump → Dump) (b : Block) : (updDmp f b).cwy = b.cwy := rfl
@[simp] theorem updDmp_cwyX (f : Dump → Dump) (b : Block) : (updDmp f b).cwyX = b.cwyX := rfl
@[simp] theorem updDmp_pnl (f : Dump → Dump) (b : Block) : (updDmp f b).pnl = b.pnl := rfl
@[simp] theorem updDmp_frames (f : Dump → Dump) (b : Block) : (updDmp f b).frames = b.frames := rfl
@[simp] theorem updDmp_nfc (f : Dump → Dump) (b : Block) : (updDmp f b).nfc = b.nfc := rfl
@[simp] theorem updDmp_rst (f : Dump → Dump) (b : Block) : (updDmp f b).rst = b.rst := rfl
@[simp] theorem updDmp_upd (f : Dump → Dump) (b : Block) : (updDmp f b).upd = b.upd := rfl
@[simp] theorem updDmp_btn (f : Dump → Dump) (b : Block) : (updDmp f b).btn = b.btn := rfl
@[simp] theorem updDmp_rpl (f : Dump → Dump) (b : Block) : (updDmp f b).rpl = b.rpl := rfl
@[simp] theorem updDmp_dbg (f : Dump → Dump) (b : Block) : (updDmp f b).dbg = b.dbg := rfl
@[simp] theorem updDmp_settings (f : Dump → Dump) (b : Block) : (updDmp f b).settings = b.settings := rfl
@[simp] theorem updDmp_newSettings (f : Dump → Dump) (b : Block) : (updDmp f b).newSettings = b.newSettings := rfl
@[simp] theorem updDmp_legalSet (f : Dump → Dump) (b : Block) : (updDmp f b).legalSet = b.legalSet := rfl
@[simp] theorem updDmp_updRec (f : Dump → Dump) (b : Block) : (updDmp f b).updRec = b.updRec := rfl
@[simp] theorem updDmp_kept (f : Dump → Dump) (b : Block) : (updDmp f b).kept = b.kept := rfl
@[simp] theorem updDmp_prior (f : Dump → Dump) (b : Block) : (updDmp f b).prior = b.prior := rfl
@[simp] theorem updDmp_dmp (f : Dump → Dump) (b : Block) : (updDmp f b).dmp = f b.dmp := rfl
@[simp] theorem updRst_tide (f : ResetUnit → ResetUnit) (b : Block) : (updRst f b).tide = b.tide := rfl
@[simp] theorem updRst_lau (f : ResetUnit → ResetUnit) (b : Block) : (updRst f b).lau = b.lau := rfl
@[simp] theorem updRst_snaps (f : ResetUnit → ResetUnit) (b : Block) : (updRst f b).snaps = b.snaps := rfl
@[simp] theorem updRst_barrier (f : ResetUnit → ResetUnit) (b : Block) : (updRst f b).barrier = b.barrier := rfl
@[simp] theorem updRst_fab (f : ResetUnit → ResetUnit) (b : Block) : (updRst f b).fab = b.fab := rfl
@[simp] theorem updRst_d2d (f : ResetUnit → ResetUnit) (b : Block) : (updRst f b).d2d = b.d2d := rfl
@[simp] theorem updRst_cross (f : ResetUnit → ResetUnit) (b : Block) : (updRst f b).cross = b.cross := rfl
@[simp] theorem updRst_met (f : ResetUnit → ResetUnit) (b : Block) : (updRst f b).met = b.met := rfl
@[simp] theorem updRst_acc (f : ResetUnit → ResetUnit) (b : Block) : (updRst f b).acc = b.acc := rfl
@[simp] theorem updRst_pq (f : ResetUnit → ResetUnit) (b : Block) : (updRst f b).pq = b.pq := rfl
@[simp] theorem updRst_sess (f : ResetUnit → ResetUnit) (b : Block) : (updRst f b).sess = b.sess := rfl
@[simp] theorem updRst_slu (f : ResetUnit → ResetUnit) (b : Block) : (updRst f b).slu = b.slu := rfl
@[simp] theorem updRst_sluCnt (f : ResetUnit → ResetUnit) (b : Block) : (updRst f b).sluCnt = b.sluCnt := rfl
@[simp] theorem updRst_mlk (f : ResetUnit → ResetUnit) (b : Block) : (updRst f b).mlk = b.mlk := rfl
@[simp] theorem updRst_veh (f : ResetUnit → ResetUnit) (b : Block) : (updRst f b).veh = b.veh := rfl
@[simp] theorem updRst_vehCfg (f : ResetUnit → ResetUnit) (b : Block) : (updRst f b).vehCfg = b.vehCfg := rfl
@[simp] theorem updRst_plc (f : ResetUnit → ResetUnit) (b : Block) : (updRst f b).plc = b.plc := rfl
@[simp] theorem updRst_plcCfg (f : ResetUnit → ResetUnit) (b : Block) : (updRst f b).plcCfg = b.plcCfg := rfl
@[simp] theorem updRst_v2g (f : ResetUnit → ResetUnit) (b : Block) : (updRst f b).v2g = b.v2g := rfl
@[simp] theorem updRst_v2gCfg (f : ResetUnit → ResetUnit) (b : Block) : (updRst f b).v2gCfg = b.v2gCfg := rfl
@[simp] theorem updRst_imd (f : ResetUnit → ResetUnit) (b : Block) : (updRst f b).imd = b.imd := rfl
@[simp] theorem updRst_imdG (f : ResetUnit → ResetUnit) (b : Block) : (updRst f b).imdG = b.imdG := rfl
@[simp] theorem updRst_rcm (f : ResetUnit → ResetUnit) (b : Block) : (updRst f b).rcm = b.rcm := rfl
@[simp] theorem updRst_rcmTest (f : ResetUnit → ResetUnit) (b : Block) : (updRst f b).rcmTest = b.rcmTest := rfl
@[simp] theorem updRst_saf (f : ResetUnit → ResetUnit) (b : Block) : (updRst f b).saf = b.saf := rfl
@[simp] theorem updRst_safX (f : ResetUnit → ResetUnit) (b : Block) : (updRst f b).safX = b.safX := rfl
@[simp] theorem updRst_lsw (f : ResetUnit → ResetUnit) (b : Block) : (updRst f b).lsw = b.lsw := rfl
@[simp] theorem updRst_pea (f : ResetUnit → ResetUnit) (b : Block) : (updRst f b).pea = b.pea := rfl
@[simp] theorem updRst_arb (f : ResetUnit → ResetUnit) (b : Block) : (updRst f b).arb = b.arb := rfl
@[simp] theorem updRst_pf (f : ResetUnit → ResetUnit) (b : Block) : (updRst f b).pf = b.pf := rfl
@[simp] theorem updRst_slt (f : ResetUnit → ResetUnit) (b : Block) : (updRst f b).slt = b.slt := rfl
@[simp] theorem updRst_legal (f : ResetUnit → ResetUnit) (b : Block) : (updRst f b).legal = b.legal := rfl
@[simp] theorem updRst_auth (f : ResetUnit → ResetUnit) (b : Block) : (updRst f b).auth = b.auth := rfl
@[simp] theorem updRst_backup (f : ResetUnit → ResetUnit) (b : Block) : (updRst f b).backup = b.backup := rfl
@[simp] theorem updRst_bri (f : ResetUnit → ResetUnit) (b : Block) : (updRst f b).bri = b.bri := rfl
@[simp] theorem updRst_key (f : ResetUnit → ResetUnit) (b : Block) : (updRst f b).key = b.key := rfl
@[simp] theorem updRst_mbx (f : ResetUnit → ResetUnit) (b : Block) : (updRst f b).mbx = b.mbx := rfl
@[simp] theorem updRst_hp (f : ResetUnit → ResetUnit) (b : Block) : (updRst f b).hp = b.hp := rfl
@[simp] theorem updRst_hic (f : ResetUnit → ResetUnit) (b : Block) : (updRst f b).hic = b.hic := rfl
@[simp] theorem updRst_qmg (f : ResetUnit → ResetUnit) (b : Block) : (updRst f b).qmg = b.qmg := rfl
@[simp] theorem updRst_cwy (f : ResetUnit → ResetUnit) (b : Block) : (updRst f b).cwy = b.cwy := rfl
@[simp] theorem updRst_cwyX (f : ResetUnit → ResetUnit) (b : Block) : (updRst f b).cwyX = b.cwyX := rfl
@[simp] theorem updRst_pnl (f : ResetUnit → ResetUnit) (b : Block) : (updRst f b).pnl = b.pnl := rfl
@[simp] theorem updRst_frames (f : ResetUnit → ResetUnit) (b : Block) : (updRst f b).frames = b.frames := rfl
@[simp] theorem updRst_nfc (f : ResetUnit → ResetUnit) (b : Block) : (updRst f b).nfc = b.nfc := rfl
@[simp] theorem updRst_upd (f : ResetUnit → ResetUnit) (b : Block) : (updRst f b).upd = b.upd := rfl
@[simp] theorem updRst_btn (f : ResetUnit → ResetUnit) (b : Block) : (updRst f b).btn = b.btn := rfl
@[simp] theorem updRst_dmp (f : ResetUnit → ResetUnit) (b : Block) : (updRst f b).dmp = b.dmp := rfl
@[simp] theorem updRst_rpl (f : ResetUnit → ResetUnit) (b : Block) : (updRst f b).rpl = b.rpl := rfl
@[simp] theorem updRst_dbg (f : ResetUnit → ResetUnit) (b : Block) : (updRst f b).dbg = b.dbg := rfl
@[simp] theorem updRst_settings (f : ResetUnit → ResetUnit) (b : Block) : (updRst f b).settings = b.settings := rfl
@[simp] theorem updRst_newSettings (f : ResetUnit → ResetUnit) (b : Block) : (updRst f b).newSettings = b.newSettings := rfl
@[simp] theorem updRst_legalSet (f : ResetUnit → ResetUnit) (b : Block) : (updRst f b).legalSet = b.legalSet := rfl
@[simp] theorem updRst_updRec (f : ResetUnit → ResetUnit) (b : Block) : (updRst f b).updRec = b.updRec := rfl
@[simp] theorem updRst_kept (f : ResetUnit → ResetUnit) (b : Block) : (updRst f b).kept = b.kept := rfl
@[simp] theorem updRst_prior (f : ResetUnit → ResetUnit) (b : Block) : (updRst f b).prior = b.prior := rfl
@[simp] theorem updRst_rst (f : ResetUnit → ResetUnit) (b : Block) : (updRst f b).rst = f b.rst := rfl
@[simp] theorem updD2d_tide (f : D2d → D2d) (b : Block) : (updD2d f b).tide = b.tide := rfl
@[simp] theorem updD2d_lau (f : D2d → D2d) (b : Block) : (updD2d f b).lau = b.lau := rfl
@[simp] theorem updD2d_snaps (f : D2d → D2d) (b : Block) : (updD2d f b).snaps = b.snaps := rfl
@[simp] theorem updD2d_barrier (f : D2d → D2d) (b : Block) : (updD2d f b).barrier = b.barrier := rfl
@[simp] theorem updD2d_fab (f : D2d → D2d) (b : Block) : (updD2d f b).fab = b.fab := rfl
@[simp] theorem updD2d_cross (f : D2d → D2d) (b : Block) : (updD2d f b).cross = b.cross := rfl
@[simp] theorem updD2d_met (f : D2d → D2d) (b : Block) : (updD2d f b).met = b.met := rfl
@[simp] theorem updD2d_acc (f : D2d → D2d) (b : Block) : (updD2d f b).acc = b.acc := rfl
@[simp] theorem updD2d_pq (f : D2d → D2d) (b : Block) : (updD2d f b).pq = b.pq := rfl
@[simp] theorem updD2d_sess (f : D2d → D2d) (b : Block) : (updD2d f b).sess = b.sess := rfl
@[simp] theorem updD2d_slu (f : D2d → D2d) (b : Block) : (updD2d f b).slu = b.slu := rfl
@[simp] theorem updD2d_sluCnt (f : D2d → D2d) (b : Block) : (updD2d f b).sluCnt = b.sluCnt := rfl
@[simp] theorem updD2d_mlk (f : D2d → D2d) (b : Block) : (updD2d f b).mlk = b.mlk := rfl
@[simp] theorem updD2d_veh (f : D2d → D2d) (b : Block) : (updD2d f b).veh = b.veh := rfl
@[simp] theorem updD2d_vehCfg (f : D2d → D2d) (b : Block) : (updD2d f b).vehCfg = b.vehCfg := rfl
@[simp] theorem updD2d_plc (f : D2d → D2d) (b : Block) : (updD2d f b).plc = b.plc := rfl
@[simp] theorem updD2d_plcCfg (f : D2d → D2d) (b : Block) : (updD2d f b).plcCfg = b.plcCfg := rfl
@[simp] theorem updD2d_v2g (f : D2d → D2d) (b : Block) : (updD2d f b).v2g = b.v2g := rfl
@[simp] theorem updD2d_v2gCfg (f : D2d → D2d) (b : Block) : (updD2d f b).v2gCfg = b.v2gCfg := rfl
@[simp] theorem updD2d_imd (f : D2d → D2d) (b : Block) : (updD2d f b).imd = b.imd := rfl
@[simp] theorem updD2d_imdG (f : D2d → D2d) (b : Block) : (updD2d f b).imdG = b.imdG := rfl
@[simp] theorem updD2d_rcm (f : D2d → D2d) (b : Block) : (updD2d f b).rcm = b.rcm := rfl
@[simp] theorem updD2d_rcmTest (f : D2d → D2d) (b : Block) : (updD2d f b).rcmTest = b.rcmTest := rfl
@[simp] theorem updD2d_saf (f : D2d → D2d) (b : Block) : (updD2d f b).saf = b.saf := rfl
@[simp] theorem updD2d_safX (f : D2d → D2d) (b : Block) : (updD2d f b).safX = b.safX := rfl
@[simp] theorem updD2d_lsw (f : D2d → D2d) (b : Block) : (updD2d f b).lsw = b.lsw := rfl
@[simp] theorem updD2d_pea (f : D2d → D2d) (b : Block) : (updD2d f b).pea = b.pea := rfl
@[simp] theorem updD2d_arb (f : D2d → D2d) (b : Block) : (updD2d f b).arb = b.arb := rfl
@[simp] theorem updD2d_pf (f : D2d → D2d) (b : Block) : (updD2d f b).pf = b.pf := rfl
@[simp] theorem updD2d_slt (f : D2d → D2d) (b : Block) : (updD2d f b).slt = b.slt := rfl
@[simp] theorem updD2d_legal (f : D2d → D2d) (b : Block) : (updD2d f b).legal = b.legal := rfl
@[simp] theorem updD2d_auth (f : D2d → D2d) (b : Block) : (updD2d f b).auth = b.auth := rfl
@[simp] theorem updD2d_backup (f : D2d → D2d) (b : Block) : (updD2d f b).backup = b.backup := rfl
@[simp] theorem updD2d_bri (f : D2d → D2d) (b : Block) : (updD2d f b).bri = b.bri := rfl
@[simp] theorem updD2d_key (f : D2d → D2d) (b : Block) : (updD2d f b).key = b.key := rfl
@[simp] theorem updD2d_mbx (f : D2d → D2d) (b : Block) : (updD2d f b).mbx = b.mbx := rfl
@[simp] theorem updD2d_hp (f : D2d → D2d) (b : Block) : (updD2d f b).hp = b.hp := rfl
@[simp] theorem updD2d_hic (f : D2d → D2d) (b : Block) : (updD2d f b).hic = b.hic := rfl
@[simp] theorem updD2d_qmg (f : D2d → D2d) (b : Block) : (updD2d f b).qmg = b.qmg := rfl
@[simp] theorem updD2d_cwy (f : D2d → D2d) (b : Block) : (updD2d f b).cwy = b.cwy := rfl
@[simp] theorem updD2d_cwyX (f : D2d → D2d) (b : Block) : (updD2d f b).cwyX = b.cwyX := rfl
@[simp] theorem updD2d_pnl (f : D2d → D2d) (b : Block) : (updD2d f b).pnl = b.pnl := rfl
@[simp] theorem updD2d_frames (f : D2d → D2d) (b : Block) : (updD2d f b).frames = b.frames := rfl
@[simp] theorem updD2d_nfc (f : D2d → D2d) (b : Block) : (updD2d f b).nfc = b.nfc := rfl
@[simp] theorem updD2d_rst (f : D2d → D2d) (b : Block) : (updD2d f b).rst = b.rst := rfl
@[simp] theorem updD2d_upd (f : D2d → D2d) (b : Block) : (updD2d f b).upd = b.upd := rfl
@[simp] theorem updD2d_btn (f : D2d → D2d) (b : Block) : (updD2d f b).btn = b.btn := rfl
@[simp] theorem updD2d_dmp (f : D2d → D2d) (b : Block) : (updD2d f b).dmp = b.dmp := rfl
@[simp] theorem updD2d_rpl (f : D2d → D2d) (b : Block) : (updD2d f b).rpl = b.rpl := rfl
@[simp] theorem updD2d_dbg (f : D2d → D2d) (b : Block) : (updD2d f b).dbg = b.dbg := rfl
@[simp] theorem updD2d_settings (f : D2d → D2d) (b : Block) : (updD2d f b).settings = b.settings := rfl
@[simp] theorem updD2d_newSettings (f : D2d → D2d) (b : Block) : (updD2d f b).newSettings = b.newSettings := rfl
@[simp] theorem updD2d_legalSet (f : D2d → D2d) (b : Block) : (updD2d f b).legalSet = b.legalSet := rfl
@[simp] theorem updD2d_updRec (f : D2d → D2d) (b : Block) : (updD2d f b).updRec = b.updRec := rfl
@[simp] theorem updD2d_kept (f : D2d → D2d) (b : Block) : (updD2d f b).kept = b.kept := rfl
@[simp] theorem updD2d_prior (f : D2d → D2d) (b : Block) : (updD2d f b).prior = b.prior := rfl
@[simp] theorem updD2d_d2d (f : D2d → D2d) (b : Block) : (updD2d f b).d2d = f b.d2d := rfl
@[simp] theorem updSlack_tide (e : Fin 15) (f : Slack → Slack) (b : Block) : (updSlack e f b).tide = b.tide := rfl
@[simp] theorem updSlack_lau (e : Fin 15) (f : Slack → Slack) (b : Block) : (updSlack e f b).lau = b.lau := rfl
@[simp] theorem updSlack_snaps (e : Fin 15) (f : Slack → Slack) (b : Block) : (updSlack e f b).snaps = b.snaps := rfl
@[simp] theorem updSlack_barrier (e : Fin 15) (f : Slack → Slack) (b : Block) : (updSlack e f b).barrier = b.barrier := rfl
@[simp] theorem updSlack_d2d (e : Fin 15) (f : Slack → Slack) (b : Block) : (updSlack e f b).d2d = b.d2d := rfl
@[simp] theorem updSlack_cross (e : Fin 15) (f : Slack → Slack) (b : Block) : (updSlack e f b).cross = b.cross := rfl
@[simp] theorem updSlack_met (e : Fin 15) (f : Slack → Slack) (b : Block) : (updSlack e f b).met = b.met := rfl
@[simp] theorem updSlack_acc (e : Fin 15) (f : Slack → Slack) (b : Block) : (updSlack e f b).acc = b.acc := rfl
@[simp] theorem updSlack_pq (e : Fin 15) (f : Slack → Slack) (b : Block) : (updSlack e f b).pq = b.pq := rfl
@[simp] theorem updSlack_sess (e : Fin 15) (f : Slack → Slack) (b : Block) : (updSlack e f b).sess = b.sess := rfl
@[simp] theorem updSlack_slu (e : Fin 15) (f : Slack → Slack) (b : Block) : (updSlack e f b).slu = b.slu := rfl
@[simp] theorem updSlack_sluCnt (e : Fin 15) (f : Slack → Slack) (b : Block) : (updSlack e f b).sluCnt = b.sluCnt := rfl
@[simp] theorem updSlack_mlk (e : Fin 15) (f : Slack → Slack) (b : Block) : (updSlack e f b).mlk = b.mlk := rfl
@[simp] theorem updSlack_veh (e : Fin 15) (f : Slack → Slack) (b : Block) : (updSlack e f b).veh = b.veh := rfl
@[simp] theorem updSlack_vehCfg (e : Fin 15) (f : Slack → Slack) (b : Block) : (updSlack e f b).vehCfg = b.vehCfg := rfl
@[simp] theorem updSlack_plc (e : Fin 15) (f : Slack → Slack) (b : Block) : (updSlack e f b).plc = b.plc := rfl
@[simp] theorem updSlack_plcCfg (e : Fin 15) (f : Slack → Slack) (b : Block) : (updSlack e f b).plcCfg = b.plcCfg := rfl
@[simp] theorem updSlack_v2g (e : Fin 15) (f : Slack → Slack) (b : Block) : (updSlack e f b).v2g = b.v2g := rfl
@[simp] theorem updSlack_v2gCfg (e : Fin 15) (f : Slack → Slack) (b : Block) : (updSlack e f b).v2gCfg = b.v2gCfg := rfl
@[simp] theorem updSlack_imd (e : Fin 15) (f : Slack → Slack) (b : Block) : (updSlack e f b).imd = b.imd := rfl
@[simp] theorem updSlack_imdG (e : Fin 15) (f : Slack → Slack) (b : Block) : (updSlack e f b).imdG = b.imdG := rfl
@[simp] theorem updSlack_rcm (e : Fin 15) (f : Slack → Slack) (b : Block) : (updSlack e f b).rcm = b.rcm := rfl
@[simp] theorem updSlack_rcmTest (e : Fin 15) (f : Slack → Slack) (b : Block) : (updSlack e f b).rcmTest = b.rcmTest := rfl
@[simp] theorem updSlack_saf (e : Fin 15) (f : Slack → Slack) (b : Block) : (updSlack e f b).saf = b.saf := rfl
@[simp] theorem updSlack_safX (e : Fin 15) (f : Slack → Slack) (b : Block) : (updSlack e f b).safX = b.safX := rfl
@[simp] theorem updSlack_lsw (e : Fin 15) (f : Slack → Slack) (b : Block) : (updSlack e f b).lsw = b.lsw := rfl
@[simp] theorem updSlack_pea (e : Fin 15) (f : Slack → Slack) (b : Block) : (updSlack e f b).pea = b.pea := rfl
@[simp] theorem updSlack_arb (e : Fin 15) (f : Slack → Slack) (b : Block) : (updSlack e f b).arb = b.arb := rfl
@[simp] theorem updSlack_pf (e : Fin 15) (f : Slack → Slack) (b : Block) : (updSlack e f b).pf = b.pf := rfl
@[simp] theorem updSlack_slt (e : Fin 15) (f : Slack → Slack) (b : Block) : (updSlack e f b).slt = b.slt := rfl
@[simp] theorem updSlack_legal (e : Fin 15) (f : Slack → Slack) (b : Block) : (updSlack e f b).legal = b.legal := rfl
@[simp] theorem updSlack_auth (e : Fin 15) (f : Slack → Slack) (b : Block) : (updSlack e f b).auth = b.auth := rfl
@[simp] theorem updSlack_backup (e : Fin 15) (f : Slack → Slack) (b : Block) : (updSlack e f b).backup = b.backup := rfl
@[simp] theorem updSlack_bri (e : Fin 15) (f : Slack → Slack) (b : Block) : (updSlack e f b).bri = b.bri := rfl
@[simp] theorem updSlack_key (e : Fin 15) (f : Slack → Slack) (b : Block) : (updSlack e f b).key = b.key := rfl
@[simp] theorem updSlack_mbx (e : Fin 15) (f : Slack → Slack) (b : Block) : (updSlack e f b).mbx = b.mbx := rfl
@[simp] theorem updSlack_hp (e : Fin 15) (f : Slack → Slack) (b : Block) : (updSlack e f b).hp = b.hp := rfl
@[simp] theorem updSlack_hic (e : Fin 15) (f : Slack → Slack) (b : Block) : (updSlack e f b).hic = b.hic := rfl
@[simp] theorem updSlack_qmg (e : Fin 15) (f : Slack → Slack) (b : Block) : (updSlack e f b).qmg = b.qmg := rfl
@[simp] theorem updSlack_cwy (e : Fin 15) (f : Slack → Slack) (b : Block) : (updSlack e f b).cwy = b.cwy := rfl
@[simp] theorem updSlack_cwyX (e : Fin 15) (f : Slack → Slack) (b : Block) : (updSlack e f b).cwyX = b.cwyX := rfl
@[simp] theorem updSlack_pnl (e : Fin 15) (f : Slack → Slack) (b : Block) : (updSlack e f b).pnl = b.pnl := rfl
@[simp] theorem updSlack_frames (e : Fin 15) (f : Slack → Slack) (b : Block) : (updSlack e f b).frames = b.frames := rfl
@[simp] theorem updSlack_nfc (e : Fin 15) (f : Slack → Slack) (b : Block) : (updSlack e f b).nfc = b.nfc := rfl
@[simp] theorem updSlack_rst (e : Fin 15) (f : Slack → Slack) (b : Block) : (updSlack e f b).rst = b.rst := rfl
@[simp] theorem updSlack_upd (e : Fin 15) (f : Slack → Slack) (b : Block) : (updSlack e f b).upd = b.upd := rfl
@[simp] theorem updSlack_btn (e : Fin 15) (f : Slack → Slack) (b : Block) : (updSlack e f b).btn = b.btn := rfl
@[simp] theorem updSlack_dmp (e : Fin 15) (f : Slack → Slack) (b : Block) : (updSlack e f b).dmp = b.dmp := rfl
@[simp] theorem updSlack_rpl (e : Fin 15) (f : Slack → Slack) (b : Block) : (updSlack e f b).rpl = b.rpl := rfl
@[simp] theorem updSlack_dbg (e : Fin 15) (f : Slack → Slack) (b : Block) : (updSlack e f b).dbg = b.dbg := rfl
@[simp] theorem updSlack_settings (e : Fin 15) (f : Slack → Slack) (b : Block) : (updSlack e f b).settings = b.settings := rfl
@[simp] theorem updSlack_newSettings (e : Fin 15) (f : Slack → Slack) (b : Block) : (updSlack e f b).newSettings = b.newSettings := rfl
@[simp] theorem updSlack_legalSet (e : Fin 15) (f : Slack → Slack) (b : Block) : (updSlack e f b).legalSet = b.legalSet := rfl
@[simp] theorem updSlack_updRec (e : Fin 15) (f : Slack → Slack) (b : Block) : (updSlack e f b).updRec = b.updRec := rfl
@[simp] theorem updSlack_kept (e : Fin 15) (f : Slack → Slack) (b : Block) : (updSlack e f b).kept = b.kept := rfl
@[simp] theorem updSlack_prior (e : Fin 15) (f : Slack → Slack) (b : Block) : (updSlack e f b).prior = b.prior := rfl
@[simp] theorem updSlack_fab (e : Fin 15) (f : Slack → Slack) (b : Block) : (updSlack e f b).fab = vupd b.fab e f := rfl
@[simp] theorem updBarrier_tide (f : Barrier → Barrier) (b : Block) : (updBarrier f b).tide = b.tide := rfl
@[simp] theorem updBarrier_lau (f : Barrier → Barrier) (b : Block) : (updBarrier f b).lau = b.lau := rfl
@[simp] theorem updBarrier_snaps (f : Barrier → Barrier) (b : Block) : (updBarrier f b).snaps = b.snaps := rfl
@[simp] theorem updBarrier_fab (f : Barrier → Barrier) (b : Block) : (updBarrier f b).fab = b.fab := rfl
@[simp] theorem updBarrier_d2d (f : Barrier → Barrier) (b : Block) : (updBarrier f b).d2d = b.d2d := rfl
@[simp] theorem updBarrier_cross (f : Barrier → Barrier) (b : Block) : (updBarrier f b).cross = b.cross := rfl
@[simp] theorem updBarrier_met (f : Barrier → Barrier) (b : Block) : (updBarrier f b).met = b.met := rfl
@[simp] theorem updBarrier_acc (f : Barrier → Barrier) (b : Block) : (updBarrier f b).acc = b.acc := rfl
@[simp] theorem updBarrier_pq (f : Barrier → Barrier) (b : Block) : (updBarrier f b).pq = b.pq := rfl
@[simp] theorem updBarrier_sess (f : Barrier → Barrier) (b : Block) : (updBarrier f b).sess = b.sess := rfl
@[simp] theorem updBarrier_slu (f : Barrier → Barrier) (b : Block) : (updBarrier f b).slu = b.slu := rfl
@[simp] theorem updBarrier_sluCnt (f : Barrier → Barrier) (b : Block) : (updBarrier f b).sluCnt = b.sluCnt := rfl
@[simp] theorem updBarrier_mlk (f : Barrier → Barrier) (b : Block) : (updBarrier f b).mlk = b.mlk := rfl
@[simp] theorem updBarrier_veh (f : Barrier → Barrier) (b : Block) : (updBarrier f b).veh = b.veh := rfl
@[simp] theorem updBarrier_vehCfg (f : Barrier → Barrier) (b : Block) : (updBarrier f b).vehCfg = b.vehCfg := rfl
@[simp] theorem updBarrier_plc (f : Barrier → Barrier) (b : Block) : (updBarrier f b).plc = b.plc := rfl
@[simp] theorem updBarrier_plcCfg (f : Barrier → Barrier) (b : Block) : (updBarrier f b).plcCfg = b.plcCfg := rfl
@[simp] theorem updBarrier_v2g (f : Barrier → Barrier) (b : Block) : (updBarrier f b).v2g = b.v2g := rfl
@[simp] theorem updBarrier_v2gCfg (f : Barrier → Barrier) (b : Block) : (updBarrier f b).v2gCfg = b.v2gCfg := rfl
@[simp] theorem updBarrier_imd (f : Barrier → Barrier) (b : Block) : (updBarrier f b).imd = b.imd := rfl
@[simp] theorem updBarrier_imdG (f : Barrier → Barrier) (b : Block) : (updBarrier f b).imdG = b.imdG := rfl
@[simp] theorem updBarrier_rcm (f : Barrier → Barrier) (b : Block) : (updBarrier f b).rcm = b.rcm := rfl
@[simp] theorem updBarrier_rcmTest (f : Barrier → Barrier) (b : Block) : (updBarrier f b).rcmTest = b.rcmTest := rfl
@[simp] theorem updBarrier_saf (f : Barrier → Barrier) (b : Block) : (updBarrier f b).saf = b.saf := rfl
@[simp] theorem updBarrier_safX (f : Barrier → Barrier) (b : Block) : (updBarrier f b).safX = b.safX := rfl
@[simp] theorem updBarrier_lsw (f : Barrier → Barrier) (b : Block) : (updBarrier f b).lsw = b.lsw := rfl
@[simp] theorem updBarrier_pea (f : Barrier → Barrier) (b : Block) : (updBarrier f b).pea = b.pea := rfl
@[simp] theorem updBarrier_arb (f : Barrier → Barrier) (b : Block) : (updBarrier f b).arb = b.arb := rfl
@[simp] theorem updBarrier_pf (f : Barrier → Barrier) (b : Block) : (updBarrier f b).pf = b.pf := rfl
@[simp] theorem updBarrier_slt (f : Barrier → Barrier) (b : Block) : (updBarrier f b).slt = b.slt := rfl
@[simp] theorem updBarrier_legal (f : Barrier → Barrier) (b : Block) : (updBarrier f b).legal = b.legal := rfl
@[simp] theorem updBarrier_auth (f : Barrier → Barrier) (b : Block) : (updBarrier f b).auth = b.auth := rfl
@[simp] theorem updBarrier_backup (f : Barrier → Barrier) (b : Block) : (updBarrier f b).backup = b.backup := rfl
@[simp] theorem updBarrier_bri (f : Barrier → Barrier) (b : Block) : (updBarrier f b).bri = b.bri := rfl
@[simp] theorem updBarrier_key (f : Barrier → Barrier) (b : Block) : (updBarrier f b).key = b.key := rfl
@[simp] theorem updBarrier_mbx (f : Barrier → Barrier) (b : Block) : (updBarrier f b).mbx = b.mbx := rfl
@[simp] theorem updBarrier_hp (f : Barrier → Barrier) (b : Block) : (updBarrier f b).hp = b.hp := rfl
@[simp] theorem updBarrier_hic (f : Barrier → Barrier) (b : Block) : (updBarrier f b).hic = b.hic := rfl
@[simp] theorem updBarrier_qmg (f : Barrier → Barrier) (b : Block) : (updBarrier f b).qmg = b.qmg := rfl
@[simp] theorem updBarrier_cwy (f : Barrier → Barrier) (b : Block) : (updBarrier f b).cwy = b.cwy := rfl
@[simp] theorem updBarrier_cwyX (f : Barrier → Barrier) (b : Block) : (updBarrier f b).cwyX = b.cwyX := rfl
@[simp] theorem updBarrier_pnl (f : Barrier → Barrier) (b : Block) : (updBarrier f b).pnl = b.pnl := rfl
@[simp] theorem updBarrier_frames (f : Barrier → Barrier) (b : Block) : (updBarrier f b).frames = b.frames := rfl
@[simp] theorem updBarrier_nfc (f : Barrier → Barrier) (b : Block) : (updBarrier f b).nfc = b.nfc := rfl
@[simp] theorem updBarrier_rst (f : Barrier → Barrier) (b : Block) : (updBarrier f b).rst = b.rst := rfl
@[simp] theorem updBarrier_upd (f : Barrier → Barrier) (b : Block) : (updBarrier f b).upd = b.upd := rfl
@[simp] theorem updBarrier_btn (f : Barrier → Barrier) (b : Block) : (updBarrier f b).btn = b.btn := rfl
@[simp] theorem updBarrier_dmp (f : Barrier → Barrier) (b : Block) : (updBarrier f b).dmp = b.dmp := rfl
@[simp] theorem updBarrier_rpl (f : Barrier → Barrier) (b : Block) : (updBarrier f b).rpl = b.rpl := rfl
@[simp] theorem updBarrier_dbg (f : Barrier → Barrier) (b : Block) : (updBarrier f b).dbg = b.dbg := rfl
@[simp] theorem updBarrier_settings (f : Barrier → Barrier) (b : Block) : (updBarrier f b).settings = b.settings := rfl
@[simp] theorem updBarrier_newSettings (f : Barrier → Barrier) (b : Block) : (updBarrier f b).newSettings = b.newSettings := rfl
@[simp] theorem updBarrier_legalSet (f : Barrier → Barrier) (b : Block) : (updBarrier f b).legalSet = b.legalSet := rfl
@[simp] theorem updBarrier_updRec (f : Barrier → Barrier) (b : Block) : (updBarrier f b).updRec = b.updRec := rfl
@[simp] theorem updBarrier_kept (f : Barrier → Barrier) (b : Block) : (updBarrier f b).kept = b.kept := rfl
@[simp] theorem updBarrier_prior (f : Barrier → Barrier) (b : Block) : (updBarrier f b).prior = b.prior := rfl
@[simp] theorem updBarrier_barrier (f : Barrier → Barrier) (b : Block) : (updBarrier f b).barrier = f b.barrier := rfl
@[simp] theorem updSlu_tide (f : Sluice → Sluice) (b : Block) : (updSlu f b).tide = b.tide := rfl
@[simp] theorem updSlu_lau (f : Sluice → Sluice) (b : Block) : (updSlu f b).lau = b.lau := rfl
@[simp] theorem updSlu_snaps (f : Sluice → Sluice) (b : Block) : (updSlu f b).snaps = b.snaps := rfl
@[simp] theorem updSlu_barrier (f : Sluice → Sluice) (b : Block) : (updSlu f b).barrier = b.barrier := rfl
@[simp] theorem updSlu_fab (f : Sluice → Sluice) (b : Block) : (updSlu f b).fab = b.fab := rfl
@[simp] theorem updSlu_d2d (f : Sluice → Sluice) (b : Block) : (updSlu f b).d2d = b.d2d := rfl
@[simp] theorem updSlu_cross (f : Sluice → Sluice) (b : Block) : (updSlu f b).cross = b.cross := rfl
@[simp] theorem updSlu_met (f : Sluice → Sluice) (b : Block) : (updSlu f b).met = b.met := rfl
@[simp] theorem updSlu_acc (f : Sluice → Sluice) (b : Block) : (updSlu f b).acc = b.acc := rfl
@[simp] theorem updSlu_pq (f : Sluice → Sluice) (b : Block) : (updSlu f b).pq = b.pq := rfl
@[simp] theorem updSlu_sess (f : Sluice → Sluice) (b : Block) : (updSlu f b).sess = b.sess := rfl
@[simp] theorem updSlu_sluCnt (f : Sluice → Sluice) (b : Block) : (updSlu f b).sluCnt = b.sluCnt := rfl
@[simp] theorem updSlu_mlk (f : Sluice → Sluice) (b : Block) : (updSlu f b).mlk = b.mlk := rfl
@[simp] theorem updSlu_veh (f : Sluice → Sluice) (b : Block) : (updSlu f b).veh = b.veh := rfl
@[simp] theorem updSlu_vehCfg (f : Sluice → Sluice) (b : Block) : (updSlu f b).vehCfg = b.vehCfg := rfl
@[simp] theorem updSlu_plc (f : Sluice → Sluice) (b : Block) : (updSlu f b).plc = b.plc := rfl
@[simp] theorem updSlu_plcCfg (f : Sluice → Sluice) (b : Block) : (updSlu f b).plcCfg = b.plcCfg := rfl
@[simp] theorem updSlu_v2g (f : Sluice → Sluice) (b : Block) : (updSlu f b).v2g = b.v2g := rfl
@[simp] theorem updSlu_v2gCfg (f : Sluice → Sluice) (b : Block) : (updSlu f b).v2gCfg = b.v2gCfg := rfl
@[simp] theorem updSlu_imd (f : Sluice → Sluice) (b : Block) : (updSlu f b).imd = b.imd := rfl
@[simp] theorem updSlu_imdG (f : Sluice → Sluice) (b : Block) : (updSlu f b).imdG = b.imdG := rfl
@[simp] theorem updSlu_rcm (f : Sluice → Sluice) (b : Block) : (updSlu f b).rcm = b.rcm := rfl
@[simp] theorem updSlu_rcmTest (f : Sluice → Sluice) (b : Block) : (updSlu f b).rcmTest = b.rcmTest := rfl
@[simp] theorem updSlu_saf (f : Sluice → Sluice) (b : Block) : (updSlu f b).saf = b.saf := rfl
@[simp] theorem updSlu_safX (f : Sluice → Sluice) (b : Block) : (updSlu f b).safX = b.safX := rfl
@[simp] theorem updSlu_lsw (f : Sluice → Sluice) (b : Block) : (updSlu f b).lsw = b.lsw := rfl
@[simp] theorem updSlu_pea (f : Sluice → Sluice) (b : Block) : (updSlu f b).pea = b.pea := rfl
@[simp] theorem updSlu_arb (f : Sluice → Sluice) (b : Block) : (updSlu f b).arb = b.arb := rfl
@[simp] theorem updSlu_pf (f : Sluice → Sluice) (b : Block) : (updSlu f b).pf = b.pf := rfl
@[simp] theorem updSlu_slt (f : Sluice → Sluice) (b : Block) : (updSlu f b).slt = b.slt := rfl
@[simp] theorem updSlu_legal (f : Sluice → Sluice) (b : Block) : (updSlu f b).legal = b.legal := rfl
@[simp] theorem updSlu_auth (f : Sluice → Sluice) (b : Block) : (updSlu f b).auth = b.auth := rfl
@[simp] theorem updSlu_backup (f : Sluice → Sluice) (b : Block) : (updSlu f b).backup = b.backup := rfl
@[simp] theorem updSlu_bri (f : Sluice → Sluice) (b : Block) : (updSlu f b).bri = b.bri := rfl
@[simp] theorem updSlu_key (f : Sluice → Sluice) (b : Block) : (updSlu f b).key = b.key := rfl
@[simp] theorem updSlu_mbx (f : Sluice → Sluice) (b : Block) : (updSlu f b).mbx = b.mbx := rfl
@[simp] theorem updSlu_hp (f : Sluice → Sluice) (b : Block) : (updSlu f b).hp = b.hp := rfl
@[simp] theorem updSlu_hic (f : Sluice → Sluice) (b : Block) : (updSlu f b).hic = b.hic := rfl
@[simp] theorem updSlu_qmg (f : Sluice → Sluice) (b : Block) : (updSlu f b).qmg = b.qmg := rfl
@[simp] theorem updSlu_cwy (f : Sluice → Sluice) (b : Block) : (updSlu f b).cwy = b.cwy := rfl
@[simp] theorem updSlu_cwyX (f : Sluice → Sluice) (b : Block) : (updSlu f b).cwyX = b.cwyX := rfl
@[simp] theorem updSlu_pnl (f : Sluice → Sluice) (b : Block) : (updSlu f b).pnl = b.pnl := rfl
@[simp] theorem updSlu_frames (f : Sluice → Sluice) (b : Block) : (updSlu f b).frames = b.frames := rfl
@[simp] theorem updSlu_nfc (f : Sluice → Sluice) (b : Block) : (updSlu f b).nfc = b.nfc := rfl
@[simp] theorem updSlu_rst (f : Sluice → Sluice) (b : Block) : (updSlu f b).rst = b.rst := rfl
@[simp] theorem updSlu_upd (f : Sluice → Sluice) (b : Block) : (updSlu f b).upd = b.upd := rfl
@[simp] theorem updSlu_btn (f : Sluice → Sluice) (b : Block) : (updSlu f b).btn = b.btn := rfl
@[simp] theorem updSlu_dmp (f : Sluice → Sluice) (b : Block) : (updSlu f b).dmp = b.dmp := rfl
@[simp] theorem updSlu_rpl (f : Sluice → Sluice) (b : Block) : (updSlu f b).rpl = b.rpl := rfl
@[simp] theorem updSlu_dbg (f : Sluice → Sluice) (b : Block) : (updSlu f b).dbg = b.dbg := rfl
@[simp] theorem updSlu_settings (f : Sluice → Sluice) (b : Block) : (updSlu f b).settings = b.settings := rfl
@[simp] theorem updSlu_newSettings (f : Sluice → Sluice) (b : Block) : (updSlu f b).newSettings = b.newSettings := rfl
@[simp] theorem updSlu_legalSet (f : Sluice → Sluice) (b : Block) : (updSlu f b).legalSet = b.legalSet := rfl
@[simp] theorem updSlu_updRec (f : Sluice → Sluice) (b : Block) : (updSlu f b).updRec = b.updRec := rfl
@[simp] theorem updSlu_kept (f : Sluice → Sluice) (b : Block) : (updSlu f b).kept = b.kept := rfl
@[simp] theorem updSlu_prior (f : Sluice → Sluice) (b : Block) : (updSlu f b).prior = b.prior := rfl
@[simp] theorem updSlu_slu (f : Sluice → Sluice) (b : Block) : (updSlu f b).slu = f b.slu := rfl
@[simp] theorem updImd_tide (n : Fin 16) (f : ImdNode → ImdNode) (b : Block) : (updImd n f b).tide = b.tide := rfl
@[simp] theorem updImd_lau (n : Fin 16) (f : ImdNode → ImdNode) (b : Block) : (updImd n f b).lau = b.lau := rfl
@[simp] theorem updImd_snaps (n : Fin 16) (f : ImdNode → ImdNode) (b : Block) : (updImd n f b).snaps = b.snaps := rfl
@[simp] theorem updImd_barrier (n : Fin 16) (f : ImdNode → ImdNode) (b : Block) : (updImd n f b).barrier = b.barrier := rfl
@[simp] theorem updImd_fab (n : Fin 16) (f : ImdNode → ImdNode) (b : Block) : (updImd n f b).fab = b.fab := rfl
@[simp] theorem updImd_d2d (n : Fin 16) (f : ImdNode → ImdNode) (b : Block) : (updImd n f b).d2d = b.d2d := rfl
@[simp] theorem updImd_cross (n : Fin 16) (f : ImdNode → ImdNode) (b : Block) : (updImd n f b).cross = b.cross := rfl
@[simp] theorem updImd_met (n : Fin 16) (f : ImdNode → ImdNode) (b : Block) : (updImd n f b).met = b.met := rfl
@[simp] theorem updImd_acc (n : Fin 16) (f : ImdNode → ImdNode) (b : Block) : (updImd n f b).acc = b.acc := rfl
@[simp] theorem updImd_pq (n : Fin 16) (f : ImdNode → ImdNode) (b : Block) : (updImd n f b).pq = b.pq := rfl
@[simp] theorem updImd_sess (n : Fin 16) (f : ImdNode → ImdNode) (b : Block) : (updImd n f b).sess = b.sess := rfl
@[simp] theorem updImd_slu (n : Fin 16) (f : ImdNode → ImdNode) (b : Block) : (updImd n f b).slu = b.slu := rfl
@[simp] theorem updImd_sluCnt (n : Fin 16) (f : ImdNode → ImdNode) (b : Block) : (updImd n f b).sluCnt = b.sluCnt := rfl
@[simp] theorem updImd_mlk (n : Fin 16) (f : ImdNode → ImdNode) (b : Block) : (updImd n f b).mlk = b.mlk := rfl
@[simp] theorem updImd_veh (n : Fin 16) (f : ImdNode → ImdNode) (b : Block) : (updImd n f b).veh = b.veh := rfl
@[simp] theorem updImd_vehCfg (n : Fin 16) (f : ImdNode → ImdNode) (b : Block) : (updImd n f b).vehCfg = b.vehCfg := rfl
@[simp] theorem updImd_plc (n : Fin 16) (f : ImdNode → ImdNode) (b : Block) : (updImd n f b).plc = b.plc := rfl
@[simp] theorem updImd_plcCfg (n : Fin 16) (f : ImdNode → ImdNode) (b : Block) : (updImd n f b).plcCfg = b.plcCfg := rfl
@[simp] theorem updImd_v2g (n : Fin 16) (f : ImdNode → ImdNode) (b : Block) : (updImd n f b).v2g = b.v2g := rfl
@[simp] theorem updImd_v2gCfg (n : Fin 16) (f : ImdNode → ImdNode) (b : Block) : (updImd n f b).v2gCfg = b.v2gCfg := rfl
@[simp] theorem updImd_imdG (n : Fin 16) (f : ImdNode → ImdNode) (b : Block) : (updImd n f b).imdG = b.imdG := rfl
@[simp] theorem updImd_rcm (n : Fin 16) (f : ImdNode → ImdNode) (b : Block) : (updImd n f b).rcm = b.rcm := rfl
@[simp] theorem updImd_rcmTest (n : Fin 16) (f : ImdNode → ImdNode) (b : Block) : (updImd n f b).rcmTest = b.rcmTest := rfl
@[simp] theorem updImd_saf (n : Fin 16) (f : ImdNode → ImdNode) (b : Block) : (updImd n f b).saf = b.saf := rfl
@[simp] theorem updImd_safX (n : Fin 16) (f : ImdNode → ImdNode) (b : Block) : (updImd n f b).safX = b.safX := rfl
@[simp] theorem updImd_lsw (n : Fin 16) (f : ImdNode → ImdNode) (b : Block) : (updImd n f b).lsw = b.lsw := rfl
@[simp] theorem updImd_pea (n : Fin 16) (f : ImdNode → ImdNode) (b : Block) : (updImd n f b).pea = b.pea := rfl
@[simp] theorem updImd_arb (n : Fin 16) (f : ImdNode → ImdNode) (b : Block) : (updImd n f b).arb = b.arb := rfl
@[simp] theorem updImd_pf (n : Fin 16) (f : ImdNode → ImdNode) (b : Block) : (updImd n f b).pf = b.pf := rfl
@[simp] theorem updImd_slt (n : Fin 16) (f : ImdNode → ImdNode) (b : Block) : (updImd n f b).slt = b.slt := rfl
@[simp] theorem updImd_legal (n : Fin 16) (f : ImdNode → ImdNode) (b : Block) : (updImd n f b).legal = b.legal := rfl
@[simp] theorem updImd_auth (n : Fin 16) (f : ImdNode → ImdNode) (b : Block) : (updImd n f b).auth = b.auth := rfl
@[simp] theorem updImd_backup (n : Fin 16) (f : ImdNode → ImdNode) (b : Block) : (updImd n f b).backup = b.backup := rfl
@[simp] theorem updImd_bri (n : Fin 16) (f : ImdNode → ImdNode) (b : Block) : (updImd n f b).bri = b.bri := rfl
@[simp] theorem updImd_key (n : Fin 16) (f : ImdNode → ImdNode) (b : Block) : (updImd n f b).key = b.key := rfl
@[simp] theorem updImd_mbx (n : Fin 16) (f : ImdNode → ImdNode) (b : Block) : (updImd n f b).mbx = b.mbx := rfl
@[simp] theorem updImd_hp (n : Fin 16) (f : ImdNode → ImdNode) (b : Block) : (updImd n f b).hp = b.hp := rfl
@[simp] theorem updImd_hic (n : Fin 16) (f : ImdNode → ImdNode) (b : Block) : (updImd n f b).hic = b.hic := rfl
@[simp] theorem updImd_qmg (n : Fin 16) (f : ImdNode → ImdNode) (b : Block) : (updImd n f b).qmg = b.qmg := rfl
@[simp] theorem updImd_cwy (n : Fin 16) (f : ImdNode → ImdNode) (b : Block) : (updImd n f b).cwy = b.cwy := rfl
@[simp] theorem updImd_cwyX (n : Fin 16) (f : ImdNode → ImdNode) (b : Block) : (updImd n f b).cwyX = b.cwyX := rfl
@[simp] theorem updImd_pnl (n : Fin 16) (f : ImdNode → ImdNode) (b : Block) : (updImd n f b).pnl = b.pnl := rfl
@[simp] theorem updImd_frames (n : Fin 16) (f : ImdNode → ImdNode) (b : Block) : (updImd n f b).frames = b.frames := rfl
@[simp] theorem updImd_nfc (n : Fin 16) (f : ImdNode → ImdNode) (b : Block) : (updImd n f b).nfc = b.nfc := rfl
@[simp] theorem updImd_rst (n : Fin 16) (f : ImdNode → ImdNode) (b : Block) : (updImd n f b).rst = b.rst := rfl
@[simp] theorem updImd_upd (n : Fin 16) (f : ImdNode → ImdNode) (b : Block) : (updImd n f b).upd = b.upd := rfl
@[simp] theorem updImd_btn (n : Fin 16) (f : ImdNode → ImdNode) (b : Block) : (updImd n f b).btn = b.btn := rfl
@[simp] theorem updImd_dmp (n : Fin 16) (f : ImdNode → ImdNode) (b : Block) : (updImd n f b).dmp = b.dmp := rfl
@[simp] theorem updImd_rpl (n : Fin 16) (f : ImdNode → ImdNode) (b : Block) : (updImd n f b).rpl = b.rpl := rfl
@[simp] theorem updImd_dbg (n : Fin 16) (f : ImdNode → ImdNode) (b : Block) : (updImd n f b).dbg = b.dbg := rfl
@[simp] theorem updImd_settings (n : Fin 16) (f : ImdNode → ImdNode) (b : Block) : (updImd n f b).settings = b.settings := rfl
@[simp] theorem updImd_newSettings (n : Fin 16) (f : ImdNode → ImdNode) (b : Block) : (updImd n f b).newSettings = b.newSettings := rfl
@[simp] theorem updImd_legalSet (n : Fin 16) (f : ImdNode → ImdNode) (b : Block) : (updImd n f b).legalSet = b.legalSet := rfl
@[simp] theorem updImd_updRec (n : Fin 16) (f : ImdNode → ImdNode) (b : Block) : (updImd n f b).updRec = b.updRec := rfl
@[simp] theorem updImd_kept (n : Fin 16) (f : ImdNode → ImdNode) (b : Block) : (updImd n f b).kept = b.kept := rfl
@[simp] theorem updImd_prior (n : Fin 16) (f : ImdNode → ImdNode) (b : Block) : (updImd n f b).prior = b.prior := rfl
@[simp] theorem updImd_imd (n : Fin 16) (f : ImdNode → ImdNode) (b : Block) : (updImd n f b).imd = vupd b.imd n f := rfl
@[simp] theorem updImdG_tide (f : ImdGlobal → ImdGlobal) (b : Block) : (updImdG f b).tide = b.tide := rfl
@[simp] theorem updImdG_lau (f : ImdGlobal → ImdGlobal) (b : Block) : (updImdG f b).lau = b.lau := rfl
@[simp] theorem updImdG_snaps (f : ImdGlobal → ImdGlobal) (b : Block) : (updImdG f b).snaps = b.snaps := rfl
@[simp] theorem updImdG_barrier (f : ImdGlobal → ImdGlobal) (b : Block) : (updImdG f b).barrier = b.barrier := rfl
@[simp] theorem updImdG_fab (f : ImdGlobal → ImdGlobal) (b : Block) : (updImdG f b).fab = b.fab := rfl
@[simp] theorem updImdG_d2d (f : ImdGlobal → ImdGlobal) (b : Block) : (updImdG f b).d2d = b.d2d := rfl
@[simp] theorem updImdG_cross (f : ImdGlobal → ImdGlobal) (b : Block) : (updImdG f b).cross = b.cross := rfl
@[simp] theorem updImdG_met (f : ImdGlobal → ImdGlobal) (b : Block) : (updImdG f b).met = b.met := rfl
@[simp] theorem updImdG_acc (f : ImdGlobal → ImdGlobal) (b : Block) : (updImdG f b).acc = b.acc := rfl
@[simp] theorem updImdG_pq (f : ImdGlobal → ImdGlobal) (b : Block) : (updImdG f b).pq = b.pq := rfl
@[simp] theorem updImdG_sess (f : ImdGlobal → ImdGlobal) (b : Block) : (updImdG f b).sess = b.sess := rfl
@[simp] theorem updImdG_slu (f : ImdGlobal → ImdGlobal) (b : Block) : (updImdG f b).slu = b.slu := rfl
@[simp] theorem updImdG_sluCnt (f : ImdGlobal → ImdGlobal) (b : Block) : (updImdG f b).sluCnt = b.sluCnt := rfl
@[simp] theorem updImdG_mlk (f : ImdGlobal → ImdGlobal) (b : Block) : (updImdG f b).mlk = b.mlk := rfl
@[simp] theorem updImdG_veh (f : ImdGlobal → ImdGlobal) (b : Block) : (updImdG f b).veh = b.veh := rfl
@[simp] theorem updImdG_vehCfg (f : ImdGlobal → ImdGlobal) (b : Block) : (updImdG f b).vehCfg = b.vehCfg := rfl
@[simp] theorem updImdG_plc (f : ImdGlobal → ImdGlobal) (b : Block) : (updImdG f b).plc = b.plc := rfl
@[simp] theorem updImdG_plcCfg (f : ImdGlobal → ImdGlobal) (b : Block) : (updImdG f b).plcCfg = b.plcCfg := rfl
@[simp] theorem updImdG_v2g (f : ImdGlobal → ImdGlobal) (b : Block) : (updImdG f b).v2g = b.v2g := rfl
@[simp] theorem updImdG_v2gCfg (f : ImdGlobal → ImdGlobal) (b : Block) : (updImdG f b).v2gCfg = b.v2gCfg := rfl
@[simp] theorem updImdG_imd (f : ImdGlobal → ImdGlobal) (b : Block) : (updImdG f b).imd = b.imd := rfl
@[simp] theorem updImdG_rcm (f : ImdGlobal → ImdGlobal) (b : Block) : (updImdG f b).rcm = b.rcm := rfl
@[simp] theorem updImdG_rcmTest (f : ImdGlobal → ImdGlobal) (b : Block) : (updImdG f b).rcmTest = b.rcmTest := rfl
@[simp] theorem updImdG_saf (f : ImdGlobal → ImdGlobal) (b : Block) : (updImdG f b).saf = b.saf := rfl
@[simp] theorem updImdG_safX (f : ImdGlobal → ImdGlobal) (b : Block) : (updImdG f b).safX = b.safX := rfl
@[simp] theorem updImdG_lsw (f : ImdGlobal → ImdGlobal) (b : Block) : (updImdG f b).lsw = b.lsw := rfl
@[simp] theorem updImdG_pea (f : ImdGlobal → ImdGlobal) (b : Block) : (updImdG f b).pea = b.pea := rfl
@[simp] theorem updImdG_arb (f : ImdGlobal → ImdGlobal) (b : Block) : (updImdG f b).arb = b.arb := rfl
@[simp] theorem updImdG_pf (f : ImdGlobal → ImdGlobal) (b : Block) : (updImdG f b).pf = b.pf := rfl
@[simp] theorem updImdG_slt (f : ImdGlobal → ImdGlobal) (b : Block) : (updImdG f b).slt = b.slt := rfl
@[simp] theorem updImdG_legal (f : ImdGlobal → ImdGlobal) (b : Block) : (updImdG f b).legal = b.legal := rfl
@[simp] theorem updImdG_auth (f : ImdGlobal → ImdGlobal) (b : Block) : (updImdG f b).auth = b.auth := rfl
@[simp] theorem updImdG_backup (f : ImdGlobal → ImdGlobal) (b : Block) : (updImdG f b).backup = b.backup := rfl
@[simp] theorem updImdG_bri (f : ImdGlobal → ImdGlobal) (b : Block) : (updImdG f b).bri = b.bri := rfl
@[simp] theorem updImdG_key (f : ImdGlobal → ImdGlobal) (b : Block) : (updImdG f b).key = b.key := rfl
@[simp] theorem updImdG_mbx (f : ImdGlobal → ImdGlobal) (b : Block) : (updImdG f b).mbx = b.mbx := rfl
@[simp] theorem updImdG_hp (f : ImdGlobal → ImdGlobal) (b : Block) : (updImdG f b).hp = b.hp := rfl
@[simp] theorem updImdG_hic (f : ImdGlobal → ImdGlobal) (b : Block) : (updImdG f b).hic = b.hic := rfl
@[simp] theorem updImdG_qmg (f : ImdGlobal → ImdGlobal) (b : Block) : (updImdG f b).qmg = b.qmg := rfl
@[simp] theorem updImdG_cwy (f : ImdGlobal → ImdGlobal) (b : Block) : (updImdG f b).cwy = b.cwy := rfl
@[simp] theorem updImdG_cwyX (f : ImdGlobal → ImdGlobal) (b : Block) : (updImdG f b).cwyX = b.cwyX := rfl
@[simp] theorem updImdG_pnl (f : ImdGlobal → ImdGlobal) (b : Block) : (updImdG f b).pnl = b.pnl := rfl
@[simp] theorem updImdG_frames (f : ImdGlobal → ImdGlobal) (b : Block) : (updImdG f b).frames = b.frames := rfl
@[simp] theorem updImdG_nfc (f : ImdGlobal → ImdGlobal) (b : Block) : (updImdG f b).nfc = b.nfc := rfl
@[simp] theorem updImdG_rst (f : ImdGlobal → ImdGlobal) (b : Block) : (updImdG f b).rst = b.rst := rfl
@[simp] theorem updImdG_upd (f : ImdGlobal → ImdGlobal) (b : Block) : (updImdG f b).upd = b.upd := rfl
@[simp] theorem updImdG_btn (f : ImdGlobal → ImdGlobal) (b : Block) : (updImdG f b).btn = b.btn := rfl
@[simp] theorem updImdG_dmp (f : ImdGlobal → ImdGlobal) (b : Block) : (updImdG f b).dmp = b.dmp := rfl
@[simp] theorem updImdG_rpl (f : ImdGlobal → ImdGlobal) (b : Block) : (updImdG f b).rpl = b.rpl := rfl
@[simp] theorem updImdG_dbg (f : ImdGlobal → ImdGlobal) (b : Block) : (updImdG f b).dbg = b.dbg := rfl
@[simp] theorem updImdG_settings (f : ImdGlobal → ImdGlobal) (b : Block) : (updImdG f b).settings = b.settings := rfl
@[simp] theorem updImdG_newSettings (f : ImdGlobal → ImdGlobal) (b : Block) : (updImdG f b).newSettings = b.newSettings := rfl
@[simp] theorem updImdG_legalSet (f : ImdGlobal → ImdGlobal) (b : Block) : (updImdG f b).legalSet = b.legalSet := rfl
@[simp] theorem updImdG_updRec (f : ImdGlobal → ImdGlobal) (b : Block) : (updImdG f b).updRec = b.updRec := rfl
@[simp] theorem updImdG_kept (f : ImdGlobal → ImdGlobal) (b : Block) : (updImdG f b).kept = b.kept := rfl
@[simp] theorem updImdG_prior (f : ImdGlobal → ImdGlobal) (b : Block) : (updImdG f b).prior = b.prior := rfl
@[simp] theorem updImdG_imdG (f : ImdGlobal → ImdGlobal) (b : Block) : (updImdG f b).imdG = f b.imdG := rfl
@[simp] theorem updRcm_tide (f : Fin 2) (g : Rcm → Rcm) (b : Block) : (updRcm f g b).tide = b.tide := rfl
@[simp] theorem updRcm_lau (f : Fin 2) (g : Rcm → Rcm) (b : Block) : (updRcm f g b).lau = b.lau := rfl
@[simp] theorem updRcm_snaps (f : Fin 2) (g : Rcm → Rcm) (b : Block) : (updRcm f g b).snaps = b.snaps := rfl
@[simp] theorem updRcm_barrier (f : Fin 2) (g : Rcm → Rcm) (b : Block) : (updRcm f g b).barrier = b.barrier := rfl
@[simp] theorem updRcm_fab (f : Fin 2) (g : Rcm → Rcm) (b : Block) : (updRcm f g b).fab = b.fab := rfl
@[simp] theorem updRcm_d2d (f : Fin 2) (g : Rcm → Rcm) (b : Block) : (updRcm f g b).d2d = b.d2d := rfl
@[simp] theorem updRcm_cross (f : Fin 2) (g : Rcm → Rcm) (b : Block) : (updRcm f g b).cross = b.cross := rfl
@[simp] theorem updRcm_met (f : Fin 2) (g : Rcm → Rcm) (b : Block) : (updRcm f g b).met = b.met := rfl
@[simp] theorem updRcm_acc (f : Fin 2) (g : Rcm → Rcm) (b : Block) : (updRcm f g b).acc = b.acc := rfl
@[simp] theorem updRcm_pq (f : Fin 2) (g : Rcm → Rcm) (b : Block) : (updRcm f g b).pq = b.pq := rfl
@[simp] theorem updRcm_sess (f : Fin 2) (g : Rcm → Rcm) (b : Block) : (updRcm f g b).sess = b.sess := rfl
@[simp] theorem updRcm_slu (f : Fin 2) (g : Rcm → Rcm) (b : Block) : (updRcm f g b).slu = b.slu := rfl
@[simp] theorem updRcm_sluCnt (f : Fin 2) (g : Rcm → Rcm) (b : Block) : (updRcm f g b).sluCnt = b.sluCnt := rfl
@[simp] theorem updRcm_mlk (f : Fin 2) (g : Rcm → Rcm) (b : Block) : (updRcm f g b).mlk = b.mlk := rfl
@[simp] theorem updRcm_veh (f : Fin 2) (g : Rcm → Rcm) (b : Block) : (updRcm f g b).veh = b.veh := rfl
@[simp] theorem updRcm_vehCfg (f : Fin 2) (g : Rcm → Rcm) (b : Block) : (updRcm f g b).vehCfg = b.vehCfg := rfl
@[simp] theorem updRcm_plc (f : Fin 2) (g : Rcm → Rcm) (b : Block) : (updRcm f g b).plc = b.plc := rfl
@[simp] theorem updRcm_plcCfg (f : Fin 2) (g : Rcm → Rcm) (b : Block) : (updRcm f g b).plcCfg = b.plcCfg := rfl
@[simp] theorem updRcm_v2g (f : Fin 2) (g : Rcm → Rcm) (b : Block) : (updRcm f g b).v2g = b.v2g := rfl
@[simp] theorem updRcm_v2gCfg (f : Fin 2) (g : Rcm → Rcm) (b : Block) : (updRcm f g b).v2gCfg = b.v2gCfg := rfl
@[simp] theorem updRcm_imd (f : Fin 2) (g : Rcm → Rcm) (b : Block) : (updRcm f g b).imd = b.imd := rfl
@[simp] theorem updRcm_imdG (f : Fin 2) (g : Rcm → Rcm) (b : Block) : (updRcm f g b).imdG = b.imdG := rfl
@[simp] theorem updRcm_rcmTest (f : Fin 2) (g : Rcm → Rcm) (b : Block) : (updRcm f g b).rcmTest = b.rcmTest := rfl
@[simp] theorem updRcm_saf (f : Fin 2) (g : Rcm → Rcm) (b : Block) : (updRcm f g b).saf = b.saf := rfl
@[simp] theorem updRcm_safX (f : Fin 2) (g : Rcm → Rcm) (b : Block) : (updRcm f g b).safX = b.safX := rfl
@[simp] theorem updRcm_lsw (f : Fin 2) (g : Rcm → Rcm) (b : Block) : (updRcm f g b).lsw = b.lsw := rfl
@[simp] theorem updRcm_pea (f : Fin 2) (g : Rcm → Rcm) (b : Block) : (updRcm f g b).pea = b.pea := rfl
@[simp] theorem updRcm_arb (f : Fin 2) (g : Rcm → Rcm) (b : Block) : (updRcm f g b).arb = b.arb := rfl
@[simp] theorem updRcm_pf (f : Fin 2) (g : Rcm → Rcm) (b : Block) : (updRcm f g b).pf = b.pf := rfl
@[simp] theorem updRcm_slt (f : Fin 2) (g : Rcm → Rcm) (b : Block) : (updRcm f g b).slt = b.slt := rfl
@[simp] theorem updRcm_legal (f : Fin 2) (g : Rcm → Rcm) (b : Block) : (updRcm f g b).legal = b.legal := rfl
@[simp] theorem updRcm_auth (f : Fin 2) (g : Rcm → Rcm) (b : Block) : (updRcm f g b).auth = b.auth := rfl
@[simp] theorem updRcm_backup (f : Fin 2) (g : Rcm → Rcm) (b : Block) : (updRcm f g b).backup = b.backup := rfl
@[simp] theorem updRcm_bri (f : Fin 2) (g : Rcm → Rcm) (b : Block) : (updRcm f g b).bri = b.bri := rfl
@[simp] theorem updRcm_key (f : Fin 2) (g : Rcm → Rcm) (b : Block) : (updRcm f g b).key = b.key := rfl
@[simp] theorem updRcm_mbx (f : Fin 2) (g : Rcm → Rcm) (b : Block) : (updRcm f g b).mbx = b.mbx := rfl
@[simp] theorem updRcm_hp (f : Fin 2) (g : Rcm → Rcm) (b : Block) : (updRcm f g b).hp = b.hp := rfl
@[simp] theorem updRcm_hic (f : Fin 2) (g : Rcm → Rcm) (b : Block) : (updRcm f g b).hic = b.hic := rfl
@[simp] theorem updRcm_qmg (f : Fin 2) (g : Rcm → Rcm) (b : Block) : (updRcm f g b).qmg = b.qmg := rfl
@[simp] theorem updRcm_cwy (f : Fin 2) (g : Rcm → Rcm) (b : Block) : (updRcm f g b).cwy = b.cwy := rfl
@[simp] theorem updRcm_cwyX (f : Fin 2) (g : Rcm → Rcm) (b : Block) : (updRcm f g b).cwyX = b.cwyX := rfl
@[simp] theorem updRcm_pnl (f : Fin 2) (g : Rcm → Rcm) (b : Block) : (updRcm f g b).pnl = b.pnl := rfl
@[simp] theorem updRcm_frames (f : Fin 2) (g : Rcm → Rcm) (b : Block) : (updRcm f g b).frames = b.frames := rfl
@[simp] theorem updRcm_nfc (f : Fin 2) (g : Rcm → Rcm) (b : Block) : (updRcm f g b).nfc = b.nfc := rfl
@[simp] theorem updRcm_rst (f : Fin 2) (g : Rcm → Rcm) (b : Block) : (updRcm f g b).rst = b.rst := rfl
@[simp] theorem updRcm_upd (f : Fin 2) (g : Rcm → Rcm) (b : Block) : (updRcm f g b).upd = b.upd := rfl
@[simp] theorem updRcm_btn (f : Fin 2) (g : Rcm → Rcm) (b : Block) : (updRcm f g b).btn = b.btn := rfl
@[simp] theorem updRcm_dmp (f : Fin 2) (g : Rcm → Rcm) (b : Block) : (updRcm f g b).dmp = b.dmp := rfl
@[simp] theorem updRcm_rpl (f : Fin 2) (g : Rcm → Rcm) (b : Block) : (updRcm f g b).rpl = b.rpl := rfl
@[simp] theorem updRcm_dbg (f : Fin 2) (g : Rcm → Rcm) (b : Block) : (updRcm f g b).dbg = b.dbg := rfl
@[simp] theorem updRcm_settings (f : Fin 2) (g : Rcm → Rcm) (b : Block) : (updRcm f g b).settings = b.settings := rfl
@[simp] theorem updRcm_newSettings (f : Fin 2) (g : Rcm → Rcm) (b : Block) : (updRcm f g b).newSettings = b.newSettings := rfl
@[simp] theorem updRcm_legalSet (f : Fin 2) (g : Rcm → Rcm) (b : Block) : (updRcm f g b).legalSet = b.legalSet := rfl
@[simp] theorem updRcm_updRec (f : Fin 2) (g : Rcm → Rcm) (b : Block) : (updRcm f g b).updRec = b.updRec := rfl
@[simp] theorem updRcm_kept (f : Fin 2) (g : Rcm → Rcm) (b : Block) : (updRcm f g b).kept = b.kept := rfl
@[simp] theorem updRcm_prior (f : Fin 2) (g : Rcm → Rcm) (b : Block) : (updRcm f g b).prior = b.prior := rfl
@[simp] theorem updRcm_rcm (f : Fin 2) (g : Rcm → Rcm) (b : Block) : (updRcm f g b).rcm = vupd b.rcm f g := rfl
@[simp] theorem setRing_tide (r : Nat) (x : Ring) (b : Block) : (setRing r x b).tide = b.tide := rfl
@[simp] theorem setRing_snaps (r : Nat) (x : Ring) (b : Block) : (setRing r x b).snaps = b.snaps := rfl
@[simp] theorem setRing_barrier (r : Nat) (x : Ring) (b : Block) : (setRing r x b).barrier = b.barrier := rfl
@[simp] theorem setRing_fab (r : Nat) (x : Ring) (b : Block) : (setRing r x b).fab = b.fab := rfl
@[simp] theorem setRing_d2d (r : Nat) (x : Ring) (b : Block) : (setRing r x b).d2d = b.d2d := rfl
@[simp] theorem setRing_cross (r : Nat) (x : Ring) (b : Block) : (setRing r x b).cross = b.cross := rfl
@[simp] theorem setRing_met (r : Nat) (x : Ring) (b : Block) : (setRing r x b).met = b.met := rfl
@[simp] theorem setRing_acc (r : Nat) (x : Ring) (b : Block) : (setRing r x b).acc = b.acc := rfl
@[simp] theorem setRing_pq (r : Nat) (x : Ring) (b : Block) : (setRing r x b).pq = b.pq := rfl
@[simp] theorem setRing_sess (r : Nat) (x : Ring) (b : Block) : (setRing r x b).sess = b.sess := rfl
@[simp] theorem setRing_slu (r : Nat) (x : Ring) (b : Block) : (setRing r x b).slu = b.slu := rfl
@[simp] theorem setRing_sluCnt (r : Nat) (x : Ring) (b : Block) : (setRing r x b).sluCnt = b.sluCnt := rfl
@[simp] theorem setRing_mlk (r : Nat) (x : Ring) (b : Block) : (setRing r x b).mlk = b.mlk := rfl
@[simp] theorem setRing_veh (r : Nat) (x : Ring) (b : Block) : (setRing r x b).veh = b.veh := rfl
@[simp] theorem setRing_vehCfg (r : Nat) (x : Ring) (b : Block) : (setRing r x b).vehCfg = b.vehCfg := rfl
@[simp] theorem setRing_plc (r : Nat) (x : Ring) (b : Block) : (setRing r x b).plc = b.plc := rfl
@[simp] theorem setRing_plcCfg (r : Nat) (x : Ring) (b : Block) : (setRing r x b).plcCfg = b.plcCfg := rfl
@[simp] theorem setRing_v2g (r : Nat) (x : Ring) (b : Block) : (setRing r x b).v2g = b.v2g := rfl
@[simp] theorem setRing_v2gCfg (r : Nat) (x : Ring) (b : Block) : (setRing r x b).v2gCfg = b.v2gCfg := rfl
@[simp] theorem setRing_imd (r : Nat) (x : Ring) (b : Block) : (setRing r x b).imd = b.imd := rfl
@[simp] theorem setRing_imdG (r : Nat) (x : Ring) (b : Block) : (setRing r x b).imdG = b.imdG := rfl
@[simp] theorem setRing_rcm (r : Nat) (x : Ring) (b : Block) : (setRing r x b).rcm = b.rcm := rfl
@[simp] theorem setRing_rcmTest (r : Nat) (x : Ring) (b : Block) : (setRing r x b).rcmTest = b.rcmTest := rfl
@[simp] theorem setRing_saf (r : Nat) (x : Ring) (b : Block) : (setRing r x b).saf = b.saf := rfl
@[simp] theorem setRing_safX (r : Nat) (x : Ring) (b : Block) : (setRing r x b).safX = b.safX := rfl
@[simp] theorem setRing_lsw (r : Nat) (x : Ring) (b : Block) : (setRing r x b).lsw = b.lsw := rfl
@[simp] theorem setRing_pea (r : Nat) (x : Ring) (b : Block) : (setRing r x b).pea = b.pea := rfl
@[simp] theorem setRing_arb (r : Nat) (x : Ring) (b : Block) : (setRing r x b).arb = b.arb := rfl
@[simp] theorem setRing_pf (r : Nat) (x : Ring) (b : Block) : (setRing r x b).pf = b.pf := rfl
@[simp] theorem setRing_slt (r : Nat) (x : Ring) (b : Block) : (setRing r x b).slt = b.slt := rfl
@[simp] theorem setRing_legal (r : Nat) (x : Ring) (b : Block) : (setRing r x b).legal = b.legal := rfl
@[simp] theorem setRing_auth (r : Nat) (x : Ring) (b : Block) : (setRing r x b).auth = b.auth := rfl
@[simp] theorem setRing_backup (r : Nat) (x : Ring) (b : Block) : (setRing r x b).backup = b.backup := rfl
@[simp] theorem setRing_bri (r : Nat) (x : Ring) (b : Block) : (setRing r x b).bri = b.bri := rfl
@[simp] theorem setRing_key (r : Nat) (x : Ring) (b : Block) : (setRing r x b).key = b.key := rfl
@[simp] theorem setRing_mbx (r : Nat) (x : Ring) (b : Block) : (setRing r x b).mbx = b.mbx := rfl
@[simp] theorem setRing_hp (r : Nat) (x : Ring) (b : Block) : (setRing r x b).hp = b.hp := rfl
@[simp] theorem setRing_hic (r : Nat) (x : Ring) (b : Block) : (setRing r x b).hic = b.hic := rfl
@[simp] theorem setRing_qmg (r : Nat) (x : Ring) (b : Block) : (setRing r x b).qmg = b.qmg := rfl
@[simp] theorem setRing_cwy (r : Nat) (x : Ring) (b : Block) : (setRing r x b).cwy = b.cwy := rfl
@[simp] theorem setRing_cwyX (r : Nat) (x : Ring) (b : Block) : (setRing r x b).cwyX = b.cwyX := rfl
@[simp] theorem setRing_pnl (r : Nat) (x : Ring) (b : Block) : (setRing r x b).pnl = b.pnl := rfl
@[simp] theorem setRing_frames (r : Nat) (x : Ring) (b : Block) : (setRing r x b).frames = b.frames := rfl
@[simp] theorem setRing_nfc (r : Nat) (x : Ring) (b : Block) : (setRing r x b).nfc = b.nfc := rfl
@[simp] theorem setRing_rst (r : Nat) (x : Ring) (b : Block) : (setRing r x b).rst = b.rst := rfl
@[simp] theorem setRing_upd (r : Nat) (x : Ring) (b : Block) : (setRing r x b).upd = b.upd := rfl
@[simp] theorem setRing_btn (r : Nat) (x : Ring) (b : Block) : (setRing r x b).btn = b.btn := rfl
@[simp] theorem setRing_dmp (r : Nat) (x : Ring) (b : Block) : (setRing r x b).dmp = b.dmp := rfl
@[simp] theorem setRing_rpl (r : Nat) (x : Ring) (b : Block) : (setRing r x b).rpl = b.rpl := rfl
@[simp] theorem setRing_dbg (r : Nat) (x : Ring) (b : Block) : (setRing r x b).dbg = b.dbg := rfl
@[simp] theorem setRing_settings (r : Nat) (x : Ring) (b : Block) : (setRing r x b).settings = b.settings := rfl
@[simp] theorem setRing_newSettings (r : Nat) (x : Ring) (b : Block) : (setRing r x b).newSettings = b.newSettings := rfl
@[simp] theorem setRing_legalSet (r : Nat) (x : Ring) (b : Block) : (setRing r x b).legalSet = b.legalSet := rfl
@[simp] theorem setRing_updRec (r : Nat) (x : Ring) (b : Block) : (setRing r x b).updRec = b.updRec := rfl
@[simp] theorem setRing_kept (r : Nat) (x : Ring) (b : Block) : (setRing r x b).kept = b.kept := rfl
@[simp] theorem setRing_prior (r : Nat) (x : Ring) (b : Block) : (setRing r x b).prior = b.prior := rfl
@[simp] theorem setRing_lau (r : Nat) (x : Ring) (b : Block) : (setRing r x b).lau = { b.lau with rings := sput {} b.lau.rings r x } := rfl
@[simp] theorem setMbx_tide (m : Fin 4) (x : Mailbox) (b : Block) : (setMbx m x b).tide = b.tide := rfl
@[simp] theorem setMbx_lau (m : Fin 4) (x : Mailbox) (b : Block) : (setMbx m x b).lau = b.lau := rfl
@[simp] theorem setMbx_snaps (m : Fin 4) (x : Mailbox) (b : Block) : (setMbx m x b).snaps = b.snaps := rfl
@[simp] theorem setMbx_barrier (m : Fin 4) (x : Mailbox) (b : Block) : (setMbx m x b).barrier = b.barrier := rfl
@[simp] theorem setMbx_fab (m : Fin 4) (x : Mailbox) (b : Block) : (setMbx m x b).fab = b.fab := rfl
@[simp] theorem setMbx_d2d (m : Fin 4) (x : Mailbox) (b : Block) : (setMbx m x b).d2d = b.d2d := rfl
@[simp] theorem setMbx_cross (m : Fin 4) (x : Mailbox) (b : Block) : (setMbx m x b).cross = b.cross := rfl
@[simp] theorem setMbx_met (m : Fin 4) (x : Mailbox) (b : Block) : (setMbx m x b).met = b.met := rfl
@[simp] theorem setMbx_acc (m : Fin 4) (x : Mailbox) (b : Block) : (setMbx m x b).acc = b.acc := rfl
@[simp] theorem setMbx_pq (m : Fin 4) (x : Mailbox) (b : Block) : (setMbx m x b).pq = b.pq := rfl
@[simp] theorem setMbx_sess (m : Fin 4) (x : Mailbox) (b : Block) : (setMbx m x b).sess = b.sess := rfl
@[simp] theorem setMbx_slu (m : Fin 4) (x : Mailbox) (b : Block) : (setMbx m x b).slu = b.slu := rfl
@[simp] theorem setMbx_sluCnt (m : Fin 4) (x : Mailbox) (b : Block) : (setMbx m x b).sluCnt = b.sluCnt := rfl
@[simp] theorem setMbx_mlk (m : Fin 4) (x : Mailbox) (b : Block) : (setMbx m x b).mlk = b.mlk := rfl
@[simp] theorem setMbx_veh (m : Fin 4) (x : Mailbox) (b : Block) : (setMbx m x b).veh = b.veh := rfl
@[simp] theorem setMbx_vehCfg (m : Fin 4) (x : Mailbox) (b : Block) : (setMbx m x b).vehCfg = b.vehCfg := rfl
@[simp] theorem setMbx_plc (m : Fin 4) (x : Mailbox) (b : Block) : (setMbx m x b).plc = b.plc := rfl
@[simp] theorem setMbx_plcCfg (m : Fin 4) (x : Mailbox) (b : Block) : (setMbx m x b).plcCfg = b.plcCfg := rfl
@[simp] theorem setMbx_v2g (m : Fin 4) (x : Mailbox) (b : Block) : (setMbx m x b).v2g = b.v2g := rfl
@[simp] theorem setMbx_v2gCfg (m : Fin 4) (x : Mailbox) (b : Block) : (setMbx m x b).v2gCfg = b.v2gCfg := rfl
@[simp] theorem setMbx_imd (m : Fin 4) (x : Mailbox) (b : Block) : (setMbx m x b).imd = b.imd := rfl
@[simp] theorem setMbx_imdG (m : Fin 4) (x : Mailbox) (b : Block) : (setMbx m x b).imdG = b.imdG := rfl
@[simp] theorem setMbx_rcm (m : Fin 4) (x : Mailbox) (b : Block) : (setMbx m x b).rcm = b.rcm := rfl
@[simp] theorem setMbx_rcmTest (m : Fin 4) (x : Mailbox) (b : Block) : (setMbx m x b).rcmTest = b.rcmTest := rfl
@[simp] theorem setMbx_saf (m : Fin 4) (x : Mailbox) (b : Block) : (setMbx m x b).saf = b.saf := rfl
@[simp] theorem setMbx_safX (m : Fin 4) (x : Mailbox) (b : Block) : (setMbx m x b).safX = b.safX := rfl
@[simp] theorem setMbx_lsw (m : Fin 4) (x : Mailbox) (b : Block) : (setMbx m x b).lsw = b.lsw := rfl
@[simp] theorem setMbx_pea (m : Fin 4) (x : Mailbox) (b : Block) : (setMbx m x b).pea = b.pea := rfl
@[simp] theorem setMbx_arb (m : Fin 4) (x : Mailbox) (b : Block) : (setMbx m x b).arb = b.arb := rfl
@[simp] theorem setMbx_pf (m : Fin 4) (x : Mailbox) (b : Block) : (setMbx m x b).pf = b.pf := rfl
@[simp] theorem setMbx_slt (m : Fin 4) (x : Mailbox) (b : Block) : (setMbx m x b).slt = b.slt := rfl
@[simp] theorem setMbx_legal (m : Fin 4) (x : Mailbox) (b : Block) : (setMbx m x b).legal = b.legal := rfl
@[simp] theorem setMbx_auth (m : Fin 4) (x : Mailbox) (b : Block) : (setMbx m x b).auth = b.auth := rfl
@[simp] theorem setMbx_backup (m : Fin 4) (x : Mailbox) (b : Block) : (setMbx m x b).backup = b.backup := rfl
@[simp] theorem setMbx_bri (m : Fin 4) (x : Mailbox) (b : Block) : (setMbx m x b).bri = b.bri := rfl
@[simp] theorem setMbx_key (m : Fin 4) (x : Mailbox) (b : Block) : (setMbx m x b).key = b.key := rfl
@[simp] theorem setMbx_hp (m : Fin 4) (x : Mailbox) (b : Block) : (setMbx m x b).hp = b.hp := rfl
@[simp] theorem setMbx_hic (m : Fin 4) (x : Mailbox) (b : Block) : (setMbx m x b).hic = b.hic := rfl
@[simp] theorem setMbx_qmg (m : Fin 4) (x : Mailbox) (b : Block) : (setMbx m x b).qmg = b.qmg := rfl
@[simp] theorem setMbx_cwy (m : Fin 4) (x : Mailbox) (b : Block) : (setMbx m x b).cwy = b.cwy := rfl
@[simp] theorem setMbx_cwyX (m : Fin 4) (x : Mailbox) (b : Block) : (setMbx m x b).cwyX = b.cwyX := rfl
@[simp] theorem setMbx_pnl (m : Fin 4) (x : Mailbox) (b : Block) : (setMbx m x b).pnl = b.pnl := rfl
@[simp] theorem setMbx_frames (m : Fin 4) (x : Mailbox) (b : Block) : (setMbx m x b).frames = b.frames := rfl
@[simp] theorem setMbx_nfc (m : Fin 4) (x : Mailbox) (b : Block) : (setMbx m x b).nfc = b.nfc := rfl
@[simp] theorem setMbx_rst (m : Fin 4) (x : Mailbox) (b : Block) : (setMbx m x b).rst = b.rst := rfl
@[simp] theorem setMbx_upd (m : Fin 4) (x : Mailbox) (b : Block) : (setMbx m x b).upd = b.upd := rfl
@[simp] theorem setMbx_btn (m : Fin 4) (x : Mailbox) (b : Block) : (setMbx m x b).btn = b.btn := rfl
@[simp] theorem setMbx_dmp (m : Fin 4) (x : Mailbox) (b : Block) : (setMbx m x b).dmp = b.dmp := rfl
@[simp] theorem setMbx_rpl (m : Fin 4) (x : Mailbox) (b : Block) : (setMbx m x b).rpl = b.rpl := rfl
@[simp] theorem setMbx_dbg (m : Fin 4) (x : Mailbox) (b : Block) : (setMbx m x b).dbg = b.dbg := rfl
@[simp] theorem setMbx_settings (m : Fin 4) (x : Mailbox) (b : Block) : (setMbx m x b).settings = b.settings := rfl
@[simp] theorem setMbx_newSettings (m : Fin 4) (x : Mailbox) (b : Block) : (setMbx m x b).newSettings = b.newSettings := rfl
@[simp] theorem setMbx_legalSet (m : Fin 4) (x : Mailbox) (b : Block) : (setMbx m x b).legalSet = b.legalSet := rfl
@[simp] theorem setMbx_updRec (m : Fin 4) (x : Mailbox) (b : Block) : (setMbx m x b).updRec = b.updRec := rfl
@[simp] theorem setMbx_kept (m : Fin 4) (x : Mailbox) (b : Block) : (setMbx m x b).kept = b.kept := rfl
@[simp] theorem setMbx_prior (m : Fin 4) (x : Mailbox) (b : Block) : (setMbx m x b).prior = b.prior := rfl
@[simp] theorem setMbx_mbx (m : Fin 4) (x : Mailbox) (b : Block) : (setMbx m x b).mbx = vset b.mbx m x := rfl
@[simp] theorem updChan_tide (c : Fin 48) (f : Chan → Chan) (b : Block) : (updChan c f b).tide = b.tide := rfl
@[simp] theorem updChan_lau (c : Fin 48) (f : Chan → Chan) (b : Block) : (updChan c f b).lau = b.lau := rfl
@[simp] theorem updChan_snaps (c : Fin 48) (f : Chan → Chan) (b : Block) : (updChan c f b).snaps = b.snaps := rfl
@[simp] theorem updChan_barrier (c : Fin 48) (f : Chan → Chan) (b : Block) : (updChan c f b).barrier = b.barrier := rfl
@[simp] theorem updChan_fab (c : Fin 48) (f : Chan → Chan) (b : Block) : (updChan c f b).fab = b.fab := rfl
@[simp] theorem updChan_d2d (c : Fin 48) (f : Chan → Chan) (b : Block) : (updChan c f b).d2d = b.d2d := rfl
@[simp] theorem updChan_cross (c : Fin 48) (f : Chan → Chan) (b : Block) : (updChan c f b).cross = b.cross := rfl
@[simp] theorem updChan_acc (c : Fin 48) (f : Chan → Chan) (b : Block) : (updChan c f b).acc = b.acc := rfl
@[simp] theorem updChan_pq (c : Fin 48) (f : Chan → Chan) (b : Block) : (updChan c f b).pq = b.pq := rfl
@[simp] theorem updChan_sess (c : Fin 48) (f : Chan → Chan) (b : Block) : (updChan c f b).sess = b.sess := rfl
@[simp] theorem updChan_slu (c : Fin 48) (f : Chan → Chan) (b : Block) : (updChan c f b).slu = b.slu := rfl
@[simp] theorem updChan_sluCnt (c : Fin 48) (f : Chan → Chan) (b : Block) : (updChan c f b).sluCnt = b.sluCnt := rfl
@[simp] theorem updChan_mlk (c : Fin 48) (f : Chan → Chan) (b : Block) : (updChan c f b).mlk = b.mlk := rfl
@[simp] theorem updChan_veh (c : Fin 48) (f : Chan → Chan) (b : Block) : (updChan c f b).veh = b.veh := rfl
@[simp] theorem updChan_vehCfg (c : Fin 48) (f : Chan → Chan) (b : Block) : (updChan c f b).vehCfg = b.vehCfg := rfl
@[simp] theorem updChan_plc (c : Fin 48) (f : Chan → Chan) (b : Block) : (updChan c f b).plc = b.plc := rfl
@[simp] theorem updChan_plcCfg (c : Fin 48) (f : Chan → Chan) (b : Block) : (updChan c f b).plcCfg = b.plcCfg := rfl
@[simp] theorem updChan_v2g (c : Fin 48) (f : Chan → Chan) (b : Block) : (updChan c f b).v2g = b.v2g := rfl
@[simp] theorem updChan_v2gCfg (c : Fin 48) (f : Chan → Chan) (b : Block) : (updChan c f b).v2gCfg = b.v2gCfg := rfl
@[simp] theorem updChan_imd (c : Fin 48) (f : Chan → Chan) (b : Block) : (updChan c f b).imd = b.imd := rfl
@[simp] theorem updChan_imdG (c : Fin 48) (f : Chan → Chan) (b : Block) : (updChan c f b).imdG = b.imdG := rfl
@[simp] theorem updChan_rcm (c : Fin 48) (f : Chan → Chan) (b : Block) : (updChan c f b).rcm = b.rcm := rfl
@[simp] theorem updChan_rcmTest (c : Fin 48) (f : Chan → Chan) (b : Block) : (updChan c f b).rcmTest = b.rcmTest := rfl
@[simp] theorem updChan_saf (c : Fin 48) (f : Chan → Chan) (b : Block) : (updChan c f b).saf = b.saf := rfl
@[simp] theorem updChan_safX (c : Fin 48) (f : Chan → Chan) (b : Block) : (updChan c f b).safX = b.safX := rfl
@[simp] theorem updChan_lsw (c : Fin 48) (f : Chan → Chan) (b : Block) : (updChan c f b).lsw = b.lsw := rfl
@[simp] theorem updChan_pea (c : Fin 48) (f : Chan → Chan) (b : Block) : (updChan c f b).pea = b.pea := rfl
@[simp] theorem updChan_arb (c : Fin 48) (f : Chan → Chan) (b : Block) : (updChan c f b).arb = b.arb := rfl
@[simp] theorem updChan_pf (c : Fin 48) (f : Chan → Chan) (b : Block) : (updChan c f b).pf = b.pf := rfl
@[simp] theorem updChan_slt (c : Fin 48) (f : Chan → Chan) (b : Block) : (updChan c f b).slt = b.slt := rfl
@[simp] theorem updChan_legal (c : Fin 48) (f : Chan → Chan) (b : Block) : (updChan c f b).legal = b.legal := rfl
@[simp] theorem updChan_auth (c : Fin 48) (f : Chan → Chan) (b : Block) : (updChan c f b).auth = b.auth := rfl
@[simp] theorem updChan_backup (c : Fin 48) (f : Chan → Chan) (b : Block) : (updChan c f b).backup = b.backup := rfl
@[simp] theorem updChan_bri (c : Fin 48) (f : Chan → Chan) (b : Block) : (updChan c f b).bri = b.bri := rfl
@[simp] theorem updChan_key (c : Fin 48) (f : Chan → Chan) (b : Block) : (updChan c f b).key = b.key := rfl
@[simp] theorem updChan_mbx (c : Fin 48) (f : Chan → Chan) (b : Block) : (updChan c f b).mbx = b.mbx := rfl
@[simp] theorem updChan_hp (c : Fin 48) (f : Chan → Chan) (b : Block) : (updChan c f b).hp = b.hp := rfl
@[simp] theorem updChan_hic (c : Fin 48) (f : Chan → Chan) (b : Block) : (updChan c f b).hic = b.hic := rfl
@[simp] theorem updChan_qmg (c : Fin 48) (f : Chan → Chan) (b : Block) : (updChan c f b).qmg = b.qmg := rfl
@[simp] theorem updChan_cwy (c : Fin 48) (f : Chan → Chan) (b : Block) : (updChan c f b).cwy = b.cwy := rfl
@[simp] theorem updChan_cwyX (c : Fin 48) (f : Chan → Chan) (b : Block) : (updChan c f b).cwyX = b.cwyX := rfl
@[simp] theorem updChan_pnl (c : Fin 48) (f : Chan → Chan) (b : Block) : (updChan c f b).pnl = b.pnl := rfl
@[simp] theorem updChan_frames (c : Fin 48) (f : Chan → Chan) (b : Block) : (updChan c f b).frames = b.frames := rfl
@[simp] theorem updChan_nfc (c : Fin 48) (f : Chan → Chan) (b : Block) : (updChan c f b).nfc = b.nfc := rfl
@[simp] theorem updChan_rst (c : Fin 48) (f : Chan → Chan) (b : Block) : (updChan c f b).rst = b.rst := rfl
@[simp] theorem updChan_upd (c : Fin 48) (f : Chan → Chan) (b : Block) : (updChan c f b).upd = b.upd := rfl
@[simp] theorem updChan_btn (c : Fin 48) (f : Chan → Chan) (b : Block) : (updChan c f b).btn = b.btn := rfl
@[simp] theorem updChan_dmp (c : Fin 48) (f : Chan → Chan) (b : Block) : (updChan c f b).dmp = b.dmp := rfl
@[simp] theorem updChan_rpl (c : Fin 48) (f : Chan → Chan) (b : Block) : (updChan c f b).rpl = b.rpl := rfl
@[simp] theorem updChan_dbg (c : Fin 48) (f : Chan → Chan) (b : Block) : (updChan c f b).dbg = b.dbg := rfl
@[simp] theorem updChan_settings (c : Fin 48) (f : Chan → Chan) (b : Block) : (updChan c f b).settings = b.settings := rfl
@[simp] theorem updChan_newSettings (c : Fin 48) (f : Chan → Chan) (b : Block) : (updChan c f b).newSettings = b.newSettings := rfl
@[simp] theorem updChan_legalSet (c : Fin 48) (f : Chan → Chan) (b : Block) : (updChan c f b).legalSet = b.legalSet := rfl
@[simp] theorem updChan_updRec (c : Fin 48) (f : Chan → Chan) (b : Block) : (updChan c f b).updRec = b.updRec := rfl
@[simp] theorem updChan_kept (c : Fin 48) (f : Chan → Chan) (b : Block) : (updChan c f b).kept = b.kept := rfl
@[simp] theorem updChan_prior (c : Fin 48) (f : Chan → Chan) (b : Block) : (updChan c f b).prior = b.prior := rfl
@[simp] theorem updChan_met (c : Fin 48) (f : Chan → Chan) (b : Block) : (updChan c f b).met = { b.met with chans := vupd b.met.chans c f } := rfl
@[simp] theorem updMet_tide (f : Metrology → Metrology) (b : Block) : (updMet f b).tide = b.tide := rfl
@[simp] theorem updMet_lau (f : Metrology → Metrology) (b : Block) : (updMet f b).lau = b.lau := rfl
@[simp] theorem updMet_snaps (f : Metrology → Metrology) (b : Block) : (updMet f b).snaps = b.snaps := rfl
@[simp] theorem updMet_barrier (f : Metrology → Metrology) (b : Block) : (updMet f b).barrier = b.barrier := rfl
@[simp] theorem updMet_fab (f : Metrology → Metrology) (b : Block) : (updMet f b).fab = b.fab := rfl
@[simp] theorem updMet_d2d (f : Metrology → Metrology) (b : Block) : (updMet f b).d2d = b.d2d := rfl
@[simp] theorem updMet_cross (f : Metrology → Metrology) (b : Block) : (updMet f b).cross = b.cross := rfl
@[simp] theorem updMet_acc (f : Metrology → Metrology) (b : Block) : (updMet f b).acc = b.acc := rfl
@[simp] theorem updMet_pq (f : Metrology → Metrology) (b : Block) : (updMet f b).pq = b.pq := rfl
@[simp] theorem updMet_sess (f : Metrology → Metrology) (b : Block) : (updMet f b).sess = b.sess := rfl
@[simp] theorem updMet_slu (f : Metrology → Metrology) (b : Block) : (updMet f b).slu = b.slu := rfl
@[simp] theorem updMet_sluCnt (f : Metrology → Metrology) (b : Block) : (updMet f b).sluCnt = b.sluCnt := rfl
@[simp] theorem updMet_mlk (f : Metrology → Metrology) (b : Block) : (updMet f b).mlk = b.mlk := rfl
@[simp] theorem updMet_veh (f : Metrology → Metrology) (b : Block) : (updMet f b).veh = b.veh := rfl
@[simp] theorem updMet_vehCfg (f : Metrology → Metrology) (b : Block) : (updMet f b).vehCfg = b.vehCfg := rfl
@[simp] theorem updMet_plc (f : Metrology → Metrology) (b : Block) : (updMet f b).plc = b.plc := rfl
@[simp] theorem updMet_plcCfg (f : Metrology → Metrology) (b : Block) : (updMet f b).plcCfg = b.plcCfg := rfl
@[simp] theorem updMet_v2g (f : Metrology → Metrology) (b : Block) : (updMet f b).v2g = b.v2g := rfl
@[simp] theorem updMet_v2gCfg (f : Metrology → Metrology) (b : Block) : (updMet f b).v2gCfg = b.v2gCfg := rfl
@[simp] theorem updMet_imd (f : Metrology → Metrology) (b : Block) : (updMet f b).imd = b.imd := rfl
@[simp] theorem updMet_imdG (f : Metrology → Metrology) (b : Block) : (updMet f b).imdG = b.imdG := rfl
@[simp] theorem updMet_rcm (f : Metrology → Metrology) (b : Block) : (updMet f b).rcm = b.rcm := rfl
@[simp] theorem updMet_rcmTest (f : Metrology → Metrology) (b : Block) : (updMet f b).rcmTest = b.rcmTest := rfl
@[simp] theorem updMet_saf (f : Metrology → Metrology) (b : Block) : (updMet f b).saf = b.saf := rfl
@[simp] theorem updMet_safX (f : Metrology → Metrology) (b : Block) : (updMet f b).safX = b.safX := rfl
@[simp] theorem updMet_lsw (f : Metrology → Metrology) (b : Block) : (updMet f b).lsw = b.lsw := rfl
@[simp] theorem updMet_pea (f : Metrology → Metrology) (b : Block) : (updMet f b).pea = b.pea := rfl
@[simp] theorem updMet_arb (f : Metrology → Metrology) (b : Block) : (updMet f b).arb = b.arb := rfl
@[simp] theorem updMet_pf (f : Metrology → Metrology) (b : Block) : (updMet f b).pf = b.pf := rfl
@[simp] theorem updMet_slt (f : Metrology → Metrology) (b : Block) : (updMet f b).slt = b.slt := rfl
@[simp] theorem updMet_legal (f : Metrology → Metrology) (b : Block) : (updMet f b).legal = b.legal := rfl
@[simp] theorem updMet_auth (f : Metrology → Metrology) (b : Block) : (updMet f b).auth = b.auth := rfl
@[simp] theorem updMet_backup (f : Metrology → Metrology) (b : Block) : (updMet f b).backup = b.backup := rfl
@[simp] theorem updMet_bri (f : Metrology → Metrology) (b : Block) : (updMet f b).bri = b.bri := rfl
@[simp] theorem updMet_key (f : Metrology → Metrology) (b : Block) : (updMet f b).key = b.key := rfl
@[simp] theorem updMet_mbx (f : Metrology → Metrology) (b : Block) : (updMet f b).mbx = b.mbx := rfl
@[simp] theorem updMet_hp (f : Metrology → Metrology) (b : Block) : (updMet f b).hp = b.hp := rfl
@[simp] theorem updMet_hic (f : Metrology → Metrology) (b : Block) : (updMet f b).hic = b.hic := rfl
@[simp] theorem updMet_qmg (f : Metrology → Metrology) (b : Block) : (updMet f b).qmg = b.qmg := rfl
@[simp] theorem updMet_cwy (f : Metrology → Metrology) (b : Block) : (updMet f b).cwy = b.cwy := rfl
@[simp] theorem updMet_cwyX (f : Metrology → Metrology) (b : Block) : (updMet f b).cwyX = b.cwyX := rfl
@[simp] theorem updMet_pnl (f : Metrology → Metrology) (b : Block) : (updMet f b).pnl = b.pnl := rfl
@[simp] theorem updMet_frames (f : Metrology → Metrology) (b : Block) : (updMet f b).frames = b.frames := rfl
@[simp] theorem updMet_nfc (f : Metrology → Metrology) (b : Block) : (updMet f b).nfc = b.nfc := rfl
@[simp] theorem updMet_rst (f : Metrology → Metrology) (b : Block) : (updMet f b).rst = b.rst := rfl
@[simp] theorem updMet_upd (f : Metrology → Metrology) (b : Block) : (updMet f b).upd = b.upd := rfl
@[simp] theorem updMet_btn (f : Metrology → Metrology) (b : Block) : (updMet f b).btn = b.btn := rfl
@[simp] theorem updMet_dmp (f : Metrology → Metrology) (b : Block) : (updMet f b).dmp = b.dmp := rfl
@[simp] theorem updMet_rpl (f : Metrology → Metrology) (b : Block) : (updMet f b).rpl = b.rpl := rfl
@[simp] theorem updMet_dbg (f : Metrology → Metrology) (b : Block) : (updMet f b).dbg = b.dbg := rfl
@[simp] theorem updMet_settings (f : Metrology → Metrology) (b : Block) : (updMet f b).settings = b.settings := rfl
@[simp] theorem updMet_newSettings (f : Metrology → Metrology) (b : Block) : (updMet f b).newSettings = b.newSettings := rfl
@[simp] theorem updMet_legalSet (f : Metrology → Metrology) (b : Block) : (updMet f b).legalSet = b.legalSet := rfl
@[simp] theorem updMet_updRec (f : Metrology → Metrology) (b : Block) : (updMet f b).updRec = b.updRec := rfl
@[simp] theorem updMet_kept (f : Metrology → Metrology) (b : Block) : (updMet f b).kept = b.kept := rfl
@[simp] theorem updMet_prior (f : Metrology → Metrology) (b : Block) : (updMet f b).prior = b.prior := rfl
@[simp] theorem updMet_met (f : Metrology → Metrology) (b : Block) : (updMet f b).met = f b.met := rfl
@[simp] theorem updPair_tide (p : Fin 22) (f : Pair → Pair) (b : Block) : (updPair p f b).tide = b.tide := rfl
@[simp] theorem updPair_lau (p : Fin 22) (f : Pair → Pair) (b : Block) : (updPair p f b).lau = b.lau := rfl
@[simp] theorem updPair_snaps (p : Fin 22) (f : Pair → Pair) (b : Block) : (updPair p f b).snaps = b.snaps := rfl
@[simp] theorem updPair_barrier (p : Fin 22) (f : Pair → Pair) (b : Block) : (updPair p f b).barrier = b.barrier := rfl
@[simp] theorem updPair_fab (p : Fin 22) (f : Pair → Pair) (b : Block) : (updPair p f b).fab = b.fab := rfl
@[simp] theorem updPair_d2d (p : Fin 22) (f : Pair → Pair) (b : Block) : (updPair p f b).d2d = b.d2d := rfl
@[simp] theorem updPair_cross (p : Fin 22) (f : Pair → Pair) (b : Block) : (updPair p f b).cross = b.cross := rfl
@[simp] theorem updPair_met (p : Fin 22) (f : Pair → Pair) (b : Block) : (updPair p f b).met = b.met := rfl
@[simp] theorem updPair_pq (p : Fin 22) (f : Pair → Pair) (b : Block) : (updPair p f b).pq = b.pq := rfl
@[simp] theorem updPair_sess (p : Fin 22) (f : Pair → Pair) (b : Block) : (updPair p f b).sess = b.sess := rfl
@[simp] theorem updPair_slu (p : Fin 22) (f : Pair → Pair) (b : Block) : (updPair p f b).slu = b.slu := rfl
@[simp] theorem updPair_sluCnt (p : Fin 22) (f : Pair → Pair) (b : Block) : (updPair p f b).sluCnt = b.sluCnt := rfl
@[simp] theorem updPair_mlk (p : Fin 22) (f : Pair → Pair) (b : Block) : (updPair p f b).mlk = b.mlk := rfl
@[simp] theorem updPair_veh (p : Fin 22) (f : Pair → Pair) (b : Block) : (updPair p f b).veh = b.veh := rfl
@[simp] theorem updPair_vehCfg (p : Fin 22) (f : Pair → Pair) (b : Block) : (updPair p f b).vehCfg = b.vehCfg := rfl
@[simp] theorem updPair_plc (p : Fin 22) (f : Pair → Pair) (b : Block) : (updPair p f b).plc = b.plc := rfl
@[simp] theorem updPair_plcCfg (p : Fin 22) (f : Pair → Pair) (b : Block) : (updPair p f b).plcCfg = b.plcCfg := rfl
@[simp] theorem updPair_v2g (p : Fin 22) (f : Pair → Pair) (b : Block) : (updPair p f b).v2g = b.v2g := rfl
@[simp] theorem updPair_v2gCfg (p : Fin 22) (f : Pair → Pair) (b : Block) : (updPair p f b).v2gCfg = b.v2gCfg := rfl
@[simp] theorem updPair_imd (p : Fin 22) (f : Pair → Pair) (b : Block) : (updPair p f b).imd = b.imd := rfl
@[simp] theorem updPair_imdG (p : Fin 22) (f : Pair → Pair) (b : Block) : (updPair p f b).imdG = b.imdG := rfl
@[simp] theorem updPair_rcm (p : Fin 22) (f : Pair → Pair) (b : Block) : (updPair p f b).rcm = b.rcm := rfl
@[simp] theorem updPair_rcmTest (p : Fin 22) (f : Pair → Pair) (b : Block) : (updPair p f b).rcmTest = b.rcmTest := rfl
@[simp] theorem updPair_saf (p : Fin 22) (f : Pair → Pair) (b : Block) : (updPair p f b).saf = b.saf := rfl
@[simp] theorem updPair_safX (p : Fin 22) (f : Pair → Pair) (b : Block) : (updPair p f b).safX = b.safX := rfl
@[simp] theorem updPair_lsw (p : Fin 22) (f : Pair → Pair) (b : Block) : (updPair p f b).lsw = b.lsw := rfl
@[simp] theorem updPair_pea (p : Fin 22) (f : Pair → Pair) (b : Block) : (updPair p f b).pea = b.pea := rfl
@[simp] theorem updPair_arb (p : Fin 22) (f : Pair → Pair) (b : Block) : (updPair p f b).arb = b.arb := rfl
@[simp] theorem updPair_pf (p : Fin 22) (f : Pair → Pair) (b : Block) : (updPair p f b).pf = b.pf := rfl
@[simp] theorem updPair_slt (p : Fin 22) (f : Pair → Pair) (b : Block) : (updPair p f b).slt = b.slt := rfl
@[simp] theorem updPair_legal (p : Fin 22) (f : Pair → Pair) (b : Block) : (updPair p f b).legal = b.legal := rfl
@[simp] theorem updPair_auth (p : Fin 22) (f : Pair → Pair) (b : Block) : (updPair p f b).auth = b.auth := rfl
@[simp] theorem updPair_backup (p : Fin 22) (f : Pair → Pair) (b : Block) : (updPair p f b).backup = b.backup := rfl
@[simp] theorem updPair_bri (p : Fin 22) (f : Pair → Pair) (b : Block) : (updPair p f b).bri = b.bri := rfl
@[simp] theorem updPair_key (p : Fin 22) (f : Pair → Pair) (b : Block) : (updPair p f b).key = b.key := rfl
@[simp] theorem updPair_mbx (p : Fin 22) (f : Pair → Pair) (b : Block) : (updPair p f b).mbx = b.mbx := rfl
@[simp] theorem updPair_hp (p : Fin 22) (f : Pair → Pair) (b : Block) : (updPair p f b).hp = b.hp := rfl
@[simp] theorem updPair_hic (p : Fin 22) (f : Pair → Pair) (b : Block) : (updPair p f b).hic = b.hic := rfl
@[simp] theorem updPair_qmg (p : Fin 22) (f : Pair → Pair) (b : Block) : (updPair p f b).qmg = b.qmg := rfl
@[simp] theorem updPair_cwy (p : Fin 22) (f : Pair → Pair) (b : Block) : (updPair p f b).cwy = b.cwy := rfl
@[simp] theorem updPair_cwyX (p : Fin 22) (f : Pair → Pair) (b : Block) : (updPair p f b).cwyX = b.cwyX := rfl
@[simp] theorem updPair_pnl (p : Fin 22) (f : Pair → Pair) (b : Block) : (updPair p f b).pnl = b.pnl := rfl
@[simp] theorem updPair_frames (p : Fin 22) (f : Pair → Pair) (b : Block) : (updPair p f b).frames = b.frames := rfl
@[simp] theorem updPair_nfc (p : Fin 22) (f : Pair → Pair) (b : Block) : (updPair p f b).nfc = b.nfc := rfl
@[simp] theorem updPair_rst (p : Fin 22) (f : Pair → Pair) (b : Block) : (updPair p f b).rst = b.rst := rfl
@[simp] theorem updPair_upd (p : Fin 22) (f : Pair → Pair) (b : Block) : (updPair p f b).upd = b.upd := rfl
@[simp] theorem updPair_btn (p : Fin 22) (f : Pair → Pair) (b : Block) : (updPair p f b).btn = b.btn := rfl
@[simp] theorem updPair_dmp (p : Fin 22) (f : Pair → Pair) (b : Block) : (updPair p f b).dmp = b.dmp := rfl
@[simp] theorem updPair_rpl (p : Fin 22) (f : Pair → Pair) (b : Block) : (updPair p f b).rpl = b.rpl := rfl
@[simp] theorem updPair_dbg (p : Fin 22) (f : Pair → Pair) (b : Block) : (updPair p f b).dbg = b.dbg := rfl
@[simp] theorem updPair_settings (p : Fin 22) (f : Pair → Pair) (b : Block) : (updPair p f b).settings = b.settings := rfl
@[simp] theorem updPair_newSettings (p : Fin 22) (f : Pair → Pair) (b : Block) : (updPair p f b).newSettings = b.newSettings := rfl
@[simp] theorem updPair_legalSet (p : Fin 22) (f : Pair → Pair) (b : Block) : (updPair p f b).legalSet = b.legalSet := rfl
@[simp] theorem updPair_updRec (p : Fin 22) (f : Pair → Pair) (b : Block) : (updPair p f b).updRec = b.updRec := rfl
@[simp] theorem updPair_kept (p : Fin 22) (f : Pair → Pair) (b : Block) : (updPair p f b).kept = b.kept := rfl
@[simp] theorem updPair_prior (p : Fin 22) (f : Pair → Pair) (b : Block) : (updPair p f b).prior = b.prior := rfl
@[simp] theorem updPair_acc (p : Fin 22) (f : Pair → Pair) (b : Block) : (updPair p f b).acc = { b.acc with pairs := vupd b.acc.pairs p f } := rfl
@[simp] theorem updPhase_tide (k : Fin 6) (f : PqPhase → PqPhase) (b : Block) : (updPhase k f b).tide = b.tide := rfl
@[simp] theorem updPhase_lau (k : Fin 6) (f : PqPhase → PqPhase) (b : Block) : (updPhase k f b).lau = b.lau := rfl
@[simp] theorem updPhase_snaps (k : Fin 6) (f : PqPhase → PqPhase) (b : Block) : (updPhase k f b).snaps = b.snaps := rfl
@[simp] theorem updPhase_barrier (k : Fin 6) (f : PqPhase → PqPhase) (b : Block) : (updPhase k f b).barrier = b.barrier := rfl
@[simp] theorem updPhase_fab (k : Fin 6) (f : PqPhase → PqPhase) (b : Block) : (updPhase k f b).fab = b.fab := rfl
@[simp] theorem updPhase_d2d (k : Fin 6) (f : PqPhase → PqPhase) (b : Block) : (updPhase k f b).d2d = b.d2d := rfl
@[simp] theorem updPhase_cross (k : Fin 6) (f : PqPhase → PqPhase) (b : Block) : (updPhase k f b).cross = b.cross := rfl
@[simp] theorem updPhase_met (k : Fin 6) (f : PqPhase → PqPhase) (b : Block) : (updPhase k f b).met = b.met := rfl
@[simp] theorem updPhase_acc (k : Fin 6) (f : PqPhase → PqPhase) (b : Block) : (updPhase k f b).acc = b.acc := rfl
@[simp] theorem updPhase_sess (k : Fin 6) (f : PqPhase → PqPhase) (b : Block) : (updPhase k f b).sess = b.sess := rfl
@[simp] theorem updPhase_slu (k : Fin 6) (f : PqPhase → PqPhase) (b : Block) : (updPhase k f b).slu = b.slu := rfl
@[simp] theorem updPhase_sluCnt (k : Fin 6) (f : PqPhase → PqPhase) (b : Block) : (updPhase k f b).sluCnt = b.sluCnt := rfl
@[simp] theorem updPhase_mlk (k : Fin 6) (f : PqPhase → PqPhase) (b : Block) : (updPhase k f b).mlk = b.mlk := rfl
@[simp] theorem updPhase_veh (k : Fin 6) (f : PqPhase → PqPhase) (b : Block) : (updPhase k f b).veh = b.veh := rfl
@[simp] theorem updPhase_vehCfg (k : Fin 6) (f : PqPhase → PqPhase) (b : Block) : (updPhase k f b).vehCfg = b.vehCfg := rfl
@[simp] theorem updPhase_plc (k : Fin 6) (f : PqPhase → PqPhase) (b : Block) : (updPhase k f b).plc = b.plc := rfl
@[simp] theorem updPhase_plcCfg (k : Fin 6) (f : PqPhase → PqPhase) (b : Block) : (updPhase k f b).plcCfg = b.plcCfg := rfl
@[simp] theorem updPhase_v2g (k : Fin 6) (f : PqPhase → PqPhase) (b : Block) : (updPhase k f b).v2g = b.v2g := rfl
@[simp] theorem updPhase_v2gCfg (k : Fin 6) (f : PqPhase → PqPhase) (b : Block) : (updPhase k f b).v2gCfg = b.v2gCfg := rfl
@[simp] theorem updPhase_imd (k : Fin 6) (f : PqPhase → PqPhase) (b : Block) : (updPhase k f b).imd = b.imd := rfl
@[simp] theorem updPhase_imdG (k : Fin 6) (f : PqPhase → PqPhase) (b : Block) : (updPhase k f b).imdG = b.imdG := rfl
@[simp] theorem updPhase_rcm (k : Fin 6) (f : PqPhase → PqPhase) (b : Block) : (updPhase k f b).rcm = b.rcm := rfl
@[simp] theorem updPhase_rcmTest (k : Fin 6) (f : PqPhase → PqPhase) (b : Block) : (updPhase k f b).rcmTest = b.rcmTest := rfl
@[simp] theorem updPhase_saf (k : Fin 6) (f : PqPhase → PqPhase) (b : Block) : (updPhase k f b).saf = b.saf := rfl
@[simp] theorem updPhase_safX (k : Fin 6) (f : PqPhase → PqPhase) (b : Block) : (updPhase k f b).safX = b.safX := rfl
@[simp] theorem updPhase_lsw (k : Fin 6) (f : PqPhase → PqPhase) (b : Block) : (updPhase k f b).lsw = b.lsw := rfl
@[simp] theorem updPhase_pea (k : Fin 6) (f : PqPhase → PqPhase) (b : Block) : (updPhase k f b).pea = b.pea := rfl
@[simp] theorem updPhase_arb (k : Fin 6) (f : PqPhase → PqPhase) (b : Block) : (updPhase k f b).arb = b.arb := rfl
@[simp] theorem updPhase_pf (k : Fin 6) (f : PqPhase → PqPhase) (b : Block) : (updPhase k f b).pf = b.pf := rfl
@[simp] theorem updPhase_slt (k : Fin 6) (f : PqPhase → PqPhase) (b : Block) : (updPhase k f b).slt = b.slt := rfl
@[simp] theorem updPhase_legal (k : Fin 6) (f : PqPhase → PqPhase) (b : Block) : (updPhase k f b).legal = b.legal := rfl
@[simp] theorem updPhase_auth (k : Fin 6) (f : PqPhase → PqPhase) (b : Block) : (updPhase k f b).auth = b.auth := rfl
@[simp] theorem updPhase_backup (k : Fin 6) (f : PqPhase → PqPhase) (b : Block) : (updPhase k f b).backup = b.backup := rfl
@[simp] theorem updPhase_bri (k : Fin 6) (f : PqPhase → PqPhase) (b : Block) : (updPhase k f b).bri = b.bri := rfl
@[simp] theorem updPhase_key (k : Fin 6) (f : PqPhase → PqPhase) (b : Block) : (updPhase k f b).key = b.key := rfl
@[simp] theorem updPhase_mbx (k : Fin 6) (f : PqPhase → PqPhase) (b : Block) : (updPhase k f b).mbx = b.mbx := rfl
@[simp] theorem updPhase_hp (k : Fin 6) (f : PqPhase → PqPhase) (b : Block) : (updPhase k f b).hp = b.hp := rfl
@[simp] theorem updPhase_hic (k : Fin 6) (f : PqPhase → PqPhase) (b : Block) : (updPhase k f b).hic = b.hic := rfl
@[simp] theorem updPhase_qmg (k : Fin 6) (f : PqPhase → PqPhase) (b : Block) : (updPhase k f b).qmg = b.qmg := rfl
@[simp] theorem updPhase_cwy (k : Fin 6) (f : PqPhase → PqPhase) (b : Block) : (updPhase k f b).cwy = b.cwy := rfl
@[simp] theorem updPhase_cwyX (k : Fin 6) (f : PqPhase → PqPhase) (b : Block) : (updPhase k f b).cwyX = b.cwyX := rfl
@[simp] theorem updPhase_pnl (k : Fin 6) (f : PqPhase → PqPhase) (b : Block) : (updPhase k f b).pnl = b.pnl := rfl
@[simp] theorem updPhase_frames (k : Fin 6) (f : PqPhase → PqPhase) (b : Block) : (updPhase k f b).frames = b.frames := rfl
@[simp] theorem updPhase_nfc (k : Fin 6) (f : PqPhase → PqPhase) (b : Block) : (updPhase k f b).nfc = b.nfc := rfl
@[simp] theorem updPhase_rst (k : Fin 6) (f : PqPhase → PqPhase) (b : Block) : (updPhase k f b).rst = b.rst := rfl
@[simp] theorem updPhase_upd (k : Fin 6) (f : PqPhase → PqPhase) (b : Block) : (updPhase k f b).upd = b.upd := rfl
@[simp] theorem updPhase_btn (k : Fin 6) (f : PqPhase → PqPhase) (b : Block) : (updPhase k f b).btn = b.btn := rfl
@[simp] theorem updPhase_dmp (k : Fin 6) (f : PqPhase → PqPhase) (b : Block) : (updPhase k f b).dmp = b.dmp := rfl
@[simp] theorem updPhase_rpl (k : Fin 6) (f : PqPhase → PqPhase) (b : Block) : (updPhase k f b).rpl = b.rpl := rfl
@[simp] theorem updPhase_dbg (k : Fin 6) (f : PqPhase → PqPhase) (b : Block) : (updPhase k f b).dbg = b.dbg := rfl
@[simp] theorem updPhase_settings (k : Fin 6) (f : PqPhase → PqPhase) (b : Block) : (updPhase k f b).settings = b.settings := rfl
@[simp] theorem updPhase_newSettings (k : Fin 6) (f : PqPhase → PqPhase) (b : Block) : (updPhase k f b).newSettings = b.newSettings := rfl
@[simp] theorem updPhase_legalSet (k : Fin 6) (f : PqPhase → PqPhase) (b : Block) : (updPhase k f b).legalSet = b.legalSet := rfl
@[simp] theorem updPhase_updRec (k : Fin 6) (f : PqPhase → PqPhase) (b : Block) : (updPhase k f b).updRec = b.updRec := rfl
@[simp] theorem updPhase_kept (k : Fin 6) (f : PqPhase → PqPhase) (b : Block) : (updPhase k f b).kept = b.kept := rfl
@[simp] theorem updPhase_prior (k : Fin 6) (f : PqPhase → PqPhase) (b : Block) : (updPhase k f b).prior = b.prior := rfl
@[simp] theorem updPhase_pq (k : Fin 6) (f : PqPhase → PqPhase) (b : Block) : (updPhase k f b).pq = { b.pq with phases := vupd b.pq.phases k f } := rfl
@[simp] theorem updFeeder_tide (f : Fin 2) (g : PqFeeder → PqFeeder) (b : Block) : (updFeeder f g b).tide = b.tide := rfl
@[simp] theorem updFeeder_lau (f : Fin 2) (g : PqFeeder → PqFeeder) (b : Block) : (updFeeder f g b).lau = b.lau := rfl
@[simp] theorem updFeeder_snaps (f : Fin 2) (g : PqFeeder → PqFeeder) (b : Block) : (updFeeder f g b).snaps = b.snaps := rfl
@[simp] theorem updFeeder_barrier (f : Fin 2) (g : PqFeeder → PqFeeder) (b : Block) : (updFeeder f g b).barrier = b.barrier := rfl
@[simp] theorem updFeeder_fab (f : Fin 2) (g : PqFeeder → PqFeeder) (b : Block) : (updFeeder f g b).fab = b.fab := rfl
@[simp] theorem updFeeder_d2d (f : Fin 2) (g : PqFeeder → PqFeeder) (b : Block) : (updFeeder f g b).d2d = b.d2d := rfl
@[simp] theorem updFeeder_cross (f : Fin 2) (g : PqFeeder → PqFeeder) (b : Block) : (updFeeder f g b).cross = b.cross := rfl
@[simp] theorem updFeeder_met (f : Fin 2) (g : PqFeeder → PqFeeder) (b : Block) : (updFeeder f g b).met = b.met := rfl
@[simp] theorem updFeeder_acc (f : Fin 2) (g : PqFeeder → PqFeeder) (b : Block) : (updFeeder f g b).acc = b.acc := rfl
@[simp] theorem updFeeder_sess (f : Fin 2) (g : PqFeeder → PqFeeder) (b : Block) : (updFeeder f g b).sess = b.sess := rfl
@[simp] theorem updFeeder_slu (f : Fin 2) (g : PqFeeder → PqFeeder) (b : Block) : (updFeeder f g b).slu = b.slu := rfl
@[simp] theorem updFeeder_sluCnt (f : Fin 2) (g : PqFeeder → PqFeeder) (b : Block) : (updFeeder f g b).sluCnt = b.sluCnt := rfl
@[simp] theorem updFeeder_mlk (f : Fin 2) (g : PqFeeder → PqFeeder) (b : Block) : (updFeeder f g b).mlk = b.mlk := rfl
@[simp] theorem updFeeder_veh (f : Fin 2) (g : PqFeeder → PqFeeder) (b : Block) : (updFeeder f g b).veh = b.veh := rfl
@[simp] theorem updFeeder_vehCfg (f : Fin 2) (g : PqFeeder → PqFeeder) (b : Block) : (updFeeder f g b).vehCfg = b.vehCfg := rfl
@[simp] theorem updFeeder_plc (f : Fin 2) (g : PqFeeder → PqFeeder) (b : Block) : (updFeeder f g b).plc = b.plc := rfl
@[simp] theorem updFeeder_plcCfg (f : Fin 2) (g : PqFeeder → PqFeeder) (b : Block) : (updFeeder f g b).plcCfg = b.plcCfg := rfl
@[simp] theorem updFeeder_v2g (f : Fin 2) (g : PqFeeder → PqFeeder) (b : Block) : (updFeeder f g b).v2g = b.v2g := rfl
@[simp] theorem updFeeder_v2gCfg (f : Fin 2) (g : PqFeeder → PqFeeder) (b : Block) : (updFeeder f g b).v2gCfg = b.v2gCfg := rfl
@[simp] theorem updFeeder_imd (f : Fin 2) (g : PqFeeder → PqFeeder) (b : Block) : (updFeeder f g b).imd = b.imd := rfl
@[simp] theorem updFeeder_imdG (f : Fin 2) (g : PqFeeder → PqFeeder) (b : Block) : (updFeeder f g b).imdG = b.imdG := rfl
@[simp] theorem updFeeder_rcm (f : Fin 2) (g : PqFeeder → PqFeeder) (b : Block) : (updFeeder f g b).rcm = b.rcm := rfl
@[simp] theorem updFeeder_rcmTest (f : Fin 2) (g : PqFeeder → PqFeeder) (b : Block) : (updFeeder f g b).rcmTest = b.rcmTest := rfl
@[simp] theorem updFeeder_saf (f : Fin 2) (g : PqFeeder → PqFeeder) (b : Block) : (updFeeder f g b).saf = b.saf := rfl
@[simp] theorem updFeeder_safX (f : Fin 2) (g : PqFeeder → PqFeeder) (b : Block) : (updFeeder f g b).safX = b.safX := rfl
@[simp] theorem updFeeder_lsw (f : Fin 2) (g : PqFeeder → PqFeeder) (b : Block) : (updFeeder f g b).lsw = b.lsw := rfl
@[simp] theorem updFeeder_pea (f : Fin 2) (g : PqFeeder → PqFeeder) (b : Block) : (updFeeder f g b).pea = b.pea := rfl
@[simp] theorem updFeeder_arb (f : Fin 2) (g : PqFeeder → PqFeeder) (b : Block) : (updFeeder f g b).arb = b.arb := rfl
@[simp] theorem updFeeder_pf (f : Fin 2) (g : PqFeeder → PqFeeder) (b : Block) : (updFeeder f g b).pf = b.pf := rfl
@[simp] theorem updFeeder_slt (f : Fin 2) (g : PqFeeder → PqFeeder) (b : Block) : (updFeeder f g b).slt = b.slt := rfl
@[simp] theorem updFeeder_legal (f : Fin 2) (g : PqFeeder → PqFeeder) (b : Block) : (updFeeder f g b).legal = b.legal := rfl
@[simp] theorem updFeeder_auth (f : Fin 2) (g : PqFeeder → PqFeeder) (b : Block) : (updFeeder f g b).auth = b.auth := rfl
@[simp] theorem updFeeder_backup (f : Fin 2) (g : PqFeeder → PqFeeder) (b : Block) : (updFeeder f g b).backup = b.backup := rfl
@[simp] theorem updFeeder_bri (f : Fin 2) (g : PqFeeder → PqFeeder) (b : Block) : (updFeeder f g b).bri = b.bri := rfl
@[simp] theorem updFeeder_key (f : Fin 2) (g : PqFeeder → PqFeeder) (b : Block) : (updFeeder f g b).key = b.key := rfl
@[simp] theorem updFeeder_mbx (f : Fin 2) (g : PqFeeder → PqFeeder) (b : Block) : (updFeeder f g b).mbx = b.mbx := rfl
@[simp] theorem updFeeder_hp (f : Fin 2) (g : PqFeeder → PqFeeder) (b : Block) : (updFeeder f g b).hp = b.hp := rfl
@[simp] theorem updFeeder_hic (f : Fin 2) (g : PqFeeder → PqFeeder) (b : Block) : (updFeeder f g b).hic = b.hic := rfl
@[simp] theorem updFeeder_qmg (f : Fin 2) (g : PqFeeder → PqFeeder) (b : Block) : (updFeeder f g b).qmg = b.qmg := rfl
@[simp] theorem updFeeder_cwy (f : Fin 2) (g : PqFeeder → PqFeeder) (b : Block) : (updFeeder f g b).cwy = b.cwy := rfl
@[simp] theorem updFeeder_cwyX (f : Fin 2) (g : PqFeeder → PqFeeder) (b : Block) : (updFeeder f g b).cwyX = b.cwyX := rfl
@[simp] theorem updFeeder_pnl (f : Fin 2) (g : PqFeeder → PqFeeder) (b : Block) : (updFeeder f g b).pnl = b.pnl := rfl
@[simp] theorem updFeeder_frames (f : Fin 2) (g : PqFeeder → PqFeeder) (b : Block) : (updFeeder f g b).frames = b.frames := rfl
@[simp] theorem updFeeder_nfc (f : Fin 2) (g : PqFeeder → PqFeeder) (b : Block) : (updFeeder f g b).nfc = b.nfc := rfl
@[simp] theorem updFeeder_rst (f : Fin 2) (g : PqFeeder → PqFeeder) (b : Block) : (updFeeder f g b).rst = b.rst := rfl
@[simp] theorem updFeeder_upd (f : Fin 2) (g : PqFeeder → PqFeeder) (b : Block) : (updFeeder f g b).upd = b.upd := rfl
@[simp] theorem updFeeder_btn (f : Fin 2) (g : PqFeeder → PqFeeder) (b : Block) : (updFeeder f g b).btn = b.btn := rfl
@[simp] theorem updFeeder_dmp (f : Fin 2) (g : PqFeeder → PqFeeder) (b : Block) : (updFeeder f g b).dmp = b.dmp := rfl
@[simp] theorem updFeeder_rpl (f : Fin 2) (g : PqFeeder → PqFeeder) (b : Block) : (updFeeder f g b).rpl = b.rpl := rfl
@[simp] theorem updFeeder_dbg (f : Fin 2) (g : PqFeeder → PqFeeder) (b : Block) : (updFeeder f g b).dbg = b.dbg := rfl
@[simp] theorem updFeeder_settings (f : Fin 2) (g : PqFeeder → PqFeeder) (b : Block) : (updFeeder f g b).settings = b.settings := rfl
@[simp] theorem updFeeder_newSettings (f : Fin 2) (g : PqFeeder → PqFeeder) (b : Block) : (updFeeder f g b).newSettings = b.newSettings := rfl
@[simp] theorem updFeeder_legalSet (f : Fin 2) (g : PqFeeder → PqFeeder) (b : Block) : (updFeeder f g b).legalSet = b.legalSet := rfl
@[simp] theorem updFeeder_updRec (f : Fin 2) (g : PqFeeder → PqFeeder) (b : Block) : (updFeeder f g b).updRec = b.updRec := rfl
@[simp] theorem updFeeder_kept (f : Fin 2) (g : PqFeeder → PqFeeder) (b : Block) : (updFeeder f g b).kept = b.kept := rfl
@[simp] theorem updFeeder_prior (f : Fin 2) (g : PqFeeder → PqFeeder) (b : Block) : (updFeeder f g b).prior = b.prior := rfl
@[simp] theorem updFeeder_pq (f : Fin 2) (g : PqFeeder → PqFeeder) (b : Block) : (updFeeder f g b).pq = { b.pq with feeders := vupd b.pq.feeders f g } := rfl
@[simp] theorem updMlk_tide (m : Fin 96) (f : MlkModule → MlkModule) (b : Block) : (updMlk m f b).tide = b.tide := rfl
@[simp] theorem updMlk_lau (m : Fin 96) (f : MlkModule → MlkModule) (b : Block) : (updMlk m f b).lau = b.lau := rfl
@[simp] theorem updMlk_snaps (m : Fin 96) (f : MlkModule → MlkModule) (b : Block) : (updMlk m f b).snaps = b.snaps := rfl
@[simp] theorem updMlk_barrier (m : Fin 96) (f : MlkModule → MlkModule) (b : Block) : (updMlk m f b).barrier = b.barrier := rfl
@[simp] theorem updMlk_fab (m : Fin 96) (f : MlkModule → MlkModule) (b : Block) : (updMlk m f b).fab = b.fab := rfl
@[simp] theorem updMlk_d2d (m : Fin 96) (f : MlkModule → MlkModule) (b : Block) : (updMlk m f b).d2d = b.d2d := rfl
@[simp] theorem updMlk_cross (m : Fin 96) (f : MlkModule → MlkModule) (b : Block) : (updMlk m f b).cross = b.cross := rfl
@[simp] theorem updMlk_met (m : Fin 96) (f : MlkModule → MlkModule) (b : Block) : (updMlk m f b).met = b.met := rfl
@[simp] theorem updMlk_acc (m : Fin 96) (f : MlkModule → MlkModule) (b : Block) : (updMlk m f b).acc = b.acc := rfl
@[simp] theorem updMlk_pq (m : Fin 96) (f : MlkModule → MlkModule) (b : Block) : (updMlk m f b).pq = b.pq := rfl
@[simp] theorem updMlk_sess (m : Fin 96) (f : MlkModule → MlkModule) (b : Block) : (updMlk m f b).sess = b.sess := rfl
@[simp] theorem updMlk_slu (m : Fin 96) (f : MlkModule → MlkModule) (b : Block) : (updMlk m f b).slu = b.slu := rfl
@[simp] theorem updMlk_sluCnt (m : Fin 96) (f : MlkModule → MlkModule) (b : Block) : (updMlk m f b).sluCnt = b.sluCnt := rfl
@[simp] theorem updMlk_veh (m : Fin 96) (f : MlkModule → MlkModule) (b : Block) : (updMlk m f b).veh = b.veh := rfl
@[simp] theorem updMlk_vehCfg (m : Fin 96) (f : MlkModule → MlkModule) (b : Block) : (updMlk m f b).vehCfg = b.vehCfg := rfl
@[simp] theorem updMlk_plc (m : Fin 96) (f : MlkModule → MlkModule) (b : Block) : (updMlk m f b).plc = b.plc := rfl
@[simp] theorem updMlk_plcCfg (m : Fin 96) (f : MlkModule → MlkModule) (b : Block) : (updMlk m f b).plcCfg = b.plcCfg := rfl
@[simp] theorem updMlk_v2g (m : Fin 96) (f : MlkModule → MlkModule) (b : Block) : (updMlk m f b).v2g = b.v2g := rfl
@[simp] theorem updMlk_v2gCfg (m : Fin 96) (f : MlkModule → MlkModule) (b : Block) : (updMlk m f b).v2gCfg = b.v2gCfg := rfl
@[simp] theorem updMlk_imd (m : Fin 96) (f : MlkModule → MlkModule) (b : Block) : (updMlk m f b).imd = b.imd := rfl
@[simp] theorem updMlk_imdG (m : Fin 96) (f : MlkModule → MlkModule) (b : Block) : (updMlk m f b).imdG = b.imdG := rfl
@[simp] theorem updMlk_rcm (m : Fin 96) (f : MlkModule → MlkModule) (b : Block) : (updMlk m f b).rcm = b.rcm := rfl
@[simp] theorem updMlk_rcmTest (m : Fin 96) (f : MlkModule → MlkModule) (b : Block) : (updMlk m f b).rcmTest = b.rcmTest := rfl
@[simp] theorem updMlk_saf (m : Fin 96) (f : MlkModule → MlkModule) (b : Block) : (updMlk m f b).saf = b.saf := rfl
@[simp] theorem updMlk_safX (m : Fin 96) (f : MlkModule → MlkModule) (b : Block) : (updMlk m f b).safX = b.safX := rfl
@[simp] theorem updMlk_lsw (m : Fin 96) (f : MlkModule → MlkModule) (b : Block) : (updMlk m f b).lsw = b.lsw := rfl
@[simp] theorem updMlk_pea (m : Fin 96) (f : MlkModule → MlkModule) (b : Block) : (updMlk m f b).pea = b.pea := rfl
@[simp] theorem updMlk_arb (m : Fin 96) (f : MlkModule → MlkModule) (b : Block) : (updMlk m f b).arb = b.arb := rfl
@[simp] theorem updMlk_pf (m : Fin 96) (f : MlkModule → MlkModule) (b : Block) : (updMlk m f b).pf = b.pf := rfl
@[simp] theorem updMlk_slt (m : Fin 96) (f : MlkModule → MlkModule) (b : Block) : (updMlk m f b).slt = b.slt := rfl
@[simp] theorem updMlk_legal (m : Fin 96) (f : MlkModule → MlkModule) (b : Block) : (updMlk m f b).legal = b.legal := rfl
@[simp] theorem updMlk_auth (m : Fin 96) (f : MlkModule → MlkModule) (b : Block) : (updMlk m f b).auth = b.auth := rfl
@[simp] theorem updMlk_backup (m : Fin 96) (f : MlkModule → MlkModule) (b : Block) : (updMlk m f b).backup = b.backup := rfl
@[simp] theorem updMlk_bri (m : Fin 96) (f : MlkModule → MlkModule) (b : Block) : (updMlk m f b).bri = b.bri := rfl
@[simp] theorem updMlk_key (m : Fin 96) (f : MlkModule → MlkModule) (b : Block) : (updMlk m f b).key = b.key := rfl
@[simp] theorem updMlk_mbx (m : Fin 96) (f : MlkModule → MlkModule) (b : Block) : (updMlk m f b).mbx = b.mbx := rfl
@[simp] theorem updMlk_hp (m : Fin 96) (f : MlkModule → MlkModule) (b : Block) : (updMlk m f b).hp = b.hp := rfl
@[simp] theorem updMlk_hic (m : Fin 96) (f : MlkModule → MlkModule) (b : Block) : (updMlk m f b).hic = b.hic := rfl
@[simp] theorem updMlk_qmg (m : Fin 96) (f : MlkModule → MlkModule) (b : Block) : (updMlk m f b).qmg = b.qmg := rfl
@[simp] theorem updMlk_cwy (m : Fin 96) (f : MlkModule → MlkModule) (b : Block) : (updMlk m f b).cwy = b.cwy := rfl
@[simp] theorem updMlk_cwyX (m : Fin 96) (f : MlkModule → MlkModule) (b : Block) : (updMlk m f b).cwyX = b.cwyX := rfl
@[simp] theorem updMlk_pnl (m : Fin 96) (f : MlkModule → MlkModule) (b : Block) : (updMlk m f b).pnl = b.pnl := rfl
@[simp] theorem updMlk_frames (m : Fin 96) (f : MlkModule → MlkModule) (b : Block) : (updMlk m f b).frames = b.frames := rfl
@[simp] theorem updMlk_nfc (m : Fin 96) (f : MlkModule → MlkModule) (b : Block) : (updMlk m f b).nfc = b.nfc := rfl
@[simp] theorem updMlk_rst (m : Fin 96) (f : MlkModule → MlkModule) (b : Block) : (updMlk m f b).rst = b.rst := rfl
@[simp] theorem updMlk_upd (m : Fin 96) (f : MlkModule → MlkModule) (b : Block) : (updMlk m f b).upd = b.upd := rfl
@[simp] theorem updMlk_btn (m : Fin 96) (f : MlkModule → MlkModule) (b : Block) : (updMlk m f b).btn = b.btn := rfl
@[simp] theorem updMlk_dmp (m : Fin 96) (f : MlkModule → MlkModule) (b : Block) : (updMlk m f b).dmp = b.dmp := rfl
@[simp] theorem updMlk_rpl (m : Fin 96) (f : MlkModule → MlkModule) (b : Block) : (updMlk m f b).rpl = b.rpl := rfl
@[simp] theorem updMlk_dbg (m : Fin 96) (f : MlkModule → MlkModule) (b : Block) : (updMlk m f b).dbg = b.dbg := rfl
@[simp] theorem updMlk_settings (m : Fin 96) (f : MlkModule → MlkModule) (b : Block) : (updMlk m f b).settings = b.settings := rfl
@[simp] theorem updMlk_newSettings (m : Fin 96) (f : MlkModule → MlkModule) (b : Block) : (updMlk m f b).newSettings = b.newSettings := rfl
@[simp] theorem updMlk_legalSet (m : Fin 96) (f : MlkModule → MlkModule) (b : Block) : (updMlk m f b).legalSet = b.legalSet := rfl
@[simp] theorem updMlk_updRec (m : Fin 96) (f : MlkModule → MlkModule) (b : Block) : (updMlk m f b).updRec = b.updRec := rfl
@[simp] theorem updMlk_kept (m : Fin 96) (f : MlkModule → MlkModule) (b : Block) : (updMlk m f b).kept = b.kept := rfl
@[simp] theorem updMlk_prior (m : Fin 96) (f : MlkModule → MlkModule) (b : Block) : (updMlk m f b).prior = b.prior := rfl
@[simp] theorem updMlk_mlk (m : Fin 96) (f : MlkModule → MlkModule) (b : Block) : (updMlk m f b).mlk = { b.mlk with modules := vupd b.mlk.modules m f } := rfl
@[simp] theorem updLane_tide (l : Fin 8) (f : Lane → Lane) (b : Block) : (updLane l f b).tide = b.tide := rfl
@[simp] theorem updLane_lau (l : Fin 8) (f : Lane → Lane) (b : Block) : (updLane l f b).lau = b.lau := rfl
@[simp] theorem updLane_snaps (l : Fin 8) (f : Lane → Lane) (b : Block) : (updLane l f b).snaps = b.snaps := rfl
@[simp] theorem updLane_barrier (l : Fin 8) (f : Lane → Lane) (b : Block) : (updLane l f b).barrier = b.barrier := rfl
@[simp] theorem updLane_fab (l : Fin 8) (f : Lane → Lane) (b : Block) : (updLane l f b).fab = b.fab := rfl
@[simp] theorem updLane_d2d (l : Fin 8) (f : Lane → Lane) (b : Block) : (updLane l f b).d2d = b.d2d := rfl
@[simp] theorem updLane_cross (l : Fin 8) (f : Lane → Lane) (b : Block) : (updLane l f b).cross = b.cross := rfl
@[simp] theorem updLane_met (l : Fin 8) (f : Lane → Lane) (b : Block) : (updLane l f b).met = b.met := rfl
@[simp] theorem updLane_acc (l : Fin 8) (f : Lane → Lane) (b : Block) : (updLane l f b).acc = b.acc := rfl
@[simp] theorem updLane_pq (l : Fin 8) (f : Lane → Lane) (b : Block) : (updLane l f b).pq = b.pq := rfl
@[simp] theorem updLane_sess (l : Fin 8) (f : Lane → Lane) (b : Block) : (updLane l f b).sess = b.sess := rfl
@[simp] theorem updLane_slu (l : Fin 8) (f : Lane → Lane) (b : Block) : (updLane l f b).slu = b.slu := rfl
@[simp] theorem updLane_sluCnt (l : Fin 8) (f : Lane → Lane) (b : Block) : (updLane l f b).sluCnt = b.sluCnt := rfl
@[simp] theorem updLane_veh (l : Fin 8) (f : Lane → Lane) (b : Block) : (updLane l f b).veh = b.veh := rfl
@[simp] theorem updLane_vehCfg (l : Fin 8) (f : Lane → Lane) (b : Block) : (updLane l f b).vehCfg = b.vehCfg := rfl
@[simp] theorem updLane_plc (l : Fin 8) (f : Lane → Lane) (b : Block) : (updLane l f b).plc = b.plc := rfl
@[simp] theorem updLane_plcCfg (l : Fin 8) (f : Lane → Lane) (b : Block) : (updLane l f b).plcCfg = b.plcCfg := rfl
@[simp] theorem updLane_v2g (l : Fin 8) (f : Lane → Lane) (b : Block) : (updLane l f b).v2g = b.v2g := rfl
@[simp] theorem updLane_v2gCfg (l : Fin 8) (f : Lane → Lane) (b : Block) : (updLane l f b).v2gCfg = b.v2gCfg := rfl
@[simp] theorem updLane_imd (l : Fin 8) (f : Lane → Lane) (b : Block) : (updLane l f b).imd = b.imd := rfl
@[simp] theorem updLane_imdG (l : Fin 8) (f : Lane → Lane) (b : Block) : (updLane l f b).imdG = b.imdG := rfl
@[simp] theorem updLane_rcm (l : Fin 8) (f : Lane → Lane) (b : Block) : (updLane l f b).rcm = b.rcm := rfl
@[simp] theorem updLane_rcmTest (l : Fin 8) (f : Lane → Lane) (b : Block) : (updLane l f b).rcmTest = b.rcmTest := rfl
@[simp] theorem updLane_saf (l : Fin 8) (f : Lane → Lane) (b : Block) : (updLane l f b).saf = b.saf := rfl
@[simp] theorem updLane_safX (l : Fin 8) (f : Lane → Lane) (b : Block) : (updLane l f b).safX = b.safX := rfl
@[simp] theorem updLane_lsw (l : Fin 8) (f : Lane → Lane) (b : Block) : (updLane l f b).lsw = b.lsw := rfl
@[simp] theorem updLane_pea (l : Fin 8) (f : Lane → Lane) (b : Block) : (updLane l f b).pea = b.pea := rfl
@[simp] theorem updLane_arb (l : Fin 8) (f : Lane → Lane) (b : Block) : (updLane l f b).arb = b.arb := rfl
@[simp] theorem updLane_pf (l : Fin 8) (f : Lane → Lane) (b : Block) : (updLane l f b).pf = b.pf := rfl
@[simp] theorem updLane_slt (l : Fin 8) (f : Lane → Lane) (b : Block) : (updLane l f b).slt = b.slt := rfl
@[simp] theorem updLane_legal (l : Fin 8) (f : Lane → Lane) (b : Block) : (updLane l f b).legal = b.legal := rfl
@[simp] theorem updLane_auth (l : Fin 8) (f : Lane → Lane) (b : Block) : (updLane l f b).auth = b.auth := rfl
@[simp] theorem updLane_backup (l : Fin 8) (f : Lane → Lane) (b : Block) : (updLane l f b).backup = b.backup := rfl
@[simp] theorem updLane_bri (l : Fin 8) (f : Lane → Lane) (b : Block) : (updLane l f b).bri = b.bri := rfl
@[simp] theorem updLane_key (l : Fin 8) (f : Lane → Lane) (b : Block) : (updLane l f b).key = b.key := rfl
@[simp] theorem updLane_mbx (l : Fin 8) (f : Lane → Lane) (b : Block) : (updLane l f b).mbx = b.mbx := rfl
@[simp] theorem updLane_hp (l : Fin 8) (f : Lane → Lane) (b : Block) : (updLane l f b).hp = b.hp := rfl
@[simp] theorem updLane_hic (l : Fin 8) (f : Lane → Lane) (b : Block) : (updLane l f b).hic = b.hic := rfl
@[simp] theorem updLane_qmg (l : Fin 8) (f : Lane → Lane) (b : Block) : (updLane l f b).qmg = b.qmg := rfl
@[simp] theorem updLane_cwy (l : Fin 8) (f : Lane → Lane) (b : Block) : (updLane l f b).cwy = b.cwy := rfl
@[simp] theorem updLane_cwyX (l : Fin 8) (f : Lane → Lane) (b : Block) : (updLane l f b).cwyX = b.cwyX := rfl
@[simp] theorem updLane_pnl (l : Fin 8) (f : Lane → Lane) (b : Block) : (updLane l f b).pnl = b.pnl := rfl
@[simp] theorem updLane_frames (l : Fin 8) (f : Lane → Lane) (b : Block) : (updLane l f b).frames = b.frames := rfl
@[simp] theorem updLane_nfc (l : Fin 8) (f : Lane → Lane) (b : Block) : (updLane l f b).nfc = b.nfc := rfl
@[simp] theorem updLane_rst (l : Fin 8) (f : Lane → Lane) (b : Block) : (updLane l f b).rst = b.rst := rfl
@[simp] theorem updLane_upd (l : Fin 8) (f : Lane → Lane) (b : Block) : (updLane l f b).upd = b.upd := rfl
@[simp] theorem updLane_btn (l : Fin 8) (f : Lane → Lane) (b : Block) : (updLane l f b).btn = b.btn := rfl
@[simp] theorem updLane_dmp (l : Fin 8) (f : Lane → Lane) (b : Block) : (updLane l f b).dmp = b.dmp := rfl
@[simp] theorem updLane_rpl (l : Fin 8) (f : Lane → Lane) (b : Block) : (updLane l f b).rpl = b.rpl := rfl
@[simp] theorem updLane_dbg (l : Fin 8) (f : Lane → Lane) (b : Block) : (updLane l f b).dbg = b.dbg := rfl
@[simp] theorem updLane_settings (l : Fin 8) (f : Lane → Lane) (b : Block) : (updLane l f b).settings = b.settings := rfl
@[simp] theorem updLane_newSettings (l : Fin 8) (f : Lane → Lane) (b : Block) : (updLane l f b).newSettings = b.newSettings := rfl
@[simp] theorem updLane_legalSet (l : Fin 8) (f : Lane → Lane) (b : Block) : (updLane l f b).legalSet = b.legalSet := rfl
@[simp] theorem updLane_updRec (l : Fin 8) (f : Lane → Lane) (b : Block) : (updLane l f b).updRec = b.updRec := rfl
@[simp] theorem updLane_kept (l : Fin 8) (f : Lane → Lane) (b : Block) : (updLane l f b).kept = b.kept := rfl
@[simp] theorem updLane_prior (l : Fin 8) (f : Lane → Lane) (b : Block) : (updLane l f b).prior = b.prior := rfl
@[simp] theorem updLane_mlk (l : Fin 8) (f : Lane → Lane) (b : Block) : (updLane l f b).mlk = { b.mlk with lanes := vupd b.mlk.lanes l f } := rfl
@[simp] theorem updLink_tide (f : ModLink → ModLink) (b : Block) : (updLink f b).tide = b.tide := rfl
@[simp] theorem updLink_lau (f : ModLink → ModLink) (b : Block) : (updLink f b).lau = b.lau := rfl
@[simp] theorem updLink_snaps (f : ModLink → ModLink) (b : Block) : (updLink f b).snaps = b.snaps := rfl
@[simp] theorem updLink_barrier (f : ModLink → ModLink) (b : Block) : (updLink f b).barrier = b.barrier := rfl
@[simp] theorem updLink_fab (f : ModLink → ModLink) (b : Block) : (updLink f b).fab = b.fab := rfl
@[simp] theorem updLink_d2d (f : ModLink → ModLink) (b : Block) : (updLink f b).d2d = b.d2d := rfl
@[simp] theorem updLink_cross (f : ModLink → ModLink) (b : Block) : (updLink f b).cross = b.cross := rfl
@[simp] theorem updLink_met (f : ModLink → ModLink) (b : Block) : (updLink f b).met = b.met := rfl
@[simp] theorem updLink_acc (f : ModLink → ModLink) (b : Block) : (updLink f b).acc = b.acc := rfl
@[simp] theorem updLink_pq (f : ModLink → ModLink) (b : Block) : (updLink f b).pq = b.pq := rfl
@[simp] theorem updLink_sess (f : ModLink → ModLink) (b : Block) : (updLink f b).sess = b.sess := rfl
@[simp] theorem updLink_slu (f : ModLink → ModLink) (b : Block) : (updLink f b).slu = b.slu := rfl
@[simp] theorem updLink_sluCnt (f : ModLink → ModLink) (b : Block) : (updLink f b).sluCnt = b.sluCnt := rfl
@[simp] theorem updLink_veh (f : ModLink → ModLink) (b : Block) : (updLink f b).veh = b.veh := rfl
@[simp] theorem updLink_vehCfg (f : ModLink → ModLink) (b : Block) : (updLink f b).vehCfg = b.vehCfg := rfl
@[simp] theorem updLink_plc (f : ModLink → ModLink) (b : Block) : (updLink f b).plc = b.plc := rfl
@[simp] theorem updLink_plcCfg (f : ModLink → ModLink) (b : Block) : (updLink f b).plcCfg = b.plcCfg := rfl
@[simp] theorem updLink_v2g (f : ModLink → ModLink) (b : Block) : (updLink f b).v2g = b.v2g := rfl
@[simp] theorem updLink_v2gCfg (f : ModLink → ModLink) (b : Block) : (updLink f b).v2gCfg = b.v2gCfg := rfl
@[simp] theorem updLink_imd (f : ModLink → ModLink) (b : Block) : (updLink f b).imd = b.imd := rfl
@[simp] theorem updLink_imdG (f : ModLink → ModLink) (b : Block) : (updLink f b).imdG = b.imdG := rfl
@[simp] theorem updLink_rcm (f : ModLink → ModLink) (b : Block) : (updLink f b).rcm = b.rcm := rfl
@[simp] theorem updLink_rcmTest (f : ModLink → ModLink) (b : Block) : (updLink f b).rcmTest = b.rcmTest := rfl
@[simp] theorem updLink_saf (f : ModLink → ModLink) (b : Block) : (updLink f b).saf = b.saf := rfl
@[simp] theorem updLink_safX (f : ModLink → ModLink) (b : Block) : (updLink f b).safX = b.safX := rfl
@[simp] theorem updLink_lsw (f : ModLink → ModLink) (b : Block) : (updLink f b).lsw = b.lsw := rfl
@[simp] theorem updLink_pea (f : ModLink → ModLink) (b : Block) : (updLink f b).pea = b.pea := rfl
@[simp] theorem updLink_arb (f : ModLink → ModLink) (b : Block) : (updLink f b).arb = b.arb := rfl
@[simp] theorem updLink_pf (f : ModLink → ModLink) (b : Block) : (updLink f b).pf = b.pf := rfl
@[simp] theorem updLink_slt (f : ModLink → ModLink) (b : Block) : (updLink f b).slt = b.slt := rfl
@[simp] theorem updLink_legal (f : ModLink → ModLink) (b : Block) : (updLink f b).legal = b.legal := rfl
@[simp] theorem updLink_auth (f : ModLink → ModLink) (b : Block) : (updLink f b).auth = b.auth := rfl
@[simp] theorem updLink_backup (f : ModLink → ModLink) (b : Block) : (updLink f b).backup = b.backup := rfl
@[simp] theorem updLink_bri (f : ModLink → ModLink) (b : Block) : (updLink f b).bri = b.bri := rfl
@[simp] theorem updLink_key (f : ModLink → ModLink) (b : Block) : (updLink f b).key = b.key := rfl
@[simp] theorem updLink_mbx (f : ModLink → ModLink) (b : Block) : (updLink f b).mbx = b.mbx := rfl
@[simp] theorem updLink_hp (f : ModLink → ModLink) (b : Block) : (updLink f b).hp = b.hp := rfl
@[simp] theorem updLink_hic (f : ModLink → ModLink) (b : Block) : (updLink f b).hic = b.hic := rfl
@[simp] theorem updLink_qmg (f : ModLink → ModLink) (b : Block) : (updLink f b).qmg = b.qmg := rfl
@[simp] theorem updLink_cwy (f : ModLink → ModLink) (b : Block) : (updLink f b).cwy = b.cwy := rfl
@[simp] theorem updLink_cwyX (f : ModLink → ModLink) (b : Block) : (updLink f b).cwyX = b.cwyX := rfl
@[simp] theorem updLink_pnl (f : ModLink → ModLink) (b : Block) : (updLink f b).pnl = b.pnl := rfl
@[simp] theorem updLink_frames (f : ModLink → ModLink) (b : Block) : (updLink f b).frames = b.frames := rfl
@[simp] theorem updLink_nfc (f : ModLink → ModLink) (b : Block) : (updLink f b).nfc = b.nfc := rfl
@[simp] theorem updLink_rst (f : ModLink → ModLink) (b : Block) : (updLink f b).rst = b.rst := rfl
@[simp] theorem updLink_upd (f : ModLink → ModLink) (b : Block) : (updLink f b).upd = b.upd := rfl
@[simp] theorem updLink_btn (f : ModLink → ModLink) (b : Block) : (updLink f b).btn = b.btn := rfl
@[simp] theorem updLink_dmp (f : ModLink → ModLink) (b : Block) : (updLink f b).dmp = b.dmp := rfl
@[simp] theorem updLink_rpl (f : ModLink → ModLink) (b : Block) : (updLink f b).rpl = b.rpl := rfl
@[simp] theorem updLink_dbg (f : ModLink → ModLink) (b : Block) : (updLink f b).dbg = b.dbg := rfl
@[simp] theorem updLink_settings (f : ModLink → ModLink) (b : Block) : (updLink f b).settings = b.settings := rfl
@[simp] theorem updLink_newSettings (f : ModLink → ModLink) (b : Block) : (updLink f b).newSettings = b.newSettings := rfl
@[simp] theorem updLink_legalSet (f : ModLink → ModLink) (b : Block) : (updLink f b).legalSet = b.legalSet := rfl
@[simp] theorem updLink_updRec (f : ModLink → ModLink) (b : Block) : (updLink f b).updRec = b.updRec := rfl
@[simp] theorem updLink_kept (f : ModLink → ModLink) (b : Block) : (updLink f b).kept = b.kept := rfl
@[simp] theorem updLink_prior (f : ModLink → ModLink) (b : Block) : (updLink f b).prior = b.prior := rfl
@[simp] theorem updLink_mlk (f : ModLink → ModLink) (b : Block) : (updLink f b).mlk = f b.mlk := rfl
@[simp] theorem setNow_lau (t : U64) (b : Block) : (setNow t b).lau = b.lau := rfl
@[simp] theorem setNow_snaps (t : U64) (b : Block) : (setNow t b).snaps = b.snaps := rfl
@[simp] theorem setNow_barrier (t : U64) (b : Block) : (setNow t b).barrier = b.barrier := rfl
@[simp] theorem setNow_fab (t : U64) (b : Block) : (setNow t b).fab = b.fab := rfl
@[simp] theorem setNow_d2d (t : U64) (b : Block) : (setNow t b).d2d = b.d2d := rfl
@[simp] theorem setNow_cross (t : U64) (b : Block) : (setNow t b).cross = b.cross := rfl
@[simp] theorem setNow_met (t : U64) (b : Block) : (setNow t b).met = b.met := rfl
@[simp] theorem setNow_acc (t : U64) (b : Block) : (setNow t b).acc = b.acc := rfl
@[simp] theorem setNow_pq (t : U64) (b : Block) : (setNow t b).pq = b.pq := rfl
@[simp] theorem setNow_sess (t : U64) (b : Block) : (setNow t b).sess = b.sess := rfl
@[simp] theorem setNow_slu (t : U64) (b : Block) : (setNow t b).slu = b.slu := rfl
@[simp] theorem setNow_sluCnt (t : U64) (b : Block) : (setNow t b).sluCnt = b.sluCnt := rfl
@[simp] theorem setNow_mlk (t : U64) (b : Block) : (setNow t b).mlk = b.mlk := rfl
@[simp] theorem setNow_veh (t : U64) (b : Block) : (setNow t b).veh = b.veh := rfl
@[simp] theorem setNow_vehCfg (t : U64) (b : Block) : (setNow t b).vehCfg = b.vehCfg := rfl
@[simp] theorem setNow_plc (t : U64) (b : Block) : (setNow t b).plc = b.plc := rfl
@[simp] theorem setNow_plcCfg (t : U64) (b : Block) : (setNow t b).plcCfg = b.plcCfg := rfl
@[simp] theorem setNow_v2g (t : U64) (b : Block) : (setNow t b).v2g = b.v2g := rfl
@[simp] theorem setNow_v2gCfg (t : U64) (b : Block) : (setNow t b).v2gCfg = b.v2gCfg := rfl
@[simp] theorem setNow_imd (t : U64) (b : Block) : (setNow t b).imd = b.imd := rfl
@[simp] theorem setNow_imdG (t : U64) (b : Block) : (setNow t b).imdG = b.imdG := rfl
@[simp] theorem setNow_rcm (t : U64) (b : Block) : (setNow t b).rcm = b.rcm := rfl
@[simp] theorem setNow_rcmTest (t : U64) (b : Block) : (setNow t b).rcmTest = b.rcmTest := rfl
@[simp] theorem setNow_saf (t : U64) (b : Block) : (setNow t b).saf = b.saf := rfl
@[simp] theorem setNow_safX (t : U64) (b : Block) : (setNow t b).safX = b.safX := rfl
@[simp] theorem setNow_lsw (t : U64) (b : Block) : (setNow t b).lsw = b.lsw := rfl
@[simp] theorem setNow_pea (t : U64) (b : Block) : (setNow t b).pea = b.pea := rfl
@[simp] theorem setNow_arb (t : U64) (b : Block) : (setNow t b).arb = b.arb := rfl
@[simp] theorem setNow_pf (t : U64) (b : Block) : (setNow t b).pf = b.pf := rfl
@[simp] theorem setNow_slt (t : U64) (b : Block) : (setNow t b).slt = b.slt := rfl
@[simp] theorem setNow_legal (t : U64) (b : Block) : (setNow t b).legal = b.legal := rfl
@[simp] theorem setNow_auth (t : U64) (b : Block) : (setNow t b).auth = b.auth := rfl
@[simp] theorem setNow_backup (t : U64) (b : Block) : (setNow t b).backup = b.backup := rfl
@[simp] theorem setNow_bri (t : U64) (b : Block) : (setNow t b).bri = b.bri := rfl
@[simp] theorem setNow_key (t : U64) (b : Block) : (setNow t b).key = b.key := rfl
@[simp] theorem setNow_mbx (t : U64) (b : Block) : (setNow t b).mbx = b.mbx := rfl
@[simp] theorem setNow_hp (t : U64) (b : Block) : (setNow t b).hp = b.hp := rfl
@[simp] theorem setNow_hic (t : U64) (b : Block) : (setNow t b).hic = b.hic := rfl
@[simp] theorem setNow_qmg (t : U64) (b : Block) : (setNow t b).qmg = b.qmg := rfl
@[simp] theorem setNow_cwy (t : U64) (b : Block) : (setNow t b).cwy = b.cwy := rfl
@[simp] theorem setNow_cwyX (t : U64) (b : Block) : (setNow t b).cwyX = b.cwyX := rfl
@[simp] theorem setNow_pnl (t : U64) (b : Block) : (setNow t b).pnl = b.pnl := rfl
@[simp] theorem setNow_frames (t : U64) (b : Block) : (setNow t b).frames = b.frames := rfl
@[simp] theorem setNow_nfc (t : U64) (b : Block) : (setNow t b).nfc = b.nfc := rfl
@[simp] theorem setNow_rst (t : U64) (b : Block) : (setNow t b).rst = b.rst := rfl
@[simp] theorem setNow_upd (t : U64) (b : Block) : (setNow t b).upd = b.upd := rfl
@[simp] theorem setNow_btn (t : U64) (b : Block) : (setNow t b).btn = b.btn := rfl
@[simp] theorem setNow_dmp (t : U64) (b : Block) : (setNow t b).dmp = b.dmp := rfl
@[simp] theorem setNow_rpl (t : U64) (b : Block) : (setNow t b).rpl = b.rpl := rfl
@[simp] theorem setNow_dbg (t : U64) (b : Block) : (setNow t b).dbg = b.dbg := rfl
@[simp] theorem setNow_settings (t : U64) (b : Block) : (setNow t b).settings = b.settings := rfl
@[simp] theorem setNow_newSettings (t : U64) (b : Block) : (setNow t b).newSettings = b.newSettings := rfl
@[simp] theorem setNow_legalSet (t : U64) (b : Block) : (setNow t b).legalSet = b.legalSet := rfl
@[simp] theorem setNow_updRec (t : U64) (b : Block) : (setNow t b).updRec = b.updRec := rfl
@[simp] theorem setNow_kept (t : U64) (b : Block) : (setNow t b).kept = b.kept := rfl
@[simp] theorem setNow_tide (t : U64) (b : Block) : (setNow t b).tide = { b.tide with now := t } := rfl
@[simp] theorem setNow_prior (t : U64) (b : Block) : (setNow t b).prior = { met := b.met, mlk := b.mlk, veh := b.veh, saf := b.saf, lsw := b.lsw } := rfl
@[simp] theorem updPnl_tide (p : Fin 8) (f : Panel → Panel) (b : Block) : (updPnl p f b).tide = b.tide := rfl
@[simp] theorem updPnl_lau (p : Fin 8) (f : Panel → Panel) (b : Block) : (updPnl p f b).lau = b.lau := rfl
@[simp] theorem updPnl_snaps (p : Fin 8) (f : Panel → Panel) (b : Block) : (updPnl p f b).snaps = b.snaps := rfl
@[simp] theorem updPnl_barrier (p : Fin 8) (f : Panel → Panel) (b : Block) : (updPnl p f b).barrier = b.barrier := rfl
@[simp] theorem updPnl_fab (p : Fin 8) (f : Panel → Panel) (b : Block) : (updPnl p f b).fab = b.fab := rfl
@[simp] theorem updPnl_d2d (p : Fin 8) (f : Panel → Panel) (b : Block) : (updPnl p f b).d2d = b.d2d := rfl
@[simp] theorem updPnl_cross (p : Fin 8) (f : Panel → Panel) (b : Block) : (updPnl p f b).cross = b.cross := rfl
@[simp] theorem updPnl_met (p : Fin 8) (f : Panel → Panel) (b : Block) : (updPnl p f b).met = b.met := rfl
@[simp] theorem updPnl_acc (p : Fin 8) (f : Panel → Panel) (b : Block) : (updPnl p f b).acc = b.acc := rfl
@[simp] theorem updPnl_pq (p : Fin 8) (f : Panel → Panel) (b : Block) : (updPnl p f b).pq = b.pq := rfl
@[simp] theorem updPnl_sess (p : Fin 8) (f : Panel → Panel) (b : Block) : (updPnl p f b).sess = b.sess := rfl
@[simp] theorem updPnl_slu (p : Fin 8) (f : Panel → Panel) (b : Block) : (updPnl p f b).slu = b.slu := rfl
@[simp] theorem updPnl_sluCnt (p : Fin 8) (f : Panel → Panel) (b : Block) : (updPnl p f b).sluCnt = b.sluCnt := rfl
@[simp] theorem updPnl_mlk (p : Fin 8) (f : Panel → Panel) (b : Block) : (updPnl p f b).mlk = b.mlk := rfl
@[simp] theorem updPnl_veh (p : Fin 8) (f : Panel → Panel) (b : Block) : (updPnl p f b).veh = b.veh := rfl
@[simp] theorem updPnl_vehCfg (p : Fin 8) (f : Panel → Panel) (b : Block) : (updPnl p f b).vehCfg = b.vehCfg := rfl
@[simp] theorem updPnl_plc (p : Fin 8) (f : Panel → Panel) (b : Block) : (updPnl p f b).plc = b.plc := rfl
@[simp] theorem updPnl_plcCfg (p : Fin 8) (f : Panel → Panel) (b : Block) : (updPnl p f b).plcCfg = b.plcCfg := rfl
@[simp] theorem updPnl_v2g (p : Fin 8) (f : Panel → Panel) (b : Block) : (updPnl p f b).v2g = b.v2g := rfl
@[simp] theorem updPnl_v2gCfg (p : Fin 8) (f : Panel → Panel) (b : Block) : (updPnl p f b).v2gCfg = b.v2gCfg := rfl
@[simp] theorem updPnl_imd (p : Fin 8) (f : Panel → Panel) (b : Block) : (updPnl p f b).imd = b.imd := rfl
@[simp] theorem updPnl_imdG (p : Fin 8) (f : Panel → Panel) (b : Block) : (updPnl p f b).imdG = b.imdG := rfl
@[simp] theorem updPnl_rcm (p : Fin 8) (f : Panel → Panel) (b : Block) : (updPnl p f b).rcm = b.rcm := rfl
@[simp] theorem updPnl_rcmTest (p : Fin 8) (f : Panel → Panel) (b : Block) : (updPnl p f b).rcmTest = b.rcmTest := rfl
@[simp] theorem updPnl_saf (p : Fin 8) (f : Panel → Panel) (b : Block) : (updPnl p f b).saf = b.saf := rfl
@[simp] theorem updPnl_safX (p : Fin 8) (f : Panel → Panel) (b : Block) : (updPnl p f b).safX = b.safX := rfl
@[simp] theorem updPnl_lsw (p : Fin 8) (f : Panel → Panel) (b : Block) : (updPnl p f b).lsw = b.lsw := rfl
@[simp] theorem updPnl_pea (p : Fin 8) (f : Panel → Panel) (b : Block) : (updPnl p f b).pea = b.pea := rfl
@[simp] theorem updPnl_arb (p : Fin 8) (f : Panel → Panel) (b : Block) : (updPnl p f b).arb = b.arb := rfl
@[simp] theorem updPnl_pf (p : Fin 8) (f : Panel → Panel) (b : Block) : (updPnl p f b).pf = b.pf := rfl
@[simp] theorem updPnl_slt (p : Fin 8) (f : Panel → Panel) (b : Block) : (updPnl p f b).slt = b.slt := rfl
@[simp] theorem updPnl_legal (p : Fin 8) (f : Panel → Panel) (b : Block) : (updPnl p f b).legal = b.legal := rfl
@[simp] theorem updPnl_auth (p : Fin 8) (f : Panel → Panel) (b : Block) : (updPnl p f b).auth = b.auth := rfl
@[simp] theorem updPnl_backup (p : Fin 8) (f : Panel → Panel) (b : Block) : (updPnl p f b).backup = b.backup := rfl
@[simp] theorem updPnl_bri (p : Fin 8) (f : Panel → Panel) (b : Block) : (updPnl p f b).bri = b.bri := rfl
@[simp] theorem updPnl_key (p : Fin 8) (f : Panel → Panel) (b : Block) : (updPnl p f b).key = b.key := rfl
@[simp] theorem updPnl_mbx (p : Fin 8) (f : Panel → Panel) (b : Block) : (updPnl p f b).mbx = b.mbx := rfl
@[simp] theorem updPnl_hp (p : Fin 8) (f : Panel → Panel) (b : Block) : (updPnl p f b).hp = b.hp := rfl
@[simp] theorem updPnl_hic (p : Fin 8) (f : Panel → Panel) (b : Block) : (updPnl p f b).hic = b.hic := rfl
@[simp] theorem updPnl_qmg (p : Fin 8) (f : Panel → Panel) (b : Block) : (updPnl p f b).qmg = b.qmg := rfl
@[simp] theorem updPnl_cwy (p : Fin 8) (f : Panel → Panel) (b : Block) : (updPnl p f b).cwy = b.cwy := rfl
@[simp] theorem updPnl_cwyX (p : Fin 8) (f : Panel → Panel) (b : Block) : (updPnl p f b).cwyX = b.cwyX := rfl
@[simp] theorem updPnl_frames (p : Fin 8) (f : Panel → Panel) (b : Block) : (updPnl p f b).frames = b.frames := rfl
@[simp] theorem updPnl_nfc (p : Fin 8) (f : Panel → Panel) (b : Block) : (updPnl p f b).nfc = b.nfc := rfl
@[simp] theorem updPnl_rst (p : Fin 8) (f : Panel → Panel) (b : Block) : (updPnl p f b).rst = b.rst := rfl
@[simp] theorem updPnl_upd (p : Fin 8) (f : Panel → Panel) (b : Block) : (updPnl p f b).upd = b.upd := rfl
@[simp] theorem updPnl_btn (p : Fin 8) (f : Panel → Panel) (b : Block) : (updPnl p f b).btn = b.btn := rfl
@[simp] theorem updPnl_dmp (p : Fin 8) (f : Panel → Panel) (b : Block) : (updPnl p f b).dmp = b.dmp := rfl
@[simp] theorem updPnl_rpl (p : Fin 8) (f : Panel → Panel) (b : Block) : (updPnl p f b).rpl = b.rpl := rfl
@[simp] theorem updPnl_dbg (p : Fin 8) (f : Panel → Panel) (b : Block) : (updPnl p f b).dbg = b.dbg := rfl
@[simp] theorem updPnl_settings (p : Fin 8) (f : Panel → Panel) (b : Block) : (updPnl p f b).settings = b.settings := rfl
@[simp] theorem updPnl_newSettings (p : Fin 8) (f : Panel → Panel) (b : Block) : (updPnl p f b).newSettings = b.newSettings := rfl
@[simp] theorem updPnl_legalSet (p : Fin 8) (f : Panel → Panel) (b : Block) : (updPnl p f b).legalSet = b.legalSet := rfl
@[simp] theorem updPnl_updRec (p : Fin 8) (f : Panel → Panel) (b : Block) : (updPnl p f b).updRec = b.updRec := rfl
@[simp] theorem updPnl_kept (p : Fin 8) (f : Panel → Panel) (b : Block) : (updPnl p f b).kept = b.kept := rfl
@[simp] theorem updPnl_prior (p : Fin 8) (f : Panel → Panel) (b : Block) : (updPnl p f b).prior = b.prior := rfl
@[simp] theorem updPnl_pnl (p : Fin 8) (f : Panel → Panel) (b : Block) : (updPnl p f b).pnl = vupd b.pnl p f := rfl
@[simp] theorem updNfc_tide (r : Fin 8) (f : Reader → Reader) (b : Block) : (updNfc r f b).tide = b.tide := rfl
@[simp] theorem updNfc_lau (r : Fin 8) (f : Reader → Reader) (b : Block) : (updNfc r f b).lau = b.lau := rfl
@[simp] theorem updNfc_snaps (r : Fin 8) (f : Reader → Reader) (b : Block) : (updNfc r f b).snaps = b.snaps := rfl
@[simp] theorem updNfc_barrier (r : Fin 8) (f : Reader → Reader) (b : Block) : (updNfc r f b).barrier = b.barrier := rfl
@[simp] theorem updNfc_fab (r : Fin 8) (f : Reader → Reader) (b : Block) : (updNfc r f b).fab = b.fab := rfl
@[simp] theorem updNfc_d2d (r : Fin 8) (f : Reader → Reader) (b : Block) : (updNfc r f b).d2d = b.d2d := rfl
@[simp] theorem updNfc_cross (r : Fin 8) (f : Reader → Reader) (b : Block) : (updNfc r f b).cross = b.cross := rfl
@[simp] theorem updNfc_met (r : Fin 8) (f : Reader → Reader) (b : Block) : (updNfc r f b).met = b.met := rfl
@[simp] theorem updNfc_acc (r : Fin 8) (f : Reader → Reader) (b : Block) : (updNfc r f b).acc = b.acc := rfl
@[simp] theorem updNfc_pq (r : Fin 8) (f : Reader → Reader) (b : Block) : (updNfc r f b).pq = b.pq := rfl
@[simp] theorem updNfc_sess (r : Fin 8) (f : Reader → Reader) (b : Block) : (updNfc r f b).sess = b.sess := rfl
@[simp] theorem updNfc_slu (r : Fin 8) (f : Reader → Reader) (b : Block) : (updNfc r f b).slu = b.slu := rfl
@[simp] theorem updNfc_sluCnt (r : Fin 8) (f : Reader → Reader) (b : Block) : (updNfc r f b).sluCnt = b.sluCnt := rfl
@[simp] theorem updNfc_mlk (r : Fin 8) (f : Reader → Reader) (b : Block) : (updNfc r f b).mlk = b.mlk := rfl
@[simp] theorem updNfc_veh (r : Fin 8) (f : Reader → Reader) (b : Block) : (updNfc r f b).veh = b.veh := rfl
@[simp] theorem updNfc_vehCfg (r : Fin 8) (f : Reader → Reader) (b : Block) : (updNfc r f b).vehCfg = b.vehCfg := rfl
@[simp] theorem updNfc_plc (r : Fin 8) (f : Reader → Reader) (b : Block) : (updNfc r f b).plc = b.plc := rfl
@[simp] theorem updNfc_plcCfg (r : Fin 8) (f : Reader → Reader) (b : Block) : (updNfc r f b).plcCfg = b.plcCfg := rfl
@[simp] theorem updNfc_v2g (r : Fin 8) (f : Reader → Reader) (b : Block) : (updNfc r f b).v2g = b.v2g := rfl
@[simp] theorem updNfc_v2gCfg (r : Fin 8) (f : Reader → Reader) (b : Block) : (updNfc r f b).v2gCfg = b.v2gCfg := rfl
@[simp] theorem updNfc_imd (r : Fin 8) (f : Reader → Reader) (b : Block) : (updNfc r f b).imd = b.imd := rfl
@[simp] theorem updNfc_imdG (r : Fin 8) (f : Reader → Reader) (b : Block) : (updNfc r f b).imdG = b.imdG := rfl
@[simp] theorem updNfc_rcm (r : Fin 8) (f : Reader → Reader) (b : Block) : (updNfc r f b).rcm = b.rcm := rfl
@[simp] theorem updNfc_rcmTest (r : Fin 8) (f : Reader → Reader) (b : Block) : (updNfc r f b).rcmTest = b.rcmTest := rfl
@[simp] theorem updNfc_saf (r : Fin 8) (f : Reader → Reader) (b : Block) : (updNfc r f b).saf = b.saf := rfl
@[simp] theorem updNfc_safX (r : Fin 8) (f : Reader → Reader) (b : Block) : (updNfc r f b).safX = b.safX := rfl
@[simp] theorem updNfc_lsw (r : Fin 8) (f : Reader → Reader) (b : Block) : (updNfc r f b).lsw = b.lsw := rfl
@[simp] theorem updNfc_pea (r : Fin 8) (f : Reader → Reader) (b : Block) : (updNfc r f b).pea = b.pea := rfl
@[simp] theorem updNfc_arb (r : Fin 8) (f : Reader → Reader) (b : Block) : (updNfc r f b).arb = b.arb := rfl
@[simp] theorem updNfc_pf (r : Fin 8) (f : Reader → Reader) (b : Block) : (updNfc r f b).pf = b.pf := rfl
@[simp] theorem updNfc_slt (r : Fin 8) (f : Reader → Reader) (b : Block) : (updNfc r f b).slt = b.slt := rfl
@[simp] theorem updNfc_legal (r : Fin 8) (f : Reader → Reader) (b : Block) : (updNfc r f b).legal = b.legal := rfl
@[simp] theorem updNfc_auth (r : Fin 8) (f : Reader → Reader) (b : Block) : (updNfc r f b).auth = b.auth := rfl
@[simp] theorem updNfc_backup (r : Fin 8) (f : Reader → Reader) (b : Block) : (updNfc r f b).backup = b.backup := rfl
@[simp] theorem updNfc_bri (r : Fin 8) (f : Reader → Reader) (b : Block) : (updNfc r f b).bri = b.bri := rfl
@[simp] theorem updNfc_key (r : Fin 8) (f : Reader → Reader) (b : Block) : (updNfc r f b).key = b.key := rfl
@[simp] theorem updNfc_mbx (r : Fin 8) (f : Reader → Reader) (b : Block) : (updNfc r f b).mbx = b.mbx := rfl
@[simp] theorem updNfc_hp (r : Fin 8) (f : Reader → Reader) (b : Block) : (updNfc r f b).hp = b.hp := rfl
@[simp] theorem updNfc_hic (r : Fin 8) (f : Reader → Reader) (b : Block) : (updNfc r f b).hic = b.hic := rfl
@[simp] theorem updNfc_qmg (r : Fin 8) (f : Reader → Reader) (b : Block) : (updNfc r f b).qmg = b.qmg := rfl
@[simp] theorem updNfc_cwy (r : Fin 8) (f : Reader → Reader) (b : Block) : (updNfc r f b).cwy = b.cwy := rfl
@[simp] theorem updNfc_cwyX (r : Fin 8) (f : Reader → Reader) (b : Block) : (updNfc r f b).cwyX = b.cwyX := rfl
@[simp] theorem updNfc_pnl (r : Fin 8) (f : Reader → Reader) (b : Block) : (updNfc r f b).pnl = b.pnl := rfl
@[simp] theorem updNfc_frames (r : Fin 8) (f : Reader → Reader) (b : Block) : (updNfc r f b).frames = b.frames := rfl
@[simp] theorem updNfc_rst (r : Fin 8) (f : Reader → Reader) (b : Block) : (updNfc r f b).rst = b.rst := rfl
@[simp] theorem updNfc_upd (r : Fin 8) (f : Reader → Reader) (b : Block) : (updNfc r f b).upd = b.upd := rfl
@[simp] theorem updNfc_btn (r : Fin 8) (f : Reader → Reader) (b : Block) : (updNfc r f b).btn = b.btn := rfl
@[simp] theorem updNfc_dmp (r : Fin 8) (f : Reader → Reader) (b : Block) : (updNfc r f b).dmp = b.dmp := rfl
@[simp] theorem updNfc_rpl (r : Fin 8) (f : Reader → Reader) (b : Block) : (updNfc r f b).rpl = b.rpl := rfl
@[simp] theorem updNfc_dbg (r : Fin 8) (f : Reader → Reader) (b : Block) : (updNfc r f b).dbg = b.dbg := rfl
@[simp] theorem updNfc_settings (r : Fin 8) (f : Reader → Reader) (b : Block) : (updNfc r f b).settings = b.settings := rfl
@[simp] theorem updNfc_newSettings (r : Fin 8) (f : Reader → Reader) (b : Block) : (updNfc r f b).newSettings = b.newSettings := rfl
@[simp] theorem updNfc_legalSet (r : Fin 8) (f : Reader → Reader) (b : Block) : (updNfc r f b).legalSet = b.legalSet := rfl
@[simp] theorem updNfc_updRec (r : Fin 8) (f : Reader → Reader) (b : Block) : (updNfc r f b).updRec = b.updRec := rfl
@[simp] theorem updNfc_kept (r : Fin 8) (f : Reader → Reader) (b : Block) : (updNfc r f b).kept = b.kept := rfl
@[simp] theorem updNfc_prior (r : Fin 8) (f : Reader → Reader) (b : Block) : (updNfc r f b).prior = b.prior := rfl
@[simp] theorem updNfc_nfc (r : Fin 8) (f : Reader → Reader) (b : Block) : (updNfc r f b).nfc = vupd b.nfc r f := rfl
@[simp] theorem updPea_tide (f : Peat → Peat) (b : Block) : (updPea f b).tide = b.tide := rfl
@[simp] theorem updPea_lau (f : Peat → Peat) (b : Block) : (updPea f b).lau = b.lau := rfl
@[simp] theorem updPea_snaps (f : Peat → Peat) (b : Block) : (updPea f b).snaps = b.snaps := rfl
@[simp] theorem updPea_barrier (f : Peat → Peat) (b : Block) : (updPea f b).barrier = b.barrier := rfl
@[simp] theorem updPea_fab (f : Peat → Peat) (b : Block) : (updPea f b).fab = b.fab := rfl
@[simp] theorem updPea_d2d (f : Peat → Peat) (b : Block) : (updPea f b).d2d = b.d2d := rfl
@[simp] theorem updPea_cross (f : Peat → Peat) (b : Block) : (updPea f b).cross = b.cross := rfl
@[simp] theorem updPea_met (f : Peat → Peat) (b : Block) : (updPea f b).met = b.met := rfl
@[simp] theorem updPea_acc (f : Peat → Peat) (b : Block) : (updPea f b).acc = b.acc := rfl
@[simp] theorem updPea_pq (f : Peat → Peat) (b : Block) : (updPea f b).pq = b.pq := rfl
@[simp] theorem updPea_sess (f : Peat → Peat) (b : Block) : (updPea f b).sess = b.sess := rfl
@[simp] theorem updPea_slu (f : Peat → Peat) (b : Block) : (updPea f b).slu = b.slu := rfl
@[simp] theorem updPea_sluCnt (f : Peat → Peat) (b : Block) : (updPea f b).sluCnt = b.sluCnt := rfl
@[simp] theorem updPea_mlk (f : Peat → Peat) (b : Block) : (updPea f b).mlk = b.mlk := rfl
@[simp] theorem updPea_veh (f : Peat → Peat) (b : Block) : (updPea f b).veh = b.veh := rfl
@[simp] theorem updPea_vehCfg (f : Peat → Peat) (b : Block) : (updPea f b).vehCfg = b.vehCfg := rfl
@[simp] theorem updPea_plc (f : Peat → Peat) (b : Block) : (updPea f b).plc = b.plc := rfl
@[simp] theorem updPea_plcCfg (f : Peat → Peat) (b : Block) : (updPea f b).plcCfg = b.plcCfg := rfl
@[simp] theorem updPea_v2g (f : Peat → Peat) (b : Block) : (updPea f b).v2g = b.v2g := rfl
@[simp] theorem updPea_v2gCfg (f : Peat → Peat) (b : Block) : (updPea f b).v2gCfg = b.v2gCfg := rfl
@[simp] theorem updPea_imd (f : Peat → Peat) (b : Block) : (updPea f b).imd = b.imd := rfl
@[simp] theorem updPea_imdG (f : Peat → Peat) (b : Block) : (updPea f b).imdG = b.imdG := rfl
@[simp] theorem updPea_rcm (f : Peat → Peat) (b : Block) : (updPea f b).rcm = b.rcm := rfl
@[simp] theorem updPea_rcmTest (f : Peat → Peat) (b : Block) : (updPea f b).rcmTest = b.rcmTest := rfl
@[simp] theorem updPea_saf (f : Peat → Peat) (b : Block) : (updPea f b).saf = b.saf := rfl
@[simp] theorem updPea_safX (f : Peat → Peat) (b : Block) : (updPea f b).safX = b.safX := rfl
@[simp] theorem updPea_lsw (f : Peat → Peat) (b : Block) : (updPea f b).lsw = b.lsw := rfl
@[simp] theorem updPea_arb (f : Peat → Peat) (b : Block) : (updPea f b).arb = b.arb := rfl
@[simp] theorem updPea_pf (f : Peat → Peat) (b : Block) : (updPea f b).pf = b.pf := rfl
@[simp] theorem updPea_slt (f : Peat → Peat) (b : Block) : (updPea f b).slt = b.slt := rfl
@[simp] theorem updPea_legal (f : Peat → Peat) (b : Block) : (updPea f b).legal = b.legal := rfl
@[simp] theorem updPea_auth (f : Peat → Peat) (b : Block) : (updPea f b).auth = b.auth := rfl
@[simp] theorem updPea_backup (f : Peat → Peat) (b : Block) : (updPea f b).backup = b.backup := rfl
@[simp] theorem updPea_bri (f : Peat → Peat) (b : Block) : (updPea f b).bri = b.bri := rfl
@[simp] theorem updPea_key (f : Peat → Peat) (b : Block) : (updPea f b).key = b.key := rfl
@[simp] theorem updPea_mbx (f : Peat → Peat) (b : Block) : (updPea f b).mbx = b.mbx := rfl
@[simp] theorem updPea_hp (f : Peat → Peat) (b : Block) : (updPea f b).hp = b.hp := rfl
@[simp] theorem updPea_hic (f : Peat → Peat) (b : Block) : (updPea f b).hic = b.hic := rfl
@[simp] theorem updPea_qmg (f : Peat → Peat) (b : Block) : (updPea f b).qmg = b.qmg := rfl
@[simp] theorem updPea_cwy (f : Peat → Peat) (b : Block) : (updPea f b).cwy = b.cwy := rfl
@[simp] theorem updPea_cwyX (f : Peat → Peat) (b : Block) : (updPea f b).cwyX = b.cwyX := rfl
@[simp] theorem updPea_pnl (f : Peat → Peat) (b : Block) : (updPea f b).pnl = b.pnl := rfl
@[simp] theorem updPea_frames (f : Peat → Peat) (b : Block) : (updPea f b).frames = b.frames := rfl
@[simp] theorem updPea_nfc (f : Peat → Peat) (b : Block) : (updPea f b).nfc = b.nfc := rfl
@[simp] theorem updPea_rst (f : Peat → Peat) (b : Block) : (updPea f b).rst = b.rst := rfl
@[simp] theorem updPea_upd (f : Peat → Peat) (b : Block) : (updPea f b).upd = b.upd := rfl
@[simp] theorem updPea_btn (f : Peat → Peat) (b : Block) : (updPea f b).btn = b.btn := rfl
@[simp] theorem updPea_dmp (f : Peat → Peat) (b : Block) : (updPea f b).dmp = b.dmp := rfl
@[simp] theorem updPea_rpl (f : Peat → Peat) (b : Block) : (updPea f b).rpl = b.rpl := rfl
@[simp] theorem updPea_dbg (f : Peat → Peat) (b : Block) : (updPea f b).dbg = b.dbg := rfl
@[simp] theorem updPea_settings (f : Peat → Peat) (b : Block) : (updPea f b).settings = b.settings := rfl
@[simp] theorem updPea_newSettings (f : Peat → Peat) (b : Block) : (updPea f b).newSettings = b.newSettings := rfl
@[simp] theorem updPea_legalSet (f : Peat → Peat) (b : Block) : (updPea f b).legalSet = b.legalSet := rfl
@[simp] theorem updPea_updRec (f : Peat → Peat) (b : Block) : (updPea f b).updRec = b.updRec := rfl
@[simp] theorem updPea_kept (f : Peat → Peat) (b : Block) : (updPea f b).kept = b.kept := rfl
@[simp] theorem updPea_prior (f : Peat → Peat) (b : Block) : (updPea f b).prior = b.prior := rfl
@[simp] theorem updPea_pea (f : Peat → Peat) (b : Block) : (updPea f b).pea = f b.pea := rfl
@[simp] theorem updArb_tide (f : Arbiter → Arbiter) (b : Block) : (updArb f b).tide = b.tide := rfl
@[simp] theorem updArb_lau (f : Arbiter → Arbiter) (b : Block) : (updArb f b).lau = b.lau := rfl
@[simp] theorem updArb_snaps (f : Arbiter → Arbiter) (b : Block) : (updArb f b).snaps = b.snaps := rfl
@[simp] theorem updArb_barrier (f : Arbiter → Arbiter) (b : Block) : (updArb f b).barrier = b.barrier := rfl
@[simp] theorem updArb_fab (f : Arbiter → Arbiter) (b : Block) : (updArb f b).fab = b.fab := rfl
@[simp] theorem updArb_d2d (f : Arbiter → Arbiter) (b : Block) : (updArb f b).d2d = b.d2d := rfl
@[simp] theorem updArb_cross (f : Arbiter → Arbiter) (b : Block) : (updArb f b).cross = b.cross := rfl
@[simp] theorem updArb_met (f : Arbiter → Arbiter) (b : Block) : (updArb f b).met = b.met := rfl
@[simp] theorem updArb_acc (f : Arbiter → Arbiter) (b : Block) : (updArb f b).acc = b.acc := rfl
@[simp] theorem updArb_pq (f : Arbiter → Arbiter) (b : Block) : (updArb f b).pq = b.pq := rfl
@[simp] theorem updArb_sess (f : Arbiter → Arbiter) (b : Block) : (updArb f b).sess = b.sess := rfl
@[simp] theorem updArb_slu (f : Arbiter → Arbiter) (b : Block) : (updArb f b).slu = b.slu := rfl
@[simp] theorem updArb_sluCnt (f : Arbiter → Arbiter) (b : Block) : (updArb f b).sluCnt = b.sluCnt := rfl
@[simp] theorem updArb_mlk (f : Arbiter → Arbiter) (b : Block) : (updArb f b).mlk = b.mlk := rfl
@[simp] theorem updArb_veh (f : Arbiter → Arbiter) (b : Block) : (updArb f b).veh = b.veh := rfl
@[simp] theorem updArb_vehCfg (f : Arbiter → Arbiter) (b : Block) : (updArb f b).vehCfg = b.vehCfg := rfl
@[simp] theorem updArb_plc (f : Arbiter → Arbiter) (b : Block) : (updArb f b).plc = b.plc := rfl
@[simp] theorem updArb_plcCfg (f : Arbiter → Arbiter) (b : Block) : (updArb f b).plcCfg = b.plcCfg := rfl
@[simp] theorem updArb_v2g (f : Arbiter → Arbiter) (b : Block) : (updArb f b).v2g = b.v2g := rfl
@[simp] theorem updArb_v2gCfg (f : Arbiter → Arbiter) (b : Block) : (updArb f b).v2gCfg = b.v2gCfg := rfl
@[simp] theorem updArb_imd (f : Arbiter → Arbiter) (b : Block) : (updArb f b).imd = b.imd := rfl
@[simp] theorem updArb_imdG (f : Arbiter → Arbiter) (b : Block) : (updArb f b).imdG = b.imdG := rfl
@[simp] theorem updArb_rcm (f : Arbiter → Arbiter) (b : Block) : (updArb f b).rcm = b.rcm := rfl
@[simp] theorem updArb_rcmTest (f : Arbiter → Arbiter) (b : Block) : (updArb f b).rcmTest = b.rcmTest := rfl
@[simp] theorem updArb_saf (f : Arbiter → Arbiter) (b : Block) : (updArb f b).saf = b.saf := rfl
@[simp] theorem updArb_safX (f : Arbiter → Arbiter) (b : Block) : (updArb f b).safX = b.safX := rfl
@[simp] theorem updArb_lsw (f : Arbiter → Arbiter) (b : Block) : (updArb f b).lsw = b.lsw := rfl
@[simp] theorem updArb_pea (f : Arbiter → Arbiter) (b : Block) : (updArb f b).pea = b.pea := rfl
@[simp] theorem updArb_pf (f : Arbiter → Arbiter) (b : Block) : (updArb f b).pf = b.pf := rfl
@[simp] theorem updArb_slt (f : Arbiter → Arbiter) (b : Block) : (updArb f b).slt = b.slt := rfl
@[simp] theorem updArb_legal (f : Arbiter → Arbiter) (b : Block) : (updArb f b).legal = b.legal := rfl
@[simp] theorem updArb_auth (f : Arbiter → Arbiter) (b : Block) : (updArb f b).auth = b.auth := rfl
@[simp] theorem updArb_backup (f : Arbiter → Arbiter) (b : Block) : (updArb f b).backup = b.backup := rfl
@[simp] theorem updArb_bri (f : Arbiter → Arbiter) (b : Block) : (updArb f b).bri = b.bri := rfl
@[simp] theorem updArb_key (f : Arbiter → Arbiter) (b : Block) : (updArb f b).key = b.key := rfl
@[simp] theorem updArb_mbx (f : Arbiter → Arbiter) (b : Block) : (updArb f b).mbx = b.mbx := rfl
@[simp] theorem updArb_hp (f : Arbiter → Arbiter) (b : Block) : (updArb f b).hp = b.hp := rfl
@[simp] theorem updArb_hic (f : Arbiter → Arbiter) (b : Block) : (updArb f b).hic = b.hic := rfl
@[simp] theorem updArb_qmg (f : Arbiter → Arbiter) (b : Block) : (updArb f b).qmg = b.qmg := rfl
@[simp] theorem updArb_cwy (f : Arbiter → Arbiter) (b : Block) : (updArb f b).cwy = b.cwy := rfl
@[simp] theorem updArb_cwyX (f : Arbiter → Arbiter) (b : Block) : (updArb f b).cwyX = b.cwyX := rfl
@[simp] theorem updArb_pnl (f : Arbiter → Arbiter) (b : Block) : (updArb f b).pnl = b.pnl := rfl
@[simp] theorem updArb_frames (f : Arbiter → Arbiter) (b : Block) : (updArb f b).frames = b.frames := rfl
@[simp] theorem updArb_nfc (f : Arbiter → Arbiter) (b : Block) : (updArb f b).nfc = b.nfc := rfl
@[simp] theorem updArb_rst (f : Arbiter → Arbiter) (b : Block) : (updArb f b).rst = b.rst := rfl
@[simp] theorem updArb_upd (f : Arbiter → Arbiter) (b : Block) : (updArb f b).upd = b.upd := rfl
@[simp] theorem updArb_btn (f : Arbiter → Arbiter) (b : Block) : (updArb f b).btn = b.btn := rfl
@[simp] theorem updArb_dmp (f : Arbiter → Arbiter) (b : Block) : (updArb f b).dmp = b.dmp := rfl
@[simp] theorem updArb_rpl (f : Arbiter → Arbiter) (b : Block) : (updArb f b).rpl = b.rpl := rfl
@[simp] theorem updArb_dbg (f : Arbiter → Arbiter) (b : Block) : (updArb f b).dbg = b.dbg := rfl
@[simp] theorem updArb_settings (f : Arbiter → Arbiter) (b : Block) : (updArb f b).settings = b.settings := rfl
@[simp] theorem updArb_newSettings (f : Arbiter → Arbiter) (b : Block) : (updArb f b).newSettings = b.newSettings := rfl
@[simp] theorem updArb_legalSet (f : Arbiter → Arbiter) (b : Block) : (updArb f b).legalSet = b.legalSet := rfl
@[simp] theorem updArb_updRec (f : Arbiter → Arbiter) (b : Block) : (updArb f b).updRec = b.updRec := rfl
@[simp] theorem updArb_kept (f : Arbiter → Arbiter) (b : Block) : (updArb f b).kept = b.kept := rfl
@[simp] theorem updArb_prior (f : Arbiter → Arbiter) (b : Block) : (updArb f b).prior = b.prior := rfl
@[simp] theorem updArb_arb (f : Arbiter → Arbiter) (b : Block) : (updArb f b).arb = f b.arb := rfl
@[simp] theorem updPf_tide (f : PowerFail → PowerFail) (b : Block) : (updPf f b).tide = b.tide := rfl
@[simp] theorem updPf_lau (f : PowerFail → PowerFail) (b : Block) : (updPf f b).lau = b.lau := rfl
@[simp] theorem updPf_snaps (f : PowerFail → PowerFail) (b : Block) : (updPf f b).snaps = b.snaps := rfl
@[simp] theorem updPf_barrier (f : PowerFail → PowerFail) (b : Block) : (updPf f b).barrier = b.barrier := rfl
@[simp] theorem updPf_fab (f : PowerFail → PowerFail) (b : Block) : (updPf f b).fab = b.fab := rfl
@[simp] theorem updPf_d2d (f : PowerFail → PowerFail) (b : Block) : (updPf f b).d2d = b.d2d := rfl
@[simp] theorem updPf_cross (f : PowerFail → PowerFail) (b : Block) : (updPf f b).cross = b.cross := rfl
@[simp] theorem updPf_met (f : PowerFail → PowerFail) (b : Block) : (updPf f b).met = b.met := rfl
@[simp] theorem updPf_acc (f : PowerFail → PowerFail) (b : Block) : (updPf f b).acc = b.acc := rfl
@[simp] theorem updPf_pq (f : PowerFail → PowerFail) (b : Block) : (updPf f b).pq = b.pq := rfl
@[simp] theorem updPf_sess (f : PowerFail → PowerFail) (b : Block) : (updPf f b).sess = b.sess := rfl
@[simp] theorem updPf_slu (f : PowerFail → PowerFail) (b : Block) : (updPf f b).slu = b.slu := rfl
@[simp] theorem updPf_sluCnt (f : PowerFail → PowerFail) (b : Block) : (updPf f b).sluCnt = b.sluCnt := rfl
@[simp] theorem updPf_mlk (f : PowerFail → PowerFail) (b : Block) : (updPf f b).mlk = b.mlk := rfl
@[simp] theorem updPf_veh (f : PowerFail → PowerFail) (b : Block) : (updPf f b).veh = b.veh := rfl
@[simp] theorem updPf_vehCfg (f : PowerFail → PowerFail) (b : Block) : (updPf f b).vehCfg = b.vehCfg := rfl
@[simp] theorem updPf_plc (f : PowerFail → PowerFail) (b : Block) : (updPf f b).plc = b.plc := rfl
@[simp] theorem updPf_plcCfg (f : PowerFail → PowerFail) (b : Block) : (updPf f b).plcCfg = b.plcCfg := rfl
@[simp] theorem updPf_v2g (f : PowerFail → PowerFail) (b : Block) : (updPf f b).v2g = b.v2g := rfl
@[simp] theorem updPf_v2gCfg (f : PowerFail → PowerFail) (b : Block) : (updPf f b).v2gCfg = b.v2gCfg := rfl
@[simp] theorem updPf_imd (f : PowerFail → PowerFail) (b : Block) : (updPf f b).imd = b.imd := rfl
@[simp] theorem updPf_imdG (f : PowerFail → PowerFail) (b : Block) : (updPf f b).imdG = b.imdG := rfl
@[simp] theorem updPf_rcm (f : PowerFail → PowerFail) (b : Block) : (updPf f b).rcm = b.rcm := rfl
@[simp] theorem updPf_rcmTest (f : PowerFail → PowerFail) (b : Block) : (updPf f b).rcmTest = b.rcmTest := rfl
@[simp] theorem updPf_saf (f : PowerFail → PowerFail) (b : Block) : (updPf f b).saf = b.saf := rfl
@[simp] theorem updPf_safX (f : PowerFail → PowerFail) (b : Block) : (updPf f b).safX = b.safX := rfl
@[simp] theorem updPf_lsw (f : PowerFail → PowerFail) (b : Block) : (updPf f b).lsw = b.lsw := rfl
@[simp] theorem updPf_pea (f : PowerFail → PowerFail) (b : Block) : (updPf f b).pea = b.pea := rfl
@[simp] theorem updPf_arb (f : PowerFail → PowerFail) (b : Block) : (updPf f b).arb = b.arb := rfl
@[simp] theorem updPf_slt (f : PowerFail → PowerFail) (b : Block) : (updPf f b).slt = b.slt := rfl
@[simp] theorem updPf_legal (f : PowerFail → PowerFail) (b : Block) : (updPf f b).legal = b.legal := rfl
@[simp] theorem updPf_auth (f : PowerFail → PowerFail) (b : Block) : (updPf f b).auth = b.auth := rfl
@[simp] theorem updPf_backup (f : PowerFail → PowerFail) (b : Block) : (updPf f b).backup = b.backup := rfl
@[simp] theorem updPf_bri (f : PowerFail → PowerFail) (b : Block) : (updPf f b).bri = b.bri := rfl
@[simp] theorem updPf_key (f : PowerFail → PowerFail) (b : Block) : (updPf f b).key = b.key := rfl
@[simp] theorem updPf_mbx (f : PowerFail → PowerFail) (b : Block) : (updPf f b).mbx = b.mbx := rfl
@[simp] theorem updPf_hp (f : PowerFail → PowerFail) (b : Block) : (updPf f b).hp = b.hp := rfl
@[simp] theorem updPf_hic (f : PowerFail → PowerFail) (b : Block) : (updPf f b).hic = b.hic := rfl
@[simp] theorem updPf_qmg (f : PowerFail → PowerFail) (b : Block) : (updPf f b).qmg = b.qmg := rfl
@[simp] theorem updPf_cwy (f : PowerFail → PowerFail) (b : Block) : (updPf f b).cwy = b.cwy := rfl
@[simp] theorem updPf_cwyX (f : PowerFail → PowerFail) (b : Block) : (updPf f b).cwyX = b.cwyX := rfl
@[simp] theorem updPf_pnl (f : PowerFail → PowerFail) (b : Block) : (updPf f b).pnl = b.pnl := rfl
@[simp] theorem updPf_frames (f : PowerFail → PowerFail) (b : Block) : (updPf f b).frames = b.frames := rfl
@[simp] theorem updPf_nfc (f : PowerFail → PowerFail) (b : Block) : (updPf f b).nfc = b.nfc := rfl
@[simp] theorem updPf_rst (f : PowerFail → PowerFail) (b : Block) : (updPf f b).rst = b.rst := rfl
@[simp] theorem updPf_upd (f : PowerFail → PowerFail) (b : Block) : (updPf f b).upd = b.upd := rfl
@[simp] theorem updPf_btn (f : PowerFail → PowerFail) (b : Block) : (updPf f b).btn = b.btn := rfl
@[simp] theorem updPf_dmp (f : PowerFail → PowerFail) (b : Block) : (updPf f b).dmp = b.dmp := rfl
@[simp] theorem updPf_rpl (f : PowerFail → PowerFail) (b : Block) : (updPf f b).rpl = b.rpl := rfl
@[simp] theorem updPf_dbg (f : PowerFail → PowerFail) (b : Block) : (updPf f b).dbg = b.dbg := rfl
@[simp] theorem updPf_settings (f : PowerFail → PowerFail) (b : Block) : (updPf f b).settings = b.settings := rfl
@[simp] theorem updPf_newSettings (f : PowerFail → PowerFail) (b : Block) : (updPf f b).newSettings = b.newSettings := rfl
@[simp] theorem updPf_legalSet (f : PowerFail → PowerFail) (b : Block) : (updPf f b).legalSet = b.legalSet := rfl
@[simp] theorem updPf_updRec (f : PowerFail → PowerFail) (b : Block) : (updPf f b).updRec = b.updRec := rfl
@[simp] theorem updPf_kept (f : PowerFail → PowerFail) (b : Block) : (updPf f b).kept = b.kept := rfl
@[simp] theorem updPf_prior (f : PowerFail → PowerFail) (b : Block) : (updPf f b).prior = b.prior := rfl
@[simp] theorem updPf_pf (f : PowerFail → PowerFail) (b : Block) : (updPf f b).pf = f b.pf := rfl
@[simp] theorem updUpd_tide (f : Update → Update) (b : Block) : (updUpd f b).tide = b.tide := rfl
@[simp] theorem updUpd_lau (f : Update → Update) (b : Block) : (updUpd f b).lau = b.lau := rfl
@[simp] theorem updUpd_snaps (f : Update → Update) (b : Block) : (updUpd f b).snaps = b.snaps := rfl
@[simp] theorem updUpd_barrier (f : Update → Update) (b : Block) : (updUpd f b).barrier = b.barrier := rfl
@[simp] theorem updUpd_fab (f : Update → Update) (b : Block) : (updUpd f b).fab = b.fab := rfl
@[simp] theorem updUpd_d2d (f : Update → Update) (b : Block) : (updUpd f b).d2d = b.d2d := rfl
@[simp] theorem updUpd_cross (f : Update → Update) (b : Block) : (updUpd f b).cross = b.cross := rfl
@[simp] theorem updUpd_met (f : Update → Update) (b : Block) : (updUpd f b).met = b.met := rfl
@[simp] theorem updUpd_acc (f : Update → Update) (b : Block) : (updUpd f b).acc = b.acc := rfl
@[simp] theorem updUpd_pq (f : Update → Update) (b : Block) : (updUpd f b).pq = b.pq := rfl
@[simp] theorem updUpd_sess (f : Update → Update) (b : Block) : (updUpd f b).sess = b.sess := rfl
@[simp] theorem updUpd_slu (f : Update → Update) (b : Block) : (updUpd f b).slu = b.slu := rfl
@[simp] theorem updUpd_sluCnt (f : Update → Update) (b : Block) : (updUpd f b).sluCnt = b.sluCnt := rfl
@[simp] theorem updUpd_mlk (f : Update → Update) (b : Block) : (updUpd f b).mlk = b.mlk := rfl
@[simp] theorem updUpd_veh (f : Update → Update) (b : Block) : (updUpd f b).veh = b.veh := rfl
@[simp] theorem updUpd_vehCfg (f : Update → Update) (b : Block) : (updUpd f b).vehCfg = b.vehCfg := rfl
@[simp] theorem updUpd_plc (f : Update → Update) (b : Block) : (updUpd f b).plc = b.plc := rfl
@[simp] theorem updUpd_plcCfg (f : Update → Update) (b : Block) : (updUpd f b).plcCfg = b.plcCfg := rfl
@[simp] theorem updUpd_v2g (f : Update → Update) (b : Block) : (updUpd f b).v2g = b.v2g := rfl
@[simp] theorem updUpd_v2gCfg (f : Update → Update) (b : Block) : (updUpd f b).v2gCfg = b.v2gCfg := rfl
@[simp] theorem updUpd_imd (f : Update → Update) (b : Block) : (updUpd f b).imd = b.imd := rfl
@[simp] theorem updUpd_imdG (f : Update → Update) (b : Block) : (updUpd f b).imdG = b.imdG := rfl
@[simp] theorem updUpd_rcm (f : Update → Update) (b : Block) : (updUpd f b).rcm = b.rcm := rfl
@[simp] theorem updUpd_rcmTest (f : Update → Update) (b : Block) : (updUpd f b).rcmTest = b.rcmTest := rfl
@[simp] theorem updUpd_saf (f : Update → Update) (b : Block) : (updUpd f b).saf = b.saf := rfl
@[simp] theorem updUpd_safX (f : Update → Update) (b : Block) : (updUpd f b).safX = b.safX := rfl
@[simp] theorem updUpd_lsw (f : Update → Update) (b : Block) : (updUpd f b).lsw = b.lsw := rfl
@[simp] theorem updUpd_pea (f : Update → Update) (b : Block) : (updUpd f b).pea = b.pea := rfl
@[simp] theorem updUpd_arb (f : Update → Update) (b : Block) : (updUpd f b).arb = b.arb := rfl
@[simp] theorem updUpd_pf (f : Update → Update) (b : Block) : (updUpd f b).pf = b.pf := rfl
@[simp] theorem updUpd_slt (f : Update → Update) (b : Block) : (updUpd f b).slt = b.slt := rfl
@[simp] theorem updUpd_legal (f : Update → Update) (b : Block) : (updUpd f b).legal = b.legal := rfl
@[simp] theorem updUpd_auth (f : Update → Update) (b : Block) : (updUpd f b).auth = b.auth := rfl
@[simp] theorem updUpd_backup (f : Update → Update) (b : Block) : (updUpd f b).backup = b.backup := rfl
@[simp] theorem updUpd_bri (f : Update → Update) (b : Block) : (updUpd f b).bri = b.bri := rfl
@[simp] theorem updUpd_key (f : Update → Update) (b : Block) : (updUpd f b).key = b.key := rfl
@[simp] theorem updUpd_mbx (f : Update → Update) (b : Block) : (updUpd f b).mbx = b.mbx := rfl
@[simp] theorem updUpd_hp (f : Update → Update) (b : Block) : (updUpd f b).hp = b.hp := rfl
@[simp] theorem updUpd_hic (f : Update → Update) (b : Block) : (updUpd f b).hic = b.hic := rfl
@[simp] theorem updUpd_qmg (f : Update → Update) (b : Block) : (updUpd f b).qmg = b.qmg := rfl
@[simp] theorem updUpd_cwy (f : Update → Update) (b : Block) : (updUpd f b).cwy = b.cwy := rfl
@[simp] theorem updUpd_cwyX (f : Update → Update) (b : Block) : (updUpd f b).cwyX = b.cwyX := rfl
@[simp] theorem updUpd_pnl (f : Update → Update) (b : Block) : (updUpd f b).pnl = b.pnl := rfl
@[simp] theorem updUpd_frames (f : Update → Update) (b : Block) : (updUpd f b).frames = b.frames := rfl
@[simp] theorem updUpd_nfc (f : Update → Update) (b : Block) : (updUpd f b).nfc = b.nfc := rfl
@[simp] theorem updUpd_rst (f : Update → Update) (b : Block) : (updUpd f b).rst = b.rst := rfl
@[simp] theorem updUpd_btn (f : Update → Update) (b : Block) : (updUpd f b).btn = b.btn := rfl
@[simp] theorem updUpd_dmp (f : Update → Update) (b : Block) : (updUpd f b).dmp = b.dmp := rfl
@[simp] theorem updUpd_rpl (f : Update → Update) (b : Block) : (updUpd f b).rpl = b.rpl := rfl
@[simp] theorem updUpd_dbg (f : Update → Update) (b : Block) : (updUpd f b).dbg = b.dbg := rfl
@[simp] theorem updUpd_settings (f : Update → Update) (b : Block) : (updUpd f b).settings = b.settings := rfl
@[simp] theorem updUpd_newSettings (f : Update → Update) (b : Block) : (updUpd f b).newSettings = b.newSettings := rfl
@[simp] theorem updUpd_legalSet (f : Update → Update) (b : Block) : (updUpd f b).legalSet = b.legalSet := rfl
@[simp] theorem updUpd_updRec (f : Update → Update) (b : Block) : (updUpd f b).updRec = b.updRec := rfl
@[simp] theorem updUpd_kept (f : Update → Update) (b : Block) : (updUpd f b).kept = b.kept := rfl
@[simp] theorem updUpd_prior (f : Update → Update) (b : Block) : (updUpd f b).prior = b.prior := rfl
@[simp] theorem updUpd_upd (f : Update → Update) (b : Block) : (updUpd f b).upd = f b.upd := rfl
@[simp] theorem setOwner_tide (u : Nat) (o : Owner) (b : Block) : (setOwner u o b).tide = b.tide := rfl
@[simp] theorem setOwner_lau (u : Nat) (o : Owner) (b : Block) : (setOwner u o b).lau = b.lau := rfl
@[simp] theorem setOwner_snaps (u : Nat) (o : Owner) (b : Block) : (setOwner u o b).snaps = b.snaps := rfl
@[simp] theorem setOwner_barrier (u : Nat) (o : Owner) (b : Block) : (setOwner u o b).barrier = b.barrier := rfl
@[simp] theorem setOwner_fab (u : Nat) (o : Owner) (b : Block) : (setOwner u o b).fab = b.fab := rfl
@[simp] theorem setOwner_d2d (u : Nat) (o : Owner) (b : Block) : (setOwner u o b).d2d = b.d2d := rfl
@[simp] theorem setOwner_cross (u : Nat) (o : Owner) (b : Block) : (setOwner u o b).cross = b.cross := rfl
@[simp] theorem setOwner_met (u : Nat) (o : Owner) (b : Block) : (setOwner u o b).met = b.met := rfl
@[simp] theorem setOwner_acc (u : Nat) (o : Owner) (b : Block) : (setOwner u o b).acc = b.acc := rfl
@[simp] theorem setOwner_pq (u : Nat) (o : Owner) (b : Block) : (setOwner u o b).pq = b.pq := rfl
@[simp] theorem setOwner_sess (u : Nat) (o : Owner) (b : Block) : (setOwner u o b).sess = b.sess := rfl
@[simp] theorem setOwner_slu (u : Nat) (o : Owner) (b : Block) : (setOwner u o b).slu = b.slu := rfl
@[simp] theorem setOwner_sluCnt (u : Nat) (o : Owner) (b : Block) : (setOwner u o b).sluCnt = b.sluCnt := rfl
@[simp] theorem setOwner_mlk (u : Nat) (o : Owner) (b : Block) : (setOwner u o b).mlk = b.mlk := rfl
@[simp] theorem setOwner_veh (u : Nat) (o : Owner) (b : Block) : (setOwner u o b).veh = b.veh := rfl
@[simp] theorem setOwner_vehCfg (u : Nat) (o : Owner) (b : Block) : (setOwner u o b).vehCfg = b.vehCfg := rfl
@[simp] theorem setOwner_plc (u : Nat) (o : Owner) (b : Block) : (setOwner u o b).plc = b.plc := rfl
@[simp] theorem setOwner_plcCfg (u : Nat) (o : Owner) (b : Block) : (setOwner u o b).plcCfg = b.plcCfg := rfl
@[simp] theorem setOwner_v2g (u : Nat) (o : Owner) (b : Block) : (setOwner u o b).v2g = b.v2g := rfl
@[simp] theorem setOwner_v2gCfg (u : Nat) (o : Owner) (b : Block) : (setOwner u o b).v2gCfg = b.v2gCfg := rfl
@[simp] theorem setOwner_imd (u : Nat) (o : Owner) (b : Block) : (setOwner u o b).imd = b.imd := rfl
@[simp] theorem setOwner_imdG (u : Nat) (o : Owner) (b : Block) : (setOwner u o b).imdG = b.imdG := rfl
@[simp] theorem setOwner_rcm (u : Nat) (o : Owner) (b : Block) : (setOwner u o b).rcm = b.rcm := rfl
@[simp] theorem setOwner_rcmTest (u : Nat) (o : Owner) (b : Block) : (setOwner u o b).rcmTest = b.rcmTest := rfl
@[simp] theorem setOwner_saf (u : Nat) (o : Owner) (b : Block) : (setOwner u o b).saf = b.saf := rfl
@[simp] theorem setOwner_safX (u : Nat) (o : Owner) (b : Block) : (setOwner u o b).safX = b.safX := rfl
@[simp] theorem setOwner_lsw (u : Nat) (o : Owner) (b : Block) : (setOwner u o b).lsw = b.lsw := rfl
@[simp] theorem setOwner_pea (u : Nat) (o : Owner) (b : Block) : (setOwner u o b).pea = b.pea := rfl
@[simp] theorem setOwner_arb (u : Nat) (o : Owner) (b : Block) : (setOwner u o b).arb = b.arb := rfl
@[simp] theorem setOwner_pf (u : Nat) (o : Owner) (b : Block) : (setOwner u o b).pf = b.pf := rfl
@[simp] theorem setOwner_slt (u : Nat) (o : Owner) (b : Block) : (setOwner u o b).slt = b.slt := rfl
@[simp] theorem setOwner_legal (u : Nat) (o : Owner) (b : Block) : (setOwner u o b).legal = b.legal := rfl
@[simp] theorem setOwner_auth (u : Nat) (o : Owner) (b : Block) : (setOwner u o b).auth = b.auth := rfl
@[simp] theorem setOwner_backup (u : Nat) (o : Owner) (b : Block) : (setOwner u o b).backup = b.backup := rfl
@[simp] theorem setOwner_bri (u : Nat) (o : Owner) (b : Block) : (setOwner u o b).bri = b.bri := rfl
@[simp] theorem setOwner_key (u : Nat) (o : Owner) (b : Block) : (setOwner u o b).key = b.key := rfl
@[simp] theorem setOwner_mbx (u : Nat) (o : Owner) (b : Block) : (setOwner u o b).mbx = b.mbx := rfl
@[simp] theorem setOwner_hp (u : Nat) (o : Owner) (b : Block) : (setOwner u o b).hp = b.hp := rfl
@[simp] theorem setOwner_hic (u : Nat) (o : Owner) (b : Block) : (setOwner u o b).hic = b.hic := rfl
@[simp] theorem setOwner_cwy (u : Nat) (o : Owner) (b : Block) : (setOwner u o b).cwy = b.cwy := rfl
@[simp] theorem setOwner_cwyX (u : Nat) (o : Owner) (b : Block) : (setOwner u o b).cwyX = b.cwyX := rfl
@[simp] theorem setOwner_pnl (u : Nat) (o : Owner) (b : Block) : (setOwner u o b).pnl = b.pnl := rfl
@[simp] theorem setOwner_frames (u : Nat) (o : Owner) (b : Block) : (setOwner u o b).frames = b.frames := rfl
@[simp] theorem setOwner_nfc (u : Nat) (o : Owner) (b : Block) : (setOwner u o b).nfc = b.nfc := rfl
@[simp] theorem setOwner_rst (u : Nat) (o : Owner) (b : Block) : (setOwner u o b).rst = b.rst := rfl
@[simp] theorem setOwner_upd (u : Nat) (o : Owner) (b : Block) : (setOwner u o b).upd = b.upd := rfl
@[simp] theorem setOwner_btn (u : Nat) (o : Owner) (b : Block) : (setOwner u o b).btn = b.btn := rfl
@[simp] theorem setOwner_dmp (u : Nat) (o : Owner) (b : Block) : (setOwner u o b).dmp = b.dmp := rfl
@[simp] theorem setOwner_rpl (u : Nat) (o : Owner) (b : Block) : (setOwner u o b).rpl = b.rpl := rfl
@[simp] theorem setOwner_dbg (u : Nat) (o : Owner) (b : Block) : (setOwner u o b).dbg = b.dbg := rfl
@[simp] theorem setOwner_settings (u : Nat) (o : Owner) (b : Block) : (setOwner u o b).settings = b.settings := rfl
@[simp] theorem setOwner_newSettings (u : Nat) (o : Owner) (b : Block) : (setOwner u o b).newSettings = b.newSettings := rfl
@[simp] theorem setOwner_legalSet (u : Nat) (o : Owner) (b : Block) : (setOwner u o b).legalSet = b.legalSet := rfl
@[simp] theorem setOwner_updRec (u : Nat) (o : Owner) (b : Block) : (setOwner u o b).updRec = b.updRec := rfl
@[simp] theorem setOwner_kept (u : Nat) (o : Owner) (b : Block) : (setOwner u o b).kept = b.kept := rfl
@[simp] theorem setOwner_prior (u : Nat) (o : Owner) (b : Block) : (setOwner u o b).prior = b.prior := rfl
@[simp] theorem setOwner_qmg (u : Nat) (o : Owner) (b : Block) : (setOwner u o b).qmg = { b.qmg with owners := sput .free b.qmg.owners u o } := rfl
@[simp] theorem setBuf_tide (u : Nat) (l : List U8) (b : Block) : (setBuf u l b).tide = b.tide := rfl
@[simp] theorem setBuf_lau (u : Nat) (l : List U8) (b : Block) : (setBuf u l b).lau = b.lau := rfl
@[simp] theorem setBuf_snaps (u : Nat) (l : List U8) (b : Block) : (setBuf u l b).snaps = b.snaps := rfl
@[simp] theorem setBuf_barrier (u : Nat) (l : List U8) (b : Block) : (setBuf u l b).barrier = b.barrier := rfl
@[simp] theorem setBuf_fab (u : Nat) (l : List U8) (b : Block) : (setBuf u l b).fab = b.fab := rfl
@[simp] theorem setBuf_d2d (u : Nat) (l : List U8) (b : Block) : (setBuf u l b).d2d = b.d2d := rfl
@[simp] theorem setBuf_cross (u : Nat) (l : List U8) (b : Block) : (setBuf u l b).cross = b.cross := rfl
@[simp] theorem setBuf_met (u : Nat) (l : List U8) (b : Block) : (setBuf u l b).met = b.met := rfl
@[simp] theorem setBuf_acc (u : Nat) (l : List U8) (b : Block) : (setBuf u l b).acc = b.acc := rfl
@[simp] theorem setBuf_pq (u : Nat) (l : List U8) (b : Block) : (setBuf u l b).pq = b.pq := rfl
@[simp] theorem setBuf_sess (u : Nat) (l : List U8) (b : Block) : (setBuf u l b).sess = b.sess := rfl
@[simp] theorem setBuf_slu (u : Nat) (l : List U8) (b : Block) : (setBuf u l b).slu = b.slu := rfl
@[simp] theorem setBuf_sluCnt (u : Nat) (l : List U8) (b : Block) : (setBuf u l b).sluCnt = b.sluCnt := rfl
@[simp] theorem setBuf_mlk (u : Nat) (l : List U8) (b : Block) : (setBuf u l b).mlk = b.mlk := rfl
@[simp] theorem setBuf_veh (u : Nat) (l : List U8) (b : Block) : (setBuf u l b).veh = b.veh := rfl
@[simp] theorem setBuf_vehCfg (u : Nat) (l : List U8) (b : Block) : (setBuf u l b).vehCfg = b.vehCfg := rfl
@[simp] theorem setBuf_plc (u : Nat) (l : List U8) (b : Block) : (setBuf u l b).plc = b.plc := rfl
@[simp] theorem setBuf_plcCfg (u : Nat) (l : List U8) (b : Block) : (setBuf u l b).plcCfg = b.plcCfg := rfl
@[simp] theorem setBuf_v2g (u : Nat) (l : List U8) (b : Block) : (setBuf u l b).v2g = b.v2g := rfl
@[simp] theorem setBuf_v2gCfg (u : Nat) (l : List U8) (b : Block) : (setBuf u l b).v2gCfg = b.v2gCfg := rfl
@[simp] theorem setBuf_imd (u : Nat) (l : List U8) (b : Block) : (setBuf u l b).imd = b.imd := rfl
@[simp] theorem setBuf_imdG (u : Nat) (l : List U8) (b : Block) : (setBuf u l b).imdG = b.imdG := rfl
@[simp] theorem setBuf_rcm (u : Nat) (l : List U8) (b : Block) : (setBuf u l b).rcm = b.rcm := rfl
@[simp] theorem setBuf_rcmTest (u : Nat) (l : List U8) (b : Block) : (setBuf u l b).rcmTest = b.rcmTest := rfl
@[simp] theorem setBuf_saf (u : Nat) (l : List U8) (b : Block) : (setBuf u l b).saf = b.saf := rfl
@[simp] theorem setBuf_safX (u : Nat) (l : List U8) (b : Block) : (setBuf u l b).safX = b.safX := rfl
@[simp] theorem setBuf_lsw (u : Nat) (l : List U8) (b : Block) : (setBuf u l b).lsw = b.lsw := rfl
@[simp] theorem setBuf_pea (u : Nat) (l : List U8) (b : Block) : (setBuf u l b).pea = b.pea := rfl
@[simp] theorem setBuf_arb (u : Nat) (l : List U8) (b : Block) : (setBuf u l b).arb = b.arb := rfl
@[simp] theorem setBuf_pf (u : Nat) (l : List U8) (b : Block) : (setBuf u l b).pf = b.pf := rfl
@[simp] theorem setBuf_slt (u : Nat) (l : List U8) (b : Block) : (setBuf u l b).slt = b.slt := rfl
@[simp] theorem setBuf_legal (u : Nat) (l : List U8) (b : Block) : (setBuf u l b).legal = b.legal := rfl
@[simp] theorem setBuf_auth (u : Nat) (l : List U8) (b : Block) : (setBuf u l b).auth = b.auth := rfl
@[simp] theorem setBuf_backup (u : Nat) (l : List U8) (b : Block) : (setBuf u l b).backup = b.backup := rfl
@[simp] theorem setBuf_bri (u : Nat) (l : List U8) (b : Block) : (setBuf u l b).bri = b.bri := rfl
@[simp] theorem setBuf_key (u : Nat) (l : List U8) (b : Block) : (setBuf u l b).key = b.key := rfl
@[simp] theorem setBuf_mbx (u : Nat) (l : List U8) (b : Block) : (setBuf u l b).mbx = b.mbx := rfl
@[simp] theorem setBuf_hp (u : Nat) (l : List U8) (b : Block) : (setBuf u l b).hp = b.hp := rfl
@[simp] theorem setBuf_hic (u : Nat) (l : List U8) (b : Block) : (setBuf u l b).hic = b.hic := rfl
@[simp] theorem setBuf_cwy (u : Nat) (l : List U8) (b : Block) : (setBuf u l b).cwy = b.cwy := rfl
@[simp] theorem setBuf_cwyX (u : Nat) (l : List U8) (b : Block) : (setBuf u l b).cwyX = b.cwyX := rfl
@[simp] theorem setBuf_pnl (u : Nat) (l : List U8) (b : Block) : (setBuf u l b).pnl = b.pnl := rfl
@[simp] theorem setBuf_frames (u : Nat) (l : List U8) (b : Block) : (setBuf u l b).frames = b.frames := rfl
@[simp] theorem setBuf_nfc (u : Nat) (l : List U8) (b : Block) : (setBuf u l b).nfc = b.nfc := rfl
@[simp] theorem setBuf_rst (u : Nat) (l : List U8) (b : Block) : (setBuf u l b).rst = b.rst := rfl
@[simp] theorem setBuf_upd (u : Nat) (l : List U8) (b : Block) : (setBuf u l b).upd = b.upd := rfl
@[simp] theorem setBuf_btn (u : Nat) (l : List U8) (b : Block) : (setBuf u l b).btn = b.btn := rfl
@[simp] theorem setBuf_dmp (u : Nat) (l : List U8) (b : Block) : (setBuf u l b).dmp = b.dmp := rfl
@[simp] theorem setBuf_rpl (u : Nat) (l : List U8) (b : Block) : (setBuf u l b).rpl = b.rpl := rfl
@[simp] theorem setBuf_dbg (u : Nat) (l : List U8) (b : Block) : (setBuf u l b).dbg = b.dbg := rfl
@[simp] theorem setBuf_settings (u : Nat) (l : List U8) (b : Block) : (setBuf u l b).settings = b.settings := rfl
@[simp] theorem setBuf_newSettings (u : Nat) (l : List U8) (b : Block) : (setBuf u l b).newSettings = b.newSettings := rfl
@[simp] theorem setBuf_legalSet (u : Nat) (l : List U8) (b : Block) : (setBuf u l b).legalSet = b.legalSet := rfl
@[simp] theorem setBuf_updRec (u : Nat) (l : List U8) (b : Block) : (setBuf u l b).updRec = b.updRec := rfl
@[simp] theorem setBuf_kept (u : Nat) (l : List U8) (b : Block) : (setBuf u l b).kept = b.kept := rfl
@[simp] theorem setBuf_prior (u : Nat) (l : List U8) (b : Block) : (setBuf u l b).prior = b.prior := rfl
@[simp] theorem setBuf_qmg (u : Nat) (l : List U8) (b : Block) : (setBuf u l b).qmg = { b.qmg with sram := Memory.writeN b.qmg.sram (64 * u) (padTo 64 l) } := rfl
@[simp] theorem updGroup_tide (g : Fin 64) (f : CreditGroup → CreditGroup) (b : Block) : (updGroup g f b).tide = b.tide := rfl
@[simp] theorem updGroup_lau (g : Fin 64) (f : CreditGroup → CreditGroup) (b : Block) : (updGroup g f b).lau = b.lau := rfl
@[simp] theorem updGroup_snaps (g : Fin 64) (f : CreditGroup → CreditGroup) (b : Block) : (updGroup g f b).snaps = b.snaps := rfl
@[simp] theorem updGroup_barrier (g : Fin 64) (f : CreditGroup → CreditGroup) (b : Block) : (updGroup g f b).barrier = b.barrier := rfl
@[simp] theorem updGroup_fab (g : Fin 64) (f : CreditGroup → CreditGroup) (b : Block) : (updGroup g f b).fab = b.fab := rfl
@[simp] theorem updGroup_d2d (g : Fin 64) (f : CreditGroup → CreditGroup) (b : Block) : (updGroup g f b).d2d = b.d2d := rfl
@[simp] theorem updGroup_cross (g : Fin 64) (f : CreditGroup → CreditGroup) (b : Block) : (updGroup g f b).cross = b.cross := rfl
@[simp] theorem updGroup_met (g : Fin 64) (f : CreditGroup → CreditGroup) (b : Block) : (updGroup g f b).met = b.met := rfl
@[simp] theorem updGroup_acc (g : Fin 64) (f : CreditGroup → CreditGroup) (b : Block) : (updGroup g f b).acc = b.acc := rfl
@[simp] theorem updGroup_pq (g : Fin 64) (f : CreditGroup → CreditGroup) (b : Block) : (updGroup g f b).pq = b.pq := rfl
@[simp] theorem updGroup_sess (g : Fin 64) (f : CreditGroup → CreditGroup) (b : Block) : (updGroup g f b).sess = b.sess := rfl
@[simp] theorem updGroup_slu (g : Fin 64) (f : CreditGroup → CreditGroup) (b : Block) : (updGroup g f b).slu = b.slu := rfl
@[simp] theorem updGroup_sluCnt (g : Fin 64) (f : CreditGroup → CreditGroup) (b : Block) : (updGroup g f b).sluCnt = b.sluCnt := rfl
@[simp] theorem updGroup_mlk (g : Fin 64) (f : CreditGroup → CreditGroup) (b : Block) : (updGroup g f b).mlk = b.mlk := rfl
@[simp] theorem updGroup_veh (g : Fin 64) (f : CreditGroup → CreditGroup) (b : Block) : (updGroup g f b).veh = b.veh := rfl
@[simp] theorem updGroup_vehCfg (g : Fin 64) (f : CreditGroup → CreditGroup) (b : Block) : (updGroup g f b).vehCfg = b.vehCfg := rfl
@[simp] theorem updGroup_plc (g : Fin 64) (f : CreditGroup → CreditGroup) (b : Block) : (updGroup g f b).plc = b.plc := rfl
@[simp] theorem updGroup_plcCfg (g : Fin 64) (f : CreditGroup → CreditGroup) (b : Block) : (updGroup g f b).plcCfg = b.plcCfg := rfl
@[simp] theorem updGroup_v2g (g : Fin 64) (f : CreditGroup → CreditGroup) (b : Block) : (updGroup g f b).v2g = b.v2g := rfl
@[simp] theorem updGroup_v2gCfg (g : Fin 64) (f : CreditGroup → CreditGroup) (b : Block) : (updGroup g f b).v2gCfg = b.v2gCfg := rfl
@[simp] theorem updGroup_imd (g : Fin 64) (f : CreditGroup → CreditGroup) (b : Block) : (updGroup g f b).imd = b.imd := rfl
@[simp] theorem updGroup_imdG (g : Fin 64) (f : CreditGroup → CreditGroup) (b : Block) : (updGroup g f b).imdG = b.imdG := rfl
@[simp] theorem updGroup_rcm (g : Fin 64) (f : CreditGroup → CreditGroup) (b : Block) : (updGroup g f b).rcm = b.rcm := rfl
@[simp] theorem updGroup_rcmTest (g : Fin 64) (f : CreditGroup → CreditGroup) (b : Block) : (updGroup g f b).rcmTest = b.rcmTest := rfl
@[simp] theorem updGroup_saf (g : Fin 64) (f : CreditGroup → CreditGroup) (b : Block) : (updGroup g f b).saf = b.saf := rfl
@[simp] theorem updGroup_safX (g : Fin 64) (f : CreditGroup → CreditGroup) (b : Block) : (updGroup g f b).safX = b.safX := rfl
@[simp] theorem updGroup_lsw (g : Fin 64) (f : CreditGroup → CreditGroup) (b : Block) : (updGroup g f b).lsw = b.lsw := rfl
@[simp] theorem updGroup_pea (g : Fin 64) (f : CreditGroup → CreditGroup) (b : Block) : (updGroup g f b).pea = b.pea := rfl
@[simp] theorem updGroup_arb (g : Fin 64) (f : CreditGroup → CreditGroup) (b : Block) : (updGroup g f b).arb = b.arb := rfl
@[simp] theorem updGroup_pf (g : Fin 64) (f : CreditGroup → CreditGroup) (b : Block) : (updGroup g f b).pf = b.pf := rfl
@[simp] theorem updGroup_slt (g : Fin 64) (f : CreditGroup → CreditGroup) (b : Block) : (updGroup g f b).slt = b.slt := rfl
@[simp] theorem updGroup_legal (g : Fin 64) (f : CreditGroup → CreditGroup) (b : Block) : (updGroup g f b).legal = b.legal := rfl
@[simp] theorem updGroup_auth (g : Fin 64) (f : CreditGroup → CreditGroup) (b : Block) : (updGroup g f b).auth = b.auth := rfl
@[simp] theorem updGroup_backup (g : Fin 64) (f : CreditGroup → CreditGroup) (b : Block) : (updGroup g f b).backup = b.backup := rfl
@[simp] theorem updGroup_bri (g : Fin 64) (f : CreditGroup → CreditGroup) (b : Block) : (updGroup g f b).bri = b.bri := rfl
@[simp] theorem updGroup_key (g : Fin 64) (f : CreditGroup → CreditGroup) (b : Block) : (updGroup g f b).key = b.key := rfl
@[simp] theorem updGroup_mbx (g : Fin 64) (f : CreditGroup → CreditGroup) (b : Block) : (updGroup g f b).mbx = b.mbx := rfl
@[simp] theorem updGroup_hp (g : Fin 64) (f : CreditGroup → CreditGroup) (b : Block) : (updGroup g f b).hp = b.hp := rfl
@[simp] theorem updGroup_hic (g : Fin 64) (f : CreditGroup → CreditGroup) (b : Block) : (updGroup g f b).hic = b.hic := rfl
@[simp] theorem updGroup_qmg (g : Fin 64) (f : CreditGroup → CreditGroup) (b : Block) : (updGroup g f b).qmg = b.qmg := rfl
@[simp] theorem updGroup_cwyX (g : Fin 64) (f : CreditGroup → CreditGroup) (b : Block) : (updGroup g f b).cwyX = b.cwyX := rfl
@[simp] theorem updGroup_pnl (g : Fin 64) (f : CreditGroup → CreditGroup) (b : Block) : (updGroup g f b).pnl = b.pnl := rfl
@[simp] theorem updGroup_frames (g : Fin 64) (f : CreditGroup → CreditGroup) (b : Block) : (updGroup g f b).frames = b.frames := rfl
@[simp] theorem updGroup_nfc (g : Fin 64) (f : CreditGroup → CreditGroup) (b : Block) : (updGroup g f b).nfc = b.nfc := rfl
@[simp] theorem updGroup_rst (g : Fin 64) (f : CreditGroup → CreditGroup) (b : Block) : (updGroup g f b).rst = b.rst := rfl
@[simp] theorem updGroup_upd (g : Fin 64) (f : CreditGroup → CreditGroup) (b : Block) : (updGroup g f b).upd = b.upd := rfl
@[simp] theorem updGroup_btn (g : Fin 64) (f : CreditGroup → CreditGroup) (b : Block) : (updGroup g f b).btn = b.btn := rfl
@[simp] theorem updGroup_dmp (g : Fin 64) (f : CreditGroup → CreditGroup) (b : Block) : (updGroup g f b).dmp = b.dmp := rfl
@[simp] theorem updGroup_rpl (g : Fin 64) (f : CreditGroup → CreditGroup) (b : Block) : (updGroup g f b).rpl = b.rpl := rfl
@[simp] theorem updGroup_dbg (g : Fin 64) (f : CreditGroup → CreditGroup) (b : Block) : (updGroup g f b).dbg = b.dbg := rfl
@[simp] theorem updGroup_settings (g : Fin 64) (f : CreditGroup → CreditGroup) (b : Block) : (updGroup g f b).settings = b.settings := rfl
@[simp] theorem updGroup_newSettings (g : Fin 64) (f : CreditGroup → CreditGroup) (b : Block) : (updGroup g f b).newSettings = b.newSettings := rfl
@[simp] theorem updGroup_legalSet (g : Fin 64) (f : CreditGroup → CreditGroup) (b : Block) : (updGroup g f b).legalSet = b.legalSet := rfl
@[simp] theorem updGroup_updRec (g : Fin 64) (f : CreditGroup → CreditGroup) (b : Block) : (updGroup g f b).updRec = b.updRec := rfl
@[simp] theorem updGroup_kept (g : Fin 64) (f : CreditGroup → CreditGroup) (b : Block) : (updGroup g f b).kept = b.kept := rfl
@[simp] theorem updGroup_prior (g : Fin 64) (f : CreditGroup → CreditGroup) (b : Block) : (updGroup g f b).prior = b.prior := rfl
@[simp] theorem updGroup_cwy (g : Fin 64) (f : CreditGroup → CreditGroup) (b : Block) : (updGroup g f b).cwy = { b.cwy with groups := vupd b.cwy.groups g f } := rfl
@[simp] theorem updBtn_tide (f : Bittern → Bittern) (b : Block) : (updBtn f b).tide = b.tide := rfl
@[simp] theorem updBtn_lau (f : Bittern → Bittern) (b : Block) : (updBtn f b).lau = b.lau := rfl
@[simp] theorem updBtn_snaps (f : Bittern → Bittern) (b : Block) : (updBtn f b).snaps = b.snaps := rfl
@[simp] theorem updBtn_barrier (f : Bittern → Bittern) (b : Block) : (updBtn f b).barrier = b.barrier := rfl
@[simp] theorem updBtn_fab (f : Bittern → Bittern) (b : Block) : (updBtn f b).fab = b.fab := rfl
@[simp] theorem updBtn_d2d (f : Bittern → Bittern) (b : Block) : (updBtn f b).d2d = b.d2d := rfl
@[simp] theorem updBtn_cross (f : Bittern → Bittern) (b : Block) : (updBtn f b).cross = b.cross := rfl
@[simp] theorem updBtn_met (f : Bittern → Bittern) (b : Block) : (updBtn f b).met = b.met := rfl
@[simp] theorem updBtn_acc (f : Bittern → Bittern) (b : Block) : (updBtn f b).acc = b.acc := rfl
@[simp] theorem updBtn_pq (f : Bittern → Bittern) (b : Block) : (updBtn f b).pq = b.pq := rfl
@[simp] theorem updBtn_sess (f : Bittern → Bittern) (b : Block) : (updBtn f b).sess = b.sess := rfl
@[simp] theorem updBtn_slu (f : Bittern → Bittern) (b : Block) : (updBtn f b).slu = b.slu := rfl
@[simp] theorem updBtn_sluCnt (f : Bittern → Bittern) (b : Block) : (updBtn f b).sluCnt = b.sluCnt := rfl
@[simp] theorem updBtn_mlk (f : Bittern → Bittern) (b : Block) : (updBtn f b).mlk = b.mlk := rfl
@[simp] theorem updBtn_veh (f : Bittern → Bittern) (b : Block) : (updBtn f b).veh = b.veh := rfl
@[simp] theorem updBtn_vehCfg (f : Bittern → Bittern) (b : Block) : (updBtn f b).vehCfg = b.vehCfg := rfl
@[simp] theorem updBtn_plc (f : Bittern → Bittern) (b : Block) : (updBtn f b).plc = b.plc := rfl
@[simp] theorem updBtn_plcCfg (f : Bittern → Bittern) (b : Block) : (updBtn f b).plcCfg = b.plcCfg := rfl
@[simp] theorem updBtn_v2g (f : Bittern → Bittern) (b : Block) : (updBtn f b).v2g = b.v2g := rfl
@[simp] theorem updBtn_v2gCfg (f : Bittern → Bittern) (b : Block) : (updBtn f b).v2gCfg = b.v2gCfg := rfl
@[simp] theorem updBtn_imd (f : Bittern → Bittern) (b : Block) : (updBtn f b).imd = b.imd := rfl
@[simp] theorem updBtn_imdG (f : Bittern → Bittern) (b : Block) : (updBtn f b).imdG = b.imdG := rfl
@[simp] theorem updBtn_rcm (f : Bittern → Bittern) (b : Block) : (updBtn f b).rcm = b.rcm := rfl
@[simp] theorem updBtn_rcmTest (f : Bittern → Bittern) (b : Block) : (updBtn f b).rcmTest = b.rcmTest := rfl
@[simp] theorem updBtn_saf (f : Bittern → Bittern) (b : Block) : (updBtn f b).saf = b.saf := rfl
@[simp] theorem updBtn_safX (f : Bittern → Bittern) (b : Block) : (updBtn f b).safX = b.safX := rfl
@[simp] theorem updBtn_lsw (f : Bittern → Bittern) (b : Block) : (updBtn f b).lsw = b.lsw := rfl
@[simp] theorem updBtn_pea (f : Bittern → Bittern) (b : Block) : (updBtn f b).pea = b.pea := rfl
@[simp] theorem updBtn_arb (f : Bittern → Bittern) (b : Block) : (updBtn f b).arb = b.arb := rfl
@[simp] theorem updBtn_pf (f : Bittern → Bittern) (b : Block) : (updBtn f b).pf = b.pf := rfl
@[simp] theorem updBtn_slt (f : Bittern → Bittern) (b : Block) : (updBtn f b).slt = b.slt := rfl
@[simp] theorem updBtn_legal (f : Bittern → Bittern) (b : Block) : (updBtn f b).legal = b.legal := rfl
@[simp] theorem updBtn_auth (f : Bittern → Bittern) (b : Block) : (updBtn f b).auth = b.auth := rfl
@[simp] theorem updBtn_backup (f : Bittern → Bittern) (b : Block) : (updBtn f b).backup = b.backup := rfl
@[simp] theorem updBtn_bri (f : Bittern → Bittern) (b : Block) : (updBtn f b).bri = b.bri := rfl
@[simp] theorem updBtn_key (f : Bittern → Bittern) (b : Block) : (updBtn f b).key = b.key := rfl
@[simp] theorem updBtn_mbx (f : Bittern → Bittern) (b : Block) : (updBtn f b).mbx = b.mbx := rfl
@[simp] theorem updBtn_hp (f : Bittern → Bittern) (b : Block) : (updBtn f b).hp = b.hp := rfl
@[simp] theorem updBtn_hic (f : Bittern → Bittern) (b : Block) : (updBtn f b).hic = b.hic := rfl
@[simp] theorem updBtn_qmg (f : Bittern → Bittern) (b : Block) : (updBtn f b).qmg = b.qmg := rfl
@[simp] theorem updBtn_cwy (f : Bittern → Bittern) (b : Block) : (updBtn f b).cwy = b.cwy := rfl
@[simp] theorem updBtn_cwyX (f : Bittern → Bittern) (b : Block) : (updBtn f b).cwyX = b.cwyX := rfl
@[simp] theorem updBtn_pnl (f : Bittern → Bittern) (b : Block) : (updBtn f b).pnl = b.pnl := rfl
@[simp] theorem updBtn_frames (f : Bittern → Bittern) (b : Block) : (updBtn f b).frames = b.frames := rfl
@[simp] theorem updBtn_nfc (f : Bittern → Bittern) (b : Block) : (updBtn f b).nfc = b.nfc := rfl
@[simp] theorem updBtn_rst (f : Bittern → Bittern) (b : Block) : (updBtn f b).rst = b.rst := rfl
@[simp] theorem updBtn_upd (f : Bittern → Bittern) (b : Block) : (updBtn f b).upd = b.upd := rfl
@[simp] theorem updBtn_dmp (f : Bittern → Bittern) (b : Block) : (updBtn f b).dmp = b.dmp := rfl
@[simp] theorem updBtn_rpl (f : Bittern → Bittern) (b : Block) : (updBtn f b).rpl = b.rpl := rfl
@[simp] theorem updBtn_dbg (f : Bittern → Bittern) (b : Block) : (updBtn f b).dbg = b.dbg := rfl
@[simp] theorem updBtn_settings (f : Bittern → Bittern) (b : Block) : (updBtn f b).settings = b.settings := rfl
@[simp] theorem updBtn_newSettings (f : Bittern → Bittern) (b : Block) : (updBtn f b).newSettings = b.newSettings := rfl
@[simp] theorem updBtn_legalSet (f : Bittern → Bittern) (b : Block) : (updBtn f b).legalSet = b.legalSet := rfl
@[simp] theorem updBtn_updRec (f : Bittern → Bittern) (b : Block) : (updBtn f b).updRec = b.updRec := rfl
@[simp] theorem updBtn_kept (f : Bittern → Bittern) (b : Block) : (updBtn f b).kept = b.kept := rfl
@[simp] theorem updBtn_prior (f : Bittern → Bittern) (b : Block) : (updBtn f b).prior = b.prior := rfl
@[simp] theorem updBtn_btn (f : Bittern → Bittern) (b : Block) : (updBtn f b).btn = f b.btn := rfl
@[simp] theorem updLegal_tide (n : Fin 16) (f : LegalConn → LegalConn) (b : Block) : (updLegal n f b).tide = b.tide := rfl
@[simp] theorem updLegal_lau (n : Fin 16) (f : LegalConn → LegalConn) (b : Block) : (updLegal n f b).lau = b.lau := rfl
@[simp] theorem updLegal_snaps (n : Fin 16) (f : LegalConn → LegalConn) (b : Block) : (updLegal n f b).snaps = b.snaps := rfl
@[simp] theorem updLegal_barrier (n : Fin 16) (f : LegalConn → LegalConn) (b : Block) : (updLegal n f b).barrier = b.barrier := rfl
@[simp] theorem updLegal_fab (n : Fin 16) (f : LegalConn → LegalConn) (b : Block) : (updLegal n f b).fab = b.fab := rfl
@[simp] theorem updLegal_d2d (n : Fin 16) (f : LegalConn → LegalConn) (b : Block) : (updLegal n f b).d2d = b.d2d := rfl
@[simp] theorem updLegal_cross (n : Fin 16) (f : LegalConn → LegalConn) (b : Block) : (updLegal n f b).cross = b.cross := rfl
@[simp] theorem updLegal_met (n : Fin 16) (f : LegalConn → LegalConn) (b : Block) : (updLegal n f b).met = b.met := rfl
@[simp] theorem updLegal_acc (n : Fin 16) (f : LegalConn → LegalConn) (b : Block) : (updLegal n f b).acc = b.acc := rfl
@[simp] theorem updLegal_pq (n : Fin 16) (f : LegalConn → LegalConn) (b : Block) : (updLegal n f b).pq = b.pq := rfl
@[simp] theorem updLegal_sess (n : Fin 16) (f : LegalConn → LegalConn) (b : Block) : (updLegal n f b).sess = b.sess := rfl
@[simp] theorem updLegal_slu (n : Fin 16) (f : LegalConn → LegalConn) (b : Block) : (updLegal n f b).slu = b.slu := rfl
@[simp] theorem updLegal_sluCnt (n : Fin 16) (f : LegalConn → LegalConn) (b : Block) : (updLegal n f b).sluCnt = b.sluCnt := rfl
@[simp] theorem updLegal_mlk (n : Fin 16) (f : LegalConn → LegalConn) (b : Block) : (updLegal n f b).mlk = b.mlk := rfl
@[simp] theorem updLegal_veh (n : Fin 16) (f : LegalConn → LegalConn) (b : Block) : (updLegal n f b).veh = b.veh := rfl
@[simp] theorem updLegal_vehCfg (n : Fin 16) (f : LegalConn → LegalConn) (b : Block) : (updLegal n f b).vehCfg = b.vehCfg := rfl
@[simp] theorem updLegal_plc (n : Fin 16) (f : LegalConn → LegalConn) (b : Block) : (updLegal n f b).plc = b.plc := rfl
@[simp] theorem updLegal_plcCfg (n : Fin 16) (f : LegalConn → LegalConn) (b : Block) : (updLegal n f b).plcCfg = b.plcCfg := rfl
@[simp] theorem updLegal_v2g (n : Fin 16) (f : LegalConn → LegalConn) (b : Block) : (updLegal n f b).v2g = b.v2g := rfl
@[simp] theorem updLegal_v2gCfg (n : Fin 16) (f : LegalConn → LegalConn) (b : Block) : (updLegal n f b).v2gCfg = b.v2gCfg := rfl
@[simp] theorem updLegal_imd (n : Fin 16) (f : LegalConn → LegalConn) (b : Block) : (updLegal n f b).imd = b.imd := rfl
@[simp] theorem updLegal_imdG (n : Fin 16) (f : LegalConn → LegalConn) (b : Block) : (updLegal n f b).imdG = b.imdG := rfl
@[simp] theorem updLegal_rcm (n : Fin 16) (f : LegalConn → LegalConn) (b : Block) : (updLegal n f b).rcm = b.rcm := rfl
@[simp] theorem updLegal_rcmTest (n : Fin 16) (f : LegalConn → LegalConn) (b : Block) : (updLegal n f b).rcmTest = b.rcmTest := rfl
@[simp] theorem updLegal_saf (n : Fin 16) (f : LegalConn → LegalConn) (b : Block) : (updLegal n f b).saf = b.saf := rfl
@[simp] theorem updLegal_safX (n : Fin 16) (f : LegalConn → LegalConn) (b : Block) : (updLegal n f b).safX = b.safX := rfl
@[simp] theorem updLegal_lsw (n : Fin 16) (f : LegalConn → LegalConn) (b : Block) : (updLegal n f b).lsw = b.lsw := rfl
@[simp] theorem updLegal_pea (n : Fin 16) (f : LegalConn → LegalConn) (b : Block) : (updLegal n f b).pea = b.pea := rfl
@[simp] theorem updLegal_arb (n : Fin 16) (f : LegalConn → LegalConn) (b : Block) : (updLegal n f b).arb = b.arb := rfl
@[simp] theorem updLegal_pf (n : Fin 16) (f : LegalConn → LegalConn) (b : Block) : (updLegal n f b).pf = b.pf := rfl
@[simp] theorem updLegal_slt (n : Fin 16) (f : LegalConn → LegalConn) (b : Block) : (updLegal n f b).slt = b.slt := rfl
@[simp] theorem updLegal_auth (n : Fin 16) (f : LegalConn → LegalConn) (b : Block) : (updLegal n f b).auth = b.auth := rfl
@[simp] theorem updLegal_backup (n : Fin 16) (f : LegalConn → LegalConn) (b : Block) : (updLegal n f b).backup = b.backup := rfl
@[simp] theorem updLegal_bri (n : Fin 16) (f : LegalConn → LegalConn) (b : Block) : (updLegal n f b).bri = b.bri := rfl
@[simp] theorem updLegal_key (n : Fin 16) (f : LegalConn → LegalConn) (b : Block) : (updLegal n f b).key = b.key := rfl
@[simp] theorem updLegal_mbx (n : Fin 16) (f : LegalConn → LegalConn) (b : Block) : (updLegal n f b).mbx = b.mbx := rfl
@[simp] theorem updLegal_hp (n : Fin 16) (f : LegalConn → LegalConn) (b : Block) : (updLegal n f b).hp = b.hp := rfl
@[simp] theorem updLegal_hic (n : Fin 16) (f : LegalConn → LegalConn) (b : Block) : (updLegal n f b).hic = b.hic := rfl
@[simp] theorem updLegal_qmg (n : Fin 16) (f : LegalConn → LegalConn) (b : Block) : (updLegal n f b).qmg = b.qmg := rfl
@[simp] theorem updLegal_cwy (n : Fin 16) (f : LegalConn → LegalConn) (b : Block) : (updLegal n f b).cwy = b.cwy := rfl
@[simp] theorem updLegal_cwyX (n : Fin 16) (f : LegalConn → LegalConn) (b : Block) : (updLegal n f b).cwyX = b.cwyX := rfl
@[simp] theorem updLegal_pnl (n : Fin 16) (f : LegalConn → LegalConn) (b : Block) : (updLegal n f b).pnl = b.pnl := rfl
@[simp] theorem updLegal_frames (n : Fin 16) (f : LegalConn → LegalConn) (b : Block) : (updLegal n f b).frames = b.frames := rfl
@[simp] theorem updLegal_nfc (n : Fin 16) (f : LegalConn → LegalConn) (b : Block) : (updLegal n f b).nfc = b.nfc := rfl
@[simp] theorem updLegal_rst (n : Fin 16) (f : LegalConn → LegalConn) (b : Block) : (updLegal n f b).rst = b.rst := rfl
@[simp] theorem updLegal_upd (n : Fin 16) (f : LegalConn → LegalConn) (b : Block) : (updLegal n f b).upd = b.upd := rfl
@[simp] theorem updLegal_btn (n : Fin 16) (f : LegalConn → LegalConn) (b : Block) : (updLegal n f b).btn = b.btn := rfl
@[simp] theorem updLegal_dmp (n : Fin 16) (f : LegalConn → LegalConn) (b : Block) : (updLegal n f b).dmp = b.dmp := rfl
@[simp] theorem updLegal_rpl (n : Fin 16) (f : LegalConn → LegalConn) (b : Block) : (updLegal n f b).rpl = b.rpl := rfl
@[simp] theorem updLegal_dbg (n : Fin 16) (f : LegalConn → LegalConn) (b : Block) : (updLegal n f b).dbg = b.dbg := rfl
@[simp] theorem updLegal_settings (n : Fin 16) (f : LegalConn → LegalConn) (b : Block) : (updLegal n f b).settings = b.settings := rfl
@[simp] theorem updLegal_newSettings (n : Fin 16) (f : LegalConn → LegalConn) (b : Block) : (updLegal n f b).newSettings = b.newSettings := rfl
@[simp] theorem updLegal_legalSet (n : Fin 16) (f : LegalConn → LegalConn) (b : Block) : (updLegal n f b).legalSet = b.legalSet := rfl
@[simp] theorem updLegal_updRec (n : Fin 16) (f : LegalConn → LegalConn) (b : Block) : (updLegal n f b).updRec = b.updRec := rfl
@[simp] theorem updLegal_kept (n : Fin 16) (f : LegalConn → LegalConn) (b : Block) : (updLegal n f b).kept = b.kept := rfl
@[simp] theorem updLegal_prior (n : Fin 16) (f : LegalConn → LegalConn) (b : Block) : (updLegal n f b).prior = b.prior := rfl
@[simp] theorem updLegal_legal (n : Fin 16) (f : LegalConn → LegalConn) (b : Block) : (updLegal n f b).legal = vupd b.legal n f := rfl
@[simp] theorem updSlt_tide (f : Saltern → Saltern) (b : Block) : (updSlt f b).tide = b.tide := rfl
@[simp] theorem updSlt_lau (f : Saltern → Saltern) (b : Block) : (updSlt f b).lau = b.lau := rfl
@[simp] theorem updSlt_snaps (f : Saltern → Saltern) (b : Block) : (updSlt f b).snaps = b.snaps := rfl
@[simp] theorem updSlt_barrier (f : Saltern → Saltern) (b : Block) : (updSlt f b).barrier = b.barrier := rfl
@[simp] theorem updSlt_fab (f : Saltern → Saltern) (b : Block) : (updSlt f b).fab = b.fab := rfl
@[simp] theorem updSlt_d2d (f : Saltern → Saltern) (b : Block) : (updSlt f b).d2d = b.d2d := rfl
@[simp] theorem updSlt_cross (f : Saltern → Saltern) (b : Block) : (updSlt f b).cross = b.cross := rfl
@[simp] theorem updSlt_met (f : Saltern → Saltern) (b : Block) : (updSlt f b).met = b.met := rfl
@[simp] theorem updSlt_acc (f : Saltern → Saltern) (b : Block) : (updSlt f b).acc = b.acc := rfl
@[simp] theorem updSlt_pq (f : Saltern → Saltern) (b : Block) : (updSlt f b).pq = b.pq := rfl
@[simp] theorem updSlt_sess (f : Saltern → Saltern) (b : Block) : (updSlt f b).sess = b.sess := rfl
@[simp] theorem updSlt_slu (f : Saltern → Saltern) (b : Block) : (updSlt f b).slu = b.slu := rfl
@[simp] theorem updSlt_sluCnt (f : Saltern → Saltern) (b : Block) : (updSlt f b).sluCnt = b.sluCnt := rfl
@[simp] theorem updSlt_mlk (f : Saltern → Saltern) (b : Block) : (updSlt f b).mlk = b.mlk := rfl
@[simp] theorem updSlt_veh (f : Saltern → Saltern) (b : Block) : (updSlt f b).veh = b.veh := rfl
@[simp] theorem updSlt_vehCfg (f : Saltern → Saltern) (b : Block) : (updSlt f b).vehCfg = b.vehCfg := rfl
@[simp] theorem updSlt_plc (f : Saltern → Saltern) (b : Block) : (updSlt f b).plc = b.plc := rfl
@[simp] theorem updSlt_plcCfg (f : Saltern → Saltern) (b : Block) : (updSlt f b).plcCfg = b.plcCfg := rfl
@[simp] theorem updSlt_v2g (f : Saltern → Saltern) (b : Block) : (updSlt f b).v2g = b.v2g := rfl
@[simp] theorem updSlt_v2gCfg (f : Saltern → Saltern) (b : Block) : (updSlt f b).v2gCfg = b.v2gCfg := rfl
@[simp] theorem updSlt_imd (f : Saltern → Saltern) (b : Block) : (updSlt f b).imd = b.imd := rfl
@[simp] theorem updSlt_imdG (f : Saltern → Saltern) (b : Block) : (updSlt f b).imdG = b.imdG := rfl
@[simp] theorem updSlt_rcm (f : Saltern → Saltern) (b : Block) : (updSlt f b).rcm = b.rcm := rfl
@[simp] theorem updSlt_rcmTest (f : Saltern → Saltern) (b : Block) : (updSlt f b).rcmTest = b.rcmTest := rfl
@[simp] theorem updSlt_saf (f : Saltern → Saltern) (b : Block) : (updSlt f b).saf = b.saf := rfl
@[simp] theorem updSlt_safX (f : Saltern → Saltern) (b : Block) : (updSlt f b).safX = b.safX := rfl
@[simp] theorem updSlt_lsw (f : Saltern → Saltern) (b : Block) : (updSlt f b).lsw = b.lsw := rfl
@[simp] theorem updSlt_pea (f : Saltern → Saltern) (b : Block) : (updSlt f b).pea = b.pea := rfl
@[simp] theorem updSlt_arb (f : Saltern → Saltern) (b : Block) : (updSlt f b).arb = b.arb := rfl
@[simp] theorem updSlt_pf (f : Saltern → Saltern) (b : Block) : (updSlt f b).pf = b.pf := rfl
@[simp] theorem updSlt_legal (f : Saltern → Saltern) (b : Block) : (updSlt f b).legal = b.legal := rfl
@[simp] theorem updSlt_auth (f : Saltern → Saltern) (b : Block) : (updSlt f b).auth = b.auth := rfl
@[simp] theorem updSlt_backup (f : Saltern → Saltern) (b : Block) : (updSlt f b).backup = b.backup := rfl
@[simp] theorem updSlt_bri (f : Saltern → Saltern) (b : Block) : (updSlt f b).bri = b.bri := rfl
@[simp] theorem updSlt_key (f : Saltern → Saltern) (b : Block) : (updSlt f b).key = b.key := rfl
@[simp] theorem updSlt_mbx (f : Saltern → Saltern) (b : Block) : (updSlt f b).mbx = b.mbx := rfl
@[simp] theorem updSlt_hp (f : Saltern → Saltern) (b : Block) : (updSlt f b).hp = b.hp := rfl
@[simp] theorem updSlt_hic (f : Saltern → Saltern) (b : Block) : (updSlt f b).hic = b.hic := rfl
@[simp] theorem updSlt_qmg (f : Saltern → Saltern) (b : Block) : (updSlt f b).qmg = b.qmg := rfl
@[simp] theorem updSlt_cwy (f : Saltern → Saltern) (b : Block) : (updSlt f b).cwy = b.cwy := rfl
@[simp] theorem updSlt_cwyX (f : Saltern → Saltern) (b : Block) : (updSlt f b).cwyX = b.cwyX := rfl
@[simp] theorem updSlt_pnl (f : Saltern → Saltern) (b : Block) : (updSlt f b).pnl = b.pnl := rfl
@[simp] theorem updSlt_frames (f : Saltern → Saltern) (b : Block) : (updSlt f b).frames = b.frames := rfl
@[simp] theorem updSlt_nfc (f : Saltern → Saltern) (b : Block) : (updSlt f b).nfc = b.nfc := rfl
@[simp] theorem updSlt_rst (f : Saltern → Saltern) (b : Block) : (updSlt f b).rst = b.rst := rfl
@[simp] theorem updSlt_upd (f : Saltern → Saltern) (b : Block) : (updSlt f b).upd = b.upd := rfl
@[simp] theorem updSlt_btn (f : Saltern → Saltern) (b : Block) : (updSlt f b).btn = b.btn := rfl
@[simp] theorem updSlt_dmp (f : Saltern → Saltern) (b : Block) : (updSlt f b).dmp = b.dmp := rfl
@[simp] theorem updSlt_rpl (f : Saltern → Saltern) (b : Block) : (updSlt f b).rpl = b.rpl := rfl
@[simp] theorem updSlt_dbg (f : Saltern → Saltern) (b : Block) : (updSlt f b).dbg = b.dbg := rfl
@[simp] theorem updSlt_settings (f : Saltern → Saltern) (b : Block) : (updSlt f b).settings = b.settings := rfl
@[simp] theorem updSlt_newSettings (f : Saltern → Saltern) (b : Block) : (updSlt f b).newSettings = b.newSettings := rfl
@[simp] theorem updSlt_legalSet (f : Saltern → Saltern) (b : Block) : (updSlt f b).legalSet = b.legalSet := rfl
@[simp] theorem updSlt_updRec (f : Saltern → Saltern) (b : Block) : (updSlt f b).updRec = b.updRec := rfl
@[simp] theorem updSlt_kept (f : Saltern → Saltern) (b : Block) : (updSlt f b).kept = b.kept := rfl
@[simp] theorem updSlt_prior (f : Saltern → Saltern) (b : Block) : (updSlt f b).prior = b.prior := rfl
@[simp] theorem updSlt_slt (f : Saltern → Saltern) (b : Block) : (updSlt f b).slt = f b.slt := rfl
@[simp] theorem updLedger_tide (n : Fin 16) (f : Ledger → Ledger) (b : Block) : (updLedger n f b).tide = b.tide := rfl
@[simp] theorem updLedger_lau (n : Fin 16) (f : Ledger → Ledger) (b : Block) : (updLedger n f b).lau = b.lau := rfl
@[simp] theorem updLedger_snaps (n : Fin 16) (f : Ledger → Ledger) (b : Block) : (updLedger n f b).snaps = b.snaps := rfl
@[simp] theorem updLedger_barrier (n : Fin 16) (f : Ledger → Ledger) (b : Block) : (updLedger n f b).barrier = b.barrier := rfl
@[simp] theorem updLedger_fab (n : Fin 16) (f : Ledger → Ledger) (b : Block) : (updLedger n f b).fab = b.fab := rfl
@[simp] theorem updLedger_d2d (n : Fin 16) (f : Ledger → Ledger) (b : Block) : (updLedger n f b).d2d = b.d2d := rfl
@[simp] theorem updLedger_cross (n : Fin 16) (f : Ledger → Ledger) (b : Block) : (updLedger n f b).cross = b.cross := rfl
@[simp] theorem updLedger_met (n : Fin 16) (f : Ledger → Ledger) (b : Block) : (updLedger n f b).met = b.met := rfl
@[simp] theorem updLedger_acc (n : Fin 16) (f : Ledger → Ledger) (b : Block) : (updLedger n f b).acc = b.acc := rfl
@[simp] theorem updLedger_pq (n : Fin 16) (f : Ledger → Ledger) (b : Block) : (updLedger n f b).pq = b.pq := rfl
@[simp] theorem updLedger_sess (n : Fin 16) (f : Ledger → Ledger) (b : Block) : (updLedger n f b).sess = b.sess := rfl
@[simp] theorem updLedger_slu (n : Fin 16) (f : Ledger → Ledger) (b : Block) : (updLedger n f b).slu = b.slu := rfl
@[simp] theorem updLedger_sluCnt (n : Fin 16) (f : Ledger → Ledger) (b : Block) : (updLedger n f b).sluCnt = b.sluCnt := rfl
@[simp] theorem updLedger_mlk (n : Fin 16) (f : Ledger → Ledger) (b : Block) : (updLedger n f b).mlk = b.mlk := rfl
@[simp] theorem updLedger_veh (n : Fin 16) (f : Ledger → Ledger) (b : Block) : (updLedger n f b).veh = b.veh := rfl
@[simp] theorem updLedger_vehCfg (n : Fin 16) (f : Ledger → Ledger) (b : Block) : (updLedger n f b).vehCfg = b.vehCfg := rfl
@[simp] theorem updLedger_plc (n : Fin 16) (f : Ledger → Ledger) (b : Block) : (updLedger n f b).plc = b.plc := rfl
@[simp] theorem updLedger_plcCfg (n : Fin 16) (f : Ledger → Ledger) (b : Block) : (updLedger n f b).plcCfg = b.plcCfg := rfl
@[simp] theorem updLedger_v2g (n : Fin 16) (f : Ledger → Ledger) (b : Block) : (updLedger n f b).v2g = b.v2g := rfl
@[simp] theorem updLedger_v2gCfg (n : Fin 16) (f : Ledger → Ledger) (b : Block) : (updLedger n f b).v2gCfg = b.v2gCfg := rfl
@[simp] theorem updLedger_imd (n : Fin 16) (f : Ledger → Ledger) (b : Block) : (updLedger n f b).imd = b.imd := rfl
@[simp] theorem updLedger_imdG (n : Fin 16) (f : Ledger → Ledger) (b : Block) : (updLedger n f b).imdG = b.imdG := rfl
@[simp] theorem updLedger_rcm (n : Fin 16) (f : Ledger → Ledger) (b : Block) : (updLedger n f b).rcm = b.rcm := rfl
@[simp] theorem updLedger_rcmTest (n : Fin 16) (f : Ledger → Ledger) (b : Block) : (updLedger n f b).rcmTest = b.rcmTest := rfl
@[simp] theorem updLedger_saf (n : Fin 16) (f : Ledger → Ledger) (b : Block) : (updLedger n f b).saf = b.saf := rfl
@[simp] theorem updLedger_safX (n : Fin 16) (f : Ledger → Ledger) (b : Block) : (updLedger n f b).safX = b.safX := rfl
@[simp] theorem updLedger_lsw (n : Fin 16) (f : Ledger → Ledger) (b : Block) : (updLedger n f b).lsw = b.lsw := rfl
@[simp] theorem updLedger_pea (n : Fin 16) (f : Ledger → Ledger) (b : Block) : (updLedger n f b).pea = b.pea := rfl
@[simp] theorem updLedger_arb (n : Fin 16) (f : Ledger → Ledger) (b : Block) : (updLedger n f b).arb = b.arb := rfl
@[simp] theorem updLedger_pf (n : Fin 16) (f : Ledger → Ledger) (b : Block) : (updLedger n f b).pf = b.pf := rfl
@[simp] theorem updLedger_slt (n : Fin 16) (f : Ledger → Ledger) (b : Block) : (updLedger n f b).slt = b.slt := rfl
@[simp] theorem updLedger_legal (n : Fin 16) (f : Ledger → Ledger) (b : Block) : (updLedger n f b).legal = b.legal := rfl
@[simp] theorem updLedger_auth (n : Fin 16) (f : Ledger → Ledger) (b : Block) : (updLedger n f b).auth = b.auth := rfl
@[simp] theorem updLedger_backup (n : Fin 16) (f : Ledger → Ledger) (b : Block) : (updLedger n f b).backup = b.backup := rfl
@[simp] theorem updLedger_key (n : Fin 16) (f : Ledger → Ledger) (b : Block) : (updLedger n f b).key = b.key := rfl
@[simp] theorem updLedger_mbx (n : Fin 16) (f : Ledger → Ledger) (b : Block) : (updLedger n f b).mbx = b.mbx := rfl
@[simp] theorem updLedger_hp (n : Fin 16) (f : Ledger → Ledger) (b : Block) : (updLedger n f b).hp = b.hp := rfl
@[simp] theorem updLedger_hic (n : Fin 16) (f : Ledger → Ledger) (b : Block) : (updLedger n f b).hic = b.hic := rfl
@[simp] theorem updLedger_qmg (n : Fin 16) (f : Ledger → Ledger) (b : Block) : (updLedger n f b).qmg = b.qmg := rfl
@[simp] theorem updLedger_cwy (n : Fin 16) (f : Ledger → Ledger) (b : Block) : (updLedger n f b).cwy = b.cwy := rfl
@[simp] theorem updLedger_cwyX (n : Fin 16) (f : Ledger → Ledger) (b : Block) : (updLedger n f b).cwyX = b.cwyX := rfl
@[simp] theorem updLedger_pnl (n : Fin 16) (f : Ledger → Ledger) (b : Block) : (updLedger n f b).pnl = b.pnl := rfl
@[simp] theorem updLedger_frames (n : Fin 16) (f : Ledger → Ledger) (b : Block) : (updLedger n f b).frames = b.frames := rfl
@[simp] theorem updLedger_nfc (n : Fin 16) (f : Ledger → Ledger) (b : Block) : (updLedger n f b).nfc = b.nfc := rfl
@[simp] theorem updLedger_rst (n : Fin 16) (f : Ledger → Ledger) (b : Block) : (updLedger n f b).rst = b.rst := rfl
@[simp] theorem updLedger_upd (n : Fin 16) (f : Ledger → Ledger) (b : Block) : (updLedger n f b).upd = b.upd := rfl
@[simp] theorem updLedger_btn (n : Fin 16) (f : Ledger → Ledger) (b : Block) : (updLedger n f b).btn = b.btn := rfl
@[simp] theorem updLedger_dmp (n : Fin 16) (f : Ledger → Ledger) (b : Block) : (updLedger n f b).dmp = b.dmp := rfl
@[simp] theorem updLedger_rpl (n : Fin 16) (f : Ledger → Ledger) (b : Block) : (updLedger n f b).rpl = b.rpl := rfl
@[simp] theorem updLedger_dbg (n : Fin 16) (f : Ledger → Ledger) (b : Block) : (updLedger n f b).dbg = b.dbg := rfl
@[simp] theorem updLedger_settings (n : Fin 16) (f : Ledger → Ledger) (b : Block) : (updLedger n f b).settings = b.settings := rfl
@[simp] theorem updLedger_newSettings (n : Fin 16) (f : Ledger → Ledger) (b : Block) : (updLedger n f b).newSettings = b.newSettings := rfl
@[simp] theorem updLedger_legalSet (n : Fin 16) (f : Ledger → Ledger) (b : Block) : (updLedger n f b).legalSet = b.legalSet := rfl
@[simp] theorem updLedger_updRec (n : Fin 16) (f : Ledger → Ledger) (b : Block) : (updLedger n f b).updRec = b.updRec := rfl
@[simp] theorem updLedger_kept (n : Fin 16) (f : Ledger → Ledger) (b : Block) : (updLedger n f b).kept = b.kept := rfl
@[simp] theorem updLedger_prior (n : Fin 16) (f : Ledger → Ledger) (b : Block) : (updLedger n f b).prior = b.prior := rfl
@[simp] theorem updLedger_bri (n : Fin 16) (f : Ledger → Ledger) (b : Block) : (updLedger n f b).bri = { b.bri with ledgers := vupd b.bri.ledgers n f } := rfl
@[simp] theorem setWallet_tide (w : Nat) (x : Wallet) (b : Block) : (setWallet w x b).tide = b.tide := rfl
@[simp] theorem setWallet_lau (w : Nat) (x : Wallet) (b : Block) : (setWallet w x b).lau = b.lau := rfl
@[simp] theorem setWallet_snaps (w : Nat) (x : Wallet) (b : Block) : (setWallet w x b).snaps = b.snaps := rfl
@[simp] theorem setWallet_barrier (w : Nat) (x : Wallet) (b : Block) : (setWallet w x b).barrier = b.barrier := rfl
@[simp] theorem setWallet_fab (w : Nat) (x : Wallet) (b : Block) : (setWallet w x b).fab = b.fab := rfl
@[simp] theorem setWallet_d2d (w : Nat) (x : Wallet) (b : Block) : (setWallet w x b).d2d = b.d2d := rfl
@[simp] theorem setWallet_cross (w : Nat) (x : Wallet) (b : Block) : (setWallet w x b).cross = b.cross := rfl
@[simp] theorem setWallet_met (w : Nat) (x : Wallet) (b : Block) : (setWallet w x b).met = b.met := rfl
@[simp] theorem setWallet_acc (w : Nat) (x : Wallet) (b : Block) : (setWallet w x b).acc = b.acc := rfl
@[simp] theorem setWallet_pq (w : Nat) (x : Wallet) (b : Block) : (setWallet w x b).pq = b.pq := rfl
@[simp] theorem setWallet_sess (w : Nat) (x : Wallet) (b : Block) : (setWallet w x b).sess = b.sess := rfl
@[simp] theorem setWallet_slu (w : Nat) (x : Wallet) (b : Block) : (setWallet w x b).slu = b.slu := rfl
@[simp] theorem setWallet_sluCnt (w : Nat) (x : Wallet) (b : Block) : (setWallet w x b).sluCnt = b.sluCnt := rfl
@[simp] theorem setWallet_mlk (w : Nat) (x : Wallet) (b : Block) : (setWallet w x b).mlk = b.mlk := rfl
@[simp] theorem setWallet_veh (w : Nat) (x : Wallet) (b : Block) : (setWallet w x b).veh = b.veh := rfl
@[simp] theorem setWallet_vehCfg (w : Nat) (x : Wallet) (b : Block) : (setWallet w x b).vehCfg = b.vehCfg := rfl
@[simp] theorem setWallet_plc (w : Nat) (x : Wallet) (b : Block) : (setWallet w x b).plc = b.plc := rfl
@[simp] theorem setWallet_plcCfg (w : Nat) (x : Wallet) (b : Block) : (setWallet w x b).plcCfg = b.plcCfg := rfl
@[simp] theorem setWallet_v2g (w : Nat) (x : Wallet) (b : Block) : (setWallet w x b).v2g = b.v2g := rfl
@[simp] theorem setWallet_v2gCfg (w : Nat) (x : Wallet) (b : Block) : (setWallet w x b).v2gCfg = b.v2gCfg := rfl
@[simp] theorem setWallet_imd (w : Nat) (x : Wallet) (b : Block) : (setWallet w x b).imd = b.imd := rfl
@[simp] theorem setWallet_imdG (w : Nat) (x : Wallet) (b : Block) : (setWallet w x b).imdG = b.imdG := rfl
@[simp] theorem setWallet_rcm (w : Nat) (x : Wallet) (b : Block) : (setWallet w x b).rcm = b.rcm := rfl
@[simp] theorem setWallet_rcmTest (w : Nat) (x : Wallet) (b : Block) : (setWallet w x b).rcmTest = b.rcmTest := rfl
@[simp] theorem setWallet_saf (w : Nat) (x : Wallet) (b : Block) : (setWallet w x b).saf = b.saf := rfl
@[simp] theorem setWallet_safX (w : Nat) (x : Wallet) (b : Block) : (setWallet w x b).safX = b.safX := rfl
@[simp] theorem setWallet_lsw (w : Nat) (x : Wallet) (b : Block) : (setWallet w x b).lsw = b.lsw := rfl
@[simp] theorem setWallet_pea (w : Nat) (x : Wallet) (b : Block) : (setWallet w x b).pea = b.pea := rfl
@[simp] theorem setWallet_arb (w : Nat) (x : Wallet) (b : Block) : (setWallet w x b).arb = b.arb := rfl
@[simp] theorem setWallet_pf (w : Nat) (x : Wallet) (b : Block) : (setWallet w x b).pf = b.pf := rfl
@[simp] theorem setWallet_slt (w : Nat) (x : Wallet) (b : Block) : (setWallet w x b).slt = b.slt := rfl
@[simp] theorem setWallet_legal (w : Nat) (x : Wallet) (b : Block) : (setWallet w x b).legal = b.legal := rfl
@[simp] theorem setWallet_auth (w : Nat) (x : Wallet) (b : Block) : (setWallet w x b).auth = b.auth := rfl
@[simp] theorem setWallet_backup (w : Nat) (x : Wallet) (b : Block) : (setWallet w x b).backup = b.backup := rfl
@[simp] theorem setWallet_key (w : Nat) (x : Wallet) (b : Block) : (setWallet w x b).key = b.key := rfl
@[simp] theorem setWallet_mbx (w : Nat) (x : Wallet) (b : Block) : (setWallet w x b).mbx = b.mbx := rfl
@[simp] theorem setWallet_hp (w : Nat) (x : Wallet) (b : Block) : (setWallet w x b).hp = b.hp := rfl
@[simp] theorem setWallet_hic (w : Nat) (x : Wallet) (b : Block) : (setWallet w x b).hic = b.hic := rfl
@[simp] theorem setWallet_qmg (w : Nat) (x : Wallet) (b : Block) : (setWallet w x b).qmg = b.qmg := rfl
@[simp] theorem setWallet_cwy (w : Nat) (x : Wallet) (b : Block) : (setWallet w x b).cwy = b.cwy := rfl
@[simp] theorem setWallet_cwyX (w : Nat) (x : Wallet) (b : Block) : (setWallet w x b).cwyX = b.cwyX := rfl
@[simp] theorem setWallet_pnl (w : Nat) (x : Wallet) (b : Block) : (setWallet w x b).pnl = b.pnl := rfl
@[simp] theorem setWallet_frames (w : Nat) (x : Wallet) (b : Block) : (setWallet w x b).frames = b.frames := rfl
@[simp] theorem setWallet_nfc (w : Nat) (x : Wallet) (b : Block) : (setWallet w x b).nfc = b.nfc := rfl
@[simp] theorem setWallet_rst (w : Nat) (x : Wallet) (b : Block) : (setWallet w x b).rst = b.rst := rfl
@[simp] theorem setWallet_upd (w : Nat) (x : Wallet) (b : Block) : (setWallet w x b).upd = b.upd := rfl
@[simp] theorem setWallet_btn (w : Nat) (x : Wallet) (b : Block) : (setWallet w x b).btn = b.btn := rfl
@[simp] theorem setWallet_dmp (w : Nat) (x : Wallet) (b : Block) : (setWallet w x b).dmp = b.dmp := rfl
@[simp] theorem setWallet_rpl (w : Nat) (x : Wallet) (b : Block) : (setWallet w x b).rpl = b.rpl := rfl
@[simp] theorem setWallet_dbg (w : Nat) (x : Wallet) (b : Block) : (setWallet w x b).dbg = b.dbg := rfl
@[simp] theorem setWallet_settings (w : Nat) (x : Wallet) (b : Block) : (setWallet w x b).settings = b.settings := rfl
@[simp] theorem setWallet_newSettings (w : Nat) (x : Wallet) (b : Block) : (setWallet w x b).newSettings = b.newSettings := rfl
@[simp] theorem setWallet_legalSet (w : Nat) (x : Wallet) (b : Block) : (setWallet w x b).legalSet = b.legalSet := rfl
@[simp] theorem setWallet_updRec (w : Nat) (x : Wallet) (b : Block) : (setWallet w x b).updRec = b.updRec := rfl
@[simp] theorem setWallet_kept (w : Nat) (x : Wallet) (b : Block) : (setWallet w x b).kept = b.kept := rfl
@[simp] theorem setWallet_prior (w : Nat) (x : Wallet) (b : Block) : (setWallet w x b).prior = b.prior := rfl
@[simp] theorem setWallet_bri (w : Nat) (x : Wallet) (b : Block) : (setWallet w x b).bri = { b.bri with wallets := sput {} b.bri.wallets w x } := rfl
@[simp] theorem updNode_tide (n : Fin 16) (f : SafNode → SafNode) (b : Block) : (updNode n f b).tide = b.tide := rfl
@[simp] theorem updNode_lau (n : Fin 16) (f : SafNode → SafNode) (b : Block) : (updNode n f b).lau = b.lau := rfl
@[simp] theorem updNode_snaps (n : Fin 16) (f : SafNode → SafNode) (b : Block) : (updNode n f b).snaps = b.snaps := rfl
@[simp] theorem updNode_barrier (n : Fin 16) (f : SafNode → SafNode) (b : Block) : (updNode n f b).barrier = b.barrier := rfl
@[simp] theorem updNode_fab (n : Fin 16) (f : SafNode → SafNode) (b : Block) : (updNode n f b).fab = b.fab := rfl
@[simp] theorem updNode_d2d (n : Fin 16) (f : SafNode → SafNode) (b : Block) : (updNode n f b).d2d = b.d2d := rfl
@[simp] theorem updNode_cross (n : Fin 16) (f : SafNode → SafNode) (b : Block) : (updNode n f b).cross = b.cross := rfl
@[simp] theorem updNode_met (n : Fin 16) (f : SafNode → SafNode) (b : Block) : (updNode n f b).met = b.met := rfl
@[simp] theorem updNode_acc (n : Fin 16) (f : SafNode → SafNode) (b : Block) : (updNode n f b).acc = b.acc := rfl
@[simp] theorem updNode_pq (n : Fin 16) (f : SafNode → SafNode) (b : Block) : (updNode n f b).pq = b.pq := rfl
@[simp] theorem updNode_sess (n : Fin 16) (f : SafNode → SafNode) (b : Block) : (updNode n f b).sess = b.sess := rfl
@[simp] theorem updNode_slu (n : Fin 16) (f : SafNode → SafNode) (b : Block) : (updNode n f b).slu = b.slu := rfl
@[simp] theorem updNode_sluCnt (n : Fin 16) (f : SafNode → SafNode) (b : Block) : (updNode n f b).sluCnt = b.sluCnt := rfl
@[simp] theorem updNode_mlk (n : Fin 16) (f : SafNode → SafNode) (b : Block) : (updNode n f b).mlk = b.mlk := rfl
@[simp] theorem updNode_veh (n : Fin 16) (f : SafNode → SafNode) (b : Block) : (updNode n f b).veh = b.veh := rfl
@[simp] theorem updNode_vehCfg (n : Fin 16) (f : SafNode → SafNode) (b : Block) : (updNode n f b).vehCfg = b.vehCfg := rfl
@[simp] theorem updNode_plc (n : Fin 16) (f : SafNode → SafNode) (b : Block) : (updNode n f b).plc = b.plc := rfl
@[simp] theorem updNode_plcCfg (n : Fin 16) (f : SafNode → SafNode) (b : Block) : (updNode n f b).plcCfg = b.plcCfg := rfl
@[simp] theorem updNode_v2g (n : Fin 16) (f : SafNode → SafNode) (b : Block) : (updNode n f b).v2g = b.v2g := rfl
@[simp] theorem updNode_v2gCfg (n : Fin 16) (f : SafNode → SafNode) (b : Block) : (updNode n f b).v2gCfg = b.v2gCfg := rfl
@[simp] theorem updNode_imd (n : Fin 16) (f : SafNode → SafNode) (b : Block) : (updNode n f b).imd = b.imd := rfl
@[simp] theorem updNode_imdG (n : Fin 16) (f : SafNode → SafNode) (b : Block) : (updNode n f b).imdG = b.imdG := rfl
@[simp] theorem updNode_rcm (n : Fin 16) (f : SafNode → SafNode) (b : Block) : (updNode n f b).rcm = b.rcm := rfl
@[simp] theorem updNode_rcmTest (n : Fin 16) (f : SafNode → SafNode) (b : Block) : (updNode n f b).rcmTest = b.rcmTest := rfl
@[simp] theorem updNode_safX (n : Fin 16) (f : SafNode → SafNode) (b : Block) : (updNode n f b).safX = b.safX := rfl
@[simp] theorem updNode_lsw (n : Fin 16) (f : SafNode → SafNode) (b : Block) : (updNode n f b).lsw = b.lsw := rfl
@[simp] theorem updNode_pea (n : Fin 16) (f : SafNode → SafNode) (b : Block) : (updNode n f b).pea = b.pea := rfl
@[simp] theorem updNode_arb (n : Fin 16) (f : SafNode → SafNode) (b : Block) : (updNode n f b).arb = b.arb := rfl
@[simp] theorem updNode_pf (n : Fin 16) (f : SafNode → SafNode) (b : Block) : (updNode n f b).pf = b.pf := rfl
@[simp] theorem updNode_slt (n : Fin 16) (f : SafNode → SafNode) (b : Block) : (updNode n f b).slt = b.slt := rfl
@[simp] theorem updNode_legal (n : Fin 16) (f : SafNode → SafNode) (b : Block) : (updNode n f b).legal = b.legal := rfl
@[simp] theorem updNode_auth (n : Fin 16) (f : SafNode → SafNode) (b : Block) : (updNode n f b).auth = b.auth := rfl
@[simp] theorem updNode_backup (n : Fin 16) (f : SafNode → SafNode) (b : Block) : (updNode n f b).backup = b.backup := rfl
@[simp] theorem updNode_bri (n : Fin 16) (f : SafNode → SafNode) (b : Block) : (updNode n f b).bri = b.bri := rfl
@[simp] theorem updNode_key (n : Fin 16) (f : SafNode → SafNode) (b : Block) : (updNode n f b).key = b.key := rfl
@[simp] theorem updNode_mbx (n : Fin 16) (f : SafNode → SafNode) (b : Block) : (updNode n f b).mbx = b.mbx := rfl
@[simp] theorem updNode_hp (n : Fin 16) (f : SafNode → SafNode) (b : Block) : (updNode n f b).hp = b.hp := rfl
@[simp] theorem updNode_hic (n : Fin 16) (f : SafNode → SafNode) (b : Block) : (updNode n f b).hic = b.hic := rfl
@[simp] theorem updNode_qmg (n : Fin 16) (f : SafNode → SafNode) (b : Block) : (updNode n f b).qmg = b.qmg := rfl
@[simp] theorem updNode_cwy (n : Fin 16) (f : SafNode → SafNode) (b : Block) : (updNode n f b).cwy = b.cwy := rfl
@[simp] theorem updNode_cwyX (n : Fin 16) (f : SafNode → SafNode) (b : Block) : (updNode n f b).cwyX = b.cwyX := rfl
@[simp] theorem updNode_pnl (n : Fin 16) (f : SafNode → SafNode) (b : Block) : (updNode n f b).pnl = b.pnl := rfl
@[simp] theorem updNode_frames (n : Fin 16) (f : SafNode → SafNode) (b : Block) : (updNode n f b).frames = b.frames := rfl
@[simp] theorem updNode_nfc (n : Fin 16) (f : SafNode → SafNode) (b : Block) : (updNode n f b).nfc = b.nfc := rfl
@[simp] theorem updNode_rst (n : Fin 16) (f : SafNode → SafNode) (b : Block) : (updNode n f b).rst = b.rst := rfl
@[simp] theorem updNode_upd (n : Fin 16) (f : SafNode → SafNode) (b : Block) : (updNode n f b).upd = b.upd := rfl
@[simp] theorem updNode_btn (n : Fin 16) (f : SafNode → SafNode) (b : Block) : (updNode n f b).btn = b.btn := rfl
@[simp] theorem updNode_dmp (n : Fin 16) (f : SafNode → SafNode) (b : Block) : (updNode n f b).dmp = b.dmp := rfl
@[simp] theorem updNode_rpl (n : Fin 16) (f : SafNode → SafNode) (b : Block) : (updNode n f b).rpl = b.rpl := rfl
@[simp] theorem updNode_dbg (n : Fin 16) (f : SafNode → SafNode) (b : Block) : (updNode n f b).dbg = b.dbg := rfl
@[simp] theorem updNode_settings (n : Fin 16) (f : SafNode → SafNode) (b : Block) : (updNode n f b).settings = b.settings := rfl
@[simp] theorem updNode_newSettings (n : Fin 16) (f : SafNode → SafNode) (b : Block) : (updNode n f b).newSettings = b.newSettings := rfl
@[simp] theorem updNode_legalSet (n : Fin 16) (f : SafNode → SafNode) (b : Block) : (updNode n f b).legalSet = b.legalSet := rfl
@[simp] theorem updNode_updRec (n : Fin 16) (f : SafNode → SafNode) (b : Block) : (updNode n f b).updRec = b.updRec := rfl
@[simp] theorem updNode_kept (n : Fin 16) (f : SafNode → SafNode) (b : Block) : (updNode n f b).kept = b.kept := rfl
@[simp] theorem updNode_prior (n : Fin 16) (f : SafNode → SafNode) (b : Block) : (updNode n f b).prior = b.prior := rfl
@[simp] theorem updNode_saf (n : Fin 16) (f : SafNode → SafNode) (b : Block) : (updNode n f b).saf = { b.saf with nodes := vupd b.saf.nodes n f } := rfl
@[simp] theorem updSaf_tide (f : Safety → Safety) (b : Block) : (updSaf f b).tide = b.tide := rfl
@[simp] theorem updSaf_lau (f : Safety → Safety) (b : Block) : (updSaf f b).lau = b.lau := rfl
@[simp] theorem updSaf_snaps (f : Safety → Safety) (b : Block) : (updSaf f b).snaps = b.snaps := rfl
@[simp] theorem updSaf_barrier (f : Safety → Safety) (b : Block) : (updSaf f b).barrier = b.barrier := rfl
@[simp] theorem updSaf_fab (f : Safety → Safety) (b : Block) : (updSaf f b).fab = b.fab := rfl
@[simp] theorem updSaf_d2d (f : Safety → Safety) (b : Block) : (updSaf f b).d2d = b.d2d := rfl
@[simp] theorem updSaf_cross (f : Safety → Safety) (b : Block) : (updSaf f b).cross = b.cross := rfl
@[simp] theorem updSaf_met (f : Safety → Safety) (b : Block) : (updSaf f b).met = b.met := rfl
@[simp] theorem updSaf_acc (f : Safety → Safety) (b : Block) : (updSaf f b).acc = b.acc := rfl
@[simp] theorem updSaf_pq (f : Safety → Safety) (b : Block) : (updSaf f b).pq = b.pq := rfl
@[simp] theorem updSaf_sess (f : Safety → Safety) (b : Block) : (updSaf f b).sess = b.sess := rfl
@[simp] theorem updSaf_slu (f : Safety → Safety) (b : Block) : (updSaf f b).slu = b.slu := rfl
@[simp] theorem updSaf_sluCnt (f : Safety → Safety) (b : Block) : (updSaf f b).sluCnt = b.sluCnt := rfl
@[simp] theorem updSaf_mlk (f : Safety → Safety) (b : Block) : (updSaf f b).mlk = b.mlk := rfl
@[simp] theorem updSaf_veh (f : Safety → Safety) (b : Block) : (updSaf f b).veh = b.veh := rfl
@[simp] theorem updSaf_vehCfg (f : Safety → Safety) (b : Block) : (updSaf f b).vehCfg = b.vehCfg := rfl
@[simp] theorem updSaf_plc (f : Safety → Safety) (b : Block) : (updSaf f b).plc = b.plc := rfl
@[simp] theorem updSaf_plcCfg (f : Safety → Safety) (b : Block) : (updSaf f b).plcCfg = b.plcCfg := rfl
@[simp] theorem updSaf_v2g (f : Safety → Safety) (b : Block) : (updSaf f b).v2g = b.v2g := rfl
@[simp] theorem updSaf_v2gCfg (f : Safety → Safety) (b : Block) : (updSaf f b).v2gCfg = b.v2gCfg := rfl
@[simp] theorem updSaf_imd (f : Safety → Safety) (b : Block) : (updSaf f b).imd = b.imd := rfl
@[simp] theorem updSaf_imdG (f : Safety → Safety) (b : Block) : (updSaf f b).imdG = b.imdG := rfl
@[simp] theorem updSaf_rcm (f : Safety → Safety) (b : Block) : (updSaf f b).rcm = b.rcm := rfl
@[simp] theorem updSaf_rcmTest (f : Safety → Safety) (b : Block) : (updSaf f b).rcmTest = b.rcmTest := rfl
@[simp] theorem updSaf_safX (f : Safety → Safety) (b : Block) : (updSaf f b).safX = b.safX := rfl
@[simp] theorem updSaf_lsw (f : Safety → Safety) (b : Block) : (updSaf f b).lsw = b.lsw := rfl
@[simp] theorem updSaf_pea (f : Safety → Safety) (b : Block) : (updSaf f b).pea = b.pea := rfl
@[simp] theorem updSaf_arb (f : Safety → Safety) (b : Block) : (updSaf f b).arb = b.arb := rfl
@[simp] theorem updSaf_pf (f : Safety → Safety) (b : Block) : (updSaf f b).pf = b.pf := rfl
@[simp] theorem updSaf_slt (f : Safety → Safety) (b : Block) : (updSaf f b).slt = b.slt := rfl
@[simp] theorem updSaf_legal (f : Safety → Safety) (b : Block) : (updSaf f b).legal = b.legal := rfl
@[simp] theorem updSaf_auth (f : Safety → Safety) (b : Block) : (updSaf f b).auth = b.auth := rfl
@[simp] theorem updSaf_backup (f : Safety → Safety) (b : Block) : (updSaf f b).backup = b.backup := rfl
@[simp] theorem updSaf_bri (f : Safety → Safety) (b : Block) : (updSaf f b).bri = b.bri := rfl
@[simp] theorem updSaf_key (f : Safety → Safety) (b : Block) : (updSaf f b).key = b.key := rfl
@[simp] theorem updSaf_mbx (f : Safety → Safety) (b : Block) : (updSaf f b).mbx = b.mbx := rfl
@[simp] theorem updSaf_hp (f : Safety → Safety) (b : Block) : (updSaf f b).hp = b.hp := rfl
@[simp] theorem updSaf_hic (f : Safety → Safety) (b : Block) : (updSaf f b).hic = b.hic := rfl
@[simp] theorem updSaf_qmg (f : Safety → Safety) (b : Block) : (updSaf f b).qmg = b.qmg := rfl
@[simp] theorem updSaf_cwy (f : Safety → Safety) (b : Block) : (updSaf f b).cwy = b.cwy := rfl
@[simp] theorem updSaf_cwyX (f : Safety → Safety) (b : Block) : (updSaf f b).cwyX = b.cwyX := rfl
@[simp] theorem updSaf_pnl (f : Safety → Safety) (b : Block) : (updSaf f b).pnl = b.pnl := rfl
@[simp] theorem updSaf_frames (f : Safety → Safety) (b : Block) : (updSaf f b).frames = b.frames := rfl
@[simp] theorem updSaf_nfc (f : Safety → Safety) (b : Block) : (updSaf f b).nfc = b.nfc := rfl
@[simp] theorem updSaf_rst (f : Safety → Safety) (b : Block) : (updSaf f b).rst = b.rst := rfl
@[simp] theorem updSaf_upd (f : Safety → Safety) (b : Block) : (updSaf f b).upd = b.upd := rfl
@[simp] theorem updSaf_btn (f : Safety → Safety) (b : Block) : (updSaf f b).btn = b.btn := rfl
@[simp] theorem updSaf_dmp (f : Safety → Safety) (b : Block) : (updSaf f b).dmp = b.dmp := rfl
@[simp] theorem updSaf_rpl (f : Safety → Safety) (b : Block) : (updSaf f b).rpl = b.rpl := rfl
@[simp] theorem updSaf_dbg (f : Safety → Safety) (b : Block) : (updSaf f b).dbg = b.dbg := rfl
@[simp] theorem updSaf_settings (f : Safety → Safety) (b : Block) : (updSaf f b).settings = b.settings := rfl
@[simp] theorem updSaf_newSettings (f : Safety → Safety) (b : Block) : (updSaf f b).newSettings = b.newSettings := rfl
@[simp] theorem updSaf_legalSet (f : Safety → Safety) (b : Block) : (updSaf f b).legalSet = b.legalSet := rfl
@[simp] theorem updSaf_updRec (f : Safety → Safety) (b : Block) : (updSaf f b).updRec = b.updRec := rfl
@[simp] theorem updSaf_kept (f : Safety → Safety) (b : Block) : (updSaf f b).kept = b.kept := rfl
@[simp] theorem updSaf_prior (f : Safety → Safety) (b : Block) : (updSaf f b).prior = b.prior := rfl
@[simp] theorem updSaf_saf (f : Safety → Safety) (b : Block) : (updSaf f b).saf = f b.saf := rfl
@[simp] theorem updSafX_tide (f : SafetyX → SafetyX) (b : Block) : (updSafX f b).tide = b.tide := rfl
@[simp] theorem updSafX_lau (f : SafetyX → SafetyX) (b : Block) : (updSafX f b).lau = b.lau := rfl
@[simp] theorem updSafX_snaps (f : SafetyX → SafetyX) (b : Block) : (updSafX f b).snaps = b.snaps := rfl
@[simp] theorem updSafX_barrier (f : SafetyX → SafetyX) (b : Block) : (updSafX f b).barrier = b.barrier := rfl
@[simp] theorem updSafX_fab (f : SafetyX → SafetyX) (b : Block) : (updSafX f b).fab = b.fab := rfl
@[simp] theorem updSafX_d2d (f : SafetyX → SafetyX) (b : Block) : (updSafX f b).d2d = b.d2d := rfl
@[simp] theorem updSafX_cross (f : SafetyX → SafetyX) (b : Block) : (updSafX f b).cross = b.cross := rfl
@[simp] theorem updSafX_met (f : SafetyX → SafetyX) (b : Block) : (updSafX f b).met = b.met := rfl
@[simp] theorem updSafX_acc (f : SafetyX → SafetyX) (b : Block) : (updSafX f b).acc = b.acc := rfl
@[simp] theorem updSafX_pq (f : SafetyX → SafetyX) (b : Block) : (updSafX f b).pq = b.pq := rfl
@[simp] theorem updSafX_sess (f : SafetyX → SafetyX) (b : Block) : (updSafX f b).sess = b.sess := rfl
@[simp] theorem updSafX_slu (f : SafetyX → SafetyX) (b : Block) : (updSafX f b).slu = b.slu := rfl
@[simp] theorem updSafX_sluCnt (f : SafetyX → SafetyX) (b : Block) : (updSafX f b).sluCnt = b.sluCnt := rfl
@[simp] theorem updSafX_mlk (f : SafetyX → SafetyX) (b : Block) : (updSafX f b).mlk = b.mlk := rfl
@[simp] theorem updSafX_veh (f : SafetyX → SafetyX) (b : Block) : (updSafX f b).veh = b.veh := rfl
@[simp] theorem updSafX_vehCfg (f : SafetyX → SafetyX) (b : Block) : (updSafX f b).vehCfg = b.vehCfg := rfl
@[simp] theorem updSafX_plc (f : SafetyX → SafetyX) (b : Block) : (updSafX f b).plc = b.plc := rfl
@[simp] theorem updSafX_plcCfg (f : SafetyX → SafetyX) (b : Block) : (updSafX f b).plcCfg = b.plcCfg := rfl
@[simp] theorem updSafX_v2g (f : SafetyX → SafetyX) (b : Block) : (updSafX f b).v2g = b.v2g := rfl
@[simp] theorem updSafX_v2gCfg (f : SafetyX → SafetyX) (b : Block) : (updSafX f b).v2gCfg = b.v2gCfg := rfl
@[simp] theorem updSafX_imd (f : SafetyX → SafetyX) (b : Block) : (updSafX f b).imd = b.imd := rfl
@[simp] theorem updSafX_imdG (f : SafetyX → SafetyX) (b : Block) : (updSafX f b).imdG = b.imdG := rfl
@[simp] theorem updSafX_rcm (f : SafetyX → SafetyX) (b : Block) : (updSafX f b).rcm = b.rcm := rfl
@[simp] theorem updSafX_rcmTest (f : SafetyX → SafetyX) (b : Block) : (updSafX f b).rcmTest = b.rcmTest := rfl
@[simp] theorem updSafX_saf (f : SafetyX → SafetyX) (b : Block) : (updSafX f b).saf = b.saf := rfl
@[simp] theorem updSafX_lsw (f : SafetyX → SafetyX) (b : Block) : (updSafX f b).lsw = b.lsw := rfl
@[simp] theorem updSafX_pea (f : SafetyX → SafetyX) (b : Block) : (updSafX f b).pea = b.pea := rfl
@[simp] theorem updSafX_arb (f : SafetyX → SafetyX) (b : Block) : (updSafX f b).arb = b.arb := rfl
@[simp] theorem updSafX_pf (f : SafetyX → SafetyX) (b : Block) : (updSafX f b).pf = b.pf := rfl
@[simp] theorem updSafX_slt (f : SafetyX → SafetyX) (b : Block) : (updSafX f b).slt = b.slt := rfl
@[simp] theorem updSafX_legal (f : SafetyX → SafetyX) (b : Block) : (updSafX f b).legal = b.legal := rfl
@[simp] theorem updSafX_auth (f : SafetyX → SafetyX) (b : Block) : (updSafX f b).auth = b.auth := rfl
@[simp] theorem updSafX_backup (f : SafetyX → SafetyX) (b : Block) : (updSafX f b).backup = b.backup := rfl
@[simp] theorem updSafX_bri (f : SafetyX → SafetyX) (b : Block) : (updSafX f b).bri = b.bri := rfl
@[simp] theorem updSafX_key (f : SafetyX → SafetyX) (b : Block) : (updSafX f b).key = b.key := rfl
@[simp] theorem updSafX_mbx (f : SafetyX → SafetyX) (b : Block) : (updSafX f b).mbx = b.mbx := rfl
@[simp] theorem updSafX_hp (f : SafetyX → SafetyX) (b : Block) : (updSafX f b).hp = b.hp := rfl
@[simp] theorem updSafX_hic (f : SafetyX → SafetyX) (b : Block) : (updSafX f b).hic = b.hic := rfl
@[simp] theorem updSafX_qmg (f : SafetyX → SafetyX) (b : Block) : (updSafX f b).qmg = b.qmg := rfl
@[simp] theorem updSafX_cwy (f : SafetyX → SafetyX) (b : Block) : (updSafX f b).cwy = b.cwy := rfl
@[simp] theorem updSafX_cwyX (f : SafetyX → SafetyX) (b : Block) : (updSafX f b).cwyX = b.cwyX := rfl
@[simp] theorem updSafX_pnl (f : SafetyX → SafetyX) (b : Block) : (updSafX f b).pnl = b.pnl := rfl
@[simp] theorem updSafX_frames (f : SafetyX → SafetyX) (b : Block) : (updSafX f b).frames = b.frames := rfl
@[simp] theorem updSafX_nfc (f : SafetyX → SafetyX) (b : Block) : (updSafX f b).nfc = b.nfc := rfl
@[simp] theorem updSafX_rst (f : SafetyX → SafetyX) (b : Block) : (updSafX f b).rst = b.rst := rfl
@[simp] theorem updSafX_upd (f : SafetyX → SafetyX) (b : Block) : (updSafX f b).upd = b.upd := rfl
@[simp] theorem updSafX_btn (f : SafetyX → SafetyX) (b : Block) : (updSafX f b).btn = b.btn := rfl
@[simp] theorem updSafX_dmp (f : SafetyX → SafetyX) (b : Block) : (updSafX f b).dmp = b.dmp := rfl
@[simp] theorem updSafX_rpl (f : SafetyX → SafetyX) (b : Block) : (updSafX f b).rpl = b.rpl := rfl
@[simp] theorem updSafX_dbg (f : SafetyX → SafetyX) (b : Block) : (updSafX f b).dbg = b.dbg := rfl
@[simp] theorem updSafX_settings (f : SafetyX → SafetyX) (b : Block) : (updSafX f b).settings = b.settings := rfl
@[simp] theorem updSafX_newSettings (f : SafetyX → SafetyX) (b : Block) : (updSafX f b).newSettings = b.newSettings := rfl
@[simp] theorem updSafX_legalSet (f : SafetyX → SafetyX) (b : Block) : (updSafX f b).legalSet = b.legalSet := rfl
@[simp] theorem updSafX_updRec (f : SafetyX → SafetyX) (b : Block) : (updSafX f b).updRec = b.updRec := rfl
@[simp] theorem updSafX_kept (f : SafetyX → SafetyX) (b : Block) : (updSafX f b).kept = b.kept := rfl
@[simp] theorem updSafX_prior (f : SafetyX → SafetyX) (b : Block) : (updSafX f b).prior = b.prior := rfl
@[simp] theorem updSafX_safX (f : SafetyX → SafetyX) (b : Block) : (updSafX f b).safX = f b.safX := rfl
@[simp] theorem updSess_tide (n : Fin 16) (f : Session → Session) (b : Block) : (updSess n f b).tide = b.tide := rfl
@[simp] theorem updSess_lau (n : Fin 16) (f : Session → Session) (b : Block) : (updSess n f b).lau = b.lau := rfl
@[simp] theorem updSess_snaps (n : Fin 16) (f : Session → Session) (b : Block) : (updSess n f b).snaps = b.snaps := rfl
@[simp] theorem updSess_barrier (n : Fin 16) (f : Session → Session) (b : Block) : (updSess n f b).barrier = b.barrier := rfl
@[simp] theorem updSess_fab (n : Fin 16) (f : Session → Session) (b : Block) : (updSess n f b).fab = b.fab := rfl
@[simp] theorem updSess_d2d (n : Fin 16) (f : Session → Session) (b : Block) : (updSess n f b).d2d = b.d2d := rfl
@[simp] theorem updSess_cross (n : Fin 16) (f : Session → Session) (b : Block) : (updSess n f b).cross = b.cross := rfl
@[simp] theorem updSess_met (n : Fin 16) (f : Session → Session) (b : Block) : (updSess n f b).met = b.met := rfl
@[simp] theorem updSess_acc (n : Fin 16) (f : Session → Session) (b : Block) : (updSess n f b).acc = b.acc := rfl
@[simp] theorem updSess_pq (n : Fin 16) (f : Session → Session) (b : Block) : (updSess n f b).pq = b.pq := rfl
@[simp] theorem updSess_slu (n : Fin 16) (f : Session → Session) (b : Block) : (updSess n f b).slu = b.slu := rfl
@[simp] theorem updSess_sluCnt (n : Fin 16) (f : Session → Session) (b : Block) : (updSess n f b).sluCnt = b.sluCnt := rfl
@[simp] theorem updSess_mlk (n : Fin 16) (f : Session → Session) (b : Block) : (updSess n f b).mlk = b.mlk := rfl
@[simp] theorem updSess_veh (n : Fin 16) (f : Session → Session) (b : Block) : (updSess n f b).veh = b.veh := rfl
@[simp] theorem updSess_vehCfg (n : Fin 16) (f : Session → Session) (b : Block) : (updSess n f b).vehCfg = b.vehCfg := rfl
@[simp] theorem updSess_plc (n : Fin 16) (f : Session → Session) (b : Block) : (updSess n f b).plc = b.plc := rfl
@[simp] theorem updSess_plcCfg (n : Fin 16) (f : Session → Session) (b : Block) : (updSess n f b).plcCfg = b.plcCfg := rfl
@[simp] theorem updSess_v2g (n : Fin 16) (f : Session → Session) (b : Block) : (updSess n f b).v2g = b.v2g := rfl
@[simp] theorem updSess_v2gCfg (n : Fin 16) (f : Session → Session) (b : Block) : (updSess n f b).v2gCfg = b.v2gCfg := rfl
@[simp] theorem updSess_imd (n : Fin 16) (f : Session → Session) (b : Block) : (updSess n f b).imd = b.imd := rfl
@[simp] theorem updSess_imdG (n : Fin 16) (f : Session → Session) (b : Block) : (updSess n f b).imdG = b.imdG := rfl
@[simp] theorem updSess_rcm (n : Fin 16) (f : Session → Session) (b : Block) : (updSess n f b).rcm = b.rcm := rfl
@[simp] theorem updSess_rcmTest (n : Fin 16) (f : Session → Session) (b : Block) : (updSess n f b).rcmTest = b.rcmTest := rfl
@[simp] theorem updSess_saf (n : Fin 16) (f : Session → Session) (b : Block) : (updSess n f b).saf = b.saf := rfl
@[simp] theorem updSess_safX (n : Fin 16) (f : Session → Session) (b : Block) : (updSess n f b).safX = b.safX := rfl
@[simp] theorem updSess_lsw (n : Fin 16) (f : Session → Session) (b : Block) : (updSess n f b).lsw = b.lsw := rfl
@[simp] theorem updSess_pea (n : Fin 16) (f : Session → Session) (b : Block) : (updSess n f b).pea = b.pea := rfl
@[simp] theorem updSess_arb (n : Fin 16) (f : Session → Session) (b : Block) : (updSess n f b).arb = b.arb := rfl
@[simp] theorem updSess_pf (n : Fin 16) (f : Session → Session) (b : Block) : (updSess n f b).pf = b.pf := rfl
@[simp] theorem updSess_slt (n : Fin 16) (f : Session → Session) (b : Block) : (updSess n f b).slt = b.slt := rfl
@[simp] theorem updSess_legal (n : Fin 16) (f : Session → Session) (b : Block) : (updSess n f b).legal = b.legal := rfl
@[simp] theorem updSess_auth (n : Fin 16) (f : Session → Session) (b : Block) : (updSess n f b).auth = b.auth := rfl
@[simp] theorem updSess_backup (n : Fin 16) (f : Session → Session) (b : Block) : (updSess n f b).backup = b.backup := rfl
@[simp] theorem updSess_bri (n : Fin 16) (f : Session → Session) (b : Block) : (updSess n f b).bri = b.bri := rfl
@[simp] theorem updSess_key (n : Fin 16) (f : Session → Session) (b : Block) : (updSess n f b).key = b.key := rfl
@[simp] theorem updSess_mbx (n : Fin 16) (f : Session → Session) (b : Block) : (updSess n f b).mbx = b.mbx := rfl
@[simp] theorem updSess_hp (n : Fin 16) (f : Session → Session) (b : Block) : (updSess n f b).hp = b.hp := rfl
@[simp] theorem updSess_hic (n : Fin 16) (f : Session → Session) (b : Block) : (updSess n f b).hic = b.hic := rfl
@[simp] theorem updSess_qmg (n : Fin 16) (f : Session → Session) (b : Block) : (updSess n f b).qmg = b.qmg := rfl
@[simp] theorem updSess_cwy (n : Fin 16) (f : Session → Session) (b : Block) : (updSess n f b).cwy = b.cwy := rfl
@[simp] theorem updSess_cwyX (n : Fin 16) (f : Session → Session) (b : Block) : (updSess n f b).cwyX = b.cwyX := rfl
@[simp] theorem updSess_pnl (n : Fin 16) (f : Session → Session) (b : Block) : (updSess n f b).pnl = b.pnl := rfl
@[simp] theorem updSess_frames (n : Fin 16) (f : Session → Session) (b : Block) : (updSess n f b).frames = b.frames := rfl
@[simp] theorem updSess_nfc (n : Fin 16) (f : Session → Session) (b : Block) : (updSess n f b).nfc = b.nfc := rfl
@[simp] theorem updSess_rst (n : Fin 16) (f : Session → Session) (b : Block) : (updSess n f b).rst = b.rst := rfl
@[simp] theorem updSess_upd (n : Fin 16) (f : Session → Session) (b : Block) : (updSess n f b).upd = b.upd := rfl
@[simp] theorem updSess_btn (n : Fin 16) (f : Session → Session) (b : Block) : (updSess n f b).btn = b.btn := rfl
@[simp] theorem updSess_dmp (n : Fin 16) (f : Session → Session) (b : Block) : (updSess n f b).dmp = b.dmp := rfl
@[simp] theorem updSess_rpl (n : Fin 16) (f : Session → Session) (b : Block) : (updSess n f b).rpl = b.rpl := rfl
@[simp] theorem updSess_dbg (n : Fin 16) (f : Session → Session) (b : Block) : (updSess n f b).dbg = b.dbg := rfl
@[simp] theorem updSess_settings (n : Fin 16) (f : Session → Session) (b : Block) : (updSess n f b).settings = b.settings := rfl
@[simp] theorem updSess_newSettings (n : Fin 16) (f : Session → Session) (b : Block) : (updSess n f b).newSettings = b.newSettings := rfl
@[simp] theorem updSess_legalSet (n : Fin 16) (f : Session → Session) (b : Block) : (updSess n f b).legalSet = b.legalSet := rfl
@[simp] theorem updSess_updRec (n : Fin 16) (f : Session → Session) (b : Block) : (updSess n f b).updRec = b.updRec := rfl
@[simp] theorem updSess_kept (n : Fin 16) (f : Session → Session) (b : Block) : (updSess n f b).kept = b.kept := rfl
@[simp] theorem updSess_prior (n : Fin 16) (f : Session → Session) (b : Block) : (updSess n f b).prior = b.prior := rfl
@[simp] theorem updSess_sess (n : Fin 16) (f : Session → Session) (b : Block) : (updSess n f b).sess = vupd b.sess n f := rfl
@[simp] theorem updLs_tide (n : Fin 16) (f : LsChan → LsChan) (b : Block) : (updLs n f b).tide = b.tide := rfl
@[simp] theorem updLs_lau (n : Fin 16) (f : LsChan → LsChan) (b : Block) : (updLs n f b).lau = b.lau := rfl
@[simp] theorem updLs_snaps (n : Fin 16) (f : LsChan → LsChan) (b : Block) : (updLs n f b).snaps = b.snaps := rfl
@[simp] theorem updLs_barrier (n : Fin 16) (f : LsChan → LsChan) (b : Block) : (updLs n f b).barrier = b.barrier := rfl
@[simp] theorem updLs_fab (n : Fin 16) (f : LsChan → LsChan) (b : Block) : (updLs n f b).fab = b.fab := rfl
@[simp] theorem updLs_d2d (n : Fin 16) (f : LsChan → LsChan) (b : Block) : (updLs n f b).d2d = b.d2d := rfl
@[simp] theorem updLs_cross (n : Fin 16) (f : LsChan → LsChan) (b : Block) : (updLs n f b).cross = b.cross := rfl
@[simp] theorem updLs_met (n : Fin 16) (f : LsChan → LsChan) (b : Block) : (updLs n f b).met = b.met := rfl
@[simp] theorem updLs_acc (n : Fin 16) (f : LsChan → LsChan) (b : Block) : (updLs n f b).acc = b.acc := rfl
@[simp] theorem updLs_pq (n : Fin 16) (f : LsChan → LsChan) (b : Block) : (updLs n f b).pq = b.pq := rfl
@[simp] theorem updLs_sess (n : Fin 16) (f : LsChan → LsChan) (b : Block) : (updLs n f b).sess = b.sess := rfl
@[simp] theorem updLs_slu (n : Fin 16) (f : LsChan → LsChan) (b : Block) : (updLs n f b).slu = b.slu := rfl
@[simp] theorem updLs_sluCnt (n : Fin 16) (f : LsChan → LsChan) (b : Block) : (updLs n f b).sluCnt = b.sluCnt := rfl
@[simp] theorem updLs_mlk (n : Fin 16) (f : LsChan → LsChan) (b : Block) : (updLs n f b).mlk = b.mlk := rfl
@[simp] theorem updLs_veh (n : Fin 16) (f : LsChan → LsChan) (b : Block) : (updLs n f b).veh = b.veh := rfl
@[simp] theorem updLs_vehCfg (n : Fin 16) (f : LsChan → LsChan) (b : Block) : (updLs n f b).vehCfg = b.vehCfg := rfl
@[simp] theorem updLs_plc (n : Fin 16) (f : LsChan → LsChan) (b : Block) : (updLs n f b).plc = b.plc := rfl
@[simp] theorem updLs_plcCfg (n : Fin 16) (f : LsChan → LsChan) (b : Block) : (updLs n f b).plcCfg = b.plcCfg := rfl
@[simp] theorem updLs_v2g (n : Fin 16) (f : LsChan → LsChan) (b : Block) : (updLs n f b).v2g = b.v2g := rfl
@[simp] theorem updLs_v2gCfg (n : Fin 16) (f : LsChan → LsChan) (b : Block) : (updLs n f b).v2gCfg = b.v2gCfg := rfl
@[simp] theorem updLs_imd (n : Fin 16) (f : LsChan → LsChan) (b : Block) : (updLs n f b).imd = b.imd := rfl
@[simp] theorem updLs_imdG (n : Fin 16) (f : LsChan → LsChan) (b : Block) : (updLs n f b).imdG = b.imdG := rfl
@[simp] theorem updLs_rcm (n : Fin 16) (f : LsChan → LsChan) (b : Block) : (updLs n f b).rcm = b.rcm := rfl
@[simp] theorem updLs_rcmTest (n : Fin 16) (f : LsChan → LsChan) (b : Block) : (updLs n f b).rcmTest = b.rcmTest := rfl
@[simp] theorem updLs_saf (n : Fin 16) (f : LsChan → LsChan) (b : Block) : (updLs n f b).saf = b.saf := rfl
@[simp] theorem updLs_safX (n : Fin 16) (f : LsChan → LsChan) (b : Block) : (updLs n f b).safX = b.safX := rfl
@[simp] theorem updLs_pea (n : Fin 16) (f : LsChan → LsChan) (b : Block) : (updLs n f b).pea = b.pea := rfl
@[simp] theorem updLs_arb (n : Fin 16) (f : LsChan → LsChan) (b : Block) : (updLs n f b).arb = b.arb := rfl
@[simp] theorem updLs_pf (n : Fin 16) (f : LsChan → LsChan) (b : Block) : (updLs n f b).pf = b.pf := rfl
@[simp] theorem updLs_slt (n : Fin 16) (f : LsChan → LsChan) (b : Block) : (updLs n f b).slt = b.slt := rfl
@[simp] theorem updLs_legal (n : Fin 16) (f : LsChan → LsChan) (b : Block) : (updLs n f b).legal = b.legal := rfl
@[simp] theorem updLs_auth (n : Fin 16) (f : LsChan → LsChan) (b : Block) : (updLs n f b).auth = b.auth := rfl
@[simp] theorem updLs_backup (n : Fin 16) (f : LsChan → LsChan) (b : Block) : (updLs n f b).backup = b.backup := rfl
@[simp] theorem updLs_bri (n : Fin 16) (f : LsChan → LsChan) (b : Block) : (updLs n f b).bri = b.bri := rfl
@[simp] theorem updLs_key (n : Fin 16) (f : LsChan → LsChan) (b : Block) : (updLs n f b).key = b.key := rfl
@[simp] theorem updLs_mbx (n : Fin 16) (f : LsChan → LsChan) (b : Block) : (updLs n f b).mbx = b.mbx := rfl
@[simp] theorem updLs_hp (n : Fin 16) (f : LsChan → LsChan) (b : Block) : (updLs n f b).hp = b.hp := rfl
@[simp] theorem updLs_hic (n : Fin 16) (f : LsChan → LsChan) (b : Block) : (updLs n f b).hic = b.hic := rfl
@[simp] theorem updLs_qmg (n : Fin 16) (f : LsChan → LsChan) (b : Block) : (updLs n f b).qmg = b.qmg := rfl
@[simp] theorem updLs_cwy (n : Fin 16) (f : LsChan → LsChan) (b : Block) : (updLs n f b).cwy = b.cwy := rfl
@[simp] theorem updLs_cwyX (n : Fin 16) (f : LsChan → LsChan) (b : Block) : (updLs n f b).cwyX = b.cwyX := rfl
@[simp] theorem updLs_pnl (n : Fin 16) (f : LsChan → LsChan) (b : Block) : (updLs n f b).pnl = b.pnl := rfl
@[simp] theorem updLs_frames (n : Fin 16) (f : LsChan → LsChan) (b : Block) : (updLs n f b).frames = b.frames := rfl
@[simp] theorem updLs_nfc (n : Fin 16) (f : LsChan → LsChan) (b : Block) : (updLs n f b).nfc = b.nfc := rfl
@[simp] theorem updLs_rst (n : Fin 16) (f : LsChan → LsChan) (b : Block) : (updLs n f b).rst = b.rst := rfl
@[simp] theorem updLs_upd (n : Fin 16) (f : LsChan → LsChan) (b : Block) : (updLs n f b).upd = b.upd := rfl
@[simp] theorem updLs_btn (n : Fin 16) (f : LsChan → LsChan) (b : Block) : (updLs n f b).btn = b.btn := rfl
@[simp] theorem updLs_dmp (n : Fin 16) (f : LsChan → LsChan) (b : Block) : (updLs n f b).dmp = b.dmp := rfl
@[simp] theorem updLs_rpl (n : Fin 16) (f : LsChan → LsChan) (b : Block) : (updLs n f b).rpl = b.rpl := rfl
@[simp] theorem updLs_dbg (n : Fin 16) (f : LsChan → LsChan) (b : Block) : (updLs n f b).dbg = b.dbg := rfl
@[simp] theorem updLs_settings (n : Fin 16) (f : LsChan → LsChan) (b : Block) : (updLs n f b).settings = b.settings := rfl
@[simp] theorem updLs_newSettings (n : Fin 16) (f : LsChan → LsChan) (b : Block) : (updLs n f b).newSettings = b.newSettings := rfl
@[simp] theorem updLs_legalSet (n : Fin 16) (f : LsChan → LsChan) (b : Block) : (updLs n f b).legalSet = b.legalSet := rfl
@[simp] theorem updLs_updRec (n : Fin 16) (f : LsChan → LsChan) (b : Block) : (updLs n f b).updRec = b.updRec := rfl
@[simp] theorem updLs_kept (n : Fin 16) (f : LsChan → LsChan) (b : Block) : (updLs n f b).kept = b.kept := rfl
@[simp] theorem updLs_prior (n : Fin 16) (f : LsChan → LsChan) (b : Block) : (updLs n f b).prior = b.prior := rfl
@[simp] theorem updLs_lsw (n : Fin 16) (f : LsChan → LsChan) (b : Block) : (updLs n f b).lsw = { b.lsw with ls := vupd b.lsw.ls n f } := rfl
@[simp] theorem updHs_tide (c : Fin 40) (f : HsChan → HsChan) (b : Block) : (updHs c f b).tide = b.tide := rfl
@[simp] theorem updHs_lau (c : Fin 40) (f : HsChan → HsChan) (b : Block) : (updHs c f b).lau = b.lau := rfl
@[simp] theorem updHs_snaps (c : Fin 40) (f : HsChan → HsChan) (b : Block) : (updHs c f b).snaps = b.snaps := rfl
@[simp] theorem updHs_barrier (c : Fin 40) (f : HsChan → HsChan) (b : Block) : (updHs c f b).barrier = b.barrier := rfl
@[simp] theorem updHs_fab (c : Fin 40) (f : HsChan → HsChan) (b : Block) : (updHs c f b).fab = b.fab := rfl
@[simp] theorem updHs_d2d (c : Fin 40) (f : HsChan → HsChan) (b : Block) : (updHs c f b).d2d = b.d2d := rfl
@[simp] theorem updHs_cross (c : Fin 40) (f : HsChan → HsChan) (b : Block) : (updHs c f b).cross = b.cross := rfl
@[simp] theorem updHs_met (c : Fin 40) (f : HsChan → HsChan) (b : Block) : (updHs c f b).met = b.met := rfl
@[simp] theorem updHs_acc (c : Fin 40) (f : HsChan → HsChan) (b : Block) : (updHs c f b).acc = b.acc := rfl
@[simp] theorem updHs_pq (c : Fin 40) (f : HsChan → HsChan) (b : Block) : (updHs c f b).pq = b.pq := rfl
@[simp] theorem updHs_sess (c : Fin 40) (f : HsChan → HsChan) (b : Block) : (updHs c f b).sess = b.sess := rfl
@[simp] theorem updHs_slu (c : Fin 40) (f : HsChan → HsChan) (b : Block) : (updHs c f b).slu = b.slu := rfl
@[simp] theorem updHs_sluCnt (c : Fin 40) (f : HsChan → HsChan) (b : Block) : (updHs c f b).sluCnt = b.sluCnt := rfl
@[simp] theorem updHs_mlk (c : Fin 40) (f : HsChan → HsChan) (b : Block) : (updHs c f b).mlk = b.mlk := rfl
@[simp] theorem updHs_veh (c : Fin 40) (f : HsChan → HsChan) (b : Block) : (updHs c f b).veh = b.veh := rfl
@[simp] theorem updHs_vehCfg (c : Fin 40) (f : HsChan → HsChan) (b : Block) : (updHs c f b).vehCfg = b.vehCfg := rfl
@[simp] theorem updHs_plc (c : Fin 40) (f : HsChan → HsChan) (b : Block) : (updHs c f b).plc = b.plc := rfl
@[simp] theorem updHs_plcCfg (c : Fin 40) (f : HsChan → HsChan) (b : Block) : (updHs c f b).plcCfg = b.plcCfg := rfl
@[simp] theorem updHs_v2g (c : Fin 40) (f : HsChan → HsChan) (b : Block) : (updHs c f b).v2g = b.v2g := rfl
@[simp] theorem updHs_v2gCfg (c : Fin 40) (f : HsChan → HsChan) (b : Block) : (updHs c f b).v2gCfg = b.v2gCfg := rfl
@[simp] theorem updHs_imd (c : Fin 40) (f : HsChan → HsChan) (b : Block) : (updHs c f b).imd = b.imd := rfl
@[simp] theorem updHs_imdG (c : Fin 40) (f : HsChan → HsChan) (b : Block) : (updHs c f b).imdG = b.imdG := rfl
@[simp] theorem updHs_rcm (c : Fin 40) (f : HsChan → HsChan) (b : Block) : (updHs c f b).rcm = b.rcm := rfl
@[simp] theorem updHs_rcmTest (c : Fin 40) (f : HsChan → HsChan) (b : Block) : (updHs c f b).rcmTest = b.rcmTest := rfl
@[simp] theorem updHs_saf (c : Fin 40) (f : HsChan → HsChan) (b : Block) : (updHs c f b).saf = b.saf := rfl
@[simp] theorem updHs_safX (c : Fin 40) (f : HsChan → HsChan) (b : Block) : (updHs c f b).safX = b.safX := rfl
@[simp] theorem updHs_pea (c : Fin 40) (f : HsChan → HsChan) (b : Block) : (updHs c f b).pea = b.pea := rfl
@[simp] theorem updHs_arb (c : Fin 40) (f : HsChan → HsChan) (b : Block) : (updHs c f b).arb = b.arb := rfl
@[simp] theorem updHs_pf (c : Fin 40) (f : HsChan → HsChan) (b : Block) : (updHs c f b).pf = b.pf := rfl
@[simp] theorem updHs_slt (c : Fin 40) (f : HsChan → HsChan) (b : Block) : (updHs c f b).slt = b.slt := rfl
@[simp] theorem updHs_legal (c : Fin 40) (f : HsChan → HsChan) (b : Block) : (updHs c f b).legal = b.legal := rfl
@[simp] theorem updHs_auth (c : Fin 40) (f : HsChan → HsChan) (b : Block) : (updHs c f b).auth = b.auth := rfl
@[simp] theorem updHs_backup (c : Fin 40) (f : HsChan → HsChan) (b : Block) : (updHs c f b).backup = b.backup := rfl
@[simp] theorem updHs_bri (c : Fin 40) (f : HsChan → HsChan) (b : Block) : (updHs c f b).bri = b.bri := rfl
@[simp] theorem updHs_key (c : Fin 40) (f : HsChan → HsChan) (b : Block) : (updHs c f b).key = b.key := rfl
@[simp] theorem updHs_mbx (c : Fin 40) (f : HsChan → HsChan) (b : Block) : (updHs c f b).mbx = b.mbx := rfl
@[simp] theorem updHs_hp (c : Fin 40) (f : HsChan → HsChan) (b : Block) : (updHs c f b).hp = b.hp := rfl
@[simp] theorem updHs_hic (c : Fin 40) (f : HsChan → HsChan) (b : Block) : (updHs c f b).hic = b.hic := rfl
@[simp] theorem updHs_qmg (c : Fin 40) (f : HsChan → HsChan) (b : Block) : (updHs c f b).qmg = b.qmg := rfl
@[simp] theorem updHs_cwy (c : Fin 40) (f : HsChan → HsChan) (b : Block) : (updHs c f b).cwy = b.cwy := rfl
@[simp] theorem updHs_cwyX (c : Fin 40) (f : HsChan → HsChan) (b : Block) : (updHs c f b).cwyX = b.cwyX := rfl
@[simp] theorem updHs_pnl (c : Fin 40) (f : HsChan → HsChan) (b : Block) : (updHs c f b).pnl = b.pnl := rfl
@[simp] theorem updHs_frames (c : Fin 40) (f : HsChan → HsChan) (b : Block) : (updHs c f b).frames = b.frames := rfl
@[simp] theorem updHs_nfc (c : Fin 40) (f : HsChan → HsChan) (b : Block) : (updHs c f b).nfc = b.nfc := rfl
@[simp] theorem updHs_rst (c : Fin 40) (f : HsChan → HsChan) (b : Block) : (updHs c f b).rst = b.rst := rfl
@[simp] theorem updHs_upd (c : Fin 40) (f : HsChan → HsChan) (b : Block) : (updHs c f b).upd = b.upd := rfl
@[simp] theorem updHs_btn (c : Fin 40) (f : HsChan → HsChan) (b : Block) : (updHs c f b).btn = b.btn := rfl
@[simp] theorem updHs_dmp (c : Fin 40) (f : HsChan → HsChan) (b : Block) : (updHs c f b).dmp = b.dmp := rfl
@[simp] theorem updHs_rpl (c : Fin 40) (f : HsChan → HsChan) (b : Block) : (updHs c f b).rpl = b.rpl := rfl
@[simp] theorem updHs_dbg (c : Fin 40) (f : HsChan → HsChan) (b : Block) : (updHs c f b).dbg = b.dbg := rfl
@[simp] theorem updHs_settings (c : Fin 40) (f : HsChan → HsChan) (b : Block) : (updHs c f b).settings = b.settings := rfl
@[simp] theorem updHs_newSettings (c : Fin 40) (f : HsChan → HsChan) (b : Block) : (updHs c f b).newSettings = b.newSettings := rfl
@[simp] theorem updHs_legalSet (c : Fin 40) (f : HsChan → HsChan) (b : Block) : (updHs c f b).legalSet = b.legalSet := rfl
@[simp] theorem updHs_updRec (c : Fin 40) (f : HsChan → HsChan) (b : Block) : (updHs c f b).updRec = b.updRec := rfl
@[simp] theorem updHs_kept (c : Fin 40) (f : HsChan → HsChan) (b : Block) : (updHs c f b).kept = b.kept := rfl
@[simp] theorem updHs_prior (c : Fin 40) (f : HsChan → HsChan) (b : Block) : (updHs c f b).prior = b.prior := rfl
@[simp] theorem updHs_lsw (c : Fin 40) (f : HsChan → HsChan) (b : Block) : (updHs c f b).lsw = { b.lsw with hs := vupd b.lsw.hs c f } := rfl
@[simp] theorem updVeh_tide (n : Fin 16) (f : Connector → Connector) (b : Block) : (updVeh n f b).tide = b.tide := rfl
@[simp] theorem updVeh_lau (n : Fin 16) (f : Connector → Connector) (b : Block) : (updVeh n f b).lau = b.lau := rfl
@[simp] theorem updVeh_snaps (n : Fin 16) (f : Connector → Connector) (b : Block) : (updVeh n f b).snaps = b.snaps := rfl
@[simp] theorem updVeh_barrier (n : Fin 16) (f : Connector → Connector) (b : Block) : (updVeh n f b).barrier = b.barrier := rfl
@[simp] theorem updVeh_fab (n : Fin 16) (f : Connector → Connector) (b : Block) : (updVeh n f b).fab = b.fab := rfl
@[simp] theorem updVeh_d2d (n : Fin 16) (f : Connector → Connector) (b : Block) : (updVeh n f b).d2d = b.d2d := rfl
@[simp] theorem updVeh_cross (n : Fin 16) (f : Connector → Connector) (b : Block) : (updVeh n f b).cross = b.cross := rfl
@[simp] theorem updVeh_met (n : Fin 16) (f : Connector → Connector) (b : Block) : (updVeh n f b).met = b.met := rfl
@[simp] theorem updVeh_acc (n : Fin 16) (f : Connector → Connector) (b : Block) : (updVeh n f b).acc = b.acc := rfl
@[simp] theorem updVeh_pq (n : Fin 16) (f : Connector → Connector) (b : Block) : (updVeh n f b).pq = b.pq := rfl
@[simp] theorem updVeh_sess (n : Fin 16) (f : Connector → Connector) (b : Block) : (updVeh n f b).sess = b.sess := rfl
@[simp] theorem updVeh_slu (n : Fin 16) (f : Connector → Connector) (b : Block) : (updVeh n f b).slu = b.slu := rfl
@[simp] theorem updVeh_sluCnt (n : Fin 16) (f : Connector → Connector) (b : Block) : (updVeh n f b).sluCnt = b.sluCnt := rfl
@[simp] theorem updVeh_mlk (n : Fin 16) (f : Connector → Connector) (b : Block) : (updVeh n f b).mlk = b.mlk := rfl
@[simp] theorem updVeh_vehCfg (n : Fin 16) (f : Connector → Connector) (b : Block) : (updVeh n f b).vehCfg = b.vehCfg := rfl
@[simp] theorem updVeh_plc (n : Fin 16) (f : Connector → Connector) (b : Block) : (updVeh n f b).plc = b.plc := rfl
@[simp] theorem updVeh_plcCfg (n : Fin 16) (f : Connector → Connector) (b : Block) : (updVeh n f b).plcCfg = b.plcCfg := rfl
@[simp] theorem updVeh_v2g (n : Fin 16) (f : Connector → Connector) (b : Block) : (updVeh n f b).v2g = b.v2g := rfl
@[simp] theorem updVeh_v2gCfg (n : Fin 16) (f : Connector → Connector) (b : Block) : (updVeh n f b).v2gCfg = b.v2gCfg := rfl
@[simp] theorem updVeh_imd (n : Fin 16) (f : Connector → Connector) (b : Block) : (updVeh n f b).imd = b.imd := rfl
@[simp] theorem updVeh_imdG (n : Fin 16) (f : Connector → Connector) (b : Block) : (updVeh n f b).imdG = b.imdG := rfl
@[simp] theorem updVeh_rcm (n : Fin 16) (f : Connector → Connector) (b : Block) : (updVeh n f b).rcm = b.rcm := rfl
@[simp] theorem updVeh_rcmTest (n : Fin 16) (f : Connector → Connector) (b : Block) : (updVeh n f b).rcmTest = b.rcmTest := rfl
@[simp] theorem updVeh_saf (n : Fin 16) (f : Connector → Connector) (b : Block) : (updVeh n f b).saf = b.saf := rfl
@[simp] theorem updVeh_safX (n : Fin 16) (f : Connector → Connector) (b : Block) : (updVeh n f b).safX = b.safX := rfl
@[simp] theorem updVeh_lsw (n : Fin 16) (f : Connector → Connector) (b : Block) : (updVeh n f b).lsw = b.lsw := rfl
@[simp] theorem updVeh_pea (n : Fin 16) (f : Connector → Connector) (b : Block) : (updVeh n f b).pea = b.pea := rfl
@[simp] theorem updVeh_arb (n : Fin 16) (f : Connector → Connector) (b : Block) : (updVeh n f b).arb = b.arb := rfl
@[simp] theorem updVeh_pf (n : Fin 16) (f : Connector → Connector) (b : Block) : (updVeh n f b).pf = b.pf := rfl
@[simp] theorem updVeh_slt (n : Fin 16) (f : Connector → Connector) (b : Block) : (updVeh n f b).slt = b.slt := rfl
@[simp] theorem updVeh_legal (n : Fin 16) (f : Connector → Connector) (b : Block) : (updVeh n f b).legal = b.legal := rfl
@[simp] theorem updVeh_auth (n : Fin 16) (f : Connector → Connector) (b : Block) : (updVeh n f b).auth = b.auth := rfl
@[simp] theorem updVeh_backup (n : Fin 16) (f : Connector → Connector) (b : Block) : (updVeh n f b).backup = b.backup := rfl
@[simp] theorem updVeh_bri (n : Fin 16) (f : Connector → Connector) (b : Block) : (updVeh n f b).bri = b.bri := rfl
@[simp] theorem updVeh_key (n : Fin 16) (f : Connector → Connector) (b : Block) : (updVeh n f b).key = b.key := rfl
@[simp] theorem updVeh_mbx (n : Fin 16) (f : Connector → Connector) (b : Block) : (updVeh n f b).mbx = b.mbx := rfl
@[simp] theorem updVeh_hp (n : Fin 16) (f : Connector → Connector) (b : Block) : (updVeh n f b).hp = b.hp := rfl
@[simp] theorem updVeh_hic (n : Fin 16) (f : Connector → Connector) (b : Block) : (updVeh n f b).hic = b.hic := rfl
@[simp] theorem updVeh_qmg (n : Fin 16) (f : Connector → Connector) (b : Block) : (updVeh n f b).qmg = b.qmg := rfl
@[simp] theorem updVeh_cwy (n : Fin 16) (f : Connector → Connector) (b : Block) : (updVeh n f b).cwy = b.cwy := rfl
@[simp] theorem updVeh_cwyX (n : Fin 16) (f : Connector → Connector) (b : Block) : (updVeh n f b).cwyX = b.cwyX := rfl
@[simp] theorem updVeh_pnl (n : Fin 16) (f : Connector → Connector) (b : Block) : (updVeh n f b).pnl = b.pnl := rfl
@[simp] theorem updVeh_frames (n : Fin 16) (f : Connector → Connector) (b : Block) : (updVeh n f b).frames = b.frames := rfl
@[simp] theorem updVeh_nfc (n : Fin 16) (f : Connector → Connector) (b : Block) : (updVeh n f b).nfc = b.nfc := rfl
@[simp] theorem updVeh_rst (n : Fin 16) (f : Connector → Connector) (b : Block) : (updVeh n f b).rst = b.rst := rfl
@[simp] theorem updVeh_upd (n : Fin 16) (f : Connector → Connector) (b : Block) : (updVeh n f b).upd = b.upd := rfl
@[simp] theorem updVeh_btn (n : Fin 16) (f : Connector → Connector) (b : Block) : (updVeh n f b).btn = b.btn := rfl
@[simp] theorem updVeh_dmp (n : Fin 16) (f : Connector → Connector) (b : Block) : (updVeh n f b).dmp = b.dmp := rfl
@[simp] theorem updVeh_rpl (n : Fin 16) (f : Connector → Connector) (b : Block) : (updVeh n f b).rpl = b.rpl := rfl
@[simp] theorem updVeh_dbg (n : Fin 16) (f : Connector → Connector) (b : Block) : (updVeh n f b).dbg = b.dbg := rfl
@[simp] theorem updVeh_settings (n : Fin 16) (f : Connector → Connector) (b : Block) : (updVeh n f b).settings = b.settings := rfl
@[simp] theorem updVeh_newSettings (n : Fin 16) (f : Connector → Connector) (b : Block) : (updVeh n f b).newSettings = b.newSettings := rfl
@[simp] theorem updVeh_legalSet (n : Fin 16) (f : Connector → Connector) (b : Block) : (updVeh n f b).legalSet = b.legalSet := rfl
@[simp] theorem updVeh_updRec (n : Fin 16) (f : Connector → Connector) (b : Block) : (updVeh n f b).updRec = b.updRec := rfl
@[simp] theorem updVeh_kept (n : Fin 16) (f : Connector → Connector) (b : Block) : (updVeh n f b).kept = b.kept := rfl
@[simp] theorem updVeh_prior (n : Fin 16) (f : Connector → Connector) (b : Block) : (updVeh n f b).prior = b.prior := rfl
@[simp] theorem updVeh_veh (n : Fin 16) (f : Connector → Connector) (b : Block) : (updVeh n f b).veh = vupd b.veh n f := rfl
@[simp] theorem updPlc_tide (n : Fin 16) (f : Modem → Modem) (b : Block) : (updPlc n f b).tide = b.tide := rfl
@[simp] theorem updPlc_lau (n : Fin 16) (f : Modem → Modem) (b : Block) : (updPlc n f b).lau = b.lau := rfl
@[simp] theorem updPlc_snaps (n : Fin 16) (f : Modem → Modem) (b : Block) : (updPlc n f b).snaps = b.snaps := rfl
@[simp] theorem updPlc_barrier (n : Fin 16) (f : Modem → Modem) (b : Block) : (updPlc n f b).barrier = b.barrier := rfl
@[simp] theorem updPlc_fab (n : Fin 16) (f : Modem → Modem) (b : Block) : (updPlc n f b).fab = b.fab := rfl
@[simp] theorem updPlc_d2d (n : Fin 16) (f : Modem → Modem) (b : Block) : (updPlc n f b).d2d = b.d2d := rfl
@[simp] theorem updPlc_cross (n : Fin 16) (f : Modem → Modem) (b : Block) : (updPlc n f b).cross = b.cross := rfl
@[simp] theorem updPlc_met (n : Fin 16) (f : Modem → Modem) (b : Block) : (updPlc n f b).met = b.met := rfl
@[simp] theorem updPlc_acc (n : Fin 16) (f : Modem → Modem) (b : Block) : (updPlc n f b).acc = b.acc := rfl
@[simp] theorem updPlc_pq (n : Fin 16) (f : Modem → Modem) (b : Block) : (updPlc n f b).pq = b.pq := rfl
@[simp] theorem updPlc_sess (n : Fin 16) (f : Modem → Modem) (b : Block) : (updPlc n f b).sess = b.sess := rfl
@[simp] theorem updPlc_slu (n : Fin 16) (f : Modem → Modem) (b : Block) : (updPlc n f b).slu = b.slu := rfl
@[simp] theorem updPlc_sluCnt (n : Fin 16) (f : Modem → Modem) (b : Block) : (updPlc n f b).sluCnt = b.sluCnt := rfl
@[simp] theorem updPlc_mlk (n : Fin 16) (f : Modem → Modem) (b : Block) : (updPlc n f b).mlk = b.mlk := rfl
@[simp] theorem updPlc_veh (n : Fin 16) (f : Modem → Modem) (b : Block) : (updPlc n f b).veh = b.veh := rfl
@[simp] theorem updPlc_vehCfg (n : Fin 16) (f : Modem → Modem) (b : Block) : (updPlc n f b).vehCfg = b.vehCfg := rfl
@[simp] theorem updPlc_plcCfg (n : Fin 16) (f : Modem → Modem) (b : Block) : (updPlc n f b).plcCfg = b.plcCfg := rfl
@[simp] theorem updPlc_v2g (n : Fin 16) (f : Modem → Modem) (b : Block) : (updPlc n f b).v2g = b.v2g := rfl
@[simp] theorem updPlc_v2gCfg (n : Fin 16) (f : Modem → Modem) (b : Block) : (updPlc n f b).v2gCfg = b.v2gCfg := rfl
@[simp] theorem updPlc_imd (n : Fin 16) (f : Modem → Modem) (b : Block) : (updPlc n f b).imd = b.imd := rfl
@[simp] theorem updPlc_imdG (n : Fin 16) (f : Modem → Modem) (b : Block) : (updPlc n f b).imdG = b.imdG := rfl
@[simp] theorem updPlc_rcm (n : Fin 16) (f : Modem → Modem) (b : Block) : (updPlc n f b).rcm = b.rcm := rfl
@[simp] theorem updPlc_rcmTest (n : Fin 16) (f : Modem → Modem) (b : Block) : (updPlc n f b).rcmTest = b.rcmTest := rfl
@[simp] theorem updPlc_saf (n : Fin 16) (f : Modem → Modem) (b : Block) : (updPlc n f b).saf = b.saf := rfl
@[simp] theorem updPlc_safX (n : Fin 16) (f : Modem → Modem) (b : Block) : (updPlc n f b).safX = b.safX := rfl
@[simp] theorem updPlc_lsw (n : Fin 16) (f : Modem → Modem) (b : Block) : (updPlc n f b).lsw = b.lsw := rfl
@[simp] theorem updPlc_pea (n : Fin 16) (f : Modem → Modem) (b : Block) : (updPlc n f b).pea = b.pea := rfl
@[simp] theorem updPlc_arb (n : Fin 16) (f : Modem → Modem) (b : Block) : (updPlc n f b).arb = b.arb := rfl
@[simp] theorem updPlc_pf (n : Fin 16) (f : Modem → Modem) (b : Block) : (updPlc n f b).pf = b.pf := rfl
@[simp] theorem updPlc_slt (n : Fin 16) (f : Modem → Modem) (b : Block) : (updPlc n f b).slt = b.slt := rfl
@[simp] theorem updPlc_legal (n : Fin 16) (f : Modem → Modem) (b : Block) : (updPlc n f b).legal = b.legal := rfl
@[simp] theorem updPlc_auth (n : Fin 16) (f : Modem → Modem) (b : Block) : (updPlc n f b).auth = b.auth := rfl
@[simp] theorem updPlc_backup (n : Fin 16) (f : Modem → Modem) (b : Block) : (updPlc n f b).backup = b.backup := rfl
@[simp] theorem updPlc_bri (n : Fin 16) (f : Modem → Modem) (b : Block) : (updPlc n f b).bri = b.bri := rfl
@[simp] theorem updPlc_key (n : Fin 16) (f : Modem → Modem) (b : Block) : (updPlc n f b).key = b.key := rfl
@[simp] theorem updPlc_mbx (n : Fin 16) (f : Modem → Modem) (b : Block) : (updPlc n f b).mbx = b.mbx := rfl
@[simp] theorem updPlc_hp (n : Fin 16) (f : Modem → Modem) (b : Block) : (updPlc n f b).hp = b.hp := rfl
@[simp] theorem updPlc_hic (n : Fin 16) (f : Modem → Modem) (b : Block) : (updPlc n f b).hic = b.hic := rfl
@[simp] theorem updPlc_qmg (n : Fin 16) (f : Modem → Modem) (b : Block) : (updPlc n f b).qmg = b.qmg := rfl
@[simp] theorem updPlc_cwy (n : Fin 16) (f : Modem → Modem) (b : Block) : (updPlc n f b).cwy = b.cwy := rfl
@[simp] theorem updPlc_cwyX (n : Fin 16) (f : Modem → Modem) (b : Block) : (updPlc n f b).cwyX = b.cwyX := rfl
@[simp] theorem updPlc_pnl (n : Fin 16) (f : Modem → Modem) (b : Block) : (updPlc n f b).pnl = b.pnl := rfl
@[simp] theorem updPlc_frames (n : Fin 16) (f : Modem → Modem) (b : Block) : (updPlc n f b).frames = b.frames := rfl
@[simp] theorem updPlc_nfc (n : Fin 16) (f : Modem → Modem) (b : Block) : (updPlc n f b).nfc = b.nfc := rfl
@[simp] theorem updPlc_rst (n : Fin 16) (f : Modem → Modem) (b : Block) : (updPlc n f b).rst = b.rst := rfl
@[simp] theorem updPlc_upd (n : Fin 16) (f : Modem → Modem) (b : Block) : (updPlc n f b).upd = b.upd := rfl
@[simp] theorem updPlc_btn (n : Fin 16) (f : Modem → Modem) (b : Block) : (updPlc n f b).btn = b.btn := rfl
@[simp] theorem updPlc_dmp (n : Fin 16) (f : Modem → Modem) (b : Block) : (updPlc n f b).dmp = b.dmp := rfl
@[simp] theorem updPlc_rpl (n : Fin 16) (f : Modem → Modem) (b : Block) : (updPlc n f b).rpl = b.rpl := rfl
@[simp] theorem updPlc_dbg (n : Fin 16) (f : Modem → Modem) (b : Block) : (updPlc n f b).dbg = b.dbg := rfl
@[simp] theorem updPlc_settings (n : Fin 16) (f : Modem → Modem) (b : Block) : (updPlc n f b).settings = b.settings := rfl
@[simp] theorem updPlc_newSettings (n : Fin 16) (f : Modem → Modem) (b : Block) : (updPlc n f b).newSettings = b.newSettings := rfl
@[simp] theorem updPlc_legalSet (n : Fin 16) (f : Modem → Modem) (b : Block) : (updPlc n f b).legalSet = b.legalSet := rfl
@[simp] theorem updPlc_updRec (n : Fin 16) (f : Modem → Modem) (b : Block) : (updPlc n f b).updRec = b.updRec := rfl
@[simp] theorem updPlc_kept (n : Fin 16) (f : Modem → Modem) (b : Block) : (updPlc n f b).kept = b.kept := rfl
@[simp] theorem updPlc_prior (n : Fin 16) (f : Modem → Modem) (b : Block) : (updPlc n f b).prior = b.prior := rfl
@[simp] theorem updPlc_plc (n : Fin 16) (f : Modem → Modem) (b : Block) : (updPlc n f b).plc = vupd b.plc n f := rfl
@[simp] theorem updLsw_tide (f : Switches → Switches) (b : Block) : (updLsw f b).tide = b.tide := rfl
@[simp] theorem updLsw_lau (f : Switches → Switches) (b : Block) : (updLsw f b).lau = b.lau := rfl
@[simp] theorem updLsw_snaps (f : Switches → Switches) (b : Block) : (updLsw f b).snaps = b.snaps := rfl
@[simp] theorem updLsw_barrier (f : Switches → Switches) (b : Block) : (updLsw f b).barrier = b.barrier := rfl
@[simp] theorem updLsw_fab (f : Switches → Switches) (b : Block) : (updLsw f b).fab = b.fab := rfl
@[simp] theorem updLsw_d2d (f : Switches → Switches) (b : Block) : (updLsw f b).d2d = b.d2d := rfl
@[simp] theorem updLsw_cross (f : Switches → Switches) (b : Block) : (updLsw f b).cross = b.cross := rfl
@[simp] theorem updLsw_met (f : Switches → Switches) (b : Block) : (updLsw f b).met = b.met := rfl
@[simp] theorem updLsw_acc (f : Switches → Switches) (b : Block) : (updLsw f b).acc = b.acc := rfl
@[simp] theorem updLsw_pq (f : Switches → Switches) (b : Block) : (updLsw f b).pq = b.pq := rfl
@[simp] theorem updLsw_sess (f : Switches → Switches) (b : Block) : (updLsw f b).sess = b.sess := rfl
@[simp] theorem updLsw_slu (f : Switches → Switches) (b : Block) : (updLsw f b).slu = b.slu := rfl
@[simp] theorem updLsw_sluCnt (f : Switches → Switches) (b : Block) : (updLsw f b).sluCnt = b.sluCnt := rfl
@[simp] theorem updLsw_mlk (f : Switches → Switches) (b : Block) : (updLsw f b).mlk = b.mlk := rfl
@[simp] theorem updLsw_veh (f : Switches → Switches) (b : Block) : (updLsw f b).veh = b.veh := rfl
@[simp] theorem updLsw_vehCfg (f : Switches → Switches) (b : Block) : (updLsw f b).vehCfg = b.vehCfg := rfl
@[simp] theorem updLsw_plc (f : Switches → Switches) (b : Block) : (updLsw f b).plc = b.plc := rfl
@[simp] theorem updLsw_plcCfg (f : Switches → Switches) (b : Block) : (updLsw f b).plcCfg = b.plcCfg := rfl
@[simp] theorem updLsw_v2g (f : Switches → Switches) (b : Block) : (updLsw f b).v2g = b.v2g := rfl
@[simp] theorem updLsw_v2gCfg (f : Switches → Switches) (b : Block) : (updLsw f b).v2gCfg = b.v2gCfg := rfl
@[simp] theorem updLsw_imd (f : Switches → Switches) (b : Block) : (updLsw f b).imd = b.imd := rfl
@[simp] theorem updLsw_imdG (f : Switches → Switches) (b : Block) : (updLsw f b).imdG = b.imdG := rfl
@[simp] theorem updLsw_rcm (f : Switches → Switches) (b : Block) : (updLsw f b).rcm = b.rcm := rfl
@[simp] theorem updLsw_rcmTest (f : Switches → Switches) (b : Block) : (updLsw f b).rcmTest = b.rcmTest := rfl
@[simp] theorem updLsw_saf (f : Switches → Switches) (b : Block) : (updLsw f b).saf = b.saf := rfl
@[simp] theorem updLsw_safX (f : Switches → Switches) (b : Block) : (updLsw f b).safX = b.safX := rfl
@[simp] theorem updLsw_pea (f : Switches → Switches) (b : Block) : (updLsw f b).pea = b.pea := rfl
@[simp] theorem updLsw_arb (f : Switches → Switches) (b : Block) : (updLsw f b).arb = b.arb := rfl
@[simp] theorem updLsw_pf (f : Switches → Switches) (b : Block) : (updLsw f b).pf = b.pf := rfl
@[simp] theorem updLsw_slt (f : Switches → Switches) (b : Block) : (updLsw f b).slt = b.slt := rfl
@[simp] theorem updLsw_legal (f : Switches → Switches) (b : Block) : (updLsw f b).legal = b.legal := rfl
@[simp] theorem updLsw_auth (f : Switches → Switches) (b : Block) : (updLsw f b).auth = b.auth := rfl
@[simp] theorem updLsw_backup (f : Switches → Switches) (b : Block) : (updLsw f b).backup = b.backup := rfl
@[simp] theorem updLsw_bri (f : Switches → Switches) (b : Block) : (updLsw f b).bri = b.bri := rfl
@[simp] theorem updLsw_key (f : Switches → Switches) (b : Block) : (updLsw f b).key = b.key := rfl
@[simp] theorem updLsw_mbx (f : Switches → Switches) (b : Block) : (updLsw f b).mbx = b.mbx := rfl
@[simp] theorem updLsw_hp (f : Switches → Switches) (b : Block) : (updLsw f b).hp = b.hp := rfl
@[simp] theorem updLsw_hic (f : Switches → Switches) (b : Block) : (updLsw f b).hic = b.hic := rfl
@[simp] theorem updLsw_qmg (f : Switches → Switches) (b : Block) : (updLsw f b).qmg = b.qmg := rfl
@[simp] theorem updLsw_cwy (f : Switches → Switches) (b : Block) : (updLsw f b).cwy = b.cwy := rfl
@[simp] theorem updLsw_cwyX (f : Switches → Switches) (b : Block) : (updLsw f b).cwyX = b.cwyX := rfl
@[simp] theorem updLsw_pnl (f : Switches → Switches) (b : Block) : (updLsw f b).pnl = b.pnl := rfl
@[simp] theorem updLsw_frames (f : Switches → Switches) (b : Block) : (updLsw f b).frames = b.frames := rfl
@[simp] theorem updLsw_nfc (f : Switches → Switches) (b : Block) : (updLsw f b).nfc = b.nfc := rfl
@[simp] theorem updLsw_rst (f : Switches → Switches) (b : Block) : (updLsw f b).rst = b.rst := rfl
@[simp] theorem updLsw_upd (f : Switches → Switches) (b : Block) : (updLsw f b).upd = b.upd := rfl
@[simp] theorem updLsw_btn (f : Switches → Switches) (b : Block) : (updLsw f b).btn = b.btn := rfl
@[simp] theorem updLsw_dmp (f : Switches → Switches) (b : Block) : (updLsw f b).dmp = b.dmp := rfl
@[simp] theorem updLsw_rpl (f : Switches → Switches) (b : Block) : (updLsw f b).rpl = b.rpl := rfl
@[simp] theorem updLsw_dbg (f : Switches → Switches) (b : Block) : (updLsw f b).dbg = b.dbg := rfl
@[simp] theorem updLsw_settings (f : Switches → Switches) (b : Block) : (updLsw f b).settings = b.settings := rfl
@[simp] theorem updLsw_newSettings (f : Switches → Switches) (b : Block) : (updLsw f b).newSettings = b.newSettings := rfl
@[simp] theorem updLsw_legalSet (f : Switches → Switches) (b : Block) : (updLsw f b).legalSet = b.legalSet := rfl
@[simp] theorem updLsw_updRec (f : Switches → Switches) (b : Block) : (updLsw f b).updRec = b.updRec := rfl
@[simp] theorem updLsw_kept (f : Switches → Switches) (b : Block) : (updLsw f b).kept = b.kept := rfl
@[simp] theorem updLsw_prior (f : Switches → Switches) (b : Block) : (updLsw f b).prior = b.prior := rfl
@[simp] theorem updLsw_lsw (f : Switches → Switches) (b : Block) : (updLsw f b).lsw = f b.lsw := rfl
@[simp] theorem updTide_lau (f : Tide → Tide) (b : Block) : (updTide f b).lau = b.lau := rfl
@[simp] theorem updTide_snaps (f : Tide → Tide) (b : Block) : (updTide f b).snaps = b.snaps := rfl
@[simp] theorem updTide_barrier (f : Tide → Tide) (b : Block) : (updTide f b).barrier = b.barrier := rfl
@[simp] theorem updTide_fab (f : Tide → Tide) (b : Block) : (updTide f b).fab = b.fab := rfl
@[simp] theorem updTide_d2d (f : Tide → Tide) (b : Block) : (updTide f b).d2d = b.d2d := rfl
@[simp] theorem updTide_cross (f : Tide → Tide) (b : Block) : (updTide f b).cross = b.cross := rfl
@[simp] theorem updTide_met (f : Tide → Tide) (b : Block) : (updTide f b).met = b.met := rfl
@[simp] theorem updTide_acc (f : Tide → Tide) (b : Block) : (updTide f b).acc = b.acc := rfl
@[simp] theorem updTide_pq (f : Tide → Tide) (b : Block) : (updTide f b).pq = b.pq := rfl
@[simp] theorem updTide_sess (f : Tide → Tide) (b : Block) : (updTide f b).sess = b.sess := rfl
@[simp] theorem updTide_slu (f : Tide → Tide) (b : Block) : (updTide f b).slu = b.slu := rfl
@[simp] theorem updTide_sluCnt (f : Tide → Tide) (b : Block) : (updTide f b).sluCnt = b.sluCnt := rfl
@[simp] theorem updTide_mlk (f : Tide → Tide) (b : Block) : (updTide f b).mlk = b.mlk := rfl
@[simp] theorem updTide_veh (f : Tide → Tide) (b : Block) : (updTide f b).veh = b.veh := rfl
@[simp] theorem updTide_vehCfg (f : Tide → Tide) (b : Block) : (updTide f b).vehCfg = b.vehCfg := rfl
@[simp] theorem updTide_plc (f : Tide → Tide) (b : Block) : (updTide f b).plc = b.plc := rfl
@[simp] theorem updTide_plcCfg (f : Tide → Tide) (b : Block) : (updTide f b).plcCfg = b.plcCfg := rfl
@[simp] theorem updTide_v2g (f : Tide → Tide) (b : Block) : (updTide f b).v2g = b.v2g := rfl
@[simp] theorem updTide_v2gCfg (f : Tide → Tide) (b : Block) : (updTide f b).v2gCfg = b.v2gCfg := rfl
@[simp] theorem updTide_imd (f : Tide → Tide) (b : Block) : (updTide f b).imd = b.imd := rfl
@[simp] theorem updTide_imdG (f : Tide → Tide) (b : Block) : (updTide f b).imdG = b.imdG := rfl
@[simp] theorem updTide_rcm (f : Tide → Tide) (b : Block) : (updTide f b).rcm = b.rcm := rfl
@[simp] theorem updTide_rcmTest (f : Tide → Tide) (b : Block) : (updTide f b).rcmTest = b.rcmTest := rfl
@[simp] theorem updTide_saf (f : Tide → Tide) (b : Block) : (updTide f b).saf = b.saf := rfl
@[simp] theorem updTide_safX (f : Tide → Tide) (b : Block) : (updTide f b).safX = b.safX := rfl
@[simp] theorem updTide_lsw (f : Tide → Tide) (b : Block) : (updTide f b).lsw = b.lsw := rfl
@[simp] theorem updTide_pea (f : Tide → Tide) (b : Block) : (updTide f b).pea = b.pea := rfl
@[simp] theorem updTide_arb (f : Tide → Tide) (b : Block) : (updTide f b).arb = b.arb := rfl
@[simp] theorem updTide_pf (f : Tide → Tide) (b : Block) : (updTide f b).pf = b.pf := rfl
@[simp] theorem updTide_slt (f : Tide → Tide) (b : Block) : (updTide f b).slt = b.slt := rfl
@[simp] theorem updTide_legal (f : Tide → Tide) (b : Block) : (updTide f b).legal = b.legal := rfl
@[simp] theorem updTide_auth (f : Tide → Tide) (b : Block) : (updTide f b).auth = b.auth := rfl
@[simp] theorem updTide_backup (f : Tide → Tide) (b : Block) : (updTide f b).backup = b.backup := rfl
@[simp] theorem updTide_bri (f : Tide → Tide) (b : Block) : (updTide f b).bri = b.bri := rfl
@[simp] theorem updTide_key (f : Tide → Tide) (b : Block) : (updTide f b).key = b.key := rfl
@[simp] theorem updTide_mbx (f : Tide → Tide) (b : Block) : (updTide f b).mbx = b.mbx := rfl
@[simp] theorem updTide_hp (f : Tide → Tide) (b : Block) : (updTide f b).hp = b.hp := rfl
@[simp] theorem updTide_hic (f : Tide → Tide) (b : Block) : (updTide f b).hic = b.hic := rfl
@[simp] theorem updTide_qmg (f : Tide → Tide) (b : Block) : (updTide f b).qmg = b.qmg := rfl
@[simp] theorem updTide_cwy (f : Tide → Tide) (b : Block) : (updTide f b).cwy = b.cwy := rfl
@[simp] theorem updTide_cwyX (f : Tide → Tide) (b : Block) : (updTide f b).cwyX = b.cwyX := rfl
@[simp] theorem updTide_pnl (f : Tide → Tide) (b : Block) : (updTide f b).pnl = b.pnl := rfl
@[simp] theorem updTide_frames (f : Tide → Tide) (b : Block) : (updTide f b).frames = b.frames := rfl
@[simp] theorem updTide_nfc (f : Tide → Tide) (b : Block) : (updTide f b).nfc = b.nfc := rfl
@[simp] theorem updTide_rst (f : Tide → Tide) (b : Block) : (updTide f b).rst = b.rst := rfl
@[simp] theorem updTide_upd (f : Tide → Tide) (b : Block) : (updTide f b).upd = b.upd := rfl
@[simp] theorem updTide_btn (f : Tide → Tide) (b : Block) : (updTide f b).btn = b.btn := rfl
@[simp] theorem updTide_dmp (f : Tide → Tide) (b : Block) : (updTide f b).dmp = b.dmp := rfl
@[simp] theorem updTide_rpl (f : Tide → Tide) (b : Block) : (updTide f b).rpl = b.rpl := rfl
@[simp] theorem updTide_dbg (f : Tide → Tide) (b : Block) : (updTide f b).dbg = b.dbg := rfl
@[simp] theorem updTide_settings (f : Tide → Tide) (b : Block) : (updTide f b).settings = b.settings := rfl
@[simp] theorem updTide_newSettings (f : Tide → Tide) (b : Block) : (updTide f b).newSettings = b.newSettings := rfl
@[simp] theorem updTide_legalSet (f : Tide → Tide) (b : Block) : (updTide f b).legalSet = b.legalSet := rfl
@[simp] theorem updTide_updRec (f : Tide → Tide) (b : Block) : (updTide f b).updRec = b.updRec := rfl
@[simp] theorem updTide_kept (f : Tide → Tide) (b : Block) : (updTide f b).kept = b.kept := rfl
@[simp] theorem updTide_prior (f : Tide → Tide) (b : Block) : (updTide f b).prior = b.prior := rfl
@[simp] theorem updTide_tide (f : Tide → Tide) (b : Block) : (updTide f b).tide = f b.tide := rfl
@[simp] theorem updRpl_tide (f : Replay → Replay) (b : Block) : (updRpl f b).tide = b.tide := rfl
@[simp] theorem updRpl_lau (f : Replay → Replay) (b : Block) : (updRpl f b).lau = b.lau := rfl
@[simp] theorem updRpl_snaps (f : Replay → Replay) (b : Block) : (updRpl f b).snaps = b.snaps := rfl
@[simp] theorem updRpl_barrier (f : Replay → Replay) (b : Block) : (updRpl f b).barrier = b.barrier := rfl
@[simp] theorem updRpl_fab (f : Replay → Replay) (b : Block) : (updRpl f b).fab = b.fab := rfl
@[simp] theorem updRpl_d2d (f : Replay → Replay) (b : Block) : (updRpl f b).d2d = b.d2d := rfl
@[simp] theorem updRpl_cross (f : Replay → Replay) (b : Block) : (updRpl f b).cross = b.cross := rfl
@[simp] theorem updRpl_met (f : Replay → Replay) (b : Block) : (updRpl f b).met = b.met := rfl
@[simp] theorem updRpl_acc (f : Replay → Replay) (b : Block) : (updRpl f b).acc = b.acc := rfl
@[simp] theorem updRpl_pq (f : Replay → Replay) (b : Block) : (updRpl f b).pq = b.pq := rfl
@[simp] theorem updRpl_sess (f : Replay → Replay) (b : Block) : (updRpl f b).sess = b.sess := rfl
@[simp] theorem updRpl_slu (f : Replay → Replay) (b : Block) : (updRpl f b).slu = b.slu := rfl
@[simp] theorem updRpl_sluCnt (f : Replay → Replay) (b : Block) : (updRpl f b).sluCnt = b.sluCnt := rfl
@[simp] theorem updRpl_mlk (f : Replay → Replay) (b : Block) : (updRpl f b).mlk = b.mlk := rfl
@[simp] theorem updRpl_veh (f : Replay → Replay) (b : Block) : (updRpl f b).veh = b.veh := rfl
@[simp] theorem updRpl_vehCfg (f : Replay → Replay) (b : Block) : (updRpl f b).vehCfg = b.vehCfg := rfl
@[simp] theorem updRpl_plc (f : Replay → Replay) (b : Block) : (updRpl f b).plc = b.plc := rfl
@[simp] theorem updRpl_plcCfg (f : Replay → Replay) (b : Block) : (updRpl f b).plcCfg = b.plcCfg := rfl
@[simp] theorem updRpl_v2g (f : Replay → Replay) (b : Block) : (updRpl f b).v2g = b.v2g := rfl
@[simp] theorem updRpl_v2gCfg (f : Replay → Replay) (b : Block) : (updRpl f b).v2gCfg = b.v2gCfg := rfl
@[simp] theorem updRpl_imd (f : Replay → Replay) (b : Block) : (updRpl f b).imd = b.imd := rfl
@[simp] theorem updRpl_imdG (f : Replay → Replay) (b : Block) : (updRpl f b).imdG = b.imdG := rfl
@[simp] theorem updRpl_rcm (f : Replay → Replay) (b : Block) : (updRpl f b).rcm = b.rcm := rfl
@[simp] theorem updRpl_rcmTest (f : Replay → Replay) (b : Block) : (updRpl f b).rcmTest = b.rcmTest := rfl
@[simp] theorem updRpl_saf (f : Replay → Replay) (b : Block) : (updRpl f b).saf = b.saf := rfl
@[simp] theorem updRpl_safX (f : Replay → Replay) (b : Block) : (updRpl f b).safX = b.safX := rfl
@[simp] theorem updRpl_lsw (f : Replay → Replay) (b : Block) : (updRpl f b).lsw = b.lsw := rfl
@[simp] theorem updRpl_pea (f : Replay → Replay) (b : Block) : (updRpl f b).pea = b.pea := rfl
@[simp] theorem updRpl_arb (f : Replay → Replay) (b : Block) : (updRpl f b).arb = b.arb := rfl
@[simp] theorem updRpl_pf (f : Replay → Replay) (b : Block) : (updRpl f b).pf = b.pf := rfl
@[simp] theorem updRpl_slt (f : Replay → Replay) (b : Block) : (updRpl f b).slt = b.slt := rfl
@[simp] theorem updRpl_legal (f : Replay → Replay) (b : Block) : (updRpl f b).legal = b.legal := rfl
@[simp] theorem updRpl_auth (f : Replay → Replay) (b : Block) : (updRpl f b).auth = b.auth := rfl
@[simp] theorem updRpl_backup (f : Replay → Replay) (b : Block) : (updRpl f b).backup = b.backup := rfl
@[simp] theorem updRpl_bri (f : Replay → Replay) (b : Block) : (updRpl f b).bri = b.bri := rfl
@[simp] theorem updRpl_key (f : Replay → Replay) (b : Block) : (updRpl f b).key = b.key := rfl
@[simp] theorem updRpl_mbx (f : Replay → Replay) (b : Block) : (updRpl f b).mbx = b.mbx := rfl
@[simp] theorem updRpl_hp (f : Replay → Replay) (b : Block) : (updRpl f b).hp = b.hp := rfl
@[simp] theorem updRpl_hic (f : Replay → Replay) (b : Block) : (updRpl f b).hic = b.hic := rfl
@[simp] theorem updRpl_qmg (f : Replay → Replay) (b : Block) : (updRpl f b).qmg = b.qmg := rfl
@[simp] theorem updRpl_cwy (f : Replay → Replay) (b : Block) : (updRpl f b).cwy = b.cwy := rfl
@[simp] theorem updRpl_cwyX (f : Replay → Replay) (b : Block) : (updRpl f b).cwyX = b.cwyX := rfl
@[simp] theorem updRpl_pnl (f : Replay → Replay) (b : Block) : (updRpl f b).pnl = b.pnl := rfl
@[simp] theorem updRpl_frames (f : Replay → Replay) (b : Block) : (updRpl f b).frames = b.frames := rfl
@[simp] theorem updRpl_nfc (f : Replay → Replay) (b : Block) : (updRpl f b).nfc = b.nfc := rfl
@[simp] theorem updRpl_rst (f : Replay → Replay) (b : Block) : (updRpl f b).rst = b.rst := rfl
@[simp] theorem updRpl_upd (f : Replay → Replay) (b : Block) : (updRpl f b).upd = b.upd := rfl
@[simp] theorem updRpl_btn (f : Replay → Replay) (b : Block) : (updRpl f b).btn = b.btn := rfl
@[simp] theorem updRpl_dmp (f : Replay → Replay) (b : Block) : (updRpl f b).dmp = b.dmp := rfl
@[simp] theorem updRpl_dbg (f : Replay → Replay) (b : Block) : (updRpl f b).dbg = b.dbg := rfl
@[simp] theorem updRpl_settings (f : Replay → Replay) (b : Block) : (updRpl f b).settings = b.settings := rfl
@[simp] theorem updRpl_newSettings (f : Replay → Replay) (b : Block) : (updRpl f b).newSettings = b.newSettings := rfl
@[simp] theorem updRpl_legalSet (f : Replay → Replay) (b : Block) : (updRpl f b).legalSet = b.legalSet := rfl
@[simp] theorem updRpl_updRec (f : Replay → Replay) (b : Block) : (updRpl f b).updRec = b.updRec := rfl
@[simp] theorem updRpl_kept (f : Replay → Replay) (b : Block) : (updRpl f b).kept = b.kept := rfl
@[simp] theorem updRpl_prior (f : Replay → Replay) (b : Block) : (updRpl f b).prior = b.prior := rfl
@[simp] theorem updRpl_rpl (f : Replay → Replay) (b : Block) : (updRpl f b).rpl = f b.rpl := rfl

end Sys2Proof.Machine
end

