-- ==== Sys2Proof/Machine/Balls.lean ====
section
/-! DEFINITION. The balls of the device: what they carry in each state of power and reset, what replay mode holds off, the rails and the
levels that their monitors and inputs take (19_reset_boot_update.md R492; 20_recorder_replay.md R538; 22_electrical.md R562 to R570). -/

namespace Sys2Proof.Machine

/-! ### Rails (R562 to R564) -/

/-- The supply rails (R562). -/
inductive Rail where
  | core | mem09 | mem18 | io (bank : Fin 6) | ana | plc | vdd2Ddr | vddqDdr | vinSys | vbat
deriving DecidableEq, Repr

/-- The limits of a rail in mV: operating range; power-on and brown-out levels when it is monitored. -/
structure RailLimits where
  low : Nat
  high : Nat
  monitor : Option (Nat × Nat)
deriving DecidableEq, Repr

/-- The limits of each rail; a bank at 3.3 V (`hv`) has its own (R562). -/
def railLimits (hv : Bool) : Rail → RailLimits
  | .core => ⟨720, 880, some (710, 690)⟩
  | .mem09 => ⟨855, 945, some (850, 830)⟩
  | .mem18 => ⟨1710, 1890, some (1660, 1620)⟩
  | .io _ => if hv then ⟨3135, 3465, some (3000, 2900)⟩ else ⟨1710, 1890, some (1660, 1600)⟩
  | .ana => ⟨3135, 3465, some (3050, 3000)⟩
  | .plc => ⟨1710, 1890, some (1660, 1620)⟩
  | .vdd2Ddr => ⟨1060, 1170, some (1030, 1000)⟩
  | .vddqDdr => ⟨570, 650, some (550, 540)⟩
  | .vinSys => ⟨9000, 36000, none⟩
  | .vbat => ⟨2000, 3600, none⟩
/-- A bank may be supplied with 3.3 V (R563): not Causeway's and not the module link's. -/
def bankMayBe33 (bank : Fin 6) : Bool := bank != 2 && bank != 3
/-- A rail that rises through `mv` releases the power-on condition. -/
def railReleases (hv : Bool) (r : Rail) (mv : Nat) : Bool :=
  match (railLimits hv r).monitor with | some (on, _) => decide (on < mv) | none => true
/-- A rail at `mv` for 2 µs is a brown-out (R489, R564). -/
def railBrownOut (hv : Bool) (r : Rail) (mv : Nat) : Bool :=
  match (railLimits hv r).monitor with | some (_, off) => decide (mv < off) | none => false

/-! ### Input levels (R568, R570) -/

/-- What a digital bank ball reads at `mv` on a bank of `vdd` mV: nothing certain between its thresholds (R568). -/
def bankLevel (vdd mv : Nat) : Option Bool :=
  if 3000 ≤ vdd then (if 2000 ≤ mv then some true else if mv ≤ 800 then some false else none)
  else if 65 * vdd ≤ 100 * mv then some true else if 100 * mv ≤ 35 * vdd then some false else none
/-- What SAFE_IN and ILK_RET read: low at 3.0 V or below, high at 7.0 V or above (R570). -/
def fieldLevel (mv : Nat) : Option Bool := if 7000 ≤ mv then some true else if mv ≤ 3000 then some false else none

/-! ### Power-up and reset (R492) -/

/-- The groups of balls that R492 tells apart. -/
inductive BallGroup where
  | digital | switchOut | testPulse | interlock | limpMapped | limpIn | analogue | ddrReset | ddrOther | backup
deriving DecidableEq, Repr

/-- What a ball carries. -/
inductive BallState where
  /-- high-impedance, fail-safe -/
  | highZ
  /-- weak pull-up of 60 kΩ to 180 kΩ -/
  | pullUp
  /-- off, not pulled -/
  | off
  /-- held off while tide_ready is 0 (R264) -/
  | heldOff
  /-- as LIMP_IN commands (R306) -/
  | limp
  /-- pulled up from the VIN_SYS rail (R305) -/
  | vinPullUp
  /-- driven low -/
  | low
  /-- in the backup domain, which no reset touches -/
  | backupDomain
  /-- as the configured unit drives or reads it -/
  | unit
deriving DecidableEq, Repr

/-- A group while a rail is absent. -/
def unpoweredState : BallGroup → BallState
  | .backup => .backupDomain
  | _ => .highZ
/-- A group while a reset is asserted. -/
def resetState : BallGroup → BallState
  | .digital => .pullUp | .switchOut => .off | .testPulse => .off | .interlock => .off | .limpMapped => .limp | .limpIn => .vinPullUp
  | .analogue => .highZ | .ddrReset => .low | .ddrOther => .highZ | .backup => .backupDomain
/-- A group after a reset, until its unit is configured. -/
def startState (ready : Bool) : BallGroup → BallState
  | .digital => .pullUp | .switchOut => .off | .testPulse => if ready then .unit else .heldOff | .interlock => if ready then .unit else .heldOff
  | .limpMapped => .limp | .limpIn => .vinPullUp | .analogue => .highZ | .ddrReset => .low | .ddrOther => .highZ | .backup => .backupDomain
/-- The state of a group of balls: the units are configured with boot stage 6 (R496). -/
def ballState (b : Block) (g : BallGroup) : BallState :=
  if !b.rst.suppliesOk then unpoweredState g
  else if b.rst.inReset then resetState g
  else if b.rst.stage.toNat < 6 then startState b.tide.ready g
  else match g with | .limpIn => .vinPullUp | .backup => .backupDomain | _ => .unit

/-! ### What replay mode holds off (R538) -/

/-- A high-side channel conducts at its ball. -/
def hsDrives (b : Block) (c : Fin 40) : Bool := (hsOf b c).outOn && !b.rpl.mode
/-- A low-side channel conducts at its ball. -/
def lsDrives (b : Block) (n : Fin 16) : Bool := (lsOf b n).conducting && !b.rpl.mode
/-- The level of CP_OUT of connector `n`, when the unit drives it. -/
def cpDrives (b : Block) (n : Fin 16) : Option Bool :=
  if ballState b .digital = .unit ∧ !b.rpl.mode then some (cpOut (vehOf b n) n (now b).toNat) else none
/-- The powerline transmitter of modem `n` is on. -/
def plcTransmits (b : Block) (n : Fin 16) : Bool := modemWorks b n && !b.rpl.mode
/-- Reader `r` radiates its field. -/
def fieldRadiates (b : Block) (r : Fin 8) : Bool := (nfcOf b r).field && !b.rpl.mode
/-- The insulation driver of node `n`: 0 VSS, 1 IMD_INJ_P, 2 IMD_INJ_N (R239). -/
def injectorOut (b : Block) (n : Fin 16) : BitVec 2 :=
  if b.rpl.mode || decide ((imdOf b n).driverUntil.toNat ≤ (now b).toNat) then 0 else (imdOf b n).driver

end Sys2Proof.Machine
end

