-- ==== Sys2Proof/WellFormed.lean ====
section
/-! DEFINITION. What a command's operands must satisfy beyond their types: the lengths of the byte strings and sample lists that the spec
fixes. -/

namespace Sys2Proof

/-- A sounding brings of each port its 58 carrier groups (R219). -/
def SoundReading.wellFormed (x : SoundReading) : Bool := x.ports.toList.all fun p => p.energy.length == 58
/-- Each FFT window of a second has the samples before it (R216). -/
def spansFit (gaps windows : List (List (BitVec 12))) : Bool := gaps.length == windows.length
/-- A write request names lines of the store and brings 64 bytes for each (R331). -/
def PeatWrite.wellFormed (x : PeatWrite) : Bool :=
  x.lines != [] && decide (x.first + x.lines.length ≤ 65536) && x.lines.all fun l => l.length == 64
/-- A Causeway slot has 72 bytes (R441). -/
def CwySlot.wellFormed (x : CwySlot) : Bool := x.training || x.bytes.length == 72
/-- A card's UID has 4, 7, 8 or 10 bytes (R482). -/
def CardInfo.wellFormed (x : CardInfo) : Bool := x.uid.length == 4 || x.uid.length == 7 || x.uid.length == 8 || x.uid.length == 10
/-- A line of the store has 64 bytes. -/
def DebugOp.wellFormed : DebugOp → Bool
  | .writeStore _ l => l.length == 64
  | _ => true
/-- The command's operands have the form the spec gives them. -/
def Instr.wellFormed : Instr → Bool
  | .cmMnbcSoundInd _ x => x.wellFormed
  | .eraseRateWindow _ _ gaps windows _ => spansFit gaps windows
  | .peatWriteRequest _ x => x.wellFormed
  | .cwyRecordReceive x => x.wellFormed
  | .creditFrameReceive f => f.length == 18
  | .cardResolved _ x => x.wellFormed
  | .peaRead _ l => l.length ≤ 15
  | .dbgResponse _ l => l.length == 64
  | .dbgAccess x => x.wellFormed
  | _ => true

end Sys2Proof
end

