-- ==== Sys2Proof/Tests/Slice0.lean ====
section
/-! SUPPORT. Tests: the well-formedness checks refuse ill-formed operands, the hash functions give the published examples, and the hypotheses of the statements are met by states that can be
written down. -/

namespace Sys2Proof.Tests

open Machine

set_option maxRecDepth 20000
set_option exponentiation.threshold 600

/-! ### Ill-formed operands -/

/-- R219: a port has 58 carrier groups. -/
theorem test_sound_of_57_groups_refused :
    (Instr.cmMnbcSoundInd 0 ⟨0, 0, 0, 0, Vector.replicate 16 ⟨false, 0, List.replicate 57 0⟩⟩).wellFormed = false := by
  decide
/-- R216: each FFT window has the samples before it. -/
theorem test_second_without_gap_refused : (Instr.eraseRateWindow 0 0 [] [[1, 2]] []).wellFormed = false := by
  decide
/-- R310, R331: a line has 64 bytes. -/
theorem test_peat_line_of_63_bytes_refused : (Instr.peatWriteRequest 0 ⟨0, [List.replicate 63 0]⟩).wellFormed = false := by
  decide
/-- R441: a slot has 72 bytes. -/
theorem test_slot_of_71_bytes_refused : (Instr.cwyRecordReceive ⟨false, List.replicate 71 0⟩).wellFormed = false := by
  decide
/-- R442: a credit frame has 18 bytes. -/
theorem test_credit_frame_of_17_bytes_refused : (Instr.creditFrameReceive (List.replicate 17 0)).wellFormed = false := by
  decide
/-- R482: a UID has 4, 7, 8 or 10 bytes. -/
theorem test_uid_of_5_bytes_refused : (Instr.cardResolved 0 ⟨.a, [1, 2, 3, 4, 5], false, []⟩).wellFormed = false := by
  decide
/-- R346: PEA_READ reads at most 15 lines. -/
theorem test_read_of_16_lines_refused : (Instr.peaRead 0 (List.replicate 16 0)).wellFormed = false := by
  decide
/-- R542: a response carries 64 bytes. -/
theorem test_response_of_63_bytes_refused : (Instr.dbgResponse 0 (List.replicate 63 0)).wellFormed = false := by
  decide
/-- R543: a line of the store has 64 bytes. -/
theorem test_debug_store_of_65_bytes_refused : (Instr.dbgAccess (.writeStore 0 (List.replicate 65 0))).wellFormed = false := by
  decide

/-! ### The named standards, on their own published examples -/

/-- FIPS 180-4: SHA-256 of "abc". -/
theorem test_sha256_abc : sha256 [0x61, 0x62, 0x63] = beBytes 32 0xba7816bf8f01cfea414140de5dae2223b00361a396177a9cb410ff61f20015ad := by
  decide +kernel
/-- RFC 4231, case 2: HMAC-SHA-384. -/
theorem test_hmac384_jefe :
    hmac384 [0x4a, 0x65, 0x66, 0x65] ("what do ya want for nothing?".toList.map fun c => BitVec.ofNat 8 c.toNat) =
      beBytes 48 0xaf45d2e376484031617f78d2b58a6b1b9c7ef464f5a01b47e42ec3736322445e8e2240ca5e69e2c78b3239ecfab21649 := by
  decide +kernel
/-! ### States for the hypotheses of the statements -/

namespace Wt

/-- A device that is up: Tide runs, the cores run, Carr plans, the queue manager is configured. -/
def up : State := { State.reset with block := { State.reset.block with
  tide := { State.reset.block.tide with now := 3000000000, running := true, ready := true }
  rst := { State.reset.block.rst with inReset := false, sedge := true, carr := true, dyke := true, stage := 7 }
  qmg := { State.reset.block.qmg with running := true, fwCfg := true } } }
/-- It executes a request with this opcode and this payload in mailbox 0. -/
def asked (op : Nat) (p : List U8) : State := { up with block := { up.block with
  mbx := vset up.block.mbx 0 { (mbxOf up.block 0) with state := .busy, req := Memory.ofBytes (leBytes 2 op ++ [7, 0] ++ leBytes 2 p.length ++ [0, 0] ++ p) } } }
/-- That device after a change of its block. -/
def on (f : Block → Block) : State := { up with block := f up.block }
/-- A device that executes the request, after a change of its block. -/
def askedOn (op : Nat) (p : List U8) (f : Block → Block) : State := { asked op p with block := f (asked op p).block }
/-- A good frame from the A die. -/
def a2lFrame : D2dFrame :=
  let f : D2dFrame := { a2l := true, header := 0, payload := Vector.replicate 14 3, crc := 0, stream := true, again := false, offset := 5, sync := 0, tideByte := 0, tideCrc := 0 }
  { f with crc := crc8 (d2dCovered f) }
/-- A good frame to the A die. -/
def l2aFrame : D2dFrame :=
  let f : D2dFrame := { a2lFrame with a2l := false, stream := false }
  { f with crc := crc8 (d2dCovered f) }
def s1 : State := on fun b => { b with met := { b.met with running := true, lastSample := some 2999952000, latched := some 2999952000, stamp := 2999760000 }, acc := { b.acc with published := some 2999952000, priced := some 2999952000 }, slt := { b.slt with running := true }, bri := { b.bri with running := true }, pq := { b.pq with phases := vupd b.pq.phases 3 fun p => { p with noSync := false } }, tide := { b.tide with zcSeen := vset b.tide.zcSeen 3 true } }
def s2 : State := on fun b => { b with met := { b.met with chans := vupd b.met.chans 45 fun x => { x with cfg := { x.cfg with sensor := 1 } } } }
def s3 : State := on fun b => { b with met := { b.met with chans := vupd b.met.chans 45 fun x => { x with modFault := true } } }
def s4 : State := on fun b => { b with met := { b.met with running := true, chans := vupd b.met.chans 2 fun x => { x with settled := false, settleLeft := 0, modFault := false, cfg := { x.cfg with sensor := 1 } } } }
def s5 : State := on fun b => { b with qmg := { b.qmg with queues := [(128, { queue0 with consumer := 7, bufs := [7] })] } }
def s6 : State := on fun b => { b with lau := { b.lau with rings := [(128, { chain := [{ buf := 7, entry := { time := 2999999990 } }] })] } }
def s7 : State := on fun b => { b with lau := { b.lau with rings := [(128, { chain := [{ buf := 7, entry := { time := 2999999000 }, phase := .decided 0 }] })] } }
def s8 : State := on fun b => { b with tide := { b.tide with ppsEnable := true } }
def s9 : State := on fun b => { b with tide := { b.tide with ppsEnable := true, ppsSeen := true, ppsLast := 5 } }
def s10 : State := on fun b => { b with d2d := { b.d2d with resend := [(2999999000, 1)] } }
def s11 : State := on fun b => { b with cross := vmap b.cross fun x => { x with copyValid := true } }
def s12 : State := on fun b => { b with cross := vmap b.cross fun x => { x with copyValid := true }, d2d := { b.d2d with dykeSlow := 1 } }
def s13 : State := on fun b => { b with barrier := { isOpen := true, at_ := 2999997000, arrived := 0 } }
def s14 : State := on fun b => { b with barrier := { isOpen := true, at_ := 2999997000, arrived := 127 } }
def s15 : State := on fun b => { b with barrier := { isOpen := true, at_ := 2999997000, arrived := 3 } }
def s16 : State := on fun b => { b with mbx := vset b.mbx 0 { vget b.mbx 0 with state := .busy } }
def s17 : State := on fun b => { b with mbx := vset b.mbx 0 { vget b.mbx 0 with state := .done, req := [(0, 2), (1, 1), (2, 7)], lastValid := true, lastReq := [2, 1, 7, 0, 0, 0] } }
def s18 : State := on fun b => { b with mbx := vset b.mbx 0 { vget b.mbx 0 with state := .queued } }
def s19 : State := on fun b => { b with mbx := vset b.mbx 0 { vget b.mbx 0 with state := .done } }
def s20 : State := on fun b => { b with mbx := vset b.mbx 0 { vget b.mbx 0 with state := .queued, req := [(0, 1), (1, 1)] } }
def s21 : State := on fun b => { b with mbx := vset b.mbx 0 { vget b.mbx 0 with state := .queued, req := [(0, 255), (1, 1)] } }
def s22 : State := on fun b => { b with mbx := vset b.mbx 0 { vget b.mbx 0 with state := .busy, answered := true } }
def s23 : State := Wt.asked 0x0101 ([])
def s24 : State := Wt.asked 0x0102 ([9, 8, 7])
def s25 : State := Wt.asked 0x0103 ([])
def s26 : State := Wt.asked 0x0104 ([])
def s27 : State := Wt.asked 0x0140 ([3])
def s28 : State := Wt.asked 0x0141 ([255])
def s29 : State := Wt.asked 0x0141 ([15])
def s30 : State := Wt.asked 0x0142 ([])
def s31 : State := Wt.asked 0x0110 ([1, 0])
def s32 : State := Wt.askedOn 0x0110 ([1, 0]) fun b => { b with rst := { b.rst with pending := some { scope := .device, source := 5, startAt := 3001500000, command := 3000000000 } } }
def s33 : State := Wt.asked 0x0110 ([3, 0])
def s34 : State := Wt.asked 0x0111 ([])
def s35 : State := Wt.askedOn 0x0201 ([]) fun b => { b with tide := { b.tide with todSec := 1700000000, todAnchor := 1500000000 } }
def s36 : State := Wt.asked 0x0201 ([])
def s37 : State := Wt.asked 0x0202 ([16, 0, 0, 0])
def s38 : State := Wt.asked 0x0203 ([1, 0, 200, 0])
def s39 : State := Wt.asked 0x0204 (leBytes 8 3000000000 ++ leBytes 8 1700000000 ++ [1])
def s40 : State := Wt.asked 0x0204 (leBytes 8 3000000000 ++ leBytes 8 1700000000 ++ [0])
def s41 : State := Wt.asked 0x0205 ([4, 0, 0, 0, 0, 0, 0, 0, 0, 0, 0, 0, 0, 0, 0, 0])
def s42 : State := Wt.asked 0x0205 ([2, 0, 255, 255, 0, 0, 0, 0, 0, 0, 0, 0, 0, 0, 0, 0])
def s43 : State := Wt.asked 0x0205 ([2, 0, 255, 255, 0, 0, 0, 0, 9, 0, 0, 0, 0, 0, 0, 0])
def s44 : State := Wt.asked 0x0206 ([64, 2, 0, 0, 0, 0, 0, 0] ++ List.replicate 64 0)
def s45 : State := Wt.asked 0x0206 ([63, 2, 0, 0, 0, 0, 0, 0] ++ List.replicate 64 0)
def s46 : State := Wt.asked 0x0207 ([64, 2, 0, 0, 5, 0, 0, 0, 255, 255, 255, 255])
def s47 : State := Wt.asked 0x0208 ([128, 0])
def s48 : State := Wt.asked 0x0208 ([0, 4])
def s49 : State := Wt.asked 0x0209 ([])
def s50 : State := Wt.asked 0x0301 ([0, 0] ++ List.replicate 116 0)
def s51 : State := Wt.askedOn 0x0301 ([0, 0] ++ List.replicate 116 0) fun b => { b with sess := vupd b.sess 2 fun x => { x with phase := .charging } }
def s52 : State := Wt.askedOn 0x0302 ([]) fun b => { b with met := { b.met with sealOpen := true } }
def s53 : State := Wt.asked 0x0302 ([])
def s54 : State := on fun b => { b with met := { b.met with sealOpen := true }, tide := { b.tide with now := 6000000000000 } }
def s55 : State := Wt.asked 0x0303 ([7])
def s56 : State := Wt.askedOn 0x0304 ([7, 0, 0, 0, 8, 0, 0, 0, 0, 0, 128, 63, 0, 0, 128, 63]) fun b => { b with met := { b.met with sealOpen := true } }
def s57 : State := Wt.askedOn 0x0304 ([7, 0, 0, 0, 8, 2, 0, 0, 0, 0, 128, 63, 0, 0, 128, 63]) fun b => { b with met := { b.met with sealOpen := true } }
def s58 : State := Wt.asked 0x0304 ([7, 0, 0, 0, 8, 0, 0, 0, 0, 0, 0, 0, 0, 0, 128, 63])
def s59 : State := Wt.askedOn 0x0305 ([3, 0, 0, 0] ++ tableBytes identityTable) fun b => { b with met := { b.met with sealOpen := true } }
def s60 : State := Wt.askedOn 0x0305 ([3, 0, 0, 0] ++ List.replicate 256 255) fun b => { b with met := { b.met with sealOpen := true } }
def s61 : State := Wt.askedOn 0x0306 (List.replicate 16 0) fun b => { b with met := { b.met with sealOpen := true } }
def s62 : State := Wt.askedOn 0x0306 (leBytes 8 (2 ^ 45) ++ List.replicate 8 0) fun b => { b with met := { b.met with sealOpen := true, chans := vupd b.met.chans 45 fun x => { x with staged := some [] } } }
def s63 : State := Wt.askedOn 0x0306 (leBytes 8 (2 ^ 45) ++ List.replicate 8 0) fun b => { b with met := { b.met with sealOpen := true } }
def s64 : State := Wt.asked 0x0307 ([7, 0])
def s65 : State := Wt.asked 0x0307 ([7, 1])
def s66 : State := Wt.askedOn 0x0308 ([255, 0, 0, 0, 0, 0, 0, 0, 1]) fun b => { b with met := { b.met with sealOpen := true } }
def s67 : State := Wt.asked 0x0309 ([7, 0, 0, 0, 100, 0, 0, 0, 0, 0, 0, 0, 0, 0, 0, 0])
def s68 : State := Wt.asked 0x0309 ([7, 0, 0, 0, 0, 0, 0, 0, 0, 0, 0, 0, 0, 0, 0, 0])
def s69 : State := Wt.asked 0x030A ([7, 0, 0, 0, 0, 0, 128, 63, 0, 0, 128, 63, 0, 0, 0, 0])
def s70 : State := Wt.asked 0x030A ([7, 1, 0, 0, 0, 0, 128, 63, 0, 0, 128, 63, 0, 0, 0, 0])
def s71 : State := Wt.asked 0x030A ([7, 2, 0, 0, 0, 0, 128, 63, 0, 0, 128, 63, 0, 0, 0, 0])
def s72 : State := Wt.asked 0x030A ([7, 3, 0, 0, 0, 0, 128, 63, 0, 0, 128, 63, 0, 0, 0, 0])
def s73 : State := Wt.asked 0x030A ([7, 4, 0, 0, 0, 0, 128, 63, 0, 0, 128, 63, 0, 0, 0, 0])
def s74 : State := Wt.asked 0x030B ([255, 0, 0, 0, 0, 0, 0, 0])
def s75 : State := Wt.asked 0x0320 ([1, 0, 0, 0, 0, 0, 0, 0, 0, 0, 0, 0])
def s76 : State := Wt.askedOn 0x0320 ([1, 0, 0, 0, 0, 0, 0, 0, 0, 0, 0, 0]) fun b => { b with met := { b.met with sealOpen := true } }
def s77 : State := Wt.askedOn 0x0321 ([1, 0, 0, 0, 0, 0, 200, 67]) fun b => { b with met := { b.met with sealOpen := true } }
def s78 : State := Wt.askedOn 0x0321 ([22, 0, 0, 0, 0, 0, 200, 67]) fun b => { b with met := { b.met with sealOpen := true } }
def s79 : State := Wt.asked 0x0322 ([1, 1, 255, 255] ++ leBytes 2 9000 ++ leBytes 2 11000 ++ leBytes 2 1000 ++ leBytes 2 200)
def s80 : State := Wt.asked 0x0323 ([0])
def s81 : State := Wt.asked 0x0323 ([255])
def s82 : State := Wt.askedOn 0x0324 ([255, 0, 0, 0]) fun b => { b with met := { b.met with sealOpen := true } }
def s83 : State := Wt.asked 0x0325 ([])
def s84 : State := on fun b => { b with slu := { b.slu with boundaryAt := some 2998500000 } }
def s85 : State := on fun b => { b with slu := { b.slu with latch := some { boundary := 2998500000 } } }
def s86 : State := on fun b => { b with sess := vupd b.sess 2 fun x => { x with delayFrom := some 5, phase := .admission, maxDelay := 1 } }
def s87 : State := on fun b => { b with sess := vupd b.sess 2 fun x => { x with rep := { x.rep with outcome := .served, reason := 1 }, rawReason := 2, rawSince := 1000 } }
def s88 : State := on fun b => { b with sess := vupd b.sess 2 fun x => { x with surplusFrames := 1000 } }
def s89 : State := on fun b => { b with slu := { b.slu with ho := vset b.slu.ho 3 (some { module := 5, stage := .wait, waited := 100 }) } }
def s90 : State := on fun b => { b with sess := vupd b.sess 2 fun x => { x with phase := .precharge, prechargeRun := 32 } }
def s91 : State := on fun b => { b with sess := vupd b.sess 2 fun x => { x with phase := .precharge }, tide := { b.tide with now := 16000000000 } }
def s92 : State := on fun b => { b with snaps := vupd b.snaps 0 fun x => { x with seq := 1, instant := 2999900000 } }
def s93 : State := on fun b => { b with slu := { b.slu with ho := vset b.slu.ho 3 (some { module := 5, stage := .open, acted := some 7 }) } }
def s94 : State := on fun b => { b with slu := { b.slu with ho := vset b.slu.ho 3 (some { module := 5, stage := .match_, acted := some 7 }) } }
def s95 : State := on fun b => { b with slu := { b.slu with ho := vset b.slu.ho 3 (some { module := 5, stage := .close, acted := some 7 }) } }
def s96 : State := Wt.asked 0x0401 ([0, 1, 0, 0, 0, 1, 0, 0, 182, 3])
def s97 : State := Wt.asked 0x0401 ([0, 1, 0, 0, 0, 1, 0, 0, 131, 3])
def s98 : State := Wt.asked 0x0402 ([3, 2, 4, 1, 60, 0, 232, 3])
def s99 : State := Wt.asked 0x0402 ([3, 0, 4, 1, 60, 0, 232, 3])
def s100 : State := Wt.asked 0x0403 ([1, 0, 2, 0, 5, 30, 6, 7, 1, 0, 255, 255])
def s101 : State := Wt.asked 0x0404 ([3])
def s102 : State := Wt.asked 0x0405 ([])
def s103 : State := Wt.asked 0x0406 ([17, 0])
def s104 : State := Wt.askedOn 0x0406 ([17, 0]) fun b => { b with slu := { b.slu with modules := vupd b.slu.modules 17 fun y => { y with node := some 2 } } }
def s105 : State := Wt.askedOn 0x0406 ([17, 0]) fun b => { b with slu := { b.slu with ho := vset b.slu.ho 3 (some { module := 17, stage := .open }) } }
def s106 : State := Wt.asked 0x0407 ([])
def s107 : State := Wt.asked 0x0408 ([])
def s108 : State := Wt.asked 0x0501 ([3])
def s109 : State := Wt.asked 0x0502 ([17])
def s110 : State := Wt.askedOn 0x0503 ([5]) fun b => { b with mlk := { b.mlk with lanes := vupd b.mlk.lanes 2 fun x => { x with enable := true } } }
def s111 : State := Wt.asked 0x0503 ([5])
def s112 : State := Wt.askedOn 0x0503 ([5]) fun b => { b with mlk := { b.mlk with enumBusy := true } }
def s113 : State := Wt.asked 0x0504 ([17])
def s114 : State := Wt.asked 0x0505 ([3, 0, 7, 0])
def s115 : State := Wt.asked 0x0505 ([3, 0, 0, 16])
def s116 : State := Wt.asked 0x0506 ([3, 64])
def s117 : State := Wt.asked 0x0506 ([3, 63])
def s118 : State := Wt.asked 0x0507 ([127])
def s119 : State := Wt.asked 0x0508 ([17, 5])
def s120 : State := Wt.asked 0x0508 ([17, 0])
def s121 : State := Wt.asked 0x0509 ([3])
def s122 : State := Wt.asked 0x050A ([5])
def s123 : State := on fun b => { b with mlk := { b.mlk with cycle := 2999940000 } }
def s124 : State := on fun b => { b with mlk := { b.mlk with lanes := vupd b.mlk.lanes 1 fun x => { x with ran := true } } }
def s125 : State := on fun b => { b with sess := vupd b.sess 4 fun x => { x with phase := .charging } }
def s126 : State := on fun b => { b with mlk := { b.mlk with ocTripped := vset b.mlk.ocTripped 4 true } }
def s127 : State := on fun b => { b with mlk := { b.mlk with modules := vupd b.mlk.modules 17 fun x => { x with fresh := true } } }
def s128 : State := on fun b => { b with mlk := { b.mlk with lanes := vupd b.mlk.lanes 3 fun x => { x with readbackFails := 3 } } }
def s129 : State := on fun b => { b with veh := vupd b.veh 0 fun x => { x with duty := 1000 }, tide := { b.tide with now := 3000030000 } }
def s130 : State := on fun b => { b with veh := vupd b.veh 2 fun x => { x with state := .b, raw := .c, rawRun := 15 } }
def s131 : State := on fun b => { b with veh := vupd b.veh 2 fun x => { x with diodeRun := 15, lowAt := some 5 } }
def s132 : State := on fun b => { b with veh := vupd b.veh 2 fun x => { x with diodeFail := true, diodeOkRun := 15, lowAt := some 5 } }
def s133 : State := on fun b => { b with veh := vupd b.veh 2 fun x => { x with mismatchRun := 3 } }
def s134 : State := on fun b => { b with veh := vupd b.veh 2 fun x => { x with senseFault := true, matchRun := 100 } }
def s135 : State := on fun b => { b with veh := vupd b.veh 2 fun x => { x with ppRun := 15, ppValid := true } }
def s136 : State := on fun b => { b with veh := vupd b.veh 2 fun x => { x with ppRun := 15, ppRaw := some 3 } }
def s137 : State := on fun b => { b with veh := vupd b.veh 2 fun x => { x with ppRun := 15, ppRaw := some 3, ppValid := true } }
def s138 : State := on fun b => { b with veh := vupd b.veh 2 fun x => { x with restartUntil := some 5 } }
def s139 : State := on fun b => { b with veh := vupd b.veh 2 fun x => { x with tempAt := some 5 } }
def s140 : State := on fun b => { b with veh := vupd b.veh 2 fun x => { x with tempAt := none } }
def s141 : State := on fun b => { b with veh := vupd b.veh 2 fun x => { x with move := some { lock := true, start := 5, tMin := 10, tMax := 60, stallSince := some 200000000 } } }
def s142 : State := on fun b => { b with veh := vupd b.veh 2 fun x => { x with move := some { lock := true, start := 5, tMin := 10, tMax := 60, stallSince := some 100 } } }
def s143 : State := on fun b => { b with veh := vupd b.veh 2 fun x => { x with move := some { lock := true, start := 5, offAt := some 100 } } }
def s144 : State := on fun b => { b with veh := vupd b.veh 2 fun x => { x with move := some { lock := true, start := 5 } } }
def s145 : State := on fun b => { b with veh := vupd b.veh 2 fun x => { x with move := some { lock := true, start := 5, lowSince := some 100 } } }
def s146 : State := on fun b => { b with veh := vupd b.veh 2 fun x => { x with move := some { lock := true, start := 5, retryAt := some 100 } } }
def s147 : State := Wt.asked 0x0601 ([3])
def s148 : State := Wt.askedOn 0x0602 ([3, 3]) fun b => { b with lsw := { b.lsw with ls := vupd b.lsw.ls 3 fun x => { x with supply := 5 } } }
def s149 : State := Wt.asked 0x0602 ([3, 1])
def s150 : State := Wt.asked 0x0603 ([5])
def s151 : State := Wt.asked 0x0603 ([16])
def s152 : State := Wt.asked 0x0604 (List.replicate 32 0)
def s153 : State := Wt.asked 0x0605 ([60, 160])
def s154 : State := Wt.asked 0x0605 ([59, 160])
def s155 : State := Wt.asked 0x0606 ([3, 8, 9, 0, 10, 60, 50, 0])
def s156 : State := Wt.askedOn 0x0607 ([3, 1]) fun b => { b with veh := vupd b.veh 3 fun x => { x with lockCh := 8 } }
def s157 : State := Wt.askedOn 0x0607 ([3, 0]) fun b => { b with veh := vupd b.veh 3 fun x => { x with unlockCh := 9 }, saf := { b.saf with nodes := vupd b.saf.nodes 3 fun x => { x with openVerified := true } }, met := { b.met with chans := vupd b.met.chans (voltChan 3) fun x => { x with settled := true } } }
def s158 : State := Wt.askedOn 0x0607 ([3, 0]) fun b => { b with veh := vupd b.veh 3 fun x => { x with unlockCh := 9 }, sess := vupd b.sess 3 fun x => { x with phase := .charging } }
def s159 : State := Wt.asked 0x0607 ([3, 1])
def s160 : State := Wt.askedOn 0x0608 ([3, 0, 100, 0]) fun b => { b with sess := vupd b.sess 3 fun x => { x with phase := .connected } }
def s161 : State := Wt.asked 0x0608 ([3, 0, 99, 0])
def s162 : State := Wt.asked 0x0609 ([5, 0])
def s163 : State := on fun b => { b with plc := vupd b.plc 2 fun x => { x with running := true }, rst := { b.rst with creek := true }, plcCfg := { b.plcCfg with set := { ({} : SlacSet) with xtalkAware := true } } }
def s164 : State := on fun b => { b with plc := vupd b.plc 2 fun x => { x with running := true }, rst := { b.rst with creek := true }, plcCfg := { b.plcCfg with runs := [{ key := { mac := 5, runId := 6 }, set := { ({} : SlacSet) with xtalkAware := true } }] } }
def s165 : State := on fun b => { b with plc := vupd b.plc 2 fun x => { x with running := true }, rst := { b.rst with creek := true }, plcCfg := { b.plcCfg with runs := [{ key := { mac := 5, runId := 6 }, starter := some 2, announced := 3, decoded := 3 }] } }
def s166 : State := on fun b => { b with plc := vupd b.plc 2 fun x => { x with running := true }, rst := { b.rst with creek := true }, plcCfg := { b.plcCfg with runs := [{ key := { mac := 5, runId := 6 }, starter := some 2, windows := [{ from_ := 90, to_ := 200, decoder := 2, discarded := false, ports := [] }] }] } }
def s167 : State := on fun b => { b with plc := vupd b.plc 2 fun x => { x with running := true, slacState := 3, run := some ({ mac := 5, runId := 6 }, {}) }, rst := { b.rst with creek := true } }
def s168 : State := on fun b => { b with plc := vupd b.plc 2 fun x => { x with running := true, slacState := 4 }, rst := { b.rst with creek := true }, sess := vupd b.sess 2 fun x => { x with phase := .associating } }
def s169 : State := on fun b => { b with plc := vupd b.plc 2 fun x => { x with slacState := 1 }, sess := vupd b.sess 2 fun x => { x with phase := .associating }, tide := { b.tide with now := 500000000000 } }
def s170 : State := on fun b => { b with plc := vupd b.plc 2 fun x => { x with slacState := 3, run := some ({}, {}) }, sess := vupd b.sess 2 fun x => { x with phase := .associating }, tide := { b.tide with now := 500000000000 } }
def s171 : State := on fun b => { b with plc := vupd b.plc 2 fun x => { x with slacState := 7 }, sess := vupd b.sess 2 fun x => { x with phase := .associating } }
def s172 : State := on fun b => { b with plc := vupd b.plc 2 fun x => { x with slacState := 6, run := some ({}, {}), lastRun := some {} } }
def s173 : State := on fun b => { b with plc := vupd b.plc 2 fun x => { x with running := true, rateAt := some 5 }, rst := { b.rst with creek := true } }
def s174 : State := on fun b => { b with plc := vupd b.plc 2 fun x => { x with running := true }, rst := { b.rst with creek := true } }
def s175 : State := on fun b => { b with plc := vupd b.plc 2 fun x => { x with running := true } }
def s176 : State := on fun b => { b with plc := vupd b.plc 2 fun x => { x with running := true }, sess := vupd b.sess 2 fun x => { x with phase := .charging } }
def s177 : State := on fun b => { b with plc := vupd b.plc 2 fun x => { x with running := true, linkUp := true }, rst := { b.rst with creek := true }, sess := vupd b.sess 2 fun x => { x with phase := .negotiating } }
def s178 : State := on fun b => { b with sess := vupd b.sess 2 fun x => { x with phase := .negotiating }, tide := { b.tide with now := 500000000000 } }
def s179 : State := on fun b => { b with plc := vupd b.plc 2 fun x => { x with linkUp := true }, sess := vupd b.sess 2 fun x => { x with phase := .negotiating } }
def s180 : State := on fun b => { b with plc := vupd b.plc 2 fun x => { x with linkUp := true } }
def s181 : State := Wt.asked 0x0701 ([2, 0, 0, 0, 0, 224])
def s182 : State := Wt.asked 0x0701 ([1, 0, 0, 0, 0, 224])
def s183 : State := Wt.askedOn 0x0702 ([5, 0, 1]) fun b => { b with plcCfg := { b.plcCfg with macBase := 16 } }
def s184 : State := Wt.asked 0x0702 ([5, 0, 0])
def s185 : State := Wt.asked 0x0702 ([5, 0, 1])
def s186 : State := Wt.asked 0x0703 (leBytes 4 (120 + 12 * 256 + 6 * 65536 + 3 * 2 ^ 20) ++ leBytes 4 (20 + 30 * 64 + 10 * 2 ^ 12 + 12 * 2 ^ 17 + 20 * 2 ^ 22) ++ [3])
def s187 : State := Wt.asked 0x0704 ([5, 0, 0, 0] ++ leBytes 4 (300 + 2 ^ 17 + 5 * 2 ^ 26))
def s188 : State := Wt.asked 0x0705 ([3])
def s189 : State := Wt.askedOn 0x0706 ([3]) fun b => { b with plc := vupd b.plc 3 fun x => { x with lastRun := some {} } }
def s190 : State := Wt.asked 0x0706 ([3])
def s191 : State := Wt.askedOn 0x0707 ([3, 2]) fun b => { b with plc := vupd b.plc 3 fun x => { x with lastRun := some {} } }
def s192 : State := Wt.askedOn 0x0707 ([3, 0]) fun b => { b with plc := vupd b.plc 3 fun x => { x with lastRun := some { ({} : RunReport) with profiles := [[1]] } } }
def s193 : State := Wt.asked 0x0707 ([3, 2])
def s194 : State := Wt.asked 0x0708 ([5, 0])
def s195 : State := Wt.asked 0x0610 ([31, 0, 20, 0, 255, 255])
def s196 : State := Wt.asked 0x0611 ([0, 0, 1, 0, 3, 0])
def s197 : State := Wt.askedOn 0x0611 ([0, 8, 1, 0, 3, 0]) fun b => { b with qmg := { b.qmg with queues := sput queue0 b.qmg.queues 2048 { bufs := [0] }, sram := Memory.writeN b.qmg.sram 0 [1, 15, 0, 0, 2, 0, 0, 0, 9, 9] }, key := { b.key with index := vset b.key.index 3 { usage := 6, gen := 1 } } }
def s198 : State := Wt.asked 0x0612 ([3])
def s199 : State := Wt.asked 0x0613 ([5, 0])
def s200 : State := on fun b => { b with imd := vupd b.imd 2 fun x => { x with slots := [{ start := 12000000 }] } }
def s201 : State := on fun b => { b with imd := vupd b.imd 2 fun x => { x with slots := [{ start := 12000000, fired := true }] } }
def s202 : State := on fun b => { b with imd := vupd b.imd 2 fun x => { x with baselining := true }, tide := { b.tide with now := 500000000000 } }
def s203 : State := on fun b => { b with imd := vupd b.imd 2 fun x => { x with force := true, activeFrom := some 5 }, tide := { b.tide with now := 500000000000 } }
def s204 : State := on fun b => { b with imd := vupd b.imd 2 fun x => { x with cableCheck := 1 }, tide := { b.tide with now := 8000000000 } }
def s205 : State := on fun b => { b with rcm := vupd b.rcm 0 fun x => { x with n := 625, sumSq := 625 * 2 ^ 280 }, met := { b.met with stamp := 29952000 } }
def s206 : State := on fun b => { b with rcm := vupd b.rcm 0 fun x => { x with warnRun := 50 } }
def s207 : State := on fun b => { b with rcm := vupd b.rcm 0 fun x => { x with warn := true, lowRun := 50 } }
def s208 : State := on fun b => { b with rcm := vupd b.rcm 0 fun x => { x with lostRun := 10 } }
def s209 : State := Wt.askedOn 0x0807 ([0, 1, 100, 0]) fun b => { b with rcmTest := some { tripAt := some 300, mbx := 0 } }
def s210 : State := Wt.askedOn 0x0807 ([0, 1, 100, 0]) fun b => { b with rcmTest := some { tripAt := some 450000001, mbx := 0 } }
def s211 : State := Wt.askedOn 0x0807 ([0, 1, 100, 0]) fun b => { b with rcmTest := some { mbx := 0, off := true } }
def s212 : State := on fun b => { b with rcmTest := some { mbx := 0 } }
def s213 : State := Wt.asked 0x0801 ([1, 0, 0, 0] ++ leBytes 4 (300 + 12 * 65536 + 25 * 2 ^ 24) ++ leBytes 4 (600 + 150 * 65536))
def s214 : State := Wt.asked 0x0801 ([4])
def s215 : State := Wt.askedOn 0x0801 ([1, 0, 0, 0] ++ leBytes 4 (300 + 12 * 65536 + 25 * 2 ^ 24) ++ leBytes 4 (600 + 150 * 65536)) fun b => { b with sess := vupd b.sess 4 fun x => { x with phase := .charging } }
def s216 : State := Wt.asked 0x0802 ([5, 0])
def s217 : State := Wt.asked 0x0803 ([3])
def s218 : State := Wt.asked 0x0804 ([5, 0])
def s219 : State := Wt.asked 0x0805 ([1, 0, 0, 0, 30, 0, 29, 0, 6, 0])
def s220 : State := Wt.asked 0x0805 ([2])
def s221 : State := Wt.asked 0x0806 ([1])
def s222 : State := Wt.asked 0x0807 ([1, 7, 100, 0])
def s223 : State := Wt.asked 0x0807 ([1, 40, 100, 0])
def s224 : State := Wt.asked 0x0808 ([5, 0])
def s225 : State := on fun b => { b with tide := { b.tide with ready := false } }
def s226 : State := on fun b => { b with saf := { b.saf with pairs := vupd b.saf.pairs 0 fun x => { x with function := 1, faultLatched := true, okPeriods := 10 } } }
def s227 : State := on fun b => { b with saf := { b.saf with pairs := vupd b.saf.pairs 1 fun x => { x with function := 1, acting := true } }, tide := { b.tide with now := 3000450000 } }
def s228 : State := on fun b => { b with saf := { b.saf with pairs := vupd b.saf.pairs 1 fun x => { x with function := 1 } } }
def s229 : State := on fun b => { b with saf := { b.saf with hubPermit := true } }
def s230 : State := on fun b => { b with saf := { b.saf with dykeAlive := true } }
def s231 : State := on fun b => { b with safX := { b.safX with tripsOpen := [(true, 2, 5)] } }
def s232 : State := on fun b => { b with saf := { b.saf with nodes := vupd b.saf.nodes 2 fun x => { x with ovTripped := true } } }
def s233 : State := on fun b => { b with saf := { b.saf with nodes := vupd b.saf.nodes 2 fun x => { x with permitHw := true, closed := true, pilotBad := 88 } } }
def s234 : State := on fun b => { b with saf := { b.saf with resetArmedUntil := some 5 } }
def s235 : State := on fun b => { b with saf := { b.saf with nodes := vupd b.saf.nodes 2 fun x => { x with rampedAt := some 5 } } }
def s236 : State := on fun b => { b with saf := { b.saf with nodes := vupd b.saf.nodes 2 fun x => { x with closeAt := some 5 } } }
def s237 : State := on fun b => { b with saf := { b.saf with nodes := vupd b.saf.nodes 2 fun x => { x with openAt := some 5, openLate := true } } }
def s238 : State := on fun b => { b with saf := { b.saf with nodes := vupd b.saf.nodes 2 fun x => { x with openAt := some 5 } } }
def s239 : State := on fun b => { b with saf := { b.saf with nodes := vupd b.saf.nodes 2 fun x => { x with weldDue := true } } }
def s240 : State := on fun b => { b with saf := { b.saf with hubPermit := true, nodes := vupd b.saf.nodes 2 fun x => { x with weldDue := true } }, slu := { b.slu with modules := vupd b.slu.modules 5 fun x => { x with node := some 2 } }, mlk := { b.mlk with modules := vupd b.mlk.modules 5 fun x => { x with everOk := true, stamp := 3000000000, record := [0, 0, 0, 0, 0, 9, 0, 0] } } }
def s241 : State := on fun b => { b with safX := { b.safX with weldTests := vset b.safX.weldTests 2 (some { module := 5 }) }, met := { b.met with chans := vupd b.met.chans 4 fun x => { x with settled := true, good := 0x43480000 } } }
def s242 : State := on fun b => { b with safX := { b.safX with weldTests := vset b.safX.weldTests 2 (some { module := 5 }) }, met := { b.met with chans := vupd b.met.chans 4 fun x => { x with settled := true } } }
def s243 : State := on fun b => { b with safX := { b.safX with weldTests := vset b.safX.weldTests 2 (some { module := 5 }) }, met := { b.met with chans := vupd b.met.chans 4 fun x => { x with settled := true, good := 0x42480000 } } }
def s244 : State := on fun b => { b with saf := { b.saf with windows := [{ until_ := 5 }], level := 3 } }
def s245 : State := on fun b => { b with saf := { b.saf with windows := [{ scope := .node 2, until_ := 5 }], level := 1, nodes := vupd b.saf.nodes 2 fun x => { x with closed := true, openVerified := false } } }
def s246 : State := Wt.asked 0x0901 ([])
def s247 : State := Wt.asked 0x0902 ((List.range 8).flatMap (fun _ => leBytes 4 (1 + 3 * 65536)) ++ leBytes 4 (165 + 50 * 256 + 3 * 65536))
def s248 : State := Wt.asked 0x0902 (List.replicate 32 0 ++ leBytes 4 (171 + 50 * 256 + 3 * 65536))
def s249 : State := Wt.asked 0x0903 ([1, 0, 0, 0])
def s250 : State := Wt.askedOn 0x0903 ([1, 0, 0, 0]) fun b => { b with saf := { b.saf with resetArmedUntil := some 9000000000, windows := [{ until_ := 5 }] } }
def s251 : State := Wt.askedOn 0x0903 ([1, 0, 0, 0]) fun b => { b with saf := { b.saf with resetArmedUntil := some 9000000000, nodes := vupd b.saf.nodes 0 fun x => { x with lockout := true, weldNeed := true } } }
def s252 : State := Wt.askedOn 0x0903 ([0, 0, 0, 0]) fun b => { b with saf := { b.saf with resetArmedUntil := some 9000000000 } }
def s253 : State := Wt.askedOn 0x0904 ([3]) fun b => { b with saf := { b.saf with hubPermit := true }, slu := { b.slu with modules := vupd b.slu.modules 5 fun x => { x with node := some 3 } }, mlk := { b.mlk with modules := vupd b.mlk.modules 5 fun x => { x with everOk := true, stamp := 3000000000, record := [0, 0, 0, 0, 0, 9, 0, 0] } } }
def s254 : State := Wt.askedOn 0x0904 ([3]) fun b => { b with saf := { b.saf with hubPermit := true }, mlk := { b.mlk with modules := vupd b.mlk.modules 18 fun x => { x with everOk := true, stamp := 3000000000, record := [0, 0, 0, 0, 0, 9, 0, 0] } } }
def s255 : State := Wt.askedOn 0x0904 ([3]) fun b => { b with saf := { b.saf with nodes := vupd b.saf.nodes 3 fun x => { x with openVerified := false } } }
def s256 : State := Wt.asked 0x0905 ([3])
def s257 : State := Wt.asked 0x0906 ([])
def s258 : State := Wt.asked 0x0907 ([])
def s259 : State := on fun b => { b with lsw := { b.lsw with hs := vupd b.lsw.hs 5 fun x => { x with ot := true } } }
def s260 : State := on fun b => { b with lsw := { b.lsw with ls := vupd b.lsw.ls 2 fun x => { x with otLatch := true } } }
def s261 : State := on fun b => { b with lsw := { b.lsw with hs := vupd b.lsw.hs 5 fun x => { x with ot := true, otLatched := true } } }
def s262 : State := on fun b => { b with lsw := { b.lsw with hs := vupd b.lsw.hs 5 fun x => { x with ot := true, restarts := List.replicate 8 3000000000 } } }
def s263 : State := on fun b => { b with lsw := { b.lsw with vinOk := true } }
def s264 : State := on fun b => { b with lsw := { b.lsw with ls := vupd b.lsw.ls 2 fun x => { x with econ := 1 } } }
def s265 : State := on fun b => { b with lsw := { b.lsw with ls := vupd b.lsw.ls 2 fun x => { x with econ := 2, learnV := 500, learnI := 5 } } }
def s266 : State := Wt.asked 0x0A01 ([5, 0, 0, 0, 1, 0, 0, 0])
def s267 : State := Wt.asked 0x0A01 ([40, 0, 0, 0, 1, 0, 0, 0])
def s268 : State := Wt.asked 0x0A02 ([5, 1, 255, 255])
def s269 : State := Wt.asked 0x0A02 ([5, 2, 255, 255])
def s270 : State := Wt.asked 0x0A03 ([5])
def s271 : State := Wt.askedOn 0x0A04 ([5]) fun b => { b with lsw := { b.lsw with hs := vupd b.lsw.hs 5 fun x => { x with shortGnd := true, cmdOn := true } } }
def s272 : State := Wt.askedOn 0x0A04 ([5]) fun b => { b with lsw := { b.lsw with hs := vupd b.lsw.hs 5 fun x => { x with tied := true, cmdOn := true } } }
def s273 : State := Wt.askedOn 0x0A04 ([5]) fun b => { b with lsw := { b.lsw with hs := vupd b.lsw.hs 5 fun x => { x with shortVin := true, outOn := true } } }
def s274 : State := Wt.asked 0x0A05 ([2, 0, 0, 0, 120, 100, 25, 15] ++ leBytes 4 (60 + 63 * 256 + 160 * 65536))
def s275 : State := Wt.asked 0x0A06 ([3])
def s276 : State := Wt.asked 0x0A07 (List.replicate 20 0x21)
def s277 : State := Wt.askedOn 0x0A08 ([32, 0, 0, 0, 0]) fun b => { b with lsw := { b.lsw with hs := vupd b.lsw.hs 5 fun x => { x with limp := true } } }
def s278 : State := Wt.asked 0x0A09 ([])
def s279 : State := on fun b => { b with arb := { b.arb with reqs := vupd (vupd b.arb.reqs 2 fun x => { x with queue := [{ first := 47616, content := [zeros 64] }] }) 4 fun x => { x with forced := true, queue := [{ first := 57088, content := [zeros 64] }] } } }
def s280 : State := on fun b => { b with arb := { b.arb with cur := some 0, reqs := vupd (vupd b.arb.reqs 2 fun x => { x with queue := [{ first := 47616, content := [zeros 64] }] }) 4 fun x => { x with queue := [{ first := 57088, content := [zeros 64] }] } } }
def s281 : State := on fun b => { b with arb := { b.arb with reqs := vupd b.arb.reqs 2 fun x => { x with masked := true } } }
def s282 : State := on fun b => { b with arb := { b.arb with cur := some 0 }, dbg := { b.dbg with haltCarr := true } }
def s283 : State := on fun b => { b with arb := { b.arb with cur := some 2, reqs := vupd b.arb.reqs 2 fun x => { x with queue := [{ first := 47616, content := [zeros 64] }] } } }
def s284 : State := on fun b => { b with arb := { b.arb with win := some 2, reqs := vupd b.arb.reqs 2 fun x => { x with queue := [{ first := 47616, content := [zeros 64] }] } } }
def s285 : State := on fun b => { b with arb := { b.arb with cur := some 3 } }
def s286 : State := on fun b => { b with arb := { b.arb with cur := some 2 } }
def s287 : State := on fun b => { b with pea := { b.pea with writesSinceGap := 16 } }
def s288 : State := on fun b => { b with pea := { b.pea with lastGap := b.tide.now }, tide := { b.tide with running := false } }
def s289 : State := on fun b => { b with pea := { b.pea with ctr := vset b.pea.ctr 60 ctrMax } }
def s290 : State := on fun b => { b with pea := { b.pea with ready := true, lastDelta := some 5 }, tide := { b.tide with now := 3000036000 } }
def s291 : State := on fun b => { b with pf := { b.pf with vinMon := false } }
def s292 : State := on fun b => { b with pf := { b.pf with active := true } }
def s293 : State := on fun b => { b with pf := { b.pf with active := true, sealedAt := some 9, at_ := 5 } }
def s294 : State := on fun b => { b with pf := { b.pf with active := true, begun := true } }
def s295 : State := Wt.asked 0x0B01 ([])
def s296 : State := Wt.asked 0x0B02 ([64, 0, 0, 0, 1])
def s297 : State := Wt.asked 0x0B02 ([0, 218, 0, 0, 1])
def s298 : State := Wt.asked 0x0B03 ([1, 5])
def s299 : State := Wt.asked 0x0B03 ([0, 0])
def s300 : State := Wt.asked 0x0B04 ([15, 1])
def s301 : State := Wt.asked 0x0B04 ([16, 1])
def s302 : State := Wt.asked 0x0B05 ([60])
def s303 : State := Wt.asked 0x0B06 ([60])
def s304 : State := Wt.asked 0x0B06 ([55])
def s305 : State := Wt.askedOn 0x0B07 ([0, 0, 0, 0]) fun b => { b with pea := { b.pea with ue := true } }
def s306 : State := Wt.asked 0x0B07 ([0, 0, 0, 0])
def s307 : State := Wt.asked 0x0B08 ([])
def s308 : State := Wt.askedOn 0x0B08 ([]) fun b => { b with pf := { b.pf with active := true } }
def s309 : State := Wt.asked 0x0B09 ([])
def s310 : State := on fun b => { b with key := { b.key with units := vset b.key.units 1 (some {}) } }
def s311 : State := on fun b => { b with key := { b.key with units := vset b.key.units 1 (some { job := .reading 7 }) }, slt := { b.slt with signing := [{ sequence := 7 }] } }
def s312 : State := on fun b => { b with key := { b.key with units := vset b.key.units 1 (some { job := .reading 7 }) }, slt := { b.slt with signing := [{ sequence := 7, failures := 2 }] } }
def s313 : State := on fun b => { b with slt := { b.slt with signing := [{ sequence := 7, retryAt := some 5 }] } }
def s314 : State := on fun b => { b with slt := { b.slt with held := [{}] } }
def s315 : State := on fun b => { b with backup := { b.backup with lastSample := 1 } }
def s316 : State := on fun b => { b with rst := { b.rst with carr := false } }
def s317 : State := on fun b => { b with backup := { b.backup with events := [[1, 2, 3, 4, 5, 6, 7, 8]] } }
def s318 : State := on fun b => { b with auth := vupd b.auth 2 fun x => { x with state := 1 } }
def s319 : State := Wt.askedOn 0x0C01 ([0, 8]) fun b => { b with qmg := { b.qmg with queues := sput queue0 b.qmg.queues 2048 { bufs := List.replicate 26 0 }, sram := Memory.writeN b.qmg.sram 0 [1, 15, 0, 0, 2, 0, 0, 0, 9, 9] } }
def s320 : State := Wt.asked 0x0C01 ([0, 0])
def s321 : State := Wt.askedOn 0x0C02 ([0, 0, 0, 8]) fun b => { b with slt := { b.slt with calActive := List.replicate 1456 5 } }
def s322 : State := Wt.asked 0x0C02 ([2, 0, 0, 8])
def s323 : State := Wt.asked 0x0C03 ([2, 1, 15, 2, 1, 0, 0, 0] ++ List.replicate 72 0)
def s324 : State := Wt.asked 0x0C04 ([3, 1, 1, 0, 0, 0, 0, 0] ++ List.replicate 24 0)
def s325 : State := Wt.asked 0x0C04 ([3, 0, 1, 0])
def s326 : State := Wt.askedOn 0x0C04 ([3, 2, 1, 0, 0, 0, 0, 0] ++ List.replicate 24 0) fun b => { b with sess := vupd b.sess 3 fun x => { x with phase := .authorising } }
def s327 : State := Wt.asked 0x0C05 ([3, 0])
def s328 : State := Wt.asked 0x0C05 ([6, 0])
def s329 : State := Wt.asked 0x0C06 ([3, 0])
def s330 : State := Wt.asked 0x0C06 ([2, 16])
def s331 : State := Wt.asked 0x0C07 ([])
def s332 : State := Wt.asked 0x0C08 ([2, 0, 0, 0, 0, 0, 0, 0])
def s333 : State := Wt.asked 0x0C09 ([88, 2, 255, 255])
def s334 : State := Wt.asked 0x0C09 ([89, 2, 255, 255])
def s335 : State := Wt.asked 0x0C0A ([12])
def s336 : State := Wt.asked 0x0D01 (List.replicate 96 0)
def s337 : State := Wt.asked 0x0D02 (List.replicate 96 0)
def s338 : State := Wt.asked 0x0D03 ([5, 0])
def s339 : State := Wt.asked 0x0D03 ([0, 16])
def s340 : State := Wt.asked 0x0D04 (leBytes 4 (4 + 50 * 16) ++ [9, 0, 0, 0])
def s341 : State := Wt.asked 0x0D04 (leBytes 4 (4 + 51 * 16) ++ [9, 0, 0, 0])
def s342 : State := Wt.asked 0x0D05 ([3])
def s343 : State := Wt.asked 0x0D06 ([])
def s344 : State := Wt.askedOn 0x0D07 ([5, 0, 1]) fun b => { b with bri := { b.bri with wallets := [(5, { state := 1, balance := 9 })] } }
def s345 : State := Wt.asked 0x0D07 ([5, 0, 1])
def s346 : State := on fun b => { b with key := { b.key with keysReady := true } }
def s347 : State := on fun b => { b with key := { b.key with keysReady := true }, tide := { b.tide with ready := false } }
def s348 : State := on fun b => { b with key := { b.key with rngOk := true, rngUses := 1048576 } }
def s349 : State := on fun b => { b with key := { b.key with rngOk := true, rngUses := 5 }, tide := { b.tide with now := 20000000000 } }
def s350 : State := on fun b => { b with key := { b.key with retryAt := some 5, tries := 1 }, tide := { b.tide with running := false } }
def s351 : State := on fun b => { b with key := { b.key with retryAt := some 5, tries := 2 }, tide := { b.tide with running := false } }
def s352 : State := on fun b => { b with key := { b.key with retryAt := some 5 }, tide := { b.tide with running := false } }
def s353 : State := on fun b => { b with key := { b.key with retryAt := some 5 } }
def s354 : State := on fun b => { b with key := { b.key with challenge := some ([1], 5) } }
def s355 : State := Wt.asked 0x0E01 ([])
def s356 : State := Wt.askedOn 0x0E02 (List.replicate 216 0) fun b => { b with key := { b.key with keysReady := true } }
def s357 : State := Wt.askedOn 0x0E02 (List.replicate 216 0) fun b => { b with key := { b.key with keysReady := true, messages := [1] } }
def s358 : State := Wt.asked 0x0E02 (List.replicate 216 0)
def s359 : State := Wt.askedOn 0x0E03 ([5, 0, 0, 0] ++ List.replicate 200 0) fun b => { b with key := { b.key with keysReady := true, index := vset b.key.index 5 { usage := 6 } } }
def s360 : State := Wt.askedOn 0x0E03 ([16, 0, 0, 0] ++ List.replicate 200 0) fun b => { b with key := { b.key with keysReady := true } }
def s361 : State := Wt.askedOn 0x0E04 ([5]) fun b => { b with key := { b.key with keysReady := true, loaded := 32 } }
def s362 : State := Wt.askedOn 0x0E05 ([3]) fun b => { b with key := { b.key with keysReady := true } }
def s363 : State := Wt.askedOn 0x0E05 ([34]) fun b => { b with key := { b.key with keysReady := true } }
def s364 : State := Wt.askedOn 0x0E06 (List.replicate 32 7) fun b => { b with key := { b.key with keysReady := true } }
def s365 : State := Wt.asked 0x0E07 ([])
def s366 : State := Wt.askedOn 0x0E08 ([]) fun b => { b with key := { b.key with keysReady := true, rngOk := true } }
def s367 : State := Wt.askedOn 0x0E08 ([]) fun b => { b with key := { b.key with keysReady := true } }
def s368 : State := Wt.askedOn 0x0E09 ([0, 1]) fun b => { b with key := { b.key with keysReady := true, rngOk := true } }
def s369 : State := Wt.askedOn 0x0E0A ([]) fun b => { b with key := { b.key with keysReady := true } }
def s370 : State := on fun b => { b with hic := { b.hic with sources := vset b.hic.sources 8 { enable := true, pending := true, prio := 3, pin := 1 } } }
def s371 : State := on fun b => { b with hic := { b.hic with pins := vset b.hic.pins 1 { stack := [(8, 3)] } } }
def s372 : State := on fun b => { b with rst := { b.rst with inReset := true } }
def s373 : State := on fun b => { b with cwy := { b.cwy with state := .up, enable := true } }
def s374 : State := on fun b => { b with cwy := { b.cwy with state := .up, enable := true, rxNext := 5 } }
def s375 : State := on fun b => { b with cwy := { b.cwy with state := .up } }
def s376 : State := on fun b => { b with cwy := { b.cwy with state := .up, resend := [5], groups := vmap b.cwy.groups fun x => { x with hostCredit := 3 } } }
def s377 : State := on fun b => { b with cwy := { b.cwy with state := .up, outstanding := [(0, 5)] } }
def s378 : State := on fun b => { b with cwy := { b.cwy with state := .up, outstanding := [(0, 5)] }, cwyX := { b.cwyX with ackExpiries := 7 } }
def s379 : State := on fun b => { b with cwy := { b.cwy with enable := true } }
def s380 : State := on fun b => { b with cwy := { b.cwy with state := .training, aligning := true } }
def s381 : State := Wt.askedOn 0x0F03 ([]) fun b => { b with cwy := { b.cwy with state := .training, aligning := true }, cwyX := { b.cwyX with resetMbx := some 0 } }
def s382 : State := on fun b => { b with cwy := { b.cwy with state := .training } }
def s383 : State := on fun b => { b with cwy := { b.cwy with state := .up, enable := true }, cwyX := { b.cwyX with crcRun := 7 } }
def s384 : State := on fun b => { b with cwy := { b.cwy with state := .up }, cwyX := { b.cwyX with creditRun := 7 } }
def s385 : State := on fun b => { b with cwy := { b.cwy with groups := vupd b.cwy.groups 3 fun x => { x with waitSince := some 5 } } }
def s386 : State := on fun b => { b with qmg := { b.qmg with running := false } }
def s387 : State := on fun b => { b with qmg := { b.qmg with running := true, cntFree := 0 } }
def s388 : State := on fun b => { b with qmg := { b.qmg with running := true } }
def s389 : State := on fun b => { b with qmg := { b.qmg with owners := [(5, .agent 4)], queues := sput queue0 b.qmg.queues 2048 { enabled := true, limit := 4 } } }
def s390 : State := on fun b => { b with qmg := { b.qmg with owners := [(5, .agent 4)], queues := sput queue0 b.qmg.queues 2048 { enabled := true, limit := 1, bufs := [9] } } }
def s391 : State := on fun b => { b with qmg := { b.qmg with queues := sput queue0 b.qmg.queues 2048 { enabled := true, limit := 1, bufs := [9], consumer := 14 } } }
def s392 : State := on fun b => { b with qmg := { b.qmg with owners := [(5, .agent 4)], cntFree := 131071, cntHeld := 1 } }
def s393 : State := on fun b => { b with qmg := { b.qmg with owners := [(5, .agent 6)], queues := sput queue0 b.qmg.queues 2048 { inbound := true, enabled := true, limit := 4 } } }
def s394 : State := Wt.asked 0x0F01 ([1, 0, 100])
def s395 : State := Wt.askedOn 0x0F01 ([0, 0, 2]) fun b => { b with cwy := { b.cwy with enable := true, state := .up } }
def s396 : State := Wt.asked 0x0F01 ([1, 0, 101])
def s397 : State := Wt.asked 0x0F02 ([])
def s398 : State := Wt.asked 0x0F03 ([])
def s399 : State := Wt.askedOn 0x0F03 ([]) fun b => { b with cwyX := { b.cwyX with resetMbx := some 1 } }
def s400 : State := Wt.asked 0x0F04 ([3, 0, 0, 2])
def s401 : State := Wt.asked 0x0F04 ([64, 0, 0, 2])
def s402 : State := Wt.asked 0x0F05 ([3])
def s403 : State := Wt.asked 0x0F06 ([0, 8, 6, 16, 3, 0, 9, 0])
def s404 : State := Wt.asked 0x0F06 ([0, 0, 6, 16, 3, 0, 9, 0])
def s405 : State := Wt.asked 0x0F07 ([0, 8])
def s406 : State := Wt.askedOn 0x0F08 ([0, 8]) fun b => { b with qmg := { b.qmg with queues := sput queue0 b.qmg.queues 2048 { enabled := true } } }
def s407 : State := Wt.asked 0x0F08 ([0, 8])
def s408 : State := Wt.asked 0x0F09 ([])
def s409 : State := Wt.asked 0x0F0A ([0, 0, 2, 0])
def s410 : State := Wt.asked 0x0F0A ([1, 0, 2, 0])
def s411 : State := Wt.asked 0x0F0B ([1])
def s412 : State := on fun b => { b with pnl := vupd b.pnl 0 fun x => { x with enable := true } }
def s413 : State := on fun b => { b with pnl := vupd b.pnl 3 fun x => { x with passUntil := some 5 } }
def s414 : State := on fun b => { b with pnl := vupd b.pnl 3 fun x => { x with fault := true } }
def s415 : State := on fun b => { b with nfc := vupd (vupd b.nfc 1 fun x => { x with field := true }) 0 fun x => { x with enable := true }, tide := { b.tide with now := 3000000000 } }
def s416 : State := on fun b => { b with nfc := vupd b.nfc 0 fun x => { x with enable := true, base := NfcSample.mk 100 0 }, tide := { b.tide with now := 3000000000 } }
def s417 : State := on fun b => { b with nfc := vupd b.nfc 3 fun x => { x with polling := true } }
def s418 : State := on fun b => { b with nfc := vupd b.nfc 3 fun x => { x with card := true, presenceFails := 1 } }
def s419 : State := on fun b => { b with nfc := vupd b.nfc 3 fun x => { x with card := true, presenceFails := 2 } }
def s420 : State := on fun b => { b with nfc := vupd b.nfc 3 fun x => { x with field := true } }
def s421 : State := on fun b => { b with nfc := vupd b.nfc 2 fun x => { x with waiting := some 5 } }
def s422 : State := Wt.asked 0x1001 ([3, 0, 0, 0] ++ leBytes 4 (1 + 40 * 4 + 10 * 256 + 31 * 2 ^ 13))
def s423 : State := Wt.asked 0x1002 ([3, 0, 0, 0] ++ List.replicate 768 7)
def s424 : State := Wt.asked 0x1003 ([3, 0, 0, 8, 0, 0, 0, 0, 225, 1, 1, 0])
def s425 : State := Wt.askedOn 0x1003 ([3, 0, 0, 8, 0, 0, 0, 0, 1, 0, 1, 0]) fun b => { b with pnl := vupd b.pnl 3 fun x => { x with enable := true }, qmg := { b.qmg with queues := sput queue0 b.qmg.queues 2048 { bufs := [0] }, sram := Memory.writeN b.qmg.sram 0 [1, 15, 0, 0, 3, 0, 0, 0, 9, 9, 9] } }
def s426 : State := Wt.asked 0x1004 ([3, 0, 0, 0, 0, 0, 0, 0, 0, 0, 225, 1, 1, 0])
def s427 : State := Wt.askedOn 0x1004 ([3, 0, 0, 0, 0, 0, 0, 0, 0, 0, 2, 0, 1, 0]) fun b => { b with pnl := vupd b.pnl 3 fun x => { x with enable := true } }
def s428 : State := Wt.askedOn 0x1005 ([3]) fun b => { b with pnl := vupd b.pnl 3 fun x => { x with enable := true } }
def s429 : State := Wt.askedOn 0x1005 ([3]) fun b => { b with pnl := vupd b.pnl 3 fun x => { x with enable := true, dirty := [4] } }
def s430 : State := Wt.asked 0x1006 ([3])
def s431 : State := Wt.asked 0x1007 ([5])
def s432 : State := Wt.asked 0x1101 ([3, 1, 255, 255] ++ leBytes 4 (7 + 31 * 2048 + 40 * 65536))
def s433 : State := Wt.askedOn 0x1102 ([3]) fun b => { b with nfc := vupd b.nfc 3 fun x => { x with enable := true, card := true, cardRec := [1, 2] } }
def s434 : State := Wt.askedOn 0x1102 ([3]) fun b => { b with nfc := vupd b.nfc 3 fun x => { x with enable := true } }
def s435 : State := Wt.askedOn 0x1102 ([3]) fun b => { b with nfc := vupd b.nfc 3 fun x => { x with enable := true, polling := true } }
def s436 : State := Wt.askedOn 0x1103 ([3, 0, 1, 0, 9, 0, 7]) fun b => { b with nfc := vupd b.nfc 3 fun x => { x with enable := true, card := true } }
def s437 : State := Wt.askedOn 0x1104 ([3]) fun b => { b with nfc := vupd b.nfc 3 fun x => { x with enable := true, card := true } }
def s438 : State := Wt.asked 0x1104 ([3])
def s439 : State := Wt.asked 0x1105 ([5])
def s440 : State := on fun b => { b with rst := { b.rst with suppliesOk := true, inReset := true } }
def s441 : State := on fun b => { b with tide := { b.tide with lost := true } }
def s442 : State := on fun b => { b with rst := { b.rst with sedgeAbsent := some 5 }, tide := { b.tide with now := 9000000000 } }
def s443 : State := on fun b => { b with rst := { b.rst with pending := some {} } }
def s444 : State := on fun b => { b with rst := { b.rst with pending := some { scope := .core, core := 1 } } }
def s445 : State := on fun b => { b with rst := { b.rst with pending := some { started := true } } }
def s446 : State := on fun b => { b with rst := { b.rst with pending := some { started := true, scope := .device } } }
def s447 : State := on fun b => { b with rst := { b.rst with carr := false }, upd := { b.upd with images := vmap b.upd.images fun x => { x with loaded := true } } }
def s448 : State := on fun b => { b with rst := { b.rst with state := .boot, stage := 3 }, upd := { b.upd with images := vmap b.upd.images fun x => { x with loaded := true } } }
def s449 : State := on fun b => { b with rst := { b.rst with state := .boot, stage := 3 } }
def s450 : State := on fun b => { b with rst := { b.rst with state := .boot, stage := 6 } }
def s451 : State := on fun b => { b with qmg := { b.qmg with queues := sput queue0 b.qmg.queues 2049 { inbound := true, consumer := 0x10 } } }
def s452 : State := on fun b => { b with qmg := { b.qmg with queues := sput queue0 b.qmg.queues 2049 { inbound := true, consumer := 0x10, bufs := [7] } } }
def s453 : State := on fun b => { b with upd := { b.upd with fetch := some { posted := true } } }
def s454 : State := on fun b => { b with upd := { b.upd with fetch := some { posted := true, tries := 3 } } }
def s455 : State := on fun b => { b with upd := { b.upd with fetch := some {} } }
def s456 : State := on fun b => { b with rst := { b.rst with state := .bootFail, stage := 3 } }
def s457 : State := on fun b => { b with upd := { b.upd with pause := some { image := 1, begun := true } } }
def s458 : State := on fun b => { b with upd := { b.upd with pause := some { image := 1, begun := true, revert := true } } }
def s459 : State := on fun b => { b with upd := { b.upd with pause := some { image := 3, begun := true } } }
def s460 : State := on fun b => { b with upd := { b.upd with pause := some { image := 1 } } }
def s461 : State := on fun b => { b with upd := { b.upd with pause := some { begun := true }, deferred := 4 } }
def s462 : State := on fun b => { b with upd := { b.upd with pause := some { begun := true } } }
def s463 : State := on fun b => { b with upd := { b.upd with trialImage := some 1, trialLeft := 60 } }
def s464 : State := on fun b => { b with upd := { b.upd with trialImage := some 1, revertWait := true } }
def s465 : State := on fun b => { b with upd := { b.upd with pause := some {} } }
def s466 : State := on fun b => { b with upd := { b.upd with trialImage := some 1, trialLeft := 1 } }
def s467 : State := on fun b => { b with upd := { b.upd with trialImage := some 1, trialLeft := 600 }, tide := { b.tide with now := 20000000000 } }
def s468 : State := Wt.asked 0x1301 ([])
def s469 : State := Wt.asked 0x1302 ([2])
def s470 : State := Wt.asked 0x1302 ([5])
def s471 : State := Wt.askedOn 0x1303 ([2]) fun b => { b with upd := { b.upd with images := vupd b.upd.images 1 fun x => { x with stateB := 1 } } }
def s472 : State := Wt.askedOn 0x1303 ([1]) fun b => { b with upd := { b.upd with fetch := some {} } }
def s473 : State := Wt.askedOn 0x1304 ([2]) fun b => { b with upd := { b.upd with trialImage := some 1 } }
def s474 : State := Wt.asked 0x1304 ([2])
def s475 : State := Wt.askedOn 0x1305 ([2]) fun b => { b with upd := { b.upd with trialImage := some 1 } }
def s476 : State := Wt.askedOn 0x1306 ([2]) fun b => { b with upd := { b.upd with images := vupd b.upd.images 1 fun x => { x with stateB := 1 } } }
def s477 : State := Wt.asked 0x1306 ([2])
def s478 : State := Wt.asked 0x1307 ([60, 0, 0, 0, 0, 8, 1, 8])
def s479 : State := Wt.asked 0x1307 ([59, 0, 0, 0, 0, 8, 1, 8])
def s480 : State := Wt.asked 0x1308 ([2, 0])
def s481 : State := Wt.asked 0x1308 ([2, 1])
def s482 : State := Wt.askedOn 0x1303 ([3]) fun b => { b with upd := { b.upd with images := vupd b.upd.images 2 fun x => { x with stateB := 1 } }, slt := { b.slt with unsigned_ := [{}] } }
def s483 : State := Wt.asked 0x13F0 (zeros 520)
def s484 : State := Wt.askedOn 0x13F0 ([1, 0, 0, 0] ++ zeros 516) fun b => { b with rst := { b.rst with state := .boot, stage := 2, choice := 4 } }
def s485 : State := on fun b => { b with btn := { b.btn with opQueue := 2048 } }
def s486 : State := on fun b => { b with dmp := { b.dmp with raised := [3] } }
def s487 : State := on fun b => { b with dmp := { b.dmp with fatalAt := some 5 } }
def s488 : State := on fun b => { b with dmp := { b.dmp with fatalAt := some 5 }, rst := { b.rst with sedge := false, carr := false, dyke := false } }
def s489 : State := on fun b => { b with dmp := { b.dmp with state := 1 } }
def s490 : State := Wt.asked 0x1201 ([1, 0, 0, 0, 0, 0, 0, 0, 0, 0, 0, 0, 0, 0, 0, 0, 3])
def s491 : State := Wt.asked 0x1201 ([0, 0, 0, 0, 0, 0, 0, 0, 0, 0, 0, 0, 0, 0, 0, 0, 3])
def s492 : State := Wt.asked 0x1201 ([2, 0, 0, 0, 0, 0, 0, 0, 0, 0, 0, 0, 0, 0, 0, 0, 3])
def s493 : State := Wt.asked 0x1202 ([1, 0, 116, 0] ++ zeros 116)
def s494 : State := Wt.askedOn 0x1202 ([1, 0, 116, 0] ++ zeros 116) fun b => { b with btn := { b.btn with clearing := true } }
def s495 : State := Wt.asked 0x1203 ([0, 8])
def s496 : State := Wt.asked 0x1203 ([0, 0])
def s497 : State := Wt.asked 0x1204 ([])
def s498 : State := Wt.asked 0x1205 ([])
def s499 : State := Wt.asked 0x1401 ([])
def s500 : State := Wt.askedOn 0x1402 ([0, 8]) fun b => { b with dmp := { b.dmp with state := 2 } }
def s501 : State := Wt.asked 0x1402 ([0, 8])
def s502 : State := Wt.askedOn 0x1402 ([0, 8]) fun b => { b with dmp := { b.dmp with state := 1 } }
def s503 : State := Wt.asked 0x1403 ([])
def s504 : State := Wt.askedOn 0x1403 ([]) fun b => { b with dmp := { b.dmp with state := 2 } }
def s505 : State := Wt.asked 0x1404 ([116, 0] ++ zeros 118)
def s506 : State := on fun b => { b with rpl := { b.rpl with state := 3, queue := 2050 } }
def s507 : State := on fun b => { b with rpl := { b.rpl with state := 3, mode := true } }
def s508 : State := on fun b => { b with rpl := { b.rpl with state := 3, queue := 2049 }, qmg := { b.qmg with running := true, queues := sput queue0 b.qmg.queues 2049 { inbound := true, consumer := 15, bufs := [7] } } }
def s509 : State := on fun b => { b with rpl := { b.rpl with state := 1 } }
def s510 : State := on fun b => { b with rpl := { b.rpl with accepted := [[1]] } }
def s511 : State := Wt.asked 0x1405 ([1, 0, 0, 8])
def s512 : State := Wt.asked 0x1405 ([0, 0, 255, 255])
def s513 : State := Wt.asked 0x1405 ([1, 0, 0, 0])
def s514 : State := Wt.askedOn 0x1406 ([0, 8, 116, 0] ++ zeros 116) fun b => { b with rst := { b.rst with choice := 8 } }
def s515 : State := Wt.asked 0x1406 ([0, 8, 116, 0] ++ zeros 116)
def s516 : State := Wt.asked 0x1407 ([])
def s517 : State := on fun b => { b with dbg := { b.dbg with scope := 2 }, rst := { b.rst with inReset := true, pinLow := true } }
def s518 : State := on fun b => { b with rst := { b.rst with choice := 5, strapLoaded := true }, key := { b.key with keysReady := true, rngOk := true } }
def s519 : State := on fun b => { b with rst := { b.rst with choice := 5, strapLoaded := true }, key := { b.key with keysReady := true, rngOk := true }, dbg := { b.dbg with challenge := some ([1], 9000000000) } }
def s520 : State := on fun b => { b with dbg := { b.dbg with challenge := some ([1], 5) } }
def s521 : State := on fun b => { b with dbg := { b.dbg with scope := 2 } }
def s522 : State := on fun b => { b with dbg := { b.dbg with scope := 2, haltCarr := true } }

end Wt

/-! ### The hypotheses of the statements are met -/

theorem test_hypotheses_step_runs_front_command : (State.mk {} [.idcode]).pending = [.idcode] ++ [] := by
  decide

theorem test_hypotheses_commands_leave_the_queue : ∃ t, exec .bypass State.reset = .next t := by
  exact ⟨_, rfl⟩

theorem test_hypotheses_idle_step : State.reset.pending = [] := by
  decide

theorem test_hypotheses_reset_window_words : (0, 0, 1279996566) ∈ resetWords ∧ 5 ∈ List.range 0xB80 ∧ (∀ r ∈ resetWords, ¬ (r.1 ≤ 5 ∧ 5 ≤ r.2.1)) := by
  decide +kernel

theorem test_hypotheses_frame_memory_stays_canonical : State.reset.block.frames.wf = true := by
  decide

theorem test_hypotheses_record_memory_stays_canonical : State.reset.block.qmg.sram.wf = true := by
  decide

theorem test_hypotheses_mailbox_buffers_stay_canonical :
    ∀ m, (mbxOf State.reset.block m).req.wf = true ∧ (mbxOf State.reset.block m).resp.wf = true := by
  decide

/-- States and operands that meet the hypotheses of `Obligations.MetrologyInstants`, clause by clause. -/
theorem test_hypotheses_metrology_instants_1 :
    (Wt.s1.block.rpl.mode = false ∧ Wt.s1.block.met.running = true ∧ nextMultiple tSample Wt.s1.block.met.lastSample Wt.s1.block = (now Wt.s1.block).toNat) ∧
    (Wt.s1.block.met.latched = some (2999952000 : U64) ∧ (2999952000 : U64).toNat + 12000 ≤ (now Wt.s1.block).toNat) ∧
    (Wt.s1.block.acc.published = some (2999952000 : U64) ∧ Wt.s1.block.slt.running = true ∧ (2999952000 : U64).toNat + 24000 ≤ (now Wt.s1.block).toNat) ∧
    (Wt.s1.block.acc.priced = some (2999952000 : U64) ∧ Wt.s1.block.bri.running = true ∧ (2999952000 : U64).toNat + 36000 ≤ (now Wt.s1.block).toNat) := by
  decide

/-- States and operands that meet the hypotheses of `Obligations.MetrologyInstants`, clause by clause. -/
theorem test_hypotheses_metrology_instants_2 :
    ((vget Wt.s1.block.pq.phases (3 : Fin 6)).noSync = false ∧ Wt.s1.block.met.running = true ∧ vget Wt.s1.block.tide.zcSeen (3 : Fin 6) = true ∧ (vget Wt.s1.block.tide.zc (3 : Fin 6)).toNat + 90000000 ≤ (now Wt.s1.block).toNat) ∧
    (Wt.s1.block.met.running = true ∧ Wt.s1.block.met.lastSample.isSome = true ∧ ((Wt.s1.block.met.stamp.toNat + tSample) % (if false then 30000000 else 1536000) = 0)) := by
  decide

/-- States and operands that meet the hypotheses of `Obligations.ModulatorsAndSettling`, clause by clause. -/
theorem test_hypotheses_modulators_and_settling_1 :
    (Wt.s2.block.rpl.mode = false ∧ (chanOf Wt.s2.block (45 : Fin 48)).modFault = false) ∧
    (Wt.s3.block.rpl.mode = false ∧ (chanOf Wt.s3.block (45 : Fin 48)).modFault = true) ∧
    (Wt.up.block.rpl.mode = false ∧ (chanOf Wt.up.block (45 : Fin 48)).modFault = false) ∧
    ((chanOf Wt.s4.block (2 : Fin 48)).settled = false ∧ (chanOf Wt.s4.block (2 : Fin 48)).live = true ∧ (chanOf Wt.s4.block (2 : Fin 48)).settleLeft = 0 ∧ Wt.s4.block.met.running = true) := by
  decide

/-- States and operands that meet the hypotheses of `Obligations.EnginesAndLauncher`, clause by clause. -/
theorem test_hypotheses_engines_and_launcher_1 :
    ((9000 : U32).toNat ≤ deadlineOf (3 : Fin 15)) ∧
    (launcherRuns Wt.s5.block = true ∧ (ringOf Wt.s5.block (128 : Fin 1024).val).armed < 8 ∧ armedCount Wt.s5.block < 4096 ∧ (qDequeue agLauncher (128 : Fin 1024).val Wt.s5.block).2 = .ok (7 : Nat)) ∧
    (leastTime (ringItems Wt.s6.block RingItem.isArmed) = some (2999999990 : U64) ∧ launcherRuns Wt.s6.block = true ∧ (2999999990 : U64).toNat ≤ (now Wt.s6.block).toNat) ∧
    (leastTime (ringItems Wt.s7.block RingItem.isDecided) = some (2999999000 : U64) ∧ multipleFrom 16 (2999999000 : U64).toNat + 24 ≤ (now Wt.s7.block).toNat) := by
  decide

/-- States and operands that meet the hypotheses of `Obligations.PpsEdges`, clause by clause. -/
theorem test_hypotheses_pps_edges_1 :
    (Wt.s8.block.rpl.mode = false ∧ Wt.s8.block.tide.ppsEnable = true ∧ Wt.s8.block.tide.running = true ∧ Wt.s8.block.tide.ppsFalling = false ∧ Wt.s8.block.tide.ppsDiscipline = false ∧ (Wt.s8.block.tide.ppsSeen = false ∨ ((((now Wt.s8.block).toNat : Int) - Wt.s8.block.tide.ppsLast.toNat - (tSec : Int)).natAbs ≤ ppsWindow Wt.s8.block.tide))) ∧
    (Wt.s9.block.rpl.mode = false ∧ Wt.s9.block.tide.ppsEnable = true ∧ Wt.s9.block.tide.running = true ∧ Wt.s9.block.tide.ppsFalling = false ∧ Wt.s9.block.tide.ppsSeen = true ∧ ppsWindow Wt.s9.block.tide < (((now Wt.s9.block).toNat : Int) - Wt.s9.block.tide.ppsLast.toNat - (tSec : Int)).natAbs) := by
  decide

/-- States and operands that meet the hypotheses of `Obligations.PpsEdges`, clause by clause. -/
theorem test_hypotheses_pps_edges_2 :
    (Wt.s8.block.tide.ppsEnable = true ∧ Wt.s8.block.tide.ppsState ≠ 3 ∧ Wt.s8.block.tide.ppsSince.toNat + 3000000000 ≤ (now Wt.s8.block).toNat) := by
  decide

/-- States and operands that meet the hypotheses of `Obligations.FabricAndLink`, clause by clause. -/
theorem test_hypotheses_fabric_and_link_1 :
    (Wt.a2lFrame.a2l = true ∧ Wt.a2lFrame.again = false ∧ Wt.up.block.tide.running = true ∧ d2dCrcOk Wt.a2lFrame = true ∧ nextFrame Wt.up.block.d2d.lastA2L Wt.up.block + 24 < 2 ^ 64) ∧
    (({ Wt.a2lFrame with crc := Wt.a2lFrame.crc + 1 }).a2l = true ∧ ({ Wt.a2lFrame with crc := Wt.a2lFrame.crc + 1 }).again = false ∧ Wt.up.block.tide.running = true ∧ d2dCrcOk ({ Wt.a2lFrame with crc := Wt.a2lFrame.crc + 1 }) = false ∧ nextFrame Wt.up.block.d2d.lastA2L Wt.up.block + 24 < 2 ^ 64) := by
  decide

/-- States and operands that meet the hypotheses of `Obligations.FabricAndLink`, clause by clause. -/
theorem test_hypotheses_fabric_and_link_2 :
    (({ Wt.a2lFrame with again := true }).a2l = true ∧ ({ Wt.a2lFrame with again := true }).again = true ∧ Wt.s10.block.tide.running = true ∧ d2dCrcOk ({ Wt.a2lFrame with again := true }) = true ∧ Wt.s10.block.d2d.resend = ((2999999000 : U64), (1 : Nat)) :: (([] : List (U64 × Nat))) ∧ (2999999000 : U64).toNat + (24 + 64 * (1 : Nat)) < 2 ^ 64) ∧
    (Wt.l2aFrame.a2l = false ∧ Wt.up.block.tide.running = true ∧ d2dCrcOk Wt.l2aFrame = true ∧ nextFrame Wt.up.block.d2d.lastL2A Wt.up.block + 24 < 2 ^ 64) ∧
    (({ Wt.l2aFrame with crc := Wt.l2aFrame.crc + 1 }).a2l = false ∧ Wt.up.block.tide.running = true ∧ d2dCrcOk ({ Wt.l2aFrame with crc := Wt.l2aFrame.crc + 1 }) = false ∧ nextFrame Wt.up.block.d2d.lastL2A Wt.up.block + 24 < 2 ^ 64) := by
  decide

/-- States and operands that meet the hypotheses of `Obligations.FabricAndLink`, clause by clause. -/
theorem test_hypotheses_fabric_and_link_3 :
    ((crossOf Wt.s11.block .tideToDyke).copyValid = true ∧ 75000 ≤ (150000 : U32).toNat) ∧
    ((crossOf Wt.up.block .tideToDyke).copyValid = false) ∧
    ((crossOf Wt.s12.block .tideToDyke).copyValid = true ∧ (74999 : U32).toNat < 75000 ∧ 1 ≤ Wt.s12.block.d2d.dykeSlow ∧ Wt.s12.block.rst.dyke = true) ∧
    (Wt.up.block.barrier.isOpen = false) ∧
    (Wt.s13.block.barrier.isOpen = true ∧ Wt.s13.block.barrier.arrived.getLsbD (6 : Fin 7).val = false ∧ (now Wt.s13.block).toNat ≤ Wt.s13.block.barrier.at_.toNat + 3000) ∧
    (Wt.s14.block.barrier.isOpen = true ∧ Wt.s14.block.barrier.arrived = 127#7 ∧ Wt.s14.block.barrier.at_.toNat + 3000 ≤ (now Wt.s14.block).toNat) := by
  decide

/-- States and operands that meet the hypotheses of `Obligations.FabricAndLink`, clause by clause. -/
theorem test_hypotheses_fabric_and_link_4 :
    (Wt.s15.block.barrier.isOpen = true ∧ Wt.s15.block.barrier.arrived ≠ 127#7 ∧ Wt.s15.block.barrier.at_.toNat + 3000 ≤ (now Wt.s15.block).toNat) := by
  decide

/-- States and operands that meet the hypotheses of `Obligations.MailboxProtocol`, clause by clause. -/
theorem test_hypotheses_mailbox_protocol_1 :
    (((mbxOf Wt.up.block (2 : Fin 4)).state = .idle ∨ (mbxOf Wt.up.block (2 : Fin 4)).state = .done) ∧ (reqTag Wt.up.block (2 : Fin 4) = 0 ∨ (mbxOf Wt.up.block (2 : Fin 4)).lastValid = false ∨ (mbxOf Wt.up.block (2 : Fin 4)).lastReq ≠ reqImage Wt.up.block (2 : Fin 4))) ∧
    (((mbxOf Wt.s16.block (0 : Fin 4)).state = .queued ∨ (mbxOf Wt.s16.block (0 : Fin 4)).state = .busy)) ∧
    ((mbxOf Wt.s17.block (0 : Fin 4)).state = .done ∧ reqTag Wt.s17.block (0 : Fin 4) ≠ 0 ∧ (mbxOf Wt.s17.block (0 : Fin 4)).lastValid = true ∧ (mbxOf Wt.s17.block (0 : Fin 4)).lastReq = reqImage Wt.s17.block (0 : Fin 4)) ∧
    ((mbxOf Wt.s18.block (0 : Fin 4)).state = .queued) ∧
    ((mbxOf Wt.s19.block (0 : Fin 4)).state = .done ∧ Wt.s19.block.upd.fetch = none) ∧
    (mayStart Wt.s20.block (0 : Fin 4) = true ∧ Wt.s20.block.tide.running = true ∧ presentedAt (mbxOf Wt.s20.block (0 : Fin 4)).rungAt < 2 ^ 64 ∧ (((reqShape (reqOp Wt.s20.block (0 : Fin 4))).any fun x => lengthOk x Wt.s20.block (0 : Fin 4) && reservedOk x Wt.s20.block (0 : Fin 4)) = true)) := by
  decide

/-- States and operands that meet the hypotheses of `Obligations.MailboxProtocol`, clause by clause. -/
theorem test_hypotheses_mailbox_protocol_2 :
    (mayStart Wt.s21.block (0 : Fin 4) = true ∧ Wt.s21.block.tide.running = true ∧ presentedAt (mbxOf Wt.s21.block (0 : Fin 4)).rungAt < 2 ^ 64 ∧ (reqShape (reqOp Wt.s21.block (0 : Fin 4))).isNone = true) ∧
    ((mbxOf Wt.s22.block (0 : Fin 4)).state = .busy ∧ (mbxOf Wt.s22.block (0 : Fin 4)).answered = true) := by
  decide

theorem test_hypotheses_commands_turned_away : serving Wt.up.block 1 0x0101 = false ∧ Asked (Wt.asked 0x0101 []) 0 0x0101 .sedge ∧
    (serving (Wt.askedOn 0x0101 [] fun b => { b with rst := { b.rst with carr := false } }).block 0 0x0101 = true ∧
      coreRuns (Wt.askedOn 0x0101 [] fun b => { b with rst := { b.rst with carr := false } }).block .carr = false) ∧
    (serving (Wt.askedOn 0x1404 [] fun b => { b with rpl := { b.rpl with mode := true } }).block 0 0x1404 = true ∧ familyOf 0x1404 = 0x14) ∧
    (∀ c ∈ [((6 : Nat), true)], c.2 = true) := by
  decide

/-- States and operands that meet the hypotheses of `Obligations.SystemCommands`, clause by clause. -/
theorem test_hypotheses_system_commands_1 :
    (Asked Wt.s23 (0 : Fin 4) 0x0101 .sedge) ∧
    (Asked Wt.s24 (0 : Fin 4) 0x0102 .sedge) ∧
    (Asked Wt.s25 (0 : Fin 4) 0x0103 .sedge) ∧
    (Asked Wt.s26 (0 : Fin 4) 0x0104 .sedge) ∧
    (Asked Wt.s27 (0 : Fin 4) 0x0140 .sedge ∧ (3 : Fin 15).val = rN Wt.s27.block (0 : Fin 4) 0 1) ∧
    (Asked Wt.s28 (0 : Fin 4) 0x0141 .sedge ∧ (rN Wt.s28.block (0 : Fin 4) 0 1 < 15 ∨ rN Wt.s28.block (0 : Fin 4) 0 1 = 255)) ∧
    (Asked Wt.s29 (0 : Fin 4) 0x0141 .sedge ∧ (¬ (rN Wt.s29.block (0 : Fin 4) 0 1 < 15 ∨ rN Wt.s29.block (0 : Fin 4) 0 1 = 255))) ∧
    (Asked Wt.s30 (0 : Fin 4) 0x0142 .sedge) := by
  decide

/-- States and operands that meet the hypotheses of `Obligations.SystemCommands`, clause by clause. -/
theorem test_hypotheses_system_commands_2 :
    (Asked Wt.s31 (0 : Fin 4) 0x0110 .sedge ∧ rN Wt.s31.block (0 : Fin 4) 0 1 ≤ 2 ∧ (rN Wt.s31.block (0 : Fin 4) 0 1 = 0 → (coreOf (rN Wt.s31.block (0 : Fin 4) 1 1)).isSome = true) ∧ (rN Wt.s31.block (0 : Fin 4) 0 1 = 0 → (rN Wt.s31.block (0 : Fin 4) 1 1 = 1 ∨ rN Wt.s31.block (0 : Fin 4) 1 1 = 2) → allSettled Wt.s31.block = true) ∧ Wt.s31.block.upd.pause.isNone = true ∧ Wt.s31.block.rst.pending = none) ∧
    (Asked Wt.s32 (0 : Fin 4) 0x0110 .sedge ∧ rN Wt.s32.block (0 : Fin 4) 0 1 ≤ 2 ∧ (rN Wt.s32.block (0 : Fin 4) 0 1 = 0 → (coreOf (rN Wt.s32.block (0 : Fin 4) 1 1)).isSome = true) ∧ (rN Wt.s32.block (0 : Fin 4) 0 1 = 0 → (rN Wt.s32.block (0 : Fin 4) 1 1 = 1 ∨ rN Wt.s32.block (0 : Fin 4) 1 1 = 2) → allSettled Wt.s32.block = true) ∧ Wt.s32.block.upd.pause.isNone = true ∧ Wt.s32.block.rst.pending = some (({ scope := .device, source := 5, startAt := 3001500000, command := 3000000000 } : PendingReset))) ∧
    (Asked Wt.s33 (0 : Fin 4) 0x0110 .sedge ∧ 2 < rN Wt.s33.block (0 : Fin 4) 0 1) := by
  decide

/-- States and operands that meet the hypotheses of `Obligations.SystemCommands`, clause by clause. -/
theorem test_hypotheses_system_commands_3 :
    (Asked Wt.s34 (0 : Fin 4) 0x0111 .sedge) := by
  decide

/-- States and operands that meet the hypotheses of `Obligations.TideCommands`, clause by clause. -/
theorem test_hypotheses_tide_commands_1 :
    (Asked Wt.s35 (0 : Fin 4) 0x0201 .sedge ∧ Wt.s35.block.tide.todSec ≠ 0) ∧
    (Asked Wt.s36 (0 : Fin 4) 0x0201 .sedge ∧ Wt.s36.block.tide.todSec = 0) ∧
    (Asked Wt.s37 (0 : Fin 4) 0x0202 .sedge) ∧
    (Asked Wt.s38 (0 : Fin 4) 0x0203 .sedge) ∧
    (Asked Wt.s39 (0 : Fin 4) 0x0204 .sedge ∧ (rBit Wt.s39.block (0 : Fin 4) 16 0 = true ∨ anchorIsEdge Wt.s39.block (r64 Wt.s39.block (0 : Fin 4) 0) = true)) ∧
    (Asked Wt.s40 (0 : Fin 4) 0x0204 .sedge ∧ rBit Wt.s40.block (0 : Fin 4) 16 0 = false ∧ anchorIsEdge Wt.s40.block (r64 Wt.s40.block (0 : Fin 4) 0) = false) ∧
    (Asked Wt.s41 (0 : Fin 4) 0x0205 .sedge ∧ (¬ (1 ≤ rN Wt.s41.block (0 : Fin 4) 0 1 ∧ rN Wt.s41.block (0 : Fin 4) 0 1 ≤ 3))) := by
  decide

/-- States and operands that meet the hypotheses of `Obligations.TideCommands`, clause by clause. -/
theorem test_hypotheses_tide_commands_2 :
    (Asked Wt.s42 (0 : Fin 4) 0x0205 .sedge ∧ 1 ≤ rN Wt.s42.block (0 : Fin 4) 0 1 ∧ rN Wt.s42.block (0 : Fin 4) 0 1 ≤ 3 ∧ queueOk (rN Wt.s42.block (0 : Fin 4) 2 2) true = true ∧ Wt.s42.block.tide.ready = true ∧ (r64 Wt.s42.block (0 : Fin 4) 8 = 0 ∨ (now Wt.s42.block).toNat + 96 ≤ (r64 Wt.s42.block (0 : Fin 4) 8).toNat) ∧ (({ mkEntry tgSnap 2 1 (zeros 32) (ahead Wt.up.block fwLead) with tag := 0 }) = { mkEntry tgSnap (rN Wt.s42.block (0 : Fin 4) 0 1) 1 (zeros 32) (if r64 Wt.s42.block (0 : Fin 4) 8 = 0 then ahead Wt.s42.block fwLead else r64 Wt.s42.block (0 : Fin 4) 8) with tag := BitVec.ofNat 32 (0 : Fin 4).val })) ∧
    (Asked Wt.s43 (0 : Fin 4) 0x0205 .sedge ∧ 1 ≤ rN Wt.s43.block (0 : Fin 4) 0 1 ∧ rN Wt.s43.block (0 : Fin 4) 0 1 ≤ 3 ∧ queueOk (rN Wt.s43.block (0 : Fin 4) 2 2) true = true ∧ Wt.s43.block.tide.ready = true ∧ r64 Wt.s43.block (0 : Fin 4) 8 ≠ 0 ∧ (r64 Wt.s43.block (0 : Fin 4) 8).toNat < (now Wt.s43.block).toNat + 96) := by
  decide

/-- States and operands that meet the hypotheses of `Obligations.TideCommands`, clause by clause. -/
theorem test_hypotheses_tide_commands_3 :
    (Asked Wt.s44 (0 : Fin 4) 0x0206 .sedge ∧ 576 ≤ rN Wt.s44.block (0 : Fin 4) 0 2 ∧ rN Wt.s44.block (0 : Fin 4) 0 2 ≤ 1023 ∧ (entryOf (List.replicate 64 0)) = entryOf (rBytes Wt.s44.block (0 : Fin 4) 8 64) ∧ entryClean (entryOf (List.replicate 64 0)) = true ∧ Wt.s44.block.tide.ready = true) ∧
    (Asked Wt.s45 (0 : Fin 4) 0x0206 .sedge ∧ (rN Wt.s45.block (0 : Fin 4) 0 2 < 576 ∨ 1023 < rN Wt.s45.block (0 : Fin 4) 0 2)) ∧
    (Asked Wt.s46 (0 : Fin 4) 0x0207 .sedge ∧ 576 ≤ rN Wt.s46.block (0 : Fin 4) 0 2 ∧ rN Wt.s46.block (0 : Fin 4) 0 2 ≤ 1023 ∧ Wt.s46.block.tide.ready = true) ∧
    (Asked Wt.s47 (0 : Fin 4) 0x0208 .sedge ∧ rN Wt.s47.block (0 : Fin 4) 0 2 ≤ 1023) := by
  decide

/-- States and operands that meet the hypotheses of `Obligations.TideCommands`, clause by clause. -/
theorem test_hypotheses_tide_commands_4 :
    (Asked Wt.s48 (0 : Fin 4) 0x0208 .sedge ∧ 1023 < rN Wt.s48.block (0 : Fin 4) 0 2) ∧
    (Asked Wt.s49 (0 : Fin 4) 0x0209 .sedge) := by
  decide

/-- States and operands that meet the hypotheses of `Obligations.SealCommands`, clause by clause. -/
theorem test_hypotheses_seal_commands_1 :
    (Asked Wt.s50 (0 : Fin 4) 0x0301 .carr ∧ allQuiet Wt.s50.block = true) ∧
    (Asked Wt.s51 (0 : Fin 4) 0x0301 .carr ∧ allQuiet Wt.s51.block = false) ∧
    (Asked Wt.s52 (0 : Fin 4) 0x0302 .carr ∧ Wt.s52.block.met.sealOpen = true) ∧
    (Asked Wt.s53 (0 : Fin 4) 0x0302 .carr ∧ Wt.s53.block.met.sealOpen = false) ∧
    (Wt.s54.block.met.sealOpen = true ∧ Wt.s54.block.met.sealAt.toNat + 3600 * tSec ≤ (now Wt.s54.block).toNat) := by
  decide

/-- States and operands that meet the hypotheses of `Obligations.MetrologyConfiguration`, clause by clause. -/
theorem test_hypotheses_metrology_configuration_1 :
    (Asked Wt.s55 (0 : Fin 4) 0x0303 .carr ∧ (chanOk Wt.s55.block (0 : Fin 4)).2 = true) ∧
    (Asked Wt.s56 (0 : Fin 4) 0x0304 .carr ∧ (sealOk Wt.s56.block).2 = true ∧ (chanOk Wt.s56.block (0 : Fin 4)).2 = true ∧ sensorFits (reqChan Wt.s56.block (0 : Fin 4)) (fieldOf (rN Wt.s56.block (0 : Fin 4) 4 4) 0 3) = true ∧ (fieldOf (rN Wt.s56.block (0 : Fin 4) 4 4) 0 3 = 4 ∨ fieldOf (rN Wt.s56.block (0 : Fin 4) 4 4) 7 2 = 0) ∧ fieldOf (rN Wt.s56.block (0 : Fin 4) 4 4) 3 3 ≤ 5 ∧ bitOf (rN Wt.s56.block (0 : Fin 4) 4 4) 9 = false ∧ rN Wt.s56.block (0 : Fin 4) 4 4 < 1024 ∧ positiveNormal (r32 Wt.s56.block (0 : Fin 4) 8) 0x49742400 = true ∧ finite (r32 Wt.s56.block (0 : Fin 4) 12) = true ∧ (r32 Wt.s56.block (0 : Fin 4) 12).toNat < 2 ^ 31) := by
  decide

/-- States and operands that meet the hypotheses of `Obligations.MetrologyConfiguration`, clause by clause. -/
theorem test_hypotheses_metrology_configuration_2 :
    (Asked Wt.s57 (0 : Fin 4) 0x0304 .carr ∧ (sealOk Wt.s57.block).2 = true ∧ (chanOk Wt.s57.block (0 : Fin 4)).2 = true ∧ (sensorFits (reqChan Wt.s57.block (0 : Fin 4)) (fieldOf (rN Wt.s57.block (0 : Fin 4) 4 4) 0 3) = false ∨ bitOf (rN Wt.s57.block (0 : Fin 4) 4 4) 9 = true ∨ positiveNormal (r32 Wt.s57.block (0 : Fin 4) 8) 0x49742400 = false)) ∧
    (Asked Wt.s58 (0 : Fin 4) 0x0304 .carr ∧ Wt.s58.block.met.sealOpen = false) ∧
    (Asked Wt.s59 (0 : Fin 4) 0x0305 .carr ∧ (sealOk Wt.s59.block).2 = true ∧ (chanOk Wt.s59.block (0 : Fin 4)).2 = true ∧ tableFault Wt.s59.block (reqChan Wt.s59.block (0 : Fin 4)) (segsOf (rBytes Wt.s59.block (0 : Fin 4) 4 256)) = none) ∧
    (Asked Wt.s60 (0 : Fin 4) 0x0305 .carr ∧ (sealOk Wt.s60.block).2 = true ∧ (chanOk Wt.s60.block (0 : Fin 4)).2 = true ∧ tableFault Wt.s60.block (reqChan Wt.s60.block (0 : Fin 4)) (segsOf (rBytes Wt.s60.block (0 : Fin 4) 4 256)) = some ((0 : Nat), (1 : Nat))) := by
  decide

/-- States and operands that meet the hypotheses of `Obligations.MetrologyConfiguration`, clause by clause. -/
theorem test_hypotheses_metrology_configuration_3 :
    (Asked Wt.s61 (0 : Fin 4) 0x0306 .carr ∧ (sealOk Wt.s61.block).2 = true ∧ (maskOk Wt.s61.block (0 : Fin 4)).2 = true ∧ maskChans Wt.s61.block (0 : Fin 4) = [] ∧ pairsWhole (rN Wt.s61.block (0 : Fin 4) 0 8) = true ∧ r64 Wt.s61.block (0 : Fin 4) 8 = 0 ∧ (nextStamp Wt.s61.block).toNat % tSample = 0 ∧ (now Wt.s61.block).toNat + 96 ≤ (nextStamp Wt.s61.block).toNat) := by
  decide

/-- States and operands that meet the hypotheses of `Obligations.MetrologyConfiguration`, clause by clause. -/
theorem test_hypotheses_metrology_configuration_4 :
    (Asked Wt.s62 (0 : Fin 4) 0x0306 .carr ∧ (sealOk Wt.s62.block).2 = true ∧ (maskOk Wt.s62.block (0 : Fin 4)).2 = true ∧ maskChans Wt.s62.block (0 : Fin 4) ≠ [] ∧ pairsWhole (rN Wt.s62.block (0 : Fin 4) 0 8) = true ∧ (∀ c ∈ maskChans Wt.s62.block (0 : Fin 4), (chanOf Wt.s62.block c).staged.isSome = true) ∧ ((if r64 Wt.s62.block (0 : Fin 4) 8 = 0 then nextStamp Wt.s62.block else r64 Wt.s62.block (0 : Fin 4) 8).toNat % tSample = 0) ∧ ((now Wt.s62.block).toNat + 96 ≤ (if r64 Wt.s62.block (0 : Fin 4) 8 = 0 then nextStamp Wt.s62.block else r64 Wt.s62.block (0 : Fin 4) 8).toNat)) ∧
    (Asked Wt.s63 (0 : Fin 4) 0x0306 .carr ∧ (sealOk Wt.s63.block).2 = true ∧ (maskOk Wt.s63.block (0 : Fin 4)).2 = true ∧ pairsWhole (rN Wt.s63.block (0 : Fin 4) 0 8) = true ∧ (chanOf Wt.s63.block (45 : Fin 48)).staged = none ∧ (45 : Fin 48) ∈ maskChans Wt.s63.block (0 : Fin 4)) := by
  decide

/-- States and operands that meet the hypotheses of `Obligations.MetrologyConfiguration`, clause by clause. -/
theorem test_hypotheses_metrology_configuration_5 :
    (Asked Wt.s64 (0 : Fin 4) 0x0307 .carr ∧ (chanOk Wt.s64.block (0 : Fin 4)).2 = true ∧ rB Wt.s64.block (0 : Fin 4) 1 = 0) ∧
    (Asked Wt.s65 (0 : Fin 4) 0x0307 .carr ∧ (chanOk Wt.s65.block (0 : Fin 4)).2 = true ∧ rB Wt.s65.block (0 : Fin 4) 1 = 1 ∧ (chanOf Wt.s65.block (reqChan Wt.s65.block (0 : Fin 4))).staged = none) ∧
    (Asked Wt.s66 (0 : Fin 4) 0x0308 .carr ∧ (sealOk Wt.s66.block).2 = true ∧ (maskOk Wt.s66.block (0 : Fin 4)).2 = true) := by
  decide

/-- States and operands that meet the hypotheses of `Obligations.MetrologyCommands`, clause by clause. -/
theorem test_hypotheses_metrology_commands_1 :
    (Asked Wt.s67 (0 : Fin 4) 0x0309 .carr ∧ (chanOk Wt.s67.block (0 : Fin 4)).2 = true ∧ 1 ≤ rN Wt.s67.block (0 : Fin 4) 4 4 ∧ rN Wt.s67.block (0 : Fin 4) 4 4 ≤ 1048576 ∧ (r64 Wt.s67.block (0 : Fin 4) 8 = 0 ∨ ((r64 Wt.s67.block (0 : Fin 4) 8).toNat % tSample = 0 ∧ (now Wt.s67.block).toNat + 96 ≤ (r64 Wt.s67.block (0 : Fin 4) 8).toNat))) ∧
    (Asked Wt.s68 (0 : Fin 4) 0x0309 .carr ∧ (chanOk Wt.s68.block (0 : Fin 4)).2 = true ∧ rN Wt.s68.block (0 : Fin 4) 4 4 = 0) ∧
    (Asked Wt.s69 (0 : Fin 4) 0x030A .carr ∧ (chanOk Wt.s69.block (0 : Fin 4)).2 = true ∧ rB Wt.s69.block (0 : Fin 4) 1 = 0) := by
  decide

/-- States and operands that meet the hypotheses of `Obligations.MetrologyCommands`, clause by clause. -/
theorem test_hypotheses_metrology_commands_2 :
    (Asked Wt.s70 (0 : Fin 4) 0x030A .carr ∧ (chanOk Wt.s70.block (0 : Fin 4)).2 = true ∧ rB Wt.s70.block (0 : Fin 4) 1 = 1) ∧
    (Asked Wt.s71 (0 : Fin 4) 0x030A .carr ∧ (chanOk Wt.s71.block (0 : Fin 4)).2 = true ∧ rB Wt.s71.block (0 : Fin 4) 1 = 2) ∧
    (Asked Wt.s72 (0 : Fin 4) 0x030A .carr ∧ (chanOk Wt.s72.block (0 : Fin 4)).2 = true ∧ rB Wt.s72.block (0 : Fin 4) 1 = 3) ∧
    (Asked Wt.s73 (0 : Fin 4) 0x030A .carr ∧ (chanOk Wt.s73.block (0 : Fin 4)).2 = true ∧ 3 < (rB Wt.s73.block (0 : Fin 4) 1).toNat) ∧
    (Asked Wt.s74 (0 : Fin 4) 0x030B .carr ∧ (maskOk Wt.s74.block (0 : Fin 4)).2 = true) := by
  decide

/-- States and operands that meet the hypotheses of `Obligations.MetrologyCommands`, clause by clause. -/
theorem test_hypotheses_metrology_commands_3 :
    (Asked Wt.s75 (0 : Fin 4) 0x0320 .carr ∧ Wt.s75.block.met.sealOpen = false) ∧
    (Asked Wt.s76 (0 : Fin 4) 0x0320 .carr ∧ (sealOk Wt.s76.block).2 = true ∧ (rB Wt.s76.block (0 : Fin 4) 0).toNat < 22 ∧ withinF (r32 Wt.s76.block (0 : Fin 4) 4) (timesRatio (chanOf Wt.s76.block (pairCurr (reqPair Wt.s76.block (0 : Fin 4)))).cfg.iNom 1 100) = true ∧ withinF (r32 Wt.s76.block (0 : Fin 4) 8) (ratioF (exactF (r32 Wt.s76.block (0 : Fin 4) 4) * exactF (pairOf Wt.s76.block (reqPair Wt.s76.block (0 : Fin 4))).uRef) (2 ^ 298)) = true) ∧
    (Asked Wt.s77 (0 : Fin 4) 0x0321 .carr ∧ (sealOk Wt.s77.block).2 = true ∧ (rB Wt.s77.block (0 : Fin 4) 0).toNat < 22 ∧ positiveNormal (r32 Wt.s77.block (0 : Fin 4) 4) 0x44960000 = true) ∧
    (Asked Wt.s78 (0 : Fin 4) 0x0321 .carr ∧ (sealOk Wt.s78.block).2 = true ∧ (22 ≤ (rB Wt.s78.block (0 : Fin 4) 0).toNat ∨ positiveNormal (r32 Wt.s78.block (0 : Fin 4) 4) 0x44960000 = false)) := by
  decide

/-- States and operands that meet the hypotheses of `Obligations.MetrologyCommands`, clause by clause. -/
theorem test_hypotheses_metrology_commands_4 :
    (Asked Wt.s79 (0 : Fin 4) 0x0322 .carr ∧ (rB Wt.s79.block (0 : Fin 4) 0).toNat = (1 : Fin 2).val ∧ pqThresholdsOk (rN Wt.s79.block (0 : Fin 4) 4 2) (rN Wt.s79.block (0 : Fin 4) 6 2) (rN Wt.s79.block (0 : Fin 4) 8 2) (rN Wt.s79.block (0 : Fin 4) 10 2) = true ∧ queueOk (rN Wt.s79.block (0 : Fin 4) 2 2) true = true) ∧
    (Asked Wt.s80 (0 : Fin 4) 0x0323 .carr ∧ energyReg Wt.s80.block (rB Wt.s80.block (0 : Fin 4) 0).toNat = some (((energyReg Wt.up.block 0).get (by decide)))) ∧
    (Asked Wt.s81 (0 : Fin 4) 0x0323 .carr ∧ energyReg Wt.s81.block (rB Wt.s81.block (0 : Fin 4) 0).toNat = none) ∧
    (Asked Wt.s82 (0 : Fin 4) 0x0324 .carr ∧ (sealOk Wt.s82.block).2 = true ∧ rN Wt.s82.block (0 : Fin 4) 0 4 < 2 ^ 22) ∧
    (Asked Wt.s83 (0 : Fin 4) 0x0325 .carr) := by
  decide

/-- States and operands that meet the hypotheses of `Obligations.SluiceInstants`, clause by clause. -/
theorem test_hypotheses_sluice_instants_1 :
    (nextMultiple tFrame Wt.s84.block.slu.boundaryAt Wt.s84.block = (now Wt.s84.block).toNat) ∧
    (Wt.s85.block.slu.latch = some (({ boundary := 2998500000 } : SluLatch)) ∧ (({ boundary := 2998500000 } : SluLatch)).boundary.toNat + 600000 ≤ (now Wt.s85.block).toNat) ∧
    ((sessOf Wt.s86.block (2 : Fin 16)).delayFrom = some (5 : U64) ∧ (sessOf Wt.s86.block (2 : Fin 16)).phase = .admission ∧ (sessOf Wt.s86.block (2 : Fin 16)).served = false ∧ (sessOf Wt.s86.block (2 : Fin 16)).maxDelay ≠ 0 ∧ (5 : U64).toNat + (sessOf Wt.s86.block (2 : Fin 16)).maxDelay.toNat * tSec ≤ (now Wt.s86.block).toNat) ∧
    ((sessOf Wt.s87.block (2 : Fin 16)).rep.outcome = .served ∧ (sessOf Wt.s87.block (2 : Fin 16)).rawReason ≠ (sessOf Wt.s87.block (2 : Fin 16)).rep.reason ∧ Wt.s87.block.slu.reasonHold.toNat ≤ (sessOf Wt.s87.block (2 : Fin 16)).rawSince) ∧
    (1000 ≤ (sessOf Wt.s88.block (2 : Fin 16)).surplusFrames) := by
  decide

/-- States and operands that meet the hypotheses of `Obligations.SluiceInstants`, clause by clause. -/
theorem test_hypotheses_sluice_instants_2 :
    (hoOf Wt.s89.block (3 : Fin 24) = some (({ module := 5, stage := .wait, waited := 100 } : HandOver)) ∧ (({ module := 5, stage := .wait, waited := 100 } : HandOver)).stage = .wait ∧ (({ module := 5, stage := .wait, waited := 100 } : HandOver)).begun = none ∧ 100 ≤ (({ module := 5, stage := .wait, waited := 100 } : HandOver)).waited) ∧
    ((sessOf Wt.s90.block (2 : Fin 16)).phase = .precharge ∧ 32 ≤ (sessOf Wt.s90.block (2 : Fin 16)).prechargeRun ∧ Wt.s90.block.rst.sedge = true) ∧
    ((sessOf Wt.s91.block (2 : Fin 16)).phase = .precharge ∧ (sessOf Wt.s91.block (2 : Fin 16)).prechargeDone = false ∧ (sessOf Wt.s91.block (2 : Fin 16)).enteredAt.toNat + 15000000000 ≤ (now Wt.s91.block).toNat) := by
  decide

/-- States and operands that meet the hypotheses of `Obligations.HandOverInstants`, clause by clause. -/
theorem test_hypotheses_hand_over_instants_1 :
    ((vget Wt.s92.block.snaps 0).seq ≠ 0 ∧ Wt.s92.block.slu.verifiedAt ≠ some (vget Wt.s92.block.snaps 0).instant ∧ (vget Wt.s92.block.snaps 0).instant.toNat + 30000 ≤ (now Wt.s92.block).toNat) ∧
    (nextMultiple tCycle Wt.up.block.slu.evalAt Wt.up.block = (now Wt.up.block).toNat) ∧
    (hoOf Wt.s93.block (3 : Fin 24) = some (({ module := 5, stage := .open, acted := some 7 } : HandOver)) ∧ (({ module := 5, stage := .open, acted := some 7 } : HandOver)).stage = .open ∧ (({ module := 5, stage := .open, acted := some 7 } : HandOver)).acted = some (7 : U64) ∧ (7 : U64).toNat + 30000000 ≤ (now Wt.s93.block).toNat) ∧
    (hoOf Wt.s94.block (3 : Fin 24) = some (({ module := 5, stage := .match_, acted := some 7 } : HandOver)) ∧ (({ module := 5, stage := .match_, acted := some 7 } : HandOver)).stage = .match_ ∧ (({ module := 5, stage := .match_, acted := some 7 } : HandOver)).acted = some (7 : U64) ∧ (7 : U64).toNat + 15000000 ≤ (now Wt.s94.block).toNat) := by
  decide

/-- States and operands that meet the hypotheses of `Obligations.HandOverInstants`, clause by clause. -/
theorem test_hypotheses_hand_over_instants_2 :
    (hoOf Wt.s95.block (3 : Fin 24) = some (({ module := 5, stage := .close, acted := some 7 } : HandOver)) ∧ (({ module := 5, stage := .close, acted := some 7 } : HandOver)).stage = .close ∧ (({ module := 5, stage := .close, acted := some 7 } : HandOver)).acted = some (7 : U64) ∧ (7 : U64).toNat + 30000000 ≤ (now Wt.s95.block).toNat) := by
  decide

/-- States and operands that meet the hypotheses of `Obligations.SluiceCommands`, clause by clause. -/
theorem test_hypotheses_sluice_commands_1 :
    (Asked Wt.s96 (0 : Fin 4) 0x0401 .sedge ∧ 900 ≤ rN Wt.s96.block (0 : Fin 4) 8 2 ∧ rN Wt.s96.block (0 : Fin 4) 8 2 ≤ 1000 ∧ (({ siteImp := 256, siteExp := 256, eta := 950 } : SluLatch)) = { siteImp := (r32 Wt.s96.block (0 : Fin 4) 0).toNat, siteExp := (r32 Wt.s96.block (0 : Fin 4) 4).toNat, eta := rN Wt.s96.block (0 : Fin 4) 8 2 }) ∧
    (Asked Wt.s97 (0 : Fin 4) 0x0401 .sedge ∧ (rN Wt.s97.block (0 : Fin 4) 8 2 < 900 ∨ 1000 < rN Wt.s97.block (0 : Fin 4) 8 2)) ∧
    (Asked Wt.s98 (0 : Fin 4) 0x0402 .sedge ∧ (nodeCheck 0x0401 Wt.s98.block (0 : Fin 4)).2 = true ∧ 1 ≤ rN Wt.s98.block (0 : Fin 4) 1 1 ∧ 1 ≤ rN Wt.s98.block (0 : Fin 4) 2 1 ∧ rN Wt.s98.block (0 : Fin 4) 2 1 ≤ 24 ∧ 1 ≤ rN Wt.s98.block (0 : Fin 4) 6 2 ∧ rN Wt.s98.block (0 : Fin 4) 6 2 ≤ 6000 ∧ ((sessOf Wt.s98.block (reqNode Wt.s98.block (0 : Fin 4))).served = false ∨ rN Wt.s98.block (0 : Fin 4) 2 1 ≤ (sessOf Wt.s98.block (reqNode Wt.s98.block (0 : Fin 4))).floor.toNat ∨ raisedFloorFits (reqNode Wt.s98.block (0 : Fin 4)) (BitVec.ofNat 5 (rN Wt.s98.block (0 : Fin 4) 2 1)) Wt.s98.block = true)) := by
  decide

/-- States and operands that meet the hypotheses of `Obligations.SluiceCommands`, clause by clause. -/
theorem test_hypotheses_sluice_commands_2 :
    (Asked Wt.s99 (0 : Fin 4) 0x0402 .sedge ∧ (nodeCheck 0x0401 Wt.s99.block (0 : Fin 4)).2 = true ∧ rN Wt.s99.block (0 : Fin 4) 1 1 = 0) ∧
    (Asked Wt.s100 (0 : Fin 4) 0x0403 .sedge ∧ zcTolOk (rN Wt.s100.block (0 : Fin 4) 5 1) (rN Wt.s100.block (0 : Fin 4) 6 1) (rN Wt.s100.block (0 : Fin 4) 7 1) = true ∧ queueOk (rN Wt.s100.block (0 : Fin 4) 10 2) true = true) ∧
    (Asked Wt.s101 (0 : Fin 4) 0x0404 .sedge ∧ (nodeCheck 0x0401 Wt.s101.block (0 : Fin 4)).2 = true) ∧
    (Asked Wt.s102 (0 : Fin 4) 0x0405 .sedge) ∧
    (Asked Wt.s103 (0 : Fin 4) 0x0406 .sedge ∧ (moduleCheck 0x0405 Wt.s103.block (0 : Fin 4)).2 = true ∧ (rN Wt.s103.block (0 : Fin 4) 1 1 = 1 ∨ (rN Wt.s103.block (0 : Fin 4) 1 1 = 0 ∧ countsOn Wt.s103.block (reqModule Wt.s103.block (0 : Fin 4)) = none)) ∧ inFlight Wt.s103.block (reqModule Wt.s103.block (0 : Fin 4)) = false) := by
  decide

/-- States and operands that meet the hypotheses of `Obligations.SluiceCommands`, clause by clause. -/
theorem test_hypotheses_sluice_commands_3 :
    (Asked Wt.s104 (0 : Fin 4) 0x0406 .sedge ∧ (moduleCheck 0x0405 Wt.s104.block (0 : Fin 4)).2 = true ∧ rN Wt.s104.block (0 : Fin 4) 1 1 = 0 ∧ inFlight Wt.s104.block (reqModule Wt.s104.block (0 : Fin 4)) = false ∧ (countsOn Wt.s104.block (reqModule Wt.s104.block (0 : Fin 4))).isSome = true) ∧
    (Asked Wt.s105 (0 : Fin 4) 0x0406 .sedge ∧ (moduleCheck 0x0405 Wt.s105.block (0 : Fin 4)).2 = true ∧ rN Wt.s105.block (0 : Fin 4) 1 1 < 2 ∧ inFlight Wt.s105.block (reqModule Wt.s105.block (0 : Fin 4)) = true) ∧
    (Asked Wt.s106 (0 : Fin 4) 0x0407 .sedge) ∧
    (Asked Wt.s107 (0 : Fin 4) 0x0408 .sedge) := by
  decide

/-- States and operands that meet the hypotheses of `Obligations.ModuleLinkCommands`, clause by clause. -/
theorem test_hypotheses_module_link_commands_1 :
    (Asked Wt.s108 (0 : Fin 4) 0x0501 .sedge ∧ (laneCheck Wt.s108.block (0 : Fin 4)).2 = true) ∧
    (Asked Wt.s109 (0 : Fin 4) 0x0502 .sedge ∧ (moduleCheck 0x0502 Wt.s109.block (0 : Fin 4)).2 = true) ∧
    (Asked Wt.s110 (0 : Fin 4) 0x0503 .sedge ∧ Wt.s110.block.mlk.enumBusy = false ∧ ((allLanes.any fun l => bitOf (rN Wt.s110.block (0 : Fin 4) 0 1) l.val && (laneSt Wt.s110.block l).enable) = true)) ∧
    (Asked Wt.s111 (0 : Fin 4) 0x0503 .sedge ∧ Wt.s111.block.mlk.enumBusy = false ∧ ((allLanes.any fun l => bitOf (rN Wt.s111.block (0 : Fin 4) 0 1) l.val && (laneSt Wt.s111.block l).enable) = false)) ∧
    (Asked Wt.s112 (0 : Fin 4) 0x0503 .sedge ∧ Wt.s112.block.mlk.enumBusy = true) ∧
    (Asked Wt.s113 (0 : Fin 4) 0x0504 .sedge ∧ (moduleCheck 0x0502 Wt.s113.block (0 : Fin 4)).2 = true) := by
  decide

/-- States and operands that meet the hypotheses of `Obligations.ModuleLinkCommands`, clause by clause. -/
theorem test_hypotheses_module_link_commands_2 :
    (Asked Wt.s114 (0 : Fin 4) 0x0505 .sedge ∧ (laneCheck Wt.s114.block (0 : Fin 4)).2 = true ∧ rN Wt.s114.block (0 : Fin 4) 2 2 < 4096 ∧ (∀ p : Fin 12, bitOf (rN Wt.s114.block (0 : Fin 4) 2 2) p.val = true ∨ (laneSt Wt.s114.block (reqLane Wt.s114.block (0 : Fin 4))).enrolled.getLsbD p.val = false ∨ modBusy Wt.s114.block (modAt (reqLane Wt.s114.block (0 : Fin 4)) p) = false)) ∧
    (Asked Wt.s115 (0 : Fin 4) 0x0505 .sedge ∧ (laneCheck Wt.s115.block (0 : Fin 4)).2 = true ∧ 4096 ≤ rN Wt.s115.block (0 : Fin 4) 2 2) ∧
    (Asked Wt.s116 (0 : Fin 4) 0x0506 .sedge ∧ (nodeCheck 0x0504 Wt.s116.block (0 : Fin 4)).2 = true ∧ 64 ≤ rN Wt.s116.block (0 : Fin 4) 1 1) ∧
    (Asked Wt.s117 (0 : Fin 4) 0x0506 .sedge ∧ (nodeCheck 0x0504 Wt.s117.block (0 : Fin 4)).2 = true ∧ rN Wt.s117.block (0 : Fin 4) 1 1 < 64) := by
  decide

/-- States and operands that meet the hypotheses of `Obligations.ModuleLinkCommands`, clause by clause. -/
theorem test_hypotheses_module_link_commands_3 :
    (Asked Wt.s118 (0 : Fin 4) 0x0507 .sedge ∧ rN Wt.s118.block (0 : Fin 4) 0 1 < 128) ∧
    (Asked Wt.s119 (0 : Fin 4) 0x0508 .sedge ∧ (moduleCheck 0x0502 Wt.s119.block (0 : Fin 4)).2 = true ∧ 1 ≤ rN Wt.s119.block (0 : Fin 4) 1 1 ∧ (({ code := 0x02, mask := 2, arg := BitVec.ofNat 16 (posOf 17 + 1280) } : Bcast)) = { code := 0x02, mask := BitVec.ofNat 8 (2 ^ (modLane (reqModule Wt.s119.block (0 : Fin 4))).val), arg := BitVec.ofNat 16 (posOf (reqModule Wt.s119.block (0 : Fin 4)) + 256 * rN Wt.s119.block (0 : Fin 4) 1 1) }) ∧
    (Asked Wt.s120 (0 : Fin 4) 0x0508 .sedge ∧ (moduleCheck 0x0502 Wt.s120.block (0 : Fin 4)).2 = true ∧ rN Wt.s120.block (0 : Fin 4) 1 1 = 0) ∧
    (Asked Wt.s121 (0 : Fin 4) 0x0509 .sedge ∧ (laneCheck Wt.s121.block (0 : Fin 4)).2 = true ∧ (((laneModules (reqLane Wt.s121.block (0 : Fin 4))).all fun x => !modBusy Wt.s121.block x) = true)) ∧
    (Asked Wt.s122 (0 : Fin 4) 0x050A .sedge) := by
  decide

/-- States and operands that meet the hypotheses of `Obligations.ModuleLinkInstants`, clause by clause. -/
theorem test_hypotheses_module_link_instants_1 :
    (nextMultiple tCycle (some Wt.s123.block.mlk.cycle) Wt.s123.block = (now Wt.s123.block).toNat) ∧
    (Wt.s124.block.rpl.mode = false ∧ (laneSt Wt.s124.block (1 : Fin 8)).ran = true ∧ Wt.s124.block.mlk.cycle.toNat + 18720 + 3720 * (2 : Fin 12).val ≤ (now Wt.s124.block).toNat) ∧
    (Wt.up.block.rpl.mode = false ∧ vget Wt.up.block.mlk.ocTripped (4 : Fin 16) = false ∧ (phaseOf Wt.up.block (4 : Fin 16)).mayClose = false) ∧
    (Wt.s125.block.rpl.mode = false ∧ vget Wt.s125.block.mlk.ocTripped (4 : Fin 16) = false ∧ (phaseOf Wt.s125.block (4 : Fin 16)).mayClose = true) ∧
    (Wt.s126.block.rpl.mode = false ∧ vget Wt.s126.block.mlk.ocTripped (4 : Fin 16) = true) ∧
    (Wt.s126.block.rpl.mode = false ∧ vget Wt.s126.block.mlk.ocTripped (4 : Fin 16) = true) := by
  decide

/-- States and operands that meet the hypotheses of `Obligations.ModuleLinkInstants`, clause by clause. -/
theorem test_hypotheses_module_link_instants_2 :
    (Wt.up.block.rpl.mode = false ∧ vget Wt.up.block.mlk.ocTripped (4 : Fin 16) = false) ∧
    ((mlkOf Wt.s127.block (17 : Fin 96)).fresh = true ∧ (mlkOf Wt.s127.block (17 : Fin 96)).stamp.toNat + 3 * tCycle ≤ (now Wt.s127.block).toNat) ∧
    ((laneSt Wt.s128.block (3 : Fin 8)).fault = false ∧ (((laneSt Wt.s128.block (3 : Fin 8)).enrolled ≠ 0 ∧ 25 ≤ (laneSt Wt.s128.block (3 : Fin 8)).noPass) ∨ 3 ≤ (laneSt Wt.s128.block (3 : Fin 8)).readbackFails)) ∧
    (((laneSt Wt.up.block (3 : Fin 8)).fault = true ∨ (((laneSt Wt.up.block (3 : Fin 8)).enrolled = 0 ∨ (laneSt Wt.up.block (3 : Fin 8)).noPass < 25) ∧ (laneSt Wt.up.block (3 : Fin 8)).readbackFails < 3))) := by
  decide

/-- States and operands that meet the hypotheses of `Obligations.PilotInstants`, clause by clause. -/
theorem test_hypotheses_pilot_instants_1 :
    (Wt.s129.block.rpl.mode = false ∧ nextSample Wt.s129.block (0 : Fin 16) ((PilotReading.mk false 5 600 0 0)).low = some (now Wt.s129.block).toNat) ∧
    (Wt.s129.block.rpl.mode = false ∧ nextSample Wt.s129.block (0 : Fin 16) ((PilotReading.mk true 0 0 0 0)).low = none) ∧
    ((vehOf Wt.s130.block (2 : Fin 16)).raw ≠ (vehOf Wt.s130.block (2 : Fin 16)).state ∧ Wt.s130.block.vehCfg.debounce.toNat ≤ (vehOf Wt.s130.block (2 : Fin 16)).rawRun ∧ (vehOf Wt.s130.block (2 : Fin 16)).rawAt.toNat + 1500 ≤ (now Wt.s130.block).toNat) ∧
    ((vehOf Wt.s130.block (2 : Fin 16)).state = .b ∧ (vehOf Wt.s130.block (2 : Fin 16)).raw = .c ∧ Wt.s130.block.vehCfg.debounce.toNat ≤ (vehOf Wt.s130.block (2 : Fin 16)).rawRun ∧ (vehOf Wt.s130.block (2 : Fin 16)).rawAt.toNat + 1500 ≤ (now Wt.s130.block).toNat ∧ (phaseOf Wt.s130.block (2 : Fin 16)).mayClose = false) ∧
    (((vehOf Wt.up.block (2 : Fin 16)).state = (vehOf Wt.up.block (2 : Fin 16)).raw ∨ (vehOf Wt.up.block (2 : Fin 16)).rawRun < Wt.up.block.vehCfg.debounce.toNat)) := by
  decide

/-- States and operands that meet the hypotheses of `Obligations.PilotInstants`, clause by clause. -/
theorem test_hypotheses_pilot_instants_2 :
    ((vehOf Wt.s131.block (2 : Fin 16)).diodeFail = false ∧ Wt.s131.block.vehCfg.debounce.toNat ≤ (vehOf Wt.s131.block (2 : Fin 16)).diodeRun ∧ (vehOf Wt.s131.block (2 : Fin 16)).lowAt = some (5 : U64) ∧ (5 : U64).toNat + 1500 ≤ (now Wt.s131.block).toNat) ∧
    ((vehOf Wt.s132.block (2 : Fin 16)).diodeFail = true ∧ Wt.s132.block.vehCfg.debounce.toNat ≤ (vehOf Wt.s132.block (2 : Fin 16)).diodeOkRun ∧ (vehOf Wt.s132.block (2 : Fin 16)).lowAt = some (5 : U64) ∧ (5 : U64).toNat + 1500 ≤ (now Wt.s132.block).toNat) ∧
    ((vehOf Wt.s133.block (2 : Fin 16)).senseFault = false ∧ 3 ≤ (vehOf Wt.s133.block (2 : Fin 16)).mismatchRun) ∧
    ((vehOf Wt.s134.block (2 : Fin 16)).senseFault = true ∧ 100 ≤ (vehOf Wt.s134.block (2 : Fin 16)).matchRun) := by
  decide

/-- States and operands that meet the hypotheses of `Obligations.PilotInstants`, clause by clause. -/
theorem test_hypotheses_pilot_instants_3 :
    (Wt.s135.block.vehCfg.debounce.toNat ≤ (vehOf Wt.s135.block (2 : Fin 16)).ppRun ∧ (vehOf Wt.s135.block (2 : Fin 16)).ppRaw = none ∧ (vehOf Wt.s135.block (2 : Fin 16)).ppValid = true) ∧
    (Wt.s136.block.vehCfg.debounce.toNat ≤ (vehOf Wt.s136.block (2 : Fin 16)).ppRun ∧ (vehOf Wt.s136.block (2 : Fin 16)).ppRaw = some (3 : Fin 8) ∧ (vehOf Wt.s136.block (2 : Fin 16)).ppValid = false ∧ (vehOf Wt.s136.block (2 : Fin 16)).ppChange ≠ some (vehOf Wt.s136.block (2 : Fin 16)).ppAt) ∧
    (Wt.s137.block.vehCfg.debounce.toNat ≤ (vehOf Wt.s137.block (2 : Fin 16)).ppRun ∧ (vehOf Wt.s137.block (2 : Fin 16)).ppRaw = some (3 : Fin 8) ∧ (vehOf Wt.s137.block (2 : Fin 16)).ppValid = true ∧ (vehOf Wt.s137.block (2 : Fin 16)).ppClass.toNat ≠ (3 : Fin 8).val) ∧
    ((vehOf Wt.up.block (2 : Fin 16)).ppRun < Wt.up.block.vehCfg.debounce.toNat) ∧
    ((vehOf Wt.s138.block (2 : Fin 16)).restartUntil = some (5 : U64) ∧ leadBefore (5 : U64) ≤ (now Wt.s138.block).toNat) := by
  decide

/-- States and operands that meet the hypotheses of `Obligations.PilotInstants`, clause by clause. -/
theorem test_hypotheses_pilot_instants_4 :
    (Wt.s139.block.rpl.mode = false ∧ (vehOf Wt.s139.block (2 : Fin 16)).tempAt = some (5 : U64) ∧ (5 : U64).toNat + 100 * tMs ≤ (now Wt.s139.block).toNat) ∧
    (Wt.s140.block.rpl.mode = false ∧ (vehOf Wt.s140.block (2 : Fin 16)).tempAt = none) := by
  decide

/-- States and operands that meet the hypotheses of `Obligations.LockInstants`, clause by clause. -/
theorem test_hypotheses_lock_instants_1 :
    (Wt.s141.block.rpl.mode = false ∧ (vehOf Wt.s141.block (2 : Fin 16)).move = some (({ lock := true, start := 5, tMin := 10, tMax := 60, stallSince := some 200000000 } : LockMove)) ∧ (({ lock := true, start := 5, tMin := 10, tMax := 60, stallSince := some 200000000 } : LockMove)).stallSince = some (200000000 : U64) ∧ (({ lock := true, start := 5, tMin := 10, tMax := 60, stallSince := some 200000000 } : LockMove)).verified = false ∧ (({ lock := true, start := 5, tMin := 10, tMax := 60, stallSince := some 200000000 } : LockMove)).retryAt = none ∧ (200000000 : U64).toNat ≤ (({ lock := true, start := 5, tMin := 10, tMax := 60, stallSince := some 200000000 } : LockMove)).start.toNat + (({ lock := true, start := 5, tMin := 10, tMax := 60, stallSince := some 200000000 } : LockMove)).tMax.toNat * 15000000 ∧ (({ lock := true, start := 5, tMin := 10, tMax := 60, stallSince := some 200000000 } : LockMove)).start.toNat + (({ lock := true, start := 5, tMin := 10, tMax := 60, stallSince := some 200000000 } : LockMove)).tMin.toNat * 15000000 ≤ (200000000 : U64).toNat ∧ (200000000 : U64).toNat + 20 * tMs ≤ (now Wt.s141.block).toNat) := by
  decide

/-- States and operands that meet the hypotheses of `Obligations.LockInstants`, clause by clause. -/
theorem test_hypotheses_lock_instants_2 :
    (Wt.s142.block.rpl.mode = false ∧ (vehOf Wt.s142.block (2 : Fin 16)).move = some (({ lock := true, start := 5, tMin := 10, tMax := 60, stallSince := some 100 } : LockMove)) ∧ (({ lock := true, start := 5, tMin := 10, tMax := 60, stallSince := some 100 } : LockMove)).stallSince = some (100 : U64) ∧ (({ lock := true, start := 5, tMin := 10, tMax := 60, stallSince := some 100 } : LockMove)).verified = false ∧ (({ lock := true, start := 5, tMin := 10, tMax := 60, stallSince := some 100 } : LockMove)).retryAt = none ∧ (100 : U64).toNat ≤ (({ lock := true, start := 5, tMin := 10, tMax := 60, stallSince := some 100 } : LockMove)).start.toNat + (({ lock := true, start := 5, tMin := 10, tMax := 60, stallSince := some 100 } : LockMove)).tMax.toNat * 15000000 ∧ (100 : U64).toNat < (({ lock := true, start := 5, tMin := 10, tMax := 60, stallSince := some 100 } : LockMove)).start.toNat + (({ lock := true, start := 5, tMin := 10, tMax := 60, stallSince := some 100 } : LockMove)).tMin.toNat * 15000000 ∧ (100 : U64).toNat + 20 * tMs ≤ (now Wt.s142.block).toNat) ∧
    ((vehOf Wt.s143.block (2 : Fin 16)).move = some (({ lock := true, start := 5, offAt := some 100 } : LockMove)) ∧ (({ lock := true, start := 5, offAt := some 100 } : LockMove)).offAt = some (100 : U64) ∧ leadBefore (100 : U64) ≤ (now Wt.s143.block).toNat) := by
  decide

/-- States and operands that meet the hypotheses of `Obligations.LockInstants`, clause by clause. -/
theorem test_hypotheses_lock_instants_3 :
    ((vehOf Wt.s144.block (2 : Fin 16)).move = some (({ lock := true, start := 5 } : LockMove)) ∧ (({ lock := true, start := 5 } : LockMove)).verified = false ∧ (({ lock := true, start := 5 } : LockMove)).retryAt = none ∧ (({ lock := true, start := 5 } : LockMove)).stallSince = none ∧ (({ lock := true, start := 5 } : LockMove)).start.toNat + (({ lock := true, start := 5 } : LockMove)).tMax.toNat * 15000000 ≤ (now Wt.s144.block).toNat) ∧
    (Wt.s145.block.rpl.mode = false ∧ (vehOf Wt.s145.block (2 : Fin 16)).move = some (({ lock := true, start := 5, lowSince := some 100 } : LockMove)) ∧ (({ lock := true, start := 5, lowSince := some 100 } : LockMove)).lowSince = some (100 : U64) ∧ (({ lock := true, start := 5, lowSince := some 100 } : LockMove)).verified = false ∧ (({ lock := true, start := 5, lowSince := some 100 } : LockMove)).retryAt = none ∧ (100 : U64).toNat + 100 * tMs ≤ (now Wt.s145.block).toNat) ∧
    ((vehOf Wt.s146.block (2 : Fin 16)).move = some (({ lock := true, start := 5, retryAt := some 100 } : LockMove)) ∧ (({ lock := true, start := 5, retryAt := some 100 } : LockMove)).retryAt = some (100 : U64) ∧ (100 : U64).toNat ≤ (now Wt.s146.block).toNat) := by
  decide

/-- States and operands that meet the hypotheses of `Obligations.LockInstants`, clause by clause. -/
theorem test_hypotheses_lock_instants_4 :
    ((vehOf Wt.up.block (2 : Fin 16)).move = none) := by
  decide

/-- States and operands that meet the hypotheses of `Obligations.ConnectorCommands`, clause by clause. -/
theorem test_hypotheses_connector_commands_1 :
    (Asked Wt.s147 (0 : Fin 4) 0x0601 .sedge ∧ (nodeCheck 0x0601 Wt.s147.block (0 : Fin 4)).2 = true) ∧
    (Asked Wt.s148 (0 : Fin 4) 0x0602 .sedge ∧ (nodeCheck 0x0601 Wt.s148.block (0 : Fin 4)).2 = true ∧ (rBit Wt.s148.block (0 : Fin 4) 1 0 = true → (lsOf Wt.s148.block (reqNode Wt.s148.block (0 : Fin 4))).supply ≠ 0x3F)) ∧
    (Asked Wt.s149 (0 : Fin 4) 0x0602 .sedge ∧ (nodeCheck 0x0601 Wt.s149.block (0 : Fin 4)).2 = true ∧ rBit Wt.s149.block (0 : Fin 4) 1 0 = true ∧ (lsOf Wt.s149.block (reqNode Wt.s149.block (0 : Fin 4))).supply = 0x3F) ∧
    (Asked Wt.s150 (0 : Fin 4) 0x0603 .sedge ∧ 1 ≤ rN Wt.s150.block (0 : Fin 4) 0 1 ∧ rN Wt.s150.block (0 : Fin 4) 0 1 ≤ 15) ∧
    (Asked Wt.s151 (0 : Fin 4) 0x0603 .sedge ∧ (rN Wt.s151.block (0 : Fin 4) 0 1 = 0 ∨ 15 < rN Wt.s151.block (0 : Fin 4) 0 1)) := by
  decide

/-- States and operands that meet the hypotheses of `Obligations.ConnectorCommands`, clause by clause. -/
theorem test_hypotheses_connector_commands_2 :
    (Asked Wt.s152 (0 : Fin 4) 0x0604 .sedge ∧ (((List.range 8).map (reqPpClass Wt.s152.block (0 : Fin 4))).all (fun c => !c.valid || decide (90 ≤ c.centre.toNat ∧ c.centre.toNat ≤ 2000 ∧ 1 ≤ c.rating.toNat ∧ c.rating.toNat ≤ 600)) = true) ∧ ppTableOverlaps ((List.range 8).map (reqPpClass Wt.s152.block (0 : Fin 4))) = false) ∧
    (Asked Wt.s153 (0 : Fin 4) 0x0605 .sedge ∧ 60 ≤ rN Wt.s153.block (0 : Fin 4) 0 1 ∧ rN Wt.s153.block (0 : Fin 4) 0 1 < rN Wt.s153.block (0 : Fin 4) 1 1 ∧ rN Wt.s153.block (0 : Fin 4) 1 1 ≤ 160) ∧
    (Asked Wt.s154 (0 : Fin 4) 0x0605 .sedge ∧ rN Wt.s154.block (0 : Fin 4) 0 1 < 60) := by
  decide

/-- States and operands that meet the hypotheses of `Obligations.ConnectorCommands`, clause by clause. -/
theorem test_hypotheses_connector_commands_3 :
    (Asked Wt.s155 (0 : Fin 4) 0x0606 .sedge ∧ (nodeCheck 0x0601 Wt.s155.block (0 : Fin 4)).2 = true ∧ rN Wt.s155.block (0 : Fin 4) 1 1 < 40 ∧ rN Wt.s155.block (0 : Fin 4) 2 1 < 40 ∧ rN Wt.s155.block (0 : Fin 4) 1 1 ≠ rN Wt.s155.block (0 : Fin 4) 2 1 ∧ fieldOf (rN Wt.s155.block (0 : Fin 4) 4 4) 0 8 < fieldOf (rN Wt.s155.block (0 : Fin 4) 4 4) 8 8 ∧ fieldOf (rN Wt.s155.block (0 : Fin 4) 4 4) 28 4 = 0 ∧ phaseOf Wt.s155.block (reqNode Wt.s155.block (0 : Fin 4)) = .idle ∧ (vehOf Wt.s155.block (reqNode Wt.s155.block (0 : Fin 4))).move = none ∧ lockChanFree Wt.s155.block (reqNode Wt.s155.block (0 : Fin 4)) (rN Wt.s155.block (0 : Fin 4) 1 1) = true ∧ lockChanFree Wt.s155.block (reqNode Wt.s155.block (0 : Fin 4)) (rN Wt.s155.block (0 : Fin 4) 2 1) = true) := by
  decide

/-- States and operands that meet the hypotheses of `Obligations.ConnectorCommands`, clause by clause. -/
theorem test_hypotheses_connector_commands_4 :
    (Asked Wt.s156 (0 : Fin 4) 0x0607 .sedge ∧ (nodeCheck 0x0601 Wt.s156.block (0 : Fin 4)).2 = true ∧ rN Wt.s156.block (0 : Fin 4) 1 1 = 1 ∧ (vehOf Wt.s156.block (reqNode Wt.s156.block (0 : Fin 4))).lockCh ≠ 0x3F ∧ (vehOf Wt.s156.block (reqNode Wt.s156.block (0 : Fin 4))).move = none) ∧
    (Asked Wt.s157 (0 : Fin 4) 0x0607 .sedge ∧ (nodeCheck 0x0601 Wt.s157.block (0 : Fin 4)).2 = true ∧ rN Wt.s157.block (0 : Fin 4) 1 1 = 0 ∧ (vehOf Wt.s157.block (reqNode Wt.s157.block (0 : Fin 4))).unlockCh ≠ 0x3F ∧ (vehOf Wt.s157.block (reqNode Wt.s157.block (0 : Fin 4))).move = none ∧ unlockSafe Wt.s157.block (reqNode Wt.s157.block (0 : Fin 4)) = true) := by
  decide

/-- States and operands that meet the hypotheses of `Obligations.ConnectorCommands`, clause by clause. -/
theorem test_hypotheses_connector_commands_5 :
    (Asked Wt.s158 (0 : Fin 4) 0x0607 .sedge ∧ (nodeCheck 0x0601 Wt.s158.block (0 : Fin 4)).2 = true ∧ rN Wt.s158.block (0 : Fin 4) 1 1 = 0 ∧ (vehOf Wt.s158.block (reqNode Wt.s158.block (0 : Fin 4))).unlockCh ≠ 0x3F ∧ (vehOf Wt.s158.block (reqNode Wt.s158.block (0 : Fin 4))).move = none ∧ unlockSafe Wt.s158.block (reqNode Wt.s158.block (0 : Fin 4)) = false) ∧
    (Asked Wt.s159 (0 : Fin 4) 0x0607 .sedge ∧ (nodeCheck 0x0601 Wt.s159.block (0 : Fin 4)).2 = true ∧ rN Wt.s159.block (0 : Fin 4) 1 1 = 1 ∧ (vehOf Wt.s159.block (reqNode Wt.s159.block (0 : Fin 4))).lockCh = 0x3F) := by
  decide

/-- States and operands that meet the hypotheses of `Obligations.ConnectorCommands`, clause by clause. -/
theorem test_hypotheses_connector_commands_6 :
    (Asked Wt.s160 (0 : Fin 4) 0x0608 .sedge ∧ (nodeCheck 0x0601 Wt.s160.block (0 : Fin 4)).2 = true ∧ 100 ≤ rN Wt.s160.block (0 : Fin 4) 2 2 ∧ rN Wt.s160.block (0 : Fin 4) 2 2 ≤ 4000 ∧ (phaseOf Wt.s160.block (reqNode Wt.s160.block (0 : Fin 4)) = .connected ∨ phaseOf Wt.s160.block (reqNode Wt.s160.block (0 : Fin 4)) = .associating ∨ phaseOf Wt.s160.block (reqNode Wt.s160.block (0 : Fin 4)) = .negotiating)) ∧
    (Asked Wt.s161 (0 : Fin 4) 0x0608 .sedge ∧ (nodeCheck 0x0601 Wt.s161.block (0 : Fin 4)).2 = true ∧ rN Wt.s161.block (0 : Fin 4) 2 2 < 100) ∧
    (Asked Wt.s162 (0 : Fin 4) 0x0609 .sedge) := by
  decide

/-- States and operands that meet the hypotheses of `Obligations.AssociationFrames`, clause by clause. -/
theorem test_hypotheses_association_frames_1 :
    (Wt.s163.block.rpl.mode = false ∧ modemWorks Wt.s163.block (2 : Fin 16) = true ∧ (plcOf Wt.s163.block (2 : Fin 16)).matched = false ∧ ((({ key := { mac := 5, runId := 6, own := none }, set := { ({} : SlacSet) with xtalkAware := true } } : SlacRun)) = (match runFor Wt.s163.block (2 : Fin 16) (5 : BitVec 48) (6 : U64) with | some y => y | none => { key := { mac := (5 : BitVec 48), runId := (6 : U64), own := if Wt.s163.block.plcCfg.set.xtalkAware then none else some (2 : Fin 16) }, set := Wt.s163.block.plcCfg.set }))) ∧
    (Wt.up.block.rpl.mode = false ∧ (modemWorks Wt.up.block (2 : Fin 16) = false ∨ (plcOf Wt.up.block (2 : Fin 16)).matched = true)) ∧
    (Wt.up.block.rpl.mode = false ∧ runFor Wt.up.block (2 : Fin 16) (5 : BitVec 48) (6 : U64) = none) ∧
    (Wt.s164.block.rpl.mode = false ∧ runFor Wt.s164.block (2 : Fin 16) (5 : BitVec 48) (6 : U64) = some (({ key := { mac := 5, runId := 6 }, set := { ({} : SlacSet) with xtalkAware := true } } : SlacRun)) ∧ (({ key := { mac := 5, runId := 6 }, set := { ({} : SlacSet) with xtalkAware := true } } : SlacRun)).starter = none ∧ modemWorks Wt.s164.block (2 : Fin 16) = true ∧ ignoresRun Wt.s164.block (2 : Fin 16) (({ key := { mac := 5, runId := 6 }, set := { ({} : SlacSet) with xtalkAware := true } } : SlacRun)).key = false) := by
  decide

/-- States and operands that meet the hypotheses of `Obligations.AssociationFrames`, clause by clause. -/
theorem test_hypotheses_association_frames_2 :
    (Wt.s165.block.rpl.mode = false ∧ runFor Wt.s165.block (2 : Fin 16) ((SoundReading.mk 5 6 100 200 (Vector.replicate 16 (PortSound.mk false 0 [])))).mac ((SoundReading.mk 5 6 100 200 (Vector.replicate 16 (PortSound.mk false 0 [])))).runId = some (({ key := { mac := 5, runId := 6 }, starter := some 2, announced := 3, decoded := 3 } : SlacRun)) ∧ (({ key := { mac := 5, runId := 6 }, starter := some 2, announced := 3, decoded := 3 } : SlacRun)).starter.isSome = true ∧ modemWorks Wt.s165.block (2 : Fin 16) = true ∧ ignoresRun Wt.s165.block (2 : Fin 16) (({ key := { mac := 5, runId := 6 }, starter := some 2, announced := 3, decoded := 3 } : SlacRun)).key = false ∧ ((({ key := { mac := 5, runId := 6 }, starter := some 2, announced := 3, decoded := 3 } : SlacRun)).windows.find? (fun w => decide (((w.from_.toNat : Int) - ((SoundReading.mk 5 6 100 200 (Vector.replicate 16 (PortSound.mk false 0 [])))).from_.toNat).natAbs ≤ 40)) = none)) ∧
    (Wt.s166.block.rpl.mode = false ∧ runFor Wt.s166.block (2 : Fin 16) ((SoundReading.mk 5 6 100 200 (Vector.replicate 16 (PortSound.mk false 0 [])))).mac ((SoundReading.mk 5 6 100 200 (Vector.replicate 16 (PortSound.mk false 0 [])))).runId = some (({ key := { mac := 5, runId := 6 }, starter := some 2, windows := [{ from_ := 90, to_ := 200, decoder := 2, discarded := false, ports := [] }] } : SlacRun)) ∧ (({ key := { mac := 5, runId := 6 }, starter := some 2, windows := [{ from_ := 90, to_ := 200, decoder := 2, discarded := false, ports := [] }] } : SlacRun)).starter.isSome = true ∧ modemWorks Wt.s166.block (2 : Fin 16) = true ∧ ignoresRun Wt.s166.block (2 : Fin 16) (({ key := { mac := 5, runId := 6 }, starter := some 2, windows := [{ from_ := 90, to_ := 200, decoder := 2, discarded := false, ports := [] }] } : SlacRun)).key = false ∧ ((({ key := { mac := 5, runId := 6 }, starter := some 2, windows := [{ from_ := 90, to_ := 200, decoder := 2, discarded := false, ports := [] }] } : SlacRun)).windows.find? (fun y => decide (((y.from_.toNat : Int) - ((SoundReading.mk 5 6 100 200 (Vector.replicate 16 (PortSound.mk false 0 [])))).from_.toNat).natAbs ≤ 40)) = some (({ from_ := 90, to_ := 200, decoder := 2, discarded := false, ports := [] } : SoundWindow)))) ∧
    (Wt.up.block.rpl.mode = false ∧ runFor Wt.up.block (2 : Fin 16) ((SoundReading.mk 5 6 100 200 (Vector.replicate 16 (PortSound.mk false 0 [])))).mac ((SoundReading.mk 5 6 100 200 (Vector.replicate 16 (PortSound.mk false 0 [])))).runId = none) := by
  decide

/-- States and operands that meet the hypotheses of `Obligations.AssociationFrames`, clause by clause. -/
theorem test_hypotheses_association_frames_3 :
    (runFor Wt.s165.block (2 : Fin 16) (5 : BitVec 48) (6 : U64) = some (({ key := { mac := 5, runId := 6 }, starter := some 2, announced := 3, decoded := 3 } : SlacRun)) ∧ (({ key := { mac := 5, runId := 6 }, starter := some 2, announced := 3, decoded := 3 } : SlacRun)).starter = some (2 : Fin 16) ∧ ((({ key := { mac := 5, runId := 6 }, starter := some 2, announced := 3, decoded := 3 } : SlacRun)).announced ≤ (({ key := { mac := 5, runId := 6 }, starter := some 2, announced := 3, decoded := 3 } : SlacRun)).decoded ∨ (({ key := { mac := 5, runId := 6 }, starter := some 2, announced := 3, decoded := 3 } : SlacRun)).capEnd.toNat ≤ (now Wt.s165.block).toNat)) ∧
    (runFor Wt.up.block (2 : Fin 16) (5 : BitVec 48) (6 : U64) = none) ∧
    (Wt.s167.block.rpl.mode = false ∧ (plcOf Wt.s167.block (2 : Fin 16)).run = some ((({ mac := 5, runId := 6 } : RunKey)), (({} : SlacSet))) ∧ modemWorks Wt.s167.block (2 : Fin 16) = true ∧ (plcOf Wt.s167.block (2 : Fin 16)).slacState = 3 ∧ (({ mac := 5, runId := 6 } : RunKey)).mac = (5 : BitVec 48) ∧ (({ mac := 5, runId := 6 } : RunKey)).runId = (6 : U64)) ∧
    (Wt.s168.block.rpl.mode = false ∧ modemWorks Wt.s168.block (2 : Fin 16) = true ∧ (plcOf Wt.s168.block (2 : Fin 16)).slacState = 4 ∧ phaseOf Wt.s168.block (2 : Fin 16) = .associating) := by
  decide

/-- States and operands that meet the hypotheses of `Obligations.AssociationTimers`, clause by clause. -/
theorem test_hypotheses_association_timers_1 :
    (phaseOf Wt.s169.block (2 : Fin 16) = .associating ∧ (plcOf Wt.s169.block (2 : Fin 16)).slacState = 1 ∧ (plcOf Wt.s169.block (2 : Fin 16)).heardParm = false ∧ (plcOf Wt.s169.block (2 : Fin 16)).timerAt.toNat + (plcOf Wt.s169.block (2 : Fin 16)).assoc.tInit.toNat * tSec ≤ (now Wt.s169.block).toNat) ∧
    (phaseOf Wt.s170.block (2 : Fin 16) = .associating ∧ (plcOf Wt.s170.block (2 : Fin 16)).run = some ((({} : RunKey)), (({} : SlacSet))) ∧ (((plcOf Wt.s170.block (2 : Fin 16)).slacState = 3 ∧ (plcOf Wt.s170.block (2 : Fin 16)).timerAt.toNat + (({} : SlacSet)).tMatch.toNat * tSec ≤ (now Wt.s170.block).toNat) ∨ ((plcOf Wt.s170.block (2 : Fin 16)).slacState = 4 ∧ (plcOf Wt.s170.block (2 : Fin 16)).timerAt.toNat + (({} : SlacSet)).tJoin.toNat * tSec ≤ (now Wt.s170.block).toNat))) ∧
    (phaseOf Wt.up.block (2 : Fin 16) ≠ .associating) ∧
    ((plcOf Wt.s171.block (2 : Fin 16)).slacState = 7 ∧ phaseOf Wt.s171.block (2 : Fin 16) = .associating ∧ leadBefore (plcOf Wt.s171.block (2 : Fin 16)).timerAt ≤ (now Wt.s171.block).toNat) := by
  decide

/-- States and operands that meet the hypotheses of `Obligations.AssociationTimers`, clause by clause. -/
theorem test_hypotheses_association_timers_2 :
    (Wt.s172.block.rpl.mode = false ∧ (plcOf Wt.s172.block (2 : Fin 16)).run = some ((({} : RunKey)), (({} : SlacSet))) ∧ (plcOf Wt.s172.block (2 : Fin 16)).lastRun = some (({} : RunReport)) ∧ (plcOf Wt.s172.block (2 : Fin 16)).slacState = 6 ∧ (((none : Option Nat)) ≠ some ((vehOf Wt.s172.block (2 : Fin 16)).toggles - (plcOf Wt.s172.block (2 : Fin 16)).edgeBase.getD (2 : Fin 16).val 0) ∨ (contestSet Wt.s172.block (2 : Fin 16)).any (fun p => (vehOf Wt.s172.block p).toggles - (plcOf Wt.s172.block (2 : Fin 16)).edgeBase.getD p.val 0 != 0) = true)) ∧
    (Wt.s172.block.rpl.mode = false ∧ (plcOf Wt.s172.block (2 : Fin 16)).run = some ((({} : RunKey)), (({} : SlacSet))) ∧ (plcOf Wt.s172.block (2 : Fin 16)).lastRun = some (({} : RunReport)) ∧ (plcOf Wt.s172.block (2 : Fin 16)).slacState = 6 ∧ ((some 0 : Option Nat)) = some ((vehOf Wt.s172.block (2 : Fin 16)).toggles - (plcOf Wt.s172.block (2 : Fin 16)).edgeBase.getD (2 : Fin 16).val 0) ∧ ((contestSet Wt.s172.block (2 : Fin 16)).all (fun p => (vehOf Wt.s172.block p).toggles - (plcOf Wt.s172.block (2 : Fin 16)).edgeBase.getD p.val 0 == 0) = true)) := by
  decide

/-- States and operands that meet the hypotheses of `Obligations.AssociationTimers`, clause by clause. -/
theorem test_hypotheses_association_timers_3 :
    (Wt.s173.block.rpl.mode = false ∧ modemWorks Wt.s173.block (2 : Fin 16) = true ∧ (plcOf Wt.s173.block (2 : Fin 16)).rateAt = some (5 : U64) ∧ (5 : U64).toNat + tSec ≤ (now Wt.s173.block).toNat) ∧
    (Wt.s174.block.rpl.mode = false ∧ modemWorks Wt.s174.block (2 : Fin 16) = true ∧ (plcOf Wt.s174.block (2 : Fin 16)).rateAt = none) ∧
    (Wt.up.block.rpl.mode = false ∧ modemWorks Wt.up.block (2 : Fin 16) = false) ∧
    (Wt.s175.block.rpl.mode = false ∧ (plcOf Wt.s175.block (2 : Fin 16)).running = true ∧ phaseOf Wt.s175.block (2 : Fin 16) = .idle) := by
  decide

/-- States and operands that meet the hypotheses of `Obligations.AssociationTimers`, clause by clause. -/
theorem test_hypotheses_association_timers_4 :
    (Wt.s176.block.rpl.mode = false ∧ (plcOf Wt.s176.block (2 : Fin 16)).running = true ∧ phaseOf Wt.s176.block (2 : Fin 16) ≠ .idle) ∧
    (Wt.up.block.rpl.mode = false ∧ (plcOf Wt.up.block (2 : Fin 16)).running = false) := by
  decide

/-- States and operands that meet the hypotheses of `Obligations.V2gEvents`, clause by clause. -/
theorem test_hypotheses_v2g_events_1 :
    (Wt.s177.block.rpl.mode = false ∧ Wt.s177.block.rst.sedge = true ∧ (plcOf Wt.s177.block (2 : Fin 16)).linkUp = true ∧ modemWorks Wt.s177.block (2 : Fin 16) = true ∧ v2gReaches (v2gOf Wt.s177.block (2 : Fin 16)) V2gRequest.sdp = true ∧ (v2gPhase (phaseOf Wt.s177.block (2 : Fin 16)) = true ∨ phaseOf Wt.s177.block (2 : Fin 16) = .stopping ∨ (v2gOf Wt.s177.block (2 : Fin 16)).isOpen = true)) ∧
    (Wt.up.block.rpl.mode = false ∧ (Wt.up.block.rst.sedge = false ∨ (plcOf Wt.up.block (2 : Fin 16)).linkUp = false ∨ modemWorks Wt.up.block (2 : Fin 16) = false ∨ v2gReaches (v2gOf Wt.up.block (2 : Fin 16)) V2gRequest.sessionSetup = false)) ∧
    (Wt.s178.block.rst.sedge = true ∧ v2gLive Wt.s178.block (2 : Fin 16) = true ∧ (v2gOf Wt.s178.block (2 : Fin 16)).lastRequest.toNat + (v2gOf Wt.s178.block (2 : Fin 16)).inForce.seqTimeout.toNat * tSec ≤ (now Wt.s178.block).toNat) := by
  decide

/-- States and operands that meet the hypotheses of `Obligations.V2gEvents`, clause by clause. -/
theorem test_hypotheses_v2g_events_2 :
    (Wt.s179.block.rpl.mode = false ∧ (plcOf Wt.s179.block (2 : Fin 16)).linkUp = true ∧ Wt.s179.block.rst.sedge = true ∧ (v2gLive Wt.s179.block (2 : Fin 16) = true ∨ (true = true ∧ phaseOf Wt.s179.block (2 : Fin 16) = .stopping))) ∧
    (Wt.s180.block.rpl.mode = false ∧ (plcOf Wt.s180.block (2 : Fin 16)).linkUp = true ∧ Wt.s180.block.rst.sedge = true ∧ v2gLive Wt.s180.block (2 : Fin 16) = false ∧ (true = false ∨ phaseOf Wt.s180.block (2 : Fin 16) ≠ .stopping)) ∧
    (Wt.up.block.rpl.mode = false ∧ (plcOf Wt.up.block (2 : Fin 16)).linkUp = false) := by
  decide

/-- States and operands that meet the hypotheses of `Obligations.ModemCommands`, clause by clause. -/
theorem test_hypotheses_modem_commands_1 :
    (Asked Wt.s181 (0 : Fin 4) 0x0701 .sedge ∧ (byteAt (rBytes Wt.s181.block (0 : Fin 4) 0 6) 0).getLsbD 0 = false ∧ (byteAt (rBytes Wt.s181.block (0 : Fin 4) 0 6) 5).toNat ≤ 0xE0 ∧ modemBits Wt.s181.block (·.enable) = 0) ∧
    (Asked Wt.s182 (0 : Fin 4) 0x0701 .sedge ∧ (byteAt (rBytes Wt.s182.block (0 : Fin 4) 0 6) 0).getLsbD 0 = true) ∧
    (Asked Wt.s183 (0 : Fin 4) 0x0702 .sedge ∧ rBit Wt.s183.block (0 : Fin 4) 2 0 = true ∧ Wt.s183.block.plcCfg.macBase ≠ 0) ∧
    (Asked Wt.s184 (0 : Fin 4) 0x0702 .sedge ∧ rBit Wt.s184.block (0 : Fin 4) 2 0 = false) ∧
    (Asked Wt.s185 (0 : Fin 4) 0x0702 .sedge ∧ rBit Wt.s185.block (0 : Fin 4) 2 0 = true ∧ Wt.s185.block.plcCfg.macBase = 0) := by
  decide

/-- States and operands that meet the hypotheses of `Obligations.ModemCommands`, clause by clause. -/
theorem test_hypotheses_modem_commands_2 :
    (Asked Wt.s186 (0 : Fin 4) 0x0703 .sedge ∧ (slacSetOf (rN Wt.s186.block (0 : Fin 4) 0 4) (rN Wt.s186.block (0 : Fin 4) 4 4) (rBit Wt.s186.block (0 : Fin 4) 8 0) (rBit Wt.s186.block (0 : Fin 4) 8 1)).ok = true) ∧
    (Asked Wt.s187 (0 : Fin 4) 0x0704 .sedge ∧ 256 ≤ fieldOf (rN Wt.s187.block (0 : Fin 4) 4 4) 0 11 ∧ 1 ≤ fieldOf (rN Wt.s187.block (0 : Fin 4) 4 4) 17 9 ∧ fieldOf (rN Wt.s187.block (0 : Fin 4) 4 4) 26 5 ≤ 20) ∧
    (Asked Wt.s188 (0 : Fin 4) 0x0705 .sedge ∧ (nodeCheck 0x0701 Wt.s188.block (0 : Fin 4)).2 = true) ∧
    (Asked Wt.s189 (0 : Fin 4) 0x0706 .sedge ∧ (nodeCheck 0x0701 Wt.s189.block (0 : Fin 4)).2 = true ∧ (plcOf Wt.s189.block (reqNode Wt.s189.block (0 : Fin 4))).lastRun = some (({} : RunReport))) ∧
    (Asked Wt.s190 (0 : Fin 4) 0x0706 .sedge ∧ (nodeCheck 0x0701 Wt.s190.block (0 : Fin 4)).2 = true ∧ (plcOf Wt.s190.block (reqNode Wt.s190.block (0 : Fin 4))).lastRun = none) := by
  decide

/-- States and operands that meet the hypotheses of `Obligations.ModemCommands`, clause by clause. -/
theorem test_hypotheses_modem_commands_3 :
    (Asked Wt.s191 (0 : Fin 4) 0x0707 .sedge ∧ (nodeCheck 0x0701 Wt.s191.block (0 : Fin 4)).2 = true ∧ rN Wt.s191.block (0 : Fin 4) 1 1 < 16 ∧ (plcOf Wt.s191.block (reqNode Wt.s191.block (0 : Fin 4))).lastRun = some (({} : RunReport)) ∧ (({} : RunReport)).profiles.getD (rN Wt.s191.block (0 : Fin 4) 1 1) [] = []) ∧
    (Asked Wt.s192 (0 : Fin 4) 0x0707 .sedge ∧ (nodeCheck 0x0701 Wt.s192.block (0 : Fin 4)).2 = true ∧ rN Wt.s192.block (0 : Fin 4) 1 1 < 16 ∧ (plcOf Wt.s192.block (reqNode Wt.s192.block (0 : Fin 4))).lastRun = some (({ ({} : RunReport) with profiles := [[1]] } : RunReport)) ∧ (({ ({} : RunReport) with profiles := [[1]] } : RunReport)).profiles.getD (rN Wt.s192.block (0 : Fin 4) 1 1) [] ≠ []) ∧
    (Asked Wt.s193 (0 : Fin 4) 0x0707 .sedge ∧ (nodeCheck 0x0701 Wt.s193.block (0 : Fin 4)).2 = true ∧ rN Wt.s193.block (0 : Fin 4) 1 1 < 16 ∧ (plcOf Wt.s193.block (reqNode Wt.s193.block (0 : Fin 4))).lastRun = none) := by
  decide

/-- States and operands that meet the hypotheses of `Obligations.ModemCommands`, clause by clause. -/
theorem test_hypotheses_modem_commands_4 :
    (Asked Wt.s194 (0 : Fin 4) 0x0708 .sedge) ∧
    (Asked Wt.s195 (0 : Fin 4) 0x0610 .sedge ∧ queueOk (rN Wt.s195.block (0 : Fin 4) 4 2) true = true ∧ 5 ≤ fieldOf (rN Wt.s195.block (0 : Fin 4) 0 4) 16 6 ∧ fieldOf (rN Wt.s195.block (0 : Fin 4) 0 4) 16 6 ≤ 60 ∧ fieldOf (rN Wt.s195.block (0 : Fin 4) 0 4) 0 4 ≠ 0) ∧
    (Asked Wt.s196 (0 : Fin 4) 0x0611 .sedge ∧ queueOk (rN Wt.s196.block (0 : Fin 4) 0 2) false = false) := by
  decide

/-- States and operands that meet the hypotheses of `Obligations.ModemCommands`, clause by clause. -/
theorem test_hypotheses_modem_commands_5 :
    (Asked Wt.s197 (0 : Fin 4) 0x0611 .sedge ∧ queueOk (rN Wt.s197.block (0 : Fin 4) 0 2) false = true ∧ hostDataCheck Wt.s197.block (rN Wt.s197.block (0 : Fin 4) 0 2) (rN Wt.s197.block (0 : Fin 4) 2 2) = 0 ∧ rN Wt.s197.block (0 : Fin 4) 4 2 = (3 : Fin 16).val ∧ slotUsable Wt.s197.block (3 : Fin 16) = true ∧ (vget Wt.s197.block.key.index (3 : Fin 16)).usage = 6 ∧ hostDataBytes Wt.s197.block (rN Wt.s197.block (0 : Fin 4) 0 2) (rN Wt.s197.block (0 : Fin 4) 2 2) ≠ []) ∧
    (Asked Wt.s198 (0 : Fin 4) 0x0612 .sedge ∧ (nodeCheck 0x0601 Wt.s198.block (0 : Fin 4)).2 = true) ∧
    (Asked Wt.s199 (0 : Fin 4) 0x0613 .sedge) := by
  decide

/-- States and operands that meet the hypotheses of `Obligations.InsulationInstants`, clause by clause. -/
theorem test_hypotheses_insulation_instants_1 :
    (Wt.s200.block.rpl.mode = false ∧ (imdOf Wt.s200.block (2 : Fin 16)).slots = (({ start := 12000000 } : ImdSlot)) :: (([] : List ImdSlot)) ∧ (({ start := 12000000 } : ImdSlot)).start.toNat + injLen (periodAt Wt.s200.block.imdG (({ start := 12000000 } : ImdSlot)).start.toNat) + tMs ≤ (now Wt.s200.block).toNat ∧ slotDiscarded Wt.s200.block (2 : Fin 16) (({ start := 12000000 } : ImdSlot)) ((ImdReading.mk (Vector.replicate 8 (ImdSample.mk 0 0 0)) (Vector.replicate 100 (ImdSample.mk 0 0 0)))) = true) ∧
    (Wt.s201.block.rpl.mode = false ∧ (imdOf Wt.s201.block (2 : Fin 16)).slots = (({ start := 12000000, fired := true } : ImdSlot)) :: (([] : List ImdSlot)) ∧ (({ start := 12000000, fired := true } : ImdSlot)).start.toNat + injLen (periodAt Wt.s201.block.imdG (({ start := 12000000, fired := true } : ImdSlot)).start.toNat) + tMs ≤ (now Wt.s201.block).toNat ∧ slotDiscarded Wt.s201.block (2 : Fin 16) (({ start := 12000000, fired := true } : ImdSlot)) ((ImdReading.mk (Vector.replicate 8 (ImdSample.mk 0 24000 24000)) (Vector.replicate 100 (ImdSample.mk 0 24000 24000)))) = false) ∧
    (Wt.up.block.rpl.mode = false ∧ (imdOf Wt.up.block (2 : Fin 16)).slots = []) ∧
    ((imdOf Wt.s202.block (2 : Fin 16)).baselining = true ∧ (imdOf Wt.s202.block (2 : Fin 16)).blLate = false ∧ (imdOf Wt.s202.block (2 : Fin 16)).blFrom.toNat + 20 * cycleLen Wt.s202.block.imdG.period.toNat ≤ (now Wt.s202.block).toNat) ∧
    (((imdOf Wt.up.block (2 : Fin 16)).baselining = false ∨ (imdOf Wt.up.block (2 : Fin 16)).blLate = true)) := by
  decide

/-- States and operands that meet the hypotheses of `Obligations.InsulationInstants`, clause by clause. -/
theorem test_hypotheses_insulation_instants_2 :
    ((imdOf (noteActive Wt.s203.block) (2 : Fin 16)).activeFrom = some (5 : U64) ∧ (imdOf Wt.s203.block (2 : Fin 16)).stale = false ∧ staleFrom (noteActive Wt.s203.block) (2 : Fin 16) (5 : U64) ≤ (now Wt.s203.block).toNat) ∧
    (imdActive Wt.up.block (2 : Fin 16) = false) ∧
    (Wt.up.block.rpl.mode = false ∧ ((24000 : U16).toNat < 20000 ∨ 28000 < (24000 : U16).toNat ∨ (28001 : U16).toNat < 20000 ∨ 28000 < (28001 : U16).toNat) ∧ (3000000000 : Nat) = (now Wt.up.block).toNat / cycleLen (periodAt Wt.up.block.imdG (now Wt.up.block).toNat) * cycleLen (periodAt Wt.up.block.imdG (now Wt.up.block).toNat)) ∧
    (Wt.up.block.rpl.mode = false ∧ 20000 ≤ (20000 : U16).toNat ∧ (20000 : U16).toNat ≤ 28000 ∧ 20000 ≤ (28000 : U16).toNat ∧ (28000 : U16).toNat ≤ 28000) ∧
    ((imdOf Wt.s204.block (2 : Fin 16)).cableCheck = 1 ∧ ((imdOf Wt.s204.block (2 : Fin 16)).checkFrom.toNat + (if (imdOf Wt.s204.block (2 : Fin 16)).uAt.isNone then 5 else 20) * tSec ≤ (now Wt.s204.block).toNat)) := by
  decide

/-- States and operands that meet the hypotheses of `Obligations.InsulationInstants`, clause by clause. -/
theorem test_hypotheses_insulation_instants_3 :
    ((imdOf Wt.up.block (2 : Fin 16)).cableCheck ≠ 1) := by
  decide

/-- States and operands that meet the hypotheses of `Obligations.ResidualInstants`, clause by clause. -/
theorem test_hypotheses_residual_instants_1 :
    ((rcmOf Wt.s205.block (0 : Fin 2)).n ≠ 0 ∧ (Wt.s205.block.met.stamp.toNat + tSample) % 30000000 = 0) ∧
    (((rcmOf Wt.up.block (0 : Fin 2)).n = 0 ∨ (Wt.up.block.met.stamp.toNat + tSample) % 30000000 ≠ 0)) ∧
    ((rcmOf Wt.s206.block (0 : Fin 2)).warn = false ∧ 50 ≤ (rcmOf Wt.s206.block (0 : Fin 2)).warnRun) ∧
    ((rcmOf Wt.s207.block (0 : Fin 2)).warn = true ∧ 50 ≤ (rcmOf Wt.s207.block (0 : Fin 2)).lowRun) ∧
    ((rcmOf Wt.s208.block (0 : Fin 2)).lost = false ∧ 10 ≤ (rcmOf Wt.s208.block (0 : Fin 2)).lostRun) ∧
    (((rcmOf Wt.up.block (0 : Fin 2)).lost = true ∨ (rcmOf Wt.up.block (0 : Fin 2)).lostRun < 10)) ∧
    (Wt.s209.block.rcmTest = some (({ tripAt := some 300, mbx := 0 } : RcmTest)) ∧ (({ tripAt := some 300, mbx := 0 } : RcmTest)).tripAt = some (300 : U64) ∧ (300 : U64).toNat - (({ tripAt := some 300, mbx := 0 } : RcmTest)).start.toNat ≤ 450000000 ∧ (mbxOf Wt.s209.block (({ tripAt := some 300, mbx := 0 } : RcmTest)).mbx).state = .busy) := by
  decide

/-- States and operands that meet the hypotheses of `Obligations.ResidualInstants`, clause by clause. -/
theorem test_hypotheses_residual_instants_2 :
    (Wt.s210.block.rcmTest = some (({ tripAt := some 450000001, mbx := 0 } : RcmTest)) ∧ (({ tripAt := some 450000001, mbx := 0 } : RcmTest)).tripAt = some (450000001 : U64) ∧ 450000000 < (450000001 : U64).toNat - (({ tripAt := some 450000001, mbx := 0 } : RcmTest)).start.toNat ∧ (mbxOf Wt.s210.block (({ tripAt := some 450000001, mbx := 0 } : RcmTest)).mbx).state = .busy) ∧
    (Wt.s211.block.rcmTest = some (({ mbx := 0, off := true } : RcmTest)) ∧ (({ mbx := 0, off := true } : RcmTest)).tripAt = none ∧ (({ mbx := 0, off := true } : RcmTest)).off = true ∧ (({ mbx := 0, off := true } : RcmTest)).start.toNat + 450000000 ≤ (now Wt.s211.block).toNat ∧ (mbxOf Wt.s211.block (({ mbx := 0, off := true } : RcmTest)).mbx).state = .busy) ∧
    (Wt.s212.block.rcmTest = some (({ mbx := 0 } : RcmTest)) ∧ (({ mbx := 0 } : RcmTest)).tripAt = none ∧ (({ mbx := 0 } : RcmTest)).off = false ∧ (({ mbx := 0 } : RcmTest)).until_.toNat ≤ (now Wt.s212.block).toNat) ∧
    (Wt.up.block.rcmTest = none) := by
  decide

/-- States and operands that meet the hypotheses of `Obligations.InsulationCommands`, clause by clause. -/
theorem test_hypotheses_insulation_commands_1 :
    (Asked Wt.s213 (0 : Fin 4) 0x0801 .dyke ∧ rN Wt.s213.block (0 : Fin 4) 0 1 ≤ 3 ∧ 50 ≤ fieldOf (rN Wt.s213.block (0 : Fin 4) 4 4) 0 10 ∧ fieldOf (rN Wt.s213.block (0 : Fin 4) 4 4) 0 10 ≤ 1000 ∧ fieldOf (rN Wt.s213.block (0 : Fin 4) 4 4) 16 7 ≤ 100 ∧ 100 ≤ fieldOf (rN Wt.s213.block (0 : Fin 4) 8 4) 0 11 ∧ fieldOf (rN Wt.s213.block (0 : Fin 4) 8 4) 0 11 ≤ 2000 ∧ 100 ≤ fieldOf (rN Wt.s213.block (0 : Fin 4) 8 4) 16 9 ∧ fieldOf (rN Wt.s213.block (0 : Fin 4) 8 4) 16 9 ≤ 500 ∧ fieldOf (rN Wt.s213.block (0 : Fin 4) 8 4) 16 9 < fieldOf (rN Wt.s213.block (0 : Fin 4) 8 4) 0 11 ∧ allQuiet Wt.s213.block = true ∧ (0 : Nat) = periodAt (periodStep Wt.s213.block).imdG (now Wt.s213.block).toNat) ∧
    (Asked Wt.s214 (0 : Fin 4) 0x0801 .dyke ∧ 3 < rN Wt.s214.block (0 : Fin 4) 0 1) := by
  decide

/-- States and operands that meet the hypotheses of `Obligations.InsulationCommands`, clause by clause. -/
theorem test_hypotheses_insulation_commands_2 :
    (Asked Wt.s215 (0 : Fin 4) 0x0801 .dyke ∧ rN Wt.s215.block (0 : Fin 4) 0 1 ≤ 3 ∧ 50 ≤ fieldOf (rN Wt.s215.block (0 : Fin 4) 4 4) 0 10 ∧ fieldOf (rN Wt.s215.block (0 : Fin 4) 4 4) 0 10 ≤ 1000 ∧ fieldOf (rN Wt.s215.block (0 : Fin 4) 4 4) 16 7 ≤ 100 ∧ 100 ≤ fieldOf (rN Wt.s215.block (0 : Fin 4) 8 4) 0 11 ∧ fieldOf (rN Wt.s215.block (0 : Fin 4) 8 4) 0 11 ≤ 2000 ∧ 100 ≤ fieldOf (rN Wt.s215.block (0 : Fin 4) 8 4) 16 9 ∧ fieldOf (rN Wt.s215.block (0 : Fin 4) 8 4) 16 9 ≤ 500 ∧ fieldOf (rN Wt.s215.block (0 : Fin 4) 8 4) 16 9 < fieldOf (rN Wt.s215.block (0 : Fin 4) 8 4) 0 11 ∧ allQuiet Wt.s215.block = false) ∧
    (Asked Wt.s216 (0 : Fin 4) 0x0802 .dyke) ∧
    (Asked Wt.s217 (0 : Fin 4) 0x0803 .dyke ∧ (nodeCheck 0x0801 Wt.s217.block (0 : Fin 4)).2 = true) := by
  decide

/-- States and operands that meet the hypotheses of `Obligations.InsulationCommands`, clause by clause. -/
theorem test_hypotheses_insulation_commands_3 :
    (Asked Wt.s218 (0 : Fin 4) 0x0804 .dyke) ∧
    (Asked Wt.s219 (0 : Fin 4) 0x0805 .dyke ∧ (rB Wt.s219.block (0 : Fin 4) 0).toNat < 2 ∧ 30 ≤ rN Wt.s219.block (0 : Fin 4) 4 2 ∧ rN Wt.s219.block (0 : Fin 4) 4 2 ≤ 3000 ∧ rN Wt.s219.block (0 : Fin 4) 6 2 < rN Wt.s219.block (0 : Fin 4) 4 2 ∧ 6 ≤ rN Wt.s219.block (0 : Fin 4) 8 2 ∧ rN Wt.s219.block (0 : Fin 4) 8 2 ≤ 1000 ∧ allQuiet Wt.s219.block = true) ∧
    (Asked Wt.s220 (0 : Fin 4) 0x0805 .dyke ∧ 2 ≤ (rB Wt.s220.block (0 : Fin 4) 0).toNat) ∧
    (Asked Wt.s221 (0 : Fin 4) 0x0806 .dyke ∧ (rB Wt.s221.block (0 : Fin 4) 0).toNat < 2) := by
  decide

/-- States and operands that meet the hypotheses of `Obligations.InsulationCommands`, clause by clause. -/
theorem test_hypotheses_insulation_commands_4 :
    (Asked Wt.s222 (0 : Fin 4) 0x0807 .dyke ∧ (rB Wt.s222.block (0 : Fin 4) 0).toNat < 2 ∧ (rB Wt.s222.block (0 : Fin 4) 1).toNat = (7 : Fin 40).val ∧ isLockChan Wt.s222.block (7 : Fin 40).val = false ∧ isSupplyChan Wt.s222.block (7 : Fin 40).val = false ∧ 100 ≤ rN Wt.s222.block (0 : Fin 4) 2 2 ∧ rN Wt.s222.block (0 : Fin 4) 2 2 ≤ 500 ∧ allQuiet Wt.s222.block = true) ∧
    (Asked Wt.s223 (0 : Fin 4) 0x0807 .dyke ∧ (rB Wt.s223.block (0 : Fin 4) 0).toNat < 2 ∧ 40 ≤ (rB Wt.s223.block (0 : Fin 4) 1).toNat) ∧
    (Asked Wt.s224 (0 : Fin 4) 0x0808 .dyke) := by
  decide

/-- States and operands that meet the hypotheses of `Obligations.SafetyInputs`, clause by clause. -/
theorem test_hypotheses_safety_inputs_1 :
    (Wt.up.block.rpl.mode = false ∧ Wt.up.block.tide.ready = true ∧ nextMultiple 15000000 Wt.up.block.safX.pulseAt Wt.up.block = (now Wt.up.block).toNat) ∧
    (Wt.up.block.rpl.mode = false ∧ Wt.up.block.tide.ready = true ∧ nextMultiple 15000000 Wt.up.block.safX.pulseAt Wt.up.block = (now Wt.up.block).toNat ∧ (∀ k, (safPair Wt.up.block k).function = 0) ∧ Wt.up.block.safX.tripsOpen = []) ∧
    (Wt.s225.block.rpl.mode = false ∧ Wt.s225.block.tide.ready = false) ∧
    ((safPair Wt.s226.block (0 : Fin 8)).faultLatched = true ∧ 10 ≤ (safPair Wt.s226.block (0 : Fin 8)).okPeriods) ∧
    (((safPair Wt.up.block (0 : Fin 8)).faultLatched = false ∨ (safPair Wt.up.block (0 : Fin 8)).okPeriods < 10)) := by
  decide

/-- States and operands that meet the hypotheses of `Obligations.SafetyInputs`, clause by clause. -/
theorem test_hypotheses_safety_inputs_2 :
    (Wt.up.block.rpl.mode = false ∧ (safPair Wt.up.block (inputPair (3 : Fin 16))).function = 0) ∧
    (Wt.s227.block.rpl.mode = false ∧ (safPair Wt.s227.block (inputPair (3 : Fin 16))).function ≠ 0 ∧ unblanked (3 : Fin 16) Wt.s227.block = (now Wt.s227.block).toNat) ∧
    (Wt.s228.block.rpl.mode = false ∧ (safPair Wt.s228.block (inputPair (3 : Fin 16))).function ≠ 0) ∧
    (Wt.s229.block.rpl.mode = false) ∧
    (Wt.up.block.rpl.mode = false ∧ Wt.up.block.saf.hubPermit = false) := by
  decide

/-- States and operands that meet the hypotheses of `Obligations.SafetyChannels`, clause by clause. -/
theorem test_hypotheses_safety_channels_1 :
    ((Wt.up.block.saf.dykeAlive = false ∨ dykePaused Wt.up.block = true)) ∧
    (Wt.s230.block.saf.dykeAlive = true ∧ dykePaused Wt.s230.block = false) ∧
    (Wt.s231.block.safX.tripsOpen = (true, (2 : Nat), (5 : U64)) :: (([] : List (Bool × Nat × U64))) ∧ (5 : U64).toNat + 30000000 ≤ (now Wt.s231.block).toNat) ∧
    (Wt.up.block.safX.tripsOpen = []) ∧
    (Wt.up.block.rpl.mode = false) ∧
    (Wt.up.block.rpl.mode = false ∧ false = false ∧ false = false ∧ (Wt.up.block.safX.tripsOpen.find? (fun t => t.2.1 == 16 + (2 : Fin 16).val) = none)) ∧
    (Wt.s232.block.rpl.mode = false) := by
  decide

/-- States and operands that meet the hypotheses of `Obligations.SafetyChannels`, clause by clause. -/
theorem test_hypotheses_safety_channels_2 :
    (Wt.s233.block.rpl.mode = false ∧ (nodeOf Wt.s233.block (2 : Fin 16)).permitHw = true ∧ (nodeOf Wt.s233.block (2 : Fin 16)).closed = true ∧ 88 ≤ (nodeOf Wt.s233.block (2 : Fin 16)).pilotBad) ∧
    (Wt.up.block.rpl.mode = false ∧ ((nodeOf Wt.up.block (2 : Fin 16)).permitHw = false ∨ (nodeOf Wt.up.block (2 : Fin 16)).closed = false ∨ (nodeOf Wt.up.block (2 : Fin 16)).pilotBad < 88)) ∧
    (Wt.up.block.rpl.mode = false ∧ Wt.up.block.tide.ready = true ∧ pulseValid (500000 : Nat) = true ∧ pulseValid (500000 : Nat) = true) ∧
    (Wt.up.block.rpl.mode = false ∧ Wt.up.block.tide.ready = true ∧ pulseValid (0 : Nat) = false ∧ pulseValid (0 : Nat) = false) := by
  decide

/-- States and operands that meet the hypotheses of `Obligations.SafetyChannels`, clause by clause. -/
theorem test_hypotheses_safety_channels_3 :
    (Wt.up.block.rpl.mode = false ∧ Wt.up.block.tide.ready = true ∧ pulseValid (500000 : Nat) ≠ pulseValid (0 : Nat)) ∧
    (Wt.s234.block.saf.resetArmedUntil = some (5 : U64) ∧ (5 : U64).toNat ≤ (now Wt.s234.block).toNat) := by
  decide

/-- States and operands that meet the hypotheses of `Obligations.ContactorInstants`, clause by clause. -/
theorem test_hypotheses_contactor_instants_1 :
    ((nodeOf Wt.up.block (2 : Fin 16)).rampedAt = none) ∧
    ((nodeOf Wt.s235.block (2 : Fin 16)).rampedAt = some (5 : U64) ∧ ((sessOf Wt.s235.block (2 : Fin 16)).zeroVerified = true ∨ (5 : U64).toNat + 30000000 ≤ (now Wt.s235.block).toNat)) ∧
    ((nodeOf Wt.s236.block (2 : Fin 16)).closeAt = some (5 : U64) ∧ (5 : U64).toNat + 50 * tMs ≤ (now Wt.s236.block).toNat) ∧
    ((nodeOf Wt.up.block (2 : Fin 16)).closeAt = none) ∧
    ((nodeOf Wt.s237.block (2 : Fin 16)).openAt = some (5 : U64) ∧ (nodeOf Wt.s237.block (2 : Fin 16)).openLate = true ∧ (5 : U64).toNat + 50 * tMs ≤ (now Wt.s237.block).toNat) ∧
    ((nodeOf Wt.s238.block (2 : Fin 16)).openAt = some (5 : U64) ∧ (nodeOf Wt.s238.block (2 : Fin 16)).openLate = false ∧ (5 : U64).toNat + 10 * tMs ≤ (now Wt.s238.block).toNat ∧ 40 ≤ (lsOf Wt.s238.block (2 : Fin 16)).supply.toNat) := by
  decide

/-- States and operands that meet the hypotheses of `Obligations.ContactorInstants`, clause by clause. -/
theorem test_hypotheses_contactor_instants_2 :
    (vget Wt.s239.block.safX.weldTests (2 : Fin 16) = none ∧ (nodeOf Wt.s239.block (2 : Fin 16)).weldDue = true ∧ (nodeOf Wt.s239.block (2 : Fin 16)).lastOpen.toNat + Wt.s239.block.safX.tDrop.toNat * 15000000 ≤ (now Wt.s239.block).toNat ∧ weldModule Wt.s239.block (2 : Fin 16) = none) ∧
    (vget Wt.s240.block.safX.weldTests (2 : Fin 16) = none ∧ (nodeOf Wt.s240.block (2 : Fin 16)).weldDue = true ∧ (nodeOf Wt.s240.block (2 : Fin 16)).lastOpen.toNat + Wt.s240.block.safX.tDrop.toNat * 15000000 ≤ (now Wt.s240.block).toNat ∧ weldModule Wt.s240.block (2 : Fin 16) = some (5 : Fin 96)) ∧
    (vget Wt.up.block.safX.weldTests (2 : Fin 16) = none ∧ (nodeOf Wt.up.block (2 : Fin 16)).weldDue = false) ∧
    (vget Wt.s241.block.safX.weldTests (2 : Fin 16) = some (({ module := 5 } : WeldTest)) ∧ (({ module := 5 } : WeldTest)).joining = false ∧ (({ module := 5 } : WeldTest)).start.toNat + 30000000 ≤ (now Wt.s241.block).toNat ∧ weldSees Wt.s241.block (2 : Fin 16) (({ module := 5 } : WeldTest)).module = .pass) := by
  decide

/-- States and operands that meet the hypotheses of `Obligations.ContactorInstants`, clause by clause. -/
theorem test_hypotheses_contactor_instants_3 :
    (vget Wt.s242.block.safX.weldTests (2 : Fin 16) = some (({ module := 5 } : WeldTest)) ∧ (({ module := 5 } : WeldTest)).joining = false ∧ (({ module := 5 } : WeldTest)).start.toNat + 30000000 ≤ (now Wt.s242.block).toNat ∧ weldSees Wt.s242.block (2 : Fin 16) (({ module := 5 } : WeldTest)).module = .welded) ∧
    (vget Wt.s243.block.safX.weldTests (2 : Fin 16) = some (({ module := 5 } : WeldTest)) ∧ (({ module := 5 } : WeldTest)).joining = false ∧ (({ module := 5 } : WeldTest)).start.toNat + 30000000 ≤ (now Wt.s243.block).toNat ∧ weldSees Wt.s243.block (2 : Fin 16) (({ module := 5 } : WeldTest)).module = .unclear) ∧
    (firstWindow Wt.s244.block = some (({ until_ := 5 } : Containment)) ∧ (({ until_ := 5 } : Containment)).until_.toNat ≤ (now Wt.s244.block).toNat ∧ (Wt.s244.block.saf.level = 3 ∨ scopeSafe Wt.s244.block (({ until_ := 5 } : Containment)).scope = true)) := by
  decide

/-- States and operands that meet the hypotheses of `Obligations.ContactorInstants`, clause by clause. -/
theorem test_hypotheses_contactor_instants_4 :
    (firstWindow Wt.s245.block = some (({ scope := .node 2, until_ := 5 } : Containment)) ∧ (({ scope := .node 2, until_ := 5 } : Containment)).until_.toNat ≤ (now Wt.s245.block).toNat ∧ Wt.s245.block.saf.level.toNat < 3 ∧ scopeSafe Wt.s245.block (({ scope := .node 2, until_ := 5 } : Containment)).scope = false) ∧
    (firstWindow Wt.up.block = none) := by
  decide

/-- States and operands that meet the hypotheses of `Obligations.SafetyCommands`, clause by clause. -/
theorem test_hypotheses_safety_commands_1 :
    (Asked Wt.s246 (0 : Fin 4) 0x0901 .dyke) ∧
    (Asked Wt.s247 (0 : Fin 4) 0x0902 .dyke ∧ (((List.range 8).all fun k => decide (fieldOf (rN Wt.s247.block (0 : Fin 4) (4 * k) 4) 0 2 ≤ 2 ∧ fieldOf (rN Wt.s247.block (0 : Fin 4) (4 * k) 4) 2 14 = 0)) = true) ∧ Wt.s247.block.vehCfg.tEnd.toNat + 1 ≤ fieldOf (rN Wt.s247.block (0 : Fin 4) 32 4) 0 8 ∧ fieldOf (rN Wt.s247.block (0 : Fin 4) 32 4) 0 8 ≤ 170 ∧ 10 ≤ fieldOf (rN Wt.s247.block (0 : Fin 4) 32 4) 8 8 ∧ fieldOf (rN Wt.s247.block (0 : Fin 4) 32 4) 8 8 ≤ 100 ∧ 2 ≤ fieldOf (rN Wt.s247.block (0 : Fin 4) 32 4) 16 8 ∧ fieldOf (rN Wt.s247.block (0 : Fin 4) 32 4) 16 8 ≤ 10 ∧ fieldOf (rN Wt.s247.block (0 : Fin 4) 32 4) 24 8 = 0 ∧ allQuiet Wt.s247.block = true) ∧
    (Asked Wt.s248 (0 : Fin 4) 0x0902 .dyke ∧ 170 < fieldOf (rN Wt.s248.block (0 : Fin 4) 32 4) 0 8) := by
  decide

/-- States and operands that meet the hypotheses of `Obligations.SafetyCommands`, clause by clause. -/
theorem test_hypotheses_safety_commands_2 :
    (Asked Wt.s249 (0 : Fin 4) 0x0903 .dyke ∧ rN Wt.s249.block (0 : Fin 4) 3 1 ≤ 1 ∧ Wt.s249.block.saf.resetArmedUntil = none) ∧
    (Asked Wt.s250 (0 : Fin 4) 0x0903 .dyke ∧ rN Wt.s250.block (0 : Fin 4) 3 1 ≤ 1 ∧ Wt.s250.block.saf.resetArmedUntil.isSome = true ∧ Wt.s250.block.saf.windows ≠ []) ∧
    (Asked Wt.s251 (0 : Fin 4) 0x0903 .dyke ∧ rN Wt.s251.block (0 : Fin 4) 3 1 ≤ 1 ∧ Wt.s251.block.saf.resetArmedUntil.isSome = true ∧ Wt.s251.block.saf.windows = [] ∧ (([.node 0] : List CScope)) = namedLocks Wt.s251.block (rN Wt.s251.block (0 : Fin 4) 0 2) (rN Wt.s251.block (0 : Fin 4) 2 1) (rN Wt.s251.block (0 : Fin 4) 3 1 == 1) ∧ (([.node 0] : List CScope)) ≠ [] ∧ (∀ x ∈ (([.node 0] : List CScope)), mayClear (updSaf (fun x => { x with resetArmedUntil := none }) Wt.s251.block) x = false)) := by
  decide

/-- States and operands that meet the hypotheses of `Obligations.SafetyCommands`, clause by clause. -/
theorem test_hypotheses_safety_commands_3 :
    (Asked Wt.s252 (0 : Fin 4) 0x0903 .dyke ∧ rN Wt.s252.block (0 : Fin 4) 3 1 ≤ 1 ∧ Wt.s252.block.saf.resetArmedUntil.isSome = true ∧ Wt.s252.block.saf.windows = [] ∧ ((([] : List CScope)) = (namedLocks Wt.s252.block (rN Wt.s252.block (0 : Fin 4) 0 2) (rN Wt.s252.block (0 : Fin 4) 2 1) (rN Wt.s252.block (0 : Fin 4) 3 1 == 1)).filter (mayClear (updSaf (fun x => { x with resetArmedUntil := none }) Wt.s252.block))) ∧ ((([] : List CScope)) = (namedLocks Wt.s252.block (rN Wt.s252.block (0 : Fin 4) 0 2) (rN Wt.s252.block (0 : Fin 4) 2 1) (rN Wt.s252.block (0 : Fin 4) 3 1 == 1)).filter (fun x => !mayClear (updSaf (fun x => { x with resetArmedUntil := none }) Wt.s252.block) x)) ∧ ((([] : List CScope)) ≠ [] ∨ (([] : List CScope)) = [])) := by
  decide

/-- States and operands that meet the hypotheses of `Obligations.SafetyCommands`, clause by clause. -/
theorem test_hypotheses_safety_commands_4 :
    (Asked Wt.s253 (0 : Fin 4) 0x0904 .dyke ∧ (nodeCheck 0x0901 Wt.s253.block (0 : Fin 4)).2 = true ∧ (nodeOf Wt.s253.block (reqNode Wt.s253.block (0 : Fin 4))).openVerified = true ∧ (phaseOf Wt.s253.block (reqNode Wt.s253.block (0 : Fin 4))).mayClose = false ∧ phaseOf Wt.s253.block (reqNode Wt.s253.block (0 : Fin 4)) ≠ .stopping ∧ weldRuns Wt.s253.block (reqNode Wt.s253.block (0 : Fin 4)) = false ∧ (nodeOf Wt.s253.block (reqNode Wt.s253.block (0 : Fin 4))).weldDue = false ∧ weldModule Wt.s253.block (reqNode Wt.s253.block (0 : Fin 4)) = some (5 : Fin 96)) := by
  decide

/-- States and operands that meet the hypotheses of `Obligations.SafetyCommands`, clause by clause. -/
theorem test_hypotheses_safety_commands_5 :
    (Asked Wt.s254 (0 : Fin 4) 0x0904 .dyke ∧ (nodeCheck 0x0901 Wt.s254.block (0 : Fin 4)).2 = true ∧ (nodeOf Wt.s254.block (reqNode Wt.s254.block (0 : Fin 4))).openVerified = true ∧ (phaseOf Wt.s254.block (reqNode Wt.s254.block (0 : Fin 4))).mayClose = false ∧ phaseOf Wt.s254.block (reqNode Wt.s254.block (0 : Fin 4)) ≠ .stopping ∧ weldRuns Wt.s254.block (reqNode Wt.s254.block (0 : Fin 4)) = false ∧ (nodeOf Wt.s254.block (reqNode Wt.s254.block (0 : Fin 4))).weldDue = false ∧ weldModule Wt.s254.block (reqNode Wt.s254.block (0 : Fin 4)) = none ∧ flightCount Wt.s254.block < 24 ∧ weldCandidate Wt.s254.block (reqNode Wt.s254.block (0 : Fin 4)) = some (18 : Fin 96)) ∧
    (Asked Wt.s255 (0 : Fin 4) 0x0904 .dyke ∧ (nodeCheck 0x0901 Wt.s255.block (0 : Fin 4)).2 = true ∧ (nodeOf Wt.s255.block (reqNode Wt.s255.block (0 : Fin 4))).openVerified = false) := by
  decide

/-- States and operands that meet the hypotheses of `Obligations.SafetyCommands`, clause by clause. -/
theorem test_hypotheses_safety_commands_6 :
    (Asked Wt.s256 (0 : Fin 4) 0x0905 .dyke ∧ (nodeCheck 0x0901 Wt.s256.block (0 : Fin 4)).2 = true) ∧
    (Asked Wt.s257 (0 : Fin 4) 0x0906 .dyke) ∧
    (Asked Wt.s258 (0 : Fin 4) 0x0907 .dyke) := by
  decide

/-- States and operands that meet the hypotheses of `Obligations.SwitchInstants`, clause by clause. -/
theorem test_hypotheses_switch_instants_1 :
    (Wt.up.block.rpl.mode = false ∧ nextMultiple 150000 (some (hsOf Wt.up.block (5 : Fin 40)).measAt) Wt.up.block = (now Wt.up.block).toNat) ∧
    (Wt.up.block.rpl.mode = false ∧ nextMultiple 150000 (some (lsOf Wt.up.block (2 : Fin 16)).measAt) Wt.up.block = (now Wt.up.block).toNat) ∧
    (Wt.up.block.rpl.mode = false ∧ (hsOf Wt.up.block (5 : Fin 40)).ot = false) ∧
    (Wt.s259.block.rpl.mode = false ∧ (hsOf Wt.s259.block (5 : Fin 40)).ot = true) ∧
    (Wt.up.block.rpl.mode = false ∧ (lsOf Wt.up.block (2 : Fin 16)).otLatch = false) ∧
    (Wt.s260.block.rpl.mode = false ∧ (lsOf Wt.s260.block (2 : Fin 16)).otLatch = true) ∧
    ((hsOf Wt.up.block (5 : Fin 40)).ot = false) := by
  decide

/-- States and operands that meet the hypotheses of `Obligations.SwitchInstants`, clause by clause. -/
theorem test_hypotheses_switch_instants_2 :
    ((hsOf Wt.s261.block (5 : Fin 40)).ot = true ∧ (hsOf Wt.s261.block (5 : Fin 40)).otLatched = true) ∧
    ((hsOf Wt.s259.block (5 : Fin 40)).ot = true ∧ (hsOf Wt.s259.block (5 : Fin 40)).otLatched = false ∧ (((hsOf Wt.s259.block (5 : Fin 40)).restarts.filter fun i => !passed Wt.s259.block i (10 * tSec)).length < 8)) ∧
    ((hsOf Wt.s262.block (5 : Fin 40)).ot = true ∧ (hsOf Wt.s262.block (5 : Fin 40)).otLatched = false ∧ (8 ≤ ((hsOf Wt.s262.block (5 : Fin 40)).restarts.filter fun i => !passed Wt.s262.block i (10 * tSec)).length)) ∧
    (Wt.s263.block.rpl.mode = false ∧ ((799 : U16).toNat < 800 ∨ 3800 < (799 : U16).toNat) ∧ Wt.s263.block.lsw.vinOk = true) := by
  decide

/-- States and operands that meet the hypotheses of `Obligations.SwitchInstants`, clause by clause. -/
theorem test_hypotheses_switch_instants_3 :
    (Wt.up.block.rpl.mode = false ∧ 850 ≤ (2400 : U16).toNat ∧ (2400 : U16).toNat ≤ 3750 ∧ Wt.up.block.lsw.vinOk = false) ∧
    (Wt.up.block.rpl.mode = false ∧ ((800 ≤ (800 : U16).toNat ∧ (800 : U16).toNat < 850) ∨ (3750 < (800 : U16).toNat ∧ (800 : U16).toNat ≤ 3800) ∨ (850 ≤ (800 : U16).toNat ∧ (800 : U16).toNat ≤ 3750 ∧ Wt.up.block.lsw.vinOk = true) ∨ (((800 : U16).toNat < 800 ∨ 3800 < (800 : U16).toNat) ∧ Wt.up.block.lsw.vinOk = false))) ∧
    ((lsOf Wt.s264.block (2 : Fin 16)).econ = 1 ∧ (lsOf Wt.s264.block (2 : Fin 16)).turnOn.toNat + (lsOf Wt.s264.block (2 : Fin 16)).tPull.toNat * tMs ≤ (now Wt.s264.block).toNat) ∧
    ((lsOf Wt.up.block (2 : Fin 16)).econ ≠ 1) := by
  decide

/-- States and operands that meet the hypotheses of `Obligations.SwitchInstants`, clause by clause. -/
theorem test_hypotheses_switch_instants_4 :
    ((lsOf Wt.s265.block (2 : Fin 16)).econ = 2 ∧ (lsOf Wt.s265.block (2 : Fin 16)).learned = false ∧ (lsOf Wt.s265.block (2 : Fin 16)).holdAt.toNat + 200 * tMs ≤ (now Wt.s265.block).toNat) ∧
    (((lsOf Wt.up.block (2 : Fin 16)).econ ≠ 2 ∨ (lsOf Wt.up.block (2 : Fin 16)).learned = true)) ∧
    (nextMultiple tMs Wt.up.block.lsw.pkgAt Wt.up.block = (now Wt.up.block).toNat ∧ (0 : Nat) = (Wt.up.block.lsw.hs.toList.map (·.current.toNat)).sum ∧ (0 : Nat) = (((0 : Nat) :: Wt.up.block.lsw.window).take 1000).sum / 1000) ∧
    (Wt.up.block.rpl.mode = false) ∧
    (Wt.up.block.rpl.mode = false ∧ (BackupKept.all = .all ∨ (BackupKept.all = .noMap ∧ Wt.up.block.lsw.limpValid = false))) ∧
    (Wt.up.block.rpl.mode = false ∧ (BackupKept.none = .none ∨ (BackupKept.none = .noMap ∧ Wt.up.block.lsw.limpValid = true))) := by
  decide

/-- States and operands that meet the hypotheses of `Obligations.SwitchCommands`, clause by clause. -/
theorem test_hypotheses_switch_commands_1 :
    (Asked Wt.s266 (0 : Fin 4) 0x0A01 .sedge ∧ (rB Wt.s266.block (0 : Fin 4) 0).toNat < 40 ∧ fieldOf (rN Wt.s266.block (0 : Fin 4) 4 4) 0 2 ≤ 2 ∧ fieldOf (rN Wt.s266.block (0 : Fin 4) 4 4) 11 21 = 0 ∧ (hsOf Wt.s266.block (reqHs Wt.s266.block (0 : Fin 4))).outOn = false ∧ mapped Wt.s266.block (reqHs Wt.s266.block (0 : Fin 4)) = false ∧ ((if fieldOf (rN Wt.s266.block (0 : Fin 4) 4 4) 0 2 = 2 then isLockChan Wt.s266.block (reqHs Wt.s266.block (0 : Fin 4)).val else isSupplyChan Wt.s266.block (reqHs Wt.s266.block (0 : Fin 4)).val) = false)) ∧
    (Asked Wt.s267 (0 : Fin 4) 0x0A01 .sedge ∧ 40 ≤ (rB Wt.s267.block (0 : Fin 4) 0).toNat) := by
  decide

/-- States and operands that meet the hypotheses of `Obligations.SwitchCommands`, clause by clause. -/
theorem test_hypotheses_switch_commands_2 :
    (Asked Wt.s268 (0 : Fin 4) 0x0A02 .sedge ∧ (rB Wt.s268.block (0 : Fin 4) 0).toNat < 40 ∧ (rB Wt.s268.block (0 : Fin 4) 1).toNat ≤ 1 ∧ (rN Wt.s268.block (0 : Fin 4) 2 2 = 0xFFFF ∨ (rN Wt.s268.block (0 : Fin 4) 2 2 ≤ 1000 ∧ (hsOf Wt.s268.block (reqHs Wt.s268.block (0 : Fin 4))).mode = 1)) ∧ (hsOf Wt.s268.block (reqHs Wt.s268.block (0 : Fin 4))).mode ≠ 2 ∧ lockInUse Wt.s268.block (reqHs Wt.s268.block (0 : Fin 4)) = false ∧ underTest Wt.s268.block (reqHs Wt.s268.block (0 : Fin 4)) = false) ∧
    (Asked Wt.s269 (0 : Fin 4) 0x0A02 .sedge ∧ (rB Wt.s269.block (0 : Fin 4) 0).toNat < 40 ∧ 1 < (rB Wt.s269.block (0 : Fin 4) 1).toNat) ∧
    (Asked Wt.s270 (0 : Fin 4) 0x0A03 .sedge ∧ (rB Wt.s270.block (0 : Fin 4) 0).toNat < 40) := by
  decide

/-- States and operands that meet the hypotheses of `Obligations.SwitchCommands`, clause by clause. -/
theorem test_hypotheses_switch_commands_3 :
    (Asked Wt.s271 (0 : Fin 4) 0x0A04 .sedge ∧ (rB Wt.s271.block (0 : Fin 4) 0).toNat < 40 ∧ (hsOf Wt.s271.block (reqHs Wt.s271.block (0 : Fin 4))).tied = false ∧ ((hsOf Wt.s271.block (reqHs Wt.s271.block (0 : Fin 4))).shortVin = false ∨ ((hsOf Wt.s271.block (reqHs Wt.s271.block (0 : Fin 4))).outOn = false ∧ 10 * (hsOf Wt.s271.block (reqHs Wt.s271.block (0 : Fin 4))).voltage.toNat < 2 * Wt.s271.block.lsw.vin.toNat))) ∧
    (Asked Wt.s272 (0 : Fin 4) 0x0A04 .sedge ∧ (rB Wt.s272.block (0 : Fin 4) 0).toNat < 40 ∧ (hsOf Wt.s272.block (reqHs Wt.s272.block (0 : Fin 4))).tied = true ∧ ((hsOf Wt.s272.block (reqHs Wt.s272.block (0 : Fin 4))).shortVin = false ∨ ((hsOf Wt.s272.block (reqHs Wt.s272.block (0 : Fin 4))).outOn = false ∧ 10 * (hsOf Wt.s272.block (reqHs Wt.s272.block (0 : Fin 4))).voltage.toNat < 2 * Wt.s272.block.lsw.vin.toNat))) ∧
    (Asked Wt.s273 (0 : Fin 4) 0x0A04 .sedge ∧ (rB Wt.s273.block (0 : Fin 4) 0).toNat < 40 ∧ (hsOf Wt.s273.block (reqHs Wt.s273.block (0 : Fin 4))).shortVin = true ∧ (hsOf Wt.s273.block (reqHs Wt.s273.block (0 : Fin 4))).outOn = true) := by
  decide

/-- States and operands that meet the hypotheses of `Obligations.SwitchCommands`, clause by clause. -/
theorem test_hypotheses_switch_commands_4 :
    (Asked Wt.s274 (0 : Fin 4) 0x0A05 .dyke ∧ (nodeCheck 0x0A01 Wt.s274.block (0 : Fin 4)).2 = true ∧ 20 ≤ fieldOf (rN Wt.s274.block (0 : Fin 4) 4 4) 0 8 ∧ fieldOf (rN Wt.s274.block (0 : Fin 4) 4 4) 0 8 ≤ 250 ∧ 20 ≤ fieldOf (rN Wt.s274.block (0 : Fin 4) 4 4) 8 8 ∧ fieldOf (rN Wt.s274.block (0 : Fin 4) 4 4) 8 8 ≤ fieldOf (rN Wt.s274.block (0 : Fin 4) 4 4) 0 8 ∧ 5 ≤ fieldOf (rN Wt.s274.block (0 : Fin 4) 4 4) 16 8 ∧ fieldOf (rN Wt.s274.block (0 : Fin 4) 4 4) 16 8 ≤ 80 ∧ fieldOf (rN Wt.s274.block (0 : Fin 4) 4 4) 16 8 < fieldOf (rN Wt.s274.block (0 : Fin 4) 4 4) 8 8 ∧ 3 ≤ fieldOf (rN Wt.s274.block (0 : Fin 4) 4 4) 24 8 ∧ fieldOf (rN Wt.s274.block (0 : Fin 4) 4 4) 24 8 + 5 ≤ fieldOf (rN Wt.s274.block (0 : Fin 4) 4 4) 16 8 ∧ 20 ≤ fieldOf (rN Wt.s274.block (0 : Fin 4) 8 4) 0 7 ∧ fieldOf (rN Wt.s274.block (0 : Fin 4) 8 4) 0 7 ≤ 80 ∧ 20 ≤ fieldOf (rN Wt.s274.block (0 : Fin 4) 8 4) 16 16 ∧ fieldOf (rN Wt.s274.block (0 : Fin 4) 8 4) 16 16 ≤ 1000 ∧ fieldOf (rN Wt.s274.block (0 : Fin 4) 8 4) 8 6 = 0x3F ∧ fieldOf (rN Wt.s274.block (0 : Fin 4) 8 4) 7 1 = 0 ∧ fieldOf (rN Wt.s274.block (0 : Fin 4) 8 4) 14 2 = 0 ∧ quiet Wt.s274.block (reqNode Wt.s274.block (0 : Fin 4)) = true ∧ quiet Wt.s274.block (otherNode (reqNode Wt.s274.block (0 : Fin 4))) = true) := by
  decide

/-- States and operands that meet the hypotheses of `Obligations.SwitchCommands`, clause by clause. -/
theorem test_hypotheses_switch_commands_5 :
    (Asked Wt.s275 (0 : Fin 4) 0x0A06 .sedge ∧ (nodeCheck 0x0A01 Wt.s275.block (0 : Fin 4)).2 = true) ∧
    (Asked Wt.s276 (0 : Fin 4) 0x0A07 .sedge ∧ (∀ c : Fin 40, (BitVec.ofNat 4 (fieldOf (rB Wt.s276.block (0 : Fin 4) (c.val / 2)).toNat (4 * (c.val % 2)) 4)).getLsbD 3 = true → (hsOf Wt.s276.block c).mode ≠ 2 ∧ isLockChan Wt.s276.block c.val = false) ∧ (((allHs.filter fun c => (BitVec.ofNat 4 (fieldOf (rB Wt.s276.block (0 : Fin 4) (c.val / 2)).toNat (4 * (c.val % 2)) 4)).getLsbD 3).map fun c => curveIn (hsOf Wt.s276.block c).curveNow).sum ≤ 12000)) ∧
    (Asked Wt.s277 (0 : Fin 4) 0x0A08 .sedge) ∧
    (Asked Wt.s278 (0 : Fin 4) 0x0A09 .sedge) := by
  decide

/-- States and operands that meet the hypotheses of `Obligations.ArbiterWinner`, clause by clause. -/
theorem test_hypotheses_arbiter_winner_1 :
    (Wt.s279.block.rst.pending = none ∧ Wt.s279.block.arb.win = none ∧ (4 : Fin 6) ∈ present Wt.s279.block ∧ (reqOf Wt.s279.block (4 : Fin 6)).forced = true ∧ (∀ r ∈ present Wt.s279.block, (reqOf Wt.s279.block r).forced = true → (4 : Fin 6) ≤ r)) ∧
    (Wt.s280.block.rst.pending = none ∧ Wt.s280.block.arb.win = none ∧ (2 : Fin 6) ∈ present Wt.s280.block ∧ (∀ r ∈ present Wt.s280.block, (reqOf Wt.s280.block r).forced = false) ∧ (∀ r ∈ present Wt.s280.block, (2 : Fin 6) ≤ r)) := by
  decide

/-- States and operands that meet the hypotheses of `Obligations.StoreInstants`, clause by clause. -/
theorem test_hypotheses_store_instants_1 :
    ((reqOf Wt.up.block (2 : Fin 6)).masked = false ∧ 1 ≤ ((PeatWrite.mk 47616 [zeros 64])).lines.length ∧ ((PeatWrite.mk 47616 [zeros 64])).lines.length ≤ 16 ∧ (∀ i, i < ((PeatWrite.mk 47616 [zeros 64])).lines.length → lineOpen Wt.up.block (2 : Fin 6) (((PeatWrite.mk 47616 [zeros 64])).first + i) = true)) ∧
    ((reqOf Wt.up.block (2 : Fin 6)).masked = false ∧ (((PeatWrite.mk 47615 [zeros 64])).lines.length = 0 ∨ 16 < ((PeatWrite.mk 47615 [zeros 64])).lines.length ∨ ∃ i, i < ((PeatWrite.mk 47615 [zeros 64])).lines.length ∧ lineOpen Wt.up.block (2 : Fin 6) (((PeatWrite.mk 47615 [zeros 64])).first + i) = false)) ∧
    ((reqOf Wt.s281.block (2 : Fin 6)).masked = true) ∧
    (Wt.s282.block.rpl.mode = false ∧ feederHalted Wt.s282.block = true) ∧
    (Wt.s283.block.rpl.mode = false ∧ feederHalted Wt.s283.block = false) := by
  decide

/-- States and operands that meet the hypotheses of `Obligations.StoreInstants`, clause by clause. -/
theorem test_hypotheses_store_instants_2 :
    (Wt.up.block.rpl.mode = false ∧ feederHalted Wt.up.block = false ∧ Wt.up.block.arb.cur = none ∧ Wt.up.block.upd.commit = none ∧ Wt.up.block.upd.pause = none ∧ Wt.up.block.btn.clearMbx = none ∧ Wt.up.block.dbg.granting = none) ∧
    ((reqOf Wt.s284.block (2 : Fin 6)).queue ≠ [] ∧ Wt.s284.block.arb.win = some (2 : Fin 6) ∧ Wt.s284.block.arb.cur ≠ some (2 : Fin 6)) ∧
    ((reqOf Wt.up.block (2 : Fin 6)).queue = []) ∧
    ((reqOf Wt.s283.block (2 : Fin 6)).queue ≠ [] ∧ Wt.s283.block.arb.win ≠ some (2 : Fin 6)) := by
  decide

/-- States and operands that meet the hypotheses of `Obligations.StoreInstants`, clause by clause. -/
theorem test_hypotheses_store_instants_3 :
    ((reqOf Wt.s283.block (2 : Fin 6)).queue.length = 1 ∧ Wt.s283.block.arb.win ≠ some (2 : Fin 6) ∧ Wt.s283.block.arb.cur = some (2 : Fin 6) ∧ Wt.s283.block.arb.fresh = none) ∧
    (true = true ∧ Wt.up.block.arb.cur = none ∧ Wt.up.block.arb.win = none ∧ (3 : Fin 6) ≠ rqBittern ∧ Wt.up.block.arb.frozen = false) ∧
    (true = true ∧ Wt.s285.block.arb.cur = some (3 : Fin 6) ∧ (3 : Fin 6) ≠ rqBittern ∧ (reqOf Wt.s285.block (3 : Fin 6)).queue = []) ∧
    (false = false) := by
  decide

/-- States and operands that meet the hypotheses of `Obligations.StoreInstants`, clause by clause. -/
theorem test_hypotheses_store_instants_4 :
    (Wt.s286.block.arb.cur = some (2 : Fin 6) ∧ (reqOf Wt.s286.block (2 : Fin 6)).queue = [] ∧ Wt.s286.block.arb.frozen = false) ∧
    (Wt.up.block.arb.cur = none) ∧
    ((16 ≤ Wt.s287.block.pea.writesSinceGap ∨ Wt.s287.block.pea.lastGap.toNat + tSec ≤ (now Wt.s287.block).toNat)) ∧
    ((reqOf Wt.up.block (4 : Fin 6)).masked = false ∧ (4 : Fin 6) = counterOwner (60 : Fin 64) ∧ ctrPlanned Wt.up.block (60 : Fin 64) < ctrMax) ∧
    ((reqOf Wt.up.block (2 : Fin 6)).masked = false ∧ (2 : Fin 6) ≠ counterOwner (60 : Fin 64)) ∧
    (Wt.s288.block.pea.writesSinceGap < 16 ∧ (now (tideTo (Wt.s288.block.pea.lastGap.toNat + tSec) Wt.s288.block)).toNat < Wt.s288.block.pea.lastGap.toNat + tSec) ∧
    ((reqOf Wt.s281.block (2 : Fin 6)).masked = true) := by
  decide

/-- States and operands that meet the hypotheses of `Obligations.StoreInstants`, clause by clause. -/
theorem test_hypotheses_store_instants_5 :
    ((reqOf Wt.s289.block (4 : Fin 6)).masked = false ∧ (4 : Fin 6) = counterOwner (60 : Fin 64) ∧ ctrMax ≤ ctrPlanned Wt.s289.block (60 : Fin 64)) ∧
    ((Wt.up.block.rst.carr = false ∨ Wt.up.block.pea.ready = false ∨ Wt.up.block.pf.active = true)) ∧
    (Wt.s290.block.rst.carr = true ∧ Wt.s290.block.pea.ready = true ∧ Wt.s290.block.pf.active = false ∧ Wt.s290.block.pea.lastDelta = some (5 : U64) ∧ multipleFrom tSec (max ((now Wt.s290.block).toNat - 36000) ((5 : U64).toNat + 1)) + 36000 ≤ (now Wt.s290.block).toNat) := by
  decide

/-- States and operands that meet the hypotheses of `Obligations.PowerFailInstants`, clause by clause. -/
theorem test_hypotheses_power_fail_instants_1 :
    (Wt.s291.block.rpl.mode = false ∧ true = true ∧ Wt.s291.block.pf.vinMon = false) ∧
    (Wt.s292.block.rpl.mode = false ∧ false = false ∧ Wt.s292.block.pf.active = true) ∧
    (Wt.up.block.rpl.mode = false ∧ false = false ∧ Wt.up.block.pf.active = false ∧ Wt.up.block.tide.ready = true) ∧
    (Wt.s293.block.pf.sealedAt = some (9 : U64) ∧ Wt.s293.block.pf.active = true ∧ Wt.s293.block.pf.committed = false) := by
  decide

/-- States and operands that meet the hypotheses of `Obligations.PowerFailInstants`, clause by clause. -/
theorem test_hypotheses_power_fail_instants_2 :
    (Wt.s292.block.rpl.mode = false ∧ (true = false ∨ Wt.s292.block.pf.vinMon = true) ∧ (Wt.s292.block.pf.active = true ∨ Wt.s292.block.tide.ready = false)) ∧
    (Wt.up.block.rpl.mode = false ∧ (true = false ∨ Wt.up.block.pf.vinMon = true) ∧ Wt.up.block.pf.active = false ∧ Wt.up.block.tide.ready = true) ∧
    (Wt.up.block.pf.sealedAt = none) ∧
    (Wt.s292.block.pf.active = true ∧ Wt.s292.block.pf.sealedAt = none ∧ Wt.s292.block.pf.late = false ∧ Wt.s292.block.pf.at_.toNat + 3000000 ≤ (now Wt.s292.block).toNat) := by
  decide

/-- States and operands that meet the hypotheses of `Obligations.PowerFailInstants`, clause by clause. -/
theorem test_hypotheses_power_fail_instants_3 :
    (Wt.s294.block.pf.active = true ∧ Wt.s294.block.pf.begun = true ∧ Wt.s294.block.pf.overdue = false ∧ Wt.s294.block.pf.quiescent = false ∧ Wt.s294.block.rst.carr = true ∧ (∀ n, (nodeOf Wt.s294.block n).openVerified = true)) ∧
    ((Wt.up.block.pf.active = false ∨ Wt.up.block.pf.begun = false ∨ Wt.up.block.pf.overdue = true)) ∧
    (Wt.s292.block.pf.active = true ∧ Wt.s292.block.pf.overdue = false ∧ Wt.s292.block.pf.at_.toNat + 30000000 ≤ (now Wt.s292.block).toNat) ∧
    (Wt.up.block.rpl.mode = false ∧ Wt.up.block.pf.active = false) := by
  decide

/-- States and operands that meet the hypotheses of `Obligations.PowerFailInstants`, clause by clause. -/
theorem test_hypotheses_power_fail_instants_4 :
    (Wt.s292.block.rpl.mode = false ∧ Wt.s292.block.pf.active = true ∧ Wt.s292.block.pf.at_.toNat + 150000000 ≤ (now Wt.s292.block).toNat) := by
  decide

/-- States and operands that meet the hypotheses of `Obligations.StoreCommands`, clause by clause. -/
theorem test_hypotheses_store_commands_1 :
    (Asked Wt.s295 (0 : Fin 4) 0x0B01 .sedge) ∧
    (Asked Wt.s296 (0 : Fin 4) 0x0B02 .sedge ∧ rN Wt.s296.block (0 : Fin 4) 0 4 = 64 ∧ rN Wt.s296.block (0 : Fin 4) 4 1 = 1 ∧ Wt.s296.block.arb.cur = none ∧ (([0] : List U8)) = [0] ∧ (64 : Nat) ∉ Wt.s296.block.pea.badLines) ∧
    (Asked Wt.s297 (0 : Fin 4) 0x0B02 .sedge ∧ 55808 ≤ rN Wt.s297.block (0 : Fin 4) 0 4 ∧ rN Wt.s297.block (0 : Fin 4) 0 4 ≤ 56831 ∧ 1 ≤ rN Wt.s297.block (0 : Fin 4) 4 1 ∧ rN Wt.s297.block (0 : Fin 4) 4 1 ≤ 15) := by
  decide

/-- States and operands that meet the hypotheses of `Obligations.StoreCommands`, clause by clause. -/
theorem test_hypotheses_store_commands_2 :
    (Asked Wt.s298 (0 : Fin 4) 0x0B03 .sedge ∧ Wt.s298.block.pf.active = false ∧ rBit Wt.s298.block (0 : Fin 4) 0 0 = true ∧ rN Wt.s298.block (0 : Fin 4) 1 1 < 64 ∧ allQuiet Wt.s298.block = true) ∧
    (Asked Wt.s299 (0 : Fin 4) 0x0B03 .sedge ∧ Wt.s299.block.pf.active = false ∧ rBit Wt.s299.block (0 : Fin 4) 0 0 = false ∧ rN Wt.s299.block (0 : Fin 4) 1 1 < 64 ∧ allQuiet Wt.s299.block = true ∧ Wt.s299.block.arb.byDump = false) := by
  decide

/-- States and operands that meet the hypotheses of `Obligations.StoreCommands`, clause by clause. -/
theorem test_hypotheses_store_commands_3 :
    (Asked Wt.s300 (0 : Fin 4) 0x0B04 .sedge ∧ Wt.s300.block.pf.active = false ∧ 1 ≤ rN Wt.s300.block (0 : Fin 4) 0 1 ∧ rN Wt.s300.block (0 : Fin 4) 0 1 ≤ 15) ∧
    (Asked Wt.s301 (0 : Fin 4) 0x0B04 .sedge ∧ Wt.s301.block.pf.active = false ∧ 15 < rN Wt.s301.block (0 : Fin 4) 0 1) ∧
    (Asked Wt.s302 (0 : Fin 4) 0x0B05 .sedge ∧ Wt.s302.block.pf.active = false ∧ rN Wt.s302.block (0 : Fin 4) 0 1 < 64) := by
  decide

/-- States and operands that meet the hypotheses of `Obligations.StoreCommands`, clause by clause. -/
theorem test_hypotheses_store_commands_4 :
    (Asked Wt.s303 (0 : Fin 4) 0x0B06 .sedge ∧ Wt.s303.block.pf.active = false ∧ 56 ≤ rN Wt.s303.block (0 : Fin 4) 0 1 ∧ rN Wt.s303.block (0 : Fin 4) 0 1 < 64 ∧ ctrExhausted Wt.s303.block (reqCtr Wt.s303.block (0 : Fin 4)) = false ∧ (reqOf Wt.s303.block rqSedge).masked = false) ∧
    (Asked Wt.s304 (0 : Fin 4) 0x0B06 .sedge ∧ Wt.s304.block.pf.active = false ∧ rN Wt.s304.block (0 : Fin 4) 0 1 < 56) ∧
    (Asked Wt.s305 (0 : Fin 4) 0x0B07 .carr ∧ Wt.s305.block.pf.active = false ∧ Wt.s305.block.pea.ue = true ∧ Wt.s305.block.btn.clearMbx = none) := by
  decide

/-- States and operands that meet the hypotheses of `Obligations.StoreCommands`, clause by clause. -/
theorem test_hypotheses_store_commands_5 :
    (Asked Wt.s306 (0 : Fin 4) 0x0B07 .carr ∧ Wt.s306.block.pf.active = false ∧ Wt.s306.block.pea.ue = false) ∧
    (Asked Wt.s307 (0 : Fin 4) 0x0B08 .sedge ∧ Wt.s307.block.pf.active = false) ∧
    (Asked Wt.s308 (0 : Fin 4) 0x0B08 .sedge ∧ Wt.s308.block.pf.active = true) ∧
    (Asked Wt.s309 (0 : Fin 4) 0x0B09 .sedge ∧ Wt.s309.block.pf.active = false) := by
  decide

/-- States and operands that meet the hypotheses of `Obligations.BillingInstants`, clause by clause. -/
theorem test_hypotheses_billing_instants_1 :
    (vget Wt.up.block.key.units (1 : Fin 4) = none) ∧
    (vget Wt.s310.block.key.units (1 : Fin 4) = some (({} : EngineWork)) ∧ (({} : EngineWork)).at_.toNat + (({} : EngineWork)).op.ticks ≤ (now Wt.s310.block).toNat) ∧
    (vget Wt.s311.block.key.units (1 : Fin 4) = some (({ job := .reading 7 } : EngineWork)) ∧ (({ job := .reading 7 } : EngineWork)).job = .reading (7 : U32) ∧ signingOf Wt.s311.block (7 : U32) = some (({ sequence := 7 } : Reading)) ∧ false = false ∧ (({ sequence := 7 } : Reading)).failures < 2 ∧ (({ job := .reading 7 } : EngineWork)).at_.toNat + (({ job := .reading 7 } : EngineWork)).op.ticks ≤ (now Wt.s311.block).toNat) := by
  decide

/-- States and operands that meet the hypotheses of `Obligations.BillingInstants`, clause by clause. -/
theorem test_hypotheses_billing_instants_2 :
    (vget Wt.s312.block.key.units (1 : Fin 4) = some (({ job := .reading 7 } : EngineWork)) ∧ (({ job := .reading 7 } : EngineWork)).job = .reading (7 : U32) ∧ signingOf Wt.s312.block (7 : U32) = some (({ sequence := 7, failures := 2 } : Reading)) ∧ false = false ∧ 2 ≤ (({ sequence := 7, failures := 2 } : Reading)).failures ∧ (({ job := .reading 7 } : EngineWork)).at_.toNat + (({ job := .reading 7 } : EngineWork)).op.ticks ≤ (now Wt.s312.block).toNat) ∧
    (nextRetry Wt.s313.block.slt.signing = some (5 : U64) ∧ (Wt.s313.block.slt.signing.find? (fun y => y.retryAt == some (5 : U64)) = some (({ sequence := 7, retryAt := some 5 } : Reading))) ∧ (5 : U64).toNat ≤ (now Wt.s313.block).toNat) ∧
    (nextRetry Wt.up.block.slt.signing = none) ∧
    (Wt.up.block.slt.held = []) ∧
    (Wt.s314.block.slt.held ≠ []) ∧
    (Wt.up.block.slt.held = [] ∧ Wt.up.block.btn.held = none) := by
  decide

/-- States and operands that meet the hypotheses of `Obligations.BillingInstants`, clause by clause. -/
theorem test_hypotheses_billing_instants_3 :
    (Wt.s314.block.slt.held ≠ [] ∧ retryAt Wt.s314.block.slt.heldTryAt ≤ (now Wt.s314.block).toNat ∧ Wt.s314.block.btn.held = none) ∧
    (Wt.up.block.rpl.mode = false ∧ (∀ i ∈ List.range 4, newTamperState { Wt.up.block.backup with rtc := Wt.up.block.backup.rtc + 4096 } (0 : BitVec 4) i = false)) ∧
    (Wt.s315.block.rpl.mode = false ∧ newTamperState { Wt.s315.block.backup with rtc := Wt.s315.block.backup.rtc + 4096 } (1 : BitVec 4) (0 : Fin 4).val = true) ∧
    (Wt.s316.block.rst.carr = false) ∧
    (Wt.s317.block.rst.carr = true ∧ Wt.s317.block.backup.logWait = false ∧ ((Wt.s317.block.backup.events.filter fun e => !(tamperInFlight Wt.s317.block).contains e) ≠ [])) ∧
    (Wt.up.block.rst.carr = true ∧ Wt.up.block.backup.logWait = false ∧ ((Wt.up.block.backup.events.filter fun e => !(tamperInFlight Wt.up.block).contains e) = [])) := by
  decide

/-- States and operands that meet the hypotheses of `Obligations.BillingInstants`, clause by clause. -/
theorem test_hypotheses_billing_instants_4 :
    (Wt.up.block.rst.carr = true) ∧
    ((Wt.s314.block.slt.held ≠ [] ∨ Wt.s314.block.btn.held ≠ none)) ∧
    ((authOf Wt.s318.block (2 : Fin 16)).state = 1 ∧ (authOf Wt.s318.block (2 : Fin 16)).until_.toNat ≤ (now Wt.s318.block).toNat) ∧
    ((authOf Wt.up.block (2 : Fin 16)).state ≠ 1) := by
  decide

/-- States and operands that meet the hypotheses of `Obligations.BillingCommands`, clause by clause. -/
theorem test_hypotheses_billing_commands_1 :
    (Asked Wt.s319 (0 : Fin 4) 0x0C01 .carr ∧ queueOk (rN Wt.s319.block (0 : Fin 4) 0 2) false = true ∧ hostDataCheck Wt.s319.block (rN Wt.s319.block (0 : Fin 4) 0 2) 26 = 0 ∧ ctrExhausted Wt.s319.block 20 = false) ∧
    (Asked Wt.s320 (0 : Fin 4) 0x0C01 .carr ∧ queueOk (rN Wt.s320.block (0 : Fin 4) 0 2) false = false) ∧
    (Asked Wt.s321 (0 : Fin 4) 0x0C02 .carr ∧ queueOk (rN Wt.s321.block (0 : Fin 4) 2 2) false = true ∧ rN Wt.s321.block (0 : Fin 4) 0 1 = 0 ∧ Wt.s321.block.slt.calActive ≠ []) ∧
    (Asked Wt.s322 (0 : Fin 4) 0x0C02 .carr ∧ queueOk (rN Wt.s322.block (0 : Fin 4) 2 2) false = true ∧ 1 < rN Wt.s322.block (0 : Fin 4) 0 1) := by
  decide

/-- States and operands that meet the hypotheses of `Obligations.BillingCommands`, clause by clause. -/
theorem test_hypotheses_billing_commands_2 :
    (Asked Wt.s323 (0 : Fin 4) 0x0C03 .carr ∧ calN (rBytes Wt.s323.block (0 : Fin 4) 0 80) 8 8 = Wt.s323.block.key.serial.toNat ∧ rB Wt.s323.block (0 : Fin 4) 0 = 2 ∧ rB Wt.s323.block (0 : Fin 4) 1 = 1 ∧ ctrExhausted Wt.s323.block 21 = false ∧ calN (rBytes Wt.s323.block (0 : Fin 4) 0 80) 4 4 = ctrPlanned Wt.s323.block 21 + 1 ∧ intervalOk (calB (rBytes Wt.s323.block (0 : Fin 4) 0 80) 2) = true ∧ 1 ≤ (rB Wt.s323.block (0 : Fin 4) 3).toNat ∧ (rB Wt.s323.block (0 : Fin 4) 3).toNat ≤ 60) := by
  decide

/-- States and operands that meet the hypotheses of `Obligations.BillingCommands`, clause by clause. -/
theorem test_hypotheses_billing_commands_3 :
    (Asked Wt.s324 (0 : Fin 4) 0x0C04 .carr ∧ (nodeCheck 0x0C05 Wt.s324.block (0 : Fin 4)).2 = true ∧ 1 ≤ rN Wt.s324.block (0 : Fin 4) 1 1 ∧ rN Wt.s324.block (0 : Fin 4) 1 1 ≤ 2 ∧ 1 ≤ rN Wt.s324.block (0 : Fin 4) 2 1 ∧ rN Wt.s324.block (0 : Fin 4) 2 1 ≤ 4 ∧ rN Wt.s324.block (0 : Fin 4) 4 2 ≤ 4095 ∧ phaseOf Wt.s324.block (reqNode Wt.s324.block (0 : Fin 4)) ≠ .authorising ∧ Wt.s324.block.slt.hold ≠ 0) ∧
    (Asked Wt.s325 (0 : Fin 4) 0x0C04 .carr ∧ (nodeCheck 0x0C05 Wt.s325.block (0 : Fin 4)).2 = true ∧ (rN Wt.s325.block (0 : Fin 4) 1 1 = 0 ∨ 2 < rN Wt.s325.block (0 : Fin 4) 1 1)) := by
  decide

/-- States and operands that meet the hypotheses of `Obligations.BillingCommands`, clause by clause. -/
theorem test_hypotheses_billing_commands_4 :
    (Asked Wt.s326 (0 : Fin 4) 0x0C04 .carr ∧ (nodeCheck 0x0C05 Wt.s326.block (0 : Fin 4)).2 = true ∧ 1 ≤ rN Wt.s326.block (0 : Fin 4) 1 1 ∧ rN Wt.s326.block (0 : Fin 4) 1 1 ≤ 2 ∧ 1 ≤ rN Wt.s326.block (0 : Fin 4) 2 1 ∧ rN Wt.s326.block (0 : Fin 4) 2 1 ≤ 4 ∧ rN Wt.s326.block (0 : Fin 4) 4 2 ≤ 4095 ∧ phaseOf Wt.s326.block (reqNode Wt.s326.block (0 : Fin 4)) = .authorising) ∧
    (Asked Wt.s327 (0 : Fin 4) 0x0C05 .carr ∧ scopeRegs Wt.s327.block (rN Wt.s327.block (0 : Fin 4) 0 1) (rN Wt.s327.block (0 : Fin 4) 1 1) = some (((Vector.replicate 16 {})), (0 : Acc), (0 : Acc), (0 : U8))) ∧
    (Asked Wt.s328 (0 : Fin 4) 0x0C05 .carr ∧ scopeRegs Wt.s328.block (rN Wt.s328.block (0 : Fin 4) 0 1) (rN Wt.s328.block (0 : Fin 4) 1 1) = none) := by
  decide

/-- States and operands that meet the hypotheses of `Obligations.BillingCommands`, clause by clause. -/
theorem test_hypotheses_billing_commands_5 :
    (Asked Wt.s329 (0 : Fin 4) 0x0C06 .carr ∧ rN Wt.s329.block (0 : Fin 4) 0 1 = 3 ∧ rN Wt.s329.block (0 : Fin 4) 1 1 = 0) ∧
    (Asked Wt.s330 (0 : Fin 4) 0x0C06 .carr ∧ rN Wt.s330.block (0 : Fin 4) 0 1 = 2 ∧ 16 ≤ rN Wt.s330.block (0 : Fin 4) 1 1) ∧
    (Asked Wt.s331 (0 : Fin 4) 0x0C07 .carr) ∧
    (Asked Wt.s332 (0 : Fin 4) 0x0C08 .carr) ∧
    (Asked Wt.s333 (0 : Fin 4) 0x0C09 .carr ∧ rN Wt.s333.block (0 : Fin 4) 0 2 ≤ 600 ∧ rN Wt.s333.block (0 : Fin 4) 2 2 = 0xFFFF) ∧
    (Asked Wt.s334 (0 : Fin 4) 0x0C09 .carr ∧ 600 < rN Wt.s334.block (0 : Fin 4) 0 2) ∧
    (Asked Wt.s335 (0 : Fin 4) 0x0C0A .carr) := by
  decide

/-- States and operands that meet the hypotheses of `Obligations.LedgerCommands`, clause by clause. -/
theorem test_hypotheses_ledger_commands_1 :
    (Asked Wt.s336 (0 : Fin 4) 0x0D01 .carr) ∧
    (Asked Wt.s337 (0 : Fin 4) 0x0D02 .carr) ∧
    (Asked Wt.s338 (0 : Fin 4) 0x0D03 .carr ∧ rN Wt.s338.block (0 : Fin 4) 0 2 < 4096) ∧
    (Asked Wt.s339 (0 : Fin 4) 0x0D03 .carr ∧ 4096 ≤ rN Wt.s339.block (0 : Fin 4) 0 2) ∧
    (Asked Wt.s340 (0 : Fin 4) 0x0D04 .carr ∧ 1 ≤ fieldOf (rN Wt.s340.block (0 : Fin 4) 0 4) 4 6 ∧ fieldOf (rN Wt.s340.block (0 : Fin 4) 0 4) 4 6 ≤ 50 ∧ rN Wt.s340.block (0 : Fin 4) 0 4 < 1024 ∧ ledgerOpen Wt.s340.block = false) ∧
    (Asked Wt.s341 (0 : Fin 4) 0x0D04 .carr ∧ (fieldOf (rN Wt.s341.block (0 : Fin 4) 0 4) 4 6 = 0 ∨ 50 < fieldOf (rN Wt.s341.block (0 : Fin 4) 0 4) 4 6)) := by
  decide

/-- States and operands that meet the hypotheses of `Obligations.LedgerCommands`, clause by clause. -/
theorem test_hypotheses_ledger_commands_2 :
    (Asked Wt.s342 (0 : Fin 4) 0x0D05 .carr ∧ (nodeCheck 0x0C05 Wt.s342.block (0 : Fin 4)).2 = true) ∧
    (Asked Wt.s343 (0 : Fin 4) 0x0D06 .carr) ∧
    (Asked Wt.s344 (0 : Fin 4) 0x0D07 .carr ∧ rN Wt.s344.block (0 : Fin 4) 0 2 < 4096 ∧ rN Wt.s344.block (0 : Fin 4) 2 1 ≤ 1 ∧ ((walletOf Wt.s344.block (rN Wt.s344.block (0 : Fin 4) 0 2)).state = 1 ∨ (walletOf Wt.s344.block (rN Wt.s344.block (0 : Fin 4) 0 2)).state = 2)) ∧
    (Asked Wt.s345 (0 : Fin 4) 0x0D07 .carr ∧ rN Wt.s345.block (0 : Fin 4) 0 2 < 4096 ∧ rN Wt.s345.block (0 : Fin 4) 2 1 ≤ 1 ∧ (walletOf Wt.s345.block (rN Wt.s345.block (0 : Fin 4) 0 2)).state = 0) := by
  decide

/-- States and operands that meet the hypotheses of `Obligations.KeyStore`, clause by clause. -/
theorem test_hypotheses_key_store_1 :
    (Wt.s346.block.key.keysReady = true ∧ Wt.s346.block.tide.ready = true ∧ Wt.s346.block.key.lastRemask.toNat + 150000000 ≤ (now Wt.s346.block).toNat) ∧
    (Wt.s347.block.key.keysReady = true ∧ Wt.s347.block.tide.ready = false) ∧
    (Wt.up.block.key.keysReady = false) ∧
    (Wt.s348.block.key.rngOk = true ∧ 1048576 ≤ Wt.s348.block.key.rngUses) ∧
    (Wt.up.block.key.rngOk = false ∧ Wt.up.block.key.rngAt.toNat + tSec ≤ (now Wt.up.block).toNat) ∧
    (Wt.s349.block.key.rngOk = true ∧ Wt.s349.block.key.rngUses < 1048576 ∧ Wt.s349.block.key.rngAt.toNat + 10 * tSec ≤ (now Wt.s349.block).toNat) ∧
    (Wt.up.block.rpl.mode = false) := by
  decide

/-- States and operands that meet the hypotheses of `Obligations.KeyStore`, clause by clause. -/
theorem test_hypotheses_key_store_2 :
    (Wt.s350.block.key.retryAt = some (5 : U64) ∧ Wt.s350.block.tide.running = false ∧ false = false ∧ helperLost Wt.s350.block = false ∧ Wt.s350.block.key.tries < 2) ∧
    (Wt.s351.block.key.retryAt = some (5 : U64) ∧ Wt.s351.block.tide.running = false ∧ (false = false ∨ helperLost Wt.s351.block = true) ∧ (2 ≤ Wt.s351.block.key.tries ∨ helperLost Wt.s351.block = true)) ∧
    (Wt.s352.block.key.retryAt = some (5 : U64) ∧ Wt.s352.block.tide.running = false ∧ true = true ∧ helperLost Wt.s352.block = false) := by
  decide

/-- States and operands that meet the hypotheses of `Obligations.KeyStore`, clause by clause. -/
theorem test_hypotheses_key_store_3 :
    (Wt.s353.block.key.retryAt = some (5 : U64) ∧ Wt.s353.block.tide.running = true ∧ (5 : U64).toNat + 15000000 ≤ (now Wt.s353.block).toNat) ∧
    (Wt.up.block.key.retryAt = none) ∧
    (Wt.s354.block.key.challenge = some (([1]), (5 : U64)) ∧ (5 : U64).toNat ≤ (now Wt.s354.block).toNat) ∧
    (Wt.up.block.key.challenge = none) ∧
    (Asked Wt.s355 (0 : Fin 4) 0x0E01 .sedge) ∧
    (Asked Wt.s356 (0 : Fin 4) 0x0E02 .sedge ∧ keysUp Wt.s356.block = true ∧ Wt.s356.block.key.messages = []) ∧
    (Asked Wt.s357 (0 : Fin 4) 0x0E02 .sedge ∧ keysUp Wt.s357.block = true ∧ Wt.s357.block.key.messages ≠ []) := by
  decide

/-- States and operands that meet the hypotheses of `Obligations.KeyStore`, clause by clause. -/
theorem test_hypotheses_key_store_4 :
    (Asked Wt.s358 (0 : Fin 4) 0x0E02 .sedge ∧ keysUp Wt.s358.block = false) ∧
    (Asked Wt.s359 (0 : Fin 4) 0x0E03 .sedge ∧ keysUp Wt.s359.block = true ∧ (rB Wt.s359.block (0 : Fin 4) 0).toNat ≤ 15 ∧ slotUsable Wt.s359.block (reqSlot Wt.s359.block (0 : Fin 4)) = true ∧ (vget Wt.s359.block.key.index (reqSlot Wt.s359.block (0 : Fin 4))).usage = 6) ∧
    (Asked Wt.s360 (0 : Fin 4) 0x0E03 .sedge ∧ keysUp Wt.s360.block = true ∧ 15 < (rB Wt.s360.block (0 : Fin 4) 0).toNat) ∧
    (Asked Wt.s361 (0 : Fin 4) 0x0E04 .sedge ∧ keysUp Wt.s361.block = true ∧ (rB Wt.s361.block (0 : Fin 4) 0).toNat ≤ 15 ∧ Wt.s361.block.key.loaded.getLsbD (reqSlot Wt.s361.block (0 : Fin 4)).val = true) := by
  decide

/-- States and operands that meet the hypotheses of `Obligations.KeyStore`, clause by clause. -/
theorem test_hypotheses_key_store_5 :
    (Asked Wt.s362 (0 : Fin 4) 0x0E05 .sedge ∧ keysUp Wt.s362.block = true ∧ (rB Wt.s362.block (0 : Fin 4) 0).toNat ≤ 15 ∧ (vget Wt.s362.block.key.index (reqSlot Wt.s362.block (0 : Fin 4))).usage ≠ 0) ∧
    (Asked Wt.s363 (0 : Fin 4) 0x0E05 .sedge ∧ keysUp Wt.s363.block = true ∧ (rB Wt.s363.block (0 : Fin 4) 0).toNat = 0x22) ∧
    (Asked Wt.s364 (0 : Fin 4) 0x0E06 .sedge ∧ keysUp Wt.s364.block = true) ∧
    (Asked Wt.s365 (0 : Fin 4) 0x0E07 .sedge) ∧
    (Asked Wt.s366 (0 : Fin 4) 0x0E08 .sedge ∧ keysUp Wt.s366.block = true ∧ Wt.s366.block.key.rngOk = true) := by
  decide

/-- States and operands that meet the hypotheses of `Obligations.KeyStore`, clause by clause. -/
theorem test_hypotheses_key_store_6 :
    (Asked Wt.s367 (0 : Fin 4) 0x0E08 .sedge ∧ keysUp Wt.s367.block = true ∧ Wt.s367.block.key.rngOk = false) ∧
    (Asked Wt.s368 (0 : Fin 4) 0x0E09 .sedge ∧ keysUp Wt.s368.block = true ∧ 1 ≤ rN Wt.s368.block (0 : Fin 4) 0 2 ∧ rN Wt.s368.block (0 : Fin 4) 0 2 ≤ 256 ∧ Wt.s368.block.key.rngOk = true) ∧
    (Asked Wt.s369 (0 : Fin 4) 0x0E0A .sedge ∧ keysUp Wt.s369.block = true) := by
  decide

/-- States and operands that meet the hypotheses of `Obligations.ProtectedWords`, clause by clause. -/
theorem test_hypotheses_protected_words_1 :
    (Wt.up.block.rpl.mode = false ∧ Wt.up.block.rst.inReset = false ∧ (∀ e ∈ addressed (0x402 : U16).toNat (([1, 2, 3, 4] : List U32)), forbiddenBy Wt.up.block e.1 = none) ∧ (((addressed (0x402 : U16).toNat (([1, 2, 3, 4] : List U32))).find? fun e => isProtected e.1).map (·.1) = some (0x404 : Nat))) := by
  decide

/-- States and operands that meet the hypotheses of `Obligations.HostPort`, clause by clause. -/
theorem test_hypotheses_host_port_1 :
    (Wt.up.block.rst.inReset = false ∧ claimPin (0 : U16).toNat = none ∧ (4 : Nat) ≠ 0) ∧
    (Wt.up.block.rst.inReset = false ∧ claimPin (0 : U16).toNat = none ∧ (1 : Nat) = 1 ∧ (0 : U16).toNat < 0x200) ∧
    ((0 : Nat) = 0) ∧
    (Wt.up.block.rst.inReset = false) ∧
    (Wt.up.block.rst.inReset = false ∧ captures (0x348 : U16).toNat = true) ∧
    (captures (0x349 : U16).toNat = false) ∧
    (Wt.s370.block.rst.inReset = false ∧ hicWinner Wt.s370.block.hic (1 : Fin 4) = some ((8 : Fin 512).val, (3 : Nat))) := by
  decide

/-- States and operands that meet the hypotheses of `Obligations.HostPort`, clause by clause. -/
theorem test_hypotheses_host_port_2 :
    (Wt.up.block.rst.inReset = false ∧ hicWinner Wt.up.block.hic (1 : Fin 4) = none) ∧
    (Wt.s371.block.rpl.mode = false ∧ Wt.s371.block.rst.inReset = false ∧ (8 : U32) = BitVec.ofNat 32 (8 : Fin 512).val ∧ 1 ≤ (8 : Fin 512).val ∧ (8 : Fin 512).val ≤ 510 ∧ (vget Wt.s371.block.hic.pins (1 : Fin 4)).stack = ((8 : Fin 512).val, (3 : Nat)) :: (([] : List (Nat × Nat)))) ∧
    (Wt.up.block.rpl.mode = false ∧ Wt.up.block.rst.inReset = false ∧ (8 : U32) = BitVec.ofNat 32 (8 : Fin 512).val ∧ 1 ≤ (8 : Fin 512).val ∧ (8 : Fin 512).val ≤ 510 ∧ (vget Wt.up.block.hic.pins (1 : Fin 4)).stack = []) := by
  decide

/-- States and operands that meet the hypotheses of `Obligations.HostPort`, clause by clause. -/
theorem test_hypotheses_host_port_3 :
    (Wt.up.block.rpl.mode = false ∧ Wt.up.block.rst.inReset = false) ∧
    (Wt.s372.block.rst.inReset = true) ∧
    (Wt.up.block.rst.inReset = false ∧ ((some 0 : Option U8)) = some (0 : U8) ∧ (([1] : List U32)) ≠ [] ∧ crc8 (frameBytes 0x32 (0 : U16) (([1] : List U32))) ≠ (0 : U8)) ∧
    (Wt.up.block.rpl.mode = false ∧ Wt.up.block.rst.inReset = false ∧ ((none : Option U8)) = none ∧ (0xB41 : U16) = 0xB41 ∧ (([77] : List U32)).length = 1) ∧
    (Wt.up.block.rst.inReset = false ∧ (([] : List U32)) = []) := by
  decide

/-- States and operands that meet the hypotheses of `Obligations.HostPort`, clause by clause. -/
theorem test_hypotheses_host_port_4 :
    (Wt.up.block.rst.inReset = false ∧ (([77] : List U32)) ≠ [] ∧ (∀ c, ((none : Option U8)) = some c → crc8 (frameBytes 0x32 (0xB41 : U16) (([77] : List U32))) = c)) ∧
    (Wt.s372.block.rst.inReset = true) ∧
    (Wt.up.block.rst.inReset = false ∧ ((HostFrame.mk [0, 2] 0 0)).nibbles.length < 6) ∧
    (Wt.up.block.rst.inReset = false ∧ frameCase (hpSingle Wt.up.block) ((HostFrame.mk [7, 7, 0, 0, 0, 0] 0 0)) = .bad (2 : Nat)) ∧
    (Wt.up.block.rst.inReset = false ∧ frameCase (hpSingle Wt.up.block) ((HostFrame.mk [0, 11, 0, 0, 0, 0, 0, 0, 0, 0, 0, 0, 0, 0] 0 0)) = .read (0 : U16) (1 : Nat)) ∧
    (Wt.up.block.rst.inReset = false ∧ frameCase (hpSingle Wt.up.block) ((HostFrame.mk [0, 11, 0, 0, 0, 0, 0, 0, 0, 0, 0, 0, 0, 0, 1] 0 0)) = .readPartial (0 : U16) (1 : Nat)) ∧
    (Wt.up.block.rst.inReset = false ∧ frameCase (hpSingle Wt.up.block) ((HostFrame.mk [0, 2, 0, 0, 0, 0, 0, 0, 0, 0, 0, 0, 0, 0] 0 0)) = .write (0 : U16) (([0] : List U32)) ((none : Option U8))) := by
  decide

/-- States and operands that meet the hypotheses of `Obligations.CausewayInstants`, clause by clause. -/
theorem test_hypotheses_causeway_instants_1 :
    (Wt.up.block.cwy.state ≠ .up) ∧
    (Wt.s373.block.cwy.state = .up ∧ ((CwySlot.mk true (zeros 72))).training = true) ∧
    (Wt.s373.block.cwy.state = .up ∧ ((CwySlot.mk false (zeros 72))).training = false ∧ natAt (padTo 72 ((CwySlot.mk false (zeros 72))).bytes) 68 4 ≠ (crc32c ((padTo 72 ((CwySlot.mk false (zeros 72))).bytes).take 68)).toNat ∧ Wt.s373.block.cwyX.crcRun < 7) ∧
    (Wt.s374.block.cwy.state = .up ∧ ((CwySlot.mk false (zeros 68 ++ b32 (crc32c (zeros 68))))).training = false ∧ natAt (padTo 72 ((CwySlot.mk false (zeros 68 ++ b32 (crc32c (zeros 68))))).bytes) 68 4 = (crc32c ((padTo 72 ((CwySlot.mk false (zeros 68 ++ b32 (crc32c (zeros 68))))).bytes).take 68)).toNat ∧ natAt (padTo 72 ((CwySlot.mk false (zeros 68 ++ b32 (crc32c (zeros 68))))).bytes) 64 2 ≠ Wt.s374.block.cwy.rxNext.toNat) := by
  decide

/-- States and operands that meet the hypotheses of `Obligations.CausewayInstants`, clause by clause. -/
theorem test_hypotheses_causeway_instants_2 :
    (Wt.s373.block.cwy.state = .up ∧ ((CwySlot.mk false (zeros 68 ++ b32 (crc32c (zeros 68))))).training = false ∧ natAt (padTo 72 ((CwySlot.mk false (zeros 68 ++ b32 (crc32c (zeros 68))))).bytes) 68 4 = (crc32c ((padTo 72 ((CwySlot.mk false (zeros 68 ++ b32 (crc32c (zeros 68))))).bytes).take 68)).toNat ∧ natAt (padTo 72 ((CwySlot.mk false (zeros 68 ++ b32 (crc32c (zeros 68))))).bytes) 64 2 = Wt.s373.block.cwy.rxNext.toNat ∧ freeReserved Wt.s373.block (slotGroup (padTo 72 ((CwySlot.mk false (zeros 68 ++ b32 (crc32c (zeros 68))))).bytes)) = 0) ∧
    (Wt.up.block.cwy.state ≠ .up) ∧
    (Wt.s375.block.cwy.state = .up ∧ natAt (padTo 18 ((List.replicate 18 1))) 16 2 ≠ (crc16 ((padTo 18 ((List.replicate 18 1))).take 16)).toNat ∧ Wt.s375.block.cwyX.creditRun < 7) ∧
    ((Wt.up.block.cwy.state ≠ .up ∨ 256 ≤ Wt.up.block.cwy.outstanding.length)) ∧
    (Wt.s376.block.cwy.state = .up ∧ Wt.s376.block.cwy.outstanding.length < 256 ∧ Wt.s376.block.cwy.resend = (5 : Nat) :: (([] : List Nat)) ∧ creditOf (groupOf Wt.s376.block (groupOfBuf Wt.s376.block (5 : Nat))) ≠ 0) := by
  decide

/-- States and operands that meet the hypotheses of `Obligations.CausewayInstants`, clause by clause. -/
theorem test_hypotheses_causeway_instants_3 :
    (Wt.s377.block.cwy.state = .up ∧ Wt.s377.block.cwy.outstanding ≠ [] ∧ Wt.s377.block.cwyX.ackAt.toNat + Wt.s377.block.cwy.ackTimeout.toNat * tUs ≤ (now Wt.s377.block).toNat ∧ Wt.s377.block.cwyX.ackExpiries < 7) ∧
    (Wt.s378.block.cwy.state = .up ∧ Wt.s378.block.cwy.outstanding ≠ [] ∧ Wt.s378.block.cwyX.ackAt.toNat + Wt.s378.block.cwy.ackTimeout.toNat * tUs ≤ (now Wt.s378.block).toNat ∧ 7 ≤ Wt.s378.block.cwyX.ackExpiries) ∧
    ((Wt.up.block.cwy.state ≠ .up ∨ Wt.up.block.cwy.outstanding = [])) ∧
    (Wt.s379.block.cwy.enable = true) ∧
    (Wt.up.block.cwy.enable = false) ∧
    (Wt.s380.block.cwy.state = .training ∧ Wt.s380.block.cwy.aligning = true ∧ Wt.s380.block.cwyX.resetMbx = none) := by
  decide

/-- States and operands that meet the hypotheses of `Obligations.CausewayInstants`, clause by clause. -/
theorem test_hypotheses_causeway_instants_4 :
    (Wt.s381.block.cwy.state = .training ∧ Wt.s381.block.cwy.aligning = true ∧ Wt.s381.block.cwyX.resetMbx = some (0 : Fin 4)) ∧
    (Wt.s382.block.cwy.state = .training ∧ Wt.s382.block.cwyX.trainingAt.toNat + tMs ≤ (now Wt.s382.block).toNat ∧ Wt.s382.block.cwyX.resetMbx = none) ∧
    (Wt.up.block.cwy.state ≠ .training ∧ Wt.up.block.cwyX.resetMbx = none) ∧
    ((Wt.s382.block.cwy.state = .training ∨ Wt.s382.block.cwyX.resetMbx ≠ none)) ∧
    ((Wt.up.block.cwy.state ≠ .training ∨ Wt.up.block.cwy.aligning = false)) ∧
    (Wt.s373.block.cwy.state = .up ∧ ((CwySlot.mk false (zeros 68 ++ b32 (crc32c (zeros 68))))).training = false ∧ natAt (padTo 72 ((CwySlot.mk false (zeros 68 ++ b32 (crc32c (zeros 68))))).bytes) 68 4 = (crc32c ((padTo 72 ((CwySlot.mk false (zeros 68 ++ b32 (crc32c (zeros 68))))).bytes).take 68)).toNat ∧ natAt (padTo 72 ((CwySlot.mk false (zeros 68 ++ b32 (crc32c (zeros 68))))).bytes) 64 2 = Wt.s373.block.cwy.rxNext.toNat) := by
  decide

/-- States and operands that meet the hypotheses of `Obligations.CausewayInstants`, clause by clause. -/
theorem test_hypotheses_causeway_instants_5 :
    (Wt.s383.block.cwy.state = .up ∧ ((CwySlot.mk false (zeros 72))).training = false ∧ natAt (padTo 72 ((CwySlot.mk false (zeros 72))).bytes) 68 4 ≠ (crc32c ((padTo 72 ((CwySlot.mk false (zeros 72))).bytes).take 68)).toNat ∧ 7 ≤ Wt.s383.block.cwyX.crcRun) ∧
    (Wt.s384.block.cwy.state = .up ∧ natAt (padTo 18 ((List.replicate 18 1))) 16 2 ≠ (crc16 ((padTo 18 ((List.replicate 18 1))).take 16)).toNat ∧ 7 ≤ Wt.s384.block.cwyX.creditRun) ∧
    (Wt.s375.block.cwy.state = .up ∧ natAt (padTo 18 ((zeros 16 ++ b16 (crc16 (zeros 16))))) 16 2 = (crc16 ((padTo 18 ((zeros 16 ++ b16 (crc16 (zeros 16))))).take 16)).toNat) ∧
    (Wt.s375.block.cwy.state = .up ∧ Wt.s375.block.cwy.outstanding.length < 256 ∧ Wt.s375.block.cwy.resend = [] ∧ nextOutbound Wt.s375.block = none) ∧
    (Wt.s375.block.cwy.state = .up) := by
  decide

/-- States and operands that meet the hypotheses of `Obligations.CausewayInstants`, clause by clause. -/
theorem test_hypotheses_causeway_instants_6 :
    ((groupOf Wt.s385.block (3 : Fin 64)).waitSince = some (5 : U64) ∧ (5 : U64).toNat + 10 * tMs ≤ (now Wt.s385.block).toNat) ∧
    ((groupOf Wt.up.block (3 : Fin 64)).waitSince = none) := by
  decide

/-- States and operands that meet the hypotheses of `Obligations.QueueOperations`, clause by clause. -/
theorem test_hypotheses_queue_operations_1 :
    (qmgReady (qAccept Wt.s386.block) = false) ∧
    (qmgReady (qAccept Wt.s387.block) = true ∧ (4 : Fin 16) ≠ agRx ∧ freeUnreserved Wt.s387.block = 0) ∧
    (qmgReady (qAccept Wt.s388.block) = true ∧ (4 : Fin 16) ≠ agRx ∧ freeUnreserved Wt.s388.block ≠ 0) ∧
    (qmgReady (qAccept Wt.up.block) = true ∧ ownerOf Wt.up.block (5 : Fin 131072).val ≠ .agent (4 : Fin 16)) ∧
    (qmgReady (qAccept Wt.s389.block) = true ∧ mayEnqueue (4 : Fin 16) (2048 : Fin 32768).val (qOf Wt.s389.block (2048 : Fin 32768).val) = true ∧ ownerOf Wt.s389.block (5 : Fin 131072).val = .agent (4 : Fin 16) ∧ (qOf Wt.s389.block (2048 : Fin 32768).val).enabled = true ∧ (qOf Wt.s389.block (2048 : Fin 32768).val).bufs.length < (qOf Wt.s389.block (2048 : Fin 32768).val).limit.toNat) := by
  decide

/-- States and operands that meet the hypotheses of `Obligations.QueueOperations`, clause by clause. -/
theorem test_hypotheses_queue_operations_2 :
    (qmgReady (qAccept Wt.s390.block) = true ∧ mayEnqueue (4 : Fin 16) (2048 : Fin 32768).val (qOf Wt.s390.block (2048 : Fin 32768).val) = true ∧ ownerOf Wt.s390.block (5 : Fin 131072).val = .agent (4 : Fin 16) ∧ (qOf Wt.s390.block (2048 : Fin 32768).val).enabled = true ∧ (qOf Wt.s390.block (2048 : Fin 32768).val).limit ≠ 0 ∧ (qOf Wt.s390.block (2048 : Fin 32768).val).limit.toNat ≤ (qOf Wt.s390.block (2048 : Fin 32768).val).bufs.length ∧ (qOf Wt.s390.block (2048 : Fin 32768).val).dropOldest = false) ∧
    (qmgReady (qAccept Wt.s391.block) = true ∧ isConsumer (2048 : Fin 32768).val (qOf Wt.s391.block (2048 : Fin 32768).val) (14 : Fin 16) = true ∧ (qOf Wt.s391.block (2048 : Fin 32768).val).bufs = (9 : Nat) :: (([] : List Nat))) ∧
    (isConsumer (2048 : Fin 32768).val (qOf Wt.up.block (2048 : Fin 32768).val) (4 : Fin 16) = false) ∧
    (qmgReady (qAccept Wt.up.block) = true ∧ ownerOf Wt.up.block (5 : Fin 131072).val ≠ .agent (4 : Fin 16) ∧ Wt.up.block.cwy.state ≠ .up) := by
  decide

/-- States and operands that meet the hypotheses of `Obligations.QueueOperations`, clause by clause. -/
theorem test_hypotheses_queue_operations_3 :
    (qmgReady (qAccept Wt.s392.block) = true ∧ ownerOf Wt.s392.block (5 : Fin 131072).val = .agent (4 : Fin 16) ∧ Wt.s392.block.cwy.state ≠ .up ∧ sget 0 Wt.s392.block.qmg.charged (5 : Fin 131072).val = 0) ∧
    (qmgReady (qAccept Wt.s386.block) = false) ∧
    (qmgReady (qAccept Wt.s386.block) = false) ∧
    (qmgReady (qAccept Wt.up.block) = true ∧ isConsumer (2048 : Fin 32768).val (qOf Wt.up.block (2048 : Fin 32768).val) (14 : Fin 16) = true ∧ (qOf Wt.up.block (2048 : Fin 32768).val).bufs = []) ∧
    (qmgReady (qAccept Wt.s393.block) = true ∧ mayEnqueue (6 : Fin 16) (2048 : Fin 32768).val (qOf Wt.s393.block (2048 : Fin 32768).val) = false ∧ ownerOf Wt.s393.block (5 : Fin 131072).val = .agent (6 : Fin 16)) := by
  decide

/-- States and operands that meet the hypotheses of `Obligations.CausewayCommands`, clause by clause. -/
theorem test_hypotheses_causeway_commands_1 :
    (Asked Wt.s394 (0 : Fin 4) 0x0F01 .sedge ∧ 2 ≤ (rB Wt.s394.block (0 : Fin 4) 2).toNat ∧ (rB Wt.s394.block (0 : Fin 4) 2).toNat ≤ 100 ∧ rBit Wt.s394.block (0 : Fin 4) 0 0 = true ∧ Wt.s394.block.cwy.enable = false) ∧
    (Asked Wt.s395 (0 : Fin 4) 0x0F01 .sedge ∧ 2 ≤ (rB Wt.s395.block (0 : Fin 4) 2).toNat ∧ (rB Wt.s395.block (0 : Fin 4) 2).toNat ≤ 100 ∧ rBit Wt.s395.block (0 : Fin 4) 0 0 = false ∧ Wt.s395.block.cwy.enable = true) ∧
    (Asked Wt.s396 (0 : Fin 4) 0x0F01 .sedge ∧ ((rB Wt.s396.block (0 : Fin 4) 2).toNat < 2 ∨ 100 < (rB Wt.s396.block (0 : Fin 4) 2).toNat)) ∧
    (Asked Wt.s397 (0 : Fin 4) 0x0F02 .sedge) := by
  decide

/-- States and operands that meet the hypotheses of `Obligations.CausewayCommands`, clause by clause. -/
theorem test_hypotheses_causeway_commands_2 :
    (Asked Wt.s398 (0 : Fin 4) 0x0F03 .sedge ∧ Wt.s398.block.cwyX.resetMbx = none) ∧
    (Asked Wt.s399 (0 : Fin 4) 0x0F03 .sedge ∧ Wt.s399.block.cwyX.resetMbx ≠ none) ∧
    (Asked Wt.s400 (0 : Fin 4) 0x0F04 .sedge ∧ (rB Wt.s400.block (0 : Fin 4) 0).toNat ≤ 63 ∧ rN Wt.s400.block (0 : Fin 4) 2 2 ≤ 512 ∧ Wt.s400.block.cwy.state = .disabled ∧ reservedSum Wt.s400.block - (groupOf Wt.s400.block (reqGroup Wt.s400.block (0 : Fin 4) 0)).reservation + rN Wt.s400.block (0 : Fin 4) 2 2 ≤ 16384 ∧ rN Wt.s400.block (0 : Fin 4) 2 2 - (groupOf Wt.s400.block (reqGroup Wt.s400.block (0 : Fin 4) 0)).reservation ≤ freeUnreserved Wt.s400.block) ∧
    (Asked Wt.s401 (0 : Fin 4) 0x0F04 .sedge ∧ 64 ≤ (rB Wt.s401.block (0 : Fin 4) 0).toNat) ∧
    (Asked Wt.s402 (0 : Fin 4) 0x0F05 .sedge ∧ (rB Wt.s402.block (0 : Fin 4) 0).toNat ≤ 63) := by
  decide

/-- States and operands that meet the hypotheses of `Obligations.CausewayCommands`, clause by clause. -/
theorem test_hypotheses_causeway_commands_3 :
    (Asked Wt.s403 (0 : Fin 4) 0x0F06 .sedge ∧ queueOk (rN Wt.s403.block (0 : Fin 4) 0 2) false = true ∧ (rB Wt.s403.block (0 : Fin 4) 4).toNat ≤ 63 ∧ rBit Wt.s403.block (0 : Fin 4) 2 1 = true ∧ rBit Wt.s403.block (0 : Fin 4) 2 2 = true ∧ rB Wt.s403.block (0 : Fin 4) 3 = 0x10 ∧ (qOf Wt.s403.block (rN Wt.s403.block (0 : Fin 4) 0 2)).bufs = [] ∧ (qOf Wt.s403.block (rN Wt.s403.block (0 : Fin 4) 0 2)).enabled = false) ∧
    (Asked Wt.s404 (0 : Fin 4) 0x0F06 .sedge ∧ queueOk (rN Wt.s404.block (0 : Fin 4) 0 2) false = false) ∧
    (Asked Wt.s405 (0 : Fin 4) 0x0F07 .sedge ∧ queueOk (rN Wt.s405.block (0 : Fin 4) 0 2) false = true) := by
  decide

/-- States and operands that meet the hypotheses of `Obligations.CausewayCommands`, clause by clause. -/
theorem test_hypotheses_causeway_commands_4 :
    (Asked Wt.s406 (0 : Fin 4) 0x0F08 .sedge ∧ queueOk (rN Wt.s406.block (0 : Fin 4) 0 2) false = true ∧ (qOf Wt.s406.block (rN Wt.s406.block (0 : Fin 4) 0 2)).enabled = true) ∧
    (Asked Wt.s407 (0 : Fin 4) 0x0F08 .sedge ∧ queueOk (rN Wt.s407.block (0 : Fin 4) 0 2) false = true ∧ (qOf Wt.s407.block (rN Wt.s407.block (0 : Fin 4) 0 2)).enabled = false) ∧
    (Asked Wt.s408 (0 : Fin 4) 0x0F09 .sedge) ∧
    (Asked Wt.s409 (0 : Fin 4) 0x0F0A .sedge ∧ rN Wt.s409.block (0 : Fin 4) 0 4 ≤ 131072) ∧
    (Asked Wt.s410 (0 : Fin 4) 0x0F0A .sedge ∧ 131072 < rN Wt.s410.block (0 : Fin 4) 0 4) ∧
    (Asked Wt.s411 (0 : Fin 4) 0x0F0B .sedge ∧ rBit Wt.s411.block (0 : Fin 4) 0 0 = true ∧ rBit Wt.s411.block (0 : Fin 4) 0 1 = false) := by
  decide

/-- States and operands that meet the hypotheses of `Obligations.PanelsAndReaders`, clause by clause. -/
theorem test_hypotheses_panels_and_readers_1 :
    (((pnlOf Wt.up.block (3 : Fin 8)).enable = false ∨ Wt.up.block.tide.ready = false)) ∧
    ((pnlOf Wt.s412.block (0 : Fin 8)).enable = true ∧ Wt.s412.block.tide.ready = true ∧ toggleAt Wt.s412.block (0 : Fin 8) ≤ (now Wt.s412.block).toNat ∧ (pnlOf Wt.s412.block (0 : Fin 8)).passPending = false) ∧
    ((pnlOf Wt.s413.block (3 : Fin 8)).passUntil = some (5 : U64) ∧ (5 : U64).toNat ≤ (now Wt.s413.block).toNat ∧ (pnlOf Wt.s413.block (3 : Fin 8)).waiting = []) ∧
    ((pnlOf Wt.up.block (3 : Fin 8)).passUntil = none) ∧
    (Wt.up.block.rpl.mode = false) ∧
    (Wt.up.block.rpl.mode = false) ∧
    (Wt.s414.block.rst.carr = true ∧ (pnlOf Wt.s414.block (3 : Fin 8)).fault = true) := by
  decide

/-- States and operands that meet the hypotheses of `Obligations.PanelsAndReaders`, clause by clause. -/
theorem test_hypotheses_panels_and_readers_2 :
    (Wt.up.block.rst.carr = true ∧ (pnlOf Wt.up.block (3 : Fin 8)).fault = false) ∧
    (Wt.s316.block.rst.carr = false) ∧
    (Wt.s415.block.rpl.mode = false ∧ detecting (nfcOf Wt.s415.block (0 : Fin 8)) = true ∧ pingAt Wt.s415.block (0 : Fin 8) ≤ (now Wt.s415.block).toNat ∧ groupBusy Wt.s415.block (0 : Fin 8) = true) ∧
    (Wt.s416.block.rpl.mode = false ∧ detecting (nfcOf Wt.s416.block (0 : Fin 8)) = true ∧ pingAt Wt.s416.block (0 : Fin 8) ≤ (now Wt.s416.block).toNat ∧ groupBusy Wt.s416.block (0 : Fin 8) = false ∧ detuning (nfcOf Wt.s416.block (0 : Fin 8)).base ⟨(100 : BitVec 16), (0 : BitVec 16)⟩ < (nfcOf Wt.s416.block (0 : Fin 8)).lpcdThr) := by
  decide

/-- States and operands that meet the hypotheses of `Obligations.PanelsAndReaders`, clause by clause. -/
theorem test_hypotheses_panels_and_readers_3 :
    (Wt.s416.block.rpl.mode = false ∧ detecting (nfcOf Wt.s416.block (0 : Fin 8)) = true ∧ pingAt Wt.s416.block (0 : Fin 8) ≤ (now Wt.s416.block).toNat ∧ groupBusy Wt.s416.block (0 : Fin 8) = false ∧ (nfcOf Wt.s416.block (0 : Fin 8)).lpcdThr ≤ detuning (nfcOf Wt.s416.block (0 : Fin 8)).base ⟨(900 : BitVec 16), (0 : BitVec 16)⟩) ∧
    (detecting (nfcOf Wt.up.block (3 : Fin 8)) = false) ∧
    (((nfcOf Wt.up.block (3 : Fin 8)).polling = false ∨ cardFits (nfcOf Wt.up.block (3 : Fin 8)) ((CardInfo.mk .a [1, 2, 3, 4] false [])) = false)) ∧
    (Wt.s417.block.rpl.mode = false ∧ (nfcOf Wt.s417.block (3 : Fin 8)).polling = true ∧ cardFits (nfcOf Wt.s417.block (3 : Fin 8)) ((CardInfo.mk .a [1, 2, 3, 4] false [])) = true ∧ (nfcOf Wt.s417.block (3 : Fin 8)).pollAt.toNat + guardTime ≤ (now Wt.s417.block).toNat) ∧
    ((nfcOf Wt.up.block (3 : Fin 8)).card = false) := by
  decide

/-- States and operands that meet the hypotheses of `Obligations.PanelsAndReaders`, clause by clause. -/
theorem test_hypotheses_panels_and_readers_4 :
    (Wt.s418.block.rpl.mode = false ∧ (nfcOf Wt.s418.block (3 : Fin 8)).card = true ∧ (nfcOf Wt.s418.block (3 : Fin 8)).lastPresence.toNat + 300000000 ≤ (now Wt.s418.block).toNat ∧ (false = true ∨ (nfcOf Wt.s418.block (3 : Fin 8)).presenceFails < 2)) ∧
    (Wt.s419.block.rpl.mode = false ∧ (nfcOf Wt.s419.block (3 : Fin 8)).card = true ∧ (nfcOf Wt.s419.block (3 : Fin 8)).lastPresence.toNat + 300000000 ≤ (now Wt.s419.block).toNat ∧ false = false ∧ 2 ≤ (nfcOf Wt.s419.block (3 : Fin 8)).presenceFails) ∧
    ((nfcOf Wt.s420.block (3 : Fin 8)).field = true) ∧
    ((nfcOf Wt.s421.block (3 : Fin 8)).field = false ∧ firstWaiting Wt.s421.block (nfcOf Wt.s421.block (3 : Fin 8)).fieldGroup = some (2 : Fin 8)) ∧
    (Wt.s420.block.rpl.mode = false ∧ (nfcOf Wt.s420.block (3 : Fin 8)).field = true) := by
  decide

/-- States and operands that meet the hypotheses of `Obligations.PanelsAndReaders`, clause by clause. -/
theorem test_hypotheses_panels_and_readers_5 :
    ((nfcOf Wt.up.block (3 : Fin 8)).field = false) ∧
    ((nfcOf Wt.up.block (3 : Fin 8)).polling = false) ∧
    (firstWaiting Wt.up.block (nfcOf Wt.up.block (3 : Fin 8)).fieldGroup = none) ∧
    (Wt.s417.block.rpl.mode = false ∧ (nfcOf Wt.s417.block (3 : Fin 8)).polling = true ∧ (nfcOf Wt.s417.block (3 : Fin 8)).pollAt.toNat + guardTime ≤ (now Wt.s417.block).toNat) ∧
    (Asked Wt.s422 (0 : Fin 4) 0x1001 .sedge ∧ rN Wt.s422.block (0 : Fin 4) 0 1 < 8 ∧ pnlCfgOk (rN Wt.s422.block (0 : Fin 4) 4 4) = true ∧ BitVec.ofNat 6 (fieldOf (rN Wt.s422.block (0 : Fin 4) 4 4) 2 6) = (pnlOf Wt.s422.block (reqPort Wt.s422.block (0 : Fin 4))).height ∧ BitVec.ofNat 5 (fieldOf (rN Wt.s422.block (0 : Fin 4) 4 4) 13 5) = (pnlOf Wt.s422.block (reqPort Wt.s422.block (0 : Fin 4))).connector) ∧
    (Asked Wt.s423 (0 : Fin 4) 0x1002 .sedge ∧ rN Wt.s423.block (0 : Fin 4) 0 1 < 8) := by
  decide

/-- States and operands that meet the hypotheses of `Obligations.PanelsAndReaders`, clause by clause. -/
theorem test_hypotheses_panels_and_readers_6 :
    (Asked Wt.s424 (0 : Fin 4) 0x1003 .sedge ∧ rN Wt.s424.block (0 : Fin 4) 0 1 < 8 ∧ (480 < rN Wt.s424.block (0 : Fin 4) 4 2 + rN Wt.s424.block (0 : Fin 4) 8 2 ∨ panelRows (pnlOf Wt.s424.block (reqPort Wt.s424.block (0 : Fin 4))) - 32 < rN Wt.s424.block (0 : Fin 4) 6 2 + rN Wt.s424.block (0 : Fin 4) 10 2)) ∧
    (Asked Wt.s425 (0 : Fin 4) 0x1003 .sedge ∧ rN Wt.s425.block (0 : Fin 4) 0 1 < 8 ∧ rN Wt.s425.block (0 : Fin 4) 4 2 = 0 ∧ rN Wt.s425.block (0 : Fin 4) 6 2 = 0 ∧ rN Wt.s425.block (0 : Fin 4) 8 2 = 1 ∧ rN Wt.s425.block (0 : Fin 4) 10 2 = 1 ∧ 33 ≤ panelRows (pnlOf Wt.s425.block (reqPort Wt.s425.block (0 : Fin 4))) ∧ (pnlOf Wt.s425.block (reqPort Wt.s425.block (0 : Fin 4))).enable = true ∧ (pnlOf Wt.s425.block (reqPort Wt.s425.block (0 : Fin 4))).fault = false ∧ queueOk (rN Wt.s425.block (0 : Fin 4) 2 2) false = true ∧ hostDataCheck Wt.s425.block (rN Wt.s425.block (0 : Fin 4) 2 2) 1 = 0) := by
  decide

/-- States and operands that meet the hypotheses of `Obligations.PanelsAndReaders`, clause by clause. -/
theorem test_hypotheses_panels_and_readers_7 :
    (Asked Wt.s426 (0 : Fin 4) 0x1004 .sedge ∧ rN Wt.s426.block (0 : Fin 4) 0 1 < 8 ∧ (480 < rN Wt.s426.block (0 : Fin 4) 6 2 + rN Wt.s426.block (0 : Fin 4) 10 2 ∨ panelRows (pnlOf Wt.s426.block (reqPort Wt.s426.block (0 : Fin 4))) - 32 < rN Wt.s426.block (0 : Fin 4) 8 2 + rN Wt.s426.block (0 : Fin 4) 12 2)) ∧
    (Asked Wt.s427 (0 : Fin 4) 0x1004 .sedge ∧ rN Wt.s427.block (0 : Fin 4) 0 1 < 8 ∧ rN Wt.s427.block (0 : Fin 4) 6 2 + rN Wt.s427.block (0 : Fin 4) 10 2 ≤ 480 ∧ rN Wt.s427.block (0 : Fin 4) 8 2 + rN Wt.s427.block (0 : Fin 4) 12 2 ≤ panelRows (pnlOf Wt.s427.block (reqPort Wt.s427.block (0 : Fin 4))) - 32 ∧ (pnlOf Wt.s427.block (reqPort Wt.s427.block (0 : Fin 4))).enable = true ∧ (pnlOf Wt.s427.block (reqPort Wt.s427.block (0 : Fin 4))).fault = false) ∧
    (Asked Wt.s428 (0 : Fin 4) 0x1005 .sedge ∧ rN Wt.s428.block (0 : Fin 4) 0 1 < 8 ∧ (pnlOf Wt.s428.block (reqPort Wt.s428.block (0 : Fin 4))).enable = true ∧ (pnlOf Wt.s428.block (reqPort Wt.s428.block (0 : Fin 4))).fault = false ∧ (pnlOf Wt.s428.block (reqPort Wt.s428.block (0 : Fin 4))).dirty = []) := by
  decide

/-- States and operands that meet the hypotheses of `Obligations.PanelsAndReaders`, clause by clause. -/
theorem test_hypotheses_panels_and_readers_8 :
    (Asked Wt.s429 (0 : Fin 4) 0x1005 .sedge ∧ rN Wt.s429.block (0 : Fin 4) 0 1 < 8 ∧ (pnlOf Wt.s429.block (reqPort Wt.s429.block (0 : Fin 4))).enable = true ∧ (pnlOf Wt.s429.block (reqPort Wt.s429.block (0 : Fin 4))).fault = false ∧ (pnlOf Wt.s429.block (reqPort Wt.s429.block (0 : Fin 4))).dirty ≠ []) ∧
    (Asked Wt.s430 (0 : Fin 4) 0x1006 .sedge ∧ rN Wt.s430.block (0 : Fin 4) 0 1 < 8) ∧
    (Asked Wt.s431 (0 : Fin 4) 0x1007 .sedge) ∧
    (Asked Wt.s432 (0 : Fin 4) 0x1101 .sedge ∧ rN Wt.s432.block (0 : Fin 4) 0 1 < 8 ∧ queueOk (rN Wt.s432.block (0 : Fin 4) 2 2) true = true ∧ connectorOk (fieldOf (rN Wt.s432.block (0 : Fin 4) 4 4) 11 5) = true ∧ 4 ≤ fieldOf (rN Wt.s432.block (0 : Fin 4) 4 4) 16 10 ∧ rBit Wt.s432.block (0 : Fin 4) 1 0 = true) := by
  decide

/-- States and operands that meet the hypotheses of `Obligations.PanelsAndReaders`, clause by clause. -/
theorem test_hypotheses_panels_and_readers_9 :
    (Asked Wt.s433 (0 : Fin 4) 0x1102 .sedge ∧ rN Wt.s433.block (0 : Fin 4) 0 1 < 8 ∧ (nfcOf Wt.s433.block (reqPort Wt.s433.block (0 : Fin 4))).enable = true ∧ (nfcOf Wt.s433.block (reqPort Wt.s433.block (0 : Fin 4))).fault = false ∧ (nfcOf Wt.s433.block (reqPort Wt.s433.block (0 : Fin 4))).card = true) ∧
    (Asked Wt.s434 (0 : Fin 4) 0x1102 .sedge ∧ rN Wt.s434.block (0 : Fin 4) 0 1 < 8 ∧ (nfcOf Wt.s434.block (reqPort Wt.s434.block (0 : Fin 4))).enable = true ∧ (nfcOf Wt.s434.block (reqPort Wt.s434.block (0 : Fin 4))).fault = false ∧ (nfcOf Wt.s434.block (reqPort Wt.s434.block (0 : Fin 4))).card = false ∧ (nfcOf Wt.s434.block (reqPort Wt.s434.block (0 : Fin 4))).polling = false ∧ (nfcOf Wt.s434.block (reqPort Wt.s434.block (0 : Fin 4))).waiting = none) := by
  decide

/-- States and operands that meet the hypotheses of `Obligations.PanelsAndReaders`, clause by clause. -/
theorem test_hypotheses_panels_and_readers_10 :
    (Asked Wt.s435 (0 : Fin 4) 0x1102 .sedge ∧ rN Wt.s435.block (0 : Fin 4) 0 1 < 8 ∧ (nfcOf Wt.s435.block (reqPort Wt.s435.block (0 : Fin 4))).enable = true ∧ (nfcOf Wt.s435.block (reqPort Wt.s435.block (0 : Fin 4))).fault = false ∧ (nfcOf Wt.s435.block (reqPort Wt.s435.block (0 : Fin 4))).card = false ∧ ((nfcOf Wt.s435.block (reqPort Wt.s435.block (0 : Fin 4))).polling = true ∨ (nfcOf Wt.s435.block (reqPort Wt.s435.block (0 : Fin 4))).waiting ≠ none)) := by
  decide

/-- States and operands that meet the hypotheses of `Obligations.PanelsAndReaders`, clause by clause. -/
theorem test_hypotheses_panels_and_readers_11 :
    (Asked Wt.s436 (0 : Fin 4) 0x1103 .sedge ∧ rN Wt.s436.block (0 : Fin 4) 0 1 < 8 ∧ (nfcOf Wt.s436.block (reqPort Wt.s436.block (0 : Fin 4))).enable = true ∧ (nfcOf Wt.s436.block (reqPort Wt.s436.block (0 : Fin 4))).fault = false ∧ (nfcOf Wt.s436.block (reqPort Wt.s436.block (0 : Fin 4))).card = true ∧ 1 ≤ rN Wt.s436.block (0 : Fin 4) 2 2 ∧ rN Wt.s436.block (0 : Fin 4) 2 2 ≤ 1000 ∧ 1 ≤ rN Wt.s436.block (0 : Fin 4) 4 2 ∧ rN Wt.s436.block (0 : Fin 4) 4 2 ≤ 5000) ∧
    (Asked Wt.s437 (0 : Fin 4) 0x1104 .sedge ∧ rN Wt.s437.block (0 : Fin 4) 0 1 < 8 ∧ (nfcOf Wt.s437.block (reqPort Wt.s437.block (0 : Fin 4))).card = true) := by
  decide

/-- States and operands that meet the hypotheses of `Obligations.PanelsAndReaders`, clause by clause. -/
theorem test_hypotheses_panels_and_readers_12 :
    (Asked Wt.s438 (0 : Fin 4) 0x1104 .sedge ∧ rN Wt.s438.block (0 : Fin 4) 0 1 < 8 ∧ (nfcOf Wt.s438.block (reqPort Wt.s438.block (0 : Fin 4))).card = false) ∧
    (Asked Wt.s439 (0 : Fin 4) 0x1105 .sedge) := by
  decide

/-- States and operands that meet the hypotheses of `Obligations.ResetsAndBoot`, clause by clause. -/
theorem test_hypotheses_resets_and_boot_1 :
    (Wt.s440.block.rst.suppliesOk = true ∧ Wt.s440.block.rst.inReset = true ∧ (300 : U16).toNat ≤ 1600) ∧
    (Wt.up.block.rst.suppliesOk = false) ∧
    (Wt.s441.block.tide.lost = true) ∧
    (Wt.up.block.tide.lost = false) ∧
    (coreUp Wt.up.block CoreId.carr = true ∧ coreHalted Wt.up.block CoreId.carr = false) ∧
    ((coreUp Wt.up.block (CoreId.modem 3) = false ∨ coreHalted Wt.up.block (CoreId.modem 3) = true)) ∧
    (coreUp Wt.up.block CoreId.carr = true) ∧
    (coreUp Wt.up.block (CoreId.modem 3) = false) ∧
    (Wt.up.block.rst.sedgeAbsent = none) ∧
    (Wt.s442.block.rst.sedgeAbsent = some (5 : U64) ∧ (5 : U64).toNat + 3750000000 ≤ (now Wt.s442.block).toNat) := by
  decide

/-- States and operands that meet the hypotheses of `Obligations.ResetsAndBoot`, clause by clause. -/
theorem test_hypotheses_resets_and_boot_2 :
    (Wt.s443.block.rst.pending = some (({} : PendingReset)) ∧ (({} : PendingReset)).started = false ∧ (({} : PendingReset)).scope ≠ .core ∧ (({} : PendingReset)).startAt.toNat ≤ (now Wt.s443.block).toNat) ∧
    (Wt.s444.block.rst.pending = some (({ scope := .core, core := 1 } : PendingReset)) ∧ (({ scope := .core, core := 1 } : PendingReset)).started = false ∧ (({ scope := .core, core := 1 } : PendingReset)).scope = .core ∧ coreOf (({ scope := .core, core := 1 } : PendingReset)).core.toNat = some CoreId.carr ∧ (({ scope := .core, core := 1 } : PendingReset)).startAt.toNat ≤ (now Wt.s444.block).toNat) ∧
    (Wt.s445.block.rst.pending = some (({ started := true } : PendingReset)) ∧ (({ started := true } : PendingReset)).started = true) ∧
    (Wt.s446.block.rst.pending = some (({ started := true, scope := .device } : PendingReset)) ∧ (({ started := true, scope := .device } : PendingReset)).started = true ∧ (({ started := true, scope := .device } : PendingReset)).startAt.toNat + stopTicks ≤ (now Wt.s446.block).toNat) := by
  decide

/-- States and operands that meet the hypotheses of `Obligations.ResetsAndBoot`, clause by clause. -/
theorem test_hypotheses_resets_and_boot_3 :
    (Wt.up.block.rst.pending = none) ∧
    (Wt.s445.block.rst.pending = some (({ started := true } : PendingReset)) ∧ (({ started := true } : PendingReset)).started = true ∧ (({ started := true } : PendingReset)).scope = .hub ∧ (({ started := true } : PendingReset)).startAt.toNat + stopTicks ≤ (now Wt.s445.block).toNat) ∧
    (Wt.up.block.rst.pending = none) ∧
    ((coreUp Wt.up.block CoreId.carr = true ∨ Wt.up.block.rst.inReset = true)) ∧
    (coreUp Wt.s447.block CoreId.carr = false ∧ Wt.s447.block.rst.inReset = false ∧ (imageOf Wt.s447.block (coreImage CoreId.carr)).loaded = true ∧ coreHalted Wt.s447.block CoreId.carr = false ∧ Wt.s447.block.upd.trialImage = none) ∧
    (((imageOf Wt.s316.block (coreImage CoreId.carr)).loaded = false ∨ coreHalted Wt.s316.block CoreId.carr = true)) ∧
    ((Wt.up.block.rst.inReset = true ∨ 6 ≤ Wt.up.block.rst.stage.toNat)) := by
  decide

/-- States and operands that meet the hypotheses of `Obligations.ResetsAndBoot`, clause by clause. -/
theorem test_hypotheses_resets_and_boot_4 :
    (Wt.s448.block.rst.inReset = false ∧ Wt.s448.block.rst.state = .boot ∧ 1 ≤ Wt.s448.block.rst.stage.toNat ∧ Wt.s448.block.rst.stage.toNat ≤ 4 ∧ stageReady Wt.s448.block = true) ∧
    (Wt.s449.block.rst.inReset = false ∧ Wt.s449.block.rst.state = .boot ∧ 1 ≤ Wt.s449.block.rst.stage.toNat ∧ Wt.s449.block.rst.stage.toNat ≤ 5 ∧ stageReady Wt.s449.block = false) ∧
    ((Wt.up.block.rst.stage ≠ 6 ∨ Wt.up.block.rst.state ≠ .boot)) ∧
    (Wt.s450.block.rst.stage = 6 ∧ Wt.s450.block.rst.state = .boot ∧ Wt.s450.block.rst.bootFrom.toNat + bootTicks ≤ (now Wt.s450.block).toNat) := by
  decide

/-- States and operands that meet the hypotheses of `Obligations.ResetsAndBoot`, clause by clause. -/
theorem test_hypotheses_resets_and_boot_5 :
    ((qDequeue agSedge Wt.s451.block.upd.inQueue.toNat Wt.s451.block).2 = .error QErr.empty) ∧
    ((qDequeue agSedge Wt.s452.block.upd.inQueue.toNat Wt.s452.block).2 = .ok (7 : Nat)) ∧
    (Wt.s453.block.upd.fetch = some (({ posted := true } : Fetch)) ∧ (({ posted := true } : Fetch)).posted = true ∧ (({ posted := true } : Fetch)).requestedAt.toNat + 150000000 ≤ (now Wt.s453.block).toNat ∧ (({ posted := true } : Fetch)).tries < 3) ∧
    (Wt.s454.block.upd.fetch = some (({ posted := true, tries := 3 } : Fetch)) ∧ (({ posted := true, tries := 3 } : Fetch)).posted = true ∧ (({ posted := true, tries := 3 } : Fetch)).requestedAt.toNat + 150000000 ≤ (now Wt.s454.block).toNat ∧ 3 ≤ (({ posted := true, tries := 3 } : Fetch)).tries) ∧
    (Wt.s455.block.upd.fetch = some (({} : Fetch)) ∧ (({} : Fetch)).posted = false) ∧
    (Wt.up.block.upd.fetch = none) ∧
    (Wt.up.block.rst.state ≠ .bootFail) := by
  decide

/-- States and operands that meet the hypotheses of `Obligations.ResetsAndBoot`, clause by clause. -/
theorem test_hypotheses_resets_and_boot_6 :
    (Wt.s456.block.rst.state = .bootFail ∧ booting Wt.s456.block = true ∧ Wt.s456.block.upd.lastRetry.toNat + tSec ≤ (now Wt.s456.block).toNat) := by
  decide

/-- States and operands that meet the hypotheses of `Obligations.Updates`, clause by clause. -/
theorem test_hypotheses_updates_1 :
    (Wt.up.block.upd.pause = none) ∧
    (Wt.s457.block.upd.pause = some (({ image := 1, begun := true } : Pause)) ∧ (({ image := 1, begun := true } : Pause)).begun = true ∧ mayEndPause Wt.s457.block (({ image := 1, begun := true } : Pause)).image = true ∧ (({ image := 1, begun := true } : Pause)).image ≠ 0 ∧ (({ image := 1, begun := true } : Pause)).revert = false ∧ formatDiffers Wt.s457.block (({ image := 1, begun := true } : Pause)).image = false) ∧
    (Wt.s458.block.upd.pause = some (({ image := 1, begun := true, revert := true } : Pause)) ∧ (({ image := 1, begun := true, revert := true } : Pause)).begun = true ∧ mayEndPause Wt.s458.block (({ image := 1, begun := true, revert := true } : Pause)).image = true ∧ (({ image := 1, begun := true, revert := true } : Pause)).image ≠ 0 ∧ (({ image := 1, begun := true, revert := true } : Pause)).revert = true) := by
  decide

/-- States and operands that meet the hypotheses of `Obligations.Updates`, clause by clause. -/
theorem test_hypotheses_updates_2 :
    (Wt.s459.block.upd.pause = some (({ image := 3, begun := true } : Pause)) ∧ (({ image := 3, begun := true } : Pause)).begun = true ∧ mayEndPause Wt.s459.block (({ image := 3, begun := true } : Pause)).image = true) ∧
    (Wt.s460.block.upd.pause = some (({ image := 1 } : Pause)) ∧ ((({ image := 1 } : Pause)).begun = false ∨ mayEndPause Wt.s460.block (({ image := 1 } : Pause)).image = false)) ∧
    (Wt.s461.block.upd.pause = some (({ begun := true } : Pause)) ∧ (({ begun := true } : Pause)).begun = true ∧ (({ begun := true } : Pause)).image = 0 ∧ (({ begun := true } : Pause)).modem = none ∧ Wt.s461.block.upd.deferred.getLsbD (2 : Fin 16).val = true ∧ modemMaySwitch Wt.s461.block (2 : Fin 16) = true) ∧
    ((Wt.s462.block.upd.deferred.getLsbD (2 : Fin 16).val = false ∨ modemMaySwitch Wt.s462.block (2 : Fin 16) = false)) ∧
    (Wt.up.block.upd.pause = none) := by
  decide

/-- States and operands that meet the hypotheses of `Obligations.Updates`, clause by clause. -/
theorem test_hypotheses_updates_3 :
    (Wt.s463.block.upd.trialImage.isSome = true ∧ Wt.s463.block.upd.warned = false ∧ Wt.s463.block.upd.trialFrom.toNat + (Wt.s463.block.upd.trialLeft.toNat - 60) * tSec ≤ (now Wt.s463.block).toNat) ∧
    ((Wt.up.block.upd.trialImage.isSome = false ∨ Wt.up.block.upd.warned = true)) ∧
    ((Wt.up.block.upd.trialImage.isSome = false ∨ Wt.up.block.upd.trialLeft.toNat < 10)) ∧
    (Wt.s464.block.upd.trialImage = some (1 : Fin 4) ∧ Wt.s464.block.upd.pause = none ∧ Wt.s464.block.upd.commit = none ∧ Wt.s464.block.upd.revertWait = true) ∧
    ((Wt.s465.block.upd.pause ≠ none ∨ Wt.s465.block.upd.commit ≠ none)) := by
  decide

/-- States and operands that meet the hypotheses of `Obligations.Updates`, clause by clause. -/
theorem test_hypotheses_updates_4 :
    (Wt.s466.block.upd.trialImage = some (1 : Fin 4) ∧ Wt.s466.block.upd.pause = none ∧ Wt.s466.block.upd.commit = none ∧ Wt.s466.block.upd.revertWait = false ∧ Wt.s466.block.upd.trialFrom.toNat + Wt.s466.block.upd.trialLeft.toNat * tSec ≤ (now Wt.s466.block).toNat) ∧
    (Wt.up.block.upd.trialImage = none) ∧
    (Wt.s467.block.upd.trialImage.isSome = true ∧ 10 ≤ Wt.s467.block.upd.trialLeft.toNat ∧ Wt.s467.block.upd.trialFrom.toNat + 10 * tSec ≤ (now Wt.s467.block).toNat) ∧
    (Asked Wt.s468 (0 : Fin 4) 0x1301 .sedge) := by
  decide

/-- States and operands that meet the hypotheses of `Obligations.Updates`, clause by clause. -/
theorem test_hypotheses_updates_5 :
    (Asked Wt.s469 (0 : Fin 4) 0x1302 .sedge ∧ Wt.s469.block.pf.active = false ∧ 1 ≤ rN Wt.s469.block (0 : Fin 4) 0 1 ∧ rN Wt.s469.block (0 : Fin 4) 0 1 ≤ 4 ∧ updIdle Wt.s469.block = true ∧ noneStaged Wt.s469.block = true ∧ Wt.s469.block.upd.trialImage = none) ∧
    (Asked Wt.s470 (0 : Fin 4) 0x1302 .sedge ∧ Wt.s470.block.pf.active = false ∧ (rN Wt.s470.block (0 : Fin 4) 0 1 = 0 ∨ 4 < rN Wt.s470.block (0 : Fin 4) 0 1)) := by
  decide

/-- States and operands that meet the hypotheses of `Obligations.Updates`, clause by clause. -/
theorem test_hypotheses_updates_6 :
    (Asked Wt.s471 (0 : Fin 4) 0x1303 .sedge ∧ Wt.s471.block.pf.active = false ∧ 1 ≤ rN Wt.s471.block (0 : Fin 4) 0 1 ∧ rN Wt.s471.block (0 : Fin 4) 0 1 ≤ 4 ∧ ((((List.finRange 4).filter fun j => decide (j.val < (reqImageNo Wt.s471.block (0 : Fin 4)).val)).all fun j => !slotIn Wt.s471.block 1 j && !slotIn Wt.s471.block 3 j) = true) ∧ updIdle Wt.s471.block = true ∧ Wt.s471.block.upd.trialImage = none ∧ otherState Wt.s471.block (reqImageNo Wt.s471.block (0 : Fin 4)) = 1 ∧ switchAllowed Wt.s471.block (reqImageNo Wt.s471.block (0 : Fin 4)) = true ∧ ((reqImageNo Wt.s471.block (0 : Fin 4)) = 2 → Wt.s471.block.slt.unsigned_ = [])) := by
  decide

/-- States and operands that meet the hypotheses of `Obligations.Updates`, clause by clause. -/
theorem test_hypotheses_updates_7 :
    (Asked Wt.s472 (0 : Fin 4) 0x1303 .sedge ∧ Wt.s472.block.pf.active = false ∧ 1 ≤ rN Wt.s472.block (0 : Fin 4) 0 1 ∧ rN Wt.s472.block (0 : Fin 4) 0 1 ≤ 4 ∧ (reqImageNo Wt.s472.block (0 : Fin 4)) = 0 ∧ updIdle Wt.s472.block = false) ∧
    (Asked Wt.s473 (0 : Fin 4) 0x1304 .sedge ∧ Wt.s473.block.pf.active = false ∧ 1 ≤ rN Wt.s473.block (0 : Fin 4) 0 1 ∧ rN Wt.s473.block (0 : Fin 4) 0 1 ≤ 4 ∧ updIdle Wt.s473.block = true ∧ Wt.s473.block.upd.trialImage = some (reqImageNo Wt.s473.block (0 : Fin 4))) := by
  decide

/-- States and operands that meet the hypotheses of `Obligations.Updates`, clause by clause. -/
theorem test_hypotheses_updates_8 :
    (Asked Wt.s474 (0 : Fin 4) 0x1304 .sedge ∧ Wt.s474.block.pf.active = false ∧ 1 ≤ rN Wt.s474.block (0 : Fin 4) 0 1 ∧ rN Wt.s474.block (0 : Fin 4) 0 1 ≤ 4 ∧ updIdle Wt.s474.block = true ∧ Wt.s474.block.upd.trialImage ≠ some (reqImageNo Wt.s474.block (0 : Fin 4))) ∧
    (Asked Wt.s475 (0 : Fin 4) 0x1305 .sedge ∧ Wt.s475.block.pf.active = false ∧ 1 ≤ rN Wt.s475.block (0 : Fin 4) 0 1 ∧ rN Wt.s475.block (0 : Fin 4) 0 1 ≤ 4 ∧ updIdle Wt.s475.block = true ∧ Wt.s475.block.upd.trialImage = some (reqImageNo Wt.s475.block (0 : Fin 4)) ∧ switchAllowed Wt.s475.block (reqImageNo Wt.s475.block (0 : Fin 4)) = true ∧ ((reqImageNo Wt.s475.block (0 : Fin 4)) = 2 → Wt.s475.block.slt.unsigned_ = [])) := by
  decide

/-- States and operands that meet the hypotheses of `Obligations.Updates`, clause by clause. -/
theorem test_hypotheses_updates_9 :
    (Asked Wt.s476 (0 : Fin 4) 0x1306 .sedge ∧ Wt.s476.block.pf.active = false ∧ 1 ≤ rN Wt.s476.block (0 : Fin 4) 0 1 ∧ rN Wt.s476.block (0 : Fin 4) 0 1 ≤ 4 ∧ updIdle Wt.s476.block = true ∧ otherState Wt.s476.block (reqImageNo Wt.s476.block (0 : Fin 4)) = 1) ∧
    (Asked Wt.s477 (0 : Fin 4) 0x1306 .sedge ∧ Wt.s477.block.pf.active = false ∧ 1 ≤ rN Wt.s477.block (0 : Fin 4) 0 1 ∧ rN Wt.s477.block (0 : Fin 4) 0 1 ≤ 4 ∧ updIdle Wt.s477.block = true ∧ otherState Wt.s477.block (reqImageNo Wt.s477.block (0 : Fin 4)) ≠ 1) := by
  decide

/-- States and operands that meet the hypotheses of `Obligations.Updates`, clause by clause. -/
theorem test_hypotheses_updates_10 :
    (Asked Wt.s478 (0 : Fin 4) 0x1307 .sedge ∧ Wt.s478.block.pf.active = false ∧ 60 ≤ rN Wt.s478.block (0 : Fin 4) 0 4 ∧ rN Wt.s478.block (0 : Fin 4) 0 4 ≤ 86400 ∧ queueOk (rN Wt.s478.block (0 : Fin 4) 4 2) false = true ∧ queueOk (rN Wt.s478.block (0 : Fin 4) 6 2) false = true) ∧
    (Asked Wt.s479 (0 : Fin 4) 0x1307 .sedge ∧ Wt.s479.block.pf.active = false ∧ (rN Wt.s479.block (0 : Fin 4) 0 4 < 60 ∨ 86400 < rN Wt.s479.block (0 : Fin 4) 0 4)) ∧
    (Asked Wt.s480 (0 : Fin 4) 0x1308 .sedge ∧ Wt.s480.block.pf.active = false ∧ 1 ≤ rN Wt.s480.block (0 : Fin 4) 0 1 ∧ rN Wt.s480.block (0 : Fin 4) 0 1 ≤ 4 ∧ rN Wt.s480.block (0 : Fin 4) 1 1 = 0) := by
  decide

/-- States and operands that meet the hypotheses of `Obligations.Updates`, clause by clause. -/
theorem test_hypotheses_updates_11 :
    (Asked Wt.s481 (0 : Fin 4) 0x1308 .sedge ∧ Wt.s481.block.pf.active = false ∧ 1 ≤ rN Wt.s481.block (0 : Fin 4) 0 1 ∧ rN Wt.s481.block (0 : Fin 4) 0 1 ≤ 4 ∧ rN Wt.s481.block (0 : Fin 4) 1 1 = 1) := by
  decide

/-- States and operands that meet the hypotheses of `Obligations.Updates`, clause by clause. -/
theorem test_hypotheses_updates_12 :
    (Asked Wt.s482 (0 : Fin 4) 0x1303 .sedge ∧ Wt.s482.block.pf.active = false ∧ 1 ≤ rN Wt.s482.block (0 : Fin 4) 0 1 ∧ rN Wt.s482.block (0 : Fin 4) 0 1 ≤ 4 ∧ ((((List.finRange 4).filter fun j => decide (j.val < (reqImageNo Wt.s482.block (0 : Fin 4)).val)).all fun j => !slotIn Wt.s482.block 1 j && !slotIn Wt.s482.block 3 j) = true) ∧ updIdle Wt.s482.block = true ∧ Wt.s482.block.upd.trialImage = none ∧ otherState Wt.s482.block (reqImageNo Wt.s482.block (0 : Fin 4)) = 1 ∧ switchAllowed Wt.s482.block (reqImageNo Wt.s482.block (0 : Fin 4)) = true ∧ (reqImageNo Wt.s482.block (0 : Fin 4)) = 2 ∧ Wt.s482.block.slt.unsigned_ ≠ []) ∧
    (serving Wt.s483.block (0 : Fin 4) 0x13F0 = true ∧ ((0 : Fin 4) ≠ 0 ∨ bootRom Wt.s483.block = false)) := by
  decide

/-- States and operands that meet the hypotheses of `Obligations.Updates`, clause by clause. -/
theorem test_hypotheses_updates_13 :
    (serving Wt.s484.block (0 : Fin 4) 0x13F0 = true ∧ (0 : Fin 4) = 0 ∧ bootRom Wt.s484.block = true ∧ 1 ≤ rN Wt.s484.block (0 : Fin 4) 0 1 ∧ rN Wt.s484.block (0 : Fin 4) 0 1 ≤ 4 ∧ rN Wt.s484.block (0 : Fin 4) 1 1 ≤ 1) := by
  decide

/-- States and operands that meet the hypotheses of `Obligations.LogsAndDumps`, clause by clause. -/
theorem test_hypotheses_logs_and_dumps_1 :
    ((Wt.up.block.btn.opQueue = 0xFFFF ∨ Wt.up.block.btn.held.isSome = true)) ∧
    (Wt.s485.block.btn.opQueue ≠ 0xFFFF ∧ Wt.s485.block.btn.held = none) ∧
    (Wt.s486.block.dmp.raised = (3 : U16) :: (([] : List U16))) ∧
    (Wt.up.block.dmp.raised = []) ∧
    (Wt.s487.block.dmp.fatalAt = some (5 : U64) ∧ dumpCore Wt.s487.block = true ∧ (allOpen Wt.s487.block = true ∨ (5 : U64).toNat + 270000000 ≤ (now Wt.s487.block).toNat)) ∧
    (Wt.up.block.dmp.fatalAt = none) ∧
    (dumpCore Wt.s488.block = false) ∧
    (Wt.s489.block.dmp.state = 1) ∧
    (Wt.up.block.dmp.state ≠ 1) := by
  decide

/-- States and operands that meet the hypotheses of `Obligations.LogsAndDumps`, clause by clause. -/
theorem test_hypotheses_logs_and_dumps_2 :
    (Asked Wt.s490 (0 : Fin 4) 0x1201 .sedge ∧ rN Wt.s490.block (0 : Fin 4) 0 1 = 1 ∧ 1 ≤ rN Wt.s490.block (0 : Fin 4) 16 1 ∧ rN Wt.s490.block (0 : Fin 4) 16 1 ≤ 15) ∧
    (Asked Wt.s491 (0 : Fin 4) 0x1201 .sedge ∧ rN Wt.s491.block (0 : Fin 4) 0 1 = 0 ∧ 1 ≤ rN Wt.s491.block (0 : Fin 4) 16 1 ∧ rN Wt.s491.block (0 : Fin 4) 16 1 ≤ 15 ∧ legalWaits Wt.s491.block (rN Wt.s491.block (0 : Fin 4) 8 8) (rN Wt.s491.block (0 : Fin 4) 16 1) = false) ∧
    (Asked Wt.s492 (0 : Fin 4) 0x1201 .sedge ∧ 1 < rN Wt.s492.block (0 : Fin 4) 0 1) ∧
    (Asked Wt.s493 (0 : Fin 4) 0x1202 .carr ∧ rN Wt.s493.block (0 : Fin 4) 0 1 ≤ 1 ∧ Wt.s493.block.btn.clearing = false) := by
  decide

/-- States and operands that meet the hypotheses of `Obligations.LogsAndDumps`, clause by clause. -/
theorem test_hypotheses_logs_and_dumps_3 :
    (Asked Wt.s494 (0 : Fin 4) 0x1202 .carr ∧ rN Wt.s494.block (0 : Fin 4) 0 1 ≤ 1 ∧ Wt.s494.block.btn.clearing = true) ∧
    (Asked Wt.s495 (0 : Fin 4) 0x1203 .sedge ∧ queueOk (rN Wt.s495.block (0 : Fin 4) 0 2) true = true) ∧
    (Asked Wt.s496 (0 : Fin 4) 0x1203 .sedge ∧ queueOk (rN Wt.s496.block (0 : Fin 4) 0 2) true = false) ∧
    (Asked Wt.s497 (0 : Fin 4) 0x1204 .sedge) ∧
    (Asked Wt.s498 (0 : Fin 4) 0x1205 .sedge) ∧
    (Asked Wt.s499 (0 : Fin 4) 0x1401 .sedge) ∧
    (Asked Wt.s500 (0 : Fin 4) 0x1402 .sedge ∧ Wt.s500.block.dmp.exporting = none ∧ queueOk (rN Wt.s500.block (0 : Fin 4) 0 2) false = true ∧ Wt.s500.block.dmp.state = 2) := by
  decide

/-- States and operands that meet the hypotheses of `Obligations.LogsAndDumps`, clause by clause. -/
theorem test_hypotheses_logs_and_dumps_4 :
    (Asked Wt.s501 (0 : Fin 4) 0x1402 .sedge ∧ Wt.s501.block.dmp.exporting = none ∧ queueOk (rN Wt.s501.block (0 : Fin 4) 0 2) false = true ∧ Wt.s501.block.dmp.state = 0) ∧
    (Asked Wt.s502 (0 : Fin 4) 0x1402 .sedge ∧ queueOk (rN Wt.s502.block (0 : Fin 4) 0 2) false = true ∧ Wt.s502.block.dmp.state ≠ 0 ∧ dumpBusy Wt.s502.block.dmp = true ∧ (∀ x, Wt.s502.block.dmp.exporting = some x → x.mbx ≠ (0 : Fin 4))) ∧
    (Asked Wt.s503 (0 : Fin 4) 0x1403 .sedge ∧ Wt.s503.block.dmp.state = 0) ∧
    (Asked Wt.s504 (0 : Fin 4) 0x1403 .sedge ∧ Wt.s504.block.dmp.state ≠ 0 ∧ dumpBusy Wt.s504.block.dmp = false) := by
  decide

/-- States and operands that meet the hypotheses of `Obligations.LogsAndDumps`, clause by clause. -/
theorem test_hypotheses_logs_and_dumps_5 :
    (Asked Wt.s505 (0 : Fin 4) 0x1404 .carr) := by
  decide

/-- States and operands that meet the hypotheses of `Obligations.TraceAndDebug`, clause by clause. -/
theorem test_hypotheses_trace_and_debug_1 :
    (Wt.up.block.rpl.state ≠ 3) ∧
    (Wt.s506.block.rpl.state = 3 ∧ (qDequeue agDump Wt.s506.block.rpl.queue.toNat Wt.s506.block).2 = .error QErr.denied) ∧
    (Wt.s507.block.rpl.accepted = [] ∧ Wt.s507.block.rpl.state = 3) ∧
    (Wt.s508.block.rpl.state = 3 ∧ (qDequeue agDump Wt.s508.block.rpl.queue.toNat Wt.s508.block).2 = .ok (7 : Nat)) ∧
    (Wt.s509.block.rpl.accepted = []) ∧
    (Wt.s510.block.rpl.accepted ≠ []) ∧
    (Asked Wt.s511 (0 : Fin 4) 0x1405 .sedge ∧ rBit Wt.s511.block (0 : Fin 4) 0 0 = true ∧ queueOk (rN Wt.s511.block (0 : Fin 4) 2 2) false = true) := by
  decide

/-- States and operands that meet the hypotheses of `Obligations.TraceAndDebug`, clause by clause. -/
theorem test_hypotheses_trace_and_debug_2 :
    (Asked Wt.s512 (0 : Fin 4) 0x1405 .sedge ∧ rBit Wt.s512.block (0 : Fin 4) 0 0 = false ∧ queueOk (rN Wt.s512.block (0 : Fin 4) 2 2) true = true) ∧
    (Asked Wt.s513 (0 : Fin 4) 0x1405 .sedge ∧ rBit Wt.s513.block (0 : Fin 4) 0 0 = true ∧ queueOk (rN Wt.s513.block (0 : Fin 4) 2 2) false = false) ∧
    (Asked Wt.s514 (0 : Fin 4) 0x1406 .carr ∧ strapReplay Wt.s514.block.rst.choice.toNat = true ∧ queueOk (rN Wt.s514.block (0 : Fin 4) 0 2) false = true ∧ allSettled Wt.s514.block = true ∧ Wt.s514.block.upd.pause = none) ∧
    (Asked Wt.s515 (0 : Fin 4) 0x1406 .carr ∧ strapReplay Wt.s515.block.rst.choice.toNat = false) ∧
    (Asked Wt.s516 (0 : Fin 4) 0x1407 .sedge) := by
  decide

/-- States and operands that meet the hypotheses of `Obligations.TraceAndDebug`, clause by clause. -/
theorem test_hypotheses_trace_and_debug_3 :
    (hasControl Wt.s517.block = true ∧ Wt.s517.block.rst.inReset = true ∧ Wt.s517.block.rst.pinLow = true) ∧
    (Wt.up.block.dbg.challenge = none) ∧
    (unlockable Wt.s518.block = true) ∧
    (unlockable Wt.s518.block = true ∧ Wt.s518.block.dbg.challenge = none) ∧
    (unlockable Wt.s519.block = true ∧ Wt.s519.block.dbg.challenge = some ((([1] : List U8)), (9000000000 : U64)) ∧ (now Wt.s519.block).toNat < (9000000000 : U64).toNat ∧ ((1 : U8) = 1 ∨ (1 : U8) = 2)) ∧
    (Wt.s520.block.dbg.challenge = some ((([1] : List U8)), (5 : U64)) ∧ (5 : U64).toNat ≤ (now Wt.s520.block).toNat) ∧
    (hasObserve Wt.s521.block = true) := by
  decide

/-- States and operands that meet the hypotheses of `Obligations.TraceAndDebug`, clause by clause. -/
theorem test_hypotheses_trace_and_debug_4 :
    (hasObserve Wt.s521.block = true ∧ ((DebugOp.readWindow 0)) = .readWindow (0 : U16)) ∧
    (hasControl Wt.s521.block = true ∧ coreUp Wt.s521.block CoreId.carr = true ∧ coreHalted Wt.s521.block CoreId.carr = false ∧ Wt.s521.block.rst.inReset = false ∧ CoreId.carr ≠ .dyke) ∧
    (hasControl Wt.s521.block = true ∧ coreUp Wt.s521.block CoreId.dyke = true ∧ coreHalted Wt.s521.block CoreId.dyke = false ∧ Wt.s521.block.rst.inReset = false ∧ CoreId.dyke = .dyke) ∧
    ((coreUp Wt.s522.block CoreId.carr = false ∨ coreHalted Wt.s522.block CoreId.carr = true ∨ Wt.s522.block.rst.inReset = true)) ∧
    ((hasControl Wt.up.block = false ∨ coreHalted Wt.up.block CoreId.carr = false)) := by
  decide

/-- States and operands that meet the hypotheses of `Obligations.TraceAndDebug`, clause by clause. -/
theorem test_hypotheses_trace_and_debug_5 :
    ((hasControl Wt.up.block = false ∨ Wt.up.block.rst.inReset = true)) ∧
    (true = true ∧ Wt.s443.block.rst.pending ≠ none) ∧
    (hasControl Wt.up.block = false) ∧
    (hasControl Wt.s522.block = true ∧ coreHalted Wt.s522.block CoreId.carr = true) ∧
    (hasControl Wt.s522.block = true ∧ coreHalted Wt.s522.block CoreId.carr = true ∧ Wt.s522.block.rst.inReset = false) ∧
    ((coreHalted Wt.up.block CoreId.carr = false ∨ hasControl Wt.up.block = false ∨ Wt.up.block.rst.inReset = true)) ∧
    (hasControl Wt.s521.block = true ∧ Wt.s521.block.rst.inReset = false ∧ true = true ∧ Wt.s521.block.rst.pending = none) := by
  decide

/-- States and operands that meet the hypotheses of `Obligations.TraceAndDebug`, clause by clause. -/
theorem test_hypotheses_trace_and_debug_6 :
    (hasControl Wt.s521.block = true ∧ Wt.s521.block.rst.inReset = false ∧ false = false) := by
  decide

end Sys2Proof.Tests
end

section
/-! PROOFS. The rules that the proofs of the statements share: reads of a vector, units read through a frame, the state a command
leads to, the answers of a mailbox, interrupts, and instants that have come. -/

namespace Sys2Proof

open Machine

/-! ### Vectors -/

@[simp] theorem vget_vupd_self {α : Type} {n : Nat} (v : Vector α n) (i : Fin n) (f : α → α) : vget (vupd v i f) i = f (vget v i) := by
  simp [vget, vupd]

theorem vget_vupd_ne {α : Type} {n : Nat} (v : Vector α n) {i j : Fin n} (f : α → α) (h : j ≠ i) : vget (vupd v i f) j = vget v j := by
  simp [vget, vupd, Fin.val_ne_of_ne h.symm]

@[simp] theorem vget_vset_self {α : Type} {n : Nat} (v : Vector α n) (i : Fin n) (x : α) : vget (vset v i x) i = x := by
  simp [vget, vset]

/-! ### A unit that a frame does not list -/

namespace Block.Only

variable {l : List Part} {b c : Block}

theorem tide_eq (h : Block.Only l b c) (hp : Part.tide ∉ l) : c.tide = b.tide := h .tide hp
theorem lau_eq (h : Block.Only l b c) (hp : Part.lau ∉ l) : c.lau = b.lau := h .lau hp
theorem barrier_eq (h : Block.Only l b c) (hp : Part.barrier ∉ l) : c.barrier = b.barrier := h .barrier hp
theorem fab_eq (h : Block.Only l b c) (hp : Part.fab ∉ l) : c.fab = b.fab := h .fab hp
theorem d2d_eq (h : Block.Only l b c) (hp : Part.d2d ∉ l) : c.d2d = b.d2d := h .d2d hp
theorem saf_eq (h : Block.Only l b c) (hp : Part.saf ∉ l) : c.saf = b.saf := h .saf hp
theorem lsw_eq (h : Block.Only l b c) (hp : Part.lsw ∉ l) : c.lsw = b.lsw := h .lsw hp
theorem mbx_eq (h : Block.Only l b c) (hp : Part.mbx ∉ l) : c.mbx = b.mbx := h .mbx hp
theorem hic_eq (h : Block.Only l b c) (hp : Part.hic ∉ l) : c.hic = b.hic := h .hic hp
theorem qmg_eq (h : Block.Only l b c) (hp : Part.qmg ∉ l) : c.qmg = b.qmg := h .qmg hp
theorem rst_eq (h : Block.Only l b c) (hp : Part.rst ∉ l) : c.rst = b.rst := h .rst hp

end Block.Only

/-- A change that keeps a quantity for each element keeps it through a whole list. -/
theorem forAll_keeps {β γ : Type} {f : β → Block → Block} {q : Block → γ} (hf : ∀ x b, q (f x b) = q b) (xs : List β) (b : Block) :
    q (forAll xs f b) = q b := by
  induction xs generalizing b with
  | nil => rfl
  | cons x xs ih => exact (ih (f x b)).trans (hf x b)

theorem onlyIf_keeps {γ : Type} {f : Block → Block} {q : Block → γ} (hf : ∀ b, q (f b) = q b) (u : Bool) (b : Block) :
    q (onlyIf u f b) = q b := by
  cases u
  · rfl
  · exact hf b

namespace Machine

/-! ### The state a command leads to -/

/-- The state that the effect `f` of a command leads to. -/
def State.after (s : State) (f : Block → Block) : State := { s with block := safetyItem s.block (f s.block) }

theorem State.run_eq (s : State) (f : Block → Block) : s.run f = .next (s.after f) := rfl

/-- Outside replay an input has its effect (R538). -/
theorem State.input_eq {s : State} (hr : s.block.rpl.mode = false) (f : Block → Block) : s.input f = .next (s.after f) := by
  simp [State.input, State.run, State.after, hr]

section
variable (s : State) (f : Block → Block)

@[simp] theorem State.after_tide : (s.after f).block.tide = (f s.block).tide := (safetyItem_frame _ _).tide_eq (by decide)
@[simp] theorem State.after_lau : (s.after f).block.lau = (f s.block).lau := (safetyItem_frame _ _).lau_eq (by decide)
@[simp] theorem State.after_barrier : (s.after f).block.barrier = (f s.block).barrier := (safetyItem_frame _ _).barrier_eq (by decide)
@[simp] theorem State.after_fab : (s.after f).block.fab = (f s.block).fab := (safetyItem_frame _ _).fab_eq (by decide)
@[simp] theorem State.after_d2d : (s.after f).block.d2d = (f s.block).d2d := (safetyItem_frame _ _).d2d_eq (by decide)
@[simp] theorem State.after_rst : (s.after f).block.rst = (f s.block).rst := (safetyItem_frame _ _).rst_eq (by decide)
@[simp] theorem State.after_saf : (s.after f).block.saf = (f s.block).saf := (safetyItem_frame _ _).saf_eq (by decide)
@[simp] theorem State.after_lsw : (s.after f).block.lsw = (f s.block).lsw := (safetyItem_frame _ _).lsw_eq (by decide)
@[simp] theorem State.after_mbx : (s.after f).block.mbx = (f s.block).mbx := (safetyItem_frame _ _).mbx_eq (by decide)
@[simp] theorem State.after_qmg : (s.after f).block.qmg = (f s.block).qmg := (safetyItem_frame _ _).qmg_eq (by decide)
@[simp] theorem State.after_hic : (s.after f).block.hic = (f s.block).hic := (safetyItem_frame _ _).hic_eq (by decide)

end

/-- Equal effects lead to the same state. -/
theorem State.after_block {s : State} {f : Block → Block} {c : Block} (h : f s.block = c) : (s.after f).block = safetyItem s.block c :=
  h ▸ rfl

/-! ### Interrupts -/

theorem irq_pends {n : Nat} (h : 1 ≤ n ∧ n ≤ 510) (b : Block) : Raised (irq n b) ⟨n, by omega⟩ := by
  simp [Raised, irq, h, hicPend]

@[simp] theorem irq_tide (n : Nat) (b : Block) : (irq n b).tide = b.tide := (irq_frame n b).tide_eq (by decide)
@[simp] theorem irq_barrier (n : Nat) (b : Block) : (irq n b).barrier = b.barrier := (irq_frame n b).barrier_eq (by decide)
@[simp] theorem irq_fab (n : Nat) (b : Block) : (irq n b).fab = b.fab := (irq_frame n b).fab_eq (by decide)
@[simp] theorem irq_d2d (n : Nat) (b : Block) : (irq n b).d2d = b.d2d := (irq_frame n b).d2d_eq (by decide)

/-! ### Instants -/

/-- An event whose instant has come has its effect at once. -/
theorem atInstant_of_le {t : Nat} {b : Block} (h : t ≤ (now b).toNat) (f : Block → Block) : atInstant t f b = f b := by
  have hn : ¬ (b.tide.running = true ∧ b.tide.now.toNat < t) := fun hc => absurd h (Nat.not_le.mpr hc.2)
  have hle : t ≤ b.tide.now.toNat := h
  simp [atInstant, tideTo, hn, hle]

theorem afterTicks_of_le {t : U64} {n : Nat} {b : Block} (h : t.toNat + n ≤ (now b).toNat) (f : Block → Block) : afterTicks t n f b = f b :=
  atInstant_of_le h f

/-- While Tide runs it runs on to the instant of an event. -/
theorem atInstant_of_running {t : Nat} {b : Block} (hr : b.tide.running = true) (ht : t < 2 ^ 64) (f : Block → Block) :
    atInstant t f b = f (tideTo t b) := by
  have hle : t ≤ (tideTo t b).tide.now.toNat := by
    unfold tideTo
    split
    · exact (Nat.mod_eq_of_lt ht).ge
    · next h => simp only [hr, true_and] at h; omega
  simp [atInstant, hle]

@[simp] theorem tideTo_d2d (t : Nat) (b : Block) : (tideTo t b).d2d = b.d2d := (tideTo_frame t b).d2d_eq (by decide)

@[simp] theorem tideTo_lost (t : Nat) (b : Block) : (tideTo t b).tide.lost = b.tide.lost := by
  unfold tideTo
  split <;> rfl

/-! ### Requests and answers (R423, R428) -/

/-- A request that is being executed runs the effect of its command. -/
theorem command_of_asked {s : State} {m : Fin 4} {op : Nat} {need : Need} (h : Asked s m op need) (f : Block → Block) :
    command m op need f s.block = f s.block := by
  obtain ⟨hserving, hcore, htrace⟩ := h
  simp [command, hserving, hcore, htrace]

theorem run_of_asked {s : State} {m : Fin 4} {op : Nat} {need : Need} (h : Asked s m op need) (f : Block → Block) :
    s.run (command m op need f) = .next (s.after f) := by
  simp [State.run, State.after, command_of_asked h]

theorem respond_mbx (m : Fin 4) (status : Nat) (p : List U8) (b : Block) :
    (respond m status p b).mbx = vset b.mbx m { mbxOf b m with
      resp := Memory.ofBytes (leBytes 2 (reqOp b m) ++ b16 (reqTag b m) ++ leBytes 2 status ++ leBytes 2 (p.take 1016).length ++ p.take 1016)
      answered := true } := by
  unfold respond onlyIf
  split
  · exact (traceItem_frame _ _ _ _ _).mbx_eq (by decide)
  · rfl

/-- A response written last, over a block whose mailboxes are those of the request, is the answer. -/
theorem answered_of_respond {s : State} {f : Block → Block} {b : Block} {m : Fin 4} {status : Nat} {p : List U8}
    (hf : f s.block = respond m status p b) (hm : b.mbx = s.block.mbx) (hp : p.length ≤ 1016) : Answered s (s.after f) m status p := by
  have hop : reqOp b m = reqOp s.block m := by simp [reqOp, mbxOf, hm]
  have htag : reqTag b m = reqTag s.block m := by simp [reqTag, mbxOf, hm]
  simp [Answered, mbxOf, hf, respond_mbx, hop, htag, List.take_of_length_le hp]

/-- A refusal answers its status and no payload. -/
theorem answered_of_refuse {s : State} {f : Block → Block} {m : Fin 4} {status : Nat} (hf : f s.block = refuse m status s.block) :
    Answered s (s.after f) m status [] :=
  answered_of_respond hf rfl (by simp)

/-- A refused command changes its mailbox and the trace of a recording (R424). -/
theorem after_refuse_frame {s : State} {f : Block → Block} {m : Fin 4} {status : Nat} (hf : f s.block = refuse m status s.block) :
    Block.Only [.mbx, .rpl] s.block (s.after f).block := by
  rw [State.after_block hf]
  exact (refuse_frame m status s.block).trans ((safetyItem_frame _ _).mono (by decide))

theorem checked_of_pass {m : Fin 4} {l : List (Nat × Bool)} (h : firstFail l = none) (f : Block → Block) (b : Block) :
    checked m l f b = f b := by
  simp [checked, h]

theorem checked_of_fail {m : Fin 4} {l : List (Nat × Bool)} {status : Nat} (h : firstFail l = some status) (f : Block → Block) (b : Block) :
    checked m l f b = refuse m status b := by
  simp [checked, h]

@[simp] theorem leBytes_length (n v : Nat) : (leBytes n v).length = n := by
  induction n generalizing v with
  | zero => rfl
  | succ n ih => simp [leBytes, ih]

@[simp] theorem b64_length (w : U64) : (b64 w).length = 8 := leBytes_length _ _

@[simp] theorem b32_length (w : U32) : (b32 w).length = 4 := leBytes_length _ _

@[simp] theorem zeros_length (n : Nat) : (zeros n).length = n := List.length_replicate

end Machine

end Sys2Proof
end

section
/-! PROOFS. Engines and their slack (R65 to R67), the launcher's commands (R49, R52, R71), PPS (R43) and the idle step (R37). -/

namespace Sys2Proof

open Machine

namespace Machine

/-! ### Slack -/

/-- A slack warning is a count and its stamp: the measured slack stays. -/
theorem slackWarning_self (e : Fin 15) (b : Block) :
    (vget (slackWarning e b).fab e).last = (vget b.fab e).last ∧ (vget (slackWarning e b).fab e).least = (vget b.fab e).least := by
  unfold slackWarning
  extract_lets x due c
  split <;> simp [c]

theorem slackWarning_other {e d : Fin 15} (h : d ≠ e) (b : Block) : vget (slackWarning e b).fab d = vget b.fab d := by
  unfold slackWarning
  extract_lets x due c
  split <;> simp [c, vget_vupd_ne _ _ h]

/-- A completion within the deadline sets the last slack and lowers the least (R65). -/
theorem slackMeasure_self (e : Fin 15) (c : Nat) (b : Block) :
    (vget (slackMeasure e c b).fab e).last = BitVec.ofNat 32 (deadlineOf e - c) ∧
      (vget (slackMeasure e c b).fab e).least = BitVec.ofNat 32 (min (vget b.fab e).least.toNat (deadlineOf e - c)) := by
  unfold slackMeasure
  dsimp only
  split
  · simp [slackWarning_self]
  · simp

theorem slackMeasure_other {e d : Fin 15} (h : d ≠ e) (c : Nat) (b : Block) : vget (slackMeasure e c b).fab d = vget b.fab d := by
  unfold slackMeasure
  dsimp only
  split
  · simp [slackWarning_other h, vget_vupd_ne _ _ h]
  · simp [vget_vupd_ne _ _ h]

/-- An overrun counts once; neither its log entry nor its consequence touches the slack figures (R67). -/
theorem engineOverrun_fab (e : Fin 15) (who : U16) (b : Block) :
    (engineOverrun e who b).fab = vupd b.fab e fun x => { x with overruns := satInc x.overruns } := by
  unfold engineOverrun
  rw [(overrunActs_frame _ _ _).fab_eq (by decide), (irqLog_frame _ _ _ _).fab_eq (by decide), updSlack_fab]

theorem engineComplete_of_le {e : Fin 15} {c : Nat} (h : c ≤ deadlineOf e) (b : Block) : engineComplete e c b = slackMeasure e c b := by
  simp [engineComplete, Nat.not_lt.mpr h]

/-! ### The launcher -/

theorem takeEntry_of_dequeue {r u : Nat} {b : Block} (hrun : launcherRuns b = true) (hring : (ringOf b r).armed < 8)
    (hall : armedCount b < 4096) (hq : (qDequeue agLauncher r b).2 = .ok u) :
    takeEntry r b = takeItem r u (qDequeue agLauncher r b).1 := by
  have hroom : ¬ (!launcherRuns b ∨ 8 ≤ (ringOf b r).armed ∨ 4096 ≤ armedCount b) := by
    rw [hrun]; simp; omega
  rcases hd : qDequeue agLauncher r b with ⟨c, o⟩
  rw [hd] at hq
  cases hq
  simp only [takeEntry, if_neg hroom, hd]

theorem entryFire_of_due {i : U64} {b : Block} (first second : Bool) (hi : leastTime (ringItems b RingItem.isArmed) = some i)
    (hrun : launcherRuns b = true) (hdue : i.toNat ≤ (now b).toNat) : entryFire first second b = fireAt i first second b := by
  simp [entryFire, hi, hrun, atInstant_of_le hdue]

theorem adieResult_of_due {i : U64} {b : Block} (hi : leastTime (ringItems b RingItem.isDecided) = some i)
    (hdue : multipleFrom 16 i.toNat + 24 ≤ (now b).toNat) :
    adieResult b = forAll ((ringItems b fun x => x.isDecided && decide (x.entry.time.toNat ≤ multipleFrom 16 i.toNat)).map (·.1)) trimRing
      (forAll (ringItems b fun x => x.isDecided && decide (x.entry.time.toNat ≤ multipleFrom 16 i.toNat)) adieOne b) := by
  simp [adieResult, hi, atInstant_of_le hdue]

/-! ### PPS -/

/-- The window of R43 around one second after the last accepted edge. -/
theorem ppsEdge_of_on {falling : Bool} {b : Block} (hen : b.tide.ppsEnable = true) (hrun : b.tide.running = true)
    (hpol : b.tide.ppsFalling = falling) :
    ppsEdge falling b =
      if b.tide.ppsSeen = false ∨ (((now b).toNat : Int) - b.tide.ppsLast.toNat - (tSec : Int)).natAbs ≤ ppsWindow b.tide then ppsAccept b
      else updTide (fun t => { t with ppsRejected := satInc t.ppsRejected }) b := by
  simp [ppsEdge, hen, hrun, hpol]

/-- What an accepted edge writes when it does not discipline the PLL. -/
theorem ppsAccept_of_free {b : Block} (hd : b.tide.ppsDiscipline = false) :
    ppsAccept b = irq 10 (updTide (fun t => { t with
      ppsSeen := true, ppsState := 2, ppsLast := now b, ppsSince := now b
      ppsRecent := now b :: t.ppsRecent.filter fun x => decide (since b x ≤ 10 * tSec)
      ppsAccepted := satInc t.ppsAccepted
      ppsInterval := if !t.ppsSeen then t.ppsInterval else BitVec.ofInt 32 ((now b).toNat - t.ppsLast.toNat - (tSec : Int)) }) b) := by
  simp only [ppsAccept, hd, Bool.false_and, Bool.false_eq_true, if_false]
  rfl

theorem ppsLost_of_due {b : Block} (hen : b.tide.ppsEnable = true) (hst : b.tide.ppsState ≠ 3)
    (hdue : b.tide.ppsSince.toNat + 3000000000 ≤ (now b).toNat) :
    ppsLost b = irq 11 (updTide (fun t => { t with ppsState := 3 }) b) := by
  have hnot : (b.tide.ppsState != 3) = true := bne_iff_ne.mpr hst
  simp only [ppsLost, hen, hnot, Bool.and_self, if_true, afterTicks_of_le hdue]

/-! ### The tick -/

theorem countTide_tide (b : Block) :
    (countTide b).tide = { b.tide with now := if b.tide.running then b.tide.now + 1 else b.tide.now } := by
  unfold countTide
  split <;> rfl

end Machine

/-- Settles O4: the step of an empty queue is one tick, which counts Tide before the background work. -/
theorem idleStep : Obligations.IdleStep := by
  intro s hq
  refine ⟨s.after tick, ?_, hq, rfl, countTide_tide _⟩
  simp only [step, hq]
  exact s.run_eq tick

/-- Settles O12. The launcher's three commands run the effect named in their clause once their conditions hold; the slack figures of an
engine are all that a completion or an overrun writes in the fabric unit. -/
theorem enginesAndLauncher : Obligations.EnginesAndLauncher := by
  refine ⟨fun s e c hc => ?_, fun s e who => ?_, fun s r u hrun hring hall hq => ?_, fun s first second i hi hrun hdue => ?_,
    fun s i hi hdue => ?_⟩
  · refine ⟨s.after (engineComplete e c.toNat), rfl, execEngineComplete_frame e c rfl, ?_⟩
    have hself := slackMeasure_self e c.toNat s.block
    rw [State.after_fab, engineComplete_of_le hc]
    exact ⟨hself.1, hself.2, fun d hd => slackMeasure_other hd _ _⟩
  · refine ⟨s.after (engineOverrun e who), rfl, execEngineOverrun_frame e who rfl, ?_⟩
    rw [State.after_fab, engineOverrun_fab, vget_vupd_self]
    exact ⟨rfl, fun d hd => vget_vupd_ne _ _ hd⟩
  · exact ⟨s.after (takeEntry r.val), rfl, execLauncherTakeEntry_frame r rfl,
      State.after_block (takeEntry_of_dequeue hrun hring hall hq)⟩
  · exact ⟨s.after (entryFire first second), rfl, execEntryFire_frame first second rfl,
      State.after_block (entryFire_of_due first second hi hrun hdue)⟩
  · exact ⟨s.after adieResult, rfl, execAdieResult_frame rfl, State.after_block (adieResult_of_due hi hdue)⟩

/-- Settles O13: the window decides an edge, and an accepted one that does not discipline writes the PPS fields and raises source 10. -/
theorem ppsEdges : Obligations.PpsEdges := by
  refine ⟨fun s falling hrep hen hrun hpol hdisc hwin => ?_, fun s falling hrep hen hrun hpol hseen hwin => ?_,
    fun s hen hst hdue => ?_⟩
  · have he : exec (.ppsEdge falling) s = .next (s.after (ppsEdge falling)) := State.input_eq hrep _
    have heff := (ppsEdge_of_on hen hrun hpol).trans ((if_pos hwin).trans (ppsAccept_of_free hdisc))
    refine ⟨_, he, execPpsEdge_frame falling he, ?_⟩
    simp only [State.after_tide, Raised, State.after_hic, heff, irq_tide, updTide_tide, true_and]
    exact irq_pends (by decide) _
  · have he : exec (.ppsEdge falling) s = .next (s.after (ppsEdge falling)) := State.input_eq hrep _
    have hout : ¬ (s.block.tide.ppsSeen = false ∨
        (((now s.block).toNat : Int) - s.block.tide.ppsLast.toNat - (tSec : Int)).natAbs ≤ ppsWindow s.block.tide) := by
      rw [hseen]; simp; omega
    have heff := (ppsEdge_of_on hen hrun hpol).trans (if_neg hout)
    refine ⟨_, he, execPpsEdge_frame falling he, ?_⟩
    simp only [State.after_tide, heff, updTide_tide]
  · refine ⟨s.after ppsLost, rfl, execPpsLost_frame rfl, ?_⟩
    simp only [State.after_tide, Raised, State.after_hic, ppsLost_of_due hen hst hdue, irq_tide, updTide_tide, true_and]
    exact irq_pends (by decide) _

end Sys2Proof
end

section
/-! PROOFS. Frames of the die-to-die link, loss of Tide, the openings of the A die, and the barrier (R58, R59, R69 to R74). -/

namespace Sys2Proof

open Machine

namespace Machine

/-! ### Loss of Tide (R59) -/

@[simp] theorem loseTide_d2d (b : Block) : (loseTide b).d2d = b.d2d := (loseTide_frame b).d2d_eq (by decide)

@[simp] theorem loseTide_lost (b : Block) : (loseTide b).tide.lost = true := by
  unfold loseTide
  split
  · next hlost => exact hlost
  · simp only [(powerFailCommit_frame _ _).tide_eq (by decide), (contain_frame _ _).tide_eq (by decide), updTide_tide]

theorem tideLoss_lost (c : TideLossCause) (b : Block) : (tideLoss c b).tide.lost = true := by
  cases c <;> simp [tideLoss]

/-- The first link fault takes the Tide lane with it (R73); a later one changes nothing of the link. -/
theorem linkFault_d2d (b : Block) :
    (linkFault b).d2d = { b.d2d with fault := true, tideLaneOk := b.d2d.fault && b.d2d.tideLaneOk } := by
  unfold linkFault
  split
  · next hf => rw [hf, Bool.true_and, ← hf]
  · next hf => simp [tideLoss, hf]

theorem linkFault_lost {b : Block} (h : b.d2d.fault = false) : (linkFault b).tide.lost = true := by
  simp [linkFault, h, tideLoss_lost]

theorem dykeTideCheck_of_valid {b : Block} (hv : (crossOf b .tideToDyke).copyValid = true) (advance : U32) :
    dykeTideCheck advance b =
      let k := if advance.toNat < 75000 then b.d2d.dykeSlow + 1 else 0
      let c := updD2d (fun d => { d with dykeSlow := k }) b
      if 2 ≤ k ∧ c.rst.dyke then loseTide c else c := by
  simp [dykeTideCheck, hv]

theorem dykeTideCheck_of_fast {b : Block} {advance : U32} (hv : (crossOf b .tideToDyke).copyValid = true) (ha : 75000 ≤ advance.toNat) :
    dykeTideCheck advance b = updD2d (fun d => { d with dykeSlow := 0 }) b := by
  simp [dykeTideCheck_of_valid hv, Nat.not_lt.mpr ha]

theorem dykeTideCheck_of_slow {b : Block} {advance : U32} (hv : (crossOf b .tideToDyke).copyValid = true) (ha : advance.toNat < 75000)
    (hs : 1 ≤ b.d2d.dykeSlow) (hd : b.rst.dyke = true) :
    dykeTideCheck advance b = loseTide (updD2d (fun d => { d with dykeSlow := d.dykeSlow + 1 }) b) := by
  have h2 : 2 ≤ b.d2d.dykeSlow + 1 := by omega
  simp [dykeTideCheck_of_valid hv, ha, hd, h2, updD2d]

/-! ### The A die opens (R74): the interlock loop and limp-home -/

/-- The interlock loop, and whether limp-home is active: no switching of a channel touches them. -/
def loopAndLimp (b : Block) : Bool × Bool := (b.saf.ilkClosed, b.lsw.limpActive)

theorem irq_loopAndLimp (n : Nat) (b : Block) : loopAndLimp (irq n b) = loopAndLimp b := by
  simp only [loopAndLimp, (irq_frame n b).saf_eq (by decide), (irq_frame n b).lsw_eq (by decide)]

theorem coilStart_loopAndLimp (n : Fin 16) (b : Block) : loopAndLimp (coilStart n b) = loopAndLimp b := by
  unfold coilStart onlyIf
  extract_lets x k supply head
  split
  · split
    · exact irq_loopAndLimp _ _
    · rfl
  · rfl

theorem coilRelease_loopAndLimp (n : Fin 16) (b : Block) : loopAndLimp (coilRelease n b) = loopAndLimp b := by
  refine forAll_keeps (fun k c => ?_) _ _
  split
  · rfl
  · exact (coilStart_loopAndLimp _ _).trans rfl

theorem lsOff_loopAndLimp (n : Fin 16) (b : Block) : loopAndLimp (lsOff n b) = loopAndLimp b := by
  unfold lsOff
  extract_lets x c under d
  split
  · rfl
  · split
    · rfl
    · refine (onlyIf_keeps (coilRelease_loopAndLimp n) _ _).trans ((onlyIf_keeps (fun e => ?_) _ _).trans rfl)
      exact (irq_loopAndLimp _ _).trans rfl

theorem driveHs_loopAndLimp (c : Fin 40) (b : Block) : loopAndLimp (driveHs c b) = loopAndLimp b := by
  unfold driveHs
  extract_lets on d
  split
  · rfl
  · split
    · refine (forAll_keeps (q := loopAndLimp) (fun k e => ?_) _ _).trans rfl
      exact (coilStart_loopAndLimp _ _).trans rfl
    · rfl

theorem openAll_loopAndLimp (b : Block) : loopAndLimp (forAll allNodes lsOff b) = loopAndLimp b :=
  forAll_keeps lsOff_loopAndLimp _ _

/-- Entering limp-home leaves the interlock loop as it is. -/
theorem limpEnter_loopAndLimp (b : Block) : loopAndLimp (limpEnter b) = (b.saf.ilkClosed, true) := by
  unfold limpEnter
  split
  · next hlimp => simp [loopAndLimp, hlimp]
  · refine (openAll_loopAndLimp _).trans ((forAll_keeps driveHs_loopAndLimp _ _).trans ?_)
    simp only [loopAndLimp, (irq_frame _ _).saf_eq (by decide), (irq_frame _ _).lsw_eq (by decide), updLsw_saf, updLsw_lsw]

/-- The A die's own opening leaves the interlock loop open and limp-home active. -/
theorem adieOpen_opens (b : Block) : (adieOpen b).saf.ilkClosed = false ∧ (adieOpen b).lsw.limpActive = true := by
  have hopen := openAll_loopAndLimp (updSaf (fun s => { s with ilkClosed := false }) b)
  have hlimp := limpEnter_loopAndLimp (forAll allNodes lsOff (updSaf (fun s => { s with ilkClosed := false }) b))
  simp only [loopAndLimp, Prod.mk.injEq] at hopen hlimp
  unfold adieOpen
  exact ⟨hlimp.1.trans hopen.1, hlimp.2⟩

theorem adiePermitTimeout_opens (b : Block) :
    (adiePermitTimeout b).saf.ilkClosed = false ∧ (adiePermitTimeout b).lsw.limpActive = true := by
  unfold adiePermitTimeout
  exact adieOpen_opens _

theorem adiePermitTimeout_d2d (b : Block) : (adiePermitTimeout b).d2d = { b.d2d with missedPermits := 64 } :=
  (adieOpen_frame _).d2d_eq (by decide)

/-! ### Frames of the link (R69 to R73) -/

/-- What neither a link fault nor the failure rate of an allocation frame (R73) touches of the link. -/
def D2d.steady (d : D2d) : D2d := { d with fault := false, tideLaneOk := false, frameOf := 0, failsThisFrame := 0, rateRaised := false }

theorem linkFault_steady (b : Block) : (linkFault b).d2d.steady = b.d2d.steady := by
  rw [linkFault_d2d]
  rfl

theorem linkCrcFailure_steady (b : Block) : (linkCrcFailure b).d2d.steady = b.d2d.steady := by
  unfold linkCrcFailure
  extract_lets f d n told c
  split
  · rw [irq_d2d]
    rfl
  · rfl

/-- What a valid frame from the A die puts in force (R70, R72). -/
theorem a2lValid_d2d (f : U64) (x : D2dFrame) (b : Block) : ∃ wait read,
    (a2lValid f x b).d2d = { b.d2d with
      runA2L := 0, inputAt := f + BitVec.ofNat 64 x.offset.val
      payload := if b.d2d.payloadOf.toNat ≤ f.toNat then x.payload.toList else b.d2d.payload
      payloadOf := if b.d2d.payloadOf.toNat ≤ f.toNat then f else b.d2d.payloadOf
      streamWait := wait, streamRead := read } := by
  unfold a2lValid streamSettle
  extract_lets p c
  have hc : c.d2d = b.d2d := by
    unfold c
    split
    · rfl
    · exact (traceItem_frame _ _ _ _ _).d2d_eq (by decide)
  simp only [updD2d_d2d, hc, decide_eq_true_eq]
  exact ⟨_, _, rfl⟩

/-- A frame from the A die that fails for the first time is counted and asked for again (R72). -/
theorem a2lFailed_steady (f : U64) (stream : Bool) (b : Block) :
    (a2lFailed f 0 stream b).d2d.steady = { b.d2d with
      crcA2L := satInc b.d2d.crcA2L, runA2L := b.d2d.runA2L + 1
      resend := b.d2d.resend ++ [(f, 1)], retrans := satInc b.d2d.retrans }.steady := by
  unfold a2lFailed
  extract_lets c d
  have hc : c.d2d.steady = { b.d2d with crcA2L := satInc b.d2d.crcA2L, runA2L := b.d2d.runA2L + 1 }.steady := linkCrcFailure_steady _
  have hd : d.d2d.steady = { c.d2d.steady with resend := c.d2d.steady.resend ++ [(f, 1)], retrans := satInc c.d2d.steady.retrans } := rfl
  rw [hc] at hd
  split
  · exact (linkFault_steady _).trans hd
  · exact hd

/-- A frame to the A die whose CRC fails is counted, with one permit word more missed (R72, R74). The 64th opens the A die, which sets
the count it has. -/
theorem frameL2a_failed_steady {x : D2dFrame} (f : U64) (b : Block) (hcrc : d2dCrcOk x = false) :
    (frameL2a f x b).d2d.steady = { b.d2d with
      lastL2A := some f, crcL2A := satInc b.d2d.crcL2A, runL2A := b.d2d.runL2A + 1, missedPermits := b.d2d.missedPermits + 1 }.steady := by
  have hopen : ∀ c : Block, (if c.d2d.missedPermits = 64 then adiePermitTimeout c else c).d2d = c.d2d := by
    intro c
    split
    · next h64 => rw [adiePermitTimeout_d2d, ← h64]
    · rfl
  have hfault : ∀ (c : Block) (p : Prop) [Decidable p], (if p then linkFault c else c).d2d.steady = c.d2d.steady := by
    intro c p _
    split
    · exact linkFault_steady c
    · rfl
  simp only [frameL2a, hcrc, Bool.false_eq_true, if_false, ← ite_not (p := d2dTideOk x f.toNat = true)]
  rw [hfault, hfault, hopen, linkCrcFailure_steady]
  rfl

theorem frameL2a_valid {f : U64} {x : D2dFrame} (b : Block) (hcrc : d2dCrcOk x = true) :
    frameL2a f x b =
      let c := updD2d (fun d => { d with lastL2A := some f, runL2A := 0, missedPermits := 0, sent := x.payload.toList.take 12 }) b
      if d2dTideOk x f.toNat then c else linkFault c := by
  simp [frameL2a, hcrc, updD2d]

/-- A frame that starts at `n` is received before Tide wraps, so its start is a Tide instant. -/
theorem toNat_frameStart {n : Nat} (h : n + 24 < 2 ^ 64) : (BitVec.ofNat 64 n).toNat = n := by
  rw [BitVec.toNat_ofNat, Nat.mod_eq_of_lt (by omega)]

/-- A frame from the A die is received 24 ticks after its start (R70). -/
theorem d2dFrame_of_a2l {x : D2dFrame} {b : Block} (hr : b.tide.running = true) (ha : x.a2l = true) (hagain : x.again = false)
    (ht : nextFrame b.d2d.lastA2L b + 24 < 2 ^ 64) :
    d2dFrame x b = frameA2l (BitVec.ofNat 64 (nextFrame b.d2d.lastA2L b)) x (tideTo (nextFrame b.d2d.lastA2L b + 24) b) := by
  simp [d2dFrame, hr, ha, hagain, atInstant_of_running hr ht]

/-- A frame to the A die is received 24 ticks after its start (R70). -/
theorem d2dFrame_of_l2a {x : D2dFrame} {b : Block} (hr : b.tide.running = true) (ha : x.a2l = false)
    (ht : nextFrame b.d2d.lastL2A b + 24 < 2 ^ 64) :
    d2dFrame x b = frameL2a (BitVec.ofNat 64 (nextFrame b.d2d.lastL2A b)) x (tideTo (nextFrame b.d2d.lastL2A b + 24) b) := by
  simp [d2dFrame, hr, ha, atInstant_of_running hr ht]

theorem d2dFrame_a2l_valid {x : D2dFrame} {b : Block} (hr : b.tide.running = true) (ha : x.a2l = true) (hagain : x.again = false)
    (hcrc : d2dCrcOk x = true) (ht : nextFrame b.d2d.lastA2L b + 24 < 2 ^ 64) : ∃ last start wait read,
    (d2dFrame x b).d2d = { b.d2d with
      lastA2L := last, runA2L := 0, inputAt := BitVec.ofNat 64 (nextFrame b.d2d.lastA2L b) + BitVec.ofNat 64 x.offset.val
      payload := if b.d2d.payloadOf.toNat ≤ nextFrame b.d2d.lastA2L b then x.payload.toList else b.d2d.payload
      payloadOf := start, streamWait := wait, streamRead := read } := by
  rw [d2dFrame_of_a2l hr ha hagain ht, frameA2l, if_pos hcrc]
  obtain ⟨wait, read, hlink⟩ := a2lValid_d2d (BitVec.ofNat 64 (nextFrame b.d2d.lastA2L b)) x
    (updD2d (fun d => { d with lastA2L := some (BitVec.ofNat 64 (nextFrame b.d2d.lastA2L b)) }) (tideTo (nextFrame b.d2d.lastA2L b + 24) b))
  simp only [updD2d_d2d, tideTo_d2d, toNat_frameStart ht] at hlink
  exact ⟨_, _, wait, read, hlink⟩

theorem d2dFrame_a2l_failed {x : D2dFrame} {b : Block} (hr : b.tide.running = true) (ha : x.a2l = true) (hagain : x.again = false)
    (hcrc : d2dCrcOk x = false) (ht : nextFrame b.d2d.lastA2L b + 24 < 2 ^ 64) : ∃ last,
    (d2dFrame x b).d2d.steady = { b.d2d with
      lastA2L := last, crcA2L := satInc b.d2d.crcA2L, runA2L := b.d2d.runA2L + 1
      resend := b.d2d.resend ++ [(BitVec.ofNat 64 (nextFrame b.d2d.lastA2L b), 1)], retrans := satInc b.d2d.retrans }.steady := by
  rw [d2dFrame_of_a2l hr ha hagain ht, frameA2l, hcrc, if_neg Bool.false_ne_true, a2lFailed_steady, updD2d_d2d, tideTo_d2d]
  exact ⟨_, rfl⟩

theorem d2dFrame_l2a_failed {x : D2dFrame} {b : Block} (hr : b.tide.running = true) (ha : x.a2l = false)
    (hcrc : d2dCrcOk x = false) (ht : nextFrame b.d2d.lastL2A b + 24 < 2 ^ 64) : ∃ last,
    (d2dFrame x b).d2d.steady = { b.d2d with
      lastL2A := last, crcL2A := satInc b.d2d.crcL2A, runL2A := b.d2d.runL2A + 1, missedPermits := b.d2d.missedPermits + 1 }.steady := by
  rw [d2dFrame_of_l2a hr ha ht, frameL2a_failed_steady _ _ hcrc, tideTo_d2d]
  exact ⟨_, rfl⟩

/-- A good frame to the A die stands there and clears the missed permit words; its Tide lane, when bad, is a link fault (R59, R73). -/
theorem d2dFrame_l2a_valid {x : D2dFrame} {b : Block} (hr : b.tide.running = true) (ha : x.a2l = false)
    (hcrc : d2dCrcOk x = true) (ht : nextFrame b.d2d.lastL2A b + 24 < 2 ^ 64) : ∃ c,
    c.d2d = { b.d2d with
      lastL2A := some (BitVec.ofNat 64 (nextFrame b.d2d.lastL2A b)), runL2A := 0, missedPermits := 0, sent := x.payload.toList.take 12 } ∧
    c.tide.lost = b.tide.lost ∧
    d2dFrame x b = if d2dTideOk x (nextFrame b.d2d.lastL2A b) then c else linkFault c := by
  rw [d2dFrame_of_l2a hr ha ht, frameL2a_valid _ hcrc, toNat_frameStart ht]
  exact ⟨_, by rw [updD2d_d2d, tideTo_d2d], by rw [updD2d_tide, tideTo_lost], rfl⟩

/-- The oldest frame asked for again arrives at its instant and ends its wait when it is good (R72). -/
theorem d2dFrame_of_again {x : D2dFrame} {b : Block} {i : U64} {k : Nat} {r : List (U64 × Nat)} (hr : b.tide.running = true)
    (ha : x.a2l = true) (hagain : x.again = true) (hcrc : d2dCrcOk x = true) (hw : b.d2d.resend = (i, k) :: r)
    (ht : i.toNat + (24 + 64 * k) < 2 ^ 64) :
    d2dFrame x b = a2lValid i x (updD2d (fun d => { d with resend := r }) (tideTo (i.toNat + (24 + 64 * k)) b)) := by
  simp [d2dFrame, hr, ha, hagain, frameAgain, hw, afterTicks, atInstant_of_running hr ht, hcrc]

/-! ### Barriers (R58) -/

theorem barrierArrive_of_open {p : Fin 7} {b : Block} (ho : b.barrier.isOpen = true) (hn : b.barrier.arrived.getLsbD p.val = false)
    (ht : (now b).toNat ≤ b.barrier.at_.toNat + 3000) :
    barrierArrive p b = slackMeasure (partEngine p) ((now b).toNat - b.barrier.at_.toNat)
      (updBarrier (fun x => { x with arrived := x.arrived ||| (1#7 <<< p.val) }) b) := by
  have hc : ¬ 3000 < (now b).toNat - b.barrier.at_.toNat := by omega
  simp only [barrierArrive, ho, hn, hc, Bool.not_true, decide_false, Bool.or_self, Bool.false_eq_true, if_false]

/-- Every participant of a barrier has 3,000 ticks (R65). -/
theorem deadlineOf_partEngine (p : Fin 7) : deadlineOf (partEngine p) = 3000 := by
  revert p; decide

theorem barrierRelease_of_due {modems : U16} {b : Block} (ho : b.barrier.isOpen = true) (ht : b.barrier.at_.toNat + 3000 ≤ (now b).toNat) :
    barrierRelease modems b = barrierEnd modems b := by
  simp [barrierRelease, ho, afterTicks_of_le ht]

/-- With every participant there the barrier ends without a charge. -/
theorem barrierEnd_of_all {b : Block} (modems : U16) (hall : b.barrier.arrived = 127#7) :
    barrierEnd modems b = updBarrier (fun x => { x with isOpen := false, result := Vector.replicate 7 (some .released) }) b := by
  have hmiss : ~~~b.barrier.arrived = 0 := by rw [hall]; rfl
  have hresult : (Vector.ofFn fun _ : Fin 7 => some BarrierResult.released) = Vector.replicate 7 (some .released) := rfl
  simp [barrierEnd, hmiss, onlyIf, forAll, updBarrier, hresult]

/-- With a participant missing the barrier is failed; charging the missing ones with overruns leaves it so. -/
theorem barrierEnd_of_missing {b : Block} (modems : U16) (hall : b.barrier.arrived ≠ 127#7) :
    (barrierEnd modems b).barrier = { b.barrier with
      isOpen := false, fail := true, missing := ~~~b.barrier.arrived
      result := Vector.ofFn fun p => if b.barrier.arrived.getLsbD p.val then some .barrierFailed else none } := by
  have hcharge := forAll_keeps (q := Block.barrier) fun (p : Fin 7) c => (engineOverrun_frame (partEngine p) modems c).barrier_eq (by decide)
  unfold barrierEnd
  extract_lets miss c
  rw [hcharge]
  have hmiss : miss ≠ 0 := by
    intro h
    rw [← BitVec.not_not (b := b.barrier.arrived), show ~~~b.barrier.arrived = 0 from h] at hall
    exact hall rfl
  have hm : (miss != 0) = true := bne_iff_ne.mpr hmiss
  have hresult : ∀ p : Fin 7, (if miss.getLsbD p.val then none else some BarrierResult.barrierFailed) =
      if b.barrier.arrived.getLsbD p.val then some BarrierResult.barrierFailed else none := by
    intro p
    have hbit : miss.getLsbD p.val = !b.barrier.arrived.getLsbD p.val := by simp [miss]
    rw [hbit]
    cases b.barrier.arrived.getLsbD p.val <;> rfl
  simp only [c, hm, hmiss, hresult, onlyIf, if_true, if_false, irq_barrier, updBarrier_barrier, Bool.or_true]
  rfl

end Machine

/-- Settles O14, frame by frame of the link, then the openings of the A die, the losses of Tide and the barrier. What a link fault, a loss
of Tide or an overrun sets off besides lies outside the units each clause speaks of, by their frames. -/
theorem fabricAndLink : Obligations.FabricAndLink := by
  refine ⟨fun s f ha hagain hr hcrc ht => ?_, fun s f ha hagain hr hcrc ht => ?_, fun s f i k r ha hagain hr hcrc hw ht => ?_,
    fun s f ha hr hcrc ht => ?_, fun s f ha hr hcrc ht => ?_, fun s => ?_, fun s => ?_, fun s cause => ?_,
    fun s advance hv hfast => ?_, fun s advance hv => ?_, fun s advance hv hslow hrun hd => ?_, fun s ho => ?_,
    fun s p ho hn ht => ?_, fun s modems ho hall ht => ?_, fun s modems ho hall ht => ?_⟩
  -- A frame from the A die, CRC right
  · obtain ⟨last, start, wait, read, hlink⟩ := d2dFrame_a2l_valid hr ha hagain hcrc ht
    refine ⟨s.after (d2dFrame f), rfl, execD2dFrameReceive_frame f rfl, ?_⟩
    simp only [State.after_d2d, hlink, and_self]
  -- A frame from the A die, CRC wrong
  · obtain ⟨last, hlink⟩ := d2dFrame_a2l_failed hr ha hagain hcrc ht
    refine ⟨s.after (d2dFrame f), rfl, execD2dFrameReceive_frame f rfl, ?_⟩
    rw [State.after_d2d]
    exact ⟨congrArg D2d.runA2L hlink, (congrArg D2d.payload hlink :), congrArg D2d.crcA2L hlink, congrArg D2d.retrans hlink,
      congrArg D2d.resend hlink⟩
  -- A frame sent again, CRC right
  · refine ⟨s.after (d2dFrame f), rfl, execD2dFrameReceive_frame f rfl, ?_⟩
    rw [State.after_d2d, d2dFrame_of_again hr ha hagain hcrc hw ht]
    obtain ⟨wait, read, hlink⟩ := a2lValid_d2d i f (updD2d (fun d => { d with resend := r }) (tideTo (i.toNat + (24 + 64 * k)) s.block))
    simp only [hlink, updD2d_d2d, tideTo_d2d, and_self]
  -- A frame to the A die, CRC right
  · obtain ⟨c, hlink, hlost, heff⟩ := d2dFrame_l2a_valid hr ha hcrc ht
    refine ⟨s.after (d2dFrame f), rfl, execD2dFrameReceive_frame f rfl, ?_⟩
    rw [State.after_d2d, State.after_tide, heff]
    cases hlane : d2dTideOk f (nextFrame s.block.d2d.lastL2A s.block)
    · simp only [Bool.false_eq_true, if_false, linkFault_d2d, hlink, true_and, false_implies, true_implies]
      intro hfault
      exact ⟨by rw [hfault, Bool.false_and], linkFault_lost (by rw [hlink]; exact hfault)⟩
    · simp [hlink, hlost]
  -- A frame to the A die, CRC wrong
  · obtain ⟨last, hlink⟩ := d2dFrame_l2a_failed hr ha hcrc ht
    refine ⟨s.after (d2dFrame f), rfl, execD2dFrameReceive_frame f rfl, ?_⟩
    rw [State.after_d2d]
    exact ⟨congrArg D2d.runL2A hlink, congrArg D2d.crcL2A hlink, congrArg D2d.missedPermits hlink, (congrArg D2d.sent hlink :)⟩
  -- ADIE_PERMIT_TIMEOUT
  · obtain ⟨hloop, hlimp⟩ := adiePermitTimeout_opens s.block
    refine ⟨s.after adiePermitTimeout, rfl, execAdiePermitTimeout_frame rfl, ?_⟩
    rw [State.after_saf, State.after_d2d, State.after_lsw, adiePermitTimeout_d2d]
    exact ⟨hloop, rfl, hlimp⟩
  -- ADIE_RC_WATCHDOG
  · refine ⟨s.after adieOpen, rfl, execAdieRcWatchdog_frame rfl, ?_⟩
    rw [State.after_saf, State.after_lsw]
    exact adieOpen_opens s.block
  -- TIDE_LOSS
  · refine ⟨s.after (tideLoss cause), rfl, execTideLoss_frame cause rfl, ?_⟩
    rw [State.after_tide, State.after_d2d]
    refine ⟨tideLoss_lost cause s.block, ?_, ?_, ?_⟩ <;> rintro rfl <;> simp [tideLoss]
  -- DYKE_TIDE_CHECK, fast enough
  · refine ⟨s.after (dykeTideCheck advance), rfl, execDykeTideCheck_frame advance rfl, ?_⟩
    simp only [State.after_d2d, State.after_tide, dykeTideCheck_of_fast hv hfast, updD2d_d2d, updD2d_tide, and_self]
  -- DYKE_TIDE_CHECK before the crossing is valid
  · exact ⟨s.after (dykeTideCheck advance), rfl, execDykeTideCheck_frame advance rfl, State.after_block (by simp [dykeTideCheck, hv])⟩
  -- DYKE_TIDE_CHECK, slow for the second time
  · refine ⟨s.after (dykeTideCheck advance), rfl, execDykeTideCheck_frame advance rfl, ?_⟩
    simp only [State.after_d2d, State.after_tide, dykeTideCheck_of_slow hv hslow hrun hd, loseTide_d2d, loseTide_lost, updD2d_d2d, and_self]
  -- BARRIER_OPEN
  · refine ⟨s.after barrierOpen, rfl, execBarrierOpen_frame rfl, ?_⟩
    simp [barrierOpen, ho]
  -- BARRIER_ARRIVE
  · refine ⟨s.after (barrierArrive p), rfl, execBarrierArrive_frame p rfl, ?_⟩
    rw [State.after_barrier, State.after_fab, barrierArrive_of_open ho hn ht, (slackMeasure_frame _ _ _).barrier_eq (by decide),
      (slackMeasure_self _ _ _).1, deadlineOf_partEngine]
    exact ⟨rfl, rfl⟩
  -- BARRIER_RELEASE with all there
  · refine ⟨s.after (barrierRelease modems), rfl, execBarrierRelease_frame modems rfl, ?_⟩
    simp only [State.after_barrier, State.after_rst, State.after_saf, barrierRelease_of_due ho ht, barrierEnd_of_all modems hall,
      updBarrier_barrier, updBarrier_rst, updBarrier_saf, and_self]
  -- BARRIER_RELEASE with one missing
  · refine ⟨s.after (barrierRelease modems), rfl, execBarrierRelease_frame modems rfl, ?_⟩
    rw [State.after_barrier, barrierRelease_of_due ho ht, barrierEnd_of_missing modems hall]

end Sys2Proof
end

section
/-! PROOFS. The commands of the Tide family (R45, R53, R62): what each makes of the block, and that its answer stands. -/

namespace Sys2Proof

open Machine

namespace Machine

/-! ### The effect of each command, case by case -/

theorem tideGetTime_of_mapped {b : Block} (m : Fin 4) (h : b.tide.todSec ≠ 0) :
    tideGetTime m b = ok m (b64 (now b) ++ leBytes 8 ((b.tide.todSec.toNat : Int) + ((now b).toNat - (b.tide.todAnchor.toNat : Int)) / tSec).toNat ++
      leBytes 4 (((now b).toNat - (b.tide.todAnchor.toNat : Int)) % tSec).toNat) b := by
  simp only [tideGetTime, if_neg h]

theorem tideGetTime_of_unmapped {b : Block} (m : Fin 4) (h : b.tide.todSec = 0) : tideGetTime m b = ok m (b64 (now b) ++ zeros 12) b := by
  simp [tideGetTime, h]

theorem setTrim_trim (x : Int) (b : Block) : (setTrim x b).tide.trim = BitVec.ofInt 32 (clampTrim x) := by
  unfold setTrim
  extract_lets v was c
  exact onlyIf_keeps (q := fun d => d.tide.trim) (fun d => by rw [irq_tide]) _ _

/-- The mapping is the new anchor and its seconds; the clock that follows it leaves Tide alone (R45, R347). -/
theorem setTod_tide (anchor sec : U64) (b : Block) : (setTod anchor sec b).1.tide = { b.tide with todAnchor := anchor, todSec := sec } := by
  simp only [setTod, (syncRtc_frame _).tide_eq (by decide), (clockChanged_frame _ _ _).tide_eq (by decide), updTide_tide]

theorem tideSetTod_of_allowed {m : Fin 4} {b : Block} (h : rBit b m 16 0 = true ∨ anchorIsEdge b (r64 b m 0) = true) :
    tideSetTod m b = ok m (leBytes 8 (BitVec.ofInt 64 (setTod (r64 b m 0) (r64 b m 8) b).2).toNat) (setTod (r64 b m 0) (r64 b m 8) b).1 := by
  have hpass : (rBit b m 16 0 || anchorIsEdge b (r64 b m 0)) = true := by simpa using h
  exact checked_of_pass (by simp only [firstFail, hpass, if_true]) _ _

theorem tideSetTod_of_refused {m : Fin 4} {b : Block} (hforce : rBit b m 16 0 = false) (hedge : anchorIsEdge b (r64 b m 0) = false) :
    tideSetTod m b = refuse m 0x0204 b :=
  checked_of_fail (by simp [firstFail, hforce, hedge]) _ _

/-- TIDE_SNAPSHOT of a bank, to a queue or none, once Tide is ready and the instant can be met. -/
theorem tideSnapshot_of_pass {m : Fin 4} {b : Block} (hlo : 1 ≤ rN b m 0 1) (hhi : rN b m 0 1 ≤ 3) (hq : queueOk (rN b m 2 2) true = true)
    (hr : b.tide.ready = true) (ht : r64 b m 8 = 0 ∨ (now b).toNat + 96 ≤ (r64 b m 8).toNat) {e : Entry}
    (he : e = { mkEntry tgSnap (rN b m 0 1) 1 (zeros 32) (if r64 b m 8 = 0 then ahead b fwLead else r64 b m 8) with tag := BitVec.ofNat 32 m.val }) :
    tideSnapshot m b = if (submitEntry agSedge 131 e b).2 then (submitEntry agSedge 131 e b).1 else internalFail m (submitEntry agSedge 131 e b).1 := by
  subst he
  have hmet : (r64 b m 8 == 0 || decide ((now b).toNat + 96 ≤ (r64 b m 8).toNat)) = true := by simpa using ht
  unfold tideSnapshot
  extract_lets t
  exact checked_of_pass (by simp only [firstFail, hlo, hhi, hq, hr, t, hmet, and_self, decide_true, if_true]) _ _

theorem tideSnapshot_of_bank {m : Fin 4} {b : Block} (h : ¬ (1 ≤ rN b m 0 1 ∧ rN b m 0 1 ≤ 3)) : tideSnapshot m b = refuse m 0x0205 b := by
  unfold tideSnapshot
  exact checked_of_fail (by simp only [firstFail, h, decide_false, Bool.false_eq_true, if_false]) _ _

theorem tideSnapshot_of_late {m : Fin 4} {b : Block} (hlo : 1 ≤ rN b m 0 1) (hhi : rN b m 0 1 ≤ 3) (hq : queueOk (rN b m 2 2) true = true)
    (hr : b.tide.ready = true) (h0 : r64 b m 8 ≠ 0) (ht : (r64 b m 8).toNat < (now b).toNat + 96) : tideSnapshot m b = refuse m 0x0206 b := by
  have hmet : (r64 b m 8 == 0 || decide ((now b).toNat + 96 ≤ (r64 b m 8).toNat)) = false := by
    rw [beq_eq_false_iff_ne.mpr h0, decide_eq_false (Nat.not_le.mpr ht), Bool.or_self]
  unfold tideSnapshot
  extract_lets t
  exact checked_of_fail (by simp only [firstFail, hlo, hhi, hq, hr, t, hmet, and_self, decide_true, if_true, Bool.false_eq_true, if_false]) _ _

theorem tideSubmit_of_pass {m : Fin 4} {b : Block} (hlo : 576 ≤ rN b m 0 2) (hhi : rN b m 0 2 ≤ 1023) {e : Entry}
    (he : e = entryOf (rBytes b m 8 64)) (hc : entryClean e = true) (hr : b.tide.ready = true) :
    tideSubmit m b = if (submitEntry agSedge (rN b m 0 2) e b).2 then ok m (b64 (now b)) (submitEntry agSedge (rN b m 0 2) e b).1
      else internalFail m (submitEntry agSedge (rN b m 0 2) e b).1 := by
  subst he
  unfold tideSubmit
  extract_lets r e
  exact checked_of_pass (by simp [firstFail, r, e, hlo, hhi, hc, hr]) _ _

theorem tideSubmit_of_ring {m : Fin 4} {b : Block} (h : rN b m 0 2 < 576 ∨ 1023 < rN b m 0 2) : tideSubmit m b = refuse m 0x0202 b := by
  have hout : ¬ (576 ≤ rN b m 0 2 ∧ rN b m 0 2 ≤ 1023) := by omega
  unfold tideSubmit
  extract_lets r e
  exact checked_of_fail (by simp only [firstFail, r, hout, decide_false, Bool.false_eq_true, if_false]) _ _

theorem tideCancel_of_pass {m : Fin 4} {b : Block} (hlo : 576 ≤ rN b m 0 2) (hhi : rN b m 0 2 ≤ 1023) (hr : b.tide.ready = true) :
    tideCancel m b = ok m
      (b64 (now b) ++ leBytes 4 (cancelEntries (rN b m 0 2) (fun e => (e.tag &&& r32 b m 8) == (r32 b m 4 &&& r32 b m 8)) b).2)
      (cancelEntries (rN b m 0 2) (fun e => (e.tag &&& r32 b m 8) == (r32 b m 4 &&& r32 b m 8)) b).1 := by
  unfold tideCancel
  extract_lets r tag mask
  exact checked_of_pass (by simp [firstFail, r, hlo, hhi, hr]) _ _

/-- The instant of the next armed entry of a ring, 0 without one. -/
def nextArmed (g : Ring) : U64 := match g.chain.find? RingItem.isArmed with | some i => i.entry.time | none => 0

theorem tideRingStatus_of_pass {m : Fin 4} {b : Block} (h : rN b m 0 2 ≤ 1023) :
    tideRingStatus m b = ok m ([BitVec.ofNat 8 (ringOf b (rN b m 0 2)).armed, 0] ++ leBytes 2 (ringWaiting b (rN b m 0 2)).length ++ zeros 4 ++
      b64 (nextArmed (ringOf b (rN b m 0 2)))) b := by
  unfold tideRingStatus
  extract_lets r
  exact checked_of_pass (by simp [firstFail, r, h]) _ _

theorem tideRingStatus_of_ring {m : Fin 4} {b : Block} (h : 1023 < rN b m 0 2) : tideRingStatus m b = refuse m 0x0202 b := by
  unfold tideRingStatus
  extract_lets r
  exact checked_of_fail (by simp [firstFail, r, h]) _ _

end Machine

/-- Settles O18: each request runs the effect of its command, whose answer is the last thing written; a refusal leaves the launcher, the
queues and Tide as they were. -/
theorem tideCommands : Obligations.TideCommands := by
  refine ⟨fun s m ha htod => ?_, fun s m ha htod => ?_, fun s m ha => ?_, fun s m ha => ?_, fun s m ha hok => ?_,
    fun s m ha hforce hedge => ?_, fun s m ha hbank => ?_, fun s m e ha hlo hhi hq hr ht he => ?_, fun s m ha hlo hhi hq hr h0 ht => ?_,
    fun s m e ha hlo hhi he hc hr => ?_, fun s m ha hring => ?_, fun s m ha hlo hhi hr => ?_, fun s m ha hring => ?_,
    fun s m ha hring => ?_, fun s m ha => ?_⟩
  -- TIDE_GET_TIME with a mapping
  · have hx : exec (.tideGetTime m) s = .next (s.after (tideGetTime m)) := run_of_asked ha _
    have hframe := execTideGetTime_frame m hx
    exact ⟨_, hx, hframe, answered_of_respond (tideGetTime_of_mapped m htod) rfl (by simp), hframe.2.tide_eq (by decide)⟩
  -- TIDE_GET_TIME without one
  · have hx : exec (.tideGetTime m) s = .next (s.after (tideGetTime m)) := run_of_asked ha _
    have hframe := execTideGetTime_frame m hx
    exact ⟨_, hx, hframe, answered_of_respond (tideGetTime_of_unmapped m htod) rfl (by simp), hframe.2.tide_eq (by decide)⟩
  -- TIDE_SET_TRIM
  · have hx : exec (.tideSetTrim m) s = .next (s.after (tideSetTrim m)) := run_of_asked ha _
    refine ⟨_, hx, execTideSetTrim_frame m hx, answered_of_respond rfl ((setTrim_frame _ _).mbx_eq (by decide)) (by simp), ?_⟩
    rw [State.after_tide, tideSetTrim, (respond_frame _ _ _ _).tide_eq (by decide), setTrim_trim]
  -- TIDE_PPS_CONFIG
  · have hx : exec (.tidePpsConfig m) s = .next (s.after (tidePpsConfig m)) := run_of_asked ha _
    refine ⟨_, hx, execTidePpsConfig_frame m hx, answered_of_respond rfl rfl (by simp), ?_⟩
    rw [State.after_tide, tidePpsConfig, (ok_frame _ _ _).tide_eq (by decide)]
    exact ⟨rfl, rfl, rfl, rfl⟩
  -- TIDE_SET_TOD forced or on an accepted edge
  · have hx : exec (.tideSetTod m) s = .next (s.after (tideSetTod m)) := run_of_asked ha _
    refine ⟨_, hx, execTideSetTod_frame m hx, answered_of_respond (tideSetTod_of_allowed hok) ((setTod_frame _ _ _).mbx_eq (by decide)) (by simp), ?_⟩
    rw [State.after_tide, tideSetTod_of_allowed hok, (ok_frame _ _ _).tide_eq (by decide), setTod_tide]
    exact ⟨rfl, rfl⟩
  -- TIDE_SET_TOD on no such edge
  · have hx : exec (.tideSetTod m) s = .next (s.after (tideSetTod m)) := run_of_asked ha _
    have heff := tideSetTod_of_refused hforce hedge
    exact ⟨_, hx, execTideSetTod_frame m hx, answered_of_refuse heff, (after_refuse_frame heff).tide_eq (by decide)⟩
  -- TIDE_SNAPSHOT of no bank
  · have hx : exec (.tideSnapshot m) s = .next (s.after (tideSnapshot m)) := run_of_asked ha _
    have heff := tideSnapshot_of_bank hbank
    have hkeep := after_refuse_frame heff
    exact ⟨_, hx, execTideSnapshot_frame m hx, answered_of_refuse heff, hkeep.lau_eq (by decide), hkeep.qmg_eq (by decide)⟩
  -- TIDE_SNAPSHOT
  · have hx : exec (.tideSnapshot m) s = .next (s.after (tideSnapshot m)) := run_of_asked ha _
    exact ⟨_, hx, execTideSnapshot_frame m hx, State.after_block (tideSnapshot_of_pass hlo hhi hq hr ht he)⟩
  -- TIDE_SNAPSHOT too late
  · have hx : exec (.tideSnapshot m) s = .next (s.after (tideSnapshot m)) := run_of_asked ha _
    have heff := tideSnapshot_of_late hlo hhi hq hr h0 ht
    have hkeep := after_refuse_frame heff
    exact ⟨_, hx, execTideSnapshot_frame m hx, answered_of_refuse heff, hkeep.lau_eq (by decide), hkeep.qmg_eq (by decide)⟩
  -- TIDE_SUBMIT
  · have hx : exec (.tideSubmit m) s = .next (s.after (tideSubmit m)) := run_of_asked ha _
    exact ⟨_, hx, execTideSubmit_frame m hx, State.after_block (tideSubmit_of_pass hlo hhi he hc hr)⟩
  -- TIDE_SUBMIT on no host ring
  · have hx : exec (.tideSubmit m) s = .next (s.after (tideSubmit m)) := run_of_asked ha _
    have heff := tideSubmit_of_ring hring
    have hkeep := after_refuse_frame heff
    exact ⟨_, hx, execTideSubmit_frame m hx, answered_of_refuse heff, hkeep.lau_eq (by decide), hkeep.qmg_eq (by decide)⟩
  -- TIDE_CANCEL
  · have hx : exec (.tideCancel m) s = .next (s.after (tideCancel m)) := run_of_asked ha _
    exact ⟨_, hx, execTideCancel_frame m hx, State.after_block (tideCancel_of_pass hlo hhi hr)⟩
  -- TIDE_RING_STATUS
  · have hx : exec (.tideRingStatus m) s = .next (s.after (tideRingStatus m)) := run_of_asked ha _
    have hframe := execTideRingStatus_frame m hx
    exact ⟨_, hx, hframe, answered_of_respond (tideRingStatus_of_pass hring) rfl (by simp), hframe.2.lau_eq (by decide)⟩
  -- TIDE_RING_STATUS of no ring
  · have hx : exec (.tideRingStatus m) s = .next (s.after (tideRingStatus m)) := run_of_asked ha _
    have hframe := execTideRingStatus_frame m hx
    exact ⟨_, hx, hframe, answered_of_refuse (tideRingStatus_of_ring hring), hframe.2.lau_eq (by decide)⟩
  -- TIDE_CLEAR_COUNTS
  · have hx : exec (.tideClearCounts m) s = .next (s.after (tideClearCounts m)) := run_of_asked ha _
    refine ⟨_, hx, execTideClearCounts_frame m hx, answered_of_respond rfl rfl (by simp), ?_⟩
    rw [State.after_tide, State.after_lau, tideClearCounts, (ok_frame _ _ _).tide_eq (by decide), (ok_frame _ _ _).lau_eq (by decide)]
    exact ⟨rfl, rfl⟩

end Sys2Proof
end

section
/-! PROOFS. The commands of the system family (R81, R430, R516): what each makes of the block, and that its answer stands. -/

namespace Sys2Proof

open Machine

theorem vget_vmapIdx {α β : Type} {n : Nat} (v : Vector α n) (f : Fin n → α → β) (i : Fin n) : vget (vmapIdx v f) i = f i (vget v i) := by
  simp [vget, vmapIdx, vgen]

theorem Block.Only.hp_eq {l : List Part} {b c : Block} (h : Block.Only l b c) (hp : Part.hp ∉ l) : c.hp = b.hp := h .hp hp

namespace Machine

@[simp] theorem State.after_hp (s : State) (f : Block → Block) : (s.after f).block.hp = (f s.block).hp :=
  (safetyItem_frame _ _).hp_eq (by decide)

/-! ### Lengths of payloads -/

theorem readN_length (mem : Memory) (a n : Nat) : (Memory.readN mem a n).length = n := by
  induction n generalizing a with
  | zero => rfl
  | succ n ih => simp [Memory.readN, ih]

theorem rAll_length_le (b : Block) (m : Fin 4) : (rAll b m).length ≤ 1016 := by
  rw [rAll, rBytes, readN_length]
  exact Nat.min_le_right _ _

theorem length_flatMap_b32 {α : Type} (l : List α) (f : α → U32) : (l.flatMap fun x => b32 (f x)).length = 4 * l.length := by
  simp [List.length_flatMap, Nat.mul_comm]

@[simp] theorem b32s_length (l : List U32) : (b32s l).length = 4 * l.length := length_flatMap_b32 l id

/-! ### The host port and the fabric -/

/-- The log entry of SYS_HP_CLEAR leaves the host port, so the port is as the command cleared it. -/
theorem sysHpClear_hp (m : Fin 4) (b : Block) :
    (sysHpClear m b).hp = { b.hp with committed := 0, reads := 0, winEvents := 0, count := 0, spiCount := 0, spiCause := 0 } := by
  rw [sysHpClear, (ok_frame _ _ _).hp_eq (by decide), (cmdLog_frame _ _ _).hp_eq (by decide)]

/-- SYS_FABRIC_SLACK of one of the 15 engines. -/
theorem sysFabricSlack_of_engine {m : Fin 4} {e : Fin 15} {b : Block} (h : e.val = rN b m 0 1) :
    sysFabricSlack m b = ok m (leBytes 4 (deadlineOf e) ++
      b32s [(vget b.fab e).last, (vget b.fab e).least, (vget b.fab e).warnings, (vget b.fab e).overruns]) b := by
  have hlt : rN b m 0 1 < 15 := h ▸ e.isLt
  have hengine : (⟨rN b m 0 1 % 15, Nat.mod_lt _ (by decide)⟩ : Fin 15) = e := Fin.ext ((Nat.mod_eq_of_lt hlt).trans h.symm)
  unfold sysFabricSlack
  rw [hengine]
  exact checked_of_pass (by simp [firstFail, engineCheck, hlt]) _ _

theorem sysFabricClear_of_pass {m : Fin 4} {b : Block} (h : rN b m 0 1 < 15 ∨ rN b m 0 1 = 255) :
    sysFabricClear m b = ok m [] { b with
      fab := vmapIdx b.fab fun k x =>
        if rN b m 0 1 = 255 ∨ k.val = rN b m 0 1 then { x with least := 0xFFFFFFFF, warnings := 0, overruns := 0 } else x } := by
  unfold sysFabricClear
  exact checked_of_pass (by simp [firstFail, engineCheck, h]) _ _

theorem sysFabricClear_of_range {m : Fin 4} {b : Block} (h : ¬ (rN b m 0 1 < 15 ∨ rN b m 0 1 = 255)) :
    sysFabricClear m b = refuse m 0x0140 b := by
  unfold sysFabricClear
  exact checked_of_fail (by simp [firstFail, engineCheck, h]) _ _

/-! ### The requested reset (R516) -/

/-- The reset that the payload of SYS_RESET asks for, 1 ms ahead. -/
def requestedReset (m : Fin 4) (b : Block) : PendingReset :=
  { scope := reqScope (rN b m 0 1), source := 5, core := BitVec.ofNat 5 (rN b m 1 1), startAt := ahead b tMs, command := now b }

/-- SYS_RESET that passes its checks: `p`, the reset pending already or else the requested one, is pending and its instant answered. -/
theorem sysReset_of_pass {m : Fin 4} {b : Block} {p : PendingReset} (hscope : rN b m 0 1 ≤ 2)
    (hcore : rN b m 0 1 = 0 → (coreOf (rN b m 1 1)).isSome = true)
    (hsettled : rN b m 0 1 = 0 → (rN b m 1 1 = 1 ∨ rN b m 1 1 = 2) → allSettled b = true)
    (hpause : b.upd.pause.isNone = true) (hp : b.rst.pending.getD (requestedReset m b) = p) :
    sysReset m b = ok m (b64 (if p.scope = .core then p.startAt else p.startAt + BitVec.ofNat 64 stopTicks))
      (updRst (fun r => { r with pending := some p }) b) := by
  have hrange : (decide (rN b m 0 1 ≤ 2) && (rN b m 0 1 != 0 || (coreOf (rN b m 1 1)).isSome)) = true := by
    by_cases h0 : rN b m 0 1 = 0
    · simp [h0, hcore h0]
    · simp [h0, hscope]
  have hslow : (!(rN b m 0 1 == 0 && (rN b m 1 1 == 1 || rN b m 1 1 == 2)) || allSettled b) = true := by
    by_cases h0 : rN b m 0 1 = 0
    · by_cases hc : rN b m 1 1 = 1 ∨ rN b m 1 1 = 2
      · rw [hsettled h0 hc, Bool.or_true]
      · simp [not_or.mp hc]
    · simp [h0]
  unfold sysReset
  extract_lets k c slow
  rw [checked_of_pass (by simp only [firstFail, k, c, slow, hrange, hslow, hpause, if_true])]
  subst hp
  cases b.rst.pending <;> rfl

theorem sysReset_of_scope {m : Fin 4} {b : Block} (h : 2 < rN b m 0 1) : sysReset m b = refuse m 0x0110 b := by
  unfold sysReset
  extract_lets k c slow
  exact checked_of_fail (by simp [firstFail, k, h]) _ _

end Machine

/-- Settles O17: each request runs the effect of its command, whose answer is the last thing written; what else a clause says of a unit
is read through the frames of the answer and of the log. -/
theorem systemCommands : Obligations.SystemCommands := by
  refine ⟨fun s m ha => ?_, fun s m ha => ?_, fun s m ha => ?_, fun s m ha => ?_, fun s m e ha he => ?_, fun s m ha he => ?_,
    fun s m ha he => ?_, fun s m ha => ?_, fun s m ha hscope hcore hsettled hpause hpend => ?_,
    fun s m x ha hscope hcore hsettled hpause hpend => ?_, fun s m ha hscope => ?_, fun s m ha => ?_⟩
  -- SYS_GET_VERSION
  · have hx : exec (.sysGetVersion m) s = .next (s.after (sysGetVersion m)) := run_of_asked ha _
    exact ⟨_, hx, execSysGetVersion_frame m hx, answered_of_respond rfl rfl (by simp)⟩
  -- SYS_ECHO
  · have hx : exec (.sysEcho m) s = .next (s.after fun b => ok m (rAll b m) b) := run_of_asked ha _
    exact ⟨_, hx, execSysEcho_frame m hx, answered_of_respond rfl rfl (rAll_length_le _ _)⟩
  -- SYS_HP_STATUS
  · have hx : exec (.sysHpStatus m) s = .next (s.after (sysHpStatus m)) := run_of_asked ha _
    exact ⟨_, hx, execSysHpStatus_frame m hx, answered_of_respond rfl rfl (by simp)⟩
  -- SYS_HP_CLEAR
  · have hx : exec (.sysHpClear m) s = .next (s.after (sysHpClear m)) := run_of_asked ha _
    refine ⟨_, hx, execSysHpClear_frame m hx, answered_of_respond rfl ((cmdLog_frame _ _ _).mbx_eq (by decide)) (by simp), ?_⟩
    simp only [State.after_hp, sysHpClear_hp, and_self]
  -- SYS_FABRIC_SLACK
  · have hx : exec (.sysFabricSlack m) s = .next (s.after (sysFabricSlack m)) := run_of_asked ha _
    have hframe := execSysFabricSlack_frame m hx
    exact ⟨_, hx, hframe, answered_of_respond (sysFabricSlack_of_engine he) rfl (by simp), hframe.2.fab_eq (by decide)⟩
  -- SYS_FABRIC_CLEAR of an engine or of all
  · have hx : exec (.sysFabricClear m) s = .next (s.after (sysFabricClear m)) := run_of_asked ha _
    refine ⟨_, hx, execSysFabricClear_frame m hx, answered_of_respond (sysFabricClear_of_pass he) rfl (by simp), fun k => ?_⟩
    rw [State.after_fab, sysFabricClear_of_pass he, (ok_frame _ _ _).fab_eq (by decide), vget_vmapIdx]
  -- SYS_FABRIC_CLEAR of no engine
  · have hx : exec (.sysFabricClear m) s = .next (s.after (sysFabricClear m)) := run_of_asked ha _
    have heff := sysFabricClear_of_range he
    exact ⟨_, hx, execSysFabricClear_frame m hx, answered_of_refuse heff, (after_refuse_frame heff).fab_eq (by decide)⟩
  -- SYS_D2D_STATUS
  · have hx : exec (.sysD2dStatus m) s = .next (s.after (sysD2dStatus m)) := run_of_asked ha _
    refine ⟨_, hx, execSysD2dStatus_frame m hx, answered_of_respond rfl rfl (by simp), ?_⟩
    rw [State.after_d2d, sysD2dStatus, (ok_frame _ _ _).d2d_eq (by decide), updD2d_d2d]
  -- SYS_RESET with none pending
  · have hx : exec (.sysReset m) s = .next (s.after (sysReset m)) := run_of_asked ha _
    have heff := sysReset_of_pass (p := requestedReset m s.block) hscope hcore hsettled hpause (by rw [hpend, Option.getD_none])
    refine ⟨_, hx, execSysReset_frame m hx, answered_of_respond heff rfl (by simp), ?_⟩
    rw [State.after_rst, heff, (ok_frame _ _ _).rst_eq (by decide), updRst_rst, requestedReset]
  -- SYS_RESET with one pending
  · have hx : exec (.sysReset m) s = .next (s.after (sysReset m)) := run_of_asked ha _
    have heff := sysReset_of_pass (p := x) hscope hcore hsettled hpause (by rw [hpend, Option.getD_some])
    refine ⟨_, hx, execSysReset_frame m hx, answered_of_respond heff rfl (by simp), ?_⟩
    rw [State.after_rst, heff, (ok_frame _ _ _).rst_eq (by decide), updRst_rst, ← hpend]
  -- SYS_RESET of no scope
  · have hx : exec (.sysReset m) s = .next (s.after (sysReset m)) := run_of_asked ha _
    have heff := sysReset_of_scope hscope
    exact ⟨_, hx, execSysReset_frame m hx, answered_of_refuse heff, (after_refuse_frame heff).rst_eq (by decide)⟩
  -- SYS_GET_RESET
  · have hx : exec (.sysGetReset m) s = .next (s.after (sysGetReset m)) := run_of_asked ha _
    exact ⟨_, hx, execSysGetReset_frame m hx, answered_of_respond rfl rfl (by rw [length_flatMap_b32, List.length_range]; decide)⟩

end Sys2Proof
end

section
/-! PROOFS. The checks of a command one at a time, metrology channels and pairs read through an update or a frame; modulator faults and
settling (R91, R92, R113). -/

namespace Sys2Proof

open Machine

theorem vget_vmap {α β : Type} {n : Nat} (v : Vector α n) (f : α → β) (i : Fin n) : vget (vmap v f) i = f (vget v i) := by
  simp [vget, vmap]

namespace Block.Only

variable {l : List Part} {b c : Block}

theorem met_eq (h : Block.Only l b c) (hp : Part.met ∉ l) : c.met = b.met := h .met hp
theorem acc_eq (h : Block.Only l b c) (hp : Part.acc ∉ l) : c.acc = b.acc := h .acc hp
theorem pq_eq (h : Block.Only l b c) (hp : Part.pq ∉ l) : c.pq = b.pq := h .pq hp
theorem sess_eq (h : Block.Only l b c) (hp : Part.sess ∉ l) : c.sess = b.sess := h .sess hp

end Block.Only

namespace Machine

@[simp] theorem State.after_met (s : State) (f : Block → Block) : (s.after f).block.met = (f s.block).met :=
  (safetyItem_frame _ _).met_eq (by decide)

@[simp] theorem State.after_acc (s : State) (f : Block → Block) : (s.after f).block.acc = (f s.block).acc :=
  (safetyItem_frame _ _).acc_eq (by decide)

@[simp] theorem State.after_pq (s : State) (f : Block → Block) : (s.after f).block.pq = (f s.block).pq :=
  (safetyItem_frame _ _).pq_eq (by decide)

/-! ### The checks of a command, one at a time (R428) -/

theorem checked_cons_pass {m : Fin 4} {x : Nat × Bool} {r : List (Nat × Bool)} (h : x.2 = true) (f : Block → Block) (b : Block) :
    checked m (x :: r) f b = checked m r f b := by
  obtain ⟨status, holds⟩ := x
  cases h
  rfl

theorem checked_cons_fail {m : Fin 4} {x : Nat × Bool} {r : List (Nat × Bool)} (h : x.2 = false) (f : Block → Block) (b : Block) :
    checked m (x :: r) f b = refuse m x.1 b := by
  obtain ⟨status, holds⟩ := x
  cases h
  rfl

@[simp] theorem checked_nil (m : Fin 4) (f : Block → Block) (b : Block) : checked m [] f b = f b := rfl

/-! ### Channels and pairs -/

theorem chanOf_congr {b c : Block} (h : c.met = b.met) (d : Fin 48) : chanOf c d = chanOf b d := by rw [chanOf, h, chanOf]

theorem pairOf_congr {b c : Block} (h : c.acc = b.acc) (p : Fin 22) : pairOf c p = pairOf b p := by rw [pairOf, h, pairOf]

@[simp] theorem chanOf_after (s : State) (f : Block → Block) (c : Fin 48) : chanOf (s.after f).block c = chanOf (f s.block) c :=
  chanOf_congr (s.after_met f) c

@[simp] theorem pairOf_after (s : State) (f : Block → Block) (p : Fin 22) : pairOf (s.after f).block p = pairOf (f s.block) p :=
  pairOf_congr (s.after_acc f) p

@[simp] theorem chanOf_updChan_self (c : Fin 48) (f : Chan → Chan) (b : Block) : chanOf (updChan c f b) c = f (chanOf b c) :=
  vget_vupd_self _ _ _

theorem chanOf_updChan_ne {c d : Fin 48} (h : d ≠ c) (f : Chan → Chan) (b : Block) : chanOf (updChan c f b) d = chanOf b d :=
  vget_vupd_ne _ _ h

@[simp] theorem pairOf_updPair_self (p : Fin 22) (f : Pair → Pair) (b : Block) : pairOf (updPair p f b) p = f (pairOf b p) :=
  vget_vupd_self _ _ _

theorem pairOf_updPair_ne {p q : Fin 22} (h : q ≠ p) (f : Pair → Pair) (b : Block) : pairOf (updPair p f b) q = pairOf b q :=
  vget_vupd_ne _ _ h

/-! ### Channels that leave the settled state (R92) -/

/-- The current channel of a pair is not its voltage channel. -/
theorem ne_pairVolt {c : Fin 48} (h : isPairCurrent c = true) : c ≠ pairVolt (pairNo c) := by
  revert h; revert c; decide

theorem chanOf_unsettle_self (c : Fin 48) (b : Block) : chanOf (unsettle c b) c = (chanOf b c).unsettle := by
  unfold unsettle
  extract_lets d
  split
  · next hc => rw [chanOf_updChan_ne (ne_pairVolt hc), chanOf_updChan_self]
  · exact chanOf_updChan_self _ _ _

theorem chanOf_unsettle_other {c d : Fin 48} (hd : d ≠ c) (hv : isPairCurrent c = true → d ≠ pairVolt (pairNo c)) (b : Block) :
    chanOf (unsettle c b) d = chanOf b d := by
  unfold unsettle
  extract_lets e
  split
  · next hc => rw [chanOf_updChan_ne (hv hc), chanOf_updChan_ne hd]
  · exact chanOf_updChan_ne hd _ _

/-! ### Modulator faults (R91) -/

/-- Neither the stop of the session nor the cut of an event that a modulator fault sets off touches metrology. -/
theorem modulatorFault_met {c : Fin 48} {b : Block} (h : (chanOf b c).modFault = false) :
    (modulatorFault c b).met = (unsettle c (updChan c (fun x => { x with modFault := true }) b)).met := by
  unfold modulatorFault
  extract_lets x d
  have hd : d.met = (unsettle c (updChan c (fun x => { x with modFault := true }) b)).met := (irq_frame _ _).met_eq (by decide)
  have hx : ¬ x.modFault = true := by simp only [x, h, Bool.false_eq_true, not_false_eq_true]
  rw [if_neg hx, ← hd]
  split
  · exact onlyIf_keeps (q := Block.met) (fun e => (softFault_frame _ _ e).met_eq (by decide)) _ _
  · split
    · exact (pqTruncate_frame _ _ _).met_eq (by decide)
    · rfl

theorem modulatorFaultClear_of_fault {c : Fin 48} {b : Block} (h : (chanOf b c).modFault = true) :
    modulatorFaultClear c b = unsettle c (updChan c (fun x => { x with modFault := false }) b) := by
  rw [modulatorFaultClear, if_pos h]

theorem modulatorFaultClear_of_sound {c : Fin 48} {b : Block} (h : (chanOf b c).modFault = false) : modulatorFaultClear c b = b := by
  simp [modulatorFaultClear, h]

/-! ### Channels that settle (R92, R113) -/

/-- A live channel without an instant left settles, and a pair whose current channel it is enters no-load. -/
theorem channelSettled_of_due {c : Fin 48} {b : Block} (hs : (chanOf b c).settled = false) (hl : (chanOf b c).live = true)
    (h0 : (chanOf b c).settleLeft = 0) (hr : b.met.running = true) :
    channelSettled c b =
      let d := updChan c (fun x => { x with settled := true }) b
      if isPairCurrent c then
        onlyIf (!(pairOf b (pairNo c)).noLoad) (irq 69) (updPair (pairNo c) (fun x => { x with noLoad := true }) d)
      else d := by
  simp [channelSettled, hs, hl, h0, hr, pairOf]

section
variable {c : Fin 48} {b : Block} (hs : (chanOf b c).settled = false) (hl : (chanOf b c).live = true)
  (h0 : (chanOf b c).settleLeft = 0) (hr : b.met.running = true)
include hs hl h0 hr

theorem channelSettled_met : (channelSettled c b).met = (updChan c (fun x => { x with settled := true }) b).met := by
  rw [channelSettled_of_due hs hl h0 hr]
  extract_lets d
  split
  · exact onlyIf_keeps (q := Block.met) (fun e => (irq_frame _ e).met_eq (by decide)) _ _
  · rfl

theorem channelSettled_acc_of_current (hc : isPairCurrent c = true) :
    (channelSettled c b).acc = (updPair (pairNo c) (fun x => { x with noLoad := true }) b).acc := by
  rw [channelSettled_of_due hs hl h0 hr]
  extract_lets d
  rw [if_pos hc]
  exact onlyIf_keeps (q := Block.acc) (fun e => (irq_frame _ e).acc_eq (by decide)) _ _

theorem channelSettled_acc_of_other (hc : ¬ isPairCurrent c = true) : (channelSettled c b).acc = b.acc := by
  rw [channelSettled_of_due hs hl h0 hr]
  extract_lets d
  rw [if_neg hc, updChan_acc]

theorem channelSettled_raises (hc : isPairCurrent c = true) (hn : (pairOf b (pairNo c)).noLoad = false) :
    Raised (channelSettled c b) 69 := by
  rw [channelSettled_of_due hs hl h0 hr]
  extract_lets d
  rw [if_pos hc, hn]
  exact irq_pends (n := 69) (by decide) _

end

end Machine

/-- Settles O11: a fault and its end write one flag and unsettle the channel, whose pair can lose the segment variable of its voltage
channel; what a fault sets off besides leaves metrology. A settled current channel takes its pair to no-load and no other. -/
theorem modulatorsAndSettling : Obligations.ModulatorsAndSettling := by
  refine ⟨fun s c hrep hf => ?_, fun s c hrep hf => ?_, fun s c hrep hf => ?_, fun s c hs hl h0 hr => ?_⟩
  -- MODULATOR_FAULT
  · have hx : exec (.modulatorFault c) s = .next (s.after (modulatorFault c)) := State.input_eq hrep _
    have hchan := chanOf_congr (modulatorFault_met hf)
    refine ⟨_, hx, execModulatorFault_frame c hx, ?_⟩
    simp only [chanOf_after, hchan, chanOf_unsettle_self, chanOf_updChan_self]
    exact ⟨rfl, rfl, rfl, rfl, fun d hd hv => by rw [chanOf_unsettle_other hd hv, chanOf_updChan_ne hd]⟩
  -- MODULATOR_FAULT_CLEAR of a fault
  · have hx : exec (.modulatorFaultClear c) s = .next (s.after (modulatorFaultClear c)) := State.input_eq hrep _
    refine ⟨_, hx, execModulatorFaultClear_frame c hx, ?_⟩
    simp only [chanOf_after, modulatorFaultClear_of_fault hf, chanOf_unsettle_self, chanOf_updChan_self]
    exact ⟨rfl, rfl, rfl, fun d hd hv => by rw [chanOf_unsettle_other hd hv, chanOf_updChan_ne hd]⟩
  -- MODULATOR_FAULT_CLEAR without one
  · have hx : exec (.modulatorFaultClear c) s = .next (s.after (modulatorFaultClear c)) := State.input_eq hrep _
    exact ⟨_, hx, execModulatorFaultClear_frame c hx, State.after_block (modulatorFaultClear_of_sound hf)⟩
  -- CHANNEL_SETTLED
  · have hchan := chanOf_congr (channelSettled_met hs hl h0 hr)
    refine ⟨s.after (channelSettled c), rfl, execChannelSettled_frame c rfl, ?_⟩
    simp only [chanOf_after, pairOf_after, Raised, State.after_hic, hchan, chanOf_updChan_self, true_and]
    refine ⟨fun d hd => chanOf_updChan_ne hd _ _, fun hc => ?_, fun h => channelSettled_raises hs hl h0 hr h.1 h.2, fun p hp => ?_⟩
    · rw [pairOf_congr (channelSettled_acc_of_current hs hl h0 hr hc), pairOf_updPair_self]
    · by_cases hc : isPairCurrent c = true
      · rw [pairOf_congr (channelSettled_acc_of_current hs hl h0 hr hc), pairOf_updPair_ne hp]
      · exact pairOf_congr (channelSettled_acc_of_other hs hl h0 hr hc) p

end Sys2Proof
end

section
/-! PROOFS. The calibration seal (R104): it opens on an authorisation while every node is quiet, and closes by command or by time. -/

namespace Sys2Proof

open Machine

namespace Machine

/-! ### What an authorisation leaves (R402) -/

/-- Which nodes are quiet is read from the sessions and the safety unit alone. -/
theorem allQuiet_congr {b c : Block} (hsess : c.sess = b.sess) (hsaf : c.saf = b.saf) : allQuiet c = allQuiet b := by
  have hphase : phaseOf c = phaseOf b := by
    unfold phaseOf lockedOut nodeOf sessOf
    rw [hsess, hsaf]
  unfold allQuiet quiet
  rw [hphase]

@[simp] theorem authorise_allQuiet (m : Fin 4) (o n : Nat) (b : Block) : allQuiet (authorise m o n b).1 = allQuiet b :=
  allQuiet_congr ((authorise_frame m o n b).sess_eq (by decide)) ((authorise_frame m o n b).saf_eq (by decide))

@[simp] theorem authorise_met (m : Fin 4) (o n : Nat) (b : Block) : (authorise m o n b).1.met = b.met :=
  (authorise_frame m o n b).met_eq (by decide)

@[simp] theorem authorise_mbx (m : Fin 4) (o n : Nat) (b : Block) : (authorise m o n b).1.mbx = b.mbx :=
  (authorise_frame m o n b).mbx_eq (by decide)

@[simp] theorem now_authorise (m : Fin 4) (o n : Nat) (b : Block) : now (authorise m o n b).1 = now b :=
  congrArg Tide.now ((authorise_frame m o n b).tide_eq (by decide))

/-! ### Opening -/

/-- The seal opens now, with its legal entry and source 68. -/
def sealOpened (b : Block) : Block :=
  irq 68 (legalLog 0x0010 wCarr [1] (updMet (fun x => { x with sealOpen := true, sealAt := now b }) b))

theorem sealOpened_met (b : Block) : (sealOpened b).met = { b.met with sealOpen := true, sealAt := now b } := by
  rw [sealOpened, (irq_frame _ _).met_eq (by decide), (legalLog_frame _ _ _ _).met_eq (by decide), updMet_met]

theorem sealOpened_mbx (b : Block) : (sealOpened b).mbx = b.mbx := by
  rw [sealOpened, (irq_frame _ _).mbx_eq (by decide), (legalLog_frame _ _ _ _).mbx_eq (by decide), updMet_mbx]

theorem metSealOpen_of_denied {m : Fin 4} {b : Block} (h : (authorise m 4 (rN b m 0 2) b).2 = false) :
    metSealOpen m b = refuse m 0x0302 (authorise m 4 (rN b m 0 2) b).1 := by
  simp [metSealOpen, h]

theorem metSealOpen_of_unquiet {m : Fin 4} {b : Block} (h : (authorise m 4 (rN b m 0 2) b).2 = true) (hq : allQuiet b = false) :
    metSealOpen m b = refuse m 0x0303 (authorise m 4 (rN b m 0 2) b).1 := by
  simp [metSealOpen, h, checked_cons_fail (x := (0x0303, false)), hq]

theorem metSealOpen_of_pass {m : Fin 4} {b : Block} (h : (authorise m 4 (rN b m 0 2) b).2 = true) (hq : allQuiet b = true) :
    metSealOpen m b = ok m (b64 (now b)) (sealOpened (authorise m 4 (rN b m 0 2) b).1) := by
  simp [metSealOpen, h, checked_cons_pass (x := (0x0303, true)), hq, sealOpened]

/-- A refusal after the authorisation leaves metrology. -/
theorem metSealOpen_refused {s : State} {m : Fin 4} {status : Nat}
    (h : metSealOpen m s.block = refuse m status (authorise m 4 (rN s.block m 0 2) s.block).1) :
    (s.after (metSealOpen m)).block.met = s.block.met ∧ Answered s (s.after (metSealOpen m)) m status [] := by
  refine ⟨?_, answered_of_respond h (authorise_mbx _ _ _ _) (by simp)⟩
  rw [State.after_met, h, (refuse_frame _ _ _).met_eq (by decide), authorise_met]

/-! ### Closing -/

/-- Closing discards what is staged and every raw mode; the activations it cancels are entries of the launcher. -/
theorem sealClose_met (how : U8) (b : Block) :
    (sealClose how b).met = { b.met with
      sealOpen := false, chans := vmap b.met.chans fun c => { c with staged := none, pendingRaw := none, cfg := { c.cfg with raw := false } } } := by
  simp only [sealClose, updMet_met, (cancelEntries_frame _ _ _).met_eq (by decide), (irq_frame _ _).met_eq (by decide),
    (legalLog_frame _ _ _ _).met_eq (by decide)]

theorem sealClose_mbx (how : U8) (b : Block) : (sealClose how b).mbx = b.mbx := (sealClose_frame how b).mbx_eq (by decide)

/-- A metrology unit that holds what closing left has the seal closed, no table staged and no raw mode waiting or in force. -/
theorem closed_of_sealClose {how : U8} {b c : Block} (h : c.met = (sealClose how b).met) :
    c.met.sealOpen = false ∧
      ∀ k, (chanOf c k).staged = none ∧ (chanOf c k).pendingRaw = none ∧ (chanOf c k).cfg.raw = false := by
  rw [sealClose_met] at h
  refine ⟨by rw [h], fun k => ?_⟩
  rw [chanOf, h, vget_vmap]
  exact ⟨rfl, rfl, rfl⟩

theorem metSealClose_of_open {b : Block} (m : Fin 4) (h : b.met.sealOpen = true) :
    metSealClose m b = ok m (leBytes 4 (stagedCount b)) (sealClose 2 b) := by
  rw [metSealClose, if_pos h]

theorem metSealClose_of_closed {b : Block} (m : Fin 4) (h : b.met.sealOpen = false) : metSealClose m b = ok m (zeros 4) b := by
  simp [metSealClose, h]

theorem sealTimeout_of_due {b : Block} (h : b.met.sealOpen = true) (hdue : b.met.sealAt.toNat + 3600 * tSec ≤ (now b).toNat) :
    sealTimeout b = sealClose 3 b := by
  rw [sealTimeout, if_pos h, afterTicks_of_le hdue]

end Machine

/-- Settles O19: the authorisation comes first and touches no unit that the rest of MET_SEAL_OPEN reads; both closings are one operation. -/
theorem sealCommands : Obligations.SealCommands := by
  refine ⟨fun s m ha hq => ?_, fun s m ha hq => ?_, fun s m ha ho => ?_, fun s m ha ho => ?_, fun s ho hdue => ?_⟩
  -- MET_SEAL_OPEN with every node quiet
  · have hx : exec (.metSealOpen m) s = .next (s.after (metSealOpen m)) := run_of_asked ha _
    refine ⟨_, hx, execMetSealOpen_frame m hx, fun hauth => ?_, fun hauth => ⟨?_, ?_⟩,
      fun hauth => metSealOpen_refused (metSealOpen_of_denied hauth)⟩
    · rw [State.after_met, metSealOpen_of_pass hauth hq, (ok_frame _ _ _).met_eq (by decide), sealOpened_met, authorise_met, now_authorise]
    · exact answered_of_respond (metSealOpen_of_pass hauth hq) ((sealOpened_mbx _).trans (authorise_mbx _ _ _ _)) (by simp)
    · rw [Raised, State.after_hic, metSealOpen_of_pass hauth hq, (ok_frame _ _ _).hic_eq (by decide)]
      exact irq_pends (by decide) _
  -- MET_SEAL_OPEN with a node that is not quiet
  · have hx : exec (.metSealOpen m) s = .next (s.after (metSealOpen m)) := run_of_asked ha _
    have hdenied := fun hauth => metSealOpen_refused (s := s) (metSealOpen_of_denied (m := m) hauth)
    have hunquiet := fun hauth => metSealOpen_refused (s := s) (metSealOpen_of_unquiet (m := m) hauth hq)
    refine ⟨_, hx, execMetSealOpen_frame m hx, ?_, fun hauth => (hunquiet hauth).2, fun hauth => (hdenied hauth).2⟩
    cases hauth : (authorise m 4 (rN s.block m 0 2) s.block).2
    · exact (hdenied hauth).1
    · exact (hunquiet hauth).1
  -- MET_SEAL_CLOSE of an open seal
  · have hx : exec (.metSealClose m) s = .next (s.after (metSealClose m)) := run_of_asked ha _
    have heff := metSealClose_of_open m ho
    refine ⟨_, hx, execMetSealClose_frame m hx, answered_of_respond heff (sealClose_mbx _ _) (by simp),
      closed_of_sealClose (how := 2) (b := s.block) ?_⟩
    rw [State.after_met, heff, (ok_frame _ _ _).met_eq (by decide)]
  -- MET_SEAL_CLOSE of a closed one
  · have hx : exec (.metSealClose m) s = .next (s.after (metSealClose m)) := run_of_asked ha _
    have heff := metSealClose_of_closed m ho
    refine ⟨_, hx, execMetSealClose_frame m hx, answered_of_respond heff rfl (by simp), ?_⟩
    rw [State.after_met, heff, (ok_frame _ _ _).met_eq (by decide)]
  -- SEAL_TIMEOUT
  · refine ⟨s.after sealTimeout, rfl, execSealTimeout_frame rfl, closed_of_sealClose (how := 3) (b := s.block) ?_⟩
    rw [State.after_met, sealTimeout_of_due ho hdue]

end Sys2Proof
end

section
/-! PROOFS. Calibration runs, arithmetic on request, counts, and the settings of pairs and feeders (R102, R108, R114, R124, R130): what
each command makes of the block, and that its answer stands. -/

namespace Sys2Proof

open Machine

namespace Machine

/-! ### A change of several channels -/

/-- A change made for each channel of a list without repetitions reaches those channels and no other. -/
theorem chanOf_forAll_updChan {cs : List (Fin 48)} (hcs : cs.Nodup) (f : Chan → Chan) (b : Block) (d : Fin 48) :
    chanOf (forAll cs (fun c b => updChan c f b) b) d = if d ∈ cs then f (chanOf b d) else chanOf b d := by
  induction cs generalizing b with
  | nil => simp [forAll]
  | cons c cs ih =>
    obtain ⟨hc, hrest⟩ := List.nodup_cons.mp hcs
    refine (ih hrest (updChan c f b)).trans ?_
    by_cases hd : d = c
    · subst hd
      simp [hc]
    · simp [hd, chanOf_updChan_ne hd]

theorem maskChans_nodup (b : Block) (m : Fin 4) : (maskChans b m).Nodup := (List.nodup_finRange 48).filter _

/-! ### Calibration runs (R108) -/

/-- A request that is being executed has no response yet. -/
theorem answered_of_serving {b : Block} {m : Fin 4} {op : Nat} (h : serving b m op = true) : (mbxOf b m).answered = false := by
  simp only [serving, Bool.and_eq_true, Bool.not_eq_true'] at h
  exact h.1.2

/-- The run that MET_CAL_MEASURE sets up: from the instant given, or the next sample instant without one. -/
def requestedCal (m : Fin 4) (b : Block) : CalMeasure :=
  { mbx := m, chan := reqChan b m, left := rN b m 4 4
    first := if r64 b m 8 = 0 then BitVec.ofNat 64 (((now b).toNat / tSample + 1) * tSample) else r64 b m 8 }

theorem metCalMeasure_of_pass {m : Fin 4} {b : Block} (hc : (chanOk b m).2 = true) (hlo : 1 ≤ rN b m 4 4) (hhi : rN b m 4 4 ≤ 1048576)
    (ht : r64 b m 8 = 0 ∨ ((r64 b m 8).toNat % tSample = 0 ∧ (now b).toNat + 96 ≤ (r64 b m 8).toNat)) :
    metCalMeasure m b = updMet (fun x => { x with cal := some (requestedCal m b) }) b := by
  unfold metCalMeasure
  extract_lets n t a
  rw [checked_cons_pass hc, checked_cons_pass (by simp [n, hlo, hhi]), checked_cons_pass (by simpa [t] using ht), checked_nil]
  rfl

theorem metCalMeasure_of_none {m : Fin 4} {b : Block} (hc : (chanOk b m).2 = true) (h0 : rN b m 4 4 = 0) :
    metCalMeasure m b = refuse m 0x030B b := by
  unfold metCalMeasure
  extract_lets n t a
  rw [checked_cons_pass hc, checked_cons_fail (by simp [n, h0])]

/-! ### Arithmetic on request (R102) -/

/-- A result of MET_FP_EVAL as it is answered: the binary32 value, 12 zero bytes, the flags. -/
def fpAnswer (r : FpRes) : List U8 := b32 (w32 r) ++ zeros 12 ++ [flagByte r.2]

/-- What MET_FP_EVAL answers for operation `k`. -/
def fpEvaluated (m : Fin 4) (b : Block) (k : Nat) : List U8 :=
  match k with
  | 0 => fpAnswer (fpAdd f32 (rN b m 4 4) (rN b m 8 4))
  | 1 => fpAnswer (fpMul f32 (rN b m 4 4) (rN b m 8 4))
  | 2 => fpAnswer (fpFma f32 (rN b m 4 4) (rN b m 8 4) (rN b m 12 4))
  | _ => zeros 4 ++ leBytes 12 (fpToFixed (rN b m 4 4)).1.toNat ++ [flagByte (fpToFixed (rN b m 4 4)).2]

theorem fpEvaluated_length (m : Fin 4) (b : Block) (k : Nat) : (fpEvaluated m b k).length = 17 := by
  unfold fpEvaluated
  split <;> simp [fpAnswer]

theorem metFpEval_of_pass {m : Fin 4} {b : Block} {op : U8} (hc : (chanOk b m).2 = true) (hop : rB b m 1 = op) (hk : op.toNat ≤ 3) :
    metFpEval m b = ok m (fpEvaluated m b op.toNat) b := by
  subst hop
  unfold metFpEval
  extract_lets x y z out
  rw [checked_cons_pass hc, checked_cons_pass (by simpa using hk), checked_nil]
  rfl

theorem metFpEval_of_range {m : Fin 4} {b : Block} (hc : (chanOk b m).2 = true) (hk : 3 < (rB b m 1).toNat) :
    metFpEval m b = refuse m 0x030B b := by
  unfold metFpEval
  extract_lets x y z out
  rw [checked_cons_pass hc, checked_cons_fail (by simpa using hk)]

/-- MET_FP_EVAL of an operation answers its result and changes nothing of metrology. -/
theorem metFpEval_evaluates {s : State} {m : Fin 4} {op : U8} (ha : Asked s m 0x030A .carr) (hc : (chanOk s.block m).2 = true)
    (hop : rB s.block m 1 = op) (hk : op.toNat ≤ 3) {p : List U8} (hp : fpEvaluated m s.block op.toNat = p) :
    ∃ t, exec (.metFpEval m) s = .next t ∧ Only [.mbx, .rpl] s t ∧ Answered s t m 0 p ∧ t.block.met = s.block.met := by
  subst hp
  have hx : exec (.metFpEval m) s = .next (s.after (metFpEval m)) := run_of_asked ha _
  have hframe := execMetFpEval_frame m hx
  exact ⟨_, hx, hframe, answered_of_respond (metFpEval_of_pass hc hop hk) rfl (by simp [fpEvaluated_length]), hframe.2.met_eq (by decide)⟩

/-! ### Counts (R108) -/

/-- The clip counts of the channels named are 0. -/
def clipsCleared (m : Fin 4) (b : Block) : Block := forAll (maskChans b m) (fun c b => updChan c (fun x => { x with clipCount := 0 }) b) b

theorem clipsCleared_mbx (m : Fin 4) (b : Block) : (clipsCleared m b).mbx = b.mbx := forAll_keeps (fun _ _ => updChan_mbx _ _ _) _ _

theorem metClearCounts_of_pass {m : Fin 4} {b : Block} (hm : (maskOk b m).2 = true) : metClearCounts m b = ok m [] (clipsCleared m b) := by
  rw [metClearCounts, checked_cons_pass hm, checked_nil, clipsCleared]

/-! ### Settings that wait for the next stamp (R114, R124, R130) -/

@[simp] theorem saveLegalConfig_acc (b : Block) : (saveLegalConfig b).acc = b.acc := (saveLegalConfig_frame b).acc_eq (by decide)
@[simp] theorem saveLegalConfig_pq (b : Block) : (saveLegalConfig b).pq = b.pq := (saveLegalConfig_frame b).pq_eq (by decide)
@[simp] theorem saveLegalConfig_mbx (b : Block) : (saveLegalConfig b).mbx = b.mbx := (saveLegalConfig_frame b).mbx_eq (by decide)

/-- The answer and the stored record leave the pairs, so a pair setting reads as it was left waiting. -/
theorem pairOf_after_setting {s : State} {f : Block → Block} {m : Fin 4} {payload : List U8} {p : Fin 22} {g : Pair → Pair}
    (hf : f s.block = ok m payload (saveLegalConfig (updPair p g s.block))) (q : Fin 22) :
    pairOf (s.after f).block q = pairOf (updPair p g s.block) q :=
  pairOf_congr (by rw [State.after_acc, hf, (ok_frame _ _ _).acc_eq (by decide), saveLegalConfig_acc]) q

theorem metSetNoload_of_closed {b : Block} (m : Fin 4) (h : b.met.sealOpen = false) : metSetNoload m b = refuse m (sealOk b).1 b := by
  unfold metSetNoload
  extract_lets p x sc nl iNom
  rw [checked_cons_fail h]

theorem metSetNoload_of_pass {m : Fin 4} {b : Block} (hs : (sealOk b).2 = true) (hp : (rB b m 0).toNat < 22)
    (hsc : withinF (r32 b m 4) (timesRatio (chanOf b (pairCurr (reqPair b m))).cfg.iNom 1 100) = true)
    (hnl : withinF (r32 b m 8) (ratioF (exactF (r32 b m 4) * exactF (pairOf b (reqPair b m)).uRef) (2 ^ 298)) = true) :
    metSetNoload m b = ok m (b64 (nextStamp b))
      (saveLegalConfig (updPair (reqPair b m) (fun x => { x with pendingNoload := some (r32 b m 4, r32 b m 8, nextStamp b) }) b)) := by
  unfold metSetNoload
  extract_lets p x sc nl iNom
  rw [checked_cons_pass hs, checked_cons_pass (by simp only [p, x, sc, nl, iNom, hp, hsc, hnl, decide_true, Bool.and_self]), checked_nil]

theorem metSetUref_of_pass {m : Fin 4} {b : Block} (hs : (sealOk b).2 = true) (hp : (rB b m 0).toNat < 22)
    (hu : positiveNormal (r32 b m 4) 0x44960000 = true) :
    metSetUref m b = ok m (b64 (nextStamp b))
      (saveLegalConfig (updPair (reqPair b m) (fun x => { x with pendingUref := some (r32 b m 4, nextStamp b) }) b)) := by
  unfold metSetUref
  extract_lets p u
  rw [checked_cons_pass hs, checked_cons_pass (by simp only [u, hp, hu, decide_true, Bool.and_self]), checked_nil]

theorem metSetUref_of_range {m : Fin 4} {b : Block} (hs : (sealOk b).2 = true)
    (h : 22 ≤ (rB b m 0).toNat ∨ positiveNormal (r32 b m 4) 0x44960000 = false) : metSetUref m b = refuse m 0x030C b := by
  unfold metSetUref
  extract_lets p u
  rw [checked_cons_pass hs, checked_cons_fail (by simpa [u, or_iff_not_imp_left] using h)]

/-- The feeder settings that MET_PQ_CONFIG asks for. -/
def requestedPq (m : Fin 4) (b : Block) : PqSet :=
  { enable := rBit b m 1 0, f60 := rBit b m 1 1, queue := r16 b m 2, sag := r16 b m 4, swell := r16 b m 6, interruption := r16 b m 8
    hyst := r16 b m 10 }

theorem metPqConfig_of_pass {m : Fin 4} {f : Fin 2} {b : Block} (hf : (rB b m 0).toNat = f.val)
    (ht : pqThresholdsOk (rN b m 4 2) (rN b m 6 2) (rN b m 8 2) (rN b m 10 2) = true) (hq : queueOk (rN b m 2 2) true = true) :
    metPqConfig m b = ok m [] (saveLegalConfig (updFeeder f (fun y => { y with pending := some (requestedPq m b, nextStamp b) }) b)) := by
  have hlt : (rB b m 0).toNat < 2 := hf ▸ f.isLt
  have hfeeder : (⟨(rB b m 0).toNat % 2, Nat.mod_lt _ (by decide)⟩ : Fin 2) = f := Fin.ext ((Nat.mod_eq_of_lt hlt).trans hf)
  unfold metPqConfig
  rw [hfeeder]
  extract_lets g
  rw [checked_cons_pass (by simp only [hlt, ht, decide_true, Bool.and_self]), checked_cons_pass hq, checked_nil]
  rfl

/-! ### Registers and their flags (R114, R130) -/

theorem metEnergyRead_of_register {m : Fin 4} {b : Block} {r : Register} (h : energyReg b (rB b m 0).toNat = some r) :
    metEnergyRead m b = ok m (leBytes 12 r.acc.toNat ++ [BitVec.ofNat 8 (b2n r.range + 2 * b2n r.unproven), 0, 0, 0] ++ b64 b.acc.applied) b := by
  simp only [metEnergyRead, h]

theorem metEnergyRead_of_none {m : Fin 4} {b : Block} (h : energyReg b (rB b m 0).toNat = none) : metEnergyRead m b = refuse m 0x030E b := by
  simp only [metEnergyRead, h]

/-- The flags are cleared in the energy unit; the legal entry and the answer lie outside it. -/
theorem metEnergyClearFlags_acc {m : Fin 4} {b : Block} (hs : (sealOk b).2 = true) (hm : rN b m 0 4 < 2 ^ 22) :
    (metEnergyClearFlags m b).acc = { b.acc with
      pairs := vmapIdx b.acc.pairs fun p x => if bitOf (rN b m 0 4) p.val then { x with range := false } else x } := by
  unfold metEnergyClearFlags
  extract_lets mask on
  rw [checked_cons_pass hs, checked_cons_pass (by simp only [mask, hm, decide_true]), checked_nil,
    (ok_frame _ _ _).acc_eq (by decide), (legalLog_frame _ _ _ _).acc_eq (by decide)]

end Machine

/-- Settles O21: each request runs the effect of its command once its checks hold; what it writes of a pair, a feeder or a channel is read
through the frames of the stored record, the legal entry and the answer. -/
theorem metrologyCommands : Obligations.MetrologyCommands := by
  refine ⟨fun s m ha hc hlo hhi ht => ?_, fun s m ha hc h0 => ?_, fun s m ha hc hop => ?_, fun s m ha hc hop => ?_,
    fun s m ha hc hop => ?_, fun s m ha hc hop => ?_, fun s m ha hc hop => ?_, fun s m ha hm => ?_, fun s m ha hs => ?_,
    fun s m ha hs hp hsc hnl => ?_, fun s m ha hs hp hu => ?_, fun s m ha hs hout => ?_, fun s m f ha hf ht hq => ?_,
    fun s m r ha hr => ?_, fun s m ha hr => ?_, fun s m ha hs hm => ?_, fun s m ha => ?_⟩
  -- MET_CAL_MEASURE
  · have hx : exec (.metCalMeasure m) s = .next (s.after (metCalMeasure m)) := run_of_asked ha _
    have heff := metCalMeasure_of_pass hc hlo hhi ht
    refine ⟨_, hx, execMetCalMeasure_frame m hx, ?_⟩
    rw [mbxOf, State.after_met, State.after_mbx, heff]
    exact ⟨rfl, rfl, answered_of_serving ha.1⟩
  -- MET_CAL_MEASURE of no sample
  · have hx : exec (.metCalMeasure m) s = .next (s.after (metCalMeasure m)) := run_of_asked ha _
    have heff := metCalMeasure_of_none hc h0
    exact ⟨_, hx, execMetCalMeasure_frame m hx, answered_of_refuse heff, (after_refuse_frame heff).met_eq (by decide)⟩
  -- MET_FP_EVAL: sum, product, product-sum, conversion
  · exact metFpEval_evaluates ha hc hop (by decide) rfl
  · exact metFpEval_evaluates ha hc hop (by decide) rfl
  · exact metFpEval_evaluates ha hc hop (by decide) rfl
  · exact metFpEval_evaluates ha hc hop (by decide) rfl
  -- MET_FP_EVAL of no operation
  · have hx : exec (.metFpEval m) s = .next (s.after (metFpEval m)) := run_of_asked ha _
    have hframe := execMetFpEval_frame m hx
    exact ⟨_, hx, hframe, answered_of_refuse (metFpEval_of_range hc hop), hframe.2.met_eq (by decide)⟩
  -- MET_CLEAR_COUNTS
  · have hx : exec (.metClearCounts m) s = .next (s.after (metClearCounts m)) := run_of_asked ha _
    have heff := metClearCounts_of_pass hm
    refine ⟨_, hx, execMetClearCounts_frame m hx, answered_of_respond heff (clipsCleared_mbx _ _) (by simp), fun c => ?_⟩
    rw [chanOf_after, heff, chanOf_congr ((ok_frame _ _ _).met_eq (by decide))]
    exact chanOf_forAll_updChan (maskChans_nodup _ _) _ _ _
  -- MET_SET_NOLOAD under a closed seal
  · have hx : exec (.metSetNoload m) s = .next (s.after (metSetNoload m)) := run_of_asked ha _
    have heff := metSetNoload_of_closed m hs
    exact ⟨_, hx, execMetSetNoload_frame m hx, answered_of_refuse heff, congrArg Energy.pairs ((after_refuse_frame heff).acc_eq (by decide))⟩
  -- MET_SET_NOLOAD
  · have hx : exec (.metSetNoload m) s = .next (s.after (metSetNoload m)) := run_of_asked ha _
    have heff := metSetNoload_of_pass hs hp hsc hnl
    refine ⟨_, hx, execMetSetNoload_frame m hx, answered_of_respond heff (by simp) (by simp), ?_, fun p hp => ?_⟩
    · rw [pairOf_after_setting heff, pairOf_updPair_self]
    · rw [pairOf_after_setting heff, pairOf_updPair_ne hp]
  -- MET_SET_UREF
  · have hx : exec (.metSetUref m) s = .next (s.after (metSetUref m)) := run_of_asked ha _
    have heff := metSetUref_of_pass hs hp hu
    refine ⟨_, hx, execMetSetUref_frame m hx, answered_of_respond heff (by simp) (by simp), ?_, fun p hp => ?_⟩
    · rw [pairOf_after_setting heff, pairOf_updPair_self]
    · rw [pairOf_after_setting heff, pairOf_updPair_ne hp]
  -- MET_SET_UREF out of range
  · have hx : exec (.metSetUref m) s = .next (s.after (metSetUref m)) := run_of_asked ha _
    have heff := metSetUref_of_range hs hout
    exact ⟨_, hx, execMetSetUref_frame m hx, answered_of_refuse heff, congrArg Energy.pairs ((after_refuse_frame heff).acc_eq (by decide))⟩
  -- MET_PQ_CONFIG
  · have hx : exec (.metPqConfig m) s = .next (s.after (metPqConfig m)) := run_of_asked ha _
    have heff := metPqConfig_of_pass hf ht hq
    refine ⟨_, hx, execMetPqConfig_frame m hx, answered_of_respond heff (by simp) (by simp), ?_⟩
    rw [State.after_pq, heff, (ok_frame _ _ _).pq_eq (by decide), saveLegalConfig_pq, updFeeder_pq, vget_vupd_self]
    exact ⟨rfl, fun g hg => vget_vupd_ne _ _ hg⟩
  -- MET_ENERGY_READ
  · have hx : exec (.metEnergyRead m) s = .next (s.after (metEnergyRead m)) := run_of_asked ha _
    have hframe := execMetEnergyRead_frame m hx
    exact ⟨_, hx, hframe, answered_of_respond (metEnergyRead_of_register hr) rfl (by simp), hframe.2.acc_eq (by decide)⟩
  -- MET_ENERGY_READ of no register
  · have hx : exec (.metEnergyRead m) s = .next (s.after (metEnergyRead m)) := run_of_asked ha _
    have hframe := execMetEnergyRead_frame m hx
    exact ⟨_, hx, hframe, answered_of_refuse (metEnergyRead_of_none hr), hframe.2.acc_eq (by decide)⟩
  -- MET_ENERGY_CLEAR_FLAGS
  · have hx : exec (.metEnergyClearFlags m) s = .next (s.after (metEnergyClearFlags m)) := run_of_asked ha _
    refine ⟨_, hx, execMetEnergyClearFlags_frame m hx, fun p => ?_⟩
    rw [State.after_acc, metEnergyClearFlags_acc hs hm, vget_vmapIdx]
  -- MET_PQ_CLEAR_COUNTS
  · have hx : exec (.metPqClearCounts m) s = .next (s.after (metPqClearCounts m)) := run_of_asked ha _
    refine ⟨_, hx, execMetPqClearCounts_frame m hx, answered_of_respond rfl rfl (by simp), ?_⟩
    rw [State.after_pq, metPqClearCounts, (ok_frame _ _ _).pq_eq (by decide)]

end Sys2Proof
end

section
/-! PROOFS. Reads of the host port: frames that are only counted, the words of a READ frame, and claims (R413, R421, R434). -/

namespace Sys2Proof

open Machine

namespace Machine

/-! ### Frames that are only counted (R421) -/

@[simp] theorem irq_hp (n : Nat) (b : Block) : (irq n b).hp = b.hp := (irq_frame n b).hp_eq (by decide)

/-- What a frame error writes of the port; the source it raises leaves the port. -/
theorem spiErr_hp (cause : Nat) (b : Block) :
    (spiErr cause b).hp = { b.hp with
      spiCount := satInc b.hp.spiCount, spiCause := BitVec.ofNat 3 cause
      lastSpiIrq := if mayRaise b b.hp.lastSpiIrq tMs then some (now b) else b.hp.lastSpiIrq } :=
  onlyIf_keeps (irq_hp 7) _ _

/-! ### READ frames (R413) -/

/-- No word of the blocks is forbidden. -/
theorem forbiddenBy_of_lt {a : Nat} (h : a < 0xB80) (b : Block) : forbiddenBy b a = none := if_pos h

theorem readWords_one {a : Nat} (h : a < 0xB80) (lag : Fin 49) (b : Block) :
    readWords lag 1 a b = (readEffect lag a b, [readWord lag b a]) := by
  simp [readWords, forbiddenBy_of_lt h]

theorem readWord_of_ne {a : Nat} (h : a ≠ 0x200) (lag : Fin 49) (b : Block) : readWord lag b a = windowWord b a := if_neg h

/-- The words below the block TID are read without a side effect. -/
theorem readEffect_of_lt {a : Nat} (h : a < 0x200) (lag : Fin 49) (b : Block) : readEffect lag a b = b := by
  have h1 : a ≠ 0x200 := by omega
  have h2 : ¬ (0x348 ≤ a ∧ a < 0x398 ∧ a % 2 = 0) := by omega
  have h3 : ¬ (0x940 ≤ a ∧ a < 0x980) := by omega
  have h4 : ¬ (0xB00 ≤ a ∧ a < 0xB40) := by omega
  rw [readEffect, if_neg h1, if_neg h2, if_neg h3, if_neg h4]

theorem readFrame_of_released {b : Block} {count : Nat} (hr : b.rst.inReset = false) (hc : count ≠ 0) (addr : U16) (lag : Fin 49) :
    readFrame addr count lag b =
      let r := readWords lag count addr.toNat b
      { r.1 with hp := { r.1.hp with lastRead := r.2, reads := satInc r.1.hp.reads } } := by
  simp [readFrame, hr, hc]

/-- A READ of one word of the blocks returns it, is counted, and has the side effect of the word. -/
theorem readFrame_one {b : Block} {addr : U16} (hr : b.rst.inReset = false) (ha : addr.toNat < 0xB80) (lag : Fin 49) :
    readFrame addr 1 lag b = { readEffect lag addr.toNat b with
      hp := { b.hp with lastRead := [readWord lag b addr.toNat], reads := satInc b.hp.reads } } := by
  have hhp : (readEffect lag addr.toNat b).hp = b.hp := (readEffect_frame lag addr.toNat b).hp_eq (by decide)
  simp only [readFrame_of_released hr (by decide : 1 ≠ 0), readWords_one ha, hhp]

theorem wholeRead_of_unclaimed {addr : U16} (h : claimPin addr.toNat = none) (count : Nat) (lag : Fin 49) (b : Block) :
    wholeRead addr count lag b = readFrame addr count lag b := by
  simp [wholeRead, h]

/-- A READ frame of no word claims nothing, whatever its address. -/
theorem wholeRead_zero (addr : U16) (lag : Fin 49) (b : Block) : wholeRead addr 0 lag b = b := by
  unfold wholeRead
  split
  · exact if_neg (by decide)
  · rfl

theorem claimPin_of_gt {a : Nat} (h : 0x10F < a) : claimPin a = none := dif_neg (by omega)

/-- The words whose read captures lie in the blocks above TID. -/
theorem captures_range {a : Nat} (h : captures a = true) : 0x348 ≤ a ∧ a < 0xB80 := by
  simp [captures] at h
  omega

theorem captureRead_of_captures {addr : U16} (h : captures addr.toNat = true) (b : Block) :
    captureRead addr b = readFrame addr 1 0 b := by
  have hrange := captures_range h
  rw [captureRead, if_pos h, wholeRead_of_unclaimed (claimPin_of_gt (by omega))]

theorem captureRead_of_other {addr : U16} (h : captures addr.toNat = false) (b : Block) : captureRead addr b = b := by
  simp [captureRead, h]

/-! ### Claims (R434) -/

/-- The address of HIC_CLAIM(p). -/
def claimAddr (p : Fin 4) : U16 := BitVec.ofNat 16 (0x10C + p.val)

theorem claimAddr_toNat (p : Fin 4) : (claimAddr p).toNat = 0x10C + p.val := by
  revert p; decide

theorem claimPin_claimAddr (p : Fin 4) : claimPin (claimAddr p).toNat = some p := by
  revert p; decide

/-- What a claim does to the concentrator depends on the concentrator alone. -/
theorem hicClaim_hic_congr {b c : Block} (h : c.hic = b.hic) (p : Fin 4) : (hicClaim p c).hic = (hicClaim p b).hic := by
  unfold hicClaim hicChange
  rw [h]
  split
  · split
    · rfl
    · exact h
  · exact h

theorem hicClaim_hic_of_winner {b : Block} {p : Fin 4} {n : Fin 512} {k : Nat} (h : hicWinner b.hic p = some (n.val, k)) :
    (hicClaim p b).hic = hicNote (hicClaimSource p n b.hic) := by
  simp [hicClaim, h, hicChange]

theorem hicClaim_of_none {b : Block} {p : Fin 4} (h : hicWinner b.hic p = none) : hicClaim p b = b := by
  simp [hicClaim, h]

@[simp] theorem hicNote_sources (h : Hic) : (hicNote h).sources = h.sources := rfl

@[simp] theorem hicNote_fault (h : Hic) : (hicNote h).fault = h.fault := rfl

/-- Following the pins changes no stack. -/
@[simp] theorem hicNote_stack (h : Hic) (p : Fin 4) : (vget (hicNote h).pins p).stack = (vget h.pins p).stack := by
  rw [hicNote, vget_vmapIdx]

section
variable {b : Block} (hr : b.rst.inReset = false) (p : Fin 4)
include hr

/-- A READ of HIC_CLAIM(p) alone claims after it has returned its word; the trace of a recording notes it. -/
theorem wholeRead_claim :
    wholeRead (claimAddr p) 1 0 b = hostItem 2 (claimAddr p).toNat [] (hicClaim p
      { b with hp := { b.hp with lastRead := [windowWord b (0x10C + p.val)], reads := satInc b.hp.reads } }) := by
  have hp := p.isLt
  have haddr := claimAddr_toNat p
  have hword := readFrame_one hr (addr := claimAddr p) (by omega) 0
  rw [readEffect_of_lt (by omega), readWord_of_ne (by omega), haddr] at hword
  simp [wholeRead, claimPin_claimAddr, hword]

theorem wholeRead_claim_hic : (wholeRead (claimAddr p) 1 0 b).hic = (hicClaim p b).hic := by
  rw [wholeRead_claim hr p, (hostItem_frame _ _ _ _).hic_eq (by decide)]
  exact hicClaim_hic_congr (by rfl) p

theorem wholeRead_claim_lastRead : (wholeRead (claimAddr p) 1 0 b).hp.lastRead = [windowWord b (0x10C + p.val)] := by
  rw [wholeRead_claim hr p, (hostItem_frame _ _ _ _).hp_eq (by decide), (hicClaim_frame _ _).hp_eq (by decide)]

end

end Machine

end Sys2Proof
end

section
/-! PROOFS. Writes of the host port: frames judged and committed whole, completions, and frames by their edges (R415 to R421, R435). -/

namespace Sys2Proof

open Machine

theorem Block.Only.dbg_eq {l : List Part} {b c : Block} (h : Block.Only l b c) (hp : Part.dbg ∉ l) : c.dbg = b.dbg := h .dbg hp

namespace Machine

@[simp] theorem State.after_dbg (s : State) (f : Block → Block) : (s.after f).block.dbg = (f s.block).dbg :=
  (safetyItem_frame _ _).dbg_eq (by decide)

/-! ### WRITE frames (R415 to R417, R421) -/

theorem registerWrite_of_reset {b : Block} (hr : b.rst.inReset = true) (addr : U16) (words : List U32) (crc : Option U8) :
    registerWrite addr words crc b = b := if_pos hr

theorem registerWrite_of_empty {b : Block} (hr : b.rst.inReset = false) (addr : U16) (crc : Option U8) :
    registerWrite addr [] crc b = spiErr (if crc = none then 4 else 5) b := by
  cases crc <;> simp [registerWrite, hr]

theorem registerWrite_of_badCrc {b : Block} {addr : U16} {words : List U32} {c : U8} (hr : b.rst.inReset = false) (hw : words ≠ [])
    (hc : crc8 (frameBytes 0x32 addr words) ≠ c) : registerWrite addr words (some c) b = spiErr 6 b := by
  rw [registerWrite, hr]
  exact (if_neg hw).trans (if_pos hc)

theorem registerWrite_of_whole {b : Block} {addr : U16} {words : List U32} {crc : Option U8} (hr : b.rst.inReset = false) (hw : words ≠ [])
    (hc : ∀ c, crc = some c → crc8 (frameBytes 0x32 addr words) = c) :
    registerWrite addr words crc b = writeFrame true crc.isSome addr.toNat words b := by
  cases crc with
  | none => simp [registerWrite, hr, hw]
  | some c =>
    rw [registerWrite, hr]
    exact (if_neg hw).trans (if_neg (not_not_intro (hc c rfl)))

/-! ### A frame of one word (R415, R420) -/

/-- A frame counted as committed, with its item in the trace of a recording, before its words take effect. -/
def frameCounted (a : Nat) (words : List U32) (b : Block) : Block :=
  hostItem 1 a words { b with hp := { b.hp with committed := satInc b.hp.committed } }

theorem frameCounted_hp (a : Nat) (words : List U32) (b : Block) :
    (frameCounted a words b).hp = { b.hp with committed := satInc b.hp.committed } := (hostItem_frame _ _ _ _).hp_eq (by decide)

theorem frameCounted_hic (a : Nat) (words : List U32) (b : Block) : (frameCounted a words b).hic = b.hic :=
  (hostItem_frame _ _ _ _).hic_eq (by decide)

theorem frameCounted_dbg (a : Nat) (words : List U32) (b : Block) : (frameCounted a words b).dbg = b.dbg :=
  (hostItem_frame _ _ _ _).dbg_eq (by decide)

/-- Outside replay nothing rejects a frame of one unprotected word of the blocks that takes its value. -/
theorem frameFault_one {b : Block} {a : Nat} {v : U32} (hm : b.rpl.mode = false) (ha : a < 0xB80) (hp : isProtected a = false)
    (hv : fieldTaken a v = true) : frameFault b true false [(a, v)] = none := by
  simp [frameFault, forbiddenBy_of_lt ha, hm, hp, hv]

theorem registerWrite_one {b : Block} {addr : U16} {v : U32} (hm : b.rpl.mode = false) (hr : b.rst.inReset = false)
    (ha : addr.toNat < 0xB80) (hp : isProtected addr.toNat = false) (hv : fieldTaken addr.toNat v = true) :
    registerWrite addr [v] none b = writeWord addr.toNat v (frameCounted addr.toNat [v] b) := by
  have hfault := frameFault_one hm ha hp hv
  simp [registerWrite_of_whole hr, writeFrame, addressed, hfault, commitWords, forAll, frameCounted]

/-- DBG_VIEW_ADDR takes its value (R544). -/
theorem writeWord_view (v : U32) (b : Block) : writeWord 0xB41 v b = { b with dbg := { b.dbg with viewAddr := v.setWidth 16 } } := rfl

/-- A write to DBG_VIEW_ADDR is always taken outside replay. -/
theorem registerWrite_view {b : Block} (hm : b.rpl.mode = false) (hr : b.rst.inReset = false) (v : U32) :
    registerWrite 0xB41 [v] none b =
      let c := frameCounted 0xB41 [v] b
      { c with dbg := { c.dbg with viewAddr := v.setWidth 16 } } :=
  registerWrite_one (addr := 0xB41) hm hr (by decide) rfl rfl

/-- RPL_STOP ends the recording after its frame is counted (R540). -/
theorem stopWrite_eq {b : Block} (hm : b.rpl.mode = false) (hr : b.rst.inReset = false) :
    stopWrite b = rplStop (frameCounted 0xB51 [1] b) :=
  registerWrite_one (addr := 0xB51) hm hr (by decide) rfl rfl

/-! ### Completions (R435) -/

/-- The address of HIC_COMPLETE(p). -/
theorem completeAddr_toNat (p : Fin 4) : (BitVec.ofNat 16 (0x110 + p.val)).toNat = 0x110 + p.val := by
  revert p; decide

theorem isProtected_complete (p : Fin 4) : isProtected (0x110 + p.val) = false := by
  revert p; decide

/-- The words HIC_COMPLETE(p) of the block HIC complete the source they take. -/
theorem writeWord_complete (p : Fin 4) (v : U32) (b : Block) : writeWord (0x110 + p.val) v b = hicComplete p v.toNat b := by
  fin_cases p <;> rfl

section
variable {b : Block} {p : Fin 4} {n : Fin 512} (hm : b.rpl.mode = false) (hr : b.rst.inReset = false) (h510 : n.val ≤ 510)

include hm hr in
/-- Outside replay the completion of a source number reaches the concentrator after its frame is counted. -/
theorem completeWrite_source :
    completeWrite p (BitVec.ofNat 32 n.val) b = hicComplete p n.val (frameCounted (0x110 + p.val) [BitVec.ofNat 32 n.val] b) := by
  have haddr := completeAddr_toNat p
  have hv : (BitVec.ofNat 32 n.val).toNat = n.val := by simp; omega
  have hp := p.isLt
  have htaken : fieldTaken (0x110 + p.val) (BitVec.ofNat 32 n.val) = true := by
    rw [fieldTaken, if_pos (by omega), hv]
    exact decide_eq_true n.isLt
  rw [completeWrite, registerWrite_one hm hr (by omega) (by rw [haddr, isProtected_complete]) (by rwa [haddr]), haddr, writeWord_complete,
    hv]

variable (h1 : 1 ≤ n.val)
include h1 h510

theorem hicComplete_of_top {k : Nat} {l : List (Nat × Nat)} (hs : (vget b.hic.pins p).stack = (n.val, k) :: l) :
    hicComplete p n.val b = hicChange (hicPop p n) b := by
  have hn : ¬ (n.val = 0 ∨ 511 ≤ n.val) := by omega
  simp only [hicComplete, if_neg hn, dif_pos n.isLt, hs, if_true]

theorem hicComplete_of_empty (hs : (vget b.hic.pins p).stack = []) :
    hicComplete p n.val b = irq 1 { b with hic := hicRefuse p true n.val b.hic } := by
  have hn : ¬ (n.val = 0 ∨ 511 ≤ n.val) := by omega
  simp only [hicComplete, if_neg hn, dif_pos n.isLt, hs]

include hm hr

theorem completeWrite_hic_of_top {k : Nat} {l : List (Nat × Nat)} (hs : (vget b.hic.pins p).stack = (n.val, k) :: l) :
    (completeWrite p (BitVec.ofNat 32 n.val) b).hic = hicNote (hicPop p n b.hic) := by
  rw [completeWrite_source hm hr, hicComplete_of_top h510 h1 (by rwa [frameCounted_hic]), hicChange, frameCounted_hic]

theorem completeWrite_hic_of_empty (hs : (vget b.hic.pins p).stack = []) :
    (completeWrite p (BitVec.ofNat 32 n.val) b).hic = hicPend (hicRefuse p true n.val b.hic) 1 := by
  rw [completeWrite_source hm hr, hicComplete_of_empty h510 h1 (by rwa [frameCounted_hic]), frameCounted_hic]
  rfl

end

/-- A completion on an empty stack names no top (R435). -/
theorem hicRefuse_faultTop_of_empty {h : Hic} {p : Fin 4} (hs : (vget h.pins p).stack = []) (notActive : Bool) (n : Nat) :
    (hicRefuse p notActive n h).faultTop = 0 := by
  simp [hicRefuse, hs]

theorem pending_hicPend (h : Hic) (n : Fin 512) : (vget (hicPend h n).sources n).pending = true := by
  simp [hicPend]

/-! ### Frames by their edges (R421) -/

theorem badFrame_of_reset {b : Block} (hr : b.rst.inReset = true) (x : HostFrame) : badFrame x b = b := if_pos hr

theorem frameCase_of_short {x : HostFrame} (h : x.nibbles.length < 6) (single : Bool) : frameCase single x = .bad 1 := if_pos h

section
variable {b : Block} {x : HostFrame} (hr : b.rst.inReset = false)
include hr

theorem badFrame_of_bad {c : Nat} (h : frameCase (hpSingle b) x = .bad c) : badFrame x b = spiErr c b := by
  simp [badFrame, hr, h]

theorem badFrame_of_read {a : U16} {n : Nat} (h : frameCase (hpSingle b) x = .read a n) : badFrame x b = wholeRead a n x.lag b := by
  simp [badFrame, hr, h]

theorem badFrame_of_readPartial {a : U16} {n : Nat} (h : frameCase (hpSingle b) x = .readPartial a n) :
    badFrame x b = spiErr 3 (readFrame a n x.lag b) := by
  simp [badFrame, hr, h]

theorem badFrame_of_write {a : U16} {ws : List U32} {c : Option U8} (h : frameCase (hpSingle b) x = .write a ws c) :
    badFrame x b = registerWrite a ws c b := by
  simp [badFrame, hr, h]

end

/-- A frame of no form is counted with its cause, and the port returns what it returned before. -/
theorem badFrame_counts {s : State} {x : HostFrame} {c : Nat} (hr : s.block.rst.inReset = false)
    (h : frameCase (hpSingle s.block) x = .bad c) :
    (s.after (badFrame x)).block.hp.spiCause = BitVec.ofNat 3 c ∧
      (s.after (badFrame x)).block.hp.spiCount = satInc s.block.hp.spiCount ∧
      (s.after (badFrame x)).block.hp.err = s.block.hp.err ∧
      (s.after (badFrame x)).block.hp.lastRead = s.block.hp.lastRead := by
  rw [State.after_hp, badFrame_of_bad hr h, spiErr_hp]
  exact ⟨rfl, rfl, rfl, rfl⟩

end Machine

/-- Settles O52: each command runs its frame on the block. A read writes the port, captures or claims as its word says; a write is judged
whole and then committed word by word; a frame that does not fit is counted. -/
theorem hostPort : Obligations.HostPort := by
  refine ⟨fun s addr count lag hr hp hc => ?_, fun s addr count lag hr hp hc ha => ?_, fun s addr count lag hc => ?_,
    fun s lag hr => ?_, fun s addr count lag => ?_, fun s addr hr hc => ?_, fun s addr hc => ?_, fun s p n k hr hw => ?_,
    fun s p hr hw => ?_, fun s p src n k l hm hr hsrc h1 h510 hs => ?_, fun s p src n hm hr hsrc h1 h510 hs => ?_,
    fun s hm hr => ?_, fun s addr words crc hr => ?_, fun s addr words crc c hr hcrc hw hc => ?_,
    fun s addr words crc hm hr hcrc ha hl => ?_, fun s addr words crc hr hw => ?_, fun s addr words crc hr hw hc => ?_,
    fun s x hr => ?_, fun s x hr hx => ?_, fun s x c hr hx => ?_, fun s x a n hr hx => ?_, fun s x a n hr hx => ?_,
    fun s x a ws c hr hx => ?_⟩
  -- READ_FRAME of words without a claim
  · refine ⟨s.after (wholeRead addr count lag), rfl, execReadFrame_frame addr count lag rfl, ?_⟩
    rw [State.after_hp, wholeRead_of_unclaimed hp, readFrame_of_released hr hc]
  -- READ_FRAME of one word below the block TID
  · subst hc
    refine ⟨s.after (wholeRead addr 1 lag), rfl, execReadFrame_frame addr 1 lag rfl, ?_⟩
    rw [State.after_hp, State.after_tide, wholeRead_of_unclaimed hp, readFrame_one hr (by omega), readEffect_of_lt ha,
      readWord_of_ne (by omega)]
    exact ⟨rfl, rfl, rfl⟩
  -- READ_FRAME of no word
  · subst hc
    refine ⟨s.after (wholeRead addr 0 lag), rfl, execReadFrame_frame addr 0 lag rfl, ?_⟩
    rw [State.after_hp, State.after_hic, wholeRead_zero]
    exact ⟨rfl, rfl⟩
  -- TID_NOW_READ
  · refine ⟨s.after (wholeRead 0x200 1 lag), rfl, execTidNowRead_frame lag rfl, ?_⟩
    rw [State.after_hp, State.after_tide, wholeRead_of_unclaimed (claimPin_of_gt (by decide)), readFrame_one hr (by decide)]
    exact ⟨rfl, rfl⟩
  -- READ_FRAME is a whole read
  · exact ⟨s.after (wholeRead addr count lag), rfl, execReadFrame_frame addr count lag rfl, rfl⟩
  -- LO_CAPTURE_READ of a word that captures
  · have hrange := captures_range hc
    refine ⟨s.after (captureRead addr), rfl, execLoCaptureRead_frame addr rfl, ?_⟩
    rw [State.after_hp, captureRead_of_captures hc, readFrame_one hr (by omega), readWord_of_ne (by omega)]
    exact ⟨rfl, rfl⟩
  -- LO_CAPTURE_READ of another word
  · refine ⟨s.after (captureRead addr), rfl, execLoCaptureRead_frame addr rfl, ?_⟩
    rw [State.after_hp, State.after_acc, captureRead_of_other hc]
    exact ⟨rfl, rfl⟩
  -- HIC_CLAIM with a winner
  · refine ⟨s.after (wholeRead (claimAddr p) 1 0), rfl, execHicClaim_frame p rfl, ?_⟩
    rw [State.after_hic, State.after_hp, wholeRead_claim_hic hr, wholeRead_claim_lastRead hr, hicClaim_hic_of_winner hw]
    simp [hicClaimSource]
  -- HIC_CLAIM with none
  · refine ⟨s.after (wholeRead (claimAddr p) 1 0), rfl, execHicClaim_frame p rfl, ?_⟩
    rw [State.after_hic, wholeRead_claim_hic hr, hicClaim_of_none hw]
  -- HIC_COMPLETE of the source on top
  · subst hsrc
    refine ⟨s.after (completeWrite p (BitVec.ofNat 32 n.val)), rfl, execHicComplete_frame p _ rfl, ?_⟩
    rw [State.after_hic, completeWrite_hic_of_top hm hr h510 h1 hs]
    simp [hicPop, hs]
  -- HIC_COMPLETE on an empty stack
  · subst hsrc
    refine ⟨s.after (completeWrite p (BitVec.ofNat 32 n.val)), rfl, execHicComplete_frame p _ rfl, ?_⟩
    rw [Raised, State.after_hic, completeWrite_hic_of_empty hm hr h510 h1 hs]
    exact ⟨rfl, rfl, rfl, hicRefuse_faultTop_of_empty hs true n.val, rfl, pending_hicPend _ _⟩
  -- RPL_STOP
  · refine ⟨s.after stopWrite, rfl, execRplStop_frame rfl, rfl, ?_⟩
    rw [State.after_hp, stopWrite_eq hm hr, (rplStop_frame _).hp_eq (by decide), frameCounted_hp]
  -- REGISTER_WRITE in reset
  · refine ⟨s.after (registerWrite addr words crc), rfl, execRegisterWrite_frame addr words crc rfl, ?_⟩
    rw [State.after_hp, State.after_hic, registerWrite_of_reset hr]
    exact ⟨rfl, rfl⟩
  -- REGISTER_WRITE with a wrong CRC
  · subst hcrc
    have heff := registerWrite_of_badCrc hr hw hc
    refine ⟨s.after (registerWrite addr words (some c)), rfl, execRegisterWrite_frame addr words (some c) rfl, ?_⟩
    have hframe : Block.Only [.hp, .hic, .rpl] s.block (s.after (registerWrite addr words (some c))).block := by
      rw [State.after_block heff]
      exact ((spiErr_frame _ _).mono (by decide)).trans ((safetyItem_frame _ _).mono (by decide))
    rw [State.after_hp, heff, spiErr_hp]
    exact ⟨rfl, rfl, rfl, rfl, hframe⟩
  -- REGISTER_WRITE of the debug view
  · subst hcrc ha
    obtain ⟨v, rfl⟩ := List.length_eq_one_iff.mp hl
    refine ⟨s.after (registerWrite 0xB41 [v] none), rfl, execRegisterWrite_frame _ _ none rfl, ?_⟩
    rw [State.after_dbg, State.after_hp, registerWrite_view hm hr]
    simp only [frameCounted_dbg, frameCounted_hp, List.headD_cons, and_self]
  -- REGISTER_WRITE without words
  · subst hw
    refine ⟨s.after (registerWrite addr [] crc), rfl, execRegisterWrite_frame addr [] crc rfl, ?_⟩
    rw [State.after_hp, registerWrite_of_empty hr, spiErr_hp]
    exact ⟨by cases crc <;> rfl, rfl, rfl⟩
  -- REGISTER_WRITE of a whole frame
  · exact ⟨s.after (registerWrite addr words crc), rfl, execRegisterWrite_frame addr words crc rfl,
      State.after_block (registerWrite_of_whole hr hw hc)⟩
  -- BAD_FRAME in reset
  · refine ⟨s.after (badFrame x), rfl, execBadFrame_frame x rfl, ?_⟩
    rw [State.after_hp, State.after_hic, badFrame_of_reset hr]
    exact ⟨rfl, rfl⟩
  -- BAD_FRAME of fewer than six nibbles
  · exact ⟨s.after (badFrame x), rfl, execBadFrame_frame x rfl, badFrame_counts hr (frameCase_of_short hx _)⟩
  -- BAD_FRAME of no form
  · exact ⟨s.after (badFrame x), rfl, execBadFrame_frame x rfl, badFrame_counts hr hx⟩
  -- BAD_FRAME that is a whole read
  · exact ⟨s.after (badFrame x), rfl, execBadFrame_frame x rfl, State.after_block (badFrame_of_read hr hx)⟩
  -- BAD_FRAME that is a partial read
  · have heff := badFrame_of_readPartial hr hx
    refine ⟨s.after (badFrame x), rfl, execBadFrame_frame x rfl, State.after_block heff, ?_⟩
    rw [State.after_hp, heff, spiErr_hp]
    rfl
  -- BAD_FRAME that is a write
  · exact ⟨s.after (badFrame x), rfl, execBadFrame_frame x rfl, State.after_block (badFrame_of_write hr hx)⟩

end Sys2Proof
end

section
/-! PROOFS. Sources that stay pending while records pass the queue manager (R432, R458 to R463), and Sluice and the sessions read through
a command. -/

namespace Sys2Proof

open Machine

namespace Block.Only

variable {l : List Part} {b c : Block}

theorem slu_eq (h : Block.Only l b c) (hp : Part.slu ∉ l) : c.slu = b.slu := h .slu hp
theorem sluCnt_eq (h : Block.Only l b c) (hp : Part.sluCnt ∉ l) : c.sluCnt = b.sluCnt := h .sluCnt hp

end Block.Only

namespace Machine

/-! ### Sluice and the sessions after a command -/

section
variable (s : State) (f : Block → Block)

@[simp] theorem State.after_slu : (s.after f).block.slu = (f s.block).slu := (safetyItem_frame _ _).slu_eq (by decide)
@[simp] theorem State.after_sluCnt : (s.after f).block.sluCnt = (f s.block).sluCnt := (safetyItem_frame _ _).sluCnt_eq (by decide)
@[simp] theorem State.after_sess : (s.after f).block.sess = (f s.block).sess := (safetyItem_frame _ _).sess_eq (by decide)

end

theorem sessOf_congr {b c : Block} (h : c.sess = b.sess) (n : Fin 16) : sessOf c n = sessOf b n := by rw [sessOf, h, sessOf]

@[simp] theorem sessOf_after (s : State) (f : Block → Block) (n : Fin 16) : sessOf (s.after f).block n = sessOf (f s.block) n :=
  sessOf_congr (s.after_sess f) n

@[simp] theorem sessOf_updSess_self (n : Fin 16) (f : Session → Session) (b : Block) : sessOf (updSess n f b) n = f (sessOf b n) :=
  vget_vupd_self _ _ _

theorem sessOf_updSess_ne {n k : Fin 16} (h : k ≠ n) (f : Session → Session) (b : Block) : sessOf (updSess n f b) k = sessOf b k :=
  vget_vupd_ne _ _ h

/-! ### Sources that stay pending -/

/-- No pending source of the concentrator `h` has been cleared in `k`. -/
def Hic.KeepsPending (h k : Hic) : Prop := ∀ n, (vget h.sources n).pending = true → (vget k.sources n).pending = true

namespace Hic.KeepsPending

theorem refl (h : Hic) : h.KeepsPending h := fun _ hn => hn

section
variable {h k : Hic} (hk : h.KeepsPending k)
include hk

theorem of_eq {j : Hic} (he : j = k) : h.KeepsPending j := he ▸ hk

theorem hicPend (m : Fin 512) : h.KeepsPending (hicPend k m) := by
  intro n hn
  by_cases hm : n = m
  · subst hm
    exact pending_hicPend k n
  · have hne : m.val ≠ n.val := Fin.val_ne_of_ne (Ne.symm hm)
    simpa [Machine.hicPend, vget, vset, hne] using hk n hn

end

section
variable {h : Hic} {b : Block} (hb : h.KeepsPending b.hic)
include hb

theorem irq (n : Nat) : h.KeepsPending (irq n b).hic := by
  unfold Machine.irq
  split
  · exact hb.hicPend _
  · exact hb

theorem onlyIf {f : Block → Block} (u : Bool) (hf : h.KeepsPending b.hic → h.KeepsPending (f b).hic) : h.KeepsPending (onlyIf u f b).hic := by
  cases u
  · exact hb
  · exact hf hb

/-! ### The queue manager clears no pending source -/

theorem creditViolation (g : Nat) : h.KeepsPending (creditViolation g b).hic := irq (hb.irq 35) 33

theorem creditCheck (g : Fin 64) : h.KeepsPending (creditCheck g b).hic := by
  unfold Machine.creditCheck
  extract_lets x
  split
  · exact hb.creditViolation _
  · exact hb

theorem conserve : h.KeepsPending (conserve b).hic := by
  unfold Machine.conserve
  extract_lets m d
  split
  · exact hb
  · refine irq ?_ 41
    exact hb

theorem noteLow : h.KeepsPending (noteLow b).hic := by
  unfold Machine.noteLow
  extract_lets f low above raise
  refine onlyIf ?_ _ fun hc => hc.irq 38
  exact hb

theorem takeFree (a : Fin 16) (g : Option (Fin 64)) : h.KeepsPending (takeFree a g b).1.hic := by
  unfold Machine.takeFree
  extract_lets u c
  refine conserve (noteLow ?_)
  exact hb

theorem qAlloc (a : Fin 16) (g : Option (Fin 64)) : h.KeepsPending (qAlloc a g b).1.hic := by
  unfold Machine.qAlloc
  extract_lets
  split
  · exact hb
  split
  · refine onlyIf ?_ _ fun hc => hc.irq 43
    exact hb
  · exact hb.takeFree _ _

theorem creditBack (g : Nat) : h.KeepsPending (creditBack g b).hic := by
  unfold Machine.creditBack
  split
  · refine creditCheck ?_ _
    exact hb
  · exact hb

theorem release (u : Nat) : h.KeepsPending (release u b).hic := by
  unfold Machine.release
  extract_lets c d
  refine onlyIf (noteLow ?_) _ fun hc => hc.creditBack _
  exact hb

theorem ownRefuse (a : Fin 16) (u : Nat) (enq : Bool) : h.KeepsPending (ownRefuse a u enq b).hic := by
  unfold Machine.ownRefuse
  refine irq ?_ 40
  exact hb

theorem qFree (a : Fin 16) (u : Nat) : h.KeepsPending (qFree a u b).1.hic := by
  unfold Machine.qFree
  split
  · exact hb
  split
  · refine conserve (release ?_ u)
    exact hb
  · exact (hb.ownRefuse a u false).conserve

theorem enqueueTail (q u : Nat) : h.KeepsPending (enqueueTail q u b).hic :=
  hb.of_eq ((enqueueTail_frame q u b).hic_eq (by decide))

theorem dropOldest (q : Nat) : h.KeepsPending (dropOldest q b).hic := by
  unfold Machine.dropOldest
  extract_lets d
  split
  · exact hb
  · refine irq (release ?_ _) 42
    exact hb

theorem fullRefuse (q : Nat) : h.KeepsPending (fullRefuse q b).hic := by
  unfold Machine.fullRefuse
  extract_lets d raise
  refine onlyIf ?_ _ fun hc => hc.irq 39
  exact hb

theorem qEnqueue (a : Fin 16) (q u : Nat) : h.KeepsPending (qEnqueue a q u b).1.hic := by
  unfold Machine.qEnqueue
  extract_lets d
  split
  · exact hb
  split
  · exact (hb.ownRefuse a u true).conserve
  split
  · exact hb
  split
  · exact hb
  split
  · exact (hb.enqueueTail q u).conserve
  split
  · exact ((hb.dropOldest q).enqueueTail q u).conserve
  · exact (hb.fullRefuse q).conserve

theorem sendRecord (a : Fin 16) (q : Nat) (l : List U8) : h.KeepsPending (sendRecord a q l b).1.hic := by
  have halloc := hb.qAlloc a none
  unfold Machine.sendRecord
  split
  · next hq => rwa [hq] at halloc
  · next c u hq =>
    rw [hq] at halloc
    have henq : h.KeepsPending (Machine.qEnqueue a q u (setBuf u l c)).1.hic := by
      refine qEnqueue ?_ a q u
      exact halloc
    split
    · next hq => rwa [hq] at henq
    · next hq =>
      rw [hq] at henq
      exact henq.qFree a u

theorem sendTo (a : Fin 16) (q : U16) (l : List U8) : h.KeepsPending (sendTo a q l b).hic := by
  unfold Machine.sendTo
  split
  · exact hb
  · exact hb.sendRecord _ _ _

end

end Hic.KeepsPending

end Machine

end Sys2Proof
end

section
/-! PROOFS. The instants of the allocation: boundary, publication and the timers of a node (R131, R137, R140, R141, R143, R147, R150). -/

namespace Sys2Proof

open Machine

namespace Machine

/-! ### Boundary and publication (R131, R137) -/

/-- An event at a multiple of a period, which is now. -/
theorem atInstant_nextMultiple {p : Nat} {last : Option U64} {b : Block} (h : nextMultiple p last b = (now b).toNat) (f : Block → Block) :
    atInstant (nextMultiple p last b) f b = f b :=
  atInstant_of_le h.le f

theorem allocationBoundary_of_due {b : Block} (h : nextMultiple tFrame b.slu.boundaryAt b = (now b).toNat) :
    allocationBoundary b = boundaryAt (BitVec.ofNat 64 (now b).toNat) b := by
  rw [allocationBoundary, atInstant_nextMultiple h, h]

theorem sluicePublish_of_due {b : Block} {L : SluLatch} (hL : b.slu.latch = some L) (hdue : L.boundary.toNat + 600000 ≤ (now b).toNat) :
    sluicePublish b = publishSolve L b := by
  simp only [sluicePublish, hL, afterTicks_of_le hdue]

/-! ### Timers of one node (R140, R141, R143, R147, R150) -/

theorem maxDelayExpired_of_due {n : Fin 16} {i : U64} {b : Block} (hfrom : (sessOf b n).delayFrom = some i)
    (hphase : (sessOf b n).phase = .admission) (hserved : (sessOf b n).served = false) (hlimit : (sessOf b n).maxDelay ≠ 0)
    (hdue : i.toNat + (sessOf b n).maxDelay.toNat * tSec ≤ (now b).toNat) :
    maxDelayExpired n b = updSess n (fun s => { s with expired := true }) b := by
  have hwaits : (sessOf b n).phase = .admission ∧ (!(sessOf b n).served) = true ∧ (sessOf b n).maxDelay ≠ 0 :=
    ⟨hphase, by rw [hserved]; rfl, hlimit⟩
  simp only [maxDelayExpired, hfrom, if_pos hwaits, afterTicks_of_le hdue]

/-- The Served reason that has held is reported, and its count begins again. -/
def reasonReported (n : Fin 16) (b : Block) : Block :=
  updSess n (fun s => { s with rep := { s.rep with reason := s.rawReason }, rawSince := 0 }) b

theorem reasonHoldExpired_of_held {n : Fin 16} {b : Block} (hserved : (sessOf b n).rep.outcome = .served)
    (hother : (sessOf b n).rawReason ≠ (sessOf b n).rep.reason) (hheld : b.slu.reasonHold.toNat ≤ (sessOf b n).rawSince) :
    reasonHoldExpired n b = outcomeChanged b.slu.mapTide n (reasonReported n b) :=
  if_pos ⟨hserved, hother, hheld⟩

/-- A told outcome raises source 128 before its record goes to a queue, and the record clears no source (R151). -/
theorem outcomeChanged_raises (H : U64) (n : Fin 16) (b : Block) : Raised (outcomeChanged H n b) 128 :=
  (Hic.KeepsPending.refl (irq 128 b).hic).sendTo _ _ _ _ (irq_pends (n := 128) (by decide) b)

theorem sessOf_outcomeChanged (H : U64) (n k : Fin 16) (b : Block) : sessOf (outcomeChanged H n b) k = sessOf b k :=
  sessOf_congr ((outcomeChanged_frame H n b).sess_eq (by decide)) k

theorem surplusRelease_of_surplus {n : Fin 16} {b : Block} (h : 1000 ≤ (sessOf b n).surplusFrames) :
    surplusRelease n b = updSess n (fun s => { s with release := true }) b :=
  if_pos h

theorem leaveWaitTimeout_of_waited {i : Fin 24} {x : HandOver} {b : Block} (hx : hoOf b i = some x) (hstage : x.stage = .wait)
    (hbegun : x.begun = none) (hwaited : 100 ≤ x.waited) : leaveWaitTimeout i b = hoEnd i x b := by
  simp only [leaveWaitTimeout, hx, hstage, hbegun, hwaited, and_self, if_true]

theorem hoOf_congr {b c : Block} (h : c.slu = b.slu) (i : Fin 24) : hoOf c i = hoOf b i := by rw [hoOf, h, hoOf]

theorem hoOf_hoEnd (i : Fin 24) (x : HandOver) (b : Block) : hoOf (hoEnd i x b) i = none := vget_vset_self _ _ _

/-- A session enters CHARGING with its phase and the instant alone: no pair, modem or supply follows (R18). -/
theorem enterPhase_charging (n : Fin 16) (b : Block) :
    enterPhase n .charging b = updSess n (fun s => { s with phase := .charging, enteredAt := now b }) b := rfl

theorem prechargeDone_of_samples {n : Fin 16} {b : Block} (hphase : (sessOf b n).phase = .precharge)
    (hrun : 32 ≤ (sessOf b n).prechargeRun) (hsedge : b.rst.sedge = true) :
    prechargeDone n b = enterPhase n .charging (updSess n (fun s => { s with prechargeDone := true }) b) := by
  simp only [prechargeDone, hphase, hrun, hsedge, and_self, if_true, onlyIf]

theorem prechargeTimeout_of_due {n : Fin 16} {b : Block} (hphase : (sessOf b n).phase = .precharge)
    (hdone : (sessOf b n).prechargeDone = false) (hdue : (sessOf b n).enteredAt.toNat + 15000000000 ≤ (now b).toNat) :
    prechargeTimeout n b = stopSession n .deviceFault b := by
  have hruns : (sessOf b n).phase = .precharge ∧ (!(sessOf b n).prechargeDone) = true := ⟨hphase, by rw [hdone]; rfl⟩
  simp only [prechargeTimeout, if_pos hruns, afterTicks_of_le hdue]

end Machine

/-- Settles O22: each event is due, so its effect is that of its clause; the record of an outcome leaves the sessions and clears no
source. -/
theorem sluiceInstants : Obligations.SluiceInstants := by
  refine ⟨fun s hdue => ?_, fun s L hL hdue => ?_, fun s n i hfrom hphase hserved hlimit hdue => ?_,
    fun s n hserved hother hheld => ?_, fun s n hsurplus => ?_, fun s h x hx hstage hbegun hwaited => ?_,
    fun s n hphase hrun hsedge => ?_, fun s n hphase hdone hdue => ?_⟩
  -- ALLOCATION_BOUNDARY
  · exact ⟨s.after allocationBoundary, rfl, execAllocationBoundary_frame rfl, State.after_block (allocationBoundary_of_due hdue)⟩
  -- SLUICE_PUBLISH
  · exact ⟨s.after sluicePublish, rfl, execSluicePublish_frame rfl, State.after_block (sluicePublish_of_due hL hdue)⟩
  -- MAX_DELAY_EXPIRED
  · refine ⟨s.after (maxDelayExpired n), rfl, execMaxDelayExpired_frame n rfl, ?_⟩
    rw [State.after_sess, maxDelayExpired_of_due hfrom hphase hserved hlimit hdue, updSess_sess]
  -- REASON_HOLD_EXPIRED
  · have heff := reasonHoldExpired_of_held hserved hother hheld
    refine ⟨s.after (reasonHoldExpired n), rfl, execReasonHoldExpired_frame n rfl, ?_⟩
    simp only [sessOf_after, Raised, State.after_hic, heff, sessOf_outcomeChanged, reasonReported, sessOf_updSess_self, true_and]
    exact ⟨outcomeChanged_raises _ _ _, fun k hk => sessOf_updSess_ne hk _ _⟩
  -- SURPLUS_RELEASE
  · refine ⟨s.after (surplusRelease n), rfl, execSurplusRelease_frame n rfl, ?_⟩
    rw [State.after_sess, surplusRelease_of_surplus hsurplus, updSess_sess]
  -- LEAVE_WAIT_TIMEOUT
  · refine ⟨s.after (leaveWaitTimeout h), rfl, execLeaveWaitTimeout_frame h rfl, ?_⟩
    rw [hoOf_congr (s.after_slu _), leaveWaitTimeout_of_waited hx hstage hbegun hwaited, hoOf_hoEnd]
  -- PRECHARGE_DONE
  · have heff := prechargeDone_of_samples hphase hrun hsedge
    refine ⟨s.after (prechargeDone n), rfl, execPrechargeDone_frame n rfl, ?_⟩
    simp only [sessOf_after, heff, enterPhase_charging, sessOf_updSess_self, true_and]
    exact ⟨rfl, fun k hk => by rw [sessOf_updSess_ne hk, sessOf_updSess_ne hk]⟩
  -- PRECHARGE_TIMEOUT
  · exact ⟨s.after (prechargeTimeout n), rfl, execPrechargeTimeout_frame n rfl,
      State.after_block (prechargeTimeout_of_due hphase hdone hdue)⟩

end Sys2Proof
end

section
/-! PROOFS. The instants of the hand-overs: a snapshot judged, the evaluation of a link cycle, and timeouts (R155, R156, R160). -/

namespace Sys2Proof

open Machine

namespace Machine

/-! ### Verification (R156) -/

theorem eachHo_keeps {γ : Type} {f : Fin 24 → HandOver → Block → Block} {q : Block → γ} (hf : ∀ i x b, q (f i x b) = q b) (b : Block) :
    q (eachHo f b) = q b := by
  refine forAll_keeps (fun i b => ?_) _ b
  split
  · exact hf _ _ _
  · rfl

theorem verifyOne_verifiedAt (k : SnapBank) (i : Fin 24) (x : HandOver) (b : Block) :
    (verifyOne k i x b).slu.verifiedAt = b.slu.verifiedAt := by
  unfold verifyOne
  split
  · dsimp only
    split <;> rfl
  · rfl

theorem verifyStop_slu (k : SnapBank) (n : Fin 16) (b : Block) : (verifyStop k n b).slu = b.slu :=
  (verifyStop_frame k n b).slu_eq (by decide)

/-- The snapshot of bank 0 is judged: every hand-over, then every stopping node. -/
theorem handoverVerify_of_due {b : Block} (hseq : (vget b.snaps 0).seq ≠ 0) (hnew : b.slu.verifiedAt ≠ some (vget b.snaps 0).instant)
    (hdue : (vget b.snaps 0).instant.toNat + 30000 ≤ (now b).toNat) :
    handoverVerify b = forAll allNodes (verifyStop (vget b.snaps 0)) (eachHo (verifyOne (vget b.snaps 0))
      (updSlu (fun s => { s with verifiedAt := some (vget b.snaps 0).instant }) b)) := by
  simp only [handoverVerify, hseq, hnew, false_and, or_false, if_false, afterTicks_of_le hdue]

theorem handoverVerify_verifiedAt {b : Block} (hseq : (vget b.snaps 0).seq ≠ 0) (hnew : b.slu.verifiedAt ≠ some (vget b.snaps 0).instant)
    (hdue : (vget b.snaps 0).instant.toNat + 30000 ≤ (now b).toNat) :
    (handoverVerify b).slu.verifiedAt = some (vget b.snaps 0).instant := by
  rw [handoverVerify_of_due hseq hnew hdue, forAll_keeps (q := Block.slu) (fun n c => verifyStop_slu _ n c),
    eachHo_keeps (q := fun c => c.slu.verifiedAt) (fun i x c => verifyOne_verifiedAt _ i x c), updSlu_slu]

/-! ### Evaluation and timeouts (R155, R160) -/

theorem handoverEvaluate_of_due {b : Block} (h : nextMultiple tCycle b.slu.evalAt b = (now b).toNat) :
    handoverEvaluate b = forAll allNodes leaveAdmission (eachHo (evaluateOne (now b).toNat)
      (forAll allModules (followContacts (now b).toNat) (updSlu (fun s => { s with evalAt := some (now b) }) b))) := by
  rw [handoverEvaluate, atInstant_nextMultiple h, h]

section
variable {i : Fin 24} {x : HandOver} {t : U64} {b : Block} (hx : hoOf b i = some x) (hacted : x.acted = some t)
include hx hacted

theorem handoverTimeout_of_open (hstage : x.stage = .open) (hdue : t.toNat + 30000000 ≤ (now b).toNat) :
    handoverTimeout i b = selectorFault i x b := by
  simp only [handoverTimeout, hx, hacted, hstage, afterTicks_of_le hdue]

theorem handoverTimeout_of_match (hstage : x.stage = .match_) (hdue : t.toNat + 15000000 ≤ (now b).toNat) :
    handoverTimeout i b = hoAbort i x b := by
  simp only [handoverTimeout, hx, hacted, hstage, afterTicks_of_le hdue]

theorem handoverTimeout_of_close (hstage : x.stage = .close) (hdue : t.toNat + 30000000 ≤ (now b).toNat) :
    handoverTimeout i b = openCommand x.module (selectorFault i x b) := by
  simp only [handoverTimeout, hx, hacted, hstage, afterTicks_of_le hdue]

end

end Machine

/-- Settles O23: judging a snapshot writes its instant first and no verdict moves it; the other events are due, so each is the operation
that its clause names. -/
theorem handOverInstants : Obligations.HandOverInstants := by
  refine ⟨fun s hseq hnew hdue => ?_, fun s hdue => ?_, fun s h x i hx hstage hacted hdue => ?_,
    fun s h x i hx hstage hacted hdue => ?_, fun s h x i hx hstage hacted hdue => ?_⟩
  -- HANDOVER_VERIFY
  · refine ⟨s.after handoverVerify, rfl, execHandoverVerify_frame rfl, ?_⟩
    rw [State.after_slu, handoverVerify_verifiedAt hseq hnew hdue]
  -- HANDOVER_EVALUATE
  · exact ⟨s.after handoverEvaluate, rfl, execHandoverEvaluate_frame rfl, State.after_block (handoverEvaluate_of_due hdue)⟩
  -- HANDOVER_TIMEOUT of OPEN, MATCH and CLOSE
  · exact ⟨s.after (handoverTimeout h), rfl, execHandoverTimeout_frame h rfl,
      State.after_block (handoverTimeout_of_open hx hacted hstage hdue)⟩
  · exact ⟨s.after (handoverTimeout h), rfl, execHandoverTimeout_frame h rfl,
      State.after_block (handoverTimeout_of_match hx hacted hstage hdue)⟩
  · exact ⟨s.after (handoverTimeout h), rfl, execHandoverTimeout_frame h rfl,
      State.after_block (handoverTimeout_of_close hx hacted hstage hdue)⟩

end Sys2Proof
end

section
/-! PROOFS. The commands of the Sluice family (R163): what each makes of Sluice and the sessions, and that its answer stands. -/

namespace Sys2Proof

open Machine

namespace Machine

/-! ### Settings as they are stored -/

@[simp] theorem saveSettings_slu (b : Block) : (saveSettings b).slu = b.slu := (saveSettings_frame b).slu_eq (by decide)
@[simp] theorem saveSettings_sess (b : Block) : (saveSettings b).sess = b.sess := (saveSettings_frame b).sess_eq (by decide)
@[simp] theorem saveSettings_mbx (b : Block) : (saveSettings b).mbx = b.mbx := (saveSettings_frame b).mbx_eq (by decide)
@[simp] theorem saveSettings_tide (b : Block) : (saveSettings b).tide = b.tide := (saveSettings_frame b).tide_eq (by decide)

theorem nextEffect_congr {b c : Block} (h : c.tide = b.tide) : nextEffect c = nextEffect b := by rw [nextEffect, now, h, nextEffect, now]

/-! ### Lengths of payloads -/

@[simp] theorem b16_length (w : U16) : (b16 w).length = 2 := leBytes_length _ _

@[simp] theorem padTo_length (n : Nat) (l : List U8) : (padTo n l).length = n := by
  simp only [padTo, List.length_take, List.length_append, List.length_replicate]
  omega

@[simp] theorem setpointBytes_length (b : Block) : (setpointBytes b).length = 192 := by
  simp [setpointBytes, List.length_flatMap]

/-! ### SLU_SET_SITE -/

/-- The site limits and the efficiency as SLU_SET_SITE stores them. -/
def siteStored (m : Fin 4) (b : Block) : Block :=
  saveSettings (updSlu (fun s => { s with siteImp := r32 b m 0, siteExp := r32 b m 4, eta := BitVec.ofNat 10 (rN b m 8 2) }) b)

theorem siteStored_slu (m : Fin 4) (b : Block) :
    (siteStored m b).slu = { b.slu with siteImp := r32 b m 0, siteExp := r32 b m 4, eta := BitVec.ofNat 10 (rN b m 8 2) } := by
  rw [siteStored, saveSettings_slu, updSlu_slu]

theorem siteStored_mbx (m : Fin 4) (b : Block) : (siteStored m b).mbx = b.mbx := by rw [siteStored, saveSettings_mbx, updSlu_mbx]

theorem siteStored_tide (m : Fin 4) (b : Block) : (siteStored m b).tide = b.tide := by rw [siteStored, saveSettings_tide, updSlu_tide]

/-- The budgets that SLU_SET_SITE answers are those of the limits and the efficiency it was given. -/
theorem sluSetSite_of_pass {m : Fin 4} {b : Block} {L : SluLatch} (hlo : 900 ≤ rN b m 8 2) (hhi : rN b m 8 2 ≤ 1000)
    (hL : L = { siteImp := (r32 b m 0).toNat, siteExp := (r32 b m 4).toNat, eta := rN b m 8 2 }) :
    sluSetSite m b = respond m (if budgetOf L false < b.slu.floorDel.toNat ∨ budgetOf L true < b.slu.floorExp.toNat then 0x0403 else 0)
      (leBytes 8 (nextEffect b) ++ b16 (satNat 16 (budgetOf L false)) ++ b16 (satNat 16 (budgetOf L true))) (siteStored m b) := by
  subst hL
  unfold sluSetSite
  extract_lets e
  rw [checked_cons_pass (by simp only [e, hlo, hhi, and_self, decide_true]), checked_nil, ← siteStored]
  simp only [siteStored_slu, nextEffect_congr (siteStored_tide m b), decide_eq_true_eq, e]

theorem sluSetSite_of_range {m : Fin 4} {b : Block} (h : rN b m 8 2 < 900 ∨ 1000 < rN b m 8 2) : sluSetSite m b = refuse m 0x0402 b := by
  unfold sluSetSite
  extract_lets e
  exact checked_cons_fail (decide_eq_false (by omega)) _ _

/-! ### SLU_SET_CONNECTOR -/

/-- The session of a connector with the settings that SLU_SET_CONNECTOR brings. -/
def connectorSet (m : Fin 4) (b : Block) (s : Session) : Session :=
  { s with weight := BitVec.ofNat 8 (rN b m 1 1), floor := BitVec.ofNat 5 (rN b m 2 1), refuse := rBit b m 3 0, maxDelay := r16 b m 4
           hostCap := BitVec.ofNat 16 (rN b m 6 2) }

theorem sluSetConnector_of_pass {m : Fin 4} {b : Block} (hnode : (nodeCheck 0x0401 b m).2 = true) (hweight : 1 ≤ rN b m 1 1)
    (hfloor : 1 ≤ rN b m 2 1 ∧ rN b m 2 1 ≤ 24) (hcap : 1 ≤ rN b m 6 2 ∧ rN b m 6 2 ≤ 6000)
    (hfits : (sessOf b (reqNode b m)).served = false ∨ rN b m 2 1 ≤ (sessOf b (reqNode b m)).floor.toNat ∨
      raisedFloorFits (reqNode b m) (BitVec.ofNat 5 (rN b m 2 1)) b = true) :
    sluSetConnector m b = ok m (leBytes 8 (nextEffect b)) (saveSettings (updSess (reqNode b m) (connectorSet m b) b)) := by
  unfold sluSetConnector
  extract_lets n w f cap s
  rw [checked_cons_pass hnode, checked_cons_pass (by simp only [w, f, cap, hweight, hfloor, hcap, and_self, decide_true]),
    checked_cons_pass (by simpa [s, n, f, or_assoc] using hfits), checked_nil]
  rfl

theorem sluSetConnector_of_weight {m : Fin 4} {b : Block} (hnode : (nodeCheck 0x0401 b m).2 = true) (h0 : rN b m 1 1 = 0) :
    sluSetConnector m b = refuse m 0x0402 b := by
  unfold sluSetConnector
  extract_lets n w f cap s
  rw [checked_cons_pass hnode, checked_cons_fail (by simp [w, h0])]

/-! ### SLU_SET_TUNING -/

/-- What SLU_SET_TUNING leaves waiting for the boundary that it answers. -/
def requestedTune (m : Fin 4) (b : Block) : SluTune :=
  { reasonHold := reasonHoldOf (rN b m 4 1), zcMod := rB b m 5, zcNodeAbs := rB b m 6, zcNodeRel := rB b m 7, outcomeQueue := r16 b m 10 }

theorem sluSetTuning_of_pass {m : Fin 4} {b : Block} (htol : zcTolOk (rN b m 5 1) (rN b m 6 1) (rN b m 7 1) = true)
    (hq : queueOk (rN b m 10 2) true = true) :
    sluSetTuning m b = ok m (leBytes 8 (nextEffect b)) (saveSettings (updSlu (fun s => { s with
      moveCost := r16 b m 0, moveMargin := r16 b m 2, holdMoves := rBit b m 8 0, strictFifo := rBit b m 8 1
      pendingTune := some (requestedTune m b, BitVec.ofNat 64 (nextEffect b)) }) b)) := by
  unfold sluSetTuning
  extract_lets h x
  rw [checked_cons_pass htol, checked_cons_pass hq, checked_nil]
  rfl

/-! ### SLU_MODULE_SERVICE -/

theorem sluModOf_congr {b c : Block} (h : c.slu = b.slu) (k : Fin 96) : sluModOf c k = sluModOf b k := by rw [sluModOf, h, sluModOf]

theorem sluModOf_updSluMod_self (k : Fin 96) (f : SluModule → SluModule) (b : Block) : sluModOf (updSluMod k f b) k = f (sluModOf b k) :=
  vget_vupd_self _ _ _

theorem sluModOf_updSluMod_ne {k j : Fin 96} (h : j ≠ k) (f : SluModule → SluModule) (b : Block) :
    sluModOf (updSluMod k f b) j = sluModOf b j :=
  vget_vupd_ne _ _ h

section
variable {m : Fin 4} {b : Block} (hmod : (moduleCheck 0x0405 b m).2 = true)
include hmod

theorem sluModuleService_of_flight (hv : rN b m 1 1 < 2) (hflight : inFlight b (reqModule b m) = true) :
    sluModuleService m b = refuse m 0x0406 b := by
  unfold sluModuleService
  extract_lets x v
  rw [checked_cons_pass hmod, checked_cons_pass (decide_eq_true hv), checked_cons_fail (by simp only [x, hflight, Bool.not_true])]

variable (hflight : inFlight b (reqModule b m) = false)
include hflight

/-- An order for a module that is not in flight: a removal of one that counts on a node makes it due to leave, and any other order waits
for the boundary answered. -/
theorem sluModuleService_of_settled (hv : rN b m 1 1 < 2) :
    sluModuleService m b =
      if rN b m 1 1 = 0 ∧ (countsOn b (reqModule b m)).isSome then
        ok m (leBytes 8 (nextEffect b)) (updSluMod (reqModule b m) (fun y => { y with leaveDue := true }) b)
      else ok m (leBytes 8 (nextEffect b)) (updSlu (fun s => { s with
        pendingService := (s.pendingService.filter fun e => e.1 != reqModule b m) ++
          [(reqModule b m, decide (rN b m 1 1 = 1), BitVec.ofNat 64 (nextEffect b))] }) b) := by
  unfold sluModuleService
  extract_lets x v
  rw [checked_cons_pass hmod, checked_cons_pass (decide_eq_true hv), checked_cons_pass (by simp only [x, hflight, Bool.not_false]),
    checked_nil]

theorem sluModuleService_of_waiting (h : rN b m 1 1 = 1 ∨ (rN b m 1 1 = 0 ∧ countsOn b (reqModule b m) = none)) :
    sluModuleService m b = ok m (leBytes 8 (nextEffect b)) (updSlu (fun s => { s with
      pendingService := (s.pendingService.filter fun e => e.1 != reqModule b m) ++
        [(reqModule b m, decide (rN b m 1 1 = 1), BitVec.ofNat 64 (nextEffect b))] }) b) := by
  have hnot : ¬ (rN b m 1 1 = 0 ∧ (countsOn b (reqModule b m)).isSome = true) := by
    rintro ⟨h0, hsome⟩
    rcases h with h1 | ⟨-, hnone⟩
    · omega
    · simp [hnone] at hsome
  rw [sluModuleService_of_settled hmod hflight (by omega), if_neg hnot]

theorem sluModuleService_of_leave (h0 : rN b m 1 1 = 0) (hcounts : (countsOn b (reqModule b m)).isSome = true) :
    sluModuleService m b = ok m (leBytes 8 (nextEffect b)) (updSluMod (reqModule b m) (fun y => { y with leaveDue := true }) b) := by
  rw [sluModuleService_of_settled hmod hflight (by omega), if_pos ⟨h0, hcounts⟩]

end

/-! ### What the allocation holds -/

theorem sluGetNode_of_node {m : Fin 4} {b : Block} (hnode : (nodeCheck 0x0401 b m).2 = true) :
    sluGetNode m b = ok m (b32 (sluNodeStat b (reqNode b m)) ++ b32 (sluNodePower b (reqNode b m)) ++ b32 (sessOf b (reqNode b m)).number ++
      leBytes 12 (bitsNat (allModules.map fun x => countsOn b x == some (reqNode b m))) ++ b64 (sessOf b (reqNode b m)).entry) b := by
  rw [sluGetNode, checked_cons_pass hnode, checked_nil]

/-- The instant at which a hand-over was decided, as SLU_GET_HANDOVERS answers it for a slot. -/
def decidedBytes (x : Option HandOver) : List U8 := match x with | some h => b64 h.decided | none => zeros 8

theorem decidedBytes_length (x : Option HandOver) : (decidedBytes x).length = 8 := by
  cases x with
  | none => exact zeros_length 8
  | some h => exact b64_length _

/-- The words and the instants of the 24 slots. -/
def handoverBytes (b : Block) : List U8 := b32s (b.slu.ho.toList.map sluHoWord) ++ b.slu.ho.toList.flatMap decidedBytes

theorem handoverBytes_length (b : Block) : (handoverBytes b).length = 288 := by
  simp [handoverBytes, List.length_flatMap, decidedBytes_length]

theorem sluGetHandovers_eq (m : Fin 4) (b : Block) : sluGetHandovers m b = ok m (handoverBytes b) b := rfl

end Machine

/-- Settles O24: each request runs the effect of its command once its checks hold; the stored settings and the answer leave Sluice and
the sessions as the command wrote them. -/
theorem sluiceCommands : Obligations.SluiceCommands := by
  refine ⟨fun s m L ha hlo hhi hL => ?_, fun s m ha hout => ?_, fun s m ha hnode hw hf1 hf2 hc1 hc2 hfits => ?_,
    fun s m ha hnode h0 => ?_, fun s m ha htol hq => ?_, fun s m ha hnode => ?_, fun s m ha => ?_, fun s m ha hmod hv hflight => ?_,
    fun s m ha hmod h0 hflight hcounts => ?_, fun s m ha hmod hv hflight => ?_, fun s m ha => ?_, fun s m ha => ?_⟩
  -- SLU_SET_SITE
  · have hx : exec (.sluSetSite m) s = .next (s.after (sluSetSite m)) := run_of_asked ha _
    have heff := sluSetSite_of_pass hlo hhi hL
    refine ⟨_, hx, execSluSetSite_frame m hx, answered_of_respond heff (siteStored_mbx _ _) (by simp), ?_⟩
    rw [State.after_slu, heff, (respond_frame _ _ _ _).slu_eq (by decide), siteStored_slu]
    exact ⟨rfl, rfl, rfl, rfl⟩
  -- SLU_SET_SITE out of range
  · have hx : exec (.sluSetSite m) s = .next (s.after (sluSetSite m)) := run_of_asked ha _
    have heff := sluSetSite_of_range hout
    exact ⟨_, hx, execSluSetSite_frame m hx, answered_of_refuse heff, (after_refuse_frame heff).slu_eq (by decide)⟩
  -- SLU_SET_CONNECTOR
  · have hx : exec (.sluSetConnector m) s = .next (s.after (sluSetConnector m)) := run_of_asked ha _
    have heff := sluSetConnector_of_pass hnode hw ⟨hf1, hf2⟩ ⟨hc1, hc2⟩ hfits
    have hsess (k : Fin 16) : sessOf (s.after (sluSetConnector m)).block k =
        sessOf (updSess (reqNode s.block m) (connectorSet m s.block) s.block) k :=
      sessOf_congr (by rw [State.after_sess, heff, (ok_frame _ _ _).sess_eq (by decide), saveSettings_sess]) k
    refine ⟨_, hx, execSluSetConnector_frame m hx, answered_of_respond heff (by simp) (by simp), ?_⟩
    simp only [hsess, sessOf_updSess_self]
    exact ⟨rfl, rfl, rfl, rfl, rfl, fun k hk => sessOf_updSess_ne hk _ _⟩
  -- SLU_SET_CONNECTOR of weight 0
  · have hx : exec (.sluSetConnector m) s = .next (s.after (sluSetConnector m)) := run_of_asked ha _
    have heff := sluSetConnector_of_weight hnode h0
    exact ⟨_, hx, execSluSetConnector_frame m hx, answered_of_refuse heff, (after_refuse_frame heff).sess_eq (by decide)⟩
  -- SLU_SET_TUNING
  · have hx : exec (.sluSetTuning m) s = .next (s.after (sluSetTuning m)) := run_of_asked ha _
    have heff := sluSetTuning_of_pass htol hq
    refine ⟨_, hx, execSluSetTuning_frame m hx, answered_of_respond heff (by simp) (by simp), ?_⟩
    rw [State.after_slu, heff, (ok_frame _ _ _).slu_eq (by decide), saveSettings_slu, updSlu_slu]
    exact ⟨rfl, rfl, rfl, rfl, rfl, rfl⟩
  -- SLU_GET_NODE
  · have hx : exec (.sluGetNode m) s = .next (s.after (sluGetNode m)) := run_of_asked ha _
    exact ⟨_, hx, execSluGetNode_frame m hx, answered_of_respond (sluGetNode_of_node hnode) rfl (by simp)⟩
  -- SLU_GET_MAP
  · have hx : exec (.sluGetMap m) s = .next (s.after (sluGetMap m)) := run_of_asked ha _
    exact ⟨_, hx, execSluGetMap_frame m hx, answered_of_respond rfl rfl (by simp)⟩
  -- SLU_MODULE_SERVICE that waits for its boundary
  · have hx : exec (.sluModuleService m) s = .next (s.after (sluModuleService m)) := run_of_asked ha _
    have heff := sluModuleService_of_waiting hmod hflight hv
    refine ⟨_, hx, execSluModuleService_frame m hx, answered_of_respond heff (by simp) (by simp), ?_⟩
    rw [State.after_slu, heff, (ok_frame _ _ _).slu_eq (by decide), updSlu_slu]
  -- SLU_MODULE_SERVICE of a module that is to leave its node
  · have hx : exec (.sluModuleService m) s = .next (s.after (sluModuleService m)) := run_of_asked ha _
    have heff := sluModuleService_of_leave hmod hflight h0 hcounts
    have hslu : (s.after (sluModuleService m)).block.slu = (updSluMod (reqModule s.block m) (fun y => { y with leaveDue := true }) s.block).slu := by
      rw [State.after_slu, heff, (ok_frame _ _ _).slu_eq (by decide)]
    refine ⟨_, hx, execSluModuleService_frame m hx, answered_of_respond heff rfl (by simp), ?_, fun k hk => ?_, by rw [hslu]; rfl⟩
    · rw [sluModOf_congr hslu, sluModOf_updSluMod_self]
    · rw [sluModOf_congr hslu, sluModOf_updSluMod_ne hk]
  -- SLU_MODULE_SERVICE of a module in flight
  · have hx : exec (.sluModuleService m) s = .next (s.after (sluModuleService m)) := run_of_asked ha _
    have heff := sluModuleService_of_flight hmod hv hflight
    exact ⟨_, hx, execSluModuleService_frame m hx, answered_of_refuse heff, (after_refuse_frame heff).slu_eq (by decide)⟩
  -- SLU_GET_HANDOVERS
  · have hx : exec (.sluGetHandovers m) s = .next (s.after (sluGetHandovers m)) := run_of_asked ha _
    exact ⟨_, hx, execSluGetHandovers_frame m hx,
      answered_of_respond (sluGetHandovers_eq m s.block) rfl ((handoverBytes_length s.block).trans_le (by decide))⟩
  -- SLU_CLEAR_COUNTS
  · have hx : exec (.sluClearCounts m) s = .next (s.after (sluClearCounts m)) := run_of_asked ha _
    refine ⟨_, hx, execSluClearCounts_frame m hx, answered_of_respond rfl rfl (by simp), ?_⟩
    rw [State.after_slu, State.after_sluCnt, sluClearCounts, (ok_frame _ _ _).slu_eq (by decide), (ok_frame _ _ _).sluCnt_eq (by decide)]
    exact ⟨rfl, rfl⟩

end Sys2Proof
end

section
/-! PROOFS. The module link read through an update, a frame or a command; cycles, uplink slots, overcurrent comparators, stale modules and
lane faults (R166, R174, R176, R184, R185). -/

namespace Sys2Proof

open Machine

theorem Block.Only.mlk_eq {l : List Part} {b c : Block} (h : Block.Only l b c) (hp : Part.mlk ∉ l) : c.mlk = b.mlk := h .mlk hp

namespace Machine

/-! ### Lanes and modules -/

@[simp] theorem State.after_mlk (s : State) (f : Block → Block) : (s.after f).block.mlk = (f s.block).mlk :=
  (safetyItem_frame _ _).mlk_eq (by decide)

@[simp] theorem irq_mlk (n : Nat) (b : Block) : (irq n b).mlk = b.mlk := (irq_frame n b).mlk_eq (by decide)

theorem laneSt_congr {b c : Block} (h : c.mlk = b.mlk) (l : Fin 8) : laneSt c l = laneSt b l := by rw [laneSt, h, laneSt]

theorem mlkOf_congr {b c : Block} (h : c.mlk = b.mlk) (k : Fin 96) : mlkOf c k = mlkOf b k := by rw [mlkOf, h, mlkOf]

@[simp] theorem laneSt_after (s : State) (f : Block → Block) (l : Fin 8) : laneSt (s.after f).block l = laneSt (f s.block) l :=
  laneSt_congr (s.after_mlk f) l

@[simp] theorem mlkOf_after (s : State) (f : Block → Block) (k : Fin 96) : mlkOf (s.after f).block k = mlkOf (f s.block) k :=
  mlkOf_congr (s.after_mlk f) k

@[simp] theorem laneSt_updLane_self (l : Fin 8) (f : Lane → Lane) (b : Block) : laneSt (updLane l f b) l = f (laneSt b l) :=
  vget_vupd_self _ _ _

theorem laneSt_updLane_ne {l k : Fin 8} (h : k ≠ l) (f : Lane → Lane) (b : Block) : laneSt (updLane l f b) k = laneSt b k :=
  vget_vupd_ne _ _ h

@[simp] theorem mlkOf_updMlk_self (k : Fin 96) (f : MlkModule → MlkModule) (b : Block) : mlkOf (updMlk k f b) k = f (mlkOf b k) :=
  vget_vupd_self _ _ _

theorem mlkOf_updMlk_ne {k j : Fin 96} (h : j ≠ k) (f : MlkModule → MlkModule) (b : Block) : mlkOf (updMlk k f b) j = mlkOf b j :=
  vget_vupd_ne _ _ h

/-- The phase that a connector shows is read from its session and the lock-outs alone. -/
theorem phaseOf_congr {b c : Block} (hsess : c.sess = b.sess) (hsaf : c.saf = b.saf) (n : Fin 16) : phaseOf c n = phaseOf b n := by
  unfold phaseOf lockedOut nodeOf sessOf
  rw [hsess, hsaf]

/-! ### Cycles and slots (R166, R174) -/

theorem mlkCycle_of_due {b : Block} (readback : BitVec 8) (h : nextMultiple tCycle (some b.mlk.cycle) b = (now b).toNat) :
    mlkCycle readback b = linkCycle readback (fireLink b) := by
  rw [mlkCycle, atInstant_nextMultiple h]

/-- The end of a slot of a lane that ran: the slot goes into the trace image of the lane and is judged. -/
theorem uplinkSlot_of_due {l : Fin 8} {p : Fin 12} {b : Block} (x : UplinkSlot) (hran : (laneSt b l).ran = true)
    (hdue : b.mlk.cycle.toNat + 18720 + 3720 * p.val ≤ (now b).toNat) :
    uplinkSlot l p x b = uplinkEnd l p x (updLane l (fun y => { y with slots := splice y.slots (9 * p.val) (slotTrace l p x) }) b) := by
  rw [uplinkSlot, if_pos hran, atInstant_of_le hdue]

/-! ### Overcurrent comparators (R176) -/

/-- A trip is latched at its instant and raises source 145. -/
def tripNoted (n : Fin 16) (b : Block) : Block :=
  irq 145 (updLink (fun k => { k with
    ocTripped := vset k.ocTripped n true, ocLatched := vset k.ocLatched n true, ocAt := vset k.ocAt n (now b) }) b)

theorem tripNoted_mlk (n : Fin 16) (b : Block) : (tripNoted n b).mlk = { b.mlk with
    ocTripped := vset b.mlk.ocTripped n true, ocLatched := vset b.mlk.ocLatched n true, ocAt := vset b.mlk.ocAt n (now b) } := by
  rw [tripNoted, irq_mlk, updLink_mlk]

theorem tripNoted_sess (n : Fin 16) (b : Block) : (tripNoted n b).sess = b.sess := by
  rw [tripNoted, (irq_frame _ _).sess_eq (by decide), updLink_sess]

theorem tripNoted_saf (n : Fin 16) (b : Block) : (tripNoted n b).saf = b.saf := by
  rw [tripNoted, (irq_frame _ _).saf_eq (by decide), updLink_saf]

/-- A new trip is a device fault of its node when the pair of the node may close, as it may before the trip is noted. -/
theorem ocTrip_of_ready {n : Fin 16} {b : Block} (h : vget b.mlk.ocTripped n = false) :
    ocTrip n b = if (phaseOf b n).mayClose then softFault (.node n) 1 (tripNoted n b) else tripNoted n b := by
  have hready : ¬ vget b.mlk.ocTripped n = true := by simp [h]
  rw [← phaseOf_congr (tripNoted_sess n b) (tripNoted_saf n b) n, ocTrip, if_neg hready]
  rfl

theorem ocTrip_of_tripped {n : Fin 16} {b : Block} (h : vget b.mlk.ocTripped n = true) : ocTrip n b = b := if_pos h

theorem ocRelease_of_tripped {n : Fin 16} {b : Block} (h : vget b.mlk.ocTripped n = true) :
    ocRelease n b = updLink (fun k => { k with ocTripped := vset k.ocTripped n false, ocRelAt := vset k.ocRelAt n (now b) }) b :=
  if_pos h

theorem ocRelease_of_ready {n : Fin 16} {b : Block} (h : vget b.mlk.ocTripped n = false) : ocRelease n b = b := by
  simp [ocRelease, h]

/-! ### Stale modules (R184) -/

/-- A module without a record for 3 cycles is no longer fresh; source 149 for an enrolled one leaves the link. -/
theorem moduleStale_mlk {k : Fin 96} {b : Block} (hfresh : (mlkOf b k).fresh = true)
    (hdue : (mlkOf b k).stamp.toNat + 3 * tCycle ≤ (now b).toNat) :
    (moduleStale k b).mlk = (updMlk k (fun x => { x with fresh := false }) b).mlk := by
  unfold moduleStale
  extract_lets x
  rw [if_pos hfresh, afterTicks_of_le hdue]
  exact onlyIf_keeps (q := Block.mlk) (fun c => irq_mlk 149 c) _ _

/-! ### Lane faults (R185) -/

/-- The modules of lane `l` are out of service, with source 133 when one was not. -/
def modulesOut (l : Fin 8) (b : Block) : Block :=
  onlyIf ((laneModules l).any fun k => !(sluModOf b k).outOfService) (irq 133)
    { b with slu := { b.slu with
        modules := vmapIdx b.slu.modules fun k y => if modLane k = l then { y with outOfService := true, leaveDue := false } else y } }

/-- A lane has run 25 cycles without a passing enrolled slot, or failed 3 readbacks. -/
def LaneFails (x : Lane) : Prop := (x.enrolled ≠ 0 ∧ 25 ≤ x.noPass) ∨ 3 ≤ x.readbackFails

theorem laneFault_of_fails {l : Fin 8} {b : Block} (hsound : (laneSt b l).fault = false) (hfails : LaneFails (laneSt b l)) :
    laneFault l b = deviceFault (.lane l) 2 (modulesOut l (irq 146 (updLane l (fun x => { x with fault := true }) b))) := by
  unfold laneFault
  extract_lets x c d
  have hdecided : (!x.fault && ((x.enrolled != 0 && decide (25 ≤ x.noPass)) || decide (3 ≤ x.readbackFails))) = true := by
    simpa [x, hsound, LaneFails] using hfails
  rw [if_pos hdecided]
  rfl

theorem laneFault_of_not {l : Fin 8} {b : Block} (h : (laneSt b l).fault = true ∨ ¬ LaneFails (laneSt b l)) : laneFault l b = b := by
  unfold laneFault
  extract_lets x c d
  refine if_neg fun hdecided => ?_
  simp only [Bool.and_eq_true, Bool.not_eq_true', Bool.or_eq_true, bne_iff_ne, decide_eq_true_eq] at hdecided
  obtain ⟨hsound, hfails⟩ := hdecided
  rcases h with hfault | hnot
  · exact absurd (hfault.symm.trans hsound) (by decide)
  · exact hnot hfails

end Machine

/-- Settles O26: each event is due, so its effect is that of its clause; source 145 and source 149 leave the link as the event wrote it. -/
theorem moduleLinkInstants : Obligations.ModuleLinkInstants := by
  refine ⟨fun s readback hdue => ?_, fun s l p slot hrep hran hdue => ?_, fun s n hrep hready hphase => ?_,
    fun s n hrep hready hphase => ?_, fun s n hrep htrip => ?_, fun s n hrep htrip => ?_, fun s n hrep hready => ?_,
    fun s k hfresh hdue => ?_, fun s l hsound hfails => ?_, fun s l hnot => ?_⟩
  -- MLK_CYCLE
  · exact ⟨s.after (mlkCycle readback), rfl, execMlkCycle_frame readback rfl, State.after_block (mlkCycle_of_due readback hdue)⟩
  -- UPLINK_SLOT_END
  · have hx : exec (.uplinkSlotEnd l p slot) s = .next (s.after (uplinkSlot l p slot)) := State.input_eq hrep _
    exact ⟨_, hx, execUplinkSlotEnd_frame l p slot hx, State.after_block (uplinkSlot_of_due slot hran hdue)⟩
  -- OC_TRIP on a pair that may not close
  · have hx : exec (.ocTrip n) s = .next (s.after (ocTrip n)) := State.input_eq hrep _
    have heff : ocTrip n s.block = tripNoted n s.block := by simp [ocTrip_of_ready hready, hphase]
    refine ⟨_, hx, execOcTrip_frame n hx, ?_⟩
    simp only [State.after_mlk, State.after_sess, Raised, State.after_hic, heff, tripNoted_mlk, tripNoted_sess, vget_vset_self, true_and,
      and_true]
    exact irq_pends (n := 145) (by decide) _
  -- OC_TRIP on a pair that may close
  · have hx : exec (.ocTrip n) s = .next (s.after (ocTrip n)) := State.input_eq hrep _
    exact ⟨_, hx, execOcTrip_frame n hx, State.after_block ((ocTrip_of_ready hready).trans (if_pos hphase))⟩
  -- OC_TRIP of a tripped comparator
  · have hx : exec (.ocTrip n) s = .next (s.after (ocTrip n)) := State.input_eq hrep _
    exact ⟨_, hx, execOcTrip_frame n hx, State.after_block (ocTrip_of_tripped htrip)⟩
  -- OC_RELEASE of a tripped comparator
  · have hx : exec (.ocRelease n) s = .next (s.after (ocRelease n)) := State.input_eq hrep _
    refine ⟨_, hx, execOcRelease_frame n hx, ?_⟩
    rw [State.after_mlk, ocRelease_of_tripped htrip, updLink_mlk]
  -- OC_RELEASE of one that is not
  · have hx : exec (.ocRelease n) s = .next (s.after (ocRelease n)) := State.input_eq hrep _
    exact ⟨_, hx, execOcRelease_frame n hx, State.after_block (ocRelease_of_ready hready)⟩
  -- MODULE_STALE
  · have hmlk := moduleStale_mlk hfresh hdue
    refine ⟨s.after (moduleStale k), rfl, execModuleStale_frame k rfl, ?_, fun j hj => ?_⟩
    · rw [mlkOf_after, mlkOf_congr hmlk, mlkOf_updMlk_self]
    · rw [mlkOf_after, mlkOf_congr hmlk, mlkOf_updMlk_ne hj]
  -- LANE_FAULT
  · exact ⟨s.after (laneFault l), rfl, execLaneFault_frame l rfl, State.after_block (laneFault_of_fails hsound hfails)⟩
  -- LANE_FAULT of a lane in fault, or one that does not fail
  · have hstays : (laneSt s.block l).fault = true ∨ ¬ LaneFails (laneSt s.block l) :=
      hnot.imp_right fun ⟨hslots, hreads⟩ hfails => hfails.elim
        (fun ⟨henrolled, hrun⟩ => hslots.elim henrolled hrun.not_gt) hreads.not_ge
    refine ⟨s.after (laneFault l), rfl, execLaneFault_frame l rfl, ?_⟩
    rw [State.after_mlk, State.after_slu, State.after_saf, laneFault_of_not hstays]
    exact ⟨rfl, rfl, rfl⟩

end Sys2Proof
end

section
/-! PROOFS. The commands of the module link family (R169, R186, R189): what each makes of the link, and that its answer stands. -/

namespace Sys2Proof

open Machine

namespace Machine

/-! ### What the stored settings, the log and the answer leave -/

@[simp] theorem saveSettings_mlk (b : Block) : (saveSettings b).mlk = b.mlk := (saveSettings_frame b).mlk_eq (by decide)
@[simp] theorem cmdLog_mlk (m : Fin 4) (status : Nat) (b : Block) : (cmdLog m status b).mlk = b.mlk := (cmdLog_frame _ _ b).mlk_eq (by decide)
@[simp] theorem cmdLog_mbx (m : Fin 4) (status : Nat) (b : Block) : (cmdLog m status b).mbx = b.mbx := (cmdLog_frame _ _ b).mbx_eq (by decide)
@[simp] theorem ok_mlk (m : Fin 4) (p : List U8) (b : Block) : (ok m p b).mlk = b.mlk := (ok_frame m p b).mlk_eq (by decide)

/-- The log entry of a command comes after its answer and leaves it (R526). -/
theorem answered_of_logged {s : State} {f : Block → Block} {b : Block} {m : Fin 4} {k status : Nat} {p : List U8}
    (hf : f s.block = cmdLog m k (respond m status p b)) (hm : b.mbx = s.block.mbx) (hp : p.length ≤ 1016) :
    Answered s (s.after f) m status p := by
  have hlast : Answered s (s.after fun _ => respond m status p b) m status p := answered_of_respond rfl hm hp
  simpa only [Answered, mbxOf, State.after_mbx, hf, cmdLog_mbx] using hlast

/-- A refused command answers its status and leaves the link. -/
theorem refused_keeps_mlk {s : State} {f : Block → Block} {m : Fin 4} {status : Nat} (hf : f s.block = refuse m status s.block) :
    Answered s (s.after f) m status [] ∧ (s.after f).block.mlk = s.block.mlk :=
  ⟨answered_of_refuse hf, (after_refuse_frame hf).mlk_eq (by decide)⟩

/-! ### Lanes, modules and identities as they are answered -/

theorem mlkGetLane_of_lane {m : Fin 4} {b : Block} (hlane : (laneCheck b m).2 = true) :
    mlkGetLane m b = ok m (b32s [laneStatWord (laneSt b (reqLane b m)), (laneSt b (reqLane b m)).crcCnt, (laneSt b (reqLane b m)).vetoCnt,
      (laneSt b (reqLane b m)).missCnt, (laneSt b (reqLane b m)).dlErrCnt] ++ [BitVec.ofNat 8 (b2n (laneSt b (reqLane b m)).fault)]) b := by
  rw [mlkGetLane, checked_cons_pass hlane, checked_nil]

/-- The age of the latest record of module `k` in cycles, 255 when none has passed. -/
def recordAge (b : Block) (k : Fin 96) : Nat := if (mlkOf b k).everOk then min 255 (since b (mlkOf b k).stamp / tCycle) else 255

theorem mlkGetTelemetry_of_module {m : Fin 4} {b : Block} (hmod : (moduleCheck 0x0502 b m).2 = true) :
    mlkGetTelemetry m b = ok m (padTo 8 (mlkOf b (reqModule b m)).record ++ b64 (mlkOf b (reqModule b m)).stamp ++
      [BitVec.ofNat 8 (recordAge b (reqModule b m)),
        BitVec.ofNat 8 (bitsNat [!(mlkOf b (reqModule b m)).fresh, (mlkOf b (reqModule b m)).vetoed])]) b := by
  rw [mlkGetTelemetry, checked_cons_pass hmod, checked_nil, recordAge]

theorem mlkGetIdentity_of_module {m : Fin 4} {b : Block} (hmod : (moduleCheck 0x0502 b m).2 = true) :
    mlkGetIdentity m b = ok m (padTo 8 (mlkOf b (reqModule b m)).identity ++ b64 (mlkOf b (reqModule b m)).identityAt) b := by
  rw [mlkGetIdentity, checked_cons_pass hmod, checked_nil]

/-! ### MLK_ENUMERATE (R186) -/

/-- An enumeration of the lanes that mailbox `m` names has begun; no other position has answered yet. -/
def enumBegun (m : Fin 4) (b : Block) : Block :=
  updLink (fun k => { k with
    enumBusy := true, enumMbx := some m, enumMask := BitVec.ofNat 8 (rN b m 0 1), enumAt := none, enumOther := Vector.replicate 8 0 }) b

theorem mlkEnumerate_of_idle {m : Fin 4} {b : Block} (hidle : b.mlk.enumBusy = false) :
    mlkEnumerate m b = if allLanes.any fun l => bitOf (rN b m 0 1) l.val && (laneSt b l).enable then
      bcastAsk { code := 0x01, mask := BitVec.ofNat 8 (rN b m 0 1), arg := 0 } (enumBegun m b) else enumEnd (enumBegun m b) := by
  unfold mlkEnumerate
  extract_lets mask
  rw [checked_cons_pass (by simp [hidle]), checked_nil]
  rfl

theorem mlkEnumerate_of_busy {m : Fin 4} {b : Block} (hbusy : b.mlk.enumBusy = true) : mlkEnumerate m b = refuse m 0x0506 b := by
  rw [mlkEnumerate, checked_cons_fail (by simp [hbusy])]

/-! ### MLK_SET_ENROLLED (R186) -/

section
variable {m : Fin 4} {b : Block} (hlane : (laneCheck b m).2 = true)
include hlane

theorem mlkSetEnrolled_of_pass (hmask : rN b m 2 2 < 4096)
    (hkept : ∀ p : Fin 12, bitOf (rN b m 2 2) p.val = true ∨ (laneSt b (reqLane b m)).enrolled.getLsbD p.val = false ∨
      modBusy b (modAt (reqLane b m) p) = false) :
    mlkSetEnrolled m b = ok m (leBytes 2 (rN b m 2 2))
      (saveSettings (updLane (reqLane b m) (fun x => { x with enrolled := BitVec.ofNat 12 (rN b m 2 2) }) b)) := by
  unfold mlkSetEnrolled
  extract_lets l mask kept
  have hall : kept = true := List.all_eq_true.mpr fun p _ => by simpa [mask, l, or_assoc] using hkept p
  rw [checked_cons_pass hlane, checked_cons_pass (decide_eq_true hmask), checked_cons_pass hall, checked_nil]

theorem mlkSetEnrolled_of_range (hmask : 4096 ≤ rN b m 2 2) : mlkSetEnrolled m b = refuse m 0x0501 b := by
  unfold mlkSetEnrolled
  extract_lets l mask kept
  rw [checked_cons_pass hlane, checked_cons_fail (decide_eq_false hmask.not_gt)]

/-! ### MLK_RESET_LANE (R185) -/

/-- A lane that resets: no fault and no count of failures, turnaround until `t`; with `dbl`, one of its modules has two contacts closed,
and selector actions that were refused stay so. -/
def laneReset (t : Nat) (dbl : Bool) (x : Lane) : Lane :=
  { x with
    fault := false, selRefused := x.selRefused && dbl, resetUntil := some (BitVec.ofNat 64 t), running := false, ran := false
    noPass := 0, readbackFails := 0 }

theorem mlkResetLane_of_free (hfree : ((laneModules (reqLane b m)).all fun x => !modBusy b x) = true) :
    mlkResetLane m b = ok m (leBytes 8 (nextCycle b + 25 * tCycle)) (updLane (reqLane b m) (laneReset (nextCycle b + 25 * tCycle)
      ((laneModules (reqLane b m)).any fun x => decide (2 ≤ nibbleCount (contactsOf (mlkOf b x))))) b) := by
  unfold mlkResetLane
  extract_lets
  rw [checked_cons_pass hlane, checked_cons_pass hfree, checked_nil]
  rfl

end

/-! ### MLK_SET_OC and MLK_SET_VETO_MASK -/

theorem mlkSetOc_of_pass {m : Fin 4} {b : Block} (hnode : (nodeCheck 0x0504 b m).2 = true) (hthr : 64 ≤ rN b m 1 1) :
    mlkSetOc m b = cmdLog m 0 (ok m (b64 (now b))
      (saveSettings (updLink (fun k => { k with ocThr := vset k.ocThr (reqNode b m) (BitVec.ofNat 8 (rN b m 1 1)) }) b))) := by
  unfold mlkSetOc
  extract_lets n t
  rw [checked_cons_pass hnode, checked_cons_pass (decide_eq_true hthr), checked_nil]

theorem mlkSetOc_of_low {m : Fin 4} {b : Block} (hnode : (nodeCheck 0x0504 b m).2 = true) (hthr : rN b m 1 1 < 64) :
    mlkSetOc m b = refuse m 0x0505 b := by
  unfold mlkSetOc
  extract_lets n t
  rw [checked_cons_pass hnode, checked_cons_fail (decide_eq_false hthr.not_ge)]

theorem mlkSetVetoMask_of_pass {m : Fin 4} {b : Block} (hmask : rN b m 0 1 < 128) :
    mlkSetVetoMask m b = cmdLog m 0 (ok m []
      (saveSettings (updLink (fun k => { k with vetoMask := BitVec.ofNat 7 (rN b m 0 1) }) b))) := by
  unfold mlkSetVetoMask
  extract_lets v
  rw [checked_cons_pass (decide_eq_true hmask), checked_nil]

/-! ### MLK_IDENTIFY (R169) -/

theorem mlkIdentify_of_pass {m : Fin 4} {b : Block} {q : Bcast} (hmod : (moduleCheck 0x0502 b m).2 = true) (hsec : 1 ≤ rN b m 1 1)
    (hq : q = { code := 0x02, mask := BitVec.ofNat 8 (2 ^ (modLane (reqModule b m)).val)
                arg := BitVec.ofNat 16 (posOf (reqModule b m) + 256 * rN b m 1 1) }) :
    mlkIdentify m b = ok m (leBytes 8 (bcastStart b q)) (bcastAsk q b) := by
  subst hq
  unfold mlkIdentify
  extract_lets x t
  rw [checked_cons_pass hmod, checked_cons_pass (decide_eq_true hsec), checked_nil]

theorem mlkIdentify_of_zero {m : Fin 4} {b : Block} (hmod : (moduleCheck 0x0502 b m).2 = true) (hsec : rN b m 1 1 = 0) :
    mlkIdentify m b = refuse m 0x0505 b := by
  unfold mlkIdentify
  extract_lets x t
  rw [checked_cons_pass hmod, checked_cons_fail (by simp [t, hsec])]

/-! ### MLK_CLEAR_COUNTS -/

/-- A change of the lanes that `p` picks from a list without repetitions reaches those lanes and no other. -/
theorem laneSt_forAll_updLane {ls : List (Fin 8)} (hls : ls.Nodup) (p : Fin 8 → Bool) (f : Lane → Lane) (b : Block) (d : Fin 8) :
    laneSt (forAll ls (fun l b => if p l then updLane l f b else b) b) d = if d ∈ ls ∧ p d then f (laneSt b d) else laneSt b d := by
  induction ls generalizing b with
  | nil => simp [forAll]
  | cons l ls ih =>
    obtain ⟨hl, hrest⟩ := List.nodup_cons.mp hls
    refine (ih hrest _).trans ?_
    by_cases hd : d = l
    · subst hd
      cases hp : p d <;> simp [hl, hp]
    · have hhead : laneSt (if p l then updLane l f b else b) d = laneSt b d := by
        split
        · exact laneSt_updLane_ne hd f b
        · rfl
      simp only [hhead, List.mem_cons, hd, false_or]

/-- The four counts of a lane are 0. -/
def Lane.countsCleared (x : Lane) : Lane := { x with crcCnt := 0, vetoCnt := 0, missCnt := 0, dlErrCnt := 0 }

/-- The counts of the lanes that the request names are 0. -/
def laneCountsCleared (m : Fin 4) (b : Block) : Block :=
  forAll allLanes (fun l b' => if bitOf (rN b m 0 1) l.val then updLane l Lane.countsCleared b' else b') b

theorem laneCountsCleared_mbx (m : Fin 4) (b : Block) : (laneCountsCleared m b).mbx = b.mbx :=
  forAll_keeps (q := Block.mbx) (fun l c => by split <;> rfl) _ _

theorem laneSt_laneCountsCleared (m : Fin 4) (b : Block) (l : Fin 8) :
    laneSt (laneCountsCleared m b) l = if bitOf (rN b m 0 1) l.val then (laneSt b l).countsCleared else laneSt b l := by
  refine (laneSt_forAll_updLane (List.nodup_finRange 8) (fun l => bitOf (rN b m 0 1) l.val) _ b l).trans ?_
  simp only [List.mem_finRange, true_and]

end Machine

/-- Settles O25: each request runs the effect of its command once its checks hold; the stored settings, the answer and the log entry leave
the link as the command wrote it. -/
theorem moduleLinkCommands : Obligations.ModuleLinkCommands := by
  refine ⟨fun s m ha hlane => ?_, fun s m ha hmod => ?_, fun s m ha hidle hany => ?_, fun s m ha hidle hnone => ?_,
    fun s m ha hbusy => ?_, fun s m ha hmod => ?_, fun s m ha hlane hmask hkept => ?_, fun s m ha hlane hmask => ?_,
    fun s m ha hnode hthr => ?_, fun s m ha hnode hthr => ?_, fun s m ha hmask => ?_, fun s m q ha hmod hsec hq => ?_,
    fun s m ha hmod hsec => ?_, fun s m ha hlane hfree => ?_, fun s m ha => ?_⟩
  -- MLK_GET_LANE
  · have hx : exec (.mlkGetLane m) s = .next (s.after (mlkGetLane m)) := run_of_asked ha _
    exact ⟨_, hx, execMlkGetLane_frame m hx, answered_of_respond (mlkGetLane_of_lane hlane) rfl (by simp)⟩
  -- MLK_GET_TELEMETRY
  · have hx : exec (.mlkGetTelemetry m) s = .next (s.after (mlkGetTelemetry m)) := run_of_asked ha _
    exact ⟨_, hx, execMlkGetTelemetry_frame m hx, answered_of_respond (mlkGetTelemetry_of_module hmod) rfl (by simp)⟩
  -- MLK_ENUMERATE of an enabled lane
  · have hx : exec (.mlkEnumerate m) s = .next (s.after (mlkEnumerate m)) := run_of_asked ha _
    have heff := (mlkEnumerate_of_idle (m := m) hidle).trans (if_pos hany)
    refine ⟨_, hx, execMlkEnumerate_frame m hx, ?_⟩
    rw [mbxOf, State.after_mlk, State.after_mbx, heff]
    exact ⟨rfl, rfl, rfl, answered_of_serving ha.1, rfl, rfl, rfl⟩
  -- MLK_ENUMERATE of none
  · have hx : exec (.mlkEnumerate m) s = .next (s.after (mlkEnumerate m)) := run_of_asked ha _
    have heff := (mlkEnumerate_of_idle (m := m) hidle).trans (if_neg (Bool.eq_false_iff.mp hnone))
    exact ⟨_, hx, execMlkEnumerate_frame m hx, State.after_block heff⟩
  -- MLK_ENUMERATE while one goes on
  · have hx : exec (.mlkEnumerate m) s = .next (s.after (mlkEnumerate m)) := run_of_asked ha _
    exact ⟨_, hx, execMlkEnumerate_frame m hx, refused_keeps_mlk (mlkEnumerate_of_busy hbusy)⟩
  -- MLK_GET_IDENTITY
  · have hx : exec (.mlkGetIdentity m) s = .next (s.after (mlkGetIdentity m)) := run_of_asked ha _
    exact ⟨_, hx, execMlkGetIdentity_frame m hx, answered_of_respond (mlkGetIdentity_of_module hmod) rfl (by simp)⟩
  -- MLK_SET_ENROLLED
  · have hx : exec (.mlkSetEnrolled m) s = .next (s.after (mlkSetEnrolled m)) := run_of_asked ha _
    have heff := mlkSetEnrolled_of_pass hlane hmask hkept
    have hlanes (l : Fin 8) : laneSt (s.after (mlkSetEnrolled m)).block l =
        laneSt (updLane (reqLane s.block m) (fun x => { x with enrolled := BitVec.ofNat 12 (rN s.block m 2 2) }) s.block) l :=
      laneSt_congr (by rw [State.after_mlk, heff, ok_mlk, saveSettings_mlk]) l
    refine ⟨_, hx, execMlkSetEnrolled_frame m hx, answered_of_respond heff (by simp) (by simp), ?_, fun l hl => ?_⟩
    · rw [hlanes, laneSt_updLane_self]
    · rw [hlanes, laneSt_updLane_ne hl]
  -- MLK_SET_ENROLLED above 12 bits
  · have hx : exec (.mlkSetEnrolled m) s = .next (s.after (mlkSetEnrolled m)) := run_of_asked ha _
    exact ⟨_, hx, execMlkSetEnrolled_frame m hx, refused_keeps_mlk (mlkSetEnrolled_of_range hlane hmask)⟩
  -- MLK_SET_OC
  · have hx : exec (.mlkSetOc m) s = .next (s.after (mlkSetOc m)) := run_of_asked ha _
    have heff := mlkSetOc_of_pass hnode hthr
    refine ⟨_, hx, execMlkSetOc_frame m hx, answered_of_logged heff (by simp) (by simp), ?_⟩
    rw [State.after_mlk, heff, cmdLog_mlk, ok_mlk, saveSettings_mlk, updLink_mlk]
  -- MLK_SET_OC below 64
  · have hx : exec (.mlkSetOc m) s = .next (s.after (mlkSetOc m)) := run_of_asked ha _
    exact ⟨_, hx, execMlkSetOc_frame m hx, refused_keeps_mlk (mlkSetOc_of_low hnode hthr)⟩
  -- MLK_SET_VETO_MASK
  · have hx : exec (.mlkSetVetoMask m) s = .next (s.after (mlkSetVetoMask m)) := run_of_asked ha _
    have heff := mlkSetVetoMask_of_pass hmask
    refine ⟨_, hx, execMlkSetVetoMask_frame m hx, answered_of_logged heff (by simp) (by simp), ?_⟩
    rw [State.after_mlk, heff, cmdLog_mlk, ok_mlk, saveSettings_mlk, updLink_mlk]
  -- MLK_IDENTIFY
  · have hx : exec (.mlkIdentify m) s = .next (s.after (mlkIdentify m)) := run_of_asked ha _
    have heff := mlkIdentify_of_pass hmod hsec hq
    refine ⟨_, hx, execMlkIdentify_frame m hx, answered_of_respond heff rfl (by simp), ?_⟩
    rw [State.after_mlk, heff, ok_mlk, bcastAsk, updLink_mlk]
  -- MLK_IDENTIFY for no second
  · have hx : exec (.mlkIdentify m) s = .next (s.after (mlkIdentify m)) := run_of_asked ha _
    exact ⟨_, hx, execMlkIdentify_frame m hx, refused_keeps_mlk (mlkIdentify_of_zero hmod hsec)⟩
  -- MLK_RESET_LANE
  · have hx : exec (.mlkResetLane m) s = .next (s.after (mlkResetLane m)) := run_of_asked ha _
    have heff := mlkResetLane_of_free hlane hfree
    refine ⟨_, hx, execMlkResetLane_frame m hx, answered_of_respond heff rfl (by simp), ?_⟩
    simp only [laneSt_after, heff, laneSt_congr (ok_mlk _ _ _), laneSt_updLane_self]
    exact ⟨rfl, rfl, rfl, fun l hl => laneSt_updLane_ne hl _ _⟩
  -- MLK_CLEAR_COUNTS
  · have hx : exec (.mlkClearCounts m) s = .next (s.after (mlkClearCounts m)) := run_of_asked ha _
    have heff : mlkClearCounts m s.block = ok m [] (laneCountsCleared m s.block) := rfl
    refine ⟨_, hx, execMlkClearCounts_frame m hx, answered_of_respond heff (laneCountsCleared_mbx _ _) (by simp), fun l => ?_⟩
    rw [laneSt_after, heff, laneSt_congr (ok_mlk _ _ _), laneSt_laneCountsCleared]
    rfl

end Sys2Proof
end

section
/-! PROOFS. Connectors read through an update, a frame or a command, and what the moves, the duty orders and the containment of a session
leave of a connector (R193, R199, R207, R281). -/

namespace Sys2Proof

open Machine

theorem Block.Only.veh_eq {l : List Part} {b c : Block} (h : Block.Only l b c) (hp : Part.veh ∉ l) : c.veh = b.veh := h .veh hp
theorem Block.Only.vehCfg_eq {l : List Part} {b c : Block} (h : Block.Only l b c) (hp : Part.vehCfg ∉ l) : c.vehCfg = b.vehCfg := h .vehCfg hp

namespace Machine

/-! ### Connectors -/

@[simp] theorem State.after_veh (s : State) (f : Block → Block) : (s.after f).block.veh = (f s.block).veh :=
  (safetyItem_frame _ _).veh_eq (by decide)

@[simp] theorem State.after_vehCfg (s : State) (f : Block → Block) : (s.after f).block.vehCfg = (f s.block).vehCfg :=
  (safetyItem_frame _ _).vehCfg_eq (by decide)

theorem vehOf_congr {b c : Block} (h : c.veh = b.veh) (n : Fin 16) : vehOf c n = vehOf b n := by rw [vehOf, h, vehOf]

@[simp] theorem vehOf_after (s : State) (f : Block → Block) (n : Fin 16) : vehOf (s.after f).block n = vehOf (f s.block) n :=
  vehOf_congr (s.after_veh f) n

@[simp] theorem vehOf_updVeh_self (n : Fin 16) (f : Connector → Connector) (b : Block) : vehOf (updVeh n f b) n = f (vehOf b n) :=
  vget_vupd_self _ _ _

theorem vehOf_updVeh_ne {n k : Fin 16} (h : k ≠ n) (f : Connector → Connector) (b : Block) : vehOf (updVeh n f b) k = vehOf b k :=
  vget_vupd_ne _ _ h

@[simp] theorem irq_veh (n : Nat) (b : Block) : (irq n b).veh = b.veh := (irq_frame n b).veh_eq (by decide)
@[simp] theorem hsEntry_veh (r c : Nat) (a : U8) (t : U64) (b : Block) : (hsEntry r c a t b).veh = b.veh :=
  (hsEntry_frame r c a t b).veh_eq (by decide)

/-- An update of a connector is decided by what it makes of that connector. -/
theorem updVeh_congr {n : Fin 16} {f g : Connector → Connector} {b : Block} (h : f (vehOf b n) = g (vehOf b n)) :
    updVeh n f b = updVeh n g b := by
  have hf : f b.veh[n.val] = g b.veh[n.val] := h
  simp only [updVeh, vupd, hf]

/-! ### What a session leaves of its connector -/

/-- A connector less what sessions, orders and containment write: the duty ordered, the lock and its move, and pilot loss. -/
def Connector.sensed (v : Connector) : Connector :=
  { v with ordered := 0, lockState := 0, unlockDue := false, move := none, starting := false, pilotLoss := false }

/-- The connectors of a block, so read. -/
def sensed (b : Block) (n : Fin 16) : Connector := (vehOf b n).sensed

/-- A field that `sensed` keeps is read from it. -/
theorem field_of_sensed {γ : Type} (q : Connector → γ) (hq : ∀ v, q v.sensed = q v) {b c : Block} (h : sensed c = sensed b) (n : Fin 16) :
    q (vehOf c n) = q (vehOf b n) := by
  rw [← hq, ← hq (vehOf b n)]
  exact congrArg q (congrFun h n)

theorem sensed_of_frame {l : List Part} {b c : Block} (h : Block.Only l b c) (hp : Part.veh ∉ l) : sensed c = sensed b :=
  funext fun n => congrArg Connector.sensed (vehOf_congr (h.veh_eq hp) n)

theorem sensed_updVeh (n : Fin 16) (f : Connector → Connector) (b : Block) (hf : ∀ v, (f v).sensed = v.sensed) :
    sensed (updVeh n f b) = sensed b := by
  funext k
  by_cases hk : k = n
  · subst hk
    exact (congrArg Connector.sensed (vehOf_updVeh_self k f b)).trans (hf _)
  · exact congrArg Connector.sensed (vehOf_updVeh_ne hk f b)

section
variable (b : Block)

theorem irq_sensed (n : Nat) : sensed (irq n b) = sensed b := sensed_of_frame (irq_frame n b) (by decide)
theorem updSaf_sensed (f : Safety → Safety) : sensed (updSaf f b) = sensed b := rfl
theorem openWindow_sensed (c : U8) (s : CScope) (k : Nat) : sensed (openWindow c s k b) = sensed b := rfl
theorem dykeClear_sensed (n : Fin 16) : sensed (dykeClear n b) = sensed b := sensed_of_frame (dykeClear_frame n b) (by decide)
theorem openNow_sensed (n : Fin 16) : sensed (openNow n b) = sensed b := sensed_of_frame (openNow_frame n b) (by decide)
theorem reviewHw_sensed : sensed (reviewHw b) = sensed b := sensed_of_frame (reviewHw_frame b) (by decide)
theorem saveSafety_sensed : sensed (saveSafety b) = sensed b := sensed_of_frame (saveSafety_frame b) (by decide)
theorem laneZero_sensed (l : Fin 8) : sensed (laneZero l b) = sensed b := sensed_of_frame (laneZero_frame l b) (by decide)
theorem toIdle_sensed (n : Fin 16) : sensed (toIdle n b) = sensed b := sensed_of_frame (toIdle_frame n b) (by decide)
theorem associate_sensed (n : Fin 16) : sensed (associate n b) = sensed b := sensed_of_frame (associate_frame n b) (by decide)

theorem lockoutLog_sensed (what : U8) (s : CScope) (cause : U8) : sensed (lockoutLog what s cause b) = sensed b :=
  sensed_of_frame (lockoutLog_frame what s cause b) (by decide)

theorem enterPhase_sensed (n : Fin 16) (p : Phase) : sensed (enterPhase n p b) = sensed b :=
  sensed_of_frame (enterPhase_frame n p b) (by decide)

theorem reasonUnderLoad_sensed (n : Fin 16) (r : EndReason) : sensed (reasonUnderLoad n r b) = sensed b :=
  sensed_of_frame (reasonUnderLoad_frame n r b) (by decide)

theorem recordFault_sensed (f : FaultSpec) (s : CScope) (k : Nat) : sensed (recordFault f s k b) = sensed b :=
  sensed_of_frame (recordFault_frame f s k b) (by decide)

theorem closeItems_sensed (n : Fin 16) (r x : U8) : sensed (closeItems n r x b) = sensed b :=
  sensed_of_frame (closeItems_frame n r x b) (by decide)

theorem hsEntry_sensed (r c : Nat) (a : U8) (t : U64) : sensed (hsEntry r c a t b) = sensed b :=
  sensed_of_frame (hsEntry_frame r c a t b) (by decide)

/-! #### Duty orders and lock moves -/

theorem setDuty_sensed (n : Fin 16) (d : Nat) : sensed (setDuty n d b) = sensed b :=
  (sensed_of_frame (submit_frame _ _ _ _) (by decide)).trans (sensed_updVeh n _ b fun _ => by rfl)

theorem dutyReview_sensed (n : Fin 16) : sensed (dutyReview n b) = sensed b := by
  unfold dutyReview
  split
  · exact setDuty_sensed b n _
  · rfl

theorem startMove_sensed (n : Fin 16) (lock : Bool) (m : Option (Fin 4)) : sensed (startMove n lock m b) = sensed b := by
  unfold startMove
  extract_lets v c t
  split
  · exact (hsEntry_sensed _ _ _ _ _).trans (sensed_updVeh n _ b fun _ => by rfl)
  · rfl

theorem unlockIfDue_sensed (n : Fin 16) : sensed (unlockIfDue n b) = sensed b := by
  unfold unlockIfDue
  extract_lets v
  split
  · split
    · exact startMove_sensed b n _ _
    · exact sensed_updVeh n _ b fun _ => by rfl
  · rfl

/-! #### Sessions that stop -/

theorem endSession_sensed (n : Fin 16) : sensed (endSession n b) = sensed b := by
  unfold endSession
  extract_lets r c d
  have hd : sensed d = sensed b := enterPhase_sensed c n _
  rw [closeItems_sensed]
  exact (sensed_updVeh n _ d fun _ => by rfl).trans hd

theorem stopDone_sensed (n : Fin 16) : sensed (stopDone n b) = sensed b := by
  unfold stopDone
  split
  · exact endSession_sensed b n
  · rfl

theorem stopSession_sensed (n : Fin 16) (r : EndReason) : sensed (stopSession n r b) = sensed b := by
  unfold stopSession
  extract_lets s c
  split
  · split
    · rfl
    split
    · exact enterPhase_sensed c n _
    · exact endSession_sensed c n
  · rfl

theorem stopAll_sensed (r : EndReason) : sensed (stopAll r b) = sensed b := forAll_keeps (q := sensed) (fun n c => stopSession_sensed c n r) _ b

/-! #### Lock-outs and openings -/

theorem coverFaulted_sensed (n : Fin 16) : sensed (coverFaulted n b) = sensed b :=
  (dutyReview_sensed _ n).trans (dykeClear_sensed _ n)

theorem setLock_sensed (s : CScope) (cause : U8) : sensed (setLock s cause b) = sensed b := by
  have hcovered (c : Block) : sensed (reviewHw (forAll s.nodes coverFaulted (saveSafety (lockoutLog 1 s cause (irq 289 c))))) = sensed c := by
    rw [reviewHw_sensed, forAll_keeps (q := sensed) (fun n d => coverFaulted_sensed d n), saveSafety_sensed, lockoutLog_sensed, irq_sensed]
  unfold setLock
  extract_lets held c
  have hc : sensed c = sensed b := by cases s <;> rfl
  split
  · exact hc
  · exact (hcovered c).trans hc

theorem openStop_sensed (r : EndReason) (n : Fin 16) : sensed (openStop r n b) = sensed b := by
  rw [openStop, reasonUnderLoad_sensed, stopSession_sensed, openNow_sensed]

theorem rampedOpen_sensed (n : Fin 16) : sensed (rampedOpen n b) = sensed b := by
  unfold rampedOpen
  extract_lets w r c d
  clear_value w r
  have hc : sensed c = sensed b := dykeClear_sensed _ n
  have hd : sensed d = sensed b := by
    cases r
    case none => exact hc
    case some => exact (reasonUnderLoad_sensed c n _).trans hc
  rw [stopDone_sensed]
  cases w
  case none => exact hd
  case some => exact (setLock_sensed d _ _).trans hd

theorem rampNode_sensed (n : Fin 16) (r : EndReason) : sensed (rampNode n r b) = sensed b := by
  unfold rampNode
  extract_lets c
  have hc : sensed c = sensed b := stopSession_sensed b n r
  split
  · exact hc
  · exact (rampedOpen_sensed c n).trans hc

theorem hubSafeStop_sensed (r : EndReason) : sensed (hubSafeStop r b) = sensed b := by
  unfold hubSafeStop
  extract_lets c d
  have hd : sensed d = sensed c := by
    rw [forAll_keeps (q := sensed) (fun n e => reasonUnderLoad_sensed e n r), stopAll_sensed,
      forAll_keeps (q := sensed) (fun n e => openNow_sensed e n)]
  exact hd.trans (irq_sensed _ 288)

/-! #### Containment -/

theorem applyNode_sensed (mode : OpenMode) (r : EndReason) (n : Fin 16) : sensed (applyNode mode r n b) = sensed b := by
  cases mode
  case immediate => exact openStop_sensed b r n
  case ramped => exact rampNode_sensed b n r
  case hubStop => exact openStop_sensed b r n
  case heldOpen => exact openNow_sensed b n

theorem applyOwn_sensed (f : FaultSpec) : sensed (applyOwn f b) = sensed b := by
  unfold applyOwn
  split
  · rw [onlyIf_keeps (q := sensed) (fun c => setLock_sensed c _ _), hubSafeStop_sensed]
  · extract_lets c
    have hc : sensed c = sensed b := by
      unfold c
      split <;> rfl
    split
    · split
      · exact (rampNode_sensed _ _ _).trans hc
      · exact (setLock_sensed _ _ _).trans ((rampNode_sensed _ _ _).trans hc)
    · rw [onlyIf_keeps (q := sensed) (fun d => setLock_sensed d _ _), forAll_keeps (q := sensed) (fun n d => applyNode_sensed d _ _ n), hc]

theorem applyLane_sensed (l : Fin 8) (r : EndReason) (lock : Bool) (cause : U8) : sensed (applyLane l r lock cause b) = sensed b := by
  have hnode (n : Fin 16) (c : Block) :
      sensed (if (lsOf c n).cmdOn && (nodeOf c n).rampedAt.isNone then rampNode n r c else stopSession n r c) = sensed c := by
    split
    · exact rampNode_sensed c n r
    · exact stopSession_sensed c n r
  unfold applyLane
  extract_lets c d
  rw [onlyIf_keeps (q := sensed) (fun e => setLock_sensed e _ _), forAll_keeps (q := sensed) hnode, laneZero_sensed]

theorem applyHub_sensed (hubStop : Bool) (r : EndReason) (lock : Bool) (cause : U8) : sensed (applyHub hubStop r lock cause b) = sensed b := by
  unfold applyHub
  extract_lets c
  have hc : sensed c = sensed b := by
    cases hubStop
    · exact forAll_keeps (q := sensed) (fun n d => rampNode_sensed d n r) _ b
    · exact hubSafeStop_sensed b r
  rw [onlyIf_keeps (q := sensed) (fun e => setLock_sensed e _ _), hc]

theorem applyWidened_sensed (k : Nat) (hubStop : Bool) (cause : U8) : sensed (applyWidened k hubStop cause b) = sensed b := by
  unfold applyWidened
  extract_lets r lock c l
  have hc : sensed c = sensed b := irq_sensed b 297
  split
  · rw [← hc]
    refine forAll_keeps (q := sensed) (fun s d => ?_) _ _
    cases s
    case lane => exact applyLane_sensed d _ _ _ _
    all_goals rfl
  · exact (applyHub_sensed _ _ _ _ _).trans hc

theorem contain_sensed (f : FaultSpec) : sensed (contain f b) = sensed b := by
  unfold contain containAs
  split
  · rw [applyOwn_sensed, recordFault_sensed]
  · extract_lets c k lvl d e
    have hown : sensed (applyOwn f c) = sensed b := applyOwn_sensed c f
    have hd : sensed d = sensed b := (recordFault_sensed _ _ _ _).trans hown
    have he : sensed e = sensed b := (recordFault_sensed _ _ _ _).trans hown
    split
    · rw [openWindow_sensed, recordFault_sensed, hown]
    split
    · rw [applyWidened_sensed, hd]
    · rw [applyWidened_sensed, updSaf_sensed, he]

/-! #### The pilot -/

theorem pilotLost_sensed (n : Fin 16) : sensed (pilotLost n b) = sensed b := by
  rw [pilotLost, contain_sensed, irq_sensed, sensed_updVeh n _ b fun _ => by rfl]

theorem pilotCheck_sensed (n : Fin 16) : sensed (pilotCheck n b) = sensed b := onlyIf_keeps (q := sensed) (fun c => pilotLost_sensed c n) _ b

theorem pilotEvent_sensed (n : Fin 16) (f : Connector → Connector) : sensed (pilotEvent n f b) = sensed (updVeh n f b) :=
  onlyIf_keeps (q := sensed) (fun c => pilotCheck_sensed c n) _ _

theorem settleStart_sensed (n : Fin 16) : sensed (settleStart n b) = sensed b := by
  have hdue (c : Block) : sensed (updVeh n (fun v => { v with starting := false, unlockDue := true }) c) = sensed c :=
    sensed_updVeh n _ c fun _ => by rfl
  have hheld : sensed (if phaseOf b n = .idle then updVeh n (fun v => { v with starting := false, unlockDue := true }) (enterPhase n .ended b)
      else updVeh n (fun v => { v with starting := false, unlockDue := true }) b) = sensed b := by
    split
    · exact (hdue _).trans (enterPhase_sensed b n _)
    · exact hdue b
  unfold settleStart
  extract_lets v due
  split
  · rfl
  split
  · exact hdue b
  · exact hheld
  · exact hheld
  · exact hheld
  · rfl

theorem idleIfFree_sensed (n : Fin 16) : sensed (idleIfFree n b) = sensed b := by
  unfold idleIfFree
  extract_lets v
  split
  · exact (unlockIfDue_sensed _ n).trans (toIdle_sensed b n)
  · rfl

theorem connect_sensed (n : Fin 16) : sensed (connect n b) = sensed b := by
  unfold connect
  extract_lets v
  split
  · exact (startMove_sensed _ n _ _).trans (enterPhase_sensed b n _)
  · rfl

/-- Looking at what waits for a connector senses nothing anew. -/
theorem pilotReview_sensed (n : Fin 16) : sensed (pilotReview n b) = sensed b := by
  rw [pilotReview, dutyReview_sensed, associate_sensed, connect_sensed, idleIfFree_sensed, unlockIfDue_sensed, settleStart_sensed]

end

end Machine

end Sys2Proof
end

section
/-! PROOFS. The samples of the pilot, and what is confirmed from them: state, diode, sense fault, PP class, the end of a restart and the
cable temperature (R194 to R206). -/

namespace Sys2Proof

open Machine

namespace Machine

/-! ### Samples (R194) -/

theorem pilotSample_of_due {n : Fin 16} {x : PilotReading} {b : Block} (h : nextSample b n x.low = some (now b).toNat) :
    pilotSample n x b = (if x.low then pilotLow n x else pilotHigh n x) (settleDuty n b) := by
  simp only [pilotSample, h, atInstant_of_le le_rfl]

theorem pilotSample_of_none {n : Fin 16} {x : PilotReading} {b : Block} (h : nextSample b n x.low = none) : pilotSample n x b = b := by
  simp only [pilotSample, h]

theorem pilotHigh_highAt (n : Fin 16) (x : PilotReading) (b : Block) : (vehOf (pilotHigh n x b) n).highAt = some (now b) := by
  unfold pilotHigh
  extract_lets v c d
  have hd : (vehOf d n).highAt = (vehOf c n).highAt := onlyIf_keeps (q := fun e => (vehOf e n).highAt) (fun _ => by rfl) _ c
  rw [field_of_sensed Connector.highAt (fun _ => rfl) (pilotReview_sensed _ n), ppSample, vehOf_updVeh_self, rawSample, vehOf_updVeh_self]
  simp only [hd, c, vehOf_updVeh_self]

theorem pilotLow_lowAt (n : Fin 16) (x : PilotReading) (b : Block) : (vehOf (pilotLow n x b) n).lowAt = some (now b) := by
  unfold pilotLow
  extract_lets v good c d
  have hc : (vehOf c n).lowAt = some (now b) := by simp only [c, diodeSample, vehOf_updVeh_self]
  have hnode (f : SafNode → SafNode) : (vehOf (updNode n f c) n).lowAt = some (now b) := hc
  split
  · rw [field_of_sensed Connector.lowAt (fun _ => rfl) (pilotReview_sensed _ n), ppSample, vehOf_updVeh_self, rawSample, vehOf_updVeh_self]
    exact hnode _
  · exact hnode _

theorem pilotSample_highAt {n : Fin 16} {x : PilotReading} {b : Block} (h : nextSample b n x.low = some (now b).toNat)
    (hhigh : x.low = false) : (vehOf (pilotSample n x b) n).highAt = some (now b) := by
  rw [pilotSample_of_due h, if_neg (by simp [hhigh])]
  exact pilotHigh_highAt n x _

theorem pilotSample_lowAt {n : Fin 16} {x : PilotReading} {b : Block} (h : nextSample b n x.low = some (now b).toNat)
    (hlow : x.low = true) : (vehOf (pilotSample n x b) n).lowAt = some (now b) := by
  rw [pilotSample_of_due h, if_pos hlow]
  exact pilotLow_lowAt n x _

/-! ### Events of the pilot (R200) -/

/-- While its pair may not close, no event of a connector is pilot loss. -/
theorem pilotEvent_of_open {n : Fin 16} {b : Block} (h : (phaseOf b n).mayClose = false) (f : Connector → Connector) :
    pilotEvent n f b = updVeh n f b := by
  have hcheck : pilotCheck n (updVeh n f b) = updVeh n f b := by
    simp [pilotCheck, onlyIf, phaseOf_congr (updVeh_sess n f b) (updVeh_saf n f b), h]
  unfold pilotEvent onlyIf
  extract_lets was c
  split
  · exact hcheck
  · rfl

theorem phaseOf_irq (k : Nat) (b : Block) (n : Fin 16) : phaseOf (irq k b) n = phaseOf b n :=
  phaseOf_congr ((irq_frame k b).sess_eq (by decide)) ((irq_frame k b).saf_eq (by decide)) n

theorem vehOf_irq (k : Nat) (b : Block) (n : Fin 16) : vehOf (irq k b) n = vehOf b n := vehOf_congr (irq_veh k b) n

/-- A command that makes a condition of the pilot an event: what its connector becomes and which source it raises while its pair may
not close. -/
theorem event_after {s : State} {g : Block → Block} {n : Fin 16} {f : Connector → Connector} {k : Nat} (hk : 1 ≤ k ∧ k ≤ 510)
    (hg : g s.block = pilotEvent n f (irq k s.block)) :
    (s.after g).block = safetyItem s.block (pilotEvent n f (irq k s.block)) ∧
      ((phaseOf s.block n).mayClose = false → (s.after g).block.veh = vupd s.block.veh n f) ∧
      ((phaseOf s.block n).mayClose = false → Raised (s.after g).block ⟨k, by omega⟩) := by
  have hupd (hopen : (phaseOf s.block n).mayClose = false) : g s.block = updVeh n f (irq k s.block) :=
    hg.trans (pilotEvent_of_open ((phaseOf_irq k s.block n).symm ▸ hopen) f)
  refine ⟨State.after_block hg, fun hopen => ?_, fun hopen => ?_⟩
  · rw [State.after_veh, hupd hopen, updVeh_veh, irq_veh]
  · rw [Raised, State.after_hic, hupd hopen, updVeh_hic]
    exact irq_pends hk _

/-! ### The pilot state (R198, R199) -/

/-- A change between B and C, which the toggles count. -/
def isToggle (x y : CpState) : Bool := match x, y with | .b, .c => true | .c, .b => true | _, _ => false

theorem isToggle_iff (x y : CpState) : isToggle x y = true ↔ (x = .b ∧ y = .c) ∨ (x = .c ∧ y = .b) := by
  cases x <;> cases y <;> decide

/-- A connector whose raw state is confirmed; with `toggle`, the change counts. -/
def Connector.confirmed (toggle : Bool) (v : Connector) : Connector :=
  { v with state := v.raw, toggles := if toggle then v.toggles + 1 else v.toggles }

/-- The raw state is the state, as an event with source 192. -/
def stateTaken (n : Fin 16) (b : Block) : Block :=
  pilotEvent n (Connector.confirmed (isToggle (vehOf b n).state (vehOf b n).raw)) (irq 192 b)

/-- The state that a connector now has may stop its session. -/
def stopAtState (n : Fin 16) (b : Block) : Block :=
  match (vehOf b n).state, phaseOf b n with
  | .b, .charging => stopSession n .evStop b
  | .a, p => if p.isOpen && !p.mayClose then stopSession n .pilotLoss b else b
  | _, _ => b

theorem stopAtState_sensed (n : Fin 16) (b : Block) : sensed (stopAtState n b) = sensed b := by
  unfold stopAtState
  split
  · exact stopSession_sensed b n _
  · split
    · exact stopSession_sensed b n _
    · rfl
  · rfl

theorem cpConfirmed_of_idle {n : Fin 16} {b : Block}
    (h : (vehOf b n).state = (vehOf b n).raw ∨ (vehOf b n).rawRun < b.vehCfg.debounce.toNat) : cpConfirmed n b = b := by
  unfold cpConfirmed
  extract_lets v
  exact if_neg fun ⟨hne, hrun⟩ => h.elim (fun heq => hne heq.symm) hrun.not_gt

section
variable {n : Fin 16} {b : Block} (hrun : b.vehCfg.debounce.toNat ≤ (vehOf b n).rawRun) (hdue : (vehOf b n).rawAt.toNat + 1500 ≤ (now b).toNat)
include hrun hdue

theorem cpConfirmed_of_due (hne : (vehOf b n).raw ≠ (vehOf b n).state) :
    cpConfirmed n b = pilotReview n (stopAtState n (stateTaken n b)) := by
  unfold cpConfirmed
  extract_lets v
  rw [if_pos ⟨hne, hrun⟩, afterTicks_of_le hdue]
  rfl

theorem cpConfirmed_taken (hne : (vehOf b n).raw ≠ (vehOf b n).state) :
    (vehOf (cpConfirmed n b) n).state = (vehOf b n).raw ∧ (vehOf (cpConfirmed n b) n).toggles =
      if isToggle (vehOf b n).state (vehOf b n).raw then (vehOf b n).toggles + 1 else (vehOf b n).toggles := by
  have hsensed : sensed (cpConfirmed n b) = sensed (updVeh n (Connector.confirmed (isToggle (vehOf b n).state (vehOf b n).raw)) (irq 192 b)) := by
    rw [cpConfirmed_of_due hrun hdue hne, pilotReview_sensed, stopAtState_sensed, stateTaken, pilotEvent_sensed]
  rw [field_of_sensed Connector.state (fun _ => rfl) hsensed, field_of_sensed Connector.toggles (fun _ => rfl) hsensed, vehOf_updVeh_self,
    vehOf_irq]
  exact ⟨rfl, rfl⟩

/-- From B to C on a pair that may not close, nothing stops. -/
theorem cpConfirmed_of_b_c (hstate : (vehOf b n).state = .b) (hraw : (vehOf b n).raw = .c) (hopen : (phaseOf b n).mayClose = false) :
    cpConfirmed n b = pilotReview n (updVeh n (fun x => { x with state := .c, toggles := x.toggles + 1 }) (irq 192 b)) := by
  have htaken : stateTaken n b = updVeh n (fun x => { x with state := .c, toggles := x.toggles + 1 }) (irq 192 b) := by
    have htoggle : isToggle (vehOf b n).state (vehOf b n).raw = true := (isToggle_iff _ _).mpr (.inl ⟨hstate, hraw⟩)
    rw [stateTaken, pilotEvent_of_open ((phaseOf_irq 192 b n).symm ▸ hopen), htoggle]
    exact updVeh_congr (by simp only [vehOf_irq, Connector.confirmed, hraw, if_true])
  rw [cpConfirmed_of_due hrun hdue (by simp [hstate, hraw]), htaken, stopAtState, vehOf_updVeh_self]

end

/-! ### The diode and the sense fault (R197, R198) -/

section
variable {n : Fin 16} {b : Block} {i : U64} (hlow : (vehOf b n).lowAt = some i) (hdue : i.toNat + 1500 ≤ (now b).toNat)
include hlow hdue

theorem diodeConfirmed_of_failed (hsound : (vehOf b n).diodeFail = false) (hrun : b.vehCfg.debounce.toNat ≤ (vehOf b n).diodeRun) :
    diodeConfirmed n b = pilotEvent n (fun x => { x with diodeFail := true }) (irq 194 b) := by
  unfold diodeConfirmed
  extract_lets v t
  have ht : t = i := by simp only [t, v, hlow]
  rw [if_pos ⟨by simp only [v, hsound, Bool.not_false], hrun⟩, afterTicks_of_le (ht ▸ hdue)]

theorem diodeConfirmed_of_passed (hfail : (vehOf b n).diodeFail = true) (hrun : b.vehCfg.debounce.toNat ≤ (vehOf b n).diodeOkRun) :
    diodeConfirmed n b = pilotReview n (updVeh n (fun x => { x with diodeFail := false }) b) := by
  unfold diodeConfirmed
  extract_lets v t
  have ht : t = i := by simp only [t, v, hlow]
  have hno : ¬ ((!v.diodeFail) = true ∧ b.vehCfg.debounce.toNat ≤ v.diodeRun) := fun ⟨hsound, _⟩ => by simp [v, hfail] at hsound
  rw [if_neg hno, if_pos ⟨hfail, hrun⟩, afterTicks_of_le (ht ▸ hdue)]

end

theorem senseFault_of_mismatches {n : Fin 16} {b : Block} (hsound : (vehOf b n).senseFault = false) (hrun : 3 ≤ (vehOf b n).mismatchRun) :
    senseFault n b = pilotEvent n (fun x => { x with senseFault := true }) (irq 195 b) := by
  unfold senseFault
  extract_lets v
  exact if_pos ⟨by simp only [v, hsound, Bool.not_false], hrun⟩

theorem senseClear_of_matches {n : Fin 16} {b : Block} (hfault : (vehOf b n).senseFault = true) (hrun : 100 ≤ (vehOf b n).matchRun) :
    senseClear n b = pilotReview n (updVeh n (fun x => { x with senseFault := false }) b) :=
  if_pos ⟨hfault, hrun⟩

/-! ### The PP class (R204) -/

/-- A connector with class `k` as its last class: valid or not, its rating, and the reading at which a valid class gave way. -/
def Connector.withClass (k : Fin 8) (rating : BitVec 10) (valid : Bool) (change : Option U64) (v : Connector) : Connector :=
  { v with ppValid := valid, ppClass := BitVec.ofNat 3 k.val, ppRating := rating, ppChange := change }

theorem ppConfirmed_of_short {n : Fin 16} {b : Block} (h : (vehOf b n).ppRun < b.vehCfg.debounce.toNat) : ppConfirmed n b = b := if_pos h

section
variable {n : Fin 16} {b : Block} (hrun : b.vehCfg.debounce.toNat ≤ (vehOf b n).ppRun)
include hrun

theorem ppConfirmed_of_open (hraw : (vehOf b n).ppRaw = none) (hvalid : (vehOf b n).ppValid = true) :
    ppConfirmed n b = pilotEvent n (fun x => { x with ppValid := false, ppChange := none }) (irq 196 b) := by
  unfold ppConfirmed
  extract_lets v
  simp only [v, if_neg hrun.not_gt, hraw, if_pos hvalid]

variable {k : Fin 8} {r : BitVec 10} (hraw : (vehOf b n).ppRaw = some k)
  (hr : ((ppClassesAt b.vehCfg ((vehOf b n).ppAt.toNat - 30000)).getD k.val {}).rating = r)
include hraw hr

theorem ppConfirmed_of_class (hvalid : (vehOf b n).ppValid = false) (hlater : (vehOf b n).ppChange ≠ some (vehOf b n).ppAt) :
    ppConfirmed n b = pilotReview n (pilotEvent n (Connector.withClass k r true none) (irq 196 b)) := by
  unfold ppConfirmed
  extract_lets v
  simp only [v, if_neg hrun.not_gt, hraw, hr, hvalid, Bool.false_eq_true, false_and, if_false, if_neg hlater]
  rfl

theorem ppConfirmed_of_other (hvalid : (vehOf b n).ppValid = true) (hother : (vehOf b n).ppClass.toNat ≠ k.val) :
    ppConfirmed n b = pilotEvent n (Connector.withClass k r false (some (vehOf b n).ppAt)) (irq 196 b) := by
  unfold ppConfirmed
  extract_lets v
  simp only [v, if_neg hrun.not_gt, hraw, hr, hvalid, hother, and_false, if_false, if_true]
  rfl

theorem ppConfirmed_class_taken (hvalid : (vehOf b n).ppValid = false) (hlater : (vehOf b n).ppChange ≠ some (vehOf b n).ppAt) :
    (vehOf (ppConfirmed n b) n).ppValid = true ∧ (vehOf (ppConfirmed n b) n).ppClass = BitVec.ofNat 3 k.val ∧
      (vehOf (ppConfirmed n b) n).ppRating = r := by
  have hsensed : sensed (ppConfirmed n b) = sensed (updVeh n (Connector.withClass k r true none) (irq 196 b)) := by
    rw [ppConfirmed_of_class hrun hraw hr hvalid hlater, pilotReview_sensed, pilotEvent_sensed]
  rw [field_of_sensed Connector.ppValid (fun _ => rfl) hsensed, field_of_sensed Connector.ppClass (fun _ => rfl) hsensed,
    field_of_sensed Connector.ppRating (fun _ => rfl) hsensed, vehOf_updVeh_self]
  exact ⟨rfl, rfl, rfl⟩

theorem ppConfirmed_class_left (hvalid : (vehOf b n).ppValid = true) (hother : (vehOf b n).ppClass.toNat ≠ k.val) :
    (vehOf (ppConfirmed n b) n).ppValid = false ∧ (vehOf (ppConfirmed n b) n).ppChange = some (vehOf b n).ppAt := by
  have hsensed : sensed (ppConfirmed n b) = sensed (updVeh n (Connector.withClass k r false (some (vehOf b n).ppAt)) (irq 196 b)) := by
    rw [ppConfirmed_of_other hrun hraw hr hvalid hother, pilotEvent_sensed]
  rw [field_of_sensed Connector.ppValid (fun _ => rfl) hsensed, field_of_sensed Connector.ppChange (fun _ => rfl) hsensed, vehOf_updVeh_self]
  exact ⟨rfl, rfl⟩

end

/-! ### The end of a restart, and the cable temperature (R202, R205) -/

theorem cpRestartEnd_of_due {n : Fin 16} {b : Block} {i : U64} (hi : (vehOf b n).restartUntil = some i) (hdue : leadBefore i ≤ (now b).toNat) :
    cpRestartEnd n b = dutyReview n (updVeh n (fun x => { x with restartUntil := none }) b) := by
  simp only [cpRestartEnd, hi, atInstant_of_le hdue]

theorem cableTempMeasure_of_due {n : Fin 16} {b : Block} {i : U64} (x : TempReading) (ref : Nat) (hi : (vehOf b n).tempAt = some i)
    (hdue : i.toNat + 100 * tMs ≤ (now b).toNat) :
    cableTempMeasure n x ref b = cableTemp n (sensorTemp x.first ref) (sensorTemp x.second ref) b := by
  simp only [cableTempMeasure, hi, afterTicks_of_le hdue]

theorem cableTempMeasure_of_first {n : Fin 16} {b : Block} (x : TempReading) (ref : Nat) (hi : (vehOf b n).tempAt = none) :
    cableTempMeasure n x ref b = cableTemp n (sensorTemp x.first ref) (sensorTemp x.second ref) b := by
  simp only [cableTempMeasure, hi]

end Machine

/-- Settles O27: each event is due, so its effect is that of its clause; the review that follows a confirmation, and the containment that
an event may begin, leave what was sensed as the confirmation wrote it. -/
theorem pilotInstants : Obligations.PilotInstants := by
  refine ⟨fun s n x hrep hnext => ?_, fun s n x hrep hnext => ?_, fun s n hne hrun hdue => ?_, fun s n hstate hraw hrun hdue hopen => ?_,
    fun s n hidle => ?_, fun s n i hsound hrun hlow hdue => ?_, fun s n i hfail hrun hlow hdue => ?_, fun s n hsound hrun => ?_,
    fun s n hfault hrun => ?_, fun s n hrun hraw hvalid => ?_, fun s n k hrun hraw hvalid hlater => ?_,
    fun s n k hrun hraw hvalid hother => ?_, fun s n hshort => ?_, fun s n i hi hdue => ?_, fun s n x ref i hrep hi hdue => ?_,
    fun s n x ref hrep hi => ?_⟩
  -- PILOT_SAMPLE
  · have hx : exec (.pilotSample n x) s = .next (s.after (pilotSample n x)) := State.input_eq hrep _
    refine ⟨_, hx, execPilotSample_frame n x hx, State.after_block (pilotSample_of_due hnext), fun hhigh => ?_, fun hlow => ?_⟩
    · rw [vehOf_after, pilotSample_highAt hnext hhigh]
    · rw [vehOf_after, pilotSample_lowAt hnext hlow]
  -- PILOT_SAMPLE where the row has no sample
  · have hx : exec (.pilotSample n x) s = .next (s.after (pilotSample n x)) := State.input_eq hrep _
    exact ⟨_, hx, execPilotSample_frame n x hx, State.after_block (pilotSample_of_none hnext)⟩
  -- CP_STATE_CONFIRMED
  · refine ⟨s.after (cpConfirmed n), rfl, execCpStateConfirmed_frame n rfl, ?_⟩
    simp only [vehOf_after, ← isToggle_iff]
    exact cpConfirmed_taken hrun hdue hne
  -- CP_STATE_CONFIRMED from B to C
  · exact ⟨s.after (cpConfirmed n), rfl, execCpStateConfirmed_frame n rfl,
      State.after_block (cpConfirmed_of_b_c hrun hdue hstate hraw hopen)⟩
  -- CP_STATE_CONFIRMED of the same state, or before the debounce
  · refine ⟨s.after (cpConfirmed n), rfl, execCpStateConfirmed_frame n rfl, ?_⟩
    rw [State.after_veh, State.after_sess, State.after_hic, cpConfirmed_of_idle hidle]
    exact ⟨rfl, rfl, rfl⟩
  -- DIODE_FAILURE_CONFIRMED
  · exact ⟨s.after (diodeConfirmed n), rfl, execDiodeFailureConfirmed_frame n rfl,
      event_after (by decide) (diodeConfirmed_of_failed hlow hdue hsound hrun)⟩
  -- DIODE_FAILURE_CONFIRMED of a failure that has passed
  · have heff := diodeConfirmed_of_passed hlow hdue hfail hrun
    refine ⟨s.after (diodeConfirmed n), rfl, execDiodeFailureConfirmed_frame n rfl, State.after_block heff, ?_⟩
    rw [vehOf_after, heff, field_of_sensed Connector.diodeFail (fun _ => rfl) (pilotReview_sensed _ n), vehOf_updVeh_self]
  -- CP_SENSE_FAULT
  · exact ⟨s.after (senseFault n), rfl, execCpSenseFault_frame n rfl, event_after (by decide) (senseFault_of_mismatches hsound hrun)⟩
  -- CP_SENSE_FAULT_CLEAR
  · have heff := senseClear_of_matches hfault hrun
    refine ⟨s.after (senseClear n), rfl, execCpSenseFaultClear_frame n rfl, State.after_block heff, ?_⟩
    rw [vehOf_after, heff, field_of_sensed Connector.senseFault (fun _ => rfl) (pilotReview_sensed _ n), vehOf_updVeh_self]
  -- PP_CLASS_CONFIRMED without a class
  · exact ⟨s.after (ppConfirmed n), rfl, execPpClassConfirmed_frame n rfl, event_after (by decide) (ppConfirmed_of_open hrun hraw hvalid)⟩
  -- PP_CLASS_CONFIRMED of a class
  · refine ⟨s.after (ppConfirmed n), rfl, execPpClassConfirmed_frame n rfl, ?_⟩
    rw [vehOf_after]
    exact ppConfirmed_class_taken hrun hraw rfl hvalid hlater
  -- PP_CLASS_CONFIRMED of a class other than the valid one
  · refine ⟨s.after (ppConfirmed n), rfl, execPpClassConfirmed_frame n rfl, ?_⟩
    rw [vehOf_after]
    exact ppConfirmed_class_left hrun hraw rfl hvalid hother
  -- PP_CLASS_CONFIRMED before the debounce
  · exact ⟨s.after (ppConfirmed n), rfl, execPpClassConfirmed_frame n rfl, State.after_block (ppConfirmed_of_short hshort)⟩
  -- CP_RESTART_END
  · have heff := cpRestartEnd_of_due hi hdue
    refine ⟨s.after (cpRestartEnd n), rfl, execCpRestartEnd_frame n rfl, State.after_block heff, ?_⟩
    rw [vehOf_after, heff, field_of_sensed Connector.restartUntil (fun _ => rfl) (dutyReview_sensed _ n), vehOf_updVeh_self]
  -- CABLE_TEMP_MEASURE
  · have hx : exec (.cableTempMeasure n x ref) s = .next (s.after (cableTempMeasure n x ref)) := State.input_eq hrep _
    exact ⟨_, hx, execCableTempMeasure_frame n x ref hx, State.after_block (cableTempMeasure_of_due x ref hi hdue)⟩
  -- CABLE_TEMP_MEASURE for the first time
  · have hx : exec (.cableTempMeasure n x ref) s = .next (s.after (cableTempMeasure n x ref)) := State.input_eq hrep _
    exact ⟨_, hx, execCableTempMeasure_frame n x ref hx, State.after_block (cableTempMeasure_of_first x ref hi)⟩

end Sys2Proof
end

section
/-! PROOFS. What ends a move of a cable lock: the stall, the switch-off, the time-out, the open load and the retry (R207). -/

namespace Sys2Proof

open Machine

namespace Machine

/-! ### A move that is neither verified nor waits for its retry -/

section
variable {n : Fin 16} {v : LockMove} {b : Block} (hmove : (vehOf b n).move = some v) (hunverified : v.verified = false)
  (hgoing : v.retryAt = none)
include hmove hunverified hgoing

/-- A stall of 20 ms that began no later than the longest time decides the move by the least time. -/
theorem lockStall_of_stall {i : U64} (hstall : v.stallSince = some i) (hmax : i.toNat ≤ v.start.toNat + v.tMax.toNat * 15000000)
    (hdue : i.toNat + 20 * tMs ≤ (now b).toNat) :
    lockStall n b = if i.toNat < v.start.toNat + v.tMin.toNat * 15000000 then lockFail n v b else lockVerified n v b := by
  have hdecides : ¬ (v.verified = true ∨ v.retryAt.isSome = true ∨ v.start.toNat + v.tMax.toNat * 15000000 < i.toNat) := by
    simp [hunverified, hgoing, hmax]
  simp only [lockStall, hmove, hstall, if_neg hdecides, afterTicks_of_le hdue]

theorem lockTimeout_of_due (hnone : v.stallSince = none) (hdue : v.start.toNat + v.tMax.toNat * 15000000 ≤ (now b).toNat) :
    lockTimeout n b = lockFail n v b := by
  have hdecides : ¬ (v.verified = true ∨ v.retryAt.isSome = true ∨ false = true) := by simp [hunverified, hgoing]
  simp only [lockTimeout, hmove, hnone, if_neg hdecides, atInstant_of_le hdue]

theorem lockOpenLoad_of_due {i : U64} (hlow : v.lowSince = some i) (hdue : i.toNat + 100 * tMs ≤ (now b).toNat) :
    lockOpenLoad n b = lockFail n v b := by
  have hdecides : ¬ (v.verified = true ∨ v.retryAt.isSome = true) := by simp [hunverified, hgoing]
  simp only [lockOpenLoad, hmove, hlow, if_neg hdecides, afterTicks_of_le hdue]

end

/-! ### The switch-off and the retry -/

theorem lockOffDelay_of_due {n : Fin 16} {v : LockMove} {b : Block} {i : U64} (hmove : (vehOf b n).move = some v) (hoff : v.offAt = some i)
    (hdue : leadBefore i ≤ (now b).toNat) :
    lockOffDelay n b = pilotReview n (updVeh n (fun x => { x with move := none }) (moveOff n v b)) := by
  simp only [lockOffDelay, hmove, hoff, atInstant_of_le hdue]

/-- The second attempt at move `v` of connector `n`: it starts at the first free instant of its channel, under the settings in force. -/
def secondMove (n : Fin 16) (v : LockMove) (b : Block) : LockMove :=
  { v with
    start := ringFree b 129 tgSwitch (moveChan (vehOf b n) v) (ahead b fwLead), second := true, retryAt := none
    tMin := b.vehCfg.lockMin, tMax := b.vehCfg.lockMax, stallThr := b.vehCfg.stallThr }

theorem lockRetry_of_due {n : Fin 16} {v : LockMove} {b : Block} {i : U64} (hmove : (vehOf b n).move = some v) (hretry : v.retryAt = some i)
    (hdue : i.toNat ≤ (now b).toNat) :
    lockRetry n b = hsEntry 129 (moveChan (vehOf b n) v) 1 (secondMove n v b).start
      (updVeh n (fun x => { x with move := some (secondMove n v b) }) b) := by
  simp only [lockRetry, hmove, hretry, atInstant_of_le hdue, secondMove]

theorem lockRetry_of_rest {n : Fin 16} {b : Block} (hmove : (vehOf b n).move = none) : lockRetry n b = b := by
  simp only [lockRetry, hmove]

end Machine

/-- Settles O28: each event is due, so it is the operation of its clause; the entry of a retry leaves the connectors as the retry wrote
them. -/
theorem lockInstants : Obligations.LockInstants := by
  refine ⟨fun s n v i hrep hmove hstall hunverified hgoing hmax hmin hdue => ?_,
    fun s n v i hrep hmove hstall hunverified hgoing hmax hmin hdue => ?_, fun s n v i hmove hoff hdue => ?_,
    fun s n v hmove hunverified hgoing hnone hdue => ?_, fun s n v i hrep hmove hlow hunverified hgoing hdue => ?_,
    fun s n v i hmove hretry hdue => ?_, fun s n hmove => ?_⟩
  -- LOCK_STALL_CONFIRMED at or after the least time
  · have hx : exec (.lockStallConfirmed n) s = .next (s.after (lockStall n)) := State.input_eq hrep _
    exact ⟨_, hx, execLockStallConfirmed_frame n hx,
      State.after_block ((lockStall_of_stall hmove hunverified hgoing hstall hmax hdue).trans (if_neg hmin.not_gt))⟩
  -- LOCK_STALL_CONFIRMED before it
  · have hx : exec (.lockStallConfirmed n) s = .next (s.after (lockStall n)) := State.input_eq hrep _
    exact ⟨_, hx, execLockStallConfirmed_frame n hx,
      State.after_block ((lockStall_of_stall hmove hunverified hgoing hstall hmax hdue).trans (if_pos hmin))⟩
  -- LOCK_OFF_DELAY
  · exact ⟨s.after (lockOffDelay n), rfl, execLockOffDelay_frame n rfl, State.after_block (lockOffDelay_of_due hmove hoff hdue)⟩
  -- LOCK_TIMEOUT
  · exact ⟨s.after (lockTimeout n), rfl, execLockTimeout_frame n rfl,
      State.after_block (lockTimeout_of_due hmove hunverified hgoing hnone hdue)⟩
  -- LOCK_OPEN_LOAD
  · have hx : exec (.lockOpenLoad n) s = .next (s.after (lockOpenLoad n)) := State.input_eq hrep _
    exact ⟨_, hx, execLockOpenLoad_frame n hx, State.after_block (lockOpenLoad_of_due hmove hunverified hgoing hlow hdue)⟩
  -- LOCK_RETRY
  · have hveh : (s.after (lockRetry n)).block.veh = (updVeh n (fun x => { x with move := some (secondMove n v s.block) }) s.block).veh := by
      rw [State.after_veh, lockRetry_of_due hmove hretry hdue, hsEntry_veh]
    refine ⟨s.after (lockRetry n), rfl, execLockRetry_frame n rfl, ?_, fun k hk => ?_⟩
    · rw [vehOf_congr hveh, vehOf_updVeh_self, secondMove]
    · rw [vehOf_congr hveh, vehOf_updVeh_ne hk]
  -- LOCK_RETRY without a move
  · refine ⟨s.after (lockRetry n), rfl, execLockRetry_frame n rfl, ?_⟩
    rw [State.after_veh, State.after_qmg, lockRetry_of_rest hmove]
    exact ⟨rfl, rfl⟩

end Sys2Proof
end

section
/-! PROOFS. The commands of the connector family (R202 to R212): what each makes of the connectors and their settings, and that its answer
stands. -/

namespace Sys2Proof

open Machine

namespace Machine

/-! ### What the stored settings, the log, the orders and the answer leave -/

@[simp] theorem saveSettings_veh (b : Block) : (saveSettings b).veh = b.veh := (saveSettings_frame b).veh_eq (by decide)
@[simp] theorem saveSettings_vehCfg (b : Block) : (saveSettings b).vehCfg = b.vehCfg := (saveSettings_frame b).vehCfg_eq (by decide)
@[simp] theorem cmdLog_vehCfg (m : Fin 4) (status : Nat) (b : Block) : (cmdLog m status b).vehCfg = b.vehCfg :=
  (cmdLog_frame _ _ b).vehCfg_eq (by decide)
@[simp] theorem ok_veh (m : Fin 4) (p : List U8) (b : Block) : (ok m p b).veh = b.veh := (ok_frame m p b).veh_eq (by decide)
@[simp] theorem ok_vehCfg (m : Fin 4) (p : List U8) (b : Block) : (ok m p b).vehCfg = b.vehCfg := (ok_frame m p b).vehCfg_eq (by decide)
@[simp] theorem dutyReview_mbx (n : Fin 16) (b : Block) : (dutyReview n b).mbx = b.mbx := (dutyReview_frame n b).mbx_eq (by decide)

theorem ok_answered (m : Fin 4) (p : List U8) (b : Block) : (mbxOf (ok m p b) m).answered = true := by
  rw [mbxOf, ok, respond_mbx, vget_vset_self]

theorem rBit_congr {b c : Block} (h : c.mbx = b.mbx) (m : Fin 4) (o k : Nat) : rBit c m o k = rBit b m o k := by
  rw [rBit, rB, mbxOf, h, rBit, rB, mbxOf]

/-- A refused command answers its status and leaves the connectors. -/
theorem refused_keeps_veh {s : State} {f : Block → Block} {m : Fin 4} {status : Nat} (hf : f s.block = refuse m status s.block) :
    Answered s (s.after f) m status [] ∧ (s.after f).block.veh = s.block.veh :=
  ⟨answered_of_refuse hf, (after_refuse_frame hf).veh_eq (by decide)⟩

/-- A refused command answers its status and leaves the settings of the connectors. -/
theorem refused_keeps_vehCfg {s : State} {f : Block → Block} {m : Fin 4} {status : Nat} (hf : f s.block = refuse m status s.block) :
    Answered s (s.after f) m status [] ∧ (s.after f).block.vehCfg = s.block.vehCfg :=
  ⟨answered_of_refuse hf, (after_refuse_frame hf).vehCfg_eq (by decide)⟩

/-! ### VEH_GET_CONNECTOR -/

theorem vehGetConnector_of_node {m : Fin 4} {b : Block} (hnode : (nodeCheck 0x0601 b m).2 = true) :
    vehGetConnector m b = ok m (b32s [cpStatWord b (vehOf b (reqNode b m)), cpLevelWord (vehOf b (reqNode b m)), ppWord (vehOf b (reqNode b m)),
      tempWord (vehOf b (reqNode b m)), lockWord (vehOf b (reqNode b m)), capWord (vehOf b (reqNode b m))]) b := by
  unfold vehGetConnector
  extract_lets v
  rw [checked_cons_pass hnode, checked_nil]

/-! ### VEH_SET_AVAILABILITY (R202) -/

/-- A connector with its two bits; one that is not available is not restarted. -/
def Connector.withAvailability (available vent : Bool) (v : Connector) : Connector :=
  { v with available := available, ventOk := vent, restartUntil := if available then v.restartUntil else none }

/-- A session on a connector that is to be unavailable stops. -/
def availabilityStop (m : Fin 4) (b : Block) : Block :=
  onlyIf (!rBit b m 1 0 && (sessOf b (reqNode b m)).phase.mayClose) (stopSession (reqNode b m) .operator) b

/-- The connector that mailbox `m` names has the two bits of the request. -/
def availabilitySet (m : Fin 4) (b : Block) : Block :=
  updVeh (reqNode b m) (Connector.withAvailability (rBit b m 1 0) (rBit b m 1 1)) (availabilityStop m b)

theorem availabilityStop_mbx (m : Fin 4) (b : Block) : (availabilityStop m b).mbx = b.mbx :=
  onlyIf_keeps (q := Block.mbx) (fun c => (stopSession_frame _ _ c).mbx_eq (by decide)) _ b

theorem vehSetAvailability_of_pass {m : Fin 4} {b : Block} (hnode : (nodeCheck 0x0601 b m).2 = true)
    (hsupply : rBit b m 1 0 = true → (lsOf b (reqNode b m)).supply ≠ 0x3F) :
    vehSetAvailability m b = ok m (b64 (dutyInstant (availabilitySet m b) (reqNode b m)))
      (saveSettings (dutyReview (reqNode b m) (availabilitySet m b))) := by
  have hvent : rBit (availabilityStop m b) m 1 1 = rBit b m 1 1 := rBit_congr (availabilityStop_mbx m b) m 1 1
  have hsupplied : (!rBit b m 1 0 || (lsOf b (reqNode b m)).supply != 0x3F) = true := by
    cases hav : rBit b m 1 0
    · rfl
    · exact bne_iff_ne.mpr (hsupply hav)
  rw [availabilitySet, ← hvent]
  unfold vehSetAvailability
  extract_lets n av
  rw [checked_cons_pass hnode, checked_cons_pass hsupplied, checked_nil]
  rfl

theorem vehSetAvailability_of_unsupplied {m : Fin 4} {b : Block} (hnode : (nodeCheck 0x0601 b m).2 = true) (hav : rBit b m 1 0 = true)
    (hnone : (lsOf b (reqNode b m)).supply = 0x3F) : vehSetAvailability m b = refuse m 0x0604 b := by
  unfold vehSetAvailability
  extract_lets n av
  rw [checked_cons_pass hnode, checked_cons_fail (by simp [av, n, hav, hnone])]

/-- The bits stand whatever duty is ordered for them. -/
theorem vehSetAvailability_sets {m : Fin 4} {b : Block} (hnode : (nodeCheck 0x0601 b m).2 = true)
    (hsupply : rBit b m 1 0 = true → (lsOf b (reqNode b m)).supply ≠ 0x3F) :
    (vehOf (vehSetAvailability m b) (reqNode b m)).available = rBit b m 1 0 ∧
      (vehOf (vehSetAvailability m b) (reqNode b m)).ventOk = rBit b m 1 1 := by
  have hsensed : sensed (vehSetAvailability m b) = sensed (availabilitySet m b) := by
    rw [vehSetAvailability_of_pass hnode hsupply, sensed_of_frame (ok_frame _ _ _) (by decide),
      sensed_of_frame (saveSettings_frame _) (by decide), dutyReview_sensed]
  rw [field_of_sensed Connector.available (fun _ => rfl) hsensed, field_of_sensed Connector.ventOk (fun _ => rfl) hsensed, availabilitySet,
    vehOf_updVeh_self]
  exact ⟨rfl, rfl⟩

/-! ### VEH_SET_PILOT_CFG, VEH_SET_PP_CLASS and VEH_SET_DERATE (R204, R206) -/

theorem vehSetPilotCfg_of_pass {m : Fin 4} {b : Block} (hlo : 1 ≤ rN b m 0 1) (hhi : rN b m 0 1 ≤ 15) :
    vehSetPilotCfg m b = ok m [] (saveSettings { b with vehCfg := { b.vehCfg with debounce := BitVec.ofNat 4 (rN b m 0 1) } }) := by
  unfold vehSetPilotCfg
  extract_lets d
  rw [checked_cons_pass (decide_eq_true ⟨hlo, hhi⟩), checked_nil]

theorem vehSetPilotCfg_of_range {m : Fin 4} {b : Block} (h : rN b m 0 1 = 0 ∨ 15 < rN b m 0 1) : vehSetPilotCfg m b = refuse m 0x0602 b := by
  unfold vehSetPilotCfg
  extract_lets d
  exact checked_cons_fail (decide_eq_false (by omega)) _ _

/-- The settings with the eight classes of a request from now. -/
def classesFrom (m : Fin 4) (b : Block) : VehCfg :=
  { b.vehCfg with
    ppOld := if b.vehCfg.ppFrom.toNat ≤ (now b).toNat then b.vehCfg.ppClasses else b.vehCfg.ppOld
    ppClasses := (List.range 8).map (reqPpClass b m), ppFrom := now b }

theorem vehSetPpClass_of_pass {m : Fin 4} {b : Block}
    (hrange : ((List.range 8).map (reqPpClass b m)).all (fun c => !c.valid ||
      decide (90 ≤ c.centre.toNat ∧ c.centre.toNat ≤ 2000 ∧ 1 ≤ c.rating.toNat ∧ c.rating.toNat ≤ 600)) = true)
    (hapart : ppTableOverlaps ((List.range 8).map (reqPpClass b m)) = false) :
    vehSetPpClass m b = cmdLog m 0 (ok m [] (saveSettings { b with vehCfg := classesFrom m b })) := by
  unfold vehSetPpClass
  extract_lets l good
  rw [checked_cons_pass hrange, checked_cons_pass (by simp only [l, hapart, Bool.not_false]), checked_nil]
  rfl

/-- The settings with the derating limits of a request from now. -/
def derateFromNow (m : Fin 4) (b : Block) : VehCfg :=
  { b.vehCfg with
    tStartOld := b.vehCfg.tStart, tEndOld := b.vehCfg.tEnd, derateFrom := now b, tStart := BitVec.ofNat 8 (rN b m 0 1)
    tEnd := BitVec.ofNat 8 (rN b m 1 1) }

theorem vehSetDerate_of_pass {m : Fin 4} {b : Block} (hlo : 60 ≤ rN b m 0 1) (hlt : rN b m 0 1 < rN b m 1 1) (hhi : rN b m 1 1 ≤ 160) :
    vehSetDerate m b = cmdLog m 0 (ok m [] (saveSettings { b with vehCfg := derateFromNow m b })) := by
  unfold vehSetDerate
  extract_lets s e
  rw [checked_cons_pass (decide_eq_true ⟨hlo, hlt, hhi⟩), checked_nil]
  rfl

theorem vehSetDerate_of_low {m : Fin 4} {b : Block} (h : rN b m 0 1 < 60) : vehSetDerate m b = refuse m 0x0602 b := by
  unfold vehSetDerate
  extract_lets s e
  exact checked_cons_fail (decide_eq_false fun ⟨hlo, _⟩ => hlo.not_gt h) _ _

/-! ### VEH_SET_LOCK_CFG (R212) -/

/-- The settings with the times and the stall threshold of a request. -/
def lockTimesSet (m : Fin 4) (b : Block) : VehCfg :=
  { b.vehCfg with
    lockMin := BitVec.ofNat 8 (fieldOf (rN b m 4 4) 0 8), lockMax := BitVec.ofNat 8 (fieldOf (rN b m 4 4) 8 8)
    stallThr := BitVec.ofNat 12 (fieldOf (rN b m 4 4) 16 12) }

/-- A connector with its two lock channels. -/
def Connector.withChannels (lock unlock : Nat) (v : Connector) : Connector :=
  { v with lockCh := BitVec.ofNat 6 lock, unlockCh := BitVec.ofNat 6 unlock }

theorem vehSetLockCfg_of_pass {m : Fin 4} {b : Block} (hnode : (nodeCheck 0x0601 b m).2 = true)
    (hlock : rN b m 1 1 < 40) (hunlock : rN b m 2 1 < 40) (hne : rN b m 1 1 ≠ rN b m 2 1)
    (htimes : fieldOf (rN b m 4 4) 0 8 < fieldOf (rN b m 4 4) 8 8) (hzero : fieldOf (rN b m 4 4) 28 4 = 0)
    (hphase : phaseOf b (reqNode b m) = .idle) (hrest : (vehOf b (reqNode b m)).move = none)
    (hfreeLock : lockChanFree b (reqNode b m) (rN b m 1 1) = true) (hfreeUnlock : lockChanFree b (reqNode b m) (rN b m 2 1) = true) :
    vehSetLockCfg m b = ok m [] (saveSettings
      { updVeh (reqNode b m) (Connector.withChannels (rN b m 1 1) (rN b m 2 1)) b with vehCfg := lockTimesSet m b }) := by
  unfold vehSetLockCfg
  extract_lets n l u w chanOk
  rw [checked_cons_pass hnode, checked_cons_pass (by simp [chanOk, l, u, w, hlock, hunlock, hne, htimes, hzero]),
    checked_cons_pass (by simp [n, hphase, hrest]), checked_cons_pass (by simp only [n, l, u, hfreeLock, hfreeUnlock, Bool.and_self]),
    checked_nil]
  rfl

/-! ### VEH_LOCK (R207) -/

section
variable {m : Fin 4} {b : Block} (hnode : (nodeCheck 0x0601 b m).2 = true)
include hnode

theorem vehLock_of_lock (hask : rN b m 1 1 = 1) (hchan : (vehOf b (reqNode b m)).lockCh ≠ 0x3F) (hrest : (vehOf b (reqNode b m)).move = none) :
    vehLock m b = startMove (reqNode b m) true (some m) b := by
  unfold vehLock
  extract_lets n lock v
  have hlock : lock = true := by simp only [lock, hask, beq_self_eq_true]
  rw [checked_cons_pass hnode, checked_cons_pass (by simpa [hask, hlock] using hchan), checked_cons_pass (by simp [v, n, hrest]),
    checked_cons_pass (by simp only [hlock, Bool.true_or]), checked_nil, hlock]

theorem vehLock_of_no_channel (hask : rN b m 1 1 = 1) (hnone : (vehOf b (reqNode b m)).lockCh = 0x3F) : vehLock m b = refuse m 0x0602 b := by
  unfold vehLock
  extract_lets n lock v
  have hlock : lock = true := by simp only [lock, hask, beq_self_eq_true]
  rw [checked_cons_pass hnode, checked_cons_fail (by simpa [hask, hlock] using hnone)]

variable (hask : rN b m 1 1 = 0) (hchan : (vehOf b (reqNode b m)).unlockCh ≠ 0x3F) (hrest : (vehOf b (reqNode b m)).move = none)
include hask hchan hrest

/-- An unlock move begins when it is safe (R208). -/
theorem vehLock_of_unlock :
    vehLock m b = if unlockSafe b (reqNode b m) then startMove (reqNode b m) false (some m) b else refuse m 0x0606 b := by
  unfold vehLock
  extract_lets n lock v
  have hlock : lock = false := by simp [lock, hask]
  rw [checked_cons_pass hnode, checked_cons_pass (by simpa [hask, hlock] using hchan), checked_cons_pass (by simp [v, n, hrest])]
  split
  · next hsafe => rw [checked_cons_pass (by simp only [n, hlock, hsafe, Bool.or_true]), checked_nil, hlock]
  · next hunsafe => rw [checked_cons_fail (by simpa [hlock] using hunsafe)]

end

/-! ### VEH_CP_RESTART (R202) -/

/-- The end of a restart of `d` ms that begins with the next period for which an entry can be made. -/
def restartEnd (d : Nat) (n : Fin 16) (b : Block) : U64 := dutyInstant b n + BitVec.ofNat 64 (d * tMs)

theorem vehCpRestart_of_pass {m : Fin 4} {b : Block} (hnode : (nodeCheck 0x0601 b m).2 = true) (hlo : 100 ≤ rN b m 2 2) (hhi : rN b m 2 2 ≤ 4000)
    (hphase : phaseOf b (reqNode b m) = .connected ∨ phaseOf b (reqNode b m) = .associating ∨ phaseOf b (reqNode b m) = .negotiating) :
    vehCpRestart m b = ok m (b64 (dutyInstant b (reqNode b m))) (dutyReview (reqNode b m)
      (updVeh (reqNode b m) (fun v => { v with restartUntil := some (restartEnd (rN b m 2 2) (reqNode b m) b) }) b)) := by
  unfold vehCpRestart
  extract_lets n d okPhase
  have hok : okPhase = true := by
    rcases hphase with h | h | h
    all_goals simp only [okPhase, n, h]
  rw [checked_cons_pass hnode, checked_cons_pass (decide_eq_true ⟨hlo, hhi⟩), checked_cons_pass hok, checked_nil]
  rfl

theorem vehCpRestart_of_short {m : Fin 4} {b : Block} (hnode : (nodeCheck 0x0601 b m).2 = true) (h : rN b m 2 2 < 100) :
    vehCpRestart m b = refuse m 0x0602 b := by
  unfold vehCpRestart
  extract_lets n d okPhase
  rw [checked_cons_pass hnode, checked_cons_fail (decide_eq_false fun ⟨hlo, _⟩ => hlo.not_gt h)]

/-! ### VEH_CLEAR_COUNTS -/

/-- A change of the connectors of a list without repetitions reaches those and no other. -/
theorem vehOf_forAll_updVeh {ns : List (Fin 16)} (hns : ns.Nodup) (f : Connector → Connector) (b : Block) (k : Fin 16) :
    vehOf (forAll ns (fun n => updVeh n f) b) k = if k ∈ ns then f (vehOf b k) else vehOf b k := by
  induction ns generalizing b with
  | nil => simp [forAll]
  | cons n ns ih =>
    obtain ⟨hn, hrest⟩ := List.nodup_cons.mp hns
    refine (ih hrest _).trans ?_
    by_cases hk : k = n
    · subst hk
      simp [hn]
    · simp only [vehOf_updVeh_ne hk, List.mem_cons, hk, false_or]

theorem nodesOf_nodup (mask : Nat) : (nodesOf mask).Nodup := (List.nodup_finRange 16).filter _

theorem mem_nodesOf {mask : Nat} {k : Fin 16} : k ∈ nodesOf mask ↔ bitOf mask k.val = true := by
  simp [nodesOf, allNodes]

/-- The two pilot counts of the connectors that the request names are 0. -/
def pilotCountsCleared (m : Fin 4) (b : Block) : Block :=
  forAll (nodesOf (rN b m 0 2)) (fun n => updVeh n fun v => { v with invalidCnt := 0, diodeCnt := 0 }) b

theorem pilotCountsCleared_mbx (m : Fin 4) (b : Block) : (pilotCountsCleared m b).mbx = b.mbx :=
  forAll_keeps (q := Block.mbx) (fun _ _ => by rfl) _ b

theorem vehOf_pilotCountsCleared (m : Fin 4) (b : Block) (k : Fin 16) :
    vehOf (pilotCountsCleared m b) k =
      if bitOf (rN b m 0 2) k.val then { vehOf b k with invalidCnt := 0, diodeCnt := 0 } else vehOf b k := by
  simp only [pilotCountsCleared, vehOf_forAll_updVeh (nodesOf_nodup _), mem_nodesOf]

end Machine

/-- Settles O29: each request runs the effect of its command once its checks hold; the stored settings, the duty ordered, the answer and the
log entry leave the connectors and their settings as the command wrote them. -/
theorem connectorCommands : Obligations.ConnectorCommands := by
  refine ⟨fun s m ha hnode => ?_, fun s m ha hnode hsupply => ?_, fun s m ha hnode hav hnone => ?_, fun s m ha hlo hhi => ?_,
    fun s m ha hout => ?_, fun s m ha hrange hapart => ?_, fun s m ha hlo hlt hhi => ?_, fun s m ha hlow => ?_,
    fun s m ha hnode hlock hunlock hne htimes hzero hphase hrest hfreeLock hfreeUnlock => ?_, fun s m ha hnode hask hchan hrest => ?_,
    fun s m ha hnode hask hchan hrest hsafe => ?_, fun s m ha hnode hask hchan hrest hsafe => ?_, fun s m ha hnode hask hnone => ?_,
    fun s m ha hnode hlo hhi hphase => ?_, fun s m ha hnode hshort => ?_, fun s m ha => ?_⟩
  -- VEH_GET_CONNECTOR
  · have hx : exec (.vehGetConnector m) s = .next (s.after (vehGetConnector m)) := run_of_asked ha _
    exact ⟨_, hx, execVehGetConnector_frame m hx, answered_of_respond (vehGetConnector_of_node hnode) rfl (by simp)⟩
  -- VEH_SET_AVAILABILITY
  · have hx : exec (.vehSetAvailability m) s = .next (s.after (vehSetAvailability m)) := run_of_asked ha _
    obtain ⟨havailable, hvent⟩ := vehSetAvailability_sets hnode hsupply
    refine ⟨_, hx, execVehSetAvailability_frame m hx, (congrArg _ (vehOf_after _ _ _)).trans havailable,
      (congrArg _ (vehOf_after _ _ _)).trans hvent, ?_⟩
    rw [mbxOf, State.after_mbx, vehSetAvailability_of_pass hnode hsupply]
    exact ok_answered m _ _
  -- VEH_SET_AVAILABILITY without a supply
  · have hx : exec (.vehSetAvailability m) s = .next (s.after (vehSetAvailability m)) := run_of_asked ha _
    exact ⟨_, hx, execVehSetAvailability_frame m hx, refused_keeps_veh (vehSetAvailability_of_unsupplied hnode hav hnone)⟩
  -- VEH_SET_PILOT_CFG
  · have hx : exec (.vehSetPilotCfg m) s = .next (s.after (vehSetPilotCfg m)) := run_of_asked ha _
    have heff := vehSetPilotCfg_of_pass hlo hhi
    refine ⟨_, hx, execVehSetPilotCfg_frame m hx, answered_of_respond heff (by simp) (by simp), ?_⟩
    rw [State.after_vehCfg, heff, ok_vehCfg, saveSettings_vehCfg]
  -- VEH_SET_PILOT_CFG out of range
  · have hx : exec (.vehSetPilotCfg m) s = .next (s.after (vehSetPilotCfg m)) := run_of_asked ha _
    exact ⟨_, hx, execVehSetPilotCfg_frame m hx, refused_keeps_vehCfg (vehSetPilotCfg_of_range hout)⟩
  -- VEH_SET_PP_CLASS
  · have hx : exec (.vehSetPpClass m) s = .next (s.after (vehSetPpClass m)) := run_of_asked ha _
    have heff := vehSetPpClass_of_pass hrange hapart
    refine ⟨_, hx, execVehSetPpClass_frame m hx, answered_of_logged heff (by simp) (by simp), ?_⟩
    rw [State.after_vehCfg, heff, cmdLog_vehCfg, ok_vehCfg, saveSettings_vehCfg]
    exact ⟨rfl, rfl⟩
  -- VEH_SET_DERATE
  · have hx : exec (.vehSetDerate m) s = .next (s.after (vehSetDerate m)) := run_of_asked ha _
    have heff := vehSetDerate_of_pass hlo hlt hhi
    refine ⟨_, hx, execVehSetDerate_frame m hx, answered_of_logged heff (by simp) (by simp), ?_⟩
    rw [State.after_vehCfg, heff, cmdLog_vehCfg, ok_vehCfg, saveSettings_vehCfg]
    exact ⟨rfl, rfl, rfl, rfl⟩
  -- VEH_SET_DERATE that starts below 60
  · have hx : exec (.vehSetDerate m) s = .next (s.after (vehSetDerate m)) := run_of_asked ha _
    exact ⟨_, hx, execVehSetDerate_frame m hx, refused_keeps_vehCfg (vehSetDerate_of_low hlow)⟩
  -- VEH_SET_LOCK_CFG
  · have hx : exec (.vehSetLockCfg m) s = .next (s.after (vehSetLockCfg m)) := run_of_asked ha _
    have heff := vehSetLockCfg_of_pass hnode hlock hunlock hne htimes hzero hphase hrest hfreeLock hfreeUnlock
    have hveh : (s.after (vehSetLockCfg m)).block.veh =
        (updVeh (reqNode s.block m) (Connector.withChannels (rN s.block m 1 1) (rN s.block m 2 1)) s.block).veh := by
      rw [State.after_veh, heff, ok_veh, saveSettings_veh]
    refine ⟨_, hx, execVehSetLockCfg_frame m hx, answered_of_respond heff (by simp) (by simp), ?_⟩
    rw [vehOf_congr hveh, vehOf_updVeh_self, State.after_vehCfg, heff, ok_vehCfg, saveSettings_vehCfg]
    exact ⟨rfl, rfl, rfl, rfl, rfl⟩
  -- VEH_LOCK to lock
  · have hx : exec (.vehLock m) s = .next (s.after (vehLock m)) := run_of_asked ha _
    exact ⟨_, hx, execVehLock_frame m hx, State.after_block (vehLock_of_lock hnode hask hchan hrest)⟩
  -- VEH_LOCK to unlock
  · have hx : exec (.vehLock m) s = .next (s.after (vehLock m)) := run_of_asked ha _
    exact ⟨_, hx, execVehLock_frame m hx, State.after_block ((vehLock_of_unlock hnode hask hchan hrest).trans (if_pos hsafe))⟩
  -- VEH_LOCK to unlock while that is not safe
  · have hx : exec (.vehLock m) s = .next (s.after (vehLock m)) := run_of_asked ha _
    exact ⟨_, hx, execVehLock_frame m hx,
      refused_keeps_veh ((vehLock_of_unlock hnode hask hchan hrest).trans (if_neg (Bool.eq_false_iff.mp hsafe)))⟩
  -- VEH_LOCK without a lock channel
  · have hx : exec (.vehLock m) s = .next (s.after (vehLock m)) := run_of_asked ha _
    exact ⟨_, hx, execVehLock_frame m hx, refused_keeps_veh (vehLock_of_no_channel hnode hask hnone)⟩
  -- VEH_CP_RESTART
  · have hx : exec (.vehCpRestart m) s = .next (s.after (vehCpRestart m)) := run_of_asked ha _
    have heff := vehCpRestart_of_pass hnode hlo hhi hphase
    refine ⟨_, hx, execVehCpRestart_frame m hx, answered_of_respond heff (by simp) (by simp), ?_⟩
    rw [vehOf_after, heff, vehOf_congr (ok_veh _ _ _), field_of_sensed Connector.restartUntil (fun _ => rfl) (dutyReview_sensed _ _),
      vehOf_updVeh_self, restartEnd]
  -- VEH_CP_RESTART below 100 ms
  · have hx : exec (.vehCpRestart m) s = .next (s.after (vehCpRestart m)) := run_of_asked ha _
    exact ⟨_, hx, execVehCpRestart_frame m hx, refused_keeps_veh (vehCpRestart_of_short hnode hshort)⟩
  -- VEH_CLEAR_COUNTS
  · have hx : exec (.vehClearCounts m) s = .next (s.after (vehClearCounts m)) := run_of_asked ha _
    have heff : vehClearCounts m s.block = ok m [] (pilotCountsCleared m s.block) := rfl
    refine ⟨_, hx, execVehClearCounts_frame m hx, answered_of_respond heff (pilotCountsCleared_mbx _ _) (by simp), fun k => ?_⟩
    rw [vehOf_after, heff, vehOf_congr (ok_veh _ _ _), vehOf_pilotCountsCleared]

end Sys2Proof
end

section
/-! PROOFS. Modems, SLAC runs and V2G sessions read through an update, a frame or a command, and what a change of phase leaves of the
lock-outs (R217, R222, R228, R278). -/

namespace Sys2Proof

open Machine

theorem vupd_vupd {α : Type} {n : Nat} (v : Vector α n) (i : Fin n) (f g : α → α) : vupd (vupd v i f) i g = vupd v i fun x => g (f x) := by
  simp [vupd]

namespace Block.Only

variable {l : List Part} {b c : Block}

theorem plc_eq (h : Block.Only l b c) (hp : Part.plc ∉ l) : c.plc = b.plc := h .plc hp
theorem plcCfg_eq (h : Block.Only l b c) (hp : Part.plcCfg ∉ l) : c.plcCfg = b.plcCfg := h .plcCfg hp
theorem v2g_eq (h : Block.Only l b c) (hp : Part.v2g ∉ l) : c.v2g = b.v2g := h .v2g hp
theorem v2gCfg_eq (h : Block.Only l b c) (hp : Part.v2gCfg ∉ l) : c.v2gCfg = b.v2gCfg := h .v2gCfg hp
theorem upd_eq (h : Block.Only l b c) (hp : Part.upd ∉ l) : c.upd = b.upd := h .upd hp

end Block.Only

namespace Machine

/-! ### Modems and V2G sessions -/

section
variable (s : State) (f : Block → Block)

@[simp] theorem State.after_plc : (s.after f).block.plc = (f s.block).plc := (safetyItem_frame _ _).plc_eq (by decide)
@[simp] theorem State.after_plcCfg : (s.after f).block.plcCfg = (f s.block).plcCfg := (safetyItem_frame _ _).plcCfg_eq (by decide)
@[simp] theorem State.after_v2g : (s.after f).block.v2g = (f s.block).v2g := (safetyItem_frame _ _).v2g_eq (by decide)
@[simp] theorem State.after_v2gCfg : (s.after f).block.v2gCfg = (f s.block).v2gCfg := (safetyItem_frame _ _).v2gCfg_eq (by decide)

end

theorem plcOf_congr {b c : Block} (h : c.plc = b.plc) (n : Fin 16) : plcOf c n = plcOf b n := by rw [plcOf, h, plcOf]

theorem v2gOf_congr {b c : Block} (h : c.v2g = b.v2g) (n : Fin 16) : v2gOf c n = v2gOf b n := by rw [v2gOf, h, v2gOf]

@[simp] theorem plcOf_after (s : State) (f : Block → Block) (n : Fin 16) : plcOf (s.after f).block n = plcOf (f s.block) n :=
  plcOf_congr (s.after_plc f) n

@[simp] theorem v2gOf_after (s : State) (f : Block → Block) (n : Fin 16) : v2gOf (s.after f).block n = v2gOf (f s.block) n :=
  v2gOf_congr (s.after_v2g f) n

@[simp] theorem plcOf_updPlc_self (n : Fin 16) (f : Modem → Modem) (b : Block) : plcOf (updPlc n f b) n = f (plcOf b n) :=
  vget_vupd_self _ _ _

theorem plcOf_updPlc_ne {n k : Fin 16} (h : k ≠ n) (f : Modem → Modem) (b : Block) : plcOf (updPlc n f b) k = plcOf b k :=
  vget_vupd_ne _ _ h

@[simp] theorem v2gOf_updV2g_self (n : Fin 16) (f : V2gSession → V2gSession) (b : Block) : v2gOf (updV2g n f b) n = f (v2gOf b n) :=
  vget_vupd_self _ _ _

theorem v2gOf_updV2g_ne {n k : Fin 16} (h : k ≠ n) (f : V2gSession → V2gSession) (b : Block) : v2gOf (updV2g n f b) k = v2gOf b k :=
  vget_vupd_ne _ _ h

@[simp] theorem irq_plc (n : Nat) (b : Block) : (irq n b).plc = b.plc := (irq_frame n b).plc_eq (by decide)
@[simp] theorem irq_v2g (n : Nat) (b : Block) : (irq n b).v2g = b.v2g := (irq_frame n b).v2g_eq (by decide)

/-- The time of the last entry of a ring is read from the launcher and the queues alone. -/
theorem ringLast_congr {b c : Block} (hlau : c.lau = b.lau) (hqmg : c.qmg = b.qmg) (r : Nat) : ringLast c r = ringLast b r := by
  unfold ringLast ringWaiting ringOf qOf bufBytes
  rw [hlau, hqmg]

/-! ### A frame noted for the trace of its modem (R536) -/

section
variable (n k : Fin 16) (kind : U8) (content : List U8) (b : Block)

@[simp] theorem creekItem_plc : (creekItem n kind content b).plc = b.plc := (creekItem_frame _ _ _ b).plc_eq (by decide)
@[simp] theorem creekItem_plcCfg : (creekItem n kind content b).plcCfg = b.plcCfg := (creekItem_frame _ _ _ b).plcCfg_eq (by decide)
@[simp] theorem creekItem_v2gCfg : (creekItem n kind content b).v2gCfg = b.v2gCfg := (creekItem_frame _ _ _ b).v2gCfg_eq (by decide)
@[simp] theorem creekItem_rst : (creekItem n kind content b).rst = b.rst := (creekItem_frame _ _ _ b).rst_eq (by decide)
@[simp] theorem creekItem_sess : (creekItem n kind content b).sess = b.sess := (creekItem_frame _ _ _ b).sess_eq (by decide)
@[simp] theorem creekItem_saf : (creekItem n kind content b).saf = b.saf := (creekItem_frame _ _ _ b).saf_eq (by decide)
@[simp] theorem creekItem_v2g : (creekItem n kind content b).v2g = b.v2g := (creekItem_frame _ _ _ b).v2g_eq (by decide)

@[simp] theorem plcOf_creekItem : plcOf (creekItem n kind content b) k = plcOf b k := plcOf_congr (creekItem_plc ..) k
@[simp] theorem v2gOf_creekItem : v2gOf (creekItem n kind content b) k = v2gOf b k := v2gOf_congr (creekItem_v2g ..) k
@[simp] theorem phaseOf_creekItem : phaseOf (creekItem n kind content b) k = phaseOf b k :=
  phaseOf_congr (creekItem_sess ..) (creekItem_saf ..) k

@[simp] theorem now_creekItem : now (creekItem n kind content b) = now b :=
  congrArg Tide.now ((creekItem_frame n kind content b).tide_eq (by decide))

@[simp] theorem ahead_creekItem (d : Nat) : ahead (creekItem n kind content b) d = ahead b d :=
  congrArg (· + BitVec.ofNat 64 d) (now_creekItem n kind content b)

@[simp] theorem modemWorks_creekItem : modemWorks (creekItem n kind content b) k = modemWorks b k := by
  rw [modemWorks, modemPaused, plcOf_creekItem, creekItem_rst, (creekItem_frame n kind content b).upd_eq (by decide), modemWorks, modemPaused]

@[simp] theorem runFor_creekItem (mac : BitVec 48) (runId : U64) :
    runFor (creekItem n kind content b) k mac runId = runFor b k mac runId := by
  rw [runFor, creekItem_plcCfg, runFor]

@[simp] theorem ignoresRun_creekItem (r : RunKey) : ignoresRun (creekItem n kind content b) k r = ignoresRun b k r := by
  rw [ignoresRun, plcOf_creekItem, ignoresRun]

@[simp] theorem ringTime_creekItem (r : Nat) (t : U64) : ringTime (creekItem n kind content b) r t = ringTime b r t := by
  rw [ringTime, ringLast_congr ((creekItem_frame n kind content b).lau_eq (by decide)) ((creekItem_frame n kind content b).qmg_eq (by decide)),
    ringTime]

end

/-! ### V2G sessions that close (R228, R233) -/

theorem v2gClose_closed (n : Fin 16) (b : Block) : (v2gOf (v2gClose n b) n).isOpen = false := by
  unfold v2gClose
  split
  · rw [v2gOf_congr (irq_v2g ..), v2gOf_updV2g_self]
  · next hclosed => exact Bool.eq_false_iff.mpr hclosed

/-- Closing a V2G session clears no source. -/
theorem Hic.KeepsPending.v2gClose {h : Hic} {b : Block} (hb : h.KeepsPending b.hic) (n : Fin 16) : h.KeepsPending (v2gClose n b).hic := by
  unfold Machine.v2gClose
  split
  · refine irq ?_ 214
    exact hb
  · exact hb

@[simp] theorem phaseOf_v2gClose (n k : Fin 16) (b : Block) : phaseOf (v2gClose n b) k = phaseOf b k :=
  phaseOf_congr ((v2gClose_frame n b).sess_eq (by decide)) ((v2gClose_frame n b).saf_eq (by decide)) k

theorem v2gLive_congr {b c : Block} (hsess : c.sess = b.sess) (hsaf : c.saf = b.saf) (hv2g : c.v2g = b.v2g) (n : Fin 16) :
    v2gLive c n = v2gLive b n := by
  rw [v2gLive, phaseOf_congr hsess hsaf, v2gOf_congr hv2g, v2gLive]

/-! ### Lock-outs while a pair opens (R278) -/

section
variable (b : Block)

/-- A change of a contactor state that is no lock-out changes no lock-out. -/
theorem lockedOut_updNode (n : Fin 16) (f : SafNode → SafNode) (hf : ∀ x, (f x).lockout = x.lockout) :
    lockedOut (updNode n f b) = lockedOut b := by
  funext k
  have hnode : (nodeOf (updNode n f b) k).lockout = (nodeOf b k).lockout := by
    by_cases hk : k = n
    · subst hk
      exact (congrArg SafNode.lockout (vget_vupd_self _ _ _)).trans (hf _)
    · exact congrArg SafNode.lockout (vget_vupd_ne _ _ hk)
  rw [lockedOut, hnode]
  rfl

theorem lockedOut_of_saf {b c : Block} (h : c.saf = b.saf) : lockedOut c = lockedOut b := by
  funext k
  rw [lockedOut, nodeOf, h, lockedOut, nodeOf]

theorem lockedOut_irq (k : Nat) : lockedOut (irq k b) = lockedOut b := lockedOut_of_saf ((irq_frame k b).saf_eq (by decide))

theorem lockedOut_coilStart (n : Fin 16) : lockedOut (coilStart n b) = lockedOut b := by
  unfold coilStart
  extract_lets x s supply head
  split
  · rw [onlyIf_keeps (q := lockedOut) (fun c => lockedOut_irq c 328), lockedOut_updNode _ _ _ fun _ => by rfl]
    rfl
  · rfl

theorem lockedOut_coilRelease (n : Fin 16) : lockedOut (coilRelease n b) = lockedOut b := by
  refine forAll_keeps (q := lockedOut) (fun k c => ?_) _ b
  split
  · rfl
  · exact lockedOut_coilStart _ k

theorem lockedOut_lsOff (n : Fin 16) : lockedOut (lsOff n b) = lockedOut b := by
  unfold lsOff
  extract_lets x c under d
  split
  · rfl
  split
  · rfl
  · have hd : lockedOut d = lockedOut b := lockedOut_updNode c n _ fun _ => by rfl
    rw [onlyIf_keeps (q := lockedOut) (fun e => lockedOut_coilRelease e n)]
    refine (onlyIf_keeps (q := lockedOut) (fun e => ?_) _ _).trans hd
    exact lockedOut_irq _ 300

theorem lockedOut_openOutside (n : Fin 16) : lockedOut (openOutside n b) = lockedOut b := by
  rw [openOutside, lockedOut_of_saf ((supplyOff_frame n _).saf_eq (by decide)), lockedOut_of_saf ((imdSessionEnds_frame n _).saf_eq (by decide)),
    dykeClear, lockedOut_lsOff, lockedOut_updNode _ _ _ fun _ => by rfl, lockedOut_updNode _ _ _ fun _ => by rfl]

end

/-- A connector that no lock-out covers shows NEGOTIATING once it has entered it: its pair opens without a lock-out. -/
theorem phaseOf_enterPhase_negotiating {n : Fin 16} {b : Block} (hfree : lockedOut b n = false) :
    phaseOf (enterPhase n .negotiating b) n = .negotiating := by
  have hlock : lockedOut (enterPhase n .negotiating b) n = false := (congrFun (lockedOut_openOutside _ n) n).trans hfree
  have hsess : (enterPhase n .negotiating b).sess =
      (updSess n (fun s => { s with phase := .negotiating, enteredAt := now b, entry := s.entry }) b).sess :=
    (openOutside_frame n _).sess_eq (by decide)
  simp only [phaseOf, hlock, sessOf_congr hsess, sessOf_updSess_self, Bool.false_eq_true, if_false]

/-- A connector that shows another phase than FAULTED is under no lock-out. -/
theorem not_lockedOut_of_phaseOf {n : Fin 16} {b : Block} (h : phaseOf b n ≠ .faulted) : lockedOut b n = false := by
  rw [phaseOf] at h
  cases hlock : lockedOut b n
  · rfl
  · simp [hlock] at h

end Machine

end Sys2Proof
end

section
/-! PROOFS. Frames of the association: parameters, the start of the sounds, a sound, the end of the sounding, the match and the join (R217
to R222). -/

namespace Sys2Proof

open Machine

namespace Machine

/-! ### CM_SLAC_PARM.REQ (R217) -/

/-- The run that parameters decoded by modem `n` name: the known one, or a new one under the settings in force. -/
def namedRun (n : Fin 16) (mac : BitVec 48) (runId : U64) (b : Block) : SlacRun :=
  match runFor b n mac runId with
  | some r => r
  | none => { key := { mac := mac, runId := runId, own := if b.plcCfg.set.xtalkAware then none else some n }, set := b.plcCfg.set }

theorem namedRun_creekItem (n k : Fin 16) (mac : BitVec 48) (runId : U64) (kind : U8) (content : List U8) (b : Block) :
    namedRun n mac runId (creekItem k kind content b) = namedRun n mac runId b := by
  rw [namedRun, runFor_creekItem, creekItem_plcCfg, namedRun]

/-- A working modem that is not matched has heard the run; a connector in its first state has heard its parameters. -/
theorem slacParmReq_of_free {n : Fin 16} {mac : BitVec 48} {runId : U64} {b : Block} {r : SlacRun} (hworks : modemWorks b n = true)
    (hfree : (plcOf b n).matched = false) (hr : r = namedRun n mac runId b) :
    slacParmReq n mac runId b =
      let c := putRun { r with heard := r.heard ||| modemBit n } (creekItem n 1 (runBytes mac runId) b)
      if phaseOf b n = .associating ∧ (plcOf b n).slacState = 1 then updPlc n (fun x => { x with heardParm := true }) c else c := by
  subst hr
  unfold slacParmReq
  extract_lets c r d
  have hr : r = namedRun n mac runId b := namedRun_creekItem ..
  have hhears : ¬ (!modemWorks c n || (plcOf c n).matched) = true := by
    simp [c, hworks, hfree]
  have hphase : phaseOf d n = phaseOf b n := phaseOf_creekItem n n 1 _ b
  have hplc : plcOf d n = plcOf b n := plcOf_creekItem n n 1 _ b
  rw [if_neg hhears, hphase, hplc]
  clear_value r
  subst hr
  rfl

theorem slacParmReq_of_deaf {n : Fin 16} {mac : BitVec 48} {runId : U64} {b : Block}
    (h : modemWorks b n = false ∨ (plcOf b n).matched = true) :
    slacParmReq n mac runId b = creekItem n 1 (runBytes mac runId) b := by
  unfold slacParmReq
  extract_lets c r d
  have hdeaf : (!modemWorks c n || (plcOf c n).matched) = true := by simpa [c] using h
  exact if_pos hdeaf

/-! ### CM_START_ATTEN_CHAR.IND (R218) -/

section
variable {n : Fin 16} {mac : BitVec 48} {runId : U64} {sounds : U8} {b : Block}

theorem startAttenChar_of_unknown (hnone : runFor b n mac runId = none) :
    startAttenChar n mac runId sounds b = creekItem n 1 (runBytes mac runId ++ [sounds]) b := by
  simp only [startAttenChar, runFor_creekItem, hnone]

theorem startAttenChar_of_first {r : SlacRun} (hrun : runFor b n mac runId = some r) (hfirst : r.starter = none)
    (hworks : modemWorks b n = true) (hmine : ignoresRun b n r.key = false) :
    startAttenChar n mac runId sounds b =
      let t := ringTime b 132 (ahead b 96)
      let e : U64 := t + BitVec.ofNat 64 (r.set.tSounds.toNat * 30000000)
      let c := putRun { r with starter := some n, announced := sounds.toNat, capEnd := e } (creekItem n 1 (runBytes mac runId ++ [sounds]) b)
      submit agSedge 132 (mkEntry tgModem (if r.set.xtalkAware then 0xFFFF else n.val) 1 (b64 e ++ zeros 24) t)
        (if phaseOf b n = .associating ∧ (plcOf b n).slacState = 1 then updPlc n (fun x => { x with slacState := 2, timerAt := t }) c else c) := by
  have hstarts : ¬ (r.starter.isSome || !modemWorks b n || ignoresRun b n r.key) = true := by
    simp [hfirst, hworks, hmine]
  have hphase (r : SlacRun) (content : List U8) : phaseOf (putRun r (creekItem n 1 content b)) n = phaseOf b n :=
    phaseOf_creekItem n n 1 content b
  have hplc (r : SlacRun) (content : List U8) : plcOf (putRun r (creekItem n 1 content b)) n = plcOf b n :=
    plcOf_creekItem n n 1 content b
  simp only [startAttenChar, runFor_creekItem, hrun, modemWorks_creekItem, ignoresRun_creekItem, if_neg hstarts, ringTime_creekItem,
    ahead_creekItem, hphase, hplc]

end

/-! ### CM_MNBC_SOUND.IND (R219) -/

section
variable {n : Fin 16} {x : SoundReading} {b : Block}

theorem soundInd_of_unknown (hnone : runFor b n x.mac x.runId = none) :
    soundInd n x b = creekItem n 2 (runBytes x.mac x.runId) b := by
  simp only [soundInd, runFor_creekItem, hnone]

/-- The window of run `r` that a sound begins with: one that begins within 40 ticks of it. -/
def windowNear (r : SlacRun) (x : SoundReading) : Option SoundWindow :=
  r.windows.find? fun w => decide (((w.from_.toNat : Int) - x.from_.toNat).natAbs ≤ 40)

variable {r : SlacRun} (hstarted : r.starter.isSome = true) (hworks : modemWorks b n = true) (hmine : ignoresRun b n r.key = false)
include hstarted hworks hmine

theorem sound_not_ignored : ¬ (r.starter.isNone || !modemWorks b n || ignoresRun b n r.key) = true := by
  rw [hworks, hmine, Option.isNone_eq_false_iff.mpr hstarted]
  decide

variable (hrun : runFor b n x.mac x.runId = some r)
include hrun

theorem soundInd_of_new (hnew : windowNear r x = none) :
    soundInd n x b = newWindow n r x (creekItem n 2 (runBytes x.mac x.runId) b) := by
  rw [windowNear] at hnew
  simp only [soundInd, runFor_creekItem, hrun, modemWorks_creekItem, ignoresRun_creekItem, if_neg (sound_not_ignored hstarted hworks hmine), hnew]

theorem soundInd_of_same {w : SoundWindow} (hsame : windowNear r x = some w) :
    soundInd n x b = sameWindow n r w x (creekItem n 2 (runBytes x.mac x.runId) b) := by
  rw [windowNear] at hsame
  simp only [soundInd, runFor_creekItem, hrun, modemWorks_creekItem, ignoresRun_creekItem, if_neg (sound_not_ignored hstarted hworks hmine), hsame]

end

/-! ### SOUNDING_END (R221) -/

theorem soundingEnd_of_over {n q : Fin 16} {mac : BitVec 48} {runId : U64} {b : Block} {r : SlacRun} (hrun : runFor b n mac runId = some r)
    (hstarter : r.starter = some q) (hover : r.announced ≤ r.decoded ∨ r.capEnd.toNat ≤ (now b).toNat) :
    soundingEnd n mac runId b = applyDecision r q b := by
  simp only [soundingEnd, hrun, hstarter]
  split
  · rfl
  · next hmore => exact atInstant_of_le (hover.resolve_left hmore) _

theorem soundingEnd_of_unknown {n : Fin 16} {mac : BitVec 48} {runId : U64} {b : Block} (hnone : runFor b n mac runId = none) :
    soundingEnd n mac runId b = b := by
  simp only [soundingEnd, hnone]

/-! ### CM_SLAC_MATCH.REQ and the join (R222) -/

theorem slacMatchReq_of_own {n : Fin 16} {b : Block} {k : RunKey} {q : SlacSet} (hrun : (plcOf b n).run = some (k, q))
    (hworks : modemWorks b n = true) (hstate : (plcOf b n).slacState = 3) :
    slacMatchReq n k.mac k.runId b =
      updPlc n (fun x => { x with slacState := 4, timerAt := now b }) (creekItem n 1 (runBytes k.mac k.runId) b) := by
  simp only [slacMatchReq, plcOf_creekItem, hrun, modemWorks_creekItem, hworks, hstate, now_creekItem, and_self, if_true]

/-- The association of connector `n` is confirmed: its link is up, source 208 is raised, and its V2G session begins under the settings in
force. -/
def joined (n : Fin 16) (b : Block) : Block :=
  let c := irq 208 (updPlc n (fun x => { x with slacState := 5, linkUp := true }) (creekItem n 3 [1] b))
  { c with v2g := vupd c.v2g n fun v => { timeouts := v.timeouts, tlsFail := v.tlsFail, lastRequest := now c, inForce := c.v2gCfg } }

theorem vehicleJoined_of_matched {n : Fin 16} {b : Block} (hworks : modemWorks b n = true) (hstate : (plcOf b n).slacState = 4)
    (hphase : phaseOf b n = .associating) : vehicleJoined n b = enterPhase n .negotiating (joined n b) := by
  have hjoins : modemWorks (creekItem n 3 [1] b) n = true ∧ (plcOf (creekItem n 3 [1] b) n).slacState = 4 ∧
      phaseOf (creekItem n 3 [1] b) n = .associating :=
    ⟨(modemWorks_creekItem ..).trans hworks, (congrArg _ (plcOf_creekItem ..)).trans hstate, (phaseOf_creekItem ..).trans hphase⟩
  unfold vehicleJoined
  extract_lets c d e
  exact if_pos hjoins

theorem lockedOut_joined (n : Fin 16) (b : Block) : lockedOut (joined n b) = lockedOut b :=
  lockedOut_of_saf (((irq_frame 208 _).saf_eq (by decide)).trans (creekItem_saf ..))

/-- The V2G session of a joined vehicle begins now under the settings in force. -/
theorem vget_joined_v2g (n : Fin 16) (b : Block) :
    (vget (joined n b).v2g n).lastRequest = now b ∧ (vget (joined n b).v2g n).inForce = b.v2gCfg := by
  have hnow : now (irq 208 (updPlc n (fun x => { x with slacState := 5, linkUp := true }) (creekItem n 3 [1] b))) = now b :=
    (congrArg Tide.now (irq_tide ..)).trans (now_creekItem ..)
  have hcfg : (irq 208 (updPlc n (fun x => { x with slacState := 5, linkUp := true }) (creekItem n 3 [1] b))).v2gCfg = b.v2gCfg :=
    ((irq_frame 208 _).v2gCfg_eq (by decide)).trans (creekItem_v2gCfg ..)
  simp only [joined, vget_vupd_self, hnow, hcfg, and_self]

end Machine

/-- Settles O30: the frame is noted in the trace, which no condition of a clause reads, so the conditions decide the branch taken; a join
enters NEGOTIATING, whose opening of the pair locks nothing out and leaves the V2G session. -/
theorem associationFrames : Obligations.AssociationFrames := by
  refine ⟨fun s n hw rid r hrep hworks hfree hr => ?_, fun s n hw rid hrep hdeaf => ?_, fun s n mac runId sounds hrep hnone => ?_,
    fun s n mac runId sounds r hrep hrun hfirst hworks hmine => ?_, fun s n x r hrep hrun hstarted hworks hmine hnew => ?_,
    fun s n x r w hrep hrun hstarted hworks hmine hsame => ?_, fun s n x hrep hnone => ?_,
    fun s n mac runId r q hrun hstarter hover => ?_, fun s n mac runId hnone => ?_,
    fun s n mac runId k q hrep hrun hworks hstate hmac hid => ?_, fun s n hrep hworks hstate hphase => ?_⟩
  -- CM_SLAC_PARM.REQ at a modem that is not matched
  · have hx : exec (.cmSlacParmReq n hw rid) s = .next (s.after (slacParmReq n hw rid)) := State.input_eq hrep _
    exact ⟨_, hx, execCmSlacParmReq_frame n hw rid hx, State.after_block (slacParmReq_of_free hworks hfree hr)⟩
  -- CM_SLAC_PARM.REQ at another
  · have hx : exec (.cmSlacParmReq n hw rid) s = .next (s.after (slacParmReq n hw rid)) := State.input_eq hrep _
    exact ⟨_, hx, execCmSlacParmReq_frame n hw rid hx, State.after_block (slacParmReq_of_deaf hdeaf)⟩
  -- CM_START_ATTEN_CHAR.IND of no known run
  · have hx : exec (.cmStartAttenCharInd n mac runId sounds) s = .next (s.after (startAttenChar n mac runId sounds)) := State.input_eq hrep _
    exact ⟨_, hx, execCmStartAttenCharInd_frame n mac runId sounds hx, State.after_block (startAttenChar_of_unknown hnone)⟩
  -- CM_START_ATTEN_CHAR.IND of a run without a starter
  · have hx : exec (.cmStartAttenCharInd n mac runId sounds) s = .next (s.after (startAttenChar n mac runId sounds)) := State.input_eq hrep _
    exact ⟨_, hx, execCmStartAttenCharInd_frame n mac runId sounds hx,
      State.after_block (startAttenChar_of_first hrun hfirst hworks hmine)⟩
  -- CM_MNBC_SOUND.IND of a new window
  · have hx : exec (.cmMnbcSoundInd n x) s = .next (s.after (soundInd n x)) := State.input_eq hrep _
    exact ⟨_, hx, execCmMnbcSoundInd_frame n x hx, State.after_block (soundInd_of_new hstarted hworks hmine hrun hnew)⟩
  -- CM_MNBC_SOUND.IND of a window known
  · have hx : exec (.cmMnbcSoundInd n x) s = .next (s.after (soundInd n x)) := State.input_eq hrep _
    exact ⟨_, hx, execCmMnbcSoundInd_frame n x hx, State.after_block (soundInd_of_same hstarted hworks hmine hrun hsame)⟩
  -- CM_MNBC_SOUND.IND of no known run
  · have hx : exec (.cmMnbcSoundInd n x) s = .next (s.after (soundInd n x)) := State.input_eq hrep _
    exact ⟨_, hx, execCmMnbcSoundInd_frame n x hx, State.after_block (soundInd_of_unknown hnone)⟩
  -- SOUNDING_END
  · exact ⟨s.after (soundingEnd n mac runId), rfl, execSoundingEnd_frame n mac runId rfl,
      State.after_block (soundingEnd_of_over hrun hstarter hover)⟩
  -- SOUNDING_END of no known run
  · exact ⟨s.after (soundingEnd n mac runId), rfl, execSoundingEnd_frame n mac runId rfl,
      State.after_block (soundingEnd_of_unknown hnone)⟩
  -- CM_SLAC_MATCH.REQ
  · subst hmac hid
    have hx : exec (.cmSlacMatchReq n k.mac k.runId) s = .next (s.after (slacMatchReq n k.mac k.runId)) := State.input_eq hrep _
    refine ⟨_, hx, execCmSlacMatchReq_frame n k.mac k.runId hx, ?_⟩
    rw [State.after_plc, slacMatchReq_of_own hrun hworks hstate, updPlc_plc, creekItem_plc]
  -- VEHICLE_JOINED
  · have hx : exec (.vehicleJoined n) s = .next (s.after (vehicleJoined n)) := State.input_eq hrep _
    have heff := vehicleJoined_of_matched hworks hstate hphase
    have hfree : lockedOut (joined n s.block) n = false :=
      (congrFun (lockedOut_joined n s.block) n).trans (not_lockedOut_of_phaseOf (by rw [hphase]; decide))
    refine ⟨_, hx, execVehicleJoined_frame n hx, ?_⟩
    rw [phaseOf_congr (s.after_sess _) (s.after_saf _), State.after_v2g, heff, (enterPhase_frame _ _ _).v2g_eq (by decide)]
    exact ⟨phaseOf_enterPhase_negotiating hfree, vget_joined_v2g n s.block⟩

end Sys2Proof
end

section
/-! PROOFS. The timers of an attempt, the end of a validation window, the seconds of a modem's erasures, and its faults (R216, R222, R223,
R233). -/

namespace Sys2Proof

open Machine

namespace Machine

/-! ### The timers of an attempt (R222) -/

theorem slacTimerExpired_of_silent {n : Fin 16} {b : Block} (hphase : phaseOf b n = .associating) (hstate : (plcOf b n).slacState = 1)
    (hsilent : (plcOf b n).heardParm = false)
    (hdue : (plcOf b n).timerAt.toNat + (plcOf b n).assoc.tInit.toNat * tSec ≤ (now b).toNat) :
    slacTimerExpired n b = failAttempt n 5 b := by
  simp only [slacTimerExpired, hphase, hstate, hsilent, ne_eq, not_true_eq_false, Bool.not_false, and_self, if_false, if_true,
    afterTicks_of_le hdue]

theorem slacTimerExpired_of_unmatched {n : Fin 16} {b : Block} {k : RunKey} {q : SlacSet} (hphase : phaseOf b n = .associating)
    (hrun : (plcOf b n).run = some (k, q)) (hstate : (plcOf b n).slacState = 3)
    (hdue : (plcOf b n).timerAt.toNat + q.tMatch.toNat * tSec ≤ (now b).toNat) : slacTimerExpired n b = failAttempt n 5 b := by
  have h1 : ¬ ((3 : BitVec 3) = 1 ∧ (!(plcOf b n).heardParm) = true) := fun h => absurd h.1 (by decide)
  simp only [slacTimerExpired, hphase, hstate, hrun, ne_eq, not_true_eq_false, if_neg h1, if_false, if_true, afterTicks_of_le hdue]

theorem slacTimerExpired_of_not_joined {n : Fin 16} {b : Block} {k : RunKey} {q : SlacSet} (hphase : phaseOf b n = .associating)
    (hrun : (plcOf b n).run = some (k, q)) (hstate : (plcOf b n).slacState = 4)
    (hdue : (plcOf b n).timerAt.toNat + q.tJoin.toNat * tSec ≤ (now b).toNat) : slacTimerExpired n b = failAttempt n 5 b := by
  have h1 : ¬ ((4 : BitVec 3) = 1 ∧ (!(plcOf b n).heardParm) = true) := fun h => absurd h.1 (by decide)
  have h3 : ¬ (4 : BitVec 3) = 3 := by decide
  simp only [slacTimerExpired, hphase, hstate, hrun, ne_eq, not_true_eq_false, if_neg h1, if_neg h3, if_false, if_true, afterTicks_of_le hdue]

theorem slacTimerExpired_of_elsewhere {n : Fin 16} {b : Block} (hphase : phaseOf b n ≠ .associating) : slacTimerExpired n b = b := if_pos hphase

/-- Modem `n` begins the next attempt of its connector, with nothing heard. -/
def nextAttempt (n : Fin 16) (b : Block) : Block :=
  updPlc n (fun x => { x with slacState := 1, attempt := x.attempt + 1, heardParm := false }) b

theorem slacRestartEnd_of_due {n : Fin 16} {b : Block} (hstate : (plcOf b n).slacState = 7) (hphase : phaseOf b n = .associating)
    (hdue : leadBefore (plcOf b n).timerAt ≤ (now b).toNat) :
    slacRestartEnd n b = dutyReview n (updVeh n (fun v => { v with restartUntil := none }) (nextAttempt n b)) := by
  unfold slacRestartEnd
  extract_lets x
  rw [if_pos ⟨hstate, hphase⟩, atInstant_of_le hdue]
  rfl

/-! ### The validation window (R223) -/

/-- The toggles of connector `p` since the validation of modem `n` began. -/
def togglesSeen (b : Block) (n p : Fin 16) : Nat := (vehOf b p).toggles - (plcOf b n).edgeBase.getD p.val 0

section
variable {n : Fin 16} {announced : Option Nat} {b : Block} {k : RunKey} {q : SlacSet} {r : RunReport} (hrun : (plcOf b n).run = some (k, q))
  (hlast : (plcOf b n).lastRun = some r) (hstate : (plcOf b n).slacState = 6)
include hrun hlast hstate

theorem validationEnd_of_valid (hown : announced = some (togglesSeen b n n))
    (hothers : (contestSet b n).all (fun p => togglesSeen b n p == 0) = true) :
    validationEnd n announced b = reportAccepted k (acceptRun n k q r b) := by
  simp only [validationEnd, hrun, hlast, hstate, ne_eq, not_true_eq_false, if_false]
  exact if_pos ⟨hown, hothers⟩

theorem validationEnd_of_invalid (h : announced ≠ some (togglesSeen b n n) ∨ (contestSet b n).any (fun p => togglesSeen b n p != 0) = true) :
    validationEnd n announced b = failAttempt n 3 b := by
  simp only [validationEnd, hrun, hlast, hstate, ne_eq, not_true_eq_false, if_false]
  refine if_neg fun ⟨hown, hothers⟩ => ?_
  rcases h with hwrong | hother
  · exact hwrong hown
  · obtain ⟨p, hp, hseen⟩ := List.any_eq_true.mp hother
    have hstill := List.all_eq_true.mp hothers p hp
    simp only [bne_iff_ne] at hseen
    exact hseen (beq_iff_eq.mp hstill)

end

/-! ### Erasures and blanking over a second (R216) -/

section
variable {n : Fin 16} {gain : Fin 16} {l : List ReceiveSpan} {b : Block}

theorem eraseRateWindow_of_next {i : U64} (hworks : modemWorks b n = true) (hlast : (plcOf b n).rateAt = some i)
    (hdue : i.toNat + tSec ≤ (now b).toNat) : eraseRateWindow n gain l b = rateEnd n gain l b := by
  simp only [eraseRateWindow, hworks, hlast, Bool.not_true, Bool.false_eq_true, if_false, afterTicks_of_le hdue]

theorem eraseRateWindow_of_first (hworks : modemWorks b n = true) (hfirst : (plcOf b n).rateAt = none) :
    eraseRateWindow n gain l b = rateEnd n gain l b := by
  simp only [eraseRateWindow, hworks, hfirst, Bool.not_true, Bool.false_eq_true, if_false]

theorem eraseRateWindow_of_stopped (hstopped : modemWorks b n = false) : eraseRateWindow n gain l b = b := by
  simp only [eraseRateWindow, hstopped, Bool.not_false, if_true]

/-- What modem `n` counts over the spans of a second. -/
def secondCount (b : Block) (n : Fin 16) (l : List ReceiveSpan) : RateCount :=
  l.foldl (rateSpan (plcOf b n)) { left := (plcOf b n).blankLeft }

theorem rateEnd_rateAt : (plcOf (rateEnd n gain l b) n).rateAt = some (now b) := by
  unfold rateEnd
  extract_lets x r held
  rw [onlyIf_keeps (q := fun c => plcOf c n) (fun c => plcOf_congr (irq_plc 212 c) n), plcOf_updPlc_self]

theorem rateEnd_rxGain (hfree : (plcOf b n).captures = []) : (plcOf (rateEnd n gain l b) n).rxGain = BitVec.ofNat 8 (2 * gain.val) := by
  unfold rateEnd
  extract_lets x r held
  have hheld : ¬ held = true := by simp only [held, x, hfree, List.any_nil, Bool.false_eq_true, not_false_eq_true]
  rw [onlyIf_keeps (q := fun c => plcOf c n) (fun c => plcOf_congr (irq_plc 212 c) n), plcOf_updPlc_self, if_neg hheld]

theorem rateEnd_raises (hmany : (secondCount b n l).symbols < 100 * (secondCount b n l).erased) : Raised (rateEnd n gain l b) 212 := by
  unfold rateEnd
  extract_lets x r held
  have hr : decide (r.symbols < 100 * r.erased) = true := decide_eq_true hmany
  rw [hr]
  exact irq_pends (n := 212) (by decide) _

end

/-! ### Modem faults (R233) -/

/-- A fault stops the modem and ends its link, with source 213, and its V2G session closes. -/
def modemFailed (n : Fin 16) (b : Block) : Block :=
  v2gClose n (irq 213 (updPlc n (fun x => { x with fault := true, running := false, linkUp := false }) b))

section
variable (n : Fin 16) (b : Block)

theorem modemFailed_plc :
    (modemFailed n b).plc = vupd b.plc n fun x => { x with fault := true, running := false, linkUp := false } := by
  rw [modemFailed, (v2gClose_frame _ _).plc_eq (by decide), irq_plc, updPlc_plc]

theorem modemFailed_rst : (modemFailed n b).rst = b.rst :=
  ((v2gClose_frame _ _).rst_eq (by decide)).trans ((irq_frame 213 _).rst_eq (by decide))

theorem modemFailed_sess : (modemFailed n b).sess = b.sess :=
  ((v2gClose_frame _ _).sess_eq (by decide)).trans ((irq_frame 213 _).sess_eq (by decide))

theorem modemFailed_saf : (modemFailed n b).saf = b.saf :=
  ((v2gClose_frame _ _).saf_eq (by decide)).trans ((irq_frame 213 _).saf_eq (by decide))

theorem modemFailed_raises : Raised (modemFailed n b) 213 :=
  (Hic.KeepsPending.refl _).v2gClose n _ (irq_pends (n := 213) (by decide) _)

end

/-- On an idle connector the fault is over at once; on another it is a device fault of its node. -/
theorem modemFault_of_running {n : Fin 16} {b : Block} (h : (plcOf b n).running = true) :
    modemFault n b = if phaseOf b n = .idle then
      updPlc n (fun x => { x with fault := false, running := x.enable && b.rst.creek }) (modemFailed n b)
    else deviceFault (.node n) 1 (modemFailed n b) := by
  have hrun : ¬ (!(plcOf b n).running) = true := by simp [h]
  unfold modemFault
  extract_lets c
  have hc : c = modemFailed n b := rfl
  rw [if_neg hrun, hc, phaseOf_congr (modemFailed_sess n b) (modemFailed_saf n b), modemFailed_rst]

theorem modemFault_of_stopped {n : Fin 16} {b : Block} (h : (plcOf b n).running = false) : modemFault n b = b := by
  simp [modemFault, h]

end Machine

/-- Settles O31: each event is due, so its effect is that of its clause; the duty ordered after a restart leaves modems and restarts, and
neither source 212 nor the closing of a V2G session touches what is stated of a modem. -/
theorem associationTimers : Obligations.AssociationTimers := by
  refine ⟨fun s n hphase hstate hsilent hdue => ?_, fun s n k q hphase hrun hdue => ?_, fun s n hphase => ?_,
    fun s n hstate hphase hdue => ?_, fun s n announced k q r hrep hrun hlast hstate hinvalid => ?_,
    fun s n announced k q r hrep hrun hlast hstate hown hothers => ?_, fun s n gain gaps windows tail i hrep hworks hlast hdue => ?_,
    fun s n gain gaps windows tail hrep hworks hfirst => ?_, fun s n gain gaps windows tail hrep hstopped => ?_,
    fun s n hrep hrun hidle => ?_, fun s n hrep hrun hbusy => ?_, fun s n hrep hstopped => ?_⟩
  -- SLAC_TIMER_EXPIRED past t_init
  · exact ⟨s.after (slacTimerExpired n), rfl, execSlacTimerExpired_frame n rfl,
      State.after_block (slacTimerExpired_of_silent hphase hstate hsilent hdue)⟩
  -- SLAC_TIMER_EXPIRED past t_match or t_join
  · refine ⟨s.after (slacTimerExpired n), rfl, execSlacTimerExpired_frame n rfl, State.after_block ?_⟩
    rcases hdue with ⟨hstate, hmatch⟩ | ⟨hstate, hjoin⟩
    · exact slacTimerExpired_of_unmatched hphase hrun hstate hmatch
    · exact slacTimerExpired_of_not_joined hphase hrun hstate hjoin
  -- SLAC_TIMER_EXPIRED outside ASSOCIATING
  · refine ⟨s.after (slacTimerExpired n), rfl, execSlacTimerExpired_frame n rfl, ?_⟩
    rw [State.after_plc, State.after_sess, State.after_tide, slacTimerExpired_of_elsewhere hphase]
    exact ⟨rfl, rfl, rfl⟩
  -- SLAC_RESTART_END
  · have heff := slacRestartEnd_of_due hstate hphase hdue
    have hplc : (s.after (slacRestartEnd n)).block.plc = (nextAttempt n s.block).plc := by
      rw [State.after_plc, heff, (dutyReview_frame _ _).plc_eq (by decide), updVeh_plc]
    refine ⟨s.after (slacRestartEnd n), rfl, execSlacRestartEnd_frame n rfl, ?_⟩
    simp only [plcOf_congr hplc, vehOf_after, heff, field_of_sensed Connector.restartUntil (fun _ => rfl) (dutyReview_sensed _ _),
      vehOf_updVeh_self, nextAttempt, plcOf_updPlc_self, true_and]
    exact fun k hk => plcOf_updPlc_ne hk _ _
  -- VALIDATION_WINDOW_END of other toggles than announced, or of toggles at the contest
  · have hx : exec (.validationWindowEnd n announced) s = .next (s.after (validationEnd n announced)) := State.input_eq hrep _
    exact ⟨_, hx, execValidationWindowEnd_frame n announced hx, State.after_block (validationEnd_of_invalid hrun hlast hstate hinvalid)⟩
  -- VALIDATION_WINDOW_END of the toggles announced
  · have hx : exec (.validationWindowEnd n announced) s = .next (s.after (validationEnd n announced)) := State.input_eq hrep _
    exact ⟨_, hx, execValidationWindowEnd_frame n announced hx, State.after_block (validationEnd_of_valid hrun hlast hstate hown hothers)⟩
  -- ERASE_RATE_WINDOW a second after the last
  · have hx : exec (.eraseRateWindow n gain gaps windows tail) s =
        .next (s.after (eraseRateWindow n gain (receiveSpans gaps windows tail))) := State.input_eq hrep _
    have heff : eraseRateWindow n gain (receiveSpans gaps windows tail) s.block = _ := eraseRateWindow_of_next hworks hlast hdue
    refine ⟨_, hx, execEraseRateWindow_frame n gain gaps windows tail hx, State.after_block heff, ?_⟩
    simp only [plcOf_after, Raised, State.after_hic, heff]
    exact ⟨rateEnd_rateAt, rateEnd_raises, rateEnd_rxGain⟩
  -- ERASE_RATE_WINDOW for the first time
  · have hx : exec (.eraseRateWindow n gain gaps windows tail) s =
        .next (s.after (eraseRateWindow n gain (receiveSpans gaps windows tail))) := State.input_eq hrep _
    exact ⟨_, hx, execEraseRateWindow_frame n gain gaps windows tail hx, State.after_block (eraseRateWindow_of_first hworks hfirst)⟩
  -- ERASE_RATE_WINDOW at a modem that does not work
  · have hx : exec (.eraseRateWindow n gain gaps windows tail) s =
        .next (s.after (eraseRateWindow n gain (receiveSpans gaps windows tail))) := State.input_eq hrep _
    exact ⟨_, hx, execEraseRateWindow_frame n gain gaps windows tail hx, State.after_block (eraseRateWindow_of_stopped hstopped)⟩
  -- MODEM_FAULT on an idle connector
  · have heff := (modemFault_of_running hrun).trans (if_pos hidle)
    refine ⟨s.after (modemFault n), rfl, execModemFault_frame n rfl, ?_⟩
    simp only [State.after_plc, v2gOf_after, Raised, State.after_hic, State.after_sess, heff, updPlc_plc, modemFailed_plc, vupd_vupd,
      updPlc_hic, updPlc_sess, modemFailed_sess, true_and]
    exact ⟨(congrArg _ (v2gOf_congr (updPlc_v2g ..) n)).trans (v2gClose_closed n _), modemFailed_raises n s.block, trivial⟩
  -- MODEM_FAULT on another
  · exact ⟨s.after (modemFault n), rfl, execModemFault_frame n rfl,
      State.after_block ((modemFault_of_running hrun).trans (if_neg hbusy))⟩
  -- MODEM_FAULT of a modem that does not run
  · exact ⟨s.after (modemFault n), rfl, execModemFault_frame n rfl, State.after_block (modemFault_of_stopped hstopped)⟩

end Sys2Proof
end

section
/-! PROOFS. Requests of the vehicle, the sequence timeout and the loss of the link (R227, R228). -/

namespace Sys2Proof

open Machine

namespace Machine

/-! ### Requests (R227) -/

section
variable {n : Fin 16} {q : V2gRequest} {b : Block}

/-- The stack hears request `q`: Sedge runs, the vehicle is joined, its modem works and the session is reached. -/
def stackHears (b : Block) (n : Fin 16) (q : V2gRequest) : Bool :=
  b.rst.sedge && (plcOf b n).linkUp && modemWorks b n && v2gReaches (v2gOf b n) q

theorem v2gRequest_of_heard (hheard : stackHears b n q = true)
    (hphase : v2gPhase (phaseOf b n) = true ∨ phaseOf b n = .stopping ∨ (v2gOf b n).isOpen = true) :
    v2gRequest n q b = v2gServe n (updV2g n (fun v => { v with lastRequest := now b }) (creekItem n 4 [v2gCode q] b)) q := by
  have hserves : (v2gPhase (phaseOf b n) || phaseOf b n == .stopping || (v2gOf b n).isOpen) = true := by
    simpa [or_assoc] using hphase
  rw [stackHears] at hheard
  simp only [v2gRequest, creekItem_rst, plcOf_creekItem, modemWorks_creekItem, v2gOf_creekItem, phaseOf_creekItem, now_creekItem, hheard,
    hserves, Bool.and_self, if_true]

theorem v2gRequest_of_unheard (hunheard : stackHears b n q = false) : v2gRequest n q b = creekItem n 4 [v2gCode q] b := by
  rw [stackHears] at hunheard
  simp only [v2gRequest, creekItem_rst, plcOf_creekItem, modemWorks_creekItem, v2gOf_creekItem, hunheard, Bool.false_and, Bool.false_eq_true,
    if_false]

end

/-! ### The sequence timeout (R228) -/

theorem v2gSeqTimeout_of_due {n : Fin 16} {b : Block} (hsedge : b.rst.sedge = true) (hlive : v2gLive b n = true)
    (hdue : (v2gOf b n).lastRequest.toNat + (v2gOf b n).inForce.seqTimeout.toNat * tSec ≤ (now b).toNat) :
    v2gSeqTimeout n b = v2gTimeout n b := by
  simp only [v2gSeqTimeout, hsedge, hlive, and_self, if_true, afterTicks_of_le hdue]

/-! ### The loss of the link (R228) -/

/-- The loss of the network or of the connection is noted in the trace; the loss of the network clears the link. -/
def linkLost (n : Fin 16) (network : Bool) (b : Block) : Block :=
  onlyIf network (updPlc n (fun x => { x with linkUp := false })) (creekItem n 3 [if network then 0 else 2] b)

section
variable (n : Fin 16) (network : Bool) (b : Block)

theorem linkLost_rst : (linkLost n network b).rst = b.rst := (onlyIf_keeps (q := Block.rst) (fun _ => by rfl) _ _).trans (creekItem_rst ..)

theorem phaseOf_linkLost : phaseOf (linkLost n network b) n = phaseOf b n :=
  (onlyIf_keeps (q := fun c => phaseOf c n) (fun _ => by rfl) _ _).trans (phaseOf_creekItem ..)

theorem v2gLive_linkLost : v2gLive (linkLost n network b) n = v2gLive b n :=
  (onlyIf_keeps (q := fun c => v2gLive c n) (fun _ => by rfl) _ _).trans
    (v2gLive_congr (creekItem_sess ..) (creekItem_saf ..) (creekItem_v2g ..) n)

end

/-- A live session, or one in STOPPING whose network is lost, times out; any other closes. -/
theorem v2gLinkLoss_of_up {n : Fin 16} {network : Bool} {b : Block} (hup : (plcOf b n).linkUp = true) (hsedge : b.rst.sedge = true) :
    v2gLinkLoss n network b =
      if v2gLive b n = true ∨ (network = true ∧ phaseOf b n = .stopping) then v2gTimeout n (linkLost n network b)
      else v2gClose n (linkLost n network b) := by
  unfold v2gLinkLoss
  extract_lets c d
  have hd : d = linkLost n network b := rfl
  have hjoined : ¬ (!(plcOf c n).linkUp) = true := by simp [c, hup]
  have hruns : ¬ (!d.rst.sedge) = true := by simp [hd, linkLost_rst, hsedge]
  rw [if_neg hjoined, if_neg hruns, hd, v2gLive_linkLost, phaseOf_linkLost]
  simp only [Bool.or_eq_true, Bool.and_eq_true, beq_iff_eq]

theorem v2gLinkLoss_of_down {n : Fin 16} {network : Bool} {b : Block} (hdown : (plcOf b n).linkUp = false) :
    v2gLinkLoss n network b = creekItem n 3 [if network then 0 else 2] b := by
  unfold v2gLinkLoss
  extract_lets c d
  have hgone : (!(plcOf c n).linkUp) = true := by simp [c, hdown]
  exact if_pos hgone

end Machine

/-- Settles O32: a request and a loss are noted in the trace first, which nothing that decides them reads. -/
theorem v2gEvents : Obligations.V2gEvents := by
  refine ⟨fun s n q hrep hsedge hup hworks hreaches hphase => ?_, fun s n q hrep hunheard => ?_, fun s n hsedge hlive hdue => ?_,
    fun s n network hrep hup hsedge hends => ?_, fun s n network hrep hup hsedge hdead hstays => ?_, fun s n network hrep hdown => ?_⟩
  -- V2G_REQUEST that the stack serves
  · have hx : exec (.v2gRequest n q) s = .next (s.after (v2gRequest n q)) := State.input_eq hrep _
    have hheard : stackHears s.block n q = true := by rw [stackHears, hsedge, hup, hworks, hreaches]; rfl
    exact ⟨_, hx, execV2gRequest_frame n q hx, State.after_block (v2gRequest_of_heard hheard hphase)⟩
  -- V2G_REQUEST that does not reach it
  · have hx : exec (.v2gRequest n q) s = .next (s.after (v2gRequest n q)) := State.input_eq hrep _
    have hnot : stackHears s.block n q = false := by simpa [stackHears, imp_iff_not_or, or_assoc] using hunheard
    exact ⟨_, hx, execV2gRequest_frame n q hx, State.after_block (v2gRequest_of_unheard hnot)⟩
  -- V2G_SEQ_TIMEOUT
  · exact ⟨s.after (v2gSeqTimeout n), rfl, execV2gSeqTimeout_frame n rfl, State.after_block (v2gSeqTimeout_of_due hsedge hlive hdue)⟩
  -- V2G_LINK_LOSS that ends the session as timed out
  · have hx : exec (.v2gLinkLoss n network) s = .next (s.after (v2gLinkLoss n network)) := State.input_eq hrep _
    exact ⟨_, hx, execV2gLinkLoss_frame n network hx, State.after_block ((v2gLinkLoss_of_up hup hsedge).trans (if_pos hends))⟩
  -- V2G_LINK_LOSS that closes it
  · have hx : exec (.v2gLinkLoss n network) s = .next (s.after (v2gLinkLoss n network)) := State.input_eq hrep _
    have hnot : ¬ (v2gLive s.block n = true ∨ (network = true ∧ phaseOf s.block n = .stopping)) := by
      rintro (hlive | ⟨hnet, hstop⟩)
      · exact Bool.eq_false_iff.mp hdead hlive
      · exact hstays.elim (fun h => Bool.eq_false_iff.mp h hnet) (fun h => h hstop)
    exact ⟨_, hx, execV2gLinkLoss_frame n network hx, State.after_block ((v2gLinkLoss_of_up hup hsedge).trans (if_neg hnot))⟩
  -- V2G_LINK_LOSS with the link down
  · have hx : exec (.v2gLinkLoss n network) s = .next (s.after (v2gLinkLoss n network)) := State.input_eq hrep _
    exact ⟨_, hx, execV2gLinkLoss_frame n network hx, State.after_block (v2gLinkLoss_of_down hdown)⟩

end Sys2Proof
end

section
/-! PROOFS. The commands of the modem family and of the V2G stacks (R215, R216, R234, R235): what each makes of the modems, the sessions and
their settings, and that its answer stands. -/

namespace Sys2Proof

open Machine

namespace Machine

/-! ### What the stored settings, the log and the answer leave -/

@[simp] theorem saveSettings_plc (b : Block) : (saveSettings b).plc = b.plc := (saveSettings_frame b).plc_eq (by decide)
@[simp] theorem saveSettings_plcCfg (b : Block) : (saveSettings b).plcCfg = b.plcCfg := (saveSettings_frame b).plcCfg_eq (by decide)
@[simp] theorem saveSettings_v2gCfg (b : Block) : (saveSettings b).v2gCfg = b.v2gCfg := (saveSettings_frame b).v2gCfg_eq (by decide)
@[simp] theorem cmdLog_plc (m : Fin 4) (status : Nat) (b : Block) : (cmdLog m status b).plc = b.plc := (cmdLog_frame _ _ b).plc_eq (by decide)
@[simp] theorem cmdLog_plcCfg (m : Fin 4) (status : Nat) (b : Block) : (cmdLog m status b).plcCfg = b.plcCfg :=
  (cmdLog_frame _ _ b).plcCfg_eq (by decide)
@[simp] theorem ok_plc (m : Fin 4) (p : List U8) (b : Block) : (ok m p b).plc = b.plc := (ok_frame m p b).plc_eq (by decide)
@[simp] theorem ok_plcCfg (m : Fin 4) (p : List U8) (b : Block) : (ok m p b).plcCfg = b.plcCfg := (ok_frame m p b).plcCfg_eq (by decide)
@[simp] theorem ok_v2g (m : Fin 4) (p : List U8) (b : Block) : (ok m p b).v2g = b.v2g := (ok_frame m p b).v2g_eq (by decide)
@[simp] theorem ok_v2gCfg (m : Fin 4) (p : List U8) (b : Block) : (ok m p b).v2gCfg = b.v2gCfg := (ok_frame m p b).v2gCfg_eq (by decide)

@[simp] theorem beBytes_length (n v : Nat) : (beBytes n v).length = n := by
  rw [beBytes, List.length_reverse, leBytes_length]

/-! ### Changes of the modems or sessions that a mask names -/

/-- A change of the modems of a list without repetitions reaches those and no other; it may read which cores run. -/
theorem plcOf_forAll_updPlc {ns : List (Fin 16)} (hns : ns.Nodup) (f : Bool → Modem → Modem) (b : Block) (k : Fin 16) :
    plcOf (forAll ns (fun n c => updPlc n (f c.rst.creek) c) b) k = if k ∈ ns then f b.rst.creek (plcOf b k) else plcOf b k := by
  induction ns generalizing b with
  | nil => simp [forAll]
  | cons n ns ih =>
    obtain ⟨hn, hrest⟩ := List.nodup_cons.mp hns
    refine (ih hrest _).trans ?_
    by_cases hk : k = n
    · subst hk
      simp [hn]
    · simp only [plcOf_updPlc_ne hk, updPlc_rst, List.mem_cons, hk, false_or]

theorem plcOf_forAll_nodesOf (mask : Nat) (f : Bool → Modem → Modem) (b : Block) (k : Fin 16) :
    plcOf (forAll (nodesOf mask) (fun n c => updPlc n (f c.rst.creek) c) b) k =
      if bitOf mask k.val then f b.rst.creek (plcOf b k) else plcOf b k := by
  simp only [plcOf_forAll_updPlc (nodesOf_nodup _), mem_nodesOf]

theorem v2gOf_forAll_updV2g {ns : List (Fin 16)} (hns : ns.Nodup) (f : V2gSession → V2gSession) (b : Block) (k : Fin 16) :
    v2gOf (forAll ns (fun n => updV2g n f) b) k = if k ∈ ns then f (v2gOf b k) else v2gOf b k := by
  induction ns generalizing b with
  | nil => simp [forAll]
  | cons n ns ih =>
    obtain ⟨hn, hrest⟩ := List.nodup_cons.mp hns
    refine (ih hrest _).trans ?_
    by_cases hk : k = n
    · subst hk
      simp [hn]
    · simp only [v2gOf_updV2g_ne hk, List.mem_cons, hk, false_or]

theorem v2gOf_forAll_nodesOf (mask : Nat) (f : V2gSession → V2gSession) (b : Block) (k : Fin 16) :
    v2gOf (forAll (nodesOf mask) (fun n => updV2g n f) b) k = if bitOf mask k.val then f (v2gOf b k) else v2gOf b k := by
  simp only [v2gOf_forAll_updV2g (nodesOf_nodup _), mem_nodesOf]

/-! ### PLC_SET_MAC (R215) -/

theorem plcSetMac_of_pass {m : Fin 4} {b : Block} (hstation : (byteAt (rBytes b m 0 6) 0).getLsbD 0 = false)
    (hlast : (byteAt (rBytes b m 0 6) 5).toNat ≤ 0xE0) (hnone : modemBits b (·.enable) = 0) :
    plcSetMac m b = ok m [] (saveSettings (updPlcG (fun c => { c with macBase := BitVec.ofNat 48 (beNat (rBytes b m 0 6)) }) b)) := by
  unfold plcSetMac
  extract_lets l
  rw [checked_cons_pass (by simp only [l, hstation, hlast, hnone, decide_true, Bool.not_false, Bool.and_self, beq_self_eq_true]), checked_nil]

theorem plcSetMac_of_group {m : Fin 4} {b : Block} (hgroup : (byteAt (rBytes b m 0 6) 0).getLsbD 0 = true) :
    plcSetMac m b = refuse m 0x0702 b := by
  unfold plcSetMac
  extract_lets l
  rw [checked_cons_fail (by simp only [l, hgroup, Bool.not_true, Bool.false_and])]

/-! ### PLC_ENABLE (R234) -/

/-- An enabled modem runs unless it is in fault or Creek does not. -/
def Modem.enabled (creek : Bool) (x : Modem) : Modem := { x with enable := true, running := !x.fault && creek }

/-- The modems that mailbox `m` names are enabled. -/
def modemsEnabled (m : Fin 4) (b : Block) : Block := forAll (nodesOf (rN b m 0 2)) (fun n c => updPlc n (Modem.enabled c.rst.creek) c) b

/-- They are disabled in turn. -/
def modemsDisabled (m : Fin 4) (b : Block) : Block := forAll (nodesOf (rN b m 0 2)) modemDisable b

theorem plcEnable_of_on {m : Fin 4} {b : Block} (hon : rBit b m 2 0 = true) (hbase : b.plcCfg.macBase ≠ 0) :
    plcEnable m b = ok m (leBytes 2 (modemBits (modemsEnabled m b) (·.running))) (saveSettings (modemsEnabled m b)) := by
  unfold plcEnable
  extract_lets mask on
  have hgoes : on = true := hon
  rw [checked_cons_pass (by simpa [hgoes] using hbase), checked_nil, hgoes]
  rfl

theorem plcEnable_of_off {m : Fin 4} {b : Block} (hoff : rBit b m 2 0 = false) :
    plcEnable m b = ok m (leBytes 2 (modemBits (modemsDisabled m b) (·.running))) (saveSettings (modemsDisabled m b)) := by
  unfold plcEnable
  extract_lets mask on
  have hstops : on = false := hoff
  rw [checked_cons_pass (by simp [hstops]), checked_nil, hstops]
  rfl

theorem plcEnable_of_no_base {m : Fin 4} {b : Block} (hon : rBit b m 2 0 = true) (hnone : b.plcCfg.macBase = 0) :
    plcEnable m b = refuse m 0x0703 b := by
  unfold plcEnable
  extract_lets mask on
  have hgoes : on = true := hon
  rw [checked_cons_fail (by simp [hgoes, hnone])]

/-! ### PLC_SET_SLAC and PLC_SET_BLANK (R216, R234) -/

/-- The SLAC values of a request. -/
def reqSlacSet (m : Fin 4) (b : Block) : SlacSet := slacSetOf (rN b m 0 4) (rN b m 4 4) (rBit b m 8 0) (rBit b m 8 1)

theorem plcSetSlac_of_pass {m : Fin 4} {b : Block} (hok : (reqSlacSet m b).ok = true) :
    plcSetSlac m b = cmdLog m 0 (ok m [] (saveSettings (updPlcG (fun c => { c with set := reqSlacSet m b }) b))) := by
  unfold plcSetSlac
  extract_lets s
  rw [checked_cons_pass hok, checked_nil]
  rfl

/-- A modem with the blanking values and the level of the word `w` of a request. -/
def Modem.withBlanking (w : Nat) (x : Modem) : Modem :=
  { x with
    blankThr := BitVec.ofNat 11 (fieldOf w 0 11), blankExt := BitVec.ofNat 6 (w / 2 ^ 11), blankMax := BitVec.ofNat 9 (fieldOf w 17 9)
    txLevel := BitVec.ofNat 5 (fieldOf w 26 5) }

/-- The modems that mailbox `m` names have the blanking values of the request. -/
def blankingSet (m : Fin 4) (b : Block) : Block := forAll (nodesOf (rN b m 0 2)) (fun n c => updPlc n (Modem.withBlanking (rN b m 4 4)) c) b

theorem blankingSet_mbx (m : Fin 4) (b : Block) : (blankingSet m b).mbx = b.mbx := forAll_keeps (q := Block.mbx) (fun _ _ => by rfl) _ b

theorem plcSetBlank_of_pass {m : Fin 4} {b : Block} (hthr : 256 ≤ fieldOf (rN b m 4 4) 0 11) (hmost : 1 ≤ fieldOf (rN b m 4 4) 17 9)
    (htx : fieldOf (rN b m 4 4) 26 5 ≤ 20) : plcSetBlank m b = cmdLog m 0 (ok m [] (saveSettings (blankingSet m b))) := by
  unfold plcSetBlank
  extract_lets w thr most tx
  rw [checked_cons_pass (decide_eq_true ⟨hthr, hmost, htx⟩), checked_nil]
  rfl

/-! ### PLC_GET_STATUS, PLC_GET_RUN and PLC_GET_PROFILE (R234) -/

section
variable {m : Fin 4} {b : Block} (hnode : (nodeCheck 0x0701 b m).2 = true)
include hnode

theorem plcGetStatus_of_node :
    plcGetStatus m b = ok m (b32s [plcStatWord (plcOf b (reqNode b m)), (plcOf b (reqNode b m)).blankCnt, (plcOf b (reqNode b m)).eraseCnt,
      xtalkWord (plcOf b (reqNode b m)), attenWord (plcOf b (reqNode b m))]) b := by
  rw [plcGetStatus, checked_cons_pass hnode, checked_nil]

/-- The answer of PLC_GET_RUN: identity, instant, decision, winner, attenuations and windows of a run. -/
def runAnswer (r : RunReport) : List U8 :=
  beBytes 6 r.key.mac.toNat ++ [0, 0] ++ beBytes 8 r.key.runId.toNat ++ b64 r.decidedAt ++ [r.decision.setWidth 8, BitVec.ofNat 8 r.winner.val] ++
    padTo 16 r.atten ++ padTo 16 r.windows

theorem plcGetRun_of_run {r : RunReport} (hlast : (plcOf b (reqNode b m)).lastRun = some r) : plcGetRun m b = ok m (runAnswer r) b := by
  rw [plcGetRun, checked_cons_pass hnode, checked_nil, hlast]
  rfl

theorem plcGetRun_of_none (hnone : (plcOf b (reqNode b m)).lastRun = none) : plcGetRun m b = refuse m 0x0706 b := by
  rw [plcGetRun, checked_cons_pass hnode, checked_nil, hnone]

variable (hport : rN b m 1 1 < 16)
include hport

theorem plcGetProfile_of_run {r : RunReport} (hlast : (plcOf b (reqNode b m)).lastRun = some r) :
    plcGetProfile m b = ok m (if r.profiles.getD (rN b m 1 1) [] = [] then List.replicate 58 0xFF
      else padTo 58 (r.profiles.getD (rN b m 1 1) [])) b := by
  rw [plcGetProfile, checked_cons_pass hnode, checked_cons_pass (decide_eq_true hport), checked_nil, hlast]

theorem plcGetProfile_of_none (hnone : (plcOf b (reqNode b m)).lastRun = none) : plcGetProfile m b = refuse m 0x0706 b := by
  rw [plcGetProfile, checked_cons_pass hnode, checked_cons_pass (decide_eq_true hport), checked_nil, hnone]

end

/-! ### PLC_CLEAR_COUNTS and V2G_CLEAR_COUNTS -/

/-- The four counts of a modem are 0. -/
def Modem.countsCleared (x : Modem) : Modem := { x with blankCnt := 0, eraseCnt := 0, rejected := 0, ambiguous := 0 }

/-- The counts of the modems that the request names are 0. -/
def modemCountsCleared (m : Fin 4) (b : Block) : Block := forAll (nodesOf (rN b m 0 2)) (fun n c => updPlc n Modem.countsCleared c) b

theorem modemCountsCleared_mbx (m : Fin 4) (b : Block) : (modemCountsCleared m b).mbx = b.mbx :=
  forAll_keeps (q := Block.mbx) (fun _ _ => by rfl) _ b

/-- The two counts of a V2G session are 0. -/
def V2gSession.countsCleared (v : V2gSession) : V2gSession := { v with timeouts := 0, tlsFail := 0 }

/-- The counts of the connectors that the request names are 0. -/
def v2gCountsCleared (m : Fin 4) (b : Block) : Block := forAll (nodesOf (rN b m 0 2)) (fun n => updV2g n V2gSession.countsCleared) b

theorem v2gCountsCleared_mbx (m : Fin 4) (b : Block) : (v2gCountsCleared m b).mbx = b.mbx :=
  forAll_keeps (q := Block.mbx) (fun _ _ => by rfl) _ b

/-! ### V2G_SET_CONFIG and V2G_GET_SESSION (R235) -/

/-- The V2G settings with the values of a request. -/
def reqV2gCfg (m : Fin 4) (b : Block) : V2gCfg :=
  { b.v2gCfg with
    allowed := BitVec.ofNat 4 (rN b m 0 4), external := bitOf (rN b m 0 4) 4, contract := bitOf (rN b m 0 4) 5
    seqTimeout := BitVec.ofNat 6 (fieldOf (rN b m 0 4) 16 6), queue := BitVec.ofNat 16 (rN b m 4 2) }

theorem v2gSetConfig_of_pass {m : Fin 4} {b : Block} (hqueue : queueOk (rN b m 4 2) true = true) (hlo : 5 ≤ fieldOf (rN b m 0 4) 16 6)
    (hhi : fieldOf (rN b m 0 4) 16 6 ≤ 60) (hprotocol : fieldOf (rN b m 0 4) 0 4 ≠ 0) :
    v2gSetConfig m b = ok m [] (saveSettings { b with v2gCfg := reqV2gCfg m b }) := by
  unfold v2gSetConfig
  extract_lets w t q
  rw [checked_cons_pass hqueue, checked_cons_pass (decide_eq_true ⟨hlo, hhi, hprotocol⟩), checked_nil]
  rfl

theorem v2gGetSession_of_node {m : Fin 4} {b : Block} (hnode : (nodeCheck 0x0601 b m).2 = true) :
    v2gGetSession m b = ok m (b32s [v2gStatWord (v2gOf b (reqNode b m)), evLimitWord (v2gOf b (reqNode b m)), evTargetWord (v2gOf b (reqNode b m)),
      (v2gOf b (reqNode b m)).maxP.setWidth 32, (sessOf b (reqNode b m)).number]) b := by
  rw [v2gGetSession, checked_cons_pass hnode, checked_nil]

/-! ### V2G_SET_SECC (R235) -/

theorem v2gSetSecc_of_queue {m : Fin 4} {b : Block} (hqueue : queueOk (rN b m 0 2) false = false) : v2gSetSecc m b = refuse m 6 b := by
  unfold v2gSetSecc
  extract_lets q k slot chain x
  rw [checked_cons_fail hqueue]

/-- The chain that the records of a request carry. -/
def reqChain (m : Fin 4) (b : Block) : List U8 := hostDataBytes b (rN b m 0 2) (rN b m 2 2)

/-- The records of a request are consumed, and their chain is taken with key slot `k`. -/
def seccTaken (m : Fin 4) (k : Fin 16) (b : Block) : Block :=
  let c := hostDataConsume (rN b m 0 2) (rN b m 2 2) b
  { c with v2gCfg := { c.v2gCfg with chain := reqChain m b, keySlot := some k } }

theorem seccTaken_v2gCfg (m : Fin 4) (k : Fin 16) (b : Block) :
    (seccTaken m k b).v2gCfg = { b.v2gCfg with chain := reqChain m b, keySlot := some k } := by
  simp only [seccTaken, (hostDataConsume_frame _ _ _).v2gCfg_eq (by decide)]

/-- A chain of the key in a usable slot for server keys is taken. -/
theorem v2gSetSecc_of_pass {m : Fin 4} {b : Block} {k : Fin 16} (hqueue : queueOk (rN b m 0 2) false = true)
    (hdata : hostDataCheck b (rN b m 0 2) (rN b m 2 2) = 0) (hslot : rN b m 4 2 = k.val) (husable : slotUsable b k = true)
    (husage : (vget b.key.index k).usage = 6) (hsome : reqChain m b ≠ [])
    (hmatches : Config.chainMatches (reqChain m b) (vget b.key.index k).pub = true) :
    v2gSetSecc m b = ok m (leBytes 4 (reqChain m b).length) (seccTaken m k b) := by
  have hlt : rN b m 4 2 < 16 := hslot ▸ k.isLt
  unfold v2gSetSecc
  extract_lets q j slot chain x
  have hk : slot = k := Fin.ext ((Nat.mod_eq_of_lt hlt).trans hslot)
  have hchain : chain = reqChain m b := rfl
  have hpass : (decide (rN b m 4 2 < 16) && slotUsable b slot && x.usage == 6 && decide (chain ≠ []) &&
      Config.chainMatches chain x.pub) = true := by
    simp [x, hk, hchain, hlt, husable, husage, hsome, hmatches]
  rw [checked_cons_pass hqueue, checked_cons_pass (beq_iff_eq.mpr hdata), checked_cons_pass hpass, checked_nil, hk]
  rfl

end Machine

/-- Settles O33: each request runs the effect of its command once its checks hold; the stored settings, the answer, the log entry and the
records consumed leave the modems, the sessions and their settings as the command wrote them. -/
theorem modemCommands : Obligations.ModemCommands := by
  refine ⟨fun s m ha hstation hlast hnone => ?_, fun s m ha hgroup => ?_, fun s m ha hon hbase => ?_, fun s m ha hoff => ?_,
    fun s m ha hon hnone => ?_, fun s m ha hok => ?_, fun s m ha hthr hmost htx => ?_, fun s m ha hnode => ?_,
    fun s m r ha hnode hlast => ?_, fun s m ha hnode hnone => ?_, fun s m r ha hnode hport hlast hempty => ?_,
    fun s m r ha hnode hport hlast hsome => ?_, fun s m ha hnode hport hnone => ?_, fun s m ha => ?_,
    fun s m ha hqueue hlo hhi hprotocol => ?_, fun s m ha hqueue => ?_,
    fun s m k ha hqueue hdata hslot husable husage hsome => ?_, fun s m ha hnode => ?_, fun s m ha => ?_⟩
  -- PLC_SET_MAC
  · have hx : exec (.plcSetMac m) s = .next (s.after (plcSetMac m)) := run_of_asked ha _
    have heff := plcSetMac_of_pass hstation hlast hnone
    refine ⟨_, hx, execPlcSetMac_frame m hx, answered_of_respond heff (by simp) (by simp), ?_⟩
    rw [State.after_plcCfg, heff, ok_plcCfg, saveSettings_plcCfg, updPlcG_plcCfg]
  -- PLC_SET_MAC of a group address
  · have hx : exec (.plcSetMac m) s = .next (s.after (plcSetMac m)) := run_of_asked ha _
    have heff := plcSetMac_of_group hgroup
    exact ⟨_, hx, execPlcSetMac_frame m hx, answered_of_refuse heff, (after_refuse_frame heff).plcCfg_eq (by decide)⟩
  -- PLC_ENABLE on
  · have hx : exec (.plcEnable m) s = .next (s.after (plcEnable m)) := run_of_asked ha _
    refine ⟨_, hx, execPlcEnable_frame m hx, fun k => ?_⟩
    rw [plcOf_after, plcEnable_of_on hon hbase, plcOf_congr (ok_plc _ _ _), plcOf_congr (saveSettings_plc _)]
    exact plcOf_forAll_nodesOf _ Modem.enabled _ k
  -- PLC_ENABLE off
  · have hx : exec (.plcEnable m) s = .next (s.after (plcEnable m)) := run_of_asked ha _
    exact ⟨_, hx, execPlcEnable_frame m hx, State.after_block (plcEnable_of_off hoff)⟩
  -- PLC_ENABLE on without a base
  · have hx : exec (.plcEnable m) s = .next (s.after (plcEnable m)) := run_of_asked ha _
    have heff := plcEnable_of_no_base hon hnone
    exact ⟨_, hx, execPlcEnable_frame m hx, answered_of_refuse heff, (after_refuse_frame heff).plc_eq (by decide)⟩
  -- PLC_SET_SLAC
  · have hx : exec (.plcSetSlac m) s = .next (s.after (plcSetSlac m)) := run_of_asked ha _
    have heff := plcSetSlac_of_pass hok
    refine ⟨_, hx, execPlcSetSlac_frame m hx, answered_of_logged heff (by simp) (by simp), ?_⟩
    rw [State.after_plcCfg, heff, cmdLog_plcCfg, ok_plcCfg, saveSettings_plcCfg, updPlcG_plcCfg, reqSlacSet]
  -- PLC_SET_BLANK
  · have hx : exec (.plcSetBlank m) s = .next (s.after (plcSetBlank m)) := run_of_asked ha _
    have heff := plcSetBlank_of_pass hthr hmost htx
    refine ⟨_, hx, execPlcSetBlank_frame m hx,
      answered_of_logged heff ((saveSettings_mbx _).trans (blankingSet_mbx _ _)) (by simp), fun k => ?_⟩
    rw [plcOf_after, heff, plcOf_congr (cmdLog_plc _ _ _), plcOf_congr (ok_plc _ _ _), plcOf_congr (saveSettings_plc _)]
    exact plcOf_forAll_nodesOf _ (fun _ => Modem.withBlanking (rN s.block m 4 4)) _ k
  -- PLC_GET_STATUS
  · have hx : exec (.plcGetStatus m) s = .next (s.after (plcGetStatus m)) := run_of_asked ha _
    exact ⟨_, hx, execPlcGetStatus_frame m hx, answered_of_respond (plcGetStatus_of_node hnode) rfl (by simp)⟩
  -- PLC_GET_RUN
  · have hx : exec (.plcGetRun m) s = .next (s.after (plcGetRun m)) := run_of_asked ha _
    exact ⟨_, hx, execPlcGetRun_frame m hx, answered_of_respond (plcGetRun_of_run hnode hlast) rfl (by simp)⟩
  -- PLC_GET_RUN without a run
  · have hx : exec (.plcGetRun m) s = .next (s.after (plcGetRun m)) := run_of_asked ha _
    exact ⟨_, hx, execPlcGetRun_frame m hx, answered_of_refuse (plcGetRun_of_none hnode hnone)⟩
  -- PLC_GET_PROFILE of a port without windows
  · have hx : exec (.plcGetProfile m) s = .next (s.after (plcGetProfile m)) := run_of_asked ha _
    have heff := plcGetProfile_of_run hnode hport hlast
    rw [if_pos hempty] at heff
    exact ⟨_, hx, execPlcGetProfile_frame m hx, answered_of_respond heff rfl (by simp)⟩
  -- PLC_GET_PROFILE of one with windows
  · have hx : exec (.plcGetProfile m) s = .next (s.after (plcGetProfile m)) := run_of_asked ha _
    have heff := plcGetProfile_of_run hnode hport hlast
    rw [if_neg hsome] at heff
    exact ⟨_, hx, execPlcGetProfile_frame m hx, answered_of_respond heff rfl (by simp)⟩
  -- PLC_GET_PROFILE without a run
  · have hx : exec (.plcGetProfile m) s = .next (s.after (plcGetProfile m)) := run_of_asked ha _
    exact ⟨_, hx, execPlcGetProfile_frame m hx, answered_of_refuse (plcGetProfile_of_none hnode hport hnone)⟩
  -- PLC_CLEAR_COUNTS
  · have hx : exec (.plcClearCounts m) s = .next (s.after (plcClearCounts m)) := run_of_asked ha _
    have heff : plcClearCounts m s.block = ok m [] (modemCountsCleared m s.block) := rfl
    refine ⟨_, hx, execPlcClearCounts_frame m hx, answered_of_respond heff (modemCountsCleared_mbx _ _) (by simp), fun k => ?_⟩
    rw [plcOf_after, heff, plcOf_congr (ok_plc _ _ _)]
    exact plcOf_forAll_nodesOf _ (fun _ => Modem.countsCleared) _ k
  -- V2G_SET_CONFIG
  · have hx : exec (.v2gSetConfig m) s = .next (s.after (v2gSetConfig m)) := run_of_asked ha _
    have heff := v2gSetConfig_of_pass hqueue hlo hhi hprotocol
    refine ⟨_, hx, execV2gSetConfig_frame m hx, answered_of_respond heff (by simp) (by simp), ?_⟩
    rw [State.after_v2gCfg, heff, ok_v2gCfg, saveSettings_v2gCfg, reqV2gCfg]
  -- V2G_SET_SECC from no host queue
  · have hx : exec (.v2gSetSecc m) s = .next (s.after (v2gSetSecc m)) := run_of_asked ha _
    have heff := v2gSetSecc_of_queue hqueue
    have hkeep := after_refuse_frame heff
    exact ⟨_, hx, execV2gSetSecc_frame m hx, answered_of_refuse heff, hkeep.v2gCfg_eq (by decide), hkeep.qmg_eq (by decide)⟩
  -- V2G_SET_SECC of a chain that matches its key
  · have hx : exec (.v2gSetSecc m) s = .next (s.after (v2gSetSecc m)) := run_of_asked ha _
    refine ⟨_, hx, execV2gSetSecc_frame m hx, fun hmatches => ?_⟩
    rw [State.after_v2gCfg, v2gSetSecc_of_pass hqueue hdata hslot husable husage hsome hmatches, ok_v2gCfg, seccTaken_v2gCfg, reqChain]
  -- V2G_GET_SESSION
  · have hx : exec (.v2gGetSession m) s = .next (s.after (v2gGetSession m)) := run_of_asked ha _
    exact ⟨_, hx, execV2gGetSession_frame m hx, answered_of_respond (v2gGetSession_of_node hnode) rfl (by simp)⟩
  -- V2G_CLEAR_COUNTS
  · have hx : exec (.v2gClearCounts m) s = .next (s.after (v2gClearCounts m)) := run_of_asked ha _
    have heff : v2gClearCounts m s.block = ok m [] (v2gCountsCleared m s.block) := rfl
    refine ⟨_, hx, execV2gClearCounts_frame m hx, answered_of_respond heff (v2gCountsCleared_mbx _ _) (by simp), fun k => ?_⟩
    rw [v2gOf_after, heff, v2gOf_congr (ok_v2g _ _ _)]
    exact v2gOf_forAll_nodesOf _ V2gSession.countsCleared _ k

end Sys2Proof
end

section
/-! PROOFS. Sources that stay pending while an entry goes to the launcher, a line is asked of the store, a session stops, a lock-out is set
and a fault is contained (R432, R20 to R26, R274, R278, R281, R282). -/

namespace Sys2Proof

open Machine

namespace Machine

namespace Hic.KeepsPending

/-- An operation whose frame leaves the concentrator out clears no source. -/
theorem of_frame {h : Hic} {l : List Part} {b c : Block} (hb : h.KeepsPending b.hic) (hf : Block.Only l b c) (hp : Part.hic ∉ l) :
    h.KeepsPending c.hic :=
  hb.of_eq (hf.hic_eq hp)

section
variable {h : Hic} {b : Block} (hb : h.KeepsPending b.hic)

include hb

theorem forAll {α : Type} {f : α → Block → Block} (hf : ∀ x c, h.KeepsPending c.hic → h.KeepsPending (f x c).hic) (xs : List α) :
    h.KeepsPending (forAll xs f b).hic := by
  induction xs generalizing b with
  | nil => exact hb
  | cons x xs ih => exact ih (hf x b hb)

/-! ### Entries of the launcher -/

theorem submitEntry (a : Fin 16) (r : Nat) (e : Entry) : h.KeepsPending (submitEntry a r e b).1.hic := by
  have halloc := hb.qAlloc a none
  unfold Machine.submitEntry
  split
  · next hq => rwa [hq] at halloc
  · next c u hq =>
    rw [hq] at halloc
    have henq : h.KeepsPending (Machine.qEnqueue a r u (setBuf u (entryBytes e) c)).1.hic :=
      (halloc.of_eq (setBuf_hic u (entryBytes e) c)).qEnqueue a r u
    split
    · next hq => rwa [hq] at henq
    · next hq =>
      rw [hq] at henq
      exact henq.qFree a u

theorem submit (a : Fin 16) (r : Nat) (e : Entry) : h.KeepsPending (submit a r e b).hic := hb.submitEntry a r e

theorem hsEntry (r c : Nat) (a : U8) (t : U64) : h.KeepsPending (hsEntry r c a t b).hic := hb.submit _ _ _

theorem setDuty (n : Fin 16) (d : Nat) : h.KeepsPending (setDuty n d b).hic := by
  refine submit ?_ _ _ _
  exact hb

theorem dutyReview (n : Fin 16) : h.KeepsPending (dutyReview n b).hic := by
  unfold Machine.dutyReview
  split
  · exact hb.setDuty _ _
  · exact hb

theorem supplyOn (n : Fin 16) : h.KeepsPending (supplyOn n b).hic := by
  unfold Machine.supplyOn
  extract_lets s
  split
  · split
    · exact hb
    · exact hb.hsEntry _ _ _ _
  · exact hb

theorem supplyOff (n : Fin 16) : h.KeepsPending (supplyOff n b).hic := by
  unfold Machine.supplyOff
  extract_lets s
  split
  · exact hb.hsEntry _ _ _ _
  · exact hb

theorem driveEntry (n : Fin 16) (t : Nat) : h.KeepsPending (driveEntry n t b).hic := by
  unfold Machine.driveEntry
  extract_lets p r
  have hr : h.KeepsPending r.1.hic := hb.submitEntry _ _ _
  exact onlyIf hr _ fun hc => hc.of_eq (updImd_hic _ _ _)

theorem driveAux (i k : Nat) : h.KeepsPending (driveAux i k b).hic := by
  induction k generalizing b with
  | zero => exact hb
  | succ k ih =>
    unfold Machine.driveAux
    split
    · exact hb
    · split
      · exact ih (hb.driveEntry _ _)
      · exact hb

theorem driveFeed : h.KeepsPending (driveFeed b).hic := by
  unfold Machine.driveFeed
  extract_lets c
  have hc : h.KeepsPending c.hic := hb
  split
  · exact hc.driveAux _ _
  · exact hc

/-! ### Output contactor pairs -/

theorem coilStart (n : Fin 16) : h.KeepsPending (coilStart n b).hic := by
  unfold Machine.coilStart
  extract_lets x s supply head
  split
  · refine onlyIf ?_ _ fun hc => hc.irq 328
    exact hb
  · exact hb

theorem coilRelease (n : Fin 16) : h.KeepsPending (coilRelease n b).hic := by
  refine hb.forAll (fun k c hc => ?_) _
  split
  · exact hc
  · refine coilStart ?_ k
    exact hc

theorem lsOn (n : Fin 16) : h.KeepsPending (lsOn n b).hic := by
  refine coilStart ?_ n
  exact hb

theorem lsOff (n : Fin 16) : h.KeepsPending (lsOff n b).hic := by
  unfold Machine.lsOff
  extract_lets x c under d
  split
  · exact hb
  split
  · exact hb
  · have hd : h.KeepsPending d.hic := hb
    refine onlyIf (onlyIf hd _ fun he => ?_) _ fun he => he.coilRelease n
    refine irq ?_ 300
    exact he

theorem dykeClear (n : Fin 16) : h.KeepsPending (dykeClear n b).hic := by
  refine lsOff ?_ n
  exact hb

theorem openNow (n : Fin 16) : h.KeepsPending (openNow n b).hic := by
  refine dykeClear ?_ n
  exact hb

theorem openOutside (n : Fin 16) : h.KeepsPending (openOutside n b).hic := by
  refine supplyOff (of_frame (dykeClear ?_ n) (imdSessionEnds_frame n _) (by decide)) n
  exact hb

theorem closePair (n : Fin 16) : h.KeepsPending (closePair n b).hic := by
  unfold Machine.closePair
  extract_lets c
  split
  · refine lsOn ?_ n
    exact hb
  · exact hb

theorem reviewHw : h.KeepsPending (reviewHw b).hic := by
  refine hb.forAll (fun n c hc => ?_) _
  refine onlyIf ?_ _ fun hd => hd.lsOff n
  exact hc

/-! ### Lines of the store and the ledgers -/

theorem peatRequest (r : Fin 6) (first : Nat) (content : List (List U8)) (act : StoreAct) :
    h.KeepsPending (peatRequest r first content act b).hic := by
  unfold Machine.peatRequest
  extract_lets n
  split
  · exact hb.of_frame (pushRequest_frame _ _ _) (by decide)
  · refine irq ?_ 390
    exact hb

theorem peatFree (r : Fin 6) (base size : Nat) (act : StoreAct) : h.KeepsPending (peatFree r base size act b).hic := by
  refine peatRequest ?_ _ _ _ _
  exact hb

theorem saveSafety : h.KeepsPending (saveSafety b).hic := hb.peatFree _ _ _ _

theorem saveWalletAs (act : StoreAct) (w : Nat) : h.KeepsPending (saveWalletAs act w b).hic := by
  refine peatRequest ?_ _ _ _ _
  exact hb

theorem selfLine (event : Nat) (conn : Option (Fin 16)) (w : Option Nat) (amount after : U64) (session msgSeq : U32) :
    h.KeepsPending (selfLine event conn w amount after session msgSeq b).hic := by
  refine peatRequest ?_ _ _ _ _
  exact hb

theorem transfer {f : Block → Block} (hf : h.KeepsPending (f b).hic) : h.KeepsPending (transfer f b).1.hic := by
  unfold Machine.transfer
  extract_lets x d
  split
  · exact hf
  · refine of_frame (of_frame (irq ?_ 432) (conservationLog_frame _ _ _) (by decide)) (raiseFatal_frame _ _) (by decide)
    exact hb

theorem returnLedger (n : Fin 16) : h.KeepsPending (returnLedger n b).hic := by
  unfold Machine.returnLedger
  extract_lets l w c x t
  have hc : h.KeepsPending c.hic := onlyIf hb _ fun hd => hd.selfLine _ _ _ _ _ _ _
  have ht : h.KeepsPending t.1.hic := by
    refine hc.transfer ?_
    simpa only [updLedger_hic, setWallet_hic] using hc
  split
  · exact hb
  split
  · exact (ht.selfLine _ _ _ _ _ _ _).saveWalletAs _ _
  · exact ht

theorem closeItems (n : Fin 16) (r x : U8) : h.KeepsPending (closeItems n r x b).hic := by
  unfold Machine.closeItems
  extract_lets k c
  have hc : h.KeepsPending c.hic := hb.returnLedger n
  split
  · exact hb
  · exact hc.of_frame (takeReading_frame _ _) (by decide)

/-! ### Sessions that stop -/

theorem imdCableCheck (n : Fin 16) : h.KeepsPending (imdCableCheck n b).hic := by
  refine driveFeed ?_
  exact hb

theorem enterPhase (n : Fin 16) (p : Phase) : h.KeepsPending (enterPhase n p b).hic := by
  unfold Machine.enterPhase
  extract_lets c
  have hmodem : h.KeepsPending (modemPhase n p b).hic := hb.of_frame (modemPhase_frame n p b) (by decide)
  have hc : h.KeepsPending c.hic := hmodem
  split
  · exact ((hc.supplyOn n).imdCableCheck n).closePair n
  · exact hc
  · exact hc
  · exact hc
  · exact hc.openOutside n

theorem endSession (n : Fin 16) : h.KeepsPending (endSession n b).hic := by
  unfold Machine.endSession
  extract_lets r c d
  have hc : h.KeepsPending c.hic := hb.of_eq (updSess_hic n _ b)
  have hd : h.KeepsPending d.hic := hc.enterPhase n _
  exact (hd.of_eq (updVeh_hic n _ d)).closeItems n _ _

theorem stopSession (n : Fin 16) (r : EndReason) : h.KeepsPending (stopSession n r b).hic := by
  unfold Machine.stopSession
  extract_lets s c
  have hc : h.KeepsPending c.hic := hb
  split
  · split
    · exact hc
    split
    · exact hc.enterPhase n _
    · exact hc.endSession n
  · exact hb

theorem stopAll (r : EndReason) : h.KeepsPending (stopAll r b).hic := hb.forAll (fun n _ hc => hc.stopSession n r) _

theorem stopDone (n : Fin 16) : h.KeepsPending (stopDone n b).hic := by
  unfold Machine.stopDone
  split
  · exact hb.endSession n
  · exact hb

theorem reasonUnderLoad (n : Fin 16) (r : EndReason) : h.KeepsPending (reasonUnderLoad n r b).hic :=
  hb.of_frame (reasonUnderLoad_frame n r b) (by decide)

/-! ### Lock-outs and openings -/

theorem coverFaulted (n : Fin 16) : h.KeepsPending (coverFaulted n b).hic := by
  refine dutyReview (dykeClear ?_ n) n
  exact hb

theorem setLock (s : CScope) (cause : U8) : h.KeepsPending (setLock s cause b).hic := by
  unfold Machine.setLock
  extract_lets held c
  have hc : h.KeepsPending c.hic := by cases s <;> exact hb
  split
  · exact hc
  · have hlog := (hc.irq 289).of_frame (lockoutLog_frame 1 s cause _) (by decide)
    exact (hlog.saveSafety.forAll (fun n _ hd => hd.coverFaulted n) _).reviewHw

theorem openStop (r : EndReason) (n : Fin 16) : h.KeepsPending (openStop r n b).hic :=
  ((hb.openNow n).stopSession n r).reasonUnderLoad n r

theorem rampedOpen (n : Fin 16) : h.KeepsPending (rampedOpen n b).hic := by
  unfold Machine.rampedOpen
  extract_lets w r c d
  clear_value w r
  have hc : h.KeepsPending c.hic := by
    refine dykeClear ?_ n
    exact hb
  have hd : h.KeepsPending d.hic := by
    cases r
    case none => exact hc
    case some => exact hc.reasonUnderLoad n _
  refine stopDone ?_ n
  cases w
  case none => exact hd
  case some => exact hd.setLock _ _

theorem rampNode (n : Fin 16) (r : EndReason) : h.KeepsPending (rampNode n r b).hic := by
  unfold Machine.rampNode
  extract_lets c
  have hc : h.KeepsPending c.hic := hb.stopSession n r
  split
  · exact hc
  · exact hc.rampedOpen n

theorem hubSafeStop (r : EndReason) : h.KeepsPending (hubSafeStop r b).hic := by
  unfold Machine.hubSafeStop
  extract_lets c d
  have hc : h.KeepsPending c.hic := by
    refine irq ?_ 288
    exact hb
  exact ((hc.forAll (fun n _ he => he.openNow n) _).stopAll r).forAll (fun n _ he => he.reasonUnderLoad n r) _

/-! ### Containment -/

theorem recordFault (f : FaultSpec) (s : CScope) (k : Nat) : h.KeepsPending (recordFault f s k b).hic :=
  hb.of_frame (recordFault_frame f s k b) (by decide)

theorem openWindow (cause : U8) (s : CScope) (k : Nat) : h.KeepsPending (openWindow cause s k b).hic :=
  hb.of_frame (openWindow_frame cause s k b) (by decide)

theorem applyNode (mode : OpenMode) (r : EndReason) (n : Fin 16) : h.KeepsPending (applyNode mode r n b).hic := by
  cases mode
  case immediate => exact hb.openStop r n
  case ramped => exact hb.rampNode n r
  case hubStop => exact hb.openStop r n
  case heldOpen => exact hb.openNow n

theorem applyOwn (f : FaultSpec) : h.KeepsPending (applyOwn f b).hic := by
  unfold Machine.applyOwn
  split
  · exact onlyIf (hb.hubSafeStop _) _ fun hc => hc.setLock _ _
  · extract_lets c
    have hc : h.KeepsPending c.hic := by
      unfold c
      split
      · exact hb
      · exact hb
    split
    · split
      · refine rampNode ?_ _ _
        exact hc
      · exact (hc.rampNode _ _).setLock _ _
    · exact onlyIf (hc.forAll (fun n _ hd => hd.applyNode _ _ n) _) _ fun hd => hd.setLock _ _

theorem applyLane (l : Fin 8) (r : EndReason) (lock : Bool) (cause : U8) : h.KeepsPending (applyLane l r lock cause b).hic := by
  have hlane : h.KeepsPending (laneZero l b).hic := hb
  refine onlyIf (hlane.forAll (fun n c hc => ?_) _) _ fun hc => hc.setLock _ _
  split
  · exact hc.rampNode n r
  · exact hc.stopSession n r

theorem applyHub (hubStop : Bool) (r : EndReason) (lock : Bool) (cause : U8) : h.KeepsPending (applyHub hubStop r lock cause b).hic := by
  refine onlyIf ?_ _ fun hc => hc.setLock _ _
  cases hubStop
  · exact hb.forAll (fun n _ hc => hc.rampNode n r) _
  · exact hb.hubSafeStop r

theorem applyWidened (k : Nat) (hubStop : Bool) (cause : U8) : h.KeepsPending (applyWidened k hubStop cause b).hic := by
  unfold Machine.applyWidened
  extract_lets r lock c l
  have hc : h.KeepsPending c.hic := hb.irq 297
  split
  · refine (hc.of_eq (updSaf_hic _ c)).forAll (fun s d hd => ?_) _
    cases s
    case lane => exact (hd.applyLane _ _ _ _).openWindow _ _ _
    all_goals exact hd
  · exact ((hc.of_eq (updSaf_hic _ c)).applyHub _ _ _ _).openWindow _ _ _

/-- The containment of a fault clears no pending source. -/
theorem contain (f : FaultSpec) : h.KeepsPending (contain f b).hic := by
  unfold Machine.contain containAs
  split
  · exact (hb.recordFault _ _ _).applyOwn f
  · extract_lets c k lvl d e
    have hc : h.KeepsPending c.hic := hb.of_frame (countFault_frame f b) (by decide)
    have hd : h.KeepsPending d.hic := (hc.applyOwn f).recordFault _ _ _
    have he : h.KeepsPending e.hic := (hc.applyOwn f).recordFault _ _ _
    split
    · exact ((hc.applyOwn f).recordFault _ _ _).openWindow _ _ _
    split
    · exact hd.applyWidened _ _ _
    · exact (he.of_eq (updSaf_hic _ e)).applyWidened _ _ _

/-! ### The log -/

theorem stageLeased (body : List U8) : h.KeepsPending (stageLeased body b).hic := by
  unfold Machine.stageLeased
  extract_lets t e full u
  refine onlyIf ?_ _ fun hc => hc.irq 466
  exact hb

theorem stageOp (body : List U8) : h.KeepsPending (stageOp body b).hic := by
  unfold Machine.stageOp
  split
  · extract_lets t c
    have hc : h.KeepsPending c.hic := hb
    split
    · exact hc
    · exact hc.of_frame (leaseWrite_frame _ _) (by decide)
  · exact hb.stageLeased body

theorem cmdLog (m : Fin 4) (status : Nat) : h.KeepsPending (cmdLog m status b).hic := by
  unfold Machine.cmdLog opLogAs
  extract_lets sec r raise
  split
  · refine onlyIf ?_ _ fun hc => hc.irq 467
    exact hb
  · refine stageOp ?_ _
    exact hb

theorem respond (m : Fin 4) (status : Nat) (p : List U8) : h.KeepsPending (respond m status p b).hic :=
  hb.of_frame (respond_frame m status p b) (by decide)

end

end Hic.KeepsPending

end Machine

end Sys2Proof
end

section
/-! PROOFS. Insulation nodes and residual-current feeders read through an update, a frame or a command; the cable check that runs out under a
lock-out (R240, R247, R248, R278). -/

namespace Sys2Proof

open Machine

namespace Block.Only

variable {l : List Part} {b c : Block}

theorem imd_eq (h : Block.Only l b c) (hp : Part.imd ∉ l) : c.imd = b.imd := h .imd hp
theorem imdG_eq (h : Block.Only l b c) (hp : Part.imdG ∉ l) : c.imdG = b.imdG := h .imdG hp
theorem rcm_eq (h : Block.Only l b c) (hp : Part.rcm ∉ l) : c.rcm = b.rcm := h .rcm hp
theorem rcmTest_eq (h : Block.Only l b c) (hp : Part.rcmTest ∉ l) : c.rcmTest = b.rcmTest := h .rcmTest hp

end Block.Only

namespace Machine

/-! ### Nodes and feeders -/

section
variable (s : State) (f : Block → Block)

@[simp] theorem State.after_imd : (s.after f).block.imd = (f s.block).imd := (safetyItem_frame _ _).imd_eq (by decide)
@[simp] theorem State.after_imdG : (s.after f).block.imdG = (f s.block).imdG := (safetyItem_frame _ _).imdG_eq (by decide)
@[simp] theorem State.after_rcm : (s.after f).block.rcm = (f s.block).rcm := (safetyItem_frame _ _).rcm_eq (by decide)
@[simp] theorem State.after_rcmTest : (s.after f).block.rcmTest = (f s.block).rcmTest := (safetyItem_frame _ _).rcmTest_eq (by decide)

end

theorem imdOf_congr {b c : Block} (h : c.imd = b.imd) (n : Fin 16) : imdOf c n = imdOf b n := by rw [imdOf, h, imdOf]

theorem rcmOf_congr {b c : Block} (h : c.rcm = b.rcm) (f : Fin 2) : rcmOf c f = rcmOf b f := by rw [rcmOf, h, rcmOf]

@[simp] theorem imdOf_after (s : State) (f : Block → Block) (n : Fin 16) : imdOf (s.after f).block n = imdOf (f s.block) n :=
  imdOf_congr (s.after_imd f) n

@[simp] theorem rcmOf_after (s : State) (g : Block → Block) (f : Fin 2) : rcmOf (s.after g).block f = rcmOf (g s.block) f :=
  rcmOf_congr (s.after_rcm g) f

@[simp] theorem imdOf_updImd_self (n : Fin 16) (f : ImdNode → ImdNode) (b : Block) : imdOf (updImd n f b) n = f (imdOf b n) :=
  vget_vupd_self _ _ _

theorem imdOf_updImd_ne {n k : Fin 16} (h : k ≠ n) (f : ImdNode → ImdNode) (b : Block) : imdOf (updImd n f b) k = imdOf b k :=
  vget_vupd_ne _ _ h

@[simp] theorem irq_rcm (n : Nat) (b : Block) : (irq n b).rcm = b.rcm := (irq_frame n b).rcm_eq (by decide)

/-- A change of the nodes of a list without repetitions reaches those and no other. -/
theorem imdOf_forAll_updImd {ns : List (Fin 16)} (hns : ns.Nodup) (f : ImdNode → ImdNode) (b : Block) (k : Fin 16) :
    imdOf (forAll ns (fun n => updImd n f) b) k = if k ∈ ns then f (imdOf b k) else imdOf b k := by
  induction ns generalizing b with
  | nil => simp [forAll]
  | cons n ns ih =>
    obtain ⟨hn, hrest⟩ := List.nodup_cons.mp hns
    refine (ih hrest _).trans ?_
    by_cases hk : k = n
    · subst hk
      simp [hn]
    · simp only [imdOf_updImd_ne hk, List.mem_cons, hk, false_or]

theorem imdOf_forAll_nodesOf (mask : Nat) (f : ImdNode → ImdNode) (b : Block) (k : Fin 16) :
    imdOf (forAll (nodesOf mask) (fun n => updImd n f) b) k = if bitOf mask k.val then f (imdOf b k) else imdOf b k := by
  simp only [imdOf_forAll_updImd (nodesOf_nodup _), mem_nodesOf]

/-! ### The time of activity (R250) -/

theorem imdOf_noteActive (b : Block) (n : Fin 16) : ∃ t, imdOf (noteActive b) n = { imdOf b n with activeFrom := t } :=
  ⟨_, vget_vmapIdx _ _ _⟩

/-! ### A session that ends takes U_test with it (R247) -/

theorem uTest_imdSessionEnds (n : Fin 16) (b : Block) : (imdOf (imdSessionEnds n b) n).uTest = 0 := by
  obtain ⟨t, hnode⟩ := imdOf_noteActive
    (updImd n (fun x => { x with uTest := 0, cableCheck := if x.cableCheck = 1 then 0 else x.cableCheck, uAt := none, uRun := 0 }) b) n
  rw [imdSessionEnds, hnode, imdOf_updImd_self]

theorem uTest_openOutside (n : Fin 16) (b : Block) : (imdOf (openOutside n b) n).uTest = 0 := by
  rw [openOutside, imdOf_congr ((supplyOff_frame n _).imd_eq (by decide)), uTest_imdSessionEnds]

theorem uTest_endSession (n : Fin 16) (b : Block) : (imdOf (endSession n b) n).uTest = 0 := by
  unfold endSession
  extract_lets r c d
  have hd : (imdOf d n).uTest = 0 := uTest_openOutside n _
  rw [imdOf_congr ((closeItems_frame n _ _ _).imd_eq (by decide)), imdOf_congr (updVeh_imd n _ d), hd]

/-- A session that is open and has not been energised ends at once (R21). -/
theorem stopSession_of_unenergised {n : Fin 16} {b : Block} (r : EndReason) (hopen : (sessOf b n).phase.isOpen = true)
    (hstop : (sessOf b n).phase ≠ .stopping) (henergised : (sessOf b n).energised = false) :
    stopSession n r b = endSession n (updSess n (noteCause r b) b) := by
  simp only [stopSession, hopen, hstop, henergised, if_true, if_false, Bool.false_eq_true]

/-! ### CABLE_CHECK_TIMEOUT (R247) -/

theorem cableCheckTimeout_of_due {n : Fin 16} {b : Block} (hcheck : (imdOf b n).cableCheck = 1)
    (hdue : (imdOf b n).checkFrom.toNat + (if (imdOf b n).uAt.isNone then 5 else 20) * tSec ≤ (now b).toNat) :
    cableCheckTimeout n b = stopSession n .deviceFault (cableCheckEnd n 3 b) := by
  rw [cableCheckTimeout, if_pos hcheck, afterTicks_of_le hdue]

/-- A hub lock-out with a cable check of connector 0 at U_test 500 V, 20 s old, whose session has not been energised: the connector shows
FAULTED and the session is in CABLE_CHECK. -/
def checkUnderLockout : State := { State.reset with block := { State.reset.block with
  imd := vupd State.reset.block.imd 0 fun x => { x with cableCheck := 1, uTest := 500 }
  sess := vupd State.reset.block.sess 0 fun x => { x with phase := .cableCheck }
  saf := { State.reset.block.saf with hubLockout := true }
  tide := { State.reset.block.tide with now := 30000000000, running := true, ready := true } } }

/-- The timeout ends the session of `checkUnderLockout`, and U_test with it. -/
theorem uTest_checkUnderLockout : (imdOf (cableCheckTimeout 0 checkUnderLockout.block) 0).uTest = 0 := by
  have hsess : sessOf (cableCheckEnd 0 3 checkUnderLockout.block) 0 = sessOf checkUnderLockout.block 0 :=
    sessOf_congr ((cableCheckEnd_frame 0 3 _).sess_eq (by decide)) 0
  rw [cableCheckTimeout_of_due (by decide) (by decide),
    stopSession_of_unenergised _ (by rw [hsess]; decide) (by rw [hsess]; decide) (by rw [hsess]; decide), uTest_endSession]

end Machine

/-- Refutes O34 in its clause on CABLE_CHECK_TIMEOUT: the clause asks that the connector shows no open phase, and a lock-out makes it show
FAULTED over whatever phase the session is in (R278). The stop reads the session's own phase: in `checkUnderLockout` it ends the session, which
sets U_test of the node to 0, where the clause has nothing but the result of the check change. -/
theorem not_insulationInstants : ¬ Obligations.InsulationInstants := by
  unfold Obligations.InsulationInstants
  rintro ⟨-, -, -, -, -, -, -, -, -, hcheck, -⟩
  obtain ⟨t, hx, -, -, himd, -⟩ := hcheck checkUnderLockout 0 (by decide) (by decide)
  have ht : checkUnderLockout.after (cableCheckTimeout 0) = t := Host.Outcome.next.inj hx
  subst ht
  have hkept : (imdOf (checkUnderLockout.after (cableCheckTimeout 0)).block 0).uTest = 500 :=
    congrArg (fun v => (vget v 0).uTest) (himd (by decide))
  rw [imdOf_after, uTest_checkUnderLockout] at hkept
  exact absurd hkept (by decide)

end Sys2Proof
end

section
/-! PROOFS. The residual-current blocks, the warning, the loss of the measurement and the end of a test (R252 to R255). -/

namespace Sys2Proof

open Machine

namespace Machine

/-! ### Trips (R253) -/

/-- A trip writes its flag: neither its source nor the hub safe stop touches the feeders. -/
theorem rcmTrip_rcm (f : Fin 2) (test : Bool) (b : Block) : (rcmTrip f test b).rcm = vupd b.rcm f fun r => { r with trip := true } := by
  cases test
  · exact (contain_frame _ _).rcm_eq (by decide)
  · exact irq_rcm 265 _

/-- The containment of a trip clears no source. -/
theorem Hic.KeepsPending.rcmTrip {h : Hic} {f : Fin 2} {b : Block}
    (hb : h.KeepsPending (Machine.irq 265 (updRcm f (fun r => { r with trip := true }) b)).hic) (test : Bool) :
    h.KeepsPending (Machine.rcmTrip f test b).hic := by
  cases test
  · exact hb.contain _
  · exact hb

theorem rcmTrip_raises (f : Fin 2) (test : Bool) (b : Block) : Raised (rcmTrip f test b) 265 :=
  (Hic.KeepsPending.refl _).rcmTrip test _ (irq_pends (n := 265) (by decide) _)

/-! ### The end of a block (R252, R254) -/

/-- A block that trips or not writes its feeder once, and a trip its flag. -/
theorem rcmBlock_rcm (f : Fin 2) (b : Block) : ∃ tripped tripping dcRun high quiet,
    (rcmBlock f b).rcm = vupd b.rcm f fun r => { r.fresh with
      iRms := satNat 16 (isqrt ((rcmOf b f).sumSq * 1000000 / ((rcmOf b f).n * 2 ^ 298)))
      iDc := satInt 16 (Int.tdiv ((rcmOf b f).sum * 1000) ((rcmOf b f).n * 2 ^ 149))
      maxRms := satNat 16 (max r.maxRms.toNat (min (isqrt ((rcmOf b f).sumSq * 1000000 / ((rcmOf b f).n * 2 ^ 298))) 65535))
      lostRun := if r.lossNow then r.lostRun + 1 else 0
      lost := r.lost && r.lossNow
      trip := r.trip || tripped, tripping := tripping, dcRun := dcRun
      warnRun := if high = true then r.warnRun + 1 else 0, lowRun := if quiet = true then r.lowRun + 1 else 0 } := by
  unfold rcmBlock
  extract_lets r rms dc byRms dcRun trip w high quiet c d e
  have hd : d.rcm = c.rcm := onlyIf_keeps (q := Block.rcm) (fun k => irq_rcm 266 k) _ c
  have he : e.rcm = c.rcm := by
    refine Eq.trans ?_ hd
    unfold e
    split
    · split <;> rfl
    · rfl
  refine ⟨trip && !r.tripping, trip, dcRun, high, quiet, ?_⟩
  cases htrip : trip && !r.tripping
  · simp only [onlyIf, Bool.false_eq_true, if_false, he, Bool.or_false]
    rfl
  · simp only [onlyIf, if_true, rcmTrip_rcm, he, c, updRcm_rcm, vupd_vupd, Bool.or_true]
    rfl

theorem rcmBlockEnd_of_end {f : Fin 2} {b : Block} (hn : (rcmOf b f).n ≠ 0) (hend : (b.met.stamp.toNat + tSample) % 30000000 = 0) :
    rcmBlockEnd f b = rcmBlock f b :=
  if_neg fun h => h.elim hn fun hrest => hrest hend

theorem rcmBlockEnd_of_none {f : Fin 2} {b : Block} (h : (rcmOf b f).n = 0 ∨ (b.met.stamp.toNat + tSample) % 30000000 ≠ 0) :
    rcmBlockEnd f b = b :=
  if_pos h

/-! ### The warning and the loss of the measurement (R252, R254) -/

theorem rcmWarning_of_high {f : Fin 2} {b : Block} (hwarn : (rcmOf b f).warn = false) (hrun : 50 ≤ (rcmOf b f).warnRun) :
    rcmWarning f b = irq 264 (updRcm f (fun r => { r with warn := true }) b) := by
  simp only [rcmWarning, hwarn, hrun, decide_true, Bool.not_false, Bool.and_self, if_true]

theorem rcmWarning_of_low {f : Fin 2} {b : Block} (hwarn : (rcmOf b f).warn = true) (hrun : 50 ≤ (rcmOf b f).lowRun) :
    rcmWarning f b = irq 264 (updRcm f (fun r => { r with warn := false }) b) := by
  simp only [rcmWarning, hwarn, hrun, decide_true, Bool.not_true, Bool.false_and, Bool.and_self, Bool.false_eq_true, if_true, if_false]

theorem rcmLost_of_due {f : Fin 2} {b : Block} (hlost : (rcmOf b f).lost = false) (hrun : 10 ≤ (rcmOf b f).lostRun) :
    rcmLost f b = rcmTrip f false (irq 266 (updRcm f (fun r => { r with lost := true }) b)) := by
  simp only [rcmLost, hlost, hrun, decide_true, Bool.not_false, Bool.and_self, if_true]

theorem rcmLost_of_not {f : Fin 2} {b : Block} (h : (rcmOf b f).lost = true ∨ (rcmOf b f).lostRun < 10) : rcmLost f b = b := by
  rw [rcmLost, if_neg]
  rcases h with hlost | hrun
  · simp [hlost]
  · simp [Nat.not_le.mpr hrun]

/-! ### The end of a test (R255) -/

/-- The winding is off, the test is over and its result is with the feeder; the log entry and the answer follow. -/
def testEnded (x : RcmTest) (good : Bool) (b : Block) : Block :=
  irq 267 (updRcm x.feeder (fun r => { r with testFail := !good, tripping := false })
    (onlyIf (!x.off) (hsEntry 130 x.channel.val 2 (ahead b fwLead)) { b with rcmTest := none }))

section
variable (x : RcmTest) (good : Bool) (b : Block)

theorem testEnded_rcm : (testEnded x good b).rcm = vupd b.rcm x.feeder fun r => { r with testFail := !good, tripping := false } := by
  have hoff := onlyIf_keeps (q := Block.rcm) (fun c => (hsEntry_frame 130 x.channel.val 2 (ahead b fwLead) c).rcm_eq (by decide)) (!x.off)
    { b with rcmTest := none }
  rw [testEnded, irq_rcm, updRcm_rcm, hoff]

theorem testEnded_rcmTest : (testEnded x good b).rcmTest = none := by
  rw [testEnded, (irq_frame _ _).rcmTest_eq (by decide), updRcm_rcmTest,
    onlyIf_keeps (q := Block.rcmTest) fun c => (hsEntry_frame _ _ _ _ c).rcmTest_eq (by decide)]

theorem testEnded_mbx : (testEnded x good b).mbx = b.mbx := by
  have hoff := onlyIf_keeps (q := Block.mbx) (fun c => (hsEntry_frame 130 x.channel.val 2 (ahead b fwLead) c).mbx_eq (by decide)) (!x.off)
    { b with rcmTest := none }
  rw [testEnded, (irq_frame _ _).mbx_eq (by decide), updRcm_mbx, hoff]

theorem testEnded_raises : Raised (testEnded x good b) 267 := irq_pends (n := 267) (by decide) _

end

theorem rcmTestFinish_of_passed {x : RcmTest} {b : Block} {i : U64} (htrip : x.tripAt = some i) (hin : i.toNat - x.start.toNat ≤ 450000000) :
    rcmTestFinish x b = respond x.mbx 0 ([1, 0, 0, 0] ++ leBytes 4 ((i.toNat - x.start.toNat) / tUs)) (cmdLog x.mbx 0 (testEnded x true b)) := by
  simp only [rcmTestFinish, htrip, hin, Option.isSome_some, decide_true, Bool.and_self, if_true, testEnded, ok]

theorem rcmTestFinish_of_late {x : RcmTest} {b : Block} {i : U64} (htrip : x.tripAt = some i) (hlate : 450000000 < i.toNat - x.start.toNat) :
    rcmTestFinish x b = respond x.mbx 0x0806 [] (cmdLog x.mbx 0x0806 (testEnded x false b)) := by
  simp only [rcmTestFinish, htrip, Nat.not_le.mpr hlate, decide_false, Bool.and_false, Bool.false_eq_true, if_false, testEnded, refuse]

theorem rcmTestFinish_of_no_trip {x : RcmTest} {b : Block} (htrip : x.tripAt = none) :
    rcmTestFinish x b = respond x.mbx 0x0806 [] (cmdLog x.mbx 0x0806 (testEnded x false b)) := by
  simp only [rcmTestFinish, htrip, Option.isSome_none, Bool.false_and, Bool.false_eq_true, if_false, testEnded, refuse]

/-- A test that ends, however it does: no test is left, the feeder has the result, source 267 is raised and the answer stands. -/
theorem rcmTest_ends {s : State} {f : Block → Block} {x : RcmTest} {good : Bool} {status : Nat} {p : List U8}
    (hf : f s.block = respond x.mbx status p (cmdLog x.mbx status (testEnded x good s.block))) (hp : p.length ≤ 1016) :
    (s.after f).block.rcmTest = none ∧
      ((s.after f).block.rcm = vupd s.block.rcm x.feeder fun r => { r with testFail := !good, tripping := false }) ∧
      Raised (s.after f).block 267 ∧ Answered s (s.after f) x.mbx status p := by
  refine ⟨?_, ?_, ?_, answered_of_respond hf ((cmdLog_mbx _ _ _).trans (testEnded_mbx _ _ _)) hp⟩
  · rw [State.after_rcmTest, hf, (respond_frame _ _ _ _).rcmTest_eq (by decide), (cmdLog_frame _ _ _).rcmTest_eq (by decide), testEnded_rcmTest]
  · rw [State.after_rcm, hf, (respond_frame _ _ _ _).rcm_eq (by decide), (cmdLog_frame _ _ _).rcm_eq (by decide), testEnded_rcm]
  · rw [Raised, State.after_hic, hf]
    exact (((Hic.KeepsPending.refl _).cmdLog _ _).respond _ _ _) _ (testEnded_raises x good s.block)

section
variable {x : RcmTest} {b : Block} (hx : b.rcmTest = some x)
include hx

theorem rcmTestEnd_of_trip (htrip : x.tripAt.isSome = true) : rcmTestEnd b = rcmTestFinish x b := by
  simp only [rcmTestEnd, hx, htrip, if_true]

theorem rcmTestEnd_of_waited (htrip : x.tripAt = none) (hoff : x.off = true) (hdue : x.start.toNat + 450000000 ≤ (now b).toNat) :
    rcmTestEnd b = rcmTestFinish x b := by
  simp only [rcmTestEnd, hx, htrip, hoff, Option.isSome_none, Bool.false_eq_true, if_false, if_true, atInstant_of_le hdue]

theorem rcmTestEnd_of_duration (htrip : x.tripAt = none) (hoff : x.off = false) (hdue : x.until_.toNat ≤ (now b).toNat) :
    rcmTestEnd b = rcmTestOff x b := by
  simp only [rcmTestEnd, hx, htrip, hoff, Option.isSome_none, Bool.false_eq_true, if_false, atInstant_of_le hdue]

end

theorem rcmTestEnd_of_none {b : Block} (hnone : b.rcmTest = none) : rcmTestEnd b = b := by
  simp only [rcmTestEnd, hnone]

end Machine

/-- Settles O35: a block writes its feeder once, and a trip its flag besides, which the containment of the trip leaves; no later operation
clears a source that was raised; the three ends of a test are one operation. -/
theorem residualInstants : Obligations.ResidualInstants := by
  refine ⟨fun s f hn hend => ?_, fun s f hnone => ?_, fun s f hwarn hrun => ?_, fun s f hwarn hrun => ?_, fun s f hlost hrun => ?_,
    fun s f hnot => ?_, fun s x i hx htrip hin _ => ?_, fun s x i hx htrip hlate _ => ?_, fun s x hx htrip hoff hdue _ => ?_,
    fun s x hx htrip hoff hdue => ?_, fun s hnone => ?_⟩
  -- RCM_BLOCK_END of a block with samples
  · obtain ⟨tripped, tripping, dcRun, high, quiet, hrcm⟩ := rcmBlock_rcm f s.block
    refine ⟨s.after (rcmBlockEnd f), rfl, execRcmBlockEnd_frame f rfl, ?_⟩
    simp only [rcmOf_after, rcmBlockEnd_of_end hn hend]
    have hself := (congrArg (fun v => vget v f) hrcm).trans (vget_vupd_self _ _ _)
    exact ⟨congrArg Rcm.iRms hself, congrArg Rcm.iDc hself, congrArg Rcm.maxRms hself, congrArg Rcm.lost hself, congrArg Rcm.lostRun hself,
      congrArg Rcm.n hself, congrArg Rcm.sum hself, congrArg Rcm.sumSq hself,
      fun k hk => (congrArg (fun v => vget v k) hrcm).trans (vget_vupd_ne _ _ hk)⟩
  -- RCM_BLOCK_END of none
  · refine ⟨s.after (rcmBlockEnd f), rfl, execRcmBlockEnd_frame f rfl, ?_⟩
    rw [State.after_rcm, State.after_saf, rcmBlockEnd_of_none hnone]
    exact ⟨rfl, rfl⟩
  -- RCM_WARNING, 50 blocks high
  · refine ⟨s.after (rcmWarning f), rfl, execRcmWarning_frame f rfl, ?_⟩
    rw [State.after_rcm, Raised, State.after_hic, rcmWarning_of_high hwarn hrun, irq_rcm, updRcm_rcm]
    exact ⟨rfl, irq_pends (n := 264) (by decide) _⟩
  -- RCM_WARNING, 50 blocks low
  · refine ⟨s.after (rcmWarning f), rfl, execRcmWarning_frame f rfl, ?_⟩
    rw [State.after_rcm, Raised, State.after_hic, rcmWarning_of_low hwarn hrun, irq_rcm, updRcm_rcm]
    exact ⟨rfl, irq_pends (n := 264) (by decide) _⟩
  -- RCM_LOST
  · refine ⟨s.after (rcmLost f), rfl, execRcmLost_frame f rfl, ?_⟩
    simp only [State.after_rcm, Raised, State.after_hic, rcmLost_of_due hlost hrun, rcmTrip_rcm, irq_rcm, updRcm_rcm, vupd_vupd, true_and]
    have hlostRaised := irq_pends (n := 266) (by decide) (updRcm f (fun r => { r with lost := true }) s.block)
    refine ⟨rcmTrip_raises _ _ _, Hic.KeepsPending.rcmTrip (.irq ?_ 265) _ _ hlostRaised⟩
    exact .refl _
  -- RCM_LOST of less
  · refine ⟨s.after (rcmLost f), rfl, execRcmLost_frame f rfl, ?_⟩
    rw [State.after_rcm, State.after_hic, rcmLost_of_not hnot]
    exact ⟨rfl, rfl⟩
  -- RCM_TEST_END on a trip in time
  · exact ⟨s.after rcmTestEnd, rfl, execRcmTestEnd_frame rfl,
      rcmTest_ends ((rcmTestEnd_of_trip hx (by rw [htrip]; rfl)).trans (rcmTestFinish_of_passed htrip hin)) (by simp)⟩
  -- RCM_TEST_END on a later trip
  · exact ⟨s.after rcmTestEnd, rfl, execRcmTestEnd_frame rfl,
      rcmTest_ends ((rcmTestEnd_of_trip hx (by rw [htrip]; rfl)).trans (rcmTestFinish_of_late htrip hlate)) (by simp)⟩
  -- RCM_TEST_END without a trip
  · exact ⟨s.after rcmTestEnd, rfl, execRcmTestEnd_frame rfl,
      rcmTest_ends ((rcmTestEnd_of_waited hx htrip hoff hdue).trans (rcmTestFinish_of_no_trip htrip)) (by simp)⟩
  -- RCM_TEST_END at the end of the duration
  · exact ⟨s.after rcmTestEnd, rfl, execRcmTestEnd_frame rfl, State.after_block (rcmTestEnd_of_duration hx htrip hoff hdue)⟩
  -- RCM_TEST_END without a test
  · exact ⟨s.after rcmTestEnd, rfl, execRcmTestEnd_frame rfl, State.after_block (rcmTestEnd_of_none hnone)⟩

end Sys2Proof
end

section
/-! PROOFS. The commands of the insulation family (R240, R248, R255, R258): what each makes of the nodes, the feeders and their settings, and
that its answer stands. -/

namespace Sys2Proof

open Machine

namespace Machine

/-! ### What the stored settings, the log and the answer leave -/

@[simp] theorem saveSettings_imd (b : Block) : (saveSettings b).imd = b.imd := (saveSettings_frame b).imd_eq (by decide)
@[simp] theorem saveSettings_imdG (b : Block) : (saveSettings b).imdG = b.imdG := (saveSettings_frame b).imdG_eq (by decide)
@[simp] theorem saveSettings_rcm (b : Block) : (saveSettings b).rcm = b.rcm := (saveSettings_frame b).rcm_eq (by decide)
@[simp] theorem cmdLog_imdG (m : Fin 4) (status : Nat) (b : Block) : (cmdLog m status b).imdG = b.imdG :=
  (cmdLog_frame _ _ b).imdG_eq (by decide)
@[simp] theorem cmdLog_rcm (m : Fin 4) (status : Nat) (b : Block) : (cmdLog m status b).rcm = b.rcm := (cmdLog_frame _ _ b).rcm_eq (by decide)
@[simp] theorem ok_imd (m : Fin 4) (p : List U8) (b : Block) : (ok m p b).imd = b.imd := (ok_frame m p b).imd_eq (by decide)
@[simp] theorem ok_imdG (m : Fin 4) (p : List U8) (b : Block) : (ok m p b).imdG = b.imdG := (ok_frame m p b).imdG_eq (by decide)
@[simp] theorem ok_rcm (m : Fin 4) (p : List U8) (b : Block) : (ok m p b).rcm = b.rcm := (ok_frame m p b).rcm_eq (by decide)

/-! ### Baselines (R248) -/

/-- A node whose baseline starts again at the instant `t`. -/
def ImdNode.rebased (t : U64) (x : ImdNode) : ImdNode :=
  { x with
    baselining := true, blAt := t, blSlots := [], restarts := satInc x.restarts
    blFrom := if x.baselining then x.blFrom else t
    blLate := x.blLate && x.baselining }

/-- Nodes that baseline again one after the other do so at one instant. -/
theorem forAll_rebase (ns : List (Fin 16)) (b : Block) : forAll ns rebase b = forAll ns (fun n => updImd n (ImdNode.rebased (now b))) b := by
  induction ns generalizing b with
  | nil => rfl
  | cons n ns ih => exact ih (rebase n b)

/-- The nodes that mailbox `m` names baseline again. -/
def nodesRebased (m : Fin 4) (b : Block) : Block := forAll (nodesOf (rN b m 0 2)) rebase b

theorem nodesRebased_mbx (m : Fin 4) (b : Block) : (nodesRebased m b).mbx = b.mbx := forAll_keeps (q := Block.mbx) (fun _ _ => by rfl) _ b

theorem imdOf_nodesRebased (m : Fin 4) (b : Block) (k : Fin 16) :
    imdOf (nodesRebased m b) k = if bitOf (rN b m 0 2) k.val then (imdOf b k).rebased (now b) else imdOf b k := by
  rw [nodesRebased, forAll_rebase, imdOf_forAll_nodesOf]

/-! ### IMD_SET_CONFIG (R258) -/

theorem now_periodStep (b : Block) : now (periodStep b) = now b := congrArg Tide.now ((periodStep_frame b).tide_eq (by decide))

/-- The values of IMD_SET_CONFIG are in range. -/
structure ImdConfigOk (m : Fin 4) (b : Block) : Prop where
  period : rN b m 0 1 ≤ 3
  rExtMin : 50 ≤ fieldOf (rN b m 4 4) 0 10
  rExtMax : fieldOf (rN b m 4 4) 0 10 ≤ 1000
  cMod : fieldOf (rN b m 4 4) 16 7 ≤ 100
  warnMin : 100 ≤ fieldOf (rN b m 8 4) 0 11
  warnMax : fieldOf (rN b m 8 4) 0 11 ≤ 2000
  faultMin : 100 ≤ fieldOf (rN b m 8 4) 16 9
  faultMax : fieldOf (rN b m 8 4) 16 9 ≤ 500
  faultBelow : fieldOf (rN b m 8 4) 16 9 < fieldOf (rN b m 8 4) 0 11

/-- The instant at which another period than `q` would be in force: the multiple of 4 s that follows 8 cycles. -/
def periodInstant (q : Nat) (b : Block) : U64 := BitVec.ofNat 64 (multipleFrom 6000000000 ((now b).toNat + 8 * cycleLen q))

/-- The settings as IMD_SET_CONFIG asks for them, where the period `q` is in force. -/
def reqImdG (m : Fin 4) (q : Nat) (b : Block) (g : ImdGlobal) : ImdGlobal :=
  { g with
    rExt := BitVec.ofNat 10 (fieldOf (rN b m 4 4) 0 10), cMod := BitVec.ofNat 7 (fieldOf (rN b m 4 4) 16 7)
    cConn := BitVec.ofNat 8 (fieldOf (rN b m 4 4) 24 8), warnThr := BitVec.ofNat 11 (fieldOf (rN b m 8 4) 0 11)
    faultThr := BitVec.ofNat 9 (fieldOf (rN b m 8 4) 16 9)
    pendingPeriod := if rN b m 0 1 ≠ q then some (BitVec.ofNat 2 (rN b m 0 1), periodInstant q b) else none }

/-- They are taken, and another external resistance has every node baseline again. -/
def configTaken (m : Fin 4) (q : Nat) (b : Block) : Block :=
  onlyIf (decide (fieldOf (rN b m 4 4) 0 10 ≠ (periodStep b).imdG.rExt.toNat)) (forAll allNodes rebase) (updImdG (reqImdG m q b) (periodStep b))

theorem configTaken_imdG (m : Fin 4) (q : Nat) (b : Block) : (configTaken m q b).imdG = reqImdG m q b (periodStep b).imdG :=
  onlyIf_keeps (q := Block.imdG) (fun c => forAll_keeps (q := Block.imdG) (fun _ _ => by rfl) _ c) _ _

theorem configTaken_mbx (m : Fin 4) (q : Nat) (b : Block) : (configTaken m q b).mbx = b.mbx :=
  (onlyIf_keeps (q := Block.mbx) (fun c => forAll_keeps (q := Block.mbx) (fun _ _ => by rfl) _ c) _ _).trans
    ((periodStep_frame b).mbx_eq (by decide))

theorem now_configTaken (m : Fin 4) (q : Nat) (b : Block) : now (configTaken m q b) = now b :=
  (onlyIf_keeps (q := now) (fun c => forAll_keeps (q := now) (fun _ _ => by rfl) _ c) _ _).trans (now_periodStep b)

theorem imdSetConfig_of_pass {m : Fin 4} {b : Block} {q : Nat} (hok : ImdConfigOk m b) (hquiet : allQuiet b = true)
    (hq : q = periodAt (periodStep b).imdG (now b).toNat) :
    imdSetConfig m b = cmdLog m 0
      (ok m (b64 (if rN b m 0 1 ≠ q then periodInstant q b else now b)) (saveSettings (configTaken m q b))) := by
  obtain ⟨hp, hr0, hr1, hc, hw0, hw1, hf0, hf1, hlt⟩ := hok
  unfold imdSetConfig
  extract_lets p net thr rx cm wt ft
  rw [checked_cons_pass (decide_eq_true ⟨hp, hr0, hr1, hc, hw0, hw1, hf0, hf1, hlt⟩), checked_cons_pass hquiet, checked_nil]
  extract_lets c g old s change rChange d e
  have hnow : now c = now b := now_periodStep b
  have hold : old = q := by rw [hq, ← hnow]
  have hs : BitVec.ofNat 64 s = periodInstant q b := by rw [periodInstant, ← hold, ← hnow]
  have hchange : (change = true) = (rN b m 0 1 ≠ q) := by rw [← hold]; exact propext bne_iff_ne
  have he : e = configTaken m q b := by
    simp only [e, d, hchange, hs]
    rfl
  simp only [hchange, hs, he, now_configTaken]

theorem imdSetConfig_of_period {m : Fin 4} {b : Block} (h : 3 < rN b m 0 1) : imdSetConfig m b = refuse m 0x0802 b := by
  unfold imdSetConfig
  extract_lets p net thr rx cm wt ft
  exact checked_cons_fail (decide_eq_false fun hall => absurd hall.1 (Nat.not_le.mpr h)) _ _

theorem imdSetConfig_of_unquiet {m : Fin 4} {b : Block} (hok : ImdConfigOk m b) (hquiet : allQuiet b = false) :
    imdSetConfig m b = refuse m 0x0803 b := by
  obtain ⟨hp, hr0, hr1, hc, hw0, hw1, hf0, hf1, hlt⟩ := hok
  unfold imdSetConfig
  extract_lets p net thr rx cm wt ft
  rw [checked_cons_pass (decide_eq_true ⟨hp, hr0, hr1, hc, hw0, hw1, hf0, hf1, hlt⟩), checked_cons_fail hquiet]

/-- A refused command answers its status and leaves the nodes and their settings. -/
theorem refused_keeps_imd {s : State} {f : Block → Block} {m : Fin 4} {status : Nat} (hf : f s.block = refuse m status s.block) :
    Answered s (s.after f) m status [] ∧ (s.after f).block.imdG = s.block.imdG ∧ (s.after f).block.imd = s.block.imd :=
  ⟨answered_of_refuse hf, (after_refuse_frame hf).imdG_eq (by decide), (after_refuse_frame hf).imd_eq (by decide)⟩

/-! ### IMD_SET_FORCE (R240) -/

/-- The force of each node, which the entries of the drive leave. -/
def forces (b : Block) (n : Fin 16) : Bool := (imdOf b n).force

theorem forces_updImd (n : Fin 16) (f : ImdNode → ImdNode) (b : Block) (hf : ∀ x, (f x).force = x.force) : forces (updImd n f b) = forces b := by
  funext k
  by_cases hk : k = n
  · subst hk
    exact (congrArg ImdNode.force (imdOf_updImd_self k f b)).trans (hf _)
  · exact congrArg ImdNode.force (imdOf_updImd_ne hk f b)

theorem noteActive_forces (b : Block) : forces (noteActive b) = forces b := by
  funext n
  obtain ⟨t, hnode⟩ := imdOf_noteActive b n
  simp only [forces, hnode]

theorem driveEntry_forces (n : Fin 16) (t : Nat) (b : Block) : forces (driveEntry n t b) = forces b := by
  unfold driveEntry
  extract_lets p r
  have hr : forces r.1 = forces b := funext fun k => congrArg ImdNode.force (imdOf_congr ((submitEntry_frame _ _ _ b).imd_eq (by decide)) k)
  exact (onlyIf_keeps (q := forces) (fun c => forces_updImd n _ c fun _ => by rfl) _ r.1).trans hr

theorem driveAux_forces (i k : Nat) (b : Block) : forces (driveAux i k b) = forces b := by
  induction k generalizing b with
  | zero => rfl
  | succ k ih =>
    unfold driveAux
    split
    · rfl
    · split
      · exact (ih _).trans (driveEntry_forces _ _ b)
      · rfl

theorem driveFeed_forces (b : Block) : forces (driveFeed b) = forces b := by
  unfold driveFeed
  extract_lets c
  have hc : forces c = forces b := noteActive_forces b
  split
  · exact (driveAux_forces _ _ c).trans hc
  · exact hc

/-- The force of every node is its bit of the mask of mailbox `m`. -/
def forceTaken (m : Fin 4) (b : Block) : Block := { b with imd := vmapIdx b.imd fun n x => { x with force := bitOf (rN b m 0 2) n.val } }

theorem forces_forceTaken (m : Fin 4) (b : Block) (n : Fin 16) : forces (forceTaken m b) n = bitOf (rN b m 0 2) n.val :=
  congrArg ImdNode.force (vget_vmapIdx _ _ _)

/-- The entries of the drive come after the answer and leave it. -/
theorem answered_of_driven {s : State} {f : Block → Block} {b : Block} {m : Fin 4} {status : Nat} {p : List U8}
    (hf : f s.block = driveFeed (respond m status p b)) (hm : b.mbx = s.block.mbx) (hp : p.length ≤ 1016) :
    Answered s (s.after f) m status p := by
  have hlast : Answered s (s.after fun _ => respond m status p b) m status p := answered_of_respond rfl hm hp
  simpa only [Answered, mbxOf, State.after_mbx, hf, (driveFeed_frame _).mbx_eq (by decide)] using hlast

/-! ### IMD_GET_NODE and IMD_CLEAR_COUNTS (R258) -/

theorem imdGetNode_of_node {m : Fin 4} {b : Block} (hnode : (nodeCheck 0x0801 b m).2 = true) :
    imdGetNode m b = ok m (b32s [imdStatWord b (reqNode b m), imdRWord (imdOf b (reqNode b m)), imdCWord (imdOf b (reqNode b m)),
      imdUWord b (reqNode b m)] ++ b64 (imdOf b (reqNode b m)).lastAt ++ b32 (BitVec.ofInt 32 (imdOf b (reqNode b m)).iOff)) b := by
  unfold imdGetNode
  extract_lets n x
  rw [checked_cons_pass hnode, checked_nil]

/-- The two counts of a node are 0. -/
def ImdNode.countsCleared (x : ImdNode) : ImdNode := { x with discards := 0, restarts := 0 }

/-- Those of the nodes that mailbox `m` names, and the discards of the device. -/
def imdCountsCleared (m : Fin 4) (b : Block) : Block :=
  forAll (nodesOf (rN b m 0 2)) (fun n => updImd n ImdNode.countsCleared) (updImdG (fun g => { g with discardCnt := 0 }) b)

theorem imdCountsCleared_mbx (m : Fin 4) (b : Block) : (imdCountsCleared m b).mbx = b.mbx :=
  forAll_keeps (q := Block.mbx) (fun _ _ => by rfl) _ _

theorem imdCountsCleared_imdG (m : Fin 4) (b : Block) : (imdCountsCleared m b).imdG = { b.imdG with discardCnt := 0 } :=
  forAll_keeps (q := Block.imdG) (fun _ _ => by rfl) _ _

/-! ### The residual-current feeders (R258) -/

/-- The feeder's three values as the request gives them. -/
def Rcm.withLimits (m : Fin 4) (b : Block) (r : Rcm) : Rcm :=
  { r with tripRms := BitVec.ofNat 16 (rN b m 4 2), warnRms := BitVec.ofNat 16 (rN b m 6 2), tripDc := BitVec.ofNat 16 (rN b m 8 2) }

theorem feederCheck_of_lt {m : Fin 4} {b : Block} (h : (rB b m 0).toNat < 2) : (feederCheck b m).2 = true := decide_eq_true h

theorem rcmSetConfig_of_pass {m : Fin 4} {b : Block} (hfeeder : (rB b m 0).toNat < 2) (hlo : 30 ≤ rN b m 4 2) (hhi : rN b m 4 2 ≤ 3000)
    (hwarn : rN b m 6 2 < rN b m 4 2) (hdc : 6 ≤ rN b m 8 2) (hdcMost : rN b m 8 2 ≤ 1000) (hquiet : allQuiet b = true) :
    rcmSetConfig m b = cmdLog m 0 (ok m [] (saveSettings (updRcm (reqFeeder b m) (Rcm.withLimits m b) b))) := by
  unfold rcmSetConfig
  extract_lets tr wr dc
  rw [checked_cons_pass (feederCheck_of_lt hfeeder), checked_cons_pass (decide_eq_true ⟨hlo, hhi, hwarn, hdc, hdcMost⟩),
    checked_cons_pass hquiet, checked_nil]
  rfl

theorem rcmSetConfig_of_feeder {m : Fin 4} {b : Block} (h : 2 ≤ (rB b m 0).toNat) : rcmSetConfig m b = refuse m 0x0804 b := by
  unfold rcmSetConfig
  extract_lets tr wr dc
  exact checked_cons_fail (x := feederCheck b m) (decide_eq_false (Nat.not_lt.mpr h)) _ _

/-- What RCM_GET answers of a feeder: its values, its largest I_rms and its flags. -/
def rcmAnswer (r : Rcm) : List U8 :=
  b32 (rcmValWord r) ++ leBytes 4 r.maxRms.toNat ++ [BitVec.ofNat 8 (bitsNat [r.trip, r.warn, r.lost, r.testFail])]

theorem rcmGet_of_feeder {m : Fin 4} {b : Block} (h : (rB b m 0).toNat < 2) :
    rcmGet m b = ok m (rcmAnswer (rcmOf b (reqFeeder b m))) (updRcm (reqFeeder b m) (fun r => { r with maxRms := 0 }) b) := by
  rw [rcmGet, checked_cons_pass (feederCheck_of_lt h), checked_nil]
  rfl

/-! ### RCM_TEST (R255) -/

/-- The test that mailbox `m` asks for on channel `c`, 192 ticks ahead. -/
def reqRcmTest (m : Fin 4) (c : Fin 40) (b : Block) : RcmTest :=
  { feeder := reqFeeder b m, channel := c, start := ahead b fwLead, until_ := ahead b fwLead + BitVec.ofNat 64 (rN b m 2 2 * tMs), mbx := m }

theorem rcmTestStart_of_pass {m : Fin 4} {c : Fin 40} {b : Block} (hfeeder : (rB b m 0).toNat < 2) (hc : (rB b m 1).toNat = c.val)
    (hlock : isLockChan b c.val = false) (hsupply : isSupplyChan b c.val = false) (hlo : 100 ≤ rN b m 2 2) (hhi : rN b m 2 2 ≤ 500)
    (hquiet : allQuiet b = true) :
    rcmTestStart m b = hsEntry 130 c.val 1 (ahead b fwLead) { b with rcmTest := some (reqRcmTest m c b) } := by
  have hfree : (decide ((rB b m 1).toNat < 40) && !isLockChan b (rB b m 1).toNat && !isSupplyChan b (rB b m 1).toNat) = true := by
    rw [hc, hlock, hsupply, decide_eq_true c.isLt]; rfl
  have hchan : (⟨c.val % 40, Nat.mod_lt _ (by decide)⟩ : Fin 40) = c := Fin.ext (Nat.mod_eq_of_lt c.isLt)
  unfold rcmTestStart
  extract_lets k d
  rw [checked_cons_pass (feederCheck_of_lt hfeeder), checked_cons_pass hfree, checked_cons_pass (decide_eq_true ⟨hlo, hhi⟩),
    checked_cons_pass hquiet, checked_nil]
  simp only [k, hc, hchan]
  rfl

theorem rcmTestStart_of_channel {m : Fin 4} {b : Block} (hfeeder : (rB b m 0).toNat < 2) (hc : 40 ≤ (rB b m 1).toNat) :
    rcmTestStart m b = refuse m 0x0805 b := by
  unfold rcmTestStart
  extract_lets k d
  rw [checked_cons_pass (feederCheck_of_lt hfeeder), checked_cons_fail]
  simp [k, hc]

end Machine

/-- Settles O36: each request runs the effect of its command once its checks hold; the stored settings, the answer, the log entry and the
entries of the drive leave the nodes, the feeders and their settings as the command wrote them. -/
theorem insulationCommands : Obligations.InsulationCommands := by
  refine ⟨fun s m q ha hp hr0 hr1 hc hw0 hw1 hf0 hf1 hlt hquiet hq => ?_, fun s m ha hp => ?_,
    fun s m ha hp hr0 hr1 hc hw0 hw1 hf0 hf1 hlt hquiet => ?_, fun s m ha => ?_, fun s m ha hnode => ?_, fun s m ha => ?_,
    fun s m ha hfeeder hlo hhi hwarn hdc hdcMost hquiet => ?_, fun s m ha hfeeder => ?_, fun s m ha hfeeder => ?_,
    fun s m c ha hfeeder hchan hlock hsupply hlo hhi hquiet => ?_, fun s m ha hfeeder hchan => ?_, fun s m ha => ?_⟩
  -- IMD_SET_CONFIG
  · have hx : exec (.imdSetConfig m) s = .next (s.after (imdSetConfig m)) := run_of_asked ha _
    have heff := imdSetConfig_of_pass ⟨hp, hr0, hr1, hc, hw0, hw1, hf0, hf1, hlt⟩ hquiet hq
    have hset : (s.after (imdSetConfig m)).block.imdG = reqImdG m q s.block (periodStep s.block).imdG := by
      rw [State.after_imdG, heff, cmdLog_imdG, ok_imdG, saveSettings_imdG, configTaken_imdG]
    refine ⟨_, hx, execImdSetConfig_frame m hx,
      answered_of_logged heff ((saveSettings_mbx _).trans (configTaken_mbx _ _ _)) (by simp), ?_⟩
    rw [hset]
    exact ⟨rfl, rfl, rfl, rfl, rfl, rfl⟩
  -- IMD_SET_CONFIG of no period
  · have hx : exec (.imdSetConfig m) s = .next (s.after (imdSetConfig m)) := run_of_asked ha _
    exact ⟨_, hx, execImdSetConfig_frame m hx, refused_keeps_imd (imdSetConfig_of_period hp)⟩
  -- IMD_SET_CONFIG with a connector in use
  · have hx : exec (.imdSetConfig m) s = .next (s.after (imdSetConfig m)) := run_of_asked ha _
    exact ⟨_, hx, execImdSetConfig_frame m hx,
      refused_keeps_imd (imdSetConfig_of_unquiet ⟨hp, hr0, hr1, hc, hw0, hw1, hf0, hf1, hlt⟩ hquiet)⟩
  -- IMD_SET_FORCE
  · have hx : exec (.imdSetForce m) s = .next (s.after (imdSetForce m)) := run_of_asked ha _
    have heff : imdSetForce m s.block = driveFeed (ok m [] (saveSettings (forceTaken m s.block))) := rfl
    refine ⟨_, hx, execImdSetForce_frame m hx, answered_of_driven heff (saveSettings_mbx _) (by simp), fun n => ?_⟩
    have hkeep : (ok m [] (saveSettings (forceTaken m s.block))).imd = (forceTaken m s.block).imd := (ok_imd _ _ _).trans (saveSettings_imd _)
    calc (imdOf (s.after (imdSetForce m)).block n).force
        = forces (driveFeed (ok m [] (saveSettings (forceTaken m s.block)))) n := congrArg ImdNode.force (imdOf_after s _ n)
      _ = forces (ok m [] (saveSettings (forceTaken m s.block))) n := congrFun (driveFeed_forces _) n
      _ = forces (forceTaken m s.block) n := congrArg ImdNode.force (imdOf_congr hkeep n)
      _ = bitOf (rN s.block m 0 2) n.val := forces_forceTaken m s.block n
  -- IMD_GET_NODE
  · have hx : exec (.imdGetNode m) s = .next (s.after (imdGetNode m)) := run_of_asked ha _
    exact ⟨_, hx, execImdGetNode_frame m hx, answered_of_respond (imdGetNode_of_node hnode) rfl (by simp)⟩
  -- IMD_REBASELINE
  · have hx : exec (.imdRebaseline m) s = .next (s.after (imdRebaseline m)) := run_of_asked ha _
    have heff : imdRebaseline m s.block = ok m [] (nodesRebased m s.block) := rfl
    refine ⟨_, hx, execImdRebaseline_frame m hx, answered_of_respond heff (nodesRebased_mbx _ _) (by simp), fun n => ?_⟩
    rw [imdOf_after, heff, imdOf_congr (ok_imd _ _ _), imdOf_nodesRebased]
    split
    · exact ⟨rfl, rfl, rfl⟩
    · rfl
  -- RCM_SET_CONFIG
  · have hx : exec (.rcmSetConfig m) s = .next (s.after (rcmSetConfig m)) := run_of_asked ha _
    have heff := rcmSetConfig_of_pass hfeeder hlo hhi hwarn hdc hdcMost hquiet
    refine ⟨_, hx, execRcmSetConfig_frame m hx, answered_of_logged heff ((saveSettings_mbx _).trans (updRcm_mbx _ _ _)) (by simp), ?_⟩
    rw [State.after_rcm, heff, cmdLog_rcm, ok_rcm, saveSettings_rcm, updRcm_rcm]
    rfl
  -- RCM_SET_CONFIG of no feeder
  · have hx : exec (.rcmSetConfig m) s = .next (s.after (rcmSetConfig m)) := run_of_asked ha _
    have heff := rcmSetConfig_of_feeder hfeeder
    exact ⟨_, hx, execRcmSetConfig_frame m hx, answered_of_refuse heff, (after_refuse_frame heff).rcm_eq (by decide)⟩
  -- RCM_GET
  · have hx : exec (.rcmGet m) s = .next (s.after (rcmGet m)) := run_of_asked ha _
    have heff := rcmGet_of_feeder hfeeder
    refine ⟨_, hx, execRcmGet_frame m hx, answered_of_respond heff rfl (by simp), ?_⟩
    rw [State.after_rcm, heff, ok_rcm, updRcm_rcm]
  -- RCM_TEST
  · have hx : exec (.rcmTest m) s = .next (s.after (rcmTestStart m)) := run_of_asked ha _
    refine ⟨_, hx, execRcmTest_frame m hx, ?_⟩
    rw [State.after_rcmTest, rcmTestStart_of_pass hfeeder hchan hlock hsupply hlo hhi hquiet, (hsEntry_frame _ _ _ _ _).rcmTest_eq (by decide)]
    rfl
  -- RCM_TEST of no channel
  · have hx : exec (.rcmTest m) s = .next (s.after (rcmTestStart m)) := run_of_asked ha _
    have heff := rcmTestStart_of_channel hfeeder hchan
    have hkeep := after_refuse_frame heff
    exact ⟨_, hx, execRcmTest_frame m hx, answered_of_refuse heff, hkeep.rcmTest_eq (by decide), hkeep.qmg_eq (by decide)⟩
  -- IMD_CLEAR_COUNTS
  · have hx : exec (.imdClearCounts m) s = .next (s.after (imdClearCounts m)) := run_of_asked ha _
    have heff : imdClearCounts m s.block = ok m [] (imdCountsCleared m s.block) := rfl
    refine ⟨_, hx, execImdClearCounts_frame m hx, answered_of_respond heff (imdCountsCleared_mbx _ _) (by simp), fun n => ?_, ?_⟩
    · rw [imdOf_after, heff, imdOf_congr (ok_imd _ _ _)]
      exact imdOf_forAll_nodesOf _ ImdNode.countsCleared _ n
    · rw [State.after_imdG, heff, ok_imdG, imdCountsCleared_imdG]

end Sys2Proof
end

section
/-! PROOFS. The safety island, contactor pairs and low-side channels read through an update, a frame or a command; what the switching of a
pair, a stop, a lock-out and a containment leave of the island (R260, R265, R267, R275, R278, R281). -/

namespace Sys2Proof

open Machine

theorem vmap_vupd {α β : Type} {n : Nat} (v : Vector α n) (i : Fin n) (f : α → α) (g : α → β) (h : ∀ x, g (f x) = g x) :
    vmap (vupd v i f) g = vmap v g := by
  ext k hk
  by_cases hi : k = i.val
  · subst hi
    simp [vmap, vupd, h]
  · simp [vmap, vupd, Ne.symm hi]

theorem Block.Only.safX_eq {l : List Part} {b c : Block} (h : Block.Only l b c) (hp : Part.safX ∉ l) : c.safX = b.safX := h .safX hp

/-- A change that does nothing to a block for any element of a list does nothing to it through the whole list. -/
theorem forAll_eq_self {β : Type} {f : β → Block → Block} {b : Block} (h : ∀ x, f x b = b) (xs : List β) : forAll xs f b = b := by
  induction xs with
  | nil => rfl
  | cons x xs ih => exact (congrArg (forAll xs f) (h x)).trans ih

namespace Machine

/-! ### Pairs, inputs and channels -/

@[simp] theorem State.after_safX (s : State) (f : Block → Block) : (s.after f).block.safX = (f s.block).safX :=
  (safetyItem_frame _ _).safX_eq (by decide)

theorem nodeOf_congr {b c : Block} (h : c.saf = b.saf) (n : Fin 16) : nodeOf c n = nodeOf b n := by rw [nodeOf, h, nodeOf]

theorem safPair_congr {b c : Block} (h : c.saf = b.saf) (k : Fin 8) : safPair c k = safPair b k := by rw [safPair, h, safPair]

theorem lsOf_congr {b c : Block} (h : c.lsw = b.lsw) (n : Fin 16) : lsOf c n = lsOf b n := by rw [lsOf, h, lsOf]

@[simp] theorem nodeOf_after (s : State) (f : Block → Block) (n : Fin 16) : nodeOf (s.after f).block n = nodeOf (f s.block) n :=
  nodeOf_congr (s.after_saf f) n

@[simp] theorem safPair_after (s : State) (f : Block → Block) (k : Fin 8) : safPair (s.after f).block k = safPair (f s.block) k :=
  safPair_congr (s.after_saf f) k

@[simp] theorem lsOf_after (s : State) (f : Block → Block) (n : Fin 16) : lsOf (s.after f).block n = lsOf (f s.block) n :=
  lsOf_congr (s.after_lsw f) n

@[simp] theorem nodeOf_updNode_self (n : Fin 16) (f : SafNode → SafNode) (b : Block) : nodeOf (updNode n f b) n = f (nodeOf b n) :=
  vget_vupd_self _ _ _

theorem nodeOf_updNode_ne {n k : Fin 16} (h : k ≠ n) (f : SafNode → SafNode) (b : Block) : nodeOf (updNode n f b) k = nodeOf b k :=
  vget_vupd_ne _ _ h

@[simp] theorem safPair_updSafPair_self (k : Fin 8) (f : SafPair → SafPair) (b : Block) : safPair (updSafPair k f b) k = f (safPair b k) :=
  vget_vupd_self _ _ _

theorem safPair_updSafPair_ne {k j : Fin 8} (h : j ≠ k) (f : SafPair → SafPair) (b : Block) :
    safPair (updSafPair k f b) j = safPair b j :=
  vget_vupd_ne _ _ h

@[simp] theorem lsOf_updLs_self (n : Fin 16) (f : LsChan → LsChan) (b : Block) : lsOf (updLs n f b) n = f (lsOf b n) :=
  vget_vupd_self _ _ _

@[simp] theorem irq_saf (n : Nat) (b : Block) : (irq n b).saf = b.saf := (irq_frame n b).saf_eq (by decide)
@[simp] theorem irq_safX (n : Nat) (b : Block) : (irq n b).safX = b.safX := (irq_frame n b).safX_eq (by decide)

/-! ### What the switching of a pair leaves of the island (R260, R270) -/

/-- The state of a pair less what the switching of its channel writes. -/
def SafNode.unswitched (x : SafNode) : SafNode :=
  { x with closed := false, openVerified := false, closeAt := none, openAt := none, openLate := false, lastOpen := 0, underLoad := false
           weldDue := false }

/-- The safety island, so read. -/
def unswitched (b : Block) : Safety := { b.saf with nodes := vmap b.saf.nodes SafNode.unswitched }

theorem vget_unswitched_nodes (b : Block) (n : Fin 16) : vget (unswitched b).nodes n = (nodeOf b n).unswitched := vget_vmap _ _ _

theorem unswitched_of_saf {b c : Block} (h : c.saf = b.saf) : unswitched c = unswitched b := by rw [unswitched, h, unswitched]

theorem unswitched_updNode (n : Fin 16) (f : SafNode → SafNode) (b : Block) (hf : ∀ x, (f x).unswitched = x.unswitched) :
    unswitched (updNode n f b) = unswitched b := by
  simp only [unswitched, updNode_saf, vmap_vupd _ _ _ _ hf]

/-- A field of a pair that switching leaves is read through it. -/
theorem field_of_unswitched {γ : Type} (q : SafNode → γ) (hq : ∀ x, q x.unswitched = q x) {b c : Block} (h : unswitched c = unswitched b)
    (n : Fin 16) : q (nodeOf c n) = q (nodeOf b n) := by
  rw [← hq, ← hq (nodeOf b n), ← vget_unswitched_nodes, ← vget_unswitched_nodes, h]

theorem hubPermit_of_unswitched {b c : Block} (h : unswitched c = unswitched b) : c.saf.hubPermit = b.saf.hubPermit := by
  change (unswitched c).hubPermit = (unswitched b).hubPermit
  rw [h]

section
variable (b : Block)

theorem coilStart_unswitched (n : Fin 16) : unswitched (coilStart n b) = unswitched b := by
  unfold coilStart
  extract_lets x s supply head
  split
  · rw [onlyIf_keeps (q := unswitched) (fun c => unswitched_of_saf (irq_saf 328 c)), unswitched_updNode _ _ _ fun _ => by rfl]
    rfl
  · rfl

theorem coilRelease_unswitched (n : Fin 16) : unswitched (coilRelease n b) = unswitched b := by
  refine forAll_keeps (q := unswitched) (fun k c => ?_) _ b
  split
  · rfl
  · exact coilStart_unswitched _ k

theorem lsOff_unswitched (n : Fin 16) : unswitched (lsOff n b) = unswitched b := by
  unfold lsOff
  extract_lets x c under d
  split
  · rfl
  split
  · rfl
  · have hd : unswitched d = unswitched b := unswitched_updNode n _ c fun _ => by rfl
    rw [onlyIf_keeps (q := unswitched) (fun e => coilRelease_unswitched e n)]
    refine (onlyIf_keeps (q := unswitched) (fun e => ?_) _ _).trans hd
    exact unswitched_of_saf (irq_saf 300 _)

end

/-! ### What the island senses -/

/-- What the safety island senses: which inputs are closed and since when each counts as open (R265), the readback of the interlock loop
(R267), and the overvoltage comparators that have tripped (R275). -/
structure SafetySenses where
  inputClosed : BitVec 16
  openSince : Vector (Option U64) 16
  retA : Bool
  retB : Bool
  crossShort : Bool
  overload : Bool
  ovTripped : Fin 16 → Bool

/-- The senses of a block. -/
def senses (b : Block) : SafetySenses :=
  { inputClosed := b.saf.inputClosed, openSince := b.saf.openSince, retA := b.saf.retA, retB := b.saf.retB
    crossShort := b.saf.crossShort, overload := b.saf.overload, ovTripped := fun n => (nodeOf b n).ovTripped }

theorem senses_of_saf {b c : Block} (h : c.saf = b.saf) : senses c = senses b := by
  simp only [senses, nodeOf, h]

theorem senses_of_frame {l : List Part} {b c : Block} (h : Block.Only l b c) (hp : Part.saf ∉ l) : senses c = senses b :=
  senses_of_saf (h.saf_eq hp)

theorem senses_of_unswitched {b c : Block} (h : unswitched c = unswitched b) : senses c = senses b := by
  have hnode : (fun n => (nodeOf c n).ovTripped) = fun n => (nodeOf b n).ovTripped :=
    funext fun n => field_of_unswitched SafNode.ovTripped (fun _ => rfl) h n
  have hfield {γ : Type} (q : Safety → γ) : q (unswitched c) = q (unswitched b) := congrArg q h
  simp only [senses, hnode, SafetySenses.mk.injEq, and_true]
  exact ⟨hfield (·.inputClosed), hfield (·.openSince), hfield (·.retA), hfield (·.retB), hfield (·.crossShort), hfield (·.overload)⟩

theorem senses_updNode (n : Fin 16) (f : SafNode → SafNode) (b : Block) (hf : ∀ x, (f x).ovTripped = x.ovTripped) :
    senses (updNode n f b) = senses b := by
  have hnode : (fun k => (nodeOf (updNode n f b) k).ovTripped) = fun k => (nodeOf b k).ovTripped := by
    funext k
    by_cases hk : k = n
    · subst hk
      rw [nodeOf_updNode_self, hf]
    · rw [nodeOf_updNode_ne hk]
  simp only [senses, hnode, updNode_saf]

section
variable (b : Block)

theorem irq_senses (n : Nat) : senses (irq n b) = senses b := senses_of_saf (irq_saf n b)
theorem updSafX_senses (f : SafetyX → SafetyX) : senses (updSafX f b) = senses b := rfl
theorem openWindow_senses (c : U8) (s : CScope) (k : Nat) : senses (openWindow c s k b) = senses b := rfl
theorem countFault_senses (f : FaultSpec) : senses (countFault f b) = senses b := rfl
theorem recordFault_senses (f : FaultSpec) (s : CScope) (k : Nat) : senses (recordFault f s k b) = senses b := rfl
theorem laneZero_senses (l : Fin 8) : senses (laneZero l b) = senses b := senses_of_frame (laneZero_frame l b) (by decide)
theorem saveSafety_senses : senses (saveSafety b) = senses b := senses_of_frame (saveSafety_frame b) (by decide)

theorem lockoutLog_senses (what : U8) (s : CScope) (cause : U8) : senses (lockoutLog what s cause b) = senses b :=
  senses_of_frame (lockoutLog_frame what s cause b) (by decide)

theorem reasonUnderLoad_senses (n : Fin 16) (r : EndReason) : senses (reasonUnderLoad n r b) = senses b :=
  senses_of_frame (reasonUnderLoad_frame n r b) (by decide)

/-! #### Pairs that open and close -/

theorem lsOff_senses (n : Fin 16) : senses (lsOff n b) = senses b := senses_of_unswitched (lsOff_unswitched b n)

theorem dykeClear_senses (n : Fin 16) : senses (dykeClear n b) = senses b := by
  rw [dykeClear, lsOff_senses, senses_updNode _ _ _ fun _ => by rfl]

theorem openNow_senses (n : Fin 16) : senses (openNow n b) = senses b := by
  rw [openNow, dykeClear_senses, senses_updNode _ _ _ fun _ => by rfl]

theorem openOutside_senses (n : Fin 16) : senses (openOutside n b) = senses b := by
  rw [openOutside, senses_of_frame (supplyOff_frame n _) (by decide), senses_of_frame (imdSessionEnds_frame n _) (by decide),
    dykeClear_senses, senses_updNode _ _ _ fun _ => by rfl]

theorem closePair_senses (n : Fin 16) : senses (closePair n b) = senses b := by
  unfold closePair
  extract_lets c
  have hc : senses c = senses b := senses_updNode n _ b fun _ => by rfl
  split
  · rw [lsOn, senses_of_unswitched (coilStart_unswitched _ n)]
    exact (senses_updNode n _ _ fun _ => by rfl).trans hc
  · exact hc

theorem reviewHw_senses : senses (reviewHw b) = senses b := by
  refine forAll_keeps (q := senses) (fun n c => ?_) _ b
  exact (onlyIf_keeps (q := senses) (fun d => lsOff_senses d n) _ _).trans (senses_updNode n _ c fun _ => by rfl)

/-! #### Sessions that stop -/

theorem enterPhase_senses (n : Fin 16) (p : Phase) : senses (enterPhase n p b) = senses b := by
  unfold enterPhase
  extract_lets c
  have hmodem : senses (modemPhase n p b) = senses b := senses_of_frame (modemPhase_frame n p b) (by decide)
  have hc : senses c = senses b := (senses_of_saf (updSess_saf n _ _)).trans hmodem
  split
  · rw [closePair_senses, senses_of_frame (imdCableCheck_frame n _) (by decide), senses_of_frame (supplyOn_frame n _) (by decide), hc]
  · exact hc
  · exact hc
  · rw [senses_updNode _ _ _ fun _ => by rfl, hc]
  · rw [openOutside_senses, hc]

theorem endSession_senses (n : Fin 16) : senses (endSession n b) = senses b := by
  unfold endSession
  extract_lets r c d
  have hc : senses c = senses b := senses_of_saf (updSess_saf n _ b)
  have hd : senses d = senses b := (enterPhase_senses c n _).trans hc
  rw [senses_of_frame (closeItems_frame n _ _ _) (by decide), senses_of_saf (updVeh_saf n _ d), hd]

theorem stopDone_senses (n : Fin 16) : senses (stopDone n b) = senses b := by
  unfold stopDone
  split
  · exact endSession_senses b n
  · rfl

theorem stopSession_senses (n : Fin 16) (r : EndReason) : senses (stopSession n r b) = senses b := by
  unfold stopSession
  extract_lets s c
  split
  · split
    · rfl
    split
    · exact enterPhase_senses c n _
    · exact endSession_senses c n
  · rfl

theorem stopAll_senses (r : EndReason) : senses (stopAll r b) = senses b :=
  forAll_keeps (q := senses) (fun n c => stopSession_senses c n r) _ b

/-! #### Lock-outs and openings -/

theorem coverFaulted_senses (n : Fin 16) : senses (coverFaulted n b) = senses b := by
  rw [coverFaulted, senses_of_frame (dutyReview_frame n _) (by decide), dykeClear_senses, senses_updNode _ _ _ fun _ => by rfl]

theorem setLock_senses (s : CScope) (cause : U8) : senses (setLock s cause b) = senses b := by
  unfold setLock
  extract_lets held c
  have hc : senses c = senses b := by
    cases s
    case node n => exact senses_updNode n _ b fun _ => by rfl
    all_goals rfl
  split
  · exact hc
  · rw [reviewHw_senses, forAll_keeps (q := senses) (fun n d => coverFaulted_senses d n), saveSafety_senses, lockoutLog_senses, irq_senses, hc]

theorem openStop_senses (r : EndReason) (n : Fin 16) : senses (openStop r n b) = senses b := by
  rw [openStop, reasonUnderLoad_senses, stopSession_senses, openNow_senses]

theorem rampedOpen_senses (n : Fin 16) : senses (rampedOpen n b) = senses b := by
  unfold rampedOpen
  extract_lets w r c d
  clear_value w r
  have hc : senses c = senses b := (dykeClear_senses _ n).trans (senses_updNode n _ b fun _ => by rfl)
  have hd : senses d = senses b := by
    cases r
    case none => exact hc
    case some => exact (reasonUnderLoad_senses c n _).trans hc
  rw [stopDone_senses]
  cases w
  case none => exact hd
  case some => exact (setLock_senses d _ _).trans hd

theorem rampNode_senses (n : Fin 16) (r : EndReason) : senses (rampNode n r b) = senses b := by
  unfold rampNode
  extract_lets c
  have hc : senses c = senses b := stopSession_senses b n r
  split
  · exact (senses_updNode n _ c fun _ => by rfl).trans hc
  · exact (rampedOpen_senses c n).trans hc

theorem hubSafeStop_senses (r : EndReason) : senses (hubSafeStop r b) = senses b := by
  unfold hubSafeStop
  extract_lets c d
  have hd : senses d = senses c := by
    rw [forAll_keeps (q := senses) (fun n e => reasonUnderLoad_senses e n r), stopAll_senses,
      forAll_keeps (q := senses) (fun n e => openNow_senses e n)]
  exact hd.trans (irq_senses _ 288)

/-! #### Containment -/

theorem applyNode_senses (mode : OpenMode) (r : EndReason) (n : Fin 16) : senses (applyNode mode r n b) = senses b := by
  cases mode
  case immediate => exact openStop_senses b r n
  case ramped => exact rampNode_senses b n r
  case hubStop => exact openStop_senses b r n
  case heldOpen => exact openNow_senses b n

theorem applyOwn_senses (f : FaultSpec) : senses (applyOwn f b) = senses b := by
  unfold applyOwn
  split
  · rw [onlyIf_keeps (q := senses) (fun c => setLock_senses c _ _), hubSafeStop_senses]
  · extract_lets c
    have hc : senses c = senses b := by
      unfold c
      split <;> rfl
    split
    · split
      · exact (rampNode_senses _ _ _).trans ((senses_updNode _ _ c fun _ => by rfl).trans hc)
      · exact (setLock_senses _ _ _).trans ((rampNode_senses _ _ _).trans hc)
    · rw [onlyIf_keeps (q := senses) (fun d => setLock_senses d _ _), forAll_keeps (q := senses) (fun n d => applyNode_senses d _ _ n), hc]

theorem applyLane_senses (l : Fin 8) (r : EndReason) (lock : Bool) (cause : U8) : senses (applyLane l r lock cause b) = senses b := by
  have hnode (n : Fin 16) (c : Block) :
      senses (if (lsOf c n).cmdOn && (nodeOf c n).rampedAt.isNone then rampNode n r c else stopSession n r c) = senses c := by
    split
    · exact rampNode_senses c n r
    · exact stopSession_senses c n r
  unfold applyLane
  extract_lets c d
  rw [onlyIf_keeps (q := senses) (fun e => setLock_senses e _ _), forAll_keeps (q := senses) hnode, laneZero_senses]

theorem applyHub_senses (hubStop : Bool) (r : EndReason) (lock : Bool) (cause : U8) : senses (applyHub hubStop r lock cause b) = senses b := by
  unfold applyHub
  extract_lets c
  have hc : senses c = senses b := by
    cases hubStop
    · exact forAll_keeps (q := senses) (fun n d => rampNode_senses d n r) _ b
    · exact hubSafeStop_senses b r
  rw [onlyIf_keeps (q := senses) (fun e => setLock_senses e _ _), hc]

theorem applyWidened_senses (k : Nat) (hubStop : Bool) (cause : U8) : senses (applyWidened k hubStop cause b) = senses b := by
  unfold applyWidened
  extract_lets r lock c l
  have hc : senses c = senses b := irq_senses b 297
  split
  · rw [← hc]
    refine (forAll_keeps (q := senses) (fun s d => ?_) _ _).trans rfl
    cases s
    case lane => exact (openWindow_senses _ _ _ _).trans (applyLane_senses d _ _ _ _)
    all_goals rfl
  · rw [openWindow_senses, applyHub_senses]
    exact hc

/-- Containing a fault senses nothing anew. -/
theorem contain_senses (f : FaultSpec) : senses (contain f b) = senses b := by
  unfold contain containAs
  split
  · rw [applyOwn_senses, recordFault_senses]
  · extract_lets c k lvl d e
    have hown : senses (applyOwn f c) = senses b := (applyOwn_senses c f).trans (countFault_senses b f)
    have hd : senses d = senses b := (recordFault_senses _ _ _ _).trans hown
    have he : senses e = senses b := (recordFault_senses _ _ _ _).trans hown
    split
    · rw [openWindow_senses, recordFault_senses, hown]
    split
    · rw [applyWidened_senses, hd]
    · rw [applyWidened_senses]
      exact he

end

end Machine

end Sys2Proof
end

section
/-! PROOFS. Safety inputs and their pairs, the interlock loop and the test pulses (R262, R265, R266, R267). -/

namespace Sys2Proof

open Machine

namespace Machine

/-! ### A trip decided by the two channels (R262) -/

/-- The decisions of the two channels on trip `f`, noted. -/
def decisionsNoted (f : Nat) (dyke hw : Bool) (b : Block) : Block := onlyIf hw (noteDecision false f) (onlyIf dyke (noteDecision true f) b)

section
variable {f : Nat} {dyke hw : Bool} {act : Block → Block} {b : Block}

/-- A quantity that reads no list of decisions is left when decisions are noted. -/
theorem decisionsNoted_keeps {γ : Type} {q : Block → γ} (hx : ∀ l c, q (updSafX (fun x => { x with decided := l }) c) = q c) :
    q (decisionsNoted f dyke hw b) = q b := by
  have hnote (chan : Bool) (c : Block) : q (noteDecision chan f c) = q c := by
    unfold noteDecision
    split
    · rfl
    · exact hx _ c
  exact (onlyIf_keeps (q := q) (hnote false) hw _).trans (onlyIf_keeps (q := q) (hnote true) dyke b)

theorem decisionsNoted_tripsOpen : (decisionsNoted f dyke hw b).safX.tripsOpen = b.safX.tripsOpen :=
  decisionsNoted_keeps (q := fun c => c.safX.tripsOpen) fun _ _ => rfl

/-- The decision of a trip leaves a quantity that its act leaves and that reads nothing of the second part of the island. -/
theorem tripDecide_keeps {γ : Type} {q : Block → γ} (hx : ∀ g c, q (updSafX g c) = q c) (hact : ∀ c, q c = q b → q (act c) = q b) :
    q (tripDecide f dyke hw act b) = q b := by
  unfold tripDecide
  extract_lets c
  have hc : q c = q b := decisionsNoted_keeps fun _ _ => hx _ _
  split
  · split
    · exact (hx _ c).trans hc
    · exact hc
  · split
    · exact hc
    · refine hact _ ?_
      split
      · exact hc
      · exact (hx _ c).trans hc

theorem tripDecide_senses (hact : ∀ c, senses (act c) = senses c) : senses (tripDecide f dyke hw act b) = senses b :=
  tripDecide_keeps (fun g c => updSafX_senses c g) fun c hc => (hact c).trans hc

end

/-! ### TEST_PULSE_PERIOD (R264, R265, R267) -/

/-- The readback of the loop and the instant of a period, noted. -/
def loopNoted (x : TestPulse) (b : Block) : Block :=
  updSafX (fun y => { y with pulseAt := some (now b) })
    (updSaf (fun y => { y with retA := x.retA, retB := x.retB, crossShort := x.crossShort, overload := x.overload }) b)

/-- What a period does before the pairs are checked: the loop is noted, and a good loop ends its trip. -/
def loopTaken (x : TestPulse) (b : Block) : Block :=
  onlyIf (x.retA && x.retB && !x.crossShort && !x.overload) (tripOver fnIlk) (loopNoted x b)

theorem testPulse_of_due {x : TestPulse} {b : Block} (hready : b.tide.ready = true)
    (hdue : nextMultiple 15000000 b.safX.pulseAt b = (now b).toNat) :
    testPulse x b = compareDecisions (forAll (List.finRange 8) (pairCheck x) (loopTaken x b)) := by
  have hon : ¬ (!b.tide.ready) = true := by simp [hready]
  unfold testPulse
  exact (if_neg hon).trans (atInstant_nextMultiple hdue _)

theorem testPulse_of_not_ready {x : TestPulse} {b : Block} (h : b.tide.ready = false) : testPulse x b = b := by
  unfold testPulse
  exact if_pos (by simp [h])

theorem pairCheck_of_unused {x : TestPulse} {k : Fin 8} {b : Block} (h : (safPair b k).function = 0) : pairCheck x k b = b := if_pos h

theorem compareDecisions_of_none {b : Block} (h : b.safX.tripsOpen = []) :
    compareDecisions b = updSafX (fun y => { y with published := y.decided }) b := by
  unfold compareDecisions
  extract_lets c old
  have hc : c.safX.tripsOpen = [] := h
  rw [hc]
  rfl

section
variable (x : TestPulse) (b : Block)

theorem loopTaken_saf :
    (loopTaken x b).saf = { b.saf with retA := x.retA, retB := x.retB, crossShort := x.crossShort, overload := x.overload } :=
  onlyIf_keeps (q := Block.saf) (fun c => updSafX_saf _ c) _ _

theorem loopTaken_pulseAt : (loopTaken x b).safX.pulseAt = some (now b) :=
  onlyIf_keeps (f := tripOver fnIlk) (q := fun c => c.safX.pulseAt) (fun _ => rfl) _ (loopNoted x b)

theorem loopTaken_tripsOpen : (loopTaken x b).safX.tripsOpen = b.safX.tripsOpen :=
  onlyIf_keeps (f := tripOver fnIlk) (q := fun c => c.safX.tripsOpen) (fun _ => rfl) _ (loopNoted x b)

end

/-- With no pair in use and no trip open, the checks find nothing and the decisions stand published. -/
theorem testPulse_of_unused {x : TestPulse} {b : Block} (hready : b.tide.ready = true)
    (hdue : nextMultiple 15000000 b.safX.pulseAt b = (now b).toNat) (hunused : ∀ k, (safPair b k).function = 0)
    (hnone : b.safX.tripsOpen = []) :
    testPulse x b = updSafX (fun y => { y with published := y.decided }) (loopTaken x b) := by
  have hpair (k : Fin 8) : (safPair (loopTaken x b) k).function = 0 := by
    rw [safPair, loopTaken_saf]
    exact hunused k
  rw [testPulse_of_due hready hdue, forAll_eq_self (fun k => pairCheck_of_unused (hpair k)),
    compareDecisions_of_none ((loopTaken_tripsOpen x b).trans hnone)]

/-! ### PAIR_FAULT_CLEAR (R265) -/

theorem pairFaultClear_of_good {k : Fin 8} {b : Block} (hlatched : (safPair b k).faultLatched = true) (hgood : 10 ≤ (safPair b k).okPeriods) :
    pairFaultClear k b =
      updSafPair k (fun p => { p with faultLatched := false, acting := (pairInputs k).any (inputOpen b) }) (tripOver (fnFault k) b) :=
  if_pos ⟨hlatched, hgood⟩

theorem pairFaultClear_of_not {k : Fin 8} {b : Block} (h : (safPair b k).faultLatched = false ∨ (safPair b k).okPeriods < 10) :
    pairFaultClear k b = b := by
  refine if_neg fun ⟨hlatched, hgood⟩ => ?_
  rcases h with h | h
  · rw [h] at hlatched
    exact absurd hlatched (by decide)
  · exact absurd h (Nat.not_lt.mpr hgood)

/-! ### SAFETY_INPUT_OPEN and SAFETY_INPUT_CLOSE (R265, R266) -/

section
variable {i : Fin 16} {dyke hw : Bool} {b : Block}

theorem safetyInputOpen_of_unused (h : (safPair b (inputPair i)).function = 0) : safetyInputOpen i dyke hw b = b := if_pos h

/-- Input `i` counts as open, from now unless it did. -/
def inputOpened (i : Fin 16) (b : Block) : Block :=
  updSaf (fun x => { x with
    inputClosed := x.inputClosed &&& ~~~(BitVec.ofNat 16 (2 ^ i.val))
    openSince := vupd x.openSince i fun t => match t with | some t => some t | none => some (now b) }) b

theorem safetyInputOpen_of_used (hused : (safPair b (inputPair i)).function ≠ 0) (hdue : unblanked i b = (now b).toNat) :
    safetyInputOpen i dyke hw b =
      tripDecide (inputPair i).val dyke hw (pairActs (inputPair i)) (pairDiffer (inputPair i) (inputOpened i b)) := by
  rw [safetyInputOpen]
  exact (if_neg hused).trans (atInstant_of_le hdue.le _)

theorem updSafPair_senses (k : Fin 8) (f : SafPair → SafPair) (b : Block) : senses (updSafPair k f b) = senses b := rfl

/-- A stop of a zone senses nothing anew. -/
theorem zoneStop_senses (ns : List (Fin 16)) (b : Block) : senses (zoneStop ns b) = senses b := by
  unfold zoneStop
  extract_lets f
  split
  · rfl
  · rw [contain_senses]
    refine forAll_keeps (q := senses) (fun n c => ?_) _ b
    have hscopes (d : Block) : senses (updSaf (fun x => { x with episodeScopes := x.episodeScopes ++ [.node n] }) d) = senses d := rfl
    rw [openWindow_senses, hscopes, applyOwn_senses]

theorem pairActs_senses (k : Fin 8) (b : Block) : senses (pairActs k b) = senses b := by
  unfold pairActs
  extract_lets p c
  have hc : senses c = senses b := irq_senses _ 290
  split
  · rfl
  split
  · exact (contain_senses c _).trans hc
  · exact (zoneStop_senses _ c).trans hc

theorem safetyInputOpen_senses (hused : (safPair b (inputPair i)).function ≠ 0) (hdue : unblanked i b = (now b).toNat) :
    senses (safetyInputOpen i dyke hw b) = senses (inputOpened i b) := by
  rw [safetyInputOpen_of_used hused hdue, tripDecide_senses (pairActs_senses _), pairDiffer, updSafPair_senses]

theorem inputOpened_isSome : (vget (inputOpened i b).saf.openSince i).isSome = true := by
  refine (congrArg Option.isSome (vget_vupd_self b.saf.openSince i _)).trans ?_
  cases vget b.saf.openSince i <;> rfl

/-- A closed input of a used pair is noted so; no other input is. -/
theorem safetyInputClose_senses (hused : (safPair b (inputPair i)).function ≠ 0) :
    senses (safetyInputClose i b) =
      senses (updSaf (fun x => { x with inputClosed := x.inputClosed ||| BitVec.ofNat 16 (2 ^ i.val), openSince := vset x.openSince i none }) b) := by
  unfold safetyInputClose
  extract_lets k c d open_
  rw [if_neg hused, updSafPair_senses]
  exact onlyIf_keeps (f := tripOver k.val) (q := senses) (fun _ => rfl) _ d

end

/-! ### ILK_FAULT (R267) -/

/-- The readback of the interlock loop, noted. -/
def readbackNoted (a c cross ovl : Bool) (b : Block) : Block :=
  updSaf (fun x => { x with retA := a, retB := c, crossShort := cross, overload := ovl }) b

/-- The act of a trip of the interlock loop: with the hub permit, source 292 and a hub stop (R267, R273). -/
def loopActs (b : Block) : Block :=
  if b.saf.hubPermit then
    contain { cause := 3, scope := .hub, mode := .hubStop, base := 3, lock := true, reason := .safety } (irq 292 b)
  else b

section
variable {a c cross ovl dyke hw : Bool} {b : Block}

theorem ilkFault_eq : ilkFault a c cross ovl dyke hw b = tripDecide fnIlk dyke hw loopActs (readbackNoted a c cross ovl b) := rfl

theorem loopActs_senses (b : Block) : senses (loopActs b) = senses b := by
  unfold loopActs
  split
  · exact (contain_senses _ _).trans (irq_senses b 292)
  · rfl

theorem ilkFault_senses : senses (ilkFault a c cross ovl dyke hw b) = senses (readbackNoted a c cross ovl b) := by
  rw [ilkFault_eq, tripDecide_senses loopActs_senses]

/-- Without the hub permit a fault of the loop is noted and stops nothing. -/
theorem ilkFault_saf_of_no_permit (h : b.saf.hubPermit = false) :
    (ilkFault a c cross ovl dyke hw b).saf = (readbackNoted a c cross ovl b).saf := by
  rw [ilkFault_eq]
  refine tripDecide_keeps (q := Block.saf) (fun g c => updSafX_saf g c) fun d hd => ?_
  have hpermit : d.saf.hubPermit = false := by rw [hd]; exact h
  rw [loopActs, hpermit]
  exact hd

end

end Machine

/-- Settles O37: each event acts at its condition; what a trip makes the device do, a containment at the most, senses nothing anew, so inputs
and loop stand as the event noted them. -/
theorem safetyInputs : Obligations.SafetyInputs := by
  refine ⟨fun s x hrep hready hdue => ?_, fun s x hrep hready hdue hunused hnone => ?_, fun s x hrep hready => ?_,
    fun s k hlatched hgood => ?_, fun s k hnot => ?_, fun s i dyke hw hrep hunused => ?_, fun s i dyke hw hrep hused hdue => ?_,
    fun s i hrep hused => ?_, fun s a c cross ovl dyke hw hrep => ?_, fun s a c cross ovl dyke hw hrep hpermit => ?_⟩
  -- TEST_PULSE_PERIOD
  · have hx : exec (.testPulsePeriod x) s = .next (s.after (testPulse x)) := State.input_eq hrep _
    exact ⟨_, hx, execTestPulsePeriod_frame x hx, State.after_block (testPulse_of_due hready hdue)⟩
  -- TEST_PULSE_PERIOD with nothing to check
  · have hx : exec (.testPulsePeriod x) s = .next (s.after (testPulse x)) := State.input_eq hrep _
    refine ⟨_, hx, execTestPulsePeriod_frame x hx, ?_⟩
    rw [State.after_safX, State.after_saf, testPulse_of_unused hready hdue hunused hnone]
    exact ⟨loopTaken_pulseAt x _, (loopTaken_tripsOpen x _).trans hnone, rfl, loopTaken_saf x _⟩
  -- TEST_PULSE_PERIOD before Tide is ready
  · have hx : exec (.testPulsePeriod x) s = .next (s.after (testPulse x)) := State.input_eq hrep _
    exact ⟨_, hx, execTestPulsePeriod_frame x hx, State.after_block (testPulse_of_not_ready hready)⟩
  -- PAIR_FAULT_CLEAR
  · refine ⟨s.after (pairFaultClear k), rfl, execPairFaultClear_frame k rfl, ?_⟩
    simp only [safPair_after, pairFaultClear_of_good hlatched hgood, safPair_updSafPair_self, true_and]
    exact fun j hj => safPair_updSafPair_ne hj _ _
  · refine ⟨s.after (pairFaultClear k), rfl, execPairFaultClear_frame k rfl, ?_⟩
    rw [State.after_saf, pairFaultClear_of_not hnot]
  -- SAFETY_INPUT_OPEN
  · have hx : exec (.safetyInputOpen i dyke hw) s = .next (s.after (safetyInputOpen i dyke hw)) := State.input_eq hrep _
    refine ⟨_, hx, execSafetyInputOpen_frame i dyke hw hx, ?_⟩
    rw [State.after_saf, State.after_safX, safetyInputOpen_of_unused hunused]
    exact ⟨rfl, rfl⟩
  · have hx : exec (.safetyInputOpen i dyke hw) s = .next (s.after (safetyInputOpen i dyke hw)) := State.input_eq hrep _
    have hsenses := safetyInputOpen_senses (dyke := dyke) (hw := hw) hused hdue
    refine ⟨_, hx, execSafetyInputOpen_frame i dyke hw hx, State.after_block (safetyInputOpen_of_used hused hdue), ?_⟩
    rw [State.after_saf]
    exact ⟨congrArg SafetySenses.inputClosed hsenses,
      (congrArg (fun y => (vget y.openSince i).isSome) hsenses).trans inputOpened_isSome⟩
  -- SAFETY_INPUT_CLOSE
  · have hx : exec (.safetyInputClose i) s = .next (s.after (safetyInputClose i)) := State.input_eq hrep _
    have hframe := execSafetyInputClose_frame i hx
    have hsenses := safetyInputClose_senses hused
    refine ⟨_, hx, hframe, ?_, ?_, hframe.2.sess_eq (by decide)⟩
    · rw [State.after_saf]
      exact congrArg SafetySenses.inputClosed hsenses
    · rw [State.after_saf]
      exact (congrArg (fun y => vget y.openSince i) hsenses).trans (vget_vset_self _ _ _)
  -- ILK_FAULT
  · have hx : exec (.ilkFault a c cross ovl dyke hw) s = .next (s.after (ilkFault a c cross ovl dyke hw)) := State.input_eq hrep _
    have hsenses := ilkFault_senses (a := a) (c := c) (cross := cross) (ovl := ovl) (dyke := dyke) (hw := hw) (b := s.block)
    refine ⟨_, hx, execIlkFault_frame a c cross ovl dyke hw hx, State.after_block ilkFault_eq, ?_⟩
    rw [State.after_saf]
    exact ⟨congrArg SafetySenses.retA hsenses, congrArg SafetySenses.retB hsenses, congrArg SafetySenses.crossShort hsenses,
      congrArg SafetySenses.overload hsenses⟩
  · have hx : exec (.ilkFault a c cross ovl dyke hw) s = .next (s.after (ilkFault a c cross ovl dyke hw)) := State.input_eq hrep _
    refine ⟨_, hx, execIlkFault_frame a c cross ovl dyke hw hx, ?_⟩
    rw [State.after_saf, ilkFault_saf_of_no_permit hpermit]
    rfl

end Sys2Proof
end

section
/-! PROOFS. The two channels and their disagreement, overvoltage, the pilot backup and the reset pulse (R261, R262, R269, R275, R276,
R279). -/

namespace Sys2Proof

open Machine

namespace Machine

/-! ### DYKE_ALIVE_TIMEOUT and DISAGREE_TIMEOUT (R261, R262) -/

theorem dykeAliveTimeout_of_not {b : Block} (h : b.saf.dykeAlive = false ∨ dykePaused b = true) : dykeAliveTimeout b = b := by
  refine if_pos ?_
  rcases h with h | h
  · rw [h]
    rfl
  · rw [h, Bool.or_true]

theorem dykeAliveTimeout_of_alive {b : Block} (halive : b.saf.dykeAlive = true) (hruns : dykePaused b = false) :
    dykeAliveTimeout b = disagree (forAll allNodes (fun n c => lsOff n (updNode n (fun x => { x with permitHw := false }) c))
      (updSaf (fun x => { x with dykeAlive := false }) b)) := by
  have hdecides : ¬ (!b.saf.dykeAlive || dykePaused b) = true := by simp [halive, hruns]
  unfold dykeAliveTimeout
  exact if_neg hdecides

theorem disagreeTimeout_of_due {b : Block} {d : Bool} {f : Nat} {i : U64} {l : List (Bool × Nat × U64)}
    (hopen : b.safX.tripsOpen = (d, f, i) :: l) (hdue : i.toNat + 30000000 ≤ (now b).toNat) :
    disagreeTimeout b = disagree (updSafX (fun x => { x with tripsOpen := l }) b) := by
  have hrest : updSafX (fun x => { x with tripsOpen := x.tripsOpen.tail }) b = updSafX (fun x => { x with tripsOpen := l }) b := by
    simp only [updSafX, hopen, List.tail_cons]
  simp only [disagreeTimeout, hopen, afterTicks_of_le hdue, hrest]

theorem disagreeTimeout_of_none {b : Block} (h : b.safX.tripsOpen = []) : disagreeTimeout b = b := by
  simp only [disagreeTimeout, h]

/-! ### OV_TRIP (R275) -/

/-- No trip of function `f` stands decided by one channel alone. -/
def NoTripOpen (f : Nat) (b : Block) : Prop := b.safX.tripsOpen.find? (fun t => t.2.1 == f) = none

section
variable {f : Nat} {dyke hw : Bool} {act : Block → Block} {b : Block} (hnone : NoTripOpen f b)
include hnone

theorem NoTripOpen.noted : NoTripOpen f (decisionsNoted f dyke hw b) := by
  rw [NoTripOpen, decisionsNoted_tripsOpen]
  exact hnone

/-- The first decision of a trip acts, whichever channel decides (R262). -/
theorem tripDecide_of_first (hdecides : dyke = true ∨ hw = true) : ∃ c, tripDecide f dyke hw act b = act c := by
  have hneither : ¬ (!dyke && !hw) = true := by
    rcases hdecides with h | h <;> simp [h]
  have hnoted : (decisionsNoted f dyke hw b).safX.tripsOpen.find? (fun t => t.2.1 == f) = none := hnone.noted
  rw [decisionsNoted] at hnoted
  simp only [tripDecide, hnoted, if_neg hneither]
  exact ⟨_, rfl⟩

theorem tripDecide_of_none : tripDecide f false false act b = b := by
  have hnoted : b.safX.tripsOpen.find? (fun t => t.2.1 == f) = none := hnone
  simp only [tripDecide, onlyIf, Bool.false_eq_true, if_false, hnoted]
  rfl

end

/-- The act of an overvoltage trip of node `n`: source 293 and the containment of the node, unless it is tripped (R275). -/
def overvoltageActs (n : Fin 16) (b : Block) : Block :=
  if (nodeOf b n).ovTripped then b
  else contain { cause := 4, scope := .node n, mode := .immediate, base := 1, lock := true, reason := .safety }
    (irq 293 (updNode n (fun x => { x with ovTripped := true }) b))

theorem ovTrip_eq (n : Fin 16) (dyke hw : Bool) (b : Block) : ovTrip n dyke hw b = tripDecide (16 + n.val) dyke hw (overvoltageActs n) b := rfl

theorem overvoltageActs_trips (n : Fin 16) (b : Block) : (nodeOf (overvoltageActs n b) n).ovTripped = true := by
  unfold overvoltageActs
  split
  · assumption
  · refine (congrFun (congrArg SafetySenses.ovTripped ((contain_senses _ _).trans (irq_senses _ 293))) n).trans ?_
    exact congrArg SafNode.ovTripped (nodeOf_updNode_self n _ b)

/-! ### OVERVOLTAGE_RELEASE (R269, R275) -/

theorem hwCondition_congr {b c : Block} {n : Fin 16} (htide : c.tide = b.tide) (hhub : c.saf.hubPermit = b.saf.hubPermit)
    (hlock : lockedOut c n = lockedOut b n) (hov : (nodeOf c n).ovTripped = (nodeOf b n).ovTripped)
    (hback : (nodeOf c n).backupActed = (nodeOf b n).backupActed) : hwCondition c n = hwCondition b n := by
  simp only [hwCondition, htide, hhub, hlock, hov, hback]

/-- The hardware permit of node `n` is formed anew (R269). -/
def reviewHwNode (n : Fin 16) (b : Block) : Block :=
  onlyIf (!hwCondition b n) (lsOff n) (updNode n (fun x => { x with permitHw := hwCondition b n }) b)

theorem reviewHw_eq (b : Block) : reviewHw b = forAll allNodes reviewHwNode b := rfl

/-- Forming one permit changes the condition of none. -/
theorem hwCondition_reviewHwNode (n k : Fin 16) (b : Block) : hwCondition (reviewHwNode n b) k = hwCondition b k := by
  have hoff (c : Block) : hwCondition (lsOff n c) k = hwCondition c k :=
    hwCondition_congr ((lsOff_frame n c).tide_eq (by decide)) (hubPermit_of_unswitched (lsOff_unswitched c n))
      (congrFun (lockedOut_lsOff c n) k) (field_of_unswitched SafNode.ovTripped (fun _ => rfl) (lsOff_unswitched c n) k)
      (field_of_unswitched SafNode.backupActed (fun _ => rfl) (lsOff_unswitched c n) k)
  have hfields {γ : Type} (q : SafNode → γ) (hq : ∀ x : SafNode, q { x with permitHw := hwCondition b n } = q x) :
      q (nodeOf (updNode n (fun x => { x with permitHw := hwCondition b n }) b) k) = q (nodeOf b k) := by
    by_cases hk : k = n
    · subst hk
      rw [nodeOf_updNode_self, hq]
    · rw [nodeOf_updNode_ne hk]
  refine (onlyIf_keeps (q := fun c => hwCondition c k) hoff _ _).trans ?_
  exact hwCondition_congr rfl rfl (congrFun (lockedOut_updNode b n _ fun _ => by rfl) k) (hfields SafNode.ovTripped fun _ => by rfl)
    (hfields SafNode.backupActed fun _ => by rfl)

theorem permitHw_reviewHwNode (n k : Fin 16) (b : Block) :
    (nodeOf (reviewHwNode n b) k).permitHw = if k = n then hwCondition b k else (nodeOf b k).permitHw := by
  refine (onlyIf_keeps (q := fun c => (nodeOf c k).permitHw)
    (fun c => field_of_unswitched SafNode.permitHw (fun _ => rfl) (lsOff_unswitched c n) k) _ _).trans ?_
  split
  · next hk =>
    subst hk
    rw [nodeOf_updNode_self]
  · next hk => rw [nodeOf_updNode_ne hk]

theorem permitHw_forAll_reviewHwNode (ns : List (Fin 16)) (k : Fin 16) (b : Block) :
    (nodeOf (forAll ns reviewHwNode b) k).permitHw = if k ∈ ns then hwCondition b k else (nodeOf b k).permitHw := by
  induction ns generalizing b with
  | nil => rfl
  | cons n ns ih =>
    refine (ih _).trans ?_
    rw [hwCondition_reviewHwNode, permitHw_reviewHwNode]
    by_cases hk : k = n <;> simp [hk]

/-- The review gives each node the hardware permit that its condition says. -/
theorem permitHw_reviewHw (k : Fin 16) (b : Block) : (nodeOf (reviewHw b) k).permitHw = hwCondition b k := by
  have hk : k ∈ allNodes := List.mem_finRange k
  rw [reviewHw_eq, permitHw_forAll_reviewHwNode, if_pos hk]

theorem ovTripped_ovRelease (n : Fin 16) (b : Block) : (nodeOf (ovRelease n b) n).ovTripped = false := by
  refine (congrFun (congrArg SafetySenses.ovTripped (reviewHw_senses _)) n).trans ?_
  exact congrArg SafNode.ovTripped (nodeOf_updNode_self n _ _)

/-! ### PILOT_BACKUP (R276) -/

theorem pilotBackup_of_bad {n : Fin 16} {b : Block} (hpermit : (nodeOf b n).permitHw = true) (hclosed : (nodeOf b n).closed = true)
    (hbad : 88 ≤ (nodeOf b n).pilotBad) :
    pilotBackup n b = disagree (lsOff n (updNode n (fun x => { x with backupActed := true, permitHw := false }) b)) :=
  if_pos ⟨hpermit, hclosed, hbad⟩

theorem pilotBackup_of_not {n : Fin 16} {b : Block}
    (h : (nodeOf b n).permitHw = false ∨ (nodeOf b n).closed = false ∨ (nodeOf b n).pilotBad < 88) : pilotBackup n b = b := by
  refine if_neg fun ⟨hpermit, hclosed, hbad⟩ => ?_
  rcases h with h | h | h
  · exact absurd (h.symm.trans hpermit) (by decide)
  · exact absurd (h.symm.trans hclosed) (by decide)
  · exact absurd h (Nat.not_lt.mpr hbad)

/-! ### SAFE_RESET_PULSE and RESET_ARM_EXPIRED (R279) -/

/-- A raised source stays pending while its entry goes to the log. -/
theorem Hic.KeepsPending.opEvent {h : Hic} {b : Block} (hb : h.KeepsPending b.hic) (writer : U8) (src index : Nat) :
    h.KeepsPending (opEvent writer src index b).hic := by
  unfold Machine.opEvent opLogAs
  extract_lets sec r raise
  split
  · refine onlyIf ?_ _ fun hc => hc.irq 467
    exact hb
  · refine stageOp ?_ _
    exact hb

theorem irqLog_pends {n : Nat} (h : 1 ≤ n ∧ n ≤ 510) (writer : U8) (index : Nat) (b : Block) :
    Raised (irqLog writer n index b) ⟨n, by omega⟩ :=
  ((Hic.KeepsPending.refl (irq n b).hic).opEvent writer n index) _ (irq_pends h b)

/-- The width of a reset pulse, and whether both channels found it valid, noted. -/
def widthNoted (dyke : Nat) (valid : Bool) (b : Block) : Block :=
  updSafX (fun x => { x with width := satNat 16 (dyke / 1000), valid := valid }) b

section
variable {dyke hw : Nat} {b : Block} (hready : b.tide.ready = true)
include hready

theorem resetPulse_of_valid (hd : pulseValid dyke = true) (hh : pulseValid hw = true) :
    resetPulse dyke hw b =
      irq 298 (updSaf (fun x => { x with resetArmedUntil := some (ahead b (10 * tSec)) }) (widthNoted dyke true b)) := by
  simp only [resetPulse, hready, hd, hh]
  rfl

theorem resetPulse_of_invalid (hd : pulseValid dyke = false) (hh : pulseValid hw = false) :
    resetPulse dyke hw b = irqLog wDyke 299 0xFFFF (updSafX (fun x => { x with rejected := satInc x.rejected }) (widthNoted dyke false b)) := by
  simp only [resetPulse, hready, hd, hh]
  rfl

theorem resetPulse_of_one (hone : pulseValid dyke ≠ pulseValid hw) : resetPulse dyke hw b = disagree (widthNoted dyke false b) := by
  obtain ⟨hboth, heither⟩ : (pulseValid dyke && pulseValid hw) = false ∧ (pulseValid dyke || pulseValid hw) = true := by
    revert hone
    cases pulseValid dyke <;> cases pulseValid hw <;> decide
  simp only [resetPulse, hready, hboth, heither]
  rfl

end

theorem armExpired_of_due {b : Block} {i : U64} (harmed : b.saf.resetArmedUntil = some i) (hdue : i.toNat ≤ (now b).toNat) :
    armExpired b = updSaf (fun x => { x with resetArmedUntil := none }) b := by
  simp only [armExpired, harmed, atInstant_of_le hdue]

end Machine

/-- Settles O38: each event acts at its condition; of a trip the first decision acts, the containment of an overvoltage leaves it tripped,
and forming one hardware permit changes the condition of no other. -/
theorem safetyChannels : Obligations.SafetyChannels := by
  refine ⟨fun s hnot => ?_, fun s halive hruns => ?_, fun s d f i l hopen hdue => ?_, fun s hnone => ?_, fun s n dyke hw hrep => ?_,
    fun s n dyke hw hrep hdyke hhw hnone => ?_, fun s n hrep => ?_, fun s n hrep hpermit hclosed hbad => ?_, fun s n hrep hnot => ?_,
    fun s dyke hw hrep hready hd hh => ?_, fun s dyke hw hrep hready hd hh => ?_, fun s dyke hw hrep hready hone => ?_,
    fun s i harmed hdue => ?_⟩
  -- DYKE_ALIVE_TIMEOUT
  · refine ⟨s.after dykeAliveTimeout, rfl, execDykeAliveTimeout_frame rfl, ?_⟩
    rw [State.after_saf, State.after_sess, dykeAliveTimeout_of_not hnot]
    exact ⟨rfl, rfl⟩
  · exact ⟨s.after dykeAliveTimeout, rfl, execDykeAliveTimeout_frame rfl, State.after_block (dykeAliveTimeout_of_alive halive hruns)⟩
  -- DISAGREE_TIMEOUT
  · exact ⟨s.after disagreeTimeout, rfl, execDisagreeTimeout_frame rfl, State.after_block (disagreeTimeout_of_due hopen hdue)⟩
  · refine ⟨s.after disagreeTimeout, rfl, execDisagreeTimeout_frame rfl, ?_⟩
    rw [State.after_saf, State.after_safX, disagreeTimeout_of_none hnone]
    exact ⟨rfl, rfl⟩
  -- OV_TRIP
  · have hx : exec (.ovTrip n dyke hw) s = .next (s.after (ovTrip n dyke hw)) := State.input_eq hrep _
    refine ⟨_, hx, execOvTrip_frame n dyke hw hx, State.after_block (ovTrip_eq n dyke hw _), fun hdecides hnone => ?_⟩
    obtain ⟨c, hc⟩ := tripDecide_of_first (act := overvoltageActs n) hnone hdecides
    rw [nodeOf_after, ovTrip_eq, hc, overvoltageActs_trips]
  · subst hdyke hhw
    have hx : exec (.ovTrip n false false) s = .next (s.after (ovTrip n false false)) := State.input_eq hrep _
    refine ⟨_, hx, execOvTrip_frame n false false hx, ?_⟩
    rw [State.after_saf, State.after_sess, ovTrip_eq, tripDecide_of_none hnone]
    exact ⟨rfl, rfl⟩
  -- OVERVOLTAGE_RELEASE
  · have hx : exec (.overvoltageRelease n) s = .next (s.after (ovRelease n)) := State.input_eq hrep _
    refine ⟨_, hx, execOvervoltageRelease_frame n hx, ?_⟩
    simp only [nodeOf_after]
    exact ⟨ovTripped_ovRelease n _, fun k => permitHw_reviewHw k _⟩
  -- PILOT_BACKUP
  · have hx : exec (.pilotBackup n) s = .next (s.after (pilotBackup n)) := State.input_eq hrep _
    exact ⟨_, hx, execPilotBackup_frame n hx, State.after_block (pilotBackup_of_bad hpermit hclosed hbad)⟩
  · have hx : exec (.pilotBackup n) s = .next (s.after (pilotBackup n)) := State.input_eq hrep _
    refine ⟨_, hx, execPilotBackup_frame n hx, ?_⟩
    rw [State.after_saf, State.after_sess, pilotBackup_of_not hnot]
    exact ⟨rfl, rfl⟩
  -- SAFE_RESET_PULSE
  · have hx : exec (.safeResetPulse dyke hw) s = .next (s.after (resetPulse dyke hw)) := State.input_eq hrep _
    refine ⟨_, hx, execSafeResetPulse_frame dyke hw hx, ?_⟩
    simp only [Raised, State.after_safX, State.after_saf, State.after_hic, resetPulse_of_valid hready hd hh, irq_safX, irq_saf]
    exact ⟨rfl, rfl, irq_pends (n := 298) (by decide) _⟩
  · have hx : exec (.safeResetPulse dyke hw) s = .next (s.after (resetPulse dyke hw)) := State.input_eq hrep _
    refine ⟨_, hx, execSafeResetPulse_frame dyke hw hx, ?_⟩
    simp only [Raised, State.after_safX, State.after_saf, State.after_hic, resetPulse_of_invalid hready hd hh,
      (irqLog_frame _ _ _ _).safX_eq (by decide), (irqLog_frame _ _ _ _).saf_eq (by decide)]
    exact ⟨rfl, rfl, irqLog_pends (n := 299) (by decide) _ _ _⟩
  · have hx : exec (.safeResetPulse dyke hw) s = .next (s.after (resetPulse dyke hw)) := State.input_eq hrep _
    exact ⟨_, hx, execSafeResetPulse_frame dyke hw hx, State.after_block (resetPulse_of_one hready hone)⟩
  -- RESET_ARM_EXPIRED
  · refine ⟨s.after armExpired, rfl, execResetArmExpired_frame rfl, ?_⟩
    rw [State.after_saf, armExpired_of_due harmed hdue, updSaf_saf]

end Sys2Proof
end

section
/-! PROOFS. Ramped stops, the checks of a closing and an opening, the welding test and the recovery window (R270, R272, R274, R281, R282). -/

namespace Sys2Proof

open Machine

namespace Machine

/-! ### RAMPED_STOP_TIMEOUT (R274) -/

theorem rampedStop_of_none {n : Fin 16} {b : Block} (h : (nodeOf b n).rampedAt = none) : rampedStop n b = b := by
  simp only [rampedStop, h]

theorem rampedStop_of_due {n : Fin 16} {b : Block} {i : U64} (hramped : (nodeOf b n).rampedAt = some i)
    (hdue : (sessOf b n).zeroVerified = true ∨ i.toNat + 30000000 ≤ (now b).toNat) : rampedStop n b = rampedOpen n b := by
  simp only [rampedStop, hramped]
  split
  · rfl
  · next hflows => exact afterTicks_of_le (hdue.resolve_left hflows) _

/-! ### CONTACTOR_CLOSE_TIMEOUT and CONTACTOR_OPEN_CHECK (R270) -/

theorem closeTimeout_of_due {n : Fin 16} {b : Block} {i : U64} (hclose : (nodeOf b n).closeAt = some i)
    (hdue : i.toNat + 50 * tMs ≤ (now b).toNat) :
    closeTimeout n b = contactorFault n (updNode n (fun x => { x with closeAt := none }) b) := by
  simp only [closeTimeout, hclose, afterTicks_of_le hdue]

theorem closeTimeout_of_none {n : Fin 16} {b : Block} (h : (nodeOf b n).closeAt = none) : closeTimeout n b = b := by
  simp only [closeTimeout, h]

/-- The opening of node `n` is late: the pair and its low-side channel say so. -/
def openingLate (n : Fin 16) (b : Block) : Block :=
  updLs n (fun x => { x with stuck := true, decaySlow := true }) (updNode n (fun x => { x with openLate := true }) b)

theorem stuckSupply_of_none {n : Fin 16} {b : Block} (h : 40 ≤ (lsOf b n).supply.toNat) : stuckSupply n b = b := if_neg (Nat.not_lt.mpr h)

section
variable {n : Fin 16} {b : Block} {i : U64} (hopen : (nodeOf b n).openAt = some i)
include hopen

theorem openCheck_of_late (hlate : (nodeOf b n).openLate = true) (hdue : i.toNat + 50 * tMs ≤ (now b).toNat) :
    openCheck n b = contain { cause := 0x0A, scope := .hub, mode := .hubStop, base := 3, lock := true, reason := .safety }
      (irq 301 (updNode n (fun x => { x with openAt := none }) b)) := by
  simp only [openCheck, hopen, hlate, if_true, afterTicks_of_le hdue]

/-- Without a supply channel of its own, a late opening is noted and sources 329 and 301 are raised. -/
theorem openCheck_of_unsupplied (hfirst : (nodeOf b n).openLate = false) (hdue : i.toNat + 10 * tMs ≤ (now b).toNat)
    (hsupply : 40 ≤ (lsOf b n).supply.toNat) : openCheck n b = irq 301 (irq 329 (openingLate n b)) := by
  have hls : lsOf (irq 301 (irq 329 (openingLate n b))) n = { lsOf b n with stuck := true, decaySlow := true } := by
    rw [lsOf_congr ((irq_frame _ _).lsw_eq (by decide)), lsOf_congr ((irq_frame _ _).lsw_eq (by decide)), openingLate, lsOf_updLs_self]
    rfl
  simp only [openCheck, hopen, hfirst, Bool.false_eq_true, if_false, afterTicks_of_le hdue]
  exact stuckSupply_of_none (hsupply.trans_eq (congrArg (fun x => x.supply.toNat) hls).symm)

end

/-! ### The welding test (R272) -/

section
variable {n : Fin 16} {b : Block} (hidle : vget b.safX.weldTests n = none)
include hidle

theorem weldTestStart_of_module {k : Fin 96} (hweld : (nodeOf b n).weldDue = true)
    (hdue : (nodeOf b n).lastOpen.toNat + b.safX.tDrop.toNat * 15000000 ≤ (now b).toNat) (hk : weldModule b n = some k) :
    weldTestStart n b = weldBegin n { module := k } b := by
  simp only [weldTestStart, hidle, hweld, if_true, afterTicks_of_le hdue, hk]

theorem weldTestStart_of_no_module (hweld : (nodeOf b n).weldDue = true)
    (hdue : (nodeOf b n).lastOpen.toNat + b.safX.tDrop.toNat * 15000000 ≤ (now b).toNat) (hnone : weldModule b n = none) :
    weldTestStart n b = weldUntested n b := by
  simp only [weldTestStart, hidle, hweld, if_true, afterTicks_of_le hdue, hnone]

theorem weldTestStart_of_not_due (hweld : (nodeOf b n).weldDue = false) : weldTestStart n b = b := by
  simp only [weldTestStart, hidle, hweld, Bool.false_eq_true, if_false]

end

section
variable {n : Fin 16} {b : Block} {w : WeldTest} (hw : vget b.safX.weldTests n = some w) (hjoined : w.joining = false)
  (hdue : w.start.toNat + 30000000 ≤ (now b).toNat)
include hw hjoined hdue

theorem weldTestCompare_of_pass (h : weldSees b n w.module = .pass) : weldTestCompare n b = weldEnd n w false b := by
  simp only [weldTestCompare, hw, hjoined, Bool.false_eq_true, if_false, afterTicks_of_le hdue, h]

theorem weldTestCompare_of_welded (h : weldSees b n w.module = .welded) : weldTestCompare n b = weldEnd n w true b := by
  simp only [weldTestCompare, hw, hjoined, Bool.false_eq_true, if_false, afterTicks_of_le hdue, h]

theorem weldTestCompare_of_unclear (h : weldSees b n w.module = .unclear) :
    weldTestCompare n b =
      if w.second then weldEnd n w true b else weldBegin n { w with second := true } (updNode n (fun x => { x with weld := 3 }) b) := by
  simp only [weldTestCompare, hw, hjoined, Bool.false_eq_true, if_false, afterTicks_of_le hdue, h]

end

/-! ### RECOVERY_WINDOW_EXPIRED (R281, R282) -/

/-- Window `w` is closed. -/
def windowClosed (w : Containment) (b : Block) : Block := updSaf (fun x => { x with windows := x.windows.erase w }) b

/-- Whether a scope is safe is read from the pairs and the modules: no window counts. -/
theorem scopeSafe_windowClosed (w : Containment) (b : Block) (s : CScope) : scopeSafe (windowClosed w b) s = scopeSafe b s := by
  cases s <;> rfl

section
variable {w : Containment} {b : Block} (hfirst : firstWindow b = some w) (hdue : w.until_.toNat ≤ (now b).toNat)
include hfirst hdue

theorem windowExpired_of_due :
    windowExpired b = if b.saf.level.toNat < 3 ∧ !scopeSafe b w.scope then escalate w (windowClosed w b) else endEpisode (windowClosed w b) := by
  rw [← scopeSafe_windowClosed w b w.scope]
  simp only [windowExpired, hfirst, atInstant_of_le hdue]
  rfl

theorem windowExpired_of_safe (hsafe : b.saf.level = 3 ∨ scopeSafe b w.scope = true) :
    windowExpired b = endEpisode (windowClosed w b) := by
  rw [windowExpired_of_due hfirst hdue]
  refine if_neg fun ⟨hlevel, hunsafe⟩ => ?_
  rcases hsafe with h | h
  · rw [h] at hlevel
    exact absurd hlevel (by decide)
  · rw [h] at hunsafe
    exact absurd hunsafe (by decide)

theorem windowExpired_of_unsafe (hlevel : b.saf.level.toNat < 3) (hunsafe : scopeSafe b w.scope = false) :
    windowExpired b = escalate w (windowClosed w b) := by
  rw [windowExpired_of_due hfirst hdue, if_pos ⟨hlevel, by rw [hunsafe]; rfl⟩]

end

theorem windowExpired_of_none {b : Block} (h : firstWindow b = none) : windowExpired b = b := by
  simp only [windowExpired, h]

end Machine

/-- Settles O39: each event is due, so its effect is that of its clause; a closed window leaves what says whether a scope is safe. -/
theorem contactorInstants : Obligations.ContactorInstants := by
  refine ⟨fun s n hnone => ?_, fun s n i hramped hdue => ?_, fun s n i hclose hdue => ?_, fun s n hnone => ?_,
    fun s n i hopen hlate hdue => ?_, fun s n i hopen hfirst hdue hsupply => ?_, fun s n hidle hweld hdue hnone => ?_,
    fun s n k hidle hweld hdue hk => ?_, fun s n hidle hweld => ?_, fun s n w hw hjoined hdue hsees => ?_,
    fun s n w hw hjoined hdue hsees => ?_, fun s n w hw hjoined hdue hsees => ?_, fun s w hfirst hdue hsafe => ?_,
    fun s w hfirst hdue hlevel hunsafe => ?_, fun s hnone => ?_⟩
  -- RAMPED_STOP_TIMEOUT
  · refine ⟨s.after (rampedStop n), rfl, execRampedStopTimeout_frame n rfl, ?_⟩
    rw [State.after_saf, State.after_sess, rampedStop_of_none hnone]
    exact ⟨rfl, rfl⟩
  · exact ⟨s.after (rampedStop n), rfl, execRampedStopTimeout_frame n rfl, State.after_block (rampedStop_of_due hramped hdue)⟩
  -- CONTACTOR_CLOSE_TIMEOUT
  · exact ⟨s.after (closeTimeout n), rfl, execContactorCloseTimeout_frame n rfl, State.after_block (closeTimeout_of_due hclose hdue)⟩
  · refine ⟨s.after (closeTimeout n), rfl, execContactorCloseTimeout_frame n rfl, ?_⟩
    rw [State.after_saf, State.after_hic, closeTimeout_of_none hnone]
    exact ⟨rfl, rfl⟩
  -- CONTACTOR_OPEN_CHECK
  · exact ⟨s.after (openCheck n), rfl, execContactorOpenCheck_frame n rfl, State.after_block (openCheck_of_late hopen hlate hdue)⟩
  · have heff := openCheck_of_unsupplied hopen hfirst hdue hsupply
    refine ⟨s.after (openCheck n), rfl, execContactorOpenCheck_frame n rfl, ?_⟩
    simp only [Raised, nodeOf_after, lsOf_after, State.after_hic, State.after_sess, heff, nodeOf_congr (irq_saf _ _),
      lsOf_congr ((irq_frame _ _).lsw_eq (by decide)), (irq_frame _ _).sess_eq (by decide)]
    have hls : lsOf (openingLate n s.block) n = { lsOf s.block n with stuck := true, decaySlow := true } := lsOf_updLs_self n _ _
    have hnode : nodeOf (openingLate n s.block) n = { nodeOf s.block n with openLate := true } := nodeOf_updNode_self n _ _
    rw [hls, hnode]
    exact ⟨rfl, rfl, rfl, irq_pends (n := 301) (by decide) _,
      (Hic.KeepsPending.refl _).irq 301 _ (irq_pends (n := 329) (by decide) _), rfl⟩
  -- WELD_TEST_START
  · exact ⟨s.after (weldTestStart n), rfl, execWeldTestStart_frame n rfl,
      State.after_block (weldTestStart_of_no_module hidle hweld hdue hnone)⟩
  · exact ⟨s.after (weldTestStart n), rfl, execWeldTestStart_frame n rfl, State.after_block (weldTestStart_of_module hidle hweld hdue hk)⟩
  · refine ⟨s.after (weldTestStart n), rfl, execWeldTestStart_frame n rfl, ?_⟩
    rw [State.after_saf, State.after_safX, State.after_mlk, weldTestStart_of_not_due hidle hweld]
    exact ⟨rfl, rfl, rfl⟩
  -- WELD_TEST_COMPARE
  · exact ⟨s.after (weldTestCompare n), rfl, execWeldTestCompare_frame n rfl,
      State.after_block (weldTestCompare_of_pass hw hjoined hdue hsees)⟩
  · exact ⟨s.after (weldTestCompare n), rfl, execWeldTestCompare_frame n rfl,
      State.after_block (weldTestCompare_of_welded hw hjoined hdue hsees)⟩
  · exact ⟨s.after (weldTestCompare n), rfl, execWeldTestCompare_frame n rfl,
      State.after_block (weldTestCompare_of_unclear hw hjoined hdue hsees)⟩
  -- RECOVERY_WINDOW_EXPIRED
  · exact ⟨s.after windowExpired, rfl, execRecoveryWindowExpired_frame rfl, State.after_block (windowExpired_of_safe hfirst hdue hsafe)⟩
  · exact ⟨s.after windowExpired, rfl, execRecoveryWindowExpired_frame rfl,
      State.after_block (windowExpired_of_unsafe hfirst hdue hlevel hunsafe)⟩
  · refine ⟨s.after windowExpired, rfl, execRecoveryWindowExpired_frame rfl, ?_⟩
    rw [State.after_saf, State.after_sess, windowExpired_of_none hnone]
    exact ⟨rfl, rfl⟩

end Sys2Proof
end

section
/-! PROOFS. SAF_WELD_TEST of a node under a lock-out whose session is still in STOPPING (R272, R278, R287). -/

namespace Sys2Proof

open Machine

namespace Machine

/-- A session in STOPPING has its own welding test ahead: SAF_WELD_TEST of its node answers 0x0907 (R287). -/
theorem safWeldTest_of_stopping {m : Fin 4} {b : Block} (hnode : (nodeCheck 0x0901 b m).2 = true)
    (hstop : (sessOf b (reqNode b m)).phase = .stopping) : safWeldTest m b = refuse m 0x0907 b := by
  unfold safWeldTest
  extract_lets n p here other
  have hp : p = .stopping := hstop
  rw [checked_cons_pass hnode, checked_cons_fail (by simp [hp])]

/-- A device that executes SAF_WELD_TEST of node 3 in mailbox 0. Module 5, available, is assigned to the node. A node lock-out covers it and
its session is in STOPPING: the connector shows FAULTED. -/
def weldUnderLockout : State := { State.reset with block := { State.reset.block with
  tide := { State.reset.block.tide with now := 3000000000, running := true, ready := true }
  rst := { State.reset.block.rst with dyke := true }
  saf := { State.reset.block.saf with hubPermit := true, nodes := vupd State.reset.block.saf.nodes 3 fun x => { x with lockout := true } }
  sess := vupd State.reset.block.sess 3 fun x => { x with phase := .stopping }
  slu := { State.reset.block.slu with modules := vupd State.reset.block.slu.modules 5 fun x => { x with node := some 3 } }
  mlk := { State.reset.block.mlk with modules := vupd State.reset.block.mlk.modules 5 fun x =>
    { x with everOk := true, stamp := 3000000000, record := [0, 0, 0, 0, 0, 9, 0, 0] } }
  mbx := vset State.reset.block.mbx 0 { mbxOf State.reset.block 0 with
    state := .busy, req := Memory.ofBytes (leBytes 2 0x0904 ++ [7, 0] ++ leBytes 2 1 ++ [0, 0] ++ [3]) } } }

theorem asked_weldUnderLockout : Asked weldUnderLockout 0 0x0904 .dyke := by decide

theorem weldModule_weldUnderLockout : weldModule weldUnderLockout.block (reqNode weldUnderLockout.block 0) = some 5 := by decide

/-- Beginning a test answers no request. -/
theorem weldBegin_mbx (n : Fin 16) (w : WeldTest) (b : Block) : (weldBegin n w b).mbx = b.mbx := (weldBegin_frame n w b).mbx_eq (by decide)

end Machine

/-- Refutes O40 in its clause on SAF_WELD_TEST of a node with a module: the clause asks that the connector shows neither an open phase nor
STOPPING, and a lock-out makes it show FAULTED over whatever phase the session is in (R278). The command reads the session's own phase, since
no session may be past ADMISSION (R287): in `weldUnderLockout` it answers 0x0907 at once, where the clause has the test begin and its answer
wait. -/
theorem not_safetyCommands : ¬ Obligations.SafetyCommands := by
  unfold Obligations.SafetyCommands
  rintro ⟨-, -, -, -, -, -, -, hweld, -⟩
  obtain ⟨t, hx, -, hbegun⟩ := hweld weldUnderLockout 0 5 asked_weldUnderLockout (by decide) (by decide) (by decide) (by decide) (by decide)
    (by decide) weldModule_weldUnderLockout
  have ht : weldUnderLockout.after (command 0 0x0904 .dyke (safWeldTest 0)) = t := Host.Outcome.next.inj hx
  have hrefused : command 0 0x0904 .dyke (safWeldTest 0) weldUnderLockout.block = refuse 0 0x0907 weldUnderLockout.block :=
    (command_of_asked asked_weldUnderLockout _).trans (safWeldTest_of_stopping (by decide) (by decide))
  have hanswered : (mbxOf t.block 0).answered = true := ht ▸ (answered_of_refuse hrefused).1
  have hwaits : (mbxOf t.block 0).answered = (mbxOf weldUnderLockout.block 0).answered := by
    rw [hbegun, mbxOf, (safetyItem_frame _ _).mbx_eq (by decide), weldBegin_mbx, mbxOf]
  rw [hwaits] at hanswered
  exact absurd hanswered (by decide)

end Sys2Proof
end

section
/-! PROOFS. High-side channels read through an update, a frame or a drive, and what the drive of an output leaves of the switches (R290,
R296, R297, R301). -/

namespace Sys2Proof

open Machine

theorem Block.Only.backup_eq {l : List Part} {b c : Block} (h : Block.Only l b c) (hp : Part.backup ∉ l) : c.backup = b.backup :=
  h .backup hp

@[simp] theorem vget_vgen {α : Type} {n : Nat} (f : Fin n → α) (i : Fin n) : vget (vgen n f) i = f i := by
  simp [vget, vgen]

namespace Machine

/-! ### Channels -/

@[simp] theorem State.after_backup (s : State) (f : Block → Block) : (s.after f).block.backup = (f s.block).backup :=
  (safetyItem_frame _ _).backup_eq (by decide)

@[simp] theorem irq_lsw (n : Nat) (b : Block) : (irq n b).lsw = b.lsw := (irq_frame n b).lsw_eq (by decide)

theorem hsOf_congr {b c : Block} (h : c.lsw = b.lsw) (d : Fin 40) : hsOf c d = hsOf b d := by rw [hsOf, h, hsOf]

@[simp] theorem hsOf_after (s : State) (f : Block → Block) (c : Fin 40) : hsOf (s.after f).block c = hsOf (f s.block) c :=
  hsOf_congr (s.after_lsw f) c

@[simp] theorem hsOf_updHs_self (c : Fin 40) (f : HsChan → HsChan) (b : Block) : hsOf (updHs c f b) c = f (hsOf b c) := vget_vupd_self _ _ _

theorem hsOf_updHs_ne {c d : Fin 40} (h : d ≠ c) (f : HsChan → HsChan) (b : Block) : hsOf (updHs c f b) d = hsOf b d := vget_vupd_ne _ _ h

theorem lsOf_updLs_ne {n k : Fin 16} (h : k ≠ n) (f : LsChan → LsChan) (b : Block) : lsOf (updLs n f b) k = lsOf b k := vget_vupd_ne _ _ h

theorem lsOf_updNode (n k : Fin 16) (f : SafNode → SafNode) (b : Block) : lsOf (updNode k f b) n = lsOf b n := rfl

/-! ### What the drive of an output leaves (R290, R301) -/

/-- A channel less what the drive of its output writes. -/
def HsChan.undriven (x : HsChan) : HsChan := { x with outOn := false, onAt := 0, limit := false }

/-- The switches less what the drive of the outputs writes, which may start coils. -/
def Switches.undriven (w : Switches) : Switches := { w with hs := vmap w.hs HsChan.undriven, ls := Vector.replicate 16 {} }

/-- The switches of a block, so read. -/
def undriven (b : Block) : Switches := b.lsw.undriven

theorem vget_undriven_hs (b : Block) (c : Fin 40) : vget (undriven b).hs c = (hsOf b c).undriven := vget_vmap _ _ _

/-- A field of the switches that the drive leaves is read through it. -/
theorem field_of_undriven {γ : Type} (q : Switches → γ) (hq : ∀ w, q w.undriven = q w) {b c : Block} (h : undriven c = undriven b) :
    q c.lsw = q b.lsw := by
  rw [← hq, ← hq b.lsw]
  exact congrArg q h

/-- A field of a channel that the drive leaves is read through it. -/
theorem hsOf_field_of_undriven {γ : Type} (q : HsChan → γ) (hq : ∀ x, q x.undriven = q x) {b c : Block} (h : undriven c = undriven b)
    (d : Fin 40) : q (hsOf c d) = q (hsOf b d) := by
  rw [← hq, ← hq (hsOf b d), ← vget_undriven_hs, ← vget_undriven_hs, h]

theorem undriven_of_lsw {b c : Block} (h : c.lsw = b.lsw) : undriven c = undriven b := by rw [undriven, h, undriven]

theorem undriven_updHs (c : Fin 40) (f : HsChan → HsChan) (b : Block) (hf : ∀ x, (f x).undriven = x.undriven) :
    undriven (updHs c f b) = undriven b := by
  simp only [undriven, Switches.undriven, updHs_lsw, vmap_vupd _ _ _ _ hf]

section
variable (b : Block)

theorem irq_undriven (n : Nat) : undriven (irq n b) = undriven b := undriven_of_lsw (irq_lsw n b)

theorem updLs_undriven (n : Fin 16) (f : LsChan → LsChan) : undriven (updLs n f b) = undriven b := rfl

theorem coilStart_undriven (n : Fin 16) : undriven (coilStart n b) = undriven b := by
  unfold coilStart
  extract_lets x s supply head
  split
  · exact (onlyIf_keeps (q := undriven) (fun c => irq_undriven c 328) _ _).trans rfl
  · rfl

theorem driveHs_undriven (c : Fin 40) : undriven (driveHs c b) = undriven b := by
  unfold driveHs
  extract_lets on d
  have hd : undriven d = undriven b := undriven_updHs c _ b fun _ => rfl
  split
  · rfl
  split
  · exact (forAll_keeps (q := undriven) (fun n e => (coilStart_undriven _ n).trans (updLs_undriven e n _)) _ d).trans hd
  · exact hd

theorem driveAll_undriven : undriven (driveAll b) = undriven b := forAll_keeps (q := undriven) (fun c d => driveHs_undriven d c) _ b

end

section
variable {h : Hic} {b : Block} (hb : h.KeepsPending b.hic)
include hb

theorem Hic.KeepsPending.driveHs (c : Fin 40) : h.KeepsPending (driveHs c b).hic := by
  unfold Machine.driveHs
  extract_lets on d
  have hd : h.KeepsPending d.hic := hb
  split
  · exact hb
  split
  · refine hd.forAll (fun n e he => ?_) _
    exact Hic.KeepsPending.coilStart (b := updLs n _ e) he n
  · exact hd

theorem Hic.KeepsPending.driveAll : h.KeepsPending (driveAll b).hic := hb.forAll (fun c _ hd => hd.driveHs c) _

end

/-- A source raised before the outputs follow is pending after. -/
theorem raised_driveAll {n : Fin 512} {b : Block} (h : Raised b n) : Raised (driveAll b) n := (Hic.KeepsPending.refl b.hic).driveAll n h

end Machine

end Sys2Proof
end

section
/-! PROOFS. The instants of the switches: measurements, over-temperature and restarts, the supply, the coils, the package current, the
limp-home inputs and the changeover of the backup domain (R289, R290, R296, R301, R304, R305, R565). -/

namespace Sys2Proof

open Machine

theorem testBit_bitsNat (l : List Bool) (k : Nat) : (bitsNat l).testBit k = l.getD k false := by
  induction l generalizing k with
  | nil => simp [bitsNat]
  | cons x l ih =>
    have hbit : bitsNat (x :: l) = Nat.bit x (bitsNat l) := by cases x <;> simp [bitsNat, b2n, Nat.bit]; omega
    cases k with
    | zero => rw [hbit, Nat.testBit_bit_zero]; rfl
    | succ k => rw [hbit, Nat.testBit_bit_succ, ih]; rfl

namespace Machine

/-! ### Over-temperature and restarts (R296, R297, R303) -/

/-- Failing an ON of the same tick puts back the command of the channel and the tick of its last ON. -/
theorem hsOf_failOn (c : Fin 40) (b : Block) : ∃ on fired, hsOf (failOn c b) c = { hsOf b c with cmdOn := on, firedAt := fired } := by
  unfold failOn
  split
  · exact ⟨_, _, hsOf_updHs_self c _ _⟩
  · exact ⟨_, _, rfl⟩

theorem failOn_tripCnt (c : Fin 40) (b : Block) : (failOn c b).lsw.tripCnt = b.lsw.tripCnt := by
  unfold failOn
  split <;> rfl

section
variable (c : Fin 40) (src : Nat) (f : HsChan → HsChan) (b : Block)

theorem protectHs_hs : ∃ on fired, (hsOf (protectHs c src f b) c).undriven =
    { f { hsOf b c with cmdOn := on, firedAt := fired } with lastAct := now b }.undriven := by
  obtain ⟨on, fired, hfail⟩ := hsOf_failOn c b
  refine ⟨on, fired, ?_⟩
  rw [← vget_undriven_hs, protectHs, driveHs_undriven, irq_undriven, vget_undriven_hs, hsOf_updHs_self, ← hfail]
  rfl

theorem protectHs_tripCnt : (protectHs c src f b).lsw.tripCnt = satInc b.lsw.tripCnt := by
  have hkeep := (driveHs_undriven _ c).trans (irq_undriven (updHs c (fun x => { f x with lastAct := now b })
    (updLsw (fun w => { w with tripCnt := satInc w.tripCnt }) (failOn c b))) src)
  rw [protectHs, field_of_undriven Switches.tripCnt (fun _ => rfl) hkeep, ← failOn_tripCnt c b]
  rfl

theorem protectHs_raises (h : 1 ≤ src ∧ src ≤ 510) : Raised (protectHs c src f b) ⟨src, by omega⟩ :=
  (Hic.KeepsPending.refl _).driveHs c _ (irq_pends h _)

end

theorem switchOvertemp_of_cool {c : Fin 40} {b : Block} (h : (hsOf b c).ot = false) :
    switchOvertemp (.hs c) b = protectHs c 321 (fun x => { x with ot := true, otLatched := x.otLatched || x.otLatchEn }) b := by
  simp [switchOvertemp, h]

theorem switchOvertemp_of_hot {c : Fin 40} {b : Block} (h : (hsOf b c).ot = true) : switchOvertemp (.hs c) b = b := if_pos h

theorem switchOvertemp_of_unlatched {n : Fin 16} {b : Block} (h : (lsOf b n).otLatch = false) :
    switchOvertemp (.ls n) b = lsProtect n (fun x => { x with otLatch := true }) (irq 321 b) := by
  simp [switchOvertemp, h]

theorem switchOvertemp_of_latched {n : Fin 16} {b : Block} (h : (lsOf b n).otLatch = true) : switchOvertemp (.ls n) b = b := if_pos h

/-- The thermal restarts of channel `c` in the last 10 s. -/
def recentRestarts (b : Block) (c : Fin 40) : List U64 := (hsOf b c).restarts.filter fun i => !passed b i (10 * tSec)

theorem thermalRestart_of_cool {c : Fin 40} {b : Block} (h : (hsOf b c).ot = false) : thermalRestart c b = b := by
  simp [thermalRestart, h]

section
variable {c : Fin 40} {b : Block} (hot : (hsOf b c).ot = true)
include hot

theorem thermalRestart_of_latched (hlatched : (hsOf b c).otLatched = true) :
    thermalRestart c b = updHs c (fun x => { x with ot := false }) b := by
  simp [thermalRestart, hot, hlatched]

theorem thermalRestart_of_few (hfree : (hsOf b c).otLatched = false) (hfew : (recentRestarts b c).length < 8) :
    thermalRestart c b = updHs c (fun x => { x with
      restarts := if x.outOn then now b :: recentRestarts b c else recentRestarts b c })
      (driveHs c (updHs c (fun x => { x with ot := false }) b)) := by
  unfold thermalRestart
  extract_lets x r b1
  rw [if_neg (by simp [x, hot]), if_neg (by simp [x, hfree]), if_neg (show ¬ 8 ≤ r.length from Nat.not_le.mpr hfew)]
  rfl

theorem thermalRestart_of_many (hfree : (hsOf b c).otLatched = false) (hmany : 8 ≤ (recentRestarts b c).length) :
    thermalRestart c b = updHs c (fun x => { x with ot := false, otLatched := true, restarts := recentRestarts b c }) b := by
  unfold thermalRestart
  extract_lets x r b1
  rw [if_neg (by simp [x, hot]), if_neg (by simp [x, hfree]), if_pos (show 8 ≤ r.length from hmany)]
  rfl

end

/-! ### The supply (R290) -/

/-- VIN_SYS reads `v`, and its range is found to be `okay`. -/
def vinNoted (okay : Bool) (v : U16) (b : Block) : Block :=
  updLsw (fun w => { w with vinOk := okay }) (updLsw (fun w => { w with vin := v }) b)

/-- Source 332 tells of it, and every output follows. -/
def vinTaken (okay : Bool) (v : U16) (b : Block) : Block := driveAll (irq 332 (vinNoted okay v b))

theorem vinTaken_undriven (okay : Bool) (v : U16) (b : Block) : undriven (vinTaken okay v b) = undriven (vinNoted okay v b) := by
  rw [vinTaken, driveAll_undriven, irq_undriven]

theorem vinTaken_raises (okay : Bool) (v : U16) (b : Block) : Raised (vinTaken okay v b) 332 := by
  rw [vinTaken]
  exact raised_driveAll (irq_pends (n := 332) (by decide) _)

/-- No coil conducts while VIN_SYS is out of range. -/
def coilsOff (b : Block) : Block := forAll allNodes (fun n => updLs n fun x => { x with conducting := false }) b

/-- The coils in their pull phase conduct again, and those that wait for VIN_SYS start. -/
def coilsOn (b : Block) : Block :=
  forAll allNodes (fun n b => coilStart n (updLs n (fun x => { x with conducting := x.conducting || x.econ == 1 }) b)) b

theorem coilsOff_undriven (b : Block) : undriven (coilsOff b) = undriven b :=
  forAll_keeps (q := undriven) (fun n c => updLs_undriven c n _) _ b

theorem coilsOn_undriven (b : Block) : undriven (coilsOn b) = undriven b :=
  forAll_keeps (q := undriven) (fun n c => (coilStart_undriven _ n).trans (updLs_undriven c n _)) _ b

theorem raised_coilsOff {n : Fin 512} {b : Block} (h : Raised b n) : Raised (coilsOff b) n := by
  rw [coilsOff]
  refine (Hic.KeepsPending.refl b.hic).forAll (fun k c hc => ?_) _ n h
  exact hc

theorem raised_coilsOn {n : Fin 512} {b : Block} (h : Raised b n) : Raised (coilsOn b) n := by
  rw [coilsOn]
  exact (Hic.KeepsPending.refl b.hic).forAll (fun k c hc => Hic.KeepsPending.coilStart (b := updLs k _ c) hc k) _ n h

theorem vinRange_of_lost {v : U16} {b : Block} (hout : v.toNat < 800 ∨ 3800 < v.toNat) (hok : b.lsw.vinOk = true) :
    vinRange v b = coilsOff (vinTaken false v b) := by
  simp only [vinRange, if_pos hout, hok, Bool.false_eq_true, if_false]
  rfl

theorem vinRange_of_back {v : U16} {b : Block} (hlo : 850 ≤ v.toNat) (hhi : v.toNat ≤ 3750) (hout : b.lsw.vinOk = false) :
    vinRange v b = coilsOn (vinTaken true v b) := by
  have hin : ¬ (v.toNat < 800 ∨ 3800 < v.toNat) := by omega
  simp only [vinRange, if_neg hin, if_pos (And.intro hlo hhi), hout, Bool.true_eq_false, if_false, if_true]
  rfl

theorem vinRange_of_same {v : U16} {b : Block}
    (hsame : (800 ≤ v.toNat ∧ v.toNat < 850) ∨ (3750 < v.toNat ∧ v.toNat ≤ 3800) ∨
      (850 ≤ v.toNat ∧ v.toNat ≤ 3750 ∧ b.lsw.vinOk = true) ∨ ((v.toNat < 800 ∨ 3800 < v.toNat) ∧ b.lsw.vinOk = false)) :
    vinRange v b = updLsw (fun w => { w with vin := v }) b := by
  unfold vinRange
  extract_lets t b1 okay
  refine if_pos ?_
  by_cases hout : v.toNat < 800 ∨ 3800 < v.toNat
  · have hlost : b.lsw.vinOk = false :=
      (((hsame.resolve_left fun h => by omega).resolve_left fun h => by omega).resolve_left fun ⟨h, h', _⟩ => by omega).2
    exact (if_pos hout).trans hlost.symm
  refine (if_neg hout).trans ?_
  by_cases hin : 850 ≤ v.toNat ∧ v.toNat ≤ 3750
  · have hok : b.lsw.vinOk = true :=
      (((hsame.resolve_left fun h => by omega).resolve_left fun h => by omega).resolve_right fun h => hout h.1).2.2
    exact (if_pos hin).trans hok.symm
  · exact if_neg hin

/-! ### The coils (R301) -/

theorem lsOf_coilStart_ne {n k : Fin 16} (h : n ≠ k) (b : Block) : lsOf (coilStart k b) n = lsOf b n := by
  unfold coilStart
  extract_lets x s supply head
  split
  · refine (onlyIf_keeps (q := (lsOf · n)) (fun c => lsOf_congr (irq_lsw 328 c) n) _ _).trans ?_
    exact (lsOf_updNode n k _ _).trans (lsOf_updLs_ne h _ b)
  · rfl

/-- The end of a pull phase starts only other coils. -/
theorem lsOf_coilRelease_self (n : Fin 16) (b : Block) : lsOf (coilRelease n b) n = lsOf b n := by
  refine forAll_keeps (q := (lsOf · n)) (fun k c => ?_) _ b
  split
  · rfl
  · next hk =>
    have hne : n ≠ k := fun h => hk (.inl h.symm)
    rw [lsOf_coilStart_ne hne, lsOf_updLs_ne hne]

theorem coilPullEnd_of_due {n : Fin 16} {b : Block} (hpull : (lsOf b n).econ = 1)
    (hdue : (lsOf b n).turnOn.toNat + (lsOf b n).tPull.toNat * tMs ≤ (now b).toNat) :
    coilPullEnd n b = coilRelease n (updLs n (fun x => { x with
      econ := 2, conducting := false, holdAt := now b, fullRun := 0, learnV := 0, learnI := 0 }) b) := by
  simp only [coilPullEnd, hpull, if_true, afterTicks_of_le hdue]

theorem coilPullEnd_of_other {n : Fin 16} {b : Block} (h : (lsOf b n).econ ≠ 1) : coilPullEnd n b = b := if_neg h

theorem coilLearn_of_due {n : Fin 16} {x : SwitchReading} {b : Block} (hhold : (lsOf b n).econ = 2) (hnew : (lsOf b n).learned = false)
    (hdue : (lsOf b n).holdAt.toNat + 200 * tMs ≤ (now b).toNat) :
    coilLearn n x b = updLs n (fun l => learnRCoil (lastSample (inRange x) b l)) b := by
  simp only [coilLearn, hhold, hnew, Bool.not_false, and_self, if_true, afterTicks_of_le hdue]

theorem coilLearn_of_other {n : Fin 16} {x : SwitchReading} {b : Block} (h : (lsOf b n).econ ≠ 2 ∨ (lsOf b n).learned = true) :
    coilLearn n x b = b := by
  refine if_neg fun ⟨hhold, hnew⟩ => ?_
  simp [hhold] at h
  simp [h] at hnew

/-! ### The package current (R304) -/

/-- The switches with a package current of sum `x` and mean `y` noted at instant `t`. -/
def Switches.withPackage (x y : Nat) (t : U64) (w : Switches) : Switches :=
  { w with
    sum := satNat 16 x, mean := satNat 16 y, window := (x :: w.window).take 1000, pkgWarn := decide (11000 < y)
    shedding := decide (12000 < y), shedRun := if 12000 < y then true else if y < 11000 then false else w.shedRun, pkgAt := some t }

/-- The check with sum `x` and mean `y`, less the shedding: the warning raised when it is new. -/
def packageNoted (x y : Nat) (b : Block) : Block :=
  onlyIf (decide (11000 < y) && !b.lsw.pkgWarn) (irq 327) (updLsw (Switches.withPackage x y (now b)) b)

theorem packageNoted_lsw (x y : Nat) (b : Block) : (packageNoted x y b).lsw = b.lsw.withPackage x y (now b) :=
  onlyIf_keeps (q := Block.lsw) (fun c => irq_lsw 327 c) _ _

theorem packageNoted_raises {x y : Nat} {b : Block} (hover : 11000 < y) (hnew : b.lsw.pkgWarn = false) : Raised (packageNoted x y b) 327 := by
  simp only [packageNoted, hover, hnew, decide_true, Bool.not_false, Bool.and_self]
  exact irq_pends (n := 327) (by decide) _

theorem packageCheck_eq {x y : Nat} {b : Block} (hx : x = (b.lsw.hs.toList.map (·.current.toNat)).sum)
    (hy : y = ((x :: b.lsw.window).take 1000).sum / 1000) :
    packageCheck b = onlyIf ((packageNoted x y b).lsw.shedRun && mayRaise (packageNoted x y b) (packageNoted x y b).lsw.lastShed (100 * tMs))
      shedOne (packageNoted x y b) := by
  unfold packageCheck
  extract_lets sum win mean warn run raise c
  have hmean : mean = y := by rw [hy, hx]
  have hc : c = packageNoted x y b := by
    rw [packageNoted, ← hmean, hx]
    rfl
  have hrun : run = (packageNoted x y b).lsw.shedRun := by
    rw [packageNoted_lsw, ← hmean]
    rfl
  rw [hc, hrun]

/-- Nothing is shed below 11.0 A. -/
theorem packageCheck_of_low {x y : Nat} {b : Block} (hx : x = (b.lsw.hs.toList.map (·.current.toNat)).sum)
    (hy : y = ((x :: b.lsw.window).take 1000).sum / 1000) (hlow : y < 11000) : packageCheck b = packageNoted x y b := by
  have hrest : ¬ 12000 < y := by omega
  have hrun : (packageNoted x y b).lsw.shedRun = false := by
    rw [packageNoted_lsw]
    exact (if_neg hrest).trans (if_pos hlow)
  rw [packageCheck_eq hx hy, hrun]
  rfl

/-- The effect of PACKAGE_CURRENT_CHECK: the check when its millisecond has come. -/
def packageAtInstant (b : Block) : Block := atInstant (nextMultiple tMs b.lsw.pkgAt b) packageCheck b

theorem packageAtInstant_of_due {b : Block} (h : nextMultiple tMs b.lsw.pkgAt b = (now b).toNat) : packageAtInstant b = packageCheck b :=
  atInstant_nextMultiple h packageCheck

/-- The switches less what shedding writes: the channels, the coils and the shedding's own count and stamp. -/
def Switches.unshed (w : Switches) : Switches := { w.undriven with hs := Vector.replicate 40 {}, shedCnt := 0, lastShed := none }

theorem unshed_of_undriven {b c : Block} (h : undriven c = undriven b) : c.lsw.unshed = b.lsw.unshed := by
  have hw : c.lsw.undriven = b.lsw.undriven := h
  rw [Switches.unshed, hw, Switches.unshed]

theorem shedOne_unshed (b : Block) : (shedOne b).lsw.unshed = b.lsw.unshed := by
  unfold shedOne
  split
  · rfl
  · rw [unshed_of_undriven (driveHs_undriven _ _), irq_lsw]
    rfl

/-- A figure of the package current is what the check noted: shedding leaves it. -/
theorem field_of_packageCheck {γ : Type} (q : Switches → γ) (hq : ∀ w, q w.unshed = q w) {x y : Nat} {b : Block}
    (hx : x = (b.lsw.hs.toList.map (·.current.toNat)).sum) (hy : y = ((x :: b.lsw.window).take 1000).sum / 1000) :
    q (packageCheck b).lsw = q (b.lsw.withPackage x y (now b)) := by
  rw [← packageNoted_lsw, packageCheck_eq hx hy, ← hq, ← hq (packageNoted x y b).lsw]
  exact congrArg q (onlyIf_keeps (q := fun c => c.lsw.unshed) shedOne_unshed _ _)

theorem Hic.KeepsPending.shedOne {h : Hic} {b : Block} (hb : h.KeepsPending b.hic) : h.KeepsPending (shedOne b).hic := by
  unfold Machine.shedOne
  split
  · exact hb
  · refine Hic.KeepsPending.driveHs (Hic.KeepsPending.irq ?_ 326) _
    exact hb

/-! ### Limp-home and the backup domain (R305, R565) -/

theorem limpInputSet_inputs (j : Fin 8) (on : Bool) (b : Block) (k : Fin 8) :
    (limpInputSet j on b).lsw.limpInputs.getLsbD k.val = if k = j then on else b.lsw.limpInputs.getLsbD k.val := by
  rw [limpInputSet, field_of_undriven Switches.limpInputs (fun _ => rfl) (driveAll_undriven _), updLsw_lsw]
  rw [BitVec.getLsbD_ofNat, testBit_bitsNat, List.getD_eq_getElem _ _ (by simp)]
  simp [Fin.ext_iff]

section
variable (b : Block)

/-- No map is in force, and no channel is under limp-home control. -/
def limpCleared (b : Block) : Block :=
  updLsw (fun w => { w with
    limpMap := Vector.replicate 40 0, limpValid := false, limpCrc := 0, hs := vmap w.hs fun x => { x with limp := false } }) b

theorem limpMapLost_undriven : undriven (limpMapLost b) = undriven (limpCleared b) := by
  rw [limpMapLost, driveAll_undriven, irq_undriven, limpCleared]

theorem limpMapLost_limpValid : (limpMapLost b).lsw.limpValid = false :=
  field_of_undriven Switches.limpValid (fun _ => rfl) (limpMapLost_undriven b)

theorem limpMapLost_limpMap : (limpMapLost b).lsw.limpMap = Vector.replicate 40 0 :=
  field_of_undriven Switches.limpMap (fun _ => rfl) (limpMapLost_undriven b)

theorem limpMapLost_limp (c : Fin 40) : (hsOf (limpMapLost b) c).limp = false := by
  rw [hsOf_field_of_undriven HsChan.limp (fun _ => rfl) (limpMapLost_undriven b)]
  exact congrArg HsChan.limp (vget_vmap _ _ _)

theorem limpMapLost_raises : Raised (limpMapLost b) 331 := by
  rw [limpMapLost]
  exact raised_driveAll (irq_pends (n := 331) (by decide) _)

theorem limpMapLost_backup : (limpMapLost b).backup = b.backup := (limpMapLost_frame b).backup_eq (by decide)

end

theorem backupChangeover_of_kept {vbat : Bool} {kept : BackupKept} {b : Block}
    (h : kept = .all ∨ (kept = .noMap ∧ b.lsw.limpValid = false)) :
    backupChangeover vbat kept b = { b with backup := { b.backup with onVbat := vbat } } := by
  rcases h with rfl | ⟨rfl, hvalid⟩
  · rfl
  · simp [backupChangeover, hvalid, onlyIf]

theorem backupChangeover_of_lost {vbat : Bool} {kept : BackupKept} {b : Block}
    (h : kept = .none ∨ (kept = .noMap ∧ b.lsw.limpValid = true)) :
    backupChangeover vbat kept b =
      limpMapLost { b with backup := if kept = .none then { onVbat := vbat } else { b.backup with onVbat := vbat } } := by
  rcases h with rfl | ⟨rfl, hvalid⟩
  · rfl
  · simp [backupChangeover, hvalid, onlyIf]

end Machine

/-- Settles O41: what each command writes of the switches stays through the outputs that follow, the coils that start and the channel that
is shed, none of which clears a pending source. -/
theorem switchInstants : Obligations.SwitchInstants := by
  refine ⟨fun s c x hrep hnow => ?_, fun s n x hrep hnow => ?_, fun s c hrep hcool => ?_, fun s c hrep hot => ?_, fun s n hrep hfree => ?_,
    fun s n hrep hlatched => ?_, fun s c hcool => ?_, fun s c hot hlatched => ?_, fun s c hot hfree hfew => ?_,
    fun s c hot hfree hmany => ?_, fun s v hrep hout hok => ?_, fun s v hrep hlo hhi hlost => ?_, fun s v hrep hsame => ?_,
    fun s n hpull hdue => ?_, fun s n hother => ?_, fun s n x hhold hnew hdue => ?_, fun s n x hother => ?_, fun s x y hnow hx hy => ?_,
    fun s j on hrep => ?_, fun s vbat kept hrep hkept => ?_, fun s vbat kept hrep hlost => ?_⟩
  -- SWITCH_MEASURE
  · have he : exec (.switchMeasure (.hs c) x) s = .next (s.after (switchMeasure (.hs c) x)) := State.input_eq hrep _
    exact ⟨_, he, execSwitchMeasure_frame _ _ he, State.after_block (atInstant_nextMultiple hnow _)⟩
  · have he : exec (.switchMeasure (.ls n) x) s = .next (s.after (switchMeasure (.ls n) x)) := State.input_eq hrep _
    exact ⟨_, he, execSwitchMeasure_frame _ _ he, State.after_block (atInstant_nextMultiple hnow _)⟩
  -- SWITCH_OVERTEMP
  · have he : exec (.switchOvertemp (.hs c)) s = .next (s.after (switchOvertemp (.hs c))) := State.input_eq hrep _
    refine ⟨_, he, execSwitchOvertemp_frame _ he, ?_⟩
    simp only [Raised, hsOf_after, State.after_lsw, State.after_hic, switchOvertemp_of_cool hcool]
    obtain ⟨on, fired, hs⟩ := protectHs_hs c 321 (fun x => { x with ot := true, otLatched := x.otLatched || x.otLatchEn }) s.block
    exact ⟨congrArg HsChan.ot hs, congrArg HsChan.otLatched hs, congrArg HsChan.lastAct hs, protectHs_tripCnt _ _ _ _,
      protectHs_raises c 321 _ _ (by decide)⟩
  · have he : exec (.switchOvertemp (.hs c)) s = .next (s.after (switchOvertemp (.hs c))) := State.input_eq hrep _
    refine ⟨_, he, execSwitchOvertemp_frame _ he, ?_⟩
    rw [State.after_lsw, State.after_hic, switchOvertemp_of_hot hot]
    exact ⟨rfl, rfl⟩
  · have he : exec (.switchOvertemp (.ls n)) s = .next (s.after (switchOvertemp (.ls n))) := State.input_eq hrep _
    exact ⟨_, he, execSwitchOvertemp_frame _ he, State.after_block (switchOvertemp_of_unlatched hfree)⟩
  · have he : exec (.switchOvertemp (.ls n)) s = .next (s.after (switchOvertemp (.ls n))) := State.input_eq hrep _
    exact ⟨_, he, execSwitchOvertemp_frame _ he, State.after_block (switchOvertemp_of_latched hlatched)⟩
  -- SWITCH_THERMAL_RESTART
  · exact ⟨s.after (thermalRestart c), rfl, execSwitchThermalRestart_frame c rfl, State.after_block (thermalRestart_of_cool hcool)⟩
  · refine ⟨s.after (thermalRestart c), rfl, execSwitchThermalRestart_frame c rfl, ?_⟩
    rw [State.after_lsw, thermalRestart_of_latched hot hlatched, updHs_lsw]
  · refine ⟨s.after (thermalRestart c), rfl, execSwitchThermalRestart_frame c rfl, ?_⟩
    simp only [hsOf_after, thermalRestart_of_few hot hfree hfew, hsOf_updHs_self]
    refine ⟨?_, rfl⟩
    rw [hsOf_field_of_undriven HsChan.ot (fun _ => rfl) (driveHs_undriven _ _), hsOf_updHs_self]
  · refine ⟨s.after (thermalRestart c), rfl, execSwitchThermalRestart_frame c rfl, ?_⟩
    simp only [hsOf_after, thermalRestart_of_many hot hfree hmany, hsOf_updHs_self, and_self]
  -- VIN_SYS_RANGE
  · have he : exec (.vinSysRange v) s = .next (s.after (vinRange v)) := State.input_eq hrep _
    have heff := vinRange_of_lost hout hok
    have hkeep := (coilsOff_undriven _).trans (vinTaken_undriven false v s.block)
    refine ⟨_, he, execVinSysRange_frame v he, State.after_block heff, ?_⟩
    simp only [Raised, State.after_lsw, State.after_hic, heff]
    exact ⟨field_of_undriven Switches.vin (fun _ => rfl) hkeep, field_of_undriven Switches.vinOk (fun _ => rfl) hkeep,
      raised_coilsOff (vinTaken_raises _ _ _)⟩
  · have he : exec (.vinSysRange v) s = .next (s.after (vinRange v)) := State.input_eq hrep _
    have heff := vinRange_of_back hlo hhi hlost
    have hkeep := (coilsOn_undriven _).trans (vinTaken_undriven true v s.block)
    refine ⟨_, he, execVinSysRange_frame v he, State.after_block heff, ?_⟩
    simp only [Raised, State.after_lsw, State.after_hic, heff]
    exact ⟨field_of_undriven Switches.vin (fun _ => rfl) hkeep, field_of_undriven Switches.vinOk (fun _ => rfl) hkeep,
      raised_coilsOn (vinTaken_raises _ _ _)⟩
  · have he : exec (.vinSysRange v) s = .next (s.after (vinRange v)) := State.input_eq hrep _
    refine ⟨_, he, execVinSysRange_frame v he, ?_⟩
    rw [State.after_lsw, State.after_hic, vinRange_of_same hsame]
    exact ⟨rfl, rfl⟩
  -- COIL_PULL_END
  · refine ⟨s.after (coilPullEnd n), rfl, execCoilPullEnd_frame n rfl, ?_⟩
    simp only [lsOf_after, coilPullEnd_of_due hpull hdue, lsOf_coilRelease_self, lsOf_updLs_self, and_self]
  · refine ⟨s.after (coilPullEnd n), rfl, execCoilPullEnd_frame n rfl, ?_⟩
    rw [State.after_lsw, State.after_saf, coilPullEnd_of_other hother]
    exact ⟨rfl, rfl⟩
  -- COIL_RCOIL_LEARN
  · refine ⟨s.after (coilLearn n x), rfl, execCoilRcoilLearn_frame n x rfl, ?_⟩
    rw [State.after_lsw, coilLearn_of_due hhold hnew hdue, updLs_lsw]
  · exact ⟨s.after (coilLearn n x), rfl, execCoilRcoilLearn_frame n x rfl, State.after_block (coilLearn_of_other hother)⟩
  -- PACKAGE_CURRENT_CHECK
  · refine ⟨s.after packageAtInstant, rfl, execPackageCurrentCheck_frame rfl, ?_⟩
    have hfig {γ : Type} (q : Switches → γ) (hq : ∀ w, q w.unshed = q w) := field_of_packageCheck q hq hx hy
    simp only [Raised, State.after_lsw, State.after_hic, packageAtInstant_of_due hnow]
    refine ⟨hfig Switches.sum fun _ => rfl, hfig Switches.mean fun _ => rfl, hfig Switches.window fun _ => rfl,
      hfig Switches.pkgWarn fun _ => rfl, hfig Switches.shedding fun _ => rfl, hfig Switches.shedRun fun _ => rfl,
      hfig Switches.pkgAt fun _ => rfl, fun hlow => ?_, fun ⟨hover, hnew⟩ => ?_⟩
    · rw [packageCheck_of_low hx hy hlow, packageNoted_lsw]
      rfl
    · rw [packageCheck_eq hx hy]
      exact (Hic.KeepsPending.refl _).onlyIf _ Hic.KeepsPending.shedOne _ (packageNoted_raises hover hnew)
  -- LIMP_INPUT
  · have he : exec (.limpInput j on) s = .next (s.after (limpInputSet j on)) := State.input_eq hrep _
    refine ⟨_, he, execLimpInput_frame j on he, ?_⟩
    rw [State.after_lsw]
    exact ⟨(limpInputSet_inputs j on s.block j).trans (if_pos rfl), fun k hk => (limpInputSet_inputs j on s.block k).trans (if_neg hk)⟩
  -- BACKUP_CHANGEOVER
  · have he : exec (.backupChangeover vbat kept) s = .next (s.after (backupChangeover vbat kept)) := State.input_eq hrep _
    refine ⟨_, he, execBackupChangeover_frame vbat kept he, ?_⟩
    rw [State.after_backup, State.after_lsw, backupChangeover_of_kept hkept]
    exact ⟨rfl, rfl⟩
  · have he : exec (.backupChangeover vbat kept) s = .next (s.after (backupChangeover vbat kept)) := State.input_eq hrep _
    refine ⟨_, he, execBackupChangeover_frame vbat kept he, ?_⟩
    simp only [Raised, hsOf_after, State.after_backup, State.after_lsw, State.after_hic, backupChangeover_of_lost hlost]
    exact ⟨limpMapLost_backup _, limpMapLost_limpValid _, limpMapLost_limpMap _, limpMapLost_limp _, limpMapLost_raises _⟩

end Sys2Proof
end

section
/-! PROOFS. The commands of the load-switch family (R299 to R301, R305, R306, R309): what each makes of the switches, and that its answer
stands. -/

namespace Sys2Proof

open Machine

namespace Machine

/-! ### What the stored settings, the log and the answer leave -/

@[simp] theorem saveSettings_lsw (b : Block) : (saveSettings b).lsw = b.lsw := (saveSettings_frame b).lsw_eq (by decide)
@[simp] theorem cmdLog_lsw (m : Fin 4) (status : Nat) (b : Block) : (cmdLog m status b).lsw = b.lsw := (cmdLog_frame _ _ b).lsw_eq (by decide)
@[simp] theorem ok_lsw (m : Fin 4) (p : List U8) (b : Block) : (ok m p b).lsw = b.lsw := (ok_frame m p b).lsw_eq (by decide)

/-- A command that stores, answers and logs leaves the switches as it wrote them. -/
theorem after_logged_lsw {s : State} {f : Block → Block} {m : Fin 4} {p : List U8} {b : Block}
    (hf : f s.block = cmdLog m 0 (ok m p (saveSettings b))) : (s.after f).block.lsw = b.lsw := by
  rw [State.after_lsw, hf, cmdLog_lsw, ok_lsw, saveSettings_lsw]

theorem hsCheck_of_lt {m : Fin 4} {b : Block} (h : (rB b m 0).toNat < 40) : (hsCheck b m).2 = true := decide_eq_true h

/-! ### LSW_SET_CHANNEL and LSW_GET_CHANNEL (R309) -/

/-- A channel with the modes that the request gives. -/
def HsChan.configured (m : Fin 4) (b : Block) (x : HsChan) : HsChan :=
  { x with
    mode := BitVec.ofNat 2 (fieldOf (rN b m 4 4) 0 2), curve := BitVec.ofNat 3 (fieldOf (rN b m 4 4) 2 3)
    slew := BitVec.ofNat 2 (fieldOf (rN b m 4 4) 5 2), otLatchEn := bitOf (rN b m 4 4) 7, openEn := bitOf (rN b m 4 4) 8
    shedPrio := BitVec.ofNat 2 (fieldOf (rN b m 4 4) 9 2) }

theorem lswSetChannel_of_pass {m : Fin 4} {b : Block} (hchan : (rB b m 0).toNat < 40) (hmode : fieldOf (rN b m 4 4) 0 2 ≤ 2)
    (hrest : fieldOf (rN b m 4 4) 11 21 = 0) (hoff : (hsOf b (reqHs b m)).outOn = false) (hmap : mapped b (reqHs b m) = false)
    (huse : (if fieldOf (rN b m 4 4) 0 2 = 2 then isLockChan b (reqHs b m).val else isSupplyChan b (reqHs b m).val) = false) :
    lswSetChannel m b = cmdLog m 0 (ok m [] (saveSettings (updHs (reqHs b m) (HsChan.configured m b) b))) := by
  unfold lswSetChannel
  extract_lets c w mode x
  have hfree : (!mapped b c && !(mode == 2 && isLockChan b c.val) && !(mode != 2 && isSupplyChan b c.val)) = true := by
    by_cases hsupply : mode = 2
    · have hlock : isLockChan b c.val = false := (if_pos hsupply).symm.trans huse
      simp [c, hmap, hsupply, hlock]
    · have hother : isSupplyChan b c.val = false := (if_neg hsupply).symm.trans huse
      simp [c, hmap, hsupply, hother]
  rw [checked_cons_pass (hsCheck_of_lt hchan), checked_cons_pass (decide_eq_true ⟨hmode, hrest⟩),
    checked_cons_pass (by simp [x, c, hoff]), checked_cons_pass hfree, checked_nil]
  rfl

theorem lswSetChannel_of_range {m : Fin 4} {b : Block} (h : 40 ≤ (rB b m 0).toNat) : lswSetChannel m b = refuse m 0x0A01 b := by
  unfold lswSetChannel
  extract_lets c w mode x
  exact checked_cons_fail (x := hsCheck b m) (decide_eq_false (Nat.not_lt.mpr h)) _ _

/-- What LSW_GET_CHANNEL answers of a channel. -/
def hsAnswer (b : Block) (x : HsChan) : List U8 :=
  b32s [hsCfgWord x, hsStatWord b x, hsMeasWord x] ++ leBytes 2 (min 65535 (x.heat * 1000 / heatFull)) ++ zeros 2 ++ b64 x.lastAct

theorem hsAnswer_length (b : Block) (x : HsChan) : (hsAnswer b x).length = 24 := by simp [hsAnswer]

theorem lswGetChannel_of_channel {m : Fin 4} {b : Block} (hchan : (rB b m 0).toNat < 40) :
    lswGetChannel m b = ok m (hsAnswer b (hsOf b (reqHs b m))) b := by
  rw [lswGetChannel, checked_cons_pass (hsCheck_of_lt hchan), checked_nil, hsAnswer]

/-! ### LSW_SWITCH (R309) -/

/-- The request gives no duty, or one that the mode of its channel takes. -/
def DutyOk (m : Fin 4) (b : Block) : Prop := rN b m 2 2 = 0xFFFF ∨ (rN b m 2 2 ≤ 1000 ∧ (hsOf b (reqHs b m)).mode = 1)

/-- An entry for the channel that the request names. -/
def switchEntry (m : Fin 4) (b : Block) (action : U8) (payload : List U8) (t : U64) (tag : U32) (flags : U8) : Entry :=
  { mkEntry tgSwitch (reqHs b m).val action payload t with tag := tag, flags := flags }

/-- The entries that the request puts on ring 130: the duty when it gives one, then the switching, whose resolution answers. -/
def switchSubmitted (m : Fin 4) (b : Block) : Block :=
  let t := ringFree b 130 tgSwitch (reqHs b m).val (ahead b 96)
  let d := rN b m 2 2
  let r := if d = 0xFFFF then (b, true) else submitEntry agSedge 130 (switchEntry m b 3 (leBytes 2 d ++ zeros 30) t 0 0) b
  let r := if r.2 then submitEntry agSedge 130 (switchEntry m b (if (rB b m 1).toNat = 1 then 1 else 2) (zeros 32)
    (if d = 0xFFFF then t else t + 1) (BitVec.ofNat 32 (1 + m.val)) 4) r.1 else r
  if r.2 then r.1 else internalFail m r.1

theorem lswSwitch_of_pass {m : Fin 4} {b : Block} (hchan : (rB b m 0).toNat < 40) (hon : (rB b m 1).toNat ≤ 1) (hduty : DutyOk m b)
    (hmode : (hsOf b (reqHs b m)).mode ≠ 2) (hlock : lockInUse b (reqHs b m) = false) (htest : underTest b (reqHs b m) = false) :
    lswSwitch m b = switchSubmitted m b := by
  unfold lswSwitch
  extract_lets c on d x
  have hargs : (decide (on ≤ 1) && (d == 0xFFFF || (decide (d ≤ 1000) && x.mode == 1))) = true := by
    rw [decide_eq_true hon, Bool.true_and]
    rcases hduty with hnone | ⟨hmost, hpwm⟩
    · simp [d, hnone]
    · simp [d, x, c, hmost, hpwm]
  have hfree : (x.mode != 2 && !lockInUse b c && !underTest b c) = true := by
    simp only [x, c, bne_iff_ne.mpr hmode, hlock, htest, Bool.not_false, Bool.and_self]
  rw [checked_cons_pass (hsCheck_of_lt hchan), checked_cons_pass hargs, checked_cons_pass hfree, checked_nil]
  rfl

theorem lswSwitch_of_action {m : Fin 4} {b : Block} (hchan : (rB b m 0).toNat < 40) (hon : 1 < (rB b m 1).toNat) :
    lswSwitch m b = refuse m 0x0A02 b := by
  unfold lswSwitch
  extract_lets c on d x
  have hargs : (decide (on ≤ 1) && (d == 0xFFFF || (decide (d ≤ 1000) && x.mode == 1))) = false := by
    rw [decide_eq_false (Nat.not_le.mpr hon), Bool.false_and]
  rw [checked_cons_pass (hsCheck_of_lt hchan), checked_cons_fail hargs]

/-! ### LSW_CLEAR_FAULT (R299) -/

theorem hsOf_forAll_updHs {cs : List (Fin 40)} {d : Fin 40} (hd : d ∉ cs) (f : HsChan → HsChan) (b : Block) :
    hsOf (forAll cs (fun c => updHs c f) b) d = hsOf b d := by
  induction cs generalizing b with
  | nil => rfl
  | cons c cs ih =>
    obtain ⟨hne, hrest⟩ := not_or.mp (mt List.mem_cons.mpr hd)
    exact (ih hrest _).trans (hsOf_updHs_ne hne f b)

/-- The tied latch of the event that channel `c` shows is removed, and its channels are commanded off. -/
def tieCleared (c : Fin 40) (b : Block) : Block :=
  if (hsOf b c).tied then forAll (tiedWith b c) (fun d => updHs d fun y => { y with tied := false, cmdOn := false }) b else b

/-- The short flags of channel `c` are cleared too. -/
def faultCleared (c : Fin 40) (b : Block) : Block :=
  updHs c (fun y => { y with
    shortGnd := false, shortVin := false
    cmdOn := y.cmdOn && !((hsOf b c).shortGnd || (hsOf b c).shortVin || (hsOf b c).tied) }) (tieCleared c b)

theorem tieCleared_of_untied {c : Fin 40} {b : Block} (h : (hsOf b c).tied = false) : tieCleared c b = b := by
  simp [tieCleared, h]

theorem hsOf_tieCleared {c d : Fin 40} (b : Block) (hd : d ∉ tiedWith b c) : hsOf (tieCleared c b) d = hsOf b d := by
  unfold tieCleared
  split
  · exact hsOf_forAll_updHs hd _ b
  · rfl

/-- The short to supply no longer persists: the channel shows none, or its output is off and reads below 20 % of VIN_SYS. -/
def ShortGone (b : Block) (x : HsChan) : Prop := x.shortVin = false ∨ (x.outOn = false ∧ 10 * x.voltage.toNat < 2 * b.lsw.vin.toNat)

theorem lswClearFault_of_gone {m : Fin 4} {b : Block} (hchan : (rB b m 0).toNat < 40) (hgone : ShortGone b (hsOf b (reqHs b m))) :
    lswClearFault m b = ok m (b32 (hsStatWord (faultCleared (reqHs b m) b) (hsOf (faultCleared (reqHs b m) b) (reqHs b m))))
      (faultCleared (reqHs b m) b) := by
  unfold lswClearFault
  extract_lets c x persists
  have hclear : persists = false := by
    rcases hgone with hshort | ⟨hoff, hlow⟩
    · simp [persists, x, c, hshort]
    · simp [persists, x, c, hoff, hlow]
  rw [checked_cons_pass (hsCheck_of_lt hchan), checked_cons_pass (by simp [hclear]), checked_nil]
  rfl

theorem lswClearFault_of_persisting {m : Fin 4} {b : Block} (hchan : (rB b m 0).toNat < 40)
    (hshort : (hsOf b (reqHs b m)).shortVin = true) (hon : (hsOf b (reqHs b m)).outOn = true) : lswClearFault m b = refuse m 0x0A05 b := by
  unfold lswClearFault
  extract_lets c x persists
  rw [checked_cons_pass (hsCheck_of_lt hchan), checked_cons_fail (by simp [persists, x, c, hshort, hon])]

theorem hsOf_after_cleared {s : State} {m : Fin 4} (hchan : (rB s.block m 0).toNat < 40)
    (hgone : ShortGone s.block (hsOf s.block (reqHs s.block m))) (d : Fin 40) :
    hsOf (s.after (lswClearFault m)).block d = hsOf (faultCleared (reqHs s.block m) s.block) d := by
  rw [hsOf_after, lswClearFault_of_gone hchan hgone, hsOf_congr (ok_lsw _ _ _)]

/-! ### LSW_SET_COIL and LSW_GET_COIL (R300, R301) -/

/-- A coil with the currents, the pull time, the supply and the resistance that the request gives. -/
def LsChan.configured (m : Fin 4) (b : Block) (x : LsChan) : LsChan :=
  { x with
    iPull := BitVec.ofNat 8 (fieldOf (rN b m 4 4) 0 8), iPin := BitVec.ofNat 8 (fieldOf (rN b m 4 4) 8 8)
    iHold := BitVec.ofNat 8 (fieldOf (rN b m 4 4) 16 8), iDrop := BitVec.ofNat 8 (fieldOf (rN b m 4 4) 24 8)
    tPull := BitVec.ofNat 7 (fieldOf (rN b m 8 4) 0 7), supply := BitVec.ofNat 6 (fieldOf (rN b m 8 4) 8 6)
    rCoil := BitVec.ofNat 16 (fieldOf (rN b m 8 4) 16 16) }

/-- The values of the request are within the limits of R309. -/
structure CoilLimits (m : Fin 4) (b : Block) : Prop where
  pull : 20 ≤ fieldOf (rN b m 4 4) 0 8 ∧ fieldOf (rN b m 4 4) 0 8 ≤ 250
  pullIn : 20 ≤ fieldOf (rN b m 4 4) 8 8 ∧ fieldOf (rN b m 4 4) 8 8 ≤ fieldOf (rN b m 4 4) 0 8
  hold : 5 ≤ fieldOf (rN b m 4 4) 16 8 ∧ fieldOf (rN b m 4 4) 16 8 ≤ 80 ∧ fieldOf (rN b m 4 4) 16 8 < fieldOf (rN b m 4 4) 8 8
  dropOut : 3 ≤ fieldOf (rN b m 4 4) 24 8 ∧ fieldOf (rN b m 4 4) 24 8 + 5 ≤ fieldOf (rN b m 4 4) 16 8
  pullTime : 20 ≤ fieldOf (rN b m 8 4) 0 7 ∧ fieldOf (rN b m 8 4) 0 7 ≤ 80
  resistance : 20 ≤ fieldOf (rN b m 8 4) 16 16 ∧ fieldOf (rN b m 8 4) 16 16 ≤ 1000
  unused : fieldOf (rN b m 8 4) 7 1 = 0 ∧ fieldOf (rN b m 8 4) 14 2 = 0

theorem lswSetCoil_of_unsupplied {m : Fin 4} {b : Block} (hnode : (nodeCheck 0x0A01 b m).2 = true) (hlimits : CoilLimits m b)
    (hnone : fieldOf (rN b m 8 4) 8 6 = 0x3F) (hquiet : quiet b (reqNode b m) = true) (hother : quiet b (otherNode (reqNode b m)) = true) :
    lswSetCoil m b = cmdLog m 0 (ok m [] (saveSettings (updLs (reqNode b m) (fun _ => (lsOf b (reqNode b m)).configured m b) b))) := by
  obtain ⟨⟨hpull, hpullMost⟩, ⟨hpin, hpinMost⟩, ⟨hhold, hholdMost, hholdPin⟩, ⟨hdrop, hdropMost⟩, ⟨htime, htimeMost⟩,
    ⟨hres, hresMost⟩, hbit, hbits⟩ := hlimits
  unfold lswSetCoil
  extract_lets n k w t pull pin hold drop tp sup rc old x inMode alone pairOk
  have hsup : sup = 0x3F := hnone
  have hmode : inMode = true := by simp [inMode, hsup]
  have halone : alone = true := by simp [alone, hsup]
  have hpair : pairOk = true := by simp [pairOk, hsup]
  rw [checked_cons_pass hnode, checked_cons_pass (decide_eq_true ⟨hpull, hpullMost, hpin, hpinMost, hhold, hholdMost, hholdPin, hdrop,
    hdropMost, htime, htimeMost, hres, hresMost, .inr hsup, hbit, hbits⟩), checked_cons_pass (by simp [hmode, halone, hpair]),
    checked_cons_pass (by simp [n, k, hquiet, hother]), checked_nil]
  rfl

/-- What LSW_GET_COIL answers of node `n`. -/
def coilAnswer (b : Block) (n : Fin 16) : List U8 :=
  b32s [lsStatWord b n, lsMeasWord (lsOf b n), coilWord (lsOf b n), coilTWord (lsOf b n)] ++ b64 (lsOf b n).lastClosed

theorem coilAnswer_length (b : Block) (n : Fin 16) : (coilAnswer b n).length = 24 := by simp [coilAnswer]

theorem lswGetCoil_of_node {m : Fin 4} {b : Block} (hnode : (nodeCheck 0x0A01 b m).2 = true) :
    lswGetCoil m b = ok m (coilAnswer b (reqNode b m)) b := by
  unfold lswGetCoil
  extract_lets n x
  rw [checked_cons_pass hnode, checked_nil]
  rfl

/-! ### LSW_SET_LIMP (R305) -/

/-- The entry of channel `c` in the map of the request. -/
def reqLimp (m : Fin 4) (b : Block) (c : Fin 40) : BitVec 4 := BitVec.ofNat 4 (fieldOf (rB b m (c.val / 2)).toNat (4 * (c.val % 2)) 4)

/-- The channels that the request maps to an input. -/
def limpChosen (m : Fin 4) (b : Block) : List (Fin 40) := allHs.filter fun c => (reqLimp m b c).getLsbD 3

/-- The map of the request is taken; a mapped channel stays under limp-home control, and comes under it while limp-home is active. -/
def limpTaken (m : Fin 4) (b : Block) : Block :=
  { b with lsw := { b.lsw with
    hs := vmapIdx b.lsw.hs fun c x => { x with limp := (reqLimp m b c).getLsbD 3 && (x.limp || (b.lsw.limpActive && !mapped b c)) }
    limpMap := vgen 40 (reqLimp m b), limpValid := true } }

/-- The CRC of the map is formed, and the outputs follow. -/
def limpSet (m : Fin 4) (b : Block) : Block := driveAll (updLsw (fun w => { w with limpCrc := crc32c (limpBytes w) }) (limpTaken m b))

theorem lswSetLimp_of_pass {m : Fin 4} {b : Block}
    (hfree : ∀ c, (reqLimp m b c).getLsbD 3 = true → (hsOf b c).mode ≠ 2 ∧ isLockChan b c.val = false)
    (hload : ((limpChosen m b).map fun c => curveIn (hsOf b c).curveNow).sum ≤ 12000) :
    lswSetLimp m b = cmdLog m 0 (ok m (b32 (limpSet m b).lsw.limpCrc) (saveSettings (limpSet m b))) := by
  have hall : ((limpChosen m b).all fun c => (hsOf b c).mode != 2 && !isLockChan b c.val) = true := by
    refine List.all_eq_true.mpr fun c hc => ?_
    obtain ⟨hmode, hlock⟩ := hfree c (List.mem_filter.mp hc).2
    rw [bne_iff_ne.mpr hmode, hlock]
    rfl
  unfold lswSetLimp
  extract_lets nib chosen fits
  have hfits : fits = true := Bool.and_eq_true_iff.mpr ⟨hall, decide_eq_true hload⟩
  rw [checked_cons_pass hfits, checked_nil]
  extract_lets old taken stored
  have htaken : taken = limpTaken m b := rfl
  have hstored : stored = limpSet m b := by
    rw [limpSet, ← htaken]
  rw [hstored]

theorem limpSet_undriven (m : Fin 4) (b : Block) :
    undriven (limpSet m b) = undriven (updLsw (fun w => { w with limpCrc := crc32c (limpBytes w) }) (limpTaken m b)) := driveAll_undriven _

theorem limpBytes_of_limpMap {v w : Switches} (h : w.limpMap = v.limpMap) : limpBytes w = limpBytes v := by rw [limpBytes, h, limpBytes]

theorem limpSet_limpValid (m : Fin 4) (b : Block) : (limpSet m b).lsw.limpValid = true :=
  field_of_undriven Switches.limpValid (fun _ => rfl) (limpSet_undriven m b)

theorem limpSet_limpMap (m : Fin 4) (b : Block) : (limpSet m b).lsw.limpMap = vgen 40 (reqLimp m b) :=
  field_of_undriven Switches.limpMap (fun _ => rfl) (limpSet_undriven m b)

theorem limpSet_limpCrc (m : Fin 4) (b : Block) : (limpSet m b).lsw.limpCrc = crc32c (limpBytes (limpSet m b).lsw) := by
  rw [limpBytes_of_limpMap ((limpSet_limpMap m b).trans (show _ = (limpTaken m b).lsw.limpMap from rfl))]
  exact field_of_undriven Switches.limpCrc (fun _ => rfl) (limpSet_undriven m b)

/-! ### LSW_LIMP_RELEASE (R306) -/

/-- The channels under limp-home control that the request names. -/
def limpHit (m : Fin 4) (b : Block) : List (Fin 40) := allHs.filter fun c => bitOf (rN b m 0 5) c.val && (hsOf b c).limp

theorem mem_limpHit {m : Fin 4} {b : Block} {c : Fin 40} :
    c ∈ limpHit m b ↔ bitOf (rN b m 0 5) c.val = true ∧ (hsOf b c).limp = true := by
  simp [limpHit, allHs]

theorem contains_limpHit (m : Fin 4) (b : Block) (c : Fin 40) :
    (limpHit m b).contains c = (bitOf (rN b m 0 5) c.val && (hsOf b c).limp) := by
  rw [Bool.eq_iff_iff, List.contains_iff_mem, mem_limpHit, Bool.and_eq_true]

theorem limpRelease_limp (c d : Fin 40) (b : Block) : (hsOf (limpRelease c b) d).limp = if d = c then false else (hsOf b d).limp := by
  unfold limpRelease
  split
  · rw [hsOf_field_of_undriven HsChan.limp (fun _ => rfl) (driveHs_undriven _ _), hsOf_congr (irq_lsw _ _)]
    split
    · next hd => rw [hd, hsOf_updHs_self]
    · next hd => rw [hsOf_updHs_ne hd]
  · next hfree =>
    split
    · next hd => exact hd ▸ Bool.eq_false_iff.mpr hfree
    · rfl

/-- A channel is under limp-home control after a release when it was before and is not released. -/
theorem forAll_limpRelease_limp (cs : List (Fin 40)) (d : Fin 40) (b : Block) :
    (hsOf (forAll cs limpRelease b) d).limp = ((hsOf b d).limp && !cs.contains d) := by
  induction cs generalizing b with
  | nil => simp [forAll]
  | cons c cs ih =>
    refine (ih (limpRelease c b)).trans ?_
    by_cases hd : d = c
    · simp [limpRelease_limp, hd]
    · simp [limpRelease_limp, hd]

theorem lswLimpRelease_eq (m : Fin 4) (b : Block) : lswLimpRelease m b =
    ok m (leBytes 5 (bitsNat (allHs.map fun c => bitOf (rN b m 0 5) c.val && (hsOf b c).limp))) (forAll (limpHit m b) limpRelease b) := by
  rw [← List.map_congr_left fun c _ => contains_limpHit m b c]
  rfl

theorem limpReleased_mbx (m : Fin 4) (b : Block) : (forAll (limpHit m b) limpRelease b).mbx = b.mbx :=
  forAll_keeps (q := Block.mbx) (fun c d => (limpRelease_frame c d).mbx_eq (by decide)) _ b

/-- No channel that the request names is left under limp-home control. -/
theorem limpReleased_limp {m : Fin 4} {b : Block} {c : Fin 40} (h : bitOf (rN b m 0 5) c.val = true) :
    (hsOf (forAll (limpHit m b) limpRelease b) c).limp = false := by
  rw [forAll_limpRelease_limp, contains_limpHit, h, Bool.true_and, Bool.and_not_self]

/-! ### LSW_CLEAR_COUNTS (R309) -/

theorem lswClearCounts_eq (m : Fin 4) (b : Block) :
    lswClearCounts m b = ok m [] (updLsw (fun w => { w with tripCnt := 0, shedCnt := 0 }) b) := rfl

end Machine

/-- Settles O42: each request runs the effect of its command once its checks hold; the outputs that follow, the stored settings, the answer
and the log entry leave the switches as the command wrote them. -/
theorem switchCommands : Obligations.SwitchCommands := by
  refine ⟨fun s m ha hchan hmode hrest hoff hmap huse => ?_, fun s m ha hchan => ?_,
    fun s m ha hchan hon hduty hmode hlock htest => ?_, fun s m ha hchan hon => ?_, fun s m ha hchan => ?_,
    fun s m ha hchan htied hgone => ?_, fun s m ha hchan htied hgone => ?_, fun s m ha hchan hshort hon => ?_,
    fun s m ha hnode hpull hpullMost hpin hpinMost hhold hholdMost hholdPin hdrop hdropMost htime htimeMost hres hresMost hnone hbit hbits
      hquiet hother => ?_, fun s m ha hnode => ?_,
    fun s m ha hfree hload => ?_, fun s m ha => ?_, fun s m ha => ?_⟩
  -- LSW_SET_CHANNEL
  · have hx : exec (.lswSetChannel m) s = .next (s.after (lswSetChannel m)) := run_of_asked ha _
    have heff := lswSetChannel_of_pass hchan hmode hrest hoff hmap huse
    refine ⟨_, hx, execLswSetChannel_frame m hx, answered_of_logged heff (saveSettings_mbx _) (by simp), ?_⟩
    rw [hsOf_congr (after_logged_lsw heff), hsOf_updHs_self]
    rfl
  · have hx : exec (.lswSetChannel m) s = .next (s.after (lswSetChannel m)) := run_of_asked ha _
    have heff := lswSetChannel_of_range hchan
    exact ⟨_, hx, execLswSetChannel_frame m hx, answered_of_refuse heff, (after_refuse_frame heff).lsw_eq (by decide)⟩
  -- LSW_SWITCH
  · have hx : exec (.lswSwitch m) s = .next (s.after (lswSwitch m)) := run_of_asked ha _
    exact ⟨_, hx, execLswSwitch_frame m hx, State.after_block (lswSwitch_of_pass hchan hon hduty hmode hlock htest)⟩
  · have hx : exec (.lswSwitch m) s = .next (s.after (lswSwitch m)) := run_of_asked ha _
    have heff := lswSwitch_of_action hchan hon
    have hkeep := after_refuse_frame heff
    exact ⟨_, hx, execLswSwitch_frame m hx, answered_of_refuse heff, hkeep.lsw_eq (by decide), hkeep.qmg_eq (by decide)⟩
  -- LSW_GET_CHANNEL
  · have hx : exec (.lswGetChannel m) s = .next (s.after (lswGetChannel m)) := run_of_asked ha _
    exact ⟨_, hx, execLswGetChannel_frame m hx, answered_of_respond (lswGetChannel_of_channel hchan) rfl
      ((hsAnswer_length _ _).le.trans (by decide))⟩
  -- LSW_CLEAR_FAULT
  · have hx : exec (.lswClearFault m) s = .next (s.after (lswClearFault m)) := run_of_asked ha _
    refine ⟨_, hx, execLswClearFault_frame m hx, ?_⟩
    simp only [hsOf_after_cleared hchan hgone, faultCleared, tieCleared_of_untied htied, hsOf_updHs_self, htied, Bool.or_false, true_and]
    exact fun d hd => hsOf_updHs_ne hd _ _
  · have hx : exec (.lswClearFault m) s = .next (s.after (lswClearFault m)) := run_of_asked ha _
    refine ⟨_, hx, execLswClearFault_frame m hx, ?_⟩
    simp only [hsOf_after_cleared hchan hgone, faultCleared, hsOf_updHs_self, htied, Bool.or_true, Bool.not_true, Bool.and_false, true_and]
    exact fun d hd hout => (hsOf_updHs_ne hd _ _).trans (hsOf_tieCleared _ hout)
  · have hx : exec (.lswClearFault m) s = .next (s.after (lswClearFault m)) := run_of_asked ha _
    have heff := lswClearFault_of_persisting hchan hshort hon
    exact ⟨_, hx, execLswClearFault_frame m hx, answered_of_refuse heff, (after_refuse_frame heff).lsw_eq (by decide)⟩
  -- LSW_SET_COIL
  · have hx : exec (.lswSetCoil m) s = .next (s.after (lswSetCoil m)) := run_of_asked ha _
    have heff := lswSetCoil_of_unsupplied hnode ⟨⟨hpull, hpullMost⟩, ⟨hpin, hpinMost⟩, ⟨hhold, hholdMost, hholdPin⟩,
      ⟨hdrop, hdropMost⟩, ⟨htime, htimeMost⟩, ⟨hres, hresMost⟩, hbit, hbits⟩ hnone hquiet hother
    refine ⟨_, hx, execLswSetCoil_frame m hx, answered_of_logged heff (saveSettings_mbx _) (by simp), ?_⟩
    rw [lsOf_congr (after_logged_lsw heff), lsOf_updLs_self, LsChan.configured, hnone]
    rfl
  -- LSW_GET_COIL
  · have hx : exec (.lswGetCoil m) s = .next (s.after (lswGetCoil m)) := run_of_asked ha _
    exact ⟨_, hx, execLswGetCoil_frame m hx, answered_of_respond (lswGetCoil_of_node hnode) rfl
      ((coilAnswer_length _ _).le.trans (by decide))⟩
  -- LSW_SET_LIMP
  · have hx : exec (.lswSetLimp m) s = .next (s.after (lswSetLimp m)) := run_of_asked ha _
    have hlsw := after_logged_lsw (lswSetLimp_of_pass hfree hload)
    refine ⟨_, hx, execLswSetLimp_frame m hx, ?_⟩
    rw [hlsw, limpSet_limpMap]
    exact ⟨limpSet_limpValid _ _, fun c => vget_vgen _ c, limpSet_limpCrc _ _⟩
  -- LSW_LIMP_RELEASE
  · have hx : exec (.lswLimpRelease m) s = .next (s.after (lswLimpRelease m)) := run_of_asked ha _
    have heff := lswLimpRelease_eq m s.block
    refine ⟨_, hx, execLswLimpRelease_frame m hx, answered_of_respond heff (limpReleased_mbx _ _) (by simp), fun c hc => ?_⟩
    rw [hsOf_after, heff, hsOf_congr (ok_lsw _ _ _), limpReleased_limp hc]
  -- LSW_CLEAR_COUNTS
  · have hx : exec (.lswClearCounts m) s = .next (s.after (lswClearCounts m)) := run_of_asked ha _
    have heff := lswClearCounts_eq m s.block
    refine ⟨_, hx, execLswClearCounts_frame m hx, answered_of_respond heff (updLsw_mbx _ _) (by simp), ?_⟩
    rw [State.after_lsw, heff, ok_lsw, updLsw_lsw]

end Sys2Proof
end

section
/-! PROOFS. What the step does with the command at the front of the queue, and what State.reset holds (R415, R425, R490, R552). -/

namespace Sys2Proof

open Machine

namespace Machine

/-- Every command answers a next state, and changes the block alone. -/
theorem exec_runs (c : Instr) (s : State) : ∃ b, exec c s = .next { s with block := b } := by
  unfold exec
  split <;> exact ⟨_, rfl⟩

end Machine

/-- Settles O1: the step takes the command at the front off the queue and runs it. -/
theorem stepRunsFrontCommand : Obligations.StepRunsFrontCommand := by
  intro c r s hq
  simp only [step, hq]

/-- Settles O2: a command changes the block alone. -/
theorem commandsLeaveTheQueue : Obligations.CommandsLeaveTheQueue := by
  intro c s t h
  obtain ⟨b, hb⟩ := exec_runs c s
  cases hb.symm.trans h
  rfl

/-- Settles O3: every command goes on. -/
theorem everyCommandGoesOn : Obligations.EveryCommandGoesOn := by
  intro c s
  obtain ⟨b, hb⟩ := exec_runs c s
  exact ⟨_, hb⟩

/-- Refutes O5: the table of reset values leaves out VEH_PP_CLASS(0) to VEH_PP_CLASS(3), words 0x5F0 to 0x5F3, whose values chapter 21
gives apart for each; the clause on every other word has them read 0, and word 0x5F0 reads 0x04C805DC. -/
theorem not_resetWindowWords : ¬ Obligations.ResetWindowWords := by
  rintro ⟨-, hother⟩
  have hzero := hother 0x5F0 (List.mem_range.mpr (by decide)) (by decide +kernel)
  have hread : plainWord State.reset.block 0x5F0 = 0x04C805DC := by decide
  rw [hread] at hzero
  exact absurd hzero (by decide)

/-- Settles O6: every unit named stands at its initial value. -/
theorem resetHoldsNothing : Obligations.ResetHoldsNothing := by
  have hidle : ∀ m, mbxOf State.reset.block m = {} := fun m => by simp [mbxOf, vget, State.reset]
  have hreal : State.reset.block.rpl.real = none := rfl
  refine ⟨rfl, ⟨rfl, fun p hp => ?_, rfl, rfl, fun m => ?_, fun m => ?_⟩, rfl, rfl, rfl, fun m => ?_⟩
  · rw [hreal] at hp
    exact absurd hp (by simp)
  all_goals exact hidle m ▸ rfl

end Sys2Proof
end

section
/-! PROOFS. Units read through a frame or a command, the winner of a decision of the write port (R333), and a WRITE frame that names a
protected word (R417, R420). -/

namespace Sys2Proof

open Machine

namespace Block.Only

variable {l : List Part} {b c : Block}

theorem pea_eq (h : Block.Only l b c) (hp : Part.pea ∉ l) : c.pea = b.pea := h .pea hp
theorem arb_eq (h : Block.Only l b c) (hp : Part.arb ∉ l) : c.arb = b.arb := h .arb hp
theorem pf_eq (h : Block.Only l b c) (hp : Part.pf ∉ l) : c.pf = b.pf := h .pf hp

end Block.Only

namespace Machine

section
variable (s : State) (f : Block → Block)

@[simp] theorem State.after_pea : (s.after f).block.pea = (f s.block).pea := (safetyItem_frame _ _).pea_eq (by decide)
@[simp] theorem State.after_arb : (s.after f).block.arb = (f s.block).arb := (safetyItem_frame _ _).arb_eq (by decide)
@[simp] theorem State.after_pf : (s.after f).block.pf = (f s.block).pf := (safetyItem_frame _ _).pf_eq (by decide)

end

/-! ### The winner of a decision (R333) -/

/-- Requests are looked at in the order of their requesters. -/
theorem present_sorted (b : Block) : (present b).Pairwise (· < ·) := (List.pairwise_lt_finRange 6).filter _

/-- In a rising list the first element with a property is the least one. -/
theorem find?_of_least {p : Fin 6 → Bool} {w : Fin 6} {l : List (Fin 6)} (hl : l.Pairwise (· < ·)) (hw : w ∈ l) (hp : p w = true)
    (hleast : ∀ r ∈ l, p r = true → w ≤ r) : l.find? p = some w := by
  induction l with
  | nil => exact absurd hw List.not_mem_nil
  | cons x l ih =>
    obtain ⟨hx, hl⟩ := List.pairwise_cons.mp hl
    rcases List.mem_cons.mp hw with rfl | hmem
    · exact List.find?_cons_of_pos hp
    · have hnot : ¬ p x = true := fun h => absurd (hx w hmem) (not_lt_of_ge (hleast x List.mem_cons_self h))
      rw [List.find?_cons_of_neg hnot]
      exact ih hl hmem fun r hr => hleast r (List.mem_cons_of_mem x hr)

theorem winnerOf_of_forced {b : Block} {w : Fin 6} (hw : w ∈ present b) (hf : (reqOf b w).forced = true)
    (hleast : ∀ r ∈ present b, (reqOf b r).forced = true → w ≤ r) : winnerOf b (present b) = some w := by
  rw [winnerOf, find?_of_least (p := fun r => (reqOf b r).forced) (present_sorted b) hw hf hleast]

theorem winnerOf_of_unforced {b : Block} {w : Fin 6} (hw : w ∈ present b) (hnone : ∀ r ∈ present b, (reqOf b r).forced = false)
    (hleast : ∀ r ∈ present b, w ≤ r) : winnerOf b (present b) = some w := by
  have hfind : (present b).find? (fun r => (reqOf b r).forced) = none := by
    refine List.find?_eq_none.mpr fun r hr => ?_
    simp [hnone r hr]
  have hhead : (present b).head? = (present b).find? fun _ => true := by cases present b <;> rfl
  rw [winnerOf, hfind, hhead]
  exact find?_of_least (present_sorted b) hw rfl fun r hr _ => hleast r hr

/-- The winner owns a free port, whether by a decision or because it is parked there alone; a busy port it waits for. -/
theorem arbiterDecision_arb {b : Block} {w : Fin 6} (hpend : b.rst.pending = none) (hwin : b.arb.win = none)
    (hw : winnerOf b (present b) = some w) :
    if b.arb.cur = none then (arbiterDecision b).arb.cur = some w ∧ (arbiterDecision b).arb.win = none
    else (arbiterDecision b).arb.win = some w ∧ (arbiterDecision b).arb.cur = b.arb.cur := by
  have hdue : shutdownDue b = b := by rw [shutdownDue, hpend]
  unfold arbiterDecision
  simp only [hdue, hwin, Option.isSome_none, Bool.false_eq_true, if_false, hw]
  by_cases hcur : b.arb.cur = none
  · rw [if_pos hcur]
    split
    · exact ⟨rfl, hwin⟩
    · simp [decideFor, updArb, hcur, hwin]
  · rw [if_neg hcur, if_neg fun h => hcur h.1]
    simp [decideFor, updArb, hcur]

/-! ### Protected words (R417, R420) -/

/-- What a window error writes of the port (R431); the source it raises leaves the port. -/
theorem winErr_hp (write : Bool) (cause addr : Nat) (b : Block) :
    (winErr write cause addr b).hp = { b.hp with
      err := true, dir := write, cause := BitVec.ofNat 3 cause, addr := BitVec.ofNat 16 addr
      count := satInc b.hp.count, winEvents := satInc b.hp.winEvents
      lastWinIrq := if mayRaise b b.hp.lastWinIrq tMs then some (now b) else b.hp.lastWinIrq } :=
  onlyIf_keeps (irq_hp 6) _ _

/-- Among allowed words a protected one is the first reason to reject a WRITE frame. -/
theorem frameFault_of_protected {b : Block} {l : List (Nat × U32)} {a : Nat} (hm : b.rpl.mode = false)
    (hall : ∀ e ∈ l, forbiddenBy b e.1 = none) (hp : ((l.find? fun e => isProtected e.1).map (·.1)) = some a) :
    frameFault b true false l = some (3, a) := by
  obtain ⟨e, he, rfl⟩ := Option.map_eq_some_iff.mp hp
  have houtside : (l.find? fun e => forbiddenBy b e.1 == some 1 || (b.rpl.mode && !inDbg e.1)) = none := by
    refine List.find?_eq_none.mpr fun x hx => ?_
    simp [hall x hx, hm]
  have hstate : (l.find? fun e => forbiddenBy b e.1 == some 2) = none := by
    refine List.find?_eq_none.mpr fun x hx => ?_
    simp [hall x hx]
  simp only [frameFault, houtside, hstate, Bool.not_false, Bool.true_and, he, Option.map_none, Option.map_some, Option.none_or,
    Option.some_or]

theorem registerWrite_of_protected {b : Block} {addr : U16} {words : List U32} {a : Nat} (hm : b.rpl.mode = false)
    (hr : b.rst.inReset = false) (hall : ∀ e ∈ addressed addr.toNat words, forbiddenBy b e.1 = none)
    (hp : (((addressed addr.toNat words).find? fun e => isProtected e.1).map (·.1)) = some a) :
    registerWrite addr words none b = winErr true 3 a b := by
  have hw : words ≠ [] := by
    rintro rfl
    simp [addressed] at hp
  rw [registerWrite_of_whole hr hw (by simp), writeFrame]
  simp only [Option.isSome_none, frameFault_of_protected hm hall hp]

end Machine

/-- Settles O43: the winner is the least of the forced requesters, or of all when none is forced, since requests stand in rising order. -/
theorem arbiterWinner : Obligations.ArbiterWinner := by
  refine ⟨fun s w hpend hwin hw hf hleast => ?_, fun s w hpend hwin hw hnone hleast => ?_⟩
  · refine ⟨s.after arbiterDecision, rfl, execArbiterDecision_frame rfl, ?_⟩
    rw [State.after_arb]
    exact arbiterDecision_arb hpend hwin (winnerOf_of_forced hw hf hleast)
  · refine ⟨s.after arbiterDecision, rfl, execArbiterDecision_frame rfl, ?_⟩
    rw [State.after_arb]
    exact arbiterDecision_arb hpend hwin (winnerOf_of_unforced hw hnone hleast)

/-- Settles O51: among allowed words the protected one comes first in the order of R420, and the frame only becomes a window error. -/
theorem protectedWords : Obligations.ProtectedWords := by
  intro s addr words a hm hr hall hp
  have heff := registerWrite_of_protected hm hr hall hp
  refine ⟨s.after (registerWrite addr words none), rfl, execRegisterWrite_frame addr words none rfl, ⟨rfl, ?_⟩, ?_⟩
  · rw [State.after_block heff]
    exact ((winErr_frame _ _ _ _).mono (by decide)).trans ((safetyItem_frame _ _).mono (by decide))
  · rw [State.after_hp, heff, winErr_hp]
    exact ⟨rfl, rfl, rfl, rfl, rfl, rfl⟩

end Sys2Proof
end

section
/-! PROOFS. The power-fail warning, its commit and the end of its hold (R327 to R330). -/

namespace Sys2Proof

open Machine

namespace Machine

namespace Hic.KeepsPending

section
variable {h : Hic} {b : Block} (hb : h.KeepsPending b.hic)
include hb

theorem opLogAs (writer : U8) (code : U16) (payload : List U8) : h.KeepsPending (opLogAs writer code payload b).hic := by
  unfold Machine.opLogAs
  extract_lets sec r raise
  split
  · refine onlyIf ?_ _ fun hc => hc.irq 467
    exact hb
  · refine stageOp ?_ _
    exact hb

theorem pqClose (f : Fin 2) (k : PqKind) (end_ : U64) (flags : Nat) : h.KeepsPending (pqClose f k end_ flags b).hic := by
  unfold Machine.pqClose
  extract_lets x
  split
  · exact hb
  · refine sendTo (opLogAs (irq ?_ 71) _ _ _) _ _ _
    exact hb

theorem pqTruncate (f : Fin 2) (flags : Nat) : h.KeepsPending (pqTruncate f flags b).hic := by
  refine hb.forAll (fun k c hc => pqClose ?_ f k _ _) _
  exact hc

/-! ### A connector looked at again -/

theorem startMove (n : Fin 16) (lock : Bool) (mbx : Option (Fin 4)) : h.KeepsPending (startMove n lock mbx b).hic := by
  unfold Machine.startMove
  extract_lets v c t
  split
  · refine hsEntry ?_ _ _ _ _
    exact hb
  · exact hb

theorem unlockIfDue (n : Fin 16) : h.KeepsPending (unlockIfDue n b).hic := by
  unfold Machine.unlockIfDue
  extract_lets v
  split
  · split
    · exact hb.startMove n _ _
    · exact hb
  · exact hb

theorem toIdle (n : Fin 16) : h.KeepsPending (toIdle n b).hic := onlyIf (hb.enterPhase n .idle) _ fun hc => hc.irq 214

theorem idleIfFree (n : Fin 16) : h.KeepsPending (idleIfFree n b).hic := by
  unfold Machine.idleIfFree
  extract_lets v
  split
  · exact (hb.toIdle n).unlockIfDue n
  · exact hb

theorem connect (n : Fin 16) : h.KeepsPending (connect n b).hic := by
  unfold Machine.connect
  extract_lets v
  split
  · exact (hb.enterPhase n _).startMove n _ _
  · exact hb

theorem associate (n : Fin 16) : h.KeepsPending (associate n b).hic := by
  unfold Machine.associate
  extract_lets v c
  split
  · exact hb.enterPhase n _
  · exact hb

theorem settleStart (n : Fin 16) : h.KeepsPending (settleStart n b).hic := by
  unfold Machine.settleStart
  extract_lets v due
  have hdue : ∀ c : Block, h.KeepsPending c.hic → h.KeepsPending (due c).hic := fun _ hc => hc
  split
  · exact hb
  · split
    · exact hdue _ hb
    iterate 3
      split
      · exact hdue _ (hb.enterPhase n _)
      · exact hdue _ hb
    · exact hb

theorem pilotReview (n : Fin 16) : h.KeepsPending (pilotReview n b).hic :=
  (((((hb.settleStart n).unlockIfDue n).idleIfFree n).connect n).associate n).dutyReview n

/-! ### What a power failure does to an update (R512) -/

theorem reviewHub : h.KeepsPending (reviewHub b).hic := by
  unfold Machine.reviewHub
  refine of_frame ?_ (endEpisode_frame _) (by decide)
  split
  · refine reviewHw ?_
    exact hb
  · exact hb

theorem feedBoundary : h.KeepsPending (feedBoundary b).hic := by
  unfold Machine.feedBoundary
  split
  · exact hb
  · refine submit ?_ _ _ _
    exact hb

theorem replan : h.KeepsPending (replan b).hic := by
  unfold Machine.replan planBoundary
  split
  · exact hb
  · split
    · exact hb
    · refine feedBoundary ?_
      exact hb

theorem pauseAbort (p : Pause) : h.KeepsPending (pauseAbort p b).hic := by
  unfold Machine.pauseAbort
  split
  · exact hb
  · split
    · refine reviewHub ?_
      exact hb
    · refine replan ?_
      exact hb
    · refine driveFeed (forAll ?_ (fun n c hc => hc.pilotReview n) _)
      exact hb
    · exact hb

theorem stageFail (status : Nat) : h.KeepsPending (stageFail status b).hic := by
  unfold Machine.stageFail
  split
  · exact hb
  · extract_lets c d
    have hd : h.KeepsPending d.hic := by
      refine irq ?_ 24
      exact hb
    split
    · exact hd.respond _ _ _
    · exact hd

theorem updatePowerFail : h.KeepsPending (updatePowerFail b).hic := by
  unfold Machine.updatePowerFail
  extract_lets c
  have hc : h.KeepsPending c.hic := by
    unfold c
    split
    · exact hb.stageFail _
    · exact hb
  split
  · exact hc
  · extract_lets d
    have hd : h.KeepsPending d.hic := pauseAbort (b := updUpd _ c) hc _
    split
    · exact hd.respond _ _ _
    · exact hd

theorem powerFailStop (n : Fin 16) : h.KeepsPending (powerFailStop n b).hic := by
  unfold Machine.powerFailStop
  extract_lets s c
  have hc : h.KeepsPending c.hic := hb
  split
  · split
    · exact hc
    · exact hc.enterPhase n _
  · exact hb

theorem drainCheck : h.KeepsPending (drainCheck b).hic := by
  unfold Machine.drainCheck
  split
  · extract_lets c
    have hc : h.KeepsPending c.hic := by
      refine irq ?_ 392
      exact hb
    split
    · refine respond ?_ _ _ _
      exact hc
    · exact hc
  · exact hb

end

end Hic.KeepsPending

/-! ### The warning (R327, R328) -/

/-- The latches of a warning, and its item in the trace of a recording. -/
def warningNoted (vin : Bool) (b : Block) : Block :=
  let c := updPf (fun p => { p with warn := true, pin := p.pin || !vin, vinLow := p.vinLow || vin }) b
  traceItem 13 0 (now c) ([1, 0] ++ b16 c.lsw.vin) c

theorem warningNoted_frame (vin : Bool) (b : Block) : Block.Only [.pf, .rpl] b (warningNoted vin b) :=
  Block.Only.step (traceItem_frame _ _ _ _ _) (by decide) ((Block.Only.refl _ b).set_pf _ (by decide))

theorem warningNoted_pf (vin : Bool) (b : Block) :
    (warningNoted vin b).pf = { b.pf with warn := true, pin := b.pf.pin || !vin, vinLow := b.pf.vinLow || vin } :=
  (traceItem_frame _ _ _ _ _).pf_eq (by decide)

/-- A power failure begins: a new course of power-fail handling, and a dump in progress is left incomplete. -/
def powerFailBegun (b : Block) : Block :=
  let c := updPf (fun p => { p with
    active := true, at_ := now b, committed := false, late := false, trailing := 0, quiescent := false, cleared := false, time := 0
    begun := false, sealedAt := none, overdue := false, cut := some (BitVec.ofNat 64 (sampleAtOrAfter ((now b).toNat + 1500))) }) b
  { c with dmp := if c.dmp.state = 1 then { c.dmp with state := 3 } else c.dmp }

/-- What it stops: the events of power quality, an update and the sessions. -/
def powerFailStops (b : Block) : Block :=
  forAll allNodes powerFailStop (updatePowerFail (forAll (List.finRange 2) (fun f => pqTruncate f 0) (irq 384 b)))

theorem powerFailWarning_of_unmonitored {vin : Bool} {b : Block} (hvin : vin = true) (hmon : b.pf.vinMon = false) :
    powerFailWarning vin b = b := by
  simp [powerFailWarning, hvin, hmon]

section
variable {vin : Bool} {b : Block} (hsource : vin = false ∨ b.pf.vinMon = true)
include hsource

theorem powerFailWarning_of_repeat (hlate : b.pf.active = true ∨ b.tide.ready = false) : powerFailWarning vin b = warningNoted vin b := by
  have hmon : ¬ (vin && !b.pf.vinMon) = true := by rcases hsource with h | h <;> simp [h]
  have hact : (warningNoted vin b).pf.active = b.pf.active := by rw [warningNoted_pf]
  have hready : (warningNoted vin b).tide = b.tide := (warningNoted_frame vin b).tide_eq (by decide)
  have hskip : (warningNoted vin b).pf.active = true ∨ (!(warningNoted vin b).tide.ready) = true := by
    rwa [hact, hready, Bool.not_eq_true']
  unfold powerFailWarning
  rw [if_neg hmon]
  exact if_pos hskip

theorem powerFailWarning_of_first (hact : b.pf.active = false) (hready : b.tide.ready = true) :
    powerFailWarning vin b = drainCheck (powerFailFreeze (powerFailStops (powerFailBegun (warningNoted vin b)))) := by
  have hmon : ¬ (vin && !b.pf.vinMon) = true := by rcases hsource with h | h <;> simp [h]
  have hact' : (warningNoted vin b).pf.active = b.pf.active := by rw [warningNoted_pf]
  have htide : (warningNoted vin b).tide = b.tide := (warningNoted_frame vin b).tide_eq (by decide)
  have hgo : ¬ ((warningNoted vin b).pf.active = true ∨ (!(warningNoted vin b).tide.ready) = true) := by
    simp [hact', htide, hact, hready]
  unfold powerFailWarning
  rw [if_neg hmon]
  exact if_neg hgo

end

theorem powerFailStops_pf (b : Block) : (powerFailStops b).pf = b.pf := by
  rw [powerFailStops, forAll_keeps (q := Block.pf) (fun n c => (powerFailStop_frame n c).pf_eq (by decide)),
    (updatePowerFail_frame _).pf_eq (by decide), forAll_keeps (q := Block.pf) (fun f c => (pqTruncate_frame f 0 c).pf_eq (by decide)),
    (irq_frame _ _).pf_eq (by decide)]

theorem powerFailStops_raises (b : Block) : Raised (powerFailStops b) 384 := by
  rw [powerFailStops]
  exact (((Hic.KeepsPending.refl _).forAll (fun f _ hc => hc.pqTruncate f 0) _).updatePowerFail.forAll (fun n _ hc => hc.powerFailStop n) _) _
    (irq_pends (n := 384) (by decide) b)

/-- The freeze of R339 stands whether or not it is drained at once. -/
theorem drainCheck_frozen (b : Block) : (drainCheck b).arb.frozen = b.arb.frozen := by
  unfold drainCheck
  split
  · extract_lets c
    have hc : c.arb.frozen = b.arb.frozen :=
      (congrArg Arbiter.frozen ((irq_frame 392 _).arb_eq (by decide))).trans (by rw [updArb_arb])
    split
    · exact (congrArg Arbiter.frozen ((ok_frame _ _ _).arb_eq (by decide))).trans (by rwa [updArb_arb])
    · exact hc
  · rfl

section
variable {vin : Bool} {b : Block} (hsource : vin = false ∨ b.pf.vinMon = true) (hact : b.pf.active = false) (hready : b.tide.ready = true)
include hsource hact hready

theorem powerFailWarning_pf : (powerFailWarning vin b).pf = (powerFailBegun (warningNoted vin b)).pf := by
  rw [powerFailWarning_of_first hsource hact hready, (drainCheck_frame _).pf_eq (by decide), (powerFailFreeze_frame _).pf_eq (by decide),
    powerFailStops_pf]

theorem powerFailWarning_frozen : (powerFailWarning vin b).arb.frozen = true := by
  rw [powerFailWarning_of_first hsource hact hready, drainCheck_frozen]
  rfl

theorem powerFailWarning_raises : Raised (powerFailWarning vin b) 384 := by
  rw [powerFailWarning_of_first hsource hact hready]
  exact ((Hic.KeepsPending.refl _).of_frame (powerFailFreeze_frame _) (by decide)).drainCheck _ (powerFailStops_raises _)

end

/-! ### The commit and the end of the hold (R328 to R330) -/

theorem pfCommitDone_of_sealed {b : Block} {i : U64} (hseal : b.pf.sealedAt = some i) (hact : b.pf.active = true)
    (honce : b.pf.committed = false) : pfCommitDone b =
      irq 385 (updPf (fun p => { p with committed := true, time := BitVec.ofNat 32 (min (2 ^ 32 - 1) (i.toNat - p.at_.toNat)) }) b) := by
  simp [pfCommitDone, hseal, hact, honce]

theorem pfCommitDone_of_unsealed {b : Block} (hseal : b.pf.sealedAt = none) : pfCommitDone b = b := by
  simp [pfCommitDone, hseal]

theorem pfCommitLate_of_due {b : Block} (hact : b.pf.active = true) (hseal : b.pf.sealedAt = none) (honce : b.pf.late = false)
    (hdue : b.pf.at_.toNat + 3000000 ≤ (now b).toNat) : pfCommitLate b = irq 386 (updPf (fun p => { p with late := true }) b) := by
  simp [pfCommitLate, hact, hseal, honce, afterTicks_of_le hdue]

theorem quiescentDue_of_open {b : Block} (hact : b.pf.active = true) (hbegun : b.pf.begun = true) (hover : b.pf.overdue = false)
    (honce : b.pf.quiescent = false) (hcarr : b.rst.carr = true) (hopen : ∀ n, (nodeOf b n).openVerified = true) :
    quiescentDue b = writeEpoch 4 b.acc.applied (debitLines { b with pf := { b.pf with quiescent := true } }) := by
  simp [quiescentDue, quiescentCommit, hact, hbegun, hover, honce, hcarr, hopen]

theorem quiescentDue_of_not {b : Block} (h : b.pf.active = false ∨ b.pf.begun = false ∨ b.pf.overdue = true) : quiescentDue b = b := by
  refine if_neg fun hall => ?_
  obtain ⟨hact, hbegun, hover, -⟩ := hall
  rw [Bool.not_eq_true'] at hover
  simp [hact, hbegun, hover] at h

theorem pfHoldEnd_of_due {b : Block} (hact : b.pf.active = true) (honce : b.pf.overdue = false)
    (hdue : b.pf.at_.toNat + 30000000 ≤ (now b).toNat) : pfHoldEnd b = updPf (fun p => { p with overdue := true }) b := by
  simp [pfHoldEnd, hact, honce, afterTicks_of_le hdue]

theorem powerFailClear_of_due {b : Block} (hact : b.pf.active = true) (hdue : b.pf.at_.toNat + 150000000 ≤ (now b).toNat) :
    powerFailClear b = powerFailCleared b := by
  simp [powerFailClear, hact, afterTicks_of_le hdue]

theorem powerFailClear_of_none {b : Block} (hact : b.pf.active = false) :
    powerFailClear b = updPf (fun p => { p with warn := false, pin := false, vinLow := false }) b := by
  simp [powerFailClear, hact]

/-- The power failure is over once the quiescent commit has been asked for; what is closed and saved after it leaves power-fail handling. -/
theorem powerFailCleared_pf (b : Block) : (powerFailCleared b).pf =
    { (quiescentCommit b).pf with active := false, warn := false, pin := false, vinLow := false, cleared := true, cut := none } := by
  unfold powerFailCleared
  extract_lets c d e f g
  have he : e.pf = d.pf := (traceItem_frame _ _ _ _ _).pf_eq (by decide)
  have hf : f.pf = e.pf := forAll_keeps (q := Block.pf) (fun n x => (closeDeferred_frame n x).pf_eq (by decide)) _ _
  have hg : g.pf = f.pf := by
    unfold g
    split
    · rw [(saveUpdate_frame _).pf_eq (by decide), updUpd_pf]
    · rfl
  rw [(irq_frame _ _).pf_eq (by decide), onlyIf_keeps (q := Block.pf) (fun x => (liftFreeze_frame x).pf_eq (by decide)), hg, hf, he]
  rfl

theorem powerFailCleared_raises (b : Block) : Raised (powerFailCleared b) 387 := irq_pends (n := 387) (by decide) _

end Machine

/-- Settles O45: each command runs the effect named in its clause. The latches of a warning are all it writes while one is active or Tide is
not ready; what a first warning stops leaves its course, and no source pending. -/
theorem powerFailInstants : Obligations.PowerFailInstants := by
  refine ⟨fun s vin hrep hvin hmon => ?_, fun s vin hrep hvin hact => ?_, fun s vin hrep hvin hact hready => ?_,
    fun s i hseal hact honce => ?_, fun s vin hrep hsource hlate => ?_, fun s vin hrep hsource hact hready => ?_, fun s hseal => ?_,
    fun s hact hseal honce hdue => ?_, fun s hact hbegun hover honce hcarr hopen => ?_, fun s hnot => ?_, fun s hact honce hdue => ?_,
    fun s hrep hact => ?_, fun s hrep hact hdue => ?_⟩
  -- POWER_FAIL_WARNING
  · have hx : exec (.powerFailWarning vin) s = .next (s.after (powerFailWarning vin)) := State.input_eq hrep _
    refine ⟨_, hx, execPowerFailWarning_frame vin hx, ?_⟩
    rw [State.after_pf, State.after_sess, powerFailWarning_of_unmonitored hvin hmon]
    exact ⟨rfl, rfl⟩
  · have hx : exec (.powerFailWarning vin) s = .next (s.after (powerFailWarning vin)) := State.input_eq hrep _
    refine ⟨_, hx, execPowerFailWarning_frame vin hx, ?_⟩
    rw [State.after_pf, State.after_sess, powerFailWarning_of_repeat (.inl hvin) (.inl hact), warningNoted_pf, hvin, Bool.or_false,
      Bool.not_false, Bool.or_true]
    exact ⟨rfl, (warningNoted_frame _ _).sess_eq (by decide)⟩
  · have hx : exec (.powerFailWarning vin) s = .next (s.after (powerFailWarning vin)) := State.input_eq hrep _
    have htide : (warningNoted vin s.block).tide = s.block.tide := (warningNoted_frame _ _).tide_eq (by decide)
    refine ⟨_, hx, execPowerFailWarning_frame vin hx, ?_⟩
    rw [State.after_pf, State.after_arb, Raised, State.after_hic, powerFailWarning_pf (.inl hvin) hact hready]
    refine ⟨rfl, ?_, ?_, rfl, rfl, powerFailWarning_frozen (.inl hvin) hact hready, powerFailWarning_raises (.inl hvin) hact hready⟩
    · simp only [powerFailBegun, updPf_pf, now, htide]
    · simp only [powerFailBegun, updPf_pf, warningNoted_pf, hvin, Bool.not_false, Bool.or_true]
  -- PF_COMMIT_DONE
  · refine ⟨s.after pfCommitDone, rfl, execPfCommitDone_frame rfl, ?_⟩
    rw [State.after_pf, Raised, State.after_hic, pfCommitDone_of_sealed hseal hact honce, (irq_frame _ _).pf_eq (by decide)]
    exact ⟨rfl, irq_pends (n := 385) (by decide) _⟩
  -- POWER_FAIL_WARNING from either source
  · have hx : exec (.powerFailWarning vin) s = .next (s.after (powerFailWarning vin)) := State.input_eq hrep _
    refine ⟨_, hx, execPowerFailWarning_frame vin hx, ?_⟩
    rw [State.after_pf, State.after_sess, powerFailWarning_of_repeat hsource hlate, warningNoted_pf]
    exact ⟨rfl, (warningNoted_frame _ _).sess_eq (by decide)⟩
  · have hx : exec (.powerFailWarning vin) s = .next (s.after (powerFailWarning vin)) := State.input_eq hrep _
    refine ⟨_, hx, execPowerFailWarning_frame vin hx, rfl, ?_⟩
    rw [State.after_pf, powerFailWarning_pf hsource hact hready]
    simp only [powerFailBegun, updPf_pf, warningNoted_pf, and_self]
  -- PF_COMMIT_DONE without a seal
  · refine ⟨s.after pfCommitDone, rfl, execPfCommitDone_frame rfl, ?_⟩
    rw [State.after_pf, State.after_hic, pfCommitDone_of_unsealed hseal]
    exact ⟨rfl, rfl⟩
  -- PF_COMMIT_LATE
  · refine ⟨s.after pfCommitLate, rfl, execPfCommitLate_frame rfl, ?_⟩
    rw [State.after_pf, Raised, State.after_hic, pfCommitLate_of_due hact hseal honce hdue, (irq_frame _ _).pf_eq (by decide)]
    exact ⟨rfl, irq_pends (n := 386) (by decide) _⟩
  -- QUIESCENT_COMMIT
  · have heff := quiescentDue_of_open hact hbegun hover honce hcarr hopen
    refine ⟨s.after quiescentDue, rfl, execQuiescentCommit_frame rfl, State.after_block heff, ?_⟩
    rw [State.after_pf, heff, (writeEpoch_frame _ _ _).pf_eq (by decide), (debitLines_frame _).pf_eq (by decide)]
  · refine ⟨s.after quiescentDue, rfl, execQuiescentCommit_frame rfl, ?_⟩
    rw [State.after_pf, State.after_arb, quiescentDue_of_not hnot]
    exact ⟨rfl, rfl⟩
  -- PF_HOLD_END
  · refine ⟨s.after pfHoldEnd, rfl, execPfHoldEnd_frame rfl, ?_⟩
    rw [State.after_pf, pfHoldEnd_of_due hact honce hdue, updPf_pf]
  -- POWER_FAIL_CLEAR
  · have hx : exec .powerFailClear s = .next (s.after powerFailClear) := State.input_eq hrep _
    refine ⟨_, hx, execPowerFailClear_frame hx, ?_⟩
    rw [State.after_pf, powerFailClear_of_none hact, updPf_pf]
  · have hx : exec .powerFailClear s = .next (s.after powerFailClear) := State.input_eq hrep _
    have heff := powerFailClear_of_due hact hdue
    refine ⟨_, hx, execPowerFailClear_frame hx, State.after_block heff, ?_⟩
    rw [State.after_pf, Raised, State.after_hic, heff, powerFailCleared_pf]
    exact ⟨rfl, rfl, rfl, powerFailCleared_raises _⟩

end Sys2Proof
end

section
/-! PROOFS. The signing of readings, the readings held, the tamper record and the end of an authorisation hold (R362, R365 to R368, R405). -/

namespace Sys2Proof

open Machine

namespace Block.Only

variable {l : List Part} {b c : Block}

theorem slt_eq (h : Block.Only l b c) (hp : Part.slt ∉ l) : c.slt = b.slt := h .slt hp
theorem auth_eq (h : Block.Only l b c) (hp : Part.auth ∉ l) : c.auth = b.auth := h .auth hp
theorem key_eq (h : Block.Only l b c) (hp : Part.key ∉ l) : c.key = b.key := h .key hp
theorem btn_eq (h : Block.Only l b c) (hp : Part.btn ∉ l) : c.btn = b.btn := h .btn hp

end Block.Only

namespace Machine

section
variable (s : State) (f : Block → Block)

@[simp] theorem State.after_slt : (s.after f).block.slt = (f s.block).slt := (safetyItem_frame _ _).slt_eq (by decide)
@[simp] theorem State.after_auth : (s.after f).block.auth = (f s.block).auth := (safetyItem_frame _ _).auth_eq (by decide)
@[simp] theorem State.after_key : (s.after f).block.key = (f s.block).key := (safetyItem_frame _ _).key_eq (by decide)
@[simp] theorem State.after_btn : (s.after f).block.btn = (f s.block).btn := (safetyItem_frame _ _).btn_eq (by decide)

end

/-! ### The signature engine (R362, R405) -/

theorem signEngineComplete_of_idle {u : Fin 4} {b : Block} (h : vget b.key.units u = none) (good : Bool) :
    signEngineComplete u good b = b := by
  rw [signEngineComplete, h]

theorem signEngineComplete_of_due {u : Fin 4} {w : EngineWork} {b : Block} (h : vget b.key.units u = some w)
    (hdue : w.at_.toNat + w.op.ticks ≤ (now b).toNat) (good : Bool) :
    signEngineComplete u good b = unitEnds u w.job (if good then .done else .failed) b := by
  rw [signEngineComplete, h]
  exact afterTicks_of_le hdue _

/-- The unit is free, its end noted, and the next work taken. -/
def unitFreed (u : Fin 4) (x : EngineEnd) (b : Block) : Block :=
  engineDispatch (remaskFreed { b with key := { b.key with units := vset b.key.units u none, ends := vset b.key.ends u (some x) } })

theorem unitFreed_frame (u : Fin 4) (x : EngineEnd) (b : Block) : Block.Only [.key, .rpl] b (unitFreed u x b) :=
  .step (engineDispatch_frame _) (by decide) (.step (remaskFreed_frame _) (by decide) ((Block.Only.refl _ b).set_key _ (by decide)))

/-- A signature that failed ends its job as a failed reading. -/
theorem unitEnds_of_failedReading {u : Fin 4} {q : U32} {r : Reading} {b : Block} (hr : signingOf b q = some r) :
    unitEnds u (.reading q) .failed b = readingFailed r (unitFreed u .failed b) := by
  have hslt : (unitFreed u .failed b).slt = b.slt := (unitFreed_frame u .failed b).slt_eq (by decide)
  have hwaits : signingOf (unitFreed u .failed b) q = some r := by rwa [signingOf, hslt]
  unfold unitFreed at hwaits
  simp only [unitEnds, hwaits]
  rfl

/-- The failure is counted. -/
def failureCounted (b : Block) : Block :=
  updSlt (fun s => { s with signFailures := BitVec.ofNat 24 (min (2 ^ 24 - 1) (s.signFailures.toNat + 1)) }) b

theorem readingFailed_of_few {r : Reading} {b : Block} (h : r.failures < 2) :
    readingFailed r b = updSlt (fun s => { s with signing := s.signing.map fun x =>
      if x.sequence = r.sequence then { r with failures := r.failures + 1, retryAt := some (now b + 1500000) } else x }) (failureCounted b) :=
  if_pos h

theorem readingFailed_of_many {r : Reading} {b : Block} (h : 2 ≤ r.failures) :
    readingFailed r b = holdUnsigned r (updSlt (fun s => { s with signing := s.signing.filter fun x => x.sequence != r.sequence })
      (failureCounted b)) :=
  if_neg (Nat.not_lt.mpr h)

theorem holdUnsigned_slt (r : Reading) (b : Block) :
    (holdUnsigned r b).slt = { b.slt with unsigned_ := b.slt.unsigned_ ++ [{ r with failures := 0, retryAt := none }] } :=
  (irq_frame _ _).slt_eq (by decide)

/-! ### Retries (R362) -/

/-- No retry is left for the readings numbered `q`. -/
def retryTaken (q : U32) (b : Block) : Block :=
  updSlt (fun s => { s with signing := s.signing.map fun x => if x.sequence = q then { x with retryAt := none } else x }) b

theorem signRetry_of_due {b : Block} {r : Reading} {i : U64} (hi : nextRetry b.slt.signing = some i)
    (hr : (b.slt.signing.find? fun y => y.retryAt == some i) = some r) (hdue : i.toNat ≤ (now b).toNat) :
    signRetry b = engineSubmit 0 (.reading r.sequence) .p256 (retryTaken r.sequence b) := by
  simp only [signRetry, hi, hr]
  exact atInstant_of_le hdue _

theorem signRetry_of_none {b : Block} (h : nextRetry b.slt.signing = none) : signRetry b = b := by
  rw [signRetry, h]

/-! ### Readings held (R365) -/

theorem heldReadingsFlush_of_none {b : Block} (h : b.slt.held = []) : heldReadingsFlush b = b := if_pos h

theorem heldReadingsFlush_of_held {b : Block} (h : b.slt.held ≠ []) : heldReadingsFlush b = flushHeld b := if_neg h

theorem fullRequeue_of_none {b : Block} (hs : b.slt.held = []) (hb : b.btn.held = none) : fullRequeue b = b := by
  simp [fullRequeue, salternDue, bitternDue, hs, hb]

/-- With readings alone held, they are what is sent once they are due. -/
theorem fullRequeue_of_readings {b : Block} (hs : b.slt.held ≠ []) (hdue : retryAt b.slt.heldTryAt ≤ (now b).toNat)
    (hb : b.btn.held = none) : fullRequeue b = flushHeld b := by
  have hsd : salternDue b = some (retryAt b.slt.heldTryAt) := if_neg hs
  have hbd : bitternDue b = none := by rw [bitternDue, hb]; rfl
  have hcome : isDue b (some (retryAt b.slt.heldTryAt)) = true := decide_eq_true hdue
  simp only [fullRequeue, hsd, hbd, Option.toList_some, Option.toList_none, List.append_nil, List.foldl_nil]
  rw [atInstant_of_le hdue]
  simp only [hsd, hbd, hcome]
  rfl

/-! ### The tamper inputs (R366) -/

/-- Storing events leaves the clock and the open states. -/
theorem storeTamper_foldl (levels : BitVec 4) (is : List Nat) (x : Backup) :
    let y := is.foldl (fun x i => storeTamper (tamperEvent x.rtc i (levels.getLsbD i)) x) x
    y.rtc = x.rtc ∧ y.open_ = x.open_ := by
  induction is generalizing x with
  | nil => exact ⟨rfl, rfl⟩
  | cons i is ih =>
    have hone : ∀ e, (storeTamper e x).rtc = x.rtc ∧ (storeTamper e x).open_ = x.open_ := fun e => by
      unfold storeTamper
      split <;> exact ⟨rfl, rfl⟩
    obtain ⟨hrtc, hopen⟩ := hone (tamperEvent x.rtc i (levels.getLsbD i))
    obtain ⟨hrtc', hopen'⟩ := ih (storeTamper (tamperEvent x.rtc i (levels.getLsbD i)) x)
    exact ⟨hrtc'.trans hrtc, hopen'.trans hopen⟩

/-- Bit `i` of a word of four flags. -/
theorem getLsbD_flags4 (p : Nat → Bool) {i : Nat} (hi : i < 4) :
    (BitVec.ofNat 4 (bitsNat ((List.range 4).map p))).getLsbD i = p i := by
  rw [BitVec.getLsbD_ofNat, testBit_bitsNat, List.getD_eq_getElem _ _ (by simpa using hi)]
  simp [hi]

/-- The inputs with a new state at a sample. -/
def tamperNews (levels : BitVec 4) (x : Backup) : List Nat := (List.range 4).filter (newTamperState x levels)

/-- What a sample makes of the backup domain. -/
def tamperSampled (levels : BitVec 4) (x : Backup) : Backup :=
  let y := { x with rtc := x.rtc + 4096 }
  let z := (tamperNews levels y).foldl (fun x i => storeTamper (tamperEvent x.rtc i (levels.getLsbD i)) x) y
  { z with
    open_ := BitVec.ofNat 4 (bitsNat ((List.range 4).map fun i =>
      if (tamperNews levels y).contains i then levels.getLsbD i else z.open_.getLsbD i))
    lastSample := levels }

theorem tamperSample_backup (levels : BitVec 4) (b : Block) : (tamperSample levels b).backup = tamperSampled levels b.backup := rfl

theorem tamperSampled_rtc (levels : BitVec 4) (x : Backup) : (tamperSampled levels x).rtc = x.rtc + 4096 :=
  (storeTamper_foldl levels _ _).1

theorem tamperSampled_of_none {levels : BitVec 4} {x : Backup}
    (h : ∀ i ∈ List.range 4, newTamperState { x with rtc := x.rtc + 4096 } levels i = false) :
    tamperSampled levels x = { x with rtc := x.rtc + 4096, lastSample := levels } := by
  have hnews : tamperNews levels { x with rtc := x.rtc + 4096 } = [] := 
    List.filter_eq_nil_iff.mpr fun i hi => Bool.eq_false_iff.mp (h i hi)
  have hopen : BitVec.ofNat 4 (bitsNat ((List.range 4).map fun i => x.open_.getLsbD i)) = x.open_ := by
    refine BitVec.eq_of_getLsbD_eq fun i hi => ?_
    exact getLsbD_flags4 _ hi
  simp only [tamperSampled, hnews, List.foldl_nil, List.contains_nil, Bool.false_eq_true, if_false, hopen]

/-- An input with a new state takes it as its open state. -/
theorem tamperSampled_of_new {levels : BitVec 4} {x : Backup} {i : Fin 4}
    (h : newTamperState { x with rtc := x.rtc + 4096 } levels i.val = true) :
    (tamperSampled levels x).open_.getLsbD i.val = levels.getLsbD i.val := by
  have hmem : (tamperNews levels { x with rtc := x.rtc + 4096 }).contains i.val = true :=
    List.contains_iff_mem.mpr (List.mem_filter.mpr ⟨List.mem_range.mpr i.isLt, h⟩)
  refine (getLsbD_flags4 _ i.isLt).trans ?_
  rw [hmem]
  rfl

/-! ### The move of tamper events (R367) -/

/-- The events whose entries are not in flight. -/
def tamperDue (b : Block) : List (List U8) := b.backup.events.filter fun e => !(tamperInFlight b).contains e

/-- Each event as an entry of the legal log, and as an item of the trace of a recording. -/
def tamperEntries (es : List (List U8)) (b : Block) : Block :=
  forAll es (fun e b => legalLog 0x0004 wCarr e (traceItem 11 0 (now b) e b)) b

theorem vbatLog_of_done {b : Block} (h : b.backup.logWait = false) : vbatLog b = b := by
  simp [vbatLog, h]

theorem tamperMove_of_down {b : Block} (h : b.rst.carr = false) : tamperMove b = b := by
  simp [tamperMove, h]

section
variable {b : Block} (hcarr : b.rst.carr = true) (hlog : b.backup.logWait = false)
include hcarr hlog

theorem tamperMove_of_none (hes : tamperDue b = []) : tamperMove b = b := by
  have hes' : (b.backup.events.filter fun e => !(tamperInFlight b).contains e) = [] := hes
  simp only [tamperMove, hcarr, Bool.not_true, Bool.false_eq_true, if_false, vbatLog_of_done hlog, hes', if_true]

theorem tamperMove_of_some (hes : tamperDue b ≠ []) :
    tamperMove b = irq 420 (saveLegalConfig (updSlt (fun s => { s with tamper := true }) (tamperEntries (tamperDue b) b))) := by
  have hes' : ¬ (b.backup.events.filter fun e => !(tamperInFlight b).contains e) = [] := hes
  simp only [tamperMove, hcarr, Bool.not_true, Bool.false_eq_true, if_false, vbatLog_of_done hlog, if_neg hes']
  rfl

end

theorem tamperEntries_slt (es : List (List U8)) (b : Block) : (tamperEntries es b).slt = b.slt :=
  forAll_keeps (q := Block.slt) (fun e c => ((legalLog_frame _ _ _ _).slt_eq (by decide)).trans ((traceItem_frame _ _ _ _ c).slt_eq (by decide)))
    es b

/-- Every event adds one entry that waits for its line. -/
theorem tamperEntries_waiting (es : List (List U8)) (b : Block) :
    (tamperEntries es b).btn.legalWaiting.length = b.btn.legalWaiting.length + es.length := by
  induction es generalizing b with
  | nil => rfl
  | cons e es ih =>
    have hitem : (traceItem 11 0 (now b) e b).btn = b.btn := (traceItem_frame _ _ _ _ b).btn_eq (by decide)
    refine (ih (legalLog 0x0004 wCarr e (traceItem 11 0 (now b) e b))).trans ?_
    simp only [legalLog, hitem, List.length_append, List.length_cons, List.length_nil]
    omega

/-! ### The end of an authorisation hold (R22, R368) -/

theorem authHoldExpired_of_due {n : Fin 16} {b : Block} (hst : (authOf b n).state = 1) (hdue : (authOf b n).until_.toNat ≤ (now b).toNat) :
    authHoldExpired n b = irqLog wCarr 422 n.val (updAuth n (fun _ => {}) b) := by
  simp only [authHoldExpired, hst, if_true]
  exact atInstant_of_le hdue _

theorem authHoldExpired_of_free {n : Fin 16} {b : Block} (hst : (authOf b n).state ≠ 1) : authHoldExpired n b = b := if_neg hst

end Machine

/-- Settles O47: each command runs the effect named in its clause once its instant has come; freeing a unit of the engine leaves the readings,
and moving events leaves the record to the lines that follow. -/
theorem billingInstants : Obligations.BillingInstants := by
  refine ⟨fun s u good hidle => ?_, fun s u good w hw hdue => ?_, fun s u good w q r hw hjob hr hgood hfew hdue => ?_,
    fun s u good w q r hw hjob hr hgood hmany hdue => ?_, fun s r i hi hr hdue => ?_, fun s hnone => ?_, fun s hnone => ?_,
    fun s hheld => ?_, fun s hs hb => ?_, fun s hs hdue hb => ?_, fun s levels hrep hnone => ?_, fun s levels i hrep hnew => ?_,
    fun s hdown => ?_, fun s hcarr hlog hes => ?_, fun s hcarr hlog hes => ?_, fun s hcarr => ?_, fun s hheld => ?_,
    fun s n hst hdue => ?_, fun s n hst => ?_⟩
  -- SIGN_ENGINE_COMPLETE
  · refine ⟨s.after (signEngineComplete u good), rfl, execSignEngineComplete_frame u good rfl, ?_⟩
    rw [State.after_key, State.after_slt, signEngineComplete_of_idle hidle]
    exact ⟨rfl, rfl⟩
  · exact ⟨s.after (signEngineComplete u good), rfl, execSignEngineComplete_frame u good rfl,
      State.after_block (signEngineComplete_of_due hw hdue good)⟩
  · have hnow : now (unitFreed u .failed s.block) = now s.block := congrArg Tide.now ((unitFreed_frame u .failed s.block).tide_eq (by decide))
    refine ⟨s.after (signEngineComplete u good), rfl, execSignEngineComplete_frame u good rfl, ?_⟩
    rw [State.after_slt, signEngineComplete_of_due hw hdue, hjob, hgood]
    simp only [Bool.false_eq_true, if_false, unitEnds_of_failedReading hr, readingFailed_of_few hfew, hnow, failureCounted, updSlt_slt,
      (unitFreed_frame u .failed s.block).slt_eq (by decide), and_self]
  · refine ⟨s.after (signEngineComplete u good), rfl, execSignEngineComplete_frame u good rfl, ?_⟩
    rw [State.after_slt, Raised, State.after_hic, signEngineComplete_of_due hw hdue, hjob, hgood]
    simp only [Bool.false_eq_true, if_false, unitEnds_of_failedReading hr, readingFailed_of_many hmany, holdUnsigned_slt, failureCounted,
      updSlt_slt, (unitFreed_frame u .failed s.block).slt_eq (by decide), true_and]
    exact irq_pends (n := 421) (by decide) _
  -- SIGN_RETRY
  · have heff := signRetry_of_due hi hr hdue
    refine ⟨s.after signRetry, rfl, execSignRetry_frame rfl, ?_, State.after_block heff⟩
    rw [State.after_slt, heff, (engineSubmit_frame _ _ _ _).slt_eq (by decide), retryTaken, updSlt_slt]
  · refine ⟨s.after signRetry, rfl, execSignRetry_frame rfl, ?_⟩
    rw [State.after_slt, State.after_key, signRetry_of_none hnone]
    exact ⟨rfl, rfl⟩
  -- HELD_READINGS_FLUSH
  · refine ⟨s.after heldReadingsFlush, rfl, execHeldReadingsFlush_frame rfl, ?_⟩
    rw [State.after_slt, State.after_qmg, heldReadingsFlush_of_none hnone]
    exact ⟨rfl, rfl⟩
  · exact ⟨s.after heldReadingsFlush, rfl, execHeldReadingsFlush_frame rfl, State.after_block (heldReadingsFlush_of_held hheld)⟩
  -- FULL_REQUEUE
  · refine ⟨s.after fullRequeue, rfl, execFullRequeue_frame rfl, ?_⟩
    rw [State.after_slt, State.after_btn, State.after_qmg, fullRequeue_of_none hs hb]
    exact ⟨rfl, rfl, rfl⟩
  · exact ⟨s.after fullRequeue, rfl, execFullRequeue_frame rfl, State.after_block (fullRequeue_of_readings hs hdue hb)⟩
  -- TAMPER_SAMPLE
  · have hx : exec (.tamperSample levels) s = .next (s.after (tamperSample levels)) := State.input_eq hrep _
    refine ⟨_, hx, execTamperSample_frame levels hx, ?_⟩
    rw [State.after_backup, tamperSample_backup, tamperSampled_of_none hnone]
  · have hx : exec (.tamperSample levels) s = .next (s.after (tamperSample levels)) := State.input_eq hrep _
    refine ⟨_, hx, execTamperSample_frame levels hx, ?_⟩
    rw [State.after_backup, tamperSample_backup, tamperSampled_rtc, tamperSampled_of_new hnew]
    exact ⟨rfl, rfl, rfl⟩
  -- TAMPER_EVENT_MOVE
  · refine ⟨s.after tamperMove, rfl, execTamperEventMove_frame rfl, ?_⟩
    rw [State.after_backup, State.after_btn, tamperMove_of_down hdown]
    exact ⟨rfl, rfl⟩
  · have heff := tamperMove_of_some hcarr hlog hes
    refine ⟨s.after tamperMove, rfl, execTamperEventMove_frame rfl, ?_⟩
    rw [State.after_slt, State.after_btn, Raised, State.after_hic, heff, (irq_frame _ _).slt_eq (by decide), (irq_frame _ _).btn_eq (by decide),
      (saveLegalConfig_frame _).slt_eq (by decide), (saveLegalConfig_frame _).btn_eq (by decide), updSlt_slt, updSlt_btn,
      tamperEntries_slt, tamperEntries_waiting]
    exact ⟨rfl, irq_pends (n := 420) (by decide) _, rfl⟩
  · refine ⟨s.after tamperMove, rfl, execTamperEventMove_frame rfl, ?_⟩
    rw [State.after_slt, State.after_btn, tamperMove_of_none hcarr hlog hes]
    exact ⟨rfl, rfl⟩
  · exact ⟨s.after tamperMove, rfl, execTamperEventMove_frame rfl, rfl⟩
  -- FULL_REQUEUE of what is due
  · exact ⟨s.after fullRequeue, rfl, execFullRequeue_frame rfl, rfl⟩
  -- AUTH_HOLD_EXPIRED
  · have heff := authHoldExpired_of_due hst hdue
    refine ⟨s.after (authHoldExpired n), rfl, execAuthHoldExpired_frame n rfl, ?_⟩
    rw [State.after_auth, Raised, State.after_hic, heff, (irqLog_frame _ _ _ _).auth_eq (by decide)]
    exact ⟨rfl, irqLog_pends (n := 422) (by decide) _ _ _⟩
  · refine ⟨s.after (authHoldExpired n), rfl, execAuthHoldExpired_frame n rfl, ?_⟩
    rw [State.after_auth, State.after_hic, authHoldExpired_of_free hst]
    exact ⟨rfl, rfl⟩

end Sys2Proof
end

section
/-! PROOFS. The commands of the billing family (R351, R356, R362, R365, R366, R368, R382). -/

namespace Sys2Proof

open Machine

namespace Block.Only

variable {l : List Part} {b c : Block}

theorem bri_eq (h : Block.Only l b c) (hp : Part.bri ∉ l) : c.bri = b.bri := h .bri hp

end Block.Only

namespace Machine

@[simp] theorem State.after_bri (s : State) (f : Block → Block) : (s.after f).block.bri = (f s.block).bri :=
  (safetyItem_frame _ _).bri_eq (by decide)

@[simp] theorem slice_length (l : List U8) (o n : Nat) : (slice l o n).length = n := padTo_length _ _

@[simp] theorem ok_slt (m : Fin 4) (p : List U8) (b : Block) : (ok m p b).slt = b.slt := (ok_frame m p b).slt_eq (by decide)
@[simp] theorem ok_auth (m : Fin 4) (p : List U8) (b : Block) : (ok m p b).auth = b.auth := (ok_frame m p b).auth_eq (by decide)
@[simp] theorem ok_bri (m : Fin 4) (p : List U8) (b : Block) : (ok m p b).bri = b.bri := (ok_frame m p b).bri_eq (by decide)
@[simp] theorem ok_hic (m : Fin 4) (p : List U8) (b : Block) : (ok m p b).hic = b.hic := (ok_frame m p b).hic_eq (by decide)
@[simp] theorem saveLegalConfig_slt (b : Block) : (saveLegalConfig b).slt = b.slt := (saveLegalConfig_frame b).slt_eq (by decide)
@[simp] theorem saveLegalConfig_bri (b : Block) : (saveLegalConfig b).bri = b.bri := (saveLegalConfig_frame b).bri_eq (by decide)
@[simp] theorem saveLegalAnswer_slt (m : Fin 4) (p : List U8) (b : Block) : (saveLegalAnswer m p b).slt = b.slt :=
  (saveLegalAnswer_frame m p b).slt_eq (by decide)

/-! ### Checks of a request -/

theorem queueOk_of_none : queueOk 0xFFFF true = true := by decide

theorem nodeCheck_of_lt {m : Fin 4} {b : Block} {st : Nat} (h : (rB b m 0).toNat < 16) : (nodeCheck st b m).2 = true := decide_eq_true h

theorem nodeCheck_of_le {m : Fin 4} {b : Block} {st : Nat} (h : 16 ≤ (rB b m 0).toNat) : (nodeCheck st b m).2 = false :=
  decide_eq_false (Nat.not_lt.mpr h)

/-! ### Boundaries planned anew leave the settings (R353) -/

/-- The settings of Saltern that no boundary touches. -/
def Saltern.settled (x : Saltern) : List U8 × Option U8 × U8 := (x.calPassive, x.pendingInterval, x.clockLimit)

theorem feedBoundary_settled (b : Block) : (feedBoundary b).slt.settled = b.slt.settled := by
  unfold feedBoundary
  split
  · rfl
  · rw [(enqueueBoundary_frame _ _).slt_eq (by decide)]
    rfl

theorem replan_settled (b : Block) : (replan b).slt.settled = b.slt.settled := by
  unfold replan planBoundary
  split
  · rfl
  · split
    · rfl
    · exact feedBoundary_settled _

theorem settled_congr {x y : Saltern} (h : x.settled = y.settled) :
    x.calPassive = y.calPassive ∧ x.pendingInterval = y.pendingInterval ∧ x.clockLimit = y.clockLimit := by
  simpa [Saltern.settled] using h

/-! ### Refused calendars and parameters (R381) -/

/-- A refused message is answered, raises source 424 and leaves Saltern. -/
theorem refuseLegal_of_eq {s : State} {f : Block → Block} {m : Fin 4} {status : Nat} {p : List U8}
    (hf : f s.block = refuseLegal m status p s.block) (hp : p.length ≤ 1016) :
    Answered s (s.after f) m status p ∧ (s.after f).block.slt = s.block.slt ∧ Raised (s.after f).block 424 := by
  refine ⟨answered_of_respond hf ((irq_frame 424 s.block).mbx_eq (by decide)) hp, ?_, ?_⟩
  · rw [State.after_slt, hf, (refuseLegal_frame m status p s.block).slt_eq (by decide)]
  · rw [Raised, State.after_hic, hf, refuseLegal, (respond_frame _ _ _ _).hic_eq (by decide)]
    exact irq_pends (n := 424) (by decide) _

/-! ### Calendars (R351, R352, R382) -/

/-- The bytes of the calendar that the request of mailbox `m` names. -/
def calendarLoaded (m : Fin 4) (b : Block) : List U8 := padTo 1456 (hostDataBytes b (rN b m 0 2) 26)

/-- The counter gone, the records consumed and the entry of the log made, calendar `c` is the passive one. -/
def calendarTaken (m : Fin 4) (c : List U8) (b : Block) : Block :=
  replan (saveLegalAnswer m (slice c 4 12) (updSlt (fun s => { s with calPassive := c })
    (legalLog 0x0020 wCarr ([1, 0, 0, 0] ++ slice c 4 12) (ctrIncrement rqCarr 20 none (hostDataConsume (rN b m 0 2) 26 b)).1)))

theorem calendarTaken_calPassive (m : Fin 4) (c : List U8) (b : Block) : (calendarTaken m c b).slt.calPassive = c := by
  obtain ⟨hpassive, -, -⟩ := settled_congr (replan_settled (saveLegalAnswer m (slice c 4 12) (updSlt (fun s => { s with calPassive := c })
    (legalLog 0x0020 wCarr ([1, 0, 0, 0] ++ slice c 4 12) (ctrIncrement rqCarr 20 none (hostDataConsume (rN b m 0 2) 26 b)).1))))
  rw [calendarTaken, hpassive, saveLegalAnswer_slt, updSlt_slt]

section
variable {m : Fin 4} {b : Block} (hq : queueOk (rN b m 0 2) false = true) (hdata : hostDataCheck b (rN b m 0 2) 26 = 0)
  (hctr : ctrExhausted b 20 = false)
include hq hdata hctr

theorem sltLoadCalendar_of_data :
    sltLoadCalendar m b = match calendarRule b (calendarLoaded m b) with
      | some k => refuseLegal m 0x0C01 [BitVec.ofNat 8 k] b
      | none => calendarTaken m (calendarLoaded m b) b := by
  unfold sltLoadCalendar
  extract_lets q
  rw [checked_cons_pass (x := (6, queueOk q false)) hq, checked_cons_pass (by simp [q, hdata]), checked_nil]
  simp only [q, hctr, Bool.false_eq_true, if_false]
  rfl

theorem sltLoadCalendar_of_failing {k : Nat} (hrule : calendarRule b (calendarLoaded m b) = some k) :
    sltLoadCalendar m b = refuseLegal m 0x0C01 [BitVec.ofNat 8 k] b := by
  rw [sltLoadCalendar_of_data hq hdata hctr, hrule]

theorem sltLoadCalendar_of_passing (hrule : calendarRule b (calendarLoaded m b) = none) :
    sltLoadCalendar m b = calendarTaken m (calendarLoaded m b) b := by
  rw [sltLoadCalendar_of_data hq hdata hctr, hrule]

end

theorem sltLoadCalendar_of_badQueue {m : Fin 4} {b : Block} (hq : queueOk (rN b m 0 2) false = false) :
    sltLoadCalendar m b = refuse m 6 b := by
  unfold sltLoadCalendar
  extract_lets q
  rw [checked_cons_fail (x := (6, queueOk q false)) hq]

/-- The records of the active calendar. -/
def calendarRecords (b : Block) : List (List U8) := (chunks 56 b.slt.calActive).map fun p => mkRecord Config.calendarRecord 56 0 p

theorem sltGetCalendar_of_active {m : Fin 4} {b : Block} (hq : queueOk (rN b m 2 2) false = true) (hw : rN b m 0 1 = 0)
    (hcal : b.slt.calActive ≠ []) :
    sltGetCalendar m b =
      let r := sendRecords agSaltern (rN b m 2 2) (calendarRecords b) b
      if r.2 then ok m (slice b.slt.calActive 4 12) r.1 else refuse m 0x0F04 r.1 := by
  unfold sltGetCalendar
  extract_lets which q c
  have hc : c = b.slt.calActive := if_pos hw
  rw [checked_cons_pass (x := (6, queueOk q false)) hq, checked_cons_pass (by simp [which, hw, hc, hcal]), checked_nil, hc]
  rfl

theorem sltGetCalendar_of_other {m : Fin 4} {b : Block} (hq : queueOk (rN b m 2 2) false = true) (hw : 1 < rN b m 0 1) :
    sltGetCalendar m b = refuse m 0x0C08 b := by
  unfold sltGetCalendar
  extract_lets which q c
  rw [checked_cons_pass (x := (6, queueOk q false)) hq, checked_cons_fail (by simp [which]; omega)]

/-! ### The legal parameters (R356) -/

/-- The parameters of the request of mailbox `m` wait for their line. -/
def legalTaken (m : Fin 4) (b : Block) : Block :=
  let c := rBytes b m 0 80
  replan (saveLegalAnswer m (slice c 4 4) (updSlt (fun s => { s with pendingInterval := some (byteAt c 2), clockLimit := byteAt c 3 })
    (legalLog 0x0021 wCarr ([byteAt c 2, byteAt c 3, 0, 0] ++ slice c 4 4) (ctrIncrement rqCarr 21 none b).1)))

theorem legalTaken_slt (m : Fin 4) (b : Block) :
    (legalTaken m b).slt.pendingInterval = some (byteAt (rBytes b m 0 80) 2) ∧
      (legalTaken m b).slt.clockLimit = byteAt (rBytes b m 0 80) 3 := by
  unfold legalTaken
  extract_lets c
  obtain ⟨-, hint, hlim⟩ := settled_congr (replan_settled (saveLegalAnswer m (slice c 4 4)
    (updSlt (fun s => { s with pendingInterval := some (byteAt c 2), clockLimit := byteAt c 3 })
    (legalLog 0x0021 wCarr ([byteAt c 2, byteAt c 3, 0, 0] ++ slice c 4 4) (ctrIncrement rqCarr 21 none b).1))))
  rw [hint, hlim, saveLegalAnswer_slt, updSlt_slt]
  exact ⟨rfl, rfl⟩

/-- Byte `k` of a run of bytes is the byte at that address. -/
theorem byteAt_readN (mem : Memory) {k n : Nat} (h : k < n) (a : Nat) : byteAt (Memory.readN mem a n) k = mem.read (a + k) := by
  induction n generalizing a k with
  | zero => exact absurd h (Nat.not_lt_zero k)
  | succ n ih =>
    cases k with
    | zero => rfl
    | succ k => exact (ih (Nat.lt_of_succ_lt_succ h) (a + 1)).trans (by rw [Nat.add_right_comm, Nat.add_assoc])

theorem byteAt_rBytes (b : Block) (m : Fin 4) {k n : Nat} (h : k < n) : byteAt (rBytes b m 0 n) k = rB b m k := byteAt_readN _ h _

theorem calB_rBytes (b : Block) (m : Fin 4) {k n : Nat} (h : k < n) : calB (rBytes b m 0 n) k = (rB b m k).toNat :=
  congrArg BitVec.toNat (byteAt_rBytes b m h)

/-- What a request of SLT_SET_LEGAL must hold beside its signature. -/
structure LegalFits (m : Fin 4) (b : Block) : Prop where
  device : calN (rBytes b m 0 80) 8 8 = b.key.serial.toNat
  kind : rB b m 0 = 2
  version : rB b m 1 = 1
  counter : ctrExhausted b 21 = false
  sequence : calN (rBytes b m 0 80) 4 4 = ctrPlanned b 21 + 1
  interval : intervalOk (calB (rBytes b m 0 80) 2) = true
  limitLow : 1 ≤ (rB b m 3).toNat
  limitHigh : (rB b m 3).toNat ≤ 60

/-- The signature of the request of SLT_SET_LEGAL. -/
def legalSigned (m : Fin 4) (b : Block) : Bool := verifySlot b 2 3 ((rBytes b m 0 80).take 16) (slice (rBytes b m 0 80) 16 64)

theorem sltSetLegal_of_unsigned {m : Fin 4} {b : Block} (h : legalSigned m b = false) : sltSetLegal m b = refuseLegal m 0x0C02 [] b := by
  unfold legalSigned at h
  simp only [sltSetLegal, h, Bool.false_and, firstFail, Bool.false_eq_true, if_false]

theorem sltSetLegal_of_signed {m : Fin 4} {b : Block} (hfit : LegalFits m b) (h : legalSigned m b = true) : sltSetLegal m b = legalTaken m b := by
  obtain ⟨hdev, hkind, hver, hctr, hseq, hint, hlow, hhigh⟩ := hfit
  have hk : calB (rBytes b m 0 80) 0 = 2 := by rw [calB_rBytes b m (by decide), hkind]; rfl
  have hv : calB (rBytes b m 0 80) 1 = 1 := by rw [calB_rBytes b m (by decide), hver]; rfl
  have hl : calB (rBytes b m 0 80) 3 = (rB b m 3).toNat := calB_rBytes b m (by decide)
  unfold legalSigned at h
  simp only [sltSetLegal, h, hdev, hk, hv, hctr, hseq, hint, hl, hlow, hhigh, firstFail, beq_self_eq_true, Bool.and_self, Bool.not_false,
    and_self, decide_true, if_true]
  rfl

/-! ### Authorisations (R368) -/

/-- The checks of SLT_AUTHORISE. -/
structure AuthoriseFits (m : Fin 4) (b : Block) : Prop where
  node : (nodeCheck 0x0C05 b m).2 = true
  verdict : 1 ≤ rN b m 1 1 ∧ rN b m 1 1 ≤ 2
  mode : 1 ≤ rN b m 2 1 ∧ rN b m 2 1 ≤ 4
  wallet : rN b m 4 2 ≤ 4095

/-- The decision held, as long as authorisations may be. -/
def decisionHeld (m : Fin 4) (b : Block) : AuthHold :=
  { requestDecision b m with state := 1, until_ := now b + BitVec.ofNat 64 (b.slt.hold.toNat * tSec) }

theorem authOf_updAuth (n : Fin 16) (f : AuthHold → AuthHold) (b : Block) : authOf (updAuth n f b) n = f (authOf b n) := vget_vupd_self _ _ _

theorem sltAuthorise_of_early {m : Fin 4} {b : Block} (hfit : AuthoriseFits m b) (hph : phaseOf b (reqNode b m) ≠ .authorising)
    (hhold : b.slt.hold ≠ 0) :
    sltAuthorise m b = ok m [1, 0, 0, 0, 0, 0, 0, 0, 0, 0, 0, 0, 0, 0, 0, 0] (updAuth (reqNode b m) (fun _ => decisionHeld m b) b) := by
  obtain ⟨hnode, hverdict, hmode, hwallet⟩ := hfit
  unfold sltAuthorise
  extract_lets n verdict mode d
  rw [checked_cons_pass hnode, checked_cons_pass (by simp [verdict, mode, hverdict, hmode]), checked_cons_pass (by simp [hwallet]), checked_nil]
  simp only [n, hph, if_false, hhold, authAnswer, authOf_updAuth]
  rfl

theorem sltAuthorise_of_badVerdict {m : Fin 4} {b : Block} (hnode : (nodeCheck 0x0C05 b m).2 = true)
    (hverdict : rN b m 1 1 = 0 ∨ 2 < rN b m 1 1) : sltAuthorise m b = refuse m 0x0C08 b := by
  unfold sltAuthorise
  extract_lets n verdict mode d
  rw [checked_cons_pass hnode, checked_cons_fail (by simp [verdict]; omega)]

/-! ### Registers and readings (R382) -/

/-- The registers of a scope as SLT_READ_REGISTERS answers them. -/
def scopePayload (v : Vector TariffReg 16) (d r : Acc) (fl : U8) : List U8 :=
  v.toList.flatMap (fun (x : TariffReg) => b64 (exportAcc x.del) ++ b64 (exportAcc x.rec_)) ++ b64 (exportAcc d) ++ b64 (exportAcc r) ++ [fl]

theorem scopePayload_length (v : Vector TariffReg 16) (d r : Acc) (fl : U8) : (scopePayload v d r fl).length = 273 := by
  simp [scopePayload, List.length_flatMap]

theorem sltReadRegisters_of_scope {m : Fin 4} {b : Block} {v : Vector TariffReg 16} {d r : Acc} {fl : U8}
    (h : scopeRegs b (rN b m 0 1) (rN b m 1 1) = some (v, d, r, fl)) : sltReadRegisters m b = ok m (scopePayload v d r fl) b := by
  rw [sltReadRegisters, h]
  rfl

theorem sltReadRegisters_of_none {m : Fin 4} {b : Block} (h : scopeRegs b (rN b m 0 1) (rN b m 1 1) = none) :
    sltReadRegisters m b = refuse m 0x0C06 b := by
  rw [sltReadRegisters, h]

/-- Readings handed back to the engine are no longer held unsigned, and their numbers stay. -/
theorem signHeldAgain_slt (b : Block) : (signHeldAgain b).slt.unsigned_ = [] ∧ (signHeldAgain b).slt.readingSeq = b.slt.readingSeq := by
  have hkeep : ∀ x : Reading, ∀ c : Block, (engineSubmit 0 (.reading x.sequence) .p256
      (updSlt (fun s => { s with signing := s.signing ++ [{ x with noBuffer := false }] }) c)).slt =
        { c.slt with signing := c.slt.signing ++ [{ x with noBuffer := false }] } := fun x c =>
    (engineSubmit_frame _ _ _ _).slt_eq (by decide)
  refine ⟨?_, ?_⟩
  · exact forAll_keeps (q := fun c => c.slt.unsigned_) (fun x c => by rw [hkeep]) _ _
  · exact forAll_keeps (q := fun c => c.slt.readingSeq) (fun x c => by rw [hkeep]) _ _

theorem takeReading_slt (x : ReadingSpec) (b : Block) :
    (takeReading x b).slt.readingSeq = b.slt.readingSeq + 1 ∧ (takeReading x b).slt.unsigned_ = b.slt.unsigned_ := by
  unfold takeReading
  extract_lets fl seq src r
  rw [(engineSubmit_frame _ _ _ _).slt_eq (by decide)]
  exact ⟨rfl, rfl⟩

/-- A reading of the hub. -/
def hubReading (b : Block) : ReadingSpec := { kind := 4, stamp := b.acc.applied, entries := hubEntries b }

theorem sltSignReading_of_hub {m : Fin 4} {b : Block} (hs : rN b m 0 1 = 3) (hi : rN b m 1 1 = 0) :
    sltSignReading m b = ok m (b32 (b.slt.readingSeq + 1)) (takeReading (hubReading b) (signHeldAgain b)) := by
  unfold sltSignReading
  extract_lets scope index n c good
  have hgood : good = true := by simp [good, scope, index, hs, hi]
  obtain ⟨hseq, -⟩ := takeReading_slt (hubReading b) (signHeldAgain b)
  rw [checked_cons_pass (x := (0x0C06, good)) hgood, checked_nil]
  simp only [scope, hs, if_true]
  rw [← (signHeldAgain_slt b).2, ← hseq]
  rfl

theorem sltSignReading_of_badConnector {m : Fin 4} {b : Block} (hs : rN b m 0 1 = 2) (hi : 16 ≤ rN b m 1 1) :
    sltSignReading m b = refuse m 0x0C06 b := by
  unfold sltSignReading
  extract_lets scope index n c good
  have hgood : good = false := by simp [good, scope, index, hs, Nat.not_lt.mpr hi]
  rw [checked_cons_fail (x := (0x0C06, good)) hgood]

/-! ### Flags cleared (R36, R382) -/

theorem sltClearFlags_of_unauthorised {m : Fin 4} {b : Block} (h : (authorise m 8 (rN b m 4 2) b).2 = false) :
    sltClearFlags m b = refuse m 0x0C07 (authorise m 8 (rN b m 4 2) b).1 := by
  simp only [sltClearFlags, h, Bool.not_false, if_true]

/-- What an authorised SLT_CLEAR_FLAGS without the wallet bit clears. -/
def flagsCleared (fl : Nat) (b : Block) : Block :=
  onlyIf (bitOf fl 1) (updSlt fun s => { s with tamper := false }) (onlyIf (bitOf fl 0) clearUnproven b)

theorem flagsCleared_slt (fl : Nat) (b : Block) : (flagsCleared fl b).slt.tamper = (b.slt.tamper && !bitOf fl 1) := by
  have hclear : (onlyIf (bitOf fl 0) clearUnproven b).slt = b.slt := onlyIf_keeps (f := clearUnproven) (q := Block.slt) (fun _ => rfl) _ _
  unfold flagsCleared
  cases bitOf fl 1
  · simp [onlyIf] at hclear ⊢
    rw [hclear]
  · simp [onlyIf]

theorem flagsCleared_bri (fl : Nat) (b : Block) : (flagsCleared fl b).bri = b.bri :=
  (onlyIf_keeps (f := updSlt _) (q := Block.bri) (fun _ => rfl) _ _).trans (onlyIf_keeps (f := clearUnproven) (q := Block.bri) (fun _ => rfl) _ _)

theorem flagsCleared_mbx (fl : Nat) (b : Block) : (flagsCleared fl b).mbx = b.mbx :=
  (onlyIf_keeps (f := updSlt _) (q := Block.mbx) (fun _ => rfl) _ _).trans (onlyIf_keeps (f := clearUnproven) (q := Block.mbx) (fun _ => rfl) _ _)

/-- The entry and the line of what was cleared. -/
def flagsLogged (fl w : Nat) (b : Block) : Block :=
  saveLegalConfig (legalLog 0x0012 wCarr (leBytes 2 0x0C08 ++ [0, 0] ++ leBytes 4 fl ++ leBytes 2 w) (flagsCleared fl b))

theorem sltClearFlags_of_authorised {m : Fin 4} {b : Block} (h : (authorise m 8 (rN b m 4 2) b).2 = true)
    (hw : bitOf (rN b m 0 1) 2 = false) :
    sltClearFlags m b = ok m [BitVec.ofNat 8 (rN b m 0 1)]
      (flagsLogged (rN b m 0 1) (rN b m 2 2) (authorise m 8 (rN b m 4 2) b).1) := by
  unfold sltClearFlags
  extract_lets fl w a
  have ha : a.2 = true := h
  have hfl : bitOf fl 2 = false := hw
  rw [ha, if_neg (by decide), checked_cons_pass (by simp [hfl]), checked_nil]
  simp only [hfl]
  rfl

/-! ### The settings of the output (R365, R382) -/

/-- The hold and the queue of the request of mailbox `m`. -/
def outputSet (m : Fin 4) (b : Block) : Block :=
  saveLegalConfig (updSlt (fun s => { s with hold := BitVec.ofNat 10 (rN b m 0 2), readingQueue := r16 b m 2 }) b)

theorem flushHeld_of_noQueue {b : Block} (h : b.slt.readingQueue = 0xFFFF) : flushHeld b = noteHeld b := if_pos h

/-- The limit of what is held leaves the settings of the output. -/
theorem noteHeld_output (b : Block) : (noteHeld b).slt.hold = b.slt.hold ∧ (noteHeld b).slt.readingQueue = b.slt.readingQueue := by
  unfold noteHeld
  extract_lets n
  split
  · rw [(irq_frame _ _).slt_eq (by decide)]
    exact ⟨rfl, rfl⟩
  · split <;> exact ⟨rfl, rfl⟩

theorem sltSetOutput_of_noQueue {m : Fin 4} {b : Block} (hhold : rN b m 0 2 ≤ 600) (hq : rN b m 2 2 = 0xFFFF) :
    sltSetOutput m b = ok m [] (flushHeld (outputSet m b)) := by
  rw [sltSetOutput, checked_cons_pass (decide_eq_true hhold), checked_cons_pass (by rw [hq]; exact queueOk_of_none), checked_nil]
  rfl

theorem sltSetOutput_of_longHold {m : Fin 4} {b : Block} (hhold : 600 < rN b m 0 2) : sltSetOutput m b = refuse m 0x0C08 b :=
  checked_cons_fail (decide_eq_false (Nat.not_le.mpr hhold)) _ _

end Machine

/-- Settles O48: each command answers what its clause reads off the request, and what it changes of Saltern outlasts the boundaries planned
anew and the readings flushed after it. -/
theorem billingCommands : Obligations.BillingCommands := by
  refine ⟨fun s m ha hq hdata hctr => ?_, fun s m ha hq => ?_, fun s m ha hq hw hcal => ?_, fun s m ha hq hw => ?_,
    fun s m ha hdev hkind hver hctr hseq hint hlow hhigh => ?_, fun s m ha hnode hv1 hv2 hm1 hm2 hwal hph hhold => ?_,
    fun s m ha hnode hverdict => ?_, fun s m ha hnode hv1 hv2 hm1 hm2 hwal hph => ?_, fun s m v d r fl ha hscope => ?_,
    fun s m ha hscope => ?_, fun s m ha hs hi => ?_, fun s m ha hs hi => ?_, fun s m ha => ?_, fun s m ha => ?_,
    fun s m ha hhold hq => ?_, fun s m ha hhold => ?_, fun s m ha => ?_⟩
  -- SLT_LOAD_CALENDAR
  · have hx : exec (.sltLoadCalendar m) s = .next (s.after (sltLoadCalendar m)) := run_of_asked ha _
    refine ⟨_, hx, execSltLoadCalendar_frame m hx, fun k hrule => ?_, fun hrule => ?_⟩
    · exact refuseLegal_of_eq (sltLoadCalendar_of_failing hq hdata hctr hrule) (by simp)
    · rw [State.after_slt, sltLoadCalendar_of_passing hq hdata hctr hrule, calendarTaken_calPassive]
      rfl
  · have hx : exec (.sltLoadCalendar m) s = .next (s.after (sltLoadCalendar m)) := run_of_asked ha _
    have heff := sltLoadCalendar_of_badQueue hq
    exact ⟨_, hx, execSltLoadCalendar_frame m hx, answered_of_refuse heff, (after_refuse_frame heff).slt_eq (by decide)⟩
  -- SLT_GET_CALENDAR
  · have hx : exec (.sltGetCalendar m) s = .next (s.after (sltGetCalendar m)) := run_of_asked ha _
    have heff := sltGetCalendar_of_active hq hw hcal
    have hsend := sendRecords_frame agSaltern (rN s.block m 2 2) (calendarRecords s.block) s.block
    have hmbx := hsend.mbx_eq (by decide)
    have hslt := hsend.slt_eq (by decide)
    refine ⟨_, hx, execSltGetCalendar_frame m hx, ?_, ?_⟩
    · change if (sendRecords agSaltern (rN s.block m 2 2) (calendarRecords s.block) s.block).2 then _ else _
      split
      · next hall => exact answered_of_respond (heff.trans (if_pos hall)) hmbx (by simp)
      · next hall => exact answered_of_respond (heff.trans (if_neg hall)) hmbx (by simp)
    · rw [State.after_slt, heff]
      dsimp only
      split
      · rw [ok_slt, hslt]
      · rw [(refuse_frame _ _ _).slt_eq (by decide), hslt]
  · have hx : exec (.sltGetCalendar m) s = .next (s.after (sltGetCalendar m)) := run_of_asked ha _
    have heff := sltGetCalendar_of_other hq hw
    exact ⟨_, hx, execSltGetCalendar_frame m hx, answered_of_refuse heff, (after_refuse_frame heff).qmg_eq (by decide)⟩
  -- SLT_SET_LEGAL
  · have hx : exec (.sltSetLegal m) s = .next (s.after (sltSetLegal m)) := run_of_asked ha _
    refine ⟨_, hx, execSltSetLegal_frame m hx, fun hbad => ?_, fun hgood => ?_⟩
    · obtain ⟨hans, hslt, -⟩ := refuseLegal_of_eq (sltSetLegal_of_unsigned hbad) (by simp)
      exact ⟨hans, hslt⟩
    · have hfit : LegalFits m s.block := ⟨hdev, hkind, hver, hctr, hseq, hint, hlow, hhigh⟩
      rw [State.after_slt, sltSetLegal_of_signed hfit hgood, (legalTaken_slt m s.block).1, (legalTaken_slt m s.block).2,
        byteAt_rBytes _ _ (by decide), byteAt_rBytes _ _ (by decide)]
      exact ⟨rfl, rfl⟩
  -- SLT_AUTHORISE
  · have hx : exec (.sltAuthorise m) s = .next (s.after (sltAuthorise m)) := run_of_asked ha _
    have heff := sltAuthorise_of_early ⟨hnode, ⟨hv1, hv2⟩, ⟨hm1, hm2⟩, hwal⟩ hph hhold
    refine ⟨_, hx, execSltAuthorise_frame m hx, answered_of_respond heff rfl (by simp), ?_⟩
    rw [authOf, State.after_auth, heff, ok_auth]
    exact authOf_updAuth _ _ _
  · have hx : exec (.sltAuthorise m) s = .next (s.after (sltAuthorise m)) := run_of_asked ha _
    have heff := sltAuthorise_of_badVerdict hnode hverdict
    exact ⟨_, hx, execSltAuthorise_frame m hx, answered_of_refuse heff, (after_refuse_frame heff).auth_eq (by decide)⟩
  · have hx : exec (.sltAuthorise m) s = .next (s.after (sltAuthorise m)) := run_of_asked ha _
    exact ⟨_, hx, execSltAuthorise_frame m hx, rfl⟩
  -- SLT_READ_REGISTERS
  · have hx : exec (.sltReadRegisters m) s = .next (s.after (sltReadRegisters m)) := run_of_asked ha _
    refine ⟨_, hx, execSltReadRegisters_frame m hx, ?_⟩
    exact answered_of_respond (sltReadRegisters_of_scope hscope) rfl ((scopePayload_length v d r fl).trans_le (by decide))
  · have hx : exec (.sltReadRegisters m) s = .next (s.after (sltReadRegisters m)) := run_of_asked ha _
    exact ⟨_, hx, execSltReadRegisters_frame m hx, answered_of_refuse (sltReadRegisters_of_none hscope)⟩
  -- SLT_SIGN_READING
  · have hx : exec (.sltSignReading m) s = .next (s.after (sltSignReading m)) := run_of_asked ha _
    have heff := sltSignReading_of_hub hs hi
    have hmbx : (takeReading (hubReading s.block) (signHeldAgain s.block)).mbx = s.block.mbx :=
      ((takeReading_frame _ _).mbx_eq (by decide)).trans ((signHeldAgain_frame _).mbx_eq (by decide))
    obtain ⟨hunsigned, hkept⟩ := signHeldAgain_slt s.block
    obtain ⟨hseq, hstill⟩ := takeReading_slt (hubReading s.block) (signHeldAgain s.block)
    refine ⟨_, hx, execSltSignReading_frame m hx, answered_of_respond heff hmbx (by simp), ?_⟩
    rw [State.after_slt, heff, ok_slt, hseq, hstill, hunsigned, hkept]
    exact ⟨rfl, rfl⟩
  · have hx : exec (.sltSignReading m) s = .next (s.after (sltSignReading m)) := run_of_asked ha _
    have heff := sltSignReading_of_badConnector hs hi
    exact ⟨_, hx, execSltSignReading_frame m hx, answered_of_refuse heff, (after_refuse_frame heff).slt_eq (by decide),
      (after_refuse_frame heff).key_eq (by decide)⟩
  -- SLT_GET_TAMPER
  · have hx : exec (.sltGetTamper m) s = .next (s.after (sltGetTamper m)) := run_of_asked ha _
    exact ⟨_, hx, execSltGetTamper_frame m hx, answered_of_respond (b := s.block) rfl rfl (by simp)⟩
  -- SLT_CLEAR_FLAGS
  · have hx : exec (.sltClearFlags m) s = .next (s.after (sltClearFlags m)) := run_of_asked ha _
    have hauth := authorise_frame m 8 (rN s.block m 4 2) s.block
    refine ⟨_, hx, execSltClearFlags_frame m hx, fun hno => ?_, fun hyes hw => ?_⟩
    · have heff := sltClearFlags_of_unauthorised hno
      refine ⟨answered_of_respond heff (authorise_mbx _ _ _ _) (by simp), ?_⟩
      rw [State.after_slt, heff, (refuse_frame _ _ _).slt_eq (by decide), hauth.slt_eq (by decide)]
    · have heff := sltClearFlags_of_authorised hyes hw
      have hmbx : (flagsLogged (rN s.block m 0 1) (rN s.block m 2 2) (authorise m 8 (rN s.block m 4 2) s.block).1).mbx = s.block.mbx := by
        rw [flagsLogged, saveLegalConfig_mbx, (legalLog_frame _ _ _ _).mbx_eq (by decide), flagsCleared_mbx, authorise_mbx]
      refine ⟨?_, ?_, answered_of_respond heff hmbx (by simp)⟩
      · rw [State.after_slt, heff, ok_slt, flagsLogged, saveLegalConfig_slt, (legalLog_frame _ _ _ _).slt_eq (by decide), flagsCleared_slt,
          hauth.slt_eq (by decide)]
      · rw [State.after_bri, heff, ok_bri, flagsLogged, saveLegalConfig_bri, (legalLog_frame _ _ _ _).bri_eq (by decide), flagsCleared_bri,
          hauth.bri_eq (by decide)]
  -- SLT_SET_OUTPUT
  · have hx : exec (.sltSetOutput m) s = .next (s.after (sltSetOutput m)) := run_of_asked ha _
    have heff := sltSetOutput_of_noQueue hhold hq
    have hset : (outputSet m s.block).slt = { s.block.slt with hold := BitVec.ofNat 10 (rN s.block m 0 2), readingQueue := 0xFFFF } := by
      rw [outputSet, saveLegalConfig_slt, updSlt_slt, r16, hq]
      rfl
    have hmbx : (flushHeld (outputSet m s.block)).mbx = s.block.mbx :=
      ((flushHeld_frame _).mbx_eq (by decide)).trans (saveLegalConfig_mbx _)
    obtain ⟨hheld, hqueue⟩ := noteHeld_output (outputSet m s.block)
    refine ⟨_, hx, execSltSetOutput_frame m hx, answered_of_respond heff hmbx (by simp), ?_⟩
    rw [State.after_slt, heff, ok_slt, flushHeld_of_noQueue (by rw [hset]), hheld, hqueue, hset]
    exact ⟨rfl, rfl⟩
  · have hx : exec (.sltSetOutput m) s = .next (s.after (sltSetOutput m)) := run_of_asked ha _
    have heff := sltSetOutput_of_longHold hhold
    exact ⟨_, hx, execSltSetOutput_frame m hx, answered_of_refuse heff, (after_refuse_frame heff).slt_eq (by decide)⟩
  -- SLT_SET_TAMPER
  · have hx : exec (.sltSetTamper m) s = .next (s.after (sltSetTamper m)) := run_of_asked ha _
    refine ⟨_, hx, execSltSetTamper_frame m hx, answered_of_respond (b := updBackup _ s.block) rfl rfl (by simp), ?_⟩
    rw [State.after_backup, sltSetTamper, (ok_frame _ _ _).backup_eq (by decide), updBackup_backup]

end Sys2Proof
end

section
/-! PROOFS. The commands of the credit family (R369 to R371, R376, R378, R383). -/

namespace Sys2Proof

open Machine

namespace Machine

/-- Every check of a list without a failing one holds. -/
theorem holds_of_firstFail_none {l : List (Nat × Bool)} (h : firstFail l = none) : ∀ x ∈ l, x.2 = true := by
  induction l with
  | nil => exact fun x hx => absurd hx List.not_mem_nil
  | cons y l ih =>
    obtain ⟨status, holds⟩ := y
    cases holds with
    | false => cases h
    | true => exact List.forall_mem_cons.mpr ⟨rfl, ih h⟩

/-- A value other than the default is read back, whatever the list. -/
theorem sget_sput_of_ne {α : Type} [DecidableEq α] {d v : α} (hv : v ≠ d) (l : List (Nat × α)) (k : Nat) : sget d (sput d l k v) k = v := by
  induction l with
  | nil => simp [sput, sget, hv]
  | cons e l ih =>
    obtain ⟨j, x⟩ := e
    simp only [sput, if_neg hv]
    split
    · simp [sget]
    · split
      · simp [sget]
      · next hne => simpa [sget, Ne.symm hne] using ih

/-! ### Wallets (R369) -/

theorem ne_default_of_state {x : Wallet} (h : x.state ≠ 0) : x ≠ {} := fun hx => h (by rw [hx])

theorem walletOf_setWallet {x : Wallet} (h : x.state ≠ 0) (w : Nat) (b : Block) : walletOf (setWallet w x b) w = x :=
  sget_sput_of_ne (ne_default_of_state h) _ _

/-- Storing a wallet changes what Brine knows of it by the sequence number alone. -/
theorem saveWallet_bri (w : Nat) (b : Block) : (saveWallet w b).bri = (setWallet w { walletOf b w with ledgerSeq := b.bri.seq } b).bri :=
  (twinWrite_frame _ _ _ _ _).bri_eq (by decide)

theorem walletOf_congr {b c : Block} (h : c.bri = b.bri) (w : Nat) : walletOf c w = walletOf b w := by
  rw [walletOf, h]
  rfl

theorem walletOf_saveWallet {w : Nat} {b : Block} (h : (walletOf b w).state ≠ 0) :
    walletOf (saveWallet w b) w = { walletOf b w with ledgerSeq := b.bri.seq } :=
  (walletOf_congr (saveWallet_bri w b) w).trans (walletOf_setWallet (x := { walletOf b w with ledgerSeq := b.bri.seq }) h w b)

/-! ### Messages to a wallet (R370, R371) -/

/-- A transfer after which the books balance. -/
theorem transfer_of_balanced {f : Block → Block} {b : Block} (h : (transfer f b).2 = true) :
    (transfer f b).1 = updBri (fun r => { r with balanced := true }) (f b) := by
  by_cases hd : creditDifference (f b) = 0
  · simp only [transfer, hd, if_true]
    rfl
  · simp [transfer, hd] at h

theorem selfLineAs_bri (act : StoreAct) (event : Nat) (conn : Option (Fin 16)) (w : Option Nat) (amount after : U64) (session seq : U32)
    (b : Block) : (selfLineAs act event conn w amount after session seq b).bri = { b.bri with seq := b.bri.seq + 1 } :=
  (peatRequest_frame _ _ _ _ _).bri_eq (by decide)

theorem Hic.KeepsPending.selfLineAs {h : Hic} {b : Block} (hb : h.KeepsPending b.hic) (act : StoreAct) (event : Nat) (conn : Option (Fin 16))
    (w : Option Nat) (amount after : U64) (session seq : U32) : h.KeepsPending (selfLineAs act event conn w amount after session seq b).hic := by
  refine peatRequest ?_ _ _ _ _
  exact hb

/-- The wallet, amount and sequence number of the message in mailbox `m`. -/
def messageWallet (m : Fin 4) (b : Block) : Nat := natAt (rBytes b m 0 96) 2 2
def messageAmount (m : Fin 4) (b : Block) : U64 := BitVec.ofNat 64 (natAt (rBytes b m 0 96) 16 8)
def messageSeq (m : Fin 4) (b : Block) : U32 := BitVec.ofNat 32 (natAt (rBytes b m 0 96) 12 4)

/-- The transfer of the message in mailbox `m`. -/
def messageMove (kind : Nat) (m : Fin 4) (b : Block) : Block → Block :=
  ledgerMove kind (messageWallet m b) (messageAmount m b) (messageSeq m b)

/-- The interrupt source of a message of kind `kind`. -/
def messageSource (kind : Nat) : Nat := if kind = 1 then 428 else 429

/-- An accepted message moves its amount, takes its counter and raises its source. -/
def messageMoved (kind : Nat) (m : Fin 4) (b : Block) : Block :=
  irq (messageSource kind) (ctrIncrement rqBrine (groupCtr (messageWallet m b)) none (transfer (messageMove kind m b) b).1).1

/-- Its SELF line is written; the answer waits for it. -/
def messageWritten (kind : Nat) (m : Fin 4) (b : Block) : Block :=
  selfLineAs (.answer m (b64 (walletOf (messageMoved kind m b) (messageWallet m b)).balance ++ b32 (messageSeq m b))) (if kind = 1 then 1 else 4) none
    (some (messageWallet m b)) (messageAmount m b) 0 0 (messageSeq m b) (messageMoved kind m b)

section
variable {kind : Nat} {m : Fin 4} {b : Block}

theorem ledgerMessage_of_failing {k : Nat} (h : firstFail (ledgerChecks b kind (rBytes b m 0 96)) = some k) :
    ledgerMessage kind m b = refuse m k (irq 431 (updBri (fun r => { r with rejectCnt := satInc r.rejectCnt }) b)) := by
  rw [ledgerMessage]
  simp only [h]

/-- A message that fails a check is answered with its status, counted and raises source 431. -/
theorem after_ledgerMessage_of_failing {s : State} {k : Nat} (h : firstFail (ledgerChecks s.block kind (rBytes s.block m 0 96)) = some k) :
    Answered s (s.after (ledgerMessage kind m)) m k [] ∧
      (s.after (ledgerMessage kind m)).block.bri = { s.block.bri with rejectCnt := satInc s.block.bri.rejectCnt } ∧
      Raised (s.after (ledgerMessage kind m)).block 431 := by
  have heff := ledgerMessage_of_failing h
  refine ⟨answered_of_respond heff ((irq_frame _ _).mbx_eq (by decide)) (by simp), ?_, ?_⟩
  · rw [State.after_bri, heff, (refuse_frame _ _ _).bri_eq (by decide), (irq_frame _ _).bri_eq (by decide), updBri_bri]
  · rw [Raised, State.after_hic, heff, (refuse_frame _ _ _).hic_eq (by decide)]
    exact irq_pends (n := 431) (by decide) _

variable (hchecks : firstFail (ledgerChecks b kind (rBytes b m 0 96)) = none) (hbalance : (transfer (messageMove kind m b) b).2 = true)

include hchecks in
/-- The wallet of an accepted message is in use after it: a top-up opens an unused one, and a refund has one in use. -/
theorem messageWallet_state (hkind : kind = 1 ∨ kind = 2) :
    (walletAfter kind (messageAmount m b) (messageSeq m b) (walletOf b (messageWallet m b))).state ≠ 0 := by
  have hstate := holds_of_firstFail_none hchecks
    (0x0D06, (walletOf b (messageWallet m b)).state == 1 || (walletOf b (messageWallet m b)).state == 2 ||
      ((walletOf b (messageWallet m b)).state == 0 && bitOf (natAt (rBytes b m 0 96) 27 1) 0 && kind == 1)) (by simp [ledgerChecks, messageWallet])
  rcases hkind with rfl | rfl
  · simp only [walletAfter, if_true]
    split
    · decide
    · assumption
  · intro hzero
    have hzero' : (walletOf b (messageWallet m b)).state = 0 := hzero
    simp [hzero'] at hstate

include hbalance in
theorem messageMoved_bri : (messageMoved kind m b).bri = { (messageMove kind m b b).bri with balanced := true } := by
  rw [messageMoved, (irq_frame _ _).bri_eq (by decide), (ctrIncrement_frame _ _ _ _).bri_eq (by decide), transfer_of_balanced hbalance]
  rfl

include hbalance in
theorem messageWritten_bri : (messageWritten kind m b).bri =
    { (messageMove kind m b b).bri with balanced := true, seq := (messageMove kind m b b).bri.seq + 1 } := by
  rw [messageWritten, selfLineAs_bri, messageMoved_bri hbalance]

theorem messageWritten_pends : Hic.KeepsPending (messageMoved kind m b).hic (messageWritten kind m b).hic :=
  (Hic.KeepsPending.refl _).selfLineAs _ _ _ _ _ _ _ _

theorem messageMoved_raised_topup : Raised (messageMoved 1 m b) 428 := irq_pends (n := 428) (by decide) _

theorem messageMoved_raised_refund : Raised (messageMoved 2 m b) 429 := irq_pends (n := 429) (by decide) _

include hchecks hbalance in
theorem walletOf_messageWritten (hkind : kind = 1 ∨ kind = 2) :
    walletOf (messageWritten kind m b) (messageWallet m b) =
      walletAfter kind (messageAmount m b) (messageSeq m b) (walletOf b (messageWallet m b)) := by
  have hwallets : (messageWritten kind m b).bri.wallets = (setWallet (messageWallet m b)
      (walletAfter kind (messageAmount m b) (messageSeq m b) (walletOf b (messageWallet m b))) b).bri.wallets := by
    rw [messageWritten_bri hbalance, messageMove, ledgerMove, updBri_bri]
    dsimp only
    split <;> rfl
  rw [walletOf, hwallets]
  exact walletOf_setWallet (messageWallet_state hchecks hkind) _ _

include hchecks hbalance in
theorem ledgerMessage_of_accepted :
    ledgerMessage kind m b = if kind = 1 then saveWallet (messageWallet m b) (messageWritten kind m b) else messageWritten kind m b := by
  have hbal : (transfer (ledgerMove kind (natAt (rBytes b m 0 96) 2 2) (BitVec.ofNat 64 (natAt (rBytes b m 0 96) 16 8))
      (BitVec.ofNat 32 (natAt (rBytes b m 0 96) 12 4))) b).2 = true := hbalance
  rw [ledgerMessage]
  simp only [hchecks, hbal, Bool.not_true, Bool.false_eq_true, if_false]
  rfl

end

/-- A top-up adds its amount to the wallet and to the sum of top-ups. -/
theorem topup_moves {m : Fin 4} {b : Block} (hchecks : firstFail (ledgerChecks b 1 (rBytes b m 0 96)) = none)
    (hbalance : (transfer (messageMove 1 m b) b).2 = true) :
    (walletOf (ledgerMessage 1 m b) (messageWallet m b)).balance = (walletOf b (messageWallet m b)).balance + messageAmount m b ∧
      (ledgerMessage 1 m b).bri.topup = b.bri.topup + messageAmount m b ∧ Raised (ledgerMessage 1 m b) 428 := by
  have hwallet := walletOf_messageWritten hchecks hbalance (.inl rfl)
  have hstate : (walletOf (messageWritten 1 m b) (messageWallet m b)).state ≠ 0 := hwallet ▸ messageWallet_state hchecks (.inl rfl)
  rw [ledgerMessage_of_accepted hchecks hbalance, if_pos rfl, walletOf_saveWallet hstate, hwallet, saveWallet_bri]
  refine ⟨rfl, ?_, ?_⟩
  · change (messageWritten 1 m b).bri.topup = _
    rw [messageWritten_bri hbalance]
    rfl
  · have hpends : Hic.KeepsPending (messageMoved 1 m b).hic (saveWallet (messageWallet m b) (messageWritten 1 m b)).hic :=
      messageWritten_pends.saveWalletAs .lines _
    exact hpends 428 messageMoved_raised_topup

/-- A refund takes its amount from the wallet and adds it to the sum of refunds. -/
theorem refund_moves {m : Fin 4} {b : Block} (hchecks : firstFail (ledgerChecks b 2 (rBytes b m 0 96)) = none)
    (hbalance : (transfer (messageMove 2 m b) b).2 = true) :
    (walletOf (ledgerMessage 2 m b) (messageWallet m b)).balance = (walletOf b (messageWallet m b)).balance - messageAmount m b ∧
      (ledgerMessage 2 m b).bri.refund = b.bri.refund + messageAmount m b ∧ Raised (ledgerMessage 2 m b) 429 := by
  rw [ledgerMessage_of_accepted hchecks hbalance, if_neg (by decide), walletOf_messageWritten hchecks hbalance (.inr rfl),
    messageWritten_bri hbalance]
  exact ⟨rfl, rfl, messageWritten_pends 429 messageMoved_raised_refund⟩

/-! ### Wallets and ledgers read, settings and blocks (R369, R376, R383) -/

@[simp] theorem walletBytes_length (x : Wallet) : (walletBytes x).length = 56 := by simp [walletBytes]

theorem walletCheck_of_lt {m : Fin 4} {b : Block} (h : rN b m 0 2 < 4096) : (walletCheck b m).2 = true := decide_eq_true h

theorem briGetWallet_of_wallet {m : Fin 4} {b : Block} (h : rN b m 0 2 < 4096) :
    briGetWallet m b = ok m (walletBytes (walletOf b (rN b m 0 2)) ++ b32 (vget b.pea.ctr (groupCtr (rN b m 0 2)))) b := by
  unfold briGetWallet
  extract_lets w
  rw [checked_cons_pass (walletCheck_of_lt h), checked_nil]

theorem briGetWallet_of_beyond {m : Fin 4} {b : Block} (h : 4096 ≤ rN b m 0 2) : briGetWallet m b = refuse m 0x0D01 b := by
  unfold briGetWallet
  extract_lets w
  rw [checked_cons_fail (decide_eq_false (Nat.not_lt.mpr h))]
  rfl

theorem briSetConfig_of_settings {m : Fin 4} {b : Block} (hlow : 1 ≤ fieldOf (rN b m 0 4) 4 6) (hhigh : fieldOf (rN b m 0 4) 4 6 ≤ 50)
    (hres : rN b m 0 4 < 1024) (hopen : ledgerOpen b = false) :
    briSetConfig m b = ok m [] (saveLegalConfig (cmdLog m 0
      (updBri (fun r => { r with keySlot := BitVec.ofNat 4 (rN b m 0 4), tStop := BitVec.ofNat 6 (fieldOf (rN b m 0 4) 4 6), minRes := r32 b m 4 })
        b))) := by
  unfold briSetConfig
  extract_lets w t
  rw [checked_cons_pass (by simp [t, w, hlow, hhigh, hres]), checked_cons_pass (by simp [hopen]), checked_nil]

theorem briSetConfig_of_badTime {m : Fin 4} {b : Block} (h : fieldOf (rN b m 0 4) 4 6 = 0 ∨ 50 < fieldOf (rN b m 0 4) 4 6) :
    briSetConfig m b = refuse m 3 b := by
  unfold briSetConfig
  extract_lets w t
  rw [checked_cons_fail (by simp only [decide_eq_false_iff_not, t, w]; omega)]

theorem briGetLedger_of_node {m : Fin 4} {b : Block} (h : (nodeCheck 0x0C05 b m).2 = true) :
    briGetLedger m b = ok m (b64 (ledgerOf b (reqNode b m)).balance ++ b32 (ledgerStatWord (ledgerOf b (reqNode b m))) ++
      b64 (ledgerOf b (reqNode b m)).debited ++ b64 (ledgerOf b (reqNode b m)).uncovered) b := by
  unfold briGetLedger
  extract_lets l
  rw [checked_cons_pass h, checked_nil]

/-- The state a request of BRI_BLOCK names. -/
def blockState (m : Fin 4) (b : Block) : U8 := if rN b m 2 1 = 1 then 2 else 1

theorem blockState_ne_zero (m : Fin 4) (b : Block) : blockState m b ≠ 0 := by
  unfold blockState
  split <;> decide

/-- The wallet takes the state, when it has another. -/
def walletBlocked (m : Fin 4) (b : Block) : Block :=
  onlyIf ((walletOf b (rN b m 0 2)).state != blockState m b) (fun b' => saveWallet (rN b m 0 2)
    (setWallet (rN b m 0 2) { walletOf b (rN b m 0 2) with state := blockState m b } b')) b

theorem walletBlocked_mbx (m : Fin 4) (b : Block) : (walletBlocked m b).mbx = b.mbx :=
  onlyIf_keeps (q := Block.mbx) (f := fun b' => saveWallet (rN b m 0 2) (setWallet (rN b m 0 2) _ b'))
    (fun _ => (saveWallet_frame _ _).mbx_eq (by decide)) _ _

theorem walletOf_walletBlocked (m : Fin 4) (b : Block) :
    (walletOf (walletBlocked m b) (rN b m 0 2)).state = blockState m b ∧
      (walletOf (walletBlocked m b) (rN b m 0 2)).balance = (walletOf b (rN b m 0 2)).balance := by
  unfold walletBlocked
  cases hne : (walletOf b (rN b m 0 2)).state != blockState m b with
  | false => exact ⟨by simpa [onlyIf] using hne, rfl⟩
  | true =>
    have hset : walletOf (setWallet (rN b m 0 2) { walletOf b (rN b m 0 2) with state := blockState m b } b) (rN b m 0 2) =
        { walletOf b (rN b m 0 2) with state := blockState m b } :=
      walletOf_setWallet (x := { walletOf b (rN b m 0 2) with state := blockState m b }) (blockState_ne_zero m b) _ _
    have hsaved := walletOf_saveWallet (w := rN b m 0 2)
      (b := setWallet (rN b m 0 2) { walletOf b (rN b m 0 2) with state := blockState m b } b) (by rw [hset]; exact blockState_ne_zero m b)
    simp only [onlyIf, if_true, hsaved, hset, and_self]

theorem briBlock_of_used {m : Fin 4} {b : Block} (hw : rN b m 0 2 < 4096) (hk : rN b m 2 1 ≤ 1)
    (hst : (walletOf b (rN b m 0 2)).state = 1 ∨ (walletOf b (rN b m 0 2)).state = 2) :
    briBlock m b = ok m [blockState m b] (walletBlocked m b) := by
  unfold briBlock
  extract_lets w x st
  rw [checked_cons_pass (walletCheck_of_lt hw), checked_cons_pass (decide_eq_true hk),
    checked_cons_pass (by simpa [x, w] using hst), checked_nil]
  rfl

theorem briBlock_of_unused {m : Fin 4} {b : Block} (hw : rN b m 0 2 < 4096) (hk : rN b m 2 1 ≤ 1)
    (hst : (walletOf b (rN b m 0 2)).state = 0) : briBlock m b = refuse m 0x0D06 b := by
  unfold briBlock
  extract_lets w x st
  rw [checked_cons_pass (walletCheck_of_lt hw), checked_cons_pass (decide_eq_true hk), checked_cons_fail (by simp [x, w, hst])]

end Machine

/-- Settles O49: a message either fails a check and is counted, or moves its amount; writing its line and storing its wallet leave the balance
and the sums, and the other commands answer what Brine holds. -/
theorem ledgerCommands : Obligations.LedgerCommands := by
  refine ⟨fun s m ha => ?_, fun s m ha => ?_, fun s m ha hw => ?_, fun s m ha hw => ?_, fun s m ha hlow hhigh hres hopen => ?_,
    fun s m ha ht => ?_, fun s m ha hnode => ?_, fun s m ha => ?_, fun s m ha hw hk hst => ?_, fun s m ha hw hk hst => ?_⟩
  -- BRI_TOPUP
  · have hx : exec (.briTopup m) s = .next (s.after (ledgerMessage 1 m)) := run_of_asked ha _
    refine ⟨_, hx, execBriTopup_frame m hx, fun k hfail => after_ledgerMessage_of_failing hfail, fun hpass hbalance => ?_⟩
    obtain ⟨hbal, hsum, hirq⟩ := topup_moves hpass hbalance
    rw [walletOf_congr (State.after_bri s _), State.after_bri, Raised, State.after_hic]
    exact ⟨hbal, hsum, hirq⟩
  -- BRI_REFUND
  · have hx : exec (.briRefund m) s = .next (s.after (ledgerMessage 2 m)) := run_of_asked ha _
    refine ⟨_, hx, execBriRefund_frame m hx, fun k hfail => after_ledgerMessage_of_failing hfail, fun hpass hbalance => ?_⟩
    obtain ⟨hbal, hsum, hirq⟩ := refund_moves hpass hbalance
    rw [walletOf_congr (State.after_bri s _), State.after_bri, Raised, State.after_hic]
    exact ⟨hbal, hsum, hirq⟩
  -- BRI_GET_WALLET
  · have hx : exec (.briGetWallet m) s = .next (s.after (briGetWallet m)) := run_of_asked ha _
    exact ⟨_, hx, execBriGetWallet_frame m hx, answered_of_respond (briGetWallet_of_wallet hw) rfl (by simp)⟩
  · have hx : exec (.briGetWallet m) s = .next (s.after (briGetWallet m)) := run_of_asked ha _
    exact ⟨_, hx, execBriGetWallet_frame m hx, answered_of_refuse (briGetWallet_of_beyond hw)⟩
  -- BRI_SET_CONFIG
  · have hx : exec (.briSetConfig m) s = .next (s.after (briSetConfig m)) := run_of_asked ha _
    have heff := briSetConfig_of_settings hlow hhigh hres hopen
    refine ⟨_, hx, execBriSetConfig_frame m hx, answered_of_respond heff (by simp) (by simp), ?_⟩
    rw [State.after_bri, heff, ok_bri, saveLegalConfig_bri, (cmdLog_frame _ _ _).bri_eq (by decide), updBri_bri]
  · have hx : exec (.briSetConfig m) s = .next (s.after (briSetConfig m)) := run_of_asked ha _
    have heff := briSetConfig_of_badTime ht
    exact ⟨_, hx, execBriSetConfig_frame m hx, answered_of_refuse heff, (after_refuse_frame heff).bri_eq (by decide)⟩
  -- BRI_GET_LEDGER and BRI_AUDIT
  · have hx : exec (.briGetLedger m) s = .next (s.after (briGetLedger m)) := run_of_asked ha _
    exact ⟨_, hx, execBriGetLedger_frame m hx, answered_of_respond (briGetLedger_of_node hnode) rfl (by simp)⟩
  · have hx : exec (.briAudit m) s = .next (s.after (briAudit m)) := run_of_asked ha _
    exact ⟨_, hx, execBriAudit_frame m hx, answered_of_respond (b := s.block) rfl rfl (by simp)⟩
  -- BRI_BLOCK
  · have hx : exec (.briBlock m) s = .next (s.after (briBlock m)) := run_of_asked ha _
    have heff := briBlock_of_used hw hk hst
    have hwal : walletOf (s.after (briBlock m)).block (rN s.block m 0 2) = walletOf (walletBlocked m s.block) (rN s.block m 0 2) :=
      walletOf_congr (by rw [State.after_bri, heff, ok_bri]) _
    obtain ⟨hstate, hbal⟩ := walletOf_walletBlocked m s.block
    refine ⟨_, hx, execBriBlock_frame m hx, answered_of_respond heff (walletBlocked_mbx _ _) (by simp), ?_, ?_⟩
    · rw [hwal]
      exact hstate
    · rw [hwal]
      exact hbal
  · have hx : exec (.briBlock m) s = .next (s.after (briBlock m)) := run_of_asked ha _
    have heff := briBlock_of_unused hw hk hst
    exact ⟨_, hx, execBriBlock_frame m hx, answered_of_refuse heff, (after_refuse_frame heff).bri_eq (by decide)⟩

end Sys2Proof
end

section
/-! PROOFS. The key store: re-mask, random numbers, the PUF attempts, the challenge, and the commands of the key family (R385, R392, R394,
R398 to R408). -/

namespace Sys2Proof

open Machine

namespace Machine

@[simp] theorem ok_key (m : Fin 4) (p : List U8) (b : Block) : (ok m p b).key = b.key := (ok_frame m p b).key_eq (by decide)
@[simp] theorem refuse_key (m : Fin 4) (status : Nat) (b : Block) : (refuse m status b).key = b.key := (refuse_frame m status b).key_eq (by decide)
@[simp] theorem irq_key (n : Nat) (b : Block) : (irq n b).key = b.key := (irq_frame n b).key_eq (by decide)
@[simp] theorem traceItem_key (cls : Nat) (flags : U8) (stamp : U64) (p : List U8) (b : Block) : (traceItem cls flags stamp p b).key = b.key :=
  (traceItem_frame cls flags stamp p b).key_eq (by decide)

/-! ### Random values and working registers (R392, R394) -/

/-- The key store without its working registers and the draws that mask them. -/
def KeyStore.settled (k : KeyStore) : KeyStore := { k with shares := Vector.replicate 19 {}, draws := 0, rngUses := 0 }

theorem draw_key (n : Nat) (b : Block) : (draw n b).1.key = { b.key with draws := b.key.draws + n, rngUses := b.key.rngUses + 1 } :=
  traceItem_key _ _ _ _ _

theorem draw_length (n : Nat) (b : Block) : (draw n b).2.length = n := by
  simp only [draw]
  split
  · exact padTo_length _ _
  · simp

theorem draw_settled (n : Nat) (b : Block) : (draw n b).1.key.settled = b.key.settled := by
  rw [draw_key]
  rfl

theorem putSecret_settled (i : Fin 19) (k : List U8) (b : Block) : (putSecret i k b).key.settled = b.key.settled := draw_settled _ _

theorem remaskReg_settled (i : Fin 19) (b : Block) : (remaskReg i b).key.settled = b.key.settled := by
  unfold remaskReg
  extract_lets s r
  split
  · rfl
  · exact draw_settled _ _

/-- Fields of settled key stores agree. -/
theorem settled_field {k x : KeyStore} (h : k.settled = x.settled) :
    k.loaded = x.loaded ∧ k.index = x.index ∧ k.remaskCnt = x.remaskCnt ∧ k.rejectCnt = x.rejectCnt ∧ k.retryAt = x.retryAt :=
  ⟨(congrArg KeyStore.loaded h : _), (congrArg KeyStore.index h : _), (congrArg KeyStore.remaskCnt h : _), (congrArg KeyStore.rejectCnt h : _),
    (congrArg KeyStore.retryAt h : _)⟩

/-! ### The re-mask pass (R392) -/

/-- What a pass changes beside the masks. -/
structure Remasked (b c : Block) : Prop where
  counted : c.key.remaskCnt = satInc b.key.remaskCnt
  noted : c.key.lastRemask = now b
  loaded : c.key.loaded = b.key.loaded
  index : c.key.index = b.key.index

theorem remaskAll_remasked (b : Block) : Remasked b (remaskAll b) := by
  have hkeep := fun l : List (Fin 19) => forAll_keeps (q := fun c => c.key.settled) remaskReg_settled l b
  have hnow := fun l : List (Fin 19) => congrArg Tide.now
    (forAll_keeps (q := Block.tide) (fun i c => (remaskReg_frame i c).tide_eq (by decide)) l b)
  unfold remaskAll
  extract_lets used c
  obtain ⟨hloaded, hindex, hcnt, -, -⟩ := settled_field (hkeep ((List.finRange 19).filter fun i => !used.contains i))
  exact ⟨congrArg satInc hcnt, hnow _, hloaded, hindex⟩

theorem remaskDue_of_timer {b : Block} (hk : b.key.keysReady = true) (ht : b.tide.ready = false) : remaskDue b = remaskAll b := by
  simp [remaskDue, hk, ht]

theorem remaskDue_of_tide {b : Block} (hk : b.key.keysReady = true) (ht : b.tide.ready = true)
    (hdue : b.key.lastRemask.toNat + 150000000 ≤ (now b).toNat) : remaskDue b = remaskAll b := by
  simp [remaskDue, hk, ht, afterTicks_of_le hdue]

theorem remaskDue_of_noKeys {b : Block} (hk : b.key.keysReady = false) : remaskDue b = b := by
  simp [remaskDue, hk]

/-! ### The random generator (R394) -/

/-- The generator reseeded, after a failed health test with source 440. -/
def reseeded (b : Block) : Block :=
  onlyIf (!b.key.rngOk) (irq 440) { b with key := { b.key with rngOk := true, rngUses := 0, rngAt := now b } }

theorem reseeded_key (b : Block) : (reseeded b).key = { b.key with rngOk := true, rngUses := 0, rngAt := now b } :=
  onlyIf_keeps (q := Block.key) (irq_key 440) _ _

theorem reseeded_hic_of_ok {b : Block} (h : b.key.rngOk = true) : (reseeded b).hic = b.hic := by
  simp [reseeded, h, onlyIf]

theorem reseeded_raised {b : Block} (h : b.key.rngOk = false) : Raised (reseeded b) 440 := by
  simp only [reseeded, h, Bool.not_false, onlyIf, if_true]
  exact irq_pends (n := 440) (by decide) _

theorem rngReseed_of_uses {b : Block} (hok : b.key.rngOk = true) (huses : 1048576 ≤ b.key.rngUses) : rngReseed b = reseeded b := by
  simp [rngReseed, hok, huses, reseeded]

theorem rngReseed_of_failed {b : Block} (hok : b.key.rngOk = false) (hdue : b.key.rngAt.toNat + tSec ≤ (now b).toNat) :
    rngReseed b = reseeded b := by
  simp only [rngReseed, hok, Bool.false_and, Bool.false_eq_true, if_false]
  rw [afterTicks_of_le hdue, reseeded]

theorem rngReseed_of_time {b : Block} (hok : b.key.rngOk = true) (huses : b.key.rngUses < 1048576)
    (hdue : b.key.rngAt.toNat + 10 * tSec ≤ (now b).toNat) : rngReseed b = reseeded b := by
  simp only [rngReseed, hok, Nat.not_le.mpr huses, decide_false, Bool.and_false, Bool.false_eq_true, if_false, if_true]
  rw [afterTicks_of_le hdue, reseeded]

/-! ### Attempts of the PUF (R384, R385) -/

/-- What PUF_RETRY does: with a retry waiting an attempt, on Tide 10 ms after power was taken. -/
def pufRetried (good : Bool) (corrected : U8) (b : Block) : Block :=
  match b.key.retryAt with
  | some t => if b.tide.running then afterTicks t 15000000 (pufAttempt good corrected) b else pufAttempt good corrected b
  | none => b

theorem execPufRetry_eq (good : Bool) (corrected : U8) (s : State) : execPufRetry good corrected s = .next (s.after (pufRetried good corrected)) :=
  rfl

theorem pufRetried_of_none {good : Bool} {corrected : U8} {b : Block} (h : b.key.retryAt = none) : pufRetried good corrected b = b := by
  rw [pufRetried, h]

section
variable {good : Bool} {corrected : U8} {b : Block} {i : U64} (hi : b.key.retryAt = some i)
include hi

theorem pufRetried_of_stopped (ht : b.tide.running = false) : pufRetried good corrected b = pufAttempt good corrected b := by
  simp [pufRetried, hi, ht]

theorem pufRetried_of_running (ht : b.tide.running = true) (hdue : i.toNat + 15000000 ≤ (now b).toNat) :
    pufRetried good corrected b = pufAttempt good corrected b := by
  simp [pufRetried, hi, ht, afterTicks_of_le hdue]

end

theorem pufAttempt_of_again {corrected : U8} {b : Block} (hlost : helperLost b = false) (htries : b.key.tries < 2) :
    pufAttempt false corrected b = { b with key := { b.key with tries := b.key.tries + 1, retryAt := some (now b) } } := by
  have hn : b.key.tries + 1 < 3 := Nat.succ_lt_succ htries
  simp [pufAttempt, hlost, pufFailure, hn]

/-- The keys stay unavailable. -/
def pufGivenUp (b : Block) : Block :=
  legalLog 0x60 wKeys [3] (irq 438 { b with key := { b.key with
    tries := b.key.tries + 1, retryAt := none, pufOk := false, keysReady := false, attempts := 0, started := true } })

theorem pufAttempt_of_last {good : Bool} {corrected : U8} {b : Block} (hbad : good = false ∨ helperLost b = true)
    (hlast : 2 ≤ b.key.tries ∨ helperLost b = true) : pufAttempt good corrected b = pufGivenUp b := by
  cases hlost : helperLost b with
  | true => simp [pufAttempt, hlost, pufFailure, pufGivenUp]
  | false =>
    obtain rfl : good = false := hbad.resolve_right (by simp [hlost])
    have htries : ¬ b.key.tries + 1 < 3 := by
      have := hlast.resolve_right (by simp [hlost])
      omega
    simp [pufAttempt, hlost, pufFailure, htries, pufGivenUp]

theorem pufGivenUp_key (b : Block) : (pufGivenUp b).key = { b.key with
    tries := b.key.tries + 1, retryAt := none, pufOk := false, keysReady := false, attempts := 0, started := true } :=
  ((legalLog_frame _ _ _ _).key_eq (by decide)).trans (irq_key _ _)

theorem pufGivenUp_raised (b : Block) : Raised (pufGivenUp b) 438 := by
  rw [Raised, pufGivenUp, (legalLog_frame _ _ _ _).hic_eq (by decide)]
  exact irq_pends (n := 438) (by decide) _

/-- What a good attempt sets, and that it keeps the index. -/
structure PufGood (corrected : U8) (b c : Block) : Prop where
  pufOk : c.key.pufOk = true
  keysReady : c.key.keysReady = true
  started : c.key.started = true
  fraction : c.key.corrected = corrected
  attempts : c.key.attempts = BitVec.ofNat 2 (b.key.tries + 1)
  retryAt : c.key.retryAt = none
  index : c.key.index = b.key.index

/-- The keys are ready, with these public keys, serial number and instant. -/
def KeyStore.withDerived (pubs : Vector (List U8) 4) (serial instant : U64) (k : KeyStore) : KeyStore :=
  { k with pubs := pubs, serial := serial, keysReady := true, lastRemask := instant }

theorem withDerived_settled (b : Block) (pubs : Vector (List U8) 4) (serial instant : U64) :
    ({ b with key := b.key.withDerived pubs serial instant } : Block).key.settled = b.key.settled.withDerived pubs serial instant := rfl

theorem deriveKeys_settled (b : Block) :
    ∃ pubs serial instant, (deriveKeys b).key.settled = b.key.settled.withDerived pubs serial instant := by
  unfold deriveKeys
  extract_lets c0 meas c3 c4 dDev dAli dLeg dRep b1 b2 b3
  have hsettled : b3.key.settled = b.key.settled := by simp only [b3, b2, b1, putSecret_settled]
  exact ⟨_, _, _, (withDerived_settled b3 _ _ _).trans (by rw [hsettled])⟩

/-- What deriving keeps, and that the keys are ready. -/
theorem derived_field {k x : KeyStore} {pubs : Vector (List U8) 4} {serial instant : U64}
    (h : k.settled = x.settled.withDerived pubs serial instant) :
    k.pufOk = x.pufOk ∧ k.keysReady = true ∧ k.started = x.started ∧ k.corrected = x.corrected ∧ k.attempts = x.attempts ∧
      k.retryAt = x.retryAt ∧ k.index = x.index :=
  ⟨(congrArg KeyStore.pufOk h : _), (congrArg KeyStore.keysReady h : _), (congrArg KeyStore.started h : _),
    (congrArg KeyStore.corrected h : _), (congrArg KeyStore.attempts h : _), (congrArg KeyStore.retryAt h : _),
    (congrArg KeyStore.index h : _)⟩

/-- The key store as a good attempt leaves it before the keys are derived. -/
def pufRead (corrected : U8) (b : Block) : Block :=
  { b with key := { b.key with
    pufOk := true, attempts := BitVec.ofNat 2 (b.key.tries + 1), corrected := corrected
    pufBurned := true, started := true, retryAt := none, replay := b.rpl.mode
    claimed := (vget b.key.index 0).usage != 0 } }

/-- The margin is noted with source 439 where more than a tenth was corrected. -/
def marginNoted (corrected : U8) (b : Block) : Block :=
  onlyIf (decide (100 < corrected.toNat)) (fun x => irq 439 { x with key := { x.key with pufMargin := true } }) b

theorem pufSuccess_eq (corrected : U8) (b : Block) : pufSuccess corrected b =
    forAll (List.finRange 16) (fun s x => onlyIf (decide (slotState x s = .torn)) (irq 443) x) (marginNoted corrected (deriveKeys (pufRead corrected b))) :=
  rfl

theorem pufSuccess_good (corrected : U8) (b : Block) : PufGood corrected b (pufSuccess corrected b) := by
  have htorn : (pufSuccess corrected b).key = (marginNoted corrected (deriveKeys (pufRead corrected b))).key :=
    (congrArg Block.key (pufSuccess_eq corrected b)).trans
      (forAll_keeps (q := Block.key) (fun s x => onlyIf_keeps (q := Block.key) (irq_key 443) _ x) _ _)
  obtain ⟨pubs, serial, instant, hderived⟩ := deriveKeys_settled (pufRead corrected b)
  generalize deriveKeys (pufRead corrected b) = c at htorn hderived
  obtain ⟨hpuf, hkeys, hstarted, hcorrected, hattempts, hretry, hindex⟩ := derived_field hderived
  have hread : PufGood corrected b c := ⟨hpuf, hkeys, hstarted, hcorrected, hattempts, hretry, hindex⟩
  have hnoted : PufGood corrected b (marginNoted corrected c) := by
    unfold marginNoted
    cases decide (100 < corrected.toNat) with
    | false => exact hread
    | true =>
      obtain ⟨h1, h2, h3, h4, h5, h6, h7⟩ := hread
      constructor <;> simp only [onlyIf, if_true, irq_key] <;> assumption
  obtain ⟨h1, h2, h3, h4, h5, h6, h7⟩ := hnoted
  constructor <;> rw [htorn] <;> assumption

theorem pufAttempt_of_good {corrected : U8} {b : Block} (hlost : helperLost b = false) : pufAttempt true corrected b = pufSuccess corrected b := by
  simp [pufAttempt, hlost]

/-! ### The challenge (R402) -/

theorem challengeExpired_of_some {b : Block} {l : List U8} {i : U64} (h : b.key.challenge = some (l, i)) (hdue : i.toNat ≤ (now b).toNat) :
    challengeExpired b = { b with key := { b.key with challenge := none } } := by
  rw [challengeExpired, h]
  exact atInstant_of_le hdue _

theorem challengeExpired_of_none {b : Block} (h : b.key.challenge = none) : challengeExpired b = b := by
  rw [challengeExpired, h]

/-! ### Commands that need the keys (R408) -/

theorem run_withKeys {s : State} {m : Fin 4} {op : Nat} (ha : Asked s m op .sedge) (hk : keysUp s.block = true) (f : Block → Block) :
    s.run (command m op .sedge (withKeys m f)) = .next (s.after f) := by
  rw [run_of_asked ha, State.after, State.after, withKeys, if_pos hk]

theorem withKeys_of_down {m : Fin 4} {f : Block → Block} {b : Block} (hk : keysUp b = false) : withKeys m f b = refuse m 0x0E0A b :=
  if_neg (by simp [hk])

/-! ### Key-update messages (R400, R401) -/

/-- Mailbox `m` has the only message in progress. -/
def messageBegun (m : Fin 4) (b : Block) : Block := { b with key := { b.key with messages := [m] } }

/-- A refused message. -/
def messageRefused (m : Fin 4) (status : Nat) (b : Block) : Block :=
  refuse m status (irq 442 { b with key := { b.key with rejectCnt := satInc b.key.rejectCnt } })

theorem keyChecks_messageBegun (m : Fin 4) (l : List U8) (b : Block) : keyChecks (messageBegun m b) l = keyChecks b l := rfl

theorem rAll_messageBegun (m : Fin 4) (b : Block) : rAll (messageBegun m b) m = rAll b m := rfl

theorem keyTake_of_failing {m : Fin 4} {b : Block} {k : Nat} (h : firstFail (keyChecks b (rAll b m)) = some k) :
    keyTake m b = (messageRefused m k b, false) := by
  rw [keyTake]
  simp only [h]
  rfl

theorem keyRecord_settled (l : List U8) (g : Nat) (b : Block) : (keyRecord l g b).1.key.settled = b.key.settled := by
  unfold keyRecord
  extract_lets curve bound gen
  split
  · rfl
  · exact (draw_settled _ _).trans (draw_settled _ _)
  · rfl

/-- The record of an accepted message is written, its counter taken, and the answer waits for its line. -/
theorem keyTake_of_passing {m : Fin 4} {b : Block} (h : firstFail (keyChecks b (rAll b m)) = none) :
    (keyTake m b).2 = true ∧ (keyTake m b).1.key.settled = b.key.settled := by
  unfold keyTake
  simp only [h, true_and]
  rw [(peatFree_frame _ _ _ _ _).key_eq (by decide), (ctrIncrement_frame _ _ _ _).key_eq (by decide), keyRecord_settled]

theorem keyTakeNext_of_refused {m : Fin 4} {b c : Block} (h : keyTake m (messageBegun m b) = (c, false)) :
    keyTakeNext [m] b = { c with key := { c.key with messages := [] } } := by
  unfold keyTakeNext
  extract_lets k t
  have ht : t = (c, false) := h
  clear_value t
  subst ht
  rfl

theorem keyTakeNext_of_taken {m : Fin 4} {b : Block} (h : (keyTake m (messageBegun m b)).2 = true) :
    keyTakeNext [m] b = (keyTake m (messageBegun m b)).1 := by
  unfold keyTakeNext
  extract_lets k t
  have ht : t = keyTake m (messageBegun m b) := rfl
  clear_value t
  subst ht
  exact if_pos h

theorem keyTake_messageBegun {m : Fin 4} {b : Block} (h : firstFail (keyChecks b (rAll b m)) = none) :
    (keyTake m (messageBegun m b)).2 = true ∧ (keyTake m (messageBegun m b)).1.key.settled = (messageBegun m b).key.settled :=
  keyTake_of_passing (by rw [keyChecks_messageBegun, rAll_messageBegun]; exact h)

section
variable {m : Fin 4} {b : Block} (hnone : b.key.messages = [])
include hnone

theorem keyUpdate_of_first : keyUpdate m b = keyTakeNext [m] b := if_pos hnone

theorem keyUpdate_of_failing {k : Nat} (h : firstFail (keyChecks b (rAll b m)) = some k) :
    keyUpdate m b = { messageRefused m k (messageBegun m b) with key := { (messageRefused m k (messageBegun m b)).key with messages := [] } } := by
  have htake : keyTake m (messageBegun m b) = (messageRefused m k (messageBegun m b), false) :=
    keyTake_of_failing (by rw [keyChecks_messageBegun, rAll_messageBegun]; exact h)
  rw [keyUpdate_of_first hnone, keyTakeNext_of_refused htake]

theorem keyUpdate_of_passing (h : firstFail (keyChecks b (rAll b m)) = none) : keyUpdate m b = (keyTake m (messageBegun m b)).1 := by
  obtain ⟨htake, -⟩ := keyTake_messageBegun h
  rw [keyUpdate_of_first hnone, keyTakeNext_of_taken htake]

end

theorem messageRefused_key (m : Fin 4) (status : Nat) (b : Block) :
    (messageRefused m status b).key = { b.key with rejectCnt := satInc b.key.rejectCnt } :=
  (refuse_key _ _ _).trans (irq_key _ _)

theorem keyUpdate_of_behind {m : Fin 4} {b : Block} (h : b.key.messages ≠ []) :
    keyUpdate m b = { b with key := { b.key with messages := b.key.messages ++ [m] } } := if_neg h

/-! ### Slots (R398, R408) -/

theorem slotByte_pass {m : Fin 4} {b : Block} (h : (rB b m 0).toNat ≤ 15) : decide ((rB b m 0).toNat ≤ 15) = true := decide_eq_true h

/-- The slot that mailbox `m` names is loaded with what its blob opened to. -/
def keyOpened (m : Fin 4) (b : Block) : Option (List U8) → Block
  | none => refuse m 0x0E09 b
  | some k => ok m [] (putSecret (slotReg (reqSlot b m)) k
      { b with key := { b.key with loaded := b.key.loaded ||| ((1 : BitVec 16) <<< (reqSlot b m).val) } })

theorem keyLoad_of_usable {m : Fin 4} {b : Block} (hslot : (rB b m 0).toNat ≤ 15) (huse : slotUsable b (reqSlot b m) = true)
    (husage : (vget b.key.index (reqSlot b m)).usage = 6) :
    keyLoad m b = keyOpened m b (openBlob b (reqSlot b m) (rBytes b m 4 200)) := by
  unfold keyLoad
  extract_lets s
  rw [checked_cons_pass (slotByte_pass hslot), checked_cons_pass (by simp [s, huse, husage]), checked_nil]
  rfl

theorem keyLoad_of_opened {m : Fin 4} {b : Block} (hslot : (rB b m 0).toNat ≤ 15) (huse : slotUsable b (reqSlot b m) = true)
    (husage : (vget b.key.index (reqSlot b m)).usage = 6) {k : List U8} (hopen : openBlob b (reqSlot b m) (rBytes b m 4 200) = some k) :
    keyLoad m b = ok m [] (putSecret (slotReg (reqSlot b m)) k
      { b with key := { b.key with loaded := b.key.loaded ||| ((1 : BitVec 16) <<< (reqSlot b m).val) } }) := by
  rw [keyLoad_of_usable hslot huse husage, hopen, keyOpened]

theorem keyLoad_of_closed {m : Fin 4} {b : Block} (hslot : (rB b m 0).toNat ≤ 15) (huse : slotUsable b (reqSlot b m) = true)
    (husage : (vget b.key.index (reqSlot b m)).usage = 6) (hopen : openBlob b (reqSlot b m) (rBytes b m 4 200) = none) :
    keyLoad m b = refuse m 0x0E09 b := by
  rw [keyLoad_of_usable hslot huse husage, hopen, keyOpened]

theorem keyLoad_of_noSlot {m : Fin 4} {b : Block} (hslot : 15 < (rB b m 0).toNat) : keyLoad m b = refuse m 0x0E0B b := by
  unfold keyLoad
  extract_lets s
  rw [checked_cons_fail (decide_eq_false (Nat.not_le.mpr hslot))]

theorem keyUnload_of_loaded {m : Fin 4} {b : Block} (hslot : (rB b m 0).toNat ≤ 15)
    (hloaded : b.key.loaded.getLsbD (reqSlot b m).val = true) :
    keyUnload m b = ok m [] { b with key := { b.key with loaded := b.key.loaded &&& ~~~((1 : BitVec 16) <<< (reqSlot b m).val), shares := vset b.key.shares (slotReg (reqSlot b m)) {} } } := by
  unfold keyUnload
  extract_lets s
  rw [checked_cons_pass (slotByte_pass hslot), checked_cons_pass hloaded, checked_nil]

theorem keyGetPublic_of_slot {m : Fin 4} {b : Block} (hslot : (rB b m 0).toNat ≤ 15) (husage : (vget b.key.index (reqSlot b m)).usage ≠ 0) :
    keyGetPublic m b = ok m ([(vget b.key.index (reqSlot b m)).curve.setWidth 8, 0, 0, 0] ++ padTo 97 (vget b.key.index (reqSlot b m)).pub) b := by
  simp only [keyGetPublic, hslot, if_true]
  rw [checked_cons_pass (by simpa using husage), checked_nil]

theorem keyGetPublic_of_legal {m : Fin 4} {b : Block} (hid : (rB b m 0).toNat = 0x22) :
    keyGetPublic m b = ok m ([1, 0, 0, 0] ++ padTo 97 (vget b.key.pubs 2)) b := by
  have hpub : ∀ h : (rB b m 0).toNat - 0x20 < 4, (⟨(rB b m 0).toNat - 0x20, h⟩ : Fin 4) = 2 := fun h => Fin.ext (by change (rB b m 0).toNat - 0x20 = 2; omega)
  have hrange : 0x20 ≤ (rB b m 0).toNat ∧ (rB b m 0).toNat ≤ 0x23 := by rw [hid]; decide
  unfold keyGetPublic
  extract_lets id
  rw [if_neg (by simp [id, hid]), dif_pos hrange, if_neg (by simp [id, hid]), hpub]

/-! ### The identity statement (R403) -/

theorem ecdsaSign_length (curve d digest : Nat) : (ecdsaSign curve d digest).length = 2 * (curveOf curve).bytes := by
  unfold ecdsaSign
  extract_lets c seed v key v' key'
  split
  · simp [c, Nat.two_mul]
  · simp [c]

theorem statementBody_length (b : Block) (nonce : List U8) : (statementBody b nonce).length = 704 := by
  simp [statementBody, List.length_flatMap]

theorem statement_length (b : Block) (nonce : List U8) : (statement b nonce).length = 800 := by
  rw [statement, List.length_append, statementBody_length, signWith, ecdsaSign_length]
  rfl

/-! ### Challenges and random numbers (R402, R408) -/

theorem keyGetChallenge_of_ok {m : Fin 4} {b : Block} (h : b.key.rngOk = true) :
    keyGetChallenge m b = ok m ((draw 8 b).2 ++ b64 (ahead b 90000000000))
      { (draw 8 b).1 with key := { (draw 8 b).1.key with challenge := some ((draw 8 b).2, ahead b 90000000000) } } := by
  have hahead : ahead (draw 8 b).1 90000000000 = ahead b 90000000000 := by rw [ahead, (draw_frame 8 b).tide_eq (by decide), ahead]
  rw [keyGetChallenge, if_pos h]
  simp only [hahead]

theorem keyGetChallenge_of_failed {m : Fin 4} {b : Block} (h : b.key.rngOk = false) : keyGetChallenge m b = refuse m 0x0E07 b :=
  if_neg (by simp [h])

theorem keyRandom_of_range {m : Fin 4} {b : Block} (hlow : 1 ≤ rN b m 0 2) (hhigh : rN b m 0 2 ≤ 256) (hok : b.key.rngOk = true) :
    keyRandom m b = ok m (draw (rN b m 0 2) b).2 (draw (rN b m 0 2) b).1 := by
  unfold keyRandom
  extract_lets n
  rw [checked_cons_pass (decide_eq_true ⟨hlow, hhigh⟩), checked_cons_pass hok, checked_nil]

end Machine

/-- Settles O50: masking and deriving keys draw random bytes and leave the rest of the store, so each command changes the fields its clause
names; the commands answer what the store holds. -/
theorem keyStore : Obligations.KeyStore := by
  refine ⟨fun s hk ht hdue => ?_, fun s hk ht => ?_, fun s hk => ?_, fun s hok huses => ?_, fun s hok hdue => ?_, fun s hok huses hdue => ?_,
    fun s hrep => ?_, fun s good corrected i hi ht hgood hlost htries => ?_, fun s good corrected i hi ht hbad hlast => ?_,
    fun s good corrected i hi ht hgood hlost => ?_, fun s good corrected i hi ht hdue => ?_, fun s good corrected hi => ?_,
    fun s l i hc hdue => ?_, fun s hc => ?_, fun s m ha => ?_, fun s m ha hk hnone => ?_, fun s m ha hk hsome => ?_, fun s m ha hk => ?_,
    fun s m ha hk hslot huse husage => ?_, fun s m ha hk hslot => ?_, fun s m ha hk hslot hloaded => ?_, fun s m ha hk hslot husage => ?_,
    fun s m ha hk hid => ?_, fun s m ha hk => ?_, fun s m ha => ?_, fun s m ha hk hok => ?_, fun s m ha hk hok => ?_,
    fun s m ha hk hlow hhigh hok => ?_, fun s m ha hk => ?_⟩
  -- REMASK
  · obtain ⟨hcnt, hat, hloaded, hindex⟩ := remaskAll_remasked s.block
    refine ⟨s.after remaskDue, rfl, execRemask_frame rfl, ?_⟩
    rw [State.after_key, remaskDue_of_tide hk ht hdue]
    exact ⟨hcnt, hat, hloaded, hindex⟩
  · obtain ⟨hcnt, hat, hloaded, hindex⟩ := remaskAll_remasked s.block
    refine ⟨s.after remaskDue, rfl, execRemask_frame rfl, ?_⟩
    rw [State.after_key, remaskDue_of_timer hk ht]
    exact ⟨hcnt, hat, hloaded, hindex⟩
  · refine ⟨s.after remaskDue, rfl, execRemask_frame rfl, ?_⟩
    rw [State.after_key, remaskDue_of_noKeys hk]
  -- RNG_RESEED
  · refine ⟨s.after rngReseed, rfl, execRngReseed_frame rfl, ?_⟩
    rw [State.after_key, State.after_hic, rngReseed_of_uses hok huses, reseeded_key, reseeded_hic_of_ok hok, ← hok]
    exact ⟨rfl, rfl⟩
  · refine ⟨s.after rngReseed, rfl, execRngReseed_frame rfl, ?_⟩
    rw [State.after_key, Raised, State.after_hic, rngReseed_of_failed hok hdue, reseeded_key]
    exact ⟨rfl, reseeded_raised hok⟩
  · refine ⟨s.after rngReseed, rfl, execRngReseed_frame rfl, ?_⟩
    rw [State.after_key, State.after_hic, rngReseed_of_time hok huses hdue, reseeded_key, reseeded_hic_of_ok hok, ← hok]
    exact ⟨rfl, rfl⟩
  -- RNG_HEALTH_FAIL
  · have hx : exec .rngHealthFail s = .next (s.after rngHealthFail) := State.input_eq hrep _
    refine ⟨_, hx, execRngHealthFail_frame hx, ?_⟩
    rw [State.after_key, Raised, State.after_hic, rngHealthFail, irq_key]
    exact ⟨rfl, irq_pends (n := 440) (by decide) _⟩
  -- PUF_RETRY
  · subst hgood
    refine ⟨_, execPufRetry_eq false corrected s, execPufRetry_frame false corrected rfl, ?_⟩
    rw [State.after_key, pufRetried_of_stopped hi ht, pufAttempt_of_again hlost htries]
  · refine ⟨_, execPufRetry_eq good corrected s, execPufRetry_frame good corrected rfl, ?_⟩
    rw [State.after_key, Raised, State.after_hic, pufRetried_of_stopped hi ht, pufAttempt_of_last hbad hlast, pufGivenUp_key]
    exact ⟨rfl, pufGivenUp_raised _⟩
  · subst hgood
    obtain ⟨hpuf, hkeys, hstarted, hcorrected, hattempts, hretry, hindex⟩ := pufSuccess_good corrected s.block
    refine ⟨_, execPufRetry_eq true corrected s, execPufRetry_frame true corrected rfl, ?_⟩
    rw [State.after_key, pufRetried_of_stopped hi ht, pufAttempt_of_good hlost]
    exact ⟨hpuf, hkeys, hstarted, hcorrected, hattempts, hretry, hindex⟩
  · exact ⟨_, execPufRetry_eq good corrected s, execPufRetry_frame good corrected rfl,
      State.after_block (pufRetried_of_running hi ht hdue)⟩
  · refine ⟨_, execPufRetry_eq good corrected s, execPufRetry_frame good corrected rfl, ?_⟩
    rw [State.after_key, State.after_arb, pufRetried_of_none hi]
    exact ⟨rfl, rfl⟩
  -- CHALLENGE_EXPIRED
  · refine ⟨s.after challengeExpired, rfl, execChallengeExpired_frame rfl, ?_⟩
    rw [State.after_key, challengeExpired_of_some hc hdue]
  · refine ⟨s.after challengeExpired, rfl, execChallengeExpired_frame rfl, ?_⟩
    rw [State.after_key, challengeExpired_of_none hc]
  -- KEY_GET_STATUS
  · have hx : exec (.keyGetStatus m) s = .next _ := run_of_asked ha _
    exact ⟨_, hx, execKeyGetStatus_frame m hx, answered_of_respond (b := s.block) rfl rfl (by rw [b32s_length]; simp)⟩
  -- KEY_UPDATE
  · have hx : exec (.keyUpdate m) s = .next (s.after (keyUpdate m)) := run_withKeys ha hk _
    refine ⟨_, hx, execKeyUpdate_frame m hx, fun k hfail => ?_, fun hpass => ?_⟩
    · have heff := keyUpdate_of_failing hnone hfail
      have hans : Answered s (s.after fun _ => messageRefused m k (messageBegun m s.block)) m k [] :=
        answered_of_respond (b := irq 442 _) rfl ((irq_frame _ _).mbx_eq (by decide)) (by simp)
      refine ⟨?_, ?_, ?_, ?_⟩
      · simpa only [Answered, mbxOf, State.after_mbx, heff] using hans
      · rw [State.after_key, heff]
        simp only [messageRefused_key, messageBegun, ← hnone]
      · rw [State.after_pea, heff]
        exact ((refuse_frame _ _ _).pea_eq (by decide)).trans ((irq_frame _ _).pea_eq (by decide))
      · rw [Raised, State.after_hic, heff]
        dsimp only
        rw [messageRefused, (refuse_frame _ _ _).hic_eq (by decide)]
        exact irq_pends (n := 442) (by decide) _
    · have heff := keyUpdate_of_passing hnone hpass
      obtain ⟨-, hsettled⟩ := keyTake_messageBegun hpass
      obtain ⟨-, hindex, -, hreject, -⟩ := settled_field hsettled
      refine ⟨?_, ?_, State.after_block heff⟩
      · rw [State.after_key, heff, hindex]
        rfl
      · rw [State.after_key, heff, hreject]
        rfl
  · have hx : exec (.keyUpdate m) s = .next (s.after (keyUpdate m)) := run_withKeys ha hk _
    refine ⟨_, hx, execKeyUpdate_frame m hx, ?_⟩
    rw [State.after_key, State.after_hic, keyUpdate_of_behind hsome]
    exact ⟨rfl, rfl⟩
  · have hx : exec (.keyUpdate m) s = .next (s.after (withKeys m (keyUpdate m))) := run_of_asked ha _
    have heff := withKeys_of_down (m := m) (f := keyUpdate m) hk
    exact ⟨_, hx, execKeyUpdate_frame m hx, answered_of_refuse heff, (after_refuse_frame heff).key_eq (by decide)⟩
  -- KEY_LOAD
  · have hx : exec (.keyLoad m) s = .next (s.after (keyLoad m)) := run_withKeys ha hk _
    refine ⟨_, hx, execKeyLoad_frame m hx, fun k hopen => ?_, fun hopen => ?_⟩
    · have heff := keyLoad_of_opened hslot huse husage hopen
      refine ⟨answered_of_respond heff ((putSecret_frame _ _ _).mbx_eq (by decide)) (by simp), ?_⟩
      rw [State.after_key, heff, ok_key]
      exact (settled_field (putSecret_settled _ _ _)).1
    · have heff := keyLoad_of_closed hslot huse husage hopen
      exact ⟨answered_of_refuse heff, (after_refuse_frame heff).key_eq (by decide)⟩
  · have hx : exec (.keyLoad m) s = .next (s.after (keyLoad m)) := run_withKeys ha hk _
    have heff := keyLoad_of_noSlot hslot
    exact ⟨_, hx, execKeyLoad_frame m hx, answered_of_refuse heff, (after_refuse_frame heff).key_eq (by decide)⟩
  -- KEY_UNLOAD
  · have hx : exec (.keyUnload m) s = .next (s.after (keyUnload m)) := run_withKeys ha hk _
    have heff := keyUnload_of_loaded hslot hloaded
    refine ⟨_, hx, execKeyUnload_frame m hx, answered_of_respond heff rfl (by simp), ?_⟩
    rw [State.after_key, heff, ok_key]
  -- KEY_GET_PUBLIC
  · have hx : exec (.keyGetPublic m) s = .next (s.after (keyGetPublic m)) := run_withKeys ha hk _
    exact ⟨_, hx, execKeyGetPublic_frame m hx, answered_of_respond (keyGetPublic_of_slot hslot husage) rfl (by simp)⟩
  · have hx : exec (.keyGetPublic m) s = .next (s.after (keyGetPublic m)) := run_withKeys ha hk _
    exact ⟨_, hx, execKeyGetPublic_frame m hx, answered_of_respond (keyGetPublic_of_legal hid) rfl (by simp)⟩
  -- KEY_ATTEST and KEY_GET_CERT
  · have hx : exec (.keyAttest m) s = .next _ := run_withKeys ha hk _
    exact ⟨_, hx, execKeyAttest_frame m hx, answered_of_respond (b := s.block) rfl rfl ((statement_length _ _).trans_le (by decide))⟩
  · have hx : exec (.keyGetCert m) s = .next _ := run_of_asked ha _
    exact ⟨_, hx, execKeyGetCert_frame m hx, answered_of_respond (b := s.block) rfl rfl (by simp; omega)⟩
  -- KEY_GET_CHALLENGE
  · have hx : exec (.keyGetChallenge m) s = .next (s.after (keyGetChallenge m)) := run_withKeys ha hk _
    have heff := keyGetChallenge_of_ok (m := m) hok
    refine ⟨_, hx, execKeyGetChallenge_frame m hx, answered_of_respond heff ((draw_frame _ _).mbx_eq (by decide)) (by simp [draw_length]), ?_⟩
    rw [State.after_key, heff, ok_key]
    simp only [draw_key, true_and]
  · have hx : exec (.keyGetChallenge m) s = .next (s.after (keyGetChallenge m)) := run_withKeys ha hk _
    have heff := keyGetChallenge_of_failed (m := m) hok
    exact ⟨_, hx, execKeyGetChallenge_frame m hx, answered_of_refuse heff, (after_refuse_frame heff).key_eq (by decide)⟩
  -- KEY_RANDOM
  · have hx : exec (.keyRandom m) s = .next (s.after (keyRandom m)) := run_withKeys ha hk _
    have heff := keyRandom_of_range hlow hhigh hok
    refine ⟨_, hx, execKeyRandom_frame m hx, answered_of_respond heff ((draw_frame _ _).mbx_eq (by decide)) (by rw [draw_length]; omega), ?_⟩
    rw [State.after_key, heff, ok_key, draw_key]
  -- KEY_CLEAR_COUNTS
  · have hx : exec (.keyClearCounts m) s = .next _ := run_withKeys ha hk _
    refine ⟨_, hx, execKeyClearCounts_frame m hx, answered_of_respond (b := { s.block with key := _ }) rfl rfl (by simp), ?_⟩
    rw [State.after_key, ok_key]

end Sys2Proof
end

section
/-! PROOFS. Ring, cancel, acknowledge, start and completion of a mailbox request, and the guard of the commands (R424 to R428). -/

namespace Sys2Proof

open Machine

namespace Machine

/-! ### One mailbox replaced (R422) -/

theorem vget_vset_ne {α : Type} {n : Nat} (v : Vector α n) {i j : Fin n} (x : α) (h : j ≠ i) : vget (vset v i x) j = vget v j := by
  have hval : i.val ≠ j.val := Fin.val_ne_of_ne h.symm
  simp [vget, vset, hval]

theorem mbxOf_setMbx (m : Fin 4) (x : Mailbox) (b : Block) : mbxOf (setMbx m x b) m = x := vget_vset_self _ _ _

theorem mbxOf_setMbx_ne {m k : Fin 4} (hk : k ≠ m) (x : Mailbox) (b : Block) : mbxOf (setMbx m x b) k = mbxOf b k := vget_vset_ne _ _ hk

theorem mbxOf_congr {b c : Block} (h : c.mbx = b.mbx) (m : Fin 4) : mbxOf c m = mbxOf b m := by rw [mbxOf, h, mbxOf]

theorem mbxOf_after (s : State) (f : Block → Block) (m : Fin 4) : mbxOf (s.after f).block m = mbxOf (f s.block) m :=
  mbxOf_congr (State.after_mbx s f) m

theorem mbxOf_irq (n : Nat) (b : Block) (m : Fin 4) : mbxOf (irq n b) m = mbxOf b m := mbxOf_congr ((irq_frame n b).mbx_eq (by decide)) m

theorem mbxOf_mbxDone (m : Fin 4) (b : Block) : mbxOf (mbxDone m b) m = { mbxOf b m with state := .done } :=
  (mbxOf_irq _ _ m).trans (mbxOf_setMbx _ _ _)

theorem mbxOf_mbxDone_ne {m k : Fin 4} (hk : k ≠ m) (b : Block) : mbxOf (mbxDone m b) k = mbxOf b k :=
  (mbxOf_irq _ _ k).trans (mbxOf_setMbx_ne hk _ _)

/-- The mailbox that a response is written to. -/
theorem mbxOf_respond (m : Fin 4) (status : Nat) (p : List U8) (b : Block) :
    mbxOf (respond m status p b) m = { mbxOf b m with
      resp := Memory.ofBytes (leBytes 2 (reqOp b m) ++ b16 (reqTag b m) ++ leBytes 2 status ++ leBytes 2 (p.take 1016).length ++ p.take 1016)
      answered := true } := by
  rw [mbxOf, respond_mbx, vget_vset_self]

/-! ### Rings (R425, R427) -/

/-- The request in mailbox `m` repeats the one kept with the last response. -/
def duplicate (b : Block) (m : Fin 4) : Prop :=
  reqTag b m ≠ 0 ∧ (mbxOf b m).lastValid = true ∧ (mbxOf b m).lastReq = reqImage b m

theorem not_duplicate {b : Block} {m : Fin 4}
    (h : reqTag b m = 0 ∨ (mbxOf b m).lastValid = false ∨ (mbxOf b m).lastReq ≠ reqImage b m) : ¬ duplicate b m := by
  rintro ⟨htag, hvalid, hreq⟩
  rcases h with h | h | h
  · exact htag h
  · rw [h] at hvalid
    cases hvalid
  · exact h hreq

/-- Mailbox `m` waits with its request, as the next arrival. -/
def mbxQueued (m : Fin 4) (b : Block) : Block :=
  { setMbx m { mbxOf b m with
      state := .queued, tag := reqTag b m, replayed := false, answered := false, arrival := b.hp.arrivals, rungAt := now b } b with
    hp := { b.hp with arrivals := b.hp.arrivals + 1 } }

/-- Mailbox `m` is DONE again with the response it holds. -/
def mbxReplayed (m : Fin 4) (b : Block) : Block := mbxDone m (setMbx m { mbxOf b m with state := .done, tag := reqTag b m, replayed := true } b)

theorem mbxRing_of_waiting {m : Fin 4} {b : Block} (h : (mbxOf b m).state = .queued ∨ (mbxOf b m).state = .busy) :
    mbxRing m b = setMbx m { mbxOf b m with ringErr := true } b := by
  rcases h with h | h <;> simp only [mbxRing, h]

theorem mbxRing_of_new {m : Fin 4} {b : Block} (h : (mbxOf b m).state = .idle ∨ (mbxOf b m).state = .done) (hnew : ¬ duplicate b m) :
    mbxRing m b = mbxQueued m b := by
  unfold duplicate at hnew
  rcases h with h | h <;> · simp only [mbxRing, h, hnew, if_false]; rfl

theorem mbxRing_of_duplicate {m : Fin 4} {b : Block} (h : (mbxOf b m).state = .done) (hdup : duplicate b m) : mbxRing m b = mbxReplayed m b := by
  unfold duplicate at hdup
  simp only [mbxRing, h]
  rw [if_pos hdup]
  rfl

theorem mbxOf_mbxReplayed (m : Fin 4) (b : Block) :
    mbxOf (mbxReplayed m b) m = { mbxOf b m with tag := reqTag b m, replayed := true, state := .done } := by
  rw [mbxReplayed, mbxOf_mbxDone, mbxOf_setMbx]

/-! ### Cancel and acknowledge (R425) -/

/-- A queued request cancelled. -/
def mbxCancelled (m : Fin 4) (b : Block) : Block := mbxDone m (setMbx m { mbxOf (refuse m 5 b) m with lastValid := false } (refuse m 5 b))

theorem mbxCancel_of_queued {m : Fin 4} {b : Block} (h : (mbxOf b m).state = .queued) : mbxCancel m b = mbxCancelled m b := if_pos h

theorem mbxOf_mbxCancelled (m : Fin 4) (b : Block) :
    mbxOf (mbxCancelled m b) m = { mbxOf (refuse m 5 b) m with lastValid := false, state := .done } := by
  rw [mbxCancelled, mbxOf_mbxDone, mbxOf_setMbx]

/-- The response to a cancelled request is that of its refusal. -/
theorem answered_of_cancelled {s : State} {m : Fin 4} (h : (mbxOf s.block m).state = .queued) : Answered s (s.after (mbxCancel m)) m 5 [] := by
  have hrefused : Answered s (s.after (refuse m 5)) m 5 [] := answered_of_refuse rfl
  simpa only [Answered, mbxOf_after, mbxCancel_of_queued h, mbxOf_mbxCancelled] using hrefused

theorem bootPost_of_none {b : Block} (h : b.upd.fetch = none) : bootPost b = b := by
  rw [bootPost, h]

theorem mbxAcknowledge_of_done {m : Fin 4} {b : Block} (h : (mbxOf b m).state = .done) (hfetch : b.upd.fetch = none) :
    mbxAcknowledge m b = setMbx m { mbxOf b m with state := .idle } b := by
  have hack : mbxAck m b = setMbx m { mbxOf b m with state := .idle } b := if_pos h
  exact (congrArg bootPost hack).trans (bootPost_of_none hfetch)

/-! ### Start and end (R424, R426, R427) -/

/-- Mailbox `m` is BUSY. -/
def mbxBegun (m : Fin 4) (b : Block) : Block := setMbx m { mbxOf b m with state := .busy, answered := false } b

theorem mbxOf_mbxBegun (m : Fin 4) (b : Block) : mbxOf (mbxBegun m b) m = { mbxOf b m with state := .busy, answered := false } :=
  mbxOf_setMbx _ _ _

/-- What the length check and the check of reserved bits read is the request buffer. -/
theorem shapeChecks_congr {b c : Block} {m : Fin 4} (h : (mbxOf c m).req = (mbxOf b m).req) (x : ReqShape) :
    lengthOk x c m = lengthOk x b m ∧ reservedOk x c m = reservedOk x b m := by
  have hlen : reqLen c m = reqLen b m := by rw [reqLen, h, reqLen]
  have hrsvd : reqRsvd c m = reqRsvd b m := by rw [reqRsvd, h, reqRsvd]
  have hbyte : rB c m = rB b m := by
    funext o
    rw [rB, h, rB]
  have hnum : rN c m = rN b m := by
    funext o n
    rw [rN, rBytes, h, rN, rBytes]
  unfold lengthOk reservedOk
  rw [hlen, hrsvd, hbyte, hnum]
  exact ⟨rfl, rfl⟩

theorem beginRequest_of_fit {x : Option ReqShape} {m : Fin 4} {b : Block}
    (h : (x.any fun x => lengthOk x b m && reservedOk x b m) = true) : beginRequest x m b = mbxBegun m b := by
  obtain ⟨y, rfl⟩ : ∃ y, x = some y := by
    cases x with
    | none => cases h
    | some y => exact ⟨y, rfl⟩
  obtain ⟨hlen, hres⟩ := shapeChecks_congr (c := mbxBegun m b) (b := b) (m := m) (by rw [mbxOf_mbxBegun]) y
  obtain ⟨hl, hr⟩ : lengthOk y b m = true ∧ reservedOk y b m = true := by simpa using h
  rw [hl] at hlen
  rw [hr] at hres
  unfold mbxBegun at hlen hres ⊢
  simp only [beginRequest, hlen, hres, Bool.not_true, Bool.false_eq_true, if_false]

theorem beginRequest_of_unknown {x : Option ReqShape} (h : x.isNone = true) (m : Fin 4) (b : Block) :
    beginRequest x m b = refuse m 1 (mbxBegun m b) := by
  rw [Option.isNone_iff_eq_none.mp h]
  rfl

theorem requestStart_of_mayStart {m : Fin 4} {b : Block} (hmay : mayStart b m = true) (hrun : b.tide.running = true)
    (ht : presentedAt (mbxOf b m).rungAt < 2 ^ 64) :
    requestStart m b = beginRequest (reqShape (reqOp b m)) m (tideTo (presentedAt (mbxOf b m).rungAt) b) := by
  rw [requestStart, if_pos hmay, atInstant_of_running hrun ht]

theorem tideTo_mbx (t : Nat) (b : Block) : (tideTo t b).mbx = b.mbx := (tideTo_frame t b).mbx_eq (by decide)

theorem mbxComplete_of_answered {m : Fin 4} {b : Block} (hbusy : (mbxOf b m).state = .busy) (hans : (mbxOf b m).answered = true) :
    mbxComplete m b = mbxDone m (setMbx m { mbxOf b m with lastReq := reqImage b m, lastValid := true } b) := if_pos ⟨hbusy, hans⟩

/-! ### The guard of the commands (R428, R537, R550) -/

section
variable {m : Fin 4} {op : Nat} {need : Need} {f : Block → Block} {b : Block}

theorem command_of_idle (h : serving b m op = false) : command m op need f b = b := by
  simp [command, h]

theorem command_of_absent (h : serving b m op = true) (hcore : coreRuns b need = false) : command m op need f b = refuse m 8 b := by
  simp [command, h, hcore]

/-- In replay mode a command of the replay and dump family without its item is turned away. -/
theorem command_of_replay (h : serving b m op = true) (hcore : coreRuns b need = true) (hmode : b.rpl.mode = true)
    (hitem : b.rpl.results.find? (fun l => natAt l 0 2 == op) = none) (hfam : familyOf op = 0x14) (hfirst : op ≠ 0x1401) (hlast : op ≠ 0x1407) :
    command m op need f b = refuse m 7 b := by
  have htrace : answeredByTrace op = true := by simp [answeredByTrace, hfam]
  have hother : ¬ (op = 0x1401 ∨ op = 0x1407) := fun hc => hc.elim hfirst hlast
  have hanswer : replayAnswer m op f b = refuse m 7 b := by
    unfold replayAnswer
    simp only [hitem]
    rw [if_neg (by rw [hfam]; decide), if_neg hother]
  simp [command, h, hcore, hmode, htrace, hanswer]

end

theorem firstFail_of_holding {l : List (Nat × Bool)} (h : ∀ x ∈ l, x.2 = true) : firstFail l = none := by
  induction l with
  | nil => rfl
  | cons y l ih =>
    obtain ⟨hy, hl⟩ := List.forall_mem_cons.mp h
    obtain ⟨status, holds⟩ := y
    cases hy
    exact ih hl

theorem firstFail_append_failing {l : List (Nat × Bool)} (h : ∀ x ∈ l, x.2 = true) (status : Nat) (r : List (Nat × Bool)) :
    firstFail (l ++ (status, false) :: r) = some status := by
  induction l with
  | nil => rfl
  | cons y l ih =>
    obtain ⟨hy, hl⟩ := List.forall_mem_cons.mp h
    obtain ⟨st, holds⟩ := y
    cases hy
    exact ih hl

end Machine

/-- Settles O15: each operation replaces its mailbox alone; the checks of a start read the request buffer, which the start leaves. -/
theorem mailboxProtocol : Obligations.MailboxProtocol := by
  refine ⟨fun s m hst hnew => ?_, fun s m hst => ?_, fun s m hst htag hvalid hreq => ?_, fun s m hst => ?_, fun s m hst hfetch => ?_,
    fun s m hmay hrun ht hfit => ?_, fun s m hmay hrun ht hnone => ?_, fun s m hbusy hans => ?_⟩
  -- MBX_RING
  · have heff := mbxRing_of_new hst (not_duplicate hnew)
    have hm : mbxOf (mbxQueued m s.block) m = _ := mbxOf_setMbx _ _ _
    refine ⟨s.after (mbxRing m), rfl, execMbxRing_frame m rfl, ?_⟩
    simp only [mbxOf_after, State.after_hp, heff, hm, true_and]
    exact ⟨rfl, fun k hk => mbxOf_setMbx_ne hk _ _⟩
  · have heff := mbxRing_of_waiting hst
    refine ⟨s.after (mbxRing m), rfl, execMbxRing_frame m rfl, ?_⟩
    rw [mbxOf_after, State.after_hp, heff, mbxOf_setMbx]
    exact ⟨rfl, rfl⟩
  · have heff := mbxRing_of_duplicate hst ⟨htag, hvalid, hreq⟩
    refine ⟨s.after (mbxRing m), rfl, execMbxRing_frame m rfl, ?_⟩
    rw [mbxOf_after, State.after_hp, heff, mbxOf_mbxReplayed]
    exact ⟨rfl, (irq_frame _ _).hp_eq (by decide)⟩
  -- MBX_CANCEL
  · refine ⟨s.after (mbxCancel m), rfl, execMbxCancel_frame m rfl, ?_, ?_, answered_of_cancelled hst⟩
    · rw [mbxOf_after, mbxCancel_of_queued hst, mbxOf_mbxCancelled]
    · rw [mbxOf_after, mbxCancel_of_queued hst, mbxOf_mbxCancelled]
  -- MBX_ACKNOWLEDGE
  · have heff := mbxAcknowledge_of_done hst hfetch
    refine ⟨s.after (mbxAcknowledge m), rfl, execMbxAcknowledge_frame m rfl, ?_, fun k hk => ?_⟩
    · rw [mbxOf_after, heff, mbxOf_setMbx]
    · rw [mbxOf_after, heff, mbxOf_setMbx_ne hk]
  -- MBX_REQUEST_START
  · have hsame := mbxOf_congr (tideTo_mbx (presentedAt (mbxOf s.block m).rungAt) s.block)
    have heff : requestStart m s.block = mbxBegun m (tideTo (presentedAt (mbxOf s.block m).rungAt) s.block) := by
      have hcheck := shapeChecks_congr (congrArg Mailbox.req (hsame m))
      rw [requestStart_of_mayStart hmay hrun ht]
      refine beginRequest_of_fit ?_
      simpa only [(hcheck _).1, (hcheck _).2] using hfit
    refine ⟨s.after (requestStart m), rfl, execMbxRequestStart_frame m rfl, ?_, fun k hk => ?_⟩
    · rw [mbxOf_after, heff, mbxOf_mbxBegun, hsame]
    · rw [mbxOf_after, heff, mbxBegun, mbxOf_setMbx_ne hk, hsame]
  · have hsame := mbxOf_congr (tideTo_mbx (presentedAt (mbxOf s.block m).rungAt) s.block) m
    have heff := (requestStart_of_mayStart hmay hrun ht).trans
      (beginRequest_of_unknown hnone m (tideTo (presentedAt (mbxOf s.block m).rungAt) s.block))
    refine ⟨s.after (requestStart m), rfl, execMbxRequestStart_frame m rfl, ⟨?_, ?_⟩, ?_⟩
    · rw [mbxOf_after, heff, refuse, mbxOf_respond]
    · rw [mbxOf_after, heff, refuse, mbxOf_respond]
      simp only [reqOp, reqTag, mbxOf_mbxBegun, hsame, List.take_nil, List.length_nil]
    · rw [mbxOf_after, heff, refuse, mbxOf_respond, mbxOf_mbxBegun]
  -- MBX_RESPONSE_DONE
  · have heff := mbxComplete_of_answered hbusy hans
    refine ⟨s.after (mbxComplete m), rfl, execMbxResponseDone_frame m rfl, ?_, fun k hk => ?_⟩
    · rw [mbxOf_after, heff, mbxOf_mbxDone, mbxOf_setMbx]
    · rw [mbxOf_after, heff, mbxOf_mbxDone_ne hk, mbxOf_setMbx_ne hk]

/-- Settles O16: the branches of the guard in their order, and the checks of a command by induction over their list. -/
theorem commandsTurnedAway : Obligations.CommandsTurnedAway := by
  intro m op need f s
  refine ⟨command_of_idle, command_of_absent, command_of_replay, fun ha => command_of_asked ha f, fun l hl => ?_, fun l status r hl => ?_⟩
  · exact checked_of_pass (firstFail_of_holding hl) f s.block
  · exact checked_of_fail (firstFail_append_failing hl status r) f s.block

end Sys2Proof
end

section
/-! PROOFS. What arrives on Causeway, what is sent, and the instants of the link (R440 to R450). -/

namespace Sys2Proof

open Machine

namespace Block.Only

variable {l : List Part} {b c : Block}

theorem cwy_eq (h : Block.Only l b c) (hp : Part.cwy ∉ l) : c.cwy = b.cwy := h .cwy hp
theorem cwyX_eq (h : Block.Only l b c) (hp : Part.cwyX ∉ l) : c.cwyX = b.cwyX := h .cwyX hp

end Block.Only

namespace Machine

section
variable (s : State) (f : Block → Block)

@[simp] theorem State.after_cwy : (s.after f).block.cwy = (f s.block).cwy := (safetyItem_frame _ _).cwy_eq (by decide)
@[simp] theorem State.after_cwyX : (s.after f).block.cwyX = (f s.block).cwyX := (safetyItem_frame _ _).cwyX_eq (by decide)

end

@[simp] theorem irq_cwy (n : Nat) (b : Block) : (irq n b).cwy = b.cwy := (irq_frame n b).cwy_eq (by decide)
@[simp] theorem irq_cwyX (n : Nat) (b : Block) : (irq n b).cwyX = b.cwyX := (irq_frame n b).cwyX_eq (by decide)
@[simp] theorem irq_qmg (n : Nat) (b : Block) : (irq n b).qmg = b.qmg := (irq_frame n b).qmg_eq (by decide)
@[simp] theorem ok_cwy (m : Fin 4) (p : List U8) (b : Block) : (ok m p b).cwy = b.cwy := (ok_frame m p b).cwy_eq (by decide)
@[simp] theorem ok_cwyX (m : Fin 4) (p : List U8) (b : Block) : (ok m p b).cwyX = b.cwyX := (ok_frame m p b).cwyX_eq (by decide)
@[simp] theorem ok_qmg (m : Fin 4) (p : List U8) (b : Block) : (ok m p b).qmg = b.qmg := (ok_frame m p b).qmg_eq (by decide)

theorem groupOf_congr {b c : Block} (h : c.cwy = b.cwy) (g : Fin 64) : groupOf c g = groupOf b g := by rw [groupOf, h, groupOf]

theorem groupOf_after (s : State) (f : Block → Block) (g : Fin 64) : groupOf (s.after f).block g = groupOf (f s.block) g :=
  groupOf_congr (State.after_cwy s f) g

theorem groupOf_updGroup (g : Fin 64) (f : CreditGroup → CreditGroup) (b : Block) : groupOf (updGroup g f b) g = f (groupOf b g) :=
  vget_vupd_self _ _ _

theorem groupOf_updGroup_ne {g k : Fin 64} (hk : k ≠ g) (f : CreditGroup → CreditGroup) (b : Block) :
    groupOf (updGroup g f b) k = groupOf b k := vget_vupd_ne _ _ hk

/-! ### A reset of the link (R450) -/

/-- From `b` to `c` the link was reset with cause `cause`. -/
structure LinkResetBy (cause : BitVec 4) (b c : Block) : Prop where
  state : c.cwy.state = if b.cwy.enable = true then LinkState.training else LinkState.disabled
  lastCause : c.cwy.lastCause = cause
  outstanding : c.cwy.outstanding = []
  counted : c.cwy.resetCnt = satInc b.cwy.resetCnt
  raised : Raised c 33

/-- A reset restarts a link whose enable and count it finds as they were. -/
theorem linkReset_resetBy (cause group : Nat) {b c : Block} (hen : c.cwy.enable = b.cwy.enable) (hcnt : c.cwy.resetCnt = b.cwy.resetCnt) :
    LinkResetBy (BitVec.ofNat 4 cause) b (linkReset cause group c) := by
  unfold linkReset
  constructor
  · rw [irq_cwy, ← hen]
  · rw [irq_cwy]
  · rw [irq_cwy]
  · rw [irq_cwy, ← hcnt]
  · exact irq_pends (n := 33) (by decide) _

/-- The records not acknowledged are sent first after a reset. -/
theorem linkReset_resend (cause group : Nat) (b : Block) :
    (linkReset cause group b).cwy.resend = b.cwy.outstanding.map (·.2) ++ b.cwy.resend := by
  unfold linkReset
  rw [irq_cwy]

/-- A reset on a violation of credit raises source 35 too. -/
theorem creditViolation_raised (g : Nat) (b : Block) : Raised (creditViolation g b) 35 := by
  have hkeeps : Hic.KeepsPending (irq 35 b).hic (creditViolation g b).hic := (Hic.KeepsPending.refl (irq 35 b).hic).irq 33
  exact hkeeps 35 (irq_pends (n := 35) (by decide) b)

theorem creditViolation_resetBy (g : Nat) {b c : Block} (hen : c.cwy.enable = b.cwy.enable) (hcnt : c.cwy.resetCnt = b.cwy.resetCnt) :
    LinkResetBy 6 b (creditViolation g c) := by
  refine linkReset_resetBy 6 g ?_ ?_
  · rwa [irq_cwy]
  · rwa [irq_cwy]

/-- A reset seen in the state that follows. -/
theorem resetBy_after {s : State} {f : Block → Block} {cause : BitVec 4} {c : Block} (heff : f s.block = c) (h : LinkResetBy cause s.block c) :
    (s.after f).block.cwy.state = (if s.block.cwy.enable = true then LinkState.training else LinkState.disabled) ∧
      (s.after f).block.cwy.lastCause = cause ∧ (s.after f).block.cwy.outstanding = [] ∧
      (s.after f).block.cwy.resetCnt = satInc s.block.cwy.resetCnt ∧ Raised (s.after f).block 33 := by
  obtain ⟨hstate, hcause, hout, hcnt, hirq⟩ := h
  rw [State.after_cwy, Raised, State.after_hic, heff]
  exact ⟨hstate, hcause, hout, hcnt, hirq⟩

/-! ### Slots (R441, R443) -/

theorem crcFailure_cwy (b : Block) : (crcFailure b).cwy = b.cwy := (crcFailure_frame b).cwy_eq (by decide)
theorem crcFailure_qmg (b : Block) : (crcFailure b).qmg = b.qmg := (crcFailure_frame b).qmg_eq (by decide)

theorem crcFailure_cwyX (b : Block) : (crcFailure b).cwyX = { b.cwyX with crcTimes := (now b :: b.cwyX.crcTimes).take 17 } :=
  onlyIf_keeps (q := Block.cwyX) (irq_cwyX 34) _ _

/-- A slot with a wrong CRC is counted. -/
def slotMiscoded (b : Block) : Block :=
  crcFailure { b with cwy := { b.cwy with crcRec := satInc b.cwy.crcRec }, cwyX := { b.cwyX with crcRun := b.cwyX.crcRun + 1 } }

/-- The run of wrong CRCs is over. -/
def slotSound (b : Block) : Block := { b with cwyX := { b.cwyX with crcRun := 0 } }

section
variable {x : CwySlot} {b : Block}

theorem slotReceive_of_down (h : b.cwy.state ≠ .up) : slotReceive x b = b := if_pos h

variable (hup : b.cwy.state = .up)
include hup

theorem slotReceive_of_training (hx : x.training = true) : slotReceive x b = linkReset 7 0 b := by
  rw [slotReceive, if_neg (not_not.mpr hup), if_pos hx]

section
variable (hx : x.training = false) (hcrc : natAt (padTo 72 x.bytes) 68 4 ≠ (crc32c ((padTo 72 x.bytes).take 68)).toNat)
include hx hcrc

theorem slotReceive_of_miscoded : slotReceive x b = onlyIf (decide (8 ≤ b.cwyX.crcRun + 1)) (linkReset 3 0) (slotMiscoded b) := by
  rw [slotReceive, if_neg (not_not.mpr hup), if_neg (by simp [hx])]
  exact if_pos hcrc

theorem slotReceive_of_miscoded_few (hfew : b.cwyX.crcRun < 7) : slotReceive x b = slotMiscoded b := by
  rw [slotReceive_of_miscoded hup hx hcrc, decide_eq_false (by omega)]
  rfl

theorem slotReceive_of_miscoded_many (hmany : 7 ≤ b.cwyX.crcRun) : slotReceive x b = linkReset 3 0 (slotMiscoded b) := by
  rw [slotReceive_of_miscoded hup hx hcrc, decide_eq_true (by omega)]
  rfl

end

section
variable (hx : x.training = false) (hcrc : natAt (padTo 72 x.bytes) 68 4 = (crc32c ((padTo 72 x.bytes).take 68)).toNat)
include hx hcrc

theorem slotReceive_of_gap (hseq : natAt (padTo 72 x.bytes) 64 2 ≠ b.cwy.rxNext.toNat) : slotReceive x b = slotSound b := by
  simp only [slotReceive, hup, hx, hcrc, hseq, ne_eq, not_true_eq_false, not_false_eq_true, if_false, if_true, Bool.false_eq_true]
  rfl

theorem slotReceive_of_next (hseq : natAt (padTo 72 x.bytes) 64 2 = b.cwy.rxNext.toNat) :
    slotReceive x b = acceptRecord (padTo 72 x.bytes) (slotSound b) := by
  simp only [slotReceive, hup, hx, hcrc, hseq, ne_eq, not_true_eq_false, if_false, Bool.false_eq_true]
  rfl

end

end

/-- A record for whose group no buffer is left violates its credit. -/
theorem acceptRecord_of_full {l : List U8} {b : Block} (h : freeReserved b (slotGroup l) = 0) :
    acceptRecord l b = creditViolation (slotGroup l).val b := if_pos (.inr h)

/-! ### Credit frames (R442) -/

/-- A credit frame with a wrong CRC is counted. -/
def creditMiscoded (b : Block) : Block :=
  crcFailure { b with cwy := { b.cwy with crcCredit := satInc b.cwy.crcCredit }, cwyX := { b.cwyX with creditRun := b.cwyX.creditRun + 1 } }

section
variable {l : List U8} {b : Block}

theorem creditReceive_of_down (h : b.cwy.state ≠ .up) : creditReceive l b = b := if_pos h

variable (hup : b.cwy.state = .up)
include hup

section
variable (hcrc : natAt (padTo 18 l) 16 2 ≠ (crc16 ((padTo 18 l).take 16)).toNat)
include hcrc

theorem creditReceive_of_miscoded : creditReceive l b = onlyIf (decide (8 ≤ b.cwyX.creditRun + 1)) (linkReset 4 0) (creditMiscoded b) := by
  unfold creditReceive
  extract_lets k
  rw [if_neg (not_not.mpr hup)]
  exact if_pos hcrc

theorem creditReceive_of_miscoded_few (hfew : b.cwyX.creditRun < 7) : creditReceive l b = creditMiscoded b := by
  rw [creditReceive_of_miscoded hup hcrc, decide_eq_false (by omega)]
  rfl

theorem creditReceive_of_miscoded_many (hmany : 7 ≤ b.cwyX.creditRun) : creditReceive l b = linkReset 4 0 (creditMiscoded b) := by
  rw [creditReceive_of_miscoded hup hcrc, decide_eq_true (by omega)]
  rfl

end

theorem creditReceive_of_sound (hcrc : natAt (padTo 18 l) 16 2 = (crc16 ((padTo 18 l).take 16)).toNat) :
    creditReceive l b = takeCredits ((List.range 7).map fun i => natAt (padTo 18 l) (2 + 2 * i) 2)
      (takeAck (BitVec.ofNat 16 (natAt (padTo 18 l) 0 2)) { b with cwyX := { b.cwyX with creditRun := 0 } }) := by
  simp only [creditReceive, hup, hcrc, ne_eq, not_true_eq_false, if_false]

end

/-! ### Records sent (R443, R446, R448) -/

theorem recordSend_of_closed {b : Block} (h : b.cwy.state ≠ .up ∨ 256 ≤ b.cwy.outstanding.length) : recordSend b = b := if_pos h

section
variable {b : Block} (hup : b.cwy.state = .up) (hroom : b.cwy.outstanding.length < 256)
include hup hroom

theorem recordSend_of_kept {u : Nat} {l : List Nat} (hkept : b.cwy.resend = u :: l) (hcredit : creditOf (groupOf b (groupOfBuf b u)) ≠ 0) :
    recordSend b = transmit (groupOfBuf b u) u { b with cwy := { b.cwy with resend := l } } := by
  have hopen : ¬ (b.cwy.state ≠ .up ∨ 256 ≤ b.cwy.outstanding.length) := by
    rintro (h | h)
    · exact h hup
    · omega
  rw [recordSend, if_neg hopen]
  simp only [hkept, hcredit, if_false]

end

theorem recordSend_of_none {b : Block} (hkept : b.cwy.resend = []) (hnext : nextOutbound b = none) : recordSend b = b := by
  simp only [recordSend, hkept, hnext, ite_self]

/-- Following a group's wait leaves its counts and every other unit of the link. -/
theorem groupOf_noteWait (g k : Fin 64) (b : Block) :
    groupOf (noteWait g b) k = { groupOf b k with
      waitSince := (groupOf (noteWait g b) k).waitSince, stalled := (groupOf (noteWait g b) k).stalled } := by
  unfold noteWait
  extract_lets x waits
  by_cases hk : k = g
  · subst hk
    rw [groupOf_updGroup]
  · rw [groupOf_updGroup_ne hk]

theorem noteWait_cwy (g : Fin 64) (b : Block) : (noteWait g b).cwy = { b.cwy with groups := (noteWait g b).cwy.groups } := rfl

/-- What a transmission counts. -/
theorem transmit_counts (g : Fin 64) (u : Nat) (b : Block) :
    (transmit g u b).cwy.outstanding = b.cwy.outstanding ++ [(b.cwy.txNext, u)] ∧ (transmit g u b).cwy.txNext = b.cwy.txNext + 1 ∧
      (transmit g u b).cwy.resend = b.cwy.resend ∧ (groupOf (transmit g u b) g).sent = (groupOf b g).sent + 1 ∧
      (transmit g u b).cwy.txRec = satInc b.cwy.txRec := by
  unfold transmit
  extract_lets first c
  refine ⟨rfl, rfl, rfl, ?_, rfl⟩
  rw [groupOf_noteWait, groupOf_updGroup]
  rfl

/-! ### Expiries (R444) -/

/-- The outstanding records sent again. -/
def recordsRepeated (b : Block) : Block :=
  { b with
    cwy := { b.cwy with retry := satAdd b.cwy.retry b.cwy.outstanding.length }
    cwyX := { b.cwyX with ackAt := now b, ackExpiries := b.cwyX.ackExpiries + 1, slots := slotsSent b.cwy.outstanding b } }

section
variable {b : Block} (hup : b.cwy.state = .up) (hout : b.cwy.outstanding ≠ [])
  (hdue : b.cwyX.ackAt.toNat + b.cwy.ackTimeout.toNat * tUs ≤ (now b).toNat)
include hup hout hdue

theorem ackTimeout_of_due : ackTimeout b = onlyIf (decide (8 ≤ b.cwyX.ackExpiries + 1)) (linkReset 5 0) (recordsRepeated b) := by
  have hsome : b.cwy.outstanding.length ≠ 0 := fun h => hout (List.length_eq_zero_iff.mp h)
  unfold ackTimeout
  extract_lets n
  rw [if_pos ⟨hup, hsome⟩, afterTicks_of_le hdue]
  rfl

theorem ackTimeout_of_few (hfew : b.cwyX.ackExpiries < 7) : ackTimeout b = recordsRepeated b := by
  rw [ackTimeout_of_due hup hout hdue, decide_eq_false (by omega)]
  rfl

theorem ackTimeout_of_many (hmany : 7 ≤ b.cwyX.ackExpiries) : ackTimeout b = linkReset 5 0 (recordsRepeated b) := by
  rw [ackTimeout_of_due hup hout hdue, decide_eq_true (by omega)]
  rfl

end

theorem ackTimeout_of_idle {b : Block} (h : b.cwy.state ≠ .up ∨ b.cwy.outstanding = []) : ackTimeout b = b := by
  refine if_neg ?_
  rintro ⟨hup, hout⟩
  rcases h with h | h
  · exact h hup
  · exact hout (by rw [h]; rfl)

/-! ### The receive clock (R440, R449) -/

/-- The receive clock noted as lost. -/
def clockNoted (b : Block) : Block := { b with cwy := { b.cwy with rxClkOk := false } }

theorem clockLost_of_enabled {b : Block} (h : b.cwy.enable = true) : clockLost b = linkReset 2 0 (clockNoted b) := if_pos h

theorem clockLost_of_disabled {b : Block} (h : b.cwy.enable = false) : clockLost b = clockNoted b := if_neg (by simp [h])

theorem receiveClockStable_cwy (b : Block) :
    (receiveClockStable b).cwy = { b.cwy with rxClkOk := true, aligning := b.cwy.aligning || b.cwy.state = .training } := by
  by_cases h : b.cwy.state = .training <;> simp [receiveClockStable, h]

/-! ### Training (R449) -/

/-- The link at UP before the groups' waits are followed. -/
def linkOpened (b : Block) : Block :=
  irq 32 { b with
    cwy := { b.cwy with
      state := .up, txNext := 0, txAcked := 0xFFFF, rxNext := 0, rxAckSent := 0xFFFF
      groups := vmapIdx b.cwy.groups fun g x => { x with
        granted := BitVec.ofNat 10 (freeReserved b g), received := 0, sent := 0, hostCredit := 0 } }
    cwyX := { b.cwyX with crcRun := 0, creditRun := 0, ackExpiries := 0, ackAt := now b } }

/-- The link at UP. -/
def linkRestarted (b : Block) : Block := forAll (List.finRange 64) noteWait (linkOpened b)

theorem noteWaits_groups (gs : List (Fin 64)) (k : Fin 64) (b : Block) :
    ∃ w st, groupOf (forAll gs noteWait b) k = { groupOf b k with waitSince := w, stalled := st } := by
  induction gs generalizing b with
  | nil => exact ⟨_, _, rfl⟩
  | cons g gs ih =>
    obtain ⟨w, st, hrest⟩ := ih (noteWait g b)
    have hone := groupOf_noteWait g k b
    exact ⟨w, st, hrest.trans (by rw [hone])⟩

/-- Following the waits changes the groups alone. -/
theorem noteWaits_cwy (gs : List (Fin 64)) (b : Block) :
    (forAll gs noteWait b).cwy = { b.cwy with groups := (forAll gs noteWait b).cwy.groups } := by
  induction gs generalizing b with
  | nil => rfl
  | cons g gs ih =>
    refine (ih (noteWait g b)).trans ?_
    rw [noteWait_cwy]
    rfl

theorem linkOpened_groups (b : Block) (g : Fin 64) : groupOf (linkOpened b) g =
    { groupOf b g with granted := BitVec.ofNat 10 (freeReserved b g), received := 0, sent := 0, hostCredit := 0 } :=
  (groupOf_congr (irq_cwy 32 _) g).trans (vget_vmapIdx _ _ _)

theorem linkRestarted_raised (b : Block) : Raised (linkRestarted b) 32 := by
  rw [Raised, linkRestarted, forAll_keeps (q := Block.hic) (fun g c => (noteWait_frame g c).hic_eq (by decide))]
  exact irq_pends (n := 32) (by decide) _

theorem linkRestarted_cwyX (b : Block) :
    (linkRestarted b).cwyX = { b.cwyX with crcRun := 0, creditRun := 0, ackExpiries := 0, ackAt := now b } :=
  (forAll_keeps (q := Block.cwyX) (fun g c => (noteWait_frame g c).cwyX_eq (by decide)) _ _).trans (irq_cwyX _ _)

theorem linkRestarted_mbx (b : Block) : (linkRestarted b).mbx = b.mbx :=
  (forAll_keeps (q := Block.mbx) (fun g c => (noteWait_frame g c).mbx_eq (by decide)) _ _).trans ((irq_frame _ _).mbx_eq (by decide))

theorem now_linkRestarted (b : Block) : now (linkRestarted b) = now b :=
  congrArg Tide.now ((forAll_keeps (q := Block.tide) (fun g c => (noteWait_frame g c).tide_eq (by decide)) _ _).trans (irq_tide _ _))

/-- The numbers and credits of a link at UP. -/
theorem linkRestarted_starts (b : Block) :
    (linkRestarted b).cwy.state = .up ∧ (linkRestarted b).cwy.txNext = 0 ∧ (linkRestarted b).cwy.rxNext = 0 ∧
      (linkRestarted b).cwy.txAcked = 0xFFFF := by
  rw [linkRestarted, noteWaits_cwy, linkOpened, irq_cwy]
  exact ⟨rfl, rfl, rfl, rfl⟩

theorem linkRestarted_credits (b : Block) (g : Fin 64) :
    (groupOf (linkRestarted b) g).granted = BitVec.ofNat 10 (freeReserved b g) ∧ (groupOf (linkRestarted b) g).received = 0 ∧
      (groupOf (linkRestarted b) g).sent = 0 ∧ (groupOf (linkRestarted b) g).hostCredit = 0 := by
  obtain ⟨w, st, hg⟩ := noteWaits_groups (List.finRange 64) g (linkOpened b)
  rw [linkRestarted, hg, linkOpened_groups]
  exact ⟨rfl, rfl, rfl, rfl⟩

section
variable {b : Block} (htrain : b.cwy.state = .training) (halign : b.cwy.aligning = true)
include htrain halign

theorem linkUp_of_aligned : linkUp b = match b.cwyX.resetMbx with
    | some m => ok m (b64 (now b)) { linkRestarted b with cwyX := { (linkRestarted b).cwyX with resetMbx := none } }
    | none => linkRestarted b := by
  have hmbx : (linkRestarted b).cwyX.resetMbx = b.cwyX.resetMbx := by rw [linkRestarted_cwyX]
  rw [linkUp, if_pos ⟨htrain, halign⟩]
  change (match (linkRestarted b).cwyX.resetMbx with
    | some m => ok m (b64 (now (linkRestarted b))) { linkRestarted b with cwyX := { (linkRestarted b).cwyX with resetMbx := none } }
    | none => linkRestarted b) = _
  rw [hmbx, now_linkRestarted]

theorem linkUp_of_unasked (hmbx : b.cwyX.resetMbx = none) : linkUp b = linkRestarted b := by
  rw [linkUp_of_aligned htrain halign, hmbx]

theorem linkUp_of_asked {m : Fin 4} (hmbx : b.cwyX.resetMbx = some m) :
    linkUp b = ok m (b64 (now b)) { linkRestarted b with cwyX := { (linkRestarted b).cwyX with resetMbx := none } } := by
  rw [linkUp_of_aligned htrain halign, hmbx]

end

theorem linkUp_of_unaligned {b : Block} (h : b.cwy.state ≠ .training ∨ b.cwy.aligning = false) : linkUp b = b := by
  refine if_neg ?_
  rintro ⟨htrain, halign⟩
  rcases h with h | h
  · exact h htrain
  · rw [h] at halign
    cases halign

theorem trainingTimeout_of_due {b : Block} (htrain : b.cwy.state = .training) (hdue : b.cwyX.trainingAt.toNat + tMs ≤ (now b).toNat)
    (hmbx : b.cwyX.resetMbx = none) :
    trainingTimeout b = { b with
      cwy := { b.cwy with aligning := false, resetCnt := satInc b.cwy.resetCnt }, cwyX := { b.cwyX with trainingAt := now b } } := by
  rw [trainingTimeout, if_pos (.inl htrain), afterTicks_of_le hdue]
  simp only [hmbx, htrain, ne_eq, not_true_eq_false, if_false]

theorem trainingTimeout_of_idle {b : Block} (hst : b.cwy.state ≠ .training) (hmbx : b.cwyX.resetMbx = none) : trainingTimeout b = b :=
  if_neg (by simp [hst, hmbx])

/-! ### Stalled groups (R448) -/

/-- Group `g` is stalled, with source 37 when it may be raised again. -/
def groupStalled (g : Fin 64) (b : Block) : Block :=
  onlyIf (mayRaise b (groupOf b g).stallIrq tSec) (irq 37) (updGroup g (fun x => { x with
    stalled := true, stallIrq := if mayRaise b (groupOf b g).stallIrq tSec then some (now b) else x.stallIrq }) b)

theorem groupStall_of_due {g : Fin 64} {b : Block} {i : U64} (hi : (groupOf b g).waitSince = some i)
    (hdue : i.toNat + 10 * tMs ≤ (now b).toNat) : groupStall g b = groupStalled g b := by
  rw [groupStall, hi]
  exact afterTicks_of_le hdue _

theorem groupStall_of_none {g : Fin 64} {b : Block} (hi : (groupOf b g).waitSince = none) : groupStall g b = b := by
  rw [groupStall, hi]

theorem groupStalled_cwy (g : Fin 64) (b : Block) : (groupStalled g b).cwy = (updGroup g (fun x => { x with
    stalled := true, stallIrq := if mayRaise b (groupOf b g).stallIrq tSec then some (now b) else x.stallIrq }) b).cwy :=
  onlyIf_keeps (q := Block.cwy) (irq_cwy 37) _ _

theorem groupStalled_raised {g : Fin 64} {b : Block} (h : mayRaise b (groupOf b g).stallIrq tSec = true) : Raised (groupStalled g b) 37 := by
  simp only [groupStalled, h, onlyIf, if_true]
  exact irq_pends (n := 37) (by decide) _

end Machine

/-- Settles O53: what arrives and what comes due either resets the link, with the same five effects each time, or counts and changes what
its clause names. -/
theorem causewayInstants : Obligations.CausewayInstants := by
  refine ⟨fun s x hdown => ?_, fun s x hup hx => ?_, fun s x hup hx hcrc hfew => ?_, fun s x hup hx hcrc hseq => ?_,
    fun s x hup hx hcrc hseq hfull => ?_, fun s l hdown => ?_, fun s l hup hcrc hfew => ?_, fun s hclosed => ?_,
    fun s u l hup hroom hkept hcredit => ?_, fun s hup hout hdue hfew => ?_, fun s hup hout hdue hmany => ?_, fun s hidle => ?_,
    fun s hen => ?_, fun s hen => ?_, fun s => ?_, fun s htrain halign hmbx => ?_, fun s m htrain halign hmbx => ?_,
    fun s htrain hdue hmbx => ?_, fun s hst hmbx => ?_, fun s _ => ?_, fun s hst => ?_, fun s x hup hx hcrc hseq => ?_,
    fun s x hup hx hcrc hmany => ?_, fun s l hup hcrc hmany => ?_, fun s l hup hcrc => ?_, fun s hup hroom hkept hnext => ?_,
    fun s hup => ?_, fun s g i hi hdue => ?_, fun s g hi => ?_⟩
  -- CWY_RECORD_RECEIVE
  · refine ⟨s.after (slotReceive x), rfl, execCwyRecordReceive_frame x rfl, ?_⟩
    rw [State.after_cwy, State.after_qmg, slotReceive_of_down hdown]
    exact ⟨rfl, rfl⟩
  · exact ⟨s.after (slotReceive x), rfl, execCwyRecordReceive_frame x rfl,
      resetBy_after (slotReceive_of_training hup hx) (linkReset_resetBy 7 0 rfl rfl)⟩
  · refine ⟨s.after (slotReceive x), rfl, execCwyRecordReceive_frame x rfl, ?_⟩
    rw [State.after_cwy, State.after_cwyX, State.after_qmg, slotReceive_of_miscoded_few hup hx hcrc hfew, slotMiscoded, crcFailure_cwy,
      crcFailure_cwyX, crcFailure_qmg]
    exact ⟨rfl, rfl, rfl⟩
  · refine ⟨s.after (slotReceive x), rfl, execCwyRecordReceive_frame x rfl, ?_⟩
    rw [State.after_cwy, State.after_cwyX, State.after_qmg, slotReceive_of_gap hup hx hcrc hseq]
    exact ⟨rfl, rfl, rfl⟩
  · have heff : slotReceive x s.block = creditViolation (slotGroup (padTo 72 x.bytes)).val (slotSound s.block) :=
      (slotReceive_of_next hup hx hcrc hseq).trans (acceptRecord_of_full hfull)
    obtain ⟨hstate, hcause, hout, hcnt, hirq⟩ := resetBy_after heff (creditViolation_resetBy _ rfl rfl)
    refine ⟨s.after (slotReceive x), rfl, execCwyRecordReceive_frame x rfl, hstate, hcause, hout, hcnt, hirq, ?_⟩
    rw [Raised, State.after_hic, heff]
    exact creditViolation_raised _ _
  -- CREDIT_FRAME_RECEIVE
  · refine ⟨s.after (creditReceive l), rfl, execCreditFrameReceive_frame l rfl, ?_⟩
    rw [State.after_cwy, State.after_qmg, creditReceive_of_down hdown]
    exact ⟨rfl, rfl⟩
  · refine ⟨s.after (creditReceive l), rfl, execCreditFrameReceive_frame l rfl, ?_⟩
    rw [State.after_cwy, State.after_cwyX, creditReceive_of_miscoded_few hup hcrc hfew, creditMiscoded, crcFailure_cwy, crcFailure_cwyX]
    exact ⟨rfl, rfl⟩
  -- CWY_RECORD_SEND
  · refine ⟨s.after recordSend, rfl, execCwyRecordSend_frame rfl, ?_⟩
    rw [State.after_cwy, State.after_qmg, recordSend_of_closed hclosed]
    exact ⟨rfl, rfl⟩
  · obtain ⟨hout, hnext, hresend, hsent, hcnt⟩ := transmit_counts (groupOfBuf s.block u) u { s.block with cwy := { s.block.cwy with resend := l } }
    refine ⟨s.after recordSend, rfl, execCwyRecordSend_frame rfl, ?_⟩
    rw [groupOf_after, State.after_cwy, recordSend_of_kept hup hroom hkept hcredit]
    exact ⟨hout, hnext, hresend, hsent, hcnt⟩
  -- ACK_TIMEOUT
  · refine ⟨s.after ackTimeout, rfl, execAckTimeout_frame rfl, ?_⟩
    rw [State.after_cwy, State.after_cwyX, ackTimeout_of_few hup hout hdue hfew]
    exact ⟨rfl, rfl⟩
  · have heff := ackTimeout_of_many hup hout hdue hmany
    obtain ⟨hstate, hcause, hnone, hcnt, hirq⟩ := resetBy_after heff (linkReset_resetBy 5 0 rfl rfl)
    refine ⟨s.after ackTimeout, rfl, execAckTimeout_frame rfl, hstate, hcause, hnone, hcnt, hirq, ?_⟩
    rw [State.after_cwy, heff, linkReset_resend]
    rfl
  · refine ⟨s.after ackTimeout, rfl, execAckTimeout_frame rfl, ?_⟩
    rw [State.after_cwy, State.after_cwyX, ackTimeout_of_idle hidle]
    exact ⟨rfl, rfl⟩
  -- CLOCK_LOST and RECEIVE_CLOCK_STABLE
  · have heff := clockLost_of_enabled hen
    obtain ⟨hstate, hcause, hnone, hcnt, hirq⟩ := resetBy_after heff (linkReset_resetBy 2 0 rfl rfl)
    refine ⟨s.after clockLost, rfl, execClockLost_frame rfl, hstate, hcause, hnone, hcnt, hirq, ?_⟩
    rw [State.after_cwy, heff, linkReset, irq_cwy]
    rfl
  · refine ⟨s.after clockLost, rfl, execClockLost_frame rfl, ?_⟩
    rw [State.after_cwy, State.after_hic, clockLost_of_disabled hen]
    exact ⟨rfl, rfl⟩
  · refine ⟨s.after receiveClockStable, rfl, execReceiveClockStable_frame rfl, ?_⟩
    rw [State.after_cwy, receiveClockStable_cwy]
  -- LINK_UP
  · obtain ⟨hstate, htx, hrx, hack⟩ := linkRestarted_starts s.block
    refine ⟨s.after linkUp, rfl, execLinkUp_frame rfl, ?_⟩
    simp only [groupOf_after, Raised, State.after_cwy, State.after_hic, linkUp_of_unasked htrain halign hmbx]
    exact ⟨hstate, htx, hrx, hack, linkRestarted_credits _, linkRestarted_raised _⟩
  · have heff := linkUp_of_asked htrain halign hmbx
    refine ⟨s.after linkUp, rfl, execLinkUp_frame rfl, ?_, ?_, answered_of_respond heff (linkRestarted_mbx s.block) (by simp)⟩
    · rw [State.after_cwy, heff, ok_cwy]
      exact (linkRestarted_starts s.block).1
    · rw [State.after_cwyX, heff, ok_cwyX]
  -- TRAINING_TIMEOUT
  · refine ⟨s.after trainingTimeout, rfl, execTrainingTimeout_frame rfl, ?_⟩
    rw [State.after_cwy, State.after_cwyX, trainingTimeout_of_due htrain hdue hmbx]
    exact ⟨rfl, rfl⟩
  · refine ⟨s.after trainingTimeout, rfl, execTrainingTimeout_frame rfl, ?_⟩
    rw [State.after_cwy, State.after_cwyX, trainingTimeout_of_idle hst hmbx]
    exact ⟨rfl, rfl⟩
  · exact ⟨s.after trainingTimeout, rfl, execTrainingTimeout_frame rfl, rfl⟩
  -- LINK_UP of a link not aligned
  · refine ⟨s.after linkUp, rfl, execLinkUp_frame rfl, ?_⟩
    rw [State.after_cwy, State.after_cwyX, linkUp_of_unaligned hst]
    exact ⟨rfl, rfl⟩
  -- CWY_RECORD_RECEIVE in sequence, and the eighth wrong CRC in a row
  · exact ⟨s.after (slotReceive x), rfl, execCwyRecordReceive_frame x rfl, State.after_block (slotReceive_of_next hup hx hcrc hseq)⟩
  · exact ⟨s.after (slotReceive x), rfl, execCwyRecordReceive_frame x rfl, resetBy_after (slotReceive_of_miscoded_many hup hx hcrc hmany)
      (linkReset_resetBy 3 0 (by rw [slotMiscoded, crcFailure_cwy]) (by rw [slotMiscoded, crcFailure_cwy]))⟩
  -- CREDIT_FRAME_RECEIVE: the eighth wrong CRC in a row, and a good frame
  · exact ⟨s.after (creditReceive l), rfl, execCreditFrameReceive_frame l rfl, resetBy_after (creditReceive_of_miscoded_many hup hcrc hmany)
      (linkReset_resetBy 4 0 (by rw [creditMiscoded, crcFailure_cwy]) (by rw [creditMiscoded, crcFailure_cwy]))⟩
  · exact ⟨s.after (creditReceive l), rfl, execCreditFrameReceive_frame l rfl, State.after_block (creditReceive_of_sound hup hcrc)⟩
  -- CWY_RECORD_SEND with none to send
  · refine ⟨s.after recordSend, rfl, execCwyRecordSend_frame rfl, ?_⟩
    rw [State.after_cwy, State.after_qmg, recordSend_of_none hkept hnext]
    exact ⟨rfl, rfl⟩
  · exact ⟨s.after recordSend, rfl, execCwyRecordSend_frame rfl, rfl⟩
  -- GROUP_STALL
  · have heff := groupStall_of_due hi hdue
    refine ⟨s.after (groupStall g), rfl, execGroupStall_frame g rfl, ?_, fun hraise => ?_, fun k hk => ?_⟩
    · rw [groupOf_after, heff, groupOf_congr (groupStalled_cwy g s.block), groupOf_updGroup]
    · rw [Raised, State.after_hic, heff]
      exact groupStalled_raised hraise
    · rw [groupOf_after, heff, groupOf_congr (groupStalled_cwy g s.block), groupOf_updGroup_ne hk]
  · refine ⟨s.after (groupStall g), rfl, execGroupStall_frame g rfl, ?_⟩
    rw [State.after_cwy, State.after_hic, groupStall_of_none hi]
    exact ⟨rfl, rfl⟩

end Sys2Proof
end

section
/-! PROOFS. The four operations of the queue manager (R458): the head taken from a queue whose descriptor is listed out of order. -/

namespace Sys2Proof

open Machine

namespace Machine

/-- Queue descriptors listed out of order: queue 3, with buffer 7 alone, behind queue 5. Its descriptor without the buffer is the one at
reset, which is not listed, and the search for the entry to drop stops at queue 5. -/
def unorderedQueues : List (Nat × Queue) := [(5, { bufs := [9] }), (3, { bufs := [7] })]

/-- A running queue manager with those descriptors. -/
def unorderedState : State :=
  { State.reset with block := { State.reset.block with qmg := { State.reset.block.qmg with running := true, queues := unorderedQueues } } }

theorem unorderedState_ready : qmgReady (qAccept unorderedState.block) = true := by decide

theorem unorderedState_head : (qOf unorderedState.block 3).bufs = [7] := by decide

theorem unorderedState_consumer : isConsumer 3 (qOf unorderedState.block 3) agLauncher = true := by decide

/-- After the launcher has taken buffer 7 the queue still shows it. -/
theorem unorderedState_dequeued :
    (qOf (unorderedState.after fun b => qmgDequeue agLauncher 3 (qAccept b)).block 3).bufs = [7] := by decide

end Machine

/-- Refutes O54: the statement ranges over every list of descriptors, and a dequeue that leaves a descriptor at its reset value drops its entry
only where the list is in order. -/
theorem not_queueOperations : ¬ Obligations.QueueOperations := by
  intro h
  obtain ⟨-, -, -, -, -, -, hdequeue, -⟩ := h
  obtain ⟨t, ht, -, -, -, hrest, -⟩ :=
    hdequeue unorderedState agLauncher 3 7 [] unorderedState_ready unorderedState_consumer unorderedState_head
  obtain rfl : unorderedState.after (fun b => qmgDequeue agLauncher 3 (qAccept b)) = t := Host.Outcome.next.inj ht
  have hstill := unorderedState_dequeued.symm.trans hrest
  cases hstill

end Sys2Proof
end

section
/-! PROOFS. The commands of the Causeway and queue family (R449, R457, R461, R464, R467). -/

namespace Sys2Proof

open Machine

namespace Machine

@[simp] theorem saveSettings_cwy (b : Block) : (saveSettings b).cwy = b.cwy := (saveSettings_frame b).cwy_eq (by decide)
@[simp] theorem saveSettings_cwyX (b : Block) : (saveSettings b).cwyX = b.cwyX := (saveSettings_frame b).cwyX_eq (by decide)
@[simp] theorem saveSettings_qmg (b : Block) : (saveSettings b).qmg = b.qmg := (saveSettings_frame b).qmg_eq (by decide)
@[simp] theorem cmdLog_cwy (m : Fin 4) (status : Nat) (b : Block) : (cmdLog m status b).cwy = b.cwy := (cmdLog_frame m status b).cwy_eq (by decide)
@[simp] theorem cmdLog_qmg (m : Fin 4) (status : Nat) (b : Block) : (cmdLog m status b).qmg = b.qmg := (cmdLog_frame m status b).qmg_eq (by decide)

theorem qOf_congr {b c : Block} (h : c.qmg = b.qmg) (q : Nat) : qOf c q = qOf b q := by rw [qOf, h, qOf]

/-! ### The link switched on and off (R449) -/

/-- The link enabled, in training. -/
def linkEnabled (m : Fin 4) (b : Block) : Block :=
  { b with
    cwy := { b.cwy with ackTimeout := BitVec.ofNat 7 (rB b m 2).toNat, enable := true, state := .training, txClkOk := true }
    cwyX := { b.cwyX with trainingAt := now b } }

/-- The link disabled. -/
def linkDisabled (m : Fin 4) (b : Block) : Block :=
  linkReset 1 0 { b with cwy := { b.cwy with ackTimeout := BitVec.ofNat 7 (rB b m 2).toNat, enable := false } }

section
variable {m : Fin 4} {b : Block}

theorem linkTimeout_pass (hlow : 2 ≤ (rB b m 2).toNat) (hhigh : (rB b m 2).toNat ≤ 100) :
    decide (2 ≤ (rB b m 2).toNat ∧ (rB b m 2).toNat ≤ 100) = true := decide_eq_true ⟨hlow, hhigh⟩

theorem cwySetLink_of_start (hlow : 2 ≤ (rB b m 2).toNat) (hhigh : (rB b m 2).toNat ≤ 100) (hen : rBit b m 0 0 = true)
    (hwas : b.cwy.enable = false) : cwySetLink m b = ok m [] (saveSettings (linkEnabled m b)) := by
  unfold cwySetLink
  extract_lets t en
  have hgo : (en && !b.cwy.enable) = true := by simp [en, hen, hwas]
  rw [checked_cons_pass (x := (0x0F02, decide (2 ≤ t ∧ t ≤ 100))) (linkTimeout_pass hlow hhigh), checked_nil]
  simp only [hgo, if_true]
  simp only [en, hen]
  rfl

theorem cwySetLink_of_stop (hlow : 2 ≤ (rB b m 2).toNat) (hhigh : (rB b m 2).toNat ≤ 100) (hen : rBit b m 0 0 = false)
    (hwas : b.cwy.enable = true) : cwySetLink m b = ok m [] (saveSettings (linkDisabled m b)) := by
  unfold cwySetLink
  extract_lets t en
  have hno : (en && !b.cwy.enable) = false := by simp [en, hen]
  have hgo : (!en && b.cwy.enable) = true := by simp [en, hen, hwas]
  rw [checked_cons_pass (x := (0x0F02, decide (2 ≤ t ∧ t ≤ 100))) (linkTimeout_pass hlow hhigh), checked_nil]
  simp only [hno, hgo, if_true, Bool.false_eq_true, if_false]
  simp only [en, hen]
  rfl

theorem cwySetLink_of_range (h : (rB b m 2).toNat < 2 ∨ 100 < (rB b m 2).toNat) : cwySetLink m b = refuse m 0x0F02 b := by
  unfold cwySetLink
  extract_lets t en
  rw [checked_cons_fail (decide_eq_false (by simp only [t]; omega))]

end

/-! ### The link reset on request (R450, R467) -/

/-- Mailbox `m` waits for the link. -/
def linkAwaited (m : Fin 4) (b : Block) : Block := { b with cwyX := { b.cwyX with resetMbx := some m } }

theorem cwyResetLink_of_free {m : Fin 4} {b : Block} (h : b.cwyX.resetMbx = none) : cwyResetLink m b = linkReset 1 0 (linkAwaited m b) := by
  rw [cwyResetLink, h]
  rfl

theorem cwyResetLink_of_waiting {m : Fin 4} {b : Block} (h : b.cwyX.resetMbx ≠ none) : cwyResetLink m b = b := by
  obtain ⟨k, hk⟩ := Option.ne_none_iff_exists'.mp h
  rw [cwyResetLink, hk]

/-! ### Groups (R461) -/

/-- The reservation of the group that mailbox `m` names. -/
def groupReserved (m : Fin 4) (b : Block) : Block := updGroup (reqGroup b m 0) (fun x => { x with reservation := rN b m 2 2 }) b

theorem cwySetGroup_of_pool {m : Fin 4} {b : Block} (hg : (rB b m 0).toNat ≤ 63) (hr : rN b m 2 2 ≤ 512) (hst : b.cwy.state = .disabled)
    (hsum : reservedSum b - (groupOf b (reqGroup b m 0)).reservation + rN b m 2 2 ≤ 16384)
    (hfree : rN b m 2 2 - (groupOf b (reqGroup b m 0)).reservation ≤ freeUnreserved b) :
    cwySetGroup m b = cmdLog m 0 (ok m (leBytes 4 (freeUnreserved (saveSettings (noteLow (groupReserved m b)))))
      (saveSettings (noteLow (groupReserved m b)))) := by
  unfold cwySetGroup
  extract_lets g r old
  rw [checked_cons_pass (decide_eq_true hg), checked_cons_pass (decide_eq_true hr), checked_cons_pass (decide_eq_true hst),
    checked_cons_pass (by simp only [g, r, old, hsum, hfree, decide_true, Bool.and_self]), checked_nil]
  rfl

theorem cwySetGroup_of_beyond {m : Fin 4} {b : Block} (hg : 64 ≤ (rB b m 0).toNat) : cwySetGroup m b = refuse m 0x0F01 b := by
  unfold cwySetGroup
  extract_lets g r old
  rw [checked_cons_fail (decide_eq_false (by omega))]

theorem cwyGetGroup_of_group {m : Fin 4} {b : Block} (hg : (rB b m 0).toNat ≤ 63) :
    cwyGetGroup m b = ok m (leBytes 2 (groupOf b (reqGroup b m 0)).reservation ++ leBytes 2 (freeReserved b (reqGroup b m 0)) ++
      leBytes 2 (creditOf (groupOf b (reqGroup b m 0))) ++
      leBytes 2 ((groupOf b (reqGroup b m 0)).granted - (groupOf b (reqGroup b m 0)).received).toNat ++
      b32 (groupOf b (reqGroup b m 0)).sentCnt ++ b32 (groupOf b (reqGroup b m 0)).recvCnt ++
      [BitVec.ofNat 8 (b2n (groupOf b (reqGroup b m 0)).stalled)]) b := by
  unfold cwyGetGroup
  extract_lets g
  rw [checked_cons_pass (decide_eq_true hg), checked_nil]

/-! ### Queues (R457, R467) -/

theorem recordQueue_of_ok {q : Nat} (h : queueOk q false = true) : 2048 ≤ q := by
  have hq : 2048 ≤ q ∧ q ≤ 32767 := by simpa [queueOk] using h
  exact hq.1

/-- The descriptor of a record queue that is enabled is read back as it was set. -/
theorem qOf_setQ_of_enabled {q : Nat} {x : Queue} (hq : 2048 ≤ q) (hx : x.enabled = true) (b : Block) : qOf (setQ q x b) q = x := by
  have hlow : ¬ q < 2048 := by omega
  have hne : x ≠ queue0 := by
    rintro rfl
    cases hx
  have hget : sget queue0 (sput queue0 b.qmg.queues q x) q = x := sget_sput_of_ne hne _ _
  simp [qOf, setQ, hlow, hget]

/-- The descriptor that a request of QMG_SET_QUEUE gives an inbound queue for the host, enabled anew. -/
def hostQueue (m : Fin 4) (b : Block) : Queue :=
  { qOf b (rN b m 0 2) with
    inbound := true, enabled := true, dropOldest := rBit b m 2 3, consumer := 0x10, group := rB b m 4, limit := r16 b m 6
    nextSeq := 0, lost := false, seqSeen := false }

section
variable {m : Fin 4} {b : Block} (hq : queueOk (rN b m 0 2) false = true)
include hq

theorem qmgSetQueue_of_host (hgrp : (rB b m 4).toNat ≤ 63) (hin : rBit b m 2 1 = true) (hen : rBit b m 2 2 = true) (hcons : rB b m 3 = 0x10)
    (hempty : (qOf b (rN b m 0 2)).bufs = []) (hoff : (qOf b (rN b m 0 2)).enabled = false) :
    qmgSetQueue m b = cmdLog m 0 (ok m [] (saveSettings (setQ (rN b m 0 2) (hostQueue m b) b))) := by
  unfold qmgSetQueue
  extract_lets q inb en dropO cons grp limit d shape
  rw [checked_cons_pass (x := (6, queueOk q false)) hq, checked_cons_pass (decide_eq_true hgrp),
    checked_cons_pass (by simp [cons, inb, hcons, hin]), checked_cons_pass (by simp [d, q, hempty, hoff]), checked_nil]
  have hfresh : (en && !d.enabled) = true := by simp [en, hen, d, q, hoff]
  have hset : { d with
      inbound := inb, enabled := en, dropOldest := dropO, consumer := cons, group := grp, limit := limit
      nextSeq := if en && !d.enabled then 0 else d.nextSeq, lost := if en && !d.enabled then false else d.lost
      seqSeen := if en && !d.enabled then false else d.seqSeen } = hostQueue m b := by
    rw [hfresh]
    simp only [if_true, hostQueue, inb, en, cons, hin, hen, hcons]
    rfl
  exact congrArg (fun x => cmdLog m 0 (ok m [] (saveSettings (setQ q x b)))) hset

theorem qmgGetQueue_of_record : qmgGetQueue m b =
    ok m (descriptor b (rN b m 0 2) ++ b32 (qOf b (rN b m 0 2)).drops ++ b32 (qOf b (rN b m 0 2)).refused) b := by
  unfold qmgGetQueue
  extract_lets q
  rw [checked_cons_pass (x := (6, queueOk q false)) hq, checked_nil]

theorem qmgFlush_of_enabled (hon : (qOf b (rN b m 0 2)).enabled = true) : qmgFlush m b = refuse m 0x0F04 b := by
  unfold qmgFlush
  extract_lets q n
  rw [checked_cons_pass (x := (6, queueOk q false)) hq, checked_cons_fail (by simp [q, hon])]

theorem qmgFlush_of_disabled (hoff : (qOf b (rN b m 0 2)).enabled = false) :
    qmgFlush m b = cmdLog m 0 (ok m (leBytes 4 (qOf b (rN b m 0 2)).bufs.length) (qFlush (rN b m 0 2) b)) := by
  unfold qmgFlush
  extract_lets q n
  rw [checked_cons_pass (x := (6, queueOk q false)) hq, checked_cons_pass (by simp [q, hoff]), checked_nil]

end

theorem qmgSetQueue_of_badQueue {m : Fin 4} {b : Block} (hq : queueOk (rN b m 0 2) false = false) : qmgSetQueue m b = refuse m 6 b := by
  unfold qmgSetQueue
  extract_lets q inb en dropO cons grp limit d shape
  rw [checked_cons_fail (x := (6, queueOk q false)) hq]

theorem descriptor_length (b : Block) (q : Nat) : (descriptor b q).length = 16 := by
  simp [descriptor, b16]

/-! ### The low-water mark and the counts (R461, R464) -/

/-- The mark of the request of mailbox `m`. -/
def lowWaterSet (m : Fin 4) (b : Block) : Block := { b with qmg := { b.qmg with lowWater := BitVec.ofNat 18 (rN b m 0 4) } }

theorem noteLow_marks (b : Block) :
    (noteLow b).qmg.lowWater = b.qmg.lowWater ∧ (noteLow b).qmg.low = decide (freeUnreserved b < b.qmg.lowWater.toNat) := by
  unfold noteLow
  extract_lets f low above raise
  have hkeep : ∀ c : Block, (onlyIf raise (irq 38) c).qmg = c.qmg := fun c => onlyIf_keeps (q := Block.qmg) (irq_qmg 38) _ c
  rw [hkeep]
  exact ⟨rfl, rfl⟩

theorem qmgSetLowWater_of_range {m : Fin 4} {b : Block} (h : rN b m 0 4 ≤ 131072) :
    qmgSetLowWater m b = ok m [] (saveSettings (noteLow (lowWaterSet m b))) := by
  unfold qmgSetLowWater
  extract_lets v
  rw [checked_cons_pass (decide_eq_true h), checked_nil]
  rfl

theorem qmgSetLowWater_of_beyond {m : Fin 4} {b : Block} (h : 131072 < rN b m 0 4) : qmgSetLowWater m b = refuse m 0x0F02 b := by
  unfold qmgSetLowWater
  extract_lets v
  rw [checked_cons_fail (decide_eq_false (Nat.not_le.mpr h))]

theorem cwyQmgClear_of_link {m : Fin 4} {b : Block} (hlink : rBit b m 0 0 = true) (hqmg : rBit b m 0 1 = false) :
    cwyQmgClear m b = ok m [] (cwyClear b) := by
  simp only [cwyQmgClear, hlink, hqmg, onlyIf, if_true, Bool.false_eq_true, if_false]

end Machine

/-- Settles O55: each command passes its checks and sets what its clause names, or is refused at the check that fails; storing the settings and
the log leave the link and the queues. -/
theorem causewayCommands : Obligations.CausewayCommands := by
  refine ⟨fun s m ha hlow hhigh hen hwas => ?_, fun s m ha hlow hhigh hen hwas => ?_, fun s m ha ht => ?_, fun s m ha => ?_,
    fun s m ha hfree => ?_, fun s m ha hwait => ?_, fun s m ha hg hr hst hsum hfree => ?_, fun s m ha hg => ?_, fun s m ha hg => ?_,
    fun s m ha hq hgrp hin hen hcons hempty hoff => ?_, fun s m ha hq => ?_, fun s m ha hq => ?_, fun s m ha hq hon => ?_,
    fun s m ha hq hoff => ?_, fun s m ha => ?_, fun s m ha hv => ?_, fun s m ha hv => ?_, fun s m ha hlink hqmg => ?_⟩
  -- CWY_SET_LINK
  · have hx : exec (.cwySetLink m) s = .next (s.after (cwySetLink m)) := run_of_asked ha _
    have heff := cwySetLink_of_start hlow hhigh hen hwas
    refine ⟨_, hx, execCwySetLink_frame m hx, answered_of_respond heff (saveSettings_mbx _) (by simp), ?_⟩
    rw [State.after_cwy, State.after_cwyX, heff, ok_cwy, ok_cwyX, saveSettings_cwy, saveSettings_cwyX]
    exact ⟨rfl, rfl, rfl, rfl⟩
  · have hx : exec (.cwySetLink m) s = .next (s.after (cwySetLink m)) := run_of_asked ha _
    have heff := cwySetLink_of_stop hlow hhigh hen hwas
    have hmbx : (saveSettings (linkDisabled m s.block)).mbx = s.block.mbx :=
      (saveSettings_mbx _).trans ((linkReset_frame _ _ _).mbx_eq (by decide))
    refine ⟨_, hx, execCwySetLink_frame m hx, answered_of_respond heff hmbx (by simp), ?_⟩
    rw [State.after_cwy, heff, ok_cwy, saveSettings_cwy, linkDisabled, linkReset, irq_cwy]
    exact ⟨rfl, rfl, rfl⟩
  · have hx : exec (.cwySetLink m) s = .next (s.after (cwySetLink m)) := run_of_asked ha _
    have heff := cwySetLink_of_range ht
    exact ⟨_, hx, execCwySetLink_frame m hx, answered_of_refuse heff, (after_refuse_frame heff).cwy_eq (by decide)⟩
  -- CWY_GET_STATUS
  · have hx : exec (.cwyGetStatus m) s = .next _ := run_of_asked ha _
    exact ⟨_, hx, execCwyGetStatus_frame m hx, answered_of_respond (b := s.block) rfl rfl (by rw [b32s_length]; simp)⟩
  -- CWY_RESET_LINK
  · have hx : exec (.cwyResetLink m) s = .next (s.after (cwyResetLink m)) := run_of_asked ha _
    have heff := cwyResetLink_of_free (m := m) hfree
    obtain ⟨-, hcause, -, hcnt, hirq⟩ := resetBy_after heff (linkReset_resetBy 1 0 rfl rfl)
    refine ⟨_, hx, execCwyResetLink_frame m hx, ?_, hcause, hcnt, hirq⟩
    rw [State.after_cwyX, heff, linkReset, irq_cwyX]
    rfl
  · have hx : exec (.cwyResetLink m) s = .next (s.after (cwyResetLink m)) := run_of_asked ha _
    refine ⟨_, hx, execCwyResetLink_frame m hx, ?_⟩
    rw [State.after_cwy, State.after_cwyX, cwyResetLink_of_waiting hwait]
    exact ⟨rfl, rfl⟩
  -- CWY_SET_GROUP
  · have hx : exec (.cwySetGroup m) s = .next (s.after (cwySetGroup m)) := run_of_asked ha _
    refine ⟨_, hx, execCwySetGroup_frame m hx, ?_⟩
    have hcwy : (s.after (cwySetGroup m)).block.cwy = (groupReserved m s.block).cwy := by
      rw [State.after_cwy, cwySetGroup_of_pool hg hr hst hsum hfree, cmdLog_cwy, ok_cwy, saveSettings_cwy]
      exact (noteLow_frame _).cwy_eq (by decide)
    rw [groupOf_congr hcwy, groupReserved, groupOf_updGroup]
  · have hx : exec (.cwySetGroup m) s = .next (s.after (cwySetGroup m)) := run_of_asked ha _
    have heff := cwySetGroup_of_beyond hg
    exact ⟨_, hx, execCwySetGroup_frame m hx, answered_of_refuse heff, (after_refuse_frame heff).cwy_eq (by decide)⟩
  -- CWY_GET_GROUP
  · have hx : exec (.cwyGetGroup m) s = .next (s.after (cwyGetGroup m)) := run_of_asked ha _
    exact ⟨_, hx, execCwyGetGroup_frame m hx, answered_of_respond (cwyGetGroup_of_group hg) rfl (by simp)⟩
  -- QMG_SET_QUEUE
  · have hx : exec (.qmgSetQueue m) s = .next (s.after (qmgSetQueue m)) := run_of_asked ha _
    have heff := qmgSetQueue_of_host hq hgrp hin hen hcons hempty hoff
    have hqof : qOf (s.after (qmgSetQueue m)).block (rN s.block m 0 2) = hostQueue m s.block :=
      (qOf_congr (by rw [State.after_qmg, heff, cmdLog_qmg, ok_qmg, saveSettings_qmg]) _).trans
        (qOf_setQ_of_enabled (recordQueue_of_ok hq) rfl _)
    refine ⟨_, hx, execQmgSetQueue_frame m hx, answered_of_logged heff (saveSettings_mbx _) (by simp), ?_⟩
    rw [hqof]
    exact ⟨rfl, rfl, rfl, rfl, rfl, rfl⟩
  · have hx : exec (.qmgSetQueue m) s = .next (s.after (qmgSetQueue m)) := run_of_asked ha _
    have heff := qmgSetQueue_of_badQueue hq
    exact ⟨_, hx, execQmgSetQueue_frame m hx, answered_of_refuse heff, (after_refuse_frame heff).qmg_eq (by decide)⟩
  -- QMG_GET_QUEUE
  · have hx : exec (.qmgGetQueue m) s = .next (s.after (qmgGetQueue m)) := run_of_asked ha _
    exact ⟨_, hx, execQmgGetQueue_frame m hx, answered_of_respond (qmgGetQueue_of_record hq) rfl (by simp [descriptor_length])⟩
  -- QMG_FLUSH
  · have hx : exec (.qmgFlush m) s = .next (s.after (qmgFlush m)) := run_of_asked ha _
    have heff := qmgFlush_of_enabled hq hon
    exact ⟨_, hx, execQmgFlush_frame m hx, answered_of_refuse heff, congrArg QueueManager.queues ((after_refuse_frame heff).qmg_eq (by decide))⟩
  · have hx : exec (.qmgFlush m) s = .next (s.after (qmgFlush m)) := run_of_asked ha _
    exact ⟨_, hx, execQmgFlush_frame m hx,
      answered_of_logged (qmgFlush_of_disabled hq hoff) ((qFlush_frame _ _).mbx_eq (by decide)) (by simp)⟩
  -- QMG_GET_POOL
  · have hx : exec (.qmgGetPool m) s = .next _ := run_of_asked ha _
    exact ⟨_, hx, execQmgGetPool_frame m hx, answered_of_respond (b := s.block) rfl rfl (by rw [b32s_length]; simp)⟩
  -- QMG_SET_LOW_WATER
  · have hx : exec (.qmgSetLowWater m) s = .next (s.after (qmgSetLowWater m)) := run_of_asked ha _
    have heff := qmgSetLowWater_of_range hv
    have hmbx : (saveSettings (noteLow (lowWaterSet m s.block))).mbx = s.block.mbx :=
      (saveSettings_mbx _).trans ((noteLow_frame _).mbx_eq (by decide))
    obtain ⟨hmark, hlow⟩ := noteLow_marks (lowWaterSet m s.block)
    refine ⟨_, hx, execQmgSetLowWater_frame m hx, answered_of_respond heff hmbx (by simp), ?_⟩
    rw [State.after_qmg, heff, ok_qmg, saveSettings_qmg]
    exact ⟨hmark, hlow⟩
  · have hx : exec (.qmgSetLowWater m) s = .next (s.after (qmgSetLowWater m)) := run_of_asked ha _
    have heff := qmgSetLowWater_of_beyond hv
    exact ⟨_, hx, execQmgSetLowWater_frame m hx, answered_of_refuse heff, (after_refuse_frame heff).qmg_eq (by decide)⟩
  -- CWY_QMG_CLEAR
  · have hx : exec (.cwyQmgClear m) s = .next (s.after (cwyQmgClear m)) := run_of_asked ha _
    have heff := cwyQmgClear_of_link hlink hqmg
    refine ⟨_, hx, execCwyQmgClear_frame m hx, answered_of_respond heff rfl (by simp), ?_⟩
    rw [State.after_cwy, State.after_qmg, heff, ok_cwy, ok_qmg]
    exact ⟨rfl, rfl, rfl, rfl, rfl⟩

end Sys2Proof
end

section
/-! PROOFS. The panels and the contactless readers, read through an update, a draw or a command (R468 to R482). -/

namespace Sys2Proof

open Machine

namespace Block.Only

variable {l : List Part} {b c : Block}

theorem pnl_eq (h : Block.Only l b c) (hp : Part.pnl ∉ l) : c.pnl = b.pnl := h .pnl hp
theorem nfc_eq (h : Block.Only l b c) (hp : Part.nfc ∉ l) : c.nfc = b.nfc := h .nfc hp
theorem frames_eq (h : Block.Only l b c) (hp : Part.frames ∉ l) : c.frames = b.frames := h .frames hp

end Block.Only

namespace Machine

section
variable (s : State) (f : Block → Block)

@[simp] theorem State.after_pnl : (s.after f).block.pnl = (f s.block).pnl := (safetyItem_frame _ _).pnl_eq (by decide)
@[simp] theorem State.after_nfc : (s.after f).block.nfc = (f s.block).nfc := (safetyItem_frame _ _).nfc_eq (by decide)
@[simp] theorem State.after_frames : (s.after f).block.frames = (f s.block).frames := (safetyItem_frame _ _).frames_eq (by decide)

end

@[simp] theorem irq_pnl (n : Nat) (b : Block) : (irq n b).pnl = b.pnl := (irq_frame n b).pnl_eq (by decide)
@[simp] theorem irq_frames (n : Nat) (b : Block) : (irq n b).frames = b.frames := (irq_frame n b).frames_eq (by decide)
@[simp] theorem irq_nfc (n : Nat) (b : Block) : (irq n b).nfc = b.nfc := (irq_frame n b).nfc_eq (by decide)
@[simp] theorem respond_pnl (m : Fin 4) (status : Nat) (p : List U8) (b : Block) : (respond m status p b).pnl = b.pnl :=
  (respond_frame m status p b).pnl_eq (by decide)
@[simp] theorem respond_nfc (m : Fin 4) (status : Nat) (p : List U8) (b : Block) : (respond m status p b).nfc = b.nfc :=
  (respond_frame m status p b).nfc_eq (by decide)
@[simp] theorem respond_frames (m : Fin 4) (status : Nat) (p : List U8) (b : Block) : (respond m status p b).frames = b.frames :=
  (respond_frame m status p b).frames_eq (by decide)
@[simp] theorem saveSettings_pnl (b : Block) : (saveSettings b).pnl = b.pnl := (saveSettings_frame b).pnl_eq (by decide)
@[simp] theorem saveSettings_nfc (b : Block) : (saveSettings b).nfc = b.nfc := (saveSettings_frame b).nfc_eq (by decide)
@[simp] theorem traceItem_nfc (cls : Nat) (flags : U8) (stamp : U64) (p : List U8) (b : Block) : (traceItem cls flags stamp p b).nfc = b.nfc :=
  (traceItem_frame cls flags stamp p b).nfc_eq (by decide)
@[simp] theorem sendCard_nfc (r : Fin 8) (src : Nat) (p : List U8) (b : Block) : (sendCard r src p b).nfc = b.nfc :=
  (sendCard_frame r src p b).nfc_eq (by decide)

/-- An input that has no effect leaves the block, in replay and outside it. -/
theorem State.input_idle {s : State} {f : Block → Block} (h : f s.block = s.block) : s.input f = .next (s.after id) := by
  have hboth : (if s.block.rpl.mode = true then s.block else f s.block) = s.block := by rw [h, ite_self]
  simp only [State.input, State.run, State.after, hboth, id]

theorem pnlOf_congr {b c : Block} (h : c.pnl = b.pnl) (p : Fin 8) : pnlOf c p = pnlOf b p := by rw [pnlOf, h, pnlOf]
theorem nfcOf_congr {b c : Block} (h : c.nfc = b.nfc) (r : Fin 8) : nfcOf c r = nfcOf b r := by rw [nfcOf, h, nfcOf]

/-- A change of one element may use what the element was. -/
theorem vupd_at {α : Type} {n : Nat} {v : Vector α n} {i : Fin n} (f g : α → α) (h : f (vget v i) = g (vget v i)) : vupd v i f = vupd v i g := by
  have hset : ∀ k : α → α, vupd v i k = vset v i (k (vget v i)) := fun k => by simp [vupd, vset, vget]
  rw [hset, hset, h]

theorem pnlOf_after (s : State) (f : Block → Block) (p : Fin 8) : pnlOf (s.after f).block p = pnlOf (f s.block) p :=
  pnlOf_congr (State.after_pnl s f) p
theorem nfcOf_after (s : State) (f : Block → Block) (r : Fin 8) : nfcOf (s.after f).block r = nfcOf (f s.block) r :=
  nfcOf_congr (State.after_nfc s f) r

theorem pnlOf_updPnl (p : Fin 8) (f : Panel → Panel) (b : Block) : pnlOf (updPnl p f b) p = f (pnlOf b p) := vget_vupd_self _ _ _
theorem pnlOf_updPnl_ne {p k : Fin 8} (h : k ≠ p) (f : Panel → Panel) (b : Block) : pnlOf (updPnl p f b) k = pnlOf b k := vget_vupd_ne _ _ h
theorem nfcOf_updNfc (r : Fin 8) (f : Reader → Reader) (b : Block) : nfcOf (updNfc r f b) r = f (nfcOf b r) := vget_vupd_self _ _ _
theorem nfcOf_updNfc_ne {r k : Fin 8} (h : k ≠ r) (f : Reader → Reader) (b : Block) : nfcOf (updNfc r f b) k = nfcOf b k := vget_vupd_ne _ _ h

/-! ### What a draw leaves of the panels (R472) -/

/-- A panel without what draws and passes change. -/
def Panel.lasting (k : Panel) : Panel := { k with dirty := [], passPending := false, passUntil := none, passLines := [], waiting := [] }
/-- The panels without what draws and passes change. -/
def lastingPanels (b : Block) : Vector Panel 8 := vmap b.pnl Panel.lasting

theorem lastingPanels_congr {b c : Block} (h : c.pnl = b.pnl) : lastingPanels c = lastingPanels b := by rw [lastingPanels, h, lastingPanels]

theorem lastingPanels_updPnl (p : Fin 8) {f : Panel → Panel} (h : ∀ k, (f k).lasting = k.lasting) (b : Block) :
    lastingPanels (updPnl p f b) = lastingPanels b := vmap_vupd _ _ _ _ h

theorem lasting_of_panels {b c : Block} (h : lastingPanels c = lastingPanels b) (p : Fin 8) : (pnlOf c p).lasting = (pnlOf b p).lasting := by
  have hp := congrArg (fun v => vget v p) h
  simpa only [lastingPanels, vget_vmap, pnlOf] using hp

theorem writeRows_lasting (p : Fin 8) (x y : Nat) (rows : List (List (BitVec 6))) (b : Block) :
    lastingPanels (writeRows p x y rows b).1 = lastingPanels b := by
  fun_induction writeRows p x y rows b with
  | case1 => rfl
  | case2 _ _ _ _ _ _ _ ih => exact ih
  | case3 _ _ _ _ _ _ _ _ _ ih => exact ih.trans ((lastingPanels_updPnl p (fun _ => by rfl) _).trans (lastingPanels_congr rfl))

theorem applyDraw_lasting (p : Fin 8) (d : Draw) (b : Block) : lastingPanels (applyDraw p d b) = lastingPanels b := by
  have hdrawn : lastingPanels (onlyIf d.flush (updPnl p fun k => { k with passPending := true }) (writeRows p d.x d.y d.rows b).1) =
      lastingPanels b :=
    (onlyIf_keeps (fun c => lastingPanels_updPnl p (fun _ => by rfl) c) _ _).trans (writeRows_lasting ..)
  unfold applyDraw
  extract_lets t c
  cases d.mbx with
  | none => exact hdrawn
  | some m => exact (lastingPanels_congr (respond_pnl ..)).trans hdrawn

theorem applyWaiting_lasting (p : Fin 8) (b : Block) : lastingPanels (applyWaiting p b) = lastingPanels b :=
  (lastingPanels_updPnl p (fun _ => by rfl) _).trans
    ((forAll_keeps (fun d c => applyDraw_lasting p d c) _ _).trans (lastingPanels_updPnl p (fun _ => by rfl) _))

theorem passBreak_lasting (p : Fin 8) (b : Block) : lastingPanels (passBreak p b) = lastingPanels b :=
  (applyWaiting_lasting p _).trans (lastingPanels_updPnl p (fun _ => by rfl) _)

/-! ### A pass that ends while no draw waits (R472) -/

theorem applyWaiting_of_none {p : Fin 8} {b : Block} (h : (pnlOf b p).waiting = []) :
    applyWaiting p b = updPnl p (fun k => { k with passPending := k.passPending || k.dirty != [] }) (updPnl p (fun k => { k with waiting := [] }) b) := by
  rw [applyWaiting, h]
  rfl

/-- The pass of port `p` is over. -/
def passOver (i : U64) (k : Panel) : Panel :=
  { k with passUntil := none, passLines := [], passCnt := satInc k.passCnt, lastMs := BitVec.ofNat 16 (min 65535 ((i.toNat - k.passFrom.toNat) / 150000)) }

theorem panelPassEnd_of_due {p : Fin 8} {i : U64} {b : Block} (hpass : (pnlOf b p).passUntil = some i) (hdue : i.toNat ≤ (now b).toNat) :
    panelPassEnd p b = applyWaiting p (onlyIf (pnlOf b p).passIrq (irq 448) (updPnl p (passOver i) b)) := by
  have hirq : (pnlOf (updPnl p (passOver i) b) p).passIrq = (pnlOf b p).passIrq := by rw [pnlOf_updPnl, passOver]
  unfold panelPassEnd
  rw [hpass]
  refine (atInstant_of_le hdue _).trans ?_
  rw [← hirq]
  rfl

theorem panelPassEnd_of_none {p : Fin 8} {b : Block} (h : (pnlOf b p).passUntil = none) : panelPassEnd p b = b := by rw [panelPassEnd, h]

/-- What the end of a pass leaves of its port while no draw waits. -/
theorem passOver_settles {p : Fin 8} {i : U64} {b : Block} (hnone : (pnlOf b p).waiting = []) (u : Bool) :
    pnlOf (applyWaiting p (onlyIf u (irq 448) (updPnl p (passOver i) b))) p =
      { passOver i (pnlOf b p) with waiting := [], passPending := (pnlOf b p).passPending || (pnlOf b p).dirty != [] } := by
  have hover : pnlOf (onlyIf u (irq 448) (updPnl p (passOver i) b)) p = passOver i (pnlOf b p) :=
    (pnlOf_congr (onlyIf_keeps (q := Block.pnl) (fun c => irq_pnl 448 c) u _) p).trans (pnlOf_updPnl ..)
  rw [applyWaiting_of_none (by rw [hover]; exact hnone), pnlOf_updPnl, pnlOf_updPnl, hover]
  rfl

/-! ### EXTCOMIN (R471) -/

theorem extcominToggle_of_still {p : Fin 8} {b : Block} (h : (pnlOf b p).enable = false ∨ b.tide.ready = false) :
    extcominToggle p b = updPnl p (fun k => { k with extcomin := false }) b := by
  have hstill : (!(pnlOf b p).enable || !b.tide.ready) = true := by
    rcases h with h | h <;> simp [h]
  rw [extcominToggle, if_pos hstill]

theorem extcominToggle_of_due {p : Fin 8} {b : Block} (hen : (pnlOf b p).enable = true) (hready : b.tide.ready = true)
    (hdue : toggleAt b p ≤ (now b).toNat) (hpass : (pnlOf b p).passPending = false) :
    extcominToggle p b = updPnl p (fun k => { k with extcomin := !k.extcomin, extAt := now b }) b := by
  have hruns : ¬ ((!(pnlOf b p).enable || !b.tide.ready) = true) := by simp [hen, hready]
  have hkept : (pnlOf (updPnl p (fun k => { k with extcomin := !k.extcomin, extAt := now b }) b) p).passPending = false := by
    rw [pnlOf_updPnl]
    exact hpass
  rw [extcominToggle, if_neg hruns, atInstant_of_le hdue]
  exact if_neg (by rw [hkept, Bool.false_and, Bool.false_and]; decide)

/-! ### The supply of a half lost (R468) -/

/-- Port `p` has faulted: its pass is broken off and a flush that waits is refused. -/
def portFaulted (p : Fin 8) (b : Block) : Block :=
  let c := passBreak p (irq 449 (updPnl p (fun k => { k with fault := true, flushMbx := none }) b))
  match (pnlOf b p).flushMbx with
  | none => c
  | some m => refuse m 0x1003 c

/-- The ports that a loss of the supply of `half` faults. -/
def fallenPorts (half : Fin 2) (b : Block) : List (Fin 8) :=
  ports.filter fun p => p.val / 4 == half.val && (pnlOf b p).enable && !(pnlOf b p).fault

theorem panelBiasFault_eq (half : Fin 2) (b : Block) : panelBiasFault half b = forAll (fallenPorts half b) portFaulted b := rfl

/-- A unit that draws, interrupts and answers leave is what it was when a port has faulted. -/
theorem portFaulted_keeps {γ : Type} {q : Block → γ} (hq : ∀ m status p b, q (respond m status p b) = q b) (p : Fin 8) (b : Block) :
    q (portFaulted p b) = q (passBreak p (irq 449 (updPnl p (fun k => { k with fault := true, flushMbx := none }) b))) := by
  unfold portFaulted
  split
  · rfl
  · exact hq ..

theorem portFaulted_fault (p k : Fin 8) (b : Block) : (pnlOf (portFaulted p b) k).fault = ((pnlOf b k).fault || decide (k = p)) := by
  have hpnl := portFaulted_keeps (q := Block.pnl) respond_pnl p b
  have hlast := congrArg Panel.fault (lasting_of_panels
    ((passBreak_lasting p _).trans (lastingPanels_congr (irq_pnl 449 (updPnl p (fun k => { k with fault := true, flushMbx := none }) b)))) k)
  rw [pnlOf_congr hpnl]
  refine hlast.trans ?_
  by_cases hk : k = p
  · subst hk
    rw [pnlOf_updPnl]
    simp [Panel.lasting]
  · rw [pnlOf_updPnl_ne hk]
    simp [Panel.lasting, hk]

theorem forAll_portFaulted_fault (ps : List (Fin 8)) (k : Fin 8) (b : Block) :
    (pnlOf (forAll ps portFaulted b) k).fault = ((pnlOf b k).fault || decide (k ∈ ps)) := by
  induction ps generalizing b with
  | nil => simp [forAll]
  | cons p ps ih =>
    refine (ih (portFaulted p b)).trans ?_
    simp [portFaulted_fault, Bool.or_assoc]

theorem panelBiasFault_fault (half : Fin 2) (k : Fin 8) (b : Block) :
    (pnlOf (panelBiasFault half b) k).fault = ((pnlOf b k).fault || ((pnlOf b k).enable && k.val / 4 == half.val)) := by
  rw [panelBiasFault_eq, forAll_portFaulted_fault]
  have hmem : k ∈ fallenPorts half b ↔ (k.val / 4 == half.val && (pnlOf b k).enable && !(pnlOf b k).fault) = true := by
    simp [fallenPorts, ports]
  cases hfault : (pnlOf b k).fault
  · rw [Bool.false_or, Bool.false_or, Bool.eq_iff_iff]
    simp [hmem, hfault, and_comm]
  · rfl

/-- No draw waits for a pass. -/
def NoDrawWaits (b : Block) : Prop := ∀ p, (pnlOf b p).waiting = []

theorem noDrawWaits_updPnl {b : Block} (h : NoDrawWaits b) (p : Fin 8) {f : Panel → Panel} (hf : (f (pnlOf b p)).waiting = []) :
    NoDrawWaits (updPnl p f b) := by
  intro k
  by_cases hk : k = p
  · rw [hk, pnlOf_updPnl, hf]
  · rw [pnlOf_updPnl_ne hk, h k]

theorem noDrawWaits_congr {b c : Block} (h : NoDrawWaits b) (hc : c.pnl = b.pnl) : NoDrawWaits c := fun k => by rw [pnlOf_congr hc, h k]

/-- A pass broken off while no draw waits writes no frame. -/
theorem passBreak_quiet {p : Fin 8} {b : Block} (h : NoDrawWaits b) : NoDrawWaits (passBreak p b) ∧ (passBreak p b).frames = b.frames := by
  have hbroken := noDrawWaits_updPnl h p (f := fun k => { k with
    passUntil := none, dirty := k.dirty ++ k.passLines.filter (fun l => !k.dirty.contains l), passLines := []
    passPending := k.passPending || k.passUntil.isSome }) (h p)
  rw [passBreak, applyWaiting_of_none (hbroken p)]
  refine ⟨noDrawWaits_updPnl (noDrawWaits_updPnl hbroken p rfl) p ?_, rfl⟩
  rw [pnlOf_updPnl]

theorem portFaulted_quiet {p : Fin 8} {b : Block} (h : NoDrawWaits b) : NoDrawWaits (portFaulted p b) ∧ (portFaulted p b).frames = b.frames := by
  have hfault := noDrawWaits_updPnl h p (f := fun k => { k with fault := true, flushMbx := none }) (h p)
  obtain ⟨hwaits, hframes⟩ := passBreak_quiet (p := p) (noDrawWaits_congr hfault (irq_pnl 449 _))
  refine ⟨noDrawWaits_congr hwaits (portFaulted_keeps (q := Block.pnl) respond_pnl p b), ?_⟩
  rw [portFaulted_keeps (q := Block.frames) respond_frames, hframes, irq_frames]
  rfl

theorem panelBiasFault_frames (half : Fin 2) {b : Block} (h : NoDrawWaits b) : (panelBiasFault half b).frames = b.frames := by
  rw [panelBiasFault_eq]
  generalize fallenPorts half b = ps
  induction ps generalizing b with
  | nil => rfl
  | cons p ps ih =>
    obtain ⟨hwaits, hframes⟩ := portFaulted_quiet (p := p) h
    exact (ih hwaits).trans hframes

/-! ### The legal strip (R476) -/

theorem redrawStrip_of_fault {p : Fin 8} {b : Block} (hcarr : b.rst.carr = true) (hfault : (pnlOf b p).fault = false) :
    redrawStrip p b = draw' p { x := 0, y := panelRows (pnlOf b p) - 32, rows := stripRows b p, flush := true }
      (updPnl p (fun k => { k with stripAt := now b }) b) := by
  have hup : ¬ ((!b.rst.carr) = true) := by simp [hcarr]
  rw [redrawStrip, if_neg hup]
  simp only [hfault, onlyIf, Bool.false_eq_true, if_false]

theorem redrawStrip_of_down {p : Fin 8} {b : Block} (hcarr : b.rst.carr = false) : redrawStrip p b = b := by
  rw [redrawStrip, if_pos (by rw [hcarr]; rfl)]

/-! ### Pings and polls (R479, R480) -/

/-- Whether the group of a reader is busy depends on Tide, on the other readers and on the group of the reader. -/
theorem groupBusy_congr {b c : Block} {r : Fin 8} (htide : c.tide = b.tide) (hne : ∀ k, k ≠ r → nfcOf c k = nfcOf b k)
    (hgroup : (nfcOf c r).fieldGroup = (nfcOf b r).fieldGroup) : groupBusy c r = groupBusy b r := by
  have hpassed : ∀ (i : U64) (n : Nat), passed c i n = passed b i n := fun i n => by
    unfold passed since
    rw [htide]
  refine congrArg (fun f => ports.any f) (funext fun k => ?_)
  by_cases hk : k = r
  · simp [hk]
  · simp only [hne k hk, hgroup, hpassed]

theorem groupBusy_updNfc (r : Fin 8) {f : Reader → Reader} (b : Block) (hf : (f (nfcOf b r)).fieldGroup = (nfcOf b r).fieldGroup) :
    groupBusy (updNfc r f b) r = groupBusy b r :=
  groupBusy_congr rfl (fun _ hk => nfcOf_updNfc_ne hk f b) (by rw [nfcOf_updNfc, hf])

theorem pollStart_of_free {r : Fin 8} {b : Block} (h : groupBusy b r = false) :
    pollStart r b = updNfc r (fun x => { x with polling := true, field := true, waiting := none, pollAt := now b }) b := by
  rw [pollStart, h]
  rfl

/-- Reader `r` has noted its ping. -/
def pingNoted (r : Fin 8) (b : Block) : Block := updNfc r (fun x => { x with lastPing := some (now b) }) b

/-- Reader `r` has measured. -/
def pingMeasured (r : Fin 8) (x : NfcSample) (b : Block) : Block :=
  updNfc r (fun y => { y with lastD := detuning (nfcOf b r).base x, radiated := some (now b) }) (pingNoted r b)

section
variable {r : Fin 8} {x : NfcSample} {b : Block}

theorem nfcPing_of_blind (h : detecting (nfcOf b r) = false) : nfcPing r x b = b := by rw [nfcPing, if_pos (by rw [h]; rfl)]

section
variable (hdet : detecting (nfcOf b r) = true) (hdue : pingAt b r ≤ (now b).toNat)
include hdet hdue

theorem nfcPing_of_busy (hbusy : groupBusy b r = true) : nfcPing r x b = pingNoted r b := by
  have hsees : ¬ ((!detecting (nfcOf b r)) = true) := by simp [hdet]
  rw [nfcPing, if_neg hsees, atInstant_of_le hdue]
  exact if_pos ((groupBusy_updNfc r b rfl).trans hbusy)

theorem nfcPing_of_free (hfree : groupBusy b r = false) :
    nfcPing r x b = if (nfcOf b r).lpcdThr ≤ detuning (nfcOf b r).base x
      then pollStart r (updNfc r (fun y => { y with pinged := some x }) (pingMeasured r x b))
      else updNfc r (fun y => { y with base := moveBaseline y.base x }) (pingMeasured r x b) := by
  have hsees : ¬ ((!detecting (nfcOf b r)) = true) := by simp [hdet]
  have hbase : (nfcOf (pingNoted r b) r).base = (nfcOf b r).base := by rw [pingNoted, nfcOf_updNfc]
  have hthr : (nfcOf (pingMeasured r x b) r).lpcdThr = (nfcOf b r).lpcdThr := by
    rw [pingMeasured, nfcOf_updNfc, pingNoted, nfcOf_updNfc]
  have hidle : ¬ (groupBusy (pingNoted r b) r = true) := by
    rw [pingNoted, groupBusy_updNfc r b rfl, hfree]
    decide
  rw [nfcPing, if_neg hsees, atInstant_of_le hdue]
  refine (if_neg hidle).trans ?_
  rw [← hthr]
  unfold pingMeasured
  rw [← hbase]
  rfl

theorem nfcPing_of_below (hfree : groupBusy b r = false) (hlow : detuning (nfcOf b r).base x < (nfcOf b r).lpcdThr) :
    (nfcPing r x b).nfc = vupd b.nfc r fun y => { y with
      lastPing := some (now b), lastD := detuning y.base x, radiated := some (now b), base := moveBaseline y.base x } := by
  rw [nfcPing_of_free hdet hdue hfree, if_neg (BitVec.not_le.mpr hlow), pingMeasured, pingNoted]
  rw [updNfc_nfc, updNfc_nfc, updNfc_nfc, vupd_vupd, vupd_vupd]
  exact vupd_at _ _ rfl

theorem nfcPing_of_detuned (hfree : groupBusy b r = false) (hhigh : (nfcOf b r).lpcdThr ≤ detuning (nfcOf b r).base x) :
    nfcPing r x b = updNfc r (fun y => { y with polling := true, field := true, waiting := none, pollAt := now b })
      (updNfc r (fun y => { y with pinged := some x }) (pingMeasured r x b)) := by
  rw [nfcPing_of_free hdet hdue hfree, if_pos hhigh, pollStart_of_free]
  · rfl
  · unfold pingMeasured pingNoted
    rw [groupBusy_updNfc, groupBusy_updNfc, groupBusy_updNfc, hfree] <;> rfl

end

end

/-! ### The cards (R481) -/

/-- An answer to the mailbox that waits for a poll leaves the reader but for that. -/
theorem nfcOf_pollAnswer (r : Fin 8) (found : Bool) (p : List U8) (b : Block) :
    nfcOf (pollAnswer r found p b) r = { nfcOf b r with pollMbx := none } := by
  unfold pollAnswer
  split
  next h => rw [← h]
  next => exact (nfcOf_congr (respond_nfc ..) r).trans (nfcOf_updNfc ..)

theorem cardResolved_of_idle {r : Fin 8} {c : CardInfo} {b : Block}
    (h : (nfcOf b r).polling = false ∨ cardFits (nfcOf b r) c = false) : cardResolved r c b = b := by
  have hno : (!((nfcOf b r).polling && cardFits (nfcOf b r) c)) = true := by
    rcases h with h | h <;> simp [h]
  exact if_pos hno

/-- A reader that has found the card `rec_`. -/
def Reader.resolvedAs (rec_ : List U8) (i : U64) (x : Reader) : Reader :=
  { x with polling := false, card := true, cardRec := rec_, presenceFails := 0, lastPresence := i, pinged := none, resolved := satAdd x.resolved 1 }

theorem cardResolved_of_due {r : Fin 8} {c : CardInfo} {b : Block} (hpoll : (nfcOf b r).polling = true) (hfits : cardFits (nfcOf b r) c = true)
    (hdue : (nfcOf b r).pollAt.toNat + guardTime ≤ (now b).toNat) :
    nfcOf (cardResolved r c b) r =
      { (nfcOf b r).resolvedAs (b64 (now b) ++ cardBytes r (nfcOf b r).connector c) (now b) with pollMbx := none } := by
  have hyes : ¬ ((!((nfcOf b r).polling && cardFits (nfcOf b r) c)) = true) := by simp [hpoll, hfits]
  unfold cardResolved
  extract_lets x
  rw [if_neg hyes, afterTicks_of_le hdue]
  extract_lets rec_ traced
  have hnow : now traced = now b := by rw [now, (traceItem_frame _ _ _ _ b).tide_eq (by decide), now]
  have htraced : nfcOf traced r = nfcOf b r := nfcOf_congr (traceItem_nfc ..) r
  rw [nfcOf_pollAnswer, nfcOf_congr (sendCard_nfc ..), nfcOf_updNfc, hnow, htraced]
  rfl

theorem presenceCheck_of_none {r : Fin 8} {answered : Bool} {b : Block} (h : (nfcOf b r).card = false) : presenceCheck r answered b = b :=
  if_pos (by rw [h]; rfl)

/-- What a check of presence leaves of its reader. -/
theorem presenceCheck_of_due {r : Fin 8} {answered : Bool} {b : Block} (hcard : (nfcOf b r).card = true)
    (hdue : (nfcOf b r).lastPresence.toNat + 300000000 ≤ (now b).toNat) :
    nfcOf (presenceCheck r answered b) r =
      if answered = true then { nfcOf b r with lastPresence := now b, presenceFails := 0 }
      else if (nfcOf b r).presenceFails < 2 then { nfcOf b r with lastPresence := now b, presenceFails := (nfcOf b r).presenceFails + 1 }
      else { nfcOf b r with
        lastPresence := now b, field := false, card := false, polling := false, cardRec := [], presenceFails := 0, pinged := none } := by
  have hyes : ¬ ((!(nfcOf b r).card) = true) := by simp [hcard]
  unfold presenceCheck
  extract_lets x
  rw [if_neg hyes, afterTicks_of_le hdue]
  extract_lets traced gone
  have htraced : nfcOf traced r = { nfcOf b r with lastPresence := now b } := (nfcOf_congr (traceItem_nfc ..) r).trans (nfcOf_updNfc ..)
  split
  · rw [nfcOf_updNfc, htraced]
  · split
    · rw [nfcOf_updNfc, htraced]
    · rw [fieldOff, nfcOf_updNfc, nfcOf_congr (sendCard_nfc ..), htraced]

theorem nfcOf_fieldOff (r : Fin 8) (b : Block) :
    nfcOf (fieldOff r b) r = { nfcOf b r with field := false, card := false, polling := false, cardRec := [], presenceFails := 0, pinged := none } :=
  nfcOf_updNfc ..

theorem falseWakeUp_of_idle {r : Fin 8} {b : Block} (h : (nfcOf b r).polling = false) : falseWakeUp r b = b := if_pos (by rw [h]; rfl)

theorem falseWakeUp_of_due {r : Fin 8} {b : Block} (hpoll : (nfcOf b r).polling = true)
    (hdue : (nfcOf b r).pollAt.toNat + guardTime ≤ (now b).toNat) :
    falseWakeUp r b = pollAnswer r false []
      (fieldOff r (updNfc r (fun x => { x with falseWake := satAdd x.falseWake 1, base := x.pinged.getD x.base }) b)) := by
  have hyes : ¬ ((!(nfcOf b r).polling) = true) := by simp [hpoll]
  exact (if_neg hyes).trans (afterTicks_of_le hdue _)

/-! ### The field (R480, R485) -/

theorem fieldRelease_of_field {r : Fin 8} {b : Block} (h : (nfcOf b r).field = true) : fieldRelease r b = b := if_pos h

theorem fieldRelease_of_next {r k : Fin 8} {b : Block} (hoff : (nfcOf b r).field = false)
    (hfirst : firstWaiting b (nfcOf b r).fieldGroup = some k) : fieldRelease r b = pollStart k b := by
  rw [fieldRelease, if_neg (by simp [hoff]), hfirst]

theorem fieldRelease_of_none {r : Fin 8} {b : Block} (hfirst : firstWaiting b (nfcOf b r).fieldGroup = none) : fieldRelease r b = b := by
  rw [fieldRelease, hfirst]
  exact ite_self b

/-- The transmitter of reader `r` has faulted. -/
def txFaulted (r : Fin 8) (b : Block) : Block := irq 458 (updNfc r (fun x => { x with fault := true, pollMbx := none }) (fieldOff r b))

theorem nfcTxFault_of_idle {r : Fin 8} {b : Block} (h : (nfcOf b r).field = false) : nfcTxFault r b = b := if_pos (by rw [h]; rfl)

theorem nfcTxFault_of_field {r : Fin 8} {b : Block} (h : (nfcOf b r).field = true) :
    (nfcTxFault r b).nfc = (txFaulted r b).nfc ∧ Raised (nfcTxFault r b) 458 := by
  have hyes : ¬ ((!(nfcOf b r).field) = true) := by simp [h]
  have hraised : Raised (txFaulted r b) 458 := irq_pends (n := 458) (by decide) _
  unfold nfcTxFault
  rw [if_neg hyes]
  extract_lets mb c
  cases mb with
  | none => exact ⟨rfl, hraised⟩
  | some m => exact ⟨respond_nfc .., (Hic.KeepsPending.refl _).respond m 0x1105 [] 458 hraised⟩

theorem nfcOf_txFaulted (r : Fin 8) (b : Block) :
    nfcOf (txFaulted r b) r = { nfcOf b r with
      field := false, card := false, polling := false, cardRec := [], presenceFails := 0, pinged := none, fault := true, pollMbx := none } := by
  rw [txFaulted, nfcOf_congr (irq_nfc ..), nfcOf_updNfc, nfcOf_fieldOff]

end Machine

end Sys2Proof
end

section
/-! PROOFS. The commands of the panels and of the contactless readers (R474, R486, R487). -/

namespace Sys2Proof

open Machine

namespace Machine

/-! ### Responses over a request that other responses left (R423) -/

theorem respond_req (m k : Fin 4) (status : Nat) (p : List U8) (b : Block) : (mbxOf (respond m status p b) k).req = (mbxOf b k).req := by
  by_cases hk : k = m
  · rw [hk, mbxOf_respond]
  · rw [mbxOf, respond_mbx, vget_vset_ne _ _ hk, mbxOf]

/-- A mailbox that holds a response over the request it had holds the answer. -/
theorem answered_of_mailbox {s : State} {f : Block → Block} {b : Block} {m : Fin 4} {status : Nat} {p : List U8}
    (hf : mbxOf (f s.block) m = mbxOf (respond m status p b) m) (hreq : (mbxOf b m).req = (mbxOf s.block m).req) (hp : p.length ≤ 1016) :
    Answered s (s.after f) m status p := by
  have hop : reqOp b m = reqOp s.block m := by rw [reqOp, hreq, reqOp]
  have htag : reqTag b m = reqTag s.block m := by rw [reqTag, hreq, reqTag]
  have hall := hf.trans (mbxOf_respond m status p b)
  rw [hop, htag, List.take_of_length_le hp] at hall
  unfold Answered
  rw [mbxOf_after]
  simp only [hall, and_self]

/-- Settings written after the response leave it. -/
theorem answered_of_saved {s : State} {f : Block → Block} {b : Block} {m : Fin 4} {status : Nat} {p : List U8}
    (hf : f s.block = saveSettings (respond m status p b)) (hreq : (mbxOf b m).req = (mbxOf s.block m).req) (hp : p.length ≤ 1016) :
    Answered s (s.after f) m status p :=
  answered_of_mailbox (by rw [hf, mbxOf_congr (saveSettings_mbx _)]) hreq hp

theorem applyDraw_req (p : Fin 8) (d : Draw) (k : Fin 4) (b : Block) : (mbxOf (applyDraw p d b) k).req = (mbxOf b k).req := by
  have hdrawn : (onlyIf d.flush (updPnl p fun k => { k with passPending := true }) (writeRows p d.x d.y d.rows b).1).mbx = b.mbx :=
    (onlyIf_keeps (q := Block.mbx) (fun _ => by rfl) _ _).trans ((writeRows_frame p d.x d.y d.rows b).mbx_eq (by decide))
  unfold applyDraw
  extract_lets t c
  cases d.mbx with
  | none => exact congrArg Mailbox.req (mbxOf_congr hdrawn k)
  | some m => exact (respond_req ..).trans (congrArg Mailbox.req (mbxOf_congr hdrawn k))

theorem passBreak_req (p : Fin 8) (k : Fin 4) (b : Block) : (mbxOf (passBreak p b) k).req = (mbxOf b k).req :=
  forAll_keeps (q := fun c => (mbxOf c k).req) (fun d c => applyDraw_req p d k c) _ _

/-! ### Settings of a panel (R486) -/

theorem portCheck_pass {m : Fin 4} {b : Block} (h : rN b m 0 1 < 8) : (portCheck b m).2 = true := decide_eq_true h

theorem portRuns_pass {m : Fin 4} {b : Block} (hen : (pnlOf b (reqPort b m)).enable = true) (hfault : (pnlOf b (reqPort b m)).fault = false) :
    (portRuns b m).2 = true := by
  simp [portRuns, hen, hfault]

/-- A panel with the settings of a configuration word. -/
def Panel.configured (w : Nat) (k : Panel) : Panel :=
  { k with
    dither := bitOf w 0, passIrq := bitOf w 1, height := BitVec.ofNat 6 (fieldOf w 2 6), sck := BitVec.ofNat 5 (fieldOf w 8 5)
    connector := BitVec.ofNat 5 (fieldOf w 13 5) }

/-- The panel that mailbox `m` names with its settings and enable bit. -/
def panelSet (m : Fin 4) (b : Block) : Block := pnlEnable (reqPort b m) (rBit b m 1 0) (updPnl (reqPort b m) (Panel.configured (rN b m 4 4)) b)

theorem panelSet_req (m k : Fin 4) (b : Block) : (mbxOf (panelSet m b) k).req = (mbxOf b k).req := by
  unfold panelSet pnlEnable
  cases rBit b m 1 0
  · exact passBreak_req ..
  · rfl

/-- A panel as an enable bit leaves it, but for its pass. -/
def Panel.switched (on : Bool) (k : Panel) : Panel :=
  if on = true then { k with enable := true, fault := false } else { k with enable := false, extcomin := false }

theorem pnlEnable_lasting (p : Fin 8) (on : Bool) (b : Block) :
    (pnlOf (pnlEnable p on b) p).lasting = ((pnlOf b p).switched on).lasting := by
  cases on
  · refine (lasting_of_panels (passBreak_lasting p _) p).trans ?_
    rw [pnlOf_updPnl]
    rfl
  · exact congrArg Panel.lasting (pnlOf_updPnl ..)

theorem panelSet_lasting (m : Fin 4) (b : Block) :
    (pnlOf (panelSet m b) (reqPort b m)).lasting =
      (((pnlOf b (reqPort b m)).configured (rN b m 4 4)).switched (rBit b m 1 0)).lasting := by
  rw [panelSet, pnlEnable_lasting, pnlOf_updPnl]

theorem switched_height (on : Bool) (k : Panel) : (k.switched on).height = k.height := by cases on <;> rfl
theorem switched_connector (on : Bool) (k : Panel) : (k.switched on).connector = k.connector := by cases on <;> rfl
theorem switched_dither (on : Bool) (k : Panel) : (k.switched on).dither = k.dither := by cases on <;> rfl
theorem switched_passIrq (on : Bool) (k : Panel) : (k.switched on).passIrq = k.passIrq := by cases on <;> rfl
theorem switched_sck (on : Bool) (k : Panel) : (k.switched on).sck = k.sck := by cases on <;> rfl
theorem switched_enable (on : Bool) (k : Panel) : (k.switched on).enable = on := by cases on <;> rfl

theorem pnlSetConfig_of_place {m : Fin 4} {b : Block} (hport : rN b m 0 1 < 8) (hcfg : pnlCfgOk (rN b m 4 4) = true)
    (hheight : BitVec.ofNat 6 (fieldOf (rN b m 4 4) 2 6) = (pnlOf b (reqPort b m)).height)
    (hconn : BitVec.ofNat 5 (fieldOf (rN b m 4 4) 13 5) = (pnlOf b (reqPort b m)).connector) :
    pnlSetConfig m b = saveSettings (ok m [] (panelSet m b)) := by
  have hh : (pnlOf (panelSet m b) (reqPort b m)).height = (pnlOf b (reqPort b m)).height :=
    (congrArg Panel.height (panelSet_lasting m b)).trans ((switched_height ..).trans hheight)
  have hc : (pnlOf (panelSet m b) (reqPort b m)).connector = (pnlOf b (reqPort b m)).connector :=
    (congrArg Panel.connector (panelSet_lasting m b)).trans ((switched_connector ..).trans hconn)
  have hsame : ((pnlOf (panelSet m b) (reqPort b m)).height != (pnlOf b (reqPort b m)).height ||
      (pnlOf (panelSet m b) (reqPort b m)).connector != (pnlOf b (reqPort b m)).connector) = false := by simp [hh, hc]
  unfold pnlSetConfig
  extract_lets p w
  rw [checked_cons_pass (portCheck_pass hport), checked_cons_pass (x := (0x1001, pnlCfgOk w)) hcfg, checked_nil]
  change saveSettings (ok m [] (onlyIf _ (redrawStrip p) (panelSet m b))) = _
  rw [onlyIf, if_neg]
  exact fun h => Bool.false_ne_true (hsame.symm.trans h)

theorem pnlLoadGamma_of_port {m : Fin 4} {b : Block} (hport : rN b m 0 1 < 8) :
    pnlLoadGamma m b = ok m (b32 (crc32c (rBytes b m 4 768)))
      (updPnl (reqPort b m) (fun k => { k with gamma := rBytes b m 4 768, gammaCrc := crc32c (rBytes b m 4 768) }) b) := by
  unfold pnlLoadGamma
  extract_lets g
  rw [checked_cons_pass (portCheck_pass hport), checked_nil]

/-! ### Draws (R474) -/

/-- A rectangle within the columns and the rows above the strip passes its checks. -/
theorem checked_rect_pass {m : Fin 4} {k : Panel} {x y w h : Nat} (hx : x + w ≤ 480) (hy : y + h ≤ panelRows k - 32)
    (l : List (Nat × Bool)) (f : Block → Block) (b : Block) : checked m (rectChecks k x y w h ++ l) f b = checked m l f b := by
  have hstrip : ¬ (0 < h ∧ y < panelRows k ∧ panelRows k - 32 < y + h) := by omega
  refine (checked_cons_pass (decide_eq_true hx) f b).trans ((checked_cons_pass ?_ f b).trans (checked_cons_pass (decide_eq_true hy) f b))
  rw [decide_eq_false hstrip]
  rfl

/-- A rectangle beyond them is refused as out of range or as over the strip. -/
theorem checked_rect_fail {m : Fin 4} {k : Panel} {x y w h : Nat} (hout : 480 < x + w ∨ panelRows k - 32 < y + h)
    (l : List (Nat × Bool)) (f : Block → Block) (b : Block) :
    checked m (rectChecks k x y w h ++ l) f b = refuse m 0x1001 b ∨ checked m (rectChecks k x y w h ++ l) f b = refuse m 0x1002 b := by
  by_cases hx : x + w ≤ 480
  · have hy : ¬ y + h ≤ panelRows k - 32 := by omega
    by_cases hstrip : 0 < h ∧ y < panelRows k ∧ panelRows k - 32 < y + h
    · refine .inr ((checked_cons_pass (decide_eq_true hx) f b).trans (checked_cons_fail ?_ f b))
      rw [decide_eq_true hstrip]
      rfl
    · refine .inl ((checked_cons_pass (decide_eq_true hx) f b).trans ((checked_cons_pass ?_ f b).trans
        (checked_cons_fail (decide_eq_false hy) f b)))
      rw [decide_eq_false hstrip]
      rfl
  · exact .inl (checked_cons_fail (decide_eq_false hx) f b)

/-- The pixels of the fill that mailbox `m` asks for. -/
def filledRows (m : Fin 4) (b : Block) : List (List (BitVec 6)) :=
  (List.range (rN b m 12 2)).map fun j => (List.range (rN b m 10 2)).map fun i =>
    convert (pnlOf b (reqPort b m)) (rN b m 6 2 + i) (rN b m 8 2 + j) (rB b m 2) (rB b m 3) (rB b m 4)

section
variable {m : Fin 4} {b : Block} (hport : rN b m 0 1 < 8)
include hport

theorem pnlDraw_of_beyond
    (hout : 480 < rN b m 4 2 + rN b m 8 2 ∨ panelRows (pnlOf b (reqPort b m)) - 32 < rN b m 6 2 + rN b m 10 2) :
    pnlDraw m b = refuse m 0x1001 b ∨ pnlDraw m b = refuse m 0x1002 b := by
  unfold pnlDraw
  extract_lets p k q x y w h n
  simp only [List.append_assoc]
  rw [List.singleton_append, checked_cons_pass (portCheck_pass hport)]
  exact checked_rect_fail hout _ _ b

theorem pnlFill_of_beyond
    (hout : 480 < rN b m 6 2 + rN b m 10 2 ∨ panelRows (pnlOf b (reqPort b m)) - 32 < rN b m 8 2 + rN b m 12 2) :
    pnlFill m b = refuse m 0x1001 b ∨ pnlFill m b = refuse m 0x1002 b := by
  unfold pnlFill
  extract_lets p k x y w h
  simp only [List.append_assoc]
  rw [List.singleton_append, checked_cons_pass (portCheck_pass hport)]
  exact checked_rect_fail hout _ _ b

section
variable (hen : (pnlOf b (reqPort b m)).enable = true) (hfault : (pnlOf b (reqPort b m)).fault = false)
include hen hfault

theorem pnlFill_of_within (hx : rN b m 6 2 + rN b m 10 2 ≤ 480) (hy : rN b m 8 2 + rN b m 12 2 ≤ panelRows (pnlOf b (reqPort b m)) - 32) :
    pnlFill m b = draw' (reqPort b m) { x := rN b m 6 2, y := rN b m 8 2, rows := filledRows m b, flush := rBit b m 1 0, mbx := some m } b := by
  unfold pnlFill
  extract_lets p k x y w h
  simp only [List.append_assoc]
  rw [List.singleton_append, checked_cons_pass (portCheck_pass hport), checked_rect_pass hx hy,
    checked_cons_pass (portRuns_pass hen hfault), checked_nil]
  rfl

theorem pnlDraw_of_pixel (hx : rN b m 4 2 = 0) (hy : rN b m 6 2 = 0) (hw : rN b m 8 2 = 1) (hh : rN b m 10 2 = 1)
    (hrows : 33 ≤ panelRows (pnlOf b (reqPort b m))) (hqueue : queueOk (rN b m 2 2) false = true)
    (hdata : hostDataCheck b (rN b m 2 2) 1 = 0) :
    pnlDraw m b = draw' (reqPort b m) { x := 0, y := 0, rows := [[convert (pnlOf b (reqPort b m)) 0 0
      (byteAt (padTo 3 (hostDataBytes b (rN b m 2 2) 1)) 0) (byteAt (padTo 3 (hostDataBytes b (rN b m 2 2) 1)) 1)
      (byteAt (padTo 3 (hostDataBytes b (rN b m 2 2) 1)) 2)]], flush := rBit b m 1 0, mbx := some m } (hostDataConsume (rN b m 2 2) 1 b) := by
  unfold pnlDraw
  rw [hx, hy, hw, hh]
  extract_lets p k q left width n
  have hn : n = 1 := by decide
  simp only [List.append_assoc]
  rw [List.singleton_append, checked_cons_pass (portCheck_pass hport),
    checked_rect_pass (by omega) (by simp only [k, p]; omega),
    checked_cons_pass (portRuns_pass hen hfault), checked_cons_pass (x := (6, queueOk q false)) hqueue,
    checked_cons_pass (x := (hostDataCheck b q n, hostDataCheck b q n == 0)) (by rw [hn]; exact beq_of_eq hdata), checked_nil]
  simp only [hn, width, left, List.range_one, List.map_cons, List.map_nil, Nat.reduceMul, Nat.reduceAdd]
  rfl

theorem pnlFlush_of_clean (hclean : (pnlOf b (reqPort b m)).dirty = []) : pnlFlush m b = ok m (b64 0) b := by
  unfold pnlFlush
  extract_lets p
  rw [checked_cons_pass (portCheck_pass hport), checked_cons_pass (portRuns_pass hen hfault), checked_nil, if_pos hclean]

theorem pnlFlush_of_dirty (hdirty : (pnlOf b (reqPort b m)).dirty ≠ []) :
    pnlFlush m b = updPnl (reqPort b m) (fun k => { k with passPending := true, flushMbx := some m }) b := by
  unfold pnlFlush
  extract_lets p
  rw [checked_cons_pass (portCheck_pass hport), checked_cons_pass (portRuns_pass hen hfault), checked_nil, if_neg hdirty]

end

theorem pnlGetStatus_of_port : pnlGetStatus m b = ok m (b32s [pnlCfgWord (pnlOf b (reqPort b m)), pnlStatWord (pnlOf b (reqPort b m)),
    (pnlOf b (reqPort b m)).passCnt]) b := by
  unfold pnlGetStatus
  extract_lets k
  rw [checked_cons_pass (portCheck_pass hport), checked_nil]

end

/-- A count of the panels that is cleared for each port of a list is clear at each of them. -/
theorem passCnt_cleared {ps : List (Fin 8)} {k : Fin 8} (b : Block) (h : k ∈ ps ∨ (pnlOf b k).passCnt = 0) :
    (pnlOf (forAll ps (fun p => updPnl p fun k => { k with passCnt := 0 }) b) k).passCnt = 0 := by
  induction ps generalizing b with
  | nil => exact h.resolve_left List.not_mem_nil
  | cons p ps ih =>
    refine ih _ ?_
    by_cases hk : k = p
    · exact .inr (by rw [hk, pnlOf_updPnl])
    · rw [pnlOf_updPnl_ne hk]
      exact h.imp_left fun hmem => (List.mem_cons.mp hmem).resolve_left hk

/-! ### The commands of the readers (R487) -/

theorem readerCheck_pass {m : Fin 4} {b : Block} (h : rN b m 0 1 < 8) : (readerCheck b m).2 = true := decide_eq_true h

/-- A reader with the settings of a configuration word and a queue. -/
def Reader.configured (w : Nat) (q : U16) (x : Reader) : Reader :=
  { x with
    techs := BitVec.ofNat 3 w, maxRate := BitVec.ofNat 2 (fieldOf w 3 2), txLevel := BitVec.ofNat 3 (fieldOf w 5 3)
    fieldGroup := BitVec.ofNat 3 (fieldOf w 8 3), connector := BitVec.ofNat 5 (fieldOf w 11 5), lpcdThr := BitVec.ofNat 10 (fieldOf w 16 10)
    queue := q }

/-- The reader that mailbox `m` names, set and enabled. -/
def readerSet (m : Fin 4) (b : Block) : Block :=
  updNfc (reqPort b m) (fun x => { x with enable := true, fault := false }) (updNfc (reqPort b m) (Reader.configured (rN b m 4 4) (r16 b m 2)) b)

theorem nfcSetConfig_of_enable {m : Fin 4} {b : Block} (hport : rN b m 0 1 < 8) (hqueue : queueOk (rN b m 2 2) true = true)
    (hconn : connectorOk (fieldOf (rN b m 4 4) 11 5) = true) (hthr : 4 ≤ fieldOf (rN b m 4 4) 16 10) (hon : rBit b m 1 0 = true) :
    nfcSetConfig m b = saveSettings (ok m [] (readerSet m b)) := by
  unfold nfcSetConfig
  extract_lets r w
  rw [checked_cons_pass (readerCheck_pass hport), checked_cons_pass (x := (6, queueOk (rN b m 2 2) true)) hqueue,
    checked_cons_pass (x := (0x1101, connectorOk (fieldOf w 11 5) && decide (4 ≤ fieldOf w 16 10)))
      (Bool.and_eq_true_iff.mpr ⟨hconn, decide_eq_true hthr⟩), checked_nil]
  extract_lets c d
  have hd : d = readerSet m b := if_pos hon
  rw [hd]

section
variable {m : Fin 4} {b : Block} (hport : rN b m 0 1 < 8)
include hport

theorem nfcPoll_of_up (hen : (nfcOf b (reqPort b m)).enable = true) (hfault : (nfcOf b (reqPort b m)).fault = false) :
    nfcPoll m b =
      if (nfcOf b (reqPort b m)).card = true then
        pollAnswer (reqPort b m) true (nfcOf b (reqPort b m)).cardRec (updNfc (reqPort b m) (fun x => { x with pollMbx := some m }) b)
      else if ((nfcOf b (reqPort b m)).polling || (nfcOf b (reqPort b m)).waiting.isSome) = true then
        updNfc (reqPort b m) (fun x => { x with pollMbx := some m }) b
      else pollStart (reqPort b m) (updNfc (reqPort b m) (fun x => { x with pollMbx := some m }) b) := by
  unfold nfcPoll
  extract_lets r
  rw [checked_cons_pass (readerCheck_pass hport), readerUp, checked_cons_pass hen, checked_cons_pass (by rw [hfault]; rfl), checked_nil]

theorem nfcRelease_of_card (hcard : (nfcOf b (reqPort b m)).card = true) : nfcRelease m b = ok m [] (fieldOff (reqPort b m) b) := by
  rw [nfcRelease, checked_cons_pass (readerCheck_pass hport), checked_cons_pass hcard, checked_nil]

theorem nfcRelease_of_none (hcard : (nfcOf b (reqPort b m)).card = false) : nfcRelease m b = refuse m 0x1102 b := by
  rw [nfcRelease, checked_cons_pass (readerCheck_pass hport), checked_cons_fail hcard]

end

/-- A mailbox that waits for the poll is answered. -/
theorem pollAnswer_of_waiting {r : Fin 8} {m : Fin 4} {found : Bool} {p : List U8} {b : Block} (h : (nfcOf b r).pollMbx = some m) :
    pollAnswer r found p b = ok m ([BitVec.ofNat 8 (b2n found), 0, 0, 0] ++ padTo 56 p) (updNfc r (fun x => { x with pollMbx := none }) b) := by
  rw [pollAnswer, h]

/-- The card at the reader that mailbox `m` names has answered or not. -/
def cardAnswered (m : Fin 4) (a : CardAnswer) (b : Block) : Block :=
  match a with
  | .answer l => ok m (leBytes 2 (l.take 1012).length ++ [0, 0] ++ l.take 1012)
      (traceItem 9 0 (now b) ([BitVec.ofNat 8 (reqPort b m).val, 0, 0, 0] ++ l.take 1012) b)
  | .timeout => refuse m 0x1103 b
  | .error => refuse m 0x1104 b

theorem nfcTransceive_of_card {m : Fin 4} {a : CardAnswer} {b : Block} (hport : rN b m 0 1 < 8)
    (hen : (nfcOf b (reqPort b m)).enable = true) (hfault : (nfcOf b (reqPort b m)).fault = false) (hcard : (nfcOf b (reqPort b m)).card = true)
    (hrange : 1 ≤ rN b m 2 2 ∧ rN b m 2 2 ≤ 1000 ∧ 1 ≤ rN b m 4 2 ∧ rN b m 4 2 ≤ 5000) :
    nfcTransceive m a b = cardAnswered m a b := by
  unfold nfcTransceive
  extract_lets r n t
  simp only [readerUp, List.append_assoc, List.cons_append, List.nil_append]
  rw [checked_cons_pass (readerCheck_pass hport),
    checked_cons_pass (x := (0x1101, decide (1 ≤ n ∧ n ≤ 1000 ∧ 1 ≤ t ∧ t ≤ 5000))) (decide_eq_true hrange), checked_cons_pass hen,
    checked_cons_pass (by rw [hfault]; rfl), checked_cons_pass hcard, checked_nil]
  rfl

theorem readerCounts_cleared {rs : List (Fin 8)} {k : Fin 8} (b : Block) (h : k ∈ rs ∨ (nfcOf b k).resolved = 0 ∧ (nfcOf b k).falseWake = 0) :
    (nfcOf (forAll rs (fun r => updNfc r fun x => { x with resolved := 0, falseWake := 0 }) b) k).resolved = 0 ∧
      (nfcOf (forAll rs (fun r => updNfc r fun x => { x with resolved := 0, falseWake := 0 }) b) k).falseWake = 0 := by
  induction rs generalizing b with
  | nil => exact h.resolve_left List.not_mem_nil
  | cons r rs ih =>
    refine ih _ ?_
    by_cases hk : k = r
    · exact .inr (by rw [hk, nfcOf_updNfc]; exact ⟨rfl, rfl⟩)
    · rw [nfcOf_updNfc_ne hk]
      exact h.imp_left fun hmem => (List.mem_cons.mp hmem).resolve_left hk

theorem cardAnswered_nfc (m : Fin 4) (a : CardAnswer) (b : Block) : (cardAnswered m a b).nfc = b.nfc := by
  unfold cardAnswered
  split
  · exact (respond_nfc ..).trans (traceItem_nfc ..)
  · exact respond_nfc ..
  · exact respond_nfc ..

end Machine

/-- Settles O56: an instant that has come and a request that is served each have the one effect of its clause, the effects on ports and
readers are read through the update of one of them, and the ports that a lost supply faults are faulted one after the other. -/
theorem panelsAndReaders : Obligations.PanelsAndReaders := by
  unfold Obligations.PanelsAndReaders
  refine ⟨fun s p hstill => ?_, fun s p hen hready hdue hpass => ?_, fun s p i hpass hdue hwait => ?_, fun s p hpass => ?_,
    fun s half hrep => ?_, fun s half hrep => ?_, fun s p => ?_, fun s p => ?_, fun s p _ _ => ?_, fun s p hcarr hfault => ?_,
    fun s p hcarr => ?_, fun s r i q hrep hdet hdue hbusy => ?_, fun s r i q hrep hdet hdue hfree hlow => ?_,
    fun s r i q hrep hdet hdue hfree hhigh => ?_, fun s r i q hdet => ?_, fun s r c hidle => ?_, fun s r c hrep hpoll hfits hdue => ?_,
    fun s r answered hcard => ?_, fun s r answered hrep hcard hdue hkept => ?_, fun s r answered hrep hcard hdue hno hthird => ?_,
    fun s r hfield => ?_, fun s r k hoff hfirst => ?_, fun s r hrep hfield => ?_, fun s r hfield => ?_, fun s r hpoll => ?_,
    fun s r hfirst => ?_, fun s r hrep hpoll hdue => ?_, fun s m ha hport hcfg hheight hconn => ?_, fun s m ha hport => ?_,
    fun s m ha hport hout => ?_, fun s m ha hport hx0 hy hw hh hrows hen hfault hqueue hdata => ?_, fun s m ha hport hout => ?_,
    fun s m ha hport hx0 hy hen hfault => ?_, fun s m ha hport hen hfault hclean => ?_, fun s m ha hport hen hfault hdirty => ?_,
    fun s m ha hport => ?_, fun s m ha => ?_, fun s m ha hport hqueue hconn hthr hon => ?_, fun s m ha hport hen hfault hcard => ?_,
    fun s m ha hport hen hfault hcard hpoll hwait => ?_, fun s m ha hport hen hfault hcard hbusy => ?_,
    fun s m a ha hport hen hfault hcard hn1 hn2 ht1 ht2 => ?_, fun s m ha hport hcard => ?_, fun s m ha hport hcard => ?_, fun s m ha => ?_⟩
  -- EXTCOMIN_TOGGLE
  · refine ⟨_, rfl, execExtcominToggle_frame p rfl, ?_⟩
    exact (State.after_pnl s _).trans (congrArg Block.pnl (extcominToggle_of_still hstill))
  · refine ⟨_, rfl, execExtcominToggle_frame p rfl, ?_⟩
    exact (State.after_pnl s _).trans (congrArg Block.pnl (extcominToggle_of_due hen hready hdue hpass))
  -- PANEL_PASS_END
  · have hx : exec (.panelPassEnd p) s = .next (s.after (panelPassEnd p)) := rfl
    have heff := panelPassEnd_of_due hpass hdue
    refine ⟨_, hx, execPanelPassEnd_frame p hx, ?_⟩
    rw [pnlOf_after, heff, passOver_settles hwait]
    refine ⟨rfl, rfl, rfl, fun hirq => ?_⟩
    rw [Raised, State.after_hic, heff, hirq, (applyWaiting_frame _ _).hic_eq (by decide)]
    exact irq_pends (n := 448) (by decide) _
  · have hx : exec (.panelPassEnd p) s = .next (s.after (panelPassEnd p)) := rfl
    refine ⟨_, hx, execPanelPassEnd_frame p hx, ?_⟩
    rw [State.after_pnl, State.after_frames, panelPassEnd_of_none hpass]
    exact ⟨rfl, rfl⟩
  -- PANEL_BIAS_FAULT
  · have hx : exec (.panelBiasFault half) s = .next (s.after (panelBiasFault half)) := State.input_eq hrep _
    refine ⟨_, hx, execPanelBiasFault_frame half hx, fun p => ?_, fun hwait => ?_⟩
    · rw [pnlOf_after, panelBiasFault_fault]
    · rw [State.after_frames, panelBiasFault_frames half hwait]
  · have hx : exec (.panelBiasFault half) s = .next (s.after (panelBiasFault half)) := State.input_eq hrep _
    exact ⟨_, hx, execPanelBiasFault_frame half hx, rfl⟩
  · exact ⟨_, rfl, execPanelPassEnd_frame p rfl, rfl⟩
  · exact ⟨_, rfl, execExtcominToggle_frame p rfl, rfl⟩
  -- STRIP_REDRAW
  · exact ⟨_, rfl, execStripRedraw_frame p rfl, rfl⟩
  · have hx : exec (.stripRedraw p) s = .next (s.after (redrawStrip p)) := rfl
    exact ⟨_, hx, execStripRedraw_frame p hx, State.after_block (redrawStrip_of_fault hcarr hfault)⟩
  · have hx : exec (.stripRedraw p) s = .next (s.after (redrawStrip p)) := rfl
    refine ⟨_, hx, execStripRedraw_frame p hx, ?_⟩
    rw [State.after_pnl, State.after_frames, redrawStrip_of_down hcarr]
    exact ⟨rfl, rfl⟩
  -- NFC_PING
  · have hx : exec (.nfcPing r i q) s = .next (s.after (nfcPing r ⟨i, q⟩)) := State.input_eq hrep _
    refine ⟨_, hx, execNfcPing_frame r i q hx, ?_⟩
    rw [State.after_nfc, nfcPing_of_busy hdet hdue hbusy]
    rfl
  · have hx : exec (.nfcPing r i q) s = .next (s.after (nfcPing r ⟨i, q⟩)) := State.input_eq hrep _
    exact ⟨_, hx, execNfcPing_frame r i q hx, (State.after_nfc s _).trans (nfcPing_of_below hdet hdue hfree hlow)⟩
  · have hx : exec (.nfcPing r i q) s = .next (s.after (nfcPing r ⟨i, q⟩)) := State.input_eq hrep _
    refine ⟨_, hx, execNfcPing_frame r i q hx, ?_⟩
    simp only [nfcOf_after, nfcPing_of_detuned hdet hdue hfree hhigh, pingMeasured, pingNoted, nfcOf_updNfc]
    refine ⟨trivial, trivial, trivial, trivial, trivial, fun k hk => ?_⟩
    rw [nfcOf_updNfc_ne hk, nfcOf_updNfc_ne hk, nfcOf_updNfc_ne hk, nfcOf_updNfc_ne hk]
  · have hx : exec (.nfcPing r i q) s = .next (s.after id) := State.input_idle (nfcPing_of_blind hdet)
    exact ⟨_, hx, execNfcPing_frame r i q hx, State.after_nfc s id⟩
  -- CARD_RESOLVED
  · have hx : exec (.cardResolved r c) s = .next (s.after id) := State.input_idle (cardResolved_of_idle hidle)
    exact ⟨_, hx, execCardResolved_frame r c hx, State.after_nfc s id⟩
  · have hx : exec (.cardResolved r c) s = .next (s.after (cardResolved r c)) := State.input_eq hrep _
    refine ⟨_, hx, execCardResolved_frame r c hx, ?_⟩
    rw [nfcOf_after, cardResolved_of_due hpoll hfits hdue]
    exact ⟨rfl, rfl, rfl, rfl, rfl⟩
  -- PRESENCE_CHECK
  · have hx : exec (.presenceCheck r answered) s = .next (s.after id) := State.input_idle (presenceCheck_of_none hcard)
    exact ⟨_, hx, execPresenceCheck_frame r answered hx, State.after_nfc s id⟩
  · have hx : exec (.presenceCheck r answered) s = .next (s.after (presenceCheck r answered)) := State.input_eq hrep _
    refine ⟨_, hx, execPresenceCheck_frame r answered hx, ?_⟩
    rw [nfcOf_after, presenceCheck_of_due hcard hdue]
    cases answered with
    | true => exact ⟨rfl, hcard, rfl⟩
    | false =>
      rw [if_neg Bool.false_ne_true, if_neg Bool.false_ne_true, if_pos (hkept.resolve_left Bool.false_ne_true)]
      exact ⟨rfl, hcard, rfl⟩
  · have hx : exec (.presenceCheck r answered) s = .next (s.after (presenceCheck r answered)) := State.input_eq hrep _
    refine ⟨_, hx, execPresenceCheck_frame r answered hx, ?_⟩
    rw [nfcOf_after, presenceCheck_of_due hcard hdue, hno, if_neg Bool.false_ne_true, if_neg (Nat.not_lt.mpr hthird)]
    exact ⟨rfl, rfl⟩
  -- FIELD_RELEASE
  · have hx : exec (.fieldRelease r) s = .next (s.after (fieldRelease r)) := rfl
    exact ⟨_, hx, execFieldRelease_frame r hx, (State.after_nfc s _).trans (congrArg Block.nfc (fieldRelease_of_field hfield))⟩
  · have hx : exec (.fieldRelease r) s = .next (s.after (fieldRelease r)) := rfl
    exact ⟨_, hx, execFieldRelease_frame r hx, State.after_block (fieldRelease_of_next hoff hfirst)⟩
  -- NFC_TX_FAULT
  · have hx : exec (.nfcTxFault r) s = .next (s.after (nfcTxFault r)) := State.input_eq hrep _
    obtain ⟨hnfc, hraised⟩ := nfcTxFault_of_field hfield
    refine ⟨_, hx, execNfcTxFault_frame r hx, ?_⟩
    rw [nfcOf_after, nfcOf_congr hnfc, nfcOf_txFaulted, Raised, State.after_hic]
    exact ⟨rfl, rfl, rfl, rfl, hraised⟩
  · have hx : exec (.nfcTxFault r) s = .next (s.after id) := State.input_idle (nfcTxFault_of_idle hfield)
    exact ⟨_, hx, execNfcTxFault_frame r hx, State.after_nfc s id⟩
  -- FALSE_WAKE_UP
  · have hx : exec (.falseWakeUp r) s = .next (s.after id) := State.input_idle (falseWakeUp_of_idle hpoll)
    exact ⟨_, hx, execFalseWakeUp_frame r hx, State.after_nfc s id⟩
  · have hx : exec (.fieldRelease r) s = .next (s.after (fieldRelease r)) := rfl
    exact ⟨_, hx, execFieldRelease_frame r hx, (State.after_nfc s _).trans (congrArg Block.nfc (fieldRelease_of_none hfirst))⟩
  · have hx : exec (.falseWakeUp r) s = .next (s.after (falseWakeUp r)) := State.input_eq hrep _
    refine ⟨_, hx, execFalseWakeUp_frame r hx, ?_⟩
    rw [nfcOf_after, falseWakeUp_of_due hpoll hdue, nfcOf_pollAnswer, nfcOf_fieldOff, nfcOf_updNfc]
    exact ⟨rfl, rfl, rfl, rfl⟩
  -- PNL_SET_CONFIG
  · have hx : exec (.pnlSetConfig m) s = .next (s.after (pnlSetConfig m)) := run_of_asked ha _
    have heff := pnlSetConfig_of_place hport hcfg hheight hconn
    have hset : (pnlOf (s.after (pnlSetConfig m)).block (reqPort s.block m)).lasting = _ :=
      (congrArg Panel.lasting (pnlOf_congr (b := panelSet m s.block) (by rw [State.after_pnl, heff, saveSettings_pnl, ok, respond_pnl]) _)).trans
        (panelSet_lasting m s.block)
    refine ⟨_, hx, execPnlSetConfig_frame m hx, answered_of_saved heff (panelSet_req ..) (by simp), ?_, ?_, ?_, ?_⟩
    · exact (congrArg Panel.dither hset).trans (switched_dither ..)
    · exact (congrArg Panel.passIrq hset).trans (switched_passIrq ..)
    · exact (congrArg Panel.sck hset).trans (switched_sck ..)
    · exact (congrArg Panel.enable hset).trans (switched_enable ..)
  -- PNL_LOAD_GAMMA
  · have hx : exec (.pnlLoadGamma m) s = .next (s.after (pnlLoadGamma m)) := run_of_asked ha _
    have heff := pnlLoadGamma_of_port hport
    refine ⟨_, hx, execPnlLoadGamma_frame m hx, answered_of_respond heff rfl (by simp), ?_⟩
    rw [State.after_pnl, heff, ok, respond_pnl]
    rfl
  -- PNL_DRAW
  · have hx : exec (.pnlDraw m) s = .next (s.after (pnlDraw m)) := run_of_asked ha _
    have hrefused : ∀ {status : Nat}, pnlDraw m s.block = refuse m status s.block →
        (s.after (pnlDraw m)).block.pnl = s.block.pnl ∧ (s.after (pnlDraw m)).block.frames = s.block.frames ∧
          (s.after (pnlDraw m)).block.qmg = s.block.qmg ∧ Answered s (s.after (pnlDraw m)) m status [] := fun heff =>
      ⟨(after_refuse_frame heff).pnl_eq (by decide), (after_refuse_frame heff).frames_eq (by decide),
        (after_refuse_frame heff).qmg_eq (by decide), answered_of_refuse heff⟩
    refine ⟨_, hx, execPnlDraw_frame m hx, ?_⟩
    rcases pnlDraw_of_beyond hport hout with heff | heff
    · obtain ⟨hpnl, hframes, hqmg, hans⟩ := hrefused heff
      exact ⟨hpnl, hframes, hqmg, .inl hans⟩
    · obtain ⟨hpnl, hframes, hqmg, hans⟩ := hrefused heff
      exact ⟨hpnl, hframes, hqmg, .inr hans⟩
  · have hx : exec (.pnlDraw m) s = .next (s.after (pnlDraw m)) := run_of_asked ha _
    exact ⟨_, hx, execPnlDraw_frame m hx, State.after_block (pnlDraw_of_pixel hport hen hfault hx0 hy hw hh hrows hqueue hdata)⟩
  -- PNL_FILL
  · have hx : exec (.pnlFill m) s = .next (s.after (pnlFill m)) := run_of_asked ha _
    have hrefused : ∀ {status : Nat}, pnlFill m s.block = refuse m status s.block →
        (s.after (pnlFill m)).block.pnl = s.block.pnl ∧ (s.after (pnlFill m)).block.frames = s.block.frames ∧
          Answered s (s.after (pnlFill m)) m status [] := fun heff =>
      ⟨(after_refuse_frame heff).pnl_eq (by decide), (after_refuse_frame heff).frames_eq (by decide), answered_of_refuse heff⟩
    refine ⟨_, hx, execPnlFill_frame m hx, ?_⟩
    rcases pnlFill_of_beyond hport hout with heff | heff
    · obtain ⟨hpnl, hframes, hans⟩ := hrefused heff
      exact ⟨hpnl, hframes, .inl hans⟩
    · obtain ⟨hpnl, hframes, hans⟩ := hrefused heff
      exact ⟨hpnl, hframes, .inr hans⟩
  · have hx : exec (.pnlFill m) s = .next (s.after (pnlFill m)) := run_of_asked ha _
    exact ⟨_, hx, execPnlFill_frame m hx, State.after_block (pnlFill_of_within hport hen hfault hx0 hy)⟩
  -- PNL_FLUSH
  · have hx : exec (.pnlFlush m) s = .next (s.after (pnlFlush m)) := run_of_asked ha _
    have heff := pnlFlush_of_clean hport hen hfault hclean
    refine ⟨_, hx, execPnlFlush_frame m hx, answered_of_respond heff rfl (by simp), ?_⟩
    rw [State.after_pnl, heff, ok, respond_pnl]
  · have hx : exec (.pnlFlush m) s = .next (s.after (pnlFlush m)) := run_of_asked ha _
    exact ⟨_, hx, execPnlFlush_frame m hx, (State.after_pnl s _).trans (congrArg Block.pnl (pnlFlush_of_dirty hport hen hfault hdirty))⟩
  -- PNL_GET_STATUS and PNL_CLEAR_COUNTS
  · have hx : exec (.pnlGetStatus m) s = .next (s.after (pnlGetStatus m)) := run_of_asked ha _
    exact ⟨_, hx, execPnlGetStatus_frame m hx, answered_of_respond (pnlGetStatus_of_port hport) rfl (by rw [b32s_length]; simp)⟩
  · have hx : exec (.pnlClearCounts m) s = .next (s.after (pnlClearCounts m)) := run_of_asked ha _
    refine ⟨_, hx, execPnlClearCounts_frame m hx, answered_of_respond rfl (forAll_keeps (q := Block.mbx) (fun _ _ => by rfl) _ _) (by simp),
      fun p hp => ?_⟩
    rw [pnlOf_after, pnlClearCounts, ok, pnlOf_congr (respond_pnl ..)]
    exact passCnt_cleared _ (.inl hp)
  -- NFC_SET_CONFIG
  · have hx : exec (.nfcSetConfig m) s = .next (s.after (nfcSetConfig m)) := run_of_asked ha _
    have heff := nfcSetConfig_of_enable hport hqueue hconn hthr hon
    have hset : nfcOf (s.after (nfcSetConfig m)).block (reqPort s.block m) = nfcOf (readerSet m s.block) (reqPort s.block m) :=
      nfcOf_congr (by rw [State.after_nfc, heff, saveSettings_nfc, ok, respond_nfc]) _
    refine ⟨_, hx, execNfcSetConfig_frame m hx, answered_of_saved heff rfl (by simp), ?_⟩
    rw [hset, readerSet, nfcOf_updNfc, nfcOf_updNfc]
    exact ⟨rfl, rfl, rfl, rfl, rfl, rfl⟩
  -- NFC_POLL
  · have hx : exec (.nfcPoll m) s = .next (s.after (nfcPoll m)) := run_of_asked ha _
    have heff := (nfcPoll_of_up hport hen hfault).trans (if_pos hcard)
    have hask := heff.trans (pollAnswer_of_waiting (m := m) (by rw [nfcOf_updNfc]))
    refine ⟨_, hx, execNfcPoll_frame m hx, answered_of_respond hask rfl (by simp), ?_⟩
    rw [nfcOf_after, heff, nfcOf_pollAnswer]
  · have hx : exec (.nfcPoll m) s = .next (s.after (nfcPoll m)) := run_of_asked ha _
    have heff := nfcPoll_of_up hport hen hfault
    rw [if_neg (by rw [hcard]; decide), if_neg (by rw [hpoll, hwait]; decide)] at heff
    exact ⟨_, hx, execNfcPoll_frame m hx, State.after_block heff⟩
  · have hx : exec (.nfcPoll m) s = .next (s.after (nfcPoll m)) := run_of_asked ha _
    have heff := nfcPoll_of_up hport hen hfault
    have hwaits : ((nfcOf s.block (reqPort s.block m)).polling || (nfcOf s.block (reqPort s.block m)).waiting.isSome) = true := by
      rw [Bool.or_eq_true, Option.isSome_iff_ne_none]
      exact hbusy
    rw [if_neg (by rw [hcard]; decide), if_pos hwaits] at heff
    exact ⟨_, hx, execNfcPoll_frame m hx, (State.after_nfc s _).trans (congrArg Block.nfc heff)⟩
  -- NFC_TRANSCEIVE
  · have hx : exec (.nfcTransceive m a) s = .next (s.after (nfcTransceive m a)) := run_of_asked ha _
    have heff := nfcTransceive_of_card (a := a) hport hen hfault hcard ⟨hn1, hn2, ht1, ht2⟩
    refine ⟨_, hx, execNfcTransceive_frame m a hx, ?_, ?_, ?_, ?_⟩
    · rw [State.after_nfc, heff]
      exact cardAnswered_nfc m a s.block
    · rintro l rfl
      exact answered_of_respond heff ((traceItem_frame _ _ _ _ s.block).mbx_eq (by decide)) (by simp; omega)
    · rintro rfl
      exact answered_of_refuse heff
    · rintro rfl
      exact answered_of_refuse heff
  -- NFC_RELEASE and NFC_CLEAR_COUNTS
  · have hx : exec (.nfcRelease m) s = .next (s.after (nfcRelease m)) := run_of_asked ha _
    have heff := nfcRelease_of_card hport hcard
    refine ⟨_, hx, execNfcRelease_frame m hx, answered_of_respond heff rfl (by simp), ?_⟩
    rw [nfcOf_after, heff, ok, nfcOf_congr (respond_nfc ..), nfcOf_fieldOff]
    exact ⟨rfl, rfl⟩
  · have hx : exec (.nfcRelease m) s = .next (s.after (nfcRelease m)) := run_of_asked ha _
    have heff := nfcRelease_of_none hport hcard
    exact ⟨_, hx, execNfcRelease_frame m hx, answered_of_refuse heff, (after_refuse_frame heff).nfc_eq (by decide)⟩
  · have hx : exec (.nfcClearCounts m) s = .next (s.after (nfcClearCounts m)) := run_of_asked ha _
    refine ⟨_, hx, execNfcClearCounts_frame m hx, answered_of_respond rfl (forAll_keeps (q := Block.mbx) (fun _ _ => by rfl) _ _) (by simp),
      fun r hr => ?_⟩
    rw [nfcOf_after, nfcClearCounts, ok, nfcOf_congr (respond_nfc ..)]
    exact readerCounts_cleared _ (.inl hr)

end Sys2Proof
end

section
/-! PROOFS. Resets of the device, the hub and a core, and the boot that follows (R489 to R498). -/

namespace Sys2Proof

open Machine

theorem Block.Only.dmp_eq {l : List Part} {b c : Block} (h : Block.Only l b c) (hp : Part.dmp ∉ l) : c.dmp = b.dmp := h .dmp hp

namespace Machine

@[simp] theorem State.after_upd (s : State) (f : Block → Block) : (s.after f).block.upd = (f s.block).upd :=
  (safetyItem_frame _ _).upd_eq (by decide)

@[simp] theorem State.after_dmp (s : State) (f : Block → Block) : (s.after f).block.dmp = (f s.block).dmp :=
  (safetyItem_frame _ _).dmp_eq (by decide)

/-- A command without an effect leaves the units of resets and of images. -/
theorem after_idle {s : State} {f : Block → Block} (h : f s.block = s.block) :
    (s.after f).block.rst = s.block.rst ∧ (s.after f).block.upd = s.block.upd := by
  rw [State.after_rst, State.after_upd, h]
  exact ⟨rfl, rfl⟩

@[simp] theorem irq_rst (n : Nat) (b : Block) : (irq n b).rst = b.rst := (irq_frame n b).rst_eq (by decide)

/-! ### A reset is asserted (R489, R490) -/

/-- The supply quality events are closed and the line in progress at the store is torn. -/
def resetPrepared (b : Block) : Block :=
  let b := forAll (List.finRange 2) (fun f => pqTruncate f 0) b
  match b.arb.cur with | some r => tearLine r b | none => b

/-- The units that a reset reads are those that stood before it. -/
theorem resetPrepared_keeps {γ : Type} {q : Block → γ} (hpq : ∀ f b, q (pqTruncate f 0 b) = q b) (htear : ∀ r b, q (tearLine r b) = q b)
    (b : Block) : q (resetPrepared b) = q b := by
  have hclosed : q (forAll (List.finRange 2) (fun f => pqTruncate f 0) b) = q b := forAll_keeps (q := q) (fun f c => hpq f c) _ b
  unfold resetPrepared
  extract_lets c
  split
  · exact (htear ..).trans hclosed
  · exact hclosed

theorem resetPrepared_rst (b : Block) : (resetPrepared b).rst = b.rst :=
  resetPrepared_keeps (q := Block.rst) (fun f c => (pqTruncate_frame f 0 c).rst_eq (by decide)) (fun r c => (tearLine_frame r c).rst_eq (by decide)) b
theorem resetPrepared_backup (b : Block) : (resetPrepared b).backup = b.backup :=
  resetPrepared_keeps (q := Block.backup) (fun f c => (pqTruncate_frame f 0 c).backup_eq (by decide))
    (fun r c => (tearLine_frame r c).backup_eq (by decide)) b
theorem resetPrepared_key (b : Block) : (resetPrepared b).key = b.key :=
  resetPrepared_keeps (q := Block.key) (fun f c => (pqTruncate_frame f 0 c).key_eq (by decide)) (fun r c => (tearLine_frame r c).key_eq (by decide)) b
theorem resetPrepared_tide (b : Block) : (resetPrepared b).tide = b.tide :=
  resetPrepared_keeps (q := Block.tide) (fun f c => (pqTruncate_frame f 0 c).tide_eq (by decide)) (fun r c => (tearLine_frame r c).tide_eq (by decide)) b

theorem assertReset_eq (device memory : Bool) (src : BitVec 3) (b : Block) :
    assertReset device memory src b =
      limpStart (noteCauseOf src (if device then .device else .hub) 0 (resetBlock device memory (resetPrepared b))) := by
  unfold assertReset resetPrepared
  extract_lets c d
  clear_value c
  exact congrArg (fun x => limpStart (noteCauseOf src (if device then .device else .hub) 0 (resetBlock device memory x))) rfl

/-- What a reset that source `src` asserts leaves of the reset unit. -/
def ResetUnit.asserted (device : Bool) (src : BitVec 3) (r : ResetUnit) : ResetUnit :=
  { pinLow := r.pinLow, suppliesOk := r.suppliesOk, counts := vupd r.counts src.toFin satInc
    choice := if device then 0 else r.choice, strapFault := !device && r.strapFault, strapLoaded := !device && r.strapLoaded
    causeSource := src, causeScope := if device then .device else .hub, causeCore := BitVec.ofNat 5 0, hist := (0 : U8) ||| (1#8 <<< src.toNat) }

section
variable (device memory : Bool) (src : BitVec 3) (b : Block)

theorem noteCauseOf_resetBlock_rst :
    (noteCauseOf src (if device then .device else .hub) 0 (resetBlock device memory b)).rst = b.rst.asserted device src := by
  unfold noteCauseOf resetBlock ResetUnit.asserted updRst
  rfl

theorem resetBlock_backup : (resetBlock device memory b).backup = b.backup := by unfold resetBlock; rfl
theorem resetBlock_index : (resetBlock device memory b).key.index = b.key.index := by unfold resetBlock; rfl
theorem resetBlock_hub_now : (resetBlock false memory b).tide.now = b.tide.now := by unfold resetBlock; rfl

theorem assertReset_rst : (assertReset device memory src b).rst = b.rst.asserted device src := by
  rw [assertReset_eq, (limpStart_frame _).rst_eq (by decide), noteCauseOf_resetBlock_rst, resetPrepared_rst]

theorem assertReset_backup : (assertReset device memory src b).backup = b.backup := by
  rw [assertReset_eq, (limpStart_frame _).backup_eq (by decide), (noteCauseOf_frame _ _ _ _).backup_eq (by decide), resetBlock_backup,
    resetPrepared_backup]

theorem assertReset_index : (assertReset device memory src b).key.index = b.key.index := by
  rw [assertReset_eq, (limpStart_frame _).key_eq (by decide), (noteCauseOf_frame _ _ _ _).key_eq (by decide), resetBlock_index,
    resetPrepared_key]

theorem assertReset_hub_now : (assertReset false memory src b).tide.now = b.tide.now := by
  rw [assertReset_eq, (limpStart_frame _).tide_eq (by decide), (noteCauseOf_frame _ _ _ _).tide_eq (by decide), resetBlock_hub_now,
    resetPrepared_tide]

end

/-! ### Release (R492, R493) -/

/-- The reset unit as the device leaves a reset, before the strap is measured. -/
def ResetUnit.released (r : ResetUnit) : ResetUnit := { r with inReset := false, hubBoot := false, bootFrom := 0, bootCmd := 0 }
/-- Tide runs from 0 (R496). -/
def tideStarted (b : Block) : Block := updTide (fun t => { t with now := 0, running := true, xtalOk := true, lost := false }) b

theorem releaseDevice_of_held {mv : U16} {b : Block} (h : b.rst.pinLow = true ∨ b.rst.suppliesOk = false) : releaseDevice mv b = b := by
  refine if_pos ?_
  rcases h with h | h <;> simp [h]

section
variable {mv : U16} {b : Block} (hpin : b.rst.pinLow = false) (hsupply : b.rst.suppliesOk = true) (hreset : b.rst.inReset = true)
include hpin hsupply hreset

theorem releaseDevice_of_free : releaseDevice mv b = traceStart (debugRelease (crossReceivers (strapMeasure mv
    (updD2d (fun d => { d with tideLaneOk := true }) (updRst ResetUnit.released (tideStarted b)))))) := by
  have hgo : ¬ ((b.rst.pinLow || !b.rst.suppliesOk || !b.rst.inReset) = true) := by simp [hpin, hsupply, hreset]
  exact if_neg hgo

theorem releaseDevice_rst : (releaseDevice mv b).rst = (strapMeasure mv (updRst ResetUnit.released b)).rst := by
  rw [releaseDevice_of_free hpin hsupply hreset, (traceStart_frame _).rst_eq (by decide), (debugRelease_frame _).rst_eq (by decide),
    (crossReceivers_frame _).rst_eq (by decide)]
  unfold strapMeasure
  split
  · rw [irq_rst, irq_rst]
    rfl
  · rfl

theorem releaseDevice_tide : (releaseDevice mv b).tide.now = 0 ∧ (releaseDevice mv b).tide.running = true := by
  rw [releaseDevice_of_free hpin hsupply hreset, (traceStart_frame _).tide_eq (by decide), (debugRelease_frame _).tide_eq (by decide),
    (crossReceivers_frame _).tide_eq (by decide), (strapMeasure_frame mv _).tide_eq (by decide)]
  exact ⟨rfl, rfl⟩

end

/-- RESET_N is high. -/
def pinReleased (b : Block) : Block := updRst (fun r => { r with pinLow := false }) b

theorem resetNRelease_eq (mv : U16) (b : Block) : resetNRelease mv b = releaseDevice mv (pinReleased b) := rfl

/-- A reset unit without what a release changes. -/
def ResetUnit.history (r : ResetUnit) : ResetUnit :=
  { r with inReset := false, hubBoot := false, bootFrom := 0, bootCmd := 0, strapFault := false, choice := 0, strapLoaded := false }

theorem ResetUnit.of_history {r q : ResetUnit} (h : r.history = q.history) :
    r.pinLow = q.pinLow ∧ r.suppliesOk = q.suppliesOk ∧ r.causeSource = q.causeSource ∧ r.causeScope = q.causeScope ∧ r.counts = q.counts :=
  ⟨(congrArg ResetUnit.pinLow h :), (congrArg ResetUnit.suppliesOk h :), (congrArg ResetUnit.causeSource h :), (congrArg ResetUnit.causeScope h :),
    (congrArg ResetUnit.counts h :)⟩

theorem strapMeasure_history (mv : U16) (b : Block) :
    (strapMeasure mv b).rst.history = b.rst.history ∧ (strapMeasure mv b).rst.inReset = b.rst.inReset := by
  unfold strapMeasure
  split
  · rw [irq_rst]
    exact ⟨rfl, rfl⟩
  · exact ⟨rfl, rfl⟩

/-- From a reset the device goes on as pin and supplies say, and the causes stay. -/
theorem releaseDevice_history {mv : U16} {b : Block} (hreset : b.rst.inReset = true) :
    (releaseDevice mv b).rst.history = b.rst.history ∧ (releaseDevice mv b).rst.inReset = (b.rst.pinLow || !b.rst.suppliesOk) := by
  by_cases hheld : b.rst.pinLow = true ∨ b.rst.suppliesOk = false
  · rw [releaseDevice_of_held hheld, hreset]
    refine ⟨rfl, ?_⟩
    rcases hheld with h | h <;> simp [h]
  · obtain ⟨hpin, hsupply⟩ := not_or.mp hheld
    have hpin := Bool.eq_false_iff.mpr hpin
    have hsupply := Bool.of_not_eq_false hsupply
    obtain ⟨hhist, hout⟩ := strapMeasure_history mv (updRst ResetUnit.released b)
    rw [releaseDevice_rst hpin hsupply hreset, hhist, hout, hpin, hsupply]
    exact ⟨rfl, rfl⟩

/-- A reset of DEVICE scope by source `src`, released as pin and supplies allow. -/
structure ResetBy (src : BitVec 3) (b c : Block) : Prop where
  inReset : c.rst.inReset = (b.rst.pinLow || !b.rst.suppliesOk)
  pinLow : c.rst.pinLow = b.rst.pinLow
  suppliesOk : c.rst.suppliesOk = b.rst.suppliesOk
  causeSource : c.rst.causeSource = src
  causeScope : c.rst.causeScope = .device
  counts : c.rst.counts = vupd b.rst.counts src.toFin satInc
  backup : c.backup = b.backup
  index : c.key.index = b.key.index

theorem assertReset_released (mv : U16) (memory : Bool) (src : BitVec 3) (b : Block) :
    ResetBy src b (releaseDevice mv (assertReset true memory src b)) := by
  have hrst := assertReset_rst true memory src b
  obtain ⟨hhist, hin⟩ := releaseDevice_history (mv := mv) (b := assertReset true memory src b) (by rw [hrst]; rfl)
  obtain ⟨hpin, hsupply, hsource, hscope, hcounts⟩ := ResetUnit.of_history hhist
  rw [hrst] at hpin hsupply hsource hscope hcounts hin
  exact ⟨hin, hpin, hsupply, hsource, hscope, hcounts,
    ((releaseDevice_frame mv _).backup_eq (by decide)).trans (assertReset_backup ..),
    (congrArg KeyStore.index ((releaseDevice_frame mv _).key_eq (by decide))).trans (assertReset_index ..)⟩

theorem assertReset_started {mv : U16} {memory : Bool} {src : BitVec 3} {b : Block} (hpin : b.rst.pinLow = false)
    (hsupply : b.rst.suppliesOk = true) :
    (releaseDevice mv (assertReset true memory src b)).tide.now = 0 ∧ (releaseDevice mv (assertReset true memory src b)).tide.running = true := by
  have hrst := assertReset_rst true memory src b
  refine releaseDevice_tide ?_ ?_ ?_
  · rw [hrst]
    exact hpin
  · rw [hrst]
    exact hsupply
  · rw [hrst]
    rfl

/-! ### Stops and restarts (R491, R495) -/

theorem coreFails_of_up {src : BitVec 3} {c : CoreId} {b : Block} (hup : coreUp b c = true) (hrun : (src == 4 && coreHalted b c) = false) :
    coreFails src c b = coreRestart src c b := if_neg (by rw [hup, hrun]; decide)

theorem coreFails_of_idle {src : BitVec 3} {c : CoreId} {b : Block} (h : coreUp b c = false ∨ (src == 4 && coreHalted b c) = true) :
    coreFails src c b = b := by
  refine if_pos ?_
  rcases h with h | h <;> rw [h]
  · rfl
  · exact Bool.or_true _

theorem sedgeAbsence_of_none {b : Block} (h : b.rst.sedgeAbsent = none) : sedgeAbsence b = b := by rw [sedgeAbsence, h]

theorem sedgeAbsence_of_due {b : Block} {i : U64} (h : b.rst.sedgeAbsent = some i) (hdue : i.toNat + 3750000000 ≤ (now b).toNat) :
    sedgeAbsence b = raiseFatal 4 (contain { cause := 0x0C, scope := .hub, mode := .hubStop, base := 3, lock := false, reason := .deviceFault }
      (updRst (fun x => { x with sedgeAbsent := none }) b)) := by
  rw [sedgeAbsence, h]
  exact afterTicks_of_le hdue _

theorem stopSequenceStart_of_none {b : Block} (h : b.rst.pending = none) : stopSequenceStart b = b := by rw [stopSequenceStart, h]

section
variable {b : Block} {p : PendingReset} (hpend : b.rst.pending = some p)
include hpend

theorem stopSequenceStart_of_started (hstart : p.started = true) : stopSequenceStart b = b := by
  rw [stopSequenceStart, hpend]
  exact if_pos hstart

theorem stopSequenceStart_of_stop (hstart : p.started = false) (hscope : p.scope ≠ .core) (hdue : p.startAt.toNat ≤ (now b).toNat) :
    stopSequenceStart b = stopStart p b := by
  rw [stopSequenceStart, hpend]
  refine (if_neg (by simp [hstart])).trans ((atInstant_of_le hdue _).trans ?_)
  cases hs : p.scope with
  | core => exact absurd hs hscope
  | hub => rfl
  | device => rfl

theorem stopSequenceStart_of_core {c : CoreId} (hstart : p.started = false) (hscope : p.scope = .core) (hcore : coreOf p.core.toNat = some c)
    (hdue : p.startAt.toNat ≤ (now b).toNat) :
    stopSequenceStart b = coreRestart p.source c (updRst (fun x => { x with pending := none }) b) := by
  rw [stopSequenceStart, hpend]
  refine (if_neg (by simp [hstart])).trans ((atInstant_of_le hdue _).trans ?_)
  rw [hscope, hcore]

/-- Every node has been opened. -/
def allForcedOpen (b : Block) : Block := forAll allNodes forcedOpen b

theorem stopSequenceEnd_of_hub {mv : U16} (hstart : p.started = true) (hscope : p.scope = .hub)
    (hdue : p.startAt.toNat + stopTicks ≤ (now b).toNat) :
    stopSequenceEnd mv b = releaseHub p.startAt p.command (assertReset false true p.source (allForcedOpen b)) := by
  rw [stopSequenceEnd, hpend]
  refine (if_neg (by simp [hstart])).trans ((afterTicks_of_le hdue _).trans ?_)
  rw [hscope]
  rfl

end

theorem stopSequenceEnd_of_none {mv : U16} {b : Block} (h : b.rst.pending = none) : stopSequenceEnd mv b = b := by rw [stopSequenceEnd, h]

theorem allForcedOpen_rst (b : Block) : (allForcedOpen b).rst = b.rst :=
  forAll_keeps (q := Block.rst) (fun n c => (forcedOpen_frame n c).rst_eq (by decide)) _ b
theorem allForcedOpen_tide (b : Block) : (allForcedOpen b).tide = b.tide :=
  forAll_keeps (q := Block.tide) (fun n c => (forcedOpen_frame n c).tide_eq (by decide)) _ b

theorem releaseHub_rst (start command : U64) (b : Block) :
    (releaseHub start command b).rst = { b.rst with inReset := false, hubBoot := true, bootFrom := start, bootCmd := command } := by
  rw [releaseHub, (debugRelease_frame _).rst_eq (by decide), (crossReceivers_frame _).rst_eq (by decide)]
  rfl

theorem coreRestartComplete_of_idle {c : CoreId} {bad : U16} {b : Block}
    (h : coreUp b c = true ∨ b.rst.inReset = true ∨ (imageOf b (coreImage c)).loaded = false ∨ coreHalted b c = true) :
    coreRestartComplete c bad b = b := if_pos (by simpa using h)

theorem coreRestartComplete_of_down {c : CoreId} {bad : U16} {b : Block} (hup : coreUp b c = false) (hreset : b.rst.inReset = false)
    (hload : (imageOf b (coreImage c)).loaded = true) (hhalt : coreHalted b c = false) (htrial : b.upd.trialImage = none) :
    coreRestartComplete c bad b = coreAgain c bad b := by
  have hgo : ¬ (coreUp b c = true ∨ b.rst.inReset = true ∨ (!(imageOf b (coreImage c)).loaded) = true ∨ coreHalted b c = true) := by
    simp [hup, hreset, hload, hhalt]
  have hupd : (coreAgain c bad b).upd = b.upd := (coreAgain_frame c bad b).upd_eq (by decide)
  refine (if_neg hgo).trans (if_neg ?_)
  rw [hupd, htrial]
  exact fun h => nomatch h.1

/-! ### Boot (R496 to R498) -/

theorem bootStageDone_of_over {x : BootInfo} {b : Block} (h : b.rst.inReset = true ∨ 6 ≤ b.rst.stage.toNat) : bootStageDone x b = b :=
  if_pos (h.imp_right .inr)

/-- In boot outside reset the work of stages 1 to 5 waits for the images. -/
theorem bootStageDone_of_boot {x : BootInfo} {b : Block} (hreset : b.rst.inReset = false) (hboot : b.rst.state = .boot)
    (hlow : 1 ≤ b.rst.stage.toNat) (hhigh : b.rst.stage.toNat ≤ 5) :
    bootStageDone x b =
      if stageReady b = true then
        (if (stageUp (stageWork x b)).rst.stage = 6 then stageSix (stageUp (stageWork x b)) else bootNext (stageUp (stageWork x b)))
      else b := by
  have hruns : ¬ (b.rst.inReset = true ∨ (!(b.rst.state == .boot || b.rst.state == .bootFail)) = true ∨ 6 ≤ b.rst.stage.toNat) := by
    rw [hreset, hboot]
    simp
    omega
  have hfirst : b.rst.stage ≠ 0 := fun h => by rw [h] at hlow; exact absurd hlow (by decide)
  exact (if_neg hruns).trans (if_neg hfirst)

theorem stageCarr_stage (b : Block) : (stageCarr b).rst.stage = b.rst.stage := by
  unfold stageCarr
  extract_lets c d bri e f g
  have hc : c.rst.stage = b.rst.stage := (congrArg ResetUnit.stage ((requesterMask_frame rqCarr false _).rst_eq (by decide))).trans (by rfl)
  have hd : d.rst = c.rst := (backupStart_frame c).rst_eq (by decide)
  have hf : f.rst = e.rst := (tamperMove_frame _).rst_eq (by decide)
  have hclosed : (forAll allNodes closeCut g).rst = g.rst := forAll_keeps (q := Block.rst) (fun n x => (closeCut_frame n x).rst_eq (by decide)) _ g
  rw [(replan_frame _).rst_eq (by decide), (signHeldAgain_frame _).rst_eq (by decide), hclosed]
  exact (congrArg ResetUnit.stage (hf.trans hd)).trans hc

theorem stageSedge_stage (b : Block) : (stageSedge b).rst.stage = b.rst.stage := by
  unfold stageSedge
  extract_lets x c d e f g
  have he : e.rst = d.rst := ((requesterMask_frame rqUpdate false _).rst_eq (by decide)).trans ((requesterMask_frame rqSedge false d).rst_eq (by decide))
  have hf : f.rst = e.rst := by
    rw [(linkReset_frame 8 0 _).rst_eq (by decide), (applyPort_frame x _).rst_eq (by decide), (applyProtect_frame x _).rst_eq (by decide),
      (applyVeh_frame x _).rst_eq (by decide), (applySlu_frame x e).rst_eq (by decide)]
  have hg : g.rst = f.rst := by
    unfold g
    split
    · rfl
    · exact (limpEnd_frame f).rst_eq (by decide)
  have hpilot : ∀ y : Block, (forAll allNodes pilotReview y).rst = y.rst := fun y =>
    forAll_keeps (q := Block.rst) (fun n z => (pilotReview_frame n z).rst_eq (by decide)) _ y
  rw [(driveFeed_frame _).rst_eq (by decide), hpilot, (reviewHub_frame _).rst_eq (by decide)]
  exact (congrArg ResetUnit.stage (hg.trans (hf.trans he))).trans (by rfl)

theorem stageWork_stage (x : BootInfo) (b : Block) : (stageWork x b).rst.stage = b.rst.stage := by
  unfold stageWork
  split
  · unfold stageDyke
    extract_lets c d
    have hsaf : d.rst.stage = b.rst.stage := (congrArg ResetUnit.stage ((applySafety_frame (bootSettings b) b).rst_eq (by decide)) :)
    split
    · exact (congrArg ResetUnit.stage ((reviewHub_frame d).rst_eq (by decide))).trans hsaf
    · exact (congrArg ResetUnit.stage ((contain_frame _ d).rst_eq (by decide))).trans hsaf
  · exact stageCarr_stage b
  · rfl
  · exact stageSedge_stage b
  · rfl

theorem stageUp_stage (b : Block) : (stageUp b).rst.stage = b.rst.stage + 1 := rfl

theorem bootStageDone_of_ready {x : BootInfo} {b : Block} (hreset : b.rst.inReset = false) (hboot : b.rst.state = .boot)
    (hlow : 1 ≤ b.rst.stage.toNat) (hhigh : b.rst.stage.toNat ≤ 4) (hready : stageReady b = true) :
    bootStageDone x b = bootNext (stageUp (stageWork x b)) := by
  have hlast : (stageUp (stageWork x b)).rst.stage ≠ 6 := by
    rw [stageUp_stage, stageWork_stage]
    bv_omega
  rw [bootStageDone_of_boot hreset hboot hlow (by omega), if_pos hready, if_neg hlast]

theorem bootStageDone_of_waiting {x : BootInfo} {b : Block} (hreset : b.rst.inReset = false) (hboot : b.rst.state = .boot)
    (hlow : 1 ≤ b.rst.stage.toNat) (hhigh : b.rst.stage.toNat ≤ 5) (hready : stageReady b = false) : bootStageDone x b = b := by
  rw [bootStageDone_of_boot hreset hboot hlow hhigh, if_neg (by rw [hready]; decide)]

theorem readyDeclared_of_early {b : Block} (h : b.rst.stage ≠ 6 ∨ b.rst.state ≠ .boot) : readyDeclared b = b :=
  if_neg fun hc => h.elim (fun hn => hn hc.1) (fun hn => hn hc.2)

theorem readyDeclared_of_due {b : Block} (hstage : b.rst.stage = 6) (hboot : b.rst.state = .boot)
    (hdue : b.rst.bootFrom.toNat + bootTicks ≤ (now b).toNat) : readyDeclared b = declareReady b :=
  (if_pos ⟨hstage, hboot⟩).trans (afterTicks_of_le hdue _)

/-! ### Blocks of an image (R498) -/

theorem imageData_of_error {b : Block} {e : QErr} (h : (qDequeue agSedge b.upd.inQueue.toNat b).2 = .error e) :
    imageData b = (qDequeue agSedge b.upd.inQueue.toNat b).1 := by
  unfold imageData
  split
  next c e' hq => rw [hq]
  next c u hq =>
    rw [hq] at h
    cases h

theorem imageData_of_record {b : Block} {u : Nat} (h : (qDequeue agSedge b.upd.inQueue.toNat b).2 = .ok u) :
    imageData b = takeImageRecord (bufBytes (qDequeue agSedge b.upd.inQueue.toNat b).1 u)
      (qFree agSedge u (qDequeue agSedge b.upd.inQueue.toNat b).1).1 := by
  unfold imageData
  split
  next c e' hq =>
    rw [hq] at h
    cases h
  next c u' hq =>
    rw [hq] at h
    cases h
    rw [hq]

theorem blockTimeout_of_none {b : Block} (h : b.upd.fetch = none) : blockTimeout b = b := by rw [blockTimeout, h]

section
variable {b : Block} {f : Fetch} (hfetch : b.upd.fetch = some f)
include hfetch

theorem blockTimeout_of_unposted (hposted : f.posted = false) : blockTimeout b = b := by
  rw [blockTimeout, hfetch]
  exact if_neg (by simp [hposted])

theorem blockTimeout_of_due (hposted : f.posted = true) (hdue : f.requestedAt.toNat + 150000000 ≤ (now b).toNat) :
    blockTimeout b = if f.tries < 3 then requestBlocks (updFetch (fun y => { y with tries := y.tries + 1 }) b) else fetchFail 0x130D b := by
  rw [blockTimeout, hfetch]
  exact (if_pos hposted).trans (afterTicks_of_le hdue _)

end

/-- The missing images are requested again (R497). -/
def imagesRequested (b : Block) : Block :=
  updUpd (fun u => { u with
    lastRetry := now b
    images := vmapIdx u.images fun i x => if x.missing then { x with missing := false, fell := decide (u.activating = some i) } else x }) b

theorem bootRetry_of_fail {b : Block} (hfail : b.rst.state = .bootFail) (hboot : booting b = true)
    (hdue : b.upd.lastRetry.toNat + tSec ≤ (now b).toNat) : bootRetry b = bootNext (imagesRequested b) :=
  (if_pos ⟨hfail, hboot⟩).trans (afterTicks_of_le hdue _)

end Machine

/-- Settles O57: a reset of the device is the reset block with its cause noted, released as pin and supplies allow; an event whose
conditions do not hold leaves the device, and every other one has the one effect of its clause. -/
theorem resetsAndBoot : Obligations.ResetsAndBoot := by
  unfold Obligations.ResetsAndBoot
  refine ⟨fun s high mv => ?_, fun s => ?_, fun s => ?_, fun s mv hsupply hreset hstrap => ?_, fun s mv hsupply => ?_, fun s mv => ?_,
    fun s mv hlost => ?_, fun s mv hlost => ?_, fun s c hup hrun => ?_, fun s c hidle => ?_, fun s c hup => ?_, fun s c hdown => ?_,
    fun s hnone => ?_, fun s i hsome hdue => ?_, fun s p hpend hstart hscope hdue => ?_, fun s p c hpend hstart hscope hcore hdue => ?_,
    fun s p hpend hstart => ?_, fun s mv p _ _ _ => ?_, fun s hnone => ?_, fun s mv p hpend hstart hscope hdue => ?_, fun s mv hnone => ?_,
    fun s c bad hidle => ?_, fun s c bad hup hreset hload hhalt htrial => ?_, fun s c bad hidle => ?_, fun s c bad => ?_, fun s x hover => ?_,
    fun s x hreset hboot hlow hhigh hready => ?_, fun s x hreset hboot hlow hhigh hready => ?_, fun s x => ?_, fun s hearly => ?_,
    fun s hstage hboot hdue => ?_, fun s e herror => ?_, fun s u hrecord => ?_, fun s f hfetch hposted hdue htries => ?_,
    fun s f hfetch hposted hdue htries => ?_, fun s f hfetch hposted => ?_, fun s hnone => ?_, fun s hstate => ?_, fun s hfail hboot hdue => ?_⟩
  -- POWER_ON
  · have hx : exec (.powerOn high mv) s = .next (s.after (powerOn high mv)) := rfl
    have hby := assertReset_released mv false 0 (updRst (fun r => { r with suppliesOk := true, pinLow := !high }) s.block)
    refine ⟨_, hx, rfl, ?_⟩
    rw [State.after_rst, State.after_backup, State.after_key, State.after_tide, powerOn]
    refine ⟨hby.inReset.trans (Bool.or_false _), hby.pinLow, hby.suppliesOk, hby.causeSource, hby.causeScope, ?_, hby.backup, hby.index,
      fun hhigh => assertReset_started (by rw [hhigh]; rfl) rfl⟩
    exact (congrArg (fun v => vget v 0) hby.counts).trans (vget_vupd_self ..)
  -- BROWN_OUT
  · have hx : exec .brownOut s = .next (s.after brownOut) := rfl
    refine ⟨_, hx, rfl, ?_⟩
    rw [State.after_rst, State.after_backup, State.after_key, brownOut, assertReset_rst, assertReset_backup, assertReset_index]
    exact ⟨rfl, rfl, rfl, rfl, vget_vupd_self s.block.rst.counts 1 satInc, rfl, rfl⟩
  -- RESET_PIN
  · have hx : exec .resetPin s = .next (s.after resetPin) := rfl
    refine ⟨_, hx, rfl, ?_⟩
    rw [State.after_rst, State.after_backup, State.after_key, resetPin, assertReset_rst, assertReset_backup, assertReset_index]
    exact ⟨rfl, rfl, rfl, rfl, vget_vupd_self s.block.rst.counts 2 satInc, rfl, rfl⟩
  -- RESET_N_RELEASE
  · have hx : exec (.resetNRelease mv) s = .next (s.after (resetNRelease mv)) := rfl
    refine ⟨_, hx, execResetNRelease_frame mv hx, ?_⟩
    rw [State.after_rst, State.after_tide, resetNRelease_eq, releaseDevice_rst (b := pinReleased s.block) rfl hsupply hreset, strapMeasure,
      if_neg (Nat.not_lt.mpr hstrap)]
    exact ⟨rfl, rfl, rfl, rfl, releaseDevice_tide (b := pinReleased s.block) rfl hsupply hreset⟩
  · have hx : exec (.resetNRelease mv) s = .next (s.after (resetNRelease mv)) := rfl
    refine ⟨_, hx, execResetNRelease_frame mv hx, ?_⟩
    rw [State.after_rst, State.after_tide, resetNRelease_eq, releaseDevice_of_held (b := pinReleased s.block) (.inr hsupply)]
    exact ⟨rfl, rfl⟩
  · exact ⟨_, rfl, execResetNRelease_frame mv rfl, rfl⟩
  -- CLOCK_FAIL
  · have hx : exec (.clockFail mv) s = .next (s.after (clockFail mv)) := rfl
    have hby := assertReset_released mv false 3 s.block
    refine ⟨_, hx, rfl, ?_⟩
    rw [State.after_rst, State.after_backup, State.after_key, clockFail, if_pos hlost]
    exact ⟨hby.inReset, hby.causeSource, hby.causeScope, (congrArg (fun v => vget v 3) hby.counts).trans (vget_vupd_self ..), hby.backup, hby.index⟩
  · have hx : exec (.clockFail mv) s = .next (s.after (clockFail mv)) := rfl
    refine ⟨_, hx, rfl, ?_⟩
    rw [State.after_rst, State.after_tide, clockFail, if_neg (by rw [hlost]; decide)]
    exact ⟨rfl, rfl⟩
  -- WATCHDOG and LOCK_UP
  · have hx : exec (.watchdog c) s = .next (s.after (coreFails 4 c)) := rfl
    exact ⟨_, hx, execWatchdog_frame c hx, State.after_block (coreFails_of_up hup (by rw [hrun]; rfl))⟩
  · have hx : exec (.watchdog c) s = .next (s.after (coreFails 4 c)) := rfl
    exact ⟨_, hx, execWatchdog_frame c hx, after_idle (coreFails_of_idle (hidle.imp_right fun h => by rw [h]; rfl))⟩
  · have hx : exec (.lockUp c) s = .next (s.after (coreFails 7 c)) := rfl
    exact ⟨_, hx, execLockUp_frame c hx, State.after_block (coreFails_of_up hup rfl)⟩
  · have hx : exec (.lockUp c) s = .next (s.after (coreFails 7 c)) := rfl
    exact ⟨_, hx, execLockUp_frame c hx, after_idle (coreFails_of_idle (.inl hdown))⟩
  -- SEDGE_ABSENCE_TIMEOUT
  · have hx : exec .sedgeAbsenceTimeout s = .next (s.after sedgeAbsence) := rfl
    have heff := sedgeAbsence_of_none hnone
    obtain ⟨hrst, hupd⟩ := after_idle heff
    refine ⟨_, hx, execSedgeAbsenceTimeout_frame hx, hrst, hupd, ?_⟩
    rw [State.after_dmp, heff]
  · have hx : exec .sedgeAbsenceTimeout s = .next (s.after sedgeAbsence) := rfl
    exact ⟨_, hx, execSedgeAbsenceTimeout_frame hx, State.after_block (sedgeAbsence_of_due hsome hdue)⟩
  -- STOP_SEQUENCE_START and STOP_SEQUENCE_END
  · have hx : exec .stopSequenceStart s = .next (s.after stopSequenceStart) := rfl
    exact ⟨_, hx, execStopSequenceStart_frame hx, State.after_block (stopSequenceStart_of_stop hpend hstart hscope hdue)⟩
  · have hx : exec .stopSequenceStart s = .next (s.after stopSequenceStart) := rfl
    exact ⟨_, hx, execStopSequenceStart_frame hx, State.after_block (stopSequenceStart_of_core hpend hstart hscope hcore hdue)⟩
  · have hx : exec .stopSequenceStart s = .next (s.after stopSequenceStart) := rfl
    exact ⟨_, hx, execStopSequenceStart_frame hx, after_idle (stopSequenceStart_of_started hpend hstart)⟩
  · exact ⟨_, rfl, rfl, rfl⟩
  · have hx : exec .stopSequenceStart s = .next (s.after stopSequenceStart) := rfl
    exact ⟨_, hx, execStopSequenceStart_frame hx, after_idle (stopSequenceStart_of_none hnone)⟩
  · have hx : exec (.stopSequenceEnd mv) s = .next (s.after (stopSequenceEnd mv)) := rfl
    refine ⟨_, hx, rfl, ?_⟩
    rw [State.after_rst, State.after_tide, stopSequenceEnd_of_hub hpend hstart hscope hdue, releaseHub_rst, assertReset_rst,
      (releaseHub_frame _ _ _).tide_eq (by decide), assertReset_hub_now, allForcedOpen_tide]
    exact ⟨rfl, rfl, rfl, rfl, rfl, rfl, rfl⟩
  · have hx : exec (.stopSequenceEnd mv) s = .next (s.after (stopSequenceEnd mv)) := rfl
    exact ⟨_, hx, rfl, after_idle (stopSequenceEnd_of_none hnone)⟩
  -- CORE_RESTART_COMPLETE
  · have hx : exec (.coreRestartComplete c bad) s = .next (s.after (coreRestartComplete c bad)) := rfl
    exact ⟨_, hx, execCoreRestartComplete_frame c bad hx, after_idle (coreRestartComplete_of_idle (hidle.imp_right .inl))⟩
  · have hx : exec (.coreRestartComplete c bad) s = .next (s.after (coreRestartComplete c bad)) := rfl
    exact ⟨_, hx, execCoreRestartComplete_frame c bad hx, State.after_block (coreRestartComplete_of_down hup hreset hload hhalt htrial)⟩
  · have hx : exec (.coreRestartComplete c bad) s = .next (s.after (coreRestartComplete c bad)) := rfl
    exact ⟨_, hx, execCoreRestartComplete_frame c bad hx, after_idle (coreRestartComplete_of_idle (.inr (.inr hidle)))⟩
  · exact ⟨_, rfl, execCoreRestartComplete_frame c bad rfl, rfl⟩
  -- BOOT_STAGE_DONE
  · have hx : exec (.bootStageDone x) s = .next (s.after (bootStageDone x)) := rfl
    exact ⟨_, hx, execBootStageDone_frame x hx, after_idle (bootStageDone_of_over hover)⟩
  · have hx : exec (.bootStageDone x) s = .next (s.after (bootStageDone x)) := rfl
    exact ⟨_, hx, execBootStageDone_frame x hx, State.after_block (bootStageDone_of_ready hreset hboot hlow hhigh hready)⟩
  · have hx : exec (.bootStageDone x) s = .next (s.after (bootStageDone x)) := rfl
    exact ⟨_, hx, execBootStageDone_frame x hx, after_idle (bootStageDone_of_waiting hreset hboot hlow hhigh hready)⟩
  · exact ⟨_, rfl, execBootStageDone_frame x rfl, rfl⟩
  -- READY_DECLARED
  · have hx : exec .readyDeclared s = .next (s.after readyDeclared) := rfl
    exact ⟨_, hx, execReadyDeclared_frame hx, after_idle (readyDeclared_of_early hearly)⟩
  · have hx : exec .readyDeclared s = .next (s.after readyDeclared) := rfl
    refine ⟨_, hx, execReadyDeclared_frame hx, ?_⟩
    rw [State.after_rst, Raised, State.after_hic, readyDeclared_of_due hstage hboot hdue, declareReady, irq_rst]
    exact ⟨rfl, irq_pends (n := 21) (by decide) _⟩
  -- IMAGE_DATA
  · have hx : exec .imageData s = .next (s.after imageData) := rfl
    refine ⟨_, hx, execImageData_frame hx, ?_⟩
    rw [State.after_upd, State.after_rst, imageData_of_error herror]
    exact ⟨(qDequeue_frame _ _ _).upd_eq (by decide), (qDequeue_frame _ _ _).rst_eq (by decide)⟩
  · have hx : exec .imageData s = .next (s.after imageData) := rfl
    exact ⟨_, hx, execImageData_frame hx, State.after_block (imageData_of_record hrecord)⟩
  -- BLOCK_REQUEST_TIMEOUT
  · have hx : exec .blockRequestTimeout s = .next (s.after blockTimeout) := rfl
    exact ⟨_, hx, execBlockRequestTimeout_frame hx, State.after_block ((blockTimeout_of_due hfetch hposted hdue).trans (if_pos htries))⟩
  · have hx : exec .blockRequestTimeout s = .next (s.after blockTimeout) := rfl
    exact ⟨_, hx, execBlockRequestTimeout_frame hx,
      State.after_block ((blockTimeout_of_due hfetch hposted hdue).trans (if_neg (Nat.not_lt.mpr htries)))⟩
  · have hx : exec .blockRequestTimeout s = .next (s.after blockTimeout) := rfl
    exact ⟨_, hx, execBlockRequestTimeout_frame hx, after_idle (blockTimeout_of_unposted hfetch hposted)⟩
  · have hx : exec .blockRequestTimeout s = .next (s.after blockTimeout) := rfl
    exact ⟨_, hx, execBlockRequestTimeout_frame hx, after_idle (blockTimeout_of_none hnone)⟩
  -- BOOT_RETRY
  · have hx : exec .bootRetry s = .next (s.after bootRetry) := rfl
    exact ⟨_, hx, execBootRetry_frame hx, after_idle (if_neg fun h => hstate h.1)⟩
  · have hx : exec .bootRetry s = .next (s.after bootRetry) := rfl
    exact ⟨_, hx, execBootRetry_frame hx, State.after_block (bootRetry_of_fail hfail hboot hdue)⟩

end Sys2Proof
end

section
/-! PROOFS. The firmware update: activation, trial and the commands of the update family (R498 to R517). -/

namespace Sys2Proof

open Machine

namespace Machine

@[simp] theorem irq_upd (n : Nat) (b : Block) : (irq n b).upd = b.upd := (irq_frame n b).upd_eq (by decide)
@[simp] theorem respond_upd (m : Fin 4) (status : Nat) (p : List U8) (b : Block) : (respond m status p b).upd = b.upd :=
  (respond_frame m status p b).upd_eq (by decide)
@[simp] theorem saveUpdate_upd (b : Block) : (saveUpdate b).upd = b.upd := (saveUpdate_frame b).upd_eq (by decide)
@[simp] theorem saveSettings_upd (b : Block) : (saveSettings b).upd = b.upd := (saveSettings_frame b).upd_eq (by decide)

/-- A refused command of this family answers its status and leaves the images. -/
theorem refused_keeps_upd {s : State} {f : Block → Block} {m : Fin 4} {status : Nat} (hf : f s.block = refuse m status s.block) :
    Answered s (s.after f) m status [] ∧ (s.after f).block.upd = s.block.upd :=
  ⟨answered_of_refuse hf, (after_refuse_frame hf).upd_eq (by decide)⟩

/-! ### Pauses (R504 to R506) -/

theorem activationSwitch_of_none {conv : Bool} {b : Block} (h : b.upd.pause = none) : activationSwitch conv b = b := by
  rw [activationSwitch, h]

section
variable {conv : Bool} {b : Block} {p : Pause} (hpause : b.upd.pause = some p)
include hpause

theorem activationSwitch_of_early (h : p.begun = false ∨ mayEndPause b p.image = false) : activationSwitch conv b = b := by
  rw [activationSwitch, hpause]
  exact if_pos (by simpa using h)

/-- A pause that may end, of an image other than Creek, ends with the revert or the activation. -/
theorem activationSwitch_of_image (hbegun : p.begun = true) (hend : mayEndPause b p.image = true) (himage : p.image ≠ 0) :
    activationSwitch conv b =
      if p.revert = true then reverted p b
      else if (formatDiffers b p.image && !conv) = true then settingsReverted p b else activated p b := by
  rw [activationSwitch, hpause]
  exact (if_neg (by simp [hbegun, hend])).trans (if_neg himage)

theorem modemDeferredSwitch_of_due {n : Fin 16} (hbegun : p.begun = true) (himage : p.image = 0) (hmodem : p.modem = none)
    (hdefer : b.upd.deferred.getLsbD n.val = true) (hmay : modemMaySwitch b n = true) :
    modemDeferredSwitch n b = updUpd (fun u => { u with pause := some { p with modem := some n, start := now b } }) b := by
  rw [modemDeferredSwitch, hpause]
  exact if_pos ⟨hbegun, himage, by rw [hmodem]; rfl, hdefer, hmay⟩

end

theorem modemDeferredSwitch_of_none {n : Fin 16} {b : Block} (h : b.upd.pause = none) : modemDeferredSwitch n b = b := by
  rw [modemDeferredSwitch, h]

theorem modemDeferredSwitch_of_idle {n : Fin 16} {b : Block} (h : b.upd.deferred.getLsbD n.val = false ∨ modemMaySwitch b n = false) :
    modemDeferredSwitch n b = b := by
  unfold modemDeferredSwitch
  split
  · rfl
  · refine if_neg ?_
    rintro ⟨_, _, _, hdefer, hmay⟩
    rcases h with h | h
    · rw [h] at hdefer
      cases hdefer
    · rw [h] at hmay
      cases hmay

/-! ### The trial (R509, R510) -/

theorem trialWarn_of_due {b : Block} (htrial : b.upd.trialImage.isSome = true) (hwarn : b.upd.warned = false)
    (hdue : b.upd.trialFrom.toNat + (b.upd.trialLeft.toNat - 60) * tSec ≤ (now b).toNat) :
    trialWarn b = irq 28 (updUpd (fun u => { u with warned := true }) b) :=
  (if_pos ⟨htrial, by rw [hwarn]; rfl⟩).trans (afterTicks_of_le hdue _)

theorem trialWarn_of_idle {b : Block} (h : b.upd.trialImage.isSome = false ∨ b.upd.warned = true) : trialWarn b = b := by
  refine if_neg ?_
  rcases h with h | h <;> simp [h]

theorem trialTimeSave_of_due {b : Block} (htrial : b.upd.trialImage.isSome = true) (hleft : 10 ≤ b.upd.trialLeft.toNat)
    (hdue : b.upd.trialFrom.toNat + 10 * tSec ≤ (now b).toNat) :
    trialTimeSave b = saveUpdate (updUpd (fun u => { u with
      trialLeft := u.trialLeft - 10, trialFrom := u.trialFrom + BitVec.ofNat 64 (10 * tSec) }) b) :=
  (if_pos ⟨htrial, hleft⟩).trans (afterTicks_of_le hdue _)

theorem trialTimeSave_of_idle {b : Block} (h : b.upd.trialImage.isSome = false ∨ b.upd.trialLeft.toNat < 10) : trialTimeSave b = b := by
  refine if_neg ?_
  rintro ⟨htrial, hleft⟩
  rcases h with h | h
  · rw [h] at htrial
    cases htrial
  · omega

theorem trialExpired_of_none {b : Block} (h : b.upd.trialImage = none) : trialExpired b = b := by rw [trialExpired, h]

theorem trialExpired_of_busy {b : Block} (h : b.upd.pause ≠ none ∨ b.upd.commit ≠ none) : trialExpired b = b := by
  unfold trialExpired
  split
  · rfl
  · exact if_pos (h.imp Option.isSome_iff_ne_none.mpr Option.isSome_iff_ne_none.mpr)

theorem trialExpired_of_over {b : Block} {k : Fin 4} (htrial : b.upd.trialImage = some k) (hpause : b.upd.pause = none)
    (hcommit : b.upd.commit = none)
    (hover : b.upd.revertWait = true ∨ b.upd.trialFrom.toNat + b.upd.trialLeft.toNat * tSec ≤ (now b).toNat) :
    trialExpired b = trialOver k b := by
  have hfree : ¬ (b.upd.pause.isSome = true ∨ b.upd.commit.isSome = true) := by simp [hpause, hcommit]
  rw [trialExpired, htrial]
  refine (if_neg hfree).trans ?_
  by_cases hwait : b.upd.revertWait = true
  · exact if_pos hwait
  · exact (if_neg hwait).trans (afterTicks_of_le (hover.resolve_left hwait) _)

/-! ### The commands (R517) -/

theorem pfCheck_pass {b : Block} (h : b.pf.active = false) : (pfCheck b).2 = true := by
  rw [pfCheck, h]
  rfl

theorem heldReadings_pass {m : Fin 4} {b : Block} (hheld : reqImageNo b m = 2 → b.slt.unsigned_ = []) :
    (!(reqImageNo b m == 2 && b.slt.unsigned_ != [])) = true := by
  by_cases h : reqImageNo b m = 2
  · simp [hheld h]
  · simp [h]

section
variable {m : Fin 4} {b : Block} (hpf : b.pf.active = false)
include hpf

section
variable (hlow : 1 ≤ rN b m 0 1) (hhigh : rN b m 0 1 ≤ 4)
include hlow hhigh

/-- The checks that the commands for an image begin with pass. -/
theorem checked_image (l : List (Nat × Bool)) (f : Block → Block) : checked m (pfCheck b :: imageRange b m :: l) f b = checked m l f b :=
  (checked_cons_pass (pfCheck_pass hpf) f b).trans (checked_cons_pass (decide_eq_true ⟨hlow, hhigh⟩) f b)

theorem updStage_of_idle (hidle : updIdle b = true) (hnone : noneStaged b = true) (htrial : b.upd.trialImage = none) :
    updStage m b = beginFetch { image := reqImageNo b m, slotB := !(imageOf b (reqImageNo b m)).runB, mbx := some m }
      (updUpd (fun u => { u with status := 1, busy := true, progress := 0, image := BitVec.ofNat 3 ((reqImageNo b m).val + 1) }) b) := by
  unfold updStage
  extract_lets i
  rw [checked_image hpf hlow hhigh, checked_cons_pass (by simp [hidle, hnone, htrial]), checked_nil]

theorem updCommit_of_trial (hidle : updIdle b = true) (htrial : b.upd.trialImage = some (reqImageNo b m)) :
    updCommit m b = commitStep (updUpd (fun u => { u with commit := some (reqImageNo b m, m) }) b) := by
  unfold updCommit
  extract_lets i
  rw [checked_image hpf hlow hhigh, checked_cons_pass hidle, checked_cons_pass (decide_eq_true htrial), checked_nil]

theorem updCommit_of_other (hidle : updIdle b = true) (htrial : b.upd.trialImage ≠ some (reqImageNo b m)) :
    updCommit m b = refuse m 0x130C b := by
  unfold updCommit
  extract_lets i
  rw [checked_image hpf hlow hhigh, checked_cons_pass hidle, checked_cons_fail (decide_eq_false htrial)]

theorem updRevert_of_trial (hidle : updIdle b = true) (htrial : b.upd.trialImage = some (reqImageNo b m))
    (hallow : switchAllowed b (reqImageNo b m) = true) (hheld : reqImageNo b m = 2 → b.slt.unsigned_ = []) :
    updRevert m b = beginRevert { image := reqImageNo b m, mbx := some m } b := by
  unfold updRevert
  extract_lets i
  rw [checked_image hpf hlow hhigh, checked_cons_pass hidle, checked_cons_pass (decide_eq_true htrial), checked_cons_pass hallow,
    checked_cons_pass (heldReadings_pass hheld), checked_nil]

/-- The staged copy of the image that mailbox `m` names is dropped. -/
def stagedDropped (m : Fin 4) (b : Block) : Block :=
  setSlot (reqImageNo b m) (!(imageOf b (reqImageNo b m)).runB) 0
    (updUpd (fun u => { u with status := 0, image := BitVec.ofNat 3 ((reqImageNo b m).val + 1), standby := [] }) b)

theorem updDiscard_of_staged (hidle : updIdle b = true) (hstaged : otherState b (reqImageNo b m) = 1) :
    updDiscard m b = ok m [] (stagedDropped m b) := by
  unfold updDiscard
  extract_lets i
  rw [checked_image hpf hlow hhigh, checked_cons_pass hidle, checked_cons_pass (beq_of_eq hstaged), checked_nil]
  rfl

theorem updDiscard_of_other (hidle : updIdle b = true) (hstaged : otherState b (reqImageNo b m) ≠ 1) : updDiscard m b = refuse m 0x130B b := by
  unfold updDiscard
  extract_lets i
  rw [checked_image hpf hlow hhigh, checked_cons_pass hidle, checked_cons_fail (beq_false_of_ne hstaged)]

theorem updGetManifest_of_slot (hslot : rN b m 1 1 ≤ 1) :
    updGetManifest m b = ok m (padTo 96 (if rN b m 1 1 = 1 then (imageOf b (reqImageNo b m)).manB
      else (imageOf b (reqImageNo b m)).manA).bytes) b := by
  unfold updGetManifest
  extract_lets x
  rw [checked_cons_pass (pfCheck_pass hpf), checked_cons_pass (decide_eq_true ⟨hlow, hhigh, hslot⟩), checked_nil]

end

theorem updStage_of_range (hrange : rN b m 0 1 = 0 ∨ 4 < rN b m 0 1) : updStage m b = refuse m 0x1301 b := by
  unfold updStage
  extract_lets i
  rw [checked_cons_pass (pfCheck_pass hpf), imageRange, checked_cons_fail (decide_eq_false (by omega))]

/-- The settings of the update that mailbox `m` names. -/
def updateSet (m : Fin 4) (b : Block) : Block :=
  updUpd (fun u => { u with trial := BitVec.ofNat 17 (rN b m 0 4), outQueue := r16 b m 4, inQueue := r16 b m 6 }) b

theorem updSetConfig_of_range (hlow : 60 ≤ rN b m 0 4) (hhigh : rN b m 0 4 ≤ 86400) (hout : queueOk (rN b m 4 2) false = true)
    (hin : queueOk (rN b m 6 2) false = true) : updSetConfig m b = saveSettings (ok m [] (updateSet m b)) := by
  unfold updSetConfig
  extract_lets t
  rw [checked_cons_pass (pfCheck_pass hpf), checked_cons_pass (x := (3, decide (60 ≤ t ∧ t ≤ 86400))) (decide_eq_true ⟨hlow, hhigh⟩),
    checked_cons_pass (x := (6, queueOk (rN b m 4 2) false && queueOk (rN b m 6 2) false)) (by rw [hout, hin]; rfl), checked_nil]
  rfl

theorem updSetConfig_of_beyond (hrange : rN b m 0 4 < 60 ∨ 86400 < rN b m 0 4) : updSetConfig m b = refuse m 3 b := by
  unfold updSetConfig
  extract_lets t
  rw [checked_cons_pass (pfCheck_pass hpf), checked_cons_fail (decide_eq_false (by simp only [t]; omega))]

end

/-- The slot dropped is the one that does not run. -/
theorem stagedDropped_other (m : Fin 4) (b : Block) :
    (stagedDropped m b).upd.status = 0 ∧ (stagedDropped m b).upd.standby = [] ∧ otherState (stagedDropped m b) (reqImageNo b m) = 0 := by
  refine ⟨rfl, rfl, ?_⟩
  have himage : imageOf (stagedDropped m b) (reqImageNo b m) =
      if (!(imageOf b (reqImageNo b m)).runB) = true then { imageOf b (reqImageNo b m) with stateB := 0 }
      else { imageOf b (reqImageNo b m) with stateA := 0 } := vget_vupd_self _ _ _
  rw [otherState, himage]
  cases hrun : (imageOf b (reqImageNo b m)).runB <;> simp [hrun]

/-! ### UPD_ACTIVATE (R504, R505) -/

/-- The checks of an activation before that of the held readings. -/
def activationChecks (b : Block) (m : Fin 4) : List (Nat × Bool) :=
  [pfCheck b, imageRange b m,
    (0x1309, ((List.finRange 4).filter fun j => decide (j.val < (reqImageNo b m).val)).all fun j => !slotIn b 1 j && !slotIn b 3 j),
    (0x1302, updIdle b && b.upd.trialImage.isNone), (0x130B, otherState b (reqImageNo b m) == 1), (0x130A, switchAllowed b (reqImageNo b m))]

/-- The activation that mailbox `m` asks for is recorded, and its pause waits for the record. -/
def activationBegun (m : Fin 4) (b : Block) : Block :=
  updUpd (fun u => { u with
    status := 4, busy := true, progress := 0, image := BitVec.ofNat 3 ((reqImageNo b m).val + 1), activating := some (reqImageNo b m)
    pause := some { image := reqImageNo b m, start := now b, mbx := some m } }) b

/-- A switch waits for the held readings. -/
def switchHeld (b : Block) : Block := { b with key := { b.key with switchWait := true } }

/-- The check of the held readings. -/
def heldCheck (b : Block) (m : Fin 4) : Nat × Bool := (0x130F, !(reqImageNo b m == 2 && b.slt.unsigned_ != []))

theorem updActivate_of_pass {m : Fin 4} {b : Block} (h : firstFail (activationChecks b m ++ [heldCheck b m]) = none) :
    updActivate m b = saveUpdate (activationBegun m b) := by
  unfold updActivate
  extract_lets i earlier held go
  have hgo : go = none := h
  rw [hgo]
  rfl

theorem updActivate_of_fail {m : Fin 4} {b : Block} {st : Nat} (h : firstFail (activationChecks b m ++ [heldCheck b m]) = some st) :
    updActivate m b = refuse m st (if st = 0x130F then switchHeld b else b) := by
  unfold updActivate
  extract_lets i earlier held go
  have hgo : go = some st := h
  rw [hgo]
  rfl

theorem activationChecks_pass {m : Fin 4} {b : Block} (hpf : b.pf.active = false) (hlow : 1 ≤ rN b m 0 1) (hhigh : rN b m 0 1 ≤ 4)
    (hearlier : (((List.finRange 4).filter fun j => decide (j.val < (reqImageNo b m).val)).all fun j => !slotIn b 1 j && !slotIn b 3 j) = true)
    (hidle : updIdle b = true) (htrial : b.upd.trialImage = none) (hstaged : otherState b (reqImageNo b m) = 1)
    (hallow : switchAllowed b (reqImageNo b m) = true) : ∀ x ∈ activationChecks b m, x.2 = true := by
  have hfree : (updIdle b && b.upd.trialImage.isNone) = true := by simp [hidle, htrial]
  simp only [activationChecks, List.forall_mem_cons, hfree]
  exact ⟨pfCheck_pass hpf, decide_eq_true ⟨hlow, hhigh⟩, hearlier, trivial, beq_of_eq hstaged, hallow, fun _ h => absurd h List.not_mem_nil⟩

theorem updActivate_of_busy {m : Fin 4} {b : Block} (hpf : b.pf.active = false) (hlow : 1 ≤ rN b m 0 1) (hhigh : rN b m 0 1 ≤ 4)
    (himage : reqImageNo b m = 0) (hidle : updIdle b = false) : updActivate m b = refuse m 0x1302 b := by
  have hrange : (imageRange b m).2 = true := decide_eq_true ⟨hlow, hhigh⟩
  refine updActivate_of_fail (st := 0x1302) ?_
  simp [activationChecks, firstFail, pfCheck_pass hpf, hrange, himage, hidle]

/-! ### The boot ROM (R498) -/

theorem updBootPart_of_service {m : Fin 4} {b : Block} (hserve : serving b m 0x13F0 = true) (hrom : m ≠ 0 ∨ bootRom b = false) :
    updBootPart m b = refuse m 1 b := by
  have hno : ¬ (m = 0 ∧ bootRom b = true) := by
    rintro ⟨hm, hboot⟩
    rcases hrom with h | h
    · exact h hm
    · rw [h] at hboot
      cases hboot
  exact (if_neg (by rw [hserve]; decide)).trans (if_neg hno)

theorem updBootPart_of_rom {m : Fin 4} {b : Block} (hserve : serving b m 0x13F0 = true) (hm : m = 0) (hboot : bootRom b = true)
    (hlow : 1 ≤ rN b m 0 1) (hhigh : rN b m 0 1 ≤ 4) (hslot : rN b m 1 1 ≤ 1) :
    updBootPart m b = takePart (rN b m 0 1) (rN b m 1 1) (rN b m 4 4) (rN b m 2 1) 512 (rBytes b m 8 512) (ok m [] b) := by
  refine (if_neg (by rw [hserve]; decide)).trans ((if_pos ⟨hm, hboot⟩).trans ?_)
  exact checked_cons_pass (decide_eq_true ⟨hlow, hhigh, hslot⟩) _ b

end Machine

/-- Settles O58: a pause, a trial or a command whose conditions hold has the one effect of its clause; otherwise it changes nothing, or the
first check that fails is its answer. -/
theorem updates : Obligations.Updates := by
  unfold Obligations.Updates
  refine ⟨fun s conv hnone => ?_, fun s conv p hpause hbegun hend himage hact hformat => ?_, fun s conv p hpause hbegun hend himage hrev => ?_,
    fun s conv p _ _ _ => ?_, fun s conv p hpause hearly => ?_, fun s n p hpause hbegun himage hmodem hdefer hmay => ?_, fun s n hidle => ?_,
    fun s n hnone => ?_, fun s htrial hwarn hdue => ?_, fun s hidle => ?_, fun s hidle => ?_, fun s k htrial hpause hcommit hwait => ?_,
    fun s hbusy => ?_, fun s k htrial hpause hcommit _ hdue => ?_, fun s hnone => ?_, fun s htrial hleft hdue => ?_, fun s m ha => ?_,
    fun s m ha hpf hlow hhigh hidle hnone htrial => ?_, fun s m ha hpf hrange => ?_,
    fun s m ha hpf hlow hhigh hearlier hidle htrial hstaged hallow hheld => ?_, fun s m ha hpf hlow hhigh himage hidle => ?_,
    fun s m ha hpf hlow hhigh hidle htrial => ?_, fun s m ha hpf hlow hhigh hidle htrial => ?_,
    fun s m ha hpf hlow hhigh hidle htrial hallow hheld => ?_, fun s m ha hpf hlow hhigh hidle hstaged => ?_,
    fun s m ha hpf hlow hhigh hidle hstaged => ?_, fun s m ha hpf hlow hhigh hout hin => ?_, fun s m ha hpf hrange => ?_,
    fun s m ha hpf hlow hhigh hslot => ?_, fun s m ha hpf hlow hhigh hslot => ?_,
    fun s m ha hpf hlow hhigh hearlier hidle htrial hstaged hallow himage hheld => ?_, fun s m hserve hrom => ?_,
    fun s m hserve hm hboot hlow hhigh hslot => ?_⟩
  -- ACTIVATION_SWITCH
  · have hx : exec (.activationSwitch conv) s = .next (s.after (activationSwitch conv)) := rfl
    exact ⟨_, hx, execActivationSwitch_frame conv hx, after_idle (activationSwitch_of_none hnone)⟩
  · have hx : exec (.activationSwitch conv) s = .next (s.after (activationSwitch conv)) := rfl
    have heff := activationSwitch_of_image (conv := conv) hpause hbegun hend himage
    rw [if_neg (by rw [hact]; decide), if_neg (by rw [hformat, Bool.false_and]; decide)] at heff
    exact ⟨_, hx, execActivationSwitch_frame conv hx, State.after_block heff⟩
  · have hx : exec (.activationSwitch conv) s = .next (s.after (activationSwitch conv)) := rfl
    have heff := (activationSwitch_of_image (conv := conv) hpause hbegun hend himage).trans (if_pos hrev)
    exact ⟨_, hx, execActivationSwitch_frame conv hx, State.after_block heff⟩
  · exact ⟨_, rfl, execActivationSwitch_frame conv rfl, rfl⟩
  · have hx : exec (.activationSwitch conv) s = .next (s.after (activationSwitch conv)) := rfl
    exact ⟨_, hx, execActivationSwitch_frame conv hx, after_idle (activationSwitch_of_early hpause hearly)⟩
  -- MODEM_DEFERRED_SWITCH
  · have hx : exec (.modemDeferredSwitch n) s = .next (s.after (modemDeferredSwitch n)) := rfl
    refine ⟨_, hx, execModemDeferredSwitch_frame n hx, ?_⟩
    rw [State.after_upd, State.after_rst, modemDeferredSwitch_of_due hpause hbegun himage hmodem hdefer hmay]
    exact ⟨rfl, rfl⟩
  · have hx : exec (.modemDeferredSwitch n) s = .next (s.after (modemDeferredSwitch n)) := rfl
    exact ⟨_, hx, execModemDeferredSwitch_frame n hx, after_idle (modemDeferredSwitch_of_idle hidle)⟩
  · have hx : exec (.modemDeferredSwitch n) s = .next (s.after (modemDeferredSwitch n)) := rfl
    exact ⟨_, hx, execModemDeferredSwitch_frame n hx, after_idle (modemDeferredSwitch_of_none hnone)⟩
  -- TRIAL_WARN
  · have hx : exec .trialWarn s = .next (s.after trialWarn) := rfl
    refine ⟨_, hx, execTrialWarn_frame hx, ?_⟩
    rw [State.after_upd, Raised, State.after_hic, trialWarn_of_due htrial hwarn hdue, irq_upd]
    exact ⟨rfl, irq_pends (n := 28) (by decide) _⟩
  · have hx : exec .trialWarn s = .next (s.after trialWarn) := rfl
    exact ⟨_, hx, execTrialWarn_frame hx, after_idle (trialWarn_of_idle hidle)⟩
  · have hx : exec .trialTimeSave s = .next (s.after trialTimeSave) := rfl
    exact ⟨_, hx, execTrialTimeSave_frame hx, after_idle (trialTimeSave_of_idle hidle)⟩
  -- TRIAL_EXPIRED
  · have hx : exec .trialExpired s = .next (s.after trialExpired) := rfl
    exact ⟨_, hx, execTrialExpired_frame hx, State.after_block (trialExpired_of_over htrial hpause hcommit (.inl hwait))⟩
  · have hx : exec .trialExpired s = .next (s.after trialExpired) := rfl
    exact ⟨_, hx, execTrialExpired_frame hx, after_idle (trialExpired_of_busy hbusy)⟩
  · have hx : exec .trialExpired s = .next (s.after trialExpired) := rfl
    exact ⟨_, hx, execTrialExpired_frame hx, State.after_block (trialExpired_of_over htrial hpause hcommit (.inr hdue))⟩
  · have hx : exec .trialExpired s = .next (s.after trialExpired) := rfl
    exact ⟨_, hx, execTrialExpired_frame hx, after_idle (trialExpired_of_none hnone)⟩
  -- TRIAL_TIME_SAVE
  · have hx : exec .trialTimeSave s = .next (s.after trialTimeSave) := rfl
    refine ⟨_, hx, execTrialTimeSave_frame hx, ?_⟩
    rw [State.after_upd, trialTimeSave_of_due htrial hleft hdue, saveUpdate_upd]
    rfl
  -- UPD_GET_STATUS
  · have hx : exec (.updGetStatus m) s = .next (s.after (updGetStatus m)) := run_of_asked ha _
    exact ⟨_, hx, execUpdGetStatus_frame m hx, answered_of_respond (b := s.block) rfl rfl (by rw [length_flatMap_b32]; simp)⟩
  -- UPD_STAGE
  · have hx : exec (.updStage m) s = .next (s.after (updStage m)) := run_of_asked ha _
    exact ⟨_, hx, execUpdStage_frame m hx, State.after_block (updStage_of_idle hpf hlow hhigh hidle hnone htrial)⟩
  · have hx : exec (.updStage m) s = .next (s.after (updStage m)) := run_of_asked ha _
    exact ⟨_, hx, execUpdStage_frame m hx, refused_keeps_upd (updStage_of_range hpf hrange)⟩
  -- UPD_ACTIVATE
  · have hx : exec (.updActivate m) s = .next (s.after (updActivate m)) := run_of_asked ha _
    have hpass := activationChecks_pass hpf hlow hhigh hearlier hidle htrial hstaged hallow
    have heff := updActivate_of_pass (firstFail_of_holding
      (List.forall_mem_append.mpr ⟨hpass, by simpa [heldCheck] using heldReadings_pass hheld⟩))
    refine ⟨_, hx, execUpdActivate_frame m hx, ?_⟩
    rw [State.after_upd, heff, saveUpdate_upd]
    exact ⟨rfl, rfl, rfl, rfl, rfl⟩
  · have hx : exec (.updActivate m) s = .next (s.after (updActivate m)) := run_of_asked ha _
    exact ⟨_, hx, execUpdActivate_frame m hx, refused_keeps_upd (updActivate_of_busy hpf hlow hhigh himage hidle)⟩
  -- UPD_COMMIT and UPD_REVERT
  · have hx : exec (.updCommit m) s = .next (s.after (updCommit m)) := run_of_asked ha _
    exact ⟨_, hx, execUpdCommit_frame m hx, State.after_block (updCommit_of_trial hpf hlow hhigh hidle htrial)⟩
  · have hx : exec (.updCommit m) s = .next (s.after (updCommit m)) := run_of_asked ha _
    exact ⟨_, hx, execUpdCommit_frame m hx, refused_keeps_upd (updCommit_of_other hpf hlow hhigh hidle htrial)⟩
  · have hx : exec (.updRevert m) s = .next (s.after (updRevert m)) := run_of_asked ha _
    exact ⟨_, hx, execUpdRevert_frame m hx, State.after_block (updRevert_of_trial hpf hlow hhigh hidle htrial hallow hheld)⟩
  -- UPD_DISCARD
  · have hx : exec (.updDiscard m) s = .next (s.after (updDiscard m)) := run_of_asked ha _
    have heff := updDiscard_of_staged hpf hlow hhigh hidle hstaged
    have hupd : (s.after (updDiscard m)).block.upd = (stagedDropped m s.block).upd := by rw [State.after_upd, heff, ok, respond_upd]
    obtain ⟨hstatus, hstandby, hother⟩ := stagedDropped_other m s.block
    refine ⟨_, hx, execUpdDiscard_frame m hx, answered_of_respond heff rfl (by simp), ?_⟩
    rw [hupd, otherState, imageOf, hupd]
    exact ⟨hstatus, hstandby, hother⟩
  · have hx : exec (.updDiscard m) s = .next (s.after (updDiscard m)) := run_of_asked ha _
    exact ⟨_, hx, execUpdDiscard_frame m hx, refused_keeps_upd (updDiscard_of_other hpf hlow hhigh hidle hstaged)⟩
  -- UPD_SET_CONFIG
  · have hx : exec (.updSetConfig m) s = .next (s.after (updSetConfig m)) := run_of_asked ha _
    have heff := updSetConfig_of_range hpf hlow hhigh hout hin
    refine ⟨_, hx, execUpdSetConfig_frame m hx, answered_of_saved heff rfl (by simp), ?_⟩
    rw [State.after_upd, heff, saveSettings_upd, ok, respond_upd]
    rfl
  · have hx : exec (.updSetConfig m) s = .next (s.after (updSetConfig m)) := run_of_asked ha _
    exact ⟨_, hx, execUpdSetConfig_frame m hx, refused_keeps_upd (updSetConfig_of_beyond hpf hrange)⟩
  -- UPD_GET_MANIFEST
  · have hx : exec (.updGetManifest m) s = .next (s.after (updGetManifest m)) := run_of_asked ha _
    have heff := updGetManifest_of_slot hpf hlow hhigh (by omega)
    rw [if_neg (by omega)] at heff
    exact ⟨_, hx, execUpdGetManifest_frame m hx, answered_of_respond heff rfl (by simp)⟩
  · have hx : exec (.updGetManifest m) s = .next (s.after (updGetManifest m)) := run_of_asked ha _
    have heff := updGetManifest_of_slot hpf hlow hhigh (by omega)
    rw [if_pos hslot] at heff
    exact ⟨_, hx, execUpdGetManifest_frame m hx, answered_of_respond heff rfl (by simp)⟩
  -- UPD_ACTIVATE while readings are held
  · have hx : exec (.updActivate m) s = .next (s.after (updActivate m)) := run_of_asked ha _
    have hpass := activationChecks_pass hpf hlow hhigh hearlier hidle htrial hstaged hallow
    have hfails : heldCheck s.block m = (0x130F, false) := by simp [heldCheck, himage, hheld]
    have heff := updActivate_of_fail (st := 0x130F) (by rw [hfails]; exact firstFail_append_failing hpass 0x130F [])
    rw [if_pos rfl] at heff
    refine ⟨_, hx, execUpdActivate_frame m hx, answered_of_respond heff rfl (by simp), ?_⟩
    rw [State.after_upd, State.after_key, heff, refuse, respond_upd, (respond_frame _ _ _ _).key_eq (by decide)]
    exact ⟨rfl, rfl⟩
  -- UPD_BOOT_PART
  · have hx : exec (.updBootPart m) s = .next (s.after (updBootPart m)) := rfl
    obtain ⟨hans, hupd⟩ := refused_keeps_upd (updBootPart_of_service hserve hrom)
    exact ⟨_, hx, execUpdBootPart_frame m hx, hupd, hans⟩
  · have hx : exec (.updBootPart m) s = .next (s.after (updBootPart m)) := rfl
    exact ⟨_, hx, execUpdBootPart_frame m hx, State.after_block (updBootPart_of_rom hserve hm hboot hlow hhigh hslot)⟩

end Sys2Proof
end

section
/-! PROOFS. The logs, the fatal dump, and their commands (R523, R528 to R533, R549, R550). -/

namespace Sys2Proof

open Machine

namespace Machine

@[simp] theorem irq_dmp (n : Nat) (b : Block) : (irq n b).dmp = b.dmp := (irq_frame n b).dmp_eq (by decide)
@[simp] theorem irq_arb (n : Nat) (b : Block) : (irq n b).arb = b.arb := (irq_frame n b).arb_eq (by decide)
@[simp] theorem respond_dmp (m : Fin 4) (status : Nat) (p : List U8) (b : Block) : (respond m status p b).dmp = b.dmp :=
  (respond_frame m status p b).dmp_eq (by decide)
@[simp] theorem respond_btn (m : Fin 4) (status : Nat) (p : List U8) (b : Block) : (respond m status p b).btn = b.btn :=
  (respond_frame m status p b).btn_eq (by decide)

/-! ### The operational stream (R523) -/

theorem oplogFlush_of_closed {b : Block} (h : b.btn.opQueue = 0xFFFF ∨ b.btn.held.isSome = true) : oplogFlush b = b := if_pos h

theorem oplogFlush_of_open {b : Block} (hqueue : b.btn.opQueue ≠ 0xFFFF) (hheld : b.btn.held = none) :
    oplogFlush b = notePending (sendAll (64 * b.btn.staged.length + 1) (updBtn (fun x => { x with pendingSince := none }) b)) :=
  if_neg (not_or.mpr ⟨hqueue, by rw [hheld]; decide⟩)

/-! ### Reading the logs (R528) -/

theorem blankLine_length : blankLine.length = 64 := by
  rw [blankLine, sealLine, List.length_append, padTo_length]
  rfl

theorem legalRead_length (b : Block) (k : Nat) : (legalRead b k).length = 64 := by
  unfold legalRead
  extract_lets l
  split
  · exact blankLine_length
  · exact readN_length ..

theorem opRead_length (b : Block) (k : Nat) : (opRead b k).length = 64 := by
  unfold opRead
  extract_lets l
  split
  · exact blankLine_length
  · exact padTo_length ..

/-- The entries of a read, each of one length, with the two sequences before them fit a response. -/
theorem logRead_length {f : Nat → List U8} (hf : ∀ k, (f k).length = 64) (floor next : U64) {n : Nat} (hn : n ≤ 15) :
    (b64 floor ++ b64 next ++ (List.range n).flatMap f).length ≤ 1016 := by
  have hentries : ((List.range n).flatMap f).length = 64 * n := by
    simp [List.length_flatMap, hf, mul_comm]
  rw [List.length_append, List.length_append, b64_length, b64_length, hentries]
  omega

section
variable {m : Fin 4} {b : Block}

theorem btnRead_of_op (hlog : rN b m 0 1 = 1) (hlow : 1 ≤ rN b m 16 1) (hhigh : rN b m 16 1 ≤ 15) :
    btnRead m b = ok m (b64 b.btn.opFloor ++ b64 b.btn.opNext ++
      (List.range (rN b m 16 1)).flatMap fun i => opRead b ((rN b m 8 8 + i) % 2 ^ 64)) b := by
  unfold btnRead
  extract_lets log s n
  rw [checked_cons_pass (x := (0x1201, decide (log ≤ 1 ∧ 1 ≤ n ∧ n ≤ 15))) (decide_eq_true ⟨hlog.le, hlow, hhigh⟩), checked_nil]
  exact if_neg (by simp only [log]; omega)

theorem btnRead_of_legal (hlog : rN b m 0 1 = 0) (hlow : 1 ≤ rN b m 16 1) (hhigh : rN b m 16 1 ≤ 15)
    (hdone : legalWaits b (rN b m 8 8) (rN b m 16 1) = false) :
    btnRead m b = ok m (b64 b.btn.legalFloor ++ b64 b.btn.legalNext ++
      (List.range (rN b m 16 1)).flatMap fun i => legalRead b ((rN b m 8 8 + i) % 2 ^ 64)) b := by
  unfold btnRead
  extract_lets log s n
  rw [checked_cons_pass (x := (0x1201, decide (log ≤ 1 ∧ 1 ≤ n ∧ n ≤ 15))) (decide_eq_true ⟨hlog.le.trans (by decide), hlow, hhigh⟩),
    checked_nil]
  exact (if_pos hlog).trans (if_neg (by rw [hdone]; decide))

theorem btnRead_of_other (hlog : 1 < rN b m 0 1) : btnRead m b = refuse m 0x1201 b := by
  unfold btnRead
  extract_lets log s n
  exact checked_cons_fail (decide_eq_false (by simp only [log]; omega)) _ b

/-! ### Clearing the logs (R529) -/

theorem btnClear_of_free (hlog : rN b m 0 1 ≤ 1) (hfree : b.btn.clearing = false) :
    btnClear m b =
      if (authorise m 4 (rN b m 2 2) b).2 = false then refuse m 0x1202 (authorise m 4 (rN b m 2 2) b).1
      else if rN b m 0 1 = 1 then clearOp m (rBytes b m 16 8) (authorise m 4 (rN b m 2 2) b).1
      else clearLegal m (rBytes b m 16 8) (authorise m 4 (rN b m 2 2) b).1 := by
  unfold btnClear
  extract_lets log
  rw [checked_cons_pass (x := (0x1201, decide (log ≤ 1))) (decide_eq_true hlog), checked_cons_pass (by rw [hfree]; rfl), checked_nil]
  extract_lets a challenge
  simp only [Bool.not_eq_true']
  rfl

theorem btnClear_of_busy (hlog : rN b m 0 1 ≤ 1) (hbusy : b.btn.clearing = true) : btnClear m b = refuse m 0x1203 b := by
  unfold btnClear
  extract_lets log
  rw [checked_cons_pass (x := (0x1201, decide (log ≤ 1))) (decide_eq_true hlog), checked_cons_fail (by rw [hbusy]; rfl)]

/-! ### The queue of the stream (R549) -/

/-- The queue of the stream that mailbox `m` names. -/
def opQueueSet (m : Fin 4) (b : Block) : Block := updBtn (fun t => { t with opQueue := r16 b m 0 }) b

theorem btnSetConfig_of_queue (hqueue : queueOk (rN b m 0 2) true = true) : btnSetConfig m b = ok m [] (saveSettings (opQueueSet m b)) := by
  rw [btnSetConfig, checked_cons_pass hqueue, checked_nil]
  rfl

theorem btnSetConfig_of_badQueue (hqueue : queueOk (rN b m 0 2) true = false) : btnSetConfig m b = refuse m 6 b := by
  rw [btnSetConfig, checked_cons_fail hqueue]

end

/-! ### Fatal errors and the dump (R531) -/

theorem fatalError_of_raised {b : Block} {c : U16} {l : List U16} (h : b.dmp.raised = c :: l) :
    fatalError b = fatalAct c (updDmp (fun d => { d with raised := l }) b) := by rw [fatalError, h]

theorem fatalError_of_none {b : Block} (h : b.dmp.raised = []) : fatalError b = b := by rw [fatalError, h]

theorem dumpStart_of_due {b : Block} {i : U64} (hfatal : b.dmp.fatalAt = some i) (hcore : dumpCore b = true)
    (hdue : allOpen b = true ∨ i.toNat + 270000000 ≤ (now b).toNat) : dumpStart b = dumpBegin b := by
  rw [dumpStart, hfatal]
  refine (if_neg (by rw [hcore]; decide)).trans ?_
  by_cases hopen : allOpen b = true
  · exact if_pos hopen
  · exact (if_neg hopen).trans (afterTicks_of_le (hdue.resolve_left hopen) _)

theorem dumpStart_of_idle {b : Block} (h : b.dmp.fatalAt = none ∨ dumpCore b = false) : dumpStart b = b := by
  unfold dumpStart
  split
  · rfl
  next hsome =>
    refine if_pos ?_
    rw [h.resolve_left (by rw [hsome]; exact Option.some_ne_none _)]
    rfl

/-- The dump is held. -/
def dumpValid (b : Block) : Block := irq 481 (updDmp (fun d => { d with state := 2 }) b)

theorem dumpComplete_of_writing {b : Block} (h : b.dmp.state = 1) : dumpComplete b = onlyIf b.arb.byDump liftFreeze (dumpValid b) := by
  have hflag : (dumpValid b).arb.byDump = b.arb.byDump := congrArg (fun a => a.byDump) (irq_arb 481 (updDmp (fun d => { d with state := 2 }) b))
  rw [dumpComplete, if_pos h, ← hflag]
  rfl

theorem dumpComplete_of_other {b : Block} (h : b.dmp.state ≠ 1) : dumpComplete b = b := if_neg h

/-- The end of a dump lifts its freeze and nothing else of the port. -/
theorem dumpComplete_arb {b : Block} (h : b.dmp.state = 1) :
    (dumpComplete b).arb = if b.arb.byDump = true then (liftFreeze b).arb else b.arb := by
  have harb : (dumpValid b).arb = b.arb := irq_arb 481 _
  rw [dumpComplete_of_writing h, onlyIf]
  split
  · rw [liftFreeze, liftFreeze, updArb, updArb, harb]
  · exact harb

/-- What lifting the freeze leaves, a held dump has. -/
theorem dumpComplete_keeps {γ : Type} {q : Block → γ} (hq : ∀ b, q (liftFreeze b) = q b) {b : Block} (h : b.dmp.state = 1) :
    q (dumpComplete b) = q (dumpValid b) := by
  rw [dumpComplete_of_writing h]
  exact onlyIf_keeps (q := q) hq _ _

/-! ### The commands of the dump (R550) -/

theorem dumpHeader_length (d : Dump) : (dumpHeader d).length = 228 := by
  have hsections : (dumpSections.flatMap (tableEntry d)).length = 160 := by
    simp [dumpSections, tableEntry]
  unfold dumpHeader
  split
  · exact zeros_length _
  · extract_lets l
    have hbody : l.length = 224 := by
      simp [l, headerBody, hsections]
    rw [List.length_append, hbody, b32_length]

section
variable {m : Fin 4} {b : Block}

theorem dmpExport_of_other (h : ∀ x, b.dmp.exporting = some x → x.mbx ≠ m) :
    dmpExport m b = checked m [(6, queueOk (rN b m 0 2) false), (0x1401, b.dmp.state != 0), (0x1405, !dumpBusy b.dmp)] (fun b =>
      exportStep (updDmp (fun d => { d with exporting := some { queue := r16 b m 0, mbx := m } }) b)) b := by
  refine if_neg ?_
  split
  next x hx => simp [hx, h x hx]
  next hx => simp

theorem dmpExport_of_held (hqueue : queueOk (rN b m 0 2) false = true) (hstate : b.dmp.state = 2) (hidle : b.dmp.exporting = none) :
    dmpExport m b = exportStep (updDmp (fun d => { d with exporting := some { queue := r16 b m 0, mbx := m } }) b) := by
  rw [dmpExport_of_other (fun x hx => by rw [hidle] at hx; cases hx), checked_cons_pass hqueue, checked_cons_pass (by simp [hstate]),
    checked_cons_pass (by simp [dumpBusy, hstate, hidle]), checked_nil]

theorem dmpExport_of_empty (hqueue : queueOk (rN b m 0 2) false = true) (hstate : b.dmp.state = 0) (hidle : b.dmp.exporting = none) :
    dmpExport m b = refuse m 0x1401 b := by
  rw [dmpExport_of_other (fun x hx => by rw [hidle] at hx; cases hx), checked_cons_pass hqueue, checked_cons_fail (by simp [hstate])]

theorem dmpExport_of_busy (hqueue : queueOk (rN b m 0 2) false = true) (hstate : b.dmp.state ≠ 0) (hbusy : dumpBusy b.dmp = true)
    (hother : ∀ x, b.dmp.exporting = some x → x.mbx ≠ m) : dmpExport m b = refuse m 0x1405 b := by
  rw [dmpExport_of_other hother, checked_cons_pass hqueue, checked_cons_pass (bne_iff_ne.mpr hstate), checked_cons_fail (by rw [hbusy]; rfl)]

theorem dmpRelease_of_empty (hstate : b.dmp.state = 0) : dmpRelease m b = refuse m 0x1401 b := by
  rw [dmpRelease, checked_cons_fail (by simp [hstate])]

theorem dmpRelease_of_held (hstate : b.dmp.state ≠ 0) (hbusy : dumpBusy b.dmp = false) :
    dmpRelease m b = ok m [] (updDmp (fun d => { d with state := 0, exported := false, image := {} }) b) := by
  rw [dmpRelease, checked_cons_pass (bne_iff_ne.mpr hstate), checked_cons_pass (by rw [hbusy]; rfl), checked_nil]

theorem dmpTrigger_of_authorised (h : (authorise m 4 (rN b m 0 2) b).2 = true) :
    dmpTrigger m b = ok m [] (raiseFatal 5 (authorise m 4 (rN b m 0 2) b).1) := if_pos h

theorem dmpTrigger_of_refused (h : (authorise m 4 (rN b m 0 2) b).2 = false) :
    dmpTrigger m b = refuse m 0x1404 (authorise m 4 (rN b m 0 2) b).1 := if_neg (by rw [h]; decide)

end

end Machine

/-- Settles O59: the stream, the fatal error, the dump and each command have the one effect of the branch that the conditions of their
clause choose. -/
theorem logsAndDumps : Obligations.LogsAndDumps := by
  unfold Obligations.LogsAndDumps
  refine ⟨fun s hclosed => ?_, fun s hqueue hheld => ?_, fun s c l hraised => ?_, fun s hnone => ?_, fun s i hfatal hcore hdue => ?_,
    fun s hnone => ?_, fun s hcore => ?_, fun s hstate => ?_, fun s hstate => ?_, fun s m ha hlog hlow hhigh => ?_,
    fun s m ha hlog hlow hhigh hdone => ?_, fun s m ha hlog => ?_, fun s m ha hlog hfree => ?_, fun s m ha hlog hbusy => ?_,
    fun s m ha hqueue => ?_, fun s m ha hqueue => ?_, fun s m ha => ?_, fun s m ha => ?_, fun s m ha => ?_,
    fun s m ha hidle hqueue hstate => ?_, fun s m ha hidle hqueue hstate => ?_, fun s m ha hqueue hstate hbusy hother => ?_,
    fun s m ha hstate => ?_, fun s m ha hstate hbusy => ?_, fun s m ha => ?_⟩
  -- OPLOG_FLUSH
  · have hx : exec .oplogFlush s = .next (s.after oplogFlush) := rfl
    refine ⟨_, hx, execOplogFlush_frame hx, ?_⟩
    rw [State.after_btn, State.after_qmg, oplogFlush_of_closed hclosed]
    exact ⟨rfl, rfl⟩
  · have hx : exec .oplogFlush s = .next (s.after oplogFlush) := rfl
    exact ⟨_, hx, execOplogFlush_frame hx, State.after_block (oplogFlush_of_open hqueue hheld)⟩
  -- FATAL_ERROR
  · have hx : exec .fatalError s = .next (s.after fatalError) := rfl
    exact ⟨_, hx, execFatalError_frame hx, State.after_block (fatalError_of_raised hraised)⟩
  · have hx : exec .fatalError s = .next (s.after fatalError) := rfl
    refine ⟨_, hx, execFatalError_frame hx, ?_⟩
    rw [State.after_dmp, State.after_sess, fatalError_of_none hnone]
    exact ⟨rfl, rfl⟩
  -- DUMP_START
  · have hx : exec .dumpStart s = .next (s.after dumpStart) := rfl
    exact ⟨_, hx, execDumpStart_frame hx, State.after_block (dumpStart_of_due hfatal hcore hdue)⟩
  · have hx : exec .dumpStart s = .next (s.after dumpStart) := rfl
    refine ⟨_, hx, execDumpStart_frame hx, ?_⟩
    rw [State.after_dmp, State.after_arb, dumpStart_of_idle (.inl hnone)]
    exact ⟨rfl, rfl⟩
  · have hx : exec .dumpStart s = .next (s.after dumpStart) := rfl
    refine ⟨_, hx, execDumpStart_frame hx, ?_⟩
    rw [State.after_dmp, State.after_arb, dumpStart_of_idle (.inr hcore)]
    exact ⟨rfl, rfl⟩
  -- DUMP_COMPLETE
  · have hx : exec .dumpComplete s = .next (s.after dumpComplete) := rfl
    refine ⟨_, hx, execDumpComplete_frame hx, ?_⟩
    rw [State.after_dmp, Raised, State.after_hic, State.after_arb, dumpComplete_arb hstate,
      dumpComplete_keeps (q := Block.dmp) (fun b => (liftFreeze_frame b).dmp_eq (by decide)) hstate,
      dumpComplete_keeps (q := Block.hic) (fun b => (liftFreeze_frame b).hic_eq (by decide)) hstate, dumpValid, irq_dmp]
    exact ⟨rfl, irq_pends (n := 481) (by decide) _, rfl⟩
  · have hx : exec .dumpComplete s = .next (s.after dumpComplete) := rfl
    refine ⟨_, hx, execDumpComplete_frame hx, ?_⟩
    rw [State.after_dmp, State.after_hic, dumpComplete_of_other hstate]
    exact ⟨rfl, rfl⟩
  -- BTN_READ
  · have hx : exec (.btnRead m) s = .next (s.after (btnRead m)) := run_of_asked ha _
    exact ⟨_, hx, execBtnRead_frame m hx,
      answered_of_respond (btnRead_of_op hlog hlow hhigh) rfl (logRead_length (fun k => opRead_length ..) _ _ hhigh)⟩
  · have hx : exec (.btnRead m) s = .next (s.after (btnRead m)) := run_of_asked ha _
    exact ⟨_, hx, execBtnRead_frame m hx,
      answered_of_respond (btnRead_of_legal hlog hlow hhigh hdone) rfl (logRead_length (fun k => legalRead_length ..) _ _ hhigh)⟩
  · have hx : exec (.btnRead m) s = .next (s.after (btnRead m)) := run_of_asked ha _
    exact ⟨_, hx, execBtnRead_frame m hx, answered_of_refuse (btnRead_of_other hlog)⟩
  -- BTN_CLEAR
  · have hx : exec (.btnClear m) s = .next (s.after (btnClear m)) := run_of_asked ha _
    have heff := btnClear_of_free hlog hfree
    refine ⟨_, hx, execBtnClear_frame m hx, fun hno => ?_, fun hyes hop => ?_, fun hyes hlegal => ?_⟩
    · rw [if_pos hno] at heff
      refine ⟨answered_of_respond heff (authorise_mbx ..) (by simp), ?_⟩
      rw [State.after_btn, heff, refuse, respond_btn]
      exact (authorise_frame _ _ _ _).btn_eq (by decide)
    · rw [if_neg (by rw [hyes]; decide), if_pos hop] at heff
      exact State.after_block heff
    · rw [if_neg (by rw [hyes]; decide), if_neg (by rw [hlegal]; decide)] at heff
      exact State.after_block heff
  · have hx : exec (.btnClear m) s = .next (s.after (btnClear m)) := run_of_asked ha _
    have heff := btnClear_of_busy hlog hbusy
    exact ⟨_, hx, execBtnClear_frame m hx, answered_of_refuse heff, (after_refuse_frame heff).btn_eq (by decide)⟩
  -- BTN_SET_CONFIG
  · have hx : exec (.btnSetConfig m) s = .next (s.after (btnSetConfig m)) := run_of_asked ha _
    have heff := btnSetConfig_of_queue hqueue
    refine ⟨_, hx, execBtnSetConfig_frame m hx, answered_of_respond heff (saveSettings_mbx _) (by simp), ?_⟩
    rw [State.after_btn, heff, ok, respond_btn, (saveSettings_frame _).btn_eq (by decide)]
    rfl
  · have hx : exec (.btnSetConfig m) s = .next (s.after (btnSetConfig m)) := run_of_asked ha _
    have heff := btnSetConfig_of_badQueue hqueue
    exact ⟨_, hx, execBtnSetConfig_frame m hx, answered_of_refuse heff, (after_refuse_frame heff).btn_eq (by decide)⟩
  -- BTN_GET_STATUS and BTN_CLEAR_COUNTS
  · have hx : exec (.btnGetStatus m) s = .next (s.after (btnGetStatus m)) := run_of_asked ha _
    exact ⟨_, hx, execBtnGetStatus_frame m hx, answered_of_respond (b := s.block) rfl rfl (by rw [b32s_length]; simp)⟩
  · have hx : exec (.btnClearCounts m) s = .next (s.after (btnClearCounts m)) := run_of_asked ha _
    refine ⟨_, hx, execBtnClearCounts_frame m hx, answered_of_respond rfl rfl (by simp), ?_⟩
    rw [State.after_btn, btnClearCounts, ok, respond_btn]
    rfl
  -- DMP_GET_STATUS
  · have hx : exec (.dmpGetStatus m) s = .next (s.after (dmpGetStatus m)) := run_of_asked ha _
    exact ⟨_, hx, execDmpGetStatus_frame m hx, answered_of_respond (b := s.block) rfl rfl (by simp [dumpHeader_length])⟩
  -- DMP_EXPORT
  · have hx : exec (.dmpExport m) s = .next (s.after (dmpExport m)) := run_of_asked ha _
    exact ⟨_, hx, execDmpExport_frame m hx, State.after_block (dmpExport_of_held hqueue hstate hidle)⟩
  · have hx : exec (.dmpExport m) s = .next (s.after (dmpExport m)) := run_of_asked ha _
    have heff := dmpExport_of_empty hqueue hstate hidle
    exact ⟨_, hx, execDmpExport_frame m hx, answered_of_refuse heff, (after_refuse_frame heff).dmp_eq (by decide)⟩
  · have hx : exec (.dmpExport m) s = .next (s.after (dmpExport m)) := run_of_asked ha _
    have heff := dmpExport_of_busy hqueue hstate hbusy hother
    exact ⟨_, hx, execDmpExport_frame m hx, answered_of_refuse heff, (after_refuse_frame heff).dmp_eq (by decide)⟩
  -- DMP_RELEASE
  · have hx : exec (.dmpRelease m) s = .next (s.after (dmpRelease m)) := run_of_asked ha _
    have heff := dmpRelease_of_empty (m := m) hstate
    exact ⟨_, hx, execDmpRelease_frame m hx, answered_of_refuse heff, (after_refuse_frame heff).dmp_eq (by decide)⟩
  · have hx : exec (.dmpRelease m) s = .next (s.after (dmpRelease m)) := run_of_asked ha _
    have heff := dmpRelease_of_held (m := m) hstate hbusy
    refine ⟨_, hx, execDmpRelease_frame m hx, answered_of_respond heff rfl (by simp), ?_⟩
    rw [State.after_dmp, heff, ok, respond_dmp]
    rfl
  -- DMP_TRIGGER
  · have hx : exec (.dmpTrigger m) s = .next (s.after (dmpTrigger m)) := run_of_asked ha _
    have hdmp : (authorise m 4 (rN s.block m 0 2) s.block).1.dmp = s.block.dmp := (authorise_frame _ _ _ _).dmp_eq (by decide)
    refine ⟨_, hx, execDmpTrigger_frame m hx, ?_⟩
    split
    next h =>
      have heff := dmpTrigger_of_authorised h
      refine ⟨?_, answered_of_respond heff (((raiseFatal_frame _ _).mbx_eq (by decide)).trans (authorise_mbx ..)) (by simp)⟩
      rw [State.after_dmp, heff, ok, respond_dmp, raiseFatal, hdmp]
    next h =>
      have heff := dmpTrigger_of_refused (Bool.eq_false_iff.mpr h)
      refine ⟨?_, answered_of_respond heff (authorise_mbx ..) (by simp)⟩
      rw [State.after_dmp, heff, refuse, respond_dmp, hdmp]

end Sys2Proof
end

section
/-! PROOFS. Recording and replay, the JTAG and debug port (R535 to R545, R550). -/

namespace Sys2Proof

open Machine

theorem Block.Only.rpl_eq {l : List Part} {b c : Block} (h : Block.Only l b c) (hp : Part.rpl ∉ l) : c.rpl = b.rpl := h .rpl hp

namespace Machine

/-- A command that leaves the block leaves the state. -/
theorem after_of_idle {s : State} {f : Block → Block} (h : f s.block = s.block) : (s.after f).block = s.block := by
  have hsame : ¬ (s.block.rpl.state = 2 ∧ safetyBytes s.block ≠ safetyBytes s.block) := fun hc => hc.2 rfl
  rw [State.after_block h, safetyItem, if_neg hsame]

/-! ### What a trace item leaves of the recorder (R536) -/

/-- Recording and replay without the items on their way. -/
def Replay.outline (r : Replay) : Replay := { r with recent := [], items := 0 }

theorem Replay.of_outline {r q : Replay} (h : r.outline = q.outline) :
    r.state = q.state ∧ r.cause = q.cause ∧ r.recArmed = q.recArmed ∧ r.armQueue = q.armQueue :=
  ⟨(congrArg Replay.state h :), (congrArg Replay.cause h :), (congrArg Replay.recArmed h :), (congrArg Replay.armQueue h :)⟩

theorem traceItem_outline (cls : Nat) (flags : U8) (stamp : U64) (p : List U8) (b : Block) :
    (traceItem cls flags stamp p b).rpl.outline = b.rpl.outline := by
  unfold traceItem
  split <;> rfl

theorem respond_outline (m : Fin 4) (status : Nat) (p : List U8) (b : Block) : (respond m status p b).rpl.outline = b.rpl.outline := by
  unfold respond
  exact onlyIf_keeps (q := fun c => c.rpl.outline) (fun c => traceItem_outline _ _ _ _ c) _ _

theorem after_outline (s : State) (f : Block → Block) : (s.after f).block.rpl.outline = (f s.block).rpl.outline := by
  change (safetyItem s.block (f s.block)).rpl.outline = _
  unfold safetyItem
  split
  · exact traceItem_outline ..
  · rfl

/-- Outside a recording no item is written. -/
theorem after_rpl_of_idle {s : State} (h : s.block.rpl.state ≠ 2) (f : Block → Block) : (s.after f).block.rpl = (f s.block).rpl := by
  change (safetyItem s.block (f s.block)).rpl = _
  rw [safetyItem, if_neg fun hc => h hc.1]

/-! ### The ends of a recording and of a replay (R535, R540) -/

theorem recordEnd_of_running {c : BitVec 3} {b : Block} (h : b.rpl.state = 2) :
    (recordEnd c b).rpl.state = 4 ∧ (recordEnd c b).rpl.cause = c ∧ Raised (recordEnd c b) 484 := by
  unfold recordEnd
  rw [if_pos h, (irq_frame _ _).rpl_eq (by decide)]
  exact ⟨rfl, rfl, irq_pends (n := 484) (by decide) _⟩

theorem recordEnd_arm (c : BitVec 3) (b : Block) :
    (recordEnd c b).rpl.recArmed = b.rpl.recArmed ∧ (recordEnd c b).rpl.armQueue = b.rpl.armQueue := by
  unfold recordEnd
  split
  · rw [(irq_frame _ _).rpl_eq (by decide)]
    obtain ⟨_, _, harmed, hqueue⟩ := Replay.of_outline (traceItem_outline 15 0 (now (settleItems (2 ^ 64) b))
      (c.setWidth 8 :: (zeros 7 ++ b64 (settleItems (2 ^ 64) b).rpl.items)) (settleItems (2 ^ 64) b))
    exact ⟨harmed, hqueue⟩
  · exact ⟨rfl, rfl⟩

theorem replayEnd_of_starved {b : Block} (h : b.rpl.state = 3) :
    (replayEnd 3 b).rpl = { b.rpl with state := 4, cause := 3 } ∧ Raised (replayEnd 3 b) 486 := by
  have hcause : ((3 : BitVec 3) == 4) = false := by decide
  rw [replayEnd, if_pos h, hcause, onlyIf, if_neg Bool.false_ne_true, (irq_frame _ _).rpl_eq (by decide)]
  exact ⟨rfl, irq_pends (n := 486) (by decide) _⟩

theorem traceOverflow_of_full {b : Block} (h : traceBufferSize ≤ (traceFlush b).rpl.buffer.length) : traceOverflow b = recordEnd 5 (traceFlush b) :=
  if_pos (h.trans (Nat.le_add_right _ _))

theorem traceOverflow_of_room {b : Block}
    (h : (traceFlush b).rpl.buffer.length + ((traceFlush b).rpl.recent.map fun x => x.2.2.length).sum < traceBufferSize) :
    traceOverflow b = traceFlush b := if_neg (Nat.not_le.mpr h)

theorem traceIn_of_error {b : Block} {e : QErr} (hstate : b.rpl.state = 3) (h : (qDequeue agDump b.rpl.queue.toNat b).2 = .error e) :
    traceIn b = (qDequeue agDump b.rpl.queue.toNat b).1 := by
  unfold traceIn
  rw [if_neg (not_not_intro hstate)]
  split
  next c e' hq => rw [hq]
  next c u hq =>
    rw [hq] at h
    cases h

/-! ### Arming (R550) -/

section
variable {m : Fin 4} {b : Block}

/-- The setting that mailbox `m` names is taken. -/
def recordSet (m : Fin 4) (b : Block) : Block := updRpl (fun r => { r with recArmed := rBit b m 0 0, armQueue := r16 b m 2 }) b

/-- Recording waits for its start. -/
def recordArmed (m : Fin 4) (b : Block) : Block := updRpl (fun r => { r with state := if r.state = 0 then 1 else r.state }) (recordSet m b)

/-- Recording is off, and a running one ends. -/
def recordDisarmed (m : Fin 4) (b : Block) : Block :=
  recordEnd 1 (updRpl (fun r => { r with state := if r.state = 1 then 0 else r.state }) (recordSet m b))

theorem recArm_of_arm (harm : rBit b m 0 0 = true) (hqueue : queueOk (rN b m 2 2) false = true) :
    recArm m b = ok m [] (saveSettings (recordArmed m b)) := by
  unfold recArm
  extract_lets arm
  have harm' : arm = true := harm
  rw [checked_cons_pass (x := (6, queueOk (rN b m 2 2) (!arm))) (by rw [harm']; exact hqueue), checked_nil]
  extract_lets c d
  have hd : d = recordArmed m b := if_pos harm
  rw [hd]

theorem recArm_of_disarm (harm : rBit b m 0 0 = false) (hqueue : queueOk (rN b m 2 2) true = true) :
    recArm m b = ok m [] (saveSettings (recordDisarmed m b)) := by
  unfold recArm
  extract_lets arm
  have harm' : arm = false := harm
  rw [checked_cons_pass (x := (6, queueOk (rN b m 2 2) (!arm))) (by rw [harm']; exact hqueue), checked_nil]
  extract_lets c d
  have hd : d = recordDisarmed m b := if_neg (by rw [harm']; decide)
  rw [hd]

theorem recArm_of_badQueue (harm : rBit b m 0 0 = true) (hqueue : queueOk (rN b m 2 2) false = false) : recArm m b = refuse m 6 b := by
  unfold recArm
  extract_lets arm
  have harm' : arm = true := harm
  exact checked_cons_fail (x := (6, queueOk (rN b m 2 2) (!arm))) (by rw [harm']; exact hqueue) _ b

/-- What an answer and the settings leave of the recorder, they leave of a state. -/
theorem recArm_outline {s : State} {c : Block} (h : recArm m s.block = ok m [] (saveSettings c)) :
    (s.after (recArm m)).block.rpl.outline = c.rpl.outline := by
  rw [after_outline, h, ok, respond_outline, (saveSettings_frame c).rpl_eq (by decide)]

/-- The reset that enters replay mode, as mailbox `m` asks for it. -/
def replayReset (m : Fin 4) (b : Block) : PendingReset :=
  { scope := .device, source := 5, startAt := ahead b tMs, command := now b, replay := some (BitVec.ofNat 16 (rN b m 0 2)) }

/-- The legal log has the arming of a replay. -/
def replayLogged (m : Fin 4) (b : Block) : Block :=
  legalLog 0x0081 wDump (b64 (now b)) (authorise m 4 (rN b m 2 2) b).1

theorem replayLogged_rst (m : Fin 4) (b : Block) : (replayLogged m b).rst = b.rst :=
  ((legalLog_frame _ _ _ _).rst_eq (by decide)).trans ((authorise_frame _ _ _ _).rst_eq (by decide))

theorem replayLogged_tide (m : Fin 4) (b : Block) : (replayLogged m b).tide = b.tide :=
  ((legalLog_frame _ _ _ _).tide_eq (by decide)).trans ((authorise_frame _ _ _ _).tide_eq (by decide))

section
variable (hstrap : strapReplay b.rst.choice.toNat = true) (hqueue : queueOk (rN b m 0 2) false = true) (hsettled : allSettled b = true)
  (hpause : b.upd.pause = none)
include hstrap hqueue hsettled hpause

theorem rplArm_of_refused (hauth : (authorise m 4 (rN b m 2 2) b).2 = false) :
    rplArm m b = refuse m 0x1404 (authorise m 4 (rN b m 2 2) b).1 := by
  unfold rplArm
  extract_lets q
  rw [checked_cons_pass hstrap, checked_cons_pass (x := (6, queueOk q false)) hqueue, checked_cons_pass hsettled,
    checked_cons_pass (by rw [hpause]; rfl), checked_nil]
  exact if_pos (by rw [hauth]; rfl)

theorem rplArm_of_authorised (hauth : (authorise m 4 (rN b m 2 2) b).2 = true) (hfree : b.rst.pending = none) :
    rplArm m b = ok m (b64 (ahead b tMs + BitVec.ofNat 64 stopTicks))
      (updRst (fun r => { r with pending := some (replayReset m b) }) (replayLogged m b)) := by
  unfold rplArm
  extract_lets q
  rw [checked_cons_pass hstrap, checked_cons_pass (x := (6, queueOk q false)) hqueue, checked_cons_pass hsettled,
    checked_cons_pass (by rw [hpause]; rfl), checked_nil]
  extract_lets a c p
  refine (if_neg (by rw [hauth]; decide)).trans ?_
  have htide : c.tide = b.tide := replayLogged_tide m b
  have hnone : c.rst.pending = none := (congrArg ResetUnit.pending (replayLogged_rst m b)).trans hfree
  have hp : p = replayReset m b := by
    simp only [p, hnone, replayReset, ahead, now, htide]
    rfl
  have hstart : (replayReset m b).startAt = ahead b tMs := rfl
  have hlogged : c = replayLogged m b := rfl
  rw [hp, hstart, hlogged]

end

theorem rplArm_of_noStrap (hstrap : strapReplay b.rst.choice.toNat = false) : rplArm m b = refuse m 0x1402 b := by
  unfold rplArm
  extract_lets q
  exact checked_cons_fail hstrap _ b

end

/-! ### Unlock and access (R542, R543) -/

theorem availableIf_pass {c : Bool} (h : c = true) (f : Block → Block) (b : Block) : availableIf c f b = f b := if_pos h

/-- The challenge of mailbox-less debug is issued. -/
theorem dbgChallenge_of_unlockable {b : Block} (h : unlockable b = true) :
    (dbgChallenge b).dbg.ir = 0x10 ∧ (dbgChallenge b).dbg.challenge = some ((draw 32 b).2, ahead b 90000000000) ∧
      (dbgChallenge b).dbg.tdo = (draw 32 b).2 ++ b64 b.key.serial := by
  have htide : (draw 32 b).1.tide = b.tide := (draw_frame 32 b).tide_eq (by decide)
  have hserial : (draw 32 b).1.key.serial = b.key.serial := congrArg (fun k => k.serial) (draw_key 32 b)
  have hahead : ahead (draw 32 b).1 90000000000 = ahead b 90000000000 := by rw [ahead, htide, ahead]
  rw [dbgChallenge, availableIf_pass h, ← hserial, ← hahead]
  exact ⟨rfl, rfl, rfl⟩

/-- The challenge is used up. -/
def challengeUsed (b : Block) : Block := scan 0x11 [] (updDbg (fun d => { d with challenge := none }) b)

theorem dbgResponse_of_none {scope : U8} {sig : List U8} {b : Block} (h : unlockable b = true) (hnone : b.dbg.challenge = none) :
    dbgResponse scope sig b = responseFail (challengeUsed b) := by
  rw [dbgResponse, availableIf_pass h, hnone]
  rfl

theorem dbgResponse_of_challenge {scope : U8} {sig c : List U8} {i : U64} {b : Block} (h : unlockable b = true)
    (hsome : b.dbg.challenge = some (c, i)) (htime : (now b).toNat < i.toNat) (hscope : scope = 1 ∨ scope = 2) :
    dbgResponse scope sig b = if verifySlot b 1 2 (c ++ b64 b.key.serial ++ [scope]) sig then responseGood scope (challengeUsed b)
      else responseFail (challengeUsed b) := by
  have hfits : (decide ((now b).toNat < i.toNat) && (scope == 1 || scope == 2)) = true := by
    rw [decide_eq_true htime, Bool.true_and, Bool.or_eq_true, beq_iff_eq, beq_iff_eq]
    exact hscope
  rw [dbgResponse, availableIf_pass h, hsome]
  simp only [hfits, Bool.true_and]
  rfl

theorem challengeLapse_of_none {b : Block} (h : b.dbg.challenge = none) : challengeLapse b = b := by rw [challengeLapse, h]

theorem challengeLapse_of_due {b : Block} {c : List U8} {i : U64} (h : b.dbg.challenge = some (c, i)) (hdue : i.toNat ≤ (now b).toNat) :
    challengeLapse b = updDbg (fun d => { d with challenge := none }) b := by
  rw [challengeLapse, h]
  exact atInstant_of_le hdue _

/-! ### Halt, step, resume, reset (R543, R545) -/

/-- The core that a mark names is halted or not. -/
def Debug.halts (d : Debug) : CoreId → Bool
  | .sedge => d.haltSedge | .carr => d.haltCarr | .dyke => d.haltDyke | .modem n => d.haltCreek.getLsbD n.val

theorem coreHalted_eq (b : Block) (c : CoreId) : coreHalted b c = b.dbg.halts c := by cases c <;> rfl

theorem setHalt_halts (c : CoreId) (on : Bool) (d : Debug) : (setHalt c on d).halts c = on := by
  cases c with
  | sedge => rfl
  | carr => rfl
  | dyke => rfl
  | modem n =>
    have hbit : (BitVec.ofNat 16 (2 ^ n.val)).getLsbD n.val = true := by
      rw [BitVec.getLsbD_ofNat, Nat.testBit_two_pow_self, decide_eq_true n.isLt, Bool.and_self]
    cases on with
    | false =>
      change (d.haltCreek &&& ~~~BitVec.ofNat 16 (2 ^ n.val)).getLsbD n.val = false
      rw [BitVec.getLsbD_and, BitVec.getLsbD_not, hbit, Bool.not_true, Bool.and_false, Bool.and_false]
    | true =>
      change (d.haltCreek ||| BitVec.ofNat 16 (2 ^ n.val)).getLsbD n.val = true
      rw [BitVec.getLsbD_or, hbit, Bool.or_true]

theorem haltNow_halts (c : CoreId) (b : Block) : coreHalted (haltNow c b) c = true := by
  rw [coreHalted_eq, haltNow, (haltEffect_frame _ _).dbg_eq (by decide), (irq_frame _ _).dbg_eq (by decide)]
  exact setHalt_halts c true b.dbg

theorem debugHalt_of_up {c : CoreId} {b : Block} (hcontrol : hasControl b = true) (hup : coreUp b c = true) (hrun : coreHalted b c = false)
    (hreset : b.rst.inReset = false) : debugHalt c b = if c = .dyke then haltDyke b else haltNow c b :=
  if_neg (by rw [hcontrol, hup, hrun, hreset]; decide)

theorem debugHalt_of_idle {c : CoreId} {b : Block}
    (h : hasControl b = false ∨ coreUp b c = false ∨ coreHalted b c = true ∨ b.rst.inReset = true) : debugHalt c b = b := by
  refine if_pos ?_
  rcases h with h | h | h | h <;> simp [h]

theorem debugStep_of_halted {c : CoreId} {b : Block} (hcontrol : hasControl b = true) (hhalt : coreHalted b c = true) :
    debugStep c b = updDbg (fun d => { d with steps := vupd d.steps (stepIndex c) (· + 1) }) b := if_pos (by rw [hcontrol, hhalt]; rfl)

theorem debugStep_of_idle {c : CoreId} {b : Block} (h : hasControl b = false ∨ coreHalted b c = false) : debugStep c b = b := by
  refine if_neg ?_
  rcases h with h | h <;> simp [h]

theorem debugResume_of_halted {c : CoreId} {b : Block} (hcontrol : hasControl b = true) (hhalt : coreHalted b c = true)
    (hreset : b.rst.inReset = false) : debugResume c b = irq 491 (coreAgain c 0 (updDbg (setHalt c false) b)) :=
  if_pos (by rw [hcontrol, hhalt, hreset]; rfl)

theorem debugResume_of_idle {c : CoreId} {b : Block} (h : coreHalted b c = false ∨ hasControl b = false ∨ b.rst.inReset = true) :
    debugResume c b = b := by
  refine if_neg ?_
  rcases h with h | h | h <;> simp [h]

theorem coreAgain_halts (c : CoreId) (b : Block) : coreHalted (irq 491 (coreAgain c 0 (updDbg (setHalt c false) b))) c = false := by
  rw [coreHalted_eq, (irq_frame _ _).dbg_eq (by decide), (coreAgain_frame c 0 _).dbg_eq (by decide)]
  exact setHalt_halts c false b.dbg

theorem debugReset_of_idle {hub : Bool} {c : CoreId} {b : Block} (h : hasControl b = false ∨ b.rst.inReset = true) : debugReset hub c b = b := by
  refine if_pos ?_
  rcases h with h | h <;> simp [h]

theorem debugReset_of_pending {c : CoreId} {b : Block} (h : b.rst.pending ≠ none) : debugReset true c b = b := by
  obtain ⟨p, hp⟩ := Option.ne_none_iff_exists'.mp h
  rw [debugReset, hp]
  exact ite_self b

section
variable {b : Block} (hcontrol : hasControl b = true) (hreset : b.rst.inReset = false)
include hcontrol hreset

theorem debugReset_of_hub {c : CoreId} (hfree : b.rst.pending = none) :
    debugReset true c b = stopStart { scope := .hub, source := 6, startAt := now b, command := now b } b := by
  simp [debugReset, hcontrol, hreset, hfree]

theorem debugReset_of_core {c : CoreId} : debugReset false c b = coreRestart 6 c (updDbg (setHalt c false) b) :=
  if_neg (by rw [hcontrol, hreset]; decide)

end

/-- A command of the debug port without an effect leaves debug and reset. -/
theorem after_debug_idle {s : State} {f : Block → Block} (h : f s.block = s.block) :
    (s.after f).block.dbg = s.block.dbg ∧ (s.after f).block.rst = s.block.rst := by
  rw [after_of_idle h]
  exact ⟨rfl, rfl⟩

end Machine

/-- Settles O60: the recorder and the debug port are read through the trace items that a step may write, and every command has the one effect
of the branch that the conditions of its clause choose. -/
theorem traceAndDebug : Obligations.TraceAndDebug := by
  unfold Obligations.TraceAndDebug
  refine ⟨fun s => ?_, fun s hstate => ?_, fun s e hstate herror => ?_, fun s hempty hstate => ?_, fun s u _ _ => ?_, fun s hempty => ?_,
    fun s hnext => ?_, fun s m ha harm hqueue => ?_, fun s m ha harm hqueue => ?_, fun s m ha harm hqueue => ?_,
    fun s m ha hstrap hqueue hsettled hpause => ?_, fun s m ha hstrap => ?_, fun s m ha => ?_, fun s => ?_, fun s l => ?_,
    fun s l hcontrol hreset hpin => ?_, fun s l => ?_, fun s => ?_, fun s scope sig => ?_, fun s hnone => ?_, fun s o => ?_,
    fun s hlock => ?_, fun s scope sig hlock hnone => ?_, fun s scope sig c i hlock hsome htime hscope => ?_, fun s c i hsome hdue => ?_,
    fun s o hobserve => ?_, fun s o a hobserve ho => ?_, fun s => ?_, fun s => ?_, fun s c hcontrol hup hrun hreset hc => ?_,
    fun s c hcontrol hup hrun hreset hc => ?_, fun s c hidle => ?_, fun s c hidle => ?_, fun s hub c hidle => ?_, fun s hub c hhub hpend => ?_,
    fun s c hcontrol => ?_, fun s c hcontrol hhalt => ?_, fun s c hcontrol hhalt hreset => ?_, fun s c hidle => ?_,
    fun s hub c hcontrol hreset hhub hfree => ?_, fun s hub c hcontrol hreset hhub => ?_⟩
  -- TRACE_OVERFLOW
  · have hx : exec .traceOverflow s = .next (s.after traceOverflow) := rfl
    refine ⟨_, hx, execTraceOverflow_frame hx, fun hfull hrun => ?_, fun hroom => State.after_block (traceOverflow_of_room hroom)⟩
    obtain ⟨hstate, hcause, hraised⟩ := recordEnd_of_running (c := 5) hrun
    obtain ⟨hs, hc, _, _⟩ := Replay.of_outline (after_outline s traceOverflow)
    have heff := traceOverflow_of_full hfull
    rw [hs, hc, Raised, State.after_hic, heff]
    exact ⟨hstate, hcause, hraised⟩
  -- TRACE_IN and REPLAY_STARVED
  · have hx : exec .traceIn s = .next (s.after traceIn) := rfl
    have heff : traceIn s.block = s.block := if_pos hstate
    refine ⟨_, hx, execTraceIn_frame hx, ?_⟩
    rw [after_of_idle heff]
    exact ⟨rfl, rfl⟩
  · have hx : exec .traceIn s = .next (s.after traceIn) := rfl
    refine ⟨_, hx, execTraceIn_frame hx, ?_⟩
    rw [after_rpl_of_idle (by rw [hstate]; decide), traceIn_of_error hstate herror]
    exact (qDequeue_frame _ _ _).rpl_eq (by decide)
  · have hx : exec .replayStarved s = .next (s.after replayStarved) := rfl
    have heff : replayStarved s.block = replayEnd 3 s.block := if_pos hempty
    refine ⟨_, hx, execReplayStarved_frame hx, ?_⟩
    rw [after_rpl_of_idle (by rw [hstate]; decide), Raised, State.after_hic, heff]
    exact replayEnd_of_starved hstate
  · exact ⟨_, rfl, execTraceIn_frame rfl, rfl⟩
  · have hx : exec .replayStarved s = .next (s.after replayStarved) := rfl
    exact ⟨_, hx, execReplayStarved_frame hx, State.after_block (if_pos hempty)⟩
  · have hx : exec .replayStarved s = .next (s.after replayStarved) := rfl
    refine ⟨_, hx, execReplayStarved_frame hx, ?_⟩
    have heff : replayStarved s.block = s.block := if_neg hnext
    rw [after_of_idle heff]
    exact ⟨rfl, rfl⟩
  -- REC_ARM
  · have hx : exec (.recArm m) s = .next (s.after (recArm m)) := run_of_asked ha _
    obtain ⟨hs, _, hr, hq⟩ := Replay.of_outline (recArm_outline (recArm_of_arm harm hqueue))
    refine ⟨_, hx, execRecArm_frame m hx, ?_⟩
    rw [hs, hr, hq]
    exact ⟨harm, rfl, rfl⟩
  · have hx : exec (.recArm m) s = .next (s.after (recArm m)) := run_of_asked ha _
    obtain ⟨_, _, hr, hq⟩ := Replay.of_outline (recArm_outline (recArm_of_disarm harm hqueue))
    obtain ⟨harmed, hset⟩ := recordEnd_arm 1 (updRpl (fun r => { r with state := if r.state = 1 then 0 else r.state }) (recordSet m s.block))
    refine ⟨_, hx, execRecArm_frame m hx, ?_⟩
    rw [hr, hq]
    exact ⟨harmed.trans harm, hset⟩
  · have hx : exec (.recArm m) s = .next (s.after (recArm m)) := run_of_asked ha _
    have heff := recArm_of_badQueue harm hqueue
    obtain ⟨_, _, hr, hq⟩ := Replay.of_outline (after_outline s (recArm m))
    obtain ⟨_, _, hr', hq'⟩ := Replay.of_outline (respond_outline m 6 [] s.block)
    refine ⟨_, hx, execRecArm_frame m hx, answered_of_refuse heff, ?_⟩
    rw [hr, hq, heff]
    exact ⟨hr', hq'⟩
  -- RPL_ARM
  · have hx : exec (.rplArm m) s = .next (s.after (rplArm m)) := run_of_asked ha _
    refine ⟨_, hx, execRplArm_frame m hx, fun hno => ?_, fun hyes hfree => ?_⟩
    · have heff := rplArm_of_refused hstrap hqueue hsettled hpause hno
      refine ⟨answered_of_respond heff (authorise_mbx ..) (by simp), ?_⟩
      rw [State.after_rst, heff, (refuse_frame _ _ _).rst_eq (by decide), (authorise_frame _ _ _ _).rst_eq (by decide)]
    · have heff := rplArm_of_authorised hstrap hqueue hsettled hpause hyes hfree
      have hmbx : (replayLogged m s.block).mbx = s.block.mbx := ((legalLog_frame _ _ _ _).mbx_eq (by decide)).trans (authorise_mbx ..)
      refine ⟨?_, answered_of_respond heff hmbx (by simp)⟩
      rw [State.after_rst, heff, (ok_frame _ _ _).rst_eq (by decide)]
      rfl
  · have hx : exec (.rplArm m) s = .next (s.after (rplArm m)) := run_of_asked ha _
    have heff := rplArm_of_noStrap (m := m) hstrap
    exact ⟨_, hx, execRplArm_frame m hx, answered_of_refuse heff, (after_refuse_frame heff).rst_eq (by decide)⟩
  -- RPL_GET_STATUS
  · have hx : exec (.rplGetStatus m) s = .next (s.after (rplGetStatus m)) := run_of_asked ha _
    exact ⟨_, hx, execRplGetStatus_frame m hx, answered_of_respond (b := s.block) rfl rfl (by simp)⟩
  -- IDCODE, SAMPLE_PRELOAD and EXTEST
  · have hx : exec .idcode s = .next (s.after (scan 1 (b32 idcodeValue))) := rfl
    refine ⟨_, hx, execIdcode_frame hx, ?_⟩
    rw [State.after_dbg]
    exact ⟨rfl, (by decide : b32 idcodeValue = [0x6B, 0x6A, 0x29, 0x13])⟩
  · have hx : exec (.samplePreload l) s = .next (s.after (samplePreload l)) := rfl
    exact ⟨_, hx, execSamplePreload_frame l hx, State.after_dbg s _⟩
  · have hx : exec (.extest l) s = .next (s.after (extest l)) := rfl
    refine ⟨_, hx, execExtest_frame l hx, ?_⟩
    rw [State.after_dbg, extest, availableIf_pass (by rw [hcontrol, hreset, hpin]; rfl)]
    exact ⟨rfl, rfl, rfl, rfl⟩
  · exact ⟨_, rfl, execExtest_frame l rfl, rfl⟩
  -- DBG_CHALLENGE, DBG_RESPONSE, DBG_ACCESS
  · exact ⟨_, rfl, execDbgChallenge_frame rfl, rfl⟩
  · exact ⟨_, rfl, execDbgResponse_frame scope sig rfl, rfl⟩
  · have hx : exec .dbgChallengeExpired s = .next (s.after challengeLapse) := rfl
    refine ⟨_, hx, execDbgChallengeExpired_frame hx, ?_⟩
    rw [State.after_dbg, challengeLapse_of_none hnone]
  · exact ⟨_, rfl, execDbgAccess_frame o rfl, rfl⟩
  · have hx : exec .dbgChallenge s = .next (s.after dbgChallenge) := rfl
    refine ⟨_, hx, execDbgChallenge_frame hx, ?_⟩
    rw [State.after_dbg]
    exact dbgChallenge_of_unlockable hlock
  · have hx : exec (.dbgResponse scope sig) s = .next (s.after (dbgResponse scope sig)) := rfl
    have heff := dbgResponse_of_none (scope := scope) (sig := sig) hlock hnone
    refine ⟨_, hx, execDbgResponse_frame scope sig hx, State.after_block heff, ?_⟩
    rw [State.after_dbg, heff, responseFail, (irq_frame _ _).dbg_eq (by decide)]
    rfl
  · have hx : exec (.dbgResponse scope sig) s = .next (s.after (dbgResponse scope sig)) := rfl
    exact ⟨_, hx, execDbgResponse_frame scope sig hx, State.after_block (dbgResponse_of_challenge hlock hsome htime hscope)⟩
  · have hx : exec .dbgChallengeExpired s = .next (s.after challengeLapse) := rfl
    refine ⟨_, hx, execDbgChallengeExpired_frame hx, ?_⟩
    rw [State.after_dbg, challengeLapse_of_due hsome hdue]
    rfl
  · have hx : exec (.dbgAccess o) s = .next (s.after (dbgAccess o)) := rfl
    exact ⟨_, hx, execDbgAccess_frame o hx, State.after_block (availableIf_pass hobserve _ _)⟩
  · subst ho
    have hx : exec (.dbgAccess (.readWindow a)) s = .next (s.after (dbgAccess (.readWindow a))) := rfl
    have heff : dbgAccess (.readWindow a) s.block = scan 0x12 (b32 (viewWord s.block a.toNat)) s.block := availableIf_pass hobserve _ _
    refine ⟨_, hx, execDbgAccess_frame _ hx, ⟨rfl, ?_⟩, ?_⟩
    · rw [State.after_block heff]
      exact ((scan_frame _ _ s.block).mono (by decide)).trans ((safetyItem_frame _ _).mono (by decide))
    · rw [State.after_dbg, heff]
      exact ⟨rfl, rfl⟩
  -- DBG_STATUS_SCAN and BYPASS
  · have hx : exec .dbgStatusScan s = .next (s.after dbgStatusScan) := rfl
    refine ⟨_, hx, execDbgStatusScan_frame hx, ?_⟩
    rw [State.after_dbg]
    exact ⟨rfl, rfl⟩
  · have hx : exec .bypass s = .next (s.after bypassScan) := rfl
    refine ⟨_, hx, execBypass_frame hx, ?_⟩
    rw [State.after_dbg]
    exact ⟨rfl, rfl⟩
  -- DEBUG_HALT, DEBUG_STEP and DEBUG_RESET_REQUEST
  · have hx : exec (.debugHalt c) s = .next (s.after (debugHalt c)) := rfl
    have heff := (debugHalt_of_up hcontrol hup hrun hreset).trans (if_neg hc)
    refine ⟨_, hx, execDebugHalt_frame c hx, State.after_block heff, ?_⟩
    rw [coreHalted_eq, State.after_dbg, heff, ← coreHalted_eq, haltNow_halts]
  · have hx : exec (.debugHalt c) s = .next (s.after (debugHalt c)) := rfl
    exact ⟨_, hx, execDebugHalt_frame c hx, State.after_block ((debugHalt_of_up hcontrol hup hrun hreset).trans (if_pos hc))⟩
  · have hx : exec (.debugHalt c) s = .next (s.after (debugHalt c)) := rfl
    exact ⟨_, hx, execDebugHalt_frame c hx, after_debug_idle (debugHalt_of_idle (.inr hidle))⟩
  · have hx : exec (.debugStep c) s = .next (s.after (debugStep c)) := rfl
    exact ⟨_, hx, execDebugStep_frame c hx, after_debug_idle (debugStep_of_idle hidle)⟩
  · have hx : exec (.debugResetRequest hub c) s = .next (s.after (debugReset hub c)) := rfl
    exact ⟨_, hx, execDebugResetRequest_frame hub c hx, after_debug_idle (debugReset_of_idle hidle)⟩
  · subst hhub
    have hx : exec (.debugResetRequest true c) s = .next (s.after (debugReset true c)) := rfl
    exact ⟨_, hx, execDebugResetRequest_frame true c hx, after_debug_idle (debugReset_of_pending hpend)⟩
  · have hx : exec (.debugHalt c) s = .next (s.after (debugHalt c)) := rfl
    exact ⟨_, hx, execDebugHalt_frame c hx, after_debug_idle (debugHalt_of_idle (.inl hcontrol))⟩
  · have hx : exec (.debugStep c) s = .next (s.after (debugStep c)) := rfl
    refine ⟨_, hx, execDebugStep_frame c hx, ?_⟩
    rw [State.after_dbg, debugStep_of_halted hcontrol hhalt]
    rfl
  -- DEBUG_RESUME
  · have hx : exec (.debugResume c) s = .next (s.after (debugResume c)) := rfl
    have heff := debugResume_of_halted hcontrol hhalt hreset
    refine ⟨_, hx, execDebugResume_frame c hx, ?_, ?_⟩
    · rw [coreHalted_eq, State.after_dbg, heff, ← coreHalted_eq, coreAgain_halts]
    · rw [Raised, State.after_hic, heff]
      exact irq_pends (n := 491) (by decide) _
  · have hx : exec (.debugResume c) s = .next (s.after (debugResume c)) := rfl
    exact ⟨_, hx, execDebugResume_frame c hx, after_debug_idle (debugResume_of_idle hidle)⟩
  · subst hhub
    have hx : exec (.debugResetRequest true c) s = .next (s.after (debugReset true c)) := rfl
    exact ⟨_, hx, execDebugResetRequest_frame true c hx, State.after_block (debugReset_of_hub hcontrol hreset hfree)⟩
  · subst hhub
    have hx : exec (.debugResetRequest false c) s = .next (s.after (debugReset false c)) := rfl
    exact ⟨_, hx, execDebugResetRequest_frame false c hx, State.after_block (debugReset_of_core hcontrol hreset)⟩

end Sys2Proof
end

section
/-! PROOFS. The canonical form of the addressed memories, and how it passes through updates, choices and repetition (R422, R460, R469). -/

namespace Sys2Proof

open Machine

namespace Machine

/-- The addressed memories whose canonical form every step keeps: the panel frames, the record SRAM, the mailbox buffers. -/
inductive Addressed where
  | frames | sram | buffers

/-- The addressed memory `k` of the block lists its addresses strictly rising and no zero byte (log entry 148). -/
def Block.Canonical (b : Block) : Addressed → Prop
  | .frames => b.frames.wf = true
  | .sram => b.qmg.sram.wf = true
  | .buffers => ∀ m, (mbxOf b m).req.wf = true ∧ (mbxOf b m).resp.wf = true

namespace Block.Canonical

variable {k : Addressed} {b c d : Block} {α β : Type}

/-- The form is said of three memories alone: a write elsewhere keeps it. -/
theorem same (h : b.Canonical k) (he : c.frames = b.frames ∧ c.qmg.sram = b.qmg.sram ∧ c.mbx = b.mbx) : c.Canonical k := by
  obtain ⟨hframes, hsram, hmbx⟩ := he
  cases k with
  | frames => exact (congrArg Memory.wf hframes).trans h
  | sram => exact (congrArg Memory.wf hsram).trans h
  | buffers =>
    intro m
    have hm : mbxOf c m = mbxOf b m := congrArg (vget · m) hmbx
    rw [hm]
    exact h m

/-- An operation whose frame names none of their units keeps the form of the memories. -/
theorem only {l : List Part} (hf : Block.Only l b c) (hl : Part.frames ∉ l ∧ Part.qmg ∉ l ∧ Part.mbx ∉ l) (h : b.Canonical k) :
    c.Canonical k :=
  h.same ⟨hf .frames hl.1, congrArg QueueManager.sram (hf .qmg hl.2.1), hf .mbx hl.2.2⟩

/-! ### Choice and repetition -/

theorem ite {p : Prop} {_ : Decidable p} (hc : c.Canonical k) (hd : d.Canonical k) : (if p then c else d).Canonical k := by
  split
  · exact hc
  · exact hd

theorem dite {p : Prop} {_ : Decidable p} {c : p → Block} {d : ¬p → Block} (hc : ∀ h, (c h).Canonical k) (hd : ∀ h, (d h).Canonical k) :
    (if h : p then c h else d h).Canonical k := by
  split
  · exact hc _
  · exact hd _

theorem iteFst {p : Prop} {_ : Decidable p} {c d : Block × α} (hc : c.1.Canonical k) (hd : d.1.Canonical k) :
    (if p then c else d).1.Canonical k := by
  split
  · exact hc
  · exact hd

theorem diteFst {p : Prop} {_ : Decidable p} {c : p → Block × α} {d : ¬p → Block × α} (hc : ∀ h, (c h).1.Canonical k)
    (hd : ∀ h, (d h).1.Canonical k) : (if h : p then c h else d h).1.Canonical k := by
  split
  · exact hc _
  · exact hd _

theorem iteApp {p : Prop} {_ : Decidable p} {f g : Block → Block} (hc : (f b).Canonical k) (hd : (g b).Canonical k) :
    ((if p then f else g) b).Canonical k := by
  split
  · exact hc
  · exact hd

/-- The block of a pair that a match takes apart. -/
theorem of_pair {v : Block × α} {y : α} (he : v = (c, y)) (h : v.1.Canonical k) : c.Canonical k := by
  subst he
  exact h

theorem onlyIf {x : Bool} {f : Block → Block} (hf : ∀ d : Block, d.Canonical k → (f d).Canonical k) (h : c.Canonical k) :
    (Machine.onlyIf x f c).Canonical k := by
  cases x
  · exact h
  · exact hf c h

theorem foldl {f : Block → β → Block} (hf : ∀ x (d : Block), d.Canonical k → (f d x).Canonical k) {xs : List β} (h : c.Canonical k) :
    (xs.foldl f c).Canonical k := by
  induction xs generalizing c with
  | nil => exact h
  | cons x xs ih => exact ih (hf x c h)

theorem foldlFst {f : Block × α → β → Block × α} (hf : ∀ x (v : Block × α), v.1.Canonical k → (f v x).1.Canonical k) {xs : List β}
    {v : Block × α} (h : v.1.Canonical k) : (xs.foldl f v).1.Canonical k := by
  induction xs generalizing v with
  | nil => exact h
  | cons x xs ih => exact ih (hf x v h)

theorem forAll {f : β → Block → Block} (hf : ∀ x (d : Block), d.Canonical k → (f x d).Canonical k) {xs : List β} (h : c.Canonical k) :
    (Machine.forAll xs f c).Canonical k :=
  foldl (f := fun d x => f x d) hf h

/-! ### Instants -/

theorem atInstant {t : Nat} {f : Block → Block} (hf : ∀ d : Block, d.Canonical k → (f d).Canonical k) (h : c.Canonical k) :
    (Machine.atInstant t f c).Canonical k := by
  have htide : (tideTo t c).Canonical k := .only (tideTo_frame _ _) (by decide) h
  unfold Machine.atInstant
  exact .ite (hf _ htide) htide

theorem afterTicks {t : U64} {n : Nat} {f : Block → Block} (hf : ∀ d : Block, d.Canonical k → (f d).Canonical k) (h : c.Canonical k) :
    (Machine.afterTicks t n f c).Canonical k :=
  atInstant hf h

/-! ### Requests and their answers -/

/-- A mailbox that takes the place of another, with buffers in the canonical form. -/
theorem setMbxOf {m : Fin 4} {x : Mailbox} (hx : k = .buffers → x.req.wf = true ∧ x.resp.wf = true) (h : b.Canonical k) :
    (Machine.setMbx m x b).Canonical k := by
  cases k with
  | frames => exact h
  | sram => exact h
  | buffers =>
    intro i
    by_cases hi : m = i
    · rw [hi, mbxOf_setMbx]
      exact hx rfl
    · rw [mbxOf_setMbx_ne (Ne.symm hi)]
      exact h i

/-- A mailbox whose state alone changes. -/
theorem setMbx {m : Fin 4} {x : Mailbox} (h : b.Canonical k) (hreq : x.req = (mbxOf b m).req) (hresp : x.resp = (mbxOf b m).resp) :
    (Machine.setMbx m x b).Canonical k := by
  refine .setMbxOf (fun hk => ?_) h
  subst hk
  rw [hreq, hresp]
  exact h m

/-- A mailbox that takes a response of listed bytes. -/
theorem setResp {m : Fin 4} {x : Mailbox} {l : List U8} (h : b.Canonical k) (hreq : x.req = (mbxOf b m).req)
    (hresp : x.resp = Memory.ofBytes l) : (Machine.setMbx m x b).Canonical k := by
  refine .setMbxOf (fun hk => ?_) h
  subst hk
  rw [hreq, hresp]
  exact ⟨(h m).1, Memory.wf_ofBytes l⟩

theorem respond {m : Fin 4} {status : Nat} {p : List U8} (h : b.Canonical k) : (Machine.respond m status p b).Canonical k := by
  unfold Machine.respond
  extract_lets
  exact .onlyIf (fun _ hd => .only (traceItem_frame _ _ _ _ _) (by decide) hd) (.setResp h (by with_reducible rfl) (by with_reducible rfl))

theorem refuse {m : Fin 4} {status : Nat} (h : b.Canonical k) : (Machine.refuse m status b).Canonical k := .respond h

theorem ok {m : Fin 4} {p : List U8} (h : b.Canonical k) : (Machine.ok m p b).Canonical k := .respond h

theorem replayAnswer {m : Fin 4} {op : Nat} {f : Block → Block} (hf : ∀ d : Block, d.Canonical k → (f d).Canonical k) (h : c.Canonical k) :
    (Machine.replayAnswer m op f c).Canonical k := by
  unfold Machine.replayAnswer
  split
  · exact .setResp (.same h ⟨rfl, rfl, rfl⟩) rfl (by with_reducible rfl)
  · exact .ite h (.ite (hf _ h) (.refuse h))

theorem command {m : Fin 4} {op : Nat} {need : Need} {f : Block → Block} (hf : ∀ d : Block, d.Canonical k → (f d).Canonical k)
    (h : c.Canonical k) : (Machine.command m op need f c).Canonical k := by
  unfold Machine.command
  exact .ite h (.ite (.refuse h) (.ite (.replayAnswer hf h) (hf _ h)))

theorem checked {m : Fin 4} {l : List (Nat × Bool)} {f : Block → Block} (hf : ∀ d : Block, d.Canonical k → (f d).Canonical k)
    (h : c.Canonical k) : (Machine.checked m l f c).Canonical k := by
  unfold Machine.checked
  split
  · exact .refuse h
  · exact hf _ h

theorem withKeys {m : Fin 4} {f : Block → Block} (hf : ∀ d : Block, d.Canonical k → (f d).Canonical k) (h : c.Canonical k) :
    (Machine.withKeys m f c).Canonical k := by
  unfold Machine.withKeys
  exact .ite (hf _ h) (.refuse h)

/-! ### Operations that carry an operation -/

theorem availableIf {x : Bool} {f : Block → Block} (hf : ∀ d : Block, d.Canonical k → (f d).Canonical k) (h : c.Canonical k) :
    (Machine.availableIf x f c).Canonical k := by
  unfold Machine.availableIf
  exact .ite (hf _ h) (.only (bypassScan_frame _) (by decide) h)

theorem eachHo {f : Fin 24 → HandOver → Block → Block} (hf : ∀ i x (d : Block), d.Canonical k → (f i x d).Canonical k) (h : c.Canonical k) :
    (Machine.eachHo f c).Canonical k := by
  unfold Machine.eachHo
  refine .forAll (fun i d hd => ?_) h
  split
  · exact hf _ _ _ hd
  · exact hd

theorem tripDecide {n : Nat} {dyke hw : Bool} {act : Block → Block} (hf : ∀ d : Block, d.Canonical k → (act d).Canonical k) (h : c.Canonical k) :
    (Machine.tripDecide n dyke hw act c).Canonical k := by
  unfold Machine.tripDecide
  extract_lets noted
  have hnoted : noted.Canonical k :=
    .onlyIf (fun _ hd => .only (noteDecision_frame _ _ _) (by decide) hd) (.onlyIf (fun _ hd => .only (noteDecision_frame _ _ _) (by decide) hd) h)
  split
  · exact .ite (.only (updSafX_frame _ _) (by decide) hnoted) hnoted
  · exact .ite hnoted (hf _ (.ite hnoted (.only (updSafX_frame _ _) (by decide) hnoted)))

theorem transfer {f : Block → Block} (hf : ∀ d : Block, d.Canonical k → (f d).Canonical k) (h : c.Canonical k) :
    (Machine.transfer f c).1.Canonical k := by
  unfold Machine.transfer
  extract_lets x _
  exact .iteFst (.same (hf _ h) ⟨rfl, rfl, rfl⟩) (.only (raiseFatal_frame _ _) (by decide)
    (.only (conservationLog_frame _ _ _) (by decide) (.only (irq_frame _ _) (by decide) (.same h ⟨rfl, rfl, rfl⟩))))

theorem crossSend {i : CrossId} {v : U32} {act : U32 → Block → Block} (hf : ∀ v (d : Block), d.Canonical k → (act v d).Canonical k)
    (h : c.Canonical k) : (Machine.crossSend i v act c).Canonical k := by
  unfold Machine.crossSend
  exact .ite (hf _ _ (.only (updCross_frame _ _ _) (by decide) h)) (.only (updCross_frame _ _ _) (by decide) h)

theorem crossDrain {i : CrossId} {act : U32 → Block → Block} (hf : ∀ v (d : Block), d.Canonical k → (act v d).Canonical k)
    (h : c.Canonical k) : (Machine.crossDrain i act c).Canonical k := by
  unfold Machine.crossDrain
  exact .ite (.forAll (fun _ _ hd => hf _ _ (.only (updCross_frame _ _ _) (by decide) hd)) (.only (updCross_frame _ _ _) (by decide) h)) h

end Block.Canonical

/-- A step keeps the form when its effect does: the SAFETY items of a recording touch the trace alone. -/
theorem run_canonical {k : Addressed} {f : Block → Block} {s t : State} (h : s.run f = .next t) (hf : (f s.block).Canonical k) :
    t.block.Canonical k := by
  have ht : s.after f = t := Host.Outcome.next.inj h
  rw [← ht]
  exact Block.Canonical.only (safetyItem_frame s.block (f s.block)) (by decide) hf

/-- So does one that brings a value from outside the device. -/
theorem input_canonical {k : Addressed} {f : Block → Block} {s t : State} (h : s.input f = .next t) (hs : s.block.Canonical k)
    (hf : (f s.block).Canonical k) : t.block.Canonical k :=
  run_canonical (f := fun b => if b.rpl.mode then b else f b) h (.ite hs hf)

end Machine

end Sys2Proof
end

section
/-! PROOFS. The canonical form of the addressed memories through the operations
of the logs, the queues, the mailboxes, the keys, the launcher and the journal. -/

namespace Sys2Proof

open Machine

namespace Machine

variable {mem : Addressed} {b : Block}

/-! ### Operations of Machine/Queues.lean -/

theorem Block.Canonical.setQ {q : Nat} {x : Queue} (h : b.Canonical mem) : (Machine.setQ q x b).Canonical mem := by
  unfold Machine.setQ
  extract_lets
  exact .same h ⟨rfl, rfl, rfl⟩

theorem Block.Canonical.setOwner {u : Nat} {o : Owner} (h : b.Canonical mem) : (Machine.setOwner u o b).Canonical mem := by
  unfold Machine.setOwner
  extract_lets
  exact .same h ⟨rfl, rfl, rfl⟩

theorem Block.Canonical.setBuf {u : Nat} {l : List U8} (h : b.Canonical mem) : (Machine.setBuf u l b).Canonical mem := by
  cases mem with
  | frames => exact h
  | sram => exact Memory.wf_writeN _ _ h
  | buffers => exact h

theorem Block.Canonical.conserve (h : b.Canonical mem) : (Machine.conserve b).Canonical mem := by
  unfold Machine.conserve
  extract_lets
  exact .ite (.same h ⟨rfl, rfl, rfl⟩) (.only (raiseFatal_frame _ _) (by decide) (.only (legalLog_frame _ _ _ _) (by decide) (.only (irq_frame _ _)
      (by decide) (.same h ⟨rfl, rfl, rfl⟩))))

theorem Block.Canonical.noteLow (h : b.Canonical mem) : (Machine.noteLow b).Canonical mem := by
  unfold Machine.noteLow
  extract_lets
  exact .onlyIf (fun _ hd => .only (irq_frame _ _) (by decide) hd) (.same h ⟨rfl, rfl, rfl⟩)

/-- The pool zeroes the bytes of the buffer it gives (R458). -/
theorem Block.Canonical.zeroBuf {u : Nat} {q : QueueManager} (h : b.Canonical mem) (hq : q.sram = b.qmg.sram.zeroN (64 * u) 64) :
    Block.Canonical { b with qmg := q } mem := by
  cases mem with
  | frames => exact h
  | sram => exact (congrArg Memory.wf hq).trans (Memory.wf_zeroN _ _ h)
  | buffers => exact h

theorem Block.Canonical.takeFree {a : Fin 16} {g : Option (Fin 64)} (h : b.Canonical mem) : (Machine.takeFree a g b).1.Canonical mem := by
  unfold Machine.takeFree
  extract_lets u _ taken
  have htaken : taken.Canonical mem := .setOwner (.zeroBuf (u := u) h (by with_reducible rfl))
  exact .conserve (.noteLow htaken)

theorem Block.Canonical.qTell {a : Fin 16} {x : QAnswer} (h : b.Canonical mem) : (Machine.qTell a x b).Canonical mem := by
  unfold Machine.qTell
  extract_lets
  exact .same h ⟨rfl, rfl, rfl⟩

theorem Block.Canonical.qAlloc {a : Fin 16} {g : Option (Fin 64)} (h : b.Canonical mem) : (Machine.qAlloc a g b).1.Canonical mem := by
  unfold Machine.qAlloc
  extract_lets _ _ _ b1 r
  have hb1 : b1.Canonical mem := .same h ⟨rfl, rfl, rfl⟩
  have hr : r.1.Canonical mem := .takeFree h
  exact .iteFst h (.iteFst (.onlyIf (fun _ hd => .only (irq_frame _ _) (by decide) hd) hb1) hr)

theorem Block.Canonical.release {u : Nat} (h : b.Canonical mem) : (Machine.release u b).Canonical mem := by
  unfold Machine.release
  extract_lets _ _ b1
  have hb1 : b1.Canonical mem := .setOwner (.same h ⟨rfl, rfl, rfl⟩)
  exact .onlyIf (fun _ hd => .only (creditBack_frame _ _) (by decide) hd) (.noteLow hb1)

theorem Block.Canonical.ownRefuse {a : Fin 16} {u : Nat} {enq : Bool} (h : b.Canonical mem) : (Machine.ownRefuse a u enq b).Canonical mem := by
  unfold Machine.ownRefuse
  extract_lets
  exact .only (irq_frame _ _) (by decide) (.same h ⟨rfl, rfl, rfl⟩)

theorem Block.Canonical.qFree {a : Fin 16} {u : Nat} (h : b.Canonical mem) : (Machine.qFree a u b).1.Canonical mem := by
  unfold Machine.qFree
  extract_lets
  exact .iteFst h (.iteFst (.conserve (.release (.same h ⟨rfl, rfl, rfl⟩))) (.conserve (.ownRefuse h)))

theorem Block.Canonical.enqueueTail {q u : Nat} (h : b.Canonical mem) : (Machine.enqueueTail q u b).Canonical mem := by
  unfold Machine.enqueueTail
  extract_lets _ _ _ _ b1
  have hb1 : b1.Canonical mem := .onlyIf (fun _ hd => .only (ringNote_frame _ _ _) (by decide) hd) (.onlyIf (fun _ hd => .setBuf hd) h)
  exact .only (noteQueue_frame _ _) (by decide) (.setQ (.setOwner (.same hb1 ⟨rfl, rfl, rfl⟩)))

theorem Block.Canonical.dropOldest {q : Nat} (h : b.Canonical mem) : (Machine.dropOldest q b).Canonical mem := by
  unfold Machine.dropOldest
  extract_lets
  split
  · exact h
  · exact .only (irq_frame _ _) (by decide) (.release (.setQ (.same h ⟨rfl, rfl, rfl⟩)))

theorem Block.Canonical.fullRefuse {q : Nat} (h : b.Canonical mem) : (Machine.fullRefuse q b).Canonical mem := by
  unfold Machine.fullRefuse
  extract_lets
  exact .onlyIf (fun _ hd => .only (irq_frame _ _) (by decide) hd) (.setQ (.same h ⟨rfl, rfl, rfl⟩))

theorem Block.Canonical.qEnqueue {a : Fin 16} {q u : Nat} (h : b.Canonical mem) : (Machine.qEnqueue a q u b).1.Canonical mem := by
  unfold Machine.qEnqueue
  extract_lets
  exact .iteFst h (.iteFst (.conserve (.ownRefuse h)) (.iteFst h (.iteFst h (.iteFst (.conserve (.enqueueTail h)) (.iteFst (.conserve (.enqueueTail
      (.dropOldest h))) (.conserve (.fullRefuse h)))))))

theorem Block.Canonical.qDequeue {a : Fin 16} {q : Nat} (h : b.Canonical mem) : (Machine.qDequeue a q b).1.Canonical mem := by
  unfold Machine.qDequeue
  extract_lets
  refine .iteFst h ?_
  split
  · exact h
  · exact .conserve (.only (noteQueue_frame _ _) (by decide) (.setQ (.setOwner (.same h ⟨rfl, rfl, rfl⟩))))

theorem Block.Canonical.qFlush {q : Nat} (h : b.Canonical mem) : (Machine.qFlush q b).Canonical mem := by
  unfold Machine.qFlush
  extract_lets
  refine .conserve (.only (noteQueue_frame _ _) (by decide) (.forAll (fun _ _ hd => .release ?_) (.setQ h)))
  exact .same hd ⟨rfl, rfl, rfl⟩

theorem Block.Canonical.sendRecord {a : Fin 16} {q : Nat} {rec_ : List U8} (h : b.Canonical mem) : (Machine.sendRecord a q rec_ b).1.Canonical mem := by
  unfold Machine.sendRecord
  split
  · rename_i heq
    exact .of_pair heq (.qAlloc h)
  · rename_i heq
    split
    · rename_i heq1
      exact .of_pair heq1 (.qEnqueue (.setBuf (.of_pair heq (.qAlloc h))))
    · rename_i heq1
      exact .qFree (.of_pair heq1 (.qEnqueue (.setBuf (.of_pair heq (.qAlloc h)))))

theorem Block.Canonical.sendRecords {a : Fin 16} {q : Nat} {l : List (List U8)} (h : b.Canonical mem) :
    (Machine.sendRecords a q l b).1.Canonical mem := by
  induction l generalizing b with
  | nil => exact h
  | cons r rs ih =>
    unfold Machine.sendRecords
    split
    · rename_i heq
      exact ih (.of_pair heq (.sendRecord h))
    · rename_i heq
      exact .of_pair heq (.sendRecord h)

theorem Block.Canonical.sendTo {a : Fin 16} {q : U16} {rec_ : List U8} (h : b.Canonical mem) : (Machine.sendTo a q rec_ b).Canonical mem := by
  unfold Machine.sendTo
  exact .ite h (.sendRecord h)

theorem Block.Canonical.hostDataConsume {q n : Nat} (h : b.Canonical mem) : (Machine.hostDataConsume q n b).Canonical mem := by
  induction n generalizing b with
  | zero => exact h
  | succ n ih =>
    unfold Machine.hostDataConsume
    split
    · rename_i heq
      exact ih (.qFree (.of_pair heq (.qDequeue h)))
    · rename_i heq
      exact .of_pair heq (.qDequeue h)

/-! ### Operations of Machine/Mailbox.lean -/

theorem Block.Canonical.internalFail {m : Fin 4} (h : b.Canonical mem) : (Machine.internalFail m b).Canonical mem := by
  unfold Machine.internalFail
  exact .refuse (.only (opLogAs_frame _ _ _ _) (by decide) h)

theorem Block.Canonical.mbxDone {m : Fin 4} (h : b.Canonical mem) : (Machine.mbxDone m b).Canonical mem := by
  unfold Machine.mbxDone
  extract_lets
  exact .only (irq_frame _ _) (by decide) (.setMbx h rfl rfl)

theorem Block.Canonical.mbxRing {m : Fin 4} (h : b.Canonical mem) : (Machine.mbxRing m b).Canonical mem := by
  unfold Machine.mbxRing
  extract_lets _ _ src
  have hsrc : src.Canonical mem := .setMbx h rfl rfl
  split
  · exact .setMbx h rfl rfl
  · exact .setMbx h rfl rfl
  · exact .ite (.mbxDone (.setMbx h rfl rfl)) (.same hsrc ⟨rfl, rfl, rfl⟩)

theorem Block.Canonical.mbxCancel {m : Fin 4} (h : b.Canonical mem) : (Machine.mbxCancel m b).Canonical mem := by
  unfold Machine.mbxCancel
  extract_lets _ b1
  have hb1 : b1.Canonical mem := .refuse h
  exact .ite (.mbxDone (.setMbx hb1 rfl rfl)) h

theorem Block.Canonical.mbxAck {m : Fin 4} (h : b.Canonical mem) : (Machine.mbxAck m b).Canonical mem := by
  unfold Machine.mbxAck
  extract_lets
  exact .ite (.setMbx h rfl rfl) h

theorem Block.Canonical.mbxDoorbell {m : Fin 4} {v : U32} (h : b.Canonical mem) : (Machine.mbxDoorbell m v b).Canonical mem := by
  unfold Machine.mbxDoorbell
  exact .onlyIf (fun _ hd => .mbxCancel hd) (.onlyIf (fun _ hd => .mbxRing hd) (.onlyIf (fun _ hd => .mbxAck hd) h))

theorem Block.Canonical.mbxComplete {m : Fin 4} (h : b.Canonical mem) : (Machine.mbxComplete m b).Canonical mem := by
  unfold Machine.mbxComplete
  extract_lets
  exact .ite (.mbxDone (.setMbx h rfl rfl)) h

/-! ### Operations of Machine/Keys.lean -/

theorem Block.Canonical.keyTake {m : Fin 4} (h : b.Canonical mem) : (Machine.keyTake m b).1.Canonical mem := by
  unfold Machine.keyTake
  extract_lets _ _ _ _ r b1
  have hr : r.1.Canonical mem := .only (keyRecord_frame _ _ _) (by decide) h
  have hb1 : b1.Canonical mem := .only (ctrIncrement_frame _ _ _ _) (by decide) hr
  split
  · exact .refuse (.only (irq_frame _ _) (by decide) (.same h ⟨rfl, rfl, rfl⟩))
  · exact .only (peatFree_frame _ _ _ _ _) (by decide) hb1

theorem Block.Canonical.keyTakeNext {l : List (Fin 4)} (h : b.Canonical mem) : (Machine.keyTakeNext l b).Canonical mem := by
  induction l generalizing b with
  | nil => exact h
  | cons m r ih =>
    unfold Machine.keyTakeNext
    extract_lets _ t
    have ht : t.1.Canonical mem := .keyTake (.same h ⟨rfl, rfl, rfl⟩)
    exact .ite ht (ih (.same ht ⟨rfl, rfl, rfl⟩))

theorem Block.Canonical.keyNext (h : b.Canonical mem) : (Machine.keyNext b).Canonical mem := by
  unfold Machine.keyNext
  extract_lets
  exact .keyTakeNext (.same h ⟨rfl, rfl, rfl⟩)

theorem Block.Canonical.keyUpdate {m : Fin 4} (h : b.Canonical mem) : (Machine.keyUpdate m b).Canonical mem := by
  unfold Machine.keyUpdate
  extract_lets
  exact .ite (.keyTakeNext h) (.same h ⟨rfl, rfl, rfl⟩)

theorem Block.Canonical.keyApplied {k : Fin 16} {x : KeySlot} {op : U8} {m : Fin 4} {payload : List U8} (h : b.Canonical mem) :
    (Machine.keyApplied k x op m payload b).Canonical mem := by
  unfold Machine.keyApplied
  extract_lets _ _ b1 b2
  have hb1 : b1.Canonical mem := .same h ⟨rfl, rfl, rfl⟩
  have hb2 : b2.Canonical mem := .only (legalLog_frame _ _ _ _) (by decide) hb1
  exact .keyNext (.ok (.only (irq_frame _ _) (by decide) hb2))

theorem Block.Canonical.keyLoad {m : Fin 4} (h : b.Canonical mem) : (Machine.keyLoad m b).Canonical mem := by
  unfold Machine.keyLoad
  extract_lets
  refine .checked (fun _ hd => ?_) h
  extract_lets
  split
  · exact .refuse hd
  · exact .ok (.only (putSecret_frame _ _ _) (by decide) (.same hd ⟨rfl, rfl, rfl⟩))

theorem Block.Canonical.keyUnload {m : Fin 4} (h : b.Canonical mem) : (Machine.keyUnload m b).Canonical mem := by
  unfold Machine.keyUnload
  extract_lets
  exact .checked (fun _ hd => .ok (.same hd ⟨rfl, rfl, rfl⟩)) h

theorem Block.Canonical.keyGetPublic {m : Fin 4} (h : b.Canonical mem) : (Machine.keyGetPublic m b).Canonical mem := by
  unfold Machine.keyGetPublic
  extract_lets
  exact .ite (.checked (fun _ hd => .ok hd) h) (.dite (fun _ => .ok h) (fun _ => .refuse h))

theorem Block.Canonical.keyGetChallenge {m : Fin 4} (h : b.Canonical mem) : (Machine.keyGetChallenge m b).Canonical mem := by
  unfold Machine.keyGetChallenge
  extract_lets r _ src
  have hr : r.1.Canonical mem := .only (draw_frame _ _) (by decide) h
  have hsrc : src.Canonical mem := hr
  exact .ite (.ok (.same hsrc ⟨rfl, rfl, rfl⟩)) (.refuse h)

theorem Block.Canonical.keyRandom {m : Fin 4} (h : b.Canonical mem) : (Machine.keyRandom m b).Canonical mem := by
  unfold Machine.keyRandom
  extract_lets
  refine .checked (fun _ hd => ?_) h
  extract_lets r
  have hr : r.1.Canonical mem := .only (draw_frame _ _) (by decide) hd
  exact .ok hr

/-! ### Operations of Machine/Launcher.lean -/

theorem Block.Canonical.cqDrop {u : Nat} (h : b.Canonical mem) : (Machine.cqDrop u b).Canonical mem := by
  unfold Machine.cqDrop
  extract_lets
  exact .qFree (.same h ⟨rfl, rfl, rfl⟩)

theorem Block.Canonical.passOn {r : Nat} {i : RingItem} {s : U8} {tick : U64} (h : b.Canonical mem) : (Machine.passOn r i s tick b).Canonical mem := by
  unfold Machine.passOn
  extract_lets
  refine .ite (.qFree h) (.ite ?_ (.cqDrop h))
  split
  · rename_i heq
    exact .of_pair heq (.qEnqueue (.setBuf h))
  · rename_i heq
    exact .cqDrop (.of_pair heq (.qEnqueue (.setBuf h)))

theorem Block.Canonical.resolveItem {r : Nat} {i : RingItem} {s : U8} {tick : U64} (h : b.Canonical mem) :
    (Machine.resolveItem r i s tick b).Canonical mem := by
  unfold Machine.resolveItem
  exact .passOn (.only (countResolve_frame _ _ _ _ _) (by decide) h)

theorem Block.Canonical.submitEntry {a : Fin 16} {r : Nat} {e : Entry} (h : b.Canonical mem) : (Machine.submitEntry a r e b).1.Canonical mem := by
  unfold Machine.submitEntry
  split
  · rename_i heq
    exact .of_pair heq (.qAlloc h)
  · rename_i heq
    split
    · rename_i heq1
      exact .of_pair heq1 (.qEnqueue (.setBuf (.of_pair heq (.qAlloc h))))
    · rename_i heq1
      exact .qFree (.of_pair heq1 (.qEnqueue (.setBuf (.of_pair heq (.qAlloc h)))))

theorem Block.Canonical.submit {a : Fin 16} {r : Nat} {e : Entry} (h : b.Canonical mem) : (Machine.submit a r e b).Canonical mem := by
  unfold Machine.submit
  exact .submitEntry h

theorem Block.Canonical.cancelArmed {r : Nat} {p : Entry → Bool} (h : b.Canonical mem) : (Machine.cancelArmed r p b).1.Canonical mem := by
  unfold Machine.cancelArmed
  extract_lets _ _ _ b1
  have hb1 : b1.Canonical mem := .only (setRing_frame _ _ _) (by decide) h
  exact .only (trimRing_frame _ _) (by decide) (.forAll (fun _ _ hd => .resolveItem hd) hb1)

theorem Block.Canonical.cancelOne {r u : Nat} (h : b.Canonical mem) : (Machine.cancelOne r u b).Canonical mem := by
  unfold Machine.cancelOne
  extract_lets
  exact .resolveItem (.setOwner (.same h ⟨rfl, rfl, rfl⟩))

theorem Block.Canonical.cancelEntries {r : Nat} {p : Entry → Bool} (h : b.Canonical mem) : (Machine.cancelEntries r p b).1.Canonical mem := by
  unfold Machine.cancelEntries
  extract_lets a b1 _ _ _ b2 b3
  have ha : a.1.Canonical mem := .cancelArmed h
  have hb1 : b1.Canonical mem := ha
  have hb2 : b2.Canonical mem := .setQ hb1
  have hb3 : b3.Canonical mem := .only (setRing_frame _ _ _) (by decide) hb2
  exact .forAll (fun _ _ hd => .cancelOne hd) hb3

/-! ### Operations of Machine/SalternOps.lean -/

theorem Block.Canonical.enqueueBoundary {x : Boundary} (h : b.Canonical mem) : (Machine.enqueueBoundary x b).Canonical mem := by
  unfold Machine.enqueueBoundary
  exact .submit h

theorem Block.Canonical.feedBoundary (h : b.Canonical mem) : (Machine.feedBoundary b).Canonical mem := by
  unfold Machine.feedBoundary
  split
  · exact h
  · exact .enqueueBoundary (.only (updSlt_frame _ _) (by decide) h)

theorem Block.Canonical.planBoundary (h : b.Canonical mem) : (Machine.planBoundary b).Canonical mem := by
  unfold Machine.planBoundary
  refine .ite h ?_
  split
  · exact h
  · exact .feedBoundary (.only (updSlt_frame _ _) (by decide) h)

theorem Block.Canonical.replan (h : b.Canonical mem) : (Machine.replan b).Canonical mem := by
  unfold Machine.replan
  exact .planBoundary (.only (updSlt_frame _ _) (by decide) h)

theorem Block.Canonical.boundaryLost {t : U64} (h : b.Canonical mem) : (Machine.boundaryLost t b).Canonical mem := by
  unfold Machine.boundaryLost
  split
  · exact h
  · extract_lets
    exact .enqueueBoundary (.only (updSlt_frame _ _) (by decide) h)

theorem Block.Canonical.flushHeldAux {q n : Nat} (h : b.Canonical mem) : (Machine.flushHeldAux q n b).Canonical mem := by
  induction n generalizing b with
  | zero => exact h
  | succ n ih =>
    unfold Machine.flushHeldAux
    split
    · exact h
    · split
      · exact ih (.only (updSlt_frame _ _) (by decide) h)
      · split
        · rename_i heq
          exact ih (.only (updSlt_frame _ _) (by decide) (.of_pair heq (.qEnqueue h)))
        · rename_i heq
          exact .only (updSlt_frame _ _) (by decide) (.of_pair heq (.qEnqueue h))

theorem Block.Canonical.flushHeld (h : b.Canonical mem) : (Machine.flushHeld b).Canonical mem := by
  unfold Machine.flushHeld
  exact .ite (.only (noteHeld_frame _) (by decide) h) (.only (noteHeld_frame _) (by decide) (.flushHeldAux h))

theorem Block.Canonical.allocParts {l : List (List U8)} {us : List Nat} (h : b.Canonical mem) : (Machine.allocParts l us b).1.Canonical mem := by
  induction l generalizing us b with
  | nil => exact h
  | cons p ps ih =>
    unfold Machine.allocParts
    split
    · rename_i heq
      exact ih (.setBuf (.of_pair heq (.qAlloc h)))
    · rename_i heq
      exact .forAll (fun _ _ hd => .qFree hd) (.of_pair heq (.qAlloc h))

theorem Block.Canonical.sendReading {r : Reading} (h : b.Canonical mem) : (Machine.sendReading r b).Canonical mem := by
  unfold Machine.sendReading
  split
  · rename_i heq
    exact .flushHeld (.only (updSlt_frame _ _) (by decide) (.of_pair heq (.allocParts h)))
  · rename_i heq
    exact .only (holdUnsigned_frame _ _) (by decide) (.of_pair heq (.allocParts h))

end Machine

end Sys2Proof
end

section
/-! PROOFS. The canonical form of the addressed memories through the operations
of the sessions, metrology, insulation, the switches, safety and the pilots. -/

namespace Sys2Proof

open Machine

namespace Machine

variable {mem : Addressed} {b : Block}

/-! ### Operations of Machine/Insulate.lean -/

theorem Block.Canonical.driveEntry {n : Fin 16} {t : Nat} (h : b.Canonical mem) : (Machine.driveEntry n t b).Canonical mem := by
  unfold Machine.driveEntry
  extract_lets _ r
  have hr : r.1.Canonical mem := .submitEntry h
  exact .only (updImdG_frame _ _) (by decide) (.onlyIf (fun _ hd => .only (updImd_frame _ _ _) (by decide) hd) hr)

theorem Block.Canonical.driveAux {t n : Nat} (h : b.Canonical mem) : (Machine.driveAux t n b).Canonical mem := by
  induction n generalizing b with
  | zero => exact h
  | succ n ih =>
    unfold Machine.driveAux
    split
    · exact h
    · exact .ite (ih (.driveEntry h)) h

theorem Block.Canonical.driveFeed (h : b.Canonical mem) : (Machine.driveFeed b).Canonical mem := by
  unfold Machine.driveFeed
  extract_lets b1
  have hb1 : b1.Canonical mem := .only (noteActive_frame _) (by decide) h
  exact .ite (.driveAux hb1) hb1

theorem Block.Canonical.imdTopology {n : Fin 16} {joined : Bool} (h : b.Canonical mem) : (Machine.imdTopology n joined b).Canonical mem := by
  unfold Machine.imdTopology
  extract_lets
  exact .driveFeed (.only (rebase_frame _ _) (by decide) (.only (updImd_frame _ _ _) (by decide) h))

theorem Block.Canonical.imdCableCheck {n : Fin 16} (h : b.Canonical mem) : (Machine.imdCableCheck n b).Canonical mem := by
  unfold Machine.imdCableCheck
  extract_lets
  exact .driveFeed (.only (imdClose_frame _ _) (by decide) (.only (updImd_frame _ _ _) (by decide) h))

/-! ### Operations of Machine/Sessions.lean -/

theorem Block.Canonical.hsEntry {ring : Nat} {c : Nat} {action : U8} {t : U64} (h : b.Canonical mem) :
    (Machine.hsEntry ring c action t b).Canonical mem := by
  unfold Machine.hsEntry
  exact .submit h

theorem Block.Canonical.supplyOn {n : Fin 16} (h : b.Canonical mem) : (Machine.supplyOn n b).Canonical mem := by
  unfold Machine.supplyOn
  extract_lets
  exact .dite (fun _ => .ite h (.hsEntry h)) (fun _ => h)

theorem Block.Canonical.supplyOff {n : Fin 16} (h : b.Canonical mem) : (Machine.supplyOff n b).Canonical mem := by
  unfold Machine.supplyOff
  extract_lets
  exact .ite (.hsEntry h) h

theorem Block.Canonical.startMove {n : Fin 16} {lock : Bool} {mbx : Option (Fin 4)} (h : b.Canonical mem) :
    (Machine.startMove n lock mbx b).Canonical mem := by
  unfold Machine.startMove
  extract_lets
  exact .ite (.hsEntry (.only (updVeh_frame _ _ _) (by decide) h)) h

theorem Block.Canonical.unlockIfDue {n : Fin 16} (h : b.Canonical mem) : (Machine.unlockIfDue n b).Canonical mem := by
  unfold Machine.unlockIfDue
  extract_lets
  exact .ite (.ite (.startMove h) (.only (updVeh_frame _ _ _) (by decide) h)) h

theorem Block.Canonical.setDuty {n : Fin 16} {d : Nat} (h : b.Canonical mem) : (Machine.setDuty n d b).Canonical mem := by
  unfold Machine.setDuty
  exact .submit (.same h ⟨rfl, rfl, rfl⟩)

theorem Block.Canonical.dutyReview {n : Fin 16} (h : b.Canonical mem) : (Machine.dutyReview n b).Canonical mem := by
  unfold Machine.dutyReview
  exact .ite (.setDuty h) h

theorem Block.Canonical.openOutside {n : Fin 16} (h : b.Canonical mem) : (Machine.openOutside n b).Canonical mem := by
  unfold Machine.openOutside
  exact .supplyOff (.only (imdSessionEnds_frame _ _) (by decide) (.only (dykeClear_frame _ _) (by decide) (.only (updNode_frame _ _ _)
      (by decide) h)))

theorem Block.Canonical.enterPhase {n : Fin 16} {p : Phase} (h : b.Canonical mem) : (Machine.enterPhase n p b).Canonical mem := by
  unfold Machine.enterPhase
  extract_lets b1
  have hb1 : b1.Canonical mem := .only (updSess_frame _ _ _) (by decide) (.only (modemPhase_frame _ _ _) (by decide) h)
  split
  · exact .only (closePair_frame _ _) (by decide) (.imdCableCheck (.supplyOn hb1))
  · exact hb1
  · exact hb1
  · exact .only (updNode_frame _ _ _) (by decide) hb1
  · exact .openOutside hb1

theorem Block.Canonical.endSession {n : Fin 16} (h : b.Canonical mem) : (Machine.endSession n b).Canonical mem := by
  unfold Machine.endSession
  extract_lets _ b1 b2
  have hb1 : b1.Canonical mem := .only (updSess_frame _ _ _) (by decide) h
  have hb2 : b2.Canonical mem := .enterPhase hb1
  exact .only (closeItems_frame _ _ _ _) (by decide) (.only (updVeh_frame _ _ _) (by decide) hb2)

theorem Block.Canonical.stopDone {n : Fin 16} (h : b.Canonical mem) : (Machine.stopDone n b).Canonical mem := by
  unfold Machine.stopDone
  exact .ite (.endSession h) h

theorem Block.Canonical.stopSession {n : Fin 16} {r : EndReason} (h : b.Canonical mem) : (Machine.stopSession n r b).Canonical mem := by
  unfold Machine.stopSession
  extract_lets _ b1
  have hb1 : b1.Canonical mem := .only (updSess_frame _ _ _) (by decide) h
  exact .ite (.ite hb1 (.ite (.enterPhase hb1) (.endSession hb1))) h

theorem Block.Canonical.stopAll {r : EndReason} (h : b.Canonical mem) : (Machine.stopAll r b).Canonical mem := by
  unfold Machine.stopAll
  exact .forAll (fun _ _ hd => .stopSession hd) h

theorem Block.Canonical.toIdle {n : Fin 16} (h : b.Canonical mem) : (Machine.toIdle n b).Canonical mem := by
  unfold Machine.toIdle
  extract_lets b1 b2
  have hb1 : b1.Canonical mem := .onlyIf (fun _ hd => .only (irq_frame _ _) (by decide) hd) (.enterPhase h)
  have hb2 : b2.Canonical mem := .same hb1 ⟨rfl, rfl, rfl⟩
  exact .only (updSess_frame _ _ _) (by decide) hb2

theorem Block.Canonical.coverFaulted {n : Fin 16} (h : b.Canonical mem) : (Machine.coverFaulted n b).Canonical mem := by
  unfold Machine.coverFaulted
  exact .dutyReview (.only (dykeClear_frame _ _) (by decide) (.only (updNode_frame _ _ _) (by decide) h))

theorem Block.Canonical.setLock {s : CScope} {cause : U8} (h : b.Canonical mem) : (Machine.setLock s cause b).Canonical mem := by
  unfold Machine.setLock
  extract_lets _ b1
  have hb1 : b1.Canonical mem := by
    unfold b1
    split
    · exact .only (updNode_frame _ _ _) (by decide) h
    · exact .only (updSaf_frame _ _) (by decide) h
    · exact .only (updSaf_frame _ _) (by decide) h
  exact .ite hb1 (.only (reviewHw_frame _) (by decide) (.forAll (fun _ _ hd => .coverFaulted hd) (.only (saveSafety_frame _) (by decide) (.only
      (lockoutLog_frame _ _ _ _) (by decide) (.only (irq_frame _ _) (by decide) hb1)))))

theorem Block.Canonical.openStop {r : EndReason} {n : Fin 16} (h : b.Canonical mem) : (Machine.openStop r n b).Canonical mem := by
  unfold Machine.openStop
  exact .only (reasonUnderLoad_frame _ _ _) (by decide) (.stopSession (.only (openNow_frame _ _) (by decide) h))

theorem Block.Canonical.rampedOpen {n : Fin 16} (h : b.Canonical mem) : (Machine.rampedOpen n b).Canonical mem := by
  unfold Machine.rampedOpen
  extract_lets w r opened loaded
  have hopened : opened.Canonical mem := .only (dykeClear_frame _ _) (by decide) (.only (updNode_frame _ _ _) (by decide) h)
  clear_value w r
  have hloaded : loaded.Canonical mem := by
    unfold loaded
    split
    · exact .only (reasonUnderLoad_frame _ _ _) (by decide) hopened
    · exact hopened
  refine .stopDone ?_
  split
  · exact .setLock hloaded
  · exact hloaded

theorem Block.Canonical.rampNode {n : Fin 16} {r : EndReason} (h : b.Canonical mem) : (Machine.rampNode n r b).Canonical mem := by
  unfold Machine.rampNode
  extract_lets b1
  have hb1 : b1.Canonical mem := .stopSession h
  exact .ite (.only (updNode_frame _ _ _) (by decide) hb1) (.rampedOpen hb1)

theorem Block.Canonical.hubSafeStop {r : EndReason} (h : b.Canonical mem) : (Machine.hubSafeStop r b).Canonical mem := by
  unfold Machine.hubSafeStop
  extract_lets b1 b2
  have hb1 : b1.Canonical mem := .only (irq_frame _ _) (by decide) (.only (updSaf_frame _ _) (by decide) h)
  have hb2 : b2.Canonical mem := .forAll (fun _ _ hd => .only (reasonUnderLoad_frame _ _ _) (by decide) hd) (.stopAll (.forAll (fun _ _ hd => .only
      (openNow_frame _ _) (by decide) hd) hb1))
  exact .same hb2 ⟨rfl, rfl, rfl⟩

theorem Block.Canonical.applyNode {mode : OpenMode} {r : EndReason} {n : Fin 16} (h : b.Canonical mem) :
    (Machine.applyNode mode r n b).Canonical mem := by
  unfold Machine.applyNode
  split
  · exact .openStop h
  · exact .rampNode h
  · exact .openStop h
  · exact .only (openNow_frame _ _) (by decide) h

theorem Block.Canonical.applyOwn {f : FaultSpec} (h : b.Canonical mem) : (Machine.applyOwn f b).Canonical mem := by
  unfold Machine.applyOwn
  extract_lets b1
  have hb1 : b1.Canonical mem := by
    unfold b1
    split
    · exact .only (laneZero_frame _ _) (by decide) h
    · exact h
  split
  · exact .onlyIf (fun _ hd => .setLock hd) (.hubSafeStop h)
  · split
    · exact .ite (.rampNode (.only (updNode_frame _ _ _) (by decide) hb1)) (.setLock (.rampNode hb1))
    · exact .onlyIf (fun _ hd => .setLock hd) (.forAll (fun _ _ hd => .applyNode hd) hb1)

theorem Block.Canonical.applyLane {l : Fin 8} {r : EndReason} {lock : Bool} {cause : U8} (h : b.Canonical mem) :
    (Machine.applyLane l r lock cause b).Canonical mem := by
  unfold Machine.applyLane
  extract_lets b1 b2
  have hb1 : b1.Canonical mem := .only (laneZero_frame _ _) (by decide) h
  have hb2 : b2.Canonical mem := .forAll (fun _ _ hd => .ite (.rampNode hd) (.stopSession hd)) hb1
  exact .onlyIf (fun _ hd => .setLock hd) hb2

theorem Block.Canonical.applyHub {hubStop : Bool} {r : EndReason} {lock : Bool} {cause : U8} (h : b.Canonical mem) :
    (Machine.applyHub hubStop r lock cause b).Canonical mem := by
  unfold Machine.applyHub
  extract_lets b1
  have hb1 : b1.Canonical mem := .ite (.hubSafeStop h) (.forAll (fun _ _ hd => .rampNode hd) h)
  exact .onlyIf (fun _ hd => .setLock hd) hb1

theorem Block.Canonical.applyWidened {k : Nat} {hubStop : Bool} {cause : U8} (h : b.Canonical mem) :
    (Machine.applyWidened k hubStop cause b).Canonical mem := by
  unfold Machine.applyWidened
  extract_lets _ _ b1
  have hb1 : b1.Canonical mem := .only (irq_frame _ _) (by decide) h
  refine .ite (.forAll (fun _ _ hd => ?_) (.only (updSaf_frame _ _) (by decide) hb1)) (.only (openWindow_frame _ _ _ _) (by decide) (.applyHub
      (.only (updSaf_frame _ _) (by decide) hb1)))
  split
  · exact .only (openWindow_frame _ _ _ _) (by decide) (.applyLane hd)
  · exact hd

theorem Block.Canonical.containAs {soft : Bool} {f : FaultSpec} (h : b.Canonical mem) : (Machine.containAs soft f b).Canonical mem := by
  unfold Machine.containAs
  extract_lets b1 _ _ b2 b3
  have hb1 : b1.Canonical mem := .only (countFault_frame _ _) (by decide) h
  have hb2 : b2.Canonical mem := .only (recordFault_frame _ _ _ _) (by decide) (.applyOwn hb1)
  have hb3 : b3.Canonical mem := .only (recordFault_frame _ _ _ _) (by decide) (.applyOwn hb1)
  exact .ite (.applyOwn (.only (recordFault_frame _ _ _ _) (by decide) h)) (.ite (.only (openWindow_frame _ _ _ _) (by decide) (.only
      (recordFault_frame _ _ _ _) (by decide) (.applyOwn hb1))) (.ite (.applyWidened hb2) (.applyWidened (.only (updSaf_frame _ _) (by decide) hb3))))

theorem Block.Canonical.contain {f : FaultSpec} (h : b.Canonical mem) : (Machine.contain f b).Canonical mem := by
  unfold Machine.contain
  exact .containAs h

theorem Block.Canonical.deviceFault {s : CScope} {base : Nat} (h : b.Canonical mem) : (Machine.deviceFault s base b).Canonical mem := by
  unfold Machine.deviceFault
  exact .contain h

theorem Block.Canonical.softFault {s : CScope} {base : Nat} (h : b.Canonical mem) : (Machine.softFault s base b).Canonical mem := by
  unfold Machine.softFault
  exact .containAs h

/-! ### Operations of Machine/Metrology.lean -/

theorem Block.Canonical.pqClose {f : Fin 2} {k : PqKind} {end_ : U64} {flags : Nat} (h : b.Canonical mem) :
    (Machine.pqClose f k end_ flags b).Canonical mem := by
  unfold Machine.pqClose
  extract_lets
  split
  · exact h
  · extract_lets _ b1 _ b2
    have hb1 : b1.Canonical mem := .only (updFeeder_frame _ _ _) (by decide) h
    have hb2 : b2.Canonical mem := .same hb1 ⟨rfl, rfl, rfl⟩
    exact .sendTo (.only (opLogAs_frame _ _ _ _) (by decide) (.only (irq_frame _ _) (by decide) hb2))

theorem Block.Canonical.pqTruncate {f : Fin 2} {flags : Nat} (h : b.Canonical mem) : (Machine.pqTruncate f flags b).Canonical mem := by
  unfold Machine.pqTruncate
  exact .forAll (fun _ _ hd => .pqClose (.only (pqDropLast_frame _ _ _) (by decide) hd)) h

theorem Block.Canonical.pqKindStep {f : Fin 2} {synthetic : Bool} {k : PqKind} (h : b.Canonical mem) :
    (Machine.pqKindStep f synthetic k b).Canonical mem := by
  unfold Machine.pqKindStep
  extract_lets
  split
  · extract_lets
    split
    · exact .pqClose h
    · exact .only (updFeeder_frame _ _ _) (by decide) h
  · split
    · exact h
    · exact .only (irq_frame _ _) (by decide) (.only (updFeeder_frame _ _ _) (by decide) h)

theorem Block.Canonical.pqDecide {f : Fin 2} (h : b.Canonical mem) : (Machine.pqDecide f b).Canonical mem := by
  unfold Machine.pqDecide
  extract_lets _ _ b1
  have hb1 : b1.Canonical mem := .forAll (fun _ _ hd => .pqKindStep hd) h
  exact .only (updFeeder_frame _ _ _) (by decide) hb1

theorem Block.Canonical.pqAdvance {f : Fin 2} {n : Nat} (h : b.Canonical mem) : (Machine.pqAdvance f n b).Canonical mem := by
  induction n generalizing b with
  | zero => exact h
  | succ n ih =>
    unfold Machine.pqAdvance
    split
    · exact h
    · exact .ite (ih (.pqDecide (.forAll (fun _ _ hd => .only (pqTake_frame _ _ _) (by decide) hd) (.only (updFeeder_frame _ _ _) (by decide) h)))) h

theorem Block.Canonical.urmsRefresh {k : Fin 6} {e : PqDue} (h : b.Canonical mem) : (Machine.urmsRefresh k e b).Canonical mem := by
  unfold Machine.urmsRefresh
  extract_lets
  split
  · exact h
  · exact .pqAdvance (.only (updPhase_frame _ _ _) (by decide) h)

theorem Block.Canonical.urmsStep {t : U64} {k : Fin 6} (h : b.Canonical mem) : (Machine.urmsStep t k b).Canonical mem := by
  unfold Machine.urmsStep
  extract_lets _ _ _ _ _ _ b1
  have hb1 : b1.Canonical mem := .only (updPhase_frame _ _ _) (by decide) h
  exact .ite h (.forAll (fun _ _ hd => .urmsRefresh hd) hb1)

theorem Block.Canonical.calStep {t : U64} (h : b.Canonical mem) : (Machine.calStep t b).Canonical mem := by
  unfold Machine.calStep
  extract_lets
  split
  · exact h
  · extract_lets
    exact .ite h (.ite (.refuse (.only (updMet_frame _ _) (by decide) h)) (.ite (.ok (.only (updMet_frame _ _) (by decide) h)) (.only
        (updMet_frame _ _) (by decide) h)))

theorem Block.Canonical.publishNow {t : U64} (h : b.Canonical mem) : (Machine.publishNow t b).Canonical mem := by
  unfold Machine.publishNow
  extract_lets _ b1 b2 _ b3 b4 b5
  have hb1 : b1.Canonical mem := .only (updMet_frame _ _) (by decide) h
  have hb2 : b2.Canonical mem := .forAll (fun _ _ hd => .only (pairStep_frame _ _ _) (by decide) hd) hb1
  have hb3 : b3.Canonical mem := .onlyIf (fun _ hd => .only (irq_frame _ _) (by decide) hd) hb2
  have hb4 : b4.Canonical mem := .forAll (fun _ _ hd => .urmsStep (.only (zeroCross_frame _ _ _) (by decide) hd)) hb3
  have hb5 : b5.Canonical mem := .forAll (fun _ _ hd => .only (rcmAdd_frame _ _) (by decide) hd) (.forAll (fun _ _ hd => .only (voltRuns_frame _ _)
      (by decide) hd) hb4)
  clear_value b5
  exact .calStep (.same hb5 ⟨rfl, rfl, rfl⟩)

theorem Block.Canonical.metrologyPublish (h : b.Canonical mem) : (Machine.metrologyPublish b).Canonical mem := by
  unfold Machine.metrologyPublish
  split
  · exact h
  · exact .afterTicks (fun _ hd => .publishNow hd) h

theorem Block.Canonical.modulatorFault {c : Fin 48} (h : b.Canonical mem) : (Machine.modulatorFault c b).Canonical mem := by
  unfold Machine.modulatorFault
  extract_lets _ b1
  have hb1 : b1.Canonical mem := .only (irq_frame _ _) (by decide) (.only (unsettle_frame _ _) (by decide) (.only (updChan_frame _ _ _) (by decide) h))
  refine .ite h ?_
  split
  · exact .onlyIf (fun _ hd => .softFault hd) hb1
  · exact .dite (fun _ => .pqTruncate hb1) (fun _ => hb1)

/-! ### Operations of Machine/Energy.lean -/

theorem Block.Canonical.clockChanged {hadTime : Bool} {old : Int} (h : b.Canonical mem) : (Machine.clockChanged hadTime old b).Canonical mem := by
  unfold Machine.clockChanged
  extract_lets _ _ b1 b2 b3
  have hb1 : b1.Canonical mem := .only (noteClosing_frame _ _) (by decide) h
  have hb2 : b2.Canonical mem := .only (switchTariff_frame _ _ _) (by decide) hb1
  have hb3 : b3.Canonical mem := .only (updSlt_frame _ _) (by decide) hb2
  exact .ite (.replan (.only (legalLog_frame _ _ _ _) (by decide) (.only (irq_frame _ _) (by decide) hb3))) (.replan (.only (updSlt_frame _ _)
      (by decide) h))

theorem Block.Canonical.applyNow {t : U64} (h : b.Canonical mem) : (Machine.applyNow t b).Canonical mem := by
  unfold Machine.applyNow
  extract_lets _ _ old b1 b2 b3 _ b4
  have hold : old.Canonical mem := h
  have hb1 : b1.Canonical mem := .forAll (fun _ _ hd => .only (applyFeeder_frame _ _) (by decide) hd) (.forAll (fun _ _ hd => .only
      (applyNodeEnergy_frame _ _) (by decide) hd) h)
  have hb2 : b2.Canonical mem := .only (energyCheck_frame _ _) (by decide) (.forAll (fun _ _ hd => .only (applySession_frame _ _ _ _)
      (by decide) hd) hb1)
  have hb3 : b3.Canonical mem := .only (frameStep_frame _ _) (by decide) hb2
  have hb4 : b4.Canonical mem := .same hb3 ⟨rfl, rfl, rfl⟩
  exact .feedBoundary (.only (closeAt_frame _ _) (by decide) (.only (noteUnproven_frame _ _) (by decide) hb4))

theorem Block.Canonical.salternApply (h : b.Canonical mem) : (Machine.salternApply b).Canonical mem := by
  unfold Machine.salternApply
  split
  · exact h
  · exact .ite (.afterTicks (fun _ hd => .applyNow hd) h) h

theorem Block.Canonical.debit {t : U64} {n : Fin 16} (h : b.Canonical mem) : (Machine.debit t n b).Canonical mem := by
  unfold Machine.debit
  extract_lets _ _ _ _ _ r b1 b2
  have hr : r.1.Canonical mem := .iteFst h (.transfer (fun _ hd => .only (takeDebit_frame _ _ _) (by decide) hd) h)
  have hb1 : b1.Canonical mem := .only (updLedger_frame _ _ _) (by decide) hr
  have hb2 : b2.Canonical mem := .onlyIf (fun _ hd => .only (irq_frame _ _) (by decide) hd) hb1
  exact .ite h (.ite hr (.ite (.stopSession (.only (irq_frame _ _) (by decide) (.only (updLedger_frame _ _ _) (by decide) hb2))) hb2))

theorem Block.Canonical.brinePublish (h : b.Canonical mem) : (Machine.brinePublish b).Canonical mem := by
  unfold Machine.brinePublish
  split
  · exact h
  · exact .ite (.afterTicks (fun _ hd => .only (cutComplete_frame _ _) (by decide) (.forAll (fun _ _ he => .debit he)
        (.same hd ⟨rfl, rfl, rfl⟩))) h) h

theorem Block.Canonical.metEnergyRead {m : Fin 4} (h : b.Canonical mem) : (Machine.metEnergyRead m b).Canonical mem := by
  unfold Machine.metEnergyRead
  split
  · exact .refuse h
  · exact .ok h

/-! ### Operations of Machine/Insulation.lean -/

theorem Block.Canonical.insulationFault {n : Fin 16} (h : b.Canonical mem) : (Machine.insulationFault n b).Canonical mem := by
  unfold Machine.insulationFault
  exact .contain h

theorem Block.Canonical.faultAlarm {n : Fin 16} {r : Nat} (h : b.Canonical mem) : (Machine.faultAlarm n r b).Canonical mem := by
  unfold Machine.faultAlarm
  extract_lets _ b1
  have hb1 : b1.Canonical mem := .only (updImd_frame _ _ _) (by decide) h
  exact .ite (.ite hb1 (.insulationFault (.only (irq_frame _ _) (by decide) hb1))) (.ite (.only (irq_frame _ _) (by decide) (.only
      (updImd_frame _ _ _) (by decide) h)) (.only (updImd_frame _ _ _) (by decide) h))

theorem Block.Canonical.cableCheckStep {n : Fin 16} {r : Nat} {done : Bool} (h : b.Canonical mem) :
    (Machine.cableCheckStep n r done b).Canonical mem := by
  unfold Machine.cableCheckStep
  extract_lets _ b1 b2
  have hb1 : b1.Canonical mem := .onlyIf (fun _ hd => .only (irq_frame _ _) (by decide) (.only (updImd_frame _ _ _) (by decide) hd)) h
  have hb2 : b2.Canonical mem := .only (cableCheckEnd_frame _ _ _) (by decide) hb1
  exact .ite h (.ite (.ite (.enterPhase hb2) hb2) h)

theorem Block.Canonical.imdMeasure {n : Fin 16} {s : ImdSlot} {x : ImdReading} (h : b.Canonical mem) : (Machine.imdMeasure n s x b).Canonical mem := by
  unfold Machine.imdMeasure
  extract_lets _ _ _ _ _ _ _ _ _ _ _ _ _ b1 _ b2 b3 b4 b5
  have hb1 : b1.Canonical mem := .only (updImd_frame _ _ _) (by decide) h
  have hb2 : b2.Canonical mem := .onlyIf (fun _ hd => .only (irq_frame _ _) (by decide) (.only (updImd_frame _ _ _) (by decide) hd)) hb1
  have hb3 : b3.Canonical mem := .onlyIf (fun _ hd => .only (irq_frame _ _) (by decide) hd) hb2
  have hb4 : b4.Canonical mem := .onlyIf (fun _ hd => .only (irq_frame _ _) (by decide) (.only (updImd_frame _ _ _) (by decide) hd)) hb3
  have hb5 : b5.Canonical mem := .faultAlarm (.only (cableCheckFails_frame _ _ _) (by decide) hb4)
  exact .cableCheckStep (.only (warnAlarm_frame _ _ _ _) (by decide) hb5)

theorem Block.Canonical.imdForm {n : Fin 16} {s : ImdSlot} {x : ImdReading} (h : b.Canonical mem) : (Machine.imdForm n s x b).Canonical mem := by
  unfold Machine.imdForm
  extract_lets _ _ b1 b2 b3
  have hb1 : b1.Canonical mem := .only (updImd_frame _ _ _) (by decide) (.only (periodStep_frame _) (by decide) h)
  have hb2 : b2.Canonical mem := .only (railSee_frame _ _ _ _) (by decide) hb1
  have hb3 : b3.Canonical mem := .ite (.only (updImdG_frame _ _) (by decide) (.only (updImd_frame _ _ _) (by decide) hb2)) (.imdMeasure hb2)
  exact .driveFeed hb3

theorem Block.Canonical.imdResult {n : Fin 16} {x : ImdReading} (h : b.Canonical mem) : (Machine.imdResult n x b).Canonical mem := by
  unfold Machine.imdResult
  split
  · exact h
  · exact .atInstant (fun _ hd => .imdForm hd) h

theorem Block.Canonical.goStale {n : Fin 16} (h : b.Canonical mem) : (Machine.goStale n b).Canonical mem := by
  unfold Machine.goStale
  extract_lets b1
  have hb1 : b1.Canonical mem := .only (irq_frame _ _) (by decide) (.only (updImd_frame _ _ _) (by decide) h)
  exact .ite (.softFault hb1) hb1

theorem Block.Canonical.imdStale {n : Fin 16} (h : b.Canonical mem) : (Machine.imdStale n b).Canonical mem := by
  unfold Machine.imdStale
  extract_lets b1
  have hb1 : b1.Canonical mem := .only (noteActive_frame _) (by decide) h
  split
  · exact .ite hb1 (.atInstant (fun _ hd => .goStale hd) hb1)
  · exact hb1

theorem Block.Canonical.cableCheckTimeout {n : Fin 16} (h : b.Canonical mem) : (Machine.cableCheckTimeout n b).Canonical mem := by
  unfold Machine.cableCheckTimeout
  extract_lets
  exact .ite (.afterTicks (fun _ hd => .stopSession (.only (cableCheckEnd_frame _ _ _) (by decide) hd)) h) h

theorem Block.Canonical.rcmTrip {f : Fin 2} {test : Bool} (h : b.Canonical mem) : (Machine.rcmTrip f test b).Canonical mem := by
  unfold Machine.rcmTrip
  extract_lets b1
  have hb1 : b1.Canonical mem := .only (irq_frame _ _) (by decide) (.only (updRcm_frame _ _ _) (by decide) h)
  exact .ite hb1 (.contain hb1)

theorem Block.Canonical.rcmBlock {f : Fin 2} (h : b.Canonical mem) : (Machine.rcmBlock f b).Canonical mem := by
  unfold Machine.rcmBlock
  extract_lets _ _ _ _ _ _ _ _ _ b1 b2 b3
  have hb1 : b1.Canonical mem := .only (updRcm_frame _ _ _) (by decide) h
  have hb2 : b2.Canonical mem := .onlyIf (fun _ hd => .only (irq_frame _ _) (by decide) hd) hb1
  have hb3 : b3.Canonical mem := by
    unfold b3
    split
    · exact .ite (.same hb2 ⟨rfl, rfl, rfl⟩) hb2
    · exact hb2
  exact .onlyIf (fun _ hd => .rcmTrip hd) hb3

theorem Block.Canonical.rcmBlockEnd {f : Fin 2} (h : b.Canonical mem) : (Machine.rcmBlockEnd f b).Canonical mem := by
  unfold Machine.rcmBlockEnd
  extract_lets
  exact .ite h (.rcmBlock h)

theorem Block.Canonical.rcmLost {f : Fin 2} (h : b.Canonical mem) : (Machine.rcmLost f b).Canonical mem := by
  unfold Machine.rcmLost
  extract_lets
  exact .ite (.rcmTrip (.only (irq_frame _ _) (by decide) (.only (updRcm_frame _ _ _) (by decide) h))) h

theorem Block.Canonical.rcmTestFinish {t : RcmTest} (h : b.Canonical mem) : (Machine.rcmTestFinish t b).Canonical mem := by
  unfold Machine.rcmTestFinish
  extract_lets _ _ b1 b2 b3
  have hb1 : b1.Canonical mem := .onlyIf (fun _ hd => .hsEntry hd) (.same h ⟨rfl, rfl, rfl⟩)
  have hb2 : b2.Canonical mem := .only (irq_frame _ _) (by decide) (.only (updRcm_frame _ _ _) (by decide) hb1)
  have hb3 : b3.Canonical mem := .only (cmdLog_frame _ _ _) (by decide) hb2
  exact .ite (.ok hb3) (.refuse hb3)

theorem Block.Canonical.rcmTestOff {t : RcmTest} (h : b.Canonical mem) : (Machine.rcmTestOff t b).Canonical mem := by
  unfold Machine.rcmTestOff
  exact .ite (.rcmTestFinish h) (.hsEntry (.same h ⟨rfl, rfl, rfl⟩))

theorem Block.Canonical.rcmTestEnd (h : b.Canonical mem) : (Machine.rcmTestEnd b).Canonical mem := by
  unfold Machine.rcmTestEnd
  split
  · exact h
  · exact .ite (.rcmTestFinish h) (.ite (.atInstant (fun _ hd => .rcmTestFinish hd) h) (.atInstant (fun _ hd => .rcmTestOff hd) h))

theorem Block.Canonical.imdSetConfig {m : Fin 4} (h : b.Canonical mem) : (Machine.imdSetConfig m b).Canonical mem := by
  unfold Machine.imdSetConfig
  extract_lets
  refine .checked (fun _ hd => ?_) h
  extract_lets b1 _ _ _ _ _ b2 b3
  have hb1 : b1.Canonical mem := .only (periodStep_frame _) (by decide) hd
  have hb2 : b2.Canonical mem := .only (updImdG_frame _ _) (by decide) hb1
  have hb3 : b3.Canonical mem := .onlyIf (fun _ he => .forAll (fun _ _ hf => .only (rebase_frame _ _) (by decide) hf) he) hb2
  exact .only (cmdLog_frame _ _ _) (by decide) (.ok (.only (saveSettings_frame _) (by decide) hb3))

theorem Block.Canonical.imdSetForce {m : Fin 4} (h : b.Canonical mem) : (Machine.imdSetForce m b).Canonical mem := by
  unfold Machine.imdSetForce
  extract_lets
  exact .driveFeed (.ok (.only (saveSettings_frame _) (by decide) (.same h ⟨rfl, rfl, rfl⟩)))

theorem Block.Canonical.imdGetNode {m : Fin 4} (h : b.Canonical mem) : (Machine.imdGetNode m b).Canonical mem := by
  unfold Machine.imdGetNode
  extract_lets
  exact .checked (fun _ hd => .ok hd) h

theorem Block.Canonical.imdRebaseline {m : Fin 4} (h : b.Canonical mem) : (Machine.imdRebaseline m b).Canonical mem := by
  unfold Machine.imdRebaseline
  exact .ok (.forAll (fun _ _ hd => .only (rebase_frame _ _) (by decide) hd) h)

theorem Block.Canonical.rcmSetConfig {m : Fin 4} (h : b.Canonical mem) : (Machine.rcmSetConfig m b).Canonical mem := by
  unfold Machine.rcmSetConfig
  extract_lets
  exact .checked (fun _ hd => .only (cmdLog_frame _ _ _) (by decide) (.ok (.only (saveSettings_frame _) (by decide) (.only (updRcm_frame _ _ _)
      (by decide) hd)))) h

theorem Block.Canonical.rcmGet {m : Fin 4} (h : b.Canonical mem) : (Machine.rcmGet m b).Canonical mem := by
  unfold Machine.rcmGet
  refine .checked (fun _ hd => ?_) h
  extract_lets
  exact .ok (.only (updRcm_frame _ _ _) (by decide) hd)

theorem Block.Canonical.rcmTestStart {m : Fin 4} (h : b.Canonical mem) : (Machine.rcmTestStart m b).Canonical mem := by
  unfold Machine.rcmTestStart
  extract_lets
  refine .checked (fun _ hd => ?_) h
  extract_lets
  exact .hsEntry (.same hd ⟨rfl, rfl, rfl⟩)

theorem Block.Canonical.imdClearCounts {m : Fin 4} (h : b.Canonical mem) : (Machine.imdClearCounts m b).Canonical mem := by
  unfold Machine.imdClearCounts
  exact .ok (.forAll (fun _ _ hd => .only (updImd_frame _ _ _) (by decide) hd) (.only (updImdG_frame _ _) (by decide) h))

/-! ### Operations of Machine/Switches.lean -/

theorem Block.Canonical.contactorFault {n : Fin 16} (h : b.Canonical mem) : (Machine.contactorFault n b).Canonical mem := by
  unfold Machine.contactorFault
  exact .contain (.only (irq_frame _ _) (by decide) h)

theorem Block.Canonical.lsProtect {n : Fin 16} {f : LsChan → LsChan} (h : b.Canonical mem) : (Machine.lsProtect n f b).Canonical mem := by
  unfold Machine.lsProtect
  exact .contactorFault (.only (lsOff_frame _ _) (by decide) (.only (irq_frame _ _) (by decide) (.only (updLs_frame _ _ _) (by decide) (.only
      (updLsw_frame _ _) (by decide) h))))

theorem Block.Canonical.coilOpened {n : Fin 16} (h : b.Canonical mem) : (Machine.coilOpened n b).Canonical mem := by
  unfold Machine.coilOpened
  extract_lets _ b1 b2
  have hb1 : b1.Canonical mem := .only (updLs_frame _ _ _) (by decide) h
  have hb2 : b2.Canonical mem := .only (updNode_frame _ _ _) (by decide) hb1
  exact .unlockIfDue (.only (reviewHub_frame _) (by decide) (.stopDone (.only (imdDisturb_frame _ _ _) (by decide) (.only (imdOpen_frame _ _)
      (by decide) hb2))))

theorem Block.Canonical.coilOnMeasure {n : Fin 16} {x : SwitchReading} (h : b.Canonical mem) : (Machine.coilOnMeasure n x b).Canonical mem := by
  unfold Machine.coilOnMeasure
  extract_lets _ _ b1
  have hb1 : b1.Canonical mem := .ite (.only (coilConfirm_frame _ _) (by decide) h) h
  exact .ite (.lsProtect h) (.ite (.ite (.contactorFault hb1) (.onlyIf (fun _ hd => .only (irq_frame _ _) (by decide) hd) (.only (updLs_frame _ _ _)
      (by decide) hb1))) hb1)

theorem Block.Canonical.coilOffMeasure {n : Fin 16} {x : SwitchReading} (h : b.Canonical mem) : (Machine.coilOffMeasure n x b).Canonical mem := by
  unfold Machine.coilOffMeasure
  extract_lets _ _ _ _ b1
  have hb1 : b1.Canonical mem := .onlyIf (fun _ hd => .only (irq_frame _ _) (by decide) hd) (.only (updLs_frame _ _ _) (by decide) h)
  exact .ite (.coilOpened hb1) hb1

theorem Block.Canonical.lsMeasure {n : Fin 16} {x : SwitchReading} (h : b.Canonical mem) : (Machine.lsMeasure n x b).Canonical mem := by
  unfold Machine.lsMeasure
  extract_lets b1
  have hb1 : b1.Canonical mem := .only (updLs_frame _ _ _) (by decide) h
  exact .ite (.coilOffMeasure hb1) (.coilOnMeasure hb1)

theorem Block.Canonical.switchMeasure {c : SwitchChan} {x : SwitchReading} (h : b.Canonical mem) : (Machine.switchMeasure c x b).Canonical mem := by
  unfold Machine.switchMeasure
  split
  · exact .atInstant (fun _ hd => .only (hsMeasure_frame _ _ _) (by decide) hd) h
  · exact .atInstant (fun _ hd => .lsMeasure hd) h

theorem Block.Canonical.switchOvertemp {c : SwitchChan} (h : b.Canonical mem) : (Machine.switchOvertemp c b).Canonical mem := by
  unfold Machine.switchOvertemp
  split
  · exact .ite h (.only (protectHs_frame _ _ _ _) (by decide) h)
  · exact .ite h (.lsProtect (.only (irq_frame _ _) (by decide) h))

theorem Block.Canonical.lswSetChannel {m : Fin 4} (h : b.Canonical mem) : (Machine.lswSetChannel m b).Canonical mem := by
  unfold Machine.lswSetChannel
  extract_lets
  exact .checked (fun _ hd => .only (cmdLog_frame _ _ _) (by decide) (.ok (.only (saveSettings_frame _) (by decide) (.only (updHs_frame _ _ _)
      (by decide) hd)))) h

theorem Block.Canonical.lswSwitch {m : Fin 4} (h : b.Canonical mem) : (Machine.lswSwitch m b).Canonical mem := by
  unfold Machine.lswSwitch
  extract_lets
  refine .checked (fun _ hd => ?_) h
  extract_lets _ r _ r1
  have hr : r.1.Canonical mem := .iteFst hd (.submitEntry hd)
  have hr1 : r1.1.Canonical mem := .iteFst (.submitEntry hr) hr
  exact .ite hr1 (.internalFail hr1)

theorem Block.Canonical.lswGetChannel {m : Fin 4} (h : b.Canonical mem) : (Machine.lswGetChannel m b).Canonical mem := by
  unfold Machine.lswGetChannel
  refine .checked (fun _ hd => ?_) h
  extract_lets
  exact .ok hd

theorem Block.Canonical.lswClearFault {m : Fin 4} (h : b.Canonical mem) : (Machine.lswClearFault m b).Canonical mem := by
  unfold Machine.lswClearFault
  extract_lets
  refine .checked (fun _ hd => ?_) h
  extract_lets b1 b2
  have hb1 : b1.Canonical mem := .ite (.forAll (fun _ _ he => .only (updHs_frame _ _ _) (by decide) he) hd) hd
  have hb2 : b2.Canonical mem := .only (updHs_frame _ _ _) (by decide) hb1
  exact .ok hb2

theorem Block.Canonical.lswSetCoil {m : Fin 4} (h : b.Canonical mem) : (Machine.lswSetCoil m b).Canonical mem := by
  unfold Machine.lswSetCoil
  extract_lets
  exact .checked (fun _ hd => .only (cmdLog_frame _ _ _) (by decide) (.ok (.only (saveSettings_frame _) (by decide) (.only (updLs_frame _ _ _)
      (by decide) hd)))) h

theorem Block.Canonical.lswGetCoil {m : Fin 4} (h : b.Canonical mem) : (Machine.lswGetCoil m b).Canonical mem := by
  unfold Machine.lswGetCoil
  extract_lets
  exact .checked (fun _ hd => .ok hd) h

theorem Block.Canonical.lswSetLimp {m : Fin 4} (h : b.Canonical mem) : (Machine.lswSetLimp m b).Canonical mem := by
  unfold Machine.lswSetLimp
  extract_lets
  refine .checked (fun _ hd => ?_) h
  extract_lets _ b1 b2
  have hb1 : b1.Canonical mem := .same hd ⟨rfl, rfl, rfl⟩
  have hb2 : b2.Canonical mem := .only (driveAll_frame _) (by decide) (.only (updLsw_frame _ _) (by decide) hb1)
  exact .only (cmdLog_frame _ _ _) (by decide) (.ok (.only (saveSettings_frame _) (by decide) hb2))

theorem Block.Canonical.lswLimpRelease {m : Fin 4} (h : b.Canonical mem) : (Machine.lswLimpRelease m b).Canonical mem := by
  unfold Machine.lswLimpRelease
  extract_lets
  exact .ok (.forAll (fun _ _ hd => .only (limpRelease_frame _ _) (by decide) hd) h)

theorem Block.Canonical.lswClearCounts {m : Fin 4} (h : b.Canonical mem) : (Machine.lswClearCounts m b).Canonical mem := by
  unfold Machine.lswClearCounts
  exact .ok (.only (updLsw_frame _ _) (by decide) h)

/-! ### Operations of Machine/Safety.lean -/

theorem Block.Canonical.disagree (h : b.Canonical mem) : (Machine.disagree b).Canonical mem := by
  unfold Machine.disagree
  exact .contain (.only (irq_frame _ _) (by decide) (.only (updSaf_frame _ _) (by decide) h))

theorem Block.Canonical.disagreeTimeout (h : b.Canonical mem) : (Machine.disagreeTimeout b).Canonical mem := by
  unfold Machine.disagreeTimeout
  split
  · exact h
  · exact .afterTicks (fun _ hd => .disagree (.only (updSafX_frame _ _) (by decide) hd)) h

theorem Block.Canonical.compareDecisions (h : b.Canonical mem) : (Machine.compareDecisions b).Canonical mem := by
  unfold Machine.compareDecisions
  extract_lets b1
  have hb1 : b1.Canonical mem := .only (updSafX_frame _ _) (by decide) h
  exact .ite (.disagree (.only (updSafX_frame _ _) (by decide) hb1)) hb1

theorem Block.Canonical.zoneStop {ns : List (Fin 16)} (h : b.Canonical mem) : (Machine.zoneStop ns b).Canonical mem := by
  unfold Machine.zoneStop
  extract_lets
  split
  · exact h
  · exact .contain (.forAll (fun _ _ hd => .only (openWindow_frame _ _ _ _) (by decide) (.only (updSaf_frame _ _) (by decide) (.applyOwn hd))) h)

theorem Block.Canonical.pairActs {k : Fin 8} (h : b.Canonical mem) : (Machine.pairActs k b).Canonical mem := by
  unfold Machine.pairActs
  extract_lets _ b1
  have hb1 : b1.Canonical mem := .only (irq_frame _ _) (by decide) (.only (updSafPair_frame _ _ _) (by decide) h)
  exact .ite h (.ite (.contain hb1) (.zoneStop hb1))

theorem Block.Canonical.safetyInputOpen {i : Fin 16} {dyke hw : Bool} (h : b.Canonical mem) : (Machine.safetyInputOpen i dyke hw b).Canonical mem := by
  unfold Machine.safetyInputOpen
  extract_lets
  refine .ite h (.atInstant (fun _ hd => ?_) h)
  extract_lets b1
  have hb1 : b1.Canonical mem := .only (updSaf_frame _ _) (by decide) hd
  exact .tripDecide (fun _ he => .pairActs he) (.only (pairDiffer_frame _ _) (by decide) hb1)

theorem Block.Canonical.pairCheck {x : TestPulse} {k : Fin 8} (h : b.Canonical mem) : (Machine.pairCheck x k b).Canonical mem := by
  unfold Machine.pairCheck
  extract_lets _ _ _ b1
  have hb1 : b1.Canonical mem := .only (updSafX_frame _ _) (by decide) (.only (updSafPair_frame _ _ _) (by decide) h)
  exact .ite h (.ite (.only (updSafPair_frame _ _ _) (by decide) h) (.tripDecide (fun _ hd => .pairActs hd) (.onlyIf (fun _ hd => .only
      (irq_frame _ _) (by decide) hd) hb1)))

theorem Block.Canonical.testPulse {x : TestPulse} (h : b.Canonical mem) : (Machine.testPulse x b).Canonical mem := by
  unfold Machine.testPulse
  extract_lets
  refine .ite h (.atInstant (fun _ hd => ?_) h)
  extract_lets b1
  have hb1 : b1.Canonical mem := .only (updSafX_frame _ _) (by decide) (.only (updSaf_frame _ _) (by decide) hd)
  exact .compareDecisions (.forAll (fun _ _ he => .pairCheck he) (.onlyIf (fun _ he => .only (tripOver_frame _ _) (by decide) he) hb1))

theorem Block.Canonical.ilkFault {a b' cross overload dyke hw : Bool} (h : b.Canonical mem) :
    (Machine.ilkFault a b' cross overload dyke hw b).Canonical mem := by
  unfold Machine.ilkFault
  extract_lets b1
  have hb1 : b1.Canonical mem := .only (updSaf_frame _ _) (by decide) h
  exact .tripDecide (fun _ hd => .ite (.contain (.only (irq_frame _ _) (by decide) hd)) hd) hb1

theorem Block.Canonical.dykeAliveTimeout (h : b.Canonical mem) : (Machine.dykeAliveTimeout b).Canonical mem := by
  unfold Machine.dykeAliveTimeout
  extract_lets b1
  have hb1 : b1.Canonical mem := .only (updSaf_frame _ _) (by decide) h
  exact .ite h (.disagree (.forAll (fun _ _ hd => .only (lsOff_frame _ _) (by decide) (.only (updNode_frame _ _ _) (by decide) hd)) hb1))

theorem Block.Canonical.ovTrip {n : Fin 16} {dyke hw : Bool} (h : b.Canonical mem) : (Machine.ovTrip n dyke hw b).Canonical mem := by
  unfold Machine.ovTrip
  exact .tripDecide (fun _ hd => .ite hd (.contain (.only (irq_frame _ _) (by decide) (.only (updNode_frame _ _ _) (by decide) hd)))) h

theorem Block.Canonical.pilotBackup {n : Fin 16} (h : b.Canonical mem) : (Machine.pilotBackup n b).Canonical mem := by
  unfold Machine.pilotBackup
  extract_lets
  exact .ite (.disagree (.only (lsOff_frame _ _) (by decide) (.only (updNode_frame _ _ _) (by decide) h))) h

theorem Block.Canonical.rampedStop {n : Fin 16} (h : b.Canonical mem) : (Machine.rampedStop n b).Canonical mem := by
  unfold Machine.rampedStop
  split
  · exact h
  · exact .ite (.rampedOpen h) (.afterTicks (fun _ hd => .rampedOpen hd) h)

theorem Block.Canonical.closeTimeout {n : Fin 16} (h : b.Canonical mem) : (Machine.closeTimeout n b).Canonical mem := by
  unfold Machine.closeTimeout
  split
  · exact h
  · exact .afterTicks (fun _ hd => .contactorFault (.only (updNode_frame _ _ _) (by decide) hd)) h

theorem Block.Canonical.stuckSupply {n : Fin 16} (h : b.Canonical mem) : (Machine.stuckSupply n b).Canonical mem := by
  unfold Machine.stuckSupply
  extract_lets _ b1
  have hb1 : b1.Canonical mem := .hsEntry h
  exact .ite (.ite (.deviceFault hb1) hb1) h

theorem Block.Canonical.openCheck {n : Fin 16} (h : b.Canonical mem) : (Machine.openCheck n b).Canonical mem := by
  unfold Machine.openCheck
  split
  · exact h
  · exact .ite (.afterTicks (fun _ hd => .contain (.only (irq_frame _ _) (by decide) (.only (updNode_frame _ _ _) (by decide) hd))) h) (.afterTicks
        (fun _ hd => .stuckSupply (.only (irqs_frame _ _) (by decide) (.only (updLs_frame _ _ _) (by decide) (.only (updNode_frame _ _ _)
        (by decide) hd)))) h)

theorem Block.Canonical.resetPulse {dyke hw : Nat} (h : b.Canonical mem) : (Machine.resetPulse dyke hw b).Canonical mem := by
  unfold Machine.resetPulse
  extract_lets _ b1
  have hb1 : b1.Canonical mem := .only (updSafX_frame _ _) (by decide) h
  exact .ite h (.ite (.only (irq_frame _ _) (by decide) (.only (updSaf_frame _ _) (by decide) hb1)) (.ite (.disagree hb1) (.only
      (irqLog_frame _ _ _ _) (by decide) (.only (updSafX_frame _ _) (by decide) hb1))))

theorem Block.Canonical.coverLifted {n : Fin 16} (h : b.Canonical mem) : (Machine.coverLifted n b).Canonical mem := by
  unfold Machine.coverLifted
  extract_lets _ b1
  have hb1 : b1.Canonical mem := .ite (.ite (.toIdle h) (.enterPhase h)) h
  exact .ite h (.unlockIfDue (.dutyReview hb1))

theorem Block.Canonical.clearLock {s : CScope} (h : b.Canonical mem) : (Machine.clearLock s b).Canonical mem := by
  unfold Machine.clearLock
  extract_lets _ _ b1 b2 b3
  have hb1 : b1.Canonical mem := by
    unfold b1
    split
    · exact .only (updLs_frame _ _ _) (by decide) (.only (updNode_frame _ _ _) (by decide) h)
    · exact .only (updSaf_frame _ _) (by decide) h
    · exact .only (updSaf_frame _ _) (by decide) h
  have hb2 : b2.Canonical mem := .onlyIf (fun _ hd => .forAll (fun _ _ he => .only (updNode_frame _ _ _) (by decide) he) hd) hb1
  have hb3 : b3.Canonical mem := .only (saveSafety_frame _) (by decide) (.only (lockoutLog_frame _ _ _ _) (by decide) (.only (irq_frame _ _)
      (by decide) hb2))
  exact .only (reviewHw_frame _) (by decide) (.only (reviewHub_frame _) (by decide) (.forAll (fun _ _ hd => .coverLifted hd) hb3))

theorem Block.Canonical.safResetAck {m : Fin 4} (h : b.Canonical mem) : (Machine.safResetAck m b).Canonical mem := by
  unfold Machine.safResetAck
  extract_lets
  refine .checked (fun _ hd => ?_) h
  extract_lets b1 _ _ _ b2
  have hb1 : b1.Canonical mem := .only (updSaf_frame _ _) (by decide) hd
  have hb2 : b2.Canonical mem := .only (endEpisode_frame _) (by decide) (.forAll (fun _ _ he => .clearLock he) hb1)
  exact .ite (.refuse hb1) (.ite (.refuse hb1) (.only (cmdLog_frame _ _ _) (by decide) (.ok hb2)))

theorem Block.Canonical.escalate {w : Containment} (h : b.Canonical mem) : (Machine.escalate w b).Canonical mem := by
  unfold Machine.escalate
  extract_lets _ s _ _ widened
  have hwidened : widened.Canonical mem := .only (irq_frame _ _) (by decide) (.only (updSaf_frame _ _) (by decide) h)
  clear_value s
  split
  · exact .only (openWindow_frame _ _ _ _) (by decide) (.applyLane hwidened)
  · exact .only (openWindow_frame _ _ _ _) (by decide) (.applyHub hwidened)

theorem Block.Canonical.windowExpired (h : b.Canonical mem) : (Machine.windowExpired b).Canonical mem := by
  unfold Machine.windowExpired
  split
  · exact h
  · refine .atInstant (fun _ hd => ?_) h
    extract_lets b1
    have hb1 : b1.Canonical mem := .only (updSaf_frame _ _) (by decide) hd
    exact .ite (.escalate hb1) (.only (endEpisode_frame _) (by decide) hb1)

theorem Block.Canonical.safGetStatus {m : Fin 4} (h : b.Canonical mem) : (Machine.safGetStatus m b).Canonical mem := by
  unfold Machine.safGetStatus
  exact .ok h

theorem Block.Canonical.safSetConfig {m : Fin 4} (h : b.Canonical mem) : (Machine.safSetConfig m b).Canonical mem := by
  unfold Machine.safSetConfig
  extract_lets
  refine .checked (fun _ hd => ?_) h
  extract_lets b1 b2 b3 b4
  have hb1 : b1.Canonical mem := .only (updSaf_frame _ _) (by decide) hd
  have hb2 : b2.Canonical mem := .forAll (fun _ _ he => .ite (.only (pairUnused_frame _ _) (by decide) he) (.ite (.pairActs he) he)) hb1
  have hb3 : b3.Canonical mem := .only (updSafX_frame _ _) (by decide) hb2
  have hb4 : b4.Canonical mem := .only (updSaf_frame _ _) (by decide) hb3
  exact .only (cmdLog_frame _ _ _) (by decide) (.ok (.only (legalLog_frame _ _ _ _) (by decide) (.only (saveSettings_frame _) (by decide) hb4)))

theorem Block.Canonical.safGetNode {m : Fin 4} (h : b.Canonical mem) : (Machine.safGetNode m b).Canonical mem := by
  unfold Machine.safGetNode
  extract_lets
  exact .checked (fun _ hd => .ok hd) h

theorem Block.Canonical.safGetFaults {m : Fin 4} (h : b.Canonical mem) : (Machine.safGetFaults m b).Canonical mem := by
  unfold Machine.safGetFaults
  exact .ok h

theorem Block.Canonical.safClearCounts {m : Fin 4} (h : b.Canonical mem) : (Machine.safClearCounts m b).Canonical mem := by
  unfold Machine.safClearCounts
  exact .ok (.only (updSafX_frame _ _) (by decide) h)

/-! ### Operations of Machine/Pilot.lean -/

theorem Block.Canonical.dutyLost {n : Fin 16} (h : b.Canonical mem) : (Machine.dutyLost n b).Canonical mem := by
  unfold Machine.dutyLost
  exact .dutyReview (.only (updVeh_frame _ _ _) (by decide) h)

theorem Block.Canonical.pilotLost {n : Fin 16} (h : b.Canonical mem) : (Machine.pilotLost n b).Canonical mem := by
  unfold Machine.pilotLost
  exact .contain (.only (irq_frame _ _) (by decide) (.only (updVeh_frame _ _ _) (by decide) h))

theorem Block.Canonical.pilotCheck {n : Fin 16} (h : b.Canonical mem) : (Machine.pilotCheck n b).Canonical mem := by
  unfold Machine.pilotCheck
  exact .onlyIf (fun _ hd => .pilotLost hd) h

theorem Block.Canonical.pilotEvent {n : Fin 16} {f : Connector → Connector} (h : b.Canonical mem) : (Machine.pilotEvent n f b).Canonical mem := by
  unfold Machine.pilotEvent
  extract_lets _ b1
  have hb1 : b1.Canonical mem := .only (updVeh_frame _ _ _) (by decide) h
  exact .onlyIf (fun _ hd => .pilotCheck hd) hb1

theorem Block.Canonical.idleIfFree {n : Fin 16} (h : b.Canonical mem) : (Machine.idleIfFree n b).Canonical mem := by
  unfold Machine.idleIfFree
  extract_lets
  exact .ite (.unlockIfDue (.toIdle h)) h

theorem Block.Canonical.connect {n : Fin 16} (h : b.Canonical mem) : (Machine.connect n b).Canonical mem := by
  unfold Machine.connect
  extract_lets
  exact .ite (.startMove (.enterPhase h)) h

theorem Block.Canonical.associate {n : Fin 16} (h : b.Canonical mem) : (Machine.associate n b).Canonical mem := by
  unfold Machine.associate
  extract_lets _ b1
  have hb1 : b1.Canonical mem := .enterPhase h
  exact .ite (.same hb1 ⟨rfl, rfl, rfl⟩) h

theorem Block.Canonical.settleStart {n : Fin 16} (h : b.Canonical mem) : (Machine.settleStart n b).Canonical mem := by
  unfold Machine.settleStart
  extract_lets
  refine .ite h ?_
  split
  · exact .only (updVeh_frame _ _ _) (by decide) h
  · exact .ite (.only (updVeh_frame _ _ _) (by decide) (.enterPhase h)) (.only (updVeh_frame _ _ _) (by decide) h)
  · exact .ite (.only (updVeh_frame _ _ _) (by decide) (.enterPhase h)) (.only (updVeh_frame _ _ _) (by decide) h)
  · exact .ite (.only (updVeh_frame _ _ _) (by decide) (.enterPhase h)) (.only (updVeh_frame _ _ _) (by decide) h)
  · exact h

theorem Block.Canonical.pilotReview {n : Fin 16} (h : b.Canonical mem) : (Machine.pilotReview n b).Canonical mem := by
  unfold Machine.pilotReview
  exact .dutyReview (.associate (.connect (.idleIfFree (.unlockIfDue (.settleStart h)))))

theorem Block.Canonical.pilotHigh {n : Fin 16} {x : PilotReading} (h : b.Canonical mem) : (Machine.pilotHigh n x b).Canonical mem := by
  unfold Machine.pilotHigh
  extract_lets _ b1 b2
  have hb1 : b1.Canonical mem := .only (updVeh_frame _ _ _) (by decide) h
  have hb2 : b2.Canonical mem := .onlyIf (fun _ hd => .only (updNode_frame _ _ _) (by decide) hd) hb1
  exact .pilotReview (.only (ppSample_frame _ _ _ _) (by decide) (.only (rawSample_frame _ _ _ _) (by decide) hb2))

theorem Block.Canonical.pilotLow {n : Fin 16} {x : PilotReading} (h : b.Canonical mem) : (Machine.pilotLow n x b).Canonical mem := by
  unfold Machine.pilotLow
  extract_lets _ _ b1 b2
  have hb1 : b1.Canonical mem := .only (diodeSample_frame _ _ _) (by decide) (.only (updVeh_frame _ _ _) (by decide) h)
  have hb2 : b2.Canonical mem := .only (updNode_frame _ _ _) (by decide) hb1
  exact .ite (.pilotReview (.only (ppSample_frame _ _ _ _) (by decide) (.only (rawSample_frame _ _ _ _) (by decide) hb2))) (.only
      (updNode_frame _ _ _) (by decide) hb1)

theorem Block.Canonical.pilotSample {n : Fin 16} {x : PilotReading} (h : b.Canonical mem) : (Machine.pilotSample n x b).Canonical mem := by
  unfold Machine.pilotSample
  split
  · exact .atInstant (fun _ hd => .iteApp (.pilotLow (.only (settleDuty_frame _ _) (by decide) hd)) (.pilotHigh (.only (settleDuty_frame _ _)
        (by decide) hd))) h
  · exact h

theorem Block.Canonical.cpConfirmed {n : Fin 16} (h : b.Canonical mem) : (Machine.cpConfirmed n b).Canonical mem := by
  unfold Machine.cpConfirmed
  extract_lets
  refine .ite (.afterTicks (fun _ hd => ?_) h) h
  extract_lets b1 b2
  have hb1 : b1.Canonical mem := .pilotEvent (.only (irq_frame _ _) (by decide) hd)
  have hb2 : b2.Canonical mem := by
    unfold b2
    split
    · exact .stopSession hb1
    · exact .ite (.stopSession hb1) hb1
    · exact hb1
  exact .pilotReview hb2

theorem Block.Canonical.diodeConfirmed {n : Fin 16} (h : b.Canonical mem) : (Machine.diodeConfirmed n b).Canonical mem := by
  unfold Machine.diodeConfirmed
  extract_lets
  exact .ite (.afterTicks (fun _ hd => .pilotEvent (.only (irq_frame _ _) (by decide) hd)) h) (.ite (.afterTicks (fun _ hd => .pilotReview (.only
      (updVeh_frame _ _ _) (by decide) hd)) h) h)

theorem Block.Canonical.senseFault {n : Fin 16} (h : b.Canonical mem) : (Machine.senseFault n b).Canonical mem := by
  unfold Machine.senseFault
  extract_lets
  exact .ite (.pilotEvent (.only (irq_frame _ _) (by decide) h)) h

theorem Block.Canonical.senseClear {n : Fin 16} (h : b.Canonical mem) : (Machine.senseClear n b).Canonical mem := by
  unfold Machine.senseClear
  extract_lets
  exact .ite (.pilotReview (.only (updVeh_frame _ _ _) (by decide) h)) h

theorem Block.Canonical.ppConfirmed {n : Fin 16} (h : b.Canonical mem) : (Machine.ppConfirmed n b).Canonical mem := by
  unfold Machine.ppConfirmed
  extract_lets
  refine .ite h ?_
  split
  · exact .ite (.pilotEvent (.only (irq_frame _ _) (by decide) h)) h
  · extract_lets
    exact .ite h (.ite (.pilotEvent (.only (irq_frame _ _) (by decide) h)) (.ite h (.pilotReview (.pilotEvent (.only (irq_frame _ _)
        (by decide) h)))))

theorem Block.Canonical.overTempStep {n : Fin 16} {t : Int} (h : b.Canonical mem) : (Machine.overTempStep n t b).Canonical mem := by
  unfold Machine.overTempStep
  extract_lets
  exact .ite (.contain (.only (irq_frame _ _) (by decide) (.only (updNode_frame _ _ _) (by decide) h))) (.ite (.only (updNode_frame _ _ _)
      (by decide) h) h)

theorem Block.Canonical.cableTemp {n : Fin 16} {t0 t1 : Option Int} (h : b.Canonical mem) : (Machine.cableTemp n t0 t1 b).Canonical mem := by
  unfold Machine.cableTemp
  extract_lets _ _ _ shown hot
  have hshown : shown.Canonical mem := .onlyIf (fun _ hd => .only (irq_frame _ _) (by decide) hd) (.only (updVeh_frame _ _ _) (by decide) h)
  clear_value hot
  split
  · exact .ite (.deviceFault hshown) hshown
  · extract_lets
    exact .overTempStep (.onlyIf (fun _ hd => .only (irq_frame _ _) (by decide) hd) (.only (updSess_frame _ _ _) (by decide) (.only
        (updVeh_frame _ _ _) (by decide) hshown)))

theorem Block.Canonical.cableTempMeasure {n : Fin 16} {x : TempReading} {ref : Nat} (h : b.Canonical mem) :
    (Machine.cableTempMeasure n x ref b).Canonical mem := by
  unfold Machine.cableTempMeasure
  extract_lets
  split
  · exact .afterTicks (fun _ hd => .cableTemp hd) h
  · exact .cableTemp h

theorem Block.Canonical.moveOff {n : Fin 16} {mv : LockMove} (h : b.Canonical mem) : (Machine.moveOff n mv b).Canonical mem := by
  unfold Machine.moveOff
  exact .hsEntry h

theorem Block.Canonical.lockFail {n : Fin 16} {mv : LockMove} (h : b.Canonical mem) : (Machine.lockFail n mv b).Canonical mem := by
  unfold Machine.lockFail
  extract_lets b1 b2
  have hb1 : b1.Canonical mem := .moveOff h
  have hb2 : b2.Canonical mem := .only (irq_frame _ _) (by decide) (.only (updVeh_frame _ _ _) (by decide) hb1)
  refine .ite ?_ (.only (updVeh_frame _ _ _) (by decide) hb1)
  split
  · exact .refuse hb2
  · exact hb2

theorem Block.Canonical.lockVerified {n : Fin 16} {mv : LockMove} (h : b.Canonical mem) : (Machine.lockVerified n mv b).Canonical mem := by
  unfold Machine.lockVerified
  extract_lets _ b1 b2
  have hb1 : b1.Canonical mem := .only (updVeh_frame _ _ _) (by decide) h
  have hb2 : b2.Canonical mem := by
    unfold b2
    split
    · exact .ok hb1
    · exact hb1
  exact .pilotReview hb2

theorem Block.Canonical.lockStall {n : Fin 16} (h : b.Canonical mem) : (Machine.lockStall n b).Canonical mem := by
  unfold Machine.lockStall
  split
  · split
    · exact .ite h (.afterTicks (fun _ hd => .ite (.lockFail hd) (.lockVerified hd)) h)
    · exact h
  · exact h

theorem Block.Canonical.lockTimeout {n : Fin 16} (h : b.Canonical mem) : (Machine.lockTimeout n b).Canonical mem := by
  unfold Machine.lockTimeout
  split
  · extract_lets
    exact .ite h (.atInstant (fun _ hd => .lockFail hd) h)
  · exact h

theorem Block.Canonical.lockOpenLoad {n : Fin 16} (h : b.Canonical mem) : (Machine.lockOpenLoad n b).Canonical mem := by
  unfold Machine.lockOpenLoad
  split
  · split
    · exact .ite h (.afterTicks (fun _ hd => .lockFail hd) h)
    · exact h
  · exact h

theorem Block.Canonical.lockOffDelay {n : Fin 16} (h : b.Canonical mem) : (Machine.lockOffDelay n b).Canonical mem := by
  unfold Machine.lockOffDelay
  split
  · split
    · exact .atInstant (fun _ hd => .pilotReview (.only (updVeh_frame _ _ _) (by decide) (.moveOff hd))) h
    · exact h
  · exact h

theorem Block.Canonical.lockRetry {n : Fin 16} (h : b.Canonical mem) : (Machine.lockRetry n b).Canonical mem := by
  unfold Machine.lockRetry
  split
  · split
    · refine .atInstant (fun _ hd => ?_) h
      extract_lets
      exact .hsEntry (.only (updVeh_frame _ _ _) (by decide) hd)
    · exact h
  · exact h

theorem Block.Canonical.lockEntryLost {c : Nat} (h : b.Canonical mem) : (Machine.lockEntryLost c b).Canonical mem := by
  unfold Machine.lockEntryLost
  refine .forAll (fun _ _ hd => ?_) h
  split
  · exact .ite (.lockFail hd) hd
  · exact hd

theorem Block.Canonical.cpRestartEnd {n : Fin 16} (h : b.Canonical mem) : (Machine.cpRestartEnd n b).Canonical mem := by
  unfold Machine.cpRestartEnd
  split
  · exact h
  · exact .atInstant (fun _ hd => .dutyReview (.only (updVeh_frame _ _ _) (by decide) hd)) h

theorem Block.Canonical.vehGetConnector {m : Fin 4} (h : b.Canonical mem) : (Machine.vehGetConnector m b).Canonical mem := by
  unfold Machine.vehGetConnector
  extract_lets
  exact .checked (fun _ hd => .ok hd) h

theorem Block.Canonical.vehSetAvailability {m : Fin 4} (h : b.Canonical mem) : (Machine.vehSetAvailability m b).Canonical mem := by
  unfold Machine.vehSetAvailability
  extract_lets
  refine .checked (fun _ hd => ?_) h
  extract_lets b1 b2
  have hb1 : b1.Canonical mem := .onlyIf (fun _ he => .stopSession he) hd
  have hb2 : b2.Canonical mem := .only (updVeh_frame _ _ _) (by decide) hb1
  exact .ok (.only (saveSettings_frame _) (by decide) (.dutyReview hb2))

theorem Block.Canonical.vehSetPilotCfg {m : Fin 4} (h : b.Canonical mem) : (Machine.vehSetPilotCfg m b).Canonical mem := by
  unfold Machine.vehSetPilotCfg
  extract_lets
  exact .checked (fun _ hd => .ok (.only (saveSettings_frame _) (by decide) (.same hd ⟨rfl, rfl, rfl⟩))) h

theorem Block.Canonical.vehSetPpClass {m : Fin 4} (h : b.Canonical mem) : (Machine.vehSetPpClass m b).Canonical mem := by
  unfold Machine.vehSetPpClass
  extract_lets
  refine .checked (fun _ hd => ?_) h
  extract_lets
  exact .only (cmdLog_frame _ _ _) (by decide) (.ok (.only (saveSettings_frame _) (by decide) (.same hd ⟨rfl, rfl, rfl⟩)))

theorem Block.Canonical.vehSetDerate {m : Fin 4} (h : b.Canonical mem) : (Machine.vehSetDerate m b).Canonical mem := by
  unfold Machine.vehSetDerate
  extract_lets
  refine .checked (fun _ hd => ?_) h
  extract_lets
  exact .only (cmdLog_frame _ _ _) (by decide) (.ok (.only (saveSettings_frame _) (by decide) (.same hd ⟨rfl, rfl, rfl⟩)))

theorem Block.Canonical.vehSetLockCfg {m : Fin 4} (h : b.Canonical mem) : (Machine.vehSetLockCfg m b).Canonical mem := by
  unfold Machine.vehSetLockCfg
  extract_lets
  refine .checked (fun _ hd => ?_) h
  extract_lets b1
  have hb1 : b1.Canonical mem := .only (updVeh_frame _ _ _) (by decide) hd
  exact .ok (.only (saveSettings_frame _) (by decide) (.same hb1 ⟨rfl, rfl, rfl⟩))

theorem Block.Canonical.vehLock {m : Fin 4} (h : b.Canonical mem) : (Machine.vehLock m b).Canonical mem := by
  unfold Machine.vehLock
  extract_lets
  exact .checked (fun _ hd => .startMove hd) h

theorem Block.Canonical.vehCpRestart {m : Fin 4} (h : b.Canonical mem) : (Machine.vehCpRestart m b).Canonical mem := by
  unfold Machine.vehCpRestart
  extract_lets
  refine .checked (fun _ hd => ?_) h
  extract_lets
  exact .ok (.dutyReview (.only (updVeh_frame _ _ _) (by decide) hd))

theorem Block.Canonical.vehClearCounts {m : Fin 4} (h : b.Canonical mem) : (Machine.vehClearCounts m b).Canonical mem := by
  unfold Machine.vehClearCounts
  exact .ok (.forAll (fun _ _ hd => .only (updVeh_frame _ _ _) (by decide) hd) h)

end Machine

end Sys2Proof
end

section
/-! PROOFS. The canonical form of the addressed memories through the operations
of the module link, Sluice, the modems and V2G. -/

namespace Sys2Proof

open Machine

namespace Machine

variable {mem : Addressed} {b : Block}

/-! ### Operations of Machine/ModuleLink.lean -/

theorem Block.Canonical.enumEnd (h : b.Canonical mem) : (Machine.enumEnd b).Canonical mem := by
  unfold Machine.enumEnd
  extract_lets _ _ b1
  have hb1 : b1.Canonical mem := .only (irq_frame _ _) (by decide) (.only (saveSettings_frame _) (by decide) (.only (updLink_frame _ _) (by decide) h))
  split
  · exact .ok hb1
  · exact hb1

theorem Block.Canonical.linkCycle {readback : BitVec 8} (h : b.Canonical mem) : (Machine.linkCycle readback b).Canonical mem := by
  unfold Machine.linkCycle
  extract_lets b1
  have hb1 : b1.Canonical mem := .onlyIf (fun _ hd => .enumEnd hd) h
  split
  · exact .forAll (fun _ _ hd => .only (laneCycle_frame _ _ _ _) (by decide) hd) (.only (updLink_frame _ _) (by decide) hb1)
  · exact .only (bcastGone_frame _ _) (by decide) (.forAll (fun _ _ hd => .only (laneCycle_frame _ _ _ _) (by decide) hd) (.only (updLink_frame _ _)
        (by decide) hb1))

theorem Block.Canonical.doubleClose {l : Fin 8} (h : b.Canonical mem) : (Machine.doubleClose l b).Canonical mem := by
  unfold Machine.doubleClose
  exact .ite h (.deviceFault (.only (irq_frame _ _) (by decide) (.only (updLane_frame _ _ _) (by decide) h)))

theorem Block.Canonical.takeRecord {l : Fin 8} {p : Fin 12} {data : List U8} {passed : Bool} (h : b.Canonical mem) :
    (Machine.takeRecord l p data passed b).Canonical mem := by
  unfold Machine.takeRecord
  extract_lets _ _ _ b1
  have hb1 : b1.Canonical mem := .onlyIf (fun _ hd => .only (irq_frame _ _) (by decide) hd) (.only (updMlk_frame _ _ _) (by decide) h)
  exact .onlyIf (fun _ hd => .doubleClose hd) hb1

theorem Block.Canonical.uplinkEnd {l : Fin 8} {p : Fin 12} {x : UplinkSlot} (h : b.Canonical mem) : (Machine.uplinkEnd l p x b).Canonical mem := by
  unfold Machine.uplinkEnd
  extract_lets _ _ _ _ _ _ _ _ _ _ b1 b2
  have hb1 : b1.Canonical mem := .only (updLane_frame _ _ _) (by decide) (.ite h (.only (slotFails_frame _ _ _ _) (by decide) h))
  have hb2 : b2.Canonical mem := .ite (.takeRecord hb1) (.ite (.only (takeIdentity_frame _ _ _ _) (by decide) hb1) hb1)
  exact .ite (.only (vetoActs_frame _ _ _ _ _ _ _ _) (by decide) hb2) (.only (updLane_frame _ _ _) (by decide) hb2)

theorem Block.Canonical.uplinkSlot {l : Fin 8} {p : Fin 12} {x : UplinkSlot} (h : b.Canonical mem) : (Machine.uplinkSlot l p x b).Canonical mem := by
  unfold Machine.uplinkSlot
  exact .ite (.atInstant (fun _ hd => .uplinkEnd (.only (updLane_frame _ _ _) (by decide) hd)) h) h

theorem Block.Canonical.ocTrip {n : Fin 16} (h : b.Canonical mem) : (Machine.ocTrip n b).Canonical mem := by
  unfold Machine.ocTrip
  extract_lets b1
  have hb1 : b1.Canonical mem := .only (irq_frame _ _) (by decide) (.only (updLink_frame _ _) (by decide) h)
  exact .ite h (.ite (.softFault hb1) hb1)

theorem Block.Canonical.laneFault {l : Fin 8} (h : b.Canonical mem) : (Machine.laneFault l b).Canonical mem := by
  unfold Machine.laneFault
  extract_lets _ b1 _ b2
  have hb1 : b1.Canonical mem := .only (irq_frame _ _) (by decide) (.only (updLane_frame _ _ _) (by decide) h)
  have hb2 : b2.Canonical mem := .onlyIf (fun _ hd => .only (irq_frame _ _) (by decide) hd) (.same hb1 ⟨rfl, rfl, rfl⟩)
  exact .ite (.deviceFault hb2) h

theorem Block.Canonical.mlkGetLane {m : Fin 4} (h : b.Canonical mem) : (Machine.mlkGetLane m b).Canonical mem := by
  unfold Machine.mlkGetLane
  extract_lets
  exact .checked (fun _ hd => .ok hd) h

theorem Block.Canonical.mlkGetTelemetry {m : Fin 4} (h : b.Canonical mem) : (Machine.mlkGetTelemetry m b).Canonical mem := by
  unfold Machine.mlkGetTelemetry
  extract_lets
  exact .checked (fun _ hd => .ok hd) h

theorem Block.Canonical.mlkEnumerate {m : Fin 4} (h : b.Canonical mem) : (Machine.mlkEnumerate m b).Canonical mem := by
  unfold Machine.mlkEnumerate
  extract_lets
  refine .checked (fun _ hd => ?_) h
  extract_lets b1
  have hb1 : b1.Canonical mem := .only (updLink_frame _ _) (by decide) hd
  exact .ite (.only (bcastAsk_frame _ _) (by decide) hb1) (.enumEnd hb1)

theorem Block.Canonical.mlkGetIdentity {m : Fin 4} (h : b.Canonical mem) : (Machine.mlkGetIdentity m b).Canonical mem := by
  unfold Machine.mlkGetIdentity
  extract_lets
  exact .checked (fun _ hd => .ok hd) h

theorem Block.Canonical.mlkSetEnrolled {m : Fin 4} (h : b.Canonical mem) : (Machine.mlkSetEnrolled m b).Canonical mem := by
  unfold Machine.mlkSetEnrolled
  extract_lets
  exact .checked (fun _ hd => .ok (.only (saveSettings_frame _) (by decide) (.only (updLane_frame _ _ _) (by decide) hd))) h

theorem Block.Canonical.mlkSetOc {m : Fin 4} (h : b.Canonical mem) : (Machine.mlkSetOc m b).Canonical mem := by
  unfold Machine.mlkSetOc
  extract_lets
  exact .checked (fun _ hd => .only (cmdLog_frame _ _ _) (by decide) (.ok (.only (saveSettings_frame _) (by decide) (.only (updLink_frame _ _)
      (by decide) hd)))) h

theorem Block.Canonical.mlkSetVetoMask {m : Fin 4} (h : b.Canonical mem) : (Machine.mlkSetVetoMask m b).Canonical mem := by
  unfold Machine.mlkSetVetoMask
  extract_lets
  exact .checked (fun _ hd => .only (cmdLog_frame _ _ _) (by decide) (.ok (.only (saveSettings_frame _) (by decide) (.only (updLink_frame _ _)
      (by decide) hd)))) h

theorem Block.Canonical.mlkIdentify {m : Fin 4} (h : b.Canonical mem) : (Machine.mlkIdentify m b).Canonical mem := by
  unfold Machine.mlkIdentify
  extract_lets
  exact .checked (fun _ hd => .ok (.only (bcastAsk_frame _ _) (by decide) hd)) h

theorem Block.Canonical.mlkResetLane {m : Fin 4} (h : b.Canonical mem) : (Machine.mlkResetLane m b).Canonical mem := by
  unfold Machine.mlkResetLane
  extract_lets
  refine .checked (fun _ hd => ?_) h
  extract_lets
  exact .ok (.only (updLane_frame _ _ _) (by decide) hd)

theorem Block.Canonical.mlkClearCounts {m : Fin 4} (h : b.Canonical mem) : (Machine.mlkClearCounts m b).Canonical mem := by
  unfold Machine.mlkClearCounts
  extract_lets
  exact .ok (.forAll (fun _ _ hd => .ite (.only (updLane_frame _ _ _) (by decide) hd) hd) h)

/-! ### Operations of Machine/HandOver.lean -/

theorem Block.Canonical.hoEntry {m : Fin 96} {action : U8} {arg : Option (Fin 16)} {guard : U16} {t : Nat} (h : b.Canonical mem) :
    (Machine.hoEntry m action arg guard t b).Canonical mem := by
  unfold Machine.hoEntry
  extract_lets
  exact .submit h

theorem Block.Canonical.openEntry {m : Fin 96} {t : Nat} (h : b.Canonical mem) : (Machine.openEntry m t b).Canonical mem := by
  unfold Machine.openEntry
  exact .hoEntry h

theorem Block.Canonical.openCommand {m : Fin 96} (h : b.Canonical mem) : (Machine.openCommand m b).Canonical mem := by
  unfold Machine.openCommand
  exact .hoEntry h

theorem Block.Canonical.snapshotAt {s : Nat} (h : b.Canonical mem) : (Machine.snapshotAt s b).1.Canonical mem := by
  unfold Machine.snapshotAt
  extract_lets
  exact .iteFst h (.iteFst h (.submit h))

theorem Block.Canonical.hoEnd {i : Fin 24} {x : HandOver} (h : b.Canonical mem) : (Machine.hoEnd i x b).Canonical mem := by
  unfold Machine.hoEnd
  exact .only (setHo_frame _ _ _) (by decide) (.cancelEntries h)

theorem Block.Canonical.hoDone {i : Fin 24} {x : HandOver} (h : b.Canonical mem) : (Machine.hoDone i x b).Canonical mem := by
  unfold Machine.hoDone
  extract_lets b1
  have hb1 : b1.Canonical mem := .hoEnd h
  exact .same hb1 ⟨rfl, rfl, rfl⟩

theorem Block.Canonical.hoAbort {i : Fin 24} {x : HandOver} (h : b.Canonical mem) : (Machine.hoAbort i x b).Canonical mem := by
  unfold Machine.hoAbort
  extract_lets b1
  have hb1 : b1.Canonical mem := .hoEnd h
  exact .only (irq_frame _ _) (by decide) (.same hb1 ⟨rfl, rfl, rfl⟩)

theorem Block.Canonical.selectorFault {i : Fin 24} {x : HandOver} (h : b.Canonical mem) : (Machine.selectorFault i x b).Canonical mem := by
  unfold Machine.selectorFault
  extract_lets b1
  have hb1 : b1.Canonical mem := .hoAbort h
  exact .only (moduleOut_frame _ _) (by decide) (.only (irq_frame _ _) (by decide) (.same hb1 ⟨rfl, rfl, rfl⟩))

theorem Block.Canonical.zcFail {i : Fin 24} {x : HandOver} (h : b.Canonical mem) : (Machine.zcFail i x b).Canonical mem := by
  unfold Machine.zcFail
  extract_lets b1 _ b2
  have hb1 : b1.Canonical mem := .hoAbort h
  have hb2 : b2.Canonical mem := .only (moduleOut_frame _ _) (by decide) (.only (irq_frame _ _) (by decide) (.same hb1 ⟨rfl, rfl, rfl⟩))
  split
  · exact .softFault hb2
  · exact hb2

theorem Block.Canonical.hoPass {i : Fin 24} {H : Nat} (h : b.Canonical mem) : (Machine.hoPass i H b).Canonical mem := by
  unfold Machine.hoPass
  extract_lets r
  have hr : r.1.Canonical mem := .snapshotAt h
  split
  · exact h
  · extract_lets b1
    have hb1 : b1.Canonical mem := .only (updSluMod_frame _ _ _) (by decide) hr
    exact .openEntry (.only (updHo_frame _ _ _) (by decide) hb1)

theorem Block.Canonical.hoMatch {i : Fin 24} {t : Nat} (h : b.Canonical mem) : (Machine.hoMatch i t b).Canonical mem := by
  unfold Machine.hoMatch
  split
  · exact h
  · exact .hoEntry (.only (updHo_frame _ _ _) (by decide) h)

theorem Block.Canonical.hoClose {i : Fin 24} {t : Nat} (h : b.Canonical mem) : (Machine.hoClose i t b).Canonical mem := by
  unfold Machine.hoClose
  split
  · exact h
  · extract_lets
    exact .hoEntry (.only (updHo_frame _ _ _) (by decide) h)

theorem Block.Canonical.verifyStop {k : SnapBank} {n : Fin 16} (h : b.Canonical mem) : (Machine.verifyStop k n b).Canonical mem := by
  unfold Machine.verifyStop
  extract_lets _ _ b1 r
  have hb1 : b1.Canonical mem := .only (updSess_frame _ _ _) (by decide) h
  have hr : r.1.Canonical mem := .snapshotAt h
  exact .ite (.ite (.ite (.rampedOpen hb1) hb1) (.ite (.only (updSess_frame _ _ _) (by decide) hr) h)) h

theorem Block.Canonical.handoverVerify (h : b.Canonical mem) : (Machine.handoverVerify b).Canonical mem := by
  unfold Machine.handoverVerify
  extract_lets
  exact .ite h (.afterTicks (fun _ hd => .forAll (fun _ _ he => .verifyStop he) (.eachHo (fun _ _ _ he => .only (verifyOne_frame _ _ _ _)
      (by decide) he) (.only (updSlu_frame _ _) (by decide) hd))) h)

theorem Block.Canonical.verifyAgain {i : Fin 24} {x : HandOver} (h : b.Canonical mem) : (Machine.verifyAgain i x b).Canonical mem := by
  unfold Machine.verifyAgain
  extract_lets r
  have hr : r.1.Canonical mem := .snapshotAt h
  exact .openEntry (.only (updHo_frame _ _ _) (by decide) (.only (updSluMod_frame _ _ _) (by decide) hr))

theorem Block.Canonical.openResolved {i : Fin 24} {x : HandOver} {s : U8} {t : U64} (h : b.Canonical mem) :
    (Machine.openResolved i x s t b).Canonical mem := by
  unfold Machine.openResolved
  exact .ite (.only (updHo_frame _ _ _) (by decide) h) (.ite h (.ite (.ite (.zcFail h) (.hoAbort h)) (.ite (.verifyAgain h) (.openEntry (.only
      (updHo_frame _ _ _) (by decide) h)))))

theorem Block.Canonical.matchResolved {i : Fin 24} {x : HandOver} {s : U8} {t : U64} (h : b.Canonical mem) :
    (Machine.matchResolved i x s t b).Canonical mem := by
  unfold Machine.matchResolved
  exact .ite (.only (updHo_frame _ _ _) (by decide) h) (.ite h (.hoAbort h))

theorem Block.Canonical.closeResolved {i : Fin 24} {x : HandOver} {s : U8} {t : U64} (h : b.Canonical mem) :
    (Machine.closeResolved i x s t b).Canonical mem := by
  unfold Machine.closeResolved
  exact .ite (.only (updHo_frame _ _ _) (by decide) (.only (updSluMod_frame _ _ _) (by decide) h)) (.ite h (.ite (.hoAbort h) (.only
      (updHo_frame _ _ _) (by decide) h)))

theorem Block.Canonical.laneLate {l : Fin 8} {t : U64} (h : b.Canonical mem) : (Machine.laneLate l t b).Canonical mem := by
  unfold Machine.laneLate
  exact .eachHo (fun _ _ _ hd => .ite (.only (rampDropped_frame _ _) (by decide) (.hoAbort hd)) hd) (.only (setpointsStay_frame _ _ _) (by decide) h)

theorem Block.Canonical.sluResolved {r : Nat} {e : Entry} {s : U8} {t : U64} (h : b.Canonical mem) : (Machine.sluResolved r e s t b).Canonical mem := by
  unfold Machine.sluResolved
  refine .dite (fun _ => ?_) (fun _ => h)
  extract_lets
  refine .ite (.ite (.laneLate h) h) ?_
  split
  · exact h
  · split
    · exact h
    · exact .ite (.ite (.openResolved h) h) (.ite (.ite (.matchResolved h) h) (.ite (.closeResolved h) h))

theorem Block.Canonical.moduleLeft {m : Fin 96} {n : Fin 16} {since_ : Option U64} (h : b.Canonical mem) :
    (Machine.moduleLeft m n since_ b).Canonical mem := by
  unfold Machine.moduleLeft
  extract_lets _ b1 b2
  have hb1 : b1.Canonical mem := .imdTopology (.only (updSluMod_frame _ _ _) (by decide) h)
  have hb2 : b2.Canonical mem := by
    unfold b2
    split
    · exact .only (imdDisturb_frame _ _ _) (by decide) hb1
    · exact hb1
  exact .onlyIf (fun _ hd => .only (moduleOut_frame _ _) (by decide) hd) hb2

theorem Block.Canonical.followContacts {c : Nat} {m : Fin 96} (h : b.Canonical mem) : (Machine.followContacts c m b).Canonical mem := by
  unfold Machine.followContacts
  split
  · exact h
  · refine .ite h ?_
    split
    · exact .moduleLeft h
    · split
      · exact h
      · exact .ite h (.moduleLeft (.ite (.hoAbort h) (.hoEnd h)))

theorem Block.Canonical.evaluateOne {c : Nat} {i : Fin 24} {x : HandOver} (h : b.Canonical mem) : (Machine.evaluateOne c i x b).Canonical mem := by
  unfold Machine.evaluateOne
  extract_lets
  split
  · split
    · exact .ite (.only (updHo_frame _ _ _) (by decide) h) h
    · exact h
  · split
    · exact .ite (.only (updHo_frame _ _ _) (by decide) h) h
    · exact h
  · exact h
  · split
    · extract_lets b1
      have hb1 : b1.Canonical mem := .moduleLeft h
      refine .ite ?_ h
      split
      · exact .hoDone hb1
      · exact .hoMatch hb1
    · exact .hoDone h
  · split
    · extract_lets _ b1
      have hb1 : b1.Canonical mem := .only (updHo_frame _ _ _) (by decide) h
      exact .ite (.hoAbort h) (.ite (.hoClose hb1) hb1)
    · exact h
  · split
    · exact .ite (.openCommand (.hoAbort h)) (.ite (.only (imdDisturb_frame _ _ _) (by decide) (.imdTopology (.only (updHo_frame _ _ _)
          (by decide) h))) h)
    · exact .ite (.hoAbort h) h
  · refine .ite (.hoAbort h) ?_
    split
    · exact .ite (.hoDone h) h
    · exact h

theorem Block.Canonical.leaveAdmission {n : Fin 16} (h : b.Canonical mem) : (Machine.leaveAdmission n b).Canonical mem := by
  unfold Machine.leaveAdmission
  extract_lets
  exact .ite (.pilotCheck (.enterPhase h)) h

theorem Block.Canonical.handoverEvaluate (h : b.Canonical mem) : (Machine.handoverEvaluate b).Canonical mem := by
  unfold Machine.handoverEvaluate
  extract_lets
  refine .atInstant (fun _ hd => ?_) h
  extract_lets b1
  have hb1 : b1.Canonical mem := .only (updSlu_frame _ _) (by decide) hd
  exact .forAll (fun _ _ he => .leaveAdmission he) (.eachHo (fun _ _ _ he => .evaluateOne he) (.forAll (fun _ _ he => .followContacts he) hb1))

theorem Block.Canonical.handoverTimeout {i : Fin 24} (h : b.Canonical mem) : (Machine.handoverTimeout i b).Canonical mem := by
  unfold Machine.handoverTimeout
  split
  · exact h
  · split
    · exact .afterTicks (fun _ hd => .selectorFault hd) h
    · exact .afterTicks (fun _ hd => .hoAbort hd) h
    · exact .afterTicks (fun _ hd => .openCommand (.selectorFault hd)) h
    · exact h

theorem Block.Canonical.leaveWaitTimeout {i : Fin 24} (h : b.Canonical mem) : (Machine.leaveWaitTimeout i b).Canonical mem := by
  unfold Machine.leaveWaitTimeout
  split
  · exact h
  · exact .ite (.hoEnd h) h

theorem Block.Canonical.stopMeets {n : Fin 16} {i : Fin 24} {x : HandOver} (h : b.Canonical mem) : (Machine.stopMeets n i x b).Canonical mem := by
  unfold Machine.stopMeets
  extract_lets
  refine .ite h ?_
  split
  · exact .ite (.only (updHo_frame _ _ _) (by decide) h) (.ite (.hoEnd h) (.only (updHo_frame _ _ _) (by decide) h))
  · exact .only (updHo_frame _ _ _) (by decide) h
  · exact .only (updHo_frame _ _ _) (by decide) h
  · exact .only (updHo_frame _ _ _) (by decide) h
  · exact .hoEnd h
  · exact .ite h (.ite (.hoEnd h) (.hoEnd h))
  · exact .ite (.hoEnd h) h

theorem Block.Canonical.destinationGone {n : Fin 16} {i : Fin 24} {x : HandOver} (h : b.Canonical mem) :
    (Machine.destinationGone n i x b).Canonical mem := by
  unfold Machine.destinationGone
  exact .ite (.stopMeets h) h

theorem Block.Canonical.insulationMeets {n : Fin 16} {i : Fin 24} {x : HandOver} (h : b.Canonical mem) :
    (Machine.insulationMeets n i x b).Canonical mem := by
  unfold Machine.insulationMeets
  refine .ite (.ite (.openCommand (.hoAbort h)) (.hoAbort h)) (.ite ?_ h)
  split
  · exact h
  · exact h
  · exact h
  · exact .hoAbort h

theorem Block.Canonical.leaveWithStop {n : Fin 16} {B : U64} {H : Nat} {m : Fin 96} (h : b.Canonical mem) :
    (Machine.leaveWithStop n B H m b).Canonical mem := by
  unfold Machine.leaveWithStop
  extract_lets b1
  have hb1 : b1.Canonical mem := .only (hoNew_frame _ _ _ _ _ _) (by decide) h
  split
  · exact .hoPass hb1
  · exact hb1

theorem Block.Canonical.takeStop {n : Fin 16} {B : U64} (h : b.Canonical mem) : (Machine.takeStop n B b).Canonical mem := by
  unfold Machine.takeStop
  extract_lets _ b1 _ _ _ r b2
  have hb1 : b1.Canonical mem := .eachHo (fun _ _ _ hd => .stopMeets hd) h
  have hr : r.1.Canonical mem := .snapshotAt hb1
  have hb2 : b2.Canonical mem := .only (updSess_frame _ _ _) (by decide) hr
  exact .ite (.onlyIf (fun _ hd => .rampedOpen hd) (.only (updSess_frame _ _ _) (by decide) hb1)) (.forAll (fun _ _ hd => .leaveWithStop hd) hb2)

/-! ### Operations of Machine/Tide.lean -/

theorem Block.Canonical.setTod {anchor sec : U64} (h : b.Canonical mem) : (Machine.setTod anchor sec b).1.Canonical mem := by
  unfold Machine.setTod
  extract_lets _ _ _ _ b1
  have hb1 : b1.Canonical mem := .only (updTide_frame _ _) (by decide) h
  exact .only (syncRtc_frame _) (by decide) (.clockChanged hb1)

theorem Block.Canonical.tideGetTime {m : Fin 4} (h : b.Canonical mem) : (Machine.tideGetTime m b).Canonical mem := by
  unfold Machine.tideGetTime
  extract_lets
  exact .ite (.ok h) (.ok h)

theorem Block.Canonical.tideSetTrim {m : Fin 4} (h : b.Canonical mem) : (Machine.tideSetTrim m b).Canonical mem := by
  unfold Machine.tideSetTrim
  extract_lets
  exact .respond (.only (setTrim_frame _ _) (by decide) h)

theorem Block.Canonical.tidePpsConfig {m : Fin 4} (h : b.Canonical mem) : (Machine.tidePpsConfig m b).Canonical mem := by
  unfold Machine.tidePpsConfig
  exact .ok (.only (setPps_frame _ _ _ _ _) (by decide) h)

theorem Block.Canonical.tideSetTod {m : Fin 4} (h : b.Canonical mem) : (Machine.tideSetTod m b).Canonical mem := by
  unfold Machine.tideSetTod
  refine .checked (fun _ hd => ?_) h
  extract_lets r
  have hr : r.1.Canonical mem := .setTod hd
  exact .ok hr

theorem Block.Canonical.tideSnapshot {m : Fin 4} (h : b.Canonical mem) : (Machine.tideSnapshot m b).Canonical mem := by
  unfold Machine.tideSnapshot
  extract_lets
  refine .checked (fun _ hd => ?_) h
  extract_lets _ _ r
  have hr : r.1.Canonical mem := .submitEntry hd
  exact .ite hr (.internalFail hr)

theorem Block.Canonical.tideSubmit {m : Fin 4} (h : b.Canonical mem) : (Machine.tideSubmit m b).Canonical mem := by
  unfold Machine.tideSubmit
  extract_lets
  refine .checked (fun _ hd => ?_) h
  extract_lets x
  have hx : x.1.Canonical mem := .submitEntry hd
  exact .ite (.ok hx) (.internalFail hx)

theorem Block.Canonical.tideCancel {m : Fin 4} (h : b.Canonical mem) : (Machine.tideCancel m b).Canonical mem := by
  unfold Machine.tideCancel
  extract_lets
  refine .checked (fun _ hd => ?_) h
  extract_lets x
  have hx : x.1.Canonical mem := .cancelEntries hd
  exact .ok hx

theorem Block.Canonical.tideRingStatus {m : Fin 4} (h : b.Canonical mem) : (Machine.tideRingStatus m b).Canonical mem := by
  unfold Machine.tideRingStatus
  extract_lets
  refine .checked (fun _ hd => ?_) h
  extract_lets
  exact .ok hd

theorem Block.Canonical.tideClearCounts {m : Fin 4} (h : b.Canonical mem) : (Machine.tideClearCounts m b).Canonical mem := by
  unfold Machine.tideClearCounts
  extract_lets
  exact .ok (.same h ⟨rfl, rfl, rfl⟩)

/-! ### Operations of Machine/Sluice.lean -/

theorem Block.Canonical.outcomeChanged {H : U64} {n : Fin 16} (h : b.Canonical mem) : (Machine.outcomeChanged H n b).Canonical mem := by
  unfold Machine.outcomeChanged
  extract_lets
  exact .sendTo (.only (irq_frame _ _) (by decide) h)

theorem Block.Canonical.showReport {H : U64} {n : Fin 16} {r : SluReport} (h : b.Canonical mem) : (Machine.showReport H n r b).Canonical mem := by
  unfold Machine.showReport
  extract_lets _ _ b1 _ b2
  have hb1 : b1.Canonical mem := .only (updSess_frame _ _ _) (by decide) h
  have hb2 : b2.Canonical mem := .ite (.same hb1 ⟨rfl, rfl, rfl⟩) hb1
  exact .onlyIf (fun _ hd => .outcomeChanged hd) hb2

theorem Block.Canonical.applyReport {H : U64} {n : Fin 16} {r : SluReport} (h : b.Canonical mem) : (Machine.applyReport H n r b).Canonical mem := by
  unfold Machine.applyReport
  extract_lets
  split
  · exact .only (updSess_frame _ _ _) (by decide) h
  · exact .only (updSess_frame _ _ _) (by decide) h
  · exact .only (updSess_frame _ _ _) (by decide) h
  · exact .ite (.only (updSess_frame _ _ _) (by decide) h) (.ite (.only (updSess_frame _ _ _) (by decide) h) (.showReport h))
  · exact .ite (.only (updSess_frame _ _ _) (by decide) h) (.ite (.only (updSess_frame _ _ _) (by decide) h) (.showReport h))
  · exact .ite (.only (updSess_frame _ _ _) (by decide) h) (.ite (.only (updSess_frame _ _ _) (by decide) h) (.showReport h))
  · exact .ite (.only (updSess_frame _ _ _) (by decide) h) (.ite (.only (updSess_frame _ _ _) (by decide) h) (.showReport h))
  · exact .showReport h

theorem Block.Canonical.applyRefusal {x : SluNext} {a : Nat × U8} (h : b.Canonical mem) : (Machine.applyRefusal x a b).Canonical mem := by
  unfold Machine.applyRefusal
  extract_lets _ b1
  have hb1 : b1.Canonical mem := .same h ⟨rfl, rfl, rfl⟩
  refine .dite (fun _ => ?_) (fun _ => h)
  extract_lets
  exact .ite (.stopSession (.only (updSess_frame _ _ _) (by decide) hb1)) h

theorem Block.Canonical.applyNext {H : U64} {x : SluNext} (h : b.Canonical mem) : (Machine.applyNext H x b).Canonical mem := by
  unfold Machine.applyNext
  extract_lets _ _ b1 b2 b3 b4 b5 b6
  have hb1 : b1.Canonical mem := .only (updSlu_frame _ _) (by decide) h
  have hb2 : b2.Canonical mem := .onlyIf (fun _ hd => .only (irq_frame _ _) (by decide) hd) hb1
  have hb3 : b3.Canonical mem := .forAll (fun _ _ hd => .only (updSess_frame _ _ _) (by decide) hd) hb2
  have hb4 : b4.Canonical mem := .forAll (fun _ _ hd => .only (updSess_frame _ _ _) (by decide) hd) hb3
  have hb5 : b5.Canonical mem := .forAll (fun _ _ hd => .only (applyAdmission_frame _ _ _) (by decide) hd) hb4
  have hb6 : b6.Canonical mem := .forAll (fun _ _ hd => .applyReport hd) hb5
  exact .forAll (fun _ _ hd => .applyRefusal hd) hb6

theorem Block.Canonical.boundaryAt {B : U64} (h : b.Canonical mem) : (Machine.boundaryAt B b).Canonical mem := by
  unfold Machine.boundaryAt
  extract_lets b1 b2
  have hb1 : b1.Canonical mem := .only (applyService_frame _ _) (by decide) (.only (applyTune_frame _ _) (by decide) h)
  have hb2 : b2.Canonical mem := by
    unfold b2
    split
    · exact .applyNext hb1
    · exact hb1
  exact .only (trailingCommit_frame _) (by decide) (.only (latchStep_frame _ _) (by decide) (.only (checkItem_frame _ _) (by decide) (.only
      (trimStep_frame _) (by decide) (.only (latchFrame_frame _ _) (by decide) (.only (noteMap_frame _ _) (by decide) hb2)))))

theorem Block.Canonical.allocationBoundary (h : b.Canonical mem) : (Machine.allocationBoundary b).Canonical mem := by
  unfold Machine.allocationBoundary
  extract_lets
  exact .atInstant (fun _ hd => .boundaryAt hd) h

theorem Block.Canonical.takeStops {L : SluLatch} (h : b.Canonical mem) : (Machine.takeStops L b).Canonical mem := by
  unfold Machine.takeStops
  refine .forAll (fun _ _ hd => ?_) h
  extract_lets _ b1
  have hb1 : b1.Canonical mem := .ite (.eachHo (fun _ _ _ he => .insulationMeets he) hd) hd
  exact .ite (.takeStop hb1) (.ite hb1 (.ite (.eachHo (fun _ _ _ he => .destinationGone he) hb1) (.only (updSess_frame _ _ _) (by decide) (.eachHo
      (fun _ _ _ he => .stopMeets he) hb1))))

theorem Block.Canonical.beginMove {L : SluLatch} {x y : Assignment} {m : Fin 96} (h : b.Canonical mem) : (Machine.beginMove L x y m b).Canonical mem := by
  unfold Machine.beginMove
  extract_lets from_ to_ begun
  have hbegun : begun.Canonical mem := .only (hoNew_frame _ _ _ _ _ _) (by decide) h
  clear_value from_
  refine .ite h ?_
  split
  · exact .only (hoNew_frame _ _ _ _ _ _) (by decide) h
  · split
    · exact .hoMatch hbegun
    · exact hbegun

theorem Block.Canonical.laneEntry {os : List Order} {H : Nat} {l : Fin 8} (h : b.Canonical mem) : (Machine.laneEntry os H l b).Canonical mem := by
  unfold Machine.laneEntry
  extract_lets
  exact .submit h

/-- One module of the moves that wait: its block keeps the form. -/
theorem Block.Canonical.waitOne {L : SluLatch} {g : List Nat} {H : Nat} {a : Waits} {m : Fin 96} (h : a.block.Canonical mem) :
    (Machine.waitOne L g H a m).block.Canonical mem := by
  unfold Machine.waitOne
  split
  · exact h
  split
  · exact h
  split
  · rename_i i _ _ _ _ _ _ _ _ _ _ _
    have hstay : (updHo i (fun x => { x with waited := x.waited + 1 }) a.block).Canonical mem := .only (updHo_frame _ _ _) (by decide) h
    have hgo : ∀ o f, (updSess o f (Machine.hoPass i H a.block)).Canonical mem := fun o f => .only (updSess_frame _ _ _) (by decide) (.hoPass h)
    dsimp only
    split
    · exact hstay
    · split
      · exact hgo _ _
      · split
        · exact hgo _ _
        · exact hstay
  · exact h

theorem Block.Canonical.waits {L : SluLatch} {g : List Nat} {H : Nat} {a : Waits} {l : List (Fin 96)} (h : a.block.Canonical mem) :
    (l.foldl (Machine.waitOne L g H) a).block.Canonical mem := by
  induction l generalizing a with
  | nil => exact h
  | cons m l ih => exact ih (.waitOne h)

theorem Block.Canonical.publishSolve {L : SluLatch} (h : b.Canonical mem) : (Machine.publishSolve L b).Canonical mem := by
  unfold Machine.publishSolve
  extract_lets _ b1 _ b2 _ _ _ _ _ _ _ _ _ _ b3 b4 _ _ b5 _ _ b6
  have hb1 : b1.Canonical mem := .onlyIf (fun _ hd => .takeStops hd) (.only (updSlu_frame _ _) (by decide) h)
  have hb2 : b2.Canonical mem := .ite hb1 (.only (irq_frame _ _) (by decide) (.forAll (fun _ _ hd => .softFault hd) hb1))
  have hb3 : b3.Canonical mem := .ite (.same hb2 ⟨rfl, rfl, rfl⟩) hb2
  have hb4 : b4.Canonical mem := .forAll (fun _ _ hd => .beginMove hd) hb3
  have hb5 : b5.Canonical mem := by
    refine .forAll (fun _ _ hd => ?_) (.waits hb4)
    split
    · exact .only (updSess_frame _ _ _) (by decide) hd
    · exact hd
  have hb6 : b6.Canonical mem := .forAll (fun _ _ hd => .laneEntry hd) hb5
  exact .only (updSlu_frame _ _) (by decide) hb6

theorem Block.Canonical.sluicePublish (h : b.Canonical mem) : (Machine.sluicePublish b).Canonical mem := by
  unfold Machine.sluicePublish
  split
  · exact h
  · exact .afterTicks (fun _ hd => .publishSolve hd) h

theorem Block.Canonical.reasonHoldExpired {n : Fin 16} (h : b.Canonical mem) : (Machine.reasonHoldExpired n b).Canonical mem := by
  unfold Machine.reasonHoldExpired
  extract_lets
  exact .ite (.outcomeChanged (.only (updSess_frame _ _ _) (by decide) h)) h

theorem Block.Canonical.prechargeDone {n : Fin 16} (h : b.Canonical mem) : (Machine.prechargeDone n b).Canonical mem := by
  unfold Machine.prechargeDone
  extract_lets
  exact .ite (.onlyIf (fun _ hd => .enterPhase hd) (.only (updSess_frame _ _ _) (by decide) h)) h

theorem Block.Canonical.prechargeTimeout {n : Fin 16} (h : b.Canonical mem) : (Machine.prechargeTimeout n b).Canonical mem := by
  unfold Machine.prechargeTimeout
  extract_lets
  exact .ite (.afterTicks (fun _ hd => .stopSession hd) h) h

theorem Block.Canonical.sluSetSite {m : Fin 4} (h : b.Canonical mem) : (Machine.sluSetSite m b).Canonical mem := by
  unfold Machine.sluSetSite
  extract_lets
  refine .checked (fun _ hd => ?_) h
  extract_lets b1
  have hb1 : b1.Canonical mem := .only (saveSettings_frame _) (by decide) (.only (updSlu_frame _ _) (by decide) hd)
  exact .respond hb1

theorem Block.Canonical.sluSetConnector {m : Fin 4} (h : b.Canonical mem) : (Machine.sluSetConnector m b).Canonical mem := by
  unfold Machine.sluSetConnector
  extract_lets
  exact .checked (fun _ hd => .ok (.only (saveSettings_frame _) (by decide) (.only (updSess_frame _ _ _) (by decide) hd))) h

theorem Block.Canonical.sluSetTuning {m : Fin 4} (h : b.Canonical mem) : (Machine.sluSetTuning m b).Canonical mem := by
  unfold Machine.sluSetTuning
  extract_lets
  exact .checked (fun _ hd => .ok (.only (saveSettings_frame _) (by decide) (.only (updSlu_frame _ _) (by decide) hd))) h

theorem Block.Canonical.sluGetNode {m : Fin 4} (h : b.Canonical mem) : (Machine.sluGetNode m b).Canonical mem := by
  unfold Machine.sluGetNode
  extract_lets
  refine .checked (fun _ hd => ?_) h
  extract_lets
  exact .ok hd

theorem Block.Canonical.sluGetMap {m : Fin 4} (h : b.Canonical mem) : (Machine.sluGetMap m b).Canonical mem := by
  unfold Machine.sluGetMap
  exact .ok h

theorem Block.Canonical.sluModuleService {m : Fin 4} (h : b.Canonical mem) : (Machine.sluModuleService m b).Canonical mem := by
  unfold Machine.sluModuleService
  extract_lets
  refine .checked (fun _ hd => ?_) h
  extract_lets
  exact .ite (.ok (.only (updSluMod_frame _ _ _) (by decide) hd)) (.ok (.only (updSlu_frame _ _) (by decide) hd))

theorem Block.Canonical.sluGetHandovers {m : Fin 4} (h : b.Canonical mem) : (Machine.sluGetHandovers m b).Canonical mem := by
  unfold Machine.sluGetHandovers
  extract_lets
  exact .ok h

theorem Block.Canonical.sluClearCounts {m : Fin 4} (h : b.Canonical mem) : (Machine.sluClearCounts m b).Canonical mem := by
  unfold Machine.sluClearCounts
  extract_lets src
  have hsrc : src.Canonical mem := .only (updSlu_frame _ _) (by decide) h
  exact .ok (.same hsrc ⟨rfl, rfl, rfl⟩)

/-! ### Operations of Machine/Weld.lean -/

theorem Block.Canonical.weldUntested {n : Fin 16} (h : b.Canonical mem) : (Machine.weldUntested n b).Canonical mem := by
  unfold Machine.weldUntested
  exact .stopDone (.only (updNode_frame _ _ _) (by decide) h)

theorem Block.Canonical.weldJoined {n : Fin 16} {t : WeldTest} {m : Fin 4} (h : b.Canonical mem) : (Machine.weldJoined n t m b).Canonical mem := by
  unfold Machine.weldJoined
  extract_lets
  split
  · exact .ite (.only (weldBegin_frame _ _ _) (by decide) h) h
  · exact .ite (.only (weldBegin_frame _ _ _) (by decide) h) (.onlyIf (fun _ hd => .refuse hd) (.only (setWeld_frame _ _ _) (by decide) h))

theorem Block.Canonical.weldTestStart {n : Fin 16} (h : b.Canonical mem) : (Machine.weldTestStart n b).Canonical mem := by
  unfold Machine.weldTestStart
  split
  · split
    · exact .weldJoined h
    · exact h
  · refine .ite (.afterTicks (fun _ hd => ?_) h) h
    split
    · exact .only (weldBegin_frame _ _ _) (by decide) hd
    · exact .weldUntested hd

theorem Block.Canonical.weldFault {n : Fin 16} (h : b.Canonical mem) : (Machine.weldFault n b).Canonical mem := by
  unfold Machine.weldFault
  exact .contain (.only (irq_frame _ _) (by decide) (.only (updNode_frame _ _ _) (by decide) h))

theorem Block.Canonical.weldAnswer {m : Fin 4} {result : U8} {d : Nat} (h : b.Canonical mem) : (Machine.weldAnswer m result d b).Canonical mem := by
  unfold Machine.weldAnswer
  exact .ite (.only (cmdLog_frame _ _ _) (by decide) (.ok h)) h

theorem Block.Canonical.weldEnd {n : Fin 16} {t : WeldTest} {welded : Bool} (h : b.Canonical mem) : (Machine.weldEnd n t welded b).Canonical mem := by
  unfold Machine.weldEnd
  extract_lets _ b1 b2 b3
  have hb1 : b1.Canonical mem := .only (setWeld_frame _ _ _) (by decide) (.only (updMlk_frame _ _ _) (by decide) h)
  have hb2 : b2.Canonical mem := .ite (.weldFault hb1) (.only (updNode_frame _ _ _) (by decide) hb1)
  have hb3 : b3.Canonical mem := .only (updNode_frame _ _ _) (by decide) hb2
  split
  · exact .weldAnswer hb3
  · exact .stopDone hb3

theorem Block.Canonical.weldTestCompare {n : Fin 16} (h : b.Canonical mem) : (Machine.weldTestCompare n b).Canonical mem := by
  unfold Machine.weldTestCompare
  split
  · exact h
  · refine .ite h (.afterTicks (fun _ hd => ?_) h)
    split
    · exact .weldEnd hd
    · exact .weldEnd hd
    · exact .ite (.weldEnd hd) (.only (weldBegin_frame _ _ _) (by decide) (.only (updNode_frame _ _ _) (by decide) hd))

theorem Block.Canonical.weldJoin {n : Fin 16} {x : Fin 96} {m : Fin 4} (h : b.Canonical mem) : (Machine.weldJoin n x m b).Canonical mem := by
  unfold Machine.weldJoin
  extract_lets _ b1 b2
  have hb1 : b1.Canonical mem := .only (hoNew_frame _ _ _ _ _ _) (by decide) h
  have hb2 : b2.Canonical mem := by
    unfold b2
    split
    · exact .hoMatch hb1
    · exact hb1
  exact .only (setWeld_frame _ _ _) (by decide) hb2

theorem Block.Canonical.safWeldTest {m : Fin 4} (h : b.Canonical mem) : (Machine.safWeldTest m b).Canonical mem := by
  unfold Machine.safWeldTest
  extract_lets _ _ here other
  clear_value here other
  refine .checked (fun _ hd => ?_) h
  split
  · exact .only (weldBegin_frame _ _ _) (by decide) hd
  · exact .weldJoin hd
  · exact hd

/-! ### Operations of Machine/Association.lean -/

theorem Block.Canonical.startAttenChar {n : Fin 16} {mac : BitVec 48} {runId : U64} {sounds : U8} (h : b.Canonical mem) :
    (Machine.startAttenChar n mac runId sounds b).Canonical mem := by
  unfold Machine.startAttenChar
  extract_lets b1
  have hb1 : b1.Canonical mem := .only (creekItem_frame _ _ _ _) (by decide) h
  split
  · exact hb1
  · extract_lets _ _ b2 b3
    have hb2 : b2.Canonical mem := .only (putRun_frame _ _) (by decide) hb1
    have hb3 : b3.Canonical mem := .ite (.only (updPlc_frame _ _ _) (by decide) hb2) hb2
    exact .ite hb1 (.submit hb3)

theorem Block.Canonical.rearmCapture {e : Entry} (h : b.Canonical mem) : (Machine.rearmCapture e b).Canonical mem := by
  unfold Machine.rearmCapture
  exact .submit h

theorem Block.Canonical.failAttempt {n : Fin 16} {d : BitVec 3} (h : b.Canonical mem) : (Machine.failAttempt n d b).Canonical mem := by
  unfold Machine.failAttempt
  extract_lets _ b1
  have hb1 : b1.Canonical mem := .only (updPlc_frame _ _ _) (by decide) h
  exact .ite h (.ite (.stopSession (.only (irq_frame _ _) (by decide) hb1)) (.dutyReview (.only (updVeh_frame _ _ _) (by decide) (.only
      (updPlc_frame _ _ _) (by decide) hb1))))

theorem Block.Canonical.failRun {n : Fin 16} {k : RunKey} {d : BitVec 3} (h : b.Canonical mem) : (Machine.failRun n k d b).Canonical mem := by
  unfold Machine.failRun
  exact .ite h (.failAttempt h)

theorem Block.Canonical.acceptRun {w : Fin 16} {k : RunKey} {set : SlacSet} {rep : RunReport} (h : b.Canonical mem) :
    (Machine.acceptRun w k set rep b).Canonical mem := by
  unfold Machine.acceptRun
  extract_lets d b1
  have hd : d.1.Canonical mem := .only (draw_frame _ _) (by decide) h
  have hb1 : b1.Canonical mem := .only (updPlc_frame _ _ _) (by decide) hd
  exact .ite (.failAttempt h) (.ite (.only (silence_frame _ _ _) (by decide) hb1) hb1)

theorem Block.Canonical.decideRun {r : SlacRun} {s : Fin 16} (h : b.Canonical mem) : (Machine.decideRun r s b).Canonical mem := by
  unfold Machine.decideRun
  extract_lets _ _ _ b1 b2
  have hb1 : b1.Canonical mem := .forAll (fun _ _ hd => .only (updPlc_frame _ _ _) (by decide) hd) (.only (retireRun_frame _ _) (by decide) h)
  have hb2 : b2.Canonical mem := .only (irq_frame _ _) (by decide) (.only (updPlc_frame _ _ _) (by decide) hb1)
  exact .ite (.only (releaseStarter_frame _ _ _) (by decide) (.acceptRun hb1)) (.ite (.failRun (.only (silence_frame _ _ _) (by decide) hb1)) (.ite
      (.ite (.only (releaseStarter_frame _ _ _) (by decide) (.only (updPlc_frame _ _ _) (by decide) hb2)) (.only (releaseStarter_frame _ _ _)
      (by decide) (.failAttempt hb2))) (.failRun hb1)))

theorem Block.Canonical.applyDecision {r : SlacRun} {s : Fin 16} (h : b.Canonical mem) : (Machine.applyDecision r s b).Canonical mem := by
  unfold Machine.applyDecision
  exact .ite (.only (retireRun_frame _ _) (by decide) h) (.decideRun h)

theorem Block.Canonical.soundingEnd {n : Fin 16} {mac : BitVec 48} {runId : U64} (h : b.Canonical mem) :
    (Machine.soundingEnd n mac runId b).Canonical mem := by
  unfold Machine.soundingEnd
  split
  · exact h
  · split
    · exact h
    · exact .ite (.applyDecision h) (.atInstant (fun _ hd => .applyDecision hd) h)

theorem Block.Canonical.validationEnd {n : Fin 16} {announced : Option Nat} (h : b.Canonical mem) :
    (Machine.validationEnd n announced b).Canonical mem := by
  unfold Machine.validationEnd
  extract_lets
  split
  · exact .ite h (.ite (.only (reportAccepted_frame _ _) (by decide) (.acceptRun h)) (.failAttempt h))
  · exact h

theorem Block.Canonical.vehicleJoined {n : Fin 16} (h : b.Canonical mem) : (Machine.vehicleJoined n b).Canonical mem := by
  unfold Machine.vehicleJoined
  extract_lets b1 b2 b3
  have hb1 : b1.Canonical mem := .only (creekItem_frame _ _ _ _) (by decide) h
  have hb2 : b2.Canonical mem := .only (irq_frame _ _) (by decide) (.only (updPlc_frame _ _ _) (by decide) hb1)
  have hb3 : b3.Canonical mem := .same hb2 ⟨rfl, rfl, rfl⟩
  exact .ite (.enterPhase hb3) hb1

theorem Block.Canonical.slacTimerExpired {n : Fin 16} (h : b.Canonical mem) : (Machine.slacTimerExpired n b).Canonical mem := by
  unfold Machine.slacTimerExpired
  extract_lets
  exact .ite h (.ite (.afterTicks (fun _ hd => .failAttempt hd) h) (.ite (.afterTicks (fun _ hd => .failAttempt hd) h) (.ite (.afterTicks
      (fun _ hd => .failAttempt hd) h) h)))

theorem Block.Canonical.slacRestartEnd {n : Fin 16} (h : b.Canonical mem) : (Machine.slacRestartEnd n b).Canonical mem := by
  unfold Machine.slacRestartEnd
  extract_lets
  exact .ite (.atInstant (fun _ hd => .dutyReview (.only (updVeh_frame _ _ _) (by decide) (.only (updPlc_frame _ _ _) (by decide) hd))) h) h

theorem Block.Canonical.modemFault {n : Fin 16} (h : b.Canonical mem) : (Machine.modemFault n b).Canonical mem := by
  unfold Machine.modemFault
  extract_lets b1
  have hb1 : b1.Canonical mem := .only (v2gClose_frame _ _) (by decide) (.only (irq_frame _ _) (by decide) (.only (updPlc_frame _ _ _) (by decide) h))
  exact .ite h (.ite (.only (updPlc_frame _ _ _) (by decide) hb1) (.deviceFault hb1))

theorem Block.Canonical.plcSetMac {m : Fin 4} (h : b.Canonical mem) : (Machine.plcSetMac m b).Canonical mem := by
  unfold Machine.plcSetMac
  extract_lets
  exact .checked (fun _ hd => .ok (.only (saveSettings_frame _) (by decide) (.only (updPlcG_frame _ _) (by decide) hd))) h

theorem Block.Canonical.modemDisable {n : Fin 16} (h : b.Canonical mem) : (Machine.modemDisable n b).Canonical mem := by
  unfold Machine.modemDisable
  exact .only (v2gClose_frame _ _) (by decide) (.only (updPlc_frame _ _ _) (by decide) (.onlyIf (fun _ hd => .stopSession hd) h))

theorem Block.Canonical.plcEnable {m : Fin 4} (h : b.Canonical mem) : (Machine.plcEnable m b).Canonical mem := by
  unfold Machine.plcEnable
  extract_lets
  refine .checked (fun _ hd => ?_) h
  extract_lets b1
  have hb1 : b1.Canonical mem := .forAll (fun _ _ he => .ite (.only (updPlc_frame _ _ _) (by decide) he) (.modemDisable he)) hd
  exact .ok (.only (saveSettings_frame _) (by decide) hb1)

theorem Block.Canonical.plcSetSlac {m : Fin 4} (h : b.Canonical mem) : (Machine.plcSetSlac m b).Canonical mem := by
  unfold Machine.plcSetSlac
  extract_lets
  exact .checked (fun _ hd => .only (cmdLog_frame _ _ _) (by decide) (.ok (.only (saveSettings_frame _) (by decide) (.only (updPlcG_frame _ _)
      (by decide) hd)))) h

theorem Block.Canonical.plcSetBlank {m : Fin 4} (h : b.Canonical mem) : (Machine.plcSetBlank m b).Canonical mem := by
  unfold Machine.plcSetBlank
  extract_lets
  exact .checked (fun _ hd => .only (cmdLog_frame _ _ _) (by decide) (.ok (.only (saveSettings_frame _) (by decide) (.forAll (fun _ _ he => .only
      (updPlc_frame _ _ _) (by decide) he) hd)))) h

theorem Block.Canonical.plcGetStatus {m : Fin 4} (h : b.Canonical mem) : (Machine.plcGetStatus m b).Canonical mem := by
  unfold Machine.plcGetStatus
  extract_lets
  exact .checked (fun _ hd => .ok hd) h

theorem Block.Canonical.plcGetRun {m : Fin 4} (h : b.Canonical mem) : (Machine.plcGetRun m b).Canonical mem := by
  unfold Machine.plcGetRun
  refine .checked (fun _ hd => ?_) h
  split
  · exact .refuse hd
  · exact .ok hd

theorem Block.Canonical.plcGetProfile {m : Fin 4} (h : b.Canonical mem) : (Machine.plcGetProfile m b).Canonical mem := by
  unfold Machine.plcGetProfile
  extract_lets
  refine .checked (fun _ hd => ?_) h
  split
  · exact .refuse hd
  · extract_lets
    exact .ok hd

theorem Block.Canonical.plcClearCounts {m : Fin 4} (h : b.Canonical mem) : (Machine.plcClearCounts m b).Canonical mem := by
  unfold Machine.plcClearCounts
  exact .ok (.forAll (fun _ _ hd => .only (updPlc_frame _ _ _) (by decide) hd) h)

/-! ### Operations of Machine/Authorise.lean -/

theorem Block.Canonical.admitSession {n : Fin 16} (h : b.Canonical mem) : (Machine.admitSession n b).Canonical mem := by
  unfold Machine.admitSession
  exact .only (openItems_frame _ _) (by decide) (.enterPhase (.only (updSess_frame _ _ _) (by decide) h))

theorem Block.Canonical.useDecision {n : Fin 16} (h : b.Canonical mem) : (Machine.useDecision n b).1.Canonical mem := by
  unfold Machine.useDecision
  extract_lets _ taken r
  have htaken : taken.Canonical mem := .admitSession (.only (updAuth_frame _ _ _) (by decide) h)
  have hr : r.1.Canonical mem := .only (reserve_frame _ _ _ _) (by decide) htaken
  clear_value r taken
  exact .iteFst (.stopSession (.only (updAuth_frame _ _ _) (by decide) h)) (.iteFst htaken (.iteFst hr (.only (updAuth_frame _ _ _) (by decide)
    (.only (reserve_frame _ _ _ _) (by decide) h))))

theorem Block.Canonical.enterAuthorising {n : Fin 16} (h : b.Canonical mem) : (Machine.enterAuthorising n b).Canonical mem := by
  unfold Machine.enterAuthorising
  extract_lets b1
  have hb1 : b1.Canonical mem := .enterPhase h
  exact .ite (.useDecision hb1) hb1

theorem Block.Canonical.sltAuthorise {m : Fin 4} (h : b.Canonical mem) : (Machine.sltAuthorise m b).Canonical mem := by
  unfold Machine.sltAuthorise
  extract_lets
  refine .checked (fun _ hd => .ite ?_ ?_) h
  · extract_lets r
    have hr : r.1.Canonical mem := .useDecision (.only (updAuth_frame _ _ _) (by decide) hd)
    exact .ite (.ok hr) (.refuse hr)
  · extract_lets _ b1
    have hb1 : b1.Canonical mem := .only (updAuth_frame _ _ _) (by decide) hd
    exact .ok hb1

/-! ### Operations of Machine/SettingsOps.lean -/

theorem Block.Canonical.applyPort {x : Settings} (h : b.Canonical mem) : (Machine.applyPort x b).Canonical mem := by
  unfold Machine.applyPort
  extract_lets
  exact .same h ⟨rfl, rfl, rfl⟩

/-! ### Operations of Machine/V2g.lean -/

theorem Block.Canonical.v2gTimeout {n : Fin 16} (h : b.Canonical mem) : (Machine.v2gTimeout n b).Canonical mem := by
  unfold Machine.v2gTimeout
  exact .only (v2gClose_frame _ _) (by decide) (.stopSession (.only (irq_frame _ _) (by decide) (.only (updV2g_frame _ _ _) (by decide) h)))

theorem Block.Canonical.tlsFailure {n : Fin 16} (h : b.Canonical mem) : (Machine.tlsFailure n b).Canonical mem := by
  unfold Machine.tlsFailure
  exact .only (v2gClose_frame _ _) (by decide) (.stopSession (.only (irq_frame _ _) (by decide) (.only (updV2g_frame _ _ _) (by decide) h)))

theorem Block.Canonical.reqAppProtocol {n : Fin 16} {offers : List (Nat × Nat)} {dynamic : Bool} (h : b.Canonical mem) :
    (Machine.reqAppProtocol n offers dynamic b).Canonical mem := by
  unfold Machine.reqAppProtocol
  extract_lets
  refine .ite (.only (v2gFail_frame _ _) (by decide) h) ?_
  split
  · exact .only (v2gFail_frame _ _) (by decide) h
  · extract_lets b1
    have hb1 : b1.Canonical mem := .only (updV2g_frame _ _ _) (by decide) h
    exact .ite (.tlsFailure hb1) (.only (v2gOk_frame _ _) (by decide) hb1)

theorem Block.Canonical.tlsEnds {n : Fin 16} {version : BitVec 2} {good : Bool} (h : b.Canonical mem) :
    (Machine.tlsEnds n version good b).Canonical mem := by
  unfold Machine.tlsEnds
  exact .ite (.only (updV2g_frame _ _ _) (by decide) h) (.tlsFailure h)

theorem Block.Canonical.tlsStepDone {n : Fin 16} {good : Bool} (h : b.Canonical mem) : (Machine.tlsStepDone n good b).Canonical mem := by
  unfold Machine.tlsStepDone
  split
  · exact .ite (.tlsEnds h) h
  · exact h

theorem Block.Canonical.reqTls {n : Fin 16} {version : BitVec 2} {suite : TlsSuite} {curve : TlsCurve} {completes : Bool} (h : b.Canonical mem) :
    (Machine.reqTls n version suite curve completes b).Canonical mem := by
  unfold Machine.reqTls
  extract_lets
  refine .ite (.only (v2gFail_frame _ _) (by decide) h) (.ite (.tlsFailure h) ?_)
  split
  · exact .tlsEnds h
  · exact .only (engineSubmit_frame _ _ _ _) (by decide) (.only (updV2g_frame _ _ _) (by decide) h)
  · exact .only (engineSubmit_frame _ _ _ _) (by decide) (.only (updV2g_frame _ _ _) (by decide) h)

theorem Block.Canonical.reqContract {n : Fin 16} {chain ident : List U8} (h : b.Canonical mem) : (Machine.reqContract n chain ident b).Canonical mem := by
  unfold Machine.reqContract
  extract_lets _ b1
  have hb1 : b1.Canonical mem := .only (updV2g_frame _ _ _) (by decide) h
  exact .ite (.only (v2gFail_frame _ _) (by decide) h) (.ite (.ite (.tlsFailure h) (.only (v2gFail_frame _ _) (by decide) h)) (.only
      (v2gOk_frame _ _) (by decide) (.only (irq_frame _ _) (by decide) (.sendRecords hb1))))

theorem Block.Canonical.reqAuthorization {n : Fin 16} (h : b.Canonical mem) : (Machine.reqAuthorization n b).Canonical mem := by
  unfold Machine.reqAuthorization
  extract_lets b1
  have hb1 : b1.Canonical mem := .ite (.enterAuthorising h) h
  split
  · exact .only (sendAnswer_frame _ _ _) (by decide) hb1
  · exact .only (v2gFail_frame _ _) (by decide) hb1
  · exact .only (v2gFail_frame _ _) (by decide) hb1
  · exact .only (v2gFail_frame _ _) (by decide) hb1
  · exact .only (v2gFail_frame _ _) (by decide) hb1
  · exact .only (v2gFail_frame _ _) (by decide) hb1
  · exact .only (sendOutcome_frame _ _ _ _) (by decide) hb1

theorem Block.Canonical.reqCableCheck {n : Fin 16} (h : b.Canonical mem) : (Machine.reqCableCheck n b).Canonical mem := by
  unfold Machine.reqCableCheck
  extract_lets _ b1
  have hb1 : b1.Canonical mem := .ite (.enterPhase h) h
  exact .ite (.only (sendOutcome_frame _ _ _ _) (by decide) h) (.only (sendOutcome_frame _ _ _ _) (by decide) hb1)

theorem Block.Canonical.prechargeOn {n : Fin 16} (h : b.Canonical mem) : (Machine.prechargeOn n b).Canonical mem := by
  unfold Machine.prechargeOn
  exact .ite (.enterPhase h) h

theorem Block.Canonical.reqPreCharge {n : Fin 16} {targetV targetI presentV : U16} (h : b.Canonical mem) :
    (Machine.reqPreCharge n targetV targetI presentV b).Canonical mem := by
  unfold Machine.reqPreCharge
  extract_lets b1
  have hb1 : b1.Canonical mem := .prechargeOn (.only (updV2g_frame _ _ _) (by decide) h)
  exact .ite (.only (sendOutcome_frame _ _ _ _) (by decide) h) (.only (sendOutcome_frame _ _ _ _) (by decide) hb1)

theorem Block.Canonical.reqPowerStart {n : Fin 16} (h : b.Canonical mem) : (Machine.reqPowerStart n b).Canonical mem := by
  unfold Machine.reqPowerStart
  extract_lets b1
  have hb1 : b1.Canonical mem := .prechargeOn h
  exact .ite (.only (sendOutcome_frame _ _ _ _) (by decide) hb1) (.only (sendOutcome_frame _ _ _ _) (by decide) hb1)

theorem Block.Canonical.reqDemand {n : Fin 16} {maxV maxI maxP targetV targetI presentV : U16} {soc : U8} (h : b.Canonical mem) :
    (Machine.reqDemand n maxV maxI maxP targetV targetI presentV soc b).Canonical mem := by
  unfold Machine.reqDemand
  extract_lets b1 b2
  have hb1 : b1.Canonical mem := .prechargeOn h
  have hb2 : b2.Canonical mem := .only (updV2g_frame _ _ _) (by decide) hb1
  exact .ite (.only (sendOutcome_frame _ _ _ _) (by decide) hb1) (.only (sendOutcome_frame _ _ _ _) (by decide) hb2)

theorem Block.Canonical.reqPowerStop {n : Fin 16} (h : b.Canonical mem) : (Machine.reqPowerStop n b).Canonical mem := by
  unfold Machine.reqPowerStop
  extract_lets b1
  have hb1 : b1.Canonical mem := .ite (.stopSession h) h
  exact .only (sendOutcome_frame _ _ _ _) (by decide) hb1

theorem Block.Canonical.reqSessionStop {n : Fin 16} (h : b.Canonical mem) : (Machine.reqSessionStop n b).Canonical mem := by
  unfold Machine.reqSessionStop
  exact .only (v2gClose_frame _ _) (by decide) (.only (updV2g_frame _ _ _) (by decide) (.reqPowerStop h))

theorem Block.Canonical.v2gServe {n : Fin 16}  {y0 : V2gRequest} (h : b.Canonical mem) : (Machine.v2gServe n b y0).Canonical mem := by
  unfold Machine.v2gServe
  split
  · exact .reqAppProtocol h
  · exact .only (reqSdp_frame _ _) (by decide) h
  · exact .reqTls h
  · exact .only (reqSessionSetup_frame _ _) (by decide) h
  · exact .ite (.only (v2gOk_frame _ _) (by decide) h) (.only (v2gFail_frame _ _) (by decide) h)
  · exact .only (reqExternal_frame _ _) (by decide) h
  · exact .reqContract h
  · exact .reqAuthorization h
  · exact .only (reqParameters_frame _ _ _ _ _ _ _ _) (by decide) h
  · exact .reqCableCheck h
  · exact .reqPreCharge h
  · exact .reqPowerStart h
  · exact .reqDemand h
  · exact .reqPowerStop h
  · exact .only (reqWelding_frame _ _) (by decide) h
  · exact .reqSessionStop h
  · exact .only (v2gFail_frame _ _) (by decide) h

theorem Block.Canonical.v2gRequest {n : Fin 16} {q : V2gRequest} (h : b.Canonical mem) : (Machine.v2gRequest n q b).Canonical mem := by
  unfold Machine.v2gRequest
  extract_lets b1
  have hb1 : b1.Canonical mem := .only (creekItem_frame _ _ _ _) (by decide) h
  exact .ite (.v2gServe (.only (updV2g_frame _ _ _) (by decide) hb1)) hb1

theorem Block.Canonical.v2gSeqTimeout {n : Fin 16} (h : b.Canonical mem) : (Machine.v2gSeqTimeout n b).Canonical mem := by
  unfold Machine.v2gSeqTimeout
  extract_lets
  exact .ite (.afterTicks (fun _ hd => .v2gTimeout hd) h) h

theorem Block.Canonical.v2gLinkLoss {n : Fin 16} {network : Bool} (h : b.Canonical mem) : (Machine.v2gLinkLoss n network b).Canonical mem := by
  unfold Machine.v2gLinkLoss
  extract_lets b1 b2
  have hb1 : b1.Canonical mem := .only (creekItem_frame _ _ _ _) (by decide) h
  have hb2 : b2.Canonical mem := .onlyIf (fun _ hd => .only (updPlc_frame _ _ _) (by decide) hd) hb1
  exact .ite hb1 (.ite hb2 (.ite (.v2gTimeout hb2) (.only (v2gClose_frame _ _) (by decide) hb2)))

theorem Block.Canonical.v2gSetConfig {m : Fin 4} (h : b.Canonical mem) : (Machine.v2gSetConfig m b).Canonical mem := by
  unfold Machine.v2gSetConfig
  extract_lets
  exact .checked (fun _ hd => .ok (.only (saveSettings_frame _) (by decide) (.same hd ⟨rfl, rfl, rfl⟩))) h

theorem Block.Canonical.v2gSetSecc {m : Fin 4} (h : b.Canonical mem) : (Machine.v2gSetSecc m b).Canonical mem := by
  unfold Machine.v2gSetSecc
  extract_lets
  refine .checked (fun _ hd => ?_) h
  extract_lets b1
  have hb1 : b1.Canonical mem := .hostDataConsume hd
  exact .ok (.same hb1 ⟨rfl, rfl, rfl⟩)

theorem Block.Canonical.v2gGetSession {m : Fin 4} (h : b.Canonical mem) : (Machine.v2gGetSession m b).Canonical mem := by
  unfold Machine.v2gGetSession
  extract_lets
  exact .checked (fun _ hd => .ok hd) h

theorem Block.Canonical.v2gClearCounts {m : Fin 4} (h : b.Canonical mem) : (Machine.v2gClearCounts m b).Canonical mem := by
  unfold Machine.v2gClearCounts
  exact .ok (.forAll (fun _ _ hd => .only (updV2g_frame _ _ _) (by decide) hd) h)

end Machine

end Sys2Proof
end

section
/-! PROOFS. The canonical form of the addressed memories through the operations
of the store, billing, Causeway, the panels and the fabric. -/

namespace Sys2Proof

open Machine

namespace Machine

variable {mem : Addressed} {b : Block}

/-! ### Operations of Machine/Peat.lean -/

theorem Block.Canonical.drainCheck (h : b.Canonical mem) : (Machine.drainCheck b).Canonical mem := by
  unfold Machine.drainCheck
  extract_lets b1
  have hb1 : b1.Canonical mem := .only (irq_frame _ _) (by decide) (.only (updArb_frame _ _) (by decide) h)
  refine .ite ?_ h
  split
  · exact .ok (.only (updArb_frame _ _) (by decide) hb1)
  · exact hb1

theorem Block.Canonical.uncorrectable {line : Nat} (h : b.Canonical mem) : (Machine.uncorrectable line b).Canonical mem := by
  unfold Machine.uncorrectable
  extract_lets b1 b2 b3
  have hb1 : b1.Canonical mem := .only (irq_frame _ _) (by decide) (.only (updPea_frame _ _) (by decide) h)
  have hb2 : b2.Canonical mem := .only (legalLog_frame _ _ _ _) (by decide) hb1
  have hb3 : b3.Canonical mem := by
    unfold b3
    split
    · exact .ite hb2 (.only (unproveWallet_frame _ _) (by decide) hb2)
    · exact hb2
  exact .stopAll hb3

theorem Block.Canonical.counterDone {k : Fin 64} {v : Nat} {mbx : Option (Fin 4)} (h : b.Canonical mem) :
    (Machine.counterDone k v mbx b).Canonical mem := by
  unfold Machine.counterDone
  extract_lets b1 b2 b3
  have hb1 : b1.Canonical mem := .only (updPea_frame _ _) (by decide) h
  have hb2 : b2.Canonical mem := .ite (.only (irq_frame _ _) (by decide) (.only (updPea_frame _ _) (by decide) hb1)) hb1
  have hb3 : b3.Canonical mem := .ite (.only (legalLog_frame _ _ _ _) (by decide) (.only (irq_frame _ _) (by decide) (.only (updPea_frame _ _)
      (by decide) hb2))) hb2
  split
  · exact .ok hb3
  · exact hb3

theorem Block.Canonical.storeAct {a : StoreAct} (h : b.Canonical mem) : (Machine.storeAct a b).Canonical mem := by
  unfold Machine.storeAct
  extract_lets
  split
  · exact h
  · exact .only (legalWritten_frame _) (by decide) h
  · exact .counterDone h
  · exact .only (noteSettings_frame _) (by decide) h
  · exact .only (sealChecked_frame _ _ _) (by decide) h
  · exact .same h ⟨rfl, rfl, rfl⟩
  · exact .keyApplied h
  · exact .same h ⟨rfl, rfl, rfl⟩
  · exact .ok (.same h ⟨rfl, rfl, rfl⟩)
  · exact .same h ⟨rfl, rfl, rfl⟩
  · exact .ok h
  · exact .only (closeLedger_frame _ _) (by decide) h
  · exact .only (leased_frame _ _) (by decide) h

theorem Block.Canonical.failTo {m : Option (Fin 4)} (h : b.Canonical mem) : (Machine.failTo m b).Canonical mem := by
  unfold Machine.failTo
  split
  · exact .internalFail h
  · exact h

theorem Block.Canonical.storeFailed {a : StoreAct} (h : b.Canonical mem) : (Machine.storeFailed a b).Canonical mem := by
  unfold Machine.storeFailed
  split
  · exact .failTo h
  · exact .keyNext (.internalFail h)
  · exact .internalFail h
  · exact .only (closeLedger_frame _ _) (by decide) h
  · exact .only (leaseLost_frame _) (by decide) h
  · exact .failTo h
  · exact .only (dropWaiting_frame _) (by decide) h
  · exact h
  · exact h
  · exact h
  · exact h
  · exact h

theorem Block.Canonical.readLines {m : Fin 4} {errs : List U8} (h : b.Canonical mem) : (Machine.readLines m errs b).Canonical mem := by
  unfold Machine.readLines
  extract_lets _ _ _ _ _ b1
  have hb1 : b1.Canonical mem := .forAll (fun _ _ hd => .only (countCorrection_frame _) (by decide) hd) h
  split
  · exact .internalFail (.uncorrectable h)
  · exact .ok hb1

theorem Block.Canonical.readsGo (h : b.Canonical mem) : (Machine.readsGo b).Canonical mem := by
  unfold Machine.readsGo
  exact .forAll (fun _ _ hd => .ite (.readLines hd) hd) (.only (updArb_frame _ _) (by decide) h)

theorem Block.Canonical.portNext {r : Fin 6} (h : b.Canonical mem) : (Machine.portNext r b).Canonical mem := by
  unfold Machine.portNext
  exact .readsGo (.drainCheck (.only (updArb_frame _ _) (by decide) h))

theorem Block.Canonical.lineDone {c : LineCheck} (h : b.Canonical mem) : (Machine.lineDone c b).Canonical mem := by
  unfold Machine.lineDone
  extract_lets b1
  have hb1 : b1.Canonical mem := .onlyIf (fun _ hd => .only (countWrite_frame _) (by decide) hd) h
  split
  · exact h
  · split
    · exact .portNext h
    · extract_lets _ b2
      have hb2 : b2.Canonical mem := .only (updPea_frame _ _) (by decide) (.only (countWrite_frame _) (by decide) (.only (storeLine_frame _ _ _)
          (by decide) hb1))
      exact .ite (.portNext (.only (storeItem_frame _ _ _ _) (by decide) (.storeFailed (.uncorrectable (.only (countWrite_frame _) (by decide)
          (.only (updReq_frame _ _ _) (by decide) hb1)))))) (.ite (.portNext (.only (storeItem_frame _ _ _ _) (by decide) (.storeAct (.only
          (updReq_frame _ _ _) (by decide) hb2)))) (.portNext (.only (updReq_frame _ _ _) (by decide) hb2)))

theorem Block.Canonical.requesterMask {r : Fin 6} {on : Bool} (h : b.Canonical mem) : (Machine.requesterMask r on b).Canonical mem := by
  unfold Machine.requesterMask
  extract_lets _ b1 _ b2 b3 b4
  have hb1 : b1.Canonical mem := .onlyIf (fun _ hd => .only (tearLine_frame _ _) (by decide) hd) h
  have hb2 : b2.Canonical mem := .ite (.same hb1 ⟨rfl, rfl, rfl⟩) hb1
  have hb3 : b3.Canonical mem := .only (updReq_frame _ _ _) (by decide) hb2
  have hb4 : b4.Canonical mem := .only (updArb_frame _ _) (by decide) hb3
  exact .ite (.only (updReq_frame _ _ _) (by decide) h) (.ite (.readsGo (.drainCheck (.only (updArb_frame _ _) (by decide) (.only (irq_frame _ _)
      (by decide) hb4)))) (.drainCheck hb4))

theorem Block.Canonical.holdWatchdog (h : b.Canonical mem) : (Machine.holdWatchdog b).Canonical mem := by
  unfold Machine.holdWatchdog
  split
  · exact h
  · extract_lets b1 b2
    have hb1 : b1.Canonical mem := .only (tearLine_frame _ _) (by decide) h
    have hb2 : b2.Canonical mem := .only (irq_frame _ _) (by decide) (.only (updReq_frame _ _ _) (by decide) hb1)
    exact .readsGo (.drainCheck (.only (updArb_frame _ _) (by decide) hb2))

/-! ### Operations of Machine/PowerFail.lean -/

theorem Block.Canonical.stageFail {st : Nat} (h : b.Canonical mem) : (Machine.stageFail st b).Canonical mem := by
  unfold Machine.stageFail
  split
  · exact h
  · extract_lets b1 b2
    have hb1 : b1.Canonical mem := .only (setSlot_frame _ _ _ _) (by decide) (.only (updUpd_frame _ _) (by decide) h)
    have hb2 : b2.Canonical mem := .only (irq_frame _ _) (by decide) hb1
    split
    · exact .refuse hb2
    · exact hb2

theorem Block.Canonical.pauseAbort {p : Pause} (h : b.Canonical mem) : (Machine.pauseAbort p b).Canonical mem := by
  unfold Machine.pauseAbort
  extract_lets
  refine .ite h ?_
  split
  · exact .only (reviewHub_frame _) (by decide) (.same h ⟨rfl, rfl, rfl⟩)
  · exact .replan (.same h ⟨rfl, rfl, rfl⟩)
  · exact .driveFeed (.forAll (fun _ _ hd => .pilotReview hd) (.same h ⟨rfl, rfl, rfl⟩))
  · exact h

theorem Block.Canonical.updatePowerFail (h : b.Canonical mem) : (Machine.updatePowerFail b).Canonical mem := by
  unfold Machine.updatePowerFail
  extract_lets b1
  have hb1 : b1.Canonical mem := .ite (.stageFail h) h
  split
  · exact hb1
  · extract_lets b2
    have hb2 : b2.Canonical mem := .pauseAbort (.only (updUpd_frame _ _) (by decide) hb1)
    split
    · exact .refuse hb2
    · exact hb2

theorem Block.Canonical.powerFailStop {n : Fin 16} (h : b.Canonical mem) : (Machine.powerFailStop n b).Canonical mem := by
  unfold Machine.powerFailStop
  extract_lets _ b1
  have hb1 : b1.Canonical mem := .only (updSess_frame _ _ _) (by decide) h
  exact .ite (.ite hb1 (.enterPhase hb1)) h

theorem Block.Canonical.powerFailWarning {vin : Bool} (h : b.Canonical mem) : (Machine.powerFailWarning vin b).Canonical mem := by
  unfold Machine.powerFailWarning
  extract_lets b1 b2 _ b3 _ b4 b5
  have hb1 : b1.Canonical mem := .only (updPf_frame _ _) (by decide) h
  have hb2 : b2.Canonical mem := .only (traceItem_frame _ _ _ _ _) (by decide) hb1
  have hb3 : b3.Canonical mem := .only (updPf_frame _ _) (by decide) hb2
  have hb4 : b4.Canonical mem := .same hb3 ⟨rfl, rfl, rfl⟩
  have hb5 : b5.Canonical mem := .updatePowerFail (.forAll (fun _ _ hd => .pqTruncate hd) (.only (irq_frame _ _) (by decide) hb4))
  exact .ite h (.ite hb2 (.drainCheck (.only (powerFailFreeze_frame _) (by decide) (.forAll (fun _ _ hd => .powerFailStop hd) hb5))))

theorem Block.Canonical.closeDeferred {n : Fin 16} (h : b.Canonical mem) : (Machine.closeDeferred n b).Canonical mem := by
  unfold Machine.closeDeferred
  extract_lets _ _ b1
  have hb1 : b1.Canonical mem := .ite (.only (updVeh_frame _ _ _) (by decide) (.enterPhase (.only (updSess_frame _ _ _) (by decide) h))) h
  exact .only (closeItems_frame _ _ _ _) (by decide) hb1

theorem Block.Canonical.powerFailCleared (h : b.Canonical mem) : (Machine.powerFailCleared b).Canonical mem := by
  unfold Machine.powerFailCleared
  extract_lets b1 b2 b3 b4 b5
  have hb1 : b1.Canonical mem := .only (quiescentCommit_frame _) (by decide) h
  have hb2 : b2.Canonical mem := .only (updPf_frame _ _) (by decide) hb1
  have hb3 : b3.Canonical mem := .only (traceItem_frame _ _ _ _ _) (by decide) hb2
  have hb4 : b4.Canonical mem := .forAll (fun _ _ hd => .closeDeferred hd) hb3
  have hb5 : b5.Canonical mem := .ite (.only (saveUpdate_frame _) (by decide) (.only (updUpd_frame _ _) (by decide) hb4)) hb4
  exact .only (irq_frame _ _) (by decide) (.onlyIf (fun _ hd => .only (liftFreeze_frame _) (by decide) hd) hb5)

theorem Block.Canonical.powerFailClear (h : b.Canonical mem) : (Machine.powerFailClear b).Canonical mem := by
  unfold Machine.powerFailClear
  exact .ite (.afterTicks (fun _ hd => .powerFailCleared hd) h) (.only (updPf_frame _ _) (by decide) h)

theorem Block.Canonical.peaGetStatus {m : Fin 4} (h : b.Canonical mem) : (Machine.peaGetStatus m b).Canonical mem := by
  unfold Machine.peaGetStatus
  exact .ok h

theorem Block.Canonical.peaRead {m : Fin 4} {errs : List U8} (h : b.Canonical mem) : (Machine.peaRead m errs b).Canonical mem := by
  unfold Machine.peaRead
  extract_lets
  refine .checked (fun _ hd => ?_) h
  extract_lets
  exact .ite (.only (updArb_frame _ _) (by decide) hd) (.readLines hd)

theorem Block.Canonical.peaFreeze {m : Fin 4} (h : b.Canonical mem) : (Machine.peaFreeze m b).Canonical mem := by
  unfold Machine.peaFreeze
  extract_lets
  exact .checked (fun _ hd => .ite (.drainCheck (.only (updArb_frame _ _) (by decide) (.only (setFreeze_frame _ _) (by decide) hd))) (.ok (.ite hd
      (.only (liftFreeze_frame _) (by decide) hd)))) h

theorem Block.Canonical.peaSetConfig {m : Fin 4} (h : b.Canonical mem) : (Machine.peaSetConfig m b).Canonical mem := by
  unfold Machine.peaSetConfig
  extract_lets
  exact .checked (fun _ hd => .only (cmdLog_frame _ _ _) (by decide) (.ok (.only (saveSettings_frame _) (by decide) (.only (updPf_frame _ _)
      (by decide) (.only (updArb_frame _ _) (by decide) hd))))) h

theorem Block.Canonical.peaCtrRead {m : Fin 4} (h : b.Canonical mem) : (Machine.peaCtrRead m b).Canonical mem := by
  unfold Machine.peaCtrRead
  extract_lets
  exact .checked (fun _ hd => .ok hd) h

theorem Block.Canonical.peaCtrIncrement {m : Fin 4} (h : b.Canonical mem) : (Machine.peaCtrIncrement m b).Canonical mem := by
  unfold Machine.peaCtrIncrement
  extract_lets
  exact .checked (fun _ hd => .only (ctrIncrement_frame _ _ _ _) (by decide) hd) h

theorem Block.Canonical.peaAckError {m : Fin 4} (h : b.Canonical mem) : (Machine.peaAckError m b).Canonical mem := by
  unfold Machine.peaAckError
  refine .checked (fun _ hd => ?_) h
  extract_lets a b1
  have ha : a.1.Canonical mem := .only (authorise_frame _ _ _ _) (by decide) hd
  have hb1 : b1.Canonical mem := .only (updPea_frame _ _) (by decide) ha
  exact .ite (.ok (.only (legalLog_frame _ _ _ _) (by decide) hb1)) (.refuse ha)

theorem Block.Canonical.peaGetRecovery {m : Fin 4} (h : b.Canonical mem) : (Machine.peaGetRecovery m b).Canonical mem := by
  unfold Machine.peaGetRecovery
  extract_lets
  exact .checked (fun _ hd => .ok hd) h

theorem Block.Canonical.peaClearCounts {m : Fin 4} (h : b.Canonical mem) : (Machine.peaClearCounts m b).Canonical mem := by
  unfold Machine.peaClearCounts
  exact .checked (fun _ hd => .ok (.only (updArb_frame _ _) (by decide) (.only (updPea_frame _ _) (by decide) hd))) h

/-! ### Operations of Machine/Billing.lean -/

theorem Block.Canonical.readingSigned {r : Reading} (h : b.Canonical mem) : (Machine.readingSigned r b).Canonical mem := by
  unfold Machine.readingSigned
  extract_lets b1
  have hb1 : b1.Canonical mem := .sendReading (.only (updSlt_frame _ _) (by decide) h)
  exact .ite (.only (dropItems_frame _ _ _) (by decide) hb1) hb1

theorem Block.Canonical.unitEnds {u : Fin 4} {j : EngineJob} {x : EngineEnd} (h : b.Canonical mem) : (Machine.unitEnds u j x b).Canonical mem := by
  unfold Machine.unitEnds
  extract_lets _ b1 b2
  have hb1 : b1.Canonical mem := .only (remaskFreed_frame _) (by decide) (.same h ⟨rfl, rfl, rfl⟩)
  have hb2 : b2.Canonical mem := .only (engineDispatch_frame _) (by decide) hb1
  split
  · exact hb2
  · exact .tlsStepDone hb2
  · split
    · exact hb2
    · exact .ite (.readingSigned hb2) (.only (readingFailed_frame _ _) (by decide) hb2)

theorem Block.Canonical.signEngineComplete {u : Fin 4} {good : Bool} (h : b.Canonical mem) : (Machine.signEngineComplete u good b).Canonical mem := by
  unfold Machine.signEngineComplete
  split
  · exact h
  · exact .afterTicks (fun _ hd => .unitEnds hd) h

theorem Block.Canonical.heldReadingsFlush (h : b.Canonical mem) : (Machine.heldReadingsFlush b).Canonical mem := by
  unfold Machine.heldReadingsFlush
  exact .ite h (.flushHeld h)

theorem Block.Canonical.refuseLegal {m : Fin 4} {status : Nat} {payload : List U8} (h : b.Canonical mem) :
    (Machine.refuseLegal m status payload b).Canonical mem := by
  unfold Machine.refuseLegal
  exact .respond (.only (irq_frame _ _) (by decide) h)

theorem Block.Canonical.sltLoadCalendar {m : Fin 4} (h : b.Canonical mem) : (Machine.sltLoadCalendar m b).Canonical mem := by
  unfold Machine.sltLoadCalendar
  extract_lets
  refine .checked (fun _ hd => ?_) h
  extract_lets _ b1 b2
  have hb1 : b1.Canonical mem := .only (ctrIncrement_frame _ _ _ _) (by decide) (.hostDataConsume hd)
  have hb2 : b2.Canonical mem := .only (legalLog_frame _ _ _ _) (by decide) hb1
  refine .ite (.refuseLegal hd) ?_
  split
  · exact .refuseLegal hd
  · exact .replan (.only (saveLegalAnswer_frame _ _ _) (by decide) (.only (updSlt_frame _ _) (by decide) hb2))

theorem Block.Canonical.sltGetCalendar {m : Fin 4} (h : b.Canonical mem) : (Machine.sltGetCalendar m b).Canonical mem := by
  unfold Machine.sltGetCalendar
  extract_lets
  refine .checked (fun _ hd => ?_) h
  extract_lets r
  have hr : r.1.Canonical mem := .sendRecords hd
  exact .ite (.ok hr) (.refuse hr)

theorem Block.Canonical.sltSetLegal {m : Fin 4} (h : b.Canonical mem) : (Machine.sltSetLegal m b).Canonical mem := by
  unfold Machine.sltSetLegal
  extract_lets _ _ b1 b2 b3
  have hb1 : b1.Canonical mem := .only (ctrIncrement_frame _ _ _ _) (by decide) h
  have hb2 : b2.Canonical mem := .only (legalLog_frame _ _ _ _) (by decide) hb1
  have hb3 : b3.Canonical mem := .only (updSlt_frame _ _) (by decide) hb2
  split
  · exact .refuseLegal h
  · exact .replan (.only (saveLegalAnswer_frame _ _ _) (by decide) hb3)

theorem Block.Canonical.sltReadRegisters {m : Fin 4} (h : b.Canonical mem) : (Machine.sltReadRegisters m b).Canonical mem := by
  unfold Machine.sltReadRegisters
  split
  · exact .refuse h
  · exact .ok h

theorem Block.Canonical.sltSignReading {m : Fin 4} (h : b.Canonical mem) : (Machine.sltSignReading m b).Canonical mem := by
  unfold Machine.sltSignReading
  extract_lets
  refine .checked (fun _ hd => ?_) h
  extract_lets _ b1
  have hb1 : b1.Canonical mem := .only (takeReading_frame _ _) (by decide) (.only (signHeldAgain_frame _) (by decide) hd)
  exact .ok hb1

theorem Block.Canonical.sltGetTamper {m : Fin 4} (h : b.Canonical mem) : (Machine.sltGetTamper m b).Canonical mem := by
  unfold Machine.sltGetTamper
  exact .ok h

theorem Block.Canonical.sltClearFlags {m : Fin 4} (h : b.Canonical mem) : (Machine.sltClearFlags m b).Canonical mem := by
  unfold Machine.sltClearFlags
  extract_lets _ _ a
  have ha : a.1.Canonical mem := .only (authorise_frame _ _ _ _) (by decide) h
  refine .ite (.refuse ha) (.checked (fun _ hd => ?_) ha)
  extract_lets b1 b2 b3
  have hb1 : b1.Canonical mem := .onlyIf (fun _ he => .only (clearUnproven_frame _) (by decide) he) hd
  have hb2 : b2.Canonical mem := .onlyIf (fun _ he => .only (updSlt_frame _ _) (by decide) he) hb1
  have hb3 : b3.Canonical mem := .onlyIf (fun _ he => .only (clearWallet_frame _ _) (by decide) he) hb2
  exact .ok (.only (saveLegalConfig_frame _) (by decide) (.only (legalLog_frame _ _ _ _) (by decide) hb3))

theorem Block.Canonical.sltSetOutput {m : Fin 4} (h : b.Canonical mem) : (Machine.sltSetOutput m b).Canonical mem := by
  unfold Machine.sltSetOutput
  exact .checked (fun _ hd => .ok (.flushHeld (.only (saveLegalConfig_frame _) (by decide) (.only (updSlt_frame _ _) (by decide) hd)))) h

theorem Block.Canonical.sltSetTamper {m : Fin 4} (h : b.Canonical mem) : (Machine.sltSetTamper m b).Canonical mem := by
  unfold Machine.sltSetTamper
  exact .ok (.only (updBackup_frame _ _) (by decide) h)

theorem Block.Canonical.ledgerMessage {kind : Nat} {m : Fin 4} (h : b.Canonical mem) : (Machine.ledgerMessage kind m b).Canonical mem := by
  unfold Machine.ledgerMessage
  extract_lets _ _ _ _ t b1 b2 b3
  have ht : t.1.Canonical mem := .transfer (fun _ hd => .only (ledgerMove_frame _ _ _ _ _) (by decide) hd) h
  have hb1 : b1.Canonical mem := .only (ctrIncrement_frame _ _ _ _) (by decide) ht
  have hb2 : b2.Canonical mem := .only (irq_frame _ _) (by decide) hb1
  have hb3 : b3.Canonical mem := .only (selfLineAs_frame _ _ _ _ _ _ _ _ _) (by decide) hb2
  split
  · exact .refuse (.only (irq_frame _ _) (by decide) (.only (updBri_frame _ _) (by decide) h))
  · exact .ite (.internalFail ht) (.ite (.only (saveWallet_frame _ _) (by decide) hb3) hb3)

theorem Block.Canonical.briGetWallet {m : Fin 4} (h : b.Canonical mem) : (Machine.briGetWallet m b).Canonical mem := by
  unfold Machine.briGetWallet
  extract_lets
  exact .checked (fun _ hd => .ok hd) h

theorem Block.Canonical.briSetConfig {m : Fin 4} (h : b.Canonical mem) : (Machine.briSetConfig m b).Canonical mem := by
  unfold Machine.briSetConfig
  extract_lets
  refine .checked (fun _ hd => ?_) h
  extract_lets b1
  have hb1 : b1.Canonical mem := .only (updBri_frame _ _) (by decide) hd
  exact .ok (.only (saveLegalConfig_frame _) (by decide) (.only (cmdLog_frame _ _ _) (by decide) hb1))

theorem Block.Canonical.briGetLedger {m : Fin 4} (h : b.Canonical mem) : (Machine.briGetLedger m b).Canonical mem := by
  unfold Machine.briGetLedger
  extract_lets
  exact .checked (fun _ hd => .ok hd) h

theorem Block.Canonical.briAudit {m : Fin 4} (h : b.Canonical mem) : (Machine.briAudit m b).Canonical mem := by
  unfold Machine.briAudit
  exact .ok h

theorem Block.Canonical.briBlock {m : Fin 4} (h : b.Canonical mem) : (Machine.briBlock m b).Canonical mem := by
  unfold Machine.briBlock
  extract_lets
  exact .checked (fun _ hd => .ok (.onlyIf (fun _ he => .only (saveWallet_frame _ _) (by decide) (.only (setWallet_frame _ _ _)
      (by decide) he)) hd)) h

/-! ### Operations of Machine/HostPort.lean -/

theorem Block.Canonical.sysGetVersion {m : Fin 4} (h : b.Canonical mem) : (Machine.sysGetVersion m b).Canonical mem := by
  unfold Machine.sysGetVersion
  exact .ok h

theorem Block.Canonical.sysHpStatus {m : Fin 4} (h : b.Canonical mem) : (Machine.sysHpStatus m b).Canonical mem := by
  unfold Machine.sysHpStatus
  exact .ok h

theorem Block.Canonical.sysHpClear {m : Fin 4} (h : b.Canonical mem) : (Machine.sysHpClear m b).Canonical mem := by
  unfold Machine.sysHpClear
  extract_lets
  exact .ok (.only (cmdLog_frame _ _ _) (by decide) (.same h ⟨rfl, rfl, rfl⟩))

/-! ### Operations of Machine/Causeway.lean -/

theorem Block.Canonical.dropInbound {u : Nat} (h : b.Canonical mem) : (Machine.dropInbound u b).Canonical mem := by
  unfold Machine.dropInbound
  exact .qFree h

theorem Block.Canonical.badRecord {u : Nat} (h : b.Canonical mem) : (Machine.badRecord u b).Canonical mem := by
  unfold Machine.badRecord
  extract_lets
  exact .dropInbound (.same h ⟨rfl, rfl, rfl⟩)

theorem Block.Canonical.judgeRecord {g : Fin 64} {u : Nat} {l : List U8} (h : b.Canonical mem) : (Machine.judgeRecord g u l b).Canonical mem := by
  unfold Machine.judgeRecord
  extract_lets _ _ _ _ _ _ b1
  have hb1 : b1.Canonical mem := .onlyIf (fun _ hd => .only (irq_frame _ _) (by decide) (.same hd ⟨rfl, rfl, rfl⟩)) h
  refine .ite (.dropInbound (.same h ⟨rfl, rfl, rfl⟩)) ?_
  split
  · rename_i heq
    extract_lets
    exact .only (updGroup_frame _ _ _) (by decide) (.setQ (.only (traceItem_frame _ _ _ _ _) (by decide) (.of_pair heq (.qEnqueue hb1))))
  · rename_i heq
    exact .badRecord (.of_pair heq (.qEnqueue hb1))

theorem Block.Canonical.acceptRecord {l : List U8} (h : b.Canonical mem) : (Machine.acceptRecord l b).Canonical mem := by
  unfold Machine.acceptRecord
  extract_lets _ _ b1
  have hb1 : b1.Canonical mem := .only (updGroup_frame _ _ _) (by decide) (.same h ⟨rfl, rfl, rfl⟩)
  refine .ite (.only (creditViolation_frame _ _) (by decide) h) ?_
  split
  · rename_i heq
    exact .only (creditViolation_frame _ _) (by decide) (.of_pair heq (.qAlloc hb1))
  · rename_i heq
    extract_lets b2
    have hb2 : b2.Canonical mem := .setBuf (.of_pair heq (.qAlloc hb1))
    exact .ite (.judgeRecord hb2) (.badRecord hb2)

theorem Block.Canonical.slotReceive {x : CwySlot} (h : b.Canonical mem) : (Machine.slotReceive x b).Canonical mem := by
  unfold Machine.slotReceive
  extract_lets _ _ _ _ b1 b2
  have hb1 : b1.Canonical mem := .only (crcFailure_frame _) (by decide) (.same h ⟨rfl, rfl, rfl⟩)
  have hb2 : b2.Canonical mem := .same h ⟨rfl, rfl, rfl⟩
  exact .ite h (.ite (.only (linkReset_frame _ _ _) (by decide) h) (.ite (.onlyIf (fun _ hd => .only (linkReset_frame _ _ _) (by decide) hd) hb1)
      (.ite hb2 (.acceptRecord hb2))))

theorem Block.Canonical.freeAcked {us : List Nat} (h : b.Canonical mem) : (Machine.freeAcked us b).Canonical mem := by
  unfold Machine.freeAcked
  exact .forAll (fun _ _ hd => .qFree hd) h

theorem Block.Canonical.takeAck {a : U16} (h : b.Canonical mem) : (Machine.takeAck a b).Canonical mem := by
  unfold Machine.takeAck
  extract_lets
  split
  · exact h
  · exact .freeAcked (.same h ⟨rfl, rfl, rfl⟩)

theorem Block.Canonical.creditReceive {bytes : List U8} (h : b.Canonical mem) : (Machine.creditReceive bytes b).Canonical mem := by
  unfold Machine.creditReceive
  extract_lets _ _ _ _ b1
  have hb1 : b1.Canonical mem := .only (crcFailure_frame _) (by decide) (.same h ⟨rfl, rfl, rfl⟩)
  exact .ite h (.ite (.onlyIf (fun _ hd => .only (linkReset_frame _ _ _) (by decide) hd) hb1) (.only (takeCredits_frame _ _) (by decide) (.takeAck
      (.same h ⟨rfl, rfl, rfl⟩))))

theorem Block.Canonical.recordSend (h : b.Canonical mem) : (Machine.recordSend b).Canonical mem := by
  unfold Machine.recordSend
  extract_lets
  refine .ite h ?_
  split
  · extract_lets
    exact .ite h (.only (transmit_frame _ _ _) (by decide) (.same h ⟨rfl, rfl, rfl⟩))
  · split
    · exact h
    · split
      · rename_i heq
        exact .of_pair heq (.qDequeue h)
      · rename_i heq
        extract_lets
        exact .only (transmit_frame _ _ _) (by decide) (.same (.of_pair heq (.qDequeue h)) ⟨rfl, rfl, rfl⟩)

theorem Block.Canonical.linkUp (h : b.Canonical mem) : (Machine.linkUp b).Canonical mem := by
  unfold Machine.linkUp
  extract_lets _ _ _ b1 b2
  have hb1 : b1.Canonical mem := .same h ⟨rfl, rfl, rfl⟩
  have hb2 : b2.Canonical mem := .forAll (fun _ _ hd => .only (noteWait_frame _ _) (by decide) hd) (.only (irq_frame _ _) (by decide) hb1)
  refine .ite ?_ h
  split
  · exact .ok (.same hb2 ⟨rfl, rfl, rfl⟩)
  · exact hb2

theorem Block.Canonical.trainingTimeout (h : b.Canonical mem) : (Machine.trainingTimeout b).Canonical mem := by
  unfold Machine.trainingTimeout
  refine .ite (.afterTicks (fun _ hd => ?_) h) h
  extract_lets _ b1
  have hb1 : b1.Canonical mem := by
    unfold b1
    split
    · exact .refuse (.same hd ⟨rfl, rfl, rfl⟩)
    · exact hd
  exact .ite hb1 (.same hb1 ⟨rfl, rfl, rfl⟩)

theorem Block.Canonical.cwySetLink {m : Fin 4} (h : b.Canonical mem) : (Machine.cwySetLink m b).Canonical mem := by
  unfold Machine.cwySetLink
  extract_lets
  refine .checked (fun _ hd => ?_) h
  extract_lets _ _ b1 _ _ b2
  have hb1 : b1.Canonical mem := .same hd ⟨rfl, rfl, rfl⟩
  have hb2 : b2.Canonical mem := .ite (.same hb1 ⟨rfl, rfl, rfl⟩) (.ite (.only (linkReset_frame _ _ _) (by decide) hb1) hb1)
  exact .ok (.only (saveSettings_frame _) (by decide) hb2)

theorem Block.Canonical.cwySetGroup {m : Fin 4} (h : b.Canonical mem) : (Machine.cwySetGroup m b).Canonical mem := by
  unfold Machine.cwySetGroup
  extract_lets
  refine .checked (fun _ hd => ?_) h
  extract_lets b1
  have hb1 : b1.Canonical mem := .only (saveSettings_frame _) (by decide) (.noteLow (.only (updGroup_frame _ _ _) (by decide) hd))
  exact .only (cmdLog_frame _ _ _) (by decide) (.ok hb1)

theorem Block.Canonical.cwyGetGroup {m : Fin 4} (h : b.Canonical mem) : (Machine.cwyGetGroup m b).Canonical mem := by
  unfold Machine.cwyGetGroup
  extract_lets
  refine .checked (fun _ hd => ?_) h
  extract_lets
  exact .ok hd

theorem Block.Canonical.qmgSetQueue {m : Fin 4} (h : b.Canonical mem) : (Machine.qmgSetQueue m b).Canonical mem := by
  unfold Machine.qmgSetQueue
  extract_lets
  refine .checked (fun _ hd => ?_) h
  extract_lets b1
  have hb1 : b1.Canonical mem := .setQ hd
  exact .only (cmdLog_frame _ _ _) (by decide) (.ok (.only (saveSettings_frame _) (by decide) hb1))

theorem Block.Canonical.qmgGetQueue {m : Fin 4} (h : b.Canonical mem) : (Machine.qmgGetQueue m b).Canonical mem := by
  unfold Machine.qmgGetQueue
  extract_lets
  exact .checked (fun _ hd => .ok hd) h

theorem Block.Canonical.qmgFlush {m : Fin 4} (h : b.Canonical mem) : (Machine.qmgFlush m b).Canonical mem := by
  unfold Machine.qmgFlush
  extract_lets
  exact .checked (fun _ hd => .only (cmdLog_frame _ _ _) (by decide) (.ok (.qFlush hd))) h

theorem Block.Canonical.qmgSetLowWater {m : Fin 4} (h : b.Canonical mem) : (Machine.qmgSetLowWater m b).Canonical mem := by
  unfold Machine.qmgSetLowWater
  extract_lets
  exact .checked (fun _ hd => .ok (.only (saveSettings_frame _) (by decide) (.noteLow (.same hd ⟨rfl, rfl, rfl⟩)))) h

theorem Block.Canonical.qmgClear (h : b.Canonical mem) : (Machine.qmgClear b).Canonical mem := by
  unfold Machine.qmgClear
  extract_lets
  exact .same h ⟨rfl, rfl, rfl⟩

theorem Block.Canonical.cwyQmgClear {m : Fin 4} (h : b.Canonical mem) : (Machine.cwyQmgClear m b).Canonical mem := by
  unfold Machine.cwyQmgClear
  exact .ok (.onlyIf (fun _ hd => .qmgClear hd) (.onlyIf (fun _ hd => .only (cwyClear_frame _) (by decide) hd) h))

theorem Block.Canonical.qAccept (h : b.Canonical mem) : (Machine.qAccept b).Canonical mem := by
  unfold Machine.qAccept
  extract_lets _ b1
  have hb1 : b1.Canonical mem := .only (tideTo_frame _ _) (by decide) h
  exact .same hb1 ⟨rfl, rfl, rfl⟩

theorem Block.Canonical.qmgAlloc {a : Fin 16} {g : Fin 64} (h : b.Canonical mem) : (Machine.qmgAlloc a g b).Canonical mem := by
  unfold Machine.qmgAlloc
  extract_lets r
  have hr : r.1.Canonical mem := .qAlloc h
  exact .qTell hr

theorem Block.Canonical.qmgEnqueue {a : Fin 16} {q u : Nat} (h : b.Canonical mem) : (Machine.qmgEnqueue a q u b).Canonical mem := by
  unfold Machine.qmgEnqueue
  extract_lets r
  have hr : r.1.Canonical mem := .qEnqueue h
  exact .qTell hr

theorem Block.Canonical.qmgDequeue {a : Fin 16} {q : Nat} (h : b.Canonical mem) : (Machine.qmgDequeue a q b).Canonical mem := by
  unfold Machine.qmgDequeue
  extract_lets r
  have hr : r.1.Canonical mem := .qDequeue h
  exact .qTell hr

theorem Block.Canonical.qmgFree {a : Fin 16} {u : Nat} (h : b.Canonical mem) : (Machine.qmgFree a u b).Canonical mem := by
  unfold Machine.qmgFree
  extract_lets r
  have hr : r.1.Canonical mem := .qFree h
  exact .qTell hr

/-! ### Operations of Machine/Panels.lean -/

/-- A store into the panel frames. -/
theorem Block.Canonical.writeFrames {a : Nat} {l : List U8} (h : b.Canonical mem) :
    Block.Canonical { b with frames := b.frames.writeN a l } mem := by
  cases mem with
  | frames => exact Memory.wf_writeN _ _ h
  | sram => exact h
  | buffers => exact h

theorem Block.Canonical.writeRows {p : Fin 8} {x y : Nat} {l : List (List (BitVec 6))} (h : b.Canonical mem) :
    (Machine.writeRows p x y l b).1.Canonical mem := by
  induction l generalizing y b with
  | nil => exact h
  | cons r rs ih =>
    unfold Machine.writeRows
    extract_lets old new drawn t
    clear_value new
    have hdrawn : drawn.Canonical mem := .writeFrames h
    have ht : t.1.Canonical mem := ih (.only (updPnl_frame _ _ _) (by decide) hdrawn)
    exact .iteFst (ih h) ht

theorem Block.Canonical.applyDraw {p : Fin 8} {d : Draw} (h : b.Canonical mem) : (Machine.applyDraw p d b).Canonical mem := by
  unfold Machine.applyDraw
  extract_lets t b1
  have ht : t.1.Canonical mem := .writeRows h
  have hb1 : b1.Canonical mem := .onlyIf (fun _ hd => .only (updPnl_frame _ _ _) (by decide) hd) ht
  split
  · exact hb1
  · exact .ok hb1

theorem Block.Canonical.draw' {p : Fin 8} {d : Draw} (h : b.Canonical mem) : (Machine.draw' p d b).Canonical mem := by
  unfold Machine.draw'
  exact .ite (.only (updPnl_frame _ _ _) (by decide) h) (.applyDraw h)

theorem Block.Canonical.passStart {p : Fin 8} (h : b.Canonical mem) : (Machine.passStart p b).Canonical mem := by
  unfold Machine.passStart
  extract_lets _ _ b1 b2
  have hb1 : b1.Canonical mem := .only (updPnl_frame _ _ _) (by decide) h
  have hb2 : b2.Canonical mem := .ite hb1 (.only (updPnl_frame _ _ _) (by decide) hb1)
  split
  · exact hb2
  · exact .ok hb2

theorem Block.Canonical.extcominToggle {p : Fin 8} (h : b.Canonical mem) : (Machine.extcominToggle p b).Canonical mem := by
  unfold Machine.extcominToggle
  refine .ite (.only (updPnl_frame _ _ _) (by decide) h) (.atInstant (fun _ hd => ?_) h)
  extract_lets b1
  have hb1 : b1.Canonical mem := .only (updPnl_frame _ _ _) (by decide) hd
  exact .ite (.passStart hb1) hb1

theorem Block.Canonical.applyWaiting {p : Fin 8} (h : b.Canonical mem) : (Machine.applyWaiting p b).Canonical mem := by
  unfold Machine.applyWaiting
  extract_lets _ b1
  have hb1 : b1.Canonical mem := .forAll (fun _ _ hd => .applyDraw hd) (.only (updPnl_frame _ _ _) (by decide) h)
  exact .only (updPnl_frame _ _ _) (by decide) hb1

theorem Block.Canonical.panelPassEnd {p : Fin 8} (h : b.Canonical mem) : (Machine.panelPassEnd p b).Canonical mem := by
  unfold Machine.panelPassEnd
  split
  · exact h
  · refine .atInstant (fun _ hd => ?_) h
    extract_lets b1
    have hb1 : b1.Canonical mem := .only (updPnl_frame _ _ _) (by decide) hd
    exact .applyWaiting (.onlyIf (fun _ he => .only (irq_frame _ _) (by decide) he) hb1)

theorem Block.Canonical.passBreak {p : Fin 8} (h : b.Canonical mem) : (Machine.passBreak p b).Canonical mem := by
  unfold Machine.passBreak
  exact .applyWaiting (.only (updPnl_frame _ _ _) (by decide) h)

theorem Block.Canonical.panelBiasFault {half : Fin 2} (h : b.Canonical mem) : (Machine.panelBiasFault half b).Canonical mem := by
  unfold Machine.panelBiasFault
  refine .forAll (fun _ _ hd => ?_) h
  extract_lets mb faulted
  have hfaulted : faulted.Canonical mem := .passBreak (.only (irq_frame _ _) (by decide) (.only (updPnl_frame _ _ _) (by decide) hd))
  clear_value mb
  split
  · exact hfaulted
  · exact .refuse hfaulted

theorem Block.Canonical.redrawStrip {p : Fin 8} (h : b.Canonical mem) : (Machine.redrawStrip p b).Canonical mem := by
  unfold Machine.redrawStrip
  extract_lets _ b1
  have hb1 : b1.Canonical mem := .draw' (.only (updPnl_frame _ _ _) (by decide) h)
  exact .ite h (.onlyIf (fun _ hd => .only (irq_frame _ _) (by decide) hd) hb1)

theorem Block.Canonical.pnlEnable {p : Fin 8} {on : Bool} (h : b.Canonical mem) : (Machine.pnlEnable p on b).Canonical mem := by
  unfold Machine.pnlEnable
  exact .ite (.only (updPnl_frame _ _ _) (by decide) h) (.passBreak (.only (updPnl_frame _ _ _) (by decide) h))

theorem Block.Canonical.pnlSetConfig {m : Fin 4} (h : b.Canonical mem) : (Machine.pnlSetConfig m b).Canonical mem := by
  unfold Machine.pnlSetConfig
  extract_lets
  refine .checked (fun _ hd => ?_) h
  extract_lets _ b1 b2
  have hb1 : b1.Canonical mem := .only (updPnl_frame _ _ _) (by decide) hd
  have hb2 : b2.Canonical mem := .pnlEnable hb1
  exact .only (saveSettings_frame _) (by decide) (.ok (.onlyIf (fun _ he => .redrawStrip he) hb2))

theorem Block.Canonical.pnlLoadGamma {m : Fin 4} (h : b.Canonical mem) : (Machine.pnlLoadGamma m b).Canonical mem := by
  unfold Machine.pnlLoadGamma
  extract_lets
  exact .checked (fun _ hd => .ok (.only (updPnl_frame _ _ _) (by decide) hd)) h

theorem Block.Canonical.pnlDraw {m : Fin 4} (h : b.Canonical mem) : (Machine.pnlDraw m b).Canonical mem := by
  unfold Machine.pnlDraw
  extract_lets
  refine .checked (fun _ hd => ?_) h
  extract_lets
  exact .draw' (.hostDataConsume hd)

theorem Block.Canonical.pnlFill {m : Fin 4} (h : b.Canonical mem) : (Machine.pnlFill m b).Canonical mem := by
  unfold Machine.pnlFill
  extract_lets
  refine .checked (fun _ hd => ?_) h
  extract_lets
  exact .draw' hd

theorem Block.Canonical.pnlFlush {m : Fin 4} (h : b.Canonical mem) : (Machine.pnlFlush m b).Canonical mem := by
  unfold Machine.pnlFlush
  extract_lets
  exact .checked (fun _ hd => .ite (.ok hd) (.only (updPnl_frame _ _ _) (by decide) hd)) h

theorem Block.Canonical.pnlGetStatus {m : Fin 4} (h : b.Canonical mem) : (Machine.pnlGetStatus m b).Canonical mem := by
  unfold Machine.pnlGetStatus
  extract_lets
  exact .checked (fun _ hd => .ok hd) h

theorem Block.Canonical.pnlClearCounts {m : Fin 4} (h : b.Canonical mem) : (Machine.pnlClearCounts m b).Canonical mem := by
  unfold Machine.pnlClearCounts
  exact .ok (.forAll (fun _ _ hd => .only (updPnl_frame _ _ _) (by decide) hd) h)

theorem Block.Canonical.sendCard {r : Fin 8} {src : Nat} {payload : List U8} (h : b.Canonical mem) :
    (Machine.sendCard r src payload b).Canonical mem := by
  unfold Machine.sendCard
  extract_lets
  refine .ite h ?_
  split
  · rename_i heq
    exact .only (irq_frame _ _) (by decide) (.of_pair heq (.sendRecord h))
  · rename_i heq
    exact .only (irq_frame _ _) (by decide) (.of_pair heq (.sendRecord h))

theorem Block.Canonical.pollAnswer {r : Fin 8} {found : Bool} {payload : List U8} (h : b.Canonical mem) :
    (Machine.pollAnswer r found payload b).Canonical mem := by
  unfold Machine.pollAnswer
  split
  · exact h
  · exact .ok (.only (updNfc_frame _ _ _) (by decide) h)

theorem Block.Canonical.cardResolved {r : Fin 8} {c : CardInfo} (h : b.Canonical mem) : (Machine.cardResolved r c b).Canonical mem := by
  unfold Machine.cardResolved
  extract_lets
  refine .ite h (.afterTicks (fun _ hd => ?_) h)
  extract_lets _ b1 b2
  have hb1 : b1.Canonical mem := .only (traceItem_frame _ _ _ _ _) (by decide) hd
  have hb2 : b2.Canonical mem := .only (updNfc_frame _ _ _) (by decide) hb1
  exact .pollAnswer (.sendCard hb2)

theorem Block.Canonical.falseWakeUp {r : Fin 8} (h : b.Canonical mem) : (Machine.falseWakeUp r b).Canonical mem := by
  unfold Machine.falseWakeUp
  extract_lets
  refine .ite h (.afterTicks (fun _ hd => ?_) h)
  extract_lets b1
  have hb1 : b1.Canonical mem := .only (updNfc_frame _ _ _) (by decide) hd
  exact .pollAnswer (.only (fieldOff_frame _ _) (by decide) hb1)

theorem Block.Canonical.presenceCheck {r : Fin 8} {answered : Bool} (h : b.Canonical mem) : (Machine.presenceCheck r answered b).Canonical mem := by
  unfold Machine.presenceCheck
  extract_lets
  refine .ite h (.afterTicks (fun _ hd => ?_) h)
  extract_lets b1
  have hb1 : b1.Canonical mem := .only (traceItem_frame _ _ _ _ _) (by decide) (.only (updNfc_frame _ _ _) (by decide) hd)
  exact .ite (.only (updNfc_frame _ _ _) (by decide) hb1) (.ite (.only (updNfc_frame _ _ _) (by decide) hb1) (.only (fieldOff_frame _ _) (by decide)
      (.sendCard hb1)))

theorem Block.Canonical.nfcTxFault {r : Fin 8} (h : b.Canonical mem) : (Machine.nfcTxFault r b).Canonical mem := by
  unfold Machine.nfcTxFault
  extract_lets mb faulted
  have hfaulted : faulted.Canonical mem := .only (irq_frame _ _) (by decide) (.only (updNfc_frame _ _ _) (by decide) (.only (fieldOff_frame _ _)
      (by decide) h))
  clear_value mb
  refine .ite h ?_
  split
  · exact hfaulted
  · exact .refuse hfaulted

theorem Block.Canonical.nfcSetConfig {m : Fin 4} (h : b.Canonical mem) : (Machine.nfcSetConfig m b).Canonical mem := by
  unfold Machine.nfcSetConfig
  extract_lets
  refine .checked (fun _ hd => ?_) h
  extract_lets b1 b2
  have hb1 : b1.Canonical mem := .only (updNfc_frame _ _ _) (by decide) hd
  have hb2 : b2.Canonical mem := .ite (.only (updNfc_frame _ _ _) (by decide) hb1) (.only (updNfc_frame _ _ _) (by decide) (.only (fieldOff_frame _ _)
      (by decide) hb1))
  exact .only (saveSettings_frame _) (by decide) (.ok hb2)

theorem Block.Canonical.nfcPoll {m : Fin 4} (h : b.Canonical mem) : (Machine.nfcPoll m b).Canonical mem := by
  unfold Machine.nfcPoll
  extract_lets
  refine .checked (fun _ hd => ?_) h
  extract_lets _ b1
  have hb1 : b1.Canonical mem := .only (updNfc_frame _ _ _) (by decide) hd
  exact .ite (.pollAnswer hb1) (.ite hb1 (.only (pollStart_frame _ _) (by decide) hb1))

theorem Block.Canonical.nfcTransceive {m : Fin 4} {a : CardAnswer} (h : b.Canonical mem) : (Machine.nfcTransceive m a b).Canonical mem := by
  unfold Machine.nfcTransceive
  extract_lets
  refine .checked (fun _ hd => ?_) h
  split
  · extract_lets
    exact .ok (.only (traceItem_frame _ _ _ _ _) (by decide) hd)
  · exact .refuse hd
  · exact .refuse hd

theorem Block.Canonical.nfcRelease {m : Fin 4} (h : b.Canonical mem) : (Machine.nfcRelease m b).Canonical mem := by
  unfold Machine.nfcRelease
  exact .checked (fun _ hd => .ok (.only (fieldOff_frame _ _) (by decide) hd)) h

theorem Block.Canonical.nfcClearCounts {m : Fin 4} (h : b.Canonical mem) : (Machine.nfcClearCounts m b).Canonical mem := by
  unfold Machine.nfcClearCounts
  exact .ok (.forAll (fun _ _ hd => .only (updNfc_frame _ _ _) (by decide) hd) h)

/-! ### Operations of Machine/Fabric.lean -/

theorem Block.Canonical.loseCarr (h : b.Canonical mem) : (Machine.loseCarr b).Canonical mem := by
  unfold Machine.loseCarr
  exact .ite (.deviceFault (.requesterMask (.only (updRst_frame _ _) (by decide) h))) h

theorem Block.Canonical.loseModem {n : Fin 16} (h : b.Canonical mem) : (Machine.loseModem n b).Canonical mem := by
  unfold Machine.loseModem
  exact .modemFault h

theorem Block.Canonical.loseTide (h : b.Canonical mem) : (Machine.loseTide b).Canonical mem := by
  unfold Machine.loseTide
  extract_lets b1 b2
  have hb1 : b1.Canonical mem := .only (updTide_frame _ _) (by decide) h
  have hb2 : b2.Canonical mem := .contain hb1
  exact .ite h (.only (powerFailCommit_frame _ _) (by decide) hb2)

theorem Block.Canonical.tideLoss {c : TideLossCause} (h : b.Canonical mem) : (Machine.tideLoss c b).Canonical mem := by
  unfold Machine.tideLoss
  extract_lets b1
  have hb1 : b1.Canonical mem := .loseTide h
  split
  · exact .only (updTide_frame _ _) (by decide) hb1
  · exact .only (updTide_frame _ _) (by decide) hb1
  · exact .only (updD2d_frame _ _) (by decide) hb1

theorem Block.Canonical.dykeTideCheck {advance : U32} (h : b.Canonical mem) : (Machine.dykeTideCheck advance b).Canonical mem := by
  unfold Machine.dykeTideCheck
  extract_lets _ b1
  have hb1 : b1.Canonical mem := .only (updD2d_frame _ _) (by decide) h
  exact .ite h (.ite (.loseTide hb1) hb1)

theorem Block.Canonical.overrunMetrology (h : b.Canonical mem) : (Machine.overrunMetrology b).Canonical mem := by
  unfold Machine.overrunMetrology
  extract_lets _ b1
  have hb1 : b1.Canonical mem := by
    unfold b1
    split
    · exact h
    · exact .only (closeAt_frame _ _) (by decide) (.only (noteUnproven_frame _ _) (by decide) (.only (flagAdvanced_frame _ _) (by decide)
          (.same h ⟨rfl, rfl, rfl⟩)))
  exact .deviceFault hb1

theorem Block.Canonical.overrunSaltern (h : b.Canonical mem) : (Machine.overrunSaltern b).Canonical mem := by
  unfold Machine.overrunSaltern
  extract_lets _ b1
  have hb1 : b1.Canonical mem := by
    unfold b1
    split
    · exact h
    · exact .only (closeAt_frame _ _) (by decide) (.only (noteUnproven_frame _ _) (by decide) (.only (flagAdvanced_frame _ _) (by decide)
          (.same h ⟨rfl, rfl, rfl⟩)))
  exact .deviceFault hb1

theorem Block.Canonical.overrunBrine (h : b.Canonical mem) : (Machine.overrunBrine b).Canonical mem := by
  unfold Machine.overrunBrine
  extract_lets _ _ b1
  have hb1 : b1.Canonical mem := .same h ⟨rfl, rfl, rfl⟩
  split
  · exact h
  · exact .forAll (fun _ _ hd => .deviceFault (.only (updLedger_frame _ _ _) (by decide) hd)) hb1

theorem Block.Canonical.overrunSignature {e : Nat} {u : Fin 4} (h : b.Canonical mem) : (Machine.overrunSignature e u b).Canonical mem := by
  unfold Machine.overrunSignature
  split
  · exact .deviceFault h
  · split
    · exact .deviceFault h
    · extract_lets r ended
      have hended : ended.Canonical mem := .unitEnds h
      clear_value r
      split
      · exact .dite (fun _ => .deviceFault hended) (fun _ => .deviceFault hended)
      · exact .deviceFault hended

theorem Block.Canonical.overrunActs {e : Fin 15} {who : U16} (h : b.Canonical mem) : (Machine.overrunActs e who b).Canonical mem := by
  unfold Machine.overrunActs
  extract_lets
  split
  · exact .overrunMetrology h
  · exact .deviceFault (.same h ⟨rfl, rfl, rfl⟩)
  · exact .overrunSaltern h
  · exact .overrunBrine h
  · exact .deviceFault (.qTell h)
  · exact .overrunSignature h
  · exact .overrunSignature h
  · exact .overrunSignature h
  · exact .loseCarr h
  · exact .disagree h
  · exact .forAll (fun _ _ hd => .loseModem hd) h
  · exact .only (loseSedge_frame _) (by decide) h

theorem Block.Canonical.engineOverrun {e : Fin 15} {who : U16} (h : b.Canonical mem) : (Machine.engineOverrun e who b).Canonical mem := by
  unfold Machine.engineOverrun
  exact .overrunActs (.only (irqLog_frame _ _ _ _) (by decide) (.only (updSlack_frame _ _ _) (by decide) h))

theorem Block.Canonical.engineComplete {e : Fin 15} {c : Nat} (h : b.Canonical mem) : (Machine.engineComplete e c b).Canonical mem := by
  unfold Machine.engineComplete
  exact .ite (.engineOverrun h) (.only (slackMeasure_frame _ _ _) (by decide) h)

theorem Block.Canonical.barrierEnd {modems : U16} (h : b.Canonical mem) : (Machine.barrierEnd modems b).Canonical mem := by
  unfold Machine.barrierEnd
  extract_lets _ b1
  have hb1 : b1.Canonical mem := .onlyIf (fun _ hd => .only (irq_frame _ _) (by decide) hd) (.only (updBarrier_frame _ _) (by decide) h)
  exact .forAll (fun _ _ hd => .engineOverrun hd) hb1

theorem Block.Canonical.barrierRelease {modems : U16} (h : b.Canonical mem) : (Machine.barrierRelease modems b).Canonical mem := by
  unfold Machine.barrierRelease
  exact .ite (.afterTicks (fun _ hd => .barrierEnd hd) h) h

theorem Block.Canonical.linkFault (h : b.Canonical mem) : (Machine.linkFault b).Canonical mem := by
  unfold Machine.linkFault
  exact .ite h (.tideLoss (.only (irq_frame _ _) (by decide) (.only (updD2d_frame _ _) (by decide) h)))

theorem Block.Canonical.a2lFailed {f : U64} {tries : Nat} {stream : Bool} (h : b.Canonical mem) : (Machine.a2lFailed f tries stream b).Canonical mem := by
  unfold Machine.a2lFailed
  extract_lets b1 b2
  have hb1 : b1.Canonical mem := .only (linkCrcFailure_frame _) (by decide) (.only (updD2d_frame _ _) (by decide) h)
  have hb2 : b2.Canonical mem := .ite (.only (updD2d_frame _ _) (by decide) hb1) hb1
  exact .ite (.linkFault hb2) hb2

theorem Block.Canonical.frameA2l {f : U64} {x : D2dFrame} (h : b.Canonical mem) : (Machine.frameA2l f x b).Canonical mem := by
  unfold Machine.frameA2l
  extract_lets b1
  have hb1 : b1.Canonical mem := .only (updD2d_frame _ _) (by decide) h
  exact .ite (.only (a2lValid_frame _ _ _) (by decide) hb1) (.a2lFailed hb1)

theorem Block.Canonical.frameAgain {x : D2dFrame} (h : b.Canonical mem) : (Machine.frameAgain x b).Canonical mem := by
  unfold Machine.frameAgain
  split
  · exact h
  · refine .afterTicks (fun _ hd => ?_) h
    extract_lets b1
    have hb1 : b1.Canonical mem := .only (updD2d_frame _ _) (by decide) hd
    exact .ite (.only (a2lValid_frame _ _ _) (by decide) hb1) (.a2lFailed hb1)

theorem Block.Canonical.frameL2a {f : U64} {x : D2dFrame} (h : b.Canonical mem) : (Machine.frameL2a f x b).Canonical mem := by
  unfold Machine.frameL2a
  extract_lets b1 b2 b3 b4
  have hb1 : b1.Canonical mem := .only (updD2d_frame _ _) (by decide) h
  have hb2 : b2.Canonical mem := .only (linkCrcFailure_frame _) (by decide) (.only (updD2d_frame _ _) (by decide) hb1)
  have hb3 : b3.Canonical mem := .ite (.only (adiePermitTimeout_frame _) (by decide) hb2) hb2
  have hb4 : b4.Canonical mem := .ite (.only (updD2d_frame _ _) (by decide) hb1) (.ite (.linkFault hb3) hb3)
  exact .ite hb4 (.linkFault hb4)

theorem Block.Canonical.d2dFrame {x : D2dFrame} (h : b.Canonical mem) : (Machine.d2dFrame x b).Canonical mem := by
  unfold Machine.d2dFrame
  extract_lets
  exact .ite h (.ite (.frameAgain h) (.atInstant (fun _ hd => .iteApp (.frameA2l hd) (.frameL2a hd)) h))

theorem Block.Canonical.sysFabricSlack {m : Fin 4} (h : b.Canonical mem) : (Machine.sysFabricSlack m b).Canonical mem := by
  unfold Machine.sysFabricSlack
  extract_lets
  exact .checked (fun _ hd => .ok hd) h

theorem Block.Canonical.sysFabricClear {m : Fin 4} (h : b.Canonical mem) : (Machine.sysFabricClear m b).Canonical mem := by
  unfold Machine.sysFabricClear
  extract_lets
  exact .checked (fun _ hd => .ok (.same hd ⟨rfl, rfl, rfl⟩)) h

theorem Block.Canonical.sysD2dStatus {m : Fin 4} (h : b.Canonical mem) : (Machine.sysD2dStatus m b).Canonical mem := by
  unfold Machine.sysD2dStatus
  extract_lets
  exact .ok (.only (updD2d_frame _ _) (by decide) h)

end Machine

end Sys2Proof
end

section
/-! PROOFS. The canonical form of the addressed memories through the operations
of resets, boot, the update, the recorder and the window. -/

namespace Sys2Proof

open Machine

namespace Machine

variable {mem : Addressed} {b : Block}

/-! ### Operations of Machine/Reset.lean -/

/-- A reset clears the panel frames, the record SRAM and the mailboxes (R490). -/
theorem Block.Canonical.resetBlock {device memory : Bool} : (Machine.resetBlock device memory b).Canonical mem := by
  cases mem with
  | frames => rfl
  | sram => rfl
  | buffers =>
    intro m
    have hm : mbxOf (Machine.resetBlock device memory b) m = {} := by simp [mbxOf, vget, Machine.resetBlock]
    rw [hm]
    exact ⟨rfl, rfl⟩

theorem Block.Canonical.assertReset {device memory : Bool} {src : BitVec 3} : (Machine.assertReset device memory src b).Canonical mem := by
  unfold Machine.assertReset
  extract_lets
  exact .only (limpStart_frame _) (by decide) (.only (noteCauseOf_frame _ _ _ _) (by decide) .resetBlock)

theorem Block.Canonical.bootPort (h : b.Canonical mem) : (Machine.bootPort b).Canonical mem := by
  unfold Machine.bootPort
  extract_lets _ _ _ _ _ b1
  have hb1 : b1.Canonical mem := .same h ⟨rfl, rfl, rfl⟩
  exact .only (linkReset_frame _ _ _) (by decide) hb1

theorem Block.Canonical.traceStart (h : b.Canonical mem) : (Machine.traceStart b).Canonical mem := by
  unfold Machine.traceStart
  extract_lets
  exact .ite (.only (irq_frame _ _) (by decide) (.bootPort (.same h ⟨rfl, rfl, rfl⟩))) (.ite (.only (irq_frame _ _) (by decide)
      (.same h ⟨rfl, rfl, rfl⟩)) h)

theorem Block.Canonical.releaseDevice {mv : U16} (h : b.Canonical mem) : (Machine.releaseDevice mv b).Canonical mem := by
  unfold Machine.releaseDevice
  extract_lets b1 b2
  have hb1 : b1.Canonical mem := .only (updTide_frame _ _) (by decide) h
  have hb2 : b2.Canonical mem := .only (strapMeasure_frame _ _) (by decide) (.only (updD2d_frame _ _) (by decide) (.only (updRst_frame _ _)
      (by decide) hb1))
  exact .ite h (.traceStart (.only (debugRelease_frame _) (by decide) (.only (crossReceivers_frame _) (by decide) hb2)))

theorem Block.Canonical.releaseHub {start command : U64} (h : b.Canonical mem) : (Machine.releaseHub start command b).Canonical mem := by
  unfold Machine.releaseHub
  exact .only (debugRelease_frame _) (by decide) (.only (crossReceivers_frame _) (by decide) (.only (updRst_frame _ _) (by decide) h))

theorem Block.Canonical.powerOn {pinHigh : Bool} {mv : U16} : (Machine.powerOn pinHigh mv b).Canonical mem := by
  unfold Machine.powerOn
  exact .releaseDevice .assertReset

theorem Block.Canonical.brownOut : (Machine.brownOut b).Canonical mem := by
  unfold Machine.brownOut
  exact .assertReset

theorem Block.Canonical.resetPin : (Machine.resetPin b).Canonical mem := by
  unfold Machine.resetPin
  exact .assertReset

theorem Block.Canonical.resetNRelease {mv : U16} (h : b.Canonical mem) : (Machine.resetNRelease mv b).Canonical mem := by
  unfold Machine.resetNRelease
  exact .releaseDevice (.only (updRst_frame _ _) (by decide) h)

theorem Block.Canonical.clockFail {mv : U16} (h : b.Canonical mem) : (Machine.clockFail mv b).Canonical mem := by
  unfold Machine.clockFail
  exact .ite (.releaseDevice .assertReset) h

theorem Block.Canonical.freeAgent {a : Fin 16} (h : b.Canonical mem) : (Machine.freeAgent a b).Canonical mem := by
  unfold Machine.freeAgent
  exact .forAll (fun _ _ hd => .qFree hd) h

theorem Block.Canonical.dropBusy {m : Fin 4} (h : b.Canonical mem) : (Machine.dropBusy m b).Canonical mem := by
  unfold Machine.dropBusy
  exact .ite (.mbxComplete (.refuse h)) h

theorem Block.Canonical.loseDyke (h : b.Canonical mem) : (Machine.loseDyke b).Canonical mem := by
  unfold Machine.loseDyke
  exact .dykeAliveTimeout (.only (updRst_frame _ _) (by decide) h)

theorem Block.Canonical.coreStop {c : CoreId} (h : b.Canonical mem) : (Machine.coreStop c b).Canonical mem := by
  unfold Machine.coreStop
  split
  · exact .forAll (fun _ _ hd => .freeAgent hd) (.forAll (fun _ _ hd => .dropBusy hd) (.requesterMask (.only (loseSedge_frame _) (by decide) h)))
  · exact .freeAgent (.loseCarr h)
  · exact .freeAgent (.loseDyke h)
  · exact .loseModem h

theorem Block.Canonical.coreRestart {src : BitVec 3} {c : CoreId} (h : b.Canonical mem) : (Machine.coreRestart src c b).Canonical mem := by
  unfold Machine.coreRestart
  exact .coreStop (.only (irq_frame _ _) (by decide) (.only (noteCauseOf_frame _ _ _ _) (by decide) h))

theorem Block.Canonical.coreFails {src : BitVec 3} {c : CoreId} (h : b.Canonical mem) : (Machine.coreFails src c b).Canonical mem := by
  unfold Machine.coreFails
  exact .ite h (.coreRestart h)

theorem Block.Canonical.sedgeAbsence (h : b.Canonical mem) : (Machine.sedgeAbsence b).Canonical mem := by
  unfold Machine.sedgeAbsence
  split
  · exact h
  · refine .afterTicks (fun _ hd => ?_) h
    extract_lets b1
    have hb1 : b1.Canonical mem := .only (updRst_frame _ _) (by decide) hd
    exact .only (raiseFatal_frame _ _) (by decide) (.contain hb1)

theorem Block.Canonical.stopStart {p : PendingReset} (h : b.Canonical mem) : (Machine.stopStart p b).Canonical mem := by
  unfold Machine.stopStart
  extract_lets b1
  have hb1 : b1.Canonical mem := .only (updRst_frame _ _) (by decide) h
  exact .only (shutdownDue_frame _) (by decide) (.stopAll hb1)

theorem Block.Canonical.stopSequenceStart (h : b.Canonical mem) : (Machine.stopSequenceStart b).Canonical mem := by
  unfold Machine.stopSequenceStart
  split
  · exact h
  · refine .ite h (.atInstant (fun _ hd => ?_) h)
    extract_lets b1
    have hb1 : b1.Canonical mem := .only (updRst_frame _ _) (by decide) hd
    split
    · split
      · exact .coreRestart hb1
      · exact hb1
    · exact .stopStart hd

theorem Block.Canonical.stopSequenceEnd {mv : U16} (h : b.Canonical mem) : (Machine.stopSequenceEnd mv b).Canonical mem := by
  unfold Machine.stopSequenceEnd
  split
  · exact h
  · refine .ite h (.afterTicks (fun _ _ => ?_) h)
    extract_lets _ device
    have hdevice : device.Canonical mem := .assertReset
    split
    · exact .releaseHub .assertReset
    · refine .releaseDevice ?_
      split
      · exact .only (enterReplay_frame _ _) (by decide) hdevice
      · exact hdevice

theorem Block.Canonical.sysReset {m : Fin 4} (h : b.Canonical mem) : (Machine.sysReset m b).Canonical mem := by
  unfold Machine.sysReset
  extract_lets
  refine .checked (fun _ hd => ?_) h
  extract_lets
  exact .ok (.only (updRst_frame _ _) (by decide) hd)

theorem Block.Canonical.sysGetReset {m : Fin 4} (h : b.Canonical mem) : (Machine.sysGetReset m b).Canonical mem := by
  unfold Machine.sysGetReset
  exact .ok h

/-! ### Operations of Machine/Images.lean -/

theorem Block.Canonical.bootPost (h : b.Canonical mem) : (Machine.bootPost b).Canonical mem := by
  unfold Machine.bootPost
  extract_lets
  split
  · exact h
  · extract_lets bytes posted
    have hposted : posted.Canonical mem := .setResp h (by with_reducible rfl) (by with_reducible rfl)
    exact .ite (.only (irq_frame _ _) (by decide) (.only (updFetch_frame _ _) (by decide) hposted)) h

theorem Block.Canonical.requestBlocks (h : b.Canonical mem) : (Machine.requestBlocks b).Canonical mem := by
  unfold Machine.requestBlocks
  split
  · exact h
  · extract_lets _ _ b1 b2
    have hb1 : b1.Canonical mem := .only (updUpd_frame _ _) (by decide) h
    have hb2 : b2.Canonical mem := .sendRecord hb1
    exact .ite (.bootPost hb1) (.only (updFetch_frame _ _) (by decide) hb2)

theorem Block.Canonical.beginFetch {f : Fetch} (h : b.Canonical mem) : (Machine.beginFetch f b).Canonical mem := by
  unfold Machine.beginFetch
  exact .requestBlocks (.only (updUpd_frame _ _) (by decide) h)

/-! ### Operations of Machine/Fetching.lean -/

theorem Block.Canonical.bootNext (h : b.Canonical mem) : (Machine.bootNext b).Canonical mem := by
  unfold Machine.bootNext
  refine .ite h ?_
  split
  · exact .beginFetch h
  · exact .beginFetch h
  · exact h

theorem Block.Canonical.slotFail {i : Fin 4} (h : b.Canonical mem) : (Machine.slotFail i b).Canonical mem := by
  unfold Machine.slotFail
  extract_lets b1
  have hb1 : b1.Canonical mem := .only (updUpd_frame _ _) (by decide) h
  exact .ite (.bootNext (.only (imageMissing_frame _ _) (by decide) hb1)) (.bootNext (.only (updImage_frame _ _ _) (by decide) hb1))

theorem Block.Canonical.chooseSet (h : b.Canonical mem) : (Machine.chooseSet b).Canonical mem := by
  unfold Machine.chooseSet
  refine .ite h ?_
  split
  · exact .ite (.slotFail h) (.forAll (fun _ _ hd => .only (imageMissing_frame _ _) (by decide) hd) h)
  · exact .ite (.only (imageMissing_frame _ _) (by decide) h) (.forAll (fun _ _ hd => .only (imageMissing_frame _ _) (by decide) hd) h)

theorem Block.Canonical.fetchFail {st : Nat} (h : b.Canonical mem) : (Machine.fetchFail st b).Canonical mem := by
  unfold Machine.fetchFail
  split
  · exact h
  · exact .ite (.stageFail h) (.slotFail h)

theorem Block.Canonical.staged {f : Fetch} (h : b.Canonical mem) : (Machine.staged f b).Canonical mem := by
  unfold Machine.staged
  extract_lets _ b1 b2 b3
  have hb1 : b1.Canonical mem := .only (updImage_frame _ _ _) (by decide) h
  have hb2 : b2.Canonical mem := .only (setSlot_frame _ _ _ _) (by decide) (.only (updUpd_frame _ _) (by decide) hb1)
  have hb3 : b3.Canonical mem := .only (irq_frame _ _) (by decide) hb2
  split
  · exact .ok hb3
  · exact hb3

theorem Block.Canonical.loaded {f : Fetch} (h : b.Canonical mem) : (Machine.loaded f b).Canonical mem := by
  unfold Machine.loaded
  extract_lets _ _ _ b1 b2 _ _ b3 b4 b5
  have hb1 : b1.Canonical mem := .only (updImage_frame _ _ _) (by decide) h
  have hb2 : b2.Canonical mem := .only (updUpd_frame _ _) (by decide) hb1
  have hb3 : b3.Canonical mem := .only (updUpd_frame _ _) (by decide) hb2
  have hb4 : b4.Canonical mem := .ite (.onlyIf (fun _ hd => .only (irq_frame _ _) (by decide) hd) (.only (saveUpdate_frame _) (by decide) (.only
      (setSlot_frame _ _ _ _) (by decide) (.only (setSlot_frame _ _ _ _) (by decide) hb3)))) (.ite (.only (saveUpdate_frame _) (by decide) (.only
      (setSlot_frame _ _ _ _) (by decide) hb2)) hb2)
  have hb5 : b5.Canonical mem := .only (noteRunning_frame _ _) (by decide) hb4
  exact .bootNext (.onlyIf (fun _ hd => .only (replayEnd_frame _ _) (by decide) hd) hb5)

theorem Block.Canonical.imageDone {f : Fetch} (h : b.Canonical mem) : (Machine.imageDone f b).Canonical mem := by
  unfold Machine.imageDone
  exact .ite (.ite (.staged h) (.loaded h)) (.fetchFail h)

theorem Block.Canonical.manifestDone {f : Fetch} (h : b.Canonical mem) : (Machine.manifestDone f b).Canonical mem := by
  unfold Machine.manifestDone
  extract_lets _ _ _ b1
  have hb1 : b1.Canonical mem := .only (noteManifest_frame _ _ _ _) (by decide) h
  refine .ite ?_ (.ite (.bootNext (.chooseSet (.only (updUpd_frame _ _) (by decide) (.only (updImage_frame _ _ _) (by decide) (.only
      (noteManifest_frame _ _ _ _) (by decide) h))))) (.slotFail h))
  split
  · exact .fetchFail h
  · exact .ite (.imageDone hb1) (.beginFetch hb1)

theorem Block.Canonical.blockTaken {f : Fetch} (h : b.Canonical mem) : (Machine.blockTaken f b).Canonical mem := by
  unfold Machine.blockTaken
  extract_lets b1
  have hb1 : b1.Canonical mem := .only (updUpd_frame _ _) (by decide) h
  exact .ite (.ite (.manifestDone hb1) (.imageDone hb1)) (.ite (.requestBlocks hb1) hb1)

theorem Block.Canonical.blockDone {f : Fetch} {block : List U8} (h : b.Canonical mem) : (Machine.blockDone f block b).Canonical mem := by
  unfold Machine.blockDone
  extract_lets
  exact .ite (.ite (.ite (.fetchFail h) (.blockTaken h)) (.blockTaken h)) (.ite (.blockTaken h) (.fetchFail h))

theorem Block.Canonical.takePart {image slot block part size : Nat} {data : List U8} (h : b.Canonical mem) :
    (Machine.takePart image slot block part size data b).Canonical mem := by
  unfold Machine.takePart
  split
  · exact h
  · extract_lets
    exact .ite (.ite (.blockDone h) (.only (updFetch_frame _ _) (by decide) h)) h

theorem Block.Canonical.partAbsent {image slot : Nat} (h : b.Canonical mem) : (Machine.partAbsent image slot b).Canonical mem := by
  unfold Machine.partAbsent
  split
  · exact h
  · exact .ite (.fetchFail h) h

theorem Block.Canonical.takeImageRecord {l : List U8} (h : b.Canonical mem) : (Machine.takeImageRecord l b).Canonical mem := by
  unfold Machine.takeImageRecord
  extract_lets
  exact .ite h (.ite (.partAbsent h) (.takePart h))

theorem Block.Canonical.imageData (h : b.Canonical mem) : (Machine.imageData b).Canonical mem := by
  unfold Machine.imageData
  split
  · rename_i heq
    exact .of_pair heq (.qDequeue h)
  · rename_i heq
    extract_lets
    exact .takeImageRecord (.qFree (.of_pair heq (.qDequeue h)))

theorem Block.Canonical.blockTimeout (h : b.Canonical mem) : (Machine.blockTimeout b).Canonical mem := by
  unfold Machine.blockTimeout
  split
  · exact h
  · exact .ite (.afterTicks (fun _ hd => .ite (.requestBlocks (.only (updFetch_frame _ _) (by decide) hd)) (.fetchFail hd)) h) h

theorem Block.Canonical.bootRetry (h : b.Canonical mem) : (Machine.bootRetry b).Canonical mem := by
  unfold Machine.bootRetry
  exact .ite (.afterTicks (fun _ hd => .bootNext (.only (updUpd_frame _ _) (by decide) hd)) h) h

theorem Block.Canonical.updBootPart {m : Fin 4} (h : b.Canonical mem) : (Machine.updBootPart m b).Canonical mem := by
  unfold Machine.updBootPart
  extract_lets
  exact .ite h (.ite (.checked (fun _ hd => .takePart (.ok hd)) h) (.refuse h))

theorem Block.Canonical.mbxAcknowledge {m : Fin 4} (h : b.Canonical mem) : (Machine.mbxAcknowledge m b).Canonical mem := by
  unfold Machine.mbxAcknowledge
  exact .bootPost (.mbxAck h)

theorem Block.Canonical.doorbellWrite {m : Fin 4} {v : U32} (h : b.Canonical mem) : (Machine.doorbellWrite m v b).Canonical mem := by
  unfold Machine.doorbellWrite
  exact .bootPost (.mbxDoorbell h)

/-! ### Operations of Machine/Boot.lean -/

theorem Block.Canonical.stageStore (h : b.Canonical mem) : (Machine.stageStore b).Canonical mem := by
  unfold Machine.stageStore
  extract_lets _ r b1 b2 _ _ b3 b4 _ b5 b6
  have hr : r.1.Canonical mem := .only (recoverPeat_frame _) (by decide) (.only (restoreKept_frame _) (by decide) h)
  have hb1 : b1.Canonical mem := .forAll (fun _ _ hd => .only (unproveWallet_frame _ _) (by decide) hd) (.only (restoreUpdate_frame _) (by decide)
      (.only (applyMetrology_frame _ _) (by decide) (.only (applyBilling_frame _ _) (by decide) hr)))
  have hb2 : b2.Canonical mem := .only (updMet_frame _ _) (by decide) hb1
  have hb3 : b3.Canonical mem := .same hb2 ⟨rfl, rfl, rfl⟩
  have hb4 : b4.Canonical mem := .only (updTide_frame _ _) (by decide) (.crossDrain (fun _ _ hd => .only (setTrim_frame _ _) (by decide) hd) (.only
      (crossSenders_frame _) (by decide) hb3))
  have hb5 : b5.Canonical mem := .ite (.same hb4 ⟨rfl, rfl, rfl⟩) hb4
  have hb6 : b6.Canonical mem := .only (legalLog_frame _ _ _ _) (by decide) hb5
  exact .ite hb6 (.bootPort hb6)

theorem Block.Canonical.stageOne {x : BootInfo} (h : b.Canonical mem) : (Machine.stageOne x b).1.Canonical mem := by
  unfold Machine.stageOne
  extract_lets b1 b2
  have hb1 : b1.Canonical mem := .only (traceHead_frame _) (by decide) h
  have hb2 : b2.Canonical mem := .ite hb1 (.only (pufAttempt_frame _ _ _) (by decide) hb1)
  exact .iteFst hb2 (.stageStore hb2)

theorem Block.Canonical.stageDyke {x : BootInfo} (h : b.Canonical mem) : (Machine.stageDyke x b).Canonical mem := by
  unfold Machine.stageDyke
  extract_lets b1 b2
  have hb1 : b1.Canonical mem := .only (updRst_frame _ _) (by decide) (.only (applySafety_frame _ _) (by decide) h)
  have hb2 : b2.Canonical mem := .only (updSaf_frame _ _) (by decide) hb1
  exact .ite (.only (reviewHub_frame _) (by decide) hb2) (.contain hb2)

theorem Block.Canonical.closeCut {n : Fin 16} (h : b.Canonical mem) : (Machine.closeCut n b).Canonical mem := by
  unfold Machine.closeCut
  extract_lets _ _ b1 b2 _ b3
  have hb1 : b1.Canonical mem := .only (updSess_frame _ _ _) (by decide) (.enterPhase h)
  have hb2 : b2.Canonical mem := .only (updVeh_frame _ _ _) (by decide) hb1
  have hb3 : b3.Canonical mem := .only (updLegal_frame _ _ _) (by decide) (.only (returnLedger_frame _ _) (by decide) hb2)
  exact .ite h (.ite hb3 (.only (takeReading_frame _ _) (by decide) hb3))

theorem Block.Canonical.stageCarr (h : b.Canonical mem) : (Machine.stageCarr b).Canonical mem := by
  unfold Machine.stageCarr
  extract_lets b1 b2 _ b3 b4 b5
  have hb1 : b1.Canonical mem := .requesterMask (.only (updRst_frame _ _) (by decide) h)
  have hb2 : b2.Canonical mem := .only (backupStart_frame _) (by decide) hb1
  have hb3 : b3.Canonical mem := .same hb2 ⟨rfl, rfl, rfl⟩
  have hb4 : b4.Canonical mem := .only (tamperMove_frame _) (by decide) (.only (updSlt_frame _ _) (by decide) hb3)
  have hb5 : b5.Canonical mem := .only (updSlt_frame _ _) (by decide) hb4
  exact .replan (.only (signHeldAgain_frame _) (by decide) (.forAll (fun _ _ hd => .closeCut hd) hb5))

theorem Block.Canonical.stageSedge (h : b.Canonical mem) : (Machine.stageSedge b).Canonical mem := by
  unfold Machine.stageSedge
  extract_lets _ b1 b2 b3 b4 b5
  have hb1 : b1.Canonical mem := .same h ⟨rfl, rfl, rfl⟩
  have hb2 : b2.Canonical mem := .only (updRst_frame _ _) (by decide) hb1
  have hb3 : b3.Canonical mem := .requesterMask (.requesterMask hb2)
  have hb4 : b4.Canonical mem := .only (linkReset_frame _ _ _) (by decide) (.applyPort (.only (applyProtect_frame _ _) (by decide) (.only
      (applyVeh_frame _ _) (by decide) (.only (applySlu_frame _ _) (by decide) hb3))))
  have hb5 : b5.Canonical mem := .ite hb4 (.only (limpEnd_frame _) (by decide) hb4)
  exact .driveFeed (.forAll (fun _ _ hd => .pilotReview hd) (.only (reviewHub_frame _) (by decide) (.same hb5 ⟨rfl, rfl, rfl⟩)))

theorem Block.Canonical.stageWork {x : BootInfo} (h : b.Canonical mem) : (Machine.stageWork x b).Canonical mem := by
  unfold Machine.stageWork
  split
  · exact .stageDyke h
  · exact .stageCarr h
  · exact .only (stageCreek_frame _) (by decide) h
  · exact .stageSedge h
  · exact h

theorem Block.Canonical.bootStageDone {x : BootInfo} (h : b.Canonical mem) : (Machine.bootStageDone x b).Canonical mem := by
  unfold Machine.bootStageDone
  extract_lets r b1
  have hr : r.1.Canonical mem := .stageOne h
  have hb1 : b1.Canonical mem := .only (stageUp_frame _) (by decide) (.stageWork h)
  exact .ite h (.ite (.ite (.bootNext (.only (stageUp_frame _) (by decide) hr)) hr) (.ite (.ite (.only (stageSix_frame _) (by decide) hb1)
      (.bootNext hb1)) h))

/-! ### Operations of Machine/Update.lean -/

theorem Block.Canonical.sedgePause (h : b.Canonical mem) : (Machine.sedgePause b).Canonical mem := by
  unfold Machine.sedgePause
  exact .drainCheck (.only (setFreeze_frame _ _) (by decide) (.only (loseSedge_frame _) (by decide) h))

theorem Block.Canonical.pauseOf {i : Fin 4} (h : b.Canonical mem) : (Machine.pauseOf i b).Canonical mem := by
  unfold Machine.pauseOf
  split
  · exact .only (modemNext_frame _) (by decide) (.only (updUpd_frame _ _) (by decide) h)
  · exact .only (dykePause_frame _) (by decide) h
  · exact .only (carrPause_frame _) (by decide) h
  · exact .sedgePause h

theorem Block.Canonical.pauseStart (h : b.Canonical mem) : (Machine.pauseStart b).Canonical mem := by
  unfold Machine.pauseStart
  split
  · exact h
  · exact .ite h (.pauseOf (.only (updUpd_frame _ _) (by decide) h))

theorem Block.Canonical.resumeOf {i : Fin 4} (h : b.Canonical mem) : (Machine.resumeOf i b).Canonical mem := by
  unfold Machine.resumeOf
  split
  · exact .only (reviewHub_frame _) (by decide) (.only (updSaf_frame _ _) (by decide) (.only (updRst_frame _ _) (by decide) h))
  · exact .replan (.only (updRst_frame _ _) (by decide) h)
  · exact .driveFeed (.forAll (fun _ _ hd => .pilotReview hd) (.only (liftFreeze_frame _) (by decide) (.only (updRst_frame _ _) (by decide) h)))
  · exact h

theorem Block.Canonical.carrSwitched {what : U8} {old : U32} (h : b.Canonical mem) : (Machine.carrSwitched what old b).Canonical mem := by
  unfold Machine.carrSwitched
  extract_lets _ b1
  have hb1 : b1.Canonical mem := .only (legalLog_frame _ _ _ _) (by decide) h
  exact .forAll (fun _ _ hd => .onlyIf (fun _ he => .redrawStrip he) hd) hb1

theorem Block.Canonical.swapSlot {what : U8} {i : Fin 4} (h : b.Canonical mem) : (Machine.swapSlot what i b).Canonical mem := by
  unfold Machine.swapSlot
  extract_lets _ b1 b2
  have hb1 : b1.Canonical mem := .only (irq_frame _ _) (by decide) (.only (noteRunning_frame _ _) (by decide) (.only (updImage_frame _ _ _)
      (by decide) h))
  have hb2 : b2.Canonical mem := .resumeOf hb1
  exact .ite (.carrSwitched (.same hb2 ⟨rfl, rfl, rfl⟩)) hb2

theorem Block.Canonical.oldSettings (h : b.Canonical mem) : (Machine.oldSettings b).Canonical mem := by
  unfold Machine.oldSettings
  extract_lets
  split
  · exact h
  · exact .applyPort (.only (applyProtect_frame _ _) (by decide) (.only (applyVeh_frame _ _) (by decide) (.only (applySlu_frame _ _) (by decide)
        (.only (applySafety_frame _ _) (by decide) (.same h ⟨rfl, rfl, rfl⟩)))))

theorem Block.Canonical.answerSwitch {mbx : Option (Fin 4)} {payload : List U8} (h : b.Canonical mem) :
    (Machine.answerSwitch mbx payload b).Canonical mem := by
  unfold Machine.answerSwitch
  split
  · exact .ok h
  · exact h

theorem Block.Canonical.activated {p : Pause} (h : b.Canonical mem) : (Machine.activated p b).Canonical mem := by
  unfold Machine.activated
  extract_lets _ _ _ b1 b2 b3
  have hb1 : b1.Canonical mem := .onlyIf (fun _ hd => .only (migrate_frame _) (by decide) hd) h
  have hb2 : b2.Canonical mem := .only (setSlot_frame _ _ _ _) (by decide) (.only (setSlot_frame _ _ _ _) (by decide) hb1)
  have hb3 : b3.Canonical mem := .only (updUpd_frame _ _) (by decide) hb2
  exact .answerSwitch (.only (irqLog_frame _ _ _ _) (by decide) (.only (saveUpdate_frame _) (by decide) (.swapSlot hb3)))

theorem Block.Canonical.reverted {p : Pause} (h : b.Canonical mem) : (Machine.reverted p b).Canonical mem := by
  unfold Machine.reverted
  extract_lets _ _ b1 b2
  have hb1 : b1.Canonical mem := .only (setSlot_frame _ _ _ _) (by decide) (.only (setSlot_frame _ _ _ _) (by decide) h)
  have hb2 : b2.Canonical mem := .only (updUpd_frame _ _) (by decide) hb1
  exact .answerSwitch (.only (irq_frame _ _) (by decide) (.only (saveUpdate_frame _) (by decide) (.swapSlot (.onlyIf
      (fun _ hd => .oldSettings hd) hb2))))

theorem Block.Canonical.settingsReverted {p : Pause} (h : b.Canonical mem) : (Machine.settingsReverted p b).Canonical mem := by
  unfold Machine.settingsReverted
  extract_lets _ _ _ b1 b2
  have hb1 : b1.Canonical mem := .only (setSlot_frame _ _ _ _) (by decide) h
  have hb2 : b2.Canonical mem := .only (updUpd_frame _ _) (by decide) hb1
  exact .answerSwitch (.only (irqLog_frame _ _ _ _) (by decide) (.only (saveUpdate_frame _) (by decide) (.resumeOf hb2)))

theorem Block.Canonical.modemSwitched {p : Pause} {n : Fin 16} (h : b.Canonical mem) : (Machine.modemSwitched p n b).Canonical mem := by
  unfold Machine.modemSwitched
  extract_lets b1 _ b2
  have hb1 : b1.Canonical mem := .only (updUpd_frame _ _) (by decide) h
  have hb2 : b2.Canonical mem := .only (updUpd_frame _ _) (by decide) hb1
  exact .ite (.ite (.reverted hb2) (.activated hb2)) (.only (modemNext_frame _) (by decide) hb2)

theorem Block.Canonical.activationSwitch {converts : Bool} (h : b.Canonical mem) : (Machine.activationSwitch converts b).Canonical mem := by
  unfold Machine.activationSwitch
  split
  · exact h
  · refine .ite h (.ite ?_ (.ite (.reverted h) (.ite (.settingsReverted h) (.activated h))))
    split
    · exact .modemSwitched h
    · exact .only (modemNext_frame _) (by decide) h

theorem Block.Canonical.beginRevert {p : Pause} (h : b.Canonical mem) : (Machine.beginRevert p b).Canonical mem := by
  unfold Machine.beginRevert
  exact .pauseStart (.only (updUpd_frame _ _) (by decide) h)

theorem Block.Canonical.trialOver {t : Fin 4} (h : b.Canonical mem) : (Machine.trialOver t b).Canonical mem := by
  unfold Machine.trialOver
  exact .ite (.only (updUpd_frame _ _) (by decide) h) (.beginRevert (.only (updUpd_frame _ _) (by decide) h))

theorem Block.Canonical.trialExpired (h : b.Canonical mem) : (Machine.trialExpired b).Canonical mem := by
  unfold Machine.trialExpired
  split
  · exact h
  · exact .ite h (.ite (.trialOver h) (.afterTicks (fun _ hd => .trialOver hd) h))

theorem Block.Canonical.committed {i m : Fin 4} (h : b.Canonical mem) : (Machine.committed i m b).Canonical mem := by
  unfold Machine.committed
  extract_lets _ b1 b2 b3
  have hb1 : b1.Canonical mem := .only (setSlot_frame _ _ _ _) (by decide) (.only (setSlot_frame _ _ _ _) (by decide) h)
  have hb2 : b2.Canonical mem := .only (updUpd_frame _ _) (by decide) hb1
  have hb3 : b3.Canonical mem := by
    unfold b3
    split
    · exact .ite (.only (updPea_frame _ _) (by decide) (.same hb2 ⟨rfl, rfl, rfl⟩)) hb2
    · exact hb2
  exact .ok (.only (irq_frame _ _) (by decide) (.only (saveUpdate_frame _) (by decide) hb3))

theorem Block.Canonical.commitStep (h : b.Canonical mem) : (Machine.commitStep b).Canonical mem := by
  unfold Machine.commitStep
  split
  · exact h
  · extract_lets r
    have hr : r.1.Canonical mem := .only (ctrIncrement_frame _ _ _ _) (by decide) h
    refine .ite h (.ite ?_ (.committed h))
    split
    · exact hr
    · exact .internalFail (.only (updUpd_frame _ _) (by decide) h)

theorem Block.Canonical.lineWriteDone {c : LineCheck} (h : b.Canonical mem) : (Machine.lineWriteDone c b).Canonical mem := by
  unfold Machine.lineWriteDone
  exact .commitStep (.pauseStart (.lineDone h))

theorem Block.Canonical.updGetStatus {m : Fin 4} (h : b.Canonical mem) : (Machine.updGetStatus m b).Canonical mem := by
  unfold Machine.updGetStatus
  exact .ok h

theorem Block.Canonical.updStage {m : Fin 4} (h : b.Canonical mem) : (Machine.updStage m b).Canonical mem := by
  unfold Machine.updStage
  extract_lets
  exact .checked (fun _ hd => .beginFetch (.only (updUpd_frame _ _) (by decide) hd)) h

theorem Block.Canonical.updActivate {m : Fin 4} (h : b.Canonical mem) : (Machine.updActivate m b).Canonical mem := by
  unfold Machine.updActivate
  extract_lets _ _ _ go
  clear_value go
  split
  · exact .refuse (.ite (.same h ⟨rfl, rfl, rfl⟩) h)
  · exact .only (saveUpdate_frame _) (by decide) (.only (updUpd_frame _ _) (by decide) h)

theorem Block.Canonical.updCommit {m : Fin 4} (h : b.Canonical mem) : (Machine.updCommit m b).Canonical mem := by
  unfold Machine.updCommit
  extract_lets
  exact .checked (fun _ hd => .commitStep (.only (updUpd_frame _ _) (by decide) hd)) h

theorem Block.Canonical.updRevert {m : Fin 4} (h : b.Canonical mem) : (Machine.updRevert m b).Canonical mem := by
  unfold Machine.updRevert
  extract_lets
  exact .checked (fun _ hd => .beginRevert hd) h

theorem Block.Canonical.updDiscard {m : Fin 4} (h : b.Canonical mem) : (Machine.updDiscard m b).Canonical mem := by
  unfold Machine.updDiscard
  extract_lets
  exact .checked (fun _ hd => .ok (.only (setSlot_frame _ _ _ _) (by decide) (.only (updUpd_frame _ _) (by decide) hd))) h

theorem Block.Canonical.updSetConfig {m : Fin 4} (h : b.Canonical mem) : (Machine.updSetConfig m b).Canonical mem := by
  unfold Machine.updSetConfig
  extract_lets
  exact .checked (fun _ hd => .only (saveSettings_frame _) (by decide) (.ok (.only (updUpd_frame _ _) (by decide) hd))) h

theorem Block.Canonical.updGetManifest {m : Fin 4} (h : b.Canonical mem) : (Machine.updGetManifest m b).Canonical mem := by
  unfold Machine.updGetManifest
  extract_lets
  exact .checked (fun _ hd => .ok hd) h

theorem Block.Canonical.coreAgain {c : CoreId} {bad : U16} (h : b.Canonical mem) : (Machine.coreAgain c bad b).Canonical mem := by
  unfold Machine.coreAgain
  extract_lets b1
  have hb1 : b1.Canonical mem := .requesterMask (.only (updRst_frame _ _) (by decide) h)
  split
  · exact .driveFeed (.forAll (fun _ _ hd => .pilotReview hd) (.only (reviewHub_frame _) (by decide) (.forAll (fun _ _ hd => .deviceFault hd) hb1)))
  · exact .replan (.requesterMask (.only (updRst_frame _ _) (by decide) h))
  · exact .only (reviewHub_frame _) (by decide) (.only (updSaf_frame _ _) (by decide) (.only (updRst_frame _ _) (by decide) h))
  · exact .ite (.only (updPlc_frame _ _ _) (by decide) h) h

theorem Block.Canonical.coreRestartComplete {c : CoreId} {bad : U16} (h : b.Canonical mem) : (Machine.coreRestartComplete c bad b).Canonical mem := by
  unfold Machine.coreRestartComplete
  extract_lets _ b1
  have hb1 : b1.Canonical mem := .coreAgain h
  refine .ite h (.ite ?_ hb1)
  split
  · exact .beginRevert hb1
  · exact .reverted hb1

/-! ### Operations of Machine/MetCommands.lean -/

theorem Block.Canonical.sealClose {how : U8} (h : b.Canonical mem) : (Machine.sealClose how b).Canonical mem := by
  unfold Machine.sealClose
  extract_lets b1 b2
  have hb1 : b1.Canonical mem := .only (irq_frame _ _) (by decide) (.only (legalLog_frame _ _ _ _) (by decide) h)
  have hb2 : b2.Canonical mem := .cancelEntries hb1
  exact .only (updMet_frame _ _) (by decide) hb2

theorem Block.Canonical.metSealOpen {m : Fin 4} (h : b.Canonical mem) : (Machine.metSealOpen m b).Canonical mem := by
  unfold Machine.metSealOpen
  extract_lets a
  have ha : a.1.Canonical mem := .only (authorise_frame _ _ _ _) (by decide) h
  exact .ite (.refuse ha) (.checked (fun _ hd => .ok (.only (irq_frame _ _) (by decide) (.only (legalLog_frame _ _ _ _) (by decide) (.only
      (updMet_frame _ _) (by decide) hd)))) ha)

theorem Block.Canonical.metSealClose {m : Fin 4} (h : b.Canonical mem) : (Machine.metSealClose m b).Canonical mem := by
  unfold Machine.metSealClose
  exact .ite (.ok (.sealClose h)) (.ok h)

theorem Block.Canonical.sealTimeout (h : b.Canonical mem) : (Machine.sealTimeout b).Canonical mem := by
  unfold Machine.sealTimeout
  exact .ite (.afterTicks (fun _ hd => .sealClose hd) h) h

theorem Block.Canonical.metGetConfig {m : Fin 4} (h : b.Canonical mem) : (Machine.metGetConfig m b).Canonical mem := by
  unfold Machine.metGetConfig
  refine .checked (fun _ hd => ?_) h
  extract_lets
  exact .ok hd

theorem Block.Canonical.metSetConfig {m : Fin 4} (h : b.Canonical mem) : (Machine.metSetConfig m b).Canonical mem := by
  unfold Machine.metSetConfig
  extract_lets
  refine .checked (fun _ hd => ?_) h
  extract_lets
  exact .ok (.only (saveLegalConfig_frame _) (by decide) (.only (updChan_frame _ _ _) (by decide) hd))

theorem Block.Canonical.metLoadTable {m : Fin 4} (h : b.Canonical mem) : (Machine.metLoadTable m b).Canonical mem := by
  unfold Machine.metLoadTable
  extract_lets
  refine .checked (fun _ hd => ?_) h
  split
  · exact .respond hd
  · exact .ok (.only (updChan_frame _ _ _) (by decide) hd)

theorem Block.Canonical.metActivateTable {m : Fin 4} (h : b.Canonical mem) : (Machine.metActivateTable m b).Canonical mem := by
  unfold Machine.metActivateTable
  extract_lets
  refine .checked (fun _ hd => .ite (.ok hd) ?_) h
  extract_lets r
  have hr : r.1.Canonical mem := by
    unfold r
    refine .foldlFst (fun _ _ he => ?_) hd
    extract_lets _ y
    have hy : y.1.Canonical mem := .submitEntry he
    exact hy
  exact .ite hr (.internalFail (.cancelEntries hr))

theorem Block.Canonical.metReadTable {m : Fin 4} (h : b.Canonical mem) : (Machine.metReadTable m b).Canonical mem := by
  unfold Machine.metReadTable
  extract_lets
  refine .checked (fun _ hd => ?_) h
  extract_lets
  exact .ok hd

theorem Block.Canonical.metSetRaw {m : Fin 4} (h : b.Canonical mem) : (Machine.metSetRaw m b).Canonical mem := by
  unfold Machine.metSetRaw
  refine .checked (fun _ hd => ?_) h
  extract_lets
  exact .ok (.forAll (fun _ _ he => .only (updChan_frame _ _ _) (by decide) he) hd)

theorem Block.Canonical.metCalMeasure {m : Fin 4} (h : b.Canonical mem) : (Machine.metCalMeasure m b).Canonical mem := by
  unfold Machine.metCalMeasure
  extract_lets
  exact .checked (fun _ hd => .only (updMet_frame _ _) (by decide) hd) h

theorem Block.Canonical.metFpEval {m : Fin 4} (h : b.Canonical mem) : (Machine.metFpEval m b).Canonical mem := by
  unfold Machine.metFpEval
  extract_lets
  exact .checked (fun _ hd => .ok hd) h

theorem Block.Canonical.metClearCounts {m : Fin 4} (h : b.Canonical mem) : (Machine.metClearCounts m b).Canonical mem := by
  unfold Machine.metClearCounts
  exact .checked (fun _ hd => .ok (.forAll (fun _ _ he => .only (updChan_frame _ _ _) (by decide) he) hd)) h

theorem Block.Canonical.metSetNoload {m : Fin 4} (h : b.Canonical mem) : (Machine.metSetNoload m b).Canonical mem := by
  unfold Machine.metSetNoload
  extract_lets
  refine .checked (fun _ hd => ?_) h
  extract_lets
  exact .ok (.only (saveLegalConfig_frame _) (by decide) (.only (updPair_frame _ _ _) (by decide) hd))

theorem Block.Canonical.metSetUref {m : Fin 4} (h : b.Canonical mem) : (Machine.metSetUref m b).Canonical mem := by
  unfold Machine.metSetUref
  extract_lets
  refine .checked (fun _ hd => ?_) h
  extract_lets
  exact .ok (.only (saveLegalConfig_frame _) (by decide) (.only (updPair_frame _ _ _) (by decide) hd))

theorem Block.Canonical.metPqConfig {m : Fin 4} (h : b.Canonical mem) : (Machine.metPqConfig m b).Canonical mem := by
  unfold Machine.metPqConfig
  extract_lets
  refine .checked (fun _ hd => ?_) h
  extract_lets
  exact .ok (.only (saveLegalConfig_frame _) (by decide) (.only (updFeeder_frame _ _ _) (by decide) hd))

theorem Block.Canonical.metEnergyClearFlags {m : Fin 4} (h : b.Canonical mem) : (Machine.metEnergyClearFlags m b).Canonical mem := by
  unfold Machine.metEnergyClearFlags
  extract_lets
  refine .checked (fun _ hd => ?_) h
  extract_lets _ b1
  have hb1 : b1.Canonical mem := .same hd ⟨rfl, rfl, rfl⟩
  exact .ok (.only (legalLog_frame _ _ _ _) (by decide) hb1)

theorem Block.Canonical.metPqClearCounts {m : Fin 4} (h : b.Canonical mem) : (Machine.metPqClearCounts m b).Canonical mem := by
  unfold Machine.metPqClearCounts
  extract_lets
  exact .ok (.same h ⟨rfl, rfl, rfl⟩)

/-! ### Operations of Machine/Recorder.lean -/

theorem Block.Canonical.sendHeld {u n : Nat} (h : b.Canonical mem) : (Machine.sendHeld u n b).1.Canonical mem := by
  unfold Machine.sendHeld
  split
  · rename_i heq
    dsimp only
    exact .only (updBtn_frame _ _) (by decide) (.of_pair heq (.qEnqueue h))
  · rename_i heq
    dsimp only
    exact .only (updBtn_frame _ _) (by decide) (.of_pair heq (.qEnqueue h))
  · rename_i heq
    exact .qFree (.only (updBtn_frame _ _) (by decide) (.of_pair heq (.qEnqueue h)))

theorem Block.Canonical.sendNext (h : b.Canonical mem) : (Machine.sendNext b).1.Canonical mem := by
  unfold Machine.sendNext
  extract_lets
  refine .iteFst h ?_
  split
  · rename_i heq
    exact .of_pair heq (.qAlloc h)
  · rename_i heq
    exact .sendHeld (.setBuf (.of_pair heq (.qAlloc h)))

theorem Block.Canonical.sendAll {n : Nat} (h : b.Canonical mem) : (Machine.sendAll n b).Canonical mem := by
  induction n generalizing b with
  | zero => exact h
  | succ n ih =>
    unfold Machine.sendAll
    split
    · rename_i heq
      exact ih (.of_pair heq (.sendNext h))
    · rename_i heq
      exact .of_pair heq (.sendNext h)

theorem Block.Canonical.oplogFlush (h : b.Canonical mem) : (Machine.oplogFlush b).Canonical mem := by
  unfold Machine.oplogFlush
  exact .ite h (.only (notePending_frame _) (by decide) (.sendAll (.only (updBtn_frame _ _) (by decide) h)))

theorem Block.Canonical.heldAgain (h : b.Canonical mem) : (Machine.heldAgain b).Canonical mem := by
  unfold Machine.heldAgain
  split
  · exact h
  · exact .ite h (.onlyIf (fun _ hd => .oplogFlush hd) (.sendHeld h))

theorem Block.Canonical.fullRequeue (h : b.Canonical mem) : (Machine.fullRequeue b).Canonical mem := by
  unfold Machine.fullRequeue
  split
  · exact h
  · refine .atInstant (fun _ hd => ?_) h
    extract_lets
    exact .onlyIf (fun _ he => .heldAgain he) (.onlyIf (fun _ he => .flushHeld he) hd)

theorem Block.Canonical.btnRead {m : Fin 4} (h : b.Canonical mem) : (Machine.btnRead m b).Canonical mem := by
  unfold Machine.btnRead
  extract_lets
  exact .checked (fun _ hd => .ite (.ite hd (.ok hd)) (.ok hd)) h

theorem Block.Canonical.clearOp {m : Fin 4} {challenge : List U8} (h : b.Canonical mem) : (Machine.clearOp m challenge b).Canonical mem := by
  unfold Machine.clearOp
  extract_lets _ _ b1 b2
  have hb1 : b1.Canonical mem := .only (updBtn_frame _ _) (by decide) h
  have hb2 : b2.Canonical mem := .only (stageOp_frame _ _) (by decide) hb1
  exact .ok (.only (irq_frame _ _) (by decide) hb2)

theorem Block.Canonical.btnClear {m : Fin 4} (h : b.Canonical mem) : (Machine.btnClear m b).Canonical mem := by
  unfold Machine.btnClear
  extract_lets
  refine .checked (fun _ hd => ?_) h
  extract_lets a
  have ha : a.1.Canonical mem := .only (authorise_frame _ _ _ _) (by decide) hd
  exact .ite (.refuse ha) (.ite (.clearOp ha) (.only (clearLegal_frame _ _ _) (by decide) ha))

theorem Block.Canonical.clearStep (h : b.Canonical mem) : (Machine.clearStep b).Canonical mem := by
  unfold Machine.clearStep
  split
  · exact h
  · extract_lets _ b1
    have hb1 : b1.Canonical mem := .only (updBtn_frame _ _) (by decide) h
    exact .ite (.ok (.only (irq_frame _ _) (by decide) (.only (blankLines_frame _ _) (by decide) hb1))) (.ite (.internalFail (.only
        (updBtn_frame _ _) (by decide) h)) h)

theorem Block.Canonical.lineWritten {c : LineCheck} (h : b.Canonical mem) : (Machine.lineWritten c b).Canonical mem := by
  unfold Machine.lineWritten
  exact .ite h (.only (grantStep_frame _) (by decide) (.clearStep (.lineWriteDone h)))

theorem Block.Canonical.btnSetConfig {m : Fin 4} (h : b.Canonical mem) : (Machine.btnSetConfig m b).Canonical mem := by
  unfold Machine.btnSetConfig
  exact .checked (fun _ hd => .ok (.only (saveSettings_frame _) (by decide) (.only (updBtn_frame _ _) (by decide) hd))) h

theorem Block.Canonical.btnGetStatus {m : Fin 4} (h : b.Canonical mem) : (Machine.btnGetStatus m b).Canonical mem := by
  unfold Machine.btnGetStatus
  exact .ok h

theorem Block.Canonical.btnClearCounts {m : Fin 4} (h : b.Canonical mem) : (Machine.btnClearCounts m b).Canonical mem := by
  unfold Machine.btnClearCounts
  exact .ok (.only (updBtn_frame _ _) (by decide) h)

/-! ### Operations of Machine/Requests.lean -/

theorem Block.Canonical.beginRequest {s : Option ReqShape} {m : Fin 4} (h : b.Canonical mem) : (Machine.beginRequest s m b).Canonical mem := by
  unfold Machine.beginRequest
  extract_lets _ b1
  have hb1 : b1.Canonical mem := .setMbx h rfl rfl
  split
  · exact .refuse hb1
  · exact .ite (.refuse hb1) (.ite (.refuse hb1) hb1)

theorem Block.Canonical.requestStart {m : Fin 4} (h : b.Canonical mem) : (Machine.requestStart m b).Canonical mem := by
  unfold Machine.requestStart
  exact .ite (.atInstant (fun _ hd => .beginRequest hd) h) (.ite (.beginRequest h) h)

/-! ### Operations of Machine/Window.lean -/

theorem Block.Canonical.requestWrite {m : Fin 4} {a : Nat} {v : U32} (h : b.Canonical mem) : (Machine.requestWrite m a v b).Canonical mem := by
  unfold Machine.requestWrite
  refine .setMbxOf (fun hk => ?_) h
  subst hk
  exact ⟨Memory.wf_writeN _ _ (h m).1, (h m).2⟩

theorem Block.Canonical.writeLow {a : Nat} {v : U32} (h : b.Canonical mem) : (Machine.writeLow a v b).Canonical mem := by
  unfold Machine.writeLow
  extract_lets
  refine .ite (.same h ⟨rfl, rfl, rfl⟩) (.ite (.same h ⟨rfl, rfl, rfl⟩) (.ite (.only (rstWrite_frame _ _ _) (by decide) h) (.dite (fun _ => ?_)
      (fun _ => .dite (fun _ => .doorbellWrite h) (fun _ => h)))))
  extract_lets
  exact .setMbx h rfl rfl

theorem Block.Canonical.writeWord {a : Nat} {v : U32} (h : b.Canonical mem) : (Machine.writeWord a v b).Canonical mem := by
  unfold Machine.writeWord
  extract_lets
  split
  · exact .requestWrite h
  · exact .ite (.writeLow h) (.ite (.only (hicWrite_frame _ _ _) (by decide) h) (.ite (.only (tidWrite_frame _ _ _) (by decide) h) (.ite (.only
        (metWrite_frame _ _ _) (by decide) h) (.ite (.only (sluWrite_frame _ _ _) (by decide) h) (.ite (.only (mlkWrite_frame _ _ _) (by decide) h)
        (.ite (.only (vehWrite_frame _ _ _) (by decide) h) (.ite (.only (imdWrite_frame _ _ _) (by decide) h) (.ite (.same h ⟨rfl, rfl, rfl⟩) (.ite
        (.onlyIf (fun _ hd => .only (rplStop_frame _) (by decide) hd) h) h)))))))))

theorem Block.Canonical.commitWords {l : List (Nat × U32)} (h : b.Canonical mem) : (Machine.commitWords l b).Canonical mem := by
  unfold Machine.commitWords
  exact .forAll (fun _ _ hd => .writeWord hd) h

theorem Block.Canonical.writeFrame {real crc : Bool} {a : Nat} {words : List U32} (h : b.Canonical mem) :
    (Machine.writeFrame real crc a words b).Canonical mem := by
  unfold Machine.writeFrame
  extract_lets _ _ b1
  have hb1 : b1.Canonical mem := .only (hostItem_frame _ _ _ _) (by decide) (.same h ⟨rfl, rfl, rfl⟩)
  split
  · exact .only (winErr_frame _ _ _ _) (by decide) h
  · exact .commitWords hb1

theorem Block.Canonical.registerWrite {addr : U16} {words : List U32} {crc : Option U8} (h : b.Canonical mem) :
    (Machine.registerWrite addr words crc b).Canonical mem := by
  unfold Machine.registerWrite
  refine .ite h ?_
  split
  · exact .ite (.only (spiErr_frame _ _) (by decide) h) (.writeFrame h)
  · exact .ite (.only (spiErr_frame _ _) (by decide) h) (.ite (.only (spiErr_frame _ _) (by decide) h) (.writeFrame h))

theorem Block.Canonical.completeWrite {p : Fin 4} {v : U32} (h : b.Canonical mem) : (Machine.completeWrite p v b).Canonical mem := by
  unfold Machine.completeWrite
  exact .registerWrite h

theorem Block.Canonical.stopWrite (h : b.Canonical mem) : (Machine.stopWrite b).Canonical mem := by
  unfold Machine.stopWrite
  exact .registerWrite h

theorem Block.Canonical.badFrame {f : HostFrame} (h : b.Canonical mem) : (Machine.badFrame f b).Canonical mem := by
  unfold Machine.badFrame
  refine .ite h ?_
  split
  · exact .only (wholeRead_frame _ _ _ _) (by decide) h
  · exact .only (spiErr_frame _ _) (by decide) (.only (readFrame_frame _ _ _ _) (by decide) h)
  · exact .registerWrite h
  · exact .only (spiErr_frame _ _) (by decide) h

end Machine

end Sys2Proof
end

section
/-! PROOFS. The canonical form of the addressed memories through the operations
of replay, debug, the dump, the launcher's items and the tick. -/

namespace Sys2Proof

open Machine

namespace Machine

variable {mem : Addressed} {b : Block}

/-! ### Operations of Machine/Replay.lean -/

theorem Block.Canonical.traceSend (h : b.Canonical mem) : (Machine.traceSend b).1.Canonical mem := by
  unfold Machine.traceSend
  extract_lets
  split
  · rename_i heq
    dsimp only
    exact .only (updRpl_frame _ _) (by decide) (.of_pair heq (.sendRecord h))
  · rename_i heq
    exact .of_pair heq (.sendRecord h)

theorem Block.Canonical.traceAux {n : Nat} (h : b.Canonical mem) : (Machine.traceAux n b).Canonical mem := by
  induction n generalizing b with
  | zero => exact h
  | succ n ih =>
    unfold Machine.traceAux
    refine .ite h ?_
    split
    · rename_i heq
      exact ih (.of_pair heq (.traceSend h))
    · rename_i heq
      exact .of_pair heq (.traceSend h)

theorem Block.Canonical.traceFlush (h : b.Canonical mem) : (Machine.traceFlush b).Canonical mem := by
  unfold Machine.traceFlush
  extract_lets b1
  have hb1 : b1.Canonical mem := .ite (.only (settleItems_frame _ _) (by decide) h) h
  exact .ite hb1 (.traceAux hb1)

theorem Block.Canonical.traceOverflow (h : b.Canonical mem) : (Machine.traceOverflow b).Canonical mem := by
  unfold Machine.traceOverflow
  extract_lets b1
  have hb1 : b1.Canonical mem := .traceFlush h
  exact .ite (.only (recordEnd_frame _ _) (by decide) hb1) hb1

theorem Block.Canonical.presentMet {p : List U8} (h : b.Canonical mem) : (Machine.presentMet p b).Canonical mem := by
  unfold Machine.presentMet
  extract_lets _ b1
  have hb1 : b1.Canonical mem := .forAll (fun _ _ hd => .ite (.modulatorFault hd) (.only (modulatorFaultClear_frame _ _) (by decide) hd)) h
  exact .only (sampleInstant_frame _ _) (by decide) hb1

theorem Block.Canonical.presentMlk {p : List U8} (h : b.Canonical mem) : (Machine.presentMlk p b).Canonical mem := by
  unfold Machine.presentMlk
  extract_lets
  exact .forAll (fun _ _ hd => .uplinkSlot hd) h

theorem Block.Canonical.presentSafety {p : List U8} (h : b.Canonical mem) : (Machine.presentSafety p b).Canonical mem := by
  unfold Machine.presentSafety
  extract_lets b1
  have hb1 : b1.Canonical mem := .forAll (fun _ _ hd => .only (updNode_frame _ _ _) (by decide) hd) h
  refine .forAll (fun _ _ hd => ?_) hb1
  extract_lets
  exact .ite hd (.ite (.only (safetyInputClose_frame _ _) (by decide) hd) (.safetyInputOpen hd))

theorem Block.Canonical.presentHost {p : List U8} (h : b.Canonical mem) : (Machine.presentHost p b).Canonical mem := by
  unfold Machine.presentHost
  extract_lets
  refine .ite (.commitWords (.same h ⟨rfl, rfl, rfl⟩)) ?_
  split
  · exact .only (hicClaim_frame _ _) (by decide) h
  · exact h

theorem Block.Canonical.presentRecord {l : List U8} (h : b.Canonical mem) : (Machine.presentRecord l b).Canonical mem := by
  unfold Machine.presentRecord
  extract_lets
  split
  · rename_i heq
    exact .judgeRecord (.setBuf (.of_pair heq (.qAlloc h)))
  · rename_i heq
    exact .of_pair heq (.qAlloc h)

theorem Block.Canonical.presentPower {p : List U8} (h : b.Canonical mem) : (Machine.presentPower p b).Canonical mem := by
  unfold Machine.presentPower
  extract_lets _ b1 b2
  have hb1 : b1.Canonical mem := .same h ⟨rfl, rfl, rfl⟩
  have hb2 : b2.Canonical mem := .onlyIf (fun _ hd => .powerFailWarning hd) hb1
  exact .onlyIf (fun _ hd => .powerFailCleared hd) hb2

theorem Block.Canonical.itemPresent {i : List U8} (h : b.Canonical mem) : (Machine.itemPresent i b).Canonical mem := by
  unfold Machine.itemPresent
  extract_lets
  split
  · exact .presentMet h
  · exact .presentMlk h
  · exact .same h ⟨rfl, rfl, rfl⟩
  · exact .presentSafety h
  · exact .presentHost h
  · exact .presentRecord h
  · exact .only (presentBackup_frame _ _) (by decide) h
  · exact .lineWritten h
  · exact .presentPower h
  · exact .only (updRpl_frame _ _) (by decide) h
  · exact .only (replayEnd_frame _ _) (by decide) h
  · exact .only (updRpl_frame _ _) (by decide) h
  · exact h

theorem Block.Canonical.presentAux {n : Nat} (h : b.Canonical mem) : (Machine.presentAux n b).Canonical mem := by
  induction n generalizing b with
  | zero => exact h
  | succ n ih =>
    unfold Machine.presentAux
    refine .ite h ?_
    split
    · exact h
    · exact .ite (ih (.itemPresent (.only (updRpl_frame _ _) (by decide) h))) h

theorem Block.Canonical.presentDue (h : b.Canonical mem) : (Machine.presentDue b).Canonical mem := by
  unfold Machine.presentDue
  exact .ite (.only (checkCompare_frame _) (by decide) (.presentAux h)) h

theorem Block.Canonical.traceIn (h : b.Canonical mem) : (Machine.traceIn b).Canonical mem := by
  unfold Machine.traceIn
  refine .ite h ?_
  split
  · rename_i heq
    exact .of_pair heq (.qDequeue h)
  · rename_i heq
    extract_lets _ b1 b2
    have hb1 : b1.Canonical mem := .qFree (.of_pair heq (.qDequeue h))
    have hb2 : b2.Canonical mem := .ite (.only (updRpl_frame _ _) (by decide) hb1) hb1
    exact .presentDue (.only (acceptAux_frame _ _) (by decide) hb2)

theorem Block.Canonical.recArm {m : Fin 4} (h : b.Canonical mem) : (Machine.recArm m b).Canonical mem := by
  unfold Machine.recArm
  extract_lets
  refine .checked (fun _ hd => ?_) h
  extract_lets b1 b2
  have hb1 : b1.Canonical mem := .only (updRpl_frame _ _) (by decide) hd
  have hb2 : b2.Canonical mem := .ite (.only (updRpl_frame _ _) (by decide) hb1) (.only (recordEnd_frame _ _) (by decide) (.only (updRpl_frame _ _)
      (by decide) hb1))
  exact .ok (.only (saveSettings_frame _) (by decide) hb2)

theorem Block.Canonical.rplArm {m : Fin 4} (h : b.Canonical mem) : (Machine.rplArm m b).Canonical mem := by
  unfold Machine.rplArm
  extract_lets
  refine .checked (fun _ hd => ?_) h
  extract_lets a b1
  have ha : a.1.Canonical mem := .only (authorise_frame _ _ _ _) (by decide) hd
  have hb1 : b1.Canonical mem := .only (legalLog_frame _ _ _ _) (by decide) ha
  exact .ite (.refuse ha) (.ok (.only (updRst_frame _ _) (by decide) hb1))

theorem Block.Canonical.rplGetStatus {m : Fin 4} (h : b.Canonical mem) : (Machine.rplGetStatus m b).Canonical mem := by
  unfold Machine.rplGetStatus
  exact .ok h

/-! ### Operations of Machine/Debug.lean -/

theorem Block.Canonical.accessDo {op : DebugOp} (h : b.Canonical mem) : (Machine.accessDo op b).Canonical mem := by
  unfold Machine.accessDo
  extract_lets
  split
  · exact .only (scan_frame _ _ _) (by decide) h
  · exact .ite (.only (scan_frame _ _ _) (by decide) (.writeFrame h)) (.only (scan_frame _ _ _) (by decide) h)
  · exact .ite (.only (scan_frame _ _ _) (by decide) (.only (updDbg_frame _ _) (by decide) h)) (.only (scan_frame _ _ _) (by decide) h)
  · exact .ite (.only (scan_frame _ _ _) (by decide) (.only (updDbg_frame _ _) (by decide) h)) (.only (scan_frame _ _ _) (by decide) h)
  · exact .only (scan_frame _ _ _) (by decide) h
  · exact .ite (.only (scan_frame _ _ _) (by decide) (.same h ⟨rfl, rfl, rfl⟩)) (.only (scan_frame _ _ _) (by decide) h)

theorem Block.Canonical.dbgAccess {op : DebugOp} (h : b.Canonical mem) : (Machine.dbgAccess op b).Canonical mem := by
  unfold Machine.dbgAccess
  exact .availableIf (fun _ hd => .accessDo hd) h

theorem Block.Canonical.haltEffect {c : CoreId} (h : b.Canonical mem) : (Machine.haltEffect c b).Canonical mem := by
  unfold Machine.haltEffect
  split
  · exact .only (loseSedge_frame _) (by decide) h
  · exact .deviceFault (.only (updRst_frame _ _) (by decide) h)
  · exact .loseDyke h
  · exact .only (updPlc_frame _ _ _) (by decide) (.loseModem h)

theorem Block.Canonical.haltNow {c : CoreId} (h : b.Canonical mem) : (Machine.haltNow c b).Canonical mem := by
  unfold Machine.haltNow
  exact .haltEffect (.only (irq_frame _ _) (by decide) (.only (updDbg_frame _ _) (by decide) h))

theorem Block.Canonical.haltStep (h : b.Canonical mem) : (Machine.haltStep b).Canonical mem := by
  unfold Machine.haltStep
  exact .ite (.haltNow (.only (updDbg_frame _ _) (by decide) h)) h

theorem Block.Canonical.haltDyke (h : b.Canonical mem) : (Machine.haltDyke b).Canonical mem := by
  unfold Machine.haltDyke
  extract_lets b1
  have hb1 : b1.Canonical mem := .ite (.contain h) h
  exact .haltStep (.only (updDbg_frame _ _) (by decide) hb1)

theorem Block.Canonical.debugHalt {c : CoreId} (h : b.Canonical mem) : (Machine.debugHalt c b).Canonical mem := by
  unfold Machine.debugHalt
  exact .ite h (.ite (.haltDyke h) (.haltNow h))

theorem Block.Canonical.debugResume {c : CoreId} (h : b.Canonical mem) : (Machine.debugResume c b).Canonical mem := by
  unfold Machine.debugResume
  exact .ite (.only (irq_frame _ _) (by decide) (.coreAgain (.only (updDbg_frame _ _) (by decide) h))) h

theorem Block.Canonical.debugReset {hub : Bool} {c : CoreId} (h : b.Canonical mem) : (Machine.debugReset hub c b).Canonical mem := by
  unfold Machine.debugReset
  refine .ite h (.ite ?_ (.coreRestart (.only (updDbg_frame _ _) (by decide) h)))
  split
  · exact h
  · exact .stopStart h

/-! ### Operations of Machine/Dump.lean -/

theorem Block.Canonical.dumpFreeze (h : b.Canonical mem) : (Machine.dumpFreeze b).Canonical mem := by
  unfold Machine.dumpFreeze
  exact .ite h (.drainCheck (.only (updArb_frame _ _) (by decide) (.only (setFreeze_frame _ _) (by decide) h)))

theorem Block.Canonical.fatalAct {cause : U16} (h : b.Canonical mem) : (Machine.fatalAct cause b).Canonical mem := by
  unfold Machine.fatalAct
  extract_lets b1 b2
  have hb1 : b1.Canonical mem := .only (irq_frame _ _) (by decide) (.only (legalLog_frame _ _ _ _) (by decide) h)
  have hb2 : b2.Canonical mem := .deviceFault (.only (updDmp_frame _ _) (by decide) hb1)
  exact .ite (.only (irq_frame _ _) (by decide) (.only (updDmp_frame _ _) (by decide) hb2)) (.only (fatalNote_frame _ _) (by decide)
      (.dumpFreeze hb2))

theorem Block.Canonical.fatalError (h : b.Canonical mem) : (Machine.fatalError b).Canonical mem := by
  unfold Machine.fatalError
  split
  · exact h
  · exact .fatalAct (.only (updDmp_frame _ _) (by decide) h)

theorem Block.Canonical.exportAux {header : List U8} {n : Nat} (h : b.Canonical mem) : (Machine.exportAux header n b).Canonical mem := by
  induction n generalizing b with
  | zero => exact h
  | succ n ih =>
    unfold Machine.exportAux
    split
    · exact h
    · refine .ite (.ok (.only (updDmp_frame _ _) (by decide) h)) ?_
      split
      · rename_i heq
        exact ih (.only (updDmp_frame _ _) (by decide) (.of_pair heq (.sendRecord h)))
      · rename_i heq
        exact .of_pair heq (.sendRecord h)

theorem Block.Canonical.exportStep (h : b.Canonical mem) : (Machine.exportStep b).Canonical mem := by
  unfold Machine.exportStep
  exact .ite (.exportAux h) h

theorem Block.Canonical.dmpGetStatus {m : Fin 4} (h : b.Canonical mem) : (Machine.dmpGetStatus m b).Canonical mem := by
  unfold Machine.dmpGetStatus
  exact .ok h

theorem Block.Canonical.dmpExport {m : Fin 4} (h : b.Canonical mem) : (Machine.dmpExport m b).Canonical mem := by
  unfold Machine.dmpExport
  exact .ite h (.checked (fun _ hd => .exportStep (.only (updDmp_frame _ _) (by decide) hd)) h)

theorem Block.Canonical.dmpRelease {m : Fin 4} (h : b.Canonical mem) : (Machine.dmpRelease m b).Canonical mem := by
  unfold Machine.dmpRelease
  exact .checked (fun _ hd => .ok (.only (updDmp_frame _ _) (by decide) hd)) h

theorem Block.Canonical.dmpTrigger {m : Fin 4} (h : b.Canonical mem) : (Machine.dmpTrigger m b).Canonical mem := by
  unfold Machine.dmpTrigger
  extract_lets a
  have ha : a.1.Canonical mem := .only (authorise_frame _ _ _ _) (by decide) h
  exact .ite (.ok (.only (raiseFatal_frame _ _) (by decide) ha)) (.refuse ha)

/-! ### Operations of Machine/Fire.lean -/

theorem Block.Canonical.snapshotAnswer {m : Fin 4} {e : Entry} {s : U8} (h : b.Canonical mem) : (Machine.snapshotAnswer m e s b).Canonical mem := by
  unfold Machine.snapshotAnswer
  extract_lets
  exact .ite (.ite (.ok h) (.same h ⟨rfl, rfl, rfl⟩)) (.respond h)

theorem Block.Canonical.snapExport {x : Fin 4 × Entry} (h : b.Canonical mem) : (Machine.snapExport x b).Canonical mem := by
  unfold Machine.snapExport
  extract_lets _ _ r
  have hr : r.1.Canonical mem := .sendRecords h
  exact .ite (.ok hr) (.refuse hr)

theorem Block.Canonical.snapExports (h : b.Canonical mem) : (Machine.snapExports b).Canonical mem := by
  unfold Machine.snapExports
  extract_lets
  exact .forAll (fun _ _ hd => .snapExport hd) (.same h ⟨rfl, rfl, rfl⟩)

theorem Block.Canonical.activateAnswer {m : Fin 4} {e : Entry} (h : b.Canonical mem) : (Machine.activateAnswer m e b).Canonical mem := by
  unfold Machine.activateAnswer
  extract_lets
  exact .ite h (.ok h)

theorem Block.Canonical.boundaryFire {a : U64} (h : b.Canonical mem) : (Machine.boundaryFire a b).Canonical mem := by
  unfold Machine.boundaryFire
  extract_lets
  split
  · exact h
  · extract_lets _ _ b1 b2 b3 b4
    have hb1 : b1.Canonical mem := .ite (.only (switchTariff_frame _ _ _) (by decide) h) h
    have hb2 : b2.Canonical mem := .ite (.only (saveLegalConfig_frame _) (by decide) (.only (irq_frame _ _) (by decide) (.only
        (legalLog_frame _ _ _ _) (by decide) (.only (updSlt_frame _ _) (by decide) hb1)))) hb1
    have hb3 : b3.Canonical mem := .ite (.only (noteClosing_frame _ _) (by decide) hb2) hb2
    have hb4 : b4.Canonical mem := .ite (.only (updSlt_frame _ _) (by decide) hb3) hb3
    exact .replan hb4

theorem Block.Canonical.targetFire {b0 : Block} {e : Entry} (h : b.Canonical mem) : (Machine.targetFire b0 e b).Canonical mem := by
  unfold Machine.targetFire
  split
  · exact .ite (.only (mlkSetpoint_frame _ _ _) (by decide) h) (.ite (.only (mlkOpen_frame _ _) (by decide) h) (.ite (.only (mlkMatch_frame _ _ _)
        (by decide) h) (.only (mlkClose_frame _ _ _) (by decide) h)))
  · exact .ite (.only (hsTurnOn_frame _ _) (by decide) h) (.ite (.only (hsTurnOff_frame _ _) (by decide) h) (.only (hsSetDuty_frame _ _ _)
        (by decide) h))
  · exact .only (pilotDuty_frame _ _ _) (by decide) h
  · exact .only (driveFire_frame _ _ _) (by decide) h
  · exact .only (snapshotTake_frame _ _ _ _) (by decide) h
  · exact .only (armCapture_frame _ _ _) (by decide) h
  · exact .boundaryFire h
  · exact .only (tableActivate_frame _ _ _) (by decide) h
  · exact h

theorem Block.Canonical.resolvedHook {r : Nat} {e : Entry} {s : U8} {t : U64} (h : b.Canonical mem) : (Machine.resolvedHook r e s t b).Canonical mem := by
  unfold Machine.resolvedHook
  exact .ite (.sluResolved h) (.ite (.ite h (.dutyLost h)) (.ite (.ite (.lockEntryLost h) h) (.ite (.dite (fun _ => .ok h) (fun _ => h)) (.ite
      (.dite (fun _ => .snapshotAnswer h) (fun _ => h)) (.ite (.ite (.rearmCapture h) h) (.ite (.driveFeed h) (.ite (.ite h (.boundaryLost h)) (.ite
      (.dite (fun _ => .activateAnswer h) (fun _ => h)) h))))))))

theorem Block.Canonical.entryResolve {r : Nat} {i : RingItem} {s : U8} {t : U64} (h : b.Canonical mem) :
    (Machine.entryResolve r i s t b).Canonical mem := by
  unfold Machine.entryResolve
  exact .resolvedHook (.resolveItem h)

theorem Block.Canonical.fireOne {b0 : Block} {lost second : Bool} {due : List (Nat × RingItem)} {x : Nat × RingItem} (h : b.Canonical mem) :
    (Machine.fireOne b0 lost second due x b).Canonical mem := by
  unfold Machine.fireOne
  split
  · exact h
  · extract_lets _ _ b1 _ b2 b3
    have hb1 : b1.Canonical mem := .only (setItem_frame _ _ _ _) (by decide) h
    have hb2 : b2.Canonical mem := .ite (.same hb1 ⟨rfl, rfl, rfl⟩) hb1
    have hb3 : b3.Canonical mem := .ite (.targetFire hb2) hb2
    exact .ite h (.ite hb3 (.entryResolve hb3))

theorem Block.Canonical.fireDue {due : List (Nat × RingItem)} {first second : Bool} (h : b.Canonical mem) :
    (Machine.fireDue due first second b).Canonical mem := by
  unfold Machine.fireDue
  exact .forAll (fun _ _ hd => .only (trimRing_frame _ _) (by decide) hd) (.forAll (fun _ _ hd => .fireOne hd) h)

theorem Block.Canonical.fireAt {t : U64} {first second : Bool} (h : b.Canonical mem) : (Machine.fireAt t first second b).Canonical mem := by
  unfold Machine.fireAt
  exact .fireDue h

theorem Block.Canonical.entryFire {first second : Bool} (h : b.Canonical mem) : (Machine.entryFire first second b).Canonical mem := by
  unfold Machine.entryFire
  split
  · exact h
  · exact .ite (.atInstant (fun _ hd => .fireAt hd) h) h

theorem Block.Canonical.fireLink (h : b.Canonical mem) : (Machine.fireLink b).Canonical mem := by
  unfold Machine.fireLink
  exact .ite (.fireDue h) h

theorem Block.Canonical.mlkCycle {readback : BitVec 8} (h : b.Canonical mem) : (Machine.mlkCycle readback b).Canonical mem := by
  unfold Machine.mlkCycle
  exact .atInstant (fun _ hd => .linkCycle (.fireLink hd)) h

theorem Block.Canonical.adieOne {x : Nat × RingItem} (h : b.Canonical mem) : (Machine.adieOne x b).Canonical mem := by
  unfold Machine.adieOne
  split
  · exact .entryResolve (.only (setItem_frame _ _ _ _) (by decide) h)
  · exact h

theorem Block.Canonical.adieResult (h : b.Canonical mem) : (Machine.adieResult b).Canonical mem := by
  unfold Machine.adieResult
  split
  · exact h
  · extract_lets
    refine .atInstant (fun _ hd => ?_) h
    extract_lets
    exact .forAll (fun _ _ he => .only (trimRing_frame _ _) (by decide) he) (.forAll (fun _ _ he => .adieOne he) hd)

theorem Block.Canonical.takeItem {r u : Nat} (h : b.Canonical mem) : (Machine.takeItem r u b).Canonical mem := by
  unfold Machine.takeItem
  extract_lets _ _ _ _ s _ chained
  have hchained : chained.Canonical mem := .only (setRing_frame _ _ _) (by decide) h
  clear_value s
  split
  · exact .only (trimRing_frame _ _) (by decide) (.entryResolve hchained)
  · exact .same hchained ⟨rfl, rfl, rfl⟩

theorem Block.Canonical.takeEntry {r : Nat} (h : b.Canonical mem) : (Machine.takeEntry r b).Canonical mem := by
  unfold Machine.takeEntry
  refine .ite h ?_
  split
  · rename_i heq
    exact .takeItem (.of_pair heq (.qDequeue h))
  · rename_i heq
    exact .of_pair heq (.qDequeue h)

/-! ### Operations of Machine/Tick.lean -/

theorem Block.Canonical.waitingRevert (h : b.Canonical mem) : (Machine.waitingRevert b).Canonical mem := by
  unfold Machine.waitingRevert
  split
  · exact .ite (.trialOver h) h
  · exact h

theorem Block.Canonical.backgroundWork (h : b.Canonical mem) : (Machine.backgroundWork b).Canonical mem := by
  unfold Machine.backgroundWork
  exact .presentDue (.traceFlush (.exportStep (.haltStep (.waitingRevert (.only (shutdownDue_frame _) (by decide) (.snapExports (.only
      (periodStep_frame _) (by decide) (.only (signWhenFree_frame _) (by decide) (.only (vbatLog_frame _) (by decide) h)))))))))

theorem Block.Canonical.tick (h : b.Canonical mem) : (Machine.tick b).Canonical mem := by
  unfold Machine.tick
  exact .backgroundWork (.only (countTide_frame _) (by decide) h)

end Machine

end Sys2Proof
end

section
/-! PROOFS. Every step keeps the canonical form of the panel frames, the record SRAM and the mailbox buffers (R422, R460, R469). -/

namespace Sys2Proof

open Machine

namespace Machine

variable {k : Addressed} {s t : State}

/-- A row whose frame names none of their units keeps the form of the memories. -/
theorem Only.canonical {l : List Part} (hf : Only l s t) (hl : Part.frames ∉ l ∧ Part.qmg ∉ l ∧ Part.mbx ∉ l)
    (hs : s.block.Canonical k) : t.block.Canonical k :=
  .only hf.2 hl hs

/-- The row of every command keeps the form: its operation does, or its frame names none of the three units. The rows stand in the
order of `exec`. -/
theorem exec_canonical {c : Instr} (h : exec c s = .next t) (hs : s.block.Canonical k) : t.block.Canonical k := by
  unfold exec at h
  split at h
  · exact Only.canonical (execSampleInstant_frame _ h) (by decide) hs
  · exact run_canonical h (.metrologyPublish hs)
  · exact Only.canonical (execZcSyncLost_frame _ h) (by decide) hs
  · exact Only.canonical (execSegmentBlockEnd_frame _ h) (by decide) hs
  · exact input_canonical h hs (.modulatorFault hs)
  · exact Only.canonical (execModulatorFaultClear_frame _ h) (by decide) hs
  · exact Only.canonical (execChannelSettled_frame _ h) (by decide) hs
  · exact run_canonical h (.salternApply hs)
  · exact run_canonical h (.brinePublish hs)
  · exact run_canonical h (.engineComplete hs)
  · exact run_canonical h (.engineOverrun hs)
  · exact run_canonical h (.takeEntry hs)
  · exact run_canonical h (.entryFire hs)
  · exact run_canonical h (.adieResult hs)
  · exact Only.canonical (execPpsEdge_frame _ h) (by decide) hs
  · exact Only.canonical (execPpsLost_frame h) (by decide) hs
  · exact run_canonical h (.allocationBoundary hs)
  · exact run_canonical h (.sluicePublish hs)
  · exact Only.canonical (execMaxDelayExpired_frame _ h) (by decide) hs
  · exact run_canonical h (.reasonHoldExpired hs)
  · exact Only.canonical (execSurplusRelease_frame _ h) (by decide) hs
  · exact run_canonical h (.leaveWaitTimeout hs)
  · exact run_canonical h (.prechargeDone hs)
  · exact run_canonical h (.prechargeTimeout hs)
  · exact run_canonical h (.handoverVerify hs)
  · exact run_canonical h (.handoverEvaluate hs)
  · exact run_canonical h (.handoverTimeout hs)
  · exact run_canonical h (.mlkCycle hs)
  · exact input_canonical h hs (.uplinkSlot hs)
  · exact input_canonical h hs (.ocTrip hs)
  · exact Only.canonical (execOcRelease_frame _ h) (by decide) hs
  · exact Only.canonical (execModuleStale_frame _ h) (by decide) hs
  · exact run_canonical h (.laneFault hs)
  · exact run_canonical h (.d2dFrame hs)
  · exact Only.canonical (execAdiePermitTimeout_frame h) (by decide) hs
  · exact Only.canonical (execAdieRcWatchdog_frame h) (by decide) hs
  · exact run_canonical h (.tideLoss hs)
  · exact run_canonical h (.dykeTideCheck hs)
  · exact Only.canonical (execBarrierOpen_frame h) (by decide) hs
  · exact Only.canonical (execBarrierArrive_frame _ h) (by decide) hs
  · exact run_canonical h (.barrierRelease hs)
  · exact input_canonical h hs (.pilotSample hs)
  · exact run_canonical h (.cpConfirmed hs)
  · exact run_canonical h (.diodeConfirmed hs)
  · exact run_canonical h (.senseFault hs)
  · exact run_canonical h (.senseClear hs)
  · exact run_canonical h (.ppConfirmed hs)
  · exact run_canonical h (.cpRestartEnd hs)
  · exact input_canonical h hs (.cableTempMeasure hs)
  · exact input_canonical h hs (.lockStall hs)
  · exact run_canonical h (.lockOffDelay hs)
  · exact run_canonical h (.lockTimeout hs)
  · exact input_canonical h hs (.lockOpenLoad hs)
  · exact run_canonical h (.lockRetry hs)
  · exact Only.canonical (execCmSlacParmReq_frame _ _ _ h) (by decide) hs
  · exact input_canonical h hs (.startAttenChar hs)
  · exact Only.canonical (execCmMnbcSoundInd_frame _ _ h) (by decide) hs
  · exact run_canonical h (.soundingEnd hs)
  · exact Only.canonical (execCmSlacMatchReq_frame _ _ _ h) (by decide) hs
  · exact input_canonical h hs (.vehicleJoined hs)
  · exact run_canonical h (.slacTimerExpired hs)
  · exact run_canonical h (.slacRestartEnd hs)
  · exact input_canonical h hs (.validationEnd hs)
  · exact Only.canonical (execEraseRateWindow_frame _ _ _ _ _ h) (by decide) hs
  · exact run_canonical h (.modemFault hs)
  · exact input_canonical h hs (.v2gRequest hs)
  · exact run_canonical h (.v2gSeqTimeout hs)
  · exact input_canonical h hs (.v2gLinkLoss hs)
  · exact input_canonical h hs (.imdResult hs)
  · exact Only.canonical (execBaselineLate_frame _ h) (by decide) hs
  · exact run_canonical h (.imdStale hs)
  · exact Only.canonical (execImdRailFault_frame _ _ h) (by decide) hs
  · exact run_canonical h (.cableCheckTimeout hs)
  · exact run_canonical h (.rcmBlockEnd hs)
  · exact Only.canonical (execRcmWarning_frame _ h) (by decide) hs
  · exact run_canonical h (.rcmLost hs)
  · exact run_canonical h (.rcmTestEnd hs)
  · exact input_canonical h hs (.testPulse hs)
  · exact Only.canonical (execPairFaultClear_frame _ h) (by decide) hs
  · exact input_canonical h hs (.safetyInputOpen hs)
  · exact input_canonical h hs (.ilkFault hs)
  · exact run_canonical h (.dykeAliveTimeout hs)
  · exact run_canonical h (.disagreeTimeout hs)
  · exact input_canonical h hs (.ovTrip hs)
  · exact input_canonical h hs (.pilotBackup hs)
  · exact run_canonical h (.rampedStop hs)
  · exact run_canonical h (.closeTimeout hs)
  · exact run_canonical h (.openCheck hs)
  · exact run_canonical h (.weldTestStart hs)
  · exact run_canonical h (.weldTestCompare hs)
  · exact input_canonical h hs (.resetPulse hs)
  · exact Only.canonical (execResetArmExpired_frame h) (by decide) hs
  · exact run_canonical h (.windowExpired hs)
  · exact input_canonical h hs (.switchMeasure hs)
  · exact input_canonical h hs (.switchOvertemp hs)
  · exact Only.canonical (execSwitchThermalRestart_frame _ h) (by decide) hs
  · exact Only.canonical (execVinSysRange_frame _ h) (by decide) hs
  · exact Only.canonical (execCoilPullEnd_frame _ h) (by decide) hs
  · exact Only.canonical (execCoilRcoilLearn_frame _ _ h) (by decide) hs
  · exact Only.canonical (execPackageCurrentCheck_frame h) (by decide) hs
  · exact Only.canonical (execLimpInput_frame _ _ h) (by decide) hs
  · exact Only.canonical (execBackupChangeover_frame _ _ h) (by decide) hs
  · exact Only.canonical (execPeatWriteRequest_frame _ _ h) (by decide) hs
  · exact Only.canonical (execArbiterDecision_frame h) (by decide) hs
  · exact input_canonical h hs (.lineWritten hs)
  · exact Only.canonical (execBackoffEnd_frame _ h) (by decide) hs
  · exact Only.canonical (execRequestWithdraw_frame _ h) (by decide) hs
  · exact run_canonical h (.requesterMask hs)
  · exact run_canonical h (.holdWatchdog hs)
  · exact Only.canonical (execGapMove_frame h) (by decide) hs
  · exact Only.canonical (execCounterIncrement_frame _ _ h) (by decide) hs
  · exact Only.canonical (execDeltaEpoch_frame h) (by decide) hs
  · exact input_canonical h hs (.powerFailWarning hs)
  · exact Only.canonical (execPfCommitDone_frame h) (by decide) hs
  · exact Only.canonical (execPfCommitLate_frame h) (by decide) hs
  · exact Only.canonical (execQuiescentCommit_frame h) (by decide) hs
  · exact Only.canonical (execPfHoldEnd_frame h) (by decide) hs
  · exact input_canonical h hs (.powerFailClear hs)
  · exact run_canonical h (.signEngineComplete hs)
  · exact Only.canonical (execSignRetry_frame h) (by decide) hs
  · exact run_canonical h (.heldReadingsFlush hs)
  · exact run_canonical h (.fullRequeue hs)
  · exact Only.canonical (execTamperSample_frame _ h) (by decide) hs
  · exact Only.canonical (execTamperEventMove_frame h) (by decide) hs
  · exact Only.canonical (execAuthHoldExpired_frame _ h) (by decide) hs
  · exact Only.canonical (execRemask_frame h) (by decide) hs
  · exact Only.canonical (execRngReseed_frame h) (by decide) hs
  · exact Only.canonical (execRngHealthFail_frame h) (by decide) hs
  · exact Only.canonical (execPufRetry_frame _ _ h) (by decide) hs
  · exact Only.canonical (execChallengeExpired_frame h) (by decide) hs
  · exact Only.canonical (execTidNowRead_frame _ h) (by decide) hs
  · exact Only.canonical (execLoCaptureRead_frame _ h) (by decide) hs
  · exact Only.canonical (execHicClaim_frame _ h) (by decide) hs
  · exact run_canonical h (.completeWrite hs)
  · exact run_canonical h (.mbxRing hs)
  · exact run_canonical h (.mbxCancel hs)
  · exact run_canonical h (.mbxAcknowledge hs)
  · exact run_canonical h (.stopWrite hs)
  · exact run_canonical h (.registerWrite hs)
  · exact run_canonical h (.badFrame hs)
  · exact run_canonical h (.requestStart hs)
  · exact run_canonical h (.mbxComplete hs)
  · exact run_canonical h (.command (fun _ hd => .sysGetVersion hd) hs)
  · exact run_canonical h (.command (fun _ hd => .ok hd) hs)
  · exact run_canonical h (.command (fun _ hd => .sysHpStatus hd) hs)
  · exact run_canonical h (.command (fun _ hd => .sysHpClear hd) hs)
  · exact run_canonical h (.command (fun _ hd => .sysFabricSlack hd) hs)
  · exact run_canonical h (.command (fun _ hd => .sysFabricClear hd) hs)
  · exact run_canonical h (.command (fun _ hd => .sysD2dStatus hd) hs)
  · exact run_canonical h (.command (fun _ hd => .sysReset hd) hs)
  · exact run_canonical h (.command (fun _ hd => .sysGetReset hd) hs)
  · exact run_canonical h (.command (fun _ hd => .tideGetTime hd) hs)
  · exact run_canonical h (.command (fun _ hd => .tideSetTrim hd) hs)
  · exact run_canonical h (.command (fun _ hd => .tidePpsConfig hd) hs)
  · exact run_canonical h (.command (fun _ hd => .tideSetTod hd) hs)
  · exact run_canonical h (.command (fun _ hd => .tideSnapshot hd) hs)
  · exact run_canonical h (.command (fun _ hd => .tideSubmit hd) hs)
  · exact run_canonical h (.command (fun _ hd => .tideCancel hd) hs)
  · exact run_canonical h (.command (fun _ hd => .tideRingStatus hd) hs)
  · exact run_canonical h (.command (fun _ hd => .tideClearCounts hd) hs)
  · exact run_canonical h (.command (fun _ hd => .metSealOpen hd) hs)
  · exact run_canonical h (.command (fun _ hd => .metSealClose hd) hs)
  · exact run_canonical h (.sealTimeout hs)
  · exact run_canonical h (.command (fun _ hd => .metGetConfig hd) hs)
  · exact run_canonical h (.command (fun _ hd => .metSetConfig hd) hs)
  · exact run_canonical h (.command (fun _ hd => .metLoadTable hd) hs)
  · exact run_canonical h (.command (fun _ hd => .metActivateTable hd) hs)
  · exact run_canonical h (.command (fun _ hd => .metReadTable hd) hs)
  · exact run_canonical h (.command (fun _ hd => .metSetRaw hd) hs)
  · exact run_canonical h (.command (fun _ hd => .metCalMeasure hd) hs)
  · exact run_canonical h (.command (fun _ hd => .metFpEval hd) hs)
  · exact run_canonical h (.command (fun _ hd => .metClearCounts hd) hs)
  · exact run_canonical h (.command (fun _ hd => .metSetNoload hd) hs)
  · exact run_canonical h (.command (fun _ hd => .metSetUref hd) hs)
  · exact run_canonical h (.command (fun _ hd => .metPqConfig hd) hs)
  · exact run_canonical h (.command (fun _ hd => .metEnergyRead hd) hs)
  · exact run_canonical h (.command (fun _ hd => .metEnergyClearFlags hd) hs)
  · exact run_canonical h (.command (fun _ hd => .metPqClearCounts hd) hs)
  · exact run_canonical h (.command (fun _ hd => .sluSetSite hd) hs)
  · exact run_canonical h (.command (fun _ hd => .sluSetConnector hd) hs)
  · exact run_canonical h (.command (fun _ hd => .sluSetTuning hd) hs)
  · exact run_canonical h (.command (fun _ hd => .sluGetNode hd) hs)
  · exact run_canonical h (.command (fun _ hd => .sluGetMap hd) hs)
  · exact run_canonical h (.command (fun _ hd => .sluModuleService hd) hs)
  · exact run_canonical h (.command (fun _ hd => .sluGetHandovers hd) hs)
  · exact run_canonical h (.command (fun _ hd => .sluClearCounts hd) hs)
  · exact run_canonical h (.command (fun _ hd => .mlkGetLane hd) hs)
  · exact run_canonical h (.command (fun _ hd => .mlkGetTelemetry hd) hs)
  · exact run_canonical h (.command (fun _ hd => .mlkEnumerate hd) hs)
  · exact run_canonical h (.command (fun _ hd => .mlkGetIdentity hd) hs)
  · exact run_canonical h (.command (fun _ hd => .mlkSetEnrolled hd) hs)
  · exact run_canonical h (.command (fun _ hd => .mlkSetOc hd) hs)
  · exact run_canonical h (.command (fun _ hd => .mlkSetVetoMask hd) hs)
  · exact run_canonical h (.command (fun _ hd => .mlkIdentify hd) hs)
  · exact run_canonical h (.command (fun _ hd => .mlkResetLane hd) hs)
  · exact run_canonical h (.command (fun _ hd => .mlkClearCounts hd) hs)
  · exact run_canonical h (.command (fun _ hd => .vehGetConnector hd) hs)
  · exact run_canonical h (.command (fun _ hd => .vehSetAvailability hd) hs)
  · exact run_canonical h (.command (fun _ hd => .vehSetPilotCfg hd) hs)
  · exact run_canonical h (.command (fun _ hd => .vehSetPpClass hd) hs)
  · exact run_canonical h (.command (fun _ hd => .vehSetDerate hd) hs)
  · exact run_canonical h (.command (fun _ hd => .vehSetLockCfg hd) hs)
  · exact run_canonical h (.command (fun _ hd => .vehLock hd) hs)
  · exact run_canonical h (.command (fun _ hd => .vehCpRestart hd) hs)
  · exact run_canonical h (.command (fun _ hd => .vehClearCounts hd) hs)
  · exact run_canonical h (.command (fun _ hd => .v2gSetConfig hd) hs)
  · exact run_canonical h (.command (fun _ hd => .v2gSetSecc hd) hs)
  · exact run_canonical h (.command (fun _ hd => .v2gGetSession hd) hs)
  · exact run_canonical h (.command (fun _ hd => .v2gClearCounts hd) hs)
  · exact run_canonical h (.command (fun _ hd => .plcSetMac hd) hs)
  · exact run_canonical h (.command (fun _ hd => .plcEnable hd) hs)
  · exact run_canonical h (.command (fun _ hd => .plcSetSlac hd) hs)
  · exact run_canonical h (.command (fun _ hd => .plcSetBlank hd) hs)
  · exact run_canonical h (.command (fun _ hd => .plcGetStatus hd) hs)
  · exact run_canonical h (.command (fun _ hd => .plcGetRun hd) hs)
  · exact run_canonical h (.command (fun _ hd => .plcGetProfile hd) hs)
  · exact run_canonical h (.command (fun _ hd => .plcClearCounts hd) hs)
  · exact run_canonical h (.command (fun _ hd => .imdSetConfig hd) hs)
  · exact run_canonical h (.command (fun _ hd => .imdSetForce hd) hs)
  · exact run_canonical h (.command (fun _ hd => .imdGetNode hd) hs)
  · exact run_canonical h (.command (fun _ hd => .imdRebaseline hd) hs)
  · exact run_canonical h (.command (fun _ hd => .rcmSetConfig hd) hs)
  · exact run_canonical h (.command (fun _ hd => .rcmGet hd) hs)
  · exact run_canonical h (.command (fun _ hd => .rcmTestStart hd) hs)
  · exact run_canonical h (.command (fun _ hd => .imdClearCounts hd) hs)
  · exact run_canonical h (.command (fun _ hd => .safGetStatus hd) hs)
  · exact run_canonical h (.command (fun _ hd => .safSetConfig hd) hs)
  · exact run_canonical h (.command (fun _ hd => .safResetAck hd) hs)
  · exact run_canonical h (.command (fun _ hd => .safWeldTest hd) hs)
  · exact run_canonical h (.command (fun _ hd => .safGetNode hd) hs)
  · exact run_canonical h (.command (fun _ hd => .safGetFaults hd) hs)
  · exact run_canonical h (.command (fun _ hd => .safClearCounts hd) hs)
  · exact run_canonical h (.command (fun _ hd => .lswSetChannel hd) hs)
  · exact run_canonical h (.command (fun _ hd => .lswSwitch hd) hs)
  · exact run_canonical h (.command (fun _ hd => .lswGetChannel hd) hs)
  · exact run_canonical h (.command (fun _ hd => .lswClearFault hd) hs)
  · exact run_canonical h (.command (fun _ hd => .lswSetCoil hd) hs)
  · exact run_canonical h (.command (fun _ hd => .lswGetCoil hd) hs)
  · exact run_canonical h (.command (fun _ hd => .lswSetLimp hd) hs)
  · exact run_canonical h (.command (fun _ hd => .lswLimpRelease hd) hs)
  · exact run_canonical h (.command (fun _ hd => .lswClearCounts hd) hs)
  · exact run_canonical h (.command (fun _ hd => .peaGetStatus hd) hs)
  · exact run_canonical h (.command (fun _ hd => .peaRead hd) hs)
  · exact run_canonical h (.command (fun _ hd => .peaFreeze hd) hs)
  · exact run_canonical h (.command (fun _ hd => .peaSetConfig hd) hs)
  · exact run_canonical h (.command (fun _ hd => .peaCtrRead hd) hs)
  · exact run_canonical h (.command (fun _ hd => .peaCtrIncrement hd) hs)
  · exact run_canonical h (.command (fun _ hd => .peaAckError hd) hs)
  · exact run_canonical h (.command (fun _ hd => .peaGetRecovery hd) hs)
  · exact run_canonical h (.command (fun _ hd => .peaClearCounts hd) hs)
  · exact run_canonical h (.command (fun _ hd => .sltLoadCalendar hd) hs)
  · exact run_canonical h (.command (fun _ hd => .sltGetCalendar hd) hs)
  · exact run_canonical h (.command (fun _ hd => .sltSetLegal hd) hs)
  · exact run_canonical h (.command (fun _ hd => .sltAuthorise hd) hs)
  · exact run_canonical h (.command (fun _ hd => .sltReadRegisters hd) hs)
  · exact run_canonical h (.command (fun _ hd => .sltSignReading hd) hs)
  · exact run_canonical h (.command (fun _ hd => .sltGetTamper hd) hs)
  · exact run_canonical h (.command (fun _ hd => .sltClearFlags hd) hs)
  · exact run_canonical h (.command (fun _ hd => .sltSetOutput hd) hs)
  · exact run_canonical h (.command (fun _ hd => .sltSetTamper hd) hs)
  · exact run_canonical h (.command (fun _ hd => .ledgerMessage hd) hs)
  · exact run_canonical h (.command (fun _ hd => .ledgerMessage hd) hs)
  · exact run_canonical h (.command (fun _ hd => .briGetWallet hd) hs)
  · exact run_canonical h (.command (fun _ hd => .briSetConfig hd) hs)
  · exact run_canonical h (.command (fun _ hd => .briGetLedger hd) hs)
  · exact run_canonical h (.command (fun _ hd => .briAudit hd) hs)
  · exact run_canonical h (.command (fun _ hd => .briBlock hd) hs)
  · exact run_canonical h (.command (fun _ hd => .ok hd) hs)
  · exact run_canonical h (.command (fun _ hd => .withKeys (fun _ he => .keyUpdate he) hd) hs)
  · exact run_canonical h (.command (fun _ hd => .withKeys (fun _ he => .keyLoad he) hd) hs)
  · exact run_canonical h (.command (fun _ hd => .withKeys (fun _ he => .keyUnload he) hd) hs)
  · exact run_canonical h (.command (fun _ hd => .withKeys (fun _ he => .keyGetPublic he) hd) hs)
  · exact run_canonical h (.command (fun _ hd => .withKeys (fun _ he => .ok he) hd) hs)
  · exact run_canonical h (.command (fun _ hd => .ok hd) hs)
  · exact run_canonical h (.command (fun _ hd => .withKeys (fun _ he => .keyGetChallenge he) hd) hs)
  · exact run_canonical h (.command (fun _ hd => .withKeys (fun _ he => .keyRandom he) hd) hs)
  · exact run_canonical h (.command (fun _ hd => .withKeys (fun _ he => .ok (.same he ⟨rfl, rfl, rfl⟩)) hd) hs)
  · exact run_canonical h (.slotReceive hs)
  · exact run_canonical h (.creditReceive hs)
  · exact run_canonical h (.recordSend hs)
  · exact Only.canonical (execAckTimeout_frame h) (by decide) hs
  · exact Only.canonical (execClockLost_frame h) (by decide) hs
  · exact run_canonical h (.linkUp hs)
  · exact run_canonical h (.trainingTimeout hs)
  · exact Only.canonical (execGroupStall_frame _ h) (by decide) hs
  · exact run_canonical h (.qmgAlloc (.qAccept hs))
  · exact run_canonical h (.qmgEnqueue (.qAccept hs))
  · exact run_canonical h (.qmgDequeue (.qAccept hs))
  · exact run_canonical h (.qmgFree (.qAccept hs))
  · exact run_canonical h (.command (fun _ hd => .cwySetLink hd) hs)
  · exact run_canonical h (.command (fun _ hd => .ok hd) hs)
  · exact run_canonical h (.command (fun _ hd => .only (cwyResetLink_frame _ _) (by decide) hd) hs)
  · exact run_canonical h (.command (fun _ hd => .cwySetGroup hd) hs)
  · exact run_canonical h (.command (fun _ hd => .cwyGetGroup hd) hs)
  · exact run_canonical h (.command (fun _ hd => .qmgSetQueue hd) hs)
  · exact run_canonical h (.command (fun _ hd => .qmgGetQueue hd) hs)
  · exact run_canonical h (.command (fun _ hd => .qmgFlush hd) hs)
  · exact run_canonical h (.command (fun _ hd => .ok hd) hs)
  · exact run_canonical h (.command (fun _ hd => .qmgSetLowWater hd) hs)
  · exact run_canonical h (.command (fun _ hd => .cwyQmgClear hd) hs)
  · exact run_canonical h (.extcominToggle hs)
  · exact run_canonical h (.panelPassEnd hs)
  · exact input_canonical h hs (.panelBiasFault hs)
  · exact run_canonical h (.redrawStrip hs)
  · exact Only.canonical (execNfcPing_frame _ _ _ h) (by decide) hs
  · exact input_canonical h hs (.cardResolved hs)
  · exact input_canonical h hs (.presenceCheck hs)
  · exact Only.canonical (execFieldRelease_frame _ h) (by decide) hs
  · exact input_canonical h hs (.nfcTxFault hs)
  · exact run_canonical h (.command (fun _ hd => .pnlSetConfig hd) hs)
  · exact run_canonical h (.command (fun _ hd => .pnlLoadGamma hd) hs)
  · exact run_canonical h (.command (fun _ hd => .pnlDraw hd) hs)
  · exact run_canonical h (.command (fun _ hd => .pnlFill hd) hs)
  · exact run_canonical h (.command (fun _ hd => .pnlFlush hd) hs)
  · exact run_canonical h (.command (fun _ hd => .pnlGetStatus hd) hs)
  · exact run_canonical h (.command (fun _ hd => .pnlClearCounts hd) hs)
  · exact run_canonical h (.command (fun _ hd => .nfcSetConfig hd) hs)
  · exact run_canonical h (.command (fun _ hd => .nfcPoll hd) hs)
  · exact run_canonical h (.command (fun _ hd => .nfcTransceive hd) hs)
  · exact run_canonical h (.command (fun _ hd => .nfcRelease hd) hs)
  · exact run_canonical h (.command (fun _ hd => .nfcClearCounts hd) hs)
  · exact run_canonical h .powerOn
  · exact run_canonical h .brownOut
  · exact run_canonical h .resetPin
  · exact run_canonical h (.clockFail hs)
  · exact run_canonical h (.coreFails hs)
  · exact run_canonical h (.coreFails hs)
  · exact run_canonical h (.sedgeAbsence hs)
  · exact run_canonical h (.stopSequenceEnd hs)
  · exact run_canonical h (.bootStageDone hs)
  · exact Only.canonical (execReadyDeclared_frame h) (by decide) hs
  · exact run_canonical h (.imageData hs)
  · exact run_canonical h (.blockTimeout hs)
  · exact run_canonical h (.bootRetry hs)
  · exact run_canonical h (.activationSwitch hs)
  · exact Only.canonical (execModemDeferredSwitch_frame _ h) (by decide) hs
  · exact Only.canonical (execTrialWarn_frame h) (by decide) hs
  · exact run_canonical h (.trialExpired hs)
  · exact run_canonical h (.command (fun _ hd => .updGetStatus hd) hs)
  · exact run_canonical h (.command (fun _ hd => .updStage hd) hs)
  · exact run_canonical h (.command (fun _ hd => .updActivate hd) hs)
  · exact run_canonical h (.command (fun _ hd => .updCommit hd) hs)
  · exact run_canonical h (.command (fun _ hd => .updRevert hd) hs)
  · exact run_canonical h (.command (fun _ hd => .updDiscard hd) hs)
  · exact run_canonical h (.command (fun _ hd => .updSetConfig hd) hs)
  · exact run_canonical h (.command (fun _ hd => .updGetManifest hd) hs)
  · exact run_canonical h (.updBootPart hs)
  · exact run_canonical h (.oplogFlush hs)
  · exact run_canonical h (.fatalError hs)
  · exact Only.canonical (execDumpStart_frame h) (by decide) hs
  · exact Only.canonical (execDumpComplete_frame h) (by decide) hs
  · exact run_canonical h (.traceOverflow hs)
  · exact run_canonical h (.traceIn hs)
  · exact Only.canonical (execReplayStarved_frame h) (by decide) hs
  · exact run_canonical h (.command (fun _ hd => .btnRead hd) hs)
  · exact run_canonical h (.command (fun _ hd => .btnClear hd) hs)
  · exact run_canonical h (.command (fun _ hd => .btnSetConfig hd) hs)
  · exact run_canonical h (.command (fun _ hd => .btnGetStatus hd) hs)
  · exact run_canonical h (.command (fun _ hd => .btnClearCounts hd) hs)
  · exact run_canonical h (.command (fun _ hd => .dmpGetStatus hd) hs)
  · exact run_canonical h (.command (fun _ hd => .dmpExport hd) hs)
  · exact run_canonical h (.command (fun _ hd => .dmpRelease hd) hs)
  · exact run_canonical h (.command (fun _ hd => .dmpTrigger hd) hs)
  · exact run_canonical h (.command (fun _ hd => .recArm hd) hs)
  · exact run_canonical h (.command (fun _ hd => .rplArm hd) hs)
  · exact run_canonical h (.command (fun _ hd => .rplGetStatus hd) hs)
  · exact Only.canonical (execIdcode_frame h) (by decide) hs
  · exact Only.canonical (execSamplePreload_frame _ h) (by decide) hs
  · exact Only.canonical (execExtest_frame _ h) (by decide) hs
  · exact Only.canonical (execDbgChallenge_frame h) (by decide) hs
  · exact Only.canonical (execDbgResponse_frame _ _ h) (by decide) hs
  · exact Only.canonical (execDbgChallengeExpired_frame h) (by decide) hs
  · exact run_canonical h (.dbgAccess hs)
  · exact Only.canonical (execDbgStatusScan_frame h) (by decide) hs
  · exact Only.canonical (execBypass_frame h) (by decide) hs
  · exact run_canonical h (.debugHalt hs)
  · exact Only.canonical (execDebugStep_frame _ h) (by decide) hs
  · exact run_canonical h (.debugResume hs)
  · exact run_canonical h (.debugReset hs)
  · exact run_canonical h (.coreRestartComplete hs)
  · exact Only.canonical (execOvervoltageRelease_frame _ h) (by decide) hs
  · exact Only.canonical (execSafetyInputClose_frame _ h) (by decide) hs
  · exact Only.canonical (execReadFrame_frame _ _ _ h) (by decide) hs
  · exact input_canonical h hs (.falseWakeUp hs)
  · exact run_canonical h (.resetNRelease hs)
  · exact run_canonical h (.stopSequenceStart hs)
  · exact Only.canonical (execReceiveClockStable_frame h) (by decide) hs
  · exact Only.canonical (execTrialTimeSave_frame h) (by decide) hs

/-- A step is a tick of Tide or the row of the command at the front. -/
theorem step_canonical (h : step s = .next t) (hs : s.block.Canonical k) : t.block.Canonical k := by
  unfold step at h
  split at h
  · exact run_canonical h (.tick hs)
  · exact exec_canonical h hs

end Machine

/-- Settles O7: the rows of drawings are stored byte by byte, and a reset clears the frames. -/
theorem frameMemoryStaysCanonical : Obligations.FrameMemoryStaysCanonical :=
  fun _ _ hs h => step_canonical (k := .frames) h hs

/-- Settles O8: the queue manager stores records and zeroes the buffers it gives, and a reset clears the SRAM. -/
theorem recordMemoryStaysCanonical : Obligations.RecordMemoryStaysCanonical :=
  fun _ _ hs h => step_canonical (k := .sram) h hs

/-- Settles O9: requests are stored word by word, a response is stored whole, and a reset clears both. -/
theorem mailboxBuffersStayCanonical : Obligations.MailboxBuffersStayCanonical :=
  fun _ _ hs h => step_canonical (k := .buffers) h hs

end Sys2Proof
end
